-- ==== Sys2Proof/Word.lean ====
section
/-! DEFINITION. The word and byte types, and the records that commands carry as operands: a towpath datagram,
a RoCEv2 packet, a towline frame, a barge, the link-management messages, and the names of the agents and units
of the die. Widths and layouts are those of the rules cited at each. -/

namespace Sys2Proof

/-- A register or descriptor word (R14, R210). -/
abbrev Word := BitVec 64

/-- One byte (R8). -/
abbrev Byte := BitVec 8

/-- A 16-bit error code (R20). -/
abbrev Code := BitVec 16

/-- The units a macro-op runs on (R178). -/
inductive UnitId where
  | array
  | vector
  | feeder
  | sluice (s : Fin 4)
  deriving DecidableEq, Repr

/-- The issuers of a core, in the order of R179, with the fourth issuer value of R603 (another chip or a release). -/
inductive Issuer where
  | aStream
  | xStream
  | keeper
  | other
  deriving DecidableEq, Repr

/-- Router ports in the order in which a rank takes its inputs (R285, R292). -/
inductive MeshPort where
  | north
  | south
  | east
  | west
  | edge
  | localPort
  deriving DecidableEq, Repr

/-- Destinations of a barge: the receivers of R297, with the blocks that consume SIGNAL, STEP and REG barges. -/
inductive Agent where
  | core (n : Fin 256)
  | hold (h : Fin 2)
  | towline (p : Fin 48)
  | ethernet (p : Fin 2)
  | wharfinger
  | serving
  | tollhouse
  | lock
  | stepUnit
  | regPath
  deriving DecidableEq, Repr

/-- A barge with the check bits it carries: a 64-bit header and its 8 check bits (R295), a 64-byte payload and the
10 check bits of each of its two lines (R298), and the exit field it bears on the mesh (R391). The model also notes whether it came by a
towline, and whether a CTX reset has ended what it belongs to (R546). -/
structure Barge where
  header  : Word
  hcheck  : Byte
  payload : BitVec 512
  check0  : BitVec 10
  check1  : BitVec 10
  exitPort : Option (Fin 48)
  epochParity : Bool
  far   : Bool := false
  stale : Bool := false
  deriving DecidableEq, Repr

/-- A towline frame as it leaves or reaches the FEC: the lane it travels on, the 100-bit header, the 8 flits, and, on arrival, the
symbols of its codeword that the FEC corrected and whether it was uncorrectable (R374, R377, R378, R380, R383, R413). -/
structure Frame where
  lane   : Nat
  header : BitVec 100
  flits  : List (BitVec 630)
  fixed  : Nat := 0
  fecBad : Bool := false
  deriving DecidableEq, Repr

/-- What a lane learns in training: the partner chip's serial, its port, and the lane it faces (R376). -/
structure LaneFace where
  serial : Word
  port   : Fin 48
  lane   : Fin 96
  deriving DecidableEq, Repr

/-- The fields of a HELLO (R387). -/
structure HelloMsg where
  serial : Word
  role   : BitVec 2
  addr   : BitVec 16
  mgr    : BitVec 16
  epoch  : BitVec 32
  port   : BitVec 6
  lane   : BitVec 7
  deriving DecidableEq, Repr

/-- The fields of a PROBE; op 0 is IDENT and 1 ASSIGN (R387). -/
structure ProbeMsg where
  hops    : BitVec 4
  index   : BitVec 4
  route   : BitVec 90
  ret     : BitVec 90
  op      : BitVec 4
  newAddr : BitVec 16
  mgr     : BitVec 16
  epoch   : BitVec 32
  deriving DecidableEq, Repr

/-- The fields of a PROBE_REPLY (R387). -/
structure ProbeReplyMsg where
  hops   : BitVec 4
  index  : BitVec 4
  ret    : BitVec 90
  serial : Word
  role   : BitVec 2
  addr   : BitVec 16
  linked : BitVec 48
  result : BitVec 16
  deriving DecidableEq, Repr

/-- The IEEE 802.1Q tag of an Ethernet frame: VLAN id and priority code point (R421). -/
structure VlanTag where
  vid : BitVec 12
  pcp : BitVec 3
  deriving DecidableEq, Repr

/-- A UDP datagram for the towpath port, as it reaches the wharfinger: the interface it arrived on, the tag of its frame, its source,
and its bytes from byte 0 of the towpath header (R427). -/
structure Datagram where
  ifc   : Fin 8
  tag   : Option VlanTag := none
  src   : BitVec 128
  sport : BitVec 16
  bytes : List Byte
  deriving DecidableEq, Repr

/-- What a neighbour packet asks for (R420). -/
inductive NeighbourMsg where
  | arpRequest (target : BitVec 32) (sender : BitVec 32) (mac : BitVec 48)
  | arpReply (sender : BitVec 32) (mac : BitVec 48)
  | ndSolicit (target : BitVec 128) (sender : BitVec 128) (mac : BitVec 48)
  | ndAdvert (target : BitVec 128) (mac : BitVec 48)
  | echo (target : BitVec 128) (sender : BitVec 128) (data : List Byte)
  | unsupported
  deriving DecidableEq, Repr

/-- A neighbour packet with the tag of its frame (R420, R421). -/
structure NeighbourFrame where
  tag : Option VlanTag := none
  msg : NeighbourMsg
  deriving DecidableEq, Repr

/-- A RoCEv2 packet or message as a queue pair sees it (R435 to R440): its interface and tag, the local QP number, the packet sequence
number, the remote key and address of an RDMA operation, its length, its immediate, its bytes, and for a NAK its
syndrome. `supported` is false where the opcode is not one of R435. -/
structure Packet where
  ifc       : Fin 8
  tag       : Option VlanTag := none
  qpn       : BitVec 24
  psn       : BitVec 24
  rkey      : BitVec 32
  vaddr     : Word
  length    : BitVec 32
  imm       : BitVec 32
  bytes     : List Byte
  ce        : Bool
  supported : Bool
  deriving DecidableEq, Repr

/-- One mismatch a self-test unit found (R144, R563): the core, the physical row and column of an array mismatch,
and the core-window offset of a memory mismatch. -/
structure TestFail where
  core   : Fin 256
  row    : BitVec 7
  col    : BitVec 7
  offset : BitVec 26
  deriving DecidableEq, Repr

/-- Bytes of a list read as a little-endian number (R8). -/
def leNat : List Byte → Nat
  | [] => 0
  | b :: bs => b.toNat + 256 * leNat bs

/-- The `n` low bytes of a number, least significant first (R8). -/
def natLe : Nat → Nat → List Byte
  | 0, _ => []
  | n + 1, v => BitVec.ofNat 8 v :: natLe n (v / 256)

/-- `ceil(a / b)`, with `ceil(a / 0)` taken as 0. -/
def ceilDiv (a b : Nat) : Nat := if b = 0 then 0 else (a + b - 1) / b

end Sys2Proof
end

