-- ==== Sys2Proof/Syntax.lean ====
section
/-! DEFINITION. The commands of the block, one constructor for each row of spec/opcode_table.json, with the operands
that the row's rule names. The table gives no row any bits, so a command is spelled by its constructor alone. -/

namespace Sys2Proof

/-- The commands and events of the device. Indices are typed by their ranges (R12), so that a command cannot name a
core, reach, lane, port, slot or channel that does not exist. -/
inductive Instr where
  /-- PACER_TICK (R49). A reach pacer's tick falls due one beat period after its last token. -/
  | pacerTick (r : Fin 16)
  /-- BEAT_TOKEN (R47). A pacer issues token b+1 once its tick, beat completion, any throttle extension and any die hold all allow it, and every block of the reach starts its beat-b+1 work. -/
  | beatToken (r : Fin 16) (codes : List Byte)
  /-- BEAT_COMPLETE (R48). A reach completes beat b when every included block's done and every incoming boundary token have arrived. -/
  | beatComplete (r : Fin 16)
  /-- LATE_ITEM_ARRIVAL (R348). A missing due-beat item arrives and its unit withdraws its hold request. -/
  | lateItemArrival (core : Fin 256) (unit : UnitId)
  /-- VANE_WINDOW_END (R68). At the end of each 4,096-beat window VANE_MARGIN_r takes each vane's lowest code. -/
  | vaneWindowEnd (r : Fin 16)
  /-- VANE_CRITICAL (R70). A vane at or below crit on 4 consecutive beats logs 0x4102 and, with auto_down, requests a retune one point down. -/
  | vaneCritical (r : Fin 16)
  /-- VANE_THRESH_WRITE (R73). A write to VANE_THRESH sets the thresholds, or is discarded with 0x3103 when crit is not below warn. -/
  | vaneThreshWrite (v : Word)
  /-- TARGET_OP_WRITE (R74). A write of PACE_OPSEL_r.target_op requests a retune, or is discarded with 0x3101 when above the ceiling. -/
  | targetOpWrite (r : Fin 16) (v : Word)
  /-- RETUNE_STOP (R76). Within 1 µs of a pending retune request the retuning pacers hold the die and their regulators move to the target voltage. -/
  | retuneStop
  /-- REGULATOR_SETTLED (R76). A retuning reach's regulator settles within ±10 mV and pacer, vane and delay-line calibration begins. -/
  | regulatorSettled (r : Fin 16)
  /-- RETUNE_COMPLETE (R76). Calibration ends, current_op takes target_op, retune_count increments and the hold is withdrawn. -/
  | retuneComplete (r : Fin 16)
  /-- SETTLE_TIMEOUT (R77). A regulator unsettled 2.4 µs into a stop resumes its reach on the lower point, sets settle_fail and logs 0x4103. -/
  | settleTimeout (r : Fin 16)
  /-- SECOND_STOP_TIMEOUT (R77). With no second stop within 50 µs the reach keeps the lower point, target_op follows, busy clears and 0xF000 is logged. -/
  | secondStopTimeout (r : Fin 16)
  /-- QPUSH (R197). The keeper pushes a 64 B entry from memory to a queue, with hardware beat and seq. -/
  | qpush (core : Fin 256)
  /-- QWAIT (R197). The keeper waits on a queue for an entry to pop. -/
  | qwait (core : Fin 256)
  /-- QWAIT_COMPLETE (R197). A waiting QWAIT pops the entry present into memory and returns its seq. -/
  | qwaitComplete (core : Fin 256)
  /-- QTAKE (R197). The keeper pops the head entry without waiting, with 0x3802 and FAULT on an empty queue. -/
  | qtake (core : Fin 256)
  /-- QCOUNT (R197). The keeper reads the number of entries in a queue. -/
  | qcount (core : Fin 256)
  /-- ISSUE (R180). The keeper appends a 64 B descriptor to a stream's issue FIFO, stalling if it is full. -/
  | issue (core : Fin 256)
  /-- ISSUE_COMPLETE (R180). A stalled ISSUE completes when a FIFO slot becomes free. -/
  | issueComplete (core : Fin 256)
  /-- IFREE (R197). The keeper reads the free slots of a stream's issue FIFO. -/
  | ifree (core : Fin 256)
  /-- LSIG (R197). The keeper signals a lock counter of its own core or of another virtual core on the chip. -/
  | lsig (core : Fin 256)
  /-- LWAIT (R197). The keeper issues WAIT(n) on its own counter and stalls until satisfied. -/
  | lwait (core : Fin 256)
  /-- LWAIT_SATISFIED (R317). A waiting LWAIT is served by its counter, which falls by n, and the keeper continues. -/
  | lwaitSatisfied (core : Fin 256)
  /-- LTAKE (R197). The keeper subtracts n from its own counter without waiting. -/
  | ltake (core : Fin 256)
  /-- LREAD (R197). The keeper reads a lock counter. -/
  | lread (core : Fin 256)
  /-- LBAR (R335). The keeper arrives at a barrier slot. -/
  | lbar (core : Fin 256)
  /-- KSTEPW (R200). The keeper begins the next step, holding the die if its next record slot is empty. -/
  | kstepw (core : Fin 256)
  /-- KSTEPW_COMPLETE (R200). Once every running core holds its record, KSTEPW moves next to current and its completion beat is step beat 0. -/
  | kstepwComplete (core : Fin 256)
  /-- KSEL (R201). The keeper selects the shape-menu entry for shape_class, refused with 0x3805 and FAULT on a bad index or key. -/
  | ksel (core : Fin 256)
  /-- KDONE (R202). The keeper ends the step, waiting until both streams are idle. -/
  | kdone (core : Fin 256)
  /-- KDONE_COMPLETE (R202). KDONE completes, STEP_STAT.beats is written, step_beats is compared and the core marks itself out of step. -/
  | kdoneComplete (core : Fin 256)
  /-- KEEPER_INSTRUCTION (R194). The keeper executes a base integer, branch, multiply or divide instruction in its fixed beats, stopping with 0x3801 on an illegal one. -/
  | keeperInstruction (core : Fin 256)
  /-- KEEPER_LOAD (R190). The keeper loads from its memories, core registers, basin or operand cache, faulting on a bad or uncorrectable access. -/
  | keeperLoad (core : Fin 256)
  /-- KEEPER_STORE (R190). The keeper stores to data memory, core registers, basin or operand cache, faulting on a bad access. -/
  | keeperStore (core : Fin 256)
  /-- CSR_ACCESS (R191). The keeper reads one of its implemented CSRs. -/
  | csrAccess (core : Fin 256)
  /-- EBREAK (R602). EBREAK retires and halts the keeper, putting the core in HALTED. -/
  | ebreak (core : Fin 256)
  /-- NARROW_ACCESS_SERVE (R250). A waiting narrow keeper or register-path access to a basin or operand-cache bank is served in the first beat its bank has no wide unit. -/
  | narrowAccessServe (core : Fin 256)
  /-- ARM (R204). A write of CORE_CTRL.arm = 1 moves a STOPPED core to LOADED. -/
  | armCore (core : Fin 256)
  /-- DISARM (R204). A write of CORE_CTRL.arm = 0 returns a LOADED core to STOPPED. -/
  | disarmCore (core : Fin 256)
  /-- HALT (R602). CORE_CTRL.halt stops a RUNNING core's keeper at an instruction boundary, or is discarded with 0x3806 when debug is closed. -/
  | haltCore (core : Fin 256)
  /-- RESUME (R602). CORE_CTRL.resume returns a HALTED core to RUNNING. -/
  | resumeCore (core : Fin 256)
  /-- KSTEP (R206). CORE_CTRL.kstep executes one keeper instruction in HALTED. -/
  | kstepCore (core : Fin 256)
  /-- MMUL (R221). An MMUL starts at the head of the X-stream, filling, streaming and draining one output tile at exactly its cost. -/
  | mmul (core : Fin 256)
  /-- XNOP (R220). An XNOP occupies the vector engine for its declared beats with its lock and queue actions. -/
  | xnop (core : Fin 256)
  /-- ANOP (R220). An ANOP occupies the feeder for its declared beats with its lock and queue actions. -/
  | anop (core : Fin 256)
  /-- VADD (R158). The vector engine adds two operands element-wise. -/
  | vadd (core : Fin 256)
  /-- VSUB (R158). The vector engine subtracts two operands element-wise. -/
  | vsub (core : Fin 256)
  /-- VMUL (R158). The vector engine multiplies two operands element-wise. -/
  | vmul (core : Fin 256)
  /-- VFMA (R158). The vector engine computes a × b + c with one rounding. -/
  | vfma (core : Fin 256)
  /-- VMAX (R160). The vector engine takes the element-wise maximum. -/
  | vmax (core : Fin 256)
  /-- VMIN (R160). The vector engine takes the element-wise minimum. -/
  | vmin (core : Fin 256)
  /-- VNEG (R160). The vector engine negates each element. -/
  | vneg (core : Fin 256)
  /-- VABS (R160). The vector engine takes each element's absolute value. -/
  | vabs (core : Fin 256)
  /-- VSEL (R158). The vector engine selects a or b per lane by a mask. -/
  | vsel (core : Fin 256)
  /-- VCMP (R160). The vector engine writes a mask by a comparison predicate. -/
  | vcmp (core : Fin 256)
  /-- VCVT (R161). The vector engine converts elements between formats, quantising MX blocks by R97. -/
  | vcvt (core : Fin 256)
  /-- VEXP2 (R115). The vector engine computes exp2 by the printed algorithm. -/
  | vexp2 (core : Fin 256)
  /-- VLOG2 (R115). The vector engine computes log2 by the printed algorithm. -/
  | vlog2 (core : Fin 256)
  /-- VRCP (R115). The vector engine computes the reciprocal by the printed algorithm. -/
  | vrcp (core : Fin 256)
  /-- VRSQ (R115). The vector engine computes rsqrt by the printed algorithm. -/
  | vrsq (core : Fin 256)
  /-- VSIG (R115). The vector engine computes sigmoid by the printed algorithm. -/
  | vsig (core : Fin 256)
  /-- VSILU (R115). The vector engine computes SiLU by the printed algorithm. -/
  | vsilu (core : Fin 256)
  /-- VTANH (R115). The vector engine computes tanh by the printed algorithm. -/
  | vtanh (core : Fin 256)
  /-- VGELU (R115). The vector engine computes GELU (tanh form) by the printed algorithm. -/
  | vgelu (core : Fin 256)
  /-- VSUM (R167). The vector engine adds elements into a vector AFA, with optional clear and drain. -/
  | vsum (core : Fin 256)
  /-- VSUMSQ (R167). The vector engine adds squares of elements into a vector AFA. -/
  | vsumsq (core : Fin 256)
  /-- VDOT (R167). The vector engine adds element products into a vector AFA. -/
  | vdot (core : Fin 256)
  /-- VRSUM (R168). The vector engine computes an FP32 sum in fixed partial order. -/
  | vrsum (core : Fin 256)
  /-- VRMAX (R169). The vector engine writes the largest active non-NaN value. -/
  | vrmax (core : Fin 256)
  /-- VARGMAX (R169). The vector engine writes the largest value with its index as a candidate entry. -/
  | vargmax (core : Fin 256)
  /-- VTOPK (R171). The vector engine writes the k largest candidates as a sorted list. -/
  | vtopk (core : Fin 256)
  /-- VSAMPLE (R173). The vector engine draws one token from a candidate list with the ChaCha20 or entropy word. -/
  | vsample (core : Fin 256)
  /-- FLOAD (R229). The feeder copies rows from the basin to the operand cache. -/
  | fload (core : Fin 256)
  /-- FSTORE (R229). The feeder copies rows from the operand cache to the basin. -/
  | fstore (core : Fin 256)
  /-- SCOPY (R233). A sluice copies rows between global addresses as one sub-transfer. -/
  | scopy (core : Fin 256)
  /-- SCAST (R234). A sluice multicasts rows to a set of cores on this chip or along a tree. -/
  | scast (core : Fin 256)
  /-- SKVR (R235). A sluice reads a request's KV slices from the holds through its page map, zeroing rows at or above limit. -/
  | skvr (core : Fin 256)
  /-- SKVW (R235). A sluice writes KV slices into the holds through a request's page map. -/
  | skvw (core : Fin 256)
  /-- SRED (R238). A sluice combines landed reduction partials element by element and writes the result locally. -/
  | sred (core : Fin 256)
  /-- LMMUL (R245). A legacy LMMUL descriptor runs as a translated MMUL in a crossbar reach. -/
  | lmmul (core : Fin 256)
  /-- LLOAD (R245). A legacy LLOAD runs as a translated FLOAD. -/
  | lload (core : Fin 256)
  /-- LSTORE (R245). A legacy LSTORE runs as a translated FSTORE. -/
  | lstore (core : Fin 256)
  /-- LCOPY (R245). A legacy LCOPY runs as an SCOPY on sluice 0 within the reach. -/
  | lcopy (core : Fin 256)
  /-- LVECTOR (R245). A legacy vector form 0x10–0x22 runs as the matching native vector instruction on flat operands. -/
  | lvector (core : Fin 256)
  /-- MACRO_OP_LAST_BEAT (R182). In a macro-op's last beat it pushes to its push-mask queues and applies its post-signal action. -/
  | macroOpLastBeat (core : Fin 256) (unit : UnitId)
  /-- SYNC_SIGNAL_ARRIVAL (R325). An on-die signal on the sync plane is applied at its target counter in beat b + 2 + d. -/
  | syncSignalArrival (core : Fin 256)
  /-- BARRIER_RELEASE (R336). Forty beats after a local completion SIGNAL(1) is applied to rel_ctr of every participant. -/
  | barrierRelease (slot : Fin 64)
  /-- CHIP_ARRIVAL (R337). The leader receives a kind-1 SIGNAL barge, counts it and sends the fabric release once all chips are in. -/
  | chipArrival
  /-- FABRIC_RELEASE (R337). A kind-2 release barge reaches a chip and is held until its apply beat. -/
  | fabricRelease
  /-- SLOT_ARM (R339). A write of armed = 1 arms a barrier slot, or is discarded with 0x3304. -/
  | slotArm (slot : Fin 64) (v : Word)
  /-- SLOT_DISARM (R339). A write of armed = 0 disarms a slot and clears its arrival and early bits. -/
  | slotDisarm (slot : Fin 64)
  /-- SIGNAL_BARGE (R329). A SIGNAL barge reaches the target chip's LOCK block and enters the pending store. -/
  | signalBarge
  /-- PENDING_SIGNAL_APPLY (R329). A pending cross-chip signal is applied when its target is in the matching step at the apply beat. -/
  | pendingSignalApply (core : Fin 256)
  /-- BARGE_FORWARD (R292). A router output takes waiting barges by class, port and arrival order as room allows. -/
  | bargeForward (node : Fin 256) (out : MeshPort)
  /-- MCAST_REPLY_COMBINE (R308). A router sends one combined reply upstream when the last branch reply arrives. -/
  | mcastReplyCombine (node : Fin 256) (id : BitVec 12)
  /-- INGRESS_WRITE (R248). A barge held in the ingress buffer is written to the basin or operand cache when its bank or port serves it. -/
  | ingressWrite (core : Fin 256)
  /-- WEIGHT_STORE_WRITE (R260). The weight-store write port writes the next ingress barge for the store. -/
  | weightStoreWrite (core : Fin 256)
  /-- OPEN_BARGE (R301). An OPEN arrives at a destination, which allocates a landing slot and checks any berth claim. -/
  | openBarge (a : Agent)
  /-- GRANT (R301). A GRANT reaches the sluice, which sends DATA or a READ once every destination has granted. -/
  | grant (core : Fin 256) (sl : Fin 4)
  /-- REFUSE (R256). A REFUSE reaches the sluice, which logs the code, aborts multicast branches and puts the core in FAULT. -/
  | refuse (core : Fin 256) (sl : Fin 4)
  /-- DATA (R304). A DATA barge reaches its destination and is written in seq order, or as poison on a mismatch. -/
  | dataBarge (a : Agent)
  /-- ACK_BARGE (R305). An ACK reaches the sluice, completing the transfer once all are held. -/
  | ackBarge (core : Fin 256) (sl : Fin 4)
  /-- READ (R302). A READ reaches a source agent and is queued, or refused with 0x3408 when the queue is full. -/
  | readBarge (a : Agent)
  /-- READ_AGENT_SERVE (R302). A source agent serves its oldest READ and sends the DATA barges. -/
  | readAgentServe (a : Agent)
  /-- ABORT (R309). An ABORT frees the slots and multicast entries of granted branches. -/
  | abortBarge (a : Agent)
  /-- HOLD_REQUEST_COMPLETE (R264). A pseudo-channel completes a hold read or write in arrival order. -/
  | holdRequestComplete (h : Fin 2) (pc : Fin 64)
  /-- HOLD_REFRESH (R267). A pseudo-channel's scheduled refresh falls due and occupies it, or is postponed while requests wait. -/
  | holdRefresh (h : Fin 2) (pc : Fin 64)
  /-- REFRESH_MAKEUP (R267). A postponed refresh is made up in an interval with no waiting request. -/
  | refreshMakeup (h : Fin 2) (pc : Fin 64)
  /-- HOLD_SCRUB_READ (R268). A controller issues a scrub read in a slot with no waiting request. -/
  | holdScrubRead (h : Fin 2) (pc : Fin 64)
  /-- HOLD_TEMP_UPDATE (R266). The stack temperature updates every 1 ms and selects normal or extended refresh. -/
  | holdTempUpdate (h : Fin 2) (tempC : Byte)
  /-- CORRECTED_LINE_REWRITE (R279). A corrected hold line is rewritten in the next idle slot of its pseudo-channel. -/
  | correctedLineRewrite (h : Fin 2) (pc : Fin 64)
  /-- BERTH_CONFIG_WRITE (R257). A write to BERTH_n word 0 sets the window and zeroes credit, or is discarded with 0x3404. -/
  | berthConfigWrite (core : Fin 256) (n : Fin 16) (v : Word)
  /-- BERTH_GRANT (R255). A write of grant adds credit to a berth, capped at size, or is discarded when disabled. -/
  | berthGrant (core : Fin 256) (n : Fin 16) (v : Word)
  /-- VEC_WIN_WRITE (R177). A write of VEC_WIN_v.base relocates a window, or is discarded with 0x3704 above 0x3E0. -/
  | vecWinWrite (core : Fin 256) (w : Fin 32) (v : Word)
  /-- MESH_MODE_WRITE (R313). A write to MESH_MODE sets crossbar reaches, or is discarded whole with 0x3409. -/
  | meshModeWrite (v : Word)
  /-- PROGRAM_START (R364). DTRM_CTRL.start briefly stops the die, clears beat and run counters and moves every LOADED core to RUNNING at beat 0. -/
  | programStart
  /-- DTRM_WRITE (R365). A write to strict, grid, allowances, package digest, latencies or map is stored, or discarded with 0x3010 while a program runs. -/
  | dtrmWrite (off : BitVec 16) (v : Word)
  /-- WATCHDOG_FIRE (R352). A hold with missing items reaching limit_ns logs 0x4001, faults the cores concerned and abandons their items. -/
  | watchdogFire
  /-- LOAD (R368). The loader checks a package, resets and configures every member, fills weights and arms the cores. -/
  | load (d : Datagram)
  /-- UNLOAD (R367). The loader applies a CTX reset to every member and the serving engine fails unfinished requests. -/
  | unload (d : Datagram)
  /-- LANE_SIGNAL_LOSS (R384). A lane without signal or FEC alignment for 1 µs takes its port down and logs 0x5901. -/
  | laneSignalLoss (l : Fin 96)
  /-- HELLO_TIMEOUT (R384). No HELLO for 3 ms takes the port down. -/
  | helloTimeout (p : Fin 48)
  /-- HELLO_SEND (R388). Every 1 ms a LINKED or ACTIVE port sends a HELLO on its lowest lane. -/
  | helloSend (p : Fin 48)
  /-- HELLO (R388). A received HELLO stores the partner's serial and address, brings a trained port to LINKED, and logs 0x5903 on a changed partner. -/
  | hello (p : Fin 48) (msg : HelloMsg)
  /-- RETRAIN (R385). A write of TOWL_LANE_CTRL_l.retrain puts the lane's port into TRAINING. -/
  | retrain (l : Fin 96)
  /-- AUTO_RETRAIN (R385). With auto set a DOWN port re-enters TRAINING 1 ms or 500 ms after going down. -/
  | autoRetrain (p : Fin 48)
  /-- TRAINING_COMPLETE (R386). Equalisation, alignment and deskew end and the port starts sending frames from fseq 0. -/
  | trainingComplete (p : Fin 48) (partner : List LaneFace)
  /-- TRAINING_TIMEOUT (R386). A port not LINKED 300 ms after training began enters DOWN. -/
  | trainingTimeout (p : Fin 48)
  /-- FRAME_SEND (R380). A port sends its next frame on lane f mod w, filling flits by class order against credit. -/
  | frameSend (p : Fin 48)
  /-- FRAME_RECEIVE (R383). A received frame is checked, its flits passed on and credit and acks taken, or it is discarded and a nak sent. -/
  | frameReceive (p : Fin 48) (f : Frame)
  /-- PORT_MAP_WRITE (R375). A write to TOWL_PORT_MAP_p forms a port, or is discarded with 0x5905. -/
  | portMapWrite (p : Fin 48) (v : Word)
  /-- PORT_ACTIVE_WRITE (R385). A write of active = 1 puts a LINKED port in ACTIVE, or is discarded with 0x5905. -/
  | portActiveWrite (p : Fin 48)
  /-- PROBE_FORWARD (R389). A PROBE not yet at its target records its arrival port and is sent on its next route port. -/
  | probeForward (p : Fin 48) (msg : ProbeMsg)
  /-- PROBE_IDENT (R390). A PROBE with op IDENT at its target is answered with the chip's state. -/
  | probeIdent (p : Fin 48) (msg : ProbeMsg)
  /-- PROBE_ASSIGN (R390). A PROBE with op ASSIGN at its target sets the chip address, manager and route, or refuses with 0x5907. -/
  | probeAssign (p : Fin 48) (msg : ProbeMsg)
  /-- PROBE_REPLY (R389). A PROBE_REPLY retraces its return route one hop toward the manager. -/
  | probeReply (p : Fin 48) (msg : ProbeReplyMsg)
  /-- TIME_EXCHANGE (R408). Every 1 ms a chip sends a TIME request on its parent and backup ports. -/
  | timeExchange
  /-- TIME_REQUEST (R408). A received TIME request is stamped and answered with tb and tc. -/
  | timeRequest (p : Fin 48) (ta : Word)
  /-- TIME_RESPONSE (R408). A TIME response gives the link delay and offset, and the follower adjusts fabric time. -/
  | timeResponse (p : Fin 48) (ta tb tc : Word)
  /-- ROUTE_TABLE_WRITE (R397). A write to a route or tree bank is accepted, or discarded with 0x5907. -/
  | routeTableWrite (off : BitVec 17) (v : Word)
  /-- EPOCH_ARM (R398). A write of FABR_EPOCH_NEXT arms an epoch switch, switching at once if no program runs. -/
  | epochArm (v : Word)
  /-- FABR_EVQ_READ (R414). A read of FABR_EVQ pops the oldest notice. -/
  | fabrEvqRead
  /-- FERRY_GO (R410). A write of go starts a ferry channel copying hold ranges to another chip, or reports 0x3402. -/
  | ferryGo (c : Fin 4)
  /-- FERRY_STALL (R411). A ferry with open sub-transfers and no ACK for 1 s stops with 0x5909. -/
  | ferryStall (c : Fin 4)
  /-- STEP_READY (R403). When every running core has completed KDONE for a step the chip sends step-ready to the leader. -/
  | stepReady
  /-- STEP_READY_BARGE (R404). The leader adds a member's ready to the step's ready set, or logs 0x5904 on a bad ready. -/
  | stepReadyBarge
  /-- RECORD_RELEASE (R404). The leader sends the record for step T along its tree once composed and the lagged ready set is complete. -/
  | recordRelease
  /-- STEP_STALL (R404). A step still lacking readies stall_ms after its first logs 0x5904 at the leader. -/
  | stepStall
  /-- STEP_RECORD_BARGE (R406). A step record reaches a chip's step unit and is held, or discarded with 0x5904 out of sequence. -/
  | stepRecordBarge
  /-- RECORD_DELIVERY (R405). The step unit delivers its oldest record to every running core once all next slots are empty. -/
  | recordDelivery
  /-- MAC_LINK_LOSS (R417). A MAC unit without block lock for 10 µs logs 0x5A01, clears its link bit and retrains. -/
  | macLinkLoss (mac : Fin 8)
  /-- ENET_PORT_CTRL_WRITE (R416). A write to ENET_PORT_CTRL_p is applied, or discarded with 0x3A06. -/
  | enetPortCtrlWrite (p : Fin 2) (v : Word)
  /-- ENET_IF_WRITE (R419). A write to ENET_IF_i is applied while its link is down, or discarded with 0x3A06. -/
  | enetIfWrite (mac : Fin 8) (w : Fin 8) (v : Word)
  /-- NEIGHBOUR_PACKET (R420). The wharfinger answers ARP, neighbour discovery and echo, or discards unsupported datagrams. -/
  | neighbourPacket (mac : Fin 8) (n : NeighbourFrame)
  /-- OPEN (R429). A towpath OPEN creates a session and is answered with OPEN_ACK, or refused. -/
  | openSession (d : Datagram)
  /-- CLOSE (R432). CLOSE ends a session and cancels its frame-mode requests. -/
  | closeSession (d : Datagram)
  /-- ACK (R431). A towpath ACK acknowledges messages of a session. -/
  | ackMessage (d : Datagram)
  /-- KEEPALIVE (R432). A received KEEPALIVE keeps a session alive. -/
  | keepalive (d : Datagram)
  /-- KEEPALIVE_TIMER (R432). Once per keepalive interval the device sends KEEPALIVE on a session. -/
  | keepaliveTimer (sess : BitVec 32)
  /-- TOWPATH_ACK_TIMER (R432). A host message held unacknowledged for 20 µs is answered with an ACK. -/
  | towpathAckTimer (sess : BitVec 32)
  /-- TOWPATH_RESEND (R432). An unacknowledged message is resent with doubling wait, and the session closes with 0x5A04 after eight tries. -/
  | towpathResend (sess : BitVec 32)
  /-- SESSION_TIMEOUT (R432). No message from the host for three keepalive intervals closes the session with 0x5A04. -/
  | sessionTimeout (sess : BitVec 32)
  /-- REG_READ (R434). The wharf performs a list of register reads in order and answers REG_RESULT. -/
  | regRead (d : Datagram)
  /-- REG_WRITE (R434). The wharf performs a list of register writes in order and answers REG_RESULT. -/
  | regWrite (d : Datagram)
  /-- REG_BARGE (R599). A REG barge access from another chip is performed if permitted, or answered with 0x3A05. -/
  | regBarge
  /-- REGISTER_WRITE (R597). A register-path write to a register without a row of its own takes effect whole in one beat under its field types. -/
  | registerWrite (a : BitVec 48) (v : Word)
  /-- SUBMIT (R466). SUBMIT is checked and admits a request into the lowest free ledger entry, answered with REQ_STATUS. -/
  | submit (d : Datagram)
  /-- PROMPT (R467). PROMPT stores prompt tokens of a waiting or prefilling request. -/
  | prompt (d : Datagram)
  /-- CANCEL (R475). CANCEL cancels a waiting request at once or marks a running one for cancellation. -/
  | cancel (d : Datagram)
  /-- QUERY (R467). QUERY returns a request's REQ_STATUS unchanged. -/
  | query (d : Datagram)
  /-- TENANT_SET (R467). TENANT_SET changes or schedules a tenant's budget fields. -/
  | tenantSet (d : Datagram)
  /-- RING_OPEN (R445). RING_OPEN binds a ring-mode request to a host ring context. -/
  | ringOpen (d : Datagram)
  /-- RING_CREDIT (R447). RING_CREDIT updates the device's copy of a ring's consumer count. -/
  | ringCredit (d : Datagram)
  /-- STEP_COMPOSE (R470). Once the lagged step's results are processed the engine composes the next step's batch and writes its record. -/
  | stepCompose
  /-- ENERGY_SWEEP (R513). With no result processing for 1 ms the group accumulator moves to ENGY_UNATTR. -/
  | energySweep
  /-- ENGY_GROUP_ADD (R512). A write to ENGY_GROUP_ADD adds a member's step energy to the group accumulator. -/
  | engyGroupAdd (v : Word)
  /-- ROCE_SEND (R440). A received RoCEv2 SEND lands in a receive slot, or draws an RNR NAK. -/
  | roceSend (rk : Packet)
  /-- RDMA_WRITE (R438). A received RDMA WRITE is written into the region's hold lines. -/
  | rdmaWrite (rk : Packet)
  /-- RDMA_WRITE_WITH_IMMEDIATE (R438). A received RDMA WRITE with immediate is written and its immediate delivered to the loader. -/
  | rdmaWriteImm (rk : Packet)
  /-- RDMA_READ (R438). A received RDMA READ is answered from the region's hold lines. -/
  | rdmaRead (rk : Packet)
  /-- ROCE_NAK (R439). A received NAK other than RNR puts the QP in error with 0x5A02. -/
  | roceNak (rk : Packet)
  /-- ROCE_ACK_TIMEOUT (R439). A QP's ack timeout expires and retries, entering error when the retry count is exhausted. -/
  | roceAckTimeout (qp : BitVec 12)
  /-- CNP (R442). A received congestion notification cuts the QP's rate by a quarter. -/
  | cnp (rk : Packet)
  /-- RATE_RECOVERY (R442). After each 55 µs with no CNP a QP's rate rises by 5,000 Mb/s. -/
  | rateRecovery (qp : BitVec 12)
  /-- PFC_FRAME (R441). A received PFC frame pauses or resumes a priority's transmission. -/
  | pfcFrame (p : Fin 2) (prio : Fin 8) (quanta : BitVec 16)
  /-- PFC_REFRESH (R441). Every 50 µs a port refreshes its pause while a priority holds 256 KiB or more. -/
  | pfcRefresh (p : Fin 2) (prio : Fin 8)
  /-- PFC_WATCHDOG (R441). A priority paused for 100 ms is no longer honoured, its frames drop and 0x5A03 is logged. -/
  | pfcWatchdog (p : Fin 2) (prio : Fin 8)
  /-- I3C_PRIVATE_WRITE (R449). An I3C private write starts a register read or write access. -/
  | i3cPrivateWrite (bytes : List Byte)
  /-- I3C_PRIVATE_READ (R449). An I3C private read returns the access's status and data, or is NACKed while pending. -/
  | i3cPrivateRead
  /-- ENTDAA (R448). ENTDAA assigns a dynamic address with the provisional ID from DEV_SERIAL. -/
  | entdaa (dyn : BitVec 7)
  /-- SETDASA (R448). SETDASA assigns the target its static address as dynamic address. -/
  | setdasa (stat dyn : BitVec 7)
  /-- ENEC (R448). ENEC enables in-band interrupts. -/
  | enec
  /-- DISEC (R448). DISEC disables in-band interrupts. -/
  | disec
  /-- WSWP_ARM (R492). WSWP_ARM op 0 checks every member's staged copy and arms the swap for the composer to choose the switch step. -/
  | wswpArm (d : Datagram)
  /-- SWAP_ABORT (R499). WSWP_ARM op 1 disarms every chip and logs 0x6C01 if next is not yet used. -/
  | swapAbort (d : Datagram)
  /-- PIN_RELEASE (R497). WSWP_ARM op 2 clears the pins of requests held on the old epoch. -/
  | pinRelease (d : Datagram)
  /-- SWAP_ARM_WRITE (R492). A write of WSWP_ARM.armed = 1 arms a chip for next, or is discarded with 0x6C02. -/
  | swapArmWrite (v : Word)
  /-- SWAP_DISARM (R499). A write of WSWP_ARM.armed = 0 aborts the swap. -/
  | swapDisarm
  /-- CHECK (R487). WSWP_CTRL.check starts a SHA3-512 check of the staging area. -/
  | check
  /-- CHECK_COMPLETE (R487). A check ends, setting WSWP_DIGEST and ready_epoch or check_fail. -/
  | checkComplete
  /-- PRIME (R489). WSWP_CTRL.prime copies the checked staging area into each store's free copy, or is refused with 0x6C02. -/
  | prime
  /-- PRIME_COMPLETE (R489). A prime ends and that copy's WS_COPY field takes ready_epoch. -/
  | primeComplete
  /-- LOAD_FILL (R488). WSWP_CTRL.load copies the checked staging area into copy 0 of every mapped core, or is refused with 0x6C02. -/
  | loadFill
  /-- LOAD_FILL_COMPLETE (R488). A load fill ends and WSWP_EPOCH and WS_COPY take ready_epoch. -/
  | loadFillComplete
  /-- STAGED_FILL (R493). After the last KDONE before a record carrying next the chip fills every mapped store from staging. -/
  | stagedFill
  /-- STAGED_FILL_COMPLETE (R493). A staged fill ends, pause_ns is recorded, the epoch advances and the record is delivered. -/
  | stagedFillComplete
  /-- WEIR_SAMPLE (R504). Every 10 ns a weir samples its quantity, updates I_w and raises its throttle code at a higher threshold. -/
  | weirSample (k : Fin 6) (q : BitVec 16)
  /-- WEIR_CODE_FALL (R506). A weir code falls one level after a whole window below its entry threshold less hysteresis. -/
  | weirCodeFall (k : Fin 6)
  /-- WEIR_LIMIT_WRITE (R503). A write to WEIR_LIMIT_k sets a limit up to its ceiling, or is discarded with 0x3201. -/
  | weirLimitWrite (k : Fin 6) (v : Word)
  /-- WEIR_WINDOW_WRITE (R510). A write to WEIR_WINDOW sets thresholds and window at the next sample, or is discarded with 0x3201. -/
  | weirWindowWrite (v : Word)
  /-- POLICY_TICK (R518). Every 1 ms the power policy averages package power and lowers or raises its cap. -/
  | policyTick
  /-- CAP_RAISE (R519). After 10 s of good vane margin the policy raises its cap one point. -/
  | capRaise
  /-- IDLE_OPSET (R516). A write of IDLE_OPSET.go sets target_op of the masked reaches together, at once or at the next record. -/
  | idleOpset (v : Word)
  /-- IDLE_ENTRY (R521). After delay_ns of quiescence the die enters the selected idle state by its entry sequence. -/
  | idleEntry
  /-- IDLE_WAKE_COMPLETE (R522). The wake sequence ends and the die resumes running. -/
  | idleWakeComplete
  /-- WAKE (R523). A write of IDLE_STATE.wake wakes the die at once. -/
  | wake
  /-- IDLE_BUDGET_WRITE (R524). A write to IDLE_BUDGET_NS sets the wake budget, waking the die if below the current state's latency. -/
  | idleBudgetWrite (v : Word)
  /-- IDLE_SET (R526). IDLE_SET writes IDLE_BUDGET_NS on the named chips. -/
  | idleSet (d : Datagram)
  /-- PWR_OK_RISE (R574). PWR_OK rises after VDDT and VDDIO are in range. -/
  | pwrOkRise
  /-- RESET_N_RELEASE (R528). RESET_N rises and the tollhouse ROM starts the boot sequence. -/
  | resetNRelease
  /-- IMAGE_SLOT_CHECK (R534). After an image slot is read its format, signer, signatures and security version are checked and its settings applied. -/
  | imageSlotCheck (slot : Fin 2) (img : List Byte)
  /-- RAIL_ENABLE (R574). Two milliseconds after a group's power-good the tollhouse raises the next RAIL_EN. -/
  | railEnable (g : Fin 4)
  /-- RAIL_PG_RISE (R574). A rail group's power-good rises during phase 4. -/
  | railPgRise (g : Fin 4)
  /-- RAIL_PG_TIMEOUT (R575). A power-good not high within 20 ms of its enable stops boot with 0xFD01. -/
  | railPgTimeout (g : Fin 4)
  /-- BOOT_READY (R529). With holds trained, ports linked or tried and firmware started the device enters Ready. -/
  | bootReady
  /-- PWR_OK_FALL (R577). PWR_OK falls and the tollhouse lowers every enable within 1 µs before a POR. -/
  | pwrOkFall
  /-- RESET_N_ASSERT (R545). RESET_N low for at least 1 µs after phase 4 causes a DEV reset at its release. -/
  | resetNAssert
  /-- RAIL_PG_FALL (R578). A power-good falling after phase 4 logs 0xF000, powers down and leaves only the tollhouse running. -/
  | railPgFall (g : Fin 4)
  /-- THERMAL_SAMPLE (R589). Every 1 ms the die and hold temperatures update in TOLL_THERM. -/
  | thermalSample (die hold0 hold1 toll : Byte)
  /-- TREFCLK_LOSS (R583). Loss of TREFCLK holds the timebase over, takes every towline lane down and unsyncs fabric time. -/
  | trefclkLoss
  /-- EREFCLK_LOSS (R583). Loss of EREFCLK takes every Ethernet link down. -/
  | erefclkLoss
  /-- DEV_RESET (R545). TOLL_CMD.dev_reset resets the compute die and weight layers, keeping hold contents. -/
  | devReset
  /-- TOLL_RESET (R545). TOLL_CMD.toll_reset removes and restores rails and reboots the package. -/
  | tollReset
  /-- CTX_RESET (R546). DEV_RESET.ctx abandons running work, aborts open transfers and waits for the mesh to drain. -/
  | ctxReset
  /-- CTX_DRAIN_COMPLETE (R546). The mesh drains or 50 µs pass and program state clears, every enabled core entering STOPPED. -/
  | ctxDrainComplete
  /-- FAB_RESET (R548). DEV_RESET.fab clears fabric state, stops ferries and retrains every port, or is refused with 0x3011. -/
  | fabReset
  /-- REACH_RESET (R547). DEV_RESET.reach stops the named reaches and begins their regulator settling, or is refused with 0x3011. -/
  | reachReset (mask : BitVec 16)
  /-- REACH_RESET_COMPLETE (R547). A reset reach finishes calibrating, takes target_op and resumes with its cores cleared. -/
  | reachResetComplete (r : Fin 16)
  /-- CHANGE_ORDER (R540). A change order is checked row by row and committed or refused, answered with CHANGE_RESULT. -/
  | changeOrder (d : Datagram)
  /-- ATTEST_REQ (R537). ATTEST_REQ with what 0 returns a report signed by the identity keys. -/
  | attestReq (d : Datagram)
  /-- ATTEST_IDENTITY (R536). ATTEST_REQ with what 1 returns the serial, identity public keys and endorsement. -/
  | attestIdentity (d : Datagram)
  /-- CAPT_IN_EDGE (R557). A rising edge on CAPT_IN is a capture trigger at the first beat 10 ns later. -/
  | captInEdge
  /-- FABRIC_TIME_MATCH (R557). FABR_TIME reaching SNAP_TIME is a capture trigger. -/
  | fabricTimeMatch
  /-- CAPTURE_BEAT (R558). Forty beats after a trigger every named register is copied to its snapshot and armed clears. -/
  | captureBeat
  /-- CAPTURE_FIRE (R562). CAPTURE op 0 fires the host capture source on the named chips. -/
  | captureFire (d : Datagram)
  /-- CAPTURE_ARM_TIME (R562). CAPTURE op 1 writes SNAP_TIME and arms the named chips. -/
  | captureArmTime (d : Datagram)
  /-- SNAP_ARM_WRITE (R561). A write to SNAP_ARM arms capture, or its freeze is discarded with 0x3E01 when debug is closed. -/
  | snapArmWrite (v : Word)
  /-- ERRS_FWD_WRITE (R600). A write to ERRS_FWD_w stores a word of a forwarded entry, and word 3 commits it. -/
  | errsFwdWrite (chip : BitVec 16) (w : Fin 4) (v : Word)
  /-- EVENT_SEND (R555). The wharf sends held error entries as EVENT messages to control sessions, at most once per 100 µs. -/
  | eventSend (sess : BitVec 32)
  /-- TEST_REQ (R563). A TEST_REQ message requests a self-test on the named chips. -/
  | testReq (d : Datagram)
  /-- TEST_GO (R567). TEST_REQ.go requests a test, or is discarded or refused with 0x3E02. -/
  | testGo (v : Word)
  /-- TEST_CANCEL (R567). TEST_REQ.cancel ends a pending or paused test as CANCELLED. -/
  | testCancel
  /-- TEST_UNIT_START (R564). A test unit starts once a window or a quiesced host is present. -/
  | testUnitStart
  /-- TEST_UNIT_END (R565). A test unit ends, any held record is delivered and the test pauses or finishes. -/
  | testUnitEnd (fails : List TestFail)
  /-- TEST_TIMEOUT (R566). No unit started within timeout_ms ends the request as DEFERRED with 0x4E01. -/
  | testTimeout
  /-- HOLD_TRAINING_DONE (R530). A hold stack's training in boot phase 6 ends, setting HOLD_CTRL_h.trained or, on failure, stopping boot with 0xFD01. -/
  | holdTrainingDone (h : Fin 2) (ok : Bool)
  /-- MAC_LINK_UP (R417). A MAC unit regains block lock after retraining and its link bit in ENET_PORT_STAT_p sets. -/
  | macLinkUp (mac : Fin 8)
  /-- ROCE_ACK (R458). A RoCEv2 ACK arrives on a QP, acknowledging the device's RDMA WRITEs or SENDs, so that a ring-mode final record counts as acknowledged. -/
  | roceAck (rk : Packet)
  /-- ROCE_READ_RESPONSE (R447). The response to the device's RDMA READ of a ring's cons_addr arrives and sets the device's copy of the consumer count C. -/
  | roceReadResponse (rk : Packet)
  /-- ROCE_RNR_NAK (R446). An RNR NAK arrives on a QP and is handled by the QP's RNR retry, entering error when the RNR retry count is exhausted. -/
  | roceRnrNak (rk : Packet)
  /-- PFC_QUANTA_EXPIRY (R441). The pause time given by a received PFC frame runs out and transmission on that priority resumes. -/
  | pfcQuantaExpiry (p : Fin 2) (prio : Fin 8)
  /-- PFC_HONOUR_RESTORE (R441). 10 ms without a pause frame after the PFC watchdog fired, the port honours PFC for that priority again. -/
  | pfcHonourRestore (p : Fin 2) (prio : Fin 8)
  /-- RAIL_DISABLE (R576). During orderly power-down the tollhouse lowers the next RAIL_EN once the previous group's RAIL_PG has gone low or 10 ms have passed. -/
  | railDisable (g : Fin 4)
  /-- POST_TRIP_DELAY (R588). After a thermal trip, a TOLL reset waits 10 s before boot phase 4 and then proceeds to power the rails. -/
  | postTripDelay
  /-- JTAG_TCK (R586). A TCK cycle advances the IEEE 1149.1 TAP and its selected instruction, resetting the TAP after five cycles with TMS high. -/
  | jtagTck (tms tdi : Bool)
  /-- TRST_N_ASSERT (R586). TRST_N driven low resets the JTAG TAP without touching the rest of the device. -/
  | trstNAssert
  /-- UNDEFINED_MESSAGE_TYPE (R430). A towpath message of an undefined type arrives on an open session and is answered with status 0x3A03. -/
  | undefinedMessageType (d : Datagram)
  deriving DecidableEq, Repr

end Sys2Proof
end

