-- ==== Sys2Proof/Decode.lean ====
section
/-! DEFINITION. The command that a word spells by the opcode table. The table gives no row any bits, so no word spells one. -/

namespace Sys2Proof

/-- The command spelled by a word of `nbits` bits: none, since no row of the table has bits. -/
def decodeTableWord (_nbits _w : Nat) : Option Instr := none

end Sys2Proof
end

