-- ==== Sys2Proof/Config.lean ====
section
/-! DEFINITION. What the manual leaves open: the free values (log entry 5), as functions without a body, so that no proof can
rest on a value of theirs. -/

namespace Sys2Proof

/-- A fresh free word: the value drawn at counter `n` (log entry 5). -/
opaque Config.freeValue : Nat → Word

/-- The result record of a VSAMPLE over values that are NaN, which R173 does not order: a function of its candidates, its parameter record
and its random word, so that what R342 names decides it (log entry 8). -/
opaque Config.sampleNaN : List (Nat × Nat) → List Byte → Nat → Word

/-- A lane of a legacy vector form that does not name the operand c it needs: by instruction, lane, and the lane's a and b
(log entry 12). -/
opaque Config.legacyLane : Nat → Nat → Nat → Nat → Word

/-- Byte `i` of the signature of a message under the device's identity key of an algorithm: 0 Ed25519, 1 ML-DSA-65, which the manual
names by their standards and does not print (R536, R537). -/
opaque Config.signByte : Nat → List Byte → Nat → Byte

/-- Whether a signature over a message verifies, by algorithm: under the manufacturer keys where the key is empty, under the owner
key given otherwise (R533, R540). -/
opaque Config.verifies : Nat → List Byte → List Byte → List Byte → Bool

/-- Byte `i` of the identity public keys and their endorsement, made at the factory (R536). -/
opaque Config.identity : Nat → Byte

/-- What an instruction code of the JTAG instruction register selects: 0 BYPASS, 1 IDCODE, 2 SAMPLE/PRELOAD, 3 EXTEST, 4 CLAMP, 5 HIGHZ,
6 EXTEST_PULSE, 7 EXTEST_TRAIN, a higher number a debug register; the device identification word; and the number of boundary-scan cells of the
tollhouse balls (0) and of the compute-die balls (1) (R586). The manual gives none of them. -/
opaque Config.jtagSelect : Nat → Nat
opaque Config.jtagId : BitVec 32
opaque Config.jtagCells : Nat → Nat

/-- A word of an AVN-3 package as the loader rewrites it by the package's relocation records, to which the manual gives no form, and links it
with the keeper runtime library: by the digests of the library and the package, the chip image, the type and place of the word, and the word
as it stands (R245, R366, R532). -/
opaque Config.relocated : Nat → Nat → Nat → Nat → Word → Word

end Sys2Proof
end

