-- ==== Sys2Proof/Machine/Numeric.lean ====
section
/-! DEFINITION. Number formats, exact values, rounding and conversion (R81 to R97), FP32 arithmetic (R89, R90), the
anchored fixed-point accumulator and its exchange form (R100 to R111), and rounded reduction (R113). -/

namespace Sys2Proof.Machine

/-- An exact number: a NaN, an infinity, or the dyadic value (-1)^neg × m × 2^e. A zero keeps its sign (R89). -/
inductive Num where
  | nan
  | inf (neg : Bool)
  | fin (neg : Bool) (m : Nat) (e : Int)
  deriving DecidableEq, Repr

/-- How a float format encodes infinities and NaNs (R86). -/
inductive Specials where
  | ieee
  | e4m3
  | none
  deriving DecidableEq, Repr

/-- A float format: mantissa bits, exponent bits, bias and specials (R82, R86). -/
structure FloatFmt where
  ebits : Nat
  mbits : Nat
  bias  : Int
  sp    : Specials
  deriving DecidableEq, Repr

/-- The element kinds of R81: a float, an integer of a width, or an MXINT8 element with its 2^-6 (R84). -/
inductive ElemKind where
  | float (f : FloatFmt)
  | int (bits : Nat)
  | mxint8
  | afa
  | bad
  deriving DecidableEq, Repr

def fmtFP32 : FloatFmt := ⟨8, 23, 127, .ieee⟩
def fmtFP16 : FloatFmt := ⟨5, 10, 15, .ieee⟩
def fmtBF16 : FloatFmt := ⟨8, 7, 127, .ieee⟩
def fmtE4M3 : FloatFmt := ⟨4, 3, 7, .e4m3⟩
def fmtE5M2 : FloatFmt := ⟨5, 2, 15, .ieee⟩
def fmtE3M2 : FloatFmt := ⟨3, 2, 3, .none⟩
def fmtE2M3 : FloatFmt := ⟨2, 3, 1, .none⟩
def fmtE2M1 : FloatFmt := ⟨2, 1, 1, .none⟩

/-- The element kind of a format code (R81). -/
def elemKind : Nat → ElemKind
  | 0 => .float fmtFP32
  | 1 => .float fmtFP16
  | 2 => .float fmtBF16
  | 3 => .float fmtE4M3
  | 4 => .float fmtE5M2
  | 5 => .float fmtE2M1
  | 6 => .int 8
  | 7 => .int 4
  | 8 => .float fmtE4M3
  | 9 => .float fmtE5M2
  | 10 => .float fmtE3M2
  | 11 => .float fmtE2M3
  | 12 => .float fmtE2M1
  | 13 => .mxint8
  | 14 => .afa
  | _ => .bad

/-- Element bits of a format code (R81). -/
def fmtBits : Nat → Nat
  | 0 => 32
  | 1 => 16
  | 2 => 16
  | 5 => 4
  | 7 => 4
  | 10 => 6
  | 11 => 6
  | 12 => 4
  | 14 => 128
  | _ => 8

/-- Whether a format code is an MX format with a block scale (R81). -/
def isMX (c : Nat) : Bool := 8 ≤ c && c ≤ 13

/-- Whether a format code is an integer format. -/
def isIntFmt (c : Nat) : Bool := c = 6 || c = 7 || c = 13

/-- Bytes that `n` elements of a format take. -/
def fmtBytes (c n : Nat) : Nat := ceilDiv (fmtBits c * n) 8

/-- A number of `w` bits read as two's complement. -/
def toSigned (w v : Nat) : Int := if v < 2 ^ (w - 1) then (v : Int) else (v : Int) - (2 ^ w : Nat)

/-- The integer `i` as an exact number. -/
def Num.ofInt (i : Int) : Num := .fin (decide (i < 0)) i.natAbs 0

/-- Value of the bits of a float format (R82, R86, R87). -/
def decodeFloat (f : FloatFmt) (b : Nat) : Num :=
  let man := b % 2 ^ f.mbits
  let ex := (b >>> f.mbits) % 2 ^ f.ebits
  let neg := (b >>> (f.mbits + f.ebits)) % 2 == 1
  let top : Nat := 2 ^ f.ebits - 1
  if f.sp = .ieee ∧ ex = top then
    if man = 0 then .inf neg else .nan
  else if f.sp = .e4m3 ∧ ex = top ∧ man = 2 ^ f.mbits - 1 then .nan
  else if ex = 0 then .fin neg man (1 - f.bias - f.mbits)
  else .fin neg (2 ^ f.mbits + man) ((ex : Int) - f.bias - f.mbits)

/-- Value of an element's bits before any block scale (R82, R84). -/
def decodeElem (c b : Nat) : Num :=
  match elemKind c with
  | .float f => decodeFloat f b
  | .int w => Num.ofInt (toSigned w b)
  | .mxint8 =>
    let q := toSigned 8 b
    .fin (decide (q < 0)) q.natAbs (-6)
  | _ => .nan

/-- Value times 2^(S - 127) for an E8M0 scale S; NaN for 0xFF (R83, R95). -/
def Num.scaled (x : Num) (s : Nat) : Num :=
  if s = 255 then .nan
  else match x with
    | .fin n m e => .fin n m (e + s - 127)
    | y => y

/-- The bits of element `i` of an array of a format (R85). -/
def elemBits (bs : List Byte) (c i : Nat) : Nat :=
  let w := fmtBits c
  if w = 4 then ((bs.getD (i / 2) 0).toNat >>> (4 * (i % 2))) % 16
  else if w = 6 then
    (leNat ((bs.drop (3 * (i / 4))).take 3) >>> (6 * (i % 4))) % 64
  else leNat ((bs.drop (i * (w / 8))).take (w / 8))

/-- Pack the bits of elements of a format into bytes (R85). -/
def packElems (c : Nat) (xs : List Nat) : List Byte :=
  let w := fmtBits c
  if w % 8 = 0 then (xs.map fun x => natLe (w / 8) x).flatten
  else
    let n := (xs.foldr (fun x acc => x + acc * 2 ^ w) 0)
    natLe (ceilDiv (w * xs.length) 8) n

/-- `m / 2^k` rounded to nearest, ties to even (R90). -/
def rneShift (m k : Nat) : Nat :=
  let q := m / 2 ^ k
  let r := m % 2 ^ k
  if 2 * r > 2 ^ k ∨ (2 * r = 2 ^ k ∧ q % 2 = 1) then q + 1 else q

/-- `m × 2^e` rounded to an integer, nearest with ties to even. -/
def rneInt (m : Nat) (e : Int) : Nat :=
  match e with
  | .ofNat k => m * 2 ^ k
  | .negSucc k => rneShift m (k + 1)

/-- Compare `a × 2^x` with `b × 2^y`. -/
def dyLt (a : Nat) (x : Int) (b : Nat) (y : Int) : Bool :=
  if x ≤ y then decide (a < b * 2 ^ (y - x).toNat) else decide (a * 2 ^ (x - y).toNat < b)

/-- Magnitude of a finite non-zero number rounded to a format's precision with an unbounded exponent: mantissa and
exponent of its last place (R90). -/
def roundMag (f : FloatFmt) (m : Nat) (e : Int) : Nat × Int :=
  let E : Int := (Nat.log2 m : Int) + e
  let q : Int := max E (1 - f.bias) - f.mbits
  let k := q - e
  let m' := rneInt m (-k)
  if m' = 2 ^ (f.mbits + 1) then (2 ^ f.mbits, q + 1) else (m', q)

/-- Largest finite value of a format: mantissa, exponent of its last place, and its bits without sign (R82). -/
def maxFinite (f : FloatFmt) : Nat × Int × Nat :=
  let top : Nat := 2 ^ f.ebits - 1
  match f.sp with
  | .ieee => (2 ^ (f.mbits + 1) - 1, (top : Int) - 1 - f.bias - f.mbits, (top - 1) * 2 ^ f.mbits + 2 ^ f.mbits - 1)
  | .e4m3 => (2 ^ (f.mbits + 1) - 2, (top : Int) - f.bias - f.mbits, top * 2 ^ f.mbits + 2 ^ f.mbits - 2)
  | .none => (2 ^ (f.mbits + 1) - 1, (top : Int) - f.bias - f.mbits, top * 2 ^ f.mbits + 2 ^ f.mbits - 1)

/-- Canonical NaN of a float format that has one (R86). -/
def canonNaN (f : FloatFmt) : Nat :=
  match f.sp with
  | .ieee => (2 ^ f.ebits - 1) * 2 ^ f.mbits + 2 ^ (f.mbits - 1)
  | .e4m3 => 2 ^ (f.ebits + f.mbits) - 1
  | .none => 0

def signBit (f : FloatFmt) (neg : Bool) : Nat := if neg then 2 ^ (f.ebits + f.mbits) else 0

/-- Bits of an infinity of a format (R86). -/
def infBits (f : FloatFmt) (neg : Bool) : Nat := signBit f neg + (2 ^ f.ebits - 1) * 2 ^ f.mbits

/-- The result of a conversion: bits, whether a finite value overflowed, and whether a NaN met a format without NaN
(R91, R92, R162). -/
structure Conv where
  bits : Nat
  ovf  : Bool
  inv  : Bool
  deriving DecidableEq, Repr

/-- Finite overflow or infinity in a float format (R91). -/
def overBits (f : FloatFmt) (sat neg : Bool) : Nat :=
  match f.sp, sat with
  | .ieee, false => infBits f neg
  | .e4m3, false => canonNaN f
  | _, _ => signBit f neg + (maxFinite f).2.2

/-- Convert an exact number to a float format with a single rounding (R90 to R92). -/
def toFloat (f : FloatFmt) (sat : Bool) (x : Num) : Conv :=
  match x with
  | .nan => if f.sp = .none then ⟨0, false, true⟩ else ⟨canonNaN f, false, false⟩
  | .inf neg => ⟨overBits f sat neg, false, false⟩
  | .fin neg m e =>
    if m = 0 then ⟨signBit f neg, false, false⟩
    else
      let (m', q) := roundMag f m e
      let (mm, qm, _) := maxFinite f
      if dyLt mm qm m' q then ⟨overBits f sat neg, true, false⟩
      else if m' < 2 ^ f.mbits then ⟨signBit f neg + m', false, false⟩
      else ⟨signBit f neg + (q + f.mbits + f.bias).toNat * 2 ^ f.mbits + (m' - 2 ^ f.mbits), false, false⟩

/-- Convert to a two's-complement integer of `w` bits: round, then clamp (R91, R92). `shift` multiplies by a power of
two first (R84). -/
def toIntFmt (w : Nat) (shift : Int) (x : Num) : Conv :=
  let hi := 2 ^ (w - 1) - 1
  match x with
  | .nan => ⟨0, false, true⟩
  | .inf neg => ⟨if neg then 2 ^ (w - 1) else hi, false, false⟩
  | .fin neg m e =>
    let v := rneInt m (e + shift)
    if neg then
      if v > hi + 1 then ⟨2 ^ (w - 1), true, false⟩ else ⟨(2 ^ w - v) % 2 ^ w, false, false⟩
    else if v > hi then ⟨hi, true, false⟩ else ⟨v, false, false⟩

/-- Convert an exact number to an element of a format code (R90 to R92). -/
def convert (c : Nat) (sat : Bool) (x : Num) : Conv :=
  match elemKind c with
  | .float f => toFloat f sat x
  | .int w => toIntFmt w 0 x
  | .mxint8 => toIntFmt 8 6 x
  | _ => ⟨0, false, false⟩

/-! ### Exact arithmetic -/

/-- A finite exact number from a signed mantissa; an exact zero is +0. -/
def Num.mk (v : Int) (e : Int) : Num := .fin (decide (v < 0)) v.natAbs e

def Num.neg : Num → Num
  | .nan => .nan
  | .inf n => .inf (!n)
  | .fin n m e => .fin (!n) m e

def Num.abs : Num → Num
  | .nan => .nan
  | .inf _ => .inf false
  | .fin _ m e => .fin false m e

/-- The signed mantissas of two finite numbers over their lesser exponent. -/
def alignTo (n : Bool) (m : Nat) (e lo : Int) : Int :=
  let v : Int := (m : Int) * ((2 ^ (e - lo).toNat : Nat) : Int)
  if n then -v else v

/-- The exact sum, with IEEE 754 signs of zero under round to nearest even (R89). -/
def Num.add (x y : Num) : Num :=
  match x, y with
  | .nan, _ => .nan
  | _, .nan => .nan
  | .inf a, .inf b => if a = b then .inf a else .nan
  | .inf a, _ => .inf a
  | _, .inf b => .inf b
  | .fin n1 m1 e1, .fin n2 m2 e2 =>
    if m1 = 0 ∧ m2 = 0 then .fin (n1 && n2) 0 0
    else
      let lo := min e1 e2
      Num.mk (alignTo n1 m1 e1 lo + alignTo n2 m2 e2 lo) lo

/-- The exact product (R99). -/
def Num.mul (x y : Num) : Num :=
  match x, y with
  | .nan, _ => .nan
  | _, .nan => .nan
  | .inf a, .inf b => .inf (xor a b)
  | .inf a, .fin b m _ => if m = 0 then .nan else .inf (xor a b)
  | .fin a m _, .inf b => if m = 0 then .nan else .inf (xor a b)
  | .fin n1 m1 e1, .fin n2 m2 e2 => .fin (xor n1 n2) (m1 * m2) (e1 + e2)

/-- Whether `x < y` for numbers that are not NaN. -/
def Num.lt (x y : Num) : Bool :=
  match x, y with
  | .nan, _ => false
  | _, .nan => false
  | .inf a, .inf b => a && !b
  | .inf a, _ => a
  | _, .inf b => !b
  | .fin n1 m1 e1, .fin n2 m2 e2 =>
    let lo := min e1 e2
    decide (alignTo n1 m1 e1 lo < alignTo n2 m2 e2 lo)

/-- Whether two numbers that are not NaN are equal in value. -/
def Num.eqv (x y : Num) : Bool := x ≠ .nan && y ≠ .nan && !x.lt y && !y.lt x

def Num.isNaN : Num → Bool
  | .nan => true
  | _ => false

def Num.isInf : Num → Bool
  | .inf _ => true
  | _ => false

def Num.isZero : Num → Bool
  | .fin _ m _ => m == 0
  | _ => false

def Num.isNeg : Num → Bool
  | .inf n => n
  | .fin n _ _ => n
  | .nan => false

/-- The value of FP32 bits. -/
def f32 (b : Nat) : Num := decodeFloat fmtFP32 b

/-- Round an exact number to FP32, overflow to infinity (R90, R91). -/
def r32 (x : Num) : Num := f32 (toFloat fmtFP32 false x).bits

/-! ### The anchored fixed-point accumulator (R100 to R111) -/

/-- An AFA: its value, wrap counter and sticky flags, its anchor, and the contributions counted since its clear
(R100, R105). -/
structure Afa where
  v : BitVec 128 := 0
  w : BitVec 24 := 0
  ovf : Bool := false
  unf : Bool := false
  nan : Bool := false
  pinf : Bool := false
  ninf : Bool := false
  anchor : Nat := 0
  count : Nat := 0
  deriving DecidableEq, Repr

/-- A cleared AFA with an anchor (R100). -/
def Afa.clear (a : Nat) : Afa := { anchor := a }

/-- The largest magnitude of a contribution and of a finite drain, 2^127 - 3 (R101, R102). -/
def afaMax : Nat := 2 ^ 127 - 3

/-- The exact integer V + W × 2^128 (R101). -/
def Afa.total (a : Afa) : Int := a.v.toInt + a.w.toInt * ((2 ^ 128 : Nat) : Int)

/-- Step 4 of R102: add modulo 2^128 and keep the carries in W. -/
def Afa.addInt (a : Afa) (p : Int) : Afa :=
  let z := a.v.toInt + p
  let v := BitVec.ofInt 128 z
  { a with v := v, w := a.w + BitVec.ofInt 24 ((z - v.toInt) / ((2 ^ 128 : Nat) : Int)) }

/-- A product enters the AFA (R102, R103). -/
def Afa.contribute (a : Afa) (x : Num) : Afa :=
  match x with
  | .nan => { a with nan := true }
  | .inf n => if n then { a with ninf := true } else { a with pinf := true }
  | .fin n m e =>
    let k := e + 128 - a.anchor
    let t : Nat := match k with
      | .ofNat j => m * 2 ^ j
      | .negSucc j => m / 2 ^ (j + 1)
    let lost : Bool := match k with
      | .ofNat _ => false
      | .negSucc j => m % 2 ^ (j + 1) != 0
    let big := decide (t > afaMax)
    let p : Nat := if big then afaMax else t
    let a := { a with unf := a.unf || lost, ovf := a.ovf || big }
    a.addInt (if n then -(p : Int) else p)

/-- What a drain finds (R106). -/
inductive AfaOut where
  | nan (ovf : Bool)
  | inf (neg : Bool)
  | over (neg : Bool)
  | fin (v : Int)
  deriving DecidableEq, Repr

/-- The result of a drain (R106). -/
def Afa.out (a : Afa) : AfaOut :=
  if a.nan || (a.pinf && a.ninf) then .nan false
  else if a.pinf then .inf false
  else if a.ninf then .inf true
  else if a.ovf && a.total == 0 then .nan true
  else if a.ovf || a.w != 0 || decide (a.v.toInt.natAbs > afaMax) then .over (decide (a.total < 0))
  else .fin a.v.toInt

/-- Whether a drain result logs 0x3603 (R106). -/
def AfaOut.isOvf : AfaOut → Bool
  | .nan o => o
  | .over _ => true
  | _ => false

/-- The exchange form of a drain result (R109). -/
def AfaOut.exchange : AfaOut → BitVec 128
  | .over false => BitVec.ofNat 128 (2 ^ 127 - 1)
  | .inf false => BitVec.ofNat 128 (2 ^ 127 - 2)
  | .nan _ => BitVec.ofNat 128 (2 ^ 127)
  | .over true => BitVec.ofNat 128 (2 ^ 127 + 1)
  | .inf true => BitVec.ofNat 128 (2 ^ 127 + 2)
  | .fin v => BitVec.ofInt 128 v

/-- The meaning of an exchange value (R109). -/
def ofExchange (b : BitVec 128) : AfaOut :=
  let n := b.toNat
  if n = 2 ^ 127 - 1 then .over false
  else if n = 2 ^ 127 - 2 then .inf false
  else if n = 2 ^ 127 then .nan false
  else if n = 2 ^ 127 + 1 then .over true
  else if n = 2 ^ 127 + 2 then .inf true
  else .fin b.toInt

/-- A drain to a float or integer format (R107): bits, and the conversion's status. -/
def AfaOut.toFmt (o : AfaOut) (anchor c : Nat) (sat : Bool) : Conv :=
  if c = 14 then ⟨o.exchange.toNat, false, false⟩
  else match o with
    | .nan _ => convert c sat .nan
    | .inf n => convert c sat (.inf n)
    | .over n =>
      match elemKind c with
      | .float f => ⟨overBits f sat n, true, false⟩
      | .int w => ⟨if n then 2 ^ (w - 1) else 2 ^ (w - 1) - 1, true, false⟩
      | _ => ⟨0, true, false⟩
    | .fin v => convert c sat (Num.mk v ((anchor : Int) - 128))

/-- A node combines exact-reduce inputs of one element (R111). -/
def combineExact (xs : List AfaOut) : AfaOut :=
  let has := fun (p : AfaOut → Bool) => xs.any p
  let pi := has (· == .inf false)
  let ni := has (· == .inf true)
  let po := has (· == .over false)
  let no := has (· == .over true)
  if has (fun o => match o with | .nan _ => true | _ => false) || (pi && ni) || (po && no) then .nan false
  else if pi then .inf false
  else if ni then .inf true
  else if po then .over false
  else if no then .over true
  else
    let s := xs.foldl (fun acc o => match o with | .fin v => acc + v | _ => acc) (0 : Int)
    if s.natAbs > afaMax then .over (decide (s < 0)) else .fin s

/-- Whether the finite inputs of an exact combine overflow, which logs 0x3603 (R111). -/
def combineLogs (xs : List AfaOut) : Bool :=
  xs.all (fun o => match o with | .fin _ => true | _ => false) &&
  decide ((xs.foldl (fun acc o => match o with | .fin v => acc + v | _ => acc) (0 : Int)).natAbs > afaMax)

/-- Rounded reduction: widen, add one at a time from +0 in FP32, in list order (R113). An addition that overflows gives an infinity,
whatever sat is: that acts on the final rounding alone (log entry 30). -/
def sumRounded (xs : List Num) : Num := xs.foldl (fun acc x => r32 (acc.add x)) (.fin false 0 0)

/-! ### MX quantisation (R97) -/

/-- emax of an element format (R97). -/
def emaxOf : Nat → Int
  | 8 => 8
  | 9 => 15
  | 10 => 4
  | 11 => 2
  | 12 => 2
  | _ => 0

/-- Round to an element, the largest finite value on overflow (R97). -/
def roundToElement (c : Nat) (x : Num) : Conv :=
  match elemKind c with
  | .float f => toFloat f true x
  | _ => toIntFmt 8 6 x

/-- Quantise the present elements of a block: scale and converted elements (R97). -/
def quantiseBlock (c : Nat) (xs : List Num) : Nat × List Conv :=
  if xs.any (fun x => x.isNaN || x.isInf) then (255, xs.map fun _ => ⟨0, false, false⟩)
  else
    let ex := fun (x : Num) => match x with
      | .fin _ m e => if m = 0 then (none : Option Int) else some ((Nat.log2 m : Int) + e)
      | _ => none
    let top := xs.foldl (fun acc x => match acc, ex x with
      | none, y => y
      | a, none => a
      | some a, some y => some (max a y)) (none : Option Int)
    let e : Int := match top with
      | none => -127
      | some t => t - emaxOf c
    let e := max (-127) (min 127 e)
    ((e + 127).toNat, xs.map fun x => roundToElement c (match x with
      | .fin n m k => .fin n m (k - e)
      | y => y))

end Sys2Proof.Machine
end

