-- ==== Sys2Proof/Machine/Regs.lean ====
section
/-! DEFINITION. The register map: addresses of the registers (R590 to R594), the places of their fields (the register
tables of the chapters), and one row per register family with its reset value and which bits a plain write
acts on (R14, R15). -/

namespace Sys2Proof.Machine

/-- A field of a word: its lowest bit and its width (R8, R9). -/
structure BitField where
  lo    : Nat
  width : Nat
  deriving DecidableEq, Repr

/-- The value of a field in a word. -/
def BitField.get (f : BitField) (w : Word) : Nat := (w.toNat >>> f.lo) % 2 ^ f.width

/-- The mask of a field. -/
def BitField.mask (f : BitField) : Word := BitVec.ofNat 64 ((2 ^ f.width - 1) <<< f.lo)

/-- A word with one field replaced by the low bits of `v`. -/
def BitField.set (f : BitField) (w : Word) (v : Nat) : Word :=
  (w &&& ~~~ f.mask) ||| BitVec.ofNat 64 ((v % 2 ^ f.width) <<< f.lo)

/-- Base of the window of core `n` (R590). -/
def coreBase (n : Nat) : Nat := n * 0x4000000

/-- Base of the registers of core `n` (R591). -/
def coreRegs (n : Nat) : Nat := coreBase n + 0x6A0000

/-- Base of control block `b` (R593). -/
def blockBase (b : Nat) : Nat := 0x400000000 + 0x10000 * b

def Reg.CORE_CTRL (n : Nat) : Nat := coreRegs n + 0x0
def Reg.CORE_STAT (n : Nat) : Nat := coreRegs n + 0x8
def Reg.KEEP_PC (n : Nat) : Nat := coreRegs n + 0x10
def Reg.QUEUE_STAT (n : Nat) : Nat := coreRegs n + 0x18
def Reg.LOCK_CNT (n i : Nat) : Nat := coreRegs n + 0x100 + 8 * i
def Reg.BERTH_W0 (n b : Nat) : Nat := coreRegs n + 0x200 + 16 * b
def Reg.BERTH_W1 (n b : Nat) : Nat := coreRegs n + 0x208 + 16 * b
def Reg.SLUICE_STAT (n s : Nat) : Nat := coreRegs n + 0x400 + 8 * s
def Reg.INGRESS_STAT (n : Nat) : Nat := coreRegs n + 0x420
def Reg.ARRAY_STAT (n : Nat) : Nat := coreRegs n + 0x800
def Reg.ARRAY_FAULT (n : Nat) : Nat := coreRegs n + 0x808
def Reg.VEC_STAT (n : Nat) : Nat := coreRegs n + 0x810
def Reg.VEC_WIN (n v : Nat) : Nat := coreRegs n + 0x900 + 8 * v
def Reg.QUEUE_CFG (n : Nat) : Nat := coreRegs n + 0xA00
def Reg.ASTREAM_STAT (n : Nat) : Nat := coreRegs n + 0xA08
def Reg.XSTREAM_STAT (n : Nat) : Nat := coreRegs n + 0xA10
def Reg.MENU_BASE (n : Nat) : Nat := coreRegs n + 0xA18
def Reg.STEP_STAT (n : Nat) : Nat := coreRegs n + 0xA20
def Reg.STEP_REC (n j : Nat) : Nat := coreRegs n + 0xA40 + 8 * j
def Reg.BERTH_DONE (n b : Nat) : Nat := coreRegs n + 0xB00 + 8 * b
def Reg.MEM_ECC (n : Nat) : Nat := coreRegs n + 0xB80
def Reg.MEM_ERR (n : Nat) : Nat := coreRegs n + 0xB88
def Reg.LOCK_XMODE (n : Nat) : Nat := coreRegs n + 0xB90
def Reg.WS_COPY (n : Nat) : Nat := coreRegs n + 0xBA0
def Reg.DEV_ID : Nat := blockBase 0 + 0x0
def Reg.DEV_SERIAL : Nat := blockBase 0 + 0x8
def Reg.DEV_STEPPING : Nat := blockBase 0 + 0x10
def Reg.DEV_CORE_MAP (j : Nat) : Nat := blockBase 0 + 0x20 + 8 * j
def Reg.DEV_STATE : Nat := blockBase 0 + 0x40
def Reg.DEV_FWVER : Nat := blockBase 0 + 0x48
def Reg.DEV_RESET : Nat := blockBase 0 + 0x800
def Reg.DEV_RESET_STAT : Nat := blockBase 0 + 0x808
def Reg.TOLL_BOOT : Nat := blockBase 1 + 0x800
def Reg.TOLL_IMAGE : Nat := blockBase 1 + 0x808
def Reg.TOLL_CMD : Nat := blockBase 1 + 0x810
def Reg.TOLL_MEAS (j : Nat) : Nat := blockBase 1 + 0x840 + 8 * j
def Reg.TOLL_THERM : Nat := blockBase 1 + 0x880
def Reg.PACE_OP_TABLE (k : Nat) : Nat := blockBase 2 + 0x0 + 8 * k
def Reg.PACE_OPSEL (r : Nat) : Nat := blockBase 2 + 0x100 + 8 * r
def Reg.PACE_STRETCH (r : Nat) : Nat := blockBase 2 + 0x200 + 8 * r
def Reg.PACE_HOLD_NS : Nat := blockBase 2 + 0x300
def Reg.VANE_MARGIN (r : Nat) : Nat := blockBase 2 + 0x400 + 8 * r
def Reg.VANE_THRESH : Nat := blockBase 2 + 0x500
def Reg.PACE_HOLD_CNT : Nat := blockBase 2 + 0x800
def Reg.PACE_BEAT : Nat := blockBase 2 + 0x808
def Reg.WEIR_LIMIT (k : Nat) : Nat := blockBase 3 + 0x0 + 8 * k
def Reg.WEIR_WINDOW : Nat := blockBase 3 + 0x80
def Reg.WEIR_STAT : Nat := blockBase 3 + 0x100
def Reg.WEIR_GUST_CNT : Nat := blockBase 3 + 0x108
def Reg.WEIR_RAIL (k : Nat) : Nat := blockBase 3 + 0x800 + 8 * k
def Reg.ENGY_REACH (r : Nat) : Nat := blockBase 4 + 0x0 + 8 * r
def Reg.ENGY_CLASS (c : Nat) : Nat := blockBase 4 + 0x100 + 8 * c
def Reg.ENGY_PKG : Nat := blockBase 4 + 0x200
def Reg.ENGY_CTRL : Nat := blockBase 4 + 0x800
def Reg.ENGY_STEP : Nat := blockBase 4 + 0x808
def Reg.ENGY_GROUP : Nat := blockBase 4 + 0x810
def Reg.ENGY_GROUP_ADD : Nat := blockBase 4 + 0x818
def Reg.ENGY_UNATTR : Nat := blockBase 4 + 0x820
def Reg.ENGY_TBASE : Nat := blockBase 4 + 0x828
def Reg.LOCK_SLOT_MASK (s w : Nat) : Nat := blockBase 5 + 0x0 + 64 * s + 8 * w
def Reg.LOCK_SLOT_STAT (s : Nat) : Nat := blockBase 5 + 0x1000 + 8 * s
def Reg.LOCK_SLOT_CTRL (s : Nat) : Nat := blockBase 5 + 0x2000 + 8 * s
def Reg.LOCK_ERR : Nat := blockBase 5 + 0x3000
def Reg.LOCK_XLAT : Nat := blockBase 5 + 0x3008
def Reg.MESH_MODE : Nat := blockBase 6 + 0x0
def Reg.MESH_FENCE (j : Nat) : Nat := blockBase 6 + 0x10 + 8 * j
def Reg.MESH_STAT : Nat := blockBase 6 + 0x800
def Reg.HOLD_CTRL (h : Nat) : Nat := blockBase 7 + 0x0 + 256 * h
def Reg.HOLD_REFRESH (h : Nat) : Nat := blockBase 7 + 0x8 + 256 * h
def Reg.HOLD_ERR (h : Nat) : Nat := blockBase 7 + 0x10 + 256 * h
def Reg.TOWL_LANE_CTRL (l : Nat) : Nat := blockBase 8 + 0x0 + 8 * l
def Reg.TOWL_LANE_STAT (l : Nat) : Nat := blockBase 8 + 0x400 + 8 * l
def Reg.TOWL_PORT_MAP (p : Nat) : Nat := blockBase 8 + 0x800 + 8 * p
def Reg.TOWL_PARTNER (l : Nat) : Nat := blockBase 8 + 0xC00 + 8 * l
def Reg.TOWL_PORT_STAT (p : Nat) : Nat := blockBase 8 + 0x1000 + 8 * p
def Reg.FABR_ADDR : Nat := blockBase 9 + 0x0
def Reg.FABR_EPOCH : Nat := blockBase 9 + 0x8
def Reg.FABR_STEP : Nat := blockBase 9 + 0x10
def Reg.FABR_TIME : Nat := blockBase 9 + 0x18
def Reg.FABR_STEP_CFG : Nat := blockBase 9 + 0x800
def Reg.FABR_STEP_STAT : Nat := blockBase 9 + 0x808
def Reg.FABR_EPOCH_NEXT : Nat := blockBase 9 + 0x810
def Reg.FABR_SWITCH_STEP : Nat := blockBase 9 + 0x818
def Reg.FABR_TIME_CFG : Nat := blockBase 9 + 0x820
def Reg.FABR_LEND (h : Nat) : Nat := blockBase 9 + 0x830 + 8 * h
def Reg.FABR_EVQ : Nat := blockBase 9 + 0x840
def Reg.FABR_FERRY_W0 (c : Nat) : Nat := blockBase 9 + 0x900 + 32 * c
def Reg.FABR_FERRY_W1 (c : Nat) : Nat := blockBase 9 + 0x908 + 32 * c
def Reg.FABR_FERRY_W2 (c : Nat) : Nat := blockBase 9 + 0x910 + 32 * c
def Reg.FABR_FERRY_W3 (c : Nat) : Nat := blockBase 9 + 0x918 + 32 * c
def Reg.FABR_STEP_MEMBERS (j : Nat) : Nat := blockBase 9 + 0x1000 + 8 * j
def Reg.ENET_PORT_CTRL (p : Nat) : Nat := blockBase 10 + 0x0 + 256 * p
def Reg.ENET_PORT_STAT (p : Nat) : Nat := blockBase 10 + 0x800 + 8 * p
def Reg.ENET_IF_W0 (i : Nat) : Nat := blockBase 10 + 0x900 + 64 * i
def Reg.ENET_IF_W1 (i : Nat) : Nat := blockBase 10 + 0x908 + 64 * i
def Reg.ENET_IF_W2 (i : Nat) : Nat := blockBase 10 + 0x910 + 64 * i
def Reg.ENET_IF_W3 (i : Nat) : Nat := blockBase 10 + 0x918 + 64 * i
def Reg.ENET_IF_W4 (i : Nat) : Nat := blockBase 10 + 0x920 + 64 * i
def Reg.ENET_IF_W5 (i : Nat) : Nat := blockBase 10 + 0x928 + 64 * i
def Reg.ENET_IF_W6 (i : Nat) : Nat := blockBase 10 + 0x930 + 64 * i
def Reg.ENET_IF_W7 (i : Nat) : Nat := blockBase 10 + 0x938 + 64 * i
def Reg.ENET_QP : Nat := blockBase 10 + 0xC00
def Reg.ENET_MR : Nat := blockBase 10 + 0xC08
def Reg.LEDG_BASE : Nat := blockBase 11 + 0x0
def Reg.LEDG_COUNT : Nat := blockBase 11 + 0x8
def Reg.LEDG_TENANT_BASE : Nat := blockBase 11 + 0x10
def Reg.LEDG_POLICY : Nat := blockBase 11 + 0x18
def Reg.LEDG_SHAPE : Nat := blockBase 11 + 0x800
def Reg.LEDG_KV : Nat := blockBase 11 + 0x808
def Reg.LEDG_KVPOOL : Nat := blockBase 11 + 0x810
def Reg.LEDG_KVSTAT : Nat := blockBase 11 + 0x818
def Reg.LEDG_PROMPT : Nat := blockBase 11 + 0x820
def Reg.LEDG_BATCH : Nat := blockBase 11 + 0x828
def Reg.LEDG_AUDIT : Nat := blockBase 11 + 0x830
def Reg.LEDG_AUDIT_HEAD : Nat := blockBase 11 + 0x838
def Reg.LEDG_REPLAY : Nat := blockBase 11 + 0x840
def Reg.LEDG_STAT : Nat := blockBase 11 + 0x848
def Reg.STRM_MODE : Nat := blockBase 12 + 0x0
def Reg.STRM_RING : Nat := blockBase 12 + 0x800
def Reg.STRM_STAT : Nat := blockBase 12 + 0x808
def Reg.WSWP_EPOCH : Nat := blockBase 13 + 0x0
def Reg.WSWP_MODE : Nat := blockBase 13 + 0x8
def Reg.WSWP_ARM : Nat := blockBase 13 + 0x10
def Reg.WSWP_STAT : Nat := blockBase 13 + 0x18
def Reg.WSWP_PAUSE : Nat := blockBase 13 + 0x800
def Reg.WSWP_CTRL : Nat := blockBase 13 + 0x808
def Reg.WSWP_DIGEST : Nat := blockBase 13 + 0x810
def Reg.WSWP_STAGE (h : Nat) : Nat := blockBase 13 + 0x820 + 8 * h
def Reg.WSWP_SWITCH : Nat := blockBase 13 + 0x830
def Reg.SNAP_TRIG_SEL : Nat := blockBase 14 + 0x0
def Reg.SNAP_ARM : Nat := blockBase 14 + 0x8
def Reg.SNAP_BEAT : Nat := blockBase 14 + 0x10
def Reg.SNAP_STAT : Nat := blockBase 14 + 0x18
def Reg.SNAP_MATCH : Nat := blockBase 14 + 0x800
def Reg.SNAP_MATCH_BEAT : Nat := blockBase 14 + 0x808
def Reg.SNAP_TIME : Nat := blockBase 14 + 0x810
def Reg.SNAP_LOCK : Nat := blockBase 14 + 0x818
def Reg.SNAP_STEP : Nat := blockBase 14 + 0x820
def Reg.ERRS_HEAD : Nat := blockBase 15 + 0x0
def Reg.ERRS_COUNT : Nat := blockBase 15 + 0x8
def Reg.ERRS_CTRL : Nat := blockBase 15 + 0x800
def Reg.ERRS_STAT : Nat := blockBase 15 + 0x808
def Reg.ERRS_FWD (w : Nat) : Nat := blockBase 15 + 0x820 + 8 * w
def Reg.ERRS_LOG (e w : Nat) : Nat := blockBase 15 + 0x1000 + 32 * e + 8 * w
def Reg.DTRM_CTRL : Nat := blockBase 16 + 0x0
def Reg.DTRM_STAT : Nat := blockBase 16 + 0x800
def Reg.DTRM_GRID : Nat := blockBase 16 + 0x808
def Reg.DTRM_WDOG : Nat := blockBase 16 + 0x810
def Reg.DTRM_ALLOW : Nat := blockBase 16 + 0x818
def Reg.DTRM_STEP_STAT : Nat := blockBase 16 + 0x820
def Reg.DTRM_PKG : Nat := blockBase 16 + 0x828
def Reg.DTRM_LAT (k : Nat) : Nat := blockBase 16 + 0x1000 + 8 * k
def Reg.DTRM_VMAP (j : Nat) : Nat := blockBase 16 + 0x2000 + 8 * j
def Reg.LIMS_SEC_FLOOR : Nat := blockBase 17 + 0x0
def Reg.LIMS_OP_CEIL : Nat := blockBase 17 + 0x8
def Reg.LIMS_DEBUG : Nat := blockBase 17 + 0x10
def Reg.LIMS_ROLE : Nat := blockBase 17 + 0x18
def Reg.LIMS_GRADE (w : Nat) : Nat := blockBase 17 + 0x20 + 8 * w
def Reg.LIMS_BUDGETS : Nat := blockBase 17 + 0x100
def Reg.LIMS_OWNER (j : Nat) : Nat := blockBase 17 + 0x800 + 8 * j
def Reg.LIMS_JOURNAL (e w : Nat) : Nat := blockBase 17 + 0x1000 + 32 * e + 8 * w
def Reg.TEST_REQ : Nat := blockBase 18 + 0x0
def Reg.TEST_STAT : Nat := blockBase 18 + 0x8
def Reg.IDLE_BUDGET_NS : Nat := blockBase 19 + 0x0
def Reg.IDLE_STATE : Nat := blockBase 19 + 0x8
def Reg.IDLE_CTRL : Nat := blockBase 19 + 0x800
def Reg.IDLE_NS (x : Nat) : Nat := blockBase 19 + 0x800 + 8 * x
def Reg.IDLE_COUNT : Nat := blockBase 19 + 0x820
def Reg.IDLE_OPSET : Nat := blockBase 19 + 0x828
def Reg.IDLE_PHASE : Nat := blockBase 19 + 0x830
def Reg.IDLE_SUSTAIN : Nat := blockBase 19 + 0x838

abbrev Fld.CORE_CTRL.kstep : BitField := ⟨7, 1⟩
abbrev Fld.CORE_CTRL.resume : BitField := ⟨4, 1⟩
abbrev Fld.CORE_CTRL.halt : BitField := ⟨3, 1⟩
abbrev Fld.CORE_CTRL.arm : BitField := ⟨0, 1⟩
abbrev Fld.CORE_STAT.fault_err : BitField := ⟨32, 16⟩
abbrev Fld.CORE_STAT.halted_once : BitField := ⟨16, 1⟩
abbrev Fld.CORE_STAT.x_state : BitField := ⟨10, 2⟩
abbrev Fld.CORE_STAT.a_state : BitField := ⟨8, 2⟩
abbrev Fld.CORE_STAT.keep_state : BitField := ⟨6, 2⟩
abbrev Fld.CORE_STAT.state : BitField := ⟨0, 3⟩
abbrev Fld.KEEP_PC.pc : BitField := ⟨0, 32⟩
abbrev Fld.QUEUE_STAT.fault_q : BitField := ⟨56, 8⟩
abbrev Fld.QUEUE_STAT.count : BitField := ⟨0, 40⟩
abbrev Fld.LOCK_CNT.sig_count : BitField := ⟨32, 16⟩
abbrev Fld.LOCK_CNT.contended : BitField := ⟨18, 1⟩
abbrev Fld.LOCK_CNT.unf : BitField := ⟨17, 1⟩
abbrev Fld.LOCK_CNT.ovf : BitField := ⟨16, 1⟩
abbrev Fld.LOCK_CNT.count : BitField := ⟨0, 16⟩
abbrev Fld.BERTH_W0.enable : BitField := ⟨63, 1⟩
abbrev Fld.BERTH_W0.size : BitField := ⟨32, 17⟩
abbrev Fld.BERTH_W0.base : BitField := ⟨6, 17⟩
abbrev Fld.BERTH_W1.done_count : BitField := ⟨48, 16⟩
abbrev Fld.BERTH_W1.grant : BitField := ⟨30, 18⟩
abbrev Fld.BERTH_W1.refused : BitField := ⟨29, 1⟩
abbrev Fld.BERTH_W1.credit : BitField := ⟨0, 18⟩
abbrev Fld.SLUICE_STAT.started : BitField := ⟨48, 16⟩
abbrev Fld.SLUICE_STAT.open_subs : BitField := ⟨32, 5⟩
abbrev Fld.SLUICE_STAT.phase : BitField := ⟨26, 3⟩
abbrev Fld.SLUICE_STAT.barges : BitField := ⟨0, 26⟩
abbrev Fld.INGRESS_STAT.full_beats : BitField := ⟨32, 32⟩
abbrev Fld.INGRESS_STAT.held : BitField := ⟨0, 6⟩
abbrev Fld.ARRAY_STAT.op_count : BitField := ⟨48, 16⟩
abbrev Fld.ARRAY_STAT.anchor : BitField := ⟨32, 8⟩
abbrev Fld.ARRAY_STAT.last_poison : BitField := ⟨29, 1⟩
abbrev Fld.ARRAY_STAT.last_flags : BitField := ⟨24, 5⟩
abbrev Fld.ARRAY_STAT.busy : BitField := ⟨16, 1⟩
abbrev Fld.ARRAY_STAT.poison : BitField := ⟨5, 1⟩
abbrev Fld.ARRAY_STAT.flags : BitField := ⟨0, 5⟩
abbrev Fld.ARRAY_FAULT.valid : BitField := ⟨63, 1⟩
abbrev Fld.ARRAY_FAULT.fault_row : BitField := ⟨48, 7⟩
abbrev Fld.ARRAY_FAULT.fault_col : BitField := ⟨32, 7⟩
abbrev Fld.ARRAY_FAULT.test_runs : BitField := ⟨0, 16⟩
abbrev Fld.VEC_STAT.op_count : BitField := ⟨48, 16⟩
abbrev Fld.VEC_STAT.busy : BitField := ⟨32, 1⟩
abbrev Fld.VEC_STAT.last_afa : BitField := ⟨24, 5⟩
abbrev Fld.VEC_STAT.last_lane : BitField := ⟨16, 4⟩
abbrev Fld.VEC_STAT.afa : BitField := ⟨8, 5⟩
abbrev Fld.VEC_STAT.lane : BitField := ⟨0, 4⟩
abbrev Fld.VEC_WIN.base : BitField := ⟨9, 10⟩
abbrev Fld.QUEUE_CFG.q7 : BitField := ⟨28, 4⟩
abbrev Fld.QUEUE_CFG.q6 : BitField := ⟨24, 4⟩
abbrev Fld.QUEUE_CFG.q5 : BitField := ⟨20, 4⟩
abbrev Fld.QUEUE_CFG.q4 : BitField := ⟨16, 4⟩
abbrev Fld.QUEUE_CFG.q3 : BitField := ⟨12, 4⟩
abbrev Fld.QUEUE_CFG.q2 : BitField := ⟨8, 4⟩
abbrev Fld.QUEUE_CFG.q1 : BitField := ⟨4, 4⟩
abbrev Fld.QUEUE_CFG.q0 : BitField := ⟨0, 4⟩
abbrev Fld.ASTREAM_STAT.wait_beats : BitField := ⟨32, 32⟩
abbrev Fld.ASTREAM_STAT.fifo : BitField := ⟨28, 4⟩
abbrev Fld.ASTREAM_STAT.started : BitField := ⟨0, 16⟩
abbrev Fld.XSTREAM_STAT.wait_beats : BitField := ⟨32, 32⟩
abbrev Fld.XSTREAM_STAT.fifo : BitField := ⟨28, 4⟩
abbrev Fld.XSTREAM_STAT.started : BitField := ⟨0, 16⟩
abbrev Fld.MENU_BASE.count : BitField := ⟨32, 9⟩
abbrev Fld.MENU_BASE.base : BitField := ⟨0, 16⟩
abbrev Fld.STEP_STAT.beats : BitField := ⟨32, 32⟩
abbrev Fld.STEP_STAT.overrun : BitField := ⟨2, 1⟩
abbrev Fld.STEP_STAT.next_valid : BitField := ⟨1, 1⟩
abbrev Fld.STEP_STAT.in_step : BitField := ⟨0, 1⟩
abbrev Fld.STEP_REC.word : BitField := ⟨0, 64⟩
abbrev Fld.BERTH_DONE.done_beat : BitField := ⟨0, 32⟩
abbrev Fld.MEM_ECC.keeper_ce : BitField := ⟨48, 16⟩
abbrev Fld.MEM_ECC.wstore_ce : BitField := ⟨32, 16⟩
abbrev Fld.MEM_ECC.ocache_ce : BitField := ⟨16, 16⟩
abbrev Fld.MEM_ECC.basin_ce : BitField := ⟨0, 16⟩
abbrev Fld.MEM_ERR.valid : BitField := ⟨63, 1⟩
abbrev Fld.MEM_ERR.mem : BitField := ⟨60, 3⟩
abbrev Fld.MEM_ERR.offset : BitField := ⟨5, 21⟩
abbrev Fld.LOCK_XMODE.xmode : BitField := ⟨0, 32⟩
abbrev Fld.WS_COPY.copy1_epoch : BitField := ⟨32, 32⟩
abbrev Fld.WS_COPY.copy0_epoch : BitField := ⟨0, 32⟩
abbrev Fld.DEV_ID.part : BitField := ⟨16, 16⟩
abbrev Fld.DEV_ID.family : BitField := ⟨8, 8⟩
abbrev Fld.DEV_ID.member : BitField := ⟨0, 8⟩
abbrev Fld.DEV_SERIAL.serial : BitField := ⟨0, 64⟩
abbrev Fld.DEV_STEPPING.die : BitField := ⟨8, 8⟩
abbrev Fld.DEV_STEPPING.layers : BitField := ⟨0, 8⟩
abbrev Fld.DEV_CORE_MAP.enabled : BitField := ⟨0, 64⟩
abbrev Fld.DEV_STATE.phase : BitField := ⟨0, 4⟩
abbrev Fld.DEV_FWVER.major : BitField := ⟨48, 16⟩
abbrev Fld.DEV_FWVER.minor : BitField := ⟨32, 16⟩
abbrev Fld.DEV_FWVER.build : BitField := ⟨0, 32⟩
abbrev Fld.DEV_RESET.ctx : BitField := ⟨63, 1⟩
abbrev Fld.DEV_RESET.fab : BitField := ⟨62, 1⟩
abbrev Fld.DEV_RESET.reach : BitField := ⟨61, 1⟩
abbrev Fld.DEV_RESET.reach_mask : BitField := ⟨0, 16⟩
abbrev Fld.DEV_RESET_STAT.last_kind : BitField := ⟨60, 4⟩
abbrev Fld.DEV_RESET_STAT.by_pin : BitField := ⟨56, 1⟩
abbrev Fld.DEV_RESET_STAT.ctx_count : BitField := ⟨0, 16⟩
abbrev Fld.TOLL_BOOT.phase : BitField := ⟨60, 4⟩
abbrev Fld.TOLL_BOOT.boots : BitField := ⟨48, 8⟩
abbrev Fld.TOLL_BOOT.fail_code : BitField := ⟨32, 16⟩
abbrev Fld.TOLL_BOOT.slot : BitField := ⟨29, 1⟩
abbrev Fld.TOLL_BOOT.slot0_fail : BitField := ⟨28, 1⟩
abbrev Fld.TOLL_BOOT.boot_ms : BitField := ⟨0, 20⟩
abbrev Fld.TOLL_IMAGE.sec_version : BitField := ⟨32, 32⟩
abbrev Fld.TOLL_IMAGE.image_version : BitField := ⟨0, 32⟩
abbrev Fld.TOLL_CMD.dev_reset : BitField := ⟨63, 1⟩
abbrev Fld.TOLL_CMD.toll_reset : BitField := ⟨62, 1⟩
abbrev Fld.TOLL_MEAS.meas : BitField := ⟨0, 64⟩
abbrev Fld.TOLL_THERM.trip : BitField := ⟨63, 1⟩
abbrev Fld.TOLL_THERM.trip_src : BitField := ⟨56, 2⟩
abbrev Fld.TOLL_THERM.die_max_c : BitField := ⟨48, 8⟩
abbrev Fld.TOLL_THERM.die_peak_c : BitField := ⟨40, 8⟩
abbrev Fld.TOLL_THERM.hold0_c : BitField := ⟨32, 8⟩
abbrev Fld.TOLL_THERM.hold1_c : BitField := ⟨24, 8⟩
abbrev Fld.TOLL_THERM.toll_c : BitField := ⟨16, 8⟩
abbrev Fld.PACE_OP_TABLE.valid : BitField := ⟨63, 1⟩
abbrev Fld.PACE_OP_TABLE.dl_code : BitField := ⟨40, 8⟩
abbrev Fld.PACE_OP_TABLE.vdd_mv : BitField := ⟨24, 12⟩
abbrev Fld.PACE_OP_TABLE.period_ps : BitField := ⟨0, 16⟩
abbrev Fld.PACE_OPSEL.retune_count : BitField := ⟨48, 16⟩
abbrev Fld.PACE_OPSEL.settle_fail : BitField := ⟨18, 1⟩
abbrev Fld.PACE_OPSEL.auto_down : BitField := ⟨17, 1⟩
abbrev Fld.PACE_OPSEL.busy : BitField := ⟨16, 1⟩
abbrev Fld.PACE_OPSEL.current_op : BitField := ⟨8, 4⟩
abbrev Fld.PACE_OPSEL.target_op : BitField := ⟨0, 4⟩
abbrev Fld.PACE_STRETCH.stretched_beats : BitField := ⟨32, 32⟩
abbrev Fld.PACE_STRETCH.stretch_ns : BitField := ⟨0, 32⟩
abbrev Fld.PACE_HOLD_NS.held_ns : BitField := ⟨0, 64⟩
abbrev Fld.VANE_MARGIN.vane7 : BitField := ⟨56, 8⟩
abbrev Fld.VANE_MARGIN.vane6 : BitField := ⟨48, 8⟩
abbrev Fld.VANE_MARGIN.vane5 : BitField := ⟨40, 8⟩
abbrev Fld.VANE_MARGIN.vane4 : BitField := ⟨32, 8⟩
abbrev Fld.VANE_MARGIN.vane3 : BitField := ⟨24, 8⟩
abbrev Fld.VANE_MARGIN.vane2 : BitField := ⟨16, 8⟩
abbrev Fld.VANE_MARGIN.vane1 : BitField := ⟨8, 8⟩
abbrev Fld.VANE_MARGIN.vane0 : BitField := ⟨0, 8⟩
abbrev Fld.VANE_THRESH.auto_down : BitField := ⟨31, 1⟩
abbrev Fld.VANE_THRESH.hyst : BitField := ⟨24, 4⟩
abbrev Fld.VANE_THRESH.warn : BitField := ⟨8, 8⟩
abbrev Fld.VANE_THRESH.crit : BitField := ⟨0, 8⟩
abbrev Fld.PACE_HOLD_CNT.retune_holds : BitField := ⟨48, 16⟩
abbrev Fld.PACE_HOLD_CNT.weir_stops : BitField := ⟨32, 16⟩
abbrev Fld.PACE_HOLD_CNT.link_late : BitField := ⟨16, 16⟩
abbrev Fld.PACE_HOLD_CNT.memory_late : BitField := ⟨0, 16⟩
abbrev Fld.PACE_BEAT.die_beat : BitField := ⟨0, 64⟩
abbrev Fld.WEIR_LIMIT.ceiling : BitField := ⟨32, 16⟩
abbrev Fld.WEIR_LIMIT.limit : BitField := ⟨0, 16⟩
abbrev Fld.WEIR_WINDOW.t3_pm : BitField := ⟨48, 12⟩
abbrev Fld.WEIR_WINDOW.t2_pm : BitField := ⟨36, 12⟩
abbrev Fld.WEIR_WINDOW.t1_pm : BitField := ⟨24, 12⟩
abbrev Fld.WEIR_WINDOW.hyst_pm : BitField := ⟨16, 8⟩
abbrev Fld.WEIR_WINDOW.window_ns : BitField := ⟨0, 16⟩
abbrev Fld.WEIR_STAT.stop_seen : BitField := ⟨24, 6⟩
abbrev Fld.WEIR_STAT.gust_seen : BitField := ⟨16, 6⟩
abbrev Fld.WEIR_STAT.code : BitField := ⟨0, 12⟩
abbrev Fld.WEIR_GUST_CNT.gusts : BitField := ⟨32, 32⟩
abbrev Fld.WEIR_GUST_CNT.stops : BitField := ⟨0, 32⟩
abbrev Fld.WEIR_RAIL.now : BitField := ⟨48, 16⟩
abbrev Fld.WEIR_RAIL.peak : BitField := ⟨32, 16⟩
abbrev Fld.WEIR_RAIL.gusts : BitField := ⟨16, 16⟩
abbrev Fld.WEIR_RAIL.stops : BitField := ⟨0, 16⟩
abbrev Fld.ENGY_REACH.energy_uj : BitField := ⟨0, 64⟩
abbrev Fld.ENGY_CLASS.energy_uj : BitField := ⟨0, 64⟩
abbrev Fld.ENGY_PKG.energy_uj : BitField := ⟨0, 64⟩
abbrev Fld.ENGY_CTRL.report : BitField := ⟨63, 1⟩
abbrev Fld.ENGY_CTRL.attr_en : BitField := ⟨62, 1⟩
abbrev Fld.ENGY_CTRL.prompt_weight : BitField := ⟨0, 16⟩
abbrev Fld.ENGY_STEP.step : BitField := ⟨32, 32⟩
abbrev Fld.ENGY_STEP.last_uj : BitField := ⟨0, 32⟩
abbrev Fld.ENGY_GROUP.acc : BitField := ⟨0, 64⟩
abbrev Fld.ENGY_GROUP_ADD.add_uj : BitField := ⟨0, 32⟩
abbrev Fld.ENGY_UNATTR.energy_uj : BitField := ⟨0, 64⟩
abbrev Fld.ENGY_TBASE.base : BitField := ⟨32, 32⟩
abbrev Fld.LOCK_SLOT_MASK.part : BitField := ⟨0, 64⟩
abbrev Fld.LOCK_SLOT_STAT.gen : BitField := ⟨48, 16⟩
abbrev Fld.LOCK_SLOT_STAT.chips_in : BitField := ⟨36, 12⟩
abbrev Fld.LOCK_SLOT_STAT.early : BitField := ⟨23, 9⟩
abbrev Fld.LOCK_SLOT_STAT.arrived : BitField := ⟨0, 9⟩
abbrev Fld.LOCK_SLOT_CTRL.armed : BitField := ⟨63, 1⟩
abbrev Fld.LOCK_SLOT_CTRL.fabric : BitField := ⟨62, 1⟩
abbrev Fld.LOCK_SLOT_CTRL.leader : BitField := ⟨61, 1⟩
abbrev Fld.LOCK_SLOT_CTRL.rel_ctr : BitField := ⟨56, 5⟩
abbrev Fld.LOCK_SLOT_CTRL.lchip : BitField := ⟨40, 16⟩
abbrev Fld.LOCK_SLOT_CTRL.nchips : BitField := ⟨28, 12⟩
abbrev Fld.LOCK_SLOT_CTRL.tree_id : BitField := ⟨18, 10⟩
abbrev Fld.LOCK_ERR.valid : BitField := ⟨63, 1⟩
abbrev Fld.LOCK_ERR.code : BitField := ⟨32, 16⟩
abbrev Fld.LOCK_ERR.core : BitField := ⟨24, 8⟩
abbrev Fld.LOCK_ERR.issuer : BitField := ⟨22, 2⟩
abbrev Fld.LOCK_ERR.index : BitField := ⟨16, 6⟩
abbrev Fld.LOCK_ERR.n : BitField := ⟨0, 16⟩
abbrev Fld.LOCK_XLAT.pending : BitField := ⟨32, 10⟩
abbrev Fld.LOCK_XLAT.beats : BitField := ⟨0, 32⟩
abbrev Fld.MESH_MODE.xbar : BitField := ⟨0, 16⟩
abbrev Fld.MESH_FENCE.fenced : BitField := ⟨0, 64⟩
abbrev Fld.MESH_STAT.hdr_ue : BitField := ⟨48, 16⟩
abbrev Fld.MESH_STAT.seq_err : BitField := ⟨32, 16⟩
abbrev Fld.MESH_STAT.busy : BitField := ⟨16, 16⟩
abbrev Fld.HOLD_CTRL.trained : BitField := ⟨63, 1⟩
abbrev Fld.HOLD_CTRL.temp_c : BitField := ⟨48, 8⟩
abbrev Fld.HOLD_CTRL.ext_on_c : BitField := ⟨8, 8⟩
abbrev Fld.HOLD_CTRL.scrub_en : BitField := ⟨4, 1⟩
abbrev Fld.HOLD_CTRL.rmode : BitField := ⟨0, 2⟩
abbrev Fld.HOLD_REFRESH.refreshes : BitField := ⟨32, 32⟩
abbrev Fld.HOLD_REFRESH.trefi_ns : BitField := ⟨16, 16⟩
abbrev Fld.HOLD_REFRESH.trfc_ns : BitField := ⟨8, 8⟩
abbrev Fld.HOLD_REFRESH.postponed_max : BitField := ⟨0, 8⟩
abbrev Fld.HOLD_ERR.ce_count : BitField := ⟨48, 16⟩
abbrev Fld.HOLD_ERR.ue_count : BitField := ⟨40, 8⟩
abbrev Fld.HOLD_ERR.ue_valid : BitField := ⟨36, 1⟩
abbrev Fld.HOLD_ERR.last_addr : BitField := ⟨5, 31⟩
abbrev Fld.TOWL_LANE_CTRL.enable : BitField := ⟨63, 1⟩
abbrev Fld.TOWL_LANE_CTRL.retrain : BitField := ⟨62, 1⟩
abbrev Fld.TOWL_LANE_CTRL.auto : BitField := ⟨61, 1⟩
abbrev Fld.TOWL_LANE_CTRL.rate : BitField := ⟨60, 1⟩
abbrev Fld.TOWL_LANE_CTRL.tx_inv : BitField := ⟨59, 1⟩
abbrev Fld.TOWL_LANE_CTRL.rx_inv : BitField := ⟨58, 1⟩
abbrev Fld.TOWL_LANE_CTRL.tx_preset : BitField := ⟨0, 8⟩
abbrev Fld.TOWL_LANE_STAT.state : BitField := ⟨61, 3⟩
abbrev Fld.TOWL_LANE_STAT.partner_lane : BitField := ⟨47, 7⟩
abbrev Fld.TOWL_LANE_STAT.downs : BitField := ⟨32, 8⟩
abbrev Fld.TOWL_LANE_STAT.ucw : BitField := ⟨16, 16⟩
abbrev Fld.TOWL_LANE_STAT.csym : BitField := ⟨0, 16⟩
abbrev Fld.TOWL_PORT_MAP.enable : BitField := ⟨63, 1⟩
abbrev Fld.TOWL_PORT_MAP.active : BitField := ⟨62, 1⟩
abbrev Fld.TOWL_PORT_MAP.width : BitField := ⟨8, 2⟩
abbrev Fld.TOWL_PORT_MAP.base : BitField := ⟨0, 7⟩
abbrev Fld.TOWL_PARTNER.serial : BitField := ⟨0, 64⟩
abbrev Fld.TOWL_PORT_STAT.state : BitField := ⟨61, 3⟩
abbrev Fld.TOWL_PORT_STAT.partner_port : BitField := ⟨50, 6⟩
abbrev Fld.TOWL_PORT_STAT.partner_chip : BitField := ⟨32, 16⟩
abbrev Fld.TOWL_PORT_STAT.retries : BitField := ⟨24, 8⟩
abbrev Fld.TOWL_PORT_STAT.delay_ns : BitField := ⟨0, 16⟩
abbrev Fld.FABR_ADDR.mgr_here : BitField := ⟨32, 1⟩
abbrev Fld.FABR_ADDR.mgr : BitField := ⟨16, 16⟩
abbrev Fld.FABR_ADDR.addr : BitField := ⟨0, 16⟩
abbrev Fld.FABR_EPOCH.epoch : BitField := ⟨0, 32⟩
abbrev Fld.FABR_STEP.step : BitField := ⟨0, 64⟩
abbrev Fld.FABR_TIME.time_ns : BitField := ⟨0, 64⟩
abbrev Fld.FABR_STEP_CFG.leader : BitField := ⟨63, 1⟩
abbrev Fld.FABR_STEP_CFG.lag : BitField := ⟨62, 1⟩
abbrev Fld.FABR_STEP_CFG.members : BitField := ⟨50, 12⟩
abbrev Fld.FABR_STEP_CFG.tree_id : BitField := ⟨40, 10⟩
abbrev Fld.FABR_STEP_CFG.lchip : BitField := ⟨16, 16⟩
abbrev Fld.FABR_STEP_CFG.stall_ms : BitField := ⟨0, 16⟩
abbrev Fld.FABR_STEP_STAT.aligned : BitField := ⟨63, 1⟩
abbrev Fld.FABR_STEP_STAT.queued : BitField := ⟨58, 2⟩
abbrev Fld.FABR_STEP_STAT.ready_in : BitField := ⟨36, 12⟩
abbrev Fld.FABR_STEP_STAT.stall_us : BitField := ⟨0, 32⟩
abbrev Fld.FABR_EPOCH_NEXT.armed : BitField := ⟨63, 1⟩
abbrev Fld.FABR_EPOCH_NEXT.next : BitField := ⟨0, 32⟩
abbrev Fld.FABR_SWITCH_STEP.step : BitField := ⟨0, 64⟩
abbrev Fld.FABR_TIME_CFG.master : BitField := ⟨63, 1⟩
abbrev Fld.FABR_TIME_CFG.synced : BitField := ⟨62, 1⟩
abbrev Fld.FABR_TIME_CFG.parent : BitField := ⟨56, 6⟩
abbrev Fld.FABR_TIME_CFG.backup : BitField := ⟨50, 6⟩
abbrev Fld.FABR_TIME_CFG.offset_ps : BitField := ⟨0, 32⟩
abbrev Fld.FABR_LEND.enable : BitField := ⟨63, 1⟩
abbrev Fld.FABR_LEND.pages : BitField := ⟨32, 20⟩
abbrev Fld.FABR_LEND.base : BitField := ⟨0, 20⟩
abbrev Fld.FABR_EVQ.valid : BitField := ⟨63, 1⟩
abbrev Fld.FABR_EVQ.lost : BitField := ⟨62, 1⟩
abbrev Fld.FABR_EVQ.lane : BitField := ⟨48, 7⟩
abbrev Fld.FABR_EVQ.chip : BitField := ⟨32, 16⟩
abbrev Fld.FABR_EVQ.code : BitField := ⟨16, 16⟩
abbrev Fld.FABR_EVQ.step : BitField := ⟨0, 16⟩
abbrev Fld.FABR_FERRY_W0.src : BitField := ⟨0, 48⟩
abbrev Fld.FABR_FERRY_W1.dst : BitField := ⟨0, 64⟩
abbrev Fld.FABR_FERRY_W2.rate : BitField := ⟨48, 16⟩
abbrev Fld.FABR_FERRY_W2.length : BitField := ⟨0, 40⟩
abbrev Fld.FABR_FERRY_W3.go : BitField := ⟨63, 1⟩
abbrev Fld.FABR_FERRY_W3.busy : BitField := ⟨62, 1⟩
abbrev Fld.FABR_FERRY_W3.done : BitField := ⟨61, 1⟩
abbrev Fld.FABR_FERRY_W3.err : BitField := ⟨60, 1⟩
abbrev Fld.FABR_FERRY_W3.err_code : BitField := ⟨32, 16⟩
abbrev Fld.FABR_FERRY_W3.acked_kib : BitField := ⟨0, 32⟩
abbrev Fld.FABR_STEP_MEMBERS.member : BitField := ⟨0, 64⟩
abbrev Fld.ENET_PORT_CTRL.enable : BitField := ⟨63, 1⟩
abbrev Fld.ENET_PORT_CTRL.split : BitField := ⟨61, 2⟩
abbrev Fld.ENET_PORT_CTRL.pfc_gen : BitField := ⟨48, 8⟩
abbrev Fld.ENET_PORT_CTRL.pfc_honour : BitField := ⟨40, 8⟩
abbrev Fld.ENET_PORT_CTRL.roce_pcp : BitField := ⟨37, 3⟩
abbrev Fld.ENET_PORT_CTRL.tp_pcp : BitField := ⟨34, 3⟩
abbrev Fld.ENET_PORT_CTRL.ecn_en : BitField := ⟨33, 1⟩
abbrev Fld.ENET_PORT_CTRL.mtu : BitField := ⟨0, 14⟩
abbrev Fld.ENET_PORT_STAT.link : BitField := ⟨60, 4⟩
abbrev Fld.ENET_PORT_STAT.tp_drops : BitField := ⟨48, 8⟩
abbrev Fld.ENET_PORT_STAT.xoff_sent : BitField := ⟨32, 16⟩
abbrev Fld.ENET_PORT_STAT.xoff_rcvd : BitField := ⟨16, 16⟩
abbrev Fld.ENET_PORT_STAT.rx_drops : BitField := ⟨0, 16⟩
abbrev Fld.ENET_IF_W0.v4_en : BitField := ⟨63, 1⟩
abbrev Fld.ENET_IF_W0.v6_en : BitField := ⟨62, 1⟩
abbrev Fld.ENET_IF_W0.vlan : BitField := ⟨48, 12⟩
abbrev Fld.ENET_IF_W0.mac : BitField := ⟨0, 48⟩
abbrev Fld.ENET_IF_W1.v4_addr : BitField := ⟨32, 32⟩
abbrev Fld.ENET_IF_W1.v4_gw : BitField := ⟨0, 32⟩
abbrev Fld.ENET_IF_W2.v6_prefix : BitField := ⟨8, 8⟩
abbrev Fld.ENET_IF_W2.v4_prefix : BitField := ⟨0, 6⟩
abbrev Fld.ENET_IF_W4.v6_addr : BitField := ⟨0, 64⟩
abbrev Fld.ENET_IF_W5.v6_addr : BitField := ⟨0, 64⟩
abbrev Fld.ENET_IF_W6.v6_gw : BitField := ⟨0, 64⟩
abbrev Fld.ENET_IF_W7.v6_gw : BitField := ⟨0, 64⟩
abbrev Fld.ENET_QP.base : BitField := ⟨32, 32⟩
abbrev Fld.ENET_QP.count : BitField := ⟨0, 13⟩
abbrev Fld.ENET_MR.base : BitField := ⟨32, 32⟩
abbrev Fld.ENET_MR.count : BitField := ⟨0, 13⟩
abbrev Fld.LEDG_BASE.base : BitField := ⟨0, 48⟩
abbrev Fld.LEDG_COUNT.in_use : BitField := ⟨32, 21⟩
abbrev Fld.LEDG_COUNT.capacity : BitField := ⟨0, 21⟩
abbrev Fld.LEDG_TENANT_BASE.base : BitField := ⟨0, 48⟩
abbrev Fld.LEDG_POLICY.enable : BitField := ⟨63, 1⟩
abbrev Fld.LEDG_POLICY.replay : BitField := ⟨62, 1⟩
abbrev Fld.LEDG_POLICY.max_class : BitField := ⟨59, 3⟩
abbrev Fld.LEDG_POLICY.chunk_ns : BitField := ⟨32, 24⟩
abbrev Fld.LEDG_POLICY.max_ctx : BitField := ⟨0, 18⟩
abbrev Fld.LEDG_SHAPE.base : BitField := ⟨0, 48⟩
abbrev Fld.LEDG_KV.map_base : BitField := ⟨32, 32⟩
abbrev Fld.LEDG_KV.stride : BitField := ⟨24, 8⟩
abbrev Fld.LEDG_KV.round_tokens : BitField := ⟨8, 16⟩
abbrev Fld.LEDG_KVPOOL.base : BitField := ⟨32, 32⟩
abbrev Fld.LEDG_KVPOOL.count : BitField := ⟨0, 22⟩
abbrev Fld.LEDG_KVSTAT.reserved_pages : BitField := ⟨32, 22⟩
abbrev Fld.LEDG_KVSTAT.free : BitField := ⟨0, 22⟩
abbrev Fld.LEDG_PROMPT.base : BitField := ⟨32, 32⟩
abbrev Fld.LEDG_PROMPT.slot_kib : BitField := ⟨16, 16⟩
abbrev Fld.LEDG_PROMPT.slots : BitField := ⟨0, 16⟩
abbrev Fld.LEDG_BATCH.base : BitField := ⟨32, 32⟩
abbrev Fld.LEDG_AUDIT.base : BitField := ⟨32, 32⟩
abbrev Fld.LEDG_AUDIT.count : BitField := ⟨0, 22⟩
abbrev Fld.LEDG_AUDIT_HEAD.written : BitField := ⟨0, 64⟩
abbrev Fld.LEDG_REPLAY.base : BitField := ⟨32, 32⟩
abbrev Fld.LEDG_REPLAY.count : BitField := ⟨0, 22⟩
abbrev Fld.LEDG_STAT.ttft_misses : BitField := ⟨48, 16⟩
abbrev Fld.LEDG_STAT.tbt_misses : BitField := ⟨32, 16⟩
abbrev Fld.LEDG_STAT.refusals : BitField := ⟨16, 16⟩
abbrev Fld.LEDG_STAT.replay_drops : BitField := ⟨0, 16⟩
abbrev Fld.STRM_MODE.role : BitField := ⟨63, 1⟩
abbrev Fld.STRM_MODE.frame_buf : BitField := ⟨32, 10⟩
abbrev Fld.STRM_MODE.ring_low : BitField := ⟨16, 16⟩
abbrev Fld.STRM_RING.base : BitField := ⟨32, 32⟩
abbrev Fld.STRM_RING.count : BitField := ⟨0, 14⟩
abbrev Fld.STRM_STAT.sessions : BitField := ⟨48, 16⟩
abbrev Fld.STRM_STAT.rings : BitField := ⟨32, 16⟩
abbrev Fld.STRM_STAT.paused : BitField := ⟨16, 16⟩
abbrev Fld.STRM_STAT.resends : BitField := ⟨0, 16⟩
abbrev Fld.WSWP_EPOCH.old_epoch : BitField := ⟨32, 32⟩
abbrev Fld.WSWP_EPOCH.epoch : BitField := ⟨0, 32⟩
abbrev Fld.WSWP_MODE.mode : BitField := ⟨56, 2⟩
abbrev Fld.WSWP_MODE.slice_kib : BitField := ⟨0, 16⟩
abbrev Fld.WSWP_ARM.armed : BitField := ⟨63, 1⟩
abbrev Fld.WSWP_ARM.next : BitField := ⟨0, 32⟩
abbrev Fld.WSWP_STAT.state : BitField := ⟨61, 3⟩
abbrev Fld.WSWP_STAT.fill_poison : BitField := ⟨60, 1⟩
abbrev Fld.WSWP_STAT.check_fail : BitField := ⟨59, 1⟩
abbrev Fld.WSWP_STAT.aborted : BitField := ⟨58, 1⟩
abbrev Fld.WSWP_STAT.pinned_old : BitField := ⟨32, 21⟩
abbrev Fld.WSWP_STAT.ready_epoch : BitField := ⟨0, 32⟩
abbrev Fld.WSWP_PAUSE.fills : BitField := ⟨48, 16⟩
abbrev Fld.WSWP_PAUSE.pause_ns : BitField := ⟨0, 32⟩
abbrev Fld.WSWP_CTRL.check : BitField := ⟨63, 1⟩
abbrev Fld.WSWP_CTRL.prime : BitField := ⟨62, 1⟩
abbrev Fld.WSWP_CTRL.load : BitField := ⟨61, 1⟩
abbrev Fld.WSWP_CTRL.prime_rate : BitField := ⟨32, 16⟩
abbrev Fld.WSWP_CTRL.staged_epoch : BitField := ⟨0, 32⟩
abbrev Fld.WSWP_DIGEST.digest : BitField := ⟨0, 64⟩
abbrev Fld.WSWP_STAGE.base : BitField := ⟨32, 32⟩
abbrev Fld.WSWP_SWITCH.step : BitField := ⟨0, 64⟩
abbrev Fld.SNAP_TRIG_SEL.out_en : BitField := ⟨63, 1⟩
abbrev Fld.SNAP_TRIG_SEL.err_class : BitField := ⟨16, 16⟩
abbrev Fld.SNAP_TRIG_SEL.time : BitField := ⟨4, 1⟩
abbrev Fld.SNAP_TRIG_SEL.host : BitField := ⟨3, 1⟩
abbrev Fld.SNAP_TRIG_SEL.lock : BitField := ⟨2, 1⟩
abbrev Fld.SNAP_TRIG_SEL.step : BitField := ⟨1, 1⟩
abbrev Fld.SNAP_TRIG_SEL.pin : BitField := ⟨0, 1⟩
abbrev Fld.SNAP_ARM.armed : BitField := ⟨63, 1⟩
abbrev Fld.SNAP_ARM.freeze : BitField := ⟨62, 1⟩
abbrev Fld.SNAP_BEAT.beat : BitField := ⟨0, 64⟩
abbrev Fld.SNAP_STAT.valid : BitField := ⟨63, 1⟩
abbrev Fld.SNAP_STAT.source : BitField := ⟨60, 3⟩
abbrev Fld.SNAP_STAT.code : BitField := ⟨32, 16⟩
abbrev Fld.SNAP_STAT.missed : BitField := ⟨16, 16⟩
abbrev Fld.SNAP_STAT.captures : BitField := ⟨0, 16⟩
abbrev Fld.SNAP_MATCH.step : BitField := ⟨0, 64⟩
abbrev Fld.SNAP_MATCH_BEAT.step_beat : BitField := ⟨0, 32⟩
abbrev Fld.SNAP_TIME.time : BitField := ⟨0, 64⟩
abbrev Fld.SNAP_LOCK.kind : BitField := ⟨63, 1⟩
abbrev Fld.SNAP_LOCK.core : BitField := ⟨48, 8⟩
abbrev Fld.SNAP_LOCK.index : BitField := ⟨32, 6⟩
abbrev Fld.SNAP_LOCK.value : BitField := ⟨0, 16⟩
abbrev Fld.SNAP_STEP.step : BitField := ⟨0, 64⟩
abbrev Fld.ERRS_HEAD.next : BitField := ⟨0, 9⟩
abbrev Fld.ERRS_COUNT.logged : BitField := ⟨32, 32⟩
abbrev Fld.ERRS_COUNT.dropped : BitField := ⟨16, 16⟩
abbrev Fld.ERRS_COUNT.evt_lost : BitField := ⟨0, 16⟩
abbrev Fld.ERRS_CTRL.alert_mask : BitField := ⟨48, 16⟩
abbrev Fld.ERRS_CTRL.evt_mask : BitField := ⟨32, 16⟩
abbrev Fld.ERRS_CTRL.fwd_mask : BitField := ⟨16, 16⟩
abbrev Fld.ERRS_STAT.pending : BitField := ⟨0, 16⟩
abbrev Fld.ERRS_FWD.entry : BitField := ⟨0, 64⟩
abbrev Fld.ERRS_LOG.entry : BitField := ⟨0, 64⟩
abbrev Fld.DTRM_CTRL.start : BitField := ⟨1, 1⟩
abbrev Fld.DTRM_CTRL.strict : BitField := ⟨0, 1⟩
abbrev Fld.DTRM_STAT.watchdog : BitField := ⟨7, 1⟩
abbrev Fld.DTRM_STAT.xsig_late : BitField := ⟨6, 1⟩
abbrev Fld.DTRM_STAT.halted : BitField := ⟨5, 1⟩
abbrev Fld.DTRM_STAT.poison : BitField := ⟨4, 1⟩
abbrev Fld.DTRM_STAT.entropy : BitField := ⟨3, 1⟩
abbrev Fld.DTRM_STAT.arrival_reduce : BitField := ⟨2, 1⟩
abbrev Fld.DTRM_STAT.adaptive_route : BitField := ⟨1, 1⟩
abbrev Fld.DTRM_STAT.arrival_pack : BitField := ⟨0, 1⟩
abbrev Fld.DTRM_GRID.vgrid : BitField := ⟨0, 9⟩
abbrev Fld.DTRM_WDOG.fires : BitField := ⟨48, 16⟩
abbrev Fld.DTRM_WDOG.limit_ns : BitField := ⟨0, 32⟩
abbrev Fld.DTRM_ALLOW.retry_max : BitField := ⟨16, 8⟩
abbrev Fld.DTRM_ALLOW.refresh_pm : BitField := ⟨0, 10⟩
abbrev Fld.DTRM_STEP_STAT.held_ns : BitField := ⟨32, 32⟩
abbrev Fld.DTRM_STEP_STAT.boundary_ns : BitField := ⟨0, 32⟩
abbrev Fld.DTRM_PKG.digest : BitField := ⟨0, 64⟩
abbrev Fld.DTRM_LAT.native : BitField := ⟨32, 16⟩
abbrev Fld.DTRM_LAT.in_force : BitField := ⟨0, 16⟩
abbrev Fld.DTRM_VMAP.v7 : BitField := ⟨56, 8⟩
abbrev Fld.DTRM_VMAP.v6 : BitField := ⟨48, 8⟩
abbrev Fld.DTRM_VMAP.v5 : BitField := ⟨40, 8⟩
abbrev Fld.DTRM_VMAP.v4 : BitField := ⟨32, 8⟩
abbrev Fld.DTRM_VMAP.v3 : BitField := ⟨24, 8⟩
abbrev Fld.DTRM_VMAP.v2 : BitField := ⟨16, 8⟩
abbrev Fld.DTRM_VMAP.v1 : BitField := ⟨8, 8⟩
abbrev Fld.DTRM_VMAP.v0 : BitField := ⟨0, 8⟩
abbrev Fld.LIMS_SEC_FLOOR.floor : BitField := ⟨0, 32⟩
abbrev Fld.LIMS_OP_CEIL.ceil : BitField := ⟨0, 4⟩
abbrev Fld.LIMS_DEBUG.state : BitField := ⟨0, 2⟩
abbrev Fld.LIMS_ROLE.wharf_capable : BitField := ⟨0, 1⟩
abbrev Fld.LIMS_GRADE.enabled : BitField := ⟨0, 64⟩
abbrev Fld.LIMS_BUDGETS.journal : BitField := ⟨48, 11⟩
abbrev Fld.LIMS_BUDGETS.sec_used : BitField := ⟨32, 8⟩
abbrev Fld.LIMS_BUDGETS.ceil_used : BitField := ⟨24, 8⟩
abbrev Fld.LIMS_BUDGETS.debug_used : BitField := ⟨16, 8⟩
abbrev Fld.LIMS_BUDGETS.role_used : BitField := ⟨8, 8⟩
abbrev Fld.LIMS_BUDGETS.grade_used : BitField := ⟨0, 8⟩
abbrev Fld.LIMS_OWNER.digest : BitField := ⟨0, 64⟩
abbrev Fld.LIMS_JOURNAL.entry : BitField := ⟨0, 64⟩
abbrev Fld.TEST_REQ.go : BitField := ⟨63, 1⟩
abbrev Fld.TEST_REQ.cancel : BitField := ⟨62, 1⟩
abbrev Fld.TEST_REQ.port : BitField := ⟨48, 6⟩
abbrev Fld.TEST_REQ.test : BitField := ⟨32, 8⟩
abbrev Fld.TEST_REQ.timeout_ms : BitField := ⟨0, 32⟩
abbrev Fld.TEST_STAT.state : BitField := ⟨61, 3⟩
abbrev Fld.TEST_STAT.result : BitField := ⟨58, 3⟩
abbrev Fld.TEST_STAT.test : BitField := ⟨48, 8⟩
abbrev Fld.TEST_STAT.first_code : BitField := ⟨32, 16⟩
abbrev Fld.TEST_STAT.units : BitField := ⟨16, 16⟩
abbrev Fld.TEST_STAT.windows : BitField := ⟨0, 16⟩
abbrev Fld.IDLE_BUDGET_NS.budget_ns : BitField := ⟨0, 64⟩
abbrev Fld.IDLE_STATE.wake : BitField := ⟨63, 1⟩
abbrev Fld.IDLE_STATE.last_cause : BitField := ⟨48, 3⟩
abbrev Fld.IDLE_STATE.chosen : BitField := ⟨8, 3⟩
abbrev Fld.IDLE_STATE.state : BitField := ⟨0, 3⟩
abbrev Fld.IDLE_CTRL.delay_ns : BitField := ⟨0, 32⟩
abbrev Fld.IDLE_NS.time_ns : BitField := ⟨0, 64⟩
abbrev Fld.IDLE_COUNT.lull : BitField := ⟨48, 16⟩
abbrev Fld.IDLE_COUNT.calm : BitField := ⟨32, 16⟩
abbrev Fld.IDLE_COUNT.still : BitField := ⟨16, 16⟩
abbrev Fld.IDLE_OPSET.go : BitField := ⟨63, 1⟩
abbrev Fld.IDLE_OPSET.at_record : BitField := ⟨62, 1⟩
abbrev Fld.IDLE_OPSET.target : BitField := ⟨16, 4⟩
abbrev Fld.IDLE_OPSET.reach_mask : BitField := ⟨0, 16⟩
abbrev Fld.IDLE_PHASE.enable : BitField := ⟨63, 1⟩
abbrev Fld.IDLE_PHASE.cap : BitField := ⟨12, 4⟩
abbrev Fld.IDLE_PHASE.op_idle : BitField := ⟨8, 4⟩
abbrev Fld.IDLE_PHASE.op_decode : BitField := ⟨4, 4⟩
abbrev Fld.IDLE_PHASE.op_prefill : BitField := ⟨0, 4⟩
abbrev Fld.IDLE_SUSTAIN.window_ms : BitField := ⟨32, 16⟩
abbrev Fld.IDLE_SUSTAIN.sustained_w : BitField := ⟨0, 16⟩

/-- A register family: whether its reset value depends on its index (1 VEC_WIN, 2 DTRM_VMAP, 3 DTRM_LAT, else 0), its offset in its block or core-register block, its two index ranges with their strides, its
reset value, and the bits of each writable type (R15). -/
structure RegRow where
  idx   : Nat
  off   : Nat
  n1    : Nat
  st1   : Nat
  n2    : Nat
  st2   : Nat
  reset : Word
  rw    : Word
  w1c   : Word
  w1s   : Word
  wo    : Word
  deriving DecidableEq, Repr

/-- Whether the row holds the register at an offset of its block. -/
def RegRow.holds (r : RegRow) (off : Nat) : Bool :=
  r.off ≤ off && (off - r.off) % 8 == 0 &&
  (if r.n2 = 1 then (off - r.off) % r.st1 == 0 && decide ((off - r.off) / r.st1 < r.n1)
   else decide ((off - r.off) / r.st1 < r.n1) && (off - r.off) % r.st1 % r.st2 == 0
        && decide ((off - r.off) % r.st1 / r.st2 < r.n2))

/-- Registers of a core (R592). -/
def coreRows : List RegRow := [
  -- CORE_CTRL
  { idx := 0, off := 0x0, n1 := 1, st1 := 8, n2 := 1, st2 := 8, reset := 0x0#64, rw := 0x1#64, w1c := 0x0#64, w1s := 0x0#64, wo := 0x98#64 },
  -- CORE_STAT
  { idx := 0, off := 0x8, n1 := 1, st1 := 8, n2 := 1, st2 := 8, reset := 0x1#64, rw := 0x0#64, w1c := 0x0#64, w1s := 0x0#64, wo := 0x0#64 },
  -- KEEP_PC
  { idx := 0, off := 0x10, n1 := 1, st1 := 8, n2 := 1, st2 := 8, reset := 0x0#64, rw := 0xFFFFFFFF#64, w1c := 0x0#64, w1s := 0x0#64, wo := 0x0#64 },
  -- QUEUE_STAT
  { idx := 0, off := 0x18, n1 := 1, st1 := 8, n2 := 1, st2 := 8, reset := 0x0#64, rw := 0x0#64, w1c := 0xFF00000000000000#64, w1s := 0x0#64, wo := 0x0#64 },
  -- LOCK_CNT
  { idx := 0, off := 0x100, n1 := 32, st1 := 8, n2 := 1, st2 := 8, reset := 0x0#64, rw := 0x0#64, w1c := 0x70000#64, w1s := 0x0#64, wo := 0x0#64 },
  -- BERTH_W0
  { idx := 0, off := 0x200, n1 := 16, st1 := 16, n2 := 1, st2 := 8, reset := 0x0#64, rw := 0x8001FFFF007FFFC0#64, w1c := 0x0#64, w1s := 0x0#64, wo := 0x0#64 },
  -- BERTH_W1
  { idx := 0, off := 0x208, n1 := 16, st1 := 16, n2 := 1, st2 := 8, reset := 0x0#64, rw := 0x0#64, w1c := 0x20000000#64, w1s := 0x0#64, wo := 0xFFFFC0000000#64 },
  -- SLUICE_STAT
  { idx := 0, off := 0x400, n1 := 4, st1 := 8, n2 := 1, st2 := 8, reset := 0x0#64, rw := 0x0#64, w1c := 0x0#64, w1s := 0x0#64, wo := 0x0#64 },
  -- INGRESS_STAT
  { idx := 0, off := 0x420, n1 := 1, st1 := 8, n2 := 1, st2 := 8, reset := 0x0#64, rw := 0x0#64, w1c := 0x0#64, w1s := 0x0#64, wo := 0x0#64 },
  -- ARRAY_STAT
  { idx := 0, off := 0x800, n1 := 1, st1 := 8, n2 := 1, st2 := 8, reset := 0x0#64, rw := 0x0#64, w1c := 0x3F#64, w1s := 0x0#64, wo := 0x0#64 },
  -- ARRAY_FAULT
  { idx := 0, off := 0x808, n1 := 1, st1 := 8, n2 := 1, st2 := 8, reset := 0x0#64, rw := 0x0#64, w1c := 0x0#64, w1s := 0x0#64, wo := 0x0#64 },
  -- VEC_STAT
  { idx := 0, off := 0x810, n1 := 1, st1 := 8, n2 := 1, st2 := 8, reset := 0x0#64, rw := 0x0#64, w1c := 0x1F0F#64, w1s := 0x0#64, wo := 0x0#64 },
  -- VEC_WIN
  { idx := 1, off := 0x900, n1 := 32, st1 := 8, n2 := 1, st2 := 8, reset := 0x0#64, rw := 0x7FE00#64, w1c := 0x0#64, w1s := 0x0#64, wo := 0x0#64 },
  -- QUEUE_CFG
  { idx := 0, off := 0xA00, n1 := 1, st1 := 8, n2 := 1, st2 := 8, reset := 0x66669999#64, rw := 0xFFFFFFFF#64, w1c := 0x0#64, w1s := 0x0#64, wo := 0x0#64 },
  -- ASTREAM_STAT
  { idx := 0, off := 0xA08, n1 := 1, st1 := 8, n2 := 1, st2 := 8, reset := 0x0#64, rw := 0x0#64, w1c := 0x0#64, w1s := 0x0#64, wo := 0x0#64 },
  -- XSTREAM_STAT
  { idx := 0, off := 0xA10, n1 := 1, st1 := 8, n2 := 1, st2 := 8, reset := 0x0#64, rw := 0x0#64, w1c := 0x0#64, w1s := 0x0#64, wo := 0x0#64 },
  -- MENU_BASE
  { idx := 0, off := 0xA18, n1 := 1, st1 := 8, n2 := 1, st2 := 8, reset := 0x0#64, rw := 0x1FF0000FFFF#64, w1c := 0x0#64, w1s := 0x0#64, wo := 0x0#64 },
  -- STEP_STAT
  { idx := 0, off := 0xA20, n1 := 1, st1 := 8, n2 := 1, st2 := 8, reset := 0x0#64, rw := 0x0#64, w1c := 0x4#64, w1s := 0x0#64, wo := 0x0#64 },
  -- STEP_REC
  { idx := 0, off := 0xA40, n1 := 8, st1 := 8, n2 := 1, st2 := 8, reset := 0x0#64, rw := 0x0#64, w1c := 0x0#64, w1s := 0x0#64, wo := 0x0#64 },
  -- BERTH_DONE
  { idx := 0, off := 0xB00, n1 := 16, st1 := 8, n2 := 1, st2 := 8, reset := 0x0#64, rw := 0x0#64, w1c := 0x0#64, w1s := 0x0#64, wo := 0x0#64 },
  -- MEM_ECC
  { idx := 0, off := 0xB80, n1 := 1, st1 := 8, n2 := 1, st2 := 8, reset := 0x0#64, rw := 0xFFFFFFFFFFFFFFFF#64, w1c := 0x0#64, w1s := 0x0#64, wo := 0x0#64 },
  -- MEM_ERR
  { idx := 0, off := 0xB88, n1 := 1, st1 := 8, n2 := 1, st2 := 8, reset := 0x0#64, rw := 0x0#64, w1c := 0x8000000000000000#64, w1s := 0x0#64, wo := 0x0#64 },
  -- LOCK_XMODE
  { idx := 0, off := 0xB90, n1 := 1, st1 := 8, n2 := 1, st2 := 8, reset := 0x0#64, rw := 0xFFFFFFFF#64, w1c := 0x0#64, w1s := 0x0#64, wo := 0x0#64 },
  -- WS_COPY
  { idx := 0, off := 0xBA0, n1 := 1, st1 := 8, n2 := 1, st2 := 8, reset := 0x0#64, rw := 0x0#64, w1c := 0x0#64, w1s := 0x0#64, wo := 0x0#64 }]

/-- Registers of block DEV (R593, R594). -/
def devRows : List RegRow := [
  -- DEV_ID
  { idx := 0, off := 0x0, n1 := 1, st1 := 8, n2 := 1, st2 := 8, reset := 0x9256A704#64, rw := 0x0#64, w1c := 0x0#64, w1s := 0x0#64, wo := 0x0#64 },
  -- DEV_SERIAL
  { idx := 0, off := 0x8, n1 := 1, st1 := 8, n2 := 1, st2 := 8, reset := 0x1#64, rw := 0x0#64, w1c := 0x0#64, w1s := 0x0#64, wo := 0x0#64 },
  -- DEV_STEPPING
  { idx := 0, off := 0x10, n1 := 1, st1 := 8, n2 := 1, st2 := 8, reset := 0x0#64, rw := 0x0#64, w1c := 0x0#64, w1s := 0x0#64, wo := 0x0#64 },
  -- DEV_CORE_MAP
  { idx := 0, off := 0x20, n1 := 4, st1 := 8, n2 := 1, st2 := 8, reset := 0xFFFFFFFFFFFFFFFF#64, rw := 0x0#64, w1c := 0x0#64, w1s := 0x0#64, wo := 0x0#64 },
  -- DEV_STATE
  { idx := 0, off := 0x40, n1 := 1, st1 := 8, n2 := 1, st2 := 8, reset := 0x5#64, rw := 0x0#64, w1c := 0x0#64, w1s := 0x0#64, wo := 0x0#64 },
  -- DEV_FWVER
  { idx := 0, off := 0x48, n1 := 1, st1 := 8, n2 := 1, st2 := 8, reset := 0x0#64, rw := 0x0#64, w1c := 0x0#64, w1s := 0x0#64, wo := 0x0#64 },
  -- DEV_RESET
  { idx := 0, off := 0x800, n1 := 1, st1 := 8, n2 := 1, st2 := 8, reset := 0x0#64, rw := 0x0#64, w1c := 0x0#64, w1s := 0x0#64, wo := 0xE00000000000FFFF#64 },
  -- DEV_RESET_STAT
  { idx := 0, off := 0x808, n1 := 1, st1 := 8, n2 := 1, st2 := 8, reset := 0x1000000000000000#64, rw := 0x0#64, w1c := 0x0#64, w1s := 0x0#64, wo := 0x0#64 }]

/-- Registers of block TOLL (R593, R594). -/
def tollRows : List RegRow := [
  -- TOLL_BOOT
  { idx := 0, off := 0x800, n1 := 1, st1 := 8, n2 := 1, st2 := 8, reset := 0x0#64, rw := 0x0#64, w1c := 0x0#64, w1s := 0x0#64, wo := 0x0#64 },
  -- TOLL_IMAGE
  { idx := 0, off := 0x808, n1 := 1, st1 := 8, n2 := 1, st2 := 8, reset := 0x0#64, rw := 0x0#64, w1c := 0x0#64, w1s := 0x0#64, wo := 0x0#64 },
  -- TOLL_CMD
  { idx := 0, off := 0x810, n1 := 1, st1 := 8, n2 := 1, st2 := 8, reset := 0x0#64, rw := 0x0#64, w1c := 0x0#64, w1s := 0x0#64, wo := 0xC000000000000000#64 },
  -- TOLL_MEAS
  { idx := 0, off := 0x840, n1 := 8, st1 := 8, n2 := 1, st2 := 8, reset := 0x0#64, rw := 0x0#64, w1c := 0x0#64, w1s := 0x0#64, wo := 0x0#64 },
  -- TOLL_THERM
  { idx := 0, off := 0x880, n1 := 1, st1 := 8, n2 := 1, st2 := 8, reset := 0x0#64, rw := 0xFF0000000000#64, w1c := 0x0#64, w1s := 0x0#64, wo := 0x0#64 }]

/-- Registers of block PACE (R593, R594). -/
def paceRows : List RegRow := [
  -- PACE_OP_TABLE
  { idx := 0, off := 0x0, n1 := 16, st1 := 8, n2 := 1, st2 := 8, reset := 0x0#64, rw := 0x0#64, w1c := 0x0#64, w1s := 0x0#64, wo := 0x0#64 },
  -- PACE_OPSEL
  { idx := 0, off := 0x100, n1 := 16, st1 := 8, n2 := 1, st2 := 8, reset := 0x0#64, rw := 0xF#64, w1c := 0x40000#64, w1s := 0x0#64, wo := 0x0#64 },
  -- PACE_STRETCH
  { idx := 0, off := 0x200, n1 := 16, st1 := 8, n2 := 1, st2 := 8, reset := 0x0#64, rw := 0xFFFFFFFFFFFFFFFF#64, w1c := 0x0#64, w1s := 0x0#64, wo := 0x0#64 },
  -- PACE_HOLD_NS
  { idx := 0, off := 0x300, n1 := 1, st1 := 8, n2 := 1, st2 := 8, reset := 0x0#64, rw := 0x0#64, w1c := 0x0#64, w1s := 0x0#64, wo := 0x0#64 },
  -- VANE_MARGIN
  { idx := 0, off := 0x400, n1 := 16, st1 := 8, n2 := 1, st2 := 8, reset := 0xFFFFFFFFFFFFFFFF#64, rw := 0x0#64, w1c := 0x0#64, w1s := 0x0#64, wo := 0x0#64 },
  -- VANE_THRESH
  { idx := 0, off := 0x500, n1 := 1, st1 := 8, n2 := 1, st2 := 8, reset := 0x88001808#64, rw := 0x8F00FFFF#64, w1c := 0x0#64, w1s := 0x0#64, wo := 0x0#64 },
  -- PACE_HOLD_CNT
  { idx := 0, off := 0x800, n1 := 1, st1 := 8, n2 := 1, st2 := 8, reset := 0x0#64, rw := 0x0#64, w1c := 0x0#64, w1s := 0x0#64, wo := 0x0#64 },
  -- PACE_BEAT
  { idx := 0, off := 0x808, n1 := 1, st1 := 8, n2 := 1, st2 := 8, reset := 0x0#64, rw := 0x0#64, w1c := 0x0#64, w1s := 0x0#64, wo := 0x0#64 }]

/-- Registers of block WEIR (R593, R594). -/
def weirRows : List RegRow := [
  -- WEIR_LIMIT
  { idx := 0, off := 0x0, n1 := 6, st1 := 8, n2 := 1, st2 := 8, reset := 0x0#64, rw := 0xFFFF#64, w1c := 0x0#64, w1s := 0x0#64, wo := 0x0#64 },
  -- WEIR_WINDOW
  { idx := 0, off := 0x80, n1 := 1, st1 := 8, n2 := 1, st2 := 8, reset := 0x4383E83B63207D0#64, rw := 0xFFFFFFFFFFFFFFF#64, w1c := 0x0#64, w1s := 0x0#64, wo := 0x0#64 },
  -- WEIR_STAT
  { idx := 0, off := 0x100, n1 := 1, st1 := 8, n2 := 1, st2 := 8, reset := 0x0#64, rw := 0x0#64, w1c := 0x3F3F0000#64, w1s := 0x0#64, wo := 0x0#64 },
  -- WEIR_GUST_CNT
  { idx := 0, off := 0x108, n1 := 1, st1 := 8, n2 := 1, st2 := 8, reset := 0x0#64, rw := 0x0#64, w1c := 0x0#64, w1s := 0x0#64, wo := 0x0#64 },
  -- WEIR_RAIL
  { idx := 0, off := 0x800, n1 := 6, st1 := 8, n2 := 1, st2 := 8, reset := 0x0#64, rw := 0xFFFF00000000#64, w1c := 0x0#64, w1s := 0x0#64, wo := 0x0#64 }]

/-- Registers of block ENGY (R593, R594). -/
def engyRows : List RegRow := [
  -- ENGY_REACH
  { idx := 0, off := 0x0, n1 := 16, st1 := 8, n2 := 1, st2 := 8, reset := 0x0#64, rw := 0x0#64, w1c := 0x0#64, w1s := 0x0#64, wo := 0x0#64 },
  -- ENGY_CLASS
  { idx := 0, off := 0x100, n1 := 8, st1 := 8, n2 := 1, st2 := 8, reset := 0x0#64, rw := 0x0#64, w1c := 0x0#64, w1s := 0x0#64, wo := 0x0#64 },
  -- ENGY_PKG
  { idx := 0, off := 0x200, n1 := 1, st1 := 8, n2 := 1, st2 := 8, reset := 0x0#64, rw := 0x0#64, w1c := 0x0#64, w1s := 0x0#64, wo := 0x0#64 },
  -- ENGY_CTRL
  { idx := 0, off := 0x800, n1 := 1, st1 := 8, n2 := 1, st2 := 8, reset := 0x8000000000000020#64, rw := 0xC00000000000FFFF#64, w1c := 0x0#64, w1s := 0x0#64, wo := 0x0#64 },
  -- ENGY_STEP
  { idx := 0, off := 0x808, n1 := 1, st1 := 8, n2 := 1, st2 := 8, reset := 0x0#64, rw := 0x0#64, w1c := 0x0#64, w1s := 0x0#64, wo := 0x0#64 },
  -- ENGY_GROUP
  { idx := 0, off := 0x810, n1 := 1, st1 := 8, n2 := 1, st2 := 8, reset := 0x0#64, rw := 0x0#64, w1c := 0x0#64, w1s := 0x0#64, wo := 0x0#64 },
  -- ENGY_GROUP_ADD
  { idx := 0, off := 0x818, n1 := 1, st1 := 8, n2 := 1, st2 := 8, reset := 0x0#64, rw := 0x0#64, w1c := 0x0#64, w1s := 0x0#64, wo := 0xFFFFFFFF#64 },
  -- ENGY_UNATTR
  { idx := 0, off := 0x820, n1 := 1, st1 := 8, n2 := 1, st2 := 8, reset := 0x0#64, rw := 0x0#64, w1c := 0x0#64, w1s := 0x0#64, wo := 0x0#64 },
  -- ENGY_TBASE
  { idx := 0, off := 0x828, n1 := 1, st1 := 8, n2 := 1, st2 := 8, reset := 0x0#64, rw := 0xFFFFFFFF00000000#64, w1c := 0x0#64, w1s := 0x0#64, wo := 0x0#64 }]

/-- Registers of block LOCK (R593, R594). -/
def lockRows : List RegRow := [
  -- LOCK_SLOT_MASK
  { idx := 0, off := 0x0, n1 := 64, st1 := 64, n2 := 4, st2 := 8, reset := 0x0#64, rw := 0xFFFFFFFFFFFFFFFF#64, w1c := 0x0#64, w1s := 0x0#64, wo := 0x0#64 },
  -- LOCK_SLOT_STAT
  { idx := 0, off := 0x1000, n1 := 64, st1 := 8, n2 := 1, st2 := 8, reset := 0x0#64, rw := 0x0#64, w1c := 0x0#64, w1s := 0x0#64, wo := 0x0#64 },
  -- LOCK_SLOT_CTRL
  { idx := 0, off := 0x2000, n1 := 64, st1 := 8, n2 := 1, st2 := 8, reset := 0x0#64, rw := 0xFFFFFFFFFFFC0000#64, w1c := 0x0#64, w1s := 0x0#64, wo := 0x0#64 },
  -- LOCK_ERR
  { idx := 0, off := 0x3000, n1 := 1, st1 := 8, n2 := 1, st2 := 8, reset := 0x0#64, rw := 0x0#64, w1c := 0x8000000000000000#64, w1s := 0x0#64, wo := 0x0#64 },
  -- LOCK_XLAT
  { idx := 0, off := 0x3008, n1 := 1, st1 := 8, n2 := 1, st2 := 8, reset := 0x0#64, rw := 0xFFFFFFFF#64, w1c := 0x0#64, w1s := 0x0#64, wo := 0x0#64 }]

/-- Registers of block MESH (R593, R594). -/
def meshRows : List RegRow := [
  -- MESH_MODE
  { idx := 0, off := 0x0, n1 := 1, st1 := 8, n2 := 1, st2 := 8, reset := 0x0#64, rw := 0xFFFF#64, w1c := 0x0#64, w1s := 0x0#64, wo := 0x0#64 },
  -- MESH_FENCE
  { idx := 0, off := 0x10, n1 := 4, st1 := 8, n2 := 1, st2 := 8, reset := 0x0#64, rw := 0x0#64, w1c := 0x0#64, w1s := 0x0#64, wo := 0x0#64 },
  -- MESH_STAT
  { idx := 0, off := 0x800, n1 := 1, st1 := 8, n2 := 1, st2 := 8, reset := 0x0#64, rw := 0xFFFFFFFFFFFF0000#64, w1c := 0x0#64, w1s := 0x0#64, wo := 0x0#64 }]

/-- Registers of block HOLD (R593, R594). -/
def holdRows : List RegRow := [
  -- HOLD_CTRL
  { idx := 0, off := 0x0, n1 := 2, st1 := 256, n2 := 1, st2 := 8, reset := 0x5510#64, rw := 0xFF10#64, w1c := 0x0#64, w1s := 0x0#64, wo := 0x0#64 },
  -- HOLD_REFRESH
  { idx := 0, off := 0x8, n1 := 2, st1 := 256, n2 := 1, st2 := 8, reset := 0xF3C4000#64, rw := 0x0#64, w1c := 0x0#64, w1s := 0x0#64, wo := 0x0#64 },
  -- HOLD_ERR
  { idx := 0, off := 0x10, n1 := 2, st1 := 256, n2 := 1, st2 := 8, reset := 0x0#64, rw := 0xFFFFFF0000000000#64, w1c := 0x1000000000#64, w1s := 0x0#64, wo := 0x0#64 }]

/-- Registers of block TOWL (R593, R594). -/
def towlRows : List RegRow := [
  -- TOWL_LANE_CTRL
  { idx := 0, off := 0x0, n1 := 96, st1 := 8, n2 := 1, st2 := 8, reset := 0x2000000000000000#64, rw := 0xBC000000000000FF#64, w1c := 0x0#64, w1s := 0x0#64, wo := 0x4000000000000000#64 },
  -- TOWL_LANE_STAT
  { idx := 0, off := 0x400, n1 := 96, st1 := 8, n2 := 1, st2 := 8, reset := 0x0#64, rw := 0x0#64, w1c := 0x0#64, w1s := 0x0#64, wo := 0x0#64 },
  -- TOWL_PORT_MAP
  { idx := 0, off := 0x800, n1 := 48, st1 := 8, n2 := 1, st2 := 8, reset := 0x0#64, rw := 0xC00000000000037F#64, w1c := 0x0#64, w1s := 0x0#64, wo := 0x0#64 },
  -- TOWL_PARTNER
  { idx := 0, off := 0xC00, n1 := 96, st1 := 8, n2 := 1, st2 := 8, reset := 0x0#64, rw := 0x0#64, w1c := 0x0#64, w1s := 0x0#64, wo := 0x0#64 },
  -- TOWL_PORT_STAT
  { idx := 0, off := 0x1000, n1 := 48, st1 := 8, n2 := 1, st2 := 8, reset := 0x0#64, rw := 0x0#64, w1c := 0x0#64, w1s := 0x0#64, wo := 0x0#64 }]

/-- Registers of block FABR (R593, R594). -/
def fabrRows : List RegRow := [
  -- FABR_ADDR
  { idx := 0, off := 0x0, n1 := 1, st1 := 8, n2 := 1, st2 := 8, reset := 0x0#64, rw := 0x1FFFFFFFF#64, w1c := 0x0#64, w1s := 0x0#64, wo := 0x0#64 },
  -- FABR_EPOCH
  { idx := 0, off := 0x8, n1 := 1, st1 := 8, n2 := 1, st2 := 8, reset := 0x0#64, rw := 0x0#64, w1c := 0x0#64, w1s := 0x0#64, wo := 0x0#64 },
  -- FABR_STEP
  { idx := 0, off := 0x10, n1 := 1, st1 := 8, n2 := 1, st2 := 8, reset := 0x0#64, rw := 0xFFFFFFFFFFFFFFFF#64, w1c := 0x0#64, w1s := 0x0#64, wo := 0x0#64 },
  -- FABR_TIME
  { idx := 0, off := 0x18, n1 := 1, st1 := 8, n2 := 1, st2 := 8, reset := 0x0#64, rw := 0xFFFFFFFFFFFFFFFF#64, w1c := 0x0#64, w1s := 0x0#64, wo := 0x0#64 },
  -- FABR_STEP_CFG
  { idx := 0, off := 0x800, n1 := 1, st1 := 8, n2 := 1, st2 := 8, reset := 0x64#64, rw := 0xFFFFFF00FFFFFFFF#64, w1c := 0x0#64, w1s := 0x0#64, wo := 0x0#64 },
  -- FABR_STEP_STAT
  { idx := 0, off := 0x808, n1 := 1, st1 := 8, n2 := 1, st2 := 8, reset := 0x8000000000000000#64, rw := 0x0#64, w1c := 0x0#64, w1s := 0x0#64, wo := 0x0#64 },
  -- FABR_EPOCH_NEXT
  { idx := 0, off := 0x810, n1 := 1, st1 := 8, n2 := 1, st2 := 8, reset := 0x0#64, rw := 0x80000000FFFFFFFF#64, w1c := 0x0#64, w1s := 0x0#64, wo := 0x0#64 },
  -- FABR_SWITCH_STEP
  { idx := 0, off := 0x818, n1 := 1, st1 := 8, n2 := 1, st2 := 8, reset := 0x0#64, rw := 0xFFFFFFFFFFFFFFFF#64, w1c := 0x0#64, w1s := 0x0#64, wo := 0x0#64 },
  -- FABR_TIME_CFG
  { idx := 0, off := 0x820, n1 := 1, st1 := 8, n2 := 1, st2 := 8, reset := 0x3FFC000000000000#64, rw := 0xBFFC000000000000#64, w1c := 0x0#64, w1s := 0x0#64, wo := 0x0#64 },
  -- FABR_LEND
  { idx := 0, off := 0x830, n1 := 2, st1 := 8, n2 := 1, st2 := 8, reset := 0x0#64, rw := 0x800FFFFF000FFFFF#64, w1c := 0x0#64, w1s := 0x0#64, wo := 0x0#64 },
  -- FABR_EVQ
  { idx := 0, off := 0x840, n1 := 1, st1 := 8, n2 := 1, st2 := 8, reset := 0x0#64, rw := 0x0#64, w1c := 0x4000000000000000#64, w1s := 0x0#64, wo := 0x0#64 },
  -- FABR_FERRY_W0
  { idx := 0, off := 0x900, n1 := 4, st1 := 32, n2 := 1, st2 := 8, reset := 0x0#64, rw := 0xFFFFFFFFFFFF#64, w1c := 0x0#64, w1s := 0x0#64, wo := 0x0#64 },
  -- FABR_FERRY_W1
  { idx := 0, off := 0x908, n1 := 4, st1 := 32, n2 := 1, st2 := 8, reset := 0x0#64, rw := 0xFFFFFFFFFFFFFFFF#64, w1c := 0x0#64, w1s := 0x0#64, wo := 0x0#64 },
  -- FABR_FERRY_W2
  { idx := 0, off := 0x910, n1 := 4, st1 := 32, n2 := 1, st2 := 8, reset := 0x0#64, rw := 0xFFFF00FFFFFFFFFF#64, w1c := 0x0#64, w1s := 0x0#64, wo := 0x0#64 },
  -- FABR_FERRY_W3
  { idx := 0, off := 0x918, n1 := 4, st1 := 32, n2 := 1, st2 := 8, reset := 0x0#64, rw := 0x0#64, w1c := 0x3000000000000000#64, w1s := 0x0#64, wo := 0x8000000000000000#64 },
  -- FABR_STEP_MEMBERS
  { idx := 0, off := 0x1000, n1 := 64, st1 := 8, n2 := 1, st2 := 8, reset := 0x0#64, rw := 0xFFFFFFFFFFFFFFFF#64, w1c := 0x0#64, w1s := 0x0#64, wo := 0x0#64 }]

/-- Registers of block ENET (R593, R594). -/
def enetRows : List RegRow := [
  -- ENET_PORT_CTRL
  { idx := 0, off := 0x0, n1 := 2, st1 := 256, n2 := 1, st2 := 8, reset := 0x6200000000#64, rw := 0xE0FFFFFE00003FFF#64, w1c := 0x0#64, w1s := 0x0#64, wo := 0x0#64 },
  -- ENET_PORT_STAT
  { idx := 0, off := 0x800, n1 := 2, st1 := 8, n2 := 1, st2 := 8, reset := 0x0#64, rw := 0xFFFFFFFFFFFFFF#64, w1c := 0x0#64, w1s := 0x0#64, wo := 0x0#64 },
  -- ENET_IF_W0
  { idx := 0, off := 0x900, n1 := 8, st1 := 64, n2 := 1, st2 := 8, reset := 0x0#64, rw := 0xCFFFFFFFFFFFFFFF#64, w1c := 0x0#64, w1s := 0x0#64, wo := 0x0#64 },
  -- ENET_IF_W1
  { idx := 0, off := 0x908, n1 := 8, st1 := 64, n2 := 1, st2 := 8, reset := 0x0#64, rw := 0xFFFFFFFFFFFFFFFF#64, w1c := 0x0#64, w1s := 0x0#64, wo := 0x0#64 },
  -- ENET_IF_W2
  { idx := 0, off := 0x910, n1 := 8, st1 := 64, n2 := 1, st2 := 8, reset := 0x0#64, rw := 0xFF3F#64, w1c := 0x0#64, w1s := 0x0#64, wo := 0x0#64 },
  -- ENET_IF_W3
  { idx := 0, off := 0x918, n1 := 8, st1 := 64, n2 := 1, st2 := 8, reset := 0x0#64, rw := 0x0#64, w1c := 0x0#64, w1s := 0x0#64, wo := 0x0#64 },
  -- ENET_IF_W4
  { idx := 0, off := 0x920, n1 := 8, st1 := 64, n2 := 1, st2 := 8, reset := 0x0#64, rw := 0xFFFFFFFFFFFFFFFF#64, w1c := 0x0#64, w1s := 0x0#64, wo := 0x0#64 },
  -- ENET_IF_W5
  { idx := 0, off := 0x928, n1 := 8, st1 := 64, n2 := 1, st2 := 8, reset := 0x0#64, rw := 0xFFFFFFFFFFFFFFFF#64, w1c := 0x0#64, w1s := 0x0#64, wo := 0x0#64 },
  -- ENET_IF_W6
  { idx := 0, off := 0x930, n1 := 8, st1 := 64, n2 := 1, st2 := 8, reset := 0x0#64, rw := 0xFFFFFFFFFFFFFFFF#64, w1c := 0x0#64, w1s := 0x0#64, wo := 0x0#64 },
  -- ENET_IF_W7
  { idx := 0, off := 0x938, n1 := 8, st1 := 64, n2 := 1, st2 := 8, reset := 0x0#64, rw := 0xFFFFFFFFFFFFFFFF#64, w1c := 0x0#64, w1s := 0x0#64, wo := 0x0#64 },
  -- ENET_QP
  { idx := 0, off := 0xC00, n1 := 1, st1 := 8, n2 := 1, st2 := 8, reset := 0x0#64, rw := 0xFFFFFFFF00001FFF#64, w1c := 0x0#64, w1s := 0x0#64, wo := 0x0#64 },
  -- ENET_MR
  { idx := 0, off := 0xC08, n1 := 1, st1 := 8, n2 := 1, st2 := 8, reset := 0x0#64, rw := 0xFFFFFFFF00001FFF#64, w1c := 0x0#64, w1s := 0x0#64, wo := 0x0#64 }]

/-- Registers of block LEDG (R593, R594). -/
def ledgRows : List RegRow := [
  -- LEDG_BASE
  { idx := 0, off := 0x0, n1 := 1, st1 := 8, n2 := 1, st2 := 8, reset := 0x0#64, rw := 0xFFFFFFFFFFFF#64, w1c := 0x0#64, w1s := 0x0#64, wo := 0x0#64 },
  -- LEDG_COUNT
  { idx := 0, off := 0x8, n1 := 1, st1 := 8, n2 := 1, st2 := 8, reset := 0x0#64, rw := 0x1FFFFF#64, w1c := 0x0#64, w1s := 0x0#64, wo := 0x0#64 },
  -- LEDG_TENANT_BASE
  { idx := 0, off := 0x10, n1 := 1, st1 := 8, n2 := 1, st2 := 8, reset := 0x0#64, rw := 0xFFFFFFFFFFFF#64, w1c := 0x0#64, w1s := 0x0#64, wo := 0x0#64 },
  -- LEDG_POLICY
  { idx := 0, off := 0x18, n1 := 1, st1 := 8, n2 := 1, st2 := 8, reset := 0x2800000000020000#64, rw := 0xF8FFFFFF0003FFFF#64, w1c := 0x0#64, w1s := 0x0#64, wo := 0x0#64 },
  -- LEDG_SHAPE
  { idx := 0, off := 0x800, n1 := 1, st1 := 8, n2 := 1, st2 := 8, reset := 0x0#64, rw := 0xFFFFFFFFFFFF#64, w1c := 0x0#64, w1s := 0x0#64, wo := 0x0#64 },
  -- LEDG_KV
  { idx := 0, off := 0x808, n1 := 1, st1 := 8, n2 := 1, st2 := 8, reset := 0x0#64, rw := 0xFFFFFFFFFFFFFF00#64, w1c := 0x0#64, w1s := 0x0#64, wo := 0x0#64 },
  -- LEDG_KVPOOL
  { idx := 0, off := 0x810, n1 := 1, st1 := 8, n2 := 1, st2 := 8, reset := 0x0#64, rw := 0xFFFFFFFF003FFFFF#64, w1c := 0x0#64, w1s := 0x0#64, wo := 0x0#64 },
  -- LEDG_KVSTAT
  { idx := 0, off := 0x818, n1 := 1, st1 := 8, n2 := 1, st2 := 8, reset := 0x0#64, rw := 0x0#64, w1c := 0x0#64, w1s := 0x0#64, wo := 0x0#64 },
  -- LEDG_PROMPT
  { idx := 0, off := 0x820, n1 := 1, st1 := 8, n2 := 1, st2 := 8, reset := 0x0#64, rw := 0xFFFFFFFFFFFFFFFF#64, w1c := 0x0#64, w1s := 0x0#64, wo := 0x0#64 },
  -- LEDG_BATCH
  { idx := 0, off := 0x828, n1 := 1, st1 := 8, n2 := 1, st2 := 8, reset := 0x0#64, rw := 0xFFFFFFFF00000000#64, w1c := 0x0#64, w1s := 0x0#64, wo := 0x0#64 },
  -- LEDG_AUDIT
  { idx := 0, off := 0x830, n1 := 1, st1 := 8, n2 := 1, st2 := 8, reset := 0x0#64, rw := 0xFFFFFFFF003FFFFF#64, w1c := 0x0#64, w1s := 0x0#64, wo := 0x0#64 },
  -- LEDG_AUDIT_HEAD
  { idx := 0, off := 0x838, n1 := 1, st1 := 8, n2 := 1, st2 := 8, reset := 0x0#64, rw := 0x0#64, w1c := 0x0#64, w1s := 0x0#64, wo := 0x0#64 },
  -- LEDG_REPLAY
  { idx := 0, off := 0x840, n1 := 1, st1 := 8, n2 := 1, st2 := 8, reset := 0x0#64, rw := 0xFFFFFFFF003FFFFF#64, w1c := 0x0#64, w1s := 0x0#64, wo := 0x0#64 },
  -- LEDG_STAT
  { idx := 0, off := 0x848, n1 := 1, st1 := 8, n2 := 1, st2 := 8, reset := 0x0#64, rw := 0xFFFFFFFFFFFFFFFF#64, w1c := 0x0#64, w1s := 0x0#64, wo := 0x0#64 }]

/-- Registers of block STRM (R593, R594). -/
def strmRows : List RegRow := [
  -- STRM_MODE
  { idx := 0, off := 0x0, n1 := 1, st1 := 8, n2 := 1, st2 := 8, reset := 0x20000400000#64, rw := 0x3FFFFFF0000#64, w1c := 0x0#64, w1s := 0x0#64, wo := 0x0#64 },
  -- STRM_RING
  { idx := 0, off := 0x800, n1 := 1, st1 := 8, n2 := 1, st2 := 8, reset := 0x0#64, rw := 0xFFFFFFFF00003FFF#64, w1c := 0x0#64, w1s := 0x0#64, wo := 0x0#64 },
  -- STRM_STAT
  { idx := 0, off := 0x808, n1 := 1, st1 := 8, n2 := 1, st2 := 8, reset := 0x0#64, rw := 0x0#64, w1c := 0x0#64, w1s := 0x0#64, wo := 0x0#64 }]

/-- Registers of block WSWP (R593, R594). -/
def wswpRows : List RegRow := [
  -- WSWP_EPOCH
  { idx := 0, off := 0x0, n1 := 1, st1 := 8, n2 := 1, st2 := 8, reset := 0x0#64, rw := 0xFFFFFFFF#64, w1c := 0x0#64, w1s := 0x0#64, wo := 0x0#64 },
  -- WSWP_MODE
  { idx := 0, off := 0x8, n1 := 1, st1 := 8, n2 := 1, st2 := 8, reset := 0x0#64, rw := 0x30000000000FFFF#64, w1c := 0x0#64, w1s := 0x0#64, wo := 0x0#64 },
  -- WSWP_ARM
  { idx := 0, off := 0x10, n1 := 1, st1 := 8, n2 := 1, st2 := 8, reset := 0x0#64, rw := 0x80000000FFFFFFFF#64, w1c := 0x0#64, w1s := 0x0#64, wo := 0x0#64 },
  -- WSWP_STAT
  { idx := 0, off := 0x18, n1 := 1, st1 := 8, n2 := 1, st2 := 8, reset := 0x0#64, rw := 0x0#64, w1c := 0x1C00000000000000#64, w1s := 0x0#64, wo := 0x0#64 },
  -- WSWP_PAUSE
  { idx := 0, off := 0x800, n1 := 1, st1 := 8, n2 := 1, st2 := 8, reset := 0x0#64, rw := 0x0#64, w1c := 0x0#64, w1s := 0x0#64, wo := 0x0#64 },
  -- WSWP_CTRL
  { idx := 0, off := 0x808, n1 := 1, st1 := 8, n2 := 1, st2 := 8, reset := 0x0#64, rw := 0xFFFFFFFFFFFF#64, w1c := 0x0#64, w1s := 0x0#64, wo := 0xE000000000000000#64 },
  -- WSWP_DIGEST
  { idx := 0, off := 0x810, n1 := 1, st1 := 8, n2 := 1, st2 := 8, reset := 0x0#64, rw := 0x0#64, w1c := 0x0#64, w1s := 0x0#64, wo := 0x0#64 },
  -- WSWP_STAGE
  { idx := 0, off := 0x820, n1 := 2, st1 := 8, n2 := 1, st2 := 8, reset := 0x0#64, rw := 0xFFFFFFFF00000000#64, w1c := 0x0#64, w1s := 0x0#64, wo := 0x0#64 },
  -- WSWP_SWITCH
  { idx := 0, off := 0x830, n1 := 1, st1 := 8, n2 := 1, st2 := 8, reset := 0x0#64, rw := 0xFFFFFFFFFFFFFFFF#64, w1c := 0x0#64, w1s := 0x0#64, wo := 0x0#64 }]

/-- Registers of block SNAP (R593, R594). -/
def snapRows : List RegRow := [
  -- SNAP_TRIG_SEL
  { idx := 0, off := 0x0, n1 := 1, st1 := 8, n2 := 1, st2 := 8, reset := 0x0#64, rw := 0x80000000FFFF001F#64, w1c := 0x0#64, w1s := 0x0#64, wo := 0x0#64 },
  -- SNAP_ARM
  { idx := 0, off := 0x8, n1 := 1, st1 := 8, n2 := 1, st2 := 8, reset := 0x0#64, rw := 0xC000000000000000#64, w1c := 0x0#64, w1s := 0x0#64, wo := 0x0#64 },
  -- SNAP_BEAT
  { idx := 0, off := 0x10, n1 := 1, st1 := 8, n2 := 1, st2 := 8, reset := 0x0#64, rw := 0x0#64, w1c := 0x0#64, w1s := 0x0#64, wo := 0x0#64 },
  -- SNAP_STAT
  { idx := 0, off := 0x18, n1 := 1, st1 := 8, n2 := 1, st2 := 8, reset := 0x0#64, rw := 0xFFFF0000#64, w1c := 0x0#64, w1s := 0x0#64, wo := 0x0#64 },
  -- SNAP_MATCH
  { idx := 0, off := 0x800, n1 := 1, st1 := 8, n2 := 1, st2 := 8, reset := 0x0#64, rw := 0xFFFFFFFFFFFFFFFF#64, w1c := 0x0#64, w1s := 0x0#64, wo := 0x0#64 },
  -- SNAP_MATCH_BEAT
  { idx := 0, off := 0x808, n1 := 1, st1 := 8, n2 := 1, st2 := 8, reset := 0x0#64, rw := 0xFFFFFFFF#64, w1c := 0x0#64, w1s := 0x0#64, wo := 0x0#64 },
  -- SNAP_TIME
  { idx := 0, off := 0x810, n1 := 1, st1 := 8, n2 := 1, st2 := 8, reset := 0x0#64, rw := 0xFFFFFFFFFFFFFFFF#64, w1c := 0x0#64, w1s := 0x0#64, wo := 0x0#64 },
  -- SNAP_LOCK
  { idx := 0, off := 0x818, n1 := 1, st1 := 8, n2 := 1, st2 := 8, reset := 0x0#64, rw := 0x80FF003F0000FFFF#64, w1c := 0x0#64, w1s := 0x0#64, wo := 0x0#64 },
  -- SNAP_STEP
  { idx := 0, off := 0x820, n1 := 1, st1 := 8, n2 := 1, st2 := 8, reset := 0x0#64, rw := 0x0#64, w1c := 0x0#64, w1s := 0x0#64, wo := 0x0#64 }]

/-- Registers of block ERRS (R593, R594). -/
def errsRows : List RegRow := [
  -- ERRS_HEAD
  { idx := 0, off := 0x0, n1 := 1, st1 := 8, n2 := 1, st2 := 8, reset := 0x0#64, rw := 0x0#64, w1c := 0x0#64, w1s := 0x0#64, wo := 0x0#64 },
  -- ERRS_COUNT
  { idx := 0, off := 0x8, n1 := 1, st1 := 8, n2 := 1, st2 := 8, reset := 0x0#64, rw := 0x0#64, w1c := 0x0#64, w1s := 0x0#64, wo := 0x0#64 },
  -- ERRS_CTRL
  { idx := 0, off := 0x800, n1 := 1, st1 := 8, n2 := 1, st2 := 8, reset := 0x808480FC80FC0000#64, rw := 0xFFFFFFFFFFFF0000#64, w1c := 0x0#64, w1s := 0x0#64, wo := 0x0#64 },
  -- ERRS_STAT
  { idx := 0, off := 0x808, n1 := 1, st1 := 8, n2 := 1, st2 := 8, reset := 0x0#64, rw := 0x0#64, w1c := 0xFFFF#64, w1s := 0x0#64, wo := 0x0#64 },
  -- ERRS_FWD
  { idx := 0, off := 0x820, n1 := 4, st1 := 8, n2 := 1, st2 := 8, reset := 0x0#64, rw := 0x0#64, w1c := 0x0#64, w1s := 0x0#64, wo := 0xFFFFFFFFFFFFFFFF#64 },
  -- ERRS_LOG
  { idx := 0, off := 0x1000, n1 := 512, st1 := 32, n2 := 4, st2 := 8, reset := 0x0#64, rw := 0x0#64, w1c := 0x0#64, w1s := 0x0#64, wo := 0x0#64 }]

/-- Registers of block DTRM (R593, R594). -/
def dtrmRows : List RegRow := [
  -- DTRM_CTRL
  { idx := 0, off := 0x0, n1 := 1, st1 := 8, n2 := 1, st2 := 8, reset := 0x0#64, rw := 0x1#64, w1c := 0x0#64, w1s := 0x0#64, wo := 0x2#64 },
  -- DTRM_STAT
  { idx := 0, off := 0x800, n1 := 1, st1 := 8, n2 := 1, st2 := 8, reset := 0x0#64, rw := 0x0#64, w1c := 0x0#64, w1s := 0x0#64, wo := 0x0#64 },
  -- DTRM_GRID
  { idx := 0, off := 0x808, n1 := 1, st1 := 8, n2 := 1, st2 := 8, reset := 0x0#64, rw := 0x1FF#64, w1c := 0x0#64, w1s := 0x0#64, wo := 0x0#64 },
  -- DTRM_WDOG
  { idx := 0, off := 0x810, n1 := 1, st1 := 8, n2 := 1, st2 := 8, reset := 0x989680#64, rw := 0xFFFFFFFF#64, w1c := 0x0#64, w1s := 0x0#64, wo := 0x0#64 },
  -- DTRM_ALLOW
  { idx := 0, off := 0x818, n1 := 1, st1 := 8, n2 := 1, st2 := 8, reset := 0x40014#64, rw := 0xFF03FF#64, w1c := 0x0#64, w1s := 0x0#64, wo := 0x0#64 },
  -- DTRM_STEP_STAT
  { idx := 0, off := 0x820, n1 := 1, st1 := 8, n2 := 1, st2 := 8, reset := 0x0#64, rw := 0x0#64, w1c := 0x0#64, w1s := 0x0#64, wo := 0x0#64 },
  -- DTRM_PKG
  { idx := 0, off := 0x828, n1 := 1, st1 := 8, n2 := 1, st2 := 8, reset := 0x0#64, rw := 0xFFFFFFFFFFFFFFFF#64, w1c := 0x0#64, w1s := 0x0#64, wo := 0x0#64 },
  -- DTRM_LAT
  { idx := 3, off := 0x1000, n1 := 64, st1 := 8, n2 := 1, st2 := 8, reset := 0x0#64, rw := 0xFFFF#64, w1c := 0x0#64, w1s := 0x0#64, wo := 0x0#64 },
  -- DTRM_VMAP
  { idx := 2, off := 0x2000, n1 := 32, st1 := 8, n2 := 1, st2 := 8, reset := 0x0#64, rw := 0xFFFFFFFFFFFFFFFF#64, w1c := 0x0#64, w1s := 0x0#64, wo := 0x0#64 }]

/-- Registers of block LIMS (R593, R594). -/
def limsRows : List RegRow := [
  -- LIMS_SEC_FLOOR
  { idx := 0, off := 0x0, n1 := 1, st1 := 8, n2 := 1, st2 := 8, reset := 0x0#64, rw := 0x0#64, w1c := 0x0#64, w1s := 0x0#64, wo := 0x0#64 },
  -- LIMS_OP_CEIL
  { idx := 0, off := 0x8, n1 := 1, st1 := 8, n2 := 1, st2 := 8, reset := 0xF#64, rw := 0x0#64, w1c := 0x0#64, w1s := 0x0#64, wo := 0x0#64 },
  -- LIMS_DEBUG
  { idx := 0, off := 0x10, n1 := 1, st1 := 8, n2 := 1, st2 := 8, reset := 0x0#64, rw := 0x0#64, w1c := 0x0#64, w1s := 0x0#64, wo := 0x0#64 },
  -- LIMS_ROLE
  { idx := 0, off := 0x18, n1 := 1, st1 := 8, n2 := 1, st2 := 8, reset := 0x1#64, rw := 0x0#64, w1c := 0x0#64, w1s := 0x0#64, wo := 0x0#64 },
  -- LIMS_GRADE
  { idx := 0, off := 0x20, n1 := 4, st1 := 8, n2 := 1, st2 := 8, reset := 0xFFFFFFFFFFFFFFFF#64, rw := 0x0#64, w1c := 0x0#64, w1s := 0x0#64, wo := 0x0#64 },
  -- LIMS_BUDGETS
  { idx := 0, off := 0x100, n1 := 1, st1 := 8, n2 := 1, st2 := 8, reset := 0x0#64, rw := 0x0#64, w1c := 0x0#64, w1s := 0x0#64, wo := 0x0#64 },
  -- LIMS_OWNER
  { idx := 0, off := 0x800, n1 := 8, st1 := 8, n2 := 1, st2 := 8, reset := 0x0#64, rw := 0x0#64, w1c := 0x0#64, w1s := 0x0#64, wo := 0x0#64 },
  -- LIMS_JOURNAL
  { idx := 0, off := 0x1000, n1 := 1024, st1 := 32, n2 := 4, st2 := 8, reset := 0x0#64, rw := 0x0#64, w1c := 0x0#64, w1s := 0x0#64, wo := 0x0#64 }]

/-- Registers of block TEST (R593, R594). -/
def testRows : List RegRow := [
  -- TEST_REQ
  { idx := 0, off := 0x0, n1 := 1, st1 := 8, n2 := 1, st2 := 8, reset := 0x0#64, rw := 0x3F00FFFFFFFFFF#64, w1c := 0x0#64, w1s := 0x0#64, wo := 0xC000000000000000#64 },
  -- TEST_STAT
  { idx := 0, off := 0x8, n1 := 1, st1 := 8, n2 := 1, st2 := 8, reset := 0x0#64, rw := 0x0#64, w1c := 0x0#64, w1s := 0x0#64, wo := 0x0#64 }]

/-- Registers of block IDLE (R593, R594). -/
def idleRows : List RegRow := [
  -- IDLE_BUDGET_NS
  { idx := 0, off := 0x0, n1 := 1, st1 := 8, n2 := 1, st2 := 8, reset := 0x0#64, rw := 0xFFFFFFFFFFFFFFFF#64, w1c := 0x0#64, w1s := 0x0#64, wo := 0x0#64 },
  -- IDLE_STATE
  { idx := 0, off := 0x8, n1 := 1, st1 := 8, n2 := 1, st2 := 8, reset := 0x0#64, rw := 0x0#64, w1c := 0x0#64, w1s := 0x0#64, wo := 0x8000000000000000#64 },
  -- IDLE_CTRL
  { idx := 0, off := 0x800, n1 := 1, st1 := 8, n2 := 1, st2 := 8, reset := 0x186A0#64, rw := 0xFFFFFFFF#64, w1c := 0x0#64, w1s := 0x0#64, wo := 0x0#64 },
  -- IDLE_NS
  { idx := 0, off := 0x800, n1 := 4, st1 := 8, n2 := 1, st2 := 8, reset := 0x0#64, rw := 0x0#64, w1c := 0x0#64, w1s := 0x0#64, wo := 0x0#64 },
  -- IDLE_COUNT
  { idx := 0, off := 0x820, n1 := 1, st1 := 8, n2 := 1, st2 := 8, reset := 0x0#64, rw := 0x0#64, w1c := 0x0#64, w1s := 0x0#64, wo := 0x0#64 },
  -- IDLE_OPSET
  { idx := 0, off := 0x828, n1 := 1, st1 := 8, n2 := 1, st2 := 8, reset := 0x0#64, rw := 0x0#64, w1c := 0x0#64, w1s := 0x0#64, wo := 0xC0000000000FFFFF#64 },
  -- IDLE_PHASE
  { idx := 0, off := 0x830, n1 := 1, st1 := 8, n2 := 1, st2 := 8, reset := 0xF088#64, rw := 0x800000000000FFFF#64, w1c := 0x0#64, w1s := 0x0#64, wo := 0x0#64 },
  -- IDLE_SUSTAIN
  { idx := 0, off := 0x838, n1 := 1, st1 := 8, n2 := 1, st2 := 8, reset := 0x3E800000000#64, rw := 0xFFFF0000FFFF#64, w1c := 0x0#64, w1s := 0x0#64, wo := 0x0#64 }]

/-- Registers of control block `b` (R593). -/
def blockRows : Nat → List RegRow
  | 0 => devRows
  | 1 => tollRows
  | 2 => paceRows
  | 3 => weirRows
  | 4 => engyRows
  | 5 => lockRows
  | 6 => meshRows
  | 7 => holdRows
  | 8 => towlRows
  | 9 => fabrRows
  | 10 => enetRows
  | 11 => ledgRows
  | 12 => strmRows
  | 13 => wswpRows
  | 14 => snapRows
  | 15 => errsRows
  | 16 => dtrmRows
  | 17 => limsRows
  | 18 => testRows
  | 19 => idleRows
  | _ => []

/-- Native latency of kind `k` (R356). -/
def nativeLat (k : Nat) : Nat :=
  [132, 10, 14, 24, 48, 16, 22, 14, 24, 120, 2, 2, 18, 2, 2, 3, 3, 4, 2, 2, 2, 2, 40, 8, 6, 16, 4, 40].getD k 0

/-- Word `j` of the identity map of virtual cores, eight to a word (R360, R373). -/
def identityMapWord (j : Nat) : Word :=
  BitVec.ofNat 64 (((List.range 8).map fun k => ((8 * j + k) % 256) <<< (8 * k)).foldl (· + ·) 0)

/-- Which block, if any, an address of a core register (`some (some n)`), a control block (`some none`) lies in. -/
def coreOfReg (a : Nat) : Option Nat :=
  if a < 0x400000000 ∧ 0x6A0000 ≤ a % 0x4000000 ∧ a % 0x4000000 < 0x6A1000 then some (a / 0x4000000) else none

/-- The control block an address lies in (R590, R593). -/
def blockOfReg (a : Nat) : Option Nat :=
  if 0x400000000 ≤ a ∧ a < 0x400140000 then some ((a - 0x400000000) / 0x10000) else none

/-- The row of the register at a device address, if a register lies there. -/
def regRow (a : Nat) : Option RegRow :=
  match coreOfReg a with
  | some _ => coreRows.find? (fun r => r.holds (a % 0x4000000 - 0x6A0000))
  | none =>
    match blockOfReg a with
    | some b => (blockRows b).find? (fun r => r.holds ((a - 0x400000000) % 0x10000))
    | none => none

/-- The value a register has after POR (R19): the Reset column; window bases and the virtual-core map by their index
(R177, R373), latencies at their native values (R356), and the values of log entry 2 where the column gives none.
Where no register lies, 0 (R592, R593). -/
def regReset (a : Nat) : Word :=
  match regRow a with
  | none => 0
  | some r =>
    let off := if a < 0x400000000 then a % 0x4000000 - 0x6A0000 else (a - 0x400000000) % 0x10000
    let i := (off - r.off) / r.st1
    if r.idx = 1 then Fld.VEC_WIN.base.set r.reset (32 * i)
    else if r.idx = 2 then identityMapWord i
    else if r.idx = 3 then
      Fld.DTRM_LAT.native.set (Fld.DTRM_LAT.in_force.set r.reset (nativeLat i)) (nativeLat i)
    else r.reset

end Sys2Proof.Machine
end

