-- ==== Sys2Proof/Machine/SMap.lean ====
section
/-! DEFINITION. Finite maps from numbers as lists of pairs with strictly rising keys: the form in which the state holds
registers, memory and every table of runtime records. -/

namespace Sys2Proof.Machine

/-- A finite map as a list of (key, value) pairs, keys strictly rising. -/
abbrev SMap (α : Type) := List (Nat × α)

/-- The value listed at a key. -/
def smFind {α : Type} : SMap α → Nat → Option α
  | [], _ => none
  | (j, v) :: t, k => if j = k then some v else smFind t k

/-- The value at a key, `d` where none is listed. -/
def smGet {α : Type} (d : α) (m : SMap α) (k : Nat) : α := (smFind m k).getD d

/-- List a value at a key, in its place. -/
def smPut {α : Type} : SMap α → Nat → α → SMap α
  | [], k, v => [(k, v)]
  | (j, w) :: t, k, v =>
    if k < j then (k, v) :: (j, w) :: t
    else if k = j then (k, v) :: t
    else (j, w) :: smPut t k v

/-- Unlist a key. -/
def smDel {α : Type} : SMap α → Nat → SMap α
  | [], _ => []
  | (j, w) :: t, k => if j = k then t else (j, w) :: smDel t k

/-- All keys of the map lie above `lo` and rise strictly. -/
def smSortedFrom {α : Type} : Nat → SMap α → Bool
  | _, [] => true
  | lo, (k, _) :: t => decide (lo ≤ k) && smSortedFrom (k + 1) t

/-- The canonical form: strictly rising keys. -/
def smSorted {α : Type} (m : SMap α) : Bool := smSortedFrom 0 m

end Sys2Proof.Machine
end

