-- ==== Sys2Proof/Machine/Types.lean ====
section
/-! DEFINITION. The records that the state is made of, chapter by chapter of the specification. -/

namespace Sys2Proof.Machine

/-- What has happened to a register in the beat of its last event (R16, R17): that beat and the event's time, the W1C bits that
hardware has set in it, and the bits of RW fields that writes have set in it. -/
structure Mark where
  beat  : Nat
  at_   : Nat
  set   : Word
  wrote : Word
  deriving DecidableEq, Repr

/-! ### Pacing (R44 to R80) -/

/-- Where a reach stands in a retune (R74 to R77): no stop, a regulator moving since the stop began, calibrating, waiting for
the second stop after a failed one, or in the second stop. -/
inductive RetunePhase where
  | none
  | moving
  | calibrating
  | failed
  | secondStop
  deriving DecidableEq, Repr

/-- What a reach's pacer and vanes hold beyond their registers. Times are picoseconds of the timebase. -/
structure Reach where
  /-- Number of the last token issued (R47). -/
  beat : Nat := 0
  /-- Time of the last token. -/
  tokenAt : Nat := 0
  /-- The tick of the next token has fallen due, and when (R49, R56). -/
  ticked : Bool := false
  tickAt : Nat := 0
  /-- Die-held time counted up to that tick. -/
  heldAtTick : Nat := 0
  /-- The beat of the last token is complete (R48). -/
  complete : Bool := false
  /-- Throttle code in force for the beat in progress (R61, R62). -/
  code : Nat := 0
  /-- The pacer is stopped: unpowered, in an idle state or in a REACH reset (R521, R547). -/
  stopped : Bool := true
  /-- Stretch not yet counted in whole nanoseconds (R56). -/
  stretchPs : Nat := 0
  /-- Lowest code of each vane in the window in progress, and the beats measured in it (R68). -/
  winLow : List Nat := [255, 255, 255, 255, 255, 255, 255, 255]
  winBeats : Nat := 0
  /-- Consecutive beats each vane stood at or below crit, and its last code (R70). -/
  critRun : List Nat := [0, 0, 0, 0, 0, 0, 0, 0]
  lastCode : List Nat := [255, 255, 255, 255, 255, 255, 255, 255]
  /-- The reach is in critical, or in warning until re-armed (R69, R70). -/
  critical : Bool := false
  warned : Bool := false
  /-- Vanes that have reported a code above warn + hyst since the warning (R69). -/
  rearmed : List Nat := []
  /-- Windowed codes have stood above warn + hyst since this time (R519); 0: not. -/
  goodSince : Nat := 0
  /-- The policy's cap was lowered for this reach and waits for good windows (R519). -/
  capWatch : Bool := false
  retune : RetunePhase := .none
  /-- The request that waits or is served was made by a vane after the last stop began (R70, R76). -/
  vaneAsked : Bool := false
  /-- Completion of the beat in progress is withheld for an item that was missing at its end (R349). -/
  withheld : Bool := false
  /-- Start of the stop, the point left, the point served, and the end of a failed stop (R76, R77). -/
  stopAt : Nat := 0
  oldOp : Nat := 0
  newOp : Nat := 0
  failAt : Nat := 0
  deriving DecidableEq, Repr

/-- The causes of a hold request (R57, R347). -/
inductive HoldCause where
  | memoryLate
  | linkLate
  | record
  | weir (k : Fin 6)
  | retune (r : Fin 16)
  deriving DecidableEq, Repr

/-- A hold request in force: its cause, and for an item the core and unit that miss it (R57, R348). -/
structure HoldReq where
  cause : HoldCause
  core  : Nat
  unit  : Option UnitId
  deriving DecidableEq, Repr

/-- Who asked for an access of the register path: no one (a write), the I3C target by the number of its access, a job of the
wharfinger, or the asker on another chip whose REG barge it came by (R250, R597, R599). -/
inductive Asker where
  | none
  | i3c (n : Nat)
  | job (id : Nat)
  | chip (b : Barge)
  deriving DecidableEq, Repr

/-- An access of the register path that waits: a write of `val`, or a read (R250, R597). -/
structure PathOp where
  addr  : Nat
  val   : Option Word
  asker : Asker
  deriving DecidableEq, Repr

/-- What comes to the register path: an access of this chip, or a REG barge (R451). -/
inductive RegAsk where
  | access (p : PathOp)
  | barge (b : Barge)
  deriving DecidableEq, Repr

/-- An access that waits for its beat: the die beat of its arrival, the beat of the reach it acts in after which it is due, its place among
those of one beat (0 I3C, 1 the wharfinger, 2 REG barges), and the access (R451, R597). -/
structure RegWait where
  beat  : Nat
  after : Nat
  rank  : Nat
  ask   : RegAsk
  deriving DecidableEq, Repr

/-- The die hold (R57 to R60, R350, R351). -/
structure Die where
  holds : List HoldReq := []
  /-- Start of the hold in force. -/
  holdFrom : Nat := 0
  /-- Causes counted in this hold. -/
  counted : List Nat := []
  /-- Held picoseconds so far. -/
  heldPs : Nat := 0
  /-- Picoseconds held by KSTEPW alone since the last step began (R350). -/
  boundaryPs : Nat := 0
  /-- `heldPs` when the step's KSTEPW completed (R350). -/
  heldAtStep : Nat := 0
  /-- Start of the interval the hold watchdog measures (R351). -/
  wdogFrom : Option Nat := none
  /-- Accesses of the register path that take effect in the next die beat, in their order (R451, R597). -/
  regQ     : List RegWait := []
  deriving DecidableEq, Repr

/-! ### Core streams, queues and the keeper (R178 to R209, R602) -/

/-- A queue entry: the beat of its push and its 64 bytes (R185, R187). -/
structure QEntry where
  beat  : Nat
  bytes : List Byte
  deriving DecidableEq, Repr

/-- A narrow access of the keeper to its basin: a load into a register, a store, or the two halves of a 64 B entry or
descriptor of a custom instruction (R194, R197, R250). `half` counts the halves served. -/
inductive NarrowOp where
  | load (rd addr f3 : Nat)
  | store (addr size : Nat) (v : Nat)
  | qpush (q addr half : Nat) (got : List Byte)
  | qpop (q rd addr half : Nat) (e : List Byte)
  | issue (st addr half : Nat) (got : List Byte)
  deriving DecidableEq, Repr

/-- What the keeper waits for (R197, R200, R202, R250). -/
inductive KWait where
  | none
  | qwait (q rd addr : Nat)
  | issue (st : Nat) (desc : List Byte)
  | lwait (i n : Nat)
  | kstepw (rd : Nat)
  | kdone (since : Nat)
  | narrow (op : NarrowOp) (notBefore : Nat)
  deriving DecidableEq, Repr

/-- A lock signal applied in the beat in progress, added at its end (R317): counter, count, issuing core, issuer. -/
structure Sig where
  ctr    : Nat
  n      : Nat
  core   : Nat
  issuer : Nat
  deriving DecidableEq, Repr

/-- A write that a running macro-op makes in its last beat: `width` bits from bit `bit` of the device address space on (bit
8a is bit 0 of the byte at a), and whether it is a poison value. -/
structure PendWrite where
  bit    : Nat
  width  : Nat
  val    : Nat
  poison : Bool
  deriving DecidableEq, Repr

/-- Producer fields of the entries a macro-op pushes (R239). -/
structure PushInfo where
  addr   : Nat := 0
  len    : Nat := 0
  stride : Nat := 0
  fmt    : Nat := 0
  scale  : Nat := 0
  deriving DecidableEq, Repr

/-- A running macro-op: its descriptor in native form, its start beat and cost, what it popped, what it pushes and
writes at its end, and the errors it has logged (R181, R182, R186, R280). -/
structure RunOp where
  desc    : List Word
  start   : Nat
  cost    : Nat
  user    : List Byte := []
  poison  : Bool := false
  /-- The transfer was refused or abandoned: no post-signal (R256, R352). -/
  dead    : Bool := false
  push    : PushInfo := {}
  writes  : List PendWrite := []
  afa     : Option (Nat × Afa) := none
  logged  : List Nat := []
  /-- AVN-3 post-signal of a legacy descriptor (R245). -/
  sig     : Nat := 0
  legacy  : Bool := false
  /-- Rows or chunks asked for (feeder, array), and the units of the last request that wait for their banks (R250): address and
  bytes. -/
  done    : Nat := 0
  left    : List (Nat × Nat) := []
  /-- Row index read for the row that follows (R223), and whether its line was uncorrectable. -/
  gidx    : Nat := 0
  /-- Lane flags of a vector instruction (inv, ovf, dz, poison from bit 0), flags of what it drains, and whether the drain
  logs 0x3603 (R138, R162, R167). -/
  lane    : Nat := 0
  drain   : Option Nat := none
  ovf     : Bool := false
  /-- Bytes that an SRED has read, by address, and the uncorrectable lines among them (R238, R250, R604). -/
  got     : SMap Byte := []
  gotBad  : List Nat := []
  deriving DecidableEq, Repr

/-- A write into part of a line, made at the end of the beat (R152, R261): its rank among the writers of R152 (0 keeper or register
path, 1 feeder, 2 ingress, 3 array drain, 4 vector engine), the line, the bits it writes as a mask and a value, and whether they are
poison. -/
structure BeatWrite where
  rank   : Nat
  line   : Nat
  mask   : Nat
  val    : Nat
  poison : Bool
  deriving DecidableEq, Repr

/-- A barge waiting in an ingress buffer: its landing slot, device address, bytes, poison by line, the lines of it not yet written,
and those of them whose banks it has been given, with the beat (R248, R250, R251, R304). -/
structure Ingress where
  slot   : Nat
  addr   : Nat
  bytes  : List Byte
  poison : List Bool
  left   : List Nat
  given  : List Nat := []
  givenAt : Nat := 0
  deriving DecidableEq, Repr

/-- What a core holds beyond its registers and memories. -/
structure Core where
  /-- Keeper registers x0 to x31 (R190). -/
  x : List (BitVec 32) := List.replicate 32 0
  /-- First beat in which the keeper is free (R194). -/
  kAt : Nat := 0
  kwait : KWait := .none
  /-- A stepped instruction has not completed (R206). -/
  kstep : Bool := false
  /-- A halt waits for the instruction in progress (R602). -/
  haltReq : Bool := false
  instret : Nat := 0
  /-- The half-register latch and write buffer (R193). -/
  latch : Option (Nat × Word) := none
  hbuf : Option (Nat × BitVec 32) := none
  /-- step_beats of the entry the last completed KSEL of the step selected (R202). -/
  menu : Option Nat := none
  /-- Queues Q0 to Q7, their pushes so far, and pushes that wait for the beat's pops (R184 to R187). -/
  queues : List (List QEntry) := List.replicate 8 []
  qseq : List Nat := List.replicate 8 0
  qlate : List (Nat × List Byte × Nat) := []
  /-- Issue FIFOs of the A-stream and the X-stream, and the beats of their last starts (R180, R181). -/
  aFifo : List (List Word) := []
  xFifo : List (List Word) := []
  aStart : Option Nat := none
  xStart : Option Nat := none
  /-- Beats in which descriptors were last appended to the FIFOs (R180, R181). -/
  aIssue : Option Nat := none
  xIssue : Option Nat := none
  /-- Running macro-ops, and the beats in which units ended their last one (R181). -/
  array : Option RunOp := none
  vector : Option RunOp := none
  feeder : Option RunOp := none
  sluice : List (Option RunOp) := [none, none, none, none]
  freed : SMap Nat := []
  /-- Signals of the beat in progress, and what each counter has served in it (R317, R318). -/
  sigs : List Sig := []
  served : SMap Nat := []
  /-- Counters that have logged 0x3303 in the beat in progress (R318). -/
  contd : List Nat := []
  /-- Vector AFAs (R166). -/
  vafa : SMap Afa := []
  /-- Accumulator file of the array, by row × 512 + column (R126, R135). -/
  acc : SMap Afa := []
  /-- Shadow and active weights: the tile image bytes and its scale bytes filled so far; whether a fill or feed line of the
  macro-op was uncorrectable (R122, R123, R140). -/
  shadowW : List Byte := []
  shadowS : List Byte := []
  activeW : List Byte := []
  activeS : List Byte := []
  arrayBad : Bool := false
  /-- An access of the array in the beat in progress met a bank already given (R249). -/
  arrayLate : Bool := false
  /-- Writes of the beat in progress into the operand cache and the weight store, and the last beat in which the cache's narrow port
  was used (R152, R261). -/
  later : List BeatWrite := []
  narrowAt : Option Nat := none
  /-- Window bases that were rewritten in the beat in progress, as they stood before it (R149). -/
  oldWin : SMap Word := []
  /-- Ingress buffer (R251). -/
  ingress : List Ingress := []
  /-- Banks given to a wide request in the beat in progress, and bytes of the A-stream port used (R248, R601). -/
  banks : List Nat := []
  /-- Lines that banks are kept for: those of the basin barges due in the beat in progress, and those the read agent sends
  next (R248, R302). -/
  awaited : List Nat := []
  readGiven : List Nat := []
  portBytes : Nat := 0
  /-- Next step record (R199). -/
  nextRec : Option (List Word) := none
  /-- Die beat of step beat 0, and number of the last step ended (R200, R328). -/
  stepBeat0 : Nat := 0
  readyFor : Option Nat := none
  /-- Register-path accesses of the core's memories that wait for a beat in which their bank is free, and the last beat in which one was
  made (R248, R250, R597). -/
  narrowQ : List PathOp := []
  pathAt  : Option Nat := none
  deriving DecidableEq, Repr

/-! ### Locks (R315 to R341) -/

/-- A signal on the sync plane or a release: target core, counter, count, apply beat, and its issuer (R325, R336). -/
structure SyncSig where
  core   : Nat
  ctr    : Nat
  n      : Nat
  apply  : Nat
  src    : Nat
  issuer : Nat
  deriving DecidableEq, Repr

/-- An entry of the pending store (R329): a counter signal (kind 0) or a fabric release (kind 2) of a slot, with its apply step
beat and step parity, and for a release its counter, participants and those already signalled. -/
structure PendSig where
  kind   : Nat
  core   : Nat
  ctr    : Nat
  n      : Nat
  apply  : Nat
  parity : Nat
  cores  : List Nat
  deriving DecidableEq, Repr

/-- A local barrier release on its way (R336): slot, die beat of its signals, counter and participants. -/
structure Release where
  slot  : Nat
  apply : Nat
  ctr   : Nat
  cores : List Nat
  deriving DecidableEq, Repr

/-- An arrival at a barrier slot: its core, die beat, issuer and step beat (R335, R337). -/
structure SlotArrival where
  core   : Nat
  beat   : Nat
  issuer : Nat
  step   : Nat
  deriving DecidableEq, Repr

/-- A barrier slot's bits (R334, R337): arrived and early cores, chip arrivals of a leader by generation with their arrival
beats, the generation of the last release a leader has sent, and the beat in which early bits complete the set again (R336), with the
step beat of the completion before it. Arrivals of reaches that run ahead wait until every participant's reach has come to their
beat. -/
structure Slot where
  arrived : List Nat := []
  early   : List Nat := []
  chips   : List (Nat × Nat) := []
  sent    : Nat := 0
  again   : Option (Nat × Nat) := none
  wait    : List SlotArrival := []
  deriving DecidableEq, Repr

/-- Hidden state of the lock network. -/
structure Locks where
  sync     : List SyncSig := []
  releases : List Release := []
  pend     : List PendSig := []
  slots    : SMap Slot := []
  deriving DecidableEq, Repr

/-! ### The mesh, transfers and holds (R247 to R314) -/

/-- A branch of a router: an output or input port and, at an edge port, the towline port beyond it plus one (0: none). -/
abbrev Branch := MeshPort × Nat

/-- A barge in a router input: its node, the port it came by and the towline port beyond it, the beat from which it may leave,
the sub-order of its injector at the local port (R292: 0 replies, 1 to 4 sluices, 5 read agent, 6 register path), the outputs it has still to take, and the barge (R285, R293). A port of an
edge router that leads off the grid is its edge port. -/
structure Flit where
  node  : Nat
  port  : MeshPort
  via   : Nat
  src   : Nat
  at_   : Nat
  outs  : List Branch
  barge : Barge
  deriving DecidableEq, Repr

/-- A multicast entry of a router (R308): the OPEN's input, its branches, the replies gathered with the beats they came in (code 0
for GRANT; poison), and whether the combined GRANT or REFUSE has gone up. -/
structure McEntry where
  node   : Nat
  id     : Nat
  input  : Branch
  outs   : List Branch
  grants : List (Branch × Nat × Nat) := []
  acks   : List (Branch × Bool × Nat) := []
  up     : Bool := false
  deriving DecidableEq, Repr

/-- A barge that has reached its destination and waits for the command that consumes it: the agent, the router it left by, and
the beat of its arrival (R287, R293). -/
structure Arrival where
  agent : Agent
  node  : Nat
  at_   : Nat
  barge : Barge
  deriving DecidableEq, Repr

/-- A landing slot of a destination (R300, R301, R304): the sluice that opened it (chip, core, sluice and sub-transfer), where
it writes, the barge expected next, the barges written, poison delivered, and, at a hold front end, the pieces of a block gathered
(address, bytes, poison by line) and the requests in flight. `doneAt` is the beat of the last write; the slot is free from the beat
after it. `fill`: the place of a fill of the weight store, which no OPEN claimed (R489). -/
structure Landing where
  srcChip : Nat
  srcCore : Nat
  src     : Nat
  mcast   : Option Nat
  dst     : Nat
  stride  : Nat
  rows    : Nat
  rowB    : Nat
  berth   : Option Nat
  next    : Nat := 0
  written : Nat := 0
  bad     : Bool := false
  gather  : List (Nat × List Byte × List Bool) := []
  inFlight : Nat := 0
  logged  : List Nat := []
  doneAt  : Option Nat := none
  fill    : Bool := false
  deriving DecidableEq, Repr

/-- A READ in an agent's queue (R302): source rows, where the DATA barges go, the sluice that asked, the barges sent, and, at a
hold front end, the requests made and the data that have come back by request number. -/
structure ReadReq where
  src    : Nat
  stride : Nat
  rows   : Nat
  rowB   : Nat
  chip   : Nat
  dest   : Nat
  slot   : Nat
  mcast  : Bool
  rclass : Nat
  parity : Nat
  /-- 1 + sluice where the data go to that sluice's map buffer (R306), 0 otherwise. -/
  mapTo  : Nat
  sChip  : Nat
  sCore  : Nat
  sSrc   : Nat
  sent   : Nat := 0
  asked  : Bool := false
  id     : Nat := 0
  got    : SMap (List Byte × List Bool) := []
  /-- Pieces of the next barge that have been read, by address: bytes and poison by line (R250). -/
  part   : SMap (List Byte × List Bool) := []
  logged : List Nat := []
  deriving DecidableEq, Repr

/-- An open sub-transfer of a sluice (R299 to R306). `src` is a device address on `sChip`, none for rows of zeros; `dst` is the
device address in the OPEN; `here` says that the sluice itself reads the source; `readB` bytes of the
weight store are read, and `lines` are those not yet sent, with their poison. -/
structure SubTx where
  idx    : Nat
  src    : Option Nat
  sChip  : Nat
  here   : Bool
  dst    : Nat
  chip   : Nat
  dest   : Nat
  rows   : Nat
  rowB   : Nat
  sstr   : Nat
  dstr   : Nat
  rclass : Nat
  mcast  : Option Nat
  exit   : Option (Fin 48)
  /-- The port toward the source's chip, looked up with the OPEN (R391). -/
  rexit  : Option (Fin 48) := none
  granted : Option Nat := none
  grantAt : Nat := 0
  sent   : Nat := 0
  readB  : Nat := 0
  lines  : List (List Byte × Bool) := []
  /-- Pieces of the next barge that have been read, by address: bytes and poison by line (R250). -/
  part   : SMap (List Byte × List Bool) := []
  deriving DecidableEq, Repr

/-- What a sluice's transfer holds: the next row to open, the open sub-transfers, the map buffer (R306) with its stage (0 header
awaited, 1 entries awaited, 2 rows may open) and the bytes it waits for, and whether
the last ACK is in. -/
structure Tx where
  subs    : List SubTx := []
  nextRow : Nat := 0
  stage   : Nat := 2
  want    : Nat := 0
  skip    : Nat := 0
  hdr     : List Byte := []
  ents    : List Byte := []
  firstE  : Nat := 0
  complete : Bool := false
  deriving DecidableEq, Repr

/-- Whom a hold request answers (R264): a landing slot's write, a READ's data, a block of a fill of the weight store, a request of an
RDMA READ (queue pair, number of the READ, request), an access of the register path, or no one. -/
inductive HoldFor where
  | fill (core k : Nat)
  | landing (key : Nat)
  | read (id k : Nat)
  | fetch (qp id k : Nat)
  | path (k : Asker)
  | none
  deriving DecidableEq, Repr

/-- A hold request waiting at a pseudo-channel (R264): its order (beat × 16 + column of the edge router), device address, the pieces
to write (address, bytes, poison by line), or the length to read, and whom it answers. -/
structure HoldReqItem where
  key    : Nat
  addr   : Nat
  write  : Option (List (Nat × List Byte × List Bool))
  len    : Nat
  for_   : HoldFor
  deriving DecidableEq, Repr

/-- A pseudo-channel of a hold (R264, R267, R268, R279). -/
structure HoldPc where
  queue     : List HoldReqItem := []
  /-- Refreshes postponed, when the last of them was due, and the end of a refresh that makes one up (R267). -/
  postponed : Nat := 0
  postAt    : Nat := 0
  makeup    : Nat := 0
  nextRef   : Option Nat := none
  scrubAt   : Nat := 0
  rewrite   : List Nat := []
  busyTill  : Nat := 0
  deriving DecidableEq, Repr

/-- The mesh and its agents. -/
structure Mesh where
  flits   : List Flit := []
  /-- Router outputs that have taken their barges (node × 8 + output) with the beat (R292). -/
  moved   : SMap Nat := []
  /-- Room freed in a beat by input and class ((node × 8 + port) × 4 + class): beat and count (R293). -/
  left    : SMap (Nat × Nat) := []
  /-- Barges injected through a port (node × 8 + port): beats and counts (R285). -/
  inj     : SMap (List (Nat × Nat)) := []
  mcast   : List McEntry := []
  inbox   : List Arrival := []
  /-- Landing slots by agent number × 64 + slot (R300). -/
  landing : SMap Landing := []
  /-- Read queues by agent number (R302), and the number of READs taken so far. -/
  reads   : SMap (List ReadReq) := []
  readSeq : Nat := 0
  /-- Transfers by core × 4 + sluice. -/
  tx      : SMap Tx := []
  /-- Weight-store writes by core: the beat of the last (R259). -/
  wsWrote : SMap Nat := []
  /-- Step for which 0x4002 has been logged (R347). -/
  late4002 : Option Nat := none
  deriving DecidableEq, Repr

/-! ### The towline fabric (R374 to R414) -/

/-- A towline port beyond its registers (R381, R383, R385 to R388). -/
structure Port where
  /-- Time of entry into the state in force, whether DOWN came from a training failure, and whether training is done and frames
  flow (R385, R386). -/
  since    : Nat := 0
  trainFail : Bool := false
  trained  : Bool := false
  /-- Next frame to send, last frame received in order and good, whether a nak is owed. -/
  fseq     : Nat := 0
  good     : Nat := 4095
  nakOwed  : Bool := false
  /-- Frames held until they are acknowledged, the frame to resend next, the frame last asked for again and how often in a row
  (R383, R384). -/
  retry    : List (Nat × Frame) := []
  resend   : Option Nat := none
  lastNak  : Nat := 0
  resends  : Nat := 0
  /-- Transmit credit by class, and flits freed and not yet returned (R381). -/
  credit   : List Nat := [0, 0, 0, 0]
  freed    : List Nat := [0, 0, 0, 0]
  /-- Barges with the beats in which they come to the exit station, and link-management bodies, that wait to be sent (R287, R381). -/
  tx       : List (Nat × Barge) := []
  lm       : List (BitVec 604) := []
  lastHello : Nat := 0
  helloAt  : Nat := 0
  /-- Step for which 0x5902 has been logged (R383), and the lanes whose loss of signal has been logged since training began (R384). -/
  retryLog : Option Nat := none
  lost     : List Nat := []
  deriving DecidableEq, Repr

/-- An open sub-transfer of a ferry: its tag, its number in the range, and the slot granted. -/
structure FerrySub where
  tag  : Nat
  idx  : Nat
  slot : Option Nat := none
  deriving DecidableEq, Repr

/-- A ferry channel (R410, R411): running, sub-transfers opened, those open, the tags of those abandoned before their reply came, bytes
acknowledged, and the times of the start and of the last ACK. -/
structure Ferry where
  active  : Bool := false
  opened  : Nat := 0
  open_   : List FerrySub := []
  gone    : List FerrySub := []
  acked   : Nat := 0
  startAt : Nat := 0
  lastAck : Nat := 0
  deriving DecidableEq, Repr

/-- A probe of the fabric manager that waits for its turn or its answer: the ports of its route, and the address to assign; 0 for an IDENT
(R389, R390). -/
structure Scout where
  route : List Nat
  addr  : Nat := 0
  deriving DecidableEq, Repr

/-- A chip that the fabric manager has addressed: its serial, its address, the ports that lead to it and its port toward the manager. -/
structure Found where
  serial : Word
  addr   : Nat
  route  : List Nat
  port   : Nat
  deriving DecidableEq, Repr

/-- The fabric: tables by bank (R397), ports, the step unit (R403 to R406), notices (R401), ferries, fabric time (R408, R409). -/
structure Fabric where
  /-- Route words at bank × 4096 + chip, tree words at 0x4000 + (bank × 1024 + tree) × 4 + word. -/
  tables   : SMap Word := []
  ports    : SMap Port := []
  /-- Records held by the step unit, and the step of the last one taken since FABR_STEP was set (R405, R406). -/
  records  : List (List Word) := []
  lastRec  : Option Nat := none
  /-- Step whose ready this chip has sent (R403). -/
  readySent : Option Nat := none
  /-- Leader: the oldest incomplete step, readies by step and the time of the first of each, the step last reported stalled,
  and records the composer has written and the leader has not released (R404). -/
  oldest   : Nat := 1
  ready    : SMap (List Nat) := []
  firstAt  : SMap Nat := []
  stalled  : Option Nat := none
  outRec   : List (List Word) := []
  evq      : List Word := []
  ferry    : SMap Ferry := []
  /-- TIME exchanges in a row within 2 ns, the offset still to be slewed in ps, and the part of a nanosecond that FABR_TIME has
  not counted. -/
  goodTime : Nat := 0
  slew     : Int := 0
  subPs    : Nat := 0
  /-- The part of a picosecond of slew that 200 ppm of past time allow, in units of 1/5,000 (R409). -/
  slewRem  : Nat := 0
  /-- Symbols that the FEC of a lane has corrected and csym does not count yet (R413). -/
  symbols  : SMap Nat := []
  /-- Time of the next TIME exchange. -/
  nextTime : Nat := 0
  /-- Discovery by the fabric manager: probes in order, whether the first has been sent, and the chips addressed (R390, R426). -/
  scouts   : List Scout := []
  scouting : Bool := false
  found    : List Found := []
  deriving DecidableEq, Repr

/-- A RoCEv2 packet that a queue pair sends (R435): kind (0 SEND, 1 WRITE, 2 WRITE with immediate, 3 READ, 4 READ response, 5 ACK,
6 NAK, 7 RNR NAK, 8 CNP), sequence number, key, address, immediate or syndrome, bytes. -/
structure RocePkt where
  qp    : Nat
  kind  : Nat
  psn   : Nat
  rkey  : Nat := 0
  vaddr : Nat := 0
  imm   : Nat := 0
  bytes : List Byte := []
  deriving DecidableEq, Repr

/-- Steps by which the tollhouse readies the boot flash (R584). -/
inductive FlashOp where
  | softReset
  | readSfdp
  | octalDdr
  deriving DecidableEq, Repr

/-- What the package sends to the outside that no other field holds. -/
inductive Output where
  /-- A step by which the tollhouse readies the boot flash (R584). -/
  | flash (op : FlashOp)
  /-- A UDP datagram: interface, tag, the address to whose MAC the frame goes (R420, R421), destination address and port, bytes. Towpath
  messages go so, in the form of R427, Not-ECT. -/
  | datagram (ifc : Nat) (tag : Option VlanTag) (hop dst : BitVec 128) (port : Nat) (bytes : List Byte)
  /-- A neighbour packet of the wharfinger (R420): interface, tag, the address to whose MAC the frame goes. -/
  | neighbour (ifc : Nat) (tag : Option VlanTag) (hop : BitVec 128) (msg : NeighbourMsg)
  /-- A RoCEv2 packet: interface, tag, next-hop MAC, marked ECT(0), and the time at which its pacing lets it go (R421, R436, R442). -/
  | roce (ifc : Nat) (tag : Option VlanTag) (mac : Nat) (ect : Bool) (at_ : Nat) (k : RocePkt)
  /-- A PFC frame of a port and priority (R441). -/
  | pfc (p prio quanta : Nat)
  /-- A towline frame of a port (R377, R380). -/
  | frame (port : Nat) (f : Frame)
  /-- An answer on the I3C bus: acknowledged, and the bytes read (R448, R449). -/
  | i3c (ack : Bool) (bytes : List Byte)
  /-- An immediate that an RDMA WRITE delivered to the loader (R438). -/
  | notice (imm : Nat)
  /-- A pulse on CAPT_OUT (R560). -/
  | captOut (at_ : Nat)
  /-- A bit on TDO in Shift-DR or Shift-IR; it stands at high impedance otherwise (R579, R586). -/
  | tdo (b : Bool)
  deriving DecidableEq, Repr

/-! ### Host ports (R415 to R451) -/

/-- A towpath message that the device has sent and keeps until it is acknowledged (R431, R432): its number, type, flags, handle,
status and payload, the time and number of its last sending, the requests whose final records it carries (R458), and for a response the
interface of the message it answers (R422). -/
structure SentMsg where
  seq     : Nat
  ty      : Nat
  flags   : Nat
  handle  : Nat
  status  : Nat
  payload : List Byte
  sentAt  : Nat
  tries   : Nat
  finals  : List Nat
  ifc     : Option Nat := none
  deriving DecidableEq, Repr

/-- A towpath session (R429 to R432, R440, R444). -/
structure Session where
  id      : Nat
  /-- Slot of the session, 0 to 255 (R454). -/
  slot    : Nat
  src     : BitVec 128
  sport   : Nat
  /-- Interface of its last message (R422). -/
  ifc     : Nat
  /-- 0 control, 1 serving. -/
  cls     : Nat
  qp      : Option Nat
  keepMs  : Nat
  /-- Number expected next, messages held ahead of it with the interfaces they came by, the interfaces of messages not answered yet by
  number (R422), and the responses kept by the number they answer (R431). -/
  next    : Nat := 1
  held    : List (Nat × Nat × List Byte) := []
  arrived : List (Nat × Nat) := []
  cache   : List (Nat × SentMsg) := []
  /-- Number of the last message sent, and messages not acknowledged. -/
  sent    : Nat := 0
  unacked : List SentMsg := []
  lastRx  : Nat := 0
  ackOwed : Option Nat := none
  keepAt  : Nat := 0
  /-- Frame-mode requests paused for stream space, and the time of the last EVENT (R444, R555). -/
  paused  : Bool := false
  eventAt : Option Nat := none
  /-- Parts of a change order received so far (R539). -/
  parts   : List Byte := []
  /-- Number of the next error entry to send (R555). -/
  evNext  : Nat := 0
  deriving DecidableEq, Repr

/-- One access of the register path on a chip (R434, R597): a write of `val`, a read, a read repeated until the bits of `mask`
read `want`, the firing of the host capture source (R562), or a word of a change order for its tollhouse (R539). -/
structure Access where
  chip : Nat
  addr : Nat
  val  : Option Word := none
  mask : Word := 0
  want : Word := 0
  fire : Bool := false
  order : Bool := false
  deriving DecidableEq, Repr

/-- What the wharfinger's firmware does with a list of accesses: answer them (R434), write IDLE_BUDGET_NS (R526), fire or arm
capture (R562), run a test (R563), ask another chip's tollhouse (R536), arm or abort a swap (R492, R499), load and unload (R367,
R368), write the page maps of a step (R463), bring a chip into the fabric (R390), or pass a change order to another chip's tollhouse
(R539). -/
inductive JobKind where
  | regs
  | idleSet
  | capture
  | test
  | attest
  | arm
  | disarm
  | load
  | unload
  | pages
  | discover
  | order
  deriving DecidableEq, Repr

/-- A job of the wharfinger: the message it answers (session, number, handle), where it stands, the request's payload, the chips
it names, the accesses to do, those done with status and data, newest first, of which `mark` were done before this phase, the time
of the access that waits for another chip, its answer (R434), and words carried from one phase to the next. -/
structure Job where
  id     : Nat
  sess   : Nat
  seq    : Nat
  handle : Nat
  kind   : JobKind
  phase  : Nat := 0
  req    : List Byte := []
  chips  : List Nat := []
  todo   : List Access := []
  done   : List (Access × Nat × Word) := []
  mark   : Nat := 0
  asked  : Option Nat := none
  ans    : Option (Nat × Word) := none
  keep   : List Nat := []
  deriving DecidableEq, Repr

/-- A request of this device on a queue pair that the other end has not acknowledged (R439): its last sequence number, packet, and the
ring slot and token it carries. -/
structure OutReq where
  psn    : Nat
  packet : RocePkt
  ring   : Option Nat := none
  final  : Bool := false
  sess   : Option (Nat × Nat) := none
  deriving DecidableEq, Repr

/-- An RDMA READ whose data are on their way from the holds (R438): its number, the packet, its requests still at a
pseudo-channel, and the bytes that have come, by request. -/
structure Fetch where
  id   : Nat
  pkt  : Packet
  left : Nat
  got  : SMap (List Byte) := []
  deriving DecidableEq, Repr

/-- A queue pair beyond its context in the hold (R439, R440, R442). -/
structure Qp where
  out_   : List OutReq := []
  retries : Nat := 0
  rnrs   : Nat := 0
  since  : Nat := 0
  cnpSent : Option Nat := none
  rateAt : Nat := 0
  /-- The time at which its last packet went and that packet's bytes, and the packets that its pacing holds back, with their interfaces
  (R442). -/
  paceAt : Nat := 0
  paceB  : Nat := 0
  paced  : List (Nat × RocePkt) := []
  /-- Receive region: next slot, and slots not read. -/
  slot   : Nat := 0
  unread : Nat := 0
  /-- READs to answer, oldest first. -/
  fetches : List Fetch := []
  deriving DecidableEq, Repr

/-- Data that an Ethernet port writes into a hold (R418, R438, R440): the queue pair and interface they came by, the priority whose
buffer holds them, where they go, the bytes, whether the OPEN has been sent, the landing slot granted, the DATA barges sent, the
immediate to deliver and whether they are a message for the firmware, once they are written. -/
structure EthTx where
  qp    : Nat
  ifc   : Nat
  prio  : Nat
  addr  : Nat
  bytes : List Byte
  asked : Bool := false
  slot  : Option Nat := none
  sent  : Nat := 0
  imm   : Option Nat := none
  msg   : Bool := false
  deriving DecidableEq, Repr

/-- A priority of an Ethernet port (R441). -/
structure Prio where
  /-- Bytes held in the receive buffer, whether pause has been sent, and when it is refreshed. -/
  level   : Nat := 0
  xoff    : Bool := false
  refresh : Nat := 0
  /-- Transmission is paused until a time, paused without a break since a time, and PFC is not honoured since a time. -/
  until_  : Option Nat := none
  since   : Nat := 0
  dead    : Option Nat := none
  lastRx  : Nat := 0
  /-- What waits for the pause to end. -/
  txq     : List Output := []
  deriving DecidableEq, Repr

/-- A ring context beyond its 32 bytes in the hold (R445 to R447): ledger index, producer and consumer counts, tokens held with
their final mark, acknowledged final record, and whether 0x6B05 has been logged. -/
structure Ring where
  idx    : Nat
  prod   : Nat := 0
  cons   : Nat := 0
  held   : List (List Byte × Bool) := []
  acked  : Bool := false
  /-- The consumer count is read once per step, and the step of the last read. -/
  low    : Bool := false
  asked  : Option Nat := none
  logged : Bool := false
  deriving DecidableEq, Repr

/-- The wharfinger. -/
structure Wharfinger where
  sessions : SMap Session := []
  nextId   : Nat := 1
  jobs     : List Job := []
  jobSeq   : Nat := 0
  /-- Neighbour entries (R420). -/
  neigh    : List (BitVec 128 × BitVec 48) := []
  qps      : SMap Qp := []
  prios    : SMap Prio := []
  rings    : SMap Ring := []
  pktSeq   : Nat := 0
  /-- Data on their way into the holds by Ethernet port, oldest first. -/
  etx      : SMap (List EthTx) := []
  /-- Prefixes from which control sessions are accepted: address and length (R430, R532). -/
  control  : List (BitVec 128 × Nat) := []
  /-- The firmware runs (R529). -/
  up       : Bool := false
  deriving DecidableEq, Repr

/-! ### The serving engine (R453 to R481) -/

/-- A SUBMIT of a replay run that waits for its admission step (R480): session, message number, payload. -/
structure Admit where
  step : Nat
  sess : Nat
  seq  : Nat
  req  : List Byte
  deriving DecidableEq, Repr

/-- The engine beyond the ledger in the hold. -/
structure Engine where
  /-- Step composed last, and steps composed whose results have not been processed (R470). -/
  composed  : Option Nat := none
  unproc    : List Nat := []
  /-- Time of the last result processing or energy sweep (R513). -/
  procAt    : Nat := 0
  /-- Handles that ran in each recent step (R470). -/
  ran       : List (Nat × List Nat) := []
  /-- Tenant changes to come, with their steps (R467), and replay admissions (R480). -/
  sched     : List (Nat × List Byte) := []
  admits    : List Admit := []
  /-- Ledger indices whose next delivery is not measured (R476), and tenants below their floor (R461). -/
  skip      : List Nat := []
  debt      : List Nat := []
  /-- Records without a token for a step's stream, 0 for the next: step, handle, flags (R478, R481). -/
  extra     : List (Nat × Nat × Nat) := []
  /-- Handles of paused requests whose record for this pause has been given (R478). -/
  told      : List Nat := []
  /-- Audit events that the next composition stamps: kind and value (R479). -/
  acted     : List (Nat × Nat) := []
  /-- Ledger indices whose final record has been acknowledged (R458). -/
  acked     : List Nat := []
  /-- By ledger index: the session that submitted the request, the token last delivered, and the step of the last change. -/
  owner     : SMap Nat := []
  lastTok   : SMap Nat := []
  stepOf    : SMap Nat := []
  /-- The composition that stays open: its step and the chunks it may still take (R472). -/
  open_     : Option (Nat × Nat) := none
  /-- The message that armed a swap (session, number), the switch step once composed, the messages that asked to release pins, and
  whether the next composition clears them (R492, R497). -/
  armed     : Option (Nat × Nat) := none
  switchAt  : Option Nat := none
  unpin     : List (Nat × Nat) := []
  unpinNext : Bool := false
  /-- Words of the ledger that have changed since the last step was processed, as they stood then (R454). -/
  view      : SMap Word := []
  deriving DecidableEq, Repr

/-! ### Weights (R483 to R500) -/

/-- The fill of one core's weight store (R486, R489): bytes of the slice asked of the hold, bytes sent on the mesh, and the 256-byte
blocks that have come back, by number, with their poison by line. -/
structure FillRun where
  core  : Nat
  asked : Nat := 0
  sent  : Nat := 0
  got   : SMap (List Byte × List Bool) := []
  deriving DecidableEq, Repr

/-- A check, prime or fill in progress, and what the step unit waits for (R487 to R493). -/
structure Weights where
  /-- The copy being primed, whether the fill in progress is a load fill, and the time of the last KDONE (R493). -/
  copy    : Nat := 0
  load    : Bool := false
  lastDone : Nat := 0
  /-- A step has begun on the epoch in force since it came into force (R490). -/
  begun   : Bool := false
  /-- A load fill, prime or staged fill in progress: the cores whose slices are not wholly sent, the bytes sent, the time it began (R489),
  and the codes that it has logged (R280, R500). -/
  fills   : List FillRun := []
  fillSent : Nat := 0
  fillAt  : Nat := 0
  fillLogged : List Nat := []
  deriving DecidableEq, Repr

/-! ### Weirs and power (R502 to R519) -/

/-- A weir's window: samples of the last window_ns, newest first, the time of the newest, since when I_w has stood below the fall
threshold, and the highest code of the gust in progress (R504 to R508). -/
structure Weir where
  samples : List Nat := []
  lastAt  : Option Nat := none
  lowFrom : Option Nat := none
  top     : Nat := 0
  deriving DecidableEq, Repr

/-- The power policy and the meters (R511 to R519). -/
structure Power where
  weirs    : SMap Weir := []
  /-- Fraction of a µJ of each meter, in the meter's own units. -/
  fracs    : SMap Nat := []
  /-- ENGY_PKG at each of the last policy ticks, newest first, and the time of the newest (R518). -/
  ticks    : List Nat := []
  tickAt   : Nat := 0
  /-- An episode is in progress, or one has ended and cap still rises; ticks at or below 95% in a row (R518). -/
  episode  : Bool := false
  raising  : Bool := false
  goodFor  : Nat := 0
  /-- ENGY_PKG at the last step-ready (R512). -/
  lastPkg  : Nat := 0
  deriving DecidableEq, Repr

/-! ### The tollhouse (R528 to R543, R569 to R589) -/

/-- A core of the factory defect record, with the row and column of each faulty cell of its array (R35, R143). -/
structure Defect where
  core  : Nat
  cells : List (Nat × Nat)
  deriving DecidableEq, Repr

/-- The tollhouse's own state. -/
structure Toll where
  /-- Levels of PWR_OK and RESET_N. -/
  pwrOk    : Bool := false
  resetN   : Bool := false
  /-- Rail enables and power-goods, with the times of their last changes (R574, R576). -/
  en       : List Bool := [false, false, false, false]
  pg       : List Bool := [false, false, false, false]
  enAt     : List Nat := [0, 0, 0, 0]
  pgAt     : List Nat := [0, 0, 0, 0]
  /-- The boot in progress or last run: 1 POR, 2 TOLL, 3 DEV; when RESET_N went high, whether it came from RESET_N, and the slot
  read next (R530, R534). -/
  kind     : Nat := 1
  bootAt   : Nat := 0
  slot     : Nat := 0
  /-- The accepted image, and the owner keys kept from it (R534, R535). -/
  image    : List Byte := []
  keys     : List Byte := []
  /-- An orderly power-down is in progress (R576). -/
  downing  : Bool := false
  /-- Only the tollhouse stays powered: in Becalmed, or after a rail or temperature fault (R520, R578, R588). -/
  becalmed : Bool := false
  dead     : Bool := false
  /-- A trip has occurred for which a boot waits 10 s before phase 4, and the start of that wait (R588). -/
  tripped  : Bool := false
  tripAt   : Nat := 0
  /-- RESET_N was asserted after phase 4 at this time (R545). -/
  lowAt    : Option Nat := none
  /-- Ports whose first training attempt has not ended (R529). -/
  trying   : List Nat := []
  /-- The factory defect record (R35, R143). -/
  defects  : List Defect := []
  /-- I3C: static and dynamic address, and the answer of the last access, none while one waits or none was made; the number of the access
  that waits, when it began, and whether it is of another chip (R448, R449). -/
  i3cStatic : Nat := 0
  i3cDyn   : Option Nat := none
  i3cAns   : Option (Nat × Word) := none
  i3cWait  : Bool := false
  i3cAt    : Nat := 0
  i3cSeq   : Nat := 0
  i3cFar   : Bool := false
  /-- The TREFCLK and EREFCLK inputs are lost (R583). -/
  trefLost : Bool := false
  erefLost : Bool := false
  /-- A CTX reset that drains since a time, and reaches in a REACH reset (R546, R547). -/
  ctxAt    : Option Nat := none
  reaching : List Nat := []
  /-- JTAG TAP: controller state, instruction (none: that of a reset), and the shift registers (R586). -/
  tap      : Nat := 0
  ir       : Option Nat := none
  irShift  : Nat := 0
  drShift  : List Bool := []
  /-- What the boundary-scan cells hold since the last Update-DR (R586). -/
  cells    : List Bool := []
  /-- Words of change orders that come from other chips, by chip (R539; log entry 6). -/
  orders   : SMap (List Word) := []
  deriving DecidableEq, Repr

/-! ### Idle states (R516, R520 to R525) -/

/-- The idle sequencer: the state entered (0: running), whether an entry waits for the weirs (R524), whether a wake is in
progress, and its times. -/
structure Idle where
  state    : Nat := 0
  waitWeir : Bool := false
  waking   : Bool := false
  /-- Start of the entry, and end of the wake (R522). -/
  since    : Nat := 0
  wakeDue  : Nat := 0
  /-- The die has been quiescent since this time (R521). -/
  quiet    : Option Nat := none
  /-- A waiting at_record set: target and reach mask (R516). -/
  opset    : Option (Nat × Nat) := none
  deriving DecidableEq, Repr

/-! ### Errors, capture and self-test (R545 to R568) -/

/-- A written error entry with what orders it within its beat (R551, R552). -/
structure ErrRec where
  block : Nat
  core  : Nat
  code  : Nat
  w0    : Word
  w1    : Word
  w2    : Word
  w3    : Word
  deriving DecidableEq, Repr

/-- A capture trigger on its way: its source, the code of an error source, and the earliest time or beat it may
arrive (R557). -/
structure Trigger where
  source : Nat
  code   : Nat
  notBefore : Nat
  deriving DecidableEq, Repr

/-- The diagnostic blocks' hidden state. -/
structure Diag where
  /-- Entries of the burst in progress, in the order of R552, with the beat and time of the burst. -/
  intake : List ErrRec := []
  intakeBeat : Nat := 0
  intakeAt : Nat := 0
  /-- Entries held for EVENT messages with their chip, the number of the first, and entries since (R555). -/
  events : List (Nat × ErrRec) := []
  eventBase : Nat := 0
  /-- Words 0 to 2 of ERRS_FWD written by each chip since its last commit (R600). -/
  fwd : SMap (List Word) := []
  /-- Triggers that wait for a beat (R557), and the capture under way: its beat, source and code (R558). -/
  triggers : List Trigger := []
  capture : Option (Nat × Nat × Nat) := none
  /-- The snapshot copies (R558). -/
  snap : SMap Word := []
  /-- Self-test: request time, test in progress, units to run, paused, next unit (R563 to R567). -/
  testAt : Nat := 0
  testUnitAt : Option Nat := none
  testUnitCount : Nat := 0
  testFailed : Bool := false
  testWindow : Bool := false
  testCancel : Bool := false
  deriving DecidableEq, Repr

end Sys2Proof.Machine
end

