-- ==== Sys2Proof/Machine/State.lean ====
section
/-! DEFINITION. The state of the device, the ways a step can stop, and the state right after POR. -/

namespace Sys2Proof.Machine

/-- Faults of a step. None is raised: the specification gives every error of the device an effect on its state
(a log entry, a status, the FAULT state of a core), so no command stops the block. The type is kept non-empty
for the one case that the types do not exclude. -/
inductive Fault where
  /-- Raised by no command; safe. -/
  | stuck
  deriving DecidableEq, Repr

/-- Refusals of a step. -/
inductive Refusal where
  /-- Raised by `exec` for a command whose meaning is not written yet; safe. -/
  | notModelled (mnemonic : String)
  deriving DecidableEq, Repr

/-- The state of the device. Registers are listed by device address once they have been written, and hold their value after POR before that;
memory is listed by device address where a byte is not 0. -/
structure State where
  /-- The timebase, in picoseconds since POR (R4, R49). -/
  now     : Nat
  /-- MODEL: counter at which the free values are drawn. -/
  free    : Nat
  /-- Registers (R14, R592 to R594). -/
  regs    : SMap Word
  /-- What has happened to registers in the beat in progress (R16, R17). -/
  marks   : SMap Mark
  /-- Memories: basins, operand caches, keeper memories, weight stores, holds (R590, R591). -/
  mem     : List Host.Cell
  /-- Stored check bits of lines as their difference from R276's encoding (R275 to R278). -/
  ecc     : SMap (BitVec 10)
  reaches : SMap Reach
  die     : Die
  cores   : SMap Core
  locks   : Locks
  mesh    : Mesh
  holds   : SMap HoldPc
  fabric  : Fabric
  host    : Wharfinger
  engine  : Engine
  weights : Weights
  power   : Power
  toll    : Toll
  idle    : Idle
  diag    : Diag
  /-- In-band interrupts: enabled, and the class bytes raised (R450). -/
  ibiOn   : Bool
  ibis    : List Nat
  /-- What the package has sent to the outside, oldest first. -/
  outs    : List Output
  /-- MODEL: commands that wait, first in, first out. -/
  pending : List Instr
  deriving DecidableEq, Repr

/-- The device right after POR: every register at its Reset value (R19), every line of memory zero with valid
check bits (R549), nothing in progress. -/
def State.reset : State where
  now := 0
  free := 0
  regs := []
  marks := []
  mem := []
  ecc := []
  reaches := []
  die := {}
  cores := []
  locks := {}
  mesh := {}
  holds := []
  fabric := {}
  host := {}
  engine := {}
  weights := {}
  power := {}
  toll := {}
  idle := {}
  diag := {}
  ibiOn := false
  ibis := []
  outs := []
  pending := []

end Sys2Proof.Machine
end

