-- ==== Sys2Proof/Machine/Ops.lean ====
section
/-! DEFINITION. The named operations of the machine: registers, time, memory and its check bits, the core map, die holds, the
error log, capture triggers, routes of the mesh, and barges for other chips. -/

namespace Sys2Proof.Machine

/-! ### Registers (R14) -/

/-- The value of the register at a device address. -/
def State.reg (s : State) (a : Nat) : Word := (smFind s.regs a).getD (regReset a)

/-- Replace a register whole. -/
def State.setReg (s : State) (a : Nat) (w : Word) : State := { s with regs := smPut s.regs a w }

/-- A field of a register. -/
def State.get (s : State) (a : Nat) (f : BitField) : Nat := f.get (s.reg a)

/-- Set a field of a register. -/
def State.put (s : State) (a : Nat) (f : BitField) (v : Nat) : State := s.setReg a (f.set (s.reg a) v)

def State.reach (s : State) (r : Nat) : Reach := smGet {} s.reaches r

/-- Reach of a core (R30). -/
def reachOf (n : Nat) : Nat := 4 * (n / 16 / 4) + n % 16 / 4

/-- Beat period in force in reach `r`, in ps: exactly period_ps, where R50 lets a pacer keep to it within 1% (log entry 30). -/
def State.period (s : State) (r : Nat) : Nat :=
  s.get (Reg.PACE_OP_TABLE (s.get (Reg.PACE_OPSEL r) Fld.PACE_OPSEL.current_op)) Fld.PACE_OP_TABLE.period_ps

/-- What has happened to a register in the beat in progress (R16, R17): for a register of a core, the beat of its reach, while that
beat is in progress or a period has not passed; for any other, the die beat, for one period of reach 0 (log entry 29). While the die
is held, or its pacers are stopped, it is the beat in which the die resumes (R597). -/
def State.mark (s : State) (a : Nat) : Mark :=
  let onCore := decide (a < 0x400000000)
  let r := if onCore then reachOf (a / 0x4000000) else 0
  let x := s.reach r
  let still := !s.die.holds.isEmpty || s.idle.state != 0
  let ahead := if still && (!onCore || x.complete) then 1 else 0
  let b := (if onCore then x.beat else s.get Reg.PACE_BEAT Fld.PACE_BEAT.die_beat) + ahead
  let fresh : Mark := ⟨b, s.now, 0, 0⟩
  match smFind s.marks a with
  | some m =>
    let live := still || decide (s.now < m.at_ + s.period r) || (onCore && !x.complete) ||
      (x.beat == b && decide (m.at_ < x.tokenAt) && decide (s.now < x.tokenAt + s.period r))
    if m.beat = b ∧ live then m else fresh
  | none => fresh

/-- Note what happens to a register in the beat in progress. -/
def State.setMark (s : State) (a : Nat) (m : Mark) : State := { s with marks := smPut s.marks a m }

/-- What happened to registers before is past. -/
def State.unmarked (s : State) : State := { s with marks := [] }

/-- A write has set bits of the field in the beat in progress. -/
def State.written (s : State) (a : Nat) (f : BitField) : Bool :=
  ((s.mark a).wrote &&& f.set 0 (2 ^ f.width - 1)) != 0

/-- A hardware update of a field, discarded where a write sets the field in the same beat (R17). -/
def State.hwPut (s : State) (a : Nat) (f : BitField) (v : Nat) : State := if s.written a f then s else s.put a f v

/-- Hardware sets bits of a W1C field; a write of the same beat does not clear them (R16). -/
def State.hwSet (s : State) (a : Nat) (f : BitField) (v : Nat) : State :=
  let m := s.mark a
  (s.put a f (s.get a f ||| v)).setMark a { m with set := m.set ||| f.set 0 v }

/-- Add to a counting field that wraps (R17). -/
def State.addTo (s : State) (a : Nat) (f : BitField) (n : Nat) : State := s.hwPut a f (s.get a f + n)

/-- Add to a counting field that saturates (R17). -/
def State.addSat (s : State) (a : Nat) (f : BitField) (n : Nat) : State :=
  s.hwPut a f (min (s.get a f + n) (2 ^ f.width - 1))

/-- Set bit `i` of a bit-set field. -/
def State.setBit (s : State) (a : Nat) (f : BitField) (i : Nat) : State :=
  s.put a f (s.get a f ||| 2 ^ i)

/-- Whether bit `i` of a bit-set field is set. -/
def State.hasBit (s : State) (a : Nat) (f : BitField) (i : Nat) : Bool := (s.get a f).testBit i

/-- Return a register to its value after POR. -/
def State.resetReg (s : State) (a : Nat) : State := { s with regs := smDel s.regs a }

/-- The effect of a plain write on a register, by the types of its fields (R15, R18). -/
def RegRow.write (r : RegRow) (old v : Word) : Word :=
  ((old &&& ~~~ r.rw) ||| (v &&& r.rw) ||| (v &&& r.w1s)) &&& ~~~ (v &&& r.w1c)

/-- A write of the bits of `part` of a register: W1C bits that hardware sets in the same beat stay (R16), and updates of RW
fields that it writes are discarded in that beat (R17). -/
def State.writeBits (s : State) (a : Nat) (r : RegRow) (part v : Word) : State :=
  let m := s.mark a
  let old := s.reg a
  let new := r.write old (v &&& ~~~ (m.set &&& r.w1c))
  (s.setReg a ((old &&& ~~~ part) ||| (new &&& part))).setMark a { m with wrote := m.wrote ||| (r.rw &&& part) }

/-- A plain write of a register; where no register lies, nothing (R592). -/
def State.plainWrite (s : State) (a : Nat) (v : Word) : State :=
  match regRow a with
  | some r => s.writeBits a r (BitVec.allOnes 64) v
  | none => s

/-- What a register path reads: WO fields read 0 (R15). -/
def State.pathReg (s : State) (a : Nat) : Word :=
  match regRow a with
  | some r => s.reg a &&& ~~~ r.wo
  | none => 0

/-! ### Runtime records -/

def State.setReach (s : State) (r : Nat) (x : Reach) : State := { s with reaches := smPut s.reaches r x }
def State.core (s : State) (n : Nat) : Core := smGet {} s.cores n
def State.setCore (s : State) (n : Nat) (c : Core) : State := { s with cores := smPut s.cores n c }
def State.port (s : State) (p : Nat) : Port := smGet {} s.fabric.ports p
def State.setPort (s : State) (p : Nat) (x : Port) : State :=
  { s with fabric := { s.fabric with ports := smPut s.fabric.ports p x } }
def State.slot (s : State) (i : Nat) : Slot := smGet {} s.locks.slots i
def State.setSlot (s : State) (i : Nat) (x : Slot) : State :=
  { s with locks := { s.locks with slots := smPut s.locks.slots i x } }
def State.emit (s : State) (o : Output) : State := { s with outs := s.outs ++ [o] }

/-! ### Numbering (R29, R30, R55) -/

/-- Core-in-reach index of a core (R30). -/
def cirOf (n : Nat) : Nat := 4 * (n / 16 % 4) + n % 16 % 4

/-- Core of a reach with a core-in-reach index (R30). -/
def coreAt (r i : Nat) : Nat := 16 * (4 * (r / 4) + i / 4) + 4 * (r % 4) + i % 4

/-- The cores of a reach in core-in-reach order. -/
def coresOf (r : Nat) : List Nat := (List.range 16).map (coreAt r)

/-- Reaches that share an edge with reach `r` (R51). -/
def adjacent (r : Nat) : List Nat :=
  (List.range 16).filter fun q =>
    (q / 4 == r / 4 && (q % 4 + 1 == r % 4 || r % 4 + 1 == q % 4)) ||
    (q % 4 == r % 4 && (q / 4 + 1 == r / 4 || r / 4 + 1 == q / 4))

/-- Quadrant rail of a reach (R55). -/
def railOf (r : Nat) : Nat := 2 * (r / 8) + r % 4 / 2

/-- Router hops between two cores (R325). -/
def hops (a b : Nat) : Nat :=
  ((a / 16 : Int) - (b / 16 : Int)).natAbs + ((a % 16 : Int) - (b % 16 : Int)).natAbs

/-! ### The core map and core states (R32 to R38, R203) -/

def stFenced : Nat := 0
def stStopped : Nat := 1
def stLoaded : Nat := 2
def stRunning : Nat := 3
def stHalted : Nat := 4
def stFault : Nat := 5

/-- Core `n` is enabled (R32). -/
def State.enabled (s : State) (n : Nat) : Bool :=
  s.hasBit (Reg.DEV_CORE_MAP (n / 64)) ⟨0, 64⟩ (n % 64)

/-- State of core `n` (R203). -/
def State.coreState (s : State) (n : Nat) : Nat :=
  if s.enabled n then s.get (Reg.CORE_STAT n) Fld.CORE_STAT.state else stFenced

/-- A core whose program is in progress: RUNNING, HALTED or FAULT. -/
def busyState (st : Nat) : Bool := st = stRunning || st = stHalted || st = stFault

/-- Boot has stopped in a failure (R530). -/
def State.bootFailed (s : State) : Bool := s.get Reg.TOLL_BOOT Fld.TOLL_BOOT.phase == 0xE

/-- Some core of the die is RUNNING, HALTED or FAULT. -/
def State.anyBusy (s : State) : Bool := (List.range 256).any fun n => busyState (s.coreState n)

/-- Latency of kind `k` in force (R358). -/
def State.lat (s : State) (k : Nat) : Nat := s.get (Reg.DTRM_LAT k) Fld.DTRM_LAT.in_force

/-- Strict mode (R370). -/
def State.strict (s : State) : Bool := s.get Reg.DTRM_CTRL Fld.DTRM_CTRL.strict == 1

/-- Cores in the virtual grid (R362). -/
def State.vgrid (s : State) : Nat := s.get Reg.DTRM_GRID Fld.DTRM_GRID.vgrid

/-- Physical core of virtual core `v` (R362). -/
def State.vmap (s : State) (v : Nat) : Nat := s.get (Reg.DTRM_VMAP (v / 8)) ⟨8 * (v % 8), 8⟩

/-- Virtual core of a physical core, if the map names it (R191). -/
def State.vcoreOf (s : State) (n : Nat) : Option Nat :=
  (List.range s.vgrid).find? fun v => s.vmap v == n

/-- Reach `r` is in crossbar mode (R312). -/
def State.xbar (s : State) (r : Nat) : Bool := s.hasBit Reg.MESH_MODE ⟨0, 16⟩ r

/-- Beat in progress, or last begun, in the reach of a core. -/
def State.beatOf (s : State) (n : Nat) : Nat := (s.reach (reachOf n)).beat

/-- This chip's address (R414). -/
def State.chipAddr (s : State) : Nat := s.get Reg.FABR_ADDR Fld.FABR_ADDR.addr

/-- Route words of a chip address in a bank (R392, R397). -/
def State.routeWord (s : State) (bank d : Nat) : Word := smGet 0 s.fabric.tables (bank * 4096 + d)

/-- The bank in force (R397, R414). -/
def State.bank (s : State) : Nat := s.get Reg.FABR_EPOCH Fld.FABR_EPOCH.epoch % 2

/-- Fields of a route word (R392). -/
def rtValid : BitField := ⟨63, 1⟩
def rtSelf : BitField := ⟨62, 1⟩
def rtAlt : BitField := ⟨61, 1⟩
def rtHops : BitField := ⟨48, 8⟩
def rtAltPort : BitField := ⟨32, 6⟩
def rtPort : BitField := ⟨0, 6⟩

/-- The route entry of a chip address marks it as this chip (R392). -/
def State.selfRoute (s : State) (bank chip : Nat) : Bool := decide (chip ≤ 4095) && rtSelf.get (s.routeWord bank chip) == 1

/-- Whether a chip field names this chip (R295, R392, R394, R595). -/
def State.isHere (s : State) (chip : Nat) : Bool := chip == 0 || chip == s.chipAddr || s.selfRoute s.bank chip

/-- This chip's role is wharf (R423). -/
def State.isWharf (s : State) : Bool := s.get Reg.STRM_MODE Fld.STRM_MODE.role == 1

/-! ### Die holds (R57 to R60, R347 to R352) -/

/-- The die is held. -/
def State.held (s : State) : Bool := !s.die.holds.isEmpty

/-- No beats pass at a router: the die is held, or a reset has stopped its reach, whose routers keep forwarding (R547; log entry 15). -/
def State.beatless (s : State) (node : Nat) : Bool :=
  s.held || (s.toll.reaching.contains (reachOf node) && (s.reach (reachOf node)).complete)

/-- The number of a hold cause as PACE_HOLD_CNT groups them. -/
def HoldCause.group : HoldCause → Nat
  | .memoryLate => 0
  | .linkLate => 1
  | .record => 2
  | .weir _ => 3
  | .retune _ => 4

/-- Whether the hold watchdog measures a request: a missing item of the first five rows of R347, the record wait of KSTEPW
exempt (R351). -/
def HoldReq.isItem (h : HoldReq) : Bool :=
  match h.cause with
  | .memoryLate => true
  | .linkLate => true
  | _ => false

/-- Count a cause in PACE_HOLD_CNT (R58). A retune stop is counted where it begins (R78); the record wait is not counted
(R350). -/
def State.countCause (s : State) (g : Nat) : State :=
  if g = 0 then s.addSat Reg.PACE_HOLD_CNT Fld.PACE_HOLD_CNT.memory_late 1
  else if g = 1 then s.addSat Reg.PACE_HOLD_CNT Fld.PACE_HOLD_CNT.link_late 1
  else if g = 3 then s.addSat Reg.PACE_HOLD_CNT Fld.PACE_HOLD_CNT.weir_stops 1
  else s

/-- Assert a hold request; a request already in force is kept (R57). Each cause counts once in one hold (R58), and none in an idle
state (R60). -/
def State.holdOn (s : State) (h : HoldReq) : State :=
  if s.die.holds.contains h then s
  else
    let first := s.die.holds.isEmpty
    let counted := if first then [] else s.die.counted
    let skip := decide (counted.contains h.cause.group ∨ s.idle.state ≠ 0)
    let s := if skip then s else s.countCause h.cause.group
    { s with die := { s.die with
        holds := s.die.holds ++ [h]
        holdFrom := if first then s.now else s.die.holdFrom
        counted := if skip then counted else h.cause.group :: counted
        wdogFrom := if h.isItem && s.die.wdogFrom.isNone then some s.now else s.die.wdogFrom } }

/-- A hold that goes on past an idle state counts the causes asserted in it (R58, R60). -/
def State.countHolds (s : State) : State :=
  s.die.holds.foldl (fun (t : State) h =>
    let g := h.cause.group
    if t.die.counted.contains g then t
    else { t.countCause g with die := { t.die with counted := g :: t.die.counted } }) s

/-- Withdraw hold requests (R59). -/
def State.holdOff (s : State) (p : HoldReq → Bool) : State :=
  let hs := s.die.holds.filter fun h => !p h
  { s with die := { s.die with
      holds := hs
      counted := if hs.isEmpty then [] else s.die.counted
      wdogFrom := if hs.any HoldReq.isItem then s.die.wdogFrom else none } }

/-! ### Time (R4, R58, R525) -/

/-- Whole nanoseconds that end between two times, counted from `base`: a hold's last fraction of one is not counted (log entry 30). -/
def nsBetween (base t0 t1 : Nat) : Nat := (t1 - base) / 1000 - (t0 - base) / 1000

/-- FABR_TIME advances with the timebase, slewed by at most 200 ppm (R408, R409), the part of a picosecond that this allows being
kept; what it would count in the rest of a beat in which it is written is discarded (R17). -/
def State.fabricTime (s : State) (d : Nat) : State :=
  let allow := s.fabric.slewRem + d
  let lim : Int := allow / 5000
  let adj : Int := max (-lim) (min lim s.fabric.slew)
  let beat := if s.written Reg.FABR_TIME Fld.FABR_TIME.time_ns then
    min d ((s.mark Reg.FABR_TIME).at_ + s.period 0 - s.now) else 0
  let total := s.fabric.subPs + ((d : Int) - beat + adj).toNat
  let s := s.put Reg.FABR_TIME Fld.FABR_TIME.time_ns (s.get Reg.FABR_TIME Fld.FABR_TIME.time_ns + total / 1000)
  { s with fabric := { s.fabric with subPs := total % 1000, slew := s.fabric.slew - adj, slewRem := allow % 5000 } }

/-- Carry the timebase to `t` (never back): held time, fabric time and idle time count with it. Time in an idle state is not held
time (R60): it only moves the start from which the hold's whole nanoseconds are counted. -/
def State.advanceTo (s : State) (t : Nat) : State :=
  if t ≤ s.now then s
  else
    let d := t - s.now
    let s := s.fabricTime d
    let s := if s.held ∧ s.idle.state ≠ 0 then
        { s with die := { s.die with holdFrom := s.die.holdFrom + d } }
      else if s.held then
        let s := s.addTo Reg.PACE_HOLD_NS Fld.PACE_HOLD_NS.held_ns (nsBetween s.die.holdFrom s.now t)
        let only := s.die.holds.all fun h => h.cause == .record
        { s with die := { s.die with
            heldPs := s.die.heldPs + d
            boundaryPs := if only then s.die.boundaryPs + d else s.die.boundaryPs } }
      else s
    let s := if s.idle.state ≠ 0 then
        s.addTo (Reg.IDLE_NS s.idle.state) Fld.IDLE_NS.time_ns (nsBetween s.idle.since s.now t)
      else s
    { s with now := t }

/-- Draw the index of the next free value. -/
def State.drawn (s : State) : State := { s with free := s.free + 1 }

/-! ### Capture triggers and wake (R523, R557, R559, R560) -/

/-- The die is at work, or ceases to be quiescent: its quiescent period ends (R521). -/
def State.atWork (s : State) : State := { s with idle := { s.idle with quiet := none } }

/-- Event `cause` of R523 wakes the die from Lull, Calm or Still, and reverses an entry that waits for the weirs (R524); the events that are
work end its quiescent period. Wake latencies are those of R520. -/
def State.wakeOn (s : State) (cause : Nat) : State :=
  let s := if cause ≤ 3 then s.atWork else s
  let s := { s with idle := { s.idle with waitWeir := false } }
  if s.idle.state = 0 ∨ s.idle.waking then s
  else
    let lat := [0, 2000000, 40000000, 600000000].getD s.idle.state 0
    let s := s.put Reg.IDLE_STATE Fld.IDLE_STATE.last_cause cause
    { s with idle := { s.idle with waking := true, wakeDue := s.now + lat } }

/-- The die stands still: held, or its pacers stopped in an idle state. -/
def State.dieStopped (s : State) : Bool := s.held || s.idle.state != 0

/-- The bit of a trigger source in SNAP_TRIG_SEL (R557): 0 pin, 1 step, 2 lock, 3 error of a code, 4 host, 5 time. -/
def State.srcOn (s : State) (src code : Nat) : Bool :=
  let a := Reg.SNAP_TRIG_SEL
  if src = 3 then s.hasBit a Fld.SNAP_TRIG_SEL.err_class (code / 4096)
  else s.get a (if src = 0 then Fld.SNAP_TRIG_SEL.pin else if src = 1 then Fld.SNAP_TRIG_SEL.step
    else if src = 2 then Fld.SNAP_TRIG_SEL.lock else if src = 4 then Fld.SNAP_TRIG_SEL.host else Fld.SNAP_TRIG_SEL.time) == 1

/-- A trigger of a source would be taken now: its bit is set and capture is armed (R557). -/
def State.taking (s : State) (src code : Nat) : Bool :=
  s.get Reg.SNAP_ARM Fld.SNAP_ARM.armed == 1 && s.srcOn src code

/-- A trigger arrives in beat `b` (R557 to R560). -/
def State.capture (s : State) (src code b : Nat) : State :=
  if !s.taking src code then s
  else
    match s.diag.capture with
    | some _ => s.addSat Reg.SNAP_STAT Fld.SNAP_STAT.missed 1
    | none =>
      let s := if s.get Reg.SNAP_TRIG_SEL Fld.SNAP_TRIG_SEL.out_en = 1 then s.emit (.captOut s.now) else s
      { s with diag := { s.diag with capture := some (b + s.lat 27, src, code) } }

/-- A trigger waits for the first beat that begins at or after a time; one that would be taken wakes an idle die (R523, R557). -/
def State.queueTrigger (s : State) (src code at_ : Nat) : State :=
  let t := if s.taking src code then s.wakeOn 6 else s
  { t with diag := { t.diag with triggers := t.diag.triggers ++ [⟨src, code, at_⟩] } }

/-- A trigger source fires: at once in beat `b`, or, where the die stands still, to arrive in the first beat after it
resumes (R557). -/
def State.trigger (s : State) (src code b : Nat) : State :=
  if s.dieStopped then s.queueTrigger src code s.now else s.capture src code b

/-! ### The error log (R551 to R555) -/

/-- An error to be logged: code, info, aux, and the core and tag it names (R551). -/
structure Err where
  code : Nat
  info : Nat := 0
  aux  : Nat := 0
  core : Option Nat := none
  tag  : Option Nat := none
  deriving DecidableEq, Repr

/-- The entry an error makes (R551). -/
def State.errRec (s : State) (e : Err) : ErrRec :=
  let beat := match e.core with
    | some n => s.beatOf n
    | none => s.get Reg.PACE_BEAT Fld.PACE_BEAT.die_beat
  let flags := (if e.core.isSome then 1 else 0) + (if e.tag.isSome then 2 else 0) + (if s.held then 4 else 0)
  { block := e.code / 256 % 16
    core := e.core.getD 256
    code := e.code
    w0 := BitVec.ofNat 64 (e.code % 65536 + flags * 2 ^ 16 + e.core.getD 0 % 256 * 2 ^ 24 +
      e.tag.getD 0 % 65536 * 2 ^ 32 + e.aux % 65536 * 2 ^ 48)
    w1 := BitVec.ofNat 64 (s.get Reg.FABR_STEP Fld.FABR_STEP.step % 2 ^ 32 + beat % 2 ^ 32 * 2 ^ 32)
    w2 := BitVec.ofNat 64 e.info
    w3 := s.reg Reg.FABR_TIME }

/-- The order of R552 within a beat. -/
def ErrRec.before (a b : ErrRec) : Bool :=
  if a.block ≠ b.block then decide (a.block < b.block)
  else if a.core ≠ b.core then decide (a.core < b.core)
  else decide (a.code < b.code)

/-- Place an entry after those that do not come later (R552). -/
def placeErr (e : ErrRec) : List ErrRec → List ErrRec
  | [] => [e]
  | x :: t => if e.before x then e :: x :: t else x :: placeErr e t

/-- Write one entry into a slot of ERRS_LOG (R551). -/
def State.writeErrSlot (s : State) (i : Nat) (e : ErrRec) : State :=
  (((s.setReg (Reg.ERRS_LOG i 0) e.w0).setReg (Reg.ERRS_LOG i 1) e.w1).setReg (Reg.ERRS_LOG i 2) e.w2).setReg
    (Reg.ERRS_LOG i 3) e.w3

/-- Write a burst from slot `i` on. -/
def State.writeBurst (s : State) (i : Nat) : List ErrRec → State
  | [] => s
  | e :: t => (s.writeErrSlot (i % 512) e).writeBurst (i + 1) t

/-- An entry is held for the next EVENT, up to 256 of them forwarded (R555). -/
def State.holdEvent (s : State) (chip : Nat) (e : ErrRec) : State :=
  if chip ≠ 0 ∧ 256 ≤ (s.diag.events.filter (fun x => x.1 != 0)).length then
    s.addSat Reg.ERRS_COUNT Fld.ERRS_COUNT.evt_lost 1
  else { s with diag := { s.diag with events := s.diag.events ++ [(chip, e)] } }

/-- Word `w` of a tree entry in a bank (R396, R397). -/
def State.treeWord (s : State) (bank t w : Nat) : Word :=
  smGet 0 s.fabric.tables (0x4000 + (bank * 1024 + t) * 4 + w)

/-- A port is ACTIVE (R385). -/
def State.portActive (s : State) (p : Nat) : Bool :=
  s.get (Reg.TOWL_PORT_STAT p) Fld.TOWL_PORT_STAT.state == 4

/-- The port toward a chip and whether an adaptive route was taken (R393); `adapt` for an OPEN of a sluice for route
class 2. -/
def State.lookup (s : State) (bank chip : Nat) (adapt : Bool) : Option (Nat × Bool) :=
  let w := s.routeWord bank chip
  let p := rtPort.get w
  let a := rtAltPort.get w
  let alt := rtAlt.get w == 1
  if rtValid.get w = 0 ∨ 4095 < chip then none
  else if s.portActive p then
    if adapt && alt && !s.strict && (s.port p).credit.getD 2 0 == 0 && s.portActive a &&
       (s.port a).credit.getD 2 0 != 0
    then some (a, true) else some (p, false)
  else if alt && s.portActive a then some (a, false)
  else none

/-- The errors of the beat in progress that the intake holds: those of one die beat and one period of reach 0, for which a die that
stands still has no other bound (R552; log entry 31). -/
def State.burst (s : State) : List ErrRec :=
  let d := s.diag
  if d.intakeBeat = s.get Reg.PACE_BEAT Fld.PACE_BEAT.die_beat ∧ (s.now = d.intakeAt ∨ s.now < d.intakeAt + s.period 0) then d.intake
  else []

/-- The intake has room for no further error of the beat (R552). -/
def State.intakeFull (s : State) : Bool := decide (64 ≤ s.burst.length)

/-- Write an entry: the ring, its counters, the pending bits, the wharf's event holding and the in-band interrupt (R450, R551 to
R555). -/
def State.writeErr (s : State) (e : Err) : State :=
  let r := s.errRec e
  let cls := e.code / 4096
  let burst := s.burst
  let head := s.get Reg.ERRS_HEAD Fld.ERRS_HEAD.next
  let s := { s with diag := { s.diag with
    intake := placeErr r burst, intakeBeat := s.get Reg.PACE_BEAT Fld.PACE_BEAT.die_beat
    intakeAt := if burst.isEmpty then s.now else s.diag.intakeAt } }
  let s := s.writeBurst (head + 512 - burst.length) (placeErr r burst)
  let s := s.put Reg.ERRS_HEAD Fld.ERRS_HEAD.next (head + 1)
  let s := s.addTo Reg.ERRS_COUNT Fld.ERRS_COUNT.logged 1
  let s := s.hwSet Reg.ERRS_STAT Fld.ERRS_STAT.pending (2 ^ cls)
  let s := if s.isWharf && s.hasBit Reg.ERRS_CTRL Fld.ERRS_CTRL.evt_mask cls then s.holdEvent 0 r else s
  if s.ibiOn && (cls == 2 || cls == 7 || cls == 15) then { s with ibis := s.ibis ++ [cls] } else s

/-- Log an error: an entry where the intake has room, and the error source of capture in the beat in which it is raised (R551, R552,
R557). -/
def State.logLocal (s : State) (e : Err) : State :=
  let t := if s.intakeFull then s.addSat Reg.ERRS_COUNT Fld.ERRS_COUNT.dropped 1 else s.writeErr e
  t.trigger 3 e.code (match e.core with
    | some n => s.beatOf n
    | none => s.get Reg.PACE_BEAT Fld.PACE_BEAT.die_beat)

/-! ### Barges for other chips -/

/-- Check bits of a barge header (R295): columns 3 to 71 of R276 and overall parity. -/
def hcol (i : Nat) : Nat :=
  if i < 1 then i + 3 else if i < 4 then i + 4 else if i < 11 then i + 5 else if i < 26 then i + 6
  else if i < 57 then i + 7 else if i < 120 then i + 8 else if i < 247 then i + 9 else i + 10

/-- XOR of the columns of the set bits among bits 0 to n - 1 of `d`. -/
def colXor (d : Nat) : Nat → Nat
  | 0 => 0
  | n + 1 => if d.testBit n then colXor d n ^^^ hcol n else colXor d n

/-- Parity of bits 0 to n - 1. -/
def parity (d : Nat) : Nat → Bool
  | 0 => false
  | n + 1 => xor (d.testBit n) (parity d n)

/-- The 10 check bits of a line (R276). -/
def encodeLine (d : BitVec 256) : BitVec 10 :=
  let c := colXor d.toNat 256
  let p := xor (parity d.toNat 256) (parity c 9)
  BitVec.ofNat 10 (c + if p then 512 else 0)

/-- The 8 check bits of a header (R295). -/
def encodeHeader (h : Word) : Byte :=
  let c := colXor h.toNat 64
  let p := xor (parity h.toNat 64) (parity c 7)
  BitVec.ofNat 8 (c + if p then 128 else 0)

/-- Fields of a barge header (R295). -/
def hType : BitField := ⟨60, 4⟩
def hChip : BitField := ⟨44, 16⟩
def hDest : BitField := ⟨32, 12⟩
def hClass : BitField := ⟨30, 2⟩
def hMcast : BitField := ⟨29, 1⟩
def hSeq : BitField := ⟨19, 10⟩
def hBerth : BitField := ⟨13, 6⟩
def hParity : BitField := ⟨12, 1⟩

/-- A barge from its header and payload, check bits encoded (R295, R298). -/
def mkBarge (h : Word) (pay : BitVec 512) : Barge :=
  { header := h
    hcheck := encodeHeader h
    payload := pay
    check0 := encodeLine (pay.extractLsb' 0 256)
    check1 := encodeLine (pay.extractLsb' 256 256)
    exitPort := none
    epochParity := false }

/-- A class-3 header (R291, R295). -/
def hdr3 (ty chip dest berth parity : Nat) : Word :=
  hParity.set (hBerth.set (hClass.set (hDest.set (hChip.set (hType.set 0 ty) chip) dest) 3) berth) parity

/-- Payload bytes as 512 bits, zeros above. -/
def payOf (bs : List Byte) : BitVec 512 := BitVec.ofNat 512 (leNat bs)

/-- Bytes of a payload. -/
def payBytes (p : BitVec 512) : List Byte := natLe 64 p.toNat

/-- Bit 0 of the step counter (R295). -/
def State.stepParity (s : State) : Nat := s.get Reg.FABR_STEP Fld.FABR_STEP.step % 2

/-! ### The mesh: routes and entry (R285, R288 to R293) -/

/-- Number of a port. -/
def portNum : MeshPort → Nat
  | .north => 0
  | .south => 1
  | .east => 2
  | .west => 3
  | .edge => 4
  | .localPort => 5

/-- Row and column of a node. -/
def rowOf (n : Nat) : Nat := n / 16
def colOf (n : Nat) : Nat := n % 16

/-- A port of a router leads off the grid to an edge station (R288). -/
def isEdge (node : Nat) : MeshPort → Bool
  | .north => rowOf node == 0
  | .south => rowOf node == 15
  | .east => colOf node == 15
  | .west => colOf node == 0
  | _ => false

/-- Node and edge port of the station that serves a towline lane (R288). -/
def laneStation (l : Nat) : Nat × MeshPort := if l < 48 then (l / 3 * 16 + 15, .east) else ((l - 48) / 3 * 16, .west)

/-- Station of a towline port: that of its lowest-numbered lane (R289). -/
def State.portStation (s : State) (p : Nat) : Nat × MeshPort :=
  laneStation (s.get (Reg.TOWL_PORT_MAP p) Fld.TOWL_PORT_MAP.base)

/-- Where a unicast barge leaves the grid or is delivered, seen from a node: the node, the output, and the towline port beyond it
plus one (R288 to R290). -/
def State.target (s : State) (node : Nat) (b : Barge) : Nat × Branch :=
  match b.exitPort with
  | some p => ((s.portStation p).1, ((s.portStation p).2, p.val + 1))
  | none =>
    let d := hDest.get b.header
    let k := d / 256
    if k = 1 then (colOf node, (.north, 0))
    else if k = 2 then (240 + colOf node, (.south, 0))
    else if k = 3 then ((s.portStation (d % 64)).1, ((s.portStation (d % 64)).2, 0))
    else if k = 4 then (if d % 2 = 0 then (127, (.east, 0)) else (112, (.west, 0)))
    else if k = 5 then (7, (.north, 0))
    else if k = 6 then (8, (.north, 0))
    else if k = 7 then (240, (.south, 0))
    else if k = 8 then (s.vmap (d % 256), (.localPort, 0))
    else (d % 256, (.localPort, 0))

/-- The output of a node toward a node: row first, or column first for class 1 (R290). -/
def toward (node dst : Nat) (cls : Nat) : Option MeshPort :=
  let h := if colOf node < colOf dst then some MeshPort.east else if colOf dst < colOf node then some .west else none
  let v := if rowOf node < rowOf dst then some MeshPort.south else if rowOf dst < rowOf node then some .north else none
  if cls = 1 then v.orElse fun _ => h else h.orElse fun _ => v

/-- The output of a unicast barge at a node (R290). -/
def State.routeOut (s : State) (node : Nat) (b : Barge) : Branch :=
  let (n, br) := s.target node b
  match toward node n (hClass.get b.header) with
  | some p => (p, 0)
  | none => br

/-- Beat in progress, or last begun, at a router. -/
def State.nodeBeat (s : State) (node : Nat) : Nat := (s.reach (reachOf node)).beat

/-- Width of a port (R285). -/
def widthOf (node : Nat) (p : MeshPort) : Nat :=
  match p with
  | .localPort => 4
  | .east => if isEdge node p then 4 else 2
  | .west => if isEdge node p then 4 else 2
  | _ => if isEdge node p then 6 else 4

/-- Barges injected through a port in beat `t`. -/
def injCount (l : List (Nat × Nat)) (t : Nat) : Nat := (l.find? fun e => e.1 == t).elim 0 (·.2)

/-- The first beat from `t` on in which a port of width `w` has room for another barge; `fuel` beats are looked at. -/
def injBeat (w : Nat) (l : List (Nat × Nat)) : Nat → Nat → Nat
  | 0, t => t
  | fuel + 1, t => if injCount l t < w then t else injBeat w l fuel (t + 1)

/-- Barges injected through a port, by beat. -/
def State.injAt (s : State) (node : Nat) (p : MeshPort) : List (Nat × Nat) := smGet [] s.mesh.inj (node * 8 + portNum p)

/-- Count an injection in beat `t`; beats that have passed are forgotten. -/
def State.noteInj (s : State) (node : Nat) (p : MeshPort) (t : Nat) : State :=
  let l := s.injAt node p
  let l' := (t, injCount l t + 1) :: l.filter fun e => e.1 != t && decide (s.nodeBeat node ≤ e.1)
  { s with mesh := { s.mesh with inj := smPut s.mesh.inj (node * 8 + portNum p) l' } }

/-- A barge takes its place in the order of arrival: by beat, and among the sources of one local port in one beat by their order
(R292). -/
def Flit.precedes (f x : Flit) : Bool :=
  decide (f.at_ < x.at_) ||
  (f.at_ == x.at_ && f.node == x.node && f.port == .localPort && x.port == .localPort && decide (f.src < x.src))

/-- Insert a barge among those of the routers. -/
def insertFlit (f : Flit) : List Flit → List Flit
  | [] => [f]
  | x :: t => if f.precedes x then f :: x :: t else x :: insertFlit f t

def State.addFlit (s : State) (f : Flit) : State := { s with mesh := { s.mesh with flits := insertFlit f s.mesh.flits } }

/-- The beat in which an input with width left takes a barge that is ready `d` beats from now (R285); where no beats pass, none counts
(log entry 15). -/
def State.takeWidth (s : State) (node : Nat) (p : MeshPort) (d : Nat) : State × Nat :=
  let t := s.nodeBeat node + d
  if s.beatless node then (s, t)
  else
    let l := s.injAt node p
    let t := injBeat (widthOf node p) l (l.length + 1) t
    (s.noteInj node p t, t)

/-- Put a unicast barge on the mesh at an input; an idle die wakes for it (R523). -/
def State.launch (s : State) (node : Nat) (p : MeshPort) (src d : Nat) (b : Barge) : State :=
  let (s, t) := (s.wakeOn 2).takeWidth node p d
  s.addFlit { node := node, port := p, via := 0, src := src, at_ := t, outs := [s.routeOut node b], barge := b }

/-- A barge with the exit field of R391. -/
def withExit (p bank : Nat) (b : Barge) : Barge :=
  if hp : p < 48 then { b with exitPort := some ⟨p, hp⟩, epochParity := bank == 1 } else b

/-- A barge comes to the exit station of a port in beat `at_` of its router. -/
def State.atExit (s : State) (p at_ : Nat) (b : Barge) : State :=
  let x := s.port p
  s.setPort p { x with tx := x.tx ++ [(at_, b)] }

/-- The station of the LOCK block, the step unit and the wharfinger's register path: that of the wharfinger complex, as no table of R31
or R288 names one (log entry 30). -/
def blockStation : Nat × MeshPort := (7, .north)

/-- A barge for a die-level block of this chip: for the wharfinger complex (R297), or, a register access, where it goes already. -/
def forStation (b : Barge) : Barge :=
  let h := if hType.get b.header = 0xA then b.header else hMcast.set (hDest.set b.header 0x500) 0
  { b with header := h, hcheck := encodeHeader h, exitPort := none }

/-- The barge of a die-level block as it is launched toward a chip: on-die for this chip itself (R392), else with the exit of the port
that the lookup gives; none where there is no route. -/
def State.routed (s : State) (chip : Nat) (b : Barge) : Option Barge :=
  if s.isHere chip then some (forStation b)
  else (s.lookup s.bank chip false).map fun r => withExit r.1 s.bank b

/-- Send a part of an error record from the block station in the next beat. One with no route is discarded with 0x5906, which is logged
here alone: it would have the same way (log entry 31). -/
def State.sendFwd (s : State) (chip : Nat) (b : Barge) : State :=
  match s.routed chip b with
  | some b => s.launch blockStation.1 blockStation.2 0 1 b
  | none => s.logLocal { code := 0x5906 }

/-- The payload of a REG barge: address, value, operation (0 read, 1 write, 2 reply), the sender's chip and the status
(log entry 6: the manual gives REG barges no layout). -/
def regPayload (addr : Nat) (v : Word) (op src status : Nat) : BitVec 512 :=
  BitVec.ofNat 512 (addr % 2 ^ 64 + v.toNat * 2 ^ 64 + op % 256 * 2 ^ 128 + src % 2 ^ 16 * 2 ^ 144 +
    status % 2 ^ 16 * 2 ^ 160)

/-- Where an access of an address goes on its chip: the core in whose window it lies, whose local port leads to its register path, or the
wharfinger complex (R285, R297; log entry 30). -/
def regDest (a : Nat) : Nat := if a < 0x400000000 then a / 0x4000000 else 0x500

/-- A REG barge of this chip: a register write or read of another (R401, R555, R600). -/
def State.regBarge (s : State) (chip addr : Nat) (v : Word) (op status : Nat) : Barge :=
  mkBarge (hdr3 0xA chip (regDest addr) 0 s.stepParity) (regPayload addr v op s.chipAddr status)

/-- Forward an error entry to the wharf of the step domain, in four writes of ERRS_FWD (R600). -/
def State.forwardErr (s : State) (chip : Nat) (r : ErrRec) : State :=
  [r.w0, r.w1, r.w2, r.w3].zipIdx.foldl (fun (t : State) w =>
    t.sendFwd chip (t.regBarge chip (Reg.ERRS_FWD w.2) w.1 1 0)) s

/-- Log an error and forward its entry to the wharf of the step domain where the member's mask asks for it (R555, R600). -/
def State.logErr (s : State) (e : Err) : State :=
  let t := s.logLocal e
  let lchip := s.get Reg.FABR_STEP_CFG Fld.FABR_STEP_CFG.lchip
  if !s.isWharf && s.hasBit Reg.ERRS_CTRL Fld.ERRS_CTRL.fwd_mask (e.code / 4096) && lchip != 0 && !s.intakeFull then
    t.forwardErr lchip (s.errRec e)
  else t

/-- Log an error of a core. -/
def State.logCore (s : State) (n code : Nat) (aux : Nat := 0) (info : Nat := 0) (tag : Option Nat := none) : State :=
  s.logErr { code := code, info := info, aux := aux, core := some n, tag := tag }

/-- Send a barge of a die-level block to a chip from a node's port in the next beat: routed, or discarded with 0x5906 (R391, R393). -/
def State.sendFrom (s : State) (node : Nat) (p : MeshPort) (src chip : Nat) (b : Barge) : State :=
  match s.routed chip b with
  | some b => s.launch node p src 1 b
  | none => s.logErr { code := 0x5906 }

/-- Send a barge of a die-level block to a chip from the block station. -/
def State.sendOut (s : State) (chip : Nat) (b : Barge) : State := s.sendFrom blockStation.1 blockStation.2 0 chip b

/-- Send a register write or read to another chip (R401). -/
def State.sendReg (s : State) (chip addr : Nat) (v : Word) (op status : Nat) : State :=
  s.sendOut chip (s.regBarge chip addr v op status)

/-- Bytes [i+n-1:i] of a payload as a number. -/
def payNat (b : Barge) (i n : Nat) : Nat := b.payload.toNat / 2 ^ (8 * i) % 2 ^ (8 * n)

/-- Fields of a REG barge's payload. -/
def regAddr (b : Barge) : Nat := payNat b 0 8 % 2 ^ 48
def regValue (b : Barge) : Word := BitVec.ofNat 64 (payNat b 8 8)
def regOp (b : Barge) : Nat := payNat b 16 1
def regSrc (b : Barge) : Nat := payNat b 18 2
def regStatus (b : Barge) : Nat := payNat b 20 2
def regAsker (b : Barge) : Nat := payNat b 22 4

/-- Where the reply to an access of an address enters the mesh, with its rank there (R285, R292): the local port of a core, as its
register path, which a fenced core keeps (R36), or the block station. -/
def replyAt (a : Nat) : Nat × MeshPort × Nat :=
  if a < 0x400000000 then (a / 0x4000000, .localPort, 6) else (blockStation.1, blockStation.2, 0)

/-- Answer a REG barge. -/
def State.answerReg (s : State) (b : Barge) (status : Nat) (v : Word) : State :=
  let chip := regSrc b
  let pay := (regPayload (regAddr b) v 2 s.chipAddr status).toNat + regAsker b * 2 ^ 176
  let (node, p, src) := replyAt (regAddr b)
  if s.isHere chip then s else s.sendFrom node p src chip (mkBarge (hdr3 0xA chip 0x500 0 s.stepParity) (BitVec.ofNat 512 pay))

/-- The outcome of an access of the register path goes to whom asked for it: status and data (R434, R449, R599). -/
def State.answer (s : State) (k : Asker) (status : Nat) (v : Word) : State :=
  match k with
  | .none => s
  | .i3c n =>
    if s.toll.i3cWait ∧ s.toll.i3cSeq = n then { s with toll := { s.toll with i3cWait := false, i3cAns := some (status, v) } } else s
  | .job id =>
    let upd := fun (j : Job) => if j.id = id then { j with asked := none, ans := some (status, v) } else j
    { s with host := { s.host with jobs := s.host.jobs.map upd } }
  | .chip b => s.answerReg b status v

/-! ### Memory (R247, R259, R262, R275 to R281, R590, R591) -/

/-- The memories of the device. -/
inductive MemKind where
  | basin
  | ocache
  | kimem
  | kdmem
  | wstore
  | hold (h : Nat)
  | none
  deriving DecidableEq, Repr

/-- The memory that a core-window offset lies in (R591). -/
def windowKind (o : Nat) : MemKind :=
  if o < 0x600000 then .basin
  else if o < 0x680000 then .ocache
  else if o < 0x690000 then .kimem
  else if o < 0x6A0000 then .kdmem
  else if 0x1000000 ≤ o ∧ o < 0x3000000 then .wstore
  else .none

/-- The memory that a device address lies in (R590). -/
def memKind (a : Nat) : MemKind :=
  if a < 0x400000000 then windowKind (a % 0x4000000)
  else if 0x1000000000 ≤ a ∧ a < 0x2000000000 then .hold 0
  else if 0x2000000000 ≤ a ∧ a < 0x3000000000 then .hold 1
  else .none

/-- The line of a device address. -/
def lineOf (a : Nat) : Nat := a / 32 * 32

/-- What a read of a line finds, from the difference between its stored check bits and R276's encoding (R277). -/
inductive LineStat where
  | ok
  | corrected
  | uncorrectable
  deriving DecidableEq, Repr

/-- Number of the data bit whose column is `c`, if one has it (R276). -/
def bitOfCol (c : Nat) : Option Nat := (List.range 256).find? fun i => hcol i == c

/-- The decision of R277. -/
def lineStat (m : BitVec 10) : LineStat :=
  let sy := m.toNat % 512
  let p := parity m.toNat 10
  if !p then if sy = 0 then .ok else .uncorrectable
  else if sy ≤ 265 then .corrected
  else .uncorrectable

/-- The bit of byte `i` of the line that a correction inverts. -/
def eccFlip (m : BitVec 10) (i : Nat) : Byte :=
  if lineStat m = .corrected then
    match bitOfCol (m.toNat % 512) with
    | some b => if b / 8 = i then BitVec.ofNat 8 (2 ^ (b % 8)) else 0
    | none => 0
  else 0

/-- Stored check-bit difference of a line. -/
def State.eccOf (s : State) (la : Nat) : BitVec 10 := smGet 0 s.ecc la

/-- The byte a read of device address `a` delivers: stored, with any correction of its line (R277). -/
def State.byte (s : State) (a : Nat) : Byte :=
  smGet 0 s.mem a ^^^ eccFlip (s.eccOf (lineOf a)) (a % 32)

/-- Store one byte in canonical form: a zero byte is unlisted. -/
def memPut (m : List Host.Cell) (a : Nat) (b : Byte) : List Host.Cell :=
  if b = 0 then smDel m a else smPut m a b

/-- Store bytes from `a` on. -/
def memPuts : List Host.Cell → Nat → List Byte → List Host.Cell
  | m, _, [] => m
  | m, a, b :: t => memPuts (memPut m a b) (a + 1) t

/-- The canonical form of memory: addresses strictly rising and no byte equal to what an unlisted address reads as. -/
def Memory.wf (m : List Host.Cell) : Bool := smSorted m && m.all fun c => c.2 != 0

/-- `n` bytes from `a` on, as read. -/
def State.bytes (s : State) (a : Nat) : Nat → List Byte
  | 0 => []
  | n + 1 => s.byte a :: s.bytes (a + 1) n

/-- 64-bit word at `a`. -/
def State.word (s : State) (a : Nat) : Word := BitVec.ofNat 64 (leNat (s.bytes a 8))

/-- Set the check-bit difference of a line. -/
def eccPut (e : SMap (BitVec 10)) (la : Nat) (m : BitVec 10) : SMap (BitVec 10) :=
  if m = 0 then smDel e la else smPut e la m

/-- Set the check-bit difference of `n` lines from `la` on. -/
def eccPuts : SMap (BitVec 10) → Nat → Nat → BitVec 10 → SMap (BitVec 10)
  | e, _, 0, _ => e
  | e, la, n + 1, m => eccPuts (eccPut e la m) (la + 32) n m

/-- Lines that `n` bytes from `a` on touch. -/
def linesIn (a n : Nat) : Nat := if n = 0 then 0 else (a + n - 1) / 32 - a / 32 + 1

/-- Write whole lines: bytes stored and encoded, or encoded as poison (R276, R278). -/
def State.writeMem (s : State) (a : Nat) (bs : List Byte) (poison : Bool) : State :=
  { s with
    mem := memPuts s.mem a bs
    ecc := eccPuts s.ecc (lineOf a) (linesIn a bs.length) (if poison then 3 else 0) }

/-- Lines in error among those that `n` bytes from `a` on touch, with whether each is uncorrectable. -/
def State.badLines (s : State) (a n : Nat) : List (Nat × Bool) :=
  (s.ecc.filter fun c => decide (0 < n ∧ a < c.1 + 32 ∧ c.1 < a + n) && lineStat c.2 != .ok).map fun c =>
    (c.1, lineStat c.2 == .uncorrectable)

/-- Some line touched is uncorrectable. -/
def State.anyUe (s : State) (a n : Nat) : Bool := (s.badLines a n).any (·.2)

/-- Code of an uncorrectable line by memory (R280). -/
def MemKind.ueCode : MemKind → Nat
  | .basin => 0x2501
  | .wstore => 0x2502
  | .hold _ => 0x2503
  | .ocache => 0x2504
  | .kimem => 0x2505
  | .kdmem => 0x2505
  | .none => 0x2401

/-- Record a line in error in MEM_ECC, MEM_ERR or HOLD_ERR (R269, R281). While ue_valid is 1, last_addr names an uncorrectable line, so
a corrected one leaves it (log entry 16). -/
def State.countEcc (s : State) (la : Nat) (ue : Bool) : State :=
  match memKind la with
  | .hold h =>
    let a := Reg.HOLD_ERR h
    if ue then ((s.addSat a Fld.HOLD_ERR.ue_count 1).hwSet a Fld.HOLD_ERR.ue_valid 1).put a Fld.HOLD_ERR.last_addr
      (la % 0x1000000000 / 32)
    else
      let s := s.addSat a Fld.HOLD_ERR.ce_count 1
      if s.get a Fld.HOLD_ERR.ue_valid = 1 then s else s.put a Fld.HOLD_ERR.last_addr (la % 0x1000000000 / 32)
  | .none => s
  | k =>
    let n := la / 0x4000000
    let a := Reg.MEM_ECC n
    if ue then
      let e := Reg.MEM_ERR n
      if s.get e Fld.MEM_ERR.valid = 1 then s.hwSet e Fld.MEM_ERR.valid 1
      else
        let id := match k with
          | .basin => 0
          | .ocache => 1
          | .wstore => 2
          | .kimem => 3
          | _ => 4
        ((s.hwSet e Fld.MEM_ERR.valid 1).put e Fld.MEM_ERR.mem id).put e Fld.MEM_ERR.offset (la % 0x4000000 / 32)
    else match k with
      | .basin => s.addSat a Fld.MEM_ECC.basin_ce 1
      | .ocache => s.addSat a Fld.MEM_ECC.ocache_ce 1
      | .wstore => s.addSat a Fld.MEM_ECC.wstore_ce 1
      | _ => s.addSat a Fld.MEM_ECC.keeper_ce 1

/-- Record lines in error and log each code not yet logged, naming the first line of each code (R280). Answers the codes
logged since. -/
def State.noteLines (s : State) (ls : List (Nat × Bool)) (core tag : Option Nat) (logged : List Nat) :
    State × List Nat :=
  ls.foldl (fun (acc : State × List Nat) l =>
    let code := if l.2 then (memKind l.1).ueCode else 0x1501
    let t := acc.1.countEcc l.1 l.2
    let t := if l.2 then t.put Reg.DTRM_STAT Fld.DTRM_STAT.poison 1 else t
    if acc.2.contains code then (t, acc.2)
    else (t.logErr { code := code, info := l.1, core := core, tag := tag }, code :: acc.2)) (s, logged)

/-- All 256 bits of a line. -/
def fullLine : Nat := 2 ^ 256 - 1

/-- Write the bits of `mask` of a line: the line is read, merged and encoded again. A write of part of an uncorrectable line
leaves poison (R164, R278). -/
def State.mergeLine (s : State) (la mask val : Nat) (poison : Bool) : State :=
  let bad := lineStat (s.eccOf la) == .uncorrectable && mask != fullLine
  let old := leNat (s.bytes la 32)
  s.writeMem la (natLe 32 ((old &&& (fullLine - mask)) ||| (val &&& mask))) (bad || poison)

/-- The reach of core `n` has a beat in progress, and its pacer runs. -/
def State.beatOn (s : State) (n : Nat) : Bool := !(s.reach (reachOf n)).complete && !(s.reach (reachOf n)).stopped

/-- A line of the operand cache or the weight store, in a core whose reach has a beat in progress: what is written there in the
beat is not read in it (R152, R261). -/
def State.defers (s : State) (la : Nat) : Bool :=
  (memKind la == .ocache || memKind la == .wstore) && s.beatOn (la / 0x4000000)

/-- A writer's write of the bits of `mask` of a line. -/
def State.lineWrite (s : State) (rank la mask val : Nat) (poison : Bool) : State :=
  if s.defers la then
    let n := la / 0x4000000
    let c := s.core n
    s.setCore n { c with later := c.later ++ [⟨rank, la, mask, val, poison⟩] }
  else s.mergeLine la mask val poison

/-- Make the writes that a core's beat has deferred, in the order of R152. -/
def State.flushWrites (s : State) (n : Nat) : State :=
  let c := s.core n
  if c.later.isEmpty then s
  else ((List.range 5).flatMap fun k => c.later.filter (·.rank == k)).foldl
    (fun (t : State) w => t.mergeLine w.line w.mask w.val w.poison) (s.setCore n { c with later := [] })

/-- Bits of `n` bytes from byte `i` of a line on. -/
def byteMask (i n : Nat) : Nat := (2 ^ (8 * n) - 1) <<< (8 * i)

/-- A writer's write of bytes within one line. -/
def State.storeBytes (s : State) (rank a : Nat) (bs : List Byte) : State :=
  s.lineWrite rank (lineOf a) (byteMask (a % 32) bs.length) (leNat bs <<< (8 * (a % 32))) false

/-- A narrow write of bytes within one line (R164, R278). -/
def State.writeNarrow (s : State) (a : Nat) (bs : List Byte) : State :=
  s.mergeLine (lineOf a) (byteMask (a % 32) bs.length) (leNat bs <<< (8 * (a % 32))) false

/-- A write of part of a line reads it first: its errors are counted and logged (R164, R279, R280, R345). -/
def State.noteStore (s : State) (a len : Nat) (core : Option Nat) : State :=
  if len = 32 then s else (s.noteLines (s.badLines (lineOf a) 32) core none []).1

/-- Data bound for a hold wakes the die: as a barge's would, and in Still as an access of the hold (R523). -/
def State.wakeForHold (s : State) : State := s.wakeOn (if s.idle.state = 3 then 3 else 2)

/-- Write bytes anywhere: whole lines as such, parts of lines as narrow writes (R278). -/
def State.writeAny (s : State) (a : Nat) (bs : List Byte) : State :=
  (List.range (linesIn a bs.length)).foldl (fun (t : State) i =>
    let la := lineOf a + 32 * i
    let lo := max a la
    let part := (bs.drop (lo - a)).take (la + 32 - lo)
    if part.length = 32 then t.writeMem lo part false else t.writeNarrow lo part) s

end Sys2Proof.Machine
end

