-- ==== Sys2Proof/Machine/Pacing.lean ====
section
/-! DEFINITION. Pacers, vanes and retunes (R47 to R80), but for the token itself and its completion. -/

namespace Sys2Proof.Machine

/-- The answer of every meaning that changes the state. -/
abbrev Out := Host.Outcome State Fault Refusal

/-- The operating-point ceiling (R65). -/
def State.ceil (s : State) : Nat := s.get Reg.LIMS_OP_CEIL Fld.LIMS_OP_CEIL.ceil

/-- Set target_op and request a retune where it differs from current_op (R74). -/
def State.setTarget (s : State) (r t : Nat) : State :=
  let a := Reg.PACE_OPSEL r
  let s := s.put a Fld.PACE_OPSEL.target_op t
  if t ≠ s.get a Fld.PACE_OPSEL.current_op then s.put a Fld.PACE_OPSEL.busy 1 else s

/-- A requested point under the ceiling, or discarded with 0x3101 (R65). -/
def State.requestOp (s : State) (r t : Nat) : State :=
  if s.ceil < t then s.logErr { code := 0x3101, aux := r } else s.setTarget r t

/-- A write of PACE_OPSEL_r (R65, R74, R80). -/
def State.writeOpsel (s : State) (r : Nat) (v : Word) : State :=
  let a := Reg.PACE_OPSEL r
  let m := s.mark a
  let s := if Fld.PACE_OPSEL.settle_fail.get (v &&& ~~~ m.set) = 1 then s.put a Fld.PACE_OPSEL.settle_fail 0 else s
  let t := Fld.PACE_OPSEL.target_op.get v
  let s := if t ≤ s.ceil then s.setMark a { m with wrote := m.wrote ||| Fld.PACE_OPSEL.target_op.set 0 15 } else s
  s.requestOp r t

/-- A write of VANE_THRESH (R73). -/
def State.writeVaneThresh (s : State) (v : Word) : State :=
  if Fld.VANE_THRESH.warn.get v ≤ Fld.VANE_THRESH.crit.get v then s.logErr { code := 0x3103 }
  else s.plainWrite Reg.VANE_THRESH v

/-- Every reach stands in die beat 0, begun now (R52, R364); what happened to registers in earlier beats is past. -/
def State.restartBeats (s : State) : State :=
  let s := s.unmarked
  ((List.range 16).foldl (fun t r => t.setReach r { t.reach r with
    beat := 0, tokenAt := t.now, ticked := false, complete := false, withheld := false }) s).put Reg.PACE_BEAT
      Fld.PACE_BEAT.die_beat 0

/-- The tick of reach `r` falls due (R49). -/
def State.tick (s : State) (r : Nat) : State :=
  let x := s.reach r
  if x.ticked ∨ x.stopped then s
  else
    let due := x.tokenAt + s.period r
    let s := s.advanceTo due
    s.setReach r { x with ticked := true, tickAt := due, heldAtTick := s.die.heldPs }

/-- PACER_TICK (R49). -/
def execPacerTick (r : Fin 16) (s : State) : Out := .next (s.tick r)

/-- The eight vane fields of VANE_MARGIN_r (R80). -/
def vaneField (v : Nat) : BitField := ⟨8 * v, 8⟩

/-- End of a window of reach `r`: VANE_MARGIN_r takes the lowest codes; warnings (R68, R69). -/
def State.windowEnd (s : State) (r : Nat) : State :=
  let x := s.reach r
  let warn := s.get Reg.VANE_THRESH Fld.VANE_THRESH.warn
  let arm := warn + s.get Reg.VANE_THRESH Fld.VANE_THRESH.hyst
  let s := (List.range 8).foldl (fun t v => t.put (Reg.VANE_MARGIN r) (vaneField v) (x.winLow.getD v 255)) s
  let good := (List.range 8).filter fun v => decide (arm < x.winLow.getD v 255)
  let rearmed := if x.warned then (List.range 8).filter fun v => x.rearmed.contains v || good.contains v else []
  let warned := x.warned && rearmed.length < 8
  let low := (List.range 8).find? fun v => decide (x.winLow.getD v 255 ≤ warn)
  let y := { x with
    winLow := List.replicate 8 255, winBeats := 0, warned := warned, rearmed := rearmed
    goodSince := if good.length = 8 then (if x.goodSince = 0 then s.now else x.goodSince) else 0 }
  match low with
  | some v =>
    if warned then s.setReach r y
    else (s.setReach r { y with warned := true, rearmed := [] }).logErr
      { code := 0x4101, aux := r, info := v * 256 + x.winLow.getD v 255 }
  | none => s.setReach r y

/-- VANE_WINDOW_END (R68). -/
def execVaneWindowEnd (r : Fin 16) (s : State) : Out :=
  if 4096 ≤ (s.reach r).winBeats then .next (s.windowEnd r) else .next s

/-- The vanes of reach `r` measure in a beat (R67, R68, R70). The reach leaves critical in the first beat in which no vane stands at or
below crit (log entry 31). -/
def State.measure (s : State) (r : Nat) (codes : List Byte) : State :=
  let s := if 4096 ≤ (s.reach r).winBeats then s.windowEnd r else s
  let x := s.reach r
  let crit := s.get Reg.VANE_THRESH Fld.VANE_THRESH.crit
  let cs := (List.range 8).map fun v => (codes.getD v 255).toNat
  let runs := (List.range 8).map fun v => if cs.getD v 255 ≤ crit then x.critRun.getD v 0 + 1 else 0
  s.setReach r { x with
    winLow := (List.range 8).map fun v => min (x.winLow.getD v 255) (cs.getD v 255)
    winBeats := x.winBeats + 1
    critRun := runs
    lastCode := cs
    critical := x.critical && runs.any (0 < ·) }

/-- A vane has stood at or below crit for 4 consecutive beats (R70, R71). Where a write sets target_op in the same beat, the request is
discarded (R17). -/
def State.vaneCritical (s : State) (r : Nat) : State :=
  let x := s.reach r
  let a := Reg.PACE_OPSEL r
  match (List.range 8).find? fun v => decide (4 ≤ x.critRun.getD v 0) with
  | none => s
  | some v =>
    if x.critical ∨ s.get a Fld.PACE_OPSEL.auto_down = 1 ∧ s.get a Fld.PACE_OPSEL.busy = 1 then s
    else
      let s := s.setReach r { x with critical := true }
      let s := s.logErr { code := 0x4102, aux := r, info := v * 256 + x.lastCode.getD v 0 }
      let cur := s.get a Fld.PACE_OPSEL.current_op
      if s.get Reg.VANE_THRESH Fld.VANE_THRESH.auto_down = 1 ∧ 0 < cur then
        if s.written a Fld.PACE_OPSEL.target_op then s
        else ((s.setReach r { s.reach r with vaneAsked := true }).put a Fld.PACE_OPSEL.auto_down 1).setTarget r (cur - 1)
      else s

/-- VANE_CRITICAL (R70). -/
def execVaneCritical (r : Fin 16) (s : State) : Out := .next (s.vaneCritical r)

/-- VANE_THRESH_WRITE (R73). -/
def execVaneThreshWrite (v : Word) (s : State) : Out := .next (s.writeVaneThresh v)

/-- TARGET_OP_WRITE (R74). -/
def execTargetOpWrite (r : Fin 16) (v : Word) (s : State) : Out := .next (s.writeOpsel r v)

/-- A stop is in progress in reach `r`. -/
def Reach.inStop (x : Reach) : Bool := x.retune = .moving || x.retune = .calibrating || x.retune = .secondStop

/-- A hold request of a retuning reach (R76). -/
def retuneReq (r : Fin 16) : HoldReq := { cause := .retune r, core := 256, unit := none }

/-- Reach `r` enters a retune stop (R76); in Lull without a hold request (R79). -/
def State.enterStop (s : State) (r : Fin 16) : State :=
  let a := Reg.PACE_OPSEL r
  let s := s.setReach r { s.reach r with
    retune := .moving, stopAt := s.now, vaneAsked := false
    oldOp := s.get a Fld.PACE_OPSEL.current_op
    newOp := s.get a Fld.PACE_OPSEL.target_op }
  if s.idle.state = 0 then s.holdOn (retuneReq r) else s

/-- Reaches whose retune is requested and not begun. -/
def State.retuneWanted (s : State) : List (Fin 16) :=
  (List.finRange 16).filter fun r =>
    s.get (Reg.PACE_OPSEL r) Fld.PACE_OPSEL.busy == 1 && (s.reach r).retune == .none

/-- A retune stop begins: every pending request is served in it (R74 to R76, R78, R79). -/
def State.retuneStop (s : State) : State :=
  let rs := s.retuneWanted
  if rs.isEmpty ∨ (List.finRange 16).any (fun r => (s.reach r).inStop) ∨ 2 ≤ s.idle.state then s
  else
    let s := if s.idle.state = 0 then s.addSat Reg.PACE_HOLD_CNT Fld.PACE_HOLD_CNT.retune_holds 1 else s
    rs.foldl State.enterStop s

/-- RETUNE_STOP (R76). -/
def execRetuneStop (s : State) : Out := .next s.retuneStop

/-- REGULATOR_SETTLED (R76, R77). -/
def execRegulatorSettled (r : Fin 16) (s : State) : Out :=
  let x := s.reach r
  match x.retune with
  | .moving => .next (s.setReach r { x with retune := .calibrating })
  | .failed =>
    let s := s.setReach r { x with retune := .secondStop, stopAt := s.now }
    let s := if s.idle.state = 0 then s.addSat Reg.PACE_HOLD_CNT Fld.PACE_HOLD_CNT.retune_holds 1 else s
    .next (if s.idle.state = 0 then s.holdOn (retuneReq r) else s)
  | _ => .next s

/-- A vane's retune to point `p` lowers the policy's cap, which then waits for good windows of that reach (R519). -/
def State.capFollows (s : State) (r p : Nat) (byVane : Bool) : State :=
  if !byVane then s
  else
    let s := if p < s.get Reg.IDLE_PHASE Fld.IDLE_PHASE.cap then s.hwPut Reg.IDLE_PHASE Fld.IDLE_PHASE.cap p else s
    s.setReach r { s.reach r with capWatch := true, goodSince := 0 }

/-- Steps 4 and 5 of R76; auto_down stays with a vane's request that still waits, and the policy's cap follows a vane's retune
(R519). A reach never runs above a ceiling lowered meanwhile (R65). -/
def State.retuneDone (s : State) (r : Fin 16) : State :=
  let x := s.reach r
  let a := Reg.PACE_OPSEL r
  let byVane := s.get a Fld.PACE_OPSEL.auto_down == 1 && !x.vaneAsked
  let again := decide (s.get a Fld.PACE_OPSEL.target_op ≠ x.newOp)
  let s := s.put a Fld.PACE_OPSEL.current_op (min x.newOp s.ceil)
  let s := s.addTo a Fld.PACE_OPSEL.retune_count 1
  let s := if again && x.vaneAsked then s else s.put a Fld.PACE_OPSEL.auto_down 0
  let s := s.put a Fld.PACE_OPSEL.busy (if again then 1 else 0)
  let s := s.setReach r { x with
    retune := .none, critical := x.vaneAsked && again, critRun := List.replicate 8 0, vaneAsked := x.vaneAsked && again }
  (s.capFollows r (min x.newOp s.ceil) byVane).holdOff fun h => h.cause == .retune r

/-- RETUNE_COMPLETE (R76); after a failed stop, the second stop serves the point that the first one served, and a target written
between the two waits for a stop of its own (log entry 30). -/
def execRetuneComplete (r : Fin 16) (s : State) : Out :=
  match (s.reach r).retune with
  | .calibrating => .next (s.retuneDone r)
  | .secondStop => .next (s.retuneDone r)
  | _ => .next s

/-- SETTLE_TIMEOUT (R77): 2.4 µs into the stop. -/
def execSettleTimeout (r : Fin 16) (s : State) : Out :=
  let x := s.reach r
  if x.retune ≠ .moving then .next s
  else
    let s := s.advanceTo (x.stopAt + 2400000)
    let a := Reg.PACE_OPSEL r
    let s := s.put a Fld.PACE_OPSEL.current_op (min s.ceil (min x.oldOp x.newOp))
    let s := s.hwSet a Fld.PACE_OPSEL.settle_fail 1
    let s := s.setReach r { x with retune := .failed, failAt := s.now }
    let s := s.logErr { code := 0x4103, aux := r }
    .next (s.holdOff fun h => h.cause == .retune r)

/-- SECOND_STOP_TIMEOUT (R77): 50 µs with no second stop. Where a write of the same beat has set target_op (R17), or a lowered ceiling
asks for a lower point (R65), that is a request of its own. -/
def execSecondStopTimeout (r : Fin 16) (s : State) : Out :=
  let x := s.reach r
  if x.retune ≠ .failed then .next s
  else
    let s := s.advanceTo (x.failAt + 50000000)
    let a := Reg.PACE_OPSEL r
    let s := s.hwPut a Fld.PACE_OPSEL.target_op (min s.ceil (min x.oldOp x.newOp))
    let s := s.put a Fld.PACE_OPSEL.busy
      (if s.get a Fld.PACE_OPSEL.target_op = s.get a Fld.PACE_OPSEL.current_op then 0 else 1)
    let s := s.setReach r { x with retune := .none, vaneAsked := false }
    .next (s.logErr { code := 0xF000, aux := r })

end Sys2Proof.Machine
end

