-- ==== Sys2Proof/Machine/CoreOps.lean ====
section
/-! DEFINITION. Operations shared by the units of a core: its status registers, FAULT, queues (R184 to R189), lock counters and
barrier slots (R315 to R340), and the translation of virtual cores. -/

namespace Sys2Proof.Machine

/-! ### Status of a core (R203 to R208) -/

/-- Some macro-op of the A-stream runs. -/
def Core.aRuns (c : Core) : Bool := c.feeder.isSome || c.sluice.any Option.isSome

/-- Some macro-op of the X-stream runs. -/
def Core.xRuns (c : Core) : Bool := c.array.isSome || c.vector.isSome

/-- State of a stream as CORE_STAT reports it: 0 idle, 1 running, 2 head waiting, 3 stopped (R208); a macro-op that runs comes first
(log entry 31). -/
def streamCode (st : Nat) (runs waits : Bool) : Nat :=
  if runs then 1 else if st = stFault then 3 else if waits then 2 else 0

/-- Entries of the queues as QUEUE_STAT.count packs them (R208). -/
def Core.queueCounts (c : Core) : Nat :=
  (List.range 8).foldl (fun acc q => acc + (c.queues.getD q []).length * 2 ^ (5 * q)) 0

/-- Bring the registers that show a core's hidden state up to date (R208, R314). While a step is pending in HALTED, keep_state is 1
(log entry 31). -/
def State.refresh (s : State) (n : Nat) : State :=
  let c := s.core n
  let st := s.coreState n
  let a := Reg.CORE_STAT n
  let keep :=
    if st = stFault then 2
    else if st = stHalted then (if c.kstep then 1 else 2)
    else if st = stRunning ∧ c.kwait ≠ .none then 1
    else 0
  let s := s.put a Fld.CORE_STAT.x_state (streamCode st c.xRuns (!c.xFifo.isEmpty))
  let s := s.put a Fld.CORE_STAT.a_state (streamCode st c.aRuns (!c.aFifo.isEmpty))
  let s := s.put a Fld.CORE_STAT.keep_state keep
  let s := s.put (Reg.QUEUE_STAT n) Fld.QUEUE_STAT.count c.queueCounts
  let s := s.put (Reg.ASTREAM_STAT n) Fld.ASTREAM_STAT.fifo c.aFifo.length
  let s := s.put (Reg.XSTREAM_STAT n) Fld.XSTREAM_STAT.fifo c.xFifo.length
  s.put (Reg.INGRESS_STAT n) Fld.INGRESS_STAT.held c.ingress.length

/-- The hold requests a core's keeper has raised. -/
def keeperHold (n : Nat) (h : HoldReq) : Bool := h.core == n && h.unit.isNone

/-- A core enters FAULT with a code; its keeper stops and waits for nothing (R204, R205). -/
def State.faultCore (s : State) (n code : Nat) : State :=
  let st := s.coreState n
  if st = stRunning ∨ st = stHalted then
    let a := Reg.CORE_STAT n
    let s := s.put a Fld.CORE_STAT.state stFault
    let s := s.put a Fld.CORE_STAT.fault_err code
    let s := s.setCore n { s.core n with kwait := .none, kstep := false }
    (s.holdOff (keeperHold n)).refresh n
  else s

/-- Log an error of a core and put the core in FAULT with its code. -/
def State.failCore (s : State) (n code : Nat) (aux : Nat := 0) (info : Nat := 0) (tag : Option Nat := none) : State :=
  (s.logCore n code aux info tag).faultCore n code

/-! ### Queues (R184 to R188) -/

/-- QUEUE_CFG field of queue `q`: producer in bits 1:0, consumer in bits 3:2; 0 keeper, 1 A, 2 X, 3 unused (R208). -/
def State.queueCfg (s : State) (n q : Nat) : Nat := s.get (Reg.QUEUE_CFG n) ⟨4 * q, 4⟩

/-- The queue is used, and its producer is issuer `w` (R184). -/
def State.produces (s : State) (n q w : Nat) : Bool :=
  let c := s.queueCfg n q
  c % 4 = w && c % 4 ≠ 3 && c / 4 ≠ 3

/-- The queue is used, and its consumer is issuer `w` (R184). -/
def State.consumes (s : State) (n q w : Nat) : Bool :=
  let c := s.queueCfg n q
  c / 4 = w && c % 4 ≠ 3 && c / 4 ≠ 3

/-- Replace bytes `i` on of a list. -/
def putBytes (l : List Byte) (i : Nat) (bs : List Byte) : List Byte := l.take i ++ bs ++ l.drop (i + bs.length)

/-- An entry with the beat and seq that hardware writes (R185). -/
def stampEntry (e : List Byte) (beat seq : Nat) : List Byte :=
  putBytes (putBytes e 20 (natLe 4 (beat % 2 ^ 32))) 18 (natLe 2 (seq % 2 ^ 16))

/-- Note a queue misuse: its bit in fault_q and the log entry (R188). -/
def State.queueErr (s : State) (n q code : Nat) (tag : Option Nat := none) : State :=
  (s.hwSet (Reg.QUEUE_STAT n) Fld.QUEUE_STAT.fault_q (2 ^ q)).logCore n code q 0 tag

/-- Store a push (R187). -/
def State.pushNow (s : State) (n q : Nat) (e : List Byte) (beat : Nat) : State :=
  let c := s.core n
  let seq := c.qseq.getD q 0
  let ent : QEntry := ⟨beat, stampEntry e beat seq⟩
  (s.setCore n { c with
    queues := c.queues.set q (c.queues.getD q [] ++ [ent])
    qseq := c.qseq.set q ((seq + 1) % 65536) }).refresh n

/-- Push an entry in the beat in progress; a push that finds 16 entries waits for the pops of the beat (R187). -/
def State.push (s : State) (n q : Nat) (e : List Byte) : State :=
  let c := s.core n
  let b := s.beatOf n
  if (c.queues.getD q []).length < 16 then s.pushNow n q e b
  else s.setCore n { c with qlate := c.qlate ++ [(q, e, b)] }

/-- Apply the pushes that waited for pops: into room the pops made, or, at the end of their beat, as overflows (R187, R188). -/
def State.latePushes (s : State) (n : Nat) (ended : Bool) : State :=
  let c := s.core n
  let s := if c.qlate.isEmpty then s else s.setCore n { c with qlate := [] }
  (c.qlate).foldl (fun t (x : Nat × List Byte × Nat) =>
    let k := t.core n
    if (k.queues.getD x.1 []).length < 16 then t.pushNow n x.1 x.2.1 x.2.2
    else if ended then (t.queueErr n x.1 0x3802).faultCore n 0x3802
    else t.setCore n { k with qlate := k.qlate ++ [x] }) s

/-- The head of queue `q`, if it was present when the beat in progress began (R187). -/
def State.poppable (s : State) (n q : Nat) : Option QEntry :=
  match (s.core n).queues.getD q [] with
  | e :: _ => if e.beat < s.beatOf n then some e else none
  | [] => none

/-- Pop the head of a queue. -/
def State.pop (s : State) (n q : Nat) : State :=
  let c := s.core n
  ((s.setCore n { c with queues := c.queues.set q ((c.queues.getD q []).drop 1) }).refresh n).latePushes n false

/-! ### Lock counters (R315 to R323) -/

/-- Count of a counter. -/
def State.lockCount (s : State) (n i : Nat) : Nat := s.get (Reg.LOCK_CNT n i) Fld.LOCK_CNT.count

/-- Record a lock error in LOCK_ERR where it is the first since valid was last 0 (R323, R603); a later one of the beat keeps valid set
against a clearing write (R16). -/
def State.recordLock (s : State) (code core issuer index n : Nat) : State :=
  let a := Reg.LOCK_ERR
  if s.get a Fld.LOCK_ERR.valid = 1 then s.hwSet a Fld.LOCK_ERR.valid 1
  else (s.setReg a (BitVec.ofNat 64 (code % 65536 * 2 ^ 32 + core % 256 * 2 ^ 24 + issuer % 4 * 2 ^ 22 +
    index % 64 * 2 ^ 16 + n % 65536))).hwSet a Fld.LOCK_ERR.valid 1

/-- A lock error of a core: recorded where it is the first (R603), and logged. -/
def State.lockErr (s : State) (code core issuer index n : Nat) : State :=
  (s.recordLock code core issuer index n).logCore core code index

/-- A SIGNAL applied in the beat in progress; it joins the count when the beat ends (R317, R321). -/
def State.signal (s : State) (n i k src issuer : Nat) : State :=
  if k = 0 then s
  else
    let c := s.core n
    s.setCore n { c with sigs := c.sigs ++ [⟨i, k, src, issuer⟩] }

/-- Serve `k` from a counter (R317). -/
def State.serve (s : State) (n i k : Nat) : State :=
  let a := Reg.LOCK_CNT n i
  let c := s.core n
  (s.put a Fld.LOCK_CNT.count (s.get a Fld.LOCK_CNT.count - k)).setCore n
    { c with served := smPut c.served i (smGet 0 c.served i + k) }

/-- The order of R603 among the signals of one beat. -/
def Sig.before (a b : Sig) : Bool :=
  if (a.issuer == 3) != (b.issuer == 3) then b.issuer == 3
  else if a.core ≠ b.core then decide (a.core < b.core)
  else decide (a.issuer < b.issuer)

/-- The first signal in the order of R603. -/
def firstSig : List Sig → Sig
  | [] => ⟨0, 0, 0, 3⟩
  | a :: t => t.foldl (fun m x => if x.before m then x else m) a

/-- Step 3 of R317 for one counter: the beat's signals join the count together (R319), and the lock source of capture (R557). -/
def State.foldCtr (s : State) (n i : Nat) (l : List Sig) : State :=
  let a := Reg.LOCK_CNT n i
  let sum := (l.map (·.n)).foldl (· + ·) 0
  let tot := s.get a Fld.LOCK_CNT.count + sum
  let s := s.addTo a Fld.LOCK_CNT.sig_count l.length
  let s := s.put a Fld.LOCK_CNT.count (min tot 65535)
  let s := if tot > 65535 then
      (s.hwSet a Fld.LOCK_CNT.ovf 1).lockErr 0x3302 n (firstSig l).issuer i sum
    else s
  let k := Reg.SNAP_LOCK
  if s.get k Fld.SNAP_LOCK.kind = 0 ∧ s.get k Fld.SNAP_LOCK.core = n ∧ s.get k Fld.SNAP_LOCK.index = i ∧ s.get k Fld.SNAP_LOCK.value ≤ min tot 65535
  then s.trigger 2 0 (s.beatOf n) else s

/-- The signals of the beat that ends join their counters (R317). -/
def State.foldSigs (s : State) (n : Nat) : State :=
  let c := s.core n
  let s := if c.sigs.isEmpty ∧ c.served.isEmpty then s else s.setCore n { c with sigs := [], served := [] }
  (List.range 32).foldl (fun t i =>
    let l := c.sigs.filter (·.ctr == i)
    if l.isEmpty then t else t.foldCtr n i l) s

/-! ### The sync plane (R324, R325) -/

/-- A signal from core `n` to a physical core of this die (R324, R325). -/
def State.signalTo (s : State) (n target i k issuer : Nat) : State :=
  if k = 0 then s
  else if target = n then s.signal n i k n issuer
  else
    let apply := s.beatOf n + s.lat 21 + hops n target
    { s with locks := { s.locks with sync := s.locks.sync ++ [⟨target, i, k, apply, n, issuer⟩] } }

/-- Apply the signals that are due at core `n` (R325). -/
def State.applySync (s : State) (n : Nat) : State :=
  let b := s.beatOf n
  let due := s.locks.sync.filter fun x => x.core == n && decide (x.apply ≤ b)
  let s := { s with locks := { s.locks with sync := s.locks.sync.filter fun x => !(x.core == n && decide (x.apply ≤ b)) } }
  due.foldl (fun t x => t.signal n x.ctr x.n x.src x.issuer) s

/-! ### Barrier slots (R334 to R339) -/

/-- Participants of a slot (R334). -/
def State.slotCores (s : State) (i : Nat) : List Nat :=
  (List.range 256).filter fun n => s.hasBit (Reg.LOCK_SLOT_MASK i (n / 64)) ⟨0, 64⟩ (n % 64)

/-- Generation that a leader's slot collects; it wraps at 16 bits as gen does (R337, R341). -/
def Slot.gen (x : Slot) : Nat := (x.sent + 1) % 65536

/-- Show a slot's counts (R341). -/
def State.showSlot (s : State) (i : Nat) : State :=
  let x := s.slot i
  let a := Reg.LOCK_SLOT_STAT i
  let s := s.put a Fld.LOCK_SLOT_STAT.early x.early.length
  let s := s.put a Fld.LOCK_SLOT_STAT.arrived x.arrived.length
  s.put a Fld.LOCK_SLOT_STAT.chips_in ((x.chips.filter fun p => p.1 == x.gen).length)

/-- Payload of a SIGNAL barge (R333). -/
def signalPayload (gen src apply kind index n : Nat) : BitVec 512 :=
  BitVec.ofNat 512 (n % 65536 + index % 256 * 2 ^ 16 + kind % 256 * 2 ^ 24 + apply % 2 ^ 32 * 2 ^ 32 +
    src % 65536 * 2 ^ 80 + gen % 65536 * 2 ^ 96)

/-- Latency every cross-chip signal adds (R328, R341). -/
def State.xlat (s : State) : Nat := s.get Reg.LOCK_XLAT Fld.LOCK_XLAT.beats

/-- Entries in the pending store as LOCK_XLAT shows them. -/
def State.showPend (s : State) : State :=
  let f := Fld.LOCK_XLAT.pending
  if s.get Reg.LOCK_XLAT f = s.locks.pend.length % 2 ^ f.width then s else s.put Reg.LOCK_XLAT f s.locks.pend.length

/-- Word 0 of a tree entry (R396): output ports, input port, local delivery, valid; word 1 holds the root. -/
def treeOut : BitField := ⟨0, 48⟩
def treeIn : BitField := ⟨48, 6⟩
def treeLocal : BitField := ⟨62, 1⟩
def treeValid : BitField := ⟨63, 1⟩
def treeRoot : BitField := ⟨48, 16⟩

/-- Send one barge of a die-level block along every output port of a tree: a copy for each of their stations (R337, R396). -/
def State.sendTree (s : State) (tree : Nat) (b : Barge) : State :=
  let w := s.treeWord s.bank tree 0
  if treeValid.get w = 0 then s
  else (List.range 48).foldl (fun t p => if (treeOut.get w).testBit p then
      t.launch blockStation.1 blockStation.2 0 1 (withExit p s.bank b) else t) s

/-- Step beat of core `n` (R328). -/
def State.stepBeat (s : State) (n : Nat) : Nat := s.beatOf n - (s.core n).stepBeat0

/-- Core `n` is in step (R199). -/
def State.inStep (s : State) (n : Nat) : Bool := s.get (Reg.STEP_STAT n) Fld.STEP_STAT.in_step == 1

/-- Counter `i` of core `n` takes cross-chip signals (R330). -/
def State.xmode (s : State) (n i : Nat) : Bool := s.hasBit (Reg.LOCK_XMODE n) ⟨0, 32⟩ i

/-- A pending entry is due at core `n` now (R329). -/
def State.pendDue (s : State) (n : Nat) (e : PendSig) : Bool :=
  s.inStep n && e.parity == (s.reg (Reg.STEP_REC n 0)).toNat % 2 && decide (e.apply ≤ s.stepBeat n) &&
  (if e.kind = 0 then e.core == n else e.cores.contains n)

/-- Take core `n` out of an entry; a counter signal, or a release all of whose cores are served, leaves the store. -/
def PendSig.without (e : PendSig) (n : Nat) : Option PendSig :=
  if e.kind = 0 then none
  else
    let cs := e.cores.filter (· != n)
    if cs.isEmpty then none else some { e with cores := cs }

/-- A cross-chip signal that finds no counter is discarded with 0x3308; LOCK_ERR names the core that holds the counter, core 0 where the
grid has none (R330, R603, log entry 30). -/
def State.lost3308 (s : State) (v i k : Nat) : State :=
  (s.recordLock 0x3308 (if v < s.vgrid then s.vmap v else 0) 3 i k).logErr { code := 0x3308, aux := i }

/-- Apply entries of the pending store to core `n` (R329, R332). -/
def State.applyPend (s : State) (n : Nat) (p : PendSig → Bool) : State :=
  let due := s.locks.pend.filter p
  let rest := s.locks.pend.filterMap fun e => if p e then e.without n else some e
  let s := ({ s with locks := { s.locks with pend := rest } }).showPend
  due.foldl (fun t e => t.signal n e.ctr e.n 256 3) s

/-- The pending store holds a signal for a counter, or one has been applied in the beat in progress (R331). -/
def State.hasPend (s : State) (n i : Nat) : Bool :=
  (s.locks.pend.any fun e => e.ctr == i && (if e.kind = 0 then e.core == n else e.cores.contains n)) ||
  (s.core n).sigs.any fun x => x.ctr == i

/-- A write of LOCK_SLOT_MASK word `w` (R339). -/
def State.writeSlotMask (s : State) (i w : Nat) (v : Word) : State :=
  if s.get (Reg.LOCK_SLOT_CTRL i) Fld.LOCK_SLOT_CTRL.armed = 1 then s.logErr { code := 0x3309, aux := i }
  else s.plainWrite (Reg.LOCK_SLOT_MASK i w) v

/-- A write of LOCK_SLOT_CTRL with armed = 1 may arm the slot (R339, R40). -/
def State.armable (s : State) (i : Nat) (v : Word) : Bool :=
  let cores := s.slotCores i
  let fab := Fld.LOCK_SLOT_CTRL.fabric.get v == 1
  let lchip := Fld.LOCK_SLOT_CTRL.lchip.get v
  cores.all s.enabled && !cores.isEmpty && !(fab && Fld.LOCK_SLOT_CTRL.nchips.get v == 0) &&
  !(fab && Fld.LOCK_SLOT_CTRL.leader.get v == 0 && (lchip == 0 || lchip == 0xFFFF))

/-- Disarm a slot at once (R339). -/
def State.disarm (s : State) (i : Nat) : State :=
  let s := s.put (Reg.LOCK_SLOT_CTRL i) Fld.LOCK_SLOT_CTRL.armed 0
  (s.setSlot i {}).showSlot i

/-- A write of LOCK_SLOT_CTRL_s (R339). gen counts from the arming (R341). -/
def State.writeSlotCtrl (s : State) (i : Nat) (v : Word) : State :=
  let a := Reg.LOCK_SLOT_CTRL i
  let arm := Fld.LOCK_SLOT_CTRL.armed.get v
  if s.get a Fld.LOCK_SLOT_CTRL.armed = 1 then
    let others := Fld.LOCK_SLOT_CTRL.armed.set v 0 &&& ~~~ (0x3FFFF#64) ≠ Fld.LOCK_SLOT_CTRL.armed.set (s.reg a) 0
    let s := if others then s.logErr { code := 0x3309, aux := i } else s
    if arm = 0 then s.disarm i else s
  else if arm = 0 then (s.plainWrite a v).disarm i
  else if s.armable i v then
    ((s.plainWrite a v).setReg (Reg.LOCK_SLOT_STAT i) 0).setSlot i {}
  else s.logErr { code := 0x3304, aux := i }

end Sys2Proof.Machine
end

