-- ==== Sys2Proof/Machine/Special.lean ====
section
/-! DEFINITION. The special functions of the vector engine, by the printed algorithms of R115 and R116, and the
ChaCha20 block of VSAMPLE (R174). -/

namespace Sys2Proof.Machine

/-- rne32(2^(i/64)) (R116). -/
def tExp : List Nat :=
  [0x3F800000, 0x3F8164D2, 0x3F82CD87, 0x3F843A29, 0x3F85AAC3, 0x3F871F62, 0x3F88980F, 0x3F8A14D5,
   0x3F8B95C2, 0x3F8D1ADF, 0x3F8EA43A, 0x3F9031DC, 0x3F91C3D3, 0x3F935A2B, 0x3F94F4F0, 0x3F96942D,
   0x3F9837F0, 0x3F99E046, 0x3F9B8D3A, 0x3F9D3EDA, 0x3F9EF532, 0x3FA0B051, 0x3FA27043, 0x3FA43516,
   0x3FA5FED7, 0x3FA7CD94, 0x3FA9A15B, 0x3FAB7A3A, 0x3FAD583F, 0x3FAF3B79, 0x3FB123F6, 0x3FB311C4] ++
  [0x3FB504F3, 0x3FB6FD92, 0x3FB8FBAF, 0x3FBAFF5B, 0x3FBD08A4, 0x3FBF179A, 0x3FC12C4D, 0x3FC346CD,
   0x3FC5672A, 0x3FC78D75, 0x3FC9B9BE, 0x3FCBEC15, 0x3FCE248C, 0x3FD06334, 0x3FD2A81E, 0x3FD4F35B,
   0x3FD744FD, 0x3FD99D16, 0x3FDBFBB8, 0x3FDE60F5, 0x3FE0CCDF, 0x3FE33F89, 0x3FE5B907, 0x3FE8396A,
   0x3FEAC0C7, 0x3FED4F30, 0x3FEFE4BA, 0x3FF28177, 0x3FF5257D, 0x3FF7D0DF, 0x3FFA83B3, 0x3FFD3E0C]

/-- rne32(log2(1 + i/64)) (R116). -/
def tLog : List Nat :=
  [0x00000000, 0x3CB73CB4, 0x3D35D69C, 0x3D8759C5, 0x3DB31FB8, 0x3DDE4212, 0x3E0462C4, 0x3E19574F,
   0x3E2E00D2, 0x3E42615F, 0x3E567AF1, 0x3E6A4F72, 0x3E7DE0B6, 0x3E88983F, 0x3E92203D, 0x3E9B8926,
   0x3EA4D3C2, 0x3EAE00D2, 0x3EB7110E, 0x3EC0052B, 0x3EC8DDD4, 0x3ED19BB0, 0x3EDA3F60, 0x3EE2C97D,
   0x3EEB3A9F, 0x3EF39355, 0x3EFBD42B, 0x3F01FED4, 0x3F060828, 0x3F0A0650, 0x3F0DF989, 0x3F11E20F] ++
  [0x3F15C01A, 0x3F1993E3, 0x3F1D5DA0, 0x3F211D84, 0x3F24D3C2, 0x3F28808C, 0x3F2C2411, 0x3F2FBE80,
   0x3F335004, 0x3F36D8CB, 0x3F3A58FF, 0x3F3DD0C8, 0x3F41404F, 0x3F44A7BA, 0x3F480731, 0x3F4B5ED7,
   0x3F4EAED0, 0x3F51F740, 0x3F553848, 0x3F587209, 0x3F5BA4A4, 0x3F5ED039, 0x3F61F4E5, 0x3F6512C7,
   0x3F6829FB, 0x3F6B3A9F, 0x3F6E44CD, 0x3F7148A1, 0x3F744636, 0x3F773DA4, 0x3F7A2F04, 0x3F7D1A71]

/-- rne32(1/(1 + i/64)) (R116). -/
def tIlog : List Nat :=
  [0x3F800000, 0x3F7C0FC1, 0x3F783E10, 0x3F74898D, 0x3F70F0F1, 0x3F6D7304, 0x3F6A0EA1, 0x3F66C2B4,
   0x3F638E39, 0x3F607038, 0x3F5D67C9, 0x3F5A740E, 0x3F579436, 0x3F54C77B, 0x3F520D21, 0x3F4F6475,
   0x3F4CCCCD, 0x3F4A4588, 0x3F47CE0C, 0x3F4565C8, 0x3F430C31, 0x3F40C0C1, 0x3F3E82FA, 0x3F3C5264,
   0x3F3A2E8C, 0x3F381703, 0x3F360B61, 0x3F340B41, 0x3F321643, 0x3F302C0B, 0x3F2E4C41, 0x3F2C7692] ++
  [0x3F2AAAAB, 0x3F28E83F, 0x3F272F05, 0x3F257EB5, 0x3F23D70A, 0x3F2237C3, 0x3F20A0A1, 0x3F1F1166,
   0x3F1D89D9, 0x3F1C09C1, 0x3F1A90E8, 0x3F191F1A, 0x3F17B426, 0x3F164FDA, 0x3F14F209, 0x3F139A86,
   0x3F124925, 0x3F10FDBC, 0x3F0FB824, 0x3F0E7835, 0x3F0D3DCB, 0x3F0C08C1, 0x3F0AD8F3, 0x3F09AE41,
   0x3F088889, 0x3F0767AB, 0x3F064B8A, 0x3F053408, 0x3F042108, 0x3F03126F, 0x3F020821, 0x3F010204]

/-- rne32(1/(1 + i/128 + 1/256)) (R116). -/
def tRcp : List Nat :=
  [0x3F7F00FF, 0x3F7D08E5, 0x3F7B1885, 0x3F792FB2, 0x3F774E40, 0x3F757404, 0x3F73A0D5, 0x3F71D48C,
   0x3F700F01, 0x3F6E500F, 0x3F6C9791, 0x3F6AE564, 0x3F693965, 0x3F679373, 0x3F65F36D, 0x3F645933,
   0x3F62C4A7, 0x3F6135AA, 0x3F5FAC1F, 0x3F5E27EB, 0x3F5CA8F1, 0x3F5B2F17, 0x3F59BA42, 0x3F584A5A,
   0x3F56DF44, 0x3F5578E9, 0x3F541733, 0x3F52BA08, 0x3F516154, 0x3F500D01, 0x3F4EBCF9, 0x3F4D7127] ++
  [0x3F4C2978, 0x3F4AE5D8, 0x3F49A634, 0x3F486A79, 0x3F473294, 0x3F45FE74, 0x3F44CE08, 0x3F43A13E,
   0x3F427806, 0x3F415250, 0x3F40300C, 0x3F3F112B, 0x3F3DF59D, 0x3F3CDD53, 0x3F3BC841, 0x3F3AB656,
   0x3F39A786, 0x3F389BC3, 0x3F379301, 0x3F368D31, 0x3F358A48, 0x3F348A3A, 0x3F338CFA, 0x3F32927C,
   0x3F319AB6, 0x3F30A59B, 0x3F2FB322, 0x3F2EC33E, 0x3F2DD5E6, 0x3F2CEB10, 0x3F2C02B0, 0x3F2B1CBE] ++
  [0x3F2A392F, 0x3F2957FB, 0x3F287917, 0x3F279C7B, 0x3F26C21E, 0x3F25E9F7, 0x3F2513FD, 0x3F244029,
   0x3F236E72, 0x3F229ECF, 0x3F21D13A, 0x3F2105A9, 0x3F203C17, 0x3F1F747A, 0x3F1EAECD, 0x3F1DEB07,
   0x3F1D2922, 0x3F1C6917, 0x3F1BAADF, 0x3F1AEE73, 0x3F1A33CD, 0x3F197AE7, 0x3F18C3BB, 0x3F180E41,
   0x3F175A75, 0x3F16A850, 0x3F15F7CC, 0x3F1548E5, 0x3F149B93, 0x3F13EFD2, 0x3F13459C, 0x3F129CEC] ++
  [0x3F11F5BD, 0x3F115009, 0x3F10ABCC, 0x3F100901, 0x3F0F67A2, 0x3F0EC7AB, 0x3F0E2918, 0x3F0D8BE3,
   0x3F0CF009, 0x3F0C5584, 0x3F0BBC51, 0x3F0B246B, 0x3F0A8DCD, 0x3F09F874, 0x3F09645C, 0x3F08D181,
   0x3F083FDE, 0x3F07AF70, 0x3F072033, 0x3F069223, 0x3F06053C, 0x3F05797C, 0x3F04EEDD, 0x3F04655E,
   0x3F03DCF9, 0x3F0355AD, 0x3F02CF75, 0x3F024A4E, 0x3F01C636, 0x3F014328, 0x3F00C122, 0x3F004020]

/-- rne32(1/sqrt(1 + i/32 + 1/64)) (R116). -/
def tRsq : List Nat :=
  [0x3F7E05EC, 0x3F7A33F9, 0x3F768CDC, 0x3F730D8A, 0x3F6FB345, 0x3F6C7B90, 0x3F69642A, 0x3F666B02,
   0x3F638E39, 0x3F60CC16, 0x3F5E2305, 0x3F5B9193, 0x3F59166B, 0x3F56B051, 0x3F545E22, 0x3F521ED0,
   0x3F4FF162, 0x3F4DD4ED, 0x3F4BC89B, 0x3F49CBA2, 0x3F47DD45, 0x3F45FCD6, 0x3F4429AF, 0x3F426337,
   0x3F40A8DE, 0x3F3EFA1C, 0x3F3D5671, 0x3F3BBD67, 0x3F3A2E8C, 0x3F38A975, 0x3F372DBF, 0x3F35BB09] ++
  [0x3F3450FC, 0x3F32EF41, 0x3F319589, 0x3F304387, 0x3F2EF8F2, 0x3F2DB587, 0x3F2C7904, 0x3F2B432A,
   0x3F2A13C0, 0x3F28EA8C, 0x3F27C759, 0x3F26A9F4, 0x3F25922C, 0x3F247FD3, 0x3F2372BD, 0x3F226ABE,
   0x3F2167AF, 0x3F206968, 0x3F1F6FC4, 0x3F1E7AA0, 0x3F1D89D9, 0x3F1C9D4E, 0x3F1BB4E1, 0x3F1AD073,
   0x3F19EFE6, 0x3F191320, 0x3F183A05, 0x3F17647C, 0x3F16926C, 0x3F15C3BC, 0x3F14F857, 0x3F143026] ++
  [0x3F136B13, 0x3F12A90B, 0x3F11E9F9, 0x3F112DCA, 0x3F10746D, 0x3F0FBDCE, 0x3F0F09DD, 0x3F0E5889,
   0x3F0DA9C2, 0x3F0CFD79, 0x3F0C539F, 0x3F0BAC25, 0x3F0B06FD, 0x3F0A641A, 0x3F09C36D, 0x3F0924EC,
   0x3F088889, 0x3F07EE37, 0x3F0755ED, 0x3F06BF9E, 0x3F062B40, 0x3F0598C7, 0x3F05082A, 0x3F04795F,
   0x3F03EC5C, 0x3F036117, 0x3F02D788, 0x3F024FA6, 0x3F01C967, 0x3F0144C4, 0x3F00C1B4, 0x3F004030]

/-- c1 of R116. -/
def k_c1 : Num := f32 0x3F317218
/-- c2 of R116. -/
def k_c2 : Num := f32 0x3E75FDF0
/-- c3 of R116. -/
def k_c3 : Num := f32 0x3D635847
/-- d1 of R116. -/
def k_d1 : Num := f32 0x3FB8AA3B
/-- d2 of R116. -/
def k_d2 : Num := f32 0xBF38AA3B
/-- d3 of R116. -/
def k_d3 : Num := f32 0x3EF6384F
/-- d4 of R116. -/
def k_d4 : Num := f32 0xBEB8AA3B
/-- h1 of R116. -/
def k_h1 : Num := f32 0x3F000000
/-- h2 of R116. -/
def k_h2 : Num := f32 0x3EC00000
/-- h3 of R116. -/
def k_h3 : Num := f32 0x3EA00000
/-- h4 of R116. -/
def k_h4 : Num := f32 0x3E8C0000
/-- k3 of R116. -/
def k_k3 : Num := f32 0xBEAAAAAB
/-- k5 of R116. -/
def k_k5 : Num := f32 0x3E088889
/-- k7 of R116. -/
def k_k7 : Num := f32 0xBD5D0DD1
/-- k9 of R116. -/
def k_k9 : Num := f32 0x3CB327A4
/-- log2e of R116. -/
def k_log2e : Num := f32 0x3FB8AA3B
/-- g_c of R116. -/
def k_gc : Num := f32 0x3F4C422A
/-- g_k of R116. -/
def k_gk : Num := f32 0x3D372713

/-- The FP32 entry of a table. -/
def tabAt (t : List Nat) (i : Nat) : Num := f32 (t.getD i 0)

def fmul (x y : Num) : Num := r32 (x.mul y)
def fadd (x y : Num) : Num := r32 (x.add y)
def fsub (x y : Num) : Num := r32 (x.add y.neg)
/-- One fused multiply-add with one rounding (R115). -/
def ffma (x y z : Num) : Num := r32 ((x.mul y).add z)

def one32 : Num := .fin false 1 0
def zero32 : Num := .fin false 0 0

/-- `y × 2^e` rounded once (R116). -/
def scale32 (y : Num) (e : Int) : Num :=
  match y with
  | .fin n m k => r32 (.fin n m (k + e))
  | x => x

/-- `split(x)`: e and m with |x| = m × 2^e, 1 ≤ m < 2, for a finite non-zero x (R116). -/
def split32 (x : Num) : Int × Num :=
  match x with
  | .fin _ m e => ((Nat.log2 m : Int) + e, .fin false m (-(Nat.log2 m : Int)))
  | _ => (0, one32)

/-- floor of a finite number. -/
def floorNum (x : Num) : Int :=
  match x with
  | .fin n m e =>
    let v : Int := if n then -(m : Int) else m
    match e with
    | .ofNat k => v * ((2 ^ k : Nat) : Int)
    | .negSucc k => v.fdiv ((2 ^ (k + 1) : Nat) : Int)
  | _ => 0

/-- Give a magnitude the sign of another number. -/
def withSign (y x : Num) : Num := if x.isNeg then y.abs.neg else y.abs

/-- exp2 (R115). The subtraction of n rounds as every FP32 operation does: it is exact but for -1/128 < x < 0, where R115's comment
calls it exact too (log entry 30). -/
def exp2f (x : Num) : Num :=
  if x.isNaN then .nan
  else if !(x.lt (.fin false 128 0)) then .inf false
  else if !((Num.fin true 150 0).lt x) then zero32
  else
    let y := x.mul (.fin false 64 0)
    let n := floorNum y
    let f := fmul (fadd y (Num.mk (-n) 0)) (.fin false 1 (-6))
    let i := n % 64
    let e := (n - i) / 64
    let p := ffma k_c3 f k_c2
    let p := ffma p f k_c1
    let p := fmul p f
    let t := tabAt tExp i.toNat
    scale32 (ffma t p t) e

def log2f (x : Num) : Num :=
  if x.isNaN || (x.isNeg && !x.isZero) then .nan
  else if x.isZero then .inf true
  else if x.isInf then .inf false
  else
    let (e, m) := split32 x
    let i := floorNum ((m.add (.fin true 1 0)).mul (.fin false 64 0))
    let u := fmul (m.add (Num.mk (-(64 + i)) (-6))) (tabAt tIlog i.toNat)
    let q := ffma k_d4 u k_d3
    let q := ffma q u k_d2
    let q := ffma q u k_d1
    let q := fmul q u
    let s := fadd (Num.ofInt e) (tabAt tLog i.toNat)
    fadd s q

def rcpf (x : Num) : Num :=
  if x.isNaN then .nan
  else if x.isZero then .inf x.isNeg
  else if x.isInf then .fin x.isNeg 0 0
  else
    let (e, m) := split32 x
    let i := floorNum ((m.add (.fin true 1 0)).mul (.fin false 128 0))
    let y0 := tabAt tRcp i.toNat
    let d := ffma m.neg y0 one32
    let t := ffma d d d
    let t := ffma t d d
    let y := ffma y0 t y0
    withSign (scale32 y (-e)) x

def rsqf (x : Num) : Num :=
  if x.isNaN || (x.isNeg && !x.isZero) then .nan
  else if x.isZero then .inf x.isNeg
  else if x.isInf then zero32
  else
    let (e0, m0) := split32 x
    let odd := e0 % 2 == 1
    let m := if odd then m0.mul (.fin false 2 0) else m0
    let e := if odd then e0 - 1 else e0
    let i := floorNum ((m.add (.fin true 1 0)).mul (.fin false 32 0))
    let y0 := tabAt tRsq i.toNat
    let a := fmul m y0
    let d := ffma a.neg y0 one32
    let t := ffma k_h4 d k_h3
    let t := ffma t d k_h2
    let t := ffma t d k_h1
    let t := fmul t d
    let y := ffma y0 t y0
    scale32 y (-(e / 2))

def sigmoidf (x : Num) : Num :=
  if x.isNaN then .nan
  else
    let t := fmul x k_log2e
    let d := fadd one32 (exp2f t.neg)
    rcpf d

def siluf (x : Num) : Num :=
  if x.isNaN then .nan
  else if x = .inf true then .fin true 0 0
  else fmul x (sigmoidf x)

def tanhf (x : Num) : Num :=
  if x.isNaN then .nan
  else if x.isZero then x
  else
    let a := x.abs
    if a.lt (.fin false 1 (-2)) then
      let s := fmul x x
      let p := ffma s k_k9 k_k7
      let p := ffma p s k_k5
      let p := ffma p s k_k3
      let w := fmul x s
      ffma w p x
    else if !(a.lt (.fin false 19 (-1))) then .fin x.isNeg 1 0
    else
      let t := (fmul a k_log2e).mul (.fin false 2 0)
      let r := rcpf (fadd one32 (exp2f t))
      let y := ffma (.fin true 2 0) r one32
      withSign y x

def geluf (x : Num) : Num :=
  if x.isNaN then .nan
  else if x = .inf false then .inf false
  else if x = .inf true then .fin true 0 0
  else
    let s := fmul x x
    let h := ffma k_gk s one32
    let v := fmul (fmul x k_gc) h
    let z := fadd one32 (tanhf v)
    fmul (fmul (.fin false 1 (-1)) x) z

/-! ### ChaCha20 (R174) -/

def rotl32 (x : BitVec 32) (n : Nat) : BitVec 32 := x.rotateLeft n

/-- One quarter round on words a, b, c, d of a 16-word state. -/
def quarter (s : List (BitVec 32)) (a b c d : Nat) : List (BitVec 32) :=
  let g := fun (l : List (BitVec 32)) i => l.getD i 0
  let va := g s a + g s b
  let vd := rotl32 (g s d ^^^ va) 16
  let vc := g s c + vd
  let vb := rotl32 (g s b ^^^ vc) 12
  let va := va + vb
  let vd := rotl32 (vd ^^^ va) 8
  let vc := vc + vd
  let vb := rotl32 (vb ^^^ vc) 7
  (((s.set a va).set b vb).set c vc).set d vd

/-- One double round. -/
def doubleRound (s : List (BitVec 32)) : List (BitVec 32) :=
  let s := quarter s 0 4 8 12
  let s := quarter s 1 5 9 13
  let s := quarter s 2 6 10 14
  let s := quarter s 3 7 11 15
  let s := quarter s 0 5 10 15
  let s := quarter s 1 6 11 12
  let s := quarter s 2 7 8 13
  quarter s 3 4 9 14

/-- `n` double rounds. -/
def doubleRounds : Nat → List (BitVec 32) → List (BitVec 32)
  | 0, s => s
  | n + 1, s => doubleRounds n (doubleRound s)

/-- The ChaCha20 block of a 16-word state. -/
def chachaBlock (s : List (BitVec 32)) : List (BitVec 32) :=
  List.zipWith (· + ·) (doubleRounds 10 s) s

end Sys2Proof.Machine
end

