-- ==== Sys2Proof/Machine/Descr.lean ====
section
/-! DEFINITION. Macro-op descriptors: their fields (R210, R221, R225, R226, R229, R233, R237, R244), the translation of legacy
descriptors (R245), costs (R132, R165, R218), and every refusal check in the order of R240. -/

namespace Sys2Proof.Machine

/-- Bits [lo+n-1:lo] of word `w` of a descriptor. -/
def dfld (d : List Word) (w lo n : Nat) : Nat := (BitField.mk lo n).get (d.getD w 0)

/-- What a macro-op does, by its opcode (R216, R245). Vector instructions count from VADD = 0 to VSAMPLE = 26. -/
inductive OpKind where
  | xnop
  | anop
  | mmul
  | vec (i : Nat)
  | fload
  | fstore
  | scopy (s : Fin 4)
  | scast (s : Fin 4)
  | skvr (s : Fin 4)
  | skvw (s : Fin 4)
  | sred (s : Fin 4)
  deriving DecidableEq, Repr

/-- Opcode byte of a descriptor. -/
def opByte (d : List Word) : Nat := dfld d 0 0 8

/-- The opcode lies in the legacy range (R244); 0x00 names no operation (R213). -/
def isLegacy (d : List Word) : Bool := decide (0 < opByte d) && decide (opByte d < 0x40)

/-- Sluice of a sluice opcode (R216). -/
def sluiceNo (b : Nat) : Fin 4 := ⟨b % 4, Nat.mod_lt _ (by decide)⟩

/-- The operation an opcode names; none for opcodes R216 and R244 do not list. -/
def opKind (b : Nat) : Option OpKind :=
  if b = 0x01 then some .mmul
  else if b = 0x02 then some .fload
  else if b = 0x03 then some .fstore
  else if b = 0x04 then some (.scopy 0)
  else if 0x10 ≤ b ∧ b ≤ 0x22 then some (.vec (b - 0x10))
  else if b = 0x40 then some .xnop
  else if b = 0x41 then some .anop
  else if b = 0x48 then some .mmul
  else if 0x50 ≤ b ∧ b ≤ 0x6A then some (.vec (b - 0x50))
  else if b = 0x70 then some .fload
  else if b = 0x71 then some .fstore
  else if 0x80 ≤ b ∧ b ≤ 0x83 then some (.scopy (sluiceNo b))
  else if 0x84 ≤ b ∧ b ≤ 0x87 then some (.scast (sluiceNo b))
  else if 0x88 ≤ b ∧ b ≤ 0x8B then some (.skvr (sluiceNo b))
  else if 0x8C ≤ b ∧ b ≤ 0x8F then some (.skvw (sluiceNo b))
  else if 0x90 ≤ b ∧ b ≤ 0x93 then some (.sred (sluiceNo b))
  else none

/-- The stream of an operation: true for the X-stream (R178). -/
def OpKind.onX : OpKind → Bool
  | .xnop => true
  | .mmul => true
  | .vec _ => true
  | _ => false

/-- The unit of an operation (R178, R216). -/
def OpKind.unit : OpKind → UnitId
  | .xnop => .vector
  | .vec _ => .vector
  | .mmul => .array
  | .anop => .feeder
  | .fload => .feeder
  | .fstore => .feeder
  | .scopy s => .sluice s
  | .scast s => .sluice s
  | .skvr s => .sluice s
  | .skvw s => .sluice s
  | .sred s => .sluice s

/-- The operation is a sluice's. -/
def OpKind.onSluice (k : OpKind) : Bool :=
  match k.unit with
  | .sluice _ => true
  | _ => false

/-! ### The common header (R210, R211, R244) -/

/-- A lock action (R211). -/
structure Act where
  kind  : Nat
  index : Nat
  n     : Nat
  deriving DecidableEq, Repr

/-- The 24 bits of a lock action. -/
def actOf (v : Nat) : Act := ⟨v / 2 ^ 22 % 4, v / 2 ^ 16 % 64, v % 2 ^ 16⟩

/-- First word of the header: D0, or D4 of a legacy descriptor. -/
def hw (d : List Word) : Nat := if isLegacy d then 4 else 0

def dCost (d : List Word) : Nat := dfld d (hw d) 32 32
def dTag (d : List Word) : Nat := dfld d (hw d) 16 16
def dPush (d : List Word) : Nat := dfld d (hw d + 1) 56 8
def dPop (d : List Word) : Nat := dfld d (hw d + 1) 48 8
def dPost (d : List Word) : Act := actOf (dfld d (hw d + 1) 24 24)
def dPre (d : List Word) : Act := actOf (dfld d (hw d + 1) 0 24)
def dTchip (d : List Word) : Nat := dfld d (hw d + 2) 32 16
def dTcore (d : List Word) : Nat := dfld d (hw d + 2) 0 12

/-! ### MMUL (R221 to R224, R245) -/

/-- The operands of an MMUL; bases as core-window offsets, strides in bytes. -/
structure MmulOp where
  tileBase   : Nat
  scaleBase  : Nat
  actBase    : Nat
  ascaleBase : Nat
  dstBase    : Nat
  gatherBase : Nat
  actStride  : Nat
  dstStride  : Nat
  k      : Nat
  n      : Nat
  m      : Nat
  anchor : Nat
  sat    : Bool
  gather : Bool
  shape  : Nat
  dfmt   : Nat
  sfmt   : Nat
  wfmt   : Nat
  deriving DecidableEq, Repr

/-- Bytes rounded up to whole lines. -/
def roundLine (n : Nat) : Nat := ceilDiv n 32 * 32

/-- A legacy basin address in the reach-basin form of R241, out of every region where it has bit 31 set (R245). -/
def reachForm (a : Nat) : Nat := if a < 2 ^ 31 then 2 ^ 31 + a else 0xFFFFFFFF

/-- Core-window offset of a legacy operand-cache address, past the cache where the address lies past it (R245). -/
def cacheForm (a : Nat) : Nat := 0x600000 + min a 0x80000

/-- Drain format of an LMMUL from its flag bits (R244). -/
def legacyDrain : Nat → Nat
  | 0 => 0
  | 1 => 2
  | 2 => 1
  | _ => 3

/-- The MMUL a descriptor describes (R221, R245). A legacy shape byte that is neither 0 nor 1 counts as the reserved code 7, refused with
0x3601 (log entry 31). -/
def mmulOf (d : List Word) : MmulOp :=
  if isLegacy d then
    let k := dfld d 2 32 32
    let n := dfld d 3 0 16
    let dfmt := legacyDrain (dfld d 0 10 2)
    let sfmt := dfld d 3 16 4
    let dst := dfld d 1 32 32
    { tileBase := 0x1000000 + dfld d 2 0 32
      scaleBase := 0
      actBase := reachForm (dfld d 0 32 32)
      ascaleBase := 0
      dstBase := if dfld d 0 9 1 = 1 then cacheForm dst else reachForm dst
      gatherBase := 0
      actStride := roundLine (fmtBytes sfmt k)
      dstStride := roundLine (fmtBytes dfmt n)
      k := k
      n := n
      m := dfld d 0 16 16
      anchor := dfld d 7 0 8
      sat := dfld d 0 8 1 = 1
      gather := false
      shape := match dfld d 3 24 8 with
        | 0 => 0
        | 1 => 5
        | _ => 7
      dfmt := dfmt
      sfmt := sfmt
      wfmt := dfld d 3 20 4 }
  else
    { tileBase := dfld d 3 0 32
      scaleBase := dfld d 3 32 32
      actBase := dfld d 4 0 32
      ascaleBase := dfld d 4 32 32
      dstBase := dfld d 5 32 32
      gatherBase := dfld d 7 32 32
      actStride := 32 * dfld d 5 0 16
      dstStride := 32 * dfld d 5 16 16
      k := dfld d 6 40 24
      n := dfld d 6 16 10
      m := dfld d 6 0 16
      anchor := dfld d 7 24 8
      sat := dfld d 7 23 1 = 1
      gather := dfld d 7 22 1 = 1
      shape := dfld d 7 19 3
      dfmt := dfld d 7 12 4
      sfmt := dfld d 7 8 4
      wfmt := dfld d 7 4 4 }

/-- Cell bits of the weight family of a stationary format: 8, 4 or 16; 0 where it is not one (R118). -/
def family (w : Nat) : Nat :=
  if w = 5 ∨ w = 7 ∨ w = 12 then 4
  else if w = 1 ∨ w = 2 then 16
  else if w = 3 ∨ w = 4 ∨ w = 6 ∨ (8 ≤ w ∧ w ≤ 13) then 8
  else 0

/-- Grid size in units (R118). -/
def MmulOp.g (o : MmulOp) : Nat := if family o.wfmt = 16 then 64 else 128

/-- Shape in 8-bit cells (R128). -/
def shapeDims : Nat → Nat × Nat
  | 0 => (128, 128)
  | 1 => (256, 64)
  | 2 => (64, 256)
  | 3 => (512, 32)
  | 4 => (32, 512)
  | _ => (256, 256)

/-- Elements of K in a tile (R128). -/
def MmulOp.kTile (o : MmulOp) : Nat :=
  let k := (shapeDims o.shape).1
  if family o.wfmt = 4 then 2 * k else if family o.wfmt = 16 then k / 2 else k

/-- Output columns of a tile (R128). -/
def MmulOp.nTile (o : MmulOp) : Nat :=
  let n := (shapeDims o.shape).2
  if family o.wfmt = 16 then n / 2 else n

/-- Passes per K tile (R128). -/
def MmulOp.p (o : MmulOp) : Nat := if o.shape = 5 then 4 else 1

/-- Passes of the macro-op (R132). -/
def MmulOp.passes (o : MmulOp) : Nat := ceilDiv o.k o.kTile * o.p

/-- Fill beats F (R120). -/
def MmulOp.f (o : MmulOp) : Nat :=
  if family o.wfmt = 16 then 8 else if o.wfmt = 10 ∨ o.wfmt = 11 then 12 else 16

/-- Tile image bytes (R120). -/
def MmulOp.imageBytes (o : MmulOp) : Nat := 1024 * o.f

/-- Scale image bytes (R120). -/
def MmulOp.scaleBytes (o : MmulOp) : Nat :=
  if o.wfmt = 12 then 1024 else if isMX o.wfmt then 512 else 0

/-- Feed beats r of a row (R127). -/
def MmulOp.r (o : MmulOp) : Nat := max 1 (ceilDiv (fmtBytes o.sfmt o.kTile) 512)

/-- Entries a drain beat takes; 0 where the format drains nothing (R136). -/
def drainPerBeat (c : Nat) : Nat :=
  if c = 0 then 64 else if c = 14 then 16 else if (1 ≤ c ∧ c ≤ 4) ∨ c = 6 then 128 else 0

/-- Bytes of a drained element. -/
def drainBytes (c : Nat) : Nat := fmtBits c / 8

/-- Drain beats D (R136). -/
def MmulOp.d (o : MmulOp) : Nat := ceilDiv (o.m * o.nTile) (drainPerBeat o.dfmt)

/-- Beats of a pass that is not the last (R132). -/
def MmulOp.passBeats (o : MmulOp) : Nat := 1 + max (o.m * o.r) o.f

/-- Operand pairs of the array (R98). -/
def pairOk (w s : Nat) : Bool :=
  if w = 2 then s == 2
  else if w = 1 then s == 1
  else if w = 3 ∨ w = 4 ∨ w = 5 ∨ (8 ≤ w ∧ w ≤ 12) then s == 3 || s == 4 || s == 8 || s == 9
  else if w = 6 ∨ w = 7 ∨ w = 13 then s == 6 || s == 7 || s == 13
  else false

/-! ### Regions (R190, R221, R222, R231, R241, R591) -/

/-- End of the local region a window offset lies in: basin, operand cache, weight store (R591). -/
def regionEnd (o : Nat) : Nat :=
  if o < 0x600000 then 0x600000
  else if o < 0x680000 then 0x680000
  else if 0x1000000 ≤ o ∧ o < 0x3000000 then 0x3000000
  else 0

/-- The core and the offset an operand of core `n` names, in the plain form or the reach-basin form (R221, R241). -/
def State.place (s : State) (n a : Nat) : Option (Nat × Nat) :=
  if a < 0x4000000 then some (n, a)
  else if a / 2 ^ 31 = 1 ∧ a / 2 ^ 27 % 16 = 0 ∧ s.xbar (reachOf n) ∧ a % 2 ^ 23 < 0x600000 then
    some (coreAt (reachOf n) (a / 2 ^ 23 % 16), a % 2 ^ 23)
  else none

/-- Device address of an operand of core `n`; 0 where it names none. -/
def State.placeAddr (s : State) (n a : Nat) : Nat :=
  match s.place n a with
  | some (c, o) => coreBase c + o
  | none => 0

/-- An operand lies in another core's basin (R242). -/
def State.isRemote (s : State) (n a : Nat) : Bool :=
  match s.place n a with
  | some (c, _) => c != n
  | none => false

/-- Rows of `rb` bytes at a stride from a base lie wholly in a region. -/
def rowsIn (o stride rows rb lim : Nat) : Bool := decide (o + stride * (rows - 1) + rb ≤ lim)

/-- Rows lie wholly in the basin that an operand names. -/
def State.inBasin (s : State) (n a stride rows rb : Nat) : Bool :=
  match s.place n a with
  | some (_, o) => decide (o < 0x600000) && rowsIn o stride rows rb 0x600000
  | none => false

/-- Rows lie wholly in the operand cache. -/
def inCache (a stride rows rb : Nat) : Bool :=
  decide (0x600000 ≤ a ∧ a < 0x680000) && rowsIn a stride rows rb 0x680000

/-! ### Vector operands (R147, R225 to R227, R245) -/

/-- A vector operand: its offset in the operand cache, the bytes left in its window, its format and whether its reserved
bits are 0. -/
structure VOpnd where
  start : Nat
  room  : Nat
  fmt   : Nat
  clean : Bool
  deriving DecidableEq, Repr

/-- Base of window `w` for an instruction that starts in the beat in progress: as it stood before the beat (R149). -/
def State.windowBase (s : State) (n w : Nat) : Nat :=
  Fld.VEC_WIN.base.get (smGet (s.reg (Reg.VEC_WIN n w)) (s.core n).oldWin w)

/-- The operand a 24-bit field names (R147, R225). -/
def State.vopnd (s : State) (n v : Nat) : VOpnd :=
  let o := 32 * (v / 2 ^ 10 % 2 ^ 9)
  ⟨512 * s.windowBase n (v / 2 ^ 19 % 32) + o, 16384 - o, v % 16, v / 16 % 64 == 0⟩

/-- A flat operand of a legacy descriptor (R245). An offset that is no multiple of 32 B runs at its byte (log entry 30). -/
def flatOpnd (a fmt : Nat) : VOpnd := ⟨a, 0x80000 - a, fmt, true⟩

/-- A vector instruction with its operands resolved (R226). -/
structure VecOp where
  i      : Nat
  a      : VOpnd
  b      : VOpnd
  c      : VOpnd
  dst    : VOpnd
  mask   : VOpnd
  afa    : Nat
  count  : Nat
  anchor : Nat
  csc    : Bool
  bsc    : Bool
  drn    : Bool
  clr    : Bool
  maskEn : Bool
  mmode  : Bool
  minv   : Bool
  sat    : Bool
  scalar : Nat
  indexBase : Nat
  cand   : Bool
  pred   : Nat
  k      : Nat
  /-- Operand c is not named by a legacy form (log entry 12). -/
  noC    : Bool
  deriving DecidableEq, Repr

/-- The vector instruction a descriptor describes. -/
def State.vecOf (s : State) (n i : Nat) (d : List Word) : VecOp :=
  if isLegacy d then
    let f := dfld d 3 16 4
    let z := flatOpnd 0 f
    { i := i, a := flatOpnd (dfld d 0 32 32) f, b := flatOpnd (dfld d 1 0 32) f, c := z
      dst := flatOpnd (dfld d 1 32 32) f, mask := z, afa := 0, count := dfld d 0 16 16, anchor := 0, csc := false
      bsc := false, drn := false, clr := false, maskEn := false, mmode := false, minv := false
      sat := dfld d 0 8 1 = 1, scalar := 0, indexBase := 0, cand := false, pred := 0, k := 0, noC := true }
  else
    { i := i, a := s.vopnd n (dfld d 3 0 24), b := s.vopnd n (dfld d 3 32 24), c := s.vopnd n (dfld d 4 0 24)
      dst := s.vopnd n (dfld d 4 32 24), mask := s.vopnd n (dfld d 5 40 24), afa := dfld d 5 32 4
      count := dfld d 5 16 13, anchor := dfld d 5 8 8, csc := dfld d 5 7 1 = 1, bsc := dfld d 5 6 1 = 1
      drn := dfld d 5 5 1 = 1, clr := dfld d 5 4 1 = 1, maskEn := dfld d 5 3 1 = 1, mmode := dfld d 5 2 1 = 1
      minv := dfld d 5 1 1 = 1, sat := dfld d 5 0 1 = 1, scalar := dfld d 6 32 32, indexBase := dfld d 6 0 32
      cand := dfld d 7 12 1 = 1, pred := dfld d 7 9 3, k := dfld d 7 0 9, noC := false }

/-- A scalar may replace b (R227). -/
def bscOk (i : Nat) : Bool := i ≤ 5 || i == 8 || i == 9

/-- Instructions that take an operand b (R227). -/
def usesB (i : Nat) : Bool := bscOk i || i == 21 || i == 26

/-- VSUM, VSUMSQ or VDOT. -/
def isSum (i : Nat) : Bool := i == 19 || i == 20 || i == 21

/-- Operand b is read from the operand cache. -/
def VecOp.bMem (o : VecOp) : Bool := usesB o.i && !(o.bsc && bscOk o.i)

/-- VCVT has an MX format on one side (R161). -/
def VecOp.mx (o : VecOp) : Bool := o.i == 10 && (isMX o.a.fmt || isMX o.dst.fmt)

/-- Operand c lies in the operand cache: VFMA's addend, VSEL's mask, VCVT's scales. -/
def VecOp.cMem (o : VecOp) : Bool :=
  !o.noC && ((o.i == 3 && !o.csc) || o.i == 8) || o.mx

/-- The destination is written. -/
def VecOp.dstUsed (o : VecOp) : Bool := !isSum o.i || o.drn

/-- Operands whose field is in use, for the reserved bits of R213. -/
def VecOp.clean (o : VecOp) : Bool :=
  o.a.clean && (!o.bMem || o.b.clean) && (!o.cMem || o.c.clean) && (!o.dstUsed || o.dst.clean) &&
  (!(o.maskEn && o.i != 26) || o.mask.clean)

/-- a is an element operand. -/
def VecOp.aElem (o : VecOp) : Bool := !(o.i == 26 || (o.i == 25 && o.cand))

/-- The destination is an element operand: not a mask, a candidate entry or list, a result record or an AFA's drain. -/
def VecOp.dstElem (o : VecOp) : Bool := o.i ≤ 8 || (10 ≤ o.i && o.i ≤ 18) || o.i == 22 || o.i == 23

/-- Formats of the element sources. -/
def VecOp.srcFmts (o : VecOp) : List Nat :=
  (if o.aElem then [o.a.fmt] else []) ++ (if o.bMem && o.i != 26 then [o.b.fmt] else []) ++
  (if o.i == 3 && o.cMem then [o.c.fmt] else [])

/-- Formats of all element operands. -/
def VecOp.fmts (o : VecOp) : List Nat := o.srcFmts ++ (if o.dstElem then [o.dst.fmt] else [])

/-- Instructions marked I (R158). -/
def takesInt (i : Nat) : Bool :=
  i ≤ 2 || (4 ≤ i && i ≤ 10) || isSum i || i == 23 || i == 24

def isFloatFmt (c : Nat) : Bool := c ≤ 5

/-- INT8 or INT4. -/
def isVecInt (c : Nat) : Bool := c == 6 || c == 7

/-- The format checks of R159, R161 and R228. -/
def VecOp.fmtsOk (o : VecOp) : Bool :=
  let fs := o.fmts
  fs.all (fun c => isFloatFmt c || isVecInt c || (o.i == 10 && isMX c)) &&
  !(o.i == 10 && isMX o.a.fmt && isMX o.dst.fmt) &&
  (takesInt o.i || fs.all isFloatFmt) &&
  (o.i == 10 || fs.all isFloatFmt || fs.all isVecInt) &&
  !(o.i == 23 && o.dst.fmt != o.a.fmt) &&
  !(isSum o.i && o.drn && drainPerBeat o.dst.fmt == 0)

/-- Widest element among formats, in bits (R157). -/
def widest (fs : List Nat) : Nat := (fs.map fmtBits).foldl max 0

/-- Lanes per beat of a width (R157). -/
def lanesOf (w : Nat) : Nat := if 32 ≤ w then 64 else if w = 16 then 128 else 256

/-- Lanes of an instruction (R165). -/
def VecOp.lanes (o : VecOp) : Nat :=
  if o.mx then 64
  else if 11 ≤ o.i ∧ o.i ≤ 18 ∨ o.i = 22 ∨ o.i = 25 then 64
  else if isSum o.i ∨ o.i = 23 ∨ o.i = 24 then lanesOf (widest o.srcFmts)
  else lanesOf (widest o.fmts)

/-- Beat cost C of a vector instruction with the latencies in force (R165, R358). -/
def State.vecCost (s : State) (o : VecOp) : Nat :=
  if o.i = 26 then 4 * ceilDiv o.count 64 + s.lat 9
  else
    let p := if 15 ≤ o.i ∧ o.i ≤ 18 then 2 else 1
    let lv :=
      if o.mx then s.lat 2
      else if o.i ≤ 10 then s.lat 1
      else if o.i ≤ 14 then s.lat 3
      else if o.i ≤ 18 then s.lat 4
      else if o.i ≤ 21 then s.lat 5
      else if o.i = 22 then s.lat 6
      else if o.i ≤ 24 then s.lat 7
      else s.lat 8 + o.k
    ceilDiv o.count o.lanes * p + lv

/-- Bytes an operand spans (R150): elements, mask bits, candidates or a record. -/
def VecOp.aSpan (o : VecOp) : Nat := if o.aElem then fmtBytes o.a.fmt o.count else 8 * o.count
def VecOp.bSpan (o : VecOp) : Nat := if o.i = 26 then 32 else fmtBytes o.b.fmt o.count
def maskSpan (n : Nat) : Nat := ceilDiv n 8
def VecOp.cSpan (o : VecOp) : Nat :=
  if o.i = 8 then maskSpan o.count else if o.mx then ceilDiv o.count 32 else fmtBytes o.c.fmt o.count
def VecOp.dstSpan (o : VecOp) : Nat :=
  if o.i = 9 then maskSpan o.count
  else if isSum o.i ∨ o.i = 22 ∨ o.i = 23 then fmtBytes o.dst.fmt 1
  else if o.i = 24 ∨ o.i = 26 then 8
  else if o.i = 25 then 8 * o.k
  else fmtBytes o.dst.fmt o.count

/-- Two spans of bytes overlap. -/
def overlap (a n b m : Nat) : Bool := 0 < n && 0 < m && decide (a < b + m ∧ b < a + n)

/-- Element size in bits, for the identity of R151. -/
def VecOp.aBits (o : VecOp) : Nat := if o.aElem then fmtBits o.a.fmt else 64
def VecOp.dstBits (o : VecOp) : Nat :=
  if o.i = 9 then 1 else if o.i = 24 ∨ o.i = 25 ∨ o.i = 26 then 64 else fmtBits o.dst.fmt

/-- The destination overlaps a source it may not overlap (R151). -/
def VecOp.clash (o : VecOp) : Bool :=
  let src := fun (st n bits d dn : Nat) (same : Bool) =>
    overlap d dn st n && !(same && d == st && bits == o.dstBits)
  let d := o.dst.start
  let dn := o.dstSpan
  let one := fun (d dn : Nat) (same : Bool) =>
    src o.a.start o.aSpan o.aBits d dn same ||
    (o.bMem && src o.b.start o.bSpan (fmtBits o.b.fmt) d dn (same && o.i != 26)) ||
    (o.cMem && o.i == 3 && src o.c.start o.cSpan (fmtBits o.c.fmt) d dn same) ||
    (o.maskEn && o.i != 26 && overlap d dn o.mask.start (maskSpan o.count))
  o.dstUsed && (one d dn true || (o.cMem && o.i != 3 && overlap d dn o.c.start o.cSpan)) ||
  (o.mx && isMX o.dst.fmt && one o.c.start o.cSpan false)

/-- An operand leaves its window (R150). -/
def VecOp.leaves (o : VecOp) : Bool :=
  decide (o.a.room < o.aSpan) || (o.bMem && decide (o.b.room < o.bSpan)) ||
  (o.cMem && decide (o.c.room < o.cSpan)) || (o.dstUsed && decide (o.dst.room < o.dstSpan)) ||
  (o.maskEn && o.i != 26 && decide (o.mask.room < maskSpan o.count))

/-- Bytes of the operand cache of core `n` from offset `o` on. -/
def State.cacheBytes (s : State) (n o k : Nat) : List Byte := s.bytes (coreBase n + 0x600000 + o) k

/-- A float that is greater than 0 and at most 1. -/
def isUnit (x : Num) : Bool := !x.isNaN && zero32.lt x && !one32.lt x

/-- The parameter record of a VSAMPLE has every field in its range (R172). An uncorrectable record is not judged. -/
def State.recordOk (s : State) (n : Nat) (o : VecOp) : Bool :=
  let r := s.cacheBytes n o.b.start 32
  let inv := f32 (leNat ((r.drop 16).take 4))
  let topK := leNat ((r.drop 12).take 2)
  s.anyUe (coreBase n + 0x600000 + o.b.start) 32 ||
  (leNat (r.drop 24) == 0 && isUnit (f32 (leNat ((r.drop 20).take 4))) &&
   !inv.isNaN && !inv.isInf && !inv.lt zero32 && leNat ((r.drop 15).take 1) < 4 &&
   decide (1 ≤ topK ∧ topK ≤ 256 ∧ topK ≤ o.count))

/-! ### Feeder (R229, R230, R245) -/

/-- A feeder macro-op; strides in bytes. -/
structure FeedOp where
  load : Bool
  src  : Nat
  dst  : Nat
  sstr : Nat
  dstr : Nat
  rows : Nat
  rowB : Nat
  fmt  : Nat
  deriving DecidableEq, Repr

/-- The feeder macro-op a descriptor describes. -/
def feedOf (load : Bool) (d : List Word) : FeedOp :=
  if isLegacy d then
    let a := dfld d 0 32 32
    let t := dfld d 1 32 32
    { load := load
      src := if load then reachForm a else cacheForm a
      dst := if load then cacheForm t else reachForm t
      sstr := 0, dstr := 0, rows := 1, rowB := 32 * dfld d 0 16 16, fmt := 0 }
  else
    { load := load, src := dfld d 3 0 32, dst := dfld d 3 32 32, sstr := 32 * dfld d 4 0 16, dstr := 32 * dfld d 4 32 16
      rows := dfld d 5 48 16, rowB := dfld d 5 0 16, fmt := dfld d 5 32 4 }

/-- The basin operand of a feeder macro-op. -/
def FeedOp.basin (o : FeedOp) : Nat := if o.load then o.src else o.dst

/-- R230's checks, with R241's form, and the format code that no descriptor may name (R81). -/
def State.feedOk (s : State) (n : Nat) (o : FeedOp) : Bool :=
  o.fmt != 15 &&
  decide (1 ≤ o.rows ∧ o.rows ≤ 4096 ∧ 32 ≤ o.rowB ∧ o.rowB ≤ 16384) && o.rowB % 32 == 0 &&
  o.src % 32 == 0 && o.dst % 32 == 0 &&
  (if o.load then s.inBasin n o.src o.sstr o.rows o.rowB && inCache o.dst o.dstr o.rows o.rowB
   else inCache o.src o.sstr o.rows o.rowB && s.inBasin n o.dst o.dstr o.rows o.rowB)

/-- Floor of a feeder macro-op (R230, R242). -/
def State.feedFloor (s : State) (n : Nat) (o : FeedOp) : Nat :=
  o.rows * ceilDiv o.rowB 128 + s.lat 24 + if s.isRemote n o.basin then s.lat 26 else 0

/-! ### Sluices (R231 to R238, R245) -/

/-- What a sluice macro-op does. -/
inductive SluKind where
  | copy
  | cast
  | kvr
  | kvw
  deriving DecidableEq, Repr

/-- A sluice transfer; strides in bytes. For SKVR and SKVW `src` is the page map, `dst` the local offset, `dstr` the local
stride, `slice` the slice offset, `dests` the word D7. -/
structure SluOp where
  kind   : SluKind
  src    : Nat
  dst    : Nat
  rowB   : Nat
  rows   : Nat
  fmt    : Nat
  rclass : Nat
  berth  : Nat
  sstr   : Nat
  dstr   : Nat
  slice  : Nat
  dests  : Nat
  /-- Addresses name physical cores, and no berth is used (LCOPY, R245). -/
  flat   : Bool
  deriving DecidableEq, Repr

/-- Device address of a legacy basin address in the reach of core `n` (R245); out of every window where it has none. -/
def legacyBasin (n a : Nat) : Nat :=
  if a / 2 ^ 27 = 0 ∧ a % 2 ^ 23 < 0x600000 then coreBase (coreAt (reachOf n) (a / 2 ^ 23 % 16)) + a % 2 ^ 23
  else 0xFFFFFFFFFFFF

/-- The transfer a descriptor of core `n` describes. -/
def sluOf (n : Nat) (kind : SluKind) (d : List Word) : SluOp :=
  if isLegacy d then
    { kind := kind, src := legacyBasin n (dfld d 0 32 32), dst := legacyBasin n (dfld d 1 32 32)
      rowB := 32 * dfld d 0 16 16, rows := 1, fmt := 0, rclass := 0, berth := 0, sstr := 0, dstr := 0, slice := 0
      dests := 0, flat := true }
  else
    { kind := kind, src := dfld d 3 0 64, dst := dfld d 4 0 64, rowB := dfld d 5 40 24, rows := dfld d 5 16 16
      fmt := dfld d 5 12 4, rclass := dfld d 5 10 2, berth := dfld d 5 4 4, sstr := 32 * dfld d 6 0 16
      dstr := 32 * dfld d 6 32 16, slice := dfld d 6 0 32, dests := dfld d 7 0 64, flat := false }

/-- Chip of a global address (R231). -/
def gChip (a : Nat) : Nat := a / 2 ^ 48 % 2 ^ 16

/-- Device address of a global address. -/
def gAddr (a : Nat) : Nat := a % 2 ^ 48

/-- The chip of a global address can be reached (R232, R393). -/
def State.chipOk (s : State) (c : Nat) : Bool := c != 0xFFFF && (s.isHere c || (s.lookup s.bank c false).isSome)

/-- End of the memory a device address lies in, in device addresses; 0 where it lies in none a sluice may use (R231). -/
def targetEnd (a : Nat) : Nat :=
  if a < 0x400000000 then
    if regionEnd (a % 0x4000000) = 0 then 0 else a / 0x4000000 * 0x4000000 + regionEnd (a % 0x4000000)
  else if 0x1000000000 ≤ a ∧ a < 0x2000000000 then 0x2000000000
  else if 0x2000000000 ≤ a ∧ a < 0x3000000000 then 0x3000000000
  else 0

/-- Rows at a global address lie wholly in one permitted target (R231, R232). Reads of a weight store are the issuing core's
alone; a destination in a fenced core of this chip is refused (R39). -/
def State.targetOk (s : State) (n : Nat) (flat write : Bool) (a stride rows rb : Nat) : Bool :=
  let o := gAddr a
  let inWin := decide (o < 0x400000000)
  let v := o / 0x4000000
  s.chipOk (gChip a) && a % 32 == 0 && (!inWin || flat || decide (v < s.vgrid)) &&
  (!write || !inWin || !s.isHere (gChip a) || s.enabled (if flat then v else s.vmap v)) &&
  decide (targetEnd o ≠ 0) && rowsIn o stride rows rb (targetEnd o) &&
  (write || windowKind (o % 0x4000000) != .wstore || !inWin ||
   (s.isHere (gChip a) && (if flat then v else s.vmap v) == n))

/-- Rows at a local offset lie wholly in the basin, operand cache or weight store. -/
def localOk (a stride rows rb : Nat) : Bool :=
  a % 32 == 0 && decide (regionEnd a ≠ 0) && rowsIn a stride rows rb (regionEnd a)

/-- Virtual numbers of the masked cores (R30, R234). -/
def maskedCores (dests : Nat) : List Nat :=
  (List.range 256).filter fun v => (dests / 2 ^ 16).testBit (reachOf v) && dests.testBit (cirOf v)

/-- Tree entry of an SCAST is valid, and this chip its root (R396, R232). -/
def State.treeOk (s : State) (t : Nat) : Bool :=
  treeValid.get (s.treeWord s.bank t 0) == 1 && treeIn.get (s.treeWord s.bank t 0) == 0x3F

/-- The masks of an SCAST name cores of the virtual grid alone, and none that is fenced where this chip's cores are among the
destinations (R39, R232). -/
def State.masksOk (s : State) (dests : Nat) : Bool :=
  let here := !dests.testBit 63 || treeLocal.get (s.treeWord s.bank (dests / 2 ^ 48 % 1024) 0) == 1
  (maskedCores dests).all fun v => decide (v < s.vgrid) && (!here || s.enabled (s.vmap v))

/-- The checks of R232 to R235 on a transfer of core `n`; a local address above 32 bits fails them with 0x3402 (log entry 31). -/
def State.sluOk (s : State) (n : Nat) (o : SluOp) : Bool :=
  decide (1 ≤ o.rows ∧ 32 ≤ o.rowB ∧ o.rowB ≤ 0x800000) && o.rowB % 32 == 0 && o.fmt != 15 && o.rclass != 3 &&
  match o.kind with
  | .copy =>
    s.targetOk n o.flat false o.src o.sstr o.rows o.rowB && s.targetOk n o.flat true o.dst o.dstr o.rows o.rowB
  | .cast =>
    let src := gAddr o.src
    o.rclass != 1 && s.isHere (gChip o.src) && decide (src < 0x400000000) && decide (src / 0x4000000 < s.vgrid) &&
    s.vmap (src / 0x4000000) == n && s.targetOk n false false o.src o.sstr o.rows o.rowB &&
    decide (o.dst < 2 ^ 32) && localOk o.dst o.dstr o.rows o.rowB &&
    o.dests / 2 ^ 16 % 2 ^ 16 != 0 && o.dests % 2 ^ 16 != 0 &&
    (!o.dests.testBit 63 || s.treeOk (o.dests / 2 ^ 48 % 1024)) && s.masksOk o.dests
  | .kvr =>
    s.targetOk n false false o.src 0 1 64 && decide (0x1000000000 ≤ gAddr o.src) && decide (o.dst < 2 ^ 32) &&
    localOk o.dst o.dstr o.rows o.rowB && o.slice % 32 == 0
  | .kvw =>
    s.targetOk n false false o.src 0 1 64 && decide (0x1000000000 ≤ gAddr o.src) && decide (o.dst < 2 ^ 32) &&
    localOk o.dst o.dstr o.rows o.rowB && o.slice % 32 == 0

/-- Floor of a transfer (R236, R358). -/
def State.sluFloor (s : State) (o : SluOp) : Nat := ceilDiv (o.rows * o.rowB) 1024 + s.lat 23

/-- An SRED (R237). -/
structure RedOp where
  dst     : Nat
  list    : Nat
  sources : Nat
  anchor  : Nat
  inFmt   : Nat
  outFmt  : Nat
  mode    : Nat
  sat     : Bool
  count   : Nat
  deriving DecidableEq, Repr

/-- The SRED a descriptor describes. -/
def redOf (d : List Word) : RedOp :=
  { dst := dfld d 3 32 32, list := dfld d 3 0 32, sources := dfld d 4 48 8, anchor := dfld d 4 40 8
    inFmt := dfld d 4 36 4, outFmt := dfld d 4 32 4, mode := dfld d 4 30 2, sat := dfld d 4 29 1 = 1
    count := dfld d 4 0 24 }

/-- BF16 or FP32. -/
def isRounded (c : Nat) : Bool := c == 0 || c == 2

/-- The checks of R232, R237 and R238 on an SRED. -/
def RedOp.ok (o : RedOp) : Bool :=
  decide (1 ≤ o.sources ∧ o.sources ≤ 64 ∧ 1 ≤ o.count ∧ o.count ≤ 1048576) && o.mode != 3 &&
  (if o.mode = 0 then o.inFmt == 14 && decide (drainPerBeat o.outFmt ≠ 0)
   else isRounded o.inFmt && isRounded o.outFmt) &&
  o.list % 32 == 0 && decide (o.list + 8 * o.sources ≤ 0x600000) &&
  decide (o.dst < 0x680000) && localOk o.dst 0 1 (fmtBytes o.outFmt o.count)

/-- Floor of an SRED (R238, R358). -/
def State.redFloor (s : State) (o : RedOp) : Nat := ceilDiv (fmtBytes o.inFmt o.count * o.sources) 1024 + s.lat 25

/-! ### Refusal (R213, R214, R240) -/

/-- Reserved bits of the operand area are 0 (R213, R220 to R237, R244); the push and pop bits of Q4 to Q7 count as such in a legacy header
(log entry 31). -/
def State.opndClean (s : State) (n : Nat) (k : OpKind) (d : List Word) : Bool :=
  let z := fun (w lo len : Nat) => dfld d w lo len == 0
  if isLegacy d then
    z 3 48 16 && z 3 40 4 && z 0 12 4 && z 4 0 8 && z 7 8 56 && z 5 60 4 && z 5 52 4
  else
    match k with
    | .xnop => z 3 0 64 && z 4 0 64 && z 5 0 64 && z 6 0 64 && z 7 0 64
    | .anop => z 3 0 64 && z 4 0 64 && z 5 0 64 && z 6 0 64 && z 7 0 64
    | .mmul => z 6 26 14 && z 7 16 3 && z 7 0 4
    | .vec i =>
      z 3 56 8 && z 3 24 8 && z 4 56 8 && z 4 24 8 && z 5 36 4 && z 5 29 3 && z 7 13 51 && (s.vecOf n i d).clean
    | .fload => z 4 48 16 && z 4 16 16 && z 5 36 12 && z 5 16 16 && z 6 0 64 && z 7 0 64
    | .fstore => z 4 48 16 && z 4 16 16 && z 5 36 12 && z 5 16 16 && z 6 0 64 && z 7 0 64
    | .scopy _ => z 5 32 8 && z 5 8 2 && z 5 0 4 && z 6 48 16 && z 6 16 16
    | .scast _ => z 5 32 8 && z 5 8 2 && z 5 0 4 && z 6 48 16 && z 6 16 16 && z 7 58 5 && z 7 32 16
    | .skvr _ => z 5 32 8 && z 5 8 2 && z 5 0 4 && z 6 48 16
    | .skvw _ => z 5 32 8 && z 5 8 2 && z 5 0 4 && z 6 48 16
    | .sred _ => z 4 56 8 && z 4 24 5 && z 5 0 64 && z 6 0 64 && z 7 0 64

/-- The pre-wait is refused (R211). -/
def preRefused (d : List Word) : Bool := 2 ≤ (dPre d).kind || ((dPre d).kind == 1 && 32 ≤ (dPre d).index)

/-- The post action is refused (R211). -/
def postRefused (d : List Word) : Bool :=
  let a := dPost d
  ((a.kind == 1 || a.kind == 2) && 32 ≤ a.index) || (a.kind == 3 && a.n != 0)

/-- The header words break R210 to R213 or R327. -/
def State.headerBad (s : State) (k : OpKind) (d : List Word) : Bool :=
  let w := hw d
  dfld d w 8 8 != 0 || dfld d (w + 2) 48 16 != 0 || dfld d (w + 2) 12 20 != 0 || preRefused d || postRefused d ||
  ((dPost d).kind != 2 && d.getD (w + 2) 0 != 0) || dTchip d == 0xFFFF || (dTchip d != 0 && !k.onSluice) ||
  ((dPost d).kind == 2 && dTchip d == 0 && decide (s.vgrid ≤ dTcore d))

/-- Formats a legacy descriptor may name (R245). -/
def legacyFmt (c : Nat) : Bool := c ≤ 4 || c == 6

/-- The formats of a legacy descriptor are permitted (R245). -/
def legacyFmts (k : OpKind) (d : List Word) : Bool :=
  match k with
  | .mmul => legacyFmt (dfld d 3 20 4) && legacyFmt (dfld d 3 16 4)
  | .vec _ => legacyFmt (dfld d 3 16 4)
  | _ => true

/-- Check of order 1 (R240). -/
def State.order1 (s : State) (n : Nat) (onX : Bool) (k : OpKind) (d : List Word) : Bool :=
  (!isLegacy d || (s.xbar (reachOf n) && legacyFmts k d)) && k.onX == onX && s.opndClean n k d && !s.headerBad k d

/-- Issuer code of a stream in QUEUE_CFG (R208). -/
def streamIssuer (onX : Bool) : Nat := if onX then 2 else 1

/-- Queues of the masks that QUEUE_CFG does not give to the stream (R188). -/
def State.badQueues (s : State) (n : Nat) (onX : Bool) (d : List Word) : List Nat :=
  (List.range 8).filter fun q =>
    ((dPop d).testBit q && !s.consumes n q (streamIssuer onX)) || ((dPush d).testBit q && !s.produces n q (streamIssuer onX))

/-- Check of order 3: shape, M, N and K, and the limit of R105. -/
def State.order3 (s : State) (n : Nat) (k : OpKind) (d : List Word) : Option Nat :=
  match k with
  | .mmul =>
    let o := mmulOf d
    if 6 ≤ o.shape then some 0x3601
    else if o.m = 0 then some 0x3601
    else if family o.wfmt ≠ 0 ∧ (32768 < o.m * o.nTile ∨ o.n = 0 ∨ o.nTile < o.n) then some 0x3601
    else if o.k = 0 then some 0x3601
    else if 4194304 < o.k then some 0x3604
    else none
  | .vec i =>
    let o := s.vecOf n i d
    let had := if o.clr then 0 else (smGet {} (s.core n).vafa o.afa).count
    if isSum i ∧ 4194304 < had + o.count then some 0x3604 else none
  | _ => none

/-- Check of order 4: formats. -/
def State.order4 (s : State) (n : Nat) (k : OpKind) (d : List Word) : Option Nat :=
  match k with
  | .mmul =>
    let o := mmulOf d
    if pairOk o.wfmt o.sfmt && decide (drainPerBeat o.dfmt ≠ 0) then none else some 0x3602
  | .vec i => if (s.vecOf n i d).fmtsOk then none else some 0x3706
  | _ => none

/-- Weight-store images of an MMUL are aligned and lie in the store (R121, R222). -/
def MmulOp.imagesOk (o : MmulOp) : Bool :=
  let img := fun (b n al : Nat) => b % al == 0 && decide (0x1000000 ≤ b ∧ b + n ≤ 0x3000000)
  img o.tileBase (o.passes * o.imageBytes) 1024 &&
  (!isMX o.wfmt || img o.scaleBase (o.passes * o.scaleBytes) 64)

/-- Operand regions of an MMUL (R222, R223, R241). -/
def State.mmulRegions (s : State) (n : Nat) (o : MmulOp) : Bool :=
  let rowB := fmtBytes o.sfmt o.k
  let acts := if o.gather then (s.place n o.actBase).isSome && (!isMX o.sfmt || (s.place n o.ascaleBase).isSome)
    else s.inBasin n o.actBase o.actStride o.m rowB &&
      (!isMX o.sfmt || s.inBasin n o.ascaleBase (32 * ceilDiv o.k 1024) o.m (ceilDiv o.k 32))
  let dstB := o.n * drainBytes o.dfmt
  o.actBase % 32 == 0 && (!isMX o.sfmt || o.ascaleBase % 32 == 0) && o.dstBase % 32 == 0 && acts &&
  (!o.gather || (o.gatherBase % 32 == 0 && s.inBasin n o.gatherBase 0 1 (2 * o.m))) &&
  (s.inBasin n o.dstBase o.dstStride o.m dstB || inCache o.dstBase o.dstStride o.m dstB)

/-- Checks of orders 5 to 8. -/
def State.orders5to8 (s : State) (n : Nat) (k : OpKind) (d : List Word) : Option Nat :=
  match k with
  | .mmul =>
    let o := mmulOf d
    if !o.imagesOk then some 0x3605 else if !s.mmulRegions n o then some 0x3607 else none
  | .vec i =>
    let o := s.vecOf n i d
    if o.count = 0 ∨ 4096 < o.count then some 0x3701
    else if o.leaves then some 0x3703
    else if o.clash then some 0x3702
    else if i = 25 ∧ (o.k = 0 ∨ 256 < o.k) ∨ i = 26 ∧ 256 < o.count then some 0x3705
    else if i = 26 ∧ !s.recordOk n o then some 0x3705
    else if (o.bsc && !bscOk i) || (o.csc && i != 3) || (o.bsc && o.csc) || (i == 9 && o.pred == 7) ||
      (i == 26 && o.maskEn) then some 0x3708
    else none
  | .fload => if s.feedOk n (feedOf true d) then none else some 0x3402
  | .fstore => if s.feedOk n (feedOf false d) then none else some 0x3402
  | .scopy _ => if s.sluOk n (sluOf n .copy d) then none else some 0x3402
  | .scast _ => if s.sluOk n (sluOf n .cast d) then none else some 0x3402
  | .skvr _ => if s.sluOk n (sluOf n .kvr d) then none else some 0x3402
  | .skvw _ => if s.sluOk n (sluOf n .kvw d) then none else some 0x3402
  | .sred _ => if (redOf d).ok then none else some 0x3402
  | _ => none

/-- Cost C of an MMUL with the latencies in force (R132, R224, R242). -/
def State.mmulCost (s : State) (n : Nat) (o : MmulOp) : Nat :=
  let remoteIn := s.isRemote n o.actBase || (isMX o.sfmt && s.isRemote n o.ascaleBase) ||
    (o.gather && s.isRemote n o.gatherBase)
  o.f + (o.passes - 1) * o.passBeats + o.m * o.r + s.lat 0 + 1 + o.d +
    (if remoteIn then s.lat 26 else 0) + (if s.isRemote n o.dstBase then s.lat 26 else 0)

/-- Check of order 9: the declared cost. -/
def State.order9 (s : State) (n : Nat) (k : OpKind) (d : List Word) : Option Nat :=
  let c := dCost d
  match k with
  | .xnop => if c = 0 then some 0x3809 else none
  | .anop => if c = 0 then some 0x3809 else none
  | .mmul => if c = s.mmulCost n (mmulOf d) then none else some 0x3606
  | .vec i => if c = s.vecCost (s.vecOf n i d) then none else some 0x3707
  | .fload => if s.feedFloor n (feedOf true d) ≤ c then none else some 0x3406
  | .fstore => if s.feedFloor n (feedOf false d) ≤ c then none else some 0x3406
  | .scopy _ => if s.sluFloor (sluOf n .copy d) ≤ c then none else some 0x3406
  | .scast _ => if s.sluFloor (sluOf n .cast d) ≤ c then none else some 0x3406
  | .skvr _ => if s.sluFloor (sluOf n .kvr d) ≤ c then none else some 0x3406
  | .skvw _ => if s.sluFloor (sluOf n .kvw d) ≤ c then none else some 0x3406
  | .sred _ => if s.redFloor (redOf d) ≤ c then none else some 0x3406

/-- The code with which the descriptor at the head of a stream of core `n` is refused, if any (R240). -/
def State.refusal (s : State) (n : Nat) (onX : Bool) (d : List Word) : Option Nat :=
  match opKind (opByte d) with
  | none => some 0x3809
  | some k =>
    if !s.order1 n onX k d then some 0x3809
    else if !(s.badQueues n onX d).isEmpty then some 0x3803
    else
      (s.order3 n k d).orElse fun _ => (s.order4 n k d).orElse fun _ => (s.orders5to8 n k d).orElse fun _ =>
        s.order9 n k d

end Sys2Proof.Machine
end

