-- ==== Sys2Proof/Machine/Streams.lean ====
section
/-! DEFINITION. How a stream starts and ends macro-ops: the conditions of R181, refusal (R183, R214), the contenders of a lock
counter (R316, R317), the writes and pushes of a last beat (R182, R186) and post actions (R211, R212). -/

namespace Sys2Proof.Machine

/-! ### The head of a stream -/

/-- Issue FIFO of a stream. -/
def Core.fifo (c : Core) (onX : Bool) : List (List Word) := if onX then c.xFifo else c.aFifo

/-- Start beat of the stream's previous macro-op. -/
def Core.lastStart (c : Core) (onX : Bool) : Option Nat := if onX then c.xStart else c.aStart

/-- What a unit runs. -/
def Core.running (c : Core) : UnitId → Option RunOp
  | .array => c.array
  | .vector => c.vector
  | .feeder => c.feeder
  | .sluice s => c.sluice.getD s.val none

/-- Put a macro-op on a unit, or take it off. -/
def Core.setRunning (c : Core) (u : UnitId) (r : Option RunOp) : Core :=
  match u with
  | .array => { c with array := r }
  | .vector => { c with vector := r }
  | .feeder => { c with feeder := r }
  | .sluice s => { c with sluice := c.sluice.set s.val r }

/-- Number of a unit. -/
def unitNum : UnitId → Nat
  | .array => 0
  | .vector => 1
  | .feeder => 2
  | .sluice s => 3 + s.val

/-- The beat in progress in the reach of core `n` is not complete, so work of that beat may still happen in it. -/
def State.inBeat (s : State) (n : Nat) : Bool := !(s.reach (reachOf n)).complete

/-- The streams of the core start macro-ops (R203), and a beat is in progress. -/
def State.streamsRun (s : State) (n : Nat) : Bool :=
  (s.coreState n == stRunning || s.coreState n == stHalted) && s.inBeat n && s.toll.ctxAt.isNone

/-- The unit ended its previous macro-op in an earlier beat (R181). -/
def State.unitFree (s : State) (n : Nat) (u : UnitId) : Bool :=
  let c := s.core n
  (c.running u).isNone &&
  match smFind c.freed (unitNum u) with
  | some b => decide (b < s.beatOf n)
  | none => true

/-- The head of a stream's FIFO was there when the beat in progress began: an append is the work of its own beat (R180, R181; log
entry 8). -/
def State.headThere (s : State) (n : Nat) (onX : Bool) : Bool :=
  let c := s.core n
  decide (2 ≤ (c.fifo onX).length) ||
  match if onX then c.xIssue else c.aIssue with
  | some b => decide (b < s.beatOf n)
  | none => true

/-- The start order and the unit allow the head to start in the beat in progress (R181). -/
def State.orderOk (s : State) (n : Nat) (onX : Bool) (d : List Word) : Bool :=
  s.streamsRun n && s.headThere n onX &&
  (match (s.core n).lastStart onX with
   | some b => decide (b < s.beatOf n)
   | none => true) &&
  (match opKind (opByte d) with
   | some k => s.unitFree n k.unit
   | none => true)

/-- Every queue of the pop mask that is not refused holds an entry from before the beat (R181, R214). -/
def State.popsOk (s : State) (n : Nat) (onX : Bool) (d : List Word) : Bool :=
  (List.range 8).all fun q =>
    !((dPop d).testBit q && s.consumes n q (streamIssuer onX)) || (s.poppable n q).isSome

/-- What an issuer waiting on counter `i` would take: its n, where the head of the stream is a contender of R316. -/
def State.contends (s : State) (n : Nat) (onX : Bool) (i : Nat) : Option Nat :=
  match (s.core n).fifo onX with
  | d :: _ =>
    if (dPre d).kind = 1 ∧ (dPre d).index = i ∧ s.orderOk n onX d ∧ s.popsOk n onX d ∧ (s.refusal n onX d).isNone then
      some (dPre d).n
    else none
  | [] => none

/-- What is left of a count once a contender that comes first has been served, if it can be (R317). -/
def serveFirst (left : Nat) : Option Nat → Nat
  | some k => if k ≤ left then left - k else left
  | none => left

/-- The count that the contender of an issuer finds (R317): what the contenders before it in the order of R179 leave. -/
def State.countFor (s : State) (n i : Nat) (w : Issuer) : Nat :=
  let c := s.lockCount n i
  match w with
  | .aStream => c
  | .xStream => serveFirst c (s.contends n false i)
  | _ => serveFirst (serveFirst c (s.contends n false i)) (s.contends n true i)

/-- Issuer of a stream. -/
def issuerOf (onX : Bool) : Issuer := if onX then .xStream else .aStream

/-- Code of an issuer in the order of R179. -/
def issuerNum : Issuer → Nat
  | .aStream => 0
  | .xStream => 1
  | .keeper => 2
  | .other => 3

/-- The pre-wait of the head can be satisfied in the beat in progress (R181, R317). -/
def State.preOk (s : State) (n : Nat) (onX : Bool) (d : List Word) : Bool :=
  (dPre d).kind != 1 || decide ((dPre d).n ≤ s.countFor n (dPre d).index (issuerOf onX))

/-- For a descriptor that fails a check, its pre-wait is judged on the count at the start of the beat (R214). -/
def State.preAtStart (s : State) (n : Nat) (d : List Word) : Bool :=
  (dPre d).kind != 1 || preRefused d ||
  decide ((dPre d).n ≤ s.lockCount n (dPre d).index + smGet 0 (s.core n).served (dPre d).index)

/-- What the head of a stream does in the beat in progress. -/
inductive Head where
  | waits
  | refused (code : Nat)
  | starts
  deriving DecidableEq, Repr

/-- The fate of the head descriptor (R181, R183, R214). -/
def State.headFate (s : State) (n : Nat) (onX : Bool) : Head :=
  match (s.core n).fifo onX with
  | [] => .waits
  | d :: _ =>
    if !(s.orderOk n onX d && s.popsOk n onX d) then .waits
    else match s.refusal n onX d with
      | some code => if s.preAtStart n d then .refused code else .waits
      | none => if s.preOk n onX d then .starts else .waits

/-- The address that the log entry of a refused mover's descriptor names (R551): its destination (log entry 31). -/
def State.headInfo (s : State) (n : Nat) (d : List Word) : Nat :=
  match opKind (opByte d) with
  | some (.fload) => s.placeAddr n (feedOf true d).dst
  | some (.fstore) => s.placeAddr n (feedOf false d).dst
  | some (.scopy _) => (sluOf n .copy d).dst
  | some (.scast _) => coreBase n + (sluOf n .cast d).dst
  | some (.skvr _) => coreBase n + (sluOf n .kvr d).dst
  | some (.skvw _) => coreBase n + (sluOf n .kvw d).dst
  | some (.sred _) => coreBase n + (redOf d).dst
  | _ => 0

/-- Log a refused descriptor and put the core in FAULT (R183, R188, R214). -/
def State.refuseHead (s : State) (n : Nat) (onX : Bool) (d : List Word) (code : Nat) : State :=
  if code = 0x3803 then
    let bad := s.badQueues n onX d
    let s := bad.foldl (fun t q => t.hwSet (Reg.QUEUE_STAT n) Fld.QUEUE_STAT.fault_q (2 ^ q)) s
    (s.logCore n code (bad.headD 0) 0 (some (dTag d))).faultCore n code
  else (s.logCore n code 0 (if code / 256 = 0x34 then s.headInfo n d else 0) (some (dTag d))).faultCore n code

/-- Address of ASTREAM_STAT or XSTREAM_STAT, which have one layout (R208). -/
def streamStat (n : Nat) (onX : Bool) : Nat := if onX then Reg.XSTREAM_STAT n else Reg.ASTREAM_STAT n

/-- Start the head of a stream in the beat in progress: serve its pre-wait, pop its queues, take it from the FIFO, and put
it on its unit (R181, R186). -/
def State.startHead (s : State) (n : Nat) (onX : Bool) (d : List Word) (k : OpKind) : State :=
  let qs := (List.range 8).filter fun q => (dPop d).testBit q
  let ents := qs.filterMap fun q => s.poppable n q
  let user := match ents with
    | e :: _ => e.bytes.drop 32
    | [] => List.replicate 32 0
  let poison := ents.any fun e => (e.bytes.getD 11 0).toNat.testBit 0
  let s := if (dPre d).kind = 1 ∧ (dPre d).n ≠ 0 then s.serve n (dPre d).index (dPre d).n else s
  let s := qs.foldl (fun t q => t.pop n q) s
  let c := s.core n
  let b := s.beatOf n
  let legacy := isLegacy d
  let run : RunOp := { desc := d, start := b, cost := dCost d, user := user, poison := poison
                       sig := if legacy then dfld d 3 32 16 else 0, legacy := legacy }
  let c := c.setRunning k.unit (some run)
  let c := if onX then { c with xFifo := c.xFifo.drop 1, xStart := some b }
    else { c with aFifo := c.aFifo.drop 1, aStart := some b }
  let s := s.setCore n c
  let s := s.addTo (streamStat n onX) Fld.XSTREAM_STAT.started 1
  s.refresh n

/-- Replace what a unit runs. -/
def State.setRun (s : State) (n : Nat) (u : UnitId) (r : Option RunOp) : State :=
  s.setCore n ((s.core n).setRunning u r)

/-- Apply `f` to the macro-op a unit runs. -/
def State.modRun (s : State) (n : Nat) (u : UnitId) (f : RunOp → RunOp) : State :=
  match (s.core n).running u with
  | some r => s.setRun n u (some (f r))
  | none => s

/-- The head descriptor of a stream names an operation of a class, in native or legacy form. -/
def State.headIs (s : State) (n : Nat) (onX legacy : Bool) (p : OpKind → Bool) : Option (List Word × OpKind) :=
  match (s.core n).fifo onX with
  | d :: _ =>
    match opKind (opByte d) with
    | some k => if p k && isLegacy d == legacy then some (d, k) else none
    | none => none
  | [] => none

/-- Start, or refuse, the head descriptor of either stream of core `n` where it names an operation of a class. A descriptor
that went to the wrong stream is refused there (R197). `go` is the unit's own work in beat 0. -/
def State.startOp (s : State) (n : Nat) (legacy : Bool) (p : OpKind → Bool)
    (go : State → List Word → OpKind → State) : State :=
  let try1 := fun (onX : Bool) (t : State) =>
    match t.headIs n onX legacy p with
    | none => t
    | some (d, k) =>
      match t.headFate n onX with
      | .waits => t
      | .refused code => t.refuseHead n onX d code
      | .starts => go (t.startHead n onX d k) d k
  try1 true (try1 false s)

/-- Refuse the head of a stream whose opcode names no operation (R213). -/
def State.refuseUnknown (s : State) (n : Nat) (onX : Bool) : State :=
  match (s.core n).fifo onX with
  | d :: _ =>
    if (opKind (opByte d)).isNone then
      match s.headFate n onX with
      | .refused code => s.refuseHead n onX d code
      | _ => s
    else s
  | [] => s

/-! ### Writes of a last beat (R152, R164, R278) -/

/-- Lines that writes touch, each once. -/
def touched (ws : List PendWrite) : List Nat :=
  ((ws.map fun (w : PendWrite) => w.bit / 256 * 32) ++
   (ws.map fun (w : PendWrite) => (w.bit + w.width - 1) / 256 * 32)).eraseDups

/-- Bits of a write that fall in the line at `la`, as a value and a mask over its 256 bits. -/
def PendWrite.inLine (w : PendWrite) (la : Nat) : Nat × Nat :=
  let full := 2 ^ w.width - 1
  if 8 * la ≤ w.bit then ((w.val % 2 ^ w.width) <<< (w.bit - 8 * la) % 2 ^ 256, full <<< (w.bit - 8 * la) % 2 ^ 256)
  else ((w.val % 2 ^ w.width) >>> (8 * la - w.bit) % 2 ^ 256, full >>> (8 * la - w.bit) % 2 ^ 256)

/-- Record the lines that a unit's macro-op read, each code logged once for it; whether one was uncorrectable (R280). -/
def State.readLines (s : State) (n : Nat) (u : UnitId) (a len : Nat) : State × Bool :=
  let bad := s.badLines a len
  match (s.core n).running u with
  | none => (s, false)
  | some r =>
    let (t, logged) := s.noteLines bad (some n) (some (dTag r.desc)) r.logged
    (t.modRun n u fun x => { x with logged := logged }, bad.any (·.2))

/-- The macro-op on a unit has read or written poison, which its pushes carry (R186, R281). -/
def State.taint (s : State) (n : Nat) (u : UnitId) (bad : Bool) : State :=
  if bad then s.modRun n u fun r => { r with poison := true } else s

/-- Make the writes of a macro-op to one line, at its unit's rank in R152; a line that they do not cover whole is read first, and where
it is uncorrectable the line stays poison (R164, R278 to R280). -/
def State.writeLine (s : State) (n : Nat) (u : UnitId) (rank : Nat) (ws : List PendWrite) (la : Nat) : State :=
  let here := ws.filter fun w => (w.inLine la).2 != 0
  let mask := here.foldl (fun m w => m ||| (w.inLine la).2) 0
  let val := here.foldl (fun v w => (v &&& (fullLine - (w.inLine la).2)) ||| (w.inLine la).1) 0
  let bad := here.any (·.poison)
  let (s, ue) := if mask = fullLine then (s, false) else s.readLines n u la 32
  (s.taint n u (bad || ue)).lineWrite rank la mask val bad

/-- Make the writes of the macro-op on a unit of core `n`. -/
def State.applyWrites (s : State) (n : Nat) (u : UnitId) (rank : Nat) (ws : List PendWrite) : State :=
  (touched ws).foldl (fun t la => t.writeLine n u rank ws la) s

/-! ### Barrier completion (R331, R335 to R337) -/

/-- The stream of a unit. -/
def onXUnit : UnitId → Bool
  | .array => true
  | .vector => true
  | _ => false

/-- The die is held for a WAIT of core `n` on counter `i`: by its keeper, or by the head of a stream (R331). -/
def State.waitsOn (s : State) (n i : Nat) (h : HoldReq) : Bool :=
  h.core == n && h.cause == .linkLate &&
  match h.unit with
  | none => match (s.core n).kwait with
    | .lwait j _ => j == i
    | _ => false
  | some u => ((s.core n).running u).isNone &&
    [false, true].any fun onX => match (s.core n).fifo onX with
      | d :: _ => (dPre d).kind == 1 && (dPre d).index == i && onXUnit u == onX
      | [] => false

/-- A SIGNAL barge for a counter whose WAIT holds the die is applied, and the hold ends (R331). -/
def State.endWait (s : State) (n i k : Nat) : State :=
  let p := s.waitsOn n i
  (s.signal n i k 256 3).holdOff p

/-- The pending store is full (R329). -/
def State.pendFull (s : State) : Bool := decide (512 ≤ s.locks.pend.length)

/-- A signal that finds the pending store full is applied at once, with 0x330A (R332, R345). -/
def State.applyFull (s : State) (cores : List Nat) (i k : Nat) : State :=
  let s := s.put Reg.DTRM_STAT Fld.DTRM_STAT.xsig_late 1
  let s := s.lockErr 0x330A (cores.headD 0) 3 i k
  cores.foldl (fun (t : State) n => t.signal n i k 256 3) s

/-- A fabric release enters the pending store of this chip, but for the cores whose WAIT on its counter holds the die (R331, R337). -/
def State.pendRelease (s : State) (i apply parity : Nat) : State :=
  let ctr := s.get (Reg.LOCK_SLOT_CTRL i) Fld.LOCK_SLOT_CTRL.rel_ctr
  let held := (s.slotCores i).filter fun n => s.die.holds.any (s.waitsOn n ctr)
  let rest := (s.slotCores i).filter fun n => !held.contains n
  let s := held.foldl (fun t n => t.endWait n ctr 1) s
  if rest.isEmpty then s
  else if s.pendFull then s.applyFull rest ctr 1
  else ({ s with locks := { s.locks with pend := s.locks.pend ++ [(⟨2, 256, ctr, 1, apply, parity, rest⟩ : PendSig)] } }).showPend

/-- The leader has every chip of the generation in: it sends the fabric release (R337). -/
def State.leaderCheck (s : State) (i : Nat) : State :=
  let a := Reg.LOCK_SLOT_CTRL i
  let x := s.slot i
  let cur := x.chips.filter fun p => p.1 == x.gen
  if s.get a Fld.LOCK_SLOT_CTRL.nchips = 0 ∨ cur.length < s.get a Fld.LOCK_SLOT_CTRL.nchips then s.showSlot i
  else
    let apply := (cur.map (·.2)).foldl max 0 + 2 * s.xlat
    let tree := s.get a Fld.LOCK_SLOT_CTRL.tree_id
    let h := hMcast.set (hdr3 8 0 (0x400 + tree) 0 s.stepParity) 1
    let b := mkBarge h (signalPayload x.gen s.chipAddr apply 2 i 0)
    let s := s.setSlot i { x with sent := x.gen, chips := x.chips.filter fun p => p.1 != x.gen }
    ((s.sendTree tree b).pendRelease i apply s.stepParity).showSlot i

/-- A chip arrival at the leader (R337). -/
def State.chipArrive (s : State) (i gen a : Nat) : State :=
  let x := s.slot i
  (s.setSlot i { x with chips := x.chips ++ [(gen, a)] }).leaderCheck i

/-- Completion of a slot's local set in beat `b`, step beat `sb` (R336, R337). -/
def State.slotComplete (s : State) (i b sb : Nat) : State :=
  let x := s.slot i
  let a := Reg.LOCK_SLOT_CTRL i
  let cores := s.slotCores i
  let st := Reg.LOCK_SLOT_STAT i
  let s := s.addTo st Fld.LOCK_SLOT_STAT.gen 1
  let s := s.setSlot i { x with
    arrived := x.early, early := []
    again := if cores.all x.early.contains then some (b + 1, sb + 1) else none }
  let s := s.showSlot i
  let s := if s.get Reg.SNAP_LOCK Fld.SNAP_LOCK.kind = 1 ∧ s.get Reg.SNAP_LOCK Fld.SNAP_LOCK.index = i then s.trigger 2 0 b else s
  if s.get a Fld.LOCK_SLOT_CTRL.fabric = 0 then
    { s with locks := { s.locks with releases := s.locks.releases ++
        [⟨i, b + s.lat 22, s.get a Fld.LOCK_SLOT_CTRL.rel_ctr, cores⟩] } }
  else
    let arr := sb + s.lat 22
    let gen := s.get st Fld.LOCK_SLOT_STAT.gen
    if s.get a Fld.LOCK_SLOT_CTRL.leader = 1 then s.chipArrive i gen arr
    else
      let lchip := s.get a Fld.LOCK_SLOT_CTRL.lchip
      s.sendOut lchip (mkBarge (hdr3 8 lchip 0 0 s.stepParity) (signalPayload gen s.chipAddr arr 1 i 0))

/-- Record an arrival at a slot (R335, R336). -/
def State.slotRecord (s : State) (i : Nat) (e : SlotArrival) : State :=
  let x := s.slot i
  if x.arrived.contains e.core then
    if x.early.contains e.core then s.lockErr 0x3305 e.core e.issuer i 0
    else (s.setSlot i { x with early := x.early ++ [e.core] }).showSlot i
  else
    let s := (s.setSlot i { x with arrived := x.arrived ++ [e.core] }).showSlot i
    if (s.slotCores i).all (x.arrived ++ [e.core]).contains then s.slotComplete i e.beat e.step else s

/-- Every participant's reach has come to beat `b`: no arrival of an earlier beat is still to come. -/
def State.slotAt (s : State) (i b : Nat) : Bool := (s.slotCores i).all fun m => decide (b ≤ s.beatOf m)

/-- A slot whose early bits complete the set completes again in the next beat (R336). -/
def State.slotAgain (s : State) (i : Nat) : State :=
  match (s.slot i).again with
  | none => s
  | some (t, sb) => if s.slotAt i t then (s.setSlot i { s.slot i with again := none }).slotComplete i t sb else s

/-- Insert an arrival in the order of beats. -/
def placeArrival (e : SlotArrival) : List SlotArrival → List SlotArrival
  | [] => [e]
  | x :: t => if e.beat < x.beat then e :: x :: t else x :: placeArrival e t

/-- Arrivals that waited are recorded in the order of their beats, with second completions between them; the first argument bounds the
rounds. -/
def State.slotDrain (s : State) (i : Nat) : Nat → State
  | 0 => s
  | fuel + 1 =>
    let x := s.slot i
    match x.again, x.wait with
    | some (t, sb), e :: rest =>
      if t < e.beat then
        (if s.slotAt i t then ((s.setSlot i { x with again := none }).slotComplete i t sb).slotDrain i fuel else s)
      else if s.slotAt i e.beat then ((s.setSlot i { x with wait := rest }).slotRecord i e).slotDrain i fuel else s
    | none, e :: rest =>
      if s.slotAt i e.beat then ((s.setSlot i { x with wait := rest }).slotRecord i e).slotDrain i fuel else s
    | some _, [] => s.slotAgain i
    | none, [] => s

/-- Every slot takes the arrivals that waited for the beats which the reaches have come to. -/
def State.slotsDrain (s : State) : State :=
  s.locks.slots.foldl (fun (t : State) e =>
    if e.2.wait.isEmpty ∧ e.2.again.isNone then t else t.slotDrain e.1 (2 * e.2.wait.length + 2)) s

/-- An arrival of core `n` at slot `i` in the beat in progress: recorded in that beat, in the order of beats where reaches run apart
(R335, R336). -/
def State.arrive (s : State) (n i issuer : Nat) : State :=
  let x := s.slot i
  let e : SlotArrival := ⟨n, s.beatOf n, issuer, s.beatOf n - (s.core n).stepBeat0⟩
  if s.get (Reg.LOCK_SLOT_CTRL i) Fld.LOCK_SLOT_CTRL.armed = 0 then s.lockErr 0x3306 n issuer i 0
  else if !(s.slotCores i).contains n then s.lockErr 0x3304 n issuer i 0
  else if x.wait.isEmpty && s.slotAt i e.beat then s.slotRecord i e
  else s.setSlot i { x with wait := placeArrival e x.wait }

/-! ### The last beat (R182, R186, R211, R212, R239, R245) -/

/-- The entry a macro-op pushes (R185, R186). -/
def RunOp.entry (r : RunOp) : List Byte :=
  natLe 4 (r.push.addr % 2 ^ 32) ++ natLe 4 (r.push.len % 2 ^ 32) ++ natLe 2 (r.push.stride % 2 ^ 16) ++
  natLe 1 (r.push.fmt % 16) ++ natLe 1 (if r.poison then 1 else 0) ++ natLe 4 (r.push.scale % 2 ^ 32) ++
  natLe 2 (dTag r.desc) ++ List.replicate 14 0 ++ r.user

/-- Push to every queue of the push mask; an overflow faults the core (R187, R188). -/
def State.pushAll (s : State) (n : Nat) (r : RunOp) : State :=
  (List.range 8).foldl (fun t q => if (dPush r.desc).testBit q then t.push n q r.entry else t) s

/-- A counter signal to a core of another chip, by the sluice whose transfer it follows (R212, R328). -/
def State.signalChip (s : State) (n sl chip vcore i k : Nat) : State :=
  let par := (s.reg (Reg.STEP_REC n 0)).toNat % 2
  let b := mkBarge (hdr3 8 chip (0x800 + vcore) 0 par) (signalPayload 0 s.chipAddr (s.stepBeat n + s.xlat) 0 i k)
  match s.lookup s.bank chip false with
  | some (p, _) => s.launch n .localPort (1 + sl) 0 (withExit p s.bank b)
  | none => s.logErr { code := 0x5906 }

/-- The post action of a macro-op in its last beat (R211, R212, R324, R325, R328, R335). -/
def State.postAct (s : State) (n : Nat) (u : UnitId) (onX : Bool) (d : List Word) : State :=
  let sl := match u with
    | .sluice k => k.val
    | _ => 0
  let a := dPost d
  let w := (issuerNum (issuerOf onX))
  if a.kind = 1 then s.signal n a.index a.n n w
  else if a.kind = 2 then
    if dTchip d = 0 then s.signalTo n (s.vmap (dTcore d)) a.index a.n w
    else if s.isHere (dTchip d) then
      if dTcore d < s.vgrid then s.signalTo n (s.vmap (dTcore d)) a.index a.n w else s.lost3308 (dTcore d) a.index a.n
    else if a.n = 0 then s
    else s.signalChip n sl (dTchip d) (dTcore d) a.index a.n
  else if a.kind = 3 then s.arrive n a.index w
  else s

/-- The AVN-3 post-signal of a legacy descriptor, after the header's post action (R244, R245). -/
def State.legacySig (s : State) (n : Nat) (onX : Bool) (r : RunOp) : State :=
  if r.legacy then s.signal n (r.sig / 2 ^ 12 % 16) (r.sig % 256) n (issuerNum (issuerOf onX)) else s

/-- A macro-op ends in the beat in progress: its unit is free from the next, it pushes, and its post action is applied;
a refused or abandoned transfer pushes poison and sends no signal (R182, R256, R352). -/
def State.endOp (s : State) (n : Nat) (u : UnitId) (onX : Bool) (r : RunOp) : State :=
  let c := (s.core n).setRunning u none
  let s := s.setCore n { c with freed := smPut c.freed (unitNum u) (s.beatOf n) }
  let s := s.pushAll n { r with poison := r.poison || r.dead }
  let s := if r.dead then s else (s.postAct n u onX r.desc).legacySig n onX r
  s.refresh n

end Sys2Proof.Machine
end

