-- ==== Sys2Proof/Machine/Vector.lean ====
section
/-! DEFINITION. The vector engine (R147 to R177): each instruction reads its sources in its first beat and makes its writes in
its last (log entry 7). -/

namespace Sys2Proof.Machine

/-! ### Elements and lanes (R150, R153 to R155, R163) -/

/-- Byte offset in the operand cache of the first and the last byte of element `i` of an operand (R85, R147). -/
def elemSpan (start fmt i : Nat) : Nat × Nat :=
  (start + fmtBits fmt * i / 8, start + (fmtBits fmt * (i + 1) - 1) / 8)

/-- Device address of an operand-cache offset. -/
def cacheAddr (n o : Nat) : Nat := coreBase n + 0x600000 + o

/-- Bits of element `i` of an operand. -/
def State.velem (s : State) (n start fmt i : Nat) : Nat :=
  let (lo, hi) := elemSpan start fmt i
  (leNat (s.bytes (cacheAddr n lo) (hi + 1 - lo)) >>> (fmtBits fmt * i % 8)) % 2 ^ fmtBits fmt

/-- Lines that element `i` touches. -/
def elemLines (n start fmt i : Nat) : List Nat :=
  let (lo, hi) := elemSpan start fmt i
  [lineOf (cacheAddr n lo), lineOf (cacheAddr n hi)].eraseDups

/-- A line reads as uncorrectable. -/
def State.lineBad (s : State) (la : Nat) : Bool := lineStat (s.eccOf la) == .uncorrectable

/-- An element lies in an uncorrectable line. -/
def State.elemBad (s : State) (n start fmt i : Nat) : Bool := (elemLines n start fmt i).any s.lineBad

/-- Bit `i` of a mask operand. -/
def State.maskBit (s : State) (n start i : Nat) : Bool :=
  (s.byte (cacheAddr n (start + i / 8))).toNat.testBit (i % 8)

/-- Line of the byte that holds mask bit `i`. -/
def maskLine (n start i : Nat) : Nat := lineOf (cacheAddr n (start + i / 8))

/-- Lane `i` is active, and whether its mask line is uncorrectable (R154, R163). -/
def State.lane (s : State) (n : Nat) (o : VecOp) (i : Nat) : Bool × Bool :=
  if !o.maskEn then (true, false)
  else if s.lineBad (maskLine n o.mask.start i) then (true, true)
  else (xor (s.maskBit n o.mask.start i) o.minv, false)

/-- Active lanes in ascending order, each with whether its mask line poisons it. -/
def State.lanesOn (s : State) (n : Nat) (o : VecOp) : List (Nat × Bool) :=
  (List.range o.count).filterMap fun i =>
    let l := s.lane n o i
    if l.1 then some (i, l.2) else none

/-- Lines that the lanes given read: sources, scales, masks. -/
def VecOp.linesRead (o : VecOp) (n : Nat) (lanes : List Nat) : List Nat :=
  let elem := fun (v : VOpnd) => (lanes.map fun i => elemLines n v.start v.fmt i).flatten
  let list := fun (start bytes : Nat) => (List.range (linesIn start bytes)).map fun j => lineOf (cacheAddr n start) + 32 * j
  ((if o.aElem then elem o.a else (lanes.map fun i => [lineOf (cacheAddr n (o.a.start + 8 * i))]).flatten) ++
   (if o.bMem then (if o.i = 26 then list o.b.start 32 else elem o.b) else []) ++
   (if o.cMem && o.i == 3 then elem o.c else []) ++
   (if o.cMem && o.i == 8 then lanes.map (maskLine n o.c.start) else []) ++
   (if o.mx && isMX o.a.fmt then lanes.map fun i => lineOf (cacheAddr n (o.c.start + i / 32)) else []) ++
   (if o.maskEn then list o.mask.start (maskSpan o.count) else [])).eraseDups

/-- Lane `i` reads an uncorrectable source line (R163). -/
def State.srcBad (s : State) (n : Nat) (o : VecOp) (i : Nat) : Bool :=
  (if o.aElem then s.elemBad n o.a.start o.a.fmt i else s.lineBad (lineOf (cacheAddr n (o.a.start + 8 * i)))) ||
  (o.bMem && o.i != 26 && s.elemBad n o.b.start o.b.fmt i) ||
  (o.cMem && o.i == 3 && s.elemBad n o.c.start o.c.fmt i) ||
  (o.cMem && o.i == 8 && s.lineBad (maskLine n o.c.start i)) ||
  (o.mx && isMX o.a.fmt && s.lineBad (lineOf (cacheAddr n (o.c.start + i / 32))))

/-! ### Values (R158 to R162) -/

/-- The outcome of an instruction: its writes, lane flags (inv 1, ovf 2, dz 4, poison 8), the AFA it leaves, the flags of what
it drained, whether the drain logs 0x3603, and whether it drew from the entropy source. -/
structure VRes where
  writes : List PendWrite := []
  lane   : Nat := 0
  afa    : Option (Nat × Afa) := none
  drain  : Option Nat := none
  ovf    : Bool := false
  entropy : Bool := false
  deriving DecidableEq, Repr

/-- Whether the bits of an element are NaN. -/
def bitsNaN (fmt b : Nat) : Bool := (decodeElem fmt b).isNaN

/-- Bits of a poison value (R163); FP4, a float format without NaN, takes code 0 (log entry 30). -/
def poisonBits (fmt : Nat) : Nat :=
  match elemKind fmt with
  | .float f => canonNaN f
  | .afa => 2 ^ 127
  | _ => 0

/-- The greater, or the lesser, of two numbers, with -0 below +0 (R160). -/
def pickNum (max : Bool) (x y : Num) : Num :=
  if x.isNaN || y.isNaN then .nan
  else
    let below := x.lt y || (x.isZero && y.isZero && x.isNeg && !y.isNeg)
    if below == max then y else x

/-- A predicate of VCMP (R160). -/
def predicate (p : Nat) (x y : Num) : Bool :=
  let un := x.isNaN || y.isNaN
  match p with
  | 0 => x.eqv y
  | 1 => un || !x.eqv y
  | 2 => x.lt y
  | 3 => x.lt y || x.eqv y
  | 4 => y.lt x
  | 5 => y.lt x || x.eqv y
  | 6 => un
  | _ => false

/-- The value of an element-wise instruction on its sources (R158, R115); `m` is VSEL's mask bit. -/
def elemValue (i : Nat) (a b c : Num) (m : Bool) : Num :=
  match i with
  | 0 => a.add b
  | 1 => a.add b.neg
  | 2 => a.mul b
  | 3 => (a.mul b).add c
  | 4 => pickNum true a b
  | 5 => pickNum false a b
  | 6 => a.neg
  | 7 => a.abs
  | 8 => if m then a else b
  | 10 => a
  | 11 => exp2f a
  | 12 => log2f a
  | 13 => rcpf a
  | 14 => rsqf a
  | 15 => sigmoidf a
  | 16 => siluf a
  | 17 => tanhf a
  | 18 => geluf a
  | _ => .nan

/-- Lane flags of a converted result from sources (R162). -/
def laneFlags (o : VecOp) (srcNaN : Bool) (a : Num) (c : Conv) : Nat :=
  let inv := c.inv || (!srcNaN && bitsNaN o.dst.fmt c.bits)
  let dz := (o.i == 13 || o.i == 14 || o.i == 12) && a.isZero
  (if inv then 1 else 0) + (if c.ovf then 2 else 0) + (if dz then 4 else 0)

/-- The value of the scalar (R158, R226). -/
def VecOp.scalarNum (o : VecOp) : Num :=
  if isFloatFmt o.a.fmt then f32 o.scalar else Num.ofInt (toSigned 8 (o.scalar % 256))

/-- Element `i` of a source as an exact number; from an MX operand with its block's scale (R95, R161). -/
def State.vnum (s : State) (n : Nat) (v : VOpnd) (scales i : Nat) : Num :=
  let x := decodeElem v.fmt (s.velem n v.start v.fmt i)
  if isMX v.fmt then x.scaled (s.byte (cacheAddr n (scales + i / 32))).toNat else x

/-- The write of bits at element `i` of the destination. -/
def VecOp.wr (o : VecOp) (n i bits : Nat) (poison : Bool) : PendWrite :=
  ⟨8 * cacheAddr n o.dst.start + fmtBits o.dst.fmt * i, fmtBits o.dst.fmt, bits, poison⟩

/-- The write of mask bit `i` of the destination. -/
def VecOp.wrBit (o : VecOp) (n i : Nat) (b poison : Bool) : PendWrite :=
  ⟨8 * cacheAddr n o.dst.start + i, 1, if b then 1 else 0, poison⟩

/-- One lane of an element-wise instruction. An operand that a legacy form does not name gives a free value (log entry 12). -/
def State.elemLane (s : State) (n : Nat) (o : VecOp) (bad : Bool) (i : Nat) : PendWrite × Nat :=
  let sat := o.sat && !(6 ≤ o.i && o.i ≤ 8)
  let a := s.vnum n o.a o.c.start i
  let b := if o.bMem then s.vnum n o.b 0 i else if o.bsc then o.scalarNum else .fin false 0 0
  if bad then (if o.i = 9 then o.wrBit n i false true else o.wr n i (poisonBits o.dst.fmt) true, 8)
  else if o.i = 9 then (o.wrBit n i (predicate o.pred a b) false, 0)
  else if o.noC && (o.i == 3 || o.i == 8) then (o.wr n i (Config.legacyLane o.i i (s.velem n o.a.start o.a.fmt i) (s.velem n o.b.start o.b.fmt i)).toNat false, 0)
  else
    let c := if o.i = 3 then (if o.csc then o.scalarNum else s.vnum n o.c 0 i) else .fin false 0 0
    let m := o.i == 8 && s.maskBit n o.c.start i
    let r := convert o.dst.fmt sat (elemValue o.i a b c m)
    let srcNaN := if o.i = 8 then (if m then a.isNaN else b.isNaN) else a.isNaN || b.isNaN || c.isNaN
    (o.wr n i r.bits false, laneFlags o srcNaN a r)

/-- The write of an inactive lane under mmode zero (R155). -/
def State.idleLanes (s : State) (n : Nat) (o : VecOp) : List PendWrite :=
  if o.mmode && o.maskEn then
    (List.range o.count).filterMap fun i =>
      if (s.lane n o i).1 then none
      else some (if o.i = 9 then o.wrBit n i false false else o.wr n i 0 false)
  else []

/-- Element-wise instructions and VCVT to a format without blocks. -/
def State.vecElem (s : State) (n : Nat) (o : VecOp) : VRes :=
  let rs := (s.lanesOn n o).map fun l => s.elemLane n o (l.2 || s.srcBad n o l.1) l.1
  { writes := rs.map (·.1) ++ s.idleLanes n o, lane := rs.foldl (fun f r => f ||| r.2) 0 }

/-- One block of a VCVT to an MX format (R97, R161, R163): its lanes are elements 32k on. A lane that is not NaN in a block that becomes
NaN sets inv, and an element that R97 clamps sets ovf (R162; log entry 30). -/
def State.vecBlock (s : State) (n : Nat) (o : VecOp) (k : Nat) : List PendWrite × Nat :=
  let here := (s.lanesOn n o).filter fun l => l.1 / 32 == k
  let bads := here.map fun l => l.2 || s.srcBad n o l.1
  let xs := here.map fun l => if l.2 || s.srcBad n o l.1 then Num.nan else r32 (s.vnum n o.a 0 l.1)
  let scale := fun (v : Nat) (p : Bool) => (⟨8 * cacheAddr n (o.c.start + k), 8, v, p⟩ : PendWrite)
  let bad := bads.any id
  if here.isEmpty then (if o.mmode then [scale 0 false] else [], 0)
  else
    let q := quantiseBlock o.dst.fmt xs
    let inv := q.1 == 255 && xs.any fun x => !x.isNaN
    (scale q.1 bad :: (here.zip q.2).map fun p => o.wr n p.1.1 p.2.bits bad,
      (if inv then 1 else 0) + (if q.2.any (·.ovf) then 2 else 0) + (if bad then 8 else 0))

/-- VCVT to an MX format. -/
def State.vecToMX (s : State) (n : Nat) (o : VecOp) : VRes :=
  let bs := (List.range (ceilDiv o.count 32)).map (s.vecBlock n o)
  { writes := (bs.map (·.1)).flatten ++ s.idleLanes n o, lane := bs.foldl (fun f b => f ||| b.2) 0 }

/-! ### Reductions (R167 to R169) -/

/-- Flags of an AFA in the bit order of R138. -/
def Afa.flags (a : Afa) : Nat :=
  (if a.ovf then 1 else 0) + (if a.unf then 2 else 0) + (if a.nan then 4 else 0) + (if a.pinf then 8 else 0) +
  (if a.ninf then 16 else 0)

/-- VSUM, VSUMSQ and VDOT (R163, R167). -/
def State.vecSum (s : State) (n : Nat) (o : VecOp) : VRes :=
  let a0 := if o.clr then Afa.clear o.anchor else smGet {} (s.core n).vafa o.afa
  let lanes := s.lanesOn n o
  let step := fun (acc : Afa × Bool) (l : Nat × Bool) =>
    if l.2 || s.srcBad n o l.1 then (acc.1.contribute .nan, true)
    else
      let x := s.vnum n o.a 0 l.1
      let p := if o.i = 19 then x else if o.i = 20 then x.mul x else x.mul (s.vnum n o.b 0 l.1)
      (acc.1.contribute p, acc.2)
  let (a1, bad) := lanes.foldl step (a0, false)
  let a := { a1 with count := a1.count + o.count }
  let pz := if bad then 8 else 0
  if o.drn then
    let out := a.out
    let c := out.toFmt a.anchor o.dst.fmt o.sat
    let nan := (match out with
      | .nan _ => true
      | _ => false) || (o.dst.fmt != 14 && bitsNaN o.dst.fmt c.bits)
    { writes := [o.wr n 0 c.bits bad]
      lane := pz + (if c.inv || (nan && !a.nan) then 1 else 0) + (if c.ovf then 2 else 0)
      afa := some (o.afa, a), drain := some a.flags, ovf := out.isOvf }
  else { lane := pz, afa := some (o.afa, a) }

/-- Pairwise combination of the partials of VRSUM, from `w` on down (R168). -/
def pairUp : Nat → List Num → List Num
  | 0, p => p
  | k + 1, p =>
    let w := 2 ^ k
    pairUp k ((List.range w).map fun j => fadd (p.getD j zero32) (p.getD (j + w) zero32))

/-- VRSUM (R168). An addition that overflows FP32 gives an infinity whatever sat is, and only the final conversion sets ovf
(log entry 31). -/
def State.vecRsum (s : State) (n : Nat) (o : VecOp) : VRes :=
  let lanes := s.lanesOn n o
  if lanes.any (fun l => l.2 || s.srcBad n o l.1) then
    { writes := [o.wr n 0 (poisonBits o.dst.fmt) true], lane := 8 }
  else
    let xs := lanes.map fun l => (l.1, s.vnum n o.a 0 l.1)
    let ps := xs.foldl (fun (p : List Num) x => p.set (x.1 % 64) (fadd (p.getD (x.1 % 64) zero32) x.2))
      (List.replicate 64 zero32)
    let r := convert o.dst.fmt o.sat ((pairUp 6 ps).headD zero32)
    { writes := [o.wr n 0 r.bits false], lane := laneFlags o (xs.any fun x => x.2.isNaN) .nan r }

/-- `x` ranks above `y`: greater, or +0 over -0 (R169, R170). -/
def rankAbove (x y : Num) : Bool := y.lt x || (x.isZero && y.isZero && y.isNeg && !x.isNeg)

/-- The largest of indexed numbers, the lowest index among equals (R169). -/
def largest : List (Nat × Num) → Option (Nat × Num)
  | [] => none
  | x :: t => some (t.foldl (fun m y => if rankAbove y.2 m.2 then y else m) x)

/-- FP32 bits of an exact number. -/
def bits32 (x : Num) : Nat := (toFloat fmtFP32 false x).bits

/-- A candidate entry as 64 bits (R170). -/
def candBits (idx val : Nat) : Nat := idx % 2 ^ 32 * 2 ^ 32 + val % 2 ^ 32

def emptyIdx : Nat := 0xFFFFFFFF
def nan32 : Nat := 0x7FC00000
def ninf32 : Nat := 0xFF800000

/-- The write of candidate `j` of the destination. -/
def VecOp.wrCand (o : VecOp) (n j v : Nat) (poison : Bool) : PendWrite :=
  ⟨8 * cacheAddr n (o.dst.start + 8 * j), 64, v, poison⟩

/-- VRMAX and VARGMAX (R169). VRMAX over FP4 with no element that is not NaN writes code 0, as FP4 has no NaN (log entry 30). -/
def State.vecExt (s : State) (n : Nat) (o : VecOp) : VRes :=
  let lanes := s.lanesOn n o
  let arg := o.i == 24
  if lanes.any (fun l => l.2 || s.srcBad n o l.1) then
    { writes := [if arg then o.wrCand n 0 (candBits emptyIdx nan32) true else o.wr n 0 (poisonBits o.dst.fmt) true]
      lane := 8 }
  else
    let xs := lanes.map fun l => (l.1, s.vnum n o.a 0 l.1)
    let ys := xs.filter fun x => !x.2.isNaN
    let fl := if ys.length = xs.length then 0 else 1
    let int := isVecInt o.a.fmt
    match largest ys with
    | some (i, x) =>
      { writes := [if arg then o.wrCand n 0 (candBits (o.indexBase + i) (bits32 x)) false
                   else o.wr n 0 (convert o.dst.fmt false x).bits false]
        lane := fl }
    | none =>
      { writes := [if arg then o.wrCand n 0 (candBits emptyIdx ninf32) false
                   else o.wr n 0 (if int then 2 ^ (fmtBits o.dst.fmt - 1) else poisonBits o.dst.fmt) false]
        lane := fl }

/-! ### Top-k and sampling (R170 to R175) -/

/-- A candidate: index, FP32 bits. -/
abbrev Cand := Nat × Nat

/-- Candidate `x` comes before `y` in a list (R170). -/
def candBefore (x y : Cand) : Bool :=
  let a := f32 x.2
  let b := f32 y.2
  rankAbove a b || (!rankAbove b a && decide (x.1 < y.1))

/-- Place a candidate in a sorted list. -/
def placeCand (x : Cand) : List Cand → List Cand
  | [] => [x]
  | y :: t => if candBefore x y then x :: y :: t else y :: placeCand x t

/-- Entry `i` of a candidate list operand. -/
def State.candAt (s : State) (n start i : Nat) : Cand :=
  let v := leNat (s.bytes (cacheAddr n (start + 8 * i)) 8)
  (v / 2 ^ 32, v % 2 ^ 32)

/-- A poisoned entry (R170). -/
def Cand.poisoned (c : Cand) : Bool := c.1 == emptyIdx && c.2 == nan32

/-- VTOPK (R171). -/
def State.vecTopk (s : State) (n : Nat) (o : VecOp) : VRes :=
  let lanes := s.lanesOn n o
  let cs := lanes.map fun l =>
    if o.cand then s.candAt n o.a.start l.1 else ((o.indexBase + l.1) % 2 ^ 32, bits32 (s.vnum n o.a 0 l.1))
  let bad := lanes.any (fun l => l.2 || s.srcBad n o l.1) || (o.cand && cs.any Cand.poisoned)
  if bad then
    { writes := (List.range o.k).map fun j => o.wrCand n j (candBits emptyIdx nan32) true, lane := 8 }
  else
    let live := if o.cand then cs.filter fun c => c.1 != emptyIdx else cs
    let ok := live.filter fun c => !(f32 c.2).isNaN
    let top := ok.foldl (fun l c => (placeCand c l).take o.k) []
    { writes := (List.range o.k).map fun j =>
        let c := top.getD j (emptyIdx, ninf32)
        o.wrCand n j (candBits c.1 c.2) false
      lane := if ok.length = live.length then 0 else 1 }

/-- Cumulative weights of R173. -/
def cumWeights (invT : Num) (top : Num) : List Num → Num → List Num
  | [], _ => []
  | x :: t, acc =>
    let z := fmul (fsub x top) invT
    let a := fadd acc (exp2f (fmul z k_log2e))
    a :: cumWeights invT top t a

/-- Index of the first element with a property, or the length. -/
def firstIdx (p : Num → Bool) : List Num → Nat
  | [] => 0
  | x :: t => if p x then 0 else firstIdx p t + 1

/-- The random word of R174. -/
def randomWord (seed draw position step : Nat) : BitVec 32 :=
  let w := fun (v : Nat) => BitVec.ofNat 32 v
  (chachaBlock [0x61707865, 0x3320646E, 0x79622D32, 0x6B206574, w seed, w (seed / 2 ^ 32), 0, 0, 0, 0, 0, 0,
    w (draw / 16), w step, w (step / 2 ^ 32), w position]).getD (draw % 16) 0

/-- The draw of R173 from the candidates that remain: token, rank, kept. Weights that are NaN though no value is (from a first value of
+infinity) pass R173's comparisons with i = 0, so that the first candidate is drawn (log entry 30). -/
def sampleOf (c : List Cand) (invT topP : Num) (word : Nat) : Nat × Nat × Nat :=
  let vs := c.map fun x => f32 x.2
  let cum := cumWeights invT (vs.headD zero32) vs zero32
  let t := fmul topP (cum.getLastD zero32)
  let kept := min c.length (firstIdx (fun x => !x.lt t) cum + 1)
  let u := r32 (.fin false (word / 256) (-24))
  let target := fmul u (cum.getD (kept - 1) zero32)
  let j := min (firstIdx (fun x => target.lt x) (cum.take kept)) (kept - 1)
  ((c.getD j (0, 0)).1, j, kept)

/-- The result record of a VSAMPLE. -/
def VecOp.wrDraw (o : VecOp) (n tok j kept : Nat) (poison : Bool) : PendWrite :=
  ⟨8 * cacheAddr n o.dst.start, 64, tok % 2 ^ 32 + j % 2 ^ 16 * 2 ^ 32 + kept % 2 ^ 16 * 2 ^ 48, poison⟩

/-- The VSAMPLE takes its word, where it draws one, from the entropy source (R175). -/
def State.drawsEntropy (s : State) (n : Nat) (o : VecOp) : Bool :=
  (s.byte (cacheAddr n (o.b.start + 15))).toNat.testBit 1 && !s.strict

/-- VSAMPLE (R172 to R175). Values that are NaN give a free draw (log entry 8); the list entries it reads are all of its count, so that a
poisoned one past top_k counts too (log entry 31). -/
def State.vecSample (s : State) (n : Nat) (o : VecOp) : VRes :=
  let rec0 := s.cacheBytes n o.b.start 32
  let fld := fun (i k : Nat) => leNat ((rec0.drop i).take k)
  let list := (List.range o.count).map (s.candAt n o.a.start)
  let bad := (List.range o.count).any (s.srcBad n o) || s.anyUe (cacheAddr n o.b.start) 32 || list.any Cand.poisoned
  if bad then { writes := [o.wrDraw n emptyIdx 0 0 true], lane := 8 }
  else
    let c := (list.take (fld 12 2)).filter fun x => x.1 != emptyIdx && x.2 != ninf32
    if c.isEmpty then { writes := [o.wrDraw n emptyIdx 0 0 false], lane := 1 }
    else if (fld 15 1).testBit 0 then { writes := [o.wrDraw n (c.headD (0, 0)).1 0 1 false] }
    else
      let word := if s.drawsEntropy n o then (Config.freeValue s.free).toNat % 2 ^ 32
        else (randomWord (fld 0 8) (fld 14 1) (fld 8 4) (s.reg Reg.FABR_STEP).toNat).toNat
      let r := sampleOf c (f32 (fld 16 4)) (f32 (fld 20 4)) word
      { writes := [if c.any (fun x => (f32 x.2).isNaN) then
            ⟨8 * cacheAddr n o.dst.start, 64, (Config.sampleNaN c rec0 word).toNat, false⟩
          else o.wrDraw n r.1 r.2.1 r.2.2 false]
        entropy := s.drawsEntropy n o }

/-- What an instruction does (R158). -/
def State.vecRun (s : State) (n : Nat) (o : VecOp) : VRes :=
  if o.i = 10 ∧ isMX o.dst.fmt then s.vecToMX n o
  else if o.i ≤ 18 then s.vecElem n o
  else if o.i ≤ 21 then s.vecSum n o
  else if o.i = 22 then s.vecRsum n o
  else if o.i ≤ 24 then s.vecExt n o
  else if o.i = 25 then s.vecTopk n o
  else s.vecSample n o

/-! ### Start and end -/

/-- Producer fields of a vector instruction's push (R239). -/
def VecOp.pushInfo (o : VecOp) : PushInfo :=
  { addr := 0x600000 + o.dst.start, len := if o.dstUsed then o.dstSpan else 0, stride := 0, fmt := o.dst.fmt
    scale := if o.mx && isMX o.dst.fmt then 0x600000 + o.c.start else 0 }

/-- First beat of a vector instruction: windows latched, sources read, errors logged (R149, R163, R280). -/
def State.vecStart (s : State) (n i : Nat) (d : List Word) : State :=
  let o := s.vecOf n i d
  let lanes := (s.lanesOn n o).map (·.1)
  let read := o.linesRead n lanes
  let bad := (s.ecc.filter fun c => read.contains c.1 && lineStat c.2 != .ok).map fun c =>
    (c.1, lineStat c.2 == .uncorrectable)
  let r := s.vecRun n o
  let (t, logged) := s.noteLines bad (some n) (some (dTag d)) []
  let t := if r.entropy then (t.put Reg.DTRM_STAT Fld.DTRM_STAT.entropy 1).drawn else t
  let t := t.put (Reg.VEC_STAT n) Fld.VEC_STAT.busy 1
  t.modRun n .vector fun x => { x with
    writes := r.writes, afa := r.afa, lane := r.lane, drain := r.drain, ovf := r.ovf, logged := logged
    poison := x.poison || r.lane ≥ 8, push := o.pushInfo }

/-- Last beat of a vector instruction: its writes, its AFA, and VEC_STAT (R162, R167, R176). -/
def State.vecEnd (s : State) (n : Nat) (r : RunOp) : State :=
  let tag := some (dTag r.desc)
  let s := s.applyWrites n .vector 4 r.writes
  let s := match r.afa with
    | some (i, a) =>
      let c := s.core n
      s.setCore n { c with vafa := smPut c.vafa i a }
    | none => s
  let a := Reg.VEC_STAT n
  let s := s.put a Fld.VEC_STAT.last_lane r.lane
  let s := s.hwSet a Fld.VEC_STAT.lane r.lane
  let s := match r.drain with
    | some f => (s.put a Fld.VEC_STAT.last_afa f).hwSet a Fld.VEC_STAT.afa f
    | none => s
  let s := if r.ovf then s.logCore n 0x3603 0 0 tag else s
  let s := s.put a Fld.VEC_STAT.busy 0
  s.addTo a Fld.VEC_STAT.op_count 1

/-- Start the head of a stream where it is vector instruction `i`. -/
def State.startVec (s : State) (n : Nat) (legacy : Bool) (p : Nat → Bool) : State :=
  s.startOp n legacy (fun k => match k with
    | .vec i => p i
    | _ => false)
    fun t d k => match k with
      | .vec i => t.vecStart n i d
      | _ => t

/-- XNOP (R220), and the refusal of an X-stream head that names no operation. -/
def execXnop (core : Fin 256) (s : State) : Out :=
  .next ((s.startOp core false (· == .xnop) fun t _ _ => t).refuseUnknown core true)

/-- ANOP (R220), and the refusal of an A-stream head that names no operation. -/
def execAnop (core : Fin 256) (s : State) : Out :=
  .next ((s.startOp core false (· == .anop) fun t _ _ => t).refuseUnknown core false)

/-- VADD (R158). -/
def execVadd (core : Fin 256) (s : State) : Out := .next (s.startVec core false (· == 0))

/-- VSUB (R158). -/
def execVsub (core : Fin 256) (s : State) : Out := .next (s.startVec core false (· == 1))

/-- VMUL (R158). -/
def execVmul (core : Fin 256) (s : State) : Out := .next (s.startVec core false (· == 2))

/-- VFMA (R158). -/
def execVfma (core : Fin 256) (s : State) : Out := .next (s.startVec core false (· == 3))

/-- VMAX (R160). -/
def execVmax (core : Fin 256) (s : State) : Out := .next (s.startVec core false (· == 4))

/-- VMIN (R160). -/
def execVmin (core : Fin 256) (s : State) : Out := .next (s.startVec core false (· == 5))

/-- VNEG (R160). -/
def execVneg (core : Fin 256) (s : State) : Out := .next (s.startVec core false (· == 6))

/-- VABS (R160). -/
def execVabs (core : Fin 256) (s : State) : Out := .next (s.startVec core false (· == 7))

/-- VSEL (R158). -/
def execVsel (core : Fin 256) (s : State) : Out := .next (s.startVec core false (· == 8))

/-- VCMP (R160). -/
def execVcmp (core : Fin 256) (s : State) : Out := .next (s.startVec core false (· == 9))

/-- VCVT (R161). -/
def execVcvt (core : Fin 256) (s : State) : Out := .next (s.startVec core false (· == 10))

/-- VEXP2 (R115). -/
def execVexp2 (core : Fin 256) (s : State) : Out := .next (s.startVec core false (· == 11))

/-- VLOG2 (R115). -/
def execVlog2 (core : Fin 256) (s : State) : Out := .next (s.startVec core false (· == 12))

/-- VRCP (R115). -/
def execVrcp (core : Fin 256) (s : State) : Out := .next (s.startVec core false (· == 13))

/-- VRSQ (R115). -/
def execVrsq (core : Fin 256) (s : State) : Out := .next (s.startVec core false (· == 14))

/-- VSIG (R115). -/
def execVsig (core : Fin 256) (s : State) : Out := .next (s.startVec core false (· == 15))

/-- VSILU (R115). -/
def execVsilu (core : Fin 256) (s : State) : Out := .next (s.startVec core false (· == 16))

/-- VTANH (R115). -/
def execVtanh (core : Fin 256) (s : State) : Out := .next (s.startVec core false (· == 17))

/-- VGELU (R115). -/
def execVgelu (core : Fin 256) (s : State) : Out := .next (s.startVec core false (· == 18))

/-- VSUM (R167). -/
def execVsum (core : Fin 256) (s : State) : Out := .next (s.startVec core false (· == 19))

/-- VSUMSQ (R167). -/
def execVsumsq (core : Fin 256) (s : State) : Out := .next (s.startVec core false (· == 20))

/-- VDOT (R167). -/
def execVdot (core : Fin 256) (s : State) : Out := .next (s.startVec core false (· == 21))

/-- VRSUM (R168). -/
def execVrsum (core : Fin 256) (s : State) : Out := .next (s.startVec core false (· == 22))

/-- VRMAX (R169). -/
def execVrmax (core : Fin 256) (s : State) : Out := .next (s.startVec core false (· == 23))

/-- VARGMAX (R169). -/
def execVargmax (core : Fin 256) (s : State) : Out := .next (s.startVec core false (· == 24))

/-- VTOPK (R171). -/
def execVtopk (core : Fin 256) (s : State) : Out := .next (s.startVec core false (· == 25))

/-- VSAMPLE (R173). -/
def execVsample (core : Fin 256) (s : State) : Out := .next (s.startVec core false (· == 26))

/-- LVECTOR (R245): any legacy vector form. -/
def execLvector (core : Fin 256) (s : State) : Out := .next (s.startVec core true fun _ => true)

end Sys2Proof.Machine
end

