-- ==== Sys2Proof/Machine/Array.lean ====
section
/-! DEFINITION. The matrix array (R117 to R146, R221 to R224, R241 to R249): what it does in each beat of an MMUL. -/

namespace Sys2Proof.Machine

/-! ### Banks (R247 to R249, R243) -/

/-- Bank of a basin offset. -/
def bankOf (o : Nat) : Nat := o / 64 % 16

/-- Banks of the units that `n` bytes from device address `a` on touch. -/
def banksOf (a n : Nat) : List Nat :=
  if n = 0 then [] else ((List.range ((a + n - 1) / 64 - a / 64 + 1)).map fun j => bankOf (a % 0x4000000 + 64 * j)).eraseDups

/-- Claim basin banks of the core whose window holds `a`; whether one was already given in this beat. Other memories have
no banks. -/
def State.claim (s : State) (a n : Nat) : State × Bool :=
  if memKind a = .basin then
    let c := a / 0x4000000
    let k := s.core c
    let bs := banksOf a n
    (s.setCore c { k with banks := k.banks ++ bs }, bs.any k.banks.contains)
  else (s, false)

/-- The bank of a unit has no access in the beat in progress; other memories have no banks, and while the die is held no beats
pass (log entry 15). -/
def State.bankFree (s : State) (a : Nat) : Bool :=
  memKind a != .basin || s.held || !(s.core (a / 0x4000000)).banks.contains (bankOf (a % 0x4000000))

/-- The bank of a unit is given. -/
def State.takeBank (s : State) (a : Nat) : State :=
  if memKind a = .basin then
    let c := a / 0x4000000
    s.setCore c { s.core c with banks := (s.core c).banks ++ [bankOf (a % 0x4000000)] }
  else s

/-- The parts of `n` bytes from `a` on that lie in one 64 B unit each: address and length (R247). -/
def piecesOf (a n : Nat) : List (Nat × Nat) :=
  if n = 0 then []
  else (List.range ((a + n - 1) / 64 - a / 64 + 1)).map fun j =>
    let lo := max a ((a / 64 + j) * 64)
    (lo, min (a + n) ((a / 64 + j + 1) * 64) - lo)

/-- Serve the units of a wide request whose banks are free, in ascending order: those served and those that wait (R248, R250). -/
def State.giveBanks (s : State) : List (Nat × Nat) → State × List (Nat × Nat) × List (Nat × Nat)
  | [] => (s, [], [])
  | p :: t =>
    if s.bankFree p.1 then
      let (u, g, w) := (s.takeBank p.1).giveBanks t
      (u, p :: g, w)
    else
      let (u, g, w) := s.giveBanks t
      (u, g, p :: w)

/-- Log 0x4401 once for the macro-op on a unit, and hold the die for its late access (R219, R243, R249). -/
def State.lateAccess (s : State) (n : Nat) (u : UnitId) : State :=
  match (s.core n).running u with
  | none => s
  | some r =>
    let s := if r.logged.contains 0x4401 then s
      else (s.setRun n u (some { r with logged := 0x4401 :: r.logged })).logCore n 0x4401 0 0 (some (dTag r.desc))
    s.holdOn { cause := .memoryLate, core := n, unit := some u }

/-- The array met a bank that was already given in this beat. -/
def State.arrayMissed (s : State) (n : Nat) : State := s.setCore n { s.core n with arrayLate := true }

/-- The array's check of its accesses, where it would otherwise raise done for the beat (R249, R348). -/
def State.arrayCheck (s : State) (n : Nat) : State :=
  let c := s.core n
  if c.arrayLate then (s.setCore n { c with arrayLate := false }).lateAccess n .array else s

/-! ### Weights (R118 to R123, R129) -/

/-- Physical unit of weight (k_u, n) of a tile (R129). -/
def unitPos (shape g ku n : Nat) : Nat × Nat :=
  match shape with
  | 0 => (ku, n)
  | 1 => (ku % g, g / 2 * (ku / g) + n)
  | 2 => (g / 2 * (n / g) + ku, n % g)
  | 3 => (ku % g, g / 4 * (ku / g) + n)
  | 4 => (g / 4 * (n / g) + ku, n % g)
  | _ => (ku % g, n % g)

/-- Weight of element `kl` of a tile in column `n`, from the active registers, as an exact number with its scale
(R95, R118, R120, R129). -/
def MmulOp.weight (o : MmulOp) (img scales : List Byte) (kl n : Nat) : Num :=
  let fam := family o.wfmt
  let g := o.g
  let (a, c) := unitPos o.shape g (if fam = 4 then kl / 2 else kl) n
  let i := a * g + c
  let bits :=
    if fam = 4 then ((img.getD i 0).toNat >>> (4 * (kl % 2))) % 16
    else elemBits img o.wfmt i
  let x := decodeElem o.wfmt bits
  if isMX o.wfmt then x.scaled (scales.getD (128 * (a / (if fam = 4 then 16 else 32)) + c) 0).toNat else x

/-! ### The beats of an MMUL (R122, R123, R126, R132) -/

/-- Beat of the macro-op in which pass `q` swaps. -/
def MmulOp.swapAt (o : MmulOp) (q : Nat) : Nat := o.f + q * o.passBeats

/-- Pass whose swap or rows beat `t` belongs to, before the pipeline empties. -/
def MmulOp.passAt (o : MmulOp) (t : Nat) : Nat := min ((t - o.f) / o.passBeats) (o.passes - 1)

/-- Tile being filled in beat `t`, and the fill beat (R122). -/
def MmulOp.fillAt (o : MmulOp) (t : Nat) : Option (Nat × Nat) :=
  if t < o.f then some (0, t)
  else
    let q := o.passAt t
    let j := t - o.swapAt q
    if 1 ≤ j ∧ j ≤ o.f ∧ q + 1 < o.passes then some (q + 1, j - 1) else none

/-- Row and feed part that enter in beat `t` (R126, R127). -/
def MmulOp.rowAt (o : MmulOp) (t : Nat) : Option (Nat × Nat × Nat) :=
  if t < o.f then none
  else
    let q := o.passAt t
    let j := t - o.swapAt q
    if 1 ≤ j ∧ j ≤ o.m * o.r then some (q, (j - 1) / o.r, (j - 1) % o.r) else none

/-- The MMUL that the array of core `n` runs, and its beat. -/
def State.mmulNow (s : State) (n : Nat) : Option (RunOp × MmulOp × Nat) :=
  match (s.core n).array with
  | some r =>
    let t := s.beatOf n - r.start
    if t < r.cost then some (r, mmulOf r.desc, t) else none
  | none => none

/-- The fill needs the weight store's read port in the beat in progress, that of an MMUL which starts in the beat included (R122,
R260). -/
def State.fillsNow (s : State) (n : Nat) : Bool :=
  (match s.mmulNow n with
   | some (_, o, t) => (o.fillAt t).isSome
   | none => false) ||
  (match (s.core n).xFifo with
   | d :: _ => opKind (opByte d) == some .mmul && s.headFate n true == .starts && ((mmulOf d).fillAt 0).isSome
   | [] => false)

/-- A fill beat: 1 KiB of the tile image, and up to 64 B of the scale image (R121, R122, R140). -/
def State.arrayFill (s : State) (n : Nat) (o : MmulOp) (q f : Nat) : State :=
  let a := coreBase n + o.tileBase + q * o.imageBytes + 1024 * f
  let (s, b1) := s.readLines n .array a 1024
  let w := s.bytes a 1024
  let sa := coreBase n + o.scaleBase + q * o.scaleBytes + 64 * f
  let more := 64 * f < o.scaleBytes
  let (s, b2) := if more then s.readLines n .array sa 64 else (s, false)
  let sc := if more then s.bytes sa 64 else []
  let c := s.core n
  s.setCore n { c with
    shadowW := (if f = 0 then [] else c.shadowW) ++ w
    shadowS := (if f = 0 then [] else c.shadowS) ++ sc
    arrayBad := c.arrayBad || b1 || b2 }

/-- The swap (R123). -/
def State.arraySwap (s : State) (n : Nat) : State :=
  let c := s.core n
  s.setCore n { c with activeW := c.shadowW, activeS := c.shadowS, shadowW := c.activeW, shadowS := c.activeS }

/-- Elements of K that pass `q` feeds: first and count (R128, R129). -/
def MmulOp.kRange (o : MmulOp) (q : Nat) : Nat × Nat :=
  if o.shape = 5 then (q / 4 * o.kTile + q % 2 * (o.kTile / 2), o.kTile / 2) else (q * o.kTile, o.kTile)

/-- Output columns of pass `q`: first and count. -/
def MmulOp.nRange (o : MmulOp) (q : Nat) : Nat × Nat :=
  if o.shape = 5 then (q % 4 / 2 * o.g, o.g) else (0, o.nTile)

/-- Device addresses of row `m`'s elements and scales, with the gathered index `g` (R222, R223); none for a row of zeros, and
whether its index names a row outside the basin. -/
def State.rowPlace (s : State) (n : Nat) (o : MmulOp) (m g : Nat) : Option (Nat × Nat) × Bool :=
  let i := if o.gather then g else m
  let rowB := fmtBytes o.sfmt o.k
  let scB := ceilDiv o.k 32
  let scStr := 32 * ceilDiv o.k 1024
  if o.gather ∧ g = 0xFFFF then (none, false)
  else
    match s.place n o.actBase, s.place n o.ascaleBase with
    | some (c, p), q =>
      let scOk : Bool := match q with
        | some (_, sp) => !isMX o.sfmt || decide (sp + scStr * i + scB ≤ 0x600000)
        | none => !isMX o.sfmt
      if p + o.actStride * i + rowB ≤ 0x600000 ∧ scOk then
        (some (coreBase c + p + o.actStride * i, s.placeAddr n o.ascaleBase + scStr * i), false)
      else (none, true)
    | none, _ => (none, true)

/-- Elements of part `j` of a feed: first element of the pass's range and count, of those below K (R127, R130). -/
def MmulOp.partRange (o : MmulOp) (q j : Nat) : Nat × Nat :=
  let (k0, kn) := o.kRange q
  let per := 512 * 8 / fmtBits o.sfmt
  let a := k0 + j * per
  let e := min (min (k0 + kn) (a + per)) o.k
  (a, e - a)

/-- Feed part `j` of row `m` in pass `q` into the accumulators (R99, R119, R126, R130). -/
def State.feedRow (s : State) (n : Nat) (o : MmulOp) (q m j act sc : Nat) : State :=
  let (a, len) := o.partRange q j
  let k0 := q / o.p * o.kTile
  let b0 := a * fmtBits o.sfmt / 8
  let nb := fmtBytes o.sfmt len
  let row := s.bytes (act + b0) nb
  let xs := (List.range len).map fun i =>
    let x := decodeElem o.sfmt (elemBits row o.sfmt i)
    (a + i - k0, if isMX o.sfmt then x.scaled (s.byte (sc + (a + i) / 32)).toNat else x)
  let c := s.core n
  let (n0, nn) := o.nRange q
  let cols := (List.range nn).filterMap fun i => if n0 + i < o.n then some (n0 + i) else none
  let acc := cols.foldl (fun (m' : SMap Afa) col =>
    let key := m * 512 + col
    let z := xs.foldl (fun (z : Afa) x => z.contribute (x.2.mul (o.weight c.activeW c.activeS x.1 col)))
      (smGet (Afa.clear o.anchor) m' key)
    smPut m' key z) c.acc
  s.setCore n { c with acc := acc }

/-- Read the index of the row that enters next, on its own port (R223, R249). -/
def State.readIndex (s : State) (n : Nat) (o : MmulOp) (t : Nat) : State :=
  match o.rowAt (t + 1) with
  | some (_, m, 0) =>
    if o.gather then
      let a := s.placeAddr n o.gatherBase + 2 * m
      let (s, late) := s.claim a 2
      let (s, bad) := s.readLines n .array a 2
      let g := leNat (s.bytes a 2)
      let s := s.modRun n .array fun r => { r with gidx := g }
      let s := if bad then s.setCore n { s.core n with arrayBad := true } else s
      if late then s.arrayMissed n else s
    else s
  | _ => s

/-- The row feed of beat `t` (R126, R140, R223, R249). The scales that a row needs in a pass are read in its first feed beat
(log entry 7). -/
def State.arrayFeed (s : State) (n : Nat) (r : RunOp) (o : MmulOp) (t : Nat) : State :=
  match o.rowAt t with
  | none => s
  | some (q, m, j) =>
    match s.rowPlace n o m r.gidx with
    | (none, out) =>
      if out ∧ !r.logged.contains 0x3608 then
        (s.setRun n .array (some { r with logged := 0x3608 :: r.logged })).logCore n 0x3608 0 0 (some (dTag r.desc))
      else s
    | (some (act, sc), _) =>
      let (a, len) := o.partRange q j
      let b0 := a * fmtBits o.sfmt / 8
      let nb := fmtBytes o.sfmt len
      let (s, l1) := s.claim (act + b0) nb
      let (s, bad1) := s.readLines n .array (act + b0) nb
      let (k0, kn) := o.kRange q
      let sa := sc + k0 / 32
      let sn := if isMX o.sfmt ∧ j = 0 then ceilDiv (min (k0 + kn) o.k - k0) 32 else 0
      let (s, l2) := s.claim sa sn
      let (s, bad2) := s.readLines n .array sa sn
      let s := if bad1 || bad2 then s.setCore n { s.core n with arrayBad := true } else s
      let s := s.feedRow n o q m j act sc
      if l1 || l2 then s.arrayMissed n else s

/-- Bits and drain outcome of entry (m, n) (R106, R107, R136, R140). -/
def State.drainEntry (s : State) (n : Nat) (o : MmulOp) (m col : Nat) : Nat × AfaOut × Nat :=
  let c := s.core n
  let z := smGet (Afa.clear o.anchor) c.acc (m * 512 + col)
  let out := z.out
  (if c.arrayBad then poisonBits o.dfmt else (out.toFmt o.anchor o.dfmt o.sat).bits, out, z.flags)

/-- A drain beat (R136 to R138). Entries drain by rows, in ascending column (log entry 30). The flags and 0x3603 come from the
accumulators as they stand, poison or not (log entry 30). -/
def State.arrayDrain (s : State) (n : Nat) (r : RunOp) (o : MmulOp) (t : Nat) : State :=
  if t + o.d < r.cost then s
  else
    let d := t + o.d - r.cost
    let per := drainPerBeat o.dfmt
    let es := drainBytes o.dfmt
    let dst := s.placeAddr n o.dstBase
    let bad := (s.core n).arrayBad
    let ents := (List.range per).filterMap fun i =>
      let e := d * per + i
      if e < o.m * o.nTile ∧ e % o.nTile < o.n then some (e / o.nTile, e % o.nTile) else none
    let outs := ents.map fun e => (e, s.drainEntry n o e.1 e.2)
    let ws := outs.map fun x => (⟨8 * (dst + o.dstStride * x.1.1 + es * x.1.2), 8 * es, x.2.1, bad⟩ : PendWrite)
    let units := (ws.map fun (w : PendWrite) => w.bit / 512).eraseDups
    let (s, late) := units.foldl (fun (acc : State × Bool) u =>
      let (t, l) := acc.1.claim (64 * u) 64
      (t, acc.2 || l)) (s, false)
    let s := s.modRun n .array fun x => { x with
      drain := some (outs.foldl (fun f y => f ||| y.2.2.2) (x.drain.getD 0))
      ovf := x.ovf || outs.any (fun y => y.2.2.1.isOvf) }
    let s := s.applyWrites n .array 3 ws
    if late then s.arrayMissed n else s

/-- What the array does in the beat in progress. -/
def State.arrayBeat (s : State) (n : Nat) : State :=
  match s.mmulNow n with
  | none => s
  | some (_, o, t) =>
    let s := if o.f ≤ t ∧ t = o.swapAt (o.passAt t) then s.arraySwap n else s
    let s := match o.fillAt t with
      | some (q, f) => s.arrayFill n o q f
      | none => s
    let s := match (s.core n).array with
      | some r => s.arrayFeed n r o t
      | none => s
    let s := s.readIndex n o t
    match (s.core n).array with
    | some r => s.arrayDrain n r o t
    | none => s

/-- Producer fields of an MMUL's push (R239). -/
def MmulOp.pushInfo (o : MmulOp) : PushInfo :=
  { addr := o.dstBase, len := o.m * o.n * drainBytes o.dfmt, stride := o.dstStride / 32, fmt := o.dfmt, scale := 0 }

/-- Beat 0 of an MMUL: every entry cleared, the anchor fixed, the first fill beat (R135). -/
def State.mmulStart (s : State) (n : Nat) (d : List Word) : State :=
  let o := mmulOf d
  let c := s.core n
  let s := s.setCore n { c with acc := [], shadowW := [], shadowS := [], arrayBad := false }
  let s := s.modRun n .array fun r => { r with push := o.pushInfo }
  let s := s.put (Reg.ARRAY_STAT n) Fld.ARRAY_STAT.anchor o.anchor
  let s := s.put (Reg.ARRAY_STAT n) Fld.ARRAY_STAT.busy 1
  s.arrayBeat n

/-- Last beat of an MMUL: ARRAY_STAT and 0x3603 (R138, R140, R146). -/
def State.mmulEnd (s : State) (n : Nat) (r : RunOp) : State :=
  let a := Reg.ARRAY_STAT n
  let f := r.drain.getD 0
  let bad := if (s.core n).arrayBad then 1 else 0
  let s := s.put a Fld.ARRAY_STAT.last_flags f
  let s := s.hwSet a Fld.ARRAY_STAT.flags f
  let s := s.put a Fld.ARRAY_STAT.last_poison bad
  let s := s.hwSet a Fld.ARRAY_STAT.poison bad
  let s := s.put a Fld.ARRAY_STAT.busy 0
  let s := s.addTo a Fld.ARRAY_STAT.op_count 1
  if r.ovf then s.logCore n 0x3603 0 0 (some (dTag r.desc)) else s

/-- Start the head of a stream where it is an MMUL. -/
def State.startMmul (s : State) (n : Nat) (legacy : Bool) : State :=
  s.startOp n legacy (· == .mmul) fun t d _ => t.mmulStart n d

/-- MMUL (R221). -/
def execMmul (core : Fin 256) (s : State) : Out := .next (s.startMmul core false)

/-- LMMUL (R245). -/
def execLmmul (core : Fin 256) (s : State) : Out := .next (s.startMmul core true)

end Sys2Proof.Machine
end

