-- ==== Sys2Proof/Machine/Mesh.lean ====
section
/-! DEFINITION. The on-die mesh (R285 to R311): edge stations, routes, injection, what a router output takes in a beat, and
multicast entries with their combined replies. -/

namespace Sys2Proof.Machine

/-! ### Numbers (R288, R297, R300) -/

/-- Number of an agent: cores 0 to 255, Hold 0 and 1, towline ports, Ethernet ports and the die-level blocks. -/
def agentNum : Agent → Nat
  | .core n => n.val
  | .hold h => 256 + h.val
  | .towline p => 258 + p.val
  | .ethernet p => 306 + p.val
  | .wharfinger => 308
  | .serving => 309
  | .tollhouse => 310
  | .lock => 311
  | .stepUnit => 312
  | .regPath => 313

/-- Neighbour of a router through a direction. -/
def neighbour (node : Nat) : MeshPort → Nat
  | .north => node - 16
  | .south => node + 16
  | .east => node + 1
  | .west => node - 1
  | _ => node

/-- The input of the neighbour that an output leads to. -/
def opposite : MeshPort → MeshPort
  | .north => .south
  | .south => .north
  | .east => .west
  | .west => .east
  | p => p

/-! ### Multicast trees (R307, R308, R310) -/

/-- Physical cores of a set given by virtual reach and core masks (R234, R307). -/
def State.expand (s : State) (vmask : Nat) : Nat :=
  (maskedCores (vmask % 2 ^ 32)).foldl (fun m v => if v < s.vgrid then m ||| 2 ^ s.vmap v else m) 0

/-- Members of a multicast on this die: cores of the set, and, for a tree, the stations of its output ports. -/
def State.mcMembers (s : State) (bank id pset : Nat) : List (Nat × Branch) :=
  let cores := ((List.range 256).filter pset.testBit).map fun n => (n, (MeshPort.localPort, 0))
  if id < 0x400 then cores
  else
    let w := s.treeWord bank (id - 0x400) 0
    cores ++ ((List.range 48).filter (treeOut.get w).testBit).map fun p =>
      ((s.portStation p).1, ((s.portStation p).2, p + 1))

/-- Outputs of a multicast OPEN that entered a node by an input: along the source row, then along the columns (R308). -/
def mcOuts (node : Nat) (input : Branch) (ms : List (Nat × Branch)) : List Branch :=
  let fromRow := input.1 = .east || input.1 = .west
  let source := input.1 = .localPort || isEdge node input.1
  let row := source || fromRow
  let any := fun (p : Nat → Bool) => ms.any fun m => p m.1
  let e := row && (source || input.1 = .west) && any fun m => decide (colOf node < colOf m)
  let w := row && (source || input.1 = .east) && any fun m => decide (colOf m < colOf node)
  let inCol := fun (m : Nat) => colOf m == colOf node
  let n := (row || input.1 = .south) && any fun m => inCol m && decide (rowOf m < rowOf node)
  let so := (row || input.1 = .north) && any fun m => inCol m && decide (rowOf node < rowOf m)
  (if n then [(.north, 0)] else []) ++ (if so then [(.south, 0)] else []) ++ (if e then [(.east, 0)] else []) ++
  (if w then [(.west, 0)] else []) ++ (ms.filter fun m => m.1 == node).map (·.2)

def State.mcFind (s : State) (node id : Nat) : Option McEntry := s.mesh.mcast.find? fun e => e.node == node && e.id == id

def State.mcSet (s : State) (e : McEntry) : State :=
  { s with mesh := { s.mesh with mcast := (s.mesh.mcast.filter fun x => !(x.node == e.node && x.id == e.id)) ++ [e] } }

def State.mcDel (s : State) (node id : Nat) : State :=
  { s with mesh := { s.mesh with mcast := s.mesh.mcast.filter fun x => !(x.node == node && x.id == id) } }

/-! ### Headers (R295) -/

/-- A header with its check bits decoded: corrected, or none where it is uncorrectable (R277, R295). -/
def decodeHeader (h : Word) (c : Byte) : Option Word :=
  let m := (encodeHeader h ^^^ c).toNat
  let sy := m % 128
  if !(parity m 8) then (if sy = 0 then some h else none)
  else if sy = 0 ∨ isPow2 sy then some h
  else match (List.range 64).find? fun i => hcol i == sy with
    | some i => some (h ^^^ BitVec.ofNat 64 (2 ^ i))
    | none => none
where
  /-- A power of two. -/
  isPow2 (n : Nat) : Bool := (List.range 7).any fun j => n == 2 ^ j

/-- Types of barges (R296). -/
def tyOPEN : Nat := 1
def tyGRANT : Nat := 2
def tyREFUSE : Nat := 3
def tyDATA : Nat := 4
def tyACK : Nat := 5
def tyREAD : Nat := 6
def tyABORT : Nat := 7
def tySIGNAL : Nat := 8
def tySTEP : Nat := 9
def tyREG : Nat := 10

def bType (b : Barge) : Nat := hType.get b.header
def bClass (b : Barge) : Nat := hClass.get b.header
def bMulti (b : Barge) : Bool := hMcast.get b.header == 1

/-! ### Entering a router (R293, R308, R309) -/

/-- A barge that came by a towline has left its receiver: the flit's credit is freed (R381). That of class 3 is freed at
arrival (R382). -/
def State.freeCredit (s : State) (f : Flit) : State :=
  match f.via with
  | 0 => s
  | p + 1 =>
    let c := bClass f.barge
    if c = 3 then s
    else
      let x := s.port p
      s.setPort p { x with freed := x.freed.set c (x.freed.getD c 0 + 1) }

/-- A barge enters a router's input with the outputs it has to take; one with none ends there. -/
def State.admitFlit (s : State) (f : Flit) : State := if f.outs.isEmpty then s.freeCredit f else s.addFlit f

/-- Port by which the replies of a tree go up, where an OPEN came by towline port `p`: in_port of the tree's entry (R396). -/
def State.upPort (s : State) (id p : Nat) : Nat :=
  let q := treeIn.get (s.treeWord s.bank (id - 0x400) 0)
  if 0x400 ≤ id ∧ q < 48 then q else p

/-- A reply that goes back from a router by the way an OPEN came; at the router of an entry station it goes to the port of the tree that
leads to the root. -/
def State.replyBack (s : State) (node : Nat) (input : Branch) (port : MeshPort) (at_ : Nat) (ty id : Nat)
    (pay : BitVec 512) : State :=
  let h := hMcast.set (hdr3 ty 0 id 0 s.stepParity) 1
  let b := { mkBarge h pay with epochParity := s.bank == 1 }
  let (b, out) := match input.2 with
    | 0 => (b, input)
    | p + 1 =>
      let b := withExit (s.upPort id p) s.bank b
      (b, s.routeOut node b)
  s.addFlit { node := node, port := port, via := 0, src := 0, at_ := at_, outs := [out], barge := b }

/-- Count a REFUSE with 0x3408 in MESH_STAT.busy (R314). -/
def State.countBusy (s : State) : State := s.addSat Reg.MESH_STAT Fld.MESH_STAT.busy 1

/-- A barge arrives at a router input in beat `at_`. One with an exit field goes to that port. Multicast OPENs record an entry or are refused; multicast DATA and ABORT
follow it; multicast replies are gathered in it (R308, R309). A barge whose header is uncorrectable is discarded (R295). -/
def State.enter (s : State) (node : Nat) (input : Branch) (src at_ : Nat) (b : Barge) : State :=
  match decodeHeader b.header b.hcheck with
  | none => (s.addSat Reg.MESH_STAT Fld.MESH_STAT.hdr_ue 1).logErr { code := 0x2402 }
  | some h =>
    let b := { b with header := h, hcheck := encodeHeader h }
    let flit := fun (outs : List Branch) =>
      ({ node := node, port := input.1, via := input.2, src := src, at_ := at_, outs := outs, barge := b } : Flit)
    if !bMulti b ∨ b.exitPort.isSome then s.addFlit (flit [s.routeOut node b])
    else
      let id := hDest.get h
      let ty := bType b
      match s.mcFind node id with
      | none =>
        if ty = tyOPEN then
          let outs := mcOuts node input (s.mcMembers (if b.epochParity then 1 else 0) id (payNat b 32 32))
          (s.mcSet { node := node, id := id, input := input, outs := outs }).admitFlit (flit outs)
        else s.freeCredit (flit [])
      | some e =>
        if ty = tyOPEN then
          s.countBusy.replyBack node input input.1 at_ tyREFUSE id (BitVec.ofNat 512 0x3408)
        else if ty = tyDATA then s.admitFlit (flit e.outs)
        else if ty = tyABORT then
          let outs := e.outs.filter fun o => e.grants.any fun g => g.1 == o && g.2.1 == 0
          (s.mcDel node id).admitFlit (flit outs)
        else if ty = tyACK then
          s.mcSet { e with acks := e.acks ++ [(input, payNat b 0 1 % 2 == 1, at_)] }
        else
          let code := if ty = tyGRANT then 0 else payNat b 0 2
          s.mcSet { e with grants := e.grants ++ [(input, code, at_)] }

/-- The combined reply of an entry (R308), in the beat in which the last branch's reply has arrived, or while the die is held. -/
def State.combine (s : State) (node id : Nat) : State :=
  match s.mcFind node id with
  | none => s
  | some e =>
    let b := (s.reach (reachOf node)).beat
    let here := fun (t : Nat) => decide (t ≤ b) || s.beatless node
    let allG := e.outs.all fun o => e.grants.any fun g => g.1 == o && here g.2.2
    let allA := e.outs.all fun o => e.acks.any fun a => a.1 == o && here a.2.2
    if e.outs.isEmpty then s
    else if allG ∧ !e.up then
      let codes := (e.grants.map (·.2.1)).filter (· != 0)
      let port := (e.grants.getLast?.map (·.1.1)).getD .localPort
      let s := s.mcSet { e with up := true }
      match codes with
      | [] => s.replyBack node e.input port b tyGRANT id 0
      | c :: t => s.replyBack node e.input port b tyREFUSE id (BitVec.ofNat 512 (t.foldl min c))
    else if allA then
      let bad := e.acks.any (·.2.1)
      let port := (e.acks.getLast?.map (·.1.1)).getD .localPort
      (s.mcDel node id).replyBack node e.input port b tyACK id (if bad then 1 else 0)
    else s

/-! ### Injection (R287, R289) -/

/-- Node and input by which an agent injects a barge (R289): a core at its local port; a hold at the station in the destination
core's column; a block at its own station. -/
def State.injectAt (s : State) (a : Agent) (b : Barge) : Nat × MeshPort :=
  let d := hDest.get b.header
  let col := match b.exitPort with
    | some p => if (s.portStation p).2 = .east then 15 else 0
    | none => if d / 256 = 8 then colOf (s.vmap (d % 256)) else colOf (d % 256)
  let row := if d / 256 = 8 then rowOf (s.vmap (d % 256)) else rowOf (d % 256)
  let core := d / 256 = 0 ∨ d / 256 = 8
  match a with
  | .core n => (n.val, .localPort)
  | .hold h => if h.val = 0 then (col, .north) else (240 + col, .south)
  | .towline p =>
    let st := s.portStation p
    if core ∧ b.exitPort = none ∧ !bMulti b then (row * 16 + (if st.2 = .east then 15 else 0), st.2) else st
  | .ethernet p => if p.val = 0 then (127, .east) else (112, .west)
  | .wharfinger => (7, .north)
  | .serving => (8, .north)
  | .tollhouse => (240, .south)
  | .lock => blockStation
  | .stepUnit => blockStation
  | .regPath => blockStation

/-- A port has width left for another injection in the beat in progress (R285), or no beats pass (log entry 15). -/
def State.injFree (s : State) (node : Nat) (p : MeshPort) : Bool :=
  s.beatless node || decide (injCount (s.injAt node p) (s.nodeBeat node) < widthOf node p)

/-- Inject a barge whose exit field is set, `d` beats from now, or in the first later beat in which the port has width left (R285).
`via` is the towline port it came by plus one. -/
def State.injectRaw (s : State) (a : Agent) (via src d : Nat) (b : Barge) : State :=
  let (node, port) := s.injectAt a b
  let (s, t) := s.takeWidth node port d
  s.enter node (port, via) src t b

/-- Inject a barge for its destination chip: on-die, or with the exit field that a lookup gives; with no route it is discarded
(R391, R393). A multicast carries the epoch parity of this chip (R399). -/
def State.inject (s : State) (a : Agent) (src d : Nat) (b : Barge) : State :=
  let chip := hChip.get b.header
  if bMulti b then s.injectRaw a 0 src d { b with epochParity := s.bank == 1 }
  else if s.isHere chip then s.injectRaw a 0 src d b
  else
    match s.lookup s.bank chip false with
    | some (p, _) => s.injectRaw a 0 src d (withExit p s.bank b)
    | none => s.logErr { code := 0x5906 }

/-- Inject a barge of a ferry channel: the primary port only (R410); an idle die wakes for it (R523). -/
def State.injectPrimary (s : State) (a : Agent) (b : Barge) : State :=
  let s := s.wakeOn 2
  let chip := hChip.get b.header
  let w := s.routeWord s.bank chip
  let p := rtPort.get w
  if s.isHere chip then s.injectRaw a 0 0 0 b
  else if rtValid.get w = 1 ∧ chip ≤ 4095 ∧ s.portActive p then s.injectRaw a 0 0 0 (withExit p s.bank b)
  else s.logErr { code := 0x5906 }

/-! ### What an output takes (R285, R292 to R294) -/

/-- Rank of an input (R292): north, south, east, west, edge, local; edge ports between themselves in the order of directions. -/
def portRank (node : Nat) (p : MeshPort) : Nat :=
  match p with
  | .edge => 4
  | .localPort => 8
  | q => if isEdge node q then 4 + portNum q else portNum q

/-- Rank of a class: class 3, then 0 and 1, then 2 (R292). -/
def classRank (c : Nat) : Nat := if c = 3 then 0 else if c = 2 then 2 else 1

/-- The order of R292 between two barges of a router: by class, then by input. Those of one input keep their order of arrival. -/
def Flit.before (a b : Flit) : Bool :=
  let ca := classRank (bClass a.barge)
  let cb := classRank (bClass b.barge)
  if ca ≠ cb then decide (ca < cb) else decide (portRank a.node a.port < portRank b.node b.port)

/-- Insert a flit into a list ordered by R292, after its equals. -/
def placeFlit (f : Flit) : List Flit → List Flit
  | [] => [f]
  | x :: t => if f.before x then f :: x :: t else x :: placeFlit f t

/-- Key of an input buffer by class, and of what an edge station holds for a router port. -/
def bufKey (node : Nat) (p : MeshPort) (cls : Nat) : Nat := (node * 8 + portNum p) * 4 + cls
def stationKey (node : Nat) (p : MeshPort) (cls : Nat) : Nat := 8192 + bufKey node p cls

/-- Room freed in beat `b`, which the sender does not see in that beat (R293), unless no beats pass (log entry 15). -/
def State.freedIn (s : State) (key b : Nat) : Nat :=
  match smFind s.mesh.left key with
  | some (t, k) => if t = b ∧ !s.beatless (key % 8192 / 32) then k else 0
  | none => 0

/-- Note room freed in beat `b`. -/
def State.freeRoom (s : State) (key b : Nat) : State :=
  let l := match smFind s.mesh.left key with
    | some (t, n) => if t = b then n else 0
    | none => 0
  { s with mesh := { s.mesh with left := smPut s.mesh.left key (b, l + 1) } }

/-- An input has room in a class in beat `b` (R293). -/
def State.inputRoom (s : State) (node : Nat) (p : MeshPort) (cls b : Nat) : Bool :=
  let n := (s.mesh.flits.filter fun f => f.node == node && f.port == p && bClass f.barge == cls).length
  decide (n + s.freedIn (bufKey node p cls) b < 8)

/-- An agent is served through a router port that leads off the grid (R288). -/
def servedBy (p : MeshPort) : Agent → Bool
  | .core _ => false
  | .towline _ => p == .east || p == .west
  | .ethernet _ => p == .east || p == .west
  | _ => p == .north || p == .south

/-- Barges of a class that an edge station holds for a router port: those that wait for its blocks, and those that wait to leave by its
towline ports. -/
def State.stationHeld (s : State) (node : Nat) (p : MeshPort) (cls : Nat) : Nat :=
  (s.mesh.inbox.filter fun a => a.node == node && servedBy p a.agent && bClass a.barge == cls).length +
  (s.fabric.ports.foldl (fun n e =>
    if s.portStation e.1 = (node, p) then n + (e.2.tx.filter fun x => bClass x.2 == cls).length else n) 0)

/-- Agent that a die-edge or core destination names (R297): a register access is for the register path, at a core as at the wharfinger
complex, and the complex passes records and signals to their blocks (log entry 30). -/
def destAgent (node : Nat) (p : MeshPort) (b : Barge) : Agent :=
  let k := hDest.get b.header / 256
  if bType b = tyREG then .regPath
  else if p = .localPort then .core ⟨node % 256, Nat.mod_lt _ (by decide)⟩
  else if k = 1 then .hold 0
  else if k = 2 then .hold 1
  else if k = 3 then .towline ⟨hDest.get b.header % 48, Nat.mod_lt _ (by decide)⟩
  else if k = 4 then .ethernet ⟨hDest.get b.header % 2, Nat.mod_lt _ (by decide)⟩
  else if k = 6 then .serving
  else if k = 7 then .tollhouse
  else if bType b = tySTEP then .stepUnit
  else if bType b = tySIGNAL then .lock
  else .wharfinger

/-- 1 + sluice where a DATA barge is for a sluice's map buffer, 7 where it fills a weight store, 0 otherwise (log entries 13, 23). -/
def mapMark (b : Barge) : Nat := b.header.toNat % 8

/-- Mark of a DATA barge that fills a weight store (R489, log entry 23). -/
def fillMark : Nat := 7

/-- A barge goes to a sluice's map buffer, and not to the ingress buffer (R306). -/
def toMap (b : Barge) : Bool := mapMark b != 0 && mapMark b != fillMark

/-- DATA barges on their way into the ingress buffer of core `n`. -/
def State.ingressDue (s : State) (n : Nat) : Nat :=
  (s.mesh.inbox.filter fun a => agentNum a.agent == n && bType a.barge == tyDATA && !toMap a.barge).length

/-- The receiver beyond an output has room for a barge in beat `b` (R293, R294). Class 3 never waits for room at its destination; one that
leaves by a towline has not come to it. A fenced core takes every barge (R36). -/
def State.outRoom (s : State) (f : Flit) (br : Branch) (b : Nat) : Bool :=
  let cls := bClass f.barge
  if br.1 = .localPort then
    !s.enabled f.node || cls == 3 || toMap f.barge || decide ((s.core f.node).ingress.length + s.ingressDue f.node < 32)
  else if isEdge f.node br.1 then
    (cls == 3 && br.2 == 0) || decide (s.stationHeld f.node br.1 cls + s.freedIn (stationKey f.node br.1 cls) b < 8)
  else s.inputRoom (neighbour f.node br.1) (opposite br.1) cls b

/-- A barge comes to an agent of a node in a beat; one whose sub-transfer a CTX reset has ended is discarded (R546). -/
def State.arriveAt (s : State) (a : Agent) (node at_ : Nat) (b : Barge) : State :=
  if b.stale then s else { s with mesh := { s.mesh with inbox := s.mesh.inbox ++ [⟨a, node, at_, b⟩] } }

/-- Take one barge through an output in beat `b` (R285 to R288): over a link, into a station's queue or to its agent. A fenced core has
nothing that takes a barge but its register path: others end there (R36, log entry 31). -/
def State.takeFlit (s : State) (f : Flit) (br : Branch) (b : Nat) : State :=
  if br.1 = .localPort then
    if s.enabled f.node ∨ bType f.barge = tyREG then
      s.arriveAt (destAgent f.node .localPort f.barge) f.node (b + s.lat 20) f.barge
    else s
  else if isEdge f.node br.1 then
    match br.2 with
    | 0 => s.arriveAt (destAgent f.node br.1 f.barge) f.node (b + s.lat 20) f.barge
    | p + 1 => s.atExit p (b + s.lat 20) (withExit p (if f.barge.epochParity then 1 else 0) f.barge)
  else s.enter (neighbour f.node br.1) (opposite br.1, 0) 0 (b + s.lat 19) f.barge

/-- The first `n` barges that satisfy `p`, and all others. -/
def keepFirst (p : Flit → Bool) : Nat → List Flit → List Flit
  | _, [] => []
  | 0, x :: t => if p x then keepFirst p 0 t else x :: keepFirst p 0 t
  | n + 1, x :: t => x :: keepFirst p (if p x then n else n + 1) t

/-- The inputs of a router that no router feeds: the local port and those of edge stations. -/
def injPorts (node : Nat) : List MeshPort :=
  MeshPort.localPort :: [MeshPort.north, .south, .east, .west].filter (isEdge node)

/-- The barges that a node's local and edge inputs hold: of each class as many as there is room for, without the room freed in the beat; a
later one is not injected yet (R293). -/
def State.inBuffer (s : State) (node b : Nat) (l : List Flit) : List Flit :=
  (injPorts node).foldl (fun l p => (List.range 4).foldl (fun l c =>
    keepFirst (fun f => f.port == p && bClass f.barge == c) (8 - s.freedIn (bufKey node p c) b) l) l) l

/-- The barges at a node that an output may take in beat `b`, in the order of R292. -/
def State.candidates (s : State) (node : Nat) (out : MeshPort) (b : Nat) : List Flit :=
  ((s.inBuffer node b (s.mesh.flits.filter fun f => f.node == node && (decide (f.at_ ≤ b) || s.beatless node))).filter fun f =>
    f.outs.any fun o => o.1 == out).foldl (fun l f => placeFlit f l) []

/-- Remove one branch of a barge from the router; with its last branch the barge leaves its input buffer. -/
def dropOut (f : Flit) (br : Branch) : List Flit → List Flit
  | [] => []
  | x :: t => if x = f then
      (let o := x.outs.erase br
       if o.isEmpty then t else { x with outs := o } :: t)
    else x :: dropOut f br t

/-- Take barges through an output while its width `w` lasts. A barge that finds no room waits, and so do later ones of its input
and class (R292, R293). Each round uses up width or a barge; the first argument bounds the rounds. -/
def State.takeAll (s : State) (node : Nat) (out : MeshPort) (b : Nat) :
    Nat → Nat → List (MeshPort × Nat) → List Flit → State
  | 0, _, _, _ => s
  | _, _, _, [] => s
  | _, 0, _, _ => s
  | n + 1, w + 1, blocked, f :: t =>
    match f.outs.find? fun o => o.1 == out with
    | none => s.takeAll node out b n (w + 1) blocked t
    | some br =>
      let key := (f.port, bClass f.barge)
      if blocked.contains key ∨ !s.outRoom f br b then s.takeAll node out b n (w + 1) (key :: blocked) t
      else
        let g := { f with outs := f.outs.erase br }
        let s := { s with mesh := { s.mesh with flits := dropOut f br s.mesh.flits } }
        let s := if g.outs.isEmpty then (s.freeRoom (bufKey node f.port (bClass f.barge)) b).freeCredit f else s
        let s := s.takeFlit f br b
        if g.outs.any fun o => o.1 == out then s.takeAll node out b n w blocked (g :: t)
        else s.takeAll node out b n w blocked t

/-- Outputs that a command names: an edge port stands for every port of the router that leads off the grid (R292). -/
def outputsOf (node : Nat) (p : MeshPort) : List MeshPort :=
  if p = .edge then [MeshPort.north, .south, .east, .west].filter (isEdge node)
  else if isEdge node p then [] else [p]

/-- The mesh of a reach moves: a beat is in progress there, or the die is held for items that are late, or a reset has stopped the reach
(R547; log entry 15). In an idle state its routers do not run (R522). -/
def State.meshRuns (s : State) (node : Nat) : Bool :=
  (!(s.reach (reachOf node)).complete || s.beatless node) && s.idle.state == 0

/-- One router output in one beat (R292). -/
def State.forward (s : State) (node : Nat) (out : MeshPort) : State :=
  let b := s.nodeBeat node
  let k := node * 8 + portNum out
  if !s.meshRuns node ∨ (smFind s.mesh.moved k = some b ∧ !s.beatless node) then s
  else
    let c := s.candidates node out b
    if c.isEmpty then s
    else
      let s := { s with mesh := { s.mesh with moved := smPut s.mesh.moved k b } }
      s.takeAll node out b (widthOf node out + c.length) (widthOf node out) [] c

/-- BARGE_FORWARD (R292). -/
def execBargeForward (node : Fin 256) (out : MeshPort) (s : State) : Out :=
  .next ((outputsOf node out).foldl (fun t p => t.forward node p) s)

/-- MCAST_REPLY_COMBINE (R308). -/
def execMcastReplyCombine (node : Fin 256) (id : BitVec 12) (s : State) : Out := .next (s.combine node id.toNat)

/-- The port of a station by which an agent is served at a node. -/
def stationPort (node : Nat) (a : Agent) : MeshPort :=
  ([MeshPort.north, .south, .east, .west].find? fun p => isEdge node p && servedBy p a).getD .edge

/-- Take the first barge waiting for an agent that satisfies `p` and has arrived (R293). -/
def State.takeArrival (s : State) (a : Agent) (p : Barge → Bool) : Option (Arrival × State) :=
  match s.mesh.inbox.find? fun x => x.agent == a && p x.barge && (decide (x.at_ ≤ s.nodeBeat x.node) || s.beatless x.node) with
  | some x =>
    let s := { s with mesh := { s.mesh with inbox := s.mesh.inbox.erase x } }
    some (x, if agentNum a < 256 then s else s.freeRoom (stationKey x.node (stationPort x.node a) (bClass x.barge))
      (s.nodeBeat x.node))
  | none => none

end Sys2Proof.Machine
end

