-- ==== Sys2Proof/Machine/Transfers.lean ====
section
/-! DEFINITION. Transfers (R299 to R310): the OPEN, GRANT, READ, DATA and ACK barges of a sub-transfer at the sluice, at the
destination and at the source agent; berths (R252 to R258); the ingress buffer (R251, R601); hold requests (R264). -/

namespace Sys2Proof.Machine

/-! ### Landing slots and berths (R252 to R258, R300) -/

/-- Key of a landing slot. -/
def slotKey (a : Agent) (i : Nat) : Nat := agentNum a * 64 + i

def State.land (s : State) (k : Nat) : Option Landing := smFind s.mesh.landing k

def State.setLand (s : State) (k : Nat) (l : Landing) : State :=
  { s with mesh := { s.mesh with landing := smPut s.mesh.landing k l } }

def State.freeLand (s : State) (k : Nat) : State := { s with mesh := { s.mesh with landing := smDel s.mesh.landing k } }

/-- A slot that serves no transfer in beat `b`: it was freed before, in the beat after its last write (R300, R301). While the die is held
no beats pass (log entry 15). -/
def State.slotFree (s : State) (k b : Nat) : Bool :=
  match s.land k with
  | none => true
  | some l => l.doneAt.any fun t => decide (t < b) || s.held

/-- A free landing slot of an agent in beat `b` (R300). -/
def State.freeSlot (s : State) (a : Agent) (b : Nat) : Option Nat := (List.range 64).find? fun i => s.slotFree (slotKey a i) b

/-- DATA barges of a slot (R303). -/
def Landing.total (l : Landing) : Nat := l.rows * ceilDiv l.rowB 64

/-- Place of barge `k` of a slot: device address and bytes (R303, R304). -/
def Landing.place (l : Landing) (k : Nat) : Nat × Nat :=
  let per := ceilDiv l.rowB 64
  (l.dst + l.stride * (k / per) + 64 * (k % per), min 64 (l.rowB - 64 * (k % per)))

/-- The berth check of R254: the code of the refusal, or credit taken. -/
def State.berthClaim (s : State) (n b u off stride rows rowB : Nat) : State × Nat :=
  let w0 := Reg.BERTH_W0 n b
  let w1 := Reg.BERTH_W1 n b
  let base := 64 * s.get w0 Fld.BERTH_W0.base
  let lim := base + 64 * s.get w0 Fld.BERTH_W0.size
  let credit := s.get w1 Fld.BERTH_W1.credit
  if s.get w0 Fld.BERTH_W0.enable = 0 ∨ off < base ∨ lim < off + stride * (rows - 1) + rowB then
    (s.hwSet w1 Fld.BERTH_W1.refused 1, 0x3405)
  else if credit < u then (s.hwSet w1 Fld.BERTH_W1.refused 1, 0x3401)
  else (s.put w1 Fld.BERTH_W1.credit (credit - u), 0)

/-- Reply to the sluice, ferry channel or Ethernet port that sent an OPEN, in the next beat (R297, R301); its berth field names sluice and
sub-transfer, and bit 7 of src a ferry channel or, with bit 2, an Ethernet port (log entry 13). -/
def State.reply (s : State) (a : Agent) (ty srcChip srcCore src : Nat) (mcast : Option Nat) (pay : BitVec 512) : State :=
  let chip := if s.isHere srcChip then 0 else srcChip
  let mark := src % 4 + 4 * (src / 8 % 16)
  let h := match mcast with
    | some id => hMcast.set (hdr3 ty 0 id 0 s.stepParity) 1
    | none => hdr3 ty chip (if src < 128 then srcCore else if src.testBit 2 then 0x400 + src % 2 else 0x500) mark s.stepParity
  s.inject a 0 1 (mkBarge h pay)

/-- Core of an agent. -/
def coreOfAgent : Agent → Option Nat
  | .core n => some n.val
  | _ => none

/-- An OPEN claims a berth of core `n` (R253, R254). -/
def State.claimsBerth (s : State) (n : Nat) (b : Barge) : Bool :=
  hBerth.get b.header != 0x3F && !(n == payNat b 25 1 && s.isHere (payNat b 26 2)) &&
  windowKind (payNat b 0 8 % 0x4000000) == .basin

/-- An OPEN at its destination in beat `now`: a slot, a berth check, and the reply (R254, R301). -/
def State.openAt (s : State) (a : Agent) (now : Nat) (b : Barge) : State :=
  let src := payNat b 24 1
  let srcCore := payNat b 25 1
  let srcChip := payNat b 26 2
  let mc := if bMulti b then some (hDest.get b.header) else none
  let dst0 := payNat b 0 8 % 2 ^ 48
  let rows := payNat b 20 2
  let rowB := payNat b 16 4
  let stride := 32 * payNat b 22 2
  let dst := match coreOfAgent a with
    | some n => coreBase n + dst0 % 0x4000000
    | none => dst0
  match s.freeSlot a now with
  | none => s.countBusy.reply a tyREFUSE srcChip srcCore src mc (BitVec.ofNat 512 0x3408)
  | some i =>
    let berth := hBerth.get b.header
    let use := match coreOfAgent a with
      | some n => s.claimsBerth n b
      | none => false
    let (s, code) := match coreOfAgent a with
      | some n => if use then s.berthClaim n (berth % 16) (payNat b 8 8) (dst % 0x4000000) stride rows rowB else (s, 0)
      | none => (s, 0)
    if code ≠ 0 then s.reply a tyREFUSE srcChip srcCore src mc (BitVec.ofNat 512 code)
    else
      let l : Landing := { srcChip := srcChip, srcCore := srcCore, src := src, mcast := mc, dst := dst, stride := stride
                           rows := rows, rowB := rowB, berth := if use then some (berth % 16) else none }
      (s.setLand (slotKey a i) l).reply a tyGRANT srcChip srcCore src mc (BitVec.ofNat 512 i)

/-- Router whose beats time the ACK of an agent's slot: that of a core, or of a hold's station in the column of the core that waits. -/
def ackNode (a : Agent) (srcCore : Nat) : Nat :=
  match a with
  | .core n => n.val
  | .hold h => if h.val = 0 then colOf srcCore else 240 + colOf srcCore
  | _ => 0

/-- The last byte of a slot is written: the berth records it, and in the next beat the slot is free and the ACK leaves
(R254, R301). -/
def State.slotDone (s : State) (a : Agent) (k : Nat) (l : Landing) : State :=
  let s := match coreOfAgent a, l.berth with
    | some n, some b =>
      (s.addTo (Reg.BERTH_W1 n b) Fld.BERTH_W1.done_count 1).put (Reg.BERTH_DONE n b) Fld.BERTH_DONE.done_beat
        (s.beatOf n)
    | _, _ => s
  (s.setLand k { l with doneAt := some (s.nodeBeat (ackNode a l.srcCore)) }).reply a tyACK l.srcChip l.srcCore l.src l.mcast
    (if l.bad then 1 else 0)

/-! ### Hold requests (R263, R264, R301) -/

/-- Pseudo-channel of a hold offset (R263). -/
def pcOf (o : Nat) : Nat := o / 256 % 64 ^^^ o / 65536 % 64

/-- Key of a pseudo-channel: hold × 64 + channel, from a device address. -/
def pcKey (a : Nat) : Nat := (a / 0x1000000000 - 1) * 64 + pcOf (a % 0x1000000000)

def State.pc (s : State) (k : Nat) : HoldPc := smGet {} s.holds k
def State.setPc (s : State) (k : Nat) (x : HoldPc) : State := { s with holds := smPut s.holds k x }

/-- Insert a request in the order of R264: arrival, and within a beat ascending column. -/
def placeReq (r : HoldReqItem) : List HoldReqItem → List HoldReqItem
  | [] => [r]
  | x :: t => if r.key / 16 = x.key / 16 ∧ r.key < x.key then r :: x :: t else x :: placeReq r t

/-- A request reaches its pseudo-channel from an edge router (R264). -/
def State.holdRequest (s : State) (node addr len : Nat) (write : Option (List (Nat × List Byte × List Bool)))
    (f : HoldFor) : State :=
  let k := pcKey addr
  let x := s.pc k
  let r : HoldReqItem := { key := s.nodeBeat node * 16 + colOf node, addr := addr, write := write, len := len, for_ := f }
  s.setPc k { x with queue := placeReq r x.queue }

/-- Send the block that a slot has gathered (R301). -/
def State.sendGather (s : State) (node k : Nat) (l : Landing) : State :=
  match l.gather with
  | [] => s.setLand k l
  | p :: _ =>
    (s.setLand k { l with gather := [], inFlight := l.inFlight + 1 }).holdRequest node p.1
      ((l.gather.map fun q => q.2.1.length).foldl (· + ·) 0) (some l.gather) (.landing k)

/-- A DATA barge joins the block its slot gathers at a hold front end; one that falls in another block sends what is gathered first
(R301). -/
def State.gatherData (s : State) (node k : Nat) (l : Landing) (a : Nat) (bs : List Byte) (bad : List Bool) : State :=
  -- a barge that the block's end divides is gathered in two parts
  let n1 := min bs.length (256 - a % 256)
  let parts := [(a, bs.take n1, bad.take (n1 / 32)), (a + n1, bs.drop n1, bad.drop (n1 / 32))].filter fun p =>
    !p.2.1.isEmpty
  let s := parts.foldl (fun (t : State) p =>
    let l := (t.land k).getD l
    let t := if l.gather.all fun q => q.1 / 256 == p.1 / 256 then t else t.sendGather node k l
    let l := (t.land k).getD l
    let l := { l with gather := l.gather ++ [p] }
    if (p.1 + p.2.1.length) % 256 = 0 then t.sendGather node k l else t.setLand k l) (s.setLand k l)
  let l := (s.land k).getD l
  if l.next = l.total then s.sendGather node k l else s

/-! ### DATA at its destination (R279, R304) -/

/-- A payload line on its way into a memory: corrected bits, poison, and the code to log, 0 for none (R277, R279, R280). A line sent
as poison carries its mark and is not checked again. -/
def arriveLine (d : BitVec 256) (c : BitVec 10) : BitVec 256 × Bool × Nat :=
  let m := encodeLine d ^^^ c
  if m = 3 then (d, true, 0)
  else match lineStat m with
    | .ok => (d, false, 0)
    | .corrected =>
      (match bitOfCol (m.toNat % 512) with
       | some i => (d ^^^ BitVec.ofNat 256 (2 ^ i), false, 0x1501)
       | none => (d, false, 0x1501))
    | .uncorrectable => (d, true, 0x2401)

/-- The unit of a sluice. -/
def sluUnit (sl : Nat) : UnitId := .sluice ⟨sl % 4, Nat.mod_lt _ (by decide)⟩

/-- Codes that the macro-op behind a sub-transfer has logged, beside those of the caller's own slot or READ (R280): those of the
sluice's run on this chip; for a sluice of another chip, those of its slots and READs here, since no barge names its macro-op (log
entry 31). -/
def State.opLogged (s : State) (chip core src : Nat) (own : List Nat) : List Nat :=
  if src < 128 ∧ s.isHere chip then own ++ (((s.core core).running (sluUnit src)).elim [] (·.logged))
  else
    own ++
    (s.mesh.landing.flatMap fun e =>
      if e.2.srcChip = chip ∧ e.2.srcCore = core ∧ e.2.src % 8 = src % 8 ∧ e.2.doneAt.isNone ∧ src < 128 then e.2.logged else []) ++
    (s.mesh.reads.flatMap fun e => e.2.flatMap fun r =>
      if r.sChip = chip ∧ r.sCore = core ∧ r.sSrc % 8 = src % 8 ∧ src < 128 then r.logged else [])

/-- Note codes logged for the macro-op behind a sub-transfer. -/
def State.noteLogged (s : State) (chip core src : Nat) (codes : List Nat) : State :=
  if src < 128 ∧ s.isHere chip then s.modRun core (sluUnit src) fun r => { r with logged := codes } else s

/-- Log codes of lines in transit, given with the lines' addresses, each once for the macro-op that moves them (R280, R551). -/
def State.logLand (s : State) (core : Option Nat) (codes : List (Nat × Nat)) (logged : List Nat) : State × List Nat :=
  codes.foldl (fun (x : State × List Nat) c =>
    if c.1 = 0 ∨ x.2.contains c.1 then x
    else (x.1.logErr { code := c.1, info := c.2, core := core }, c.1 :: x.2)) (s, logged)

/-- Lines of `len` bytes from a line address on. -/
def linesFrom (a len : Nat) : List Nat := (List.range (ceilDiv len 32)).map fun i => a + 32 * i

/-- A DATA barge for a landing slot: in seq order, or as poison at the place of the barge expected (R304). -/
def State.landData (s : State) (a : Agent) (node k : Nat) (l : Landing) (b : Barge) : State :=
  let ok := hSeq.get b.header == l.next % 1024
  let (d0, p0, c0) := arriveLine (b.payload.extractLsb' 0 256) b.check0
  let (d1, p1, c1) := arriveLine (b.payload.extractLsb' 256 256) b.check1
  let (addr, len) := l.place l.next
  let two := decide (32 < len)
  let core := coreOfAgent a
  let s := if ok then s else s.addSat Reg.MESH_STAT Fld.MESH_STAT.seq_err 1
  let (s, logged) := s.logLand core (if ok then (if two then [(c0, addr), (c1, addr + 32)] else [(c0, addr)])
      else [(0x2401, addr)]) (s.opLogged l.srcChip l.srcCore l.src l.logged)
  let s := s.noteLogged l.srcChip l.srcCore l.src logged
  let bad := if ok then (if two then [p0, p1] else [p0]) else (if two then [true, true] else [true])
  let bs := (natLe 32 d0.toNat ++ natLe 32 d1.toNat).take len
  let s := if bad.any id then s.put Reg.DTRM_STAT Fld.DTRM_STAT.poison 1 else s
  let l := { l with next := l.next + 1, bad := l.bad || bad.any id, logged := logged }
  match core with
  | some n =>
    let s := s.setLand k l
    let c := s.core n
    let left := linesFrom addr len
    (s.setCore n { c with
      awaited := c.awaited.filter fun x => !left.contains x
      ingress := c.ingress ++ [⟨k, addr, bs, bad, left, left.filter c.awaited.contains, s.beatOf n⟩] }).refresh n
  | none => s.gatherData node k l addr bs bad

/-- A slot that still serves a transfer. -/
def State.liveLand (s : State) (k : Nat) : Option Landing := (s.land k).filter fun l => l.doneAt.isNone

/-- The slot a DATA barge is for (R295, R308). -/
def State.dataSlot (s : State) (a : Agent) (b : Barge) : Option (Nat × Landing) :=
  if bMulti b then
    (List.range 64).findSome? fun i => match s.liveLand (slotKey a i) with
      | some l => if l.mcast = some (hDest.get b.header) then some (slotKey a i, l) else none
      | none => none
  else (s.liveLand (slotKey a (hBerth.get b.header))).map fun l => (slotKey a (hBerth.get b.header), l)

/-- Key of a sluice's transfer. -/
def txKey (n sl : Nat) : Nat := n * 4 + sl

def State.tx (s : State) (n sl : Nat) : Option Tx := smFind s.mesh.tx (txKey n sl)
def State.setTx (s : State) (n sl : Nat) (x : Tx) : State := { s with mesh := { s.mesh with tx := smPut s.mesh.tx (txKey n sl) x } }
def State.delTx (s : State) (n sl : Nat) : State := { s with mesh := { s.mesh with tx := smDel s.mesh.tx (txKey n sl) } }

/-- The kind of a sluice macro-op, as SluOp names it. -/
def sluKind : OpKind → Option SluKind
  | .scopy _ => some .copy
  | .scast _ => some .cast
  | .skvr _ => some .kvr
  | .skvw _ => some .kvw
  | _ => none

/-- The sluice operation a running macro-op carries out. -/
def State.sluRunning (s : State) (n sl : Nat) : Option SluOp :=
  match (s.core n).running (sluUnit sl) with
  | some r => match opKind (opByte r.desc) with
    | some k => (sluKind k).map fun kind => sluOf n kind r.desc
    | none => none
  | none => none

/-- Address of the next map bytes to come back, for the map's address: of the header, or of the entries asked for (R270, R306). -/
def Tx.mapAt (t : Tx) (a : Nat) : Nat :=
  if t.stage = 0 then a + t.hdr.length else (a + 64 + 8 * t.firstE) / 32 * 32 + t.ents.length

/-- Map bytes that come back to a sluice's buffer (R306); its macro-op logs each code once, and takes poison into its pushes (R280,
R281, R345). -/
def State.mapData (s : State) (n sl : Nat) (b : Barge) : State :=
  match s.tx n sl with
  | none => s
  | some t =>
    let (d0, p0, c0) := arriveLine (b.payload.extractLsb' 0 256) b.check0
    let (d1, p1, c1) := arriveLine (b.payload.extractLsb' 256 256) b.check1
    let bs := (natLe 32 d0.toNat ++ natLe 32 d1.toNat).take t.want
    let at_ := t.mapAt ((s.sluRunning n sl).elim 0 SluOp.src)
    let (s, logged) := s.logLand (some n) [(c0, at_), (c1, at_ + 32)] (s.opLogged s.chipAddr n sl [])
    let s := s.noteLogged s.chipAddr n sl logged
    let s := if p0 || p1 then (s.put Reg.DTRM_STAT Fld.DTRM_STAT.poison 1).taint n (sluUnit sl) true else s
    s.setTx n sl (if t.stage = 0 then { t with hdr := t.hdr ++ bs, want := t.want - bs.length }
      else { t with ents := t.ents ++ bs, want := t.want - bs.length })

/-- Key of the place where a fill writes core `n`'s store. -/
def fillKey (n : Nat) : Nat := 2 ^ 20 + n

/-- DATA (R304); those of a fill are taken at the place that the fill keeps for them (R489). -/
def execDataBarge (a : Agent) (s : State) : Out :=
  match s.takeArrival a fun b => bType b == tyDATA with
  | none => .next s
  | some (x, t) =>
    match coreOfAgent a, mapMark x.barge with
    | some n, m + 1 =>
      if m + 1 = fillMark then
        match t.liveLand (fillKey n) with
        | some l => .next (t.landData a x.node (fillKey n) l x.barge)
        | none => .next t
      else .next (t.mapData n m x.barge)
    | _, _ =>
      match t.dataSlot a x.barge with
      | some (k, l) => .next (t.landData a x.node k l x.barge)
      | none => .next t

/-! ### The ingress buffer (R248, R250, R251, R260, R601) -/

/-- Replace the first barge of the buffer that is `g`, or take it out. -/
def setIngress (g : Ingress) (x : Option Ingress) : List Ingress → List Ingress
  | [] => []
  | y :: t => if y = g then x.toList ++ t else y :: setIngress g x t

/-- Write lines of an ingress barge, with poison by line (R278). With its last line the barge leaves the buffer, and with the last
barge of its slot the slot is done. -/
def State.writeIngress (s : State) (n : Nat) (g : Ingress) (ls : List Nat) : State :=
  let s := ls.foldl (fun (t : State) la =>
    let i := (la - g.addr) / 32
    t.lineWrite 2 la fullLine (leNat ((g.bytes.drop (32 * i)).take 32)) (g.poison.getD i false)) s
  let left := g.left.filter fun x => !ls.contains x
  let c := s.core n
  if !left.isEmpty then s.setCore n { c with ingress := setIngress g (some { g with left := left }) c.ingress }
  else
    let s := (s.setCore n { c with ingress := setIngress g none c.ingress }).refresh n
    match s.land g.slot with
    | none => s
    | some l =>
      let l := { l with written := l.written + 1 }
      if l.fill && l.written == l.total then s.freeLand g.slot
      else if l.written = l.total then s.slotDone (.core ⟨n % 256, Nat.mod_lt _ (by decide)⟩) g.slot l else s.setLand g.slot l

/-- The first barge of the buffer for a memory. -/
def Core.firstFor (c : Core) (k : MemKind) : Option Ingress := c.ingress.find? fun g => memKind g.addr == k

/-- Lines of a basin barge that may be written now: those given their banks in the beat in progress, or all while the die is held
(log entry 15). -/
def State.linesNow (s : State) (n : Nat) (g : Ingress) : List Nat :=
  if s.held then g.left else if g.givenAt = s.beatOf n then g.left.filter g.given.contains else []

/-- INGRESS_WRITE (R248, R601): the lines of the next basin barge whose banks it is given, or the next operand-cache barge for which
the port has bytes left. -/
def execIngressWrite (core : Fin 256) (s : State) : Out :=
  let n := core.val
  let c := s.core n
  if !s.meshRuns n then .next s
  else match c.ingress.find? fun g => memKind g.addr == .basin && !(s.linesNow n g).isEmpty with
  | some g => .next (s.writeIngress n g (s.linesNow n g))
  | none =>
    match c.firstFor .ocache with
    | some g =>
      if c.portBytes + g.bytes.length ≤ 256 ∨ s.held then
        .next ((s.setCore n { c with portBytes := c.portBytes + g.bytes.length }).writeIngress n g g.left)
      else .next s
    | none => .next s

/-- The fill of a staged switch is in progress (R493). -/
def State.stagedFill (s : State) : Bool :=
  s.get Reg.WSWP_STAT Fld.WSWP_STAT.state == 3 && !s.weights.load

/-- WEIGHT_STORE_WRITE (R259, R260): one 64 B unit in a beat of the reach, none while the die is held, but that of a staged fill, which
R493 places in such a hold (log entry 23). -/
def execWeightStoreWrite (core : Fin 256) (s : State) : Out :=
  let n := core.val
  let b := s.beatOf n
  if (!s.inBeat n ∨ s.held ∨ smFind s.mesh.wsWrote n = some b) ∧ !(s.held && s.stagedFill) then .next s
  else match (s.core n).firstFor .wstore with
  | some g =>
    let unit := g.left.filter fun la => la / 64 == g.left.headD 0 / 64
    .next (({ s with mesh := { s.mesh with wsWrote := smPut s.mesh.wsWrote n b } }).writeIngress n g unit)
  | none => .next s

/-- Lines that lie in one of the pieces. -/
def linesOfPieces (ls : List Nat) (ps : List (Nat × Nat)) : List Nat :=
  ls.filter fun la => ps.any fun p => la / 64 == p.1 / 64

/-- Pieces of lines by unit. -/
def piecesOfLines (ls : List Nat) : List (Nat × Nat) := (ls.map fun la => (la / 64 * 64, 64)).eraseDups

/-- Waiting basin barges take their banks in order; one that cannot have all of them holds the later ones back whole. Whether one did
(R248, R250). -/
def State.giveIngress (s : State) (n : Nat) : List Ingress → State × Bool
  | [] => (s, false)
  | g :: rest =>
    if memKind g.addr ≠ .basin then s.giveIngress n rest
    else
      let (t, served, wait) := s.giveBanks (piecesOfLines g.left)
      let c := t.core n
      let g' := { g with given := linesOfPieces g.left served, givenAt := s.beatOf n }
      let t := t.setCore n { c with ingress := setIngress g (some g') c.ingress }
      if wait.isEmpty then t.giveIngress n rest else (t, true)

/-- So do the basin barges that arrive in the beat, given by their places (R248). -/
def State.giveDue (s : State) (n : Nat) : List (Nat × Nat) → State
  | [] => s
  | (a, len) :: rest =>
    if memKind a ≠ .basin then s.giveDue n rest
    else
      let ls := linesFrom a len
      let (t, served, wait) := s.giveBanks (piecesOfLines ls)
      let c := t.core n
      let t := t.setCore n { c with awaited := c.awaited ++ linesOfPieces ls served }
      if wait.isEmpty then t.giveDue n rest else t

/-- Places of the DATA barges that arrive at core `n` in the beat in progress. -/
def State.dueData (s : State) (n : Nat) : List (Nat × Nat) :=
  let due := s.mesh.inbox.filter fun x => agentNum x.agent == n && bType x.barge == tyDATA && mapMark x.barge == 0 &&
    decide (x.at_ = s.beatOf n)
  (due.foldl (fun (acc : List (Nat × Nat) × SMap Nat) x =>
    match s.dataSlot x.agent x.barge with
    | none => acc
    | some (k, l) =>
      let j := smGet 0 acc.2 k
      (acc.1 ++ [l.place (l.next + j)], smPut acc.2 k (j + 1))) ([], [])).1

/-- At a token, the ingress buffer's basin barges take the banks that the array leaves, in order, with the barges that arrive
in the beat (R248). -/
def State.reserveIngress (s : State) (n : Nat) : State :=
  let s := if 32 ≤ (s.core n).ingress.length then s.addTo (Reg.INGRESS_STAT n) Fld.INGRESS_STAT.full_beats 1 else s
  match s.giveIngress n (s.core n).ingress with
  | (t, true) => t
  | (t, false) => t.giveDue n (t.dueData n)

/-! ### Reading a source (R279, R302, R303) -/

/-- Poison of each line of `len` bytes from `a` on. -/
def State.lineBads (s : State) (a len : Nat) : List Bool :=
  (List.range (ceilDiv len 32)).map fun i => lineStat (s.eccOf (lineOf a + 32 * i)) == .uncorrectable

/-- A DATA barge from bytes and poison by line (R278, R295, R298). -/
def dataBarge (chip dest rclass : Nat) (mcast : Bool) (seq slot parity mark : Nat) (bs : List Byte) (bad : List Bool) : Barge :=
  let h : Word := hType.set 0 tyDATA
  let h := hDest.set (hChip.set h chip) dest
  let h := hMcast.set (hClass.set h rclass) (if mcast then 1 else 0)
  let h := hParity.set (hBerth.set (hSeq.set h (seq % 1024)) slot) parity
  let b := mkBarge (h ||| BitVec.ofNat 64 mark) (payOf bs)
  { b with
    check0 := if bad.getD 0 false then b.check0 ^^^ 3 else b.check0
    check1 := if bad.getD 1 false then b.check1 ^^^ 3 else b.check1 }

/-- The local port of core `n` takes another DATA barge of a class in the beat in progress (R285, R293). -/
def State.mayInject (s : State) (n cls : Nat) : Bool :=
  s.injFree n .localPort && s.inputRoom n .localPort cls (s.beatOf n)

/-- Bytes and poison of pieces of a barge that have been read, by address. -/
abbrev Parts := SMap (List Byte × List Bool)

/-- Read pieces into the parts of a barge. -/
def State.readParts (s : State) (ps : List (Nat × Nat)) (m : Parts) : Parts :=
  ps.foldl (fun m p => smPut m p.1 (s.bytes p.1 p.2, s.lineBads p.1 p.2)) m

/-- The pieces of a barge that have not been read. -/
def Parts.missing (m : Parts) (ps : List (Nat × Nat)) : List (Nat × Nat) := ps.filter fun p => (smFind m p.1).isNone

/-- Bytes and poison of a barge all of whose pieces have been read. -/
def Parts.join (m : Parts) (ps : List (Nat × Nat)) : List Byte × List Bool :=
  (ps.flatMap fun p => (smGet ([], []) m p.1).1, ps.flatMap fun p => (smGet ([], []) m p.1).2)

/-! ### READs (R302) -/

def State.readQ (s : State) (a : Agent) : List ReadReq := smGet [] s.mesh.reads (agentNum a)
def State.setReadQ (s : State) (a : Agent) (q : List ReadReq) : State :=
  { s with mesh := { s.mesh with reads := smPut s.mesh.reads (agentNum a) q } }

/-- The payload of a READ (R302; its layout is log entry 13). -/
def readPayload (r : ReadReq) : BitVec 512 :=
  BitVec.ofNat 512 (r.src % 2 ^ 48 + r.rowB % 2 ^ 32 * 2 ^ 64 + r.rows % 2 ^ 16 * 2 ^ 96 + r.stride / 32 % 2 ^ 16 * 2 ^ 112 +
    r.chip % 2 ^ 16 * 2 ^ 128 + r.dest % 2 ^ 12 * 2 ^ 144 + r.slot % 64 * 2 ^ 160 + (if r.mcast then 1 else 0) * 2 ^ 168 +
    r.rclass % 4 * 2 ^ 176 + r.parity % 2 * 2 ^ 178 + r.mapTo % 8 * 2 ^ 184 + r.sChip % 2 ^ 16 * 2 ^ 192 +
    r.sCore % 256 * 2 ^ 208 + r.sSrc % 256 * 2 ^ 216)

/-- The READ a barge carries. -/
def readOf (b : Barge) : ReadReq :=
  { src := payNat b 0 6, rowB := payNat b 8 4, rows := payNat b 12 2, stride := 32 * payNat b 14 2, chip := payNat b 16 2
    dest := payNat b 18 2, slot := payNat b 20 1, mcast := payNat b 21 1 == 1, rclass := payNat b 22 1 % 4
    parity := payNat b 22 1 / 4 % 2, mapTo := payNat b 23 1, sChip := payNat b 24 2, sCore := payNat b 26 1
    sSrc := payNat b 27 1 }

/-- READ (R302): queued, or refused with 0x3408 where 16 are held. -/
def execReadBarge (a : Agent) (s : State) : Out :=
  match s.takeArrival a fun b => bType b == tyREAD with
  | none => .next s
  | some (x, t) =>
    let r := readOf x.barge
    let r := match coreOfAgent a with
      | some n => { r with src := coreBase n + r.src % 0x4000000 }
      | none => r
    let q := t.readQ a
    if 16 ≤ q.length then .next (t.countBusy.reply a tyREFUSE r.sChip r.sCore r.sSrc none (BitVec.ofNat 512 0x3408))
    else .next (({ t with mesh := { t.mesh with readSeq := t.mesh.readSeq + 1 } }).setReadQ a
      (q ++ [{ r with id := t.mesh.readSeq }]))

/-- DATA barges of a READ. -/
def ReadReq.total (r : ReadReq) : Nat := r.rows * ceilDiv r.rowB 64

/-- Source address and bytes of barge `k` of a READ (R303). -/
def ReadReq.place (r : ReadReq) (k : Nat) : Nat × Nat :=
  let per := ceilDiv r.rowB 64
  (r.src + r.stride * (k / per) + 64 * (k % per), min 64 (r.rowB - 64 * (k % per)))

/-- The DATA barge of a READ. -/
def ReadReq.barge (r : ReadReq) (k : Nat) (bs : List Byte) (bad : List Bool) : Barge :=
  dataBarge r.chip r.dest r.rclass r.mcast k (if r.mcast then 0x3F else r.slot) r.parity r.mapTo bs bad

/-- Note lines that the macro-op behind a sub-transfer reads, each code once for it (R280). -/
def State.noteOp (s : State) (core : Option Nat) (ls : List (Nat × Bool)) (chip score src : Nat) (own : List Nat) :
    State × List Nat :=
  let (t, l) := s.noteLines ls core none (s.opLogged chip score src own)
  (t.noteLogged chip score src l, l)

/-- The next `k` barges of the READs of a queue, each as its pieces, in order (R302). -/
def nextPieces : Nat → List ReadReq → List (List (Nat × Nat))
  | _, [] => []
  | k, r :: t =>
    let m := min k (r.total - r.sent)
    ((List.range m).map fun i => piecesOf (r.place (r.sent + i)).1 (r.place (r.sent + i)).2) ++ nextPieces (k - m) t

/-- Barges take banks in order, each for those of its pieces whose banks are free; after one that is not wholly served none follows
(R248, R250). -/
def State.giveInOrder (s : State) : List (List (Nat × Nat)) → State × List Nat
  | [] => (s, [])
  | ps :: t =>
    let (u, served, wait) := s.giveBanks ps
    if wait.isEmpty then
      let (v, l) := u.giveInOrder t
      (v, served.map Prod.fst ++ l)
    else (u, served.map Prod.fst)

/-- At a token, the read agent takes the banks that it needs for the barges that the local port has width for (R248, R302). -/
def State.reserveRead (s : State) (n : Nat) : State :=
  match s.readQ (.core ⟨n % 256, Nat.mod_lt _ (by decide)⟩) with
  | [] => s
  | r :: q =>
    let room := 4 - injCount (s.injAt n .localPort) (s.beatOf n)
    let (t, l) := s.giveInOrder ((nextPieces room (r :: q)).map (Parts.missing r.part))
    t.setCore n { t.core n with readGiven := l }

/-- Serve the oldest READ of a core's read agent while banks and port last; `fuel` bounds the barges (R248, R250, R302). -/
def State.serveCoreRead (s : State) (n : Nat) (a : Agent) : Nat → State
  | 0 => s
  | fuel + 1 =>
    match s.readQ a with
    | [] => s
    | r :: t =>
      if r.total ≤ r.sent then s.setReadQ a t
      else
        let (p, len) := r.place r.sent
        let ps := piecesOf p len
        let may := fun (x : Nat × Nat) => memKind x.1 != .basin || s.held || (s.core n).readGiven.contains x.1
        if !s.mayInject n r.rclass then s
        else
          let new := (Parts.missing r.part ps).filter may
          let (s, logged) := s.noteOp (some n) (new.flatMap fun x => s.badLines x.1 x.2) r.sChip r.sCore r.sSrc r.logged
          let part := s.readParts new r.part
          let c := s.core n
          let s := s.setCore n { c with readGiven := c.readGiven.filter fun x => !(new.any fun y => y.1 == x) }
          if !(Parts.missing part ps).isEmpty then s.setReadQ a ({ r with part := part, logged := logged } :: t)
          else
            let (bs, bad) := Parts.join part ps
            let s := s.inject a 5 0 (r.barge r.sent bs bad)
            let r := { r with sent := r.sent + 1, logged := logged, part := [] }
            if r.sent = r.total then s.setReadQ a t else (s.setReadQ a (r :: t)).serveCoreRead n a fuel

/-- The hold requests of a READ: its rows in order, divided at 256-byte blocks (R264). -/
def ReadReq.segs (r : ReadReq) : List (Nat × Nat) :=
  ((List.range r.rows).map fun i =>
    let a := r.src + r.stride * i
    let n := (a + r.rowB - 1) / 256 - a / 256 + 1
    (List.range n).map fun j =>
      let lo := max a (a / 256 * 256 + 256 * j)
      let hi := min (a + r.rowB) (a / 256 * 256 + 256 * (j + 1))
      (lo, hi - lo)).flatten

/-- Number of the request of a row that holds a byte: requests before the row, and blocks into it. -/
def ReadReq.segOf (r : ReadReq) (a row : Nat) : Nat :=
  let before := (List.range row).foldl (fun n i =>
    let b := r.src + r.stride * i
    n + ((b + r.rowB - 1) / 256 - b / 256 + 1)) 0
  before + (a / 256 - (r.src + r.stride * row) / 256)

/-- Bytes and poison that have come back for `len` bytes of a READ's row from address `a` on (R303). -/
def ReadReq.have (r : ReadReq) (a len row : Nat) : Option (List Byte × List Bool) :=
  let part := fun (p n : Nat) => match smFind r.got (r.segOf p row) with
    | none => none
    | some (bs, bad) =>
      let base := max (r.src + r.stride * row) (p / 256 * 256)
      some ((bs.drop (p - base)).take n, (bad.drop ((p - base) / 32)).take (n / 32))
  let n1 := min len (256 - a % 256)
  match part a n1 with
  | none => none
  | some x =>
    if n1 = len then some x
    else match part (a + n1) (len - n1) with
      | some y => some (x.1 ++ y.1, x.2 ++ y.2)
      | none => none

/-- Send what has come back for the oldest READ of a hold front end (R302, R303). -/
def State.serveHoldRead (s : State) (a : Agent) : Nat → State
  | 0 => s
  | fuel + 1 =>
    match s.readQ a with
    | [] => s
    | r :: t =>
      if r.total ≤ r.sent then s.setReadQ a t
      else
        let (p, len) := r.place r.sent
        match r.have p len (r.sent / ceilDiv r.rowB 64) with
        | none => s
        | some (bs, bad) =>
          let b := r.barge r.sent bs bad
          let (node, port) := s.injectAt a b
          if !s.injFree node port ∨ !s.inputRoom node port r.rclass (s.nodeBeat node) then s
          else
            let s := if 128 ≤ r.sSrc then s.injectPrimary a b else s.inject a 0 0 b
            let r := { r with sent := r.sent + 1 }
            if r.sent = r.total then s.setReadQ a t else (s.setReadQ a (r :: t)).serveHoldRead a fuel

/-- Make the hold requests of the oldest READ (R264, R302). -/
def State.askHold (s : State) (h : Nat) (a : Agent) : State :=
  match s.readQ a with
  | [] => s
  | r :: t =>
    if r.asked then s
    else
      let node := if h = 0 then colOf r.dest else 240 + colOf r.dest
      let s := s.setReadQ a ({ r with asked := true } :: t)
      (r.segs.foldl (fun (x : State × Nat) g => (x.1.holdRequest node g.1 g.2 none (.read r.id x.2), x.2 + 1)) (s, 0)).1

/-- A core's read agent or a hold's front end serves its oldest READ (R302). -/
def State.serveReads (s : State) (a : Agent) : State :=
  match a with
  | .core n => if s.meshRuns n then s.serveCoreRead n a 16 else s
  | .hold h => (s.askHold h a).serveHoldRead a 6
  | _ => s

/-! ### The sluice (R231 to R236, R270 to R273, R299 to R306) -/

/-- The payload of an OPEN (R299). The sub-transfer's number stands in bits [6:3] of src (log entry 13). -/
def openPayload (dst units rowB rows stride sl idx core chip vmask pset : Nat) (tree : Bool) : BitVec 512 :=
  BitVec.ofNat 512 (dst % 2 ^ 48 + units % 2 ^ 64 * 2 ^ 64 + rowB % 2 ^ 32 * 2 ^ 128 + rows % 2 ^ 16 * 2 ^ 160 +
    stride / 32 % 2 ^ 16 * 2 ^ 176 + (sl % 4 + (if tree then 4 else 0) + idx % 16 * 8) * 2 ^ 192 + core % 256 * 2 ^ 200 +
    chip % 2 ^ 16 * 2 ^ 208 + vmask % 2 ^ 32 * 2 ^ 224 + pset % 2 ^ 256 * 2 ^ 256)

/-- Physical device address of an address of this chip (R231, R362); a flat address names physical cores. -/
def State.physAddr (s : State) (flat : Bool) (a : Nat) : Nat :=
  if a < 0x400000000 ∧ !flat then coreBase (s.vmap (a / 0x4000000)) + a % 0x4000000 else a

/-- The dest value of the agent that holds a device address on a chip: a physical core here, a virtual one elsewhere (R297). -/
def destOf (here : Bool) (a : Nat) : Nat :=
  if a < 0x400000000 then (if here then 0 else 0x800) + a / 0x4000000
  else if a < 0x2000000000 then 0x100 else 0x200

/-- A sub-transfer of core `n`: source (none: rows of zeros) and destination as global addresses. -/
def State.mkSub (s : State) (n idx : Nat) (flat : Bool) (src : Option Nat) (dst rows rowB sstr dstr rclass : Nat) : SubTx :=
  let dHere := s.isHere (gChip dst)
  let da := if dHere then s.physAddr flat (gAddr dst) else gAddr dst
  let sHere := match src with
    | some a => s.isHere (gChip a)
    | none => true
  let sa := src.map fun a => if sHere then s.physAddr flat (gAddr a) else gAddr a
  { idx := idx, src := sa, sChip := match src with
      | some a => if sHere then 0 else gChip a
      | none => 0
    here := sHere && (match sa with
      | some a => decide (a < 0x400000000 ∧ a / 0x4000000 = n)
      | none => true)
    dst := da, chip := if dHere then 0 else gChip dst, dest := destOf dHere da, rows := rows, rowB := rowB
    sstr := sstr, dstr := dstr, rclass := rclass, mcast := none, exit := none }

/-- Show a sluice's transfer in SLUICE_STAT (R314). -/
def State.showTx (s : State) (n sl : Nat) : State :=
  let a := Reg.SLUICE_STAT n sl
  match (s.core n).running (sluUnit sl), s.tx n sl with
  | some r, some t =>
    let phase := if r.dead then 4 else if t.subs.any (fun x => x.granted.isSome && x.here &&
        decide (x.sent < x.rows * ceilDiv x.rowB 64)) then 2
      else if t.subs.any (·.granted.isNone) ∨ (t.subs.isEmpty ∧ !t.complete) then 1 else 3
    (s.put a Fld.SLUICE_STAT.phase phase).put a Fld.SLUICE_STAT.open_subs t.subs.length
  | _, _ => (s.put a Fld.SLUICE_STAT.phase 0).put a Fld.SLUICE_STAT.open_subs 0

/-- The exit port toward a chip: none here or without a route. An adaptive choice is recorded in DTRM_STAT (R345, R393). -/
def State.exitOf (s : State) (chip : Nat) (adapt : Bool) : State × Option (Fin 48) :=
  if s.isHere chip then (s, none)
  else match s.lookup s.bank chip adapt with
    | some (p, ad) =>
      (if ad then s.put Reg.DTRM_STAT Fld.DTRM_STAT.adaptive_route 1 else s, if hp : p < 48 then some ⟨p, hp⟩ else none)
    | none => (s, none)

/-- A sluice injects a barge of a sub-transfer, by the exit port looked up with its OPEN; without a route it is discarded (R391,
R393). -/
def State.sendBy (s : State) (n sl d chip : Nat) (ex : Option (Fin 48)) (b : Barge) : State :=
  if ex.isNone ∧ !s.isHere chip then s.logErr { code := 0x5906 }
  else s.injectRaw (.core ⟨n % 256, Nat.mod_lt _ (by decide)⟩) 0 (1 + sl) d { b with exitPort := ex, epochParity := s.bank == 1 }

/-- Send the OPEN of a sub-transfer (R299, R301, R391, R393). -/
def State.openSub (s : State) (n sl berth vmask pset : Nat) (x : SubTx) : State :=
  let (s, ex) := if x.mcast.isSome then (s, none) else s.exitOf x.chip (x.rclass == 2)
  let (s, rex) := s.exitOf x.sChip false
  let x := { x with exit := ex, rexit := rex }
  let t := (s.tx n sl).getD {}
  let s := s.setTx n sl { t with subs := t.subs ++ [x] }
  let h := hdr3 tyOPEN x.chip x.dest berth s.stepParity
  let h := if x.mcast.isSome then hMcast.set h 1 else h
  let units := if berth = 0x3F then 0 else x.rows * ceilDiv x.rowB 64
  let tree := match x.mcast with
    | some id => decide (0x400 ≤ id)
    | none => false
  let b := mkBarge h (openPayload x.dst units x.rowB x.rows x.dstr sl x.idx n s.chipAddr vmask pset tree)
  (s.sendBy n sl 0 x.chip ex b).showTx n sl

/-- The berth a unicast sub-transfer claims: that of the descriptor where it writes another core's basin (R253). -/
def berthFor (n : Nat) (o : SluOp) (x : SubTx) : Nat :=
  let own := x.chip = 0 ∧ x.dst / 0x4000000 = n
  if o.flat ∨ own ∨ memKind x.dst ≠ .basin then 0x3F else o.berth

/-- Ask an agent for `len` bytes of the page map at a global address (R270, R306). -/
def State.readMap (s : State) (n sl a len rclass : Nat) : State :=
  let chip := if s.isHere (gChip a) then 0 else gChip a
  let r : ReadReq := { src := gAddr a, stride := 0, rows := 1, rowB := len, chip := if chip = 0 then 0 else s.chipAddr
                       dest := n, slot := 0x3F, mcast := false, rclass := rclass, parity := s.stepParity, mapTo := 1 + sl
                       sChip := s.chipAddr, sCore := n, sSrc := sl }
  s.inject (.core ⟨n % 256, Nat.mod_lt _ (by decide)⟩) (1 + sl) 0
    (mkBarge (hdr3 tyREAD chip (destOf (chip == 0) r.src) 0 s.stepParity) (readPayload r))

/-- Fields of a page-map header (R270). -/
def mapSlot (hdr : List Byte) : Nat := leNat (hdr.take 4)
def mapPages (hdr : List Byte) : Nat := leNat ((hdr.drop 4).take 2)

/-- The header allows positions at all, for a slice (R270, R272). -/
def mapOk (hdr : List Byte) (slice rowB : Nat) : Bool :=
  let sb := mapSlot hdr
  decide (32 ≤ sb ∧ sb ≤ 65536 ∧ sb % 32 = 0 ∧ slice + rowB ≤ sb ∧ mapPages hdr ≤ 8192)

/-- Global address of a position's slice (R271), or none where the position is invalid (R272). -/
def State.kvAddress (s : State) (t : Tx) (p slice rowB : Nat) : Option Nat :=
  if !mapOk t.hdr slice rowB then none
  else
    let tpp := 65536 / mapSlot t.hdr
    let e := p / tpp
    if mapPages t.hdr ≤ e then none
    else
      let ent := leNat ((t.ents.drop (t.skip + 8 * (e - t.firstE))).take 8)
      let chip := ent / 2 ^ 32 % 2 ^ 16
      if ent / 2 ^ 63 = 0 ∨ !s.chipOk chip then none
      else some (chip * 2 ^ 48 + (ent / 2 ^ 20 % 2 + 1) * 0x1000000000 + ent % 2 ^ 20 * 0x10000 +
        p % tpp * mapSlot t.hdr + slice)

/-- First position and limit of an SKVR or SKVW (R235). -/
def SluOp.first (o : SluOp) : Nat := o.dests / 2 ^ 32 % 2 ^ 32
def SluOp.limit (o : SluOp) : Nat := o.dests % 2 ^ 32

/-- Positions that the map must name: those below the limit for SKVR, all for SKVW (R235, R273). -/
def SluOp.mapped (o : SluOp) : Nat := if o.kind = .kvr then min o.rows (o.limit - o.first) else o.rows

/-- The map header is in: ask for the entries of the positions, or go on where none are needed (R271, R306). -/
def State.headerIn (s : State) (n sl : Nat) (o : SluOp) (t : Tx) : State :=
  if !mapOk t.hdr o.slice o.rowB ∨ o.mapped = 0 then s.setTx n sl { t with stage := 2 }
  else
    let tpp := 65536 / mapSlot t.hdr
    let e0 := o.first / tpp
    let e1 := min ((o.first + o.mapped - 1) / tpp) (mapPages t.hdr - 1)
    if mapPages t.hdr = 0 ∨ e1 < e0 then s.setTx n sl { t with stage := 2 }
    else
      let a := o.src + 64 + 8 * e0
      let lo := a / 32 * 32
      let len := roundLine (o.src + 64 + 8 * (e1 + 1) - lo)
      (s.setTx n sl { t with stage := 1, want := len, skip := a - lo, firstE := e0 }).readMap n sl lo len
        o.rclass

/-- Log 0x3407 once for a macro-op (R272), with its destination (R551, log entry 31). -/
def State.badPosition (s : State) (n sl : Nat) : State :=
  match (s.core n).running (sluUnit sl) with
  | some r =>
    if r.logged.contains 0x3407 then s
    else (s.setRun n (sluUnit sl) (some { r with logged := 0x3407 :: r.logged })).logCore n 0x3407 0 (s.headInfo n r.desc) (some (dTag r.desc))
  | none => s

/-- Open the next rows of an SKVR or SKVW while fewer than 16 sub-transfers are open (R235, R272, R306). -/
def State.openRows (s : State) (n sl : Nat) (o : SluOp) : Nat → State
  | 0 => s
  | fuel + 1 =>
    match s.tx n sl with
    | none => s
    | some t =>
      if t.stage ≠ 2 ∨ o.rows ≤ t.nextRow ∨ 16 ≤ t.subs.length then s
      else
        let i := t.nextRow
        let p := o.first + i
        let idx := ((List.range 16).find? fun j => !(t.subs.any fun x => x.idx == j)).getD 0
        let s := s.setTx n sl { t with nextRow := i + 1 }
        let loc := coreBase n + o.dst + o.dstr * i
        let s :=
          if o.kind = .kvr then
            let past := decide (o.limit ≤ p)
            let a := if past then none else s.kvAddress t p o.slice o.rowB
            let s := if a.isNone && !past then s.badPosition n sl else s
            s.openSub n sl 0x3F 0 0 (s.mkSub n idx true a loc 1 o.rowB 0 0 o.rclass)
          else match s.kvAddress t p o.slice o.rowB with
            | some a => s.openSub n sl 0x3F 0 0 (s.mkSub n idx true (some loc) a 1 o.rowB 0 0 o.rclass)
            | none => s.badPosition n sl
        s.openRows n sl o fuel

/-- A transfer all of whose rows are opened and acknowledged is complete (R305). -/
def State.settle (s : State) (n sl : Nat) (o : SluOp) : State :=
  match s.tx n sl with
  | none => s
  | some t =>
    let rows := match o.kind with
      | .kvr => o.rows
      | .kvw => o.rows
      | _ => 1
    if t.subs.isEmpty ∧ t.stage = 2 ∧ rows ≤ t.nextRow then (s.setTx n sl { t with complete := true }).showTx n sl else s

/-- Beat 0 of a transfer: its first OPEN, or the READ of its page map (R301, R306). -/
def State.sluStart (s : State) (n : Nat) (d : List Word) (k : OpKind) : State :=
  match sluKind k, k.unit with
  | some kind, .sluice sl =>
    let o := sluOf n kind d
    let s := s.addTo (Reg.SLUICE_STAT n sl) Fld.SLUICE_STAT.started 1
    let s := s.put (Reg.SLUICE_STAT n sl) Fld.SLUICE_STAT.barges 0
    let dev := gAddr o.dst
    let paddr := if o.kind ≠ .copy ∨ dev < 0x400000000 then dev % 0x4000000 else dev % 2 ^ 32
    let s := s.modRun n (.sluice sl) fun r => { r with
      push := { addr := paddr, len := o.rows * o.rowB, stride := o.dstr / 32, fmt := o.fmt } }
    match o.kind with
    | .copy =>
      let x := s.mkSub n 0 o.flat (some o.src) o.dst o.rows o.rowB o.sstr o.dstr o.rclass
      (s.setTx n sl { nextRow := 1 }).openSub n sl (berthFor n o x) 0 0 x
    | .cast =>
      let tree := o.dests.testBit 63
      let id := if tree then 0x400 + o.dests / 2 ^ 48 % 1024 else 4 * n + sl
      let vmask := o.dests % 2 ^ 32
      let local_ := !tree || treeLocal.get (s.treeWord s.bank (id - 0x400) 0) == 1
      let pset := if local_ then s.expand vmask else 0
      let x := s.mkSub n 0 false (some o.src) (coreBase n + o.dst) o.rows o.rowB o.sstr o.dstr o.rclass
      let x := { x with mcast := some id, dest := id, dst := o.dst, chip := 0 }
      let berth := if windowKind o.dst = .basin then o.berth else 0x3F
      (s.setTx n sl { nextRow := 1 }).openSub n sl berth (if tree then vmask else 0) pset x
    | _ => (s.setTx n sl { stage := 0, want := 64 }).readMap n sl o.src 64 o.rclass
  | _, _ => s

/-- A sub-transfer reads the weight store, and has bytes of it still to read. -/
def SubTx.wantsBlock (x : SubTx) : Bool :=
  x.here && x.granted.isSome && decide (x.readB < x.rows * x.rowB) &&
  (match x.src with
   | some a => memKind a == .wstore
   | none => false)

/-- The lowest-numbered sluice with a weight-store read outstanding, granted before the beat in progress (R260, R301). -/
def State.wsTurn (s : State) (n : Nat) : Option Nat :=
  (List.range 4).find? fun sl => match s.tx n sl with
    | some t => t.subs.any fun x => x.wantsBlock && decide (x.grantAt < s.beatOf n)
    | none => false

/-- Replace a sub-transfer. -/
def Tx.setSub (t : Tx) (x : SubTx) : Tx := { t with subs := t.subs.map fun y => if y.idx = x.idx then x else y }

/-- Source address and bytes of barge `k` of a sub-transfer (R303). -/
def SubTx.place (x : SubTx) (k : Nat) : Option Nat × Nat :=
  let per := ceilDiv x.rowB 64
  (x.src.map fun a => a + x.sstr * (k / per) + 64 * (k % per), min 64 (x.rowB - 64 * (k % per)))

/-- The bytes of a sub-transfer that one block of the weight store holds are read, row by row (R260). -/
def State.readBlock (s : State) (n sl : Nat) (x : SubTx) (blk : Option Nat) : Nat → State × SubTx
  | 0 => (s, x)
  | fuel + 1 =>
    match x.src with
    | none => (s, x)
    | some a =>
      let p := a + x.sstr * (x.readB / x.rowB) + x.readB % x.rowB
      if x.rows * x.rowB ≤ x.readB ∨ (blk.isSome ∧ blk ≠ some (p / 1024)) then (s, x)
      else
        let len := min (x.rowB - x.readB % x.rowB) (1024 - p % 1024)
        let (s, ue) := s.readLines n (sluUnit sl) p len
        let s := if ue then s.modRun n (sluUnit sl) fun r => { r with poison := true } else s
        let bads := s.lineBads p len
        let ls := (List.range (ceilDiv len 32)).map fun i => (s.bytes (p + 32 * i) 32, bads.getD i false)
        s.readBlock n sl { x with readB := x.readB + len, lines := x.lines ++ ls } (some (p / 1024)) fuel

/-- In a beat that the shadow fill leaves free, the read port of the weight store serves one block, to the lowest-numbered sluice that
waits (R122, R260). -/
def State.wsServe (s : State) (n : Nat) : State :=
  if s.held ∨ s.fillsNow n then s
  else match s.wsTurn n with
    | none => s
    | some sl =>
      match s.tx n sl with
      | none => s
      | some t =>
        match t.subs.find? fun x => x.wantsBlock && decide (x.grantAt < s.beatOf n) with
        | none => s
        | some x =>
          let (s, y) := s.readBlock n sl x none 33
          s.setTx n sl (t.setSub y)

/-- Pieces of the next barge whose banks are free are read (R248, R250). -/
def State.readSub (s : State) (n sl : Nat) (ps : List (Nat × Nat)) (m : Parts) : State × Parts :=
  let (s, served, _) := s.giveBanks (Parts.missing m ps)
  let s := served.foldl (fun (t : State) p =>
    let (t, ue) := t.readLines n (sluUnit sl) p.1 p.2
    t.taint n (sluUnit sl) ue) s
  (s, s.readParts served m)

/-- Bytes and poison of the next barge of a sub-transfer where all of them are at hand, and what is left of the blocks and parts read.
Bytes of the basin and the operand cache are read as they are sent (log entry 7). -/
def State.subData (s : State) (n sl : Nat) (x : SubTx) : State × SubTx × Option (List Byte × List Bool) :=
  let (a, len) := x.place x.sent
  let k := ceilDiv len 32
  match a with
  | none => (s, x, some (List.replicate len 0, []))
  | some p =>
    if memKind p = .wstore then
      if x.lines.length < k then (s, x, none)
      else (s, { x with lines := x.lines.drop k }, some ((x.lines.take k).flatMap Prod.fst, (x.lines.take k).map Prod.snd))
    else
      let ps := piecesOf p len
      let (s, m) := s.readSub n sl ps x.part
      if (Parts.missing m ps).isEmpty then (s, { x with part := [] }, some (Parts.join m ps))
      else (s, { x with part := m }, none)

/-- A sluice sends the next DATA barges of its granted sub-transfers in row order while banks, ports, the blocks read and room last
(R248, R260, R285, R301, R303). -/
def State.sendData (s : State) (n sl : Nat) : Nat → State
  | 0 => s
  | fuel + 1 =>
    match s.tx n sl with
    | none => s
    | some t =>
      let b := s.beatOf n
      match t.subs.find? fun x => x.here && x.granted.isSome && (decide (x.grantAt < b) || s.held) &&
          decide (x.sent < x.rows * ceilDiv x.rowB 64) with
      | none => s
      | some x =>
        if !s.mayInject n x.rclass then s
        else
          let (s, y, data) := s.subData n sl x
          match data with
          | none => s.setTx n sl (t.setSub y)
          | some (bs, bad) =>
            let d := dataBarge x.chip x.dest x.rclass x.mcast.isSome x.sent
              (if x.mcast.isSome then 0x3F else x.granted.getD 0) s.stepParity 0 bs bad
            let s := s.sendBy n sl 0 x.chip x.exit d
            let s := s.setTx n sl (t.setSub { y with sent := x.sent + 1 })
            let s := s.addTo (Reg.SLUICE_STAT n sl) Fld.SLUICE_STAT.barges 1
            s.sendData n sl fuel

/-- One beat of a sluice's transfer. -/
def State.sluBeat (s : State) (n sl : Nat) : State :=
  match s.sluRunning n sl, s.tx n sl with
  | some o, some t =>
    if t.complete then s
    else
      let s := if t.stage = 0 ∧ t.want = 0 then s.headerIn n sl o t
        else if t.stage = 1 ∧ t.want = 0 then s.setTx n sl { t with stage := 2 } else s
      let s := match o.kind with
        | .kvr => s.openRows n sl o 16
        | .kvw => s.openRows n sl o 16
        | _ => s
      ((s.sendData n sl 16).showTx n sl).settle n sl o
  | _, _ => s

/-- The sub-transfer of a sluice that a reply names (R297, R307; log entry 13). -/
def Tx.replied (t : Tx) (b : Barge) : Option SubTx :=
  if bMulti b then t.subs.find? fun x => x.mcast == some (hDest.get b.header)
  else t.subs.find? fun x => x.mcast.isNone && x.idx == hBerth.get b.header / 4

/-- A reply in the inbox of core `n` is for sluice `sl`. -/
def State.forSluice (s : State) (n sl ty : Nat) (b : Barge) : Bool :=
  bType b == ty &&
  (if bMulti b then (match s.tx n sl with
    | some t => t.subs.any fun x => x.mcast == some (hDest.get b.header)
    | none => false)
   else hBerth.get b.header % 4 == sl)

/-- GRANT (R301): the sluice may send DATA from the next beat, or sends the READ to the source agent. -/
def execGrant (core : Fin 256) (sl : Fin 4) (s : State) : Out :=
  match s.takeArrival (.core core) (s.forSluice core sl tyGRANT) with
  | none => .next s
  | some (x, s) =>
    match s.tx core sl with
    | none => .next s
    | some t =>
      match t.replied x.barge with
      | none => .next s
      | some y =>
        let y := { y with granted := some (payNat x.barge 0 8), grantAt := s.beatOf core }
        let s := s.setTx core sl (t.setSub y)
        match y.here, y.src with
        | false, some a =>
          let r : ReadReq := { src := a, stride := y.sstr, rows := y.rows, rowB := y.rowB
                               chip := if y.chip = 0 then (if y.sChip = 0 then 0 else s.chipAddr) else y.chip
                               dest := y.dest, slot := y.granted.getD 0 % 64, mcast := false, rclass := y.rclass
                               parity := s.stepParity, mapTo := 0, sChip := s.chipAddr, sCore := core
                               sSrc := sl.val + y.idx * 8 }
          .next ((s.sendBy core sl 1 y.sChip y.rexit
            (mkBarge (hdr3 tyREAD y.sChip (destOf (y.sChip == 0) a) 0 s.stepParity) (readPayload r))).showTx core sl)
        | _, _ => .next (s.showTx core sl)

/-- REFUSE (R256, R309): the code is logged with the tag and the destination (R551, log entry 31), a multicast's granted branches are aborted, and the core enters FAULT. -/
def execRefuse (core : Fin 256) (sl : Fin 4) (s : State) : Out :=
  match s.takeArrival (.core core) (s.forSluice core sl tyREFUSE) with
  | none => .next s
  | some (x, s) =>
    match s.tx core sl, (s.core core).running (sluUnit sl) with
    | some t, some r =>
      let code := payNat x.barge 0 2
      let aux := if code = 0x3401 ∨ code = 0x3405 then (s.sluRunning core sl).elim 0 SluOp.berth else 0
      let s := if bMulti x.barge then
          s.inject (.core core) (1 + sl) 1 (mkBarge (hMcast.set (hdr3 tyABORT 0 (hDest.get x.barge.header) 0 s.stepParity) 1) 0)
        else s
      let s := s.setTx core sl { t with subs := [], nextRow := 2 ^ 16, stage := 2, complete := true }
      let s := s.setRun core (sluUnit sl) (some { r with dead := true, logged := code :: r.logged })
      let s := if r.logged.contains code then s else s.logCore core code aux (s.headInfo core r.desc) (some (dTag r.desc))
      .next ((s.faultCore core code).showTx core sl)
    | _, _ => .next s

/-- ACK_BARGE (R305). -/
def execAckBarge (core : Fin 256) (sl : Fin 4) (s : State) : Out :=
  match s.takeArrival (.core core) (s.forSluice core sl tyACK) with
  | none => .next s
  | some (x, s) =>
    match s.tx core sl, s.sluRunning core sl with
    | some t, some o =>
      match t.replied x.barge with
      | none => .next s
      | some y =>
        let s := s.setTx core sl { t with subs := t.subs.filter fun z => z.idx != y.idx }
        let s := if payNat x.barge 0 1 % 2 = 1 then s.modRun core (sluUnit sl) fun r => { r with poison := true } else s
        .next ((s.showTx core sl).settle core sl o)
    | _, _ => .next s

/-- The slot that an ABORT frees: that of its multicast, or of the sub-transfer that its bytes [27:24] name as its OPEN did (R309, R546;
log entry 13). -/
def State.abortSlot (s : State) (a : Agent) (b : Barge) : Option Nat :=
  if bMulti b then (s.dataSlot a b).map (·.1)
  else ((List.range 64).map (slotKey a)).find? fun k => match s.liveLand k with
    | some l => l.mcast.isNone && l.srcChip == payNat b 26 2 && l.srcCore == payNat b 25 1 && l.src == payNat b 24 1
    | none => false

/-- ABORT (R309): the slots of a granted branch are freed; credit is kept. -/
def execAbortBarge (a : Agent) (s : State) : Out :=
  match s.takeArrival a fun b => bType b == tyABORT with
  | none => .next s
  | some (x, t) =>
    match t.abortSlot a x.barge with
    | some k => .next (t.freeLand k)
    | none => .next t

end Sys2Proof.Machine
end

