-- ==== Sys2Proof/Machine/Holds.lean ====
section
/-! DEFINITION. The holds' controllers (R262 to R269, R279, R280): requests, refresh, scrubbing and the rewriting of corrected
lines. -/

namespace Sys2Proof.Machine

/-- A stack accepts requests: trained, and not in self-refresh (R266, R269). -/
def State.holdOk (s : State) (h : Nat) : Bool :=
  s.get (Reg.HOLD_CTRL h) Fld.HOLD_CTRL.trained == 1 && s.get (Reg.HOLD_CTRL h) Fld.HOLD_CTRL.rmode != 2

/-- A pseudo-channel of a stack may start an operation. -/
def State.pcFree (s : State) (h k : Nat) : Bool := s.holdOk h && decide ((s.pc k).busyTill ≤ s.now)

/-- Corrected lines of a read join the pseudo-channel's list of lines to rewrite (R279). -/
def State.noteRewrite (s : State) (k a len : Nat) : State :=
  let ls := ((s.badLines a len).filter fun x => !x.2).map (·.1)
  let x := s.pc k
  s.setPc k { x with rewrite := x.rewrite ++ ls.filter fun l => !x.rewrite.contains l }

/-- Read lines of a hold: errors counted and logged, corrected lines to be rewritten (R279, R280). -/
def State.holdRead (s : State) (k a len : Nat) (logged : List Nat) : State × List Nat :=
  (s.noteRewrite k a len).noteLines (s.badLines a len) none none logged

/-- Split bytes at 256-byte blocks. -/
def blocksOf (a : Nat) (bs : List Byte) : List (Nat × List Byte) :=
  if bs.isEmpty then []
  else (List.range ((a + bs.length - 1) / 256 - a / 256 + 1)).map fun i =>
    let lo := max a ((a / 256 + i) * 256)
    (lo, (bs.drop (lo - a)).take ((a / 256 + i + 1) * 256 - lo))

/-- Read bytes of the holds: lines in error are counted, logged, each code once with those logged before, and, where corrected, rewritten
later, each by its own pseudo-channel (R279, R280). -/
def State.readHold (s : State) (a len : Nat) (logged : List Nat) : State × List Nat :=
  let ls := s.badLines a len
  (ls.foldl (fun (t : State) l => t.noteRewrite (pcKey l.1) l.1 32) s).noteLines ls none none logged

/-- Write lines with poison by line (R278). -/
def State.writeLines (s : State) (a : Nat) (bs : List Byte) (bad : List Bool) : State :=
  (List.range (ceilDiv bs.length 32)).foldl (fun (t : State) i =>
    t.writeMem (a + 32 * i) ((bs.drop (32 * i)).take 32) (bad.getD i false)) s

/-- The data of a READ's request come back to the agent's buffer (R302). -/
def State.readBack (s : State) (id j : Nat) (a len : Nat) (k : Nat) : State :=
  ([.hold 0, .hold 1] : List Agent).foldl (fun (s : State) ag =>
    let q := s.readQ ag
    match q.find? fun r => r.id == id with
    | none => s
    | some r =>
      let (s, logged) := s.holdRead k a len (s.opLogged r.sChip r.sCore r.sSrc r.logged)
      let s := s.noteLogged r.sChip r.sCore r.sSrc logged
      let r' := { r with got := smPut r.got j (s.bytes a len, s.lineBads a len), logged := logged }
      s.setReadQ ag (q.map fun x => if x.id = id then r' else x)) s

/-- A slot's hold write is complete; with the last of them the slot is done (R301). -/
def State.writeBack (s : State) (key : Nat) : State :=
  match s.land key with
  | none => s
  | some l =>
    let l := { l with inFlight := l.inFlight - 1 }
    if l.next = l.total ∧ l.gather.isEmpty ∧ l.inFlight = 0 then
      s.slotDone (.hold (if key / 64 = 256 then 0 else 1)) key l
    else s.setLand key l

/-- The bytes that a request writes: whole lines, or parts of lines read first (R278, R279). -/
def State.writePieces (s : State) (ps : List (Nat × List Byte × List Bool)) : State :=
  ps.foldl (fun (t : State) p =>
    if p.1 % 32 = 0 ∧ p.2.1.length % 32 = 0 then t.writeLines p.1 p.2.1 p.2.2
    else
      let ends := [lineOf p.1, lineOf (p.1 + p.2.1.length - 1)].eraseDups.filter fun la =>
        decide (la < p.1 ∨ p.1 + p.2.1.length < la + 32)
      (t.noteLines (ends.flatMap fun la => t.badLines la 32) none none []).1.writeAny p.1 p.2.1) s

/-- Refresh interval of a stack in ps. -/
def State.trefi (s : State) (h : Nat) : Nat := 1000 * s.get (Reg.HOLD_REFRESH h) Fld.HOLD_REFRESH.trefi_ns

/-- A refresh occupies its pseudo-channel (R266, R267). -/
def State.refreshNow (s : State) (h k : Nat) : State :=
  let s := s.addTo (Reg.HOLD_REFRESH h) Fld.HOLD_REFRESH.refreshes 1
  s.setPc k { s.pc k with busyTill := s.now + 1000 * s.get (Reg.HOLD_REFRESH h) Fld.HOLD_REFRESH.trfc_ns }

/-- The next scheduled refresh of pseudo-channel `pc`: pc × interval / 64 after an interval boundary, a multiple of the interval in the
timebase (R267). -/
def State.refreshDue (s : State) (h pc : Nat) : Nat :=
  match (s.pc (h * 64 + pc)).nextRef with
  | some t => t
  | none =>
    let i := max 1 (s.trefi h)
    let t := s.now / i * i + pc * i / 64
    if t < s.now then t + i else t

/-- HOLD_REFRESH (R267): at its due time, or postponed while requests wait, up to 8 (log entry 17). -/
def execHoldRefresh (h : Fin 2) (pc : Fin 64) (s : State) : Out :=
  let k := h.val * 64 + pc.val
  if !s.holdOk h then .next s
  else
    let due := s.refreshDue h pc
    let s := s.advanceTo due
    let x := s.pc k
    let s := s.setPc k { x with nextRef := some (due + s.trefi h) }
    if !x.queue.isEmpty ∧ x.postponed < 8 then
      let a := Reg.HOLD_REFRESH h
      let s := s.setPc k { s.pc k with postponed := x.postponed + 1, postAt := due }
      .next (s.put a Fld.HOLD_REFRESH.postponed_max (max (s.get a Fld.HOLD_REFRESH.postponed_max) (x.postponed + 1)))
    else .next (s.refreshNow h k)

/-- A refresh that makes one up runs in a stack. -/
def State.makingUp (s : State) (h : Nat) : Bool :=
  s.holds.any fun e => e.1 / 64 == h && decide (s.now < e.2.makeup)

/-- REFRESH_MAKEUP (R267): in a later interval, with no request waiting, and no other of the stack made up at once. -/
def execRefreshMakeup (h : Fin 2) (pc : Fin 64) (s : State) : Out :=
  let k := h.val * 64 + pc.val
  let x := s.pc k
  if x.postponed = 0 ∨ !x.queue.isEmpty ∨ !s.pcFree h k ∨ s.now < x.postAt + s.trefi h ∨ s.makingUp h then .next s
  else
    let s := (s.setPc k { x with postponed := x.postponed - 1 }).refreshNow h k
    .next (s.setPc k { s.pc k with makeup := (s.pc k).busyTill })

/-- Device address of line `i` of pseudo-channel `pc` (R263). -/
def pcLine (h pc i : Nat) : Nat :=
  let hi := i / 8
  (h + 1) * 0x1000000000 + hi * 2 ^ 14 + (pc ^^^ (hi / 4 % 64)) * 256 + 32 * (i % 8)

/-- HOLD_SCRUB_READ (R268). -/
def execHoldScrubRead (h : Fin 2) (pc : Fin 64) (s : State) : Out :=
  let k := h.val * 64 + pc.val
  let x := s.pc k
  if s.get (Reg.HOLD_CTRL h) Fld.HOLD_CTRL.scrub_en = 0 ∨ !x.queue.isEmpty ∨ !s.pcFree h k then .next s
  else
    let a := pcLine h pc x.scrubAt
    let s := s.setPc k { x with scrubAt := (x.scrubAt + 1) % 2 ^ 25 }
    .next (s.holdRead k a 32 []).1

/-- CORRECTED_LINE_REWRITE (R279). -/
def execCorrectedLineRewrite (h : Fin 2) (pc : Fin 64) (s : State) : Out :=
  let k := h.val * 64 + pc.val
  let x := s.pc k
  match x.rewrite with
  | [] => .next s
  | a :: t =>
    if !x.queue.isEmpty ∨ !s.pcFree h k then .next s
    else
      let s := s.setPc k { x with rewrite := t }
      .next (if lineStat (s.eccOf a) = .corrected then s.writeMem a (s.bytes a 32) false else s)

/-- The refreshes of a stack are scheduled anew from the next interval boundary on (R267). -/
def State.reschedule (s : State) (h : Nat) : State :=
  { s with holds := s.holds.map fun e => if e.1 / 64 = h then (e.1, { e.2 with nextRef := none }) else e }

/-- The refresh mode that a stack's temperature selects; in self-refresh the mode stays (R266, R269). With another interval the refreshes
are scheduled anew (R267). -/
def State.chooseMode (s : State) (h : Nat) : State :=
  let a := Reg.HOLD_CTRL h
  let on := s.get a Fld.HOLD_CTRL.ext_on_c
  let t := s.get a Fld.HOLD_CTRL.temp_c
  let m := s.get a Fld.HOLD_CTRL.rmode
  let m' := if m = 2 then 2 else if on ≤ t then 1 else if t + 5 ≤ on then 0 else m
  if m' = m then s
  else
    ((s.put a Fld.HOLD_CTRL.rmode m').put (Reg.HOLD_REFRESH h) Fld.HOLD_REFRESH.trefi_ns (if m' = 1 then 1950 else 3900)).reschedule h

/-- Store a stack's temperature and choose its refresh mode (R266). -/
def State.holdTemp (s : State) (h t : Nat) : State := (s.put (Reg.HOLD_CTRL h) Fld.HOLD_CTRL.temp_c t).chooseMode h

/-- A write of HOLD_CTRL_h: ext_on_c is stored as at most 0x55, and the mode follows it (R266, R269). -/
def State.writeHoldCtrl (s : State) (h : Nat) (v : Word) : State :=
  let e := min (Fld.HOLD_CTRL.ext_on_c.get v) 0x55
  (s.plainWrite (Reg.HOLD_CTRL h) (Fld.HOLD_CTRL.ext_on_c.set v e)).chooseMode h

end Sys2Proof.Machine
end

