-- ==== Sys2Proof/Machine/Fill.lean ====
section
/-! DEFINITION. Fills of the weight stores (R486, R488, R489, R493, R500): the hold front ends read the slices of the staging area block
by block and send them on the mesh as class-2 DATA barges, which the stores' write ports take (R260). -/

namespace Sys2Proof.Machine

/-- The mapped cores in ascending physical order. -/
def State.mappedCores (s : State) : List Nat := (List.range 256).filter fun n => s.enabled n && (s.vcoreOf n).isSome

/-- Bytes of a slice. -/
def State.sliceLen (s : State) : Nat := 1024 * s.get Reg.WSWP_MODE Fld.WSWP_MODE.slice_kib

/-- Device address of the slice of physical core `n`. -/
def State.sliceAt (s : State) (n : Nat) : Nat :=
  let b := fun (h : Nat) => 65536 * s.get (Reg.WSWP_STAGE h) Fld.WSWP_STAGE.base
  if n < 128 then b 0 + n * s.sliceLen else b 1 + (n - 128) * s.sliceLen

/-- Front end that sends the slice of core `n`: that of the hold in which its half of the staging area lies (R486). -/
def fillAgent (n : Nat) : Agent := .hold (if n < 128 then 0 else 1)

/-- Edge router by which the slice of core `n` is read: that of its hold in its column (R264, R289). -/
def fillNode (n : Nat) : Nat := if n < 128 then colOf n else 240 + colOf n

/-- The place that the slice of core `n` takes in copy `c` of its store (R486). -/
def fillPlace (c n len : Nat) : Landing :=
  { srcChip := 0, srcCore := 0, src := 255, mcast := none, dst := coreBase n + 0x1000000 + c * 0x1000000, stride := 0, rows := 1
    rowB := len, berth := none, fill := true }

/-- A fill of copy `c` of every mapped core begins (R488, R489, R493). -/
def State.startFill (s : State) (c : Nat) : State :=
  let cores := if s.sliceLen = 0 then [] else s.mappedCores
  let s := { s with weights := { s.weights with
    fills := cores.map fun n => { core := n }, fillSent := 0, fillAt := s.now, fillLogged := [] } }
  cores.foldl (fun t n => t.setLand (fillKey n) (fillPlace c n t.sliceLen)) s

/-- Every line of the fill has been written. -/
def State.fillDone (s : State) : Bool := s.weights.fills.isEmpty && s.mesh.landing.all fun e => !e.2.fill

/-- Replace the run of a core. -/
def State.setFill (s : State) (f : FillRun) : State :=
  { s with weights := { s.weights with fills := s.weights.fills.map fun g => if g.core = f.core then f else g } }

/-- A run asks its hold for the blocks of the next KiB (R264); how far it asks ahead is log entry 23. -/
def State.fillAsk (s : State) (f : FillRun) : State × FillRun :=
  (List.range 4).foldl (fun (x : State × FillRun) j =>
    let o := f.sent / 256 * 256 + 256 * j
    if x.2.asked ≤ o ∧ o < s.sliceLen then
      (x.1.holdRequest (fillNode f.core) (s.sliceAt f.core + o) 256 none (.fill f.core (o / 256)), { x.2 with asked := o + 256 })
    else x) (s, f)

/-- The rate cap lets a prime send another barge: what it has sent averages at most `prime_rate` GB/s (R489). -/
def State.fillPaced (s : State) : Bool :=
  let r := s.get Reg.WSWP_CTRL Fld.WSWP_CTRL.prime_rate
  s.get Reg.WSWP_STAT Fld.WSWP_STAT.state != 2 || r == 0 || decide ((s.weights.fillSent + 64) * 1000 ≤ r * (s.now - s.weights.fillAt))

/-- A run sends the next barges of its slice, in order, while its blocks have come back and the station has width and room (R285, R293,
R489). -/
def State.fillSend (s : State) (f : FillRun) : Nat → State × FillRun
  | 0 => (s, f)
  | fuel + 1 =>
    match smFind f.got (f.sent / 256) with
    | none => (s, f)
    | some (bs, bad) =>
      let o := f.sent % 256
      let b := dataBarge 0 f.core 2 false (f.sent / 64) 0x3F s.stepParity fillMark ((bs.drop o).take 64) ((bad.drop (o / 32)).take 2)
      let (node, port) := s.injectAt (fillAgent f.core) b
      if s.sliceLen ≤ f.sent ∨ !s.injFree node port ∨ !s.inputRoom node port 2 (s.nodeBeat node) ∨ !s.fillPaced then (s, f)
      else
        let s := s.injectRaw (fillAgent f.core) 0 0 0 b
        let s := { s with weights := { s.weights with fillSent := s.weights.fillSent + 64 } }
        let got := if o = 192 then smDel f.got (f.sent / 256) else f.got
        s.fillSend { f with sent := f.sent + 64, got := got } fuel

/-- The front ends do what they can for the fill in progress, core by core, where the mesh moves (R489). -/
def State.fillWork (s : State) : State :=
  let s := s.weights.fills.foldl (fun (t : State) f =>
    if t.meshRuns (fillNode f.core) then
      let (t, g) := t.fillAsk f
      let (t, g) := t.fillSend g 6
      t.setFill g
    else t) s
  { s with weights := { s.weights with fills := s.weights.fills.filter fun f => decide (f.sent < s.sliceLen) } }

/-- A block of a slice comes back: an uncorrectable line is logged once, sets fill_poison and goes on as poison (R280, R500). -/
def State.fillBack (s : State) (k n j a len : Nat) : State :=
  match s.weights.fills.find? fun f => f.core == n with
  | none => s
  | some f =>
    let (s, logged) := s.holdRead k a len s.weights.fillLogged
    let s := { s with weights := { s.weights with fillLogged := logged } }
    let bads := s.lineBads a len
    let s := if bads.any id then s.hwSet Reg.WSWP_STAT Fld.WSWP_STAT.fill_poison 1 else s
    s.setFill { f with got := smPut f.got j (s.bytes a len, bads) }

end Sys2Proof.Machine
end

