-- ==== Sys2Proof/Machine/CoreRegs.lean ====
section
/-! DEFINITION. Writes of the core registers, by whatever path they come (R203 to R209, R252 to R258, R176, R177, R602). Each
answers the state and the code that the register's own rule logs, 0 where none (R598). -/

namespace Sys2Proof.Machine

/-- The keeper stops at an instruction boundary: HALTED (R206, R602). -/
def State.enterHalted (s : State) (n : Nat) : State :=
  let a := Reg.CORE_STAT n
  let s := s.put a Fld.CORE_STAT.state stHalted
  let s := s.put a Fld.CORE_STAT.halted_once 1
  let s := s.put Reg.DTRM_STAT Fld.DTRM_STAT.halted 1
  let s := s.setCore n { s.core n with kwait := .none, kstep := false, haltReq := false }
  (s.holdOff (keeperHold n)).refresh n

/-- A KSTEPW waits in core `n` and its record has not come. -/
def State.lacksRecord (s : State) (n : Nat) : Bool :=
  match (s.core n).kwait with
  | .kstepw _ => (s.core n).nextRec.isNone
  | _ => false

/-- Neither stream holds a descriptor or a running macro-op. -/
def Core.idleStreams (c : Core) : Bool := c.aFifo.isEmpty && c.xFifo.isEmpty && !c.aRuns && !c.xRuns

/-- An instruction that waits for a condition still waits for it: a halt abandons it with no effect (R602). -/
def State.abandons (s : State) (n : Nat) : KWait → Bool
  | .none => false
  | .narrow _ _ => false
  | .qwait q _ _ => (s.poppable n q).isNone
  | .issue st _ => decide (8 ≤ ((s.core n).fifo (st == 1)).length)
  | .lwait i k => decide (s.countFor n i .keeper < k)
  | .kstepw _ => (s.core n).nextRec.isNone || (List.range 256).any s.lacksRecord
  | .kdone _ => !(s.core n).idleStreams

/-- A halt of a RUNNING core: at once at a boundary or where the instruction waits for its condition; otherwise when the
instruction in progress completes (R602). -/
def State.halt (s : State) (n : Nat) : State :=
  let c := s.core n
  if s.coreState n ≠ stRunning then s
  else if s.abandons n c.kwait ∨ (c.kwait = .none ∧ s.beatOf n < c.kAt) then s.enterHalted n
  else s.setCore n { c with haltReq := true }

/-- HALTED to RUNNING (R204); a pending step ends, and its instruction goes on (log entry 31). -/
def State.resume (s : State) (n : Nat) : State :=
  if s.coreState n ≠ stHalted then s
  else
    let c := s.core n
    let s := s.setCore n { c with kstep := false, kAt := max c.kAt (s.beatOf n + 1) }
    (s.put (Reg.CORE_STAT n) Fld.CORE_STAT.state stRunning).refresh n

/-- One keeper instruction in HALTED; a write while a step is pending is discarded (R206). -/
def State.kstepOnce (s : State) (n : Nat) : State :=
  let c := s.core n
  if s.coreState n ≠ stHalted ∨ c.kstep then s
  else (s.setCore n { c with kstep := true, kAt := max c.kAt (s.beatOf n + 1) }).refresh n

/-- STOPPED to LOADED (R204). -/
def State.arm (s : State) (n : Nat) : State :=
  if s.coreState n = stStopped then
    (s.put (Reg.CORE_STAT n) Fld.CORE_STAT.state stLoaded).put (Reg.CORE_CTRL n) Fld.CORE_CTRL.arm 1
  else s

/-- LOADED to STOPPED (R204). -/
def State.unarm (s : State) (n : Nat) : State :=
  if s.coreState n = stLoaded then
    (s.put (Reg.CORE_STAT n) Fld.CORE_STAT.state stStopped).put (Reg.CORE_CTRL n) Fld.CORE_CTRL.arm 0
  else s

/-- Debug is closed: LIMS_DEBUG holds neither open (0) nor restricted (1) (R206). -/
def State.debugClosed (s : State) : Bool := decide (2 ≤ s.get Reg.LIMS_DEBUG Fld.LIMS_DEBUG.state)

/-- A write of CORE_CTRL (R204, R206, R602): every bit is judged on the state before the write. -/
def State.writeCoreCtrl (s : State) (n : Nat) (v : Word) : State × Nat :=
  let f := fun (b : BitField) => b.get v == 1
  let st := s.coreState n
  let dbg := f Fld.CORE_CTRL.halt || f Fld.CORE_CTRL.resume || f Fld.CORE_CTRL.kstep
  let s := if f Fld.CORE_CTRL.arm then (if st = stStopped then s.arm n else s) else s.unarm n
  if dbg && s.debugClosed then (s.logCore n 0x3806, 0x3806)
  else
    let s := if f Fld.CORE_CTRL.halt ∧ st = stRunning then s.halt n else s
    let s := if f Fld.CORE_CTRL.resume ∧ st = stHalted then s.resume n
      else if f Fld.CORE_CTRL.kstep ∧ st = stHalted then s.kstepOnce n
      else s
    (s, 0)

/-- The core is STOPPED or LOADED (R207). -/
def State.atRest (s : State) (n : Nat) : Bool := s.coreState n == stStopped || s.coreState n == stLoaded

/-- A write that R207 refuses. -/
def State.refused3808 (s : State) (n : Nat) : State × Nat := (s.logCore n 0x3808, 0x3808)

/-- A write of MENU_BASE (R208). -/
def State.writeMenuBase (s : State) (n : Nat) (v : Word) : State × Nat :=
  let b := Fld.MENU_BASE.base.get v
  let c := Fld.MENU_BASE.count.get v
  if b % 32 ≠ 0 ∨ 256 < c ∨ 65536 < b + 32 * c then s.refused3808 n
  else (s.plainWrite (Reg.MENU_BASE n) v, 0)

/-- A write of VEC_WIN_v (R177). An instruction that starts in the beat of the write takes the base from before it (R149). -/
def State.writeVecWin (s : State) (n w : Nat) (v : Word) : State × Nat :=
  if 0x3E0 < Fld.VEC_WIN.base.get v then (s.logCore n 0x3704 w, 0x3704)
  else
    let c := s.core n
    let a := Reg.VEC_WIN n w
    let s := if s.inBeat n ∧ (smFind c.oldWin w).isNone then s.setCore n { c with oldWin := smPut c.oldWin w (s.reg a) } else s
    (s.plainWrite a v, 0)

/-- A write of word 0 of BERTH_b (R257). -/
def State.writeBerth0 (s : State) (n b : Nat) (v : Word) : State × Nat :=
  let size := Fld.BERTH_W0.size.get v
  if (Fld.BERTH_W0.enable.get v = 1 ∧ size = 0) ∨ 0x600000 < 64 * (Fld.BERTH_W0.base.get v + size) then
    (s.logCore n 0x3404 b, 0x3404)
  else ((s.plainWrite (Reg.BERTH_W0 n b) v).put (Reg.BERTH_W1 n b) Fld.BERTH_W1.credit 0, 0)

/-- A write of word 1 of BERTH_b: refused clears on 1, grant adds to credit (R255, R257). -/
def State.writeBerth1 (s : State) (n b : Nat) (v : Word) : State × Nat :=
  let a := Reg.BERTH_W1 n b
  let s := if Fld.BERTH_W1.refused.get (v &&& ~~~ (s.mark a).set) = 1 then s.put a Fld.BERTH_W1.refused 0 else s
  let g := Fld.BERTH_W1.grant.get v
  let size := s.get (Reg.BERTH_W0 n b) Fld.BERTH_W0.size
  let credit := s.get a Fld.BERTH_W1.credit + g
  if g = 0 then (s, 0)
  else if s.get (Reg.BERTH_W0 n b) Fld.BERTH_W0.enable = 0 then (s.logCore n 0x3404 b, 0x3404)
  else if size < credit then ((s.put a Fld.BERTH_W1.credit size).logCore n 0x3404 b, 0x3404)
  else (s.put a Fld.BERTH_W1.credit credit, 0)

/-- A whole write of the core register at offset `o` of core `n` (R592). On a fenced core nothing happens (R38). -/
def State.writeCoreReg (s : State) (n o : Nat) (v : Word) : State × Nat :=
  let a := coreRegs n + o
  if !s.enabled n then (s, 0)
  else if a = Reg.CORE_CTRL n then s.writeCoreCtrl n v
  else if a = Reg.KEEP_PC n then
    if s.atRest n || s.coreState n == stHalted then (s.plainWrite a v, 0) else s.refused3808 n
  else if a = Reg.QUEUE_CFG n then
    if s.atRest n then (s.plainWrite a v, 0) else s.refused3808 n
  else if a = Reg.MENU_BASE n then s.writeMenuBase n v
  else if a = Reg.LOCK_XMODE n then
    if s.atRest n then (s.plainWrite a v, 0) else s.refused3808 n
  else if 0x900 ≤ o ∧ o < 0xA00 then s.writeVecWin n ((o - 0x900) / 8) v
  else if 0x200 ≤ o ∧ o < 0x300 then
    let b := (o - 0x200) / 16
    if o % 16 = 0 then s.writeBerth0 n b v else s.writeBerth1 n b v
  else (s.plainWrite a v, 0)

/-- What a core register reads (R38). -/
def State.readCoreReg (s : State) (n o : Nat) : Word := if s.enabled n then s.pathReg (coreRegs n + o) else 0

/-- ARM (R204): CORE_CTRL written with arm = 1. -/
def execArmCore (core : Fin 256) (s : State) : Out := .next (s.writeCoreReg core 0 1).1

/-- DISARM (R204): CORE_CTRL written with arm = 0. -/
def execDisarmCore (core : Fin 256) (s : State) : Out := .next (s.writeCoreReg core 0 0).1

/-- A value of CORE_CTRL with one command bit set and arm as it stands, so that arm keeps its value. -/
def State.ctrlWith (s : State) (n : Nat) (f : BitField) : Word :=
  f.set (Fld.CORE_CTRL.arm.set 0 (s.get (Reg.CORE_CTRL n) Fld.CORE_CTRL.arm)) 1

/-- HALT (R602). -/
def execHaltCore (core : Fin 256) (s : State) : Out :=
  .next (s.writeCoreReg core 0 (s.ctrlWith core Fld.CORE_CTRL.halt)).1

/-- RESUME (R602). -/
def execResumeCore (core : Fin 256) (s : State) : Out :=
  .next (s.writeCoreReg core 0 (s.ctrlWith core Fld.CORE_CTRL.resume)).1

/-- KSTEP (R206). -/
def execKstepCore (core : Fin 256) (s : State) : Out :=
  .next (s.writeCoreReg core 0 (s.ctrlWith core Fld.CORE_CTRL.kstep)).1

/-- VEC_WIN_WRITE (R177). -/
def execVecWinWrite (core : Fin 256) (w : Fin 32) (v : Word) (s : State) : Out :=
  .next (s.writeCoreReg core (0x900 + 8 * w) v).1

end Sys2Proof.Machine
end

