-- ==== Sys2Proof/Machine/KeeperIsa.lean ====
section
/-! DEFINITION. The keeper's instructions: fields, the compressed forms as the 32-bit instructions they stand for, classes and
beats, and the base integer arithmetic (R190 to R197; RV32IMC with Zicsr). -/

namespace Sys2Proof.Machine

/-- A keeper register or address. -/
abbrev W32 := BitVec 32

/-- Bits [lo+n-1:lo] of an instruction. -/
def ibits (i lo n : Nat) : Nat := (i >>> lo) % 2 ^ n

/-- `v` of `n` bits, sign-extended to 32. -/
def sext (n v : Nat) : W32 := BitVec.ofInt 32 (toSigned n v)

def rdOf (i : Nat) : Nat := ibits i 7 5
def rs1Of (i : Nat) : Nat := ibits i 15 5
def rs2Of (i : Nat) : Nat := ibits i 20 5
def f3Of (i : Nat) : Nat := ibits i 12 3
def f7Of (i : Nat) : Nat := ibits i 25 7
def immI (i : Nat) : W32 := sext 12 (ibits i 20 12)
def immS (i : Nat) : W32 := sext 12 (ibits i 25 7 * 32 + ibits i 7 5)
def immB (i : Nat) : W32 :=
  sext 13 (ibits i 31 1 * 4096 + ibits i 7 1 * 2048 + ibits i 25 6 * 32 + ibits i 8 4 * 2)
def immU (i : Nat) : W32 := BitVec.ofNat 32 (ibits i 12 20 * 4096)
def immJ (i : Nat) : W32 :=
  sext 21 (ibits i 31 1 * 1048576 + ibits i 12 8 * 4096 + ibits i 20 1 * 2048 + ibits i 21 10 * 2)

/-! ### Encodings that compressed forms expand to -/

def encR (f7 rs2 rs1 f3 rd op : Nat) : Nat :=
  f7 * 2 ^ 25 + rs2 * 2 ^ 20 + rs1 * 2 ^ 15 + f3 * 2 ^ 12 + rd * 2 ^ 7 + op
def encI (imm rs1 f3 rd op : Nat) : Nat := imm % 4096 * 2 ^ 20 + rs1 * 2 ^ 15 + f3 * 2 ^ 12 + rd * 2 ^ 7 + op
def encS (imm rs2 rs1 f3 op : Nat) : Nat :=
  imm / 32 % 128 * 2 ^ 25 + rs2 * 2 ^ 20 + rs1 * 2 ^ 15 + f3 * 2 ^ 12 + imm % 32 * 2 ^ 7 + op
def encB (imm rs2 rs1 f3 : Nat) : Nat :=
  imm / 4096 % 2 * 2 ^ 31 + imm / 32 % 64 * 2 ^ 25 + rs2 * 2 ^ 20 + rs1 * 2 ^ 15 + f3 * 2 ^ 12 +
  imm / 2 % 16 * 2 ^ 8 + imm / 2048 % 2 * 2 ^ 7 + 0x63
def encJ (imm rd : Nat) : Nat :=
  imm / 1048576 % 2 * 2 ^ 31 + imm / 2 % 1024 * 2 ^ 21 + imm / 2048 % 2 * 2 ^ 20 + imm / 4096 % 256 * 2 ^ 12 +
  rd * 2 ^ 7 + 0x6F

/-- A signed 6-bit immediate in 12 bits. -/
def imm6 (c : Nat) : Nat := (sext 6 (ibits c 12 1 * 32 + ibits c 2 5)).toNat % 4096

/-- Offset of C.J and C.JAL in 21 bits. -/
def immCJ (c : Nat) : Nat :=
  (sext 12 (ibits c 12 1 * 2048 + ibits c 8 1 * 1024 + ibits c 9 2 * 256 + ibits c 6 1 * 128 + ibits c 7 1 * 64 +
    ibits c 2 1 * 32 + ibits c 11 1 * 16 + ibits c 3 3 * 2)).toNat % 2 ^ 21

/-- Offset of C.BEQZ and C.BNEZ in 13 bits. -/
def immCB (c : Nat) : Nat :=
  (sext 9 (ibits c 12 1 * 256 + ibits c 5 2 * 64 + ibits c 2 1 * 32 + ibits c 10 2 * 8 + ibits c 3 2 * 2)).toNat % 2 ^ 13

/-- Quadrant 0 of the compressed forms. -/
def expand0 (c : Nat) : Option Nat :=
  let rd := 8 + ibits c 2 3
  let r1 := 8 + ibits c 7 3
  let off := ibits c 5 1 * 64 + ibits c 10 3 * 8 + ibits c 6 1 * 4
  match ibits c 13 3 with
  | 0 =>
    let imm := ibits c 7 4 * 64 + ibits c 11 2 * 16 + ibits c 5 1 * 8 + ibits c 6 1 * 4
    if imm = 0 then none else some (encI imm 2 0 rd 0x13)
  | 2 => some (encI off r1 2 rd 0x03)
  | 6 => some (encS off rd r1 2 0x23)
  | _ => none

/-- The arithmetic group of quadrant 1. -/
def expandArith (c : Nat) : Option Nat :=
  let r := 8 + ibits c 7 3
  let r2 := 8 + ibits c 2 3
  match ibits c 10 2 with
  | 0 => if ibits c 12 1 = 1 then none else some (encI (ibits c 2 5) r 5 r 0x13)
  | 1 => if ibits c 12 1 = 1 then none else some (encI (0x400 + ibits c 2 5) r 5 r 0x13)
  | 2 => some (encI (imm6 c) r 7 r 0x13)
  | _ =>
    if ibits c 12 1 = 1 then none
    else match ibits c 5 2 with
      | 0 => some (encR 0x20 r2 r 0 r 0x33)
      | 1 => some (encR 0 r2 r 4 r 0x33)
      | 2 => some (encR 0 r2 r 6 r 0x33)
      | _ => some (encR 0 r2 r 7 r 0x33)

/-- Quadrant 1. -/
def expand1 (c : Nat) : Option Nat :=
  let rd := ibits c 7 5
  match ibits c 13 3 with
  | 0 => some (encI (imm6 c) rd 0 rd 0x13)
  | 1 => some (encJ (immCJ c) 1)
  | 2 => some (encI (imm6 c) 0 0 rd 0x13)
  | 3 =>
    if rd = 2 then
      let imm := (sext 10 (ibits c 12 1 * 512 + ibits c 3 2 * 128 + ibits c 5 1 * 64 + ibits c 2 1 * 32 +
        ibits c 6 1 * 16)).toNat % 4096
      if imm = 0 then none else some (encI imm 2 0 2 0x13)
    else
      let imm := ibits c 12 1 * 32 + ibits c 2 5
      if imm = 0 then none else some ((sext 6 imm).toNat % 2 ^ 20 * 2 ^ 12 + rd * 2 ^ 7 + 0x37)
  | 4 => expandArith c
  | 5 => some (encJ (immCJ c) 0)
  | 6 => some (encB (immCB c) 0 (8 + ibits c 7 3) 0)
  | _ => some (encB (immCB c) 0 (8 + ibits c 7 3) 1)

/-- Quadrant 2. -/
def expand2 (c : Nat) : Option Nat :=
  let rd := ibits c 7 5
  let r2 := ibits c 2 5
  match ibits c 13 3 with
  | 0 => if ibits c 12 1 = 1 then none else some (encI r2 rd 1 rd 0x13)
  | 2 =>
    if rd = 0 then none
    else some (encI (ibits c 2 2 * 64 + ibits c 12 1 * 32 + ibits c 4 3 * 4) 2 2 rd 0x03)
  | 4 =>
    if ibits c 12 1 = 0 then
      if r2 = 0 then (if rd = 0 then none else some (encI 0 rd 0 0 0x67)) else some (encR 0 r2 0 0 rd 0x33)
    else if r2 = 0 then (if rd = 0 then some 0x00100073 else some (encI 0 rd 0 1 0x67))
    else some (encR 0 r2 rd 0 rd 0x33)
  | 6 => some (encS (ibits c 7 2 * 64 + ibits c 9 4 * 4) r2 2 2 0x23)
  | _ => none

/-- The 32-bit instruction a compressed form stands for; none where it is illegal, floating point included (R192). -/
def expandC (c : Nat) : Option Nat :=
  match c % 4 with
  | 0 => expand0 c
  | 1 => expand1 c
  | 2 => expand2 c
  | _ => none

/-! ### Classes -/

/-- The custom instructions (R196). -/
inductive Custom where
  | qpush
  | qwait
  | qtake
  | qcount
  | issue
  | ifree
  | lsig
  | lwait
  | ltake
  | lread
  | lbar
  | kstepw
  | ksel
  | kdone
  deriving DecidableEq, Repr

/-- What an instruction is, as the commands divide them. -/
inductive KClass where
  /-- Base integer, branch, jump, multiply, divide, FENCE, FENCE.I, ECALL and every illegal encoding. -/
  | base
  | load
  | store
  | csr
  | ebreak
  | custom (c : Custom)
  deriving DecidableEq, Repr

/-- The custom instruction of an encoding (R196). -/
def customOf (i : Nat) : Option Custom :=
  if i % 128 = 0x0B then
    match f3Of i with
    | 0 => some .qpush
    | 1 => some .qwait
    | 2 => some .qtake
    | 3 => some .qcount
    | 4 => some .issue
    | 5 => some .ifree
    | _ => none
  else if i % 128 = 0x2B then
    match f3Of i with
    | 0 => some .lsig
    | 1 => some .lwait
    | 2 => some .ltake
    | 3 => some .lread
    | 4 => some .lbar
    | 5 => some .kstepw
    | 6 => some .ksel
    | _ => some .kdone
  else none

/-- Class of a 32-bit instruction. -/
def classOf (i : Nat) : KClass :=
  match customOf i with
  | some c => .custom c
  | none =>
    if i % 128 = 0x03 ∧ f3Of i ∈ [0, 1, 2, 4, 5] then .load
    else if i % 128 = 0x23 ∧ f3Of i ∈ [0, 1, 2] then .store
    else if i = 0x00100073 then .ebreak
    else if i % 128 = 0x73 ∧ f3Of i ∉ [0, 4] then .csr
    else .base

/-- Fields that a custom instruction requires to be 0 are 0 (R196). -/
def customOk (c : Custom) (i : Nat) : Bool :=
  let z1 := rs1Of i == 0
  let z2 := rs2Of i == 0
  let zd := rdOf i == 0
  let q7 := f7Of i < 8
  let s7 := f7Of i < 2
  let l7 := f7Of i < 32
  let z7 := f7Of i == 0
  match c with
  | .qpush => q7 && z2 && zd
  | .qwait => q7 && z2
  | .qtake => q7 && z2
  | .qcount => q7 && z2 && z1
  | .issue => s7 && z2 && zd
  | .ifree => s7 && z2 && z1
  | .lsig => f7Of i < 64 && zd && (f7Of i ≥ 32 || z2)
  | .lwait => l7 && z2 && zd
  | .ltake => l7 && z2 && zd
  | .lread => l7 && z2 && z1
  | .lbar => z7 && z2 && zd
  | .kstepw => z7 && z2 && z1
  | .ksel => z7 && z2 && z1
  | .kdone => z7 && z2 && z1 && zd

/-! ### Base arithmetic -/

/-- An ALU operation of OP and OP-IMM by funct3; `alt` for SUB and SRA. -/
def alu (f3 : Nat) (alt : Bool) (a b : W32) : W32 :=
  match f3 with
  | 0 => if alt then a - b else a + b
  | 1 => a <<< (b.toNat % 32)
  | 2 => if a.toInt < b.toInt then 1 else 0
  | 3 => if a.toNat < b.toNat then 1 else 0
  | 4 => a ^^^ b
  | 5 => if alt then a.sshiftRight (b.toNat % 32) else a >>> (b.toNat % 32)
  | 6 => a ||| b
  | _ => a &&& b

/-- Multiply and divide (RV32M). -/
def muldiv (f3 : Nat) (a b : W32) : W32 :=
  let hi := fun (p : Int) => BitVec.ofInt 32 (p / 4294967296)
  match f3 with
  | 0 => a * b
  | 1 => hi (a.toInt * b.toInt)
  | 2 => hi (a.toInt * b.toNat)
  | 3 => hi ((a.toNat : Int) * b.toNat)
  | 4 => if b = 0 then BitVec.allOnes 32 else BitVec.ofInt 32 (a.toInt.tdiv b.toInt)
  | 5 => if b = 0 then BitVec.allOnes 32 else BitVec.ofNat 32 (a.toNat / b.toNat)
  | 6 => if b = 0 then a else BitVec.ofInt 32 (a.toInt.tmod b.toInt)
  | _ => if b = 0 then a else BitVec.ofNat 32 (a.toNat % b.toNat)

/-- The condition of a branch. -/
def branchTaken (f3 : Nat) (a b : W32) : Bool :=
  match f3 with
  | 0 => a == b
  | 1 => a != b
  | 4 => decide (a.toInt < b.toInt)
  | 5 => decide (b.toInt ≤ a.toInt)
  | 6 => decide (a.toNat < b.toNat)
  | _ => decide (b.toNat ≤ a.toNat)

/-- What a base instruction does: the value for rd, the next pc, and its beats; none where the encoding is illegal.
`len` is the instruction's own length, `lat` the latencies in force. -/
def baseExec (lat : Nat → Nat) (i len : Nat) (pc a b : W32) : Option (Option W32 × W32 × Nat) :=
  let next := pc + BitVec.ofNat 32 len
  let f3 := f3Of i
  let f7 := f7Of i
  let op := i % 128
  if op = 0x37 then some (some (immU i), next, 1)
  else if op = 0x17 then some (some (pc + immU i), next, 1)
  else if op = 0x6F then some (some next, pc + immJ i, lat 10)
  else if op = 0x67 ∧ f3 = 0 then some (some next, (a + immI i) &&& ~~~ 1, lat 10)
  else if op = 0x63 ∧ f3 ≠ 2 ∧ f3 ≠ 3 then
    if branchTaken f3 a b then some (none, pc + immB i, lat 10) else some (none, next, 1)
  else if op = 0x13 then
    if f3 = 1 ∧ f7 ≠ 0 ∨ f3 = 5 ∧ f7 ≠ 0 ∧ f7 ≠ 0x20 then none
    else some (some (alu f3 (f3 == 5 && f7 == 0x20) a (immI i)), next, 1)
  else if op = 0x33 then
    if f7 = 1 then some (some (muldiv f3 a b), next, if f3 < 4 then lat 11 else lat 12)
    else if f7 = 0 ∨ f7 = 0x20 ∧ (f3 = 0 ∨ f3 = 5) then some (some (alu f3 (f7 == 0x20) a b), next, 1)
    else none
  else if op = 0x0F ∧ (f3 = 0 ∨ f3 = 1) then some (none, next, 1)
  else none

end Sys2Proof.Machine
end

