-- ==== Sys2Proof/Machine/Keeper.lean ====
section
/-! DEFINITION. The keeper (R190 to R202, R250, R602): its fetch, its accesses, its base and custom instructions. An instruction
takes effect in its last beat (R194), so its command acts in that beat or, where it waits, in the beat its wait ends. -/

namespace Sys2Proof.Machine

/-! ### Fetch -/

/-- What a fetch gives: an instruction with its length (0 stands for an illegal compressed form), or the code that stops the
keeper (R192). -/
inductive Fetched where
  | instr (i len : Nat)
  | stop (code : Nat)
  deriving DecidableEq, Repr

/-- Keeper register `i`. -/
def State.kx (s : State) (n i : Nat) : W32 := if i = 0 then 0 else (s.core n).x.getD i 0

/-- The keeper's pc (R208). -/
def State.kpc (s : State) (n : Nat) : Nat := s.get (Reg.KEEP_PC n) Fld.KEEP_PC.pc

/-- Device address of keeper instruction memory at `a`. -/
def imemAddr (n a : Nat) : Nat := coreBase n + 0x680000 + a

/-- Device address of keeper data memory at `a`. -/
def dmemAddr (n a : Nat) : Nat := coreBase n + 0x690000 + a

/-- Record the lines an access of the keeper reads, each time (R280); whether one was uncorrectable. -/
def State.keeperLines (s : State) (n a len : Nat) : State × Bool :=
  let bad := s.badLines a len
  ((s.noteLines bad (some n) none []).1, bad.any (·.2))

/-- Fetch at the pc (R190, R192). -/
def State.fetch (s : State) (n : Nat) : State × Fetched :=
  let pc := s.kpc n
  if pc % 2 ≠ 0 ∨ 0x10000 ≤ pc then (s, .stop 0x3804)
  else
    let h0 := leNat (s.bytes (imemAddr n pc) 2)
    if h0 % 4 ≠ 3 then
      let (t, bad) := s.keeperLines n (imemAddr n pc) 2
      if bad then (t, .stop 0x2505) else (t, .instr ((expandC h0).getD 0) 2)
    else if 0x10000 < pc + 4 then (s, .stop 0x3804)
    else
      let (t, bad) := s.keeperLines n (imemAddr n pc) 4
      if bad then (t, .stop 0x2505) else (t, .instr (leNat (s.bytes (imemAddr n pc) 4)) 4)

/-- The keeper executes: RUNNING, or HALTED with a step pending (R203, R206), waiting for nothing. -/
def State.keeperRuns (s : State) (n : Nat) : Bool :=
  let st := s.coreState n
  s.inBeat n && s.toll.ctxAt.isNone && (s.core n).kwait == .none && (st == stRunning || (st == stHalted && (s.core n).kstep))

/-- The beat in progress is the `cost`th or a later beat of the instruction. -/
def State.kdue (s : State) (n cost : Nat) : Bool := decide ((s.core n).kAt + cost ≤ s.beatOf n + 1)

/-- An instruction retires: its result, the next pc, which a write of KEEP_PC in the same beat keeps out (R17), and the beat from which the
next one runs; a halt or a step that waited for it takes effect (R194, R206, R602). -/
def State.retire (s : State) (n : Nat) (rd : Nat) (v : Option W32) (pc : Nat) : State :=
  let c := s.core n
  let x := match v with
    | some w => if rd = 0 then c.x else c.x.set rd w
    | none => c.x
  let s := s.setCore n { c with x := x, kAt := s.beatOf n + 1, kwait := .none, instret := c.instret + 1, kstep := false }
  let s := s.hwPut (Reg.KEEP_PC n) Fld.KEEP_PC.pc pc
  if c.haltReq then s.enterHalted n else s.refresh n

/-- The instruction cannot complete yet: the keeper waits; a halt that waited for it abandons it where it waits for its
condition (R602). -/
def State.stall (s : State) (n : Nat) (w : KWait) : State :=
  let c := s.core n
  if c.haltReq ∧ s.abandons n w then s.enterHalted n
  else (s.setCore n { c with kwait := w }).refresh n

/-- The keeper stops with a code and the core enters FAULT (R192). -/
def State.kstop (s : State) (n code : Nat) : State := s.failCore n code

/-! ### The keeper's address map (R190) -/

/-- Where a keeper address leads. -/
inductive KMem where
  | imem (a : Nat)
  | dmem (a : Nat)
  | regs (o : Nat)
  | basin (a : Nat)
  | cache (a : Nat)
  | nowhere
  deriving DecidableEq, Repr

/-- The target of a keeper address; `a` of a memory target is its device address (R190). -/
def kmem (n a : Nat) : KMem :=
  if a < 0x10000 then .imem (imemAddr n a)
  else if a < 0x20000 then .dmem (dmemAddr n (a - 0x10000))
  else if a < 0x21000 then .regs (a - 0x20000)
  else if 0x1000000 ≤ a ∧ a < 0x1600000 then .basin (coreBase n + (a - 0x1000000))
  else if 0x1600000 ≤ a ∧ a < 0x1680000 then .cache (coreBase n + 0x600000 + (a - 0x1600000))
  else .nowhere

/-- Bytes of an access by funct3. -/
def sizeOf3 (f3 : Nat) : Nat := 2 ^ (f3 % 4)

/-- A loaded value, extended as funct3 says. -/
def loadVal (f3 : Nat) (bs : List Byte) : W32 :=
  let v := leNat bs
  match f3 with
  | 0 => sext 8 v
  | 1 => sext 16 v
  | _ => BitVec.ofNat 32 v

/-- A narrow access to a memory of core `n` may be made in the beat in progress: its basin bank has had no access (R194, R250), or the
operand cache's narrow port none (R152). -/
def State.narrowFree (s : State) (n a : Nat) : Bool :=
  match memKind a with
  | .basin => !(s.core n).banks.contains (bankOf (a % 0x4000000))
  | .ocache => (s.core n).narrowAt != some (s.beatOf n)
  | _ => true

/-- A narrow access takes its bank or port for the beat. -/
def State.takeNarrow (s : State) (n a : Nat) : State :=
  match memKind a with
  | .basin => s.takeBank a
  | .ocache => s.setCore n { s.core n with narrowAt := some (s.beatOf n) }
  | _ => s

/-- Load bytes for the keeper and retire, or stop on an uncorrectable line (R192, R281). -/
def State.loadDone (s : State) (n rd a f3 pc : Nat) : State :=
  let (t, bad) := s.keeperLines n a (sizeOf3 f3)
  if bad then t.faultCore n (memKind a).ueCode
  else t.retire n rd (some (loadVal f3 (s.bytes a (sizeOf3 f3)))) pc

/-- Store for the keeper and retire; an uncorrectable data-memory line stops it (R192). Over an uncorrectable line its memory's code is
logged and the line stays poison (R164, R281). -/
def State.storeDone (s : State) (n a size v pc : Nat) : State :=
  let bad := lineStat (s.eccOf (lineOf a)) == .uncorrectable
  let t := (s.noteStore a size (some n)).storeBytes 0 a (natLe size v)
  if bad ∧ memKind a = .kdmem then t.faultCore n 0x2505 else t.retire n 0 none pc

/-- Bytes of an entry as QPUSH stores it: producer fields as they stand, and the reserved bytes 0 (R185, R186). -/
def cleanEntry (e : List Byte) : List Byte := putBytes e 24 (List.replicate 8 0)

/-- Push for the keeper and retire (R187, R197). -/
def State.pushDone (s : State) (n q pc : Nat) (e : List Byte) : State := (s.push n q (cleanEntry e)).retire n 0 none pc

/-- Append a descriptor to a stream's FIFO, or stall while it is full (R180). -/
def State.issueDone (s : State) (n st pc : Nat) (e : List Byte) : State :=
  let c := s.core n
  let ws := (List.range 8).map fun j => BitVec.ofNat 64 (leNat ((e.drop (8 * j)).take 8))
  if 8 ≤ (c.fifo (st == 1)).length then s.stall n (.issue st e)
  else
    let b := some (s.beatOf n)
    let c := if st = 1 then { c with xFifo := c.xFifo ++ [ws], xIssue := b } else { c with aFifo := c.aFifo ++ [ws], aIssue := b }
    (s.setCore n c).retire n 0 none pc

/-- Read one 32 B half for a custom instruction; an uncorrectable line stops the keeper (R192, R281). -/
def State.readHalf64 (s : State) (n a : Nat) : State × Option (List Byte) :=
  let (t, bad) := s.keeperLines n a 32
  if bad then (t.faultCore n (memKind a).ueCode, none) else (t, some (s.bytes a 32))

/-- Address of the access a narrow operation makes next. -/
def NarrowOp.next : NarrowOp → Nat
  | .load _ a _ => a
  | .store a _ _ => a
  | .qpush _ a half _ => a + 32 * half
  | .qpop _ _ a half _ => a + 32 * half
  | .issue _ a half _ => a + 32 * half

/-- Make a narrow access (R194, R250); after the first half of a 64 B access the keeper goes on with the second. -/
def State.narrowStep (s : State) (n pc : Nat) (op : NarrowOp) : State :=
  let s := s.takeNarrow n op.next
  let b := s.beatOf n
  let next := b + s.lat 16
  match op with
  | .load rd a f3 => s.loadDone n rd a f3 pc
  | .store a size v => s.storeDone n a size v pc
  | .qpush q a half got =>
    match s.readHalf64 n (a + 32 * half) with
    | (t, none) => t
    | (t, some bs) => if half = 0 then t.stall n (.narrow (.qpush q a 1 bs) next) else t.pushDone n q pc (got ++ bs)
  | .issue st a half got =>
    match s.readHalf64 n (a + 32 * half) with
    | (t, none) => t
    | (t, some bs) => if half = 0 then t.stall n (.narrow (.issue st a 1 bs) next) else t.issueDone n st pc (got ++ bs)
  | .qpop q rd a half e =>
    let t := s.storeBytes 0 (a + 32 * half) ((e.drop (32 * half)).take 32)
    if half = 0 then t.stall n (.narrow (.qpop q rd a 1 e) next)
    else t.retire n rd (some (BitVec.ofNat 32 (leNat ((e.drop 18).take 2)))) pc

/-- A narrow access now, where its bank is free; else it waits (R194, R250). -/
def State.narrowTry (s : State) (n pc : Nat) (op : NarrowOp) : State :=
  if s.narrowFree n op.next then s.narrowStep n pc op else s.stall n (.narrow op (s.beatOf n + 1))

/-- A read of half of a core register (R193). -/
def State.readHalf (s : State) (n o : Nat) : State × W32 :=
  let c := s.core n
  if o % 8 = 0 then
    let w := s.readCoreReg n o
    (s.setCore n { c with latch := some (o, w) }, w.setWidth 32)
  else
    let w : Word := match c.latch with
      | some (b, w) => if b = o - 4 then w else s.readCoreReg n (o - 4)
      | none => s.readCoreReg n (o - 4)
    (s.setCore n { c with latch := none }, (w >>> 32).setWidth 32)

/-- Read-write bits of the core register at an offset. -/
def rwBits (n o : Nat) : Word :=
  match regRow (coreRegs n + o) with
  | some r => r.rw
  | none => 0

/-- A write of half of a core register (R193). -/
def State.writeHalf (s : State) (n o v : Nat) : State :=
  let c := s.core n
  let v := BitVec.ofNat 32 v
  if o % 8 = 4 then s.setCore n { c with hbuf := some (o - 4, v) }
  else
    let keep := ((s.reg (coreRegs n + o) &&& rwBits n o) >>> 32).setWidth 32
    let hi : W32 := match c.hbuf with
      | some (b, h) => if b = o then h else keep
      | none => keep
    let s := s.setCore n { c with hbuf := none }
    (s.writeCoreReg n o (hi ++ v)).1

/-! ### Commands -/

/-- Run `f` on the instruction at the pc if it is of class `p` and the keeper executes; `f` has the instruction and the pc
after it. A fetch that fails belongs to KEEPER_INSTRUCTION. -/
def State.onInstr (s : State) (n : Nat) (p : KClass → Bool) (f : State → Nat → Nat → State) : State :=
  if !s.keeperRuns n then s
  else match s.fetch n with
    | (_, .stop _) => s
    | (t, .instr i len) => if p (classOf i) then f t i (s.kpc n + len) else s

/-- A base instruction, an illegal one, or a failed fetch (R192, R194). -/
def State.keeperInstr (s : State) (n : Nat) : State :=
  if !(s.keeperRuns n && s.kdue n 1) then s
  else match s.fetch n with
    | (t, .stop code) => if code = 0x2505 then t.faultCore n code else t.kstop n code
    | (t, .instr i len) =>
      if classOf i ≠ .base then s
      else match baseExec s.lat i len (BitVec.ofNat 32 (s.kpc n)) (s.kx n (rs1Of i)) (s.kx n (rs2Of i)) with
        | none => t.kstop n 0x3801
        | some (v, pc, cost) => if s.kdue n cost then t.retire n (rdOf i) v pc.toNat else s

/-- KEEPER_INSTRUCTION (R194). -/
def execKeeperInstruction (core : Fin 256) (s : State) : Out := .next (s.keeperInstr core)

/-- KEEPER_LOAD (R190, R193, R194). -/
def execKeeperLoad (core : Fin 256) (s : State) : Out :=
  let n := core.val
  .next <| s.onInstr n (· == .load) fun t i pc =>
    let f3 := f3Of i
    let rd := rdOf i
    let a := (t.kx n (rs1Of i) + immI i).toNat
    let at_ := fun (cost : Nat) (go : State) => if t.kdue n cost then go else s
    if !t.kdue n 1 then s
    else if a % sizeOf3 f3 ≠ 0 then t.kstop n 0x3804
    else match kmem n a with
      | .imem d => at_ (t.lat 14) (t.loadDone n rd d f3 pc)
      | .dmem d => at_ (t.lat 14) (t.loadDone n rd d f3 pc)
      | .regs o =>
        if f3 ≠ 2 then t.kstop n 0x3804
        else at_ (t.lat 15) (let (u, v) := t.readHalf n o; u.retire n rd (some v) pc)
      | .basin d => at_ (t.lat 16) (t.narrowTry n pc (.load rd d f3))
      | .cache d => at_ (t.lat 16) (t.narrowTry n pc (.load rd d f3))
      | .nowhere => t.kstop n 0x3804

/-- KEEPER_STORE (R190, R193, R194). -/
def execKeeperStore (core : Fin 256) (s : State) : Out :=
  let n := core.val
  .next <| s.onInstr n (· == .store) fun t i pc =>
    let f3 := f3Of i
    let size := sizeOf3 f3
    let a := (t.kx n (rs1Of i) + immS i).toNat
    let v := (t.kx n (rs2Of i)).toNat
    let at_ := fun (cost : Nat) (go : State) => if t.kdue n cost then go else s
    if !t.kdue n 1 then s
    else if a % size ≠ 0 then t.kstop n 0x3804
    else match kmem n a with
      | .imem _ => t.kstop n 0x3804
      | .dmem d => at_ (t.lat 14) (t.storeDone n d size v pc)
      | .regs o =>
        if f3 ≠ 2 then t.kstop n 0x3804
        else at_ (t.lat 15) ((t.retire n 0 none pc).writeHalf n o v)
      | .basin d => at_ (t.lat 16) (t.narrowTry n pc (.store d size v))
      | .cache d => at_ (t.lat 16) (t.narrowTry n pc (.store d size v))
      | .nowhere => t.kstop n 0x3804

/-- The value of a CSR (R191); none where it is not implemented. -/
def State.csr (s : State) (n c : Nat) : Option W32 :=
  let k := s.core n
  if c = 0xC00 then some (BitVec.ofNat 32 (s.beatOf n))
  else if c = 0xC80 then some (BitVec.ofNat 32 (s.beatOf n / 2 ^ 32))
  else if c = 0xC02 then some (BitVec.ofNat 32 k.instret)
  else if c = 0xC82 then some (BitVec.ofNat 32 (k.instret / 2 ^ 32))
  else if c = 0xF14 then some (BitVec.ofNat 32 n)
  else if c = 0xFC0 then some (BitVec.ofNat 32 ((s.vcoreOf n).getD 0))
  else if c = 0xFC1 then some (BitVec.ofNat 32 s.vgrid)
  else none

/-- A CSR instruction writes its CSR: CSRRW always, CSRRS and CSRRC with a source field that is not 0. -/
def csrWrites (i : Nat) : Bool := f3Of i % 4 == 1 || rs1Of i != 0

/-- CSR_ACCESS (R191). Every implemented CSR is read-only. -/
def execCsrAccess (core : Fin 256) (s : State) : Out :=
  let n := core.val
  .next <| s.onInstr n (· == .csr) fun t i pc =>
    if !t.kdue n (t.lat 13) then s
    else match t.csr n (ibits i 20 12) with
      | some v => if csrWrites i then t.kstop n 0x3801 else t.retire n (rdOf i) (some v) pc
      | none => t.kstop n 0x3801

/-- EBREAK (R602): it retires in 1 beat and the core enters HALTED. -/
def execEbreak (core : Fin 256) (s : State) : Out :=
  let n := core.val
  .next <| s.onInstr n (· == .ebreak) fun t _ pc =>
    if t.kdue n 1 then (t.retire n 0 none pc).enterHalted n else s

/-! ### Custom instructions (R196 to R202) -/

/-- Run `f` on custom instruction `c`, or stop on a field that must be 0. -/
def State.onCustom (s : State) (n : Nat) (c : Custom) (f : State → Nat → Nat → State) : State :=
  s.onInstr n (· == .custom c) fun t i pc =>
    if !t.kdue n 1 then s
    else if !customOk c i then t.kstop n 0x3801
    else f t i pc

/-- The 64 B an entry or descriptor address names: data memory, or the basin (R197). -/
inductive Six4 where
  | dmem (a : Nat)
  | basin (a : Nat)
  | bad
  deriving DecidableEq, Repr

/-- Where 64 B at a keeper address lie. -/
def six4 (n a : Nat) : Six4 :=
  if a % 64 ≠ 0 then .bad
  else match kmem n a with
    | .dmem d => .dmem d
    | .basin d => .basin d
    | _ => .bad

/-- Length of the instruction at the pc, so that a waiting one can retire. -/
def State.pcAfter (s : State) (n : Nat) : Nat :=
  match (s.fetch n).2 with
  | .instr _ len => s.kpc n + len
  | .stop _ => s.kpc n

/-- A queue misuse by the keeper: logged, and the core in FAULT (R188). -/
def State.keeperMisuse (s : State) (n q code : Nat) : State := (s.queueErr n q code).faultCore n code

/-- QPUSH (R197). -/
def execQpush (core : Fin 256) (s : State) : Out :=
  let n := core.val
  .next <| s.onCustom n .qpush fun t i pc =>
    let q := f7Of i % 8
    match six4 n (t.kx n (rs1Of i)).toNat with
    | .bad => t.kstop n 0x3804
    | .dmem a =>
      if !t.produces n q 0 then t.keeperMisuse n q 0x3803
      else if !t.kdue n (t.lat 18) then s
      else match t.keeperLines n a 64 with
        | (u, true) => u.faultCore n 0x2505
        | (u, false) => u.pushDone n q pc (t.bytes a 64)
    | .basin a =>
      if !t.produces n q 0 then t.keeperMisuse n q 0x3803
      else if !t.kdue n (t.lat 16) then s
      else t.narrowTry n pc (.qpush q a 0 [])

/-- Pop for the keeper into memory and retire with the entry's seq (R197). -/
def State.popDone (s : State) (n q rd pc : Nat) (dst : Six4) : State :=
  match s.poppable n q with
  | none => s
  | some e =>
    let t := s.pop n q
    match dst with
    | .dmem a =>
      let u := (t.storeBytes 0 a (e.bytes.take 32)).storeBytes 0 (a + 32) (e.bytes.drop 32)
      u.retire n rd (some (BitVec.ofNat 32 (leNat ((e.bytes.drop 18).take 2)))) pc
    | .basin a => t.narrowTry n pc (.qpop q rd a 0 e.bytes)
    | .bad => t

/-- QWAIT (R197): the wait begins in the instruction's first beat. -/
def execQwait (core : Fin 256) (s : State) : Out :=
  let n := core.val
  .next <| s.onCustom n .qwait fun t i _ =>
    let q := f7Of i % 8
    let a := (t.kx n (rs1Of i)).toNat
    match six4 n a with
    | .bad => t.kstop n 0x3804
    | _ => if !t.consumes n q 0 then t.keeperMisuse n q 0x3803 else t.stall n (.qwait q (rdOf i) a)

/-- QWAIT_COMPLETE (R197): 2 beats from the beat in which the entry is present; to the basin, two narrow accesses. -/
def execQwaitComplete (core : Fin 256) (s : State) : Out :=
  let n := core.val
  let c := s.core n
  .next <| match c.kwait with
  | .qwait q rd a =>
    if !s.inBeat n then s
    else match s.poppable n q with
      | none => s
      | some e =>
        let present := max c.kAt (e.beat + 1)
        match six4 n a with
        | .dmem d => if s.beatOf n + 1 < present + s.lat 18 then s else s.popDone n q rd (s.pcAfter n) (.dmem d)
        | .basin d => if s.beatOf n + 1 < present + s.lat 16 then s else s.popDone n q rd (s.pcAfter n) (.basin d)
        | .bad => s
  | _ => s

/-- QTAKE (R197, R188). -/
def execQtake (core : Fin 256) (s : State) : Out :=
  let n := core.val
  .next <| s.onCustom n .qtake fun t i pc =>
    let q := f7Of i % 8
    let go := fun (dst : Six4) (cost : Nat) =>
      if !t.consumes n q 0 then t.keeperMisuse n q 0x3803
      else if !t.kdue n cost then s
      else if (t.poppable n q).isNone then t.keeperMisuse n q 0x3802
      else t.popDone n q (rdOf i) pc dst
    match six4 n (t.kx n (rs1Of i)).toNat with
    | .bad => t.kstop n 0x3804
    | .dmem a => go (.dmem a) (t.lat 18)
    | .basin a => go (.basin a) (t.lat 16)

/-- QCOUNT (R197): entries present from before the beat. -/
def execQcount (core : Fin 256) (s : State) : Out :=
  let n := core.val
  .next <| s.onCustom n .qcount fun t i pc =>
    let q := f7Of i % 8
    let cfg := t.queueCfg n q
    if cfg % 4 = 3 ∨ cfg / 4 = 3 then t.keeperMisuse n q 0x3803
    else
      let held := (((t.core n).queues.getD q []).filter fun (e : QEntry) => decide (e.beat < t.beatOf n)).length
      t.retire n (rdOf i) (some (BitVec.ofNat 32 held)) pc

/-- ISSUE (R180, R197). -/
def execIssue (core : Fin 256) (s : State) : Out :=
  let n := core.val
  .next <| s.onCustom n .issue fun t i pc =>
    let st := f7Of i % 2
    match six4 n (t.kx n (rs1Of i)).toNat with
    | .bad => t.kstop n 0x3804
    | .dmem a =>
      if !t.kdue n (t.lat 18) then s
      else match t.keeperLines n a 64 with
        | (u, true) => u.faultCore n 0x2505
        | (u, false) => u.issueDone n st pc (t.bytes a 64)
    | .basin a => if !t.kdue n (t.lat 16) then s else t.narrowTry n pc (.issue st a 0 [])

/-- ISSUE_COMPLETE (R180). -/
def execIssueComplete (core : Fin 256) (s : State) : Out :=
  let n := core.val
  .next <| match (s.core n).kwait with
  | .issue st e =>
    if s.inBeat n ∧ ((s.core n).fifo (st == 1)).length < 8 then s.issueDone n st (s.pcAfter n) e else s
  | _ => s

/-- IFREE (R197). -/
def execIfree (core : Fin 256) (s : State) : Out :=
  let n := core.val
  .next <| s.onCustom n .ifree fun t i pc =>
    t.retire n (rdOf i) (some (BitVec.ofNat 32 (8 - ((t.core n).fifo (f7Of i % 2 == 1)).length))) pc

/-- LSIG (R197, R324, R325). -/
def execLsig (core : Fin 256) (s : State) : Out :=
  let n := core.val
  .next <| s.onCustom n .lsig fun t i pc =>
    let k := (t.kx n (rs1Of i)).toNat % 65536
    let ctr := f7Of i % 32
    if f7Of i < 32 then (t.signal n ctr k n 2).retire n 0 none pc
    else
      let v := (t.kx n (rs2Of i)).toNat
      if t.vgrid ≤ v then t.kstop n 0x3804 else (t.signalTo n (t.vmap v) ctr k 2).retire n 0 none pc

/-- The keeper's WAIT(k) on counter `i` is served (R317), or waits; whether its beat is a due beat is judged at the beat's end (R331,
R348). -/
def State.waitTry (s : State) (n i k pc : Nat) : State :=
  if k ≤ s.countFor n i .keeper then ((if k = 0 then s else s.serve n i k)).retire n 0 none pc
  else s.stall n (.lwait i k)

/-- LWAIT (R197, R317). -/
def execLwait (core : Fin 256) (s : State) : Out :=
  let n := core.val
  .next <| s.onCustom n .lwait fun t i pc => t.waitTry n (f7Of i % 32) ((t.kx n (rs1Of i)).toNat % 65536) pc

/-- LWAIT_SATISFIED (R317). -/
def execLwaitSatisfied (core : Fin 256) (s : State) : Out :=
  let n := core.val
  .next <| match (s.core n).kwait with
  | .lwait i k => if s.inBeat n ∧ k ≤ s.countFor n i .keeper then s.waitTry n i k (s.pcAfter n) else s
  | _ => s

/-- The diagnostic of R318 for a contender left unserved in the beat in progress: logged once for the counter and beat. -/
def State.contended (s : State) (n i issuer k : Nat) : State :=
  let c := s.core n
  if s.strict && !c.contd.contains i then
    let s := s.setCore n { c with contd := i :: c.contd }
    (s.hwSet (Reg.LOCK_CNT n i) Fld.LOCK_CNT.contended 1).lockErr 0x3303 n issuer i k
  else s

/-- TAKE(k) (R317, R318, R320, R321). -/
def State.take (s : State) (n i k : Nat) : State :=
  if k = 0 then s
  else if k ≤ s.countFor n i .keeper then s.serve n i k
  else
    let start := s.lockCount n i + smGet 0 (s.core n).served i
    let s := if k ≤ start then s.contended n i 2 k else s
    (s.hwSet (Reg.LOCK_CNT n i) Fld.LOCK_CNT.unf 1).lockErr 0x3301 n 2 i k

/-- LTAKE (R197). -/
def execLtake (core : Fin 256) (s : State) : Out :=
  let n := core.val
  .next <| s.onCustom n .ltake fun t i pc =>
    (t.take n (f7Of i % 32) ((t.kx n (rs1Of i)).toNat % 65536)).retire n 0 none pc

/-- LREAD (R197): the count after the beat's waits. -/
def execLread (core : Fin 256) (s : State) : Out :=
  let n := core.val
  .next <| s.onCustom n .lread fun t i pc =>
    t.retire n (rdOf i) (some (BitVec.ofNat 32 (t.lockCount n (f7Of i % 32)))) pc

/-- LBAR (R335). -/
def execLbar (core : Fin 256) (s : State) : Out :=
  let n := core.val
  .next <| s.onCustom n .lbar fun t i pc =>
    (t.arrive n ((t.kx n (rs1Of i)).toNat % 64) 2).retire n 0 none pc

/-! ### Steps (R198 to R202, R350, R398, R405, R494) -/

/-- The chip takes the epoch armed for a switch (R397, R398). -/
def State.takeEpoch (s : State) : State :=
  let s := s.put Reg.FABR_EPOCH Fld.FABR_EPOCH.epoch (s.get Reg.FABR_EPOCH_NEXT Fld.FABR_EPOCH_NEXT.next)
  s.put Reg.FABR_EPOCH_NEXT Fld.FABR_EPOCH_NEXT.armed 0

/-- The chip takes the epoch armed for the step that begins; a write of the beat that arms anew wins over the clearing (R17, R398). -/
def State.stepEpoch (s : State) : State :=
  let v := s.reg Reg.FABR_EPOCH_NEXT
  let t := s.takeEpoch
  if s.written Reg.FABR_EPOCH_NEXT Fld.FABR_EPOCH_NEXT.armed then t.setReg Reg.FABR_EPOCH_NEXT v else t

/-- The weight epoch of a swap in resident-double mode is taken with the switch step (R494). -/
def State.residentSwitch (s : State) (weightEpoch : Nat) : State :=
  if s.get Reg.WSWP_MODE Fld.WSWP_MODE.mode = 1 ∧ s.get Reg.WSWP_ARM Fld.WSWP_ARM.armed = 1 ∧
     weightEpoch = s.get Reg.WSWP_ARM Fld.WSWP_ARM.next then
    let old := s.get Reg.WSWP_EPOCH Fld.WSWP_EPOCH.epoch
    let s := s.put Reg.WSWP_EPOCH Fld.WSWP_EPOCH.old_epoch old
    let s := s.hwPut Reg.WSWP_EPOCH Fld.WSWP_EPOCH.epoch weightEpoch
    s.hwPut Reg.WSWP_ARM Fld.WSWP_ARM.armed 0
  else s

/-- FABR_STEP has taken a value; the retry counts of the ports restart (R383), and an epoch armed for that step is taken (R398). -/
def State.stepTaken (s : State) : State :=
  let s := (List.range 48).foldl (fun t p =>
    if t.get (Reg.TOWL_PORT_STAT p) Fld.TOWL_PORT_STAT.retries = 0 then t
    else t.put (Reg.TOWL_PORT_STAT p) Fld.TOWL_PORT_STAT.retries 0) s
  if s.get Reg.FABR_EPOCH_NEXT Fld.FABR_EPOCH_NEXT.armed = 1 ∧
     s.get Reg.FABR_SWITCH_STEP Fld.FABR_SWITCH_STEP.step = s.get Reg.FABR_STEP Fld.FABR_STEP.step then s.stepEpoch else s

/-- FABR_STEP takes a value, unless a write of it falls in the same beat (R17). -/
def State.setStep (s : State) (step : Nat) : State := (s.hwPut Reg.FABR_STEP Fld.FABR_STEP.step step).stepTaken

/-- FABR_STEP takes the step of a record in the beat in which the die's first core completes KSTEPW for it; the epoch and
resident switches happen in that beat, and the step's boundary time is recorded (R350, R398, R405, R494). -/
def State.takeStep (s : State) (r : List Word) : State :=
  let step := (r.getD 0 0).toNat
  if s.get Reg.FABR_STEP Fld.FABR_STEP.step = step then s
  else
    let s := s.setStep step
    let s := s.residentSwitch ((r.getD 2 0).toNat / 2 ^ 32)
    let s := if (r.getD 2 0).toNat / 2 ^ 32 = s.get Reg.WSWP_EPOCH Fld.WSWP_EPOCH.epoch then
        { s with weights := { s.weights with begun := true } } else s
    let s := s.put Reg.DTRM_STEP_STAT Fld.DTRM_STEP_STAT.boundary_ns (min (s.die.boundaryPs / 1000) (2 ^ 32 - 1))
    { s with die := { s.die with boundaryPs := 0, heldAtStep := s.die.heldPs } }

/-- The hold request of a KSTEPW (R200). -/
def recordReq (n : Nat) : HoldReq := { cause := .record, core := n, unit := none }

/-- KSTEPW completes: next moves to current (R199, R200). -/
def State.stepBegin (s : State) (n rd pc : Nat) (r : List Word) : State :=
  let s := (List.range 8).foldl (fun t j => t.setReg (Reg.STEP_REC n j) (r.getD j 0)) s
  let s := s.put (Reg.STEP_STAT n) Fld.STEP_STAT.next_valid 0
  let s := s.put (Reg.STEP_STAT n) Fld.STEP_STAT.in_step 1
  let c := s.core n
  let s := s.setCore n { c with nextRec := none, stepBeat0 := s.beatOf n, menu := none }
  let s := s.holdOff (· == recordReq n)
  (s.takeStep r).retire n rd (some ((r.getD 0 0).setWidth 32)) pc

/-- KSTEPW (R200). -/
def execKstepw (core : Fin 256) (s : State) : Out :=
  let n := core.val
  .next <| s.onCustom n .kstepw fun t i pc =>
    if t.inStep n then t.kstop n 0x3801
    else match (t.core n).nextRec with
      | some r => t.stepBegin n (rdOf i) pc r
      | none =>
        let u := t.stall n (.kstepw (rdOf i))
        if (u.core n).kwait = .none then u else u.holdOn (recordReq n)

/-- KSTEPW_COMPLETE (R200): once every running core that waits holds its record. -/
def execKstepwComplete (core : Fin 256) (s : State) : Out :=
  let n := core.val
  .next <| match (s.core n).kwait, (s.core n).nextRec with
  | .kstepw rd, some r =>
    if s.inBeat n ∧ !((List.range 256).any s.lacksRecord) then s.stepBegin n rd (s.pcAfter n) r else s
  | _, _ => s

/-- KSEL (R201). -/
def execKsel (core : Fin 256) (s : State) : Out :=
  let n := core.val
  .next <| s.onCustom n .ksel fun t i pc =>
    if !t.kdue n (t.lat 17) then s
    else
      let cls := (t.reg (Reg.STEP_REC n 1)).toNat % 2 ^ 32
      let base := t.get (Reg.MENU_BASE n) Fld.MENU_BASE.base
      if t.get (Reg.MENU_BASE n) Fld.MENU_BASE.count ≤ cls then t.kstop n 0x3805
      else
        let a := dmemAddr n (base + 32 * cls)
        match t.keeperLines n a 32 with
        | (u, true) => u.faultCore n 0x2505
        | (u, false) =>
          if leNat (t.bytes a 4) ≠ cls then u.kstop n 0x3805
          else
            let u := u.setCore n { u.core n with menu := some (leNat (t.bytes (a + 4) 4)) }
            u.retire n (rdOf i) (some (BitVec.ofNat 32 (0x10000 + base + 32 * cls))) pc

/-- First beat in which both streams are idle, no earlier than `from_`. -/
def Core.idleFrom (c : Core) (from_ : Nat) : Nat := c.freed.foldl (fun m p => max m (p.2 + 1)) from_

/-- KDONE (R202). -/
def execKdone (core : Fin 256) (s : State) : Out :=
  let n := core.val
  .next <| s.onCustom n .kdone fun t _ _ =>
    if !t.inStep n then t.kstop n 0x3801 else t.stall n (.kdone (t.beatOf n))

/-- Signals still pending for the core's step are applied, each with 0x3307 (R332, R345). -/
def State.flushPend (s : State) (n : Nat) : State :=
  let par := (s.reg (Reg.STEP_REC n 0)).toNat % 2
  let p := fun (e : PendSig) => e.parity == par && (if e.kind = 0 then e.core == n else e.cores.contains n)
  let due := s.locks.pend.filter p
  if due.isEmpty then s
  else
    let s := s.applyPend n p
    let s := s.put Reg.DTRM_STAT Fld.DTRM_STAT.xsig_late 1
    due.foldl (fun t e => t.lockErr 0x3307 n 3 e.ctr e.n) s

/-- Every RUNNING core has completed KDONE (R403). -/
def State.stepEnded (s : State) : Bool :=
  (List.range 256).all fun n => s.coreState n != stRunning || !s.inStep n

/-- KDONE_COMPLETE (R202): in the beat after the first in which both streams are idle. -/
def execKdoneComplete (core : Fin 256) (s : State) : Out :=
  let n := core.val
  let c := s.core n
  .next <| match c.kwait with
  | .kdone since =>
    if !(s.inBeat n && c.idleStreams) ∨ s.beatOf n ≤ c.idleFrom since then s
    else
      let beats := s.beatOf n - c.stepBeat0 + 1
      let s := s.put (Reg.STEP_STAT n) Fld.STEP_STAT.beats beats
      let s := match c.menu with
        | some m => if m ≠ beats then s.logCore n 0x4801 else s
        | none => s
      let s := s.flushPend n
      let s := s.put (Reg.STEP_STAT n) Fld.STEP_STAT.in_step 0
      let step := (s.reg (Reg.STEP_REC n 0)).toNat
      let s := s.setCore n { s.core n with readyFor := some step }
      let s := { s with weights := { s.weights with lastDone := s.now } }
      let s := if s.stepEnded then
          s.put Reg.DTRM_STEP_STAT Fld.DTRM_STEP_STAT.held_ns (min ((s.die.heldPs - s.die.heldAtStep) / 1000) (2 ^ 32 - 1))
        else s
      s.retire n 0 none (s.pcAfter n)
  | _ => s

/-! ### Narrow accesses that wait (R250) -/

/-- The keeper's waiting access is made once it is due and its bank is free. -/
def State.keeperNarrow (s : State) (n : Nat) : State :=
  match (s.core n).kwait with
  | .narrow op nb => if s.inBeat n ∧ nb ≤ s.beatOf n ∧ s.narrowFree n op.next then s.narrowStep n (s.pcAfter n) op else s
  | _ => s

/-- A meaning has nothing to do in a state. -/
def idleOn (f : State → Out) (s : State) : Bool :=
  match f s with
  | .next t => t == s
  | _ => true

/-- What the keeper of core `n` may do in a beat. -/
def keeperWork (n : Fin 256) : List (State → Out) :=
  [ execKeeperInstruction n, execKeeperLoad n, execKeeperStore n, execCsrAccess n, execEbreak n, execQpush n, execQwait n,
    execQwaitComplete n, execQtake n, execQcount n, execIssue n, execIssueComplete n, execIfree n, fun s => .next (s.keeperNarrow n),
    execLsig n, execLwait n, execLwaitSatisfied n, execLtake n, execLread n, execLbar n, execKstepw n, execKstepwComplete n,
    execKsel n, execKdone n, execKdoneComplete n ]

/-- The keeper of core `n` has done its work of the beat in progress. -/
def State.keeperDone (s : State) (n : Fin 256) : Bool := (keeperWork n).all fun f => idleOn f s

/-- Make a waiting access of the register path (R250, R597). -/
def State.servePath (s : State) (n : Nat) (p : PathOp) : State :=
  let s := s.takeNarrow n p.addr
  match p.val with
  | some v => ((s.noteStore p.addr 8 (some n)).storeBytes 0 p.addr (natLe 8 v.toNat)).answer p.asker 0 0
  | none => (s.noteLines (s.badLines (lineOf p.addr) 32) (some n) none []).1.answer p.asker 0 (s.word p.addr)

/-- The oldest waiting access of the register path is made in the first beat in which its bank has no access, after the keeper, one in a
beat (R248). -/
def State.pathNarrow (s : State) (n : Fin 256) : State :=
  match (s.core n).narrowQ with
  | p :: rest =>
    if s.inBeat n && s.narrowFree n p.addr && s.keeperDone n && (s.core n).pathAt != some (s.beatOf n) then
      (s.setCore n { s.core n with narrowQ := rest, pathAt := some (s.beatOf n) }).servePath n p
    else s
  | [] => s

/-- NARROW_ACCESS_SERVE (R250): the keeper's waiting access, then that of the register path. -/
def execNarrowAccessServe (core : Fin 256) (s : State) : Out :=
  .next (match (s.core core).kwait with
    | .narrow _ _ => if s.keeperNarrow core == s then s.pathNarrow core else s.keeperNarrow core
    | _ => s.pathNarrow core)

end Sys2Proof.Machine
end

