-- ==== Sys2Proof/Machine/Movers.lean ====
section
/-! DEFINITION. The feeder (R229, R230), SRED (R237, R238, R604), the start of every transfer macro-op, and the last beat of a
macro-op with its late items (R182, R218, R219, R347 to R349). -/

namespace Sys2Proof.Machine

/-! ### Feeder (R229, R230) -/

/-- Copy one line, with poison where its source is uncorrectable (R278); the feeder's rank in R152 is 1. -/
def State.copyLine (s : State) (src dst : Nat) : State :=
  s.lineWrite 1 dst fullLine (leNat (s.bytes src 32)) (lineStat (s.eccOf src) == .uncorrectable)

/-- Parts of at most 128 B of a feeder macro-op. -/
def FeedOp.parts (o : FeedOp) : Nat := o.rows * ceilDiv o.rowB 128

/-- The feeder macro-op that runs on core `n`. -/
def State.feedRunning (s : State) (n : Nat) : Option (RunOp × FeedOp) :=
  match (s.core n).feeder with
  | some r => match opKind (opByte r.desc) with
    | some .fload => some (r, feedOf true r.desc)
    | some .fstore => some (r, feedOf false r.desc)
    | _ => none
  | none => none

/-- Basin address, other address and bytes of part `k` of a feeder macro-op. -/
def State.feedPlace (s : State) (n : Nat) (o : FeedOp) (k : Nat) : Nat × Nat × Nat :=
  let per := ceilDiv o.rowB 128
  let off := 128 * (k % per)
  let src := s.placeAddr n o.src + o.sstr * (k / per) + off
  let dst := s.placeAddr n o.dst + o.dstr * (k / per) + off
  (if o.load then src else dst, if o.load then dst else src, min 128 (o.rowB - off))

/-- Copy the lines of a piece of a part: the basin's piece, and the other memory at the same distance from the part's start. -/
def State.feedPiece (s : State) (n : Nat) (o : FeedOp) (bas oth : Nat) (p : Nat × Nat) : State :=
  let q := oth + (p.1 - bas)
  let (src, dst) := if o.load then (p.1, q) else (q, p.1)
  let (s, ue) := s.readLines n .feeder src p.2
  let s := (linesFrom src p.2).foldl (fun (t : State) la => t.copyLine la (dst + (la - src))) (s.taint n .feeder ue)
  let c := s.core n
  s.setCore n { c with portBytes := c.portBytes + p.2 }

/-- Units of a part whose banks are free are copied; the others wait (R230, R248, R250). -/
def State.feedUnits (s : State) (n : Nat) (o : FeedOp) (k : Nat) (ps : List (Nat × Nat)) : State :=
  let (bas, oth, _) := s.feedPlace n o k
  let (s, served, wait) := s.giveBanks ps
  (served.foldl (fun t p => t.feedPiece n o bas oth p) s).modRun n .feeder fun x => { x with left := wait }

/-- The feeder's request of a beat: the units that wait, or the next part in ascending rows (R230, R250). -/
def State.feedStep (s : State) (n : Nat) : State :=
  match s.feedRunning n with
  | none => s
  | some (r, o) =>
    if !r.left.isEmpty then s.feedUnits n o (r.done - 1) r.left
    else if o.parts ≤ r.done then s
    else
      let (bas, _, len) := s.feedPlace n o r.done
      (s.modRun n .feeder fun x => { x with done := x.done + 1 }).feedUnits n o r.done (piecesOf bas len)

/-- One beat of the feeder. -/
def State.feedBeat (s : State) (n : Nat) : State :=
  match s.feedRunning n with
  | some (r, _) => if r.start < s.beatOf n then s.feedStep n else s
  | none => s

/-- Producer fields of a feeder's push (R239). -/
def FeedOp.pushInfo (o : FeedOp) : PushInfo :=
  { addr := o.dst, len := o.rows * o.rowB, stride := o.dstr / 32, fmt := o.fmt }

/-- Start the head of a stream where it is a feeder operation. -/
def State.startFeed (s : State) (n : Nat) (legacy load : Bool) : State :=
  s.startOp n legacy (fun k => k == if load then .fload else .fstore) fun t d _ =>
    t.modRun n .feeder fun r => { r with push := (feedOf load d).pushInfo }

/-- FLOAD (R229). -/
def execFload (core : Fin 256) (s : State) : Out := .next (s.startFeed core false true)

/-- FSTORE (R229). -/
def execFstore (core : Fin 256) (s : State) : Out := .next (s.startFeed core false false)

/-- LLOAD (R245). -/
def execLload (core : Fin 256) (s : State) : Out := .next (s.startFeed core true true)

/-- LSTORE (R245). -/
def execLstore (core : Fin 256) (s : State) : Out := .next (s.startFeed core true false)

/-! ### Sluice macro-ops -/

/-- Start the head of a stream where it is a sluice operation of a class. -/
def State.startSlu (s : State) (n : Nat) (legacy : Bool) (p : OpKind → Bool) : State :=
  s.startOp n legacy p fun t d k => t.sluStart n d k

/-- SCOPY (R233). -/
def execScopy (core : Fin 256) (s : State) : Out :=
  .next (s.startSlu core false fun k => match k with
    | .scopy _ => true
    | _ => false)

/-- SCAST (R234). -/
def execScast (core : Fin 256) (s : State) : Out :=
  .next (s.startSlu core false fun k => match k with
    | .scast _ => true
    | _ => false)

/-- SKVR (R235). -/
def execSkvr (core : Fin 256) (s : State) : Out :=
  .next (s.startSlu core false fun k => match k with
    | .skvr _ => true
    | _ => false)

/-- SKVW (R235). -/
def execSkvw (core : Fin 256) (s : State) : Out :=
  .next (s.startSlu core false fun k => match k with
    | .skvw _ => true
    | _ => false)

/-- LCOPY (R245). -/
def execLcopy (core : Fin 256) (s : State) : Out :=
  .next (s.startSlu core true fun k => match k with
    | .scopy _ => true
    | _ => false)

/-! ### SRED (R237, R238, R604) -/

/-- Bytes that a running SRED has read (R250). -/
def RunOp.bytes (r : RunOp) (a len : Nat) : List Byte := (List.range len).map fun i => smGet 0 r.got (a + i)

/-- Some line of bytes that a running SRED has read is uncorrectable. -/
def RunOp.bad (r : RunOp) (a len : Nat) : Bool := r.gotBad.any fun la => decide (a < la + 32 ∧ la < a + len)

/-- Source-list entry `i` of an SRED: berth and basin offset, or none where it is invalid (R604). -/
def redEntry (n : Nat) (r : RunOp) (o : RedOp) (i : Nat) : Option (Nat × Nat) :=
  let w := leNat (r.bytes (coreBase n + o.list + 8 * i) 8)
  let off := w % 2 ^ 32
  if w / 2 ^ 36 ≠ 0 ∨ off % 32 ≠ 0 ∨ 0x600000 < off + fmtBytes o.inFmt o.count then none
  else some (w / 2 ^ 32 % 16, off)

/-- Entries of an SRED in list order. -/
def redEntries (n : Nat) (r : RunOp) (o : RedOp) : List (Option (Nat × Nat)) := (List.range o.sources).map (redEntry n r o)

/-- Insert a source after those whose berths recorded completion no later (R238). -/
def placeSrc (k : Nat) (x : Nat) : List (Nat × Nat) → List (Nat × Nat)
  | [] => [(k, x)]
  | y :: t => if k < y.1 then (k, x) :: y :: t else y :: placeSrc k x t

/-- Offsets of the sources in the order in which they are summed (R238, R370). -/
def State.redOrder (s : State) (n : Nat) (o : RedOp) (es : List (Nat × Nat)) : List Nat :=
  if o.mode = 2 ∧ !s.strict then
    (es.foldl (fun l e => placeSrc (s.get (Reg.BERTH_DONE n e.1) Fld.BERTH_DONE.done_beat) e.2 l) []).map (·.2)
  else es.map (·.2)

/-- Element `j` of an SRED from the bits of its partials, and whether it logs 0x3603 (R111, R113, R238). -/
def redElem (o : RedOp) (xs : List Nat) : Nat × Bool :=
  if o.mode = 0 then
    let xs := xs.map fun x => ofExchange (BitVec.ofNat 128 x)
    (((combineExact xs).toFmt o.anchor o.outFmt o.sat).bits, combineLogs xs)
  else ((convert o.outFmt o.sat (sumRounded (xs.map (decodeElem o.inFmt)))).bits, false)

/-- An entry of the list, in a line that could be read, is invalid (R604); one in an uncorrectable line is not judged (log entry 16). -/
def redInvalid (n : Nat) (r : RunOp) (o : RedOp) : Bool :=
  (List.range o.sources).any fun i => (redEntry n r o i).isNone && !r.bad (coreBase n + o.list + 8 * i) 8

/-- The result of an SRED from what it has read, element by element: the write, and whether it logs 0x3603 (R163, R238, R281, R604). -/
def State.redResult (s : State) (n : Nat) (r : RunOp) (o : RedOp) : List (PendWrite × Bool) :=
  let all := redInvalid n r o || r.bad (coreBase n + o.list) (8 * o.sources)
  let offs := s.redOrder n o ((redEntries n r o).filterMap id)
  let w := fmtBits o.inFmt / 8
  let ew := fmtBits o.outFmt
  (List.range o.count).map fun j =>
    let at_ := fun (f : Nat) => coreBase n + f + w * j
    let bit := 8 * (coreBase n + o.dst) + ew * j
    if all || offs.any (fun f => r.bad (at_ f) w) then (⟨bit, ew, poisonBits o.outFmt, true⟩, false)
    else
      let v := redElem o (offs.map fun f => leNat (r.bytes (at_ f) w))
      (⟨bit, ew, v.1, false⟩, v.2)

/-- Bytes an SRED reads of its list, and of its partials, and those that it reads and writes in all. -/
def RedOp.listB (o : RedOp) : Nat := 8 * o.sources
def RedOp.partB (o : RedOp) : Nat := o.sources * fmtBytes o.inFmt o.count
def RedOp.total (o : RedOp) : Nat := o.listB + o.partB + fmtBytes o.outFmt o.count

/-- Units of the partials from byte `at_` of all their bytes on, `budget` bytes of them, and where the request ends; an invalid entry has
none (R604). -/
def redUnits (n : Nat) (r : RunOp) (o : RedOp) : Nat → Nat → Nat → List (Nat × Nat) × Nat
  | 0, at_, _ => ([], at_)
  | fuel + 1, at_, budget =>
    if o.partB ≤ at_ ∨ budget = 0 then ([], at_)
    else
      let part := max 1 (fmtBytes o.inFmt o.count)
      let i := at_ % part
      match redEntry n r o (at_ / part) with
      | none => redUnits n r o fuel ((at_ / part + 1) * part) budget
      | some (_, off) =>
        let a := coreBase n + off + i
        let len := min (min (64 - a % 64) (part - i)) budget
        let (ps, e) := redUnits n r o fuel (at_ + len) (budget - len)
        ((a, len) :: ps, e)

/-- The next request of an SRED, at most 1 KiB: its list, then its partials in list order, then its result (R237, R248; log entry 16).
Its units, and how far it comes. -/
def redRequest (n : Nat) (r : RunOp) (o : RedOp) : List (Nat × Nat) × Nat :=
  if r.done < o.listB then (piecesOf (coreBase n + o.list + r.done) (o.listB - r.done), o.listB)
  else if r.done < o.listB + o.partB then
    let (ps, e) := redUnits n r o (o.sources + 64) (r.done - o.listB) 1024
    (ps, o.listB + e)
  else
    let len := min 1024 (o.total - r.done)
    (piecesOf (coreBase n + o.dst + (r.done - o.listB - o.partB)) len, r.done + len)

/-- A unit of an SRED is served: a read, whose lines in error are logged and poison its pushes, or a write of results (R250, R280,
R281); its rank in R152 is 1. -/
def State.redServe (s : State) (n sl : Nat) (o : RedOp) (p : Nat × Nat) : State :=
  let u := sluUnit sl
  match (s.core n).running u with
  | none => s
  | some r =>
    if r.done ≤ o.listB + o.partB then
      let bad := ((s.badLines p.1 p.2).filter (·.2)).map (·.1)
      let (t, ue) := s.readLines n u p.1 p.2
      (t.taint n u ue).modRun n u fun x => { x with got := memPuts x.got p.1 (s.bytes p.1 p.2), gotBad := x.gotBad ++ bad }
    else s.applyWrites n u 1 (r.writes.filter fun w => decide (8 * p.1 ≤ w.bit ∧ w.bit < 8 * (p.1 + p.2)))

/-- The list has been read: an invalid entry is logged once and poisons the pushes (R604). -/
def State.redList (s : State) (n sl : Nat) (r : RunOp) (o : RedOp) : State :=
  if redInvalid n r o then (s.taint n (sluUnit sl) true).logCore n 0x340A 0 0 (some (dTag r.desc)) else s

/-- The partials have been read: the result is summed (R238, R345). -/
def State.redSum (s : State) (n sl : Nat) (r : RunOp) (o : RedOp) : State :=
  let res := s.redResult n r o
  let s := if o.mode = 2 ∧ !s.strict then s.put Reg.DTRM_STAT Fld.DTRM_STAT.arrival_reduce 1 else s
  let s := if res.any (·.2) then s.logCore n 0x3603 0 0 (some (dTag r.desc)) else s
  s.modRun n (sluUnit sl) fun x => { x with writes := res.map (·.1) }

/-- An SRED's request of a beat: the units that wait, or the next request; units whose banks are free are served (R248, R250). -/
def State.redStep (s : State) (n sl : Nat) : State :=
  let u := sluUnit sl
  match (s.core n).running u with
  | none => s
  | some r =>
    let o := redOf r.desc
    if o.total ≤ r.done ∧ r.left.isEmpty then s
    else
      let (ps, done) := if r.left.isEmpty then redRequest n r o else (r.left, r.done)
      let (t, served, wait) := s.giveBanks ps
      let t := served.foldl (fun v p => v.redServe n sl o p) (t.modRun n u fun x => { x with done := done, left := wait })
      match (t.core n).running u with
      | some x =>
        if !wait.isEmpty then t
        else if done = o.listB then t.redList n sl x o
        else if done = o.listB + o.partB then t.redSum n sl x o
        else t
      | none => t

/-- The SRED that runs on a sluice. -/
def State.redRunning (s : State) (n sl : Nat) : Option (RunOp × RedOp) :=
  match (s.core n).running (sluUnit sl) with
  | some r => match opKind (opByte r.desc) with
    | some (.sred _) => some (r, redOf r.desc)
    | _ => none
  | none => none

/-- One beat of a sluice. -/
def State.sluiceBeat (s : State) (n sl : Nat) : State :=
  match s.redRunning n sl with
  | some (r, _) => if r.start < s.beatOf n then s.redStep n sl else s
  | none => s.sluBeat n sl

/-- SRED (R238). -/
def execSred (core : Fin 256) (s : State) : Out :=
  .next (s.startOp core false (fun k => match k with
    | .sred _ => true
    | _ => false)
    fun t d k => match k.unit with
      | .sluice sl =>
        let o := redOf d
        let t := t.addTo (Reg.SLUICE_STAT core sl) Fld.SLUICE_STAT.started 1
        t.modRun core (.sluice sl) fun r => { r with
          push := { addr := o.dst, len := fmtBytes o.outFmt o.count, stride := 0, fmt := o.outFmt } }
      | _ => t)

/-! ### The last beat (R182, R218, R219, R347, R348) -/

/-- Row `i` of an SKVR or SKVW, not yet opened, is an item of a hold, an item that crosses a towline: a row of zeros is neither (R235,
R271, R272). -/
def State.rowKinds (s : State) (t : Tx) (o : SluOp) (i : Nat) : Bool × Bool :=
  if o.kind = .kvr ∧ o.limit ≤ o.first + i then (false, false)
  else match s.kvAddress t (o.first + i) o.slice o.rowB with
    | some a => (true, !s.isHere (gChip a))
    | none => (false, false)

/-- A transfer misses an item of a hold, an item that crosses a towline. A tree with output ports has items of both its chips' and
other chips' cores, all in the one combined reply (R219, R305). A page map that has not come is an item of its hold, and the rows behind
it are not judged (log entry 31). -/
def State.missing (s : State) (t : Tx) (o : SluOp) : Bool × Bool :=
  let inHold := fun (a : Nat) => decide (0x1000000000 ≤ a)
  let subHold := t.subs.any fun x => inHold x.dst || (match x.src with
    | some a => inHold a
    | none => false)
  let tree := fun (x : SubTx) => x.mcast.any fun id =>
    decide (0x400 ≤ id) && treeOut.get (s.treeWord s.bank (id - 0x400) 0) != 0
  let subLink := t.subs.any fun x => x.chip != 0 || x.sChip != 0 || tree x
  if t.stage ≠ 2 then (true, subLink || !s.isHere (gChip o.src))
  else
    let rows := if o.kind = .kvr ∨ o.kind = .kvw then ((List.range o.rows).drop t.nextRow).map (s.rowKinds t o) else []
    (subHold || rows.any (·.1), subLink || rows.any (·.2))

/-- Every item of the macro-op on a unit has arrived; otherwise whether late items involve a hold or a towline (R219). -/
def State.lateKinds (s : State) (n : Nat) (u : UnitId) : Option (Bool × Bool) :=
  match u with
  | .feeder => match s.feedRunning n with
    | some (r, o) => if r.done < o.parts ∨ !r.left.isEmpty then some (false, false) else none
    | none => none
  | .sluice sl => match s.redRunning n sl with
    | some (r, o) => if r.done < o.total ∨ !r.left.isEmpty then some (false, false) else none
    | none => match s.tx n sl, s.sluRunning n sl with
      | some t, some o =>
        if t.complete then none else some (s.missing t o)
      | _, _ => none
  | _ => none

/-- Raise the hold request of a late transfer and log what R347 lists: 0x4002 once for a step, 0x4401 once for the macro-op. -/
def State.lateTransfer (s : State) (n : Nat) (u : UnitId) (hold link : Bool) : State :=
  let step := s.get Reg.FABR_STEP Fld.FABR_STEP.step
  let s := if hold ∧ s.mesh.late4002 ≠ some step then
      ({ s with mesh := { s.mesh with late4002 := some step } }).logCore n 0x4002
    else s
  if hold ∨ link then s.holdOn { cause := if link then .linkLate else .memoryLate, core := n, unit := some u }
  else s.lateAccess n u

/-- The unit's own part of the last beat. -/
def State.unitEnd (s : State) (n : Nat) (u : UnitId) (r : RunOp) : State :=
  match u, opKind (opByte r.desc) with
  | .array, _ => s.mmulEnd n r
  | .vector, some (.vec _) => s.vecEnd n r
  | .sluice _, some (.sred _) => s
  | .sluice sl, _ => (s.delTx n sl).showTx n sl
  | _, _ => s

/-- The hold request of a unit's late items. -/
def unitHold (n : Nat) (u : UnitId) (h : HoldReq) : Bool := h.core == n && h.unit == some u

/-- SLUICE_STAT after the unit is free. -/
def State.showAfter (s : State) (n : Nat) (u : UnitId) : State :=
  match u with
  | .sluice sl => s.showTx n sl
  | _ => s

/-- A barge that arrives at core `n` in the beat in progress waits to be taken: its unit does not judge its items yet (R348). -/
def State.arriving (s : State) (n : Nat) : Bool :=
  s.mesh.inbox.any fun x => agentNum x.agent == n && decide (x.at_ ≤ s.beatOf n)

/-- The macro-op on a unit ends in the beat in progress (R182, R218). -/
def State.lastBeat (s : State) (n : Nat) (u : UnitId) : State :=
  match (s.core n).running u with
  | none => s
  | some r =>
    if !s.inBeat n ∨ s.beatOf n + 1 < r.start + r.cost then s
    else if s.die.holds.any (unitHold n u) then s
    else if u = .array ∧ (s.core n).arrayLate then s.arrayCheck n
    else
      match if r.dead then none else s.lateKinds n u with
      | some (hold, link) => if s.arriving n then s else s.lateTransfer n u hold link
      | none =>
        let s := s.unitEnd n u r
        let r := ((s.core n).running u).getD r
        (s.endOp n u (onXUnit u) r).showAfter n u

/-- MACRO_OP_LAST_BEAT (R182). -/
def execMacroOpLastBeat (core : Fin 256) (unit : UnitId) (s : State) : Out := .next (s.lastBeat core unit)

/-- LATE_ITEM_ARRIVAL (R348, R349): the late reads and writes of an array or feeder are served; a sluice goes on, and its request is
withdrawn once its transfer is complete. -/
def execLateItemArrival (core : Fin 256) (unit : UnitId) (s : State) : Out :=
  let n := core.val
  let off := fun (t : State) => t.holdOff (unitHold n unit)
  if !s.die.holds.any (unitHold n unit) then .next s
  else
    match (s.core n).running unit with
    | none => .next s
    | some _ =>
      let s := match unit with
        | .feeder => match s.feedRunning n with
          | some (r, o) => (List.range (o.parts - r.done + 1)).foldl (fun (t : State) _ => t.feedStep n) s
          | none => s
        | .sluice sl => match s.redRunning n sl with
          | some (r, o) => (List.range ((o.total - r.done) / 1024 + 4)).foldl (fun (t : State) _ => t.redStep n sl) s
          | none => s.sluBeat n sl
        | _ => s
      .next (if (s.lateKinds n unit).isNone then off s else s)

end Sys2Proof.Machine
end

