-- ==== Sys2Proof/Machine/Locks.lean ====
section
/-! DEFINITION. OPENs at their destinations (R254, R301), signals that arrive at a core or a chip, barrier releases and the slots' registers (R324 to R341). -/

namespace Sys2Proof.Machine

/-- OPEN_BARGE (R301). Where it claims a berth, the keeper's grants of the beat come first (R255, R257). -/
def execOpenBarge (a : Agent) (s : State) : Out :=
  match s.takeArrival a fun b => bType b == tyOPEN with
  | some (x, t) =>
    let wait : Bool := match a with
      | .core n => s.inBeat n && s.claimsBerth n x.barge && !s.keeperDone n
      | _ => false
    .next (if wait then s else t.openAt a (s.nodeBeat x.node) x.barge)
  | none => .next s

/-- SYNC_SIGNAL_ARRIVAL (R325): the on-die signals whose apply beat is in progress at the core. -/
def execSyncSignalArrival (core : Fin 256) (s : State) : Out :=
  if s.inBeat core then .next (s.applySync core) else .next s

/-- A release signals the participants whose apply beat is in progress (R336, R338). -/
def State.applyRelease (s : State) (r : Release) : State × Option Release :=
  let due := fun (n : Nat) => decide (r.apply ≤ s.beatOf n) && s.inBeat n
  let t := (r.cores.filter due).foldl (fun (t : State) n => t.signal n r.ctr 1 256 3) s
  let rest := r.cores.filter fun n => !due n
  (t, if rest.isEmpty then none else some { r with cores := rest })

/-- BARRIER_RELEASE (R336): a slot's releases that are due, and a second completion by early bits. -/
def execBarrierRelease (slot : Fin 64) (s : State) : Out :=
  let i := slot.val
  let s := s.slotAgain i
  let mine := s.locks.releases.filter (·.slot == i)
  let s := { s with locks := { s.locks with releases := s.locks.releases.filter (·.slot != i) } }
  .next <| mine.foldl (fun (t : State) r =>
    let (t, rest) := t.applyRelease r
    match rest with
    | some q => { t with locks := { t.locks with releases := t.locks.releases ++ [q] } }
    | none => t) s

/-- Fields of a SIGNAL barge (R333). -/
def sigN (b : Barge) : Nat := payNat b 0 2
def sigIndex (b : Barge) : Nat := payNat b 2 1
def sigKind (b : Barge) : Nat := payNat b 3 1
def sigApply (b : Barge) : Nat := payNat b 4 4
def sigGen (b : Barge) : Nat := payNat b 12 2

/-- The SIGNAL barge of a kind that waits at the LOCK block. -/
def State.takeSignal (s : State) (kind : Nat) : Option (Barge × State) :=
  (s.takeArrival .lock fun b => bType b == tySIGNAL && sigKind b == kind).map fun p => (p.1.barge, p.2)

/-- CHIP_ARRIVAL (R337). -/
def execChipArrival (s : State) : Out :=
  match s.takeSignal 1 with
  | some (b, t) => .next (t.chipArrive (sigIndex b % 64) (sigGen b) (sigApply b))
  | none => .next s

/-- FABRIC_RELEASE (R337): the release waits in the pending store for its apply beat. -/
def execFabricRelease (s : State) : Out :=
  match s.takeSignal 2 with
  | none => .next s
  | some (b, t) => .next (t.pendRelease (sigIndex b % 64) (sigApply b) (hParity.get b.header))

/-- SLOT_ARM (R339). -/
def execSlotArm (slot : Fin 64) (v : Word) (s : State) : Out := .next (s.writeSlotCtrl slot v)

/-- SLOT_DISARM (R339): a write of armed = 0 that leaves the other fields as they are. -/
def execSlotDisarm (slot : Fin 64) (s : State) : Out :=
  .next (s.writeSlotCtrl slot (Fld.LOCK_SLOT_CTRL.armed.set (s.reg (Reg.LOCK_SLOT_CTRL slot)) 0))

/-- A counter signal from another chip reaches the LOCK block (R329 to R332). -/
def State.signalIn (s : State) (b : Barge) : State :=
  let v := hDest.get b.header % 256
  let i := sigIndex b % 32
  let n := s.vmap v
  if s.vgrid ≤ v ∨ !s.xmode n i then s.lost3308 v i (sigN b)
  else if s.die.holds.any (s.waitsOn n i) then s.endWait n i (sigN b)
  else if s.pendFull then s.applyFull [n] i (sigN b)
  else ({ s with locks := { s.locks with pend := s.locks.pend ++
    [(⟨0, n, i, sigN b, sigApply b, hParity.get b.header, [n]⟩ : PendSig)] } }).showPend

/-- SIGNAL_BARGE (R329). -/
def execSignalBarge (s : State) : Out :=
  match s.takeSignal 0 with
  | some (b, t) => .next (t.signalIn b)
  | none => .next s

/-- PENDING_SIGNAL_APPLY (R329). -/
def execPendingSignalApply (core : Fin 256) (s : State) : Out :=
  if s.inBeat core then .next (s.applyPend core (s.pendDue core)) else .next s

end Sys2Proof.Machine
end

