-- ==== Sys2Proof/Machine/Beat.lean ====
section
/-! DEFINITION. The beat token and beat completion (R47 to R62): what every unit of a reach does in a beat, and when the beat is
complete. -/

namespace Sys2Proof.Machine

/-- Beats a reach has completed (R48, R52). -/
def Reach.completed (x : Reach) : Nat := x.beat + if x.complete then 1 else 0

/-- PACE_BEAT: the beats that every reach has completed (R52); it stands while the die is held (R58). -/
def State.showBeat (s : State) : State :=
  let l := (List.range 16).map fun r => (s.reach r).completed
  if s.held then s else s.put Reg.PACE_BEAT Fld.PACE_BEAT.die_beat (l.foldl min (l.headD 0))

/-! ### Throttle (R55, R61, R62, R502, R507) -/

/-- Throttle code of weir `k`. -/
def State.weirCode (s : State) (k : Nat) : Nat := s.get Reg.WEIR_STAT Fld.WEIR_STAT.code / 4 ^ k % 4

/-- The highest code of the weirs that drive a reach (R502, R507). -/
def State.throttleCode (s : State) (r : Nat) : Nat :=
  max (s.weirCode (railOf r)) (max (s.weirCode 4) (s.weirCode 5))

/-- Earliest end of a beat by its throttle code (R61). -/
def State.throttleEnd (s : State) (r : Nat) : Nat :=
  let x := s.reach r
  if x.code = 1 then x.tokenAt + ceilDiv (5 * s.period r) 4
  else if x.code = 2 then x.tokenAt + 2 * s.period r
  else 0

/-! ### The work of a beat -/

/-- Apply `f` to every enabled core of a reach in core-in-reach order. -/
def State.eachCore (s : State) (r : Nat) (f : State → Nat → State) : State :=
  (coresOf r).foldl (fun t n => if t.enabled n then f t n else t) s

/-- Banks and ports are free again, and window bases written in the last beat are in force. -/
def State.newBeat (s : State) (n : Nat) : State :=
  let c := s.core n
  if c.banks.isEmpty ∧ c.portBytes = 0 ∧ c.awaited.isEmpty ∧ c.readGiven.isEmpty ∧ c.oldWin.isEmpty then s
  else s.setCore n { c with banks := [], portBytes := 0, awaited := [], readGiven := [], oldWin := [] }

/-- The units of a reach do the work of the beat that has begun, in the priority of R248 and, between cores, in core-in-reach
order (R243). -/
def State.beatWork (s : State) (r : Nat) : State :=
  let s := s.eachCore r State.newBeat
  let s := s.eachCore r State.arrayBeat
  let s := s.eachCore r State.reserveIngress
  let s := (s.eachCore r State.feedBeat).eachCore r State.wsServe
  let s := s.eachCore r fun t n => (List.range 4).foldl (fun u sl => u.sluiceBeat n sl) t
  s.eachCore r State.reserveRead

/-- Triggers that waited for a beat arrive in it (R557). -/
def State.arriveTriggers (s : State) (b : Nat) : State :=
  let due := s.diag.triggers.filter fun t => decide (t.notBefore ≤ s.now)
  let rest := s.diag.triggers.filter fun t => !decide (t.notBefore ≤ s.now)
  due.foldl (fun (u : State) t => u.capture t.source t.code b) { s with diag := { s.diag with triggers := rest } }

/-- The step-match source (R557), judged in the reach of the lowest-numbered core in step. -/
def State.stepMatch (s : State) (r : Nat) : State :=
  match (List.range 256).find? fun n => s.coreState n == stRunning && s.inStep n with
  | some n =>
    if reachOf n = r ∧ s.reg (Reg.STEP_REC n 0) = s.reg Reg.SNAP_MATCH ∧
       s.stepBeat n = s.get Reg.SNAP_MATCH_BEAT Fld.SNAP_MATCH_BEAT.step_beat then s.trigger 1 0 (s.beatOf n)
    else s
  | none => s

/-- Count a stretch (R56); the time the die was held is none of it. -/
def State.stretch (s : State) (r : Nat) : State :=
  let x := s.reach r
  let late := s.now - x.tickAt - (s.die.heldPs - x.heldAtTick)
  if late = 0 then s
  else
    let a := Reg.PACE_STRETCH r
    let s := s.addTo a Fld.PACE_STRETCH.stretched_beats 1
    let s := s.addTo a Fld.PACE_STRETCH.stretch_ns ((x.stretchPs + late) / 1000)
    s.setReach r { x with stretchPs := (x.stretchPs + late) % 1000 }

/-- The pacer of reach `r` may issue its next token (R49, R51, R59). -/
def State.tokenReady (s : State) (r : Nat) : Bool :=
  let x := s.reach r
  x.ticked && x.complete && !s.held && !x.stopped &&
  (adjacent r).all fun q => decide (x.beat ≤ (s.reach q).completed)

/-- The next token of reach `r` (R47, R49, R56, R62, R67). -/
def State.token (s : State) (r : Nat) (codes : List Byte) : State :=
  if !s.tokenReady r then s
  else
    let s := (s.advanceTo (s.throttleEnd r)).stretch r
    let x := s.reach r
    let b := x.beat + 1
    let s := s.setReach r { x with
      beat := b, tokenAt := s.now, ticked := false, complete := false, code := s.throttleCode r }
    let s := (s.arriveTriggers b).showBeat.slotsDrain
    (((s.measure r codes).beatWork r).fillWork).stepMatch r

/-! ### Completion (R48, R347, R348) -/

/-- The commands of core `n` that a beat of its reach waits for. -/
def coreWork (n : Fin 256) : List (State → Out) :=
  keeperWork n ++ [ execNarrowAccessServe n ] ++
  [ execMmul n, execLmmul n, execXnop n, execAnop n, execLvector n, execFload n, execFstore n, execLload n, execLstore n,
    execScopy n, execScast n, execSkvr n, execSkvw n, execSred n, execLcopy n,
    fun s => .next (s.startVec n false fun _ => true) ] ++
  [ execMacroOpLastBeat n .array, execMacroOpLastBeat n .vector, execMacroOpLastBeat n .feeder,
    execMacroOpLastBeat n (.sluice 0), execMacroOpLastBeat n (.sluice 1), execMacroOpLastBeat n (.sluice 2),
    execMacroOpLastBeat n (.sluice 3) ] ++
  [ execSyncSignalArrival n, execPendingSignalApply n, execIngressWrite n, execWeightStoreWrite n,
    fun s => .next (s.serveReads (.core n)), execOpenBarge (.core n), execDataBarge (.core n), execReadBarge (.core n),
    execAbortBarge (.core n) ] ++
  ((List.finRange 4).map fun sl => execGrant n sl) ++ ((List.finRange 4).map fun sl => execRefuse n sl) ++
  ((List.finRange 4).map fun sl => execAckBarge n sl)

/-- The commands of router `n`. -/
def nodeWork (n : Fin 256) : List (State → Out) :=
  [ execBargeForward n .north, execBargeForward n .south, execBargeForward n .east, execBargeForward n .west,
    execBargeForward n .edge, execBargeForward n .localPort ]

/-- Every combined reply of a reach's routers that is due has been sent (R308). -/
def State.repliesSent (s : State) (r : Nat) : Bool :=
  (s.mesh.mcast.filter fun e => reachOf e.node == r).all fun e => s.combine e.node e.id == s

/-- Every barrier release that a reach's cores are due has been applied (R336). -/
def State.releasesDone (s : State) (r : Nat) : Bool :=
  s.locks.releases.all fun x => !(x.cores.any fun n => reachOf n == r && decide (x.apply ≤ s.beatOf n))

/-- An agent off the grid takes a class-3 barge by a command of its own. -/
def takesClass3 (a : Agent) (b : Barge) : Bool :=
  match a with
  | .core _ => false
  | .lock => bType b == tySIGNAL
  | .stepUnit => bType b == tySTEP
  | .regPath => bType b == tyREG
  | .ethernet _ => bType b == tyGRANT || bType b == tyREFUSE || bType b == tyACK
  | .hold _ => bType b == tyOPEN || bType b == tyREAD || bType b == tyABORT
  | _ => false

/-- Every class-3 barge at the stations of a reach's routers has been consumed in the beat of its arrival (R293). -/
def State.stationsDone (s : State) (r : Nat) : Bool :=
  s.mesh.inbox.all fun x => !(reachOf x.node == r && takesClass3 x.agent x.barge && decide (x.at_ ≤ s.nodeBeat x.node))

/-- Nothing is left to do in the beat in progress of a reach: every included block has raised done (R47, R48). -/
def State.workDone (s : State) (r : Nat) : Bool :=
  ((coresOf r).all fun n =>
    let m : Fin 256 := ⟨n % 256, Nat.mod_lt _ (by decide)⟩
    (nodeWork m).all (fun f => idleOn f s) && (!s.enabled n || (coreWork m).all fun f => idleOn f s)) &&
  s.repliesSent r && s.releasesDone r && s.stationsDone r

/-- The counter that the head of a stream waits on, where the lock alone keeps it from starting (R181, R331). -/
def State.headWaits (s : State) (n : Nat) (onX : Bool) : Option (Nat × UnitId) :=
  match (s.core n).fifo onX with
  | d :: _ =>
    match opKind (opByte d) with
    | some k =>
      if s.orderOk n onX d ∧ s.popsOk n onX d ∧ (s.refusal n onX d).isNone ∧ !s.preOk n onX d then some ((dPre d).index, k.unit)
      else none
    | none => none
  | [] => none

/-- Waits of core `n` whose beat is a due beat: a counter of cross-chip signals with none pending (R331, R347). -/
def State.xwaits (s : State) (n : Nat) : List HoldReq :=
  let miss := fun (i : Nat) => s.xmode n i && !s.hasPend n i
  let keep : List HoldReq := match (s.core n).kwait with
    | .lwait i _ => if miss i then [{ cause := .linkLate, core := n, unit := none }] else []
    | _ => []
  let head := fun (onX : Bool) => match s.headWaits n onX with
    | some (i, u) => if miss i then [({ cause := .linkLate, core := n, unit := some u } : HoldReq)] else []
    | none => []
  keep ++ head false ++ head true

/-- An item of a core of the reach is missing (R347, R348). -/
def State.itemMissing (s : State) (r : Nat) : Bool :=
  s.die.holds.any fun h => decide (h.core < 256) && reachOf h.core == r &&
    (match h.cause with
     | .memoryLate => true
     | .linkLate => true
     | .record => true
     | _ => false)

/-- The contenders of core `n` that the order of R317 alone left unserved are reported in strict mode (R318). -/
def State.contentions (s : State) (n : Nat) : State :=
  let start := fun (i : Nat) => s.lockCount n i + smGet 0 (s.core n).served i
  let head := fun (t : State) (onX : Bool) => match s.headWaits n onX with
    | some (i, _) =>
      let k := match (s.core n).fifo onX with
        | d :: _ => (dPre d).n
        | [] => 0
      if k ≤ start i then t.contended n i (issuerNum (issuerOf onX)) k else t
    | none => t
  let t := head (head s false) true
  match (s.core n).kwait with
  | .lwait i k => if k ≤ start i then t.contended n i 2 k else t
  | _ => t

/-- A beat in which the head of a stream could not start for a lock or a queue (R208); one in which its unit is busy as well is not
counted (log entry 31). -/
def State.countWait (s : State) (n : Nat) (onX : Bool) : State :=
  match (s.core n).fifo onX with
  | d :: _ => if s.orderOk n onX d then s.addTo (streamStat n onX) Fld.XSTREAM_STAT.wait_beats 1 else s
  | [] => s

/-- A halt written in the beat found the keeper's wait about to be served, and it was not: the instruction is abandoned (R602). -/
def State.haltWait (s : State) (n : Nat) : State :=
  let c := s.core n
  if c.haltReq && c.kwait != .none && s.abandons n c.kwait then s.enterHalted n else s

/-- The end of a beat in a core: waits counted, signals joined to their counters (R317), pushes that found no room (R187), and the writes
that the beat's reads do not see (R152, R261). -/
def State.endBeat (s : State) (n : Nat) : State :=
  let s := (s.contentions n).haltWait n
  let s := (s.countWait n false).countWait n true
  let s := (s.foldSigs n).latePushes n true
  (if (s.core n).contd.isEmpty then s else s.setCore n { s.core n with contd := [] }).flushWrites n

/-- Completion of the beat in progress of reach `r` (R48, R51): a missing item holds the die instead (R331, R348), and the beat then
completes when the last hold request of any cause is withdrawn (R349). -/
def State.completeBeat (s : State) (r : Nat) : State :=
  let x := s.reach r
  if x.complete ∨ !((adjacent r).all fun q => decide (x.beat ≤ (s.reach q).completed)) ∨ !s.workDone r then s
  else
    let waits := (coresOf r).flatMap fun n => if s.enabled n then s.xwaits n else []
    let t := (waits.foldl State.holdOn s).eachCore r State.arrayCheck
    if t.itemMissing r then t.setReach r { t.reach r with withheld := true }
    else if x.withheld && t.held then t
    else
      let t := t.eachCore r State.endBeat
      (t.setReach r { t.reach r with complete := true, withheld := false }).showBeat

/-- BEAT_COMPLETE (R48). -/
def execBeatComplete (r : Fin 16) (s : State) : Out := .next (s.completeBeat r)

end Sys2Proof.Machine
end

