-- ==== Sys2Proof/Machine/Program.lean ====
section
/-! DEFINITION. Program start (R364), the DTRM block's writes (R365), the hold watchdog (R351, R352) and crossbar mode (R313). -/

namespace Sys2Proof.Machine

/-! ### Crossbar mode (R313) -/

/-- A reach whose bit a write of MESH_MODE may not change or set. -/
def State.modeRefused (s : State) (old new r : Nat) : Bool :=
  (old.testBit r != new.testBit r && (coresOf r).any fun n => busyState (s.coreState n)) ||
  (new.testBit r && (coresOf r).any fun n => !s.enabled n)

/-- A write of MESH_MODE, with the code logged where it is discarded (R313). -/
def State.writeMeshMode (s : State) (v : Word) : State × Nat :=
  let old := s.get Reg.MESH_MODE Fld.MESH_MODE.xbar
  let new := Fld.MESH_MODE.xbar.get v
  if (List.range 16).any (s.modeRefused old new) then (s.logErr { code := 0x3409 }, 0x3409)
  else (s.plainWrite Reg.MESH_MODE v, 0)

/-- MESH_MODE_WRITE (R313). -/
def execMeshModeWrite (v : Word) (s : State) : Out := .next (s.writeMeshMode v).1

/-! ### Program start (R189, R195, R364, R406) -/

/-- A LOADED core begins its program: arm clears (R204), keeper registers (R195), empty queues and FIFOs (R189). -/
def State.startCore (s : State) (n : Nat) : State :=
  let c := s.core n
  let v := (s.vcoreOf n).getD 0
  let x := ((List.replicate 32 (0 : W32)).set 10 (BitVec.ofNat 32 v)).set 11 (BitVec.ofNat 32 s.vgrid)
  let s := s.setCore n { c with
    x := x, kAt := 0, kwait := .none, kstep := false, haltReq := false, instret := 0, latch := none, hbuf := none
    menu := none, queues := List.replicate 8 [], qseq := List.replicate 8 0, qlate := [], aFifo := [], xFifo := []
    aStart := none, xStart := none, aIssue := none, xIssue := none, freed := [], sigs := [], served := [], contd := [], nextRec := none, stepBeat0 := 0
    readyFor := none }
  ((s.put (Reg.CORE_STAT n) Fld.CORE_STAT.state stRunning).put (Reg.CORE_CTRL n) Fld.CORE_CTRL.arm 0).refresh n

/-- Clear the counters of a core that count from program start (R364). -/
def State.clearCounts (s : State) (n : Nat) : State :=
  let s := s.put (Reg.ARRAY_STAT n) Fld.ARRAY_STAT.op_count 0
  let s := s.put (Reg.VEC_STAT n) Fld.VEC_STAT.op_count 0
  (List.range 4).foldl (fun t sl => t.put (Reg.SLUICE_STAT n sl) Fld.SLUICE_STAT.started 0) s

/-- Program start may act (R364). -/
def State.mayStart (s : State) : Bool := !s.anyBusy && (List.range 256).any fun n => s.coreState n == stLoaded

/-- What is on the mesh when the beats start again from 0 has come by beat 0; slots whose transfers are done are free, and what was used in
an earlier beat is. -/
def State.restartMesh (s : State) : State :=
  let m := s.mesh
  { s with
    cores := s.cores.map fun e => (e.1, { e.2 with narrowAt := none, pathAt := none })
    die := { s.die with regQ := s.die.regQ.map fun x => { x with beat := 0, after := 0 } }
    mesh := { m with
      late4002 := none, moved := [], left := [], inj := [], wsWrote := []
      flits := m.flits.map fun f => { f with at_ := 0 }
      inbox := m.inbox.map fun a => { a with at_ := 0 }
      landing := m.landing.filter fun e => e.2.doneAt.isNone
      mcast := m.mcast.map fun e => { e with
        grants := e.grants.map fun g => (g.1, g.2.1, 0), acks := e.acks.map fun a => (a.1, a.2.1, 0) } }
    fabric := { s.fabric with ports := s.fabric.ports.map fun e => (e.1, { e.2 with tx := e.2.tx.map fun x => (0, x.2) }) } }

/-- With no record waiting, the first that comes is in order (R406). -/
def State.firstRecord (s : State) : State :=
  if s.fabric.records.isEmpty then { s with fabric := { s.fabric with lastRec := none } } else s

/-- The first step of a program is the one after FABR_STEP: at the leader, those before it are no longer awaited (R404). -/
def State.firstStep (s : State) : State :=
  let t := s.get Reg.FABR_STEP Fld.FABR_STEP.step + 1
  let f := s.fabric
  if f.oldest = t then s
  else
    { s with fabric := { f with
        oldest := t, ready := f.ready.filter fun e => decide (t ≤ e.1), firstAt := f.firstAt.filter fun e => decide (t ≤ e.1)
        stalled := none } }

/-- Program start (R364, R406); the die is at work (R521). -/
def State.startProgram (s : State) : State :=
  let loaded := (List.range 256).filter fun n => s.coreState n == stLoaded
  let s := ((List.range 256).foldl State.flushWrites s).restartBeats
  let s := s.setReg Reg.DTRM_STAT 0
  let s := (List.range 256).foldl State.clearCounts s
  let s := s.put Reg.FABR_STEP_STAT Fld.FABR_STEP_STAT.aligned 1
  let s := s.restartMesh.firstStep.firstRecord.atWork
  loaded.foldl State.startCore s

/-- A write of DTRM_CTRL: strict first, then start (R364, R365). -/
def State.writeDtrmCtrl (s : State) (v : Word) : State × Nat :=
  let busy := s.anyBusy
  let start := Fld.DTRM_CTRL.start.get v == 1
  let t := if busy then s else s.put Reg.DTRM_CTRL Fld.DTRM_CTRL.strict (Fld.DTRM_CTRL.strict.get v)
  if start && t.mayStart then (t.startProgram, 0)
  else if busy || start then (t.logErr { code := 0x3010 }, 0x3010)
  else (t, 0)

/-- PROGRAM_START (R364): DTRM_CTRL written with start = 1 and strict as it stands. -/
def execProgramStart (s : State) : Out :=
  .next (s.writeDtrmCtrl (Fld.DTRM_CTRL.start.set (s.reg Reg.DTRM_CTRL) 1)).1

/-- A write of DTRM_WDOG: a limit below 100,000 ns is stored as 100,000 (R373). -/
def State.writeWdog (s : State) (v : Word) : State :=
  s.plainWrite Reg.DTRM_WDOG (Fld.DTRM_WDOG.limit_ns.set v (max 100000 (Fld.DTRM_WDOG.limit_ns.get v)))

/-- A write of a register of the DTRM block by its offset (R365, R373). -/
def State.writeDtrm (s : State) (o : Nat) (v : Word) : State × Nat :=
  let a := Reg.DTRM_CTRL + o
  if o = 0 then s.writeDtrmCtrl v
  else if a = Reg.DTRM_WDOG then (s.writeWdog v, 0)
  else if (regRow a).isNone ∨ a = Reg.DTRM_STAT ∨ a = Reg.DTRM_STEP_STAT then (s.plainWrite a v, 0)
  else if s.anyBusy then (s.logErr { code := 0x3010 }, 0x3010)
  else (s.plainWrite a v, 0)

/-- DTRM_WRITE (R365). -/
def execDtrmWrite (off : BitVec 16) (v : Word) (s : State) : Out := .next (s.writeDtrm off.toNat v).1

/-! ### The hold watchdog (R351, R352) -/

/-- The missing items of a unit are abandoned: its transfer ends as a refused one does (R352). -/
def State.abandon (s : State) (h : HoldReq) : State :=
  match h.unit with
  | none => s
  | some u =>
    let s := s.modRun h.core u fun r => { r with dead := true }
    match u with
    | .sluice sl => match s.tx h.core sl with
      | some t => s.setTx h.core sl { t with subs := [], nextRow := 2 ^ 16, stage := 2, complete := true }
      | none => s
    | _ => s

/-- WATCHDOG_FIRE (R351, R352): the interval of a hold with missing items reaches the limit. -/
def execWatchdogFire (s : State) : Out :=
  match s.die.wdogFrom with
  | none => .next s
  | some t =>
    let s := s.advanceTo (t + 1000 * s.get Reg.DTRM_WDOG Fld.DTRM_WDOG.limit_ns)
    let items := s.die.holds.filter HoldReq.isItem
    let cores := (items.map (·.core)).eraseDups
    let s := s.logErr { code := 0x4001, core := cores.head? }
    let s := s.addSat Reg.DTRM_WDOG Fld.DTRM_WDOG.fires 1
    let s := s.put Reg.DTRM_STAT Fld.DTRM_STAT.watchdog 1
    let s := items.foldl State.abandon s
    let s := cores.foldl (fun t n => t.faultCore n 0x4001) s
    .next (s.holdOff HoldReq.isItem)

end Sys2Proof.Machine
end

