-- ==== Sys2Proof/Machine/Towline.lean ====
section
/-! DEFINITION. Towline lanes and ports: the port map, training, going down, HELLO, and the notices to the fabric manager
(R374 to R376, R384 to R388, R400, R401, R413). -/

namespace Sys2Proof.Machine

/-! ### Ports and their lanes (R375) -/

/-- Lanes of a port map word, lowest first. -/
def mapLanes (w : Word) : List Nat :=
  (List.range (2 ^ Fld.TOWL_PORT_MAP.width.get w)).map (Fld.TOWL_PORT_MAP.base.get w + ·)

/-- Lanes of port `p`. -/
def State.lanes (s : State) (p : Nat) : List Nat := mapLanes (s.reg (Reg.TOWL_PORT_MAP p))

/-- Port `p` is formed. -/
def State.portOn (s : State) (p : Nat) : Bool := s.get (Reg.TOWL_PORT_MAP p) Fld.TOWL_PORT_MAP.enable == 1

/-- The enabled port that a lane belongs to. -/
def State.portOfLane (s : State) (l : Nat) : Option Nat :=
  (List.range 48).find? fun p => s.portOn p && (s.lanes p).contains l

/-- State of a port (R385). -/
def State.portState (s : State) (p : Nat) : Nat := s.get (Reg.TOWL_PORT_STAT p) Fld.TOWL_PORT_STAT.state

def pDisabled : Nat := 0
def pDown : Nat := 1
def pTraining : Nat := 2
def pLinked : Nat := 3
def pActive : Nat := 4

/-- A port carries link-management flits. -/
def State.portUp (s : State) (p : Nat) : Bool := s.portState p == pLinked || s.portState p == pActive

/-- A port sends and takes frames: LINKED, ACTIVE, or trained and waiting for the first HELLO (R386). -/
def State.framesFlow (s : State) (p : Nat) : Bool :=
  s.portUp p || (s.portState p == pTraining && (s.port p).trained)

/-- Lowest lane of a port. -/
def State.lowLane (s : State) (p : Nat) : Nat := s.get (Reg.TOWL_PORT_MAP p) Fld.TOWL_PORT_MAP.base

/-! ### Notices (R401) -/

/-- A notice finds its place in this chip's FABR_EVQ, or is lost. -/
def State.evqPush (s : State) (w : Word) : State :=
  if 64 ≤ s.fabric.evq.length then s.hwSet Reg.FABR_EVQ Fld.FABR_EVQ.lost 1
  else { s with fabric := { s.fabric with evq := s.fabric.evq ++ [w] } }

/-- Report a link event to the fabric manager; with no manager there is no one to report to (log entry 18). -/
def State.notice (s : State) (lane code : Nat) : State :=
  let mgr := s.get Reg.FABR_ADDR Fld.FABR_ADDR.mgr
  let w : Word := Fld.FABR_EVQ.lane.set (Fld.FABR_EVQ.chip.set (Fld.FABR_EVQ.code.set (Fld.FABR_EVQ.step.set
    (Fld.FABR_EVQ.valid.set 0 1) (s.get Reg.FABR_STEP Fld.FABR_STEP.step)) code) s.chipAddr) lane
  if s.get Reg.FABR_ADDR Fld.FABR_ADDR.mgr_here = 1 ∨ (mgr ≠ 0 ∧ mgr = s.chipAddr) then s.evqPush w
  else if mgr = 0 then s
  else s.sendReg mgr Reg.FABR_EVQ w 1 0

/-- Bits that a written notice holds (R18, R414). -/
def evqMask : Word :=
  Fld.FABR_EVQ.valid.mask ||| Fld.FABR_EVQ.lane.mask ||| Fld.FABR_EVQ.chip.mask ||| Fld.FABR_EVQ.code.mask ||| Fld.FABR_EVQ.step.mask

/-- The queue head that FABR_EVQ shows (R414). -/
def State.evqShown (s : State) : Word :=
  Fld.FABR_EVQ.lost.set (s.fabric.evq.headD 0) (s.get Reg.FABR_EVQ Fld.FABR_EVQ.lost)

/-- A read of FABR_EVQ pops the oldest notice (R414). -/
def State.readEvq (s : State) : State × Word :=
  ({ s with fabric := { s.fabric with evq := s.fabric.evq.drop 1 } }.setReg Reg.FABR_EVQ s.evqShown, s.evqShown)

/-- FABR_EVQ_READ (R414). -/
def execFabrEvqRead (s : State) : Out := .next s.readEvq.1

/-! ### Changes of state (R385, R386, R400) -/

/-- Set the state of every lane of a port (R413). -/
def State.laneStates (s : State) (p st : Nat) : State :=
  (s.lanes p).foldl (fun t l => t.put (Reg.TOWL_LANE_STAT l) Fld.TOWL_LANE_STAT.state st) s

/-- The follower's parent or backup port has left ACTIVE: without either it runs free (R409). -/
def State.timeLost (s : State) : State :=
  let c := Reg.FABR_TIME_CFG
  let parent := s.get c Fld.FABR_TIME_CFG.parent
  if s.get c Fld.FABR_TIME_CFG.master = 1 ∨ parent = 0x3F ∨ s.portActive parent ∨
     s.portActive (s.get c Fld.FABR_TIME_CFG.backup) then s
  else ({ s with fabric := { s.fabric with goodTime := 0, slew := 0 } }.put c Fld.FABR_TIME_CFG.synced 0).logErr { code := 0x5908 }

/-- Probes of the fabric manager by a port that carries none any more are given up. -/
def State.dropScouts (s : State) (p : Nat) : State :=
  let f := s.fabric
  let by_ := fun (x : Scout) => x.route.headD 48 == p
  if f.scouts.any by_ then
    { s with fabric := { f with
        scouts := f.scouts.filter (!by_ ·), scouting := f.scouting && !(f.scouts.take 1).any by_ } }
  else s

/-- A port enters a state; leaving ACTIVE it loses its retry buffer and its active bit (R385, R400). -/
def State.enterState (s : State) (p st : Nat) : State :=
  let was := s.portActive p
  let s := s.put (Reg.TOWL_PORT_STAT p) Fld.TOWL_PORT_STAT.state st
  let x := s.port p
  let s := s.setPort p { x with since := s.now, retry := if was then [] else x.retry }
  let s := if st = pTraining then s else { s with toll := { s.toll with trying := s.toll.trying.filter (· != p) } }
  let s := if st = pLinked ∨ st = pActive then s else s.dropScouts p
  if was then
    let s := s.put (Reg.TOWL_PORT_MAP p) Fld.TOWL_PORT_MAP.active 0
    let c := Reg.FABR_TIME_CFG
    if s.get c Fld.FABR_TIME_CFG.parent = p ∨ s.get c Fld.FABR_TIME_CFG.backup = p then s.timeLost else s
  else s

/-- A port goes down: every lane with it (R384). -/
def State.portDown (s : State) (p : Nat) (trainFail : Bool) : State :=
  let s := (s.laneStates p 1)
  let s := (s.lanes p).foldl (fun t l => t.addSat (Reg.TOWL_LANE_STAT l) Fld.TOWL_LANE_STAT.downs 1) s
  let s := s.enterState p pDown
  s.setPort p { s.port p with trainFail := trainFail, trained := false, retry := [] }

/-- A port down by a cause of R384, logged and reported for a lane. -/
def State.portLost (s : State) (p lane : Nat) : State :=
  let s := s.portDown p false
  ((s.setPort p { s.port p with lost := [lane] }).logErr { code := 0x5901, aux := lane }).notice lane 0x5901

/-- Training begins on all lanes of a port (R386); none after a failure of boot (R530). -/
def State.startTraining (s : State) (p : Nat) : State :=
  if s.bootFailed then s else
  let s := (s.enterState p pTraining).laneStates p 2
  s.setPort p { s.port p with trained := false, trainFail := false, retry := [], lost := [] }

/-- A trained port starts its frames from 0 with full credit (R381, R386). -/
def State.startFrames (s : State) (p : Nat) : State :=
  let w := (s.lanes p).length
  s.setPort p { s.port p with
    trained := true, fseq := 0, good := 4095, nakOwed := false, retry := [], resend := none, lastNak := 0
    resends := 0, credit := [32 * w, 32 * w, 32 * w, 16 * w], freed := [0, 0, 0, 0], lastHello := s.now, helloAt := s.now }

/-- A lane loses signal (R384): its port goes down; each lane of it that has lost signal is logged, once until it trains again. -/
def State.laneLost (s : State) (l : Nat) : State :=
  match s.portOfLane l with
  | some p =>
    let x := s.port p
    if s.framesFlow p then s.portLost p l
    else if s.portState p = pDown ∧ !x.trainFail ∧ !x.lost.contains l then
      ((s.setPort p { x with lost := l :: x.lost }).logErr { code := 0x5901, aux := l }).notice l 0x5901
    else s
  | none => s

/-- LANE_SIGNAL_LOSS (R384). -/
def execLaneSignalLoss (l : Fin 96) (s : State) : Out := .next (s.laneLost l)

/-- HELLO_TIMEOUT (R384): 3 ms after the last HELLO. -/
def execHelloTimeout (p : Fin 48) (s : State) : Out :=
  if s.portUp p then .next ((s.advanceTo ((s.port p).lastHello + 3000000000)).portLost p (s.lowLane p)) else .next s

/-- A write of retrain for a lane puts its port into TRAINING (R385). -/
def State.retrainLane (s : State) (l : Nat) : State :=
  match s.portOfLane l with
  | some p => s.startTraining p
  | none => s

/-- RETRAIN (R385). -/
def execRetrain (l : Fin 96) (s : State) : Out := .next (s.retrainLane l)

/-- A write of TOWL_LANE_CTRL_l (R385, R413), with the code logged where it is discarded: every lane of an enabled port stays enabled
(R375). -/
def State.writeLaneCtrl (s : State) (l : Nat) (v : Word) : State × Nat :=
  match s.portOfLane l with
  | some p =>
    if Fld.TOWL_LANE_CTRL.enable.get v = 0 then (s.logErr { code := 0x5905, aux := p }, 0x5905)
    else
      let s := s.plainWrite (Reg.TOWL_LANE_CTRL l) v
      (if Fld.TOWL_LANE_CTRL.retrain.get v = 1 then s.retrainLane l else s, 0)
  | none => (s.plainWrite (Reg.TOWL_LANE_CTRL l) v, 0)

/-- AUTO_RETRAIN (R385): a port whose lanes all have auto set (log entry 18). -/
def execAutoRetrain (p : Fin 48) (s : State) : Out :=
  let auto := (s.lanes p).all fun l => s.get (Reg.TOWL_LANE_CTRL l) Fld.TOWL_LANE_CTRL.auto == 1
  if s.portOn p ∧ s.portState p = pDown ∧ auto then
    let x := s.port p
    .next ((s.advanceTo (x.since + (if x.trainFail then 500000000000 else 1000000000))).startTraining p)
  else .next s

/-- The partner lanes that a port learnt form one port of its width (R376). -/
def partnersOk (w : Nat) (ls : List Nat) : Bool :=
  let base := ls.foldl min (ls.headD 0)
  ls.length == w && base % w == 0 && (List.range w).all fun i => ls.contains (base + i)

/-- The lanes that a port's lanes face belong to one port of one chip (R376). -/
def onePartner (l : List LaneFace) : Bool :=
  l.all fun x => l.all fun y => x.serial == y.serial && x.port == y.port

/-- TRAINING_COMPLETE (R386): each lane records the partner lane it faces; lanes that face more than one port or chip fail training
(R376). -/
def execTrainingComplete (p : Fin 48) (partner : List LaneFace) (s : State) : Out :=
  let ls := partner.map (·.lane.val)
  if s.portState p ≠ pTraining ∨ (s.port p).trained then .next s
  else if partnersOk (s.lanes p).length ls && onePartner partner then
    let s := (s.laneStates p 3)
    let s := ((s.lanes p).zip ls).foldl (fun t x => t.put (Reg.TOWL_LANE_STAT x.1) Fld.TOWL_LANE_STAT.partner_lane x.2) s
    .next (s.startFrames p)
  else .next (s.portDown p true)

/-- TRAINING_TIMEOUT (R386): 300 ms after training began. -/
def execTrainingTimeout (p : Fin 48) (s : State) : Out :=
  if s.portState p = pTraining then .next ((s.advanceTo ((s.port p).since + 300000000000)).portDown p true) else .next s

/-! ### The port map (R375, R385) -/

/-- A map word forms a port that R375 allows. -/
def State.mapOk (s : State) (p : Nat) (v : Word) : Bool :=
  let base := Fld.TOWL_PORT_MAP.base.get v
  let w := 2 ^ Fld.TOWL_PORT_MAP.width.get v
  let ls := mapLanes v
  decide (base % w = 0) && decide (base + w ≤ 96) && (decide (48 ≤ base) || decide (base + w ≤ 48)) &&
  (ls.all fun l => s.get (Reg.TOWL_LANE_CTRL l) Fld.TOWL_LANE_CTRL.enable == 1) &&
  (List.range 48).all fun q => q == p || !s.portOn q || (s.lanes q).all fun l => !ls.contains l

/-- The write keeps the port as it is formed. -/
def State.sameMap (s : State) (p : Nat) (v : Word) : Bool :=
  let m := s.reg (Reg.TOWL_PORT_MAP p)
  Fld.TOWL_PORT_MAP.base.get v == Fld.TOWL_PORT_MAP.base.get m && Fld.TOWL_PORT_MAP.width.get v == Fld.TOWL_PORT_MAP.width.get m &&
  s.portOn p && Fld.TOWL_PORT_MAP.enable.get v == 1

/-- A refused map or state write. -/
def State.refuse5905 (s : State) (p : Nat) : State × Nat := (s.logErr { code := 0x5905, aux := p }, 0x5905)

/-- A port enabled while the holds and ports still train makes its first attempt, which Ready waits for (R529). -/
def State.firstTry (s : State) (p : Nat) : State :=
  if s.get Reg.TOLL_BOOT Fld.TOLL_BOOT.phase = 6 then
    { s with toll := { s.toll with trying := s.toll.trying.filter (· != p) ++ [p] } }
  else s

/-- A write of TOWL_PORT_MAP_p, with the code logged where it is discarded (R375, R385). A write of active = 1 is for the port as
it is formed (log entry 18). -/
def State.writePortMap (s : State) (p : Nat) (v : Word) : State × Nat :=
  let a := Reg.TOWL_PORT_MAP p
  let en := Fld.TOWL_PORT_MAP.enable.get v == 1
  let act := Fld.TOWL_PORT_MAP.active.get v == 1
  if s.portState p = pActive then s.refuse5905 p
  else if act then
    if s.portState p = pLinked ∧ s.sameMap p v then ((s.plainWrite a v).enterState p pActive, 0) else s.refuse5905 p
  else if en && !s.mapOk p v then s.refuse5905 p
  else
    -- a port that is unformed or formed anew leaves its lanes
    let s := if s.portOn p then s.laneStates p 0 else s
    let s := s.plainWrite a v
    if en then ((s.startTraining p).firstTry p, 0)
    else
      let s := s.enterState p pDisabled
      (s.setPort p { s.port p with trained := false, retry := [] }, 0)

/-- PORT_MAP_WRITE (R375). -/
def execPortMapWrite (p : Fin 48) (v : Word) (s : State) : Out := .next (s.writePortMap p v).1

/-- PORT_ACTIVE_WRITE (R385): the map written back with active = 1. -/
def execPortActiveWrite (p : Fin 48) (s : State) : Out :=
  .next (s.writePortMap p (Fld.TOWL_PORT_MAP.active.set (s.reg (Reg.TOWL_PORT_MAP p)) 1)).1

/-! ### Link-management messages (R387) -/

/-- Place a field of `w` bits whose highest bit is body bit `hi`. -/
def lmField (hi w v : Nat) : Nat := v % 2 ^ w * 2 ^ (hi + 1 - w)

/-- The body of a HELLO. -/
def helloBody (m : HelloMsg) : BitVec 604 :=
  BitVec.ofNat 604 (lmField 603 8 1 + lmField 595 64 m.serial.toNat + lmField 531 2 m.role.toNat + lmField 529 16 m.addr.toNat +
    lmField 513 16 m.mgr.toNat + lmField 497 32 m.epoch.toNat + lmField 465 6 m.port.toNat + lmField 459 7 m.lane.toNat)

/-- The body of a TIME message. -/
def timeBody (sub ta tb tc : Nat) : BitVec 604 :=
  BitVec.ofNat 604 (lmField 603 8 2 + lmField 595 2 sub + lmField 593 64 ta + lmField 529 64 tb + lmField 465 64 tc)

/-- The body of a PROBE. -/
def probeBody (m : ProbeMsg) : BitVec 604 :=
  BitVec.ofNat 604 (lmField 603 8 3 + lmField 595 4 m.hops.toNat + lmField 591 4 m.index.toNat + lmField 587 90 m.route.toNat +
    lmField 497 90 m.ret.toNat + lmField 407 4 m.op.toNat + lmField 403 16 m.newAddr.toNat + lmField 387 16 m.mgr.toNat +
    lmField 371 32 m.epoch.toNat)

/-- The body of a PROBE_REPLY. -/
def replyBody (m : ProbeReplyMsg) : BitVec 604 :=
  BitVec.ofNat 604 (lmField 603 8 4 + lmField 595 4 m.hops.toNat + lmField 591 4 m.index.toNat + lmField 587 90 m.ret.toNat +
    lmField 497 64 m.serial.toNat + lmField 433 2 m.role.toNat + lmField 431 16 m.addr.toNat + lmField 415 48 m.linked.toNat +
    lmField 367 16 m.result.toNat)

/-- Queue a link-management message at a port that carries them. -/
def State.sendLm (s : State) (p : Nat) (body : BitVec 604) : State :=
  if p < 48 ∧ s.framesFlow p then s.setPort p { s.port p with lm := (s.port p).lm ++ [body] } else s

/-- Store a table word. -/
def State.setTable (s : State) (k : Nat) (w : Word) : State :=
  { s with fabric := { s.fabric with tables := if w = 0 then smDel s.fabric.tables k else smPut s.fabric.tables k w } }

/-! ### Discovery by the fabric manager (R390, R426; log entry 18) -/

/-- Position `j` of a route of 15 ports of 6 bits, first hop on top. -/
def hopAt (r : BitVec 90) (j : Nat) : Nat := r.toNat / 2 ^ (84 - 6 * j) % 64

/-- Write position `j` of a return route; the sixteenth chip of a route finds no place (log entry 18). -/
def setHop (r : BitVec 90) (j p : Nat) : BitVec 90 :=
  if j < 15 then
    let low := 84 - 6 * j
    (r &&& ~~~ BitVec.ofNat 90 (63 * 2 ^ low)) ||| BitVec.ofNat 90 (p % 64 * 2 ^ low)
  else r

/-- Send the manager's oldest probe, once the one before it is done with. The manager takes itself as the chip before the first hop. -/
def State.scout (s : State) : State :=
  match s.fabric.scouts with
  | x :: _ =>
    if s.fabric.scouting then s
    else
      let route := (x.route.foldl (fun (r : BitVec 90 × Nat) p => (setHop r.1 r.2 p, r.2 + 1)) (0, 0)).1
      let s := { s with fabric := { s.fabric with scouting := true } }
      s.sendLm (x.route.headD 48) (probeBody
        { hops := BitVec.ofNat 4 x.route.length, index := 1, route := route, ret := 0, op := if x.addr = 0 then 0 else 1
          newAddr := BitVec.ofNat 16 x.addr, mgr := BitVec.ofNat 16 s.chipAddr
          epoch := BitVec.ofNat 32 (s.get Reg.FABR_EPOCH Fld.FABR_EPOCH.epoch) })
  | [] => s

/-- Probes join those that wait. -/
def State.addScouts (s : State) (l : List Scout) : State :=
  { s with fabric := { s.fabric with scouts := s.fabric.scouts ++ l } }

/-- The manager is done with its oldest probe. -/
def State.scoutDone (s : State) : State :=
  { s with fabric := { s.fabric with scouts := s.fabric.scouts.drop 1, scouting := false } }.scout

/-- The chip runs the fabric manager. -/
def State.isMgr (s : State) : Bool := s.get Reg.FABR_ADDR Fld.FABR_ADDR.mgr_here == 1

/-- A route entry's word (R392). -/
def routeEntry (port hops : Nat) : Word := rtPort.set (rtHops.set (rtValid.set 0 1) hops) port

/-- A port of the manager is LINKED: the chip behind it is asked who it is. -/
def State.scoutPort (s : State) (p : Nat) : State := if s.isMgr then (s.addScouts [{ route := [p] }]).scout else s

/-- Discovery starts at the manager: its address, where it has none, and the route entry of itself (R390 step 2). -/
def State.startDiscovery (s : State) : State :=
  let a := Reg.FABR_ADDR
  let s := s.put a Fld.FABR_ADDR.mgr_here 1
  let own := if s.chipAddr = 0 then 1 else s.chipAddr
  let s := (s.put a Fld.FABR_ADDR.addr own).put a Fld.FABR_ADDR.mgr own
  let w : Word := rtSelf.set (routeEntry 0 0) 1
  let s := if own ≤ 4095 then (s.setTable own w).setTable (4096 + own) w else s
  let s := { s with fabric := { s.fabric with scouts := [], scouting := false, found := [] } }
  ((List.range 48).filter s.portUp).foldl State.scoutPort s

/-- Role of the chip (R387, R423). -/
def State.fabricRole (s : State) : Nat :=
  if s.isWharf then 2 else if s.get Reg.LIMS_ROLE Fld.LIMS_ROLE.wharf_capable = 1 then 1 else 0

/-- HELLO_SEND (R388): every 1 ms, on the lowest lane; a trained port sends its first so that its partner can link (log entry
18). -/
def execHelloSend (p : Fin 48) (s : State) : Out :=
  if s.framesFlow p then
    let s := s.advanceTo (s.port p).helloAt
    let s := s.setPort p { s.port p with helloAt := s.now + 1000000000 }
    .next (s.sendLm p (helloBody
      { serial := s.reg Reg.DEV_SERIAL, role := BitVec.ofNat 2 s.fabricRole, addr := BitVec.ofNat 16 s.chipAddr
        mgr := BitVec.ofNat 16 (s.get Reg.FABR_ADDR Fld.FABR_ADDR.mgr)
        epoch := BitVec.ofNat 32 (s.get Reg.FABR_EPOCH Fld.FABR_EPOCH.epoch)
        port := BitVec.ofNat 6 p.val, lane := BitVec.ofNat 7 (s.lowLane p) }))
  else .next s

/-- The lane of a port that faces a partner lane; the lowest where none is known to. -/
def State.laneFacing (s : State) (p l : Nat) : Nat :=
  ((s.lanes p).find? fun k => s.get (Reg.TOWL_LANE_STAT k) Fld.TOWL_LANE_STAT.partner_lane == l).getD (s.lowLane p)

/-- HELLO (R386, R388). -/
def execHello (p : Fin 48) (msg : HelloMsg) (s : State) : Out :=
  if !s.framesFlow p then .next s
  else
    let l := s.laneFacing p msg.lane.toNat
    let a := Reg.TOWL_PARTNER l
    let old := s.reg a
    let s := s.setReg a msg.serial
    let st := Reg.TOWL_PORT_STAT p
    let s := (s.put st Fld.TOWL_PORT_STAT.partner_chip msg.addr.toNat).put st Fld.TOWL_PORT_STAT.partner_port msg.port.toNat
    let s := s.setPort p { s.port p with lastHello := s.now }
    let s := if old ≠ 0 ∧ old ≠ msg.serial then
        let s := (s.logErr { code := 0x5903, info := msg.serial.toNat, aux := l }).notice l 0x5903
        if s.portState p = pActive then (s.enterState p pLinked).notice (s.lowLane p) 0 else s
      else s
    if s.portState p = pTraining then .next (((s.enterState p pLinked).notice (s.lowLane p) 0).scoutPort p)
    else .next (if s.isMgr then s.scout else s)

/-! ### Probes (R389, R390) -/

/-- PROBE_FORWARD (R389). -/
def execProbeForward (p : Fin 48) (msg : ProbeMsg) (s : State) : Out :=
  let i := msg.index.toNat
  if s.portUp p ∧ i < msg.hops.toNat then
    let out := hopAt msg.route i
    if out < 48 ∧ s.portUp out then
      .next (s.sendLm out (probeBody { msg with ret := setHop msg.ret i p.val, index := BitVec.ofNat 4 (i + 1) }))
    else .next s
  else .next s

/-- The answer to a PROBE at its target, sent back by the port it came from. -/
def State.probeAnswer (s : State) (p : Nat) (msg : ProbeMsg) (result : Nat) : State :=
  let linked := (List.range 48).foldl (fun m q => if s.portUp q then m + 2 ^ q else m) 0
  s.sendLm p (replyBody
    { hops := msg.hops, index := msg.index, ret := setHop msg.ret msg.index.toNat p, serial := s.reg Reg.DEV_SERIAL
      role := BitVec.ofNat 2 s.fabricRole, addr := BitVec.ofNat 16 s.chipAddr, linked := BitVec.ofNat 48 linked
      result := BitVec.ofNat 16 result })

/-- A PROBE is at its target, with an op. -/
def State.atTarget (s : State) (p : Nat) (msg : ProbeMsg) (op : Nat) : Bool :=
  s.portUp p && msg.index == msg.hops && msg.op.toNat == op

/-- PROBE_IDENT (R390). -/
def execProbeIdent (p : Fin 48) (msg : ProbeMsg) (s : State) : Out :=
  if s.atTarget p msg 0 then .next (s.probeAnswer p msg 0) else .next s

/-- An ASSIGN at its target (R390): the result, and the address, manager and route where it is 0; a write of FABR_ADDR in the same beat
keeps what it wrote (R17). -/
def State.assign (s : State) (p : Nat) (msg : ProbeMsg) : State × Nat :=
  let new := msg.newAddr.toNat
  let m := msg.mgr.toNat
  let mgr := s.get Reg.FABR_ADDR Fld.FABR_ADDR.mgr
  if new = 0 ∨ new = 0xFFFF ∨ (mgr ≠ 0 ∧ mgr ≠ m) ∨ (s.anyBusy ∧ s.chipAddr ≠ 0 ∧ s.chipAddr ≠ new) then (s, 0x5907)
  else
    let s := (s.hwPut Reg.FABR_ADDR Fld.FABR_ADDR.addr new).hwPut Reg.FABR_ADDR Fld.FABR_ADDR.mgr m
    ((if m ≤ 4095 then s.setTable (s.bank * 4096 + m) (routeEntry p msg.hops.toNat) else s), 0)

/-- PROBE_ASSIGN (R390). -/
def execProbeAssign (p : Fin 48) (msg : ProbeMsg) (s : State) : Out :=
  if s.atTarget p msg 1 then
    let (s, r) := s.assign p msg
    .next (s.probeAnswer p msg r)
  else .next s

/-- The manager waits for a reply of its oldest probe, and this is it. -/
def State.awaits (s : State) (p : Nat) (msg : ProbeReplyMsg) : Bool :=
  s.isMgr && s.fabric.scouting && msg.index == 1 && (match s.fabric.scouts with
    | x :: _ => x.route.headD 48 == p && x.route.length == msg.hops.toNat
    | [] => false)

/-- The lowest address from 1 that no chip of the fabric has. -/
def State.freeAddr (s : State) : Option Nat :=
  (List.range 4096).find? fun a => a != 0 && a != s.chipAddr && !(s.fabric.found.any fun f => f.addr == a)

/-- The address to assign to a chip that an IDENT has reached by a route: the one it was found by before, the one it has where it is free,
else a new one; none where it is this chip, or one that another route leads to (R390). -/
def State.addrFor (s : State) (route : List Nat) (msg : ProbeReplyMsg) : Option Nat :=
  let has := msg.addr.toNat
  if msg.serial = s.reg Reg.DEV_SERIAL then none
  else match s.fabric.found.find? fun f => f.serial == msg.serial with
    | some f => if f.route = route then some f.addr else none
    | none =>
      if has ≠ 0 ∧ has ≤ 4095 ∧ has ≠ s.chipAddr ∧ !(s.fabric.found.any fun f => f.addr == has) then some has else s.freeAddr

/-- The answer to an IDENT: the chip is assigned an address, or is known (R390 steps 3 and 4). -/
def State.identified (s : State) (x : Scout) (msg : ProbeReplyMsg) : State :=
  match s.addrFor x.route msg with
  | some a =>
    { s with fabric := { s.fabric with scouts := { x with addr := a } :: s.fabric.scouts.drop 1, scouting := false } }.scout
  | none => s.scoutDone

/-- PROBE_REPLY away from the manager (R389): one hop back along ret. -/
def State.replyOn (s : State) (p : Nat) (msg : ProbeReplyMsg) : State :=
  let i := msg.index.toNat
  if s.portUp p ∧ i ≠ 0 then
    let out := hopAt msg.ret (i - 1)
    if out < 48 ∧ s.portUp out then s.sendLm out (replyBody { msg with index := BitVec.ofNat 4 (i - 1) }) else s
  else s

/-! ### Fabric time (R408, R409) -/

/-- FABR_TIME as a number. -/
def State.fabTime (s : State) : Nat := s.get Reg.FABR_TIME Fld.FABR_TIME.time_ns

/-- TIME_EXCHANGE (R408): every 1 ms a request on the parent and the backup port; its stamp is taken as its frame starts. -/
def execTimeExchange (s : State) : Out :=
  let s := s.advanceTo s.fabric.nextTime
  let s := { s with fabric := { s.fabric with nextTime := s.now + 1000000000 } }
  let c := Reg.FABR_TIME_CFG
  .next <| [s.get c Fld.FABR_TIME_CFG.parent, s.get c Fld.FABR_TIME_CFG.backup].foldl (fun (t : State) p =>
    if t.portUp p then t.sendLm p (timeBody 0 t.fabTime 0 0) else t) s

/-- TIME_REQUEST (R408). -/
def execTimeRequest (p : Fin 48) (ta : Word) (s : State) : Out :=
  if s.portUp p then .next (s.sendLm p (timeBody 1 ta.toNat s.fabTime s.fabTime)) else .next s

/-- The port a follower follows: its parent, or with that not ACTIVE its backup (R409). -/
def State.followed (s : State) : Option Nat :=
  let c := Reg.FABR_TIME_CFG
  let p := s.get c Fld.FABR_TIME_CFG.parent
  let b := s.get c Fld.FABR_TIME_CFG.backup
  if s.get c Fld.FABR_TIME_CFG.master = 1 then none
  else if s.portActive p then some p
  else if s.portActive b then some b
  else none

/-- The follower adjusts FABR_TIME to an offset given in ps (R409): above 1,000 ns it steps forward, else it slews. The counter
never goes back (log entry 18). -/
def State.followTime (s : State) (off : Int) : State :=
  let c := Reg.FABR_TIME_CFG
  let s := s.put c Fld.FABR_TIME_CFG.offset_ps (BitVec.ofInt 32 off).toNat
  let good := if off.natAbs ≤ 2000 then s.fabric.goodTime + 1 else 0
  let s := { s with fabric := { s.fabric with goodTime := good } }
  let s := s.put c Fld.FABR_TIME_CFG.synced (if 3 ≤ good then 1 else 0)
  if 1000000 < off then
    { s.addTo Reg.FABR_TIME Fld.FABR_TIME.time_ns (off.toNat / 1000) with fabric := { s.fabric with slew := 0 } }
  else { s with fabric := { s.fabric with slew := off } }

/-- TIME_RESPONSE (R408): delay and offset by the formulas of R408 as they are printed. -/
def execTimeResponse (p : Fin 48) (ta tb tc : Word) (s : State) : Out :=
  let c := Reg.FABR_TIME_CFG
  if !s.portUp p ∨ (s.get c Fld.FABR_TIME_CFG.parent ≠ p ∧ s.get c Fld.FABR_TIME_CFG.backup ≠ p) then .next s
  else
    let td : Int := s.fabTime
    let a : Int := ta.toNat
    let b : Int := tb.toNat
    let e : Int := tc.toNat
    let delay : Int := ((td - a) - (e - b)) / 2
    let off : Int := ((b - a) - (e - td)) * 500
    let s := s.put (Reg.TOWL_PORT_STAT p) Fld.TOWL_PORT_STAT.delay_ns (BitVec.ofInt 16 delay).toNat
    if s.followed = some p.val then .next (s.followTime off) else .next s

/-! ### Tables and epochs (R392, R396 to R398) -/

/-- Bits of a route word and of the words of a tree entry that a write stores. -/
def routeMask : Word := 0xE0FF003F0000003F
def treeMask (w : Nat) : Word := if w = 0 then 0xC03FFFFFFFFFFFFF else if w = 1 then 0xFFFF000000000000 else 0

/-- The table word at an offset of the FABR table area: whether it lies in the other bank, its key, and its mask (R397). -/
def tableAt (s : State) (off : Nat) : Bool × Nat × Word :=
  let next := off / 0x8000 % 2 == 1
  let bank := if next then 1 - s.bank else s.bank
  let i := off % 0x8000 / 8
  if off < 0x10000 then (next, bank * 4096 + i, routeMask) else (next, 0x4000 + bank * 4096 + i, treeMask (i % 4))

/-- A word of the FABR table area as read. -/
def State.readTable (s : State) (off : Nat) : Word := smGet 0 s.fabric.tables (tableAt s off).2.1

/-- A write of the FABR table area (R397). -/
def State.writeTable (s : State) (off : Nat) (v : Word) : State × Nat :=
  let (next, k, m) := tableAt s off
  let ok := if next then s.get Reg.FABR_EPOCH_NEXT Fld.FABR_EPOCH_NEXT.armed == 0 else !s.anyBusy
  if ok then (s.setTable k (v &&& m), 0) else (s.logErr { code := 0x5907 }, 0x5907)

/-- ROUTE_TABLE_WRITE (R397). -/
def execRouteTableWrite (off : BitVec 17) (v : Word) (s : State) : Out := .next (s.writeTable off.toNat v).1

/-- A write of FABR_EPOCH_NEXT (R398). -/
def State.writeEpochNext (s : State) (v : Word) : State × Nat :=
  let armed := Fld.FABR_EPOCH_NEXT.armed.get v == 1
  if armed ∧ Fld.FABR_EPOCH_NEXT.next.get v ≠ (s.get Reg.FABR_EPOCH Fld.FABR_EPOCH.epoch + 1) % 2 ^ 32 then
    (s.logErr { code := 0x5907 }, 0x5907)
  else
    let s := s.plainWrite Reg.FABR_EPOCH_NEXT v
    (if armed && !s.anyBusy then s.takeEpoch else s, 0)

/-- EPOCH_ARM (R398). -/
def execEpochArm (v : Word) (s : State) : Out := .next (s.writeEpochNext v).1

/-- The next run numbers its records from FABR_STEP + 1 (R406, R407). -/
def State.alignSteps (s : State) : State :=
  { s with fabric := { s.fabric with
      lastRec := none, readySent := none, oldest := s.get Reg.FABR_STEP Fld.FABR_STEP.step + 1, ready := [], firstAt := []
      stalled := none } }

/-- FABR_STEP_STAT as it reads now: records held, readies of the oldest incomplete step and the time since its first (R404, R414). -/
def State.stepStat (s : State) : Word :=
  let f := s.fabric
  let us := match smFind f.firstAt f.oldest with
    | some t => min ((s.now - t) / 1000000) (2 ^ 32 - 1)
    | none => 0
  let w := Fld.FABR_STEP_STAT.queued.set (s.reg Reg.FABR_STEP_STAT) f.records.length
  Fld.FABR_STEP_STAT.stall_us.set (Fld.FABR_STEP_STAT.ready_in.set w (smGet [] f.ready f.oldest).length) us

/-- Refused writes of the FABR block. -/
def State.refuse5907 (s : State) : State × Nat := (s.logErr { code := 0x5907 }, 0x5907)

/-- A write of a register of the FABR block by its address, ferries and FABR_EVQ apart (R402, R408, R414). -/
def State.writeFabr (s : State) (a : Nat) (v : Word) : State × Nat :=
  if a = Reg.FABR_ADDR then
    if Fld.FABR_ADDR.addr.get v = 0xFFFF then s.refuse5907 else (s.plainWrite a v, 0)
  else if a = Reg.FABR_EPOCH_NEXT then s.writeEpochNext v
  else if a = Reg.FABR_STEP then
    if s.anyBusy then s.refuse5907 else ((s.plainWrite a v).stepTaken.alignSteps, 0)
  else if a = Reg.FABR_STEP_CFG ∨ (Reg.FABR_STEP_MEMBERS 0 ≤ a ∧ a ≤ Reg.FABR_STEP_MEMBERS 63) then
    if s.anyBusy then s.refuse5907 else (s.plainWrite a v, 0)
  else if a = Reg.FABR_TIME then
    if s.get Reg.FABR_TIME_CFG Fld.FABR_TIME_CFG.master = 1 then
      ({ s.plainWrite a v with fabric := { s.fabric with subPs := 0 } }, 0)
    else s.refuse5907
  else if a = Reg.FABR_LEND 0 ∨ a = Reg.FABR_LEND 1 then
    if 0x100000 < Fld.FABR_LEND.base.get v + Fld.FABR_LEND.pages.get v then s.refuse5907 else (s.plainWrite a v, 0)
  else (s.plainWrite a v, 0)

end Sys2Proof.Machine
end

