-- ==== Sys2Proof/Machine/Frames.lean ====
section
/-! DEFINITION. Towline frames and flits (R377 to R383), the entry station of a port (R391 to R396, R399), and ferries (R410,
R411). -/

namespace Sys2Proof.Machine

/-! ### CRCs (R379) -/

/-- The CRC of bits n-1 to 0 of `d`, most significant first, for a width and polynomial, from a register value. -/
def crcBits (w poly d : Nat) : Nat → Nat → Nat
  | 0, c => c
  | n + 1, c =>
    let top := xor (c.testBit (w - 1)) (d.testBit n)
    let c := c * 2 % 2 ^ w
    crcBits w poly d n (if top then c ^^^ poly else c)

/-- hcrc of a frame header. -/
def hcrc (h : BitVec 100) : Nat := crcBits 16 0x1021 (h.toNat / 2 ^ 16) 84 0xFFFF

/-- fcrc of a flit. -/
def fcrc (f : BitVec 630) : Nat := crcBits 24 0x864CFB (f.toNat / 2 ^ 24) 606 0xFFFFFF

/-! ### Frame headers and flits (R377, R378) -/

/-- A frame header from its fields; credit is a number of 6 bits per class, class 0 lowest. -/
def mkHeader (fseq ack : Nat) (nak ep : Bool) (credit : Nat) : BitVec 100 :=
  let h : BitVec 100 := BitVec.ofNat 100 (fseq % 4096 * 2 ^ 88 + ack % 4096 * 2 ^ 76 + (if nak then 2 ^ 75 else 0) +
    (if ep then 2 ^ 74 else 0) + credit % 2 ^ 24 * 2 ^ 48)
  h ||| BitVec.ofNat 100 (hcrc h)

def hdFseq (h : BitVec 100) : Nat := h.toNat / 2 ^ 88
def hdAck (h : BitVec 100) : Nat := h.toNat / 2 ^ 76 % 4096
def hdNak (h : BitVec 100) : Bool := h.toNat.testBit 75
def hdEp (h : BitVec 100) : Bool := h.toNat.testBit 74
def hdCredit (h : BitVec 100) (c : Nat) : Nat := h.toNat / 2 ^ (48 + 6 * c) % 64
def hdCredits (h : BitVec 100) : Nat := h.toNat / 2 ^ 48 % 2 ^ 24

/-- A flit of a type and body. -/
def mkFlit (ftype : Nat) (body : Nat) : BitVec 630 :=
  let f : BitVec 630 := BitVec.ofNat 630 (ftype % 4 * 2 ^ 628 + body % 2 ^ 604 * 2 ^ 24)
  f ||| BitVec.ofNat 630 (fcrc f)

def flType (f : BitVec 630) : Nat := f.toNat / 2 ^ 628
def flBody (f : BitVec 630) : Nat := f.toNat / 2 ^ 24 % 2 ^ 604

/-- The body of a barge flit: header, header check bits, payload, and the check bits of lines 1 and 0 (log entry 19). -/
def bargeBody (b : Barge) : Nat :=
  b.header.toNat * 2 ^ 540 + b.hcheck.toNat * 2 ^ 532 + b.payload.toNat * 2 ^ 20 + b.check1.toNat * 2 ^ 10 + b.check0.toNat

/-- The barge in a flit body. -/
def bodyBarge (n : Nat) (ep : Bool) : Barge :=
  { header := BitVec.ofNat 64 (n / 2 ^ 540), hcheck := BitVec.ofNat 8 (n / 2 ^ 532), payload := BitVec.ofNat 512 (n / 2 ^ 20)
    check1 := BitVec.ofNat 10 (n / 2 ^ 10), check0 := BitVec.ofNat 10 n, exitPort := none, epochParity := ep }

/-! ### Ferries (R410, R411) -/

def State.ferry (s : State) (c : Nat) : Ferry := smGet {} s.fabric.ferry c
def State.setFerry (s : State) (c : Nat) (x : Ferry) : State :=
  { s with fabric := { s.fabric with ferry := smPut s.fabric.ferry c x } }

def State.ferrySrc (s : State) (c : Nat) : Nat := s.get (Reg.FABR_FERRY_W0 c) Fld.FABR_FERRY_W0.src
def State.ferryDst (s : State) (c : Nat) : Nat := s.get (Reg.FABR_FERRY_W1 c) Fld.FABR_FERRY_W1.dst
def State.ferryLen (s : State) (c : Nat) : Nat := s.get (Reg.FABR_FERRY_W2 c) Fld.FABR_FERRY_W2.length
def State.ferryRate (s : State) (c : Nat) : Nat := s.get (Reg.FABR_FERRY_W2 c) Fld.FABR_FERRY_W2.rate

/-- Bytes of sub-transfer `i` of a ferry. -/
def State.ferryBytes (s : State) (c i : Nat) : Nat := min 65536 (s.ferryLen c - 65536 * i)

/-- The least tag that no sub-transfer of a channel uses. -/
def Ferry.freeTag (x : Ferry) : Option Nat :=
  (List.range 16).find? fun g => !((x.open_ ++ x.gone).any fun f => f.tag == g)

/-- Open sub-transfer `i` of channel `c`: an OPEN to the hold front end of the destination, with no berth. -/
def State.ferryOpen (s : State) (c i tag : Nat) : State :=
  let dst := s.ferryDst c
  let a := dst % 2 ^ 48 + 65536 * i
  let chip := dst / 2 ^ 48
  let h := hdr3 tyOPEN chip (destOf false a) 0x3F s.stepParity
  let pay := openPayload a 0 (s.ferryBytes c i) 1 0 0 0 0 s.chipAddr 0 0 false ||| BitVec.ofNat 512 ((128 + c % 4 + tag % 16 * 8) * 2 ^ 192)
  let x := s.ferry c
  (s.setFerry c { x with opened := x.opened + 1, open_ := x.open_ ++ [⟨tag, i, none⟩] }).injectPrimary .wharfinger (mkBarge h pay)

/-- Earliest time of sub-transfer `i` under the rate cap: bytes before it at `rate` GB/s. -/
def State.ferryDue (s : State) (c i : Nat) : Nat :=
  let r := s.ferryRate c
  if r = 0 then 0 else (s.ferry c).startAt + 65536 * i * 1000 / r

/-- Open what a running channel may: up to 16 sub-transfers, spaced by the rate. -/
def State.ferryFill (s : State) (c : Nat) : Nat → State
  | 0 => s
  | k + 1 =>
    let x := s.ferry c
    if x.active ∧ 65536 * x.opened < s.ferryLen c ∧ s.ferryDue c x.opened ≤ s.now then
      match x.freeTag with
      | some g => (s.ferryOpen c x.opened g).ferryFill c k
      | none => s
    else s

/-- Abort a sub-transfer of a channel at its destination: the slot is freed (R411). -/
def State.ferryAbort (s : State) (c : Nat) (f : FerrySub) (slot : Nat) : State :=
  let dst := s.ferryDst c
  let a := dst % 2 ^ 48 + 65536 * f.idx
  s.injectPrimary .wharfinger (mkBarge (hdr3 tyABORT (dst / 2 ^ 48) (destOf false a) slot s.stepParity) 0)

/-- A channel stops on an error, and its READs with it. -/
def State.ferryFail (s : State) (c code : Nat) : State :=
  let w := Reg.FABR_FERRY_W3 c
  let s := ((s.hwSet w Fld.FABR_FERRY_W3.err 1).put w Fld.FABR_FERRY_W3.err_code code).put w Fld.FABR_FERRY_W3.busy 0
  let s := s.setFerry c { s.ferry c with active := false, open_ := [] }
  [256, 257].foldl (fun (t : State) k =>
    let q := (smGet [] t.mesh.reads k).filter fun (r : ReadReq) => !(decide (128 ≤ r.sSrc) && r.sSrc % 4 == c)
    { t with mesh := { t.mesh with reads := smPut t.mesh.reads k q } }) s

/-- A REFUSE of one sub-transfer aborts the others: those granted at once, the rest when their GRANTs come (R411). -/
def State.ferryRefused (s : State) (c : Nat) (f : FerrySub) (code : Nat) : State :=
  let rest := (s.ferry c).open_.filter fun g => g.tag != f.tag
  let s := s.ferryFail c code
  let s := s.setFerry c { s.ferry c with gone := (s.ferry c).gone ++ rest.filter fun g => g.slot.isNone }
  rest.foldl (fun (t : State) g => match g.slot with
    | some k => t.ferryAbort c g k
    | none => t) s

/-- The hold front end of this chip reads a granted sub-transfer and sends its DATA (R410). -/
def State.ferryGrant (s : State) (c i slot : Nat) : State :=
  let dst := s.ferryDst c
  let a := dst % 2 ^ 48 + 65536 * i
  let src := s.ferrySrc c + 65536 * i
  let ag : Agent := if src < 0x2000000000 then .hold 0 else .hold 1
  let r : ReadReq :=
    { src := src, stride := 0, rows := 1, rowB := s.ferryBytes c i, chip := dst / 2 ^ 48, dest := destOf false a, slot := slot
      mcast := false, rclass := 2, parity := s.stepParity, mapTo := 0, sChip := 0, sCore := 0, sSrc := 128 + c % 4
      id := s.mesh.readSeq }
  ({ s with mesh := { s.mesh with readSeq := s.mesh.readSeq + 1 } }).setReadQ ag (s.readQ ag ++ [r])

/-- An ACK of a sub-transfer (R411). -/
def State.ferryAck (s : State) (c : Nat) (f : FerrySub) : State :=
  let x := s.ferry c
  let w := Reg.FABR_FERRY_W3 c
  let x := { x with open_ := x.open_.erase f, acked := x.acked + s.ferryBytes c f.idx, lastAck := s.now }
  let s := (s.setFerry c x).put w Fld.FABR_FERRY_W3.acked_kib (x.acked / 1024)
  if s.ferryLen c ≤ x.acked then
    ((s.hwSet w Fld.FABR_FERRY_W3.done 1).put w Fld.FABR_FERRY_W3.busy 0).setFerry c { x with active := false }
  else s

/-- A reply for a ferry channel; its berth field names channel and sub-transfer (log entry 13). -/
def State.ferryReply (s : State) (b : Barge) : State :=
  let mark := hBerth.get b.header
  let c := mark % 4
  let x := s.ferry c
  match x.open_.find? fun f => f.tag == mark / 4 % 16 with
  | some f =>
    if bType b = tyGRANT then
      let k := payNat b 0 1 % 64
      let l := x.open_.map fun g => if g = f then { g with slot := some k } else g
      (s.setFerry c { x with open_ := l }).ferryGrant c f.idx k
    else if bType b = tyACK then s.ferryAck c f
    else s.ferryRefused c f (payNat b 0 2)
  | none =>
    match x.gone.find? fun f => f.tag == mark / 4 % 16 with
    | some f =>
      let s := s.setFerry c { x with gone := x.gone.erase f }
      if bType b = tyGRANT then s.ferryAbort c f (payNat b 0 1 % 64) else s
    | none => s

/-- A reply type. -/
def isReply (b : Barge) : Bool := bType b == tyGRANT || bType b == tyREFUSE || bType b == tyACK

/-- The ferries take the replies that have come for them and open what they may. -/
def State.ferryWork (s : State) : State :=
  let go := fun (t : State) => match t.takeArrival .wharfinger isReply with
    | some (x, u) => u.ferryReply x.barge
    | none => t
  let s := (List.range 16).foldl (fun t _ => go t) s
  (List.range 4).foldl (fun t c => if (t.ferry c).active then t.ferryFill c 16 else t) s

/-- A populated hold range (R262, R410). Hold 1 follows on Hold 0 without a gap. -/
def State.holdRange (s : State) (a len : Nat) : Bool :=
  decide (0x1000000000 ≤ a) && decide (a + len ≤ 0x3000000000) &&
  (decide (0x2000000000 ≤ a) || s.get (Reg.HOLD_CTRL 0) Fld.HOLD_CTRL.trained == 1) &&
  (decide (a + len ≤ 0x2000000000) || s.get (Reg.HOLD_CTRL 1) Fld.HOLD_CTRL.trained == 1)

/-- Start a ferry channel, or report 0x3402 (R410), for a destination that is not in a hold too (R25, log entry 31). A channel that runs
keeps running (log entry 20). -/
def State.ferryStart (s : State) (c : Nat) : State × Nat :=
  let w := Reg.FABR_FERRY_W3 c
  let len := s.ferryLen c
  let d := s.ferryDst c % 2 ^ 48
  if (s.ferry c).active then (s, 0)
  else if s.ferrySrc c % 256 ≠ 0 ∨ d % 256 ≠ 0 ∨ len % 256 ≠ 0 ∨ !s.holdRange (s.ferrySrc c) len ∨
     d < 0x1000000000 ∨ 0x3000000000 < d + len then
    (((s.hwSet w Fld.FABR_FERRY_W3.err 1).put w Fld.FABR_FERRY_W3.err_code 0x3402).logErr { code := 0x3402, aux := c }, 0x3402)
  else if len = 0 then (s.hwSet w Fld.FABR_FERRY_W3.done 1, 0)
  else
    let s := ((s.put w Fld.FABR_FERRY_W3.busy 1).put w Fld.FABR_FERRY_W3.acked_kib 0)
    let s := s.setFerry c { active := true, gone := (s.ferry c).gone, startAt := s.now, lastAck := s.now }
    (s.ferryFill c 16, 0)

/-- A write of word 3 of a ferry descriptor. -/
def State.writeFerry (s : State) (c : Nat) (v : Word) : State × Nat :=
  let s := s.plainWrite (Reg.FABR_FERRY_W3 c) v
  if Fld.FABR_FERRY_W3.go.get v = 1 then s.ferryStart c else (s, 0)

/-- FERRY_GO (R410). -/
def execFerryGo (c : Fin 4) (s : State) : Out := .next (s.writeFerry c (Fld.FABR_FERRY_W3.go.set 0 1)).1

/-- FERRY_STALL (R411): 1 s with no ACK while sub-transfers are open. -/
def execFerryStall (c : Fin 4) (s : State) : Out :=
  let x := s.ferry c
  if x.active ∧ !x.open_.isEmpty then
    .next (((s.advanceTo (x.lastAck + 1000000000000)).ferryFail c 0x5909).logErr { code := 0x5909, aux := c })
  else .next s

/-! ### Sending a frame (R380, R381, R383, R399) -/

/-- The stamps of a TIME message are taken as its frame starts (R408). -/
def State.stampTime (s : State) (body : BitVec 604) : Nat :=
  let n := body.toNat
  if n / 2 ^ 596 ≠ 2 then n
  else if n / 2 ^ 594 % 4 = 0 then (timeBody 0 s.fabTime 0 0).toNat
  else (timeBody 1 (n / 2 ^ 530 % 2 ^ 64) (n / 2 ^ 466 % 2 ^ 64) s.fabTime).toNat

/-- The first barge of a class in a list. -/
def firstOf (c : Nat) (l : List Barge) : Option Barge := l.find? fun b => bClass b == c

/-- The next barge for a frame of those that have come to the station: classes 3, 0, 1, 2, against credit, all of one epoch parity. -/
def nextBarge (x : Port) (here : Nat × Barge → Bool) (ep : Option Bool) : Option (Nat × Barge) :=
  [3, 0, 1, 2].findSome? fun c =>
    if x.credit.getD c 0 = 0 then none
    else (x.tx.find? fun e => here e && bClass e.2 == c).bind fun e =>
      if ep = none ∨ ep = some e.2.epochParity then some e else none

/-- The next message for a frame: HELLO and TIME travel on the port's lowest lane (R388, R408). -/
def nextLm (low : Bool) (l : List (BitVec 604)) : Option (BitVec 604) :=
  l.find? fun m => low || !(m.toNat / 2 ^ 596 == 1 || m.toNat / 2 ^ 596 == 2)

/-- Fill `n` flits of a frame: messages, then barges, then idle. -/
def State.fillFrame (s : State) (active hold low : Bool) (here : Nat × Barge → Bool) :
    Nat → Port → Option Bool → List (BitVec 630) × Port × Option Bool
  | 0, x, ep => ([], x, ep)
  | n + 1, x, ep =>
    match (if hold then nextLm low x.lm else none), (if active && hold then nextBarge x here ep else none) with
    | some m, _ =>
      let (fs, y, e) := s.fillFrame active hold low here n { x with lm := x.lm.erase m } ep
      (mkFlit 2 (s.stampTime m) :: fs, y, e)
    | none, some b =>
      let c := bClass b.2
      let x := { x with tx := x.tx.erase b, credit := x.credit.set c (x.credit.getD c 0 - 1) }
      let (fs, y, e) := s.fillFrame active hold low here n x (some b.2.epochParity)
      (mkFlit 1 (bargeBody b.2) :: fs, y, e)
    | none, none =>
      let (fs, y, e) := s.fillFrame active hold low here n x ep
      (mkFlit 0 0 :: fs, y, e)

/-- Credit to return in one frame, and what is left. -/
def takeFreed (fr : List Nat) : Nat × List Nat :=
  (fr.foldr (fun n c => min n 63 + 64 * c) 0, fr.map fun n => n - min n 63)

/-- Room that a frame's barges leave at the station of port `p` (R293). -/
def State.freeExit (s : State) (p : Nat) (sent : List (Nat × Barge)) : State :=
  let (node, q) := s.portStation p
  sent.foldl (fun (t : State) e => t.freeRoom (stationKey node q (bClass e.2)) (t.nodeBeat node)) s

/-- Send a frame of port `p`. -/
def State.sendFrame (s : State) (p : Nat) : State :=
  let x := s.port p
  let w := max 1 (s.lanes p).length
  let lane := fun (f : Nat) => (s.lanes p).getD (f % w) 0
  match x.resend with
  | some f =>
    -- frames not held were idle and are sent again as idle (log entry 19)
    let (fl, cr, ep) := match smFind x.retry f with
      | some fr => (fr.flits, hdCredits fr.header, hdEp fr.header)
      | none => (List.replicate 8 (mkFlit 0 0), 0, s.bank == 1)
    let fr : Frame := { lane := lane f, header := mkHeader f x.good x.nakOwed ep cr, flits := fl }
    let next := (f + 1) % 4096
    (s.setPort p { x with nakOwed := false, resend := if next = x.fseq then none else some next }).emit (.frame p fr)
  | none =>
    let room := decide (x.retry.length < 64 * w)
    let beat := s.nodeBeat (s.portStation p).1
    let here := fun (e : Nat × Barge) => decide (e.1 ≤ beat) || s.held
    let (fl, y, ep) := s.fillFrame (s.portActive p) room (x.fseq % w == 0) here 8 x none
    let s := s.freeExit p (x.tx.diff y.tx)
    let x := y
    let (cr, freed) := takeFreed x.freed
    let fr : Frame :=
      { lane := lane x.fseq, header := mkHeader x.fseq x.good x.nakOwed (ep.getD (s.bank == 1)) cr, flits := fl }
    let keep := fl.any (fun f => flType f != 0) || cr != 0
    let f := x.fseq
    let x := { x with
      fseq := (f + 1) % 4096, nakOwed := false, freed := freed
      retry := if keep then x.retry ++ [(f, fr)] else x.retry }
    (s.setPort p x).emit (.frame p fr)

/-- FRAME_SEND (R380). -/
def execFrameSend (p : Fin 48) (s : State) : Out :=
  if s.framesFlow p then .next (s.ferryWork.sendFrame p) else .next s

/-! ### The entry station (R310, R382, R391, R394, R396, R399) -/

/-- The entry station passes a SIGNAL barge to the LOCK block (R329). -/
def State.toBlock (s : State) (p : Nat) (b : Barge) : State :=
  let node := (s.portStation p).1
  s.arriveAt .lock node (s.nodeBeat node) b

/-- A block of the chip, not the mesh, takes the barge. -/
def forBlock (b : Barge) : Bool := bType b == tySIGNAL || bType b == tySTEP || bType b == tyREG

/-- The port as an agent. -/
def portAgent (p : Nat) : Agent := .towline ⟨p % 48, Nat.mod_lt _ (by decide)⟩

/-- Put a barge of a towline on the mesh in the next beat; an idle die wakes for it (R523). -/
def State.ontoMesh (s : State) (p : Nat) (b : Barge) : State := (s.wakeOn 2).injectRaw (portAgent p) (p + 1) 0 1 { b with far := true }

/-- A SIGNAL, STEP or REG barge for this chip: to the LOCK block at once (R329), or on the mesh to the station of the step unit or where
the register access goes (R289, R290). -/
def State.handOver (s : State) (p : Nat) (b : Barge) : State :=
  if bType b = tySIGNAL then s.toBlock p b else s.ontoMesh p (forStation b)

/-- A barge without a route is discarded; its flit is freed (R393). -/
def State.dropBarge (s : State) (p : Nat) (b : Barge) : State :=
  (s.logErr { code := 0x5906 }).freeCredit ⟨0, .edge, p + 1, 0, 0, [], b⟩

/-- A tree barge at an entry station: local delivery and every output port (R310, R396). Records and releases need no OPEN. -/
def State.treeEntry (s : State) (p : Nat) (b : Barge) (bank : Nat) : State :=
  let t := hDest.get b.header - 0x400
  let w := s.treeWord bank t 0
  if forBlock b then
    if treeValid.get w = 0 then s.dropBarge p b
    else
      let s := (List.range 48).foldl (fun u q => if (treeOut.get w).testBit q then u.ontoMesh p (withExit q bank b) else u) s
      if treeLocal.get w = 1 then s.handOver p b else s
  else if bType b = tyOPEN then
    if treeValid.get w = 0 then s.dropBarge p b
    else
      let pset := if treeLocal.get w = 1 then s.expand (payNat b 28 4) else 0
      s.ontoMesh p { b with payload := BitVec.ofNat 512 (b.payload.toNat % 2 ^ 256 + pset * 2 ^ 256) }
  else s.ontoMesh p b

/-- A barge arrives at the entry station of port `p`. -/
def State.entry (s : State) (p : Nat) (b : Barge) : State :=
  match decodeHeader b.header b.hcheck with
  | none => ((s.addSat Reg.MESH_STAT Fld.MESH_STAT.hdr_ue 1).logErr { code := 0x2402 }).freeCredit ⟨0, .edge, p + 1, 0, 0, [], b⟩
  | some h =>
    let b := { b with header := h, hcheck := encodeHeader h }
    let bank := if b.epochParity then 1 else 0
    let chip := hChip.get h
    if bMulti b then s.treeEntry p b bank
    else if chip = 0 ∨ chip = 0xFFFF then s.dropBarge p b
    else if chip = s.chipAddr ∨ s.selfRoute bank chip then
      if forBlock b then s.handOver p b else s.ontoMesh p b
    else match s.lookup bank chip false with
      | none => s.dropBarge p b
      | some (q, _) => s.ontoMesh p (withExit q bank b)

/-! ### Receiving a frame (R383) -/

/-- A frame is bad (R383). -/
def frameBad (f : Frame) : Bool :=
  f.fecBad || f.flits.length != 8 || hcrc f.header != f.header.toNat % 2 ^ 16 ||
  f.flits.any fun x => fcrc x != x.toNat % 2 ^ 24

/-- Forget the frames up to an acknowledged one. -/
def ackFrames (ack : Nat) : List (Nat × Frame) → List (Nat × Frame)
  | [] => []
  | (f, x) :: t => if (ack + 4096 - f) % 4096 < 2048 then ackFrames ack t else (f, x) :: t

/-- The transmitter acts on a nak: resend from ack + 1, one retry more; 8 resends of one frame in a row take the port down
(R383, R384). -/
def State.takeNak (s : State) (p ack : Nat) : State :=
  let x := s.port p
  let f := (ack + 1) % 4096
  let n := if x.resends ≠ 0 ∧ x.lastNak = f then x.resends + 1 else 1
  let s := s.setPort p { x with resend := if f = x.fseq then none else some f, lastNak := f, resends := n }
  let a := Reg.TOWL_PORT_STAT p
  let s := s.addSat a Fld.TOWL_PORT_STAT.retries 1
  let step := s.get Reg.FABR_STEP Fld.FABR_STEP.step
  let s := if s.get Reg.DTRM_ALLOW Fld.DTRM_ALLOW.retry_max < s.get a Fld.TOWL_PORT_STAT.retries ∧
      (s.port p).retryLog ≠ some step then
      (s.setPort p { s.port p with retryLog := some step }).logErr { code := 0x5902, aux := p }
    else s
  if 8 ≤ n then s.portLost p (s.lowLane p) else s

/-- Credit, acknowledgement and nak of a good frame's header. -/
def State.takeHeader (s : State) (p : Nat) (h : BitVec 100) : State :=
  let x := s.port p
  let credit := (List.range 4).map fun c => x.credit.getD c 0 + hdCredit h c
  let s := s.setPort p { x with credit := credit, retry := ackFrames (hdAck h) x.retry }
  if hdNak h then s.takeNak p (hdAck h)
  else if (s.port p).resends ≠ 0 ∧ (hdAck h + 4096 - (s.port p).lastNak) % 4096 < 2048 then
    s.setPort p { s.port p with resends := 0 }
  else s

/-- The flits of a good frame: barges pass on while the port is ACTIVE. A link-management flit is the command of its own row
(HELLO, TIME_REQUEST and so on; log entry 19). -/
def State.takeFlits (s : State) (p : Nat) (ep : Bool) (fs : List (BitVec 630)) : State :=
  fs.foldl (fun (t : State) f =>
    if flType f = 1 ∧ t.portActive p then
      let b := bodyBarge (flBody f) ep
      let x := t.port p
      let t := if bClass b = 3 then t.setPort p { x with freed := x.freed.set 3 (x.freed.getD 3 0 + 1) } else t
      t.entry p b
    else t) s

/-- The FEC of a frame's lane counts: corrected symbols in units of 1,024, or an uncorrectable codeword (R413). -/
def State.countFec (s : State) (f : Frame) : State :=
  let a := Reg.TOWL_LANE_STAT f.lane
  if f.fecBad then s.addSat a Fld.TOWL_LANE_STAT.ucw 1
  else if f.fixed = 0 then s
  else
    let n := smGet 0 s.fabric.symbols f.lane + f.fixed
    let s := { s with fabric := { s.fabric with symbols := smPut s.fabric.symbols f.lane (n % 1024) } }
    if n < 1024 then s else s.addSat a Fld.TOWL_LANE_STAT.csym (n / 1024)

/-- A frame arrives at port `p`. -/
def State.receiveFrame (s : State) (p : Nat) (f : Frame) : State :=
  let s := if (s.lanes p).contains f.lane then s.countFec f else s
  let x := s.port p
  let next := (x.good + 1) % 4096
  if frameBad f then s.setPort p { x with nakOwed := true }
  else if hdFseq f.header ≠ next then s
  else
    let s := s.setPort p { x with good := next }
    (s.takeHeader p f.header).takeFlits p (hdEp f.header) f.flits

/-- FRAME_RECEIVE (R383). -/
def execFrameReceive (p : Fin 48) (f : Frame) (s : State) : Out :=
  if s.framesFlow p then .next (s.receiveFrame p f).ferryWork else .next s

end Sys2Proof.Machine
end

