-- ==== Sys2Proof/Machine/Enet.lean ====
section
/-! DEFINITION. The Ethernet ports (R415 to R421, R441): MAC units and links, interfaces, tags, neighbours, and priority flow
control. -/

namespace Sys2Proof.Machine

/-! ### MAC units and links (R415 to R417) -/

/-- MAC unit `j` of a port exists under a split (R415). -/
def splitHas (split j : Nat) : Bool := if split = 0 then j == 0 else if split = 1 then j == 0 || j == 2 else split == 2

/-- Rate of a MAC unit in Gb/s. -/
def splitRate (split : Nat) : Nat := if split = 0 then 400 else if split = 1 then 200 else 100

def State.split (s : State) (p : Nat) : Nat := s.get (Reg.ENET_PORT_CTRL p) Fld.ENET_PORT_CTRL.split
def State.portPowered (s : State) (p : Nat) : Bool := s.get (Reg.ENET_PORT_CTRL p) Fld.ENET_PORT_CTRL.enable == 1

/-- The link of MAC unit `i` is up. -/
def State.linkUp (s : State) (i : Nat) : Bool := s.hasBit (Reg.ENET_PORT_STAT (i / 4)) Fld.ENET_PORT_STAT.link (i % 4)

/-- Count `n` discarded frames or datagrams (R420, R428, R436, R441). -/
def State.rxDrop (s : State) (i : Nat) (n : Nat := 1) : State :=
  s.addSat (Reg.ENET_PORT_STAT (i / 4)) Fld.ENET_PORT_STAT.rx_drops n

def State.prio (s : State) (p q : Nat) : Prio := smGet {} s.host.prios (p * 8 + q)
def State.setPrio (s : State) (p q : Nat) (x : Prio) : State :=
  { s with host := { s.host with prios := smPut s.host.prios (p * 8 + q) x } }
def State.qp (s : State) (n : Nat) : Qp := smGet {} s.host.qps n
def State.setQp (s : State) (n : Nat) (x : Qp) : State := { s with host := { s.host with qps := smPut s.host.qps n x } }

/-- Context of queue pair `n` in Hold 0 (R436). -/
def State.qpAt (s : State) (n : Nat) : Nat := s.get Reg.ENET_QP Fld.ENET_QP.base * 65536 + 64 * n

/-- Bytes [i+k-1:i] of a queue pair's context. -/
def State.qpField (s : State) (n i k : Nat) : Nat := leNat (s.bytes (s.qpAt n + i) k)

/-- MAC unit a frame leaves by (R422). -/
def outInst : Output → Nat
  | .datagram i _ _ _ _ _ => i
  | .neighbour i _ _ _ => i
  | .roce i _ _ _ _ _ => i
  | _ => 0

/-! ### Tags (R421) -/

/-- VLAN id of an interface; 0 untagged. -/
def State.vlan (s : State) (i : Nat) : Nat := s.get (Reg.ENET_IF_W0 i) Fld.ENET_IF_W0.vlan

/-- The tag of a frame sent at a priority. -/
def State.txTag (s : State) (i pcp : Nat) : Option VlanTag :=
  if s.vlan i = 0 then none else some ⟨BitVec.ofNat 12 (s.vlan i), BitVec.ofNat 3 pcp⟩

/-- A received frame is accepted: its VLAN id is the interface's, or absent where that is 0. -/
def State.tagOk (s : State) (i : Nat) (tag : Option VlanTag) : Bool :=
  match tag with
  | some t => t.vid.toNat == s.vlan i
  | none => s.vlan i == 0

/-- Priority of a received frame: its code point, 0 where it has none. -/
def tagPrio (tag : Option VlanTag) : Nat := tag.elim 0 fun t => t.pcp.toNat

/-- A frame comes in by an interface whose link is up, with a tag that it accepts. -/
def State.frameIn (s : State) (i : Nat) (tag : Option VlanTag) : Bool := s.linkUp i && s.tagOk i tag

/-! ### The receive buffer and priority flow control (R441) -/

/-- Bytes that a port's receive buffer holds. -/
def State.rxLevel (s : State) (p : Nat) : Nat := ((List.range 8).map fun k => (s.prio p k).level).foldl (· + ·) 0

/-- Flow control is sent for a priority. -/
def State.pfcGen (s : State) (p q : Nat) : Bool := s.hasBit (Reg.ENET_PORT_CTRL p) Fld.ENET_PORT_CTRL.pfc_gen q

/-- Frames of a priority without `pfc_gen` are dropped while the buffer holds 1,792 KiB. -/
def State.rxFull (s : State) (i q : Nat) : Bool := !s.pfcGen (i / 4) q && decide (1835008 ≤ s.rxLevel (i / 4))

/-- How many of the packets of a message of `len` bytes the buffer takes, in packets of `mtu` bytes: all that fit into 2 MiB, and of a
priority without `pfc_gen` those that come before the level is 1,792 KiB. -/
def State.rxTakes (s : State) (i q mtu len : Nat) : Nat :=
  let p := i / 4
  let l := s.rxLevel p
  let all := max 1 (ceilDiv len mtu)
  if s.pfcGen p q then (if l + len ≤ 2097152 then all else (2097152 - l) / mtu)
  else min all (ceilDiv (1835008 - l) mtu)

/-- Send a PFC frame of a priority, where a link of the port is up (R417). -/
def State.sendPfc (s : State) (p q quanta : Nat) : State :=
  if s.get (Reg.ENET_PORT_STAT p) Fld.ENET_PORT_STAT.link = 0 then s
  else
    let s := if quanta = 0 then s else s.addSat (Reg.ENET_PORT_STAT p) Fld.ENET_PORT_STAT.xoff_sent 1
    s.emit (.pfc p q quanta)

/-- Bytes enter the receive buffer of a priority: it pauses its sender at 512 KiB. -/
def State.rxHold (s : State) (p q n : Nat) : State :=
  let x := s.prio p q
  let level := x.level + n
  if s.pfcGen p q ∧ 524288 ≤ level ∧ !x.xoff then
    (s.setPrio p q { x with level := level, xoff := true, refresh := s.now + 50000000 }).sendPfc p q 0xFFFF
  else s.setPrio p q { x with level := level }

/-- Bytes leave the receive buffer: below 256 KiB the sender may go on. -/
def State.rxFree (s : State) (p q n : Nat) : State :=
  let x := s.prio p q
  let level := x.level - n
  if x.xoff ∧ level < 262144 then (s.setPrio p q { x with level := level, xoff := false }).sendPfc p q 0
  else s.setPrio p q { x with level := level }

/-! ### Sending and links (R417) -/

/-- Send a frame at a priority of a MAC unit: nothing with the link down, later while the priority is paused (R417, R441). -/
def State.sendMac (s : State) (i q : Nat) (o : Output) : State :=
  let x := s.prio (i / 4) q
  if !s.linkUp i then s
  else if x.dead.isSome then s
  else if x.until_.isSome then s.setPrio (i / 4) q { x with txq := x.txq ++ [o] }
  else s.emit o

/-- Set or clear a link bit. -/
def State.setLink (s : State) (i : Nat) (up : Bool) : State :=
  let a := Reg.ENET_PORT_STAT (i / 4)
  let l := s.get a Fld.ENET_PORT_STAT.link
  let others := l - (if l.testBit (i % 4) then 2 ^ (i % 4) else 0)
  s.put a Fld.ENET_PORT_STAT.link (others + if up then 2 ^ (i % 4) else 0)

/-- Packets that pacing holds back and that satisfy `p`, by interface and packet, are discarded (R417, R441). -/
def State.dropPaced (s : State) (p : Nat → Bool) : State :=
  { s with host := { s.host with qps := s.host.qps.map fun e => (e.1, { e.2 with paced := e.2.paced.filter fun x => !p x.1 }) } }

/-- A MAC unit loses its link: what it holds to send is discarded (R417). -/
def State.dropLink (s : State) (i : Nat) : State :=
  if !s.linkUp i then s
  else
    let s := (s.setLink i false).dropPaced (· == i)
    let s := (List.range 8).foldl (fun (t : State) q =>
      let x := t.prio (i / 4) q
      if x.txq.isEmpty then t else t.setPrio (i / 4) q { x with txq := x.txq.filter fun o => outInst o != i }) s
    s.logErr { code := 0x5A01, aux := i }

/-- MAC_LINK_LOSS (R417). -/
def execMacLinkLoss (i : Fin 8) (s : State) : Out := .next (s.dropLink i)

/-- MAC_LINK_UP (R417). -/
def execMacLinkUp (i : Fin 8) (s : State) : Out :=
  let p := i.val / 4
  if s.portPowered p ∧ splitHas (s.split p) (i.val % 4) ∧ !s.bootFailed then .next (s.setLink i true) else .next s

/-! ### Writes (R416, R419, R452) -/

/-- A refused write of the ENET or STRM block. -/
def State.refuse3A06 (s : State) (aux : Nat := 0) : State × Nat := (s.logErr { code := 0x3A06, aux := aux }, 0x3A06)

/-- A port switched off loses its links, and what it holds to send (R417). -/
def State.portOff (s : State) (p : Nat) : State :=
  (List.range 8).foldl (fun (t : State) q =>
    let x := t.prio p q
    if x.txq.isEmpty then t else t.setPrio p q { x with txq := [] })
    ((s.put (Reg.ENET_PORT_STAT p) Fld.ENET_PORT_STAT.link 0).dropPaced fun i => i / 4 == p)

/-- A write of ENET_PORT_CTRL_p (R416). -/
def State.writePortCtrl (s : State) (p : Nat) (v : Word) : State × Nat :=
  let a := Reg.ENET_PORT_CTRL p
  let mtu := Fld.ENET_PORT_CTRL.mtu.get v
  let sp := Fld.ENET_PORT_CTRL.split.get v
  if (s.portPowered p ∧ sp ≠ s.split p) ∨ mtu < 1500 ∨ 9216 < mtu ∨ sp = 3 then s.refuse3A06 p
  else
    let s := s.plainWrite a v
    (if s.portPowered p then s else s.portOff p, 0)

/-- ENET_PORT_CTRL_WRITE (R416). -/
def execEnetPortCtrlWrite (p : Fin 2) (v : Word) (s : State) : Out := .next (s.writePortCtrl p v).1

/-- A write of word `w` of ENET_IF_i (R419). -/
def State.writeIf (s : State) (i w : Nat) (v : Word) : State × Nat :=
  if s.linkUp i ∧ s.portPowered (i / 4) then s.refuse3A06 i else (s.plainWrite (Reg.ENET_IF_W0 i + 8 * w) v, 0)

/-- ENET_IF_WRITE (R419). -/
def execEnetIfWrite (i : Fin 8) (w : Fin 8) (v : Word) (s : State) : Out := .next (s.writeIf i w v).1

/-! ### Neighbours (R419, R420) -/

/-- An IPv4 address in IPv4-mapped form. -/
def mapped (a : Nat) : BitVec 128 := BitVec.ofNat 128 (0xFFFF * 2 ^ 32 + a)

/-- The link-local address of a MAC address, by modified EUI-64 (RFC 4291). -/
def linkLocal (mac : Nat) : BitVec 128 :=
  let hi := mac / 2 ^ 24 ^^^ 0x020000
  BitVec.ofNat 128 (0xFE80 * 2 ^ 112 + hi * 2 ^ 40 + 0xFFFE * 2 ^ 24 + mac % 2 ^ 24)

def State.ifMac (s : State) (i : Nat) : Nat := s.get (Reg.ENET_IF_W0 i) Fld.ENET_IF_W0.mac
def State.ifV4 (s : State) (i : Nat) : Nat := s.get (Reg.ENET_IF_W1 i) Fld.ENET_IF_W1.v4_addr

/-- The addresses that an interface holds. -/
def State.ifAddrs (s : State) (i : Nat) : List (BitVec 128) :=
  let a := Reg.ENET_IF_W0 i
  (if s.get a Fld.ENET_IF_W0.v4_en = 1 then [mapped (s.ifV4 i)] else []) ++
  (if s.get a Fld.ENET_IF_W0.v6_en = 1 then
    [BitVec.ofNat 128 ((s.reg (Reg.ENET_IF_W4 i)).toNat + (s.reg (Reg.ENET_IF_W5 i)).toNat * 2 ^ 64), linkLocal (s.ifMac i)]
   else [])

/-- The leading `n` bits of two addresses of `w` bits agree. -/
def samePart (w n a b : Nat) : Bool := a / 2 ^ (w - n) == b / 2 ^ (w - n)

/-- The address to whose MAC a datagram for `dst` goes: the gateway of the interface where `dst` lies off its network (R420).
Link-local addresses are on it. -/
def State.nextHop (s : State) (i : Nat) (dst : BitVec 128) : BitVec 128 :=
  let d := dst.toNat
  let w2 := s.get (Reg.ENET_IF_W2 i)
  if d / 2 ^ 32 = 0xFFFF then
    if samePart 32 (w2 Fld.ENET_IF_W2.v4_prefix) (d % 2 ^ 32) (s.ifV4 i) then dst
    else mapped (s.get (Reg.ENET_IF_W1 i) Fld.ENET_IF_W1.v4_gw)
  else if samePart 128 10 d (0xFE80 * 2 ^ 112) then dst
  else if samePart 128 (w2 Fld.ENET_IF_W2.v6_prefix) d
      ((s.reg (Reg.ENET_IF_W4 i)).toNat + (s.reg (Reg.ENET_IF_W5 i)).toNat * 2 ^ 64) then dst
  else BitVec.ofNat 128 ((s.reg (Reg.ENET_IF_W6 i)).toNat + (s.reg (Reg.ENET_IF_W7 i)).toNat * 2 ^ 64)

/-- The MAC of a neighbour, where an entry names it. -/
def State.neighMac (s : State) (ip : BitVec 128) : Option (BitVec 48) :=
  (s.host.neigh.find? fun e => e.1 == ip).map (·.2)

/-- Ask for the MAC of a neighbour: by ARP for an IPv4 address, by neighbour discovery for an IPv6 address (R420). -/
def State.askNeighbour (s : State) (i : Nat) (ip : BitVec 128) : State :=
  let mac := BitVec.ofNat 48 (s.ifMac i)
  let msg : NeighbourMsg := if ip.toNat / 2 ^ 32 = 0xFFFF then
      .arpRequest (BitVec.ofNat 32 ip.toNat) (BitVec.ofNat 32 (s.ifV4 i)) mac
    else .ndSolicit ip (linkLocal mac.toNat) mac
  s.sendMac i 0 (.neighbour i (s.txTag i 0) ip msg)

/-- Next hop of a queue pair (R436). -/
def State.qpHop (s : State) (n : Nat) : BitVec 128 :=
  s.nextHop (s.qpField n 41 1 % 8) (BitVec.ofNat 128 (s.qpField n 48 16))

/-- Write the next-hop MAC of a queue pair (R436). -/
def State.setQpMac (s : State) (n : Nat) (mac : BitVec 48) : State := s.writeAny (s.qpAt n + 42) (natLe 6 mac.toNat)

/-- A queue pair has been made ready: its next hop is resolved, by a neighbour entry or by asking (R436). -/
def State.resolveQp (s : State) (n : Nat) : State :=
  match s.neighMac (s.qpHop n) with
  | some m => s.setQpMac n m
  | none => if s.host.up then s.askNeighbour (s.qpField n 41 1 % 8) (s.qpHop n) else s

/-- Queue pair `n` exists and is ready (R436). -/
def State.qpReady (s : State) (n : Nat) : Bool :=
  decide (n < s.get Reg.ENET_QP Fld.ENET_QP.count) && s.qpField n 40 1 == 1

/-- Keep a neighbour entry; of 1,024 the oldest goes (R420, log entry 21). The ready queue pairs whose next hop it is take the MAC
(R436). -/
def State.learn (s : State) (ip : BitVec 128) (mac : BitVec 48) : State :=
  let l := s.host.neigh.filter fun e => e.1 != ip
  let s := { s with host := { s.host with neigh := (if 1024 ≤ l.length then l.drop 1 else l) ++ [(ip, mac)] } }
  (List.range (s.get Reg.ENET_QP Fld.ENET_QP.count)).foldl (fun (t : State) n =>
    if t.qpReady n ∧ t.qpHop n = ip then t.setQpMac n mac else t) s

/-- The wharfinger's answer to a neighbour packet on an interface whose link is up. -/
def State.neighbourIn (s : State) (i : Nat) (n : NeighbourMsg) : State :=
  let mac := BitVec.ofNat 48 (s.ifMac i)
  let own := s.ifAddrs i
  let answer := fun (t : State) (hop : BitVec 128) (m : NeighbourMsg) => t.sendMac i 0 (.neighbour i (t.txTag i 0) hop m)
  match n with
  | .arpRequest t sd m =>
    if own.contains (mapped t.toNat) then answer (s.learn (mapped sd.toNat) m) (mapped sd.toNat) (.arpReply t mac) else s
  | .arpReply sd m => s.learn (mapped sd.toNat) m
  | .ndSolicit t sd m => if own.contains t then answer (s.learn sd m) sd (.ndAdvert t mac) else s
  | .ndAdvert t m => s.learn t m
  | .echo t sd d => if own.contains t then answer s (s.nextHop i sd) (.echo sd t d) else s.rxDrop i
  | .unsupported => s.rxDrop i

/-- NEIGHBOUR_PACKET (R420). -/
def execNeighbourPacket (i : Fin 8) (n : NeighbourFrame) (s : State) : Out :=
  if !s.frameIn i n.tag ∨ !s.host.up then .next s
  else if s.rxFull i (tagPrio n.tag) then .next (s.rxDrop i)
  else .next (s.neighbourIn i n.msg)

/-! ### Priority flow control (R441) -/

/-- The pause of a priority ends: what waited is sent. -/
def State.resumePrio (s : State) (p q : Nat) : State :=
  let x := s.prio p q
  x.txq.foldl State.emit (s.setPrio p q { x with until_ := none, txq := [] })

/-- PFC_FRAME (R441): a quantum is 512 bit times of the port's MAC units. -/
def execPfcFrame (p : Fin 2) (prio : Fin 8) (quanta : BitVec 16) (s : State) : Out :=
  let q := prio.val
  let n := quanta.toNat
  let s := if n = 0 then s else s.addSat (Reg.ENET_PORT_STAT p) Fld.ENET_PORT_STAT.xoff_rcvd 1
  let x := s.prio p q
  if n = 0 then .next ((s.setPrio p q { x with dead := none }).resumePrio p q)
  else
    let x := { x with lastRx := s.now }
    if x.dead.isSome ∨ !s.hasBit (Reg.ENET_PORT_CTRL p) Fld.ENET_PORT_CTRL.pfc_honour q then .next (s.setPrio p q x)
    else
      let due := s.now + n * (512000 / splitRate (s.split p))
      .next (s.setPrio p q { x with until_ := some due, since := if x.until_.isSome then x.since else s.now })

/-- PFC_REFRESH (R441): every 50 µs while the priority, its bit of pfc_gen set, holds 256 KiB or more. -/
def execPfcRefresh (p : Fin 2) (prio : Fin 8) (s : State) : Out :=
  let q := prio.val
  let x := s.prio p q
  if s.pfcGen p q ∧ x.xoff ∧ 262144 ≤ x.level then
    let s := s.advanceTo x.refresh
    .next ((s.setPrio p q { x with refresh := s.now + 50000000 }).sendPfc p q 0xFFFF)
  else .next s

/-- PFC_WATCHDOG (R441): paused for 100 ms without a break. -/
def execPfcWatchdog (p : Fin 2) (prio : Fin 8) (s : State) : Out :=
  let q := prio.val
  let x := s.prio p q
  let due := x.since + 100000000000
  match x.until_ with
  | none => .next s
  | some t =>
    if t < due then .next s
    else
      let s := s.advanceTo due
      let s := (s.setPrio p q { x with until_ := none, txq := [], dead := some s.now }).dropPaced fun i =>
        i / 4 == p.val && s.get (Reg.ENET_PORT_CTRL (i / 4)) Fld.ENET_PORT_CTRL.roce_pcp == q
      .next (s.logErr { code := 0x5A03, aux := p })

/-- PFC_QUANTA_EXPIRY (R441). -/
def execPfcQuantaExpiry (p : Fin 2) (prio : Fin 8) (s : State) : Out :=
  match (s.prio p prio).until_ with
  | none => .next s
  | some t => .next ((s.advanceTo t).resumePrio p prio)

/-- PFC_HONOUR_RESTORE (R441): 10 ms without a pause frame. -/
def execPfcHonourRestore (p : Fin 2) (prio : Fin 8) (s : State) : Out :=
  let x := s.prio p prio
  match x.dead with
  | none => .next s
  | some t => .next ((s.advanceTo (max t x.lastRx + 10000000000)).setPrio p prio { x with dead := none })

end Sys2Proof.Machine
end

