-- ==== Sys2Proof/Machine/Session.lean ====
section
/-! DEFINITION. Queue pairs as senders (R435, R436, R439) and the sessions that carry towpath messages (R427 to R432). -/

namespace Sys2Proof.Machine

/-! ### CRC-32C (R427) -/

/-- One bit of the reflected Castagnoli polynomial. -/
def crc32cBit (c : Nat) : Nat := if c % 2 = 1 then (c / 2) ^^^ 0x82F63B78 else c / 2

/-- One byte. -/
def crc32cByte (c : Nat) (b : Byte) : Nat := (List.range 8).foldl (fun c _ => crc32cBit c) (c ^^^ b.toNat)

/-- CRC-32C with initial and final value 0xFFFF_FFFF. -/
def crc32c (bs : List Byte) : Nat := bs.foldl crc32cByte 0xFFFFFFFF ^^^ 0xFFFFFFFF

/-! ### Messages (R427, R428) -/

/-- Bytes [lo+n-1:lo] of a list as a number. -/
def fieldOf (bs : List Byte) (lo n : Nat) : Nat := leNat ((bs.drop lo).take n)

/-- Word `j` of a list. -/
def wordOf (bs : List Byte) (j : Nat) : Word := BitVec.ofNat 64 (fieldOf bs (8 * j) 8)

/-- Fields of a towpath header. -/
def msgType (d : Datagram) : Nat := fieldOf d.bytes 4 2
def msgSeq (d : Datagram) : Nat := fieldOf d.bytes 8 4
def msgSession (d : Datagram) : Nat := fieldOf d.bytes 12 4
def msgHandle (d : Datagram) : Nat := fieldOf d.bytes 16 4
def msgAck (d : Datagram) : Nat := fieldOf d.bytes 20 4
def msgPayload (d : Datagram) : List Byte := d.bytes.drop 32

/-- Header bytes before the crc. -/
def msgHead (ty flags sess seq ack handle status len : Nat) : List Byte :=
  natLe 2 0x4156 ++ natLe 1 1 ++ natLe 1 flags ++ natLe 2 ty ++ natLe 2 len ++ natLe 4 seq ++ natLe 4 sess ++
    natLe 4 handle ++ natLe 4 ack ++ natLe 2 status ++ natLe 2 0

/-- A message as its bytes. -/
def msgBytes (ty flags sess seq ack handle status : Nat) (payload : List Byte) : List Byte :=
  let h := msgHead ty flags sess seq ack handle status payload.length
  h ++ natLe 4 (crc32c (h ++ natLe 4 0 ++ payload)) ++ payload

/-- Largest payload on an interface. -/
def State.maxPayload (s : State) (i : Nat) : Nat :=
  min 8192 (s.get (Reg.ENET_PORT_CTRL (i / 4)) Fld.ENET_PORT_CTRL.mtu - 80)

/-- The header of a datagram is sound (R428). -/
def msgSound (d : Datagram) : Bool :=
  let b := d.bytes
  decide (32 ≤ b.length) && fieldOf b 0 2 == 0x4156 && fieldOf b 2 1 == 1 && fieldOf b 3 1 / 8 == 0 && fieldOf b 26 2 == 0 &&
    fieldOf b 6 2 == b.length - 32 && fieldOf b 28 4 == crc32c (b.take 28 ++ natLe 4 0 ++ b.drop 32)

/-! ### Queue pairs as senders (R435, R436, R439) -/

/-- Write bytes of a queue pair's context. -/
def State.setQpField (s : State) (n i k v : Nat) : State := s.writeAny (s.qpAt n + i) (natLe k v)

/-- Path MTU. -/
def State.qpMtu (s : State) (n : Nat) : Nat :=
  let m := s.qpField n 27 1
  if m = 0 then 1024 else if m = 1 then 2048 else 4096

/-- Packets that `len` bytes take. -/
def State.qpPackets (s : State) (n len : Nat) : Nat := max 1 (ceilDiv len (s.qpMtu n))

/-- Priority of RoCEv2 frames of a queue pair's port (R421). -/
def State.rocePcp (s : State) (i : Nat) : Nat := s.get (Reg.ENET_PORT_CTRL (i / 4)) Fld.ENET_PORT_CTRL.roce_pcp

/-- Line rate of a queue pair's interface in Mb/s. -/
def State.lineRate (s : State) (n : Nat) : Nat := 1000 * splitRate (s.split (s.qpField n 41 1 % 8 / 4))

/-- Time in ps that a queue pair's rate takes for `k` bytes; a rate of 0 is the line rate (R442, log entry 22). -/
def State.paceTime (s : State) (n k : Nat) : Nat :=
  let r := s.qpField n 20 4
  8000000 * k / (if r = 0 then s.lineRate n else r)

/-- The pacing of a queue pair lets a packet go: the one before it has had its time at the present rate (R442). -/
def State.paceOpen (s : State) (n : Nat) : Bool := decide ((s.qp n).paceAt + s.paceTime n (s.qp n).paceB ≤ s.now)

/-- A packet of a queue pair goes to its MAC unit, marked ECT(0) where ecn_en is set (R421, R442). -/
def State.roceSend (s : State) (i : Nat) (k : RocePkt) : State :=
  let n := k.qp
  let ect := s.get (Reg.ENET_PORT_CTRL (i / 4)) Fld.ENET_PORT_CTRL.ecn_en == 1
  let pcp := s.rocePcp i
  let s := s.setQp n { s.qp n with paceAt := s.now, paceB := k.bytes.length }
  s.sendMac i pcp (.roce i (s.txTag i pcp) (s.qpField n 42 6) ect s.now k)

/-- Send a packet of a queue pair by an interface: at once where its pacing lets it, else after those that wait; nothing with the link
down (R417, R442). -/
def State.roceOut (s : State) (i : Nat) (k : RocePkt) : State :=
  let q := s.qp k.qp
  if !s.linkUp i then s
  else if q.paced.isEmpty && s.paceOpen k.qp then s.roceSend i k
  else s.setQp k.qp { q with paced := q.paced ++ [(i, k)] }

/-- A queue pair sends what its pacing lets go (R442). -/
def State.paceQp (s : State) (n : Nat) : Nat → State
  | 0 => s
  | fuel + 1 =>
    match (s.qp n).paced with
    | [] => s
    | (i, k) :: t =>
      if s.paceOpen n then ((s.setQp n { s.qp n with paced := t }).roceSend i k).paceQp n fuel else s

/-- Every queue pair sends what its pacing lets go by now (R442). -/
def State.paceWork (s : State) : State :=
  s.host.qps.foldl (fun (t : State) e => t.paceQp e.1 e.2.paced.length) s

/-- Send a packet of a queue pair by its own interface (R422). -/
def State.qpEmit (s : State) (k : RocePkt) : State := s.roceOut (s.qpField k.qp 41 1 % 8) k

/-- The context of a queue pair is read from the hold: its lines in error are counted and logged (R279, R280, R345). -/
def State.readQp (s : State) (n : Nat) : State := (s.readHold (s.qpAt n) 64 []).1

/-- Post a request on a queue pair: it takes the next PSNs and waits for its acknowledgement. Nothing on a queue pair that is not
ready. -/
def State.qpSend (s : State) (n kind rkey vaddr imm : Nat) (bytes : List Byte) (len : Nat) (ring : Option Nat := none)
    (final : Bool := false) (sess : Option (Nat × Nat) := none) : State :=
  if !s.qpReady n then s
  else
    let s := s.readQp n
    let psn := s.qpField n 32 3
    let last := (psn + s.qpPackets n len - 1) % 2 ^ 24
    let k : RocePkt := { qp := n, kind := kind, psn := psn, rkey := rkey, vaddr := vaddr, imm := imm, bytes := bytes }
    let s := s.setQpField n 32 3 ((last + 1) % 2 ^ 24)
    let q := s.qp n
    let s := s.setQp n { q with
      out_ := q.out_ ++ [⟨last, k, ring, final, sess⟩]
      since := if q.out_.isEmpty then s.now else q.since }
    s.qpEmit k

/-- A queue pair enters error: its work is abandoned, but for the answers that its pacing still holds back (R439, R442). -/
def State.qpError (s : State) (n : Nat) : State :=
  let q := s.qp n
  ((s.setQpField n 40 1 2).setQp n { paceAt := q.paceAt, paceB := q.paceB, paced := q.paced.filter fun x => decide (4 ≤ x.2.kind) }).logErr
    { code := 0x5A02, aux := n }

/-- Resend what waits for acknowledgement. -/
def State.qpResend (s : State) (n : Nat) : State :=
  (s.qp n).out_.foldl (fun (t : State) r => t.qpEmit r.packet) s

/-! ### Sessions (R429 to R432) -/

def State.sess (s : State) (id : Nat) : Option Session := smFind s.host.sessions id
def State.setSess (s : State) (x : Session) : State :=
  { s with host := { s.host with sessions := smPut s.host.sessions x.id x } }

/-- The number of sessions as STRM_STAT shows it. -/
def State.countSessions (s : State) : State := s.put Reg.STRM_STAT Fld.STRM_STAT.sessions s.host.sessions.length

/-- Priority of towpath messages of an interface's port (R421). -/
def State.tpPcp (s : State) (i : Nat) : Nat := s.get (Reg.ENET_PORT_CTRL (i / 4)) Fld.ENET_PORT_CTRL.tp_pcp

/-- Send a towpath datagram (R420, R421, R427). -/
def State.sendUdp (s : State) (i : Nat) (dst : BitVec 128) (port : Nat) (bs : List Byte) : State :=
  s.sendMac i (s.tpPcp i) (.datagram i (s.txTag i (s.tpPcp i)) (s.nextHop i dst) dst port bs)

/-- Send the bytes of a message on a session: as a datagram by an interface, or as a SEND of the queue pair it is bound to (R422,
R440). -/
def State.transmit (s : State) (x : Session) (i : Nat) (bs : List Byte) (seq : Nat) : State :=
  match x.qp with
  | some n => s.qpSend n 0 0 0 0 bs bs.length (sess := some (x.id, seq))
  | none => s.sendUdp i x.src x.sport bs

/-- Highest sequence received in order (R427). -/
def Session.ackNo (x : Session) : Nat := (x.next + 2 ^ 32 - 1) % 2 ^ 32

/-- A message is no larger than an interface lets a datagram be; as a SEND it is bound to none (R427, R440). -/
def State.fits (s : State) (x : Session) (i : Nat) (m : SentMsg) : Bool :=
  x.qp.isSome || decide (m.payload.length ≤ s.maxPayload i)

/-- Put a kept message on the wire: a response by the interface of what it answers, another by that of the session's last message
(R422). One that has become too large for that interface is not sent (R427). -/
def State.sendKept (s : State) (x : Session) (m : SentMsg) : State :=
  if !s.fits x (m.ifc.getD x.ifc) m then s
  else s.transmit x (m.ifc.getD x.ifc) (msgBytes m.ty m.flags x.id m.seq x.ackNo m.handle m.status m.payload) m.seq

/-- Send a numbered message; `answers` is the number of the host message it answers, and its flags then say so (R427, R431,
R433). A session that is closed gets nothing. -/
def State.sendMsg (s : State) (id ty flags handle status : Nat) (payload : List Byte) (answers : Option Nat)
    (finals : List Nat := []) : State :=
  match s.sess id with
  | none => s
  | some x =>
    let fl := flags ||| (if answers.isSome then 1 else 0) ||| (if status = 0 then 0 else 4)
    let seq := (x.sent + 1) % 2 ^ 32
    let ifc := match answers with
      | some k => (x.arrived.find? fun e => e.1 == k).map (·.2)
      | none => none
    let m : SentMsg := ⟨seq, ty, fl, handle, status, payload, s.now, 1, finals, ifc⟩
    let cache := match answers with
      | some k => (x.cache.filter fun c => (x.next + 2 ^ 32 - c.1) % 2 ^ 32 ≤ 65) ++ [(k, m)]
      | none => x.cache
    let x := { x with
      sent := seq, unacked := x.unacked ++ [m], cache := cache, ackOwed := none
      arrived := if flags / 2 % 2 = 1 then x.arrived else x.arrived.filter fun e => some e.1 != answers }
    (s.setSess x).sendKept x m

/-- Send an ACK or KEEPALIVE, which use no number (R431). -/
def State.sendBare (s : State) (id ty : Nat) : State :=
  match s.sess id with
  | none => s
  | some x =>
    let x := { x with ackOwed := none }
    (s.setSess x).transmit x x.ifc (msgBytes ty 0 x.id 0 x.ackNo 0 0 []) 0

/-- A message of the other end acknowledges what was sent up to a number: those messages are forgotten, and the finals they
carried are delivered (R432, R458). -/
def State.ackUpTo (s : State) (id ack : Nat) : State × List Nat :=
  match s.sess id with
  | none => (s, [])
  | some x =>
    let done := fun (m : SentMsg) => decide ((ack + 2 ^ 32 - m.seq) % 2 ^ 32 < 2 ^ 31)
    (s.setSess { x with unacked := x.unacked.filter fun m => !done m },
      ((x.unacked.filter done).map (·.finals)).flatten)

/-- Forget a session. -/
def State.dropSession (s : State) (id : Nat) : State :=
  ({ s with host := { s.host with sessions := smDel s.host.sessions id } }).countSessions

/-- A session id that no open session has (R429). -/
def State.freshId (s : State) : Nat :=
  let n := s.host.nextId
  match (List.range 257).find? fun k => (n + k) % 2 ^ 32 ≠ 0 && (smFind s.host.sessions ((n + k) % 2 ^ 32)).isNone with
  | some k => (n + k) % 2 ^ 32
  | none => n

/-- The session that a sound datagram names, open for its source (R428). -/
def State.sessionOf (s : State) (d : Datagram) : Option Session :=
  match s.sess (msgSession d) with
  | some x => if x.src = d.src ∧ x.sport = d.sport.toNat then some x else none
  | none => none

/-- KEEPALIVE_TIMER (R432). -/
def execKeepaliveTimer (sess : BitVec 32) (s : State) : Out :=
  match s.sess sess.toNat with
  | none => .next s
  | some x =>
    let due := x.keepAt + x.keepMs * 1000000000
    let s := (s.advanceTo due).setSess { x with keepAt := due }
    .next (s.sendBare x.id 5)

/-- TOWPATH_ACK_TIMER (R432): 20 µs after a host message that nothing has acknowledged. -/
def execTowpathAckTimer (sess : BitVec 32) (s : State) : Out :=
  match s.sess sess.toNat with
  | none => .next s
  | some x => match x.ackOwed with
    | none => .next s
    | some t => .next ((s.advanceTo (t + 20000000)).sendBare x.id 4)

/-- When a kept message is due again: 200 µs after its first attempt, twice as long after each further one (R432). -/
def SentMsg.due (m : SentMsg) : Nat := m.sentAt + 200000000 * 2 ^ (m.tries - 1)

/-- The kept message that is due first. -/
def firstDue : List SentMsg → Option SentMsg
  | [] => none
  | m :: t => match firstDue t with
    | none => some m
    | some n => if n.due < m.due then some n else some m

end Sys2Proof.Machine
end

