-- ==== Sys2Proof/Machine/Roce.lean ====
section
/-! DEFINITION. RoCEv2 on the Ethernet ports (R435 to R442): remote writes and reads of the holds, negative acknowledgements,
timeouts and congestion notification. -/

namespace Sys2Proof.Machine

/-! ### Receiving a packet (R435, R436, R442) -/

/-- Syndromes of negative acknowledgements: sequence, invalid request, remote access. -/
def nakSeq : Nat := 0x60
def nakInvalid : Nat := 0x61
def nakAccess : Nat := 0x62

/-- Queue pair that a packet names (R436). -/
def qpOf (k : Packet) : Nat := k.qpn.toNat - 0x100

/-- Answer a packet of a queue pair by the interface it came on (R422). -/
def State.roceAnswer (s : State) (k : Packet) (kind psn imm : Nat) (bytes : List Byte) : State :=
  s.roceOut k.ifc { qp := qpOf k, kind := kind, psn := psn, imm := imm, bytes := bytes }

/-- A CE mark draws a congestion notification, one in 50 µs (R442). -/
def State.ceMark (s : State) (k : Packet) : State :=
  let n := qpOf k
  let q := s.qp n
  let quiet : Bool := match q.cnpSent with
    | some t => decide (t + 50000000 ≤ s.now)
    | none => true
  if k.ce ∧ quiet then (s.setQp n { q with cnpSent := some s.now }).roceAnswer k 8 0 0 [] else s

/-- A negative acknowledgement that puts the queue pair in error (R435, R437, R439). -/
def State.nakError (s : State) (k : Packet) (syndrome : Nat) : State :=
  (s.roceAnswer k 6 k.psn.toNat syndrome []).qpError (qpOf k)

/-- A packet comes to a queue pair that takes it: by a link that is up, with an accepted tag, for a queue pair in state 1 (R417, R421,
R436). -/
def State.packetFor (s : State) (k : Packet) : Bool :=
  s.frameIn k.ifc k.tag && decide (0x100 ≤ k.qpn.toNat) && s.qpReady (qpOf k)

/-- Packets of a message that the receive buffer takes (R441). -/
def State.packetsIn (s : State) (k : Packet) : Nat :=
  s.rxTakes k.ifc (tagPrio k.tag) (s.qpMtu (qpOf k)) k.bytes.length

/-- What is done with a packet on arrival, before its operation: nothing where no frame comes in, dropped where no queue pair takes it
or, in whole or in part, where the receive buffer has no room, answered with a NAK where the opcode is not supported (R421, R435, R436,
R441). Answers how many of its packets go on. -/
def State.takePacket (s : State) (k : Packet) : State × Nat :=
  let i := k.ifc.val
  if !s.frameIn i k.tag then (s, 0)
  else if !s.packetFor k then (s.rxDrop i, 0)
  else
    let all := s.qpPackets (qpOf k) k.bytes.length
    let got := s.packetsIn k
    let s := if got < all then s.rxDrop i (all - got) else s
    if got = 0 then (s, 0)
    else
      let s := (s.readQp (qpOf k)).ceMark k
      if !k.supported ∨ 2 ^ 31 < k.length.toNat ∨ 2 ^ 31 < k.bytes.length then (s.nakError k nakInvalid, 0)
      else (s, got)

/-- The first `n` packets of a message; what the rest would add does not come. -/
def State.headOf (s : State) (k : Packet) (n : Nat) : Packet := { k with bytes := k.bytes.take (n * s.qpMtu (qpOf k)) }

/-- Where a request stands against the sequence number expected: 0 expected, 1 ahead, 2 seen before. -/
def State.psnPlace (s : State) (k : Packet) : Nat :=
  let d := (k.psn.toNat + 2 ^ 24 - s.qpField (qpOf k) 28 3) % 2 ^ 24
  if d = 0 then 0 else if d < 2 ^ 23 then 1 else 2

/-- The sequence number moves past a request of `len` bytes, and the request is acknowledged. -/
def State.takePsn (s : State) (k : Packet) (len : Nat) (ack : Bool) : State :=
  let n := qpOf k
  let last := (k.psn.toNat + s.qpPackets n len - 1) % 2 ^ 24
  let s := s.setQpField n 28 3 ((last + 1) % 2 ^ 24)
  if ack then s.roceAnswer k 5 last 0 [] else s

/-- Acknowledge again a request seen before. -/
def State.ackAgain (s : State) (k : Packet) (len : Nat) : State :=
  s.roceAnswer k 5 ((k.psn.toNat + s.qpPackets (qpOf k) len - 1) % 2 ^ 24) 0 []

/-- Edge router of an Ethernet port's station (R418). -/
def ethNode (p : Nat) : Nat := if p = 0 then 7 * 16 + 15 else 7 * 16

/-! ### Memory regions (R437) -/

/-- An access of `len` bytes by a packet matches its region's entry: bit `acc` of access. -/
def State.regionOk (s : State) (k : Packet) (len acc : Nat) : Bool :=
  let e := k.rkey.toNat % 1024
  let a := s.get Reg.ENET_MR Fld.ENET_MR.base * 65536 + 32 * e
  let f := fun (lo n : Nat) => leNat (s.bytes (a + lo) n)
  let q := f 12 4
  decide (e < s.get Reg.ENET_MR Fld.ENET_MR.count) && f 10 2 == k.rkey.toNat / 1024 && (f 9 1).testBit acc &&
    (q == 0xFFFFFFFF || q == qpOf k) && decide (f 24 8 ≤ k.vaddr.toNat) &&
    decide (k.vaddr.toNat + len ≤ f 24 8 + f 16 8) && (len == 0 || s.holdRange k.vaddr.toNat len)

/-- The region's entry that a packet names is read from the hold (R279, R280, R345). -/
def State.readRegion (s : State) (k : Packet) : State :=
  (s.readHold (s.get Reg.ENET_MR Fld.ENET_MR.base * 65536 + 32 * (k.rkey.toNat % 1024)) 32 []).1

/-! ### Writes into the holds (R418, R438) -/

def State.etxQ (s : State) (p : Nat) : List EthTx := smGet [] s.host.etx p
def State.setEtxQ (s : State) (p : Nat) (l : List EthTx) : State :=
  { s with host := { s.host with etx := smPut s.host.etx p l } }

/-- An Ethernet port as an agent. -/
def ethAgent (p : Nat) : Agent := .ethernet ⟨p % 2, Nat.mod_lt _ (by decide)⟩

/-- Open the sub-transfer of a port's oldest data, at the front end of the hold they go to (R301, R418). -/
def State.ethOpen (s : State) (p : Nat) : State :=
  match s.etxQ p with
  | [] => s
  | x :: t =>
    if x.asked then s
    else
      let pay := openPayload x.addr 0 x.bytes.length 1 0 0 0 0 s.chipAddr 0 0 false ||| BitVec.ofNat 512 ((132 + p % 2) * 2 ^ 192)
      (s.setEtxQ p ({ x with asked := true } :: t)).inject (ethAgent p) 0 0
        (mkBarge (hdr3 tyOPEN 0 (destOf true x.addr) 0x3F s.stepParity) pay)

/-- Data enter a port's buffer on their way into a hold; those of one port go one after another (R418, R441). -/
def State.ethWrite (s : State) (p : Nat) (x : EthTx) : State :=
  let s := (s.rxHold p x.prio x.bytes.length).wakeOn 2
  (s.setEtxQ p (s.etxQ p ++ [x])).ethOpen p

/-- A remote write into a region: its data go into the hold as DATA barges; the immediate, if any, is a notice to the loader once they
are written (R418, R438). -/
def State.rdmaIn (s : State) (k : Packet) (imm : Option Nat) : State :=
  if k.bytes.isEmpty then (match imm with
    | some i => s.emit (.notice i)
    | none => s)
  else s.ethWrite (k.ifc.val / 4)
    { qp := qpOf k, ifc := k.ifc, prio := tagPrio k.tag, addr := k.vaddr.toNat, bytes := k.bytes, imm := imm }

/-- A remote write, with or without an immediate, of the packets that the buffer takes. -/
def State.rdmaWriteOp (s : State) (k : Packet) (imm : Option Nat) : State :=
  match s.takePacket k with
  | (s, 0) => s
  | (s, got) =>
    let len := k.bytes.length
    let at_ := s.psnPlace k
    if at_ = 1 then s.roceAnswer k 6 (s.qpField (qpOf k) 28 3) nakSeq []
    else if at_ = 2 then s.ackAgain k len
    else if !s.regionOk k len 0 then (s.readRegion k).nakError k nakAccess
    else
      let s := s.readRegion k
      let h := s.headOf k got
      (s.takePsn h h.bytes.length true).rdmaIn h (if h.bytes.length = len then imm else none)

/-- RDMA_WRITE (R438). -/
def execRdmaWrite (rk : Packet) (s : State) : Out := .next (s.rdmaWriteOp rk none)

/-- RDMA_WRITE_WITH_IMMEDIATE (R438). -/
def execRdmaWriteImm (rk : Packet) (s : State) : Out := .next (s.rdmaWriteOp rk (some rk.imm.toNat))

/-- Ask the pseudo-channels for the data of a READ, which is answered when they have come (R264, R438). -/
def State.rdmaFetch (s : State) (k : Packet) : State :=
  let n := qpOf k
  let len := k.length.toNat
  if len = 0 then s.roceAnswer k 4 k.psn.toNat 0 []
  else
    let id := s.host.pktSeq
    let bs := blocksOf k.vaddr.toNat (List.replicate len 0)
    let s := { s with host := { s.host with pktSeq := id + 1 } }
    let q := s.qp n
    let s := (s.setQp n { q with fetches := q.fetches ++ [{ id := id, pkt := k, left := bs.length, got := [] }] }).wakeOn 2
    (bs.foldl (fun (t : State × Nat) b =>
      (t.1.holdRequest (ethNode (k.ifc.val / 4)) b.1 b.2.length none (.fetch n id t.2), t.2 + 1)) (s, 0)).1

/-- RDMA_READ (R438). A read seen before is answered again. -/
def execRdmaRead (rk : Packet) (s : State) : Out :=
  let len := rk.length.toNat
  match s.takePacket rk with
  | (s, 0) => .next s
  | (s, _) =>
    let at_ := s.psnPlace rk
    if at_ = 1 then .next (s.roceAnswer rk 6 (s.qpField (qpOf rk) 28 3) nakSeq [])
    else if !s.regionOk rk len 1 then .next ((s.readRegion rk).nakError rk nakAccess)
    else
      let s := s.readRegion rk
      .next ((if at_ = 0 then s.takePsn rk len false else s).rdmaFetch rk)

/-! ### Answers to this device's requests (R439) -/

/-- ROCE_NAK (R439). A sequence NAK is a NAK other than RNR as well. -/
def execRoceNak (rk : Packet) (s : State) : Out :=
  match s.takePacket rk with
  | (s, 0) => .next s
  | (s, _) => .next (s.qpError (qpOf rk))

/-- Retry counts of a queue pair. -/
def State.retryMax (s : State) (n : Nat) : Nat := s.qpField n 26 1 % 8
def State.rnrMax (s : State) (n : Nat) : Nat := s.qpField n 26 1 / 8 % 8

/-- ROCE_ACK_TIMEOUT (R436, R439): 4.096 µs × 2^timeout after the last sending. -/
def execRoceAckTimeout (qp : BitVec 12) (s : State) : Out :=
  let n := qp.toNat
  let q := s.qp n
  if !s.qpReady n ∨ q.out_.isEmpty then .next s
  else
    let s := (s.advanceTo (q.since + 4096000 * 2 ^ s.qpField n 25 1)).readQp n
    if s.retryMax n ≤ q.retries then .next (s.qpError n)
    else .next ((s.setQp n { q with retries := q.retries + 1, since := s.now }).qpResend n)

/-- ROCE_RNR_NAK (R439, R446): the request is sent again under the RNR retry, where 7 is unlimited. -/
def execRoceRnrNak (rk : Packet) (s : State) : Out :=
  let n := qpOf rk
  match s.takePacket rk with
  | (s, 0) => .next s
  | (s, _) =>
    let q := s.qp n
    if s.rnrMax n ≠ 7 ∧ s.rnrMax n ≤ q.rnrs then .next (s.qpError n)
    else .next ((s.setQp n { q with rnrs := q.rnrs + 1, since := s.now }).qpResend n)

/-! ### Congestion (R442) -/

/-- CNP (R442). -/
def execCnp (rk : Packet) (s : State) : Out :=
  let n := qpOf rk
  match s.takePacket rk with
  | (s, 0) => .next s
  | (s, _) =>
    let s := s.setQpField n 20 4 (max 1000 (s.qpField n 20 4 * 3 / 4))
    .next (s.setQp n { s.qp n with rateAt := s.now }).paceWork

/-- RATE_RECOVERY (R442). -/
def execRateRecovery (qp : BitVec 12) (s : State) : Out :=
  let n := qp.toNat
  if !s.qpReady n then .next s
  else
    let s := (s.advanceTo ((s.qp n).rateAt + 55000000)).readQp n
    let r := s.qpField n 20 4
    let s := if s.lineRate n ≤ r then s else s.setQpField n 20 4 (min (s.lineRate n) (r + 5000))
    .next (s.setQp n { s.qp n with rateAt := s.now }).paceWork

end Sys2Proof.Machine
end

