-- ==== Sys2Proof/Machine/HoldPort.lean ====
section
/-! DEFINITION. The completion of hold requests (R264): what comes of each for the slot, READ, fill, RDMA READ or register-path access behind
it, and the register path's accesses of the holds (R264, R436, R597). -/

namespace Sys2Proof.Machine

/-! ### RDMA READs (R438) -/

/-- The data of a READ, once all have come: its requests in order. -/
def Fetch.bytes (f : Fetch) : List Byte := (f.got.map (·.2)).flatten

/-- Answer the READs of a queue pair whose data have come, oldest first. -/
def State.answerFetches (s : State) (n : Nat) : Nat → State
  | 0 => s
  | fuel + 1 =>
    match (s.qp n).fetches with
    | f :: t =>
      if f.left = 0 then
        ((s.setQp n { s.qp n with fetches := t }).roceAnswer f.pkt 4 f.pkt.psn.toNat 0 f.bytes).answerFetches n fuel
      else s
    | [] => s

/-- The data of one request of a READ. -/
def State.fetchBack (s : State) (n id j : Nat) (bs : List Byte) : State :=
  let q := s.qp n
  let upd := fun (f : Fetch) => if f.id = id then { f with left := f.left - 1, got := smPut f.got j bs } else f
  (s.setQp n { q with fetches := q.fetches.map upd }).answerFetches n q.fetches.length

/-! ### The register path (R264, R597) -/

/-- The queue pair whose state byte lies in the word at a device address (R436). -/
def State.qpStateAt (s : State) (a : Nat) : Option Nat :=
  let base := s.qpAt 0
  let n := (a - base) / 64
  if base ≤ a ∧ (a - base) % 64 = 40 ∧ n < s.get Reg.ENET_QP Fld.ENET_QP.count then some n else none

/-- A word that the register path reads from the holds: one of the ledger as of the last step processed (R454). -/
def State.pathWord (s : State) (a : Nat) : Word := (smFind s.engine.view a).getD (s.word a)

/-- A word of a hold has been written by the register path, and reads find it. A queue pair taken out of the ready state loses its outstanding work; one
made ready has its next hop resolved (R436, R439). -/
def State.wordWritten (s : State) (a : Nat) : State :=
  let s := if (smFind s.engine.view a).isSome then { s with engine := { s.engine with view := smDel s.engine.view a } } else s
  match s.qpStateAt a with
  | some n => if s.qpField n 40 1 = 1 then s.resolveQp n else s.setQp n {}
  | none => s

/-- Edge router by whose station the register path reaches a hold: that of the wharfinger, or of the column below it for Hold 1 (R289, log
entry 30). -/
def pathNode (a : Nat) : Nat := if a < 0x2000000000 then 7 else 247

/-- A read or write of a hold word by the register path reaches its pseudo-channel (R264). -/
def State.holdPath (s : State) (a : Nat) (val : Option Word) (k : Asker) : State :=
  s.holdRequest (pathNode a) a 8
    (val.map fun v => [(a, natLe 8 v.toNat, [])]) (.path k)

/-! ### Completion (R264) -/

/-- What a completed request does for whom it answers. -/
def State.holdBack (s : State) (k : Nat) (r : HoldReqItem) : State :=
  match r.for_ with
  | .landing key => s.writeBack key
  | .read id j => s.readBack id j r.addr r.len k
  | .fill n j => s.fillBack k n j r.addr r.len
  | .fetch n id j => ((s.holdRead k r.addr r.len []).1).fetchBack n id j (s.bytes r.addr r.len)
  | .path q =>
    if r.write.isSome then (s.wordWritten r.addr).answer q 0 0
    else ((s.holdRead k r.addr r.len []).1).answer q 0 (s.pathWord r.addr)
  | .none => s

/-- A pseudo-channel serves its oldest request (R264). -/
def State.holdServe (s : State) (k : Nat) : State :=
  match (s.pc k).queue with
  | [] => s
  | r :: t => ((s.setPc k { s.pc k with queue := t }).writePieces (r.write.getD [])).holdBack k r

/-- A pseudo-channel that is free completes its oldest request (R264). -/
def State.holdComplete (s : State) (h pc : Nat) : State :=
  let k := h * 64 + pc
  if s.pcFree h k then s.holdServe k else s

/-- The oldest requests of a pseudo-channel are served, up to a number of them. -/
def State.holdDrain (s : State) (k : Nat) : Nat → State
  | 0 => s
  | n + 1 => (s.holdServe k).holdDrain k n

/-- Before `n` bytes at `a` are read or written past the queues, every pseudo-channel that holds a write of one of them serves the requests
that have reached it (R264; log entry 31). -/
def State.serveAhead (s : State) (a n : Nat) : State :=
  let due := s.holds.filter fun e => e.2.queue.any fun r => r.write.isSome && decide (r.addr < a + n ∧ a < r.addr + r.len)
  due.foldl (fun (t : State) e => t.holdDrain e.1 e.2.queue.length) s

/-- HOLD_REQUEST_COMPLETE (R264). -/
def execHoldRequestComplete (h : Fin 2) (pc : Fin 64) (s : State) : Out := .next (s.holdComplete h pc)

end Sys2Proof.Machine
end

