-- ==== Sys2Proof/Machine/Power.lean ====
section
/-! DEFINITION. Weirs (R502 to R510), energy meters (R511 to R515), operating points in service (R516 to R519), and the idle states
(R520 to R527) but for Becalmed. -/

namespace Sys2Proof.Machine

/-! ### Weirs (R502 to R510) -/

def State.weir (s : State) (k : Nat) : Weir := smGet {} s.power.weirs k
def State.setWeir (s : State) (k : Nat) (w : Weir) : State :=
  { s with power := { s.power with weirs := smPut s.power.weirs k w } }

/-- Entry threshold of a code in thousandths of the limit (R505). -/
def State.weirEntry (s : State) (c : Nat) : Nat :=
  if c = 1 then s.get Reg.WEIR_WINDOW Fld.WEIR_WINDOW.t1_pm
  else if c = 2 then s.get Reg.WEIR_WINDOW Fld.WEIR_WINDOW.t2_pm
  else s.get Reg.WEIR_WINDOW Fld.WEIR_WINDOW.t3_pm

/-- The mean of a weir's samples, as its sum and their number (R504). -/
def Weir.sum (w : Weir) : Nat := w.samples.foldl (· + ·) 0
def Weir.mean (w : Weir) : Nat := w.sum / max 1 w.samples.length

/-- I_w stands at `pm` thousandths of the limit or above. -/
def State.weirAt (s : State) (k pm : Nat) : Bool :=
  let w := s.weir k
  decide (s.get (Reg.WEIR_LIMIT k) Fld.WEIR_LIMIT.limit * pm * w.samples.length ≤ w.sum * 1000)

/-- The code whose entry threshold I_w has reached. -/
def State.weirReached (s : State) (k : Nat) : Nat :=
  if (s.weir k).samples.isEmpty then 0
  else if s.weirAt k (s.weirEntry 3) then 3
  else if s.weirAt k (s.weirEntry 2) then 2
  else if s.weirAt k (s.weirEntry 1) then 1
  else 0

/-- Set the code of a weir; 0b11 holds the die (R507). -/
def State.setWeirCode (s : State) (k : Fin 6) (c : Nat) : State :=
  let all := s.get Reg.WEIR_STAT Fld.WEIR_STAT.code
  let s := s.put Reg.WEIR_STAT Fld.WEIR_STAT.code (all - s.weirCode k * 4 ^ k.val + c * 4 ^ k.val)
  let r : HoldReq := { cause := .weir k, core := 256, unit := none }
  if c = 3 then s.holdOn r else s.holdOff (· == r)

/-- Whether I_w stands below the entry threshold of the code in force less the hysteresis, since when (R506). -/
def State.weirBelow (s : State) (k : Nat) : State :=
  let w := s.weir k
  let c := s.weirCode k
  let low := c ≠ 0 && !s.weirAt k (s.weirEntry c - s.get Reg.WEIR_WINDOW Fld.WEIR_WINDOW.hyst_pm)
  s.setWeir k { w with lowFrom := if low then some (w.lowFrom.getD s.now) else none }

/-- Count a gust that begins (R508). -/
def State.gustBegins (s : State) (k : Nat) : State :=
  let s := s.addTo Reg.WEIR_GUST_CNT Fld.WEIR_GUST_CNT.gusts 1
  let s := s.addSat (Reg.WEIR_RAIL k) Fld.WEIR_RAIL.gusts 1
  s.hwSet Reg.WEIR_STAT Fld.WEIR_STAT.gust_seen (2 ^ k)

/-- Count a gust that reaches 0b11 (R508). -/
def State.gustStops (s : State) (k : Nat) : State :=
  let s := s.addTo Reg.WEIR_GUST_CNT Fld.WEIR_GUST_CNT.stops 1
  let s := s.addSat (Reg.WEIR_RAIL k) Fld.WEIR_RAIL.stops 1
  (s.hwSet Reg.WEIR_STAT Fld.WEIR_STAT.stop_seen (2 ^ k)).logErr { code := 0x4202, aux := k }

/-- A weir's code rises (R505, R508). -/
def State.weirRise (s : State) (k : Fin 6) (c : Nat) : State :=
  let w := s.weir k
  let s := if s.weirCode k = 0 then s.gustBegins k else s
  let s := if 2 ≤ c ∧ w.top < 2 then s.logErr { code := 0x4201, aux := k } else s
  let s := if c = 3 ∧ w.top < 3 then s.gustStops k else s
  (s.setWeir k { w with top := max w.top c, lowFrom := none }).setWeirCode k c

/-- Energy of a sample joins the package meter: q/8 W for 10 ns are q/800 µJ (R511). -/
def State.meterPkg (s : State) (q : Nat) : State :=
  let total := smGet 0 s.power.fracs 0 + q
  let s := s.addTo Reg.ENGY_PKG Fld.ENGY_PKG.energy_uj (total / 800)
  { s with power := { s.power with fracs := smPut s.power.fracs 0 (total % 800) } }

/-- Energy of the reaches of a quadrant rail: free values, since the manual gives no account of a regulator's input (R511, log entry
5). -/
def State.meterReaches (s : State) (k : Nat) : State :=
  ((List.range 16).filter fun r => railOf r == k).foldl (fun (t : State) r =>
    (t.addTo (Reg.ENGY_REACH r) Fld.ENGY_REACH.energy_uj (Config.freeValue t.free).toNat).drawn) s

/-- A weir takes a sample at the next 10 ns boundary of the timebase (R504, R505, R511). -/
def State.sample (s : State) (k : Fin 6) (q : Nat) : State :=
  let last := (s.weir k).lastAt
  let s := s.advanceTo (match last with
    | some t => t + 10000
    | none => ceilDiv s.now 10000 * 10000)
  let w := s.weir k
  let n := s.get Reg.WEIR_WINDOW Fld.WEIR_WINDOW.window_ns / 10
  let s := s.setWeir k { w with samples := (q :: w.samples).take n, lastAt := some (s.now / 10000 * 10000) }
  let m := (s.weir k).mean
  let a := Reg.WEIR_RAIL k
  let s := s.put a Fld.WEIR_RAIL.now m
  let s := s.hwPut a Fld.WEIR_RAIL.peak (max m (s.get a Fld.WEIR_RAIL.peak))
  let s := if k.val = 5 then s.meterPkg q else if k.val < 4 then s.meterReaches k else s
  let c := s.weirReached k
  let s := if s.weirCode k < c then s.weirRise k c else s
  s.weirBelow k

/-- WEIR_SAMPLE (R504). -/
def execWeirSample (k : Fin 6) (q : BitVec 16) (s : State) : Out := .next (s.sample k q.toNat)

/-- A write above the ceiling is refused (R503). -/
def State.writeWeirLimit (s : State) (k : Nat) (v : Word) : State × Nat :=
  let a := Reg.WEIR_LIMIT k
  if s.get a Fld.WEIR_LIMIT.ceiling < Fld.WEIR_LIMIT.limit.get v then (s.logErr { code := 0x3201, aux := k }, 0x3201)
  else (s.plainWrite a v, 0)

/-- WEIR_LIMIT_WRITE (R503). -/
def execWeirLimitWrite (k : Fin 6) (v : Word) (s : State) : Out := .next (s.writeWeirLimit k v).1

/-- A write of WEIR_WINDOW (R510). -/
def State.writeWeirWindow (s : State) (v : Word) : State × Nat :=
  let t1 := Fld.WEIR_WINDOW.t1_pm.get v
  let t2 := Fld.WEIR_WINDOW.t2_pm.get v
  let t3 := Fld.WEIR_WINDOW.t3_pm.get v
  let h := Fld.WEIR_WINDOW.hyst_pm.get v
  let w := Fld.WEIR_WINDOW.window_ns.get v
  if t2 ≤ t1 ∨ t3 ≤ t2 ∨ t1 ≤ h ∨ 200 < h ∨ w < 500 ∨ 20000 < w then (s.logErr { code := 0x3201 }, 0x3201)
  else (s.plainWrite Reg.WEIR_WINDOW v, 0)

/-- WEIR_WINDOW_WRITE (R510). -/
def execWeirWindowWrite (v : Word) (s : State) : Out := .next (s.writeWeirWindow v).1

/-! ### Energy of the group (R512, R513) -/

/-- ENGY_GROUP_ADD (R512). -/
def State.groupAdd (s : State) (n : Nat) : State := s.addTo Reg.ENGY_GROUP Fld.ENGY_GROUP.acc n

/-- ENGY_GROUP_ADD (R512). -/
def execEngyGroupAdd (v : Word) (s : State) : Out := .next (s.groupAdd (Fld.ENGY_GROUP_ADD.add_uj.get v))

/-- Energy latched at step-ready, and reported to the leader (R512). -/
def State.latchEnergy (s : State) : State :=
  let pkg := s.get Reg.ENGY_PKG Fld.ENGY_PKG.energy_uj
  let d := min ((pkg + 2 ^ 64 - s.power.lastPkg) % 2 ^ 64) (2 ^ 32 - 1)
  let s := s.put Reg.ENGY_STEP Fld.ENGY_STEP.step (s.get Reg.FABR_STEP Fld.FABR_STEP.step)
  let s := s.put Reg.ENGY_STEP Fld.ENGY_STEP.last_uj d
  let s := { s with power := { s.power with lastPkg := pkg } }
  let lchip := s.get Reg.FABR_STEP_CFG Fld.FABR_STEP_CFG.lchip
  if s.get Reg.FABR_STEP_CFG Fld.FABR_STEP_CFG.leader = 1 then s.groupAdd d
  else if s.get Reg.ENGY_CTRL Fld.ENGY_CTRL.report = 1 then s.sendReg lchip Reg.ENGY_GROUP_ADD (BitVec.ofNat 64 d) 1 0
  else s

/-! ### Operating points in service (R516 to R519) -/

/-- The die's current point: that of its slowest reach (R54, log entry 22). -/
def State.dieOp (s : State) : Nat :=
  let ps := (List.range 16).map fun r => s.get (Reg.PACE_OPSEL r) Fld.PACE_OPSEL.current_op
  ps.foldl min 15

/-- Set target_op of every reach of a mask in one beat (R516). -/
def State.applyOpset (s : State) (target mask : Nat) : State :=
  ((List.range 16).filter fun r => mask.testBit r).foldl (fun (t : State) r =>
    let a := Reg.PACE_OPSEL r
    let own := t.get a Fld.PACE_OPSEL.target_op
    t.requestOp r (if t.get a Fld.PACE_OPSEL.auto_down = 1 then min target own else target)) s

/-- A write of IDLE_OPSET asks at once for a point above the ceiling, which is discarded (R65, R516). -/
def State.opsetRefused (s : State) (v : Word) : Bool :=
  Fld.IDLE_OPSET.go.get v == 1 && Fld.IDLE_OPSET.at_record.get v == 0 &&
  (List.range 16).any fun r => (Fld.IDLE_OPSET.reach_mask.get v).testBit r &&
    (let a := Reg.PACE_OPSEL r
     let t := Fld.IDLE_OPSET.target.get v
     decide (s.ceil < if s.get a Fld.PACE_OPSEL.auto_down = 1 then min t (s.get a Fld.PACE_OPSEL.target_op) else t))

/-- A write of IDLE_OPSET (R516). -/
def State.writeOpset (s : State) (v : Word) : State :=
  if Fld.IDLE_OPSET.go.get v = 0 then s
  else
    let t := Fld.IDLE_OPSET.target.get v
    let m := Fld.IDLE_OPSET.reach_mask.get v
    if Fld.IDLE_OPSET.at_record.get v = 1 then { s with idle := { s.idle with opset := some (t, m) } }
    else ({ s with idle := { s.idle with opset := none } }).applyOpset t m

/-- IDLE_OPSET (R516). -/
def execIdleOpset (v : Word) (s : State) : Out := .next (s.writeOpset v)

/-- Apply a set that waits for a record (R516). -/
def State.opsetAtRecord (s : State) : State :=
  match s.idle.opset with
  | none => s
  | some (t, m) => ({ s with idle := { s.idle with opset := none } }).applyOpset t m

/-- A point under IDLE_PHASE.cap and LIMS_OP_CEIL (R517). -/
def State.capped (s : State) (p : Nat) : Nat := min p (min (s.get Reg.IDLE_PHASE Fld.IDLE_PHASE.cap) s.ceil)

/-- The policy sets the target of a record's phase for its delivery (R517). -/
def State.phaseHint (s : State) (r : List Word) : State :=
  if s.get Reg.IDLE_PHASE Fld.IDLE_PHASE.enable = 0 then s
  else
    let w1 := (r.getD 1 0).toNat
    let pre := s.get Reg.IDLE_PHASE Fld.IDLE_PHASE.op_prefill
    let dec := s.get Reg.IDLE_PHASE Fld.IDLE_PHASE.op_decode
    let p := if w1 / 2 ^ 32 % 16 = 0xF then pre else if w1 / 2 ^ 48 % 256 = 0 then dec else max pre dec
    let t := s.capped p
    if t = s.dieOp then s else { s with idle := { s.idle with opset := some (t, 0xFFFF) } }

/-- A policy tick keeps this reading of ENGY_PKG, and the boundary it belongs to (R518). -/
def State.policyNote (s : State) (at_ : Nat) : State :=
  let n := s.get Reg.IDLE_SUSTAIN Fld.IDLE_SUSTAIN.window_ms
  let pkg := s.get Reg.ENGY_PKG Fld.ENGY_PKG.energy_uj
  { s with power := { s.power with ticks := (pkg :: s.power.ticks).take (n + 1), tickAt := at_ } }

/-- A policy tick notes ENGY_PKG at 1 ms after the last (R518). -/
def State.policySample (s : State) : State :=
  let s := s.advanceTo (s.power.tickAt + 1000000000)
  s.policyNote (s.now / 1000000000 * 1000000000)

/-- What the window of the last ticks used beyond the sustained figure, and what follows (R518). -/
def State.policyJudge (s : State) (n used full : Nat) : State :=
  if full < used then
    let s := s.hwPut Reg.IDLE_PHASE Fld.IDLE_PHASE.cap (min (s.get Reg.IDLE_PHASE Fld.IDLE_PHASE.cap) (s.dieOp - 1))
    let s := if s.power.episode then s else s.logErr { code := 0x4203 }
    { s with power := { s.power with episode := true, raising := false, goodFor := 0 } }
  else
    let good := if 100 * used ≤ 95 * full then s.power.goodFor + 1 else 0
    if !s.power.episode && !s.power.raising then s
    else if good < n then { s with power := { s.power with goodFor := good } }
    else if s.power.episode then { s with power := { s.power with episode := false, raising := true, goodFor := 0 } }
    else
      let c := min 15 (s.get Reg.IDLE_PHASE Fld.IDLE_PHASE.cap + 1)
      let s := s.hwPut Reg.IDLE_PHASE Fld.IDLE_PHASE.cap c
      { s with power := { s.power with raising := c < 15, goodFor := 0 } }

/-- POLICY_TICK (R518): every 1 ms of the timebase. -/
def State.policyTick (s : State) : State :=
  let s := s.policySample
  let n := s.get Reg.IDLE_SUSTAIN Fld.IDLE_SUSTAIN.window_ms
  let pkg := s.get Reg.ENGY_PKG Fld.ENGY_PKG.energy_uj
  let ticks := s.power.ticks
  if ticks.length < n + 1 ∨ n = 0 then s
  else s.policyJudge n ((pkg + 2 ^ 64 - ticks.getD n 0) % 2 ^ 64)
    (1000 * n * s.get Reg.IDLE_SUSTAIN Fld.IDLE_SUSTAIN.sustained_w)

/-- POLICY_TICK (R518). -/
def execPolicyTick (s : State) : Out := .next s.policyTick

/-- A reach whose vane lowered the cap, and since when its windowed codes have been good (R519). -/
def State.capReaches (s : State) : List Nat :=
  (List.range 16).filter fun r => (s.reach r).capWatch && (s.reach r).goodSince != 0

/-- CAP_RAISE (R519): 10 s of good codes, and again after each further 10 s. -/
def execCapRaise (s : State) : Out :=
  match s.capReaches with
  | [] => .next s
  | r :: rs =>
    let q := rs.foldl (fun m k => if (s.reach k).goodSince < (s.reach m).goodSince then k else m) r
    let s := s.advanceTo ((s.reach q).goodSince + 10000000000000)
    let c := min 15 (s.get Reg.IDLE_PHASE Fld.IDLE_PHASE.cap + 1)
    let s := s.hwPut Reg.IDLE_PHASE Fld.IDLE_PHASE.cap c
    .next (s.setReach q { s.reach q with goodSince := s.now, capWatch := c < 15 })

/-! ### Idle states (R520 to R525) -/

/-- Wake latency of a state in ns (R520). -/
def wakeNs (x : Nat) : Nat := [0, 2000, 40000, 600000, 10000000000].getD x 0

/-- Becalmed is permitted (R520). -/
def State.mayBecalm (s : State) : Bool :=
  s.get Reg.LEDG_POLICY Fld.LEDG_POLICY.enable == 0 &&
    (List.range 256).all fun n => s.coreState n == stStopped || s.coreState n == stFenced

/-- The state that R520 selects; 0: none. -/
def State.chosen (s : State) : Nat :=
  let b := s.get Reg.IDLE_BUDGET_NS Fld.IDLE_BUDGET_NS.budget_ns
  if wakeNs 4 ≤ b ∧ s.mayBecalm then 4
  else if wakeNs 3 ≤ b then 3 else if wakeNs 2 ≤ b then 2 else if wakeNs 1 ≤ b then 1 else 0

/-- The cores allow an idle state (R521). -/
def State.coresQuiet (s : State) : Bool :=
  let st := fun (n : Nat) => s.coreState n
  (List.range 256).all (fun n => st n != stRunning || s.lacksRecord n) ||
    (List.range 256).all fun n => st n != stRunning && st n != stHalted

/-- No barge is in the mesh, at an edge station or in an ingress buffer (R521). -/
def State.meshQuiet (s : State) : Bool :=
  s.mesh.flits.isEmpty && s.mesh.inbox.isEmpty && (List.range 48).all (fun p => (s.port p).tx.isEmpty) &&
    (List.range 256).all fun n => (s.core n).ingress.isEmpty

/-- No RDMA operation of a queue pair is in progress: no READ to answer, and no WRITE or READ of this device to be acknowledged. -/
def Qp.rdmaIdle (q : Qp) : Bool :=
  q.fetches.isEmpty && q.out_.all fun o => !([1, 2, 3].contains o.packet.kind)

/-- No engine works (R521). -/
def State.enginesQuiet (s : State) : Bool :=
  (List.range 256).all (fun n => (s.core n).feeder.isNone && (s.core n).sluice.all Option.isNone) &&
    (List.range 4).all (fun c => !(s.ferry c).active) && s.host.qps.all (fun q => q.2.rdmaIdle) &&
    s.host.etx.all (fun q => q.2.isEmpty) &&
    s.get Reg.WSWP_STAT Fld.WSWP_STAT.state == 0 && s.diag.testUnitAt.isNone

/-- The die is quiescent (R521). -/
def State.quiescent (s : State) : Bool :=
  s.coresQuiet && s.die.regQ.isEmpty && s.fabric.records.isEmpty && (!s.isWharf || s.fabric.outRec.isEmpty) && s.meshQuiet && s.enginesQuiet

/-- The policy notes when the die becomes quiescent and applies op_idle then, in place of a set that waits for a record (R516, R517). -/
def State.noteQuiet (s : State) : State :=
  if !s.quiescent then s.atWork
  else if s.idle.quiet.isSome then s
  else
    let t := s.capped (s.get Reg.IDLE_PHASE Fld.IDLE_PHASE.op_idle)
    let apply := s.get Reg.IDLE_PHASE Fld.IDLE_PHASE.enable = 1 ∧ t ≠ s.dieOp
    let s := { s with idle := { s.idle with quiet := some s.now, opset := if apply then none else s.idle.opset } }
    if apply then s.applyOpset t 0xFFFF else s

/-- Stop every pacer (R522). -/
def State.stopPacers (s : State) : State :=
  (List.range 16).foldl (fun (t : State) r => t.setReach r { t.reach r with stopped := true }) s

/-- The pacers recalibrate and resume at the beat where they stopped (R59, R522, R525). -/
def State.resumePacers (s : State) : State :=
  (List.range 16).foldl (fun (t : State) r => t.setReach r { t.reach r with
    stopped := false, ticked := true, tickAt := t.now, heldAtTick := t.die.heldPs }) s

/-- Hold `h` completes its waiting requests and enters self-refresh (R266, R522). -/
def State.selfRefresh (s : State) (h : Nat) : State :=
  let s := (List.range 64).foldl (fun (t : State) p =>
    (List.range (t.pc (h * 64 + p)).queue.length).foldl (fun (u : State) _ =>
      (u.advanceTo (u.pc (h * 64 + p)).busyTill).holdComplete h p) t) s
  s.put (Reg.HOLD_CTRL h) Fld.HOLD_CTRL.rmode 2

/-- Hold `h` leaves self-refresh in the mode of its temperature and makes up refresh: every refresh postponed, one after the other within
the wake's time for it (R266, R267, R522). -/
def State.leaveRefresh (s : State) (h : Nat) : State :=
  let a := Reg.HOLD_CTRL h
  let s := ((s.put a Fld.HOLD_CTRL.rmode 0).put (Reg.HOLD_REFRESH h) Fld.HOLD_REFRESH.trefi_ns 3900).reschedule h
  let s := s.chooseMode h
  (List.range 64).foldl (fun (t : State) p =>
    let k := h * 64 + p
    let x := t.pc k
    if x.postponed = 0 then t
    else (t.addTo (Reg.HOLD_REFRESH h) Fld.HOLD_REFRESH.refreshes x.postponed).setPc k { x with postponed := 0 }) s

/-- Enter Lull, Calm or Still, in one step (R522, R525, R527; log entry 31). -/
def State.enterIdle (s : State) (x : Nat) : State :=
  let s := s.stopPacers
  let s := if x = 3 then (s.selfRefresh 0).selfRefresh 1 else s
  let f := if x = 1 then Fld.IDLE_COUNT.lull else if x = 2 then Fld.IDLE_COUNT.calm else Fld.IDLE_COUNT.still
  let s := s.addSat Reg.IDLE_COUNT f 1
  let s := s.put Reg.IDLE_STATE Fld.IDLE_STATE.state x
  { s with idle := { s.idle with state := x, waitWeir := false, waking := false, since := s.now } }

/-- Entry to Lull, Calm or Still, which waits for the weirs where it must (R524). -/
def State.tryIdle (s : State) (x : Nat) : State :=
  if 2 ≤ x ∧ s.get Reg.WEIR_STAT Fld.WEIR_STAT.code ≠ 0 then { s with idle := { s.idle with waitWeir := true } }
  else s.enterIdle x

/-- An entry that waited for the weirs goes on when every code is 0b00 (R524), unless a test is pending (R564). -/
def State.goOnIdle (s : State) : State :=
  let x := s.chosen
  if !s.idle.waitWeir ∨ s.get Reg.WEIR_STAT Fld.WEIR_STAT.code ≠ 0 then s
  else if s.quiescent ∧ s.get Reg.TEST_STAT Fld.TEST_STAT.state = 0 ∧ x ≠ 0 ∧ x ≠ 4 then s.enterIdle x
  else { s with idle := { s.idle with waitWeir := false } }

/-- WEIR_CODE_FALL (R506, R508): after a whole window below the threshold. -/
def execWeirCodeFall (k : Fin 6) (s : State) : Out :=
  match (s.weir k).lowFrom with
  | none => .next s
  | some t =>
    let s := s.advanceTo (t + 1000 * s.get Reg.WEIR_WINDOW Fld.WEIR_WINDOW.window_ns)
    let c := s.weirCode k
    if c = 0 then .next s
    else
      let w := s.weir k
      let s := s.setWeir k { w with lowFrom := none, top := if c = 1 then 0 else w.top }
      .next (((s.setWeirCode k (c - 1)).weirBelow k).goOnIdle)

/-- A retune that waited, or whose stop was in progress at entry, is applied as the regulators settle, and its hold request ends
(R79); the policy's cap follows a vane's (R519). -/
def State.wakeRetune (s : State) (r : Nat) : State :=
  let a := Reg.PACE_OPSEL r
  let byVane := s.get a Fld.PACE_OPSEL.auto_down == 1
  if s.get a Fld.PACE_OPSEL.busy = 0 then s
  else
    let s := s.put a Fld.PACE_OPSEL.current_op (s.get a Fld.PACE_OPSEL.target_op)
    let s := s.addTo a Fld.PACE_OPSEL.retune_count 1
    let s := (s.put a Fld.PACE_OPSEL.auto_down 0).holdOff fun h => h.cause == .retune (⟨r % 16, Nat.mod_lt _ (by decide)⟩ : Fin 16)
    let s := (s.put a Fld.PACE_OPSEL.busy 0).setReach r { s.reach r with
      retune := .none, vaneAsked := false, critical := false, critRun := List.replicate 8 0 }
    s.capFollows r (s.get a Fld.PACE_OPSEL.target_op) byVane

/-- IDLE_WAKE_COMPLETE (R522, R525). A hold that goes on counts its causes (R58). A retune begun in Lull that still moves goes on without a hold request, as it began (R79, log entry
30). -/
def execIdleWakeComplete (s : State) : Out :=
  if s.idle.state = 0 ∨ !s.idle.waking then .next s
  else
    let s := s.advanceTo s.idle.wakeDue
    let x := s.idle.state
    let s := if x = 3 then (s.leaveRefresh 0).leaveRefresh 1 else s
    let s := if 2 ≤ x then (List.range 16).foldl State.wakeRetune s else s
    let s := s.resumePacers.put Reg.IDLE_STATE Fld.IDLE_STATE.state 0
    .next { s with idle := { s.idle with state := 0, waking := false, quiet := none } }.countHolds

/-- WAKE (R523): a write of 1 to IDLE_STATE.wake. -/
def execWake (s : State) : Out := .next (s.wakeOn 4)

/-- A write of IDLE_BUDGET_NS (R523, R524). -/
def State.writeBudget (s : State) (v : Word) : State :=
  let s := s.plainWrite Reg.IDLE_BUDGET_NS v
  if v.toNat < wakeNs s.idle.state then s.wakeOn 5 else s

/-- IDLE_BUDGET_WRITE (R523). -/
def execIdleBudgetWrite (v : Word) (s : State) : Out := .next (s.writeBudget v)

/-- A write of IDLE_CTRL (R527). -/
def State.writeIdleCtrl (s : State) (v : Word) : State × Nat :=
  if Fld.IDLE_CTRL.delay_ns.get v < 1000 then (s.logErr { code := 0x3201 }, 0x3201) else (s.plainWrite Reg.IDLE_CTRL v, 0)

/-- A write of ENGY_TBASE (R515). -/
def State.writeTbase (s : State) (v : Word) : State × Nat :=
  if s.get Reg.LEDG_POLICY Fld.LEDG_POLICY.enable = 1 then (s.logErr { code := 0x3201 }, 0x3201)
  else (s.plainWrite Reg.ENGY_TBASE v, 0)

end Sys2Proof.Machine
end

