-- ==== Sys2Proof/Machine/Ledger.lean ====
section
/-! DEFINITION. The serving engine's tables in the wharf's Hold 0 (R453 to R464): the ledger and its auxiliary records, tenants, prompt
slots, KV rounds, the audit ring, and what the engine does when it is enabled or the program is unloaded. -/

namespace Sys2Proof.Machine

/-! ### Ledger entries (R454) -/

/-- A field of a ledger entry: word E0 to E7 as 0 to 7, words of the auxiliary record as 8 to 11. -/
abbrev LedField := Nat × BitField

def Led.gen : LedField := (0, ⟨52, 12⟩)
def Led.state : LedField := (0, ⟨48, 4⟩)
def Led.tenant : LedField := (0, ⟨32, 16⟩)
def Led.pinned : LedField := (0, ⟨31, 1⟩)
def Led.mixed : LedField := (0, ⟨30, 1⟩)
def Led.cancelLate : LedField := (0, ⟨29, 1⟩)
def Led.cancelReq : LedField := (0, ⟨28, 1⟩)
def Led.atRisk : LedField := (0, ⟨27, 1⟩)
def Led.ttftMissed : LedField := (0, ⟨26, 1⟩)
def Led.tbtMissed : LedField := (0, ⟨25, 1⟩)
def Led.replay : LedField := (0, ⟨24, 1⟩)
def Led.flagByte : LedField := (0, ⟨24, 8⟩)
def Led.stream : LedField := (0, ⟨22, 2⟩)
def Led.pauseStream : LedField := (0, ⟨21, 1⟩)
def Led.pauseDebt : LedField := (0, ⟨20, 1⟩)
def Led.qclass : LedField := (0, ⟨16, 4⟩)
def Led.session : LedField := (0, ⟨8, 8⟩)
def Led.seed : LedField := (1, ⟨0, 64⟩)
def Led.promptLen : LedField := (2, ⟨46, 18⟩)
def Led.promptDone : LedField := (2, ⟨28, 18⟩)
def Led.maxNew : LedField := (2, ⟨10, 18⟩)
def Led.committed : LedField := (3, ⟨46, 18⟩)
def Led.produced : LedField := (3, ⟨28, 18⟩)
def Led.rounds : LedField := (3, ⟨14, 14⟩)
def Led.epoch : LedField := (4, ⟨32, 32⟩)
def Led.kvMap : LedField := (4, ⟨0, 32⟩)
def Led.ttftTarget : LedField := (5, ⟨32, 32⟩)
def Led.tbtTarget : LedField := (5, ⟨0, 32⟩)
def Led.ttft : LedField := (6, ⟨32, 32⟩)
def Led.tbtMax : LedField := (6, ⟨0, 32⟩)
def Led.tRef : LedField := (7, ⟨16, 48⟩)
def Led.cookie : LedField := (8, ⟨0, 64⟩)
def Led.promptRcvd : LedField := (9, ⟨0, 32⟩)
def Led.sflags : LedField := (9, ⟨32, 8⟩)
def Led.spec : LedField := (9, ⟨40, 8⟩)
def Led.pslot : LedField := (9, ⟨48, 16⟩)
def Led.ring : LedField := (10, ⟨0, 16⟩)
def Led.topK : LedField := (10, ⟨16, 16⟩)
def Led.invTemp : LedField := (10, ⟨32, 32⟩)
def Led.topP : LedField := (11, ⟨0, 32⟩)
def Led.stopToken : LedField := (11, ⟨32, 32⟩)

/-- Address of word `w` of entry `i`. -/
def State.ledAt (s : State) (i w : Nat) : Nat :=
  let b := s.get Reg.LEDG_BASE Fld.LEDG_BASE.base
  if w < 8 then b + 64 * i + 8 * w else b + 0x4000000 + 32 * i + 8 * (w - 8)

/-- A field of entry `i`. -/
def State.led (s : State) (i : Nat) (f : LedField) : Nat := f.2.get (s.word (s.ledAt i f.1))

/-- Write a word of memory. -/
def State.writeWord (s : State) (a : Nat) (w : Word) : State := s.writeAny a (natLe 8 w.toNat)

/-- Write a word of the ledger; until the next step has been processed, reads of the register path find the word that stood there
(R454). -/
def State.ledWrite (s : State) (a : Nat) (w : Word) : State :=
  let v := if (smFind s.engine.view a).isSome then s.engine.view else smPut s.engine.view a (s.word a)
  ({ s with engine := { s.engine with view := v } }).writeWord a w

/-- Set a field of entry `i`. -/
def State.setLed (s : State) (i : Nat) (f : LedField) (v : Nat) : State :=
  let a := s.ledAt i f.1
  s.ledWrite a (f.2.set (s.word a) v)

/-- Add to a field of entry `i`. -/
def State.addLed (s : State) (i : Nat) (f : LedField) (v : Nat) : State := s.setLed i f (s.led i f + v)

/-! ### Table accesses (R264, R279, R280) -/

/-- The engine reads parts of its tables, each an address and a length: earlier writes of them are served first, and lines in error are counted
and logged, each code once (R264, R279, R280, R345; log entry 31). In Still the access wakes the die (R523). -/
def State.useTables (s : State) (l : List (Nat × Nat)) : State :=
  let s := if s.idle.state = 3 then s.wakeOn 3 else s
  let s := l.foldl (fun (t : State) x => t.serveAhead x.1 x.2) s
  (l.foldl (fun (acc : State × List Nat) x => acc.1.readHold x.1 x.2 acc.2) (s, [])).1

/-- The engine writes bytes: earlier writes of them are served first, and a line of which it writes a part is read first (R264, R279). -/
def State.tableStore (s : State) (a : Nat) (bs : List Byte) : State := (s.serveAhead a bs.length).writePieces [(a, bs, [])]

/-! ### States and handles (R453, R455, R456) -/

def rqFree : Nat := 0
def rqWaiting : Nat := 1
def rqPrefill : Nat := 2
def rqDecode : Nat := 3
def rqCompleted : Nat := 4
def rqCancelled : Nat := 5
def rqFailed : Nat := 6

def State.rq (s : State) (i : Nat) : Nat := s.led i Led.state

/-- A request that has not ended. -/
def State.rqLive (s : State) (i : Nat) : Bool :=
  let x := s.rq i
  x == rqWaiting || x == rqPrefill || x == rqDecode

def State.capacity (s : State) : Nat := min 1048576 (s.get Reg.LEDG_COUNT Fld.LEDG_COUNT.capacity)

/-- Entries in use, in ascending order. -/
def State.reqs (s : State) : List Nat := (List.range s.capacity).filter fun i => s.rq i != rqFree

/-- Generation of an entry, which starts at 1 (R453). -/
def State.genOf (s : State) (i : Nat) : Nat := max 1 (s.led i Led.gen)

/-- Handle of entry `i`. -/
def State.handleOf (s : State) (i : Nat) : Nat := s.genOf i * 2 ^ 20 + i

/-- The entry that a handle names (R453). -/
def State.findReq (s : State) (h : Nat) : Option Nat :=
  let i := h % 2 ^ 20
  if i < s.capacity ∧ s.rq i ≠ rqFree ∧ s.genOf i = h / 2 ^ 20 then some i else none

/-- LEDG_POLICY.enable. -/
def State.ledgOn (s : State) : Bool := s.get Reg.LEDG_POLICY Fld.LEDG_POLICY.enable == 1

/-- The engine serves: enabled, and on the wharf. -/
def State.serving (s : State) : Bool := s.ledgOn && s.isWharf

/-- Replay mode (R480). -/
def State.replaying (s : State) : Bool := s.get Reg.LEDG_POLICY Fld.LEDG_POLICY.replay == 1

def State.modEngine (s : State) (f : Engine → Engine) : State := { s with engine := f s.engine }

/-- The fabric time that the ledger stores (R454). -/
def State.time48 (s : State) : Nat := s.get Reg.FABR_TIME Fld.FABR_TIME.time_ns % 2 ^ 48

/-! ### Tenants (R459 to R461) -/

/-- Address of word `w` of tenant `t`. -/
def State.tenAt (s : State) (t w : Nat) : Nat := s.get Reg.LEDG_TENANT_BASE Fld.LEDG_TENANT_BASE.base + 32 * t + 8 * w

def Ten.balance : LedField := (0, ⟨24, 40⟩)
def Ten.inCost : LedField := (0, ⟨16, 8⟩)
def Ten.outCost : LedField := (0, ⟨8, 8⟩)
def Ten.burst : LedField := (1, ⟨24, 40⟩)
def Ten.floor : LedField := (2, ⟨24, 40⟩)
def Ten.rate : LedField := (2, ⟨0, 24⟩)
def Ten.tRefill : LedField := (3, ⟨16, 48⟩)
def Ten.enabled : LedField := (3, ⟨0, 1⟩)

def State.ten (s : State) (t : Nat) (f : LedField) : Nat := f.2.get (s.word (s.tenAt t f.1))
def State.setTen (s : State) (t : Nat) (f : LedField) (v : Nat) : State :=
  let a := s.tenAt t f.1
  s.writeWord a (f.2.set (s.word a) v)

/-- A 40-bit two's-complement field. -/
def signed40 (n : Nat) : Int := if n < 2 ^ 39 then n else (n : Int) - 2 ^ 40
def bits40 (z : Int) : Nat := (z % 2 ^ 40).toNat

def State.balance (s : State) (t : Nat) : Int := signed40 (s.ten t Ten.balance)
def State.setBalance (s : State) (t : Nat) (z : Int) : State := s.setTen t Ten.balance (bits40 z)

/-- Refill a tenant for the whole milliseconds up to a time; none for a time before that of its last refill (R460). -/
def State.refill (s : State) (t time : Nat) : State :=
  let d := (time + 2 ^ 48 - s.ten t Ten.tRefill) % 2 ^ 48
  let m := d / 1000000
  if m = 0 ∨ 2 ^ 47 ≤ d then s
  else
    let b := s.balance t
    let burst : Int := s.ten t Ten.burst
    let s := if burst ≤ b then s else s.setBalance t (min burst (b + (s.ten t Ten.rate * m : Nat)))
    s.setTen t Ten.tRefill (s.ten t Ten.tRefill + m * 1000000)

/-- The entry's next delivery is not measured (R476). -/
def State.skipNext (s : State) (i : Nat) : State := s.modEngine fun e => { e with skip := i :: e.skip.filter (· != i) }

/-- Set a pause flag of a request, noted for the composition under an audit kind (R461, R478, R479). -/
def State.pause (s : State) (i : Nat) (f : LedField) (kind : Nat) : State :=
  if s.led i f = 1 then s
  else
    let h := s.handleOf i
    (s.setLed i f 1).modEngine fun e => { e with acted := e.acted ++ [(kind, h)] }

/-- Debit a tenant; below the floor its requests are paused, and 0x6B03 is logged once (R461). Replay pauses nothing (R480). -/
def State.debit (s : State) (t cost handle : Nat) : State :=
  let b := max (-(2 : Int) ^ 39) (s.balance t - (cost : Int))
  let s := s.setBalance t b
  if signed40 (s.ten t Ten.floor) ≤ b ∨ s.replaying ∨ s.engine.debt.contains t then s
  else
    let s := s.modEngine fun e => { e with debt := t :: e.debt }
    let s := s.logErr { code := 0x6B03, info := handle }
    (s.reqs.filter fun i => s.rqLive i && s.led i Led.tenant == t).foldl (fun u i => u.pause i Led.pauseDebt 3) s

/-! ### Prompt slots (R464) -/

def State.slotBytes (s : State) : Nat := 1024 * s.get Reg.LEDG_PROMPT Fld.LEDG_PROMPT.slot_kib

/-- Address of prompt token `k` in a slot. -/
def State.promptAt (s : State) (slot k : Nat) : Nat :=
  65536 * s.get Reg.LEDG_PROMPT Fld.LEDG_PROMPT.base + slot * s.slotBytes + 4 * k

/-- Lowest prompt slot that no request holds. -/
def State.freePrompt (s : State) : Option Nat :=
  let used := s.reqs.map fun i => s.led i Led.pslot
  (List.range (s.get Reg.LEDG_PROMPT Fld.LEDG_PROMPT.slots)).find? fun k => !used.contains k

/-! ### KV rounds (R462, R463) -/

def State.roundTokens (s : State) : Nat := s.get Reg.LEDG_KV Fld.LEDG_KV.round_tokens

/-- Rounds that a request reserves (R463). -/
def State.reservation (s : State) (len new spec : Nat) : Nat := ceilDiv (len + new + spec) s.roundTokens

/-- Rounds reserved for entry `i`. -/
def State.reserved (s : State) (i : Nat) : Nat :=
  s.reservation (s.led i Led.promptLen) (s.led i Led.maxNew) (s.led i Led.spec)

/-- Address of a page token of the pool. -/
def State.poolAt (s : State) (k : Nat) : Nat := 65536 * s.get Reg.LEDG_KVPOOL Fld.LEDG_KVPOOL.base + 4 * k

/-- Device address of the page map of entry `i` (R454, R462). -/
def State.mapAt (s : State) (i : Nat) : Nat := 16384 * s.led i Led.kvMap

/-- Take a page token from the pool. -/
def State.popPage (s : State) : State × Nat :=
  let n := s.get Reg.LEDG_KVSTAT Fld.LEDG_KVSTAT.free
  let s := s.useTables [(s.poolAt (n - 1), 4)]
  (s.put Reg.LEDG_KVSTAT Fld.LEDG_KVSTAT.free (n - 1), leNat (s.bytes (s.poolAt (n - 1)) 4))

/-- Return a page token to the pool. -/
def State.pushPage (s : State) (tok : Nat) : State :=
  let n := s.get Reg.LEDG_KVSTAT Fld.LEDG_KVSTAT.free
  (s.tableStore (s.poolAt n) (natLe 4 tok)).put Reg.LEDG_KVSTAT Fld.LEDG_KVSTAT.free (n + 1)

/-- The map entry of a page token: valid, chip 0, hold and page (R270, R463). -/
def mapEntry (tok : Nat) : Word := BitVec.ofNat 64 (2 ^ 63 + tok % 2 ^ 21)

/-- An access of every chip of a list. -/
def toChips (chips : List Nat) (a : Nat) (v : Word) : List Access := chips.map fun c => { chip := c, addr := a, val := some v }

/-- The members of the step domain, this chip as 0; this chip alone where none is marked (R402). -/
def State.members (s : State) : List Nat :=
  let l := (List.range 4096).filter fun c => s.hasBit (Reg.FABR_STEP_MEMBERS (c / 64)) ⟨0, 64⟩ (c % 64)
  let l := l.map fun c => if s.isHere c then 0 else c
  if l.isEmpty then [0] else l

/-- Allocate rounds of entry `i` up to `need`, at most its reservation, with the writes that put them into every chip's map: the
entry and the header's page_count (R463). -/
def State.allocRounds (s : State) (i need : Nat) : State × List Access :=
  let have_ := s.led i Led.rounds
  let want := min need (s.reserved i)
  let m := s.mapAt i
  let chips := s.members
  let one := fun (acc : State × List Access) (r : Nat) =>
    let (t, tok) := acc.1.popPage
    let k := t.get Reg.LEDG_KVSTAT Fld.LEDG_KVSTAT.reserved_pages
    let t := t.put Reg.LEDG_KVSTAT Fld.LEDG_KVSTAT.reserved_pages (k - 1)
    (t.setLed i Led.rounds (r + 1), acc.2 ++ toChips chips (m + 64 + 8 * r) (mapEntry tok))
  if want ≤ have_ then (s, [])
  else
    let s := s.useTables [(m, 8)]
    let (t, l) := (List.range (want - have_)).foldl (fun acc k => one acc (have_ + k)) (s, [])
    (t, l ++ toChips chips m ((⟨32, 16⟩ : BitField).set (t.word m) want))

/-- Free an entry: its prompt slot, rounds, reservation and ring context return, and its generation moves on (R453, R457, R458). -/
def State.freeReq (s : State) (i : Nat) : State :=
  let n := s.led i Led.rounds
  let m := s.mapAt i
  let k := s.get Reg.LEDG_KVSTAT Fld.LEDG_KVSTAT.reserved_pages
  let s := (s.put Reg.LEDG_KVSTAT Fld.LEDG_KVSTAT.reserved_pages (k - (s.reserved i - n))).useTables [(m + 64, 8 * n)]
  let s := (List.range n).foldl (fun (t : State) r => t.pushPage ((t.word (m + 64 + 8 * r)).toNat % 2 ^ 21)) s
  let ring := s.led i Led.ring
  let s := { s with host := { s.host with rings := smDel s.host.rings ring } }
  let s := s.put Reg.STRM_STAT Fld.STRM_STAT.rings s.host.rings.length
  let g := s.genOf i
  let s := s.setLed i Led.state rqFree
  let s := (s.setLed i Led.gen (if g = 0xFFF then 1 else g + 1)).setLed i Led.pslot 0xFFFF
  let s := s.setLed i Led.ring 0xFFFF
  let s := s.put Reg.LEDG_COUNT Fld.LEDG_COUNT.in_use (s.get Reg.LEDG_COUNT Fld.LEDG_COUNT.in_use - 1)
  s.modEngine fun e => { e with
    acked := e.acked.filter (· != i), skip := e.skip.filter (· != i)
    owner := smDel e.owner i, lastTok := smDel e.lastTok i, stepOf := smDel e.stepOf i }

/-! ### Audit (R479) -/

/-- Append an event to the audit ring. -/
def State.audit (s : State) (step kind value : Nat) : State :=
  let n := s.get Reg.LEDG_AUDIT_HEAD Fld.LEDG_AUDIT_HEAD.written
  let c := s.get Reg.LEDG_AUDIT Fld.LEDG_AUDIT.count
  let a := 65536 * s.get Reg.LEDG_AUDIT Fld.LEDG_AUDIT.base + 16 * (n % c)
  let s := if c = 0 then s else s.tableStore a (natLe 2 kind ++ natLe 6 value ++ natLe 8 step)
  s.put Reg.LEDG_AUDIT_HEAD Fld.LEDG_AUDIT_HEAD.written (n + 1)

/-- Values of the replay table's events of a kind and step, in order (R480). -/
def State.replayed (s : State) (step kind : Nat) : List Nat :=
  let b := 65536 * s.get Reg.LEDG_REPLAY Fld.LEDG_REPLAY.base
  ((List.range (s.get Reg.LEDG_REPLAY Fld.LEDG_REPLAY.count)).filter fun n =>
    leNat (s.bytes (b + 16 * n) 2) == kind && (s.word (b + 16 * n + 8)).toNat == step).map fun n =>
      leNat (s.bytes (b + 16 * n + 2) 6)

/-! ### Pins (R497) -/

/-- Recount the requests pinned to the old epoch; at 0 the old copy is free (R497). -/
def State.countPinned (s : State) : State :=
  let old := s.get Reg.WSWP_EPOCH Fld.WSWP_EPOCH.old_epoch
  let n := if old = 0 ∨ !s.isWharf then 0
    else (s.reqs.filter fun i => s.led i Led.pinned == 1 && s.led i Led.epoch == old).length
  let s := s.put Reg.WSWP_STAT Fld.WSWP_STAT.pinned_old n
  if n = 0 then s.put Reg.WSWP_EPOCH Fld.WSWP_EPOCH.old_epoch 0 else s

/-! ### Ends, enabling and unloading (R456, R457, R481, R482) -/

/-- The number of requests paused for stream space as STRM_STAT shows it (R452). -/
def State.countPaused (s : State) : State :=
  s.put Reg.STRM_STAT Fld.STRM_STAT.paused (s.reqs.filter fun i => s.rqLive i && s.led i Led.pauseStream == 1).length

/-- A request ends with a record that carries no token in the stream of a step, 0 for the next (R458, R481). -/
def State.endQuiet (s : State) (i state step : Nat) : State :=
  let h := s.handleOf i
  ((s.setLed i Led.state state).modEngine fun e => { e with extra := e.extra ++ [(step, h, 0x11)] }).countPaused

/-- Every request that has not ended fails when the program is unloaded; what was composed is gone (R481). -/
def State.unloadRequests (s : State) : State :=
  if !s.serving then s
  else
    let s := (s.reqs.filter s.rqLive).foldl (fun (t : State) i => t.endQuiet i rqFailed 0) s
    let s := { s with fabric := { s.fabric with outRec := [] } }
    s.modEngine fun e => { e with unproc := [], ran := [], open_ := none, composed := none }

/-- The engine is enabled: every page token is free, the entries in use are counted, and the audit ring starts (R462, R482). -/
def State.enableEngine (s : State) : State :=
  let a := Reg.LEDG_KVSTAT
  let s := s.put Reg.LEDG_COUNT Fld.LEDG_COUNT.in_use s.reqs.length
  let s := (s.put a Fld.LEDG_KVSTAT.free (s.get Reg.LEDG_KVPOOL Fld.LEDG_KVPOOL.count)).put a Fld.LEDG_KVSTAT.reserved_pages 0
  let s := s.setReg Reg.LEDG_AUDIT_HEAD 0
  s.modEngine fun e => { e with composed := none, unproc := [], ran := [], open_ := none, procAt := s.now, view := [] }

/-- A write of a register of the LEDG block (R482). RW fields but enable change only while enable is 0, and reserved bits are ignored (R18);
the fields of LEDG_STAT are cleared by writing 0. -/
def State.writeLedg (s : State) (a : Nat) (v : Word) : State × Nat :=
  let en := Fld.LEDG_POLICY.enable
  let refuse : State × Nat := (s.logErr { code := 0x3B01 }, 0x3B01)
  if a = Reg.LEDG_POLICY then
    let rest := en.set ((s.plainWrite a v).reg a) 0
    let old := en.set (s.reg a) 0
    if Fld.LEDG_POLICY.max_class.get v = 7 then refuse
    else if s.ledgOn ∧ rest ≠ old then refuse
    else
      let was := s.ledgOn
      let s := s.plainWrite a v
      (if !was ∧ s.ledgOn then s.enableEngine else s, 0)
  else if s.ledgOn then refuse
  else (s.plainWrite a v, 0)

end Sys2Proof.Machine
end

