-- ==== Sys2Proof/Machine/Sha3.lean ====
section
/-! DEFINITION. SHA3-512 (FIPS 202), which the manual names for measurements and for the check of a staged copy (R487, R535). -/

namespace Sys2Proof.Machine

/-- Rotation offsets of the lanes x + 5y. -/
def keccakRot : List Nat :=
  [0, 1, 62, 28, 27, 36, 44, 6, 55, 20, 3, 10, 43, 25, 39, 41, 45, 15, 21, 8, 18, 2, 61, 56, 14]

/-- Round constants. -/
def keccakRc : List Word :=
  [0x0000000000000001, 0x0000000000008082, 0x800000000000808A, 0x8000000080008000, 0x000000000000808B, 0x0000000080000001,
   0x8000000080008081, 0x8000000000008009, 0x000000000000008A, 0x0000000000000088, 0x0000000080008009, 0x000000008000000A] ++
  [0x000000008000808B, 0x800000000000008B, 0x8000000000008089, 0x8000000000008003, 0x8000000000008002, 0x8000000000000080,
   0x000000000000800A, 0x800000008000000A, 0x8000000080008081, 0x8000000000008080, 0x0000000080000001, 0x8000000080008008]

/-- Lane (x, y) of a state. -/
def lane (a : List Word) (x y : Nat) : Word := a.getD (x % 5 + 5 * (y % 5)) 0

/-- One round. -/
def keccakRound (a : List Word) (rc : Word) : List Word :=
  let c := (List.range 5).map fun x => lane a x 0 ^^^ lane a x 1 ^^^ lane a x 2 ^^^ lane a x 3 ^^^ lane a x 4
  let d := (List.range 5).map fun x => c.getD ((x + 4) % 5) 0 ^^^ (c.getD ((x + 1) % 5) 0).rotateLeft 1
  let th := (List.range 25).map fun i => a.getD i 0 ^^^ d.getD (i % 5) 0
  let rho := (List.range 25).map fun i => (th.getD i 0).rotateLeft (keccakRot.getD i 0)
  let pi := (List.range 25).map fun i => lane rho (i % 5 + 3 * (i / 5)) (i % 5)
  let chi := (List.range 25).map fun i =>
    lane pi (i % 5) (i / 5) ^^^ (~~~ lane pi (i % 5 + 1) (i / 5) &&& lane pi (i % 5 + 2) (i / 5))
  match chi with
  | [] => []
  | h :: t => (h ^^^ rc) :: t

/-- The permutation. -/
def keccakF (a : List Word) : List Word := keccakRc.foldl keccakRound a

/-- Mix a block of 72 bytes into the state. -/
def absorb (a : List Word) (blk : List Byte) : List Word :=
  keccakF ((List.range 25).map fun i =>
    a.getD i 0 ^^^ (if i < 9 then BitVec.ofNat 64 (leNat ((blk.drop (8 * i)).take 8)) else 0))

/-- Absorb a message, the last block padded. `n` bounds the whole blocks. -/
def absorbAll : Nat → List Word → List Byte → List Word
  | 0, a, _ => a
  | n + 1, a, bs =>
    if bs.length < 72 then
      let z := 71 - bs.length
      absorb a (if z = 0 then bs ++ [0x86] else bs ++ [0x06] ++ List.replicate (z - 1) 0 ++ [0x80])
    else absorbAll n (absorb a (bs.take 72)) (bs.drop 72)

/-- The digest, 64 bytes. -/
def sha3 (bs : List Byte) : List Byte :=
  ((absorbAll (bs.length / 72 + 1) (List.replicate 25 0) bs).take 8).flatMap fun w => natLe 8 w.toNat

end Sys2Proof.Machine
end

