-- ==== Sys2Proof/Machine/Weights.lean ====
section
/-! DEFINITION. Weight epochs (R483 to R501): checks of the staging area, fills of the weight stores, and the registers of the WSWP
block. -/

namespace Sys2Proof.Machine

def State.wState (s : State) : Nat := s.get Reg.WSWP_STAT Fld.WSWP_STAT.state
def State.setWState (s : State) (x : Nat) : State := s.put Reg.WSWP_STAT Fld.WSWP_STAT.state x
def State.readyEpoch (s : State) : Nat := s.get Reg.WSWP_STAT Fld.WSWP_STAT.ready_epoch
def State.wEpoch (s : State) : Nat := s.get Reg.WSWP_EPOCH Fld.WSWP_EPOCH.epoch
def State.wMode (s : State) : Nat := s.get Reg.WSWP_MODE Fld.WSWP_MODE.mode

/-- A refused command of the WSWP block. -/
def State.refuse6C02 (s : State) : State × Nat := (s.logErr { code := 0x6C02 }, 0x6C02)

/-- No step has begun on the epoch in force (R490). -/
def State.notBegun (s : State) : State := { s with weights := { s.weights with begun := false } }

/-! ### The staging area (R486, R487) -/

/-- CHECK (R487): the copy is checked, and counts for nothing until the check ends well. -/
def State.startCheck (s : State) : State × Nat :=
  if s.wState ≠ 0 then s.refuse6C02
  else (((s.put Reg.WSWP_STAT Fld.WSWP_STAT.ready_epoch 0).setWState 1).wakeOn 2, 0)

/-- CHECK (R487). -/
def execCheck (s : State) : Out := .next s.startCheck.1

/-- The bytes of the mapped cores' slices, in order. -/
def State.staging (s : State) : List Byte := s.mappedCores.flatMap fun n => s.bytes (s.sliceAt n) s.sliceLen

/-- Some line of the slices is uncorrectable. -/
def State.stagingBad (s : State) : Bool := s.mappedCores.any fun n => s.anyUe (s.sliceAt n) s.sliceLen

/-- Read the mapped cores' slices: earlier writes of them are served first, and each code of a line in error is logged once (R264, R280,
R487). -/
def State.readStaging (s : State) : State := s.useTables (s.mappedCores.map fun n => (s.sliceAt n, s.sliceLen))

/-- CHECK_COMPLETE (R487). -/
def execCheckComplete (s : State) : Out :=
  if s.wState ≠ 1 then .next s
  else
    let s := s.readStaging
    let t := s.setReg Reg.WSWP_DIGEST (BitVec.ofNat 64 (leNat ((sha3 s.staging).take 8)))
    let t := t.setWState 0
    .next (if s.stagingBad then t.hwSet Reg.WSWP_STAT Fld.WSWP_STAT.check_fail 1
      else t.put Reg.WSWP_STAT Fld.WSWP_STAT.ready_epoch (t.get Reg.WSWP_CTRL Fld.WSWP_CTRL.staged_epoch))

/-! ### Fills (R486, R488, R489, R493, R500) -/

/-- Epoch field of copy `c` in WS_COPY. -/
def copyField (c : Nat) : BitField := if c = 0 then Fld.WS_COPY.copy0_epoch else Fld.WS_COPY.copy1_epoch

/-- Set a field of WS_COPY on every enabled core. -/
def State.setCopies (s : State) (c epoch : Nat) : State :=
  (List.range 256).foldl (fun (t : State) n => if t.enabled n then t.put (Reg.WS_COPY n) (copyField c) epoch else t) s

/-- LOAD_FILL (R488). -/
def State.startLoadFill (s : State) : State × Nat :=
  if s.anyBusy ∨ s.wState ≠ 0 ∨ (s.wMode ≠ 1 ∧ s.wMode ≠ 2) ∨ s.vgrid = 0 ∨ s.readyEpoch = 0 then s.refuse6C02
  else
    let s := (s.setWState 3).wakeOn 2
    ({ s with weights := { s.weights with load := true } }.startFill 0, 0)

/-- LOAD_FILL (R488). -/
def execLoadFill (s : State) : Out := .next s.startLoadFill.1

/-- The last line of a load fill is written (R488). -/
def State.loadFilled (s : State) : State :=
  let e := s.readyEpoch
  let s := s.setReg Reg.WSWP_EPOCH (BitVec.ofNat 64 e)
  let s := s.mappedCores.foldl (fun (t : State) n => t.setReg (Reg.WS_COPY n) (BitVec.ofNat 64 e)) s
  let s := (s.addSat Reg.WSWP_PAUSE Fld.WSWP_PAUSE.fills 1).setWState 0
  { s with weights := { s.weights with load := false, begun := false } }

/-- LOAD_FILL_COMPLETE (R488): the front ends send what they can, and once every line is written the fill is complete. -/
def execLoadFillComplete (s : State) : Out :=
  if s.wState = 3 ∧ s.weights.load then
    let s := s.fillWork
    .next (if s.fillDone then s.loadFilled else s)
  else .next s

/-- The free copy: that whose epoch is neither in force nor held by a pinned request (R489). -/
def State.freeCopy (s : State) : Nat :=
  let held := fun (e : Nat) => e == s.wEpoch || (e != 0 && e == s.get Reg.WSWP_EPOCH Fld.WSWP_EPOCH.old_epoch)
  match s.mappedCores with
  | n :: _ => if held (s.get (Reg.WS_COPY n) Fld.WS_COPY.copy0_epoch) then 1 else 0
  | [] => 1

/-- PRIME (R489, R490). -/
def State.startPrime (s : State) : State × Nat :=
  let s := s.countPinned
  if s.readyEpoch = 0 ∨ s.wState ≠ 0 ∨ s.wMode ≠ 1 ∨ s.get Reg.WSWP_STAT Fld.WSWP_STAT.pinned_old ≠ 0 ∨
     !s.weights.begun then s.refuse6C02
  else
    let s := (s.setWState 2).wakeOn 2
    ({ s with weights := { s.weights with copy := s.freeCopy } }.startFill s.freeCopy, 0)

/-- PRIME (R489). -/
def execPrime (s : State) : Out := .next s.startPrime.1

/-- PRIME_COMPLETE (R489): the front ends send what they can, and once every line is written the prime ends. -/
def execPrimeComplete (s : State) : Out :=
  if s.wState ≠ 2 then .next s
  else
    let s := s.fillWork
    .next (if s.fillDone then (s.setCopies s.weights.copy s.readyEpoch).setWState 0 else s)

/-- A record waits for the staged fill that its epoch asks for (R493). -/
def State.wantsStaged (s : State) (r : List Word) : Bool :=
  s.wMode == 2 && s.get Reg.WSWP_ARM Fld.WSWP_ARM.armed == 1 &&
    (r.getD 2 0).toNat / 2 ^ 32 == s.get Reg.WSWP_ARM Fld.WSWP_ARM.next

/-- The record that the step unit delivers next. -/
def State.oldestRec (s : State) : Option (List Word) := s.fabric.records.head?

/-- STAGED_FILL (R493): after the last KDONE of the previous step. Its barges wake the die (R523). -/
def execStagedFill (s : State) : Out :=
  match s.oldestRec with
  | none => .next s
  | some r =>
    if s.wantsStaged r ∧ s.stepEnded ∧ s.wState = 0 then
      .next ((({ s with weights := { s.weights with load := false } }).setWState 3).wakeOn 2 |>.startFill 0)
    else .next s

/-- Disarm at a switch: a write of the same beat wins (R17); while the die is held the switch falls in no beat. -/
def State.disarmed (s : State) : State :=
  if s.held then s.put Reg.WSWP_ARM Fld.WSWP_ARM.armed 0 else s.hwPut Reg.WSWP_ARM Fld.WSWP_ARM.armed 0

/-- The fill of a staged switch ends, and the epoch advances; copy 1 holds none (R493, R501). -/
def State.stagedFilled (s : State) : State :=
  let e := s.get Reg.WSWP_ARM Fld.WSWP_ARM.next
  let s := s.put Reg.WSWP_PAUSE Fld.WSWP_PAUSE.pause_ns ((s.now - s.weights.lastDone) / 1000)
  let s := s.addSat Reg.WSWP_PAUSE Fld.WSWP_PAUSE.fills 1
  ((((s.put Reg.WSWP_EPOCH Fld.WSWP_EPOCH.epoch e).setCopies 0 e).setCopies 1 0).disarmed.setWState 0).notBegun

/-! ### Writes (R483, R484, R492, R499, R501) -/

/-- Copy size of a mode in KiB (R484). -/
def copyKib (m : Nat) : Nat := if m = 1 then 16384 else 32768

/-- A write of WSWP_EPOCH, WSWP_MODE or WSWP_STAGE_h; in staged mode copy 1 of no core holds an epoch (R501). -/
def State.writeWeightReg (s : State) (a : Nat) (v : Word) : State × Nat :=
  let m := Fld.WSWP_MODE.mode.get v
  let k := Fld.WSWP_MODE.slice_kib.get v
  let badMode : Bool := a == Reg.WSWP_MODE && (m == 3 || (m != 0 && (k == 0 || decide (copyKib m < k))))
  if s.anyBusy ∨ badMode then (s.logErr { code := 0x3C01 }, 0x3C01)
  else
    let s := s.plainWrite a v
    (if a = Reg.WSWP_EPOCH then s.notBegun
      else if a = Reg.WSWP_MODE ∧ m = 2 then s.setCopies 1 0 else s, 0)

/-- Disarm this chip: a swap armed on it is aborted (R499). -/
def State.disarmSwap (s : State) : State :=
  if s.get Reg.WSWP_ARM Fld.WSWP_ARM.armed = 0 then s
  else (s.put Reg.WSWP_ARM Fld.WSWP_ARM.armed 0).hwSet Reg.WSWP_STAT Fld.WSWP_STAT.aborted 1

/-- A write of WSWP_ARM on this chip (R492, R499). Once a composition has used next, a write of armed = 0 aborts nothing and is a plain
write (log entry 31). -/
def State.writeArm (s : State) (v : Word) : State × Nat :=
  if Fld.WSWP_ARM.armed.get v = 0 then
    if s.engine.switchAt.isSome then (s.plainWrite Reg.WSWP_ARM v, 0)
    else (s.disarmSwap.put Reg.WSWP_ARM Fld.WSWP_ARM.next (Fld.WSWP_ARM.next.get v), 0)
  else if s.readyEpoch ≠ Fld.WSWP_ARM.next.get v then s.refuse6C02
  else (s.plainWrite Reg.WSWP_ARM v, 0)

/-- A write of WSWP_CTRL: its commands in turn, each on its own conditions (R487 to R490). -/
def State.writeWswpCtrl (s : State) (v : Word) : State × Nat :=
  let s := s.plainWrite Reg.WSWP_CTRL (v &&& 0xFFFFFFFFFFFF)
  let run := fun (p : State × Nat) (f : BitField) (g : State → State × Nat) =>
    if f.get v = 1 then (let q := g p.1; (q.1, if p.2 = 0 then q.2 else p.2)) else p
  run (run (run (s, 0) Fld.WSWP_CTRL.check State.startCheck) Fld.WSWP_CTRL.prime State.startPrime)
    Fld.WSWP_CTRL.load State.startLoadFill

end Sys2Proof.Machine
end

