-- ==== Sys2Proof/Machine/Capture.lean ====
section
/-! DEFINITION. Capture (R557 to R562), the forwarding of errors and EVENT messages (R555, R600), and self-test (R144, R563 to R567). -/

namespace Sys2Proof.Machine

/-! ### Capture triggers (R557) -/

/-- A trigger that arrives at the first beat which begins at least 10 ns from now; its source bit and the arming are judged in that
beat (R557). -/
def State.lateTrigger (s : State) (src : Nat) : State := s.queueTrigger src 0 (s.now + 10000)

/-- CAPT_IN_EDGE (R557). -/
def execCaptInEdge (s : State) : Out := .next (s.lateTrigger 0)

/-- FABRIC_TIME_MATCH (R557): at the time at which FABR_TIME reaches SNAP_TIME. -/
def execFabricTimeMatch (s : State) : Out :=
  let t := s.get Reg.FABR_TIME Fld.FABR_TIME.time_ns
  let m := s.get Reg.SNAP_TIME Fld.SNAP_TIME.time
  if m < t then .next s else .next ((s.advanceTo (s.now + 1000 * (m - t))).lateTrigger 5)

/-! ### The capture beat (R558, R561) -/

/-- Numbers of the control blocks that R558 copies: DEV, PACE, WEIR, ENGY, LOCK, MESH, HOLD, TOWL, FABR, LEDG, STRM, WSWP, DTRM, IDLE. -/
def snapBlocks : List Nat := [0, 2, 3, 4, 5, 6, 7, 8, 9, 11, 12, 13, 16, 19]

/-- A register that has a snapshot copy (R558). -/
def snapped (a : Nat) : Bool :=
  if a < 0x400000000 then decide (0x6A0000 ≤ a % 0x4000000 ∧ a % 0x4000000 < 0x6A1000)
  else decide (a < 0x400140000) && snapBlocks.contains ((a - 0x400000000) / 0x10000)

/-- Every reach has begun beat `b`. -/
def State.allBegun (s : State) (b : Nat) : Bool := (List.range 16).all fun r => decide (b ≤ (s.reach r).beat)

/-- The copies that a capture takes: the registers as a read in that beat shows them (R558). -/
def State.snapCopies (s : State) : List (Nat × Word) :=
  let idle := Fld.IDLE_STATE.chosen.set (s.reg Reg.IDLE_STATE) s.chosen
  smPut (smPut (smPut (s.regs.filter fun e => snapped e.1) Reg.IDLE_STATE idle) Reg.FABR_STEP_STAT s.stepStat) Reg.FABR_EVQ s.evqShown

/-- CAPTURE_BEAT (R558, R561). A freeze drops the keeper instruction that a core has in progress, as a halt abandons it (R602; log
entry 31). -/
def execCaptureBeat (s : State) : Out :=
  match s.diag.capture with
  | none => .next s
  | some (b, src, code) =>
    if !s.allBegun b then .next s
    else
      let s := { s with diag := { s.diag with capture := none, snap := s.snapCopies } }
      let s := s.setReg Reg.SNAP_BEAT (BitVec.ofNat 64 b)
      let s := s.setReg Reg.SNAP_STEP (s.reg Reg.FABR_STEP)
      let a := Reg.SNAP_STAT
      let s := (s.put a Fld.SNAP_STAT.valid 1).put a Fld.SNAP_STAT.source src
      let s := (s.put a Fld.SNAP_STAT.code (if src = 3 then code else 0)).addSat a Fld.SNAP_STAT.captures 1
      let s := s.hwPut Reg.SNAP_ARM Fld.SNAP_ARM.armed 0
      .next (if s.get Reg.SNAP_ARM Fld.SNAP_ARM.freeze = 1 then
          (List.range 256).foldl (fun (t : State) n => if t.coreState n = stRunning then t.enterHalted n else t) s
        else s)

/-- A refused write of the SNAP block. -/
def State.refuse3E01 (s : State) : State × Nat := (s.logErr { code := 0x3E01 }, 0x3E01)

/-- A write of SNAP_ARM (R561). -/
def State.writeSnapArm (s : State) (v : Word) : State × Nat :=
  if Fld.SNAP_ARM.freeze.get v = 1 ∧ s.debugClosed then s.refuse3E01 else (s.plainWrite Reg.SNAP_ARM v, 0)

/-- SNAP_ARM_WRITE (R561). -/
def execSnapArmWrite (v : Word) (s : State) : Out := .next (s.writeSnapArm v).1

/-- A write of SNAP_MATCH, SNAP_MATCH_BEAT, SNAP_TIME, SNAP_LOCK or SNAP_TRIG_SEL (R561). -/
def State.writeSnap (s : State) (a : Nat) (v : Word) : State × Nat :=
  if s.get Reg.SNAP_ARM Fld.SNAP_ARM.armed = 1 then s.refuse3E01 else (s.plainWrite a v, 0)

/-! ### Forwarded errors and EVENT messages (R555, R600) -/

/-- A write of ERRS_FWD_w by a chip: words 0 to 2 are kept, and word 3 commits the entry (R600). -/
def State.writeErrsFwd (s : State) (chip w : Nat) (v : Word) : State :=
  let got := smGet [] s.diag.fwd chip
  if w < 3 then
    let l := (got ++ List.replicate (4 - got.length) 0).set w v
    let seen := (l.getD 3 0).toNat ||| 2 ^ w
    { s with diag := { s.diag with fwd := smPut s.diag.fwd chip (l.set 3 (BitVec.ofNat 64 seen)) } }
  else
    let s := { s with diag := { s.diag with fwd := smDel s.diag.fwd chip } }
    if (got.getD 3 0).toNat ≠ 7 then s.addSat Reg.ERRS_COUNT Fld.ERRS_COUNT.evt_lost 1
    else s.holdEvent chip { block := 0, core := 0, code := 0, w0 := got.getD 0 0, w1 := got.getD 1 0, w2 := got.getD 2 0, w3 := v }

/-- ERRS_FWD_WRITE (R600). -/
def execErrsFwdWrite (chip : BitVec 16) (w : Fin 4) (v : Word) (s : State) : Out :=
  .next (s.writeErrsFwd chip.toNat w v)

/-- A record of an EVENT: the chip, zeros and the entry, marked where it was forwarded (R555). -/
def State.eventRecord (s : State) (e : Nat × ErrRec) : List Byte :=
  let w0 := if e.1 = 0 then e.2.w0 else e.2.w0 ||| 0x80000
  natLe 8 (if e.1 = 0 then s.chipAddr else e.1) ++
    [w0, e.2.w1, e.2.w2, e.2.w3].flatMap fun (w : Word) => natLe 8 w.toNat

/-- Entries that every open control session has been sent are held no longer. -/
def State.trimEvents (s : State) : State :=
  let ctl := s.host.sessions.filter fun x => x.2.cls == 0
  let low := ctl.foldl (fun m x => min m x.2.evNext) (s.diag.eventBase + s.diag.events.length)
  let k := low - s.diag.eventBase
  { s with diag := { s.diag with events := s.diag.events.drop k, eventBase := s.diag.eventBase + k } }

/-- EVENT_SEND (R427, R555): up to 64 records of 40 bytes, as far as the session's interface carries them, and at most one EVENT per 100 µs to
a session. -/
def execEventSend (sess : BitVec 32) (s : State) : Out :=
  match s.sess sess.toNat with
  | none => .next s
  | some x =>
    let base := s.diag.eventBase
    let recs := (s.diag.events.drop (x.evNext - base)).take (min 64 (s.maxPayload x.ifc / 40))
    if x.cls ≠ 0 ∨ recs.isEmpty then .next s
    else
      let s := match x.eventAt with
        | some t => s.advanceTo (t + 100000000)
        | none => s
      let s := s.setSess { x with eventAt := some s.now, evNext := max x.evNext base + recs.length }
      .next ((s.sendMsg x.id 0x61 0 0 0 (recs.flatMap s.eventRecord) none).trimEvents)

/-! ### Self-test (R144, R563 to R567) -/

def State.testState (s : State) : Nat := s.get Reg.TEST_STAT Fld.TEST_STAT.state
def State.testCode (s : State) : Nat := s.get Reg.TEST_STAT Fld.TEST_STAT.test

/-- No program and no serving (R564). -/
def State.quiescedHost (s : State) : Bool := !s.anyBusy && s.get Reg.LEDG_POLICY Fld.LEDG_POLICY.enable == 0

/-- A window is present: quiescent for 10 µs (R564). -/
def State.windowOpen (s : State) : Bool :=
  s.quiescent && (match s.idle.quiet with
    | some t => decide (t + 10000000 ≤ s.now)
    | none => false)

/-- End the request with a result (R563, R566, R567). -/
def State.testEnds (s : State) (result : Nat) : State :=
  let a := Reg.TEST_STAT
  let s := (s.put a Fld.TEST_STAT.state 0).put a Fld.TEST_STAT.result result
  { s with diag := { s.diag with testUnitAt := none, testWindow := false, testCancel := false } }

/-- A refused request (R567). -/
def State.refuse3E02 (s : State) : State × Nat := (s.logErr { code := 0x3E02 }, 0x3E02)

/-- A request for a test (R566, R567). -/
def State.testRequest (s : State) (v : Word) : State × Nat :=
  let t := Fld.TEST_REQ.test.get v
  if s.testState ≠ 0 then s.refuse3E02
  else
    let s := s.noteQuiet.plainWrite Reg.TEST_REQ v
    let s := s.setReg Reg.TEST_STAT (Fld.TEST_STAT.test.set 0 t)
    let s := { s with diag := { s.diag with testAt := s.now, testUnitAt := none, testUnitCount := 0, testFailed := false } }
    if t = 0 ∨ 5 < t ∨ (t = 4 ∧ !s.portActive (Fld.TEST_REQ.port.get v)) then (s.testEnds 5).refuse3E02
    else
      let s := (s.put Reg.TEST_STAT Fld.TEST_STAT.state 1).wakeOn 6
      if Fld.TEST_REQ.timeout_ms.get v = 0 ∧ !s.windowOpen ∧ !s.quiescedHost then
        ((s.testEnds 3).logErr { code := 0x4E01 }, 0)
      else (s, 0)

/-- Cancel a test: at once, or after the unit in progress (R567). -/
def State.testCancelNow (s : State) : State :=
  if s.testState = 0 then s
  else if s.diag.testUnitAt.isSome then { s with diag := { s.diag with testCancel := true } }
  else s.testEnds 4

/-- A write of TEST_REQ (R566, R567). -/
def State.writeTestReq (s : State) (v : Word) : State × Nat :=
  let s := if Fld.TEST_REQ.cancel.get v = 1 then s.testCancelNow else s
  if Fld.TEST_REQ.go.get v = 1 then s.testRequest v else (s.plainWrite Reg.TEST_REQ v, 0)

/-- TEST_GO (R567): TEST_REQ written with go = 1. -/
def execTestGo (v : Word) (s : State) : Out := .next (s.testRequest v).1

/-- TEST_CANCEL (R567). -/
def execTestCancel (s : State) : Out := .next s.testCancelNow

/-- TEST_UNIT_START (R564): with a quiesced host, or once the die has been quiescent for 10 µs. -/
def execTestUnitStart (s : State) : Out :=
  if s.testState = 0 ∨ s.diag.testUnitAt.isSome ∨ s.idle.state ≠ 0 then .next s
  else
    let host := s.quiescedHost
    if !host ∧ (s.testCode = 5 ∨ !s.quiescent) then .next s
    else
      let s := s.noteQuiet
      let s := if host then s else s.advanceTo (s.idle.quiet.getD s.now + 10000000)
      let s := if s.diag.testWindow then s else s.addSat Reg.TEST_STAT Fld.TEST_STAT.windows 1
      let s := s.put Reg.TEST_STAT Fld.TEST_STAT.state 2
      .next { s with diag := { s.diag with testUnitAt := some s.now, testWindow := true } }

/-- Units of a test (R563). -/
def testUnits (t : Nat) : Nat := if t = 3 then 64 else if t = 4 then 40 else 1

/-- The lowest mismatch of a core by row, then column (R144). -/
def firstFail : List TestFail → Option TestFail
  | [] => none
  | f :: t => match firstFail t with
    | none => some f
    | some g =>
      if g.row.toNat < f.row.toNat ∨ (g.row = f.row ∧ g.col.toNat < f.col.toNat) then some g else some f

/-- Results of an array self-test in a core (R144). -/
def State.arrayTested (s : State) (fails : List TestFail) (n : Nat) : State :=
  if !s.enabled n then s
  else
    let a := Reg.ARRAY_FAULT n
    let s := s.addSat a Fld.ARRAY_FAULT.test_runs 1
    match firstFail (fails.filter fun f => f.core.val == n) with
    | none => s
    | some f =>
      (((s.put a Fld.ARRAY_FAULT.valid 1).put a Fld.ARRAY_FAULT.fault_row f.row.toNat).put a Fld.ARRAY_FAULT.fault_col
        f.col.toNat).logCore n 0x2601

/-- Every line of the cores' memories is zero with valid check bits (R549, R563). -/
def State.zeroSram (s : State) : State :=
  { s with mem := s.mem.filter fun c => decide (0x1000000000 ≤ c.1), ecc := s.ecc.filter fun c => decide (0x1000000000 ≤ c.1) }

/-- What a unit leaves behind (R563). -/
def State.unitResult (s : State) (fails : List TestFail) : State :=
  let t := s.testCode
  if t = 1 then (List.range 256).foldl (fun u n => u.arrayTested fails n) s
  else if t = 5 then
    let u := ((s.zeroSram).setCopies 0 0).setCopies 1 0
    fails.foldl (fun (w : State) f => w.logErr { code := 0x2E01, info := f.offset.toNat, aux := f.core }) u
  else if fails.isEmpty then s
  else
    let p := s.get Reg.TEST_REQ Fld.TEST_REQ.port
    let s := s.logErr { code := 0x4E02, aux := if t = 4 then p else 0 }
    if t = 4 then s.portDown p false else s

/-- First failure code of a test (R563). -/
def failCode (t : Nat) : Nat := if t = 1 then 0x2601 else if t = 5 then 0x2E01 else 0x4E02

/-- The test after a unit: cancelled, ended with its result, paused for a record, or going on (R565, R567). -/
def State.afterUnit (s : State) : State :=
  if s.diag.testCancel then s.testEnds 4
  else if testUnits s.testCode ≤ s.diag.testUnitCount ∨ (s.testCode = 4 ∧ s.diag.testFailed) then
    s.testEnds (if s.diag.testFailed then 2 else 1)
  else if s.quiescent ∨ s.quiescedHost then s
  else { s.put Reg.TEST_STAT Fld.TEST_STAT.state 3 with diag := { s.diag with testWindow := false } }

/-- TEST_UNIT_END (R565). -/
def execTestUnitEnd (fails : List TestFail) (s : State) : Out :=
  if s.diag.testUnitAt.isNone then .next s
  else
    let s := (s.unitResult fails).addSat Reg.TEST_STAT Fld.TEST_STAT.units 1
    let s := if fails.isEmpty ∨ s.get Reg.TEST_STAT Fld.TEST_STAT.first_code ≠ 0 then s
      else s.put Reg.TEST_STAT Fld.TEST_STAT.first_code (failCode s.testCode)
    let s := { s with diag := { s.diag with
      testUnitAt := none, testUnitCount := s.diag.testUnitCount + 1, testFailed := s.diag.testFailed || !fails.isEmpty } }
    .next s.afterUnit

/-- TEST_TIMEOUT (R566): no unit has started within timeout_ms of the request; with timeout_ms 0 this was judged with the request. -/
def execTestTimeout (s : State) : Out :=
  if s.testState ≠ 1 ∨ s.get Reg.TEST_REQ Fld.TEST_REQ.timeout_ms = 0 then .next s
  else
    let s := s.advanceTo (s.diag.testAt + 1000000000 * s.get Reg.TEST_REQ Fld.TEST_REQ.timeout_ms)
    .next ((s.testEnds 3).logErr { code := 0x4E01 })

end Sys2Proof.Machine
end

