-- ==== Sys2Proof/Machine/Serving.lean ====
section
/-! DEFINITION. The serving engine (R453 to R481): admission, composition of a step, processing of its results, and the streams to the
host (R443 to R447). Messages reach these operations from Towpath.lean. -/

namespace Sys2Proof.Machine

/-! ### Messages (R465 to R467, R475) -/

/-- What answers a message: status, handle and payload. -/
abbrev Answer := Nat × Nat × List Byte

/-- The REQ_STATUS payload of entry `i` (R467). -/
def State.reqStatus (s : State) (i : Nat) : List Byte :=
  natLe 2 (s.led i Led.tenant) ++ natLe 1 (s.rq i) ++ natLe 1 (s.led i Led.flagByte) ++ natLe 4 0 ++
    natLe 8 (smGet 0 s.engine.stepOf i) ++ natLe 4 (s.led i Led.epoch) ++ natLe 4 (s.led i Led.promptRcvd) ++
    natLe 4 (s.led i Led.committed) ++ natLe 4 (s.led i Led.produced) ++ natLe 4 (s.led i Led.tbtMax) ++
    natLe 4 (s.led i Led.ttft) ++ natLe 8 (s.led i Led.cookie)

/-- A field of SUBMIT lies outside its range, or the tenant is disabled (R465, R466). -/
def State.submitBad (s : State) (q : List Byte) : Bool :=
  let f := fieldOf q
  let inv := f 44 4
  q.length != 64 || f 40 1 / 16 != 0 || f 42 2 == 0 || decide (256 < f 42 2) || decide (7 < f 41 1) || f 36 4 == 0 ||
    f 32 4 == 0 || f 48 4 == 0 || decide (0x3F800000 < f 48 4) || (decide (0x7F800000 ≤ inv) && inv != 0x80000000) ||
    decide (7 < f 13 1) || f 8 5 != 0 || s.ten (f 14 2) Ten.enabled == 0

/-- The status of a SUBMIT, 0 where it is admitted (R466). -/
def State.submitStatus (s : State) (q : List Byte) : Nat :=
  let f := fieldOf q
  let need := s.reservation (f 36 4) (f 32 4) (f 41 1)
  if !s.serving ∨ s.submitBad q then 0x6B09
  else if s.get Reg.LEDG_POLICY Fld.LEDG_POLICY.max_ctx < f 36 4 + f 32 4 then 0x6B09
  else if (f 40 1).testBit 1 ∧ s.wMode = 2 then 0x6B09
  else if (List.range s.capacity).all (fun i => s.rq i != rqFree) then 0x6B04
  else if s.balance (f 14 2) ≤ 0 then 0x6B03
  else if s.freePrompt.isNone ∨ s.slotBytes < 4 * f 36 4 ∨
      s.get Reg.LEDG_KVSTAT Fld.LEDG_KVSTAT.free < s.get Reg.LEDG_KVSTAT Fld.LEDG_KVSTAT.reserved_pages + need then 0x6B07
  else 0

/-- A word of a ledger entry from its fields. -/
def ledWord (l : List (BitField × Nat)) : Word := l.foldl (fun (w : Word) (p : BitField × Nat) => p.1.set w p.2) 0

/-- Fill the entry of an admitted request (R454, R455, R463, R465). -/
def State.fillEntry (s : State) (i slot sess time : Nat) (q : List Byte) : State :=
  let f := fieldOf q
  let fl := f 40 1
  let bit := fun (k : Nat) => if fl.testBit k then 1 else 0
  let sslot := match s.sess sess with
    | some x => x.slot
    | none => 0
  let g := s.genOf i
  let map := (s.get Reg.LEDG_KV Fld.LEDG_KV.map_base + s.get Reg.LEDG_KV Fld.LEDG_KV.stride * i) % 2 ^ 32
  let w0 := ledWord [(Led.gen.2, g), (Led.state.2, rqWaiting), (Led.tenant.2, f 14 2), (Led.pinned.2, bit 1),
    (Led.replay.2, bit 3), (Led.stream.2, bit 0), (Led.qclass.2, f 13 1), (Led.session.2, sslot)]
  let w2 := ledWord [(Led.promptLen.2, f 36 4), (Led.maxNew.2, f 32 4)]
  let w9 := ledWord [(Led.sflags.2, bit 2), (Led.spec.2, f 41 1), (Led.pslot.2, slot)]
  let w10 := ledWord [(Led.ring.2, 0xFFFF), (Led.topK.2, f 42 2), (Led.invTemp.2, f 44 4)]
  let w11 := ledWord [(Led.topP.2, f 48 4), (Led.stopToken.2, f 52 4)]
  let w5 := ledWord [(Led.ttftTarget.2, f 20 4), (Led.tbtTarget.2, f 16 4)]
  let put := fun (t : State) (w : Nat) (v : Word) => t.ledWrite (t.ledAt i w) v
  let s := put (put (put (put s 0 w0) 1 (wordOf q 3)) 2 w2) 3 0
  let s := put (put (put (put s 4 (BitVec.ofNat 64 map)) 5 w5) 6 0) 7 (ledWord [(Led.tRef.2, time)])
  put (put (put (put s 8 (wordOf q 7)) 9 w9) 10 w10) 11 w11

/-- Admit a request into the lowest free entry, or answer with the status that refuses it, at a fabric time (R455, R460, R463 to
R466). -/
def State.takeIn (s : State) (sess time : Nat) (q : List Byte) : State × Answer :=
  let f := fieldOf q
  let s := if s.serving then s.refill (f 14 2) time else s
  let st := s.submitStatus q
  if st ≠ 0 then
    let s := s.addSat Reg.LEDG_STAT Fld.LEDG_STAT.refusals 1
    (if st = 0x6B04 then s.logErr { code := st } else s, st, 0, [])
  else
    let i := ((List.range s.capacity).find? fun k => s.rq k == rqFree).getD 0
    let s := s.wakeForHold.fillEntry i (s.freePrompt.getD 0) sess time q
    let k := s.get Reg.LEDG_KVSTAT Fld.LEDG_KVSTAT.reserved_pages
    let s := s.put Reg.LEDG_KVSTAT Fld.LEDG_KVSTAT.reserved_pages (k + s.reserved i)
    let s := s.put Reg.LEDG_COUNT Fld.LEDG_COUNT.in_use (s.get Reg.LEDG_COUNT Fld.LEDG_COUNT.in_use + 1)
    let h := s.handleOf i
    let s := s.modEngine fun e => { e with owner := smPut e.owner i sess, acted := e.acted ++ [(1, h)] }
    (s, 0, h, s.reqStatus i)

/-- The step that the engine composes next (R407, R470). -/
def State.nextStep (s : State) : Nat :=
  let f := s.get Reg.FABR_STEP Fld.FABR_STEP.step
  max f (s.engine.composed.getD 0) + 1

/-- A SUBMIT that replay mode refuses (R480). -/
def State.refuseReplay (s : State) : State × Answer := (s.addSat Reg.LEDG_STAT Fld.LEDG_STAT.refusals 1, 0x3A04, 0, [])

/-- SUBMIT acted on (R465, R466, R480): in replay mode the request waits for its admission step, which must be one to come. -/
def State.submitIn (s : State) (sess seq : Nat) (q : List Byte) : State × Option Answer :=
  if s.serving ∧ s.replaying then
    if q.length = 64 ∧ (fieldOf q 40 1).testBit 3 ∧ s.nextStep ≤ fieldOf q 0 8 then
      (s.modEngine fun e => { e with admits := e.admits ++ [⟨fieldOf q 0 8, sess, seq, q⟩] }, none)
    else
      let (t, a) := s.refuseReplay
      (t, some a)
  else
    let (t, a) := s.takeIn sess s.time48 q
    (t, some a)

/-- CANCEL acted on (R475, R480, R481). -/
def State.cancelIn (s : State) (i : Nat) : State :=
  let h := s.handleOf i
  let note := fun (t : State) => t.modEngine fun e => { e with acted := e.acted ++ [(2, h)] }
  if s.rq i = rqWaiting then note (s.endQuiet i rqCancelled 0)
  else if s.rq i = rqPrefill ∨ s.rq i = rqDecode then note (s.setLed i Led.cancelReq 1)
  else s

/-- A session's frame-mode requests are cancelled as it closes, as by a CANCEL, which replay mode refuses (R432, R480). -/
def State.cancelOwned (s : State) (sess : Nat) : State :=
  if !s.serving ∨ s.replaying then s
  else (s.reqs.filter fun i => smFind s.engine.owner i == some sess && s.led i Led.stream == 0).foldl State.cancelIn s

/-- Apply a TENANT_SET (R467). -/
def State.applyTenant (s : State) (q : List Byte) : State :=
  let f := fieldOf q
  let t := f 0 2
  let ops := f 16 1
  let s := if ops.testBit 0 then
      let s := (s.setTen t Ten.inCost (f 18 1)).setTen t Ten.outCost (f 17 1)
      let s := (s.setTen t Ten.burst (f 27 5)).setTen t Ten.floor (f 22 5)
      s.setTen t Ten.rate (f 19 3)
    else s
  let v := f 40 8
  let z : Int := if v < 2 ^ 63 then v else (v : Int) - 2 ^ 64
  let burst : Int := s.ten t Ten.burst
  let clamp := fun (x : Int) => min burst (max (-(2 : Int) ^ 39) (min (2 ^ 39 - 1) x))
  let s := if ops.testBit 1 then s.setBalance t (clamp z)
    else if ops.testBit 2 then s.setBalance t (clamp (s.balance t + z)) else s
  if ops.testBit 3 then s.setTen t Ten.enabled 1 else if ops.testBit 4 then s.setTen t Ten.enabled 0 else s

/-- A TENANT_SET that R467 refuses. -/
def tenantBad (q : List Byte) : Bool :=
  let f := fieldOf q
  let ops := f 16 1
  q.length != 48 || f 2 14 != 0 || decide (32 ≤ ops) || decide (0 < signed40 (f 22 5)) || (ops.testBit 1 && ops.testBit 2) ||
    (ops.testBit 3 && ops.testBit 4)

/-- TENANT_SET acted on: applied by the composition of its step, at most 256 of them waiting (R467). -/
def State.tenantIn (s : State) (q : List Byte) : State × Answer :=
  if tenantBad q ∨ 256 ≤ s.engine.sched.length then (s, 0x6B09, 0, [])
  else
    let t := fieldOf q 0 2
    let s := s.modEngine fun e => { e with sched := e.sched ++ [(fieldOf q 32 8, q)] }
    (s, 0, 0, s.bytes (s.tenAt t 0) 32)

/-! ### Shape classes (R469) -/

/-- Decode slots of a batch code (R198). -/
def classSize (b : Nat) : Nat := [1, 8, 32, 64, 128, 256, 512, 0].getD b 0

/-- Entry `c` of a row of the shape map. -/
def State.shapeAt (s : State) (row c : Nat) : Nat :=
  leNat (s.bytes (s.get Reg.LEDG_SHAPE Fld.LEDG_SHAPE.base + 1024 * row + 4 * c) 4)

/-- Chunks that a row may carry; none where the row is unusable. -/
def State.maxChunks (s : State) (row : Nat) : Option Nat :=
  let n := ((List.range 256).takeWhile fun c => s.shapeAt row c != 0xFFFFFFFF).length
  if n = 0 then none else some (n - 1)

/-- The row of a composition with `n` decode slots (R470). -/
def State.pickRow (s : State) (n : Nat) : Option (Nat × Nat) :=
  let small := (List.range 7).filterMap fun b =>
    if n ≤ classSize b then (s.maxChunks b).map fun c => (b, c) else none
  if n = 0 then (match s.maxChunks 7 with
    | some c => some (7, c)
    | none => small.head?)
  else small.head?

/-! ### Events of a composition (R460, R461, R468, R470, R478) -/

/-- The request is paused. -/
def State.paused (s : State) (i : Nat) : Bool := s.led i Led.pauseDebt == 1 || s.led i Led.pauseStream == 1

/-- The request can be placed: not in ring mode without a bound ring (R470). -/
def State.placeable (s : State) (i : Nat) : Bool :=
  !s.paused i && (s.led i Led.stream == 0 || s.led i Led.ring != 0xFFFF)

/-- Tenant changes that are due, on tenants refilled up to the step time (R460, R467). -/
def State.dueTenants (s : State) (step time : Nat) : State :=
  let due := s.engine.sched.filter fun x => decide (x.1 ≤ step)
  let s := s.modEngine fun e => { e with sched := e.sched.filter fun x => !decide (x.1 ≤ step) }
  due.foldl (fun (t : State) x => ((t.refill (fieldOf x.2 0 2) time).applyTenant x.2).audit step 7 (fieldOf x.2 0 2)) s

/-- A request with a cancellation acted on that no result can end: paused, or in PREFILL without a last chunk (R475). -/
def State.cancelNow (s : State) (step i : Nat) : State :=
  let noLast := s.rq i == rqPrefill && s.led i Led.promptDone != s.led i Led.promptLen
  if s.led i Led.cancelReq = 1 ∧ s.rqLive i ∧ (s.paused i ∨ noLast) then s.endQuiet i rqCancelled step else s

/-- Audit events noted since the last composition are stamped (R479). -/
def State.stampActed (s : State) (step : Nat) : State :=
  let l := s.engine.acted
  let s := s.modEngine fun e => { e with acted := [] }
  l.foldl (fun (t : State) x => t.audit step x.1 x.2) s

/-- Each paused request gives one record for its pause, in the stream of the step whose composition first excludes it (R478). -/
def State.pausedRecs (s : State) (step : Nat) : State :=
  let l := (s.reqs.filter fun i => s.rqLive i && s.paused i).map s.handleOf
  s.modEngine fun e => { e with
    told := l, extra := e.extra ++ (l.filter fun h => !e.told.contains h).map fun h => (step, h, 0x18) }

/-- A pause ends (R461, R444, R447). -/
def State.resumeReq (s : State) (i step : Nat) (f : LedField) : State :=
  if s.led i f = 0 then s else (((s.setLed i f 0).skipNext i).audit step 5 (s.handleOf i))

/-- Tenants with a request paused at their debt floor, or below it. -/
def State.debtors (s : State) : List Nat :=
  (s.engine.debt ++ ((s.reqs.filter fun i => s.led i Led.pauseDebt == 1).map fun i => s.led i Led.tenant)).eraseDups

/-- Refill of every tenant with a request at its debt floor; at 0 or above they go on (R460, R461). -/
def State.debtEvents (s : State) (step time : Nat) : State :=
  s.debtors.foldl (fun (t : State) ten =>
    let t := t.refill ten time
    if t.balance ten < 0 ∨ t.replaying then t
    else
      let t := t.modEngine fun e => { e with debt := e.debt.filter (· != ten) }
      (t.reqs.filter fun i => t.led i Led.tenant == ten).foldl (fun u i => u.resumeReq i step Led.pauseDebt) t) s

/-! ### Rings (R445 to R447) -/

def State.ring (s : State) (k : Nat) : Option Ring := smFind s.host.rings k
def State.setRing (s : State) (k : Nat) (r : Ring) : State :=
  { s with host := { s.host with rings := smPut s.host.rings k r } }

/-- Bytes [i+n-1:i] of a ring context (R445). -/
def State.ringField (s : State) (k i n : Nat) : Nat :=
  leNat (s.bytes (65536 * s.get Reg.STRM_RING Fld.STRM_RING.base + 32 * k + i) n)

/-- Free space of a ring (R447). -/
def State.ringFree (s : State) (k : Nat) (r : Ring) : Nat := 2 ^ s.ringField k 15 1 - (r.prod - r.cons)

/-- Post a ring entry by RDMA WRITE with immediate (R446). -/
def State.ringPost (s : State) (k : Nat) (r : Ring) (entry : List Byte) (final : Bool) : State :=
  let n := s.ringField k 12 2
  let at_ := s.ringField k 0 8 + 16 * (r.prod % 2 ^ s.ringField k 15 1)
  let s := s.setRing k { r with prod := r.prod + 1 }
  s.qpSend n 2 (s.ringField k 8 4) at_ (r.prod % 2 ^ 32) entry 16 (ring := some r.idx) (final := final)

/-- Post held tokens while they fit. -/
def State.ringFlush (s : State) (k : Nat) : State :=
  match s.ring k with
  | none => s
  | some r =>
    if r.held.isEmpty ∨ s.ringFree k r < r.held.length then s
    else
      let s := s.setRing k { r with held := [] }
      r.held.foldl (fun (t : State) e => match t.ring k with
        | some x => t.ringPost k x e.1 e.2
        | none => t) s

/-- The stream of a request lacks space (R444, R447). -/
def State.noStream (s : State) (i : Nat) : Bool :=
  if s.led i Led.stream = 0 then
    match (smFind s.engine.owner i).bind s.sess with
    | some x => x.paused
    | none => false
  else match s.ring (s.led i Led.ring) with
    | some r => !r.held.isEmpty
    | none => false

/-- Stream pauses and resumes (R444, R447, R478). A session is no longer full at half its limit. -/
def State.streamEvents (s : State) (step : Nat) : State :=
  let half := s.get Reg.STRM_MODE Fld.STRM_MODE.frame_buf / 2
  let frames := fun (x : Session) => (x.unacked.filter fun m => m.ty == 0x35).length
  let s := s.host.sessions.foldl (fun (t : State) (x : Nat × Session) =>
    if x.2.paused ∧ frames x.2 ≤ half then t.setSess { x.2 with paused := false } else t) s
  let s := s.host.rings.foldl (fun (t : State) (x : Nat × Ring) => t.ringFlush x.1) s
  (s.reqs.filter s.rqLive).foldl (fun (t : State) i =>
    if t.noStream i then t.pause i Led.pauseStream 4 else t.resumeReq i step Led.pauseStream) s

/-- Chunks that a request has still to place (R468, R470). -/
def State.chunksLeft (s : State) (i : Nat) : Nat := ceilDiv (s.led i Led.promptLen - s.led i Led.promptDone) 128

/-- At-risk marks (R468). -/
def State.riskEvents (s : State) (step time : Nat) : State :=
  let late := fun (i : Nat) =>
    (s.rq i == rqWaiting || s.rq i == rqPrefill) && s.led i Led.ttftTarget != 0 && s.led i Led.atRisk == 0 &&
      decide (s.led i Led.ttftTarget ≤ (time + 2 ^ 48 - s.led i Led.tRef) % 2 ^ 48 +
        s.chunksLeft i * s.get Reg.LEDG_POLICY Fld.LEDG_POLICY.chunk_ns)
  (s.reqs.filter late).foldl (fun (t : State) i => (t.setLed i Led.atRisk 1).audit step 6 (t.handleOf i)) s

/-- Payload of WSWP_RESULT (R498). -/
def State.swapBody (s : State) (step chip : Nat) : List Byte := natLe 8 step ++ natLe 4 s.wEpoch ++ natLe 2 chip ++ natLe 2 0

/-- Send the answers to WSWP_ARM op 2 commands that waited for the last pinned request (R498). -/
def State.answerUnpin (s : State) : State :=
  (s.engine.unpin.foldl (fun (t : State) (u : Nat × Nat) => t.sendMsg u.1 0x41 0 0 0 (t.swapBody 0 0) (some u.2)) s).modEngine
    fun e => { e with unpin := [] }

/-- Recount the pinned requests; once none is left, an op 2 whose composition has come is answered (R497, R498). -/
def State.recountPins (s : State) : State :=
  let s := s.countPinned
  if s.engine.unpinNext || s.get Reg.WSWP_STAT Fld.WSWP_STAT.pinned_old != 0 then s else s.answerUnpin

/-- Pins that op 2 releases (R497). -/
def State.releasePins (s : State) : State :=
  if !s.engine.unpinNext then s
  else
    let old := s.get Reg.WSWP_EPOCH Fld.WSWP_EPOCH.old_epoch
    let l := s.reqs.filter fun i => s.led i Led.pinned == 1 && s.led i Led.epoch == old && old != 0
    let s := l.foldl (fun (t : State) i => t.setLed i Led.pinned 0) s
    (s.modEngine fun e => { e with unpinNext := false }).recountPins

/-- The events that the replay table gives for a step: each resume clears one flag, as each resume recorded one (R480). -/
def State.replayEvents (s : State) (step : Nat) : State :=
  let each := fun (t : State) (kind : Nat) (g : State → Nat → State) =>
    (t.replayed step kind).foldl (fun (u : State) h => match u.findReq h with
      | some i => (g u i).audit step kind h
      | none => u) t
  let s := each s 2 fun u i => if u.rq i = rqWaiting then u.endQuiet i rqCancelled step else u.setLed i Led.cancelReq 1
  let s := each (each s 3 fun u i => u.setLed i Led.pauseDebt 1) 4 fun u i => u.setLed i Led.pauseStream 1
  let s := each s 5 fun u i => (u.setLed i (if u.led i Led.pauseDebt = 1 then Led.pauseDebt else Led.pauseStream) 0).skipNext i
  each s 6 fun u i => u.setLed i Led.atRisk 1

/-- Replay admissions of a step, with the messages to answer; one whose step has gone by is refused (R480). -/
def State.replayAdmits (s : State) (step time : Nat) : State :=
  let due := s.engine.admits.filter fun a => decide (a.step ≤ step)
  let s := s.modEngine fun e => { e with admits := e.admits.filter fun a => !decide (a.step ≤ step) }
  due.foldl (fun (t : State) a =>
    let (t, st, h, p) := if a.step = step then t.takeIn a.sess time a.req else t.refuseReplay
    t.sendMsg a.sess 0x34 0 h st p (some a.seq)) s

/-- The events of the composition of a step: tenant changes and cancellations before any other (R470, R475). -/
def State.applyEvents (s : State) (step time : Nat) : State :=
  let s := s.dueTenants step time
  let s := s.reqs.foldl (fun (t : State) i => t.cancelNow step i) s
  let s := if s.replaying then
      let t := (s.replayAdmits step time).replayEvents step
      (t.reqs.foldl (fun (u : State) i => u.cancelNow step i) t).debtEvents step time
    else ((s.debtEvents step time).streamEvents step).riskEvents step time
  ((s.releasePins.stampActed step).pausedRecs step).countPaused

/-- The tables that the engine reads whenever it works: the ledger, its requests' tenants, the shape map and the ring contexts. -/
def State.tables (s : State) : List (Nat × Nat) :=
  [(s.ledAt 0 0, 64 * s.capacity), (s.ledAt 0 8, 32 * s.capacity), (s.get Reg.LEDG_SHAPE Fld.LEDG_SHAPE.base, 8232)] ++
    ((s.reqs.map fun i => s.led i Led.tenant).eraseDups.map fun t => (s.tenAt t 0, 32)) ++
    s.host.rings.map fun x => (65536 * s.get Reg.STRM_RING Fld.STRM_RING.base + 32 * x.1, 32)

/-! ### Composition (R463, R470 to R473, R477) -/

/-- A chunk placed: entry, first position, tokens, last of its prompt. -/
structure Chunk where
  idx   : Nat
  first : Nat
  n     : Nat
  last  : Bool
  deriving DecidableEq, Repr

/-- Chunks of a request that are ready (R470). -/
def State.readyChunks (s : State) (i : Nat) : Nat :=
  let got := s.led i Led.promptRcvd - s.led i Led.promptDone
  if s.led i Led.promptRcvd = s.led i Led.promptLen then ceilDiv got 128 else got / 128

/-- Place the next chunk of a request, debited to its tenant, refilled up to the step time (R460, R461, R470). -/
def State.placeChunk (s : State) (i time : Nat) : State × Chunk :=
  let first := s.led i Led.promptDone
  let n := min 128 (s.led i Led.promptLen - first)
  let t := s.led i Led.tenant
  let s := (s.setLed i Led.promptDone (first + n)).refill t time
  let s := s.debit t (n * s.ten t Ten.inCost) (s.handleOf i)
  (s, ⟨i, first, n, first + n == s.led i Led.promptLen⟩)

/-- Weight epoch of step `s` (R471, R492): that of a swap from its switch step on. -/
def State.epochFor (s : State) (step : Nat) : Nat :=
  match s.engine.switchAt with
  | some k => if k ≤ step then s.get Reg.WSWP_ARM Fld.WSWP_ARM.next else s.wEpoch
  | none => s.wEpoch

/-- A step runs a request on an epoch (R477, R496). -/
def State.runOn (s : State) (i epoch : Nat) (fresh : Bool) : State :=
  if s.led i Led.epoch = epoch then s
  else if fresh then s.setLed i Led.epoch epoch
  else if s.led i Led.pinned = 1 then s
  else (s.setLed i Led.mixed 1).setLed i Led.epoch epoch

/-- While a swap is armed, the first chunk of a pinned request is not placed (R492). -/
def State.barred (s : State) (i : Nat) : Bool :=
  s.get Reg.WSWP_ARM Fld.WSWP_ARM.armed == 1 && s.rq i == rqWaiting && s.led i Led.pinned == 1

/-- Place up to `cap` chunks of a request: it enters PREFILL with its first, under the active limit (R470, R492). -/
def State.placeReq (s : State) (i cap epoch time : Nat) : State × List Chunk :=
  let active := (s.reqs.filter fun k => s.rq k == rqPrefill || s.rq k == rqDecode).length
  let fresh := s.rq i == rqWaiting
  if s.barred i ∨ (fresh ∧ classSize (s.get Reg.LEDG_POLICY Fld.LEDG_POLICY.max_class) ≤ active) then (s, [])
  else
    let n := min cap (s.readyChunks i)
    let s := if fresh then s.setLed i Led.state rqPrefill else s
    let s := s.runOn i epoch fresh
    (List.range n).foldl (fun (acc : State × List Chunk) _ =>
      let (t, c) := acc.1.placeChunk i time
      (t, acc.2 ++ [c])) (s, [])

/-- Requests with a ready chunk: those at risk first, each part by admission time, then index (R470), but for those that an armed swap bars
(R492). -/
def State.prefillOrder (s : State) : List Nat :=
  let l := s.reqs.filter fun i => (s.rq i == rqWaiting || s.rq i == rqPrefill) && s.placeable i &&
    s.readyChunks i != 0 && !s.barred i
  let key := fun (i : Nat) => ((1 - s.led i Led.atRisk) * 2 ^ 48 + s.led i Led.tRef) * 2 ^ 20 + i
  l.mergeSort fun a b => decide (key a ≤ key b)

/-- Place chunks of the requests of a list while capacity remains. -/
def State.placeAll (s : State) (cap epoch time : Nat) : List Nat → State × List Chunk
  | [] => (s, [])
  | i :: t =>
    if cap = 0 then (s, [])
    else
      let (s, c) := s.placeReq i cap epoch time
      let (s, d) := s.placeAll (cap - c.length) epoch time t
      (s, c ++ d)

/-- Steps from `a` to `b` in which a request ran (R470). -/
def State.stepsRun (s : State) (i a b : Nat) : Nat :=
  (s.engine.ran.filter fun x => decide (a ≤ x.1 ∧ x.1 ≤ b) && x.2.contains (s.handleOf i)).length

/-- VSAMPLE record of a request at a position (R172, R473). -/
def State.sampleRec (s : State) (i pos : Nat) : List Byte :=
  natLe 8 (s.led i Led.seed) ++ natLe 4 pos ++ natLe 2 (s.led i Led.topK) ++ natLe 1 0 ++ natLe 1 (s.led i Led.sflags % 2) ++
    natLe 4 (s.led i Led.invTemp) ++ natLe 4 (s.led i Led.topP) ++ natLe 8 0

/-- A decode slot of the batch list (R473). -/
def State.slotBytesOf (s : State) (i epoch : Nat) (carry : Bool) : List Byte :=
  let old := s.led i Led.pinned == 1 && s.led i Led.epoch != epoch
  natLe 10 0 ++ natLe 1 ((if carry then 1 else 0) + if old then 2 else 0) ++ natLe 1 (s.led i Led.spec) ++
    natLe 4 (s.led i Led.stopToken) ++ natLe 4 (s.led i Led.kvMap) ++ natLe 4 (smGet 0 s.engine.lastTok i) ++
    natLe 4 (s.led i Led.committed) ++ natLe 4 (s.handleOf i) ++ s.sampleRec i (s.led i Led.committed)

/-- A chunk entry of the batch list (R473). -/
def State.chunkBytes (s : State) (c : Chunk) : List Byte :=
  let at_ := s.promptAt (s.led c.idx Led.pslot) c.first + s.chipAddr * 2 ^ 48
  natLe 4 (s.handleOf c.idx) ++ natLe 9 0 ++ natLe 1 (if c.last then 1 else 0) ++ natLe 2 c.n ++ natLe 4 c.first ++
    natLe 4 (s.led c.idx Led.kvMap) ++ natLe 8 at_ ++ s.sampleRec c.idx (s.led c.idx Led.committed)

/-- Where a step's batch list lies, and its results (R473, R474). -/
def State.batchAt (s : State) (step : Nat) : Nat :=
  65536 * s.get Reg.LEDG_BATCH Fld.LEDG_BATCH.base + 65536 * (step % 4)
def State.resultAt (s : State) (step : Nat) : Nat := s.batchAt step + 262144

/-- The header of a batch list (R473). -/
def batchHead (step shape slots dec epoch chunks time : Nat) : List Byte :=
  natLe 8 step ++ natLe 4 shape ++ natLe 4 slots ++ natLe 4 dec ++ natLe 4 epoch ++ natLe 2 chunks ++ natLe 6 time ++
    natLe 32 0

/-- The record of a step (R198, R471). -/
def State.recordOf (s : State) (step code shape chunks dec epoch : Nat) : List Word :=
  let a := s.get Reg.LEDG_SHAPE Fld.LEDG_SHAPE.base + 8192
  let code := if code = 7 then 0xF else code
  [BitVec.ofNat 64 step, BitVec.ofNat 64 (shape + code * 2 ^ 32 + chunks * 2 ^ 48), BitVec.ofNat 64 (dec + epoch * 2 ^ 32)] ++
    (List.range 5).map fun j => s.word (a + 8 * j)

/-- Add a job of the wharfinger that answers no message. -/
def State.addPages (s : State) (l : List Access) : State :=
  if l.isEmpty then s
  else
    let j : Job := { id := s.host.jobSeq, sess := 0, seq := 0, handle := 0, kind := .pages, todo := l }
    { s with host := { s.host with jobs := s.host.jobs ++ [j], jobSeq := s.host.jobSeq + 1 } }

/-- KV rounds that a step's requests reach (R463): a chunk its last position; a decode slot those that it and the steps in flight
may yet commit. -/
def State.stepRounds (s : State) (dec : List (Nat × Nat)) (chunks : List Chunk) : State × List Access :=
  let rt := s.roundTokens
  let go := fun (acc : State × List Access) (i upto : Nat) =>
    let (t, l) := acc.1.allocRounds i (ceilDiv upto rt)
    (t, acc.2 ++ l)
  let acc := dec.foldl (fun acc (d : Nat × Nat) =>
    let base := max (s.led d.1 Led.committed) (s.led d.1 Led.promptDone)
    go acc d.1 (base + (d.2 + 1) * (1 + s.led d.1 Led.spec))) (s, [])
  chunks.foldl (fun acc (c : Chunk) => go acc c.idx (c.first + c.n)) acc

/-- Requests whose last chunk was placed before this step enter DECODE and give their prompt slot back (R457, R464). -/
def State.toDecode (s : State) : State :=
  (s.reqs.filter fun i => s.rq i == rqPrefill && s.led i Led.promptDone == s.led i Led.promptLen).foldl
    (fun (t : State) i => (t.setLed i Led.state rqDecode).setLed i Led.pslot 0xFFFF) s

/-- The switch step of an armed swap is chosen (R492). -/
def State.chooseSwitch (s : State) (step : Nat) : State :=
  let pinnedPrefill := s.reqs.any fun i => s.rq i == rqPrefill && s.led i Led.pinned == 1
  if s.engine.armed.isSome ∧ s.engine.switchAt.isNone ∧ s.get Reg.WSWP_ARM Fld.WSWP_ARM.armed = 1 ∧
     s.get Reg.WSWP_SWITCH Fld.WSWP_SWITCH.step ≤ step ∧ !pinnedPrefill then
    (s.hwPut Reg.WSWP_SWITCH Fld.WSWP_SWITCH.step step).modEngine fun e => { e with switchAt := some step }
  else s

/-- The batch of a step is written, its record for the steps queued, and the engine notes it (R470, R471, R473). -/
def State.composeFill (s : State) (step time row cap epoch : Nat) (dec : List Nat) (run : Nat → Nat) (chunks : List Chunk) : State :=
  let t := dec.foldl (fun (u : State) i => u.runOn i epoch false) s
  let r := t.stepRounds (dec.map fun i => (i, run i)) chunks
  let t := r.1
  let shape := t.shapeAt row chunks.length
  let slots := dec.map fun i => t.slotBytesOf i epoch (run i != 0)
  let empty := List.replicate (64 * (classSize row - dec.length)) (0 : Byte)
  let head := batchHead step shape (classSize row) dec.length epoch chunks.length time
  let t := t.writeAny (t.batchAt step) (head ++ slots.flatten ++ empty ++ (chunks.map t.chunkBytes).flatten)
  let rec_ := t.recordOf step row shape chunks.length dec.length epoch
  let hs := (dec ++ (chunks.filter fun c => c.last).map fun c => c.idx).map t.handleOf
  let t := t.addPages r.2
  let t := { t with fabric := { t.fabric with outRec := t.fabric.outRec ++ [rec_] } }
  (t.modEngine fun e => { e with
    composed := some step, unproc := e.unproc ++ [step], ran := (step, hs) :: e.ran.take 7
    open_ := if t.strict then none else some (step, cap - chunks.length) }).recountPins

/-- A step with a row for its decoding requests: the epoch, the chunks placed, and the batch if anything runs (R470, R473). -/
def State.composeRow (s : State) (step time row cap : Nat) (dec : List Nat) (run : Nat → Nat) : State :=
  let order := s.prefillOrder
  let anyWork := !dec.isEmpty || (cap != 0 && !order.isEmpty)
  let u := if anyWork then s.chooseSwitch step else s
  let epoch := u.epochFor step
  let r := u.placeAll cap epoch time order
  if dec.isEmpty ∧ r.2.isEmpty then s.recountPins
  else r.1.composeFill step time row cap epoch dec run r.2

/-- The composition of step `step` with its time (R470, R471, R473). -/
def State.composeAt (s : State) (step time : Nat) : State :=
  let k := step - 1 - s.get Reg.FABR_STEP_CFG Fld.FABR_STEP_CFG.lag
  let s := (s.audit step 8 time).applyEvents step time
  let s := s.toDecode
  let run := fun (i : Nat) => s.stepsRun i (k + 1) (step - 1)
  let dec := s.reqs.filter fun i => s.rq i == rqDecode && s.placeable i &&
    decide (s.led i Led.produced + run i < s.led i Led.maxNew)
  match s.pickRow dec.length with
  | none => s.recountPins
  | some p => s.composeRow step time p.1 p.2 dec run

/-- STEP_COMPOSE (R470): as soon as the results of the lagged step have been processed. -/
def State.compose (s : State) : State :=
  let step := s.nextStep
  let lag := s.get Reg.FABR_STEP_CFG Fld.FABR_STEP_CFG.lag
  if !s.serving ∨ lag < s.engine.unproc.length then s
  else
    let s := s.useTables (s.tables ++ if s.replaying then
      [(65536 * s.get Reg.LEDG_REPLAY Fld.LEDG_REPLAY.base, 16 * s.get Reg.LEDG_REPLAY Fld.LEDG_REPLAY.count)] else [])
    let time := if s.replaying then (s.replayed step 8).getLast?.getD s.time48 else s.time48
    s.composeAt step time

/-- Chunks that became ready join the step whose composition is still open (R472). -/
def State.joinOpen (s : State) (i : Nat) : State :=
  match s.engine.open_ with
  | none => s
  | some (step, cap) =>
    if cap = 0 ∨ !s.placeable i ∨ (s.rq i ≠ rqWaiting ∧ s.rq i ≠ rqPrefill) ∨
       !(s.fabric.outRec.any fun r => (r.getD 0 0).toNat == step) then s
    else
      let b := s.batchAt step
      let epoch := leNat (s.bytes (b + 20) 4)
      let slots := leNat (s.bytes (b + 12) 4)
      let had := leNat (s.bytes (b + 24) 2)
      let (t, chunks) := s.placeReq i cap epoch (leNat (s.bytes (b + 26) 6))
      if chunks.isEmpty then s
      else
        let (t, acc) := t.stepRounds [] chunks
        let code := (t.fabric.outRec.find? fun r => (r.getD 0 0).toNat == step).elim 0 fun r =>
          (r.getD 1 0).toNat / 2 ^ 32 % 16
        let row := if code = 0xF then 7 else code
        let n := had + chunks.length
        let shape := t.shapeAt row n
        let t := t.writeAny (b + 64 + 64 * (slots + had)) ((chunks.map t.chunkBytes).flatten)
        let t := (t.writeAny (b + 8) (natLe 4 shape)).writeAny (b + 24) (natLe 2 n)
        let fix := fun (r : List Word) => if (r.getD 0 0).toNat = step then
            r.set 1 (BitVec.ofNat 64 (shape + code * 2 ^ 32 + n * 2 ^ 48)) else r
        let hs := (chunks.filter fun c => c.last).map fun c => t.handleOf c.idx
        let t := { t with fabric := { t.fabric with outRec := t.fabric.outRec.map fix } }
        let t := (t.addPages acc).put Reg.DTRM_STAT Fld.DTRM_STAT.arrival_pack 1
        t.modEngine fun e => { e with
          open_ := some (step, cap - chunks.length)
          ran := e.ran.map fun x => if x.1 = step then (step, x.2 ++ hs) else x }

/-- PROMPT acted on (R464, R467, R472). -/
def State.promptIn (s : State) (i : Nat) (q : List Byte) : State × Nat :=
  let first := fieldOf q 0 4
  let count := fieldOf q 4 4
  if (s.rq i ≠ rqWaiting ∧ s.rq i ≠ rqPrefill) ∨ first ≠ s.led i Led.promptRcvd ∨ count = 0 ∨
     s.led i Led.promptLen < first + count ∨ q.length ≠ 8 + 4 * count then (s, 0x6B09)
  else
    let s := s.wakeForHold.tableStore (s.promptAt (s.led i Led.pslot) first) (q.drop 8)
    let s := s.setLed i Led.promptRcvd (first + count)
    (s.joinOpen i, 0)

/-! ### Results (R474 to R477) -/

/-- A record of a step's stream (R443). -/
structure TokRec where
  idx    : Nat
  handle : Nat
  token  : Nat
  pos    : Nat
  flags  : Nat
  deriving DecidableEq, Repr

/-- The record of a request without a token. -/
def State.bareRec (s : State) (i flags : Nat) : TokRec :=
  ⟨i, s.handleOf i, 0, s.led i Led.promptLen + s.led i Led.produced, flags + 4 * s.led i Led.mixed⟩

/-- Times of a delivery at fabric time `rs`; not measured while the request is paused, nor the first after a resume (R476). -/
def State.measureReq (s : State) (i rs : Nat) : State :=
  let h := s.handleOf i
  let d := (rs + 2 ^ 48 - s.led i Led.tRef) % 2 ^ 48
  let sat := min d (2 ^ 32 - 1)
  let skip := s.engine.skip.contains i || s.paused i
  let s := if s.paused i then s else s.modEngine fun e => { e with skip := e.skip.filter (· != i) }
  let t := if skip then s
    else if s.led i Led.produced = 0 then
      let s := s.setLed i Led.ttft sat
      if s.led i Led.ttftTarget ≠ 0 ∧ s.led i Led.ttftTarget < d then
        ((s.setLed i Led.ttftMissed 1).addSat Reg.LEDG_STAT Fld.LEDG_STAT.ttft_misses 1).logErr { code := 0x6B01, info := h }
      else s
    else
      let s := s.setLed i Led.tbtMax (max sat (s.led i Led.tbtMax))
      if s.led i Led.tbtTarget = 0 ∨ d ≤ s.led i Led.tbtTarget then s
      else
        let s := s.addSat Reg.LEDG_STAT Fld.LEDG_STAT.tbt_misses 1
        if s.led i Led.tbtMissed = 1 then s else (s.setLed i Led.tbtMissed 1).logErr { code := 0x6B02, info := h }
  t.setLed i Led.tRef rs

/-- Tokens of a result up to the first stop token, where there is one, and no more than may be delivered (R474). -/
def takeTokens (stop : Option Nat) (room : Nat) : List Nat → List Nat
  | [] => []
  | x :: t => if room = 0 then [] else if stop = some x then [x] else x :: takeTokens stop (room - 1) t

/-- A request fails (R474). -/
def State.failReq (s : State) (i code : Nat) : State × List TokRec :=
  let s := s.setLed i Led.state rqFailed
  (if code = 0 then s else s.logErr { code := code, info := s.handleOf i }, [s.bareRec i 0x11])

/-- Debit a tenant at the processing of a step's results; a request that it pauses has changed in that step (R461, R467). -/
def State.debitResult (s : State) (step t cost handle : Nat) : State :=
  let u := s.debit t cost handle
  let l := s.reqs.filter fun i => s.led i Led.pauseDebt != u.led i Led.pauseDebt
  u.modEngine fun e => { e with stepOf := l.foldl (fun m i => smPut m i step) e.stepOf }

/-- Process the result of a request that a step named (R474, R475). -/
def State.processReq (s : State) (step rs handle : Nat) (res : List Byte) : State × List TokRec :=
  match s.findReq handle with
  | none => (s, [])
  | some i =>
    let f := fieldOf res
    let stop := if s.led i Led.stopToken = 0xFFFFFFFF then none else some (s.led i Led.stopToken)
    let made := s.led i Led.produced
    let s' := s.modEngine fun e => { e with stepOf := smPut e.stepOf i step }
    if !s.rqLive i then (s, [])
    else if f 0 4 ≠ handle ∨ 8 < f 27 1 then s'.failReq i 0x6B0A
    else if f 26 1 % 2 = 1 then s'.failReq i 0
    else
      let toks := (List.range (f 27 1)).map fun j => f (32 + 4 * j) 4
      let take := takeTokens stop (s.led i Led.maxNew - made) toks
      let ends := (stop.isSome && take.getLast? == stop) || made + take.length == s.led i Led.maxNew
      let late := s.led i Led.cancelReq
      if late = 1 ∧ !ends then
        let t := s'.setLed i Led.state rqCancelled
        (t, [t.bareRec i 0x11])
      else
        let t := if take.isEmpty then s' else s'.measureReq i rs
        let t := t.setLed i Led.produced (made + take.length)
        let ten := t.led i Led.tenant
        let t := t.debitResult step ten (take.length * t.ten ten Ten.outCost) handle
        let t := t.setLed i Led.committed (max (t.led i Led.committed) (f 28 4))
        let t := match take.getLast? with
          | some x => t.modEngine fun e => { e with lastTok := smPut e.lastTok i x }
          | none => t
        let t := if ends then (t.setLed i Led.state rqCompleted).setLed i Led.cancelLate late else t
        let base := t.led i Led.promptLen + made
        let n := take.length
        let recs := (List.range n).map fun j =>
          let fin : Nat := if ends ∧ j + 1 = n then 1 + 2 * late else 0
          (⟨i, handle, take.getD j 0, base + j, fin + 4 * t.led i Led.mixed⟩ : TokRec)
        (t, recs)

/-- The requests that a step's batch list names, with the places of their results (R473, R474). -/
def State.named (s : State) (step : Nat) : List (Nat × Nat) :=
  let b := s.batchAt step
  let n := fun (o k : Nat) => leNat (s.bytes (b + o) k)
  let slots := n 12 4
  let dec := (List.range (n 16 4)).map fun j => (n (64 + 64 * j + 28) 4, j)
  let last := (List.range (n 24 2)).filterMap fun c =>
    let e := 64 + 64 * (slots + c)
    if n (e + 13) 1 % 2 = 1 then some (n e 4, slots + c) else none
  ((dec ++ last).filter fun x => x.1 != 0).mergeSort fun x y => decide (x.1 % 2 ^ 20 ≤ y.1 % 2 ^ 20)

/-- A final record counts as acknowledged: by its frame or ring, or because its session or queue pair is gone (R458). -/
def State.finalAcked (s : State) (i : Nat) : Bool :=
  s.engine.acked.contains i ||
    (if s.led i Led.stream = 0 then ((smFind s.engine.owner i).bind s.sess).isNone
     else match s.ring (s.led i Led.ring) with
       | none => true
       | some _ => !s.qpReady (s.ringField (s.led i Led.ring) 12 2))

/-- Ended requests whose final record is acknowledged return to FREE (R457, R458). -/
def State.freeEnded (s : State) : State :=
  (s.reqs.filter fun i => !s.rqLive i && s.finalAcked i).foldl State.freeReq s

/-- The records without a token that belong to the stream of a step (R478, R481). -/
def State.takeExtra (s : State) (step : Nat) : State × List TokRec :=
  let due := s.engine.extra.filter fun x => decide (x.1 ≤ step)
  let s := s.modEngine fun e => { e with extra := e.extra.filter fun x => !decide (x.1 ≤ step) }
  (s, due.filterMap fun x => (s.findReq x.2.1).map fun i => s.bareRec i x.2.2)

/-! ### Streams (R443 to R447) -/

/-- Bytes of a record: the low word is the handle in a frame, the step in a ring (R443, R446). -/
def TokRec.bytes (r : TokRec) (low : Nat) : List Byte :=
  natLe 4 low ++ natLe 4 r.token ++ natLe 4 r.pos ++ natLe 2 0 ++ natLe 2 r.flags

/-- Cut a list into parts of `n`. `k` bounds the parts. -/
def parts {α : Type} (n : Nat) : Nat → List α → List (List α)
  | 0, _ => []
  | _, [] => []
  | k + 1, l => l.take n :: parts n k (l.drop n)

/-- STEP_FRAMEs of a session that wait to be acknowledged have reached the limit (R444). -/
def State.framesFull (s : State) (x : Session) : Bool :=
  decide (s.get Reg.STRM_MODE Fld.STRM_MODE.frame_buf ≤ (x.unacked.filter fun m => m.ty == 0x35).length)

/-- Records that find no space in replay are discarded, their tokens counted; a final one counts as acknowledged (R480, log entry 23). -/
def State.dropRecs (s : State) (recs : List TokRec) : State :=
  let s := s.addSat Reg.LEDG_STAT Fld.LEDG_STAT.replay_drops (recs.filter fun r => !r.flags.testBit 4).length
  s.modEngine fun e => { e with acked := e.acked ++ ((recs.filter fun r => r.flags % 2 == 1).map fun r => r.idx) }

/-- The STEP_FRAMEs of a step to one session (R443, R444). -/
def State.sendFrames (s : State) (step epoch : Nat) (x : Session) (recs : List TokRec) : State :=
  if s.replaying ∧ s.framesFull x then s.dropRecs recs
  else
  let per := max 1 (min 510 ((s.maxPayload x.ifc - 32) / 16))
  let ps := parts per recs.length recs
  let n := ps.length
  let s := ps.zipIdx.foldl (fun (t : State) (p : List TokRec × Nat) =>
    let head := natLe 8 step ++ natLe 4 0 ++ natLe 2 p.1.length ++ natLe 2 0 ++ natLe 2 n ++ natLe 2 p.2 ++ natLe 4 epoch ++
      natLe 8 0
    let body := p.1.flatMap fun (r : TokRec) => r.bytes r.handle
    let fin := (p.1.filter fun (r : TokRec) => r.flags % 2 == 1).map fun r => r.handle
    t.sendMsg x.id 0x35 (if p.2 + 1 = n then 0 else 2) 0 0 (head ++ body) none fin) s
  match s.sess x.id with
  | none => s
  | some y =>
    if s.framesFull y ∧ !y.paused ∧ !s.replaying then (s.setSess { y with paused := true }).logErr { code := 0x6B06 } else s

/-- A record for a ring: posted, held where no space is free, or discarded in replay (R446, R447, R480). -/
def State.ringRec (s : State) (step : Nat) (r : TokRec) : State :=
  let k := s.led r.idx Led.ring
  match s.ring k with
  | none => s
  | some g =>
    let e := r.bytes (step % 2 ^ 32)
    let fin := r.flags % 2 == 1
    if g.held.isEmpty ∧ 0 < s.ringFree k g then s.ringPost k g e fin
    else if s.replaying then s.dropRecs [r]
    else
      let s := s.setRing k { g with held := g.held ++ [(e, fin)], logged := true }
      if g.logged then s else s.logErr { code := 0x6B05, info := r.handle }

/-- A ring whose free space fell below ring_low has its consumer count read, once per step, until it rises above it (R447). -/
def State.ringAsk (s : State) (step k : Nat) : State :=
  match s.ring k with
  | none => s
  | some g =>
    let l := s.get Reg.STRM_MODE Fld.STRM_MODE.ring_low
    let free := s.ringFree k g
    let low := decide (free < l) || (g.low && decide (free ≤ l))
    if low ∧ g.asked ≠ some step then
      (s.setRing k { g with low := true, asked := some step }).qpSend (s.ringField k 12 2) 3 (s.ringField k 8 4)
        (s.ringField k 24 8) 8 [] 8 (ring := some g.idx)
    else if low = g.low then s
    else s.setRing k { g with low := low }

/-- The streams of a step (R443, R446). -/
def State.streamStep (s : State) (step epoch : Nat) (recs : List TokRec) : State :=
  let recs := recs.mergeSort fun a b => decide (a.idx < b.idx ∨ (a.idx = b.idx ∧ a.pos ≤ b.pos))
  let frame := recs.filter fun r => s.led r.idx Led.stream == 0
  let s := s.host.sessions.foldl (fun (t : State) (x : Nat × Session) =>
    let mine := frame.filter fun r => smFind t.engine.owner r.idx == some x.1
    if mine.isEmpty then t else t.sendFrames step epoch x.2 mine) s
  let s := (recs.filter fun r => s.led r.idx Led.stream == 1).foldl (fun t r => t.ringRec step r) s
  s.host.rings.foldl (fun (t : State) (x : Nat × Ring) => t.ringAsk step x.1) s

/-! ### Energy (R513, R514) -/

/-- The entries and weights of a step's batch (R513). -/
def State.energyParts (s : State) (step : Nat) : List (Nat × Nat) :=
  let b := s.batchAt step
  let n := fun (o k : Nat) => leNat (s.bytes (b + o) k)
  let slots := n 12 4
  let pw := s.get Reg.ENGY_CTRL Fld.ENGY_CTRL.prompt_weight
  let dec := (List.range (n 16 4)).map fun j => (n (64 + 64 * j + 28) 4, 256 * (1 + n (64 + 64 * j + 11) 1))
  let chk := (List.range (n 24 2)).map fun c => (n (64 + 64 * (slots + c)) 4, pw * n (64 + 64 * (slots + c) + 14) 2)
  (dec ++ chk).filterMap fun x => (s.findReq x.1).map fun i => (i, x.2)

/-- Attribute the group's energy to the requests of a step (R513). -/
def State.shareEnergy (s : State) (step : Nat) : State :=
  let e := s.get Reg.ENGY_GROUP Fld.ENGY_GROUP.acc
  let s := s.put Reg.ENGY_GROUP Fld.ENGY_GROUP.acc 0
  let ps := s.energyParts step
  let w := (ps.map (·.2)).foldl (· + ·) 0
  let tb := 65536 * s.get Reg.ENGY_TBASE Fld.ENGY_TBASE.base
  let un := fun (t : State) (n : Nat) => t.addTo Reg.ENGY_UNATTR Fld.ENGY_UNATTR.energy_uj n
  if w = 0 then un s e
  else
    let (t, given) := ps.foldl (fun (acc : State × Nat) p =>
      let a := e * p.2 / w
      let at_ := tb + 8 * acc.1.led p.1 Led.tenant
      let u := acc.1.serveAhead at_ 8
      let t := u.tableStore at_ (natLe 8 (u.word at_ + BitVec.ofNat 64 a).toNat)
      (t.addTo (Reg.ENGY_CLASS (t.led p.1 Led.qclass)) Fld.ENGY_CLASS.energy_uj a, acc.2 + a)) (s, 0)
    un t (e - given)

/-- ENERGY_SWEEP (R513): no result processing for 1 ms. -/
def execEnergySweep (s : State) : Out :=
  if !s.serving ∨ s.get Reg.ENGY_CTRL Fld.ENGY_CTRL.attr_en = 0 then .next s
  else
    let s := s.advanceTo (s.engine.procAt + 1000000000)
    let e := s.get Reg.ENGY_GROUP Fld.ENGY_GROUP.acc
    let s := s.put Reg.ENGY_GROUP Fld.ENGY_GROUP.acc 0
    .next ((s.addTo Reg.ENGY_UNATTR Fld.ENGY_UNATTR.energy_uj e).modEngine fun x => { x with procAt := s.now })

/-! ### Result processing (R474, R498) -/

/-- The answer to WSWP_ARM op 0 once the wharf has begun the switch step, and to op 2 once no request is pinned (R497, R498). -/
def State.swapAnswers (s : State) (step : Nat) : State :=
  let s := match s.engine.armed, s.engine.switchAt with
    | some (sess, seq), some k =>
      if k ≤ step then
        (s.sendMsg sess 0x41 0 0 0 (s.swapBody k 0) (some seq)).modEngine fun e => { e with armed := none, switchAt := none }
      else s
    | _, _ => s
  s.recountPins

/-- Results of step `step` at the wharf's step-ready (R443, R474). -/
def State.processStep (s : State) (step : Nat) : State :=
  let s := (s.useTables (s.tables ++ [(s.batchAt step, 65536), (s.resultAt step, 65536)])).freeEnded
  if !s.engine.unproc.contains step then s.swapAnswers step
  else
    let rs := s.time48
    let epoch := leNat (s.bytes (s.batchAt step + 20) 4)
    let base := s.resultAt step
    let (t, recs) := (s.named step).foldl (fun (acc : State × List TokRec) x =>
      let (u, l) := acc.1.processReq step rs x.1 (acc.1.bytes (base + 64 * x.2) 64)
      (u, acc.2 ++ l)) (s, [])
    let (t, extra) := t.takeExtra step
    let t := t.streamStep step epoch (recs ++ extra)
    let t := if t.get Reg.ENGY_CTRL Fld.ENGY_CTRL.attr_en = 1 then t.shareEnergy step else t
    let t := (t.modEngine fun e => { e with unproc := e.unproc.filter (· != step), procAt := t.now }).swapAnswers step
    t.countPaused.modEngine fun e => { e with view := [] }

end Sys2Proof.Machine
end

