-- ==== Sys2Proof/Machine/Reset.lean ====
section
/-! DEFINITION. Resets (R545 to R550): what each kind keeps, CTX, FAB and REACH resets, and the loss of power. POR, TOLL and DEV resets
go on in Boot.lean. -/

namespace Sys2Proof.Machine

/-! ### What registers keep (R549, R550) -/

/-- Every bit kept, and none. -/
def keepAll : Word := BitVec.allOnes 64
def keepNone : Word := 0

/-- Offset of a control register in its block. -/
def offOf (a : Nat) : Nat := (a - 0x400000000) % 0x10000

/-- The offset of a core register that holds program state (R549): all but ARRAY_STAT, ARRAY_FAULT, VEC_STAT, SLUICE_STAT_s,
INGRESS_STAT, MEM_ECC, MEM_ERR and WS_COPY. -/
def programReg (o : Nat) : Bool :=
  decide (o < 0x400) || (decide (0x900 ≤ o) && decide (o < 0xB80)) || o == 0xB90

/-- A register of the LOCK block other than LOCK_ERR. -/
def lockReg (a : Nat) : Bool := blockOfReg a == some 5 && a != Reg.LOCK_ERR

/-- Bits that a DEV reset keeps of a register of the counts and points of R549. -/
def devKeep (a : Nat) : Word :=
  match coreOfReg a with
  | some _ => if a % 0x1000 = 0x808 then keepAll else keepNone
  | none =>
    let o := offOf a
    match blockOfReg a with
    | some 0 => if a = Reg.DEV_RESET_STAT ∨ o < 0x20 then keepAll else keepNone
    | some 1 => if a = Reg.TOLL_BOOT then Fld.TOLL_BOOT.boots.mask else if a = Reg.TOLL_THERM then keepAll else keepNone
    | some 2 => if 0x100 ≤ o ∧ o < 0x200 then Fld.PACE_OPSEL.retune_count.mask
        else if (0x200 ≤ o ∧ o < 0x308) ∨ a = Reg.PACE_HOLD_CNT then keepAll else keepNone
    | some 3 => if a = Reg.WEIR_GUST_CNT ∨ 0x800 ≤ o then keepAll else keepNone
    | some 4 => if a = Reg.ENGY_CTRL ∨ a = Reg.ENGY_TBASE then keepNone else keepAll
    | some 7 => if o % 0x100 = 0 then Fld.HOLD_CTRL.trained.mask ||| Fld.HOLD_CTRL.temp_c.mask ||| Fld.HOLD_CTRL.rmode.mask else keepAll
    | some 8 => if 0x400 ≤ o ∧ o < 0x800 then
          Fld.TOWL_LANE_STAT.downs.mask ||| Fld.TOWL_LANE_STAT.ucw.mask ||| Fld.TOWL_LANE_STAT.csym.mask
        else keepNone
    | some 13 => if a = Reg.WSWP_PAUSE then keepAll else keepNone
    | some 14 => if a = Reg.SNAP_ARM then ~~~ Fld.SNAP_ARM.armed.mask else keepAll
    | some 15 => keepAll
    | some 16 => if a = Reg.DTRM_WDOG then Fld.DTRM_WDOG.fires.mask else keepNone
    | some 17 => keepAll
    | some 19 => if 0x808 ≤ o ∧ o ≤ 0x820 then keepAll else keepNone
    | _ => keepNone

/-- Bits that a POR or TOLL reset keeps. TOLL_THERM.trip is kept but at POR (R588). -/
def tollKeep (por : Bool) (a : Nat) : Word :=
  match blockOfReg a with
  | some 1 => if a = Reg.TOLL_BOOT then Fld.TOLL_BOOT.boots.mask
      else if a = Reg.TOLL_THERM ∧ !por then Fld.TOLL_THERM.trip.mask ||| Fld.TOLL_THERM.trip_src.mask else keepNone
  | some 17 => keepAll
  | some 0 => if offOf a < 0x20 then keepAll else keepNone
  | _ => keepNone

/-- Bits kept as power is taken from everything but the tollhouse (R549): those of its own blocks. -/
def powerKeep (a : Nat) : Word :=
  match blockOfReg a with
  | some 1 => if a = Reg.TOLL_THERM then
      Fld.TOLL_THERM.trip.mask ||| Fld.TOLL_THERM.trip_src.mask ||| Fld.TOLL_THERM.die_peak_c.mask ||| Fld.TOLL_THERM.toll_c.mask
      else keepAll
  | some 15 => keepAll
  | some 17 => keepAll
  | some 0 => if offOf a < 0x20 ∨ a = Reg.DEV_RESET_STAT then keepAll else keepNone
  | _ => keepNone

/-- Bits that a CTX reset keeps (R209, R258, R340, R549). -/
def ctxKeep (a : Nat) : Word :=
  match coreOfReg a with
  | some _ => if programReg (a % 0x1000) then keepNone else keepAll
  | none =>
    if lockReg a ∨ a = Reg.MESH_MODE ∨ a = Reg.DTRM_GRID then keepNone
    else if blockOfReg a = some 16 ∧ 0x1000 ≤ offOf a then keepNone
    else keepAll

/-- Bits that a FAB reset keeps (R548, R549). -/
def fabKeep (a : Nat) : Word :=
  if lockReg a then keepNone
  else match blockOfReg a with
    | some 9 => if a = Reg.FABR_TIME ∨ a = Reg.FABR_TIME_CFG then keepAll else keepNone
    | some 8 => if 0x1000 ≤ offOf a then keepNone else keepAll
    | _ => keepAll

/-- Bits that a REACH reset of reach `r` keeps (R547, R549). -/
def reachKeep (r a : Nat) : Word :=
  match coreOfReg a with
  | some n =>
    let o := a % 0x1000
    if reachOf n = r ∧ o ≠ 0x808 ∧ o ≠ 0xBA0 then keepNone else keepAll
  | none => keepAll

/-- Return registers to their reset values but for the bits kept. -/
def State.keepRegs (s : State) (keep : Nat → Word) : State :=
  { s with regs := s.regs.map fun e => (e.1, (e.2 &&& keep e.1) ||| (regReset e.1 &&& ~~~ keep e.1)) }

/-! ### Requests (R545) -/

/-- Only the tollhouse is powered. -/
def State.tollOnly (s : State) : Bool := s.toll.becalmed || s.toll.dead

/-- Boot phase (R528). -/
def State.phase (s : State) : Nat := s.get Reg.TOLL_BOOT Fld.TOLL_BOOT.phase

/-- Ready, with the die powered. -/
def State.ready (s : State) : Bool := s.phase == 7 && !s.tollOnly

/-- Note the kind of a reset in DEV_RESET_STAT. -/
def State.noteKind (s : State) (k : Nat) : State := s.put Reg.DEV_RESET_STAT Fld.DEV_RESET_STAT.last_kind k

/-- A refused FAB or REACH request. -/
def State.refuse3011 (s : State) : State × Nat := (s.logErr { code := 0x3011 }, 0x3011)

/-! ### CTX (R546) -/

/-- The ABORT of an open sub-transfer: it follows a multicast, and otherwise names the sub-transfer as its OPEN did (log entry 13). -/
def State.abortOf (s : State) (n sl : Nat) (x : SubTx) : Barge :=
  match x.mcast with
  | some m => mkBarge (hMcast.set (hdr3 tyABORT x.chip m 0 s.stepParity) 1) 0
  | none => mkBarge (hdr3 tyABORT x.chip x.dest (x.granted.getD 0x3F) s.stepParity)
      (openPayload 0 0 0 0 0 sl x.idx n s.chipAddr 0 0 false)

/-- The ABORTs of a sluice: one for each sub-transfer that it holds open, by the way its OPEN went (R391, R546). -/
def State.abortTx (s : State) (n sl : Nat) : State :=
  match s.tx n sl with
  | none => s
  | some t => t.subs.foldl (fun (u : State) x => u.sendBy n sl 1 x.chip x.exit (u.abortOf n sl x)) s

/-- The ABORTs of every core. -/
def State.abortAll (s : State) : State :=
  s.mesh.tx.foldl (fun (t : State) x => t.abortTx (x.1 / 4) (x.1 % 4)) s

/-- Nothing of a core runs or waits. -/
def Core.abandoned (c : Core) : Core :=
  { c with
    kwait := .none, kstep := false, haltReq := false, array := none, vector := none, feeder := none
    sluice := [none, none, none, none], sigs := [] }

/-- The status registers of the units that have stopped: nothing is in progress (R142, R314). -/
def State.unitsIdle (s : State) (n : Nat) : State :=
  let s := if s.get (Reg.ARRAY_STAT n) Fld.ARRAY_STAT.busy = 0 then s else s.put (Reg.ARRAY_STAT n) Fld.ARRAY_STAT.busy 0
  let s := if s.get (Reg.VEC_STAT n) Fld.VEC_STAT.busy = 0 then s else s.put (Reg.VEC_STAT n) Fld.VEC_STAT.busy 0
  (List.range 4).foldl (fun (t : State) sl =>
    let a := Reg.SLUICE_STAT n sl
    if t.get a Fld.SLUICE_STAT.phase = 0 ∧ t.get a Fld.SLUICE_STAT.open_subs = 0 then t
    else (t.put a Fld.SLUICE_STAT.phase 0).put a Fld.SLUICE_STAT.open_subs 0) s

/-- The writes of the beat in progress of every core take effect (R261). -/
def State.flushAll (s : State) : State := (s.cores.map (·.1)).foldl State.flushWrites s

/-- The data of an Ethernet port whose landing slots have been freed are to be sent again (R418). -/
def EthTx.again (x : EthTx) : EthTx := { x with asked := false, slot := none, sent := 0 }

/-- A barge of a sub-transfer that this die has sent (R296); the data of a fill are none (log entry 23). -/
def ownTransfer (b : Barge) : Bool := !b.far && decide (bType b ≤ tyABORT) && !(bType b == tyDATA && mapMark b == fillMark)

/-- What this die has sent for sub-transfers is discarded as it arrives; what has arrived is discarded now (R546). -/
def State.staleAll (s : State) : State :=
  { s with mesh := { s.mesh with
      flits := s.mesh.flits.map fun f => if ownTransfer f.barge then { f with barge := { f.barge with stale := true } } else f
      inbox := s.mesh.inbox.filter fun x => !ownTransfer x.barge } }

/-- Steps 1 and 2 of R546. The places of fills, which no sluice opened, stay (R488). -/
def State.ctxStart (s : State) : State :=
  let s := s.flushAll.staleAll
  let s := (s.cores.map (·.1)).foldl State.unitsIdle s.abortAll
  let s := s.holdOff HoldReq.isItem
  let s := s.holdOff fun h => h.cause == .record
  let s := { s with cores := s.cores.map fun (c : Nat × Core) => (c.1, c.2.abandoned) }
  let own := fun (r : ReadReq) => s.isHere r.sChip && decide (r.sSrc < 128)
  { s with
    mesh := { s.mesh with
      tx := [], landing := s.mesh.landing.filter fun x => x.2.fill
      reads := s.mesh.reads.map fun (q : Nat × List ReadReq) => (q.1, q.2.filter fun r => !own r) }
    host := { s.host with etx := s.host.etx.map fun (q : Nat × List EthTx) => (q.1, q.2.map EthTx.again) }
    toll := { s.toll with ctxAt := some s.now } }

/-- No barge sent by this die remains in the mesh or at an edge station, and every ingress buffer is empty (R546). -/
def State.drained (s : State) : Bool :=
  s.mesh.flits.all (·.barge.far) && s.mesh.inbox.all (·.barge.far) &&
    (List.range 48).all (fun p => (s.port p).tx.all (·.2.far)) && s.cores.all fun c => c.2.ingress.isEmpty

/-- A core after its program state is cleared (R189, R209, R549): memories and the ingress buffer stay. -/
def Core.cleared (c : Core) : Core :=
  { ({} : Core) with
    ingress := c.ingress, shadowW := c.shadowW, shadowS := c.shadowS, activeW := c.activeW, activeS := c.activeS
    narrowQ := c.narrowQ }

/-- Enabled cores enter STOPPED, the value that CORE_STAT takes at reset (R204). -/
def State.ctxEnd (s : State) : State :=
  let s := s.flushAll.keepRegs ctxKeep
  let s := { s with
    cores := s.cores.map fun (c : Nat × Core) => (c.1, c.2.cleared)
    locks := {}
    mesh := { s.mesh with mcast := [] }
    toll := { s.toll with ctxAt := none } }
  let s := s.addSat Reg.DEV_RESET_STAT Fld.DEV_RESET_STAT.ctx_count 1
  (s.noteKind 5).unloadRequests

/-- REACH resets in progress are absorbed by a kind that stands higher (R545): their pacers go on. -/
def State.dropReaches (s : State) : State :=
  let t := s.toll.reaching.foldl (fun (u : State) r => u.setReach r { u.reach r with
    stopped := u.idle.state != 0, ticked := true, tickAt := u.now, heldAtTick := u.die.heldPs }) s
  { t with toll := { t.toll with reaching := [] } }

/-- A CTX request: absorbed by a boot, or by a CTX reset in progress. -/
def State.ctxReset (s : State) : State := if !s.ready ∨ s.toll.ctxAt.isSome then s else s.dropReaches.ctxStart

/-- CTX_RESET (R546). -/
def execCtxReset (s : State) : Out := .next s.ctxReset

/-- Steps 3 and 4 of R546. -/
def State.ctxDrain (s : State) : State :=
  match s.toll.ctxAt with
  | none => s
  | some t => (if s.drained then s else s.advanceTo (t + 50000000)).ctxEnd

/-- CTX_DRAIN_COMPLETE (R546). -/
def execCtxDrainComplete (s : State) : Out := .next s.ctxDrain

/-! ### FAB (R548) -/

/-- The fabric state after a FAB reset: fabric time runs on. -/
def Fabric.cleared (f : Fabric) : Fabric :=
  { ({} : Fabric) with
    symbols := f.symbols, goodTime := f.goodTime, slew := f.slew, subPs := f.subPs, nextTime := f.nextTime }

/-- Every enabled port goes through TRAINING (R386). -/
def State.trainPorts (s : State) : State :=
  ((List.range 48).filter s.portOn).foldl State.startTraining s

/-- Every port that is ACTIVE leaves that state (R385, R409). -/
def State.leaveActive (s : State) : State :=
  ((List.range 48).filter s.portActive).foldl (fun (u : State) p => u.enterState p pTraining) s

/-- A FAB reset; one CTX reset in progress is absorbed (R545). -/
def State.fabReset (s : State) : State × Nat :=
  if !s.ready then (s, 0)
  else if s.anyBusy then s.refuse3011
  else
    let s := (s.dropReaches.leaveActive).keepRegs fabKeep
    let ferry := fun (r : ReadReq) => decide (128 ≤ r.sSrc)
    let s := { s with
      fabric := s.fabric.cleared, locks := {}, toll := { s.toll with ctxAt := none }
      mesh := { s.mesh with reads := s.mesh.reads.map fun (q : Nat × List ReadReq) => (q.1, q.2.filter fun r => !ferry r) } }
    ((s.trainPorts).noteKind 4, 0)

/-- FAB_RESET (R548). -/
def execFabReset (s : State) : Out := .next s.fabReset.1

/-! ### REACH (R547) -/

/-- Reaches of a mask. -/
def reachesIn (mask : Nat) : List Nat := (List.range 16).filter fun r => mask.testBit r

/-- A REACH request: a CTX reset in progress absorbs it. -/
def State.reachReset (s : State) (mask : Nat) : State × Nat :=
  let rs := reachesIn mask
  if !s.ready ∨ s.toll.ctxAt.isSome then (s, 0)
  else if rs.any (fun r => (coresOf r).any fun n => busyState (s.coreState n)) then s.refuse3011
  else
    let t := rs.foldl (fun (u : State) r => u.setReach r { u.reach r with stopped := true }) s
    ({ t with toll := { t.toll with reaching := (t.toll.reaching ++ rs).eraseDups } }, 0)

/-- REACH_RESET (R547). -/
def execReachReset (mask : BitVec 16) (s : State) : Out := .next (s.reachReset mask.toNat).1

/-- Reach `r` is reset: its point, its cores' columns, and its pacer again (R547, R549). -/
def State.reachDone (s : State) (r : Nat) : State :=
  let s := s.flushAll
  let a := Reg.PACE_OPSEL r
  let s := s.put a Fld.PACE_OPSEL.current_op (s.get a Fld.PACE_OPSEL.target_op)
  let s := (s.put a Fld.PACE_OPSEL.settle_fail 0).put a Fld.PACE_OPSEL.busy 0
  let s := (s.put a Fld.PACE_OPSEL.auto_down 0).keepRegs (reachKeep r)
  let s := s.holdOff fun h => match h.cause with
    | .retune q => q.val == r
    | _ => false
  let s := { s with
    cores := s.cores.map fun (c : Nat × Core) => if reachOf c.1 = r then (c.1, c.2.cleared) else c
    toll := { s.toll with reaching := s.toll.reaching.filter (· != r) } }
  let s := (coresOf r).foldl State.unitsIdle s
  let x := s.reach r
  (s.setReach r { x with
    stopped := s.idle.state != 0, ticked := true, tickAt := s.now, heldAtTick := s.die.heldPs, retune := .none, critical := false
    critRun := List.replicate 8 0 }).noteKind 6

/-- REACH_RESET_COMPLETE (R547). -/
def execReachResetComplete (r : Fin 16) (s : State) : Out :=
  if s.toll.reaching.contains r.val then .next (s.reachDone r) else .next s

/-! ### The whole package (R545, R549) -/

/-- Contents of the holds alone. -/
def State.holdsOnly (s : State) : State :=
  { s with mem := s.mem.filter fun c => decide (0x1000000000 ≤ c.1), ecc := s.ecc.filter fun c => decide (0x1000000000 ≤ c.1) }

/-- Everything of the die that no register holds returns to its state at reset; time, free values, what was sent, waiting commands
and the tollhouse stay. -/
def State.dieCleared (s : State) : State :=
  { State.reset with
    now := s.now, free := s.free, regs := s.regs, mem := s.mem, ecc := s.ecc, holds := s.holds, toll := s.toll, ibiOn := s.ibiOn
    ibis := s.ibis, outs := s.outs, pending := s.pending }

/-- Power is taken from everything but the tollhouse (R549). -/
def State.unpower (s : State) : State :=
  let s := (s.keepRegs powerKeep).dieCleared
  { s with mem := [], ecc := [], holds := [], toll := { s.toll with ctxAt := none, reaching := [], trying := [], downing := true } }

/-- The state of a POR or TOLL reset before its boot starts. Coming from Becalmed the error log is kept (R549). -/
def State.wholeReset (s : State) (por : Bool) : State :=
  let keep := fun (a : Nat) => if s.toll.becalmed && !por && blockOfReg a == some 15 then keepAll else tollKeep por a
  let t := (s.keepRegs keep).dieCleared
  let up := s.toll.en.any id
  let fresh : Toll := { ({} : Toll) with
    resetN := s.toll.resetN, defects := s.toll.defects, en := s.toll.en, pg := s.toll.pg, enAt := s.toll.enAt
    pgAt := s.toll.pgAt }
  let toll : Toll := if por then { fresh with kind := 1, en := [false, false, false, false] }
    else { fresh with
      kind := 2, pwrOk := s.toll.pwrOk, downing := up, tripped := s.toll.tripped, trefLost := s.toll.trefLost
      erefLost := s.toll.erefLost, tap := s.toll.tap, ir := s.toll.ir, irShift := s.toll.irShift, drShift := s.toll.drShift }
  ({ t with mem := [], ecc := [], holds := [], ibiOn := false, ibis := [], toll := toll }).noteKind (if por then 1 else 2)

/-- The state of a DEV reset before its boot starts: hold contents and training, the error log, the last snapshot, counts and
the tollhouse's own state are kept (R549, R562). -/
def State.devCleared (s : State) : State :=
  let t := ((s.keepRegs devKeep).holdsOnly).dieCleared
  { t with
    holds := s.holds.map fun (h : Nat × HoldPc) => (h.1, { h.2 with queue := [], rewrite := [], busyTill := 0 })
    power := { ({} : Power) with fracs := s.power.fracs, lastPkg := s.power.lastPkg }
    diag := { ({} : Diag) with snap := s.diag.snap }
    toll := { s.toll with kind := 3, slot := 0, image := [], keys := [], ctxAt := none, reaching := [], trying := [], lowAt := none } }

end Sys2Proof.Machine
end

