-- ==== Sys2Proof/Machine/Trust.lean ====
section
/-! DEFINITION. The configuration image (R531 to R535), limited-change settings and change orders (R538 to R543), and the attestation
report (R536, R537). -/

namespace Sys2Proof.Machine

/-- The bytes of an ASCII string. -/
def ascii (t : String) : List Byte := t.toList.map fun c => BitVec.ofNat 8 c.toNat

/-- Both signatures over a message verify: Ed25519 and ML-DSA-65 under the manufacturer keys, or under the owner keys given (R533). -/
def bothVerify (owner : Option (List Byte)) (msg sigs : List Byte) : Bool :=
  let ed := match owner with
    | some k => k.take 32
    | none => []
  let ml := match owner with
    | some k => (k.drop 32).take 1952
    | none => []
  Config.verifies 0 ed msg (sigs.take 64) && Config.verifies 1 ml msg ((sigs.drop 64).take 3309)

/-- Every byte of a list is 0. -/
def allZero (l : List Byte) : Bool := l.all (· == 0)

/-! ### The image (R532) -/

/-- Sections of an image: type, offset and length, in the order of the table. -/
def imgSections (img : List Byte) : List (Nat × Nat × Nat) :=
  let f := fieldOf img
  (List.range (f 18 2)).map fun i =>
    let a := f 20 4 + 16 * i
    (f a 2, f (a + 4) 4, f (a + 8) 4)

/-- Bytes of the first section of a type. -/
def imgSection (img : List Byte) (t : Nat) : Option (List Byte) :=
  ((imgSections img).find? fun x => x.1 == t).map fun x => (img.drop x.2.1).take x.2.2

/-- The section of a type, no bytes where there is none. -/
def imgPart (img : List Byte) (t : Nat) : List Byte := (imgSection img t).getD []

/-- No two sections overlap. -/
def noOverlap : List (Nat × Nat × Nat) → Bool
  | [] => true
  | x :: t => t.all (fun y => decide (x.2.1 + x.2.2 ≤ y.2.1 ∨ y.2.1 + y.2.2 ≤ x.2.1)) && noOverlap t

/-- Size that a section has where R532 gives it one. -/
def sizeOk (t n : Nat) : Bool :=
  if t = 1 then n == 1984 else if t = 2 then n == 128 else if t = 5 then n == 1152 else if t = 6 then n == 528
  else if t = 7 then decide (n ≤ 2097152) else true

/-- The reserved bytes of the section table are 0. -/
def tableZeros (img : List Byte) : Bool :=
  let f := fieldOf img
  (List.range (f 18 2)).all fun i =>
    let a := f 20 4 + 16 * i
    f (a + 2) 2 == 0 && f (a + 12) 4 == 0

/-- The header, section table and required sections are well formed (R532, R534); what an optional section holds is no part of this. -/
def imageOk (img : List Byte) : Bool :=
  let f := fieldOf img
  let n := f 18 2
  let len := f 32 4
  let sig := f 36 4
  let secs := imgSections img
  let need := (if f 17 1 = 1 then [1] else []) ++ [2, 3, 4, 5, 6, 7]
  f 0 4 == 0x49445641 && f 6 2 == 1 && f 4 2 == 0 && f 8 9 == 0 && f 40 24 == 0 && decide (f 17 1 ≤ 1) && decide (1 ≤ n) &&
    decide (n ≤ 32) && f 20 4 % 16 == 0 && decide (64 ≤ f 20 4) && decide (f 20 4 + 16 * n ≤ len) && decide (len ≤ sig) &&
    decide (sig + 3373 ≤ 33554432) && decide (sig + 3373 ≤ img.length) && tableZeros img &&
    secs.all (fun x => decide (x.2.1 + x.2.2 ≤ len)) && noOverlap secs &&
    need.all fun t => match imgSection img t with
      | some b => sizeOk t b.length
      | none => false

/-- The measurement of an image (R533). -/
def measurement (img : List Byte) : List Byte := sha3 (img.take (fieldOf img 32 4))

/-- Change orders that an image carries, in section order; bytes short of an order at the end are one of wrong length (R539, R540). -/
def imgOrders (img : List Byte) : List (List Byte) :=
  let b := imgPart img 9
  parts 3504 (b.length / 3504 + 1) b

/-- LIMS_OWNER as its 64 bytes. -/
def State.ownerDigest (s : State) : List Byte := (List.range 8).flatMap fun j => natLe 8 (s.reg (Reg.LIMS_OWNER j)).toNat

/-- LIMS_OWNER holds a digest. -/
def State.hasOwner (s : State) : Bool := !allZero s.ownerDigest

/-- An order that enrols the first owner with the keys of its image (R540). -/
def State.enrols (s : State) (digest o : List Byte) : Bool :=
  !s.hasOwner && s.get Reg.LIMS_DEBUG Fld.LIMS_DEBUG.state == 0 && fieldOf o 0 4 == 0x4F445641 && fieldOf o 5 1 == 6 &&
    fieldOf o 6 1 == 1 && (o.drop 64).take 64 == digest

/-! ### Change orders (R538 to R543) -/

/-- The order tag: the first 8 bytes of the digest of the body (R539). -/
def orderTag (o : List Byte) : Nat := leNat ((sha3 (o.take 128)).take 8)

/-- Used units of a setting; for setting 6 the journal entries written (R539). -/
def State.usedUnits (s : State) (k : Nat) : Nat :=
  let b := Reg.LIMS_BUDGETS
  if k = 1 then s.get b Fld.LIMS_BUDGETS.sec_used else if k = 2 then s.get b Fld.LIMS_BUDGETS.ceil_used
  else if k = 3 then s.get b Fld.LIMS_BUDGETS.debug_used else if k = 4 then s.get b Fld.LIMS_BUDGETS.role_used
  else if k = 5 then s.get b Fld.LIMS_BUDGETS.grade_used else s.get b Fld.LIMS_BUDGETS.journal

/-- Budget of a setting (R538); setting 6 has none of its own. -/
def budgetOf (k : Nat) : Nat := [0, 64, 16, 2, 8, 4, 1024].getD k 0

/-- Field of the used units of a setting. -/
def usedField (k : Nat) : BitField :=
  if k = 1 then Fld.LIMS_BUDGETS.sec_used else if k = 2 then Fld.LIMS_BUDGETS.ceil_used
  else if k = 3 then Fld.LIMS_BUDGETS.debug_used else if k = 4 then Fld.LIMS_BUDGETS.role_used else Fld.LIMS_BUDGETS.grade_used

/-- Journal entries written. -/
def State.journalLen (s : State) : Nat := s.get Reg.LIMS_BUDGETS Fld.LIMS_BUDGETS.journal

/-- A tag is found in the journal. -/
def State.tagKnown (s : State) (tag : Nat) : Bool :=
  (List.range s.journalLen).any fun e => (s.reg (Reg.LIMS_JOURNAL e 1)).toNat == tag

/-- Cores of a map of 32 bytes. -/
def mapCores (m : List Byte) : List Nat := (List.range 256).filter fun n => (m.getD (n / 8) 0).toNat.testBit (n % 8)

/-- A valid enabled-core map (R35). -/
def State.gradeOk (s : State) (m : List Byte) : Bool :=
  let on := mapCores m
  [224, 240, 256].contains on.length &&
    (List.range 16).all (fun r => decide (12 ≤ ((coresOf r).filter on.contains).length)) && s.toll.defects.all fun d => !on.contains d.core

/-- The signer is permitted (row 3 of R540): `enrol` for the first enrolment of an owner from its image. -/
def State.signerOk (s : State) (k signer : Nat) (enrol : Bool) : Bool :=
  if k = 5 then signer == 0
  else if k = 2 then signer == 0 || (signer == 1 && s.hasOwner)
  else if k = 6 then (signer == 1 && s.hasOwner) || enrol
  else if s.hasOwner then signer == 1 else signer == 0

/-- Value of an order as a number (settings 1 to 4). -/
def orderValue (o : List Byte) : Nat := if fieldOf o 5 1 = 1 then fieldOf o 32 4 else fieldOf o 32 1

/-- Rows 9 and 10 of R540. -/
def State.valueCode (s : State) (o : List Byte) : Nat :=
  let k := fieldOf o 5 1
  let v := orderValue o
  if k = 2 ∧ 15 < v ∨ k = 3 ∧ v ≠ s.get Reg.LIMS_DEBUG Fld.LIMS_DEBUG.state + 1 ∨ k = 4 ∧ 1 < v ∨
     k = 6 ∧ allZero ((o.drop 64).take 64) then 0x7D05
  else if k = 5 ∧ !s.gradeOk ((o.drop 32).take 32) then 0x7D04
  else 0

/-- What an order comes to: refused with a code, in effect already, or to be committed. -/
inductive Verdict where
  | refused (code : Nat)
  | known
  | commit
  deriving DecidableEq, Repr

/-- The checks of R540, row by row. `img` is the security version of the image that carries the order, and `keys` the owner keys. -/
def State.judge (s : State) (o : List Byte) (img : Option Nat) (keys : List Byte) : Verdict :=
  let f := fieldOf o
  let k := f 5 1
  let serial := f 8 8
  let enrol := img.isSome && s.enrols (sha3 keys) o
  let v := orderValue o
  let fromImage : Bool := match img with
    | some sec => k == 1 && decide (sec < v)
    | none => false
  if f 0 4 ≠ 0x4F445641 ∨ f 4 1 ≠ 1 ∨ k = 0 ∨ 6 < k ∨ f 7 1 ≠ 0 ∨ f 26 6 ≠ 0 ∨ o.length ≠ 3504 ∨ f 3501 3 ≠ 0 then .refused 0x7D05
  else if serial ≠ (s.reg Reg.DEV_SERIAL).toNat ∧ ¬ (serial = 0 ∧ k = 1) then .refused 0x7D05
  else if !s.signerOk k (f 6 1) enrol then .refused 0x7D06
  else if !bothVerify (if f 6 1 = 1 then some keys else none) (ascii "AVD-ORDER" ++ o.take 128) ((o.drop 128).take 3373) then
    .refused 0x7D01
  else if s.tagKnown (orderTag o) then .known
  else if serial ≠ 0 ∧ f 24 2 ≠ s.usedUnits k then .refused 0x7D05
  else if fromImage then .refused 0x7D05
  else if k = 1 ∧ v ≤ s.get Reg.LIMS_SEC_FLOOR Fld.LIMS_SEC_FLOOR.floor then .known
  else if s.valueCode o ≠ 0 then .refused (s.valueCode o)
  else if (k ≠ 6 ∧ budgetOf k ≤ s.usedUnits k) ∨ 1024 ≤ s.journalLen then .refused 0x7D02
  else .commit

/-- Reaches above a new ceiling are retuned down to it (R65). -/
def State.lowerCeil (s : State) : State :=
  (List.range 16).foldl (fun (t : State) r =>
    let a := Reg.PACE_OPSEL r
    let p := t.get a Fld.PACE_OPSEL.target_op
    if t.ceil < p then t.setTarget r t.ceil else if t.ceil < t.get a Fld.PACE_OPSEL.current_op then t.setTarget r p else t) s

/-- Write the new value of a setting (R538). -/
def State.writeSetting (s : State) (o : List Byte) : State :=
  let k := fieldOf o 5 1
  let v := orderValue o
  if k = 1 then s.put Reg.LIMS_SEC_FLOOR Fld.LIMS_SEC_FLOOR.floor v
  else if k = 2 then (s.put Reg.LIMS_OP_CEIL Fld.LIMS_OP_CEIL.ceil v).lowerCeil
  else if k = 3 then s.put Reg.LIMS_DEBUG Fld.LIMS_DEBUG.state v
  else if k = 4 then s.put Reg.LIMS_ROLE Fld.LIMS_ROLE.wharf_capable v
  else if k = 5 then (List.range 4).foldl (fun (t : State) w => t.setReg (Reg.LIMS_GRADE w) (wordOf (o.drop 32) w)) s
  else (List.range 8).foldl (fun (t : State) j => t.setReg (Reg.LIMS_OWNER j) (wordOf (o.drop 64) j)) s

/-- Value of a setting in the journal (R543). -/
def journalValue (o : List Byte) : Nat :=
  let k := fieldOf o 5 1
  if k = 5 then (mapCores ((o.drop 32).take 32)).length else if k = 6 then fieldOf o 64 4 else orderValue o

/-- Chain value of journal entry `e` (R543). -/
def State.chainOf (s : State) (e : Nat) : List Byte :=
  natLe 8 (s.reg (Reg.LIMS_JOURNAL e 2)).toNat ++ natLe 8 (s.reg (Reg.LIMS_JOURNAL e 3)).toNat

/-- Chain value of the newest entry, zeros where the journal is empty. -/
def State.chain (s : State) : List Byte := if s.journalLen = 0 then List.replicate 16 0 else s.chainOf (s.journalLen - 1)

/-- Commit an order: value, used count and journal entry as one action (R541, R543). -/
def State.commitOrder (s : State) (o : List Byte) (origin : Nat) : State :=
  let k := fieldOf o 5 1
  let e := s.journalLen
  let w0 := natLe 4 (journalValue o) ++ natLe 1 (fieldOf o 6 1 + 2 * origin) ++ natLe 1 k ++ natLe 2 e
  let w1 := natLe 8 (orderTag o)
  let c := (sha3 (s.chain ++ w0 ++ w1)).take 16
  let s := s.writeSetting o
  let s := if k = 6 then s else s.put Reg.LIMS_BUDGETS (usedField k) (s.usedUnits k + 1)
  let s := s.put Reg.LIMS_BUDGETS Fld.LIMS_BUDGETS.journal (e + 1)
  let j := fun (t : State) (w : Nat) (b : List Byte) => t.setReg (Reg.LIMS_JOURNAL e w) (BitVec.ofNat 64 (leNat b))
  j (j (j (j s 0 w0) 1 w1) 2 (c.take 8)) 3 (c.drop 8)

/-- Act on an order: what R542 answers, status and payload. A refusal is logged with the order tag. -/
def State.orderIn (s : State) (o : List Byte) (img : Option Nat) (keys : List Byte) : State × Nat × List Byte :=
  let k := fieldOf o 5 1
  let answer := fun (t : State) (e : Nat) =>
    natLe 2 e ++ natLe 1 k ++ natLe 1 (t.usedUnits k) ++ natLe 4 (if k = 6 then fieldOf o 64 4 else fieldOf o 32 4) ++
      natLe 8 (orderTag o)
  match s.judge o img keys with
  | .refused code => (s.logErr { code := code, info := orderTag o }, code, answer s 0xFFFF)
  | .known => (s, 0, answer s 0xFFFF)
  | .commit =>
    let t := s.commitOrder o (if img.isSome then 0 else 1)
    (t, 0, answer t s.journalLen)

/-! ### What a slot comes to (R534) -/

/-- The orders that an image carries, applied in turn (R539). The first enrolment of an owner is judged by the keys of the image's own key
section, whoever signs the image (R540); every other owner's order by the keys that the tollhouse keeps (R535). -/
def State.applyOrders (s : State) (img : List Byte) : State :=
  let keys := imgPart img 1
  let kept := if fieldOf img 17 1 = 1 then keys else []
  (imgOrders img).foldl (fun (t : State) o =>
    (t.orderIn o (some (fieldOf img 28 4)) (if t.enrols (sha3 keys) o then keys else kept)).1) s

/-- An image enrols its owner: among its orders is one that R540 commits, so that LIMS_OWNER would hold the digest of its keys. -/
def State.enrolledBy (s : State) (img : List Byte) : Bool :=
  let t := s.applyOrders img
  t.hasOwner && t.ownerDigest == sha3 (imgPart img 1)

/-- The code with which a slot is refused, 0 where it is accepted (R534). -/
def State.imageCode (s : State) (img : List Byte) : Nat :=
  let f := fieldOf img
  if !imageOk img then 0x7D01
  else
    let keys := imgPart img 1
    let digest := sha3 keys
    let owner := f 17 1 == 1
    let signer : Bool := if s.hasOwner then owner && digest == s.ownerDigest
      else !owner || s.enrolledBy img
    let msg := ascii "AVD-IMAGE" ++ measurement img
    if !signer then 0x7D06
    else if !bothVerify (if owner then some keys else none) msg (img.drop (f 36 4)) then 0x7D01
    else if f 28 4 < s.get Reg.LIMS_SEC_FLOOR Fld.LIMS_SEC_FLOOR.floor then 0x7D03
    else 0

/-! ### Attestation (R536, R537) -/

/-- The body of a report, from a chip's registers and its newest chain value. -/
def reportBody (rd : Nat → Word) (chain nonce : List Byte) : List Byte :=
  let w := fun (a : Nat) => natLe 8 (rd a).toNat
  let f := fun (a : Nat) (b : BitField) => b.get (rd a)
  natLe 4 0x41445641 ++ natLe 2 1 ++ natLe 2 0 ++ w Reg.DEV_SERIAL ++ w Reg.DEV_STEPPING ++ (nonce ++ List.replicate 32 0).take 32 ++
    ((List.range 8).flatMap fun j => w (Reg.TOLL_MEAS j)) ++
    natLe 8 (f Reg.TOLL_IMAGE Fld.TOLL_IMAGE.image_version) ++ natLe 4 (f Reg.TOLL_IMAGE Fld.TOLL_IMAGE.sec_version) ++
    natLe 4 (f Reg.LIMS_SEC_FLOOR Fld.LIMS_SEC_FLOOR.floor) ++ natLe 1 (f Reg.LIMS_DEBUG Fld.LIMS_DEBUG.state) ++
    natLe 1 (f Reg.LIMS_ROLE Fld.LIMS_ROLE.wharf_capable) ++ natLe 1 (f Reg.LIMS_OP_CEIL Fld.LIMS_OP_CEIL.ceil) ++
    natLe 1 (f Reg.TOLL_BOOT Fld.TOLL_BOOT.slot) ++ natLe 2 (f Reg.LIMS_BUDGETS Fld.LIMS_BUDGETS.journal) ++ natLe 2 0 ++ chain ++
    ((List.range 4).flatMap fun j => w (Reg.LIMS_GRADE j)) ++ ((List.range 8).flatMap fun j => w (Reg.LIMS_OWNER j)) ++
    w Reg.DEV_FWVER ++ natLe 8 0

/-- Registers that a report shows, the chain apart. -/
def reportRegs : List Nat :=
  [Reg.DEV_SERIAL, Reg.DEV_STEPPING, Reg.TOLL_IMAGE, Reg.LIMS_SEC_FLOOR, Reg.LIMS_DEBUG, Reg.LIMS_ROLE, Reg.LIMS_OP_CEIL,
   Reg.TOLL_BOOT, Reg.LIMS_BUDGETS, Reg.DEV_FWVER] ++ (List.range 8).map Reg.TOLL_MEAS ++ (List.range 4).map Reg.LIMS_GRADE ++
  (List.range 8).map Reg.LIMS_OWNER

/-- A report with both signatures under the identity keys. -/
def State.report (s : State) (nonce : List Byte) : List Byte :=
  let b := reportBody s.reg s.chain nonce
  let msg := ascii "AVD-ATTEST" ++ b
  b ++ (List.range 64).map (Config.signByte 0 msg) ++ (List.range 3309).map (Config.signByte 1 msg)

/-- What identity is answered with: serial, public keys, endorsement (R536). -/
def State.identity (s : State) : List Byte := natLe 8 (s.reg Reg.DEV_SERIAL).toNat ++ (List.range 5357).map Config.identity

end Sys2Proof.Machine
end

