-- ==== Sys2Proof/Machine/Boot.lean ====
section
/-! DEFINITION. Boot (R528 to R535), power, clocks and temperature (R569 to R589), DEV and TOLL resets, idle entry (R521 to R524), and
the JTAG port (R586). -/

namespace Sys2Proof.Machine

/-! ### The boot sequence (R528 to R530) -/

/-- Set the phase; from phase 5 on DEV_STATE shows it too (R544). -/
def State.setPhase (s : State) (p : Nat) : State :=
  let s := s.put Reg.TOLL_BOOT Fld.TOLL_BOOT.phase p
  if 5 ≤ p ∧ p ≤ 7 then s.put Reg.DEV_STATE Fld.DEV_STATE.phase p else s

/-- Nothing but the tollhouse goes on: the firmware stops, and no port and no link is up (R530). -/
def State.silence (s : State) : State :=
  let s := ((List.range 48).filter s.portOn).foldl (fun (t : State) p => (t.laneStates p 1).enterState p pDown) s
  let s := (s.portOff 0).portOff 1
  { s with host := { s.host with up := false } }

/-- Boot stops in the phase in which it failed; only the tollhouse answers from then on (R530). -/
def State.bootFail (s : State) (code : Nat) : State :=
  ((s.silence).setPhase 0xE).put Reg.TOLL_BOOT Fld.TOLL_BOOT.fail_code code

/-- The tollhouse readies the boot flash after RESET_N rises: a software reset, the SFDP in 1-1-1 mode, then octal DDR (R584). -/
def State.readyFlash (s : State) : State := ((s.emit (.flash .softReset)).emit (.flash .readSfdp)).emit (.flash .octalDdr)

/-- The ROM starts (R528): POR and TOLL boots are counted. -/
def State.startBoot (s : State) : State :=
  let s := if s.toll.kind = 3 then s else s.addSat Reg.TOLL_BOOT Fld.TOLL_BOOT.boots 1
  let s := { s with toll := { s.toll with bootAt := s.now, slot := 0, image := [], keys := [] } }
  s.setPhase 1

/-- PWR_OK_RISE (R574). -/
def execPwrOkRise (s : State) : Out :=
  if s.toll.pwrOk then .next s
  else
    let s := { s with toll := { s.toll with pwrOk := true } }
    .next (if s.toll.resetN then s.readyFlash.startBoot else s)

/-- A DEV reset: absorbed by a boot in progress, without effect where only the tollhouse is powered (R545). -/
def State.devReset (s : State) (byPin : Bool) : State :=
  if !s.ready then s
  else
    let s := (s.devCleared.noteKind 3).put Reg.DEV_RESET_STAT Fld.DEV_RESET_STAT.by_pin (if byPin then 1 else 0)
    s.startBoot

/-- DEV_RESET (R545). -/
def execDevReset (s : State) : Out := .next (s.devReset false)

/-- A POR or TOLL boot is in progress, or waits for RESET_N: it absorbs a TOLL reset. -/
def State.booting (s : State) : Bool := !s.tollOnly && s.phase != 7 && s.phase != 0xE && s.toll.kind != 3

/-- A TOLL reset, which is also the wake of Becalmed (R522, R545). -/
def State.tollReset (s : State) : State :=
  if s.booting then s
  else
    let s := s.wholeReset false
    if s.toll.resetN then s.startBoot else s

/-- TOLL_RESET (R545). -/
def execTollReset (s : State) : Out := .next s.tollReset

/-- RESET_N_ASSERT (R522, R545): low after phase 4 it acts at its release; in phases 0 to 4, after a failure, and where only the
tollhouse is powered it is a TOLL reset. -/
def execResetNAssert (s : State) : Out :=
  if !s.toll.resetN then .next s
  else
    let s := { s with toll := { s.toll with resetN := false } }
    if 5 ≤ s.phase ∧ s.phase ≤ 7 ∧ !s.tollOnly then .next { s with toll := { s.toll with lowAt := some s.now } }
    else
      let k := s.toll.kind
      let por := s.booting && k == 1
      let t := s.wholeReset false
      .next (if por then ({ t with toll := { t.toll with kind := 1 } }).noteKind 1 else t)

/-- RESET_N_RELEASE (R528, R545, R584). -/
def execResetNRelease (s : State) : Out :=
  if s.toll.resetN then .next s
  else
    let low := s.toll.lowAt
    let s := { s with toll := { s.toll with resetN := true, lowAt := none } }
    match low with
    | some t => .next ((s.advanceTo (t + 1000000)).readyFlash.devReset true)
    | none => .next (if s.toll.pwrOk ∧ s.phase = 0 then s.readyFlash.startBoot else s)

/-! ### Loading the image (R532, phase 5 of R528) -/

/-- Periods and voltages of R63. -/
def opPeriods : List Nat := [2500, 2000, 1667, 1429, 1250, 1111, 1000, 900, 800, 760, 725, 690, 662, 635, 610, 588]
def opMillivolts : List Nat := [500, 530, 560, 580, 600, 620, 640, 670, 700, 720, 740, 760, 780, 800, 820, 850]

/-- Load operating point `k`, replaced by the table's where R64 says so; the delay-line setting, which the table does not give, is
the image's (log entry 13). -/
def State.loadPoint (s : State) (k : Nat) (w : Word) : State :=
  let a := Reg.PACE_OP_TABLE k
  let p := Fld.PACE_OP_TABLE.period_ps.get w
  let v := Fld.PACE_OP_TABLE.vdd_mv.get w
  let tp := opPeriods.getD k 0
  let tv := opMillivolts.getD k 0
  let s := s.setReg a 0
  let s := (s.put a Fld.PACE_OP_TABLE.valid 1).put a Fld.PACE_OP_TABLE.dl_code (Fld.PACE_OP_TABLE.dl_code.get w)
  if p < tp ∨ tv + 20 < v ∨ v + 20 < tv then
    ((s.put a Fld.PACE_OP_TABLE.period_ps tp).put a Fld.PACE_OP_TABLE.vdd_mv tv).logErr { code := 0x3102, aux := k }
  else (s.put a Fld.PACE_OP_TABLE.period_ps p).put a Fld.PACE_OP_TABLE.vdd_mv v

/-- Default limits (R502) and highest ceilings (R572) of the weirs. -/
def weirDefault (k : Nat) : Nat := [3040, 3040, 3040, 3040, 2080, 9600].getD k 0
def weirAbsolute (k : Nat) : Nat := [3360, 3360, 3360, 3360, 2320, 9600].getD k 0

/-- Load the limit and ceiling of a weir (R503, R572): the default where the image gives no limit, the highest ceiling where it
gives no ceiling, and no limit above its ceiling. -/
def State.loadWeir (s : State) (k limit ceiling : Nat) : State :=
  let c := if ceiling = 0 then weirAbsolute k else min ceiling (weirAbsolute k)
  let l := min c (if limit = 0 then weirDefault k else limit)
  let a := Reg.WEIR_LIMIT k
  (s.put a Fld.WEIR_LIMIT.ceiling c).put a Fld.WEIR_LIMIT.limit l

/-- Rail limits, sustained envelope and initial point (R66, R503, R532; layout: log entry 13). -/
def State.loadRails (s : State) (b : List Byte) : State :=
  let f := fieldOf b
  let s := (List.range 6).foldl (fun (t : State) k => t.loadWeir k (f (4 * k) 2) (f (4 * k + 2) 2)) s
  let w := f 24 2
  let s := s.put Reg.IDLE_SUSTAIN Fld.IDLE_SUSTAIN.sustained_w (if w = 0 then 1100 else w)
  let p := min (f 26 1 % 16) s.ceil
  (List.range 16).foldl (fun (t : State) r =>
    let a := Reg.PACE_OPSEL r
    ((t.put a Fld.PACE_OPSEL.current_op p).put a Fld.PACE_OPSEL.target_op p).put a Fld.PACE_OPSEL.busy 0) s

/-- Role and control list (R423, R430, R532; layout: log entry 13). -/
def State.loadRole (s : State) (b : List Byte) : State :=
  let f := fieldOf b
  let wharf := f 0 1 = 1 ∧ s.get Reg.LIMS_ROLE Fld.LIMS_ROLE.wharf_capable = 1
  let s := s.put Reg.STRM_MODE Fld.STRM_MODE.role (if wharf then 1 else 0)
  let list := (List.range (min 16 (f 3 1))).map fun i => (BitVec.ofNat 128 (f (16 + 32 * i) 16), f (32 + 32 * i) 1)
  { s with host := { s.host with control := list } }

/-- Lanes and ports (R413, R532): no port is ACTIVE yet. -/
def State.loadLanes (s : State) (b : List Byte) : State :=
  let s := (List.range 96).foldl (fun (t : State) l =>
    t.plainWrite (Reg.TOWL_LANE_CTRL l) (Fld.TOWL_LANE_CTRL.retrain.set (wordOf b l) 0)) s
  (List.range 48).foldl (fun (t : State) p =>
    t.plainWrite (Reg.TOWL_PORT_MAP p) (Fld.TOWL_PORT_MAP.active.set (wordOf b (96 + p)) 0)) s

/-- The fields of ENET_PORT_CTRL that the image loads (R416). -/
def enetFields : List BitField :=
  [Fld.ENET_PORT_CTRL.enable, Fld.ENET_PORT_CTRL.split, Fld.ENET_PORT_CTRL.mtu, Fld.ENET_PORT_CTRL.pfc_gen,
   Fld.ENET_PORT_CTRL.pfc_honour]

/-- Ethernet ports and interfaces (R416, R419, R532). -/
def State.loadEnet (s : State) (b : List Byte) : State :=
  let s := (List.range 2).foldl (fun (t : State) p =>
    enetFields.foldl (fun (u : State) f => u.put (Reg.ENET_PORT_CTRL p) f (f.get (wordOf b p))) t) s
  (List.range 64).foldl (fun (t : State) j => t.plainWrite (Reg.ENET_IF_W0 (j / 8) + 8 * (j % 8)) (wordOf b (2 + j))) s

/-- The core map and the identification registers (R33, R34). -/
def State.loadMap (s : State) : State :=
  let s := (List.range 4).foldl (fun (t : State) j =>
    let m := t.reg (Reg.LIMS_GRADE j)
    (t.setReg (Reg.DEV_CORE_MAP j) m).setReg (Reg.MESH_FENCE j) (~~~ m)) s
  let n := ((List.range 256).filter s.enabled).length
  let part := if n = 256 then 0x9256 else if n = 240 then 0x9240 else 0x9224
  (s.setReg Reg.DEV_ID 0xA704).put Reg.DEV_ID Fld.DEV_ID.part part

/-- Pacers start, each in die beat 0 (R52). -/
def State.startPacers (s : State) : State :=
  (List.range 16).foldl (fun (t : State) r => t.setReach r { t.reach r with stopped := false }) s.restartBeats

/-- Phase 5, and the start of phase 6 (R528, R532). -/
def State.configure (s : State) : State :=
  let img := s.toll.image
  let s := (s.setPhase 5).loadMap
  let ops := imgPart img 2
  let s := (List.range 16).foldl (fun (t : State) k => t.loadPoint k (wordOf ops k)) s
  let s := (((s.loadRails (imgPart img 3)).loadRole (imgPart img 4)).loadLanes (imgPart img 5)).loadEnet (imgPart img 6)
  let s := s.setReg Reg.DEV_FWVER (wordOf (imgPart img 7) 0)
  let s := s.zeroSram.startPacers
  let s := { s with host := { s.host with up := true } }
  let s := (s.setPhase 6).trainPorts
  { s with toll := { s.toll with trying := (List.range 48).filter s.portOn } }

/-- A slot is accepted: settings of phase 3, then power, or phase 5 at a DEV reset (R528, R530, R534, R535). -/
def State.acceptImage (s : State) (slot : Nat) (img : List Byte) : State :=
  let f := fieldOf img
  let keys := if f 17 1 = 1 then imgPart img 1 else []
  let m := measurement img
  let s := (List.range 8).foldl (fun (t : State) j => t.setReg (Reg.TOLL_MEAS j) (wordOf m j)) s
  let s := (s.put Reg.TOLL_IMAGE Fld.TOLL_IMAGE.sec_version (f 28 4)).put Reg.TOLL_IMAGE Fld.TOLL_IMAGE.image_version (f 24 4)
  let s := s.put Reg.TOLL_BOOT Fld.TOLL_BOOT.slot slot
  let s := { s with toll := { s.toll with image := img, keys := keys, i3cStatic := fieldOf (imgPart img 4) 2 1 % 128 } }
  let s := s.applyOrders img
  if s.toll.kind = 3 then s.configure
  else if s.toll.tripped then ({ s with toll := { s.toll with tripAt := s.now } }).setPhase 3
  else s.setPhase 4

/-- IMAGE_SLOT_CHECK (R534). -/
def execImageSlotCheck (slot : Fin 2) (img : List Byte) (s : State) : Out :=
  if s.phase ≠ 1 ∨ s.tollOnly ∨ slot.val ≠ s.toll.slot then .next s
  else
    let c := s.imageCode img
    if c = 0 then .next (s.acceptImage slot img)
    else
      let s := s.logErr { code := c, aux := slot }
      if slot.val = 0 then
        .next ({ s.put Reg.TOLL_BOOT Fld.TOLL_BOOT.slot0_fail 1 with toll := { s.toll with slot := 1 } })
      else .next (s.bootFail c)

/-! ### Rails (R574 to R578) -/

def State.railEn (s : State) (g : Nat) : Bool := s.toll.en.getD g false
def State.railPg (s : State) (g : Nat) : Bool := s.toll.pg.getD g false
def State.setEn (s : State) (g : Nat) (b : Bool) : State :=
  { s with toll := { s.toll with en := s.toll.en.set g b, enAt := s.toll.enAt.set g s.now } }
def State.setPg (s : State) (g : Nat) (b : Bool) : State :=
  { s with toll := { s.toll with pg := s.toll.pg.set g b, pgAt := s.toll.pgAt.set g s.now } }

/-- Boot stops for power, and the enables fall in the order of R576 (R575). -/
def State.powerFail (s : State) (aux : Nat) : State :=
  let s := (s.logErr { code := 0xFD01, aux := aux }).bootFail 0xFD01
  { s with toll := { s.toll with downing := true } }

/-- Phase 4 ends when RAIL_PG[3] is high with its enable and both reference clocks are present (R574, R575). -/
def State.powered (s : State) : State :=
  if s.phase ≠ 4 ∨ !s.railEn 3 ∨ !s.railPg 3 then s
  else if s.toll.trefLost ∨ s.toll.erefLost then s.powerFail 3
  else s.configure

/-- RAIL_ENABLE (R574): 2 ms after the power-good of the previous group. -/
def execRailEnable (g : Fin 4) (s : State) : Out :=
  let k := g.val
  if s.phase ≠ 4 ∨ s.toll.downing ∨ s.railEn k ∨ (k ≠ 0 ∧ !(s.railEn (k - 1) && s.railPg (k - 1))) then .next s
  else
    let good := max (s.toll.pgAt.getD (k - 1) 0) (s.toll.enAt.getD (k - 1) 0)
    .next (((if k = 0 then s else s.advanceTo (good + 2000000000)).setEn k true).powered)

/-- RAIL_PG_RISE (R574). -/
def execRailPgRise (g : Fin 4) (s : State) : Out := .next (if s.railPg g then s else (s.setPg g true).powered)

/-- RAIL_PG_TIMEOUT (R575): 20 ms after the enable. -/
def execRailPgTimeout (g : Fin 4) (s : State) : Out :=
  let k := g.val
  if s.phase ≠ 4 ∨ !s.railEn k ∨ s.railPg k then .next s
  else .next ((s.advanceTo (s.toll.enAt.getD k 0 + 20000000000)).powerFail k)

/-- Only the tollhouse stays powered, until a TOLL reset or a POR (R578, R588). -/
def State.goDead (s : State) : State :=
  let s := s.unpower
  { s with toll := { s.toll with dead := true } }

/-- RAIL_PG_FALL (R578): after phase 4, which the phases of a DEV reset and a stop of boot after it are too, with the enable high. -/
def execRailPgFall (g : Fin 4) (s : State) : Out :=
  let k := g.val
  if !s.railPg k then .next s
  else
    let s := s.setPg k false
    if s.railEn k ∧ s.phase ≠ 4 ∧ !s.toll.downing ∧ !s.tollOnly then .next ((s.logErr { code := 0xF000, aux := k }).goDead)
    else .next s

/-- RAIL_DISABLE (R576): the previous group is down, or 10 ms have passed since its enable fell. -/
def execRailDisable (g : Fin 4) (s : State) : Out :=
  let k := g.val
  if !s.toll.downing ∨ !s.railEn k ∨ (List.range 4).any (fun j => decide (k < j) && s.railEn j) then .next s
  else
    let s := if k = 3 ∨ !s.railPg (k + 1) then s else s.advanceTo (s.toll.enAt.getD (k + 1) 0 + 10000000000)
    let s := s.setEn k false
    .next { s with toll := { s.toll with downing := s.toll.en.any id } }

/-- PWR_OK_FALL (R577): every enable falls, and a POR follows. -/
def execPwrOkFall (s : State) : Out :=
  if s.toll.pwrOk then .next (s.wholeReset true) else .next s

/-! ### Training and Ready (R528 to R530) -/

/-- HOLD_TRAINING_DONE (R528, R530): a trained stack is initialised to 0. -/
def execHoldTrainingDone (h : Fin 2) (ok : Bool) (s : State) : Out :=
  let a := Reg.HOLD_CTRL h
  if s.phase ≠ 6 ∨ s.get a Fld.HOLD_CTRL.trained = 1 then .next s
  else if ok then
    let inHold := fun (x : Nat) => decide (0x1000000000 * (h.val + 1) ≤ x) && decide (x < 0x1000000000 * (h.val + 2))
    .next { s.put a Fld.HOLD_CTRL.trained 1 with
      mem := s.mem.filter fun c => !inHold c.1
      ecc := s.ecc.filter fun c => !inHold c.1 }
  else .next ((s.logErr { code := 0xFD01, aux := h }).bootFail 0xFD01)

/-- The manager flag of the image (R426, R532). -/
def State.mgrFlag (s : State) : Bool := fieldOf (imgPart s.toll.image 4) 1 1 == 1

/-- BOOT_READY (R426, R529). The fabric manager starts discovery. -/
def execBootReady (s : State) : Out :=
  let trained := (List.range 2).all fun h => s.get (Reg.HOLD_CTRL h) Fld.HOLD_CTRL.trained == 1
  if s.phase ≠ 6 ∨ !trained ∨ !s.toll.trying.isEmpty ∨ !s.host.up then .next s
  else
    let s := s.setPhase 7
    let s := s.put Reg.TOLL_BOOT Fld.TOLL_BOOT.boot_ms (min (2 ^ 20 - 1) ((s.now - s.toll.bootAt) / 1000000000))
    .next (if s.isWharf ∧ s.mgrFlag then s.startDiscovery else s)

/-! ### Temperature (R266, R587 to R589) -/

/-- The die powered: from phase 5 on. -/
def State.dieOn (s : State) : Bool := decide (5 ≤ s.phase) && decide (s.phase ≤ 7) && !s.tollOnly

/-- The dies are powered: from phase 5 on, and wherever a boot leaves the rails as they are, as a DEV reset does (R530, R589). -/
def State.diesHot (s : State) : Bool := s.dieOn || (s.toll.en.all id && s.phase != 4 && !s.toll.downing && !s.tollOnly)

/-- A trip (R588): every enable falls within 1 ms, in the order of R576. -/
def State.trip (s : State) (src : Nat) : State :=
  let a := Reg.TOLL_THERM
  let s := s.logErr { code := 0xF000, aux := src }
  let s := ((s.put a Fld.TOLL_THERM.trip 1).put a Fld.TOLL_THERM.trip_src src).goDead
  let s := [3, 2, 1, 0].foldl (fun (t : State) g => if t.railEn g then t.setEn g false else t) s
  { s with toll := { s.toll with downing := false, tripped := true } }

/-- A stack's temperature where it is powered (R266, R589). -/
def State.holdSample (s : State) (h t : Nat) : State :=
  (s.holdTemp h t).put Reg.TOLL_THERM (if h = 0 then Fld.TOLL_THERM.hold0_c else Fld.TOLL_THERM.hold1_c) t

/-- HOLD_TEMP_UPDATE (R266, R587 to R589): an unpowered stack has none. -/
def execHoldTempUpdate (h : Fin 2) (tempC : Byte) (s : State) : Out :=
  if !s.diesHot then .next s
  else
    let t := s.holdSample h tempC.toNat
    .next (if 105 ≤ tempC.toNat then t.trip (h + 1) else t)

/-- THERMAL_SAMPLE (R587 to R589): a die that is unpowered reads 0. -/
def execThermalSample (die hold0 hold1 toll : Byte) (s : State) : Out :=
  let a := Reg.TOLL_THERM
  let on := s.diesHot
  let v := fun (b : Byte) => if on then b.toNat else 0
  let s := (s.put a Fld.TOLL_THERM.die_max_c (v die)).put a Fld.TOLL_THERM.toll_c toll.toNat
  let s := s.hwPut a Fld.TOLL_THERM.die_peak_c (max (v die) (s.get a Fld.TOLL_THERM.die_peak_c))
  let s := if on then (s.holdSample 0 hold0.toNat).holdSample 1 hold1.toNat
    else (s.put a Fld.TOLL_THERM.hold0_c 0).put a Fld.TOLL_THERM.hold1_c 0
  if 115 ≤ v die then .next (s.trip 0)
  else if 105 ≤ v hold0 then .next (s.trip 1)
  else if 105 ≤ v hold1 then .next (s.trip 2)
  else .next s

/-- POST_TRIP_DELAY (R588): 10 s before phase 4. -/
def execPostTripDelay (s : State) : Out :=
  if s.phase ≠ 3 ∨ s.tollOnly ∨ !s.toll.tripped then .next s
  else
    let s := s.advanceTo (s.toll.tripAt + 10000000000000)
    .next (({ s with toll := { s.toll with tripped := false } }).setPhase 4)

/-! ### Reference clocks (R583) -/

/-- A lane goes down with its clock (R384, R583): its port, training too, with it. -/
def State.clockLost (s : State) (l : Nat) : State :=
  match s.portOfLane l with
  | some p => if s.portState p = pTraining then s.portLost p l else s.laneLost l
  | none => s

/-- TREFCLK_LOSS (R409, R583). -/
def execTrefclkLoss (s : State) : Out :=
  let s := { s with toll := { s.toll with trefLost := true } }
  if !s.dieOn then .next s
  else
    let c := Reg.FABR_TIME_CFG
    let p := s.get c Fld.FABR_TIME_CFG.parent
    let logged := s.get c Fld.FABR_TIME_CFG.master = 0 ∧ p ≠ 0x3F ∧ (s.portActive p ∨ s.portActive (s.get c Fld.FABR_TIME_CFG.backup))
    let up := (List.range 48).filter fun p => s.portOn p && decide (pTraining ≤ s.portState p)
    let s := (up.flatMap s.lanes).foldl State.clockLost s
    .next (if logged then s
      else ({ s.put c Fld.FABR_TIME_CFG.synced 0 with fabric := { s.fabric with goodTime := 0 } }).logErr { code := 0x5908 })

/-- EREFCLK_LOSS (R417, R583). -/
def execErefclkLoss (s : State) : Out :=
  let s := { s with toll := { s.toll with erefLost := true } }
  .next (if s.dieOn then (List.range 8).foldl State.dropLink s else s)

/-! ### Idle entry (R520 to R524) -/

/-- Becalmed: ports go down, and only the tollhouse stays powered (R522). -/
def State.enterBecalmed (s : State) : State :=
  let s := s.unpower
  { s with toll := { s.toll with becalmed := true } }

/-- IDLE_ENTRY (R520 to R524, R564): after delay_ns of quiescence; a pending test runs its units first. -/
def execIdleEntry (s : State) : Out :=
  if !s.ready ∨ s.idle.state ≠ 0 ∨ s.testState ≠ 0 ∨ s.toll.ctxAt.isSome ∨ !s.toll.reaching.isEmpty then .next s
  else
    let s := s.noteQuiet
    match s.idle.quiet with
    | none => .next s
    | some t =>
      let x := s.chosen
      if x = 0 then .next s
      else
        let s := s.advanceTo (t + 1000 * s.get Reg.IDLE_CTRL Fld.IDLE_CTRL.delay_ns)
        .next (if x = 4 then s.enterBecalmed else s.tryIdle x)

/-! ### The alert output (R530, R554, R578, R588) -/

/-- TOLL_ALERT_N is driven low. -/
def State.alertLow (s : State) : Bool :=
  s.phase == 0xE || s.toll.dead ||
    s.get Reg.ERRS_STAT Fld.ERRS_STAT.pending &&& s.get Reg.ERRS_CTRL Fld.ERRS_CTRL.alert_mask != 0

/-! ### JTAG (R538, R579, R586) -/

/-- States of the TAP controller of IEEE 1149.1, numbered 0 Test-Logic-Reset, 1 Run-Test/Idle, 2 Select-DR, 3 Capture-DR, 4 Shift-DR,
5 Exit1-DR, 6 Pause-DR, 7 Exit2-DR, 8 Update-DR, and 9 to 15 the same of IR from Select-IR on. Next states with TMS 0 and 1. -/
def tapNext (st : Nat) (tms : Bool) : Nat :=
  let z := [1, 1, 3, 4, 4, 6, 6, 4, 1, 10, 11, 11, 13, 13, 11, 1]
  let o := [0, 2, 9, 5, 5, 8, 7, 8, 2, 0, 12, 12, 15, 14, 15, 2]
  (if tms then o else z).getD st 0

/-- Instruction bits, which R586 does not number (log entry 24). -/
def irBits : Nat := 8

/-- What the instruction in force selects: 0 BYPASS, 1 IDCODE, else another register. All ones is BYPASS. With debug not open, only
the instructions of IEEE 1149.1 and 1149.6 remain (R538). -/
def State.tapReg (s : State) : Nat :=
  match s.toll.ir with
  | none => 1
  | some c =>
    let k := if c = 2 ^ irBits - 1 then 0 else Config.jtagSelect c
    if 8 ≤ k ∧ s.get Reg.LIMS_DEBUG Fld.LIMS_DEBUG.state ≠ 0 then 0 else k

/-- Reset the TAP. -/
def State.tapReset (s : State) : State :=
  { s with toll := { s.toll with tap := 0, ir := none, irShift := 0, drShift := [] } }

/-- The boundary-scan register is selected: SAMPLE/PRELOAD, EXTEST, EXTEST_PULSE or EXTEST_TRAIN. -/
def onBoundary (k : Nat) : Bool := k == 2 || k == 3 || k == 6 || k == 7

/-- Cells of the boundary-scan register: those of the tollhouse balls, then those of the compute-die balls, which act as one bit of BYPASS
before phase 5 (R586). -/
def State.scanCells (s : State) : Nat := Config.jtagCells 0 + if s.dieOn then Config.jtagCells 1 else 1

/-- What a data register captures: in boundary cells the pins, free values (log entry 24). CLAMP and HIGHZ select BYPASS; a debug register is a
free value at TDO and holds nothing here. -/
def State.tapCapture (s : State) : State :=
  let k := s.tapReg
  if onBoundary k then
    let pins := (List.range s.scanCells).map fun i => Config.freeValue (s.free + i) == 0
    { s with free := s.free + s.scanCells, toll := { s.toll with drShift := pins } }
  else
    let bits := if k = 0 ∨ k = 4 ∨ k = 5 then [false] else if k = 1 then (List.range 32).map Config.jtagId.getLsbD else []
    { s with toll := { s.toll with drShift := bits } }

/-- Update-DR: the boundary cells take what was shifted in, which EXTEST and CLAMP drive (R586). -/
def State.tapUpdate (s : State) : State :=
  if onBoundary s.tapReg then { s with toll := { s.toll with cells := s.toll.drShift } } else s

/-- One bit shifted through the data register: the bit at TDO. -/
def State.tapShift (s : State) (tdi : Bool) : State :=
  match s.toll.drShift with
  | b :: t => { s.emit (.tdo b) with toll := { s.toll with drShift := t ++ [tdi] } }
  | [] => (s.emit (.tdo (Config.freeValue s.free == 0))).drawn

/-- One bit shifted through the instruction register. -/
def State.tapShiftIr (s : State) (tdi : Bool) : State :=
  let v := s.toll.irShift
  { s.emit (.tdo (v % 2 == 1)) with
    toll := { s.toll with irShift := v / 2 + if tdi then 2 ^ (irBits - 1) else 0 } }

/-- JTAG_TCK (R586): a rising edge of TCK. -/
def execJtagTck (tms tdi : Bool) (s : State) : Out :=
  let st := s.toll.tap
  let s := if st = 3 then s.tapCapture else if st = 4 then s.tapShift tdi
    else if st = 10 then { s with toll := { s.toll with irShift := 1 } } else if st = 11 then s.tapShiftIr tdi else s
  let next := tapNext st tms
  let s := { s with toll := { s.toll with tap := next } }
  .next (if next = 0 then s.tapReset
    else if next = 8 then s.tapUpdate
    else if next = 15 then { s with toll := { s.toll with ir := some s.toll.irShift } } else s)

/-- TRST_N_ASSERT (R586). No TCK comes while TRST_N stays low (log entry 24). -/
def execTrstNAssert (s : State) : Out := .next s.tapReset

end Sys2Proof.Machine
end

