-- ==== Sys2Proof/Machine/RegPath.lean ====
section
/-! DEFINITION. The register path (R596 to R600): one access of 8 bytes by I3C, the wharfinger or a REG barge, REG barges
themselves, and the I3C target (R448 to R450). -/

namespace Sys2Proof.Machine

/-! ### Where an access goes (R590, R591, R598) -/

/-- A populated offset of a core window that the path reaches (R591, R596). -/
def pathWindow (o : Nat) : Bool :=
  decide (o < 0x6A1000)

/-- Offset of the core registers in a core window. -/
def inCoreRegs (o : Nat) : Bool := decide (0x6A0000 ≤ o) && decide (o < 0x6A1000)

/-- An address of the FABR table area (R590). -/
def inTables (a : Nat) : Bool := decide (0x400800000 ≤ a) && decide (a < 0x400820000)

/-- The base of the snapshot copies (R590). -/
def snapBase : Nat := 0x800000000000

/-- The TOLL and LIMS blocks answer wherever the tollhouse runs (R450, R598). -/
def tollBlock (a : Nat) : Bool := blockOfReg a == some 1 || blockOfReg a == some 17

/-- The access is of a device address that the path may reach on this chip as it stands (R598). -/
def State.pathOpen (s : State) (a : Nat) (write : Bool) : Bool :=
  a % 8 == 0 &&
  (if tollBlock a then true
   else if !s.dieOn then false
   else if a < 0x400000000 then pathWindow (a % 0x4000000) || !s.enabled (a / 0x4000000)
   else if a < 0x400140000 then true
   else if inTables a then true
   else if 0x1000000000 ≤ a ∧ a < 0x3000000000 then true
   else decide (snapBase ≤ a) && snapped (a - snapBase) && !write)

/-! ### Memory lines (R207, R248, R250, R278, R597) -/

/-- An access of a core's memory: keeper memories are written only at rest (R207). It is made in its turn, in the first beat in which its
bank has no access (R250, R597). -/
def State.coreAccess (s : State) (n a : Nat) (val : Option Word) (k : Asker) : State :=
  let keeper : Bool := memKind a == .kimem || memKind a == .kdmem
  let p : PathOp := { addr := a, val := val, asker := k }
  if val.isSome && keeper && !s.atRest n then (let (t, code) := s.refused3808 n; t.answer k code 0)
  else s.setCore n { s.core n with narrowQ := (s.core n).narrowQ ++ [p] }

/-! ### Control blocks -/

/-- A command bit of a written value. -/
def BitField.on (f : BitField) (v : Word) : Bool := f.get v == 1

/-- A write of DEV_RESET: of the kinds asked for, the one that stands highest (R545). -/
def State.writeDevReset (s : State) (v : Word) : State × Nat :=
  let (s, code) := if Fld.DEV_RESET.fab.on v then s.fabReset else (s, 0)
  if Fld.DEV_RESET.fab.on v ∧ code = 0 then (s, 0)
  else if Fld.DEV_RESET.ctx.on v then (s.ctxReset, code)
  else if Fld.DEV_RESET.reach.on v then
    let (s, c) := s.reachReset (Fld.DEV_RESET.reach_mask.get v)
    (s, if code = 0 then c else code)
  else (s, code)

/-- A write of TOLL_CMD (R544, R545). -/
def State.writeTollCmd (s : State) (v : Word) : State :=
  if Fld.TOLL_CMD.toll_reset.on v then s.tollReset
  else if Fld.TOLL_CMD.dev_reset.on v then s.devReset false
  else s

/-- A write of a PACE register (R65, R73, R80). -/
def State.writePace (s : State) (a : Nat) (v : Word) : State × Nat :=
  if Reg.PACE_OPSEL 0 ≤ a ∧ a ≤ Reg.PACE_OPSEL 15 then
    (s.writeOpsel ((a - Reg.PACE_OPSEL 0) / 8) v, if s.ceil < Fld.PACE_OPSEL.target_op.get v then 0x3101 else 0)
  else if a = Reg.VANE_THRESH then
    (s.writeVaneThresh v, if Fld.VANE_THRESH.warn.get v ≤ Fld.VANE_THRESH.crit.get v then 0x3103 else 0)
  else (s.plainWrite a v, 0)

/-- A write of a WEIR register (R503, R510). -/
def State.writeWeir (s : State) (a : Nat) (v : Word) : State × Nat :=
  if Reg.WEIR_LIMIT 0 ≤ a ∧ a ≤ Reg.WEIR_LIMIT 5 then s.writeWeirLimit ((a - Reg.WEIR_LIMIT 0) / 8) v
  else if a = Reg.WEIR_WINDOW then s.writeWeirWindow v
  else (s.plainWrite a v, 0)

/-- A write of an ENGY register (R512, R515). -/
def State.writeEngy (s : State) (a : Nat) (v : Word) : State × Nat :=
  if a = Reg.ENGY_GROUP_ADD then (s.groupAdd (Fld.ENGY_GROUP_ADD.add_uj.get v), 0)
  else if a = Reg.ENGY_TBASE then s.writeTbase v
  else (s.plainWrite a v, 0)

/-- A write of a LOCK register (R339, R341). -/
def State.writeLock (s : State) (a : Nat) (v : Word) : State × Nat :=
  let o := a - blockBase 5
  if o < 0x1000 ∧ o % 64 < 32 then
    let i := o / 64
    (s.writeSlotMask i (o % 64 / 8) v, if s.get (Reg.LOCK_SLOT_CTRL i) Fld.LOCK_SLOT_CTRL.armed = 1 then 0x3309 else 0)
  else if 0x2000 ≤ o ∧ o < 0x2200 then
    let i := (o - 0x2000) / 8
    let r := Reg.LOCK_SLOT_CTRL i
    let armed := Fld.LOCK_SLOT_CTRL.armed
    let others := armed.set v 0 &&& ~~~ (0x3FFFF#64) ≠ armed.set (s.reg r) 0
    (s.writeSlotCtrl i v,
      if s.get r armed = 1 then (if others then 0x3309 else 0)
      else if armed.on v ∧ !s.armable i v then 0x3304 else 0)
  else (s.plainWrite a v, 0)

/-- A write of a HOLD register (R269). -/
def State.writeHoldReg (s : State) (a : Nat) (v : Word) : State :=
  if a = Reg.HOLD_CTRL 0 then s.writeHoldCtrl 0 v else if a = Reg.HOLD_CTRL 1 then s.writeHoldCtrl 1 v else s.plainWrite a v

/-- A write of a TOWL register (R375, R386, R413). -/
def State.writeTowl (s : State) (a : Nat) (v : Word) : State × Nat :=
  let o := a - blockBase 8
  if o < 0x300 then s.writeLaneCtrl (o / 8) v
  else if 0x800 ≤ o ∧ o < 0x980 then s.writePortMap ((o - 0x800) / 8) v
  else (s.plainWrite a v, 0)

/-- A write of FABR_EVQ: a notice, or the clearing of lost (R401, R414). -/
def State.writeEvq (s : State) (v : Word) : State :=
  let s := s.plainWrite Reg.FABR_EVQ v
  if Fld.FABR_EVQ.valid.on v then s.evqPush (v &&& evqMask) else s

/-- A write of a FABR register (R402, R408, R410, R414). -/
def State.writeFabric (s : State) (a : Nat) (v : Word) : State × Nat :=
  if a = Reg.FABR_EVQ then (s.writeEvq v, 0)
  else
    match (List.range 4).find? fun c => a == Reg.FABR_FERRY_W3 c with
    | some c => s.writeFerry c v
    | none => s.writeFabr a v

/-- A queue pair is ready or a ring is bound (R452). -/
def State.tablesInUse (s : State) : Bool :=
  !s.host.rings.isEmpty || (List.range (s.get Reg.ENET_QP Fld.ENET_QP.count)).any s.qpReady

/-- A write of an ENET register (R416, R419, R452). -/
def State.writeEnet (s : State) (a : Nat) (v : Word) : State × Nat :=
  let o := a - blockBase 10
  if a = Reg.ENET_PORT_CTRL 0 then s.writePortCtrl 0 v
  else if a = Reg.ENET_PORT_CTRL 1 then s.writePortCtrl 1 v
  else if 0x900 ≤ o ∧ o < 0xB00 then s.writeIf ((o - 0x900) / 64) ((o - 0x900) % 64 / 8) v
  else if (a = Reg.ENET_QP ∨ a = Reg.ENET_MR) ∧ s.tablesInUse then s.refuse3A06
  else (s.plainWrite a v, 0)

/-- A write of a STRM register (R452). -/
def State.writeStrm (s : State) (a : Nat) (v : Word) : State × Nat :=
  if a = Reg.STRM_RING ∧ s.tablesInUse then s.refuse3A06 else (s.plainWrite a v, 0)

/-- A job of the wharfinger begins. -/
def State.addJob (s : State) (kind : JobKind) (sess seq handle : Nat) (req : List Byte) (chips : List Nat) (todo : List Access)
    (keep : List Nat := []) : State :=
  let h := s.host
  { s with host := { h with
      jobSeq := h.jobSeq + 1
      jobs := h.jobs ++ [{ id := h.jobSeq, sess := sess, seq := seq, handle := handle, kind := kind, req := req, chips := chips,
                           todo := todo, keep := keep }] } }

/-- The message whose swap is armed, or is being armed; an arming that has failed is none. -/
def State.armMsg (s : State) : Option (Nat × Nat) :=
  match s.engine.armed with
  | some p => some p
  | none => (s.host.jobs.find? fun (j : Job) => j.kind == JobKind.arm && j.phase != 3).map fun j => (j.sess, j.seq)

/-- An arming is under way, or its chips are being disarmed. -/
def State.armBusy (s : State) : Bool := s.engine.armed.isSome || s.host.jobs.any fun (j : Job) => j.kind == JobKind.arm

/-- A swap is aborted: the wharf disarms every chip, logs 0x6C01 and answers the pending arm, as long as no composition has used next;
`also` is the message that asked for it, to be answered too (R499). Answers whether a swap was aborted. -/
def State.startAbort (s : State) (also : List Nat) : State × Bool :=
  match s.armMsg with
  | none => (s, false)
  | some (sess, seq) =>
    if s.engine.switchAt.isSome then (s, false)
    else
      let s := s.modEngine fun e => { e with armed := none }
      let s := { s with host := { s.host with jobs := s.host.jobs.filter fun (j : Job) => j.kind != JobKind.arm } }
      let s := s.logErr { code := 0x6C01 }
      let v := BitVec.ofNat 64 (s.get Reg.WSWP_ARM Fld.WSWP_ARM.next)
      (s.addJob .disarm sess seq 0 [] s.members (toChips s.members Reg.WSWP_ARM v) also, true)

/-- A write of WSWP_ARM: one of armed = 0 on the wharf aborts the swap for the group (R492, R499). -/
def State.writeSwapArm (s : State) (v : Word) : State × Nat :=
  let (t, code) := s.writeArm v
  (if Fld.WSWP_ARM.armed.on v then t else (t.startAbort []).1, code)

/-- A write of a WSWP register (R487 to R492, R499, R501). -/
def State.writeWswp (s : State) (a : Nat) (v : Word) : State × Nat :=
  if a = Reg.WSWP_ARM then s.writeSwapArm v
  else if a = Reg.WSWP_CTRL then s.writeWswpCtrl v
  else if a = Reg.WSWP_EPOCH ∨ a = Reg.WSWP_MODE ∨ a = Reg.WSWP_STAGE 0 ∨ a = Reg.WSWP_STAGE 1 then s.writeWeightReg a v
  else (s.plainWrite a v, 0)

/-- A write of a SNAP register (R561). -/
def State.writeSnapReg (s : State) (a : Nat) (v : Word) : State × Nat :=
  if a = Reg.SNAP_ARM then s.writeSnapArm v
  else if a = Reg.SNAP_TRIG_SEL ∨ a = Reg.SNAP_MATCH ∨ a = Reg.SNAP_MATCH_BEAT ∨ a = Reg.SNAP_TIME ∨ a = Reg.SNAP_LOCK then
    s.writeSnap a v
  else (s.plainWrite a v, 0)

/-- A write of an IDLE register (R516, R523, R527). -/
def State.writeIdle (s : State) (a : Nat) (v : Word) : State × Nat :=
  if a = Reg.IDLE_BUDGET_NS then (s.writeBudget v, 0)
  else if a = Reg.IDLE_STATE then (if Fld.IDLE_STATE.wake.on v then s.wakeOn 4 else s, 0)
  else if a = Reg.IDLE_CTRL then s.writeIdleCtrl v
  else if a = Reg.IDLE_OPSET then (s.writeOpset v, if s.opsetRefused v then 0x3101 else 0)
  else (s.plainWrite a v, 0)

/-- A write of a register of a control block, from a chip (R593, R594). -/
def State.writeBlock (s : State) (chip a : Nat) (v : Word) : State × Nat :=
  match blockOfReg a with
  | some 0 => if a = Reg.DEV_RESET then s.writeDevReset v else (s.plainWrite a v, 0)
  | some 1 => if a = Reg.TOLL_CMD then (s.writeTollCmd v, 0) else (s.plainWrite a v, 0)
  | some 2 => s.writePace a v
  | some 3 => s.writeWeir a v
  | some 4 => s.writeEngy a v
  | some 5 => s.writeLock a v
  | some 6 => if a = Reg.MESH_MODE then s.writeMeshMode v else (s.plainWrite a v, 0)
  | some 7 => (s.writeHoldReg a v, 0)
  | some 8 => s.writeTowl a v
  | some 9 => s.writeFabric a v
  | some 10 => s.writeEnet a v
  | some 11 => s.writeLedg a v
  | some 12 => s.writeStrm a v
  | some 13 => s.writeWswp a v
  | some 14 => s.writeSnapReg a v
  | some 15 =>
    match (List.range 4).find? fun w => a == Reg.ERRS_FWD w with
    | some w => (s.writeErrsFwd chip w v, 0)
    | none => (s.plainWrite a v, 0)
  | some 16 => s.writeDtrm (a - Reg.DTRM_CTRL) v
  | some 18 => if a = Reg.TEST_REQ then s.writeTestReq v else (s.plainWrite a v, 0)
  | some 19 => s.writeIdle a v
  | _ => (s.plainWrite a v, 0)

/-! ### One access (R597, R598) -/

/-- An access of a core's window, or of a hold, is to enter the mesh and wakes the die (R523). -/
def State.wakeFor (s : State) (a : Nat) : State :=
  if a < 0x400000000 then s.wakeOn 2
  else match memKind a with
    | .hold _ => s.wakeForHold
    | _ => s

/-- An access of a fenced core's window at an address (R38, R551). -/
def State.fencedAccess (s : State) (n a : Nat) : State := s.logErr { code := 0x3403, core := some n, info := a }

/-- What a snapshot copy reads (R558). -/
def State.snapRead (s : State) (r : Nat) : Word :=
  if s.get Reg.SNAP_STAT Fld.SNAP_STAT.valid = 0 ∨ (r < 0x400000000 ∧ !s.enabled (r / 0x4000000)) then 0
  else match regRow r with
    | some row => (smFind s.diag.snap r).getD (regReset r) &&& ~~~ row.wo
    | none => 0

/-- A read of this chip by the register path, for an asker, who gets status and data. -/
def State.localRead (s : State) (a : Nat) (k : Asker) : State :=
  if !s.pathOpen a false then s.answer k 0x3A05 0
  else
    let s := s.wakeFor a
    if a < 0x400000000 then
      let n := a / 0x4000000
      let o := a % 0x4000000
      if !s.enabled n then (s.fencedAccess n a).answer k 0 0
      else if inCoreRegs o then s.answer k 0 (s.readCoreReg n (o - 0x6A0000))
      else s.coreAccess n a none k
    else if a < 0x400140000 then
      if a = Reg.FABR_EVQ then (let (t, w) := s.readEvq; t.answer k 0 w)
      else if a = Reg.FABR_STEP_STAT then s.answer k 0 s.stepStat
      else if a = Reg.IDLE_STATE then s.answer k 0 (Fld.IDLE_STATE.chosen.set (s.pathReg a) s.chosen)
      else s.answer k 0 (s.pathReg a)
    else if inTables a then s.answer k 0 (s.readTable (a - 0x400800000))
    else if a < snapBase then s.holdPath a none k
    else s.answer k 0 (s.snapRead (a - snapBase))

/-- A write of this chip by the register path from a chip, for an asker, who gets the status. -/
def State.localWrite (s : State) (chip a : Nat) (v : Word) (k : Asker) : State :=
  if !s.pathOpen a true then s.answer k 0x3A05 0
  else
    let s := s.wakeFor a
    let done := fun (r : State × Nat) => r.1.answer k r.2 0
    if a < 0x400000000 then
      let n := a / 0x4000000
      let o := a % 0x4000000
      if !s.enabled n then (s.fencedAccess n a).answer k 0 0
      else if inCoreRegs o then done (s.writeCoreReg n (o - 0x6A0000) v)
      else s.coreAccess n a (some v) k
    else if a < 0x400140000 then done (s.writeBlock chip a v)
    else if inTables a then done (s.writeTable (a - 0x400800000) v)
    else s.holdPath a (some v) k

/-! ### REG barges (R599; log entry 6) -/

/-- Number of an asker in a REG barge: 2n + 1 for access n of the I3C target, 2n + 2 for the job n. -/
def i3cNum (n : Nat) : Nat := 2 * n + 1
def jobNum (id : Nat) : Nat := 2 * id + 2

/-- Send an access to another chip for an asker. -/
def State.askReg (s : State) (chip addr : Nat) (v : Word) (op asker : Nat) : State :=
  let pay := (regPayload addr v op s.chipAddr 0).toNat + asker % 2 ^ 32 * 2 ^ 176
  s.sendOut chip (mkBarge (hdr3 tyREG chip (regDest addr) 0 s.stepParity) (BitVec.ofNat 512 pay))

/-- Registers that any chip may write (R599). -/
def openToAll (a : Nat) : Bool :=
  a == Reg.FABR_EVQ || a == Reg.ENGY_GROUP_ADD || (List.range 4).any fun w => a == Reg.ERRS_FWD w

/-- A write from a chip is accepted (R599). -/
def State.mayWrite (s : State) (chip a : Nat) : Bool :=
  (chip != 0 && (chip == s.get Reg.FABR_ADDR Fld.FABR_ADDR.mgr ||
    chip == s.get Reg.FABR_STEP_CFG Fld.FABR_STEP_CFG.lchip)) || openToAll a

/-- Where the words of a change order for another chip's tollhouse go (log entry 6). -/
def orderBase : Nat := blockBase 1 + 0x8000

/-- A word of a change order from a chip: the order is acted on with its last word (R539, R542). Answers the status and the first half of the
result. -/
def State.orderWord (s : State) (chip i : Nat) (v : Word) : State × Nat × Word :=
  let l := (smGet [] s.toll.orders chip).take i ++ [v]
  if l.length < 438 then ({ s with toll := { s.toll with orders := smPut s.toll.orders chip l } }, 0, 0)
  else
    let s := { s with toll := { s.toll with orders := smDel s.toll.orders chip } }
    let (t, st, pay) := s.orderIn (l.flatMap fun (w : Word) => natLe 8 w.toNat) none s.toll.keys
    (t, st, wordOf pay 0)

/-- The host source of capture fires on this chip (R557, R562). -/
def State.fireHost (s : State) : State := s.lateTrigger 4

/-- The answer to the access that a job waits for is kept until the job goes on. -/
def Job.answered (j : Job) (b : Barge) : Job :=
  match j.todo with
  | x :: _ =>
    if j.asked.isSome ∧ x.chip = regSrc b ∧ x.addr = regAddr b then
      { j with asked := none, ans := some (regStatus b, regValue b) }
    else j
  | [] => j

/-- A reply has come back: for the I3C target, or for a job. -/
def State.regReply (s : State) (b : Barge) : State :=
  let k := regAsker b
  if k % 2 = 1 then s.answer (.i3c (k / 2)) (regStatus b) (regValue b)
  else
    let upd := fun (j : Job) => if jobNum j.id = k then j.answered b else j
    { s with host := { s.host with jobs := s.host.jobs.map upd } }

/-- A REG barge fires the chip's capture (log entry 6). -/
def State.fireIn (s : State) (b : Barge) : State :=
  if s.dieOn then s.fireHost.answerReg b 0 0 else s.answerReg b 0x3A05 0

/-- A REG barge brings a word of a change order (log entry 6). -/
def State.orderPart (s : State) (chip : Nat) (b : Barge) : State :=
  if s.mayWrite chip (regAddr b) then
    let r := s.orderWord chip ((regAddr b - orderBase) / 8) (regValue b)
    r.1.answerReg b r.2.1 r.2.2
  else s.answerReg b 0x3A05 0

/-- A REG barge takes effect; after a failure of boot nothing answers it (R530). -/
def State.regIn (s : State) (b : Barge) : State :=
  let chip := regSrc b
  if s.phase = 0xE then s
  else if regOp b = 0 then s.localRead (regAddr b) (.chip b)
  else if regOp b = 1 then
    if s.mayWrite chip (regAddr b) then s.localWrite chip (regAddr b) (regValue b) (.chip b)
    else s.answerReg b 0x3A05 0
  else if regOp b = 2 then s.regReply b
  else if regOp b = 3 then s.fireIn b
  else if regOp b = 4 then s.orderPart chip b
  else s

/-- The die beat of the reach that leads. -/
def State.leadBeat (s : State) : Nat := (List.range 16).foldl (fun m r => max m (s.reach r).beat) 0

/-- The die beat as an access sees it: for a core's window that of its reach, otherwise that of the reach that leads (log entry 4). -/
def State.regBeat (s : State) (a : Nat) : Nat := if a < 0x400000000 then s.beatOf (a / 0x4000000) else s.leadBeat

/-- Register accesses take effect at once: the die is held or unpowered, or its pacers do not run (R597). -/
def State.pathNow (s : State) : Bool := !s.dieOn || s.held || (List.range 16).all fun r => (s.reach r).stopped

/-- The address of an access. -/
def RegAsk.addr : RegAsk → Nat
  | .access p => p.addr
  | .barge b => regAddr b

/-- The chip whose write forwards a part of an error record (R600). -/
def RegAsk.forwards : RegAsk → Option Nat
  | .access _ => none
  | .barge b => if regOp b == 1 && (List.range 4).any fun w => regAddr b == Reg.ERRS_FWD w then some (regSrc b) else none

/-- An access comes before one that waits already: in one beat the I3C target's first, then the wharfinger's, then REG barges, forwards of
errors among them in ascending chip address (R451, R600). -/
def RegWait.passes (x y : RegWait) : Bool :=
  x.beat == y.beat && (decide (x.rank < y.rank) || match x.ask.forwards, y.ask.forwards with
    | some a, some b => decide (a < b)
    | _, _ => false)

/-- The place of an access among those that wait (R451). -/
def queueReg (x : RegWait) (l : List RegWait) : List RegWait :=
  l.takeWhile (fun y => !x.passes y) ++ x :: l.dropWhile fun y => !x.passes y

/-- An access takes effect. -/
def State.serveAsk (s : State) (x : RegAsk) : State :=
  match x with
  | .access p => match p.val with
    | some v => s.localWrite s.chipAddr p.addr v p.asker
    | none => s.localRead p.addr p.asker
  | .barge b => s.regIn b

/-- The beat of an access has come (R597). -/
def State.regDue (s : State) (x : RegWait) : Bool := s.pathNow || decide (x.after < s.regBeat x.ask.addr)

/-- The accesses whose beat has come take effect, in order (R451, R597). -/
def State.serveRegs (s : State) : State :=
  (s.die.regQ.filter s.regDue).foldl (fun (t : State) x => t.serveAsk x.ask)
    { s with die := { s.die with regQ := s.die.regQ.filter fun x => !s.regDue x } }

/-- An access comes to the register path: it takes effect in the next die beat, in the order of R451 (R597). -/
def State.regAsk (s : State) (rank : Nat) (ask : RegAsk) : State :=
  let x : RegWait := { beat := s.leadBeat, after := s.regBeat ask.addr, rank := rank, ask := ask }
  { s with die := { s.die with regQ := queueReg x s.die.regQ } }.serveRegs

/-- A write that the wharfinger makes on this chip (R451). -/
def State.ownWrite (s : State) (a : Nat) (v : Word) (k : Asker) : State := s.regAsk 1 (.access ⟨a, some v, k⟩)

/-- A REG barge is at the register path (R451, R599). -/
def State.regArrive (s : State) (b : Barge) : State := if regOp b = 2 then s.regReply b else s.regAsk 2 (.barge b)

/-- REG_BARGE (R599). -/
def execRegBarge (s : State) : Out :=
  match s.takeArrival .regPath fun b => bType b == tyREG with
  | none => .next s
  | some (x, s) => .next (s.regArrive x.barge)

/-- While an old epoch is held, the requests pinned to it are counted beat by beat, from the beat of the switch on (R494, R497). -/
def State.switchPins (s : State) : State := if s.get Reg.WSWP_EPOCH Fld.WSWP_EPOCH.old_epoch = 0 then s else s.recountPins

/-- BEAT_TOKEN (R47). The register path's accesses of the beat before take effect in the first beat that begins after them (R597), the
policy looks whether the die is quiescent (R517), and packets that pacing lets go by now leave (R442). -/
def execBeatToken (r : Fin 16) (codes : List Byte) (s : State) : Out :=
  .next (s.token r codes).switchPins.serveRegs.noteQuiet.paceWork

/-- REGISTER_WRITE (R597). -/
def execRegisterWrite (a : BitVec 48) (v : Word) (s : State) : Out := .next (s.ownWrite a.toNat v .none)

/-- BERTH_CONFIG_WRITE (R257). -/
def execBerthConfigWrite (core : Fin 256) (n : Fin 16) (v : Word) (s : State) : Out :=
  .next (s.ownWrite (coreRegs core + (0x200 + 16 * n)) v .none)

/-- BERTH_GRANT (R255). -/
def execBerthGrant (core : Fin 256) (n : Fin 16) (v : Word) (s : State) : Out :=
  .next (s.ownWrite (coreRegs core + (0x208 + 16 * n)) v .none)

/-! ### The I3C target (R448 to R450) -/

/-- The I3C target has a dynamic address. -/
def State.i3cOn (s : State) : Bool := s.toll.pwrOk && s.toll.i3cDyn.isSome

/-- The I3C target has the outcome of its access at once. -/
def State.i3cDone (s : State) (st : Nat) (d : Word) : State :=
  { s with toll := { s.toll with i3cWait := false, i3cAns := some (st, d) } }

/-- An access of the I3C target begins, in place of one that waits (log entry 25). -/
def State.i3cBegin (s : State) (far : Bool) : State :=
  { s with toll := { s.toll with
      i3cWait := true, i3cAns := none, i3cAt := s.now, i3cSeq := s.toll.i3cSeq + 1, i3cFar := far } }

/-- An access of this chip or, by a REG barge, of another (R449). A write that disarms another chip aborts the swap (R499). -/
def State.i3cAccess (s : State) (cmd chip addr : Nat) (v : Word) : State :=
  if chip = 0xFFFF ∨ (cmd ≠ 1 ∧ cmd ≠ 2) then s.i3cDone 0x3A05 0
  else if s.isHere chip then
    let s := s.i3cBegin false
    s.regAsk 0 (.access ⟨addr, if cmd = 1 then none else some v, .i3c s.toll.i3cSeq⟩)
  else if !s.dieOn then s.i3cDone 0x3A05 0
  else if (s.lookup s.bank chip false).isNone then (s.logErr { code := 0x5906 }).i3cDone 0x5906 0
  else
    let s := s.i3cBegin true
    let s := s.askReg chip addr v (cmd - 1) (i3cNum s.toll.i3cSeq)
    if cmd = 2 ∧ addr = Reg.WSWP_ARM ∧ !Fld.WSWP_ARM.armed.on v then (s.startAbort []).1 else s

/-- I3C_PRIVATE_WRITE (R449). A write while an access is pending replaces it (log entry 25). -/
def execI3cPrivateWrite (bytes : List Byte) (s : State) : Out :=
  let cmd := fieldOf bytes 0 1
  if !s.i3cOn then .next (s.emit (.i3c false []))
  else if (cmd = 1 ∧ bytes.length < 9) ∨ (cmd = 2 ∧ bytes.length < 17) then
    .next ((s.i3cDone 0x3A05 0).emit (.i3c true []))
  else
    .next ((s.i3cAccess cmd (fieldOf bytes 1 2) (fieldOf bytes 3 6) (BitVec.ofNat 64 (fieldOf bytes 9 8))).emit (.i3c true []))

/-- An access that waits for another chip longer than 1 ms has failed (R434; log entry 25). -/
def State.i3cExpire (s : State) : State :=
  if s.toll.i3cWait ∧ s.toll.i3cFar ∧ s.toll.i3cAt + 1000000000 ≤ s.now then s.i3cDone 0x3A05 0 else s

/-- I3C_PRIVATE_READ (R449). -/
def execI3cPrivateRead (s : State) : Out :=
  let s := s.i3cExpire
  if !s.i3cOn then .next (s.emit (.i3c false []))
  else match s.toll.i3cAns with
    | some (st, d) => .next (s.emit (.i3c true (natLe 2 st ++ natLe 8 d.toNat)))
    | none => .next (s.emit (.i3c false []))

/-- The provisional ID: DEV_SERIAL[47:0], least significant byte first (R448; log entry 25). -/
def State.provisionalId (s : State) : List Byte := natLe 6 (s.reg Reg.DEV_SERIAL).toNat

/-- ENTDAA (R448): a target with no dynamic address yet answers with its provisional ID and takes the address. -/
def execEntdaa (dyn : BitVec 7) (s : State) : Out :=
  if !s.toll.pwrOk ∨ s.toll.i3cDyn.isSome then .next (s.emit (.i3c false []))
  else .next ({ s with toll := { s.toll with i3cDyn := some dyn.toNat } }.emit (.i3c true s.provisionalId))

/-- SETDASA (R448): the static address of the image, and no dynamic address yet. -/
def execSetdasa (stat dyn : BitVec 7) (s : State) : Out :=
  if !s.toll.pwrOk ∨ s.toll.i3cDyn.isSome ∨ s.toll.i3cStatic = 0 ∨ stat.toNat ≠ s.toll.i3cStatic then
    .next (s.emit (.i3c false []))
  else .next ({ s with toll := { s.toll with i3cDyn := some dyn.toNat } }.emit (.i3c true []))

/-- ENEC (R448). -/
def execEnec (s : State) : Out := .next { s with ibiOn := true }

/-- DISEC (R448). -/
def execDisec (s : State) : Out := .next { s with ibiOn := false }

end Sys2Proof.Machine
end

