-- ==== Sys2Proof/Machine/Loader.lean ====
section
/-! DEFINITION. The loader's view of a program package (R366): its checks, the map of the virtual grid (R361), the places of its
regions (R283), and the writes that place it (R368). -/

namespace Sys2Proof.Machine

/-! ### The package (R366) -/

/-- A section of a package. -/
structure Sect where
  idx    : Nat
  ty     : Nat
  chip   : Nat
  vcore  : Nat
  off    : Nat
  len    : Nat
  target : Nat
  zero   : Nat
  deriving DecidableEq, Repr

/-- Fields of the package header. -/
def pkgTable (b : List Byte) : Nat := fieldOf b 24 4
def pkgSections (b : List Byte) : Nat := fieldOf b 28 2
def pkgImages (b : List Byte) : Nat := fieldOf b 30 2
def pkgVgrid (b : List Byte) : Nat := fieldOf b 32 2
def pkgRefresh (b : List Byte) : Nat := fieldOf b 34 2
def pkgRetry (b : List Byte) : Nat := fieldOf b 36 1
def pkgMode (b : List Byte) : Nat := fieldOf b 37 1
def pkgXbar (b : List Byte) : List Nat := (List.range 16).filter fun r => (fieldOf b 38 2).testBit r
def pkgSlice (b : List Byte) : Nat := fieldOf b 40 4
def pkgXlat (b : List Byte) : Nat := fieldOf b 44 4

/-- The sections in table order. -/
def sects (b : List Byte) : List Sect :=
  (List.range (pkgSections b)).map fun i =>
    let e := b.drop (pkgTable b + 32 * i)
    ⟨i, fieldOf e 0 2, fieldOf e 2 2, fieldOf e 4 2, fieldOf e 8 8, fieldOf e 16 8, fieldOf e 24 8, fieldOf e 6 2⟩

/-- The contents of a section. -/
def Sect.bytes (x : Sect) (b : List Byte) : List Byte := (b.drop x.off).take x.len

/-- A section belongs to chip image `m`. -/
def Sect.on (x : Sect) (m : Nat) : Bool := x.chip == m || x.chip == 0xFFFF

/-- Sections of a type, for chip image `m`. -/
def ofType (b : List Byte) (ty m : Nat) : List Sect := (sects b).filter fun x => x.ty == ty && x.on m

/-- A region entry. -/
structure Region where
  content : Nat
  len     : Nat
  ptr     : Nat
  wofs    : Nat
  vcore   : Nat
  tier    : Nat
  weight  : Bool
  deriving DecidableEq, Repr

/-- Region entry `i` of a section's contents. -/
def regionAt (c : List Byte) (i : Nat) : Region :=
  let e := c.drop (32 * i)
  ⟨fieldOf e 24 8, fieldOf e 16 8, fieldOf e 12 4, fieldOf e 8 4, fieldOf e 6 2, fieldOf e 5 1, fieldOf e 4 1 == 1⟩

/-- The regions of chip image `m`. -/
def regionsOf (b : List Byte) (m : Nat) : List Region :=
  (ofType b 7 m).flatMap fun x => (List.range (x.len / 32)).map (regionAt (x.bytes b))

/-- A region entry is sound: its fields are in range and its bytes lie in the package. -/
def regionOk (b c : List Byte) (i : Nat) : Bool :=
  let r := regionAt c i
  decide (r.len % 32 = 0) && decide (1 ≤ r.tier) && decide (r.tier ≤ 4) && decide (fieldOf (c.drop (32 * i)) 4 1 ≤ 1) &&
    fieldOf (c.drop (32 * i)) 0 4 == 0 && decide (r.vcore < pkgVgrid b) && decide (r.ptr % 8 = 0) && decide (r.ptr + 8 ≤ 65536) &&
    decide (r.content + (if r.content = 0 then 0 else r.len) ≤ b.length)

/-- Contents that fit their type. A target is a core-window offset inside the memory of its type, or 0 where the type fixes the place. Bytes
go by the register path, so a target is a multiple of 8 (log entry 25). -/
def Sect.fits (x : Sect) (b : List Byte) : Bool :=
  let c := x.bytes b
  let window := fun (lo hi : Nat) => decide (x.target % 8 = 0) && decide (lo ≤ x.target) && decide (x.target + x.len ≤ hi)
  let fixed : Bool := x.target == 0
  match x.ty with
  | 1 => fixed && x.len == 128
  | 2 => window 0x680000 0x690000
  | 3 => window 0x690000 0x6A0000
  | 4 => window 0 0x600000 || window 0x600000 0x680000
  | 5 => fixed && x.len == 288
  | 6 => fixed && x.len % 48 == 0 &&
      (List.range (x.len / 48)).all fun i => decide (fieldOf c (48 * i) 2 < 64) && fieldOf c (48 * i + 2) 6 == 0
  | 7 => fixed && x.len % 32 == 0 && (List.range (x.len / 32)).all (regionOk b c)
  | 8 => fixed && x.len == 8232
  | 9 => fixed && x.len == 8
  | 10 => fixed && x.len == 64
  | 11 => fixed
  | _ => false

/-- A section lies in the package, overlaps no earlier one, names a chip image and a core that exist, and fits its type. -/
def Sect.ok (x : Sect) (b : List Byte) : Bool :=
  x.zero == 0 && decide (x.off + x.len ≤ b.length) &&
    ((sects b).all fun y => decide (x.idx ≤ y.idx) || x.len == 0 || y.len == 0 || decide (x.off + x.len ≤ y.off) ||
      decide (y.off + y.len ≤ x.off)) &&
    (x.chip == 0xFFFF || decide (x.chip < pkgImages b)) &&
    (!(decide (2 ≤ x.ty) && decide (x.ty ≤ 5)) || decide (x.vcore < pkgVgrid b)) && x.fits b

/-- Every required section is there. -/
def requiredThere (b : List Byte) : Bool :=
  !(ofType b 1 0xFFFF).isEmpty && !(ofType b 8 0xFFFF).isEmpty &&
    (List.range (pkgImages b)).all fun m => [2, 3, 5].all fun ty =>
      (List.range (pkgVgrid b)).all fun v => (ofType b ty m).any fun x => x.vcore == v

/-- The header is sound. -/
def headerOk (b : List Byte) (images : Nat) : Bool :=
  decide (64 ≤ b.length) && fieldOf b 0 4 == 0x50445641 && fieldOf b 4 2 == 1 && fieldOf b 6 10 == 0 && fieldOf b 48 16 == 0 &&
    fieldOf b 16 8 == b.length && pkgTable b % 32 == 0 && pkgSections b != 0 && decide (pkgTable b + 32 * pkgSections b ≤ b.length) &&
    decide (1 ≤ pkgImages b) && decide (pkgImages b ≤ 4095) && pkgImages b == images && decide (1 ≤ pkgVgrid b) && decide (pkgVgrid b ≤ 256) && (pkgMode b == 1 || pkgMode b == 2)

/-- Step 1 of R368: what refuses the package, with the section at fault. -/
def pkgFault (b : List Byte) (images : Nat) (digest : Nat) : Option Nat :=
  if !headerOk b images then some 0
  else if leNat ((sha3 b).take 8) ≠ digest then some 0
  else match (sects b).find? fun x => !x.ok b with
    | some x => some x.idx
    | none => if requiredThere b then none else some 0

/-! ### Step 2: declarations (R355, R357, R360, R484) -/

/-- Declared latency of kind `k`. -/
def declared (b : List Byte) (k : Nat) : Nat :=
  match (ofType b 1 0xFFFF).head? with
  | some x => fieldOf b (x.off + 2 * k) 2
  | none => 0

/-- A latency declaration that exceeds what any chip takes, or one below native: the first `k` on a chip, and on the first of the chips that
has one (R357). -/
def latFault (b : List Byte) (native : Nat → Nat → Nat) (chips : List Nat) : Option (Nat × Nat × Nat) :=
  let first := fun (code : Nat) (bad : Nat → Nat → Bool) => chips.findSome? fun c =>
    ((List.range 64).find? (bad c)).map fun k => (code, k, c)
  match first 0x3024 fun c k => (28 ≤ k && declared b k != 0) || decide (native c k + 255 < declared b k) with
  | some f => some f
  | none => first 0x3021 fun c k => decide (declared b k < native c k)

/-- The crossbar reaches lie in the grid (R360). -/
def xbarInGrid (b : List Byte) : Bool := (pkgXbar b).all fun r => (coresOf r).all fun v => decide (v < pkgVgrid b)

/-- What refuses the package, check by check: code, detail and chip (R355, R357, R360, R368, R484). -/
def declFault (b : List Byte) (native : Nat → Nat → Nat) (chips : List Nat) : Option (Nat × Nat × Nat) :=
  if 250 < pkgRefresh b then some (0x3024, 0, 0)
  else match latFault b native chips with
    | some f => some f
    | none =>
      if !xbarInGrid b then some (0x3022, 0, 0)
      else if copyKib (pkgMode b) < pkgSlice b then some (0x3C02, 0, 0)
      else none

/-! ### The map (R361) -/

/-- Map the crossbar reaches: pairs of virtual and physical core, and the reaches used. -/
def mapXbar : List Nat → List Nat → List (Nat × Nat) → Option (List (Nat × Nat))
  | [], _, acc => some acc
  | _ :: _, [], _ => none
  | vr :: t, pr :: whole, acc => mapXbar t whole (acc ++ (coresOf vr).zip (coresOf pr))

/-- Map the other cores in ascending order. -/
def mapRest : List Nat → List Nat → List (Nat × Nat) → Option (List (Nat × Nat))
  | [], _, acc => some acc
  | _ :: _, [], _ => none
  | v :: t, p :: usable, acc => mapRest t usable (acc ++ [(v, p)])

/-- The map of a grid onto usable cores. -/
def mapGrid (vgrid : Nat) (xbar usable : List Nat) : Option (List (Nat × Nat)) :=
  let whole := (List.range 16).filter fun r => (coresOf r).all usable.contains
  match mapXbar xbar whole [] with
  | none => none
  | some m =>
    let vs := (List.range vgrid).filter fun v => !(m.any fun p => p.1 == v)
    mapRest vs (usable.filter fun c => !(m.any fun p => p.2 == c)) m

/-- Physical core of a virtual core in a map. -/
def physOf (m : List (Nat × Nat)) (v : Nat) : Nat := ((m.find? fun p => p.1 == v).map (·.2)).getD 0

/-! ### Places of the regions (R283; log entry 25) -/

/-- Space in use: chip, device address, length. -/
abbrev Used := List (Nat × Nat × Nat)

/-- `len` bytes at `a` of a chip are free and end by `hi`. -/
def freeAt (u : Used) (chip a len hi : Nat) : Bool :=
  decide (a + len ≤ hi) && u.all fun x => x.1 != chip || decide (a + len ≤ x.2.1) || decide (x.2.1 + x.2.2 ≤ a)

/-- The lowest free place between `lo` and `hi`. -/
def firstFit (u : Used) (chip lo hi len : Nat) : Option Nat :=
  let ends := (u.filter fun x => x.1 == chip).map fun x => roundLine (x.2.1 + x.2.2)
  ((lo :: ends).filter fun a => decide (lo ≤ a) && freeAt u chip a len hi).foldl
    (fun (best : Option Nat) a => match best with
      | none => some a
      | some b => some (min a b)) none

/-- Device address of a hold. -/
def holdBase (h : Nat) : Nat := 0x1000000000 * (h + 1)

/-- What the loader knows of the chips: a register's value on a chip. -/
abbrev Known := Nat → Nat → Word

/-- Chips in the order of R283 as seen from a chip: hops, then address, those with a route, other than itself. Chip 0 is the wharf, whose
address is `self`. -/
def byHops (k : Known) (chip self : Nat) (cands : List Nat) : List Nat :=
  let key := fun (d : Nat) => rtHops.get (k chip (0x400800000 + 8 * d)) * 65536 + d
  let own := if chip = 0 then self else chip
  let l := cands.filter fun d => d != 0 && d != own && rtValid.get (k chip (0x400800000 + 8 * d)) == 1
  (l.foldl (fun (acc : List Nat) d => acc.takeWhile (fun x => decide (key x ≤ key d)) ++ d ::
    acc.dropWhile fun x => decide (key x ≤ key d)) []).map fun d => if d = self then 0 else d

/-- The lent windows of a chip (R283): no space of its own regions. -/
def lentBy (k : Known) (chip : Nat) : Used :=
  ([0, 1].map fun h =>
    let w := k chip (Reg.FABR_LEND h)
    (chip, holdBase h + 65536 * Fld.FABR_LEND.base.get w,
      if Fld.FABR_LEND.enable.get w = 1 then 65536 * Fld.FABR_LEND.pages.get w else 0)).filter fun x => x.2.2 != 0

/-- A place in the lent windows of a chip. -/
def inLent (k : Known) (u : Used) (chip len : Nat) : Option Nat :=
  [0, 1].foldl (fun (best : Option Nat) h => match best with
    | some a => some a
    | none =>
      let w := k chip (Reg.FABR_LEND h)
      let lo := holdBase h + 65536 * Fld.FABR_LEND.base.get w
      if Fld.FABR_LEND.enable.get w = 1 then firstFit u chip lo (lo + 65536 * Fld.FABR_LEND.pages.get w) len else none) none

/-- Where a region goes: chip and device address; chip `c` is the core's own. -/
def placeRegion (k : Known) (u : Used) (c self : Nat) (cands : List Nat) (copy : Nat) (r : Region) (phys : Nat) :
    Option (Nat × Nat) :=
  let edge := if phys < 128 then 0 else 1
  let inHold := fun (h : Nat) =>
    (firstFit (lentBy k c ++ u) c (holdBase h) (holdBase h + 0x1000000000) r.len).map fun a => (c, a)
  let t1 := fun (_ : Unit) =>
    if r.weight then (if r.wofs + r.len ≤ copy then some (c, coreBase phys + 0x1000000 + r.wofs) else none)
    else (firstFit u c (coreBase phys) (coreBase phys + 0x600000) r.len).map fun a => (c, a)
  let t4 := fun (_ : Unit) => (byHops k c self cands).foldl (fun (best : Option (Nat × Nat)) d => match best with
    | some p => some p
    | none => (inLent k u d r.len).map fun a => (d, a)) none
  let first := if r.tier ≤ 1 then t1 () else none
  let second := if first.isNone ∧ r.tier ≤ 2 then inHold edge else first
  let third := if second.isNone ∧ r.tier ≤ 3 then inHold (1 - edge) else second
  if third.isNone then t4 () else third

/-- Place regions in order; the index of the first without room. -/
def placeAllRegions (k : Known) (c self : Nat) (cands : List Nat) (copy : Nat) (m : List (Nat × Nat)) :
    List Region → Nat → Used → List (Region × Nat × Nat) → Used × Sum Nat (List (Region × Nat × Nat))
  | [], _, u, acc => (u, .inr acc)
  | r :: t, i, u, acc =>
    match placeRegion k u c self cands copy r (physOf m r.vcore) with
    | none => (u, .inl i)
    | some (d, a) => placeAllRegions k c self cands copy m t (i + 1) ((d, a, r.len) :: u) (acc ++ [(r, d, a)])

/-- Registers of a chip that name space in its holds. -/
def spaceRegs : List Nat :=
  [Reg.WSWP_STAGE 0, Reg.WSWP_STAGE 1, Reg.ENET_QP, Reg.ENET_MR, Reg.STRM_RING, Reg.LEDG_BASE, Reg.LEDG_TENANT_BASE,
   Reg.LEDG_SHAPE, Reg.LEDG_PROMPT, Reg.LEDG_BATCH, Reg.LEDG_AUDIT, Reg.LEDG_REPLAY, Reg.LEDG_KV, Reg.LEDG_KVPOOL, Reg.LEDG_COUNT,
   Reg.FABR_LEND 0, Reg.FABR_LEND 1]

/-- Space that those registers name on a chip, where its length is not 0; the lent windows apart. -/
def spaceOf (k : Known) (c slice : Nat) : Used :=
  let v := fun (a : Nat) (f : BitField) => f.get (k c a)
  let p := fun (a : Nat) (f : BitField) => 65536 * f.get (k c a)
  let l : Used := [
    (c, p (Reg.WSWP_STAGE 0) Fld.WSWP_STAGE.base, 128 * slice), (c, p (Reg.WSWP_STAGE 1) Fld.WSWP_STAGE.base, 128 * slice),
    (c, p Reg.ENET_QP Fld.ENET_QP.base, 64 * v Reg.ENET_QP Fld.ENET_QP.count),
    (c, p Reg.ENET_MR Fld.ENET_MR.base, 32 * v Reg.ENET_MR Fld.ENET_MR.count),
    (c, p Reg.STRM_RING Fld.STRM_RING.base, 32 * v Reg.STRM_RING Fld.STRM_RING.count),
    (c, v Reg.LEDG_BASE Fld.LEDG_BASE.base, 0x6000000), (c, v Reg.LEDG_TENANT_BASE Fld.LEDG_TENANT_BASE.base, 0x200000),
    (c, v Reg.LEDG_SHAPE Fld.LEDG_SHAPE.base, 8232),
    (c, p Reg.LEDG_PROMPT Fld.LEDG_PROMPT.base,
      1024 * v Reg.LEDG_PROMPT Fld.LEDG_PROMPT.slot_kib * v Reg.LEDG_PROMPT Fld.LEDG_PROMPT.slots),
    (c, p Reg.LEDG_BATCH Fld.LEDG_BATCH.base, 0x80000),
    (c, p Reg.LEDG_AUDIT Fld.LEDG_AUDIT.base, 16 * v Reg.LEDG_AUDIT Fld.LEDG_AUDIT.count),
    (c, p Reg.LEDG_REPLAY Fld.LEDG_REPLAY.base, 16 * v Reg.LEDG_REPLAY Fld.LEDG_REPLAY.count),
    (c, p Reg.LEDG_KVPOOL Fld.LEDG_KVPOOL.base, 4 * v Reg.LEDG_KVPOOL Fld.LEDG_KVPOOL.count),
    (c, 16384 * v Reg.LEDG_KV Fld.LEDG_KV.map_base,
      16384 * v Reg.LEDG_KV Fld.LEDG_KV.stride * v Reg.LEDG_COUNT Fld.LEDG_COUNT.capacity)]
  l.filter fun x => x.2.2 != 0 && decide (0x1000000000 ≤ x.2.1)

/-! ### The writes of step 4 (R207, R368) -/

/-- Bytes as writes of 8 bytes from an address on; the last word is filled with zeros. -/
def putAll (chip a : Nat) (bs : List Byte) : List Access :=
  (List.range (ceilDiv bs.length 8)).map fun j => { chip := chip, addr := a + 8 * j, val := some (wordOf bs j) }

/-- One write. -/
def put1 (chip a : Nat) (v : Word) : Access := { chip := chip, addr := a, val := some v }

/-- Global address at which a core of chip `c` finds a region: its own window is named by the virtual core (R595). Chip 0 is the wharf, whose
address is `self`. -/
def placedAt (c self : Nat) (m : List (Nat × Nat)) (d a : Nat) : Nat :=
  let own := if a < 0x400000000 then
      let p := a / 0x4000000
      coreBase (((m.find? fun q => q.2 == p).map (·.1)).getD 0) + a % 0x4000000
    else a
  if d = c then own else (if d = 0 then self else d) * 2 ^ 48 + own

/-- The words of DTRM_VMAP for a map. -/
def vmapWord (m : List (Nat × Nat)) (j : Nat) : Word :=
  BitVec.ofNat 64 (leNat ((List.range 8).map fun k => BitVec.ofNat 8 (physOf m (8 * j + k))))

/-- A virtual mask as four physical words (R334). -/
def physMask (m : List (Nat × Nat)) (mask w : Nat) : Word :=
  BitVec.ofNat 64 ((m.filter fun p => mask.testBit p.1 && p.2 / 64 == w).foldl (fun n p => n + 2 ^ (p.2 % 64)) 0)

/-- Barrier slots: every mask, then every CTRL (R334, R366). -/
def slotWrites (b : List Byte) (image c : Nat) (m : List (Nat × Nat)) : List Access :=
  let es := (ofType b 6 image).flatMap fun x => (List.range (x.len / 48)).map fun i => (x.bytes b).drop (48 * i)
  (es.flatMap fun e => (List.range 4).map fun w =>
    put1 c (Reg.LOCK_SLOT_MASK (fieldOf e 0 2) w) (physMask m (fieldOf e 16 32) w)) ++
  es.map fun e => put1 c (Reg.LOCK_SLOT_CTRL (fieldOf e 0 2)) (wordOf e 1)

/-- Writes of bytes of a section type as the loader makes them: with AVN-3 relocation records in the package, each word as it rewrites and links
it, a free value, since nothing gives the records a form (R245, R532; log entry 25). `lib` marks the keeper runtime library. -/
def relink (b : List Byte) (lib image ty : Nat) (ws : List Access) : List Access :=
  if (ofType b 11 image).isEmpty then ws
  else ws.map fun w => { w with val := w.val.map (Config.relocated lib (leNat ((sha3 b).take 8)) image (2 ^ 40 * ty + w.addr)) }

/-- The bytes of the regions; those of a region of zeros are no package's. -/
def regionWrites (b : List Byte) (lib image : Nat) (ps : List (Region × Nat × Nat)) : List Access :=
  ps.flatMap fun x =>
    let r := x.1
    if memKind x.2.2 = .wstore then []
    else if r.content = 0 then putAll x.2.1 x.2.2 (List.replicate r.len 0)
    else relink b lib image 7 (putAll x.2.1 x.2.2 ((b.drop r.content).take r.len))

/-- Bytes of a section as they are placed. -/
def placeBytes (b : List Byte) (lib image chip a : Nat) (x : Sect) : List Access :=
  relink b lib image x.ty (putAll chip a (x.bytes b))

/-- The preloads. -/
def preloadWrites (b : List Byte) (lib image c : Nat) (m : List (Nat × Nat)) : List Access :=
  (ofType b 4 image).flatMap fun x => placeBytes b lib image c (coreBase (physOf m x.vcore) + x.target) x

/-- The placed addresses. -/
def pointerWrites (c self : Nat) (m : List (Nat × Nat)) (ps : List (Region × Nat × Nat)) : List Access :=
  ps.map fun x => put1 c (coreBase (physOf m x.1.vcore) + 0x690000 + x.1.ptr) (BitVec.ofNat 64 (placedAt c self m x.2.1 x.2.2))

/-- Each core's memories, then its setup registers (R207). -/
def coreWrites (b : List Byte) (lib image c : Nat) (m : List (Nat × Nat)) : List Access :=
  let of := fun (ty v : Nat) => (ofType b ty image).filter fun x => x.vcore == v
  m.flatMap fun p =>
    let w := coreBase p.2
    ((of 2 p.1).flatMap fun x => placeBytes b lib image c (w + x.target) x) ++
    ((of 3 p.1).flatMap fun x => placeBytes b lib image c (w + x.target) x) ++
    ((of 5 p.1).flatMap fun x =>
      let s := x.bytes b
      [put1 c (Reg.QUEUE_CFG p.2) (wordOf s 0), put1 c (Reg.MENU_BASE p.2) (wordOf s 1), put1 c (Reg.KEEP_PC p.2) (wordOf s 2),
       put1 c (Reg.LOCK_XMODE p.2) (wordOf s 3)] ++ (List.range 32).map fun v => put1 c (Reg.VEC_WIN p.2 v) (wordOf s (4 + v)))

/-- Every write of step 4 on one member but the serving tables. The placed addresses are written again after the data memories,
so that an image does not overwrite them (log entry 25). -/
def memberWrites (b : List Byte) (lib digest : Nat) (strict : Bool) (self image c : Nat) (m : List (Nat × Nat))
    (ps : List (Region × Nat × Nat)) : List Access :=
  let xb := (pkgXbar b).foldl (fun n r => n + 2 ^ reachOf (physOf m (coreAt r 0))) 0
  let phase := match (ofType b 9 0xFFFF).head? with
    | some x => [put1 c Reg.IDLE_PHASE (Fld.IDLE_PHASE.enable.set (wordOf (x.bytes b) 0) 1)]
    | none => []
  ((List.range 64).map fun k => put1 c (Reg.DTRM_LAT k) (Fld.DTRM_LAT.in_force.set 0 (declared b k))) ++
  [put1 c Reg.DTRM_GRID (Fld.DTRM_GRID.vgrid.set 0 (pkgVgrid b))] ++
  ((List.range 32).map fun j => put1 c (Reg.DTRM_VMAP j) (vmapWord m j)) ++
  [put1 c Reg.DTRM_ALLOW (Fld.DTRM_ALLOW.retry_max.set (Fld.DTRM_ALLOW.refresh_pm.set 0 (pkgRefresh b)) (pkgRetry b)),
   put1 c Reg.DTRM_PKG (BitVec.ofNat 64 digest), put1 c Reg.DTRM_CTRL (if strict then 1 else 0),
   put1 c Reg.MESH_MODE (BitVec.ofNat 64 xb),
   put1 c Reg.WSWP_MODE (Fld.WSWP_MODE.mode.set (Fld.WSWP_MODE.slice_kib.set 0 (pkgSlice b)) (pkgMode b))] ++ phase ++
  [put1 c Reg.LOCK_XLAT (Fld.LOCK_XLAT.beats.set 0 (pkgXlat b))] ++ slotWrites b image c m ++ regionWrites b lib image ps ++
  preloadWrites b lib image c m ++ pointerWrites c self m ps ++ coreWrites b lib image c m ++ pointerWrites c self m ps

/-- The serving tables of the wharf, where LEDG_SHAPE names a place in a hold (R469, R471). -/
def State.tableWrites (s : State) (b : List Byte) : List Access :=
  let a := s.get Reg.LEDG_SHAPE Fld.LEDG_SHAPE.base
  match (ofType b 8 0xFFFF).head? with
  | some x => if 0x1000000000 ≤ a ∧ a % 8 = 0 then putAll 0 a (x.bytes b) else []
  | none => []

/-- The header of every page map on every member, with page_count 0 (R270, R368, R463). -/
def State.mapWrites (s : State) (b : List Byte) : List Access :=
  match (ofType b 10 0xFFFF).head? with
  | none => []
  | some x =>
    let h := putBytes (x.bytes b) 4 [0, 0]
    (List.range s.capacity).flatMap fun i =>
      let a := 16384 * ((s.get Reg.LEDG_KV Fld.LEDG_KV.map_base + s.get Reg.LEDG_KV Fld.LEDG_KV.stride * i) % 2 ^ 32)
      if a < 0x1000000000 then [] else s.members.flatMap fun c => putAll c a h

/-- The page tokens of the pool, on the wharf: free pages of every member, in ascending order (R462; log entry 25). -/
def State.poolWrites (s : State) (chips : List Nat) (u : Used) : List Access :=
  let n := s.get Reg.LEDG_KVPOOL Fld.LEDG_KVPOOL.count
  let a := s.poolAt 0
  let pages := (List.range (2 ^ 21)).filter fun t =>
    let lo := holdBase (t / 2 ^ 20) + 65536 * (t % 2 ^ 20)
    chips.all fun c => freeAt u c lo 65536 (lo + 65536)
  if a < 0x1000000000 then [] else putAll 0 a ((pages.take n).flatMap (natLe 4))

end Sys2Proof.Machine
end

