-- ==== Sys2Proof/Machine/Jobs.lean ====
section
/-! DEFINITION. The wharfinger's firmware at work: lists of accesses on this and other chips (R434), and what each kind of job does
with their answers. -/

namespace Sys2Proof.Machine

/-- Digest of the keeper runtime library that the configuration image carries (section 0x0008), under which the loader's relocated words
are taken (R532, R245). -/
def State.libMark (s : State) : Nat := leNat ((sha3 (imgPart s.toll.image 8)).take 8)

/-! ### Accesses (R434) -/

/-- The answer that has come for a job. -/
def State.jobAns (s : State) (id : Nat) : Option (Nat × Word) := (s.host.jobs.find? fun (j : Job) => j.id == id).bind (·.ans)

/-- No answer has come for a job. -/
def State.clearAns (s : State) (id : Nat) : State :=
  let upd := fun (j : Job) => if j.id = id then { j with ans := none } else j
  { s with host := { s.host with jobs := s.host.jobs.map upd } }

/-- One access of this chip for a job; none while it waits for its beat, its bank or its pseudo-channel (R451, R597). -/
def State.runLocal (s : State) (id : Nat) (x : Access) : State × Option (Nat × Word) :=
  if x.fire then (s.fireHost, some (0, 0))
  else
    let t := (s.clearAns id).regAsk 1 (.access ⟨x.addr, x.val, .job id⟩)
    (t.clearAns id, t.jobAns id)

/-- A read does not find what it waits for. -/
def Access.again (x : Access) (st : Nat) (d : Word) : Bool :=
  st == 0 && x.val.isNone && !x.fire && d &&& x.mask != x.want

/-- Operation of the REG barge that carries an access (log entry 6). -/
def Access.op (x : Access) : Nat := if x.fire then 3 else if x.order then 4 else if x.val.isSome then 1 else 0

/-- Accesses of job `id` in order until one waits: those left, those done, newest first, and when the one that waits was made. An access of another
chip fails with 0x5906 without a route, and of chip 0xFFFF with 0x3A05 (R434, R595). -/
def State.runAccesses (s : State) (id : Nat) : List Access → List (Access × Nat × Word) →
    State × List Access × List (Access × Nat × Word) × Option Nat
  | [], done => (s, [], done, none)
  | x :: rest, done =>
    if s.isHere x.chip then
      match s.runLocal id x with
      | (t, none) => (t, x :: rest, done, some t.now)
      | (t, some (st, d)) => if x.again st d then (t, x :: rest, done, none) else t.runAccesses id rest ((x, st, d) :: done)
    else if x.chip = 0xFFFF then s.runAccesses id rest ((x, 0x3A05, 0) :: done)
    else if (s.lookup s.bank x.chip false).isNone then
      (s.logErr { code := 0x5906 }).runAccesses id rest ((x, 0x5906, 0) :: done)
    else (s.askReg x.chip x.addr (x.val.getD 0) x.op (jobNum id), x :: rest, done, some s.now)

/-- Put a job in its place in the list. -/
def State.setJob (s : State) (j : Job) : State :=
  { s with host := { s.host with jobs := s.host.jobs.map fun x => if x.id = j.id then j else x } }

/-- A job goes on with its accesses: the answer it waits for has come, or 1 ms has passed without one of another chip (R434). -/
def State.goOn (s : State) (j : Job) : State × Job :=
  let run := fun (todo : List Access) (done : List (Access × Nat × Word)) =>
    let (t, todo, done, asked) := s.runAccesses j.id todo done
    (t, { j with todo := todo, done := done, asked := asked, ans := none })
  match j.todo, j.ans, j.asked with
  | x :: rest, some (st, d), _ =>
    if x.again st d then run j.todo j.done else run rest ((x, st, d) :: j.done)
  | x :: rest, none, some t => if !s.isHere x.chip ∧ t + 1000000000 ≤ s.now then run rest ((x, 0x3A05, 0) :: j.done) else (s, j)
  | todo, none, none => run todo j.done
  | [], _, _ => (s, j)

/-! ### What the accesses have shown -/

/-- What register `a` of a chip read, newest first. -/
def Job.read (j : Job) (chip a : Nat) : Word :=
  match j.done.find? fun e => e.1.chip == chip && e.1.addr == a && e.1.val.isNone with
  | some e => e.2.2
  | none => 0

/-- Accesses of this phase, in order. -/
def Job.fresh (j : Job) : List (Access × Nat × Word) := (j.done.take (j.done.length - j.mark)).reverse

/-- The first access of this phase that failed. -/
def Job.bad (j : Job) : Option (Access × Nat × Word) := j.fresh.find? fun e => e.2.1 != 0

/-- The next phase of a job. -/
def Job.next (j : Job) (phase : Nat) (todo : List Access) : Job :=
  { j with phase := phase, todo := todo, mark := j.done.length, asked := none, ans := none }

/-- A read. -/
def get1 (chip a : Nat) : Access := { chip := chip, addr := a }

/-- A read repeated until a field reads a value. -/
def poll (chip a : Nat) (f : BitField) (v : Nat) : Access := { chip := chip, addr := a, mask := f.mask, want := f.set 0 v }

/-- The chips that a message names: every member for 0xFFFF, this chip as 0 (R526, R562, R567). -/
def State.targets (s : State) (chip : Nat) : List Nat :=
  if chip = 0xFFFF then s.members else [if s.isHere chip then 0 else chip]

/-- Address of a chip in a result. -/
def State.nameOf (s : State) (chip : Nat) : Nat := if s.isHere chip then s.chipAddr else chip

/-- Answer the message of a job. -/
def State.respond (s : State) (j : Job) (ty status : Nat) (payload : List Byte) : State :=
  s.sendMsg j.sess ty 0 j.handle status payload (some j.seq)

/-- Answer with a payload, in whole records of `unit` bytes, in as many parts as the limit of the interface of the message asks for
(R422, R427, R537). -/
def State.respondParts (s : State) (sess seq handle ty status unit : Nat) (payload : List Byte) : State :=
  let most := match s.sess sess with
    | some x => s.maxPayload (((x.arrived.find? fun e => e.1 == seq).map (·.2)).getD x.ifc)
    | none => 8192
  let ps := if payload.isEmpty then [[]] else parts (max unit (most / unit * unit)) (payload.length + 1) payload
  (List.range ps.length).foldl (fun (t : State) i =>
    t.sendMsg sess ty (if i + 1 < ps.length then 2 else 0) handle status (ps.getD i []) (some seq)) s

/-! ### Register lists, idle budgets, capture, tests, attestation -/

/-- REG_RESULT: the list with data and statuses (R434). -/
def Job.regResult (j : Job) : List Byte :=
  j.fresh.flatMap fun e => natLe 6 e.1.addr ++ natLe 2 e.2.1 ++ natLe 8 (e.1.val.getD e.2.2).toNat

/-- A list of writes disarmed some chip (R499). -/
def Job.disarmed (j : Job) : Bool :=
  j.fresh.any fun e => e.1.addr == Reg.WSWP_ARM && e.2.1 == 0 && (match e.1.val with
    | some v => Fld.WSWP_ARM.armed.get v == 0
    | none => false)

/-- CAPTURE op 1, second phase: arm each chip whose SNAP_TIME was written (R562). -/
def Job.armWrites (j : Job) : List Access :=
  (j.fresh.filter fun e => e.1.addr == Reg.SNAP_ARM && e.2.1 == 0 &&
    !(j.fresh.any fun g => g.1.chip == e.1.chip && g.1.addr == Reg.SNAP_TIME && g.2.1 != 0)).map fun e =>
      put1 e.1.chip Reg.SNAP_ARM (Fld.SNAP_ARM.armed.set e.2.2 1)

/-- A record of TEST_RESULT for a chip (R567): from its TEST_STAT, or refused where the request was. -/
def State.testRecord (s : State) (j : Job) (chip : Nat) : List Byte :=
  let w := j.read chip Reg.TEST_STAT
  let f := fun (b : BitField) => b.get w
  let req := (j.done.find? fun e => e.1.chip == chip && e.1.val.isSome).elim 0 fun e => e.2.1
  let refused : Bool := req == 0x3E02 && f Fld.TEST_STAT.result != 5
  if req ≠ 0 ∧ (req ≠ 0x3E02 ∨ refused) then
    natLe 2 (s.nameOf chip) ++ natLe 1 (fieldOf j.req 2 1) ++ natLe 1 5 ++ natLe 2 req ++ List.replicate 10 0
  else
    natLe 2 (s.nameOf chip) ++ natLe 1 (f Fld.TEST_STAT.test) ++ natLe 1 (f Fld.TEST_STAT.result) ++
      natLe 2 (f Fld.TEST_STAT.first_code) ++ natLe 2 (f Fld.TEST_STAT.units) ++ natLe 2 (f Fld.TEST_STAT.windows) ++
      List.replicate 6 0

/-- The first failing code of a job, whatever the phase. -/
def Job.firstBad (j : Job) : Nat := ((j.done.reverse.find? fun e => e.2.1 != 0).map fun e => e.2.1).getD 0

/-- Free bytes, for what another chip's tollhouse signs or holds (log entry 5). -/
def State.freeBytes (s : State) (n : Nat) : State × List Byte :=
  ({ s with free := s.free + n }, (List.range n).map fun i => BitVec.ofNat 8 (Config.freeValue (s.free + i)).toNat)

/-- The answer to ATTEST_REQ for another chip, from its registers (R536, R537). -/
def State.attestOther (s : State) (j : Job) (chip : Nat) : State :=
  let nonce := j.req.take 32
  if fieldOf j.req 34 1 = 1 then
    let (s, bs) := s.freeBytes 5357
    s.respondParts j.sess j.seq j.handle 0x71 0 1 (natLe 8 (j.read chip Reg.DEV_SERIAL).toNat ++ bs)
  else
    let n := Fld.LIMS_BUDGETS.journal.get (j.read chip Reg.LIMS_BUDGETS)
    let chain := if n = 0 then List.replicate 16 0
      else natLe 8 (j.read chip (Reg.LIMS_JOURNAL (n - 1) 2)).toNat ++ natLe 8 (j.read chip (Reg.LIMS_JOURNAL (n - 1) 3)).toNat
    let body := reportBody (j.read chip) chain nonce
    let (s, bs) := s.freeBytes 3373
    s.respondParts j.sess j.seq j.handle 0x71 0 1 (body ++ bs)

/-! ### Change orders of other chips (R539, R542) -/

/-- CHANGE_ORDER: the chip of the group that bears the order's serial has its tollhouse judge it, and where none does, this chip's tollhouse
refuses it. -/
def State.orderPhase (s : State) (j : Job) : State × Option Job :=
  if j.phase = 0 then
    match j.chips.find? fun c => !s.isHere c && (j.read c Reg.DEV_SERIAL).toNat == fieldOf j.req 8 8 with
    | some c => (s, some (j.next 1 ((List.range 438).map fun i =>
        { chip := c, addr := orderBase + 8 * i, val := some (wordOf j.req i), order := true })))
    | none =>
      let (t, st, pay) := s.orderIn j.req none s.toll.keys
      (t.respond j 0x73 st pay, none)
  else
    let last := (j.fresh.getLast?.map fun e => e.2.2).getD 0
    (s.respond j 0x73 j.firstBad (natLe 8 last.toNat ++ natLe 8 (orderTag j.req)), none)

/-! ### Swaps (R492, R499) -/

/-- Mapped cores of a chip by its DTRM_GRID and DTRM_VMAP. -/
def Job.mappedOn (j : Job) (chip : Nat) : List Nat :=
  (List.range (Fld.DTRM_GRID.vgrid.get (j.read chip Reg.DTRM_GRID))).map fun v =>
    (⟨8 * (v % 8), 8⟩ : BitField).get (j.read chip (Reg.DTRM_VMAP (v / 8)))

/-- The first member that is not idle with `next` checked and the digest asked for. -/
def Job.unready (j : Job) : Option Nat :=
  let next := fieldOf j.req 8 4
  j.chips.find? fun c =>
    let st := j.read c Reg.WSWP_STAT
    j.fresh.any (fun e => e.1.chip == c && e.2.1 != 0) || Fld.WSWP_STAT.state.get st != 0 ||
      Fld.WSWP_STAT.ready_epoch.get st != next || (j.read c Reg.WSWP_DIGEST).toNat != fieldOf j.req 24 8

/-- The first member with a mapped core that holds `next` in no copy. -/
def Job.uncopied (j : Job) : Option Nat :=
  let next := fieldOf j.req 8 4
  j.chips.find? fun c => (j.mappedOn c).any fun n =>
    let w := j.read c (Reg.WS_COPY n)
    Fld.WS_COPY.copy0_epoch.get w != next && Fld.WS_COPY.copy1_epoch.get w != next

/-- The arming writes: the other members, then the wharf, and its WSWP_SWITCH (R492). -/
def Job.armList (j : Job) : List Access :=
  let v : Word := Fld.WSWP_ARM.armed.set (Fld.WSWP_ARM.next.set 0 (fieldOf j.req 8 4)) 1
  ((j.chips.filter (· != 0)) ++ [0]).map (fun c => put1 c Reg.WSWP_ARM v) ++
    [put1 0 Reg.WSWP_SWITCH (BitVec.ofNat 64 (fieldOf j.req 0 8))]

/-- A phase of an arming ends; the code of a check of the loader is logged (R492, R553). -/
def State.armPhase (s : State) (j : Job) : State × Option Job :=
  let fail := fun (t : State) (code chip : Nat) => (t.respond j 0x41 code (t.swapBody 0 (t.nameOf chip)), (none : Option Job))
  if j.phase = 0 then
    match j.unready with
    | some c => fail (s.logErr { code := 0x6C02 }) 0x6C02 c
    | none =>
      if s.wMode = 1 then
        (s, some (j.next 1 (j.chips.flatMap fun c => (j.mappedOn c).map fun n => get1 c (Reg.WS_COPY n))))
      else (s, some (j.next 2 j.armList))
  else if j.phase = 1 then
    match j.uncopied with
    | some c => fail (s.logErr { code := 0x6C02 }) 0x6C02 c
    | none => (s, some (j.next 2 j.armList))
  else if j.phase = 2 then
    match j.bad with
    | some e =>
      let done := (j.fresh.filter fun g => g.1.addr == Reg.WSWP_ARM && g.2.1 == 0).map fun g => g.1.chip
      (s, some ({ j with keep := [e.2.1, e.1.chip] }.next 3 (toChips done Reg.WSWP_ARM 0)))
    | none => (s.modEngine fun e => { e with armed := some (j.sess, j.seq), switchAt := none }, none)
  else fail s (j.keep.getD 0 0) (j.keep.getD 1 0)

/-! ### Load and unload (R367, R368) -/

/-- The package of a LOAD, read from the wharf's hold. -/
def State.pkgBytes (s : State) (req : List Byte) : List Byte :=
  let a := fieldOf req 48 6
  s.bytes a (min (leNat (s.bytes (a + 16) 8)) (0x3000000000 - a))

/-- The package's address is one of a hold of the wharf, aligned (R367). -/
def State.pkgThere (s : State) (req : List Byte) : Bool :=
  let a := fieldOf req 48 6
  s.isHere (fieldOf req 54 2) && decide (0x1000000000 ≤ a) && decide (a + 64 ≤ 0x3000000000) && a % 64 == 0

/-- The loader reads the package: corrected lines are counted and rewritten, and an uncorrectable one is reported (R279, R280). -/
def State.readPkg (s : State) (a len : Nat) : State × Bool :=
  let t := s.useTables [(a, len)]
  (t, t.anyUe a len)

/-- The leader of the step domain (R402). -/
def State.leadChip (s : State) : Nat :=
  let lchip := s.get Reg.FABR_STEP_CFG Fld.FABR_STEP_CFG.lchip
  if s.get Reg.FABR_STEP_CFG Fld.FABR_STEP_CFG.leader = 1 ∨ s.isHere lchip then 0 else lchip

/-- The members of the step domain as its leader has them, this chip as 0 (R402). -/
def State.membersBy (s : State) (j : Job) : List Nat :=
  let l := (List.range 4096).filter fun c => (j.read s.leadChip (Reg.FABR_STEP_MEMBERS (c / 64))).toNat.testBit (c % 64)
  let l := l.map fun c => if s.isHere c then 0 else c
  if l.isEmpty then [0] else l

/-- CTX resets of chips: writes, then reads until each has ended (R546). -/
def ctxWrites (j : Job) (chips : List Nat) : List Access :=
  (chips.map fun c => put1 c Reg.DEV_RESET (Fld.DEV_RESET.ctx.set 0 1)) ++
  chips.map fun c =>
    let f := Fld.DEV_RESET_STAT.ctx_count
    poll c Reg.DEV_RESET_STAT f (min (f.get (j.read c Reg.DEV_RESET_STAT) + 1) (2 ^ f.width - 1))

/-- Answer LOAD_RESULT. A code of the loader's own checks is logged (R553). -/
def State.loadResult (s : State) (j : Job) (code detail chip : Nat) (log : Bool) : State :=
  let s := if log then s.logErr { code := code, aux := if code = 0x3021 ∨ code = 0x3024 then detail else 0 } else s
  let digest := j.keep.getD 0 0
  s.respond j 0x21 code (natLe 2 chip ++ natLe 4 0 ++ natLe 2 detail ++ natLe 8 digest)

/-- A refusal after the members' resets: each is reset again, then the refusal is answered (R368). -/
def State.loadUndo (s : State) (j : Job) (code detail chip : Nat) (log : Bool) : State × Option Job :=
  let s := if log then s.logErr { code := code } else s
  (s, some ({ j with keep := [j.keep.getD 0 0, code, detail, chip] }.next 90 (j.chips.map fun c => get1 c Reg.DEV_RESET_STAT)))

/-- Cores of a chip that are enabled and without an array fault (R361). -/
def Job.usable (j : Job) (c : Nat) : List Nat :=
  (List.range 256).filter fun n => (j.read c (Reg.DEV_CORE_MAP (n / 64))).toNat.testBit (n % 64) &&
    Fld.ARRAY_FAULT.valid.get (j.read c (Reg.ARRAY_FAULT n)) == 0

/-- Cores of a chip that are enabled. -/
def Job.enabledOn (j : Job) (c : Nat) : List Nat :=
  (List.range 256).filter fun n => (j.read c (Reg.DEV_CORE_MAP (n / 64))).toNat.testBit (n % 64)

/-- Chips of the fabric with a route from some member. -/
def Job.routed (j : Job) : List Nat :=
  (List.range 4096).filter fun d => j.chips.any fun c => rtValid.get (j.read c (0x400800000 + 8 * d)) == 1

/-- Step 4 for members from number `i` on: the space in use and the writes, or code, detail and chip. -/
def planMembers (b : List Byte) (lib digest : Nat) (strict : Bool) (j : Job) (self : Nat) : List Nat → Nat → Used → List Access →
    Sum (Nat × Nat × Nat) (Used × List Access)
  | [], _, u, acc => .inr (u, acc)
  | c :: t, i, u, acc =>
    match mapGrid (pkgVgrid b) (pkgXbar b) (j.usable c) with
    | none => .inl (0x3022, 0, c)
    | some m =>
      let pre : Used := (ofType b 4 i).map fun x => (c, coreBase (physOf m x.vcore) + x.target, x.len)
      match placeAllRegions j.read c self j.routed (1024 * pkgSlice b) m (regionsOf b i) 0 (pre ++ u) [] with
      | (_, .inl r) => .inl (0x3023, r, c)
      | (u, .inr ps) => planMembers b lib digest strict j self t (i + 1) u (acc ++ memberWrites b lib digest strict self i c m ps)

/-- The writes of steps 6 to 8. -/
def Job.runWrites (j : Job) (strict : Bool) : List Access :=
  let start := fieldOf j.req 40 8
  (if start = 0 then [] else toChips j.chips Reg.FABR_STEP (BitVec.ofNat 64 (start - 1))) ++
  (j.chips.flatMap fun c => (j.mappedOn c).map fun n => put1 c (Reg.CORE_CTRL n) 1) ++
  (if (fieldOf j.req 32 2).testBit 1 then toChips j.chips Reg.DTRM_CTRL (if strict then 3 else 2) else [])

/-- The reads by which step 5 judges each member. -/
def Job.weightReads (j : Job) : List Access :=
  j.chips.flatMap fun c => [get1 c Reg.WSWP_STAT, get1 c Reg.WSWP_CTRL, get1 c Reg.WSWP_EPOCH, get1 c Reg.DTRM_GRID] ++
    (List.range 32).map fun k => get1 c (Reg.DTRM_VMAP k)

/-- A member whose weights are not those that LOAD asks for (R368 step 5). -/
def Job.weightsWrong (j : Job) : Option Nat :=
  let e := fieldOf j.req 36 4
  j.chips.find? fun c =>
    if e ≠ 0 then Fld.WSWP_STAT.ready_epoch.get (j.read c Reg.WSWP_STAT) != e
    else
      let held := Fld.WSWP_EPOCH.epoch.get (j.read c Reg.WSWP_EPOCH)
      held == 0 || (j.mappedOn c).any fun n =>
        let w := j.read c (Reg.WS_COPY n)
        Fld.WS_COPY.copy0_epoch.get w != held && Fld.WS_COPY.copy1_epoch.get w != held

/-- A phase of a LOAD ends (R368). -/
def State.loadPhase (s : State) (j : Job) : State × Option Job :=
  let b := s.pkgBytes j.req
  let digest := j.keep.getD 0 0
  let strict := (fieldOf j.req 32 2).testBit 0
  let e := fieldOf j.req 36 4
  if j.phase = 0 then
    -- step 1
    if !s.pkgThere j.req then (s.loadResult j 0x3025 0 0 true, none)
    else
      let (t, bad) := s.readPkg (fieldOf j.req 48 6) b.length
      if bad then (t.loadResult j 0x3025 0 0 true, none)
      else
        let lead := t.leadChip
        (t, some ({ j with keep := [leNat ((sha3 b).take 8)] }.next 11
          (get1 lead Reg.FABR_STEP_CFG :: (List.range 64).map fun w => get1 lead (Reg.FABR_STEP_MEMBERS w))))
  else if j.phase = 11 then
    match j.bad with
    | some x => (s.loadResult j x.2.1 0 x.1.chip false, none)
    | none =>
      let j := { j with chips := s.membersBy j }
      match pkgFault b (Fld.FABR_STEP_CFG.members.get (j.read s.leadChip Reg.FABR_STEP_CFG)) (fieldOf j.req 56 8) with
      | some x => (s.loadResult j 0x3025 x 0 true, none)
      | none => (s, some (j.next 10 (j.chips.flatMap fun c =>
          get1 c Reg.DEV_RESET_STAT :: (List.range 64).map fun k => get1 c (Reg.DTRM_LAT k))))
  else if j.phase = 10 then
    -- step 2
    match j.bad with
    | some x => (s.loadResult j x.2.1 0 x.1.chip false, none)
    | none =>
      match declFault b (fun c k => Fld.DTRM_LAT.native.get (j.read c (Reg.DTRM_LAT k))) j.chips with
      | some f => (s.loadResult j f.1 f.2.1 f.2.2 true, none)
      | none => ((s.startAbort []).1, some (j.next 1 (ctxWrites j j.chips)))
  else if j.phase = 1 then
    -- step 3 has ended
    match j.bad with
    | some x => s.loadUndo j x.2.1 0 x.1.chip false
    | none => (s, some (j.next 2 (j.chips.flatMap fun c => (List.range 4).map (fun w => get1 c (Reg.DEV_CORE_MAP w)) ++
        spaceRegs.map (get1 c))))
  else if j.phase = 2 then
    match j.bad with
    | some x => s.loadUndo j x.2.1 0 x.1.chip false
    | none => (s, some (j.next 3 ((j.chips.flatMap fun c => (j.enabledOn c).map fun n => get1 c (Reg.ARRAY_FAULT n)) ++
        (j.chips.flatMap fun c => (List.range 4096).map fun d => get1 c (0x400800000 + 8 * d)))))
  else if j.phase = 3 then
    match j.bad with
    | some x => s.loadUndo j x.2.1 0 x.1.chip false
    | none => (s, some (j.next 4 ((j.routed.filter fun d => !j.chips.contains d && d != s.chipAddr).flatMap fun d =>
        [get1 d (Reg.FABR_LEND 0), get1 d (Reg.FABR_LEND 1)])))
  else if j.phase = 4 then
    -- step 4
    let own : Used := [(0, fieldOf j.req 48 6, b.length)]
    let u := own ++ j.chips.flatMap fun c => spaceOf j.read c (1024 * pkgSlice b)
    match planMembers b s.libMark digest strict j s.chipAddr j.chips 0 u [] with
    | .inl (code, detail, c) => s.loadUndo j code detail c true
    | .inr (u, ws) =>
      let u := u ++ j.chips.flatMap (lentBy j.read)
      (s, some (j.next 5 (ws ++ s.tableWrites b ++ s.mapWrites b ++ s.poolWrites j.chips u)))
  else if j.phase = 5 then
    match j.bad with
    | some x => s.loadUndo j x.2.1 0 x.1.chip false
    | none => (s, some (j.next 6 j.weightReads))
  else if j.phase = 6 then
    match j.bad with
    | some x => s.loadUndo j x.2.1 0 x.1.chip false
    | none =>
      if e = 0 then (s, some (j.next 7 (j.chips.flatMap fun c => (j.mappedOn c).map fun n => get1 c (Reg.WS_COPY n))))
      else (s, some (j.next 8 ((j.chips.map fun c =>
            put1 c Reg.WSWP_CTRL (Fld.WSWP_CTRL.load.set (j.read c Reg.WSWP_CTRL) 1)) ++
            j.chips.map fun c => poll c Reg.WSWP_STAT Fld.WSWP_STAT.state 0)))
  else if j.phase = 7 then
    match j.bad, j.weightsWrong with
    | some x, _ => s.loadUndo j x.2.1 0 x.1.chip false
    | none, some c => s.loadUndo j 0x6C02 0 c true
    | none, none => (s, some (j.next 9 (j.runWrites strict)))
  else if j.phase = 8 then
    match j.bad with
    | some x => s.loadUndo j x.2.1 0 x.1.chip false
    | none => (s, some (j.next 12 (j.chips.map fun c => get1 c Reg.WSWP_STAT)))
  else if j.phase = 12 then
    match j.bad, j.weightsWrong with
    | some x, _ => s.loadUndo j x.2.1 0 x.1.chip false
    | none, some c => s.loadUndo j 0x6C02 0 c true
    | none, none => (s, some (j.next 9 (j.runWrites strict)))
  else if j.phase = 9 then
    match j.bad with
    | some x => s.loadUndo j x.2.1 0 x.1.chip false
    | none => (s.loadResult j 0 0 0 false, none)
  else if j.phase = 90 then (s, some (j.next 91 (ctxWrites j j.chips)))
  else (s.loadResult j (j.keep.getD 1 0) (j.keep.getD 2 0) (j.keep.getD 3 0) false, none)

/-! ### Discovery (R390 steps 5 to 7) -/

/-- Length of the path that two routes share. -/
def shared : List Nat → List Nat → Nat
  | a :: t, b :: u => if a = b then shared t u + 1 else 0
  | _, _ => 0

/-- The port by which a chip reaches another along the paths from the manager, and the hops. -/
def pathPort (x y : Found) : Nat × Nat :=
  let k := shared x.route y.route
  (if k = x.route.length then y.route.getD k 0 else x.port, x.route.length + y.route.length - 2 * k)

/-- Both banks' route entry of a chip on another. -/
def routeWrites (chip addr : Nat) (w : Word) : List Access :=
  [put1 chip (0x400800000 + 8 * addr) w, put1 chip (0x400808000 + 8 * addr) w]

/-- The manager among the chips it has found. -/
def State.mgrFound (s : State) : Found := { serial := s.reg Reg.DEV_SERIAL, addr := s.chipAddr, route := [], port := 0 }

/-- The chip that a job brings into the fabric, and the chip before it. -/
def State.newChip (s : State) (j : Job) : Found :=
  (s.fabric.found.find? fun f => f.addr == j.keep.headD 0).getD s.mgrFound
def State.chipBefore (s : State) (n : Found) : Found :=
  (s.fabric.found.find? fun f => f.route == n.route.dropLast).getD s.mgrFound

/-- Name of a found chip in an access: 0 is this chip. -/
def State.asChip (s : State) (f : Found) : Nat := if f.addr = s.chipAddr then 0 else f.addr

/-- The port map word of the new chip's port toward the chip before it: as wide, over the partner lanes, ACTIVE. -/
def Job.mapOfNew (j : Job) (p q : Nat) : Word :=
  let m := j.read p (Reg.TOWL_PORT_MAP q)
  let ls := (mapLanes m).map fun l => Fld.TOWL_LANE_STAT.partner_lane.get (j.read p (Reg.TOWL_LANE_STAT l))
  Fld.TOWL_PORT_MAP.active.set (Fld.TOWL_PORT_MAP.base.set m (ls.foldl min (ls.headD 0))) 1

/-- The writes that bring the new chip into the fabric: the ports between it and the chip before it ACTIVE, its route entries, and those
of it on the chips addressed before (R390 step 5). -/
def State.joinWrites (s : State) (j : Job) : List Access :=
  let n := s.newChip j
  let p := s.asChip (s.chipBefore n)
  let q := n.route.getLastD 0
  let others := s.mgrFound :: s.fabric.found.filter fun f => f.addr != n.addr
  let entry := fun (x y : Found) => routeEntry (pathPort x y).1 (pathPort x y).2
  [put1 p (Reg.TOWL_PORT_MAP q) (Fld.TOWL_PORT_MAP.active.set (j.read p (Reg.TOWL_PORT_MAP q)) 1)] ++
  others.flatMap (fun x => routeWrites (s.asChip x) n.addr (entry x n)) ++
  [put1 n.addr (Reg.TOWL_PORT_MAP n.port) (j.mapOfNew p q)] ++
  routeWrites n.addr n.addr (rtSelf.set (routeEntry 0 0) 1) ++
  others.flatMap fun x => routeWrites n.addr x.addr (entry n x)

/-- The first epoch is armed on every chip, this one last (R390 step 7, R399). -/
def State.epochWrites (s : State) : List Access :=
  let w : Word := Fld.FABR_EPOCH_NEXT.armed.set (Fld.FABR_EPOCH_NEXT.next.set 0 1) 1
  (s.fabric.found.map fun f => put1 f.addr Reg.FABR_EPOCH_NEXT w) ++ [put1 0 Reg.FABR_EPOCH_NEXT w]

/-- The probes of the new chip's other linked ports. -/
def State.growScouts (s : State) (j : Job) : List Scout :=
  let n := s.newChip j
  if 14 ≤ n.route.length then []
  else ((List.range 48).filter fun q => q != n.port && (j.keep.getD 1 0).testBit q).map fun q => { route := n.route ++ [q] }

/-- A phase of a chip's joining ends. -/
def State.discoverPhase (s : State) (j : Job) : State × Option Job :=
  let n := s.newChip j
  let p := s.asChip (s.chipBefore n)
  let q := n.route.getLastD 0
  if j.phase = 0 then
    (s, some (j.next 1 ((mapLanes (j.read p (Reg.TOWL_PORT_MAP q))).map fun l => get1 p (Reg.TOWL_LANE_STAT l))))
  else if j.phase = 1 then (s, some (j.next 2 (s.joinWrites j)))
  else if j.phase = 2 then
    let t := (s.addScouts (s.growScouts j)).scoutDone
    if t.fabric.scouts.isEmpty ∧ t.get Reg.FABR_EPOCH Fld.FABR_EPOCH.epoch = 0 then (t, some (j.next 3 t.epochWrites)) else (t, none)
  else (s, none)

/-- The answer to an ASSIGN: the chip is found, and a job brings it into the fabric; refused, it is left (R390). -/
def State.assigned (s : State) (x : Scout) (msg : ProbeReplyMsg) : State :=
  if msg.result ≠ 0 then s.scoutDone
  else
    let n : Found := { serial := msg.serial, addr := x.addr, route := x.route, port := hopAt msg.ret x.route.length }
    let f := s.fabric
    let s := { s with fabric := { f with found := (f.found.filter fun (y : Found) => y.addr != x.addr) ++ [n] } }
    s.addJob .discover 0 0 0 [] [] [get1 (s.asChip (s.chipBefore n)) (Reg.TOWL_PORT_MAP (x.route.getLastD 0))]
      [x.addr, msg.linked.toNat]

/-- PROBE_REPLY (R389, R390): one hop back along ret, or, at the manager that waits for it, the next step of discovery. -/
def execProbeReply (p : Fin 48) (msg : ProbeReplyMsg) (s : State) : Out :=
  if s.awaits p msg then
    match s.fabric.scouts with
    | x :: _ => .next (if x.addr = 0 then s.identified x msg else s.assigned x msg)
    | [] => .next s
  else .next (s.replyOn p msg)

/-! ### The end of a phase -/

/-- The accesses of a phase are done: the job's next phase, or none where it has ended. -/
def State.phaseEnd (s : State) (j : Job) : State × Option Job :=
  match j.kind with
  | .regs =>
    let s := s.respond j 0x12 0 j.regResult
    (if j.disarmed then (s.startAbort []).1 else s, none)
  | .idleSet => (s.respond j 0x50 (if j.bad.isSome then 0x3A05 else 0) [], none)
  | .capture =>
    let ws := if j.phase = 0 then j.armWrites else []
    if ws.isEmpty then (s.respond j 0x60 j.firstBad [], none) else (s, some (j.next 1 ws))
  | .test =>
    if j.phase = 0 then
      let up := (j.fresh.filter fun e => e.2.1 == 0 || e.2.1 == 0x3E02).map fun e => e.1.chip
      (s, some (j.next 1 (up.map fun c => poll c Reg.TEST_STAT Fld.TEST_STAT.state 0)))
    else (s.respondParts j.sess j.seq j.handle 0x52 j.firstBad 16 (j.chips.flatMap (s.testRecord j)), none)
  | .attest =>
    let c := j.chips.headD 0
    match j.bad with
    | some x => (s.respond j 0x71 x.2.1 [], none)
    | none =>
      let n := Fld.LIMS_BUDGETS.journal.get (j.read c Reg.LIMS_BUDGETS)
      if j.phase = 0 ∧ n ≠ 0 ∧ fieldOf j.req 34 1 = 0 then
        (s, some (j.next 1 [get1 c (Reg.LIMS_JOURNAL (n - 1) 2), get1 c (Reg.LIMS_JOURNAL (n - 1) 3)]))
      else (s.attestOther j c, none)
  | .arm => s.armPhase j
  | .disarm =>
    let s := s.respond j 0x41 0x6C01 (s.swapBody 0 0)
    match j.keep with
    | [sess, seq, handle] => (s.sendMsg sess 0x41 0 handle 0 (s.swapBody 0 0) (some seq), none)
    | _ => (s, none)
  | .load => s.loadPhase j
  | .unload =>
    if j.phase = 0 then ((s.startAbort []).1, some (j.next 1 (ctxWrites j j.chips)))
    else (s.respond j 0x22 j.firstBad [], none)
  | .pages => (s, none)
  | .discover => s.discoverPhase j
  | .order => s.orderPhase j

/-- A job runs until it waits or ends. -/
def State.runJob (s : State) : Nat → Job → State × Option Job
  | 0, j => (s, some j)
  | n + 1, j =>
    let (t, j) := s.goOn j
    if j.todo.isEmpty then
      match t.phaseEnd j with
      | (t, none) => (t, none)
      | (t, some j) => (t.setJob j).runJob n j
    else (t, some j)

/-- A LOAD or UNLOAD waits for one that is being acted on (R367), and a change order for an earlier one (R539). -/
def State.waitsTurn (s : State) (j : Job) : Bool :=
  let loads := fun (k : JobKind) => k == .load || k == .unload
  s.host.jobs.any fun x => decide (x.id < j.id) && ((loads j.kind && loads x.kind) || (j.kind == .order && x.kind == .order))

/-- One turn of the wharfinger's firmware: every job in order goes on as far as it can. -/
def State.pump (s : State) : State :=
  if !s.host.up then s
  else (s.host.jobs.map (·.id)).foldl (fun (t : State) i =>
    match t.host.jobs.find? fun x => x.id == i with
    | none => t
    | some j =>
      if t.waitsTurn j then t
      else match t.runJob 16 j with
        | (u, some j') => u.setJob j'
        | (u, none) => { u with host := { u.host with jobs := u.host.jobs.filter fun x => x.id != i } }) s

end Sys2Proof.Machine
end

