-- ==== Sys2Proof/Machine/Towpath.lean ====
section
/-! DEFINITION. Towpath messages on a wharf (R427 to R434), the message types (R433), SENDs of session-bound queue pairs (R440), and
the acknowledgements of this device's own RoCEv2 requests (R439, R447, R458). -/

namespace Sys2Proof.Machine

/-! ### Sessions (R429 to R432) -/

/-- An address lies in the control list: a leading part of a given length agrees (R430, R532). -/
def State.mayControl (s : State) (ip : BitVec 128) : Bool :=
  s.host.control.any fun p => p.2 == 0 || ip.toNat / 2 ^ (128 - p.2) == p.1.toNat / 2 ^ (128 - p.2)

/-- Answer an OPEN that opens nothing: session 0 and a status (R422, R429, R430). -/
def State.refuseOpen (s : State) (d : Datagram) (status : Nat) : State :=
  s.sendUdp d.ifc.val d.src d.sport.toNat (msgBytes 2 5 0 0 1 (msgHandle d) status [])

/-- Lowest session slot in no use (R454). -/
def State.freeSlotNo (s : State) : Nat :=
  ((List.range 256).find? fun k => !(s.host.sessions.any fun x => x.2.slot == k)).getD 0

/-- An OPEN (R429, R430, R440). -/
def State.openIn (s : State) (d : Datagram) : State :=
  let p := msgPayload d
  let cls := fieldOf p 0 1
  let q := fieldOf p 4 4
  if 1 < cls ∨ (cls = 0 ∧ !s.mayControl d.src) then s.refuseOpen d 0x3A04
  else if 256 ≤ s.host.sessions.length then s.refuseOpen d 0x3A02
  else if q ≠ 0xFFFFFFFF ∧ (!s.qpReady q ∨ s.qpField q 24 1 ≠ 2) then s.refuseOpen d 0x3A04
  else
    let id := s.freshId
    let x : Session := {
      id := id, slot := s.freeSlotNo, src := d.src, sport := d.sport.toNat, ifc := d.ifc.val, cls := cls
      qp := if q = 0xFFFFFFFF then none else some q, keepMs := max 10 (min 10000 (fieldOf p 2 2)), next := 2, lastRx := s.now, arrived := [(1, d.ifc.val)]
      keepAt := s.now, evNext := s.diag.eventBase }
    let s := { s with host := { s.host with nextId := (id + 1) % 2 ^ 32 } }
    (s.setSess x).countSessions.sendMsg id 2 0 (msgHandle d) 0 [] (some 1)

/-- A session ends: its frame-mode requests are cancelled (R432). -/
def State.endSession (s : State) (id : Nat) : State := (s.cancelOwned id).dropSession id

/-- A session is lost (R432). -/
def State.loseSession (s : State) (id : Nat) : State := (s.endSession id).logErr { code := 0x5A04 }

/-! ### What a message does (R430, R433) -/

/-- Types that a host sends; other defined types go the other way. -/
def hostTypes : List Nat :=
  [1, 3, 4, 5, 0x10, 0x11, 0x20, 0x22, 0x30, 0x31, 0x32, 0x33, 0x36, 0x37, 0x38, 0x40, 0x50, 0x51, 0x60, 0x70, 0x72]
def deviceTypes : List Nat := [2, 0x12, 0x21, 0x34, 0x35, 0x41, 0x52, 0x61, 0x71, 0x73]

/-- Type of the response to a type (log entry 25). -/
def responseType (ty : Nat) : Nat :=
  if ty = 1 then 2 else if ty = 0x10 ∨ ty = 0x11 then 0x12 else if ty = 0x20 then 0x21
  else if ty = 0x30 ∨ ty = 0x31 ∨ ty = 0x32 ∨ ty = 0x33 ∨ ty = 0x38 then 0x34
  else if ty = 0x40 then 0x41 else if ty = 0x51 then 0x52 else if ty = 0x70 then 0x71 else if ty = 0x72 then 0x73 else ty

/-- A session of a class may send a type (R430). -/
def classMay (cls ty : Nat) : Bool :=
  hostTypes.contains ty && (cls == 0 || ty ≤ 5 || (decide (0x30 ≤ ty) && decide (ty ≤ 0x38)))

/-- The accesses that a register list asks for (R434). -/
def regList (write : Bool) (p : List Byte) : List Access :=
  (List.range (p.length / 16)).map fun i =>
    let e := p.drop (16 * i)
    { chip := fieldOf e 6 2, addr := fieldOf e 0 6, val := if write then some (wordOf e 1) else none }

/-- The effect of a PROMPT or a CANCEL on its request; a QUERY has none. -/
def State.requestEffect (s : State) (ty i : Nat) (p : List Byte) : State × Nat :=
  if ty = 0x31 then s.promptIn i p else if ty = 0x32 then (s.cancelIn i, 0) else (s, 0)

/-- PROMPT, CANCEL and QUERY name a request (R453, R467, R475, R480). -/
def State.onRequest (s : State) (id seq handle ty : Nat) (p : List Byte) : State :=
  match s.findReq handle with
  | none => s.sendMsg id 0x34 0 handle 0x6B08 [] (some seq)
  | some i =>
    let r := s.requestEffect ty i p
    r.1.sendMsg id 0x34 0 handle r.2 (r.1.reqStatus i) (some seq)

/-- Lowest ring context in no use (R445). -/
def State.freeRing (s : State) : Option Nat :=
  (List.range (min 8192 (s.get Reg.STRM_RING Fld.STRM_RING.count))).find? fun k => (s.ring k).isNone

/-- RING_OPEN (R445). A request in frame mode, or bound already, is refused with 0x6B09 (log entry 25). -/
def State.ringOpenIn (s : State) (p : List Byte) : State × Nat :=
  let qp := fieldOf p 12 2
  match s.findReq (fieldOf p 16 4) with
  | none => (s, 0x6B08)
  | some i =>
    if s.get Reg.ENET_QP Fld.ENET_QP.count ≤ qp ∨ s.qpField qp 24 1 ≠ 1 then (s, 0x3A04)
    else if s.led i Led.stream ≠ 1 ∨ s.led i Led.ring ≠ 0xFFFF then (s, 0x6B09)
    else match s.freeRing with
      | none => (s.logErr { code := 0x6B05, info := s.handleOf i }, 0x6B05)
      | some k =>
        let base := 65536 * s.get Reg.STRM_RING Fld.STRM_RING.base + 32 * k
        let s := s.wakeForHold.tableStore base ((p ++ List.replicate 32 0).take 32)
        let s := (s.setRing k { idx := i }).setLed i Led.ring k
        (s.put Reg.STRM_STAT Fld.STRM_STAT.rings s.host.rings.length, 0)

/-- The device's copy of a ring's consumer count: never back, never above the producer count (R447). -/
def State.setConsumed (s : State) (i c : Nat) : State :=
  let k := s.led i Led.ring
  match s.ring k with
  | none => s
  | some r => if r.idx = i ∧ r.cons ≤ c ∧ c ≤ r.prod then s.setRing k { r with cons := c } else s

/-- RING_CREDIT (R447). -/
def State.creditIn (s : State) (p : List Byte) : State × Nat :=
  match s.findReq (fieldOf p 0 4) with
  | none => (s, 0x6B08)
  | some i => (s.setConsumed i (fieldOf p 8 8), 0)

/-- WSWP_ARM by its op (R491, R492, R497, R499); a refusal is logged (R553). -/
def State.swapIn (s : State) (id seq handle : Nat) (p : List Byte) : State :=
  let op := fieldOf p 12 1
  let answer := fun (t : State) (st : Nat) =>
    (if st = 0 then t else t.logErr { code := st }).sendMsg id 0x41 0 handle st (t.swapBody 0 0) (some seq)
  if op = 0 then
    if s.armBusy then answer s 0x6C02
    else
      let reads := fun (c : Nat) => [get1 c Reg.WSWP_STAT, get1 c Reg.WSWP_DIGEST] ++
        (if s.wMode = 1 then get1 c Reg.DTRM_GRID :: (List.range 32).map fun k => get1 c (Reg.DTRM_VMAP k) else [])
      s.addJob .arm id seq handle p s.members (s.members.flatMap reads)
  else if op = 1 then
    match s.startAbort [id, seq, handle] with
    | (t, true) => t
    | (t, false) => answer t 0x6C02
  else if op = 2 then
    let s := s.recountPins
    if s.get Reg.WSWP_STAT Fld.WSWP_STAT.pinned_old = 0 then answer s 0
    else s.modEngine fun e => { e with unpin := e.unpin ++ [(id, seq)], unpinNext := true }
  else answer s 0x6C02

/-- A change order, joined from its parts: for this chip's tollhouse, or for another's of the group (R539, R542). -/
def State.orderMsg (s : State) (id seq handle : Nat) (more : Bool) (p : List Byte) : State :=
  match s.sess id with
  | none => s
  | some x =>
    if more then s.setSess { x with parts := x.parts ++ p }
    else
      let s := s.setSess { x with parts := [] }
      let o := x.parts ++ p
      let serial := fieldOf o 8 8
      let others := s.members.filter fun c => !s.isHere c
      if o.length = 3504 ∧ serial ≠ (s.reg Reg.DEV_SERIAL).toNat ∧ serial ≠ 0 ∧ !others.isEmpty then
        s.addJob .order id seq handle o others (others.map fun c => get1 c Reg.DEV_SERIAL)
      else
        let (t, st, pay) := s.orderIn o none s.toll.keys
        t.sendMsg id 0x73 0 handle st pay (some seq)

/-- ATTEST_REQ: this chip's tollhouse, or another's by its registers (R536, R537). -/
def State.attestIn (s : State) (id seq handle : Nat) (p : List Byte) : State :=
  let chip := fieldOf p 32 2
  let ident := fieldOf p 34 1 = 1
  if s.isHere chip then s.respondParts id seq handle 0x71 0 1 (if ident then s.identity else s.report (p.take 32))
  else s.addJob .attest id seq handle p [chip] (if ident then [get1 chip Reg.DEV_SERIAL] else reportRegs.map (get1 chip))

/-- CAPTURE: fire, or arm at a time (R562). -/
def State.captureIn (s : State) (id seq handle : Nat) (p : List Byte) : State :=
  let cs := s.targets (fieldOf p 0 2)
  if fieldOf p 2 1 = 0 then s.addJob .capture id seq handle p cs (cs.map fun c => { chip := c, addr := Reg.SNAP_ARM, fire := true })
  else if fieldOf p 2 1 = 1 then
    s.addJob .capture id seq handle p cs (cs.flatMap fun c => [put1 c Reg.SNAP_TIME (wordOf p 1), get1 c Reg.SNAP_ARM])
  else s.sendMsg id 0x60 0 handle 0x3A05 [] (some seq)

/-- TEST_REQ on the chips named (R567). -/
def State.testIn (s : State) (id seq handle : Nat) (p : List Byte) : State :=
  let cs := s.targets (fieldOf p 0 2)
  let v : Word := Fld.TEST_REQ.go.set (Fld.TEST_REQ.test.set (Fld.TEST_REQ.port.set (Fld.TEST_REQ.timeout_ms.set 0
    (fieldOf p 4 4)) (fieldOf p 3 1)) (fieldOf p 2 1)) 1
  s.addJob .test id seq handle p cs (cs.map fun c => put1 c Reg.TEST_REQ v)

/-- A message of the serving engine has it read its tables, and the tenant that a SUBMIT or a TENANT_SET names (R264, R279). -/
def State.actTables (s : State) (ty : Nat) (p : List Byte) : State :=
  if !s.serving ∨ ty < 0x30 ∨ 0x38 < ty then s
  else s.useTables (s.tables ++ if ty = 0x30 then [(s.tenAt (fieldOf p 14 2) 0, 32)]
    else if ty = 0x38 then [(s.tenAt (fieldOf p 0 2) 0, 32)] else [])

/-- Act on a message of a session: type, flags, number, handle, payload. -/
def State.act (s : State) (x : Session) (ty flags seq handle : Nat) (p : List Byte) : State :=
  let id := x.id
  let s := s.actTables ty p
  let answer := fun (t : State) (st : Nat) (pay : List Byte) => t.sendMsg id (responseType ty) 0 handle st pay (some seq)
  if !hostTypes.contains ty ∧ !deviceTypes.contains ty then answer s 0x3A03 []
  else if !classMay x.cls ty then answer s 0x3A04 []
  else if ty = 1 then answer s 0x3A04 []
  else if ty = 3 then (answer s 0 []).endSession id
  else if ty = 0x10 ∨ ty = 0x11 then
    let l := regList (ty == 0x11) p
    if l.isEmpty ∨ 32 < l.length ∨ p.length % 16 ≠ 0 then answer s 0x3A05 []
    else s.addJob .regs id seq handle p [] l
  else if ty = 0x20 then s.addJob .load id seq handle p [] []
  else if ty = 0x22 then s.addJob .unload id seq handle p s.members (s.members.map fun c => get1 c Reg.DEV_RESET_STAT)
  else if ty = 0x30 then
    match s.submitIn id seq p with
    | (t, some (st, h, pay)) => t.sendMsg id 0x34 0 h st pay (some seq)
    | (t, none) => t
  else if ty = 0x31 then s.onRequest id seq handle ty p
  else if ty = 0x32 then
    if s.serving ∧ s.replaying then answer s 0x3A04 []
    else s.onRequest id seq handle ty p
  else if ty = 0x33 then s.onRequest id seq handle ty p
  else if ty = 0x36 then (let (t, st) := s.ringOpenIn p; answer t st [])
  else if ty = 0x37 then (let (t, st) := s.creditIn p; answer t st [])
  else if ty = 0x38 then (let (t, st, _, pay) := s.tenantIn p; answer t st pay)
  else if ty = 0x40 then s.swapIn id seq handle p
  else if ty = 0x50 then
    let cs := s.targets (fieldOf p 8 2)
    s.addJob .idleSet id seq handle p cs (toChips cs Reg.IDLE_BUDGET_NS (wordOf p 0))
  else if ty = 0x51 then s.testIn id seq handle p
  else if ty = 0x60 then s.captureIn id seq handle p
  else if ty = 0x70 then s.attestIn id seq handle p
  else s.orderMsg id seq handle (flags / 2 % 2 == 1) p

/-! ### Order (R431) -/

/-- Act on the message that is next in its session; its answer goes by the interface it came by (R422). -/
def State.deliver (s : State) (id ifc : Nat) (b : List Byte) : State :=
  match s.sess id with
  | none => s
  | some x =>
    let seq := fieldOf b 8 4
    let x := { x with
      next := (x.next + 1) % 2 ^ 32, ackOwed := if x.ackOwed.isSome then x.ackOwed else some s.now
      arrived := x.arrived ++ [(seq, ifc)] }
    (s.setSess x).act x (fieldOf b 4 2) (fieldOf b 3 1) seq (fieldOf b 16 4) (b.drop 32)

/-- Act on the messages held that now follow. -/
def State.drainHeld (s : State) (id : Nat) : Nat → State
  | 0 => s
  | n + 1 =>
    match s.sess id with
    | none => s
    | some x =>
      match x.held.find? fun h => h.1 == x.next with
      | none => s
      | some h => ((s.setSess { x with held := x.held.filter fun k => k.1 != h.1 }).deliver id h.2.1 h.2.2).drainHeld id n

/-- A response is sent again, by the interface of the message that it answers (R422, R431, R452), where it fits that (R427). -/
def State.resendTo (s : State) (x : Session) (ifc : Nat) (m : SentMsg) : State :=
  if !s.fits x ifc m then s
  else (s.addSat Reg.STRM_STAT Fld.STRM_STAT.resends 1).sendKept x { m with ifc := some ifc }

/-- A numbered message: acted on, held, answered again or discarded. -/
def State.numbered (s : State) (x : Session) (ifc : Nat) (b : List Byte) : State :=
  let seq := fieldOf b 8 4
  let d := (seq + 2 ^ 32 - x.next) % 2 ^ 32
  if d = 0 then (s.deliver x.id ifc b).drainHeld x.id 65
  else if d ≤ 64 then
    if x.held.any fun h => h.1 == seq then s else s.setSess { x with held := x.held ++ [(seq, ifc, b)] }
  else if 2 ^ 32 - 64 ≤ d then
    match x.cache.filter fun c => c.1 == seq with
    | [] => s.sendBare x.id 4
    | l => l.foldl (fun (t : State) c => t.resendTo x ifc c.2) s
  else s

/-- Finals that the other end has acknowledged (R458). -/
def State.noteFinals (s : State) (hs : List Nat) : State :=
  let is := hs.filterMap s.findReq
  s.modEngine fun e => { e with acked := e.acked ++ is }

/-- A message of an open session, whose header is sound. -/
def State.sessionIn (s : State) (x : Session) (ifc : Nat) (b : List Byte) : State :=
  let s := s.setSess { x with lastRx := s.now, ifc := ifc }
  let (s, fin) := s.ackUpTo x.id (fieldOf b 20 4)
  let s := s.noteFinals fin
  let ty := fieldOf b 4 2
  match s.sess x.id with
  | none => s
  | some x => if ty = 4 ∨ ty = 5 then s else s.numbered x ifc b

/-- A message is one that this interface can carry: a sound header, and a payload within the limit (R427, R428). -/
def State.msgOk (s : State) (d : Datagram) : Bool := msgSound d && decide ((msgPayload d).length ≤ s.maxPayload d.ifc.val)

/-- A datagram for the towpath port (R421, R423, R428, R441), taken once the device is Ready (R528). An OPEN is the message 1 of the session
it opens. -/
def State.datagramIn (s : State) (d : Datagram) : State :=
  let i := d.ifc.val
  if !s.frameIn i d.tag ∨ !s.host.up ∨ s.phase ≠ 7 then s
  else if !s.isWharf then s.addSat (Reg.ENET_PORT_STAT (i / 4)) Fld.ENET_PORT_STAT.tp_drops 1
  else if s.rxFull i (tagPrio d.tag) ∨ !s.msgOk d then s.rxDrop i
  else if msgType d = 1 ∧ msgSession d = 0 then (if msgSeq d = 1 then s.openIn d else s)
  else match s.sessionOf d with
    | none => s.rxDrop i
    | some x => s.sessionIn x i d.bytes

/-- A message that has landed in a queue pair's receive region is read by the firmware: of the session that its header names, bound to that
queue pair (R428, R440). -/
def State.sendIn (s : State) (n ifc : Nat) (b : List Byte) : State :=
  let d : Datagram := { ifc := ⟨ifc % 8, Nat.mod_lt _ (by decide)⟩, src := 0, sport := 0, bytes := b, tag := none }
  match s.sess (msgSession d) with
  | some x => if x.qp = some n ∧ s.msgOk d then s.sessionIn x ifc b else s.rxDrop ifc
  | none => s.rxDrop ifc

/-- A datagram of one type, then the firmware's turn. -/
def State.onType (s : State) (ok : Bool) (d : Datagram) : State := if ok then (s.datagramIn d).pump else s

/-- OPEN_SESSION (R429). -/
def execOpenSession (d : Datagram) (s : State) : Out := .next (s.onType (msgType d == 1) d)

/-- CLOSE_SESSION (R432). -/
def execCloseSession (d : Datagram) (s : State) : Out := .next (s.onType (msgType d == 3) d)

/-- ACK_MESSAGE (R431). -/
def execAckMessage (d : Datagram) (s : State) : Out := .next (s.onType (msgType d == 4) d)

/-- KEEPALIVE (R432). -/
def execKeepalive (d : Datagram) (s : State) : Out := .next (s.onType (msgType d == 5) d)

/-- REG_READ (R434). -/
def execRegRead (d : Datagram) (s : State) : Out := .next (s.onType (msgType d == 0x10) d)

/-- REG_WRITE (R434). -/
def execRegWrite (d : Datagram) (s : State) : Out := .next (s.onType (msgType d == 0x11) d)

/-- LOAD (R367, R368). -/
def execLoad (d : Datagram) (s : State) : Out := .next (s.onType (msgType d == 0x20) d)

/-- UNLOAD (R367). -/
def execUnload (d : Datagram) (s : State) : Out := .next (s.onType (msgType d == 0x22) d)

/-- SUBMIT (R465, R466). -/
def execSubmit (d : Datagram) (s : State) : Out := .next (s.onType (msgType d == 0x30) d)

/-- PROMPT (R467). -/
def execPrompt (d : Datagram) (s : State) : Out := .next (s.onType (msgType d == 0x31) d)

/-- CANCEL (R475). -/
def execCancel (d : Datagram) (s : State) : Out := .next (s.onType (msgType d == 0x32) d)

/-- QUERY (R467). -/
def execQuery (d : Datagram) (s : State) : Out := .next (s.onType (msgType d == 0x33) d)

/-- RING_OPEN (R445). -/
def execRingOpen (d : Datagram) (s : State) : Out := .next (s.onType (msgType d == 0x36) d)

/-- RING_CREDIT (R447). -/
def execRingCredit (d : Datagram) (s : State) : Out := .next (s.onType (msgType d == 0x37) d)

/-- TENANT_SET (R467). -/
def execTenantSet (d : Datagram) (s : State) : Out := .next (s.onType (msgType d == 0x38) d)

/-- The op byte of a WSWP_ARM. -/
def swapOp (d : Datagram) : Nat := fieldOf (msgPayload d) 12 1

/-- WSWP_ARM op 0 (R492). -/
def execWswpArm (d : Datagram) (s : State) : Out := .next (s.onType (msgType d == 0x40 && swapOp d != 1 && swapOp d != 2) d)

/-- WSWP_ARM op 1 (R499). -/
def execSwapAbort (d : Datagram) (s : State) : Out := .next (s.onType (msgType d == 0x40 && swapOp d == 1) d)

/-- WSWP_ARM op 2 (R497). -/
def execPinRelease (d : Datagram) (s : State) : Out := .next (s.onType (msgType d == 0x40 && swapOp d == 2) d)

/-- SWAP_ARM_WRITE (R492): a write of WSWP_ARM on this chip. -/
def execSwapArmWrite (v : Word) (s : State) : Out := .next (s.writeSwapArm v).1.pump

/-- SWAP_DISARM (R499): WSWP_ARM written with armed = 0. -/
def execSwapDisarm (s : State) : Out :=
  .next (s.writeSwapArm (Fld.WSWP_ARM.armed.set (s.reg Reg.WSWP_ARM) 0)).1.pump

/-- IDLE_SET (R526). -/
def execIdleSet (d : Datagram) (s : State) : Out := .next (s.onType (msgType d == 0x50) d)

/-- TEST_REQ (R567). -/
def execTestReq (d : Datagram) (s : State) : Out := .next (s.onType (msgType d == 0x51) d)

/-- CAPTURE op 0 (R562). -/
def execCaptureFire (d : Datagram) (s : State) : Out :=
  .next (s.onType (msgType d == 0x60 && fieldOf (msgPayload d) 2 1 != 1) d)

/-- CAPTURE op 1 (R562). -/
def execCaptureArmTime (d : Datagram) (s : State) : Out :=
  .next (s.onType (msgType d == 0x60 && fieldOf (msgPayload d) 2 1 == 1) d)

/-- ATTEST_REQ with what 0 (R537). -/
def execAttestReq (d : Datagram) (s : State) : Out :=
  .next (s.onType (msgType d == 0x70 && fieldOf (msgPayload d) 34 1 != 1) d)

/-- ATTEST_REQ with what 1 (R536). -/
def execAttestIdentity (d : Datagram) (s : State) : Out :=
  .next (s.onType (msgType d == 0x70 && fieldOf (msgPayload d) 34 1 == 1) d)

/-- CHANGE_ORDER (R540, R542). -/
def execChangeOrder (d : Datagram) (s : State) : Out := .next (s.onType (msgType d == 0x72) d)

/-- UNDEFINED_MESSAGE_TYPE (R430), and a type that goes the other way. -/
def execUndefinedMessageType (d : Datagram) (s : State) : Out := .next (s.onType (!hostTypes.contains (msgType d)) d)

/-! ### Timers of a session (R432) -/

/-- TOWPATH_RESEND (R432). -/
def execTowpathResend (sess : BitVec 32) (s : State) : Out :=
  match s.sess sess.toNat with
  | none => .next s
  | some x => match firstDue x.unacked with
    | none => .next s
    | some m =>
      let s := s.advanceTo m.due
      if 8 ≤ m.tries then .next (s.loseSession x.id)
      else
        let m' := { m with tries := m.tries + 1, sentAt := s.now }
        let x := { x with unacked := x.unacked.map fun k => if k.seq = m.seq then m' else k, ackOwed := none }
        let s := s.setSess x
        .next (if s.fits x (m.ifc.getD x.ifc) m then (s.addSat Reg.STRM_STAT Fld.STRM_STAT.resends 1).sendKept x m' else s)

/-- SESSION_TIMEOUT (R432). -/
def execSessionTimeout (sess : BitVec 32) (s : State) : Out :=
  match s.sess sess.toNat with
  | none => .next s
  | some x => .next ((s.advanceTo (x.lastRx + 3 * x.keepMs * 1000000000)).loseSession x.id)

/-! ### RoCEv2 on a wharf (R439, R440, R446, R447, R458) -/

/-- ROCE_SEND (R440): a message of a session-bound queue pair goes into the next receive slot, as DATA barges (R418). A receive region
that is no populated range of the holds is treated as R437 treats a range that is none (R25, log entry 31). -/
def execRoceSend (rk : Packet) (s : State) : Out :=
  let n := qpOf rk
  let len := rk.bytes.length
  match s.takePacket rk with
  | (s, 0) => .next s
  | (s, got) =>
    let at_ := s.psnPlace rk
    let q := s.qp n
    if at_ = 1 then .next (s.roceAnswer rk 6 (s.qpField n 28 3) nakSeq [])
    else if at_ = 2 then .next (s.ackAgain rk len)
    else if s.qpField n 24 1 ≠ 2 ∨ !s.isWharf ∨ 8224 < len then .next (s.nakError rk nakInvalid)
    else if !s.holdRange (s.qpField n 0 8 % 2 ^ 48) (64 * 8224) then .next (s.nakError rk nakAccess)
    else if 64 ≤ q.unread then .next (s.roceAnswer rk 7 rk.psn.toNat 0 [])
    else
      let h := s.headOf rk got
      let s := s.takePsn h h.bytes.length true
      if h.bytes.length < len ∨ len = 0 then .next s
      else
        let s := s.setQp n { s.qp n with slot := (q.slot + 1) % 64, unread := q.unread + 1 }
        .next (s.ethWrite (rk.ifc.val / 4)
          { qp := n, ifc := rk.ifc, prio := tagPrio rk.tag, addr := s.qpField n 0 8 % 2 ^ 48 + 8224 * q.slot, bytes := rk.bytes, msg := true })

/-- Requests of a queue pair up to a sequence number are done; final records among them are acknowledged (R439, R458). -/
def State.acked (s : State) (n psn : Nat) : State :=
  let q := s.qp n
  let done := fun (o : OutReq) => decide ((psn + 2 ^ 24 - o.psn) % 2 ^ 24 < 2 ^ 23)
  let fin := ((q.out_.filter done).filter fun o => o.final).filterMap fun o => o.ring
  let s := s.setQp n { q with out_ := q.out_.filter fun o => !done o, retries := 0, rnrs := 0, since := s.now }
  s.modEngine fun e => { e with acked := e.acked ++ fin }

/-- ROCE_ACK (R458). -/
def execRoceAck (rk : Packet) (s : State) : Out :=
  match s.takePacket rk with
  | (s, 0) => .next s
  | (s, _) => .next (s.acked (qpOf rk) rk.psn.toNat)

/-- The outstanding READ that a response answers. -/
def State.readAt (s : State) (n psn : Nat) : Option OutReq :=
  (s.qp n).out_.find? fun o => o.psn == psn && o.packet.kind == 3

/-- ROCE_READ_RESPONSE (R447): the consumer count of a ring. -/
def execRoceReadResponse (rk : Packet) (s : State) : Out :=
  let n := qpOf rk
  match s.takePacket rk with
  | (s, 0) => .next s
  | (s, _) =>
    match s.readAt n rk.psn.toNat with
    | none => .next s
    | some o =>
      let s := s.acked n rk.psn.toNat
      match o.ring with
      | none => .next s
      | some i => .next (s.setConsumed i (fieldOf rk.bytes 0 8))

end Sys2Proof.Machine
end

