-- ==== Sys2Proof/Machine/EthPort.lean ====
section
/-! DEFINITION. The stations of the Ethernet ports (R418): how the data of remote writes and of received messages reach the holds. -/

namespace Sys2Proof.Machine

/-- The replies that a port's station takes. -/
def isPortReply (b : Barge) : Bool := bType b == tyGRANT || bType b == tyREFUSE || bType b == tyACK

/-- A port's data have been written into their hold: they leave the receive buffer, the immediate is a notice, a message is read by the
firmware, and the next data are opened (R438, R440, R441). -/
def State.ethDone (s : State) (p : Nat) (x : EthTx) (t : List EthTx) : State :=
  let s := (s.setEtxQ p t).rxFree p x.prio x.bytes.length
  let s := match x.imm with
    | some i => s.emit (.notice i)
    | none => s
  let s := if x.msg ∧ s.host.up then
      (s.setQp x.qp { s.qp x.qp with unread := (s.qp x.qp).unread - 1 }).sendIn x.qp x.ifc x.bytes |>.pump
    else s
  s.ethOpen p

/-- A reply to a port's oldest data: granted, refused and opened again (log entry 22), or written. -/
def State.ethReply (s : State) (p : Nat) (b : Barge) : State :=
  match s.etxQ p with
  | [] => s
  | x :: t =>
    if bType b = tyGRANT then s.setEtxQ p ({ x with slot := some (payNat b 0 8 % 64) } :: t)
    else if bType b = tyREFUSE then (s.setEtxQ p ({ x with asked := false } :: t)).ethOpen p
    else s.ethDone p x t

/-- DATA barges of a port's oldest data (R303). -/
def EthTx.total (x : EthTx) : Nat := ceilDiv x.bytes.length 64
def EthTx.barge (x : EthTx) (slot parity : Nat) : Barge :=
  dataBarge 0 (destOf true x.addr) 2 false x.sent slot parity 0 ((x.bytes.drop (64 * x.sent)).take 64) []

/-- The port's station sends the next DATA barges of its oldest data, as its port has width (R285, R418). -/
def State.ethSend (s : State) (p : Nat) : Nat → State
  | 0 => s
  | fuel + 1 =>
    match s.etxQ p with
    | [] => s
    | x :: t =>
      match x.slot with
      | none => s
      | some slot =>
        let b := x.barge slot s.stepParity
        let (node, port) := s.injectAt (ethAgent p) b
        if x.total ≤ x.sent ∨ !s.injFree node port ∨ !s.inputRoom node port 2 (s.nodeBeat node) then s
        else ((s.setEtxQ p ({ x with sent := x.sent + 1 } :: t)).inject (ethAgent p) 0 0 b).ethSend p fuel

/-- An Ethernet port's station takes a reply, and sends what it may. -/
def State.ethServe (s : State) (p : Nat) : State :=
  match s.takeArrival (ethAgent p) isPortReply with
  | some (x, s) => (s.ethReply p x.barge).ethSend p 6
  | none => s.ethSend p 6

/-- READ_AGENT_SERVE (R302, R418): an agent that sends DATA serves its oldest work: a read agent or front end its oldest READ, an Ethernet
port its oldest data. -/
def execReadAgentServe (a : Agent) (s : State) : Out :=
  .next (match a with
    | .ethernet p => s.ethServe p
    | a => s.serveReads a)

end Sys2Proof.Machine
end

