-- ==== Sys2Proof/Machine/Steps.lean ====
section
/-! DEFINITION. Steps of a step domain (R402 to R407): readies, the release of records, the step unit and the delivery of records,
with the composition of steps (R470) and the staged fill of a weight switch (R493). -/

namespace Sys2Proof.Machine

/-! ### Readies and releases at the leader (R403, R404) -/

/-- Kind of a STEP barge: 0 ready, 1 record (R403). -/
def stepKind (b : Barge) : Nat := hBerth.get b.header

/-- The step a core has completed KDONE for is `step` on every RUNNING core, of which there is one (R403). -/
def State.allReady (s : State) (step : Nat) : Bool :=
  let run := (List.range 256).filter fun n => s.coreState n == stRunning
  !run.isEmpty && run.all fun n => (s.core n).readyFor == some step && !s.inStep n

/-- The leader's log and notice of a lost step alignment (R401, R404). -/
def State.stepAlarm (s : State) : State := (s.logErr { code := 0x5904 }).notice 0 0x5904

/-- Every ready set that is complete leaves; the next step is then the oldest incomplete one (R404). -/
def State.closeReady (s : State) : Nat → State
  | 0 => s
  | k + 1 =>
    let f := s.fabric
    let m := s.get Reg.FABR_STEP_CFG Fld.FABR_STEP_CFG.members
    let got := smGet [] f.ready f.oldest
    if got.isEmpty ∨ got.length < m then s
    else
      State.closeReady { s with fabric := { f with
        oldest := f.oldest + 1, ready := smDel f.ready f.oldest, firstAt := smDel f.firstAt f.oldest } } k

/-- A ready of a chip for a step enters its set, or is ignored with 0x5904 (R404). -/
def State.countReady (s : State) (step chip : Nat) : State :=
  let f := s.fabric
  let got := smGet [] f.ready step
  let member := s.hasBit (Reg.FABR_STEP_MEMBERS (chip / 64)) ⟨0, 64⟩ (chip % 64)
  if 4096 ≤ chip ∨ !member ∨ got.contains chip ∨ step < f.oldest ∨ f.oldest + 1 < step then s.stepAlarm
  else
    let first := if got.isEmpty then smPut f.firstAt step s.now else f.firstAt
    State.closeReady { s with fabric := { f with ready := smPut f.ready step (got ++ [chip]), firstAt := first } } 2

/-- Payload of a ready: the step and the sender (R403). -/
def readyPayload (step chip : Nat) : BitVec 512 := BitVec.ofNat 512 (step % 2 ^ 64 + chip % 2 ^ 16 * 2 ^ 64)

/-- The chip's ready for a step goes to the leader, which counts its own without a barge (R403). -/
def State.sendReady (s : State) (step : Nat) : State :=
  let lchip := s.get Reg.FABR_STEP_CFG Fld.FABR_STEP_CFG.lchip
  if s.get Reg.FABR_STEP_CFG Fld.FABR_STEP_CFG.leader = 1 ∨ s.isHere lchip then s.countReady step s.chipAddr
  else s.sendOut lchip (mkBarge (hdr3 tySTEP lchip 0x500 0 s.stepParity) (readyPayload step s.chipAddr))

/-- STEP_READY (R403): the energy of the step is latched (R512), the ready is sent, and a wharf processes the step's results
(R443, R474). -/
def execStepReady (s : State) : Out :=
  let step := s.get Reg.FABR_STEP Fld.FABR_STEP.step
  if s.fabric.readySent = some step ∨ !s.allReady step then .next s
  else
    let s := { s with fabric := { s.fabric with readySent := some step } }
    let s := s.latchEnergy.sendReady step
    .next (if s.serving then s.processStep step else s)

/-- STEP_READY_BARGE (R404). -/
def execStepReadyBarge (s : State) : Out :=
  match s.takeArrival .stepUnit fun b => stepKind b == 0 with
  | none => .next s
  | some (x, s) => .next (s.countReady (payNat x.barge 0 8) (payNat x.barge 8 2))

/-- STEP_STALL (R404): the oldest incomplete step still lacks readies stall_ms after its first. -/
def execStepStall (s : State) : Out :=
  let f := s.fabric
  match smFind f.firstAt f.oldest with
  | none => .next s
  | some t =>
    if s.get Reg.FABR_STEP_CFG Fld.FABR_STEP_CFG.leader = 0 ∨ f.stalled = some f.oldest then .next s
    else
      let s := s.advanceTo (t + 1000000000 * s.get Reg.FABR_STEP_CFG Fld.FABR_STEP_CFG.stall_ms)
      .next ({ s with fabric := { s.fabric with stalled := some f.oldest } }.stepAlarm)

/-! ### Records at the step unit (R405, R406, R495) -/

/-- Step and weight epoch of a record (R198). -/
def recStep (r : List Word) : Nat := (r.getD 0 0).toNat
def recEpoch (r : List Word) : Nat := (r.getD 2 0).toNat / 2 ^ 32

/-- The step unit discards a record and all it holds, and takes no more before the next program start; a leader reports it (R401, R406). -/
def State.loseAlignment (s : State) : State :=
  let s := if s.get Reg.FABR_STEP_CFG Fld.FABR_STEP_CFG.leader = 1 then s.stepAlarm else s.logErr { code := 0x5904 }
  { s.put Reg.FABR_STEP_STAT Fld.FABR_STEP_STAT.aligned 0 with fabric := { s.fabric with records := [] } }

/-- The weight epoch of a record is in force or armed as next (R495). -/
def State.knowsEpoch (s : State) (e : Nat) : Bool :=
  e == s.wEpoch || (s.get Reg.WSWP_ARM Fld.WSWP_ARM.armed == 1 && e == s.get Reg.WSWP_ARM Fld.WSWP_ARM.next)

/-- The step that the step unit expects (R406). -/
def State.nextExpected (s : State) : Nat :=
  s.fabric.lastRec.elim (s.get Reg.FABR_STEP Fld.FABR_STEP.step + 1) (· + 1)

/-- A record arrives at the step unit (R405, R406, R495, R523). -/
def State.recordIn (s : State) (r : List Word) : State :=
  let s := s.wakeOn 1
  let f := s.fabric
  if s.get Reg.FABR_STEP_STAT Fld.FABR_STEP_STAT.aligned = 0 then s
  else if recStep r ≠ s.nextExpected ∨ 2 ≤ f.records.length then s.loseAlignment
  else if !s.knowsEpoch (recEpoch r) then s.loseAlignment.logErr { code := 0x6C03 }
  else { s with fabric := { f with records := f.records ++ [r], lastRec := some (recStep r) } }

/-- Words of a record's payload (R198). -/
def recWords (b : Barge) : List Word := (List.range 8).map fun j => BitVec.ofNat 64 (payNat b (8 * j) 8)

/-- STEP_RECORD_BARGE (R406). -/
def execStepRecordBarge (s : State) : Out :=
  match s.takeArrival .stepUnit fun b => stepKind b == 1 with
  | none => .next s
  | some (x, s) => .next (s.recordIn (recWords x.barge))

/-- The oldest record that the composer has written may be released (R404). -/
def State.mayRelease (s : State) (r : List Word) : Bool :=
  s.get Reg.FABR_STEP_CFG Fld.FABR_STEP_CFG.leader == 1 &&
    decide (recStep r ≤ s.fabric.oldest + s.get Reg.FABR_STEP_CFG Fld.FABR_STEP_CFG.lag) &&
    !(s.host.jobs.any fun (j : Job) => j.kind == JobKind.pages)

/-- A STEP barge that carries a record along a tree, in the parity of its step (R404). -/
def recordBarge (tree : Nat) (r : List Word) : Barge :=
  mkBarge (hMcast.set (hdr3 tySTEP 0 (0x400 + tree) 1 (recStep r % 2)) 1)
    (BitVec.ofNat 512 ((r.take 8).foldr (fun w n => w.toNat + n * 2 ^ 64) 0))

/-- RECORD_RELEASE (R404). The leader's own step unit gets the record with it. -/
def execRecordRelease (s : State) : Out :=
  match s.fabric.outRec with
  | [] => .next s
  | r :: rest =>
    if !s.mayRelease r then .next s
    else
      let s := { s with fabric := { s.fabric with outRec := rest } }
      let s := s.modEngine fun e => { e with open_ := e.open_.filter fun x => x.1 != recStep r }
      .next ((s.sendTree (s.get Reg.FABR_STEP_CFG Fld.FABR_STEP_CFG.tree_id)
        (recordBarge (s.get Reg.FABR_STEP_CFG Fld.FABR_STEP_CFG.tree_id) r)).recordIn r)

/-! ### Delivery (R199, R405, R493) -/

/-- A record arrives at core `n`: it fills the next slot, or is discarded where that is full (R199, R208). -/
def State.giveRecord (s : State) (r : List Word) (n : Nat) : State :=
  if (s.core n).nextRec.isSome then (s.hwSet (Reg.STEP_STAT n) Fld.STEP_STAT.overrun 1).logCore n 0x3807
  else (s.setCore n { s.core n with nextRec := some r }).put (Reg.STEP_STAT n) Fld.STEP_STAT.next_valid 1

/-- The step unit may deliver: cores run, their next slots are all empty, and no staged fill is due first (R405, R493). -/
def State.mayDeliver (s : State) (r : List Word) : Bool :=
  let run := (List.range 256).filter fun n => s.coreState n == stRunning
  !run.isEmpty && run.all (fun n => (s.core n).nextRec.isNone) && s.idle.state == 0 && s.diag.testUnitAt.isNone &&
    !s.wantsStaged r

/-- Deliver the oldest record; the operating points that wait for it are applied in the beat before (R405, R516, R517). -/
def State.deliverRecord (s : State) : State :=
  match s.oldestRec with
  | none => s
  | some r =>
    if !s.mayDeliver r then s
    else
      let s := (s.phaseHint r).opsetAtRecord
      let s := { s with fabric := { s.fabric with records := s.fabric.records.drop 1 } }
      let s := s.atWork
      ((List.range 256).filter fun n => s.coreState n == stRunning).foldl (fun (t : State) n => t.giveRecord r n) s

/-- RECORD_DELIVERY (R405). -/
def execRecordDelivery (s : State) : Out := .next s.deliverRecord

/-- STAGED_FILL_COMPLETE (R493): the epoch advances and the record is delivered. -/
def execStagedFillComplete (s : State) : Out :=
  if s.wState = 3 ∧ !s.weights.load then
    let s := s.fillWork
    .next (if s.fillDone then s.stagedFilled.deliverRecord else s)
  else .next s

/-- STEP_COMPOSE (R470). The wharfinger's firmware then carries page-map entries to the other chips (R463). -/
def execStepCompose (s : State) : Out := .next s.compose.pump

end Sys2Proof.Machine
end

