-- ==== Sys2Proof/Machine/Dispatch.lean ====
section
/-! DEFINITION. The meaning of each command, one arm per constructor. -/

namespace Sys2Proof.Machine

def exec (i : Instr) (s : State) : Host.Outcome State Fault Refusal :=
  match i with
  | .pacerTick r => Sys2Proof.Machine.execPacerTick r s
  | .beatToken r codes => Sys2Proof.Machine.execBeatToken r codes s
  | .beatComplete r => Sys2Proof.Machine.execBeatComplete r s
  | .lateItemArrival core unit => Sys2Proof.Machine.execLateItemArrival core unit s
  | .vaneWindowEnd r => Sys2Proof.Machine.execVaneWindowEnd r s
  | .vaneCritical r => Sys2Proof.Machine.execVaneCritical r s
  | .vaneThreshWrite v => Sys2Proof.Machine.execVaneThreshWrite v s
  | .targetOpWrite r v => Sys2Proof.Machine.execTargetOpWrite r v s
  | .retuneStop => Sys2Proof.Machine.execRetuneStop s
  | .regulatorSettled r => Sys2Proof.Machine.execRegulatorSettled r s
  | .retuneComplete r => Sys2Proof.Machine.execRetuneComplete r s
  | .settleTimeout r => Sys2Proof.Machine.execSettleTimeout r s
  | .secondStopTimeout r => Sys2Proof.Machine.execSecondStopTimeout r s
  | .qpush core => Sys2Proof.Machine.execQpush core s
  | .qwait core => Sys2Proof.Machine.execQwait core s
  | .qwaitComplete core => Sys2Proof.Machine.execQwaitComplete core s
  | .qtake core => Sys2Proof.Machine.execQtake core s
  | .qcount core => Sys2Proof.Machine.execQcount core s
  | .issue core => Sys2Proof.Machine.execIssue core s
  | .issueComplete core => Sys2Proof.Machine.execIssueComplete core s
  | .ifree core => Sys2Proof.Machine.execIfree core s
  | .lsig core => Sys2Proof.Machine.execLsig core s
  | .lwait core => Sys2Proof.Machine.execLwait core s
  | .lwaitSatisfied core => Sys2Proof.Machine.execLwaitSatisfied core s
  | .ltake core => Sys2Proof.Machine.execLtake core s
  | .lread core => Sys2Proof.Machine.execLread core s
  | .lbar core => Sys2Proof.Machine.execLbar core s
  | .kstepw core => Sys2Proof.Machine.execKstepw core s
  | .kstepwComplete core => Sys2Proof.Machine.execKstepwComplete core s
  | .ksel core => Sys2Proof.Machine.execKsel core s
  | .kdone core => Sys2Proof.Machine.execKdone core s
  | .kdoneComplete core => Sys2Proof.Machine.execKdoneComplete core s
  | .keeperInstruction core => Sys2Proof.Machine.execKeeperInstruction core s
  | .keeperLoad core => Sys2Proof.Machine.execKeeperLoad core s
  | .keeperStore core => Sys2Proof.Machine.execKeeperStore core s
  | .csrAccess core => Sys2Proof.Machine.execCsrAccess core s
  | .ebreak core => Sys2Proof.Machine.execEbreak core s
  | .narrowAccessServe core => Sys2Proof.Machine.execNarrowAccessServe core s
  | .armCore core => Sys2Proof.Machine.execArmCore core s
  | .disarmCore core => Sys2Proof.Machine.execDisarmCore core s
  | .haltCore core => Sys2Proof.Machine.execHaltCore core s
  | .resumeCore core => Sys2Proof.Machine.execResumeCore core s
  | .kstepCore core => Sys2Proof.Machine.execKstepCore core s
  | .mmul core => Sys2Proof.Machine.execMmul core s
  | .xnop core => Sys2Proof.Machine.execXnop core s
  | .anop core => Sys2Proof.Machine.execAnop core s
  | .vadd core => Sys2Proof.Machine.execVadd core s
  | .vsub core => Sys2Proof.Machine.execVsub core s
  | .vmul core => Sys2Proof.Machine.execVmul core s
  | .vfma core => Sys2Proof.Machine.execVfma core s
  | .vmax core => Sys2Proof.Machine.execVmax core s
  | .vmin core => Sys2Proof.Machine.execVmin core s
  | .vneg core => Sys2Proof.Machine.execVneg core s
  | .vabs core => Sys2Proof.Machine.execVabs core s
  | .vsel core => Sys2Proof.Machine.execVsel core s
  | .vcmp core => Sys2Proof.Machine.execVcmp core s
  | .vcvt core => Sys2Proof.Machine.execVcvt core s
  | .vexp2 core => Sys2Proof.Machine.execVexp2 core s
  | .vlog2 core => Sys2Proof.Machine.execVlog2 core s
  | .vrcp core => Sys2Proof.Machine.execVrcp core s
  | .vrsq core => Sys2Proof.Machine.execVrsq core s
  | .vsig core => Sys2Proof.Machine.execVsig core s
  | .vsilu core => Sys2Proof.Machine.execVsilu core s
  | .vtanh core => Sys2Proof.Machine.execVtanh core s
  | .vgelu core => Sys2Proof.Machine.execVgelu core s
  | .vsum core => Sys2Proof.Machine.execVsum core s
  | .vsumsq core => Sys2Proof.Machine.execVsumsq core s
  | .vdot core => Sys2Proof.Machine.execVdot core s
  | .vrsum core => Sys2Proof.Machine.execVrsum core s
  | .vrmax core => Sys2Proof.Machine.execVrmax core s
  | .vargmax core => Sys2Proof.Machine.execVargmax core s
  | .vtopk core => Sys2Proof.Machine.execVtopk core s
  | .vsample core => Sys2Proof.Machine.execVsample core s
  | .fload core => Sys2Proof.Machine.execFload core s
  | .fstore core => Sys2Proof.Machine.execFstore core s
  | .scopy core => Sys2Proof.Machine.execScopy core s
  | .scast core => Sys2Proof.Machine.execScast core s
  | .skvr core => Sys2Proof.Machine.execSkvr core s
  | .skvw core => Sys2Proof.Machine.execSkvw core s
  | .sred core => Sys2Proof.Machine.execSred core s
  | .lmmul core => Sys2Proof.Machine.execLmmul core s
  | .lload core => Sys2Proof.Machine.execLload core s
  | .lstore core => Sys2Proof.Machine.execLstore core s
  | .lcopy core => Sys2Proof.Machine.execLcopy core s
  | .lvector core => Sys2Proof.Machine.execLvector core s
  | .macroOpLastBeat core unit => Sys2Proof.Machine.execMacroOpLastBeat core unit s
  | .syncSignalArrival core => Sys2Proof.Machine.execSyncSignalArrival core s
  | .barrierRelease slot => Sys2Proof.Machine.execBarrierRelease slot s
  | .chipArrival => Sys2Proof.Machine.execChipArrival s
  | .fabricRelease => Sys2Proof.Machine.execFabricRelease s
  | .slotArm slot v => Sys2Proof.Machine.execSlotArm slot v s
  | .slotDisarm slot => Sys2Proof.Machine.execSlotDisarm slot s
  | .signalBarge => Sys2Proof.Machine.execSignalBarge s
  | .pendingSignalApply core => Sys2Proof.Machine.execPendingSignalApply core s
  | .bargeForward node out => Sys2Proof.Machine.execBargeForward node out s
  | .mcastReplyCombine node id => Sys2Proof.Machine.execMcastReplyCombine node id s
  | .ingressWrite core => Sys2Proof.Machine.execIngressWrite core s
  | .weightStoreWrite core => Sys2Proof.Machine.execWeightStoreWrite core s
  | .openBarge a => Sys2Proof.Machine.execOpenBarge a s
  | .grant core sl => Sys2Proof.Machine.execGrant core sl s
  | .refuse core sl => Sys2Proof.Machine.execRefuse core sl s
  | .dataBarge a => Sys2Proof.Machine.execDataBarge a s
  | .ackBarge core sl => Sys2Proof.Machine.execAckBarge core sl s
  | .readBarge a => Sys2Proof.Machine.execReadBarge a s
  | .readAgentServe a => Sys2Proof.Machine.execReadAgentServe a s
  | .abortBarge a => Sys2Proof.Machine.execAbortBarge a s
  | .holdRequestComplete h pc => Sys2Proof.Machine.execHoldRequestComplete h pc s
  | .holdRefresh h pc => Sys2Proof.Machine.execHoldRefresh h pc s
  | .refreshMakeup h pc => Sys2Proof.Machine.execRefreshMakeup h pc s
  | .holdScrubRead h pc => Sys2Proof.Machine.execHoldScrubRead h pc s
  | .holdTempUpdate h tempC => Sys2Proof.Machine.execHoldTempUpdate h tempC s
  | .correctedLineRewrite h pc => Sys2Proof.Machine.execCorrectedLineRewrite h pc s
  | .berthConfigWrite core n v => Sys2Proof.Machine.execBerthConfigWrite core n v s
  | .berthGrant core n v => Sys2Proof.Machine.execBerthGrant core n v s
  | .vecWinWrite core w v => Sys2Proof.Machine.execVecWinWrite core w v s
  | .meshModeWrite v => Sys2Proof.Machine.execMeshModeWrite v s
  | .programStart => Sys2Proof.Machine.execProgramStart s
  | .dtrmWrite off v => Sys2Proof.Machine.execDtrmWrite off v s
  | .watchdogFire => Sys2Proof.Machine.execWatchdogFire s
  | .load d => Sys2Proof.Machine.execLoad d s
  | .unload d => Sys2Proof.Machine.execUnload d s
  | .laneSignalLoss l => Sys2Proof.Machine.execLaneSignalLoss l s
  | .helloTimeout p => Sys2Proof.Machine.execHelloTimeout p s
  | .helloSend p => Sys2Proof.Machine.execHelloSend p s
  | .hello p msg => Sys2Proof.Machine.execHello p msg s
  | .retrain l => Sys2Proof.Machine.execRetrain l s
  | .autoRetrain p => Sys2Proof.Machine.execAutoRetrain p s
  | .trainingComplete p partner => Sys2Proof.Machine.execTrainingComplete p partner s
  | .trainingTimeout p => Sys2Proof.Machine.execTrainingTimeout p s
  | .frameSend p => Sys2Proof.Machine.execFrameSend p s
  | .frameReceive p f => Sys2Proof.Machine.execFrameReceive p f s
  | .portMapWrite p v => Sys2Proof.Machine.execPortMapWrite p v s
  | .portActiveWrite p => Sys2Proof.Machine.execPortActiveWrite p s
  | .probeForward p msg => Sys2Proof.Machine.execProbeForward p msg s
  | .probeIdent p msg => Sys2Proof.Machine.execProbeIdent p msg s
  | .probeAssign p msg => Sys2Proof.Machine.execProbeAssign p msg s
  | .probeReply p msg => Sys2Proof.Machine.execProbeReply p msg s
  | .timeExchange => Sys2Proof.Machine.execTimeExchange s
  | .timeRequest p ta => Sys2Proof.Machine.execTimeRequest p ta s
  | .timeResponse p ta tb tc => Sys2Proof.Machine.execTimeResponse p ta tb tc s
  | .routeTableWrite off v => Sys2Proof.Machine.execRouteTableWrite off v s
  | .epochArm v => Sys2Proof.Machine.execEpochArm v s
  | .fabrEvqRead => Sys2Proof.Machine.execFabrEvqRead s
  | .ferryGo c => Sys2Proof.Machine.execFerryGo c s
  | .ferryStall c => Sys2Proof.Machine.execFerryStall c s
  | .stepReady => Sys2Proof.Machine.execStepReady s
  | .stepReadyBarge => Sys2Proof.Machine.execStepReadyBarge s
  | .recordRelease => Sys2Proof.Machine.execRecordRelease s
  | .stepStall => Sys2Proof.Machine.execStepStall s
  | .stepRecordBarge => Sys2Proof.Machine.execStepRecordBarge s
  | .recordDelivery => Sys2Proof.Machine.execRecordDelivery s
  | .macLinkLoss mac => Sys2Proof.Machine.execMacLinkLoss mac s
  | .enetPortCtrlWrite p v => Sys2Proof.Machine.execEnetPortCtrlWrite p v s
  | .enetIfWrite mac w v => Sys2Proof.Machine.execEnetIfWrite mac w v s
  | .neighbourPacket mac n => Sys2Proof.Machine.execNeighbourPacket mac n s
  | .openSession d => Sys2Proof.Machine.execOpenSession d s
  | .closeSession d => Sys2Proof.Machine.execCloseSession d s
  | .ackMessage d => Sys2Proof.Machine.execAckMessage d s
  | .keepalive d => Sys2Proof.Machine.execKeepalive d s
  | .keepaliveTimer sess => Sys2Proof.Machine.execKeepaliveTimer sess s
  | .towpathAckTimer sess => Sys2Proof.Machine.execTowpathAckTimer sess s
  | .towpathResend sess => Sys2Proof.Machine.execTowpathResend sess s
  | .sessionTimeout sess => Sys2Proof.Machine.execSessionTimeout sess s
  | .regRead d => Sys2Proof.Machine.execRegRead d s
  | .regWrite d => Sys2Proof.Machine.execRegWrite d s
  | .regBarge => Sys2Proof.Machine.execRegBarge s
  | .registerWrite a v => Sys2Proof.Machine.execRegisterWrite a v s
  | .submit d => Sys2Proof.Machine.execSubmit d s
  | .prompt d => Sys2Proof.Machine.execPrompt d s
  | .cancel d => Sys2Proof.Machine.execCancel d s
  | .query d => Sys2Proof.Machine.execQuery d s
  | .tenantSet d => Sys2Proof.Machine.execTenantSet d s
  | .ringOpen d => Sys2Proof.Machine.execRingOpen d s
  | .ringCredit d => Sys2Proof.Machine.execRingCredit d s
  | .stepCompose => Sys2Proof.Machine.execStepCompose s
  | .energySweep => Sys2Proof.Machine.execEnergySweep s
  | .engyGroupAdd v => Sys2Proof.Machine.execEngyGroupAdd v s
  | .roceSend rk => Sys2Proof.Machine.execRoceSend rk s
  | .rdmaWrite rk => Sys2Proof.Machine.execRdmaWrite rk s
  | .rdmaWriteImm rk => Sys2Proof.Machine.execRdmaWriteImm rk s
  | .rdmaRead rk => Sys2Proof.Machine.execRdmaRead rk s
  | .roceNak rk => Sys2Proof.Machine.execRoceNak rk s
  | .roceAckTimeout qp => Sys2Proof.Machine.execRoceAckTimeout qp s
  | .cnp rk => Sys2Proof.Machine.execCnp rk s
  | .rateRecovery qp => Sys2Proof.Machine.execRateRecovery qp s
  | .pfcFrame p prio quanta => Sys2Proof.Machine.execPfcFrame p prio quanta s
  | .pfcRefresh p prio => Sys2Proof.Machine.execPfcRefresh p prio s
  | .pfcWatchdog p prio => Sys2Proof.Machine.execPfcWatchdog p prio s
  | .i3cPrivateWrite bytes => Sys2Proof.Machine.execI3cPrivateWrite bytes s
  | .i3cPrivateRead => Sys2Proof.Machine.execI3cPrivateRead s
  | .entdaa dyn => Sys2Proof.Machine.execEntdaa dyn s
  | .setdasa stat dyn => Sys2Proof.Machine.execSetdasa stat dyn s
  | .enec => Sys2Proof.Machine.execEnec s
  | .disec => Sys2Proof.Machine.execDisec s
  | .wswpArm d => Sys2Proof.Machine.execWswpArm d s
  | .swapAbort d => Sys2Proof.Machine.execSwapAbort d s
  | .pinRelease d => Sys2Proof.Machine.execPinRelease d s
  | .swapArmWrite v => Sys2Proof.Machine.execSwapArmWrite v s
  | .swapDisarm => Sys2Proof.Machine.execSwapDisarm s
  | .check => Sys2Proof.Machine.execCheck s
  | .checkComplete => Sys2Proof.Machine.execCheckComplete s
  | .prime => Sys2Proof.Machine.execPrime s
  | .primeComplete => Sys2Proof.Machine.execPrimeComplete s
  | .loadFill => Sys2Proof.Machine.execLoadFill s
  | .loadFillComplete => Sys2Proof.Machine.execLoadFillComplete s
  | .stagedFill => Sys2Proof.Machine.execStagedFill s
  | .stagedFillComplete => Sys2Proof.Machine.execStagedFillComplete s
  | .weirSample k q => Sys2Proof.Machine.execWeirSample k q s
  | .weirCodeFall k => Sys2Proof.Machine.execWeirCodeFall k s
  | .weirLimitWrite k v => Sys2Proof.Machine.execWeirLimitWrite k v s
  | .weirWindowWrite v => Sys2Proof.Machine.execWeirWindowWrite v s
  | .policyTick => Sys2Proof.Machine.execPolicyTick s
  | .capRaise => Sys2Proof.Machine.execCapRaise s
  | .idleOpset v => Sys2Proof.Machine.execIdleOpset v s
  | .idleEntry => Sys2Proof.Machine.execIdleEntry s
  | .idleWakeComplete => Sys2Proof.Machine.execIdleWakeComplete s
  | .wake => Sys2Proof.Machine.execWake s
  | .idleBudgetWrite v => Sys2Proof.Machine.execIdleBudgetWrite v s
  | .idleSet d => Sys2Proof.Machine.execIdleSet d s
  | .pwrOkRise => Sys2Proof.Machine.execPwrOkRise s
  | .resetNRelease => Sys2Proof.Machine.execResetNRelease s
  | .imageSlotCheck slot img => Sys2Proof.Machine.execImageSlotCheck slot img s
  | .railEnable g => Sys2Proof.Machine.execRailEnable g s
  | .railPgRise g => Sys2Proof.Machine.execRailPgRise g s
  | .railPgTimeout g => Sys2Proof.Machine.execRailPgTimeout g s
  | .bootReady => Sys2Proof.Machine.execBootReady s
  | .pwrOkFall => Sys2Proof.Machine.execPwrOkFall s
  | .resetNAssert => Sys2Proof.Machine.execResetNAssert s
  | .railPgFall g => Sys2Proof.Machine.execRailPgFall g s
  | .thermalSample die hold0 hold1 toll => Sys2Proof.Machine.execThermalSample die hold0 hold1 toll s
  | .trefclkLoss => Sys2Proof.Machine.execTrefclkLoss s
  | .erefclkLoss => Sys2Proof.Machine.execErefclkLoss s
  | .devReset => Sys2Proof.Machine.execDevReset s
  | .tollReset => Sys2Proof.Machine.execTollReset s
  | .ctxReset => Sys2Proof.Machine.execCtxReset s
  | .ctxDrainComplete => Sys2Proof.Machine.execCtxDrainComplete s
  | .fabReset => Sys2Proof.Machine.execFabReset s
  | .reachReset mask => Sys2Proof.Machine.execReachReset mask s
  | .reachResetComplete r => Sys2Proof.Machine.execReachResetComplete r s
  | .changeOrder d => Sys2Proof.Machine.execChangeOrder d s
  | .attestReq d => Sys2Proof.Machine.execAttestReq d s
  | .attestIdentity d => Sys2Proof.Machine.execAttestIdentity d s
  | .captInEdge => Sys2Proof.Machine.execCaptInEdge s
  | .fabricTimeMatch => Sys2Proof.Machine.execFabricTimeMatch s
  | .captureBeat => Sys2Proof.Machine.execCaptureBeat s
  | .captureFire d => Sys2Proof.Machine.execCaptureFire d s
  | .captureArmTime d => Sys2Proof.Machine.execCaptureArmTime d s
  | .snapArmWrite v => Sys2Proof.Machine.execSnapArmWrite v s
  | .errsFwdWrite chip w v => Sys2Proof.Machine.execErrsFwdWrite chip w v s
  | .eventSend sess => Sys2Proof.Machine.execEventSend sess s
  | .testReq d => Sys2Proof.Machine.execTestReq d s
  | .testGo v => Sys2Proof.Machine.execTestGo v s
  | .testCancel => Sys2Proof.Machine.execTestCancel s
  | .testUnitStart => Sys2Proof.Machine.execTestUnitStart s
  | .testUnitEnd fails => Sys2Proof.Machine.execTestUnitEnd fails s
  | .testTimeout => Sys2Proof.Machine.execTestTimeout s
  | .holdTrainingDone h ok => Sys2Proof.Machine.execHoldTrainingDone h ok s
  | .macLinkUp mac => Sys2Proof.Machine.execMacLinkUp mac s
  | .roceAck rk => Sys2Proof.Machine.execRoceAck rk s
  | .roceReadResponse rk => Sys2Proof.Machine.execRoceReadResponse rk s
  | .roceRnrNak rk => Sys2Proof.Machine.execRoceRnrNak rk s
  | .pfcQuantaExpiry p prio => Sys2Proof.Machine.execPfcQuantaExpiry p prio s
  | .pfcHonourRestore p prio => Sys2Proof.Machine.execPfcHonourRestore p prio s
  | .railDisable g => Sys2Proof.Machine.execRailDisable g s
  | .postTripDelay => Sys2Proof.Machine.execPostTripDelay s
  | .jtagTck tms tdi => Sys2Proof.Machine.execJtagTck tms tdi s
  | .trstNAssert => Sys2Proof.Machine.execTrstNAssert s
  | .undefinedMessageType d => Sys2Proof.Machine.execUndefinedMessageType d s

end Sys2Proof.Machine
end

