-- ==== Sys2Proof/Safety.lean ====
section
/-! DEFINITION. The terms in which claims are stated: the canonical form of a state, the parts of the state with what a step leaves
alone, and the completion of a command. -/

namespace Sys2Proof.Machine

/-- The canonical form of the state: the register list, memory and the check-bit list rise strictly in address, and no listed
byte or check-bit difference is the one an unlisted address has. -/
def State.wf (s : State) : Bool :=
  smSorted s.regs && Memory.wf s.mem && smSorted s.ecc

/-- The parts of the state, one for each field. -/
inductive Part where
  | now
  | free
  | regs
  | mem
  | ecc
  | reaches
  | die
  | cores
  | locks
  | mesh
  | holds
  | fabric
  | host
  | engine
  | weights
  | power
  | toll
  | idle
  | diag
  | ibiOn
  | ibis
  | outs
  | pending
  deriving DecidableEq, Repr

/-- A part is the same in two states. -/
def Part.same (s t : State) : Part → Prop
  | .now => t.now = s.now
  | .free => t.free = s.free
  | .regs => t.regs = s.regs ∧ t.marks = s.marks
  | .mem => t.mem = s.mem
  | .ecc => t.ecc = s.ecc
  | .reaches => t.reaches = s.reaches
  | .die => t.die = s.die
  | .cores => t.cores = s.cores
  | .locks => t.locks = s.locks
  | .mesh => t.mesh = s.mesh
  | .holds => t.holds = s.holds
  | .fabric => t.fabric = s.fabric
  | .host => t.host = s.host
  | .engine => t.engine = s.engine
  | .weights => t.weights = s.weights
  | .power => t.power = s.power
  | .toll => t.toll = s.toll
  | .idle => t.idle = s.idle
  | .diag => t.diag = s.diag
  | .ibiOn => t.ibiOn = s.ibiOn
  | .ibis => t.ibis = s.ibis
  | .outs => t.outs = s.outs
  | .pending => t.pending = s.pending

/-- `t` differs from `s` in the parts `ps` at most. -/
def Only (ps : List Part) (s t : State) : Prop := ∀ p, ps.contains p = false → p.same s t

/-- Registers that the logging of an error may write: the ERRS block, SNAP_STAT and IDLE_STATE (R523, R551 to R557). -/
def errReg (a : Nat) : Bool := blockOfReg a == some 15 || a == Reg.SNAP_STAT || a == Reg.IDLE_STATE

/-- Registers that count with the timebase in `s` (R58, R408, R525). -/
def clockRegs (s : State) : List Nat := [Reg.FABR_TIME, Reg.PACE_HOLD_NS, Reg.IDLE_NS s.idle.state]

/-- `t` reads as `s` in every register but those of `l`. -/
def SameRegs (l : List Nat) (s t : State) : Prop := ∀ a, a ∉ l → t.reg a = s.reg a

/-- `t` reads as `s` in every register but those of `l` and those that the logging of an error may write. -/
def SameRegsButErr (l : List Nat) (s t : State) : Prop := ∀ a, errReg a = false → a ∉ l → t.reg a = s.reg a

/-- `t` reads as `s` in every byte of memory. -/
def SameBytes (s t : State) : Prop := ∀ a, t.byte a = s.byte a

/-- The parts that the logging of an error may change: the log and its interrupt, forwarding, capture and wake (R523, R551 to
R557). -/
def logParts : List Part := [.regs, .mesh, .idle, .diag, .ibis, .outs]

end Sys2Proof.Machine
end

