-- ==== Sys2Proof/Certificates/Slice0/Obligations.lean ====
section
/-! DEFINITION. The statements for the provers, with the terms they are written in: the parts of the state that a command may change, and
what a command gives. -/

namespace Sys2Proof.Machine

/-- The parts that a message of a session may change: a message may do what any register write does (R430 to R435). -/
def messageParts : List Part :=
  [.free, .mem, .ecc, .reaches, .die, .cores, .locks, .holds, .fabric, .host, .engine, .weights, .power, .toll, .ibiOn] ++ logParts

/-- The parts of the state that the rules of a command let it change. -/
def commandParts : Instr → List Part
  | .pacerTick _ => [.now, .regs, .reaches, .die, .fabric]
  | .beatToken _ _ => [.now, .mem, .ecc, .reaches, .die, .cores, .locks, .holds, .fabric, .host, .engine, .weights, .power, .toll, .ibiOn] ++ logParts
  | .beatComplete _ => [.mem, .ecc, .reaches, .die, .cores] ++ logParts
  | .lateItemArrival _ _ => [.mem, .ecc, .die, .cores, .fabric] ++ logParts
  | .vaneWindowEnd _ => [.reaches] ++ logParts
  | .vaneCritical _ => [.reaches] ++ logParts
  | .vaneThreshWrite _ => logParts
  | .targetOpWrite _ _ => logParts
  | .retuneStop => [.regs, .reaches, .die]
  | .regulatorSettled _ => [.regs, .reaches, .die]
  | .retuneComplete _ => [.regs, .reaches, .die]
  | .settleTimeout _ => [.now, .reaches, .die, .fabric] ++ logParts
  | .secondStopTimeout _ => [.now, .reaches, .die, .fabric] ++ logParts
  | .qpush _ => [.mem, .ecc, .die, .cores] ++ logParts
  | .qwait _ => [.die, .cores] ++ logParts
  | .qwaitComplete _ => [.mem, .ecc, .die, .cores] ++ logParts
  | .qtake _ => [.mem, .ecc, .die, .cores] ++ logParts
  | .qcount _ => [.die, .cores] ++ logParts
  | .issue _ => [.mem, .ecc, .die, .cores] ++ logParts
  | .issueComplete _ => [.die, .cores] ++ logParts
  | .ifree _ => [.die, .cores] ++ logParts
  | .lsig _ => [.die, .cores, .locks] ++ logParts
  | .lwait _ => [.die, .cores] ++ logParts
  | .lwaitSatisfied _ => [.regs, .die, .cores]
  | .ltake _ => [.die, .cores] ++ logParts
  | .lread _ => [.die, .cores] ++ logParts
  | .lbar _ => [.die, .cores, .locks] ++ logParts
  | .kstepw _ => [.die, .cores, .weights] ++ logParts
  | .kstepwComplete _ => [.regs, .die, .cores, .weights]
  | .ksel _ => [.die, .cores] ++ logParts
  | .kdone _ => [.die, .cores] ++ logParts
  | .kdoneComplete _ => [.die, .cores, .locks, .weights] ++ logParts
  | .keeperInstruction _ => [.die, .cores] ++ logParts
  | .keeperLoad _ => [.mem, .ecc, .die, .cores] ++ logParts
  | .keeperStore _ => [.mem, .ecc, .die, .cores] ++ logParts
  | .csrAccess _ => [.die, .cores] ++ logParts
  | .ebreak _ => [.die, .cores] ++ logParts
  | .narrowAccessServe _ => [.mem, .ecc, .die, .cores, .host, .toll] ++ logParts
  | .armCore _ => [.die, .cores] ++ logParts
  | .disarmCore _ => [.die, .cores] ++ logParts
  | .haltCore _ => [.die, .cores] ++ logParts
  | .resumeCore _ => [.die, .cores] ++ logParts
  | .kstepCore _ => [.die, .cores] ++ logParts
  | .mmul _ => [.mem, .ecc, .die, .cores] ++ logParts
  | .xnop _ => [.die, .cores] ++ logParts
  | .anop _ => [.die, .cores] ++ logParts
  | .vadd _ => [.free, .die, .cores] ++ logParts
  | .vsub _ => [.free, .die, .cores] ++ logParts
  | .vmul _ => [.free, .die, .cores] ++ logParts
  | .vfma _ => [.free, .die, .cores] ++ logParts
  | .vmax _ => [.free, .die, .cores] ++ logParts
  | .vmin _ => [.free, .die, .cores] ++ logParts
  | .vneg _ => [.free, .die, .cores] ++ logParts
  | .vabs _ => [.free, .die, .cores] ++ logParts
  | .vsel _ => [.free, .die, .cores] ++ logParts
  | .vcmp _ => [.free, .die, .cores] ++ logParts
  | .vcvt _ => [.free, .die, .cores] ++ logParts
  | .vexp2 _ => [.free, .die, .cores] ++ logParts
  | .vlog2 _ => [.free, .die, .cores] ++ logParts
  | .vrcp _ => [.free, .die, .cores] ++ logParts
  | .vrsq _ => [.free, .die, .cores] ++ logParts
  | .vsig _ => [.free, .die, .cores] ++ logParts
  | .vsilu _ => [.free, .die, .cores] ++ logParts
  | .vtanh _ => [.free, .die, .cores] ++ logParts
  | .vgelu _ => [.free, .die, .cores] ++ logParts
  | .vsum _ => [.free, .die, .cores] ++ logParts
  | .vsumsq _ => [.free, .die, .cores] ++ logParts
  | .vdot _ => [.free, .die, .cores] ++ logParts
  | .vrsum _ => [.free, .die, .cores] ++ logParts
  | .vrmax _ => [.free, .die, .cores] ++ logParts
  | .vargmax _ => [.free, .die, .cores] ++ logParts
  | .vtopk _ => [.free, .die, .cores] ++ logParts
  | .vsample _ => [.free, .die, .cores] ++ logParts
  | .fload _ => [.die, .cores] ++ logParts
  | .fstore _ => [.die, .cores] ++ logParts
  | .scopy _ => [.die, .cores, .fabric] ++ logParts
  | .scast _ => [.die, .cores, .fabric] ++ logParts
  | .skvr _ => [.die, .cores, .fabric] ++ logParts
  | .skvw _ => [.die, .cores, .fabric] ++ logParts
  | .sred _ => [.die, .cores] ++ logParts
  | .lmmul _ => [.mem, .ecc, .die, .cores] ++ logParts
  | .lload _ => [.die, .cores] ++ logParts
  | .lstore _ => [.die, .cores] ++ logParts
  | .lcopy _ => [.die, .cores, .fabric] ++ logParts
  | .lvector _ => [.free, .die, .cores] ++ logParts
  | .macroOpLastBeat _ _ => [.mem, .ecc, .die, .cores, .locks, .fabric] ++ logParts
  | .syncSignalArrival _ => [.cores, .locks]
  | .barrierRelease _ => [.die, .cores, .locks] ++ logParts
  | .chipArrival => [.die, .cores, .locks] ++ logParts
  | .fabricRelease => [.die, .cores, .locks] ++ logParts
  | .slotArm _ _ => [.locks] ++ logParts
  | .slotDisarm _ => [.locks] ++ logParts
  | .signalBarge => [.die, .cores, .locks] ++ logParts
  | .pendingSignalApply _ => [.regs, .cores, .locks]
  | .bargeForward _ _ => [.fabric] ++ logParts
  | .mcastReplyCombine _ _ => [.mesh, .outs]
  | .ingressWrite _ => [.mem, .ecc, .cores, .fabric] ++ logParts
  | .weightStoreWrite _ => [.mem, .ecc, .cores, .fabric] ++ logParts
  | .openBarge _ => [.fabric] ++ logParts
  | .grant _ _ => [.fabric] ++ logParts
  | .refuse _ _ => [.die, .cores, .fabric] ++ logParts
  | .dataBarge _ => [.cores, .holds] ++ logParts
  | .ackBarge _ _ => [.regs, .cores, .mesh]
  | .readBarge _ => [.fabric] ++ logParts
  | .readAgentServe _ => messageParts
  | .abortBarge _ => [.mesh]
  | .holdRequestComplete _ _ => [.mem, .ecc, .cores, .holds, .fabric, .host, .engine, .weights, .toll] ++ logParts
  | .holdRefresh _ _ => [.now, .regs, .die, .holds, .fabric]
  | .refreshMakeup _ _ => [.regs, .holds]
  | .holdScrubRead _ _ => [.holds] ++ logParts
  | .holdTempUpdate _ _ => [.mem, .ecc, .reaches, .die, .cores, .locks, .holds, .fabric, .host, .engine, .weights, .power, .toll] ++ logParts
  | .correctedLineRewrite _ _ => [.mem, .ecc, .holds]
  | .berthConfigWrite _ _ _ => [.mem, .ecc, .reaches, .die, .cores, .locks, .holds, .fabric, .host, .engine, .weights, .power, .toll, .ibiOn] ++ logParts
  | .berthGrant _ _ _ => [.mem, .ecc, .reaches, .die, .cores, .locks, .holds, .fabric, .host, .engine, .weights, .power, .toll, .ibiOn] ++ logParts
  | .vecWinWrite _ _ _ => [.die, .cores] ++ logParts
  | .meshModeWrite _ => logParts
  | .programStart => [.mem, .ecc, .reaches, .die, .cores, .fabric] ++ logParts
  | .dtrmWrite _ _ => [.mem, .ecc, .reaches, .die, .cores, .fabric] ++ logParts
  | .watchdogFire => [.now, .die, .cores, .fabric] ++ logParts
  | .load _ => messageParts
  | .unload _ => messageParts
  | .laneSignalLoss _ => [.cores, .fabric, .toll] ++ logParts
  | .helloTimeout _ => [.now, .die, .cores, .fabric, .toll] ++ logParts
  | .helloSend _ => [.now, .regs, .die, .fabric]
  | .hello _ _ => [.cores, .fabric, .toll] ++ logParts
  | .retrain _ => [.cores, .fabric, .toll] ++ logParts
  | .autoRetrain _ => [.now, .die, .cores, .fabric, .toll] ++ logParts
  | .trainingComplete _ _ => [.cores, .fabric, .toll] ++ logParts
  | .trainingTimeout _ => [.now, .die, .cores, .fabric, .toll] ++ logParts
  | .frameSend _ => [.fabric, .host, .engine] ++ logParts
  | .frameReceive _ _ => [.cores, .fabric, .host, .engine, .toll] ++ logParts
  | .portMapWrite _ _ => [.cores, .fabric, .toll] ++ logParts
  | .portActiveWrite _ => [.cores, .fabric, .toll] ++ logParts
  | .probeForward _ _ => [.fabric]
  | .probeIdent _ _ => [.fabric]
  | .probeAssign _ _ => [.regs, .fabric]
  | .probeReply _ _ => [.fabric, .host]
  | .timeExchange => [.now, .regs, .die, .fabric]
  | .timeRequest _ _ => [.fabric]
  | .timeResponse _ _ _ _ => [.regs, .fabric]
  | .routeTableWrite _ _ => [.fabric] ++ logParts
  | .epochArm _ => logParts
  | .fabrEvqRead => [.regs, .fabric]
  | .ferryGo _ => [.fabric] ++ logParts
  | .ferryStall _ => [.now, .die, .fabric] ++ logParts
  | .stepReady => [.mem, .ecc, .cores, .holds, .fabric, .host, .engine, .weights, .power, .toll] ++ logParts
  | .stepReadyBarge => [.fabric] ++ logParts
  | .recordRelease => [.fabric, .engine] ++ logParts
  | .stepStall => [.now, .die, .fabric] ++ logParts
  | .stepRecordBarge => [.fabric] ++ logParts
  | .recordDelivery => [.cores, .fabric] ++ logParts
  | .macLinkLoss _ => [.host] ++ logParts
  | .enetPortCtrlWrite _ _ => [.host] ++ logParts
  | .enetIfWrite _ _ _ => logParts
  | .neighbourPacket _ _ => [.mem, .ecc, .cores, .host] ++ logParts
  | .openSession _ => messageParts
  | .closeSession _ => messageParts
  | .ackMessage _ => messageParts
  | .keepalive _ => messageParts
  | .keepaliveTimer _ => [.now, .mem, .ecc, .die, .cores, .holds, .fabric, .host] ++ logParts
  | .towpathAckTimer _ => [.now, .mem, .ecc, .die, .cores, .holds, .fabric, .host] ++ logParts
  | .towpathResend _ => [.now, .mem, .ecc, .die, .cores, .holds, .fabric, .host, .engine] ++ logParts
  | .sessionTimeout _ => [.now, .mem, .ecc, .die, .cores, .fabric, .host, .engine] ++ logParts
  | .regRead _ => messageParts
  | .regWrite _ => messageParts
  | .regBarge => [.mem, .ecc, .reaches, .die, .cores, .locks, .holds, .fabric, .host, .engine, .weights, .power, .toll, .ibiOn] ++ logParts
  | .registerWrite _ _ => [.mem, .ecc, .reaches, .die, .cores, .locks, .holds, .fabric, .host, .engine, .weights, .power, .toll, .ibiOn] ++ logParts
  | .submit _ => messageParts
  | .prompt _ => messageParts
  | .cancel _ => messageParts
  | .query _ => messageParts
  | .tenantSet _ => messageParts
  | .ringOpen _ => messageParts
  | .ringCredit _ => messageParts
  | .stepCompose => messageParts
  | .energySweep => [.now, .regs, .die, .fabric, .engine]
  | .engyGroupAdd _ => [.regs]
  | .roceSend _ => [.mem, .ecc, .cores, .holds, .fabric, .host] ++ logParts
  | .rdmaWrite _ => [.mem, .ecc, .cores, .holds, .fabric, .host] ++ logParts
  | .rdmaWriteImm _ => [.mem, .ecc, .cores, .holds, .fabric, .host] ++ logParts
  | .rdmaRead _ => [.mem, .ecc, .cores, .holds, .host] ++ logParts
  | .roceNak _ => [.mem, .ecc, .cores, .holds, .host] ++ logParts
  | .roceAckTimeout _ => [.now, .mem, .ecc, .die, .cores, .holds, .fabric, .host] ++ logParts
  | .cnp _ => [.mem, .ecc, .cores, .holds, .host] ++ logParts
  | .rateRecovery _ => [.now, .mem, .ecc, .die, .cores, .holds, .fabric, .host] ++ logParts
  | .pfcFrame _ _ _ => [.regs, .host, .outs]
  | .pfcRefresh _ _ => [.now, .regs, .die, .fabric, .host, .outs]
  | .pfcWatchdog _ _ => [.now, .die, .fabric, .host] ++ logParts
  | .i3cPrivateWrite _ => [.mem, .ecc, .reaches, .die, .cores, .locks, .holds, .fabric, .host, .engine, .weights, .power, .toll, .ibiOn] ++ logParts
  | .i3cPrivateRead => [.toll, .outs]
  | .entdaa _ => [.toll, .outs]
  | .setdasa _ _ => [.toll, .outs]
  | .enec => [.ibiOn]
  | .disec => [.ibiOn]
  | .wswpArm _ => messageParts
  | .swapAbort _ => messageParts
  | .pinRelease _ => messageParts
  | .swapArmWrite _ => messageParts
  | .swapDisarm => messageParts
  | .check => logParts
  | .checkComplete => [.mem, .ecc, .cores, .holds, .fabric, .host, .engine, .weights, .toll] ++ logParts
  | .prime => [.weights] ++ logParts
  | .primeComplete => [.cores, .holds, .fabric, .weights] ++ logParts
  | .loadFill => [.weights] ++ logParts
  | .loadFillComplete => [.cores, .holds, .fabric, .weights] ++ logParts
  | .stagedFill => [.regs, .mesh, .weights, .idle]
  | .stagedFillComplete => [.cores, .holds, .fabric, .weights] ++ logParts
  | .weirSample _ _ => [.now, .free, .die, .cores, .fabric, .power] ++ logParts
  | .weirCodeFall _ => [.now, .mem, .ecc, .reaches, .die, .cores, .holds, .fabric, .host, .engine, .weights, .power, .toll] ++ logParts
  | .weirLimitWrite _ _ => logParts
  | .weirWindowWrite _ => logParts
  | .policyTick => [.now, .die, .cores, .fabric, .power] ++ logParts
  | .capRaise => [.now, .regs, .reaches, .die, .fabric]
  | .idleOpset _ => logParts
  | .idleEntry => [.now, .mem, .ecc, .reaches, .die, .cores, .locks, .holds, .fabric, .host, .engine, .weights, .power, .toll] ++ logParts
  | .idleWakeComplete => [.now, .regs, .reaches, .die, .holds, .fabric, .idle]
  | .wake => [.regs, .idle]
  | .idleBudgetWrite _ => [.regs, .idle]
  | .idleSet _ => messageParts
  | .pwrOkRise => [.regs, .toll, .outs]
  | .resetNRelease => [.now, .regs, .mem, .ecc, .reaches, .die, .cores, .locks, .mesh, .holds, .fabric, .host, .engine, .weights, .power, .toll, .idle, .diag, .outs]
  | .imageSlotCheck _ _ => [.mem, .ecc, .reaches, .cores, .fabric, .host, .toll] ++ logParts
  | .railEnable _ => [.now, .mem, .ecc, .reaches, .die, .cores, .fabric, .host, .toll] ++ logParts
  | .railPgRise _ => [.mem, .ecc, .reaches, .cores, .fabric, .host, .toll] ++ logParts
  | .railPgTimeout _ => [.now, .die, .cores, .fabric, .host, .toll] ++ logParts
  | .bootReady => [.regs, .fabric]
  | .pwrOkFall => [.regs, .mem, .ecc, .reaches, .die, .cores, .locks, .mesh, .holds, .fabric, .host, .engine, .weights, .power, .toll, .idle, .diag, .ibiOn, .ibis]
  | .resetNAssert => [.regs, .mem, .ecc, .reaches, .die, .cores, .locks, .mesh, .holds, .fabric, .host, .engine, .weights, .power, .toll, .idle, .diag, .ibiOn, .ibis]
  | .railPgFall _ => [.mem, .ecc, .reaches, .die, .cores, .locks, .holds, .fabric, .host, .engine, .weights, .power, .toll] ++ logParts
  | .thermalSample _ _ _ _ => [.mem, .ecc, .reaches, .die, .cores, .locks, .holds, .fabric, .host, .engine, .weights, .power, .toll] ++ logParts
  | .trefclkLoss => [.cores, .fabric, .toll] ++ logParts
  | .erefclkLoss => [.host, .toll] ++ logParts
  | .devReset => [.regs, .mem, .ecc, .reaches, .die, .cores, .locks, .mesh, .holds, .fabric, .host, .engine, .weights, .power, .toll, .idle, .diag]
  | .tollReset => [.regs, .mem, .ecc, .reaches, .die, .cores, .locks, .mesh, .holds, .fabric, .host, .engine, .weights, .power, .toll, .idle, .diag, .ibiOn, .ibis]
  | .ctxReset => [.mem, .ecc, .reaches, .die, .cores, .fabric, .host, .toll] ++ logParts
  | .ctxDrainComplete => [.now, .mem, .ecc, .die, .cores, .locks, .fabric, .engine, .toll] ++ logParts
  | .fabReset => [.reaches, .cores, .locks, .fabric, .toll] ++ logParts
  | .reachReset _ => [.reaches, .toll] ++ logParts
  | .reachResetComplete _ => [.regs, .mem, .ecc, .reaches, .die, .cores, .toll]
  | .changeOrder _ => messageParts
  | .attestReq _ => messageParts
  | .attestIdentity _ => messageParts
  | .captInEdge => [.regs, .idle, .diag]
  | .fabricTimeMatch => [.now, .regs, .die, .fabric, .idle, .diag]
  | .captureBeat => [.regs, .die, .cores, .diag, .outs]
  | .captureFire _ => messageParts
  | .captureArmTime _ => messageParts
  | .snapArmWrite _ => logParts
  | .errsFwdWrite _ _ _ => [.regs, .diag]
  | .eventSend _ => [.now, .mem, .ecc, .die, .cores, .holds, .fabric, .host] ++ logParts
  | .testReq _ => messageParts
  | .testGo _ => logParts
  | .testCancel => [.regs, .diag]
  | .testUnitStart => [.now, .die, .fabric] ++ logParts
  | .testUnitEnd _ => [.mem, .ecc, .cores, .fabric, .toll] ++ logParts
  | .testTimeout => [.now, .die, .fabric] ++ logParts
  | .holdTrainingDone _ _ => [.mem, .ecc, .cores, .fabric, .host, .toll] ++ logParts
  | .macLinkUp _ => [.regs]
  | .roceAck _ => [.mem, .ecc, .cores, .holds, .host, .engine] ++ logParts
  | .roceReadResponse _ => [.mem, .ecc, .cores, .holds, .host, .engine] ++ logParts
  | .roceRnrNak _ => [.mem, .ecc, .cores, .holds, .host] ++ logParts
  | .pfcQuantaExpiry _ _ => [.now, .regs, .die, .fabric, .host, .outs]
  | .pfcHonourRestore _ _ => [.now, .regs, .die, .fabric, .host]
  | .railDisable _ => [.now, .regs, .die, .fabric, .toll]
  | .postTripDelay => [.now, .regs, .die, .fabric, .toll]
  | .jtagTck _ _ => [.free, .toll, .outs]
  | .trstNAssert => [.toll]
  | .undefinedMessageType _ => messageParts

/-- A command completes with a next state that differs from `s` in the parts its rules name at most, and for which `P` holds. -/
def Gives (c : Instr) (s : State) (P : State → Prop) : Prop := ∃ t, exec c s = .next t ∧ Only (commandParts c) s t ∧ P t

end Sys2Proof.Machine

open Sys2Proof Sys2Proof.Machine

/-! ### The machine as a whole -/

/-- A step takes the command at the front of the queue and runs it with the rest of the queue (log entry 1). -/
def Obligations.StepRunsFront : Prop :=
  ∀ (s : State) (c : Instr) (q : List Instr), s.pending = c :: q → step s = exec c { s with pending := q }

/-- The state at reset: canonical, with nothing waiting, memory with nothing listed, and the reset values that the register tables give:
of the cores and of each block that has a register with a value other than 0, its fields of such values; of the others a register that
reads 0. -/
def Obligations.ResetState : Prop :=
  State.reset.wf = true ∧ State.reset.pending = [] ∧ State.reset.mem = [] ∧
  State.reset.get Reg.VANE_THRESH Fld.VANE_THRESH.auto_down = 1 ∧ State.reset.get Reg.VANE_THRESH Fld.VANE_THRESH.hyst = 0x8 ∧
  State.reset.get Reg.VANE_THRESH Fld.VANE_THRESH.warn = 0x18 ∧ State.reset.get Reg.VANE_THRESH Fld.VANE_THRESH.crit = 0x08 ∧
  (∀ r : Fin 16, State.reset.get (Reg.PACE_STRETCH r) Fld.PACE_STRETCH.stretch_ns = 0 ∧
    State.reset.reg (Reg.VANE_MARGIN r) = BitVec.allOnes 64) ∧
  State.reset.get Reg.PACE_BEAT Fld.PACE_BEAT.die_beat = 0 ∧ State.reset.reg Reg.PACE_HOLD_NS = 0 ∧
  (∀ n : Fin 256, State.reset.get (Reg.CORE_STAT n) Fld.CORE_STAT.state = 1 ∧
    State.reset.get (Reg.QUEUE_CFG n) Fld.QUEUE_CFG.q0 = 0x9 ∧ State.reset.get (Reg.QUEUE_CFG n) Fld.QUEUE_CFG.q4 = 0x6) ∧
  State.reset.get Reg.DEV_ID Fld.DEV_ID.family = 0xA7 ∧ State.reset.get Reg.DEV_ID Fld.DEV_ID.member = 0x04 ∧
  State.reset.get Reg.DEV_RESET_STAT Fld.DEV_RESET_STAT.last_kind = 1 ∧
  State.reset.get Reg.WEIR_WINDOW Fld.WEIR_WINDOW.t3_pm = 0x438 ∧ State.reset.get Reg.WEIR_WINDOW Fld.WEIR_WINDOW.t2_pm = 0x3E8 ∧
  State.reset.get Reg.WEIR_WINDOW Fld.WEIR_WINDOW.t1_pm = 0x3B6 ∧ State.reset.get Reg.WEIR_WINDOW Fld.WEIR_WINDOW.hyst_pm = 0x32 ∧
  State.reset.get Reg.WEIR_WINDOW Fld.WEIR_WINDOW.window_ns = 0x7D0 ∧
  State.reset.get Reg.ENGY_CTRL Fld.ENGY_CTRL.report = 1 ∧ State.reset.get Reg.ENGY_CTRL Fld.ENGY_CTRL.prompt_weight = 0x20 ∧
  State.reset.reg Reg.LOCK_ERR = 0 ∧ State.reset.reg Reg.MESH_MODE = 0 ∧
  (∀ h : Fin 2, State.reset.get (Reg.HOLD_CTRL h) Fld.HOLD_CTRL.ext_on_c = 0x55 ∧
    State.reset.get (Reg.HOLD_CTRL h) Fld.HOLD_CTRL.scrub_en = 1 ∧
    State.reset.get (Reg.HOLD_REFRESH h) Fld.HOLD_REFRESH.trefi_ns = 0xF3C ∧
    State.reset.get (Reg.HOLD_REFRESH h) Fld.HOLD_REFRESH.trfc_ns = 0x40) ∧
  (∀ l : Fin 96, State.reset.get (Reg.TOWL_LANE_CTRL l) Fld.TOWL_LANE_CTRL.auto = 1) ∧
  State.reset.get Reg.FABR_STEP_CFG Fld.FABR_STEP_CFG.stall_ms = 0x64 ∧
  State.reset.get Reg.FABR_STEP_STAT Fld.FABR_STEP_STAT.aligned = 1 ∧
  State.reset.get Reg.FABR_TIME_CFG Fld.FABR_TIME_CFG.parent = 0x3F ∧ State.reset.get Reg.FABR_TIME_CFG Fld.FABR_TIME_CFG.backup = 0x3F ∧
  (∀ p : Fin 2, State.reset.get (Reg.ENET_PORT_CTRL p) Fld.ENET_PORT_CTRL.roce_pcp = 3 ∧
    State.reset.get (Reg.ENET_PORT_CTRL p) Fld.ENET_PORT_CTRL.ecn_en = 1) ∧
  State.reset.get Reg.STRM_MODE Fld.STRM_MODE.frame_buf = 0x200 ∧ State.reset.get Reg.STRM_MODE Fld.STRM_MODE.ring_low = 0x40 ∧
  State.reset.get Reg.LEDG_POLICY Fld.LEDG_POLICY.max_class = 5 ∧ State.reset.get Reg.LEDG_POLICY Fld.LEDG_POLICY.max_ctx = 0x20000 ∧
  State.reset.reg Reg.WSWP_STAT = 0 ∧ State.reset.reg Reg.SNAP_ARM = 0 ∧ State.reset.reg Reg.TEST_STAT = 0 ∧
  State.reset.get Reg.ERRS_CTRL Fld.ERRS_CTRL.alert_mask = 0x8084 ∧ State.reset.get Reg.ERRS_CTRL Fld.ERRS_CTRL.evt_mask = 0x80FC ∧
  State.reset.get Reg.ERRS_CTRL Fld.ERRS_CTRL.fwd_mask = 0x80FC ∧
  State.reset.get Reg.DTRM_WDOG Fld.DTRM_WDOG.limit_ns = 0x989680 ∧
  State.reset.get Reg.DTRM_ALLOW Fld.DTRM_ALLOW.retry_max = 4 ∧ State.reset.get Reg.DTRM_ALLOW Fld.DTRM_ALLOW.refresh_pm = 0x14 ∧
  State.reset.get Reg.LIMS_OP_CEIL Fld.LIMS_OP_CEIL.ceil = 0xF ∧
  State.reset.get Reg.IDLE_CTRL Fld.IDLE_CTRL.delay_ns = 0x186A0 ∧ State.reset.get Reg.IDLE_PHASE Fld.IDLE_PHASE.cap = 0xF ∧
  State.reset.get Reg.IDLE_PHASE Fld.IDLE_PHASE.op_decode = 8 ∧ State.reset.get Reg.IDLE_PHASE Fld.IDLE_PHASE.op_prefill = 8 ∧
  State.reset.get Reg.IDLE_SUSTAIN Fld.IDLE_SUSTAIN.window_ms = 0x3E8

/-- No command stops the block, and each changes only the parts of the state that its rules name; the queue is none of them. -/
def Obligations.CommandFrame : Prop :=
  ∀ (c : Instr) (s : State), ∃ t, exec c s = .next t ∧ Only (commandParts c) s t ∧ t.pending = s.pending

/-- A command whose rules give it no write of memory leaves every byte of every memory as it was read before. -/
def Obligations.MemoryFrame : Prop :=
  ∀ (c : Instr) (s : State), (commandParts c).contains .mem = false → (commandParts c).contains .ecc = false →
    Gives c s fun t => SameBytes s t

/-- Every step keeps the canonical form: registers and memory in rising order of address, with no byte listed that reads as an unlisted
one does. -/
def Obligations.StepKeepsWf : Prop := ∀ s t : State, s.wf = true → step s = .next t → t.wf = true

/-- With no command waiting a step passes one unit of the timebase, and the queue stays empty (log entry 3, the model's choice). The
timebase never runs back, and a step takes exactly the front command out of the queue. -/
def Obligations.StepTime : Prop :=
  (
    ∀ s : State, s.pending = [] → ∃ t, step s = .next t ∧ t.now = s.now + 1 ∧ t.pending = []) ∧
  (
    ∀ s t : State, step s = .next t → s.now ≤ t.now ∧ t.pending = s.pending.tail)

/-! ### Pacing -/

/-- A write of VANE_THRESH whose crit is not below its warn is discarded whole and 0x3103 logged; any other write takes the fields. -/
def Obligations.VaneThreshWrite : Prop :=
  ∀ (v : Word) (s : State),
    (Fld.VANE_THRESH.warn.get v ≤ Fld.VANE_THRESH.crit.get v →
      exec (.vaneThreshWrite v) s = .next (s.logErr { code := 0x3103 }) ∧
      (s.logErr { code := 0x3103 }).reg Reg.VANE_THRESH = s.reg Reg.VANE_THRESH) ∧
    (Fld.VANE_THRESH.crit.get v < Fld.VANE_THRESH.warn.get v → Gives (.vaneThreshWrite v) s fun t =>
      t.get Reg.VANE_THRESH Fld.VANE_THRESH.warn = Fld.VANE_THRESH.warn.get v ∧
      t.get Reg.VANE_THRESH Fld.VANE_THRESH.crit = Fld.VANE_THRESH.crit.get v ∧
      t.get Reg.VANE_THRESH Fld.VANE_THRESH.hyst = Fld.VANE_THRESH.hyst.get v ∧
      t.get Reg.VANE_THRESH Fld.VANE_THRESH.auto_down = Fld.VANE_THRESH.auto_down.get v ∧
      Only [.regs] s t ∧ SameRegs [Reg.VANE_THRESH] s t)

/-- A write of target_op up to the ceiling takes it, and busy reads 1 where it differs from current_op; above the ceiling it is discarded
with 0x3101 and target_op keeps its value. A 1 written to settle_fail clears it either way, but where the hardware sets it in that beat.
-/
def Obligations.TargetOpWrite : Prop :=
  ∀ (r : Fin 16) (v : Word) (s : State),
    let a := Reg.PACE_OPSEL r
    let new := Fld.PACE_OPSEL.target_op.get v
    let fail := if Fld.PACE_OPSEL.settle_fail.get v = 1 ∧ Fld.PACE_OPSEL.settle_fail.get (s.mark a).set = 0 then 0
      else s.get a Fld.PACE_OPSEL.settle_fail
    (new ≤ s.ceil → Gives (.targetOpWrite r v) s fun t =>
      t.get a Fld.PACE_OPSEL.target_op = new ∧
      t.get a Fld.PACE_OPSEL.busy = (if new = s.get a Fld.PACE_OPSEL.current_op then s.get a Fld.PACE_OPSEL.busy else 1) ∧
      t.get a Fld.PACE_OPSEL.settle_fail = fail ∧
      t.get a Fld.PACE_OPSEL.current_op = s.get a Fld.PACE_OPSEL.current_op ∧
      t.get a Fld.PACE_OPSEL.retune_count = s.get a Fld.PACE_OPSEL.retune_count ∧
      t.get a Fld.PACE_OPSEL.auto_down = s.get a Fld.PACE_OPSEL.auto_down ∧ Only [.regs] s t ∧ SameRegs [a] s t) ∧
    (s.ceil < new → Gives (.targetOpWrite r v) s fun t =>
      t.get a Fld.PACE_OPSEL.target_op = s.get a Fld.PACE_OPSEL.target_op ∧
      t.get a Fld.PACE_OPSEL.busy = s.get a Fld.PACE_OPSEL.busy ∧ t.get a Fld.PACE_OPSEL.settle_fail = fail ∧
      t.get a Fld.PACE_OPSEL.current_op = s.get a Fld.PACE_OPSEL.current_op ∧ SameRegsButErr [a] s t)

/-- The tick of a reach falls due one period after its last token, held time noted with it; other reaches keep theirs. A token is issued
only when the tick has fallen due, the beat is complete, no hold is in force and no neighbour is behind; it then starts the next beat at
the end of the throttle extension, with the throttle code in force noted. Accesses of the register path that waited for this beat follow
it; here none waits. With no token the pins to an old epoch are still counted, the policy looks whether the die is quiescent, and packets
whose pacing lets them go leave. A beat of a reach completes when nothing is left to do in it, no item is missing, the die is not held and
its neighbours have kept up; PACE_BEAT then shows the beats that every reach has completed. -/
def Obligations.BeatCycle : Prop :=
  (
    ∀ (r : Fin 16) (s : State), (s.reach r).ticked = false → (s.reach r).stopped = false →
      Gives (.pacerTick r) s fun t =>
        t.reach r = { s.reach r with
          ticked := true, tickAt := (s.reach r).tokenAt + s.period r, heldAtTick := t.die.heldPs } ∧
        t.now = max s.now ((s.reach r).tokenAt + s.period r) ∧ (∀ q, q ≠ r.val → t.reach q = s.reach q) ∧ SameRegs (clockRegs s) s t) ∧
  (
    ∀ (r : Fin 16) (codes : List Byte) (s : State),
      s.die.regQ = [] →
      (s.tokenReady r = false → exec (.beatToken r codes) s = .next s.switchPins.noteQuiet.paceWork) ∧
      (s.tokenReady r = true → Gives (.beatToken r codes) s fun t =>
        (t.reach r).beat = (s.reach r).beat + 1 ∧ t.now = max s.now (s.throttleEnd r) ∧ (t.reach r).tokenAt = t.now ∧
        (t.reach r).ticked = false ∧ (t.reach r).complete = false ∧ (t.reach r).code = s.throttleCode r ∧
        (∀ q, q ≠ r.val → t.reach q = s.reach q) ∧
        Only ([.now, .mem, .ecc, .reaches, .die, .cores, .locks, .holds, .fabric, .host, .engine, .weights] ++ logParts) s t)) ∧
  (
    ∀ (r : Fin 16) (s : State), (s.reach r).complete = false →
      (adjacent r).all (fun q => decide ((s.reach r).beat ≤ (s.reach q).completed)) = true → s.workDone r = true →
      s.itemMissing r = false → s.held = false → (∀ n ∈ coresOf r, s.enabled n = true → s.xwaits n = [] ∧ s.arrayCheck n = s) →
      Gives (.beatComplete r) s fun t =>
        (t.reach r).complete = true ∧ (t.reach r).beat = (s.reach r).beat ∧ (∀ q, q ≠ r.val → t.reach q = s.reach q) ∧
        ∃ q < 16, t.get Reg.PACE_BEAT Fld.PACE_BEAT.die_beat = (t.reach q).completed % 2 ^ 64 ∧
          ∀ p < 16, (t.reach q).completed ≤ (t.reach p).completed)

/-- An arrival lets a unit that waits take its items up; the unit's hold requests are withdrawn exactly when none is missing any more. -/
def Obligations.LateItemArrival : Prop :=
  ∀ (core : Fin 256) (u : UnitId) (s : State), s.die.holds.any (unitHold core u) = true →
    ((s.core core).running u).isSome = true →
    Gives (.lateItemArrival core u) s fun t =>
      t.die.holds = (if (t.lateKinds core u).isNone then s.die.holds.filter (fun h => !unitHold core u h) else s.die.holds)

/-- At the end of a window VANE_MARGIN takes the lowest codes and a new window begins; a reach that was not in warning enters it exactly
when some windowed code is at or below warn. A reach in warning stays in it, and logs nothing, until each of its vanes has reported a
windowed code above warn plus hyst since; then a code at or below warn is a warning anew. A reach with a vane at or below crit on four
consecutive beats enters critical; with auto_down set and above OP0 it requests the point below, at OP0 or with auto_down clear its point
stays. -/
def Obligations.Vanes : Prop :=
  (
    ∀ (r : Fin 16) (s : State), 4096 ≤ (s.reach r).winBeats →
      Gives (.vaneWindowEnd r) s fun t =>
        (∀ v < 8, t.get (Reg.VANE_MARGIN r) (vaneField v) = (s.reach r).winLow.getD v 255 % 256) ∧
        (t.reach r).winBeats = 0 ∧ (t.reach r).winLow = List.replicate 8 255 ∧
        ((s.reach r).warned = false → ((t.reach r).warned = true ↔
          ∃ v < 8, (s.reach r).winLow.getD v 255 ≤ s.get Reg.VANE_THRESH Fld.VANE_THRESH.warn)) ∧
        (let good (v : Nat) : Prop := v ∈ (s.reach r).rearmed ∨
            s.get Reg.VANE_THRESH Fld.VANE_THRESH.warn + s.get Reg.VANE_THRESH Fld.VANE_THRESH.hyst < (s.reach r).winLow.getD v 255
          let was : Prop := (s.reach r).warned = true
          was →
            ((∃ v < 8, ¬good v) → (t.reach r).warned = true ∧ (∀ v < 8, v ∈ (t.reach r).rearmed ↔ good v) ∧
              SameRegs [Reg.VANE_MARGIN r] s t) ∧
            ((∀ v < 8, good v) → ((t.reach r).warned = true ↔
              ∃ v < 8, (s.reach r).winLow.getD v 255 ≤ s.get Reg.VANE_THRESH Fld.VANE_THRESH.warn))) ∧
        (∀ q, q ≠ r.val → t.reach q = s.reach q) ∧ SameRegsButErr [Reg.VANE_MARGIN r] s t) ∧
  (
    ∀ (r : Fin 16) (s : State), (∃ v < 8, 4 ≤ (s.reach r).critRun.getD v 0) → (s.reach r).critical = false →
      s.written (Reg.PACE_OPSEL r) Fld.PACE_OPSEL.target_op = false →
      ¬(s.get (Reg.PACE_OPSEL r) Fld.PACE_OPSEL.auto_down = 1 ∧ s.get (Reg.PACE_OPSEL r) Fld.PACE_OPSEL.busy = 1) →
      Gives (.vaneCritical r) s fun t =>
        let a := Reg.PACE_OPSEL r
        let cur := s.get a Fld.PACE_OPSEL.current_op
        (t.reach r).critical = true ∧
        (if s.get Reg.VANE_THRESH Fld.VANE_THRESH.auto_down = 1 ∧ 0 < cur then
          t.get a Fld.PACE_OPSEL.target_op = cur - 1 ∧ t.get a Fld.PACE_OPSEL.auto_down = 1 ∧ t.get a Fld.PACE_OPSEL.busy = 1 ∧
          t.get a Fld.PACE_OPSEL.current_op = cur
         else t.reg a = s.reg a) ∧
        (∀ q, q ≠ r.val → t.reach q = s.reach q) ∧ SameRegsButErr [a] s t)

/-- A retune stop serves every pending request at the target of that moment, under one hold request for each reach, and counts once in
retune_holds. -/
def Obligations.RetuneStop : Prop :=
  ∀ s : State, s.retuneWanted ≠ [] → (∀ r : Fin 16, (s.reach r).inStop = false) → s.idle.state = 0 →
    Gives .retuneStop s fun t =>
      (∀ r : Fin 16, (s.get (Reg.PACE_OPSEL r) Fld.PACE_OPSEL.busy = 1 ∧ (s.reach r).retune = .none →
          (t.reach r).retune = .moving ∧ (t.reach r).stopAt = s.now ∧
          (t.reach r).oldOp = s.get (Reg.PACE_OPSEL r) Fld.PACE_OPSEL.current_op ∧
          (t.reach r).newOp = s.get (Reg.PACE_OPSEL r) Fld.PACE_OPSEL.target_op ∧ retuneReq r ∈ t.die.holds) ∧
        (¬(s.get (Reg.PACE_OPSEL r) Fld.PACE_OPSEL.busy = 1 ∧ (s.reach r).retune = .none) → t.reach r = s.reach r)) ∧
      t.get Reg.PACE_HOLD_CNT Fld.PACE_HOLD_CNT.retune_holds =
        (if s.written Reg.PACE_HOLD_CNT Fld.PACE_HOLD_CNT.retune_holds then s.get Reg.PACE_HOLD_CNT Fld.PACE_HOLD_CNT.retune_holds
          else min (s.get Reg.PACE_HOLD_CNT Fld.PACE_HOLD_CNT.retune_holds + 1) 0xFFFF) ∧
      SameRegs [Reg.PACE_HOLD_CNT] s t

/-- A stop goes on when its regulator has settled, and completes as steps 4 and 5 of the sequence say: the point, never above the ceiling,
the count, busy and auto_down, unless a request of a vane still waits, and the hold withdrawn. A stop that timed out goes on in a second
one. A regulator that has not settled 2.4 µs into the stop leaves the reach at the lower point with settle_fail, and 50 µs later with that
point as its target, but where a write of that beat has set another; a target other than the point in force is a request. -/
def Obligations.RetuneSequence : Prop :=
  (
    ∀ (r : Fin 16) (s : State),
      ((s.reach r).retune = .moving → Gives (.regulatorSettled r) s fun t =>
        t.reach r = { s.reach r with retune := .calibrating } ∧ t.regs = s.regs ∧ t.die = s.die) ∧
      ((s.reach r).retune = .failed → s.idle.state = 0 → Gives (.regulatorSettled r) s fun t =>
        t.reach r = { s.reach r with retune := .secondStop, stopAt := s.now } ∧ retuneReq r ∈ t.die.holds ∧
        SameRegs [Reg.PACE_HOLD_CNT] s t) ∧
      ((s.reach r).retune = .calibrating ∨ (s.reach r).retune = .secondStop → Gives (.retuneComplete r) s fun t =>
        let a := Reg.PACE_OPSEL r
        t.get a Fld.PACE_OPSEL.current_op = min (s.reach r).newOp s.ceil % 16 ∧
        t.get a Fld.PACE_OPSEL.target_op = s.get a Fld.PACE_OPSEL.target_op ∧
        t.get a Fld.PACE_OPSEL.retune_count =
          (if (s.put a Fld.PACE_OPSEL.current_op (s.reach r).newOp).written a Fld.PACE_OPSEL.retune_count then s.get a Fld.PACE_OPSEL.retune_count
            else (s.get a Fld.PACE_OPSEL.retune_count + 1) % 65536) ∧
        (s.get a Fld.PACE_OPSEL.target_op = (s.reach r).newOp ∨ (s.reach r).vaneAsked = false →
          t.get a Fld.PACE_OPSEL.auto_down = 0) ∧
        t.get a Fld.PACE_OPSEL.busy = (if s.get a Fld.PACE_OPSEL.target_op = (s.reach r).newOp then 0 else 1) ∧
        (t.reach r).retune = .none ∧ retuneReq r ∉ t.die.holds ∧ SameRegs [a, Reg.IDLE_PHASE] s t)) ∧
  (
    ∀ (r : Fin 16) (s : State),
      ((s.reach r).retune = .moving → Gives (.settleTimeout r) s fun t =>
        t.now = max s.now ((s.reach r).stopAt + 2400000) ∧
        t.get (Reg.PACE_OPSEL r) Fld.PACE_OPSEL.current_op = min s.ceil (min (s.reach r).oldOp (s.reach r).newOp) % 16 ∧
        t.get (Reg.PACE_OPSEL r) Fld.PACE_OPSEL.settle_fail = 1 ∧
        t.reach r = { s.reach r with retune := .failed, failAt := t.now } ∧ retuneReq r ∉ t.die.holds ∧
        SameRegsButErr (Reg.PACE_OPSEL r :: clockRegs s) s t) ∧
      ((s.reach r).retune = .failed → Gives (.secondStopTimeout r) s fun t =>
        t.now = max s.now ((s.reach r).failAt + 50000000) ∧
        t.get (Reg.PACE_OPSEL r) Fld.PACE_OPSEL.target_op =
          (if (s.advanceTo ((s.reach r).failAt + 50000000)).written (Reg.PACE_OPSEL r) Fld.PACE_OPSEL.target_op then
            s.get (Reg.PACE_OPSEL r) Fld.PACE_OPSEL.target_op else min s.ceil (min (s.reach r).oldOp (s.reach r).newOp) % 16) ∧
        t.get (Reg.PACE_OPSEL r) Fld.PACE_OPSEL.busy =
          (if t.get (Reg.PACE_OPSEL r) Fld.PACE_OPSEL.target_op = s.get (Reg.PACE_OPSEL r) Fld.PACE_OPSEL.current_op then 0 else 1) ∧
          t.reach r = { s.reach r with retune := .none, vaneAsked := false } ∧
        SameRegsButErr (Reg.PACE_OPSEL r :: clockRegs s) s t))

/-! ### Cores and their keepers -/

namespace Sys2Proof.Machine

/-- Registers that show what a core does (R208): a retiring or waiting keeper brings them up to date. -/
def coreShown (n : Nat) : List Nat :=
  [Reg.KEEP_PC n, Reg.CORE_STAT n, Reg.QUEUE_STAT n, Reg.ASTREAM_STAT n, Reg.XSTREAM_STAT n, Reg.INGRESS_STAT n, Reg.DTRM_STAT]

/-- The pc that core `n` has after an instruction at `u`: the next one, but where a write of KEEP_PC in the same beat set another (R17). -/
def nextPc (u : State) (n pc : Nat) : Nat := if u.written (Reg.KEEP_PC n) Fld.KEEP_PC.pc then u.kpc n else pc % 2 ^ 32

/-- An instruction of core `n` has retired between `u` and `t`: the result in rd (x0 takes none), the next pc, the count of
instructions and the next free beat (R194); a halt that waited for it has taken effect (R602). -/
def Retired (n rd : Nat) (v : Option W32) (pc : Nat) (u t : State) : Prop :=
  (t.core n).x = (match v with
    | some w => if rd = 0 then (u.core n).x else (u.core n).x.set rd w
    | none => (u.core n).x) ∧
  t.kpc n = nextPc u n pc ∧ (t.core n).instret = (u.core n).instret + 1 ∧ (t.core n).kAt = u.beatOf n + 1 ∧
  (t.core n).kwait = .none ∧ (t.core n).haltReq = false ∧
  ((u.core n).haltReq = true → t.get (Reg.CORE_STAT n) Fld.CORE_STAT.state = stHalted) ∧
  (∀ m, m ≠ n → t.core m = u.core m)

/-- Core `n` has gone to FAULT with a code, its keeper stopped where it stood (R192, R204, R205). -/
def Faulted (n code : Nat) (u t : State) : Prop :=
  t.coreState n = stFault ∧ t.get (Reg.CORE_STAT n) Fld.CORE_STAT.fault_err = code % 65536 ∧ (t.core n).kwait = .none ∧
  (t.core n).x = (u.core n).x ∧ t.kpc n = u.kpc n ∧ (∀ m, m ≠ n → t.core m = u.core m)

/-- The keeper of core `n` is about to execute instruction `i` of class `k` and length `len`. -/
def KeeperAt (s : State) (n : Nat) (k : KClass) (i len : Nat) : Prop :=
  s.keeperRuns n = true ∧ (s.fetch n).2 = .instr i len ∧ classOf i = k

/-- The keeper of core `n` is about to execute custom instruction `c`, well formed and in its first beat or later. -/
def CustomAt (s : State) (n : Nat) (c : Custom) (i len : Nat) : Prop :=
  KeeperAt s n (.custom c) i len ∧ customOk c i = true ∧ (s.fetch n).1.kdue n 1 = true

/-- The command of a custom instruction. -/
def customCmd (core : Fin 256) : Custom → Instr
  | .qpush => .qpush core
  | .qwait => .qwait core
  | .qtake => .qtake core
  | .qcount => .qcount core
  | .issue => .issue core
  | .ifree => .ifree core
  | .lsig => .lsig core
  | .lwait => .lwait core
  | .ltake => .ltake core
  | .lread => .lread core
  | .lbar => .lbar core
  | .kstepw => .kstepw core
  | .ksel => .ksel core
  | .kdone => .kdone core

end Sys2Proof.Machine

/-- A base instruction retires in its last beat with the value, the next pc and the beats that its encoding gives. -/
def Obligations.KeeperBase : Prop :=
  ∀ (core : Fin 256) (s : State) (i len pc cost : Nat) (v : Option W32) (next : W32),
    KeeperAt s core .base i len → s.kdue core 1 = true → pc = s.kpc core →
    baseExec s.lat i len (BitVec.ofNat 32 pc) (s.kx core (rs1Of i)) (s.kx core (rs2Of i)) = some (v, next, cost) →
    s.kdue core cost = true →
    Gives (.keeperInstruction core) s fun t =>
      Retired core (rdOf i) v next.toNat (s.fetch core).1 t ∧ SameRegs (coreShown core) (s.fetch core).1 t

/-- A fetch that fails, or an illegal encoding, stops the keeper and puts the core in FAULT with the code. A custom instruction with a
field that must be 0 set stops the keeper with 0x3801. -/
def Obligations.KeeperFaults : Prop :=
  (
    ∀ (core : Fin 256) (s : State) (code : Nat), s.keeperRuns core = true → s.kdue core 1 = true →
      ((s.fetch core).2 = .stop code ∨
        code = 0x3801 ∧ ∃ i len, (s.fetch core).2 = .instr i len ∧ classOf i = .base ∧
          baseExec s.lat i len (BitVec.ofNat 32 (s.kpc core)) (s.kx core (rs1Of i)) (s.kx core (rs2Of i)) = none) →
      Gives (.keeperInstruction core) s fun t => Faulted core code s t) ∧
  (
    ∀ (c : Custom) (core : Fin 256) (s : State) (i len : Nat), KeeperAt s core (.custom c) i len → customOk c i = false →
      (s.fetch core).1.kdue core 1 = true → Gives (customCmd core c) s fun t => Faulted core 0x3801 s t)

namespace Sys2Proof.Machine

/-- Where a load or store of the keeper finds memory, and its beats; none where the access takes another course, or where the bank or
port is taken in the beat in progress. -/
def keeperPlace (u : State) (n a : Nat) (store : Bool) : Option (Nat × Nat) :=
  match kmem n a with
  | .imem d => if store then none else some (d, u.lat 14)
  | .dmem d => some (d, u.lat 14)
  | .cache d => if u.narrowFree n d then some (d, u.lat 16) else none
  | .basin d => if u.narrowFree n d then some (d, u.lat 16) else none
  | _ => none

end Sys2Proof.Machine

/-- A load from memory retires with the bytes at its address, extended as its form says; an uncorrectable line faults the core with its
memory's code. A misaligned load, or one at an address that leads nowhere, faults with 0x3804. A store to memory retires with the low
bytes of rs2 at its address and every other byte as it was, where the memory takes writes at once; a write that the beat defers waits for
the beat's end (R152). An uncorrectable line of data memory faults the core with 0x2505; a misaligned store, or one to instruction memory
or an address that leads nowhere, faults with 0x3804. Core registers are read and written in halves: the lower read latches both, the
upper write is buffered until the lower one writes the register whole, with the read-write bits as they stand where no upper half waits
for it. A width other than a word faults with 0x3804. -/
def Obligations.KeeperMemory : Prop :=
  (
    ∀ (core : Fin 256) (s : State) (i len : Nat), KeeperAt s core .load i len →
      let u := (s.fetch core).1
      let a := (u.kx core (rs1Of i) + immI i).toNat
      let size := sizeOf3 (f3Of i)
      (∀ d cost, a % size = 0 → keeperPlace u core a false = some (d, cost) → u.kdue core 1 = true → u.kdue core cost = true →
        let w := (u.takeNarrow core d).keeperLines core d size
        (w.2 = false → Gives (.keeperLoad core) s fun t =>
          Retired core (rdOf i) (some (loadVal (f3Of i) (u.bytes d size))) (s.kpc core + len) w.1 t ∧ SameRegs (coreShown core) w.1 t) ∧
        (w.2 = true → Gives (.keeperLoad core) s fun t => Faulted core (memKind d).ueCode w.1 t)) ∧
      (u.kdue core 1 = true → a % size ≠ 0 ∨ kmem core a = .nowhere → Gives (.keeperLoad core) s fun t => Faulted core 0x3804 s t)) ∧
  (
    ∀ (core : Fin 256) (s : State) (i len : Nat), KeeperAt s core .store i len →
      let u := (s.fetch core).1
      let a := (u.kx core (rs1Of i) + immS i).toNat
      let size := sizeOf3 (f3Of i)
      let bytes := natLe size (u.kx core (rs2Of i)).toNat
      (∀ d cost, s.wf = true → a % size = 0 → keeperPlace u core a true = some (d, cost) → u.kdue core 1 = true → u.kdue core cost = true →
        let w := (u.takeNarrow core d).noteStore d size (some core)
        let bad := lineStat (u.eccOf (lineOf d)) = .uncorrectable ∧ memKind d = .kdmem
        (¬ bad → Gives (.keeperStore core) s fun t =>
          Retired core 0 none (s.kpc core + len) w t ∧ SameRegs (coreShown core) w t ∧
          (u.defers (lineOf d) = false →
            (∀ k < size, t.byte (d + k) = bytes.getD k 0) ∧ ∀ b, b < d ∨ d + size ≤ b → t.byte b = s.byte b) ∧
          (u.defers (lineOf d) = true → SameBytes s t ∧ (t.core core).later = (u.core core).later ++
            [⟨0, lineOf d, byteMask (d % 32) size, leNat bytes <<< (8 * (d % 32)), false⟩])) ∧
        (bad → Gives (.keeperStore core) s fun t => Faulted core 0x2505 w t)) ∧
      (u.kdue core 1 = true → a % size ≠ 0 ∨ kmem core a = .nowhere ∨ (∃ d, kmem core a = .imem d) → Gives (.keeperStore core) s fun t =>
        Faulted core 0x3804 s t)) ∧
  (
    ∀ (core : Fin 256) (s : State) (i len o : Nat),
      let u := (s.fetch core).1
      (KeeperAt s core .load i len → (u.kx core (rs1Of i) + immI i).toNat = 0x20000 + o → o < 0x1000 → o % 4 = 0 →
        f3Of i = 2 → u.kdue core 1 = true → u.kdue core (u.lat 15) = true →
        Gives (.keeperLoad core) s fun t =>
          Retired core (rdOf i) (some (if o % 8 = 0 then (u.readCoreReg core o).setWidth 32
            else match (u.core core).latch with
              | some (b, w) => ((if b = o - 4 then w else u.readCoreReg core (o - 4)) >>> 32).setWidth 32
              | none => ((u.readCoreReg core (o - 4)) >>> 32).setWidth 32)) (s.kpc core + len) u t ∧
          (t.core core).latch = (if o % 8 = 0 then some (o, u.readCoreReg core o) else none)) ∧
      (KeeperAt s core .store i len → (u.kx core (rs1Of i) + immS i).toNat = 0x20000 + o → o < 0x1000 → o % 8 = 4 →
        f3Of i = 2 → u.kdue core 1 = true → u.kdue core (u.lat 15) = true →
        Gives (.keeperStore core) s fun t =>
          Retired core 0 none (s.kpc core + len) u t ∧ SameRegs (coreShown core) u t ∧
          (t.core core).hbuf = some (o - 4, u.kx core (rs2Of i))) ∧
      (KeeperAt s core .store i len → (u.kx core (rs1Of i) + immS i).toNat = 0x20000 + o → o < 0x1000 → o % 8 = 0 →
        f3Of i = 2 → u.kdue core 1 = true → u.kdue core (u.lat 15) = true →
        let w := u.retire core 0 none (s.kpc core + len)
        let h : W32 := match (u.core core).hbuf with
          | some (b, x) => if b = o then x else ((w.reg (coreRegs core + o) &&& rwBits core o) >>> 32).setWidth 32
          | none => ((w.reg (coreRegs core + o) &&& rwBits core o) >>> 32).setWidth 32
        exec (.keeperStore core) s =
          .next ((w.setCore core { w.core core with hbuf := none }).writeCoreReg core o (h ++ u.kx core (rs2Of i))).1) ∧
      (u.kdue core 1 = true → o < 0x1000 →
        (KeeperAt s core .load i len → (u.kx core (rs1Of i) + immI i).toNat = 0x20000 + o → (0x20000 + o) % sizeOf3 (f3Of i) = 0 → f3Of i ≠ 2 →
          Gives (.keeperLoad core) s fun t => Faulted core 0x3804 s t) ∧
        (KeeperAt s core .store i len → (u.kx core (rs1Of i) + immS i).toNat = 0x20000 + o → (0x20000 + o) % sizeOf3 (f3Of i) = 0 → f3Of i ≠ 2 →
          Gives (.keeperStore core) s fun t => Faulted core 0x3804 s t)))

/-- A CSR access reads an implemented CSR in its beats, and stops with 0x3801 on any other CSR or on a write. EBREAK retires and halts the
core. CSR numbers and what they read. -/
def Obligations.KeeperCsrs : Prop :=
  (
    ∀ (core : Fin 256) (s : State) (i len : Nat),
      let u := (s.fetch core).1
      (KeeperAt s core .csr i len → u.kdue core (u.lat 13) = true →
        (∀ v, u.csr core (ibits i 20 12) = some v → csrWrites i = false → Gives (.csrAccess core) s fun t =>
          Retired core (rdOf i) (some v) (s.kpc core + len) u t ∧ SameRegs (coreShown core) u t) ∧
        (u.csr core (ibits i 20 12) = none ∨ csrWrites i = true → Gives (.csrAccess core) s fun t => Faulted core 0x3801 s t)) ∧
      (KeeperAt s core .ebreak i len → u.kdue core 1 = true → Gives (.ebreak core) s fun t =>
        Retired core 0 none (s.kpc core + len) u t ∧ t.coreState core = stHalted ∧
        t.get Reg.DTRM_STAT Fld.DTRM_STAT.halted = 1 ∧ SameRegs (coreShown core) u t)) ∧
  (
    ∀ (n : Nat) (s : State),
      s.csr n 0xC00 = some (BitVec.ofNat 32 (s.beatOf n)) ∧ s.csr n 0xC80 = some (BitVec.ofNat 32 (s.beatOf n / 2 ^ 32)) ∧
      s.csr n 0xC02 = some (BitVec.ofNat 32 (s.core n).instret) ∧
      s.csr n 0xC82 = some (BitVec.ofNat 32 ((s.core n).instret / 2 ^ 32)) ∧ s.csr n 0xF14 = some (BitVec.ofNat 32 n) ∧
      s.csr n 0xFC1 = some (BitVec.ofNat 32 s.vgrid) ∧
      (∀ v, v < s.vgrid → s.vmap v = n → (∀ w < v, s.vmap w ≠ n) → s.csr n 0xFC0 = some (BitVec.ofNat 32 v)) ∧
      ∀ c, c ∉ [0xC00, 0xC80, 0xC02, 0xC82, 0xF14, 0xFC0, 0xFC1] → s.csr n c = none)

/-- Queue pushes and counts of the keeper: QPUSH appends the stamped entry while the queue has room, QCOUNT answers the entries that were
there before the beat; on a queue that the keeper does not produce for, QPUSH faults with 0x3803. Queue pops of the keeper: QTAKE pops the
head that was there before the beat, writes its 64 bytes to data memory and answers its seq, or faults with 0x3802 where there is none;
QWAIT waits, and its completion pops. -/
def Obligations.KeeperQueues : Prop :=
  (
    ∀ (core : Fin 256) (s : State) (i len : Nat),
      let u := (s.fetch core).1
      let q := f7Of i % 8
      let pc := s.kpc core + len
      (CustomAt s core .qpush i len → ∀ a, six4 core (u.kx core (rs1Of i)).toNat = .dmem a →
        (u.produces core q 0 = true → u.kdue core (u.lat 18) = true → (u.keeperLines core a 64).2 = false →
          (u.core core).queues.length = 8 → ((u.core core).queues.getD q []).length < 16 →
          Gives (.qpush core) s fun t =>
            Retired core 0 none pc (u.keeperLines core a 64).1 t ∧
            (t.core core).queues = (u.core core).queues.set q ((u.core core).queues.getD q [] ++
              [⟨u.beatOf core, stampEntry (cleanEntry (u.bytes a 64)) (u.beatOf core) ((u.core core).qseq.getD q 0)⟩])) ∧
        (u.produces core q 0 = false → Gives (.qpush core) s fun t => Faulted core 0x3803 s t)) ∧
      (CustomAt s core .qcount i len → u.queueCfg core q % 4 ≠ 3 → u.queueCfg core q / 4 ≠ 3 →
        Gives (.qcount core) s fun t =>
          Retired core (rdOf i) (some (BitVec.ofNat 32
            (((u.core core).queues.getD q []).filter fun e => decide (e.beat < u.beatOf core)).length)) pc u t ∧
          SameRegs (coreShown core) u t)) ∧
  (
    ∀ (core : Fin 256) (s : State),
      (∀ i len a, CustomAt s core .qtake i len → six4 core ((s.fetch core).1.kx core (rs1Of i)).toNat = .dmem a →
        (s.fetch core).1.consumes core (f7Of i % 8) 0 = true → (s.fetch core).1.kdue core ((s.fetch core).1.lat 18) = true →
        (∀ e rest, s.wf = true → (s.core core).queues.getD (f7Of i % 8) [] = e :: rest → e.beat < s.beatOf core →
          e.bytes.length = 64 → (s.core core).qlate = [] → (s.core core).queues.length = 8 → Gives (.qtake core) s fun t =>
            Retired core (rdOf i) (some (BitVec.ofNat 32 (leNat ((e.bytes.drop 18).take 2)))) (s.kpc core + len) s t ∧
            (t.core core).queues.getD (f7Of i % 8) [] = rest ∧
            (∀ k < 64, t.byte (a + k) = e.bytes.getD k 0) ∧ (∀ b, b < a ∨ a + 64 ≤ b → t.byte b = s.byte b)) ∧
        (s.poppable core (f7Of i % 8) = none → Gives (.qtake core) s fun t => Faulted core 0x3802 s t)) ∧
      (∀ i len, CustomAt s core .qwait i len → six4 core ((s.fetch core).1.kx core (rs1Of i)).toNat ≠ .bad →
        (s.fetch core).1.consumes core (f7Of i % 8) 0 = true → (s.core core).haltReq = false → Gives (.qwait core) s fun t =>
          t.core core = { s.core core with kwait := .qwait (f7Of i % 8) (rdOf i) ((s.fetch core).1.kx core (rs1Of i)).toNat } ∧
          (∀ m, m ≠ core.val → t.core m = s.core m)) ∧
      (∀ q rd a d e rest, (s.core core).kwait = .qwait q rd a → s.inBeat core = true → six4 core a = .dmem d → q < 8 →
        (s.core core).queues.getD q [] = e :: rest → e.beat < s.beatOf core →
        max (s.core core).kAt (e.beat + 1) + s.lat 18 ≤ s.beatOf core + 1 → s.wf = true → e.bytes.length = 64 →
        (s.core core).qlate = [] → (s.core core).queues.length = 8 → Gives (.qwaitComplete core) s fun t =>
          Retired core rd (some (BitVec.ofNat 32 (leNat ((e.bytes.drop 18).take 2)))) (s.pcAfter core) s t ∧
          (t.core core).queues.getD q [] = rest ∧
          (∀ k < 64, t.byte (d + k) = e.bytes.getD k 0) ∧ (∀ b, b < d ∨ d + 64 ≤ b → t.byte b = s.byte b)))

namespace Sys2Proof.Machine

/-- The eight words of a descriptor that the keeper issues. -/
def descWords (e : List Byte) : List Word :=
  (List.range 8).map fun j => BitVec.ofNat 64 (leNat ((e.drop (8 * j)).take 8))

end Sys2Proof.Machine

/-- ISSUE appends the descriptor to a stream's FIFO of at most 8, or waits while it is full; its completion appends then; IFREE answers
the free places. -/
def Obligations.IssueQueue : Prop :=
  ∀ (core : Fin 256) (s : State),
    (∀ i len a, CustomAt s core .issue i len → six4 core ((s.fetch core).1.kx core (rs1Of i)).toNat = .dmem a →
      (s.fetch core).1.kdue core ((s.fetch core).1.lat 18) = true → ((s.fetch core).1.keeperLines core a 64).2 = false →
      (((s.core core).fifo (f7Of i % 2 == 1)).length < 8 → Gives (.issue core) s fun t =>
        Retired core 0 none (s.kpc core + len) ((s.fetch core).1.keeperLines core a 64).1 t ∧
        (t.core core).fifo (f7Of i % 2 == 1) = (s.core core).fifo (f7Of i % 2 == 1) ++ [descWords (s.bytes a 64)] ∧
        (t.core core).fifo (f7Of i % 2 != 1) = (s.core core).fifo (f7Of i % 2 != 1)) ∧
      (8 ≤ ((s.core core).fifo (f7Of i % 2 == 1)).length → (s.core core).haltReq = false → Gives (.issue core) s fun t =>
        t.core core = { s.core core with kwait := .issue (f7Of i % 2) (s.bytes a 64) })) ∧
    (∀ st e, (s.core core).kwait = .issue st e → s.inBeat core = true → ((s.core core).fifo (st == 1)).length < 8 →
      Gives (.issueComplete core) s fun t =>
        Retired core 0 none (s.pcAfter core) s t ∧
        (t.core core).fifo (st == 1) = (s.core core).fifo (st == 1) ++ [descWords e] ∧
        (t.core core).fifo (st != 1) = (s.core core).fifo (st != 1) ∧ SameRegs (coreShown core) s t) ∧
    (∀ i len, CustomAt s core .ifree i len → Gives (.ifree core) s fun t =>
      Retired core (rdOf i) (some (BitVec.ofNat 32 (8 - ((s.core core).fifo (f7Of i % 2 == 1)).length))) (s.kpc core + len)
        (s.fetch core).1 t)

/-- Lock instructions of the keeper: a signal to its own core joins the beat's signals, a wait that the count can serve takes it and
retires and one that it cannot waits, a take does the same without waiting, a read answers the count. A wait of the keeper is satisfied
when the count reaches it: it is served and the instruction retires. -/
def Obligations.KeeperCounters : Prop :=
  (
    ∀ (core : Fin 256) (s : State) (i len : Nat),
      let u := (s.fetch core).1
      let pc := s.kpc core + len
      let k := (u.kx core (rs1Of i)).toNat % 65536
      let ctr := f7Of i % 32
      (CustomAt s core .lsig i len → f7Of i < 32 → Gives (.lsig core) s fun t =>
        Retired core 0 none pc u t ∧
        (t.core core).sigs = (s.core core).sigs ++ (if k = 0 then [] else [⟨ctr, k, core, 2⟩]) ∧ SameRegs (coreShown core) u t) ∧
      (CustomAt s core .lsig i len → 32 ≤ f7Of i →
        let v := (u.kx core (rs2Of i)).toNat
        (v < u.vgrid → Gives (.lsig core) s fun t =>
          Retired core 0 none pc u t ∧ SameRegs (coreShown core) u t ∧
          (t.core core).sigs = (s.core core).sigs ++ (if k ≠ 0 ∧ u.vmap v = core then [⟨ctr, k, core, 2⟩] else []) ∧
          t.locks.sync = s.locks.sync ++ (if k ≠ 0 ∧ u.vmap v ≠ core then
            [⟨u.vmap v, ctr, k, u.beatOf core + u.lat 21 + hops core (u.vmap v), core, 2⟩] else [])) ∧
        (u.vgrid ≤ v → Gives (.lsig core) s fun t => Faulted core 0x3804 s t)) ∧
      (CustomAt s core .lwait i len → k ≤ u.countFor core ctr .keeper → Gives (.lwait core) s fun t =>
        Retired core 0 none pc u t ∧ t.lockCount core ctr = (u.lockCount core ctr - k) % 65536 ∧
        SameRegs (Reg.LOCK_CNT core ctr :: coreShown core) u t) ∧
      (CustomAt s core .lwait i len → u.countFor core ctr .keeper < k → (u.core core).haltReq = false →
        Gives (.lwait core) s fun t =>
          (t.core core).kwait = .lwait ctr k ∧ (t.core core).x = (s.core core).x ∧ t.kpc core = s.kpc core ∧
          t.lockCount core ctr = u.lockCount core ctr) ∧
      (CustomAt s core .ltake i len → k ≤ u.countFor core ctr .keeper → Gives (.ltake core) s fun t =>
        Retired core 0 none pc u t ∧ t.lockCount core ctr = (u.lockCount core ctr - k) % 65536 ∧
        SameRegs (Reg.LOCK_CNT core ctr :: coreShown core) u t) ∧
      (CustomAt s core .ltake i len → u.countFor core ctr .keeper < k → Gives (.ltake core) s fun t =>
        Retired core 0 none pc u t ∧ t.lockCount core ctr = u.lockCount core ctr ∧
        t.get (Reg.LOCK_CNT core ctr) Fld.LOCK_CNT.unf = 1) ∧
      (CustomAt s core .lread i len → Gives (.lread core) s fun t =>
        Retired core (rdOf i) (some (BitVec.ofNat 32 (u.lockCount core ctr))) pc u t ∧ SameRegs (coreShown core) u t)) ∧
  (
    ∀ (core : Fin 256) (s : State) (i k : Nat), (s.core core).kwait = .lwait i k → s.inBeat core = true →
      k ≤ s.countFor core i .keeper → Gives (.lwaitSatisfied core) s fun t =>
        Retired core 0 none (s.pcAfter core) s t ∧ t.lockCount core i = (s.lockCount core i - k) % 65536 ∧
        SameRegs (Reg.LOCK_CNT core i :: coreShown core) s t)

/-- LBAR is an arrival at a barrier slot, recorded at once where every participant has come to the beat: the core joins the arrived set of
an armed slot it belongs to and the instruction retires; the last arrival of a local slot counts a generation and sends the release, early
arrivals staying for the next, and a core that has arrived already is early. An arrival ahead of a participant's beat waits for it. At a
slot that is not armed the arrival is dropped with 0x3306, from a core outside it with 0x3304, and a third one with 0x3305. -/
def Obligations.KeeperBarrier : Prop :=
  ∀ (core : Fin 256) (s : State) (i len : Nat), CustomAt s core .lbar i len →
    let u := (s.fetch core).1
    let b := (u.kx core (rs1Of i)).toNat % 64
    let x := u.slot b
    let stat := Reg.LOCK_SLOT_STAT b
    let arrived := x.arrived ++ [core.val]
    let ready := x.wait = [] ∧ u.slotAt b (u.beatOf core) = true
    let retires := Retired core 0 none (s.kpc core + len)
    (u.get (Reg.LOCK_SLOT_CTRL b) Fld.LOCK_SLOT_CTRL.armed = 1 → (u.slotCores b).contains core.val = true →
      (ready → x.arrived.contains core.val = false → (u.slotCores b).all arrived.contains = false → Gives (.lbar core) s fun t =>
        retires u t ∧ t.slot b = { x with arrived := arrived } ∧ (∀ c, c ≠ b → t.slot c = s.slot c) ∧
        SameRegs (stat :: coreShown core) u t) ∧
      (ready → x.arrived.contains core.val = false → (u.slotCores b).all arrived.contains = true →
        u.get (Reg.LOCK_SLOT_CTRL b) Fld.LOCK_SLOT_CTRL.fabric = 0 → Gives (.lbar core) s fun t =>
          retires u t ∧ (t.slot b).arrived = x.early ∧ (t.slot b).early = [] ∧
          (u.written stat Fld.LOCK_SLOT_STAT.gen = false →
            t.get stat Fld.LOCK_SLOT_STAT.gen = (u.get stat Fld.LOCK_SLOT_STAT.gen + 1) % 65536) ∧
          t.locks.releases = s.locks.releases ++ [⟨b, u.beatOf core + u.lat 22,
            u.get (Reg.LOCK_SLOT_CTRL b) Fld.LOCK_SLOT_CTRL.rel_ctr, u.slotCores b⟩]) ∧
      (ready → x.arrived.contains core.val = true → x.early.contains core.val = false → Gives (.lbar core) s fun t =>
        retires u t ∧ t.slot b = { x with early := x.early ++ [core.val] } ∧ SameRegs (stat :: coreShown core) u t) ∧
      (ready → x.arrived.contains core.val = true → x.early.contains core.val = true → Gives (.lbar core) s fun t =>
        retires (u.lockErr 0x3305 core 2 b 0) t ∧ t.locks = s.locks) ∧
      (¬ ready → Gives (.lbar core) s fun t =>
        retires u t ∧ SameRegs (coreShown core) u t ∧
        t.slot b = { x with wait := placeArrival ⟨core, u.beatOf core, 2, u.beatOf core - (u.core core).stepBeat0⟩ x.wait })) ∧
    (u.get (Reg.LOCK_SLOT_CTRL b) Fld.LOCK_SLOT_CTRL.armed = 1 → (u.slotCores b).contains core.val = false → Gives (.lbar core) s fun t =>
      retires (u.lockErr 0x3304 core 2 b 0) t ∧ t.locks = s.locks) ∧
    (u.get (Reg.LOCK_SLOT_CTRL b) Fld.LOCK_SLOT_CTRL.armed = 0 → Gives (.lbar core) s fun t =>
      retires (u.lockErr 0x3306 core 2 b 0) t ∧ t.locks = s.locks)

/-- A step begins in a core when its next record is there: the record becomes current, its step word is the result, the core is in step
from this beat; with no record KSTEPW waits under a hold request, and within a step it faults. Its completion needs every waiting core to
hold its record. A step ends in a core: KDONE waits, and completes in the beat after the first in which both streams are idle; STEP_STAT
then shows the beats of the step and the core is out of step. KSEL answers the address of the menu entry of the step's class. -/
def Obligations.StepsInCore : Prop :=
  (
    ∀ (core : Fin 256) (s : State),
      (∀ i len, CustomAt s core .kstepw i len → (s.fetch core).1.inStep core = false →
        (∀ r, (s.core core).nextRec = some r → Gives (.kstepw core) s fun t =>
          t.kpc core = nextPc s core (s.kpc core + len) ∧ (∀ j < 8, t.reg (Reg.STEP_REC core j) = r.getD j 0) ∧
          t.inStep core = true ∧ (t.core core).nextRec = none ∧ (t.core core).stepBeat0 = s.beatOf core ∧
          (t.core core).instret = (s.core core).instret + 1 ∧
          (rdOf i ≠ 0 → rdOf i < (s.core core).x.length → t.kx core (rdOf i) = (r.getD 0 0).setWidth 32)) ∧
        ((s.core core).nextRec = none → (s.core core).haltReq = false → Gives (.kstepw core) s fun t =>
          (t.core core).kwait = .kstepw (rdOf i) ∧ recordReq core ∈ t.die.holds ∧ t.kpc core = s.kpc core)) ∧
      (∀ i len, CustomAt s core .kstepw i len → (s.fetch core).1.inStep core = true → Gives (.kstepw core) s fun t =>
        Faulted core 0x3801 s t) ∧
      (∀ rd r, (s.core core).kwait = .kstepw rd → (s.core core).nextRec = some r → s.inBeat core = true →
        (∀ m < 256, s.lacksRecord m = false) → Gives (.kstepwComplete core) s fun t =>
          t.kpc core = nextPc s core (s.pcAfter core) ∧ (∀ j < 8, t.reg (Reg.STEP_REC core j) = r.getD j 0) ∧
          t.inStep core = true ∧ (t.core core).nextRec = none ∧ (t.core core).stepBeat0 = s.beatOf core ∧
          (t.core core).kwait = .none ∧ recordReq core ∉ t.die.holds)) ∧
  (
    ∀ (core : Fin 256) (s : State),
      (∀ i len, CustomAt s core .kdone i len →
        ((s.fetch core).1.inStep core = true → (s.core core).haltReq = false → Gives (.kdone core) s fun t =>
          (t.core core).kwait = .kdone (s.beatOf core) ∧ t.kpc core = s.kpc core) ∧
        ((s.fetch core).1.inStep core = false → Gives (.kdone core) s fun t => Faulted core 0x3801 s t)) ∧
      (∀ since, (s.core core).kwait = .kdone since → s.inBeat core = true → (s.core core).idleStreams = true →
        (s.core core).idleFrom since < s.beatOf core → Gives (.kdoneComplete core) s fun t =>
          t.get (Reg.STEP_STAT core) Fld.STEP_STAT.beats = (s.beatOf core - (s.core core).stepBeat0 + 1) % 2 ^ 32 ∧
          t.inStep core = false ∧ (t.core core).readyFor = some (s.reg (Reg.STEP_REC core 0)).toNat ∧
          (t.core core).kwait = .none ∧ (t.core core).instret = (s.core core).instret + 1 ∧
          t.kpc core = nextPc s core (s.pcAfter core)) ∧
      (∀ i len, CustomAt s core .ksel i len →
        let u := (s.fetch core).1
        let cls := (u.reg (Reg.STEP_REC core 1)).toNat % 2 ^ 32
        let base := u.get (Reg.MENU_BASE core) Fld.MENU_BASE.base
        let a := dmemAddr core (base + 32 * cls)
        (u.kdue core (u.lat 17) = true → cls < u.get (Reg.MENU_BASE core) Fld.MENU_BASE.count →
          (u.keeperLines core a 32).2 = false → leNat (u.bytes a 4) = cls → Gives (.ksel core) s fun t =>
            Retired core (rdOf i) (some (BitVec.ofNat 32 (0x10000 + base + 32 * cls))) (s.kpc core + len)
              (u.keeperLines core a 32).1 t ∧
            (t.core core).menu = some (leNat (u.bytes (a + 4) 4))) ∧
        (u.kdue core (u.lat 17) = true → u.get (Reg.MENU_BASE core) Fld.MENU_BASE.count ≤ cls → Gives (.ksel core) s fun t =>
          Faulted core 0x3805 s t)))

/-- A narrow access that waits for its bank or port is made in a beat that leaves it free: a load retires with its bytes, a store with its
bytes written or left to the beat's end, the bank or port then taken for the beat. The oldest access of the register path is made where it
is free of the keeper's accesses too, one in a beat. -/
def Obligations.NarrowAccess : Prop :=
  ∀ (core : Fin 256) (s : State), s.inBeat core = true →
    (∀ nb rd a f3, nb ≤ s.beatOf core → (s.core core).kwait = .narrow (.load rd a f3) nb → s.narrowFree core a = true →
      let v := s.takeNarrow core a
      let w := v.keeperLines core a (sizeOf3 f3)
      w.2 = false → Gives (.narrowAccessServe core) s fun t =>
        Retired core rd (some (loadVal f3 (s.bytes a (sizeOf3 f3)))) (s.pcAfter core) w.1 t ∧ SameBytes s t ∧
        (t.core core).banks = (v.core core).banks ∧ (t.core core).narrowAt = (v.core core).narrowAt) ∧
    (∀ nb a size x, nb ≤ s.beatOf core → (s.core core).kwait = .narrow (.store a size x) nb → s.narrowFree core a = true → s.wf = true →
      a % 32 + size ≤ 32 → 0 < size → a / 0x4000000 = core → memKind a ≠ .kdmem →
      let v := s.takeNarrow core a
      Gives (.narrowAccessServe core) s fun t =>
        Retired core 0 none (s.pcAfter core) (v.noteStore a size (some core)) t ∧
        (t.core core).banks = (v.core core).banks ∧ (t.core core).narrowAt = (v.core core).narrowAt ∧
        (s.defers (lineOf a) = false →
          (∀ k < size, t.byte (a + k) = (natLe size x).getD k 0) ∧ ∀ b, b < a ∨ a + size ≤ b → t.byte b = s.byte b) ∧
        (s.defers (lineOf a) = true → SameBytes s t)) ∧
    (∀ p rest, (s.core core).narrowQ = p :: rest → (∀ op nb, (s.core core).kwait ≠ .narrow op nb) →
      s.narrowFree core p.addr = true → s.keeperDone core = true → (s.core core).pathAt ≠ some (s.beatOf core) → p.addr / 0x4000000 = core → p.asker = .none →
      let v := s.takeNarrow core p.addr
      Gives (.narrowAccessServe core) s fun t =>
        (t.core core).narrowQ = rest ∧ (t.core core).banks = (v.core core).banks ∧ (t.core core).narrowAt = (v.core core).narrowAt ∧
        (p.val = none → SameBytes s t))

/-! ### Core control and macro-ops -/

/-- Commands on CORE_CTRL move a core between its states, and a halt waits for the instruction in progress. With debug closed the three
debug commands change no core and are logged as errors. -/
def Obligations.CoreControl : Prop :=
  ∀ (core : Fin 256) (s : State), s.enabled core = true →
    (s.coreState core = stStopped → Gives (.armCore core) s fun t =>
      t.coreState core = stLoaded ∧ t.get (Reg.CORE_CTRL core) Fld.CORE_CTRL.arm = 1 ∧ Only [.regs] s t ∧
      SameRegs [Reg.CORE_STAT core, Reg.CORE_CTRL core] s t) ∧
    (s.coreState core = stLoaded → Gives (.disarmCore core) s fun t =>
      t.coreState core = stStopped ∧ t.get (Reg.CORE_CTRL core) Fld.CORE_CTRL.arm = 0 ∧ Only [.regs] s t ∧
      SameRegs [Reg.CORE_STAT core, Reg.CORE_CTRL core] s t) ∧
    (s.debugClosed = false →
      (s.coreState core = stRunning →
        (s.abandons core (s.core core).kwait = true ∨ (s.core core).kwait = .none ∧ s.beatOf core < (s.core core).kAt →
          Gives (.haltCore core) s fun t =>
            t.coreState core = stHalted ∧ t.get (Reg.CORE_STAT core) Fld.CORE_STAT.halted_once = 1 ∧
            t.get Reg.DTRM_STAT Fld.DTRM_STAT.halted = 1 ∧
            t.core core = { s.core core with kwait := .none, kstep := false, haltReq := false } ∧
            (∀ m, m ≠ core.val → t.core m = s.core m) ∧ (∀ h ∈ t.die.holds, keeperHold core h = false) ∧
            SameRegs (coreShown core) s t) ∧
        (s.abandons core (s.core core).kwait = false →
          ((s.core core).kwait = .none → (s.core core).kAt ≤ s.beatOf core) →
          exec (.haltCore core) s = .next (s.setCore core { s.core core with haltReq := true }))) ∧
      (s.coreState core = stHalted →
        (Gives (.resumeCore core) s fun t =>
          t.coreState core = stRunning ∧
          t.core core = { s.core core with kstep := false, kAt := max (s.core core).kAt (s.beatOf core + 1) } ∧
          (∀ m, m ≠ core.val → t.core m = s.core m) ∧ SameRegs (coreShown core) s t) ∧
        ((s.core core).kstep = false → Gives (.kstepCore core) s fun t =>
          t.coreState core = stHalted ∧ t.get (Reg.CORE_STAT core) Fld.CORE_STAT.keep_state = 1 ∧
          t.core core = { s.core core with kstep := true, kAt := max (s.core core).kAt (s.beatOf core + 1) } ∧
          (∀ m, m ≠ core.val → t.core m = s.core m) ∧ SameRegs (coreShown core) s t))) ∧
    (s.debugClosed = true → s.coreState core = stRunning ∨ s.coreState core = stHalted →
      ∀ c ∈ [Instr.haltCore core, .resumeCore core, .kstepCore core],
        exec c s = .next (s.logCore core 0x3806) ∧ (s.logCore core 0x3806).cores = s.cores ∧
        SameRegsButErr [] s (s.logCore core 0x3806))

namespace Sys2Proof.Machine

/-- The head `d` of a stream of core `n`, an operation `k` of class `p` in native or legacy form, can start in the beat in progress,
and the head of the other stream is none of the class. -/
def Starts (s : State) (n : Nat) (onX legacy : Bool) (p : OpKind → Bool) (d : List Word) (k : OpKind) : Prop :=
  s.headIs n onX legacy p = some (d, k) ∧ s.headIs n (!onX) legacy p = none ∧ s.headFate n onX = .starts ∧
  (s.core n).sluice.length = 4

/-- The macro-op of `d` runs on its unit from the beat in progress: it has left its FIFO, its pre-wait is served and the queues of
its pop mask are popped (R181, R186). -/
def Started (n : Nat) (onX : Bool) (d : List Word) (k : OpKind) (s t : State) : Prop :=
  (∃ r, (t.core n).running k.unit = some r ∧ r.desc = d ∧ r.start = s.beatOf n ∧ r.cost = dCost d ∧ r.legacy = isLegacy d) ∧
  (t.core n).fifo onX = ((s.core n).fifo onX).drop 1 ∧ (t.core n).fifo (!onX) = (s.core n).fifo (!onX) ∧
  (t.core n).lastStart onX = some (s.beatOf n) ∧
  ((dPre d).kind = 1 → t.lockCount n (dPre d).index = s.lockCount n (dPre d).index - (dPre d).n) ∧
  ((s.core n).qlate = [] → (s.core n).queues.length = 8 → ∀ q < 8, (t.core n).queues.getD q [] =
    if (dPop d).testBit q then ((s.core n).queues.getD q []).drop 1 else (s.core n).queues.getD q []) ∧
  (t.core n).x = (s.core n).x ∧ t.kpc n = s.kpc n ∧ (∀ m, m ≠ n → t.core m = s.core m)

/-- The commands of the vector instructions, in the order of their opcodes (R213). -/
def vecCmds (core : Fin 256) : List Instr :=
  [.vadd core, .vsub core, .vmul core, .vfma core, .vmax core, .vmin core, .vneg core, .vabs core, .vsel core, .vcmp core,
   .vcvt core, .vexp2 core, .vlog2 core, .vrcp core, .vrsq core, .vsig core, .vsilu core, .vtanh core, .vgelu core,
   .vsum core, .vsumsq core, .vdot core, .vrsum core, .vrmax core, .vargmax core, .vtopk core, .vsample core]

end Sys2Proof.Machine

/-- A vector instruction starts on the vector unit, from the X-stream or whichever stream holds it, in native form or, by LVECTOR, in
AVN-3 form; it shows the unit busy. A matrix multiply starts on the array, in native or AVN-3 form, with its anchor shown and the array
busy; a no-operation starts on its stream's unit. -/
def Obligations.UnitStarts : Prop :=
  (
    ∀ (core : Fin 256) (onX : Bool) (d : List Word) (k : OpKind) (s : State),
      (∀ i c, (vecCmds core)[i]? = some c → Starts s core onX false (· == .vec i) d k → Gives c s fun t =>
        Started core onX d k s t ∧ t.get (Reg.VEC_STAT core) Fld.VEC_STAT.busy = 1) ∧
      (Starts s core onX true (fun k => match k with
          | .vec _ => true
          | _ => false) d k → Gives (.lvector core) s fun t =>
        Started core onX d k s t ∧ t.get (Reg.VEC_STAT core) Fld.VEC_STAT.busy = 1)) ∧
  (
    ∀ (core : Fin 256) (onX : Bool) (d : List Word) (k : OpKind) (s : State),
      (Starts s core onX false (· == .mmul) d k → Gives (.mmul core) s fun t =>
        Started core onX d k s t ∧ t.get (Reg.ARRAY_STAT core) Fld.ARRAY_STAT.busy = 1) ∧
      (Starts s core onX true (· == .mmul) d k → Gives (.lmmul core) s fun t =>
        Started core onX d k s t ∧ t.get (Reg.ARRAY_STAT core) Fld.ARRAY_STAT.busy = 1) ∧
      (Starts s core onX false (· == .xnop) d k → Gives (.xnop core) s fun t => Started core onX d k s t) ∧
      (Starts s core onX false (· == .anop) d k → Gives (.anop core) s fun t => Started core onX d k s t))

namespace Sys2Proof.Machine

/-- Sluice operations by kind. -/
def sluOpCmd (core : Fin 256) (sl : Fin 4) : Fin 5 → Instr × OpKind
  | 0 => (.scopy core, .scopy sl)
  | 1 => (.scast core, .scast sl)
  | 2 => (.skvr core, .skvr sl)
  | 3 => (.skvw core, .skvw sl)
  | 4 => (.sred core, .sred sl)

/-- The operations of a kind, on whichever sluice: what a sluice command looks for at the heads of the streams. -/
def sluClass : Fin 5 → OpKind → Bool
  | 0, .scopy _ => true
  | 1, .scast _ => true
  | 2, .skvr _ => true
  | 3, .skvw _ => true
  | 4, .sred _ => true
  | _, _ => false

end Sys2Proof.Machine

/-- A mover's operation starts on the feeder or on the sluice that its opcode names, which counts one start more where no write of the
beat set that count, whatever operation of another kind heads the other stream. -/
def Obligations.MoverStarts : Prop :=
  ∀ (core : Fin 256) (onX : Bool) (d : List Word) (s : State),
    (Starts s core onX false (· == .fload) d .fload → Gives (.fload core) s fun t => Started core onX d .fload s t) ∧
    (Starts s core onX false (· == .fstore) d .fstore → Gives (.fstore core) s fun t => Started core onX d .fstore s t) ∧
    (Starts s core onX true (· == .fload) d .fload → Gives (.lload core) s fun t => Started core onX d .fload s t) ∧
    (Starts s core onX true (· == .fstore) d .fstore → Gives (.lstore core) s fun t => Started core onX d .fstore s t) ∧
    (∀ (sl : Fin 4) (j : Fin 5), Starts s core onX false (sluClass j) d (sluOpCmd core sl j).2 → Gives (sluOpCmd core sl j).1 s fun t =>
        Started core onX d (sluOpCmd core sl j).2 s t ∧
        (s.written (Reg.SLUICE_STAT core sl) Fld.SLUICE_STAT.started = false →
          t.get (Reg.SLUICE_STAT core sl) Fld.SLUICE_STAT.started = (s.get (Reg.SLUICE_STAT core sl) Fld.SLUICE_STAT.started + 1) % 2 ^ Fld.SLUICE_STAT.started.width)) ∧
    (∀ sl : Fin 4, Starts s core onX true (sluClass 0) d (.scopy sl) → Gives (.lcopy core) s fun t => Started core onX d (.scopy sl) s t)

namespace Sys2Proof.Machine

/-- A last beat of the unit `u` of core `n`, which runs `r` and waits for nothing more. -/
def EndsNow (s : State) (n : Nat) (u : UnitId) (r : RunOp) : Prop :=
  (s.core n).running u = some r ∧ s.inBeat n = true ∧ r.start + r.cost ≤ s.beatOf n + 1 ∧ s.die.holds.any (unitHold n u) = false ∧
  ¬(u = .array ∧ (s.core n).arrayLate = true) ∧ (r.dead = true ∨ s.lateKinds n u = none)

/-- Bit `b` of the device address space, as a read delivers it. -/
def bitOf (s : State) (b : Nat) : Bool := (s.byte (b / 8)).getLsbD (b % 8)

/-- Writes within bits of their own, none of them in a line that the beat defers. -/
def Apart (s : State) (ws : List PendWrite) : Prop :=
  ws.Pairwise (fun v w => v.bit + v.width ≤ w.bit ∨ w.bit + w.width ≤ v.bit) ∧
  ∀ w ∈ ws, 0 < w.width ∧ w.width ≤ 256 ∧ s.defers (lineOf (w.bit / 8)) = false ∧
    s.defers (lineOf ((w.bit + w.width - 1) / 8)) = false

/-- Every write has its bits in `t`, and every bit that is in none of them reads as it did in `s`. -/
def Land (ws : List PendWrite) (s t : State) : Prop :=
  (∀ w ∈ ws, ∀ j < w.width, bitOf t (w.bit + j) = w.val.testBit j) ∧
  ∀ b, (∀ w ∈ ws, b < w.bit ∨ w.bit + w.width ≤ b) → bitOf t b = bitOf s b

end Sys2Proof.Machine

/-- A macro-op whose items have all arrived ends in its last beat: its unit is free from the next beat, every queue of its push mask with
room takes its entry, which carries its tag, the user half and the sequence number, and a signal to its own core joins the beat's. A
transfer with items of a hold or of another chip late raises a hold request and goes on. What macro-ops leave. A vector instruction
computes its results from its first beat's operands and writes them, with its accumulator and its flags, in its last beat; the writes land
in their own bits, and every other bit of memory reads as before. A multiply writes the entries that a drain beat holds in that beat, an
SRED its results as they are served, and a feeder operation its pieces: in their last beats these units, and a sluice, leave every byte of
memory and every accumulator as they were, and the array shows the flags of what it drained. -/
def Obligations.MacroOpResults : Prop :=
  (
    ∀ (core : Fin 256) (u : UnitId) (r : RunOp) (s : State), (s.core core).running u = some r → s.inBeat core = true →
      r.start + r.cost ≤ s.beatOf core + 1 → s.die.holds.any (unitHold core u) = false →
      ¬(u = .array ∧ (s.core core).arrayLate = true) →
      (r.dead = true ∨ s.lateKinds core u = none → Gives (.macroOpLastBeat core u) s fun t =>
        (t.core core).running u = none ∧ smFind (t.core core).freed (unitNum u) = some (s.beatOf core) ∧
        (∀ onX, (t.core core).fifo onX = (s.core core).fifo onX) ∧ (t.core core).x = (s.core core).x ∧
        ((s.core core).queues.length = 8 → ∀ q < 8,
          ((dPush r.desc).testBit q = false → (t.core core).queues.getD q [] = (s.core core).queues.getD q []) ∧
          ((dPush r.desc).testBit q = true → ((s.core core).queues.getD q []).length < 16 →
            ∃ e, (t.core core).queues.getD q [] = (s.core core).queues.getD q [] ++ [e] ∧ e.beat = s.beatOf core ∧
              leNat ((e.bytes.drop 16).take 2) = dTag r.desc ∧
              leNat ((e.bytes.drop 18).take 2) = (s.core core).qseq.getD q 0 % 65536 ∧ e.bytes.drop 32 = r.user)) ∧
        ((dPost r.desc).kind = 1 → (dPost r.desc).n ≠ 0 → r.dead = false → r.legacy = false →
          (t.core core).sigs = (s.core core).sigs ++
            [⟨(dPost r.desc).index, (dPost r.desc).n, core, issuerNum (issuerOf (onXUnit u))⟩]) ∧
        (u = .array → t.get (Reg.ARRAY_STAT core) Fld.ARRAY_STAT.busy = 0)) ∧
      (∀ hold link, r.dead = false → s.lateKinds core u = some (hold, link) → (hold || link) = true → s.arriving core = false →
        Gives (.macroOpLastBeat core u) s fun t =>
          (t.core core).running u = some r ∧
          { cause := if link then .linkLate else .memoryLate, core := core.val, unit := some u } ∈ t.die.holds)) ∧
  (
    (∀ (n rank : Nat) (u : UnitId) (ws : List PendWrite) (s : State), s.wf = true → Apart s ws → Land ws s (s.applyWrites n u rank ws)) ∧
    (∀ (core : Fin 256) (onX : Bool) (d : List Word) (i : Nat) (c : Instr) (s : State), (vecCmds core)[i]? = some c →
      Starts s core onX false (· == .vec i) d (.vec i) → Gives c s fun t =>
        let u := s.startHead core onX d (.vec i)
        ∃ x, (t.core core).vector = some x ∧ x.writes = (u.vecRun core (u.vecOf core i d)).writes ∧
          x.afa = (u.vecRun core (u.vecOf core i d)).afa ∧ SameBytes s t) ∧
    (∀ (core : Fin 256) (r : RunOp) (i : Nat) (s : State), EndsNow s core .vector r → opKind (opByte r.desc) = some (.vec i) →
      Gives (.macroOpLastBeat core .vector) s fun t =>
        SameBytes (s.applyWrites core .vector 4 r.writes) t ∧ (t.core core).later = ((s.applyWrites core .vector 4 r.writes).core core).later ∧
        (s.wf = true → Apart s r.writes → Land r.writes s t) ∧ (t.core core).acc = (s.core core).acc ∧
        (t.core core).vafa = (match r.afa with
          | some (k, a) => smPut (s.core core).vafa k a
          | none => (s.core core).vafa) ∧
        t.get (Reg.VEC_STAT core) Fld.VEC_STAT.last_lane = r.lane % 2 ^ Fld.VEC_STAT.last_lane.width) ∧
    (∀ (core : Fin 256) (u : UnitId) (r : RunOp) (s : State), u ≠ .vector → EndsNow s core u r →
      Gives (.macroOpLastBeat core u) s fun t =>
        SameBytes s t ∧ (t.core core).later = (s.core core).later ∧ (t.core core).acc = (s.core core).acc ∧
        (t.core core).vafa = (s.core core).vafa ∧
        (u = .array → t.get (Reg.ARRAY_STAT core) Fld.ARRAY_STAT.last_flags = r.drain.getD 0 % 2 ^ Fld.ARRAY_STAT.last_flags.width ∧
          t.get (Reg.ARRAY_STAT core) Fld.ARRAY_STAT.last_poison = if (s.core core).arrayBad then 1 else 0)) ∧
    (∀ (core : Fin 256) (r : RunOp) (b m col : Nat) (s : State),
      let o := mmulOf r.desc
      let es := drainBytes o.dfmt
      let at_ := fun (i j : Nat) => 8 * (s.placeAddr core o.dstBase + o.dstStride * i + es * j)
      let e := m * o.nTile + col
      s.wf = true → o.n * es ≤ o.dstStride → o.n ≤ o.nTile → r.cost ≤ b + o.d → m < o.m → col < o.n →
      (b + o.d - r.cost) * drainPerBeat o.dfmt ≤ e → e < (b + o.d - r.cost + 1) * drainPerBeat o.dfmt →
      (∀ i j, i < o.m → j < o.n → s.defers (lineOf (at_ i j / 8)) = false ∧ s.defers (lineOf ((at_ i j + 8 * es - 1) / 8)) = false) →
      ∀ k < 8 * es, bitOf (s.arrayDrain core r o b) (at_ m col + k) = (s.drainEntry core o m col).1.testBit k) ∧
    (∀ (core : Fin 256) (sl : Fin 4) (r : RunOp) (o : RedOp) (p : Nat × Nat) (s : State), s.wf = true →
      (s.core core).running (sluUnit sl) = some r → o.listB + o.partB < r.done →
      let ws := r.writes.filter fun w => decide (8 * p.1 ≤ w.bit ∧ w.bit < 8 * (p.1 + p.2))
      Apart s ws → Land ws s (s.redServe core sl o p)))

/-! ### Locks, the mesh and transfers -/

/-- Signals that the sync plane, a barrier release or the pending store brings to a core join its beat's signals: exactly those due, each
with its n, and they leave their store. A slot is armed by a write that names participants, all of them enabled, and, with fabric, chips
and a leader; it then stands empty with gen 0. Any other arming is discarded and logged. Disarming leaves the other fields and empties the
slot. -/
def Obligations.SignalsAndSlots : Prop :=
  (
    ∀ (core : Fin 256) (s : State), s.inBeat core = true →
      (Gives (.syncSignalArrival core) s fun t =>
        let due := fun (x : SyncSig) => x.core == core.val && decide (x.apply ≤ s.beatOf core)
        (t.core core).sigs = (s.core core).sigs ++ ((s.locks.sync.filter fun x => due x && x.n != 0).map fun x => ⟨x.ctr, x.n, x.src, x.issuer⟩) ∧
        t.locks.sync = s.locks.sync.filter (fun x => !due x) ∧ (∀ m, m ≠ core.val → t.core m = s.core m)) ∧
      (Gives (.pendingSignalApply core) s fun t =>
        (t.core core).sigs = (s.core core).sigs ++
          ((s.locks.pend.filter fun e => s.pendDue core e && e.n != 0).map fun e => ⟨e.ctr, e.n, 256, 3⟩) ∧
        t.locks.pend = s.locks.pend.filterMap (fun e => if s.pendDue core e then e.without core else some e) ∧
        t.get Reg.LOCK_XLAT Fld.LOCK_XLAT.pending = t.locks.pend.length % 2 ^ Fld.LOCK_XLAT.pending.width ∧
        (∀ m, m ≠ core.val → t.core m = s.core m) ∧ SameRegs [Reg.LOCK_XLAT] s t) ∧
      (∀ (slot : Fin 64) (r : Release), s.locks.releases = [r] → r.slot = slot → (s.slot slot).again = none → r.cores.Nodup →
        (∀ n ∈ r.cores, r.apply ≤ s.beatOf n ∧ s.inBeat n = true) → Gives (.barrierRelease slot) s fun t =>
          t.locks.releases = [] ∧ t.regs = s.regs ∧
          (∀ n, (t.core n).sigs = if n ∈ r.cores then (s.core n).sigs ++ [⟨r.ctr, 1, 256, 3⟩] else (s.core n).sigs))) ∧
  (
    ∀ (slot : Fin 64) (v : Word) (s : State),
      let a := Reg.LOCK_SLOT_CTRL slot
      (s.get a Fld.LOCK_SLOT_CTRL.armed = 0 → Fld.LOCK_SLOT_CTRL.armed.get v = 1 →
        (s.armable slot v = true → Gives (.slotArm slot v) s fun t =>
          t.get a Fld.LOCK_SLOT_CTRL.armed = 1 ∧ t.get a Fld.LOCK_SLOT_CTRL.rel_ctr = Fld.LOCK_SLOT_CTRL.rel_ctr.get v ∧
          t.get a Fld.LOCK_SLOT_CTRL.fabric = Fld.LOCK_SLOT_CTRL.fabric.get v ∧
          t.get a Fld.LOCK_SLOT_CTRL.nchips = Fld.LOCK_SLOT_CTRL.nchips.get v ∧ t.slot slot = {} ∧
          t.reg (Reg.LOCK_SLOT_STAT slot) = 0 ∧ (∀ i, i ≠ slot.val → t.slot i = s.slot i) ∧ SameRegs [a, Reg.LOCK_SLOT_STAT slot] s t) ∧
        (s.armable slot v = false → exec (.slotArm slot v) s = .next (s.logErr { code := 0x3304, aux := slot }) ∧
          (s.logErr { code := 0x3304, aux := slot }).locks = s.locks)) ∧
      (s.get a Fld.LOCK_SLOT_CTRL.armed = 1 → Gives (.slotDisarm slot) s fun t =>
        t.reg a = Fld.LOCK_SLOT_CTRL.armed.set (s.reg a) 0 ∧ t.slot slot = {} ∧ (∀ i, i ≠ slot.val → t.slot i = s.slot i) ∧
        SameRegsButErr [a, Reg.LOCK_SLOT_STAT slot] s t))

/-- A signal from another chip waits in the pending store for its apply beat, is applied at once where its waiter holds the die, and is
refused at a core or counter that takes none. An arrival at a leader is counted, and the last of a generation sends the release; a fabric
release waits in the store. -/
def Obligations.ChipSignals : Prop :=
  ∀ (s u : State) (b : Barge),
    (s.takeSignal 0 = some (b, u) →
      let v := hDest.get b.header % 256
      let i := sigIndex b % 32
      let n := s.vmap v
      (s.vgrid ≤ v ∨ s.xmode n i = false → Gives .signalBarge s fun t =>
        t.locks = s.locks ∧ t.cores = s.cores ∧ SameRegsButErr [Reg.LOCK_ERR] s t) ∧
      (v < s.vgrid → s.xmode n i = true → s.die.holds.any (s.waitsOn n i) = true → Gives .signalBarge s fun t =>
        (t.core n).sigs = (s.core n).sigs ++ (if sigN b = 0 then [] else [⟨i, sigN b, 256, 3⟩]) ∧ t.locks = s.locks ∧
        t.die.holds = s.die.holds.filter (fun h => !s.waitsOn n i h)) ∧
      (v < s.vgrid → s.xmode n i = true → s.die.holds.any (s.waitsOn n i) = false → s.locks.pend.length < 512 →
        Gives .signalBarge s fun t =>
          t.locks.pend = s.locks.pend ++ [⟨0, n, i, sigN b, sigApply b, hParity.get b.header, [n]⟩] ∧ t.cores = s.cores ∧
          SameRegs [Reg.LOCK_XLAT] s t)) ∧
    (s.takeSignal 1 = some (b, u) →
      let i := sigIndex b % 64
      let x := s.slot i
      let chips := x.chips ++ [(sigGen b, sigApply b)]
      let count := (chips.filter fun p => p.1 == x.gen).length
      let nchips := s.get (Reg.LOCK_SLOT_CTRL i) Fld.LOCK_SLOT_CTRL.nchips
      (count < nchips → Gives .chipArrival s fun t =>
        t.slot i = { x with chips := chips } ∧ (∀ j, j ≠ i → t.slot j = s.slot j) ∧ SameRegs [Reg.LOCK_SLOT_STAT i] s t) ∧
      (nchips ≠ 0 → nchips ≤ count → Gives .chipArrival s fun t =>
        t.slot i = { x with sent := x.gen, chips := chips.filter fun p => p.1 != x.gen } ∧ ∀ j, j ≠ i → t.slot j = s.slot j)) ∧
    (s.takeSignal 2 = some (b, u) → s.locks.pend.length < 512 → s.slotCores (sigIndex b % 64) ≠ [] →
      let i := sigIndex b % 64
      let ctr := s.get (Reg.LOCK_SLOT_CTRL i) Fld.LOCK_SLOT_CTRL.rel_ctr
      (∀ n ∈ s.slotCores i, s.die.holds.any (s.waitsOn n ctr) = false) → Gives .fabricRelease s fun t =>
        t.locks.pend = s.locks.pend ++ [⟨2, 256, ctr, 1, sigApply b, hParity.get b.header, s.slotCores i⟩] ∧ t.cores = s.cores ∧
        SameRegs [Reg.LOCK_XLAT] s t)

/-- A router output takes the one barge that waits for it: to the agent of the node, or over the link to the neighbour, which routes it
on; a barge with check bits that show no error keeps its header. A fenced core's local port takes barges that come to no agent. The entry
of a multicast sends one reply back the way the OPEN came once every branch has answered: a GRANT where all granted, else a REFUSE with
the least code; and one ACK once all have acknowledged, which removes the entry. -/
def Obligations.MeshForwarding : Prop :=
  (
    ∀ (node : Fin 256) (out : MeshPort) (f : Flit) (vc : Nat) (s : State), s.meshRuns node = true →
      smFind s.mesh.moved (node * 8 + portNum out) ≠ some (s.nodeBeat node) → s.candidates node out (s.nodeBeat node) = [f] →
      f.outs = [(out, vc)] → s.outRoom f (out, vc) (s.nodeBeat node) = true → out ≠ .edge → isEdge node out = false → f.node = node.val →
      (out = .localPort → s.enabled node = false → bType f.barge ≠ tyREG → Gives (.bargeForward node out) s fun t =>
        t.mesh.inbox = s.mesh.inbox ∧ t.mesh.flits = dropOut f (out, vc) s.mesh.flits) ∧
      (out = .localPort → s.enabled node = true → f.barge.stale = false → Gives (.bargeForward node out) s fun t =>
        t.mesh.inbox = s.mesh.inbox ++ [⟨destAgent node .localPort f.barge, node, s.nodeBeat node + s.lat 20, f.barge⟩] ∧
        t.mesh.flits = dropOut f (out, vc) s.mesh.flits ∧
        smFind t.mesh.moved (node * 8 + portNum out) = some (s.nodeBeat node)) ∧
      (out ≠ .localPort → f.barge.hcheck = encodeHeader f.barge.header → bMulti f.barge = false → Gives (.bargeForward node out) s fun t =>
        t.mesh.inbox = s.mesh.inbox ∧
        t.mesh.flits = insertFlit ⟨neighbour node out, opposite out, 0, 0, s.nodeBeat node + s.lat 19,
          [s.routeOut (neighbour node out) f.barge], f.barge⟩ (dropOut f (out, vc) s.mesh.flits))) ∧
  (
    ∀ (node : Fin 256) (id : BitVec 12) (e : McEntry) (s : State), s.mcFind node id.toNat = some e → e.outs ≠ [] →
      (e.up = false → (∀ o ∈ e.outs, ∃ g ∈ e.grants, g.1 = o ∧ g.2.2 ≤ s.nodeBeat node) → Gives (.mcastReplyCombine node id) s fun t =>
        t.mcFind node id.toNat = some { e with up := true } ∧
        ∃ f, t.mesh.flits = insertFlit f s.mesh.flits ∧ f.node = node.val ∧ (e.input.2 = 0 → f.outs = [e.input]) ∧
          (bType f.barge = tyGRANT ∧ (∀ g ∈ e.grants, g.2.1 = 0) ∨
           bType f.barge = tyREFUSE ∧ ∃ g ∈ e.grants, g.2.1 ≠ 0 ∧ (∀ h ∈ e.grants, h.2.1 ≠ 0 → g.2.1 ≤ h.2.1) ∧
             payNat f.barge 0 2 = g.2.1 % 65536)) ∧
      (e.up = true → (∀ o ∈ e.outs, ∃ a ∈ e.acks, a.1 = o ∧ a.2.2 ≤ s.nodeBeat node) → Gives (.mcastReplyCombine node id) s fun t =>
        t.mcFind node id.toNat = none ∧
        ∃ f, t.mesh.flits = insertFlit f s.mesh.flits ∧ f.node = node.val ∧ (e.input.2 = 0 → f.outs = [e.input]) ∧ bType f.barge = tyACK ∧
          payNat f.barge 0 1 = if e.acks.any (·.2.1) then 1 else 0))

/-- An OPEN at its destination takes a free landing slot, with credit of its berth where it claims one, once the keeper has done its
beat's grants; with no slot free it is refused and counted. DATA in sequence, of a sub-transfer or of a fill of its weight store, joins
the ingress buffer of its core; a READ is queued with its number, at a core for its own window; an ABORT frees the slot it names; the
oldest READ of a core sends its barge when bank, port and room allow. -/
def Obligations.Landings : Prop :=
  (
    ∀ (a : Agent) (s u : State) (x : Arrival), s.takeArrival a (fun b => bType b == tyOPEN) = some (x, u) →
      (∀ n, a = .core n → s.inBeat n = true → s.claimsBerth n x.barge = true → s.keeperDone n = true) →
      let b := x.barge
      let dst0 := payNat b 0 8 % 2 ^ 48
      let l : Landing := { srcChip := payNat b 26 2, srcCore := payNat b 25 1, src := payNat b 24 1
                           mcast := if bMulti b then some (hDest.get b.header) else none
                           dst := dst0, stride := 32 * payNat b 22 2, rows := payNat b 20 2, rowB := payNat b 16 4, berth := none }
      let slot := s.freeSlot a (s.nodeBeat x.node)
      (slot = none → Gives (.openBarge a) s fun t =>
        t.mesh.landing = s.mesh.landing ∧ (s.written Reg.MESH_STAT Fld.MESH_STAT.busy = false →
          t.get Reg.MESH_STAT Fld.MESH_STAT.busy = min (s.get Reg.MESH_STAT Fld.MESH_STAT.busy + 1) (2 ^ Fld.MESH_STAT.busy.width - 1))) ∧
      (∀ i, slot = some i →
        ((∀ n, a ≠ .core n) → Gives (.openBarge a) s fun t => t.land (slotKey a i) = some l) ∧
        (∀ n : Fin 256, a = .core n →
          let dst := coreBase n + dst0 % 0x4000000
          let off := dst % 0x4000000
          let bt := hBerth.get b.header % 16
          let lo := 64 * s.get (Reg.BERTH_W0 n bt) Fld.BERTH_W0.base
          let hi := lo + 64 * s.get (Reg.BERTH_W0 n bt) Fld.BERTH_W0.size
          let credit := s.get (Reg.BERTH_W1 n bt) Fld.BERTH_W1.credit
          (s.claimsBerth n b = false → Gives (.openBarge a) s fun t => t.land (slotKey a i) = some { l with dst := dst }) ∧
          (s.claimsBerth n b = true → s.get (Reg.BERTH_W0 n bt) Fld.BERTH_W0.enable = 1 →
            lo ≤ off → off + l.stride * (l.rows - 1) + l.rowB ≤ hi → payNat b 8 8 ≤ credit → Gives (.openBarge a) s fun t =>
              t.land (slotKey a i) = some { l with dst := dst, berth := some bt } ∧
              t.get (Reg.BERTH_W1 n bt) Fld.BERTH_W1.credit = credit - payNat b 8 8) ∧
          (s.claimsBerth n b = true →
            (s.get (Reg.BERTH_W0 n bt) Fld.BERTH_W0.enable = 0 ∨ off < lo ∨ hi < off + l.stride * (l.rows - 1) + l.rowB ∨
              credit < payNat b 8 8) → Gives (.openBarge a) s fun t =>
              t.mesh.landing = s.mesh.landing ∧ t.get (Reg.BERTH_W1 n bt) Fld.BERTH_W1.refused = 1 ∧
              t.get (Reg.BERTH_W1 n bt) Fld.BERTH_W1.credit = credit)))) ∧
  (
    ∀ (s u : State) (x : Arrival),
      (∀ (n : Fin 256) (k : Nat) (l : Landing) (d0 d1 : BitVec 256), s.takeArrival (.core n) (fun b => bType b == tyDATA) = some (x, u) →
        mapMark x.barge = 0 ∧ s.dataSlot (.core n) x.barge = some (k, l) ∨
          mapMark x.barge = fillMark ∧ k = fillKey n ∧ s.liveLand k = some l → hSeq.get x.barge.header = l.next % 1024 →
        arriveLine (x.barge.payload.extractLsb' 0 256) x.barge.check0 = (d0, false, 0) →
        arriveLine (x.barge.payload.extractLsb' 256 256) x.barge.check1 = (d1, false, 0) → Gives (.dataBarge (.core n)) s fun t =>
          let place := l.place l.next
          (∃ g, (t.core n).ingress = (s.core n).ingress ++ [g] ∧ g.slot = k ∧ g.addr = place.1 ∧
            g.bytes = (natLe 32 d0.toNat ++ natLe 32 d1.toNat).take place.2 ∧ g.poison.any id = false) ∧
          (∃ codes, t.land k = some { l with next := l.next + 1, logged := codes }) ∧ t.get (Reg.INGRESS_STAT n) Fld.INGRESS_STAT.held =
            ((s.core n).ingress.length + 1) % 2 ^ Fld.INGRESS_STAT.held.width) ∧
      (∀ a, s.takeArrival a (fun b => bType b == tyREAD) = some (x, u) → (s.readQ a).length < 16 →
        ((∀ n, a ≠ .core n) → Gives (.readBarge a) s fun t =>
          t.readQ a = s.readQ a ++ [{ readOf x.barge with id := s.mesh.readSeq }] ∧ t.mesh.readSeq = s.mesh.readSeq + 1) ∧
        (∀ n : Fin 256, a = .core n → Gives (.readBarge a) s fun t =>
          t.readQ a = s.readQ a ++ [{ readOf x.barge with
            src := coreBase n + (readOf x.barge).src % 0x4000000, id := s.mesh.readSeq }] ∧
          t.mesh.readSeq = s.mesh.readSeq + 1)) ∧
      (∀ a k, s.takeArrival a (fun b => bType b == tyABORT) = some (x, u) → s.abortSlot a x.barge = some k →
        Gives (.abortBarge a) s fun t => t.mesh.landing = smDel s.mesh.landing k ∧ t.regs = s.regs) ∧
      (∀ (n : Fin 256) (r : ReadReq), s.readQ (.core n) = [r] → r.sent = 0 → r.total = 1 → r.part = [] → s.meshRuns n = true →
        s.mayInject n r.rclass = true → s.badLines (r.place 0).1 (r.place 0).2 = [] →
        let ps := piecesOf (r.place 0).1 (r.place 0).2
        (∀ p ∈ ps, memKind p.1 ≠ .basin ∨ s.held = true ∨ (s.core n).readGiven.contains p.1 = true) →
        let got := Parts.join (s.readParts ps []) ps
        let b := r.barge 0 got.1 got.2
        bMulti b = false → s.isHere (hChip.get b.header) = true → Gives (.readAgentServe (.core n)) s fun t =>
          t.readQ (.core n) = [] ∧ ∃ f, t.mesh.flits = insertFlit f s.mesh.flits ∧ f.node = n.val ∧ f.port = .localPort ∧ f.barge = b))

/-- The replies that reach a sluice: a GRANT is noted with its slot and beat, an ACK takes the sub-transfer off, a REFUSE ends the
transfer, which sends no signal, and puts the core in FAULT with its code. -/
def Obligations.TransferReplies : Prop :=
  ∀ (core : Fin 256) (sl : Fin 4) (s u : State) (x : Arrival) (tx : Tx), s.tx core sl = some tx →
    (∀ y, s.takeArrival (.core core) (s.forSluice core sl tyGRANT) = some (x, u) → tx.replied x.barge = some y →
      Gives (.grant core sl) s fun t =>
        t.tx core sl = some (tx.setSub { y with granted := some (payNat x.barge 0 8), grantAt := s.beatOf core })) ∧
    (∀ y o, s.takeArrival (.core core) (s.forSluice core sl tyACK) = some (x, u) → tx.replied x.barge = some y →
      s.sluRunning core sl = some o → Gives (.ackBarge core sl) s fun t =>
        (∃ tx', t.tx core sl = some tx' ∧ tx'.subs = tx.subs.filter (fun z => z.idx != y.idx) ∧ tx'.nextRow = tx.nextRow ∧
          (tx'.subs = [] → tx.stage = 2 → o.kind = .copy ∨ o.kind = .cast → 1 ≤ tx.nextRow → tx'.complete = true)) ∧
        (payNat x.barge 0 1 % 2 = 1 → (s.core core).sluice.length = 4 →
          ∃ r, (t.core core).running (sluUnit sl) = some r ∧ r.poison = true)) ∧
    (∀ r, s.takeArrival (.core core) (s.forSluice core sl tyREFUSE) = some (x, u) → (s.core core).running (sluUnit sl) = some r →
      (s.core core).sluice.length = 4 → s.coreState core = stRunning ∨ s.coreState core = stHalted → Gives (.refuse core sl) s fun t =>
        (∃ r', (t.core core).running (sluUnit sl) = some r' ∧ r'.dead = true ∧ r'.desc = r.desc) ∧
        (∃ tx', t.tx core sl = some tx' ∧ tx'.complete = true ∧ tx'.subs = []) ∧
        t.coreState core = stFault ∧ t.get (Reg.CORE_STAT core) Fld.CORE_STAT.fault_err = payNat x.barge 0 2)

/-- A barge of the ingress buffer whose lines are all free to go is written to its place and leaves the buffer: to the basin by the banks
given to it, to the operand cache within the port's bytes of the beat, and to the weight store one unit in a beat. What the beat defers is
made at its end; no other byte changes. -/
def Obligations.IngressWrites : Prop :=
  ∀ (core : Fin 256) (g : Ingress) (s : State), s.wf = true → g.bytes.length = 32 ∨ g.bytes.length = 64 → g.addr % 32 = 0 →
    g.poison.any id = false → g.left = linesFrom g.addr g.bytes.length → (∀ la ∈ g.left, la / 0x4000000 = core) →
    let basin := (s.core core).ingress.find? fun x => memKind x.addr == .basin && !(s.linesNow core x).isEmpty
    let written := fun (t : State) =>
      (t.core core).ingress = setIngress g none (s.core core).ingress ∧
      ((∀ la ∈ g.left, s.defers la = false) →
        (∀ k < g.bytes.length, t.byte (g.addr + k) = g.bytes.getD k 0) ∧
        ∀ b, b < g.addr ∨ g.addr + g.bytes.length ≤ b → t.byte b = s.byte b) ∧
      ((∀ la ∈ g.left, s.defers la = true) → SameBytes s t ∧
        (t.core core).later = (s.core core).later ++ g.left.map fun la =>
          ⟨2, la, fullLine, leNat ((g.bytes.drop (32 * ((la - g.addr) / 32))).take 32), false⟩)
    (s.meshRuns core = true → basin = some g → s.linesNow core g = g.left → Gives (.ingressWrite core) s written) ∧
    (s.meshRuns core = true → basin = none → (s.core core).firstFor .ocache = some g →
      (s.core core).portBytes + g.bytes.length ≤ 256 → Gives (.ingressWrite core) s fun t =>
        written t ∧ (t.core core).portBytes = (s.core core).portBytes + g.bytes.length) ∧
    (s.inBeat core = true → s.held = false → smFind s.mesh.wsWrote core ≠ some (s.beatOf core) →
      (s.core core).firstFor .wstore = some g → (∀ la ∈ g.left, la / 64 = g.addr / 64) →
      Gives (.weightStoreWrite core) s fun t => written t ∧ smFind t.mesh.wsWrote core = some (s.beatOf core))

/-! ### Holds, settings of a core, and program start -/

/-- A pseudo-channel serves its oldest request, refreshes on its schedule or puts a refresh off while requests wait, makes postponed
refreshes up, scrubs line by line and rewrites a corrected line; the temperature of a powered stack sets the refresh mode, or from 105 on
trips the package, and training finds a hold empty. -/
def Obligations.HoldControllers : Prop :=
  ∀ (h : Fin 2) (pc : Fin 64) (s : State),
    let k := h.val * 64 + pc.val
    let x := s.pc k
    let hr := Reg.HOLD_REFRESH h
    (∀ r rest, x.queue = r :: rest → s.pcFree h k = true → (∀ n id j, r.for_ ≠ .fetch n id j) → Gives (.holdRequestComplete h pc) s fun t =>
      (t.pc k).queue = rest ∧ (r.write = none → SameBytes s t) ∧
      (∀ a bs bad, r.write = some [(a, bs, bad)] → s.wf = true → a % 32 = 0 → bs.length % 32 = 0 → bad.any id = false →
        (∀ q, r.for_ ≠ .path q) →
        (∀ i < bs.length, t.byte (a + i) = bs.getD i 0) ∧ ∀ b, b < a ∨ a + bs.length ≤ b → t.byte b = s.byte b)) ∧
    (s.holdOk h = true → Gives (.holdRefresh h pc) s fun t =>
      t.now = max s.now (s.refreshDue h pc) ∧ (t.pc k).nextRef = some (s.refreshDue h pc + s.trefi h) ∧
      SameRegs (hr :: clockRegs s) s t ∧
      (x.queue ≠ [] → x.postponed < 8 → (t.pc k).postponed = x.postponed + 1 ∧ (t.pc k).busyTill = x.busyTill) ∧
      (x.queue = [] ∨ 8 ≤ x.postponed → (t.pc k).postponed = x.postponed ∧
        (t.pc k).busyTill = t.now + 1000 * s.get hr Fld.HOLD_REFRESH.trfc_ns ∧
        (smFind s.marks hr = none →
          t.get hr Fld.HOLD_REFRESH.refreshes = (s.get hr Fld.HOLD_REFRESH.refreshes + 1) % 2 ^ 32))) ∧
    (x.postponed ≠ 0 → x.queue = [] → s.pcFree h k = true → x.postAt + s.trefi h ≤ s.now → s.makingUp h = false →
      Gives (.refreshMakeup h pc) s fun t =>
        (t.pc k).postponed = x.postponed - 1 ∧ (t.pc k).busyTill = s.now + 1000 * s.get hr Fld.HOLD_REFRESH.trfc_ns ∧
        (t.pc k).makeup = (t.pc k).busyTill ∧ SameRegs [hr] s t ∧ (s.written hr Fld.HOLD_REFRESH.refreshes = false →
          t.get hr Fld.HOLD_REFRESH.refreshes = (s.get hr Fld.HOLD_REFRESH.refreshes + 1) % 2 ^ 32)) ∧
    (s.get (Reg.HOLD_CTRL h) Fld.HOLD_CTRL.scrub_en = 1 → x.queue = [] → s.pcFree h k = true → Gives (.holdScrubRead h pc) s fun t =>
      (t.pc k).scrubAt = (x.scrubAt + 1) % 2 ^ 25 ∧ SameBytes s t ∧
      (lineStat (s.eccOf (pcLine h pc x.scrubAt)) = .corrected → pcLine h pc x.scrubAt ∈ (t.pc k).rewrite)) ∧
    (∀ a rest, x.rewrite = a :: rest → x.queue = [] → s.pcFree h k = true → s.wf = true → a % 32 = 0 →
      Gives (.correctedLineRewrite h pc) s fun t =>
        (t.pc k).rewrite = rest ∧ SameBytes s t ∧ (lineStat (s.eccOf a) = .corrected → t.eccOf a = 0)) ∧
    (∀ temp : Byte, s.diesHot = false → exec (.holdTempUpdate h temp) s = .next s) ∧
    (∀ temp : Byte, s.diesHot = true → 105 ≤ temp.toNat → Gives (.holdTempUpdate h temp) s fun t =>
      t.get Reg.TOLL_THERM Fld.TOLL_THERM.trip = 1 ∧ t.get Reg.TOLL_THERM Fld.TOLL_THERM.trip_src = h + 1 ∧ t.toll.dead = true ∧
      t.toll.tripped = true ∧ ∀ g : Fin 4, t.railEn g = false) ∧
    (∀ temp : Byte, s.diesHot = true → temp.toNat < 105 →
      let on := s.get (Reg.HOLD_CTRL h) Fld.HOLD_CTRL.ext_on_c
      let m := s.get (Reg.HOLD_CTRL h) Fld.HOLD_CTRL.rmode
      let m' := if m = 2 then 2 else if on ≤ temp.toNat then 1 else if temp.toNat + 5 ≤ on then 0 else m
      Gives (.holdTempUpdate h temp) s fun t =>
        t.get (Reg.HOLD_CTRL h) Fld.HOLD_CTRL.temp_c = temp.toNat ∧ t.get (Reg.HOLD_CTRL h) Fld.HOLD_CTRL.rmode = m' ∧
        t.get hr Fld.HOLD_REFRESH.trefi_ns =
          (if m' = m then s.get hr Fld.HOLD_REFRESH.trefi_ns else if m' = 1 then 1950 else 3900) ∧
        t.get Reg.TOLL_THERM (if h.val = 0 then Fld.TOLL_THERM.hold0_c else Fld.TOLL_THERM.hold1_c) = temp.toNat ∧
        SameRegs [Reg.HOLD_CTRL h, hr, Reg.TOLL_THERM] s t) ∧
    (s.phase = 6 → s.get (Reg.HOLD_CTRL h) Fld.HOLD_CTRL.trained = 0 →
      (Gives (.holdTrainingDone h true) s fun t =>
        t.get (Reg.HOLD_CTRL h) Fld.HOLD_CTRL.trained = 1 ∧ SameRegs [Reg.HOLD_CTRL h] s t ∧
        (∀ a, 0x1000000000 * (h.val + 1) ≤ a → a < 0x1000000000 * (h.val + 2) → t.byte a = 0) ∧
        (∀ a, a < 0x1000000000 * (h.val + 1) ∨ 0x1000000000 * (h.val + 2) ≤ a → t.byte a = s.byte a)) ∧
      (Gives (.holdTrainingDone h false) s fun t =>
        t.phase = 0xE ∧ t.get Reg.TOLL_BOOT Fld.TOLL_BOOT.fail_code = 0xFD01))

namespace Sys2Proof.Machine

/-- The write of `v` at `a` that command `c` makes by the register path comes with the wharfinger's others: while beats run it waits for
the next one, and nothing else changes; where none runs and nothing waits it is made at once; and made, it does `P` (R451, R597). -/
def PathWrites (c : Instr) (a : Nat) (v : Word) (s : State) (P : State → Prop) : Prop :=
  (s.pathNow = false → (∀ y ∈ s.die.regQ, s.regDue y = false) → exec c s = .next { s with die := { s.die with
    regQ := queueReg { beat := s.leadBeat, after := s.regBeat a, rank := 1, ask := .access ⟨a, some v, .none⟩ } s.die.regQ } }) ∧
  (s.pathNow = true → s.die.regQ = [] → exec c s = .next (s.localWrite s.chipAddr a v .none)) ∧
  (s.dieOn = true → P (s.localWrite s.chipAddr a v .none))

end Sys2Proof.Machine

/-- Settings of a core and of the die that their rules allow take effect, those of a berth with the register path's accesses: a berth has
its place and size, with its credit gone; a grant adds to its credit, and a 1 written to refused clears it; a window moves; crossbar mode,
the watchdog's limit and strict take their values. -/
def Obligations.CoreSettings : Prop :=
  ∀ (core : Fin 256) (b : Fin 16) (w : Fin 32) (v : Word) (s : State),
    let w0 := Reg.BERTH_W0 core b
    let w1 := Reg.BERTH_W1 core b
    let size := Fld.BERTH_W0.size.get v
    let grant := Fld.BERTH_W1.grant.get v
    (s.enabled core = true → (Fld.BERTH_W0.enable.get v = 1 → size ≠ 0) → 64 * (Fld.BERTH_W0.base.get v + size) ≤ 0x600000 →
      PathWrites (.berthConfigWrite core b v) w0 v s fun t =>
        t.get w0 Fld.BERTH_W0.enable = Fld.BERTH_W0.enable.get v ∧ t.get w0 Fld.BERTH_W0.size = size ∧
        t.get w0 Fld.BERTH_W0.base = Fld.BERTH_W0.base.get v ∧ t.get w1 Fld.BERTH_W1.credit = 0 ∧ SameRegsButErr [w0, w1] s t) ∧
    (s.enabled core = true → grant ≠ 0 → Fld.BERTH_W1.refused.get v = 0 → s.get w0 Fld.BERTH_W0.enable = 1 →
      s.get w1 Fld.BERTH_W1.credit + grant ≤ s.get w0 Fld.BERTH_W0.size → PathWrites (.berthGrant core b v) w1 v s fun t =>
        t.get w1 Fld.BERTH_W1.credit = s.get w1 Fld.BERTH_W1.credit + grant ∧
        t.get w1 Fld.BERTH_W1.refused = s.get w1 Fld.BERTH_W1.refused ∧ SameRegsButErr [w1] s t) ∧
    (s.enabled core = true → grant = 0 → Fld.BERTH_W1.refused.get v = 1 → Fld.BERTH_W1.refused.get (s.mark w1).set = 0 →
      PathWrites (.berthGrant core b v) w1 v s fun t =>
        t.get w1 Fld.BERTH_W1.refused = 0 ∧ t.get w1 Fld.BERTH_W1.credit = s.get w1 Fld.BERTH_W1.credit ∧ SameRegsButErr [w1] s t) ∧
    (s.enabled core = true → Fld.VEC_WIN.base.get v ≤ 0x3E0 → Gives (.vecWinWrite core w v) s fun t =>
      t.get (Reg.VEC_WIN core w) Fld.VEC_WIN.base = Fld.VEC_WIN.base.get v ∧ SameRegs [Reg.VEC_WIN core w] s t) ∧
    ((∀ r < 16, s.modeRefused (s.get Reg.MESH_MODE Fld.MESH_MODE.xbar) (Fld.MESH_MODE.xbar.get v) r = false) →
      Gives (.meshModeWrite v) s fun t =>
        t.get Reg.MESH_MODE Fld.MESH_MODE.xbar = Fld.MESH_MODE.xbar.get v ∧ SameRegs [Reg.MESH_MODE] s t) ∧
    (∀ off : BitVec 16, Reg.DTRM_CTRL + off.toNat = Reg.DTRM_WDOG → Gives (.dtrmWrite off v) s fun t =>
      t.get Reg.DTRM_WDOG Fld.DTRM_WDOG.limit_ns = max 100000 (Fld.DTRM_WDOG.limit_ns.get v) ∧ SameRegs [Reg.DTRM_WDOG] s t) ∧
    (Fld.DTRM_CTRL.start.get v = 0 → s.anyBusy = false → Gives (.dtrmWrite 0 v) s fun t =>
      t.get Reg.DTRM_CTRL Fld.DTRM_CTRL.strict = Fld.DTRM_CTRL.strict.get v ∧ SameRegs [Reg.DTRM_CTRL] s t)

/-- Settings of a core and of the die that break their rules are discarded and logged: a berth that leaves the basin or is enabled with no
size, a grant to a berth that is not enabled, a window past the last, crossbar mode of a busy or fenced reach, a write of DTRM_CTRL while
a core is busy. A grant past the berth's size is clamped to it and logged. -/
def Obligations.SettingsRefused : Prop :=
  ∀ (core : Fin 256) (b : Fin 16) (w : Fin 32) (v : Word) (s : State),
    let w0 := Reg.BERTH_W0 core b
    let w1 := Reg.BERTH_W1 core b
    let size := Fld.BERTH_W0.size.get v
    let grant := Fld.BERTH_W1.grant.get v
    (s.enabled core = true →
      (Fld.BERTH_W0.enable.get v = 1 ∧ size = 0 ∨ 0x600000 < 64 * (Fld.BERTH_W0.base.get v + size) →
        PathWrites (.berthConfigWrite core b v) w0 v s fun t => t = (s.wakeFor w0).logCore core 0x3404 b) ∧
      (grant ≠ 0 → Fld.BERTH_W1.refused.get v = 0 → s.get w0 Fld.BERTH_W0.enable = 0 →
        PathWrites (.berthGrant core b v) w1 v s fun t => t = (s.wakeFor w1).logCore core 0x3404 b) ∧
      (grant ≠ 0 → Fld.BERTH_W1.refused.get v = 0 → s.get w0 Fld.BERTH_W0.enable = 1 →
        s.get w0 Fld.BERTH_W0.size < s.get w1 Fld.BERTH_W1.credit + grant →
        PathWrites (.berthGrant core b v) w1 v s fun t =>
          t = ((s.wakeFor w1).put w1 Fld.BERTH_W1.credit (s.get w0 Fld.BERTH_W0.size)).logCore core 0x3404 b) ∧
      (0x3E0 < Fld.VEC_WIN.base.get v → exec (.vecWinWrite core w v) s = .next (s.logCore core 0x3704 w))) ∧
    (∀ r < 16, s.modeRefused (s.get Reg.MESH_MODE Fld.MESH_MODE.xbar) (Fld.MESH_MODE.xbar.get v) r = true →
      exec (.meshModeWrite v) s = .next (s.logErr { code := 0x3409 })) ∧
    (Fld.DTRM_CTRL.start.get v = 0 → s.anyBusy = true → exec (.dtrmWrite 0 v) s = .next (s.logErr { code := 0x3010 }))

/-- Program start, with some core LOADED and none running or halted, puts every LOADED core to RUNNING with its keeper registers, empty
queues and FIFOs, and every reach to beat 0, with the step after FABR_STEP to come and the die at work; the watchdog abandons late items
after its limit and faults the cores that miss them. -/
def Obligations.ProgramStartAndWatchdog : Prop :=
  ∀ s : State,
    (s.mayStart = true → Gives .programStart s fun t =>
      (∀ n < 256, s.coreState n = stLoaded →
        t.coreState n = stRunning ∧ t.kpc n = s.kpc n ∧ (t.core n).queues = List.replicate 8 [] ∧ (t.core n).aFifo = [] ∧
        (t.core n).xFifo = [] ∧ (t.core n).instret = 0 ∧ (t.core n).kwait = .none ∧
        t.kx n 10 = BitVec.ofNat 32 ((s.vcoreOf n).getD 0) ∧ t.kx n 11 = BitVec.ofNat 32 s.vgrid ∧
        (∀ r < 32, r ≠ 10 → r ≠ 11 → t.kx n r = 0)) ∧
      (∀ n < 256, s.coreState n ≠ stLoaded → t.core n = { s.core n with later := [], narrowAt := none, pathAt := none }) ∧
      (∀ r : Fin 16, (t.reach r).beat = 0 ∧ (t.reach r).tokenAt = s.now ∧ (t.reach r).complete = false ∧
        (t.reach r).ticked = false) ∧
      t.reg Reg.DTRM_STAT = 0 ∧ t.get Reg.FABR_STEP_STAT Fld.FABR_STEP_STAT.aligned = 1 ∧
      t.fabric.oldest = s.get Reg.FABR_STEP Fld.FABR_STEP.step + 1 ∧ t.idle.quiet = none) ∧
    (s.mayStart = false → Gives .programStart s fun t => SameRegsButErr [] s t ∧ t.cores = s.cores ∧ t.reaches = s.reaches) ∧
    (∀ t0, s.die.wdogFrom = some t0 → (∀ h ∈ s.die.holds, h.core < 256) → Gives .watchdogFire s fun t =>
      t.now = max s.now (t0 + 1000 * s.get Reg.DTRM_WDOG Fld.DTRM_WDOG.limit_ns) ∧
      (smFind s.marks Reg.DTRM_WDOG = none →
        t.get Reg.DTRM_WDOG Fld.DTRM_WDOG.fires = min (s.get Reg.DTRM_WDOG Fld.DTRM_WDOG.fires + 1) 0xFFFF) ∧
      t.get Reg.DTRM_STAT Fld.DTRM_STAT.watchdog = 1 ∧ (∀ h ∈ t.die.holds, h ∈ s.die.holds ∧ h.isItem = false) ∧
      (∀ h ∈ s.die.holds, h.isItem = true → s.coreState h.core = stRunning ∨ s.coreState h.core = stHalted →
        t.coreState h.core = stFault ∧ t.get (Reg.CORE_STAT h.core) Fld.CORE_STAT.fault_err = 0x4001))

/-! ### Towlines -/

namespace Sys2Proof.Machine

/-- Port `p` is formed of lanes that exist. -/
def LanesOk (s : State) (p : Nat) : Prop := ∀ l ∈ s.lanes p, l < 96

end Sys2Proof.Machine

/-- A port moves between its states as R384 to R386 say: down on lost signal or a missed HELLO, into training on request, linked by the
first HELLO, active by a write; the map forms and dissolves it. -/
def Obligations.TowlinePorts : Prop :=
  ∀ (p : Fin 48) (s : State), LanesOk s p →
    (∀ l : Fin 96, s.portOfLane l = some p.val → s.framesFlow p = true → Gives (.laneSignalLoss l) s fun t =>
      t.portState p = pDown ∧ (t.port p).trained = false ∧ (t.port p).retry = [] ∧
      ∀ k ∈ s.lanes p, t.get (Reg.TOWL_LANE_STAT k) Fld.TOWL_LANE_STAT.state = 1) ∧
    (s.portUp p = true → Gives (.helloTimeout p) s fun t =>
      t.portState p = pDown ∧ t.now = max s.now ((s.port p).lastHello + 3000000000) ∧ (t.port p).trained = false) ∧
    (∀ l : Fin 96, s.portOfLane l = some p.val → s.bootFailed = false → Gives (.retrain l) s fun t =>
      t.portState p = pTraining ∧ (t.port p).since = s.now ∧ (t.port p).trained = false ∧
      ∀ k ∈ s.lanes p, t.get (Reg.TOWL_LANE_STAT k) Fld.TOWL_LANE_STAT.state = 2) ∧
    (s.portOn p = true → s.portState p = pDown → s.bootFailed = false → (∀ l ∈ s.lanes p, s.get (Reg.TOWL_LANE_CTRL l) Fld.TOWL_LANE_CTRL.auto = 1) →
      Gives (.autoRetrain p) s fun t =>
        t.portState p = pTraining ∧
        t.now = max s.now ((s.port p).since + if (s.port p).trainFail then 500000000000 else 1000000000)) ∧
    (∀ partner : List LaneFace, s.portState p = pTraining → (s.port p).trained = false →
      (partnersOk (s.lanes p).length (partner.map (·.lane.val)) = true → onePartner partner = true → Gives (.trainingComplete p partner) s fun t =>
        t.portState p = pTraining ∧ (t.port p).trained = true ∧ (t.port p).fseq = 0 ∧
        (t.port p).credit = [32 * (s.lanes p).length, 32 * (s.lanes p).length, 32 * (s.lanes p).length, 16 * (s.lanes p).length] ∧
        ∀ k ∈ s.lanes p, t.get (Reg.TOWL_LANE_STAT k) Fld.TOWL_LANE_STAT.state = 3) ∧
      (partnersOk (s.lanes p).length (partner.map (·.lane.val)) = false ∨ onePartner partner = false → Gives (.trainingComplete p partner) s fun t =>
        t.portState p = pDown ∧ (t.port p).trainFail = true)) ∧
    (s.portState p = pTraining → Gives (.trainingTimeout p) s fun t =>
      t.portState p = pDown ∧ (t.port p).trainFail = true ∧ t.now = max s.now ((s.port p).since + 300000000000)) ∧
    (s.framesFlow p = true → Gives (.helloSend p) s fun t =>
      t.now = max s.now (s.port p).helloAt ∧ (t.port p).helloAt = t.now + 1000000000 ∧
      ∃ m : HelloMsg, (t.port p).lm = (s.port p).lm ++ [helloBody m] ∧ m.serial = s.reg Reg.DEV_SERIAL ∧
        m.addr = BitVec.ofNat 16 s.chipAddr ∧ m.port = BitVec.ofNat 6 p.val) ∧
    (∀ m : HelloMsg, s.framesFlow p = true →
      let l := s.laneFacing p m.lane.toNat
      Gives (.hello p m) s fun t =>
        t.reg (Reg.TOWL_PARTNER l) = m.serial ∧ t.get (Reg.TOWL_PORT_STAT p) Fld.TOWL_PORT_STAT.partner_chip = m.addr.toNat ∧
        t.get (Reg.TOWL_PORT_STAT p) Fld.TOWL_PORT_STAT.partner_port = m.port.toNat ∧ (t.port p).lastHello = s.now ∧
        t.portState p = if s.portState p = pTraining then pLinked
          else if s.portState p = pActive ∧ s.reg (Reg.TOWL_PARTNER l) ≠ 0 ∧ s.reg (Reg.TOWL_PARTNER l) ≠ m.serial then pLinked
          else s.portState p) ∧
    (∀ v : Word, s.portState p ≠ pActive → Fld.TOWL_PORT_MAP.active.get v = 0 →
      (Fld.TOWL_PORT_MAP.enable.get v = 1 → s.mapOk p v = true → s.bootFailed = false → Gives (.portMapWrite p v) s fun t =>
        t.portOn p = true ∧ t.lanes p = mapLanes v ∧ t.portState p = pTraining ∧ (s.phase = 6 → p.val ∈ t.toll.trying)) ∧
      (Fld.TOWL_PORT_MAP.enable.get v = 1 → s.mapOk p v = false →
        exec (.portMapWrite p v) s = .next (s.logErr { code := 0x5905, aux := p })) ∧
      (Fld.TOWL_PORT_MAP.enable.get v = 0 → Gives (.portMapWrite p v) s fun t =>
        t.portOn p = false ∧ t.portState p = pDisabled)) ∧
    (s.portState p = pLinked → s.portOn p = true → Gives (.portActiveWrite p) s fun t =>
      t.portState p = pActive ∧ t.portOn p = true ∧ t.lanes p = s.lanes p ∧
      t.get (Reg.TOWL_PORT_MAP p) Fld.TOWL_PORT_MAP.active = 1)

namespace Sys2Proof.Machine

/-- Port `p` has queued one more message, and no other port has. -/
def Queued (p : Nat) (body : BitVec 604) (s t : State) : Prop :=
  t.port p = { s.port p with lm := (s.port p).lm ++ [body] } ∧ ∀ q, q ≠ p → t.port q = s.port q

end Sys2Proof.Machine

/-- Probes go one port further along their route or back along their return, and are answered at their target; an assignment there sets
address and manager, or is refused with its code. Time messages are answered and followed by the formulas of R408. -/
def Obligations.LinkMessages : Prop :=
  ∀ (p : Fin 48) (s : State), s.portUp p = true →
    (∀ m : ProbeMsg, m.index.toNat < m.hops.toNat →
      let out := hopAt m.route m.index.toNat
      out < 48 → s.portUp out = true → Gives (.probeForward p m) s fun t =>
        Queued out (probeBody { m with ret := setHop m.ret m.index.toNat p, index := BitVec.ofNat 4 (m.index.toNat + 1) }) s t) ∧
    (∀ m : ProbeMsg, m.index = m.hops → m.op = 0 → Gives (.probeIdent p m) s fun t =>
      ∃ r : ProbeReplyMsg, Queued p (replyBody r) s t ∧ r.serial = s.reg Reg.DEV_SERIAL ∧ r.addr = BitVec.ofNat 16 s.chipAddr ∧
        r.result = 0 ∧ r.ret = setHop m.ret m.index.toNat p ∧ ∀ q < 48, r.linked.toNat.testBit q = s.portUp q) ∧
    (∀ m : ProbeMsg, m.index = m.hops → m.op = 1 →
      let new := m.newAddr.toNat
      let mgr := s.get Reg.FABR_ADDR Fld.FABR_ADDR.mgr
      let bad : Prop := new = 0 ∨ new = 0xFFFF ∨ (mgr ≠ 0 ∧ mgr ≠ m.mgr.toNat) ∨
        (s.anyBusy = true ∧ s.chipAddr ≠ 0 ∧ s.chipAddr ≠ new)
      (¬bad → s.written Reg.FABR_ADDR Fld.FABR_ADDR.addr = false → s.written Reg.FABR_ADDR Fld.FABR_ADDR.mgr = false →
        Gives (.probeAssign p m) s fun t =>
        t.get Reg.FABR_ADDR Fld.FABR_ADDR.addr = new ∧ t.get Reg.FABR_ADDR Fld.FABR_ADDR.mgr = m.mgr.toNat ∧
        SameRegs [Reg.FABR_ADDR] s t ∧ ∃ r : ProbeReplyMsg, Queued p (replyBody r) s t ∧ r.result = 0 ∧ r.addr = m.newAddr) ∧
      (bad → Gives (.probeAssign p m) s fun t =>
        t.regs = s.regs ∧ ∃ r : ProbeReplyMsg, Queued p (replyBody r) s t ∧ r.result = 0x5907)) ∧
    (∀ m : ProbeReplyMsg, m.index ≠ 0 → s.awaits p m = false →
      let out := hopAt m.ret (m.index.toNat - 1)
      out < 48 → s.portUp out = true → Gives (.probeReply p m) s fun t =>
        Queued out (replyBody { m with index := BitVec.ofNat 4 (m.index.toNat - 1) }) s t) ∧
    (s.get Reg.FABR_TIME_CFG Fld.FABR_TIME_CFG.parent = p → s.portUp (s.get Reg.FABR_TIME_CFG Fld.FABR_TIME_CFG.backup) = false →
      Gives .timeExchange s fun t =>
        t.now = max s.now s.fabric.nextTime ∧ t.fabric.nextTime = t.now + 1000000000 ∧
        (t.port p).lm = (s.port p).lm ++ [timeBody 0 t.fabTime 0 0] ∧ SameRegs (clockRegs s) s t) ∧
    (∀ ta : Word, Gives (.timeRequest p ta) s fun t =>
      Queued p (timeBody 1 ta.toNat s.fabTime s.fabTime) s t ∧ t.regs = s.regs) ∧
    (∀ ta tb tc : Word, s.get Reg.FABR_TIME_CFG Fld.FABR_TIME_CFG.parent = p → s.get Reg.FABR_TIME_CFG Fld.FABR_TIME_CFG.master = 0 →
      s.portActive p = true →
      let td : Int := s.fabTime
      let off : Int := ((tb.toNat - ta.toNat : Int) - (tc.toNat - td)) * 500
      let delay : Int := ((td - ta.toNat) - (tc.toNat - tb.toNat)) / 2
      Gives (.timeResponse p ta tb tc) s fun t =>
        t.get (Reg.TOWL_PORT_STAT p) Fld.TOWL_PORT_STAT.delay_ns = (BitVec.ofInt 16 delay).toNat ∧
        t.get Reg.FABR_TIME_CFG Fld.FABR_TIME_CFG.offset_ps = (BitVec.ofInt 32 off).toNat ∧
        (1000000 < off → t.fabric.slew = 0 ∧ (s.written Reg.FABR_TIME Fld.FABR_TIME.time_ns = false →
          t.fabTime = (s.fabTime + off.toNat / 1000) % 2 ^ 64)) ∧
        (off ≤ 1000000 → t.fabTime = s.fabTime ∧ t.fabric.slew = off) ∧
        SameRegs [Reg.TOWL_PORT_STAT p, Reg.FABR_TIME_CFG, Reg.FABR_TIME] s t)

/-- A port with no frame to resend sends one of eight flits under its next sequence number that no receiver finds bad. A good frame in
sequence is taken, a bad one owes a nak, and one out of sequence is dropped. -/
def Obligations.Frames : Prop :=
  ∀ (p : Fin 48) (s : State), s.framesFlow p = true → s.ferryWork = s →
    ((s.port p).resend = none → Gives (.frameSend p) s fun t =>
      (t.port p).fseq = ((s.port p).fseq + 1) % 4096 ∧
      ∃ fr, t.outs = s.outs ++ [.frame p fr] ∧ hdFseq fr.header = (s.port p).fseq % 4096 ∧
        hdAck fr.header = (s.port p).good % 4096 ∧ hdNak fr.header = (s.port p).nakOwed ∧ frameBad fr = false) ∧
    (∀ f : Frame, frameBad f = true → Gives (.frameReceive p f) s fun t =>
      (t.port p).nakOwed = true ∧ (t.port p).good = (s.port p).good) ∧
    (∀ f : Frame, frameBad f = false → hdFseq f.header ≠ ((s.port p).good + 1) % 4096 → Gives (.frameReceive p f) s fun t =>
      (t.port p).good = (s.port p).good ∧ (t.port p).nakOwed = (s.port p).nakOwed ∧ (t.port p).credit = (s.port p).credit ∧
      (t.port p).retry = (s.port p).retry) ∧
    (∀ f : Frame, frameBad f = false → hdFseq f.header = ((s.port p).good + 1) % 4096 → hdNak f.header = false →
      f.flits.all (fun x => flType x != 1) = true → s.fabric.ferry = [] → Gives (.frameReceive p f) s fun t =>
        (t.port p).good = ((s.port p).good + 1) % 4096 ∧ (t.port p).retry = ackFrames (hdAck f.header) (s.port p).retry ∧
        (t.port p).credit = (List.range 4).map fun c => (s.port p).credit.getD c 0 + hdCredit f.header c)

/-! ### The fabric: tables, ferries and steps -/

/-- Table words and the armed epoch are written where no run and no switch forbids it, and logged elsewhere; an armed epoch is taken at
once by a die at rest. A ferry starts, refuses a bad range, and stops with an error when no ACK comes for a second. -/
def Obligations.FabricTables : Prop :=
  ∀ s : State,
    (∀ (off : BitVec 17) (v : Word), smSorted s.fabric.tables = true →
      let x := tableAt s off.toNat
      let open_ : Bool := if x.1 then s.get Reg.FABR_EPOCH_NEXT Fld.FABR_EPOCH_NEXT.armed == 0 else !s.anyBusy
      (open_ = true → Gives (.routeTableWrite off v) s fun t =>
        t.readTable off.toNat = v &&& x.2.2 ∧ (∀ k, k ≠ x.2.1 → smGet 0 t.fabric.tables k = smGet 0 s.fabric.tables k) ∧ t.regs = s.regs) ∧
      (open_ = false → exec (.routeTableWrite off v) s = .next (s.logErr { code := 0x5907 }))) ∧
    (∀ v : Word,
      let next := Fld.FABR_EPOCH_NEXT.next.get v
      let ok : Prop := next = (s.get Reg.FABR_EPOCH Fld.FABR_EPOCH.epoch + 1) % 2 ^ 32
      (Fld.FABR_EPOCH_NEXT.armed.get v = 1 → ok → s.anyBusy = false → Gives (.epochArm v) s fun t =>
        t.get Reg.FABR_EPOCH Fld.FABR_EPOCH.epoch = next ∧ t.get Reg.FABR_EPOCH_NEXT Fld.FABR_EPOCH_NEXT.armed = 0 ∧
        SameRegs [Reg.FABR_EPOCH, Reg.FABR_EPOCH_NEXT] s t) ∧
      (Fld.FABR_EPOCH_NEXT.armed.get v = 1 → ok → s.anyBusy = true → Gives (.epochArm v) s fun t =>
        t.get Reg.FABR_EPOCH_NEXT Fld.FABR_EPOCH_NEXT.next = next ∧ t.get Reg.FABR_EPOCH_NEXT Fld.FABR_EPOCH_NEXT.armed = 1 ∧
        SameRegs [Reg.FABR_EPOCH_NEXT] s t) ∧
      (Fld.FABR_EPOCH_NEXT.armed.get v = 1 → ¬ok → exec (.epochArm v) s = .next (s.logErr { code := 0x5907 }))) ∧
    (Gives .fabrEvqRead s fun t =>
      t.fabric.evq = s.fabric.evq.drop 1 ∧ SameRegs [Reg.FABR_EVQ] s t ∧ t.reg Reg.FABR_EVQ =
        Fld.FABR_EVQ.lost.set (s.fabric.evq.headD 0) (s.get Reg.FABR_EVQ Fld.FABR_EVQ.lost)) ∧
    (∀ c : Fin 4, (s.ferry c).active = false →
      let w := Reg.FABR_FERRY_W3 c
      let bad : Prop := s.ferrySrc c % 256 ≠ 0 ∨ s.ferryDst c % 2 ^ 48 % 256 ≠ 0 ∨ s.ferryLen c % 256 ≠ 0 ∨
        s.holdRange (s.ferrySrc c) (s.ferryLen c) = false ∨ s.ferryDst c % 2 ^ 48 < 0x1000000000 ∨
        0x3000000000 < s.ferryDst c % 2 ^ 48 + s.ferryLen c
      (bad → Gives (.ferryGo c) s fun t =>
        t.get w Fld.FABR_FERRY_W3.err = 1 ∧ t.get w Fld.FABR_FERRY_W3.err_code = 0x3402 ∧ (t.ferry c).active = false) ∧
      (¬bad → s.ferryLen c = 0 → Gives (.ferryGo c) s fun t => t.get w Fld.FABR_FERRY_W3.done = 1 ∧ (t.ferry c).active = false) ∧
      (¬bad → s.ferryLen c ≠ 0 → Gives (.ferryGo c) s fun t =>
        t.get w Fld.FABR_FERRY_W3.busy = 1 ∧ t.get w Fld.FABR_FERRY_W3.acked_kib = 0 ∧ (t.ferry c).active = true ∧
        (t.ferry c).startAt = s.now ∧ (t.ferry c).acked = 0)) ∧
    (∀ c : Fin 4, (s.ferry c).active = true → (s.ferry c).open_ ≠ [] → Gives (.ferryStall c) s fun t =>
      t.now = max s.now ((s.ferry c).lastAck + 1000000000000) ∧ (t.ferry c).active = false ∧ (t.ferry c).open_ = [] ∧
      t.get (Reg.FABR_FERRY_W3 c) Fld.FABR_FERRY_W3.err = 1 ∧ t.get (Reg.FABR_FERRY_W3 c) Fld.FABR_FERRY_W3.busy = 0 ∧
      t.get (Reg.FABR_FERRY_W3 c) Fld.FABR_FERRY_W3.err_code = 0x5909)

namespace Sys2Proof.Machine

/-- A ready of a member chip for a step in reach of the oldest incomplete one. -/
def ReadyOk (s : State) (step chip : Nat) : Prop :=
  chip < 4096 ∧ s.hasBit (Reg.FABR_STEP_MEMBERS (chip / 64)) ⟨0, 64⟩ (chip % 64) = true ∧
  (smGet [] s.fabric.ready step).contains chip = false ∧ s.fabric.oldest ≤ step ∧ step ≤ s.fabric.oldest + 1

/-- The step unit takes record `r`: it is aligned, the step is the next, a place is free and the epoch is known. -/
def RecordOk (s : State) (r : List Word) : Prop :=
  s.get Reg.FABR_STEP_STAT Fld.FABR_STEP_STAT.aligned = 1 ∧ recStep r = s.nextExpected ∧ s.fabric.records.length < 2 ∧
  s.knowsEpoch (recEpoch r) = true

end Sys2Proof.Machine

/-- Steps of a domain: a chip whose cores have all ended the step sends its ready once; the leader gathers readies and closes a complete
set, alarms on one that does not belong or that stalls, and releases a record, whose step takes no more chunks; the step unit takes the
record that comes next, loses alignment on any other, and delivers it to every running core. A composition writes the batch of its step
and queues its record. -/
def Obligations.Steps : Prop :=
  ∀ s : State,
    (∀ step, step = s.get Reg.FABR_STEP Fld.FABR_STEP.step → s.fabric.readySent ≠ some step → s.allReady step = true →
      Gives .stepReady s fun t =>
        t.fabric.readySent = some step ∧
        (s.get Reg.FABR_STEP_CFG Fld.FABR_STEP_CFG.leader = 1 → s.serving = false → ReadyOk s step s.chipAddr →
          (smGet [] s.fabric.ready s.fabric.oldest).length + 1 < s.get Reg.FABR_STEP_CFG Fld.FABR_STEP_CFG.members →
          smGet [] t.fabric.ready step = smGet [] s.fabric.ready step ++ [s.chipAddr])) ∧
    (∀ x u, s.takeArrival .stepUnit (fun b => stepKind b == 0) = some (x, u) →
      let step := payNat x.barge 0 8
      let chip := payNat x.barge 8 2
      let got := smGet [] s.fabric.ready step
      let m := s.get Reg.FABR_STEP_CFG Fld.FABR_STEP_CFG.members
      (ReadyOk s step chip → step = s.fabric.oldest → got.length + 1 < m → Gives .stepReadyBarge s fun t =>
        smGet [] t.fabric.ready step = got ++ [chip] ∧ t.fabric.oldest = s.fabric.oldest ∧ t.regs = s.regs) ∧
      (ReadyOk s step chip → step = s.fabric.oldest → got.length + 1 = m → smGet [] s.fabric.ready (step + 1) = [] →
        Gives .stepReadyBarge s fun t => t.fabric.oldest = s.fabric.oldest + 1 ∧ t.regs = s.regs) ∧
      (¬ReadyOk s step chip → Gives .stepReadyBarge s fun t =>
        t.fabric.ready = s.fabric.ready ∧ t.fabric.oldest = s.fabric.oldest ∧ SameRegsButErr [Reg.FABR_EVQ] s t)) ∧
    (∀ r rest, s.fabric.outRec = r :: rest → s.mayRelease r = true → Gives .recordRelease s fun t =>
      t.fabric.outRec = rest ∧ t.engine.open_ = s.engine.open_.filter (fun x => x.1 != recStep r) ∧
      (RecordOk s r → t.fabric.records = s.fabric.records ++ [r] ∧ t.fabric.lastRec = some (recStep r))) ∧
    (∀ t0, smFind s.fabric.firstAt s.fabric.oldest = some t0 → s.get Reg.FABR_STEP_CFG Fld.FABR_STEP_CFG.leader = 1 →
      s.fabric.stalled ≠ some s.fabric.oldest → Gives .stepStall s fun t =>
        t.now = max s.now (t0 + 1000000000 * s.get Reg.FABR_STEP_CFG Fld.FABR_STEP_CFG.stall_ms) ∧
        t.fabric.stalled = some s.fabric.oldest ∧ SameRegsButErr (Reg.FABR_EVQ :: clockRegs s) s t) ∧
    (∀ x u, s.takeArrival .stepUnit (fun b => stepKind b == 1) = some (x, u) →
      let r := recWords x.barge
      (RecordOk s r → Gives .stepRecordBarge s fun t =>
        t.fabric.records = s.fabric.records ++ [r] ∧ t.fabric.lastRec = some (recStep r)) ∧
      (s.get Reg.FABR_STEP_STAT Fld.FABR_STEP_STAT.aligned = 1 → ¬RecordOk s r → Gives .stepRecordBarge s fun t =>
        t.fabric.records = [] ∧ t.get Reg.FABR_STEP_STAT Fld.FABR_STEP_STAT.aligned = 0 ∧ t.fabric.lastRec = s.fabric.lastRec)) ∧
    (∀ r, s.oldestRec = some r → s.mayDeliver r = true → Gives .recordDelivery s fun t =>
      t.fabric.records = s.fabric.records.drop 1 ∧
      (∀ n < 256, s.coreState n = stRunning →
        (t.core n).nextRec = some r ∧ t.get (Reg.STEP_STAT n) Fld.STEP_STAT.next_valid = 1 ∧ t.inStep n = s.inStep n) ∧
      (∀ n < 256, s.coreState n ≠ stRunning → (t.core n).nextRec = (s.core n).nextRec)) ∧
    (s.serving = false → exec .stepCompose s = .next s.pump) ∧
    (s.serving = true → s.replaying = false → s.engine.unproc.length ≤ s.get Reg.FABR_STEP_CFG Fld.FABR_STEP_CFG.lag →
      exec .stepCompose s = .next ((s.useTables s.tables).composeAt s.nextStep (s.useTables s.tables).time48).pump) ∧
    (∀ step time row cap epoch dec run chunks,
      let t := s.composeFill step time row cap epoch dec run chunks
      t.engine.composed = some step ∧ t.engine.unproc = s.engine.unproc ++ [step] ∧
      ∃ r : List Word, t.fabric.outRec = s.fabric.outRec ++ [r] ∧ recStep r = step % 2 ^ 64)

/-! ### Messages, sessions and ports of the host side -/

namespace Sys2Proof.Machine

/-- The command `c` carries a towpath message, and `ok` says whether `d` is a message that it stands for (R433). -/
def Carries (d : Datagram) (c : Instr) (ok : Bool) : Prop :=
  let ty := msgType d
  let p := msgPayload d
  (c, ok) ∈ ([(.openSession d, ty == 1), (.closeSession d, ty == 3), (.ackMessage d, ty == 4), (.keepalive d, ty == 5),
   (.regRead d, ty == 0x10), (.regWrite d, ty == 0x11), (.load d, ty == 0x20), (.unload d, ty == 0x22), (.submit d, ty == 0x30),
   (.prompt d, ty == 0x31), (.cancel d, ty == 0x32), (.query d, ty == 0x33), (.ringOpen d, ty == 0x36), (.ringCredit d, ty == 0x37),
   (.tenantSet d, ty == 0x38), (.wswpArm d, ty == 0x40 && swapOp d != 1 && swapOp d != 2), (.swapAbort d, ty == 0x40 && swapOp d == 1),
   (.pinRelease d, ty == 0x40 && swapOp d == 2), (.idleSet d, ty == 0x50), (.testReq d, ty == 0x51),
   (.captureFire d, ty == 0x60 && fieldOf p 2 1 != 1), (.captureArmTime d, ty == 0x60 && fieldOf p 2 1 == 1),
   (.attestReq d, ty == 0x70 && fieldOf p 34 1 != 1), (.attestIdentity d, ty == 0x70 && fieldOf p 34 1 == 1),
   (.changeOrder d, ty == 0x72), (.undefinedMessageType d, !hostTypes.contains ty)] : List (Instr × Bool))

/-- The wharf, Ready, takes datagrams on the interface of `d`, which is sound and fits (R421, R428, R441, R528). -/
def Taken (s : State) (d : Datagram) : Prop :=
  s.frameIn d.ifc d.tag = true ∧ s.host.up = true ∧ s.phase = 7 ∧ s.isWharf = true ∧ s.rxFull d.ifc (tagPrio d.tag) = false ∧ s.msgOk d = true

/-- A session that has received the message it expected. -/
def received (s : State) (x : Session) (d : Datagram) : Session :=
  { x with
    lastRx := s.now, ifc := d.ifc, next := (x.next + 1) % 2 ^ 32
    ackOwed := if x.ackOwed.isSome then x.ackOwed else some s.now
    arrived := x.arrived ++ [(msgSeq d, d.ifc.val)] }

/-- The message that session `x` expects comes, while nothing that it has sent waits to be acknowledged. -/
def InTurn (d : Datagram) (s : State) (x : Session) : Prop :=
  Taken s d ∧ s.sessionOf d = some x ∧ x.id = msgSession d ∧ x.unacked = [] ∧ (msgType d ≠ 1 ∨ msgSession d ≠ 0) ∧
  msgSeq d = x.next ∧ x.next < 2 ^ 32

end Sys2Proof.Machine

/-- A message acts when it is the next of its session: the session notes it and the effect of its type follows, with the messages held
that now come in turn and then the firmware's turn (log entry 3). An acknowledgement or a keepalive has no number and no effect beyond. An
OPEN is the first message of the session that it opens. What is not sound or does not fit is dropped and counted, and a datagram of
another type is not the command's. Before Ready none is taken. -/
def Obligations.MessageTurn : Prop :=
  ∀ (d : Datagram) (s : State) (c : Instr) (ok : Bool), Carries d c ok →
    (ok = false → exec c s = .next s) ∧
    (ok = true → s.phase ≠ 7 → exec c s = .next s.pump) ∧
    (ok = true → s.frameIn d.ifc d.tag = true → s.host.up = true → s.phase = 7 → s.isWharf = true → s.msgOk d = false →
      exec c s = .next (s.rxDrop d.ifc).pump) ∧
    (ok = true → Taken s d → msgType d = 1 → msgSession d = 0 → msgSeq d = 1 → exec c s = .next (s.openIn d).pump) ∧
    (∀ x, ok = true → Taken s d → s.sessionOf d = some x → x.id = msgSession d → x.unacked = [] → msgType d = 4 ∨ msgType d = 5 →
      exec c s = .next (s.setSess { x with lastRx := s.now, ifc := d.ifc }).pump) ∧
    (∀ x, ok = true → InTurn d s x → msgType d ≠ 4 → msgType d ≠ 5 →
      let y := received s x d
      exec c s = .next ((((s.setSess y).act y (msgType d) (fieldOf d.bytes 3 1) (msgSeq d) (msgHandle d) (msgPayload d)).drainHeld
        x.id 65).pump))

namespace Sys2Proof.Machine

/-- A numbered message of type `ty` has been sent in session `id`, kept until it is acknowledged and as the answer to message `seq`. -/
def Answered (id ty handle st seq : Nat) (s t : State) : Prop :=
  ∃ (y z : Session) (m : SentMsg), s.sess id = some y ∧ t.sess id = some z ∧ z.unacked = y.unacked ++ [m] ∧ z.sent = m.seq ∧
    m.seq = (y.sent + 1) % 2 ^ 32 ∧ m.ty = ty ∧ m.handle = handle ∧ m.status = st ∧ (seq, m) ∈ z.cache

/-- A job of the wharfinger has been begun for a message. -/
def JobBegun (kind : JobKind) (id seq handle : Nat) (p : List Byte) (s t : State) : Prop :=
  ∃ j : Job, t.host.jobs = s.host.jobs ++ [j] ∧ j.kind = kind ∧ j.sess = id ∧ j.seq = seq ∧ j.handle = handle ∧ j.req = p ∧ j.phase = 0 ∧
    t.host.sessions = s.host.sessions

/-- A message completes with an effect, after which the firmware has its turn. -/
def Turns (c : Instr) (s : State) (P : State → Prop) : Prop := ∃ u, exec c s = .next u.pump ∧ P u

end Sys2Proof.Machine

/-- Messages of a control session: a register list, a load, an unload, an idle setting, a test, a capture, an attestation of another chip
and an arming each begin the job that carries them out; an arming is aborted, pins are released at once where none is left or with the
next step, this chip's attestation and a change order for its tollhouse are answered at once, and an order for another chip's begins a
job. -/
def Obligations.ControlMessages : Prop :=
  ∀ (d : Datagram) (s : State) (x : Session), InTurn d s x → x.held = [] → x.cls = 0 →
    let v := s.setSess (received s x d)
    let id := x.id
    let p := msgPayload d
    let begins := fun (c : Instr) (k : JobKind) => Turns c s (JobBegun k id (msgSeq d) (msgHandle d) p v)
    let answers := fun (c : Instr) (ty st : Nat) => Turns c s (Answered id ty (msgHandle d) st (msgSeq d) v)
    let op := fieldOf p 2 1
    (∀ w : Bool, msgType d = (if w then 0x11 else 0x10) →
      let c : Instr := if w then .regWrite d else .regRead d
      let l := regList w p
      (l ≠ [] → l.length ≤ 32 → p.length % 16 = 0 → Turns c s fun u =>
        JobBegun .regs id (msgSeq d) (msgHandle d) p v u ∧ u.host.jobs.getLast?.map (·.todo) = some l) ∧
      (l = [] ∨ 32 < l.length ∨ p.length % 16 ≠ 0 → answers c 0x12 0x3A05)) ∧
    (msgType d = 0x20 → begins (.load d) .load) ∧
    (msgType d = 0x22 → begins (.unload d) .unload) ∧
    (msgType d = 0x50 → begins (.idleSet d) .idleSet) ∧
    (msgType d = 0x51 → begins (.testReq d) .test) ∧
    (msgType d = 0x60 →
      (op = 0 → begins (.captureFire d) .capture) ∧ (op = 1 → begins (.captureArmTime d) .capture) ∧
      (1 < op → answers (.captureFire d) 0x60 0x3A05)) ∧
    (msgType d = 0x70 →
      (s.isHere (fieldOf p 32 2) = false → fieldOf p 34 1 ≠ 1 → begins (.attestReq d) .attest) ∧
      (s.isHere (fieldOf p 32 2) = false → fieldOf p 34 1 = 1 → begins (.attestIdentity d) .attest) ∧
      (s.isHere (fieldOf p 32 2) = true → fieldOf p 34 1 ≠ 1 → Turns (.attestReq d) s fun u =>
        u = v.respondParts id (msgSeq d) (msgHandle d) 0x71 0 1 (v.report (p.take 32))) ∧
      (s.isHere (fieldOf p 32 2) = true → fieldOf p 34 1 = 1 → Turns (.attestIdentity d) s fun u =>
        u = v.respondParts id (msgSeq d) (msgHandle d) 0x71 0 1 v.identity)) ∧
    (msgType d = 0x72 →
      (fieldOf d.bytes 3 1 / 2 % 2 = 1 → Turns (.changeOrder d) s fun u =>
        u = v.setSess { received s x d with parts := x.parts ++ p }) ∧
      let w := v.setSess { received s x d with parts := [] }
      let o := x.parts ++ p
      let serial := fieldOf o 8 8
      let here : Prop := o.length ≠ 3504 ∨ serial = (s.reg Reg.DEV_SERIAL).toNat ∨ serial = 0 ∨ ∀ c ∈ s.members, s.isHere c = true
      (fieldOf d.bytes 3 1 / 2 % 2 = 0 → here → Turns (.changeOrder d) s fun u =>
        let r := w.orderIn o none s.toll.keys
        u = r.1.sendMsg id 0x73 0 (msgHandle d) r.2.1 r.2.2 (some (msgSeq d))) ∧
      (fieldOf d.bytes 3 1 / 2 % 2 = 0 → ¬here → Turns (.changeOrder d) s (JobBegun .order id (msgSeq d) (msgHandle d) o w))) ∧
    (msgType d = 0x40 →
      (swapOp d = 0 → s.armBusy = false → begins (.wswpArm d) .arm) ∧
      (swapOp d = 0 → s.armBusy = true → answers (.wswpArm d) 0x41 0x6C02) ∧
      (∀ m, swapOp d = 1 → s.armMsg = some m → s.engine.switchAt = none → Turns (.swapAbort d) s fun u =>
        u.engine.armed = none ∧ ∃ j : Job, u.host.jobs = (s.host.jobs.filter fun k => k.kind != JobKind.arm) ++ [j] ∧
          j.kind = .disarm ∧ (j.sess, j.seq) = m ∧ j.keep = [id, msgSeq d, msgHandle d]) ∧
      (swapOp d = 1 → s.armMsg = none ∨ s.engine.switchAt ≠ none → answers (.swapAbort d) 0x41 0x6C02) ∧
      (swapOp d = 2 → s.engine.unpin = [] → v.countPinned.get Reg.WSWP_STAT Fld.WSWP_STAT.pinned_old = 0 → answers (.pinRelease d) 0x41 0) ∧
      (swapOp d = 2 → s.engine.unpin = [] → v.countPinned.get Reg.WSWP_STAT Fld.WSWP_STAT.pinned_old ≠ 0 → Turns (.pinRelease d) s fun u =>
        u.engine.unpin = s.engine.unpin ++ [(id, msgSeq d)] ∧ u.engine.unpinNext = true))

/-- Messages of any session: a session opens for a source of the control list and closes; a request is taken, prompted, cancelled and
queried, its ring opened and credited, a tenant scheduled, and each is answered, from the tables as the engine has read them. A request
that no one knows, a type that is not defined and one that the session's class may not send are answered with their codes. -/
def Obligations.ServingMessages : Prop :=
  ∀ (d : Datagram) (s : State),
    (Taken s d → msgType d = 1 → msgSession d = 0 → msgSeq d = 1 → fieldOf (msgPayload d) 0 1 = 0 → s.mayControl d.src = true →
      s.host.sessions.length < 256 → fieldOf (msgPayload d) 4 4 = 0xFFFFFFFF → Turns (.openSession d) s fun u =>
        ∃ z, u.sess s.freshId = some z ∧ z.src = d.src ∧ z.sport = d.sport.toNat ∧ z.cls = 0 ∧ z.next = 2 ∧
          z.keepMs = max 10 (min 10000 (fieldOf (msgPayload d) 2 2))) ∧
    (∀ x, Taken s d → s.sessionOf d = some x → x.id = msgSession d → x.unacked = [] →
      let P := fun (u : State) => u = s.setSess { x with lastRx := s.now, ifc := d.ifc }
      (msgType d = 4 → Turns (.ackMessage d) s P) ∧ (msgType d = 5 → Turns (.keepalive d) s P)) ∧
    (∀ x, InTurn d s x → x.held = [] →
      let id := x.id
      let p := msgPayload d
      let h := msgHandle d
      let seq := msgSeq d
      let v := (s.setSess (received s x d)).actTables (msgType d) p
      let answers := fun (c : Instr) (ty st : Nat) => Turns c s (Answered id ty h st seq v)
      (msgType d = 3 → smSorted s.host.sessions = true → Turns (.closeSession d) s fun u => u.sess id = none) ∧
      (msgType d = 0x30 → (s.serving && s.replaying) = false → Turns (.submit d) s fun u =>
        let r := v.takeIn id v.time48 p
        u = r.1.sendMsg id 0x34 0 r.2.2.1 r.2.1 r.2.2.2 (some seq)) ∧
      (∀ i, v.findReq h = some i →
        (msgType d = 0x31 → Turns (.prompt d) s fun u =>
          let r := v.promptIn i p
          u = r.1.sendMsg id 0x34 0 h r.2 (r.1.reqStatus i) (some seq)) ∧
        (msgType d = 0x32 → (s.serving && s.replaying) = false → Turns (.cancel d) s fun u =>
          u = (v.cancelIn i).sendMsg id 0x34 0 h 0 ((v.cancelIn i).reqStatus i) (some seq)) ∧
        (msgType d = 0x33 → answers (.query d) 0x34 0)) ∧
      (v.findReq h = none →
        (msgType d = 0x31 → answers (.prompt d) 0x34 0x6B08) ∧ (msgType d = 0x33 → answers (.query d) 0x34 0x6B08)) ∧
      (msgType d = 0x36 → Turns (.ringOpen d) s fun u =>
        u = (v.ringOpenIn p).1.sendMsg id 0x36 0 h (v.ringOpenIn p).2 [] (some seq)) ∧
      (msgType d = 0x37 → Turns (.ringCredit d) s fun u =>
        u = (v.creditIn p).1.sendMsg id 0x37 0 h (v.creditIn p).2 [] (some seq)) ∧
      (msgType d = 0x38 → tenantBad p = false → v.engine.sched.length < 256 → Turns (.tenantSet d) s fun u =>
        Answered id 0x34 h 0 seq v u ∧ u.engine.sched = v.engine.sched ++ [(fieldOf p 32 8, p)]) ∧
      (msgType d ∉ hostTypes → msgType d ∉ deviceTypes → answers (.undefinedMessageType d) (msgType d) 0x3A03) ∧
      (∀ c, Carries d c true → msgType d ≠ 4 → msgType d ≠ 5 → msgType d ∈ hostTypes ∨ msgType d ∈ deviceTypes →
        classMay x.cls (msgType d) = false → answers c (responseType (msgType d)) 0x3A04))

/-- Links, settings and pauses of the Ethernet ports: a link is lost and comes back, a port's setting and an interface are taken or
refused, a neighbour is learnt, and a priority is paused, resumed, cut off and restored as R441 says. -/
def Obligations.EthernetPorts : Prop :=
  ∀ (i : Fin 8) (p : Fin 2) (q : Fin 8) (s : State),
    let ps := Reg.ENET_PORT_STAT (i.val / 4)
    let a := Reg.ENET_PORT_CTRL p
    let x := s.prio p q
    (s.linkUp i = true → Gives (.macLinkLoss i) s fun t =>
      t.linkUp i = false ∧ (∀ j, j < 8 → j ≠ i.val → t.linkUp j = s.linkUp j) ∧ SameRegsButErr [ps] s t) ∧
    (s.portPowered (i.val / 4) = true → splitHas (s.split (i.val / 4)) (i.val % 4) = true → s.bootFailed = false → Gives (.macLinkUp i) s fun t =>
      t.linkUp i = true ∧ (∀ j, j < 8 → j ≠ i.val → t.linkUp j = s.linkUp j) ∧ SameRegs [ps] s t) ∧
    (∀ v : Word,
      let mtu := Fld.ENET_PORT_CTRL.mtu.get v
      let sp := Fld.ENET_PORT_CTRL.split.get v
      let bad : Prop := (s.portPowered p = true ∧ sp ≠ s.split p) ∨ mtu < 1500 ∨ 9216 < mtu ∨ sp = 3
      (bad → exec (.enetPortCtrlWrite p v) s = .next (s.logErr { code := 0x3A06, aux := p })) ∧
      (¬bad → Gives (.enetPortCtrlWrite p v) s fun t =>
        t.split p = sp ∧ t.get a Fld.ENET_PORT_CTRL.mtu = mtu ∧ t.get a Fld.ENET_PORT_CTRL.enable = Fld.ENET_PORT_CTRL.enable.get v ∧
        (Fld.ENET_PORT_CTRL.enable.get v = 0 → ∀ j, j / 4 = p.val → t.linkUp j = false) ∧ SameRegs [a, Reg.ENET_PORT_STAT p] s t)) ∧
    (∀ v : Word,
      (s.linkUp i = true → s.portPowered (i.val / 4) = true →
        exec (.enetIfWrite i 0 v) s = .next (s.logErr { code := 0x3A06, aux := i })) ∧
      (s.linkUp i = false → Gives (.enetIfWrite i 0 v) s fun t =>
        t.ifMac i = Fld.ENET_IF_W0.mac.get v ∧ SameRegs [Reg.ENET_IF_W0 i] s t)) ∧
    (∀ tag, s.frameIn i tag = true → s.host.up = true → s.rxFull i (tagPrio tag) = false →
      (∀ (g : BitVec 32) (from_ : BitVec 32) (m : BitVec 48), mapped g.toNat ∈ s.ifAddrs i →
        Gives (.neighbourPacket i ⟨tag, .arpRequest g from_ m⟩) s fun t =>
        (mapped from_.toNat, m) ∈ t.host.neigh ∧ t.regs = s.regs ∧
        ((s.prio (i.val / 4) 0).dead = none → (s.prio (i.val / 4) 0).until_ = none →
          t.outs = s.outs ++ [.neighbour i (s.txTag i 0) (mapped from_.toNat) (.arpReply g (BitVec.ofNat 48 (s.ifMac i)))])) ∧
      (Gives (.neighbourPacket i ⟨tag, .unsupported⟩) s fun t =>
        t.host = s.host ∧ SameRegs [ps] s t ∧ (s.written ps Fld.ENET_PORT_STAT.rx_drops = false →
          t.get ps Fld.ENET_PORT_STAT.rx_drops =
            min (s.get ps Fld.ENET_PORT_STAT.rx_drops + 1) (2 ^ Fld.ENET_PORT_STAT.rx_drops.width - 1)))) ∧
    (∀ n : BitVec 16, n ≠ 0 → x.dead = none → s.hasBit a Fld.ENET_PORT_CTRL.pfc_honour q = true → Gives (.pfcFrame p q n) s fun t =>
      (t.prio p q).until_ = some (s.now + n.toNat * (512000 / splitRate (s.split p))) ∧ (t.prio p q).lastRx = s.now ∧
      (t.prio p q).txq = x.txq ∧ (t.prio p q).since = (if x.until_.isSome then x.since else s.now)) ∧
    (Gives (.pfcFrame p q 0) s fun t =>
      (t.prio p q).until_ = none ∧ (t.prio p q).txq = [] ∧ (t.prio p q).dead = none ∧ t.outs = s.outs ++ x.txq) ∧
    (∀ t0, x.until_ = some t0 → Gives (.pfcQuantaExpiry p q) s fun t =>
      t.now = max s.now t0 ∧ (t.prio p q).until_ = none ∧ (t.prio p q).txq = [] ∧ t.outs = s.outs ++ x.txq) ∧
    (s.pfcGen p q = true → x.xoff = true → 262144 ≤ x.level → s.get (Reg.ENET_PORT_STAT p) Fld.ENET_PORT_STAT.link ≠ 0 → Gives (.pfcRefresh p q) s fun t =>
      t.now = max s.now x.refresh ∧ (t.prio p q).refresh = t.now + 50000000 ∧ t.outs = s.outs ++ [.pfc p q 0xFFFF]) ∧
    (∀ t0, x.until_ = some t0 → x.since + 100000000000 ≤ t0 → Gives (.pfcWatchdog p q) s fun t =>
      t.now = max s.now (x.since + 100000000000) ∧ (t.prio p q).until_ = none ∧ (t.prio p q).txq = [] ∧
      (t.prio p q).dead = some t.now) ∧
    (∀ t0, x.dead = some t0 → Gives (.pfcHonourRestore p q) s fun t =>
      t.now = max s.now (max t0 x.lastRx + 10000000000) ∧ (t.prio p q).dead = none)

/-- Timers of a session: a keepalive and an acknowledgement are sent when due, a message not acknowledged is sent again up to its eighth
try, a silent session is lost, and events are sent to a control session at most 64 at a time and as many as its interface carries. -/
def Obligations.SessionTimers : Prop :=
  ∀ (n : BitVec 32) (x : Session) (s : State), s.sess n.toNat = some x → x.id = n.toNat →
    (Gives (.keepaliveTimer n) s fun t =>
      t.now = max s.now (x.keepAt + x.keepMs * 1000000000) ∧
      t.sess x.id = some { x with keepAt := x.keepAt + x.keepMs * 1000000000, ackOwed := none }) ∧
    (∀ t0, x.ackOwed = some t0 → Gives (.towpathAckTimer n) s fun t =>
      t.now = max s.now (t0 + 20000000) ∧ t.sess x.id = some { x with ackOwed := none }) ∧
    (∀ m, firstDue x.unacked = some m → m.tries < 8 → Gives (.towpathResend n) s fun t =>
      t.now = max s.now m.due ∧
      (∃ y, t.sess x.id = some y ∧ y.ackOwed = none ∧
        y.unacked = x.unacked.map fun k => if k.seq = m.seq then { m with tries := m.tries + 1, sentAt := t.now } else k) ∧
      (smFind s.marks Reg.STRM_STAT = none → t.get Reg.STRM_STAT Fld.STRM_STAT.resends =
        min (s.get Reg.STRM_STAT Fld.STRM_STAT.resends + 1) (2 ^ Fld.STRM_STAT.resends.width - 1))) ∧
    (∀ m, firstDue x.unacked = some m → 8 ≤ m.tries → smSorted s.host.sessions = true → Gives (.towpathResend n) s fun t =>
      t.now = max s.now m.due ∧ t.sess x.id = none) ∧
    (smSorted s.host.sessions = true → Gives (.sessionTimeout n) s fun t =>
      t.now = max s.now (x.lastRx + 3 * x.keepMs * 1000000000) ∧ t.sess x.id = none) ∧
    (∀ recs, recs = (s.diag.events.drop (x.evNext - s.diag.eventBase)).take (min 64 (s.maxPayload x.ifc / 40)) →
      x.cls = 0 → s.diag.eventBase ≤ x.evNext → recs ≠ [] → Gives (.eventSend n) s fun t =>
        t.now = (match x.eventAt with
          | some t0 => max s.now (t0 + 100000000)
          | none => s.now) ∧
        ∃ y, t.sess x.id = some y ∧ y.evNext = x.evNext + recs.length ∧ y.eventAt = some t.now ∧ y.sent = (x.sent + 1) % 2 ^ 32)

/-! ### The register path, the I3C target and RoCEv2 -/

namespace Sys2Proof.Machine

/-- Address `a` is that of a word of a hold that the register path reaches. -/
def HoldWord (s : State) (a : Nat) : Prop := 0x1000000000 ≤ a ∧ a < 0x3000000000 ∧ a % 8 = 0 ∧ s.dieOn = true

/-- An access of a hold by the register path joins the requests of its pseudo-channel; no byte changes yet. -/
def Joins (a : Nat) (v : Option Word) (k : Asker) (s t : State) : Prop :=
  let r : HoldReqItem := { key := s.nodeBeat (pathNode a) * 16 + colOf (pathNode a), addr := a, len := 8, for_ := .path k,
                           write := v.map fun v => [(a, natLe 8 v.toNat, [])] }
  (t.pc (pcKey a)).queue = placeReq r (s.pc (pcKey a)).queue ∧ SameBytes s t

/-- `t` holds `v` in the word at `a` and reads as `s` in every other byte. -/
def WordStored (a : Nat) (v : Word) (s t : State) : Prop :=
  t.word a = v ∧ ∀ b, b < a ∨ a + 8 ≤ b → t.byte b = s.byte b

/-- An access comes to the register path, `rank` its place in a beat: while beats run it waits for the next one, and nothing else changes;
where none runs and nothing waits it is made at once; made, it does `P`. The command then does `f` (R451, R597). -/
def Asked (c : Instr) (rank : Nat) (ask : RegAsk) (s u : State) (f : State → State) (P : State → Prop) : Prop :=
  (u.pathNow = false → (∀ y ∈ u.die.regQ, u.regDue y = false) → exec c s = .next (f { u with die := { u.die with
    regQ := queueReg { beat := u.leadBeat, after := u.regBeat ask.addr, rank := rank, ask := ask } u.die.regQ } })) ∧
  (u.pathNow = true → u.die.regQ = [] → exec c s = .next (f (u.serveAsk ask))) ∧ P (u.serveAsk ask)

/-- `a` is the address of a control block's register that a read answers as it stands. -/
def PlainRead (s : State) (a : Nat) : Prop :=
  0x400000000 ≤ a ∧ a < 0x400140000 ∧ a % 8 = 0 ∧ (s.dieOn = true ∨ tollBlock a = true) ∧ a ≠ Reg.FABR_EVQ ∧ a ≠ Reg.FABR_STEP_STAT ∧
  a ≠ Reg.IDLE_STATE

end Sys2Proof.Machine

/-- The register path takes accesses from commands on this chip, the I3C target and REG barges: each takes effect in the next beat, or at
once while no beat runs, and an access whose beat has come is made. An access of a hold joins its pseudo-channel and is answered when that
completes, a register is read as it stands, an address that nothing answers and a chip that may not write change nothing, and a fenced
core's window reads as 0 and discards writes with 0x3403 logged. The I3C target answers with a status and the data, or waits for another
chip up to 1 ms. A dynamic address is taken once. -/
def Obligations.RegisterAccess : Prop :=
  ∀ s : State, s.wf = true →
    (∀ (a : BitVec 48) (v : Word),
      let n := a.toNat / 0x4000000
      let err : Err := { code := 0x3403, core := some n, info := a.toNat }
      Asked (.registerWrite a v) 1 (.access ⟨a.toNat, some v, .none⟩) s s id fun t =>
        (s.pathOpen a.toNat true = false → t = s) ∧
        (a.toNat % 8 = 0 → a.toNat < 0x400000000 → s.dieOn = true → s.enabled n = false → t = (s.wakeFor a.toNat).logErr err) ∧
        (HoldWord s a.toNat → Joins a.toNat (some v) .none s t)) ∧
    (∀ x : RegWait, s.die.regQ = [x] →
      (s.regDue x = true → s.serveRegs = ({ s with die := { s.die with regQ := [] } } : State).serveAsk x.ask) ∧
      (s.regDue x = false → s.serveRegs = s)) ∧
    (∀ (h : Fin 2) (pc : Fin 64) (r : HoldReqItem) rest (q : Asker), (s.pc (h.val * 64 + pc.val)).queue = r :: rest →
      s.pcFree h (h.val * 64 + pc.val) = true → r.for_ = .path q →
      let c : Instr := .holdRequestComplete h pc
      let waits := fun (n : Nat) => q = .i3c n ∧ s.toll.i3cWait = true ∧ s.toll.i3cSeq = n
      (r.write = none → Gives c s fun t =>
        SameBytes s t ∧ ∀ n, waits n → t.toll.i3cAns = some (0, s.pathWord r.addr) ∧ t.toll.i3cWait = false) ∧
      (∀ v : Word, r.write = some [(r.addr, natLe 8 v.toNat, [])] → HoldWord s r.addr → s.qpStateAt r.addr = none →
        lineStat (s.eccOf (lineOf r.addr)) ≠ .uncorrectable → Gives c s fun t =>
          WordStored r.addr v s t ∧ ∀ n, waits n → t.toll.i3cAns = some (0, 0) ∧ t.toll.i3cWait = false)) ∧
    (∀ x u, s.takeArrival .regPath (fun b => bType b == tyREG) = some (x, u) →
      let b := x.barge
      let a := regAddr b
      let k := regAsker b
      (regOp b = 2 → k % 2 = 1 → s.toll.i3cWait = true → s.toll.i3cSeq = k / 2 → Gives .regBarge s fun t =>
        t.toll = { s.toll with i3cWait := false, i3cAns := some (regStatus b, regValue b) }) ∧
      (regOp b ≠ 2 → Asked .regBarge 2 (.barge b) s u id fun t =>
        (regOp b = 0 → HoldWord u a → Joins a none (.chip b) s t) ∧
        (regOp b = 1 → u.mayWrite (regSrc b) a = true → HoldWord u a → Joins a (some (regValue b)) (.chip b) s t) ∧
        (regOp b = 1 → u.mayWrite (regSrc b) a = false → SameBytes s t ∧ SameRegsButErr [] s t))) ∧
    (∀ bs : List Byte,
      let cmd := fieldOf bs 0 1
      let chip := fieldOf bs 1 2
      let a := fieldOf bs 3 6
      let v := BitVec.ofNat 64 (fieldOf bs 9 8)
      let full : Prop := (cmd = 1 ∧ 9 ≤ bs.length) ∨ (cmd = 2 ∧ 17 ≤ bs.length)
      let c : Instr := .i3cPrivateWrite bs
      (s.i3cOn = false → exec c s = .next (s.emit (.i3c false []))) ∧
      (s.i3cOn = true → ¬full ∨ chip = 0xFFFF → Gives c s fun t =>
        t.toll.i3cAns = some (0x3A05, 0) ∧ t.toll.i3cWait = false ∧ t.outs = s.outs ++ [.i3c true []] ∧ t.regs = s.regs ∧
        SameBytes s t) ∧
      (s.i3cOn = true → full → chip ≠ 0xFFFF → s.isHere chip = true →
        let k := s.toll.i3cSeq + 1
        let u : State := { s with toll := { s.toll with
          i3cWait := true, i3cAns := none, i3cAt := s.now, i3cSeq := k, i3cFar := false } }
        Asked c 0 (.access ⟨a, if cmd = 1 then none else some v, .i3c k⟩) s u (·.emit (.i3c true [])) fun t =>
          (cmd = 1 → PlainRead s a → t.toll.i3cAns = some (0, s.pathReg a) ∧ t.toll.i3cWait = false ∧ t.regs = s.regs) ∧
          (s.pathOpen a (cmd == 2) = false → t.toll.i3cAns = some (0x3A05, 0) ∧ t.toll.i3cWait = false ∧ t.regs = s.regs ∧
            SameBytes s t) ∧
          (a < 0x400000000 → a % 8 = 0 → s.dieOn = true → s.enabled (a / 0x4000000) = false →
            t.toll.i3cAns = some (0, 0) ∧ t.toll.i3cWait = false ∧ SameBytes s t) ∧
          (HoldWord s a → t.toll.i3cAns = none ∧ t.toll.i3cWait = true ∧ t.toll.i3cSeq = k ∧
            Joins a (if cmd = 1 then none else some v) (.i3c k) s t)) ∧
      (s.i3cOn = true → full → chip ≠ 0xFFFF → s.isHere chip = false → s.dieOn = true →
        ((s.lookup s.bank chip false).isSome = true → Gives c s fun t =>
          t.toll.i3cWait = true ∧ t.toll.i3cAns = none ∧ t.toll.i3cAt = s.now ∧ SameBytes s t) ∧
        (s.lookup s.bank chip false = none → Gives c s fun t =>
          t.toll.i3cWait = false ∧ t.toll.i3cAns = some (0x5906, 0) ∧ SameBytes s t))) ∧
    (let late : Prop := s.toll.i3cWait = true ∧ s.toll.i3cFar = true ∧ s.toll.i3cAt + 1000000000 ≤ s.now;
      (s.i3cOn = true → ¬late → ∀ st d, s.toll.i3cAns = some (st, d) →
        exec .i3cPrivateRead s = .next (s.emit (.i3c true (natLe 2 st ++ natLe 8 d.toNat)))) ∧
      (s.i3cOn = true → ¬late → s.toll.i3cAns = none → exec .i3cPrivateRead s = .next (s.emit (.i3c false []))) ∧
      (s.i3cOn = true → late → Gives .i3cPrivateRead s fun t =>
        t.toll.i3cAns = some (0x3A05, 0) ∧ t.outs = s.outs ++ [.i3c true (natLe 2 0x3A05 ++ natLe 8 0)]) ∧
      (s.i3cOn = false → Gives .i3cPrivateRead s fun t => t.outs = s.outs ++ [.i3c false []])) ∧
    (∀ d st : BitVec 7,
      (s.toll.pwrOk = true → s.toll.i3cDyn = none →
        (Gives (.entdaa d) s fun t =>
          t.toll = { s.toll with i3cDyn := some d.toNat } ∧
          t.outs = s.outs ++ [.i3c true (natLe 6 (s.reg Reg.DEV_SERIAL).toNat)]) ∧
        (s.toll.i3cStatic ≠ 0 → st.toNat = s.toll.i3cStatic → Gives (.setdasa st d) s fun t =>
          t.toll = { s.toll with i3cDyn := some d.toNat } ∧ t.outs = s.outs ++ [.i3c true []])) ∧
      (s.toll.pwrOk = false ∨ s.toll.i3cDyn ≠ none →
        exec (.entdaa d) s = .next (s.emit (.i3c false [])) ∧ exec (.setdasa st d) s = .next (s.emit (.i3c false [])))) ∧
    exec .enec s = .next { s with ibiOn := true } ∧ exec .disec s = .next { s with ibiOn := false }

namespace Sys2Proof.Machine

/-- A packet reaches its queue pair whole: the link is up with an accepted tag and room for all of it, and the pair is ready. -/
def RoceCome (s : State) (k : Packet) : Prop :=
  s.packetFor k = true ∧ s.qpPackets (qpOf k) k.bytes.length ≤ s.packetsIn k

/-- A packet reaches the operation of its queue pair: it comes whole, of a supported kind, and bears no congestion mark. -/
def RoceTaken (s : State) (k : Packet) : Prop :=
  RoceCome s k ∧ k.ce = false ∧ k.supported = true ∧ k.length.toNat ≤ 2 ^ 31 ∧ k.bytes.length ≤ 2 ^ 31

/-- Priority `q` of the port of MAC unit `i` is not paused and its pauses are honoured. -/
def Unpaused (s : State) (i q : Nat) : Prop := (s.prio (i / 4) q).dead = none ∧ (s.prio (i / 4) q).until_ = none

/-- What answers a packet. -/
def rocePktOf (k : Packet) (kind psn imm : Nat) (bs : List Byte) : RocePkt :=
  { qp := qpOf k, kind := kind, psn := psn, imm := imm, bytes := bs }

/-- The frame of an answer: by the packet's interface, tagged, to the MAC of the pair, marked ECT(0) with ecn_en. -/
def roceReply (s : State) (k : Packet) (kind psn imm : Nat) (bs : List Byte) : Output :=
  .roce k.ifc (s.txTag k.ifc (s.rocePcp k.ifc)) (s.qpField (qpOf k) 42 6)
    (s.get (Reg.ENET_PORT_CTRL (k.ifc.val / 4)) Fld.ENET_PORT_CTRL.ecn_en == 1) s.now (rocePktOf k kind psn imm bs)

/-- An answer of the pair of packet `k` leaves at once: none waits before it, its pacing is open and its priority is not paused. -/
def LeavesNow (s : State) (k : Packet) : Prop :=
  (s.qp (qpOf k)).paced = [] ∧ s.paceOpen (qpOf k) = true ∧ Unpaused s k.ifc (s.rocePcp k.ifc)

/-- Pacing holds an answer of the pair of packet `k` back. -/
def HeldBack (s : State) (k : Packet) : Prop := (s.qp (qpOf k)).paced ≠ [] ∨ s.paceOpen (qpOf k) = false

/-- `t` has answered packet `k` after the reads that led from `s` to `v`: at once, or after the packets that its pair's pacing holds back
(R442). -/
def Replied (s v : State) (k : Packet) (kind psn imm : Nat) (bs : List Byte) (t : State) : Prop :=
  (LeavesNow s k → t.outs = v.outs ++ [roceReply s k kind psn imm bs]) ∧
  (HeldBack s k → t.outs = v.outs ∧ (t.qp (qpOf k)).paced = (s.qp (qpOf k)).paced ++ [(k.ifc.val, rocePktOf k kind psn imm bs)])

/-- Queue pair `n` is in error with no work left but answers that pacing holds back. -/
def QpFailed (n : Nat) (t : State) : Prop :=
  t.qpField n 40 1 = 2 ∧ (∀ x ∈ (t.qp n).paced, 4 ≤ x.2.kind) ∧
  t.qp n = { paceAt := (t.qp n).paceAt, paceB := (t.qp n).paceB, paced := (t.qp n).paced }

/-- `x` is the newest of the data that port `p` writes into a hold. -/
def EthQueued (p : Nat) (x : EthTx) (s t : State) : Prop :=
  let plain := fun (l : List EthTx) => l.map fun y => { y with asked := false }
  plain (t.etxQ p) = plain (s.etxQ p ++ [x]) ∧ (t.prio p x.prio).level = (s.prio p x.prio).level + x.bytes.length

/-- The outstanding requests of queue pair `n` have been sent again, where their interfaces can send, or wait for their pacing. -/
def Resent (n : Nat) (s t : State) : Prop :=
  ∀ o ∈ (s.qp n).out_, let i := s.qpField o.packet.qp 41 1 % 8
    s.linkUp i = true → Unpaused s i (s.rocePcp i) →
      (∃ tag mac ect at_, Output.roce i tag mac ect at_ o.packet ∈ t.outs) ∨ (i, o.packet) ∈ (t.qp o.packet.qp).paced

end Sys2Proof.Machine

/-- A packet that no queue pair takes is dropped, and one with a congestion mark acts as without it once the mark is noted. A remote
request ahead of the sequence is answered with a NAK and one seen before with its acknowledgement; one in sequence moves the sequence past
it: a write's data go into the hold by the port's station, a read's are asked of the pseudo-channels and answered when they have come, and
the pair fails where the region does not allow it. A SEND of a session's pair goes into the next receive slot. Acknowledgements, NAKs and
timeouts end, repeat or fail the pair's own requests, and congestion lowers its rate, which time raises again. What a pair sends goes as
its rate lets it. -/
def Obligations.Rdma : Prop :=
  ∀ s : State, s.wf = true →
    (∀ k : Packet,
      let all : List (Packet → Instr) :=
        [.rdmaWrite, .rdmaWriteImm, .rdmaRead, .roceSend, .roceNak, .roceRnrNak, .roceAck, .roceReadResponse, .cnp]
      (s.frameIn k.ifc k.tag = false → ∀ c ∈ all, exec (c k) s = .next s) ∧
      (s.frameIn k.ifc k.tag = true → s.packetFor k = false → ∀ c ∈ all, exec (c k) s = .next (s.rxDrop k.ifc)) ∧
      (RoceCome s k → k.supported = false → ∀ c ∈ all, Gives (c k) s (QpFailed (qpOf k))) ∧
      (RoceCome s k → k.ce = true →
        (s.badLines (s.qpAt (qpOf k)) 64 = [] → ∀ c ∈ all, c k ≠ .rdmaRead k → exec (c k) s = exec (c { k with ce := false }) (s.ceMark k)) ∧
        ((s.qp (qpOf k)).cnpSent = none → ((s.ceMark k).qp (qpOf k)).cnpSent = some s.now))) ∧
    (∀ k : Packet, RoceTaken s k →
      let n := qpOf k
      let p := k.ifc.val / 4
      let len := k.bytes.length
      let rd := k.length.toNat
      let q := s.qp n
      let after := fun l => (k.psn.toNat + s.qpPackets n l) % 2 ^ 24
      let region := s.holdRange (s.qpField n 0 8 % 2 ^ 48) (64 * 8224)
      let u := s.readQp n
      let w := u.readRegion k
      let paces := fun (t : State) (x : Qp) => ({ x with
        paceAt := (t.qp n).paceAt, paceB := (t.qp n).paceB, paced := (t.qp n).paced } : Qp)
      let psnIs := fun (t : State) (v : Nat) =>
        t.qpField n 28 3 = v ∧ ∀ b, b < s.qpAt n + 28 ∨ s.qpAt n + 31 ≤ b → t.byte b = s.byte b
      let done := fun (o : OutReq) => decide ((k.psn.toNat + 2 ^ 24 - o.psn) % 2 ^ 24 < 2 ^ 23)
      let acked : Qp := { q with out_ := q.out_.filter fun o => !done o, retries := 0, rnrs := 0, since := s.now }
      let data : EthTx := { qp := n, ifc := k.ifc, prio := tagPrio k.tag, addr := k.vaddr.toNat, bytes := k.bytes }
      (s.psnPlace k = 1 → ∀ c ∈ [Instr.rdmaWrite k, .rdmaWriteImm k, .rdmaRead k, .roceSend k], Gives c s fun t =>
        Replied s u k 6 (s.qpField n 28 3) nakSeq [] t ∧ SameBytes s t) ∧
      (s.psnPlace k = 2 → ∀ c ∈ [Instr.rdmaWrite k, .rdmaWriteImm k, .roceSend k], Gives c s fun t =>
        Replied s u k 5 ((k.psn.toNat + s.qpPackets n len - 1) % 2 ^ 24) 0 [] t ∧ SameBytes s t) ∧
      (s.psnPlace k = 0 → s.regionOk k 0 1 = true → rd = 0 → Gives (.rdmaRead k) s fun t =>
        psnIs t (after 0) ∧ Replied s w k 4 k.psn.toNat 0 [] t) ∧
      (s.psnPlace k = 0 → s.qpField n 24 1 = 2 → s.isWharf = true → len ≤ 8224 → region = true → 64 ≤ q.unread →
        Gives (.roceSend k) s fun t => Replied s u k 7 k.psn.toNat 0 [] t ∧ SameBytes s t) ∧
      (s.psnPlace k ≠ 1 → s.regionOk k rd 1 = true → rd ≠ 0 → Gives (.rdmaRead k) s fun t =>
        (s.psnPlace k = 0 → psnIs t (after rd)) ∧ (s.psnPlace k = 2 → SameBytes s t) ∧ t.host.pktSeq = s.host.pktSeq + 1 ∧
        t.qp n = { q with fetches := q.fetches ++
          [{ id := s.host.pktSeq, pkt := k, left := (blocksOf k.vaddr.toNat (List.replicate rd 0)).length }] }) ∧
      (s.psnPlace k ≠ 1 → s.regionOk k rd 1 = false → Gives (.rdmaRead k) s (QpFailed n)) ∧
      (s.psnPlace k = 0 →
        (s.regionOk k len 0 = true → len ≠ 0 →
          ∀ c ∈ [(Instr.rdmaWrite k, (none : Option Nat)), (.rdmaWriteImm k, some k.imm.toNat)], Gives c.1 s fun t =>
            psnIs t (after len) ∧ EthQueued p { data with imm := c.2 } s t ∧
            let last := (k.psn.toNat + s.qpPackets n len - 1) % 2 ^ 24
            (LeavesNow s k → roceReply s k 5 last 0 [] ∈ t.outs) ∧
            (HeldBack s k → (t.qp n).paced = q.paced ++ [(k.ifc.val, rocePktOf k 5 last 0 [])])) ∧
        (s.regionOk k len 0 = true → len = 0 →
          (Gives (.rdmaWrite k) s fun t => psnIs t (after 0)) ∧
          Gives (.rdmaWriteImm k) s fun t => psnIs t (after 0) ∧ t.outs.getLast? = some (.notice k.imm.toNat)) ∧
        (s.regionOk k len 0 = false → ∀ c ∈ [Instr.rdmaWrite k, .rdmaWriteImm k], Gives c s (QpFailed n)) ∧
        (s.qpField n 24 1 ≠ 2 ∨ s.isWharf = false ∨ 8224 < len ∨ region = false → Gives (.roceSend k) s (QpFailed n)) ∧
        (s.qpField n 24 1 = 2 → s.isWharf = true → len ≤ 8224 → region = true → len ≠ 0 → q.unread < 64 → Gives (.roceSend k) s fun t =>
          psnIs t (after len) ∧ (t.qp n).slot = (q.slot + 1) % 64 ∧ (t.qp n).unread = q.unread + 1 ∧
          EthQueued p { data with addr := s.qpField n 0 8 % 2 ^ 48 + 8224 * q.slot, msg := true } s t)) ∧
      Gives (.roceNak k) s (QpFailed n) ∧
      (s.rnrMax n = 7 ∨ q.rnrs < s.rnrMax n → Gives (.roceRnrNak k) s fun t =>
        t.qp n = paces t { q with rnrs := q.rnrs + 1, since := s.now } ∧ SameBytes s t ∧ Resent n s t) ∧
      (s.rnrMax n ≠ 7 → s.rnrMax n ≤ q.rnrs → Gives (.roceRnrNak k) s (QpFailed n)) ∧
      (Gives (.roceAck k) s fun t => t.qp n = acked ∧ SameBytes s t) ∧
      (∀ o, s.readAt n k.psn.toNat = some o → Gives (.roceReadResponse k) s fun t =>
        t.qp n = acked ∧ SameBytes s t ∧
        ∀ i r, o.ring = some i → s.ring (s.led i Led.ring) = some r → r.idx = i → r.cons ≤ fieldOf k.bytes 0 8 →
          fieldOf k.bytes 0 8 ≤ r.prod → t.ring (s.led i Led.ring) = some { r with cons := fieldOf k.bytes 0 8 }) ∧
      (Gives (.cnp k) s fun t =>
        t.qpField n 20 4 = max 1000 (s.qpField n 20 4 * 3 / 4) ∧ (t.qp n).rateAt = s.now ∧
        (q.paced = [] → t.qp n = { q with rateAt := s.now }) ∧ ∀ b, b < s.qpAt n + 20 ∨ s.qpAt n + 24 ≤ b → t.byte b = s.byte b)) ∧
    (∀ (h : Fin 2) (pc : Fin 64) (r : HoldReqItem) rest n id j f, (s.pc (h.val * 64 + pc.val)).queue = r :: rest →
      s.pcFree h (h.val * 64 + pc.val) = true → r.for_ = .fetch n id j → r.write = none → (s.qp n).fetches = [f] → f.id = id →
      f.left = 1 → qpOf f.pkt = n → s.linkUp f.pkt.ifc = true → LeavesNow s f.pkt →
      Gives (.holdRequestComplete h pc) s fun t =>
        (t.qp n).fetches = [] ∧ SameBytes s t ∧ t.outs.getLast? =
          some (roceReply s f.pkt 4 f.pkt.psn.toNat 0 ((smPut f.got j (s.bytes r.addr r.len)).map (·.2)).flatten)) ∧
    (∀ (p : Fin 2) x a u, s.etxQ p = [x] → s.takeArrival (ethAgent p) isPortReply = some (a, u) → bType a.barge = tyACK → x.msg = false →
      Gives (.readAgentServe (.ethernet p)) s fun t =>
        t.etxQ p = [] ∧ (t.prio p x.prio).level = (s.prio p x.prio).level - x.bytes.length ∧
        ∀ i, x.imm = some i → .notice i ∈ t.outs) ∧
    (∀ p : BitVec 12, s.qpReady p.toNat = true →
      let n := p.toNat
      let q := s.qp n
      let r := s.qpField n 20 4
      (q.out_ ≠ [] →
        (q.retries < s.retryMax n → Gives (.roceAckTimeout p) s fun t =>
          t.now = max s.now (q.since + 4096000 * 2 ^ s.qpField n 25 1) ∧
          t.qp n = { q with retries := q.retries + 1, since := t.now, paceAt := (t.qp n).paceAt, paceB := (t.qp n).paceB
                            paced := (t.qp n).paced } ∧ SameBytes s t ∧ Resent n s t) ∧
        (s.retryMax n ≤ q.retries → Gives (.roceAckTimeout p) s (QpFailed n))) ∧
      (Gives (.rateRecovery p) s fun t =>
        t.now = max s.now (q.rateAt + 55000000) ∧ (t.qp n).rateAt = t.now ∧ (q.paced = [] → t.qp n = { q with rateAt := t.now }) ∧
        t.qpField n 20 4 = (if s.lineRate n ≤ r then r else min (s.lineRate n) (r + 5000))))

/-! ### Weight epochs, power and idle states -/

namespace Sys2Proof.Machine

/-- A fill of copy `c` of every mapped core has begun: each has its run, and a place in its store for the barges of its slice. -/
def FillBegun (c : Nat) (s t : State) : Prop :=
  t.weights.fills = (if s.sliceLen = 0 then [] else s.mappedCores).map (fun n => { core := n }) ∧
  ∀ n ∈ s.mappedCores, s.sliceLen ≠ 0 → t.land (fillKey n) = some (fillPlace c n s.sliceLen)

/-- Every barge of the fill has been sent, and every line written. -/
def FillEnded (s : State) : Prop := s.weights.fills = [] ∧ ∀ e ∈ s.mesh.landing, e.2.fill = false

end Sys2Proof.Machine

/-- Weight epochs: a check ends with the digest of the staged slices and the epoch they make ready; a prime, a load and a staged fill give
every mapped core a run, which sends its slice barge by barge from the hold's front end, and end once every line is written: then a prime
gives the copies their epoch, a load takes it into force, and a staged fill switches to it before its record is delivered. A swap is armed
for the ready epoch alone, a disarm aborts it until its epoch is used, and a command out of place is refused with 0x6C02. -/
def Obligations.WeightSwaps : Prop :=
  ∀ s : State,
    let e := s.readyEpoch
    let refused : Out := .next (s.logErr { code := 0x6C02 })
    (s.wState = 0 → Gives .check s fun t => t.wState = 1 ∧ t.readyEpoch = 0 ∧ SameRegsButErr [Reg.WSWP_STAT] s t) ∧
    (s.wState ≠ 0 → exec .check s = refused) ∧
    (s.wState = 1 →
      let u := s.readStaging
      ((∀ n ∈ s.mappedCores, u.anyUe (s.sliceAt n) s.sliceLen = false) → Gives .checkComplete s fun t =>
        t.wState = 0 ∧ t.readyEpoch = s.get Reg.WSWP_CTRL Fld.WSWP_CTRL.staged_epoch ∧
        t.reg Reg.WSWP_DIGEST =
          BitVec.ofNat 64 (leNat ((sha3 (s.mappedCores.flatMap fun n => u.bytes (s.sliceAt n) s.sliceLen)).take 8))) ∧
      ((∃ n ∈ s.mappedCores, u.anyUe (s.sliceAt n) s.sliceLen = true) → Gives .checkComplete s fun t =>
        t.wState = 0 ∧ t.readyEpoch = e ∧ t.get Reg.WSWP_STAT Fld.WSWP_STAT.check_fail = 1)) ∧
    (s.wState = 0 → e ≠ 0 → s.wMode = 1 → s.weights.begun = true →
      s.countPinned.get Reg.WSWP_STAT Fld.WSWP_STAT.pinned_old = 0 → Gives .prime s fun t =>
        t.wState = 2 ∧ t.readyEpoch = e ∧ t.weights.copy = s.countPinned.freeCopy ∧ FillBegun s.countPinned.freeCopy s t) ∧
    (s.wState = 2 → FillEnded s → Gives .primeComplete s fun t =>
      t.wState = 0 ∧ ∀ n < 256, s.enabled n = true → t.get (Reg.WS_COPY n) (copyField s.weights.copy) = e) ∧
    (∀ c ∈ [(Instr.primeComplete, 2, s.weights.load), (.loadFillComplete, 3, true), (.stagedFillComplete, 3, false)],
      s.wState = c.2.1 → s.weights.load = c.2.2 → s.fillWork.fillDone = false → exec c.1 s = .next s.fillWork) ∧
    (∀ (r : FillRun) bs bad, smFind r.got (r.sent / 256) = some (bs, bad) → r.sent < s.sliceLen → s.fillPaced = true →
      let o := r.sent % 256
      let b := dataBarge 0 r.core 2 false (r.sent / 64) 0x3F s.stepParity fillMark ((bs.drop o).take 64) ((bad.drop (o / 32)).take 2)
      let p := s.injectAt (fillAgent r.core) b
      s.injFree p.1 p.2 = true → s.inputRoom p.1 p.2 2 (s.nodeBeat p.1) = true →
        (s.fillSend r 1).2.sent = r.sent + 64 ∧ ∃ x, (s.fillSend r 1).1.mesh.flits = insertFlit x s.mesh.flits ∧ x.barge = b ∧
          x.node = p.1 ∧ x.port = p.2) ∧
    (s.anyBusy = false → s.wState = 0 → s.wMode = 1 ∨ s.wMode = 2 → s.vgrid ≠ 0 → e ≠ 0 → Gives .loadFill s fun t =>
      t.wState = 3 ∧ t.weights.load = true ∧ FillBegun 0 s t ∧ SameRegsButErr [Reg.WSWP_STAT] s t) ∧
    (s.anyBusy = true → exec .loadFill s = refused) ∧
    (s.wState = 3 → s.weights.load = true → FillEnded s → Gives .loadFillComplete s fun t =>
      t.wState = 0 ∧ t.reg Reg.WSWP_EPOCH = BitVec.ofNat 64 e ∧ t.weights.load = false ∧ t.weights.begun = false ∧
      ∀ n ∈ s.mappedCores, t.reg (Reg.WS_COPY n) = BitVec.ofNat 64 e) ∧
    (∀ v : Word, Fld.WSWP_ARM.armed.get v = 1 →
      (e ≠ Fld.WSWP_ARM.next.get v → exec (.swapArmWrite v) s = .next (s.logErr { code := 0x6C02 }).pump) ∧
      (e = Fld.WSWP_ARM.next.get v → exec (.swapArmWrite v) s = .next (s.plainWrite Reg.WSWP_ARM v).pump ∧
        (s.plainWrite Reg.WSWP_ARM v).get Reg.WSWP_ARM Fld.WSWP_ARM.armed = 1 ∧
        (s.plainWrite Reg.WSWP_ARM v).get Reg.WSWP_ARM Fld.WSWP_ARM.next = e)) ∧
    (let off := fun (u : State) =>
        u.get Reg.WSWP_ARM Fld.WSWP_ARM.armed = 0 ∧ u.get Reg.WSWP_ARM Fld.WSWP_ARM.next = s.get Reg.WSWP_ARM Fld.WSWP_ARM.next ∧
        SameRegsButErr [Reg.WSWP_ARM, Reg.WSWP_STAT] s u
      let aborted := fun (u : State) => u.get Reg.WSWP_STAT Fld.WSWP_STAT.aborted =
        (if s.get Reg.WSWP_ARM Fld.WSWP_ARM.armed = 1 then 1 else s.get Reg.WSWP_STAT Fld.WSWP_STAT.aborted)
      (s.engine.switchAt = none → s.armMsg = none → Turns .swapDisarm s fun u => off u ∧ aborted u ∧ u.host = s.host) ∧
      (∀ m, s.engine.switchAt = none → s.armMsg = some m → Turns .swapDisarm s fun u => off u ∧ aborted u ∧ u.engine.armed = none ∧
        ∃ j : Job, u.host.jobs = (s.host.jobs.filter fun k => k.kind != JobKind.arm) ++ [j] ∧ j.kind = .disarm ∧ (j.sess, j.seq) = m) ∧
      (s.engine.switchAt ≠ none → Turns .swapDisarm s fun u => off u ∧ u.reg Reg.WSWP_STAT = s.reg Reg.WSWP_STAT ∧ u.host = s.host)) ∧
    (∀ r, s.oldestRec = some r → s.wantsStaged r = true → s.stepEnded = true → s.wState = 0 → Gives .stagedFill s fun t =>
      t.wState = 3 ∧ t.weights.load = false ∧ FillBegun 0 s t ∧ SameRegsButErr [Reg.WSWP_STAT] s t) ∧
    (s.wState = 3 → s.weights.load = false → FillEnded s → Gives .stagedFillComplete s fun t =>
      t.wState = 0 ∧ t.wEpoch = s.get Reg.WSWP_ARM Fld.WSWP_ARM.next ∧
      (s.held = true ∨ s.written Reg.WSWP_ARM Fld.WSWP_ARM.armed = false → t.get Reg.WSWP_ARM Fld.WSWP_ARM.armed = 0) ∧
      t.weights.begun = false ∧
      t.get Reg.WSWP_PAUSE Fld.WSWP_PAUSE.pause_ns = (s.now - s.weights.lastDone) / 1000 % 2 ^ 32 ∧
      ∀ n < 256, s.enabled n = true → t.get (Reg.WS_COPY n) Fld.WS_COPY.copy0_epoch = s.get Reg.WSWP_ARM Fld.WSWP_ARM.next ∧
        t.get (Reg.WS_COPY n) Fld.WS_COPY.copy1_epoch = 0)

namespace Sys2Proof.Machine

/-- The hold request of a weir that stops the die. -/
def weirReq (k : Fin 6) : HoldReq := { cause := .weir k, core := 256, unit := none }

end Sys2Proof.Machine

/-- Weirs, energy and operating points: a sample joins its window 10 ns after the last and raises the code to the threshold reached, and a
code falls by one after a whole window below; settings take their values where their rules allow it; energy counts add up; the policy
lowers the cap of a die that used more than its sustained figure, and good codes raise it; a set moves the targets of its reaches. -/
def Obligations.PowerAndEnergy : Prop :=
  ∀ s : State,
    (∀ (k : Fin 6) (q : BitVec 16), Gives (.weirSample k q) s fun t =>
      t.now = max s.now (match (s.weir k).lastAt with
        | some t0 => t0 + 10000
        | none => ceilDiv s.now 10000 * 10000) ∧
      (t.weir k).samples = (q.toNat :: (s.weir k).samples).take (s.get Reg.WEIR_WINDOW Fld.WEIR_WINDOW.window_ns / 10) ∧
      t.get (Reg.WEIR_RAIL k) Fld.WEIR_RAIL.now = (t.weir k).mean % 2 ^ 16 ∧
      t.weirCode k = max (s.weirCode k) (t.weirReached k) ∧ (∀ j < 6, j ≠ k.val → t.weirCode j = s.weirCode j) ∧
      (s.weirCode k < 3 → t.weirCode k = 3 → weirReq k ∈ t.die.holds) ∧
      (∀ j : Fin 6, j ≠ k → t.weir j = s.weir j)) ∧
    (∀ (k : Fin 6) (t0 : Nat), (s.weir k).lowFrom = some t0 → s.weirCode k ≠ 0 →
      Gives (.weirCodeFall k) s fun t =>
        (s.idle.waitWeir = false → t.now = max s.now (t0 + 1000 * s.get Reg.WEIR_WINDOW Fld.WEIR_WINDOW.window_ns)) ∧
        t.weirCode k = s.weirCode k - 1 ∧
        (∀ j < 6, j ≠ k.val → t.weirCode j = s.weirCode j) ∧ weirReq k ∉ t.die.holds ∧
        (t.weir k).samples = (s.weir k).samples) ∧
    (∀ (k : Fin 6) (v : Word),
      (s.get (Reg.WEIR_LIMIT k) Fld.WEIR_LIMIT.ceiling < Fld.WEIR_LIMIT.limit.get v →
        exec (.weirLimitWrite k v) s = .next (s.logErr { code := 0x3201, aux := k })) ∧
      (Fld.WEIR_LIMIT.limit.get v ≤ s.get (Reg.WEIR_LIMIT k) Fld.WEIR_LIMIT.ceiling → Gives (.weirLimitWrite k v) s fun t =>
        t.get (Reg.WEIR_LIMIT k) Fld.WEIR_LIMIT.limit = Fld.WEIR_LIMIT.limit.get v ∧
        t.get (Reg.WEIR_LIMIT k) Fld.WEIR_LIMIT.ceiling = s.get (Reg.WEIR_LIMIT k) Fld.WEIR_LIMIT.ceiling ∧
        SameRegs [Reg.WEIR_LIMIT k] s t)) ∧
    (∀ v : Word,
      let t1 := Fld.WEIR_WINDOW.t1_pm.get v
      let t2 := Fld.WEIR_WINDOW.t2_pm.get v
      let t3 := Fld.WEIR_WINDOW.t3_pm.get v
      let h := Fld.WEIR_WINDOW.hyst_pm.get v
      let w := Fld.WEIR_WINDOW.window_ns.get v
      let ok : Prop := t1 < t2 ∧ t2 < t3 ∧ h < t1 ∧ h ≤ 200 ∧ 500 ≤ w ∧ w ≤ 20000
      (¬ok → exec (.weirWindowWrite v) s = .next (s.logErr { code := 0x3201 })) ∧
      (ok → Gives (.weirWindowWrite v) s fun t =>
        t.weirEntry 1 = t1 ∧ t.weirEntry 2 = t2 ∧ t.weirEntry 3 = t3 ∧ t.get Reg.WEIR_WINDOW Fld.WEIR_WINDOW.hyst_pm = h ∧
        t.get Reg.WEIR_WINDOW Fld.WEIR_WINDOW.window_ns = w ∧ SameRegs [Reg.WEIR_WINDOW] s t)) ∧
    (∀ v : Word, Gives (.engyGroupAdd v) s fun t =>
      (s.written Reg.ENGY_GROUP Fld.ENGY_GROUP.acc = false → t.get Reg.ENGY_GROUP Fld.ENGY_GROUP.acc =
        (s.get Reg.ENGY_GROUP Fld.ENGY_GROUP.acc + Fld.ENGY_GROUP_ADD.add_uj.get v) % 2 ^ 64) ∧
      SameRegs [Reg.ENGY_GROUP] s t) ∧
    (s.serving = true → s.get Reg.ENGY_CTRL Fld.ENGY_CTRL.attr_en = 1 → Gives .energySweep s fun t =>
      t.now = max s.now (s.engine.procAt + 1000000000) ∧ t.get Reg.ENGY_GROUP Fld.ENGY_GROUP.acc = 0 ∧
      (smFind s.marks Reg.ENGY_UNATTR = none → t.get Reg.ENGY_UNATTR Fld.ENGY_UNATTR.energy_uj =
        (s.get Reg.ENGY_UNATTR Fld.ENGY_UNATTR.energy_uj + s.get Reg.ENGY_GROUP Fld.ENGY_GROUP.acc) % 2 ^ 64) ∧
      t.engine.procAt = t.now ∧ SameRegs (Reg.ENGY_GROUP :: Reg.ENGY_UNATTR :: clockRegs s) s t) ∧
    (let n := s.get Reg.IDLE_SUSTAIN Fld.IDLE_SUSTAIN.window_ms
     let pkg := s.get Reg.ENGY_PKG Fld.ENGY_PKG.energy_uj
     let ticks := pkg :: s.power.ticks
     Gives .policyTick s fun t =>
       t.now = max s.now (s.power.tickAt + 1000000000) ∧ t.power.tickAt = t.now / 1000000000 * 1000000000 ∧
       t.power.ticks = ticks.take (n + 1) ∧
       (n ≠ 0 → n ≤ s.power.ticks.length →
         1000 * n * s.get Reg.IDLE_SUSTAIN Fld.IDLE_SUSTAIN.sustained_w < (pkg + 2 ^ 64 - ticks.getD n 0) % 2 ^ 64 →
         t.power.episode = true ∧
         (smFind s.marks Reg.IDLE_PHASE = none → t.get Reg.IDLE_PHASE Fld.IDLE_PHASE.cap =
           min (s.get Reg.IDLE_PHASE Fld.IDLE_PHASE.cap) (s.dieOp - 1)))) ∧
    (s.capReaches ≠ [] → Gives .capRaise s fun t =>
      (smFind s.marks Reg.IDLE_PHASE = none →
        t.get Reg.IDLE_PHASE Fld.IDLE_PHASE.cap = min 15 (s.get Reg.IDLE_PHASE Fld.IDLE_PHASE.cap + 1)) ∧
      SameRegs (Reg.IDLE_PHASE :: clockRegs s) s t ∧
      ∃ q ∈ s.capReaches, (∀ r ∈ s.capReaches, (s.reach q).goodSince ≤ (s.reach r).goodSince) ∧
        t.now = max s.now ((s.reach q).goodSince + 10000000000000) ∧ (t.reach q).goodSince = t.now ∧
        ∀ r, r ≠ q → t.reach r = s.reach r) ∧
    (∀ v : Word,
      let target := Fld.IDLE_OPSET.target.get v
      let mask := Fld.IDLE_OPSET.reach_mask.get v
      (Fld.IDLE_OPSET.go.get v = 0 → exec (.idleOpset v) s = .next s) ∧
      (Fld.IDLE_OPSET.go.get v = 1 → Fld.IDLE_OPSET.at_record.get v = 1 → Gives (.idleOpset v) s fun t =>
        t.idle = { s.idle with opset := some (target, mask) } ∧ t.regs = s.regs) ∧
      (Fld.IDLE_OPSET.go.get v = 1 → Fld.IDLE_OPSET.at_record.get v = 0 → target ≤ s.ceil → Gives (.idleOpset v) s fun t =>
        (∀ r : Fin 16, s.get (Reg.PACE_OPSEL r) Fld.PACE_OPSEL.auto_down = 0 → mask.testBit r = true →
          t.get (Reg.PACE_OPSEL r) Fld.PACE_OPSEL.target_op = target ∧
          (target ≠ s.get (Reg.PACE_OPSEL r) Fld.PACE_OPSEL.current_op → t.get (Reg.PACE_OPSEL r) Fld.PACE_OPSEL.busy = 1)) ∧
        (∀ r : Fin 16, mask.testBit r = false → t.reg (Reg.PACE_OPSEL r) = s.reg (Reg.PACE_OPSEL r)) ∧ t.idle.opset = none))

/-- Idle states: a die that has been quiescent for delay_ns enters the state its budget selects, which stops the pacers, and the deepest
leaves only the tollhouse powered; a wake, or a budget below the state's latency, ends it after that latency, each reach in the beat where
it stopped, and ends an entry that waits for the weirs. -/
def Obligations.IdleStates : Prop :=
  ∀ s : State,
    (∀ t0, s.ready = true → s.idle.state = 0 → s.testState = 0 → s.toll.ctxAt = none → s.toll.reaching = [] → s.quiescent = true →
      s.idle.quiet = some t0 →
      let due := max s.now (t0 + 1000 * s.get Reg.IDLE_CTRL Fld.IDLE_CTRL.delay_ns)
      let codes := s.get Reg.WEIR_STAT Fld.WEIR_STAT.code
      (s.chosen = 0 → exec .idleEntry s = .next s) ∧
      (s.chosen = 1 ∨ (s.chosen = 2 ∧ codes = 0) → Gives .idleEntry s fun t =>
        t.now = due ∧ t.idle.state = s.chosen ∧ t.idle.waking = false ∧ t.get Reg.IDLE_STATE Fld.IDLE_STATE.state = s.chosen ∧
        ∀ r : Fin 16, t.reach r = { s.reach r with stopped := true }) ∧
      (s.chosen = 3 → codes = 0 → Gives .idleEntry s fun t =>
        t.idle.state = 3 ∧ t.get (Reg.HOLD_CTRL 0) Fld.HOLD_CTRL.rmode = 2 ∧ t.get (Reg.HOLD_CTRL 1) Fld.HOLD_CTRL.rmode = 2 ∧
        ∀ r : Fin 16, (t.reach r).stopped = true) ∧
      (s.chosen = 2 ∨ s.chosen = 3 → codes ≠ 0 → Gives .idleEntry s fun t =>
        t.now = due ∧ t.idle.state = 0 ∧ t.idle.waitWeir = true ∧ t.reaches = s.reaches) ∧
      (s.chosen = 4 → Gives .idleEntry s fun t =>
        t.now = due ∧ t.toll.becalmed = true ∧ t.mem = [] ∧ t.cores = State.reset.cores)) ∧
    (s.idle.state ≠ 0 → s.idle.waking = true → Gives .idleWakeComplete s fun t =>
      t.now = max s.now s.idle.wakeDue ∧ t.idle.state = 0 ∧ t.idle.waking = false ∧ t.get Reg.IDLE_STATE Fld.IDLE_STATE.state = 0 ∧
      ∀ r : Fin 16, (t.reach r).stopped = false ∧ (t.reach r).beat = (s.reach r).beat ∧ (t.reach r).tickAt = t.now) ∧
    (s.idle.state = 0 ∨ s.idle.waking = true →
      (Gives .wake s fun t => t.regs = s.regs ∧ t.idle = { s.idle with waitWeir := false }) ∧
      ∀ v : Word, Gives (.idleBudgetWrite v) s fun t =>
        t.get Reg.IDLE_BUDGET_NS Fld.IDLE_BUDGET_NS.budget_ns = v.toNat ∧ SameRegs [Reg.IDLE_BUDGET_NS] s t ∧
        t.idle = { s.idle with waitWeir := s.idle.waitWeir && !decide (v.toNat < wakeNs s.idle.state) }) ∧
    (s.idle.state ∈ [1, 2, 3] → s.idle.waking = false →
      (Gives .wake s fun t =>
        t.idle = { s.idle with waitWeir := false, waking := true, wakeDue := s.now + 1000 * wakeNs s.idle.state } ∧
        t.get Reg.IDLE_STATE Fld.IDLE_STATE.last_cause = 4 ∧ SameRegs [Reg.IDLE_STATE] s t) ∧
      ∀ v : Word, Gives (.idleBudgetWrite v) s fun t =>
        t.get Reg.IDLE_BUDGET_NS Fld.IDLE_BUDGET_NS.budget_ns = v.toNat ∧
        SameRegs [Reg.IDLE_BUDGET_NS, Reg.IDLE_STATE] s t ∧ (t.idle.waking = true ↔ v.toNat < wakeNs s.idle.state))

/-! ### Boot, rails, resets -/

namespace Sys2Proof.Machine

/-- The rails have a level for each of the four groups. -/
def FourRails (s : State) : Prop :=
  s.toll.en.length = 4 ∧ s.toll.pg.length = 4 ∧ s.toll.enAt.length = 4 ∧ s.toll.pgAt.length = 4

/-- Boot has stopped with a failure code. -/
def BootFailed (code : Nat) (t : State) : Prop := t.phase = 0xE ∧ t.get Reg.TOLL_BOOT Fld.TOLL_BOOT.fail_code = code % 2 ^ 16

/-- Phase 4 has ended for want of a reference clock: boot stops, and the rails go down. -/
def PowerFailed (_s t : State) : Prop := BootFailed 0xFD01 t ∧ t.toll.downing = true

/-- Phase 4 has ended with the die powered and configured: its memories read 0, and its pacers run (R528, R529). -/
def Powered (s t : State) : Prop :=
  t.phase = 6 ∧ t.host.up = true ∧ (∀ r : Fin 16, (t.reach r).stopped = false) ∧ (∀ a < 0x1000000000, t.byte a = 0) ∧
  ∀ j : Fin 4, t.reg (Reg.DEV_CORE_MAP j) = s.reg (Reg.LIMS_GRADE j)

end Sys2Proof.Machine

/-- Boot: PWR_OK and RESET_N start the ROM in phase 1; a slot whose image is accepted ends phase 1, and a rejected one leaves the second
slot and then a failed boot; the rails come up in order 2 ms apart, a rail that is not good in 20 ms or a lost clock fails the boot, and
the last rail, enabled and good, ends phase 4 with the die powered; trained holds and ports make the device Ready. -/
def Obligations.Boot : Prop :=
  ∀ s : State,
    (s.toll.pwrOk = false →
      (s.toll.resetN = true → Gives .pwrOkRise s fun t =>
        t.toll.pwrOk = true ∧ t.phase = 1 ∧ t.toll.bootAt = s.now ∧ t.toll.slot = 0 ∧ SameRegs [Reg.TOLL_BOOT] s t) ∧
      (s.toll.resetN = false → Gives .pwrOkRise s fun t => t.toll = { s.toll with pwrOk := true } ∧ t.regs = s.regs)) ∧
    (s.toll.resetN = false →
      (s.toll.lowAt = none → s.toll.pwrOk = true → s.phase = 0 → Gives .resetNRelease s fun t =>
        t.toll.resetN = true ∧ t.phase = 1 ∧ t.toll.bootAt = s.now) ∧
      (∀ t0, s.toll.lowAt = some t0 → s.ready = true → Gives .resetNRelease s fun t =>
        t.toll.resetN = true ∧ t.phase = 1 ∧ t.now = max s.now (t0 + 1000000) ∧
        t.get Reg.DEV_RESET_STAT Fld.DEV_RESET_STAT.last_kind = 3 ∧ t.get Reg.DEV_RESET_STAT Fld.DEV_RESET_STAT.by_pin = 1)) ∧
    (∀ (slot : Fin 2) (img : List Byte), s.phase = 1 → s.tollOnly = false → s.toll.slot = slot.val →
      let c := s.imageCode img
      (c ≠ 0 → slot = 0 → Gives (.imageSlotCheck slot img) s fun t =>
        t.toll.slot = 1 ∧ t.phase = 1 ∧ t.get Reg.TOLL_BOOT Fld.TOLL_BOOT.slot0_fail = 1) ∧
      (c ≠ 0 → slot = 1 → Gives (.imageSlotCheck slot img) s (BootFailed c)) ∧
      (c = 0 → Gives (.imageSlotCheck slot img) s fun t =>
        t.phase = (if s.toll.kind = 3 then 6 else if s.toll.tripped then 3 else 4) ∧
        t.get Reg.TOLL_BOOT Fld.TOLL_BOOT.slot = slot.val)) ∧
    (∀ g : Fin 4, FourRails s → s.phase = 4 → s.toll.downing = false → s.railEn g = false →
      (g ≠ 0 → s.railEn (g.val - 1) = true ∧ s.railPg (g.val - 1) = true) →
      let good := max (s.toll.pgAt.getD (g.val - 1) 0) (s.toll.enAt.getD (g.val - 1) 0)
      let last : Prop := s.railPg 3 = true ∧ (g = 3 ∨ s.railEn 3 = true)
      (¬last → Gives (.railEnable g) s fun t =>
        t.now = (if g = 0 then s.now else max s.now (good + 2000000000)) ∧
        t.toll.en = s.toll.en.set g true ∧ t.toll.enAt = s.toll.enAt.set g t.now) ∧
      (last → s.toll.trefLost = true ∨ s.toll.erefLost = true → Gives (.railEnable g) s (PowerFailed s)) ∧
      (last → s.toll.trefLost = false → s.toll.erefLost = false → Gives (.railEnable g) s (Powered s))) ∧
    (∀ g : Fin 4, FourRails s → s.railPg g = false →
      let last : Prop := s.phase = 4 ∧ s.railEn 3 = true ∧ (g = 3 ∨ s.railPg 3 = true)
      (¬last → Gives (.railPgRise g) s fun t =>
        t.toll = { s.toll with pg := s.toll.pg.set g true, pgAt := s.toll.pgAt.set g s.now } ∧ t.regs = s.regs) ∧
      (last → s.toll.trefLost = true ∨ s.toll.erefLost = true → Gives (.railPgRise g) s (PowerFailed s)) ∧
      (last → s.toll.trefLost = false → s.toll.erefLost = false → Gives (.railPgRise g) s (Powered s)) ∧
      (s.railEn g = true → s.phase = 4 → Gives (.railPgTimeout g) s fun t =>
        t.now = max s.now (s.toll.enAt.getD g 0 + 20000000000) ∧ BootFailed 0xFD01 t ∧ t.toll.downing = true)) ∧
    (s.phase = 6 → (∀ h : Fin 2, s.get (Reg.HOLD_CTRL h) Fld.HOLD_CTRL.trained = 1) → s.toll.trying = [] → s.host.up = true →
      Gives .bootReady s fun t =>
        t.phase = 7 ∧ t.get Reg.DEV_STATE Fld.DEV_STATE.phase = 7 ∧
        t.get Reg.TOLL_BOOT Fld.TOLL_BOOT.boot_ms = min (2 ^ 20 - 1) ((s.now - s.toll.bootAt) / 1000000000) ∧
        t.get Reg.FABR_ADDR Fld.FABR_ADDR.mgr_here =
          (if s.isWharf = true ∧ s.mgrFlag = true then 1 else s.get Reg.FABR_ADDR Fld.FABR_ADDR.mgr_here)) ∧
    (∀ g : Fin 4, FourRails s → s.toll.downing = true → s.railEn g = true → (∀ j : Fin 4, g < j → s.railEn j = false) →
      Gives (.railDisable g) s fun t =>
        t.now = (if g = 3 ∨ s.railPg (g.val + 1) = false then s.now
          else max s.now (s.toll.enAt.getD (g.val + 1) 0 + 10000000000)) ∧
        t.toll.en = s.toll.en.set g false ∧ (t.toll.downing = false ↔ ∀ j : Fin 4, j < g → s.railEn j = false)) ∧
    (s.phase = 3 → s.tollOnly = false → s.toll.tripped = true → Gives .postTripDelay s fun t =>
      t.now = max s.now (s.toll.tripAt + 10000000000000) ∧ t.phase = 4 ∧ t.toll.tripped = false)

/-- Faults of power, temperature and clocks, and the test port: a rail that falls while enabled and a temperature at its trip point leave
only the tollhouse powered, wherever the dies have power; lost clocks take the towline lanes that run or train, the fabric time's lock and
the Ethernet links; the TAP goes through its states, captures boundary cells or a bypass bit, shifts them and takes what was shifted in.
-/
def Obligations.FaultsAndTestPort : Prop :=
  ∀ s : State,
    (∀ g : Fin 4, s.railPg g = true →
      (s.railEn g = true → s.phase ≠ 4 → s.toll.downing = false → s.tollOnly = false → Gives (.railPgFall g) s fun t =>
        t.toll.dead = true ∧ t.tollOnly = true ∧ t.mem = [] ∧ t.cores = State.reset.cores ∧ t.phase = s.phase) ∧
      (s.railEn g = false → Gives (.railPgFall g) s fun t =>
        t.toll = { s.toll with pg := s.toll.pg.set g false, pgAt := s.toll.pgAt.set g s.now } ∧ t.regs = s.regs)) ∧
    (∀ die hold0 hold1 toll : Byte,
      let src : Option Nat := if 115 ≤ die.toNat then some 0 else if 105 ≤ hold0.toNat then some 1
        else if 105 ≤ hold1.toNat then some 2 else none
      let a := Reg.TOLL_THERM
      (s.diesHot = true → ∀ k, src = some k → Gives (.thermalSample die hold0 hold1 toll) s fun t =>
        t.get a Fld.TOLL_THERM.trip = 1 ∧ t.get a Fld.TOLL_THERM.trip_src = k ∧ t.toll.dead = true ∧ t.toll.tripped = true ∧
        t.mem = [] ∧ ∀ g : Fin 4, t.railEn g = false) ∧
      (s.diesHot = true → src = none → Gives (.thermalSample die hold0 hold1 toll) s fun t =>
        t.get a Fld.TOLL_THERM.die_max_c = die.toNat ∧ t.get a Fld.TOLL_THERM.hold0_c = hold0.toNat ∧
        t.get a Fld.TOLL_THERM.hold1_c = hold1.toNat ∧ t.get a Fld.TOLL_THERM.toll_c = toll.toNat ∧
        t.toll = s.toll ∧ (smFind s.marks a = none →
          t.get a Fld.TOLL_THERM.die_peak_c = max die.toNat (s.get a Fld.TOLL_THERM.die_peak_c))) ∧
      (s.diesHot = false → Gives (.thermalSample die hold0 hold1 toll) s fun t =>
        t.get a Fld.TOLL_THERM.die_max_c = 0 ∧ t.get a Fld.TOLL_THERM.hold0_c = 0 ∧ t.get a Fld.TOLL_THERM.hold1_c = 0 ∧
        t.get a Fld.TOLL_THERM.toll_c = toll.toNat ∧ t.toll = s.toll ∧ SameRegs [a] s t)) ∧
    (s.dieOn = false →
      exec .trefclkLoss s = .next { s with toll := { s.toll with trefLost := true } } ∧
      exec .erefclkLoss s = .next { s with toll := { s.toll with erefLost := true } }) ∧
    (s.dieOn = true →
      (s.get Reg.FABR_TIME_CFG Fld.FABR_TIME_CFG.master = 1 → Gives .trefclkLoss s fun t =>
        t.get Reg.FABR_TIME_CFG Fld.FABR_TIME_CFG.synced = 0) ∧
      (Gives .trefclkLoss s fun t => t.toll.trefLost = true ∧
        ∀ p < 48, LanesOk s p → s.lanes p ≠ [] → (∀ l ∈ s.lanes p, s.portOfLane l = some p) → s.portOn p = true →
          s.portState p ∈ [pTraining, pLinked, pActive] →
          t.portState p = pDown ∧ ∀ l ∈ s.lanes p, t.get (Reg.TOWL_LANE_STAT l) Fld.TOWL_LANE_STAT.state = 1) ∧
      (Gives .erefclkLoss s fun t => t.toll.erefLost = true ∧ ∀ i < 8, t.linkUp i = false)) ∧
    (∀ tms tdi : Bool,
      let st := s.toll.tap
      Gives (.jtagTck tms tdi) s fun t =>
        t.toll.tap = tapNext st tms ∧
        (tapNext st tms = 15 → t.toll.ir = some s.toll.irShift) ∧ (tapNext st tms = 0 → t.toll.ir = none) ∧
        (st = 3 → onBoundary s.tapReg = true → t.toll.drShift.length = s.scanCells) ∧
        (st = 3 → s.tapReg = 0 → t.toll.drShift = [false]) ∧
        (tapNext st tms = 8 → onBoundary s.tapReg = true → t.toll.cells = s.toll.drShift) ∧
        (st = 4 → ∀ b rest, s.toll.drShift = b :: rest → t.outs = s.outs ++ [.tdo b] ∧ t.toll.drShift = rest ++ [tdi]) ∧
        (st = 11 → t.outs = s.outs ++ [.tdo (s.toll.irShift % 2 == 1)] ∧
          t.toll.irShift = s.toll.irShift / 2 + (if tdi then 2 ^ (irBits - 1) else 0))) ∧
    (Gives .trstNAssert s fun t => t.toll.tap = 0 ∧ t.toll.ir = none ∧ Only [.toll] s t)

/-- Resets: power lost and a TOLL reset clear the package and a DEV reset keeps the holds; a CTX reset abandons what the cores do and ends
with them STOPPED; FAB and REACH resets are refused while cores they would touch are busy, and a reach comes out of its reset at its
target point. A reset that a higher one covers is absorbed. -/
def Obligations.Resets : Prop :=
  ∀ s : State,
    (s.toll.pwrOk = true → Gives .pwrOkFall s fun t =>
      t.toll.pwrOk = false ∧ t.phase = 0 ∧ t.mem = [] ∧ t.ecc = [] ∧ t.cores = State.reset.cores ∧ t.ibiOn = false ∧
      (∀ g : Fin 4, t.railEn g = false) ∧ t.get Reg.DEV_RESET_STAT Fld.DEV_RESET_STAT.last_kind = 1) ∧
    (s.toll.resetN = true →
      (5 ≤ s.phase → s.phase ≤ 7 → s.tollOnly = false → Gives .resetNAssert s fun t =>
        t.toll = { s.toll with resetN := false, lowAt := some s.now } ∧ t.regs = s.regs) ∧
      (s.phase < 5 ∨ 7 < s.phase ∨ s.tollOnly = true → Gives .resetNAssert s fun t =>
        t.toll.resetN = false ∧ t.phase = 0 ∧ t.mem = [] ∧ t.cores = State.reset.cores)) ∧
    (s.ready = false → exec .devReset s = .next s) ∧
    (s.ready = true → Gives .devReset s fun t =>
      t.phase = 1 ∧ t.get Reg.DEV_RESET_STAT Fld.DEV_RESET_STAT.last_kind = 3 ∧
      t.get Reg.DEV_RESET_STAT Fld.DEV_RESET_STAT.by_pin = 0 ∧ t.cores = State.reset.cores ∧
      t.get Reg.TOLL_BOOT Fld.TOLL_BOOT.boots = s.get Reg.TOLL_BOOT Fld.TOLL_BOOT.boots ∧
      (s.wf = true → (∀ a, 0x1000000000 ≤ a → t.byte a = s.byte a) ∧ ∀ a < 0x1000000000, t.byte a = 0)) ∧
    (s.booting = true → exec .tollReset s = .next s) ∧
    (s.booting = false → Gives .tollReset s fun t =>
      t.phase = (if s.toll.resetN = true then 1 else 0) ∧ t.mem = [] ∧ t.cores = State.reset.cores ∧ t.toll.pwrOk = s.toll.pwrOk ∧
      t.get Reg.DEV_RESET_STAT Fld.DEV_RESET_STAT.last_kind = 2) ∧
    (s.ready = false ∨ s.toll.ctxAt ≠ none → exec .ctxReset s = .next s) ∧
    (s.ready = true → s.toll.ctxAt = none → Gives .ctxReset s fun t =>
      t.toll.ctxAt = some s.now ∧ t.mesh.tx = [] ∧ t.mesh.landing = s.mesh.landing.filter (fun x => x.2.fill) ∧
      ∀ n, (t.core n).array = none ∧ (t.core n).vector = none ∧ (t.core n).feeder = none ∧ (t.core n).kwait = .none) ∧
    (∀ t0, s.toll.ctxAt = some t0 → Gives .ctxDrainComplete s fun t =>
      t.now = (if s.drained = true then s.now else max s.now (t0 + 50000000)) ∧ t.toll.ctxAt = none ∧ t.locks = {} ∧
      t.get Reg.DEV_RESET_STAT Fld.DEV_RESET_STAT.last_kind = 5 ∧
      (smFind s.marks Reg.DEV_RESET_STAT = none → t.get Reg.DEV_RESET_STAT Fld.DEV_RESET_STAT.ctx_count =
        min (s.get Reg.DEV_RESET_STAT Fld.DEV_RESET_STAT.ctx_count + 1) (2 ^ 16 - 1)) ∧
      (∀ n < 256, s.enabled n = true → t.coreState n = stStopped) ∧ ∀ n, (t.core n).ingress = (s.core n).ingress) ∧
    (s.ready = true → s.anyBusy = true → exec .fabReset s = .next (s.logErr { code := 0x3011 })) ∧
    (s.ready = true → s.anyBusy = false → Gives .fabReset s fun t =>
      t.locks = {} ∧ t.toll.ctxAt = none ∧ t.fabric.records = [] ∧ t.reg Reg.FABR_TIME = s.reg Reg.FABR_TIME ∧
      t.get Reg.DEV_RESET_STAT Fld.DEV_RESET_STAT.last_kind = 4) ∧
    (∀ mask : BitVec 16, s.ready = true → s.toll.ctxAt = none →
      ((∃ n < 256, mask.toNat.testBit (reachOf n) = true ∧ busyState (s.coreState n) = true) →
        exec (.reachReset mask) s = .next (s.logErr { code := 0x3011 })) ∧
      ((∀ n < 256, mask.toNat.testBit (reachOf n) = true → busyState (s.coreState n) = false) → Gives (.reachReset mask) s fun t =>
        (∀ r : Fin 16, mask.toNat.testBit r = true → t.reach r = { s.reach r with stopped := true } ∧ r.val ∈ t.toll.reaching) ∧
        (∀ r : Fin 16, mask.toNat.testBit r = false → t.reach r = s.reach r) ∧ t.regs = s.regs)) ∧
    (∀ r : Fin 16, r.val ∈ s.toll.reaching → Gives (.reachResetComplete r) s fun t =>
      let a := Reg.PACE_OPSEL r
      t.get a Fld.PACE_OPSEL.current_op = s.get a Fld.PACE_OPSEL.target_op ∧ t.get a Fld.PACE_OPSEL.busy = 0 ∧
      (t.reach r).beat = (s.reach r).beat ∧ (t.reach r).retune = .none ∧ r.val ∉ t.toll.reaching ∧
      t.get Reg.DEV_RESET_STAT Fld.DEV_RESET_STAT.last_kind = 6 ∧
      (∀ n < 256, reachOf n = r.val → s.enabled n = true → t.coreState n = stStopped) ∧
      (∀ n < 256, reachOf n ≠ r.val → t.core n = { s.core n with later := [] } ∧ t.coreState n = s.coreState n))

/-! ### Capture, self-test, the error log, check bits and accumulators -/

/-- Capture: a trigger of the pin or of fabric time waits for the first beat 10 ns on, where it is taken if its source is selected and
capture is armed, counts as missed while a capture is under way, and is otherwise ignored; the capture beat copies the registers as they
read, notes the beat, step and source, and disarms; a freeze is refused with debug closed. Forwarded error words are gathered by chip and
committed by word 3. -/
def Obligations.Capture : Prop :=
  ∀ s : State,
    let armed := s.get Reg.SNAP_ARM Fld.SNAP_ARM.armed
    let pin := s.get Reg.SNAP_TRIG_SEL Fld.SNAP_TRIG_SEL.pin
    let missed := s.get Reg.SNAP_STAT Fld.SNAP_STAT.missed
    let ft := s.get Reg.FABR_TIME Fld.FABR_TIME.time_ns
    let m := s.get Reg.SNAP_TIME Fld.SNAP_TIME.time
    (Gives .captInEdge s fun t =>
      t.diag = { s.diag with triggers := s.diag.triggers ++ [⟨0, 0, s.now + 10000⟩] } ∧ SameRegs [Reg.IDLE_STATE] s t ∧
      (armed = 0 ∨ pin = 0 → t.regs = s.regs ∧ t.idle = s.idle)) ∧
    (m < ft → exec .fabricTimeMatch s = .next s) ∧
    (ft ≤ m → Gives .fabricTimeMatch s fun t =>
      t.now = s.now + 1000 * (m - ft) ∧ t.diag = { s.diag with triggers := s.diag.triggers ++ [⟨5, 0, t.now + 10000⟩] }) ∧
    (∀ b src code from_, s.diag.triggers = [⟨src, code, from_⟩] →
      let t := s.arriveTriggers b
      let taken : Prop := armed = 1 ∧ s.srcOn src code = true
      (s.now < from_ → t = s) ∧
      (from_ ≤ s.now →
        (¬taken → t = { s with diag := { s.diag with triggers := [] } }) ∧
        (taken → s.diag.capture = none → t.diag = { s.diag with triggers := [], capture := some (b + s.lat 27, src, code) } ∧
          t.regs = s.regs) ∧
        (taken → s.diag.capture ≠ none → t.diag = { s.diag with triggers := [] } ∧ SameRegs [Reg.SNAP_STAT] s t ∧
          (s.written Reg.SNAP_STAT Fld.SNAP_STAT.missed = false →
            t.get Reg.SNAP_STAT Fld.SNAP_STAT.missed = min (missed + 1) (2 ^ 16 - 1))))) ∧
    (∀ b src code, s.diag.capture = some (b, src, code) →
      (s.allBegun b = false → exec .captureBeat s = .next s) ∧
      (s.allBegun b = true → Gives .captureBeat s fun t =>
        t.diag.capture = none ∧ t.reg Reg.SNAP_BEAT = BitVec.ofNat 64 b ∧ t.reg Reg.SNAP_STEP = s.reg Reg.FABR_STEP ∧
        t.get Reg.SNAP_STAT Fld.SNAP_STAT.valid = 1 ∧ t.get Reg.SNAP_STAT Fld.SNAP_STAT.source = src % 8 ∧
        (s.written Reg.SNAP_STAT Fld.SNAP_STAT.captures = false → t.get Reg.SNAP_STAT Fld.SNAP_STAT.captures =
          min (s.get Reg.SNAP_STAT Fld.SNAP_STAT.captures + 1) (2 ^ 16 - 1)) ∧
        (s.written Reg.SNAP_ARM Fld.SNAP_ARM.armed = false → t.get Reg.SNAP_ARM Fld.SNAP_ARM.armed = 0) ∧
        (∀ a, snapped a = true → a ∉ [Reg.IDLE_STATE, Reg.FABR_STEP_STAT, Reg.FABR_EVQ] → smFind t.diag.snap a = smFind s.regs a) ∧
        smFind t.diag.snap Reg.IDLE_STATE = some (Fld.IDLE_STATE.chosen.set (s.reg Reg.IDLE_STATE) s.chosen) ∧
        smFind t.diag.snap Reg.FABR_STEP_STAT = some s.stepStat ∧ smFind t.diag.snap Reg.FABR_EVQ = some s.evqShown ∧
        (s.get Reg.SNAP_ARM Fld.SNAP_ARM.freeze = 0 → t.cores = s.cores) ∧
        (s.get Reg.SNAP_ARM Fld.SNAP_ARM.freeze = 1 → ∀ n < 256, s.coreState n = stRunning → t.coreState n = stHalted))) ∧
    (∀ v : Word,
      (Fld.SNAP_ARM.freeze.get v = 1 → s.debugClosed = true →
        exec (.snapArmWrite v) s = .next (s.logErr { code := 0x3E01 })) ∧
      (Fld.SNAP_ARM.freeze.get v = 0 ∨ s.debugClosed = false → Gives (.snapArmWrite v) s fun t =>
        t.get Reg.SNAP_ARM Fld.SNAP_ARM.armed = Fld.SNAP_ARM.armed.get v ∧
        t.get Reg.SNAP_ARM Fld.SNAP_ARM.freeze = Fld.SNAP_ARM.freeze.get v ∧ SameRegs [Reg.SNAP_ARM] s t)) ∧
    (∀ (chip : BitVec 16) (w : Fin 4) (v : Word),
      let got := smGet [] s.diag.fwd chip.toNat
      (w ≠ 3 → Gives (.errsFwdWrite chip w v) s fun t =>
        (smGet [] t.diag.fwd chip.toNat).getD w 0 = v ∧ t.regs = s.regs ∧ t.diag.events = s.diag.events) ∧
      (w = 3 → (got.getD 3 0).toNat = 7 → (s.diag.events.filter (fun x => x.1 != 0)).length < 256 →
        Gives (.errsFwdWrite chip w v) s fun t => ∃ e : ErrRec, t.diag.events = s.diag.events ++ [(chip.toNat, e)] ∧
          e.w0 = got.getD 0 0 ∧ e.w1 = got.getD 1 0 ∧ e.w2 = got.getD 2 0 ∧ e.w3 = v) ∧
      (w = 3 → (got.getD 3 0).toNat ≠ 7 → Gives (.errsFwdWrite chip w v) s fun t =>
        t.diag.events = s.diag.events ∧ (s.written Reg.ERRS_COUNT Fld.ERRS_COUNT.evt_lost = false →
          t.get Reg.ERRS_COUNT Fld.ERRS_COUNT.evt_lost = min (s.get Reg.ERRS_COUNT Fld.ERRS_COUNT.evt_lost + 1) (2 ^ 16 - 1))))

/-- Self-test: a request is refused for an undefined test, for the calibration of a port that is not ACTIVE and while another is held; it
waits for a window, or ends at once where it may not wait and no window is open; its units run one at a time, and it ends with the result
of its units, at its timeout, or cancelled after the unit in progress. -/
def Obligations.SelfTest : Prop :=
  ∀ s : State,
    let a := Reg.TEST_STAT
    (∀ v : Word,
      let test := Fld.TEST_REQ.test.get v
      (s.testState ≠ 0 → exec (.testGo v) s = .next (s.logErr { code := 0x3E02 })) ∧
      let inactive : Prop := test = 4 ∧ s.portActive (Fld.TEST_REQ.port.get v) = false
      let u := s.noteQuiet
      let w := { u with diag := { u.diag with testUnitAt := none } }
      let late : Prop := Fld.TEST_REQ.timeout_ms.get v = 0 ∧ w.windowOpen = false ∧ w.quiescedHost = false
      (s.testState = 0 → test = 0 ∨ 5 < test ∨ inactive → Gives (.testGo v) s fun t =>
        t.testState = 0 ∧ t.get a Fld.TEST_STAT.result = 5 ∧ t.testCode = test ∧ SameRegsButErr [Reg.TEST_REQ, a] u t) ∧
      (s.testState = 0 → test ≠ 0 → test ≤ 5 → ¬inactive →
        (¬late → Gives (.testGo v) s fun t =>
          t.testState = 1 ∧ t.testCode = test ∧ t.diag.testAt = s.now ∧ t.diag.testUnitAt = none ∧ t.diag.testUnitCount = 0 ∧
          SameRegs [Reg.TEST_REQ, a, Reg.IDLE_STATE] u t) ∧
        (late → Gives (.testGo v) s fun t =>
          t.testState = 0 ∧ t.get a Fld.TEST_STAT.result = 3 ∧ t.testCode = test ∧ t.diag.testUnitAt = none ∧
          SameRegsButErr [Reg.TEST_REQ, a] u t))) ∧
    (s.testState = 0 → exec .testCancel s = .next s) ∧
    (s.testState ≠ 0 → s.diag.testUnitAt ≠ none → Gives .testCancel s fun t =>
      t.diag = { s.diag with testCancel := true } ∧ t.regs = s.regs) ∧
    (s.testState ≠ 0 → s.diag.testUnitAt = none → Gives .testCancel s fun t =>
      t.testState = 0 ∧ t.get a Fld.TEST_STAT.result = 4 ∧ SameRegs [a] s t) ∧
    (s.testState ≠ 0 → s.diag.testUnitAt = none → s.idle.state = 0 →
      (s.quiescedHost = true → Gives .testUnitStart s fun t =>
        t.now = s.now ∧ t.diag.testUnitAt = some s.now ∧ t.testState = 2 ∧
        (smFind s.marks a = none → t.get a Fld.TEST_STAT.windows =
          (if s.diag.testWindow then s.get a Fld.TEST_STAT.windows else min (s.get a Fld.TEST_STAT.windows + 1) (2 ^ 16 - 1)))) ∧
      (∀ t0, s.quiescedHost = false → s.testCode ≠ 5 → s.quiescent = true → s.noteQuiet.idle.quiet = some t0 → Gives .testUnitStart s fun t =>
        t.now = max s.now (t0 + 10000000) ∧ t.diag.testUnitAt = some t.now ∧ t.testState = 2) ∧
      (s.quiescedHost = false → s.quiescent = false → exec .testUnitStart s = .next s)) ∧
    (s.diag.testUnitAt ≠ none → ∀ fails : List TestFail,
      let last := testUnits s.testCode ≤ s.diag.testUnitCount + 1
      (s.diag.testCancel = true → Gives (.testUnitEnd fails) s fun t =>
        t.diag.testUnitAt = none ∧ t.testState = 0 ∧ t.get a Fld.TEST_STAT.result = 4) ∧
      (s.diag.testCancel = false → last → Gives (.testUnitEnd fails) s fun t =>
        t.diag.testUnitAt = none ∧ t.testState = 0 ∧
        t.get a Fld.TEST_STAT.result = (if s.diag.testFailed = true ∨ fails ≠ [] then 2 else 1) ∧
        (smFind s.marks a = none → t.get a Fld.TEST_STAT.units = min (s.get a Fld.TEST_STAT.units + 1) (2 ^ 16 - 1)) ∧
        (s.testCode = 5 → ∀ b < 0x1000000000, t.byte b = 0)) ∧
      (s.diag.testCancel = false → ¬last → fails = [] → s.diag.testFailed = false → Gives (.testUnitEnd fails) s fun t =>
        t.diag.testUnitAt = none ∧ t.diag.testUnitCount = s.diag.testUnitCount + 1 ∧ SameRegs [a] s t)) ∧
    (s.testState = 1 → s.get Reg.TEST_REQ Fld.TEST_REQ.timeout_ms = 0 → exec .testTimeout s = .next s) ∧
    (s.testState = 1 → s.get Reg.TEST_REQ Fld.TEST_REQ.timeout_ms ≠ 0 → Gives .testTimeout s fun t =>
      t.now = max s.now (s.diag.testAt + 1000000000 * s.get Reg.TEST_REQ Fld.TEST_REQ.timeout_ms) ∧ t.testState = 0 ∧
      t.get a Fld.TEST_STAT.result = 3)

/-- An error enters the log of its chip: the next place, the counter and the pending bit of its class move, and the entries of the burst
stand in the last places in their order; the 65th of one burst is dropped and counted. A wharf holds the entry for its events where the
class is one of them; a member whose mask asks for the class sends the entry to the wharf of its step domain in four register writes, and
logs 0x5906 where no route leads there. -/
def Obligations.ErrorLogged : Prop :=
  ∀ (e : Err) (s : State), e.code < 2 ^ 16 →
    let b := s.burst
    let l := placeErr (s.errRec e) b
    let cls := e.code / 4096
    let head := s.get Reg.ERRS_HEAD Fld.ERRS_HEAD.next
    let lchip := s.get Reg.FABR_STEP_CFG Fld.FABR_STEP_CFG.lchip
    let fwd : Prop := s.isWharf = false ∧ s.hasBit Reg.ERRS_CTRL Fld.ERRS_CTRL.fwd_mask cls = true ∧ lchip ≠ 0
    let routes : Prop := s.isHere lchip = true ∨ (s.lookup s.bank lchip false).isSome = true
    let t := s.logErr e
    SameRegsButErr [] s t ∧
    (b.Pairwise (fun x y => y.before x = false) → l.Pairwise fun x y => y.before x = false) ∧
    (64 ≤ b.length →
      t.mesh = s.mesh ∧ t.reg Reg.ERRS_HEAD = s.reg Reg.ERRS_HEAD ∧ t.diag.events = s.diag.events ∧
      (∀ i < 512, ∀ k < 4, t.reg (Reg.ERRS_LOG i k) = s.reg (Reg.ERRS_LOG i k)) ∧
      (s.written Reg.ERRS_COUNT Fld.ERRS_COUNT.dropped = false →
        t.get Reg.ERRS_COUNT Fld.ERRS_COUNT.dropped = min (s.get Reg.ERRS_COUNT Fld.ERRS_COUNT.dropped + 1) (2 ^ 16 - 1))) ∧
    (b.length < 64 →
      (¬fwd ∨ routes →
        t.get Reg.ERRS_HEAD Fld.ERRS_HEAD.next = (head + 1) % 512 ∧
        (s.written Reg.ERRS_COUNT Fld.ERRS_COUNT.logged = false →
          t.get Reg.ERRS_COUNT Fld.ERRS_COUNT.logged = (s.get Reg.ERRS_COUNT Fld.ERRS_COUNT.logged + 1) % 2 ^ 32) ∧
        t.get Reg.ERRS_COUNT Fld.ERRS_COUNT.dropped = s.get Reg.ERRS_COUNT Fld.ERRS_COUNT.dropped ∧
        t.hasBit Reg.ERRS_STAT Fld.ERRS_STAT.pending cls = true ∧
        (∀ i (h : i < l.length), let a := Reg.ERRS_LOG ((head + 512 - b.length + i) % 512)
          t.reg (a 0) = l[i].w0 ∧ t.reg (a 1) = l[i].w1 ∧ t.reg (a 2) = l[i].w2 ∧ t.reg (a 3) = l[i].w3) ∧
        t.diag.events = (if s.isWharf = true ∧ s.hasBit Reg.ERRS_CTRL Fld.ERRS_CTRL.evt_mask cls = true then
          s.diag.events ++ [(0, s.errRec e)] else s.diag.events)) ∧
      (¬fwd → t.mesh = s.mesh) ∧
      (fwd → routes → ∀ w : Fin 4, ∃ f ∈ t.mesh.flits, f.node = blockStation.1 ∧
        some f.barge = s.routed lchip (s.regBarge lchip (Reg.ERRS_FWD w)
          ([(s.errRec e).w0, (s.errRec e).w1, (s.errRec e).w2, (s.errRec e).w3].getD w 0) 1 0)) ∧
      (fwd → ¬routes → b.length + 5 ≤ 64 →
        t.mesh = s.mesh ∧ t.get Reg.ERRS_HEAD Fld.ERRS_HEAD.next = (head + 5) % 512 ∧
        t.hasBit Reg.ERRS_STAT Fld.ERRS_STAT.pending cls = true ∧ t.hasBit Reg.ERRS_STAT Fld.ERRS_STAT.pending 5 = true))

/-- The line code corrects any one bit and detects any two among data and check bits: the difference between the check bits of two lines
that differ in one data bit names that bit, a check bit alone changes no data, and two bits are uncorrectable. -/
def Obligations.LineCode : Prop :=
  ∀ (d : BitVec 256) (i j : Fin 256) (k l : Fin 10),
    let e := encodeLine d ^^^ encodeLine (d ^^^ BitVec.ofNat 256 (2 ^ i.val))
    let e2 := encodeLine d ^^^ encodeLine (d ^^^ BitVec.ofNat 256 (2 ^ i.val) ^^^ BitVec.ofNat 256 (2 ^ j.val))
    let c : BitVec 10 := BitVec.ofNat 10 (2 ^ k.val)
    let c2 : BitVec 10 := BitVec.ofNat 10 (2 ^ l.val)
    lineStat 0 = .ok ∧ lineStat e = .corrected ∧ bitOfCol (e.toNat % 512) = some i.val ∧
    lineStat c = .corrected ∧ bitOfCol (c.toNat % 512) = none ∧ lineStat (e ^^^ c) = .uncorrectable ∧
    (i ≠ j → lineStat e2 = .uncorrectable) ∧ (k ≠ l → lineStat (c ^^^ c2) = .uncorrectable)

/-- The order in which products enter an accumulator, and that in which results combine exactly, do not matter: any two orders leave the
same accumulator and the same result, and a finite result survives its exchange form. -/
def Obligations.OrderFree : Prop :=
  (∀ (a : Afa) (xs ys : List Machine.Num), xs.Perm ys → xs.foldl Afa.contribute a = ys.foldl Afa.contribute a) ∧
  (∀ xs ys : List AfaOut, xs.Perm ys → combineExact xs = combineExact ys ∧ combineLogs xs = combineLogs ys) ∧
  (∀ v : Int, v.natAbs ≤ afaMax → ofExchange (AfaOut.exchange (.fin v)) = .fin v)
end

