-- ==== Sys2Proof/Laws/SMap.lean ====
section
/-! SUPPORT. Laws of finite maps: what a lookup finds after a change, and that every change keeps the keys rising. -/

namespace Sys2Proof.Machine

variable {α : Type}

@[simp] theorem smFind_nil (k : Nat) : smFind ([] : SMap α) k = none := rfl

theorem smFind_put_same (m : SMap α) (k : Nat) (v : α) : smFind (smPut m k v) k = some v := by
  induction m with
  | nil => simp [smPut, smFind]
  | cons e t ih =>
    obtain ⟨j, w⟩ := e
    simp only [smPut]
    split
    · simp [smFind]
    · split
      · simp [smFind]
      · rename_i h; simp [smFind, Ne.symm h, ih]

theorem smFind_put_ne (m : SMap α) {k k' : Nat} (v : α) (h : k' ≠ k) : smFind (smPut m k v) k' = smFind m k' := by
  induction m with
  | nil => simp [smPut, smFind, Ne.symm h]
  | cons e t ih =>
    obtain ⟨j, w⟩ := e
    simp only [smPut]
    split
    · simp [smFind, Ne.symm h]
    · split
      · rename_i hkj; subst hkj; simp [smFind, Ne.symm h]
      · simp only [smFind, ih]

theorem smFind_del_ne (m : SMap α) {k k' : Nat} (h : k' ≠ k) : smFind (smDel m k) k' = smFind m k' := by
  induction m with
  | nil => rfl
  | cons e t ih =>
    obtain ⟨j, w⟩ := e
    simp only [smDel]
    split
    · rename_i hj; subst hj; simp [smFind, Ne.symm h]
    · simp only [smFind, ih]

theorem smSortedFrom_weaken {lo hi : Nat} {m : SMap α} (h : smSortedFrom hi m = true) (hl : lo ≤ hi) :
    smSortedFrom lo m = true := by
  cases m with
  | nil => rfl
  | cons e t => simp only [smSortedFrom, Bool.and_eq_true, decide_eq_true_eq] at *; exact ⟨by omega, h.2⟩

theorem smFind_below {lo : Nat} {m : SMap α} (h : smSortedFrom lo m = true) {k : Nat} (hk : k < lo) : smFind m k = none := by
  induction m generalizing lo with
  | nil => rfl
  | cons e t ih =>
    simp only [smSortedFrom, Bool.and_eq_true, decide_eq_true_eq] at h
    have : ¬ e.1 = k := by omega
    simp only [smFind, this, if_false]
    exact ih h.2 (by omega)

theorem smFind_del_same {lo : Nat} {m : SMap α} (h : smSortedFrom lo m = true) (k : Nat) : smFind (smDel m k) k = none := by
  induction m generalizing lo with
  | nil => rfl
  | cons e t ih =>
    obtain ⟨j, w⟩ := e
    simp only [smSortedFrom, Bool.and_eq_true, decide_eq_true_eq] at h
    simp only [smDel]
    split
    · rename_i hj; subst hj; exact smFind_below h.2 (by omega)
    · rename_i hj; simp only [smFind, hj, if_false]; exact ih h.2

theorem smSortedFrom_put {lo : Nat} {m : SMap α} (h : smSortedFrom lo m = true) {k : Nat} (v : α) (hk : lo ≤ k) :
    smSortedFrom lo (smPut m k v) = true := by
  induction m generalizing lo with
  | nil => simp [smPut, smSortedFrom, hk]
  | cons e t ih =>
    obtain ⟨j, w⟩ := e
    simp only [smSortedFrom, Bool.and_eq_true, decide_eq_true_eq] at h
    simp only [smPut]
    split
    · rename_i hkj
      simp only [smSortedFrom, Bool.and_eq_true, decide_eq_true_eq]
      exact ⟨hk, by omega, h.2⟩
    · split
      · rename_i hkj; subst hkj; simp only [smSortedFrom, Bool.and_eq_true, decide_eq_true_eq]; exact h
      · simp only [smSortedFrom, Bool.and_eq_true, decide_eq_true_eq]
        exact ⟨h.1, ih h.2 (by omega)⟩

theorem smSortedFrom_del {lo : Nat} {m : SMap α} (h : smSortedFrom lo m = true) (k : Nat) :
    smSortedFrom lo (smDel m k) = true := by
  induction m generalizing lo with
  | nil => rfl
  | cons e t ih =>
    obtain ⟨j, w⟩ := e
    simp only [smSortedFrom, Bool.and_eq_true, decide_eq_true_eq] at h
    simp only [smDel]
    split
    · exact smSortedFrom_weaken h.2 (by omega)
    · simp only [smSortedFrom, Bool.and_eq_true, decide_eq_true_eq]; exact ⟨h.1, ih h.2⟩

theorem smSortedFrom_filter {lo : Nat} {m : SMap α} (h : smSortedFrom lo m = true) (p : Nat × α → Bool) :
    smSortedFrom lo (m.filter p) = true := by
  induction m generalizing lo with
  | nil => rfl
  | cons e t ih =>
    simp only [smSortedFrom, Bool.and_eq_true, decide_eq_true_eq] at h
    rw [List.filter_cons]
    split
    · simp only [smSortedFrom, Bool.and_eq_true, decide_eq_true_eq]; exact ⟨h.1, ih h.2⟩
    · exact smSortedFrom_weaken (ih h.2) (by omega)

theorem smSortedFrom_map {β : Type} {lo : Nat} {m : SMap α} (h : smSortedFrom lo m = true) (f : Nat × α → β) :
    smSortedFrom lo (m.map fun e => (e.1, f e)) = true := by
  induction m generalizing lo with
  | nil => rfl
  | cons e t ih =>
    simp only [smSortedFrom, Bool.and_eq_true, decide_eq_true_eq] at h
    simp only [List.map_cons, smSortedFrom, Bool.and_eq_true, decide_eq_true_eq]
    exact ⟨h.1, ih h.2⟩

theorem smSorted_put {m : SMap α} (h : smSorted m = true) (k : Nat) (v : α) : smSorted (smPut m k v) = true :=
  smSortedFrom_put h v (Nat.zero_le k)

theorem smSorted_del {m : SMap α} (h : smSorted m = true) (k : Nat) : smSorted (smDel m k) = true := smSortedFrom_del h k

theorem smSorted_filter {m : SMap α} (h : smSorted m = true) (p : Nat × α → Bool) : smSorted (m.filter p) = true :=
  smSortedFrom_filter h p

theorem smSorted_map {β : Type} {m : SMap α} (h : smSorted m = true) (f : Nat × α → β) :
    smSorted (m.map fun e => (e.1, f e)) = true := smSortedFrom_map h f

@[simp] theorem smGet_put_same (d : α) (m : SMap α) (k : Nat) (v : α) : smGet d (smPut m k v) k = v := by
  simp [smGet, smFind_put_same]

theorem smGet_put_ne (d : α) (m : SMap α) {k k' : Nat} (v : α) (h : k' ≠ k) : smGet d (smPut m k v) k' = smGet d m k' := by
  simp [smGet, smFind_put_ne m v h]

end Sys2Proof.Machine
end

