-- ==== Sys2Proof/Laws/State.lean ====
section
/-! SUPPORT. The small lemmas of the state: one for each field under each primitive update, and what the accessors read back. -/

namespace Sys2Proof.Machine

/-! ### `setReg` -/

@[simp] theorem State.setReg_now (s : State) (a : Nat) (w : Word) : (s.setReg a w).now = s.now := rfl
@[simp] theorem State.setReg_free (s : State) (a : Nat) (w : Word) : (s.setReg a w).free = s.free := rfl
@[simp] theorem State.setReg_marks (s : State) (a : Nat) (w : Word) : (s.setReg a w).marks = s.marks := rfl
@[simp] theorem State.setReg_mem (s : State) (a : Nat) (w : Word) : (s.setReg a w).mem = s.mem := rfl
@[simp] theorem State.setReg_ecc (s : State) (a : Nat) (w : Word) : (s.setReg a w).ecc = s.ecc := rfl
@[simp] theorem State.setReg_reaches (s : State) (a : Nat) (w : Word) : (s.setReg a w).reaches = s.reaches := rfl
@[simp] theorem State.setReg_die (s : State) (a : Nat) (w : Word) : (s.setReg a w).die = s.die := rfl
@[simp] theorem State.setReg_cores (s : State) (a : Nat) (w : Word) : (s.setReg a w).cores = s.cores := rfl
@[simp] theorem State.setReg_locks (s : State) (a : Nat) (w : Word) : (s.setReg a w).locks = s.locks := rfl
@[simp] theorem State.setReg_mesh (s : State) (a : Nat) (w : Word) : (s.setReg a w).mesh = s.mesh := rfl
@[simp] theorem State.setReg_holds (s : State) (a : Nat) (w : Word) : (s.setReg a w).holds = s.holds := rfl
@[simp] theorem State.setReg_fabric (s : State) (a : Nat) (w : Word) : (s.setReg a w).fabric = s.fabric := rfl
@[simp] theorem State.setReg_host (s : State) (a : Nat) (w : Word) : (s.setReg a w).host = s.host := rfl
@[simp] theorem State.setReg_engine (s : State) (a : Nat) (w : Word) : (s.setReg a w).engine = s.engine := rfl
@[simp] theorem State.setReg_weights (s : State) (a : Nat) (w : Word) : (s.setReg a w).weights = s.weights := rfl
@[simp] theorem State.setReg_power (s : State) (a : Nat) (w : Word) : (s.setReg a w).power = s.power := rfl
@[simp] theorem State.setReg_toll (s : State) (a : Nat) (w : Word) : (s.setReg a w).toll = s.toll := rfl
@[simp] theorem State.setReg_idle (s : State) (a : Nat) (w : Word) : (s.setReg a w).idle = s.idle := rfl
@[simp] theorem State.setReg_diag (s : State) (a : Nat) (w : Word) : (s.setReg a w).diag = s.diag := rfl
@[simp] theorem State.setReg_ibiOn (s : State) (a : Nat) (w : Word) : (s.setReg a w).ibiOn = s.ibiOn := rfl
@[simp] theorem State.setReg_ibis (s : State) (a : Nat) (w : Word) : (s.setReg a w).ibis = s.ibis := rfl
@[simp] theorem State.setReg_outs (s : State) (a : Nat) (w : Word) : (s.setReg a w).outs = s.outs := rfl
@[simp] theorem State.setReg_pending (s : State) (a : Nat) (w : Word) : (s.setReg a w).pending = s.pending := rfl

/-! ### `put` -/

@[simp] theorem State.put_now (s : State) (a : Nat) (f : BitField) (v : Nat) : (s.put a f v).now = s.now := rfl
@[simp] theorem State.put_free (s : State) (a : Nat) (f : BitField) (v : Nat) : (s.put a f v).free = s.free := rfl
@[simp] theorem State.put_marks (s : State) (a : Nat) (f : BitField) (v : Nat) : (s.put a f v).marks = s.marks := rfl
@[simp] theorem State.put_mem (s : State) (a : Nat) (f : BitField) (v : Nat) : (s.put a f v).mem = s.mem := rfl
@[simp] theorem State.put_ecc (s : State) (a : Nat) (f : BitField) (v : Nat) : (s.put a f v).ecc = s.ecc := rfl
@[simp] theorem State.put_reaches (s : State) (a : Nat) (f : BitField) (v : Nat) : (s.put a f v).reaches = s.reaches := rfl
@[simp] theorem State.put_die (s : State) (a : Nat) (f : BitField) (v : Nat) : (s.put a f v).die = s.die := rfl
@[simp] theorem State.put_cores (s : State) (a : Nat) (f : BitField) (v : Nat) : (s.put a f v).cores = s.cores := rfl
@[simp] theorem State.put_locks (s : State) (a : Nat) (f : BitField) (v : Nat) : (s.put a f v).locks = s.locks := rfl
@[simp] theorem State.put_mesh (s : State) (a : Nat) (f : BitField) (v : Nat) : (s.put a f v).mesh = s.mesh := rfl
@[simp] theorem State.put_holds (s : State) (a : Nat) (f : BitField) (v : Nat) : (s.put a f v).holds = s.holds := rfl
@[simp] theorem State.put_fabric (s : State) (a : Nat) (f : BitField) (v : Nat) : (s.put a f v).fabric = s.fabric := rfl
@[simp] theorem State.put_host (s : State) (a : Nat) (f : BitField) (v : Nat) : (s.put a f v).host = s.host := rfl
@[simp] theorem State.put_engine (s : State) (a : Nat) (f : BitField) (v : Nat) : (s.put a f v).engine = s.engine := rfl
@[simp] theorem State.put_weights (s : State) (a : Nat) (f : BitField) (v : Nat) : (s.put a f v).weights = s.weights := rfl
@[simp] theorem State.put_power (s : State) (a : Nat) (f : BitField) (v : Nat) : (s.put a f v).power = s.power := rfl
@[simp] theorem State.put_toll (s : State) (a : Nat) (f : BitField) (v : Nat) : (s.put a f v).toll = s.toll := rfl
@[simp] theorem State.put_idle (s : State) (a : Nat) (f : BitField) (v : Nat) : (s.put a f v).idle = s.idle := rfl
@[simp] theorem State.put_diag (s : State) (a : Nat) (f : BitField) (v : Nat) : (s.put a f v).diag = s.diag := rfl
@[simp] theorem State.put_ibiOn (s : State) (a : Nat) (f : BitField) (v : Nat) : (s.put a f v).ibiOn = s.ibiOn := rfl
@[simp] theorem State.put_ibis (s : State) (a : Nat) (f : BitField) (v : Nat) : (s.put a f v).ibis = s.ibis := rfl
@[simp] theorem State.put_outs (s : State) (a : Nat) (f : BitField) (v : Nat) : (s.put a f v).outs = s.outs := rfl
@[simp] theorem State.put_pending (s : State) (a : Nat) (f : BitField) (v : Nat) : (s.put a f v).pending = s.pending := rfl

/-! ### `setMark` -/

@[simp] theorem State.setMark_now (s : State) (a : Nat) (m : Mark) : (s.setMark a m).now = s.now := rfl
@[simp] theorem State.setMark_free (s : State) (a : Nat) (m : Mark) : (s.setMark a m).free = s.free := rfl
@[simp] theorem State.setMark_regs (s : State) (a : Nat) (m : Mark) : (s.setMark a m).regs = s.regs := rfl
@[simp] theorem State.setMark_mem (s : State) (a : Nat) (m : Mark) : (s.setMark a m).mem = s.mem := rfl
@[simp] theorem State.setMark_ecc (s : State) (a : Nat) (m : Mark) : (s.setMark a m).ecc = s.ecc := rfl
@[simp] theorem State.setMark_reaches (s : State) (a : Nat) (m : Mark) : (s.setMark a m).reaches = s.reaches := rfl
@[simp] theorem State.setMark_die (s : State) (a : Nat) (m : Mark) : (s.setMark a m).die = s.die := rfl
@[simp] theorem State.setMark_cores (s : State) (a : Nat) (m : Mark) : (s.setMark a m).cores = s.cores := rfl
@[simp] theorem State.setMark_locks (s : State) (a : Nat) (m : Mark) : (s.setMark a m).locks = s.locks := rfl
@[simp] theorem State.setMark_mesh (s : State) (a : Nat) (m : Mark) : (s.setMark a m).mesh = s.mesh := rfl
@[simp] theorem State.setMark_holds (s : State) (a : Nat) (m : Mark) : (s.setMark a m).holds = s.holds := rfl
@[simp] theorem State.setMark_fabric (s : State) (a : Nat) (m : Mark) : (s.setMark a m).fabric = s.fabric := rfl
@[simp] theorem State.setMark_host (s : State) (a : Nat) (m : Mark) : (s.setMark a m).host = s.host := rfl
@[simp] theorem State.setMark_engine (s : State) (a : Nat) (m : Mark) : (s.setMark a m).engine = s.engine := rfl
@[simp] theorem State.setMark_weights (s : State) (a : Nat) (m : Mark) : (s.setMark a m).weights = s.weights := rfl
@[simp] theorem State.setMark_power (s : State) (a : Nat) (m : Mark) : (s.setMark a m).power = s.power := rfl
@[simp] theorem State.setMark_toll (s : State) (a : Nat) (m : Mark) : (s.setMark a m).toll = s.toll := rfl
@[simp] theorem State.setMark_idle (s : State) (a : Nat) (m : Mark) : (s.setMark a m).idle = s.idle := rfl
@[simp] theorem State.setMark_diag (s : State) (a : Nat) (m : Mark) : (s.setMark a m).diag = s.diag := rfl
@[simp] theorem State.setMark_ibiOn (s : State) (a : Nat) (m : Mark) : (s.setMark a m).ibiOn = s.ibiOn := rfl
@[simp] theorem State.setMark_ibis (s : State) (a : Nat) (m : Mark) : (s.setMark a m).ibis = s.ibis := rfl
@[simp] theorem State.setMark_outs (s : State) (a : Nat) (m : Mark) : (s.setMark a m).outs = s.outs := rfl
@[simp] theorem State.setMark_pending (s : State) (a : Nat) (m : Mark) : (s.setMark a m).pending = s.pending := rfl

/-! ### `hwSet` -/

@[simp] theorem State.hwSet_now (s : State) (a : Nat) (f : BitField) (v : Nat) : (s.hwSet a f v).now = s.now := rfl
@[simp] theorem State.hwSet_free (s : State) (a : Nat) (f : BitField) (v : Nat) : (s.hwSet a f v).free = s.free := rfl
@[simp] theorem State.hwSet_mem (s : State) (a : Nat) (f : BitField) (v : Nat) : (s.hwSet a f v).mem = s.mem := rfl
@[simp] theorem State.hwSet_ecc (s : State) (a : Nat) (f : BitField) (v : Nat) : (s.hwSet a f v).ecc = s.ecc := rfl
@[simp] theorem State.hwSet_reaches (s : State) (a : Nat) (f : BitField) (v : Nat) : (s.hwSet a f v).reaches = s.reaches := rfl
@[simp] theorem State.hwSet_die (s : State) (a : Nat) (f : BitField) (v : Nat) : (s.hwSet a f v).die = s.die := rfl
@[simp] theorem State.hwSet_cores (s : State) (a : Nat) (f : BitField) (v : Nat) : (s.hwSet a f v).cores = s.cores := rfl
@[simp] theorem State.hwSet_locks (s : State) (a : Nat) (f : BitField) (v : Nat) : (s.hwSet a f v).locks = s.locks := rfl
@[simp] theorem State.hwSet_mesh (s : State) (a : Nat) (f : BitField) (v : Nat) : (s.hwSet a f v).mesh = s.mesh := rfl
@[simp] theorem State.hwSet_holds (s : State) (a : Nat) (f : BitField) (v : Nat) : (s.hwSet a f v).holds = s.holds := rfl
@[simp] theorem State.hwSet_fabric (s : State) (a : Nat) (f : BitField) (v : Nat) : (s.hwSet a f v).fabric = s.fabric := rfl
@[simp] theorem State.hwSet_host (s : State) (a : Nat) (f : BitField) (v : Nat) : (s.hwSet a f v).host = s.host := rfl
@[simp] theorem State.hwSet_engine (s : State) (a : Nat) (f : BitField) (v : Nat) : (s.hwSet a f v).engine = s.engine := rfl
@[simp] theorem State.hwSet_weights (s : State) (a : Nat) (f : BitField) (v : Nat) : (s.hwSet a f v).weights = s.weights := rfl
@[simp] theorem State.hwSet_power (s : State) (a : Nat) (f : BitField) (v : Nat) : (s.hwSet a f v).power = s.power := rfl
@[simp] theorem State.hwSet_toll (s : State) (a : Nat) (f : BitField) (v : Nat) : (s.hwSet a f v).toll = s.toll := rfl
@[simp] theorem State.hwSet_idle (s : State) (a : Nat) (f : BitField) (v : Nat) : (s.hwSet a f v).idle = s.idle := rfl
@[simp] theorem State.hwSet_diag (s : State) (a : Nat) (f : BitField) (v : Nat) : (s.hwSet a f v).diag = s.diag := rfl
@[simp] theorem State.hwSet_ibiOn (s : State) (a : Nat) (f : BitField) (v : Nat) : (s.hwSet a f v).ibiOn = s.ibiOn := rfl
@[simp] theorem State.hwSet_ibis (s : State) (a : Nat) (f : BitField) (v : Nat) : (s.hwSet a f v).ibis = s.ibis := rfl
@[simp] theorem State.hwSet_outs (s : State) (a : Nat) (f : BitField) (v : Nat) : (s.hwSet a f v).outs = s.outs := rfl
@[simp] theorem State.hwSet_pending (s : State) (a : Nat) (f : BitField) (v : Nat) : (s.hwSet a f v).pending = s.pending := rfl

/-! ### `writeBits` -/

@[simp] theorem State.writeBits_now (s : State) (a : Nat) (r : RegRow) (p v : Word) : (s.writeBits a r p v).now = s.now := rfl
@[simp] theorem State.writeBits_free (s : State) (a : Nat) (r : RegRow) (p v : Word) : (s.writeBits a r p v).free = s.free := rfl
@[simp] theorem State.writeBits_mem (s : State) (a : Nat) (r : RegRow) (p v : Word) : (s.writeBits a r p v).mem = s.mem := rfl
@[simp] theorem State.writeBits_ecc (s : State) (a : Nat) (r : RegRow) (p v : Word) : (s.writeBits a r p v).ecc = s.ecc := rfl
@[simp] theorem State.writeBits_reaches (s : State) (a : Nat) (r : RegRow) (p v : Word) : (s.writeBits a r p v).reaches = s.reaches := rfl
@[simp] theorem State.writeBits_die (s : State) (a : Nat) (r : RegRow) (p v : Word) : (s.writeBits a r p v).die = s.die := rfl
@[simp] theorem State.writeBits_cores (s : State) (a : Nat) (r : RegRow) (p v : Word) : (s.writeBits a r p v).cores = s.cores := rfl
@[simp] theorem State.writeBits_locks (s : State) (a : Nat) (r : RegRow) (p v : Word) : (s.writeBits a r p v).locks = s.locks := rfl
@[simp] theorem State.writeBits_mesh (s : State) (a : Nat) (r : RegRow) (p v : Word) : (s.writeBits a r p v).mesh = s.mesh := rfl
@[simp] theorem State.writeBits_holds (s : State) (a : Nat) (r : RegRow) (p v : Word) : (s.writeBits a r p v).holds = s.holds := rfl
@[simp] theorem State.writeBits_fabric (s : State) (a : Nat) (r : RegRow) (p v : Word) : (s.writeBits a r p v).fabric = s.fabric := rfl
@[simp] theorem State.writeBits_host (s : State) (a : Nat) (r : RegRow) (p v : Word) : (s.writeBits a r p v).host = s.host := rfl
@[simp] theorem State.writeBits_engine (s : State) (a : Nat) (r : RegRow) (p v : Word) : (s.writeBits a r p v).engine = s.engine := rfl
@[simp] theorem State.writeBits_weights (s : State) (a : Nat) (r : RegRow) (p v : Word) : (s.writeBits a r p v).weights = s.weights := rfl
@[simp] theorem State.writeBits_power (s : State) (a : Nat) (r : RegRow) (p v : Word) : (s.writeBits a r p v).power = s.power := rfl
@[simp] theorem State.writeBits_toll (s : State) (a : Nat) (r : RegRow) (p v : Word) : (s.writeBits a r p v).toll = s.toll := rfl
@[simp] theorem State.writeBits_idle (s : State) (a : Nat) (r : RegRow) (p v : Word) : (s.writeBits a r p v).idle = s.idle := rfl
@[simp] theorem State.writeBits_diag (s : State) (a : Nat) (r : RegRow) (p v : Word) : (s.writeBits a r p v).diag = s.diag := rfl
@[simp] theorem State.writeBits_ibiOn (s : State) (a : Nat) (r : RegRow) (p v : Word) : (s.writeBits a r p v).ibiOn = s.ibiOn := rfl
@[simp] theorem State.writeBits_ibis (s : State) (a : Nat) (r : RegRow) (p v : Word) : (s.writeBits a r p v).ibis = s.ibis := rfl
@[simp] theorem State.writeBits_outs (s : State) (a : Nat) (r : RegRow) (p v : Word) : (s.writeBits a r p v).outs = s.outs := rfl
@[simp] theorem State.writeBits_pending (s : State) (a : Nat) (r : RegRow) (p v : Word) : (s.writeBits a r p v).pending = s.pending := rfl

/-! ### `setBit` -/

@[simp] theorem State.setBit_now (s : State) (a : Nat) (f : BitField) (v : Nat) : (s.setBit a f v).now = s.now := rfl
@[simp] theorem State.setBit_free (s : State) (a : Nat) (f : BitField) (v : Nat) : (s.setBit a f v).free = s.free := rfl
@[simp] theorem State.setBit_marks (s : State) (a : Nat) (f : BitField) (v : Nat) : (s.setBit a f v).marks = s.marks := rfl
@[simp] theorem State.setBit_mem (s : State) (a : Nat) (f : BitField) (v : Nat) : (s.setBit a f v).mem = s.mem := rfl
@[simp] theorem State.setBit_ecc (s : State) (a : Nat) (f : BitField) (v : Nat) : (s.setBit a f v).ecc = s.ecc := rfl
@[simp] theorem State.setBit_reaches (s : State) (a : Nat) (f : BitField) (v : Nat) : (s.setBit a f v).reaches = s.reaches := rfl
@[simp] theorem State.setBit_die (s : State) (a : Nat) (f : BitField) (v : Nat) : (s.setBit a f v).die = s.die := rfl
@[simp] theorem State.setBit_cores (s : State) (a : Nat) (f : BitField) (v : Nat) : (s.setBit a f v).cores = s.cores := rfl
@[simp] theorem State.setBit_locks (s : State) (a : Nat) (f : BitField) (v : Nat) : (s.setBit a f v).locks = s.locks := rfl
@[simp] theorem State.setBit_mesh (s : State) (a : Nat) (f : BitField) (v : Nat) : (s.setBit a f v).mesh = s.mesh := rfl
@[simp] theorem State.setBit_holds (s : State) (a : Nat) (f : BitField) (v : Nat) : (s.setBit a f v).holds = s.holds := rfl
@[simp] theorem State.setBit_fabric (s : State) (a : Nat) (f : BitField) (v : Nat) : (s.setBit a f v).fabric = s.fabric := rfl
@[simp] theorem State.setBit_host (s : State) (a : Nat) (f : BitField) (v : Nat) : (s.setBit a f v).host = s.host := rfl
@[simp] theorem State.setBit_engine (s : State) (a : Nat) (f : BitField) (v : Nat) : (s.setBit a f v).engine = s.engine := rfl
@[simp] theorem State.setBit_weights (s : State) (a : Nat) (f : BitField) (v : Nat) : (s.setBit a f v).weights = s.weights := rfl
@[simp] theorem State.setBit_power (s : State) (a : Nat) (f : BitField) (v : Nat) : (s.setBit a f v).power = s.power := rfl
@[simp] theorem State.setBit_toll (s : State) (a : Nat) (f : BitField) (v : Nat) : (s.setBit a f v).toll = s.toll := rfl
@[simp] theorem State.setBit_idle (s : State) (a : Nat) (f : BitField) (v : Nat) : (s.setBit a f v).idle = s.idle := rfl
@[simp] theorem State.setBit_diag (s : State) (a : Nat) (f : BitField) (v : Nat) : (s.setBit a f v).diag = s.diag := rfl
@[simp] theorem State.setBit_ibiOn (s : State) (a : Nat) (f : BitField) (v : Nat) : (s.setBit a f v).ibiOn = s.ibiOn := rfl
@[simp] theorem State.setBit_ibis (s : State) (a : Nat) (f : BitField) (v : Nat) : (s.setBit a f v).ibis = s.ibis := rfl
@[simp] theorem State.setBit_outs (s : State) (a : Nat) (f : BitField) (v : Nat) : (s.setBit a f v).outs = s.outs := rfl
@[simp] theorem State.setBit_pending (s : State) (a : Nat) (f : BitField) (v : Nat) : (s.setBit a f v).pending = s.pending := rfl

/-! ### `resetReg` -/

@[simp] theorem State.resetReg_now (s : State) (a : Nat) : (s.resetReg a).now = s.now := rfl
@[simp] theorem State.resetReg_free (s : State) (a : Nat) : (s.resetReg a).free = s.free := rfl
@[simp] theorem State.resetReg_marks (s : State) (a : Nat) : (s.resetReg a).marks = s.marks := rfl
@[simp] theorem State.resetReg_mem (s : State) (a : Nat) : (s.resetReg a).mem = s.mem := rfl
@[simp] theorem State.resetReg_ecc (s : State) (a : Nat) : (s.resetReg a).ecc = s.ecc := rfl
@[simp] theorem State.resetReg_reaches (s : State) (a : Nat) : (s.resetReg a).reaches = s.reaches := rfl
@[simp] theorem State.resetReg_die (s : State) (a : Nat) : (s.resetReg a).die = s.die := rfl
@[simp] theorem State.resetReg_cores (s : State) (a : Nat) : (s.resetReg a).cores = s.cores := rfl
@[simp] theorem State.resetReg_locks (s : State) (a : Nat) : (s.resetReg a).locks = s.locks := rfl
@[simp] theorem State.resetReg_mesh (s : State) (a : Nat) : (s.resetReg a).mesh = s.mesh := rfl
@[simp] theorem State.resetReg_holds (s : State) (a : Nat) : (s.resetReg a).holds = s.holds := rfl
@[simp] theorem State.resetReg_fabric (s : State) (a : Nat) : (s.resetReg a).fabric = s.fabric := rfl
@[simp] theorem State.resetReg_host (s : State) (a : Nat) : (s.resetReg a).host = s.host := rfl
@[simp] theorem State.resetReg_engine (s : State) (a : Nat) : (s.resetReg a).engine = s.engine := rfl
@[simp] theorem State.resetReg_weights (s : State) (a : Nat) : (s.resetReg a).weights = s.weights := rfl
@[simp] theorem State.resetReg_power (s : State) (a : Nat) : (s.resetReg a).power = s.power := rfl
@[simp] theorem State.resetReg_toll (s : State) (a : Nat) : (s.resetReg a).toll = s.toll := rfl
@[simp] theorem State.resetReg_idle (s : State) (a : Nat) : (s.resetReg a).idle = s.idle := rfl
@[simp] theorem State.resetReg_diag (s : State) (a : Nat) : (s.resetReg a).diag = s.diag := rfl
@[simp] theorem State.resetReg_ibiOn (s : State) (a : Nat) : (s.resetReg a).ibiOn = s.ibiOn := rfl
@[simp] theorem State.resetReg_ibis (s : State) (a : Nat) : (s.resetReg a).ibis = s.ibis := rfl
@[simp] theorem State.resetReg_outs (s : State) (a : Nat) : (s.resetReg a).outs = s.outs := rfl
@[simp] theorem State.resetReg_pending (s : State) (a : Nat) : (s.resetReg a).pending = s.pending := rfl

/-! ### `setReach` -/

@[simp] theorem State.setReach_now (s : State) (r : Nat) (x : Reach) : (s.setReach r x).now = s.now := rfl
@[simp] theorem State.setReach_free (s : State) (r : Nat) (x : Reach) : (s.setReach r x).free = s.free := rfl
@[simp] theorem State.setReach_regs (s : State) (r : Nat) (x : Reach) : (s.setReach r x).regs = s.regs := rfl
@[simp] theorem State.setReach_marks (s : State) (r : Nat) (x : Reach) : (s.setReach r x).marks = s.marks := rfl
@[simp] theorem State.setReach_mem (s : State) (r : Nat) (x : Reach) : (s.setReach r x).mem = s.mem := rfl
@[simp] theorem State.setReach_ecc (s : State) (r : Nat) (x : Reach) : (s.setReach r x).ecc = s.ecc := rfl
@[simp] theorem State.setReach_die (s : State) (r : Nat) (x : Reach) : (s.setReach r x).die = s.die := rfl
@[simp] theorem State.setReach_cores (s : State) (r : Nat) (x : Reach) : (s.setReach r x).cores = s.cores := rfl
@[simp] theorem State.setReach_locks (s : State) (r : Nat) (x : Reach) : (s.setReach r x).locks = s.locks := rfl
@[simp] theorem State.setReach_mesh (s : State) (r : Nat) (x : Reach) : (s.setReach r x).mesh = s.mesh := rfl
@[simp] theorem State.setReach_holds (s : State) (r : Nat) (x : Reach) : (s.setReach r x).holds = s.holds := rfl
@[simp] theorem State.setReach_fabric (s : State) (r : Nat) (x : Reach) : (s.setReach r x).fabric = s.fabric := rfl
@[simp] theorem State.setReach_host (s : State) (r : Nat) (x : Reach) : (s.setReach r x).host = s.host := rfl
@[simp] theorem State.setReach_engine (s : State) (r : Nat) (x : Reach) : (s.setReach r x).engine = s.engine := rfl
@[simp] theorem State.setReach_weights (s : State) (r : Nat) (x : Reach) : (s.setReach r x).weights = s.weights := rfl
@[simp] theorem State.setReach_power (s : State) (r : Nat) (x : Reach) : (s.setReach r x).power = s.power := rfl
@[simp] theorem State.setReach_toll (s : State) (r : Nat) (x : Reach) : (s.setReach r x).toll = s.toll := rfl
@[simp] theorem State.setReach_idle (s : State) (r : Nat) (x : Reach) : (s.setReach r x).idle = s.idle := rfl
@[simp] theorem State.setReach_diag (s : State) (r : Nat) (x : Reach) : (s.setReach r x).diag = s.diag := rfl
@[simp] theorem State.setReach_ibiOn (s : State) (r : Nat) (x : Reach) : (s.setReach r x).ibiOn = s.ibiOn := rfl
@[simp] theorem State.setReach_ibis (s : State) (r : Nat) (x : Reach) : (s.setReach r x).ibis = s.ibis := rfl
@[simp] theorem State.setReach_outs (s : State) (r : Nat) (x : Reach) : (s.setReach r x).outs = s.outs := rfl
@[simp] theorem State.setReach_pending (s : State) (r : Nat) (x : Reach) : (s.setReach r x).pending = s.pending := rfl

/-! ### `setCore` -/

@[simp] theorem State.setCore_now (s : State) (n : Nat) (c : Core) : (s.setCore n c).now = s.now := rfl
@[simp] theorem State.setCore_free (s : State) (n : Nat) (c : Core) : (s.setCore n c).free = s.free := rfl
@[simp] theorem State.setCore_regs (s : State) (n : Nat) (c : Core) : (s.setCore n c).regs = s.regs := rfl
@[simp] theorem State.setCore_marks (s : State) (n : Nat) (c : Core) : (s.setCore n c).marks = s.marks := rfl
@[simp] theorem State.setCore_mem (s : State) (n : Nat) (c : Core) : (s.setCore n c).mem = s.mem := rfl
@[simp] theorem State.setCore_ecc (s : State) (n : Nat) (c : Core) : (s.setCore n c).ecc = s.ecc := rfl
@[simp] theorem State.setCore_reaches (s : State) (n : Nat) (c : Core) : (s.setCore n c).reaches = s.reaches := rfl
@[simp] theorem State.setCore_die (s : State) (n : Nat) (c : Core) : (s.setCore n c).die = s.die := rfl
@[simp] theorem State.setCore_locks (s : State) (n : Nat) (c : Core) : (s.setCore n c).locks = s.locks := rfl
@[simp] theorem State.setCore_mesh (s : State) (n : Nat) (c : Core) : (s.setCore n c).mesh = s.mesh := rfl
@[simp] theorem State.setCore_holds (s : State) (n : Nat) (c : Core) : (s.setCore n c).holds = s.holds := rfl
@[simp] theorem State.setCore_fabric (s : State) (n : Nat) (c : Core) : (s.setCore n c).fabric = s.fabric := rfl
@[simp] theorem State.setCore_host (s : State) (n : Nat) (c : Core) : (s.setCore n c).host = s.host := rfl
@[simp] theorem State.setCore_engine (s : State) (n : Nat) (c : Core) : (s.setCore n c).engine = s.engine := rfl
@[simp] theorem State.setCore_weights (s : State) (n : Nat) (c : Core) : (s.setCore n c).weights = s.weights := rfl
@[simp] theorem State.setCore_power (s : State) (n : Nat) (c : Core) : (s.setCore n c).power = s.power := rfl
@[simp] theorem State.setCore_toll (s : State) (n : Nat) (c : Core) : (s.setCore n c).toll = s.toll := rfl
@[simp] theorem State.setCore_idle (s : State) (n : Nat) (c : Core) : (s.setCore n c).idle = s.idle := rfl
@[simp] theorem State.setCore_diag (s : State) (n : Nat) (c : Core) : (s.setCore n c).diag = s.diag := rfl
@[simp] theorem State.setCore_ibiOn (s : State) (n : Nat) (c : Core) : (s.setCore n c).ibiOn = s.ibiOn := rfl
@[simp] theorem State.setCore_ibis (s : State) (n : Nat) (c : Core) : (s.setCore n c).ibis = s.ibis := rfl
@[simp] theorem State.setCore_outs (s : State) (n : Nat) (c : Core) : (s.setCore n c).outs = s.outs := rfl
@[simp] theorem State.setCore_pending (s : State) (n : Nat) (c : Core) : (s.setCore n c).pending = s.pending := rfl

/-! ### `setPort` -/

@[simp] theorem State.setPort_now (s : State) (p : Nat) (x : Port) : (s.setPort p x).now = s.now := rfl
@[simp] theorem State.setPort_free (s : State) (p : Nat) (x : Port) : (s.setPort p x).free = s.free := rfl
@[simp] theorem State.setPort_regs (s : State) (p : Nat) (x : Port) : (s.setPort p x).regs = s.regs := rfl
@[simp] theorem State.setPort_marks (s : State) (p : Nat) (x : Port) : (s.setPort p x).marks = s.marks := rfl
@[simp] theorem State.setPort_mem (s : State) (p : Nat) (x : Port) : (s.setPort p x).mem = s.mem := rfl
@[simp] theorem State.setPort_ecc (s : State) (p : Nat) (x : Port) : (s.setPort p x).ecc = s.ecc := rfl
@[simp] theorem State.setPort_reaches (s : State) (p : Nat) (x : Port) : (s.setPort p x).reaches = s.reaches := rfl
@[simp] theorem State.setPort_die (s : State) (p : Nat) (x : Port) : (s.setPort p x).die = s.die := rfl
@[simp] theorem State.setPort_cores (s : State) (p : Nat) (x : Port) : (s.setPort p x).cores = s.cores := rfl
@[simp] theorem State.setPort_locks (s : State) (p : Nat) (x : Port) : (s.setPort p x).locks = s.locks := rfl
@[simp] theorem State.setPort_mesh (s : State) (p : Nat) (x : Port) : (s.setPort p x).mesh = s.mesh := rfl
@[simp] theorem State.setPort_holds (s : State) (p : Nat) (x : Port) : (s.setPort p x).holds = s.holds := rfl
@[simp] theorem State.setPort_host (s : State) (p : Nat) (x : Port) : (s.setPort p x).host = s.host := rfl
@[simp] theorem State.setPort_engine (s : State) (p : Nat) (x : Port) : (s.setPort p x).engine = s.engine := rfl
@[simp] theorem State.setPort_weights (s : State) (p : Nat) (x : Port) : (s.setPort p x).weights = s.weights := rfl
@[simp] theorem State.setPort_power (s : State) (p : Nat) (x : Port) : (s.setPort p x).power = s.power := rfl
@[simp] theorem State.setPort_toll (s : State) (p : Nat) (x : Port) : (s.setPort p x).toll = s.toll := rfl
@[simp] theorem State.setPort_idle (s : State) (p : Nat) (x : Port) : (s.setPort p x).idle = s.idle := rfl
@[simp] theorem State.setPort_diag (s : State) (p : Nat) (x : Port) : (s.setPort p x).diag = s.diag := rfl
@[simp] theorem State.setPort_ibiOn (s : State) (p : Nat) (x : Port) : (s.setPort p x).ibiOn = s.ibiOn := rfl
@[simp] theorem State.setPort_ibis (s : State) (p : Nat) (x : Port) : (s.setPort p x).ibis = s.ibis := rfl
@[simp] theorem State.setPort_outs (s : State) (p : Nat) (x : Port) : (s.setPort p x).outs = s.outs := rfl
@[simp] theorem State.setPort_pending (s : State) (p : Nat) (x : Port) : (s.setPort p x).pending = s.pending := rfl

/-! ### `setSlot` -/

@[simp] theorem State.setSlot_now (s : State) (i : Nat) (x : Slot) : (s.setSlot i x).now = s.now := rfl
@[simp] theorem State.setSlot_free (s : State) (i : Nat) (x : Slot) : (s.setSlot i x).free = s.free := rfl
@[simp] theorem State.setSlot_regs (s : State) (i : Nat) (x : Slot) : (s.setSlot i x).regs = s.regs := rfl
@[simp] theorem State.setSlot_marks (s : State) (i : Nat) (x : Slot) : (s.setSlot i x).marks = s.marks := rfl
@[simp] theorem State.setSlot_mem (s : State) (i : Nat) (x : Slot) : (s.setSlot i x).mem = s.mem := rfl
@[simp] theorem State.setSlot_ecc (s : State) (i : Nat) (x : Slot) : (s.setSlot i x).ecc = s.ecc := rfl
@[simp] theorem State.setSlot_reaches (s : State) (i : Nat) (x : Slot) : (s.setSlot i x).reaches = s.reaches := rfl
@[simp] theorem State.setSlot_die (s : State) (i : Nat) (x : Slot) : (s.setSlot i x).die = s.die := rfl
@[simp] theorem State.setSlot_cores (s : State) (i : Nat) (x : Slot) : (s.setSlot i x).cores = s.cores := rfl
@[simp] theorem State.setSlot_mesh (s : State) (i : Nat) (x : Slot) : (s.setSlot i x).mesh = s.mesh := rfl
@[simp] theorem State.setSlot_holds (s : State) (i : Nat) (x : Slot) : (s.setSlot i x).holds = s.holds := rfl
@[simp] theorem State.setSlot_fabric (s : State) (i : Nat) (x : Slot) : (s.setSlot i x).fabric = s.fabric := rfl
@[simp] theorem State.setSlot_host (s : State) (i : Nat) (x : Slot) : (s.setSlot i x).host = s.host := rfl
@[simp] theorem State.setSlot_engine (s : State) (i : Nat) (x : Slot) : (s.setSlot i x).engine = s.engine := rfl
@[simp] theorem State.setSlot_weights (s : State) (i : Nat) (x : Slot) : (s.setSlot i x).weights = s.weights := rfl
@[simp] theorem State.setSlot_power (s : State) (i : Nat) (x : Slot) : (s.setSlot i x).power = s.power := rfl
@[simp] theorem State.setSlot_toll (s : State) (i : Nat) (x : Slot) : (s.setSlot i x).toll = s.toll := rfl
@[simp] theorem State.setSlot_idle (s : State) (i : Nat) (x : Slot) : (s.setSlot i x).idle = s.idle := rfl
@[simp] theorem State.setSlot_diag (s : State) (i : Nat) (x : Slot) : (s.setSlot i x).diag = s.diag := rfl
@[simp] theorem State.setSlot_ibiOn (s : State) (i : Nat) (x : Slot) : (s.setSlot i x).ibiOn = s.ibiOn := rfl
@[simp] theorem State.setSlot_ibis (s : State) (i : Nat) (x : Slot) : (s.setSlot i x).ibis = s.ibis := rfl
@[simp] theorem State.setSlot_outs (s : State) (i : Nat) (x : Slot) : (s.setSlot i x).outs = s.outs := rfl
@[simp] theorem State.setSlot_pending (s : State) (i : Nat) (x : Slot) : (s.setSlot i x).pending = s.pending := rfl

/-! ### `emit` -/

@[simp] theorem State.emit_now (s : State) (o : Output) : (s.emit o).now = s.now := rfl
@[simp] theorem State.emit_free (s : State) (o : Output) : (s.emit o).free = s.free := rfl
@[simp] theorem State.emit_regs (s : State) (o : Output) : (s.emit o).regs = s.regs := rfl
@[simp] theorem State.emit_marks (s : State) (o : Output) : (s.emit o).marks = s.marks := rfl
@[simp] theorem State.emit_mem (s : State) (o : Output) : (s.emit o).mem = s.mem := rfl
@[simp] theorem State.emit_ecc (s : State) (o : Output) : (s.emit o).ecc = s.ecc := rfl
@[simp] theorem State.emit_reaches (s : State) (o : Output) : (s.emit o).reaches = s.reaches := rfl
@[simp] theorem State.emit_die (s : State) (o : Output) : (s.emit o).die = s.die := rfl
@[simp] theorem State.emit_cores (s : State) (o : Output) : (s.emit o).cores = s.cores := rfl
@[simp] theorem State.emit_locks (s : State) (o : Output) : (s.emit o).locks = s.locks := rfl
@[simp] theorem State.emit_mesh (s : State) (o : Output) : (s.emit o).mesh = s.mesh := rfl
@[simp] theorem State.emit_holds (s : State) (o : Output) : (s.emit o).holds = s.holds := rfl
@[simp] theorem State.emit_fabric (s : State) (o : Output) : (s.emit o).fabric = s.fabric := rfl
@[simp] theorem State.emit_host (s : State) (o : Output) : (s.emit o).host = s.host := rfl
@[simp] theorem State.emit_engine (s : State) (o : Output) : (s.emit o).engine = s.engine := rfl
@[simp] theorem State.emit_weights (s : State) (o : Output) : (s.emit o).weights = s.weights := rfl
@[simp] theorem State.emit_power (s : State) (o : Output) : (s.emit o).power = s.power := rfl
@[simp] theorem State.emit_toll (s : State) (o : Output) : (s.emit o).toll = s.toll := rfl
@[simp] theorem State.emit_idle (s : State) (o : Output) : (s.emit o).idle = s.idle := rfl
@[simp] theorem State.emit_diag (s : State) (o : Output) : (s.emit o).diag = s.diag := rfl
@[simp] theorem State.emit_ibiOn (s : State) (o : Output) : (s.emit o).ibiOn = s.ibiOn := rfl
@[simp] theorem State.emit_ibis (s : State) (o : Output) : (s.emit o).ibis = s.ibis := rfl
@[simp] theorem State.emit_pending (s : State) (o : Output) : (s.emit o).pending = s.pending := rfl

/-! ### `drawn` -/

@[simp] theorem State.drawn_now (s : State) : (s.drawn).now = s.now := rfl
@[simp] theorem State.drawn_regs (s : State) : (s.drawn).regs = s.regs := rfl
@[simp] theorem State.drawn_marks (s : State) : (s.drawn).marks = s.marks := rfl
@[simp] theorem State.drawn_mem (s : State) : (s.drawn).mem = s.mem := rfl
@[simp] theorem State.drawn_ecc (s : State) : (s.drawn).ecc = s.ecc := rfl
@[simp] theorem State.drawn_reaches (s : State) : (s.drawn).reaches = s.reaches := rfl
@[simp] theorem State.drawn_die (s : State) : (s.drawn).die = s.die := rfl
@[simp] theorem State.drawn_cores (s : State) : (s.drawn).cores = s.cores := rfl
@[simp] theorem State.drawn_locks (s : State) : (s.drawn).locks = s.locks := rfl
@[simp] theorem State.drawn_mesh (s : State) : (s.drawn).mesh = s.mesh := rfl
@[simp] theorem State.drawn_holds (s : State) : (s.drawn).holds = s.holds := rfl
@[simp] theorem State.drawn_fabric (s : State) : (s.drawn).fabric = s.fabric := rfl
@[simp] theorem State.drawn_host (s : State) : (s.drawn).host = s.host := rfl
@[simp] theorem State.drawn_engine (s : State) : (s.drawn).engine = s.engine := rfl
@[simp] theorem State.drawn_weights (s : State) : (s.drawn).weights = s.weights := rfl
@[simp] theorem State.drawn_power (s : State) : (s.drawn).power = s.power := rfl
@[simp] theorem State.drawn_toll (s : State) : (s.drawn).toll = s.toll := rfl
@[simp] theorem State.drawn_idle (s : State) : (s.drawn).idle = s.idle := rfl
@[simp] theorem State.drawn_diag (s : State) : (s.drawn).diag = s.diag := rfl
@[simp] theorem State.drawn_ibiOn (s : State) : (s.drawn).ibiOn = s.ibiOn := rfl
@[simp] theorem State.drawn_ibis (s : State) : (s.drawn).ibis = s.ibis := rfl
@[simp] theorem State.drawn_outs (s : State) : (s.drawn).outs = s.outs := rfl
@[simp] theorem State.drawn_pending (s : State) : (s.drawn).pending = s.pending := rfl

/-! ### `hwPut` -/

@[simp] theorem State.hwPut_now (s : State) (a : Nat) (f : BitField) (v : Nat) : (s.hwPut a f v).now = s.now := by
  unfold State.hwPut; split <;> rfl
@[simp] theorem State.hwPut_free (s : State) (a : Nat) (f : BitField) (v : Nat) : (s.hwPut a f v).free = s.free := by
  unfold State.hwPut; split <;> rfl
@[simp] theorem State.hwPut_marks (s : State) (a : Nat) (f : BitField) (v : Nat) : (s.hwPut a f v).marks = s.marks := by
  unfold State.hwPut; split <;> rfl
@[simp] theorem State.hwPut_mem (s : State) (a : Nat) (f : BitField) (v : Nat) : (s.hwPut a f v).mem = s.mem := by
  unfold State.hwPut; split <;> rfl
@[simp] theorem State.hwPut_ecc (s : State) (a : Nat) (f : BitField) (v : Nat) : (s.hwPut a f v).ecc = s.ecc := by
  unfold State.hwPut; split <;> rfl
@[simp] theorem State.hwPut_reaches (s : State) (a : Nat) (f : BitField) (v : Nat) : (s.hwPut a f v).reaches = s.reaches := by
  unfold State.hwPut; split <;> rfl
@[simp] theorem State.hwPut_die (s : State) (a : Nat) (f : BitField) (v : Nat) : (s.hwPut a f v).die = s.die := by
  unfold State.hwPut; split <;> rfl
@[simp] theorem State.hwPut_cores (s : State) (a : Nat) (f : BitField) (v : Nat) : (s.hwPut a f v).cores = s.cores := by
  unfold State.hwPut; split <;> rfl
@[simp] theorem State.hwPut_locks (s : State) (a : Nat) (f : BitField) (v : Nat) : (s.hwPut a f v).locks = s.locks := by
  unfold State.hwPut; split <;> rfl
@[simp] theorem State.hwPut_mesh (s : State) (a : Nat) (f : BitField) (v : Nat) : (s.hwPut a f v).mesh = s.mesh := by
  unfold State.hwPut; split <;> rfl
@[simp] theorem State.hwPut_holds (s : State) (a : Nat) (f : BitField) (v : Nat) : (s.hwPut a f v).holds = s.holds := by
  unfold State.hwPut; split <;> rfl
@[simp] theorem State.hwPut_fabric (s : State) (a : Nat) (f : BitField) (v : Nat) : (s.hwPut a f v).fabric = s.fabric := by
  unfold State.hwPut; split <;> rfl
@[simp] theorem State.hwPut_host (s : State) (a : Nat) (f : BitField) (v : Nat) : (s.hwPut a f v).host = s.host := by
  unfold State.hwPut; split <;> rfl
@[simp] theorem State.hwPut_engine (s : State) (a : Nat) (f : BitField) (v : Nat) : (s.hwPut a f v).engine = s.engine := by
  unfold State.hwPut; split <;> rfl
@[simp] theorem State.hwPut_weights (s : State) (a : Nat) (f : BitField) (v : Nat) : (s.hwPut a f v).weights = s.weights := by
  unfold State.hwPut; split <;> rfl
@[simp] theorem State.hwPut_power (s : State) (a : Nat) (f : BitField) (v : Nat) : (s.hwPut a f v).power = s.power := by
  unfold State.hwPut; split <;> rfl
@[simp] theorem State.hwPut_toll (s : State) (a : Nat) (f : BitField) (v : Nat) : (s.hwPut a f v).toll = s.toll := by
  unfold State.hwPut; split <;> rfl
@[simp] theorem State.hwPut_idle (s : State) (a : Nat) (f : BitField) (v : Nat) : (s.hwPut a f v).idle = s.idle := by
  unfold State.hwPut; split <;> rfl
@[simp] theorem State.hwPut_diag (s : State) (a : Nat) (f : BitField) (v : Nat) : (s.hwPut a f v).diag = s.diag := by
  unfold State.hwPut; split <;> rfl
@[simp] theorem State.hwPut_ibiOn (s : State) (a : Nat) (f : BitField) (v : Nat) : (s.hwPut a f v).ibiOn = s.ibiOn := by
  unfold State.hwPut; split <;> rfl
@[simp] theorem State.hwPut_ibis (s : State) (a : Nat) (f : BitField) (v : Nat) : (s.hwPut a f v).ibis = s.ibis := by
  unfold State.hwPut; split <;> rfl
@[simp] theorem State.hwPut_outs (s : State) (a : Nat) (f : BitField) (v : Nat) : (s.hwPut a f v).outs = s.outs := by
  unfold State.hwPut; split <;> rfl
@[simp] theorem State.hwPut_pending (s : State) (a : Nat) (f : BitField) (v : Nat) : (s.hwPut a f v).pending = s.pending := by
  unfold State.hwPut; split <;> rfl

/-! ### `addTo` -/

@[simp] theorem State.addTo_now (s : State) (a : Nat) (f : BitField) (v : Nat) : (s.addTo a f v).now = s.now := by
  unfold State.addTo; simp
@[simp] theorem State.addTo_free (s : State) (a : Nat) (f : BitField) (v : Nat) : (s.addTo a f v).free = s.free := by
  unfold State.addTo; simp
@[simp] theorem State.addTo_marks (s : State) (a : Nat) (f : BitField) (v : Nat) : (s.addTo a f v).marks = s.marks := by
  unfold State.addTo; simp
@[simp] theorem State.addTo_mem (s : State) (a : Nat) (f : BitField) (v : Nat) : (s.addTo a f v).mem = s.mem := by
  unfold State.addTo; simp
@[simp] theorem State.addTo_ecc (s : State) (a : Nat) (f : BitField) (v : Nat) : (s.addTo a f v).ecc = s.ecc := by
  unfold State.addTo; simp
@[simp] theorem State.addTo_reaches (s : State) (a : Nat) (f : BitField) (v : Nat) : (s.addTo a f v).reaches = s.reaches := by
  unfold State.addTo; simp
@[simp] theorem State.addTo_die (s : State) (a : Nat) (f : BitField) (v : Nat) : (s.addTo a f v).die = s.die := by
  unfold State.addTo; simp
@[simp] theorem State.addTo_cores (s : State) (a : Nat) (f : BitField) (v : Nat) : (s.addTo a f v).cores = s.cores := by
  unfold State.addTo; simp
@[simp] theorem State.addTo_locks (s : State) (a : Nat) (f : BitField) (v : Nat) : (s.addTo a f v).locks = s.locks := by
  unfold State.addTo; simp
@[simp] theorem State.addTo_mesh (s : State) (a : Nat) (f : BitField) (v : Nat) : (s.addTo a f v).mesh = s.mesh := by
  unfold State.addTo; simp
@[simp] theorem State.addTo_holds (s : State) (a : Nat) (f : BitField) (v : Nat) : (s.addTo a f v).holds = s.holds := by
  unfold State.addTo; simp
@[simp] theorem State.addTo_fabric (s : State) (a : Nat) (f : BitField) (v : Nat) : (s.addTo a f v).fabric = s.fabric := by
  unfold State.addTo; simp
@[simp] theorem State.addTo_host (s : State) (a : Nat) (f : BitField) (v : Nat) : (s.addTo a f v).host = s.host := by
  unfold State.addTo; simp
@[simp] theorem State.addTo_engine (s : State) (a : Nat) (f : BitField) (v : Nat) : (s.addTo a f v).engine = s.engine := by
  unfold State.addTo; simp
@[simp] theorem State.addTo_weights (s : State) (a : Nat) (f : BitField) (v : Nat) : (s.addTo a f v).weights = s.weights := by
  unfold State.addTo; simp
@[simp] theorem State.addTo_power (s : State) (a : Nat) (f : BitField) (v : Nat) : (s.addTo a f v).power = s.power := by
  unfold State.addTo; simp
@[simp] theorem State.addTo_toll (s : State) (a : Nat) (f : BitField) (v : Nat) : (s.addTo a f v).toll = s.toll := by
  unfold State.addTo; simp
@[simp] theorem State.addTo_idle (s : State) (a : Nat) (f : BitField) (v : Nat) : (s.addTo a f v).idle = s.idle := by
  unfold State.addTo; simp
@[simp] theorem State.addTo_diag (s : State) (a : Nat) (f : BitField) (v : Nat) : (s.addTo a f v).diag = s.diag := by
  unfold State.addTo; simp
@[simp] theorem State.addTo_ibiOn (s : State) (a : Nat) (f : BitField) (v : Nat) : (s.addTo a f v).ibiOn = s.ibiOn := by
  unfold State.addTo; simp
@[simp] theorem State.addTo_ibis (s : State) (a : Nat) (f : BitField) (v : Nat) : (s.addTo a f v).ibis = s.ibis := by
  unfold State.addTo; simp
@[simp] theorem State.addTo_outs (s : State) (a : Nat) (f : BitField) (v : Nat) : (s.addTo a f v).outs = s.outs := by
  unfold State.addTo; simp
@[simp] theorem State.addTo_pending (s : State) (a : Nat) (f : BitField) (v : Nat) : (s.addTo a f v).pending = s.pending := by
  unfold State.addTo; simp

/-! ### `addSat` -/

@[simp] theorem State.addSat_now (s : State) (a : Nat) (f : BitField) (v : Nat) : (s.addSat a f v).now = s.now := by
  unfold State.addSat; simp
@[simp] theorem State.addSat_free (s : State) (a : Nat) (f : BitField) (v : Nat) : (s.addSat a f v).free = s.free := by
  unfold State.addSat; simp
@[simp] theorem State.addSat_marks (s : State) (a : Nat) (f : BitField) (v : Nat) : (s.addSat a f v).marks = s.marks := by
  unfold State.addSat; simp
@[simp] theorem State.addSat_mem (s : State) (a : Nat) (f : BitField) (v : Nat) : (s.addSat a f v).mem = s.mem := by
  unfold State.addSat; simp
@[simp] theorem State.addSat_ecc (s : State) (a : Nat) (f : BitField) (v : Nat) : (s.addSat a f v).ecc = s.ecc := by
  unfold State.addSat; simp
@[simp] theorem State.addSat_reaches (s : State) (a : Nat) (f : BitField) (v : Nat) : (s.addSat a f v).reaches = s.reaches := by
  unfold State.addSat; simp
@[simp] theorem State.addSat_die (s : State) (a : Nat) (f : BitField) (v : Nat) : (s.addSat a f v).die = s.die := by
  unfold State.addSat; simp
@[simp] theorem State.addSat_cores (s : State) (a : Nat) (f : BitField) (v : Nat) : (s.addSat a f v).cores = s.cores := by
  unfold State.addSat; simp
@[simp] theorem State.addSat_locks (s : State) (a : Nat) (f : BitField) (v : Nat) : (s.addSat a f v).locks = s.locks := by
  unfold State.addSat; simp
@[simp] theorem State.addSat_mesh (s : State) (a : Nat) (f : BitField) (v : Nat) : (s.addSat a f v).mesh = s.mesh := by
  unfold State.addSat; simp
@[simp] theorem State.addSat_holds (s : State) (a : Nat) (f : BitField) (v : Nat) : (s.addSat a f v).holds = s.holds := by
  unfold State.addSat; simp
@[simp] theorem State.addSat_fabric (s : State) (a : Nat) (f : BitField) (v : Nat) : (s.addSat a f v).fabric = s.fabric := by
  unfold State.addSat; simp
@[simp] theorem State.addSat_host (s : State) (a : Nat) (f : BitField) (v : Nat) : (s.addSat a f v).host = s.host := by
  unfold State.addSat; simp
@[simp] theorem State.addSat_engine (s : State) (a : Nat) (f : BitField) (v : Nat) : (s.addSat a f v).engine = s.engine := by
  unfold State.addSat; simp
@[simp] theorem State.addSat_weights (s : State) (a : Nat) (f : BitField) (v : Nat) : (s.addSat a f v).weights = s.weights := by
  unfold State.addSat; simp
@[simp] theorem State.addSat_power (s : State) (a : Nat) (f : BitField) (v : Nat) : (s.addSat a f v).power = s.power := by
  unfold State.addSat; simp
@[simp] theorem State.addSat_toll (s : State) (a : Nat) (f : BitField) (v : Nat) : (s.addSat a f v).toll = s.toll := by
  unfold State.addSat; simp
@[simp] theorem State.addSat_idle (s : State) (a : Nat) (f : BitField) (v : Nat) : (s.addSat a f v).idle = s.idle := by
  unfold State.addSat; simp
@[simp] theorem State.addSat_diag (s : State) (a : Nat) (f : BitField) (v : Nat) : (s.addSat a f v).diag = s.diag := by
  unfold State.addSat; simp
@[simp] theorem State.addSat_ibiOn (s : State) (a : Nat) (f : BitField) (v : Nat) : (s.addSat a f v).ibiOn = s.ibiOn := by
  unfold State.addSat; simp
@[simp] theorem State.addSat_ibis (s : State) (a : Nat) (f : BitField) (v : Nat) : (s.addSat a f v).ibis = s.ibis := by
  unfold State.addSat; simp
@[simp] theorem State.addSat_outs (s : State) (a : Nat) (f : BitField) (v : Nat) : (s.addSat a f v).outs = s.outs := by
  unfold State.addSat; simp
@[simp] theorem State.addSat_pending (s : State) (a : Nat) (f : BitField) (v : Nat) : (s.addSat a f v).pending = s.pending := by
  unfold State.addSat; simp

/-! ### `plainWrite` -/

@[simp] theorem State.plainWrite_now (s : State) (a : Nat) (v : Word) : (s.plainWrite a v).now = s.now := by
  unfold State.plainWrite; split <;> rfl
@[simp] theorem State.plainWrite_free (s : State) (a : Nat) (v : Word) : (s.plainWrite a v).free = s.free := by
  unfold State.plainWrite; split <;> rfl
@[simp] theorem State.plainWrite_mem (s : State) (a : Nat) (v : Word) : (s.plainWrite a v).mem = s.mem := by
  unfold State.plainWrite; split <;> rfl
@[simp] theorem State.plainWrite_ecc (s : State) (a : Nat) (v : Word) : (s.plainWrite a v).ecc = s.ecc := by
  unfold State.plainWrite; split <;> rfl
@[simp] theorem State.plainWrite_reaches (s : State) (a : Nat) (v : Word) : (s.plainWrite a v).reaches = s.reaches := by
  unfold State.plainWrite; split <;> rfl
@[simp] theorem State.plainWrite_die (s : State) (a : Nat) (v : Word) : (s.plainWrite a v).die = s.die := by
  unfold State.plainWrite; split <;> rfl
@[simp] theorem State.plainWrite_cores (s : State) (a : Nat) (v : Word) : (s.plainWrite a v).cores = s.cores := by
  unfold State.plainWrite; split <;> rfl
@[simp] theorem State.plainWrite_locks (s : State) (a : Nat) (v : Word) : (s.plainWrite a v).locks = s.locks := by
  unfold State.plainWrite; split <;> rfl
@[simp] theorem State.plainWrite_mesh (s : State) (a : Nat) (v : Word) : (s.plainWrite a v).mesh = s.mesh := by
  unfold State.plainWrite; split <;> rfl
@[simp] theorem State.plainWrite_holds (s : State) (a : Nat) (v : Word) : (s.plainWrite a v).holds = s.holds := by
  unfold State.plainWrite; split <;> rfl
@[simp] theorem State.plainWrite_fabric (s : State) (a : Nat) (v : Word) : (s.plainWrite a v).fabric = s.fabric := by
  unfold State.plainWrite; split <;> rfl
@[simp] theorem State.plainWrite_host (s : State) (a : Nat) (v : Word) : (s.plainWrite a v).host = s.host := by
  unfold State.plainWrite; split <;> rfl
@[simp] theorem State.plainWrite_engine (s : State) (a : Nat) (v : Word) : (s.plainWrite a v).engine = s.engine := by
  unfold State.plainWrite; split <;> rfl
@[simp] theorem State.plainWrite_weights (s : State) (a : Nat) (v : Word) : (s.plainWrite a v).weights = s.weights := by
  unfold State.plainWrite; split <;> rfl
@[simp] theorem State.plainWrite_power (s : State) (a : Nat) (v : Word) : (s.plainWrite a v).power = s.power := by
  unfold State.plainWrite; split <;> rfl
@[simp] theorem State.plainWrite_toll (s : State) (a : Nat) (v : Word) : (s.plainWrite a v).toll = s.toll := by
  unfold State.plainWrite; split <;> rfl
@[simp] theorem State.plainWrite_idle (s : State) (a : Nat) (v : Word) : (s.plainWrite a v).idle = s.idle := by
  unfold State.plainWrite; split <;> rfl
@[simp] theorem State.plainWrite_diag (s : State) (a : Nat) (v : Word) : (s.plainWrite a v).diag = s.diag := by
  unfold State.plainWrite; split <;> rfl
@[simp] theorem State.plainWrite_ibiOn (s : State) (a : Nat) (v : Word) : (s.plainWrite a v).ibiOn = s.ibiOn := by
  unfold State.plainWrite; split <;> rfl
@[simp] theorem State.plainWrite_ibis (s : State) (a : Nat) (v : Word) : (s.plainWrite a v).ibis = s.ibis := by
  unfold State.plainWrite; split <;> rfl
@[simp] theorem State.plainWrite_outs (s : State) (a : Nat) (v : Word) : (s.plainWrite a v).outs = s.outs := by
  unfold State.plainWrite; split <;> rfl
@[simp] theorem State.plainWrite_pending (s : State) (a : Nat) (v : Word) : (s.plainWrite a v).pending = s.pending := by
  unfold State.plainWrite; split <;> rfl

/-! ### What is read back -/

@[simp] theorem State.reg_setReg_same (s : State) (a : Nat) (w : Word) : (s.setReg a w).reg a = w := by
  simp [State.reg, State.setReg, smFind_put_same]

theorem State.reg_setReg_ne (s : State) {a b : Nat} (w : Word) (h : b ≠ a) : (s.setReg a w).reg b = s.reg b := by
  simp [State.reg, State.setReg, smFind_put_ne _ _ h]

@[simp] theorem State.reg_setMark (s : State) (a b : Nat) (m : Mark) : (s.setMark a m).reg b = s.reg b := rfl

@[simp] theorem State.get_setMark (s : State) (a b : Nat) (m : Mark) (f : BitField) : (s.setMark a m).get b f = s.get b f := rfl

/-- A register is read from the register list alone. -/
theorem State.reg_congr {s t : State} (h : t.regs = s.regs) (a : Nat) : t.reg a = s.reg a := by simp [State.reg, h]

/-- A field is read from the register list alone. -/
theorem State.get_congr {s t : State} (h : t.regs = s.regs) (a : Nat) (f : BitField) : t.get a f = s.get a f := by
  simp [State.get, State.reg_congr h]

@[simp] theorem State.reg_put_same (s : State) (a : Nat) (f : BitField) (v : Nat) : (s.put a f v).reg a = f.set (s.reg a) v := by
  simp [State.put]

theorem State.reg_put_ne (s : State) {a b : Nat} (f : BitField) (v : Nat) (h : b ≠ a) : (s.put a f v).reg b = s.reg b := by
  simp [State.put, State.reg_setReg_ne s _ h]

theorem State.get_put_ne (s : State) {a b : Nat} (f g : BitField) (v : Nat) (h : b ≠ a) : (s.put a f v).get b g = s.get b g := by
  simp [State.get, State.reg_put_ne s f v h]

theorem State.get_setReg_ne (s : State) {a b : Nat} (g : BitField) (w : Word) (h : b ≠ a) : (s.setReg a w).get b g = s.get b g := by
  simp [State.get, State.reg_setReg_ne s w h]

@[simp] theorem State.get_setReg_same (s : State) (a : Nat) (g : BitField) (w : Word) : (s.setReg a w).get a g = g.get w := by
  simp [State.get]

@[simp] theorem State.reach_setReach_same (s : State) (r : Nat) (x : Reach) : (s.setReach r x).reach r = x := by
  simp [State.reach, State.setReach]

theorem State.reach_setReach_ne (s : State) {r q : Nat} (x : Reach) (h : q ≠ r) : (s.setReach r x).reach q = s.reach q := by
  simp [State.reach, State.setReach, smGet_put_ne _ _ _ h]

@[simp] theorem State.core_setCore_same (s : State) (n : Nat) (c : Core) : (s.setCore n c).core n = c := by
  simp [State.core, State.setCore]

theorem State.core_setCore_ne (s : State) {n m : Nat} (c : Core) (h : m ≠ n) : (s.setCore n c).core m = s.core m := by
  simp [State.core, State.setCore, smGet_put_ne _ _ _ h]

@[simp] theorem State.port_setPort_same (s : State) (p : Nat) (x : Port) : (s.setPort p x).port p = x := by
  simp [State.port, State.setPort]

theorem State.port_setPort_ne (s : State) {p q : Nat} (x : Port) (h : q ≠ p) : (s.setPort p x).port q = s.port q := by
  simp [State.port, State.setPort, smGet_put_ne _ _ _ h]

@[simp] theorem State.slot_setSlot_same (s : State) (i : Nat) (x : Slot) : (s.setSlot i x).slot i = x := by
  simp [State.slot, State.setSlot]

theorem State.slot_setSlot_ne (s : State) {i j : Nat} (x : Slot) (h : j ≠ i) : (s.setSlot i x).slot j = s.slot j := by
  simp [State.slot, State.setSlot, smGet_put_ne _ _ _ h]

theorem State.core_congr {s t : State} (h : t.cores = s.cores) (n : Nat) : t.core n = s.core n := by simp [State.core, h]

theorem State.reach_congr {s t : State} (h : t.reaches = s.reaches) (r : Nat) : t.reach r = s.reach r := by
  simp [State.reach, h]

/-! ### Fields of a word -/

theorem BitField.testBit_mask (f : BitField) (i : Nat) :
    f.mask.getLsbD i = (decide (i < 64) && decide (f.lo ≤ i) && decide (i < f.lo + f.width)) := by
  simp only [BitField.mask, BitVec.getLsbD_ofNat, Nat.testBit_shiftLeft, Nat.testBit_two_pow_sub_one]
  by_cases h1 : i < 64 <;> by_cases h2 : f.lo ≤ i <;> (simp [h1, h2]; try omega)

/-- Bits of a word after a field has been set. -/
theorem BitField.getLsbD_set (f : BitField) (w : Word) (v i : Nat) :
    (f.set w v).getLsbD i = if f.lo ≤ i ∧ i < f.lo + f.width then decide (i < 64) && v.testBit (i - f.lo) else w.getLsbD i := by
  simp only [BitField.set, BitVec.getLsbD_or, BitVec.getLsbD_and, BitVec.getLsbD_not, BitField.testBit_mask,
    BitVec.getLsbD_ofNat, Nat.testBit_shiftLeft, Nat.testBit_mod_two_pow]
  by_cases h0 : i < 64
  · by_cases h1 : f.lo ≤ i
    · by_cases h2 : i < f.lo + f.width
      · have : i - f.lo < f.width := by omega
        simp [h0, h1, h2, this]
      · have : ¬ i - f.lo < f.width := by omega
        simp [h0, h1, h2, this]
    · simp [h0, h1]
  · have : w.getLsbD i = false := BitVec.getLsbD_of_ge w i (by omega)
    simp [h0, this]

/-- Bits of a field's value. -/
theorem BitField.testBit_get (f : BitField) (w : Word) (i : Nat) :
    (f.get w).testBit i = (decide (i < f.width) && w.getLsbD (f.lo + i)) := by
  simp [BitField.get, Nat.testBit_mod_two_pow, Nat.testBit_shiftRight, BitVec.testBit_toNat]

/-- A field reads back what was stored in it, cut to its width. -/
theorem BitField.get_set_same (f : BitField) (w : Word) (v : Nat) (h : f.lo + f.width ≤ 64) :
    f.get (f.set w v) = v % 2 ^ f.width := by
  apply Nat.eq_of_testBit_eq
  intro i
  simp only [BitField.testBit_get, BitField.getLsbD_set, Nat.testBit_mod_two_pow]
  by_cases hi : i < f.width
  · have h1 : f.lo ≤ f.lo + i ∧ f.lo + i < f.lo + f.width := by omega
    have h2 : f.lo + i < 64 := by omega
    simp [hi, h1, h2]
  · simp [hi]

/-- A field keeps its value while another that does not meet it is set. -/
theorem BitField.get_set_other (f g : BitField) (w : Word) (v : Nat) (h : f.lo + f.width ≤ g.lo ∨ g.lo + g.width ≤ f.lo) :
    g.get (f.set w v) = g.get w := by
  apply Nat.eq_of_testBit_eq
  intro i
  simp only [BitField.testBit_get, BitField.getLsbD_set]
  by_cases hi : i < g.width
  · have : ¬ (f.lo ≤ g.lo + i ∧ g.lo + i < f.lo + f.width) := by omega
    simp [this]
  · simp [hi]

theorem BitField.get_lt (f : BitField) (w : Word) : f.get w < 2 ^ f.width := Nat.mod_lt _ (Nat.two_pow_pos _)

theorem State.get_put_same (s : State) (a : Nat) (f : BitField) (v : Nat) (h : f.lo + f.width ≤ 64) :
    (s.put a f v).get a f = v % 2 ^ f.width := by simp [State.get, BitField.get_set_same f _ v h]

theorem State.get_put_other (s : State) (a : Nat) (f g : BitField) (v : Nat)
    (h : f.lo + f.width ≤ g.lo ∨ g.lo + g.width ≤ f.lo) : (s.put a f v).get a g = s.get a g := by
  simp [State.get, BitField.get_set_other f g _ v h]

end Sys2Proof.Machine
end

