-- ==== Sys2Proof/Laws/Memory.lean ====
section
/-! SUPPORT. Laws of memory and check bits: what a read finds after a write, what a write leaves alone, and that every write keeps
the canonical form. -/

namespace Sys2Proof.Machine

/-! ### One byte -/

theorem memWf_iff {m : List Host.Cell} : Memory.wf m = true ↔ smSorted m = true ∧ ∀ c ∈ m, c.2 ≠ 0 := by
  simp [Memory.wf]

theorem mem_smPut {α : Type} {m : SMap α} {k : Nat} {v : α} {c : Nat × α} (h : c ∈ smPut m k v) : c = (k, v) ∨ c ∈ m := by
  induction m with
  | nil => simpa [smPut] using h
  | cons e t ih =>
    obtain ⟨j, w⟩ := e
    simp only [smPut] at h
    split at h
    · simpa using h
    · split at h
      · rcases List.mem_cons.mp h with h | h
        · exact .inl h
        · exact .inr (List.mem_cons_of_mem _ h)
      · rcases List.mem_cons.mp h with h | h
        · exact .inr (by simp [h])
        · rcases ih h with h | h
          · exact .inl h
          · exact .inr (List.mem_cons_of_mem _ h)

theorem mem_smDel {α : Type} {m : SMap α} {k : Nat} {c : Nat × α} (h : c ∈ smDel m k) : c ∈ m := by
  induction m with
  | nil => simp [smDel] at h
  | cons e t ih =>
    simp only [smDel] at h
    split at h
    · exact List.mem_cons_of_mem _ h
    · rcases List.mem_cons.mp h with h | h
      · simp [h]
      · exact List.mem_cons_of_mem _ (ih h)

theorem memPut_wf {m : List Host.Cell} (h : Memory.wf m = true) (a : Nat) (b : Byte) : Memory.wf (memPut m a b) = true := by
  rw [memWf_iff] at *
  unfold memPut
  split
  · exact ⟨smSorted_del h.1 a, fun c hc => h.2 c (mem_smDel hc)⟩
  · rename_i hb
    refine ⟨smSorted_put h.1 a b, fun c hc => ?_⟩
    rcases mem_smPut hc with hc | hc
    · simpa [hc] using hb
    · exact h.2 c hc

theorem memPuts_wf {m : List Host.Cell} (h : Memory.wf m = true) (a : Nat) (bs : List Byte) :
    Memory.wf (memPuts m a bs) = true := by
  induction bs generalizing m a with
  | nil => exact h
  | cons b t ih => exact ih (memPut_wf h a b) (a + 1)

theorem memWf_filter {m : List Host.Cell} (h : Memory.wf m = true) (p : Host.Cell → Bool) : Memory.wf (m.filter p) = true := by
  rw [memWf_iff] at *
  exact ⟨smSorted_filter h.1 p, fun c hc => h.2 c (List.mem_filter.mp hc).1⟩

theorem smGet_memPut_same {m : List Host.Cell} (h : smSorted m = true) (a : Nat) (b : Byte) : smGet 0 (memPut m a b) a = b := by
  unfold memPut
  split
  · rename_i hb; simp [smGet, smFind_del_same h, hb]
  · simp

theorem smGet_memPut_ne (m : List Host.Cell) {a k : Nat} (b : Byte) (h : k ≠ a) : smGet 0 (memPut m a b) k = smGet 0 m k := by
  unfold memPut
  split
  · simp [smGet, smFind_del_ne _ h]
  · exact smGet_put_ne _ _ _ h

theorem smGet_memPuts_out (m : List Host.Cell) (a : Nat) (bs : List Byte) {k : Nat} (h : k < a ∨ a + bs.length ≤ k) :
    smGet 0 (memPuts m a bs) k = smGet 0 m k := by
  induction bs generalizing m a with
  | nil => rfl
  | cons b t ih =>
    simp only [List.length_cons] at h
    rw [memPuts, ih _ _ (by omega), smGet_memPut_ne _ _ (by omega)]

theorem smGet_memPuts_in {m : List Host.Cell} (h : Memory.wf m = true) (a : Nat) (bs : List Byte) {i : Nat} (hi : i < bs.length) :
    smGet 0 (memPuts m a bs) (a + i) = bs[i] := by
  induction bs generalizing m a i with
  | nil => simp at hi
  | cons b t ih =>
    cases i with
    | zero =>
      rw [memPuts, smGet_memPuts_out _ _ _ (by omega)]
      exact smGet_memPut_same (memWf_iff.mp h).1 a b
    | succ j =>
      have := ih (memPut_wf h a b) (a + 1) (i := j) (by simpa using hi)
      rw [memPuts, show a + (j + 1) = a + 1 + j by omega, this]
      rfl

/-! ### Check bits -/

theorem eccPut_sorted {e : SMap (BitVec 10)} (h : smSorted e = true) (la : Nat) (m : BitVec 10) :
    smSorted (eccPut e la m) = true := by
  unfold eccPut
  split
  · exact smSorted_del h la
  · exact smSorted_put h la m

theorem eccPuts_sorted {e : SMap (BitVec 10)} (h : smSorted e = true) (la n : Nat) (m : BitVec 10) :
    smSorted (eccPuts e la n m) = true := by
  induction n generalizing e la with
  | zero => exact h
  | succ n ih => exact ih (eccPut_sorted h la m) (la + 32)

theorem smGet_eccPut_same {e : SMap (BitVec 10)} (h : smSorted e = true) (la : Nat) (m : BitVec 10) :
    smGet 0 (eccPut e la m) la = m := by
  unfold eccPut
  split
  · rename_i hm; simp [smGet, smFind_del_same h, hm]
  · simp

theorem smGet_eccPut_ne (e : SMap (BitVec 10)) {la k : Nat} (m : BitVec 10) (h : k ≠ la) :
    smGet 0 (eccPut e la m) k = smGet 0 e k := by
  unfold eccPut
  split
  · simp [smGet, smFind_del_ne _ h]
  · exact smGet_put_ne _ _ _ h

theorem smGet_eccPuts_out (e : SMap (BitVec 10)) (la n : Nat) (m : BitVec 10) {k : Nat} (h : k < la ∨ la + 32 * n ≤ k) :
    smGet 0 (eccPuts e la n m) k = smGet 0 e k := by
  induction n generalizing e la with
  | zero => rfl
  | succ n ih => rw [eccPuts, ih _ _ (by omega), smGet_eccPut_ne _ _ (by omega)]

theorem smGet_eccPuts_in {e : SMap (BitVec 10)} (h : smSorted e = true) (la n : Nat) (m : BitVec 10) {i : Nat} (hi : i < n) :
    smGet 0 (eccPuts e la n m) (la + 32 * i) = m := by
  induction n generalizing e la i with
  | zero => omega
  | succ n ih =>
    cases i with
    | zero =>
      rw [eccPuts, smGet_eccPuts_out _ _ _ _ (by omega)]
      exact smGet_eccPut_same h la m
    | succ j =>
      rw [eccPuts, show la + 32 * (j + 1) = la + 32 + 32 * j by omega]
      exact ih (eccPut_sorted h la m) (la + 32) (by omega)

/-- A line with no difference in its check bits is read as stored. -/
@[simp] theorem eccFlip_zero (i : Nat) : eccFlip 0 i = 0 := by simp [eccFlip, lineStat, parity]

/-! ### Reads and writes of the state -/

theorem State.byte_congr {s t : State} (hm : t.mem = s.mem) (he : t.ecc = s.ecc) (a : Nat) : t.byte a = s.byte a := by
  simp [State.byte, State.eccOf, hm, he]

theorem State.bytes_congr {s t : State} (hm : t.mem = s.mem) (he : t.ecc = s.ecc) (a n : Nat) : t.bytes a n = s.bytes a n := by
  induction n generalizing a with
  | zero => rfl
  | succ n ih => simp [State.bytes, ih, State.byte_congr hm he]

@[simp] theorem State.writeMem_regs (s : State) (a : Nat) (bs : List Byte) (p : Bool) : (s.writeMem a bs p).regs = s.regs := rfl
@[simp] theorem State.writeMem_cores (s : State) (a : Nat) (bs : List Byte) (p : Bool) : (s.writeMem a bs p).cores = s.cores := rfl
@[simp] theorem State.writeMem_now (s : State) (a : Nat) (bs : List Byte) (p : Bool) : (s.writeMem a bs p).now = s.now := rfl
@[simp] theorem State.writeMem_pending (s : State) (a : Nat) (bs : List Byte) (p : Bool) :
    (s.writeMem a bs p).pending = s.pending := rfl

theorem State.wf_iff {s : State} : s.wf = true ↔ smSorted s.regs = true ∧ Memory.wf s.mem = true ∧ smSorted s.ecc = true := by
  simp [State.wf, and_assoc]

theorem State.writeMem_wf {s : State} (h : s.wf = true) (a : Nat) (bs : List Byte) (p : Bool) : (s.writeMem a bs p).wf = true := by
  rw [State.wf_iff] at *
  exact ⟨h.1, memPuts_wf h.2.1 a bs, eccPuts_sorted h.2.2 _ _ _⟩

theorem State.setReg_wf {s : State} (h : s.wf = true) (a : Nat) (w : Word) : (s.setReg a w).wf = true := by
  rw [State.wf_iff] at *
  exact ⟨smSorted_put h.1 a w, h.2⟩

/-- Lines that a write does not touch read as before. -/
theorem State.byte_writeMem_out (s : State) (a : Nat) (bs : List Byte) (p : Bool) {k : Nat}
    (h : lineOf k < lineOf a ∨ a + bs.length ≤ lineOf k) : (s.writeMem a bs p).byte k = s.byte k := by
  have hk : lineOf k ≤ k := by simp only [lineOf]; omega
  have hk2 : k < lineOf k + 32 := by simp only [lineOf]; omega
  have ha : lineOf a ≤ a := by simp only [lineOf]; omega
  have hdk : lineOf k % 32 = 0 := by simp [lineOf]
  have hda : lineOf a % 32 = 0 := by simp [lineOf]
  have he : smGet 0 (eccPuts s.ecc (lineOf a) (linesIn a bs.length) (if p then 3 else 0)) (lineOf k) = smGet 0 s.ecc (lineOf k) := by
    apply smGet_eccPuts_out
    rcases h with h | h
    · exact .inl h
    · right
      unfold linesIn
      split
      · omega
      · simp only [lineOf] at *; omega
  have hm : smGet 0 (memPuts s.mem a bs) k = smGet 0 s.mem k := by
    apply smGet_memPuts_out
    rcases h with h | h
    · left; omega
    · right; omega
  unfold State.byte State.eccOf State.writeMem
  rw [he, hm]

/-- What has been written is read back. -/
theorem State.byte_writeMem_in {s : State} (h : s.wf = true) (a : Nat) (bs : List Byte) {i : Nat} (hi : i < bs.length) :
    (s.writeMem a bs false).byte (a + i) = bs[i] := by
  obtain ⟨-, hm, he⟩ := State.wf_iff.mp h
  have hl : ∃ j, j < linesIn a bs.length ∧ lineOf (a + i) = lineOf a + 32 * j := by
    refine ⟨(a + i) / 32 - a / 32, ?_, ?_⟩
    · unfold linesIn; split <;> omega
    · simp only [lineOf]; omega
  obtain ⟨j, hj, hl⟩ := hl
  unfold State.byte State.eccOf State.writeMem
  simp only [Bool.false_eq_true, if_false]
  rw [smGet_memPuts_in hm a bs hi, hl, smGet_eccPuts_in he _ _ _ hj, eccFlip_zero]
  exact BitVec.xor_zero

end Sys2Proof.Machine
end

