-- ==== Sys2Proof/Laws/Changes.lean ====
section
/-! SUPPORT. What an operation may change: a state reached from another differs from it in the named parts alone, keeps the
canonical form, and its time has not run back. One lemma of this form for each operation of the machine says everything the operation
can touch; the lemmas of a sequence, a choice and a fold compose them. -/

namespace Sys2Proof.Machine

/-- `t` comes from `s` by a change of the parts `ps` alone, with the canonical form kept and time not run back. -/
structure Changes (ps : List Part) (s t : State) : Prop where
  only : Only ps s t
  wf   : s.wf = true → t.wf = true
  now_le : s.now ≤ t.now

/-- Every part of `L` is among `ps`. -/
def partsIn (L ps : List Part) : Bool := L.all ps.contains

theorem Part.same_refl (s : State) (p : Part) : p.same s s := by cases p <;> first | rfl | exact ⟨rfl, rfl⟩

theorem Part.same_trans {s t u : State} {p : Part} (h : p.same s t) (k : p.same t u) : p.same s u := by
  cases p <;> first | exact Eq.trans k h | exact ⟨k.1.trans h.1, k.2.trans h.2⟩

theorem Changes.refl (ps : List Part) (s : State) : Changes ps s s := ⟨fun p _ => p.same_refl s, id, Nat.le_refl _⟩

theorem Changes.trans {ps : List Part} {s t u : State} (h : Changes ps s t) (k : Changes ps t u) : Changes ps s u :=
  ⟨fun p hp => Part.same_trans (h.only p hp) (k.only p hp), fun w => k.wf (h.wf w), Nat.le_trans h.now_le k.now_le⟩

theorem Changes.widen {L ps : List Part} {s t : State} (h : Changes L s t) (hs : partsIn L ps = true) : Changes ps s t := by
  refine ⟨fun p hp => h.only p ?_, h.wf, h.now_le⟩
  rw [Bool.eq_false_iff] at hp ⊢
  intro hl
  exact hp (List.all_eq_true.mp hs p (List.contains_iff_mem.mp hl))

theorem partsIn_trans {A L ps : List Part} (h : partsIn A L = true) (k : partsIn L ps = true) : partsIn A ps = true := by
  simp only [partsIn, List.all_eq_true, List.contains_iff_mem] at *
  exact fun p hp => k p (h p hp)

/-- One more operation after a sequence of them. -/
theorem Changes.step {L ps : List Part} {s t u : State} (h : Changes ps s t) (k : Changes L t u) (hs : partsIn L ps = true) :
    Changes ps s u := h.trans (k.widen hs)

theorem Changes.ite {ps : List Part} {s t u : State} {c : Prop} [Decidable c] (h : Changes ps s t) (k : Changes ps s u) :
    Changes ps s (if c then t else u) := by split <;> assumption

/-- An operation done only if a condition holds. -/
theorem Changes.iteThen {ps : List Part} {s t u : State} {c : Prop} [Decidable c] (h : Changes ps s t) (k : Changes ps t u) :
    Changes ps s (if c then u else t) := by
  split
  · exact h.trans k
  · exact h

/-- An operation done unless a condition holds. -/
theorem Changes.iteElse {ps : List Part} {s t u : State} {c : Prop} [Decidable c] (h : Changes ps s t) (k : Changes ps t u) :
    Changes ps s (if c then t else u) := by
  split
  · exact h
  · exact h.trans k

theorem Changes.iteFst {α : Type} {ps : List Part} {s : State} {c : Prop} [Decidable c] {x y : State × α}
    (h : Changes ps s x.1) (k : Changes ps s y.1) : Changes ps s (if c then x else y).1 := by split <;> assumption

theorem Changes.foldl {α : Type} {ps : List Part} {s t : State} {l : List α} {f : State → α → State}
    (h : Changes ps s t) (k : ∀ u x, Changes ps u (f u x)) : Changes ps s (l.foldl f t) := by
  induction l generalizing t with
  | nil => exact h
  | cons x l ih => exact ih (h.trans (k t x))

theorem Changes.foldlFst {α β : Type} {ps : List Part} {s : State} {l : List α} {f : State × β → α → State × β} {a : State × β}
    (h : Changes ps s a.1) (k : ∀ u b x, Changes ps u (f (u, b) x).1) : Changes ps s (l.foldl f a).1 := by
  induction l generalizing a with
  | nil => exact h
  | cons x l ih => exact ih (h.trans (k a.1 a.2 x))

/-- The first part of a pair that an operation has answered. -/
theorem Changes.ofPair {α : Type} {ps : List Part} {s t : State} {x : State × α} {b : α} (e : x = (t, b))
    (h : Changes ps s x.1) : Changes ps s t := by subst e; exact h

theorem Changes.mkFst {α : Type} {ps : List Part} {s t : State} {b : α} (h : Changes ps s t) : Changes ps s (t, b).1 := h

/-- A replacement of parts other than time, registers, memory and check bits. -/
theorem Changes.record {ps : List Part} {s t : State} {free reaches die cores locks mesh holds fabric host engine weights power toll
    idle diag ibiOn ibis outs pending} (h : Changes ps s t)
    (hs : ∀ p, ps.contains p = true ∨ p.same t (State.mk t.now free t.regs t.marks t.mem t.ecc reaches die cores locks mesh holds fabric
      host engine weights power toll idle diag ibiOn ibis outs pending)) :
    Changes ps s (State.mk t.now free t.regs t.marks t.mem t.ecc reaches die cores locks mesh holds fabric host engine weights power toll
      idle diag ibiOn ibis outs pending) := by
  refine h.trans ⟨fun p hp => ?_, fun w => ?_, Nat.le_refl _⟩
  · rcases hs p with h | h
    · exact absurd (h.symm.trans hp) (by decide)
    · exact h
  · rw [State.wf_iff] at w ⊢
    exact w

theorem Changes.now {ps : List Part} {s t : State} (h : Changes ps s t) (hp : ps.contains .now = false := by rfl) :
    t.now = s.now := h.only .now hp

theorem Changes.free {ps : List Part} {s t : State} (h : Changes ps s t) (hp : ps.contains .free = false := by rfl) :
    t.free = s.free := h.only .free hp

theorem Changes.regs {ps : List Part} {s t : State} (h : Changes ps s t) (hp : ps.contains .regs = false := by rfl) :
    t.regs = s.regs := (h.only .regs hp).1

theorem Changes.marks {ps : List Part} {s t : State} (h : Changes ps s t) (hp : ps.contains .regs = false := by rfl) :
    t.marks = s.marks := (h.only .regs hp).2

theorem Changes.mem {ps : List Part} {s t : State} (h : Changes ps s t) (hp : ps.contains .mem = false := by rfl) :
    t.mem = s.mem := h.only .mem hp

theorem Changes.ecc {ps : List Part} {s t : State} (h : Changes ps s t) (hp : ps.contains .ecc = false := by rfl) :
    t.ecc = s.ecc := h.only .ecc hp

theorem Changes.reaches {ps : List Part} {s t : State} (h : Changes ps s t) (hp : ps.contains .reaches = false := by rfl) :
    t.reaches = s.reaches := h.only .reaches hp

theorem Changes.die {ps : List Part} {s t : State} (h : Changes ps s t) (hp : ps.contains .die = false := by rfl) :
    t.die = s.die := h.only .die hp

theorem Changes.cores {ps : List Part} {s t : State} (h : Changes ps s t) (hp : ps.contains .cores = false := by rfl) :
    t.cores = s.cores := h.only .cores hp

theorem Changes.locks {ps : List Part} {s t : State} (h : Changes ps s t) (hp : ps.contains .locks = false := by rfl) :
    t.locks = s.locks := h.only .locks hp

theorem Changes.mesh {ps : List Part} {s t : State} (h : Changes ps s t) (hp : ps.contains .mesh = false := by rfl) :
    t.mesh = s.mesh := h.only .mesh hp

theorem Changes.holds {ps : List Part} {s t : State} (h : Changes ps s t) (hp : ps.contains .holds = false := by rfl) :
    t.holds = s.holds := h.only .holds hp

theorem Changes.fabric {ps : List Part} {s t : State} (h : Changes ps s t) (hp : ps.contains .fabric = false := by rfl) :
    t.fabric = s.fabric := h.only .fabric hp

theorem Changes.host {ps : List Part} {s t : State} (h : Changes ps s t) (hp : ps.contains .host = false := by rfl) :
    t.host = s.host := h.only .host hp

theorem Changes.engine {ps : List Part} {s t : State} (h : Changes ps s t) (hp : ps.contains .engine = false := by rfl) :
    t.engine = s.engine := h.only .engine hp

theorem Changes.weights {ps : List Part} {s t : State} (h : Changes ps s t) (hp : ps.contains .weights = false := by rfl) :
    t.weights = s.weights := h.only .weights hp

theorem Changes.power {ps : List Part} {s t : State} (h : Changes ps s t) (hp : ps.contains .power = false := by rfl) :
    t.power = s.power := h.only .power hp

theorem Changes.toll {ps : List Part} {s t : State} (h : Changes ps s t) (hp : ps.contains .toll = false := by rfl) :
    t.toll = s.toll := h.only .toll hp

theorem Changes.idle {ps : List Part} {s t : State} (h : Changes ps s t) (hp : ps.contains .idle = false := by rfl) :
    t.idle = s.idle := h.only .idle hp

theorem Changes.diag {ps : List Part} {s t : State} (h : Changes ps s t) (hp : ps.contains .diag = false := by rfl) :
    t.diag = s.diag := h.only .diag hp

theorem Changes.ibiOn {ps : List Part} {s t : State} (h : Changes ps s t) (hp : ps.contains .ibiOn = false := by rfl) :
    t.ibiOn = s.ibiOn := h.only .ibiOn hp

theorem Changes.ibis {ps : List Part} {s t : State} (h : Changes ps s t) (hp : ps.contains .ibis = false := by rfl) :
    t.ibis = s.ibis := h.only .ibis hp

theorem Changes.outs {ps : List Part} {s t : State} (h : Changes ps s t) (hp : ps.contains .outs = false := by rfl) :
    t.outs = s.outs := h.only .outs hp

theorem Changes.pending {ps : List Part} {s t : State} (h : Changes ps s t) (hp : ps.contains .pending = false := by rfl) :
    t.pending = s.pending := h.only .pending hp

/-- An outcome is a next state, reached by a change of the parts `ps` alone. -/
def OutChanges (ps : List Part) (s : State) (o : Host.Outcome State Fault Refusal) : Prop := ∃ t, o = .next t ∧ Changes ps s t

theorem OutChanges.next {ps : List Part} {s t : State} (h : Changes ps s t) : OutChanges ps s (.next t) := ⟨t, rfl, h⟩

theorem OutChanges.ite {ps : List Part} {s : State} {c : Prop} [Decidable c] {x y : Host.Outcome State Fault Refusal}
    (h : OutChanges ps s x) (k : OutChanges ps s y) : OutChanges ps s (if c then x else y) := by split <;> assumption

theorem OutChanges.widen {L ps : List Part} {s : State} {o : Host.Outcome State Fault Refusal} (h : OutChanges L s o)
    (hs : partsIn L ps = true) : OutChanges ps s o := by
  obtain ⟨t, e, k⟩ := h
  exact ⟨t, e, k.widen hs⟩

end Sys2Proof.Machine
end

