-- ==== Sys2Proof/Laws/ChangesCore.lean ====
section
/-! SUPPORT. What each operation may change: the shared operations, pacing, the units of a core, the mesh and transfers, and the holds. -/

namespace Sys2Proof.Machine

/-! ### Ops -/

theorem State.setReg_changes (s : State) (a : Nat) (w : Word) : Changes [.regs] s (s.setReg a w) :=
  ⟨fun p hp => by cases p <;> first | rfl | exact ⟨rfl, rfl⟩ | exact absurd hp (by decide), fun h => State.setReg_wf h a w, Nat.le_refl _⟩

theorem State.put_changes (s : State) (a : Nat) (f : BitField) (v : Nat) :
    Changes [.regs] s (s.put a f v) := by
  unfold State.put
  refine Changes.step ?_ (State.setReg_changes _ _ _) rfl
  exact Changes.refl _ _

theorem State.setMark_changes (s : State) (a : Nat) (m : Mark) : Changes [.regs] s (s.setMark a m) :=
  ⟨fun p hp => by cases p <;> first | rfl | exact ⟨rfl, rfl⟩ | exact absurd hp (by decide), id, Nat.le_refl _⟩

theorem State.unmarked_changes (s : State) : Changes [.regs] s s.unmarked :=
  ⟨fun p hp => by cases p <;> first | rfl | exact ⟨rfl, rfl⟩ | exact absurd hp (by decide), id, Nat.le_refl _⟩

theorem State.hwPut_changes (s : State) (a : Nat) (f : BitField) (v : Nat) :
    Changes [.regs] s (s.hwPut a f v) := by
  unfold State.hwPut
  refine Changes.ite ?_ ?_
  · exact Changes.refl _ _
  · refine Changes.step ?_ (State.put_changes _ _ _ _) rfl
    exact Changes.refl _ _

theorem State.hwSet_changes (s : State) (a : Nat) (f : BitField) (v : Nat) :
    Changes [.regs] s (s.hwSet a f v) := by
  unfold State.hwSet
  dsimp only
  refine Changes.step ?_ (State.setMark_changes _ _ _) rfl
  refine Changes.step ?_ (State.put_changes _ _ _ _) rfl
  exact Changes.refl _ _

theorem State.addTo_changes (s : State) (a : Nat) (f : BitField) (n : Nat) :
    Changes [.regs] s (s.addTo a f n) := by
  unfold State.addTo
  refine Changes.step ?_ (State.hwPut_changes _ _ _ _) rfl
  exact Changes.refl _ _

theorem State.addSat_changes (s : State) (a : Nat) (f : BitField) (n : Nat) :
    Changes [.regs] s (s.addSat a f n) := by
  unfold State.addSat
  refine Changes.step ?_ (State.hwPut_changes _ _ _ _) rfl
  exact Changes.refl _ _

theorem State.setBit_changes (s : State) (a : Nat) (f : BitField) (i : Nat) :
    Changes [.regs] s (s.setBit a f i) := by
  unfold State.setBit
  refine Changes.step ?_ (State.put_changes _ _ _ _) rfl
  exact Changes.refl _ _

theorem State.resetReg_changes (s : State) (a : Nat) : Changes [.regs] s (s.resetReg a) := by
  refine ⟨fun p hp => by cases p <;> first | rfl | exact ⟨rfl, rfl⟩ | exact absurd hp (by decide), fun h => ?_, Nat.le_refl _⟩
  rw [State.wf_iff] at *
  exact ⟨smSorted_del h.1 a, h.2⟩

theorem State.writeBits_changes (s : State) (a : Nat) (r : RegRow) (part v : Word) :
    Changes [.regs] s (s.writeBits a r part v) := by
  unfold State.writeBits
  dsimp only
  refine Changes.step ?_ (State.setMark_changes _ _ _) rfl
  refine Changes.step ?_ (State.setReg_changes _ _ _) rfl
  exact Changes.refl _ _

theorem State.plainWrite_changes (s : State) (a : Nat) (v : Word) :
    Changes [.regs] s (s.plainWrite a v) := by
  unfold State.plainWrite
  split
  · refine Changes.step ?_ (State.writeBits_changes _ _ _ _ _) rfl
    exact Changes.refl _ _
  · exact Changes.refl _ _

theorem State.setReach_changes (s : State) (r : Nat) (x : Reach) :
    Changes [.reaches] s (s.setReach r x) := by
  unfold State.setReach
  refine Changes.record ?_ (by intro p; cases p <;> first | exact .inl rfl | exact .inr ⟨rfl, rfl⟩ | exact .inr (by dsimp only [Part.same]))
  exact Changes.refl _ _

theorem State.setCore_changes (s : State) (n : Nat) (c : Core) :
    Changes [.cores] s (s.setCore n c) := by
  unfold State.setCore
  refine Changes.record ?_ (by intro p; cases p <;> first | exact .inl rfl | exact .inr ⟨rfl, rfl⟩ | exact .inr (by dsimp only [Part.same]))
  exact Changes.refl _ _

theorem State.setPort_changes (s : State) (p : Nat) (x : Port) :
    Changes [.fabric] s (s.setPort p x) := by
  unfold State.setPort
  refine Changes.record ?_ (by intro p; cases p <;> first | exact .inl rfl | exact .inr ⟨rfl, rfl⟩ | exact .inr (by dsimp only [Part.same]))
  exact Changes.refl _ _

theorem State.setSlot_changes (s : State) (i : Nat) (x : Slot) :
    Changes [.locks] s (s.setSlot i x) := by
  unfold State.setSlot
  refine Changes.record ?_ (by intro p; cases p <;> first | exact .inl rfl | exact .inr ⟨rfl, rfl⟩ | exact .inr (by dsimp only [Part.same]))
  exact Changes.refl _ _

theorem State.emit_changes (s : State) (o : Output) :
    Changes [.outs] s (s.emit o) := by
  unfold State.emit
  refine Changes.record ?_ (by intro p; cases p <;> first | exact .inl rfl | exact .inr ⟨rfl, rfl⟩ | exact .inr (by dsimp only [Part.same]))
  exact Changes.refl _ _

theorem State.countCause_changes (s : State) (g : Nat) :
    Changes [.regs] s (s.countCause g) := by
  unfold State.countCause
  refine Changes.ite ?_ ?_
  · refine Changes.step ?_ (State.addSat_changes _ _ _ _) rfl
    exact Changes.refl _ _
  · refine Changes.ite ?_ ?_
    · refine Changes.step ?_ (State.addSat_changes _ _ _ _) rfl
      exact Changes.refl _ _
    · refine Changes.ite ?_ ?_
      · refine Changes.step ?_ (State.addSat_changes _ _ _ _) rfl
        exact Changes.refl _ _
      · exact Changes.refl _ _

theorem State.holdOn_changes (s : State) (h : HoldReq) :
    Changes [.regs, .die] s (s.holdOn h) := by
  unfold State.holdOn
  refine Changes.ite ?_ ?_
  · exact Changes.refl _ _
  · dsimp only
    refine Changes.record ?_ (by intro p; cases p <;> first | exact .inl rfl | exact .inr ⟨rfl, rfl⟩ | exact .inr (by dsimp only [Part.same]))
    refine Changes.ite ?_ ?_
    · exact Changes.refl _ _
    · refine Changes.step ?_ (State.countCause_changes _ _) rfl
      exact Changes.refl _ _

theorem State.countHolds_changes (s : State) :
    Changes [.regs, .die] s (s.countHolds) := by
  unfold State.countHolds
  refine Changes.foldl ?_ (fun _ _ => ?_)
  · exact Changes.refl _ _
  · dsimp only
    refine Changes.ite ?_ ?_
    · exact Changes.refl _ _
    · refine Changes.record ?_ (by intro p; cases p <;> first | exact .inl rfl | exact .inr ⟨rfl, rfl⟩ | exact .inr (by dsimp only [Part.same]))
      refine Changes.step ?_ (State.countCause_changes _ _) rfl
      exact Changes.refl _ _

theorem State.holdOff_changes (s : State) (p : HoldReq → Bool) :
    Changes [.die] s (s.holdOff p) := by
  unfold State.holdOff
  dsimp only
  refine Changes.record ?_ (by intro p; cases p <;> first | exact .inl rfl | exact .inr ⟨rfl, rfl⟩ | exact .inr (by dsimp only [Part.same]))
  exact Changes.refl _ _

theorem State.fabricTime_changes (s : State) (d : Nat) :
    Changes [.regs, .fabric] s (s.fabricTime d) := by
  unfold State.fabricTime
  dsimp only
  refine Changes.record ?_ (by intro p; cases p <;> first | exact .inl rfl | exact .inr ⟨rfl, rfl⟩ | exact .inr (by dsimp only [Part.same]))
  refine Changes.step ?_ (State.put_changes _ _ _ _) rfl
  exact Changes.refl _ _

/-- Time moves on by one replacement of `now` with a later time. -/
theorem Changes.laterNow {ps : List Part} {s t : State} (h : Changes ps s t) (hp : ps.contains .now = true) {n : Nat} (hn : t.now ≤ n) :
    Changes ps s { t with now := n } := by
  refine h.trans ⟨fun p hq => ?_, fun w => w, hn⟩
  cases p <;> first | rfl | exact ⟨rfl, rfl⟩ | exact absurd (hp.symm.trans hq) (by decide)

theorem State.advanceTo_changes (s : State) (t : Nat) : Changes [.now, .regs, .die, .fabric] s (s.advanceTo t) := by
  unfold State.advanceTo
  split
  · exact Changes.refl _ _
  · rename_i ht
    extract_lets d s1 die1 s2 only die2 s3 s4
    have h1 : Changes [.now, .regs, .die, .fabric] s s1 := (State.fabricTime_changes s d).widen rfl
    have h3 : Changes [.now, .regs, .die, .fabric] s s3 := by
      refine Changes.ite ?_ ?_
      · exact Changes.record h1 (by intro p; cases p <;> first | exact .inl rfl | exact .inr rfl)
      · refine Changes.ite ?_ h1
        refine Changes.record ?_ (by intro p; cases p <;> first | exact .inl rfl | exact .inr rfl)
        exact h1.step (State.addTo_changes _ _ _ _) rfl
    have h4 : Changes [.now, .regs, .die, .fabric] s s4 := h3.iteThen ((State.addTo_changes _ _ _ _).widen rfl)
    have hn : s4.now = s.now := by
      have e1 : s1.now = s.now := (State.fabricTime_changes s d).now
      have e3 : s3.now = s1.now := by
        simp only [s3]
        split
        · rfl
        · split <;> simp [s2]
      have e4 : s4.now = s3.now := by simp only [s4]; split <;> simp
      rw [e4, e3, e1]
    exact h4.laterNow rfl (by omega)

theorem State.drawn_changes (s : State) :
    Changes [.free] s (s.drawn) := by
  unfold State.drawn
  refine Changes.record ?_ (by intro p; cases p <;> first | exact .inl rfl | exact .inr ⟨rfl, rfl⟩ | exact .inr (by dsimp only [Part.same]))
  exact Changes.refl _ _

theorem State.atWork_changes (s : State) :
    Changes [.idle] s (s.atWork) := by
  unfold State.atWork
  refine Changes.record ?_ (by intro p; cases p <;> first | exact .inl rfl | exact .inr ⟨rfl, rfl⟩ | exact .inr (by dsimp only [Part.same]))
  exact Changes.refl _ _

theorem State.wakeOn_changes (s : State) (cause : Nat) :
    Changes [.regs, .idle] s (s.wakeOn cause) := by
  unfold State.wakeOn
  dsimp only
  refine Changes.iteElse ?_ ?_
  · refine Changes.record ?_ (by intro p; cases p <;> first | exact .inl rfl | exact .inr ⟨rfl, rfl⟩ | exact .inr (by dsimp only [Part.same]))
    refine Changes.ite ?_ ?_
    · refine Changes.step ?_ (State.atWork_changes _) rfl
      exact Changes.refl _ _
    · exact Changes.refl _ _
  · refine Changes.record ?_ (by intro p; cases p <;> first | exact .inl rfl | exact .inr ⟨rfl, rfl⟩ | exact .inr (by dsimp only [Part.same]))
    refine Changes.step ?_ (State.put_changes _ _ _ _) rfl
    exact Changes.refl _ _

theorem State.capture_changes (s : State) (src code b : Nat) :
    Changes [.regs, .diag, .outs] s (s.capture src code b) := by
  unfold State.capture
  refine Changes.ite ?_ ?_
  · exact Changes.refl _ _
  · split
    · refine Changes.step ?_ (State.addSat_changes _ _ _ _) rfl
      exact Changes.refl _ _
    · dsimp only
      refine Changes.record ?_ (by intro p; cases p <;> first | exact .inl rfl | exact .inr ⟨rfl, rfl⟩ | exact .inr (by dsimp only [Part.same]))
      refine Changes.ite ?_ ?_
      · refine Changes.step ?_ (State.emit_changes _ _) rfl
        exact Changes.refl _ _
      · exact Changes.refl _ _

theorem State.queueTrigger_changes (s : State) (src code at_ : Nat) :
    Changes [.regs, .idle, .diag] s (s.queueTrigger src code at_) := by
  unfold State.queueTrigger
  dsimp only
  refine Changes.record ?_ (by intro p; cases p <;> first | exact .inl rfl | exact .inr ⟨rfl, rfl⟩ | exact .inr (by dsimp only [Part.same]))
  refine Changes.ite ?_ ?_
  · refine Changes.step ?_ (State.wakeOn_changes _ _) rfl
    exact Changes.refl _ _
  · exact Changes.refl _ _

theorem State.trigger_changes (s : State) (src code b : Nat) :
    Changes [.regs, .idle, .diag, .outs] s (s.trigger src code b) := by
  unfold State.trigger
  refine Changes.ite ?_ ?_
  · refine Changes.step ?_ (State.queueTrigger_changes _ _ _ _) rfl
    exact Changes.refl _ _
  · refine Changes.step ?_ (State.capture_changes _ _ _ _) rfl
    exact Changes.refl _ _

theorem State.writeErrSlot_changes (s : State) (i : Nat) (e : ErrRec) :
    Changes [.regs] s (s.writeErrSlot i e) := by
  unfold State.writeErrSlot
  refine Changes.step ?_ (State.setReg_changes _ _ _) rfl
  refine Changes.step ?_ (State.setReg_changes _ _ _) rfl
  refine Changes.step ?_ (State.setReg_changes _ _ _) rfl
  refine Changes.step ?_ (State.setReg_changes _ _ _) rfl
  exact Changes.refl _ _

theorem State.writeBurst_changes (s : State) (i : Nat) (l : List ErrRec) : Changes [.regs] s (s.writeBurst i l) := by
  induction l generalizing s i with
  | nil => exact Changes.refl _ _
  | cons e t ih => exact ((Changes.refl _ s).step (State.writeErrSlot_changes _ _ _) rfl).trans (ih _ _)

theorem State.holdEvent_changes (s : State) (chip : Nat) (e : ErrRec) :
    Changes [.regs, .diag] s (s.holdEvent chip e) := by
  unfold State.holdEvent
  refine Changes.ite ?_ ?_
  · refine Changes.step ?_ (State.addSat_changes _ _ _ _) rfl
    exact Changes.refl _ _
  · refine Changes.record ?_ (by intro p; cases p <;> first | exact .inl rfl | exact .inr ⟨rfl, rfl⟩ | exact .inr (by dsimp only [Part.same]))
    exact Changes.refl _ _

theorem State.writeErr_changes (s : State) (e : Err) :
    Changes [.regs, .diag, .ibis] s (s.writeErr e) := by
  unfold State.writeErr
  dsimp only
  refine Changes.iteThen ?_ ?_
  · refine Changes.iteThen ?_ ?_
    · refine Changes.step ?_ (State.hwSet_changes _ _ _ _) rfl
      refine Changes.step ?_ (State.addTo_changes _ _ _ _) rfl
      refine Changes.step ?_ (State.put_changes _ _ _ _) rfl
      refine Changes.step ?_ (State.writeBurst_changes _ _ _) rfl
      refine Changes.record ?_ (by intro p; cases p <;> first | exact .inl rfl | exact .inr ⟨rfl, rfl⟩ | exact .inr (by dsimp only [Part.same]))
      exact Changes.refl _ _
    · refine Changes.step ?_ (State.holdEvent_changes _ _ _) rfl
      exact Changes.refl _ _
  · refine Changes.record ?_ (by intro p; cases p <;> first | exact .inl rfl | exact .inr ⟨rfl, rfl⟩ | exact .inr (by dsimp only [Part.same]))
    exact Changes.refl _ _

theorem State.logLocal_changes (s : State) (e : Err) :
    Changes [.regs, .idle, .diag, .ibis, .outs] s (s.logLocal e) := by
  unfold State.logLocal
  dsimp only
  refine Changes.step ?_ (State.trigger_changes _ _ _ _) rfl
  refine Changes.ite ?_ ?_
  · refine Changes.step ?_ (State.addSat_changes _ _ _ _) rfl
    exact Changes.refl _ _
  · refine Changes.step ?_ (State.writeErr_changes _ _) rfl
    exact Changes.refl _ _

theorem State.noteInj_changes (s : State) (node : Nat) (p : MeshPort) (t : Nat) :
    Changes [.mesh] s (s.noteInj node p t) := by
  unfold State.noteInj
  dsimp only
  refine Changes.record ?_ (by intro p; cases p <;> first | exact .inl rfl | exact .inr ⟨rfl, rfl⟩ | exact .inr (by dsimp only [Part.same]))
  exact Changes.refl _ _

theorem State.addFlit_changes (s : State) (f : Flit) :
    Changes [.mesh] s (s.addFlit f) := by
  unfold State.addFlit
  refine Changes.record ?_ (by intro p; cases p <;> first | exact .inl rfl | exact .inr ⟨rfl, rfl⟩ | exact .inr (by dsimp only [Part.same]))
  exact Changes.refl _ _

theorem State.takeWidth_changes (s : State) (node : Nat) (p : MeshPort) (d : Nat) :
    Changes [.mesh] s (s.takeWidth node p d).1 := by
  unfold State.takeWidth
  dsimp only
  refine Changes.iteFst ?_ ?_
  · refine Changes.mkFst ?_
    exact Changes.refl _ _
  · refine Changes.mkFst ?_
    refine Changes.step ?_ (State.noteInj_changes _ _ _ _) rfl
    exact Changes.refl _ _

theorem State.launch_changes (s : State) (node : Nat) (p : MeshPort) (src d : Nat) (b : Barge) :
    Changes [.regs, .mesh, .idle, .outs] s (s.launch node p src d b) := by
  unfold State.launch
  split
  refine Changes.step ?_ (State.addFlit_changes _ _) rfl
  refine Changes.ofPair (by assumption) ?_
  refine Changes.step ?_ (State.takeWidth_changes _ _ _ _) rfl
  refine Changes.step ?_ (State.wakeOn_changes _ _) rfl
  exact Changes.refl _ _

theorem State.atExit_changes (s : State) (p at_ : Nat) (b : Barge) :
    Changes [.fabric] s (s.atExit p at_ b) := by
  unfold State.atExit
  dsimp only
  refine Changes.step ?_ (State.setPort_changes _ _ _) rfl
  exact Changes.refl _ _

theorem State.sendFwd_changes (s : State) (chip : Nat) (b : Barge) :
    Changes [.regs, .mesh, .idle, .diag, .ibis, .outs] s (s.sendFwd chip b) := by
  unfold State.sendFwd
  split
  · refine Changes.step ?_ (State.launch_changes _ _ _ _ _ _) rfl
    exact Changes.refl _ _
  · refine Changes.step ?_ (State.logLocal_changes _ _) rfl
    exact Changes.refl _ _

theorem State.forwardErr_changes (s : State) (chip : Nat) (r : ErrRec) :
    Changes [.regs, .mesh, .idle, .diag, .ibis, .outs] s (s.forwardErr chip r) := by
  unfold State.forwardErr
  refine Changes.foldl ?_ (fun _ _ => ?_)
  · exact Changes.refl _ _
  · refine Changes.step ?_ (State.sendFwd_changes _ _ _) rfl
    exact Changes.refl _ _

theorem State.logErr_changes (s : State) (e : Err) :
    Changes [.regs, .mesh, .idle, .diag, .ibis, .outs] s (s.logErr e) := by
  unfold State.logErr
  dsimp only
  refine Changes.iteThen ?_ ?_
  · refine Changes.step ?_ (State.logLocal_changes _ _) rfl
    exact Changes.refl _ _
  · refine Changes.step ?_ (State.forwardErr_changes _ _ _) rfl
    exact Changes.refl _ _

theorem State.logCore_changes (s : State) (n code : Nat) (aux : Nat) (info : Nat) (tag : Option Nat) :
    Changes [.regs, .mesh, .idle, .diag, .ibis, .outs] s (s.logCore n code aux info tag) := by
  unfold State.logCore
  refine Changes.step ?_ (State.logErr_changes _ _) rfl
  exact Changes.refl _ _

theorem State.sendFrom_changes (s : State) (node : Nat) (p : MeshPort) (src chip : Nat) (b : Barge) :
    Changes [.regs, .mesh, .idle, .diag, .ibis, .outs] s (s.sendFrom node p src chip b) := by
  unfold State.sendFrom
  split
  · refine Changes.step ?_ (State.launch_changes _ _ _ _ _ _) rfl
    exact Changes.refl _ _
  · refine Changes.step ?_ (State.logErr_changes _ _) rfl
    exact Changes.refl _ _

theorem State.sendOut_changes (s : State) (chip : Nat) (b : Barge) :
    Changes [.regs, .mesh, .idle, .diag, .ibis, .outs] s (s.sendOut chip b) := by
  unfold State.sendOut
  refine Changes.step ?_ (State.sendFrom_changes _ _ _ _ _ _) rfl
  exact Changes.refl _ _

theorem State.sendReg_changes (s : State) (chip addr : Nat) (v : Word) (op status : Nat) :
    Changes [.regs, .mesh, .idle, .diag, .ibis, .outs] s (s.sendReg chip addr v op status) := by
  unfold State.sendReg
  refine Changes.step ?_ (State.sendOut_changes _ _ _) rfl
  exact Changes.refl _ _

theorem State.answerReg_changes (s : State) (b : Barge) (status : Nat) (v : Word) :
    Changes [.regs, .mesh, .idle, .diag, .ibis, .outs] s (s.answerReg b status v) := by
  unfold State.answerReg
  dsimp only
  refine Changes.ite ?_ ?_
  · exact Changes.refl _ _
  · refine Changes.step ?_ (State.sendFrom_changes _ _ _ _ _ _) rfl
    exact Changes.refl _ _

theorem State.answer_changes (s : State) (k : Asker) (status : Nat) (v : Word) :
    Changes [.regs, .mesh, .host, .toll, .idle, .diag, .ibis, .outs] s (s.answer k status v) := by
  unfold State.answer
  split
  · exact Changes.refl _ _
  · refine Changes.ite ?_ ?_
    · refine Changes.record ?_ (by intro p; cases p <;> first | exact .inl rfl | exact .inr ⟨rfl, rfl⟩ | exact .inr (by dsimp only [Part.same]))
      exact Changes.refl _ _
    · exact Changes.refl _ _
  · dsimp only
    refine Changes.record ?_ (by intro p; cases p <;> first | exact .inl rfl | exact .inr ⟨rfl, rfl⟩ | exact .inr (by dsimp only [Part.same]))
    exact Changes.refl _ _
  · refine Changes.step ?_ (State.answerReg_changes _ _ _ _) rfl
    exact Changes.refl _ _

theorem State.writeMem_changes (s : State) (a : Nat) (bs : List Byte) (poison : Bool) :
    Changes [.mem, .ecc] s (s.writeMem a bs poison) :=
  ⟨fun p hp => by cases p <;> first | rfl | exact ⟨rfl, rfl⟩ | exact absurd hp (by decide), fun h => State.writeMem_wf h a bs poison, Nat.le_refl _⟩

theorem State.countEcc_changes (s : State) (la : Nat) (ue : Bool) :
    Changes [.regs] s (s.countEcc la ue) := by
  unfold State.countEcc
  split
  · dsimp only
    refine Changes.ite ?_ ?_
    · refine Changes.step ?_ (State.put_changes _ _ _ _) rfl
      refine Changes.step ?_ (State.hwSet_changes _ _ _ _) rfl
      refine Changes.step ?_ (State.addSat_changes _ _ _ _) rfl
      exact Changes.refl _ _
    · refine Changes.iteElse ?_ ?_
      · refine Changes.step ?_ (State.addSat_changes _ _ _ _) rfl
        exact Changes.refl _ _
      · refine Changes.step ?_ (State.put_changes _ _ _ _) rfl
        exact Changes.refl _ _
  · exact Changes.refl _ _
  · dsimp only
    refine Changes.ite ?_ ?_
    · refine Changes.iteElse ?_ ?_
      · refine Changes.step ?_ (State.hwSet_changes _ _ _ _) rfl
        exact Changes.refl _ _
      · refine Changes.step ?_ (State.put_changes _ _ _ _) rfl
        refine Changes.step ?_ (State.put_changes _ _ _ _) rfl
        exact Changes.refl _ _
    · split
      · refine Changes.step ?_ (State.addSat_changes _ _ _ _) rfl
        exact Changes.refl _ _
      · refine Changes.step ?_ (State.addSat_changes _ _ _ _) rfl
        exact Changes.refl _ _
      · refine Changes.step ?_ (State.addSat_changes _ _ _ _) rfl
        exact Changes.refl _ _
      · refine Changes.step ?_ (State.addSat_changes _ _ _ _) rfl
        exact Changes.refl _ _

theorem State.noteLines_changes (s : State) (ls : List (Nat × Bool)) (core tag : Option Nat) (logged : List Nat) :
    Changes [.regs, .mesh, .idle, .diag, .ibis, .outs] s (s.noteLines ls core tag logged).1 := by
  unfold State.noteLines
  refine Changes.foldlFst ?_ (fun _ _ _ => ?_)
  · refine Changes.mkFst ?_
    exact Changes.refl _ _
  · dsimp only
    refine Changes.iteFst ?_ ?_
    · refine Changes.mkFst ?_
      refine Changes.iteThen ?_ ?_
      · refine Changes.step ?_ (State.countEcc_changes _ _ _) rfl
        exact Changes.refl _ _
      · refine Changes.step ?_ (State.put_changes _ _ _ _) rfl
        exact Changes.refl _ _
    · refine Changes.mkFst ?_
      refine Changes.step ?_ (State.logErr_changes _ _) rfl
      refine Changes.iteThen ?_ ?_
      · refine Changes.step ?_ (State.countEcc_changes _ _ _) rfl
        exact Changes.refl _ _
      · refine Changes.step ?_ (State.put_changes _ _ _ _) rfl
        exact Changes.refl _ _

theorem State.mergeLine_changes (s : State) (la mask val : Nat) (poison : Bool) :
    Changes [.mem, .ecc] s (s.mergeLine la mask val poison) := by
  unfold State.mergeLine
  dsimp only
  refine Changes.step ?_ (State.writeMem_changes _ _ _ _) rfl
  exact Changes.refl _ _

theorem State.lineWrite_changes (s : State) (rank la mask val : Nat) (poison : Bool) :
    Changes [.mem, .ecc, .cores] s (s.lineWrite rank la mask val poison) := by
  unfold State.lineWrite
  refine Changes.ite ?_ ?_
  · dsimp only
    refine Changes.step ?_ (State.setCore_changes _ _ _) rfl
    exact Changes.refl _ _
  · refine Changes.step ?_ (State.mergeLine_changes _ _ _ _ _) rfl
    exact Changes.refl _ _

theorem State.flushWrites_changes (s : State) (n : Nat) :
    Changes [.mem, .ecc, .cores] s (s.flushWrites n) := by
  unfold State.flushWrites
  dsimp only
  refine Changes.ite ?_ ?_
  · exact Changes.refl _ _
  · refine Changes.foldl ?_ (fun _ _ => ?_)
    · refine Changes.step ?_ (State.setCore_changes _ _ _) rfl
      exact Changes.refl _ _
    · refine Changes.step ?_ (State.mergeLine_changes _ _ _ _ _) rfl
      exact Changes.refl _ _

theorem State.storeBytes_changes (s : State) (rank a : Nat) (bs : List Byte) :
    Changes [.mem, .ecc, .cores] s (s.storeBytes rank a bs) := by
  unfold State.storeBytes
  refine Changes.step ?_ (State.lineWrite_changes _ _ _ _ _ _) rfl
  exact Changes.refl _ _

theorem State.writeNarrow_changes (s : State) (a : Nat) (bs : List Byte) :
    Changes [.mem, .ecc] s (s.writeNarrow a bs) := by
  unfold State.writeNarrow
  refine Changes.step ?_ (State.mergeLine_changes _ _ _ _ _) rfl
  exact Changes.refl _ _

theorem State.noteStore_changes (s : State) (a len : Nat) (core : Option Nat) :
    Changes [.regs, .mesh, .idle, .diag, .ibis, .outs] s (s.noteStore a len core) := by
  unfold State.noteStore
  refine Changes.ite ?_ ?_
  · exact Changes.refl _ _
  · refine Changes.step ?_ (State.noteLines_changes _ _ _ _ _) rfl
    exact Changes.refl _ _

theorem State.wakeForHold_changes (s : State) :
    Changes [.regs, .idle] s (s.wakeForHold) := by
  unfold State.wakeForHold
  refine Changes.step ?_ (State.wakeOn_changes _ _) rfl
  exact Changes.refl _ _

theorem State.writeAny_changes (s : State) (a : Nat) (bs : List Byte) :
    Changes [.regs, .mem, .ecc, .cores, .mesh, .idle, .diag, .ibis, .outs] s (s.writeAny a bs) := by
  unfold State.writeAny
  refine Changes.foldl ?_ (fun _ _ => ?_)
  · exact Changes.refl _ _
  · dsimp only
    refine Changes.ite ?_ ?_
    · refine Changes.step ?_ (State.writeMem_changes _ _ _ _) rfl
      exact Changes.refl _ _
    · refine Changes.step ?_ (State.writeNarrow_changes _ _ _) rfl
      exact Changes.refl _ _

/-! ### Pacing -/

theorem State.setTarget_changes (s : State) (r t : Nat) :
    Changes [.regs] s (s.setTarget r t) := by
  unfold State.setTarget
  dsimp only
  refine Changes.iteThen ?_ ?_
  · refine Changes.step ?_ (State.put_changes _ _ _ _) rfl
    exact Changes.refl _ _
  · refine Changes.step ?_ (State.put_changes _ _ _ _) rfl
    exact Changes.refl _ _

theorem State.requestOp_changes (s : State) (r t : Nat) :
    Changes [.regs, .mesh, .idle, .diag, .ibis, .outs] s (s.requestOp r t) := by
  unfold State.requestOp
  refine Changes.ite ?_ ?_
  · refine Changes.step ?_ (State.logErr_changes _ _) rfl
    exact Changes.refl _ _
  · refine Changes.step ?_ (State.setTarget_changes _ _ _) rfl
    exact Changes.refl _ _

theorem State.writeOpsel_changes (s : State) (r : Nat) (v : Word) :
    Changes [.regs, .mesh, .idle, .diag, .ibis, .outs] s (s.writeOpsel r v) := by
  unfold State.writeOpsel
  dsimp only
  refine Changes.step ?_ (State.requestOp_changes _ _ _) rfl
  refine Changes.iteThen ?_ ?_
  · refine Changes.ite ?_ ?_
    · refine Changes.step ?_ (State.put_changes _ _ _ _) rfl
      exact Changes.refl _ _
    · exact Changes.refl _ _
  · refine Changes.step ?_ (State.setMark_changes _ _ _) rfl
    exact Changes.refl _ _

theorem State.writeVaneThresh_changes (s : State) (v : Word) :
    Changes [.regs, .mesh, .idle, .diag, .ibis, .outs] s (s.writeVaneThresh v) := by
  unfold State.writeVaneThresh
  refine Changes.ite ?_ ?_
  · refine Changes.step ?_ (State.logErr_changes _ _) rfl
    exact Changes.refl _ _
  · refine Changes.step ?_ (State.plainWrite_changes _ _ _) rfl
    exact Changes.refl _ _

theorem State.restartBeats_changes (s : State) :
    Changes [.regs, .reaches] s (s.restartBeats) := by
  unfold State.restartBeats
  dsimp only
  refine Changes.step ?_ (State.put_changes _ _ _ _) rfl
  refine Changes.foldl ?_ (fun _ _ => ?_)
  · refine Changes.step ?_ (State.unmarked_changes _) rfl
    exact Changes.refl _ _
  · refine Changes.step ?_ (State.setReach_changes _ _ _) rfl
    exact Changes.refl _ _

theorem State.tick_changes (s : State) (r : Nat) :
    Changes [.now, .regs, .reaches, .die, .fabric] s (s.tick r) := by
  unfold State.tick
  dsimp only
  refine Changes.ite ?_ ?_
  · exact Changes.refl _ _
  · refine Changes.step ?_ (State.setReach_changes _ _ _) rfl
    refine Changes.step ?_ (State.advanceTo_changes _ _) rfl
    exact Changes.refl _ _

theorem execPacerTick_changes (r : Fin 16) (s : State) :
    OutChanges [.now, .regs, .reaches, .die, .fabric] s (execPacerTick r s) := by
  unfold execPacerTick
  refine OutChanges.next ?_
  refine Changes.step ?_ (State.tick_changes _ _) rfl
  exact Changes.refl _ _

theorem State.windowEnd_changes (s : State) (r : Nat) :
    Changes [.regs, .reaches, .mesh, .idle, .diag, .ibis, .outs] s (s.windowEnd r) := by
  unfold State.windowEnd
  dsimp only
  split
  · refine Changes.ite ?_ ?_
    · refine Changes.step ?_ (State.setReach_changes _ _ _) rfl
      refine Changes.foldl ?_ (fun _ _ => ?_)
      · exact Changes.refl _ _
      · refine Changes.step ?_ (State.put_changes _ _ _ _) rfl
        exact Changes.refl _ _
    · refine Changes.step ?_ (State.logErr_changes _ _) rfl
      refine Changes.step ?_ (State.setReach_changes _ _ _) rfl
      refine Changes.foldl ?_ (fun _ _ => ?_)
      · exact Changes.refl _ _
      · refine Changes.step ?_ (State.put_changes _ _ _ _) rfl
        exact Changes.refl _ _
  · refine Changes.step ?_ (State.setReach_changes _ _ _) rfl
    refine Changes.foldl ?_ (fun _ _ => ?_)
    · exact Changes.refl _ _
    · refine Changes.step ?_ (State.put_changes _ _ _ _) rfl
      exact Changes.refl _ _

theorem execVaneWindowEnd_changes (r : Fin 16) (s : State) :
    OutChanges [.regs, .reaches, .mesh, .idle, .diag, .ibis, .outs] s (execVaneWindowEnd r s) := by
  unfold execVaneWindowEnd
  refine OutChanges.ite ?_ ?_
  · refine OutChanges.next ?_
    refine Changes.step ?_ (State.windowEnd_changes _ _) rfl
    exact Changes.refl _ _
  · refine OutChanges.next ?_
    exact Changes.refl _ _

theorem State.measure_changes (s : State) (r : Nat) (codes : List Byte) :
    Changes [.regs, .reaches, .mesh, .idle, .diag, .ibis, .outs] s (s.measure r codes) := by
  unfold State.measure
  dsimp only
  refine Changes.step ?_ (State.setReach_changes _ _ _) rfl
  refine Changes.ite ?_ ?_
  · refine Changes.step ?_ (State.windowEnd_changes _ _) rfl
    exact Changes.refl _ _
  · exact Changes.refl _ _

theorem State.vaneCritical_changes (s : State) (r : Nat) :
    Changes [.regs, .reaches, .mesh, .idle, .diag, .ibis, .outs] s (s.vaneCritical r) := by
  unfold State.vaneCritical
  dsimp only
  split
  · exact Changes.refl _ _
  · refine Changes.ite ?_ ?_
    · exact Changes.refl _ _
    · refine Changes.iteThen ?_ ?_
      · refine Changes.step ?_ (State.logErr_changes _ _) rfl
        refine Changes.step ?_ (State.setReach_changes _ _ _) rfl
        exact Changes.refl _ _
      · refine Changes.ite ?_ ?_
        · exact Changes.refl _ _
        · refine Changes.step ?_ (State.setTarget_changes _ _ _) rfl
          refine Changes.step ?_ (State.put_changes _ _ _ _) rfl
          refine Changes.step ?_ (State.setReach_changes _ _ _) rfl
          exact Changes.refl _ _

theorem execVaneCritical_changes (r : Fin 16) (s : State) :
    OutChanges [.regs, .reaches, .mesh, .idle, .diag, .ibis, .outs] s (execVaneCritical r s) := by
  unfold execVaneCritical
  refine OutChanges.next ?_
  refine Changes.step ?_ (State.vaneCritical_changes _ _) rfl
  exact Changes.refl _ _

theorem execVaneThreshWrite_changes (v : Word) (s : State) :
    OutChanges [.regs, .mesh, .idle, .diag, .ibis, .outs] s (execVaneThreshWrite v s) := by
  unfold execVaneThreshWrite
  refine OutChanges.next ?_
  refine Changes.step ?_ (State.writeVaneThresh_changes _ _) rfl
  exact Changes.refl _ _

theorem execTargetOpWrite_changes (r : Fin 16) (v : Word) (s : State) :
    OutChanges [.regs, .mesh, .idle, .diag, .ibis, .outs] s (execTargetOpWrite r v s) := by
  unfold execTargetOpWrite
  refine OutChanges.next ?_
  refine Changes.step ?_ (State.writeOpsel_changes _ _ _) rfl
  exact Changes.refl _ _

theorem State.enterStop_changes (s : State) (r : Fin 16) :
    Changes [.regs, .reaches, .die] s (s.enterStop r) := by
  unfold State.enterStop
  dsimp only
  refine Changes.iteThen ?_ ?_
  · refine Changes.step ?_ (State.setReach_changes _ _ _) rfl
    exact Changes.refl _ _
  · refine Changes.step ?_ (State.holdOn_changes _ _) rfl
    exact Changes.refl _ _

theorem State.retuneStop_changes (s : State) :
    Changes [.regs, .reaches, .die] s (s.retuneStop) := by
  unfold State.retuneStop
  dsimp only
  refine Changes.ite ?_ ?_
  · exact Changes.refl _ _
  · refine Changes.foldl ?_ (fun _ _ => ?_)
    · refine Changes.ite ?_ ?_
      · refine Changes.step ?_ (State.addSat_changes _ _ _ _) rfl
        exact Changes.refl _ _
      · exact Changes.refl _ _
    · refine Changes.step ?_ (State.enterStop_changes _ _) rfl
      exact Changes.refl _ _

theorem execRetuneStop_changes (s : State) :
    OutChanges [.regs, .reaches, .die] s (execRetuneStop s) := by
  unfold execRetuneStop
  refine OutChanges.next ?_
  refine Changes.step ?_ (State.retuneStop_changes _) rfl
  exact Changes.refl _ _

theorem execRegulatorSettled_changes (r : Fin 16) (s : State) :
    OutChanges [.regs, .reaches, .die] s (execRegulatorSettled r s) := by
  unfold execRegulatorSettled
  dsimp only
  split
  · refine OutChanges.next ?_
    refine Changes.step ?_ (State.setReach_changes _ _ _) rfl
    exact Changes.refl _ _
  · refine OutChanges.next ?_
    refine Changes.iteThen ?_ ?_
    · refine Changes.iteThen ?_ ?_
      · refine Changes.step ?_ (State.setReach_changes _ _ _) rfl
        exact Changes.refl _ _
      · refine Changes.step ?_ (State.addSat_changes _ _ _ _) rfl
        exact Changes.refl _ _
    · refine Changes.step ?_ (State.holdOn_changes _ _) rfl
      exact Changes.refl _ _
  · refine OutChanges.next ?_
    exact Changes.refl _ _

theorem State.capFollows_changes (s : State) (r p : Nat) (byVane : Bool) :
    Changes [.regs, .reaches] s (s.capFollows r p byVane) := by
  unfold State.capFollows
  refine Changes.ite ?_ ?_
  · exact Changes.refl _ _
  · dsimp only
    refine Changes.step ?_ (State.setReach_changes _ _ _) rfl
    refine Changes.ite ?_ ?_
    · refine Changes.step ?_ (State.hwPut_changes _ _ _ _) rfl
      exact Changes.refl _ _
    · exact Changes.refl _ _

theorem State.retuneDone_changes (s : State) (r : Fin 16) :
    Changes [.regs, .reaches, .die] s (s.retuneDone r) := by
  unfold State.retuneDone
  dsimp only
  refine Changes.step ?_ (State.holdOff_changes _ _) rfl
  refine Changes.step ?_ (State.capFollows_changes _ _ _ _) rfl
  refine Changes.step ?_ (State.setReach_changes _ _ _) rfl
  refine Changes.step ?_ (State.put_changes _ _ _ _) rfl
  refine Changes.iteElse ?_ ?_
  · refine Changes.step ?_ (State.addTo_changes _ _ _ _) rfl
    refine Changes.step ?_ (State.put_changes _ _ _ _) rfl
    exact Changes.refl _ _
  · refine Changes.step ?_ (State.put_changes _ _ _ _) rfl
    exact Changes.refl _ _

theorem execRetuneComplete_changes (r : Fin 16) (s : State) :
    OutChanges [.regs, .reaches, .die] s (execRetuneComplete r s) := by
  unfold execRetuneComplete
  split
  · refine OutChanges.next ?_
    refine Changes.step ?_ (State.retuneDone_changes _ _) rfl
    exact Changes.refl _ _
  · refine OutChanges.next ?_
    refine Changes.step ?_ (State.retuneDone_changes _ _) rfl
    exact Changes.refl _ _
  · refine OutChanges.next ?_
    exact Changes.refl _ _

theorem execSettleTimeout_changes (r : Fin 16) (s : State) :
    OutChanges [.now, .regs, .reaches, .die, .mesh, .fabric, .idle, .diag, .ibis, .outs] s (execSettleTimeout r s) := by
  unfold execSettleTimeout
  dsimp only
  refine OutChanges.ite ?_ ?_
  · refine OutChanges.next ?_
    exact Changes.refl _ _
  · refine OutChanges.next ?_
    refine Changes.step ?_ (State.holdOff_changes _ _) rfl
    refine Changes.step ?_ (State.logErr_changes _ _) rfl
    refine Changes.step ?_ (State.setReach_changes _ _ _) rfl
    refine Changes.step ?_ (State.hwSet_changes _ _ _ _) rfl
    refine Changes.step ?_ (State.put_changes _ _ _ _) rfl
    refine Changes.step ?_ (State.advanceTo_changes _ _) rfl
    exact Changes.refl _ _

theorem execSecondStopTimeout_changes (r : Fin 16) (s : State) :
    OutChanges [.now, .regs, .reaches, .die, .mesh, .fabric, .idle, .diag, .ibis, .outs] s (execSecondStopTimeout r s) := by
  unfold execSecondStopTimeout
  dsimp only
  refine OutChanges.ite ?_ ?_
  · refine OutChanges.next ?_
    exact Changes.refl _ _
  · refine OutChanges.next ?_
    refine Changes.step ?_ (State.logErr_changes _ _) rfl
    refine Changes.step ?_ (State.setReach_changes _ _ _) rfl
    refine Changes.step ?_ (State.put_changes _ _ _ _) rfl
    refine Changes.step ?_ (State.hwPut_changes _ _ _ _) rfl
    refine Changes.step ?_ (State.advanceTo_changes _ _) rfl
    exact Changes.refl _ _

/-! ### CoreOps -/

theorem State.refresh_changes (s : State) (n : Nat) :
    Changes [.regs] s (s.refresh n) := by
  unfold State.refresh
  dsimp only
  refine Changes.step ?_ (State.put_changes _ _ _ _) rfl
  refine Changes.step ?_ (State.put_changes _ _ _ _) rfl
  refine Changes.step ?_ (State.put_changes _ _ _ _) rfl
  refine Changes.step ?_ (State.put_changes _ _ _ _) rfl
  refine Changes.step ?_ (State.put_changes _ _ _ _) rfl
  refine Changes.step ?_ (State.put_changes _ _ _ _) rfl
  refine Changes.step ?_ (State.put_changes _ _ _ _) rfl
  exact Changes.refl _ _

theorem State.faultCore_changes (s : State) (n code : Nat) :
    Changes [.regs, .die, .cores] s (s.faultCore n code) := by
  unfold State.faultCore
  dsimp only
  refine Changes.ite ?_ ?_
  · refine Changes.step ?_ (State.refresh_changes _ _) rfl
    refine Changes.step ?_ (State.holdOff_changes _ _) rfl
    refine Changes.step ?_ (State.setCore_changes _ _ _) rfl
    refine Changes.step ?_ (State.put_changes _ _ _ _) rfl
    refine Changes.step ?_ (State.put_changes _ _ _ _) rfl
    exact Changes.refl _ _
  · exact Changes.refl _ _

theorem State.failCore_changes (s : State) (n code : Nat) (aux : Nat) (info : Nat) (tag : Option Nat) :
    Changes [.regs, .die, .cores, .mesh, .idle, .diag, .ibis, .outs] s (s.failCore n code aux info tag) := by
  unfold State.failCore
  refine Changes.step ?_ (State.faultCore_changes _ _ _) rfl
  refine Changes.step ?_ (State.logCore_changes _ _ _ _ _ _) rfl
  exact Changes.refl _ _

theorem State.queueErr_changes (s : State) (n q code : Nat) (tag : Option Nat) :
    Changes [.regs, .mesh, .idle, .diag, .ibis, .outs] s (s.queueErr n q code tag) := by
  unfold State.queueErr
  refine Changes.step ?_ (State.logCore_changes _ _ _ _ _ _) rfl
  refine Changes.step ?_ (State.hwSet_changes _ _ _ _) rfl
  exact Changes.refl _ _

theorem State.pushNow_changes (s : State) (n q : Nat) (e : List Byte) (beat : Nat) :
    Changes [.regs, .cores] s (s.pushNow n q e beat) := by
  unfold State.pushNow
  dsimp only
  refine Changes.step ?_ (State.refresh_changes _ _) rfl
  refine Changes.step ?_ (State.setCore_changes _ _ _) rfl
  exact Changes.refl _ _

theorem State.push_changes (s : State) (n q : Nat) (e : List Byte) :
    Changes [.regs, .cores] s (s.push n q e) := by
  unfold State.push
  dsimp only
  refine Changes.ite ?_ ?_
  · refine Changes.step ?_ (State.pushNow_changes _ _ _ _ _) rfl
    exact Changes.refl _ _
  · refine Changes.step ?_ (State.setCore_changes _ _ _) rfl
    exact Changes.refl _ _

theorem State.latePushes_changes (s : State) (n : Nat) (ended : Bool) :
    Changes [.regs, .die, .cores, .mesh, .idle, .diag, .ibis, .outs] s (s.latePushes n ended) := by
  unfold State.latePushes
  dsimp only
  refine Changes.foldl ?_ (fun _ _ => ?_)
  · refine Changes.ite ?_ ?_
    · exact Changes.refl _ _
    · refine Changes.step ?_ (State.setCore_changes _ _ _) rfl
      exact Changes.refl _ _
  · refine Changes.ite ?_ ?_
    · refine Changes.step ?_ (State.pushNow_changes _ _ _ _ _) rfl
      exact Changes.refl _ _
    · refine Changes.ite ?_ ?_
      · refine Changes.step ?_ (State.faultCore_changes _ _ _) rfl
        refine Changes.step ?_ (State.queueErr_changes _ _ _ _ _) rfl
        exact Changes.refl _ _
      · refine Changes.step ?_ (State.setCore_changes _ _ _) rfl
        exact Changes.refl _ _

theorem State.pop_changes (s : State) (n q : Nat) :
    Changes [.regs, .die, .cores, .mesh, .idle, .diag, .ibis, .outs] s (s.pop n q) := by
  unfold State.pop
  dsimp only
  refine Changes.step ?_ (State.latePushes_changes _ _ _) rfl
  refine Changes.step ?_ (State.refresh_changes _ _) rfl
  refine Changes.step ?_ (State.setCore_changes _ _ _) rfl
  exact Changes.refl _ _

theorem State.recordLock_changes (s : State) (code core issuer index n : Nat) :
    Changes [.regs] s (s.recordLock code core issuer index n) := by
  unfold State.recordLock
  dsimp only
  refine Changes.ite ?_ ?_
  · refine Changes.step ?_ (State.hwSet_changes _ _ _ _) rfl
    exact Changes.refl _ _
  · refine Changes.step ?_ (State.hwSet_changes _ _ _ _) rfl
    refine Changes.step ?_ (State.setReg_changes _ _ _) rfl
    exact Changes.refl _ _

theorem State.lockErr_changes (s : State) (code core issuer index n : Nat) :
    Changes [.regs, .mesh, .idle, .diag, .ibis, .outs] s (s.lockErr code core issuer index n) := by
  unfold State.lockErr
  refine Changes.step ?_ (State.logCore_changes _ _ _ _ _ _) rfl
  refine Changes.step ?_ (State.recordLock_changes _ _ _ _ _ _) rfl
  exact Changes.refl _ _

theorem State.signal_changes (s : State) (n i k src issuer : Nat) :
    Changes [.cores] s (s.signal n i k src issuer) := by
  unfold State.signal
  refine Changes.ite ?_ ?_
  · exact Changes.refl _ _
  · dsimp only
    refine Changes.step ?_ (State.setCore_changes _ _ _) rfl
    exact Changes.refl _ _

theorem State.serve_changes (s : State) (n i k : Nat) :
    Changes [.regs, .cores] s (s.serve n i k) := by
  unfold State.serve
  dsimp only
  refine Changes.step ?_ (State.setCore_changes _ _ _) rfl
  refine Changes.step ?_ (State.put_changes _ _ _ _) rfl
  exact Changes.refl _ _

theorem State.foldCtr_changes (s : State) (n i : Nat) (l : List Sig) :
    Changes [.regs, .mesh, .idle, .diag, .ibis, .outs] s (s.foldCtr n i l) := by
  unfold State.foldCtr
  dsimp only
  refine Changes.iteThen ?_ ?_
  · refine Changes.iteThen ?_ ?_
    · refine Changes.step ?_ (State.put_changes _ _ _ _) rfl
      refine Changes.step ?_ (State.addTo_changes _ _ _ _) rfl
      exact Changes.refl _ _
    · refine Changes.step ?_ (State.lockErr_changes _ _ _ _ _ _) rfl
      refine Changes.step ?_ (State.hwSet_changes _ _ _ _) rfl
      exact Changes.refl _ _
  · refine Changes.step ?_ (State.trigger_changes _ _ _ _) rfl
    exact Changes.refl _ _

theorem State.foldSigs_changes (s : State) (n : Nat) :
    Changes [.regs, .cores, .mesh, .idle, .diag, .ibis, .outs] s (s.foldSigs n) := by
  unfold State.foldSigs
  dsimp only
  refine Changes.foldl ?_ (fun _ _ => ?_)
  · refine Changes.ite ?_ ?_
    · exact Changes.refl _ _
    · refine Changes.step ?_ (State.setCore_changes _ _ _) rfl
      exact Changes.refl _ _
  · refine Changes.ite ?_ ?_
    · exact Changes.refl _ _
    · refine Changes.step ?_ (State.foldCtr_changes _ _ _ _) rfl
      exact Changes.refl _ _

theorem State.signalTo_changes (s : State) (n target i k issuer : Nat) :
    Changes [.cores, .locks] s (s.signalTo n target i k issuer) := by
  unfold State.signalTo
  refine Changes.ite ?_ ?_
  · exact Changes.refl _ _
  · refine Changes.ite ?_ ?_
    · refine Changes.step ?_ (State.signal_changes _ _ _ _ _ _) rfl
      exact Changes.refl _ _
    · dsimp only
      refine Changes.record ?_ (by intro p; cases p <;> first | exact .inl rfl | exact .inr ⟨rfl, rfl⟩ | exact .inr (by dsimp only [Part.same]))
      exact Changes.refl _ _

theorem State.applySync_changes (s : State) (n : Nat) :
    Changes [.cores, .locks] s (s.applySync n) := by
  unfold State.applySync
  dsimp only
  refine Changes.foldl ?_ (fun _ _ => ?_)
  · refine Changes.record ?_ (by intro p; cases p <;> first | exact .inl rfl | exact .inr ⟨rfl, rfl⟩ | exact .inr (by dsimp only [Part.same]))
    exact Changes.refl _ _
  · refine Changes.step ?_ (State.signal_changes _ _ _ _ _ _) rfl
    exact Changes.refl _ _

theorem State.showSlot_changes (s : State) (i : Nat) :
    Changes [.regs] s (s.showSlot i) := by
  unfold State.showSlot
  dsimp only
  refine Changes.step ?_ (State.put_changes _ _ _ _) rfl
  refine Changes.step ?_ (State.put_changes _ _ _ _) rfl
  refine Changes.step ?_ (State.put_changes _ _ _ _) rfl
  exact Changes.refl _ _

theorem State.showPend_changes (s : State) :
    Changes [.regs] s (s.showPend) := by
  unfold State.showPend
  dsimp only
  refine Changes.ite ?_ ?_
  · exact Changes.refl _ _
  · refine Changes.step ?_ (State.put_changes _ _ _ _) rfl
    exact Changes.refl _ _

theorem State.sendTree_changes (s : State) (tree : Nat) (b : Barge) :
    Changes [.regs, .mesh, .idle, .outs] s (s.sendTree tree b) := by
  unfold State.sendTree
  dsimp only
  refine Changes.ite ?_ ?_
  · exact Changes.refl _ _
  · refine Changes.foldl ?_ (fun _ _ => ?_)
    · exact Changes.refl _ _
    · refine Changes.ite ?_ ?_
      · refine Changes.step ?_ (State.launch_changes _ _ _ _ _ _) rfl
        exact Changes.refl _ _
      · exact Changes.refl _ _

theorem State.lost3308_changes (s : State) (v i k : Nat) :
    Changes [.regs, .mesh, .idle, .diag, .ibis, .outs] s (s.lost3308 v i k) := by
  unfold State.lost3308
  refine Changes.step ?_ (State.logErr_changes _ _) rfl
  refine Changes.step ?_ (State.recordLock_changes _ _ _ _ _ _) rfl
  exact Changes.refl _ _

theorem State.applyPend_changes (s : State) (n : Nat) (p : PendSig → Bool) :
    Changes [.regs, .cores, .locks] s (s.applyPend n p) := by
  unfold State.applyPend
  dsimp only
  refine Changes.foldl ?_ (fun _ _ => ?_)
  · refine Changes.step ?_ (State.showPend_changes _) rfl
    refine Changes.record ?_ (by intro p; cases p <;> first | exact .inl rfl | exact .inr ⟨rfl, rfl⟩ | exact .inr (by dsimp only [Part.same]))
    exact Changes.refl _ _
  · refine Changes.step ?_ (State.signal_changes _ _ _ _ _ _) rfl
    exact Changes.refl _ _

theorem State.writeSlotMask_changes (s : State) (i w : Nat) (v : Word) :
    Changes [.regs, .mesh, .idle, .diag, .ibis, .outs] s (s.writeSlotMask i w v) := by
  unfold State.writeSlotMask
  refine Changes.ite ?_ ?_
  · refine Changes.step ?_ (State.logErr_changes _ _) rfl
    exact Changes.refl _ _
  · refine Changes.step ?_ (State.plainWrite_changes _ _ _) rfl
    exact Changes.refl _ _

theorem State.disarm_changes (s : State) (i : Nat) :
    Changes [.regs, .locks] s (s.disarm i) := by
  unfold State.disarm
  dsimp only
  refine Changes.step ?_ (State.showSlot_changes _ _) rfl
  refine Changes.step ?_ (State.setSlot_changes _ _ _) rfl
  refine Changes.step ?_ (State.put_changes _ _ _ _) rfl
  exact Changes.refl _ _

theorem State.writeSlotCtrl_changes (s : State) (i : Nat) (v : Word) :
    Changes [.regs, .locks, .mesh, .idle, .diag, .ibis, .outs] s (s.writeSlotCtrl i v) := by
  unfold State.writeSlotCtrl
  dsimp only
  refine Changes.ite ?_ ?_
  · refine Changes.iteThen ?_ ?_
    · refine Changes.ite ?_ ?_
      · refine Changes.step ?_ (State.logErr_changes _ _) rfl
        exact Changes.refl _ _
      · exact Changes.refl _ _
    · refine Changes.step ?_ (State.disarm_changes _ _) rfl
      exact Changes.refl _ _
  · refine Changes.ite ?_ ?_
    · refine Changes.step ?_ (State.disarm_changes _ _) rfl
      refine Changes.step ?_ (State.plainWrite_changes _ _ _) rfl
      exact Changes.refl _ _
    · refine Changes.ite ?_ ?_
      · refine Changes.step ?_ (State.setSlot_changes _ _ _) rfl
        refine Changes.step ?_ (State.setReg_changes _ _ _) rfl
        refine Changes.step ?_ (State.plainWrite_changes _ _ _) rfl
        exact Changes.refl _ _
      · refine Changes.step ?_ (State.logErr_changes _ _) rfl
        exact Changes.refl _ _

/-! ### Descr -/



/-! ### Streams -/

theorem State.refuseHead_changes (s : State) (n : Nat) (onX : Bool) (d : List Word) (code : Nat) :
    Changes [.regs, .die, .cores, .mesh, .idle, .diag, .ibis, .outs] s (s.refuseHead n onX d code) := by
  unfold State.refuseHead
  refine Changes.ite ?_ ?_
  · dsimp only
    refine Changes.step ?_ (State.faultCore_changes _ _ _) rfl
    refine Changes.step ?_ (State.logCore_changes _ _ _ _ _ _) rfl
    refine Changes.foldl ?_ (fun _ _ => ?_)
    · exact Changes.refl _ _
    · refine Changes.step ?_ (State.hwSet_changes _ _ _ _) rfl
      exact Changes.refl _ _
  · refine Changes.step ?_ (State.faultCore_changes _ _ _) rfl
    refine Changes.step ?_ (State.logCore_changes _ _ _ _ _ _) rfl
    exact Changes.refl _ _

theorem State.startHead_changes (s : State) (n : Nat) (onX : Bool) (d : List Word) (k : OpKind) :
    Changes [.regs, .die, .cores, .mesh, .idle, .diag, .ibis, .outs] s (s.startHead n onX d k) := by
  unfold State.startHead
  dsimp only
  refine Changes.step ?_ (State.refresh_changes _ _) rfl
  refine Changes.step ?_ (State.addTo_changes _ _ _ _) rfl
  refine Changes.step ?_ (State.setCore_changes _ _ _) rfl
  refine Changes.foldl ?_ (fun _ _ => ?_)
  · refine Changes.ite ?_ ?_
    · refine Changes.step ?_ (State.serve_changes _ _ _ _) rfl
      exact Changes.refl _ _
    · exact Changes.refl _ _
  · refine Changes.step ?_ (State.pop_changes _ _ _) rfl
    exact Changes.refl _ _

theorem State.setRun_changes (s : State) (n : Nat) (u : UnitId) (r : Option RunOp) :
    Changes [.cores] s (s.setRun n u r) := by
  unfold State.setRun
  refine Changes.step ?_ (State.setCore_changes _ _ _) rfl
  exact Changes.refl _ _

theorem State.modRun_changes (s : State) (n : Nat) (u : UnitId) (f : RunOp → RunOp) :
    Changes [.cores] s (s.modRun n u f) := by
  unfold State.modRun
  split
  · refine Changes.step ?_ (State.setRun_changes _ _ _ _) rfl
    exact Changes.refl _ _
  · exact Changes.refl _ _

/-- The head of a stream is started or refused, and its unit does the work of its first beat. -/
theorem Changes.startOp {ps : List Part} {s0 s : State} {n : Nat} {legacy : Bool} {p : OpKind → Bool}
    {go : State → List Word → OpKind → State} (h : Changes ps s0 s) (hgo : ∀ t d k, Changes ps t (go t d k))
    (hs : partsIn [.regs, .die, .cores, .mesh, .idle, .diag, .ibis, .outs] ps = true := by rfl) :
    Changes ps s0 (s.startOp n legacy p go) := by
  have one : ∀ (onX : Bool) (t : State), Changes ps t
      (match t.headIs n onX legacy p with
       | none => t
       | some (d, k) =>
         match t.headFate n onX with
         | .waits => t
         | .refused code => t.refuseHead n onX d code
         | .starts => go (t.startHead n onX d k) d k) := by
    intro onX t
    split
    · exact Changes.refl _ _
    · split
      · exact Changes.refl _ _
      · exact (State.refuseHead_changes _ _ _ _ _).widen (partsIn_trans rfl hs)
      · exact ((State.startHead_changes _ _ _ _ _).widen (partsIn_trans rfl hs)).trans (hgo _ _ _)
  exact (h.trans (one false s)).trans (one true _)

theorem State.refuseUnknown_changes (s : State) (n : Nat) (onX : Bool) :
    Changes [.regs, .die, .cores, .mesh, .idle, .diag, .ibis, .outs] s (s.refuseUnknown n onX) := by
  unfold State.refuseUnknown
  split
  · refine Changes.ite ?_ ?_
    · split
      · refine Changes.step ?_ (State.refuseHead_changes _ _ _ _ _) rfl
        exact Changes.refl _ _
      · exact Changes.refl _ _
    · exact Changes.refl _ _
  · exact Changes.refl _ _

theorem State.readLines_changes (s : State) (n : Nat) (u : UnitId) (a len : Nat) :
    Changes [.regs, .cores, .mesh, .idle, .diag, .ibis, .outs] s (s.readLines n u a len).1 := by
  unfold State.readLines
  dsimp only
  split
  · refine Changes.mkFst ?_
    exact Changes.refl _ _
  · refine Changes.mkFst ?_
    refine Changes.step ?_ (State.modRun_changes _ _ _ _) rfl
    refine Changes.step ?_ (State.noteLines_changes _ _ _ _ _) rfl
    exact Changes.refl _ _

theorem State.taint_changes (s : State) (n : Nat) (u : UnitId) (bad : Bool) :
    Changes [.cores] s (s.taint n u bad) := by
  unfold State.taint
  refine Changes.ite ?_ ?_
  · refine Changes.step ?_ (State.modRun_changes _ _ _ _) rfl
    exact Changes.refl _ _
  · exact Changes.refl _ _

theorem State.writeLine_changes (s : State) (n : Nat) (u : UnitId) (rank : Nat) (ws : List PendWrite) (la : Nat) :
    Changes [.regs, .mem, .ecc, .cores, .mesh, .idle, .diag, .ibis, .outs] s (s.writeLine n u rank ws la) := by
  unfold State.writeLine
  dsimp only
  refine Changes.step ?_ (State.lineWrite_changes _ _ _ _ _ _) rfl
  refine Changes.step ?_ (State.taint_changes _ _ _ _) rfl
  refine Changes.iteFst ?_ ?_
  · refine Changes.mkFst ?_
    exact Changes.refl _ _
  · refine Changes.step ?_ (State.readLines_changes _ _ _ _ _) rfl
    exact Changes.refl _ _

theorem State.applyWrites_changes (s : State) (n : Nat) (u : UnitId) (rank : Nat) (ws : List PendWrite) :
    Changes [.regs, .mem, .ecc, .cores, .mesh, .idle, .diag, .ibis, .outs] s (s.applyWrites n u rank ws) := by
  unfold State.applyWrites
  refine Changes.foldl ?_ (fun _ _ => ?_)
  · exact Changes.refl _ _
  · refine Changes.step ?_ (State.writeLine_changes _ _ _ _ _ _) rfl
    exact Changes.refl _ _

theorem State.endWait_changes (s : State) (n i k : Nat) :
    Changes [.die, .cores] s (s.endWait n i k) := by
  unfold State.endWait
  dsimp only
  refine Changes.step ?_ (State.holdOff_changes _ _) rfl
  refine Changes.step ?_ (State.signal_changes _ _ _ _ _ _) rfl
  exact Changes.refl _ _

theorem State.applyFull_changes (s : State) (cores : List Nat) (i k : Nat) :
    Changes [.regs, .cores, .mesh, .idle, .diag, .ibis, .outs] s (s.applyFull cores i k) := by
  unfold State.applyFull
  dsimp only
  refine Changes.foldl ?_ (fun _ _ => ?_)
  · refine Changes.step ?_ (State.lockErr_changes _ _ _ _ _ _) rfl
    refine Changes.step ?_ (State.put_changes _ _ _ _) rfl
    exact Changes.refl _ _
  · refine Changes.step ?_ (State.signal_changes _ _ _ _ _ _) rfl
    exact Changes.refl _ _

theorem State.pendRelease_changes (s : State) (i apply parity : Nat) :
    Changes [.regs, .die, .cores, .locks, .mesh, .idle, .diag, .ibis, .outs] s (s.pendRelease i apply parity) := by
  unfold State.pendRelease
  dsimp only
  refine Changes.iteElse ?_ ?_
  · refine Changes.foldl ?_ (fun _ _ => ?_)
    · exact Changes.refl _ _
    · refine Changes.step ?_ (State.endWait_changes _ _ _ _) rfl
      exact Changes.refl _ _
  · refine Changes.ite ?_ ?_
    · refine Changes.step ?_ (State.applyFull_changes _ _ _ _) rfl
      exact Changes.refl _ _
    · refine Changes.step ?_ (State.showPend_changes _) rfl
      refine Changes.record ?_ (by intro p; cases p <;> first | exact .inl rfl | exact .inr ⟨rfl, rfl⟩ | exact .inr (by dsimp only [Part.same]))
      exact Changes.refl _ _

theorem State.leaderCheck_changes (s : State) (i : Nat) :
    Changes [.regs, .die, .cores, .locks, .mesh, .idle, .diag, .ibis, .outs] s (s.leaderCheck i) := by
  unfold State.leaderCheck
  dsimp only
  refine Changes.ite ?_ ?_
  · refine Changes.step ?_ (State.showSlot_changes _ _) rfl
    exact Changes.refl _ _
  · refine Changes.step ?_ (State.showSlot_changes _ _) rfl
    refine Changes.step ?_ (State.pendRelease_changes _ _ _ _) rfl
    refine Changes.step ?_ (State.sendTree_changes _ _ _) rfl
    refine Changes.step ?_ (State.setSlot_changes _ _ _) rfl
    exact Changes.refl _ _

theorem State.chipArrive_changes (s : State) (i gen a : Nat) :
    Changes [.regs, .die, .cores, .locks, .mesh, .idle, .diag, .ibis, .outs] s (s.chipArrive i gen a) := by
  unfold State.chipArrive
  dsimp only
  refine Changes.step ?_ (State.leaderCheck_changes _ _) rfl
  refine Changes.step ?_ (State.setSlot_changes _ _ _) rfl
  exact Changes.refl _ _

theorem State.slotComplete_changes (s : State) (i b sb : Nat) :
    Changes [.regs, .die, .cores, .locks, .mesh, .idle, .diag, .ibis, .outs] s (s.slotComplete i b sb) := by
  unfold State.slotComplete
  dsimp only
  refine Changes.ite ?_ ?_
  · refine Changes.record ?_ (by intro p; cases p <;> first | exact .inl rfl | exact .inr ⟨rfl, rfl⟩ | exact .inr (by dsimp only [Part.same]))
    refine Changes.iteThen ?_ ?_
    · refine Changes.step ?_ (State.showSlot_changes _ _) rfl
      refine Changes.step ?_ (State.setSlot_changes _ _ _) rfl
      refine Changes.step ?_ (State.addTo_changes _ _ _ _) rfl
      exact Changes.refl _ _
    · refine Changes.step ?_ (State.trigger_changes _ _ _ _) rfl
      exact Changes.refl _ _
  · refine Changes.ite ?_ ?_
    · refine Changes.step ?_ (State.chipArrive_changes _ _ _ _) rfl
      refine Changes.iteThen ?_ ?_
      · refine Changes.step ?_ (State.showSlot_changes _ _) rfl
        refine Changes.step ?_ (State.setSlot_changes _ _ _) rfl
        refine Changes.step ?_ (State.addTo_changes _ _ _ _) rfl
        exact Changes.refl _ _
      · refine Changes.step ?_ (State.trigger_changes _ _ _ _) rfl
        exact Changes.refl _ _
    · refine Changes.step ?_ (State.sendOut_changes _ _ _) rfl
      refine Changes.iteThen ?_ ?_
      · refine Changes.step ?_ (State.showSlot_changes _ _) rfl
        refine Changes.step ?_ (State.setSlot_changes _ _ _) rfl
        refine Changes.step ?_ (State.addTo_changes _ _ _ _) rfl
        exact Changes.refl _ _
      · refine Changes.step ?_ (State.trigger_changes _ _ _ _) rfl
        exact Changes.refl _ _

theorem State.slotRecord_changes (s : State) (i : Nat) (e : SlotArrival) :
    Changes [.regs, .die, .cores, .locks, .mesh, .idle, .diag, .ibis, .outs] s (s.slotRecord i e) := by
  unfold State.slotRecord
  dsimp only
  refine Changes.ite ?_ ?_
  · refine Changes.ite ?_ ?_
    · refine Changes.step ?_ (State.lockErr_changes _ _ _ _ _ _) rfl
      exact Changes.refl _ _
    · refine Changes.step ?_ (State.showSlot_changes _ _) rfl
      refine Changes.step ?_ (State.setSlot_changes _ _ _) rfl
      exact Changes.refl _ _
  · refine Changes.iteThen ?_ ?_
    · refine Changes.step ?_ (State.showSlot_changes _ _) rfl
      refine Changes.step ?_ (State.setSlot_changes _ _ _) rfl
      exact Changes.refl _ _
    · refine Changes.step ?_ (State.slotComplete_changes _ _ _ _) rfl
      exact Changes.refl _ _

theorem State.slotAgain_changes (s : State) (i : Nat) :
    Changes [.regs, .die, .cores, .locks, .mesh, .idle, .diag, .ibis, .outs] s (s.slotAgain i) := by
  unfold State.slotAgain
  split
  · exact Changes.refl _ _
  · refine Changes.ite ?_ ?_
    · refine Changes.step ?_ (State.slotComplete_changes _ _ _ _) rfl
      refine Changes.step ?_ (State.setSlot_changes _ _ _) rfl
      exact Changes.refl _ _
    · exact Changes.refl _ _

theorem State.slotDrain_changes (s : State) (i fuel : Nat) : Changes [.regs, .die, .cores, .locks, .mesh, .idle, .diag, .ibis, .outs] s (s.slotDrain i fuel) := by
  induction fuel generalizing s with
  | zero => exact Changes.refl _ _
  | succ fuel ih =>
    unfold State.slotDrain
    dsimp only
    split
    · refine Changes.ite ?_ ?_
      · refine Changes.ite ?_ ?_
        · refine Changes.trans ?_ (ih _)
          refine Changes.step ?_ (State.slotComplete_changes _ _ _ _) rfl
          refine Changes.step ?_ (State.setSlot_changes _ _ _) rfl
          exact Changes.refl _ _
        · exact Changes.refl _ _
      · refine Changes.ite ?_ ?_
        · refine Changes.trans ?_ (ih _)
          refine Changes.step ?_ (State.slotRecord_changes _ _ _) rfl
          refine Changes.step ?_ (State.setSlot_changes _ _ _) rfl
          exact Changes.refl _ _
        · exact Changes.refl _ _
    · refine Changes.ite ?_ ?_
      · refine Changes.trans ?_ (ih _)
        refine Changes.step ?_ (State.slotRecord_changes _ _ _) rfl
        refine Changes.step ?_ (State.setSlot_changes _ _ _) rfl
        exact Changes.refl _ _
      · exact Changes.refl _ _
    · refine Changes.step ?_ (State.slotAgain_changes _ _) rfl
      exact Changes.refl _ _
    · exact Changes.refl _ _

theorem State.slotsDrain_changes (s : State) :
    Changes [.regs, .die, .cores, .locks, .mesh, .idle, .diag, .ibis, .outs] s (s.slotsDrain) := by
  unfold State.slotsDrain
  refine Changes.foldl ?_ (fun _ _ => ?_)
  · exact Changes.refl _ _
  · refine Changes.ite ?_ ?_
    · exact Changes.refl _ _
    · refine Changes.step ?_ (State.slotDrain_changes _ _ _) rfl
      exact Changes.refl _ _

theorem State.arrive_changes (s : State) (n i issuer : Nat) :
    Changes [.regs, .die, .cores, .locks, .mesh, .idle, .diag, .ibis, .outs] s (s.arrive n i issuer) := by
  unfold State.arrive
  dsimp only
  refine Changes.ite ?_ ?_
  · refine Changes.step ?_ (State.lockErr_changes _ _ _ _ _ _) rfl
    exact Changes.refl _ _
  · refine Changes.ite ?_ ?_
    · refine Changes.step ?_ (State.lockErr_changes _ _ _ _ _ _) rfl
      exact Changes.refl _ _
    · refine Changes.ite ?_ ?_
      · refine Changes.step ?_ (State.slotRecord_changes _ _ _) rfl
        exact Changes.refl _ _
      · refine Changes.step ?_ (State.setSlot_changes _ _ _) rfl
        exact Changes.refl _ _

theorem State.pushAll_changes (s : State) (n : Nat) (r : RunOp) :
    Changes [.regs, .cores, .mesh, .fabric, .idle, .diag, .ibis, .outs] s (s.pushAll n r) := by
  unfold State.pushAll
  refine Changes.foldl ?_ (fun _ _ => ?_)
  · exact Changes.refl _ _
  · refine Changes.ite ?_ ?_
    · refine Changes.step ?_ (State.push_changes _ _ _ _) rfl
      exact Changes.refl _ _
    · exact Changes.refl _ _

theorem State.signalChip_changes (s : State) (n sl chip vcore i k : Nat) :
    Changes [.regs, .mesh, .idle, .diag, .ibis, .outs] s (s.signalChip n sl chip vcore i k) := by
  unfold State.signalChip
  dsimp only
  split
  · refine Changes.step ?_ (State.launch_changes _ _ _ _ _ _) rfl
    exact Changes.refl _ _
  · refine Changes.step ?_ (State.logErr_changes _ _) rfl
    exact Changes.refl _ _

theorem State.postAct_changes (s : State) (n : Nat) (u : UnitId) (onX : Bool) (d : List Word) :
    Changes [.regs, .die, .cores, .locks, .mesh, .idle, .diag, .ibis, .outs] s (s.postAct n u onX d) := by
  unfold State.postAct
  dsimp only
  refine Changes.ite ?_ ?_
  · refine Changes.step ?_ (State.signal_changes _ _ _ _ _ _) rfl
    exact Changes.refl _ _
  · refine Changes.ite ?_ ?_
    · refine Changes.ite ?_ ?_
      · refine Changes.step ?_ (State.signalTo_changes _ _ _ _ _ _) rfl
        exact Changes.refl _ _
      · refine Changes.ite ?_ ?_
        · refine Changes.ite ?_ ?_
          · refine Changes.step ?_ (State.signalTo_changes _ _ _ _ _ _) rfl
            exact Changes.refl _ _
          · refine Changes.step ?_ (State.lost3308_changes _ _ _ _) rfl
            exact Changes.refl _ _
        · refine Changes.ite ?_ ?_
          · exact Changes.refl _ _
          · refine Changes.step ?_ (State.signalChip_changes _ _ _ _ _ _ _) rfl
            exact Changes.refl _ _
    · refine Changes.ite ?_ ?_
      · refine Changes.step ?_ (State.arrive_changes _ _ _ _) rfl
        exact Changes.refl _ _
      · exact Changes.refl _ _

theorem State.legacySig_changes (s : State) (n : Nat) (onX : Bool) (r : RunOp) :
    Changes [.cores] s (s.legacySig n onX r) := by
  unfold State.legacySig
  refine Changes.ite ?_ ?_
  · refine Changes.step ?_ (State.signal_changes _ _ _ _ _ _) rfl
    exact Changes.refl _ _
  · exact Changes.refl _ _

theorem State.endOp_changes (s : State) (n : Nat) (u : UnitId) (onX : Bool) (r : RunOp) :
    Changes [.regs, .die, .cores, .locks, .mesh, .fabric, .idle, .diag, .ibis, .outs] s (s.endOp n u onX r) := by
  unfold State.endOp
  dsimp only
  refine Changes.step ?_ (State.refresh_changes _ _) rfl
  refine Changes.iteElse ?_ ?_
  · refine Changes.step ?_ (State.pushAll_changes _ _ _) rfl
    refine Changes.step ?_ (State.setCore_changes _ _ _) rfl
    exact Changes.refl _ _
  · refine Changes.step ?_ (State.legacySig_changes _ _ _ _) rfl
    refine Changes.step ?_ (State.postAct_changes _ _ _ _ _) rfl
    exact Changes.refl _ _

/-! ### Vector -/

theorem State.vecStart_changes (s : State) (n i : Nat) (d : List Word) :
    Changes [.free, .regs, .cores, .mesh, .idle, .diag, .ibis, .outs] s (s.vecStart n i d) := by
  unfold State.vecStart
  dsimp only
  refine Changes.step ?_ (State.modRun_changes _ _ _ _) rfl
  refine Changes.step ?_ (State.put_changes _ _ _ _) rfl
  refine Changes.iteThen ?_ ?_
  · refine Changes.step ?_ (State.noteLines_changes _ _ _ _ _) rfl
    exact Changes.refl _ _
  · refine Changes.step ?_ (State.drawn_changes _) rfl
    refine Changes.step ?_ (State.put_changes _ _ _ _) rfl
    exact Changes.refl _ _

theorem State.vecEnd_changes (s : State) (n : Nat) (r : RunOp) :
    Changes [.regs, .mem, .ecc, .cores, .mesh, .idle, .diag, .ibis, .outs] s (s.vecEnd n r) := by
  unfold State.vecEnd
  dsimp only
  refine Changes.step ?_ (State.addTo_changes _ _ _ _) rfl
  refine Changes.step ?_ (State.put_changes _ _ _ _) rfl
  refine Changes.iteThen ?_ ?_
  · split
    · refine Changes.step ?_ (State.hwSet_changes _ _ _ _) rfl
      refine Changes.step ?_ (State.put_changes _ _ _ _) rfl
      refine Changes.step ?_ (State.hwSet_changes _ _ _ _) rfl
      refine Changes.step ?_ (State.put_changes _ _ _ _) rfl
      split
      · refine Changes.step ?_ (State.setCore_changes _ _ _) rfl
        refine Changes.step ?_ (State.applyWrites_changes _ _ _ _ _) rfl
        exact Changes.refl _ _
      · refine Changes.step ?_ (State.applyWrites_changes _ _ _ _ _) rfl
        exact Changes.refl _ _
    · refine Changes.step ?_ (State.hwSet_changes _ _ _ _) rfl
      refine Changes.step ?_ (State.put_changes _ _ _ _) rfl
      split
      · refine Changes.step ?_ (State.setCore_changes _ _ _) rfl
        refine Changes.step ?_ (State.applyWrites_changes _ _ _ _ _) rfl
        exact Changes.refl _ _
      · refine Changes.step ?_ (State.applyWrites_changes _ _ _ _ _) rfl
        exact Changes.refl _ _
  · refine Changes.step ?_ (State.logCore_changes _ _ _ _ _ _) rfl
    exact Changes.refl _ _

theorem State.startVec_changes (s : State) (n : Nat) (legacy : Bool) (p : Nat → Bool) :
    Changes [.free, .regs, .die, .cores, .mesh, .idle, .diag, .ibis, .outs] s (s.startVec n legacy p) := by
  unfold State.startVec
  refine Changes.startOp ?_ (fun _ _ _ => ?_)
  · exact Changes.refl _ _
  · split
    · refine Changes.step ?_ (State.vecStart_changes _ _ _ _) rfl
      exact Changes.refl _ _
    · exact Changes.refl _ _

theorem execXnop_changes (core : Fin 256) (s : State) :
    OutChanges [.regs, .die, .cores, .mesh, .idle, .diag, .ibis, .outs] s (execXnop core s) := by
  unfold execXnop
  refine OutChanges.next ?_
  refine Changes.step ?_ (State.refuseUnknown_changes _ _ _) rfl
  refine Changes.startOp ?_ (fun _ _ _ => ?_)
  · exact Changes.refl _ _
  · exact Changes.refl _ _

theorem execAnop_changes (core : Fin 256) (s : State) :
    OutChanges [.regs, .die, .cores, .mesh, .idle, .diag, .ibis, .outs] s (execAnop core s) := by
  unfold execAnop
  refine OutChanges.next ?_
  refine Changes.step ?_ (State.refuseUnknown_changes _ _ _) rfl
  refine Changes.startOp ?_ (fun _ _ _ => ?_)
  · exact Changes.refl _ _
  · exact Changes.refl _ _

theorem execVadd_changes (core : Fin 256) (s : State) :
    OutChanges [.free, .regs, .die, .cores, .mesh, .idle, .diag, .ibis, .outs] s (execVadd core s) := by
  unfold execVadd
  refine OutChanges.next ?_
  refine Changes.step ?_ (State.startVec_changes _ _ _ _) rfl
  exact Changes.refl _ _

theorem execVsub_changes (core : Fin 256) (s : State) :
    OutChanges [.free, .regs, .die, .cores, .mesh, .idle, .diag, .ibis, .outs] s (execVsub core s) := by
  unfold execVsub
  refine OutChanges.next ?_
  refine Changes.step ?_ (State.startVec_changes _ _ _ _) rfl
  exact Changes.refl _ _

theorem execVmul_changes (core : Fin 256) (s : State) :
    OutChanges [.free, .regs, .die, .cores, .mesh, .idle, .diag, .ibis, .outs] s (execVmul core s) := by
  unfold execVmul
  refine OutChanges.next ?_
  refine Changes.step ?_ (State.startVec_changes _ _ _ _) rfl
  exact Changes.refl _ _

theorem execVfma_changes (core : Fin 256) (s : State) :
    OutChanges [.free, .regs, .die, .cores, .mesh, .idle, .diag, .ibis, .outs] s (execVfma core s) := by
  unfold execVfma
  refine OutChanges.next ?_
  refine Changes.step ?_ (State.startVec_changes _ _ _ _) rfl
  exact Changes.refl _ _

theorem execVmax_changes (core : Fin 256) (s : State) :
    OutChanges [.free, .regs, .die, .cores, .mesh, .idle, .diag, .ibis, .outs] s (execVmax core s) := by
  unfold execVmax
  refine OutChanges.next ?_
  refine Changes.step ?_ (State.startVec_changes _ _ _ _) rfl
  exact Changes.refl _ _

theorem execVmin_changes (core : Fin 256) (s : State) :
    OutChanges [.free, .regs, .die, .cores, .mesh, .idle, .diag, .ibis, .outs] s (execVmin core s) := by
  unfold execVmin
  refine OutChanges.next ?_
  refine Changes.step ?_ (State.startVec_changes _ _ _ _) rfl
  exact Changes.refl _ _

theorem execVneg_changes (core : Fin 256) (s : State) :
    OutChanges [.free, .regs, .die, .cores, .mesh, .idle, .diag, .ibis, .outs] s (execVneg core s) := by
  unfold execVneg
  refine OutChanges.next ?_
  refine Changes.step ?_ (State.startVec_changes _ _ _ _) rfl
  exact Changes.refl _ _

theorem execVabs_changes (core : Fin 256) (s : State) :
    OutChanges [.free, .regs, .die, .cores, .mesh, .idle, .diag, .ibis, .outs] s (execVabs core s) := by
  unfold execVabs
  refine OutChanges.next ?_
  refine Changes.step ?_ (State.startVec_changes _ _ _ _) rfl
  exact Changes.refl _ _

theorem execVsel_changes (core : Fin 256) (s : State) :
    OutChanges [.free, .regs, .die, .cores, .mesh, .idle, .diag, .ibis, .outs] s (execVsel core s) := by
  unfold execVsel
  refine OutChanges.next ?_
  refine Changes.step ?_ (State.startVec_changes _ _ _ _) rfl
  exact Changes.refl _ _

theorem execVcmp_changes (core : Fin 256) (s : State) :
    OutChanges [.free, .regs, .die, .cores, .mesh, .idle, .diag, .ibis, .outs] s (execVcmp core s) := by
  unfold execVcmp
  refine OutChanges.next ?_
  refine Changes.step ?_ (State.startVec_changes _ _ _ _) rfl
  exact Changes.refl _ _

theorem execVcvt_changes (core : Fin 256) (s : State) :
    OutChanges [.free, .regs, .die, .cores, .mesh, .idle, .diag, .ibis, .outs] s (execVcvt core s) := by
  unfold execVcvt
  refine OutChanges.next ?_
  refine Changes.step ?_ (State.startVec_changes _ _ _ _) rfl
  exact Changes.refl _ _

theorem execVexp2_changes (core : Fin 256) (s : State) :
    OutChanges [.free, .regs, .die, .cores, .mesh, .idle, .diag, .ibis, .outs] s (execVexp2 core s) := by
  unfold execVexp2
  refine OutChanges.next ?_
  refine Changes.step ?_ (State.startVec_changes _ _ _ _) rfl
  exact Changes.refl _ _

theorem execVlog2_changes (core : Fin 256) (s : State) :
    OutChanges [.free, .regs, .die, .cores, .mesh, .idle, .diag, .ibis, .outs] s (execVlog2 core s) := by
  unfold execVlog2
  refine OutChanges.next ?_
  refine Changes.step ?_ (State.startVec_changes _ _ _ _) rfl
  exact Changes.refl _ _

theorem execVrcp_changes (core : Fin 256) (s : State) :
    OutChanges [.free, .regs, .die, .cores, .mesh, .idle, .diag, .ibis, .outs] s (execVrcp core s) := by
  unfold execVrcp
  refine OutChanges.next ?_
  refine Changes.step ?_ (State.startVec_changes _ _ _ _) rfl
  exact Changes.refl _ _

theorem execVrsq_changes (core : Fin 256) (s : State) :
    OutChanges [.free, .regs, .die, .cores, .mesh, .idle, .diag, .ibis, .outs] s (execVrsq core s) := by
  unfold execVrsq
  refine OutChanges.next ?_
  refine Changes.step ?_ (State.startVec_changes _ _ _ _) rfl
  exact Changes.refl _ _

theorem execVsig_changes (core : Fin 256) (s : State) :
    OutChanges [.free, .regs, .die, .cores, .mesh, .idle, .diag, .ibis, .outs] s (execVsig core s) := by
  unfold execVsig
  refine OutChanges.next ?_
  refine Changes.step ?_ (State.startVec_changes _ _ _ _) rfl
  exact Changes.refl _ _

theorem execVsilu_changes (core : Fin 256) (s : State) :
    OutChanges [.free, .regs, .die, .cores, .mesh, .idle, .diag, .ibis, .outs] s (execVsilu core s) := by
  unfold execVsilu
  refine OutChanges.next ?_
  refine Changes.step ?_ (State.startVec_changes _ _ _ _) rfl
  exact Changes.refl _ _

theorem execVtanh_changes (core : Fin 256) (s : State) :
    OutChanges [.free, .regs, .die, .cores, .mesh, .idle, .diag, .ibis, .outs] s (execVtanh core s) := by
  unfold execVtanh
  refine OutChanges.next ?_
  refine Changes.step ?_ (State.startVec_changes _ _ _ _) rfl
  exact Changes.refl _ _

theorem execVgelu_changes (core : Fin 256) (s : State) :
    OutChanges [.free, .regs, .die, .cores, .mesh, .idle, .diag, .ibis, .outs] s (execVgelu core s) := by
  unfold execVgelu
  refine OutChanges.next ?_
  refine Changes.step ?_ (State.startVec_changes _ _ _ _) rfl
  exact Changes.refl _ _

theorem execVsum_changes (core : Fin 256) (s : State) :
    OutChanges [.free, .regs, .die, .cores, .mesh, .idle, .diag, .ibis, .outs] s (execVsum core s) := by
  unfold execVsum
  refine OutChanges.next ?_
  refine Changes.step ?_ (State.startVec_changes _ _ _ _) rfl
  exact Changes.refl _ _

theorem execVsumsq_changes (core : Fin 256) (s : State) :
    OutChanges [.free, .regs, .die, .cores, .mesh, .idle, .diag, .ibis, .outs] s (execVsumsq core s) := by
  unfold execVsumsq
  refine OutChanges.next ?_
  refine Changes.step ?_ (State.startVec_changes _ _ _ _) rfl
  exact Changes.refl _ _

theorem execVdot_changes (core : Fin 256) (s : State) :
    OutChanges [.free, .regs, .die, .cores, .mesh, .idle, .diag, .ibis, .outs] s (execVdot core s) := by
  unfold execVdot
  refine OutChanges.next ?_
  refine Changes.step ?_ (State.startVec_changes _ _ _ _) rfl
  exact Changes.refl _ _

theorem execVrsum_changes (core : Fin 256) (s : State) :
    OutChanges [.free, .regs, .die, .cores, .mesh, .idle, .diag, .ibis, .outs] s (execVrsum core s) := by
  unfold execVrsum
  refine OutChanges.next ?_
  refine Changes.step ?_ (State.startVec_changes _ _ _ _) rfl
  exact Changes.refl _ _

theorem execVrmax_changes (core : Fin 256) (s : State) :
    OutChanges [.free, .regs, .die, .cores, .mesh, .idle, .diag, .ibis, .outs] s (execVrmax core s) := by
  unfold execVrmax
  refine OutChanges.next ?_
  refine Changes.step ?_ (State.startVec_changes _ _ _ _) rfl
  exact Changes.refl _ _

theorem execVargmax_changes (core : Fin 256) (s : State) :
    OutChanges [.free, .regs, .die, .cores, .mesh, .idle, .diag, .ibis, .outs] s (execVargmax core s) := by
  unfold execVargmax
  refine OutChanges.next ?_
  refine Changes.step ?_ (State.startVec_changes _ _ _ _) rfl
  exact Changes.refl _ _

theorem execVtopk_changes (core : Fin 256) (s : State) :
    OutChanges [.free, .regs, .die, .cores, .mesh, .idle, .diag, .ibis, .outs] s (execVtopk core s) := by
  unfold execVtopk
  refine OutChanges.next ?_
  refine Changes.step ?_ (State.startVec_changes _ _ _ _) rfl
  exact Changes.refl _ _

theorem execVsample_changes (core : Fin 256) (s : State) :
    OutChanges [.free, .regs, .die, .cores, .mesh, .idle, .diag, .ibis, .outs] s (execVsample core s) := by
  unfold execVsample
  refine OutChanges.next ?_
  refine Changes.step ?_ (State.startVec_changes _ _ _ _) rfl
  exact Changes.refl _ _

theorem execLvector_changes (core : Fin 256) (s : State) :
    OutChanges [.free, .regs, .die, .cores, .mesh, .idle, .diag, .ibis, .outs] s (execLvector core s) := by
  unfold execLvector
  refine OutChanges.next ?_
  refine Changes.step ?_ (State.startVec_changes _ _ _ _) rfl
  exact Changes.refl _ _

/-! ### Array -/

theorem State.claim_changes (s : State) (a n : Nat) :
    Changes [.cores] s (s.claim a n).1 := by
  unfold State.claim
  refine Changes.iteFst ?_ ?_
  · dsimp only
    refine Changes.step ?_ (State.setCore_changes _ _ _) rfl
    exact Changes.refl _ _
  · refine Changes.mkFst ?_
    exact Changes.refl _ _

theorem State.takeBank_changes (s : State) (a : Nat) :
    Changes [.cores] s (s.takeBank a) := by
  unfold State.takeBank
  refine Changes.ite ?_ ?_
  · dsimp only
    refine Changes.step ?_ (State.setCore_changes _ _ _) rfl
    exact Changes.refl _ _
  · exact Changes.refl _ _

theorem State.giveBanks_changes (s : State) (l : List (Nat × Nat)) : Changes [.cores] s (s.giveBanks l).1 := by
  induction l generalizing s with
  | nil => exact Changes.refl _ _
  | cons p rest ih =>
    unfold State.giveBanks
    refine Changes.iteFst ?_ ?_
    · split
      refine Changes.mkFst ?_
      refine Changes.ofPair (by assumption) ?_
      refine Changes.trans ?_ (ih _)
      refine Changes.step ?_ (State.takeBank_changes _ _) rfl
      exact Changes.refl _ _
    · split
      refine Changes.mkFst ?_
      refine Changes.ofPair (by assumption) ?_
      refine Changes.trans ?_ (ih _)
      exact Changes.refl _ _

theorem State.lateAccess_changes (s : State) (n : Nat) (u : UnitId) :
    Changes [.regs, .die, .cores, .mesh, .idle, .diag, .ibis, .outs] s (s.lateAccess n u) := by
  unfold State.lateAccess
  split
  · exact Changes.refl _ _
  · dsimp only
    refine Changes.step ?_ (State.holdOn_changes _ _) rfl
    refine Changes.ite ?_ ?_
    · exact Changes.refl _ _
    · refine Changes.step ?_ (State.logCore_changes _ _ _ _ _ _) rfl
      refine Changes.step ?_ (State.setRun_changes _ _ _ _) rfl
      exact Changes.refl _ _

theorem State.arrayMissed_changes (s : State) (n : Nat) :
    Changes [.cores] s (s.arrayMissed n) := by
  unfold State.arrayMissed
  refine Changes.step ?_ (State.setCore_changes _ _ _) rfl
  exact Changes.refl _ _

theorem State.arrayCheck_changes (s : State) (n : Nat) :
    Changes [.regs, .die, .cores, .mesh, .idle, .diag, .ibis, .outs] s (s.arrayCheck n) := by
  unfold State.arrayCheck
  dsimp only
  refine Changes.ite ?_ ?_
  · refine Changes.step ?_ (State.lateAccess_changes _ _ _) rfl
    refine Changes.step ?_ (State.setCore_changes _ _ _) rfl
    exact Changes.refl _ _
  · exact Changes.refl _ _

theorem State.arrayFill_changes (s : State) (n : Nat) (o : MmulOp) (q f : Nat) :
    Changes [.regs, .cores, .mesh, .idle, .diag, .ibis, .outs] s (s.arrayFill n o q f) := by
  unfold State.arrayFill
  dsimp only
  refine Changes.step ?_ (State.setCore_changes _ _ _) rfl
  refine Changes.iteFst ?_ ?_
  · refine Changes.step ?_ (State.readLines_changes _ _ _ _ _) rfl
    refine Changes.step ?_ (State.readLines_changes _ _ _ _ _) rfl
    exact Changes.refl _ _
  · refine Changes.mkFst ?_
    refine Changes.step ?_ (State.readLines_changes _ _ _ _ _) rfl
    exact Changes.refl _ _

theorem State.arraySwap_changes (s : State) (n : Nat) :
    Changes [.cores] s (s.arraySwap n) := by
  unfold State.arraySwap
  dsimp only
  refine Changes.step ?_ (State.setCore_changes _ _ _) rfl
  exact Changes.refl _ _

theorem State.feedRow_changes (s : State) (n : Nat) (o : MmulOp) (q m j act sc : Nat) :
    Changes [.cores] s (s.feedRow n o q m j act sc) := by
  unfold State.feedRow
  split
  dsimp only
  refine Changes.step ?_ (State.setCore_changes _ _ _) rfl
  exact Changes.refl _ _

theorem State.readIndex_changes (s : State) (n : Nat) (o : MmulOp) (t : Nat) :
    Changes [.regs, .cores, .mesh, .idle, .diag, .ibis, .outs] s (s.readIndex n o t) := by
  unfold State.readIndex
  split
  · refine Changes.ite ?_ ?_
    · dsimp only
      refine Changes.iteThen ?_ ?_
      · refine Changes.iteThen ?_ ?_
        · refine Changes.step ?_ (State.modRun_changes _ _ _ _) rfl
          refine Changes.step ?_ (State.readLines_changes _ _ _ _ _) rfl
          refine Changes.step ?_ (State.claim_changes _ _ _) rfl
          exact Changes.refl _ _
        · refine Changes.step ?_ (State.setCore_changes _ _ _) rfl
          exact Changes.refl _ _
      · refine Changes.step ?_ (State.arrayMissed_changes _ _) rfl
        exact Changes.refl _ _
    · exact Changes.refl _ _
  · exact Changes.refl _ _

theorem State.arrayFeed_changes (s : State) (n : Nat) (r : RunOp) (o : MmulOp) (t : Nat) :
    Changes [.regs, .cores, .mesh, .idle, .diag, .ibis, .outs] s (s.arrayFeed n r o t) := by
  unfold State.arrayFeed
  split
  · exact Changes.refl _ _
  · split
    · refine Changes.ite ?_ ?_
      · refine Changes.step ?_ (State.logCore_changes _ _ _ _ _ _) rfl
        refine Changes.step ?_ (State.setRun_changes _ _ _ _) rfl
        exact Changes.refl _ _
      · exact Changes.refl _ _
    · split
      dsimp only
      refine Changes.iteThen ?_ ?_
      · refine Changes.step ?_ (State.feedRow_changes _ _ _ _ _ _ _ _) rfl
        refine Changes.iteThen ?_ ?_
        · refine Changes.step ?_ (State.readLines_changes _ _ _ _ _) rfl
          refine Changes.step ?_ (State.claim_changes _ _ _) rfl
          refine Changes.step ?_ (State.readLines_changes _ _ _ _ _) rfl
          refine Changes.step ?_ (State.claim_changes _ _ _) rfl
          exact Changes.refl _ _
        · refine Changes.step ?_ (State.setCore_changes _ _ _) rfl
          exact Changes.refl _ _
      · refine Changes.step ?_ (State.arrayMissed_changes _ _) rfl
        exact Changes.refl _ _

theorem State.arrayDrain_changes (s : State) (n : Nat) (r : RunOp) (o : MmulOp) (t : Nat) :
    Changes [.regs, .mem, .ecc, .cores, .mesh, .idle, .diag, .ibis, .outs] s (s.arrayDrain n r o t) := by
  unfold State.arrayDrain
  refine Changes.ite ?_ ?_
  · exact Changes.refl _ _
  · dsimp only
    refine Changes.iteThen ?_ ?_
    · refine Changes.step ?_ (State.applyWrites_changes _ _ _ _ _) rfl
      refine Changes.step ?_ (State.modRun_changes _ _ _ _) rfl
      refine Changes.foldlFst ?_ (fun _ _ _ => ?_)
      · refine Changes.mkFst ?_
        exact Changes.refl _ _
      · refine Changes.mkFst ?_
        refine Changes.step ?_ (State.claim_changes _ _ _) rfl
        refine Changes.mkFst ?_
        exact Changes.refl _ _
    · refine Changes.step ?_ (State.arrayMissed_changes _ _) rfl
      exact Changes.refl _ _

theorem State.arrayBeat_changes (s : State) (n : Nat) :
    Changes [.regs, .mem, .ecc, .cores, .mesh, .idle, .diag, .ibis, .outs] s (s.arrayBeat n) := by
  unfold State.arrayBeat
  split
  · exact Changes.refl _ _
  · dsimp only
    split
    · refine Changes.step ?_ (State.arrayDrain_changes _ _ _ _ _) rfl
      refine Changes.step ?_ (State.readIndex_changes _ _ _ _) rfl
      split
      · refine Changes.step ?_ (State.arrayFeed_changes _ _ _ _ _) rfl
        split
        · refine Changes.step ?_ (State.arrayFill_changes _ _ _ _ _) rfl
          refine Changes.ite ?_ ?_
          · refine Changes.step ?_ (State.arraySwap_changes _ _) rfl
            exact Changes.refl _ _
          · exact Changes.refl _ _
        · refine Changes.ite ?_ ?_
          · refine Changes.step ?_ (State.arraySwap_changes _ _) rfl
            exact Changes.refl _ _
          · exact Changes.refl _ _
      · split
        · refine Changes.step ?_ (State.arrayFill_changes _ _ _ _ _) rfl
          refine Changes.ite ?_ ?_
          · refine Changes.step ?_ (State.arraySwap_changes _ _) rfl
            exact Changes.refl _ _
          · exact Changes.refl _ _
        · refine Changes.ite ?_ ?_
          · refine Changes.step ?_ (State.arraySwap_changes _ _) rfl
            exact Changes.refl _ _
          · exact Changes.refl _ _
    · refine Changes.step ?_ (State.readIndex_changes _ _ _ _) rfl
      split
      · refine Changes.step ?_ (State.arrayFeed_changes _ _ _ _ _) rfl
        split
        · refine Changes.step ?_ (State.arrayFill_changes _ _ _ _ _) rfl
          refine Changes.ite ?_ ?_
          · refine Changes.step ?_ (State.arraySwap_changes _ _) rfl
            exact Changes.refl _ _
          · exact Changes.refl _ _
        · refine Changes.ite ?_ ?_
          · refine Changes.step ?_ (State.arraySwap_changes _ _) rfl
            exact Changes.refl _ _
          · exact Changes.refl _ _
      · split
        · refine Changes.step ?_ (State.arrayFill_changes _ _ _ _ _) rfl
          refine Changes.ite ?_ ?_
          · refine Changes.step ?_ (State.arraySwap_changes _ _) rfl
            exact Changes.refl _ _
          · exact Changes.refl _ _
        · refine Changes.ite ?_ ?_
          · refine Changes.step ?_ (State.arraySwap_changes _ _) rfl
            exact Changes.refl _ _
          · exact Changes.refl _ _

theorem State.mmulStart_changes (s : State) (n : Nat) (d : List Word) :
    Changes [.regs, .mem, .ecc, .cores, .mesh, .idle, .diag, .ibis, .outs] s (s.mmulStart n d) := by
  unfold State.mmulStart
  dsimp only
  refine Changes.step ?_ (State.arrayBeat_changes _ _) rfl
  refine Changes.step ?_ (State.put_changes _ _ _ _) rfl
  refine Changes.step ?_ (State.put_changes _ _ _ _) rfl
  refine Changes.step ?_ (State.modRun_changes _ _ _ _) rfl
  refine Changes.step ?_ (State.setCore_changes _ _ _) rfl
  exact Changes.refl _ _

theorem State.mmulEnd_changes (s : State) (n : Nat) (r : RunOp) :
    Changes [.regs, .mesh, .idle, .diag, .ibis, .outs] s (s.mmulEnd n r) := by
  unfold State.mmulEnd
  dsimp only
  refine Changes.iteThen ?_ ?_
  · refine Changes.step ?_ (State.addTo_changes _ _ _ _) rfl
    refine Changes.step ?_ (State.put_changes _ _ _ _) rfl
    refine Changes.step ?_ (State.hwSet_changes _ _ _ _) rfl
    refine Changes.step ?_ (State.put_changes _ _ _ _) rfl
    refine Changes.step ?_ (State.hwSet_changes _ _ _ _) rfl
    refine Changes.step ?_ (State.put_changes _ _ _ _) rfl
    exact Changes.refl _ _
  · refine Changes.step ?_ (State.logCore_changes _ _ _ _ _ _) rfl
    exact Changes.refl _ _

theorem State.startMmul_changes (s : State) (n : Nat) (legacy : Bool) :
    Changes [.regs, .mem, .ecc, .die, .cores, .mesh, .idle, .diag, .ibis, .outs] s (s.startMmul n legacy) := by
  unfold State.startMmul
  refine Changes.startOp ?_ (fun _ _ _ => ?_)
  · exact Changes.refl _ _
  · refine Changes.step ?_ (State.mmulStart_changes _ _ _) rfl
    exact Changes.refl _ _

theorem execMmul_changes (core : Fin 256) (s : State) :
    OutChanges [.regs, .mem, .ecc, .die, .cores, .mesh, .idle, .diag, .ibis, .outs] s (execMmul core s) := by
  unfold execMmul
  refine OutChanges.next ?_
  refine Changes.step ?_ (State.startMmul_changes _ _ _) rfl
  exact Changes.refl _ _

theorem execLmmul_changes (core : Fin 256) (s : State) :
    OutChanges [.regs, .mem, .ecc, .die, .cores, .mesh, .idle, .diag, .ibis, .outs] s (execLmmul core s) := by
  unfold execLmmul
  refine OutChanges.next ?_
  refine Changes.step ?_ (State.startMmul_changes _ _ _) rfl
  exact Changes.refl _ _

/-! ### Mesh -/

theorem State.mcSet_changes (s : State) (e : McEntry) :
    Changes [.mesh] s (s.mcSet e) := by
  unfold State.mcSet
  refine Changes.record ?_ (by intro p; cases p <;> first | exact .inl rfl | exact .inr ⟨rfl, rfl⟩ | exact .inr (by dsimp only [Part.same]))
  exact Changes.refl _ _

theorem State.mcDel_changes (s : State) (node id : Nat) :
    Changes [.mesh] s (s.mcDel node id) := by
  unfold State.mcDel
  refine Changes.record ?_ (by intro p; cases p <;> first | exact .inl rfl | exact .inr ⟨rfl, rfl⟩ | exact .inr (by dsimp only [Part.same]))
  exact Changes.refl _ _

theorem State.freeCredit_changes (s : State) (f : Flit) :
    Changes [.fabric] s (s.freeCredit f) := by
  unfold State.freeCredit
  split
  · exact Changes.refl _ _
  · dsimp only
    refine Changes.ite ?_ ?_
    · exact Changes.refl _ _
    · refine Changes.step ?_ (State.setPort_changes _ _ _) rfl
      exact Changes.refl _ _

theorem State.admitFlit_changes (s : State) (f : Flit) :
    Changes [.mesh, .fabric] s (s.admitFlit f) := by
  unfold State.admitFlit
  refine Changes.ite ?_ ?_
  · refine Changes.step ?_ (State.freeCredit_changes _ _) rfl
    exact Changes.refl _ _
  · refine Changes.step ?_ (State.addFlit_changes _ _) rfl
    exact Changes.refl _ _

theorem State.replyBack_changes (s : State) (node : Nat) (input : Branch) (port : MeshPort) (at_ : Nat) (ty id : Nat) (pay : BitVec 512) :
    Changes [.mesh, .outs] s (s.replyBack node input port at_ ty id pay) := by
  unfold State.replyBack
  dsimp only
  refine Changes.step ?_ (State.addFlit_changes _ _) rfl
  exact Changes.refl _ _

theorem State.countBusy_changes (s : State) :
    Changes [.regs] s (s.countBusy) := by
  unfold State.countBusy
  refine Changes.step ?_ (State.addSat_changes _ _ _ _) rfl
  exact Changes.refl _ _

theorem State.enter_changes (s : State) (node : Nat) (input : Branch) (src at_ : Nat) (b : Barge) :
    Changes [.regs, .mesh, .fabric, .idle, .diag, .ibis, .outs] s (s.enter node input src at_ b) := by
  unfold State.enter
  split
  · refine Changes.step ?_ (State.logErr_changes _ _) rfl
    refine Changes.step ?_ (State.addSat_changes _ _ _ _) rfl
    exact Changes.refl _ _
  · dsimp only
    refine Changes.ite ?_ ?_
    · refine Changes.step ?_ (State.addFlit_changes _ _) rfl
      exact Changes.refl _ _
    · split
      · refine Changes.ite ?_ ?_
        · refine Changes.step ?_ (State.admitFlit_changes _ _) rfl
          refine Changes.step ?_ (State.mcSet_changes _ _) rfl
          exact Changes.refl _ _
        · refine Changes.step ?_ (State.freeCredit_changes _ _) rfl
          exact Changes.refl _ _
      · refine Changes.ite ?_ ?_
        · refine Changes.step ?_ (State.replyBack_changes _ _ _ _ _ _ _ _) rfl
          refine Changes.step ?_ (State.countBusy_changes _) rfl
          exact Changes.refl _ _
        · refine Changes.ite ?_ ?_
          · refine Changes.step ?_ (State.admitFlit_changes _ _) rfl
            exact Changes.refl _ _
          · refine Changes.ite ?_ ?_
            · refine Changes.step ?_ (State.admitFlit_changes _ _) rfl
              refine Changes.step ?_ (State.mcDel_changes _ _ _) rfl
              exact Changes.refl _ _
            · refine Changes.ite ?_ ?_
              · refine Changes.step ?_ (State.mcSet_changes _ _) rfl
                exact Changes.refl _ _
              · refine Changes.step ?_ (State.mcSet_changes _ _) rfl
                exact Changes.refl _ _

theorem State.combine_changes (s : State) (node id : Nat) :
    Changes [.mesh, .outs] s (s.combine node id) := by
  unfold State.combine
  split
  · exact Changes.refl _ _
  · dsimp only
    refine Changes.ite ?_ ?_
    · exact Changes.refl _ _
    · refine Changes.ite ?_ ?_
      · split
        · refine Changes.step ?_ (State.replyBack_changes _ _ _ _ _ _ _ _) rfl
          refine Changes.step ?_ (State.mcSet_changes _ _) rfl
          exact Changes.refl _ _
        · refine Changes.step ?_ (State.replyBack_changes _ _ _ _ _ _ _ _) rfl
          refine Changes.step ?_ (State.mcSet_changes _ _) rfl
          exact Changes.refl _ _
      · refine Changes.ite ?_ ?_
        · refine Changes.step ?_ (State.replyBack_changes _ _ _ _ _ _ _ _) rfl
          refine Changes.step ?_ (State.mcDel_changes _ _ _) rfl
          exact Changes.refl _ _
        · exact Changes.refl _ _

theorem State.injectRaw_changes (s : State) (a : Agent) (via src d : Nat) (b : Barge) :
    Changes [.regs, .mesh, .fabric, .idle, .diag, .ibis, .outs] s (s.injectRaw a via src d b) := by
  unfold State.injectRaw
  split
  split
  refine Changes.step ?_ (State.enter_changes _ _ _ _ _ _) rfl
  refine Changes.ofPair (by assumption) ?_
  refine Changes.step ?_ (State.takeWidth_changes _ _ _ _) rfl
  exact Changes.refl _ _

theorem State.inject_changes (s : State) (a : Agent) (src d : Nat) (b : Barge) :
    Changes [.regs, .mesh, .fabric, .idle, .diag, .ibis, .outs] s (s.inject a src d b) := by
  unfold State.inject
  dsimp only
  refine Changes.ite ?_ ?_
  · refine Changes.step ?_ (State.injectRaw_changes _ _ _ _ _ _) rfl
    exact Changes.refl _ _
  · refine Changes.ite ?_ ?_
    · refine Changes.step ?_ (State.injectRaw_changes _ _ _ _ _ _) rfl
      exact Changes.refl _ _
    · split
      · refine Changes.step ?_ (State.injectRaw_changes _ _ _ _ _ _) rfl
        exact Changes.refl _ _
      · refine Changes.step ?_ (State.logErr_changes _ _) rfl
        exact Changes.refl _ _

theorem State.injectPrimary_changes (s : State) (a : Agent) (b : Barge) :
    Changes [.regs, .mesh, .fabric, .idle, .diag, .ibis, .outs] s (s.injectPrimary a b) := by
  unfold State.injectPrimary
  dsimp only
  refine Changes.ite ?_ ?_
  · refine Changes.step ?_ (State.injectRaw_changes _ _ _ _ _ _) rfl
    refine Changes.step ?_ (State.wakeOn_changes _ _) rfl
    exact Changes.refl _ _
  · refine Changes.ite ?_ ?_
    · refine Changes.step ?_ (State.injectRaw_changes _ _ _ _ _ _) rfl
      refine Changes.step ?_ (State.wakeOn_changes _ _) rfl
      exact Changes.refl _ _
    · refine Changes.step ?_ (State.logErr_changes _ _) rfl
      refine Changes.step ?_ (State.wakeOn_changes _ _) rfl
      exact Changes.refl _ _

theorem State.freeRoom_changes (s : State) (key b : Nat) :
    Changes [.mesh] s (s.freeRoom key b) := by
  unfold State.freeRoom
  dsimp only
  refine Changes.record ?_ (by intro p; cases p <;> first | exact .inl rfl | exact .inr ⟨rfl, rfl⟩ | exact .inr (by dsimp only [Part.same]))
  exact Changes.refl _ _

theorem State.arriveAt_changes (s : State) (a : Agent) (node at_ : Nat) (b : Barge) :
    Changes [.mesh] s (s.arriveAt a node at_ b) := by
  unfold State.arriveAt
  refine Changes.ite ?_ ?_
  · exact Changes.refl _ _
  · refine Changes.record ?_ (by intro p; cases p <;> first | exact .inl rfl | exact .inr ⟨rfl, rfl⟩ | exact .inr (by dsimp only [Part.same]))
    exact Changes.refl _ _

theorem State.takeFlit_changes (s : State) (f : Flit) (br : Branch) (b : Nat) :
    Changes [.regs, .mesh, .fabric, .idle, .diag, .ibis, .outs] s (s.takeFlit f br b) := by
  unfold State.takeFlit
  refine Changes.ite ?_ ?_
  · refine Changes.ite ?_ ?_
    · refine Changes.step ?_ (State.arriveAt_changes _ _ _ _ _) rfl
      exact Changes.refl _ _
    · exact Changes.refl _ _
  · refine Changes.ite ?_ ?_
    · split
      · refine Changes.step ?_ (State.arriveAt_changes _ _ _ _ _) rfl
        exact Changes.refl _ _
      · refine Changes.step ?_ (State.atExit_changes _ _ _ _) rfl
        exact Changes.refl _ _
    · refine Changes.step ?_ (State.enter_changes _ _ _ _ _ _) rfl
      exact Changes.refl _ _

theorem State.takeAll_changes (s : State) (node : Nat) (out : MeshPort) (b k w : Nat) (bl : List (MeshPort × Nat)) (l : List Flit) :
    Changes [.regs, .mesh, .fabric, .idle, .diag, .ibis, .outs] s (s.takeAll node out b k w bl l) := by
  induction k generalizing s w bl l with
  | zero => exact Changes.refl _ _
  | succ k ih =>
    unfold State.takeAll
    split
    · exact Changes.refl _ _
    · exact Changes.refl _ _
    · exact Changes.refl _ _
    · rename_i hk
      cases hk
      split
      · exact ih _ _ _ _
      · dsimp only
        refine Changes.ite (ih _ _ _ _) ?_
        refine Changes.ite (Changes.trans ?_ (ih _ _ _ _)) (Changes.trans ?_ (ih _ _ _ _))
        all_goals
          refine Changes.step ?_ (State.takeFlit_changes _ _ _ _) rfl
          refine Changes.iteThen ?_ ?_
          · refine Changes.record ?_ (by intro p; cases p <;> first | exact .inl rfl | exact .inr rfl)
            exact Changes.refl _ _
          · refine Changes.step ?_ (State.freeCredit_changes _ _) rfl
            refine Changes.step ?_ (State.freeRoom_changes _ _ _) rfl
            exact Changes.refl _ _

theorem State.forward_changes (s : State) (node : Nat) (out : MeshPort) :
    Changes [.regs, .mesh, .fabric, .idle, .diag, .ibis, .outs] s (s.forward node out) := by
  unfold State.forward
  dsimp only
  refine Changes.ite ?_ ?_
  · exact Changes.refl _ _
  · refine Changes.ite ?_ ?_
    · exact Changes.refl _ _
    · refine Changes.step ?_ (State.takeAll_changes _ _ _ _ _ _ _ _) rfl
      refine Changes.record ?_ (by intro p; cases p <;> first | exact .inl rfl | exact .inr ⟨rfl, rfl⟩ | exact .inr (by dsimp only [Part.same]))
      exact Changes.refl _ _

theorem State.takeArrival_some {s t : State} {a : Agent} {p : Barge → Bool} {x : Arrival} (h : s.takeArrival a p = some (x, t)) :
    Changes [.mesh] s t := by
  unfold State.takeArrival at h
  split at h
  · simp only [Option.some.injEq, Prod.mk.injEq] at h
    obtain ⟨-, rfl⟩ := h
    refine Changes.iteElse ?_ (State.freeRoom_changes _ _ _)
    exact Changes.record (Changes.refl _ _) (by intro p; cases p <;> first | exact .inl rfl | exact .inr rfl | exact .inr ⟨rfl, rfl⟩)
  · cases h

theorem execBargeForward_changes (node : Fin 256) (out : MeshPort) (s : State) :
    OutChanges [.regs, .mesh, .fabric, .idle, .diag, .ibis, .outs] s (execBargeForward node out s) := by
  unfold execBargeForward
  refine OutChanges.next ?_
  refine Changes.foldl ?_ (fun _ _ => ?_)
  · exact Changes.refl _ _
  · refine Changes.step ?_ (State.forward_changes _ _ _) rfl
    exact Changes.refl _ _

theorem execMcastReplyCombine_changes (node : Fin 256) (id : BitVec 12) (s : State) :
    OutChanges [.mesh, .outs] s (execMcastReplyCombine node id s) := by
  unfold execMcastReplyCombine
  refine OutChanges.next ?_
  refine Changes.step ?_ (State.combine_changes _ _ _) rfl
  exact Changes.refl _ _

/-! ### Transfers -/

theorem State.setLand_changes (s : State) (k : Nat) (l : Landing) :
    Changes [.mesh] s (s.setLand k l) := by
  unfold State.setLand
  refine Changes.record ?_ (by intro p; cases p <;> first | exact .inl rfl | exact .inr ⟨rfl, rfl⟩ | exact .inr (by dsimp only [Part.same]))
  exact Changes.refl _ _

theorem State.freeLand_changes (s : State) (k : Nat) :
    Changes [.mesh] s (s.freeLand k) := by
  unfold State.freeLand
  refine Changes.record ?_ (by intro p; cases p <;> first | exact .inl rfl | exact .inr ⟨rfl, rfl⟩ | exact .inr (by dsimp only [Part.same]))
  exact Changes.refl _ _

theorem State.berthClaim_changes (s : State) (n b u off stride rows rowB : Nat) :
    Changes [.regs] s (s.berthClaim n b u off stride rows rowB).1 := by
  unfold State.berthClaim
  dsimp only
  refine Changes.iteFst ?_ ?_
  · refine Changes.mkFst ?_
    refine Changes.step ?_ (State.hwSet_changes _ _ _ _) rfl
    exact Changes.refl _ _
  · refine Changes.iteFst ?_ ?_
    · refine Changes.mkFst ?_
      refine Changes.step ?_ (State.hwSet_changes _ _ _ _) rfl
      exact Changes.refl _ _
    · refine Changes.mkFst ?_
      refine Changes.step ?_ (State.put_changes _ _ _ _) rfl
      exact Changes.refl _ _

theorem State.reply_changes (s : State) (a : Agent) (ty srcChip srcCore src : Nat) (mcast : Option Nat) (pay : BitVec 512) :
    Changes [.regs, .mesh, .fabric, .idle, .diag, .ibis, .outs] s (s.reply a ty srcChip srcCore src mcast pay) := by
  unfold State.reply
  dsimp only
  refine Changes.step ?_ (State.inject_changes _ _ _ _ _) rfl
  exact Changes.refl _ _

theorem State.openAt_changes (s : State) (a : Agent) (now : Nat) (b : Barge) :
    Changes [.regs, .mesh, .fabric, .idle, .diag, .ibis, .outs] s (s.openAt a now b) := by
  unfold State.openAt
  dsimp only
  split
  · refine Changes.step ?_ (State.reply_changes _ _ _ _ _ _ _ _) rfl
    refine Changes.step ?_ (State.countBusy_changes _) rfl
    exact Changes.refl _ _
  · refine Changes.ite ?_ ?_
    · refine Changes.step ?_ (State.reply_changes _ _ _ _ _ _ _ _) rfl
      split
      · refine Changes.iteFst ?_ ?_
        · refine Changes.step ?_ (State.berthClaim_changes _ _ _ _ _ _ _ _) rfl
          exact Changes.refl _ _
        · refine Changes.mkFst ?_
          exact Changes.refl _ _
      · refine Changes.mkFst ?_
        exact Changes.refl _ _
    · refine Changes.step ?_ (State.reply_changes _ _ _ _ _ _ _ _) rfl
      refine Changes.step ?_ (State.setLand_changes _ _ _) rfl
      split
      · refine Changes.iteFst ?_ ?_
        · refine Changes.step ?_ (State.berthClaim_changes _ _ _ _ _ _ _ _) rfl
          exact Changes.refl _ _
        · refine Changes.mkFst ?_
          exact Changes.refl _ _
      · refine Changes.mkFst ?_
        exact Changes.refl _ _

theorem State.slotDone_changes (s : State) (a : Agent) (k : Nat) (l : Landing) :
    Changes [.regs, .mesh, .fabric, .idle, .diag, .ibis, .outs] s (s.slotDone a k l) := by
  unfold State.slotDone
  dsimp only
  refine Changes.step ?_ (State.reply_changes _ _ _ _ _ _ _ _) rfl
  refine Changes.step ?_ (State.setLand_changes _ _ _) rfl
  split
  · refine Changes.step ?_ (State.put_changes _ _ _ _) rfl
    refine Changes.step ?_ (State.addTo_changes _ _ _ _) rfl
    exact Changes.refl _ _
  · exact Changes.refl _ _

theorem State.setPc_changes (s : State) (k : Nat) (x : HoldPc) :
    Changes [.holds] s (s.setPc k x) := by
  unfold State.setPc
  refine Changes.record ?_ (by intro p; cases p <;> first | exact .inl rfl | exact .inr ⟨rfl, rfl⟩ | exact .inr (by dsimp only [Part.same]))
  exact Changes.refl _ _

theorem State.holdRequest_changes (s : State) (node addr len : Nat) (write : Option (List (Nat × List Byte × List Bool))) (f : HoldFor) :
    Changes [.holds] s (s.holdRequest node addr len write f) := by
  unfold State.holdRequest
  dsimp only
  refine Changes.step ?_ (State.setPc_changes _ _ _) rfl
  exact Changes.refl _ _

theorem State.sendGather_changes (s : State) (node k : Nat) (l : Landing) :
    Changes [.mesh, .holds] s (s.sendGather node k l) := by
  unfold State.sendGather
  split
  · refine Changes.step ?_ (State.setLand_changes _ _ _) rfl
    exact Changes.refl _ _
  · refine Changes.step ?_ (State.holdRequest_changes _ _ _ _ _ _) rfl
    refine Changes.step ?_ (State.setLand_changes _ _ _) rfl
    exact Changes.refl _ _

theorem State.gatherData_changes (s : State) (node k : Nat) (l : Landing) (a : Nat) (bs : List Byte) (bad : List Bool) :
    Changes [.regs, .cores, .mesh, .holds, .idle, .diag, .ibis, .outs] s (s.gatherData node k l a bs bad) := by
  unfold State.gatherData
  dsimp only
  refine Changes.iteThen ?_ ?_
  · refine Changes.foldl ?_ (fun _ _ => ?_)
    · refine Changes.step ?_ (State.setLand_changes _ _ _) rfl
      exact Changes.refl _ _
    · refine Changes.ite ?_ ?_
      · refine Changes.step ?_ (State.sendGather_changes _ _ _ _) rfl
        refine Changes.ite ?_ ?_
        · exact Changes.refl _ _
        · refine Changes.step ?_ (State.sendGather_changes _ _ _ _) rfl
          exact Changes.refl _ _
      · refine Changes.step ?_ (State.setLand_changes _ _ _) rfl
        refine Changes.ite ?_ ?_
        · exact Changes.refl _ _
        · refine Changes.step ?_ (State.sendGather_changes _ _ _ _) rfl
          exact Changes.refl _ _
  · refine Changes.step ?_ (State.sendGather_changes _ _ _ _) rfl
    exact Changes.refl _ _

theorem State.noteLogged_changes (s : State) (chip core src : Nat) (codes : List Nat) :
    Changes [.cores] s (s.noteLogged chip core src codes) := by
  unfold State.noteLogged
  refine Changes.ite ?_ ?_
  · refine Changes.step ?_ (State.modRun_changes _ _ _ _) rfl
    exact Changes.refl _ _
  · exact Changes.refl _ _

theorem State.logLand_changes (s : State) (core : Option Nat) (codes : List (Nat × Nat)) (logged : List Nat) :
    Changes [.regs, .mesh, .idle, .diag, .ibis, .outs] s (s.logLand core codes logged).1 := by
  unfold State.logLand
  refine Changes.foldlFst ?_ (fun _ _ _ => ?_)
  · refine Changes.mkFst ?_
    exact Changes.refl _ _
  · refine Changes.iteFst ?_ ?_
    · refine Changes.mkFst ?_
      exact Changes.refl _ _
    · refine Changes.mkFst ?_
      refine Changes.step ?_ (State.logErr_changes _ _) rfl
      refine Changes.mkFst ?_
      exact Changes.refl _ _

theorem State.landData_changes (s : State) (a : Agent) (node k : Nat) (l : Landing) (b : Barge) :
    Changes [.regs, .cores, .mesh, .holds, .idle, .diag, .ibis, .outs] s (s.landData a node k l b) := by
  unfold State.landData
  dsimp only
  split
  · refine Changes.step ?_ (State.refresh_changes _ _) rfl
    refine Changes.step ?_ (State.setCore_changes _ _ _) rfl
    refine Changes.step ?_ (State.setLand_changes _ _ _) rfl
    refine Changes.iteThen ?_ ?_
    · refine Changes.step ?_ (State.noteLogged_changes _ _ _ _ _) rfl
      refine Changes.step ?_ (State.logLand_changes _ _ _ _) rfl
      refine Changes.ite ?_ ?_
      · exact Changes.refl _ _
      · refine Changes.step ?_ (State.addSat_changes _ _ _ _) rfl
        exact Changes.refl _ _
    · refine Changes.step ?_ (State.put_changes _ _ _ _) rfl
      exact Changes.refl _ _
  · refine Changes.step ?_ (State.gatherData_changes _ _ _ _ _ _ _) rfl
    refine Changes.iteThen ?_ ?_
    · refine Changes.step ?_ (State.noteLogged_changes _ _ _ _ _) rfl
      refine Changes.step ?_ (State.logLand_changes _ _ _ _) rfl
      refine Changes.ite ?_ ?_
      · exact Changes.refl _ _
      · refine Changes.step ?_ (State.addSat_changes _ _ _ _) rfl
        exact Changes.refl _ _
    · refine Changes.step ?_ (State.put_changes _ _ _ _) rfl
      exact Changes.refl _ _

theorem State.setTx_changes (s : State) (n sl : Nat) (x : Tx) :
    Changes [.mesh] s (s.setTx n sl x) := by
  unfold State.setTx
  refine Changes.record ?_ (by intro p; cases p <;> first | exact .inl rfl | exact .inr ⟨rfl, rfl⟩ | exact .inr (by dsimp only [Part.same]))
  exact Changes.refl _ _

theorem State.delTx_changes (s : State) (n sl : Nat) :
    Changes [.mesh] s (s.delTx n sl) := by
  unfold State.delTx
  refine Changes.record ?_ (by intro p; cases p <;> first | exact .inl rfl | exact .inr ⟨rfl, rfl⟩ | exact .inr (by dsimp only [Part.same]))
  exact Changes.refl _ _

theorem State.mapData_changes (s : State) (n sl : Nat) (b : Barge) :
    Changes [.regs, .cores, .mesh, .idle, .diag, .ibis, .outs] s (s.mapData n sl b) := by
  unfold State.mapData
  split
  · exact Changes.refl _ _
  · split
    split
    dsimp only
    refine Changes.step ?_ (State.setTx_changes _ _ _ _) rfl
    refine Changes.iteThen ?_ ?_
    · refine Changes.step ?_ (State.noteLogged_changes _ _ _ _ _) rfl
      refine Changes.step ?_ (State.logLand_changes _ _ _ _) rfl
      exact Changes.refl _ _
    · refine Changes.step ?_ (State.taint_changes _ _ _ _) rfl
      refine Changes.step ?_ (State.put_changes _ _ _ _) rfl
      exact Changes.refl _ _

theorem execDataBarge_changes (a : Agent) (s : State) :
    OutChanges [.regs, .cores, .mesh, .holds, .idle, .diag, .ibis, .outs] s (execDataBarge a s) := by
  unfold execDataBarge
  split
  · refine OutChanges.next ?_
    exact Changes.refl _ _
  · split
    · refine OutChanges.ite ?_ ?_
      · split
        · refine OutChanges.next ?_
          refine Changes.step ?_ (State.landData_changes _ _ _ _ _ _) rfl
          refine Changes.step ?_ (State.takeArrival_some (by assumption)) rfl
          exact Changes.refl _ _
        · refine OutChanges.next ?_
          refine Changes.step ?_ (State.takeArrival_some (by assumption)) rfl
          exact Changes.refl _ _
      · refine OutChanges.next ?_
        refine Changes.step ?_ (State.mapData_changes _ _ _ _) rfl
        refine Changes.step ?_ (State.takeArrival_some (by assumption)) rfl
        exact Changes.refl _ _
    · split
      · refine OutChanges.next ?_
        refine Changes.step ?_ (State.landData_changes _ _ _ _ _ _) rfl
        refine Changes.step ?_ (State.takeArrival_some (by assumption)) rfl
        exact Changes.refl _ _
      · refine OutChanges.next ?_
        refine Changes.step ?_ (State.takeArrival_some (by assumption)) rfl
        exact Changes.refl _ _

theorem State.writeIngress_changes (s : State) (n : Nat) (g : Ingress) (ls : List Nat) :
    Changes [.regs, .mem, .ecc, .cores, .mesh, .fabric, .idle, .diag, .ibis, .outs] s (s.writeIngress n g ls) := by
  unfold State.writeIngress
  dsimp only
  refine Changes.ite ?_ ?_
  · refine Changes.step ?_ (State.setCore_changes _ _ _) rfl
    refine Changes.foldl ?_ (fun _ _ => ?_)
    · exact Changes.refl _ _
    · refine Changes.step ?_ (State.lineWrite_changes _ _ _ _ _ _) rfl
      exact Changes.refl _ _
  · split
    · refine Changes.step ?_ (State.refresh_changes _ _) rfl
      refine Changes.step ?_ (State.setCore_changes _ _ _) rfl
      refine Changes.foldl ?_ (fun _ _ => ?_)
      · exact Changes.refl _ _
      · refine Changes.step ?_ (State.lineWrite_changes _ _ _ _ _ _) rfl
        exact Changes.refl _ _
    · refine Changes.ite ?_ ?_
      · refine Changes.step ?_ (State.freeLand_changes _ _) rfl
        refine Changes.step ?_ (State.refresh_changes _ _) rfl
        refine Changes.step ?_ (State.setCore_changes _ _ _) rfl
        refine Changes.foldl ?_ (fun _ _ => ?_)
        · exact Changes.refl _ _
        · refine Changes.step ?_ (State.lineWrite_changes _ _ _ _ _ _) rfl
          exact Changes.refl _ _
      · refine Changes.ite ?_ ?_
        · refine Changes.step ?_ (State.slotDone_changes _ _ _ _) rfl
          refine Changes.step ?_ (State.refresh_changes _ _) rfl
          refine Changes.step ?_ (State.setCore_changes _ _ _) rfl
          refine Changes.foldl ?_ (fun _ _ => ?_)
          · exact Changes.refl _ _
          · refine Changes.step ?_ (State.lineWrite_changes _ _ _ _ _ _) rfl
            exact Changes.refl _ _
        · refine Changes.step ?_ (State.setLand_changes _ _ _) rfl
          refine Changes.step ?_ (State.refresh_changes _ _) rfl
          refine Changes.step ?_ (State.setCore_changes _ _ _) rfl
          refine Changes.foldl ?_ (fun _ _ => ?_)
          · exact Changes.refl _ _
          · refine Changes.step ?_ (State.lineWrite_changes _ _ _ _ _ _) rfl
            exact Changes.refl _ _

theorem execIngressWrite_changes (core : Fin 256) (s : State) :
    OutChanges [.regs, .mem, .ecc, .cores, .mesh, .fabric, .idle, .diag, .ibis, .outs] s (execIngressWrite core s) := by
  unfold execIngressWrite
  dsimp only
  refine OutChanges.ite ?_ ?_
  · refine OutChanges.next ?_
    exact Changes.refl _ _
  · split
    · refine OutChanges.next ?_
      refine Changes.step ?_ (State.writeIngress_changes _ _ _ _) rfl
      exact Changes.refl _ _
    · split
      · refine OutChanges.ite ?_ ?_
        · refine OutChanges.next ?_
          refine Changes.step ?_ (State.writeIngress_changes _ _ _ _) rfl
          refine Changes.step ?_ (State.setCore_changes _ _ _) rfl
          exact Changes.refl _ _
        · refine OutChanges.next ?_
          exact Changes.refl _ _
      · refine OutChanges.next ?_
        exact Changes.refl _ _

theorem execWeightStoreWrite_changes (core : Fin 256) (s : State) :
    OutChanges [.regs, .mem, .ecc, .cores, .mesh, .fabric, .idle, .diag, .ibis, .outs] s (execWeightStoreWrite core s) := by
  unfold execWeightStoreWrite
  dsimp only
  refine OutChanges.ite ?_ ?_
  · refine OutChanges.next ?_
    exact Changes.refl _ _
  · split
    · refine OutChanges.next ?_
      refine Changes.step ?_ (State.writeIngress_changes _ _ _ _) rfl
      refine Changes.record ?_ (by intro p; cases p <;> first | exact .inl rfl | exact .inr ⟨rfl, rfl⟩ | exact .inr (by dsimp only [Part.same]))
      exact Changes.refl _ _
    · refine OutChanges.next ?_
      exact Changes.refl _ _

theorem State.giveIngress_changes (s : State) (n : Nat) (l : List Ingress) : Changes [.cores] s (s.giveIngress n l).1 := by
  induction l generalizing s with
  | nil => exact Changes.refl _ _
  | cons x rest ih =>
    unfold State.giveIngress
    refine Changes.iteFst ?_ ?_
    · refine Changes.trans ?_ (ih _)
      exact Changes.refl _ _
    · split
      dsimp only
      refine Changes.iteFst ?_ ?_
      · refine Changes.trans ?_ (ih _)
        refine Changes.step ?_ (State.setCore_changes _ _ _) rfl
        refine Changes.ofPair (by assumption) ?_
        refine Changes.step ?_ (State.giveBanks_changes _ _) rfl
        exact Changes.refl _ _
      · refine Changes.mkFst ?_
        refine Changes.step ?_ (State.setCore_changes _ _ _) rfl
        refine Changes.ofPair (by assumption) ?_
        refine Changes.step ?_ (State.giveBanks_changes _ _) rfl
        exact Changes.refl _ _

theorem State.giveDue_changes (s : State) (n : Nat) (l : List (Nat × Nat)) : Changes [.cores] s (s.giveDue n l) := by
  induction l generalizing s with
  | nil => exact Changes.refl _ _
  | cons g rest ih =>
    unfold State.giveDue
    refine Changes.ite ?_ ?_
    · refine Changes.trans ?_ (ih _)
      exact Changes.refl _ _
    · dsimp only
      refine Changes.ite ?_ ?_
      · refine Changes.trans ?_ (ih _)
        refine Changes.step ?_ (State.setCore_changes _ _ _) rfl
        refine Changes.step ?_ (State.giveBanks_changes _ _) rfl
        exact Changes.refl _ _
      · refine Changes.step ?_ (State.setCore_changes _ _ _) rfl
        refine Changes.step ?_ (State.giveBanks_changes _ _) rfl
        exact Changes.refl _ _

theorem State.reserveIngress_changes (s : State) (n : Nat) :
    Changes [.regs, .cores] s (s.reserveIngress n) := by
  unfold State.reserveIngress
  dsimp only
  split
  · refine Changes.ofPair (by assumption) ?_
    refine Changes.step ?_ (State.giveIngress_changes _ _ _) rfl
    refine Changes.ite ?_ ?_
    · refine Changes.step ?_ (State.addTo_changes _ _ _ _) rfl
      exact Changes.refl _ _
    · exact Changes.refl _ _
  · refine Changes.step ?_ (State.giveDue_changes _ _ _) rfl
    refine Changes.ofPair (by assumption) ?_
    refine Changes.step ?_ (State.giveIngress_changes _ _ _) rfl
    refine Changes.ite ?_ ?_
    · refine Changes.step ?_ (State.addTo_changes _ _ _ _) rfl
      exact Changes.refl _ _
    · exact Changes.refl _ _

theorem State.setReadQ_changes (s : State) (a : Agent) (q : List ReadReq) :
    Changes [.mesh] s (s.setReadQ a q) := by
  unfold State.setReadQ
  refine Changes.record ?_ (by intro p; cases p <;> first | exact .inl rfl | exact .inr ⟨rfl, rfl⟩ | exact .inr (by dsimp only [Part.same]))
  exact Changes.refl _ _

theorem execReadBarge_changes (a : Agent) (s : State) :
    OutChanges [.regs, .mesh, .fabric, .idle, .diag, .ibis, .outs] s (execReadBarge a s) := by
  unfold execReadBarge
  split
  · refine OutChanges.next ?_
    exact Changes.refl _ _
  · dsimp only
    refine OutChanges.ite ?_ ?_
    · refine OutChanges.next ?_
      refine Changes.step ?_ (State.reply_changes _ _ _ _ _ _ _ _) rfl
      refine Changes.step ?_ (State.countBusy_changes _) rfl
      refine Changes.step ?_ (State.takeArrival_some (by assumption)) rfl
      exact Changes.refl _ _
    · refine OutChanges.next ?_
      refine Changes.step ?_ (State.setReadQ_changes _ _ _) rfl
      refine Changes.record ?_ (by intro p; cases p <;> first | exact .inl rfl | exact .inr ⟨rfl, rfl⟩ | exact .inr (by dsimp only [Part.same]))
      refine Changes.step ?_ (State.takeArrival_some (by assumption)) rfl
      exact Changes.refl _ _

theorem State.noteOp_changes (s : State) (core : Option Nat) (ls : List (Nat × Bool)) (chip score src : Nat) (own : List Nat) :
    Changes [.regs, .cores, .mesh, .idle, .diag, .ibis, .outs] s (s.noteOp core ls chip score src own).1 := by
  unfold State.noteOp
  split
  refine Changes.mkFst ?_
  refine Changes.step ?_ (State.noteLogged_changes _ _ _ _ _) rfl
  refine Changes.ofPair (by assumption) ?_
  refine Changes.step ?_ (State.noteLines_changes _ _ _ _ _) rfl
  exact Changes.refl _ _

theorem State.giveInOrder_changes (s : State) (l : List (List (Nat × Nat))) : Changes [.cores] s (s.giveInOrder l).1 := by
  induction l generalizing s with
  | nil => exact Changes.refl _ _
  | cons x rest ih =>
    unfold State.giveInOrder
    split
    refine Changes.iteFst ?_ ?_
    · split
      refine Changes.mkFst ?_
      refine Changes.ofPair (by assumption) ?_
      refine Changes.trans ?_ (ih _)
      refine Changes.ofPair (by assumption) ?_
      refine Changes.step ?_ (State.giveBanks_changes _ _) rfl
      exact Changes.refl _ _
    · refine Changes.mkFst ?_
      refine Changes.ofPair (by assumption) ?_
      refine Changes.step ?_ (State.giveBanks_changes _ _) rfl
      exact Changes.refl _ _

theorem State.reserveRead_changes (s : State) (n : Nat) :
    Changes [.cores] s (s.reserveRead n) := by
  unfold State.reserveRead
  split
  · exact Changes.refl _ _
  · dsimp only
    refine Changes.step ?_ (State.setCore_changes _ _ _) rfl
    refine Changes.step ?_ (State.giveInOrder_changes _ _) rfl
    exact Changes.refl _ _

theorem State.serveCoreRead_changes (s : State) (n : Nat) (a : Agent) (k : Nat) : Changes [.regs, .cores, .mesh, .fabric, .idle, .diag, .ibis, .outs] s (s.serveCoreRead n a k) := by
  induction k generalizing s with
  | zero => exact Changes.refl _ _
  | succ k ih =>
    unfold State.serveCoreRead
    split
    · exact Changes.refl _ _
    · refine Changes.ite ?_ ?_
      · refine Changes.step ?_ (State.setReadQ_changes _ _ _) rfl
        exact Changes.refl _ _
      · split
        dsimp only
        refine Changes.ite ?_ ?_
        · exact Changes.refl _ _
        · refine Changes.ite ?_ ?_
          · refine Changes.step ?_ (State.setReadQ_changes _ _ _) rfl
            refine Changes.step ?_ (State.setCore_changes _ _ _) rfl
            refine Changes.step ?_ (State.noteOp_changes _ _ _ _ _ _ _) rfl
            exact Changes.refl _ _
          · refine Changes.ite ?_ ?_
            · refine Changes.step ?_ (State.setReadQ_changes _ _ _) rfl
              refine Changes.step ?_ (State.inject_changes _ _ _ _ _) rfl
              refine Changes.step ?_ (State.setCore_changes _ _ _) rfl
              refine Changes.step ?_ (State.noteOp_changes _ _ _ _ _ _ _) rfl
              exact Changes.refl _ _
            · refine Changes.trans ?_ (ih _)
              refine Changes.step ?_ (State.setReadQ_changes _ _ _) rfl
              refine Changes.step ?_ (State.inject_changes _ _ _ _ _) rfl
              refine Changes.step ?_ (State.setCore_changes _ _ _) rfl
              refine Changes.step ?_ (State.noteOp_changes _ _ _ _ _ _ _) rfl
              exact Changes.refl _ _

theorem State.serveHoldRead_changes (s : State) (a : Agent) (k : Nat) : Changes [.regs, .mesh, .fabric, .idle, .diag, .ibis, .outs] s (s.serveHoldRead a k) := by
  induction k generalizing s with
  | zero => exact Changes.refl _ _
  | succ k ih =>
    unfold State.serveHoldRead
    split
    · exact Changes.refl _ _
    · refine Changes.ite ?_ ?_
      · refine Changes.step ?_ (State.setReadQ_changes _ _ _) rfl
        exact Changes.refl _ _
      · split
        split
        · exact Changes.refl _ _
        · dsimp only
          refine Changes.ite ?_ ?_
          · exact Changes.refl _ _
          · refine Changes.ite ?_ ?_
            · refine Changes.step ?_ (State.setReadQ_changes _ _ _) rfl
              refine Changes.ite ?_ ?_
              · refine Changes.step ?_ (State.injectPrimary_changes _ _ _) rfl
                exact Changes.refl _ _
              · refine Changes.step ?_ (State.inject_changes _ _ _ _ _) rfl
                exact Changes.refl _ _
            · refine Changes.trans ?_ (ih _)
              refine Changes.step ?_ (State.setReadQ_changes _ _ _) rfl
              refine Changes.ite ?_ ?_
              · refine Changes.step ?_ (State.injectPrimary_changes _ _ _) rfl
                exact Changes.refl _ _
              · refine Changes.step ?_ (State.inject_changes _ _ _ _ _) rfl
                exact Changes.refl _ _

theorem State.askHold_changes (s : State) (h : Nat) (a : Agent) :
    Changes [.mesh, .holds] s (s.askHold h a) := by
  unfold State.askHold
  split
  · exact Changes.refl _ _
  · refine Changes.ite ?_ ?_
    · exact Changes.refl _ _
    · dsimp only
      refine Changes.foldlFst ?_ (fun _ _ _ => ?_)
      · refine Changes.mkFst ?_
        refine Changes.step ?_ (State.setReadQ_changes _ _ _) rfl
        exact Changes.refl _ _
      · refine Changes.mkFst ?_
        refine Changes.step ?_ (State.holdRequest_changes _ _ _ _ _ _) rfl
        refine Changes.mkFst ?_
        exact Changes.refl _ _

theorem State.serveReads_changes (s : State) (a : Agent) :
    Changes [.regs, .cores, .mesh, .holds, .fabric, .idle, .diag, .ibis, .outs] s (s.serveReads a) := by
  unfold State.serveReads
  split
  · refine Changes.ite ?_ ?_
    · refine Changes.step ?_ (State.serveCoreRead_changes _ _ _ _) rfl
      exact Changes.refl _ _
    · exact Changes.refl _ _
  · refine Changes.step ?_ (State.serveHoldRead_changes _ _ _) rfl
    refine Changes.step ?_ (State.askHold_changes _ _ _) rfl
    exact Changes.refl _ _
  · exact Changes.refl _ _

theorem State.showTx_changes (s : State) (n sl : Nat) :
    Changes [.regs] s (s.showTx n sl) := by
  unfold State.showTx
  dsimp only
  split
  · refine Changes.step ?_ (State.put_changes _ _ _ _) rfl
    refine Changes.step ?_ (State.put_changes _ _ _ _) rfl
    exact Changes.refl _ _
  · refine Changes.step ?_ (State.put_changes _ _ _ _) rfl
    refine Changes.step ?_ (State.put_changes _ _ _ _) rfl
    exact Changes.refl _ _

theorem State.exitOf_changes (s : State) (chip : Nat) (adapt : Bool) :
    Changes [.regs] s (s.exitOf chip adapt).1 := by
  unfold State.exitOf
  refine Changes.iteFst ?_ ?_
  · refine Changes.mkFst ?_
    exact Changes.refl _ _
  · split
    · refine Changes.mkFst ?_
      refine Changes.ite ?_ ?_
      · refine Changes.step ?_ (State.put_changes _ _ _ _) rfl
        exact Changes.refl _ _
      · exact Changes.refl _ _
    · refine Changes.mkFst ?_
      exact Changes.refl _ _

theorem State.sendBy_changes (s : State) (n sl d chip : Nat) (ex : Option (Fin 48)) (b : Barge) :
    Changes [.regs, .mesh, .fabric, .idle, .diag, .ibis, .outs] s (s.sendBy n sl d chip ex b) := by
  unfold State.sendBy
  refine Changes.ite ?_ ?_
  · refine Changes.step ?_ (State.logErr_changes _ _) rfl
    exact Changes.refl _ _
  · refine Changes.step ?_ (State.injectRaw_changes _ _ _ _ _ _) rfl
    exact Changes.refl _ _

theorem State.openSub_changes (s : State) (n sl berth vmask pset : Nat) (x : SubTx) :
    Changes [.regs, .mesh, .fabric, .idle, .diag, .ibis, .outs] s (s.openSub n sl berth vmask pset x) := by
  unfold State.openSub
  split
  split
  dsimp only
  refine Changes.step ?_ (State.showTx_changes _ _ _) rfl
  refine Changes.step ?_ (State.sendBy_changes _ _ _ _ _ _ _) rfl
  refine Changes.step ?_ (State.setTx_changes _ _ _ _) rfl
  refine Changes.ofPair (by assumption) ?_
  refine Changes.step ?_ (State.exitOf_changes _ _ _) rfl
  refine Changes.ofPair (by assumption) ?_
  refine Changes.iteFst ?_ ?_
  · refine Changes.mkFst ?_
    exact Changes.refl _ _
  · refine Changes.step ?_ (State.exitOf_changes _ _ _) rfl
    exact Changes.refl _ _

theorem State.readMap_changes (s : State) (n sl a len rclass : Nat) :
    Changes [.regs, .mesh, .fabric, .idle, .diag, .ibis, .outs] s (s.readMap n sl a len rclass) := by
  unfold State.readMap
  dsimp only
  refine Changes.step ?_ (State.inject_changes _ _ _ _ _) rfl
  exact Changes.refl _ _

theorem State.headerIn_changes (s : State) (n sl : Nat) (o : SluOp) (t : Tx) :
    Changes [.regs, .mesh, .fabric, .idle, .diag, .ibis, .outs] s (s.headerIn n sl o t) := by
  unfold State.headerIn
  refine Changes.ite ?_ ?_
  · refine Changes.step ?_ (State.setTx_changes _ _ _ _) rfl
    exact Changes.refl _ _
  · dsimp only
    refine Changes.ite ?_ ?_
    · refine Changes.step ?_ (State.setTx_changes _ _ _ _) rfl
      exact Changes.refl _ _
    · refine Changes.step ?_ (State.readMap_changes _ _ _ _ _ _) rfl
      refine Changes.step ?_ (State.setTx_changes _ _ _ _) rfl
      exact Changes.refl _ _

theorem State.badPosition_changes (s : State) (n sl : Nat) :
    Changes [.regs, .cores, .mesh, .idle, .diag, .ibis, .outs] s (s.badPosition n sl) := by
  unfold State.badPosition
  split
  · refine Changes.ite ?_ ?_
    · exact Changes.refl _ _
    · refine Changes.step ?_ (State.logCore_changes _ _ _ _ _ _) rfl
      refine Changes.step ?_ (State.setRun_changes _ _ _ _) rfl
      exact Changes.refl _ _
  · exact Changes.refl _ _

theorem State.openRows_changes (s : State) (n sl : Nat) (o : SluOp) (k : Nat) : Changes [.regs, .cores, .mesh, .fabric, .idle, .diag, .ibis, .outs] s (s.openRows n sl o k) := by
  induction k generalizing s with
  | zero => exact Changes.refl _ _
  | succ k ih =>
    unfold State.openRows
    split
    · exact Changes.refl _ _
    · refine Changes.ite ?_ ?_
      · exact Changes.refl _ _
      · dsimp only
        refine Changes.trans ?_ (ih _)
        refine Changes.ite ?_ ?_
        · refine Changes.step ?_ (State.openSub_changes _ _ _ _ _ _ _) rfl
          refine Changes.iteThen ?_ ?_
          · refine Changes.step ?_ (State.setTx_changes _ _ _ _) rfl
            exact Changes.refl _ _
          · refine Changes.step ?_ (State.badPosition_changes _ _ _) rfl
            exact Changes.refl _ _
        · split
          · refine Changes.step ?_ (State.openSub_changes _ _ _ _ _ _ _) rfl
            refine Changes.step ?_ (State.setTx_changes _ _ _ _) rfl
            exact Changes.refl _ _
          · refine Changes.step ?_ (State.badPosition_changes _ _ _) rfl
            refine Changes.step ?_ (State.setTx_changes _ _ _ _) rfl
            exact Changes.refl _ _

theorem State.settle_changes (s : State) (n sl : Nat) (o : SluOp) :
    Changes [.regs, .mesh] s (s.settle n sl o) := by
  unfold State.settle
  split
  · exact Changes.refl _ _
  · dsimp only
    refine Changes.ite ?_ ?_
    · refine Changes.step ?_ (State.showTx_changes _ _ _) rfl
      refine Changes.step ?_ (State.setTx_changes _ _ _ _) rfl
      exact Changes.refl _ _
    · exact Changes.refl _ _

theorem State.sluStart_changes (s : State) (n : Nat) (d : List Word) (k : OpKind) :
    Changes [.regs, .cores, .mesh, .fabric, .idle, .diag, .ibis, .outs] s (s.sluStart n d k) := by
  unfold State.sluStart
  split
  · dsimp only
    split
    · refine Changes.step ?_ (State.openSub_changes _ _ _ _ _ _ _) rfl
      refine Changes.step ?_ (State.setTx_changes _ _ _ _) rfl
      refine Changes.step ?_ (State.modRun_changes _ _ _ _) rfl
      refine Changes.step ?_ (State.put_changes _ _ _ _) rfl
      refine Changes.step ?_ (State.addTo_changes _ _ _ _) rfl
      exact Changes.refl _ _
    · refine Changes.step ?_ (State.openSub_changes _ _ _ _ _ _ _) rfl
      refine Changes.step ?_ (State.setTx_changes _ _ _ _) rfl
      refine Changes.step ?_ (State.modRun_changes _ _ _ _) rfl
      refine Changes.step ?_ (State.put_changes _ _ _ _) rfl
      refine Changes.step ?_ (State.addTo_changes _ _ _ _) rfl
      exact Changes.refl _ _
    · refine Changes.step ?_ (State.readMap_changes _ _ _ _ _ _) rfl
      refine Changes.step ?_ (State.setTx_changes _ _ _ _) rfl
      refine Changes.step ?_ (State.modRun_changes _ _ _ _) rfl
      refine Changes.step ?_ (State.put_changes _ _ _ _) rfl
      refine Changes.step ?_ (State.addTo_changes _ _ _ _) rfl
      exact Changes.refl _ _
  · exact Changes.refl _ _

theorem State.readBlock_changes (s : State) (n sl : Nat) (x : SubTx) (blk : Option Nat) (k : Nat) : Changes [.regs, .cores, .mesh, .idle, .diag, .ibis, .outs] s (s.readBlock n sl x blk k).1 := by
  induction k generalizing s x blk with
  | zero => exact Changes.refl _ _
  | succ k ih =>
    unfold State.readBlock
    split
    · refine Changes.mkFst ?_
      exact Changes.refl _ _
    · dsimp only
      refine Changes.iteFst ?_ ?_
      · refine Changes.mkFst ?_
        exact Changes.refl _ _
      · refine Changes.trans ?_ (ih _ _ _)
        refine Changes.iteThen ?_ ?_
        · refine Changes.step ?_ (State.readLines_changes _ _ _ _ _) rfl
          exact Changes.refl _ _
        · refine Changes.step ?_ (State.modRun_changes _ _ _ _) rfl
          exact Changes.refl _ _

theorem State.wsServe_changes (s : State) (n : Nat) :
    Changes [.regs, .cores, .mesh, .idle, .diag, .ibis, .outs] s (s.wsServe n) := by
  unfold State.wsServe
  refine Changes.ite ?_ ?_
  · exact Changes.refl _ _
  · split
    · exact Changes.refl _ _
    · split
      · exact Changes.refl _ _
      · split
        · exact Changes.refl _ _
        · split
          refine Changes.step ?_ (State.setTx_changes _ _ _ _) rfl
          refine Changes.ofPair (by assumption) ?_
          refine Changes.step ?_ (State.readBlock_changes _ _ _ _ _ _) rfl
          exact Changes.refl _ _

theorem State.readSub_changes (s : State) (n sl : Nat) (ps : List (Nat × Nat)) (m : Parts) :
    Changes [.regs, .cores, .mesh, .idle, .diag, .ibis, .outs] s (s.readSub n sl ps m).1 := by
  unfold State.readSub
  split
  dsimp only
  refine Changes.foldl ?_ (fun _ _ => ?_)
  · refine Changes.ofPair (by assumption) ?_
    refine Changes.step ?_ (State.giveBanks_changes _ _) rfl
    exact Changes.refl _ _
  · refine Changes.step ?_ (State.taint_changes _ _ _ _) rfl
    refine Changes.step ?_ (State.readLines_changes _ _ _ _ _) rfl
    exact Changes.refl _ _

theorem State.subData_changes (s : State) (n sl : Nat) (x : SubTx) :
    Changes [.regs, .cores, .mesh, .idle, .diag, .ibis, .outs] s (s.subData n sl x).1 := by
  unfold State.subData
  split
  dsimp only
  split
  · refine Changes.mkFst ?_
    exact Changes.refl _ _
  · refine Changes.iteFst ?_ ?_
    · refine Changes.iteFst ?_ ?_
      · refine Changes.mkFst ?_
        exact Changes.refl _ _
      · refine Changes.mkFst ?_
        exact Changes.refl _ _
    · refine Changes.iteFst ?_ ?_
      · refine Changes.mkFst ?_
        refine Changes.step ?_ (State.readSub_changes _ _ _ _ _) rfl
        exact Changes.refl _ _
      · refine Changes.mkFst ?_
        refine Changes.step ?_ (State.readSub_changes _ _ _ _ _) rfl
        exact Changes.refl _ _

theorem State.sendData_changes (s : State) (n sl : Nat) (k : Nat) : Changes [.regs, .cores, .mesh, .fabric, .idle, .diag, .ibis, .outs] s (s.sendData n sl k) := by
  induction k generalizing s with
  | zero => exact Changes.refl _ _
  | succ k ih =>
    unfold State.sendData
    split
    · exact Changes.refl _ _
    · dsimp only
      split
      · exact Changes.refl _ _
      · refine Changes.ite ?_ ?_
        · exact Changes.refl _ _
        · split
          · refine Changes.step ?_ (State.setTx_changes _ _ _ _) rfl
            refine Changes.step ?_ (State.subData_changes _ _ _ _) rfl
            exact Changes.refl _ _
          · refine Changes.trans ?_ (ih _)
            refine Changes.step ?_ (State.addTo_changes _ _ _ _) rfl
            refine Changes.step ?_ (State.setTx_changes _ _ _ _) rfl
            refine Changes.step ?_ (State.sendBy_changes _ _ _ _ _ _ _) rfl
            refine Changes.step ?_ (State.subData_changes _ _ _ _) rfl
            exact Changes.refl _ _

theorem State.sluBeat_changes (s : State) (n sl : Nat) :
    Changes [.regs, .cores, .mesh, .fabric, .idle, .diag, .ibis, .outs] s (s.sluBeat n sl) := by
  unfold State.sluBeat
  split
  · refine Changes.ite ?_ ?_
    · exact Changes.refl _ _
    · dsimp only
      refine Changes.step ?_ (State.settle_changes _ _ _ _) rfl
      refine Changes.step ?_ (State.showTx_changes _ _ _) rfl
      refine Changes.step ?_ (State.sendData_changes _ _ _ _) rfl
      split
      · refine Changes.step ?_ (State.openRows_changes _ _ _ _ _) rfl
        refine Changes.ite ?_ ?_
        · refine Changes.step ?_ (State.headerIn_changes _ _ _ _ _) rfl
          exact Changes.refl _ _
        · refine Changes.ite ?_ ?_
          · refine Changes.step ?_ (State.setTx_changes _ _ _ _) rfl
            exact Changes.refl _ _
          · exact Changes.refl _ _
      · refine Changes.step ?_ (State.openRows_changes _ _ _ _ _) rfl
        refine Changes.ite ?_ ?_
        · refine Changes.step ?_ (State.headerIn_changes _ _ _ _ _) rfl
          exact Changes.refl _ _
        · refine Changes.ite ?_ ?_
          · refine Changes.step ?_ (State.setTx_changes _ _ _ _) rfl
            exact Changes.refl _ _
          · exact Changes.refl _ _
      · refine Changes.ite ?_ ?_
        · refine Changes.step ?_ (State.headerIn_changes _ _ _ _ _) rfl
          exact Changes.refl _ _
        · refine Changes.ite ?_ ?_
          · refine Changes.step ?_ (State.setTx_changes _ _ _ _) rfl
            exact Changes.refl _ _
          · exact Changes.refl _ _
  · exact Changes.refl _ _

theorem execGrant_changes (core : Fin 256) (sl : Fin 4) (s : State) :
    OutChanges [.regs, .mesh, .fabric, .idle, .diag, .ibis, .outs] s (execGrant core sl s) := by
  unfold execGrant
  split
  · refine OutChanges.next ?_
    exact Changes.refl _ _
  · split
    · refine OutChanges.next ?_
      refine Changes.step ?_ (State.takeArrival_some (by assumption)) rfl
      exact Changes.refl _ _
    · split
      · refine OutChanges.next ?_
        refine Changes.step ?_ (State.takeArrival_some (by assumption)) rfl
        exact Changes.refl _ _
      · dsimp only
        split
        · refine OutChanges.next ?_
          refine Changes.step ?_ (State.showTx_changes _ _ _) rfl
          refine Changes.step ?_ (State.sendBy_changes _ _ _ _ _ _ _) rfl
          refine Changes.step ?_ (State.setTx_changes _ _ _ _) rfl
          refine Changes.step ?_ (State.takeArrival_some (by assumption)) rfl
          exact Changes.refl _ _
        · refine OutChanges.next ?_
          refine Changes.step ?_ (State.showTx_changes _ _ _) rfl
          refine Changes.step ?_ (State.setTx_changes _ _ _ _) rfl
          refine Changes.step ?_ (State.takeArrival_some (by assumption)) rfl
          exact Changes.refl _ _

theorem execRefuse_changes (core : Fin 256) (sl : Fin 4) (s : State) :
    OutChanges [.regs, .die, .cores, .mesh, .fabric, .idle, .diag, .ibis, .outs] s (execRefuse core sl s) := by
  unfold execRefuse
  split
  · refine OutChanges.next ?_
    exact Changes.refl _ _
  · split
    · dsimp only
      refine OutChanges.next ?_
      refine Changes.step ?_ (State.showTx_changes _ _ _) rfl
      refine Changes.step ?_ (State.faultCore_changes _ _ _) rfl
      refine Changes.iteElse ?_ ?_
      · refine Changes.step ?_ (State.setRun_changes _ _ _ _) rfl
        refine Changes.step ?_ (State.setTx_changes _ _ _ _) rfl
        refine Changes.iteThen ?_ ?_
        · refine Changes.step ?_ (State.takeArrival_some (by assumption)) rfl
          exact Changes.refl _ _
        · refine Changes.step ?_ (State.inject_changes _ _ _ _ _) rfl
          exact Changes.refl _ _
      · refine Changes.step ?_ (State.logCore_changes _ _ _ _ _ _) rfl
        exact Changes.refl _ _
    · refine OutChanges.next ?_
      refine Changes.step ?_ (State.takeArrival_some (by assumption)) rfl
      exact Changes.refl _ _

theorem execAckBarge_changes (core : Fin 256) (sl : Fin 4) (s : State) :
    OutChanges [.regs, .cores, .mesh] s (execAckBarge core sl s) := by
  unfold execAckBarge
  split
  · refine OutChanges.next ?_
    exact Changes.refl _ _
  · split
    · split
      · refine OutChanges.next ?_
        refine Changes.step ?_ (State.takeArrival_some (by assumption)) rfl
        exact Changes.refl _ _
      · dsimp only
        refine OutChanges.next ?_
        refine Changes.step ?_ (State.settle_changes _ _ _ _) rfl
        refine Changes.step ?_ (State.showTx_changes _ _ _) rfl
        refine Changes.iteThen ?_ ?_
        · refine Changes.step ?_ (State.setTx_changes _ _ _ _) rfl
          refine Changes.step ?_ (State.takeArrival_some (by assumption)) rfl
          exact Changes.refl _ _
        · refine Changes.step ?_ (State.modRun_changes _ _ _ _) rfl
          exact Changes.refl _ _
    · refine OutChanges.next ?_
      refine Changes.step ?_ (State.takeArrival_some (by assumption)) rfl
      exact Changes.refl _ _

theorem execAbortBarge_changes (a : Agent) (s : State) :
    OutChanges [.mesh] s (execAbortBarge a s) := by
  unfold execAbortBarge
  split
  · refine OutChanges.next ?_
    exact Changes.refl _ _
  · split
    · refine OutChanges.next ?_
      refine Changes.step ?_ (State.freeLand_changes _ _) rfl
      refine Changes.step ?_ (State.takeArrival_some (by assumption)) rfl
      exact Changes.refl _ _
    · refine OutChanges.next ?_
      refine Changes.step ?_ (State.takeArrival_some (by assumption)) rfl
      exact Changes.refl _ _

/-! ### Holds -/

theorem State.noteRewrite_changes (s : State) (k a len : Nat) :
    Changes [.holds] s (s.noteRewrite k a len) := by
  unfold State.noteRewrite
  dsimp only
  refine Changes.step ?_ (State.setPc_changes _ _ _) rfl
  exact Changes.refl _ _

theorem State.holdRead_changes (s : State) (k a len : Nat) (logged : List Nat) :
    Changes [.regs, .mesh, .holds, .idle, .diag, .ibis, .outs] s (s.holdRead k a len logged).1 := by
  unfold State.holdRead
  refine Changes.step ?_ (State.noteLines_changes _ _ _ _ _) rfl
  refine Changes.step ?_ (State.noteRewrite_changes _ _ _ _) rfl
  exact Changes.refl _ _

theorem State.readHold_changes (s : State) (a len : Nat) (logged : List Nat) :
    Changes [.regs, .mesh, .holds, .idle, .diag, .ibis, .outs] s (s.readHold a len logged).1 := by
  unfold State.readHold
  dsimp only
  refine Changes.step ?_ (State.noteLines_changes _ _ _ _ _) rfl
  refine Changes.foldl ?_ (fun _ _ => ?_)
  · exact Changes.refl _ _
  · refine Changes.step ?_ (State.noteRewrite_changes _ _ _ _) rfl
    exact Changes.refl _ _

theorem State.writeLines_changes (s : State) (a : Nat) (bs : List Byte) (bad : List Bool) :
    Changes [.regs, .mem, .ecc, .cores, .mesh, .idle, .diag, .ibis, .outs] s (s.writeLines a bs bad) := by
  unfold State.writeLines
  refine Changes.foldl ?_ (fun _ _ => ?_)
  · exact Changes.refl _ _
  · refine Changes.step ?_ (State.writeMem_changes _ _ _ _) rfl
    exact Changes.refl _ _

theorem State.readBack_changes (s : State) (id j : Nat) (a len : Nat) (k : Nat) :
    Changes [.regs, .cores, .mesh, .holds, .idle, .diag, .ibis, .outs] s (s.readBack id j a len k) := by
  unfold State.readBack
  refine Changes.foldl ?_ (fun _ _ => ?_)
  · exact Changes.refl _ _
  · dsimp only
    split
    · exact Changes.refl _ _
    · refine Changes.step ?_ (State.setReadQ_changes _ _ _) rfl
      refine Changes.step ?_ (State.noteLogged_changes _ _ _ _ _) rfl
      refine Changes.step ?_ (State.holdRead_changes _ _ _ _ _) rfl
      exact Changes.refl _ _

theorem State.writeBack_changes (s : State) (key : Nat) :
    Changes [.regs, .mesh, .fabric, .idle, .diag, .ibis, .outs] s (s.writeBack key) := by
  unfold State.writeBack
  split
  · exact Changes.refl _ _
  · dsimp only
    refine Changes.ite ?_ ?_
    · refine Changes.step ?_ (State.slotDone_changes _ _ _ _) rfl
      exact Changes.refl _ _
    · refine Changes.step ?_ (State.setLand_changes _ _ _) rfl
      exact Changes.refl _ _

theorem State.writePieces_changes (s : State) (ps : List (Nat × List Byte × List Bool)) :
    Changes [.regs, .mem, .ecc, .cores, .mesh, .idle, .diag, .ibis, .outs] s (s.writePieces ps) := by
  unfold State.writePieces
  refine Changes.foldl ?_ (fun _ _ => ?_)
  · exact Changes.refl _ _
  · refine Changes.ite ?_ ?_
    · refine Changes.step ?_ (State.writeLines_changes _ _ _ _) rfl
      exact Changes.refl _ _
    · dsimp only
      refine Changes.step ?_ (State.writeAny_changes _ _ _) rfl
      refine Changes.step ?_ (State.noteLines_changes _ _ _ _ _) rfl
      exact Changes.refl _ _

theorem State.refreshNow_changes (s : State) (h k : Nat) :
    Changes [.regs, .holds] s (s.refreshNow h k) := by
  unfold State.refreshNow
  dsimp only
  refine Changes.step ?_ (State.setPc_changes _ _ _) rfl
  refine Changes.step ?_ (State.addTo_changes _ _ _ _) rfl
  exact Changes.refl _ _

theorem execHoldRefresh_changes (h : Fin 2) (pc : Fin 64) (s : State) :
    OutChanges [.now, .regs, .die, .holds, .fabric] s (execHoldRefresh h pc s) := by
  unfold execHoldRefresh
  dsimp only
  refine OutChanges.ite ?_ ?_
  · refine OutChanges.next ?_
    exact Changes.refl _ _
  · refine OutChanges.ite ?_ ?_
    · refine OutChanges.next ?_
      refine Changes.step ?_ (State.put_changes _ _ _ _) rfl
      refine Changes.step ?_ (State.setPc_changes _ _ _) rfl
      refine Changes.step ?_ (State.setPc_changes _ _ _) rfl
      refine Changes.step ?_ (State.advanceTo_changes _ _) rfl
      exact Changes.refl _ _
    · refine OutChanges.next ?_
      refine Changes.step ?_ (State.refreshNow_changes _ _ _) rfl
      refine Changes.step ?_ (State.setPc_changes _ _ _) rfl
      refine Changes.step ?_ (State.advanceTo_changes _ _) rfl
      exact Changes.refl _ _

theorem execRefreshMakeup_changes (h : Fin 2) (pc : Fin 64) (s : State) :
    OutChanges [.regs, .holds] s (execRefreshMakeup h pc s) := by
  unfold execRefreshMakeup
  dsimp only
  refine OutChanges.ite ?_ ?_
  · refine OutChanges.next ?_
    exact Changes.refl _ _
  · refine OutChanges.next ?_
    refine Changes.step ?_ (State.setPc_changes _ _ _) rfl
    refine Changes.step ?_ (State.refreshNow_changes _ _ _) rfl
    refine Changes.step ?_ (State.setPc_changes _ _ _) rfl
    exact Changes.refl _ _

theorem execHoldScrubRead_changes (h : Fin 2) (pc : Fin 64) (s : State) :
    OutChanges [.regs, .mesh, .holds, .idle, .diag, .ibis, .outs] s (execHoldScrubRead h pc s) := by
  unfold execHoldScrubRead
  dsimp only
  refine OutChanges.ite ?_ ?_
  · refine OutChanges.next ?_
    exact Changes.refl _ _
  · refine OutChanges.next ?_
    refine Changes.step ?_ (State.holdRead_changes _ _ _ _ _) rfl
    refine Changes.step ?_ (State.setPc_changes _ _ _) rfl
    exact Changes.refl _ _

theorem execCorrectedLineRewrite_changes (h : Fin 2) (pc : Fin 64) (s : State) :
    OutChanges [.mem, .ecc, .holds] s (execCorrectedLineRewrite h pc s) := by
  unfold execCorrectedLineRewrite
  dsimp only
  split
  · refine OutChanges.next ?_
    exact Changes.refl _ _
  · refine OutChanges.ite ?_ ?_
    · refine OutChanges.next ?_
      exact Changes.refl _ _
    · refine OutChanges.next ?_
      refine Changes.iteThen ?_ ?_
      · refine Changes.step ?_ (State.setPc_changes _ _ _) rfl
        exact Changes.refl _ _
      · refine Changes.step ?_ (State.writeMem_changes _ _ _ _) rfl
        exact Changes.refl _ _

theorem State.reschedule_changes (s : State) (h : Nat) :
    Changes [.holds] s (s.reschedule h) := by
  unfold State.reschedule
  refine Changes.record ?_ (by intro p; cases p <;> first | exact .inl rfl | exact .inr ⟨rfl, rfl⟩ | exact .inr (by dsimp only [Part.same]))
  exact Changes.refl _ _

theorem State.chooseMode_changes (s : State) (h : Nat) :
    Changes [.regs, .holds] s (s.chooseMode h) := by
  unfold State.chooseMode
  dsimp only
  refine Changes.ite ?_ ?_
  · exact Changes.refl _ _
  · refine Changes.step ?_ (State.reschedule_changes _ _) rfl
    refine Changes.step ?_ (State.put_changes _ _ _ _) rfl
    refine Changes.step ?_ (State.put_changes _ _ _ _) rfl
    exact Changes.refl _ _

theorem State.holdTemp_changes (s : State) (h t : Nat) :
    Changes [.regs, .holds] s (s.holdTemp h t) := by
  unfold State.holdTemp
  refine Changes.step ?_ (State.chooseMode_changes _ _) rfl
  refine Changes.step ?_ (State.put_changes _ _ _ _) rfl
  exact Changes.refl _ _

theorem State.writeHoldCtrl_changes (s : State) (h : Nat) (v : Word) :
    Changes [.regs, .holds] s (s.writeHoldCtrl h v) := by
  unfold State.writeHoldCtrl
  dsimp only
  refine Changes.step ?_ (State.chooseMode_changes _ _) rfl
  refine Changes.step ?_ (State.plainWrite_changes _ _ _) rfl
  exact Changes.refl _ _

/-! ### Fill -/

theorem State.startFill_changes (s : State) (c : Nat) :
    Changes [.mesh, .weights] s (s.startFill c) := by
  unfold State.startFill
  dsimp only
  refine Changes.foldl ?_ (fun _ _ => ?_)
  · refine Changes.record ?_ (by intro p; cases p <;> first | exact .inl rfl | exact .inr ⟨rfl, rfl⟩ | exact .inr (by dsimp only [Part.same]))
    exact Changes.refl _ _
  · refine Changes.step ?_ (State.setLand_changes _ _ _) rfl
    exact Changes.refl _ _

theorem State.setFill_changes (s : State) (f : FillRun) :
    Changes [.weights] s (s.setFill f) := by
  unfold State.setFill
  refine Changes.record ?_ (by intro p; cases p <;> first | exact .inl rfl | exact .inr ⟨rfl, rfl⟩ | exact .inr (by dsimp only [Part.same]))
  exact Changes.refl _ _

theorem State.fillAsk_changes (s : State) (f : FillRun) :
    Changes [.holds] s (s.fillAsk f).1 := by
  unfold State.fillAsk
  refine Changes.foldlFst ?_ (fun _ _ _ => ?_)
  · refine Changes.mkFst ?_
    exact Changes.refl _ _
  · dsimp only
    refine Changes.iteFst ?_ ?_
    · refine Changes.mkFst ?_
      refine Changes.step ?_ (State.holdRequest_changes _ _ _ _ _ _) rfl
      exact Changes.refl _ _
    · refine Changes.mkFst ?_
      exact Changes.refl _ _

theorem State.fillSend_changes (s : State) (f : FillRun) (fuel : Nat) : Changes [.regs, .cores, .mesh, .fabric, .weights, .idle, .diag, .ibis, .outs] s (s.fillSend f fuel).1 := by
  induction fuel generalizing s f with
  | zero => exact Changes.refl _ _
  | succ fuel ih =>
    unfold State.fillSend
    split
    · refine Changes.mkFst ?_
      exact Changes.refl _ _
    · dsimp only
      refine Changes.iteFst ?_ ?_
      · refine Changes.mkFst ?_
        exact Changes.refl _ _
      · refine Changes.trans ?_ (ih _ _)
        refine Changes.record ?_ (by intro p; cases p <;> first | exact .inl rfl | exact .inr ⟨rfl, rfl⟩ | exact .inr (by dsimp only [Part.same]))
        refine Changes.step ?_ (State.injectRaw_changes _ _ _ _ _ _) rfl
        exact Changes.refl _ _

theorem State.fillWork_changes (s : State) :
    Changes [.regs, .cores, .mesh, .holds, .fabric, .weights, .idle, .diag, .ibis, .outs] s (s.fillWork) := by
  unfold State.fillWork
  dsimp only
  refine Changes.record ?_ (by intro p; cases p <;> first | exact .inl rfl | exact .inr ⟨rfl, rfl⟩ | exact .inr (by dsimp only [Part.same]))
  refine Changes.foldl ?_ (fun _ _ => ?_)
  · exact Changes.refl _ _
  · refine Changes.ite ?_ ?_
    · refine Changes.step ?_ (State.setFill_changes _ _) rfl
      refine Changes.step ?_ (State.fillSend_changes _ _ _) rfl
      refine Changes.step ?_ (State.fillAsk_changes _ _) rfl
      exact Changes.refl _ _
    · exact Changes.refl _ _

theorem State.fillBack_changes (s : State) (k n j a len : Nat) :
    Changes [.regs, .mesh, .holds, .weights, .idle, .diag, .ibis, .outs] s (s.fillBack k n j a len) := by
  unfold State.fillBack
  split
  · exact Changes.refl _ _
  · split
    dsimp only
    refine Changes.step ?_ (State.setFill_changes _ _) rfl
    refine Changes.iteThen ?_ ?_
    · refine Changes.record ?_ (by intro p; cases p <;> first | exact .inl rfl | exact .inr ⟨rfl, rfl⟩ | exact .inr (by dsimp only [Part.same]))
      refine Changes.ofPair (by assumption) ?_
      refine Changes.step ?_ (State.holdRead_changes _ _ _ _ _) rfl
      exact Changes.refl _ _
    · refine Changes.step ?_ (State.hwSet_changes _ _ _ _) rfl
      exact Changes.refl _ _

end Sys2Proof.Machine
end

