-- ==== Sys2Proof/Laws/ChangesKeeper.lean ====
section
/-! SUPPORT. What each operation may change: core registers, the keeper, the movers, locks, beats and programs. -/

namespace Sys2Proof.Machine

/-! ### CoreRegs -/

theorem State.enterHalted_changes (s : State) (n : Nat) :
    Changes [.regs, .die, .cores] s (s.enterHalted n) := by
  unfold State.enterHalted
  dsimp only
  refine Changes.step ?_ (State.refresh_changes _ _) rfl
  refine Changes.step ?_ (State.holdOff_changes _ _) rfl
  refine Changes.step ?_ (State.setCore_changes _ _ _) rfl
  refine Changes.step ?_ (State.put_changes _ _ _ _) rfl
  refine Changes.step ?_ (State.put_changes _ _ _ _) rfl
  refine Changes.step ?_ (State.put_changes _ _ _ _) rfl
  exact Changes.refl _ _

theorem State.halt_changes (s : State) (n : Nat) :
    Changes [.regs, .die, .cores] s (s.halt n) := by
  unfold State.halt
  dsimp only
  refine Changes.ite ?_ ?_
  · exact Changes.refl _ _
  · refine Changes.ite ?_ ?_
    · refine Changes.step ?_ (State.enterHalted_changes _ _) rfl
      exact Changes.refl _ _
    · refine Changes.step ?_ (State.setCore_changes _ _ _) rfl
      exact Changes.refl _ _

theorem State.resume_changes (s : State) (n : Nat) :
    Changes [.regs, .cores] s (s.resume n) := by
  unfold State.resume
  refine Changes.ite ?_ ?_
  · exact Changes.refl _ _
  · dsimp only
    refine Changes.step ?_ (State.refresh_changes _ _) rfl
    refine Changes.step ?_ (State.put_changes _ _ _ _) rfl
    refine Changes.step ?_ (State.setCore_changes _ _ _) rfl
    exact Changes.refl _ _

theorem State.kstepOnce_changes (s : State) (n : Nat) :
    Changes [.regs, .cores] s (s.kstepOnce n) := by
  unfold State.kstepOnce
  dsimp only
  refine Changes.ite ?_ ?_
  · exact Changes.refl _ _
  · refine Changes.step ?_ (State.refresh_changes _ _) rfl
    refine Changes.step ?_ (State.setCore_changes _ _ _) rfl
    exact Changes.refl _ _

theorem State.arm_changes (s : State) (n : Nat) :
    Changes [.regs] s (s.arm n) := by
  unfold State.arm
  refine Changes.ite ?_ ?_
  · refine Changes.step ?_ (State.put_changes _ _ _ _) rfl
    refine Changes.step ?_ (State.put_changes _ _ _ _) rfl
    exact Changes.refl _ _
  · exact Changes.refl _ _

theorem State.unarm_changes (s : State) (n : Nat) :
    Changes [.regs] s (s.unarm n) := by
  unfold State.unarm
  refine Changes.ite ?_ ?_
  · refine Changes.step ?_ (State.put_changes _ _ _ _) rfl
    refine Changes.step ?_ (State.put_changes _ _ _ _) rfl
    exact Changes.refl _ _
  · exact Changes.refl _ _

theorem State.writeCoreCtrl_changes (s : State) (n : Nat) (v : Word) :
    Changes [.regs, .die, .cores, .mesh, .idle, .diag, .ibis, .outs] s (s.writeCoreCtrl n v).1 := by
  unfold State.writeCoreCtrl
  dsimp only
  refine Changes.iteFst ?_ ?_
  · refine Changes.mkFst ?_
    refine Changes.step ?_ (State.logCore_changes _ _ _ _ _ _) rfl
    refine Changes.ite ?_ ?_
    · refine Changes.ite ?_ ?_
      · refine Changes.step ?_ (State.arm_changes _ _) rfl
        exact Changes.refl _ _
      · exact Changes.refl _ _
    · refine Changes.step ?_ (State.unarm_changes _ _) rfl
      exact Changes.refl _ _
  · refine Changes.mkFst ?_
    refine Changes.ite ?_ ?_
    · refine Changes.step ?_ (State.resume_changes _ _) rfl
      refine Changes.iteThen ?_ ?_
      · refine Changes.ite ?_ ?_
        · refine Changes.ite ?_ ?_
          · refine Changes.step ?_ (State.arm_changes _ _) rfl
            exact Changes.refl _ _
          · exact Changes.refl _ _
        · refine Changes.step ?_ (State.unarm_changes _ _) rfl
          exact Changes.refl _ _
      · refine Changes.step ?_ (State.halt_changes _ _) rfl
        exact Changes.refl _ _
    · refine Changes.iteThen ?_ ?_
      · refine Changes.iteThen ?_ ?_
        · refine Changes.ite ?_ ?_
          · refine Changes.ite ?_ ?_
            · refine Changes.step ?_ (State.arm_changes _ _) rfl
              exact Changes.refl _ _
            · exact Changes.refl _ _
          · refine Changes.step ?_ (State.unarm_changes _ _) rfl
            exact Changes.refl _ _
        · refine Changes.step ?_ (State.halt_changes _ _) rfl
          exact Changes.refl _ _
      · refine Changes.step ?_ (State.kstepOnce_changes _ _) rfl
        exact Changes.refl _ _

theorem State.refused3808_changes (s : State) (n : Nat) :
    Changes [.regs, .mesh, .idle, .diag, .ibis, .outs] s (s.refused3808 n).1 := by
  unfold State.refused3808
  refine Changes.mkFst ?_
  refine Changes.step ?_ (State.logCore_changes _ _ _ _ _ _) rfl
  exact Changes.refl _ _

theorem State.writeMenuBase_changes (s : State) (n : Nat) (v : Word) :
    Changes [.regs, .mesh, .idle, .diag, .ibis, .outs] s (s.writeMenuBase n v).1 := by
  unfold State.writeMenuBase
  dsimp only
  refine Changes.iteFst ?_ ?_
  · refine Changes.step ?_ (State.refused3808_changes _ _) rfl
    exact Changes.refl _ _
  · refine Changes.mkFst ?_
    refine Changes.step ?_ (State.plainWrite_changes _ _ _) rfl
    exact Changes.refl _ _

theorem State.writeVecWin_changes (s : State) (n w : Nat) (v : Word) :
    Changes [.regs, .cores, .mesh, .idle, .diag, .ibis, .outs] s (s.writeVecWin n w v).1 := by
  unfold State.writeVecWin
  refine Changes.iteFst ?_ ?_
  · refine Changes.mkFst ?_
    refine Changes.step ?_ (State.logCore_changes _ _ _ _ _ _) rfl
    exact Changes.refl _ _
  · dsimp only
    refine Changes.step ?_ (State.plainWrite_changes _ _ _) rfl
    refine Changes.ite ?_ ?_
    · refine Changes.step ?_ (State.setCore_changes _ _ _) rfl
      exact Changes.refl _ _
    · exact Changes.refl _ _

theorem State.writeBerth0_changes (s : State) (n b : Nat) (v : Word) :
    Changes [.regs, .mesh, .idle, .diag, .ibis, .outs] s (s.writeBerth0 n b v).1 := by
  unfold State.writeBerth0
  dsimp only
  refine Changes.iteFst ?_ ?_
  · refine Changes.mkFst ?_
    refine Changes.step ?_ (State.logCore_changes _ _ _ _ _ _) rfl
    exact Changes.refl _ _
  · refine Changes.mkFst ?_
    refine Changes.step ?_ (State.put_changes _ _ _ _) rfl
    refine Changes.step ?_ (State.plainWrite_changes _ _ _) rfl
    exact Changes.refl _ _

theorem State.writeBerth1_changes (s : State) (n b : Nat) (v : Word) :
    Changes [.regs, .mesh, .idle, .diag, .ibis, .outs] s (s.writeBerth1 n b v).1 := by
  unfold State.writeBerth1
  dsimp only
  refine Changes.iteFst ?_ ?_
  · refine Changes.mkFst ?_
    refine Changes.ite ?_ ?_
    · refine Changes.step ?_ (State.put_changes _ _ _ _) rfl
      exact Changes.refl _ _
    · exact Changes.refl _ _
  · refine Changes.iteFst ?_ ?_
    · refine Changes.mkFst ?_
      refine Changes.step ?_ (State.logCore_changes _ _ _ _ _ _) rfl
      refine Changes.ite ?_ ?_
      · refine Changes.step ?_ (State.put_changes _ _ _ _) rfl
        exact Changes.refl _ _
      · exact Changes.refl _ _
    · refine Changes.iteFst ?_ ?_
      · refine Changes.mkFst ?_
        refine Changes.step ?_ (State.logCore_changes _ _ _ _ _ _) rfl
        refine Changes.step ?_ (State.put_changes _ _ _ _) rfl
        refine Changes.ite ?_ ?_
        · refine Changes.step ?_ (State.put_changes _ _ _ _) rfl
          exact Changes.refl _ _
        · exact Changes.refl _ _
      · refine Changes.mkFst ?_
        refine Changes.step ?_ (State.put_changes _ _ _ _) rfl
        refine Changes.ite ?_ ?_
        · refine Changes.step ?_ (State.put_changes _ _ _ _) rfl
          exact Changes.refl _ _
        · exact Changes.refl _ _

theorem State.writeCoreReg_changes (s : State) (n o : Nat) (v : Word) :
    Changes [.regs, .die, .cores, .mesh, .idle, .diag, .ibis, .outs] s (s.writeCoreReg n o v).1 := by
  unfold State.writeCoreReg
  dsimp only
  refine Changes.iteFst ?_ ?_
  · refine Changes.mkFst ?_
    exact Changes.refl _ _
  · refine Changes.iteFst ?_ ?_
    · refine Changes.step ?_ (State.writeCoreCtrl_changes _ _ _) rfl
      exact Changes.refl _ _
    · refine Changes.iteFst ?_ ?_
      · refine Changes.iteFst ?_ ?_
        · refine Changes.mkFst ?_
          refine Changes.step ?_ (State.plainWrite_changes _ _ _) rfl
          exact Changes.refl _ _
        · refine Changes.step ?_ (State.refused3808_changes _ _) rfl
          exact Changes.refl _ _
      · refine Changes.iteFst ?_ ?_
        · refine Changes.iteFst ?_ ?_
          · refine Changes.mkFst ?_
            refine Changes.step ?_ (State.plainWrite_changes _ _ _) rfl
            exact Changes.refl _ _
          · refine Changes.step ?_ (State.refused3808_changes _ _) rfl
            exact Changes.refl _ _
        · refine Changes.iteFst ?_ ?_
          · refine Changes.step ?_ (State.writeMenuBase_changes _ _ _) rfl
            exact Changes.refl _ _
          · refine Changes.iteFst ?_ ?_
            · refine Changes.iteFst ?_ ?_
              · refine Changes.mkFst ?_
                refine Changes.step ?_ (State.plainWrite_changes _ _ _) rfl
                exact Changes.refl _ _
              · refine Changes.step ?_ (State.refused3808_changes _ _) rfl
                exact Changes.refl _ _
            · refine Changes.iteFst ?_ ?_
              · refine Changes.step ?_ (State.writeVecWin_changes _ _ _ _) rfl
                exact Changes.refl _ _
              · refine Changes.iteFst ?_ ?_
                · refine Changes.iteFst ?_ ?_
                  · refine Changes.step ?_ (State.writeBerth0_changes _ _ _ _) rfl
                    exact Changes.refl _ _
                  · refine Changes.step ?_ (State.writeBerth1_changes _ _ _ _) rfl
                    exact Changes.refl _ _
                · refine Changes.mkFst ?_
                  refine Changes.step ?_ (State.plainWrite_changes _ _ _) rfl
                  exact Changes.refl _ _

theorem execArmCore_changes (core : Fin 256) (s : State) :
    OutChanges [.regs, .die, .cores, .mesh, .idle, .diag, .ibis, .outs] s (execArmCore core s) := by
  unfold execArmCore
  refine OutChanges.next ?_
  refine Changes.step ?_ (State.writeCoreReg_changes _ _ _ _) rfl
  exact Changes.refl _ _

theorem execDisarmCore_changes (core : Fin 256) (s : State) :
    OutChanges [.regs, .die, .cores, .mesh, .idle, .diag, .ibis, .outs] s (execDisarmCore core s) := by
  unfold execDisarmCore
  refine OutChanges.next ?_
  refine Changes.step ?_ (State.writeCoreReg_changes _ _ _ _) rfl
  exact Changes.refl _ _

theorem execHaltCore_changes (core : Fin 256) (s : State) :
    OutChanges [.regs, .die, .cores, .mesh, .idle, .diag, .ibis, .outs] s (execHaltCore core s) := by
  unfold execHaltCore
  refine OutChanges.next ?_
  refine Changes.step ?_ (State.writeCoreReg_changes _ _ _ _) rfl
  exact Changes.refl _ _

theorem execResumeCore_changes (core : Fin 256) (s : State) :
    OutChanges [.regs, .die, .cores, .mesh, .idle, .diag, .ibis, .outs] s (execResumeCore core s) := by
  unfold execResumeCore
  refine OutChanges.next ?_
  refine Changes.step ?_ (State.writeCoreReg_changes _ _ _ _) rfl
  exact Changes.refl _ _

theorem execKstepCore_changes (core : Fin 256) (s : State) :
    OutChanges [.regs, .die, .cores, .mesh, .idle, .diag, .ibis, .outs] s (execKstepCore core s) := by
  unfold execKstepCore
  refine OutChanges.next ?_
  refine Changes.step ?_ (State.writeCoreReg_changes _ _ _ _) rfl
  exact Changes.refl _ _

theorem execVecWinWrite_changes (core : Fin 256) (w : Fin 32) (v : Word) (s : State) :
    OutChanges [.regs, .die, .cores, .mesh, .idle, .diag, .ibis, .outs] s (execVecWinWrite core w v s) := by
  unfold execVecWinWrite
  refine OutChanges.next ?_
  refine Changes.step ?_ (State.writeCoreReg_changes _ _ _ _) rfl
  exact Changes.refl _ _

/-! ### KeeperIsa -/



/-! ### Keeper -/

theorem State.keeperLines_changes (s : State) (n a len : Nat) :
    Changes [.regs, .mesh, .idle, .diag, .ibis, .outs] s (s.keeperLines n a len).1 := by
  unfold State.keeperLines
  dsimp only
  refine Changes.step ?_ (State.noteLines_changes _ _ _ _ _) rfl
  exact Changes.refl _ _

theorem State.fetch_changes (s : State) (n : Nat) :
    Changes [.regs, .mesh, .idle, .diag, .ibis, .outs] s (s.fetch n).1 := by
  unfold State.fetch
  dsimp only
  refine Changes.iteFst ?_ ?_
  · refine Changes.mkFst ?_
    exact Changes.refl _ _
  · refine Changes.iteFst ?_ ?_
    · refine Changes.iteFst ?_ ?_
      · refine Changes.mkFst ?_
        refine Changes.step ?_ (State.keeperLines_changes _ _ _ _) rfl
        exact Changes.refl _ _
      · refine Changes.mkFst ?_
        refine Changes.step ?_ (State.keeperLines_changes _ _ _ _) rfl
        exact Changes.refl _ _
    · refine Changes.iteFst ?_ ?_
      · refine Changes.mkFst ?_
        exact Changes.refl _ _
      · refine Changes.iteFst ?_ ?_
        · refine Changes.mkFst ?_
          refine Changes.step ?_ (State.keeperLines_changes _ _ _ _) rfl
          exact Changes.refl _ _
        · refine Changes.mkFst ?_
          refine Changes.step ?_ (State.keeperLines_changes _ _ _ _) rfl
          exact Changes.refl _ _

theorem State.retire_changes (s : State) (n : Nat) (rd : Nat) (v : Option W32) (pc : Nat) :
    Changes [.regs, .die, .cores] s (s.retire n rd v pc) := by
  unfold State.retire
  dsimp only
  refine Changes.ite ?_ ?_
  · refine Changes.step ?_ (State.enterHalted_changes _ _) rfl
    refine Changes.step ?_ (State.hwPut_changes _ _ _ _) rfl
    refine Changes.step ?_ (State.setCore_changes _ _ _) rfl
    exact Changes.refl _ _
  · refine Changes.step ?_ (State.refresh_changes _ _) rfl
    refine Changes.step ?_ (State.hwPut_changes _ _ _ _) rfl
    refine Changes.step ?_ (State.setCore_changes _ _ _) rfl
    exact Changes.refl _ _

theorem State.stall_changes (s : State) (n : Nat) (w : KWait) :
    Changes [.regs, .die, .cores] s (s.stall n w) := by
  unfold State.stall
  dsimp only
  refine Changes.ite ?_ ?_
  · refine Changes.step ?_ (State.enterHalted_changes _ _) rfl
    exact Changes.refl _ _
  · refine Changes.step ?_ (State.refresh_changes _ _) rfl
    refine Changes.step ?_ (State.setCore_changes _ _ _) rfl
    exact Changes.refl _ _

theorem State.kstop_changes (s : State) (n code : Nat) :
    Changes [.regs, .die, .cores, .mesh, .idle, .diag, .ibis, .outs] s (s.kstop n code) := by
  unfold State.kstop
  refine Changes.step ?_ (State.failCore_changes _ _ _ _ _ _) rfl
  exact Changes.refl _ _

theorem State.takeNarrow_changes (s : State) (n a : Nat) :
    Changes [.cores] s (s.takeNarrow n a) := by
  unfold State.takeNarrow
  split
  · refine Changes.step ?_ (State.takeBank_changes _ _) rfl
    exact Changes.refl _ _
  · refine Changes.step ?_ (State.setCore_changes _ _ _) rfl
    exact Changes.refl _ _
  · exact Changes.refl _ _

theorem State.loadDone_changes (s : State) (n rd a f3 pc : Nat) :
    Changes [.regs, .die, .cores, .mesh, .idle, .diag, .ibis, .outs] s (s.loadDone n rd a f3 pc) := by
  unfold State.loadDone
  split
  refine Changes.ite ?_ ?_
  · refine Changes.step ?_ (State.faultCore_changes _ _ _) rfl
    refine Changes.ofPair (by assumption) ?_
    refine Changes.step ?_ (State.keeperLines_changes _ _ _ _) rfl
    exact Changes.refl _ _
  · refine Changes.step ?_ (State.retire_changes _ _ _ _ _) rfl
    refine Changes.ofPair (by assumption) ?_
    refine Changes.step ?_ (State.keeperLines_changes _ _ _ _) rfl
    exact Changes.refl _ _

theorem State.storeDone_changes (s : State) (n a size v pc : Nat) :
    Changes [.regs, .mem, .ecc, .die, .cores, .mesh, .idle, .diag, .ibis, .outs] s (s.storeDone n a size v pc) := by
  unfold State.storeDone
  dsimp only
  refine Changes.ite ?_ ?_
  · refine Changes.step ?_ (State.faultCore_changes _ _ _) rfl
    refine Changes.step ?_ (State.storeBytes_changes _ _ _ _) rfl
    refine Changes.step ?_ (State.noteStore_changes _ _ _ _) rfl
    exact Changes.refl _ _
  · refine Changes.step ?_ (State.retire_changes _ _ _ _ _) rfl
    refine Changes.step ?_ (State.storeBytes_changes _ _ _ _) rfl
    refine Changes.step ?_ (State.noteStore_changes _ _ _ _) rfl
    exact Changes.refl _ _

theorem State.pushDone_changes (s : State) (n q pc : Nat) (e : List Byte) :
    Changes [.regs, .die, .cores] s (s.pushDone n q pc e) := by
  unfold State.pushDone
  refine Changes.step ?_ (State.retire_changes _ _ _ _ _) rfl
  refine Changes.step ?_ (State.push_changes _ _ _ _) rfl
  exact Changes.refl _ _

theorem State.issueDone_changes (s : State) (n st pc : Nat) (e : List Byte) :
    Changes [.regs, .die, .cores, .mesh, .idle, .diag, .ibis, .outs] s (s.issueDone n st pc e) := by
  unfold State.issueDone
  dsimp only
  refine Changes.ite ?_ ?_
  · refine Changes.step ?_ (State.stall_changes _ _ _) rfl
    exact Changes.refl _ _
  · refine Changes.step ?_ (State.retire_changes _ _ _ _ _) rfl
    refine Changes.step ?_ (State.setCore_changes _ _ _) rfl
    exact Changes.refl _ _

theorem State.readHalf64_changes (s : State) (n a : Nat) :
    Changes [.regs, .die, .cores, .mesh, .idle, .diag, .ibis, .outs] s (s.readHalf64 n a).1 := by
  unfold State.readHalf64
  split
  refine Changes.iteFst ?_ ?_
  · refine Changes.mkFst ?_
    refine Changes.step ?_ (State.faultCore_changes _ _ _) rfl
    refine Changes.ofPair (by assumption) ?_
    refine Changes.step ?_ (State.keeperLines_changes _ _ _ _) rfl
    exact Changes.refl _ _
  · refine Changes.mkFst ?_
    refine Changes.ofPair (by assumption) ?_
    refine Changes.step ?_ (State.keeperLines_changes _ _ _ _) rfl
    exact Changes.refl _ _

theorem State.narrowStep_changes (s : State) (n pc : Nat) (op : NarrowOp) :
    Changes [.regs, .mem, .ecc, .die, .cores, .mesh, .idle, .diag, .ibis, .outs] s (s.narrowStep n pc op) := by
  unfold State.narrowStep
  dsimp only
  split
  · refine Changes.step ?_ (State.loadDone_changes _ _ _ _ _ _) rfl
    refine Changes.step ?_ (State.takeNarrow_changes _ _ _) rfl
    exact Changes.refl _ _
  · refine Changes.step ?_ (State.storeDone_changes _ _ _ _ _ _) rfl
    refine Changes.step ?_ (State.takeNarrow_changes _ _ _) rfl
    exact Changes.refl _ _
  · split
    · refine Changes.ofPair (by assumption) ?_
      refine Changes.step ?_ (State.readHalf64_changes _ _ _) rfl
      refine Changes.step ?_ (State.takeNarrow_changes _ _ _) rfl
      exact Changes.refl _ _
    · refine Changes.ite ?_ ?_
      · refine Changes.step ?_ (State.stall_changes _ _ _) rfl
        refine Changes.ofPair (by assumption) ?_
        refine Changes.step ?_ (State.readHalf64_changes _ _ _) rfl
        refine Changes.step ?_ (State.takeNarrow_changes _ _ _) rfl
        exact Changes.refl _ _
      · refine Changes.step ?_ (State.pushDone_changes _ _ _ _ _) rfl
        refine Changes.ofPair (by assumption) ?_
        refine Changes.step ?_ (State.readHalf64_changes _ _ _) rfl
        refine Changes.step ?_ (State.takeNarrow_changes _ _ _) rfl
        exact Changes.refl _ _
  · split
    · refine Changes.ofPair (by assumption) ?_
      refine Changes.step ?_ (State.readHalf64_changes _ _ _) rfl
      refine Changes.step ?_ (State.takeNarrow_changes _ _ _) rfl
      exact Changes.refl _ _
    · refine Changes.ite ?_ ?_
      · refine Changes.step ?_ (State.stall_changes _ _ _) rfl
        refine Changes.ofPair (by assumption) ?_
        refine Changes.step ?_ (State.readHalf64_changes _ _ _) rfl
        refine Changes.step ?_ (State.takeNarrow_changes _ _ _) rfl
        exact Changes.refl _ _
      · refine Changes.step ?_ (State.issueDone_changes _ _ _ _ _) rfl
        refine Changes.ofPair (by assumption) ?_
        refine Changes.step ?_ (State.readHalf64_changes _ _ _) rfl
        refine Changes.step ?_ (State.takeNarrow_changes _ _ _) rfl
        exact Changes.refl _ _
  · refine Changes.ite ?_ ?_
    · refine Changes.step ?_ (State.stall_changes _ _ _) rfl
      refine Changes.step ?_ (State.storeBytes_changes _ _ _ _) rfl
      refine Changes.step ?_ (State.takeNarrow_changes _ _ _) rfl
      exact Changes.refl _ _
    · refine Changes.step ?_ (State.retire_changes _ _ _ _ _) rfl
      refine Changes.step ?_ (State.storeBytes_changes _ _ _ _) rfl
      refine Changes.step ?_ (State.takeNarrow_changes _ _ _) rfl
      exact Changes.refl _ _

theorem State.narrowTry_changes (s : State) (n pc : Nat) (op : NarrowOp) :
    Changes [.regs, .mem, .ecc, .die, .cores, .mesh, .idle, .diag, .ibis, .outs] s (s.narrowTry n pc op) := by
  unfold State.narrowTry
  refine Changes.ite ?_ ?_
  · refine Changes.step ?_ (State.narrowStep_changes _ _ _ _) rfl
    exact Changes.refl _ _
  · refine Changes.step ?_ (State.stall_changes _ _ _) rfl
    exact Changes.refl _ _

theorem State.readHalf_changes (s : State) (n o : Nat) :
    Changes [.cores] s (s.readHalf n o).1 := by
  unfold State.readHalf
  dsimp only
  refine Changes.iteFst ?_ ?_
  · refine Changes.mkFst ?_
    refine Changes.step ?_ (State.setCore_changes _ _ _) rfl
    exact Changes.refl _ _
  · refine Changes.mkFst ?_
    refine Changes.step ?_ (State.setCore_changes _ _ _) rfl
    exact Changes.refl _ _

theorem State.writeHalf_changes (s : State) (n o v : Nat) :
    Changes [.regs, .die, .cores, .mesh, .idle, .diag, .ibis, .outs] s (s.writeHalf n o v) := by
  unfold State.writeHalf
  dsimp only
  refine Changes.ite ?_ ?_
  · refine Changes.step ?_ (State.setCore_changes _ _ _) rfl
    exact Changes.refl _ _
  · refine Changes.step ?_ (State.writeCoreReg_changes _ _ _ _) rfl
    refine Changes.step ?_ (State.setCore_changes _ _ _) rfl
    exact Changes.refl _ _

theorem Changes.onInstr {ps : List Part} {s0 s : State} {n : Nat} {p : KClass → Bool} {f : State → Nat → Nat → State}
    (h : Changes ps s0 s) (k : ∀ t i pc, Changes ps s0 t → Changes ps s0 (f t i pc))
    (hs : partsIn [.regs, .mesh, .idle, .diag, .ibis, .outs] ps = true := by rfl) : Changes ps s0 (s.onInstr n p f) := by
  unfold State.onInstr
  refine Changes.ite h ?_
  split
  · exact h
  · rename_i t i len e
    refine Changes.ite (k t i _ ?_) h
    exact Changes.ofPair e (h.trans ((State.fetch_changes s n).widen hs))

theorem State.keeperInstr_changes (s : State) (n : Nat) :
    Changes [.regs, .die, .cores, .mesh, .idle, .diag, .ibis, .outs] s (s.keeperInstr n) := by
  unfold State.keeperInstr
  refine Changes.ite ?_ ?_
  · exact Changes.refl _ _
  · split
    · refine Changes.ite ?_ ?_
      · refine Changes.step ?_ (State.faultCore_changes _ _ _) rfl
        refine Changes.ofPair (by assumption) ?_
        refine Changes.step ?_ (State.fetch_changes _ _) rfl
        exact Changes.refl _ _
      · refine Changes.step ?_ (State.kstop_changes _ _ _) rfl
        refine Changes.ofPair (by assumption) ?_
        refine Changes.step ?_ (State.fetch_changes _ _) rfl
        exact Changes.refl _ _
    · refine Changes.ite ?_ ?_
      · exact Changes.refl _ _
      · split
        · refine Changes.step ?_ (State.kstop_changes _ _ _) rfl
          refine Changes.ofPair (by assumption) ?_
          refine Changes.step ?_ (State.fetch_changes _ _) rfl
          exact Changes.refl _ _
        · refine Changes.ite ?_ ?_
          · refine Changes.step ?_ (State.retire_changes _ _ _ _ _) rfl
            refine Changes.ofPair (by assumption) ?_
            refine Changes.step ?_ (State.fetch_changes _ _) rfl
            exact Changes.refl _ _
          · exact Changes.refl _ _

theorem execKeeperInstruction_changes (core : Fin 256) (s : State) :
    OutChanges [.regs, .die, .cores, .mesh, .idle, .diag, .ibis, .outs] s (execKeeperInstruction core s) := by
  unfold execKeeperInstruction
  refine OutChanges.next ?_
  refine Changes.step ?_ (State.keeperInstr_changes _ _) rfl
  exact Changes.refl _ _

theorem execKeeperLoad_changes (core : Fin 256) (s : State) :
    OutChanges [.regs, .mem, .ecc, .die, .cores, .mesh, .idle, .diag, .ibis, .outs] s (execKeeperLoad core s) := by
  unfold execKeeperLoad
  dsimp only
  refine OutChanges.next ?_
  refine Changes.onInstr ?_ (fun _ _ _ _ => ?_)
  · exact Changes.refl _ _
  · refine Changes.ite ?_ ?_
    · exact Changes.refl _ _
    · refine Changes.ite ?_ ?_
      · refine Changes.step ?_ (State.kstop_changes _ _ _) rfl
        assumption
      · split
        · refine Changes.ite ?_ ?_
          · refine Changes.step ?_ (State.loadDone_changes _ _ _ _ _ _) rfl
            assumption
          · exact Changes.refl _ _
        · refine Changes.ite ?_ ?_
          · refine Changes.step ?_ (State.loadDone_changes _ _ _ _ _ _) rfl
            assumption
          · exact Changes.refl _ _
        · refine Changes.ite ?_ ?_
          · refine Changes.step ?_ (State.kstop_changes _ _ _) rfl
            assumption
          · refine Changes.ite ?_ ?_
            · refine Changes.step ?_ (State.retire_changes _ _ _ _ _) rfl
              refine Changes.step ?_ (State.readHalf_changes _ _ _) rfl
              assumption
            · exact Changes.refl _ _
        · refine Changes.ite ?_ ?_
          · refine Changes.step ?_ (State.narrowTry_changes _ _ _ _) rfl
            assumption
          · exact Changes.refl _ _
        · refine Changes.ite ?_ ?_
          · refine Changes.step ?_ (State.narrowTry_changes _ _ _ _) rfl
            assumption
          · exact Changes.refl _ _
        · refine Changes.step ?_ (State.kstop_changes _ _ _) rfl
          assumption

theorem execKeeperStore_changes (core : Fin 256) (s : State) :
    OutChanges [.regs, .mem, .ecc, .die, .cores, .mesh, .idle, .diag, .ibis, .outs] s (execKeeperStore core s) := by
  unfold execKeeperStore
  dsimp only
  refine OutChanges.next ?_
  refine Changes.onInstr ?_ (fun _ _ _ _ => ?_)
  · exact Changes.refl _ _
  · refine Changes.ite ?_ ?_
    · exact Changes.refl _ _
    · refine Changes.ite ?_ ?_
      · refine Changes.step ?_ (State.kstop_changes _ _ _) rfl
        assumption
      · split
        · refine Changes.step ?_ (State.kstop_changes _ _ _) rfl
          assumption
        · refine Changes.ite ?_ ?_
          · refine Changes.step ?_ (State.storeDone_changes _ _ _ _ _ _) rfl
            assumption
          · exact Changes.refl _ _
        · refine Changes.ite ?_ ?_
          · refine Changes.step ?_ (State.kstop_changes _ _ _) rfl
            assumption
          · refine Changes.ite ?_ ?_
            · refine Changes.step ?_ (State.writeHalf_changes _ _ _ _) rfl
              refine Changes.step ?_ (State.retire_changes _ _ _ _ _) rfl
              assumption
            · exact Changes.refl _ _
        · refine Changes.ite ?_ ?_
          · refine Changes.step ?_ (State.narrowTry_changes _ _ _ _) rfl
            assumption
          · exact Changes.refl _ _
        · refine Changes.ite ?_ ?_
          · refine Changes.step ?_ (State.narrowTry_changes _ _ _ _) rfl
            assumption
          · exact Changes.refl _ _
        · refine Changes.step ?_ (State.kstop_changes _ _ _) rfl
          assumption

theorem execCsrAccess_changes (core : Fin 256) (s : State) :
    OutChanges [.regs, .die, .cores, .mesh, .idle, .diag, .ibis, .outs] s (execCsrAccess core s) := by
  unfold execCsrAccess
  dsimp only
  refine OutChanges.next ?_
  refine Changes.onInstr ?_ (fun _ _ _ _ => ?_)
  · exact Changes.refl _ _
  · refine Changes.ite ?_ ?_
    · exact Changes.refl _ _
    · split
      · refine Changes.ite ?_ ?_
        · refine Changes.step ?_ (State.kstop_changes _ _ _) rfl
          assumption
        · refine Changes.step ?_ (State.retire_changes _ _ _ _ _) rfl
          assumption
      · refine Changes.step ?_ (State.kstop_changes _ _ _) rfl
        assumption

theorem execEbreak_changes (core : Fin 256) (s : State) :
    OutChanges [.regs, .die, .cores, .mesh, .idle, .diag, .ibis, .outs] s (execEbreak core s) := by
  unfold execEbreak
  dsimp only
  refine OutChanges.next ?_
  refine Changes.onInstr ?_ (fun _ _ _ _ => ?_)
  · exact Changes.refl _ _
  · refine Changes.ite ?_ ?_
    · refine Changes.step ?_ (State.enterHalted_changes _ _) rfl
      refine Changes.step ?_ (State.retire_changes _ _ _ _ _) rfl
      assumption
    · exact Changes.refl _ _

theorem Changes.onCustom {ps : List Part} {s0 s : State} {n : Nat} {c : Custom} {f : State → Nat → Nat → State}
    (h : Changes ps s0 s) (k : ∀ t i pc, Changes ps s0 t → Changes ps s0 (f t i pc))
    (hs : partsIn [.regs, .die, .cores, .mesh, .idle, .diag, .ibis, .outs] ps = true := by rfl) : Changes ps s0 (s.onCustom n c f) := by
  unfold State.onCustom
  refine Changes.onInstr h (fun t i pc ht => ?_) (partsIn_trans rfl hs)
  refine Changes.ite h (Changes.ite ?_ (k t i pc ht))
  exact ht.trans ((State.kstop_changes t n 0x3801).widen hs)

theorem State.keeperMisuse_changes (s : State) (n q code : Nat) :
    Changes [.regs, .die, .cores, .mesh, .idle, .diag, .ibis, .outs] s (s.keeperMisuse n q code) := by
  unfold State.keeperMisuse
  refine Changes.step ?_ (State.faultCore_changes _ _ _) rfl
  refine Changes.step ?_ (State.queueErr_changes _ _ _ _ _) rfl
  exact Changes.refl _ _

theorem execQpush_changes (core : Fin 256) (s : State) :
    OutChanges [.regs, .mem, .ecc, .die, .cores, .mesh, .idle, .diag, .ibis, .outs] s (execQpush core s) := by
  unfold execQpush
  dsimp only
  refine OutChanges.next ?_
  refine Changes.onCustom ?_ (fun _ _ _ _ => ?_)
  · exact Changes.refl _ _
  · split
    · refine Changes.step ?_ (State.kstop_changes _ _ _) rfl
      assumption
    · refine Changes.ite ?_ ?_
      · refine Changes.step ?_ (State.keeperMisuse_changes _ _ _ _) rfl
        assumption
      · refine Changes.ite ?_ ?_
        · exact Changes.refl _ _
        · split
          · refine Changes.step ?_ (State.faultCore_changes _ _ _) rfl
            refine Changes.ofPair (by assumption) ?_
            refine Changes.step ?_ (State.keeperLines_changes _ _ _ _) rfl
            assumption
          · refine Changes.step ?_ (State.pushDone_changes _ _ _ _ _) rfl
            refine Changes.ofPair (by assumption) ?_
            refine Changes.step ?_ (State.keeperLines_changes _ _ _ _) rfl
            assumption
    · refine Changes.ite ?_ ?_
      · refine Changes.step ?_ (State.keeperMisuse_changes _ _ _ _) rfl
        assumption
      · refine Changes.ite ?_ ?_
        · exact Changes.refl _ _
        · refine Changes.step ?_ (State.narrowTry_changes _ _ _ _) rfl
          assumption

theorem State.popDone_changes (s : State) (n q rd pc : Nat) (dst : Six4) :
    Changes [.regs, .mem, .ecc, .die, .cores, .mesh, .idle, .diag, .ibis, .outs] s (s.popDone n q rd pc dst) := by
  unfold State.popDone
  split
  · exact Changes.refl _ _
  · dsimp only
    split
    · refine Changes.step ?_ (State.retire_changes _ _ _ _ _) rfl
      refine Changes.step ?_ (State.storeBytes_changes _ _ _ _) rfl
      refine Changes.step ?_ (State.storeBytes_changes _ _ _ _) rfl
      refine Changes.step ?_ (State.pop_changes _ _ _) rfl
      exact Changes.refl _ _
    · refine Changes.step ?_ (State.narrowTry_changes _ _ _ _) rfl
      refine Changes.step ?_ (State.pop_changes _ _ _) rfl
      exact Changes.refl _ _
    · refine Changes.step ?_ (State.pop_changes _ _ _) rfl
      exact Changes.refl _ _

theorem execQwait_changes (core : Fin 256) (s : State) :
    OutChanges [.regs, .die, .cores, .mesh, .idle, .diag, .ibis, .outs] s (execQwait core s) := by
  unfold execQwait
  dsimp only
  refine OutChanges.next ?_
  refine Changes.onCustom ?_ (fun _ _ _ _ => ?_)
  · exact Changes.refl _ _
  · split
    · refine Changes.step ?_ (State.kstop_changes _ _ _) rfl
      assumption
    · refine Changes.ite ?_ ?_
      · refine Changes.step ?_ (State.keeperMisuse_changes _ _ _ _) rfl
        assumption
      · refine Changes.step ?_ (State.stall_changes _ _ _) rfl
        assumption

theorem execQwaitComplete_changes (core : Fin 256) (s : State) :
    OutChanges [.regs, .mem, .ecc, .die, .cores, .mesh, .idle, .diag, .ibis, .outs] s (execQwaitComplete core s) := by
  unfold execQwaitComplete
  dsimp only
  refine OutChanges.next ?_
  split
  · refine Changes.ite ?_ ?_
    · exact Changes.refl _ _
    · split
      · exact Changes.refl _ _
      · split
        · refine Changes.ite ?_ ?_
          · exact Changes.refl _ _
          · refine Changes.step ?_ (State.popDone_changes _ _ _ _ _ _) rfl
            exact Changes.refl _ _
        · refine Changes.ite ?_ ?_
          · exact Changes.refl _ _
          · refine Changes.step ?_ (State.popDone_changes _ _ _ _ _ _) rfl
            exact Changes.refl _ _
        · exact Changes.refl _ _
  · exact Changes.refl _ _

theorem execQtake_changes (core : Fin 256) (s : State) :
    OutChanges [.regs, .mem, .ecc, .die, .cores, .mesh, .idle, .diag, .ibis, .outs] s (execQtake core s) := by
  unfold execQtake
  dsimp only
  refine OutChanges.next ?_
  refine Changes.onCustom ?_ (fun _ _ _ _ => ?_)
  · exact Changes.refl _ _
  · split
    · refine Changes.step ?_ (State.kstop_changes _ _ _) rfl
      assumption
    · refine Changes.ite ?_ ?_
      · refine Changes.step ?_ (State.keeperMisuse_changes _ _ _ _) rfl
        assumption
      · refine Changes.ite ?_ ?_
        · exact Changes.refl _ _
        · refine Changes.ite ?_ ?_
          · refine Changes.step ?_ (State.keeperMisuse_changes _ _ _ _) rfl
            assumption
          · refine Changes.step ?_ (State.popDone_changes _ _ _ _ _ _) rfl
            assumption
    · refine Changes.ite ?_ ?_
      · refine Changes.step ?_ (State.keeperMisuse_changes _ _ _ _) rfl
        assumption
      · refine Changes.ite ?_ ?_
        · exact Changes.refl _ _
        · refine Changes.ite ?_ ?_
          · refine Changes.step ?_ (State.keeperMisuse_changes _ _ _ _) rfl
            assumption
          · refine Changes.step ?_ (State.popDone_changes _ _ _ _ _ _) rfl
            assumption

theorem execQcount_changes (core : Fin 256) (s : State) :
    OutChanges [.regs, .die, .cores, .mesh, .idle, .diag, .ibis, .outs] s (execQcount core s) := by
  unfold execQcount
  dsimp only
  refine OutChanges.next ?_
  refine Changes.onCustom ?_ (fun _ _ _ _ => ?_)
  · exact Changes.refl _ _
  · refine Changes.ite ?_ ?_
    · refine Changes.step ?_ (State.keeperMisuse_changes _ _ _ _) rfl
      assumption
    · refine Changes.step ?_ (State.retire_changes _ _ _ _ _) rfl
      assumption

theorem execIssue_changes (core : Fin 256) (s : State) :
    OutChanges [.regs, .mem, .ecc, .die, .cores, .mesh, .idle, .diag, .ibis, .outs] s (execIssue core s) := by
  unfold execIssue
  dsimp only
  refine OutChanges.next ?_
  refine Changes.onCustom ?_ (fun _ _ _ _ => ?_)
  · exact Changes.refl _ _
  · split
    · refine Changes.step ?_ (State.kstop_changes _ _ _) rfl
      assumption
    · refine Changes.ite ?_ ?_
      · exact Changes.refl _ _
      · split
        · refine Changes.step ?_ (State.faultCore_changes _ _ _) rfl
          refine Changes.ofPair (by assumption) ?_
          refine Changes.step ?_ (State.keeperLines_changes _ _ _ _) rfl
          assumption
        · refine Changes.step ?_ (State.issueDone_changes _ _ _ _ _) rfl
          refine Changes.ofPair (by assumption) ?_
          refine Changes.step ?_ (State.keeperLines_changes _ _ _ _) rfl
          assumption
    · refine Changes.ite ?_ ?_
      · exact Changes.refl _ _
      · refine Changes.step ?_ (State.narrowTry_changes _ _ _ _) rfl
        assumption

theorem execIssueComplete_changes (core : Fin 256) (s : State) :
    OutChanges [.regs, .die, .cores, .mesh, .idle, .diag, .ibis, .outs] s (execIssueComplete core s) := by
  unfold execIssueComplete
  dsimp only
  refine OutChanges.next ?_
  split
  · refine Changes.ite ?_ ?_
    · refine Changes.step ?_ (State.issueDone_changes _ _ _ _ _) rfl
      exact Changes.refl _ _
    · exact Changes.refl _ _
  · exact Changes.refl _ _

theorem execIfree_changes (core : Fin 256) (s : State) :
    OutChanges [.regs, .die, .cores, .mesh, .idle, .diag, .ibis, .outs] s (execIfree core s) := by
  unfold execIfree
  dsimp only
  refine OutChanges.next ?_
  refine Changes.onCustom ?_ (fun _ _ _ _ => ?_)
  · exact Changes.refl _ _
  · refine Changes.step ?_ (State.retire_changes _ _ _ _ _) rfl
    assumption

theorem execLsig_changes (core : Fin 256) (s : State) :
    OutChanges [.regs, .die, .cores, .locks, .mesh, .idle, .diag, .ibis, .outs] s (execLsig core s) := by
  unfold execLsig
  dsimp only
  refine OutChanges.next ?_
  refine Changes.onCustom ?_ (fun _ _ _ _ => ?_)
  · exact Changes.refl _ _
  · refine Changes.ite ?_ ?_
    · refine Changes.step ?_ (State.retire_changes _ _ _ _ _) rfl
      refine Changes.step ?_ (State.signal_changes _ _ _ _ _ _) rfl
      assumption
    · refine Changes.ite ?_ ?_
      · refine Changes.step ?_ (State.kstop_changes _ _ _) rfl
        assumption
      · refine Changes.step ?_ (State.retire_changes _ _ _ _ _) rfl
        refine Changes.step ?_ (State.signalTo_changes _ _ _ _ _ _) rfl
        assumption

theorem State.waitTry_changes (s : State) (n i k pc : Nat) :
    Changes [.regs, .die, .cores] s (s.waitTry n i k pc) := by
  unfold State.waitTry
  refine Changes.ite ?_ ?_
  · refine Changes.step ?_ (State.retire_changes _ _ _ _ _) rfl
    refine Changes.ite ?_ ?_
    · exact Changes.refl _ _
    · refine Changes.step ?_ (State.serve_changes _ _ _ _) rfl
      exact Changes.refl _ _
  · refine Changes.step ?_ (State.stall_changes _ _ _) rfl
    exact Changes.refl _ _

theorem execLwait_changes (core : Fin 256) (s : State) :
    OutChanges [.regs, .die, .cores, .mesh, .idle, .diag, .ibis, .outs] s (execLwait core s) := by
  unfold execLwait
  dsimp only
  refine OutChanges.next ?_
  refine Changes.onCustom ?_ (fun _ _ _ _ => ?_)
  · exact Changes.refl _ _
  · refine Changes.step ?_ (State.waitTry_changes _ _ _ _ _) rfl
    assumption

theorem execLwaitSatisfied_changes (core : Fin 256) (s : State) :
    OutChanges [.regs, .die, .cores] s (execLwaitSatisfied core s) := by
  unfold execLwaitSatisfied
  dsimp only
  refine OutChanges.next ?_
  split
  · refine Changes.ite ?_ ?_
    · refine Changes.step ?_ (State.waitTry_changes _ _ _ _ _) rfl
      exact Changes.refl _ _
    · exact Changes.refl _ _
  · exact Changes.refl _ _

theorem State.contended_changes (s : State) (n i issuer k : Nat) :
    Changes [.regs, .cores, .mesh, .idle, .diag, .ibis, .outs] s (s.contended n i issuer k) := by
  unfold State.contended
  dsimp only
  refine Changes.ite ?_ ?_
  · refine Changes.step ?_ (State.lockErr_changes _ _ _ _ _ _) rfl
    refine Changes.step ?_ (State.hwSet_changes _ _ _ _) rfl
    refine Changes.step ?_ (State.setCore_changes _ _ _) rfl
    exact Changes.refl _ _
  · exact Changes.refl _ _

theorem State.take_changes (s : State) (n i k : Nat) :
    Changes [.regs, .cores, .mesh, .idle, .diag, .ibis, .outs] s (s.take n i k) := by
  unfold State.take
  refine Changes.ite ?_ ?_
  · exact Changes.refl _ _
  · refine Changes.ite ?_ ?_
    · refine Changes.step ?_ (State.serve_changes _ _ _ _) rfl
      exact Changes.refl _ _
    · dsimp only
      refine Changes.step ?_ (State.lockErr_changes _ _ _ _ _ _) rfl
      refine Changes.step ?_ (State.hwSet_changes _ _ _ _) rfl
      refine Changes.ite ?_ ?_
      · refine Changes.step ?_ (State.contended_changes _ _ _ _ _) rfl
        exact Changes.refl _ _
      · exact Changes.refl _ _

theorem execLtake_changes (core : Fin 256) (s : State) :
    OutChanges [.regs, .die, .cores, .mesh, .idle, .diag, .ibis, .outs] s (execLtake core s) := by
  unfold execLtake
  dsimp only
  refine OutChanges.next ?_
  refine Changes.onCustom ?_ (fun _ _ _ _ => ?_)
  · exact Changes.refl _ _
  · refine Changes.step ?_ (State.retire_changes _ _ _ _ _) rfl
    refine Changes.step ?_ (State.take_changes _ _ _ _) rfl
    assumption

theorem execLread_changes (core : Fin 256) (s : State) :
    OutChanges [.regs, .die, .cores, .mesh, .idle, .diag, .ibis, .outs] s (execLread core s) := by
  unfold execLread
  dsimp only
  refine OutChanges.next ?_
  refine Changes.onCustom ?_ (fun _ _ _ _ => ?_)
  · exact Changes.refl _ _
  · refine Changes.step ?_ (State.retire_changes _ _ _ _ _) rfl
    assumption

theorem execLbar_changes (core : Fin 256) (s : State) :
    OutChanges [.regs, .die, .cores, .locks, .mesh, .idle, .diag, .ibis, .outs] s (execLbar core s) := by
  unfold execLbar
  dsimp only
  refine OutChanges.next ?_
  refine Changes.onCustom ?_ (fun _ _ _ _ => ?_)
  · exact Changes.refl _ _
  · refine Changes.step ?_ (State.retire_changes _ _ _ _ _) rfl
    refine Changes.step ?_ (State.arrive_changes _ _ _ _) rfl
    assumption

theorem State.takeEpoch_changes (s : State) :
    Changes [.regs] s (s.takeEpoch) := by
  unfold State.takeEpoch
  dsimp only
  refine Changes.step ?_ (State.put_changes _ _ _ _) rfl
  refine Changes.step ?_ (State.put_changes _ _ _ _) rfl
  exact Changes.refl _ _

theorem State.stepEpoch_changes (s : State) :
    Changes [.regs] s (s.stepEpoch) := by
  unfold State.stepEpoch
  dsimp only
  refine Changes.iteThen ?_ ?_
  · refine Changes.step ?_ (State.takeEpoch_changes _) rfl
    exact Changes.refl _ _
  · refine Changes.step ?_ (State.setReg_changes _ _ _) rfl
    exact Changes.refl _ _

theorem State.residentSwitch_changes (s : State) (weightEpoch : Nat) :
    Changes [.regs] s (s.residentSwitch weightEpoch) := by
  unfold State.residentSwitch
  refine Changes.ite ?_ ?_
  · dsimp only
    refine Changes.step ?_ (State.hwPut_changes _ _ _ _) rfl
    refine Changes.step ?_ (State.hwPut_changes _ _ _ _) rfl
    refine Changes.step ?_ (State.put_changes _ _ _ _) rfl
    exact Changes.refl _ _
  · exact Changes.refl _ _

theorem State.stepTaken_changes (s : State) :
    Changes [.regs] s (s.stepTaken) := by
  unfold State.stepTaken
  dsimp only
  refine Changes.iteThen ?_ ?_
  · refine Changes.foldl ?_ (fun _ _ => ?_)
    · exact Changes.refl _ _
    · refine Changes.ite ?_ ?_
      · exact Changes.refl _ _
      · refine Changes.step ?_ (State.put_changes _ _ _ _) rfl
        exact Changes.refl _ _
  · refine Changes.step ?_ (State.stepEpoch_changes _) rfl
    exact Changes.refl _ _

theorem State.setStep_changes (s : State) (step : Nat) :
    Changes [.regs] s (s.setStep step) := by
  unfold State.setStep
  refine Changes.step ?_ (State.stepTaken_changes _) rfl
  refine Changes.step ?_ (State.hwPut_changes _ _ _ _) rfl
  exact Changes.refl _ _

theorem State.takeStep_changes (s : State) (r : List Word) :
    Changes [.regs, .die, .weights] s (s.takeStep r) := by
  unfold State.takeStep
  dsimp only
  refine Changes.ite ?_ ?_
  · exact Changes.refl _ _
  · refine Changes.record ?_ (by intro p; cases p <;> first | exact .inl rfl | exact .inr ⟨rfl, rfl⟩ | exact .inr (by dsimp only [Part.same]))
    refine Changes.step ?_ (State.put_changes _ _ _ _) rfl
    refine Changes.iteThen ?_ ?_
    · refine Changes.step ?_ (State.residentSwitch_changes _ _) rfl
      refine Changes.step ?_ (State.setStep_changes _ _) rfl
      exact Changes.refl _ _
    · refine Changes.record ?_ (by intro p; cases p <;> first | exact .inl rfl | exact .inr ⟨rfl, rfl⟩ | exact .inr (by dsimp only [Part.same]))
      exact Changes.refl _ _

theorem State.stepBegin_changes (s : State) (n rd pc : Nat) (r : List Word) :
    Changes [.regs, .die, .cores, .weights] s (s.stepBegin n rd pc r) := by
  unfold State.stepBegin
  dsimp only
  refine Changes.step ?_ (State.retire_changes _ _ _ _ _) rfl
  refine Changes.step ?_ (State.takeStep_changes _ _) rfl
  refine Changes.step ?_ (State.holdOff_changes _ _) rfl
  refine Changes.step ?_ (State.setCore_changes _ _ _) rfl
  refine Changes.step ?_ (State.put_changes _ _ _ _) rfl
  refine Changes.step ?_ (State.put_changes _ _ _ _) rfl
  refine Changes.foldl ?_ (fun _ _ => ?_)
  · exact Changes.refl _ _
  · refine Changes.step ?_ (State.setReg_changes _ _ _) rfl
    exact Changes.refl _ _

theorem execKstepw_changes (core : Fin 256) (s : State) :
    OutChanges [.regs, .die, .cores, .mesh, .weights, .idle, .diag, .ibis, .outs] s (execKstepw core s) := by
  unfold execKstepw
  dsimp only
  refine OutChanges.next ?_
  refine Changes.onCustom ?_ (fun _ _ _ _ => ?_)
  · exact Changes.refl _ _
  · refine Changes.ite ?_ ?_
    · refine Changes.step ?_ (State.kstop_changes _ _ _) rfl
      assumption
    · split
      · refine Changes.step ?_ (State.stepBegin_changes _ _ _ _ _) rfl
        assumption
      · refine Changes.iteElse ?_ ?_
        · refine Changes.step ?_ (State.stall_changes _ _ _) rfl
          assumption
        · refine Changes.step ?_ (State.holdOn_changes _ _) rfl
          exact Changes.refl _ _

theorem execKstepwComplete_changes (core : Fin 256) (s : State) :
    OutChanges [.regs, .die, .cores, .weights] s (execKstepwComplete core s) := by
  unfold execKstepwComplete
  dsimp only
  refine OutChanges.next ?_
  split
  · refine Changes.ite ?_ ?_
    · refine Changes.step ?_ (State.stepBegin_changes _ _ _ _ _) rfl
      exact Changes.refl _ _
    · exact Changes.refl _ _
  · exact Changes.refl _ _

theorem execKsel_changes (core : Fin 256) (s : State) :
    OutChanges [.regs, .die, .cores, .mesh, .idle, .diag, .ibis, .outs] s (execKsel core s) := by
  unfold execKsel
  dsimp only
  refine OutChanges.next ?_
  refine Changes.onCustom ?_ (fun _ _ _ _ => ?_)
  · exact Changes.refl _ _
  · refine Changes.ite ?_ ?_
    · exact Changes.refl _ _
    · refine Changes.ite ?_ ?_
      · refine Changes.step ?_ (State.kstop_changes _ _ _) rfl
        assumption
      · split
        · refine Changes.step ?_ (State.faultCore_changes _ _ _) rfl
          refine Changes.ofPair (by assumption) ?_
          refine Changes.step ?_ (State.keeperLines_changes _ _ _ _) rfl
          assumption
        · refine Changes.ite ?_ ?_
          · refine Changes.step ?_ (State.kstop_changes _ _ _) rfl
            refine Changes.ofPair (by assumption) ?_
            refine Changes.step ?_ (State.keeperLines_changes _ _ _ _) rfl
            assumption
          · refine Changes.step ?_ (State.retire_changes _ _ _ _ _) rfl
            refine Changes.step ?_ (State.setCore_changes _ _ _) rfl
            refine Changes.ofPair (by assumption) ?_
            refine Changes.step ?_ (State.keeperLines_changes _ _ _ _) rfl
            assumption

theorem execKdone_changes (core : Fin 256) (s : State) :
    OutChanges [.regs, .die, .cores, .mesh, .idle, .diag, .ibis, .outs] s (execKdone core s) := by
  unfold execKdone
  dsimp only
  refine OutChanges.next ?_
  refine Changes.onCustom ?_ (fun _ _ _ _ => ?_)
  · exact Changes.refl _ _
  · refine Changes.ite ?_ ?_
    · refine Changes.step ?_ (State.kstop_changes _ _ _) rfl
      assumption
    · refine Changes.step ?_ (State.stall_changes _ _ _) rfl
      assumption

theorem State.flushPend_changes (s : State) (n : Nat) :
    Changes [.regs, .cores, .locks, .mesh, .idle, .diag, .ibis, .outs] s (s.flushPend n) := by
  unfold State.flushPend
  dsimp only
  refine Changes.ite ?_ ?_
  · exact Changes.refl _ _
  · refine Changes.foldl ?_ (fun _ _ => ?_)
    · refine Changes.step ?_ (State.put_changes _ _ _ _) rfl
      refine Changes.step ?_ (State.applyPend_changes _ _ _) rfl
      exact Changes.refl _ _
    · refine Changes.step ?_ (State.lockErr_changes _ _ _ _ _ _) rfl
      exact Changes.refl _ _

theorem execKdoneComplete_changes (core : Fin 256) (s : State) :
    OutChanges [.regs, .die, .cores, .locks, .mesh, .weights, .idle, .diag, .ibis, .outs] s (execKdoneComplete core s) := by
  unfold execKdoneComplete
  dsimp only
  refine OutChanges.next ?_
  split
  · refine Changes.ite ?_ ?_
    · exact Changes.refl _ _
    · refine Changes.step ?_ (State.retire_changes _ _ _ _ _) rfl
      refine Changes.iteThen ?_ ?_
      · refine Changes.record ?_ (by intro p; cases p <;> first | exact .inl rfl | exact .inr ⟨rfl, rfl⟩ | exact .inr (by dsimp only [Part.same]))
        refine Changes.step ?_ (State.setCore_changes _ _ _) rfl
        refine Changes.step ?_ (State.put_changes _ _ _ _) rfl
        refine Changes.step ?_ (State.flushPend_changes _ _) rfl
        split
        · refine Changes.iteThen ?_ ?_
          · refine Changes.step ?_ (State.put_changes _ _ _ _) rfl
            exact Changes.refl _ _
          · refine Changes.step ?_ (State.logCore_changes _ _ _ _ _ _) rfl
            exact Changes.refl _ _
        · refine Changes.step ?_ (State.put_changes _ _ _ _) rfl
          exact Changes.refl _ _
      · refine Changes.step ?_ (State.put_changes _ _ _ _) rfl
        exact Changes.refl _ _
  · exact Changes.refl _ _

theorem State.keeperNarrow_changes (s : State) (n : Nat) :
    Changes [.regs, .mem, .ecc, .die, .cores, .mesh, .idle, .diag, .ibis, .outs] s (s.keeperNarrow n) := by
  unfold State.keeperNarrow
  split
  · refine Changes.ite ?_ ?_
    · refine Changes.step ?_ (State.narrowStep_changes _ _ _ _) rfl
      exact Changes.refl _ _
    · exact Changes.refl _ _
  · exact Changes.refl _ _

theorem State.servePath_changes (s : State) (n : Nat) (p : PathOp) :
    Changes [.regs, .mem, .ecc, .cores, .mesh, .host, .toll, .idle, .diag, .ibis, .outs] s (s.servePath n p) := by
  unfold State.servePath
  dsimp only
  split
  · refine Changes.step ?_ (State.answer_changes _ _ _ _) rfl
    refine Changes.step ?_ (State.storeBytes_changes _ _ _ _) rfl
    refine Changes.step ?_ (State.noteStore_changes _ _ _ _) rfl
    refine Changes.step ?_ (State.takeNarrow_changes _ _ _) rfl
    exact Changes.refl _ _
  · refine Changes.step ?_ (State.answer_changes _ _ _ _) rfl
    refine Changes.step ?_ (State.noteLines_changes _ _ _ _ _) rfl
    refine Changes.step ?_ (State.takeNarrow_changes _ _ _) rfl
    exact Changes.refl _ _

theorem State.pathNarrow_changes (s : State) (n : Fin 256) :
    Changes [.regs, .mem, .ecc, .cores, .mesh, .host, .toll, .idle, .diag, .ibis, .outs] s (s.pathNarrow n) := by
  unfold State.pathNarrow
  split
  · refine Changes.ite ?_ ?_
    · refine Changes.step ?_ (State.servePath_changes _ _ _) rfl
      refine Changes.step ?_ (State.setCore_changes _ _ _) rfl
      exact Changes.refl _ _
    · exact Changes.refl _ _
  · exact Changes.refl _ _

theorem execNarrowAccessServe_changes (core : Fin 256) (s : State) :
    OutChanges [.regs, .mem, .ecc, .die, .cores, .mesh, .host, .toll, .idle, .diag, .ibis, .outs] s (execNarrowAccessServe core s) := by
  unfold execNarrowAccessServe
  refine OutChanges.next ?_
  split
  · refine Changes.ite ?_ ?_
    · refine Changes.step ?_ (State.pathNarrow_changes _ _) rfl
      exact Changes.refl _ _
    · refine Changes.step ?_ (State.keeperNarrow_changes _ _) rfl
      exact Changes.refl _ _
  · refine Changes.step ?_ (State.pathNarrow_changes _ _) rfl
    exact Changes.refl _ _

/-! ### Movers -/

theorem State.copyLine_changes (s : State) (src dst : Nat) :
    Changes [.mem, .ecc, .cores] s (s.copyLine src dst) := by
  unfold State.copyLine
  refine Changes.step ?_ (State.lineWrite_changes _ _ _ _ _ _) rfl
  exact Changes.refl _ _

theorem State.feedPiece_changes (s : State) (n : Nat) (o : FeedOp) (bas oth : Nat) (p : Nat × Nat) :
    Changes [.regs, .mem, .ecc, .cores, .mesh, .idle, .diag, .ibis, .outs] s (s.feedPiece n o bas oth p) := by
  unfold State.feedPiece
  dsimp only
  refine Changes.step ?_ (State.setCore_changes _ _ _) rfl
  refine Changes.foldl ?_ (fun _ _ => ?_)
  · refine Changes.step ?_ (State.taint_changes _ _ _ _) rfl
    refine Changes.step ?_ (State.readLines_changes _ _ _ _ _) rfl
    exact Changes.refl _ _
  · refine Changes.step ?_ (State.copyLine_changes _ _ _) rfl
    exact Changes.refl _ _

theorem State.feedUnits_changes (s : State) (n : Nat) (o : FeedOp) (k : Nat) (ps : List (Nat × Nat)) :
    Changes [.regs, .mem, .ecc, .cores, .mesh, .idle, .diag, .ibis, .outs] s (s.feedUnits n o k ps) := by
  unfold State.feedUnits
  split
  split
  refine Changes.step ?_ (State.modRun_changes _ _ _ _) rfl
  refine Changes.foldl ?_ (fun _ _ => ?_)
  · refine Changes.ofPair (by assumption) ?_
    refine Changes.step ?_ (State.giveBanks_changes _ _) rfl
    exact Changes.refl _ _
  · refine Changes.step ?_ (State.feedPiece_changes _ _ _ _ _ _) rfl
    exact Changes.refl _ _

theorem State.feedStep_changes (s : State) (n : Nat) :
    Changes [.regs, .mem, .ecc, .cores, .mesh, .idle, .diag, .ibis, .outs] s (s.feedStep n) := by
  unfold State.feedStep
  split
  · exact Changes.refl _ _
  · refine Changes.ite ?_ ?_
    · refine Changes.step ?_ (State.feedUnits_changes _ _ _ _ _) rfl
      exact Changes.refl _ _
    · refine Changes.ite ?_ ?_
      · exact Changes.refl _ _
      · split
        refine Changes.step ?_ (State.feedUnits_changes _ _ _ _ _) rfl
        refine Changes.step ?_ (State.modRun_changes _ _ _ _) rfl
        exact Changes.refl _ _

theorem State.feedBeat_changes (s : State) (n : Nat) :
    Changes [.regs, .mem, .ecc, .cores, .mesh, .idle, .diag, .ibis, .outs] s (s.feedBeat n) := by
  unfold State.feedBeat
  split
  · refine Changes.ite ?_ ?_
    · refine Changes.step ?_ (State.feedStep_changes _ _) rfl
      exact Changes.refl _ _
    · exact Changes.refl _ _
  · exact Changes.refl _ _

theorem State.startFeed_changes (s : State) (n : Nat) (legacy load : Bool) :
    Changes [.regs, .die, .cores, .mesh, .idle, .diag, .ibis, .outs] s (s.startFeed n legacy load) := by
  unfold State.startFeed
  refine Changes.startOp ?_ (fun _ _ _ => ?_)
  · exact Changes.refl _ _
  · refine Changes.step ?_ (State.modRun_changes _ _ _ _) rfl
    exact Changes.refl _ _

theorem execFload_changes (core : Fin 256) (s : State) :
    OutChanges [.regs, .die, .cores, .mesh, .idle, .diag, .ibis, .outs] s (execFload core s) := by
  unfold execFload
  refine OutChanges.next ?_
  refine Changes.step ?_ (State.startFeed_changes _ _ _ _) rfl
  exact Changes.refl _ _

theorem execFstore_changes (core : Fin 256) (s : State) :
    OutChanges [.regs, .die, .cores, .mesh, .idle, .diag, .ibis, .outs] s (execFstore core s) := by
  unfold execFstore
  refine OutChanges.next ?_
  refine Changes.step ?_ (State.startFeed_changes _ _ _ _) rfl
  exact Changes.refl _ _

theorem execLload_changes (core : Fin 256) (s : State) :
    OutChanges [.regs, .die, .cores, .mesh, .idle, .diag, .ibis, .outs] s (execLload core s) := by
  unfold execLload
  refine OutChanges.next ?_
  refine Changes.step ?_ (State.startFeed_changes _ _ _ _) rfl
  exact Changes.refl _ _

theorem execLstore_changes (core : Fin 256) (s : State) :
    OutChanges [.regs, .die, .cores, .mesh, .idle, .diag, .ibis, .outs] s (execLstore core s) := by
  unfold execLstore
  refine OutChanges.next ?_
  refine Changes.step ?_ (State.startFeed_changes _ _ _ _) rfl
  exact Changes.refl _ _

theorem State.startSlu_changes (s : State) (n : Nat) (legacy : Bool) (p : OpKind → Bool) :
    Changes [.regs, .die, .cores, .mesh, .fabric, .idle, .diag, .ibis, .outs] s (s.startSlu n legacy p) := by
  unfold State.startSlu
  refine Changes.startOp ?_ (fun _ _ _ => ?_)
  · exact Changes.refl _ _
  · refine Changes.step ?_ (State.sluStart_changes _ _ _ _) rfl
    exact Changes.refl _ _

theorem execScopy_changes (core : Fin 256) (s : State) :
    OutChanges [.regs, .die, .cores, .mesh, .fabric, .idle, .diag, .ibis, .outs] s (execScopy core s) := by
  unfold execScopy
  refine OutChanges.next ?_
  refine Changes.step ?_ (State.startSlu_changes _ _ _ _) rfl
  exact Changes.refl _ _

theorem execScast_changes (core : Fin 256) (s : State) :
    OutChanges [.regs, .die, .cores, .mesh, .fabric, .idle, .diag, .ibis, .outs] s (execScast core s) := by
  unfold execScast
  refine OutChanges.next ?_
  refine Changes.step ?_ (State.startSlu_changes _ _ _ _) rfl
  exact Changes.refl _ _

theorem execSkvr_changes (core : Fin 256) (s : State) :
    OutChanges [.regs, .die, .cores, .mesh, .fabric, .idle, .diag, .ibis, .outs] s (execSkvr core s) := by
  unfold execSkvr
  refine OutChanges.next ?_
  refine Changes.step ?_ (State.startSlu_changes _ _ _ _) rfl
  exact Changes.refl _ _

theorem execSkvw_changes (core : Fin 256) (s : State) :
    OutChanges [.regs, .die, .cores, .mesh, .fabric, .idle, .diag, .ibis, .outs] s (execSkvw core s) := by
  unfold execSkvw
  refine OutChanges.next ?_
  refine Changes.step ?_ (State.startSlu_changes _ _ _ _) rfl
  exact Changes.refl _ _

theorem execLcopy_changes (core : Fin 256) (s : State) :
    OutChanges [.regs, .die, .cores, .mesh, .fabric, .idle, .diag, .ibis, .outs] s (execLcopy core s) := by
  unfold execLcopy
  refine OutChanges.next ?_
  refine Changes.step ?_ (State.startSlu_changes _ _ _ _) rfl
  exact Changes.refl _ _

theorem State.redServe_changes (s : State) (n sl : Nat) (o : RedOp) (p : Nat × Nat) :
    Changes [.regs, .mem, .ecc, .cores, .mesh, .idle, .diag, .ibis, .outs] s (s.redServe n sl o p) := by
  unfold State.redServe
  dsimp only
  split
  · exact Changes.refl _ _
  · refine Changes.ite ?_ ?_
    · refine Changes.step ?_ (State.modRun_changes _ _ _ _) rfl
      refine Changes.step ?_ (State.taint_changes _ _ _ _) rfl
      refine Changes.step ?_ (State.readLines_changes _ _ _ _ _) rfl
      exact Changes.refl _ _
    · refine Changes.step ?_ (State.applyWrites_changes _ _ _ _ _) rfl
      exact Changes.refl _ _

theorem State.redList_changes (s : State) (n sl : Nat) (r : RunOp) (o : RedOp) :
    Changes [.regs, .cores, .mesh, .idle, .diag, .ibis, .outs] s (s.redList n sl r o) := by
  unfold State.redList
  refine Changes.ite ?_ ?_
  · refine Changes.step ?_ (State.logCore_changes _ _ _ _ _ _) rfl
    refine Changes.step ?_ (State.taint_changes _ _ _ _) rfl
    exact Changes.refl _ _
  · exact Changes.refl _ _

theorem State.redSum_changes (s : State) (n sl : Nat) (r : RunOp) (o : RedOp) :
    Changes [.regs, .cores, .mesh, .idle, .diag, .ibis, .outs] s (s.redSum n sl r o) := by
  unfold State.redSum
  dsimp only
  refine Changes.step ?_ (State.modRun_changes _ _ _ _) rfl
  refine Changes.iteThen ?_ ?_
  · refine Changes.ite ?_ ?_
    · refine Changes.step ?_ (State.put_changes _ _ _ _) rfl
      exact Changes.refl _ _
    · exact Changes.refl _ _
  · refine Changes.step ?_ (State.logCore_changes _ _ _ _ _ _) rfl
    exact Changes.refl _ _

theorem State.redStep_changes (s : State) (n sl : Nat) :
    Changes [.regs, .mem, .ecc, .cores, .mesh, .idle, .diag, .ibis, .outs] s (s.redStep n sl) := by
  unfold State.redStep
  dsimp only
  split
  · exact Changes.refl _ _
  · refine Changes.ite ?_ ?_
    · exact Changes.refl _ _
    · split
      · refine Changes.iteElse ?_ ?_
        · refine Changes.foldl ?_ (fun _ _ => ?_)
          · refine Changes.step ?_ (State.modRun_changes _ _ _ _) rfl
            refine Changes.step ?_ (State.giveBanks_changes _ _) rfl
            exact Changes.refl _ _
          · refine Changes.step ?_ (State.redServe_changes _ _ _ _ _) rfl
            exact Changes.refl _ _
        · refine Changes.ite ?_ ?_
          · refine Changes.step ?_ (State.redList_changes _ _ _ _ _) rfl
            exact Changes.refl _ _
          · refine Changes.ite ?_ ?_
            · refine Changes.step ?_ (State.redSum_changes _ _ _ _ _) rfl
              exact Changes.refl _ _
            · exact Changes.refl _ _
      · refine Changes.foldl ?_ (fun _ _ => ?_)
        · refine Changes.step ?_ (State.modRun_changes _ _ _ _) rfl
          refine Changes.step ?_ (State.giveBanks_changes _ _) rfl
          exact Changes.refl _ _
        · refine Changes.step ?_ (State.redServe_changes _ _ _ _ _) rfl
          exact Changes.refl _ _

theorem State.sluiceBeat_changes (s : State) (n sl : Nat) :
    Changes [.regs, .mem, .ecc, .cores, .mesh, .fabric, .idle, .diag, .ibis, .outs] s (s.sluiceBeat n sl) := by
  unfold State.sluiceBeat
  split
  · refine Changes.ite ?_ ?_
    · refine Changes.step ?_ (State.redStep_changes _ _ _) rfl
      exact Changes.refl _ _
    · exact Changes.refl _ _
  · refine Changes.step ?_ (State.sluBeat_changes _ _ _) rfl
    exact Changes.refl _ _

theorem execSred_changes (core : Fin 256) (s : State) :
    OutChanges [.regs, .die, .cores, .mesh, .idle, .diag, .ibis, .outs] s (execSred core s) := by
  unfold execSred
  refine OutChanges.next ?_
  refine Changes.startOp ?_ (fun _ _ _ => ?_)
  · exact Changes.refl _ _
  · split
    · dsimp only
      refine Changes.step ?_ (State.modRun_changes _ _ _ _) rfl
      refine Changes.step ?_ (State.addTo_changes _ _ _ _) rfl
      exact Changes.refl _ _
    · exact Changes.refl _ _

theorem State.lateTransfer_changes (s : State) (n : Nat) (u : UnitId) (hold link : Bool) :
    Changes [.regs, .die, .cores, .mesh, .idle, .diag, .ibis, .outs] s (s.lateTransfer n u hold link) := by
  unfold State.lateTransfer
  dsimp only
  refine Changes.ite ?_ ?_
  · refine Changes.step ?_ (State.holdOn_changes _ _) rfl
    refine Changes.ite ?_ ?_
    · refine Changes.step ?_ (State.logCore_changes _ _ _ _ _ _) rfl
      refine Changes.record ?_ (by intro p; cases p <;> first | exact .inl rfl | exact .inr ⟨rfl, rfl⟩ | exact .inr (by dsimp only [Part.same]))
      exact Changes.refl _ _
    · exact Changes.refl _ _
  · refine Changes.step ?_ (State.lateAccess_changes _ _ _) rfl
    refine Changes.ite ?_ ?_
    · refine Changes.step ?_ (State.logCore_changes _ _ _ _ _ _) rfl
      refine Changes.record ?_ (by intro p; cases p <;> first | exact .inl rfl | exact .inr ⟨rfl, rfl⟩ | exact .inr (by dsimp only [Part.same]))
      exact Changes.refl _ _
    · exact Changes.refl _ _

theorem State.unitEnd_changes (s : State) (n : Nat) (u : UnitId) (r : RunOp) :
    Changes [.regs, .mem, .ecc, .cores, .mesh, .idle, .diag, .ibis, .outs] s (s.unitEnd n u r) := by
  unfold State.unitEnd
  split
  · refine Changes.step ?_ (State.mmulEnd_changes _ _ _) rfl
    exact Changes.refl _ _
  · refine Changes.step ?_ (State.vecEnd_changes _ _ _) rfl
    exact Changes.refl _ _
  · exact Changes.refl _ _
  · refine Changes.step ?_ (State.showTx_changes _ _ _) rfl
    refine Changes.step ?_ (State.delTx_changes _ _ _) rfl
    exact Changes.refl _ _
  · exact Changes.refl _ _

theorem State.showAfter_changes (s : State) (n : Nat) (u : UnitId) :
    Changes [.regs] s (s.showAfter n u) := by
  unfold State.showAfter
  split
  · refine Changes.step ?_ (State.showTx_changes _ _ _) rfl
    exact Changes.refl _ _
  · exact Changes.refl _ _

theorem State.lastBeat_changes (s : State) (n : Nat) (u : UnitId) :
    Changes [.regs, .mem, .ecc, .die, .cores, .locks, .mesh, .fabric, .idle, .diag, .ibis, .outs] s (s.lastBeat n u) := by
  unfold State.lastBeat
  split
  · exact Changes.refl _ _
  · refine Changes.ite ?_ ?_
    · exact Changes.refl _ _
    · refine Changes.ite ?_ ?_
      · exact Changes.refl _ _
      · refine Changes.ite ?_ ?_
        · refine Changes.step ?_ (State.arrayCheck_changes _ _) rfl
          exact Changes.refl _ _
        · split
          · refine Changes.ite ?_ ?_
            · exact Changes.refl _ _
            · refine Changes.step ?_ (State.lateTransfer_changes _ _ _ _ _) rfl
              exact Changes.refl _ _
          · dsimp only
            refine Changes.step ?_ (State.showAfter_changes _ _ _) rfl
            refine Changes.step ?_ (State.endOp_changes _ _ _ _ _) rfl
            refine Changes.step ?_ (State.unitEnd_changes _ _ _ _) rfl
            exact Changes.refl _ _

theorem execMacroOpLastBeat_changes (core : Fin 256) (unit : UnitId) (s : State) :
    OutChanges [.regs, .mem, .ecc, .die, .cores, .locks, .mesh, .fabric, .idle, .diag, .ibis, .outs] s (execMacroOpLastBeat core unit s) := by
  unfold execMacroOpLastBeat
  refine OutChanges.next ?_
  refine Changes.step ?_ (State.lastBeat_changes _ _ _) rfl
  exact Changes.refl _ _

theorem execLateItemArrival_changes (core : Fin 256) (unit : UnitId) (s : State) :
    OutChanges [.regs, .mem, .ecc, .die, .cores, .mesh, .fabric, .idle, .diag, .ibis, .outs] s (execLateItemArrival core unit s) := by
  unfold execLateItemArrival
  dsimp only
  refine OutChanges.ite ?_ ?_
  · refine OutChanges.next ?_
    exact Changes.refl _ _
  · split
    · refine OutChanges.next ?_
      exact Changes.refl _ _
    · refine OutChanges.next ?_
      refine Changes.iteThen ?_ ?_
      · split
        · split
          · refine Changes.foldl ?_ (fun _ _ => ?_)
            · exact Changes.refl _ _
            · refine Changes.step ?_ (State.feedStep_changes _ _) rfl
              exact Changes.refl _ _
          · exact Changes.refl _ _
        · split
          · refine Changes.foldl ?_ (fun _ _ => ?_)
            · exact Changes.refl _ _
            · refine Changes.step ?_ (State.redStep_changes _ _ _) rfl
              exact Changes.refl _ _
          · refine Changes.step ?_ (State.sluBeat_changes _ _ _) rfl
            exact Changes.refl _ _
        · exact Changes.refl _ _
      · refine Changes.step ?_ (State.holdOff_changes _ _) rfl
        exact Changes.refl _ _

/-! ### Locks -/

theorem State.takeSignal_some {s t : State} {k : Nat} {b : Barge} (h : s.takeSignal k = some (b, t)) : Changes [.mesh] s t := by
  unfold State.takeSignal at h
  obtain ⟨⟨x, u⟩, hx, he⟩ := Option.map_eq_some_iff.mp h
  simp only [Prod.mk.injEq] at he
  obtain ⟨-, rfl⟩ := he
  exact State.takeArrival_some hx


theorem execOpenBarge_changes (a : Agent) (s : State) :
    OutChanges [.regs, .mesh, .fabric, .idle, .diag, .ibis, .outs] s (execOpenBarge a s) := by
  unfold execOpenBarge
  split
  · dsimp only
    refine OutChanges.next ?_
    refine Changes.ite ?_ ?_
    · exact Changes.refl _ _
    · refine Changes.step ?_ (State.openAt_changes _ _ _ _) rfl
      refine Changes.step ?_ (State.takeArrival_some (by assumption)) rfl
      exact Changes.refl _ _
  · refine OutChanges.next ?_
    exact Changes.refl _ _

theorem execSyncSignalArrival_changes (core : Fin 256) (s : State) :
    OutChanges [.cores, .locks] s (execSyncSignalArrival core s) := by
  unfold execSyncSignalArrival
  refine OutChanges.ite ?_ ?_
  · refine OutChanges.next ?_
    refine Changes.step ?_ (State.applySync_changes _ _) rfl
    exact Changes.refl _ _
  · refine OutChanges.next ?_
    exact Changes.refl _ _

theorem State.applyRelease_changes (s : State) (r : Release) :
    Changes [.cores] s (s.applyRelease r).1 := by
  unfold State.applyRelease
  dsimp only
  refine Changes.foldl ?_ (fun _ _ => ?_)
  · exact Changes.refl _ _
  · refine Changes.step ?_ (State.signal_changes _ _ _ _ _ _) rfl
    exact Changes.refl _ _

theorem execBarrierRelease_changes (slot : Fin 64) (s : State) :
    OutChanges [.regs, .die, .cores, .locks, .mesh, .idle, .diag, .ibis, .outs] s (execBarrierRelease slot s) := by
  unfold execBarrierRelease
  dsimp only
  refine OutChanges.next ?_
  refine Changes.foldl ?_ (fun _ _ => ?_)
  · refine Changes.record ?_ (by intro p; cases p <;> first | exact .inl rfl | exact .inr ⟨rfl, rfl⟩ | exact .inr (by dsimp only [Part.same]))
    refine Changes.step ?_ (State.slotAgain_changes _ _) rfl
    exact Changes.refl _ _
  · split
    · refine Changes.record ?_ (by intro p; cases p <;> first | exact .inl rfl | exact .inr ⟨rfl, rfl⟩ | exact .inr (by dsimp only [Part.same]))
      refine Changes.step ?_ (State.applyRelease_changes _ _) rfl
      exact Changes.refl _ _
    · refine Changes.step ?_ (State.applyRelease_changes _ _) rfl
      exact Changes.refl _ _

theorem execChipArrival_changes (s : State) :
    OutChanges [.regs, .die, .cores, .locks, .mesh, .idle, .diag, .ibis, .outs] s (execChipArrival s) := by
  unfold execChipArrival
  split
  · refine OutChanges.next ?_
    refine Changes.step ?_ (State.chipArrive_changes _ _ _ _) rfl
    refine Changes.step ?_ (State.takeSignal_some (by assumption)) rfl
    exact Changes.refl _ _
  · refine OutChanges.next ?_
    exact Changes.refl _ _

theorem execFabricRelease_changes (s : State) :
    OutChanges [.regs, .die, .cores, .locks, .mesh, .idle, .diag, .ibis, .outs] s (execFabricRelease s) := by
  unfold execFabricRelease
  split
  · refine OutChanges.next ?_
    exact Changes.refl _ _
  · refine OutChanges.next ?_
    refine Changes.step ?_ (State.pendRelease_changes _ _ _ _) rfl
    refine Changes.step ?_ (State.takeSignal_some (by assumption)) rfl
    exact Changes.refl _ _

theorem execSlotArm_changes (slot : Fin 64) (v : Word) (s : State) :
    OutChanges [.regs, .locks, .mesh, .idle, .diag, .ibis, .outs] s (execSlotArm slot v s) := by
  unfold execSlotArm
  refine OutChanges.next ?_
  refine Changes.step ?_ (State.writeSlotCtrl_changes _ _ _) rfl
  exact Changes.refl _ _

theorem execSlotDisarm_changes (slot : Fin 64) (s : State) :
    OutChanges [.regs, .locks, .mesh, .idle, .diag, .ibis, .outs] s (execSlotDisarm slot s) := by
  unfold execSlotDisarm
  refine OutChanges.next ?_
  refine Changes.step ?_ (State.writeSlotCtrl_changes _ _ _) rfl
  exact Changes.refl _ _

theorem State.signalIn_changes (s : State) (b : Barge) :
    Changes [.regs, .die, .cores, .locks, .mesh, .idle, .diag, .ibis, .outs] s (s.signalIn b) := by
  unfold State.signalIn
  dsimp only
  refine Changes.ite ?_ ?_
  · refine Changes.step ?_ (State.lost3308_changes _ _ _ _) rfl
    exact Changes.refl _ _
  · refine Changes.ite ?_ ?_
    · refine Changes.step ?_ (State.endWait_changes _ _ _ _) rfl
      exact Changes.refl _ _
    · refine Changes.ite ?_ ?_
      · refine Changes.step ?_ (State.applyFull_changes _ _ _ _) rfl
        exact Changes.refl _ _
      · refine Changes.step ?_ (State.showPend_changes _) rfl
        refine Changes.record ?_ (by intro p; cases p <;> first | exact .inl rfl | exact .inr ⟨rfl, rfl⟩ | exact .inr (by dsimp only [Part.same]))
        exact Changes.refl _ _

theorem execSignalBarge_changes (s : State) :
    OutChanges [.regs, .die, .cores, .locks, .mesh, .idle, .diag, .ibis, .outs] s (execSignalBarge s) := by
  unfold execSignalBarge
  split
  · refine OutChanges.next ?_
    refine Changes.step ?_ (State.signalIn_changes _ _) rfl
    refine Changes.step ?_ (State.takeSignal_some (by assumption)) rfl
    exact Changes.refl _ _
  · refine OutChanges.next ?_
    exact Changes.refl _ _

theorem execPendingSignalApply_changes (core : Fin 256) (s : State) :
    OutChanges [.regs, .cores, .locks] s (execPendingSignalApply core s) := by
  unfold execPendingSignalApply
  refine OutChanges.ite ?_ ?_
  · refine OutChanges.next ?_
    refine Changes.step ?_ (State.applyPend_changes _ _ _) rfl
    exact Changes.refl _ _
  · refine OutChanges.next ?_
    exact Changes.refl _ _

/-! ### Beat -/

theorem State.showBeat_changes (s : State) :
    Changes [.regs] s (s.showBeat) := by
  unfold State.showBeat
  dsimp only
  refine Changes.ite ?_ ?_
  · exact Changes.refl _ _
  · refine Changes.step ?_ (State.put_changes _ _ _ _) rfl
    exact Changes.refl _ _

theorem Changes.eachCore {ps : List Part} {s0 s : State} {r : Nat} {f : State → Nat → State} (h : Changes ps s0 s)
    (k : ∀ t n, Changes ps t (f t n)) : Changes ps s0 (s.eachCore r f) := by
  unfold State.eachCore
  refine Changes.foldl h (fun t n => ?_)
  exact Changes.ite (k t n) (Changes.refl _ _)

theorem State.newBeat_changes (s : State) (n : Nat) :
    Changes [.cores] s (s.newBeat n) := by
  unfold State.newBeat
  dsimp only
  refine Changes.ite ?_ ?_
  · exact Changes.refl _ _
  · refine Changes.step ?_ (State.setCore_changes _ _ _) rfl
    exact Changes.refl _ _

theorem State.beatWork_changes (s : State) (r : Nat) :
    Changes [.regs, .mem, .ecc, .cores, .mesh, .fabric, .idle, .diag, .ibis, .outs] s (s.beatWork r) := by
  unfold State.beatWork
  dsimp only
  refine Changes.eachCore ?_ (fun _ _ => ?_)
  · refine Changes.eachCore ?_ (fun _ _ => ?_)
    · refine Changes.eachCore ?_ (fun _ _ => ?_)
      · refine Changes.eachCore ?_ (fun _ _ => ?_)
        · refine Changes.eachCore ?_ (fun _ _ => ?_)
          · refine Changes.eachCore ?_ (fun _ _ => ?_)
            · refine Changes.eachCore ?_ (fun _ _ => ?_)
              · exact Changes.refl _ _
              · refine Changes.step ?_ (State.newBeat_changes _ _) rfl
                exact Changes.refl _ _
            · refine Changes.step ?_ (State.arrayBeat_changes _ _) rfl
              exact Changes.refl _ _
          · refine Changes.step ?_ (State.reserveIngress_changes _ _) rfl
            exact Changes.refl _ _
        · refine Changes.step ?_ (State.feedBeat_changes _ _) rfl
          exact Changes.refl _ _
      · refine Changes.step ?_ (State.wsServe_changes _ _) rfl
        exact Changes.refl _ _
    · refine Changes.foldl ?_ (fun _ _ => ?_)
      · exact Changes.refl _ _
      · refine Changes.step ?_ (State.sluiceBeat_changes _ _ _) rfl
        exact Changes.refl _ _
  · refine Changes.step ?_ (State.reserveRead_changes _ _) rfl
    exact Changes.refl _ _

theorem State.arriveTriggers_changes (s : State) (b : Nat) :
    Changes [.regs, .diag, .outs] s (s.arriveTriggers b) := by
  unfold State.arriveTriggers
  dsimp only
  refine Changes.foldl ?_ (fun _ _ => ?_)
  · refine Changes.record ?_ (by intro p; cases p <;> first | exact .inl rfl | exact .inr ⟨rfl, rfl⟩ | exact .inr (by dsimp only [Part.same]))
    exact Changes.refl _ _
  · refine Changes.step ?_ (State.capture_changes _ _ _ _) rfl
    exact Changes.refl _ _

theorem State.stepMatch_changes (s : State) (r : Nat) :
    Changes [.regs, .idle, .diag, .outs] s (s.stepMatch r) := by
  unfold State.stepMatch
  split
  · refine Changes.ite ?_ ?_
    · refine Changes.step ?_ (State.trigger_changes _ _ _ _) rfl
      exact Changes.refl _ _
    · exact Changes.refl _ _
  · exact Changes.refl _ _

theorem State.stretch_changes (s : State) (r : Nat) :
    Changes [.regs, .reaches] s (s.stretch r) := by
  unfold State.stretch
  dsimp only
  refine Changes.ite ?_ ?_
  · exact Changes.refl _ _
  · refine Changes.step ?_ (State.setReach_changes _ _ _) rfl
    refine Changes.step ?_ (State.addTo_changes _ _ _ _) rfl
    refine Changes.step ?_ (State.addTo_changes _ _ _ _) rfl
    exact Changes.refl _ _

theorem State.token_changes (s : State) (r : Nat) (codes : List Byte) :
    Changes [.now, .regs, .mem, .ecc, .reaches, .die, .cores, .locks, .mesh, .holds, .fabric, .weights, .idle, .diag, .ibis, .outs] s (s.token r codes) := by
  unfold State.token
  refine Changes.ite ?_ ?_
  · exact Changes.refl _ _
  · dsimp only
    refine Changes.step ?_ (State.stepMatch_changes _ _) rfl
    refine Changes.step ?_ (State.fillWork_changes _) rfl
    refine Changes.step ?_ (State.beatWork_changes _ _) rfl
    refine Changes.step ?_ (State.measure_changes _ _ _) rfl
    refine Changes.step ?_ (State.slotsDrain_changes _) rfl
    refine Changes.step ?_ (State.showBeat_changes _) rfl
    refine Changes.step ?_ (State.arriveTriggers_changes _ _) rfl
    refine Changes.step ?_ (State.setReach_changes _ _ _) rfl
    refine Changes.step ?_ (State.stretch_changes _ _) rfl
    refine Changes.step ?_ (State.advanceTo_changes _ _) rfl
    exact Changes.refl _ _

theorem State.contentions_changes (s : State) (n : Nat) :
    Changes [.regs, .cores, .mesh, .idle, .diag, .ibis, .outs] s (s.contentions n) := by
  unfold State.contentions
  dsimp only
  split
  · refine Changes.ite ?_ ?_
    · refine Changes.step ?_ (State.contended_changes _ _ _ _ _) rfl
      split
      · refine Changes.ite ?_ ?_
        · refine Changes.step ?_ (State.contended_changes _ _ _ _ _) rfl
          split
          · refine Changes.ite ?_ ?_
            · refine Changes.step ?_ (State.contended_changes _ _ _ _ _) rfl
              exact Changes.refl _ _
            · exact Changes.refl _ _
          · exact Changes.refl _ _
        · split
          · refine Changes.ite ?_ ?_
            · refine Changes.step ?_ (State.contended_changes _ _ _ _ _) rfl
              exact Changes.refl _ _
            · exact Changes.refl _ _
          · exact Changes.refl _ _
      · split
        · refine Changes.ite ?_ ?_
          · refine Changes.step ?_ (State.contended_changes _ _ _ _ _) rfl
            exact Changes.refl _ _
          · exact Changes.refl _ _
        · exact Changes.refl _ _
    · split
      · refine Changes.ite ?_ ?_
        · refine Changes.step ?_ (State.contended_changes _ _ _ _ _) rfl
          split
          · refine Changes.ite ?_ ?_
            · refine Changes.step ?_ (State.contended_changes _ _ _ _ _) rfl
              exact Changes.refl _ _
            · exact Changes.refl _ _
          · exact Changes.refl _ _
        · split
          · refine Changes.ite ?_ ?_
            · refine Changes.step ?_ (State.contended_changes _ _ _ _ _) rfl
              exact Changes.refl _ _
            · exact Changes.refl _ _
          · exact Changes.refl _ _
      · split
        · refine Changes.ite ?_ ?_
          · refine Changes.step ?_ (State.contended_changes _ _ _ _ _) rfl
            exact Changes.refl _ _
          · exact Changes.refl _ _
        · exact Changes.refl _ _
  · split
    · refine Changes.ite ?_ ?_
      · refine Changes.step ?_ (State.contended_changes _ _ _ _ _) rfl
        split
        · refine Changes.ite ?_ ?_
          · refine Changes.step ?_ (State.contended_changes _ _ _ _ _) rfl
            exact Changes.refl _ _
          · exact Changes.refl _ _
        · exact Changes.refl _ _
      · split
        · refine Changes.ite ?_ ?_
          · refine Changes.step ?_ (State.contended_changes _ _ _ _ _) rfl
            exact Changes.refl _ _
          · exact Changes.refl _ _
        · exact Changes.refl _ _
    · split
      · refine Changes.ite ?_ ?_
        · refine Changes.step ?_ (State.contended_changes _ _ _ _ _) rfl
          exact Changes.refl _ _
        · exact Changes.refl _ _
      · exact Changes.refl _ _

theorem State.countWait_changes (s : State) (n : Nat) (onX : Bool) :
    Changes [.regs] s (s.countWait n onX) := by
  unfold State.countWait
  split
  · refine Changes.ite ?_ ?_
    · refine Changes.step ?_ (State.addTo_changes _ _ _ _) rfl
      exact Changes.refl _ _
    · exact Changes.refl _ _
  · exact Changes.refl _ _

theorem State.haltWait_changes (s : State) (n : Nat) :
    Changes [.regs, .die, .cores] s (s.haltWait n) := by
  unfold State.haltWait
  dsimp only
  refine Changes.ite ?_ ?_
  · refine Changes.step ?_ (State.enterHalted_changes _ _) rfl
    exact Changes.refl _ _
  · exact Changes.refl _ _

theorem State.endBeat_changes (s : State) (n : Nat) :
    Changes [.regs, .mem, .ecc, .die, .cores, .mesh, .idle, .diag, .ibis, .outs] s (s.endBeat n) := by
  unfold State.endBeat
  dsimp only
  refine Changes.step ?_ (State.flushWrites_changes _ _) rfl
  refine Changes.iteElse ?_ ?_
  · refine Changes.step ?_ (State.latePushes_changes _ _ _) rfl
    refine Changes.step ?_ (State.foldSigs_changes _ _) rfl
    refine Changes.step ?_ (State.countWait_changes _ _ _) rfl
    refine Changes.step ?_ (State.countWait_changes _ _ _) rfl
    refine Changes.step ?_ (State.haltWait_changes _ _) rfl
    refine Changes.step ?_ (State.contentions_changes _ _) rfl
    exact Changes.refl _ _
  · refine Changes.step ?_ (State.setCore_changes _ _ _) rfl
    exact Changes.refl _ _

theorem State.completeBeat_changes (s : State) (r : Nat) :
    Changes [.regs, .mem, .ecc, .reaches, .die, .cores, .mesh, .idle, .diag, .ibis, .outs] s (s.completeBeat r) := by
  unfold State.completeBeat
  dsimp only
  refine Changes.ite ?_ ?_
  · exact Changes.refl _ _
  · refine Changes.ite ?_ ?_
    · refine Changes.step ?_ (State.setReach_changes _ _ _) rfl
      refine Changes.eachCore ?_ (fun _ _ => ?_)
      · refine Changes.foldl ?_ (fun _ _ => ?_)
        · exact Changes.refl _ _
        · refine Changes.step ?_ (State.holdOn_changes _ _) rfl
          exact Changes.refl _ _
      · refine Changes.step ?_ (State.arrayCheck_changes _ _) rfl
        exact Changes.refl _ _
    · refine Changes.iteElse ?_ ?_
      · refine Changes.eachCore ?_ (fun _ _ => ?_)
        · refine Changes.foldl ?_ (fun _ _ => ?_)
          · exact Changes.refl _ _
          · refine Changes.step ?_ (State.holdOn_changes _ _) rfl
            exact Changes.refl _ _
        · refine Changes.step ?_ (State.arrayCheck_changes _ _) rfl
          exact Changes.refl _ _
      · refine Changes.step ?_ (State.showBeat_changes _) rfl
        refine Changes.step ?_ (State.setReach_changes _ _ _) rfl
        refine Changes.eachCore ?_ (fun _ _ => ?_)
        · exact Changes.refl _ _
        · refine Changes.step ?_ (State.endBeat_changes _ _) rfl
          exact Changes.refl _ _

theorem execBeatComplete_changes (r : Fin 16) (s : State) :
    OutChanges [.regs, .mem, .ecc, .reaches, .die, .cores, .mesh, .idle, .diag, .ibis, .outs] s (execBeatComplete r s) := by
  unfold execBeatComplete
  refine OutChanges.next ?_
  refine Changes.step ?_ (State.completeBeat_changes _ _) rfl
  exact Changes.refl _ _

/-! ### Program -/

theorem State.writeMeshMode_changes (s : State) (v : Word) :
    Changes [.regs, .mesh, .idle, .diag, .ibis, .outs] s (s.writeMeshMode v).1 := by
  unfold State.writeMeshMode
  dsimp only
  refine Changes.iteFst ?_ ?_
  · refine Changes.mkFst ?_
    refine Changes.step ?_ (State.logErr_changes _ _) rfl
    exact Changes.refl _ _
  · refine Changes.mkFst ?_
    refine Changes.step ?_ (State.plainWrite_changes _ _ _) rfl
    exact Changes.refl _ _

theorem execMeshModeWrite_changes (v : Word) (s : State) :
    OutChanges [.regs, .mesh, .idle, .diag, .ibis, .outs] s (execMeshModeWrite v s) := by
  unfold execMeshModeWrite
  refine OutChanges.next ?_
  refine Changes.step ?_ (State.writeMeshMode_changes _ _) rfl
  exact Changes.refl _ _

theorem State.startCore_changes (s : State) (n : Nat) :
    Changes [.regs, .cores] s (s.startCore n) := by
  unfold State.startCore
  dsimp only
  refine Changes.step ?_ (State.refresh_changes _ _) rfl
  refine Changes.step ?_ (State.put_changes _ _ _ _) rfl
  refine Changes.step ?_ (State.put_changes _ _ _ _) rfl
  refine Changes.step ?_ (State.setCore_changes _ _ _) rfl
  exact Changes.refl _ _

theorem State.clearCounts_changes (s : State) (n : Nat) :
    Changes [.regs] s (s.clearCounts n) := by
  unfold State.clearCounts
  dsimp only
  refine Changes.foldl ?_ (fun _ _ => ?_)
  · refine Changes.step ?_ (State.put_changes _ _ _ _) rfl
    refine Changes.step ?_ (State.put_changes _ _ _ _) rfl
    exact Changes.refl _ _
  · refine Changes.step ?_ (State.put_changes _ _ _ _) rfl
    exact Changes.refl _ _

theorem State.restartMesh_changes (s : State) :
    Changes [.die, .cores, .mesh, .fabric] s (s.restartMesh) := by
  unfold State.restartMesh
  dsimp only
  refine Changes.record ?_ (by intro p; cases p <;> first | exact .inl rfl | exact .inr ⟨rfl, rfl⟩ | exact .inr (by dsimp only [Part.same]))
  exact Changes.refl _ _

theorem State.firstRecord_changes (s : State) :
    Changes [.fabric] s (s.firstRecord) := by
  unfold State.firstRecord
  refine Changes.ite ?_ ?_
  · refine Changes.record ?_ (by intro p; cases p <;> first | exact .inl rfl | exact .inr ⟨rfl, rfl⟩ | exact .inr (by dsimp only [Part.same]))
    exact Changes.refl _ _
  · exact Changes.refl _ _

theorem State.firstStep_changes (s : State) :
    Changes [.fabric] s (s.firstStep) := by
  unfold State.firstStep
  dsimp only
  refine Changes.ite ?_ ?_
  · exact Changes.refl _ _
  · refine Changes.record ?_ (by intro p; cases p <;> first | exact .inl rfl | exact .inr ⟨rfl, rfl⟩ | exact .inr (by dsimp only [Part.same]))
    exact Changes.refl _ _

theorem State.startProgram_changes (s : State) :
    Changes [.regs, .mem, .ecc, .reaches, .die, .cores, .mesh, .fabric, .idle] s (s.startProgram) := by
  unfold State.startProgram
  dsimp only
  refine Changes.foldl ?_ (fun _ _ => ?_)
  · refine Changes.step ?_ (State.atWork_changes _) rfl
    refine Changes.step ?_ (State.firstRecord_changes _) rfl
    refine Changes.step ?_ (State.firstStep_changes _) rfl
    refine Changes.step ?_ (State.restartMesh_changes _) rfl
    refine Changes.step ?_ (State.put_changes _ _ _ _) rfl
    refine Changes.foldl ?_ (fun _ _ => ?_)
    · refine Changes.step ?_ (State.setReg_changes _ _ _) rfl
      refine Changes.step ?_ (State.restartBeats_changes _) rfl
      refine Changes.foldl ?_ (fun _ _ => ?_)
      · exact Changes.refl _ _
      · refine Changes.step ?_ (State.flushWrites_changes _ _) rfl
        exact Changes.refl _ _
    · refine Changes.step ?_ (State.clearCounts_changes _ _) rfl
      exact Changes.refl _ _
  · refine Changes.step ?_ (State.startCore_changes _ _) rfl
    exact Changes.refl _ _

theorem State.writeDtrmCtrl_changes (s : State) (v : Word) :
    Changes [.regs, .mem, .ecc, .reaches, .die, .cores, .mesh, .fabric, .idle, .diag, .ibis, .outs] s (s.writeDtrmCtrl v).1 := by
  unfold State.writeDtrmCtrl
  dsimp only
  refine Changes.iteFst ?_ ?_
  · refine Changes.mkFst ?_
    refine Changes.step ?_ (State.startProgram_changes _) rfl
    refine Changes.ite ?_ ?_
    · exact Changes.refl _ _
    · refine Changes.step ?_ (State.put_changes _ _ _ _) rfl
      exact Changes.refl _ _
  · refine Changes.iteFst ?_ ?_
    · refine Changes.mkFst ?_
      refine Changes.step ?_ (State.logErr_changes _ _) rfl
      refine Changes.ite ?_ ?_
      · exact Changes.refl _ _
      · refine Changes.step ?_ (State.put_changes _ _ _ _) rfl
        exact Changes.refl _ _
    · refine Changes.mkFst ?_
      refine Changes.ite ?_ ?_
      · exact Changes.refl _ _
      · refine Changes.step ?_ (State.put_changes _ _ _ _) rfl
        exact Changes.refl _ _

theorem execProgramStart_changes (s : State) :
    OutChanges [.regs, .mem, .ecc, .reaches, .die, .cores, .mesh, .fabric, .idle, .diag, .ibis, .outs] s (execProgramStart s) := by
  unfold execProgramStart
  refine OutChanges.next ?_
  refine Changes.step ?_ (State.writeDtrmCtrl_changes _ _) rfl
  exact Changes.refl _ _

theorem State.writeWdog_changes (s : State) (v : Word) :
    Changes [.regs] s (s.writeWdog v) := by
  unfold State.writeWdog
  refine Changes.step ?_ (State.plainWrite_changes _ _ _) rfl
  exact Changes.refl _ _

theorem State.writeDtrm_changes (s : State) (o : Nat) (v : Word) :
    Changes [.regs, .mem, .ecc, .reaches, .die, .cores, .mesh, .fabric, .idle, .diag, .ibis, .outs] s (s.writeDtrm o v).1 := by
  unfold State.writeDtrm
  dsimp only
  refine Changes.iteFst ?_ ?_
  · refine Changes.step ?_ (State.writeDtrmCtrl_changes _ _) rfl
    exact Changes.refl _ _
  · refine Changes.iteFst ?_ ?_
    · refine Changes.mkFst ?_
      refine Changes.step ?_ (State.writeWdog_changes _ _) rfl
      exact Changes.refl _ _
    · refine Changes.iteFst ?_ ?_
      · refine Changes.mkFst ?_
        refine Changes.step ?_ (State.plainWrite_changes _ _ _) rfl
        exact Changes.refl _ _
      · refine Changes.iteFst ?_ ?_
        · refine Changes.mkFst ?_
          refine Changes.step ?_ (State.logErr_changes _ _) rfl
          exact Changes.refl _ _
        · refine Changes.mkFst ?_
          refine Changes.step ?_ (State.plainWrite_changes _ _ _) rfl
          exact Changes.refl _ _

theorem execDtrmWrite_changes (off : BitVec 16) (v : Word) (s : State) :
    OutChanges [.regs, .mem, .ecc, .reaches, .die, .cores, .mesh, .fabric, .idle, .diag, .ibis, .outs] s (execDtrmWrite off v s) := by
  unfold execDtrmWrite
  refine OutChanges.next ?_
  refine Changes.step ?_ (State.writeDtrm_changes _ _ _) rfl
  exact Changes.refl _ _

theorem State.abandon_changes (s : State) (h : HoldReq) :
    Changes [.cores, .mesh] s (s.abandon h) := by
  unfold State.abandon
  split
  · exact Changes.refl _ _
  · dsimp only
    split
    · split
      · refine Changes.step ?_ (State.setTx_changes _ _ _ _) rfl
        refine Changes.step ?_ (State.modRun_changes _ _ _ _) rfl
        exact Changes.refl _ _
      · refine Changes.step ?_ (State.modRun_changes _ _ _ _) rfl
        exact Changes.refl _ _
    · refine Changes.step ?_ (State.modRun_changes _ _ _ _) rfl
      exact Changes.refl _ _

theorem execWatchdogFire_changes (s : State) :
    OutChanges [.now, .regs, .die, .cores, .mesh, .fabric, .idle, .diag, .ibis, .outs] s (execWatchdogFire s) := by
  unfold execWatchdogFire
  split
  · refine OutChanges.next ?_
    exact Changes.refl _ _
  · dsimp only
    refine OutChanges.next ?_
    refine Changes.step ?_ (State.holdOff_changes _ _) rfl
    refine Changes.foldl ?_ (fun _ _ => ?_)
    · refine Changes.foldl ?_ (fun _ _ => ?_)
      · refine Changes.step ?_ (State.put_changes _ _ _ _) rfl
        refine Changes.step ?_ (State.addSat_changes _ _ _ _) rfl
        refine Changes.step ?_ (State.logErr_changes _ _) rfl
        refine Changes.step ?_ (State.advanceTo_changes _ _) rfl
        exact Changes.refl _ _
      · refine Changes.step ?_ (State.abandon_changes _ _) rfl
        exact Changes.refl _ _
    · refine Changes.step ?_ (State.faultCore_changes _ _ _) rfl
      exact Changes.refl _ _

end Sys2Proof.Machine
end

