-- ==== Sys2Proof/Laws/ChangesFabric.lean ====
section
/-! SUPPORT. What each operation may change: the towline, frames, Ethernet, sessions, RDMA, power, the ledger, weights, captures and serving. -/

namespace Sys2Proof.Machine

/-! ### Towline -/

theorem State.evqPush_changes (s : State) (w : Word) :
    Changes [.regs, .fabric] s (s.evqPush w) := by
  unfold State.evqPush
  refine Changes.ite ?_ ?_
  · refine Changes.step ?_ (State.hwSet_changes _ _ _ _) rfl
    exact Changes.refl _ _
  · refine Changes.record ?_ (by intro p; cases p <;> first | exact .inl rfl | exact .inr ⟨rfl, rfl⟩ | exact .inr (by dsimp only [Part.same]))
    exact Changes.refl _ _

theorem State.notice_changes (s : State) (lane code : Nat) :
    Changes [.regs, .mesh, .fabric, .idle, .diag, .ibis, .outs] s (s.notice lane code) := by
  unfold State.notice
  dsimp only
  refine Changes.ite ?_ ?_
  · refine Changes.step ?_ (State.evqPush_changes _ _) rfl
    exact Changes.refl _ _
  · refine Changes.ite ?_ ?_
    · exact Changes.refl _ _
    · refine Changes.step ?_ (State.sendReg_changes _ _ _ _ _ _) rfl
      exact Changes.refl _ _

theorem State.readEvq_changes (s : State) :
    Changes [.regs, .fabric] s (s.readEvq).1 := by
  unfold State.readEvq
  refine Changes.mkFst ?_
  refine Changes.step ?_ (State.setReg_changes _ _ _) rfl
  refine Changes.record ?_ (by intro p; cases p <;> first | exact .inl rfl | exact .inr ⟨rfl, rfl⟩ | exact .inr (by dsimp only [Part.same]))
  exact Changes.refl _ _

theorem execFabrEvqRead_changes (s : State) :
    OutChanges [.regs, .fabric] s (execFabrEvqRead s) := by
  unfold execFabrEvqRead
  refine OutChanges.next ?_
  refine Changes.step ?_ (State.readEvq_changes _) rfl
  exact Changes.refl _ _

theorem State.laneStates_changes (s : State) (p st : Nat) :
    Changes [.regs] s (s.laneStates p st) := by
  unfold State.laneStates
  refine Changes.foldl ?_ (fun _ _ => ?_)
  · exact Changes.refl _ _
  · refine Changes.step ?_ (State.put_changes _ _ _ _) rfl
    exact Changes.refl _ _

theorem State.timeLost_changes (s : State) :
    Changes [.regs, .mesh, .fabric, .idle, .diag, .ibis, .outs] s (s.timeLost) := by
  unfold State.timeLost
  dsimp only
  refine Changes.ite ?_ ?_
  · exact Changes.refl _ _
  · refine Changes.step ?_ (State.logErr_changes _ _) rfl
    refine Changes.step ?_ (State.put_changes _ _ _ _) rfl
    refine Changes.record ?_ (by intro p; cases p <;> first | exact .inl rfl | exact .inr ⟨rfl, rfl⟩ | exact .inr (by dsimp only [Part.same]))
    exact Changes.refl _ _

theorem State.dropScouts_changes (s : State) (p : Nat) :
    Changes [.regs, .cores, .mesh, .fabric, .idle, .diag, .ibis, .outs] s (s.dropScouts p) := by
  unfold State.dropScouts
  dsimp only
  refine Changes.ite ?_ ?_
  · refine Changes.record ?_ (by intro p; cases p <;> first | exact .inl rfl | exact .inr ⟨rfl, rfl⟩ | exact .inr (by dsimp only [Part.same]))
    exact Changes.refl _ _
  · exact Changes.refl _ _

theorem State.enterState_changes (s : State) (p st : Nat) :
    Changes [.regs, .cores, .mesh, .fabric, .toll, .idle, .diag, .ibis, .outs] s (s.enterState p st) := by
  unfold State.enterState
  dsimp only
  refine Changes.iteThen ?_ ?_
  · refine Changes.iteElse ?_ ?_
    · refine Changes.iteElse ?_ ?_
      · refine Changes.step ?_ (State.setPort_changes _ _ _) rfl
        refine Changes.step ?_ (State.put_changes _ _ _ _) rfl
        exact Changes.refl _ _
      · refine Changes.record ?_ (by intro p; cases p <;> first | exact .inl rfl | exact .inr ⟨rfl, rfl⟩ | exact .inr (by dsimp only [Part.same]))
        exact Changes.refl _ _
    · refine Changes.step ?_ (State.dropScouts_changes _ _) rfl
      exact Changes.refl _ _
  · refine Changes.iteThen ?_ ?_
    · refine Changes.step ?_ (State.put_changes _ _ _ _) rfl
      exact Changes.refl _ _
    · refine Changes.step ?_ (State.timeLost_changes _) rfl
      exact Changes.refl _ _

theorem State.portDown_changes (s : State) (p : Nat) (trainFail : Bool) :
    Changes [.regs, .cores, .mesh, .fabric, .toll, .idle, .diag, .ibis, .outs] s (s.portDown p trainFail) := by
  unfold State.portDown
  dsimp only
  refine Changes.step ?_ (State.setPort_changes _ _ _) rfl
  refine Changes.step ?_ (State.enterState_changes _ _ _) rfl
  refine Changes.foldl ?_ (fun _ _ => ?_)
  · refine Changes.step ?_ (State.laneStates_changes _ _ _) rfl
    exact Changes.refl _ _
  · refine Changes.step ?_ (State.addSat_changes _ _ _ _) rfl
    exact Changes.refl _ _

theorem State.portLost_changes (s : State) (p lane : Nat) :
    Changes [.regs, .cores, .mesh, .fabric, .toll, .idle, .diag, .ibis, .outs] s (s.portLost p lane) := by
  unfold State.portLost
  dsimp only
  refine Changes.step ?_ (State.notice_changes _ _ _) rfl
  refine Changes.step ?_ (State.logErr_changes _ _) rfl
  refine Changes.step ?_ (State.setPort_changes _ _ _) rfl
  refine Changes.step ?_ (State.portDown_changes _ _ _) rfl
  exact Changes.refl _ _

theorem State.startTraining_changes (s : State) (p : Nat) :
    Changes [.regs, .cores, .mesh, .fabric, .toll, .idle, .diag, .ibis, .outs] s (s.startTraining p) := by
  unfold State.startTraining
  refine Changes.ite ?_ ?_
  · exact Changes.refl _ _
  · dsimp only
    refine Changes.step ?_ (State.setPort_changes _ _ _) rfl
    refine Changes.step ?_ (State.laneStates_changes _ _ _) rfl
    refine Changes.step ?_ (State.enterState_changes _ _ _) rfl
    exact Changes.refl _ _

theorem State.startFrames_changes (s : State) (p : Nat) :
    Changes [.fabric] s (s.startFrames p) := by
  unfold State.startFrames
  dsimp only
  refine Changes.step ?_ (State.setPort_changes _ _ _) rfl
  exact Changes.refl _ _

theorem State.laneLost_changes (s : State) (l : Nat) :
    Changes [.regs, .cores, .mesh, .fabric, .toll, .idle, .diag, .ibis, .outs] s (s.laneLost l) := by
  unfold State.laneLost
  split
  · dsimp only
    refine Changes.ite ?_ ?_
    · refine Changes.step ?_ (State.portLost_changes _ _ _) rfl
      exact Changes.refl _ _
    · refine Changes.ite ?_ ?_
      · refine Changes.step ?_ (State.notice_changes _ _ _) rfl
        refine Changes.step ?_ (State.logErr_changes _ _) rfl
        refine Changes.step ?_ (State.setPort_changes _ _ _) rfl
        exact Changes.refl _ _
      · exact Changes.refl _ _
  · exact Changes.refl _ _

theorem execLaneSignalLoss_changes (l : Fin 96) (s : State) :
    OutChanges [.regs, .cores, .mesh, .fabric, .toll, .idle, .diag, .ibis, .outs] s (execLaneSignalLoss l s) := by
  unfold execLaneSignalLoss
  refine OutChanges.next ?_
  refine Changes.step ?_ (State.laneLost_changes _ _) rfl
  exact Changes.refl _ _

theorem execHelloTimeout_changes (p : Fin 48) (s : State) :
    OutChanges [.now, .regs, .die, .cores, .mesh, .fabric, .toll, .idle, .diag, .ibis, .outs] s (execHelloTimeout p s) := by
  unfold execHelloTimeout
  refine OutChanges.ite ?_ ?_
  · refine OutChanges.next ?_
    refine Changes.step ?_ (State.portLost_changes _ _ _) rfl
    refine Changes.step ?_ (State.advanceTo_changes _ _) rfl
    exact Changes.refl _ _
  · refine OutChanges.next ?_
    exact Changes.refl _ _

theorem State.retrainLane_changes (s : State) (l : Nat) :
    Changes [.regs, .cores, .mesh, .fabric, .toll, .idle, .diag, .ibis, .outs] s (s.retrainLane l) := by
  unfold State.retrainLane
  split
  · refine Changes.step ?_ (State.startTraining_changes _ _) rfl
    exact Changes.refl _ _
  · exact Changes.refl _ _

theorem execRetrain_changes (l : Fin 96) (s : State) :
    OutChanges [.regs, .cores, .mesh, .fabric, .toll, .idle, .diag, .ibis, .outs] s (execRetrain l s) := by
  unfold execRetrain
  refine OutChanges.next ?_
  refine Changes.step ?_ (State.retrainLane_changes _ _) rfl
  exact Changes.refl _ _

theorem State.writeLaneCtrl_changes (s : State) (l : Nat) (v : Word) :
    Changes [.regs, .cores, .mesh, .fabric, .toll, .idle, .diag, .ibis, .outs] s (s.writeLaneCtrl l v).1 := by
  unfold State.writeLaneCtrl
  split
  · refine Changes.iteFst ?_ ?_
    · refine Changes.mkFst ?_
      refine Changes.step ?_ (State.logErr_changes _ _) rfl
      exact Changes.refl _ _
    · dsimp only
      refine Changes.iteThen ?_ ?_
      · refine Changes.step ?_ (State.plainWrite_changes _ _ _) rfl
        exact Changes.refl _ _
      · refine Changes.step ?_ (State.retrainLane_changes _ _) rfl
        exact Changes.refl _ _
  · refine Changes.mkFst ?_
    refine Changes.step ?_ (State.plainWrite_changes _ _ _) rfl
    exact Changes.refl _ _

theorem execAutoRetrain_changes (p : Fin 48) (s : State) :
    OutChanges [.now, .regs, .die, .cores, .mesh, .fabric, .toll, .idle, .diag, .ibis, .outs] s (execAutoRetrain p s) := by
  unfold execAutoRetrain
  dsimp only
  refine OutChanges.ite ?_ ?_
  · refine OutChanges.next ?_
    refine Changes.step ?_ (State.startTraining_changes _ _) rfl
    refine Changes.step ?_ (State.advanceTo_changes _ _) rfl
    exact Changes.refl _ _
  · refine OutChanges.next ?_
    exact Changes.refl _ _

theorem execTrainingComplete_changes (p : Fin 48) (partner : List LaneFace) (s : State) :
    OutChanges [.regs, .cores, .mesh, .fabric, .toll, .idle, .diag, .ibis, .outs] s (execTrainingComplete p partner s) := by
  unfold execTrainingComplete
  dsimp only
  refine OutChanges.ite ?_ ?_
  · refine OutChanges.next ?_
    exact Changes.refl _ _
  · refine OutChanges.ite ?_ ?_
    · refine OutChanges.next ?_
      refine Changes.step ?_ (State.startFrames_changes _ _) rfl
      refine Changes.foldl ?_ (fun _ _ => ?_)
      · refine Changes.step ?_ (State.laneStates_changes _ _ _) rfl
        exact Changes.refl _ _
      · refine Changes.step ?_ (State.put_changes _ _ _ _) rfl
        exact Changes.refl _ _
    · refine OutChanges.next ?_
      refine Changes.step ?_ (State.portDown_changes _ _ _) rfl
      exact Changes.refl _ _

theorem execTrainingTimeout_changes (p : Fin 48) (s : State) :
    OutChanges [.now, .regs, .die, .cores, .mesh, .fabric, .toll, .idle, .diag, .ibis, .outs] s (execTrainingTimeout p s) := by
  unfold execTrainingTimeout
  refine OutChanges.ite ?_ ?_
  · refine OutChanges.next ?_
    refine Changes.step ?_ (State.portDown_changes _ _ _) rfl
    refine Changes.step ?_ (State.advanceTo_changes _ _) rfl
    exact Changes.refl _ _
  · refine OutChanges.next ?_
    exact Changes.refl _ _

theorem State.refuse5905_changes (s : State) (p : Nat) :
    Changes [.regs, .mesh, .idle, .diag, .ibis, .outs] s (s.refuse5905 p).1 := by
  unfold State.refuse5905
  refine Changes.mkFst ?_
  refine Changes.step ?_ (State.logErr_changes _ _) rfl
  exact Changes.refl _ _

theorem State.firstTry_changes (s : State) (p : Nat) :
    Changes [.toll] s (s.firstTry p) := by
  unfold State.firstTry
  refine Changes.ite ?_ ?_
  · refine Changes.record ?_ (by intro p; cases p <;> first | exact .inl rfl | exact .inr ⟨rfl, rfl⟩ | exact .inr (by dsimp only [Part.same]))
    exact Changes.refl _ _
  · exact Changes.refl _ _

theorem State.writePortMap_changes (s : State) (p : Nat) (v : Word) :
    Changes [.regs, .cores, .mesh, .fabric, .toll, .idle, .diag, .ibis, .outs] s (s.writePortMap p v).1 := by
  unfold State.writePortMap
  dsimp only
  refine Changes.iteFst ?_ ?_
  · refine Changes.step ?_ (State.refuse5905_changes _ _) rfl
    exact Changes.refl _ _
  · refine Changes.iteFst ?_ ?_
    · refine Changes.iteFst ?_ ?_
      · refine Changes.mkFst ?_
        refine Changes.step ?_ (State.enterState_changes _ _ _) rfl
        refine Changes.step ?_ (State.plainWrite_changes _ _ _) rfl
        exact Changes.refl _ _
      · refine Changes.step ?_ (State.refuse5905_changes _ _) rfl
        exact Changes.refl _ _
    · refine Changes.iteFst ?_ ?_
      · refine Changes.step ?_ (State.refuse5905_changes _ _) rfl
        exact Changes.refl _ _
      · refine Changes.iteFst ?_ ?_
        · refine Changes.mkFst ?_
          refine Changes.step ?_ (State.firstTry_changes _ _) rfl
          refine Changes.step ?_ (State.startTraining_changes _ _) rfl
          refine Changes.step ?_ (State.plainWrite_changes _ _ _) rfl
          refine Changes.ite ?_ ?_
          · refine Changes.step ?_ (State.laneStates_changes _ _ _) rfl
            exact Changes.refl _ _
          · exact Changes.refl _ _
        · refine Changes.mkFst ?_
          refine Changes.step ?_ (State.setPort_changes _ _ _) rfl
          refine Changes.step ?_ (State.enterState_changes _ _ _) rfl
          refine Changes.step ?_ (State.plainWrite_changes _ _ _) rfl
          refine Changes.ite ?_ ?_
          · refine Changes.step ?_ (State.laneStates_changes _ _ _) rfl
            exact Changes.refl _ _
          · exact Changes.refl _ _

theorem execPortMapWrite_changes (p : Fin 48) (v : Word) (s : State) :
    OutChanges [.regs, .cores, .mesh, .fabric, .toll, .idle, .diag, .ibis, .outs] s (execPortMapWrite p v s) := by
  unfold execPortMapWrite
  refine OutChanges.next ?_
  refine Changes.step ?_ (State.writePortMap_changes _ _ _) rfl
  exact Changes.refl _ _

theorem execPortActiveWrite_changes (p : Fin 48) (s : State) :
    OutChanges [.regs, .cores, .mesh, .fabric, .toll, .idle, .diag, .ibis, .outs] s (execPortActiveWrite p s) := by
  unfold execPortActiveWrite
  refine OutChanges.next ?_
  refine Changes.step ?_ (State.writePortMap_changes _ _ _) rfl
  exact Changes.refl _ _

theorem State.sendLm_changes (s : State) (p : Nat) (body : BitVec 604) :
    Changes [.fabric] s (s.sendLm p body) := by
  unfold State.sendLm
  refine Changes.ite ?_ ?_
  · refine Changes.step ?_ (State.setPort_changes _ _ _) rfl
    exact Changes.refl _ _
  · exact Changes.refl _ _

theorem State.setTable_changes (s : State) (k : Nat) (w : Word) :
    Changes [.fabric] s (s.setTable k w) := by
  unfold State.setTable
  refine Changes.record ?_ (by intro p; cases p <;> first | exact .inl rfl | exact .inr ⟨rfl, rfl⟩ | exact .inr (by dsimp only [Part.same]))
  exact Changes.refl _ _

theorem State.scout_changes (s : State) :
    Changes [.fabric] s (s.scout) := by
  unfold State.scout
  split
  · refine Changes.ite ?_ ?_
    · exact Changes.refl _ _
    · dsimp only
      refine Changes.step ?_ (State.sendLm_changes _ _ _) rfl
      refine Changes.record ?_ (by intro p; cases p <;> first | exact .inl rfl | exact .inr ⟨rfl, rfl⟩ | exact .inr (by dsimp only [Part.same]))
      exact Changes.refl _ _
  · exact Changes.refl _ _

theorem State.addScouts_changes (s : State) (l : List Scout) :
    Changes [.fabric] s (s.addScouts l) := by
  unfold State.addScouts
  refine Changes.record ?_ (by intro p; cases p <;> first | exact .inl rfl | exact .inr ⟨rfl, rfl⟩ | exact .inr (by dsimp only [Part.same]))
  exact Changes.refl _ _

theorem State.scoutDone_changes (s : State) :
    Changes [.fabric] s (s.scoutDone) := by
  unfold State.scoutDone
  refine Changes.step ?_ (State.scout_changes _) rfl
  refine Changes.record ?_ (by intro p; cases p <;> first | exact .inl rfl | exact .inr ⟨rfl, rfl⟩ | exact .inr (by dsimp only [Part.same]))
  exact Changes.refl _ _

theorem State.scoutPort_changes (s : State) (p : Nat) :
    Changes [.fabric] s (s.scoutPort p) := by
  unfold State.scoutPort
  refine Changes.ite ?_ ?_
  · refine Changes.step ?_ (State.scout_changes _) rfl
    refine Changes.step ?_ (State.addScouts_changes _ _) rfl
    exact Changes.refl _ _
  · exact Changes.refl _ _

theorem State.startDiscovery_changes (s : State) :
    Changes [.regs, .fabric] s (s.startDiscovery) := by
  unfold State.startDiscovery
  dsimp only
  refine Changes.foldl ?_ (fun _ _ => ?_)
  · refine Changes.record ?_ (by intro p; cases p <;> first | exact .inl rfl | exact .inr ⟨rfl, rfl⟩ | exact .inr (by dsimp only [Part.same]))
    refine Changes.iteThen ?_ ?_
    · refine Changes.step ?_ (State.put_changes _ _ _ _) rfl
      refine Changes.step ?_ (State.put_changes _ _ _ _) rfl
      refine Changes.step ?_ (State.put_changes _ _ _ _) rfl
      exact Changes.refl _ _
    · refine Changes.step ?_ (State.setTable_changes _ _ _) rfl
      refine Changes.step ?_ (State.setTable_changes _ _ _) rfl
      exact Changes.refl _ _
  · refine Changes.step ?_ (State.scoutPort_changes _ _) rfl
    exact Changes.refl _ _

theorem execHelloSend_changes (p : Fin 48) (s : State) :
    OutChanges [.now, .regs, .die, .fabric] s (execHelloSend p s) := by
  unfold execHelloSend
  refine OutChanges.ite ?_ ?_
  · dsimp only
    refine OutChanges.next ?_
    refine Changes.step ?_ (State.sendLm_changes _ _ _) rfl
    refine Changes.step ?_ (State.setPort_changes _ _ _) rfl
    refine Changes.step ?_ (State.advanceTo_changes _ _) rfl
    exact Changes.refl _ _
  · refine OutChanges.next ?_
    exact Changes.refl _ _

theorem execHello_changes (p : Fin 48) (msg : HelloMsg) (s : State) :
    OutChanges [.regs, .cores, .mesh, .fabric, .toll, .idle, .diag, .ibis, .outs] s (execHello p msg s) := by
  unfold execHello
  refine OutChanges.ite ?_ ?_
  · refine OutChanges.next ?_
    exact Changes.refl _ _
  · dsimp only
    refine OutChanges.ite ?_ ?_
    · refine OutChanges.next ?_
      refine Changes.step ?_ (State.scoutPort_changes _ _) rfl
      refine Changes.step ?_ (State.notice_changes _ _ _) rfl
      refine Changes.step ?_ (State.enterState_changes _ _ _) rfl
      refine Changes.iteThen ?_ ?_
      · refine Changes.step ?_ (State.setPort_changes _ _ _) rfl
        refine Changes.step ?_ (State.put_changes _ _ _ _) rfl
        refine Changes.step ?_ (State.put_changes _ _ _ _) rfl
        refine Changes.step ?_ (State.setReg_changes _ _ _) rfl
        exact Changes.refl _ _
      · refine Changes.iteThen ?_ ?_
        · refine Changes.step ?_ (State.notice_changes _ _ _) rfl
          refine Changes.step ?_ (State.logErr_changes _ _) rfl
          exact Changes.refl _ _
        · refine Changes.step ?_ (State.notice_changes _ _ _) rfl
          refine Changes.step ?_ (State.enterState_changes _ _ _) rfl
          exact Changes.refl _ _
    · refine OutChanges.next ?_
      refine Changes.iteThen ?_ ?_
      · refine Changes.iteThen ?_ ?_
        · refine Changes.step ?_ (State.setPort_changes _ _ _) rfl
          refine Changes.step ?_ (State.put_changes _ _ _ _) rfl
          refine Changes.step ?_ (State.put_changes _ _ _ _) rfl
          refine Changes.step ?_ (State.setReg_changes _ _ _) rfl
          exact Changes.refl _ _
        · refine Changes.iteThen ?_ ?_
          · refine Changes.step ?_ (State.notice_changes _ _ _) rfl
            refine Changes.step ?_ (State.logErr_changes _ _) rfl
            exact Changes.refl _ _
          · refine Changes.step ?_ (State.notice_changes _ _ _) rfl
            refine Changes.step ?_ (State.enterState_changes _ _ _) rfl
            exact Changes.refl _ _
      · refine Changes.step ?_ (State.scout_changes _) rfl
        exact Changes.refl _ _

theorem execProbeForward_changes (p : Fin 48) (msg : ProbeMsg) (s : State) :
    OutChanges [.fabric] s (execProbeForward p msg s) := by
  unfold execProbeForward
  dsimp only
  refine OutChanges.ite ?_ ?_
  · refine OutChanges.ite ?_ ?_
    · refine OutChanges.next ?_
      refine Changes.step ?_ (State.sendLm_changes _ _ _) rfl
      exact Changes.refl _ _
    · refine OutChanges.next ?_
      exact Changes.refl _ _
  · refine OutChanges.next ?_
    exact Changes.refl _ _

theorem State.probeAnswer_changes (s : State) (p : Nat) (msg : ProbeMsg) (result : Nat) :
    Changes [.fabric] s (s.probeAnswer p msg result) := by
  unfold State.probeAnswer
  dsimp only
  refine Changes.step ?_ (State.sendLm_changes _ _ _) rfl
  exact Changes.refl _ _

theorem execProbeIdent_changes (p : Fin 48) (msg : ProbeMsg) (s : State) :
    OutChanges [.fabric] s (execProbeIdent p msg s) := by
  unfold execProbeIdent
  refine OutChanges.ite ?_ ?_
  · refine OutChanges.next ?_
    refine Changes.step ?_ (State.probeAnswer_changes _ _ _ _) rfl
    exact Changes.refl _ _
  · refine OutChanges.next ?_
    exact Changes.refl _ _

theorem State.assign_changes (s : State) (p : Nat) (msg : ProbeMsg) :
    Changes [.regs, .fabric] s (s.assign p msg).1 := by
  unfold State.assign
  dsimp only
  refine Changes.iteFst ?_ ?_
  · refine Changes.mkFst ?_
    exact Changes.refl _ _
  · refine Changes.mkFst ?_
    refine Changes.iteThen ?_ ?_
    · refine Changes.step ?_ (State.hwPut_changes _ _ _ _) rfl
      refine Changes.step ?_ (State.hwPut_changes _ _ _ _) rfl
      exact Changes.refl _ _
    · refine Changes.step ?_ (State.setTable_changes _ _ _) rfl
      exact Changes.refl _ _

theorem execProbeAssign_changes (p : Fin 48) (msg : ProbeMsg) (s : State) :
    OutChanges [.regs, .fabric] s (execProbeAssign p msg s) := by
  unfold execProbeAssign
  refine OutChanges.ite ?_ ?_
  · split
    refine OutChanges.next ?_
    refine Changes.step ?_ (State.probeAnswer_changes _ _ _ _) rfl
    refine Changes.ofPair (by assumption) ?_
    refine Changes.step ?_ (State.assign_changes _ _ _) rfl
    exact Changes.refl _ _
  · refine OutChanges.next ?_
    exact Changes.refl _ _

theorem State.identified_changes (s : State) (x : Scout) (msg : ProbeReplyMsg) :
    Changes [.fabric] s (s.identified x msg) := by
  unfold State.identified
  split
  · refine Changes.step ?_ (State.scout_changes _) rfl
    refine Changes.record ?_ (by intro p; cases p <;> first | exact .inl rfl | exact .inr ⟨rfl, rfl⟩ | exact .inr (by dsimp only [Part.same]))
    exact Changes.refl _ _
  · refine Changes.step ?_ (State.scoutDone_changes _) rfl
    exact Changes.refl _ _

theorem State.replyOn_changes (s : State) (p : Nat) (msg : ProbeReplyMsg) :
    Changes [.fabric] s (s.replyOn p msg) := by
  unfold State.replyOn
  dsimp only
  refine Changes.ite ?_ ?_
  · refine Changes.ite ?_ ?_
    · refine Changes.step ?_ (State.sendLm_changes _ _ _) rfl
      exact Changes.refl _ _
    · exact Changes.refl _ _
  · exact Changes.refl _ _

theorem execTimeExchange_changes (s : State) :
    OutChanges [.now, .regs, .die, .fabric] s (execTimeExchange s) := by
  unfold execTimeExchange
  dsimp only
  refine OutChanges.next ?_
  refine Changes.foldl ?_ (fun _ _ => ?_)
  · refine Changes.record ?_ (by intro p; cases p <;> first | exact .inl rfl | exact .inr ⟨rfl, rfl⟩ | exact .inr (by dsimp only [Part.same]))
    refine Changes.step ?_ (State.advanceTo_changes _ _) rfl
    exact Changes.refl _ _
  · refine Changes.ite ?_ ?_
    · refine Changes.step ?_ (State.sendLm_changes _ _ _) rfl
      exact Changes.refl _ _
    · exact Changes.refl _ _

theorem execTimeRequest_changes (p : Fin 48) (ta : Word) (s : State) :
    OutChanges [.fabric] s (execTimeRequest p ta s) := by
  unfold execTimeRequest
  refine OutChanges.ite ?_ ?_
  · refine OutChanges.next ?_
    refine Changes.step ?_ (State.sendLm_changes _ _ _) rfl
    exact Changes.refl _ _
  · refine OutChanges.next ?_
    exact Changes.refl _ _

theorem State.followTime_changes (s : State) (off : Int) :
    Changes [.regs, .fabric] s (s.followTime off) := by
  unfold State.followTime
  dsimp only
  refine Changes.ite ?_ ?_
  · refine Changes.record ?_ (by intro p; cases p <;> first | exact .inl rfl | exact .inr ⟨rfl, rfl⟩ | exact .inr (by dsimp only [Part.same]))
    refine Changes.step ?_ (State.addTo_changes _ _ _ _) rfl
    refine Changes.step ?_ (State.put_changes _ _ _ _) rfl
    refine Changes.record ?_ (by intro p; cases p <;> first | exact .inl rfl | exact .inr ⟨rfl, rfl⟩ | exact .inr (by dsimp only [Part.same]))
    refine Changes.step ?_ (State.put_changes _ _ _ _) rfl
    exact Changes.refl _ _
  · refine Changes.record ?_ (by intro p; cases p <;> first | exact .inl rfl | exact .inr ⟨rfl, rfl⟩ | exact .inr (by dsimp only [Part.same]))
    refine Changes.step ?_ (State.put_changes _ _ _ _) rfl
    refine Changes.record ?_ (by intro p; cases p <;> first | exact .inl rfl | exact .inr ⟨rfl, rfl⟩ | exact .inr (by dsimp only [Part.same]))
    refine Changes.step ?_ (State.put_changes _ _ _ _) rfl
    exact Changes.refl _ _

theorem execTimeResponse_changes (p : Fin 48) (ta tb tc : Word) (s : State) :
    OutChanges [.regs, .fabric] s (execTimeResponse p ta tb tc s) := by
  unfold execTimeResponse
  dsimp only
  refine OutChanges.ite ?_ ?_
  · refine OutChanges.next ?_
    exact Changes.refl _ _
  · refine OutChanges.ite ?_ ?_
    · refine OutChanges.next ?_
      refine Changes.step ?_ (State.followTime_changes _ _) rfl
      refine Changes.step ?_ (State.put_changes _ _ _ _) rfl
      exact Changes.refl _ _
    · refine OutChanges.next ?_
      refine Changes.step ?_ (State.put_changes _ _ _ _) rfl
      exact Changes.refl _ _

theorem State.writeTable_changes (s : State) (off : Nat) (v : Word) :
    Changes [.regs, .mesh, .fabric, .idle, .diag, .ibis, .outs] s (s.writeTable off v).1 := by
  unfold State.writeTable
  split
  dsimp only
  refine Changes.iteFst ?_ ?_
  · refine Changes.mkFst ?_
    refine Changes.step ?_ (State.setTable_changes _ _ _) rfl
    exact Changes.refl _ _
  · refine Changes.mkFst ?_
    refine Changes.step ?_ (State.logErr_changes _ _) rfl
    exact Changes.refl _ _

theorem execRouteTableWrite_changes (off : BitVec 17) (v : Word) (s : State) :
    OutChanges [.regs, .mesh, .fabric, .idle, .diag, .ibis, .outs] s (execRouteTableWrite off v s) := by
  unfold execRouteTableWrite
  refine OutChanges.next ?_
  refine Changes.step ?_ (State.writeTable_changes _ _ _) rfl
  exact Changes.refl _ _

theorem State.writeEpochNext_changes (s : State) (v : Word) :
    Changes [.regs, .mesh, .idle, .diag, .ibis, .outs] s (s.writeEpochNext v).1 := by
  unfold State.writeEpochNext
  dsimp only
  refine Changes.iteFst ?_ ?_
  · refine Changes.mkFst ?_
    refine Changes.step ?_ (State.logErr_changes _ _) rfl
    exact Changes.refl _ _
  · refine Changes.mkFst ?_
    refine Changes.iteThen ?_ ?_
    · refine Changes.step ?_ (State.plainWrite_changes _ _ _) rfl
      exact Changes.refl _ _
    · refine Changes.step ?_ (State.takeEpoch_changes _) rfl
      exact Changes.refl _ _

theorem execEpochArm_changes (v : Word) (s : State) :
    OutChanges [.regs, .mesh, .idle, .diag, .ibis, .outs] s (execEpochArm v s) := by
  unfold execEpochArm
  refine OutChanges.next ?_
  refine Changes.step ?_ (State.writeEpochNext_changes _ _) rfl
  exact Changes.refl _ _

theorem State.alignSteps_changes (s : State) :
    Changes [.fabric] s (s.alignSteps) := by
  unfold State.alignSteps
  refine Changes.record ?_ (by intro p; cases p <;> first | exact .inl rfl | exact .inr ⟨rfl, rfl⟩ | exact .inr (by dsimp only [Part.same]))
  exact Changes.refl _ _

theorem State.refuse5907_changes (s : State) :
    Changes [.regs, .mesh, .idle, .diag, .ibis, .outs] s (s.refuse5907).1 := by
  unfold State.refuse5907
  refine Changes.mkFst ?_
  refine Changes.step ?_ (State.logErr_changes _ _) rfl
  exact Changes.refl _ _

theorem State.writeFabr_changes (s : State) (a : Nat) (v : Word) :
    Changes [.regs, .mesh, .fabric, .idle, .diag, .ibis, .outs] s (s.writeFabr a v).1 := by
  unfold State.writeFabr
  refine Changes.iteFst ?_ ?_
  · refine Changes.iteFst ?_ ?_
    · refine Changes.step ?_ (State.refuse5907_changes _) rfl
      exact Changes.refl _ _
    · refine Changes.mkFst ?_
      refine Changes.step ?_ (State.plainWrite_changes _ _ _) rfl
      exact Changes.refl _ _
  · refine Changes.iteFst ?_ ?_
    · refine Changes.step ?_ (State.writeEpochNext_changes _ _) rfl
      exact Changes.refl _ _
    · refine Changes.iteFst ?_ ?_
      · refine Changes.iteFst ?_ ?_
        · refine Changes.step ?_ (State.refuse5907_changes _) rfl
          exact Changes.refl _ _
        · refine Changes.mkFst ?_
          refine Changes.step ?_ (State.alignSteps_changes _) rfl
          refine Changes.step ?_ (State.stepTaken_changes _) rfl
          refine Changes.step ?_ (State.plainWrite_changes _ _ _) rfl
          exact Changes.refl _ _
      · refine Changes.iteFst ?_ ?_
        · refine Changes.iteFst ?_ ?_
          · refine Changes.step ?_ (State.refuse5907_changes _) rfl
            exact Changes.refl _ _
          · refine Changes.mkFst ?_
            refine Changes.step ?_ (State.plainWrite_changes _ _ _) rfl
            exact Changes.refl _ _
        · refine Changes.iteFst ?_ ?_
          · refine Changes.iteFst ?_ ?_
            · refine Changes.mkFst ?_
              dsimp only
              refine Changes.record ?_ (by intro p; cases p <;> first | exact .inl rfl | exact .inr ⟨rfl, rfl⟩ | exact .inr (by dsimp only [Part.same]))
              refine Changes.step ?_ (State.plainWrite_changes _ _ _) rfl
              exact Changes.refl _ _
            · refine Changes.step ?_ (State.refuse5907_changes _) rfl
              exact Changes.refl _ _
          · refine Changes.iteFst ?_ ?_
            · refine Changes.iteFst ?_ ?_
              · refine Changes.step ?_ (State.refuse5907_changes _) rfl
                exact Changes.refl _ _
              · refine Changes.mkFst ?_
                refine Changes.step ?_ (State.plainWrite_changes _ _ _) rfl
                exact Changes.refl _ _
            · refine Changes.mkFst ?_
              refine Changes.step ?_ (State.plainWrite_changes _ _ _) rfl
              exact Changes.refl _ _

/-! ### Frames -/

theorem State.setFerry_changes (s : State) (c : Nat) (x : Ferry) :
    Changes [.fabric] s (s.setFerry c x) := by
  unfold State.setFerry
  refine Changes.record ?_ (by intro p; cases p <;> first | exact .inl rfl | exact .inr ⟨rfl, rfl⟩ | exact .inr (by dsimp only [Part.same]))
  exact Changes.refl _ _

theorem State.ferryOpen_changes (s : State) (c i tag : Nat) :
    Changes [.regs, .mesh, .fabric, .idle, .diag, .ibis, .outs] s (s.ferryOpen c i tag) := by
  unfold State.ferryOpen
  dsimp only
  refine Changes.step ?_ (State.injectPrimary_changes _ _ _) rfl
  refine Changes.step ?_ (State.setFerry_changes _ _ _) rfl
  exact Changes.refl _ _

theorem State.ferryFill_changes (s : State) (c : Nat) (k : Nat) : Changes [.regs, .mesh, .fabric, .idle, .diag, .ibis, .outs] s (s.ferryFill c k) := by
  induction k generalizing s with
  | zero => exact Changes.refl _ _
  | succ k ih =>
    unfold State.ferryFill
    dsimp only
    refine Changes.ite ?_ ?_
    · split
      · refine Changes.trans ?_ (ih _)
        refine Changes.step ?_ (State.ferryOpen_changes _ _ _ _) rfl
        exact Changes.refl _ _
      · exact Changes.refl _ _
    · exact Changes.refl _ _

theorem State.ferryAbort_changes (s : State) (c : Nat) (f : FerrySub) (slot : Nat) :
    Changes [.regs, .mesh, .fabric, .idle, .diag, .ibis, .outs] s (s.ferryAbort c f slot) := by
  unfold State.ferryAbort
  dsimp only
  refine Changes.step ?_ (State.injectPrimary_changes _ _ _) rfl
  exact Changes.refl _ _

theorem State.ferryFail_changes (s : State) (c code : Nat) :
    Changes [.regs, .mesh, .fabric] s (s.ferryFail c code) := by
  unfold State.ferryFail
  dsimp only
  refine Changes.foldl ?_ (fun _ _ => ?_)
  · refine Changes.step ?_ (State.setFerry_changes _ _ _) rfl
    refine Changes.step ?_ (State.put_changes _ _ _ _) rfl
    refine Changes.step ?_ (State.put_changes _ _ _ _) rfl
    refine Changes.step ?_ (State.hwSet_changes _ _ _ _) rfl
    exact Changes.refl _ _
  · refine Changes.record ?_ (by intro p; cases p <;> first | exact .inl rfl | exact .inr ⟨rfl, rfl⟩ | exact .inr (by dsimp only [Part.same]))
    exact Changes.refl _ _

theorem State.ferryRefused_changes (s : State) (c : Nat) (f : FerrySub) (code : Nat) :
    Changes [.regs, .mesh, .fabric, .idle, .diag, .ibis, .outs] s (s.ferryRefused c f code) := by
  unfold State.ferryRefused
  dsimp only
  refine Changes.foldl ?_ (fun _ _ => ?_)
  · refine Changes.step ?_ (State.setFerry_changes _ _ _) rfl
    refine Changes.step ?_ (State.ferryFail_changes _ _ _) rfl
    exact Changes.refl _ _
  · split
    · refine Changes.step ?_ (State.ferryAbort_changes _ _ _ _) rfl
      exact Changes.refl _ _
    · exact Changes.refl _ _

theorem State.ferryGrant_changes (s : State) (c i slot : Nat) :
    Changes [.mesh] s (s.ferryGrant c i slot) := by
  unfold State.ferryGrant
  dsimp only
  refine Changes.step ?_ (State.setReadQ_changes _ _ _) rfl
  refine Changes.record ?_ (by intro p; cases p <;> first | exact .inl rfl | exact .inr ⟨rfl, rfl⟩ | exact .inr (by dsimp only [Part.same]))
  exact Changes.refl _ _

theorem State.ferryAck_changes (s : State) (c : Nat) (f : FerrySub) :
    Changes [.regs, .fabric, .host, .engine] s (s.ferryAck c f) := by
  unfold State.ferryAck
  dsimp only
  refine Changes.iteThen ?_ ?_
  · refine Changes.step ?_ (State.put_changes _ _ _ _) rfl
    refine Changes.step ?_ (State.setFerry_changes _ _ _) rfl
    exact Changes.refl _ _
  · refine Changes.step ?_ (State.setFerry_changes _ _ _) rfl
    refine Changes.step ?_ (State.put_changes _ _ _ _) rfl
    refine Changes.step ?_ (State.hwSet_changes _ _ _ _) rfl
    exact Changes.refl _ _

theorem State.ferryReply_changes (s : State) (b : Barge) :
    Changes [.regs, .mesh, .fabric, .host, .engine, .idle, .diag, .ibis, .outs] s (s.ferryReply b) := by
  unfold State.ferryReply
  dsimp only
  split
  · refine Changes.ite ?_ ?_
    · refine Changes.step ?_ (State.ferryGrant_changes _ _ _ _) rfl
      refine Changes.step ?_ (State.setFerry_changes _ _ _) rfl
      exact Changes.refl _ _
    · refine Changes.ite ?_ ?_
      · refine Changes.step ?_ (State.ferryAck_changes _ _ _) rfl
        exact Changes.refl _ _
      · refine Changes.step ?_ (State.ferryRefused_changes _ _ _ _) rfl
        exact Changes.refl _ _
  · split
    · refine Changes.iteThen ?_ ?_
      · refine Changes.step ?_ (State.setFerry_changes _ _ _) rfl
        exact Changes.refl _ _
      · refine Changes.step ?_ (State.ferryAbort_changes _ _ _ _) rfl
        exact Changes.refl _ _
    · exact Changes.refl _ _

theorem State.ferryWork_changes (s : State) :
    Changes [.regs, .mesh, .fabric, .host, .engine, .idle, .diag, .ibis, .outs] s (s.ferryWork) := by
  unfold State.ferryWork
  dsimp only
  refine Changes.foldl ?_ (fun _ _ => ?_)
  · refine Changes.foldl ?_ (fun _ _ => ?_)
    · exact Changes.refl _ _
    · split
      · refine Changes.step ?_ (State.ferryReply_changes _ _) rfl
        refine Changes.step ?_ (State.takeArrival_some (by assumption)) rfl
        exact Changes.refl _ _
      · exact Changes.refl _ _
  · refine Changes.ite ?_ ?_
    · refine Changes.step ?_ (State.ferryFill_changes _ _ _) rfl
      exact Changes.refl _ _
    · exact Changes.refl _ _

theorem State.ferryStart_changes (s : State) (c : Nat) :
    Changes [.regs, .mesh, .fabric, .idle, .diag, .ibis, .outs] s (s.ferryStart c).1 := by
  unfold State.ferryStart
  dsimp only
  refine Changes.iteFst ?_ ?_
  · refine Changes.mkFst ?_
    exact Changes.refl _ _
  · refine Changes.iteFst ?_ ?_
    · refine Changes.mkFst ?_
      refine Changes.step ?_ (State.logErr_changes _ _) rfl
      refine Changes.step ?_ (State.put_changes _ _ _ _) rfl
      refine Changes.step ?_ (State.hwSet_changes _ _ _ _) rfl
      exact Changes.refl _ _
    · refine Changes.iteFst ?_ ?_
      · refine Changes.mkFst ?_
        refine Changes.step ?_ (State.hwSet_changes _ _ _ _) rfl
        exact Changes.refl _ _
      · refine Changes.mkFst ?_
        refine Changes.step ?_ (State.ferryFill_changes _ _ _) rfl
        refine Changes.step ?_ (State.setFerry_changes _ _ _) rfl
        refine Changes.step ?_ (State.put_changes _ _ _ _) rfl
        refine Changes.step ?_ (State.put_changes _ _ _ _) rfl
        exact Changes.refl _ _

theorem State.writeFerry_changes (s : State) (c : Nat) (v : Word) :
    Changes [.regs, .mesh, .fabric, .idle, .diag, .ibis, .outs] s (s.writeFerry c v).1 := by
  unfold State.writeFerry
  dsimp only
  refine Changes.iteFst ?_ ?_
  · refine Changes.step ?_ (State.ferryStart_changes _ _) rfl
    refine Changes.step ?_ (State.plainWrite_changes _ _ _) rfl
    exact Changes.refl _ _
  · refine Changes.mkFst ?_
    refine Changes.step ?_ (State.plainWrite_changes _ _ _) rfl
    exact Changes.refl _ _

theorem execFerryGo_changes (c : Fin 4) (s : State) :
    OutChanges [.regs, .mesh, .fabric, .idle, .diag, .ibis, .outs] s (execFerryGo c s) := by
  unfold execFerryGo
  refine OutChanges.next ?_
  refine Changes.step ?_ (State.writeFerry_changes _ _ _) rfl
  exact Changes.refl _ _

theorem execFerryStall_changes (c : Fin 4) (s : State) :
    OutChanges [.now, .regs, .die, .mesh, .fabric, .idle, .diag, .ibis, .outs] s (execFerryStall c s) := by
  unfold execFerryStall
  dsimp only
  refine OutChanges.ite ?_ ?_
  · refine OutChanges.next ?_
    refine Changes.step ?_ (State.logErr_changes _ _) rfl
    refine Changes.step ?_ (State.ferryFail_changes _ _ _) rfl
    refine Changes.step ?_ (State.advanceTo_changes _ _) rfl
    exact Changes.refl _ _
  · refine OutChanges.next ?_
    exact Changes.refl _ _

theorem State.freeExit_changes (s : State) (p : Nat) (sent : List (Nat × Barge)) :
    Changes [.mesh] s (s.freeExit p sent) := by
  unfold State.freeExit
  split
  refine Changes.foldl ?_ (fun _ _ => ?_)
  · exact Changes.refl _ _
  · refine Changes.step ?_ (State.freeRoom_changes _ _ _) rfl
    exact Changes.refl _ _

theorem State.sendFrame_changes (s : State) (p : Nat) :
    Changes [.mesh, .fabric, .outs] s (s.sendFrame p) := by
  unfold State.sendFrame
  dsimp only
  split
  · refine Changes.step ?_ (State.emit_changes _ _) rfl
    refine Changes.step ?_ (State.setPort_changes _ _ _) rfl
    exact Changes.refl _ _
  · refine Changes.step ?_ (State.emit_changes _ _) rfl
    refine Changes.step ?_ (State.setPort_changes _ _ _) rfl
    refine Changes.step ?_ (State.freeExit_changes _ _ _) rfl
    exact Changes.refl _ _

theorem execFrameSend_changes (p : Fin 48) (s : State) :
    OutChanges [.regs, .mesh, .fabric, .host, .engine, .idle, .diag, .ibis, .outs] s (execFrameSend p s) := by
  unfold execFrameSend
  refine OutChanges.ite ?_ ?_
  · refine OutChanges.next ?_
    refine Changes.step ?_ (State.sendFrame_changes _ _) rfl
    refine Changes.step ?_ (State.ferryWork_changes _) rfl
    exact Changes.refl _ _
  · refine OutChanges.next ?_
    exact Changes.refl _ _

theorem State.toBlock_changes (s : State) (p : Nat) (b : Barge) :
    Changes [.mesh] s (s.toBlock p b) := by
  unfold State.toBlock
  dsimp only
  refine Changes.step ?_ (State.arriveAt_changes _ _ _ _ _) rfl
  exact Changes.refl _ _

theorem State.ontoMesh_changes (s : State) (p : Nat) (b : Barge) :
    Changes [.regs, .mesh, .fabric, .idle, .diag, .ibis, .outs] s (s.ontoMesh p b) := by
  unfold State.ontoMesh
  refine Changes.step ?_ (State.injectRaw_changes _ _ _ _ _ _) rfl
  refine Changes.step ?_ (State.wakeOn_changes _ _) rfl
  exact Changes.refl _ _

theorem State.handOver_changes (s : State) (p : Nat) (b : Barge) :
    Changes [.regs, .mesh, .fabric, .idle, .diag, .ibis, .outs] s (s.handOver p b) := by
  unfold State.handOver
  refine Changes.ite ?_ ?_
  · refine Changes.step ?_ (State.toBlock_changes _ _ _) rfl
    exact Changes.refl _ _
  · refine Changes.step ?_ (State.ontoMesh_changes _ _ _) rfl
    exact Changes.refl _ _

theorem State.dropBarge_changes (s : State) (p : Nat) (b : Barge) :
    Changes [.regs, .mesh, .fabric, .idle, .diag, .ibis, .outs] s (s.dropBarge p b) := by
  unfold State.dropBarge
  refine Changes.step ?_ (State.freeCredit_changes _ _) rfl
  refine Changes.step ?_ (State.logErr_changes _ _) rfl
  exact Changes.refl _ _

theorem State.treeEntry_changes (s : State) (p : Nat) (b : Barge) (bank : Nat) :
    Changes [.regs, .mesh, .fabric, .idle, .diag, .ibis, .outs] s (s.treeEntry p b bank) := by
  unfold State.treeEntry
  dsimp only
  refine Changes.ite ?_ ?_
  · refine Changes.ite ?_ ?_
    · refine Changes.step ?_ (State.dropBarge_changes _ _ _) rfl
      exact Changes.refl _ _
    · refine Changes.iteThen ?_ ?_
      · refine Changes.foldl ?_ (fun _ _ => ?_)
        · exact Changes.refl _ _
        · refine Changes.ite ?_ ?_
          · refine Changes.step ?_ (State.ontoMesh_changes _ _ _) rfl
            exact Changes.refl _ _
          · exact Changes.refl _ _
      · refine Changes.step ?_ (State.handOver_changes _ _ _) rfl
        exact Changes.refl _ _
  · refine Changes.ite ?_ ?_
    · refine Changes.ite ?_ ?_
      · refine Changes.step ?_ (State.dropBarge_changes _ _ _) rfl
        exact Changes.refl _ _
      · refine Changes.step ?_ (State.ontoMesh_changes _ _ _) rfl
        exact Changes.refl _ _
    · refine Changes.step ?_ (State.ontoMesh_changes _ _ _) rfl
      exact Changes.refl _ _

theorem State.entry_changes (s : State) (p : Nat) (b : Barge) :
    Changes [.regs, .mesh, .fabric, .idle, .diag, .ibis, .outs] s (s.entry p b) := by
  unfold State.entry
  split
  · refine Changes.step ?_ (State.freeCredit_changes _ _) rfl
    refine Changes.step ?_ (State.logErr_changes _ _) rfl
    refine Changes.step ?_ (State.addSat_changes _ _ _ _) rfl
    exact Changes.refl _ _
  · dsimp only
    refine Changes.ite ?_ ?_
    · refine Changes.step ?_ (State.treeEntry_changes _ _ _ _) rfl
      exact Changes.refl _ _
    · refine Changes.ite ?_ ?_
      · refine Changes.step ?_ (State.dropBarge_changes _ _ _) rfl
        exact Changes.refl _ _
      · refine Changes.ite ?_ ?_
        · refine Changes.ite ?_ ?_
          · refine Changes.step ?_ (State.handOver_changes _ _ _) rfl
            exact Changes.refl _ _
          · refine Changes.step ?_ (State.ontoMesh_changes _ _ _) rfl
            exact Changes.refl _ _
        · split
          · refine Changes.step ?_ (State.dropBarge_changes _ _ _) rfl
            exact Changes.refl _ _
          · refine Changes.step ?_ (State.ontoMesh_changes _ _ _) rfl
            exact Changes.refl _ _

theorem State.takeNak_changes (s : State) (p ack : Nat) :
    Changes [.regs, .cores, .mesh, .fabric, .toll, .idle, .diag, .ibis, .outs] s (s.takeNak p ack) := by
  unfold State.takeNak
  dsimp only
  refine Changes.iteThen ?_ ?_
  · refine Changes.iteThen ?_ ?_
    · refine Changes.step ?_ (State.addSat_changes _ _ _ _) rfl
      refine Changes.step ?_ (State.setPort_changes _ _ _) rfl
      exact Changes.refl _ _
    · refine Changes.step ?_ (State.logErr_changes _ _) rfl
      refine Changes.step ?_ (State.setPort_changes _ _ _) rfl
      exact Changes.refl _ _
  · refine Changes.step ?_ (State.portLost_changes _ _ _) rfl
    exact Changes.refl _ _

theorem State.takeHeader_changes (s : State) (p : Nat) (h : BitVec 100) :
    Changes [.regs, .cores, .mesh, .fabric, .toll, .idle, .diag, .ibis, .outs] s (s.takeHeader p h) := by
  unfold State.takeHeader
  dsimp only
  refine Changes.ite ?_ ?_
  · refine Changes.step ?_ (State.takeNak_changes _ _ _) rfl
    refine Changes.step ?_ (State.setPort_changes _ _ _) rfl
    exact Changes.refl _ _
  · refine Changes.iteThen ?_ ?_
    · refine Changes.step ?_ (State.setPort_changes _ _ _) rfl
      exact Changes.refl _ _
    · refine Changes.step ?_ (State.setPort_changes _ _ _) rfl
      exact Changes.refl _ _

theorem State.takeFlits_changes (s : State) (p : Nat) (ep : Bool) (fs : List (BitVec 630)) :
    Changes [.regs, .mesh, .fabric, .idle, .diag, .ibis, .outs] s (s.takeFlits p ep fs) := by
  unfold State.takeFlits
  refine Changes.foldl ?_ (fun _ _ => ?_)
  · exact Changes.refl _ _
  · refine Changes.ite ?_ ?_
    · dsimp only
      refine Changes.step ?_ (State.entry_changes _ _ _) rfl
      refine Changes.ite ?_ ?_
      · refine Changes.step ?_ (State.setPort_changes _ _ _) rfl
        exact Changes.refl _ _
      · exact Changes.refl _ _
    · exact Changes.refl _ _

theorem State.countFec_changes (s : State) (f : Frame) :
    Changes [.regs, .fabric] s (s.countFec f) := by
  unfold State.countFec
  dsimp only
  refine Changes.ite ?_ ?_
  · refine Changes.step ?_ (State.addSat_changes _ _ _ _) rfl
    exact Changes.refl _ _
  · refine Changes.ite ?_ ?_
    · exact Changes.refl _ _
    · refine Changes.iteElse ?_ ?_
      · refine Changes.record ?_ (by intro p; cases p <;> first | exact .inl rfl | exact .inr ⟨rfl, rfl⟩ | exact .inr (by dsimp only [Part.same]))
        exact Changes.refl _ _
      · refine Changes.step ?_ (State.addSat_changes _ _ _ _) rfl
        exact Changes.refl _ _

theorem State.receiveFrame_changes (s : State) (p : Nat) (f : Frame) :
    Changes [.regs, .cores, .mesh, .fabric, .toll, .idle, .diag, .ibis, .outs] s (s.receiveFrame p f) := by
  unfold State.receiveFrame
  dsimp only
  refine Changes.ite ?_ ?_
  · refine Changes.step ?_ (State.setPort_changes _ _ _) rfl
    refine Changes.ite ?_ ?_
    · refine Changes.step ?_ (State.countFec_changes _ _) rfl
      exact Changes.refl _ _
    · exact Changes.refl _ _
  · refine Changes.iteElse ?_ ?_
    · refine Changes.ite ?_ ?_
      · refine Changes.step ?_ (State.countFec_changes _ _) rfl
        exact Changes.refl _ _
      · exact Changes.refl _ _
    · refine Changes.step ?_ (State.takeFlits_changes _ _ _ _) rfl
      refine Changes.step ?_ (State.takeHeader_changes _ _ _) rfl
      refine Changes.step ?_ (State.setPort_changes _ _ _) rfl
      exact Changes.refl _ _

theorem execFrameReceive_changes (p : Fin 48) (f : Frame) (s : State) :
    OutChanges [.regs, .cores, .mesh, .fabric, .host, .engine, .toll, .idle, .diag, .ibis, .outs] s (execFrameReceive p f s) := by
  unfold execFrameReceive
  refine OutChanges.ite ?_ ?_
  · refine OutChanges.next ?_
    refine Changes.step ?_ (State.ferryWork_changes _) rfl
    refine Changes.step ?_ (State.receiveFrame_changes _ _ _) rfl
    exact Changes.refl _ _
  · refine OutChanges.next ?_
    exact Changes.refl _ _

/-! ### Enet -/

theorem State.rxDrop_changes (s : State) (i : Nat) (n : Nat) :
    Changes [.regs] s (s.rxDrop i n) := by
  unfold State.rxDrop
  refine Changes.step ?_ (State.addSat_changes _ _ _ _) rfl
  exact Changes.refl _ _

theorem State.setPrio_changes (s : State) (p q : Nat) (x : Prio) :
    Changes [.host] s (s.setPrio p q x) := by
  unfold State.setPrio
  refine Changes.record ?_ (by intro p; cases p <;> first | exact .inl rfl | exact .inr ⟨rfl, rfl⟩ | exact .inr (by dsimp only [Part.same]))
  exact Changes.refl _ _

theorem State.setQp_changes (s : State) (n : Nat) (x : Qp) :
    Changes [.host] s (s.setQp n x) := by
  unfold State.setQp
  refine Changes.record ?_ (by intro p; cases p <;> first | exact .inl rfl | exact .inr ⟨rfl, rfl⟩ | exact .inr (by dsimp only [Part.same]))
  exact Changes.refl _ _

theorem State.sendPfc_changes (s : State) (p q quanta : Nat) :
    Changes [.regs, .outs] s (s.sendPfc p q quanta) := by
  unfold State.sendPfc
  refine Changes.ite ?_ ?_
  · exact Changes.refl _ _
  · dsimp only
    refine Changes.step ?_ (State.emit_changes _ _) rfl
    refine Changes.ite ?_ ?_
    · exact Changes.refl _ _
    · refine Changes.step ?_ (State.addSat_changes _ _ _ _) rfl
      exact Changes.refl _ _

theorem State.rxHold_changes (s : State) (p q n : Nat) :
    Changes [.regs, .host, .outs] s (s.rxHold p q n) := by
  unfold State.rxHold
  dsimp only
  refine Changes.ite ?_ ?_
  · refine Changes.step ?_ (State.sendPfc_changes _ _ _ _) rfl
    refine Changes.step ?_ (State.setPrio_changes _ _ _ _) rfl
    exact Changes.refl _ _
  · refine Changes.step ?_ (State.setPrio_changes _ _ _ _) rfl
    exact Changes.refl _ _

theorem State.rxFree_changes (s : State) (p q n : Nat) :
    Changes [.regs, .host, .outs] s (s.rxFree p q n) := by
  unfold State.rxFree
  dsimp only
  refine Changes.ite ?_ ?_
  · refine Changes.step ?_ (State.sendPfc_changes _ _ _ _) rfl
    refine Changes.step ?_ (State.setPrio_changes _ _ _ _) rfl
    exact Changes.refl _ _
  · refine Changes.step ?_ (State.setPrio_changes _ _ _ _) rfl
    exact Changes.refl _ _

theorem State.sendMac_changes (s : State) (i q : Nat) (o : Output) :
    Changes [.host, .outs] s (s.sendMac i q o) := by
  unfold State.sendMac
  dsimp only
  refine Changes.ite ?_ ?_
  · exact Changes.refl _ _
  · refine Changes.ite ?_ ?_
    · exact Changes.refl _ _
    · refine Changes.ite ?_ ?_
      · refine Changes.step ?_ (State.setPrio_changes _ _ _ _) rfl
        exact Changes.refl _ _
      · refine Changes.step ?_ (State.emit_changes _ _) rfl
        exact Changes.refl _ _

theorem State.setLink_changes (s : State) (i : Nat) (up : Bool) :
    Changes [.regs] s (s.setLink i up) := by
  unfold State.setLink
  dsimp only
  refine Changes.step ?_ (State.put_changes _ _ _ _) rfl
  exact Changes.refl _ _

theorem State.dropPaced_changes (s : State) (p : Nat → Bool) :
    Changes [.host] s (s.dropPaced p) := by
  unfold State.dropPaced
  refine Changes.record ?_ (by intro p; cases p <;> first | exact .inl rfl | exact .inr ⟨rfl, rfl⟩ | exact .inr (by dsimp only [Part.same]))
  exact Changes.refl _ _

theorem State.dropLink_changes (s : State) (i : Nat) :
    Changes [.regs, .mesh, .host, .idle, .diag, .ibis, .outs] s (s.dropLink i) := by
  unfold State.dropLink
  refine Changes.ite ?_ ?_
  · exact Changes.refl _ _
  · dsimp only
    refine Changes.step ?_ (State.logErr_changes _ _) rfl
    refine Changes.foldl ?_ (fun _ _ => ?_)
    · refine Changes.step ?_ (State.dropPaced_changes _ _) rfl
      refine Changes.step ?_ (State.setLink_changes _ _ _) rfl
      exact Changes.refl _ _
    · refine Changes.ite ?_ ?_
      · exact Changes.refl _ _
      · refine Changes.step ?_ (State.setPrio_changes _ _ _ _) rfl
        exact Changes.refl _ _

theorem execMacLinkLoss_changes (i : Fin 8) (s : State) :
    OutChanges [.regs, .mesh, .host, .idle, .diag, .ibis, .outs] s (execMacLinkLoss i s) := by
  unfold execMacLinkLoss
  refine OutChanges.next ?_
  refine Changes.step ?_ (State.dropLink_changes _ _) rfl
  exact Changes.refl _ _

theorem execMacLinkUp_changes (i : Fin 8) (s : State) :
    OutChanges [.regs] s (execMacLinkUp i s) := by
  unfold execMacLinkUp
  dsimp only
  refine OutChanges.ite ?_ ?_
  · refine OutChanges.next ?_
    refine Changes.step ?_ (State.setLink_changes _ _ _) rfl
    exact Changes.refl _ _
  · refine OutChanges.next ?_
    exact Changes.refl _ _

theorem State.refuse3A06_changes (s : State) (aux : Nat) :
    Changes [.regs, .mesh, .idle, .diag, .ibis, .outs] s (s.refuse3A06 aux).1 := by
  unfold State.refuse3A06
  refine Changes.mkFst ?_
  refine Changes.step ?_ (State.logErr_changes _ _) rfl
  exact Changes.refl _ _

theorem State.portOff_changes (s : State) (p : Nat) :
    Changes [.regs, .host] s (s.portOff p) := by
  unfold State.portOff
  refine Changes.foldl ?_ (fun _ _ => ?_)
  · refine Changes.step ?_ (State.dropPaced_changes _ _) rfl
    refine Changes.step ?_ (State.put_changes _ _ _ _) rfl
    exact Changes.refl _ _
  · dsimp only
    refine Changes.ite ?_ ?_
    · exact Changes.refl _ _
    · refine Changes.step ?_ (State.setPrio_changes _ _ _ _) rfl
      exact Changes.refl _ _

theorem State.writePortCtrl_changes (s : State) (p : Nat) (v : Word) :
    Changes [.regs, .mesh, .host, .idle, .diag, .ibis, .outs] s (s.writePortCtrl p v).1 := by
  unfold State.writePortCtrl
  dsimp only
  refine Changes.iteFst ?_ ?_
  · refine Changes.step ?_ (State.refuse3A06_changes _ _) rfl
    exact Changes.refl _ _
  · refine Changes.mkFst ?_
    refine Changes.iteElse ?_ ?_
    · refine Changes.step ?_ (State.plainWrite_changes _ _ _) rfl
      exact Changes.refl _ _
    · refine Changes.step ?_ (State.portOff_changes _ _) rfl
      exact Changes.refl _ _

theorem execEnetPortCtrlWrite_changes (p : Fin 2) (v : Word) (s : State) :
    OutChanges [.regs, .mesh, .host, .idle, .diag, .ibis, .outs] s (execEnetPortCtrlWrite p v s) := by
  unfold execEnetPortCtrlWrite
  refine OutChanges.next ?_
  refine Changes.step ?_ (State.writePortCtrl_changes _ _ _) rfl
  exact Changes.refl _ _

theorem State.writeIf_changes (s : State) (i w : Nat) (v : Word) :
    Changes [.regs, .mesh, .idle, .diag, .ibis, .outs] s (s.writeIf i w v).1 := by
  unfold State.writeIf
  refine Changes.iteFst ?_ ?_
  · refine Changes.step ?_ (State.refuse3A06_changes _ _) rfl
    exact Changes.refl _ _
  · refine Changes.mkFst ?_
    refine Changes.step ?_ (State.plainWrite_changes _ _ _) rfl
    exact Changes.refl _ _

theorem execEnetIfWrite_changes (i : Fin 8) (w : Fin 8) (v : Word) (s : State) :
    OutChanges [.regs, .mesh, .idle, .diag, .ibis, .outs] s (execEnetIfWrite i w v s) := by
  unfold execEnetIfWrite
  refine OutChanges.next ?_
  refine Changes.step ?_ (State.writeIf_changes _ _ _ _) rfl
  exact Changes.refl _ _

theorem State.askNeighbour_changes (s : State) (i : Nat) (ip : BitVec 128) :
    Changes [.host, .outs] s (s.askNeighbour i ip) := by
  unfold State.askNeighbour
  dsimp only
  refine Changes.step ?_ (State.sendMac_changes _ _ _ _) rfl
  exact Changes.refl _ _

theorem State.setQpMac_changes (s : State) (n : Nat) (mac : BitVec 48) :
    Changes [.regs, .mem, .ecc, .cores, .mesh, .idle, .diag, .ibis, .outs] s (s.setQpMac n mac) := by
  unfold State.setQpMac
  refine Changes.step ?_ (State.writeAny_changes _ _ _) rfl
  exact Changes.refl _ _

theorem State.resolveQp_changes (s : State) (n : Nat) :
    Changes [.regs, .mem, .ecc, .cores, .mesh, .host, .idle, .diag, .ibis, .outs] s (s.resolveQp n) := by
  unfold State.resolveQp
  split
  · refine Changes.step ?_ (State.setQpMac_changes _ _ _) rfl
    exact Changes.refl _ _
  · refine Changes.ite ?_ ?_
    · refine Changes.step ?_ (State.askNeighbour_changes _ _ _) rfl
      exact Changes.refl _ _
    · exact Changes.refl _ _

theorem State.learn_changes (s : State) (ip : BitVec 128) (mac : BitVec 48) :
    Changes [.regs, .mem, .ecc, .cores, .mesh, .host, .idle, .diag, .ibis, .outs] s (s.learn ip mac) := by
  unfold State.learn
  dsimp only
  refine Changes.foldl ?_ (fun _ _ => ?_)
  · refine Changes.record ?_ (by intro p; cases p <;> first | exact .inl rfl | exact .inr ⟨rfl, rfl⟩ | exact .inr (by dsimp only [Part.same]))
    exact Changes.refl _ _
  · refine Changes.ite ?_ ?_
    · refine Changes.step ?_ (State.setQpMac_changes _ _ _) rfl
      exact Changes.refl _ _
    · exact Changes.refl _ _

theorem State.neighbourIn_changes (s : State) (i : Nat) (n : NeighbourMsg) :
    Changes [.regs, .mem, .ecc, .cores, .mesh, .host, .idle, .diag, .ibis, .outs] s (s.neighbourIn i n) := by
  unfold State.neighbourIn
  dsimp only
  split
  · refine Changes.ite ?_ ?_
    · refine Changes.step ?_ (State.sendMac_changes _ _ _ _) rfl
      refine Changes.step ?_ (State.learn_changes _ _ _) rfl
      exact Changes.refl _ _
    · exact Changes.refl _ _
  · refine Changes.step ?_ (State.learn_changes _ _ _) rfl
    exact Changes.refl _ _
  · refine Changes.ite ?_ ?_
    · refine Changes.step ?_ (State.sendMac_changes _ _ _ _) rfl
      refine Changes.step ?_ (State.learn_changes _ _ _) rfl
      exact Changes.refl _ _
    · exact Changes.refl _ _
  · refine Changes.step ?_ (State.learn_changes _ _ _) rfl
    exact Changes.refl _ _
  · refine Changes.ite ?_ ?_
    · refine Changes.step ?_ (State.sendMac_changes _ _ _ _) rfl
      exact Changes.refl _ _
    · refine Changes.step ?_ (State.rxDrop_changes _ _ _) rfl
      exact Changes.refl _ _
  · refine Changes.step ?_ (State.rxDrop_changes _ _ _) rfl
    exact Changes.refl _ _

theorem execNeighbourPacket_changes (i : Fin 8) (n : NeighbourFrame) (s : State) :
    OutChanges [.regs, .mem, .ecc, .cores, .mesh, .host, .idle, .diag, .ibis, .outs] s (execNeighbourPacket i n s) := by
  unfold execNeighbourPacket
  refine OutChanges.ite ?_ ?_
  · refine OutChanges.next ?_
    exact Changes.refl _ _
  · refine OutChanges.ite ?_ ?_
    · refine OutChanges.next ?_
      refine Changes.step ?_ (State.rxDrop_changes _ _ _) rfl
      exact Changes.refl _ _
    · refine OutChanges.next ?_
      refine Changes.step ?_ (State.neighbourIn_changes _ _ _) rfl
      exact Changes.refl _ _

theorem State.resumePrio_changes (s : State) (p q : Nat) :
    Changes [.host, .outs] s (s.resumePrio p q) := by
  unfold State.resumePrio
  dsimp only
  refine Changes.foldl ?_ (fun _ _ => ?_)
  · refine Changes.step ?_ (State.setPrio_changes _ _ _ _) rfl
    exact Changes.refl _ _
  · refine Changes.step ?_ (State.emit_changes _ _) rfl
    exact Changes.refl _ _

theorem execPfcFrame_changes (p : Fin 2) (prio : Fin 8) (quanta : BitVec 16) (s : State) :
    OutChanges [.regs, .host, .outs] s (execPfcFrame p prio quanta s) := by
  unfold execPfcFrame
  dsimp only
  refine OutChanges.ite ?_ ?_
  · refine OutChanges.next ?_
    refine Changes.step ?_ (State.resumePrio_changes _ _ _) rfl
    refine Changes.step ?_ (State.setPrio_changes _ _ _ _) rfl
    refine Changes.ite ?_ ?_
    · exact Changes.refl _ _
    · refine Changes.step ?_ (State.addSat_changes _ _ _ _) rfl
      exact Changes.refl _ _
  · refine OutChanges.ite ?_ ?_
    · refine OutChanges.next ?_
      refine Changes.step ?_ (State.setPrio_changes _ _ _ _) rfl
      refine Changes.ite ?_ ?_
      · exact Changes.refl _ _
      · refine Changes.step ?_ (State.addSat_changes _ _ _ _) rfl
        exact Changes.refl _ _
    · refine OutChanges.next ?_
      refine Changes.step ?_ (State.setPrio_changes _ _ _ _) rfl
      refine Changes.ite ?_ ?_
      · exact Changes.refl _ _
      · refine Changes.step ?_ (State.addSat_changes _ _ _ _) rfl
        exact Changes.refl _ _

theorem execPfcRefresh_changes (p : Fin 2) (prio : Fin 8) (s : State) :
    OutChanges [.now, .regs, .die, .fabric, .host, .outs] s (execPfcRefresh p prio s) := by
  unfold execPfcRefresh
  dsimp only
  refine OutChanges.ite ?_ ?_
  · refine OutChanges.next ?_
    refine Changes.step ?_ (State.sendPfc_changes _ _ _ _) rfl
    refine Changes.step ?_ (State.setPrio_changes _ _ _ _) rfl
    refine Changes.step ?_ (State.advanceTo_changes _ _) rfl
    exact Changes.refl _ _
  · refine OutChanges.next ?_
    exact Changes.refl _ _

theorem execPfcWatchdog_changes (p : Fin 2) (prio : Fin 8) (s : State) :
    OutChanges [.now, .regs, .die, .mesh, .fabric, .host, .idle, .diag, .ibis, .outs] s (execPfcWatchdog p prio s) := by
  unfold execPfcWatchdog
  dsimp only
  split
  · refine OutChanges.next ?_
    exact Changes.refl _ _
  · refine OutChanges.ite ?_ ?_
    · refine OutChanges.next ?_
      exact Changes.refl _ _
    · refine OutChanges.next ?_
      refine Changes.step ?_ (State.logErr_changes _ _) rfl
      refine Changes.step ?_ (State.dropPaced_changes _ _) rfl
      refine Changes.step ?_ (State.setPrio_changes _ _ _ _) rfl
      refine Changes.step ?_ (State.advanceTo_changes _ _) rfl
      exact Changes.refl _ _

theorem execPfcQuantaExpiry_changes (p : Fin 2) (prio : Fin 8) (s : State) :
    OutChanges [.now, .regs, .die, .fabric, .host, .outs] s (execPfcQuantaExpiry p prio s) := by
  unfold execPfcQuantaExpiry
  split
  · refine OutChanges.next ?_
    exact Changes.refl _ _
  · refine OutChanges.next ?_
    refine Changes.step ?_ (State.resumePrio_changes _ _ _) rfl
    refine Changes.step ?_ (State.advanceTo_changes _ _) rfl
    exact Changes.refl _ _

theorem execPfcHonourRestore_changes (p : Fin 2) (prio : Fin 8) (s : State) :
    OutChanges [.now, .regs, .die, .fabric, .host] s (execPfcHonourRestore p prio s) := by
  unfold execPfcHonourRestore
  dsimp only
  split
  · refine OutChanges.next ?_
    exact Changes.refl _ _
  · refine OutChanges.next ?_
    refine Changes.step ?_ (State.setPrio_changes _ _ _ _) rfl
    refine Changes.step ?_ (State.advanceTo_changes _ _) rfl
    exact Changes.refl _ _

/-! ### Session -/

theorem State.setQpField_changes (s : State) (n i k v : Nat) :
    Changes [.regs, .mem, .ecc, .cores, .mesh, .idle, .diag, .ibis, .outs] s (s.setQpField n i k v) := by
  unfold State.setQpField
  refine Changes.step ?_ (State.writeAny_changes _ _ _) rfl
  exact Changes.refl _ _

theorem State.roceSend_changes (s : State) (i : Nat) (k : RocePkt) :
    Changes [.host, .outs] s (s.roceSend i k) := by
  unfold State.roceSend
  dsimp only
  refine Changes.step ?_ (State.sendMac_changes _ _ _ _) rfl
  refine Changes.step ?_ (State.setQp_changes _ _ _) rfl
  exact Changes.refl _ _

theorem State.roceOut_changes (s : State) (i : Nat) (k : RocePkt) :
    Changes [.host, .outs] s (s.roceOut i k) := by
  unfold State.roceOut
  dsimp only
  refine Changes.ite ?_ ?_
  · exact Changes.refl _ _
  · refine Changes.ite ?_ ?_
    · refine Changes.step ?_ (State.roceSend_changes _ _ _) rfl
      exact Changes.refl _ _
    · refine Changes.step ?_ (State.setQp_changes _ _ _) rfl
      exact Changes.refl _ _

theorem State.paceQp_changes (s : State) (n fuel : Nat) : Changes [.host, .outs] s (s.paceQp n fuel) := by
  induction fuel generalizing s with
  | zero => exact Changes.refl _ _
  | succ fuel ih =>
    unfold State.paceQp
    split
    · exact Changes.refl _ _
    · refine Changes.ite ?_ ?_
      · refine Changes.trans ?_ (ih _)
        refine Changes.step ?_ (State.roceSend_changes _ _ _) rfl
        refine Changes.step ?_ (State.setQp_changes _ _ _) rfl
        exact Changes.refl _ _
      · exact Changes.refl _ _

theorem State.paceWork_changes (s : State) :
    Changes [.host, .outs] s (s.paceWork) := by
  unfold State.paceWork
  refine Changes.foldl ?_ (fun _ _ => ?_)
  · exact Changes.refl _ _
  · refine Changes.step ?_ (State.paceQp_changes _ _ _) rfl
    exact Changes.refl _ _

theorem State.qpEmit_changes (s : State) (k : RocePkt) :
    Changes [.host, .outs] s (s.qpEmit k) := by
  unfold State.qpEmit
  refine Changes.step ?_ (State.roceOut_changes _ _ _) rfl
  exact Changes.refl _ _

theorem State.readQp_changes (s : State) (n : Nat) :
    Changes [.regs, .mesh, .holds, .idle, .diag, .ibis, .outs] s (s.readQp n) := by
  unfold State.readQp
  refine Changes.step ?_ (State.readHold_changes _ _ _ _) rfl
  exact Changes.refl _ _

theorem State.qpSend_changes (s : State) (n kind rkey vaddr imm : Nat) (bytes : List Byte) (len : Nat) (ring : Option Nat) (final : Bool) (sess : Option (Nat × Nat)) :
    Changes [.regs, .mem, .ecc, .cores, .mesh, .holds, .host, .idle, .diag, .ibis, .outs] s (s.qpSend n kind rkey vaddr imm bytes len ring final sess) := by
  unfold State.qpSend
  refine Changes.ite ?_ ?_
  · exact Changes.refl _ _
  · dsimp only
    refine Changes.step ?_ (State.qpEmit_changes _ _) rfl
    refine Changes.step ?_ (State.setQp_changes _ _ _) rfl
    refine Changes.step ?_ (State.setQpField_changes _ _ _ _ _) rfl
    refine Changes.step ?_ (State.readQp_changes _ _) rfl
    exact Changes.refl _ _

theorem State.qpError_changes (s : State) (n : Nat) :
    Changes [.regs, .mem, .ecc, .cores, .mesh, .host, .idle, .diag, .ibis, .outs] s (s.qpError n) := by
  unfold State.qpError
  dsimp only
  refine Changes.step ?_ (State.logErr_changes _ _) rfl
  refine Changes.step ?_ (State.setQp_changes _ _ _) rfl
  refine Changes.step ?_ (State.setQpField_changes _ _ _ _ _) rfl
  exact Changes.refl _ _

theorem State.qpResend_changes (s : State) (n : Nat) :
    Changes [.host, .outs] s (s.qpResend n) := by
  unfold State.qpResend
  refine Changes.foldl ?_ (fun _ _ => ?_)
  · exact Changes.refl _ _
  · refine Changes.step ?_ (State.qpEmit_changes _ _) rfl
    exact Changes.refl _ _

theorem State.setSess_changes (s : State) (x : Session) :
    Changes [.host] s (s.setSess x) := by
  unfold State.setSess
  refine Changes.record ?_ (by intro p; cases p <;> first | exact .inl rfl | exact .inr ⟨rfl, rfl⟩ | exact .inr (by dsimp only [Part.same]))
  exact Changes.refl _ _

theorem State.countSessions_changes (s : State) :
    Changes [.regs] s (s.countSessions) := by
  unfold State.countSessions
  refine Changes.step ?_ (State.put_changes _ _ _ _) rfl
  exact Changes.refl _ _

theorem State.sendUdp_changes (s : State) (i : Nat) (dst : BitVec 128) (port : Nat) (bs : List Byte) :
    Changes [.host, .outs] s (s.sendUdp i dst port bs) := by
  unfold State.sendUdp
  refine Changes.step ?_ (State.sendMac_changes _ _ _ _) rfl
  exact Changes.refl _ _

theorem State.transmit_changes (s : State) (x : Session) (i : Nat) (bs : List Byte) (seq : Nat) :
    Changes [.regs, .mem, .ecc, .cores, .mesh, .holds, .host, .idle, .diag, .ibis, .outs] s (s.transmit x i bs seq) := by
  unfold State.transmit
  split
  · refine Changes.step ?_ (State.qpSend_changes _ _ _ _ _ _ _ _ _ _ _) rfl
    exact Changes.refl _ _
  · refine Changes.step ?_ (State.sendUdp_changes _ _ _ _ _) rfl
    exact Changes.refl _ _

theorem State.sendKept_changes (s : State) (x : Session) (m : SentMsg) :
    Changes [.regs, .mem, .ecc, .cores, .mesh, .holds, .host, .idle, .diag, .ibis, .outs] s (s.sendKept x m) := by
  unfold State.sendKept
  refine Changes.ite ?_ ?_
  · exact Changes.refl _ _
  · refine Changes.step ?_ (State.transmit_changes _ _ _ _ _) rfl
    exact Changes.refl _ _

theorem State.sendMsg_changes (s : State) (id ty flags handle status : Nat) (payload : List Byte) (answers : Option Nat) (finals : List Nat) :
    Changes [.regs, .mem, .ecc, .cores, .mesh, .holds, .host, .idle, .diag, .ibis, .outs] s (s.sendMsg id ty flags handle status payload answers finals) := by
  unfold State.sendMsg
  split
  · exact Changes.refl _ _
  · dsimp only
    refine Changes.step ?_ (State.sendKept_changes _ _ _) rfl
    refine Changes.step ?_ (State.setSess_changes _ _) rfl
    exact Changes.refl _ _

theorem State.sendBare_changes (s : State) (id ty : Nat) :
    Changes [.regs, .mem, .ecc, .cores, .mesh, .holds, .host, .idle, .diag, .ibis, .outs] s (s.sendBare id ty) := by
  unfold State.sendBare
  split
  · exact Changes.refl _ _
  · dsimp only
    refine Changes.step ?_ (State.transmit_changes _ _ _ _ _) rfl
    refine Changes.step ?_ (State.setSess_changes _ _) rfl
    exact Changes.refl _ _

theorem State.ackUpTo_changes (s : State) (id ack : Nat) :
    Changes [.host] s (s.ackUpTo id ack).1 := by
  unfold State.ackUpTo
  split
  · refine Changes.mkFst ?_
    exact Changes.refl _ _
  · dsimp only
    refine Changes.step ?_ (State.setSess_changes _ _) rfl
    exact Changes.refl _ _

theorem State.dropSession_changes (s : State) (id : Nat) :
    Changes [.regs, .host] s (s.dropSession id) := by
  unfold State.dropSession
  refine Changes.step ?_ (State.countSessions_changes _) rfl
  refine Changes.record ?_ (by intro p; cases p <;> first | exact .inl rfl | exact .inr ⟨rfl, rfl⟩ | exact .inr (by dsimp only [Part.same]))
  exact Changes.refl _ _

theorem execKeepaliveTimer_changes (sess : BitVec 32) (s : State) :
    OutChanges [.now, .regs, .mem, .ecc, .die, .cores, .mesh, .holds, .fabric, .host, .idle, .diag, .ibis, .outs] s (execKeepaliveTimer sess s) := by
  unfold execKeepaliveTimer
  split
  · refine OutChanges.next ?_
    exact Changes.refl _ _
  · dsimp only
    refine OutChanges.next ?_
    refine Changes.step ?_ (State.sendBare_changes _ _ _) rfl
    refine Changes.step ?_ (State.setSess_changes _ _) rfl
    refine Changes.step ?_ (State.advanceTo_changes _ _) rfl
    exact Changes.refl _ _

theorem execTowpathAckTimer_changes (sess : BitVec 32) (s : State) :
    OutChanges [.now, .regs, .mem, .ecc, .die, .cores, .mesh, .holds, .fabric, .host, .idle, .diag, .ibis, .outs] s (execTowpathAckTimer sess s) := by
  unfold execTowpathAckTimer
  split
  · refine OutChanges.next ?_
    exact Changes.refl _ _
  · split
    · refine OutChanges.next ?_
      exact Changes.refl _ _
    · refine OutChanges.next ?_
      refine Changes.step ?_ (State.sendBare_changes _ _ _) rfl
      refine Changes.step ?_ (State.advanceTo_changes _ _) rfl
      exact Changes.refl _ _

/-! ### Roce -/

theorem State.roceAnswer_changes (s : State) (k : Packet) (kind psn imm : Nat) (bytes : List Byte) :
    Changes [.host, .outs] s (s.roceAnswer k kind psn imm bytes) := by
  unfold State.roceAnswer
  refine Changes.step ?_ (State.roceOut_changes _ _ _) rfl
  exact Changes.refl _ _

theorem State.ceMark_changes (s : State) (k : Packet) :
    Changes [.host, .outs] s (s.ceMark k) := by
  unfold State.ceMark
  dsimp only
  refine Changes.ite ?_ ?_
  · refine Changes.step ?_ (State.roceAnswer_changes _ _ _ _ _ _) rfl
    refine Changes.step ?_ (State.setQp_changes _ _ _) rfl
    exact Changes.refl _ _
  · exact Changes.refl _ _

theorem State.nakError_changes (s : State) (k : Packet) (syndrome : Nat) :
    Changes [.regs, .mem, .ecc, .cores, .mesh, .host, .idle, .diag, .ibis, .outs] s (s.nakError k syndrome) := by
  unfold State.nakError
  refine Changes.step ?_ (State.qpError_changes _ _) rfl
  refine Changes.step ?_ (State.roceAnswer_changes _ _ _ _ _ _) rfl
  exact Changes.refl _ _

theorem State.takePacket_changes (s : State) (k : Packet) :
    Changes [.regs, .mem, .ecc, .cores, .mesh, .holds, .host, .idle, .diag, .ibis, .outs] s (s.takePacket k).1 := by
  unfold State.takePacket
  dsimp only
  refine Changes.iteFst ?_ ?_
  · refine Changes.mkFst ?_
    exact Changes.refl _ _
  · refine Changes.iteFst ?_ ?_
    · refine Changes.mkFst ?_
      refine Changes.step ?_ (State.rxDrop_changes _ _ _) rfl
      exact Changes.refl _ _
    · refine Changes.iteFst ?_ ?_
      · refine Changes.mkFst ?_
        refine Changes.ite ?_ ?_
        · refine Changes.step ?_ (State.rxDrop_changes _ _ _) rfl
          exact Changes.refl _ _
        · exact Changes.refl _ _
      · refine Changes.iteFst ?_ ?_
        · refine Changes.mkFst ?_
          refine Changes.step ?_ (State.nakError_changes _ _ _) rfl
          refine Changes.step ?_ (State.ceMark_changes _ _) rfl
          refine Changes.step ?_ (State.readQp_changes _ _) rfl
          refine Changes.ite ?_ ?_
          · refine Changes.step ?_ (State.rxDrop_changes _ _ _) rfl
            exact Changes.refl _ _
          · exact Changes.refl _ _
        · refine Changes.mkFst ?_
          refine Changes.step ?_ (State.ceMark_changes _ _) rfl
          refine Changes.step ?_ (State.readQp_changes _ _) rfl
          refine Changes.ite ?_ ?_
          · refine Changes.step ?_ (State.rxDrop_changes _ _ _) rfl
            exact Changes.refl _ _
          · exact Changes.refl _ _

theorem State.takePsn_changes (s : State) (k : Packet) (len : Nat) (ack : Bool) :
    Changes [.regs, .mem, .ecc, .cores, .mesh, .host, .idle, .diag, .ibis, .outs] s (s.takePsn k len ack) := by
  unfold State.takePsn
  dsimp only
  refine Changes.iteThen ?_ ?_
  · refine Changes.step ?_ (State.setQpField_changes _ _ _ _ _) rfl
    exact Changes.refl _ _
  · refine Changes.step ?_ (State.roceAnswer_changes _ _ _ _ _ _) rfl
    exact Changes.refl _ _

theorem State.ackAgain_changes (s : State) (k : Packet) (len : Nat) :
    Changes [.host, .outs] s (s.ackAgain k len) := by
  unfold State.ackAgain
  refine Changes.step ?_ (State.roceAnswer_changes _ _ _ _ _ _) rfl
  exact Changes.refl _ _

theorem State.readRegion_changes (s : State) (k : Packet) :
    Changes [.regs, .mesh, .holds, .idle, .diag, .ibis, .outs] s (s.readRegion k) := by
  unfold State.readRegion
  refine Changes.step ?_ (State.readHold_changes _ _ _ _) rfl
  exact Changes.refl _ _

theorem State.setEtxQ_changes (s : State) (p : Nat) (l : List EthTx) :
    Changes [.host] s (s.setEtxQ p l) := by
  unfold State.setEtxQ
  refine Changes.record ?_ (by intro p; cases p <;> first | exact .inl rfl | exact .inr ⟨rfl, rfl⟩ | exact .inr (by dsimp only [Part.same]))
  exact Changes.refl _ _

theorem State.ethOpen_changes (s : State) (p : Nat) :
    Changes [.regs, .mesh, .fabric, .host, .idle, .diag, .ibis, .outs] s (s.ethOpen p) := by
  unfold State.ethOpen
  split
  · exact Changes.refl _ _
  · refine Changes.ite ?_ ?_
    · exact Changes.refl _ _
    · dsimp only
      refine Changes.step ?_ (State.inject_changes _ _ _ _ _) rfl
      refine Changes.step ?_ (State.setEtxQ_changes _ _ _) rfl
      exact Changes.refl _ _

theorem State.ethWrite_changes (s : State) (p : Nat) (x : EthTx) :
    Changes [.regs, .mesh, .fabric, .host, .idle, .diag, .ibis, .outs] s (s.ethWrite p x) := by
  unfold State.ethWrite
  dsimp only
  refine Changes.step ?_ (State.ethOpen_changes _ _) rfl
  refine Changes.step ?_ (State.setEtxQ_changes _ _ _) rfl
  refine Changes.step ?_ (State.wakeOn_changes _ _) rfl
  refine Changes.step ?_ (State.rxHold_changes _ _ _ _) rfl
  exact Changes.refl _ _

theorem State.rdmaIn_changes (s : State) (k : Packet) (imm : Option Nat) :
    Changes [.regs, .mesh, .fabric, .host, .idle, .diag, .ibis, .outs] s (s.rdmaIn k imm) := by
  unfold State.rdmaIn
  refine Changes.ite ?_ ?_
  · split
    · refine Changes.step ?_ (State.emit_changes _ _) rfl
      exact Changes.refl _ _
    · exact Changes.refl _ _
  · refine Changes.step ?_ (State.ethWrite_changes _ _ _) rfl
    exact Changes.refl _ _

theorem State.rdmaWriteOp_changes (s : State) (k : Packet) (imm : Option Nat) :
    Changes [.regs, .mem, .ecc, .cores, .mesh, .holds, .fabric, .host, .idle, .diag, .ibis, .outs] s (s.rdmaWriteOp k imm) := by
  unfold State.rdmaWriteOp
  split
  · refine Changes.ofPair (by assumption) ?_
    refine Changes.step ?_ (State.takePacket_changes _ _) rfl
    exact Changes.refl _ _
  · dsimp only
    refine Changes.ite ?_ ?_
    · refine Changes.step ?_ (State.roceAnswer_changes _ _ _ _ _ _) rfl
      refine Changes.ofPair (by assumption) ?_
      refine Changes.step ?_ (State.takePacket_changes _ _) rfl
      exact Changes.refl _ _
    · refine Changes.ite ?_ ?_
      · refine Changes.step ?_ (State.ackAgain_changes _ _ _) rfl
        refine Changes.ofPair (by assumption) ?_
        refine Changes.step ?_ (State.takePacket_changes _ _) rfl
        exact Changes.refl _ _
      · refine Changes.ite ?_ ?_
        · refine Changes.step ?_ (State.nakError_changes _ _ _) rfl
          refine Changes.step ?_ (State.readRegion_changes _ _) rfl
          refine Changes.ofPair (by assumption) ?_
          refine Changes.step ?_ (State.takePacket_changes _ _) rfl
          exact Changes.refl _ _
        · refine Changes.step ?_ (State.rdmaIn_changes _ _ _) rfl
          refine Changes.step ?_ (State.takePsn_changes _ _ _ _) rfl
          refine Changes.step ?_ (State.readRegion_changes _ _) rfl
          refine Changes.ofPair (by assumption) ?_
          refine Changes.step ?_ (State.takePacket_changes _ _) rfl
          exact Changes.refl _ _

theorem execRdmaWrite_changes (rk : Packet) (s : State) :
    OutChanges [.regs, .mem, .ecc, .cores, .mesh, .holds, .fabric, .host, .idle, .diag, .ibis, .outs] s (execRdmaWrite rk s) := by
  unfold execRdmaWrite
  refine OutChanges.next ?_
  refine Changes.step ?_ (State.rdmaWriteOp_changes _ _ _) rfl
  exact Changes.refl _ _

theorem execRdmaWriteImm_changes (rk : Packet) (s : State) :
    OutChanges [.regs, .mem, .ecc, .cores, .mesh, .holds, .fabric, .host, .idle, .diag, .ibis, .outs] s (execRdmaWriteImm rk s) := by
  unfold execRdmaWriteImm
  refine OutChanges.next ?_
  refine Changes.step ?_ (State.rdmaWriteOp_changes _ _ _) rfl
  exact Changes.refl _ _

theorem State.rdmaFetch_changes (s : State) (k : Packet) :
    Changes [.regs, .mesh, .holds, .host, .idle, .diag, .ibis, .outs] s (s.rdmaFetch k) := by
  unfold State.rdmaFetch
  dsimp only
  refine Changes.ite ?_ ?_
  · refine Changes.step ?_ (State.roceAnswer_changes _ _ _ _ _ _) rfl
    exact Changes.refl _ _
  · refine Changes.foldlFst ?_ (fun _ _ _ => ?_)
    · refine Changes.mkFst ?_
      refine Changes.step ?_ (State.wakeOn_changes _ _) rfl
      refine Changes.step ?_ (State.setQp_changes _ _ _) rfl
      refine Changes.record ?_ (by intro p; cases p <;> first | exact .inl rfl | exact .inr ⟨rfl, rfl⟩ | exact .inr (by dsimp only [Part.same]))
      exact Changes.refl _ _
    · refine Changes.mkFst ?_
      refine Changes.step ?_ (State.holdRequest_changes _ _ _ _ _ _) rfl
      refine Changes.mkFst ?_
      exact Changes.refl _ _

theorem execRdmaRead_changes (rk : Packet) (s : State) :
    OutChanges [.regs, .mem, .ecc, .cores, .mesh, .holds, .host, .idle, .diag, .ibis, .outs] s (execRdmaRead rk s) := by
  unfold execRdmaRead
  dsimp only
  split
  · refine OutChanges.next ?_
    refine Changes.ofPair (by assumption) ?_
    refine Changes.step ?_ (State.takePacket_changes _ _) rfl
    exact Changes.refl _ _
  · refine OutChanges.ite ?_ ?_
    · refine OutChanges.next ?_
      refine Changes.step ?_ (State.roceAnswer_changes _ _ _ _ _ _) rfl
      refine Changes.ofPair (by assumption) ?_
      refine Changes.step ?_ (State.takePacket_changes _ _) rfl
      exact Changes.refl _ _
    · refine OutChanges.ite ?_ ?_
      · refine OutChanges.next ?_
        refine Changes.step ?_ (State.nakError_changes _ _ _) rfl
        refine Changes.step ?_ (State.readRegion_changes _ _) rfl
        refine Changes.ofPair (by assumption) ?_
        refine Changes.step ?_ (State.takePacket_changes _ _) rfl
        exact Changes.refl _ _
      · refine OutChanges.next ?_
        refine Changes.step ?_ (State.rdmaFetch_changes _ _) rfl
        refine Changes.iteThen ?_ ?_
        · refine Changes.step ?_ (State.readRegion_changes _ _) rfl
          refine Changes.ofPair (by assumption) ?_
          refine Changes.step ?_ (State.takePacket_changes _ _) rfl
          exact Changes.refl _ _
        · refine Changes.step ?_ (State.takePsn_changes _ _ _ _) rfl
          exact Changes.refl _ _

theorem execRoceNak_changes (rk : Packet) (s : State) :
    OutChanges [.regs, .mem, .ecc, .cores, .mesh, .holds, .host, .idle, .diag, .ibis, .outs] s (execRoceNak rk s) := by
  unfold execRoceNak
  split
  · refine OutChanges.next ?_
    refine Changes.ofPair (by assumption) ?_
    refine Changes.step ?_ (State.takePacket_changes _ _) rfl
    exact Changes.refl _ _
  · refine OutChanges.next ?_
    refine Changes.step ?_ (State.qpError_changes _ _) rfl
    refine Changes.ofPair (by assumption) ?_
    refine Changes.step ?_ (State.takePacket_changes _ _) rfl
    exact Changes.refl _ _

theorem execRoceAckTimeout_changes (qp : BitVec 12) (s : State) :
    OutChanges [.now, .regs, .mem, .ecc, .die, .cores, .mesh, .holds, .fabric, .host, .idle, .diag, .ibis, .outs] s (execRoceAckTimeout qp s) := by
  unfold execRoceAckTimeout
  dsimp only
  refine OutChanges.ite ?_ ?_
  · refine OutChanges.next ?_
    exact Changes.refl _ _
  · refine OutChanges.ite ?_ ?_
    · refine OutChanges.next ?_
      refine Changes.step ?_ (State.qpError_changes _ _) rfl
      refine Changes.step ?_ (State.readQp_changes _ _) rfl
      refine Changes.step ?_ (State.advanceTo_changes _ _) rfl
      exact Changes.refl _ _
    · refine OutChanges.next ?_
      refine Changes.step ?_ (State.qpResend_changes _ _) rfl
      refine Changes.step ?_ (State.setQp_changes _ _ _) rfl
      refine Changes.step ?_ (State.readQp_changes _ _) rfl
      refine Changes.step ?_ (State.advanceTo_changes _ _) rfl
      exact Changes.refl _ _

theorem execRoceRnrNak_changes (rk : Packet) (s : State) :
    OutChanges [.regs, .mem, .ecc, .cores, .mesh, .holds, .host, .idle, .diag, .ibis, .outs] s (execRoceRnrNak rk s) := by
  unfold execRoceRnrNak
  dsimp only
  split
  · refine OutChanges.next ?_
    refine Changes.ofPair (by assumption) ?_
    refine Changes.step ?_ (State.takePacket_changes _ _) rfl
    exact Changes.refl _ _
  · refine OutChanges.ite ?_ ?_
    · refine OutChanges.next ?_
      refine Changes.step ?_ (State.qpError_changes _ _) rfl
      refine Changes.ofPair (by assumption) ?_
      refine Changes.step ?_ (State.takePacket_changes _ _) rfl
      exact Changes.refl _ _
    · refine OutChanges.next ?_
      refine Changes.step ?_ (State.qpResend_changes _ _) rfl
      refine Changes.step ?_ (State.setQp_changes _ _ _) rfl
      refine Changes.ofPair (by assumption) ?_
      refine Changes.step ?_ (State.takePacket_changes _ _) rfl
      exact Changes.refl _ _

theorem execCnp_changes (rk : Packet) (s : State) :
    OutChanges [.regs, .mem, .ecc, .cores, .mesh, .holds, .host, .idle, .diag, .ibis, .outs] s (execCnp rk s) := by
  unfold execCnp
  dsimp only
  split
  · refine OutChanges.next ?_
    refine Changes.ofPair (by assumption) ?_
    refine Changes.step ?_ (State.takePacket_changes _ _) rfl
    exact Changes.refl _ _
  · refine OutChanges.next ?_
    refine Changes.step ?_ (State.paceWork_changes _) rfl
    refine Changes.step ?_ (State.setQp_changes _ _ _) rfl
    refine Changes.step ?_ (State.setQpField_changes _ _ _ _ _) rfl
    refine Changes.ofPair (by assumption) ?_
    refine Changes.step ?_ (State.takePacket_changes _ _) rfl
    exact Changes.refl _ _

theorem execRateRecovery_changes (qp : BitVec 12) (s : State) :
    OutChanges [.now, .regs, .mem, .ecc, .die, .cores, .mesh, .holds, .fabric, .host, .idle, .diag, .ibis, .outs] s (execRateRecovery qp s) := by
  unfold execRateRecovery
  dsimp only
  refine OutChanges.ite ?_ ?_
  · refine OutChanges.next ?_
    exact Changes.refl _ _
  · refine OutChanges.next ?_
    refine Changes.step ?_ (State.paceWork_changes _) rfl
    refine Changes.step ?_ (State.setQp_changes _ _ _) rfl
    refine Changes.iteElse ?_ ?_
    · refine Changes.step ?_ (State.readQp_changes _ _) rfl
      refine Changes.step ?_ (State.advanceTo_changes _ _) rfl
      exact Changes.refl _ _
    · refine Changes.step ?_ (State.setQpField_changes _ _ _ _ _) rfl
      exact Changes.refl _ _

/-! ### HoldPort -/

theorem State.answerFetches_changes (s : State) (n : Nat) (k : Nat) : Changes [.host, .outs] s (s.answerFetches n k) := by
  induction k generalizing s with
  | zero => exact Changes.refl _ _
  | succ k ih =>
    unfold State.answerFetches
    split
    · refine Changes.ite ?_ ?_
      · refine Changes.trans ?_ (ih _)
        refine Changes.step ?_ (State.roceAnswer_changes _ _ _ _ _ _) rfl
        refine Changes.step ?_ (State.setQp_changes _ _ _) rfl
        exact Changes.refl _ _
      · exact Changes.refl _ _
    · exact Changes.refl _ _

theorem State.fetchBack_changes (s : State) (n id j : Nat) (bs : List Byte) :
    Changes [.host, .outs] s (s.fetchBack n id j bs) := by
  unfold State.fetchBack
  dsimp only
  refine Changes.step ?_ (State.answerFetches_changes _ _ _) rfl
  refine Changes.step ?_ (State.setQp_changes _ _ _) rfl
  exact Changes.refl _ _

theorem State.wordWritten_changes (s : State) (a : Nat) :
    Changes [.regs, .mem, .ecc, .cores, .mesh, .host, .engine, .idle, .diag, .ibis, .outs] s (s.wordWritten a) := by
  unfold State.wordWritten
  dsimp only
  split
  · refine Changes.ite ?_ ?_
    · refine Changes.step ?_ (State.resolveQp_changes _ _) rfl
      refine Changes.ite ?_ ?_
      · refine Changes.record ?_ (by intro p; cases p <;> first | exact .inl rfl | exact .inr ⟨rfl, rfl⟩ | exact .inr (by dsimp only [Part.same]))
        exact Changes.refl _ _
      · exact Changes.refl _ _
    · refine Changes.step ?_ (State.setQp_changes _ _ _) rfl
      refine Changes.ite ?_ ?_
      · refine Changes.record ?_ (by intro p; cases p <;> first | exact .inl rfl | exact .inr ⟨rfl, rfl⟩ | exact .inr (by dsimp only [Part.same]))
        exact Changes.refl _ _
      · exact Changes.refl _ _
  · refine Changes.ite ?_ ?_
    · refine Changes.record ?_ (by intro p; cases p <;> first | exact .inl rfl | exact .inr ⟨rfl, rfl⟩ | exact .inr (by dsimp only [Part.same]))
      exact Changes.refl _ _
    · exact Changes.refl _ _

theorem State.holdPath_changes (s : State) (a : Nat) (val : Option Word) (k : Asker) :
    Changes [.holds] s (s.holdPath a val k) := by
  unfold State.holdPath
  refine Changes.step ?_ (State.holdRequest_changes _ _ _ _ _ _) rfl
  exact Changes.refl _ _

theorem State.holdBack_changes (s : State) (k : Nat) (r : HoldReqItem) :
    Changes [.regs, .mem, .ecc, .cores, .mesh, .holds, .fabric, .host, .engine, .weights, .toll, .idle, .diag, .ibis, .outs] s (s.holdBack k r) := by
  unfold State.holdBack
  split
  · refine Changes.step ?_ (State.writeBack_changes _ _) rfl
    exact Changes.refl _ _
  · refine Changes.step ?_ (State.readBack_changes _ _ _ _ _ _) rfl
    exact Changes.refl _ _
  · refine Changes.step ?_ (State.fillBack_changes _ _ _ _ _ _) rfl
    exact Changes.refl _ _
  · refine Changes.step ?_ (State.fetchBack_changes _ _ _ _ _) rfl
    refine Changes.step ?_ (State.holdRead_changes _ _ _ _ _) rfl
    exact Changes.refl _ _
  · refine Changes.ite ?_ ?_
    · refine Changes.step ?_ (State.answer_changes _ _ _ _) rfl
      refine Changes.step ?_ (State.wordWritten_changes _ _) rfl
      exact Changes.refl _ _
    · refine Changes.step ?_ (State.answer_changes _ _ _ _) rfl
      refine Changes.step ?_ (State.holdRead_changes _ _ _ _ _) rfl
      exact Changes.refl _ _
  · exact Changes.refl _ _

theorem State.holdServe_changes (s : State) (k : Nat) :
    Changes [.regs, .mem, .ecc, .cores, .mesh, .holds, .fabric, .host, .engine, .weights, .toll, .idle, .diag, .ibis, .outs] s (s.holdServe k) := by
  unfold State.holdServe
  split
  · exact Changes.refl _ _
  · refine Changes.step ?_ (State.holdBack_changes _ _ _) rfl
    refine Changes.step ?_ (State.writePieces_changes _ _) rfl
    refine Changes.step ?_ (State.setPc_changes _ _ _) rfl
    exact Changes.refl _ _

theorem State.holdComplete_changes (s : State) (h pc : Nat) :
    Changes [.regs, .mem, .ecc, .cores, .mesh, .holds, .fabric, .host, .engine, .weights, .toll, .idle, .diag, .ibis, .outs] s (s.holdComplete h pc) := by
  unfold State.holdComplete
  dsimp only
  refine Changes.ite ?_ ?_
  · refine Changes.step ?_ (State.holdServe_changes _ _) rfl
    exact Changes.refl _ _
  · exact Changes.refl _ _

theorem State.holdDrain_changes (s : State) (k fuel : Nat) : Changes [.regs, .mem, .ecc, .cores, .mesh, .holds, .fabric, .host, .engine, .weights, .toll, .idle, .diag, .ibis, .outs] s (s.holdDrain k fuel) := by
  induction fuel generalizing s with
  | zero => exact Changes.refl _ _
  | succ fuel ih =>
    unfold State.holdDrain
    refine Changes.trans ?_ (ih _)
    refine Changes.step ?_ (State.holdServe_changes _ _) rfl
    exact Changes.refl _ _

theorem State.serveAhead_changes (s : State) (a n : Nat) :
    Changes [.regs, .mem, .ecc, .cores, .mesh, .holds, .fabric, .host, .engine, .weights, .toll, .idle, .diag, .ibis, .outs] s (s.serveAhead a n) := by
  unfold State.serveAhead
  dsimp only
  refine Changes.foldl ?_ (fun _ _ => ?_)
  · exact Changes.refl _ _
  · refine Changes.step ?_ (State.holdDrain_changes _ _ _) rfl
    exact Changes.refl _ _

theorem execHoldRequestComplete_changes (h : Fin 2) (pc : Fin 64) (s : State) :
    OutChanges [.regs, .mem, .ecc, .cores, .mesh, .holds, .fabric, .host, .engine, .weights, .toll, .idle, .diag, .ibis, .outs] s (execHoldRequestComplete h pc s) := by
  unfold execHoldRequestComplete
  refine OutChanges.next ?_
  refine Changes.step ?_ (State.holdComplete_changes _ _ _) rfl
  exact Changes.refl _ _

/-! ### Power -/

theorem State.setWeir_changes (s : State) (k : Nat) (w : Weir) :
    Changes [.power] s (s.setWeir k w) := by
  unfold State.setWeir
  refine Changes.record ?_ (by intro p; cases p <;> first | exact .inl rfl | exact .inr ⟨rfl, rfl⟩ | exact .inr (by dsimp only [Part.same]))
  exact Changes.refl _ _

theorem State.setWeirCode_changes (s : State) (k : Fin 6) (c : Nat) :
    Changes [.regs, .die] s (s.setWeirCode k c) := by
  unfold State.setWeirCode
  dsimp only
  refine Changes.ite ?_ ?_
  · refine Changes.step ?_ (State.holdOn_changes _ _) rfl
    refine Changes.step ?_ (State.put_changes _ _ _ _) rfl
    exact Changes.refl _ _
  · refine Changes.step ?_ (State.holdOff_changes _ _) rfl
    refine Changes.step ?_ (State.put_changes _ _ _ _) rfl
    exact Changes.refl _ _

theorem State.weirBelow_changes (s : State) (k : Nat) :
    Changes [.power] s (s.weirBelow k) := by
  unfold State.weirBelow
  dsimp only
  refine Changes.step ?_ (State.setWeir_changes _ _ _) rfl
  exact Changes.refl _ _

theorem State.gustBegins_changes (s : State) (k : Nat) :
    Changes [.regs] s (s.gustBegins k) := by
  unfold State.gustBegins
  dsimp only
  refine Changes.step ?_ (State.hwSet_changes _ _ _ _) rfl
  refine Changes.step ?_ (State.addSat_changes _ _ _ _) rfl
  refine Changes.step ?_ (State.addTo_changes _ _ _ _) rfl
  exact Changes.refl _ _

theorem State.gustStops_changes (s : State) (k : Nat) :
    Changes [.regs, .mesh, .idle, .diag, .ibis, .outs] s (s.gustStops k) := by
  unfold State.gustStops
  dsimp only
  refine Changes.step ?_ (State.logErr_changes _ _) rfl
  refine Changes.step ?_ (State.hwSet_changes _ _ _ _) rfl
  refine Changes.step ?_ (State.addSat_changes _ _ _ _) rfl
  refine Changes.step ?_ (State.addTo_changes _ _ _ _) rfl
  exact Changes.refl _ _

theorem State.weirRise_changes (s : State) (k : Fin 6) (c : Nat) :
    Changes [.regs, .die, .mesh, .power, .idle, .diag, .ibis, .outs] s (s.weirRise k c) := by
  unfold State.weirRise
  dsimp only
  refine Changes.step ?_ (State.setWeirCode_changes _ _ _) rfl
  refine Changes.step ?_ (State.setWeir_changes _ _ _) rfl
  refine Changes.iteThen ?_ ?_
  · refine Changes.iteThen ?_ ?_
    · refine Changes.ite ?_ ?_
      · refine Changes.step ?_ (State.gustBegins_changes _ _) rfl
        exact Changes.refl _ _
      · exact Changes.refl _ _
    · refine Changes.step ?_ (State.logErr_changes _ _) rfl
      exact Changes.refl _ _
  · refine Changes.step ?_ (State.gustStops_changes _ _) rfl
    exact Changes.refl _ _

theorem State.meterPkg_changes (s : State) (q : Nat) :
    Changes [.regs, .power] s (s.meterPkg q) := by
  unfold State.meterPkg
  dsimp only
  refine Changes.record ?_ (by intro p; cases p <;> first | exact .inl rfl | exact .inr ⟨rfl, rfl⟩ | exact .inr (by dsimp only [Part.same]))
  refine Changes.step ?_ (State.addTo_changes _ _ _ _) rfl
  exact Changes.refl _ _

theorem State.meterReaches_changes (s : State) (k : Nat) :
    Changes [.free, .regs] s (s.meterReaches k) := by
  unfold State.meterReaches
  refine Changes.foldl ?_ (fun _ _ => ?_)
  · exact Changes.refl _ _
  · refine Changes.step ?_ (State.drawn_changes _) rfl
    refine Changes.step ?_ (State.addTo_changes _ _ _ _) rfl
    exact Changes.refl _ _

theorem State.sample_changes (s : State) (k : Fin 6) (q : Nat) :
    Changes [.now, .free, .regs, .die, .cores, .mesh, .fabric, .power, .idle, .diag, .ibis, .outs] s (s.sample k q) := by
  unfold State.sample
  dsimp only
  refine Changes.step ?_ (State.weirBelow_changes _ _) rfl
  refine Changes.iteThen ?_ ?_
  · refine Changes.ite ?_ ?_
    · refine Changes.step ?_ (State.meterPkg_changes _ _) rfl
      refine Changes.step ?_ (State.hwPut_changes _ _ _ _) rfl
      refine Changes.step ?_ (State.put_changes _ _ _ _) rfl
      refine Changes.step ?_ (State.setWeir_changes _ _ _) rfl
      refine Changes.step ?_ (State.advanceTo_changes _ _) rfl
      exact Changes.refl _ _
    · refine Changes.iteThen ?_ ?_
      · refine Changes.step ?_ (State.hwPut_changes _ _ _ _) rfl
        refine Changes.step ?_ (State.put_changes _ _ _ _) rfl
        refine Changes.step ?_ (State.setWeir_changes _ _ _) rfl
        refine Changes.step ?_ (State.advanceTo_changes _ _) rfl
        exact Changes.refl _ _
      · refine Changes.step ?_ (State.meterReaches_changes _ _) rfl
        exact Changes.refl _ _
  · refine Changes.step ?_ (State.weirRise_changes _ _ _) rfl
    exact Changes.refl _ _

theorem execWeirSample_changes (k : Fin 6) (q : BitVec 16) (s : State) :
    OutChanges [.now, .free, .regs, .die, .cores, .mesh, .fabric, .power, .idle, .diag, .ibis, .outs] s (execWeirSample k q s) := by
  unfold execWeirSample
  refine OutChanges.next ?_
  refine Changes.step ?_ (State.sample_changes _ _ _) rfl
  exact Changes.refl _ _

theorem State.writeWeirLimit_changes (s : State) (k : Nat) (v : Word) :
    Changes [.regs, .mesh, .idle, .diag, .ibis, .outs] s (s.writeWeirLimit k v).1 := by
  unfold State.writeWeirLimit
  dsimp only
  refine Changes.iteFst ?_ ?_
  · refine Changes.mkFst ?_
    refine Changes.step ?_ (State.logErr_changes _ _) rfl
    exact Changes.refl _ _
  · refine Changes.mkFst ?_
    refine Changes.step ?_ (State.plainWrite_changes _ _ _) rfl
    exact Changes.refl _ _

theorem execWeirLimitWrite_changes (k : Fin 6) (v : Word) (s : State) :
    OutChanges [.regs, .mesh, .idle, .diag, .ibis, .outs] s (execWeirLimitWrite k v s) := by
  unfold execWeirLimitWrite
  refine OutChanges.next ?_
  refine Changes.step ?_ (State.writeWeirLimit_changes _ _ _) rfl
  exact Changes.refl _ _

theorem State.writeWeirWindow_changes (s : State) (v : Word) :
    Changes [.regs, .mesh, .idle, .diag, .ibis, .outs] s (s.writeWeirWindow v).1 := by
  unfold State.writeWeirWindow
  dsimp only
  refine Changes.iteFst ?_ ?_
  · refine Changes.mkFst ?_
    refine Changes.step ?_ (State.logErr_changes _ _) rfl
    exact Changes.refl _ _
  · refine Changes.mkFst ?_
    refine Changes.step ?_ (State.plainWrite_changes _ _ _) rfl
    exact Changes.refl _ _

theorem execWeirWindowWrite_changes (v : Word) (s : State) :
    OutChanges [.regs, .mesh, .idle, .diag, .ibis, .outs] s (execWeirWindowWrite v s) := by
  unfold execWeirWindowWrite
  refine OutChanges.next ?_
  refine Changes.step ?_ (State.writeWeirWindow_changes _ _) rfl
  exact Changes.refl _ _

theorem State.groupAdd_changes (s : State) (n : Nat) :
    Changes [.regs] s (s.groupAdd n) := by
  unfold State.groupAdd
  refine Changes.step ?_ (State.addTo_changes _ _ _ _) rfl
  exact Changes.refl _ _

theorem execEngyGroupAdd_changes (v : Word) (s : State) :
    OutChanges [.regs] s (execEngyGroupAdd v s) := by
  unfold execEngyGroupAdd
  refine OutChanges.next ?_
  refine Changes.step ?_ (State.groupAdd_changes _ _) rfl
  exact Changes.refl _ _

theorem State.latchEnergy_changes (s : State) :
    Changes [.regs, .mesh, .power, .idle, .diag, .ibis, .outs] s (s.latchEnergy) := by
  unfold State.latchEnergy
  dsimp only
  refine Changes.ite ?_ ?_
  · refine Changes.step ?_ (State.groupAdd_changes _ _) rfl
    refine Changes.record ?_ (by intro p; cases p <;> first | exact .inl rfl | exact .inr ⟨rfl, rfl⟩ | exact .inr (by dsimp only [Part.same]))
    refine Changes.step ?_ (State.put_changes _ _ _ _) rfl
    refine Changes.step ?_ (State.put_changes _ _ _ _) rfl
    exact Changes.refl _ _
  · refine Changes.iteThen ?_ ?_
    · refine Changes.record ?_ (by intro p; cases p <;> first | exact .inl rfl | exact .inr ⟨rfl, rfl⟩ | exact .inr (by dsimp only [Part.same]))
      refine Changes.step ?_ (State.put_changes _ _ _ _) rfl
      refine Changes.step ?_ (State.put_changes _ _ _ _) rfl
      exact Changes.refl _ _
    · refine Changes.step ?_ (State.sendReg_changes _ _ _ _ _ _) rfl
      exact Changes.refl _ _

theorem State.applyOpset_changes (s : State) (target mask : Nat) :
    Changes [.regs, .mesh, .idle, .diag, .ibis, .outs] s (s.applyOpset target mask) := by
  unfold State.applyOpset
  refine Changes.foldl ?_ (fun _ _ => ?_)
  · exact Changes.refl _ _
  · dsimp only
    refine Changes.step ?_ (State.requestOp_changes _ _ _) rfl
    exact Changes.refl _ _

theorem State.writeOpset_changes (s : State) (v : Word) :
    Changes [.regs, .mesh, .idle, .diag, .ibis, .outs] s (s.writeOpset v) := by
  unfold State.writeOpset
  refine Changes.ite ?_ ?_
  · exact Changes.refl _ _
  · dsimp only
    refine Changes.ite ?_ ?_
    · refine Changes.record ?_ (by intro p; cases p <;> first | exact .inl rfl | exact .inr ⟨rfl, rfl⟩ | exact .inr (by dsimp only [Part.same]))
      exact Changes.refl _ _
    · refine Changes.step ?_ (State.applyOpset_changes _ _ _) rfl
      refine Changes.record ?_ (by intro p; cases p <;> first | exact .inl rfl | exact .inr ⟨rfl, rfl⟩ | exact .inr (by dsimp only [Part.same]))
      exact Changes.refl _ _

theorem execIdleOpset_changes (v : Word) (s : State) :
    OutChanges [.regs, .mesh, .idle, .diag, .ibis, .outs] s (execIdleOpset v s) := by
  unfold execIdleOpset
  refine OutChanges.next ?_
  refine Changes.step ?_ (State.writeOpset_changes _ _) rfl
  exact Changes.refl _ _

theorem State.opsetAtRecord_changes (s : State) :
    Changes [.regs, .mesh, .idle, .diag, .ibis, .outs] s (s.opsetAtRecord) := by
  unfold State.opsetAtRecord
  split
  · exact Changes.refl _ _
  · refine Changes.step ?_ (State.applyOpset_changes _ _ _) rfl
    refine Changes.record ?_ (by intro p; cases p <;> first | exact .inl rfl | exact .inr ⟨rfl, rfl⟩ | exact .inr (by dsimp only [Part.same]))
    exact Changes.refl _ _

theorem State.phaseHint_changes (s : State) (r : List Word) :
    Changes [.idle] s (s.phaseHint r) := by
  unfold State.phaseHint
  refine Changes.ite ?_ ?_
  · exact Changes.refl _ _
  · dsimp only
    refine Changes.ite ?_ ?_
    · exact Changes.refl _ _
    · refine Changes.record ?_ (by intro p; cases p <;> first | exact .inl rfl | exact .inr ⟨rfl, rfl⟩ | exact .inr (by dsimp only [Part.same]))
      exact Changes.refl _ _

theorem State.policyNote_changes (s : State) (at_ : Nat) :
    Changes [.regs, .cores, .mesh, .power, .idle, .diag, .ibis, .outs] s (s.policyNote at_) := by
  unfold State.policyNote
  dsimp only
  refine Changes.record ?_ (by intro p; cases p <;> first | exact .inl rfl | exact .inr ⟨rfl, rfl⟩ | exact .inr (by dsimp only [Part.same]))
  exact Changes.refl _ _

theorem State.policySample_changes (s : State) :
    Changes [.now, .regs, .die, .cores, .mesh, .fabric, .power, .idle, .diag, .ibis, .outs] s (s.policySample) :=
  ((State.advanceTo_changes s _).widen rfl).step (State.policyNote_changes _ _) rfl

theorem State.policyJudge_changes (s : State) (n used full : Nat) :
    Changes [.regs, .mesh, .power, .idle, .diag, .ibis, .outs] s (s.policyJudge n used full) := by
  unfold State.policyJudge
  refine Changes.ite ?_ ?_
  · dsimp only
    refine Changes.record ?_ (by intro p; cases p <;> first | exact .inl rfl | exact .inr ⟨rfl, rfl⟩ | exact .inr (by dsimp only [Part.same]))
    refine Changes.iteElse ?_ ?_
    · refine Changes.step ?_ (State.hwPut_changes _ _ _ _) rfl
      exact Changes.refl _ _
    · refine Changes.step ?_ (State.logErr_changes _ _) rfl
      exact Changes.refl _ _
  · dsimp only
    refine Changes.ite ?_ ?_
    · exact Changes.refl _ _
    · refine Changes.ite ?_ ?_
      · refine Changes.record ?_ (by intro p; cases p <;> first | exact .inl rfl | exact .inr ⟨rfl, rfl⟩ | exact .inr (by dsimp only [Part.same]))
        exact Changes.refl _ _
      · refine Changes.ite ?_ ?_
        · refine Changes.record ?_ (by intro p; cases p <;> first | exact .inl rfl | exact .inr ⟨rfl, rfl⟩ | exact .inr (by dsimp only [Part.same]))
          exact Changes.refl _ _
        · refine Changes.record ?_ (by intro p; cases p <;> first | exact .inl rfl | exact .inr ⟨rfl, rfl⟩ | exact .inr (by dsimp only [Part.same]))
          refine Changes.step ?_ (State.hwPut_changes _ _ _ _) rfl
          exact Changes.refl _ _

theorem State.policyTick_changes (s : State) :
    Changes [.now, .regs, .die, .cores, .mesh, .fabric, .power, .idle, .diag, .ibis, .outs] s (s.policyTick) := by
  unfold State.policyTick
  dsimp only
  refine Changes.iteElse ?_ ?_
  · refine Changes.step ?_ (State.policySample_changes _) rfl
    exact Changes.refl _ _
  · refine Changes.step ?_ (State.policyJudge_changes _ _ _ _) rfl
    exact Changes.refl _ _

theorem execPolicyTick_changes (s : State) :
    OutChanges [.now, .regs, .die, .cores, .mesh, .fabric, .power, .idle, .diag, .ibis, .outs] s (execPolicyTick s) := by
  unfold execPolicyTick
  refine OutChanges.next ?_
  refine Changes.step ?_ (State.policyTick_changes _) rfl
  exact Changes.refl _ _

theorem execCapRaise_changes (s : State) :
    OutChanges [.now, .regs, .reaches, .die, .fabric] s (execCapRaise s) := by
  unfold execCapRaise
  split
  · refine OutChanges.next ?_
    exact Changes.refl _ _
  · dsimp only
    refine OutChanges.next ?_
    refine Changes.step ?_ (State.setReach_changes _ _ _) rfl
    refine Changes.step ?_ (State.hwPut_changes _ _ _ _) rfl
    refine Changes.step ?_ (State.advanceTo_changes _ _) rfl
    exact Changes.refl _ _

theorem State.noteQuiet_changes (s : State) :
    Changes [.regs, .mesh, .idle, .diag, .ibis, .outs] s (s.noteQuiet) := by
  unfold State.noteQuiet
  refine Changes.ite ?_ ?_
  · refine Changes.step ?_ (State.atWork_changes _) rfl
    exact Changes.refl _ _
  · refine Changes.ite ?_ ?_
    · exact Changes.refl _ _
    · dsimp only
      refine Changes.iteThen ?_ ?_
      · refine Changes.record ?_ (by intro p; cases p <;> first | exact .inl rfl | exact .inr ⟨rfl, rfl⟩ | exact .inr (by dsimp only [Part.same]))
        exact Changes.refl _ _
      · refine Changes.step ?_ (State.applyOpset_changes _ _ _) rfl
        exact Changes.refl _ _

theorem State.stopPacers_changes (s : State) :
    Changes [.reaches] s (s.stopPacers) := by
  unfold State.stopPacers
  refine Changes.foldl ?_ (fun _ _ => ?_)
  · exact Changes.refl _ _
  · refine Changes.step ?_ (State.setReach_changes _ _ _) rfl
    exact Changes.refl _ _

theorem State.resumePacers_changes (s : State) :
    Changes [.reaches] s (s.resumePacers) := by
  unfold State.resumePacers
  refine Changes.foldl ?_ (fun _ _ => ?_)
  · exact Changes.refl _ _
  · refine Changes.step ?_ (State.setReach_changes _ _ _) rfl
    exact Changes.refl _ _

theorem State.selfRefresh_changes (s : State) (h : Nat) :
    Changes [.now, .regs, .mem, .ecc, .die, .cores, .mesh, .holds, .fabric, .host, .engine, .weights, .toll, .idle, .diag, .ibis, .outs] s (s.selfRefresh h) := by
  unfold State.selfRefresh
  dsimp only
  refine Changes.step ?_ (State.put_changes _ _ _ _) rfl
  refine Changes.foldl ?_ (fun _ _ => ?_)
  · exact Changes.refl _ _
  · refine Changes.foldl ?_ (fun _ _ => ?_)
    · exact Changes.refl _ _
    · refine Changes.step ?_ (State.holdComplete_changes _ _ _) rfl
      refine Changes.step ?_ (State.advanceTo_changes _ _) rfl
      exact Changes.refl _ _

theorem State.leaveRefresh_changes (s : State) (h : Nat) :
    Changes [.regs, .holds] s (s.leaveRefresh h) := by
  unfold State.leaveRefresh
  dsimp only
  refine Changes.foldl ?_ (fun _ _ => ?_)
  · refine Changes.step ?_ (State.chooseMode_changes _ _) rfl
    refine Changes.step ?_ (State.reschedule_changes _ _) rfl
    refine Changes.step ?_ (State.put_changes _ _ _ _) rfl
    refine Changes.step ?_ (State.put_changes _ _ _ _) rfl
    exact Changes.refl _ _
  · refine Changes.ite ?_ ?_
    · exact Changes.refl _ _
    · refine Changes.step ?_ (State.setPc_changes _ _ _) rfl
      refine Changes.step ?_ (State.addTo_changes _ _ _ _) rfl
      exact Changes.refl _ _

theorem State.enterIdle_changes (s : State) (x : Nat) :
    Changes [.now, .regs, .mem, .ecc, .reaches, .die, .cores, .mesh, .holds, .fabric, .host, .engine, .weights, .toll, .idle, .diag, .ibis, .outs] s (s.enterIdle x) := by
  unfold State.enterIdle
  dsimp only
  refine Changes.record ?_ (by intro p; cases p <;> first | exact .inl rfl | exact .inr ⟨rfl, rfl⟩ | exact .inr (by dsimp only [Part.same]))
  refine Changes.step ?_ (State.put_changes _ _ _ _) rfl
  refine Changes.step ?_ (State.addSat_changes _ _ _ _) rfl
  refine Changes.iteThen ?_ ?_
  · refine Changes.step ?_ (State.stopPacers_changes _) rfl
    exact Changes.refl _ _
  · refine Changes.step ?_ (State.selfRefresh_changes _ _) rfl
    refine Changes.step ?_ (State.selfRefresh_changes _ _) rfl
    exact Changes.refl _ _

theorem State.tryIdle_changes (s : State) (x : Nat) :
    Changes [.now, .regs, .mem, .ecc, .reaches, .die, .cores, .mesh, .holds, .fabric, .host, .engine, .weights, .toll, .idle, .diag, .ibis, .outs] s (s.tryIdle x) := by
  unfold State.tryIdle
  refine Changes.ite ?_ ?_
  · refine Changes.record ?_ (by intro p; cases p <;> first | exact .inl rfl | exact .inr ⟨rfl, rfl⟩ | exact .inr (by dsimp only [Part.same]))
    exact Changes.refl _ _
  · refine Changes.step ?_ (State.enterIdle_changes _ _) rfl
    exact Changes.refl _ _

theorem State.goOnIdle_changes (s : State) :
    Changes [.now, .regs, .mem, .ecc, .reaches, .die, .cores, .mesh, .holds, .fabric, .host, .engine, .weights, .toll, .idle, .diag, .ibis, .outs] s (s.goOnIdle) := by
  unfold State.goOnIdle
  dsimp only
  refine Changes.ite ?_ ?_
  · exact Changes.refl _ _
  · refine Changes.ite ?_ ?_
    · refine Changes.step ?_ (State.enterIdle_changes _ _) rfl
      exact Changes.refl _ _
    · refine Changes.record ?_ (by intro p; cases p <;> first | exact .inl rfl | exact .inr ⟨rfl, rfl⟩ | exact .inr (by dsimp only [Part.same]))
      exact Changes.refl _ _

theorem execWeirCodeFall_changes (k : Fin 6) (s : State) :
    OutChanges [.now, .regs, .mem, .ecc, .reaches, .die, .cores, .mesh, .holds, .fabric, .host, .engine, .weights, .power, .toll, .idle, .diag, .ibis, .outs] s (execWeirCodeFall k s) := by
  unfold execWeirCodeFall
  split
  · refine OutChanges.next ?_
    exact Changes.refl _ _
  · dsimp only
    refine OutChanges.ite ?_ ?_
    · refine OutChanges.next ?_
      refine Changes.step ?_ (State.advanceTo_changes _ _) rfl
      exact Changes.refl _ _
    · refine OutChanges.next ?_
      refine Changes.step ?_ (State.goOnIdle_changes _) rfl
      refine Changes.step ?_ (State.weirBelow_changes _ _) rfl
      refine Changes.step ?_ (State.setWeirCode_changes _ _ _) rfl
      refine Changes.step ?_ (State.setWeir_changes _ _ _) rfl
      refine Changes.step ?_ (State.advanceTo_changes _ _) rfl
      exact Changes.refl _ _

theorem State.wakeRetune_changes (s : State) (r : Nat) :
    Changes [.regs, .reaches, .die] s (s.wakeRetune r) := by
  unfold State.wakeRetune
  dsimp only
  refine Changes.ite ?_ ?_
  · exact Changes.refl _ _
  · refine Changes.step ?_ (State.capFollows_changes _ _ _ _) rfl
    refine Changes.step ?_ (State.setReach_changes _ _ _) rfl
    refine Changes.step ?_ (State.put_changes _ _ _ _) rfl
    refine Changes.step ?_ (State.holdOff_changes _ _) rfl
    refine Changes.step ?_ (State.put_changes _ _ _ _) rfl
    refine Changes.step ?_ (State.addTo_changes _ _ _ _) rfl
    refine Changes.step ?_ (State.put_changes _ _ _ _) rfl
    exact Changes.refl _ _

theorem execIdleWakeComplete_changes (s : State) :
    OutChanges [.now, .regs, .reaches, .die, .holds, .fabric, .idle] s (execIdleWakeComplete s) := by
  unfold execIdleWakeComplete
  refine OutChanges.ite ?_ ?_
  · refine OutChanges.next ?_
    exact Changes.refl _ _
  · dsimp only
    refine OutChanges.next ?_
    refine Changes.step ?_ (State.countHolds_changes _) rfl
    refine Changes.record ?_ (by intro p; cases p <;> first | exact .inl rfl | exact .inr ⟨rfl, rfl⟩ | exact .inr (by dsimp only [Part.same]))
    refine Changes.step ?_ (State.put_changes _ _ _ _) rfl
    refine Changes.step ?_ (State.resumePacers_changes _) rfl
    refine Changes.iteThen ?_ ?_
    · refine Changes.iteThen ?_ ?_
      · refine Changes.step ?_ (State.advanceTo_changes _ _) rfl
        exact Changes.refl _ _
      · refine Changes.step ?_ (State.leaveRefresh_changes _ _) rfl
        refine Changes.step ?_ (State.leaveRefresh_changes _ _) rfl
        exact Changes.refl _ _
    · refine Changes.foldl ?_ (fun _ _ => ?_)
      · exact Changes.refl _ _
      · refine Changes.step ?_ (State.wakeRetune_changes _ _) rfl
        exact Changes.refl _ _

theorem execWake_changes (s : State) :
    OutChanges [.regs, .idle] s (execWake s) := by
  unfold execWake
  refine OutChanges.next ?_
  refine Changes.step ?_ (State.wakeOn_changes _ _) rfl
  exact Changes.refl _ _

theorem State.writeBudget_changes (s : State) (v : Word) :
    Changes [.regs, .idle] s (s.writeBudget v) := by
  unfold State.writeBudget
  dsimp only
  refine Changes.iteThen ?_ ?_
  · refine Changes.step ?_ (State.plainWrite_changes _ _ _) rfl
    exact Changes.refl _ _
  · refine Changes.step ?_ (State.wakeOn_changes _ _) rfl
    exact Changes.refl _ _

theorem execIdleBudgetWrite_changes (v : Word) (s : State) :
    OutChanges [.regs, .idle] s (execIdleBudgetWrite v s) := by
  unfold execIdleBudgetWrite
  refine OutChanges.next ?_
  refine Changes.step ?_ (State.writeBudget_changes _ _) rfl
  exact Changes.refl _ _

theorem State.writeIdleCtrl_changes (s : State) (v : Word) :
    Changes [.regs, .mesh, .idle, .diag, .ibis, .outs] s (s.writeIdleCtrl v).1 := by
  unfold State.writeIdleCtrl
  refine Changes.iteFst ?_ ?_
  · refine Changes.mkFst ?_
    refine Changes.step ?_ (State.logErr_changes _ _) rfl
    exact Changes.refl _ _
  · refine Changes.mkFst ?_
    refine Changes.step ?_ (State.plainWrite_changes _ _ _) rfl
    exact Changes.refl _ _

theorem State.writeTbase_changes (s : State) (v : Word) :
    Changes [.regs, .mesh, .idle, .diag, .ibis, .outs] s (s.writeTbase v).1 := by
  unfold State.writeTbase
  refine Changes.iteFst ?_ ?_
  · refine Changes.mkFst ?_
    refine Changes.step ?_ (State.logErr_changes _ _) rfl
    exact Changes.refl _ _
  · refine Changes.mkFst ?_
    refine Changes.step ?_ (State.plainWrite_changes _ _ _) rfl
    exact Changes.refl _ _

/-! ### Ledger -/

theorem State.writeWord_changes (s : State) (a : Nat) (w : Word) :
    Changes [.regs, .mem, .ecc, .cores, .mesh, .idle, .diag, .ibis, .outs] s (s.writeWord a w) := by
  unfold State.writeWord
  refine Changes.step ?_ (State.writeAny_changes _ _ _) rfl
  exact Changes.refl _ _

theorem State.ledWrite_changes (s : State) (a : Nat) (w : Word) :
    Changes [.regs, .mem, .ecc, .cores, .mesh, .engine, .idle, .diag, .ibis, .outs] s (s.ledWrite a w) := by
  unfold State.ledWrite
  dsimp only
  refine Changes.step ?_ (State.writeWord_changes _ _ _) rfl
  refine Changes.record ?_ (by intro p; cases p <;> first | exact .inl rfl | exact .inr ⟨rfl, rfl⟩ | exact .inr (by dsimp only [Part.same]))
  exact Changes.refl _ _

theorem State.setLed_changes (s : State) (i : Nat) (f : LedField) (v : Nat) :
    Changes [.regs, .mem, .ecc, .cores, .mesh, .engine, .idle, .diag, .ibis, .outs] s (s.setLed i f v) := by
  unfold State.setLed
  dsimp only
  refine Changes.step ?_ (State.ledWrite_changes _ _ _) rfl
  exact Changes.refl _ _

theorem State.addLed_changes (s : State) (i : Nat) (f : LedField) (v : Nat) :
    Changes [.regs, .mem, .ecc, .cores, .mesh, .engine, .idle, .diag, .ibis, .outs] s (s.addLed i f v) := by
  unfold State.addLed
  refine Changes.step ?_ (State.setLed_changes _ _ _ _) rfl
  exact Changes.refl _ _

theorem State.useTables_changes (s : State) (l : List (Nat × Nat)) :
    Changes [.regs, .mem, .ecc, .cores, .mesh, .holds, .fabric, .host, .engine, .weights, .toll, .idle, .diag, .ibis, .outs] s (s.useTables l) := by
  unfold State.useTables
  dsimp only
  refine Changes.foldlFst ?_ (fun _ _ _ => ?_)
  · refine Changes.mkFst ?_
    refine Changes.foldl ?_ (fun _ _ => ?_)
    · refine Changes.ite ?_ ?_
      · refine Changes.step ?_ (State.wakeOn_changes _ _) rfl
        exact Changes.refl _ _
      · exact Changes.refl _ _
    · refine Changes.step ?_ (State.serveAhead_changes _ _ _) rfl
      exact Changes.refl _ _
  · refine Changes.step ?_ (State.readHold_changes _ _ _ _) rfl
    refine Changes.mkFst ?_
    exact Changes.refl _ _

theorem State.tableStore_changes (s : State) (a : Nat) (bs : List Byte) :
    Changes [.regs, .mem, .ecc, .cores, .mesh, .holds, .fabric, .host, .engine, .weights, .toll, .idle, .diag, .ibis, .outs] s (s.tableStore a bs) := by
  unfold State.tableStore
  refine Changes.step ?_ (State.writePieces_changes _ _) rfl
  refine Changes.step ?_ (State.serveAhead_changes _ _ _) rfl
  exact Changes.refl _ _

theorem State.modEngine_changes (s : State) (f : Engine → Engine) :
    Changes [.engine] s (s.modEngine f) := by
  unfold State.modEngine
  refine Changes.record ?_ (by intro p; cases p <;> first | exact .inl rfl | exact .inr ⟨rfl, rfl⟩ | exact .inr (by dsimp only [Part.same]))
  exact Changes.refl _ _

theorem State.setTen_changes (s : State) (t : Nat) (f : LedField) (v : Nat) :
    Changes [.regs, .mem, .ecc, .cores, .mesh, .idle, .diag, .ibis, .outs] s (s.setTen t f v) := by
  unfold State.setTen
  dsimp only
  refine Changes.step ?_ (State.writeWord_changes _ _ _) rfl
  exact Changes.refl _ _

theorem State.setBalance_changes (s : State) (t : Nat) (z : Int) :
    Changes [.regs, .mem, .ecc, .cores, .mesh, .idle, .diag, .ibis, .outs] s (s.setBalance t z) := by
  unfold State.setBalance
  refine Changes.step ?_ (State.setTen_changes _ _ _ _) rfl
  exact Changes.refl _ _

theorem State.refill_changes (s : State) (t time : Nat) :
    Changes [.regs, .mem, .ecc, .cores, .mesh, .idle, .diag, .ibis, .outs] s (s.refill t time) := by
  unfold State.refill
  dsimp only
  refine Changes.ite ?_ ?_
  · exact Changes.refl _ _
  · refine Changes.step ?_ (State.setTen_changes _ _ _ _) rfl
    refine Changes.ite ?_ ?_
    · exact Changes.refl _ _
    · refine Changes.step ?_ (State.setBalance_changes _ _ _) rfl
      exact Changes.refl _ _

theorem State.skipNext_changes (s : State) (i : Nat) :
    Changes [.engine] s (s.skipNext i) := by
  unfold State.skipNext
  refine Changes.step ?_ (State.modEngine_changes _ _) rfl
  exact Changes.refl _ _

theorem State.pause_changes (s : State) (i : Nat) (f : LedField) (kind : Nat) :
    Changes [.regs, .mem, .ecc, .cores, .mesh, .engine, .idle, .diag, .ibis, .outs] s (s.pause i f kind) := by
  unfold State.pause
  refine Changes.ite ?_ ?_
  · exact Changes.refl _ _
  · dsimp only
    refine Changes.step ?_ (State.modEngine_changes _ _) rfl
    refine Changes.step ?_ (State.setLed_changes _ _ _ _) rfl
    exact Changes.refl _ _

theorem State.debit_changes (s : State) (t cost handle : Nat) :
    Changes [.regs, .mem, .ecc, .cores, .mesh, .engine, .idle, .diag, .ibis, .outs] s (s.debit t cost handle) := by
  unfold State.debit
  dsimp only
  refine Changes.iteElse ?_ ?_
  · refine Changes.step ?_ (State.setBalance_changes _ _ _) rfl
    exact Changes.refl _ _
  · refine Changes.foldl ?_ (fun _ _ => ?_)
    · refine Changes.step ?_ (State.logErr_changes _ _) rfl
      refine Changes.step ?_ (State.modEngine_changes _ _) rfl
      exact Changes.refl _ _
    · refine Changes.step ?_ (State.pause_changes _ _ _ _) rfl
      exact Changes.refl _ _

theorem State.popPage_changes (s : State) :
    Changes [.regs, .mem, .ecc, .cores, .mesh, .holds, .fabric, .host, .engine, .weights, .toll, .idle, .diag, .ibis, .outs] s (s.popPage).1 := by
  unfold State.popPage
  dsimp only
  refine Changes.step ?_ (State.put_changes _ _ _ _) rfl
  refine Changes.step ?_ (State.useTables_changes _ _) rfl
  exact Changes.refl _ _

theorem State.pushPage_changes (s : State) (tok : Nat) :
    Changes [.regs, .mem, .ecc, .cores, .mesh, .holds, .fabric, .host, .engine, .weights, .toll, .idle, .diag, .ibis, .outs] s (s.pushPage tok) := by
  unfold State.pushPage
  dsimp only
  refine Changes.step ?_ (State.put_changes _ _ _ _) rfl
  refine Changes.step ?_ (State.tableStore_changes _ _ _) rfl
  exact Changes.refl _ _

theorem State.allocRounds_changes (s : State) (i need : Nat) :
    Changes [.regs, .mem, .ecc, .cores, .mesh, .holds, .fabric, .host, .engine, .weights, .toll, .idle, .diag, .ibis, .outs] s (s.allocRounds i need).1 := by
  unfold State.allocRounds
  extract_lets have_ want m chips one s1
  refine Changes.iteFst (Changes.refl _ _) ?_
  have h : ∀ l : List Nat, Changes [.regs, .mem, .ecc, .cores, .mesh, .holds, .fabric, .host, .engine, .weights, .toll, .idle, .diag, .ibis, .outs] s (l.foldl (fun acc k => one acc (have_ + k)) (s1, [])).1 := fun l =>
    Changes.foldlFst ((State.useTables_changes _ _).widen rfl) fun u b x => by
      have e := State.popPage_changes u
      rcases hp : u.popPage with ⟨t, tok⟩
      rw [hp] at e
      simp only [one, hp]
      exact ((e.widen rfl).step (State.put_changes t _ _ _) rfl).step (State.setLed_changes _ _ _ _) rfl
  have k := h (List.range (want - have_))
  revert k
  generalize (List.range (want - have_)).foldl (fun acc k => one acc (have_ + k)) (s1, []) = p
  exact fun k => k

theorem State.freeReq_changes (s : State) (i : Nat) :
    Changes [.regs, .mem, .ecc, .cores, .mesh, .holds, .fabric, .host, .engine, .weights, .toll, .idle, .diag, .ibis, .outs] s (s.freeReq i) := by
  unfold State.freeReq
  dsimp only
  refine Changes.step ?_ (State.modEngine_changes _ _) rfl
  refine Changes.step ?_ (State.put_changes _ _ _ _) rfl
  refine Changes.step ?_ (State.setLed_changes _ _ _ _) rfl
  refine Changes.step ?_ (State.setLed_changes _ _ _ _) rfl
  refine Changes.step ?_ (State.setLed_changes _ _ _ _) rfl
  refine Changes.step ?_ (State.setLed_changes _ _ _ _) rfl
  refine Changes.step ?_ (State.put_changes _ _ _ _) rfl
  refine Changes.record ?_ (by intro p; cases p <;> first | exact .inl rfl | exact .inr ⟨rfl, rfl⟩ | exact .inr (by dsimp only [Part.same]))
  refine Changes.foldl ?_ (fun _ _ => ?_)
  · refine Changes.step ?_ (State.useTables_changes _ _) rfl
    refine Changes.step ?_ (State.put_changes _ _ _ _) rfl
    exact Changes.refl _ _
  · refine Changes.step ?_ (State.pushPage_changes _ _) rfl
    exact Changes.refl _ _

theorem State.audit_changes (s : State) (step kind value : Nat) :
    Changes [.regs, .mem, .ecc, .cores, .mesh, .holds, .fabric, .host, .engine, .weights, .toll, .idle, .diag, .ibis, .outs] s (s.audit step kind value) := by
  unfold State.audit
  dsimp only
  refine Changes.step ?_ (State.put_changes _ _ _ _) rfl
  refine Changes.ite ?_ ?_
  · exact Changes.refl _ _
  · refine Changes.step ?_ (State.tableStore_changes _ _ _) rfl
    exact Changes.refl _ _

theorem State.countPinned_changes (s : State) :
    Changes [.regs] s (s.countPinned) := by
  unfold State.countPinned
  dsimp only
  refine Changes.iteThen ?_ ?_
  · refine Changes.step ?_ (State.put_changes _ _ _ _) rfl
    exact Changes.refl _ _
  · refine Changes.step ?_ (State.put_changes _ _ _ _) rfl
    exact Changes.refl _ _

theorem State.countPaused_changes (s : State) :
    Changes [.regs] s (s.countPaused) := by
  unfold State.countPaused
  refine Changes.step ?_ (State.put_changes _ _ _ _) rfl
  exact Changes.refl _ _

theorem State.endQuiet_changes (s : State) (i state step : Nat) :
    Changes [.regs, .mem, .ecc, .cores, .mesh, .engine, .idle, .diag, .ibis, .outs] s (s.endQuiet i state step) := by
  unfold State.endQuiet
  dsimp only
  refine Changes.step ?_ (State.countPaused_changes _) rfl
  refine Changes.step ?_ (State.modEngine_changes _ _) rfl
  refine Changes.step ?_ (State.setLed_changes _ _ _ _) rfl
  exact Changes.refl _ _

theorem State.unloadRequests_changes (s : State) :
    Changes [.regs, .mem, .ecc, .cores, .mesh, .fabric, .engine, .idle, .diag, .ibis, .outs] s (s.unloadRequests) := by
  unfold State.unloadRequests
  refine Changes.ite ?_ ?_
  · exact Changes.refl _ _
  · dsimp only
    refine Changes.step ?_ (State.modEngine_changes _ _) rfl
    refine Changes.record ?_ (by intro p; cases p <;> first | exact .inl rfl | exact .inr ⟨rfl, rfl⟩ | exact .inr (by dsimp only [Part.same]))
    refine Changes.foldl ?_ (fun _ _ => ?_)
    · exact Changes.refl _ _
    · refine Changes.step ?_ (State.endQuiet_changes _ _ _ _) rfl
      exact Changes.refl _ _

theorem State.enableEngine_changes (s : State) :
    Changes [.regs, .engine] s (s.enableEngine) := by
  unfold State.enableEngine
  dsimp only
  refine Changes.step ?_ (State.modEngine_changes _ _) rfl
  refine Changes.step ?_ (State.setReg_changes _ _ _) rfl
  refine Changes.step ?_ (State.put_changes _ _ _ _) rfl
  refine Changes.step ?_ (State.put_changes _ _ _ _) rfl
  refine Changes.step ?_ (State.put_changes _ _ _ _) rfl
  exact Changes.refl _ _

theorem State.writeLedg_changes (s : State) (a : Nat) (v : Word) :
    Changes [.regs, .mesh, .engine, .idle, .diag, .ibis, .outs] s (s.writeLedg a v).1 := by
  unfold State.writeLedg
  dsimp only
  refine Changes.iteFst ?_ ?_
  · refine Changes.iteFst ?_ ?_
    · refine Changes.mkFst ?_
      refine Changes.step ?_ (State.logErr_changes _ _) rfl
      exact Changes.refl _ _
    · refine Changes.iteFst ?_ ?_
      · refine Changes.mkFst ?_
        refine Changes.step ?_ (State.logErr_changes _ _) rfl
        exact Changes.refl _ _
      · refine Changes.mkFst ?_
        refine Changes.iteThen ?_ ?_
        · refine Changes.step ?_ (State.plainWrite_changes _ _ _) rfl
          exact Changes.refl _ _
        · refine Changes.step ?_ (State.enableEngine_changes _) rfl
          exact Changes.refl _ _
  · refine Changes.iteFst ?_ ?_
    · refine Changes.mkFst ?_
      refine Changes.step ?_ (State.logErr_changes _ _) rfl
      exact Changes.refl _ _
    · refine Changes.mkFst ?_
      refine Changes.step ?_ (State.plainWrite_changes _ _ _) rfl
      exact Changes.refl _ _

/-! ### Weights -/

theorem State.setWState_changes (s : State) (x : Nat) :
    Changes [.regs] s (s.setWState x) := by
  unfold State.setWState
  refine Changes.step ?_ (State.put_changes _ _ _ _) rfl
  exact Changes.refl _ _

theorem State.refuse6C02_changes (s : State) :
    Changes [.regs, .mesh, .idle, .diag, .ibis, .outs] s (s.refuse6C02).1 := by
  unfold State.refuse6C02
  refine Changes.mkFst ?_
  refine Changes.step ?_ (State.logErr_changes _ _) rfl
  exact Changes.refl _ _

theorem State.notBegun_changes (s : State) :
    Changes [.weights] s (s.notBegun) := by
  unfold State.notBegun
  refine Changes.record ?_ (by intro p; cases p <;> first | exact .inl rfl | exact .inr ⟨rfl, rfl⟩ | exact .inr (by dsimp only [Part.same]))
  exact Changes.refl _ _

theorem State.startCheck_changes (s : State) :
    Changes [.regs, .mesh, .idle, .diag, .ibis, .outs] s (s.startCheck).1 := by
  unfold State.startCheck
  refine Changes.iteFst ?_ ?_
  · refine Changes.step ?_ (State.refuse6C02_changes _) rfl
    exact Changes.refl _ _
  · refine Changes.mkFst ?_
    refine Changes.step ?_ (State.wakeOn_changes _ _) rfl
    refine Changes.step ?_ (State.setWState_changes _ _) rfl
    refine Changes.step ?_ (State.put_changes _ _ _ _) rfl
    exact Changes.refl _ _

theorem execCheck_changes (s : State) :
    OutChanges [.regs, .mesh, .idle, .diag, .ibis, .outs] s (execCheck s) := by
  unfold execCheck
  refine OutChanges.next ?_
  refine Changes.step ?_ (State.startCheck_changes _) rfl
  exact Changes.refl _ _

theorem State.readStaging_changes (s : State) :
    Changes [.regs, .mem, .ecc, .cores, .mesh, .holds, .fabric, .host, .engine, .weights, .toll, .idle, .diag, .ibis, .outs] s (s.readStaging) := by
  unfold State.readStaging
  refine Changes.step ?_ (State.useTables_changes _ _) rfl
  exact Changes.refl _ _

theorem execCheckComplete_changes (s : State) :
    OutChanges [.regs, .mem, .ecc, .cores, .mesh, .holds, .fabric, .host, .engine, .weights, .toll, .idle, .diag, .ibis, .outs] s (execCheckComplete s) := by
  unfold execCheckComplete
  refine OutChanges.ite ?_ ?_
  · refine OutChanges.next ?_
    exact Changes.refl _ _
  · dsimp only
    refine OutChanges.next ?_
    refine Changes.ite ?_ ?_
    · refine Changes.step ?_ (State.hwSet_changes _ _ _ _) rfl
      refine Changes.step ?_ (State.setWState_changes _ _) rfl
      refine Changes.step ?_ (State.setReg_changes _ _ _) rfl
      refine Changes.step ?_ (State.readStaging_changes _) rfl
      exact Changes.refl _ _
    · refine Changes.step ?_ (State.put_changes _ _ _ _) rfl
      refine Changes.step ?_ (State.setWState_changes _ _) rfl
      refine Changes.step ?_ (State.setReg_changes _ _ _) rfl
      refine Changes.step ?_ (State.readStaging_changes _) rfl
      exact Changes.refl _ _

theorem State.setCopies_changes (s : State) (c epoch : Nat) :
    Changes [.regs] s (s.setCopies c epoch) := by
  unfold State.setCopies
  refine Changes.foldl ?_ (fun _ _ => ?_)
  · exact Changes.refl _ _
  · refine Changes.ite ?_ ?_
    · refine Changes.step ?_ (State.put_changes _ _ _ _) rfl
      exact Changes.refl _ _
    · exact Changes.refl _ _

theorem State.startLoadFill_changes (s : State) :
    Changes [.regs, .mesh, .weights, .idle, .diag, .ibis, .outs] s (s.startLoadFill).1 := by
  unfold State.startLoadFill
  refine Changes.iteFst ?_ ?_
  · refine Changes.step ?_ (State.refuse6C02_changes _) rfl
    exact Changes.refl _ _
  · dsimp only
    refine Changes.step ?_ (State.startFill_changes _ _) rfl
    refine Changes.record ?_ (by intro p; cases p <;> first | exact .inl rfl | exact .inr ⟨rfl, rfl⟩ | exact .inr (by dsimp only [Part.same]))
    refine Changes.step ?_ (State.wakeOn_changes _ _) rfl
    refine Changes.step ?_ (State.setWState_changes _ _) rfl
    exact Changes.refl _ _

theorem execLoadFill_changes (s : State) :
    OutChanges [.regs, .mesh, .weights, .idle, .diag, .ibis, .outs] s (execLoadFill s) := by
  unfold execLoadFill
  refine OutChanges.next ?_
  refine Changes.step ?_ (State.startLoadFill_changes _) rfl
  exact Changes.refl _ _

theorem State.loadFilled_changes (s : State) :
    Changes [.regs, .weights] s (s.loadFilled) := by
  unfold State.loadFilled
  dsimp only
  refine Changes.record ?_ (by intro p; cases p <;> first | exact .inl rfl | exact .inr ⟨rfl, rfl⟩ | exact .inr (by dsimp only [Part.same]))
  refine Changes.step ?_ (State.setWState_changes _ _) rfl
  refine Changes.step ?_ (State.addSat_changes _ _ _ _) rfl
  refine Changes.foldl ?_ (fun _ _ => ?_)
  · refine Changes.step ?_ (State.setReg_changes _ _ _) rfl
    exact Changes.refl _ _
  · refine Changes.step ?_ (State.setReg_changes _ _ _) rfl
    exact Changes.refl _ _

theorem execLoadFillComplete_changes (s : State) :
    OutChanges [.regs, .cores, .mesh, .holds, .fabric, .weights, .idle, .diag, .ibis, .outs] s (execLoadFillComplete s) := by
  unfold execLoadFillComplete
  refine OutChanges.ite ?_ ?_
  · dsimp only
    refine OutChanges.next ?_
    refine Changes.iteThen ?_ ?_
    · refine Changes.step ?_ (State.fillWork_changes _) rfl
      exact Changes.refl _ _
    · refine Changes.step ?_ (State.loadFilled_changes _) rfl
      exact Changes.refl _ _
  · refine OutChanges.next ?_
    exact Changes.refl _ _

theorem State.startPrime_changes (s : State) :
    Changes [.regs, .mesh, .weights, .idle, .diag, .ibis, .outs] s (s.startPrime).1 := by
  unfold State.startPrime
  dsimp only
  refine Changes.iteFst ?_ ?_
  · refine Changes.step ?_ (State.refuse6C02_changes _) rfl
    refine Changes.step ?_ (State.countPinned_changes _) rfl
    exact Changes.refl _ _
  · refine Changes.mkFst ?_
    refine Changes.step ?_ (State.startFill_changes _ _) rfl
    refine Changes.record ?_ (by intro p; cases p <;> first | exact .inl rfl | exact .inr ⟨rfl, rfl⟩ | exact .inr (by dsimp only [Part.same]))
    refine Changes.step ?_ (State.wakeOn_changes _ _) rfl
    refine Changes.step ?_ (State.setWState_changes _ _) rfl
    refine Changes.step ?_ (State.countPinned_changes _) rfl
    exact Changes.refl _ _

theorem execPrime_changes (s : State) :
    OutChanges [.regs, .mesh, .weights, .idle, .diag, .ibis, .outs] s (execPrime s) := by
  unfold execPrime
  refine OutChanges.next ?_
  refine Changes.step ?_ (State.startPrime_changes _) rfl
  exact Changes.refl _ _

theorem execPrimeComplete_changes (s : State) :
    OutChanges [.regs, .cores, .mesh, .holds, .fabric, .weights, .idle, .diag, .ibis, .outs] s (execPrimeComplete s) := by
  unfold execPrimeComplete
  refine OutChanges.ite ?_ ?_
  · refine OutChanges.next ?_
    exact Changes.refl _ _
  · dsimp only
    refine OutChanges.next ?_
    refine Changes.iteThen ?_ ?_
    · refine Changes.step ?_ (State.fillWork_changes _) rfl
      exact Changes.refl _ _
    · refine Changes.step ?_ (State.setWState_changes _ _) rfl
      refine Changes.step ?_ (State.setCopies_changes _ _ _) rfl
      exact Changes.refl _ _

theorem execStagedFill_changes (s : State) :
    OutChanges [.regs, .mesh, .weights, .idle] s (execStagedFill s) := by
  unfold execStagedFill
  split
  · refine OutChanges.next ?_
    exact Changes.refl _ _
  · refine OutChanges.ite ?_ ?_
    · refine OutChanges.next ?_
      refine Changes.step ?_ (State.startFill_changes _ _) rfl
      refine Changes.step ?_ (State.wakeOn_changes _ _) rfl
      refine Changes.step ?_ (State.setWState_changes _ _) rfl
      refine Changes.record ?_ (by intro p; cases p <;> first | exact .inl rfl | exact .inr ⟨rfl, rfl⟩ | exact .inr (by dsimp only [Part.same]))
      exact Changes.refl _ _
    · refine OutChanges.next ?_
      exact Changes.refl _ _

theorem State.disarmed_changes (s : State) :
    Changes [.regs] s (s.disarmed) := by
  unfold State.disarmed
  refine Changes.ite ?_ ?_
  · refine Changes.step ?_ (State.put_changes _ _ _ _) rfl
    exact Changes.refl _ _
  · refine Changes.step ?_ (State.hwPut_changes _ _ _ _) rfl
    exact Changes.refl _ _

theorem State.stagedFilled_changes (s : State) :
    Changes [.regs, .weights] s (s.stagedFilled) := by
  unfold State.stagedFilled
  dsimp only
  refine Changes.step ?_ (State.notBegun_changes _) rfl
  refine Changes.step ?_ (State.setWState_changes _ _) rfl
  refine Changes.step ?_ (State.disarmed_changes _) rfl
  refine Changes.step ?_ (State.setCopies_changes _ _ _) rfl
  refine Changes.step ?_ (State.setCopies_changes _ _ _) rfl
  refine Changes.step ?_ (State.put_changes _ _ _ _) rfl
  refine Changes.step ?_ (State.addSat_changes _ _ _ _) rfl
  refine Changes.step ?_ (State.put_changes _ _ _ _) rfl
  exact Changes.refl _ _

theorem State.writeWeightReg_changes (s : State) (a : Nat) (v : Word) :
    Changes [.regs, .mesh, .weights, .idle, .diag, .ibis, .outs] s (s.writeWeightReg a v).1 := by
  unfold State.writeWeightReg
  dsimp only
  refine Changes.iteFst ?_ ?_
  · refine Changes.mkFst ?_
    refine Changes.step ?_ (State.logErr_changes _ _) rfl
    exact Changes.refl _ _
  · refine Changes.mkFst ?_
    refine Changes.ite ?_ ?_
    · refine Changes.step ?_ (State.notBegun_changes _) rfl
      refine Changes.step ?_ (State.plainWrite_changes _ _ _) rfl
      exact Changes.refl _ _
    · refine Changes.iteThen ?_ ?_
      · refine Changes.step ?_ (State.plainWrite_changes _ _ _) rfl
        exact Changes.refl _ _
      · refine Changes.step ?_ (State.setCopies_changes _ _ _) rfl
        exact Changes.refl _ _

theorem State.disarmSwap_changes (s : State) :
    Changes [.regs] s (s.disarmSwap) := by
  unfold State.disarmSwap
  refine Changes.ite ?_ ?_
  · exact Changes.refl _ _
  · refine Changes.step ?_ (State.hwSet_changes _ _ _ _) rfl
    refine Changes.step ?_ (State.put_changes _ _ _ _) rfl
    exact Changes.refl _ _

theorem State.writeArm_changes (s : State) (v : Word) :
    Changes [.regs, .mesh, .idle, .diag, .ibis, .outs] s (s.writeArm v).1 := by
  unfold State.writeArm
  refine Changes.iteFst ?_ ?_
  · refine Changes.iteFst ?_ ?_
    · refine Changes.mkFst ?_
      refine Changes.step ?_ (State.plainWrite_changes _ _ _) rfl
      exact Changes.refl _ _
    · refine Changes.mkFst ?_
      refine Changes.step ?_ (State.put_changes _ _ _ _) rfl
      refine Changes.step ?_ (State.disarmSwap_changes _) rfl
      exact Changes.refl _ _
  · refine Changes.iteFst ?_ ?_
    · refine Changes.step ?_ (State.refuse6C02_changes _) rfl
      exact Changes.refl _ _
    · refine Changes.mkFst ?_
      refine Changes.step ?_ (State.plainWrite_changes _ _ _) rfl
      exact Changes.refl _ _

theorem State.writeWswpCtrl_changes (s : State) (v : Word) :
    Changes [.regs, .mesh, .weights, .idle, .diag, .ibis, .outs] s (s.writeWswpCtrl v).1 := by
  unfold State.writeWswpCtrl
  dsimp only
  refine Changes.iteFst ?_ ?_
  · refine Changes.mkFst ?_
    refine Changes.step ?_ (State.startLoadFill_changes _) rfl
    refine Changes.iteFst ?_ ?_
    · refine Changes.mkFst ?_
      refine Changes.step ?_ (State.startPrime_changes _) rfl
      refine Changes.iteFst ?_ ?_
      · refine Changes.mkFst ?_
        refine Changes.step ?_ (State.startCheck_changes _) rfl
        refine Changes.step ?_ (State.plainWrite_changes _ _ _) rfl
        exact Changes.refl _ _
      · refine Changes.mkFst ?_
        refine Changes.step ?_ (State.plainWrite_changes _ _ _) rfl
        exact Changes.refl _ _
    · refine Changes.iteFst ?_ ?_
      · refine Changes.mkFst ?_
        refine Changes.step ?_ (State.startCheck_changes _) rfl
        refine Changes.step ?_ (State.plainWrite_changes _ _ _) rfl
        exact Changes.refl _ _
      · refine Changes.mkFst ?_
        refine Changes.step ?_ (State.plainWrite_changes _ _ _) rfl
        exact Changes.refl _ _
  · refine Changes.iteFst ?_ ?_
    · refine Changes.mkFst ?_
      refine Changes.step ?_ (State.startPrime_changes _) rfl
      refine Changes.iteFst ?_ ?_
      · refine Changes.mkFst ?_
        refine Changes.step ?_ (State.startCheck_changes _) rfl
        refine Changes.step ?_ (State.plainWrite_changes _ _ _) rfl
        exact Changes.refl _ _
      · refine Changes.mkFst ?_
        refine Changes.step ?_ (State.plainWrite_changes _ _ _) rfl
        exact Changes.refl _ _
    · refine Changes.iteFst ?_ ?_
      · refine Changes.mkFst ?_
        refine Changes.step ?_ (State.startCheck_changes _) rfl
        refine Changes.step ?_ (State.plainWrite_changes _ _ _) rfl
        exact Changes.refl _ _
      · refine Changes.mkFst ?_
        refine Changes.step ?_ (State.plainWrite_changes _ _ _) rfl
        exact Changes.refl _ _

/-! ### Capture -/

theorem State.lateTrigger_changes (s : State) (src : Nat) :
    Changes [.regs, .idle, .diag] s (s.lateTrigger src) := by
  unfold State.lateTrigger
  refine Changes.step ?_ (State.queueTrigger_changes _ _ _ _) rfl
  exact Changes.refl _ _

theorem execCaptInEdge_changes (s : State) :
    OutChanges [.regs, .idle, .diag] s (execCaptInEdge s) := by
  unfold execCaptInEdge
  refine OutChanges.next ?_
  refine Changes.step ?_ (State.lateTrigger_changes _ _) rfl
  exact Changes.refl _ _

theorem execFabricTimeMatch_changes (s : State) :
    OutChanges [.now, .regs, .die, .fabric, .idle, .diag] s (execFabricTimeMatch s) := by
  unfold execFabricTimeMatch
  dsimp only
  refine OutChanges.ite ?_ ?_
  · refine OutChanges.next ?_
    exact Changes.refl _ _
  · refine OutChanges.next ?_
    refine Changes.step ?_ (State.lateTrigger_changes _ _) rfl
    refine Changes.step ?_ (State.advanceTo_changes _ _) rfl
    exact Changes.refl _ _

theorem execCaptureBeat_changes (s : State) :
    OutChanges [.regs, .die, .cores, .diag, .outs] s (execCaptureBeat s) := by
  unfold execCaptureBeat
  split
  · refine OutChanges.next ?_
    exact Changes.refl _ _
  · refine OutChanges.ite ?_ ?_
    · refine OutChanges.next ?_
      exact Changes.refl _ _
    · dsimp only
      refine OutChanges.next ?_
      refine Changes.iteThen ?_ ?_
      · refine Changes.step ?_ (State.hwPut_changes _ _ _ _) rfl
        refine Changes.step ?_ (State.addSat_changes _ _ _ _) rfl
        refine Changes.step ?_ (State.put_changes _ _ _ _) rfl
        refine Changes.step ?_ (State.put_changes _ _ _ _) rfl
        refine Changes.step ?_ (State.put_changes _ _ _ _) rfl
        refine Changes.step ?_ (State.setReg_changes _ _ _) rfl
        refine Changes.step ?_ (State.setReg_changes _ _ _) rfl
        refine Changes.record ?_ (by intro p; cases p <;> first | exact .inl rfl | exact .inr ⟨rfl, rfl⟩ | exact .inr (by dsimp only [Part.same]))
        exact Changes.refl _ _
      · refine Changes.foldl ?_ (fun _ _ => ?_)
        · exact Changes.refl _ _
        · refine Changes.ite ?_ ?_
          · refine Changes.step ?_ (State.enterHalted_changes _ _) rfl
            exact Changes.refl _ _
          · exact Changes.refl _ _

theorem State.refuse3E01_changes (s : State) :
    Changes [.regs, .mesh, .idle, .diag, .ibis, .outs] s (s.refuse3E01).1 := by
  unfold State.refuse3E01
  refine Changes.mkFst ?_
  refine Changes.step ?_ (State.logErr_changes _ _) rfl
  exact Changes.refl _ _

theorem State.writeSnapArm_changes (s : State) (v : Word) :
    Changes [.regs, .mesh, .idle, .diag, .ibis, .outs] s (s.writeSnapArm v).1 := by
  unfold State.writeSnapArm
  refine Changes.iteFst ?_ ?_
  · refine Changes.step ?_ (State.refuse3E01_changes _) rfl
    exact Changes.refl _ _
  · refine Changes.mkFst ?_
    refine Changes.step ?_ (State.plainWrite_changes _ _ _) rfl
    exact Changes.refl _ _

theorem execSnapArmWrite_changes (v : Word) (s : State) :
    OutChanges [.regs, .mesh, .idle, .diag, .ibis, .outs] s (execSnapArmWrite v s) := by
  unfold execSnapArmWrite
  refine OutChanges.next ?_
  refine Changes.step ?_ (State.writeSnapArm_changes _ _) rfl
  exact Changes.refl _ _

theorem State.writeSnap_changes (s : State) (a : Nat) (v : Word) :
    Changes [.regs, .mesh, .idle, .diag, .ibis, .outs] s (s.writeSnap a v).1 := by
  unfold State.writeSnap
  refine Changes.iteFst ?_ ?_
  · refine Changes.step ?_ (State.refuse3E01_changes _) rfl
    exact Changes.refl _ _
  · refine Changes.mkFst ?_
    refine Changes.step ?_ (State.plainWrite_changes _ _ _) rfl
    exact Changes.refl _ _

theorem State.writeErrsFwd_changes (s : State) (chip w : Nat) (v : Word) :
    Changes [.regs, .diag] s (s.writeErrsFwd chip w v) := by
  unfold State.writeErrsFwd
  dsimp only
  refine Changes.ite ?_ ?_
  · refine Changes.record ?_ (by intro p; cases p <;> first | exact .inl rfl | exact .inr ⟨rfl, rfl⟩ | exact .inr (by dsimp only [Part.same]))
    exact Changes.refl _ _
  · refine Changes.ite ?_ ?_
    · refine Changes.step ?_ (State.addSat_changes _ _ _ _) rfl
      refine Changes.record ?_ (by intro p; cases p <;> first | exact .inl rfl | exact .inr ⟨rfl, rfl⟩ | exact .inr (by dsimp only [Part.same]))
      exact Changes.refl _ _
    · refine Changes.step ?_ (State.holdEvent_changes _ _ _) rfl
      refine Changes.record ?_ (by intro p; cases p <;> first | exact .inl rfl | exact .inr ⟨rfl, rfl⟩ | exact .inr (by dsimp only [Part.same]))
      exact Changes.refl _ _

theorem execErrsFwdWrite_changes (chip : BitVec 16) (w : Fin 4) (v : Word) (s : State) :
    OutChanges [.regs, .diag] s (execErrsFwdWrite chip w v s) := by
  unfold execErrsFwdWrite
  refine OutChanges.next ?_
  refine Changes.step ?_ (State.writeErrsFwd_changes _ _ _ _) rfl
  exact Changes.refl _ _

theorem State.trimEvents_changes (s : State) :
    Changes [.diag] s (s.trimEvents) := by
  unfold State.trimEvents
  dsimp only
  refine Changes.record ?_ (by intro p; cases p <;> first | exact .inl rfl | exact .inr ⟨rfl, rfl⟩ | exact .inr (by dsimp only [Part.same]))
  exact Changes.refl _ _

theorem execEventSend_changes (sess : BitVec 32) (s : State) :
    OutChanges [.now, .regs, .mem, .ecc, .die, .cores, .mesh, .holds, .fabric, .host, .idle, .diag, .ibis, .outs] s (execEventSend sess s) := by
  unfold execEventSend
  split
  · refine OutChanges.next ?_
    exact Changes.refl _ _
  · dsimp only
    refine OutChanges.ite ?_ ?_
    · refine OutChanges.next ?_
      exact Changes.refl _ _
    · refine OutChanges.next ?_
      refine Changes.step ?_ (State.trimEvents_changes _) rfl
      refine Changes.step ?_ (State.sendMsg_changes _ _ _ _ _ _ _ _ _) rfl
      refine Changes.step ?_ (State.setSess_changes _ _) rfl
      split
      · refine Changes.step ?_ (State.advanceTo_changes _ _) rfl
        exact Changes.refl _ _
      · exact Changes.refl _ _

theorem State.testEnds_changes (s : State) (result : Nat) :
    Changes [.regs, .diag] s (s.testEnds result) := by
  unfold State.testEnds
  dsimp only
  refine Changes.record ?_ (by intro p; cases p <;> first | exact .inl rfl | exact .inr ⟨rfl, rfl⟩ | exact .inr (by dsimp only [Part.same]))
  refine Changes.step ?_ (State.put_changes _ _ _ _) rfl
  refine Changes.step ?_ (State.put_changes _ _ _ _) rfl
  exact Changes.refl _ _

theorem State.refuse3E02_changes (s : State) :
    Changes [.regs, .mesh, .idle, .diag, .ibis, .outs] s (s.refuse3E02).1 := by
  unfold State.refuse3E02
  refine Changes.mkFst ?_
  refine Changes.step ?_ (State.logErr_changes _ _) rfl
  exact Changes.refl _ _

theorem State.testRequest_changes (s : State) (v : Word) :
    Changes [.regs, .mesh, .idle, .diag, .ibis, .outs] s (s.testRequest v).1 := by
  unfold State.testRequest
  dsimp only
  refine Changes.iteFst ?_ ?_
  · refine Changes.step ?_ (State.refuse3E02_changes _) rfl
    exact Changes.refl _ _
  · refine Changes.iteFst ?_ ?_
    · refine Changes.step ?_ (State.refuse3E02_changes _) rfl
      refine Changes.step ?_ (State.testEnds_changes _ _) rfl
      refine Changes.record ?_ (by intro p; cases p <;> first | exact .inl rfl | exact .inr ⟨rfl, rfl⟩ | exact .inr (by dsimp only [Part.same]))
      refine Changes.step ?_ (State.setReg_changes _ _ _) rfl
      refine Changes.step ?_ (State.plainWrite_changes _ _ _) rfl
      refine Changes.step ?_ (State.noteQuiet_changes _) rfl
      exact Changes.refl _ _
    · refine Changes.iteFst ?_ ?_
      · refine Changes.mkFst ?_
        refine Changes.step ?_ (State.logErr_changes _ _) rfl
        refine Changes.step ?_ (State.testEnds_changes _ _) rfl
        refine Changes.step ?_ (State.wakeOn_changes _ _) rfl
        refine Changes.step ?_ (State.put_changes _ _ _ _) rfl
        refine Changes.record ?_ (by intro p; cases p <;> first | exact .inl rfl | exact .inr ⟨rfl, rfl⟩ | exact .inr (by dsimp only [Part.same]))
        refine Changes.step ?_ (State.setReg_changes _ _ _) rfl
        refine Changes.step ?_ (State.plainWrite_changes _ _ _) rfl
        refine Changes.step ?_ (State.noteQuiet_changes _) rfl
        exact Changes.refl _ _
      · refine Changes.mkFst ?_
        refine Changes.step ?_ (State.wakeOn_changes _ _) rfl
        refine Changes.step ?_ (State.put_changes _ _ _ _) rfl
        refine Changes.record ?_ (by intro p; cases p <;> first | exact .inl rfl | exact .inr ⟨rfl, rfl⟩ | exact .inr (by dsimp only [Part.same]))
        refine Changes.step ?_ (State.setReg_changes _ _ _) rfl
        refine Changes.step ?_ (State.plainWrite_changes _ _ _) rfl
        refine Changes.step ?_ (State.noteQuiet_changes _) rfl
        exact Changes.refl _ _

theorem State.testCancelNow_changes (s : State) :
    Changes [.regs, .diag] s (s.testCancelNow) := by
  unfold State.testCancelNow
  refine Changes.ite ?_ ?_
  · exact Changes.refl _ _
  · refine Changes.ite ?_ ?_
    · refine Changes.record ?_ (by intro p; cases p <;> first | exact .inl rfl | exact .inr ⟨rfl, rfl⟩ | exact .inr (by dsimp only [Part.same]))
      exact Changes.refl _ _
    · refine Changes.step ?_ (State.testEnds_changes _ _) rfl
      exact Changes.refl _ _

theorem State.writeTestReq_changes (s : State) (v : Word) :
    Changes [.regs, .mesh, .idle, .diag, .ibis, .outs] s (s.writeTestReq v).1 := by
  unfold State.writeTestReq
  dsimp only
  refine Changes.iteFst ?_ ?_
  · refine Changes.step ?_ (State.testRequest_changes _ _) rfl
    refine Changes.ite ?_ ?_
    · refine Changes.step ?_ (State.testCancelNow_changes _) rfl
      exact Changes.refl _ _
    · exact Changes.refl _ _
  · refine Changes.mkFst ?_
    refine Changes.step ?_ (State.plainWrite_changes _ _ _) rfl
    refine Changes.ite ?_ ?_
    · refine Changes.step ?_ (State.testCancelNow_changes _) rfl
      exact Changes.refl _ _
    · exact Changes.refl _ _

theorem execTestGo_changes (v : Word) (s : State) :
    OutChanges [.regs, .mesh, .idle, .diag, .ibis, .outs] s (execTestGo v s) := by
  unfold execTestGo
  refine OutChanges.next ?_
  refine Changes.step ?_ (State.testRequest_changes _ _) rfl
  exact Changes.refl _ _

theorem execTestCancel_changes (s : State) :
    OutChanges [.regs, .diag] s (execTestCancel s) := by
  unfold execTestCancel
  refine OutChanges.next ?_
  refine Changes.step ?_ (State.testCancelNow_changes _) rfl
  exact Changes.refl _ _

theorem execTestUnitStart_changes (s : State) :
    OutChanges [.now, .regs, .die, .mesh, .fabric, .idle, .diag, .ibis, .outs] s (execTestUnitStart s) := by
  unfold execTestUnitStart
  refine OutChanges.ite ?_ ?_
  · refine OutChanges.next ?_
    exact Changes.refl _ _
  · dsimp only
    refine OutChanges.ite ?_ ?_
    · refine OutChanges.next ?_
      exact Changes.refl _ _
    · refine OutChanges.next ?_
      refine Changes.record ?_ (by intro p; cases p <;> first | exact .inl rfl | exact .inr ⟨rfl, rfl⟩ | exact .inr (by dsimp only [Part.same]))
      refine Changes.step ?_ (State.put_changes _ _ _ _) rfl
      refine Changes.iteElse ?_ ?_
      · refine Changes.iteElse ?_ ?_
        · refine Changes.step ?_ (State.noteQuiet_changes _) rfl
          exact Changes.refl _ _
        · refine Changes.step ?_ (State.advanceTo_changes _ _) rfl
          exact Changes.refl _ _
      · refine Changes.step ?_ (State.addSat_changes _ _ _ _) rfl
        exact Changes.refl _ _

theorem State.arrayTested_changes (s : State) (fails : List TestFail) (n : Nat) :
    Changes [.regs, .mesh, .idle, .diag, .ibis, .outs] s (s.arrayTested fails n) := by
  unfold State.arrayTested
  refine Changes.ite ?_ ?_
  · exact Changes.refl _ _
  · dsimp only
    split
    · refine Changes.step ?_ (State.addSat_changes _ _ _ _) rfl
      exact Changes.refl _ _
    · refine Changes.step ?_ (State.logCore_changes _ _ _ _ _ _) rfl
      refine Changes.step ?_ (State.put_changes _ _ _ _) rfl
      refine Changes.step ?_ (State.put_changes _ _ _ _) rfl
      refine Changes.step ?_ (State.put_changes _ _ _ _) rfl
      refine Changes.step ?_ (State.addSat_changes _ _ _ _) rfl
      exact Changes.refl _ _

theorem State.zeroSram_changes (s : State) : Changes [.mem, .ecc] s (s.zeroSram) := by
  refine ⟨fun p hp => by cases p <;> first | rfl | exact ⟨rfl, rfl⟩ | exact absurd hp (by decide), fun h => ?_, Nat.le_refl _⟩
  rw [State.wf_iff] at h ⊢
  exact ⟨h.1, memWf_filter h.2.1 _, smSorted_filter h.2.2 _⟩

theorem State.unitResult_changes (s : State) (fails : List TestFail) :
    Changes [.regs, .mem, .ecc, .cores, .mesh, .fabric, .toll, .idle, .diag, .ibis, .outs] s (s.unitResult fails) := by
  unfold State.unitResult
  dsimp only
  refine Changes.ite ?_ ?_
  · refine Changes.foldl ?_ (fun _ _ => ?_)
    · exact Changes.refl _ _
    · refine Changes.step ?_ (State.arrayTested_changes _ _ _) rfl
      exact Changes.refl _ _
  · refine Changes.ite ?_ ?_
    · refine Changes.foldl ?_ (fun _ _ => ?_)
      · refine Changes.step ?_ (State.setCopies_changes _ _ _) rfl
        refine Changes.step ?_ (State.setCopies_changes _ _ _) rfl
        refine Changes.step ?_ (State.zeroSram_changes _) rfl
        exact Changes.refl _ _
      · refine Changes.step ?_ (State.logErr_changes _ _) rfl
        exact Changes.refl _ _
    · refine Changes.ite ?_ ?_
      · exact Changes.refl _ _
      · refine Changes.iteThen ?_ ?_
        · refine Changes.step ?_ (State.logErr_changes _ _) rfl
          exact Changes.refl _ _
        · refine Changes.step ?_ (State.portDown_changes _ _ _) rfl
          exact Changes.refl _ _

theorem State.afterUnit_changes (s : State) :
    Changes [.regs, .diag] s (s.afterUnit) := by
  unfold State.afterUnit
  refine Changes.ite ?_ ?_
  · refine Changes.step ?_ (State.testEnds_changes _ _) rfl
    exact Changes.refl _ _
  · refine Changes.ite ?_ ?_
    · refine Changes.step ?_ (State.testEnds_changes _ _) rfl
      exact Changes.refl _ _
    · refine Changes.ite ?_ ?_
      · exact Changes.refl _ _
      · dsimp only
        refine Changes.record ?_ (by intro p; cases p <;> first | exact .inl rfl | exact .inr ⟨rfl, rfl⟩ | exact .inr (by dsimp only [Part.same]))
        refine Changes.step ?_ (State.put_changes _ _ _ _) rfl
        exact Changes.refl _ _

theorem execTestUnitEnd_changes (fails : List TestFail) (s : State) :
    OutChanges [.regs, .mem, .ecc, .cores, .mesh, .fabric, .toll, .idle, .diag, .ibis, .outs] s (execTestUnitEnd fails s) := by
  unfold execTestUnitEnd
  refine OutChanges.ite ?_ ?_
  · refine OutChanges.next ?_
    exact Changes.refl _ _
  · dsimp only
    refine OutChanges.next ?_
    refine Changes.step ?_ (State.afterUnit_changes _) rfl
    refine Changes.record ?_ (by intro p; cases p <;> first | exact .inl rfl | exact .inr ⟨rfl, rfl⟩ | exact .inr (by dsimp only [Part.same]))
    refine Changes.iteElse ?_ ?_
    · refine Changes.step ?_ (State.addSat_changes _ _ _ _) rfl
      refine Changes.step ?_ (State.unitResult_changes _ _) rfl
      exact Changes.refl _ _
    · refine Changes.step ?_ (State.put_changes _ _ _ _) rfl
      exact Changes.refl _ _

theorem execTestTimeout_changes (s : State) :
    OutChanges [.now, .regs, .die, .mesh, .fabric, .idle, .diag, .ibis, .outs] s (execTestTimeout s) := by
  unfold execTestTimeout
  refine OutChanges.ite ?_ ?_
  · refine OutChanges.next ?_
    exact Changes.refl _ _
  · dsimp only
    refine OutChanges.next ?_
    refine Changes.step ?_ (State.logErr_changes _ _) rfl
    refine Changes.step ?_ (State.testEnds_changes _ _) rfl
    refine Changes.step ?_ (State.advanceTo_changes _ _) rfl
    exact Changes.refl _ _

/-! ### Serving -/

theorem State.fillEntry_changes (s : State) (i slot sess time : Nat) (q : List Byte) :
    Changes [.regs, .mem, .ecc, .cores, .mesh, .engine, .idle, .diag, .ibis, .outs] s (s.fillEntry i slot sess time q) := by
  unfold State.fillEntry
  dsimp only
  refine Changes.step ?_ (State.ledWrite_changes _ _ _) rfl
  refine Changes.step ?_ (State.ledWrite_changes _ _ _) rfl
  refine Changes.step ?_ (State.ledWrite_changes _ _ _) rfl
  refine Changes.step ?_ (State.ledWrite_changes _ _ _) rfl
  refine Changes.step ?_ (State.ledWrite_changes _ _ _) rfl
  refine Changes.step ?_ (State.ledWrite_changes _ _ _) rfl
  refine Changes.step ?_ (State.ledWrite_changes _ _ _) rfl
  refine Changes.step ?_ (State.ledWrite_changes _ _ _) rfl
  refine Changes.step ?_ (State.ledWrite_changes _ _ _) rfl
  refine Changes.step ?_ (State.ledWrite_changes _ _ _) rfl
  refine Changes.step ?_ (State.ledWrite_changes _ _ _) rfl
  refine Changes.step ?_ (State.ledWrite_changes _ _ _) rfl
  exact Changes.refl _ _

theorem State.takeIn_changes (s : State) (sess time : Nat) (q : List Byte) :
    Changes [.regs, .mem, .ecc, .cores, .mesh, .engine, .idle, .diag, .ibis, .outs] s (s.takeIn sess time q).1 := by
  unfold State.takeIn
  dsimp only
  refine Changes.iteFst ?_ ?_
  · refine Changes.mkFst ?_
    refine Changes.iteThen ?_ ?_
    · refine Changes.step ?_ (State.addSat_changes _ _ _ _) rfl
      refine Changes.ite ?_ ?_
      · refine Changes.step ?_ (State.refill_changes _ _ _) rfl
        exact Changes.refl _ _
      · exact Changes.refl _ _
    · refine Changes.step ?_ (State.logErr_changes _ _) rfl
      exact Changes.refl _ _
  · refine Changes.mkFst ?_
    refine Changes.step ?_ (State.modEngine_changes _ _) rfl
    refine Changes.step ?_ (State.put_changes _ _ _ _) rfl
    refine Changes.step ?_ (State.put_changes _ _ _ _) rfl
    refine Changes.step ?_ (State.fillEntry_changes _ _ _ _ _ _) rfl
    refine Changes.step ?_ (State.wakeForHold_changes _) rfl
    refine Changes.ite ?_ ?_
    · refine Changes.step ?_ (State.refill_changes _ _ _) rfl
      exact Changes.refl _ _
    · exact Changes.refl _ _

theorem State.refuseReplay_changes (s : State) :
    Changes [.regs] s (s.refuseReplay).1 := by
  unfold State.refuseReplay
  refine Changes.mkFst ?_
  refine Changes.step ?_ (State.addSat_changes _ _ _ _) rfl
  exact Changes.refl _ _

theorem State.submitIn_changes (s : State) (sess seq : Nat) (q : List Byte) :
    Changes [.regs, .mem, .ecc, .cores, .mesh, .engine, .idle, .diag, .ibis, .outs] s (s.submitIn sess seq q).1 := by
  unfold State.submitIn
  refine Changes.iteFst ?_ ?_
  · refine Changes.iteFst ?_ ?_
    · refine Changes.mkFst ?_
      refine Changes.step ?_ (State.modEngine_changes _ _) rfl
      exact Changes.refl _ _
    · split
      refine Changes.mkFst ?_
      refine Changes.ofPair (by assumption) ?_
      refine Changes.step ?_ (State.refuseReplay_changes _) rfl
      exact Changes.refl _ _
  · split
    refine Changes.mkFst ?_
    refine Changes.ofPair (by assumption) ?_
    refine Changes.step ?_ (State.takeIn_changes _ _ _ _) rfl
    exact Changes.refl _ _

theorem State.cancelIn_changes (s : State) (i : Nat) :
    Changes [.regs, .mem, .ecc, .cores, .mesh, .engine, .idle, .diag, .ibis, .outs] s (s.cancelIn i) := by
  unfold State.cancelIn
  dsimp only
  refine Changes.ite ?_ ?_
  · refine Changes.step ?_ (State.modEngine_changes _ _) rfl
    refine Changes.step ?_ (State.endQuiet_changes _ _ _ _) rfl
    exact Changes.refl _ _
  · refine Changes.ite ?_ ?_
    · refine Changes.step ?_ (State.modEngine_changes _ _) rfl
      refine Changes.step ?_ (State.setLed_changes _ _ _ _) rfl
      exact Changes.refl _ _
    · exact Changes.refl _ _

theorem State.cancelOwned_changes (s : State) (sess : Nat) :
    Changes [.regs, .mem, .ecc, .cores, .mesh, .engine, .idle, .diag, .ibis, .outs] s (s.cancelOwned sess) := by
  unfold State.cancelOwned
  refine Changes.ite ?_ ?_
  · exact Changes.refl _ _
  · refine Changes.foldl ?_ (fun _ _ => ?_)
    · exact Changes.refl _ _
    · refine Changes.step ?_ (State.cancelIn_changes _ _) rfl
      exact Changes.refl _ _

theorem State.applyTenant_changes (s : State) (q : List Byte) :
    Changes [.regs, .mem, .ecc, .cores, .mesh, .idle, .diag, .ibis, .outs] s (s.applyTenant q) := by
  unfold State.applyTenant
  dsimp only
  refine Changes.ite ?_ ?_
  · refine Changes.step ?_ (State.setTen_changes _ _ _ _) rfl
    refine Changes.ite ?_ ?_
    · refine Changes.step ?_ (State.setBalance_changes _ _ _) rfl
      refine Changes.ite ?_ ?_
      · refine Changes.step ?_ (State.setTen_changes _ _ _ _) rfl
        refine Changes.step ?_ (State.setTen_changes _ _ _ _) rfl
        refine Changes.step ?_ (State.setTen_changes _ _ _ _) rfl
        refine Changes.step ?_ (State.setTen_changes _ _ _ _) rfl
        refine Changes.step ?_ (State.setTen_changes _ _ _ _) rfl
        exact Changes.refl _ _
      · exact Changes.refl _ _
    · refine Changes.iteThen ?_ ?_
      · refine Changes.ite ?_ ?_
        · refine Changes.step ?_ (State.setTen_changes _ _ _ _) rfl
          refine Changes.step ?_ (State.setTen_changes _ _ _ _) rfl
          refine Changes.step ?_ (State.setTen_changes _ _ _ _) rfl
          refine Changes.step ?_ (State.setTen_changes _ _ _ _) rfl
          refine Changes.step ?_ (State.setTen_changes _ _ _ _) rfl
          exact Changes.refl _ _
        · exact Changes.refl _ _
      · refine Changes.step ?_ (State.setBalance_changes _ _ _) rfl
        exact Changes.refl _ _
  · refine Changes.iteThen ?_ ?_
    · refine Changes.ite ?_ ?_
      · refine Changes.step ?_ (State.setBalance_changes _ _ _) rfl
        refine Changes.ite ?_ ?_
        · refine Changes.step ?_ (State.setTen_changes _ _ _ _) rfl
          refine Changes.step ?_ (State.setTen_changes _ _ _ _) rfl
          refine Changes.step ?_ (State.setTen_changes _ _ _ _) rfl
          refine Changes.step ?_ (State.setTen_changes _ _ _ _) rfl
          refine Changes.step ?_ (State.setTen_changes _ _ _ _) rfl
          exact Changes.refl _ _
        · exact Changes.refl _ _
      · refine Changes.iteThen ?_ ?_
        · refine Changes.ite ?_ ?_
          · refine Changes.step ?_ (State.setTen_changes _ _ _ _) rfl
            refine Changes.step ?_ (State.setTen_changes _ _ _ _) rfl
            refine Changes.step ?_ (State.setTen_changes _ _ _ _) rfl
            refine Changes.step ?_ (State.setTen_changes _ _ _ _) rfl
            refine Changes.step ?_ (State.setTen_changes _ _ _ _) rfl
            exact Changes.refl _ _
          · exact Changes.refl _ _
        · refine Changes.step ?_ (State.setBalance_changes _ _ _) rfl
          exact Changes.refl _ _
    · refine Changes.step ?_ (State.setTen_changes _ _ _ _) rfl
      exact Changes.refl _ _

theorem State.tenantIn_changes (s : State) (q : List Byte) :
    Changes [.engine] s (s.tenantIn q).1 := by
  unfold State.tenantIn
  refine Changes.iteFst ?_ ?_
  · refine Changes.mkFst ?_
    exact Changes.refl _ _
  · dsimp only
    refine Changes.step ?_ (State.modEngine_changes _ _) rfl
    exact Changes.refl _ _

theorem State.dueTenants_changes (s : State) (step time : Nat) :
    Changes [.regs, .mem, .ecc, .cores, .mesh, .holds, .fabric, .host, .engine, .weights, .toll, .idle, .diag, .ibis, .outs] s (s.dueTenants step time) := by
  unfold State.dueTenants
  dsimp only
  refine Changes.foldl ?_ (fun _ _ => ?_)
  · refine Changes.step ?_ (State.modEngine_changes _ _) rfl
    exact Changes.refl _ _
  · refine Changes.step ?_ (State.audit_changes _ _ _ _) rfl
    refine Changes.step ?_ (State.applyTenant_changes _ _) rfl
    refine Changes.step ?_ (State.refill_changes _ _ _) rfl
    exact Changes.refl _ _

theorem State.cancelNow_changes (s : State) (step i : Nat) :
    Changes [.regs, .mem, .ecc, .cores, .mesh, .engine, .idle, .diag, .ibis, .outs] s (s.cancelNow step i) := by
  unfold State.cancelNow
  dsimp only
  refine Changes.ite ?_ ?_
  · refine Changes.step ?_ (State.endQuiet_changes _ _ _ _) rfl
    exact Changes.refl _ _
  · exact Changes.refl _ _

theorem State.stampActed_changes (s : State) (step : Nat) :
    Changes [.regs, .mem, .ecc, .cores, .mesh, .holds, .fabric, .host, .engine, .weights, .toll, .idle, .diag, .ibis, .outs] s (s.stampActed step) := by
  unfold State.stampActed
  dsimp only
  refine Changes.foldl ?_ (fun _ _ => ?_)
  · refine Changes.step ?_ (State.modEngine_changes _ _) rfl
    exact Changes.refl _ _
  · refine Changes.step ?_ (State.audit_changes _ _ _ _) rfl
    exact Changes.refl _ _

theorem State.pausedRecs_changes (s : State) (step : Nat) :
    Changes [.engine] s (s.pausedRecs step) := by
  unfold State.pausedRecs
  dsimp only
  refine Changes.step ?_ (State.modEngine_changes _ _) rfl
  exact Changes.refl _ _

theorem State.resumeReq_changes (s : State) (i step : Nat) (f : LedField) :
    Changes [.regs, .mem, .ecc, .cores, .mesh, .holds, .fabric, .host, .engine, .weights, .toll, .idle, .diag, .ibis, .outs] s (s.resumeReq i step f) := by
  unfold State.resumeReq
  refine Changes.ite ?_ ?_
  · exact Changes.refl _ _
  · refine Changes.step ?_ (State.audit_changes _ _ _ _) rfl
    refine Changes.step ?_ (State.skipNext_changes _ _) rfl
    refine Changes.step ?_ (State.setLed_changes _ _ _ _) rfl
    exact Changes.refl _ _

theorem State.debtEvents_changes (s : State) (step time : Nat) :
    Changes [.regs, .mem, .ecc, .cores, .mesh, .holds, .fabric, .host, .engine, .weights, .toll, .idle, .diag, .ibis, .outs] s (s.debtEvents step time) := by
  unfold State.debtEvents
  refine Changes.foldl ?_ (fun _ _ => ?_)
  · exact Changes.refl _ _
  · dsimp only
    refine Changes.iteElse ?_ ?_
    · refine Changes.step ?_ (State.refill_changes _ _ _) rfl
      exact Changes.refl _ _
    · refine Changes.foldl ?_ (fun _ _ => ?_)
      · refine Changes.step ?_ (State.modEngine_changes _ _) rfl
        exact Changes.refl _ _
      · refine Changes.step ?_ (State.resumeReq_changes _ _ _ _) rfl
        exact Changes.refl _ _

theorem State.setRing_changes (s : State) (k : Nat) (r : Ring) :
    Changes [.host] s (s.setRing k r) := by
  unfold State.setRing
  refine Changes.record ?_ (by intro p; cases p <;> first | exact .inl rfl | exact .inr ⟨rfl, rfl⟩ | exact .inr (by dsimp only [Part.same]))
  exact Changes.refl _ _

theorem State.ringPost_changes (s : State) (k : Nat) (r : Ring) (entry : List Byte) (final : Bool) :
    Changes [.regs, .mem, .ecc, .cores, .mesh, .holds, .host, .idle, .diag, .ibis, .outs] s (s.ringPost k r entry final) := by
  unfold State.ringPost
  dsimp only
  refine Changes.step ?_ (State.qpSend_changes _ _ _ _ _ _ _ _ _ _ _) rfl
  refine Changes.step ?_ (State.setRing_changes _ _ _) rfl
  exact Changes.refl _ _

theorem State.ringFlush_changes (s : State) (k : Nat) :
    Changes [.regs, .mem, .ecc, .cores, .mesh, .holds, .host, .idle, .diag, .ibis, .outs] s (s.ringFlush k) := by
  unfold State.ringFlush
  split
  · exact Changes.refl _ _
  · refine Changes.ite ?_ ?_
    · exact Changes.refl _ _
    · dsimp only
      refine Changes.foldl ?_ (fun _ _ => ?_)
      · refine Changes.step ?_ (State.setRing_changes _ _ _) rfl
        exact Changes.refl _ _
      · split
        · refine Changes.step ?_ (State.ringPost_changes _ _ _ _ _) rfl
          exact Changes.refl _ _
        · exact Changes.refl _ _

theorem State.streamEvents_changes (s : State) (step : Nat) :
    Changes [.regs, .mem, .ecc, .cores, .mesh, .holds, .fabric, .host, .engine, .weights, .toll, .idle, .diag, .ibis, .outs] s (s.streamEvents step) := by
  unfold State.streamEvents
  dsimp only
  refine Changes.foldl ?_ (fun _ _ => ?_)
  · refine Changes.foldl ?_ (fun _ _ => ?_)
    · refine Changes.foldl ?_ (fun _ _ => ?_)
      · exact Changes.refl _ _
      · refine Changes.ite ?_ ?_
        · refine Changes.step ?_ (State.setSess_changes _ _) rfl
          exact Changes.refl _ _
        · exact Changes.refl _ _
    · refine Changes.step ?_ (State.ringFlush_changes _ _) rfl
      exact Changes.refl _ _
  · refine Changes.ite ?_ ?_
    · refine Changes.step ?_ (State.pause_changes _ _ _ _) rfl
      exact Changes.refl _ _
    · refine Changes.step ?_ (State.resumeReq_changes _ _ _ _) rfl
      exact Changes.refl _ _

theorem State.riskEvents_changes (s : State) (step time : Nat) :
    Changes [.regs, .mem, .ecc, .cores, .mesh, .holds, .fabric, .host, .engine, .weights, .toll, .idle, .diag, .ibis, .outs] s (s.riskEvents step time) := by
  unfold State.riskEvents
  dsimp only
  refine Changes.foldl ?_ (fun _ _ => ?_)
  · exact Changes.refl _ _
  · refine Changes.step ?_ (State.audit_changes _ _ _ _) rfl
    refine Changes.step ?_ (State.setLed_changes _ _ _ _) rfl
    exact Changes.refl _ _

theorem State.answerUnpin_changes (s : State) :
    Changes [.regs, .mem, .ecc, .cores, .mesh, .holds, .host, .engine, .idle, .diag, .ibis, .outs] s (s.answerUnpin) := by
  unfold State.answerUnpin
  refine Changes.step ?_ (State.modEngine_changes _ _) rfl
  refine Changes.foldl ?_ (fun _ _ => ?_)
  · exact Changes.refl _ _
  · refine Changes.step ?_ (State.sendMsg_changes _ _ _ _ _ _ _ _ _) rfl
    exact Changes.refl _ _

theorem State.recountPins_changes (s : State) :
    Changes [.regs, .mem, .ecc, .cores, .mesh, .holds, .host, .engine, .idle, .diag, .ibis, .outs] s (s.recountPins) := by
  unfold State.recountPins
  dsimp only
  refine Changes.iteElse ?_ ?_
  · refine Changes.step ?_ (State.countPinned_changes _) rfl
    exact Changes.refl _ _
  · refine Changes.step ?_ (State.answerUnpin_changes _) rfl
    exact Changes.refl _ _

theorem State.releasePins_changes (s : State) :
    Changes [.regs, .mem, .ecc, .cores, .mesh, .holds, .host, .engine, .idle, .diag, .ibis, .outs] s (s.releasePins) := by
  unfold State.releasePins
  refine Changes.ite ?_ ?_
  · exact Changes.refl _ _
  · dsimp only
    refine Changes.step ?_ (State.recountPins_changes _) rfl
    refine Changes.step ?_ (State.modEngine_changes _ _) rfl
    refine Changes.foldl ?_ (fun _ _ => ?_)
    · exact Changes.refl _ _
    · refine Changes.step ?_ (State.setLed_changes _ _ _ _) rfl
      exact Changes.refl _ _

theorem State.replayEvents_changes (s : State) (step : Nat) :
    Changes [.regs, .mem, .ecc, .cores, .mesh, .holds, .fabric, .host, .engine, .weights, .toll, .idle, .diag, .ibis, .outs] s (s.replayEvents step) := by
  unfold State.replayEvents
  dsimp only
  refine Changes.foldl ?_ (fun _ _ => ?_)
  · refine Changes.foldl ?_ (fun _ _ => ?_)
    · refine Changes.foldl ?_ (fun _ _ => ?_)
      · refine Changes.foldl ?_ (fun _ _ => ?_)
        · refine Changes.foldl ?_ (fun _ _ => ?_)
          · exact Changes.refl _ _
          · split
            · refine Changes.step ?_ (State.audit_changes _ _ _ _) rfl
              refine Changes.ite ?_ ?_
              · refine Changes.step ?_ (State.endQuiet_changes _ _ _ _) rfl
                exact Changes.refl _ _
              · refine Changes.step ?_ (State.setLed_changes _ _ _ _) rfl
                exact Changes.refl _ _
            · exact Changes.refl _ _
        · split
          · refine Changes.step ?_ (State.audit_changes _ _ _ _) rfl
            refine Changes.step ?_ (State.setLed_changes _ _ _ _) rfl
            exact Changes.refl _ _
          · exact Changes.refl _ _
      · split
        · refine Changes.step ?_ (State.audit_changes _ _ _ _) rfl
          refine Changes.step ?_ (State.setLed_changes _ _ _ _) rfl
          exact Changes.refl _ _
        · exact Changes.refl _ _
    · split
      · refine Changes.step ?_ (State.audit_changes _ _ _ _) rfl
        refine Changes.step ?_ (State.skipNext_changes _ _) rfl
        refine Changes.step ?_ (State.setLed_changes _ _ _ _) rfl
        exact Changes.refl _ _
      · exact Changes.refl _ _
  · split
    · refine Changes.step ?_ (State.audit_changes _ _ _ _) rfl
      refine Changes.step ?_ (State.setLed_changes _ _ _ _) rfl
      exact Changes.refl _ _
    · exact Changes.refl _ _

theorem State.replayAdmits_changes (s : State) (step time : Nat) :
    Changes [.regs, .mem, .ecc, .cores, .mesh, .holds, .host, .engine, .idle, .diag, .ibis, .outs] s (s.replayAdmits step time) := by
  unfold State.replayAdmits
  dsimp only
  refine Changes.foldl ?_ (fun _ _ => ?_)
  · refine Changes.step ?_ (State.modEngine_changes _ _) rfl
    exact Changes.refl _ _
  · refine Changes.step ?_ (State.sendMsg_changes _ _ _ _ _ _ _ _ _) rfl
    refine Changes.iteFst ?_ ?_
    · refine Changes.step ?_ (State.takeIn_changes _ _ _ _) rfl
      exact Changes.refl _ _
    · refine Changes.step ?_ (State.refuseReplay_changes _) rfl
      exact Changes.refl _ _

theorem State.applyEvents_changes (s : State) (step time : Nat) :
    Changes [.regs, .mem, .ecc, .cores, .mesh, .holds, .fabric, .host, .engine, .weights, .toll, .idle, .diag, .ibis, .outs] s (s.applyEvents step time) := by
  unfold State.applyEvents
  dsimp only
  refine Changes.step ?_ (State.countPaused_changes _) rfl
  refine Changes.step ?_ (State.pausedRecs_changes _ _) rfl
  refine Changes.step ?_ (State.stampActed_changes _ _) rfl
  refine Changes.step ?_ (State.releasePins_changes _) rfl
  refine Changes.ite ?_ ?_
  · refine Changes.step ?_ (State.debtEvents_changes _ _ _) rfl
    refine Changes.foldl ?_ (fun _ _ => ?_)
    · refine Changes.step ?_ (State.replayEvents_changes _ _) rfl
      refine Changes.step ?_ (State.replayAdmits_changes _ _ _) rfl
      refine Changes.foldl ?_ (fun _ _ => ?_)
      · refine Changes.step ?_ (State.dueTenants_changes _ _ _) rfl
        exact Changes.refl _ _
      · refine Changes.step ?_ (State.cancelNow_changes _ _ _) rfl
        exact Changes.refl _ _
    · refine Changes.step ?_ (State.cancelNow_changes _ _ _) rfl
      exact Changes.refl _ _
  · refine Changes.step ?_ (State.riskEvents_changes _ _ _) rfl
    refine Changes.step ?_ (State.streamEvents_changes _ _) rfl
    refine Changes.step ?_ (State.debtEvents_changes _ _ _) rfl
    refine Changes.foldl ?_ (fun _ _ => ?_)
    · refine Changes.step ?_ (State.dueTenants_changes _ _ _) rfl
      exact Changes.refl _ _
    · refine Changes.step ?_ (State.cancelNow_changes _ _ _) rfl
      exact Changes.refl _ _

theorem State.placeChunk_changes (s : State) (i time : Nat) :
    Changes [.regs, .mem, .ecc, .cores, .mesh, .engine, .idle, .diag, .ibis, .outs] s (s.placeChunk i time).1 := by
  unfold State.placeChunk
  dsimp only
  refine Changes.step ?_ (State.debit_changes _ _ _ _) rfl
  refine Changes.step ?_ (State.refill_changes _ _ _) rfl
  refine Changes.step ?_ (State.setLed_changes _ _ _ _) rfl
  exact Changes.refl _ _

theorem State.runOn_changes (s : State) (i epoch : Nat) (fresh : Bool) :
    Changes [.regs, .mem, .ecc, .cores, .mesh, .engine, .idle, .diag, .ibis, .outs] s (s.runOn i epoch fresh) := by
  unfold State.runOn
  refine Changes.ite ?_ ?_
  · exact Changes.refl _ _
  · refine Changes.ite ?_ ?_
    · refine Changes.step ?_ (State.setLed_changes _ _ _ _) rfl
      exact Changes.refl _ _
    · refine Changes.ite ?_ ?_
      · exact Changes.refl _ _
      · refine Changes.step ?_ (State.setLed_changes _ _ _ _) rfl
        refine Changes.step ?_ (State.setLed_changes _ _ _ _) rfl
        exact Changes.refl _ _

theorem State.placeReq_changes (s : State) (i cap epoch time : Nat) :
    Changes [.regs, .mem, .ecc, .cores, .mesh, .engine, .idle, .diag, .ibis, .outs] s (s.placeReq i cap epoch time).1 := by
  unfold State.placeReq
  dsimp only
  refine Changes.iteFst ?_ ?_
  · refine Changes.mkFst ?_
    exact Changes.refl _ _
  · refine Changes.foldlFst ?_ (fun _ _ _ => ?_)
    · refine Changes.mkFst ?_
      refine Changes.step ?_ (State.runOn_changes _ _ _ _) rfl
      refine Changes.ite ?_ ?_
      · refine Changes.step ?_ (State.setLed_changes _ _ _ _) rfl
        exact Changes.refl _ _
      · exact Changes.refl _ _
    · refine Changes.mkFst ?_
      refine Changes.step ?_ (State.placeChunk_changes _ _ _) rfl
      refine Changes.mkFst ?_
      exact Changes.refl _ _

theorem State.placeAll_changes (s : State) (cap epoch time : Nat) (l : List Nat) : Changes [.regs, .mem, .ecc, .cores, .mesh, .engine, .idle, .diag, .ibis, .outs] s (s.placeAll cap epoch time l).1 := by
  induction l generalizing s cap with
  | nil => exact Changes.refl _ _
  | cons x l ih =>
    unfold State.placeAll
    refine Changes.iteFst ?_ ?_
    · refine Changes.mkFst ?_
      exact Changes.refl _ _
    · split
      split
      refine Changes.mkFst ?_
      refine Changes.ofPair (by assumption) ?_
      refine Changes.trans ?_ (ih _ _)
      refine Changes.ofPair (by assumption) ?_
      refine Changes.step ?_ (State.placeReq_changes _ _ _ _ _) rfl
      exact Changes.refl _ _

theorem State.addPages_changes (s : State) (l : List Access) :
    Changes [.host] s (s.addPages l) := by
  unfold State.addPages
  refine Changes.ite ?_ ?_
  · exact Changes.refl _ _
  · dsimp only
    refine Changes.record ?_ (by intro p; cases p <;> first | exact .inl rfl | exact .inr ⟨rfl, rfl⟩ | exact .inr (by dsimp only [Part.same]))
    exact Changes.refl _ _

theorem State.stepRounds_changes (s : State) (dec : List (Nat × Nat)) (chunks : List Chunk) :
    Changes [.regs, .mem, .ecc, .cores, .mesh, .holds, .fabric, .host, .engine, .weights, .toll, .idle, .diag, .ibis, .outs] s (s.stepRounds dec chunks).1 := by
  unfold State.stepRounds
  extract_lets rt go acc
  have hg : ∀ (u : State) (b : List Access) (i n : Nat), Changes [.regs, .mem, .ecc, .cores, .mesh, .holds, .fabric, .host, .engine, .weights, .toll, .idle, .diag, .ibis, .outs] u (go (u, b) i n).1 := fun u b i n =>
    (State.allocRounds_changes u i _).widen rfl
  refine Changes.foldlFst ?_ (fun u b c => hg u b _ _)
  exact Changes.foldlFst (Changes.refl _ _) (fun u b d => hg u b _ _)

theorem State.toDecode_changes (s : State) :
    Changes [.regs, .mem, .ecc, .cores, .mesh, .engine, .idle, .diag, .ibis, .outs] s (s.toDecode) := by
  unfold State.toDecode
  refine Changes.foldl ?_ (fun _ _ => ?_)
  · exact Changes.refl _ _
  · refine Changes.step ?_ (State.setLed_changes _ _ _ _) rfl
    refine Changes.step ?_ (State.setLed_changes _ _ _ _) rfl
    exact Changes.refl _ _

theorem State.chooseSwitch_changes (s : State) (step : Nat) :
    Changes [.regs, .engine] s (s.chooseSwitch step) := by
  unfold State.chooseSwitch
  dsimp only
  refine Changes.ite ?_ ?_
  · refine Changes.step ?_ (State.modEngine_changes _ _) rfl
    refine Changes.step ?_ (State.hwPut_changes _ _ _ _) rfl
    exact Changes.refl _ _
  · exact Changes.refl _ _

theorem State.composeFill_changes (s : State) (step time row cap epoch : Nat) (dec : List Nat) (run : Nat → Nat)
    (chunks : List Chunk) : Changes [.regs, .mem, .ecc, .cores, .mesh, .holds, .fabric, .host, .engine, .weights, .toll, .idle, .diag, .ibis, .outs] s (s.composeFill step time row cap epoch dec run chunks) := by
  unfold State.composeFill
  extract_lets t r u shape slots empty head v rec_ hs w src x
  have ht : Changes [.regs, .mem, .ecc, .cores, .mesh, .holds, .fabric, .host, .engine, .weights, .toll, .idle, .diag, .ibis, .outs] s t := Changes.foldl (Changes.refl _ _) fun u i => (State.runOn_changes _ _ _ _).widen rfl
  have hu : Changes [.regs, .mem, .ecc, .cores, .mesh, .holds, .fabric, .host, .engine, .weights, .toll, .idle, .diag, .ibis, .outs] s u := ht.step (State.stepRounds_changes _ _ _) rfl
  have hv : Changes [.regs, .mem, .ecc, .cores, .mesh, .holds, .fabric, .host, .engine, .weights, .toll, .idle, .diag, .ibis, .outs] s v := hu.step (State.writeAny_changes _ _ _) rfl
  have hw : Changes [.regs, .mem, .ecc, .cores, .mesh, .holds, .fabric, .host, .engine, .weights, .toll, .idle, .diag, .ibis, .outs] s w := hv.step (State.addPages_changes _ _) rfl
  have hx : Changes [.regs, .mem, .ecc, .cores, .mesh, .holds, .fabric, .host, .engine, .weights, .toll, .idle, .diag, .ibis, .outs] s x :=
    Changes.record hw (by intro p; cases p <;> first | exact .inl rfl | exact .inr (by dsimp only [Part.same]))
  exact (hx.step (State.modEngine_changes _ _) rfl).step (State.recountPins_changes _) rfl

theorem State.composeRow_changes (s : State) (step time row cap : Nat) (dec : List Nat) (run : Nat → Nat) :
    Changes [.regs, .mem, .ecc, .cores, .mesh, .holds, .fabric, .host, .engine, .weights, .toll, .idle, .diag, .ibis, .outs] s (s.composeRow step time row cap dec run) := by
  unfold State.composeRow
  dsimp only
  refine Changes.ite ?_ ?_
  · refine Changes.step ?_ (State.recountPins_changes _) rfl
    exact Changes.refl _ _
  · refine Changes.step ?_ (State.composeFill_changes _ _ _ _ _ _ _ _ _) rfl
    refine Changes.step ?_ (State.placeAll_changes _ _ _ _ _) rfl
    refine Changes.ite ?_ ?_
    · refine Changes.step ?_ (State.chooseSwitch_changes _ _) rfl
      exact Changes.refl _ _
    · exact Changes.refl _ _

theorem State.composeAt_changes (s : State) (step time : Nat) :
    Changes [.regs, .mem, .ecc, .cores, .mesh, .holds, .fabric, .host, .engine, .weights, .toll, .idle, .diag, .ibis, .outs] s (s.composeAt step time) := by
  unfold State.composeAt
  dsimp only
  split
  · refine Changes.step ?_ (State.recountPins_changes _) rfl
    refine Changes.step ?_ (State.toDecode_changes _) rfl
    refine Changes.step ?_ (State.applyEvents_changes _ _ _) rfl
    refine Changes.step ?_ (State.audit_changes _ _ _ _) rfl
    exact Changes.refl _ _
  · refine Changes.step ?_ (State.composeRow_changes _ _ _ _ _ _ _) rfl
    refine Changes.step ?_ (State.toDecode_changes _) rfl
    refine Changes.step ?_ (State.applyEvents_changes _ _ _) rfl
    refine Changes.step ?_ (State.audit_changes _ _ _ _) rfl
    exact Changes.refl _ _

theorem State.compose_changes (s : State) :
    Changes [.regs, .mem, .ecc, .cores, .mesh, .holds, .fabric, .host, .engine, .weights, .toll, .idle, .diag, .ibis, .outs] s (s.compose) := by
  unfold State.compose
  dsimp only
  refine Changes.ite ?_ ?_
  · exact Changes.refl _ _
  · refine Changes.step ?_ (State.composeAt_changes _ _ _) rfl
    refine Changes.step ?_ (State.useTables_changes _ _) rfl
    exact Changes.refl _ _

theorem State.joinOpen_changes (s : State) (i : Nat) :
    Changes [.regs, .mem, .ecc, .cores, .mesh, .holds, .fabric, .host, .engine, .weights, .toll, .idle, .diag, .ibis, .outs] s (s.joinOpen i) := by
  unfold State.joinOpen
  split
  · exact Changes.refl _ _
  · refine Changes.ite ?_ ?_
    · exact Changes.refl _ _
    · dsimp only
      refine Changes.ite ?_ ?_
      · exact Changes.refl _ _
      · refine Changes.step ?_ (State.modEngine_changes _ _) rfl
        refine Changes.step ?_ (State.put_changes _ _ _ _) rfl
        refine Changes.step ?_ (State.addPages_changes _ _) rfl
        refine Changes.record ?_ (by intro p; cases p <;> first | exact .inl rfl | exact .inr ⟨rfl, rfl⟩ | exact .inr (by dsimp only [Part.same]))
        refine Changes.step ?_ (State.writeAny_changes _ _ _) rfl
        refine Changes.step ?_ (State.writeAny_changes _ _ _) rfl
        refine Changes.step ?_ (State.writeAny_changes _ _ _) rfl
        refine Changes.step ?_ (State.stepRounds_changes _ _ _) rfl
        refine Changes.step ?_ (State.placeReq_changes _ _ _ _ _) rfl
        exact Changes.refl _ _

theorem State.promptIn_changes (s : State) (i : Nat) (q : List Byte) :
    Changes [.regs, .mem, .ecc, .cores, .mesh, .holds, .fabric, .host, .engine, .weights, .toll, .idle, .diag, .ibis, .outs] s (s.promptIn i q).1 := by
  unfold State.promptIn
  dsimp only
  refine Changes.iteFst ?_ ?_
  · refine Changes.mkFst ?_
    exact Changes.refl _ _
  · refine Changes.mkFst ?_
    refine Changes.step ?_ (State.joinOpen_changes _ _) rfl
    refine Changes.step ?_ (State.setLed_changes _ _ _ _) rfl
    refine Changes.step ?_ (State.tableStore_changes _ _ _) rfl
    refine Changes.step ?_ (State.wakeForHold_changes _) rfl
    exact Changes.refl _ _

theorem State.measureReq_changes (s : State) (i rs : Nat) :
    Changes [.regs, .mem, .ecc, .cores, .mesh, .engine, .idle, .diag, .ibis, .outs] s (s.measureReq i rs) := by
  unfold State.measureReq
  dsimp only
  refine Changes.step ?_ (State.setLed_changes _ _ _ _) rfl
  refine Changes.iteElse ?_ ?_
  · refine Changes.ite ?_ ?_
    · exact Changes.refl _ _
    · refine Changes.step ?_ (State.modEngine_changes _ _) rfl
      exact Changes.refl _ _
  · refine Changes.ite ?_ ?_
    · refine Changes.iteThen ?_ ?_
      · refine Changes.step ?_ (State.setLed_changes _ _ _ _) rfl
        exact Changes.refl _ _
      · refine Changes.step ?_ (State.logErr_changes _ _) rfl
        refine Changes.step ?_ (State.addSat_changes _ _ _ _) rfl
        refine Changes.step ?_ (State.setLed_changes _ _ _ _) rfl
        exact Changes.refl _ _
    · refine Changes.iteElse ?_ ?_
      · refine Changes.step ?_ (State.setLed_changes _ _ _ _) rfl
        exact Changes.refl _ _
      · refine Changes.iteElse ?_ ?_
        · refine Changes.step ?_ (State.addSat_changes _ _ _ _) rfl
          exact Changes.refl _ _
        · refine Changes.step ?_ (State.logErr_changes _ _) rfl
          refine Changes.step ?_ (State.setLed_changes _ _ _ _) rfl
          exact Changes.refl _ _

theorem State.failReq_changes (s : State) (i code : Nat) :
    Changes [.regs, .mem, .ecc, .cores, .mesh, .engine, .idle, .diag, .ibis, .outs] s (s.failReq i code).1 := by
  unfold State.failReq
  dsimp only
  refine Changes.iteElse ?_ ?_
  · refine Changes.step ?_ (State.setLed_changes _ _ _ _) rfl
    exact Changes.refl _ _
  · refine Changes.step ?_ (State.logErr_changes _ _) rfl
    exact Changes.refl _ _

theorem State.debitResult_changes (s : State) (step t cost handle : Nat) :
    Changes [.regs, .mem, .ecc, .cores, .mesh, .engine, .idle, .diag, .ibis, .outs] s (s.debitResult step t cost handle) := by
  unfold State.debitResult
  dsimp only
  refine Changes.step ?_ (State.modEngine_changes _ _) rfl
  refine Changes.step ?_ (State.debit_changes _ _ _ _) rfl
  exact Changes.refl _ _

theorem State.processReq_changes (s : State) (step rs handle : Nat) (res : List Byte) :
    Changes [.regs, .mem, .ecc, .cores, .mesh, .engine, .idle, .diag, .ibis, .outs] s (s.processReq step rs handle res).1 := by
  unfold State.processReq
  split
  · refine Changes.mkFst ?_
    exact Changes.refl _ _
  · dsimp only
    refine Changes.iteFst ?_ ?_
    · refine Changes.mkFst ?_
      exact Changes.refl _ _
    · refine Changes.iteFst ?_ ?_
      · refine Changes.step ?_ (State.failReq_changes _ _ _) rfl
        refine Changes.step ?_ (State.modEngine_changes _ _) rfl
        exact Changes.refl _ _
      · refine Changes.iteFst ?_ ?_
        · refine Changes.step ?_ (State.failReq_changes _ _ _) rfl
          refine Changes.step ?_ (State.modEngine_changes _ _) rfl
          exact Changes.refl _ _
        · refine Changes.iteFst ?_ ?_
          · refine Changes.mkFst ?_
            refine Changes.step ?_ (State.setLed_changes _ _ _ _) rfl
            refine Changes.step ?_ (State.modEngine_changes _ _) rfl
            exact Changes.refl _ _
          · refine Changes.mkFst ?_
            refine Changes.iteThen ?_ ?_
            · split
              · refine Changes.step ?_ (State.modEngine_changes _ _) rfl
                refine Changes.step ?_ (State.setLed_changes _ _ _ _) rfl
                refine Changes.step ?_ (State.debitResult_changes _ _ _ _ _) rfl
                refine Changes.step ?_ (State.setLed_changes _ _ _ _) rfl
                refine Changes.iteElse ?_ ?_
                · refine Changes.step ?_ (State.modEngine_changes _ _) rfl
                  exact Changes.refl _ _
                · refine Changes.step ?_ (State.measureReq_changes _ _ _) rfl
                  exact Changes.refl _ _
              · refine Changes.step ?_ (State.setLed_changes _ _ _ _) rfl
                refine Changes.step ?_ (State.debitResult_changes _ _ _ _ _) rfl
                refine Changes.step ?_ (State.setLed_changes _ _ _ _) rfl
                refine Changes.iteElse ?_ ?_
                · refine Changes.step ?_ (State.modEngine_changes _ _) rfl
                  exact Changes.refl _ _
                · refine Changes.step ?_ (State.measureReq_changes _ _ _) rfl
                  exact Changes.refl _ _
            · refine Changes.step ?_ (State.setLed_changes _ _ _ _) rfl
              refine Changes.step ?_ (State.setLed_changes _ _ _ _) rfl
              exact Changes.refl _ _

theorem State.freeEnded_changes (s : State) :
    Changes [.regs, .mem, .ecc, .cores, .mesh, .holds, .fabric, .host, .engine, .weights, .toll, .idle, .diag, .ibis, .outs] s (s.freeEnded) := by
  unfold State.freeEnded
  refine Changes.foldl ?_ (fun _ _ => ?_)
  · exact Changes.refl _ _
  · refine Changes.step ?_ (State.freeReq_changes _ _) rfl
    exact Changes.refl _ _

theorem State.takeExtra_changes (s : State) (step : Nat) :
    Changes [.engine] s (s.takeExtra step).1 := by
  unfold State.takeExtra
  dsimp only
  refine Changes.step ?_ (State.modEngine_changes _ _) rfl
  exact Changes.refl _ _

theorem State.dropRecs_changes (s : State) (recs : List TokRec) :
    Changes [.regs, .host, .engine] s (s.dropRecs recs) := by
  unfold State.dropRecs
  dsimp only
  refine Changes.step ?_ (State.modEngine_changes _ _) rfl
  refine Changes.step ?_ (State.addSat_changes _ _ _ _) rfl
  exact Changes.refl _ _

theorem State.sendFrames_changes (s : State) (step epoch : Nat) (x : Session) (recs : List TokRec) :
    Changes [.regs, .mem, .ecc, .cores, .mesh, .holds, .host, .engine, .idle, .diag, .ibis, .outs] s (s.sendFrames step epoch x recs) := by
  unfold State.sendFrames
  refine Changes.ite ?_ ?_
  · refine Changes.step ?_ (State.dropRecs_changes _ _) rfl
    exact Changes.refl _ _
  · dsimp only
    split
    · refine Changes.foldl ?_ (fun _ _ => ?_)
      · exact Changes.refl _ _
      · refine Changes.step ?_ (State.sendMsg_changes _ _ _ _ _ _ _ _ _) rfl
        exact Changes.refl _ _
    · refine Changes.iteThen ?_ ?_
      · refine Changes.foldl ?_ (fun _ _ => ?_)
        · exact Changes.refl _ _
        · refine Changes.step ?_ (State.sendMsg_changes _ _ _ _ _ _ _ _ _) rfl
          exact Changes.refl _ _
      · refine Changes.step ?_ (State.logErr_changes _ _) rfl
        refine Changes.step ?_ (State.setSess_changes _ _) rfl
        exact Changes.refl _ _

theorem State.ringRec_changes (s : State) (step : Nat) (r : TokRec) :
    Changes [.regs, .mem, .ecc, .cores, .mesh, .holds, .host, .engine, .idle, .diag, .ibis, .outs] s (s.ringRec step r) := by
  unfold State.ringRec
  dsimp only
  split
  · exact Changes.refl _ _
  · refine Changes.ite ?_ ?_
    · refine Changes.step ?_ (State.ringPost_changes _ _ _ _ _) rfl
      exact Changes.refl _ _
    · refine Changes.ite ?_ ?_
      · refine Changes.step ?_ (State.dropRecs_changes _ _) rfl
        exact Changes.refl _ _
      · refine Changes.iteElse ?_ ?_
        · refine Changes.step ?_ (State.setRing_changes _ _ _) rfl
          exact Changes.refl _ _
        · refine Changes.step ?_ (State.logErr_changes _ _) rfl
          exact Changes.refl _ _

theorem State.ringAsk_changes (s : State) (step k : Nat) :
    Changes [.regs, .mem, .ecc, .cores, .mesh, .holds, .host, .idle, .diag, .ibis, .outs] s (s.ringAsk step k) := by
  unfold State.ringAsk
  split
  · exact Changes.refl _ _
  · dsimp only
    refine Changes.ite ?_ ?_
    · refine Changes.step ?_ (State.qpSend_changes _ _ _ _ _ _ _ _ _ _ _) rfl
      refine Changes.step ?_ (State.setRing_changes _ _ _) rfl
      exact Changes.refl _ _
    · refine Changes.ite ?_ ?_
      · exact Changes.refl _ _
      · refine Changes.step ?_ (State.setRing_changes _ _ _) rfl
        exact Changes.refl _ _

theorem State.streamStep_changes (s : State) (step epoch : Nat) (recs : List TokRec) :
    Changes [.regs, .mem, .ecc, .cores, .mesh, .holds, .host, .engine, .idle, .diag, .ibis, .outs] s (s.streamStep step epoch recs) := by
  unfold State.streamStep
  dsimp only
  refine Changes.foldl ?_ (fun _ _ => ?_)
  · refine Changes.foldl ?_ (fun _ _ => ?_)
    · refine Changes.foldl ?_ (fun _ _ => ?_)
      · exact Changes.refl _ _
      · refine Changes.ite ?_ ?_
        · exact Changes.refl _ _
        · refine Changes.step ?_ (State.sendFrames_changes _ _ _ _ _) rfl
          exact Changes.refl _ _
    · refine Changes.step ?_ (State.ringRec_changes _ _ _) rfl
      exact Changes.refl _ _
  · refine Changes.step ?_ (State.ringAsk_changes _ _ _) rfl
    exact Changes.refl _ _

theorem State.shareEnergy_changes (s : State) (step : Nat) :
    Changes [.regs, .mem, .ecc, .cores, .mesh, .holds, .fabric, .host, .engine, .weights, .toll, .idle, .diag, .ibis, .outs] s (s.shareEnergy step) := by
  unfold State.shareEnergy
  dsimp only
  refine Changes.ite ?_ ?_
  · refine Changes.step ?_ (State.addTo_changes _ _ _ _) rfl
    refine Changes.step ?_ (State.put_changes _ _ _ _) rfl
    exact Changes.refl _ _
  · refine Changes.step ?_ (State.addTo_changes _ _ _ _) rfl
    refine Changes.foldlFst ?_ (fun _ _ _ => ?_)
    · refine Changes.mkFst ?_
      refine Changes.step ?_ (State.put_changes _ _ _ _) rfl
      exact Changes.refl _ _
    · refine Changes.mkFst ?_
      refine Changes.step ?_ (State.addTo_changes _ _ _ _) rfl
      refine Changes.step ?_ (State.tableStore_changes _ _ _) rfl
      refine Changes.step ?_ (State.serveAhead_changes _ _ _) rfl
      refine Changes.mkFst ?_
      exact Changes.refl _ _

theorem execEnergySweep_changes (s : State) :
    OutChanges [.now, .regs, .die, .fabric, .engine] s (execEnergySweep s) := by
  unfold execEnergySweep
  refine OutChanges.ite ?_ ?_
  · refine OutChanges.next ?_
    exact Changes.refl _ _
  · dsimp only
    refine OutChanges.next ?_
    refine Changes.step ?_ (State.modEngine_changes _ _) rfl
    refine Changes.step ?_ (State.addTo_changes _ _ _ _) rfl
    refine Changes.step ?_ (State.put_changes _ _ _ _) rfl
    refine Changes.step ?_ (State.advanceTo_changes _ _) rfl
    exact Changes.refl _ _

theorem State.swapAnswers_changes (s : State) (step : Nat) :
    Changes [.regs, .mem, .ecc, .cores, .mesh, .holds, .host, .engine, .idle, .diag, .ibis, .outs] s (s.swapAnswers step) := by
  unfold State.swapAnswers
  dsimp only
  refine Changes.step ?_ (State.recountPins_changes _) rfl
  split
  · refine Changes.ite ?_ ?_
    · refine Changes.step ?_ (State.modEngine_changes _ _) rfl
      refine Changes.step ?_ (State.sendMsg_changes _ _ _ _ _ _ _ _ _) rfl
      exact Changes.refl _ _
    · exact Changes.refl _ _
  · exact Changes.refl _ _

theorem State.processStep_changes (s : State) (step : Nat) :
    Changes [.regs, .mem, .ecc, .cores, .mesh, .holds, .fabric, .host, .engine, .weights, .toll, .idle, .diag, .ibis, .outs] s (s.processStep step) := by
  unfold State.processStep
  dsimp only
  refine Changes.ite ?_ ?_
  · refine Changes.step ?_ (State.swapAnswers_changes _ _) rfl
    refine Changes.step ?_ (State.freeEnded_changes _) rfl
    refine Changes.step ?_ (State.useTables_changes _ _) rfl
    exact Changes.refl _ _
  · refine Changes.step ?_ (State.modEngine_changes _ _) rfl
    refine Changes.step ?_ (State.countPaused_changes _) rfl
    refine Changes.step ?_ (State.swapAnswers_changes _ _) rfl
    refine Changes.step ?_ (State.modEngine_changes _ _) rfl
    refine Changes.iteThen ?_ ?_
    · refine Changes.step ?_ (State.streamStep_changes _ _ _ _) rfl
      refine Changes.step ?_ (State.takeExtra_changes _ _) rfl
      refine Changes.foldlFst ?_ (fun _ _ _ => ?_)
      · refine Changes.mkFst ?_
        refine Changes.step ?_ (State.freeEnded_changes _) rfl
        refine Changes.step ?_ (State.useTables_changes _ _) rfl
        exact Changes.refl _ _
      · refine Changes.mkFst ?_
        refine Changes.step ?_ (State.processReq_changes _ _ _ _ _) rfl
        refine Changes.mkFst ?_
        exact Changes.refl _ _
    · refine Changes.step ?_ (State.shareEnergy_changes _ _) rfl
      exact Changes.refl _ _

end Sys2Proof.Machine
end

