-- ==== Sys2Proof/Laws/ChangesBoot.lean ====
section
/-! SUPPORT. What each operation may change: resets, trust, boot, the register path, the loader, jobs, messages and steps. -/

namespace Sys2Proof.Machine

/-! ### Reset -/

theorem State.keepRegs_changes (s : State) (keep : Nat → Word) : Changes [.regs] s (s.keepRegs keep) := by
  refine ⟨fun p hp => by cases p <;> first | rfl | exact ⟨rfl, rfl⟩ | exact absurd hp (by decide), fun h => ?_, Nat.le_refl _⟩
  rw [State.wf_iff] at h ⊢
  exact ⟨smSorted_map h.1 _, h.2⟩

theorem State.noteKind_changes (s : State) (k : Nat) :
    Changes [.regs] s (s.noteKind k) := by
  unfold State.noteKind
  refine Changes.step ?_ (State.put_changes _ _ _ _) rfl
  exact Changes.refl _ _

theorem State.refuse3011_changes (s : State) :
    Changes [.regs, .mesh, .idle, .diag, .ibis, .outs] s (s.refuse3011).1 := by
  unfold State.refuse3011
  refine Changes.mkFst ?_
  refine Changes.step ?_ (State.logErr_changes _ _) rfl
  exact Changes.refl _ _

theorem State.abortTx_changes (s : State) (n sl : Nat) :
    Changes [.regs, .mesh, .fabric, .idle, .diag, .ibis, .outs] s (s.abortTx n sl) := by
  unfold State.abortTx
  split
  · exact Changes.refl _ _
  · refine Changes.foldl ?_ (fun _ _ => ?_)
    · exact Changes.refl _ _
    · refine Changes.step ?_ (State.sendBy_changes _ _ _ _ _ _ _) rfl
      exact Changes.refl _ _

theorem State.abortAll_changes (s : State) :
    Changes [.regs, .mesh, .fabric, .idle, .diag, .ibis, .outs] s (s.abortAll) := by
  unfold State.abortAll
  refine Changes.foldl ?_ (fun _ _ => ?_)
  · exact Changes.refl _ _
  · refine Changes.step ?_ (State.abortTx_changes _ _ _) rfl
    exact Changes.refl _ _

theorem State.unitsIdle_changes (s : State) (n : Nat) :
    Changes [.regs] s (s.unitsIdle n) := by
  unfold State.unitsIdle
  dsimp only
  refine Changes.foldl ?_ (fun _ _ => ?_)
  · refine Changes.iteElse ?_ ?_
    · refine Changes.ite ?_ ?_
      · exact Changes.refl _ _
      · refine Changes.step ?_ (State.put_changes _ _ _ _) rfl
        exact Changes.refl _ _
    · refine Changes.step ?_ (State.put_changes _ _ _ _) rfl
      exact Changes.refl _ _
  · refine Changes.ite ?_ ?_
    · exact Changes.refl _ _
    · refine Changes.step ?_ (State.put_changes _ _ _ _) rfl
      refine Changes.step ?_ (State.put_changes _ _ _ _) rfl
      exact Changes.refl _ _

theorem State.flushAll_changes (s : State) :
    Changes [.mem, .ecc, .cores] s (s.flushAll) := by
  unfold State.flushAll
  refine Changes.foldl ?_ (fun _ _ => ?_)
  · exact Changes.refl _ _
  · refine Changes.step ?_ (State.flushWrites_changes _ _) rfl
    exact Changes.refl _ _

theorem State.staleAll_changes (s : State) :
    Changes [.mesh] s (s.staleAll) := by
  unfold State.staleAll
  refine Changes.record ?_ (by intro p; cases p <;> first | exact .inl rfl | exact .inr ⟨rfl, rfl⟩ | exact .inr (by dsimp only [Part.same]))
  exact Changes.refl _ _

theorem State.ctxStart_changes (s : State) :
    Changes [.regs, .mem, .ecc, .die, .cores, .mesh, .fabric, .host, .toll, .idle, .diag, .ibis, .outs] s (s.ctxStart) := by
  unfold State.ctxStart
  dsimp only
  refine Changes.record ?_ (by intro p; cases p <;> first | exact .inl rfl | exact .inr ⟨rfl, rfl⟩ | exact .inr (by dsimp only [Part.same]))
  refine Changes.step ?_ (State.holdOff_changes _ _) rfl
  refine Changes.step ?_ (State.holdOff_changes _ _) rfl
  refine Changes.foldl ?_ (fun _ _ => ?_)
  · refine Changes.step ?_ (State.abortAll_changes _) rfl
    refine Changes.step ?_ (State.staleAll_changes _) rfl
    refine Changes.step ?_ (State.flushAll_changes _) rfl
    exact Changes.refl _ _
  · refine Changes.step ?_ (State.unitsIdle_changes _ _) rfl
    exact Changes.refl _ _

theorem State.ctxEnd_changes (s : State) :
    Changes [.regs, .mem, .ecc, .cores, .locks, .mesh, .fabric, .engine, .toll, .idle, .diag, .ibis, .outs] s (s.ctxEnd) := by
  unfold State.ctxEnd
  dsimp only
  refine Changes.step ?_ (State.unloadRequests_changes _) rfl
  refine Changes.step ?_ (State.noteKind_changes _ _) rfl
  refine Changes.step ?_ (State.addSat_changes _ _ _ _) rfl
  refine Changes.record ?_ (by intro p; cases p <;> first | exact .inl rfl | exact .inr ⟨rfl, rfl⟩ | exact .inr (by dsimp only [Part.same]))
  refine Changes.step ?_ (State.keepRegs_changes _ _) rfl
  refine Changes.step ?_ (State.flushAll_changes _) rfl
  exact Changes.refl _ _

theorem State.dropReaches_changes (s : State) :
    Changes [.reaches, .toll] s (s.dropReaches) := by
  unfold State.dropReaches
  dsimp only
  refine Changes.record ?_ (by intro p; cases p <;> first | exact .inl rfl | exact .inr ⟨rfl, rfl⟩ | exact .inr (by dsimp only [Part.same]))
  refine Changes.foldl ?_ (fun _ _ => ?_)
  · exact Changes.refl _ _
  · refine Changes.step ?_ (State.setReach_changes _ _ _) rfl
    exact Changes.refl _ _

theorem State.ctxReset_changes (s : State) :
    Changes [.regs, .mem, .ecc, .reaches, .die, .cores, .mesh, .fabric, .host, .toll, .idle, .diag, .ibis, .outs] s (s.ctxReset) := by
  unfold State.ctxReset
  refine Changes.ite ?_ ?_
  · exact Changes.refl _ _
  · refine Changes.step ?_ (State.ctxStart_changes _) rfl
    refine Changes.step ?_ (State.dropReaches_changes _) rfl
    exact Changes.refl _ _

theorem execCtxReset_changes (s : State) :
    OutChanges [.regs, .mem, .ecc, .reaches, .die, .cores, .mesh, .fabric, .host, .toll, .idle, .diag, .ibis, .outs] s (execCtxReset s) := by
  unfold execCtxReset
  refine OutChanges.next ?_
  refine Changes.step ?_ (State.ctxReset_changes _) rfl
  exact Changes.refl _ _

theorem State.ctxDrain_changes (s : State) :
    Changes [.now, .regs, .mem, .ecc, .die, .cores, .locks, .mesh, .fabric, .engine, .toll, .idle, .diag, .ibis, .outs] s (s.ctxDrain) := by
  unfold State.ctxDrain
  split
  · exact Changes.refl _ _
  · refine Changes.step ?_ (State.ctxEnd_changes _) rfl
    refine Changes.ite ?_ ?_
    · exact Changes.refl _ _
    · refine Changes.step ?_ (State.advanceTo_changes _ _) rfl
      exact Changes.refl _ _

theorem execCtxDrainComplete_changes (s : State) :
    OutChanges [.now, .regs, .mem, .ecc, .die, .cores, .locks, .mesh, .fabric, .engine, .toll, .idle, .diag, .ibis, .outs] s (execCtxDrainComplete s) := by
  unfold execCtxDrainComplete
  refine OutChanges.next ?_
  refine Changes.step ?_ (State.ctxDrain_changes _) rfl
  exact Changes.refl _ _

theorem State.trainPorts_changes (s : State) :
    Changes [.regs, .cores, .mesh, .fabric, .toll, .idle, .diag, .ibis, .outs] s (s.trainPorts) := by
  unfold State.trainPorts
  refine Changes.foldl ?_ (fun _ _ => ?_)
  · exact Changes.refl _ _
  · refine Changes.step ?_ (State.startTraining_changes _ _) rfl
    exact Changes.refl _ _

theorem State.leaveActive_changes (s : State) :
    Changes [.regs, .cores, .mesh, .fabric, .toll, .idle, .diag, .ibis, .outs] s (s.leaveActive) := by
  unfold State.leaveActive
  refine Changes.foldl ?_ (fun _ _ => ?_)
  · exact Changes.refl _ _
  · refine Changes.step ?_ (State.enterState_changes _ _ _) rfl
    exact Changes.refl _ _

theorem State.fabReset_changes (s : State) :
    Changes [.regs, .reaches, .cores, .locks, .mesh, .fabric, .toll, .idle, .diag, .ibis, .outs] s (s.fabReset).1 := by
  unfold State.fabReset
  refine Changes.iteFst ?_ ?_
  · refine Changes.mkFst ?_
    exact Changes.refl _ _
  · refine Changes.iteFst ?_ ?_
    · refine Changes.step ?_ (State.refuse3011_changes _) rfl
      exact Changes.refl _ _
    · dsimp only
      refine Changes.step ?_ (State.noteKind_changes _ _) rfl
      refine Changes.step ?_ (State.trainPorts_changes _) rfl
      refine Changes.record ?_ (by intro p; cases p <;> first | exact .inl rfl | exact .inr ⟨rfl, rfl⟩ | exact .inr (by dsimp only [Part.same]))
      refine Changes.step ?_ (State.keepRegs_changes _ _) rfl
      refine Changes.step ?_ (State.leaveActive_changes _) rfl
      refine Changes.step ?_ (State.dropReaches_changes _) rfl
      exact Changes.refl _ _

theorem execFabReset_changes (s : State) :
    OutChanges [.regs, .reaches, .cores, .locks, .mesh, .fabric, .toll, .idle, .diag, .ibis, .outs] s (execFabReset s) := by
  unfold execFabReset
  refine OutChanges.next ?_
  refine Changes.step ?_ (State.fabReset_changes _) rfl
  exact Changes.refl _ _

theorem State.reachReset_changes (s : State) (mask : Nat) :
    Changes [.regs, .reaches, .mesh, .toll, .idle, .diag, .ibis, .outs] s (s.reachReset mask).1 := by
  unfold State.reachReset
  dsimp only
  refine Changes.iteFst ?_ ?_
  · refine Changes.mkFst ?_
    exact Changes.refl _ _
  · refine Changes.iteFst ?_ ?_
    · refine Changes.step ?_ (State.refuse3011_changes _) rfl
      exact Changes.refl _ _
    · refine Changes.mkFst ?_
      refine Changes.record ?_ (by intro p; cases p <;> first | exact .inl rfl | exact .inr ⟨rfl, rfl⟩ | exact .inr (by dsimp only [Part.same]))
      refine Changes.foldl ?_ (fun _ _ => ?_)
      · exact Changes.refl _ _
      · refine Changes.step ?_ (State.setReach_changes _ _ _) rfl
        exact Changes.refl _ _

theorem execReachReset_changes (mask : BitVec 16) (s : State) :
    OutChanges [.regs, .reaches, .mesh, .toll, .idle, .diag, .ibis, .outs] s (execReachReset mask s) := by
  unfold execReachReset
  refine OutChanges.next ?_
  refine Changes.step ?_ (State.reachReset_changes _ _) rfl
  exact Changes.refl _ _

theorem State.reachDone_changes (s : State) (r : Nat) :
    Changes [.regs, .mem, .ecc, .reaches, .die, .cores, .toll] s (s.reachDone r) := by
  unfold State.reachDone
  dsimp only
  refine Changes.step ?_ (State.noteKind_changes _ _) rfl
  refine Changes.step ?_ (State.setReach_changes _ _ _) rfl
  refine Changes.foldl ?_ (fun _ _ => ?_)
  · refine Changes.record ?_ (by intro p; cases p <;> first | exact .inl rfl | exact .inr ⟨rfl, rfl⟩ | exact .inr (by dsimp only [Part.same]))
    refine Changes.step ?_ (State.holdOff_changes _ _) rfl
    refine Changes.step ?_ (State.keepRegs_changes _ _) rfl
    refine Changes.step ?_ (State.put_changes _ _ _ _) rfl
    refine Changes.step ?_ (State.put_changes _ _ _ _) rfl
    refine Changes.step ?_ (State.put_changes _ _ _ _) rfl
    refine Changes.step ?_ (State.put_changes _ _ _ _) rfl
    refine Changes.step ?_ (State.flushAll_changes _) rfl
    exact Changes.refl _ _
  · refine Changes.step ?_ (State.unitsIdle_changes _ _) rfl
    exact Changes.refl _ _

theorem execReachResetComplete_changes (r : Fin 16) (s : State) :
    OutChanges [.regs, .mem, .ecc, .reaches, .die, .cores, .toll] s (execReachResetComplete r s) := by
  unfold execReachResetComplete
  refine OutChanges.ite ?_ ?_
  · refine OutChanges.next ?_
    refine Changes.step ?_ (State.reachDone_changes _ _) rfl
    exact Changes.refl _ _
  · refine OutChanges.next ?_
    exact Changes.refl _ _

theorem State.holdsOnly_changes (s : State) : Changes [.mem, .ecc] s (s.holdsOnly) := by
  refine ⟨fun p hp => by cases p <;> first | rfl | exact ⟨rfl, rfl⟩ | exact absurd hp (by decide), fun h => ?_, Nat.le_refl _⟩
  rw [State.wf_iff] at h ⊢
  exact ⟨h.1, memWf_filter h.2.1 _, smSorted_filter h.2.2 _⟩

theorem State.dieCleared_changes (s : State) : Changes [.regs, .reaches, .die, .cores, .locks, .mesh, .fabric, .host, .engine, .weights, .power, .idle, .diag] s (s.dieCleared) := by
  refine ⟨fun p hp => by cases p <;> first | rfl | exact ⟨rfl, rfl⟩ | exact absurd hp (by decide), fun h => ?_, Nat.le_refl _⟩
  rw [State.wf_iff] at h ⊢
  exact h

theorem State.unpower_changes (s : State) : Changes [.regs, .mem, .ecc, .reaches, .die, .cores, .locks, .mesh, .holds, .fabric, .host, .engine, .weights, .power, .toll, .idle, .diag] s (s.unpower) := by
  refine Changes.trans (((State.keepRegs_changes s powerKeep).widen rfl).step (State.dieCleared_changes _) rfl) ?_
  refine ⟨fun p hp => by cases p <;> first | rfl | exact ⟨rfl, rfl⟩ | exact absurd hp (by decide), fun h => ?_, Nat.le_refl _⟩
  rw [State.wf_iff] at h ⊢
  exact ⟨h.1, rfl, rfl⟩

theorem State.wholeReset_changes (s : State) (por : Bool) : Changes [.regs, .mem, .ecc, .reaches, .die, .cores, .locks, .mesh, .holds, .fabric, .host, .engine, .weights, .power, .toll, .idle, .diag, .ibiOn, .ibis] s (s.wholeReset por) := by
  unfold State.wholeReset
  extract_lets keep t up fresh toll
  have ht : Changes [.regs, .mem, .ecc, .reaches, .die, .cores, .locks, .mesh, .holds, .fabric, .host, .engine, .weights, .power, .toll, .idle, .diag, .ibiOn, .ibis] s t := ((State.keepRegs_changes s keep).widen rfl).step (State.dieCleared_changes _) rfl
  refine Changes.step (ht.trans ?_) (State.noteKind_changes _ _) rfl
  refine ⟨fun p hp => by cases p <;> first | rfl | exact ⟨rfl, rfl⟩ | exact absurd hp (by decide), fun h => ?_, Nat.le_refl _⟩
  rw [State.wf_iff] at h ⊢
  exact ⟨h.1, rfl, rfl⟩

theorem State.devCleared_changes (s : State) : Changes [.regs, .mem, .ecc, .reaches, .die, .cores, .locks, .mesh, .holds, .fabric, .host, .engine, .weights, .power, .toll, .idle, .diag] s (s.devCleared) := by
  unfold State.devCleared
  extract_lets t
  have ht : Changes [.regs, .mem, .ecc, .reaches, .die, .cores, .locks, .mesh, .holds, .fabric, .host, .engine, .weights, .power, .toll, .idle, .diag] s t :=
    (((State.keepRegs_changes s devKeep).widen rfl).step (State.holdsOnly_changes _) rfl).step (State.dieCleared_changes _) rfl
  exact Changes.record ht (by intro p; cases p <;> first | exact .inl rfl | exact .inr (by dsimp only [Part.same]))

/-! ### Trust -/

theorem State.lowerCeil_changes (s : State) :
    Changes [.regs] s (s.lowerCeil) := by
  unfold State.lowerCeil
  refine Changes.foldl ?_ (fun _ _ => ?_)
  · exact Changes.refl _ _
  · dsimp only
    refine Changes.ite ?_ ?_
    · refine Changes.step ?_ (State.setTarget_changes _ _ _) rfl
      exact Changes.refl _ _
    · refine Changes.ite ?_ ?_
      · refine Changes.step ?_ (State.setTarget_changes _ _ _) rfl
        exact Changes.refl _ _
      · exact Changes.refl _ _

theorem State.writeSetting_changes (s : State) (o : List Byte) :
    Changes [.regs] s (s.writeSetting o) := by
  unfold State.writeSetting
  dsimp only
  refine Changes.ite ?_ ?_
  · refine Changes.step ?_ (State.put_changes _ _ _ _) rfl
    exact Changes.refl _ _
  · refine Changes.ite ?_ ?_
    · refine Changes.step ?_ (State.lowerCeil_changes _) rfl
      refine Changes.step ?_ (State.put_changes _ _ _ _) rfl
      exact Changes.refl _ _
    · refine Changes.ite ?_ ?_
      · refine Changes.step ?_ (State.put_changes _ _ _ _) rfl
        exact Changes.refl _ _
      · refine Changes.ite ?_ ?_
        · refine Changes.step ?_ (State.put_changes _ _ _ _) rfl
          exact Changes.refl _ _
        · refine Changes.ite ?_ ?_
          · refine Changes.foldl ?_ (fun _ _ => ?_)
            · exact Changes.refl _ _
            · refine Changes.step ?_ (State.setReg_changes _ _ _) rfl
              exact Changes.refl _ _
          · refine Changes.foldl ?_ (fun _ _ => ?_)
            · exact Changes.refl _ _
            · refine Changes.step ?_ (State.setReg_changes _ _ _) rfl
              exact Changes.refl _ _

theorem State.commitOrder_changes (s : State) (o : List Byte) (origin : Nat) :
    Changes [.regs, .cores, .mesh, .idle, .diag, .ibis, .outs] s (s.commitOrder o origin) := by
  unfold State.commitOrder
  dsimp only
  refine Changes.step ?_ (State.setReg_changes _ _ _) rfl
  refine Changes.step ?_ (State.setReg_changes _ _ _) rfl
  refine Changes.step ?_ (State.setReg_changes _ _ _) rfl
  refine Changes.step ?_ (State.setReg_changes _ _ _) rfl
  refine Changes.step ?_ (State.put_changes _ _ _ _) rfl
  refine Changes.iteElse ?_ ?_
  · refine Changes.step ?_ (State.writeSetting_changes _ _) rfl
    exact Changes.refl _ _
  · refine Changes.step ?_ (State.put_changes _ _ _ _) rfl
    exact Changes.refl _ _

theorem State.orderIn_changes (s : State) (o : List Byte) (img : Option Nat) (keys : List Byte) :
    Changes [.regs, .cores, .mesh, .idle, .diag, .ibis, .outs] s (s.orderIn o img keys).1 := by
  unfold State.orderIn
  dsimp only
  split
  · refine Changes.mkFst ?_
    refine Changes.step ?_ (State.logErr_changes _ _) rfl
    exact Changes.refl _ _
  · refine Changes.mkFst ?_
    exact Changes.refl _ _
  · refine Changes.mkFst ?_
    refine Changes.step ?_ (State.commitOrder_changes _ _ _) rfl
    exact Changes.refl _ _

theorem State.applyOrders_changes (s : State) (img : List Byte) :
    Changes [.regs, .cores, .mesh, .idle, .diag, .ibis, .outs] s (s.applyOrders img) := by
  unfold State.applyOrders
  dsimp only
  refine Changes.foldl ?_ (fun _ _ => ?_)
  · exact Changes.refl _ _
  · refine Changes.step ?_ (State.orderIn_changes _ _ _ _) rfl
    exact Changes.refl _ _

/-! ### Boot -/

theorem State.setPhase_changes (s : State) (p : Nat) :
    Changes [.regs] s (s.setPhase p) := by
  unfold State.setPhase
  dsimp only
  refine Changes.iteThen ?_ ?_
  · refine Changes.step ?_ (State.put_changes _ _ _ _) rfl
    exact Changes.refl _ _
  · refine Changes.step ?_ (State.put_changes _ _ _ _) rfl
    exact Changes.refl _ _

theorem State.silence_changes (s : State) :
    Changes [.regs, .cores, .mesh, .fabric, .host, .toll, .idle, .diag, .ibis, .outs] s (s.silence) := by
  unfold State.silence
  dsimp only
  refine Changes.record ?_ (by intro p; cases p <;> first | exact .inl rfl | exact .inr ⟨rfl, rfl⟩ | exact .inr (by dsimp only [Part.same]))
  refine Changes.step ?_ (State.portOff_changes _ _) rfl
  refine Changes.step ?_ (State.portOff_changes _ _) rfl
  refine Changes.foldl ?_ (fun _ _ => ?_)
  · exact Changes.refl _ _
  · refine Changes.step ?_ (State.enterState_changes _ _ _) rfl
    refine Changes.step ?_ (State.laneStates_changes _ _ _) rfl
    exact Changes.refl _ _

theorem State.bootFail_changes (s : State) (code : Nat) :
    Changes [.regs, .cores, .mesh, .fabric, .host, .toll, .idle, .diag, .ibis, .outs] s (s.bootFail code) := by
  unfold State.bootFail
  refine Changes.step ?_ (State.put_changes _ _ _ _) rfl
  refine Changes.step ?_ (State.setPhase_changes _ _) rfl
  refine Changes.step ?_ (State.silence_changes _) rfl
  exact Changes.refl _ _

theorem State.readyFlash_changes (s : State) :
    Changes [.outs] s (s.readyFlash) := by
  unfold State.readyFlash
  refine Changes.step ?_ (State.emit_changes _ _) rfl
  refine Changes.step ?_ (State.emit_changes _ _) rfl
  refine Changes.step ?_ (State.emit_changes _ _) rfl
  exact Changes.refl _ _

theorem State.startBoot_changes (s : State) :
    Changes [.regs, .toll] s (s.startBoot) := by
  unfold State.startBoot
  dsimp only
  refine Changes.step ?_ (State.setPhase_changes _ _) rfl
  refine Changes.record ?_ (by intro p; cases p <;> first | exact .inl rfl | exact .inr ⟨rfl, rfl⟩ | exact .inr (by dsimp only [Part.same]))
  refine Changes.ite ?_ ?_
  · exact Changes.refl _ _
  · refine Changes.step ?_ (State.addSat_changes _ _ _ _) rfl
    exact Changes.refl _ _

theorem execPwrOkRise_changes (s : State) :
    OutChanges [.regs, .toll, .outs] s (execPwrOkRise s) := by
  unfold execPwrOkRise
  refine OutChanges.ite ?_ ?_
  · refine OutChanges.next ?_
    exact Changes.refl _ _
  · dsimp only
    refine OutChanges.next ?_
    refine Changes.iteThen ?_ ?_
    · refine Changes.record ?_ (by intro p; cases p <;> first | exact .inl rfl | exact .inr ⟨rfl, rfl⟩ | exact .inr (by dsimp only [Part.same]))
      exact Changes.refl _ _
    · refine Changes.step ?_ (State.startBoot_changes _) rfl
      refine Changes.step ?_ (State.readyFlash_changes _) rfl
      exact Changes.refl _ _

theorem State.devReset_changes (s : State) (byPin : Bool) :
    Changes [.regs, .mem, .ecc, .reaches, .die, .cores, .locks, .mesh, .holds, .fabric, .host, .engine, .weights, .power, .toll, .idle, .diag] s (s.devReset byPin) := by
  unfold State.devReset
  refine Changes.ite ?_ ?_
  · exact Changes.refl _ _
  · dsimp only
    refine Changes.step ?_ (State.startBoot_changes _) rfl
    refine Changes.step ?_ (State.put_changes _ _ _ _) rfl
    refine Changes.step ?_ (State.noteKind_changes _ _) rfl
    refine Changes.step ?_ (State.devCleared_changes _) rfl
    exact Changes.refl _ _

theorem execDevReset_changes (s : State) :
    OutChanges [.regs, .mem, .ecc, .reaches, .die, .cores, .locks, .mesh, .holds, .fabric, .host, .engine, .weights, .power, .toll, .idle, .diag] s (execDevReset s) := by
  unfold execDevReset
  refine OutChanges.next ?_
  refine Changes.step ?_ (State.devReset_changes _ _) rfl
  exact Changes.refl _ _

theorem State.tollReset_changes (s : State) :
    Changes [.regs, .mem, .ecc, .reaches, .die, .cores, .locks, .mesh, .holds, .fabric, .host, .engine, .weights, .power, .toll, .idle, .diag, .ibiOn, .ibis] s (s.tollReset) := by
  unfold State.tollReset
  refine Changes.ite ?_ ?_
  · exact Changes.refl _ _
  · dsimp only
    refine Changes.iteThen ?_ ?_
    · refine Changes.step ?_ (State.wholeReset_changes _ _) rfl
      exact Changes.refl _ _
    · refine Changes.step ?_ (State.startBoot_changes _) rfl
      exact Changes.refl _ _

theorem execTollReset_changes (s : State) :
    OutChanges [.regs, .mem, .ecc, .reaches, .die, .cores, .locks, .mesh, .holds, .fabric, .host, .engine, .weights, .power, .toll, .idle, .diag, .ibiOn, .ibis] s (execTollReset s) := by
  unfold execTollReset
  refine OutChanges.next ?_
  refine Changes.step ?_ (State.tollReset_changes _) rfl
  exact Changes.refl _ _

theorem execResetNAssert_changes (s : State) :
    OutChanges [.regs, .mem, .ecc, .reaches, .die, .cores, .locks, .mesh, .holds, .fabric, .host, .engine, .weights, .power, .toll, .idle, .diag, .ibiOn, .ibis] s (execResetNAssert s) := by
  unfold execResetNAssert
  refine OutChanges.ite ?_ ?_
  · refine OutChanges.next ?_
    exact Changes.refl _ _
  · dsimp only
    refine OutChanges.ite ?_ ?_
    · refine OutChanges.next ?_
      refine Changes.record ?_ (by intro p; cases p <;> first | exact .inl rfl | exact .inr ⟨rfl, rfl⟩ | exact .inr (by dsimp only [Part.same]))
      exact Changes.refl _ _
    · refine OutChanges.next ?_
      refine Changes.iteThen ?_ ?_
      · refine Changes.step ?_ (State.wholeReset_changes _ _) rfl
        refine Changes.record ?_ (by intro p; cases p <;> first | exact .inl rfl | exact .inr ⟨rfl, rfl⟩ | exact .inr (by dsimp only [Part.same]))
        exact Changes.refl _ _
      · refine Changes.step ?_ (State.noteKind_changes _ _) rfl
        refine Changes.record ?_ (by intro p; cases p <;> first | exact .inl rfl | exact .inr ⟨rfl, rfl⟩ | exact .inr (by dsimp only [Part.same]))
        exact Changes.refl _ _

theorem execResetNRelease_changes (s : State) :
    OutChanges [.now, .regs, .mem, .ecc, .reaches, .die, .cores, .locks, .mesh, .holds, .fabric, .host, .engine, .weights, .power, .toll, .idle, .diag, .outs] s (execResetNRelease s) := by
  unfold execResetNRelease
  refine OutChanges.ite ?_ ?_
  · refine OutChanges.next ?_
    exact Changes.refl _ _
  · dsimp only
    split
    · refine OutChanges.next ?_
      refine Changes.step ?_ (State.devReset_changes _ _) rfl
      refine Changes.step ?_ (State.readyFlash_changes _) rfl
      refine Changes.step ?_ (State.advanceTo_changes _ _) rfl
      refine Changes.record ?_ (by intro p; cases p <;> first | exact .inl rfl | exact .inr ⟨rfl, rfl⟩ | exact .inr (by dsimp only [Part.same]))
      exact Changes.refl _ _
    · refine OutChanges.next ?_
      refine Changes.iteThen ?_ ?_
      · refine Changes.record ?_ (by intro p; cases p <;> first | exact .inl rfl | exact .inr ⟨rfl, rfl⟩ | exact .inr (by dsimp only [Part.same]))
        exact Changes.refl _ _
      · refine Changes.step ?_ (State.startBoot_changes _) rfl
        refine Changes.step ?_ (State.readyFlash_changes _) rfl
        exact Changes.refl _ _

theorem State.loadPoint_changes (s : State) (k : Nat) (w : Word) :
    Changes [.regs, .mesh, .idle, .diag, .ibis, .outs] s (s.loadPoint k w) := by
  unfold State.loadPoint
  dsimp only
  refine Changes.ite ?_ ?_
  · refine Changes.step ?_ (State.logErr_changes _ _) rfl
    refine Changes.step ?_ (State.put_changes _ _ _ _) rfl
    refine Changes.step ?_ (State.put_changes _ _ _ _) rfl
    refine Changes.step ?_ (State.put_changes _ _ _ _) rfl
    refine Changes.step ?_ (State.put_changes _ _ _ _) rfl
    refine Changes.step ?_ (State.setReg_changes _ _ _) rfl
    exact Changes.refl _ _
  · refine Changes.step ?_ (State.put_changes _ _ _ _) rfl
    refine Changes.step ?_ (State.put_changes _ _ _ _) rfl
    refine Changes.step ?_ (State.put_changes _ _ _ _) rfl
    refine Changes.step ?_ (State.put_changes _ _ _ _) rfl
    refine Changes.step ?_ (State.setReg_changes _ _ _) rfl
    exact Changes.refl _ _

theorem State.loadWeir_changes (s : State) (k limit ceiling : Nat) :
    Changes [.regs] s (s.loadWeir k limit ceiling) := by
  unfold State.loadWeir
  dsimp only
  refine Changes.step ?_ (State.put_changes _ _ _ _) rfl
  refine Changes.step ?_ (State.put_changes _ _ _ _) rfl
  exact Changes.refl _ _

theorem State.loadRails_changes (s : State) (b : List Byte) :
    Changes [.regs] s (s.loadRails b) := by
  unfold State.loadRails
  dsimp only
  refine Changes.foldl ?_ (fun _ _ => ?_)
  · refine Changes.step ?_ (State.put_changes _ _ _ _) rfl
    refine Changes.foldl ?_ (fun _ _ => ?_)
    · exact Changes.refl _ _
    · refine Changes.step ?_ (State.loadWeir_changes _ _ _ _) rfl
      exact Changes.refl _ _
  · refine Changes.step ?_ (State.put_changes _ _ _ _) rfl
    refine Changes.step ?_ (State.put_changes _ _ _ _) rfl
    refine Changes.step ?_ (State.put_changes _ _ _ _) rfl
    exact Changes.refl _ _

theorem State.loadRole_changes (s : State) (b : List Byte) :
    Changes [.regs, .host] s (s.loadRole b) := by
  unfold State.loadRole
  dsimp only
  refine Changes.record ?_ (by intro p; cases p <;> first | exact .inl rfl | exact .inr ⟨rfl, rfl⟩ | exact .inr (by dsimp only [Part.same]))
  refine Changes.step ?_ (State.put_changes _ _ _ _) rfl
  exact Changes.refl _ _

theorem State.loadLanes_changes (s : State) (b : List Byte) :
    Changes [.regs] s (s.loadLanes b) := by
  unfold State.loadLanes
  dsimp only
  refine Changes.foldl ?_ (fun _ _ => ?_)
  · refine Changes.foldl ?_ (fun _ _ => ?_)
    · exact Changes.refl _ _
    · refine Changes.step ?_ (State.plainWrite_changes _ _ _) rfl
      exact Changes.refl _ _
  · refine Changes.step ?_ (State.plainWrite_changes _ _ _) rfl
    exact Changes.refl _ _

theorem State.loadEnet_changes (s : State) (b : List Byte) :
    Changes [.regs] s (s.loadEnet b) := by
  unfold State.loadEnet
  dsimp only
  refine Changes.foldl ?_ (fun _ _ => ?_)
  · refine Changes.foldl ?_ (fun _ _ => ?_)
    · exact Changes.refl _ _
    · refine Changes.foldl ?_ (fun _ _ => ?_)
      · exact Changes.refl _ _
      · refine Changes.step ?_ (State.put_changes _ _ _ _) rfl
        exact Changes.refl _ _
  · refine Changes.step ?_ (State.plainWrite_changes _ _ _) rfl
    exact Changes.refl _ _

theorem State.loadMap_changes (s : State) :
    Changes [.regs] s (s.loadMap) := by
  unfold State.loadMap
  dsimp only
  refine Changes.step ?_ (State.put_changes _ _ _ _) rfl
  refine Changes.step ?_ (State.setReg_changes _ _ _) rfl
  refine Changes.foldl ?_ (fun _ _ => ?_)
  · exact Changes.refl _ _
  · refine Changes.step ?_ (State.setReg_changes _ _ _) rfl
    refine Changes.step ?_ (State.setReg_changes _ _ _) rfl
    exact Changes.refl _ _

theorem State.startPacers_changes (s : State) :
    Changes [.regs, .reaches] s (s.startPacers) := by
  unfold State.startPacers
  refine Changes.foldl ?_ (fun _ _ => ?_)
  · refine Changes.step ?_ (State.restartBeats_changes _) rfl
    exact Changes.refl _ _
  · refine Changes.step ?_ (State.setReach_changes _ _ _) rfl
    exact Changes.refl _ _

theorem State.configure_changes (s : State) :
    Changes [.regs, .mem, .ecc, .reaches, .cores, .mesh, .fabric, .host, .toll, .idle, .diag, .ibis, .outs] s (s.configure) := by
  unfold State.configure
  dsimp only
  refine Changes.record ?_ (by intro p; cases p <;> first | exact .inl rfl | exact .inr ⟨rfl, rfl⟩ | exact .inr (by dsimp only [Part.same]))
  refine Changes.step ?_ (State.trainPorts_changes _) rfl
  refine Changes.step ?_ (State.setPhase_changes _ _) rfl
  refine Changes.record ?_ (by intro p; cases p <;> first | exact .inl rfl | exact .inr ⟨rfl, rfl⟩ | exact .inr (by dsimp only [Part.same]))
  refine Changes.step ?_ (State.startPacers_changes _) rfl
  refine Changes.step ?_ (State.zeroSram_changes _) rfl
  refine Changes.step ?_ (State.setReg_changes _ _ _) rfl
  refine Changes.step ?_ (State.loadEnet_changes _ _) rfl
  refine Changes.step ?_ (State.loadLanes_changes _ _) rfl
  refine Changes.step ?_ (State.loadRole_changes _ _) rfl
  refine Changes.step ?_ (State.loadRails_changes _ _) rfl
  refine Changes.foldl ?_ (fun _ _ => ?_)
  · refine Changes.step ?_ (State.loadMap_changes _) rfl
    refine Changes.step ?_ (State.setPhase_changes _ _) rfl
    exact Changes.refl _ _
  · refine Changes.step ?_ (State.loadPoint_changes _ _ _) rfl
    exact Changes.refl _ _

theorem State.acceptImage_changes (s : State) (slot : Nat) (img : List Byte) :
    Changes [.regs, .mem, .ecc, .reaches, .cores, .mesh, .fabric, .host, .toll, .idle, .diag, .ibis, .outs] s (s.acceptImage slot img) := by
  unfold State.acceptImage
  dsimp only
  refine Changes.ite ?_ ?_
  · refine Changes.step ?_ (State.configure_changes _) rfl
    refine Changes.step ?_ (State.applyOrders_changes _ _) rfl
    refine Changes.record ?_ (by intro p; cases p <;> first | exact .inl rfl | exact .inr ⟨rfl, rfl⟩ | exact .inr (by dsimp only [Part.same]))
    refine Changes.step ?_ (State.put_changes _ _ _ _) rfl
    refine Changes.step ?_ (State.put_changes _ _ _ _) rfl
    refine Changes.step ?_ (State.put_changes _ _ _ _) rfl
    refine Changes.foldl ?_ (fun _ _ => ?_)
    · exact Changes.refl _ _
    · refine Changes.step ?_ (State.setReg_changes _ _ _) rfl
      exact Changes.refl _ _
  · refine Changes.ite ?_ ?_
    · refine Changes.step ?_ (State.setPhase_changes _ _) rfl
      refine Changes.record ?_ (by intro p; cases p <;> first | exact .inl rfl | exact .inr ⟨rfl, rfl⟩ | exact .inr (by dsimp only [Part.same]))
      refine Changes.step ?_ (State.applyOrders_changes _ _) rfl
      refine Changes.record ?_ (by intro p; cases p <;> first | exact .inl rfl | exact .inr ⟨rfl, rfl⟩ | exact .inr (by dsimp only [Part.same]))
      refine Changes.step ?_ (State.put_changes _ _ _ _) rfl
      refine Changes.step ?_ (State.put_changes _ _ _ _) rfl
      refine Changes.step ?_ (State.put_changes _ _ _ _) rfl
      refine Changes.foldl ?_ (fun _ _ => ?_)
      · exact Changes.refl _ _
      · refine Changes.step ?_ (State.setReg_changes _ _ _) rfl
        exact Changes.refl _ _
    · refine Changes.step ?_ (State.setPhase_changes _ _) rfl
      refine Changes.step ?_ (State.applyOrders_changes _ _) rfl
      refine Changes.record ?_ (by intro p; cases p <;> first | exact .inl rfl | exact .inr ⟨rfl, rfl⟩ | exact .inr (by dsimp only [Part.same]))
      refine Changes.step ?_ (State.put_changes _ _ _ _) rfl
      refine Changes.step ?_ (State.put_changes _ _ _ _) rfl
      refine Changes.step ?_ (State.put_changes _ _ _ _) rfl
      refine Changes.foldl ?_ (fun _ _ => ?_)
      · exact Changes.refl _ _
      · refine Changes.step ?_ (State.setReg_changes _ _ _) rfl
        exact Changes.refl _ _

theorem execImageSlotCheck_changes (slot : Fin 2) (img : List Byte) (s : State) :
    OutChanges [.regs, .mem, .ecc, .reaches, .cores, .mesh, .fabric, .host, .toll, .idle, .diag, .ibis, .outs] s (execImageSlotCheck slot img s) := by
  unfold execImageSlotCheck
  refine OutChanges.ite ?_ ?_
  · refine OutChanges.next ?_
    exact Changes.refl _ _
  · dsimp only
    refine OutChanges.ite ?_ ?_
    · refine OutChanges.next ?_
      refine Changes.step ?_ (State.acceptImage_changes _ _ _) rfl
      exact Changes.refl _ _
    · refine OutChanges.ite ?_ ?_
      · refine OutChanges.next ?_
        refine Changes.record ?_ (by intro p; cases p <;> first | exact .inl rfl | exact .inr ⟨rfl, rfl⟩ | exact .inr (by dsimp only [Part.same]))
        refine Changes.step ?_ (State.put_changes _ _ _ _) rfl
        refine Changes.step ?_ (State.logErr_changes _ _) rfl
        exact Changes.refl _ _
      · refine OutChanges.next ?_
        refine Changes.step ?_ (State.bootFail_changes _ _) rfl
        refine Changes.step ?_ (State.logErr_changes _ _) rfl
        exact Changes.refl _ _

theorem State.setEn_changes (s : State) (g : Nat) (b : Bool) :
    Changes [.toll] s (s.setEn g b) := by
  unfold State.setEn
  refine Changes.record ?_ (by intro p; cases p <;> first | exact .inl rfl | exact .inr ⟨rfl, rfl⟩ | exact .inr (by dsimp only [Part.same]))
  exact Changes.refl _ _

theorem State.setPg_changes (s : State) (g : Nat) (b : Bool) :
    Changes [.toll] s (s.setPg g b) := by
  unfold State.setPg
  refine Changes.record ?_ (by intro p; cases p <;> first | exact .inl rfl | exact .inr ⟨rfl, rfl⟩ | exact .inr (by dsimp only [Part.same]))
  exact Changes.refl _ _

theorem State.powerFail_changes (s : State) (aux : Nat) :
    Changes [.regs, .cores, .mesh, .fabric, .host, .toll, .idle, .diag, .ibis, .outs] s (s.powerFail aux) := by
  unfold State.powerFail
  dsimp only
  refine Changes.record ?_ (by intro p; cases p <;> first | exact .inl rfl | exact .inr ⟨rfl, rfl⟩ | exact .inr (by dsimp only [Part.same]))
  refine Changes.step ?_ (State.bootFail_changes _ _) rfl
  refine Changes.step ?_ (State.logErr_changes _ _) rfl
  exact Changes.refl _ _

theorem State.powered_changes (s : State) :
    Changes [.regs, .mem, .ecc, .reaches, .cores, .mesh, .fabric, .host, .toll, .idle, .diag, .ibis, .outs] s (s.powered) := by
  unfold State.powered
  refine Changes.ite ?_ ?_
  · exact Changes.refl _ _
  · refine Changes.ite ?_ ?_
    · refine Changes.step ?_ (State.powerFail_changes _ _) rfl
      exact Changes.refl _ _
    · refine Changes.step ?_ (State.configure_changes _) rfl
      exact Changes.refl _ _

theorem execRailEnable_changes (g : Fin 4) (s : State) :
    OutChanges [.now, .regs, .mem, .ecc, .reaches, .die, .cores, .mesh, .fabric, .host, .toll, .idle, .diag, .ibis, .outs] s (execRailEnable g s) := by
  unfold execRailEnable
  dsimp only
  refine OutChanges.ite ?_ ?_
  · refine OutChanges.next ?_
    exact Changes.refl _ _
  · refine OutChanges.next ?_
    refine Changes.step ?_ (State.powered_changes _) rfl
    refine Changes.step ?_ (State.setEn_changes _ _ _) rfl
    refine Changes.ite ?_ ?_
    · exact Changes.refl _ _
    · refine Changes.step ?_ (State.advanceTo_changes _ _) rfl
      exact Changes.refl _ _

theorem execRailPgRise_changes (g : Fin 4) (s : State) :
    OutChanges [.regs, .mem, .ecc, .reaches, .cores, .mesh, .fabric, .host, .toll, .idle, .diag, .ibis, .outs] s (execRailPgRise g s) := by
  unfold execRailPgRise
  refine OutChanges.next ?_
  refine Changes.ite ?_ ?_
  · exact Changes.refl _ _
  · refine Changes.step ?_ (State.powered_changes _) rfl
    refine Changes.step ?_ (State.setPg_changes _ _ _) rfl
    exact Changes.refl _ _

theorem execRailPgTimeout_changes (g : Fin 4) (s : State) :
    OutChanges [.now, .regs, .die, .cores, .mesh, .fabric, .host, .toll, .idle, .diag, .ibis, .outs] s (execRailPgTimeout g s) := by
  unfold execRailPgTimeout
  dsimp only
  refine OutChanges.ite ?_ ?_
  · refine OutChanges.next ?_
    exact Changes.refl _ _
  · refine OutChanges.next ?_
    refine Changes.step ?_ (State.powerFail_changes _ _) rfl
    refine Changes.step ?_ (State.advanceTo_changes _ _) rfl
    exact Changes.refl _ _

theorem State.goDead_changes (s : State) :
    Changes [.regs, .mem, .ecc, .reaches, .die, .cores, .locks, .mesh, .holds, .fabric, .host, .engine, .weights, .power, .toll, .idle, .diag] s (s.goDead) := by
  unfold State.goDead
  dsimp only
  refine Changes.record ?_ (by intro p; cases p <;> first | exact .inl rfl | exact .inr ⟨rfl, rfl⟩ | exact .inr (by dsimp only [Part.same]))
  refine Changes.step ?_ (State.unpower_changes _) rfl
  exact Changes.refl _ _

theorem execRailPgFall_changes (g : Fin 4) (s : State) :
    OutChanges [.regs, .mem, .ecc, .reaches, .die, .cores, .locks, .mesh, .holds, .fabric, .host, .engine, .weights, .power, .toll, .idle, .diag, .ibis, .outs] s (execRailPgFall g s) := by
  unfold execRailPgFall
  dsimp only
  refine OutChanges.ite ?_ ?_
  · refine OutChanges.next ?_
    exact Changes.refl _ _
  · refine OutChanges.ite ?_ ?_
    · refine OutChanges.next ?_
      refine Changes.step ?_ (State.goDead_changes _) rfl
      refine Changes.step ?_ (State.logErr_changes _ _) rfl
      refine Changes.step ?_ (State.setPg_changes _ _ _) rfl
      exact Changes.refl _ _
    · refine OutChanges.next ?_
      refine Changes.step ?_ (State.setPg_changes _ _ _) rfl
      exact Changes.refl _ _

theorem execRailDisable_changes (g : Fin 4) (s : State) :
    OutChanges [.now, .regs, .die, .fabric, .toll] s (execRailDisable g s) := by
  unfold execRailDisable
  dsimp only
  refine OutChanges.ite ?_ ?_
  · refine OutChanges.next ?_
    exact Changes.refl _ _
  · refine OutChanges.next ?_
    refine Changes.record ?_ (by intro p; cases p <;> first | exact .inl rfl | exact .inr ⟨rfl, rfl⟩ | exact .inr (by dsimp only [Part.same]))
    refine Changes.step ?_ (State.setEn_changes _ _ _) rfl
    refine Changes.ite ?_ ?_
    · exact Changes.refl _ _
    · refine Changes.step ?_ (State.advanceTo_changes _ _) rfl
      exact Changes.refl _ _

theorem execPwrOkFall_changes (s : State) :
    OutChanges [.regs, .mem, .ecc, .reaches, .die, .cores, .locks, .mesh, .holds, .fabric, .host, .engine, .weights, .power, .toll, .idle, .diag, .ibiOn, .ibis] s (execPwrOkFall s) := by
  unfold execPwrOkFall
  refine OutChanges.ite ?_ ?_
  · refine OutChanges.next ?_
    refine Changes.step ?_ (State.wholeReset_changes _ _) rfl
    exact Changes.refl _ _
  · refine OutChanges.next ?_
    exact Changes.refl _ _

theorem execHoldTrainingDone_changes (h : Fin 2) (ok : Bool) (s : State) :
    OutChanges [.regs, .mem, .ecc, .cores, .mesh, .fabric, .host, .toll, .idle, .diag, .ibis, .outs] s (execHoldTrainingDone h ok s) := by
  unfold execHoldTrainingDone
  extract_lets a inHold
  refine OutChanges.ite (OutChanges.next (Changes.refl _ _)) (OutChanges.ite (OutChanges.next ?_) (OutChanges.next ?_))
  · refine Changes.trans (t := s.put a Fld.HOLD_CTRL.trained 1) ((State.put_changes _ _ _ _).widen rfl) ?_
    refine ⟨fun p hp => by cases p <;> first | rfl | exact ⟨rfl, rfl⟩ | exact absurd hp (by decide), fun w => ?_, Nat.le_refl _⟩
    rw [State.wf_iff] at w ⊢
    exact ⟨w.1, memWf_filter w.2.1 _, smSorted_filter w.2.2 _⟩
  · exact ((State.logErr_changes _ _).widen rfl).step (State.bootFail_changes _ _) rfl

theorem execBootReady_changes (s : State) :
    OutChanges [.regs, .fabric] s (execBootReady s) := by
  unfold execBootReady
  dsimp only
  refine OutChanges.ite ?_ ?_
  · refine OutChanges.next ?_
    exact Changes.refl _ _
  · refine OutChanges.next ?_
    refine Changes.iteThen ?_ ?_
    · refine Changes.step ?_ (State.put_changes _ _ _ _) rfl
      refine Changes.step ?_ (State.setPhase_changes _ _) rfl
      exact Changes.refl _ _
    · refine Changes.step ?_ (State.startDiscovery_changes _) rfl
      exact Changes.refl _ _

theorem State.trip_changes (s : State) (src : Nat) :
    Changes [.regs, .mem, .ecc, .reaches, .die, .cores, .locks, .mesh, .holds, .fabric, .host, .engine, .weights, .power, .toll, .idle, .diag, .ibis, .outs] s (s.trip src) := by
  unfold State.trip
  dsimp only
  refine Changes.record ?_ (by intro p; cases p <;> first | exact .inl rfl | exact .inr ⟨rfl, rfl⟩ | exact .inr (by dsimp only [Part.same]))
  refine Changes.foldl ?_ (fun _ _ => ?_)
  · refine Changes.step ?_ (State.goDead_changes _) rfl
    refine Changes.step ?_ (State.put_changes _ _ _ _) rfl
    refine Changes.step ?_ (State.put_changes _ _ _ _) rfl
    refine Changes.step ?_ (State.logErr_changes _ _) rfl
    exact Changes.refl _ _
  · refine Changes.ite ?_ ?_
    · refine Changes.step ?_ (State.setEn_changes _ _ _) rfl
      exact Changes.refl _ _
    · exact Changes.refl _ _

theorem State.holdSample_changes (s : State) (h t : Nat) :
    Changes [.regs, .holds] s (s.holdSample h t) := by
  unfold State.holdSample
  refine Changes.step ?_ (State.put_changes _ _ _ _) rfl
  refine Changes.step ?_ (State.holdTemp_changes _ _ _) rfl
  exact Changes.refl _ _

theorem execHoldTempUpdate_changes (h : Fin 2) (tempC : Byte) (s : State) :
    OutChanges [.regs, .mem, .ecc, .reaches, .die, .cores, .locks, .mesh, .holds, .fabric, .host, .engine, .weights, .power, .toll, .idle, .diag, .ibis, .outs] s (execHoldTempUpdate h tempC s) := by
  unfold execHoldTempUpdate
  refine OutChanges.ite ?_ ?_
  · refine OutChanges.next ?_
    exact Changes.refl _ _
  · dsimp only
    refine OutChanges.next ?_
    refine Changes.iteThen ?_ ?_
    · refine Changes.step ?_ (State.holdSample_changes _ _ _) rfl
      exact Changes.refl _ _
    · refine Changes.step ?_ (State.trip_changes _ _) rfl
      exact Changes.refl _ _

theorem execThermalSample_changes (die hold0 hold1 toll : Byte) (s : State) :
    OutChanges [.regs, .mem, .ecc, .reaches, .die, .cores, .locks, .mesh, .holds, .fabric, .host, .engine, .weights, .power, .toll, .idle, .diag, .ibis, .outs] s (execThermalSample die hold0 hold1 toll s) := by
  unfold execThermalSample
  dsimp only
  refine OutChanges.ite ?_ ?_
  · refine OutChanges.next ?_
    refine Changes.step ?_ (State.trip_changes _ _) rfl
    refine Changes.ite ?_ ?_
    · refine Changes.step ?_ (State.holdSample_changes _ _ _) rfl
      refine Changes.step ?_ (State.holdSample_changes _ _ _) rfl
      refine Changes.step ?_ (State.hwPut_changes _ _ _ _) rfl
      refine Changes.step ?_ (State.put_changes _ _ _ _) rfl
      refine Changes.step ?_ (State.put_changes _ _ _ _) rfl
      exact Changes.refl _ _
    · refine Changes.step ?_ (State.put_changes _ _ _ _) rfl
      refine Changes.step ?_ (State.put_changes _ _ _ _) rfl
      refine Changes.step ?_ (State.hwPut_changes _ _ _ _) rfl
      refine Changes.step ?_ (State.put_changes _ _ _ _) rfl
      refine Changes.step ?_ (State.put_changes _ _ _ _) rfl
      exact Changes.refl _ _
  · refine OutChanges.ite ?_ ?_
    · refine OutChanges.next ?_
      refine Changes.step ?_ (State.trip_changes _ _) rfl
      refine Changes.ite ?_ ?_
      · refine Changes.step ?_ (State.holdSample_changes _ _ _) rfl
        refine Changes.step ?_ (State.holdSample_changes _ _ _) rfl
        refine Changes.step ?_ (State.hwPut_changes _ _ _ _) rfl
        refine Changes.step ?_ (State.put_changes _ _ _ _) rfl
        refine Changes.step ?_ (State.put_changes _ _ _ _) rfl
        exact Changes.refl _ _
      · refine Changes.step ?_ (State.put_changes _ _ _ _) rfl
        refine Changes.step ?_ (State.put_changes _ _ _ _) rfl
        refine Changes.step ?_ (State.hwPut_changes _ _ _ _) rfl
        refine Changes.step ?_ (State.put_changes _ _ _ _) rfl
        refine Changes.step ?_ (State.put_changes _ _ _ _) rfl
        exact Changes.refl _ _
    · refine OutChanges.ite ?_ ?_
      · refine OutChanges.next ?_
        refine Changes.step ?_ (State.trip_changes _ _) rfl
        refine Changes.ite ?_ ?_
        · refine Changes.step ?_ (State.holdSample_changes _ _ _) rfl
          refine Changes.step ?_ (State.holdSample_changes _ _ _) rfl
          refine Changes.step ?_ (State.hwPut_changes _ _ _ _) rfl
          refine Changes.step ?_ (State.put_changes _ _ _ _) rfl
          refine Changes.step ?_ (State.put_changes _ _ _ _) rfl
          exact Changes.refl _ _
        · refine Changes.step ?_ (State.put_changes _ _ _ _) rfl
          refine Changes.step ?_ (State.put_changes _ _ _ _) rfl
          refine Changes.step ?_ (State.hwPut_changes _ _ _ _) rfl
          refine Changes.step ?_ (State.put_changes _ _ _ _) rfl
          refine Changes.step ?_ (State.put_changes _ _ _ _) rfl
          exact Changes.refl _ _
      · refine OutChanges.next ?_
        refine Changes.ite ?_ ?_
        · refine Changes.step ?_ (State.holdSample_changes _ _ _) rfl
          refine Changes.step ?_ (State.holdSample_changes _ _ _) rfl
          refine Changes.step ?_ (State.hwPut_changes _ _ _ _) rfl
          refine Changes.step ?_ (State.put_changes _ _ _ _) rfl
          refine Changes.step ?_ (State.put_changes _ _ _ _) rfl
          exact Changes.refl _ _
        · refine Changes.step ?_ (State.put_changes _ _ _ _) rfl
          refine Changes.step ?_ (State.put_changes _ _ _ _) rfl
          refine Changes.step ?_ (State.hwPut_changes _ _ _ _) rfl
          refine Changes.step ?_ (State.put_changes _ _ _ _) rfl
          refine Changes.step ?_ (State.put_changes _ _ _ _) rfl
          exact Changes.refl _ _

theorem execPostTripDelay_changes (s : State) : OutChanges [.now, .regs, .die, .fabric, .toll] s (execPostTripDelay s) := by
  have h : ∀ u : State, Changes [.now, .regs, .die, .fabric, .toll] u (({ u with toll := { u.toll with tripped := false } }).setPhase 4) := fun u =>
    Changes.step (Changes.record (Changes.refl _ u)
      (by intro p; cases p <;> first | exact .inl rfl | exact .inr (by dsimp only [Part.same]))) (State.setPhase_changes _ _) rfl
  unfold execPostTripDelay
  exact OutChanges.ite (OutChanges.next (Changes.refl _ _))
    (OutChanges.next (((State.advanceTo_changes s _).widen rfl).trans (h _)))

theorem State.clockLost_changes (s : State) (l : Nat) :
    Changes [.regs, .cores, .mesh, .fabric, .toll, .idle, .diag, .ibis, .outs] s (s.clockLost l) := by
  unfold State.clockLost
  split
  · refine Changes.ite ?_ ?_
    · refine Changes.step ?_ (State.portLost_changes _ _ _) rfl
      exact Changes.refl _ _
    · refine Changes.step ?_ (State.laneLost_changes _ _) rfl
      exact Changes.refl _ _
  · exact Changes.refl _ _

theorem execTrefclkLoss_changes (s : State) :
    OutChanges [.regs, .cores, .mesh, .fabric, .toll, .idle, .diag, .ibis, .outs] s (execTrefclkLoss s) := by
  unfold execTrefclkLoss
  dsimp only
  refine OutChanges.ite ?_ ?_
  · refine OutChanges.next ?_
    refine Changes.record ?_ (by intro p; cases p <;> first | exact .inl rfl | exact .inr ⟨rfl, rfl⟩ | exact .inr (by dsimp only [Part.same]))
    exact Changes.refl _ _
  · refine OutChanges.next ?_
    refine Changes.iteElse ?_ ?_
    · refine Changes.foldl ?_ (fun _ _ => ?_)
      · refine Changes.record ?_ (by intro p; cases p <;> first | exact .inl rfl | exact .inr ⟨rfl, rfl⟩ | exact .inr (by dsimp only [Part.same]))
        exact Changes.refl _ _
      · refine Changes.step ?_ (State.clockLost_changes _ _) rfl
        exact Changes.refl _ _
    · refine Changes.step ?_ (State.logErr_changes _ _) rfl
      refine Changes.record ?_ (by intro p; cases p <;> first | exact .inl rfl | exact .inr ⟨rfl, rfl⟩ | exact .inr (by dsimp only [Part.same]))
      refine Changes.step ?_ (State.put_changes _ _ _ _) rfl
      exact Changes.refl _ _

theorem execErefclkLoss_changes (s : State) :
    OutChanges [.regs, .mesh, .host, .toll, .idle, .diag, .ibis, .outs] s (execErefclkLoss s) := by
  unfold execErefclkLoss
  dsimp only
  refine OutChanges.next ?_
  refine Changes.iteThen ?_ ?_
  · refine Changes.record ?_ (by intro p; cases p <;> first | exact .inl rfl | exact .inr ⟨rfl, rfl⟩ | exact .inr (by dsimp only [Part.same]))
    exact Changes.refl _ _
  · refine Changes.foldl ?_ (fun _ _ => ?_)
    · exact Changes.refl _ _
    · refine Changes.step ?_ (State.dropLink_changes _ _) rfl
      exact Changes.refl _ _

theorem State.enterBecalmed_changes (s : State) :
    Changes [.regs, .mem, .ecc, .reaches, .die, .cores, .locks, .mesh, .holds, .fabric, .host, .engine, .weights, .power, .toll, .idle, .diag] s (s.enterBecalmed) := by
  unfold State.enterBecalmed
  dsimp only
  refine Changes.record ?_ (by intro p; cases p <;> first | exact .inl rfl | exact .inr ⟨rfl, rfl⟩ | exact .inr (by dsimp only [Part.same]))
  refine Changes.step ?_ (State.unpower_changes _) rfl
  exact Changes.refl _ _

theorem execIdleEntry_changes (s : State) :
    OutChanges [.now, .regs, .mem, .ecc, .reaches, .die, .cores, .locks, .mesh, .holds, .fabric, .host, .engine, .weights, .power, .toll, .idle, .diag, .ibis, .outs] s (execIdleEntry s) := by
  unfold execIdleEntry
  refine OutChanges.ite ?_ ?_
  · refine OutChanges.next ?_
    exact Changes.refl _ _
  · dsimp only
    split
    · refine OutChanges.next ?_
      refine Changes.step ?_ (State.noteQuiet_changes _) rfl
      exact Changes.refl _ _
    · refine OutChanges.ite ?_ ?_
      · refine OutChanges.next ?_
        refine Changes.step ?_ (State.noteQuiet_changes _) rfl
        exact Changes.refl _ _
      · refine OutChanges.next ?_
        refine Changes.ite ?_ ?_
        · refine Changes.step ?_ (State.enterBecalmed_changes _) rfl
          refine Changes.step ?_ (State.advanceTo_changes _ _) rfl
          refine Changes.step ?_ (State.noteQuiet_changes _) rfl
          exact Changes.refl _ _
        · refine Changes.step ?_ (State.tryIdle_changes _ _) rfl
          refine Changes.step ?_ (State.advanceTo_changes _ _) rfl
          refine Changes.step ?_ (State.noteQuiet_changes _) rfl
          exact Changes.refl _ _

theorem State.tapReset_changes (s : State) :
    Changes [.toll] s (s.tapReset) := by
  unfold State.tapReset
  refine Changes.record ?_ (by intro p; cases p <;> first | exact .inl rfl | exact .inr ⟨rfl, rfl⟩ | exact .inr (by dsimp only [Part.same]))
  exact Changes.refl _ _

theorem State.tapCapture_changes (s : State) :
    Changes [.free, .toll] s (s.tapCapture) := by
  unfold State.tapCapture
  dsimp only
  refine Changes.ite ?_ ?_
  · refine Changes.record ?_ (by intro p; cases p <;> first | exact .inl rfl | exact .inr ⟨rfl, rfl⟩ | exact .inr (by dsimp only [Part.same]))
    exact Changes.refl _ _
  · refine Changes.record ?_ (by intro p; cases p <;> first | exact .inl rfl | exact .inr ⟨rfl, rfl⟩ | exact .inr (by dsimp only [Part.same]))
    exact Changes.refl _ _

theorem State.tapUpdate_changes (s : State) :
    Changes [.toll] s (s.tapUpdate) := by
  unfold State.tapUpdate
  refine Changes.ite ?_ ?_
  · refine Changes.record ?_ (by intro p; cases p <;> first | exact .inl rfl | exact .inr ⟨rfl, rfl⟩ | exact .inr (by dsimp only [Part.same]))
    exact Changes.refl _ _
  · exact Changes.refl _ _

theorem State.tapShift_changes (s : State) (tdi : Bool) :
    Changes [.free, .toll, .outs] s (s.tapShift tdi) := by
  unfold State.tapShift
  split
  · dsimp only
    refine Changes.record ?_ (by intro p; cases p <;> first | exact .inl rfl | exact .inr ⟨rfl, rfl⟩ | exact .inr (by dsimp only [Part.same]))
    refine Changes.step ?_ (State.emit_changes _ _) rfl
    exact Changes.refl _ _
  · refine Changes.step ?_ (State.drawn_changes _) rfl
    refine Changes.step ?_ (State.emit_changes _ _) rfl
    exact Changes.refl _ _

theorem State.tapShiftIr_changes (s : State) (tdi : Bool) :
    Changes [.toll, .outs] s (s.tapShiftIr tdi) := by
  unfold State.tapShiftIr
  dsimp only
  refine Changes.record ?_ (by intro p; cases p <;> first | exact .inl rfl | exact .inr ⟨rfl, rfl⟩ | exact .inr (by dsimp only [Part.same]))
  refine Changes.step ?_ (State.emit_changes _ _) rfl
  exact Changes.refl _ _

theorem execJtagTck_changes (tms tdi : Bool) (s : State) :
    OutChanges [.free, .toll, .outs] s (execJtagTck tms tdi s) := by
  unfold execJtagTck
  dsimp only
  refine OutChanges.next ?_
  refine Changes.ite ?_ ?_
  · refine Changes.step ?_ (State.tapReset_changes _) rfl
    refine Changes.record ?_ (by intro p; cases p <;> first | exact .inl rfl | exact .inr ⟨rfl, rfl⟩ | exact .inr (by dsimp only [Part.same]))
    refine Changes.ite ?_ ?_
    · refine Changes.step ?_ (State.tapCapture_changes _) rfl
      exact Changes.refl _ _
    · refine Changes.ite ?_ ?_
      · refine Changes.step ?_ (State.tapShift_changes _ _) rfl
        exact Changes.refl _ _
      · refine Changes.ite ?_ ?_
        · refine Changes.record ?_ (by intro p; cases p <;> first | exact .inl rfl | exact .inr ⟨rfl, rfl⟩ | exact .inr (by dsimp only [Part.same]))
          exact Changes.refl _ _
        · refine Changes.ite ?_ ?_
          · refine Changes.step ?_ (State.tapShiftIr_changes _ _) rfl
            exact Changes.refl _ _
          · exact Changes.refl _ _
  · refine Changes.ite ?_ ?_
    · refine Changes.step ?_ (State.tapUpdate_changes _) rfl
      refine Changes.record ?_ (by intro p; cases p <;> first | exact .inl rfl | exact .inr ⟨rfl, rfl⟩ | exact .inr (by dsimp only [Part.same]))
      refine Changes.ite ?_ ?_
      · refine Changes.step ?_ (State.tapCapture_changes _) rfl
        exact Changes.refl _ _
      · refine Changes.ite ?_ ?_
        · refine Changes.step ?_ (State.tapShift_changes _ _) rfl
          exact Changes.refl _ _
        · refine Changes.ite ?_ ?_
          · refine Changes.record ?_ (by intro p; cases p <;> first | exact .inl rfl | exact .inr ⟨rfl, rfl⟩ | exact .inr (by dsimp only [Part.same]))
            exact Changes.refl _ _
          · refine Changes.ite ?_ ?_
            · refine Changes.step ?_ (State.tapShiftIr_changes _ _) rfl
              exact Changes.refl _ _
            · exact Changes.refl _ _
    · refine Changes.ite ?_ ?_
      · refine Changes.record ?_ (by intro p; cases p <;> first | exact .inl rfl | exact .inr ⟨rfl, rfl⟩ | exact .inr (by dsimp only [Part.same]))
        refine Changes.ite ?_ ?_
        · refine Changes.step ?_ (State.tapCapture_changes _) rfl
          exact Changes.refl _ _
        · refine Changes.ite ?_ ?_
          · refine Changes.step ?_ (State.tapShift_changes _ _) rfl
            exact Changes.refl _ _
          · refine Changes.ite ?_ ?_
            · refine Changes.record ?_ (by intro p; cases p <;> first | exact .inl rfl | exact .inr ⟨rfl, rfl⟩ | exact .inr (by dsimp only [Part.same]))
              exact Changes.refl _ _
            · refine Changes.ite ?_ ?_
              · refine Changes.step ?_ (State.tapShiftIr_changes _ _) rfl
                exact Changes.refl _ _
              · exact Changes.refl _ _
      · refine Changes.record ?_ (by intro p; cases p <;> first | exact .inl rfl | exact .inr ⟨rfl, rfl⟩ | exact .inr (by dsimp only [Part.same]))
        refine Changes.ite ?_ ?_
        · refine Changes.step ?_ (State.tapCapture_changes _) rfl
          exact Changes.refl _ _
        · refine Changes.ite ?_ ?_
          · refine Changes.step ?_ (State.tapShift_changes _ _) rfl
            exact Changes.refl _ _
          · refine Changes.ite ?_ ?_
            · refine Changes.record ?_ (by intro p; cases p <;> first | exact .inl rfl | exact .inr ⟨rfl, rfl⟩ | exact .inr (by dsimp only [Part.same]))
              exact Changes.refl _ _
            · refine Changes.ite ?_ ?_
              · refine Changes.step ?_ (State.tapShiftIr_changes _ _) rfl
                exact Changes.refl _ _
              · exact Changes.refl _ _

theorem execTrstNAssert_changes (s : State) :
    OutChanges [.toll] s (execTrstNAssert s) := by
  unfold execTrstNAssert
  refine OutChanges.next ?_
  refine Changes.step ?_ (State.tapReset_changes _) rfl
  exact Changes.refl _ _

/-! ### RegPath -/

theorem State.coreAccess_changes (s : State) (n a : Nat) (val : Option Word) (k : Asker) :
    Changes [.regs, .cores, .mesh, .host, .toll, .idle, .diag, .ibis, .outs] s (s.coreAccess n a val k) := by
  unfold State.coreAccess
  dsimp only
  refine Changes.ite ?_ ?_
  · refine Changes.step ?_ (State.answer_changes _ _ _ _) rfl
    refine Changes.step ?_ (State.refused3808_changes _ _) rfl
    exact Changes.refl _ _
  · refine Changes.step ?_ (State.setCore_changes _ _ _) rfl
    exact Changes.refl _ _

theorem State.writeDevReset_changes (s : State) (v : Word) :
    Changes [.regs, .mem, .ecc, .reaches, .die, .cores, .locks, .mesh, .fabric, .host, .toll, .idle, .diag, .ibis, .outs] s (s.writeDevReset v).1 := by
  unfold State.writeDevReset
  split
  refine Changes.iteFst ?_ ?_
  · refine Changes.mkFst ?_
    refine Changes.ofPair (by assumption) ?_
    refine Changes.iteFst ?_ ?_
    · refine Changes.step ?_ (State.fabReset_changes _) rfl
      exact Changes.refl _ _
    · refine Changes.mkFst ?_
      exact Changes.refl _ _
  · refine Changes.iteFst ?_ ?_
    · refine Changes.mkFst ?_
      refine Changes.step ?_ (State.ctxReset_changes _) rfl
      refine Changes.ofPair (by assumption) ?_
      refine Changes.iteFst ?_ ?_
      · refine Changes.step ?_ (State.fabReset_changes _) rfl
        exact Changes.refl _ _
      · refine Changes.mkFst ?_
        exact Changes.refl _ _
    · refine Changes.iteFst ?_ ?_
      · split
        refine Changes.mkFst ?_
        refine Changes.ofPair (by assumption) ?_
        refine Changes.step ?_ (State.reachReset_changes _ _) rfl
        refine Changes.ofPair (by assumption) ?_
        refine Changes.iteFst ?_ ?_
        · refine Changes.step ?_ (State.fabReset_changes _) rfl
          exact Changes.refl _ _
        · refine Changes.mkFst ?_
          exact Changes.refl _ _
      · refine Changes.mkFst ?_
        refine Changes.ofPair (by assumption) ?_
        refine Changes.iteFst ?_ ?_
        · refine Changes.step ?_ (State.fabReset_changes _) rfl
          exact Changes.refl _ _
        · refine Changes.mkFst ?_
          exact Changes.refl _ _

theorem State.writeTollCmd_changes (s : State) (v : Word) :
    Changes [.regs, .mem, .ecc, .reaches, .die, .cores, .locks, .mesh, .holds, .fabric, .host, .engine, .weights, .power, .toll, .idle, .diag, .ibiOn, .ibis] s (s.writeTollCmd v) := by
  unfold State.writeTollCmd
  refine Changes.ite ?_ ?_
  · refine Changes.step ?_ (State.tollReset_changes _) rfl
    exact Changes.refl _ _
  · refine Changes.ite ?_ ?_
    · refine Changes.step ?_ (State.devReset_changes _ _) rfl
      exact Changes.refl _ _
    · exact Changes.refl _ _

theorem State.writePace_changes (s : State) (a : Nat) (v : Word) :
    Changes [.regs, .mesh, .idle, .diag, .ibis, .outs] s (s.writePace a v).1 := by
  unfold State.writePace
  refine Changes.iteFst ?_ ?_
  · refine Changes.mkFst ?_
    refine Changes.step ?_ (State.writeOpsel_changes _ _ _) rfl
    exact Changes.refl _ _
  · refine Changes.iteFst ?_ ?_
    · refine Changes.mkFst ?_
      refine Changes.step ?_ (State.writeVaneThresh_changes _ _) rfl
      exact Changes.refl _ _
    · refine Changes.mkFst ?_
      refine Changes.step ?_ (State.plainWrite_changes _ _ _) rfl
      exact Changes.refl _ _

theorem State.writeWeir_changes (s : State) (a : Nat) (v : Word) :
    Changes [.regs, .mesh, .idle, .diag, .ibis, .outs] s (s.writeWeir a v).1 := by
  unfold State.writeWeir
  refine Changes.iteFst ?_ ?_
  · refine Changes.step ?_ (State.writeWeirLimit_changes _ _ _) rfl
    exact Changes.refl _ _
  · refine Changes.iteFst ?_ ?_
    · refine Changes.step ?_ (State.writeWeirWindow_changes _ _) rfl
      exact Changes.refl _ _
    · refine Changes.mkFst ?_
      refine Changes.step ?_ (State.plainWrite_changes _ _ _) rfl
      exact Changes.refl _ _

theorem State.writeEngy_changes (s : State) (a : Nat) (v : Word) :
    Changes [.regs, .mesh, .idle, .diag, .ibis, .outs] s (s.writeEngy a v).1 := by
  unfold State.writeEngy
  refine Changes.iteFst ?_ ?_
  · refine Changes.mkFst ?_
    refine Changes.step ?_ (State.groupAdd_changes _ _) rfl
    exact Changes.refl _ _
  · refine Changes.iteFst ?_ ?_
    · refine Changes.step ?_ (State.writeTbase_changes _ _) rfl
      exact Changes.refl _ _
    · refine Changes.mkFst ?_
      refine Changes.step ?_ (State.plainWrite_changes _ _ _) rfl
      exact Changes.refl _ _

theorem State.writeLock_changes (s : State) (a : Nat) (v : Word) : Changes [.regs, .locks, .mesh, .idle, .diag, .ibis, .outs] s (s.writeLock a v).1 := by
  unfold State.writeLock
  extract_lets o i r armed others
  clear_value o
  refine Changes.iteFst (Changes.mkFst ((State.writeSlotMask_changes _ _ _ _).widen rfl)) (Changes.iteFst (Changes.mkFst ?_) ?_)
  · exact (State.writeSlotCtrl_changes _ _ _).widen rfl
  · exact Changes.mkFst ((State.plainWrite_changes _ _ _).widen rfl)

theorem State.writeHoldReg_changes (s : State) (a : Nat) (v : Word) :
    Changes [.regs, .holds] s (s.writeHoldReg a v) := by
  unfold State.writeHoldReg
  refine Changes.ite ?_ ?_
  · refine Changes.step ?_ (State.writeHoldCtrl_changes _ _ _) rfl
    exact Changes.refl _ _
  · refine Changes.ite ?_ ?_
    · refine Changes.step ?_ (State.writeHoldCtrl_changes _ _ _) rfl
      exact Changes.refl _ _
    · refine Changes.step ?_ (State.plainWrite_changes _ _ _) rfl
      exact Changes.refl _ _

theorem State.writeTowl_changes (s : State) (a : Nat) (v : Word) : Changes [.regs, .cores, .mesh, .fabric, .toll, .idle, .diag, .ibis, .outs] s (s.writeTowl a v).1 := by
  unfold State.writeTowl
  extract_lets o
  clear_value o
  exact Changes.iteFst (Changes.mkFst ((State.writeLaneCtrl_changes _ _ _).widen rfl))
    (Changes.iteFst ((State.writePortMap_changes _ _ _).widen rfl) (Changes.mkFst ((State.plainWrite_changes _ _ _).widen rfl)))

theorem State.writeEvq_changes (s : State) (v : Word) :
    Changes [.regs, .fabric] s (s.writeEvq v) := by
  unfold State.writeEvq
  dsimp only
  refine Changes.iteThen ?_ ?_
  · refine Changes.step ?_ (State.plainWrite_changes _ _ _) rfl
    exact Changes.refl _ _
  · refine Changes.step ?_ (State.evqPush_changes _ _) rfl
    exact Changes.refl _ _

theorem State.writeFabric_changes (s : State) (a : Nat) (v : Word) :
    Changes [.regs, .mesh, .fabric, .idle, .diag, .ibis, .outs] s (s.writeFabric a v).1 := by
  unfold State.writeFabric
  refine Changes.iteFst ?_ ?_
  · refine Changes.mkFst ?_
    refine Changes.step ?_ (State.writeEvq_changes _ _) rfl
    exact Changes.refl _ _
  · split
    · refine Changes.step ?_ (State.writeFerry_changes _ _ _) rfl
      exact Changes.refl _ _
    · refine Changes.step ?_ (State.writeFabr_changes _ _ _) rfl
      exact Changes.refl _ _

theorem State.writeEnet_changes (s : State) (a : Nat) (v : Word) :
    Changes [.regs, .mesh, .host, .idle, .diag, .ibis, .outs] s (s.writeEnet a v).1 := by
  unfold State.writeEnet
  dsimp only
  refine Changes.iteFst ?_ ?_
  · refine Changes.step ?_ (State.writePortCtrl_changes _ _ _) rfl
    exact Changes.refl _ _
  · refine Changes.iteFst ?_ ?_
    · refine Changes.step ?_ (State.writePortCtrl_changes _ _ _) rfl
      exact Changes.refl _ _
    · refine Changes.iteFst ?_ ?_
      · refine Changes.step ?_ (State.writeIf_changes _ _ _ _) rfl
        exact Changes.refl _ _
      · refine Changes.iteFst ?_ ?_
        · refine Changes.step ?_ (State.refuse3A06_changes _ _) rfl
          exact Changes.refl _ _
        · refine Changes.mkFst ?_
          refine Changes.step ?_ (State.plainWrite_changes _ _ _) rfl
          exact Changes.refl _ _

theorem State.writeStrm_changes (s : State) (a : Nat) (v : Word) :
    Changes [.regs, .mesh, .idle, .diag, .ibis, .outs] s (s.writeStrm a v).1 := by
  unfold State.writeStrm
  refine Changes.iteFst ?_ ?_
  · refine Changes.step ?_ (State.refuse3A06_changes _ _) rfl
    exact Changes.refl _ _
  · refine Changes.mkFst ?_
    refine Changes.step ?_ (State.plainWrite_changes _ _ _) rfl
    exact Changes.refl _ _

theorem State.addJob_changes (s : State) (kind : JobKind) (sess seq handle : Nat) (req : List Byte) (chips : List Nat) (todo : List Access) (keep : List Nat) :
    Changes [.host] s (s.addJob kind sess seq handle req chips todo keep) := by
  unfold State.addJob
  dsimp only
  refine Changes.record ?_ (by intro p; cases p <;> first | exact .inl rfl | exact .inr ⟨rfl, rfl⟩ | exact .inr (by dsimp only [Part.same]))
  exact Changes.refl _ _

theorem State.startAbort_changes (s : State) (also : List Nat) :
    Changes [.regs, .locks, .mesh, .host, .engine, .idle, .diag, .ibis, .outs] s (s.startAbort also).1 := by
  unfold State.startAbort
  split
  · refine Changes.mkFst ?_
    exact Changes.refl _ _
  · refine Changes.iteFst ?_ ?_
    · refine Changes.mkFst ?_
      exact Changes.refl _ _
    · dsimp only
      refine Changes.step ?_ (State.addJob_changes _ _ _ _ _ _ _ _ _) rfl
      refine Changes.step ?_ (State.logErr_changes _ _) rfl
      refine Changes.record ?_ (by intro p; cases p <;> first | exact .inl rfl | exact .inr ⟨rfl, rfl⟩ | exact .inr (by dsimp only [Part.same]))
      refine Changes.step ?_ (State.modEngine_changes _ _) rfl
      exact Changes.refl _ _

theorem State.writeSwapArm_changes (s : State) (v : Word) :
    Changes [.regs, .locks, .mesh, .host, .engine, .idle, .diag, .ibis, .outs] s (s.writeSwapArm v).1 := by
  unfold State.writeSwapArm
  split
  refine Changes.mkFst ?_
  refine Changes.iteElse ?_ ?_
  · refine Changes.ofPair (by assumption) ?_
    refine Changes.step ?_ (State.writeArm_changes _ _) rfl
    exact Changes.refl _ _
  · refine Changes.step ?_ (State.startAbort_changes _ _) rfl
    exact Changes.refl _ _

theorem State.writeWswp_changes (s : State) (a : Nat) (v : Word) :
    Changes [.regs, .locks, .mesh, .host, .engine, .weights, .idle, .diag, .ibis, .outs] s (s.writeWswp a v).1 := by
  unfold State.writeWswp
  refine Changes.iteFst ?_ ?_
  · refine Changes.step ?_ (State.writeSwapArm_changes _ _) rfl
    exact Changes.refl _ _
  · refine Changes.iteFst ?_ ?_
    · refine Changes.step ?_ (State.writeWswpCtrl_changes _ _) rfl
      exact Changes.refl _ _
    · refine Changes.iteFst ?_ ?_
      · refine Changes.step ?_ (State.writeWeightReg_changes _ _ _) rfl
        exact Changes.refl _ _
      · refine Changes.mkFst ?_
        refine Changes.step ?_ (State.plainWrite_changes _ _ _) rfl
        exact Changes.refl _ _

theorem State.writeSnapReg_changes (s : State) (a : Nat) (v : Word) :
    Changes [.regs, .mesh, .idle, .diag, .ibis, .outs] s (s.writeSnapReg a v).1 := by
  unfold State.writeSnapReg
  refine Changes.iteFst ?_ ?_
  · refine Changes.step ?_ (State.writeSnapArm_changes _ _) rfl
    exact Changes.refl _ _
  · refine Changes.iteFst ?_ ?_
    · refine Changes.step ?_ (State.writeSnap_changes _ _ _) rfl
      exact Changes.refl _ _
    · refine Changes.mkFst ?_
      refine Changes.step ?_ (State.plainWrite_changes _ _ _) rfl
      exact Changes.refl _ _

theorem State.writeIdle_changes (s : State) (a : Nat) (v : Word) :
    Changes [.regs, .mesh, .idle, .diag, .ibis, .outs] s (s.writeIdle a v).1 := by
  unfold State.writeIdle
  refine Changes.iteFst ?_ ?_
  · refine Changes.mkFst ?_
    refine Changes.step ?_ (State.writeBudget_changes _ _) rfl
    exact Changes.refl _ _
  · refine Changes.iteFst ?_ ?_
    · refine Changes.mkFst ?_
      refine Changes.ite ?_ ?_
      · refine Changes.step ?_ (State.wakeOn_changes _ _) rfl
        exact Changes.refl _ _
      · exact Changes.refl _ _
    · refine Changes.iteFst ?_ ?_
      · refine Changes.step ?_ (State.writeIdleCtrl_changes _ _) rfl
        exact Changes.refl _ _
      · refine Changes.iteFst ?_ ?_
        · refine Changes.mkFst ?_
          refine Changes.step ?_ (State.writeOpset_changes _ _) rfl
          exact Changes.refl _ _
        · refine Changes.mkFst ?_
          refine Changes.step ?_ (State.plainWrite_changes _ _ _) rfl
          exact Changes.refl _ _

theorem State.writeBlock_changes (s : State) (chip a : Nat) (v : Word) :
    Changes [.regs, .mem, .ecc, .reaches, .die, .cores, .locks, .mesh, .holds, .fabric, .host, .engine, .weights, .power, .toll, .idle, .diag, .ibiOn, .ibis, .outs] s (s.writeBlock chip a v).1 := by
  unfold State.writeBlock
  split
  · refine Changes.iteFst ?_ ?_
    · refine Changes.step ?_ (State.writeDevReset_changes _ _) rfl
      exact Changes.refl _ _
    · refine Changes.mkFst ?_
      refine Changes.step ?_ (State.plainWrite_changes _ _ _) rfl
      exact Changes.refl _ _
  · refine Changes.iteFst ?_ ?_
    · refine Changes.mkFst ?_
      refine Changes.step ?_ (State.writeTollCmd_changes _ _) rfl
      exact Changes.refl _ _
    · refine Changes.mkFst ?_
      refine Changes.step ?_ (State.plainWrite_changes _ _ _) rfl
      exact Changes.refl _ _
  · refine Changes.step ?_ (State.writePace_changes _ _ _) rfl
    exact Changes.refl _ _
  · refine Changes.step ?_ (State.writeWeir_changes _ _ _) rfl
    exact Changes.refl _ _
  · refine Changes.step ?_ (State.writeEngy_changes _ _ _) rfl
    exact Changes.refl _ _
  · refine Changes.step ?_ (State.writeLock_changes _ _ _) rfl
    exact Changes.refl _ _
  · refine Changes.iteFst ?_ ?_
    · refine Changes.step ?_ (State.writeMeshMode_changes _ _) rfl
      exact Changes.refl _ _
    · refine Changes.mkFst ?_
      refine Changes.step ?_ (State.plainWrite_changes _ _ _) rfl
      exact Changes.refl _ _
  · refine Changes.mkFst ?_
    refine Changes.step ?_ (State.writeHoldReg_changes _ _ _) rfl
    exact Changes.refl _ _
  · refine Changes.step ?_ (State.writeTowl_changes _ _ _) rfl
    exact Changes.refl _ _
  · refine Changes.step ?_ (State.writeFabric_changes _ _ _) rfl
    exact Changes.refl _ _
  · refine Changes.step ?_ (State.writeEnet_changes _ _ _) rfl
    exact Changes.refl _ _
  · refine Changes.step ?_ (State.writeLedg_changes _ _ _) rfl
    exact Changes.refl _ _
  · refine Changes.step ?_ (State.writeStrm_changes _ _ _) rfl
    exact Changes.refl _ _
  · refine Changes.step ?_ (State.writeWswp_changes _ _ _) rfl
    exact Changes.refl _ _
  · refine Changes.step ?_ (State.writeSnapReg_changes _ _ _) rfl
    exact Changes.refl _ _
  · split
    · refine Changes.mkFst ?_
      refine Changes.step ?_ (State.writeErrsFwd_changes _ _ _ _) rfl
      exact Changes.refl _ _
    · refine Changes.mkFst ?_
      refine Changes.step ?_ (State.plainWrite_changes _ _ _) rfl
      exact Changes.refl _ _
  · refine Changes.step ?_ (State.writeDtrm_changes _ _ _) rfl
    exact Changes.refl _ _
  · refine Changes.iteFst ?_ ?_
    · refine Changes.step ?_ (State.writeTestReq_changes _ _) rfl
      exact Changes.refl _ _
    · refine Changes.mkFst ?_
      refine Changes.step ?_ (State.plainWrite_changes _ _ _) rfl
      exact Changes.refl _ _
  · refine Changes.step ?_ (State.writeIdle_changes _ _ _) rfl
    exact Changes.refl _ _
  · refine Changes.mkFst ?_
    refine Changes.step ?_ (State.plainWrite_changes _ _ _) rfl
    exact Changes.refl _ _

theorem State.wakeFor_changes (s : State) (a : Nat) :
    Changes [.regs, .idle] s (s.wakeFor a) := by
  unfold State.wakeFor
  refine Changes.ite ?_ ?_
  · refine Changes.step ?_ (State.wakeOn_changes _ _) rfl
    exact Changes.refl _ _
  · split
    · refine Changes.step ?_ (State.wakeForHold_changes _) rfl
      exact Changes.refl _ _
    · exact Changes.refl _ _

theorem State.fencedAccess_changes (s : State) (n a : Nat) :
    Changes [.regs, .mesh, .idle, .diag, .ibis, .outs] s (s.fencedAccess n a) := by
  unfold State.fencedAccess
  refine Changes.step ?_ (State.logErr_changes _ _) rfl
  exact Changes.refl _ _

theorem State.localRead_changes (s : State) (a : Nat) (k : Asker) :
    Changes [.regs, .cores, .mesh, .holds, .fabric, .host, .toll, .idle, .diag, .ibis, .outs] s (s.localRead a k) := by
  unfold State.localRead
  refine Changes.ite ?_ ?_
  · refine Changes.step ?_ (State.answer_changes _ _ _ _) rfl
    exact Changes.refl _ _
  · dsimp only
    refine Changes.ite ?_ ?_
    · refine Changes.ite ?_ ?_
      · refine Changes.step ?_ (State.answer_changes _ _ _ _) rfl
        refine Changes.step ?_ (State.fencedAccess_changes _ _ _) rfl
        refine Changes.step ?_ (State.wakeFor_changes _ _) rfl
        exact Changes.refl _ _
      · refine Changes.ite ?_ ?_
        · refine Changes.step ?_ (State.answer_changes _ _ _ _) rfl
          refine Changes.step ?_ (State.wakeFor_changes _ _) rfl
          exact Changes.refl _ _
        · refine Changes.step ?_ (State.coreAccess_changes _ _ _ _ _) rfl
          refine Changes.step ?_ (State.wakeFor_changes _ _) rfl
          exact Changes.refl _ _
    · refine Changes.ite ?_ ?_
      · refine Changes.ite ?_ ?_
        · refine Changes.step ?_ (State.answer_changes _ _ _ _) rfl
          refine Changes.step ?_ (State.readEvq_changes _) rfl
          refine Changes.step ?_ (State.wakeFor_changes _ _) rfl
          exact Changes.refl _ _
        · refine Changes.ite ?_ ?_
          · refine Changes.step ?_ (State.answer_changes _ _ _ _) rfl
            refine Changes.step ?_ (State.wakeFor_changes _ _) rfl
            exact Changes.refl _ _
          · refine Changes.ite ?_ ?_
            · refine Changes.step ?_ (State.answer_changes _ _ _ _) rfl
              refine Changes.step ?_ (State.wakeFor_changes _ _) rfl
              exact Changes.refl _ _
            · refine Changes.step ?_ (State.answer_changes _ _ _ _) rfl
              refine Changes.step ?_ (State.wakeFor_changes _ _) rfl
              exact Changes.refl _ _
      · refine Changes.ite ?_ ?_
        · refine Changes.step ?_ (State.answer_changes _ _ _ _) rfl
          refine Changes.step ?_ (State.wakeFor_changes _ _) rfl
          exact Changes.refl _ _
        · refine Changes.ite ?_ ?_
          · refine Changes.step ?_ (State.holdPath_changes _ _ _ _) rfl
            refine Changes.step ?_ (State.wakeFor_changes _ _) rfl
            exact Changes.refl _ _
          · refine Changes.step ?_ (State.answer_changes _ _ _ _) rfl
            refine Changes.step ?_ (State.wakeFor_changes _ _) rfl
            exact Changes.refl _ _

theorem State.localWrite_changes (s : State) (chip a : Nat) (v : Word) (k : Asker) :
    Changes [.regs, .mem, .ecc, .reaches, .die, .cores, .locks, .mesh, .holds, .fabric, .host, .engine, .weights, .power, .toll, .idle, .diag, .ibiOn, .ibis, .outs] s (s.localWrite chip a v k) := by
  unfold State.localWrite
  refine Changes.ite ?_ ?_
  · refine Changes.step ?_ (State.answer_changes _ _ _ _) rfl
    exact Changes.refl _ _
  · dsimp only
    refine Changes.ite ?_ ?_
    · refine Changes.ite ?_ ?_
      · refine Changes.step ?_ (State.answer_changes _ _ _ _) rfl
        refine Changes.step ?_ (State.fencedAccess_changes _ _ _) rfl
        refine Changes.step ?_ (State.wakeFor_changes _ _) rfl
        exact Changes.refl _ _
      · refine Changes.ite ?_ ?_
        · refine Changes.step ?_ (State.answer_changes _ _ _ _) rfl
          refine Changes.step ?_ (State.writeCoreReg_changes _ _ _ _) rfl
          refine Changes.step ?_ (State.wakeFor_changes _ _) rfl
          exact Changes.refl _ _
        · refine Changes.step ?_ (State.coreAccess_changes _ _ _ _ _) rfl
          refine Changes.step ?_ (State.wakeFor_changes _ _) rfl
          exact Changes.refl _ _
    · refine Changes.ite ?_ ?_
      · refine Changes.step ?_ (State.answer_changes _ _ _ _) rfl
        refine Changes.step ?_ (State.writeBlock_changes _ _ _ _) rfl
        refine Changes.step ?_ (State.wakeFor_changes _ _) rfl
        exact Changes.refl _ _
      · refine Changes.ite ?_ ?_
        · refine Changes.step ?_ (State.answer_changes _ _ _ _) rfl
          refine Changes.step ?_ (State.writeTable_changes _ _ _) rfl
          refine Changes.step ?_ (State.wakeFor_changes _ _) rfl
          exact Changes.refl _ _
        · refine Changes.step ?_ (State.holdPath_changes _ _ _ _) rfl
          refine Changes.step ?_ (State.wakeFor_changes _ _) rfl
          exact Changes.refl _ _

theorem State.askReg_changes (s : State) (chip addr : Nat) (v : Word) (op asker : Nat) :
    Changes [.regs, .mesh, .idle, .diag, .ibis, .outs] s (s.askReg chip addr v op asker) := by
  unfold State.askReg
  dsimp only
  refine Changes.step ?_ (State.sendOut_changes _ _ _) rfl
  exact Changes.refl _ _

theorem State.orderWord_changes (s : State) (chip i : Nat) (v : Word) :
    Changes [.regs, .cores, .mesh, .toll, .idle, .diag, .ibis, .outs] s (s.orderWord chip i v).1 := by
  unfold State.orderWord
  dsimp only
  refine Changes.iteFst ?_ ?_
  · refine Changes.mkFst ?_
    refine Changes.record ?_ (by intro p; cases p <;> first | exact .inl rfl | exact .inr ⟨rfl, rfl⟩ | exact .inr (by dsimp only [Part.same]))
    exact Changes.refl _ _
  · refine Changes.mkFst ?_
    refine Changes.step ?_ (State.orderIn_changes _ _ _ _) rfl
    refine Changes.record ?_ (by intro p; cases p <;> first | exact .inl rfl | exact .inr ⟨rfl, rfl⟩ | exact .inr (by dsimp only [Part.same]))
    exact Changes.refl _ _

theorem State.fireHost_changes (s : State) :
    Changes [.regs, .idle, .diag] s (s.fireHost) := by
  unfold State.fireHost
  refine Changes.step ?_ (State.lateTrigger_changes _ _) rfl
  exact Changes.refl _ _

theorem State.regReply_changes (s : State) (b : Barge) :
    Changes [.regs, .mesh, .host, .toll, .idle, .diag, .ibis, .outs] s (s.regReply b) := by
  unfold State.regReply
  dsimp only
  refine Changes.ite ?_ ?_
  · refine Changes.step ?_ (State.answer_changes _ _ _ _) rfl
    exact Changes.refl _ _
  · refine Changes.record ?_ (by intro p; cases p <;> first | exact .inl rfl | exact .inr ⟨rfl, rfl⟩ | exact .inr (by dsimp only [Part.same]))
    exact Changes.refl _ _

theorem State.fireIn_changes (s : State) (b : Barge) :
    Changes [.regs, .mesh, .idle, .diag, .ibis, .outs] s (s.fireIn b) := by
  unfold State.fireIn
  refine Changes.ite ?_ ?_
  · refine Changes.step ?_ (State.answerReg_changes _ _ _ _) rfl
    refine Changes.step ?_ (State.fireHost_changes _) rfl
    exact Changes.refl _ _
  · refine Changes.step ?_ (State.answerReg_changes _ _ _ _) rfl
    exact Changes.refl _ _

theorem State.orderPart_changes (s : State) (chip : Nat) (b : Barge) :
    Changes [.regs, .cores, .mesh, .toll, .idle, .diag, .ibis, .outs] s (s.orderPart chip b) := by
  unfold State.orderPart
  refine Changes.ite ?_ ?_
  · dsimp only
    refine Changes.step ?_ (State.answerReg_changes _ _ _ _) rfl
    refine Changes.step ?_ (State.orderWord_changes _ _ _ _) rfl
    exact Changes.refl _ _
  · refine Changes.step ?_ (State.answerReg_changes _ _ _ _) rfl
    exact Changes.refl _ _

theorem State.regIn_changes (s : State) (b : Barge) :
    Changes [.regs, .mem, .ecc, .reaches, .die, .cores, .locks, .mesh, .holds, .fabric, .host, .engine, .weights, .power, .toll, .idle, .diag, .ibiOn, .ibis, .outs] s (s.regIn b) := by
  unfold State.regIn
  dsimp only
  refine Changes.ite ?_ ?_
  · exact Changes.refl _ _
  · refine Changes.ite ?_ ?_
    · refine Changes.step ?_ (State.localRead_changes _ _ _) rfl
      exact Changes.refl _ _
    · refine Changes.ite ?_ ?_
      · refine Changes.ite ?_ ?_
        · refine Changes.step ?_ (State.localWrite_changes _ _ _ _ _) rfl
          exact Changes.refl _ _
        · refine Changes.step ?_ (State.answerReg_changes _ _ _ _) rfl
          exact Changes.refl _ _
      · refine Changes.ite ?_ ?_
        · refine Changes.step ?_ (State.regReply_changes _ _) rfl
          exact Changes.refl _ _
        · refine Changes.ite ?_ ?_
          · refine Changes.step ?_ (State.fireIn_changes _ _) rfl
            exact Changes.refl _ _
          · refine Changes.ite ?_ ?_
            · refine Changes.step ?_ (State.orderPart_changes _ _ _) rfl
              exact Changes.refl _ _
            · exact Changes.refl _ _

theorem State.serveAsk_changes (s : State) (x : RegAsk) :
    Changes [.regs, .mem, .ecc, .reaches, .die, .cores, .locks, .mesh, .holds, .fabric, .host, .engine, .weights, .power, .toll, .idle, .diag, .ibiOn, .ibis, .outs] s (s.serveAsk x) := by
  unfold State.serveAsk
  split
  · split
    · refine Changes.step ?_ (State.localWrite_changes _ _ _ _ _) rfl
      exact Changes.refl _ _
    · refine Changes.step ?_ (State.localRead_changes _ _ _) rfl
      exact Changes.refl _ _
  · refine Changes.step ?_ (State.regIn_changes _ _) rfl
    exact Changes.refl _ _

theorem State.serveRegs_changes (s : State) :
    Changes [.regs, .mem, .ecc, .reaches, .die, .cores, .locks, .mesh, .holds, .fabric, .host, .engine, .weights, .power, .toll, .idle, .diag, .ibiOn, .ibis, .outs] s (s.serveRegs) := by
  unfold State.serveRegs
  refine Changes.foldl ?_ (fun _ _ => ?_)
  · refine Changes.record ?_ (by intro p; cases p <;> first | exact .inl rfl | exact .inr ⟨rfl, rfl⟩ | exact .inr (by dsimp only [Part.same]))
    exact Changes.refl _ _
  · refine Changes.step ?_ (State.serveAsk_changes _ _) rfl
    exact Changes.refl _ _

theorem State.regAsk_changes (s : State) (rank : Nat) (ask : RegAsk) :
    Changes [.regs, .mem, .ecc, .reaches, .die, .cores, .locks, .mesh, .holds, .fabric, .host, .engine, .weights, .power, .toll, .idle, .diag, .ibiOn, .ibis, .outs] s (s.regAsk rank ask) := by
  unfold State.regAsk
  dsimp only
  refine Changes.step ?_ (State.serveRegs_changes _) rfl
  refine Changes.record ?_ (by intro p; cases p <;> first | exact .inl rfl | exact .inr ⟨rfl, rfl⟩ | exact .inr (by dsimp only [Part.same]))
  exact Changes.refl _ _

theorem State.ownWrite_changes (s : State) (a : Nat) (v : Word) (k : Asker) :
    Changes [.regs, .mem, .ecc, .reaches, .die, .cores, .locks, .mesh, .holds, .fabric, .host, .engine, .weights, .power, .toll, .idle, .diag, .ibiOn, .ibis, .outs] s (s.ownWrite a v k) := by
  unfold State.ownWrite
  refine Changes.step ?_ (State.regAsk_changes _ _ _) rfl
  exact Changes.refl _ _

theorem State.regArrive_changes (s : State) (b : Barge) :
    Changes [.regs, .mem, .ecc, .reaches, .die, .cores, .locks, .mesh, .holds, .fabric, .host, .engine, .weights, .power, .toll, .idle, .diag, .ibiOn, .ibis, .outs] s (s.regArrive b) := by
  unfold State.regArrive
  refine Changes.ite ?_ ?_
  · refine Changes.step ?_ (State.regReply_changes _ _) rfl
    exact Changes.refl _ _
  · refine Changes.step ?_ (State.regAsk_changes _ _ _) rfl
    exact Changes.refl _ _

theorem execRegBarge_changes (s : State) :
    OutChanges [.regs, .mem, .ecc, .reaches, .die, .cores, .locks, .mesh, .holds, .fabric, .host, .engine, .weights, .power, .toll, .idle, .diag, .ibiOn, .ibis, .outs] s (execRegBarge s) := by
  unfold execRegBarge
  split
  · refine OutChanges.next ?_
    exact Changes.refl _ _
  · refine OutChanges.next ?_
    refine Changes.step ?_ (State.regArrive_changes _ _) rfl
    refine Changes.step ?_ (State.takeArrival_some (by assumption)) rfl
    exact Changes.refl _ _

theorem State.switchPins_changes (s : State) :
    Changes [.regs, .mem, .ecc, .cores, .mesh, .holds, .host, .engine, .idle, .diag, .ibis, .outs] s (s.switchPins) := by
  unfold State.switchPins
  refine Changes.ite ?_ ?_
  · exact Changes.refl _ _
  · refine Changes.step ?_ (State.recountPins_changes _) rfl
    exact Changes.refl _ _

theorem execBeatToken_changes (r : Fin 16) (codes : List Byte) (s : State) :
    OutChanges [.now, .regs, .mem, .ecc, .reaches, .die, .cores, .locks, .mesh, .holds, .fabric, .host, .engine, .weights, .power, .toll, .idle, .diag, .ibiOn, .ibis, .outs] s (execBeatToken r codes s) := by
  unfold execBeatToken
  refine OutChanges.next ?_
  refine Changes.step ?_ (State.paceWork_changes _) rfl
  refine Changes.step ?_ (State.noteQuiet_changes _) rfl
  refine Changes.step ?_ (State.serveRegs_changes _) rfl
  refine Changes.step ?_ (State.switchPins_changes _) rfl
  refine Changes.step ?_ (State.token_changes _ _ _) rfl
  exact Changes.refl _ _

theorem execRegisterWrite_changes (a : BitVec 48) (v : Word) (s : State) :
    OutChanges [.regs, .mem, .ecc, .reaches, .die, .cores, .locks, .mesh, .holds, .fabric, .host, .engine, .weights, .power, .toll, .idle, .diag, .ibiOn, .ibis, .outs] s (execRegisterWrite a v s) := by
  unfold execRegisterWrite
  refine OutChanges.next ?_
  refine Changes.step ?_ (State.ownWrite_changes _ _ _ _) rfl
  exact Changes.refl _ _

theorem execBerthConfigWrite_changes (core : Fin 256) (n : Fin 16) (v : Word) (s : State) :
    OutChanges [.regs, .mem, .ecc, .reaches, .die, .cores, .locks, .mesh, .holds, .fabric, .host, .engine, .weights, .power, .toll, .idle, .diag, .ibiOn, .ibis, .outs] s (execBerthConfigWrite core n v s) := by
  unfold execBerthConfigWrite
  refine OutChanges.next ?_
  refine Changes.step ?_ (State.ownWrite_changes _ _ _ _) rfl
  exact Changes.refl _ _

theorem execBerthGrant_changes (core : Fin 256) (n : Fin 16) (v : Word) (s : State) :
    OutChanges [.regs, .mem, .ecc, .reaches, .die, .cores, .locks, .mesh, .holds, .fabric, .host, .engine, .weights, .power, .toll, .idle, .diag, .ibiOn, .ibis, .outs] s (execBerthGrant core n v s) := by
  unfold execBerthGrant
  refine OutChanges.next ?_
  refine Changes.step ?_ (State.ownWrite_changes _ _ _ _) rfl
  exact Changes.refl _ _

theorem State.i3cDone_changes (s : State) (st : Nat) (d : Word) :
    Changes [.toll] s (s.i3cDone st d) := by
  unfold State.i3cDone
  refine Changes.record ?_ (by intro p; cases p <;> first | exact .inl rfl | exact .inr ⟨rfl, rfl⟩ | exact .inr (by dsimp only [Part.same]))
  exact Changes.refl _ _

theorem State.i3cBegin_changes (s : State) (far : Bool) :
    Changes [.toll] s (s.i3cBegin far) := by
  unfold State.i3cBegin
  refine Changes.record ?_ (by intro p; cases p <;> first | exact .inl rfl | exact .inr ⟨rfl, rfl⟩ | exact .inr (by dsimp only [Part.same]))
  exact Changes.refl _ _

theorem State.i3cAccess_changes (s : State) (cmd chip addr : Nat) (v : Word) :
    Changes [.regs, .mem, .ecc, .reaches, .die, .cores, .locks, .mesh, .holds, .fabric, .host, .engine, .weights, .power, .toll, .idle, .diag, .ibiOn, .ibis, .outs] s (s.i3cAccess cmd chip addr v) := by
  unfold State.i3cAccess
  refine Changes.ite ?_ ?_
  · refine Changes.step ?_ (State.i3cDone_changes _ _ _) rfl
    exact Changes.refl _ _
  · refine Changes.ite ?_ ?_
    · dsimp only
      refine Changes.step ?_ (State.regAsk_changes _ _ _) rfl
      refine Changes.step ?_ (State.i3cBegin_changes _ _) rfl
      exact Changes.refl _ _
    · refine Changes.ite ?_ ?_
      · refine Changes.step ?_ (State.i3cDone_changes _ _ _) rfl
        exact Changes.refl _ _
      · refine Changes.ite ?_ ?_
        · refine Changes.step ?_ (State.i3cDone_changes _ _ _) rfl
          refine Changes.step ?_ (State.logErr_changes _ _) rfl
          exact Changes.refl _ _
        · dsimp only
          refine Changes.iteThen ?_ ?_
          · refine Changes.step ?_ (State.askReg_changes _ _ _ _ _ _) rfl
            refine Changes.step ?_ (State.i3cBegin_changes _ _) rfl
            exact Changes.refl _ _
          · refine Changes.step ?_ (State.startAbort_changes _ _) rfl
            exact Changes.refl _ _

theorem execI3cPrivateWrite_changes (bytes : List Byte) (s : State) :
    OutChanges [.regs, .mem, .ecc, .reaches, .die, .cores, .locks, .mesh, .holds, .fabric, .host, .engine, .weights, .power, .toll, .idle, .diag, .ibiOn, .ibis, .outs] s (execI3cPrivateWrite bytes s) := by
  unfold execI3cPrivateWrite
  dsimp only
  refine OutChanges.ite ?_ ?_
  · refine OutChanges.next ?_
    refine Changes.step ?_ (State.emit_changes _ _) rfl
    exact Changes.refl _ _
  · refine OutChanges.ite ?_ ?_
    · refine OutChanges.next ?_
      refine Changes.step ?_ (State.emit_changes _ _) rfl
      refine Changes.step ?_ (State.i3cDone_changes _ _ _) rfl
      exact Changes.refl _ _
    · refine OutChanges.next ?_
      refine Changes.step ?_ (State.emit_changes _ _) rfl
      refine Changes.step ?_ (State.i3cAccess_changes _ _ _ _ _) rfl
      exact Changes.refl _ _

theorem State.i3cExpire_changes (s : State) :
    Changes [.toll] s (s.i3cExpire) := by
  unfold State.i3cExpire
  refine Changes.ite ?_ ?_
  · refine Changes.step ?_ (State.i3cDone_changes _ _ _) rfl
    exact Changes.refl _ _
  · exact Changes.refl _ _

theorem execI3cPrivateRead_changes (s : State) :
    OutChanges [.toll, .outs] s (execI3cPrivateRead s) := by
  unfold execI3cPrivateRead
  dsimp only
  refine OutChanges.ite ?_ ?_
  · refine OutChanges.next ?_
    refine Changes.step ?_ (State.emit_changes _ _) rfl
    refine Changes.step ?_ (State.i3cExpire_changes _) rfl
    exact Changes.refl _ _
  · split
    · refine OutChanges.next ?_
      refine Changes.step ?_ (State.emit_changes _ _) rfl
      refine Changes.step ?_ (State.i3cExpire_changes _) rfl
      exact Changes.refl _ _
    · refine OutChanges.next ?_
      refine Changes.step ?_ (State.emit_changes _ _) rfl
      refine Changes.step ?_ (State.i3cExpire_changes _) rfl
      exact Changes.refl _ _

theorem execEntdaa_changes (dyn : BitVec 7) (s : State) :
    OutChanges [.toll, .outs] s (execEntdaa dyn s) := by
  unfold execEntdaa
  refine OutChanges.ite ?_ ?_
  · refine OutChanges.next ?_
    refine Changes.step ?_ (State.emit_changes _ _) rfl
    exact Changes.refl _ _
  · refine OutChanges.next ?_
    refine Changes.step ?_ (State.emit_changes _ _) rfl
    refine Changes.record ?_ (by intro p; cases p <;> first | exact .inl rfl | exact .inr ⟨rfl, rfl⟩ | exact .inr (by dsimp only [Part.same]))
    exact Changes.refl _ _

theorem execSetdasa_changes (stat dyn : BitVec 7) (s : State) :
    OutChanges [.toll, .outs] s (execSetdasa stat dyn s) := by
  unfold execSetdasa
  refine OutChanges.ite ?_ ?_
  · refine OutChanges.next ?_
    refine Changes.step ?_ (State.emit_changes _ _) rfl
    exact Changes.refl _ _
  · refine OutChanges.next ?_
    refine Changes.step ?_ (State.emit_changes _ _) rfl
    refine Changes.record ?_ (by intro p; cases p <;> first | exact .inl rfl | exact .inr ⟨rfl, rfl⟩ | exact .inr (by dsimp only [Part.same]))
    exact Changes.refl _ _

theorem execEnec_changes (s : State) :
    OutChanges [.ibiOn] s (execEnec s) := by
  unfold execEnec
  refine OutChanges.next ?_
  refine Changes.record ?_ (by intro p; cases p <;> first | exact .inl rfl | exact .inr ⟨rfl, rfl⟩ | exact .inr (by dsimp only [Part.same]))
  exact Changes.refl _ _

theorem execDisec_changes (s : State) :
    OutChanges [.ibiOn] s (execDisec s) := by
  unfold execDisec
  refine OutChanges.next ?_
  refine Changes.record ?_ (by intro p; cases p <;> first | exact .inl rfl | exact .inr ⟨rfl, rfl⟩ | exact .inr (by dsimp only [Part.same]))
  exact Changes.refl _ _

/-! ### Jobs -/

theorem State.clearAns_changes (s : State) (id : Nat) :
    Changes [.host] s (s.clearAns id) := by
  unfold State.clearAns
  dsimp only
  refine Changes.record ?_ (by intro p; cases p <;> first | exact .inl rfl | exact .inr ⟨rfl, rfl⟩ | exact .inr (by dsimp only [Part.same]))
  exact Changes.refl _ _

theorem State.runLocal_changes (s : State) (id : Nat) (x : Access) :
    Changes [.regs, .mem, .ecc, .reaches, .die, .cores, .locks, .mesh, .holds, .fabric, .host, .engine, .weights, .power, .toll, .idle, .diag, .ibiOn, .ibis, .outs] s (s.runLocal id x).1 := by
  unfold State.runLocal
  refine Changes.iteFst ?_ ?_
  · refine Changes.mkFst ?_
    refine Changes.step ?_ (State.fireHost_changes _) rfl
    exact Changes.refl _ _
  · dsimp only
    refine Changes.step ?_ (State.clearAns_changes _ _) rfl
    refine Changes.step ?_ (State.regAsk_changes _ _ _) rfl
    refine Changes.step ?_ (State.clearAns_changes _ _) rfl
    exact Changes.refl _ _

theorem State.runAccesses_changes (s : State) (id : Nat) (l : List Access) (d : List (Access × Nat × Word)) :
    Changes [.regs, .mem, .ecc, .reaches, .die, .cores, .locks, .mesh, .holds, .fabric, .host, .engine, .weights, .power, .toll, .idle, .diag, .ibiOn, .ibis, .outs] s (s.runAccesses id l d).1 := by
  induction l generalizing s d with
  | nil => exact Changes.refl _ _
  | cons x l ih =>
    unfold State.runAccesses
    refine Changes.iteFst ?_ ?_
    · split
      · refine Changes.mkFst ?_
        refine Changes.ofPair (by assumption) ?_
        refine Changes.step ?_ (State.runLocal_changes _ _ _) rfl
        exact Changes.refl _ _
      · refine Changes.iteFst ?_ ?_
        · refine Changes.mkFst ?_
          refine Changes.ofPair (by assumption) ?_
          refine Changes.step ?_ (State.runLocal_changes _ _ _) rfl
          exact Changes.refl _ _
        · refine Changes.trans ?_ (ih _ _)
          refine Changes.ofPair (by assumption) ?_
          refine Changes.step ?_ (State.runLocal_changes _ _ _) rfl
          exact Changes.refl _ _
    · refine Changes.iteFst ?_ ?_
      · refine Changes.trans ?_ (ih _ _)
        exact Changes.refl _ _
      · refine Changes.iteFst ?_ ?_
        · refine Changes.trans ?_ (ih _ _)
          refine Changes.step ?_ (State.logErr_changes _ _) rfl
          exact Changes.refl _ _
        · refine Changes.mkFst ?_
          refine Changes.step ?_ (State.askReg_changes _ _ _ _ _ _) rfl
          exact Changes.refl _ _

theorem State.setJob_changes (s : State) (j : Job) :
    Changes [.host] s (s.setJob j) := by
  unfold State.setJob
  refine Changes.record ?_ (by intro p; cases p <;> first | exact .inl rfl | exact .inr ⟨rfl, rfl⟩ | exact .inr (by dsimp only [Part.same]))
  exact Changes.refl _ _

theorem State.goOn_changes (s : State) (j : Job) :
    Changes [.regs, .mem, .ecc, .reaches, .die, .cores, .locks, .mesh, .holds, .fabric, .host, .engine, .weights, .power, .toll, .idle, .diag, .ibiOn, .ibis, .outs] s (s.goOn j).1 := by
  unfold State.goOn
  dsimp only
  split
  · refine Changes.iteFst ?_ ?_
    · refine Changes.mkFst ?_
      refine Changes.step ?_ (State.runAccesses_changes _ _ _ _) rfl
      exact Changes.refl _ _
    · refine Changes.mkFst ?_
      refine Changes.step ?_ (State.runAccesses_changes _ _ _ _) rfl
      exact Changes.refl _ _
  · refine Changes.iteFst ?_ ?_
    · refine Changes.mkFst ?_
      refine Changes.step ?_ (State.runAccesses_changes _ _ _ _) rfl
      exact Changes.refl _ _
    · refine Changes.mkFst ?_
      exact Changes.refl _ _
  · refine Changes.mkFst ?_
    refine Changes.step ?_ (State.runAccesses_changes _ _ _ _) rfl
    exact Changes.refl _ _
  · refine Changes.mkFst ?_
    exact Changes.refl _ _

theorem State.respond_changes (s : State) (j : Job) (ty status : Nat) (payload : List Byte) :
    Changes [.regs, .mem, .ecc, .cores, .mesh, .holds, .host, .idle, .diag, .ibis, .outs] s (s.respond j ty status payload) := by
  unfold State.respond
  refine Changes.step ?_ (State.sendMsg_changes _ _ _ _ _ _ _ _ _) rfl
  exact Changes.refl _ _

theorem State.respondParts_changes (s : State) (sess seq handle ty status unit : Nat) (payload : List Byte) :
    Changes [.regs, .mem, .ecc, .cores, .mesh, .holds, .host, .idle, .diag, .ibis, .outs] s (s.respondParts sess seq handle ty status unit payload) := by
  unfold State.respondParts
  dsimp only
  refine Changes.foldl ?_ (fun _ _ => ?_)
  · exact Changes.refl _ _
  · refine Changes.step ?_ (State.sendMsg_changes _ _ _ _ _ _ _ _ _) rfl
    exact Changes.refl _ _

theorem State.freeBytes_changes (s : State) (n : Nat) :
    Changes [.free] s (s.freeBytes n).1 := by
  unfold State.freeBytes
  refine Changes.mkFst ?_
  refine Changes.record ?_ (by intro p; cases p <;> first | exact .inl rfl | exact .inr ⟨rfl, rfl⟩ | exact .inr (by dsimp only [Part.same]))
  exact Changes.refl _ _

theorem State.attestOther_changes (s : State) (j : Job) (chip : Nat) :
    Changes [.free, .regs, .mem, .ecc, .cores, .mesh, .holds, .host, .idle, .diag, .ibis, .outs] s (s.attestOther j chip) := by
  unfold State.attestOther
  dsimp only
  refine Changes.ite ?_ ?_
  · refine Changes.step ?_ (State.respondParts_changes _ _ _ _ _ _ _ _) rfl
    refine Changes.step ?_ (State.freeBytes_changes _ _) rfl
    exact Changes.refl _ _
  · refine Changes.step ?_ (State.respondParts_changes _ _ _ _ _ _ _ _) rfl
    refine Changes.step ?_ (State.freeBytes_changes _ _) rfl
    exact Changes.refl _ _

theorem State.orderPhase_changes (s : State) (j : Job) :
    Changes [.regs, .mem, .ecc, .cores, .mesh, .holds, .host, .idle, .diag, .ibis, .outs] s (s.orderPhase j).1 := by
  unfold State.orderPhase
  refine Changes.iteFst ?_ ?_
  · split
    · refine Changes.mkFst ?_
      exact Changes.refl _ _
    · split
      refine Changes.mkFst ?_
      refine Changes.step ?_ (State.respond_changes _ _ _ _ _) rfl
      refine Changes.ofPair (by assumption) ?_
      refine Changes.step ?_ (State.orderIn_changes _ _ _ _) rfl
      exact Changes.refl _ _
  · dsimp only
    refine Changes.step ?_ (State.respond_changes _ _ _ _ _) rfl
    exact Changes.refl _ _

theorem State.armPhase_changes (s : State) (j : Job) :
    Changes [.regs, .mem, .ecc, .cores, .mesh, .holds, .host, .engine, .idle, .diag, .ibis, .outs] s (s.armPhase j).1 := by
  unfold State.armPhase
  dsimp only
  refine Changes.iteFst ?_ ?_
  · split
    · refine Changes.mkFst ?_
      refine Changes.step ?_ (State.respond_changes _ _ _ _ _) rfl
      refine Changes.step ?_ (State.logErr_changes _ _) rfl
      exact Changes.refl _ _
    · refine Changes.iteFst ?_ ?_
      · refine Changes.mkFst ?_
        exact Changes.refl _ _
      · refine Changes.mkFst ?_
        exact Changes.refl _ _
  · refine Changes.iteFst ?_ ?_
    · split
      · refine Changes.mkFst ?_
        refine Changes.step ?_ (State.respond_changes _ _ _ _ _) rfl
        refine Changes.step ?_ (State.logErr_changes _ _) rfl
        exact Changes.refl _ _
      · refine Changes.mkFst ?_
        exact Changes.refl _ _
    · refine Changes.iteFst ?_ ?_
      · split
        · refine Changes.mkFst ?_
          exact Changes.refl _ _
        · refine Changes.mkFst ?_
          refine Changes.step ?_ (State.modEngine_changes _ _) rfl
          exact Changes.refl _ _
      · refine Changes.mkFst ?_
        refine Changes.step ?_ (State.respond_changes _ _ _ _ _) rfl
        exact Changes.refl _ _

theorem State.readPkg_changes (s : State) (a len : Nat) :
    Changes [.regs, .mem, .ecc, .cores, .mesh, .holds, .fabric, .host, .engine, .weights, .toll, .idle, .diag, .ibis, .outs] s (s.readPkg a len).1 := by
  unfold State.readPkg
  dsimp only
  refine Changes.step ?_ (State.useTables_changes _ _) rfl
  exact Changes.refl _ _

theorem State.loadResult_changes (s : State) (j : Job) (code detail chip : Nat) (log : Bool) :
    Changes [.regs, .mem, .ecc, .cores, .mesh, .holds, .host, .idle, .diag, .ibis, .outs] s (s.loadResult j code detail chip log) := by
  unfold State.loadResult
  dsimp only
  refine Changes.step ?_ (State.respond_changes _ _ _ _ _) rfl
  refine Changes.ite ?_ ?_
  · refine Changes.step ?_ (State.logErr_changes _ _) rfl
    exact Changes.refl _ _
  · exact Changes.refl _ _

theorem State.loadUndo_changes (s : State) (j : Job) (code detail chip : Nat) (log : Bool) :
    Changes [.regs, .mesh, .idle, .diag, .ibis, .outs] s (s.loadUndo j code detail chip log).1 := by
  unfold State.loadUndo
  dsimp only
  refine Changes.ite ?_ ?_
  · refine Changes.step ?_ (State.logErr_changes _ _) rfl
    exact Changes.refl _ _
  · exact Changes.refl _ _

theorem State.loadPhase_changes (s : State) (j : Job) :
    Changes [.regs, .mem, .ecc, .cores, .locks, .mesh, .holds, .fabric, .host, .engine, .weights, .toll, .idle, .diag, .ibis, .outs] s (s.loadPhase j).1 := by
  unfold State.loadPhase
  dsimp only
  refine Changes.iteFst ?_ ?_
  · refine Changes.iteFst ?_ ?_
    · refine Changes.mkFst ?_
      refine Changes.step ?_ (State.loadResult_changes _ _ _ _ _ _) rfl
      exact Changes.refl _ _
    · refine Changes.iteFst ?_ ?_
      · refine Changes.mkFst ?_
        refine Changes.step ?_ (State.loadResult_changes _ _ _ _ _ _) rfl
        refine Changes.step ?_ (State.readPkg_changes _ _ _) rfl
        exact Changes.refl _ _
      · refine Changes.mkFst ?_
        refine Changes.step ?_ (State.readPkg_changes _ _ _) rfl
        exact Changes.refl _ _
  · refine Changes.iteFst ?_ ?_
    · split
      · refine Changes.mkFst ?_
        refine Changes.step ?_ (State.loadResult_changes _ _ _ _ _ _) rfl
        exact Changes.refl _ _
      · split
        · refine Changes.mkFst ?_
          refine Changes.step ?_ (State.loadResult_changes _ _ _ _ _ _) rfl
          exact Changes.refl _ _
        · refine Changes.mkFst ?_
          exact Changes.refl _ _
    · refine Changes.iteFst ?_ ?_
      · split
        · refine Changes.mkFst ?_
          refine Changes.step ?_ (State.loadResult_changes _ _ _ _ _ _) rfl
          exact Changes.refl _ _
        · split
          · refine Changes.mkFst ?_
            refine Changes.step ?_ (State.loadResult_changes _ _ _ _ _ _) rfl
            exact Changes.refl _ _
          · refine Changes.mkFst ?_
            refine Changes.step ?_ (State.startAbort_changes _ _) rfl
            exact Changes.refl _ _
      · refine Changes.iteFst ?_ ?_
        · split
          · refine Changes.step ?_ (State.loadUndo_changes _ _ _ _ _ _) rfl
            exact Changes.refl _ _
          · refine Changes.mkFst ?_
            exact Changes.refl _ _
        · refine Changes.iteFst ?_ ?_
          · split
            · refine Changes.step ?_ (State.loadUndo_changes _ _ _ _ _ _) rfl
              exact Changes.refl _ _
            · refine Changes.mkFst ?_
              exact Changes.refl _ _
          · refine Changes.iteFst ?_ ?_
            · split
              · refine Changes.step ?_ (State.loadUndo_changes _ _ _ _ _ _) rfl
                exact Changes.refl _ _
              · refine Changes.mkFst ?_
                exact Changes.refl _ _
            · refine Changes.iteFst ?_ ?_
              · split
                · refine Changes.step ?_ (State.loadUndo_changes _ _ _ _ _ _) rfl
                  exact Changes.refl _ _
                · refine Changes.mkFst ?_
                  exact Changes.refl _ _
              · refine Changes.iteFst ?_ ?_
                · split
                  · refine Changes.step ?_ (State.loadUndo_changes _ _ _ _ _ _) rfl
                    exact Changes.refl _ _
                  · refine Changes.mkFst ?_
                    exact Changes.refl _ _
                · refine Changes.iteFst ?_ ?_
                  · split
                    · refine Changes.step ?_ (State.loadUndo_changes _ _ _ _ _ _) rfl
                      exact Changes.refl _ _
                    · refine Changes.iteFst ?_ ?_
                      · refine Changes.mkFst ?_
                        exact Changes.refl _ _
                      · refine Changes.mkFst ?_
                        exact Changes.refl _ _
                  · refine Changes.iteFst ?_ ?_
                    · split
                      · refine Changes.step ?_ (State.loadUndo_changes _ _ _ _ _ _) rfl
                        exact Changes.refl _ _
                      · refine Changes.step ?_ (State.loadUndo_changes _ _ _ _ _ _) rfl
                        exact Changes.refl _ _
                      · refine Changes.mkFst ?_
                        exact Changes.refl _ _
                    · refine Changes.iteFst ?_ ?_
                      · split
                        · refine Changes.step ?_ (State.loadUndo_changes _ _ _ _ _ _) rfl
                          exact Changes.refl _ _
                        · refine Changes.mkFst ?_
                          exact Changes.refl _ _
                      · refine Changes.iteFst ?_ ?_
                        · split
                          · refine Changes.step ?_ (State.loadUndo_changes _ _ _ _ _ _) rfl
                            exact Changes.refl _ _
                          · refine Changes.step ?_ (State.loadUndo_changes _ _ _ _ _ _) rfl
                            exact Changes.refl _ _
                          · refine Changes.mkFst ?_
                            exact Changes.refl _ _
                        · refine Changes.iteFst ?_ ?_
                          · split
                            · refine Changes.step ?_ (State.loadUndo_changes _ _ _ _ _ _) rfl
                              exact Changes.refl _ _
                            · refine Changes.mkFst ?_
                              refine Changes.step ?_ (State.loadResult_changes _ _ _ _ _ _) rfl
                              exact Changes.refl _ _
                          · refine Changes.iteFst ?_ ?_
                            · refine Changes.mkFst ?_
                              exact Changes.refl _ _
                            · refine Changes.mkFst ?_
                              refine Changes.step ?_ (State.loadResult_changes _ _ _ _ _ _) rfl
                              exact Changes.refl _ _

theorem State.discoverPhase_changes (s : State) (j : Job) :
    Changes [.fabric] s (s.discoverPhase j).1 := by
  unfold State.discoverPhase
  dsimp only
  refine Changes.iteFst ?_ ?_
  · refine Changes.mkFst ?_
    exact Changes.refl _ _
  · refine Changes.iteFst ?_ ?_
    · refine Changes.mkFst ?_
      exact Changes.refl _ _
    · refine Changes.iteFst ?_ ?_
      · refine Changes.iteFst ?_ ?_
        · refine Changes.mkFst ?_
          refine Changes.step ?_ (State.scoutDone_changes _) rfl
          refine Changes.step ?_ (State.addScouts_changes _ _) rfl
          exact Changes.refl _ _
        · refine Changes.mkFst ?_
          refine Changes.step ?_ (State.scoutDone_changes _) rfl
          refine Changes.step ?_ (State.addScouts_changes _ _) rfl
          exact Changes.refl _ _
      · refine Changes.mkFst ?_
        exact Changes.refl _ _

theorem State.assigned_changes (s : State) (x : Scout) (msg : ProbeReplyMsg) :
    Changes [.fabric, .host] s (s.assigned x msg) := by
  unfold State.assigned
  refine Changes.ite ?_ ?_
  · refine Changes.step ?_ (State.scoutDone_changes _) rfl
    exact Changes.refl _ _
  · dsimp only
    refine Changes.step ?_ (State.addJob_changes _ _ _ _ _ _ _ _ _) rfl
    refine Changes.record ?_ (by intro p; cases p <;> first | exact .inl rfl | exact .inr ⟨rfl, rfl⟩ | exact .inr (by dsimp only [Part.same]))
    exact Changes.refl _ _

theorem execProbeReply_changes (p : Fin 48) (msg : ProbeReplyMsg) (s : State) :
    OutChanges [.fabric, .host] s (execProbeReply p msg s) := by
  unfold execProbeReply
  refine OutChanges.ite ?_ ?_
  · split
    · refine OutChanges.next ?_
      refine Changes.ite ?_ ?_
      · refine Changes.step ?_ (State.identified_changes _ _ _) rfl
        exact Changes.refl _ _
      · refine Changes.step ?_ (State.assigned_changes _ _ _) rfl
        exact Changes.refl _ _
    · refine OutChanges.next ?_
      exact Changes.refl _ _
  · refine OutChanges.next ?_
    refine Changes.step ?_ (State.replyOn_changes _ _ _) rfl
    exact Changes.refl _ _

theorem State.phaseEnd_changes (s : State) (j : Job) :
    Changes [.free, .regs, .mem, .ecc, .cores, .locks, .mesh, .holds, .fabric, .host, .engine, .weights, .toll, .idle, .diag, .ibis, .outs] s (s.phaseEnd j).1 := by
  unfold State.phaseEnd
  split
  · dsimp only
    refine Changes.iteThen ?_ ?_
    · refine Changes.step ?_ (State.respond_changes _ _ _ _ _) rfl
      exact Changes.refl _ _
    · refine Changes.step ?_ (State.startAbort_changes _ _) rfl
      exact Changes.refl _ _
  · refine Changes.mkFst ?_
    refine Changes.step ?_ (State.respond_changes _ _ _ _ _) rfl
    exact Changes.refl _ _
  · dsimp only
    refine Changes.iteFst ?_ ?_
    · refine Changes.mkFst ?_
      refine Changes.step ?_ (State.respond_changes _ _ _ _ _) rfl
      exact Changes.refl _ _
    · refine Changes.mkFst ?_
      exact Changes.refl _ _
  · refine Changes.iteFst ?_ ?_
    · dsimp only
      exact Changes.refl _ _
    · refine Changes.mkFst ?_
      refine Changes.step ?_ (State.respondParts_changes _ _ _ _ _ _ _ _) rfl
      exact Changes.refl _ _
  · dsimp only
    split
    · refine Changes.mkFst ?_
      refine Changes.step ?_ (State.respond_changes _ _ _ _ _) rfl
      exact Changes.refl _ _
    · refine Changes.iteFst ?_ ?_
      · refine Changes.mkFst ?_
        exact Changes.refl _ _
      · refine Changes.mkFst ?_
        refine Changes.step ?_ (State.attestOther_changes _ _ _) rfl
        exact Changes.refl _ _
  · refine Changes.step ?_ (State.armPhase_changes _ _) rfl
    exact Changes.refl _ _
  · dsimp only
    split
    · refine Changes.mkFst ?_
      refine Changes.step ?_ (State.sendMsg_changes _ _ _ _ _ _ _ _ _) rfl
      refine Changes.step ?_ (State.respond_changes _ _ _ _ _) rfl
      exact Changes.refl _ _
    · refine Changes.mkFst ?_
      refine Changes.step ?_ (State.respond_changes _ _ _ _ _) rfl
      exact Changes.refl _ _
  · refine Changes.step ?_ (State.loadPhase_changes _ _) rfl
    exact Changes.refl _ _
  · refine Changes.iteFst ?_ ?_
    · refine Changes.mkFst ?_
      refine Changes.step ?_ (State.startAbort_changes _ _) rfl
      exact Changes.refl _ _
    · refine Changes.mkFst ?_
      refine Changes.step ?_ (State.respond_changes _ _ _ _ _) rfl
      exact Changes.refl _ _
  · refine Changes.mkFst ?_
    exact Changes.refl _ _
  · refine Changes.step ?_ (State.discoverPhase_changes _ _) rfl
    exact Changes.refl _ _
  · refine Changes.step ?_ (State.orderPhase_changes _ _) rfl
    exact Changes.refl _ _

theorem State.runJob_changes (s : State) (k : Nat) (j : Job) : Changes [.free, .regs, .mem, .ecc, .reaches, .die, .cores, .locks, .mesh, .holds, .fabric, .host, .engine, .weights, .power, .toll, .idle, .diag, .ibiOn, .ibis, .outs] s (s.runJob k j).1 := by
  induction k generalizing s j with
  | zero => exact Changes.refl _ _
  | succ k ih =>
    unfold State.runJob
    split
    refine Changes.iteFst ?_ ?_
    · split
      · refine Changes.mkFst ?_
        refine Changes.ofPair (by assumption) ?_
        refine Changes.step ?_ (State.phaseEnd_changes _ _) rfl
        refine Changes.ofPair (by assumption) ?_
        refine Changes.step ?_ (State.goOn_changes _ _) rfl
        exact Changes.refl _ _
      · refine Changes.trans ?_ (ih _ _)
        refine Changes.step ?_ (State.setJob_changes _ _) rfl
        refine Changes.ofPair (by assumption) ?_
        refine Changes.step ?_ (State.phaseEnd_changes _ _) rfl
        refine Changes.ofPair (by assumption) ?_
        refine Changes.step ?_ (State.goOn_changes _ _) rfl
        exact Changes.refl _ _
    · refine Changes.mkFst ?_
      refine Changes.ofPair (by assumption) ?_
      refine Changes.step ?_ (State.goOn_changes _ _) rfl
      exact Changes.refl _ _

theorem State.pump_changes (s : State) :
    Changes [.free, .regs, .mem, .ecc, .reaches, .die, .cores, .locks, .mesh, .holds, .fabric, .host, .engine, .weights, .power, .toll, .idle, .diag, .ibiOn, .ibis, .outs] s (s.pump) := by
  unfold State.pump
  refine Changes.ite ?_ ?_
  · exact Changes.refl _ _
  · refine Changes.foldl ?_ (fun _ _ => ?_)
    · exact Changes.refl _ _
    · split
      · exact Changes.refl _ _
      · refine Changes.ite ?_ ?_
        · exact Changes.refl _ _
        · split
          · refine Changes.step ?_ (State.setJob_changes _ _) rfl
            refine Changes.ofPair (by assumption) ?_
            refine Changes.step ?_ (State.runJob_changes _ _ _) rfl
            exact Changes.refl _ _
          · refine Changes.record ?_ (by intro p; cases p <;> first | exact .inl rfl | exact .inr ⟨rfl, rfl⟩ | exact .inr (by dsimp only [Part.same]))
            refine Changes.ofPair (by assumption) ?_
            refine Changes.step ?_ (State.runJob_changes _ _ _) rfl
            exact Changes.refl _ _

/-! ### Towpath -/

theorem State.refuseOpen_changes (s : State) (d : Datagram) (status : Nat) :
    Changes [.host, .outs] s (s.refuseOpen d status) := by
  unfold State.refuseOpen
  refine Changes.step ?_ (State.sendUdp_changes _ _ _ _ _) rfl
  exact Changes.refl _ _

theorem State.openIn_changes (s : State) (d : Datagram) :
    Changes [.regs, .mem, .ecc, .cores, .mesh, .holds, .host, .idle, .diag, .ibis, .outs] s (s.openIn d) := by
  unfold State.openIn
  dsimp only
  refine Changes.ite ?_ ?_
  · refine Changes.step ?_ (State.refuseOpen_changes _ _ _) rfl
    exact Changes.refl _ _
  · refine Changes.ite ?_ ?_
    · refine Changes.step ?_ (State.refuseOpen_changes _ _ _) rfl
      exact Changes.refl _ _
    · refine Changes.ite ?_ ?_
      · refine Changes.step ?_ (State.refuseOpen_changes _ _ _) rfl
        exact Changes.refl _ _
      · refine Changes.step ?_ (State.sendMsg_changes _ _ _ _ _ _ _ _ _) rfl
        refine Changes.step ?_ (State.countSessions_changes _) rfl
        refine Changes.step ?_ (State.setSess_changes _ _) rfl
        refine Changes.record ?_ (by intro p; cases p <;> first | exact .inl rfl | exact .inr ⟨rfl, rfl⟩ | exact .inr (by dsimp only [Part.same]))
        exact Changes.refl _ _

theorem State.endSession_changes (s : State) (id : Nat) :
    Changes [.regs, .mem, .ecc, .cores, .mesh, .host, .engine, .idle, .diag, .ibis, .outs] s (s.endSession id) := by
  unfold State.endSession
  refine Changes.step ?_ (State.dropSession_changes _ _) rfl
  refine Changes.step ?_ (State.cancelOwned_changes _ _) rfl
  exact Changes.refl _ _

theorem State.loseSession_changes (s : State) (id : Nat) :
    Changes [.regs, .mem, .ecc, .cores, .mesh, .host, .engine, .idle, .diag, .ibis, .outs] s (s.loseSession id) := by
  unfold State.loseSession
  refine Changes.step ?_ (State.logErr_changes _ _) rfl
  refine Changes.step ?_ (State.endSession_changes _ _) rfl
  exact Changes.refl _ _

theorem State.requestEffect_changes (s : State) (ty i : Nat) (p : List Byte) :
    Changes [.regs, .mem, .ecc, .cores, .mesh, .holds, .fabric, .host, .engine, .weights, .toll, .idle, .diag, .ibis, .outs] s (s.requestEffect ty i p).1 := by
  unfold State.requestEffect
  refine Changes.iteFst ?_ ?_
  · refine Changes.step ?_ (State.promptIn_changes _ _ _) rfl
    exact Changes.refl _ _
  · refine Changes.iteFst ?_ ?_
    · refine Changes.mkFst ?_
      refine Changes.step ?_ (State.cancelIn_changes _ _) rfl
      exact Changes.refl _ _
    · refine Changes.mkFst ?_
      exact Changes.refl _ _

theorem State.onRequest_changes (s : State) (id seq handle ty : Nat) (p : List Byte) :
    Changes [.regs, .mem, .ecc, .cores, .mesh, .holds, .fabric, .host, .engine, .weights, .toll, .idle, .diag, .ibis, .outs] s (s.onRequest id seq handle ty p) := by
  unfold State.onRequest
  split
  · refine Changes.step ?_ (State.sendMsg_changes _ _ _ _ _ _ _ _ _) rfl
    exact Changes.refl _ _
  · dsimp only
    refine Changes.step ?_ (State.sendMsg_changes _ _ _ _ _ _ _ _ _) rfl
    refine Changes.step ?_ (State.requestEffect_changes _ _ _ _) rfl
    exact Changes.refl _ _

theorem State.ringOpenIn_changes (s : State) (p : List Byte) :
    Changes [.regs, .mem, .ecc, .cores, .mesh, .holds, .fabric, .host, .engine, .weights, .toll, .idle, .diag, .ibis, .outs] s (s.ringOpenIn p).1 := by
  unfold State.ringOpenIn
  dsimp only
  split
  · refine Changes.mkFst ?_
    exact Changes.refl _ _
  · refine Changes.iteFst ?_ ?_
    · refine Changes.mkFst ?_
      exact Changes.refl _ _
    · refine Changes.iteFst ?_ ?_
      · refine Changes.mkFst ?_
        exact Changes.refl _ _
      · split
        · refine Changes.mkFst ?_
          refine Changes.step ?_ (State.logErr_changes _ _) rfl
          exact Changes.refl _ _
        · refine Changes.mkFst ?_
          refine Changes.step ?_ (State.put_changes _ _ _ _) rfl
          refine Changes.step ?_ (State.setLed_changes _ _ _ _) rfl
          refine Changes.step ?_ (State.setRing_changes _ _ _) rfl
          refine Changes.step ?_ (State.tableStore_changes _ _ _) rfl
          refine Changes.step ?_ (State.wakeForHold_changes _) rfl
          exact Changes.refl _ _

theorem State.setConsumed_changes (s : State) (i c : Nat) :
    Changes [.host] s (s.setConsumed i c) := by
  unfold State.setConsumed
  dsimp only
  split
  · exact Changes.refl _ _
  · refine Changes.ite ?_ ?_
    · refine Changes.step ?_ (State.setRing_changes _ _ _) rfl
      exact Changes.refl _ _
    · exact Changes.refl _ _

theorem State.creditIn_changes (s : State) (p : List Byte) :
    Changes [.host] s (s.creditIn p).1 := by
  unfold State.creditIn
  split
  · refine Changes.mkFst ?_
    exact Changes.refl _ _
  · refine Changes.mkFst ?_
    refine Changes.step ?_ (State.setConsumed_changes _ _ _) rfl
    exact Changes.refl _ _

theorem State.swapIn_changes (s : State) (id seq handle : Nat) (p : List Byte) :
    Changes [.regs, .mem, .ecc, .cores, .locks, .mesh, .holds, .host, .engine, .idle, .diag, .ibis, .outs] s (s.swapIn id seq handle p) := by
  unfold State.swapIn
  dsimp only
  refine Changes.ite ?_ ?_
  · refine Changes.ite ?_ ?_
    · refine Changes.step ?_ (State.sendMsg_changes _ _ _ _ _ _ _ _ _) rfl
      refine Changes.ite ?_ ?_
      · exact Changes.refl _ _
      · refine Changes.step ?_ (State.logErr_changes _ _) rfl
        exact Changes.refl _ _
    · refine Changes.step ?_ (State.addJob_changes _ _ _ _ _ _ _ _ _) rfl
      exact Changes.refl _ _
  · refine Changes.ite ?_ ?_
    · split
      · refine Changes.ofPair (by assumption) ?_
        refine Changes.step ?_ (State.startAbort_changes _ _) rfl
        exact Changes.refl _ _
      · refine Changes.step ?_ (State.sendMsg_changes _ _ _ _ _ _ _ _ _) rfl
        refine Changes.iteElse ?_ ?_
        · refine Changes.ofPair (by assumption) ?_
          refine Changes.step ?_ (State.startAbort_changes _ _) rfl
          exact Changes.refl _ _
        · refine Changes.step ?_ (State.logErr_changes _ _) rfl
          exact Changes.refl _ _
    · refine Changes.ite ?_ ?_
      · refine Changes.ite ?_ ?_
        · refine Changes.step ?_ (State.sendMsg_changes _ _ _ _ _ _ _ _ _) rfl
          refine Changes.iteElse ?_ ?_
          · refine Changes.step ?_ (State.recountPins_changes _) rfl
            exact Changes.refl _ _
          · refine Changes.step ?_ (State.logErr_changes _ _) rfl
            exact Changes.refl _ _
        · refine Changes.step ?_ (State.modEngine_changes _ _) rfl
          refine Changes.step ?_ (State.recountPins_changes _) rfl
          exact Changes.refl _ _
      · refine Changes.step ?_ (State.sendMsg_changes _ _ _ _ _ _ _ _ _) rfl
        refine Changes.ite ?_ ?_
        · exact Changes.refl _ _
        · refine Changes.step ?_ (State.logErr_changes _ _) rfl
          exact Changes.refl _ _

theorem State.orderMsg_changes (s : State) (id seq handle : Nat) (more : Bool) (p : List Byte) :
    Changes [.regs, .mem, .ecc, .cores, .mesh, .holds, .host, .idle, .diag, .ibis, .outs] s (s.orderMsg id seq handle more p) := by
  unfold State.orderMsg
  split
  · exact Changes.refl _ _
  · refine Changes.ite ?_ ?_
    · refine Changes.step ?_ (State.setSess_changes _ _) rfl
      exact Changes.refl _ _
    · dsimp only
      refine Changes.ite ?_ ?_
      · refine Changes.step ?_ (State.addJob_changes _ _ _ _ _ _ _ _ _) rfl
        refine Changes.step ?_ (State.setSess_changes _ _) rfl
        exact Changes.refl _ _
      · refine Changes.step ?_ (State.sendMsg_changes _ _ _ _ _ _ _ _ _) rfl
        refine Changes.step ?_ (State.orderIn_changes _ _ _ _) rfl
        refine Changes.step ?_ (State.setSess_changes _ _) rfl
        exact Changes.refl _ _

theorem State.attestIn_changes (s : State) (id seq handle : Nat) (p : List Byte) :
    Changes [.regs, .mem, .ecc, .cores, .mesh, .holds, .host, .idle, .diag, .ibis, .outs] s (s.attestIn id seq handle p) := by
  unfold State.attestIn
  dsimp only
  refine Changes.ite ?_ ?_
  · refine Changes.step ?_ (State.respondParts_changes _ _ _ _ _ _ _ _) rfl
    exact Changes.refl _ _
  · refine Changes.step ?_ (State.addJob_changes _ _ _ _ _ _ _ _ _) rfl
    exact Changes.refl _ _

theorem State.captureIn_changes (s : State) (id seq handle : Nat) (p : List Byte) :
    Changes [.regs, .mem, .ecc, .cores, .mesh, .holds, .host, .idle, .diag, .ibis, .outs] s (s.captureIn id seq handle p) := by
  unfold State.captureIn
  dsimp only
  refine Changes.ite ?_ ?_
  · refine Changes.step ?_ (State.addJob_changes _ _ _ _ _ _ _ _ _) rfl
    exact Changes.refl _ _
  · refine Changes.ite ?_ ?_
    · refine Changes.step ?_ (State.addJob_changes _ _ _ _ _ _ _ _ _) rfl
      exact Changes.refl _ _
    · refine Changes.step ?_ (State.sendMsg_changes _ _ _ _ _ _ _ _ _) rfl
      exact Changes.refl _ _

theorem State.testIn_changes (s : State) (id seq handle : Nat) (p : List Byte) :
    Changes [.host] s (s.testIn id seq handle p) := by
  unfold State.testIn
  dsimp only
  refine Changes.step ?_ (State.addJob_changes _ _ _ _ _ _ _ _ _) rfl
  exact Changes.refl _ _

theorem State.actTables_changes (s : State) (ty : Nat) (p : List Byte) :
    Changes [.regs, .mem, .ecc, .cores, .mesh, .holds, .fabric, .host, .engine, .weights, .toll, .idle, .diag, .ibis, .outs] s (s.actTables ty p) := by
  unfold State.actTables
  refine Changes.ite ?_ ?_
  · exact Changes.refl _ _
  · refine Changes.step ?_ (State.useTables_changes _ _) rfl
    exact Changes.refl _ _

theorem State.act_changes (s : State) (x : Session) (ty flags seq handle : Nat) (p : List Byte) :
    Changes [.regs, .mem, .ecc, .cores, .locks, .mesh, .holds, .fabric, .host, .engine, .weights, .toll, .idle, .diag, .ibis, .outs] s (s.act x ty flags seq handle p) := by
  unfold State.act
  dsimp only
  refine Changes.ite ?_ ?_
  · refine Changes.step ?_ (State.sendMsg_changes _ _ _ _ _ _ _ _ _) rfl
    refine Changes.step ?_ (State.actTables_changes _ _ _) rfl
    exact Changes.refl _ _
  · refine Changes.ite ?_ ?_
    · refine Changes.step ?_ (State.sendMsg_changes _ _ _ _ _ _ _ _ _) rfl
      refine Changes.step ?_ (State.actTables_changes _ _ _) rfl
      exact Changes.refl _ _
    · refine Changes.ite ?_ ?_
      · refine Changes.step ?_ (State.sendMsg_changes _ _ _ _ _ _ _ _ _) rfl
        refine Changes.step ?_ (State.actTables_changes _ _ _) rfl
        exact Changes.refl _ _
      · refine Changes.ite ?_ ?_
        · refine Changes.step ?_ (State.endSession_changes _ _) rfl
          refine Changes.step ?_ (State.sendMsg_changes _ _ _ _ _ _ _ _ _) rfl
          refine Changes.step ?_ (State.actTables_changes _ _ _) rfl
          exact Changes.refl _ _
        · refine Changes.ite ?_ ?_
          · refine Changes.ite ?_ ?_
            · refine Changes.step ?_ (State.sendMsg_changes _ _ _ _ _ _ _ _ _) rfl
              refine Changes.step ?_ (State.actTables_changes _ _ _) rfl
              exact Changes.refl _ _
            · refine Changes.step ?_ (State.addJob_changes _ _ _ _ _ _ _ _ _) rfl
              refine Changes.step ?_ (State.actTables_changes _ _ _) rfl
              exact Changes.refl _ _
          · refine Changes.ite ?_ ?_
            · refine Changes.step ?_ (State.addJob_changes _ _ _ _ _ _ _ _ _) rfl
              refine Changes.step ?_ (State.actTables_changes _ _ _) rfl
              exact Changes.refl _ _
            · refine Changes.ite ?_ ?_
              · refine Changes.step ?_ (State.addJob_changes _ _ _ _ _ _ _ _ _) rfl
                refine Changes.step ?_ (State.actTables_changes _ _ _) rfl
                exact Changes.refl _ _
              · refine Changes.ite ?_ ?_
                · split
                  · refine Changes.step ?_ (State.sendMsg_changes _ _ _ _ _ _ _ _ _) rfl
                    refine Changes.ofPair (by assumption) ?_
                    refine Changes.step ?_ (State.submitIn_changes _ _ _ _) rfl
                    refine Changes.step ?_ (State.actTables_changes _ _ _) rfl
                    exact Changes.refl _ _
                  · refine Changes.ofPair (by assumption) ?_
                    refine Changes.step ?_ (State.submitIn_changes _ _ _ _) rfl
                    refine Changes.step ?_ (State.actTables_changes _ _ _) rfl
                    exact Changes.refl _ _
                · refine Changes.ite ?_ ?_
                  · refine Changes.step ?_ (State.onRequest_changes _ _ _ _ _ _) rfl
                    refine Changes.step ?_ (State.actTables_changes _ _ _) rfl
                    exact Changes.refl _ _
                  · refine Changes.ite ?_ ?_
                    · refine Changes.ite ?_ ?_
                      · refine Changes.step ?_ (State.sendMsg_changes _ _ _ _ _ _ _ _ _) rfl
                        refine Changes.step ?_ (State.actTables_changes _ _ _) rfl
                        exact Changes.refl _ _
                      · refine Changes.step ?_ (State.onRequest_changes _ _ _ _ _ _) rfl
                        refine Changes.step ?_ (State.actTables_changes _ _ _) rfl
                        exact Changes.refl _ _
                    · refine Changes.ite ?_ ?_
                      · refine Changes.step ?_ (State.onRequest_changes _ _ _ _ _ _) rfl
                        refine Changes.step ?_ (State.actTables_changes _ _ _) rfl
                        exact Changes.refl _ _
                      · refine Changes.ite ?_ ?_
                        · refine Changes.step ?_ (State.sendMsg_changes _ _ _ _ _ _ _ _ _) rfl
                          refine Changes.step ?_ (State.ringOpenIn_changes _ _) rfl
                          refine Changes.step ?_ (State.actTables_changes _ _ _) rfl
                          exact Changes.refl _ _
                        · refine Changes.ite ?_ ?_
                          · refine Changes.step ?_ (State.sendMsg_changes _ _ _ _ _ _ _ _ _) rfl
                            refine Changes.step ?_ (State.creditIn_changes _ _) rfl
                            refine Changes.step ?_ (State.actTables_changes _ _ _) rfl
                            exact Changes.refl _ _
                          · refine Changes.ite ?_ ?_
                            · refine Changes.step ?_ (State.sendMsg_changes _ _ _ _ _ _ _ _ _) rfl
                              refine Changes.step ?_ (State.tenantIn_changes _ _) rfl
                              refine Changes.step ?_ (State.actTables_changes _ _ _) rfl
                              exact Changes.refl _ _
                            · refine Changes.ite ?_ ?_
                              · refine Changes.step ?_ (State.swapIn_changes _ _ _ _ _) rfl
                                refine Changes.step ?_ (State.actTables_changes _ _ _) rfl
                                exact Changes.refl _ _
                              · refine Changes.ite ?_ ?_
                                · refine Changes.step ?_ (State.addJob_changes _ _ _ _ _ _ _ _ _) rfl
                                  refine Changes.step ?_ (State.actTables_changes _ _ _) rfl
                                  exact Changes.refl _ _
                                · refine Changes.ite ?_ ?_
                                  · refine Changes.step ?_ (State.testIn_changes _ _ _ _ _) rfl
                                    refine Changes.step ?_ (State.actTables_changes _ _ _) rfl
                                    exact Changes.refl _ _
                                  · refine Changes.ite ?_ ?_
                                    · refine Changes.step ?_ (State.captureIn_changes _ _ _ _ _) rfl
                                      refine Changes.step ?_ (State.actTables_changes _ _ _) rfl
                                      exact Changes.refl _ _
                                    · refine Changes.ite ?_ ?_
                                      · refine Changes.step ?_ (State.attestIn_changes _ _ _ _ _) rfl
                                        refine Changes.step ?_ (State.actTables_changes _ _ _) rfl
                                        exact Changes.refl _ _
                                      · refine Changes.step ?_ (State.orderMsg_changes _ _ _ _ _ _) rfl
                                        refine Changes.step ?_ (State.actTables_changes _ _ _) rfl
                                        exact Changes.refl _ _

theorem State.deliver_changes (s : State) (id ifc : Nat) (b : List Byte) :
    Changes [.regs, .mem, .ecc, .cores, .locks, .mesh, .holds, .fabric, .host, .engine, .weights, .toll, .idle, .diag, .ibis, .outs] s (s.deliver id ifc b) := by
  unfold State.deliver
  split
  · exact Changes.refl _ _
  · dsimp only
    refine Changes.step ?_ (State.act_changes _ _ _ _ _ _ _) rfl
    refine Changes.step ?_ (State.setSess_changes _ _) rfl
    exact Changes.refl _ _

theorem State.drainHeld_changes (s : State) (id : Nat) (k : Nat) : Changes [.regs, .mem, .ecc, .cores, .locks, .mesh, .holds, .fabric, .host, .engine, .weights, .toll, .idle, .diag, .ibis, .outs] s (s.drainHeld id k) := by
  induction k generalizing s with
  | zero => exact Changes.refl _ _
  | succ k ih =>
    unfold State.drainHeld
    split
    · exact Changes.refl _ _
    · split
      · exact Changes.refl _ _
      · refine Changes.trans ?_ (ih _)
        refine Changes.step ?_ (State.deliver_changes _ _ _ _) rfl
        refine Changes.step ?_ (State.setSess_changes _ _) rfl
        exact Changes.refl _ _

theorem State.resendTo_changes (s : State) (x : Session) (ifc : Nat) (m : SentMsg) :
    Changes [.regs, .mem, .ecc, .cores, .mesh, .holds, .host, .idle, .diag, .ibis, .outs] s (s.resendTo x ifc m) := by
  unfold State.resendTo
  refine Changes.ite ?_ ?_
  · exact Changes.refl _ _
  · refine Changes.step ?_ (State.sendKept_changes _ _ _) rfl
    refine Changes.step ?_ (State.addSat_changes _ _ _ _) rfl
    exact Changes.refl _ _

theorem State.numbered_changes (s : State) (x : Session) (ifc : Nat) (b : List Byte) :
    Changes [.regs, .mem, .ecc, .cores, .locks, .mesh, .holds, .fabric, .host, .engine, .weights, .toll, .idle, .diag, .ibis, .outs] s (s.numbered x ifc b) := by
  unfold State.numbered
  dsimp only
  refine Changes.ite ?_ ?_
  · refine Changes.step ?_ (State.drainHeld_changes _ _ _) rfl
    refine Changes.step ?_ (State.deliver_changes _ _ _ _) rfl
    exact Changes.refl _ _
  · refine Changes.ite ?_ ?_
    · refine Changes.ite ?_ ?_
      · exact Changes.refl _ _
      · refine Changes.step ?_ (State.setSess_changes _ _) rfl
        exact Changes.refl _ _
    · refine Changes.ite ?_ ?_
      · split
        · refine Changes.step ?_ (State.sendBare_changes _ _ _) rfl
          exact Changes.refl _ _
        · refine Changes.foldl ?_ (fun _ _ => ?_)
          · exact Changes.refl _ _
          · refine Changes.step ?_ (State.resendTo_changes _ _ _ _) rfl
            exact Changes.refl _ _
      · exact Changes.refl _ _

theorem State.noteFinals_changes (s : State) (hs : List Nat) :
    Changes [.host, .engine] s (s.noteFinals hs) := by
  unfold State.noteFinals
  dsimp only
  refine Changes.step ?_ (State.modEngine_changes _ _) rfl
  exact Changes.refl _ _

theorem State.sessionIn_changes (s : State) (x : Session) (ifc : Nat) (b : List Byte) :
    Changes [.regs, .mem, .ecc, .cores, .locks, .mesh, .holds, .fabric, .host, .engine, .weights, .toll, .idle, .diag, .ibis, .outs] s (s.sessionIn x ifc b) := by
  unfold State.sessionIn
  dsimp only
  split
  · refine Changes.step ?_ (State.noteFinals_changes _ _) rfl
    refine Changes.step ?_ (State.ackUpTo_changes _ _ _) rfl
    refine Changes.step ?_ (State.setSess_changes _ _) rfl
    exact Changes.refl _ _
  · refine Changes.iteElse ?_ ?_
    · refine Changes.step ?_ (State.noteFinals_changes _ _) rfl
      refine Changes.step ?_ (State.ackUpTo_changes _ _ _) rfl
      refine Changes.step ?_ (State.setSess_changes _ _) rfl
      exact Changes.refl _ _
    · refine Changes.step ?_ (State.numbered_changes _ _ _ _) rfl
      exact Changes.refl _ _

theorem State.datagramIn_changes (s : State) (d : Datagram) :
    Changes [.regs, .mem, .ecc, .cores, .locks, .mesh, .holds, .fabric, .host, .engine, .weights, .toll, .idle, .diag, .ibis, .outs] s (s.datagramIn d) := by
  unfold State.datagramIn
  dsimp only
  refine Changes.ite ?_ ?_
  · exact Changes.refl _ _
  · refine Changes.ite ?_ ?_
    · refine Changes.step ?_ (State.addSat_changes _ _ _ _) rfl
      exact Changes.refl _ _
    · refine Changes.ite ?_ ?_
      · refine Changes.step ?_ (State.rxDrop_changes _ _ _) rfl
        exact Changes.refl _ _
      · refine Changes.ite ?_ ?_
        · refine Changes.ite ?_ ?_
          · refine Changes.step ?_ (State.openIn_changes _ _) rfl
            exact Changes.refl _ _
          · exact Changes.refl _ _
        · split
          · refine Changes.step ?_ (State.rxDrop_changes _ _ _) rfl
            exact Changes.refl _ _
          · refine Changes.step ?_ (State.sessionIn_changes _ _ _ _) rfl
            exact Changes.refl _ _

theorem State.sendIn_changes (s : State) (n ifc : Nat) (b : List Byte) :
    Changes [.regs, .mem, .ecc, .cores, .locks, .mesh, .holds, .fabric, .host, .engine, .weights, .toll, .idle, .diag, .ibis, .outs] s (s.sendIn n ifc b) := by
  unfold State.sendIn
  dsimp only
  split
  · refine Changes.ite ?_ ?_
    · refine Changes.step ?_ (State.sessionIn_changes _ _ _ _) rfl
      exact Changes.refl _ _
    · refine Changes.step ?_ (State.rxDrop_changes _ _ _) rfl
      exact Changes.refl _ _
  · refine Changes.step ?_ (State.rxDrop_changes _ _ _) rfl
    exact Changes.refl _ _

theorem State.onType_changes (s : State) (ok : Bool) (d : Datagram) :
    Changes [.free, .regs, .mem, .ecc, .reaches, .die, .cores, .locks, .mesh, .holds, .fabric, .host, .engine, .weights, .power, .toll, .idle, .diag, .ibiOn, .ibis, .outs] s (s.onType ok d) := by
  unfold State.onType
  refine Changes.ite ?_ ?_
  · refine Changes.step ?_ (State.pump_changes _) rfl
    refine Changes.step ?_ (State.datagramIn_changes _ _) rfl
    exact Changes.refl _ _
  · exact Changes.refl _ _

theorem execOpenSession_changes (d : Datagram) (s : State) :
    OutChanges [.free, .regs, .mem, .ecc, .reaches, .die, .cores, .locks, .mesh, .holds, .fabric, .host, .engine, .weights, .power, .toll, .idle, .diag, .ibiOn, .ibis, .outs] s (execOpenSession d s) := by
  unfold execOpenSession
  refine OutChanges.next ?_
  refine Changes.step ?_ (State.onType_changes _ _ _) rfl
  exact Changes.refl _ _

theorem execCloseSession_changes (d : Datagram) (s : State) :
    OutChanges [.free, .regs, .mem, .ecc, .reaches, .die, .cores, .locks, .mesh, .holds, .fabric, .host, .engine, .weights, .power, .toll, .idle, .diag, .ibiOn, .ibis, .outs] s (execCloseSession d s) := by
  unfold execCloseSession
  refine OutChanges.next ?_
  refine Changes.step ?_ (State.onType_changes _ _ _) rfl
  exact Changes.refl _ _

theorem execAckMessage_changes (d : Datagram) (s : State) :
    OutChanges [.free, .regs, .mem, .ecc, .reaches, .die, .cores, .locks, .mesh, .holds, .fabric, .host, .engine, .weights, .power, .toll, .idle, .diag, .ibiOn, .ibis, .outs] s (execAckMessage d s) := by
  unfold execAckMessage
  refine OutChanges.next ?_
  refine Changes.step ?_ (State.onType_changes _ _ _) rfl
  exact Changes.refl _ _

theorem execKeepalive_changes (d : Datagram) (s : State) :
    OutChanges [.free, .regs, .mem, .ecc, .reaches, .die, .cores, .locks, .mesh, .holds, .fabric, .host, .engine, .weights, .power, .toll, .idle, .diag, .ibiOn, .ibis, .outs] s (execKeepalive d s) := by
  unfold execKeepalive
  refine OutChanges.next ?_
  refine Changes.step ?_ (State.onType_changes _ _ _) rfl
  exact Changes.refl _ _

theorem execRegRead_changes (d : Datagram) (s : State) :
    OutChanges [.free, .regs, .mem, .ecc, .reaches, .die, .cores, .locks, .mesh, .holds, .fabric, .host, .engine, .weights, .power, .toll, .idle, .diag, .ibiOn, .ibis, .outs] s (execRegRead d s) := by
  unfold execRegRead
  refine OutChanges.next ?_
  refine Changes.step ?_ (State.onType_changes _ _ _) rfl
  exact Changes.refl _ _

theorem execRegWrite_changes (d : Datagram) (s : State) :
    OutChanges [.free, .regs, .mem, .ecc, .reaches, .die, .cores, .locks, .mesh, .holds, .fabric, .host, .engine, .weights, .power, .toll, .idle, .diag, .ibiOn, .ibis, .outs] s (execRegWrite d s) := by
  unfold execRegWrite
  refine OutChanges.next ?_
  refine Changes.step ?_ (State.onType_changes _ _ _) rfl
  exact Changes.refl _ _

theorem execLoad_changes (d : Datagram) (s : State) :
    OutChanges [.free, .regs, .mem, .ecc, .reaches, .die, .cores, .locks, .mesh, .holds, .fabric, .host, .engine, .weights, .power, .toll, .idle, .diag, .ibiOn, .ibis, .outs] s (execLoad d s) := by
  unfold execLoad
  refine OutChanges.next ?_
  refine Changes.step ?_ (State.onType_changes _ _ _) rfl
  exact Changes.refl _ _

theorem execUnload_changes (d : Datagram) (s : State) :
    OutChanges [.free, .regs, .mem, .ecc, .reaches, .die, .cores, .locks, .mesh, .holds, .fabric, .host, .engine, .weights, .power, .toll, .idle, .diag, .ibiOn, .ibis, .outs] s (execUnload d s) := by
  unfold execUnload
  refine OutChanges.next ?_
  refine Changes.step ?_ (State.onType_changes _ _ _) rfl
  exact Changes.refl _ _

theorem execSubmit_changes (d : Datagram) (s : State) :
    OutChanges [.free, .regs, .mem, .ecc, .reaches, .die, .cores, .locks, .mesh, .holds, .fabric, .host, .engine, .weights, .power, .toll, .idle, .diag, .ibiOn, .ibis, .outs] s (execSubmit d s) := by
  unfold execSubmit
  refine OutChanges.next ?_
  refine Changes.step ?_ (State.onType_changes _ _ _) rfl
  exact Changes.refl _ _

theorem execPrompt_changes (d : Datagram) (s : State) :
    OutChanges [.free, .regs, .mem, .ecc, .reaches, .die, .cores, .locks, .mesh, .holds, .fabric, .host, .engine, .weights, .power, .toll, .idle, .diag, .ibiOn, .ibis, .outs] s (execPrompt d s) := by
  unfold execPrompt
  refine OutChanges.next ?_
  refine Changes.step ?_ (State.onType_changes _ _ _) rfl
  exact Changes.refl _ _

theorem execCancel_changes (d : Datagram) (s : State) :
    OutChanges [.free, .regs, .mem, .ecc, .reaches, .die, .cores, .locks, .mesh, .holds, .fabric, .host, .engine, .weights, .power, .toll, .idle, .diag, .ibiOn, .ibis, .outs] s (execCancel d s) := by
  unfold execCancel
  refine OutChanges.next ?_
  refine Changes.step ?_ (State.onType_changes _ _ _) rfl
  exact Changes.refl _ _

theorem execQuery_changes (d : Datagram) (s : State) :
    OutChanges [.free, .regs, .mem, .ecc, .reaches, .die, .cores, .locks, .mesh, .holds, .fabric, .host, .engine, .weights, .power, .toll, .idle, .diag, .ibiOn, .ibis, .outs] s (execQuery d s) := by
  unfold execQuery
  refine OutChanges.next ?_
  refine Changes.step ?_ (State.onType_changes _ _ _) rfl
  exact Changes.refl _ _

theorem execRingOpen_changes (d : Datagram) (s : State) :
    OutChanges [.free, .regs, .mem, .ecc, .reaches, .die, .cores, .locks, .mesh, .holds, .fabric, .host, .engine, .weights, .power, .toll, .idle, .diag, .ibiOn, .ibis, .outs] s (execRingOpen d s) := by
  unfold execRingOpen
  refine OutChanges.next ?_
  refine Changes.step ?_ (State.onType_changes _ _ _) rfl
  exact Changes.refl _ _

theorem execRingCredit_changes (d : Datagram) (s : State) :
    OutChanges [.free, .regs, .mem, .ecc, .reaches, .die, .cores, .locks, .mesh, .holds, .fabric, .host, .engine, .weights, .power, .toll, .idle, .diag, .ibiOn, .ibis, .outs] s (execRingCredit d s) := by
  unfold execRingCredit
  refine OutChanges.next ?_
  refine Changes.step ?_ (State.onType_changes _ _ _) rfl
  exact Changes.refl _ _

theorem execTenantSet_changes (d : Datagram) (s : State) :
    OutChanges [.free, .regs, .mem, .ecc, .reaches, .die, .cores, .locks, .mesh, .holds, .fabric, .host, .engine, .weights, .power, .toll, .idle, .diag, .ibiOn, .ibis, .outs] s (execTenantSet d s) := by
  unfold execTenantSet
  refine OutChanges.next ?_
  refine Changes.step ?_ (State.onType_changes _ _ _) rfl
  exact Changes.refl _ _

theorem execWswpArm_changes (d : Datagram) (s : State) :
    OutChanges [.free, .regs, .mem, .ecc, .reaches, .die, .cores, .locks, .mesh, .holds, .fabric, .host, .engine, .weights, .power, .toll, .idle, .diag, .ibiOn, .ibis, .outs] s (execWswpArm d s) := by
  unfold execWswpArm
  refine OutChanges.next ?_
  refine Changes.step ?_ (State.onType_changes _ _ _) rfl
  exact Changes.refl _ _

theorem execSwapAbort_changes (d : Datagram) (s : State) :
    OutChanges [.free, .regs, .mem, .ecc, .reaches, .die, .cores, .locks, .mesh, .holds, .fabric, .host, .engine, .weights, .power, .toll, .idle, .diag, .ibiOn, .ibis, .outs] s (execSwapAbort d s) := by
  unfold execSwapAbort
  refine OutChanges.next ?_
  refine Changes.step ?_ (State.onType_changes _ _ _) rfl
  exact Changes.refl _ _

theorem execPinRelease_changes (d : Datagram) (s : State) :
    OutChanges [.free, .regs, .mem, .ecc, .reaches, .die, .cores, .locks, .mesh, .holds, .fabric, .host, .engine, .weights, .power, .toll, .idle, .diag, .ibiOn, .ibis, .outs] s (execPinRelease d s) := by
  unfold execPinRelease
  refine OutChanges.next ?_
  refine Changes.step ?_ (State.onType_changes _ _ _) rfl
  exact Changes.refl _ _

theorem execSwapArmWrite_changes (v : Word) (s : State) :
    OutChanges [.free, .regs, .mem, .ecc, .reaches, .die, .cores, .locks, .mesh, .holds, .fabric, .host, .engine, .weights, .power, .toll, .idle, .diag, .ibiOn, .ibis, .outs] s (execSwapArmWrite v s) := by
  unfold execSwapArmWrite
  refine OutChanges.next ?_
  refine Changes.step ?_ (State.pump_changes _) rfl
  refine Changes.step ?_ (State.writeSwapArm_changes _ _) rfl
  exact Changes.refl _ _

theorem execSwapDisarm_changes (s : State) :
    OutChanges [.free, .regs, .mem, .ecc, .reaches, .die, .cores, .locks, .mesh, .holds, .fabric, .host, .engine, .weights, .power, .toll, .idle, .diag, .ibiOn, .ibis, .outs] s (execSwapDisarm s) := by
  unfold execSwapDisarm
  refine OutChanges.next ?_
  refine Changes.step ?_ (State.pump_changes _) rfl
  refine Changes.step ?_ (State.writeSwapArm_changes _ _) rfl
  exact Changes.refl _ _

theorem execIdleSet_changes (d : Datagram) (s : State) :
    OutChanges [.free, .regs, .mem, .ecc, .reaches, .die, .cores, .locks, .mesh, .holds, .fabric, .host, .engine, .weights, .power, .toll, .idle, .diag, .ibiOn, .ibis, .outs] s (execIdleSet d s) := by
  unfold execIdleSet
  refine OutChanges.next ?_
  refine Changes.step ?_ (State.onType_changes _ _ _) rfl
  exact Changes.refl _ _

theorem execTestReq_changes (d : Datagram) (s : State) :
    OutChanges [.free, .regs, .mem, .ecc, .reaches, .die, .cores, .locks, .mesh, .holds, .fabric, .host, .engine, .weights, .power, .toll, .idle, .diag, .ibiOn, .ibis, .outs] s (execTestReq d s) := by
  unfold execTestReq
  refine OutChanges.next ?_
  refine Changes.step ?_ (State.onType_changes _ _ _) rfl
  exact Changes.refl _ _

theorem execCaptureFire_changes (d : Datagram) (s : State) :
    OutChanges [.free, .regs, .mem, .ecc, .reaches, .die, .cores, .locks, .mesh, .holds, .fabric, .host, .engine, .weights, .power, .toll, .idle, .diag, .ibiOn, .ibis, .outs] s (execCaptureFire d s) := by
  unfold execCaptureFire
  refine OutChanges.next ?_
  refine Changes.step ?_ (State.onType_changes _ _ _) rfl
  exact Changes.refl _ _

theorem execCaptureArmTime_changes (d : Datagram) (s : State) :
    OutChanges [.free, .regs, .mem, .ecc, .reaches, .die, .cores, .locks, .mesh, .holds, .fabric, .host, .engine, .weights, .power, .toll, .idle, .diag, .ibiOn, .ibis, .outs] s (execCaptureArmTime d s) := by
  unfold execCaptureArmTime
  refine OutChanges.next ?_
  refine Changes.step ?_ (State.onType_changes _ _ _) rfl
  exact Changes.refl _ _

theorem execAttestReq_changes (d : Datagram) (s : State) :
    OutChanges [.free, .regs, .mem, .ecc, .reaches, .die, .cores, .locks, .mesh, .holds, .fabric, .host, .engine, .weights, .power, .toll, .idle, .diag, .ibiOn, .ibis, .outs] s (execAttestReq d s) := by
  unfold execAttestReq
  refine OutChanges.next ?_
  refine Changes.step ?_ (State.onType_changes _ _ _) rfl
  exact Changes.refl _ _

theorem execAttestIdentity_changes (d : Datagram) (s : State) :
    OutChanges [.free, .regs, .mem, .ecc, .reaches, .die, .cores, .locks, .mesh, .holds, .fabric, .host, .engine, .weights, .power, .toll, .idle, .diag, .ibiOn, .ibis, .outs] s (execAttestIdentity d s) := by
  unfold execAttestIdentity
  refine OutChanges.next ?_
  refine Changes.step ?_ (State.onType_changes _ _ _) rfl
  exact Changes.refl _ _

theorem execChangeOrder_changes (d : Datagram) (s : State) :
    OutChanges [.free, .regs, .mem, .ecc, .reaches, .die, .cores, .locks, .mesh, .holds, .fabric, .host, .engine, .weights, .power, .toll, .idle, .diag, .ibiOn, .ibis, .outs] s (execChangeOrder d s) := by
  unfold execChangeOrder
  refine OutChanges.next ?_
  refine Changes.step ?_ (State.onType_changes _ _ _) rfl
  exact Changes.refl _ _

theorem execUndefinedMessageType_changes (d : Datagram) (s : State) :
    OutChanges [.free, .regs, .mem, .ecc, .reaches, .die, .cores, .locks, .mesh, .holds, .fabric, .host, .engine, .weights, .power, .toll, .idle, .diag, .ibiOn, .ibis, .outs] s (execUndefinedMessageType d s) := by
  unfold execUndefinedMessageType
  refine OutChanges.next ?_
  refine Changes.step ?_ (State.onType_changes _ _ _) rfl
  exact Changes.refl _ _

theorem execTowpathResend_changes (sess : BitVec 32) (s : State) :
    OutChanges [.now, .regs, .mem, .ecc, .die, .cores, .mesh, .holds, .fabric, .host, .engine, .idle, .diag, .ibis, .outs] s (execTowpathResend sess s) := by
  unfold execTowpathResend
  split
  · refine OutChanges.next ?_
    exact Changes.refl _ _
  · split
    · refine OutChanges.next ?_
      exact Changes.refl _ _
    · dsimp only
      refine OutChanges.ite ?_ ?_
      · refine OutChanges.next ?_
        refine Changes.step ?_ (State.loseSession_changes _ _) rfl
        refine Changes.step ?_ (State.advanceTo_changes _ _) rfl
        exact Changes.refl _ _
      · refine OutChanges.next ?_
        refine Changes.iteThen ?_ ?_
        · refine Changes.step ?_ (State.setSess_changes _ _) rfl
          refine Changes.step ?_ (State.advanceTo_changes _ _) rfl
          exact Changes.refl _ _
        · refine Changes.step ?_ (State.sendKept_changes _ _ _) rfl
          refine Changes.step ?_ (State.addSat_changes _ _ _ _) rfl
          exact Changes.refl _ _

theorem execSessionTimeout_changes (sess : BitVec 32) (s : State) :
    OutChanges [.now, .regs, .mem, .ecc, .die, .cores, .mesh, .fabric, .host, .engine, .idle, .diag, .ibis, .outs] s (execSessionTimeout sess s) := by
  unfold execSessionTimeout
  split
  · refine OutChanges.next ?_
    exact Changes.refl _ _
  · refine OutChanges.next ?_
    refine Changes.step ?_ (State.loseSession_changes _ _) rfl
    refine Changes.step ?_ (State.advanceTo_changes _ _) rfl
    exact Changes.refl _ _

theorem execRoceSend_changes (rk : Packet) (s : State) :
    OutChanges [.regs, .mem, .ecc, .cores, .mesh, .holds, .fabric, .host, .idle, .diag, .ibis, .outs] s (execRoceSend rk s) := by
  unfold execRoceSend
  dsimp only
  split
  · refine OutChanges.next ?_
    refine Changes.ofPair (by assumption) ?_
    refine Changes.step ?_ (State.takePacket_changes _ _) rfl
    exact Changes.refl _ _
  · refine OutChanges.ite ?_ ?_
    · refine OutChanges.next ?_
      refine Changes.step ?_ (State.roceAnswer_changes _ _ _ _ _ _) rfl
      refine Changes.ofPair (by assumption) ?_
      refine Changes.step ?_ (State.takePacket_changes _ _) rfl
      exact Changes.refl _ _
    · refine OutChanges.ite ?_ ?_
      · refine OutChanges.next ?_
        refine Changes.step ?_ (State.ackAgain_changes _ _ _) rfl
        refine Changes.ofPair (by assumption) ?_
        refine Changes.step ?_ (State.takePacket_changes _ _) rfl
        exact Changes.refl _ _
      · refine OutChanges.ite ?_ ?_
        · refine OutChanges.next ?_
          refine Changes.step ?_ (State.nakError_changes _ _ _) rfl
          refine Changes.ofPair (by assumption) ?_
          refine Changes.step ?_ (State.takePacket_changes _ _) rfl
          exact Changes.refl _ _
        · refine OutChanges.ite ?_ ?_
          · refine OutChanges.next ?_
            refine Changes.step ?_ (State.nakError_changes _ _ _) rfl
            refine Changes.ofPair (by assumption) ?_
            refine Changes.step ?_ (State.takePacket_changes _ _) rfl
            exact Changes.refl _ _
          · refine OutChanges.ite ?_ ?_
            · refine OutChanges.next ?_
              refine Changes.step ?_ (State.roceAnswer_changes _ _ _ _ _ _) rfl
              refine Changes.ofPair (by assumption) ?_
              refine Changes.step ?_ (State.takePacket_changes _ _) rfl
              exact Changes.refl _ _
            · refine OutChanges.ite ?_ ?_
              · refine OutChanges.next ?_
                refine Changes.step ?_ (State.takePsn_changes _ _ _ _) rfl
                refine Changes.ofPair (by assumption) ?_
                refine Changes.step ?_ (State.takePacket_changes _ _) rfl
                exact Changes.refl _ _
              · refine OutChanges.next ?_
                refine Changes.step ?_ (State.ethWrite_changes _ _ _) rfl
                refine Changes.step ?_ (State.setQp_changes _ _ _) rfl
                refine Changes.step ?_ (State.takePsn_changes _ _ _ _) rfl
                refine Changes.ofPair (by assumption) ?_
                refine Changes.step ?_ (State.takePacket_changes _ _) rfl
                exact Changes.refl _ _

theorem State.acked_changes (s : State) (n psn : Nat) :
    Changes [.host, .engine] s (s.acked n psn) := by
  unfold State.acked
  dsimp only
  refine Changes.step ?_ (State.modEngine_changes _ _) rfl
  refine Changes.step ?_ (State.setQp_changes _ _ _) rfl
  exact Changes.refl _ _

theorem execRoceAck_changes (rk : Packet) (s : State) :
    OutChanges [.regs, .mem, .ecc, .cores, .mesh, .holds, .host, .engine, .idle, .diag, .ibis, .outs] s (execRoceAck rk s) := by
  unfold execRoceAck
  split
  · refine OutChanges.next ?_
    refine Changes.ofPair (by assumption) ?_
    refine Changes.step ?_ (State.takePacket_changes _ _) rfl
    exact Changes.refl _ _
  · refine OutChanges.next ?_
    refine Changes.step ?_ (State.acked_changes _ _ _) rfl
    refine Changes.ofPair (by assumption) ?_
    refine Changes.step ?_ (State.takePacket_changes _ _) rfl
    exact Changes.refl _ _

theorem execRoceReadResponse_changes (rk : Packet) (s : State) :
    OutChanges [.regs, .mem, .ecc, .cores, .mesh, .holds, .host, .engine, .idle, .diag, .ibis, .outs] s (execRoceReadResponse rk s) := by
  unfold execRoceReadResponse
  dsimp only
  split
  · refine OutChanges.next ?_
    refine Changes.ofPair (by assumption) ?_
    refine Changes.step ?_ (State.takePacket_changes _ _) rfl
    exact Changes.refl _ _
  · split
    · refine OutChanges.next ?_
      refine Changes.ofPair (by assumption) ?_
      refine Changes.step ?_ (State.takePacket_changes _ _) rfl
      exact Changes.refl _ _
    · split
      · refine OutChanges.next ?_
        refine Changes.step ?_ (State.acked_changes _ _ _) rfl
        refine Changes.ofPair (by assumption) ?_
        refine Changes.step ?_ (State.takePacket_changes _ _) rfl
        exact Changes.refl _ _
      · refine OutChanges.next ?_
        refine Changes.step ?_ (State.setConsumed_changes _ _ _) rfl
        refine Changes.step ?_ (State.acked_changes _ _ _) rfl
        refine Changes.ofPair (by assumption) ?_
        refine Changes.step ?_ (State.takePacket_changes _ _) rfl
        exact Changes.refl _ _

/-! ### EthPort -/

theorem State.ethDone_changes (s : State) (p : Nat) (x : EthTx) (t : List EthTx) :
    Changes [.free, .regs, .mem, .ecc, .reaches, .die, .cores, .locks, .mesh, .holds, .fabric, .host, .engine, .weights, .power, .toll, .idle, .diag, .ibiOn, .ibis, .outs] s (s.ethDone p x t) := by
  unfold State.ethDone
  dsimp only
  refine Changes.step ?_ (State.ethOpen_changes _ _) rfl
  refine Changes.iteThen ?_ ?_
  · split
    · refine Changes.step ?_ (State.emit_changes _ _) rfl
      refine Changes.step ?_ (State.rxFree_changes _ _ _ _) rfl
      refine Changes.step ?_ (State.setEtxQ_changes _ _ _) rfl
      exact Changes.refl _ _
    · refine Changes.step ?_ (State.rxFree_changes _ _ _ _) rfl
      refine Changes.step ?_ (State.setEtxQ_changes _ _ _) rfl
      exact Changes.refl _ _
  · refine Changes.step ?_ (State.pump_changes _) rfl
    refine Changes.step ?_ (State.sendIn_changes _ _ _ _) rfl
    refine Changes.step ?_ (State.setQp_changes _ _ _) rfl
    exact Changes.refl _ _

theorem State.ethReply_changes (s : State) (p : Nat) (b : Barge) :
    Changes [.free, .regs, .mem, .ecc, .reaches, .die, .cores, .locks, .mesh, .holds, .fabric, .host, .engine, .weights, .power, .toll, .idle, .diag, .ibiOn, .ibis, .outs] s (s.ethReply p b) := by
  unfold State.ethReply
  split
  · exact Changes.refl _ _
  · refine Changes.ite ?_ ?_
    · refine Changes.step ?_ (State.setEtxQ_changes _ _ _) rfl
      exact Changes.refl _ _
    · refine Changes.ite ?_ ?_
      · refine Changes.step ?_ (State.ethOpen_changes _ _) rfl
        refine Changes.step ?_ (State.setEtxQ_changes _ _ _) rfl
        exact Changes.refl _ _
      · refine Changes.step ?_ (State.ethDone_changes _ _ _ _) rfl
        exact Changes.refl _ _

theorem State.ethSend_changes (s : State) (p : Nat) (k : Nat) : Changes [.regs, .mesh, .fabric, .host, .idle, .diag, .ibis, .outs] s (s.ethSend p k) := by
  induction k generalizing s with
  | zero => exact Changes.refl _ _
  | succ k ih =>
    unfold State.ethSend
    split
    · exact Changes.refl _ _
    · split
      · exact Changes.refl _ _
      · dsimp only
        refine Changes.ite ?_ ?_
        · exact Changes.refl _ _
        · refine Changes.trans ?_ (ih _)
          refine Changes.step ?_ (State.inject_changes _ _ _ _ _) rfl
          refine Changes.step ?_ (State.setEtxQ_changes _ _ _) rfl
          exact Changes.refl _ _

theorem State.ethServe_changes (s : State) (p : Nat) :
    Changes [.free, .regs, .mem, .ecc, .reaches, .die, .cores, .locks, .mesh, .holds, .fabric, .host, .engine, .weights, .power, .toll, .idle, .diag, .ibiOn, .ibis, .outs] s (s.ethServe p) := by
  unfold State.ethServe
  split
  · refine Changes.step ?_ (State.ethSend_changes _ _ _) rfl
    refine Changes.step ?_ (State.ethReply_changes _ _ _) rfl
    refine Changes.step ?_ (State.takeArrival_some (by assumption)) rfl
    exact Changes.refl _ _
  · refine Changes.step ?_ (State.ethSend_changes _ _ _) rfl
    exact Changes.refl _ _

theorem execReadAgentServe_changes (a : Agent) (s : State) :
    OutChanges [.free, .regs, .mem, .ecc, .reaches, .die, .cores, .locks, .mesh, .holds, .fabric, .host, .engine, .weights, .power, .toll, .idle, .diag, .ibiOn, .ibis, .outs] s (execReadAgentServe a s) := by
  unfold execReadAgentServe
  refine OutChanges.next ?_
  split
  · refine Changes.step ?_ (State.ethServe_changes _ _) rfl
    exact Changes.refl _ _
  · refine Changes.step ?_ (State.serveReads_changes _ _) rfl
    exact Changes.refl _ _

/-! ### Steps -/

theorem State.stepAlarm_changes (s : State) :
    Changes [.regs, .mesh, .fabric, .idle, .diag, .ibis, .outs] s (s.stepAlarm) := by
  unfold State.stepAlarm
  refine Changes.step ?_ (State.notice_changes _ _ _) rfl
  refine Changes.step ?_ (State.logErr_changes _ _) rfl
  exact Changes.refl _ _

theorem State.closeReady_changes (s : State) (k : Nat) : Changes [.fabric] s (s.closeReady k) := by
  induction k generalizing s with
  | zero => exact Changes.refl _ _
  | succ k ih =>
    unfold State.closeReady
    dsimp only
    refine Changes.ite ?_ ?_
    · exact Changes.refl _ _
    · refine Changes.trans ?_ (ih _)
      refine Changes.record ?_ (by intro p; cases p <;> first | exact .inl rfl | exact .inr ⟨rfl, rfl⟩ | exact .inr (by dsimp only [Part.same]))
      exact Changes.refl _ _

theorem State.countReady_changes (s : State) (step chip : Nat) :
    Changes [.regs, .mesh, .fabric, .idle, .diag, .ibis, .outs] s (s.countReady step chip) := by
  unfold State.countReady
  dsimp only
  refine Changes.ite ?_ ?_
  · refine Changes.step ?_ (State.stepAlarm_changes _) rfl
    exact Changes.refl _ _
  · refine Changes.step ?_ (State.closeReady_changes _ _) rfl
    refine Changes.record ?_ (by intro p; cases p <;> first | exact .inl rfl | exact .inr ⟨rfl, rfl⟩ | exact .inr (by dsimp only [Part.same]))
    exact Changes.refl _ _

theorem State.sendReady_changes (s : State) (step : Nat) :
    Changes [.regs, .mesh, .fabric, .idle, .diag, .ibis, .outs] s (s.sendReady step) := by
  unfold State.sendReady
  dsimp only
  refine Changes.ite ?_ ?_
  · refine Changes.step ?_ (State.countReady_changes _ _ _) rfl
    exact Changes.refl _ _
  · refine Changes.step ?_ (State.sendOut_changes _ _ _) rfl
    exact Changes.refl _ _

theorem execStepReady_changes (s : State) :
    OutChanges [.regs, .mem, .ecc, .cores, .mesh, .holds, .fabric, .host, .engine, .weights, .power, .toll, .idle, .diag, .ibis, .outs] s (execStepReady s) := by
  unfold execStepReady
  dsimp only
  refine OutChanges.ite ?_ ?_
  · refine OutChanges.next ?_
    exact Changes.refl _ _
  · refine OutChanges.next ?_
    refine Changes.iteThen ?_ ?_
    · refine Changes.step ?_ (State.sendReady_changes _ _) rfl
      refine Changes.step ?_ (State.latchEnergy_changes _) rfl
      refine Changes.record ?_ (by intro p; cases p <;> first | exact .inl rfl | exact .inr ⟨rfl, rfl⟩ | exact .inr (by dsimp only [Part.same]))
      exact Changes.refl _ _
    · refine Changes.step ?_ (State.processStep_changes _ _) rfl
      exact Changes.refl _ _

theorem execStepReadyBarge_changes (s : State) :
    OutChanges [.regs, .mesh, .fabric, .idle, .diag, .ibis, .outs] s (execStepReadyBarge s) := by
  unfold execStepReadyBarge
  split
  · refine OutChanges.next ?_
    exact Changes.refl _ _
  · refine OutChanges.next ?_
    refine Changes.step ?_ (State.countReady_changes _ _ _) rfl
    refine Changes.step ?_ (State.takeArrival_some (by assumption)) rfl
    exact Changes.refl _ _

theorem execStepStall_changes (s : State) :
    OutChanges [.now, .regs, .die, .mesh, .fabric, .idle, .diag, .ibis, .outs] s (execStepStall s) := by
  unfold execStepStall
  dsimp only
  split
  · refine OutChanges.next ?_
    exact Changes.refl _ _
  · refine OutChanges.ite ?_ ?_
    · refine OutChanges.next ?_
      exact Changes.refl _ _
    · refine OutChanges.next ?_
      refine Changes.step ?_ (State.stepAlarm_changes _) rfl
      refine Changes.record ?_ (by intro p; cases p <;> first | exact .inl rfl | exact .inr ⟨rfl, rfl⟩ | exact .inr (by dsimp only [Part.same]))
      refine Changes.step ?_ (State.advanceTo_changes _ _) rfl
      exact Changes.refl _ _

theorem State.loseAlignment_changes (s : State) :
    Changes [.regs, .mesh, .fabric, .idle, .diag, .ibis, .outs] s (s.loseAlignment) := by
  unfold State.loseAlignment
  dsimp only
  refine Changes.record ?_ (by intro p; cases p <;> first | exact .inl rfl | exact .inr ⟨rfl, rfl⟩ | exact .inr (by dsimp only [Part.same]))
  refine Changes.step ?_ (State.put_changes _ _ _ _) rfl
  refine Changes.ite ?_ ?_
  · refine Changes.step ?_ (State.stepAlarm_changes _) rfl
    exact Changes.refl _ _
  · refine Changes.step ?_ (State.logErr_changes _ _) rfl
    exact Changes.refl _ _

theorem State.recordIn_changes (s : State) (r : List Word) :
    Changes [.regs, .mesh, .fabric, .idle, .diag, .ibis, .outs] s (s.recordIn r) := by
  unfold State.recordIn
  dsimp only
  refine Changes.iteElse ?_ ?_
  · refine Changes.step ?_ (State.wakeOn_changes _ _) rfl
    exact Changes.refl _ _
  · refine Changes.ite ?_ ?_
    · refine Changes.step ?_ (State.loseAlignment_changes _) rfl
      exact Changes.refl _ _
    · refine Changes.ite ?_ ?_
      · refine Changes.step ?_ (State.logErr_changes _ _) rfl
        refine Changes.step ?_ (State.loseAlignment_changes _) rfl
        exact Changes.refl _ _
      · refine Changes.record ?_ (by intro p; cases p <;> first | exact .inl rfl | exact .inr ⟨rfl, rfl⟩ | exact .inr (by dsimp only [Part.same]))
        exact Changes.refl _ _

theorem execStepRecordBarge_changes (s : State) :
    OutChanges [.regs, .mesh, .fabric, .idle, .diag, .ibis, .outs] s (execStepRecordBarge s) := by
  unfold execStepRecordBarge
  split
  · refine OutChanges.next ?_
    exact Changes.refl _ _
  · refine OutChanges.next ?_
    refine Changes.step ?_ (State.recordIn_changes _ _) rfl
    refine Changes.step ?_ (State.takeArrival_some (by assumption)) rfl
    exact Changes.refl _ _

theorem execRecordRelease_changes (s : State) :
    OutChanges [.regs, .mesh, .fabric, .engine, .idle, .diag, .ibis, .outs] s (execRecordRelease s) := by
  unfold execRecordRelease
  split
  · refine OutChanges.next ?_
    exact Changes.refl _ _
  · refine OutChanges.ite ?_ ?_
    · refine OutChanges.next ?_
      exact Changes.refl _ _
    · dsimp only
      refine OutChanges.next ?_
      refine Changes.step ?_ (State.recordIn_changes _ _) rfl
      refine Changes.step ?_ (State.sendTree_changes _ _ _) rfl
      refine Changes.step ?_ (State.modEngine_changes _ _) rfl
      refine Changes.record ?_ (by intro p; cases p <;> first | exact .inl rfl | exact .inr ⟨rfl, rfl⟩ | exact .inr (by dsimp only [Part.same]))
      exact Changes.refl _ _

theorem State.giveRecord_changes (s : State) (r : List Word) (n : Nat) :
    Changes [.regs, .cores, .mesh, .idle, .diag, .ibis, .outs] s (s.giveRecord r n) := by
  unfold State.giveRecord
  refine Changes.ite ?_ ?_
  · refine Changes.step ?_ (State.logCore_changes _ _ _ _ _ _) rfl
    refine Changes.step ?_ (State.hwSet_changes _ _ _ _) rfl
    exact Changes.refl _ _
  · refine Changes.step ?_ (State.put_changes _ _ _ _) rfl
    refine Changes.step ?_ (State.setCore_changes _ _ _) rfl
    exact Changes.refl _ _

theorem State.deliverRecord_changes (s : State) :
    Changes [.regs, .cores, .mesh, .fabric, .idle, .diag, .ibis, .outs] s (s.deliverRecord) := by
  unfold State.deliverRecord
  split
  · exact Changes.refl _ _
  · refine Changes.ite ?_ ?_
    · exact Changes.refl _ _
    · dsimp only
      refine Changes.foldl ?_ (fun _ _ => ?_)
      · refine Changes.step ?_ (State.atWork_changes _) rfl
        refine Changes.record ?_ (by intro p; cases p <;> first | exact .inl rfl | exact .inr ⟨rfl, rfl⟩ | exact .inr (by dsimp only [Part.same]))
        refine Changes.step ?_ (State.opsetAtRecord_changes _) rfl
        refine Changes.step ?_ (State.phaseHint_changes _ _) rfl
        exact Changes.refl _ _
      · refine Changes.step ?_ (State.giveRecord_changes _ _ _) rfl
        exact Changes.refl _ _

theorem execRecordDelivery_changes (s : State) :
    OutChanges [.regs, .cores, .mesh, .fabric, .idle, .diag, .ibis, .outs] s (execRecordDelivery s) := by
  unfold execRecordDelivery
  refine OutChanges.next ?_
  refine Changes.step ?_ (State.deliverRecord_changes _) rfl
  exact Changes.refl _ _

theorem execStagedFillComplete_changes (s : State) :
    OutChanges [.regs, .cores, .mesh, .holds, .fabric, .weights, .idle, .diag, .ibis, .outs] s (execStagedFillComplete s) := by
  unfold execStagedFillComplete
  refine OutChanges.ite ?_ ?_
  · dsimp only
    refine OutChanges.next ?_
    refine Changes.iteThen ?_ ?_
    · refine Changes.step ?_ (State.fillWork_changes _) rfl
      exact Changes.refl _ _
    · refine Changes.step ?_ (State.deliverRecord_changes _) rfl
      refine Changes.step ?_ (State.stagedFilled_changes _) rfl
      exact Changes.refl _ _
  · refine OutChanges.next ?_
    exact Changes.refl _ _

theorem execStepCompose_changes (s : State) :
    OutChanges [.free, .regs, .mem, .ecc, .reaches, .die, .cores, .locks, .mesh, .holds, .fabric, .host, .engine, .weights, .power, .toll, .idle, .diag, .ibiOn, .ibis, .outs] s (execStepCompose s) := by
  unfold execStepCompose
  refine OutChanges.next ?_
  refine Changes.step ?_ (State.pump_changes _) rfl
  refine Changes.step ?_ (State.compose_changes _) rfl
  exact Changes.refl _ _

end Sys2Proof.Machine
end

