-- ==== Sys2Proof/Laws/Frames.lean ====
section
/-! SUPPORT. Which registers the shared operations leave alone: the logging of an error, the passing of time, hold requests. -/

namespace Sys2Proof.Machine

theorem SameRegs.refl (l : List Nat) (s : State) : SameRegs l s s := fun _ _ => rfl

theorem SameRegs.trans {l : List Nat} {s t u : State} (h : SameRegs l s t) (k : SameRegs l t u) : SameRegs l s u :=
  fun a ha => (k a ha).trans (h a ha)

theorem SameRegs.widen {l m : List Nat} {s t : State} (h : SameRegs l s t) (k : ∀ a ∈ l, a ∈ m) : SameRegs m s t :=
  fun a ha => h a fun hl => ha (k a hl)

theorem SameRegs.ofRegs {l : List Nat} {s t : State} (h : t.regs = s.regs) : SameRegs l s t := fun a _ => State.reg_congr h a

theorem SameRegs.toErr {l : List Nat} {s t : State} (h : SameRegs l s t) : SameRegsButErr l s t := fun a _ ha => h a ha

theorem SameRegsButErr.refl (l : List Nat) (s : State) : SameRegsButErr l s s := fun _ _ _ => rfl

theorem SameRegsButErr.trans {l : List Nat} {s t u : State} (h : SameRegsButErr l s t) (k : SameRegsButErr l t u) :
    SameRegsButErr l s u := fun a he ha => (k a he ha).trans (h a he ha)

theorem SameRegsButErr.widen {l m : List Nat} {s t : State} (h : SameRegsButErr l s t) (k : ∀ a ∈ l, a ∈ m) :
    SameRegsButErr m s t := fun a he ha => h a he fun hl => ha (k a hl)

theorem State.setReg_sameRegs (s : State) (a : Nat) (w : Word) : SameRegs [a] s (s.setReg a w) := fun b hb => by
  simpa using State.reg_setReg_ne s w (by simpa using hb)

theorem State.put_sameRegs (s : State) (a : Nat) (f : BitField) (v : Nat) : SameRegs [a] s (s.put a f v) :=
  s.setReg_sameRegs a _

theorem State.put_step {l : List Nat} {s t : State} (h : SameRegs l s t) (a : Nat) (f : BitField) (v : Nat) (ha : a ∈ l) :
    SameRegs l s (t.put a f v) :=
  h.trans ((t.put_sameRegs a f v).widen (by simpa using ha))

theorem State.put_stepErr {s t : State} (h : SameRegsButErr [] s t) (a : Nat) (f : BitField) (v : Nat) (ha : errReg a = true) :
    SameRegsButErr [] s (t.put a f v) := fun b he hb => by
  rw [State.reg_put_ne t f v (by rintro rfl; simp [ha] at he)]
  exact h b he hb

theorem State.hwPut_step {l : List Nat} {s t : State} (h : SameRegs l s t) (a : Nat) (f : BitField) (v : Nat) (ha : a ∈ l) :
    SameRegs l s (t.hwPut a f v) := by
  unfold State.hwPut
  split
  · exact h
  · exact State.put_step h a f v ha

theorem State.hwPut_stepErr {s t : State} (h : SameRegsButErr [] s t) (a : Nat) (f : BitField) (v : Nat) (ha : errReg a = true) :
    SameRegsButErr [] s (t.hwPut a f v) := by
  unfold State.hwPut
  split
  · exact h
  · exact State.put_stepErr h a f v ha

theorem State.hwSet_stepErr {s t : State} (h : SameRegsButErr [] s t) (a : Nat) (f : BitField) (v : Nat) (ha : errReg a = true) :
    SameRegsButErr [] s (t.hwSet a f v) :=
  (State.put_stepErr h a f _ ha).trans (SameRegs.ofRegs rfl).toErr

theorem State.setReg_stepErr {s t : State} (h : SameRegsButErr [] s t) (a : Nat) (w : Word) (ha : errReg a = true) :
    SameRegsButErr [] s (t.setReg a w) := fun b he hb => by
  rw [State.reg_setReg_ne t w (by rintro rfl; simp [ha] at he)]
  exact h b he hb

theorem SameRegsButErr.record {s t u : State} (h : SameRegsButErr [] s t) (k : u.regs = t.regs) : SameRegsButErr [] s u :=
  h.trans (SameRegs.ofRegs k).toErr

theorem errReg_log (i w : Nat) (hi : i < 512) (hw : w < 4) : errReg (Reg.ERRS_LOG i w) = true := by
  have h : Reg.ERRS_LOG i w = 0x4000F1000 + 32 * i + 8 * w := rfl
  have hb : blockOfReg (Reg.ERRS_LOG i w) = some 15 := by
    unfold blockOfReg
    rw [if_pos (by omega), h]
    congr 1; omega
  simp [errReg, hb]

theorem State.writeBurst_regs (s : State) (i : Nat) (l : List ErrRec) : SameRegsButErr [] s (s.writeBurst i l) := by
  induction l generalizing s i with
  | nil => exact SameRegsButErr.refl _ _
  | cons e l ih =>
    have hi : i % 512 < 512 := Nat.mod_lt _ (by decide)
    refine SameRegsButErr.trans ?_ (ih _ _)
    unfold State.writeErrSlot
    exact State.setReg_stepErr (State.setReg_stepErr (State.setReg_stepErr (State.setReg_stepErr (SameRegsButErr.refl _ _) _ _
      (errReg_log _ _ hi (by decide))) _ _ (errReg_log _ _ hi (by decide))) _ _ (errReg_log _ _ hi (by decide))) _ _
      (errReg_log _ _ hi (by decide))

theorem State.wakeOn_regs (s : State) (c : Nat) : SameRegsButErr [] s (s.wakeOn c) := by
  unfold State.wakeOn State.atWork
  dsimp only
  repeat' split
  all_goals first
    | exact SameRegsButErr.record (SameRegsButErr.refl _ _) rfl
    | exact SameRegsButErr.record (State.put_stepErr (SameRegsButErr.record (SameRegsButErr.refl _ _) rfl) Reg.IDLE_STATE _ _ (by decide)) rfl

theorem State.capture_regs (s : State) (src code b : Nat) : SameRegsButErr [] s (s.capture src code b) := by
  unfold State.capture
  split
  · exact SameRegsButErr.refl _ _
  · split
    · exact State.hwPut_stepErr (SameRegsButErr.refl _ _) _ _ _ (by decide)
    · extract_lets u
      exact SameRegsButErr.record (SameRegsButErr.refl _ _) (by simp only [u]; split <;> rfl)

theorem State.queueTrigger_regs (s : State) (src code t : Nat) : SameRegsButErr [] s (s.queueTrigger src code t) := by
  unfold State.queueTrigger
  refine SameRegsButErr.record ?_ rfl
  split
  · exact State.wakeOn_regs s 6
  · exact SameRegsButErr.refl _ _

theorem State.trigger_regs (s : State) (src code b : Nat) : SameRegsButErr [] s (s.trigger src code b) := by
  unfold State.trigger
  split
  · exact State.queueTrigger_regs _ _ _ _
  · exact State.capture_regs _ _ _ _

theorem State.holdEvent_regs (s : State) (c : Nat) (e : ErrRec) : SameRegsButErr [] s (s.holdEvent c e) := by
  unfold State.holdEvent
  split
  · exact State.hwPut_stepErr (SameRegsButErr.refl _ _) _ _ _ (by decide)
  · exact SameRegsButErr.record (SameRegsButErr.refl _ _) rfl

theorem State.writeErr_regs (s : State) (e : Err) : SameRegsButErr [] s (s.writeErr e) := by
  unfold State.writeErr
  extract_lets r cls burst head d s1 s2 s3 s4 s5 s6
  have h2 : SameRegsButErr [] s s2 := (SameRegsButErr.record (SameRegsButErr.refl _ _) rfl).trans (State.writeBurst_regs s1 _ _)
  have h3 : SameRegsButErr [] s s3 := State.put_stepErr h2 _ _ _ (by decide)
  have h4 : SameRegsButErr [] s s4 := State.hwPut_stepErr h3 _ _ _ (by decide)
  have h5 : SameRegsButErr [] s s5 := State.hwSet_stepErr h4 _ _ _ (by decide)
  have h6 : SameRegsButErr [] s s6 := by
    simp only [s6]; split
    · exact h5.trans (State.holdEvent_regs _ _ _)
    · exact h5
  split
  · exact SameRegsButErr.record h6 rfl
  · exact h6

theorem State.logLocal_regs (s : State) (e : Err) : SameRegsButErr [] s (s.logLocal e) := by
  unfold State.logLocal
  refine SameRegsButErr.trans ?_ (State.trigger_regs _ _ _ _)
  split
  · exact State.hwPut_stepErr (SameRegsButErr.refl _ _) _ _ _ (by decide)
  · exact State.writeErr_regs _ _

@[simp] theorem State.takeWidth_regs (s : State) (node : Nat) (p : MeshPort) (d : Nat) : (s.takeWidth node p d).1.regs = s.regs := by
  unfold State.takeWidth
  extract_lets t
  split <;> rfl

theorem State.launch_regs (s : State) (node : Nat) (p : MeshPort) (src d : Nat) (b : Barge) :
    SameRegsButErr [] s (s.launch node p src d b) :=
  SameRegsButErr.record (State.wakeOn_regs s 2) ((s.wakeOn 2).takeWidth_regs node p d)

theorem State.sendFwd_regs (s : State) (c : Nat) (b : Barge) : SameRegsButErr [] s (s.sendFwd c b) := by
  unfold State.sendFwd
  split
  · exact State.launch_regs _ _ _ _ _ _
  · exact State.logLocal_regs _ _

theorem State.forwardErr_regs (s : State) (c : Nat) (r : ErrRec) : SameRegsButErr [] s (s.forwardErr c r) := by
  unfold State.forwardErr
  generalize [r.w0, r.w1, r.w2, r.w3].zipIdx = l
  induction l generalizing s with
  | nil => exact SameRegsButErr.refl _ _
  | cons w l ih => exact (State.sendFwd_regs _ _ _).trans (ih _)

/-- Logging an error writes the registers of `errReg` alone. -/
theorem State.logErr_regs (s : State) (e : Err) : SameRegsButErr [] s (s.logErr e) := by
  unfold State.logErr
  extract_lets t lchip
  split
  · exact (State.logLocal_regs s e).trans (State.forwardErr_regs t _ _)
  · exact State.logLocal_regs s e

theorem State.logErr_reg (s : State) (e : Err) {a : Nat} (h : errReg a = false) : (s.logErr e).reg a = s.reg a :=
  s.logErr_regs e a h (by simp)

theorem State.logErr_get (s : State) (e : Err) {a : Nat} (f : BitField) (h : errReg a = false) :
    (s.logErr e).get a f = s.get a f := by simp [State.get, s.logErr_reg e h]

/-- The passing of time counts in the clock registers alone. -/
theorem State.advanceTo_regs (s : State) (t : Nat) : SameRegs (clockRegs s) s (s.advanceTo t) := by
  unfold State.advanceTo
  split
  · exact SameRegs.refl _ _
  · extract_lets d s1 die1 s2 only die2 s3 s4
    have h1 : SameRegs (clockRegs s) s s1 := by
      simp only [s1, State.fabricTime]
      exact (State.put_step (SameRegs.refl _ _) _ _ _ (by simp [clockRegs])).trans (SameRegs.ofRegs rfl)
    have h3 : SameRegs (clockRegs s) s s3 := by
      simp only [s3]; split
      · exact h1.trans (SameRegs.ofRegs rfl)
      · split
        · exact (State.hwPut_step h1 _ _ _ (by simp [clockRegs])).trans (SameRegs.ofRegs rfl)
        · exact h1
    have hi : s3.idle.state = s.idle.state := by
      simp only [s3]; split
      · rfl
      · split
        · simp [s2, s1, State.fabricTime]
        · rfl
    have h4 : SameRegs (clockRegs s) s s4 := by
      simp only [s4]; split
      · rw [hi]; exact State.hwPut_step h3 _ _ _ (by simp [clockRegs])
      · exact h3
    exact h4.trans (SameRegs.ofRegs rfl)

theorem State.advanceTo_now (s : State) (t : Nat) : (s.advanceTo t).now = max s.now t := by
  unfold State.advanceTo
  split
  · omega
  · show t = _
    omega

/-- A hold request counts in PACE_HOLD_CNT alone. -/
theorem State.holdOn_regs (s : State) (h : HoldReq) : SameRegs [Reg.PACE_HOLD_CNT] s (s.holdOn h) := by
  unfold State.holdOn
  split
  · exact SameRegs.refl _ _
  · extract_lets first counted skip u
    refine SameRegs.trans (t := u) ?_ (SameRegs.ofRegs rfl)
    simp only [u]
    split
    · exact SameRegs.refl _ _
    · unfold State.countCause
      repeat' split
      all_goals first | exact State.hwPut_step (SameRegs.refl _ _) _ _ _ (by simp) | exact SameRegs.refl _ _

@[simp] theorem State.holdOff_regs (s : State) (p : HoldReq → Bool) : (s.holdOff p).regs = s.regs := rfl

/-! ### Plain writes -/

/-- A field that is written whole reads back what was written. -/
theorem RegRow.get_write (r : RegRow) (f : BitField) (old v : Word) (h : f.mask &&& ~~~ r.rw = 0) (k : f.mask &&& r.w1c = 0) :
    f.get (r.write old v) = f.get v := by
  apply Nat.eq_of_testBit_eq
  intro i
  simp only [BitField.testBit_get, RegRow.write, BitVec.getLsbD_and, BitVec.getLsbD_or, BitVec.getLsbD_not]
  by_cases hi : i < f.width
  · by_cases hb : f.lo + i < 64
    · have hm : f.mask.getLsbD (f.lo + i) = true := by simp [BitField.testBit_mask]; omega
      have h1 := congrArg (fun w => w.getLsbD (f.lo + i)) h
      have h2 := congrArg (fun w => w.getLsbD (f.lo + i)) k
      simp only [BitVec.getLsbD_and, BitVec.getLsbD_not, hm] at h1 h2
      simp_all
    · simp [BitVec.getLsbD_of_ge v _ (by omega : 64 ≤ f.lo + i)]
      intro _
      rw [BitVec.getLsbD_of_ge old _ (by omega)]; simp
  · simp [hi]

theorem State.writeBits_sameRegs (s : State) (a : Nat) (r : RegRow) (part v : Word) : SameRegs [a] s (s.writeBits a r part v) :=
  (State.setReg_sameRegs _ _ _).trans (SameRegs.ofRegs rfl)

theorem State.plainWrite_sameRegs (s : State) (a : Nat) (v : Word) : SameRegs [a] s (s.plainWrite a v) := by
  unfold State.plainWrite
  split
  · exact State.writeBits_sameRegs _ _ _ _ _
  · exact SameRegs.refl _ _

/-- A field that no bit of `m` meets is the same without the bits of `m`. -/
theorem BitField.get_without (f : BitField) (v m : Word) (h : f.mask &&& m = 0) : f.get (v &&& ~~~ m) = f.get v := by
  apply Nat.eq_of_testBit_eq
  intro i
  simp only [BitField.testBit_get, BitVec.getLsbD_and, BitVec.getLsbD_not]
  by_cases hi : i < f.width
  · by_cases hb : f.lo + i < 64
    · have hm : f.mask.getLsbD (f.lo + i) = true := by simp [BitField.testBit_mask]; omega
      have h1 := congrArg (fun w => w.getLsbD (f.lo + i)) h
      simp only [BitVec.getLsbD_and, hm] at h1
      simp_all
    · simp [BitVec.getLsbD_of_ge v _ (by omega : 64 ≤ f.lo + i)]
  · simp [hi]

theorem State.get_plainWrite (s : State) {a : Nat} {r : RegRow} (f : BitField) (v : Word) (hr : regRow a = some r)
    (h : f.mask &&& ~~~ r.rw = 0) (k : f.mask &&& r.w1c = 0) : (s.plainWrite a v).get a f = f.get v := by
  have k' : f.mask &&& ((s.mark a).set &&& r.w1c) = 0 := by
    rw [BitVec.and_comm (s.mark a).set, ← BitVec.and_assoc, k]
    simp
  have e : (s.plainWrite a v).reg a = r.write (s.reg a) (v &&& ~~~ ((s.mark a).set &&& r.w1c)) := by
    simp [State.plainWrite, hr, State.writeBits, -BitVec.reduceAllOnes]
  rw [State.get, e, RegRow.get_write r f _ _ h k, BitField.get_without f v _ k']

end Sys2Proof.Machine
end

