-- ==== Sys2Proof/WellFormed.lean ====
section
/-! DEFINITION. The commands that the outside can send: operand records with the lengths that the manual gives them.
`exec` is total and needs none of this; what the types of Syntax.lean do not bound is bounded here. -/

namespace Sys2Proof

/-- Bytes of a UDP datagram that one IPv6 packet can carry. -/
def maxDatagram : Nat := 65535

/-- A datagram reaches the wharfinger whole (R427). -/
def Datagram.wf (d : Datagram) : Bool := decide (d.bytes.length ≤ maxDatagram)

/-- A packet's bytes are no more than 2^31, the longest RDMA operation. -/
def Packet.wf (k : Packet) : Bool := decide (k.bytes.length ≤ 2 ^ 31)

/-- A frame carries eight flits (R377) on one of 96 lanes (R374); an RS(544,514) codeword has at most 15 symbols corrected. -/
def Frame.wf (f : Frame) : Bool := f.flits.length == 8 && decide (f.lane < 96) && decide (f.fixed ≤ 15)

/-- The operands of a command have the lengths of the manual. -/
def Instr.wf : Instr → Bool
  | .beatToken _ codes => codes.length == 8
  | .frameReceive _ f => f.wf
  | .trainingComplete _ l => decide (l.length ≤ 96)
  | .load d => d.wf
  | .unload d => d.wf
  | .openSession d => d.wf
  | .closeSession d => d.wf
  | .ackMessage d => d.wf
  | .keepalive d => d.wf
  | .regRead d => d.wf
  | .regWrite d => d.wf
  | .submit d => d.wf
  | .prompt d => d.wf
  | .cancel d => d.wf
  | .query d => d.wf
  | .tenantSet d => d.wf
  | .ringOpen d => d.wf
  | .ringCredit d => d.wf
  | .wswpArm d => d.wf
  | .swapAbort d => d.wf
  | .pinRelease d => d.wf
  | .idleSet d => d.wf
  | .changeOrder d => d.wf
  | .attestReq d => d.wf
  | .attestIdentity d => d.wf
  | .captureFire d => d.wf
  | .captureArmTime d => d.wf
  | .testReq d => d.wf
  | .undefinedMessageType d => d.wf
  | .roceSend k => k.wf
  | .rdmaWrite k => k.wf
  | .rdmaWriteImm k => k.wf
  | .rdmaRead k => k.wf
  | .roceNak k => k.wf
  | .roceAck k => k.wf
  | .roceReadResponse k => k.wf
  | .roceRnrNak k => k.wf
  | .cnp k => k.wf
  | .i3cPrivateWrite b => decide (b.length ≤ 256)
  | .pacerTick _ | .beatComplete _ | .lateItemArrival _ _ | .vaneWindowEnd _ | .vaneCritical _ | .vaneThreshWrite _
  | .targetOpWrite _ _ | .retuneStop | .regulatorSettled _ | .retuneComplete _ | .settleTimeout _ | .secondStopTimeout _
  | .qpush _ | .qwait _ | .qwaitComplete _ | .qtake _ | .qcount _ | .issue _ | .issueComplete _ | .ifree _ | .lsig _
  | .lwait _ | .lwaitSatisfied _ | .ltake _ | .lread _ | .lbar _ | .kstepw _ | .kstepwComplete _ | .ksel _ | .kdone _
  | .kdoneComplete _ | .keeperInstruction _ | .keeperLoad _ | .keeperStore _ | .csrAccess _ | .ebreak _
  | .narrowAccessServe _ | .armCore _ | .disarmCore _ | .haltCore _ | .resumeCore _ | .kstepCore _ | .mmul _ | .xnop _
  | .anop _ | .vadd _ | .vsub _ | .vmul _ | .vfma _ | .vmax _ | .vmin _ | .vneg _ | .vabs _ | .vsel _ | .vcmp _ | .vcvt _
  | .vexp2 _ | .vlog2 _ | .vrcp _ | .vrsq _ | .vsig _ | .vsilu _ | .vtanh _ | .vgelu _ | .vsum _ | .vsumsq _ | .vdot _
  | .vrsum _ | .vrmax _ | .vargmax _ | .vtopk _ | .vsample _ | .fload _ | .fstore _ | .scopy _ | .scast _ | .skvr _
  | .skvw _ | .sred _ | .lmmul _ | .lload _ | .lstore _ | .lcopy _ | .lvector _ | .macroOpLastBeat _ _
  | .syncSignalArrival _ | .barrierRelease _ | .chipArrival | .fabricRelease | .slotArm _ _ | .slotDisarm _ | .signalBarge
  | .pendingSignalApply _ | .bargeForward _ _ | .mcastReplyCombine _ _ | .ingressWrite _ | .weightStoreWrite _
  | .openBarge _ | .grant _ _ | .refuse _ _ | .dataBarge _ | .ackBarge _ _ | .readBarge _ | .readAgentServe _
  | .abortBarge _ | .holdRequestComplete _ _ | .holdRefresh _ _ | .refreshMakeup _ _ | .holdScrubRead _ _
  | .holdTempUpdate _ _ | .correctedLineRewrite _ _ | .berthConfigWrite _ _ _ | .berthGrant _ _ _ | .vecWinWrite _ _ _
  | .meshModeWrite _ | .programStart | .dtrmWrite _ _ | .watchdogFire | .laneSignalLoss _ | .helloTimeout _ | .helloSend _
  | .hello _ _ | .retrain _ | .autoRetrain _ | .trainingTimeout _ | .frameSend _ | .portMapWrite _ _ | .portActiveWrite _
  | .probeForward _ _ | .probeIdent _ _ | .probeAssign _ _ | .probeReply _ _ | .timeExchange | .timeRequest _ _
  | .timeResponse _ _ _ _ | .routeTableWrite _ _ | .epochArm _ | .fabrEvqRead | .ferryGo _ | .ferryStall _ | .stepReady
  | .stepReadyBarge | .recordRelease | .stepStall | .stepRecordBarge | .recordDelivery | .macLinkLoss _
  | .enetPortCtrlWrite _ _ | .enetIfWrite _ _ _ | .neighbourPacket _ _ | .keepaliveTimer _ | .towpathAckTimer _
  | .towpathResend _ | .sessionTimeout _ | .regBarge | .registerWrite _ _ | .stepCompose | .energySweep | .engyGroupAdd _
  | .roceAckTimeout _ | .rateRecovery _ | .pfcFrame _ _ _ | .pfcRefresh _ _ | .pfcWatchdog _ _ | .i3cPrivateRead
  | .entdaa _ | .setdasa _ _ | .enec | .disec | .swapArmWrite _ | .swapDisarm | .check | .checkComplete | .prime
  | .primeComplete | .loadFill | .loadFillComplete | .stagedFill | .stagedFillComplete | .weirSample _ _ | .weirCodeFall _
  | .weirLimitWrite _ _ | .weirWindowWrite _ | .policyTick | .capRaise | .idleOpset _ | .idleEntry | .idleWakeComplete
  | .wake | .idleBudgetWrite _ | .pwrOkRise | .resetNRelease | .imageSlotCheck _ _ | .railEnable _ | .railPgRise _
  | .railPgTimeout _ | .bootReady | .pwrOkFall | .resetNAssert | .railPgFall _ | .thermalSample _ _ _ _ | .trefclkLoss
  | .erefclkLoss | .devReset | .tollReset | .ctxReset | .ctxDrainComplete | .fabReset | .reachReset _
  | .reachResetComplete _ | .captInEdge | .fabricTimeMatch | .captureBeat | .snapArmWrite _ | .errsFwdWrite _ _ _
  | .eventSend _ | .testGo _ | .testCancel | .testUnitStart | .testUnitEnd _ | .testTimeout | .holdTrainingDone _ _
  | .macLinkUp _ | .pfcQuantaExpiry _ _ | .pfcHonourRestore _ _ | .railDisable _ | .postTripDelay | .jtagTck _ _
  | .trstNAssert => true

end Sys2Proof
end

