-- ==== Sys2Proof/Tests/Slice0.lean ====
section
/-! SUPPORT. Small tests. For each obligation with hypotheses a theorem of its name shows states and operands that meet them, clause by
clause; then ill-formed commands that WellFormed refuses, and a few values that the manual or the standards it names give. -/

namespace Sys2Proof.Tests
open Sys2Proof Sys2Proof.Machine

-- One theorem is checked at a time, so that few threads reserve memory.
set_option Elab.async false

/-! ### States of the witnesses -/

/-- A device that is Ready with its die powered. -/
def readyS : State :=
  { (State.reset.put Reg.TOLL_BOOT Fld.TOLL_BOOT.phase 7) with toll := { pwrOk := true, resetN := true } }

/-- Core 0 RUNNING, its reach in beat `b`. -/
def runS (b : Nat) : State :=
  (readyS.put (Reg.CORE_STAT 0) Fld.CORE_STAT.state 3).setReach 0 { beat := b, stopped := false }

/-- `s` with reach 0 as given. -/
def atReach (x : Reach) : State := readyS.setReach 0 x

/-- `s` with core 0 as given. -/
def withCore (s : State) (c : Core) : State := s.setCore 0 c

/-- `s` with instruction `i` at the start of the keeper's memory of core 0. -/
def withInstr (s : State) (i : Nat) : State := s.writeAny (imemAddr 0 0) (natLe 4 i)

/-! ### The machine as a whole, and pacing -/

theorem test_witness_StepRunsFront :
    ({ State.reset with pending := [.check] } : State).pending = Instr.check :: [] := rfl

theorem test_witness_MemoryFrame :
    (commandParts .check).contains .mem = false ∧ (commandParts .check).contains .ecc = false := by decide

theorem test_witness_StepKeepsWf : State.reset.wf = true ∧ ∃ t, step State.reset = .next t := ⟨by decide, _, rfl⟩

theorem test_witness_StepTime : State.reset.pending = [] ∧ ∃ t, step State.reset = .next t := ⟨rfl, _, rfl⟩

theorem test_witness_VaneThreshWrite :
    Fld.VANE_THRESH.warn.get 0 ≤ Fld.VANE_THRESH.crit.get 0 ∧
    Fld.VANE_THRESH.crit.get (Fld.VANE_THRESH.warn.set 0 1) < Fld.VANE_THRESH.warn.get (Fld.VANE_THRESH.warn.set 0 1) := by
  decide

theorem test_witness_TargetOpWrite :
    Fld.PACE_OPSEL.target_op.get (Fld.PACE_OPSEL.target_op.set 0 State.reset.ceil) ≤ State.reset.ceil := by decide +kernel

theorem test_witness_BeatCycle :
    (((runS 3).reach 0).ticked = false ∧ ((runS 3).reach 0).stopped = false) ∧
    (runS 3).tokenReady 0 = false ∧
    (atReach { ticked := true, complete := true, stopped := false }).tokenReady 0 = true ∧
    (let s := atReach { stopped := false }
     (s.reach 0).complete = false ∧ (adjacent 0).all (fun q => decide ((s.reach 0).beat ≤ (s.reach q).completed)) = true ∧
     s.workDone 0 = true ∧ s.itemMissing 0 = false ∧
     ∀ n ∈ coresOf 0, s.enabled n = true → s.xwaits n = [] ∧ s.arrayCheck n = s) := by decide +kernel

/-- Core 0 runs `r` on the vector unit, and its items are late. -/
def lateS (r : RunOp) : State :=
  { withCore (runS 9) { vector := some r } with
    die := { holds := [{ cause := .memoryLate, core := 0, unit := some .vector }] } }

theorem test_witness_LateItemArrival :
    (lateS { desc := [], start := 9, cost := 1 }).die.holds.any (unitHold 0 .vector) = true ∧
    (((lateS { desc := [], start := 9, cost := 1 }).core 0).running .vector).isSome = true := by decide +kernel

theorem test_witness_Vanes :
    4096 ≤ ((atReach { winBeats := 4096 }).reach 0).winBeats ∧
    (∀ l ∈ [[], List.range 7, List.range 8],
      let s := atReach { winBeats := 4096, warned := true, rearmed := l, winLow := List.replicate 8 0 }
      (s.reach 0).warned = true ∧ ((∀ v < 8, v ∈ (s.reach 0).rearmed ∨
        s.get Reg.VANE_THRESH Fld.VANE_THRESH.warn + s.get Reg.VANE_THRESH Fld.VANE_THRESH.hyst < (s.reach 0).winLow.getD v 255) ↔
        l.length = 8)) ∧
    (let s := atReach { critRun := [4] }
     (∃ v < 8, 4 ≤ (s.reach 0).critRun.getD v 0) ∧ (s.reach 0).critical = false ∧
     s.written (Reg.PACE_OPSEL 0) Fld.PACE_OPSEL.target_op = false ∧ ¬(s.get (Reg.PACE_OPSEL 0) Fld.PACE_OPSEL.auto_down = 1 ∧ s.get (Reg.PACE_OPSEL 0) Fld.PACE_OPSEL.busy = 1)) := by
  decide +kernel

theorem test_witness_RetuneStop :
    let s := readyS.put (Reg.PACE_OPSEL 15) Fld.PACE_OPSEL.busy 1
    s.retuneWanted ≠ [] ∧ (∀ r : Fin 16, (s.reach r).inStop = false) ∧ s.idle.state = 0 := by decide +kernel

theorem test_witness_RetuneSequence :
    ((atReach { retune := .moving }).reach 0).retune = .moving ∧
    (((atReach { retune := .failed }).reach 0).retune = .failed ∧ (atReach { retune := .failed }).idle.state = 0) ∧
    ((atReach { retune := .calibrating }).reach 0).retune = .calibrating ∧
    ((atReach { retune := .secondStop }).reach 0).retune = .secondStop := by decide +kernel
/-! ### Cores and their keepers -/

/-- A keeper instruction of opcode `op`: funct7, rs2, rs1, funct3, rd. -/
def ins (op f7 rs2 rs1 f3 rd : Nat) : Nat := encR f7 rs2 rs1 f3 rd op

/-- Core 0 in beat 20 at instruction `i`, with `a` in x1 and what else `c` says. -/
def keepS (i a : Nat) (c : Core := {}) : State :=
  withCore (withInstr (runS 20) i) { c with x := (List.replicate 32 0).set 1 (BitVec.ofNat 32 a) }

theorem test_witness_KeeperBase :
    let i := encI 1 0 0 5 0x13
    let j := encJ 8 1
    (KeeperAt (keepS i 0) 0 .base i 4 ∧ (keepS i 0).kdue 0 1 = true ∧
      baseExec (keepS i 0).lat i 4 0 0 0 = some (some 1, 4, 1)) ∧
    KeeperAt (keepS j 0) 0 .base j 4 ∧ (keepS j 0).kdue 0 ((keepS j 0).lat 10) = true ∧
    baseExec (keepS j 0).lat j 4 0 0 0 = some (some 4, 8, (keepS j 0).lat 10) := by
  unfold KeeperAt; decide +kernel

theorem test_witness_KeeperFaults :
    (let s := (runS 20).put (Reg.KEEP_PC 0) Fld.KEEP_PC.pc 1
     s.keeperRuns 0 = true ∧ s.kdue 0 1 = true ∧ (s.fetch 0).2 = .stop 0x3804) ∧
    (let s := runS 20
     s.keeperRuns 0 = true ∧ s.kdue 0 1 = true ∧ (s.fetch 0).2 = .instr 0 2 ∧ classOf 0 = .base ∧
     baseExec s.lat 0 2 0 0 0 = none) ∧
    (let i := ins 0x0B 0 1 0 5 5
     KeeperAt (keepS i 0) 0 (.custom .ifree) i 4 ∧ customOk .ifree i = false ∧ ((keepS i 0).fetch 0).1.kdue 0 1 = true) := by
  unfold KeeperAt; decide +kernel

/-- A word access of the keeper at `a` in `s`, a load or a store, finds memory and is due. -/
def finds (s : State) (a : Nat) (store : Bool) : Bool :=
  let u := (s.fetch 0).1
  a % 4 == 0 && u.kdue 0 1 && (keeperPlace u 0 a store).any fun p =>
    u.kdue 0 p.2 && !(u.keeperLines 0 p.1 4).2 && lineStat (u.eccOf (lineOf p.1)) != .uncorrectable

/-- LW x5, 0(x1) and SW x2, 0(x1). -/
def lw : Nat := encI 0 1 2 5 0x03
def sw : Nat := encS 0 2 1 2 0x23

theorem test_witness_KeeperMemory :
    (KeeperAt (keepS lw 0) 0 .load lw 4 ∧ ∀ a ∈ [0, 0xFFFC, 0x10000, 0x1FFFC, 0x1000000, 0x15FFFFC, 0x1600000, 0x167FFFC],
      ((((keepS lw a).fetch 0).1.kx 0 (rs1Of lw) + immI lw).toNat = a) ∧ finds (keepS lw a) a false = true) ∧
    (KeeperAt (keepS lw 2) 0 .load lw 4 ∧ ((keepS lw 2).fetch 0).1.kdue 0 1 = true ∧ 2 % sizeOf3 (f3Of lw) ≠ 0 ∧
      kmem 0 0x21000 = .nowhere ∧ kmem 0 0x1680000 = .nowhere) ∧
    (KeeperAt (keepS sw 0) 0 .store sw 4 ∧ (keepS sw 0).wf = true ∧
      ∀ a ∈ [0x10000, 0x1FFFC, 0x1000000, 0x15FFFFC, 0x1600000, 0x167FFFC], finds (keepS sw a) a true = true) ∧
    KeeperAt (keepS sw 2) 0 .store sw 4 ∧ ((keepS sw 2).fetch 0).1.kdue 0 1 = true ∧ kmem 0 0xFFFC = .imem (imemAddr 0 0xFFFC) := by
  unfold KeeperAt; decide +kernel

theorem test_witness_KeeperMemory_lines :
    (let s := { keepS lw 0x10000 with ecc := [(dmemAddr 0 0, 3)] }
     let u := (s.fetch 0).1
     KeeperAt s 0 .load lw 4 ∧ keeperPlace u 0 0x10000 false = some (dmemAddr 0 0, u.lat 14) ∧
     ((u.takeNarrow 0 (dmemAddr 0 0)).keeperLines 0 (dmemAddr 0 0) 4).2 = true) ∧
    (let s := { keepS sw 0x10000 with ecc := [(dmemAddr 0 0, 3)] }
     let u := (s.fetch 0).1
     KeeperAt s 0 .store sw 4 ∧ s.wf = true ∧ keeperPlace u 0 0x10000 true = some (dmemAddr 0 0, u.lat 14) ∧
     lineStat (u.eccOf (lineOf (dmemAddr 0 0))) = .uncorrectable ∧ memKind (dmemAddr 0 0) = .kdmem) ∧
    (let u := ((keepS sw 0x1600000).fetch 0).1
     keeperPlace u 0 0x1600000 true = some (0x600000, u.lat 16) ∧ u.defers (lineOf 0x600000) = true ∧
     keeperPlace u 0 0x1000000 true = some (0, u.lat 16) ∧ u.defers (lineOf 0) = false) := by
  unfold KeeperAt; decide +kernel

theorem test_witness_KeeperMemory_halves :
    (∀ o ∈ [0, 0xFFC], KeeperAt (keepS lw (0x20000 + o)) 0 .load lw 4 ∧
      (((keepS lw (0x20000 + o)).fetch 0).1.kx 0 (rs1Of lw) + immI lw).toNat = 0x20000 + o ∧
      ((keepS lw (0x20000 + o)).fetch 0).1.kdue 0 ((keepS lw 0).lat 15) = true) ∧ f3Of lw = 2 ∧ f3Of sw = 2 ∧
    (∀ o ∈ [4, 0xFF8], KeeperAt (keepS sw (0x20000 + o) { hbuf := some (o, 7) }) 0 .store sw 4 ∧
      ((keepS sw (0x20000 + o)).fetch 0).1.kdue 0 ((keepS sw 0).lat 15) = true ∧
      (((keepS sw (0x20000 + o) { hbuf := some (o, 7) }).fetch 0).1.core 0).hbuf = some (o, 7)) ∧
    (let lh := encI 0 1 1 5 0x03
     let sb := encS 0 2 1 0 0x23
     KeeperAt (keepS lh 0x20FFE) 0 .load lh 4 ∧ f3Of lh ≠ 2 ∧ 0x20FFE % sizeOf3 (f3Of lh) = 0 ∧
     KeeperAt (keepS sb 0x20FFF) 0 .store sb 4 ∧ f3Of sb ≠ 2 ∧ 0x20FFF % sizeOf3 (f3Of sb) = 0) := by
  unfold KeeperAt; decide +kernel

theorem test_witness_KeeperCsrs :
    let rd := encI 0xC00 0 2 5 0x73
    let no := encI 0x300 0 2 5 0x73
    let wr := encI 0xC00 0 1 5 0x73
    (KeeperAt (keepS rd 0) 0 .csr rd 4 ∧ (keepS rd 0).kdue 0 ((keepS rd 0).lat 13) = true ∧
      (keepS rd 0).csr 0 (ibits rd 20 12) = some 20 ∧ csrWrites rd = false) ∧
    (KeeperAt (keepS no 0) 0 .csr no 4 ∧ (keepS no 0).csr 0 (ibits no 20 12) = none) ∧
    (KeeperAt (keepS wr 0) 0 .csr wr 4 ∧ csrWrites wr = true) ∧
    (KeeperAt (keepS 0x00100073 0) 0 .ebreak 0x00100073 4 ∧ (keepS 0x00100073 0).kdue 0 1 = true) ∧
    (let s := ((runS 20).put Reg.DTRM_GRID Fld.DTRM_GRID.vgrid 2).setReg (Reg.DTRM_VMAP 0) 0x0007
     1 < s.vgrid ∧ s.vmap 1 = 0 ∧ ∀ w < 1, s.vmap w ≠ 0) := by
  unfold KeeperAt; decide +kernel

/-- The same with every queue the keeper's at both ends. -/
def keepQ (i a : Nat) (c : Core := {}) : State := (keepS i a c).setReg (Reg.QUEUE_CFG 0) 0

/-- A queue entry of the beat before. -/
def entry : QEntry := ⟨19, List.replicate 64 1⟩

/-- Queue `q` holds `l`. -/
def queued (q : Nat) (l : List QEntry) : Core := { queues := (List.replicate 8 []).set q l }

theorem test_witness_KeeperQueues :
    (∀ q ∈ [0, 7],
      let i := ins 0x0B q 0 1 0 0
      let s := keepQ i 0x1FFC0 (queued q (List.replicate 15 entry))
      let u := (s.fetch 0).1
      CustomAt s 0 .qpush i 4 ∧ six4 0 (u.kx 0 (rs1Of i)).toNat = .dmem (dmemAddr 0 0xFFC0) ∧ u.produces 0 q 0 = true ∧
      u.kdue 0 (u.lat 18) = true ∧ (u.keeperLines 0 (dmemAddr 0 0xFFC0) 64).2 = false ∧ (u.core 0).queues.length = 8 ∧
      ((u.core 0).queues.getD q []).length < 16 ∧ (s.setReg (Reg.QUEUE_CFG 0) 1).produces 0 0 0 = false) ∧
    (let i := ins 0x0B 7 0 0 3 5
     let s := keepQ i 0
     CustomAt s 0 .qcount i 4 ∧ s.queueCfg 0 7 % 4 ≠ 3 ∧ s.queueCfg 0 7 / 4 ≠ 3) ∧
    (let i := ins 0x0B 7 0 1 2 5
     let s := keepQ i 0x10000 (queued 7 [entry])
     let u := (s.fetch 0).1
     CustomAt s 0 .qtake i 4 ∧ six4 0 (u.kx 0 (rs1Of i)).toNat = .dmem (dmemAddr 0 0) ∧ u.consumes 0 7 0 = true ∧
     u.kdue 0 (u.lat 18) = true ∧ s.wf = true ∧ (s.core 0).queues.getD 7 [] = [entry] ∧ entry.beat < s.beatOf 0 ∧
     entry.bytes.length = 64 ∧ (s.core 0).qlate = [] ∧ (s.core 0).queues.length = 8 ∧ (keepQ i 0x10000).poppable 0 7 = none) ∧
    (let i := ins 0x0B 7 0 1 1 5
     let s := keepQ i 0x10000
     let u := (s.fetch 0).1
     CustomAt s 0 .qwait i 4 ∧ six4 0 (u.kx 0 (rs1Of i)).toNat ≠ .bad ∧ u.consumes 0 7 0 = true ∧ (s.core 0).haltReq = false) ∧
    (let s := withCore (runS 21) { queued 7 [entry] with kwait := .qwait 7 5 0x10000, kAt := 19 }
     s.inBeat 0 = true ∧ six4 0 0x10000 = .dmem (dmemAddr 0 0) ∧
     max (s.core 0).kAt (entry.beat + 1) + s.lat 18 ≤ s.beatOf 0 + 1 ∧ s.wf = true ∧ (s.core 0).queues.getD 7 [] = [entry] ∧
     (s.core 0).qlate = [] ∧ (s.core 0).queues.length = 8) := by
  unfold CustomAt KeeperAt; decide +kernel

theorem test_witness_IssueQueue :
    (∀ st ∈ [0, 1],
      let i := ins 0x0B st 0 1 4 0
      let s := keepS i 0x10000 { xFifo := List.replicate 7 [], aFifo := List.replicate 7 [] }
      let f := keepS i 0x10000 { xFifo := List.replicate 8 [], aFifo := List.replicate 8 [] }
      let u := (s.fetch 0).1
      CustomAt s 0 .issue i 4 ∧ six4 0 (u.kx 0 (rs1Of i)).toNat = .dmem (dmemAddr 0 0) ∧ u.kdue 0 (u.lat 18) = true ∧
      (u.keeperLines 0 (dmemAddr 0 0) 64).2 = false ∧ ((s.core 0).fifo (f7Of i % 2 == 1)).length < 8 ∧
      CustomAt f 0 .issue i 4 ∧ 8 ≤ ((f.core 0).fifo (f7Of i % 2 == 1)).length ∧ (f.core 0).haltReq = false) ∧
    (let s := withCore (runS 20) { kwait := .issue 1 [], xFifo := List.replicate 7 [] }
     s.inBeat 0 = true ∧ ((s.core 0).fifo (1 == 1)).length < 8) ∧
    CustomAt (keepS (ins 0x0B 1 0 0 5 5) 0) 0 .ifree (ins 0x0B 1 0 0 5 5) 4 := by
  unfold CustomAt KeeperAt; decide +kernel

/-- A custom instruction of the second opcode, with 5 in x1. -/
def custS (f7 rs2 rs1 f3 rd : Nat) : State := keepS (ins 0x2B f7 rs2 rs1 f3 rd) 5

theorem test_witness_KeeperCounters :
    (CustomAt (custS 31 0 1 0 0) 0 .lsig (ins 0x2B 31 0 1 0 0) 4 ∧ f7Of (ins 0x2B 31 0 1 0 0) < 32) ∧
    (let s := (custS 63 1 1 0 0).put Reg.DTRM_GRID Fld.DTRM_GRID.vgrid 6
     CustomAt s 0 .lsig (ins 0x2B 63 1 1 0 0) 4 ∧ 32 ≤ f7Of (ins 0x2B 63 1 1 0 0) ∧ (s.kx 0 1).toNat < s.vgrid) ∧
    (custS 32 1 1 0 0).vgrid ≤ ((custS 32 1 1 0 0).kx 0 1).toNat ∧
    (∀ f3 ∈ [1, 2],
      let i := ins 0x2B 31 0 1 f3 0
      let s := (custS 31 0 1 f3 0).put (Reg.LOCK_CNT 0 31) Fld.LOCK_CNT.count 5
      CustomAt s 0 (if f3 = 1 then .lwait else .ltake) i 4 ∧ 5 ≤ s.countFor 0 31 .keeper ∧
      CustomAt (custS 31 0 1 f3 0) 0 (if f3 = 1 then .lwait else .ltake) i 4 ∧ (custS 31 0 1 f3 0).countFor 0 31 .keeper < 5) ∧
    CustomAt (custS 31 0 0 3 5) 0 .lread (ins 0x2B 31 0 0 3 5) 4 ∧
    (let s := (withCore (runS 20) { kwait := .lwait 31 5 }).put (Reg.LOCK_CNT 0 31) Fld.LOCK_CNT.count 5
     s.inBeat 0 = true ∧ 5 ≤ s.countFor 0 31 .keeper) := by
  unfold CustomAt KeeperAt; decide +kernel

/-- Slot 5 armed for the cores of `mask`, and LBAR on it. -/
def barS (mask : Word) : State :=
  ((custS 0 0 1 4 0).put (Reg.LOCK_SLOT_CTRL 5) Fld.LOCK_SLOT_CTRL.armed 1).setReg (Reg.LOCK_SLOT_MASK 5 0) mask

/-- The arrival of LBAR at slot 5 is recorded at once. -/
def barReady (s : State) : Bool :=
  ((s.fetch 0).1.slot 5).wait.isEmpty && (s.fetch 0).1.slotAt 5 ((s.fetch 0).1.beatOf 0)

theorem test_witness_KeeperBarrier :
    let i := ins 0x2B 0 0 1 4 0
    let two := barS 3
    let came := two.setSlot 5 { arrived := [0] }
    let early := two.setSlot 5 { arrived := [0], early := [0] }
    let ahead := barS (1 ||| (1 <<< 63))
    (∀ s ∈ [barS 1, two, came, early, ahead, barS 2, custS 0 0 1 4 0], CustomAt s 0 .lbar i 4) ∧
    (barReady two = true ∧ two.slotCores 5 = [0, 1] ∧ (two.slot 5).arrived.contains 0 = false ∧
      (two.slotCores 5).all ((two.slot 5).arrived ++ [0]).contains = false) ∧
    (barReady (barS 1) = true ∧ ((barS 1).slotCores 5).all (((barS 1).slot 5).arrived ++ [0]).contains = true ∧
      (barS 1).get (Reg.LOCK_SLOT_CTRL 5) Fld.LOCK_SLOT_CTRL.fabric = 0 ∧
      (barS 1).written (Reg.LOCK_SLOT_STAT 5) Fld.LOCK_SLOT_STAT.gen = false) ∧
    (barReady came = true ∧ (came.slot 5).arrived.contains 0 = true ∧ (came.slot 5).early.contains 0 = false) ∧
    (barReady early = true ∧ (early.slot 5).early.contains 0 = true) ∧
    (barReady ahead = false ∧ (ahead.slotCores 5).contains 0 = true) ∧
    (barS 2).get (Reg.LOCK_SLOT_CTRL 5) Fld.LOCK_SLOT_CTRL.armed = 1 ∧ ((barS 2).slotCores 5).contains 0 = false ∧
    (custS 0 0 1 4 0).get (Reg.LOCK_SLOT_CTRL 5) Fld.LOCK_SLOT_CTRL.armed = 0 := by
  unfold CustomAt KeeperAt; decide +kernel

/-- `s` with core 0 in step. -/
def inStepS (s : State) : State := s.put (Reg.STEP_STAT 0) Fld.STEP_STAT.in_step 1

theorem test_witness_StepsInCore :
    let kw := ins 0x2B 0 0 0 5 5
    let kd := ins 0x2B 0 0 0 7 0
    let ks := ins 0x2B 0 0 0 6 5
    (CustomAt (keepS kw 0 { nextRec := some [3] }) 0 .kstepw kw 4 ∧ (keepS kw 0).inStep 0 = false ∧
      ((keepS kw 0 { nextRec := some [3] }).core 0).nextRec = some [3]) ∧
    (CustomAt (keepS kw 0) 0 .kstepw kw 4 ∧ ((keepS kw 0).core 0).nextRec = none ∧ ((keepS kw 0).core 0).haltReq = false) ∧
    (CustomAt (inStepS (keepS kw 0)) 0 .kstepw kw 4 ∧ (inStepS (keepS kw 0)).inStep 0 = true) ∧
    (let s := withCore (runS 20) { kwait := .kstepw 5, nextRec := some [3] }
     s.inBeat 0 = true ∧ ∀ m < 256, s.lacksRecord m = false) ∧
    (CustomAt (inStepS (keepS kd 0)) 0 .kdone kd 4 ∧ CustomAt (keepS kd 0) 0 .kdone kd 4 ∧ (keepS kd 0).inStep 0 = false) ∧
    (let s := withCore (runS 20) { kwait := .kdone 19 }
     s.inBeat 0 = true ∧ (s.core 0).idleStreams = true ∧ (s.core 0).idleFrom 19 < s.beatOf 0) ∧
    (let s := (keepS ks 0).put (Reg.MENU_BASE 0) Fld.MENU_BASE.count 1
     CustomAt s 0 .ksel ks 4 ∧ s.kdue 0 (s.lat 17) = true ∧ 0 < s.get (Reg.MENU_BASE 0) Fld.MENU_BASE.count ∧
     leNat (s.bytes (dmemAddr 0 0) 4) = 0 ∧ (s.keeperLines 0 (dmemAddr 0 0) 32).2 = false) ∧
    (CustomAt (keepS ks 0) 0 .ksel ks 4 ∧ (keepS ks 0).get (Reg.MENU_BASE 0) Fld.MENU_BASE.count ≤ 0) := by
  unfold CustomAt KeeperAt; decide +kernel

/-- A read of the register path waits at core 0. -/
def pathS : State :=
  withCore (readyS.setReach 0 { beat := 20, stopped := false }) { narrowQ := [{ addr := 0x5FFFF8, val := none, asker := .none }] }

theorem test_witness_NarrowAccess :
    (let s := withCore (runS 20) { kwait := .narrow (.load 5 0x5FFFE0 2) 20 }
     s.inBeat 0 = true ∧ 20 ≤ s.beatOf 0 ∧ s.narrowFree 0 0x5FFFE0 = true ∧
     ((s.takeNarrow 0 0x5FFFE0).keeperLines 0 0x5FFFE0 4).2 = false) ∧
    (∀ a ∈ [28, 0x600000 + 28],
      let s := withCore (runS 20) { kwait := .narrow (.store a 4 7) 20 }
      s.inBeat 0 = true ∧ s.narrowFree 0 a = true ∧ s.wf = true ∧ a % 32 + 4 ≤ 32 ∧ memKind a ≠ .kdmem) ∧
    ((runS 20).defers 0 = false ∧ (runS 20).defers 0x600000 = true) ∧
    (pathS.inBeat 0 = true ∧ pathS.narrowFree 0 0x5FFFF8 = true ∧ (pathS.core 0).pathAt ≠ some (pathS.beatOf 0) ∧ 0x5FFFF8 / 0x4000000 = 0) := by decide +kernel

theorem test_witness_NarrowAccess_path : pathS.keeperDone 0 = true := by
  have idle : ∀ f : State → Out, f pathS = .next pathS → idleOn f pathS = true := fun f h => by simp [idleOn, h]
  unfold State.keeperDone keeperWork
  simp only [List.all_cons, List.all_nil, Bool.and_true, Bool.and_eq_true]
  refine ⟨?_, ?_, ?_, ?_, ?_, ?_, ?_, ?_, ?_, ?_, ?_, ?_, ?_, ?_, ?_, ?_, ?_, ?_, ?_, ?_, ?_, ?_, ?_, ?_, ?_⟩ <;>
    exact idle _ rfl

/-- Core 0 in a state of R203. -/
def coreSt (st : Nat) (c : Core := {}) : State := (withCore (runS 20) c).put (Reg.CORE_STAT 0) Fld.CORE_STAT.state st

theorem test_witness_CoreControl :
    let ends := fun (c : Core) => (coreSt 3 c).abandons 0 (c.kwait)
    ((runS 20).enabled 0 = true ∧ (coreSt 1).coreState 0 = stStopped ∧ (coreSt 2).coreState 0 = stLoaded ∧
      (runS 20).debugClosed = false) ∧
    ((coreSt 3).coreState 0 = stRunning ∧ ends { kwait := .qwait 0 5 0 } = true ∧
      ends { kwait := .kdone 19, vector := some { desc := [], start := 9, cost := 1 } } = true) ∧
    (coreSt 3).beatOf 0 < ((coreSt 3 { kAt := 21 }).core 0).kAt ∧
    (ends { kAt := 20 } = false ∧ ((coreSt 3 { kAt := 20 }).core 0).kAt ≤ (coreSt 3).beatOf 0 ∧ ends { kwait := .kdone 19 } = false) ∧
    ((coreSt 4).coreState 0 = stHalted ∧ ((coreSt 4).core 0).kstep = false) ∧
    (let s := (coreSt 4).put Reg.LIMS_DEBUG Fld.LIMS_DEBUG.state 2
     s.debugClosed = true ∧ s.coreState 0 = stHalted) := by decide +kernel
/-! ### Macro-ops -/

/-- A descriptor from its fields: word, lowest bit, value. -/
def dd (fs : List (Nat × Nat × Nat)) : List Word :=
  (List.range 8).map fun w => BitVec.ofNat 64 ((fs.filter (·.1 == w)).foldl (fun a f => a + f.2.2 * 2 ^ f.2.1) 0)

/-- A state in which cores of reach 0 may use crossbar forms, with virtual core 0 on core 0. -/
def gridS : State :=
  ((runS 20).put Reg.DTRM_GRID Fld.DTRM_GRID.vgrid 1).put Reg.MESH_MODE Fld.MESH_MODE.xbar 1

/-- Core 0 with `d` alone at the head of a stream. -/
def headS (onX : Bool) (d : List Word) (s : State := gridS) : State :=
  withCore s (if onX then { xFifo := [d] } else { aFifo := [d] })

/-- `Starts` as a test. -/
def starts (s : State) (onX legacy : Bool) (p : OpKind → Bool) (d : List Word) (k : OpKind) : Bool :=
  s.headIs 0 onX legacy p == some (d, k) && s.headIs 0 (!onX) legacy p == none && s.headFate 0 onX == .starts &&
  (s.core 0).sluice.length == 4 && s.headIs 0 (!onX) legacy (fun _ => true) == none

/-- Fields of a vector instruction over 64 FP32 elements: sources at 0, 256 and 512, destination at 768 of window 0. -/
def vecF (i : Nat) : List (Nat × Nat × Nat) :=
  [(0, 0, 0x50 + i), (3, 32, 8 * 1024), (4, 0, 16 * 1024), (4, 32, 24 * 1024), (5, 16, 64), (7, 0, if i = 25 then 1 else 0)]

/-- The same with its cost. -/
def vecD (i : Nat) : List Word := dd ((0, 32, gridS.vecCost (gridS.vecOf 0 i (dd (vecF i)))) :: vecF i)

/-- A state with a parameter record for VSAMPLE at byte 256 of the operand cache: top_k 1, inverse temperature and top_p 1. -/
def recordS : State :=
  gridS.writeAny 0x600100 (List.replicate 12 0 ++ natLe 4 1 ++ natLe 4 0x3F800000 ++ natLe 4 0x3F800000)

/-- A legacy vector instruction, over 64 FP32 elements. -/
def lvecF : List (Nat × Nat × Nat) := [(0, 0, 0x10), (0, 16, 64), (1, 0, 256), (1, 32, 512)]
def lvecD : List Word := dd ((4, 32, gridS.vecCost (gridS.vecOf 0 0 (dd lvecF))) :: lvecF)

/-- A BF16 matrix multiply of one row, in both forms. -/
def mmF : List (Nat × Nat × Nat) :=
  [(0, 0, 0x48), (3, 0, 0x1000000), (5, 32, 0x100000), (6, 40, 64), (6, 16, 64), (6, 0, 1), (7, 8, 2), (7, 4, 2)]
def mmD : List Word := dd ((0, 32, gridS.mmulCost 0 (mmulOf (dd mmF))) :: mmF)
def lmmF : List (Nat × Nat × Nat) :=
  [(0, 0, 1), (0, 16, 1), (1, 32, 0x100000), (2, 32, 64), (3, 0, 64), (3, 20, 2), (3, 16, 2)]
def lmmD : List Word := dd ((4, 32, gridS.mmulCost 0 (mmulOf (dd lmmF))) :: lmmF)

theorem test_witness_UnitStarts :
    (∀ i < 27, starts (headS true (vecD i) recordS) true false (· == .vec i) (vecD i) (.vec i) = true) ∧
    starts (headS true lvecD) true true (fun k => match k with
      | .vec _ => true
      | _ => false) lvecD (.vec 0) = true ∧
    starts (headS true mmD) true false (· == .mmul) mmD .mmul = true ∧
    starts (headS true lmmD) true true (· == .mmul) lmmD .mmul = true ∧
    starts (headS true (dd [(0, 0, 0x40), (0, 32, 1)])) true false (· == .xnop) (dd [(0, 0, 0x40), (0, 32, 1)]) .xnop = true ∧
    starts (headS false (dd [(0, 0, 0x41), (0, 32, 1)])) false false (· == .anop) (dd [(0, 0, 0x41), (0, 32, 1)]) .anop = true := by
  decide +kernel

/-- A mover's descriptor of 32 bytes with a cost above its floor. -/
def movD (op : Nat) (fs : List (Nat × Nat × Nat)) : List Word := dd ((0, 0, op) :: (if op < 0x40 then 4 else 0, 32, 5000) :: fs)

/-- Sluice operations of 32 bytes on sluice `sl`. -/
def sluD (sl : Nat) (j : Nat) : List Word :=
  movD (0x80 + 4 * j + sl) (
    if j = 0 then [(4, 0, 0x100000), (5, 40, 32), (5, 16, 1)]
    else if j = 1 then [(4, 0, 0x100000), (5, 40, 32), (5, 16, 1), (7, 0, 0x10001)]
    else if j = 4 then [(3, 32, 0x100000), (4, 48, 1), (4, 30, 1), (4, 0, 1)]
    else [(3, 0, 0x1000000000), (4, 0, 0x100000), (5, 40, 32), (5, 16, 1)])

theorem test_witness_MoverStarts :
    (let l := movD 0x70 [(3, 32, 0x600000), (5, 48, 1), (5, 0, 32)]
     starts (headS false l) false false (· == .fload) l .fload = true) ∧
    (let l := movD 0x71 [(3, 0, 0x600000), (5, 48, 1), (5, 0, 32)]
     starts (headS false l) false false (· == .fstore) l .fstore = true) ∧
    (∀ op ∈ [2, 3],
      let l := movD op [(0, 16, 1)]
      let k := if op = 2 then OpKind.fload else .fstore
      starts (headS false l) false true (· == k) l k = true) ∧
    (∀ (sl : Fin 4) (j : Fin 5),
      let k := (sluOpCmd 0 sl j).2
      starts (headS false (sluD sl j)) false false (sluClass j) (sluD sl j) k = true) ∧
    (let l := movD 4 [(0, 16, 1), (1, 32, 0x100000)]
     starts (headS false l) false true (sluClass 0) l (.scopy 0) = true) := by decide +kernel
/-- Fields of a push to Q7 and a signal of 2 to counter 5. -/
def endD : List Word := dd [(0, 0, 0x50), (1, 56, 128), (1, 24, 2 + 5 * 2 ^ 16 + 2 ^ 22)]

/-- Unit `u` of core 0 runs a copy of 1 beat. -/
def endS (u : UnitId) (d : List Word := sluD 0 0) : State :=
  withCore (runS 20) (({} : Core).setRunning u (some { desc := d, start := 20, cost := 1 }))

/-- Sluice 0 of core 0 runs a copy between holds whose sub-transfer is open. -/
def sluS : State :=
  { endS (.sluice 0) with mesh := { tx := [(txKey 0 0, { subs := [
    { idx := 0, src := none, sChip := 0, here := true, dst := 0x1000000000, chip := 0, dest := 0x100, rows := 1, rowB := 32
      sstr := 0, dstr := 0, rclass := 0, mcast := none, exit := none }], nextRow := 1 })] } }

theorem test_witness_MacroOpResults :
    (∀ u ∈ [UnitId.array, .vector, .feeder, .sluice 3],
      ((endS u).core 0).running u = some { desc := sluD 0 0, start := 20, cost := 1 } ∧ (endS u).inBeat 0 = true ∧
      20 + 1 ≤ (endS u).beatOf 0 + 1 ∧ (endS u).die.holds.any (unitHold 0 u) = false ∧ ((endS u).core 0).arrayLate = false ∧
      (endS u).lateKinds 0 u = none ∧ ((endS u).core 0).queues.length = 8) ∧
    ((dPush endD).testBit 7 = true ∧ (dPush endD).testBit 0 = false ∧ (dPost endD).kind = 1 ∧ (dPost endD).n ≠ 0 ∧
      (endS .vector endD).lateKinds 0 .vector = none) ∧
    (sluS.lateKinds 0 (.sluice 0) = some (true, false) ∧ sluS.arriving 0 = false ∧
      sluS.die.holds.any (unitHold 0 (.sluice 0)) = false ∧ sluS.inBeat 0 = true) := by decide +kernel

/-- Two writes into bits of their own. -/
def apartW : List PendWrite := [⟨0, 8, 5, false⟩, ⟨8, 256, 7, false⟩]

/-- The vector unit of core 0 in the last beat of an instruction that writes them. -/
def vecEndR : RunOp := { desc := vecD 0, start := 20, cost := 1, writes := apartW }
def vecEndS : State := withCore (runS 20) (({} : Core).setRunning .vector (some vecEndR))

/-- The matrix multiply whose one row of 64 results of 4 bytes goes into the basin, and its run. -/
def drainD : List Word := dd ((5, 16, 8) :: mmF)
def drainR : RunOp := { desc := drainD, start := 0, cost := 1 }

/-- An SRED on sluice 3 that is at its writes. -/
def sredS : State := withCore (runS 20) (({} : Core).setRunning (.sluice 3)
  (some { desc := sluD 3 4, start := 20, cost := 9, done := 1024, writes := apartW }))

theorem test_witness_MacroOpResults_writes :
    ((runS 20).wf = true ∧ Apart (runS 20) apartW) ∧
    ((vecCmds 0)[0]?.isSome = true ∧ starts (headS true (vecD 0) recordS) true false (· == .vec 0) (vecD 0) (.vec 0) = true) ∧
    (EndsNow vecEndS 0 .vector vecEndR ∧ opKind (opByte vecEndR.desc) = some (.vec 0) ∧ vecEndS.wf = true ∧ Apart vecEndS vecEndR.writes) ∧
    (∀ u ∈ [UnitId.array, .feeder, .sluice 3], u ≠ .vector ∧ EndsNow (endS u) 0 u { desc := sluD 0 0, start := 20, cost := 1 }) ∧
    (let o := mmulOf drainR.desc
     let es := drainBytes o.dfmt
     let at_ := fun (i j : Nat) => 8 * ((runS 20).placeAddr 0 o.dstBase + o.dstStride * i + es * j)
     o.n * es ≤ o.dstStride ∧ o.n ≤ o.nTile ∧ drainR.cost ≤ 20 + o.d ∧ 0 < o.m ∧ 63 < o.n ∧
     (∃ b < 20, drainR.cost ≤ b + o.d ∧ ∀ e ∈ [0, 63],
       (b + o.d - drainR.cost) * drainPerBeat o.dfmt ≤ e ∧ e < (b + o.d - drainR.cost + 1) * drainPerBeat o.dfmt) ∧
     ∀ i < o.m, ∀ j < o.n,
       (runS 20).defers (lineOf (at_ i j / 8)) = false ∧ (runS 20).defers (lineOf ((at_ i j + 8 * es - 1) / 8)) = false) ∧
    (let o := redOf (sluD 3 4)
     sredS.wf = true ∧ ((sredS.core 0).running (sluUnit 3)).any (fun r => decide (o.listB + o.partB < r.done)) = true ∧
     Apart sredS (apartW.filter fun w => decide (8 * 0 ≤ w.bit ∧ w.bit < 8 * (0 + 64)))) := by
  unfold Apart EndsNow; refine ⟨?_, ?_, ?_, ?_, ?_, ?_⟩ <;> decide +kernel

/-! ### Locks, the mesh and transfers -/

/-- A barge of a type for a destination, from a header and payload bytes. -/
def bargeOf (ty dest berth : Nat) (pay : List Byte := []) (chip : Nat := 0) : Barge := mkBarge (hdr3 ty chip dest berth 0) (payOf pay)

/-- `b` waits at agent `a`. -/
def withArrival (s : State) (a : Agent) (b : Barge) : State := { s with mesh := { s.mesh with inbox := [⟨a, 0, 0, b⟩] } }

/-- The barge that a command takes. -/
def got (s : State) (a : Agent) (p : Barge → Bool) (b : Barge) : Bool := (s.takeArrival a p).map (·.1.barge) == some b

/-- Slot 63 with two cores of reach 0, in which `v` is to be written. -/
def slotS : State := (runS 20).setReg (Reg.LOCK_SLOT_MASK 63 0) 3

theorem test_witness_SignalsAndSlots :
    (runS 20).inBeat 0 = true ∧
    (let s : State := { runS 20 with locks := { releases := [⟨63, 20, 31, [0, 1]⟩] } }
     s.inBeat 0 = true ∧ (s.slot 63).again = none ∧ [0, 1].Nodup ∧ ∀ n ∈ [0, 1], 20 ≤ s.beatOf n ∧ s.inBeat n = true) ∧
    (let v := Fld.LOCK_SLOT_CTRL.armed.set 0 1
     slotS.get (Reg.LOCK_SLOT_CTRL 63) Fld.LOCK_SLOT_CTRL.armed = 0 ∧ Fld.LOCK_SLOT_CTRL.armed.get v = 1 ∧
     slotS.armable 63 v = true ∧ (runS 20).armable 63 v = false) ∧
    (slotS.put (Reg.LOCK_SLOT_CTRL 63) Fld.LOCK_SLOT_CTRL.armed 1).get (Reg.LOCK_SLOT_CTRL 63) Fld.LOCK_SLOT_CTRL.armed = 1 := by
  decide +kernel

/-- A SIGNAL barge of a kind for counter or slot 5 with n = 2. -/
def sigB (kind : Nat) : Barge := bargeOf tySIGNAL 0x800 0 (natLe 2 2 ++ [5, BitVec.ofNat 8 kind])

/-- Virtual core 0 on core 0, whose counter 5 takes signals of other chips, with a barge at the LOCK block. -/
def sigS (kind : Nat) : State := withArrival (gridS.setReg (Reg.LOCK_XMODE 0) 0x20) .lock (sigB kind)

theorem test_witness_ChipSignals :
    (∀ kind ∈ [0, 1, 2], ((sigS kind).takeSignal kind).map (·.1) = some (sigB kind)) ∧
    (hDest.get (sigB 0).header % 256 < (sigS 0).vgrid ∧ (sigS 0).vmap 0 = 0 ∧ sigIndex (sigB 0) % 32 = 5 ∧
      (sigS 0).xmode 0 5 = true ∧ (sigS 0).die.holds.any ((sigS 0).waitsOn 0 5) = false ∧ (sigS 0).locks.pend.length < 512) ∧
    (withArrival gridS .lock (sigB 0)).xmode 0 5 = false ∧
    (let s : State := { (sigS 0).setCore 0 { kwait := .lwait 5 1 } with die := { holds := [⟨.linkLate, 0, none⟩] } }
     (s.takeSignal 0).map (·.1) = some (sigB 0) ∧ s.xmode 0 5 = true ∧ s.die.holds.any (s.waitsOn 0 5) = true) ∧
    (∀ nchips ∈ [1, 2],
      let b := bargeOf tySIGNAL 0x800 0 (natLe 2 2 ++ [5, 1] ++ natLe 4 0 ++ natLe 4 0 ++ natLe 2 1)
      let s := (withArrival gridS .lock b).put (Reg.LOCK_SLOT_CTRL 5) Fld.LOCK_SLOT_CTRL.nchips nchips
      (s.takeSignal 1).map (·.1) = some b ∧ s.get (Reg.LOCK_SLOT_CTRL 5) Fld.LOCK_SLOT_CTRL.nchips = nchips ∧
      ([(sigGen b, sigApply b)].filter fun p => p.1 == (s.slot 5).gen).length = 1) ∧
    (let s := ((sigS 2).put (Reg.LOCK_SLOT_CTRL 5) Fld.LOCK_SLOT_CTRL.rel_ctr 5).setReg (Reg.LOCK_SLOT_MASK 5 0) 1
     (s.takeSignal 2).map (·.1) = some (sigB 2) ∧ s.locks.pend.length < 512 ∧ s.slotCores 5 ≠ [] ∧
     ∀ n ∈ s.slotCores 5, s.die.holds.any (s.waitsOn n 5) = false) := by decide +kernel

/-- A flit at node 0 with one output. -/
def flitS (out : MeshPort) : State :=
  { runS 20 with mesh := { flits := [⟨0, .localPort, 0, 0, 20, [(out, 0)], bargeOf tyGRANT 1 0⟩] } }

/-- A multicast entry at node 0 with one branch. -/
def mcE (code : Nat) (up : Bool) : McEntry :=
  { node := 0, id := 0xFFF, input := (.east, 0), outs := [(.localPort, 0)], grants := [((.localPort, 0), code, 20)]
    acks := [((.localPort, 0), true, 20)], up := up }

theorem test_witness_MeshForwarding :
    (∀ out ∈ [MeshPort.localPort, .east, .south],
      let s := flitS out
      let f : Flit := ⟨0, .localPort, 0, 0, 20, [(out, 0)], bargeOf tyGRANT 1 0⟩
      s.meshRuns 0 = true ∧ smFind s.mesh.moved (0 * 8 + portNum out) ≠ some (s.nodeBeat 0) ∧
      s.candidates 0 out (s.nodeBeat 0) = [f] ∧ s.outRoom f (out, 0) (s.nodeBeat 0) = true ∧ out ≠ .edge ∧
      isEdge 0 out = false ∧ f.node = 0 ∧ s.enabled 0 = true ∧ f.barge.stale = false ∧ f.barge.hcheck = encodeHeader f.barge.header ∧ bMulti f.barge = false) ∧
    (let s := (flitS .localPort).put (Reg.DEV_CORE_MAP 0) ⟨0, 64⟩ 2
     let f : Flit := ⟨0, .localPort, 0, 0, 20, [(.localPort, 0)], bargeOf tyGRANT 1 0⟩
     s.enabled 0 = false ∧ bType f.barge ≠ tyREG ∧ s.meshRuns 0 = true ∧ s.candidates 0 .localPort (s.nodeBeat 0) = [f] ∧
     s.outRoom f (.localPort, 0) (s.nodeBeat 0) = true ∧ smFind s.mesh.moved (0 * 8 + portNum .localPort) ≠ some (s.nodeBeat 0)) ∧
    (∀ code ∈ [0, 0xFFFF],
      let s : State := { runS 20 with mesh := { mcast := [mcE code false] } }
      s.mcFind 0 0xFFF = some (mcE code false) ∧
      ∀ o ∈ (mcE code false).outs, ∃ g ∈ (mcE code false).grants, g.1 = o ∧ g.2.2 ≤ s.nodeBeat 0) ∧
    (let s : State := { runS 20 with mesh := { mcast := [mcE 0 true] } }
     s.mcFind 0 0xFFF = some (mcE 0 true) ∧ ∀ o ∈ (mcE 0 true).outs, ∃ a ∈ (mcE 0 true).acks, a.1 = o ∧ a.2.2 ≤ s.nodeBeat 0) := by
  decide +kernel

/-- An OPEN of one row of 32 bytes by core `src`, of credit 1. -/
def openB (dest berth src : Nat) : Barge :=
  bargeOf tyOPEN dest berth (natLe 8 0 ++ natLe 8 1 ++ natLe 4 32 ++ natLe 2 1 ++ natLe 2 0 ++ [0, BitVec.ofNat 8 src] ++ natLe 2 0)

/-- Berth 15 of core 0 enabled with one unit and `credit`. -/
def berthS (credit : Nat) : State :=
  (((runS 20).put (Reg.BERTH_W0 0 15) Fld.BERTH_W0.enable 1).put (Reg.BERTH_W0 0 15) Fld.BERTH_W0.size 1).put
    (Reg.BERTH_W1 0 15) Fld.BERTH_W1.credit credit

/-- A landing slot of core 0 and a DATA barge for it. -/
def landL : Landing :=
  { srcChip := 0, srcCore := 1, src := 0, mcast := none, dst := 0, stride := 0, rows := 1, rowB := 64, berth := none }
def dataB : Barge := dataBarge 0 0 0 false 0 63 0 0 (List.replicate 64 7) []
def dataS : State :=
  let s := withArrival (runS 20) (.core 0) dataB
  { s with mesh := { s.mesh with landing := [(slotKey (.core 0) 63, landL)] } }

/-- The first DATA barge of a fill of the store of core 255, and the place for it. -/
def fillL : Landing := fillPlace 1 255 1024
def fillB : Barge := dataBarge 0 255 2 false 0 63 0 fillMark (List.replicate 64 7) []
def fillInS : State :=
  let s := withArrival (runS 20) (.core 255) fillB
  { s with mesh := { s.mesh with landing := [(fillKey 255, fillL)] } }

/-- A READ of 64 bytes in the queue of core 0. -/
def readR : ReadReq :=
  { src := 0, stride := 0, rows := 1, rowB := 64, chip := 0, dest := 1, slot := 0, mcast := false, rclass := 0, parity := 0
    mapTo := 0, sChip := 0, sCore := 1, sSrc := 0 }

theorem test_witness_Landings :
    (let s := withArrival (runS 20) (.hold 0) (openB 0x100 0x3F 1)
     let f : State := { s with mesh := { s.mesh with landing := (List.range 64).map fun i => (slotKey (.hold 0) i, landL) } }
     got s (.hold 0) (fun b => bType b == tyOPEN) (openB 0x100 0x3F 1) = true ∧ s.freeSlot (.hold 0) (s.nodeBeat 0) = some 0 ∧
     got f (.hold 0) (fun b => bType b == tyOPEN) (openB 0x100 0x3F 1) = true ∧ f.freeSlot (.hold 0) (f.nodeBeat 0) = none) ∧
    (∀ n, Agent.hold 0 ≠ .core n) ∧
    (∀ berth ∈ [15, 0x3F], ∀ credit ∈ [0, 1],
      let b := openB 0 berth 1
      let s := (withArrival (berthS credit) (.core 0) b).put (Reg.CORE_STAT 0) Fld.CORE_STAT.state 1
      got s (.core 0) (fun b => bType b == tyOPEN) b = true ∧ s.freeSlot (.core 0) (s.nodeBeat 0) = some 0 ∧
      s.claimsBerth 0 b = (berth == 15) ∧
      s.get (Reg.BERTH_W0 0 15) Fld.BERTH_W0.enable = 1 ∧ s.get (Reg.BERTH_W1 0 15) Fld.BERTH_W1.credit = credit ∧
      payNat b 8 8 = 1 ∧ payNat b 16 4 ≤ 64 * s.get (Reg.BERTH_W0 0 15) Fld.BERTH_W0.size ∧
      64 * s.get (Reg.BERTH_W0 0 15) Fld.BERTH_W0.base ≤ 0) ∧
    (got dataS (.core 0) (fun b => bType b == tyDATA) dataB = true ∧ mapMark dataB = 0 ∧
      dataS.dataSlot (.core 0) dataB = some (slotKey (.core 0) 63, landL) ∧ hSeq.get dataB.header = landL.next % 1024 ∧
      (arriveLine (dataB.payload.extractLsb' 0 256) dataB.check0).2 = (false, 0) ∧
      (arriveLine (dataB.payload.extractLsb' 256 256) dataB.check1).2 = (false, 0)) ∧
    (got fillInS (.core 255) (fun b => bType b == tyDATA) fillB = true ∧ mapMark fillB = fillMark ∧
      fillInS.liveLand (fillKey 255) = some fillL ∧ hSeq.get fillB.header = fillL.next % 1024) ∧
    (let s := withArrival (runS 20) (.core 255) (bargeOf tyREAD 255 0)
     got s (.core 255) (fun b => bType b == tyREAD) (bargeOf tyREAD 255 0) = true ∧ (s.readQ (.core 255)).length < 16) ∧
    (let s := withArrival (runS 20) (.hold 1) (bargeOf tyREAD 0x200 0)
     got s (.hold 1) (fun b => bType b == tyREAD) (bargeOf tyREAD 0x200 0) = true ∧ (s.readQ (.hold 1)).length < 16) ∧
    (let b := bargeOf tyABORT 0 63 (natLe 24 0 ++ [0, 1] ++ natLe 2 0)
     let s := { dataS with mesh := { dataS.mesh with inbox := [⟨.core 0, 0, 0, b⟩] } }
     got s (.core 0) (fun b => bType b == tyABORT) b = true ∧ s.abortSlot (.core 0) b = some (slotKey (.core 0) 63)) ∧
    (let s := (runS 20).setReadQ (.core 0) [readR]
     s.readQ (.core 0) = [readR] ∧ readR.sent = 0 ∧ readR.total = 1 ∧ readR.part = [] ∧ s.meshRuns 0 = true ∧
     s.mayInject 0 readR.rclass = true ∧ s.badLines (readR.place 0).1 (readR.place 0).2 = [] ∧
     (∀ p ∈ piecesOf (readR.place 0).1 (readR.place 0).2, p.1 = 0) ∧
     bMulti (readR.barge 0 (s.bytes 0 64) (s.lineBads 0 64)) = false ∧
     s.isHere (hChip.get (readR.barge 0 (s.bytes 0 64) (s.lineBads 0 64)).header) = true) := by
  decide +kernel

/-- A reply of a type at core 0 for sluice 0. -/
def replyS (ty : Nat) (pay : List Byte) : State := withArrival sluS (.core 0) (bargeOf ty 0 0 pay)

theorem test_witness_TransferReplies :
    (∀ ty ∈ [tyGRANT, tyACK, tyREFUSE],
      let s := replyS ty [1]
      (s.tx 0 0).isSome = true ∧ got s (.core 0) (s.forSluice 0 0 ty) (bargeOf ty 0 0 [1]) = true ∧
      ((s.tx 0 0).bind fun t => t.replied (bargeOf ty 0 0 [1])).isSome = true ∧ (s.sluRunning 0 0).isSome = true ∧
      ((s.core 0).running (sluUnit 0)).isSome = true ∧ (s.core 0).sluice.length = 4 ∧ s.coreState 0 = stRunning) ∧
    payNat (bargeOf tyACK 0 0 [1]) 0 1 % 2 = 1 := by decide +kernel

/-- A barge of 64 bytes for `a` in the ingress buffer of core 0. -/
def ingG (a : Nat) : Ingress :=
  { slot := 0, addr := a, bytes := List.replicate 64 7, poison := [], left := [a, a + 32], given := [a, a + 32], givenAt := 20 }
def ingS (a : Nat) : State := withCore (runS 20) { ingress := [ingG a] }

theorem test_witness_IngressWrites :
    ((ingS 0).wf = true ∧ (ingG 0).bytes.length = 64 ∧ (ingG 0).poison.any id = false) ∧
    (∀ a ∈ [0, 0x5FFFC0, 0x600000, 0x1000000], (ingG a).left = linesFrom a 64 ∧ a % 32 = 0 ∧ ∀ la ∈ (ingG a).left,
      la / 0x4000000 = 0 ∧ la / 64 = a / 64 ∧ (ingS a).defers la = decide (0x600000 ≤ a)) ∧
    ((ingS 0x5FFFC0).meshRuns 0 = true ∧ (ingS 0x5FFFC0).linesNow 0 (ingG 0x5FFFC0) = (ingG 0x5FFFC0).left ∧
      ((ingS 0x5FFFC0).core 0).ingress.find? (fun x => memKind x.addr == .basin && !((ingS 0x5FFFC0).linesNow 0 x).isEmpty) =
        some (ingG 0x5FFFC0)) ∧
    ((ingS 0x600000).meshRuns 0 = true ∧ ((ingS 0x600000).core 0).firstFor .ocache = some (ingG 0x600000) ∧
      ((ingS 0x600000).core 0).ingress.find? (fun x => memKind x.addr == .basin && !((ingS 0x600000).linesNow 0 x).isEmpty) = none ∧
      ((ingS 0x600000).core 0).portBytes + 64 ≤ 256) ∧
    ((ingS 0x1000000).inBeat 0 = true ∧ (ingS 0x1000000).held = false ∧
      smFind (ingS 0x1000000).mesh.wsWrote 0 ≠ some ((ingS 0x1000000).beatOf 0) ∧
      ((ingS 0x1000000).core 0).firstFor .wstore = some (ingG 0x1000000)) := by decide +kernel

/-! ### Holds, settings of a core, and program start -/

/-- Hold 1 trained and scrubbing, with a pseudo-channel as given. -/
def holdS (x : HoldPc) : State :=
  (((runS 20).put (Reg.HOLD_CTRL 1) Fld.HOLD_CTRL.trained 1).put (Reg.HOLD_CTRL 1) Fld.HOLD_CTRL.scrub_en 1).setPc 127 x

/-- A request for the first bytes of hold 1. -/
def holdR (w : Option (List Byte × List Bool)) (f : HoldFor := .none) : HoldReqItem :=
  { key := 0, addr := 0x2000000000, write := w.map fun x => [(0x2000000000, x.1, x.2)], len := 32, for_ := f }

theorem test_witness_HoldControllers :
    (∀ w ∈ [none, some (List.replicate 32 (7 : Byte), [false])],
      let s := holdS { queue := [holdR w] }
      (s.pc 127).queue = [holdR w] ∧ s.pcFree 1 127 = true ∧ s.wf = true) ∧
    ((holdS {}).holdOk 1 = true ∧ ((holdS {}).pc 127).queue = [] ∧ smFind (holdS {}).marks (Reg.HOLD_REFRESH 1) = none ∧
      ((holdS { queue := [holdR none] }).pc 127).postponed = 0 ∧ ((holdS { queue := [holdR none], postponed := 8 }).pc 127).postponed = 8) ∧
    (let s : State := { holdS { postponed := 1 } with now := 4000000 }
     s.pcFree 1 127 = true ∧ (s.pc 127).postponed ≠ 0 ∧ (s.pc 127).queue = [] ∧ (s.pc 127).postAt + s.trefi 1 ≤ s.now ∧
     s.makingUp 1 = false ∧ s.written (Reg.HOLD_REFRESH 1) Fld.HOLD_REFRESH.refreshes = false) ∧
    ((holdS {}).get (Reg.HOLD_CTRL 1) Fld.HOLD_CTRL.scrub_en = 1 ∧ (holdS {}).pcFree 1 127 = true) ∧
    (let s : State := { holdS {} with ecc := [(pcLine 1 127 0, 1)] }
     lineStat (s.eccOf (pcLine 1 127 0)) = .corrected) ∧
    (let s : State := { holdS { rewrite := [0x2000000000] } with ecc := [(0x2000000000, 1)] }
     (s.pc 127).rewrite = [0x2000000000] ∧ (s.pc 127).queue = [] ∧ s.pcFree 1 127 = true ∧ s.wf = true ∧
     lineStat (s.eccOf 0x2000000000) = .corrected) ∧
    ((runS 20).diesHot = true ∧ State.reset.diesHot = false ∧ (105 : Byte).toNat = 105 ∧ (104 : Byte).toNat < 105) ∧
    (State.reset.put Reg.TOLL_BOOT Fld.TOLL_BOOT.phase 6).phase = 6 ∧
    (State.reset.put Reg.TOLL_BOOT Fld.TOLL_BOOT.phase 6).get (Reg.HOLD_CTRL 1) Fld.HOLD_CTRL.trained = 0 := by decide +kernel

theorem test_witness_CoreSettings :
    let grant := Fld.BERTH_W1.grant.set 0 1
    let clear := Fld.BERTH_W1.refused.set 0 1
    (runS 20).enabled 0 = true ∧
    ((runS 20).pathNow = false ∧ (runS 20).die.regQ = [] ∧ (runS 20).dieOn = true ∧ readyS.pathNow = true ∧ readyS.die.regQ = [] ∧
      readyS.dieOn = true) ∧
    (¬(Fld.BERTH_W0.enable.get 0 = 1 ∧ Fld.BERTH_W0.size.get 0 = 0) ∧ 64 * (Fld.BERTH_W0.base.get 0 + Fld.BERTH_W0.size.get 0) ≤ 0x600000) ∧
    (Fld.BERTH_W1.grant.get grant ≠ 0 ∧ Fld.BERTH_W1.refused.get grant = 0 ∧
      (berthS 0).get (Reg.BERTH_W0 0 15) Fld.BERTH_W0.enable = 1 ∧
      (berthS 0).get (Reg.BERTH_W1 0 15) Fld.BERTH_W1.credit + 1 ≤ (berthS 0).get (Reg.BERTH_W0 0 15) Fld.BERTH_W0.size) ∧
    (Fld.BERTH_W1.grant.get clear = 0 ∧ Fld.BERTH_W1.refused.get clear = 1 ∧
      Fld.BERTH_W1.refused.get ((runS 20).mark (Reg.BERTH_W1 0 15)).set = 0) ∧
    Fld.VEC_WIN.base.get (Fld.VEC_WIN.base.set 0 0x3E0) ≤ 0x3E0 ∧
    (List.range 16).any (readyS.modeRefused (readyS.get Reg.MESH_MODE Fld.MESH_MODE.xbar) (Fld.MESH_MODE.xbar.get 1)) = false ∧
    (∃ off ≤ 0xFFFF, Reg.DTRM_CTRL + off = Reg.DTRM_WDOG) ∧
    (Fld.DTRM_CTRL.start.get 0 = 0 ∧ readyS.anyBusy = false) := by
  refine ⟨?_, ?_, ?_, ?_, ?_, ?_, ?_, ⟨Reg.DTRM_WDOG - Reg.DTRM_CTRL, ?_⟩, ?_⟩ <;> decide +kernel

theorem test_witness_SettingsRefused :
    let bad := Fld.BERTH_W0.enable.set 0 1
    let far := Fld.BERTH_W0.size.set (Fld.BERTH_W0.base.set 0 0x17FFF) 2
    let grant := Fld.BERTH_W1.grant.set 0 1
    (runS 20).enabled 0 = true ∧
    (Fld.BERTH_W0.enable.get bad = 1 ∧ Fld.BERTH_W0.size.get bad = 0) ∧
    0x600000 < 64 * (Fld.BERTH_W0.base.get far + Fld.BERTH_W0.size.get far) ∧
    (Fld.BERTH_W1.grant.get grant ≠ 0 ∧ Fld.BERTH_W1.refused.get grant = 0 ∧
      (runS 20).get (Reg.BERTH_W0 0 15) Fld.BERTH_W0.enable = 0 ∧ (berthS 1).get (Reg.BERTH_W0 0 15) Fld.BERTH_W0.enable = 1 ∧
      (berthS 1).get (Reg.BERTH_W0 0 15) Fld.BERTH_W0.size < (berthS 1).get (Reg.BERTH_W1 0 15) Fld.BERTH_W1.credit + 1) ∧
    0x3E0 < Fld.VEC_WIN.base.get (Fld.VEC_WIN.base.set 0 0x3E1) ∧
    (runS 20).modeRefused ((runS 20).get Reg.MESH_MODE Fld.MESH_MODE.xbar) (Fld.MESH_MODE.xbar.get 1) 0 = true ∧
    (Fld.DTRM_CTRL.start.get 0 = 0 ∧ (runS 20).anyBusy = true) := by decide +kernel

/-- Core 255 LOADED. -/
def loadedS : State := readyS.put (Reg.CORE_STAT 255) Fld.CORE_STAT.state 2

theorem test_witness_ProgramStartAndWatchdog :
    loadedS.mayStart = true ∧ loadedS.coreState 255 = stLoaded ∧ readyS.mayStart = false ∧
    (let s : State := { runS 20 with die := { holds := [⟨.linkLate, 0, none⟩], wdogFrom := some 0 } }
     s.die.wdogFrom = some 0 ∧ (∀ h ∈ s.die.holds, h.core < 256) ∧ s.coreState 0 = stRunning ∧
     smFind s.marks Reg.DTRM_WDOG = none) := by decide +kernel
/-! ### Towlines and the fabric -/

/-- Port 47 formed of lane 95 alone, in a state of R385. -/
def portS (st : Nat) (x : Port := {}) : State :=
  let m := Fld.TOWL_PORT_MAP.enable.set (Fld.TOWL_PORT_MAP.base.set 0 95) 1
  ((readyS.setReg (Reg.TOWL_PORT_MAP 47) m).put (Reg.TOWL_PORT_STAT 47) Fld.TOWL_PORT_STAT.state st).setPort 47 x

theorem test_witness_TowlinePorts :
    (∀ l ∈ (portS 1).lanes 47, l < 96) ∧ (portS 4).portOfLane 95 = some 47 ∧
    (portS 4).framesFlow 47 = true ∧ (portS 2 { trained := true }).framesFlow 47 = true ∧ (portS 3).portUp 47 = true ∧
    ((portS 1).portOn 47 = true ∧ (portS 1).portState 47 = pDown ∧ (portS 1).bootFailed = false ∧
      let s := (portS 1).put (Reg.TOWL_LANE_CTRL 95) Fld.TOWL_LANE_CTRL.auto 1
      ∀ l ∈ s.lanes 47, s.get (Reg.TOWL_LANE_CTRL l) Fld.TOWL_LANE_CTRL.auto = 1) ∧
    ((portS 2).portState 47 = pTraining ∧ ((portS 2).port 47).trained = false ∧
      partnersOk ((portS 2).lanes 47).length [95] = true ∧ onePartner [⟨7, 47, 95⟩] = true ∧
      partnersOk ((portS 2).lanes 47).length [] = false ∧ onePartner [⟨7, 47, 94⟩, ⟨8, 47, 95⟩] = false) ∧
    (let s := readyS.put (Reg.TOWL_LANE_CTRL 0) Fld.TOWL_LANE_CTRL.enable 1
     let v := Fld.TOWL_PORT_MAP.enable.set 0 1
     s.portState 0 ≠ pActive ∧ s.bootFailed = false ∧ (s.put Reg.TOLL_BOOT Fld.TOLL_BOOT.phase 6).phase = 6 ∧
     (s.put Reg.TOLL_BOOT Fld.TOLL_BOOT.phase 6).mapOk 0 v = true ∧ Fld.TOWL_PORT_MAP.active.get v = 0 ∧ Fld.TOWL_PORT_MAP.enable.get v = 1 ∧ s.mapOk 0 v = true ∧
     s.mapOk 0 (Fld.TOWL_PORT_MAP.base.set v 96) = false) ∧
    ((portS 3).portState 47 = pLinked ∧ (portS 3).portOn 47 = true) := by decide +kernel

/-- A probe with one hop, to port 47, not yet made. -/
def probeM (op addr mgr : Nat) (index : Nat) : ProbeMsg :=
  { hops := 1, index := BitVec.ofNat 4 index, route := BitVec.ofNat 90 (47 * 2 ^ 84), ret := 0, op := BitVec.ofNat 4 op
    newAddr := BitVec.ofNat 16 addr, mgr := BitVec.ofNat 16 mgr, epoch := 0 }

/-- Port 47 is LINKED or ACTIVE and the parent of the time tree; so is the backup, port 0, where it is up. -/
def timeS : State := (portS 4).put Reg.FABR_TIME_CFG Fld.FABR_TIME_CFG.parent 47

theorem test_witness_LinkMessages :
    (portS 3).portUp 47 = true ∧
    ((probeM 0 0 0 0).index.toNat < (probeM 0 0 0 0).hops.toNat ∧ hopAt (probeM 0 0 0 0).route 0 = 47) ∧
    ((probeM 0 0 0 1).index = (probeM 0 0 0 1).hops ∧ (probeM 0 0 0 1).op = 0 ∧ (probeM 1 5 9 1).op = 1) ∧
    ((probeM 1 0xFFFE 9 1).newAddr.toNat ≠ 0 ∧ (probeM 1 0xFFFE 9 1).newAddr.toNat ≠ 0xFFFF ∧
      (portS 3).get Reg.FABR_ADDR Fld.FABR_ADDR.mgr = 0 ∧ (portS 3).anyBusy = false ∧
      (portS 3).written Reg.FABR_ADDR Fld.FABR_ADDR.addr = false ∧ (portS 3).written Reg.FABR_ADDR Fld.FABR_ADDR.mgr = false ∧ (probeM 1 0xFFFF 9 1).newAddr.toNat = 0xFFFF) ∧
    (let m : ProbeReplyMsg := { hops := 1, index := 1, ret := BitVec.ofNat 90 (47 * 2 ^ 84), serial := 0, role := 0, addr := 0, linked := 0, result := 0 }
     m.index ≠ 0 ∧ (portS 3).awaits 47 m = false ∧ hopAt m.ret (m.index.toNat - 1) = 47) ∧
    (timeS.portUp 47 = true ∧ timeS.get Reg.FABR_TIME_CFG Fld.FABR_TIME_CFG.parent = 47 ∧
      timeS.portUp (timeS.get Reg.FABR_TIME_CFG Fld.FABR_TIME_CFG.backup) = false ∧
      timeS.get Reg.FABR_TIME_CFG Fld.FABR_TIME_CFG.master = 0 ∧ timeS.portActive 47 = true ∧
      timeS.written Reg.FABR_TIME Fld.FABR_TIME.time_ns = false) := by decide +kernel

/-- An idle frame under a sequence number. -/
def frameOf (n : Nat) : Frame := { lane := 95, header := mkHeader n 0 false false 0, flits := List.replicate 8 (mkFlit 0 0), fecBad := false }

set_option maxRecDepth 100000 in
theorem test_witness_Frames :
    (portS 4).framesFlow 47 = true ∧ (portS 4).ferryWork = portS 4 ∧ ((portS 4).port 47).resend = none ∧
    frameBad { frameOf 0 with fecBad := true } = true ∧ frameBad (frameOf 0) = false ∧
    hdFseq (frameOf 1).header ≠ (((portS 4).port 47).good + 1) % 4096 ∧ frameBad (frameOf 1) = false ∧
    hdFseq (frameOf 0).header = (((portS 4).port 47).good + 1) % 4096 ∧ hdNak (frameOf 0).header = false ∧
    (frameOf 0).flits.all (fun x => flType x != 1) = true ∧ (portS 4).fabric.ferry = [] := by decide +kernel

/-- Ferry 3 of `len` bytes between holds that are trained, with a channel as given. -/
def ferryS (len : Nat) (x : Ferry := {}) : State :=
  ((((readyS.put (Reg.HOLD_CTRL 0) Fld.HOLD_CTRL.trained 1).put (Reg.FABR_FERRY_W0 3) Fld.FABR_FERRY_W0.src 0x1000000000).put
    (Reg.FABR_FERRY_W1 3) Fld.FABR_FERRY_W1.dst 0x2000000000).put (Reg.FABR_FERRY_W2 3) Fld.FABR_FERRY_W2.length len).setFerry 3 x

theorem test_witness_FabricTables :
    smSorted readyS.fabric.tables = true ∧
    ((tableAt readyS 0).1 = false ∧ readyS.anyBusy = false ∧ (runS 20).anyBusy = true) ∧
    ((tableAt readyS 0x1FFF8).1 = true ∧ readyS.get Reg.FABR_EPOCH_NEXT Fld.FABR_EPOCH_NEXT.armed = 0 ∧
      (readyS.put Reg.FABR_EPOCH_NEXT Fld.FABR_EPOCH_NEXT.armed 1).get Reg.FABR_EPOCH_NEXT Fld.FABR_EPOCH_NEXT.armed = 1) ∧
    (let v := Fld.FABR_EPOCH_NEXT.armed.set (Fld.FABR_EPOCH_NEXT.next.set 0 1) 1
     Fld.FABR_EPOCH_NEXT.armed.get v = 1 ∧
     Fld.FABR_EPOCH_NEXT.next.get v = (readyS.get Reg.FABR_EPOCH Fld.FABR_EPOCH.epoch + 1) % 2 ^ 32 ∧
     Fld.FABR_EPOCH_NEXT.next.get (Fld.FABR_EPOCH_NEXT.armed.set 0 1) ≠ (readyS.get Reg.FABR_EPOCH Fld.FABR_EPOCH.epoch + 1) % 2 ^ 32) ∧
    (((ferryS 0).ferry 3).active = false ∧
      ∀ n ∈ [0, 256],
        let s := ferryS n
        s.ferrySrc 3 % 256 = 0 ∧ s.ferryDst 3 % 2 ^ 48 % 256 = 0 ∧ s.ferryLen 3 = n ∧ s.holdRange (s.ferrySrc 3) n = true ∧
        0x1000000000 ≤ s.ferryDst 3 % 2 ^ 48 ∧ s.ferryDst 3 % 2 ^ 48 + n ≤ 0x3000000000) ∧
    ((ferryS 256).put (Reg.FABR_FERRY_W1 3) Fld.FABR_FERRY_W1.dst 0x100).ferryDst 3 % 2 ^ 48 < 0x1000000000 ∧
    ((ferryS 255).ferryLen 3 % 256 ≠ 0 ∧ readyS.holdRange 0x3000000000 256 = false) ∧
    (((ferryS 256 { active := true, open_ := [⟨0, 0, none⟩] }).ferry 3).active = true ∧
      ((ferryS 256 { active := true, open_ := [⟨0, 0, none⟩] }).ferry 3).open_ ≠ []) := by decide +kernel

/-- A leader of a domain of `m` members, chip 1 the first of them and this chip. -/
def leadS (m : Nat) (s : State := runS 20) : State :=
  ((((s.put Reg.FABR_STEP_CFG Fld.FABR_STEP_CFG.members m).put Reg.FABR_STEP_CFG Fld.FABR_STEP_CFG.leader 1).setReg
    (Reg.FABR_STEP_MEMBERS 0) 2).put Reg.FABR_ADDR Fld.FABR_ADDR.addr 1).put Reg.FABR_STEP Fld.FABR_STEP.step 1

/-- A STEP barge at the step unit: a ready of chip 1 for step 1, or the record of step 2. -/
def readyB (chip : Nat) : Barge := bargeOf tySTEP 0 0 (natLe 8 1 ++ natLe 2 chip)
def recordB (step : Nat) : Barge := bargeOf tySTEP 0 1 (natLe 8 step)

theorem test_witness_Steps :
    (let s := withCore (leadS 2) { readyFor := some 1 }
     s.fabric.readySent ≠ some 1 ∧ s.allReady 1 = true ∧ s.serving = false ∧ s.get Reg.FABR_STEP Fld.FABR_STEP.step = 1 ∧
     s.get Reg.FABR_STEP_CFG Fld.FABR_STEP_CFG.leader = 1 ∧ s.chipAddr = 1 ∧ ReadyOk s 1 1 ∧
     (smGet [] s.fabric.ready s.fabric.oldest).length + 1 < s.get Reg.FABR_STEP_CFG Fld.FABR_STEP_CFG.members) ∧
    (∀ m ∈ [1, 2],
      let s := withArrival (leadS m) .stepUnit (readyB 1)
      got s .stepUnit (fun b => stepKind b == 0) (readyB 1) = true ∧ payNat (readyB 1) 0 8 = s.fabric.oldest ∧
      ReadyOk s (payNat (readyB 1) 0 8) (payNat (readyB 1) 8 2) ∧ (smGet [] s.fabric.ready 1).length + 1 ≤ m ∧
      s.get Reg.FABR_STEP_CFG Fld.FABR_STEP_CFG.members = m ∧ smGet [] s.fabric.ready 2 = []) ∧
    (let s := withArrival (leadS 2) .stepUnit (readyB 2)
     got s .stepUnit (fun b => stepKind b == 0) (readyB 2) = true ∧ ¬ReadyOk s 1 2) ∧
    (let s : State := { ((leadS 2).put Reg.FABR_STEP_STAT Fld.FABR_STEP_STAT.aligned 1).put Reg.FABR_STEP_CFG Fld.FABR_STEP_CFG.lag 1 with
        fabric := { outRec := [[2]] } }
     s.fabric.outRec = [[2]] ∧ s.mayRelease [2] = true ∧ RecordOk s [2]) ∧
    (let s : State := { leadS 2 with fabric := { firstAt := [(1, 0)] } }
     smFind s.fabric.firstAt s.fabric.oldest = some 0 ∧ s.fabric.stalled ≠ some s.fabric.oldest ∧ s.get Reg.FABR_STEP_CFG Fld.FABR_STEP_CFG.leader = 1) ∧
    (∀ n ∈ [2, 3],
      let s := (withArrival (leadS 2) .stepUnit (recordB n)).put Reg.FABR_STEP_STAT Fld.FABR_STEP_STAT.aligned 1
      got s .stepUnit (fun b => stepKind b == 1) (recordB n) = true ∧ (RecordOk s (recWords (recordB n)) ↔ n = 2)) ∧
    (let s : State := { runS 20 with fabric := { records := [[2]] } }
     s.oldestRec = some [2] ∧ s.mayDeliver [2] = true ∧ s.coreState 0 = stRunning ∧ s.coreState 1 ≠ stRunning) ∧
    (readyS.serving = false) ∧
    (let s := (readyS.put Reg.LEDG_POLICY Fld.LEDG_POLICY.enable 1).put Reg.STRM_MODE Fld.STRM_MODE.role 1
     s.serving = true ∧ s.replaying = false ∧ s.engine.unproc.length ≤ s.get Reg.FABR_STEP_CFG Fld.FABR_STEP_CFG.lag) := by
  unfold ReadyOk RecordOk; refine ⟨?_, ?_, ?_, ?_, ?_, ?_, ?_, ?_, ?_⟩ <;> decide +kernel

/-! ### Messages, ports and queue pairs -/

/-- A session of class `cls` with address 7 and port 9. -/
def sessS (cls : Nat) : Session := { id := 5, slot := 0, src := 7, sport := 9, ifc := 0, cls := cls, qp := none, keepMs := 10 }

/-- A wharf whose interface 0 is up and whose firmware runs, with one session. -/
def wharfS (x : Session := sessS 0) : State :=
  { ((readyS.put Reg.STRM_MODE Fld.STRM_MODE.role 1).put (Reg.ENET_PORT_STAT 0) Fld.ENET_PORT_STAT.link 1).put (Reg.ENET_PORT_CTRL 0)
      Fld.ENET_PORT_CTRL.mtu 1500 with
    host := { up := true, sessions := [(5, x)], control := [(0, 0)], nextId := 6 } }

/-- A message of a type, a session and a number, from that session's source. -/
def msgS (ty sess seq : Nat) (p : List Byte := []) (h : Nat := 0) (flags : Nat := 0) : Datagram :=
  ⟨0, none, 7, 9, msgBytes ty flags sess seq 0 h 0 p⟩

theorem test_witness_MessageTurn :
    Carries (msgS 0x30 5 1) (.openSession (msgS 0x30 5 1)) false ∧
    (let d : Datagram := ⟨0, none, 7, 9, []⟩
     Carries d (.undefinedMessageType d) true ∧ wharfS.frameIn d.ifc d.tag = true ∧ wharfS.host.up = true ∧ wharfS.phase = 7 ∧
     wharfS.isWharf = true ∧ wharfS.msgOk d = false ∧ (wharfS.put Reg.TOLL_BOOT Fld.TOLL_BOOT.phase 6).phase ≠ 7) ∧
    (let d := msgS 1 0 1 (natLe 8 0)
     Carries d (.openSession d) true ∧ Taken wharfS d ∧ msgType d = 1 ∧ msgSession d = 0 ∧ msgSeq d = 1) ∧
    (∀ ty ∈ [4, 5],
     let d := msgS ty 5 0
     Carries d (if ty = 4 then .ackMessage d else .keepalive d) true ∧ Taken wharfS d ∧ wharfS.sessionOf d = some (sessS 0) ∧
     (sessS 0).id = msgSession d ∧ (sessS 0).unacked = [] ∧ msgType d = ty) ∧
    (let d := msgS 0x33 5 1
     Carries d (.query d) true ∧ InTurn d wharfS (sessS 0) ∧ msgType d ≠ 4 ∧ msgType d ≠ 5) := by
  unfold Carries InTurn Taken; refine ⟨?_, ?_, ?_, ?_, ?_⟩ <;> decide +kernel

/-- A message of a type with payload `p` that the session expects. -/
def turnS (ty : Nat) (p : List Byte := []) (s : State := wharfS) (h : Nat := 0) : Prop :=
  InTurn (msgS ty 5 1 p h) s (sessS 0) ∧ msgType (msgS ty 5 1 p h) = ty ∧ msgPayload (msgS ty 5 1 p h) = p ∧
  msgHandle (msgS ty 5 1 p h) = h

theorem test_witness_ControlMessages :
    ((sessS 0).held = [] ∧ (sessS 0).cls = 0) ∧
    (∀ w : Bool, turnS (if w then 0x11 else 0x10) (natLe 16 0) ∧ regList w (natLe 16 0) ≠ [] ∧ (regList w (natLe 16 0)).length ≤ 32 ∧
      (natLe 16 0).length % 16 = 0 ∧ turnS (if w then 0x11 else 0x10) ∧ regList w [] = []) ∧
    (∀ ty ∈ [0x20, 0x22, 0x50, 0x51], turnS ty) ∧
    (∀ op ∈ [0, 1, 2], turnS 0x60 (natLe 4 (op * 65536)) ∧ fieldOf (natLe 4 (op * 65536)) 2 1 = op) ∧
    (∀ chip ∈ [0, 3], ∀ id ∈ [0, 1],
      let p := natLe 32 0 ++ natLe 2 chip ++ natLe 2 id
      turnS 0x70 p ∧ wharfS.isHere (fieldOf p 32 2) = (chip == 0) ∧ fieldOf p 34 1 = id) ∧
    turnS 0x72 ∧
    (let o := natLe 8 0 ++ natLe 8 9 ++ List.replicate 3488 0
     let x : Session := { sessS 0 with parts := o }
     let s := (wharfS x).setReg (Reg.FABR_STEP_MEMBERS 0) 8
     InTurn (msgS 0x72 5 1) s x ∧ x.held = [] ∧ x.cls = 0 ∧ o.length = 3504 ∧ fieldOf o 8 8 ≠ (s.reg Reg.DEV_SERIAL).toNat ∧
     fieldOf o 8 8 ≠ 0 ∧ ¬ ∀ c ∈ s.members, s.isHere c = true) ∧
    (∀ f ∈ [0, 1], fieldOf (msgS 0x72 5 1 [] 0 (2 * f)).bytes 3 1 / 2 % 2 = f ∧ InTurn (msgS 0x72 5 1 [] 0 (2 * f)) wharfS (sessS 0)) := by
  unfold turnS InTurn Taken; refine ⟨?_, ?_, ?_, ?_, ?_, ?_, ?_, ?_⟩ <;> decide +kernel

/-- A wharf on which the swap of message 1 of session 5 is armed, to begin at step `at_` if one is given. -/
def armedS (at_ : Option Nat := none) : State := { wharfS with engine := { armed := some (5, 1), switchAt := at_ } }

/-- A wharf with a request of handle 2^20 in the ledger. -/
def ledgS : State :=
  (wharfS.put Reg.LEDG_COUNT Fld.LEDG_COUNT.capacity 1).setLed 0 Led.state 1

/-- A wharf with a request that is pinned to weight epoch 1, the old one. -/
def pinnedS : State :=
  ((ledgS.put Reg.WSWP_EPOCH Fld.WSWP_EPOCH.old_epoch 1).setLed 0 Led.pinned 1).setLed 0 Led.epoch 1

theorem test_witness_ControlMessages_swaps :
    (∀ op ∈ [0, 1, 2], turnS 0x40 (natLe 12 0 ++ natLe 4 op) ∧ swapOp (msgS 0x40 5 1 (natLe 12 0 ++ natLe 4 op)) = op ∧
      turnS 0x40 (natLe 12 0 ++ natLe 4 op) armedS) ∧
    wharfS.armBusy = false ∧ armedS.armBusy = true ∧ armedS.armMsg = some (5, 1) ∧ armedS.engine.switchAt = none ∧
    (wharfS.engine.unpin = [] ∧ pinnedS.engine.unpin = []) ∧ wharfS.armMsg = none ∧ (armedS (some 4)).engine.switchAt ≠ none ∧ turnS 0x40 (natLe 12 0 ++ natLe 4 2) pinnedS ∧
    (let v := fun s : State => s.setSess (received s (sessS 0) (msgS 0x40 5 1 (natLe 12 0 ++ natLe 4 2)))
     (v wharfS).countPinned.get Reg.WSWP_STAT Fld.WSWP_STAT.pinned_old = 0 ∧
     (v pinnedS).countPinned.get Reg.WSWP_STAT Fld.WSWP_STAT.pinned_old ≠ 0) := by
  unfold turnS InTurn Taken; refine ⟨?_, ?_, ?_, ?_, ?_, ?_, ?_, ?_, ?_, ?_⟩ <;> decide +kernel

theorem test_witness_ServingMessages :
    (let d := msgS 1 0 1 (natLe 4 0 ++ natLe 4 0xFFFFFFFF)
     Taken wharfS d ∧ msgType d = 1 ∧ msgSession d = 0 ∧ msgSeq d = 1 ∧ fieldOf (msgPayload d) 0 1 = 0 ∧ wharfS.mayControl d.src = true ∧
     wharfS.host.sessions.length < 256 ∧ fieldOf (msgPayload d) 4 4 = 0xFFFFFFFF) ∧
    (∀ ty ∈ [4, 5], let d := msgS ty 5 0
      Taken wharfS d ∧ wharfS.sessionOf d = some (sessS 0) ∧ (sessS 0).id = msgSession d ∧ (sessS 0).unacked = [] ∧ msgType d = ty) ∧
    (∀ ty ∈ [3, 0x30, 0x36, 0x37], turnS ty) ∧ smSorted wharfS.host.sessions = true ∧ (wharfS.serving && wharfS.replaying) = false ∧
    (∀ ty ∈ [0x31, 0x32, 0x33], turnS ty [] ledgS (2 ^ 20) ∧ turnS ty ∧
      (let v := fun (s : State) (h : Nat) => (s.setSess (received s (sessS 0) (msgS ty 5 1 [] h))).actTables ty []
       (v ledgS (2 ^ 20)).findReq (2 ^ 20) = some 0 ∧ (v wharfS 0).findReq 0 = none)) ∧
    (ledgS.serving && ledgS.replaying) = false ∧
    (turnS 0x38 (natLe 48 0) ∧ tenantBad (natLe 48 0) = false ∧
      ((wharfS.setSess (received wharfS (sessS 0) (msgS 0x38 5 1 (natLe 48 0)))).actTables 0x38 (natLe 48 0)).engine.sched.length < 256) ∧
    (turnS 0x99 ∧ 0x99 ∉ hostTypes ∧ 0x99 ∉ deviceTypes) ∧
    (let d := msgS 0x10 5 1
     InTurn d (wharfS (sessS 1)) (sessS 1) ∧ (sessS 1).held = [] ∧ Carries d (.regRead d) true ∧ msgType d ≠ 4 ∧ msgType d ≠ 5 ∧
     msgType d ∈ hostTypes ∧ classMay (sessS 1).cls (msgType d) = false) := by
  unfold turnS InTurn Taken Carries; refine ⟨?_, ?_, ?_, ?_, ?_, ?_, ?_, ?_, ?_, ?_⟩ <;> decide +kernel

/-- Priority 3 of port 0 as given. -/
def prioS (x : Prio) : State := wharfS.setPrio 0 3 x

theorem test_witness_EthernetPorts :
    (wharfS.linkUp 0 = true ∧ wharfS.linkUp 2 = false ∧ wharfS.frameIn 0 none = true ∧ wharfS.rxFull 0 (tagPrio none) = false ∧
      wharfS.host.up = true ∧ wharfS.written (Reg.ENET_PORT_STAT 0) Fld.ENET_PORT_STAT.rx_drops = false) ∧
    (let s := readyS.put (Reg.ENET_PORT_CTRL 0) Fld.ENET_PORT_CTRL.enable 1
     s.portPowered 0 = true ∧ splitHas (s.split 0) 0 = true ∧ s.linkUp 0 = false ∧ s.bootFailed = false) ∧
    (let s := wharfS.put (Reg.ENET_PORT_CTRL 0) Fld.ENET_PORT_CTRL.enable 1
     s.linkUp 0 = true ∧ s.portPowered 0 = true) ∧
    (∀ m ∈ [1499, 1500, 9216, 9217], Fld.ENET_PORT_CTRL.mtu.get (Fld.ENET_PORT_CTRL.mtu.set 0 m) = m) ∧
    (readyS.portPowered 0 = false ∧ Fld.ENET_PORT_CTRL.split.get (Fld.ENET_PORT_CTRL.split.set 0 2) = 2) ∧
    (let s := (wharfS.put (Reg.ENET_IF_W0 0) Fld.ENET_IF_W0.v4_en 1).put (Reg.ENET_IF_W1 0) Fld.ENET_IF_W1.v4_addr 77
     mapped 77 ∈ s.ifAddrs 0 ∧ (s.prio 0 0).dead = none ∧ (s.prio 0 0).until_ = none) ∧
    (let s := wharfS.put (Reg.ENET_PORT_CTRL 0) Fld.ENET_PORT_CTRL.pfc_honour 8
     (s.prio 0 3).dead = none ∧ s.hasBit (Reg.ENET_PORT_CTRL 0) Fld.ENET_PORT_CTRL.pfc_honour 3 = true) ∧
    ((prioS { until_ := some 5 }).prio 0 3).until_ = some 5 ∧
    (let s := (prioS { xoff := true, level := 262144 }).put (Reg.ENET_PORT_CTRL 0) Fld.ENET_PORT_CTRL.pfc_gen 8
     s.pfcGen 0 3 = true ∧ (s.prio 0 3).xoff = true ∧ 262144 ≤ (s.prio 0 3).level ∧
     s.get (Reg.ENET_PORT_STAT 0) Fld.ENET_PORT_STAT.link ≠ 0) ∧
    (((prioS { until_ := some 100000000000 }).prio 0 3).until_ = some 100000000000 ∧
      ((prioS { until_ := some 100000000000 }).prio 0 3).since + 100000000000 ≤ 100000000000) ∧
    ((prioS { dead := some 5 }).prio 0 3).dead = some 5 := by
  refine ⟨?_, ?_, ?_, ?_, ?_, ?_, ?_, ?_, ?_, ?_, ?_⟩ <;> decide +kernel

/-- A message that has been sent `n` times. -/
def sentS (n : Nat) : SentMsg :=
  { seq := 1, ty := 5, flags := 0, handle := 0, status := 0, payload := [], sentAt := 0, tries := n, finals := [] }

theorem test_witness_SessionTimers :
    (wharfS.sess (5 : BitVec 32).toNat = some (sessS 0) ∧ (sessS 0).id = (5 : BitVec 32).toNat) ∧
    (({ sessS 0 with ackOwed := some 3 } : Session).ackOwed = some 3) ∧
    (∀ n ∈ [7, 8], firstDue ({ sessS 0 with unacked := [sentS n] } : Session).unacked = some (sentS n)) ∧
    smSorted wharfS.host.sessions = true ∧ smFind wharfS.marks Reg.STRM_STAT = none ∧
    (let s : State := { wharfS with diag := { events := [(0, ⟨0, 0, 0, 0, 0, 0, 0⟩)] } }
     (sessS 0).cls = 0 ∧ s.diag.eventBase ≤ (sessS 0).evNext ∧
     (s.diag.events.drop ((sessS 0).evNext - s.diag.eventBase)).take (min 64 (s.maxPayload (sessS 0).ifc / 40)) ≠ []) := by decide +kernel

/-- A REG barge of chip 1 for Hold 0: operation `op`, asker `k`. -/
def regB (op : Nat) (k : Nat := 0) : Barge :=
  bargeOf tyREG 0 0 (natLe 8 0x1000000000 ++ natLe 8 5 ++ natLe 1 op ++ natLe 1 0 ++ natLe 2 1 ++ natLe 2 0 ++ natLe 4 k)

/-- A ready device on the I3C bus at address 9, with a route to chip 3. -/
def i3cS (wait : Bool := false) (ans : Option (Nat × Word) := none) : State :=
  { (readyS.put (Reg.TOWL_PORT_STAT 0) Fld.TOWL_PORT_STAT.state 4) with
    now := 1000000000
    fabric := { tables := [(3, rtValid.set 0 1)] }
    toll := { pwrOk := true, resetN := true, i3cDyn := some 9, i3cAns := ans, i3cWait := wait, i3cFar := wait, i3cSeq := 1 } }

/-- A ready device whose core 0 is fenced. -/
def fencedS (s : State := readyS) : State := s.put (Reg.DEV_CORE_MAP 0) ⟨0, 64⟩ 2

/-- Hold 0 trained, with an access of the register path at the head of its first pseudo-channel. -/
def pathReqS (q : Asker) (w : Option Word) : State :=
  ((i3cS true).put (Reg.HOLD_CTRL 0) Fld.HOLD_CTRL.trained 1).setPc 0
    { queue := [⟨0, 0x1000000000, w.map fun v => [(0x1000000000, natLe 8 v.toNat, [])], 8, .path q⟩] }

theorem test_witness_RegisterAccess_local :
    (readyS.wf = true ∧ readyS.pathOpen 1 true = false ∧ HoldWord readyS 0x1000000000 ∧ HoldWord readyS 0x2FFFFFFFF8) ∧
    (readyS.pathNow = true ∧ readyS.die.regQ = [] ∧ (runS 3).wf = true ∧ (runS 3).pathNow = false ∧ (runS 3).die.regQ = []) ∧
    (∀ b ∈ [2, 3],
     let x : RegWait := ⟨b, b, 1, .access ⟨0x400000000, none, .none⟩⟩
     let s : State := { runS 3 with die := { regQ := [x] } }
     s.wf = true ∧ s.die.regQ = [x] ∧ s.regDue x = (b == 2)) ∧
    (let s := fencedS
     s.wf = true ∧ s.dieOn = true ∧ s.enabled ((0x3FFFFF8 : BitVec 48).toNat / 0x4000000) = false) ∧
    (∀ w : Bool,
     let s := pathReqS (.i3c 1) (if w then some 5 else none)
     s.wf = true ∧ s.pcFree 0 0 = true ∧ s.toll.i3cWait = true ∧ s.toll.i3cSeq = 1 ∧ HoldWord s 0x1000000000 ∧
     s.qpStateAt 0x1000000000 = none ∧ lineStat (s.eccOf (lineOf 0x1000000000)) ≠ .uncorrectable) := by
  unfold HoldWord; refine ⟨?_, ?_, ?_, ?_, ?_⟩ <;> decide +kernel

theorem test_witness_RegisterAccess_barges :
    (let s := withArrival (i3cS true) .regPath (regB 2 3)
     s.wf = true ∧ got s .regPath (fun b => bType b == tyREG) (regB 2 3) = true ∧ regOp (regB 2 3) = 2 ∧ regAsker (regB 2 3) = 3 ∧
     s.toll.i3cWait = true ∧ s.toll.i3cSeq = 1) ∧
    (let s := withArrival (runS 3) .regPath (regB 0)
     s.wf = true ∧ got s .regPath (fun b => bType b == tyREG) (regB 0) = true ∧ regOp (regB 0) = 0 ∧ s.pathNow = false ∧
     s.die.regQ = []) ∧
    (∀ op ∈ [0, 1],
     let s := withArrival (readyS.put Reg.FABR_ADDR Fld.FABR_ADDR.mgr 1) .regPath (regB op)
     s.wf = true ∧ got s .regPath (fun b => bType b == tyREG) (regB op) = true ∧ regOp (regB op) = op ∧ s.pathNow = true ∧
     s.die.regQ = [] ∧ s.mayWrite (regSrc (regB op)) (regAddr (regB op)) = true ∧ HoldWord s (regAddr (regB op))) ∧
    (let s := withArrival readyS .regPath (regB 1)
     got s .regPath (fun b => bType b == tyREG) (regB 1) = true ∧ s.pathNow = true ∧ s.die.regQ = [] ∧
     s.mayWrite (regSrc (regB 1)) (regAddr (regB 1)) = false) := by
  unfold HoldWord; refine ⟨?_, ?_, ?_, ?_⟩ <;> decide +kernel

theorem test_witness_RegisterAccess_i3c :
    (readyS.i3cOn = false ∧ i3cS.i3cOn = true ∧ i3cS.wf = true ∧ i3cS.dieOn = true ∧ i3cS.isHere 0 = true ∧ i3cS.isHere 3 = false ∧
      (i3cS.lookup i3cS.bank 3 false).isSome = true ∧ i3cS.lookup i3cS.bank 4 false = none) ∧
    (i3cS.pathNow = true ∧ i3cS.die.regQ = [] ∧ PlainRead i3cS 0x400000000 ∧ PlainRead i3cS 0x40013FFF8 ∧ i3cS.pathOpen 1 false = false ∧
      i3cS.pathOpen 1 true = false ∧ (fencedS i3cS).enabled 0 = false ∧ (fencedS i3cS).dieOn = true ∧ HoldWord i3cS 0x1000000000) ∧
    (∀ cmd ∈ [1, 2], ∀ a ∈ [1, 8, 0x400000000, 0x1000000000],
      let bs := natLe 1 cmd ++ natLe 2 0 ++ natLe 6 a ++ natLe 8 0
      fieldOf bs 0 1 = cmd ∧ fieldOf bs 1 2 = 0 ∧ fieldOf bs 3 6 = a ∧ bs.length = 17) ∧
    ((i3cS false (some (0, 5))).wf = true ∧ (i3cS false (some (0, 5))).toll.i3cWait = false ∧
      (i3cS false (some (0, 5))).toll.i3cAns = some (0, 5) ∧ i3cS.toll.i3cAns = none) ∧
    ((i3cS true).wf = true ∧ (i3cS true).toll.i3cWait = true ∧ (i3cS true).toll.i3cFar = true ∧
      (i3cS true).toll.i3cAt + 1000000000 ≤ (i3cS true).now) ∧
    (readyS.toll.pwrOk = true ∧ readyS.toll.i3cDyn = none ∧ State.reset.toll.pwrOk = false ∧
      ({ readyS with toll := { pwrOk := true, i3cStatic := 4 } } : State).toll.i3cStatic ≠ 0) := by
  unfold HoldWord PlainRead; refine ⟨?_, ?_, ?_, ?_, ?_, ?_⟩ <;> decide +kernel

/-- The context of a queue pair that is ready, at the base of the contexts in Hold 0, on interface 0: expected number 4, timeout 1,
retries `r`, a receive region at Hold 0 of another pair. -/
def qpBytes (ty retry : Nat) : List Byte :=
  natLe 8 0x1000200000 ++ natLe 12 0 ++ natLe 4 2000 ++ natLe 1 ty ++ natLe 1 1 ++ natLe 1 retry ++ natLe 1 0 ++ natLe 3 4 ++ natLe 9 0 ++
    natLe 2 1

/-- A wharf with queue pair 0 ready, region 0 open to it over 64 bytes of Hold 0 in the ways of `acc`. -/
def rdmaS (q : Qp := {}) (ty : Nat := 1) (acc : Nat := 3) (retry : Nat := 10) : State :=
  let s := (((wharfS { sessS 0 with qp := none }).setReg Reg.ENET_QP (Fld.ENET_QP.count.set (Fld.ENET_QP.base.set 0 0x100000) 1)).setReg
    Reg.ENET_MR (Fld.ENET_MR.count.set (Fld.ENET_MR.base.set 0 0x100001) 1)).put (Reg.HOLD_CTRL 0) Fld.HOLD_CTRL.trained 1
  let s := s.writeAny (s.qpAt 0) (qpBytes ty retry)
  let s := s.writeAny (65536 * 0x100001)
    (natLe 9 0 ++ natLe 1 acc ++ natLe 2 0 ++ natLe 4 0xFFFFFFFF ++ natLe 8 64 ++ natLe 8 0x1000100000)
  s.setQp 0 q

/-- A packet for queue pair 0. -/
def pktS (psn len : Nat) (bs : List Byte) : Packet :=
  { ifc := 0, qpn := 0x100, psn := BitVec.ofNat 24 psn, rkey := 0, vaddr := 0x1000100000, length := BitVec.ofNat 32 len, imm := 3, bytes := bs,
    ce := false, supported := true }

theorem test_witness_Rdma_arrival :
    (rdmaS.wf = true ∧ RoceTaken rdmaS (pktS 4 8 [1, 2]) ∧ LeavesNow rdmaS (pktS 4 8 [1, 2]) ∧
      HeldBack (rdmaS { paceAt := 5 }) (pktS 4 8 [1, 2]) ∧ rdmaS.badLines (rdmaS.qpAt 0) 64 = [] ∧ (rdmaS.qp 0).paced = []) ∧
    (rdmaS.frameIn 1 none = false ∧ rdmaS.frameIn 0 none = true ∧ rdmaS.packetFor { pktS 4 8 [] with qpn := 0x101 } = false ∧
      RoceCome rdmaS { pktS 4 8 [] with supported := false } ∧ RoceCome rdmaS { pktS 4 8 [] with ce := true } ∧
      (rdmaS.qp 0).cnpSent = none) ∧
    (rdmaS.psnPlace (pktS 3 8 []) = 2 ∧ rdmaS.psnPlace (pktS 4 8 []) = 0 ∧ rdmaS.psnPlace (pktS 5 8 []) = 1) ∧
    (∀ n ∈ [0, 64], rdmaS.regionOk (pktS 4 n []) n 1 = true) ∧
    (rdmaS.regionOk (pktS 4 65 []) 65 1 = false ∧ rdmaS.regionOk (pktS 4 2 [1, 2]) 2 0 = true ∧ (pktS 4 2 [1, 2]).bytes.length ≠ 0 ∧
      rdmaS.regionOk (pktS 4 0 []) 0 0 = true ∧ (rdmaS {} 1 2).regionOk (pktS 4 0 []) 0 0 = false) ∧
    (∀ n ∈ [63, 64],
     let s := rdmaS { unread := n } 2
     s.wf = true ∧ RoceTaken s (pktS 4 2 [1, 2]) ∧ s.psnPlace (pktS 4 2 [1, 2]) = 0 ∧ s.qpField 0 24 1 = 2 ∧ s.isWharf = true ∧
     s.holdRange (s.qpField 0 0 8 % 2 ^ 48) (64 * 8224) = true ∧
     ((s.qp 0).unread < 64 ↔ n = 63)) ∧
    rdmaS.qpField 0 24 1 ≠ 2 := by
  unfold RoceTaken RoceCome LeavesNow HeldBack Unpaused; refine ⟨?_, ?_, ?_, ?_, ?_, ?_, ?_⟩ <;> decide +kernel

theorem test_witness_Rdma_requests :
    ((rdmaS {} 1 3 56).rnrMax 0 = 7 ∧ (rdmaS.qp 0).rnrs < rdmaS.rnrMax 0 ∧ rdmaS.rnrMax 0 = 1 ∧
      (rdmaS { rnrs := 1 }).rnrMax 0 ≤ ((rdmaS { rnrs := 1 }).qp 0).rnrs) ∧
    (let o : OutReq := { psn := 4, packet := { qp := 0, kind := 3, psn := 4 }, ring := some 0 }
     let s := (rdmaS { out_ := [o] }).setRing 0 { idx := 0, prod := 4 }
     RoceTaken s (pktS 4 8 (natLe 8 2)) ∧ s.readAt 0 4 = some o ∧ s.ring (s.led 0 Led.ring) = some { idx := 0, prod := 4 } ∧
     fieldOf (natLe 8 2) 0 8 ≤ 4) ∧
    (let o : OutReq := { psn := 4, packet := { qp := 0, kind := 3, psn := 4 } }
     ∀ n ∈ [1, 2],
     let s := rdmaS { out_ := [o], retries := n }
     s.wf = true ∧ s.qpReady (0 : BitVec 12).toNat = true ∧ (s.qp 0).out_ ≠ [] ∧ ((s.qp 0).retries < s.retryMax 0 ↔ n = 1)) ∧
    (let f : Fetch := { id := 0, pkt := pktS 4 8 [], left := 1 }
     let s := (rdmaS { fetches := [f] }).setPc 0 { queue := [⟨0, 0x1000100000, none, 8, .fetch 0 0 0⟩] }
     s.wf = true ∧ s.pcFree 0 0 = true ∧ (s.qp 0).fetches = [f] ∧ qpOf f.pkt = 0 ∧ s.linkUp f.pkt.ifc = true ∧
     LeavesNow s f.pkt) ∧
    (let x : EthTx := { qp := 0, ifc := 0, prio := 0, addr := 0x1000100000, bytes := [1], asked := true, slot := some 0, sent := 1, imm := some 7 }
     let b := bargeOf tyACK 0 0 []
     let s := withArrival ({ rdmaS with host := { rdmaS.host with etx := [(0, [x])] } }) (ethAgent 0) b
     s.wf = true ∧ s.etxQ 0 = [x] ∧ got s (ethAgent 0) isPortReply b = true ∧ bType b = tyACK) := by
  unfold RoceTaken RoceCome LeavesNow Unpaused; refine ⟨?_, ?_, ?_, ?_, ?_⟩ <;> decide +kernel

/-! ### Weight epochs, power and idle states -/

/-- A ready device with core 0 mapped and slices of 1 KiB in Hold 0, in a state and mode of the WSWP block and with a ready epoch. -/
def swapS (st ready mode : Nat) : State :=
  let s := ((readyS.put (Reg.DEV_CORE_MAP 0) ⟨0, 64⟩ 1).put Reg.DTRM_GRID Fld.DTRM_GRID.vgrid 1).put (Reg.WSWP_STAGE 0)
    Fld.WSWP_STAGE.base 0x100000
  let s := (s.put Reg.WSWP_MODE Fld.WSWP_MODE.slice_kib 1).put Reg.WSWP_MODE Fld.WSWP_MODE.mode mode
  (s.put Reg.WSWP_STAT Fld.WSWP_STAT.state st).put Reg.WSWP_STAT Fld.WSWP_STAT.ready_epoch ready

/-- Bits 0 and 1 of the first line of the slice of core 0 are inverted. -/
def ueS : State := { swapS 1 0 1 with ecc := [(0x1000000000, 3)] }

/-- The blocks of core 0's slice come back, and its front end is at byte `n`. -/
def fillR (n : Nat) : FillRun := { core := 0, sent := n, got := [(n / 256, (List.replicate 256 7, List.replicate 8 false))] }

theorem test_witness_WeightSwaps :
    ((swapS 0 2 1).wState = 0 ∧ (swapS 1 2 1).wState = 1 ∧ (swapS 1 2 1).mappedCores = [0] ∧
      (swapS 1 2 1).readStaging.anyUe ((swapS 1 2 1).sliceAt 0) (swapS 1 2 1).sliceLen = false) ∧
    (ueS.wState = 1 ∧ ∃ n ∈ ueS.mappedCores, ueS.readStaging.anyUe (ueS.sliceAt n) ueS.sliceLen = true) ∧
    (let s : State := { swapS 0 2 1 with weights := { begun := true } }
     s.wState = 0 ∧ s.readyEpoch ≠ 0 ∧ s.wMode = 1 ∧ s.weights.begun = true ∧
     s.countPinned.get Reg.WSWP_STAT Fld.WSWP_STAT.pinned_old = 0) ∧
    (∀ c ∈ [0, 1],
      let s : State := { swapS 2 2 1 with weights := { copy := c } }
      s.wState = 2 ∧ s.enabled 0 = true ∧ FillEnded s) ∧
    (∀ c ∈ [(2, false), (3, true), (3, false)],
      let s : State := { swapS c.1 2 1 with weights := { load := c.2, fills := [fillR 0] } }
      s.wState = c.1 ∧ s.weights.load = c.2 ∧ s.fillWork.fillDone = false) ∧
    (∀ n ∈ [0, 960],
      let s := swapS 3 2 1
      let b := dataBarge 0 0 2 false (n / 64) 0x3F s.stepParity fillMark (List.replicate 64 7) [false, false]
      let p := s.injectAt (fillAgent 0) b
      (smFind (fillR n).got (n / 256)).isSome = true ∧ n < s.sliceLen ∧ s.fillPaced = true ∧ s.injFree p.1 p.2 = true ∧
      s.inputRoom p.1 p.2 2 (s.nodeBeat p.1) = true) ∧
    ((swapS 0 2 2).anyBusy = false ∧ (swapS 0 2 2).wState = 0 ∧ (swapS 0 2 2).wMode = 2 ∧ (swapS 0 2 2).vgrid ≠ 0 ∧
      (swapS 0 2 2).readyEpoch ≠ 0 ∧ (runS 3).anyBusy = true) ∧
    (let s : State := { swapS 3 2 1 with weights := { load := true } }
     s.wState = 3 ∧ s.weights.load = true ∧ FillEnded s) ∧
    (∀ e ∈ [1, 2], let v := Fld.WSWP_ARM.next.set (Fld.WSWP_ARM.armed.set 0 1) e
      Fld.WSWP_ARM.armed.get v = 1 ∧ ((swapS 0 2 1).readyEpoch = Fld.WSWP_ARM.next.get v ↔ e = 2)) ∧
    (wharfS.engine.switchAt = none ∧ wharfS.armMsg = none ∧ armedS.engine.switchAt = none ∧ armedS.armMsg = some (5, 1) ∧
      (armedS (some 4)).engine.switchAt ≠ none) ∧
    (let s : State := { ((swapS 0 2 2).put Reg.WSWP_ARM Fld.WSWP_ARM.armed 1).put Reg.WSWP_ARM Fld.WSWP_ARM.next 2 with
        fabric := { records := [[1, 0, BitVec.ofNat 64 (2 * 2 ^ 32)]] } }
     s.oldestRec = some [1, 0, BitVec.ofNat 64 (2 * 2 ^ 32)] ∧ s.wantsStaged [1, 0, BitVec.ofNat 64 (2 * 2 ^ 32)] = true ∧
     s.stepEnded = true ∧ s.wState = 0) ∧
    ((swapS 3 2 2).wState = 3 ∧ (swapS 3 2 2).weights.load = false ∧ FillEnded (swapS 3 2 2) ∧
      (swapS 3 2 2).written Reg.WSWP_ARM Fld.WSWP_ARM.armed = false) := by
  unfold FillEnded; refine ⟨?_, ?_, ?_, ?_, ?_, ?_, ?_, ?_, ?_, ?_, ?_, ?_⟩ <;> decide +kernel

theorem test_witness_PowerAndEnergy :
    (let s : State := { (readyS.put Reg.WEIR_WINDOW Fld.WEIR_WINDOW.window_ns 500).put (Reg.WEIR_LIMIT 2) Fld.WEIR_LIMIT.limit 1 with now := 7 }
     s.weirCode 2 < 3 ∧
     ∃ t, exec (.weirSample 2 5) s = .next t ∧ t.weirCode 2 = 3) ∧
    (let s : State := (readyS.put Reg.WEIR_STAT Fld.WEIR_STAT.code (4 ^ 2)).setWeir 2 { lowFrom := some 3 }
     (s.weir 2).lowFrom = some 3 ∧ s.weirCode 2 ≠ 0 ∧ s.idle.waitWeir = false) ∧
    (∀ v ∈ [7, 8],
      let s := readyS.put (Reg.WEIR_LIMIT 0) Fld.WEIR_LIMIT.ceiling 7
      Fld.WEIR_LIMIT.limit.get (Fld.WEIR_LIMIT.limit.set 0 v) ≤ s.get (Reg.WEIR_LIMIT 0) Fld.WEIR_LIMIT.ceiling ↔ v = 7) ∧
    (∀ w ∈ [499, 500, 20000, 20001], ∀ h ∈ [200, 201],
      let v := Fld.WEIR_WINDOW.window_ns.set (Fld.WEIR_WINDOW.hyst_pm.set (Fld.WEIR_WINDOW.t3_pm.set (Fld.WEIR_WINDOW.t2_pm.set
        (Fld.WEIR_WINDOW.t1_pm.set 0 700) 800) 900) h) w
      Fld.WEIR_WINDOW.t1_pm.get v = 700 ∧ Fld.WEIR_WINDOW.t2_pm.get v = 800 ∧ Fld.WEIR_WINDOW.t3_pm.get v = 900 ∧
      Fld.WEIR_WINDOW.hyst_pm.get v = h ∧ Fld.WEIR_WINDOW.window_ns.get v = w) ∧
    (let s := (readyS.put Reg.LEDG_POLICY Fld.LEDG_POLICY.enable 1).put Reg.STRM_MODE Fld.STRM_MODE.role 1
     s.serving = true ∧ (s.put Reg.ENGY_CTRL Fld.ENGY_CTRL.attr_en 1).get Reg.ENGY_CTRL Fld.ENGY_CTRL.attr_en = 1) ∧
    (let s : State := { (readyS.put Reg.IDLE_SUSTAIN Fld.IDLE_SUSTAIN.window_ms 1).put Reg.ENGY_PKG Fld.ENGY_PKG.energy_uj 5 with
        power := { ticks := [0] } }
     s.get Reg.IDLE_SUSTAIN Fld.IDLE_SUSTAIN.window_ms ≠ 0 ∧ s.get Reg.IDLE_SUSTAIN Fld.IDLE_SUSTAIN.window_ms ≤ s.power.ticks.length ∧
     1000 * s.get Reg.IDLE_SUSTAIN Fld.IDLE_SUSTAIN.window_ms * s.get Reg.IDLE_SUSTAIN Fld.IDLE_SUSTAIN.sustained_w <
       (s.get Reg.ENGY_PKG Fld.ENGY_PKG.energy_uj + 2 ^ 64 - (5 :: s.power.ticks).getD 1 0) % 2 ^ 64) ∧
    ((atReach { capWatch := true, goodSince := 3 }).capReaches ≠ [] ∧ readyS.marks = [] ∧
      readyS.written Reg.ENGY_GROUP Fld.ENGY_GROUP.acc = false) ∧
    (∀ at_ ∈ [0, 1],
      let v := Fld.IDLE_OPSET.reach_mask.set (Fld.IDLE_OPSET.at_record.set (Fld.IDLE_OPSET.go.set 0 1) at_) 1
      Fld.IDLE_OPSET.go.get v = 1 ∧ Fld.IDLE_OPSET.at_record.get v = at_ ∧ Fld.IDLE_OPSET.target.get v ≤ readyS.ceil ∧
      (Fld.IDLE_OPSET.reach_mask.get v).testBit 0 = true ∧ (Fld.IDLE_OPSET.reach_mask.get v).testBit 15 = false ∧
      readyS.get (Reg.PACE_OPSEL 0) Fld.PACE_OPSEL.auto_down = 0) := by
  refine ⟨⟨by decide +kernel, _, rfl, by decide +kernel⟩, ?_, ?_, ?_, ?_, ?_, ?_, ?_⟩ <;> decide +kernel

/-- A ready device whose die has been quiescent since time 0, with a wake budget. -/
def quietS (budget : Nat) (s : State := readyS) : State :=
  { s.setReg Reg.IDLE_BUDGET_NS (Fld.IDLE_BUDGET_NS.budget_ns.set 0 budget) with idle := { quiet := some 0 } }

/-- An idle device in state `x`. -/
def idleS (x : Nat) (waking : Bool) : State := { readyS with idle := { state := x, waking := waking } }

theorem test_witness_IdleStates :
    (∀ p ∈ [(1999, 0), (2000, 1), (39999, 1), (40000, 2), (599999, 2), (600000, 3), (9999999999, 3)],
      let s := quietS p.1
      s.ready = true ∧ s.idle.state = 0 ∧ s.testState = 0 ∧ s.toll.ctxAt = none ∧ s.toll.reaching = [] ∧ s.quiescent = true ∧
      s.idle.quiet = some 0 ∧ s.get Reg.WEIR_STAT Fld.WEIR_STAT.code = 0 ∧ s.chosen = p.2) ∧
    (let s := (quietS 40000).put Reg.WEIR_STAT Fld.WEIR_STAT.code 1
     s.quiescent = true ∧ s.chosen = 2 ∧ s.get Reg.WEIR_STAT Fld.WEIR_STAT.code ≠ 0) ∧
    (let s := quietS 10000000000
     s.quiescent = true ∧ s.chosen = 4) ∧
    ((idleS 1 true).idle.state ≠ 0 ∧ (idleS 1 true).idle.waking = true) ∧
    (∀ x ∈ [1, 2, 3], (idleS x false).idle.state ∈ [1, 2, 3] ∧ (idleS x false).idle.waking = false) ∧
    (idleS 0 false).idle.state = 0 := by
  refine ⟨?_, ?_, ?_, ?_, ?_, ?_⟩ <;> decide +kernel

/-! ### Boot, resets, capture and self-test -/

/-- A device in a boot phase, with power and RESET_N high. -/
def phaseS (p : Nat) (t : Toll := { pwrOk := true, resetN := true }) : State :=
  { State.reset.put Reg.TOLL_BOOT Fld.TOLL_BOOT.phase p with toll := t }

/-- The rails of the first `k` groups on and good. -/
def railsS (p k : Nat) (downing : Bool := false) : State :=
  let on := (List.range 4).map fun g => decide (g < k)
  phaseS p { pwrOk := true, resetN := true, en := on, pg := on, downing := downing }

/-- Boot before its last rail is good, without a clock on each side. -/
def lastRailS (tref eref : Bool) : State :=
  phaseS 4 { pwrOk := true, resetN := true, en := [true, true, true, true], pg := [true, true, true, false], trefLost := tref,
             erefLost := eref }

theorem test_witness_Boot :
    (∀ r ∈ [true, false], ({ State.reset with toll := { resetN := r } } : State).toll.pwrOk = false ∧
      ({ State.reset with toll := { resetN := r } } : State).toll.resetN = r) ∧
    (let s := phaseS 0 { pwrOk := true }
     s.toll.resetN = false ∧ s.toll.lowAt = none ∧ s.toll.pwrOk = true ∧ s.phase = 0) ∧
    (let s := phaseS 7 { pwrOk := true, lowAt := some 3 }
     s.toll.resetN = false ∧ s.toll.lowAt = some 3 ∧ s.ready = true) ∧
    (∀ slot : Fin 2, let s := phaseS 1 { pwrOk := true, resetN := true, slot := slot.val }
      s.phase = 1 ∧ s.tollOnly = false ∧ s.toll.slot = slot.val ∧ s.imageCode [] ≠ 0) ∧
    (∀ g : Fin 4, let s := railsS 4 g.val
      FourRails s ∧ s.phase = 4 ∧ s.toll.downing = false ∧ s.railEn g = false ∧
      (g ≠ 0 → s.railEn (g.val - 1) = true ∧ s.railPg (g.val - 1) = true) ∧ s.railPg 3 = false ∧ s.railPg g = false) ∧
    (∀ b ∈ [true, false], ∀ c ∈ [true, false],
      let s := phaseS 4 { pwrOk := true, resetN := true, en := [true, true, true, false], pg := [true, true, true, true], trefLost := b,
                          erefLost := c }
      FourRails s ∧ s.phase = 4 ∧ s.toll.downing = false ∧ s.railEn 3 = false ∧ s.railEn 2 = true ∧ s.railPg 2 = true ∧
      s.railPg 3 = true ∧ s.toll.trefLost = b ∧ s.toll.erefLost = c) ∧
    (∀ b ∈ [true, false], ∀ c ∈ [true, false],
      FourRails (lastRailS b c) ∧ (lastRailS b c).railEn 3 = true ∧ (lastRailS b c).railPg 3 = false ∧ (lastRailS b c).phase = 4 ∧
      (lastRailS b c).toll.trefLost = b ∧ (lastRailS b c).toll.erefLost = c) ∧
    (let s : State := { ((phaseS 6).put (Reg.HOLD_CTRL 0) Fld.HOLD_CTRL.trained 1).put (Reg.HOLD_CTRL 1) Fld.HOLD_CTRL.trained 1 with
        host := { up := true } }
     s.phase = 6 ∧ (∀ h : Fin 2, s.get (Reg.HOLD_CTRL h) Fld.HOLD_CTRL.trained = 1) ∧ s.toll.trying = [] ∧ s.host.up = true) ∧
    (∀ g : Fin 4, let s := railsS 4 (g.val + 1) true
      FourRails s ∧ s.toll.downing = true ∧ s.railEn g = true ∧ (∀ j : Fin 4, g < j → s.railEn j = false)) ∧
    ((phaseS 3 { tripped := true }).phase = 3 ∧ (phaseS 3 { tripped := true }).tollOnly = false ∧
      (phaseS 3 { tripped := true }).toll.tripped = true) := by
  unfold FourRails; refine ⟨?_, ?_, ?_, ?_, ?_, ?_, ?_, ?_, ?_, ?_⟩ <;> decide +kernel

/-- An image of the manufacturer with the sections that R532 requires, all zero. -/
def imgS : List Byte :=
  let sect := fun (t at_ len : Nat) => natLe 4 t ++ natLe 4 at_ ++ natLe 8 len
  natLe 4 0x49445641 ++ natLe 2 0 ++ natLe 2 1 ++ natLe 10 0 ++ natLe 2 6 ++ natLe 4 64 ++ natLe 8 0 ++ natLe 4 1984 ++ natLe 4 1984 ++
    natLe 24 0 ++ sect 2 160 128 ++ sect 3 288 8 ++ sect 4 296 8 ++ sect 5 304 1152 ++ sect 6 1456 528 ++ sect 7 1984 0 ++
    List.replicate (1984 - 160 + 3373) 0

/-- The hypothesis of the clause on an accepted image (code 0) rests on the signature check, of which nothing can be computed: where
that check holds, this image meets it. -/
theorem test_witness_Boot_image (hv : ∀ k key msg sig, Config.verifies k key msg sig = true) :
    (phaseS 1).phase = 1 ∧ (phaseS 1).tollOnly = false ∧ (phaseS 1).toll.slot = (0 : Fin 2).val ∧ (phaseS 1).imageCode imgS = 0 := by
  have h1 : imageOk imgS = true := by decide +kernel
  have h2 : (phaseS 1).hasOwner = false := by decide +kernel
  have h3 : fieldOf imgS 17 1 = 0 ∧ ¬fieldOf imgS 28 4 < (phaseS 1).get Reg.LIMS_SEC_FLOOR Fld.LIMS_SEC_FLOOR.floor := by
    decide +kernel
  refine ⟨by decide +kernel, by decide, by decide, ?_⟩
  unfold State.imageCode bothVerify
  simp only [h1, h2, h3.1, h3.2, hv]
  rfl

theorem test_witness_FaultsAndTestPort :
    (∀ p ∈ [1, 2, 3, 5, 6, 7, 0xE], let s := railsS p 4
      s.railPg 0 = true ∧ s.railEn 0 = true ∧ s.phase ≠ 4 ∧ s.toll.downing = false ∧ s.tollOnly = false ∧ s.diesHot = true) ∧
    (let s := phaseS 4 { pg := [true, false, false, false] }
     s.railPg 0 = true ∧ s.railEn 0 = false) ∧
    (readyS.dieOn = true ∧ readyS.diesHot = true ∧ (phaseS 4).dieOn = false ∧ (phaseS 4).diesHot = false ∧ (114 : Byte).toNat < 115 ∧ 115 ≤ (115 : Byte).toNat ∧ (104 : Byte).toNat < 105 ∧
      105 ≤ (105 : Byte).toNat) ∧
    (let s := readyS.put Reg.FABR_TIME_CFG Fld.FABR_TIME_CFG.master 1
     s.dieOn = true ∧ s.get Reg.FABR_TIME_CFG Fld.FABR_TIME_CFG.master = 1) ∧
    (∀ st ∈ [2, 3, 4], let s := portS st
      s.dieOn = true ∧ LanesOk s 47 ∧ s.lanes 47 ≠ [] ∧ (∀ l ∈ s.lanes 47, s.portOfLane l = some 47) ∧ s.portOn 47 = true ∧
      s.portState 47 ∈ [pTraining, pLinked, pActive]) ∧
    ({ readyS with toll := { tap := 3, ir := some 255 } } : State).tapReg = 0 ∧
    (tapNext 14 true = 15 ∧ tapNext 9 true = 0 ∧
      ({ readyS with toll := { tap := 4, drShift := [true] } } : State).toll.drShift = true :: []) := by unfold LanesOk; decide +kernel

/-- The clauses on boundary cells rest on what an instruction code selects, of which nothing can be computed: where code 5 selects
SAMPLE/PRELOAD, these states meet them. -/
theorem test_witness_FaultsAndTestPort_cells (h : Config.jtagSelect 5 = 2) :
    (∀ st ∈ [3, 5], let s : State := { readyS with toll := { tap := st, ir := some 5 } }
      s.toll.tap = st ∧ onBoundary s.tapReg = true) ∧ tapNext 5 true = 8 := by
  have hr : ∀ st : Nat, ({ readyS with toll := { tap := st, ir := some 5 } } : State).tapReg = 2 := fun st => by
    simp [State.tapReg, h, irBits]
  exact ⟨fun st _ => ⟨rfl, by simp only [hr]; decide⟩, by decide⟩

theorem test_witness_Resets :
    (readyS.toll.pwrOk = true ∧ readyS.toll.resetN = true ∧ (phaseS 4).phase < 5 ∧ 7 < (phaseS 8).phase ∧ (phaseS 4).ready = false ∧
      (phaseS 4).toll.resetN = true ∧ (phaseS 5).toll.resetN = true ∧ 5 ≤ (phaseS 5).phase ∧ (phaseS 5).tollOnly = false) ∧
    (readyS.ready = true ∧ readyS.wf = true ∧ (phaseS 4).booting = true ∧ readyS.booting = false ∧ readyS.toll.ctxAt = none) ∧
    (let s : State := { readyS with toll := { pwrOk := true, resetN := true, ctxAt := some 5 } }
     s.toll.ctxAt = some 5 ∧ s.ready = true) ∧
    (readyS.anyBusy = false ∧ (runS 3).ready = true ∧ (runS 3).anyBusy = true ∧ (runS 3).toll.ctxAt = none) ∧
    (busyState ((runS 3).coreState 0) = true ∧ (1 : BitVec 16).toNat.testBit (reachOf 0) = true ∧
      ∀ n < 256, (1 : BitVec 16).toNat.testBit (reachOf n) = true → busyState (readyS.coreState n) = false) ∧
    (let s : State := { readyS with toll := { pwrOk := true, resetN := true, reaching := [0] } }
     (0 : Fin 16).val ∈ s.toll.reaching) := by decide +kernel

/-- Capture armed with every source selected. -/
def snapS : State := (readyS.put Reg.SNAP_ARM Fld.SNAP_ARM.armed 1).setReg Reg.SNAP_TRIG_SEL (BitVec.ofNat 64 (2 ^ 64 - 1))

theorem test_witness_Capture :
    (snapS.get Reg.SNAP_ARM Fld.SNAP_ARM.armed = 1 ∧ snapS.get Reg.FABR_TIME Fld.FABR_TIME.time_ns ≤ snapS.get Reg.SNAP_TIME Fld.SNAP_TIME.time ∧
      (let s := readyS.put Reg.FABR_TIME Fld.FABR_TIME.time_ns 1
       s.get Reg.SNAP_TIME Fld.SNAP_TIME.time < s.get Reg.FABR_TIME Fld.FABR_TIME.time_ns)) ∧
    readyS.get Reg.SNAP_ARM Fld.SNAP_ARM.armed = 0 ∧
    (∀ from_ ∈ [0, 1], ∀ src ∈ [0, 1, 2, 3, 4, 5], ∀ c ∈ [none, some (1, 0, 0)],
      let s : State := { snapS with diag := { triggers := [⟨src, 0x3401, from_⟩], capture := c } }
      s.diag.triggers = [⟨src, 0x3401, from_⟩] ∧ (from_ ≤ s.now ↔ from_ = 0) ∧ s.diag.capture = c ∧ s.srcOn src 0x3401 = true ∧
      s.get Reg.SNAP_ARM Fld.SNAP_ARM.armed = 1 ∧ s.written Reg.SNAP_STAT Fld.SNAP_STAT.missed = false) ∧
    (let s : State := { snapS with diag := { capture := some (1, 0, 0) } }
     s.diag.capture = some (1, 0, 0) ∧ s.allBegun 1 = false) ∧
    (∀ f ∈ [0, 1], let s : State := { runS 3 with diag := { capture := some (0, 0, 0) } }
      s.diag.capture = some (0, 0, 0) ∧ s.allBegun 0 = true ∧
      (s.put Reg.SNAP_ARM Fld.SNAP_ARM.freeze f).get Reg.SNAP_ARM Fld.SNAP_ARM.freeze = f ∧ s.coreState 0 = stRunning ∧
      s.written Reg.SNAP_STAT Fld.SNAP_STAT.captures = false ∧ s.written Reg.ERRS_COUNT Fld.ERRS_COUNT.evt_lost = false ∧
      s.written Reg.SNAP_ARM Fld.SNAP_ARM.armed = false ∧ s.marks = []) ∧
    (snapped (Reg.KEEP_PC 255) = true ∧ Reg.KEEP_PC 255 ∉ [Reg.IDLE_STATE, Reg.FABR_STEP_STAT, Reg.FABR_EVQ]) ∧
    (∀ d ∈ [1, 2], (Fld.SNAP_ARM.freeze.get (Fld.SNAP_ARM.freeze.set 0 1) = 1 ∧
      ((readyS.put Reg.LIMS_DEBUG Fld.LIMS_DEBUG.state d).debugClosed = true ↔ d = 2))) ∧
    (let s : State := { readyS with diag := { fwd := [(3, [1, 2, 3, 7])] } }
     ((smGet [] s.diag.fwd (3 : BitVec 16).toNat).getD 3 0).toNat = 7 ∧ (s.diag.events.filter (fun x => x.1 != 0)).length < 256) ∧
    (let s : State := { readyS with diag := { fwd := [(3, [1, 2, 3, 6])] } }
     ((smGet [] s.diag.fwd (3 : BitVec 16).toNat).getD 3 0).toNat ≠ 7) := by
  refine ⟨?_, ?_, ?_, ?_, ?_, ?_, ?_, ?_, ?_⟩ <;> decide +kernel

/-- A test in a state, with a code and the diagnostic state given. -/
def testS (st code : Nat) (d : Diag := {}) : State :=
  { (readyS.put Reg.TEST_STAT Fld.TEST_STAT.state st).put Reg.TEST_STAT Fld.TEST_STAT.test code with diag := d }

theorem test_witness_SelfTest :
    ((testS 1 1).testState ≠ 0 ∧ (testS 0 0).testState = 0 ∧
      ∀ k ∈ [0, 1, 4, 5, 6], ∀ ms ∈ [0, 1], Fld.TEST_REQ.test.get (Fld.TEST_REQ.timeout_ms.set (Fld.TEST_REQ.test.set 0 k) ms) = k ∧
        Fld.TEST_REQ.timeout_ms.get (Fld.TEST_REQ.timeout_ms.set (Fld.TEST_REQ.test.set 0 k) ms) = ms) ∧
    ((testS 0 0).portActive 0 = false ∧ (portS 4).portActive (Fld.TEST_REQ.port.get (Fld.TEST_REQ.port.set 0 47)) = true ∧
      (portS 4).testState = 0) ∧
    (∀ st ∈ [1, 3], let s := (testS 0 0).put (Reg.CORE_STAT 0) Fld.CORE_STAT.state st
      let u := s.noteQuiet
      let w := { u with diag := { u.diag with testUnitAt := none } }
      s.testState = 0 ∧ ((w.windowOpen = false ∧ w.quiescedHost = false) ↔ st = 3)) ∧
    (∀ ms ∈ [0, 1], ((testS 1 1).put Reg.TEST_REQ Fld.TEST_REQ.timeout_ms ms).testState = 1 ∧
      ((testS 1 1).put Reg.TEST_REQ Fld.TEST_REQ.timeout_ms ms).get Reg.TEST_REQ Fld.TEST_REQ.timeout_ms = ms) ∧
    ((testS 2 1 { testUnitAt := some 3 }).testState ≠ 0 ∧ (testS 2 1 { testUnitAt := some 3 }).diag.testUnitAt ≠ none) ∧
    ((testS 1 1).diag.testUnitAt = none ∧ (testS 1 1).idle.state = 0 ∧ (testS 1 1).quiescedHost = true) ∧
    (let s : State := { (testS 1 1).put Reg.LEDG_POLICY Fld.LEDG_POLICY.enable 1 with idle := { quiet := some 4 } }
     s.testState ≠ 0 ∧ s.diag.testUnitAt = none ∧ s.idle.state = 0 ∧ s.quiescedHost = false ∧ s.testCode ≠ 5 ∧ s.quiescent = true ∧
     s.noteQuiet.idle.quiet = some 4) ∧
    (let s := ((testS 1 1).put (Reg.CORE_STAT 0) Fld.CORE_STAT.state 3)
     s.testState ≠ 0 ∧ s.diag.testUnitAt = none ∧ s.idle.state = 0 ∧ s.quiescedHost = false ∧ s.quiescent = false) ∧
    (∀ c ∈ [true, false], (testS 2 1 { testUnitAt := some 3, testCancel := c }).diag.testUnitAt ≠ none ∧
      (testS 2 1 { testUnitAt := some 3, testCancel := c }).diag.testCancel = c) ∧
    (∀ n ∈ [62, 63], (testUnits (testS 2 3 { testUnitAt := some 3, testUnitCount := n }).testCode ≤
      (testS 2 3 { testUnitAt := some 3, testUnitCount := n }).diag.testUnitCount + 1 ↔ n = 63)) ∧
    (testS 1 1).testState = 1 := by refine ⟨?_, ?_, ?_, ?_, ?_, ?_, ?_, ?_, ?_, ?_, ?_⟩ <;> decide +kernel

/-- A member whose mask forwards an error of class 3 to chip 3, to which a route leads if it says so. -/
def fwdS (route : Bool) : State :=
  { ((i3cS.put Reg.FABR_STEP_CFG Fld.FABR_STEP_CFG.lchip 3).put Reg.ERRS_CTRL Fld.ERRS_CTRL.fwd_mask 8) with
    fabric := { tables := if route then [(3, rtValid.set 0 1)] else [] } }

theorem test_witness_ErrorLogged :
    ((0x3A05 : Nat) < 2 ^ 16 ∧ wharfS.isWharf = true ∧ wharfS.burst = [] ∧ wharfS.written Reg.ERRS_COUNT Fld.ERRS_COUNT.logged = false ∧
      wharfS.written Reg.ERRS_COUNT Fld.ERRS_COUNT.dropped = false) ∧
    (∀ n ∈ [59, 63, 64],
      let s : State := { wharfS with diag := { intake := List.replicate n ⟨0, 0, 0, 0, 0, 0, 0⟩ } }
      s.burst.length = n ∧ s.burst.Pairwise (fun x y => y.before x = false)) ∧
    (∀ r ∈ [true, false], let s := fwdS r
      s.isWharf = false ∧ s.hasBit Reg.ERRS_CTRL Fld.ERRS_CTRL.fwd_mask (0x3A05 / 4096) = true ∧
      s.get Reg.FABR_STEP_CFG Fld.FABR_STEP_CFG.lchip = 3 ∧ s.isHere 3 = false ∧ (s.lookup s.bank 3 false).isSome = r ∧ s.burst = []) := by
  refine ⟨?_, ?_, ?_⟩ <;> decide +kernel

theorem test_witness_LineCode : (0 : Fin 256) ≠ 255 ∧ (0 : Fin 10) ≠ 9 := by decide

theorem test_witness_OrderFree :
    ([.nan, .inf true] : List Machine.Num).Perm [.inf true, .nan] ∧ ([.fin 1, .fin 2] : List AfaOut).Perm [.fin 2, .fin 1] ∧
    (afaMax : Int).natAbs ≤ afaMax := by
  refine ⟨List.Perm.swap .., List.Perm.swap .., by decide⟩

/-! ### Ill-formed commands, and values of the manual -/

theorem test_wf_beatToken : (Instr.beatToken 0 (List.replicate 7 0)).wf = false ∧ (Instr.beatToken 0 (List.replicate 8 0)).wf = true := by
  decide

theorem test_wf_frame :
    (Instr.frameReceive 0 { frameOf 0 with flits := List.replicate 9 0 }).wf = false ∧
    (Instr.frameReceive 0 { frameOf 0 with lane := 96 }).wf = false ∧ (Instr.frameReceive 0 { frameOf 0 with fixed := 16 }).wf = false ∧
    (Instr.frameReceive 0 (frameOf 0)).wf = true := by decide +kernel

theorem test_wf_training : (Instr.trainingComplete 0 (List.replicate 97 ⟨7, 47, 95⟩)).wf = false ∧
    (Instr.trainingComplete 0 (List.replicate 96 ⟨7, 47, 95⟩)).wf = true := by decide

theorem test_wf_i3c : (Instr.i3cPrivateWrite (List.replicate 257 0)).wf = false ∧
    (Instr.i3cPrivateWrite (List.replicate 256 0)).wf = true := by decide +kernel

theorem test_wf_datagram : (Instr.load ⟨0, none, 0, 0, List.replicate 65536 0⟩).wf = false := by
  simp only [Instr.wf, Datagram.wf, maxDatagram, List.length_replicate]; decide

theorem test_wf_packet (n : Nat) (h : 2 ^ 31 < n) :
    (Instr.roceAck { ifc := 0, qpn := 0, psn := 0, rkey := 0, vaddr := 0, length := 0, imm := 0, bytes := List.replicate n 0, ce := false,
                     supported := true }).wf = false := by
  simp only [Instr.wf, Packet.wf, List.length_replicate]; exact decide_eq_false (by omega)

/-- No row of the table gives bits, so no word spells a command. -/
theorem test_no_word : decodeTableWord 32 0 = none ∧ State.reset.withFetchWord 32 0 = State.reset := by decide

/-- The check value that the definition of CRC-32C gives for the digits 1 to 9. -/
theorem test_crc32c : crc32c (ascii "123456789") = 0xE3069283 := by decide +kernel

/-- R276: the check bits of an empty line and of lines with data bit 0 or 255 alone. -/
theorem test_encodeLine :
    encodeLine 0 = 0 ∧ encodeLine 1 = 0x203 ∧ encodeLine (BitVec.ofNat 256 (2 ^ 255)) = 0x109 := by decide +kernel

/-- R529: with RESET_N high, PWR_OK starts the boot in phase 1. -/
theorem test_pwrOkRise : ∃ t, exec .pwrOkRise { State.reset with toll := { resetN := true } } = .next t ∧ t.phase = 1 :=
  ⟨_, rfl, by decide +kernel⟩

/-- R203, R204: an ARM of a STOPPED core takes it to LOADED. -/
theorem test_armCore : ∃ t, exec (.armCore 0) (readyS.put (Reg.CORE_STAT 0) Fld.CORE_STAT.state 1) = .next t ∧ t.coreState 0 = 2 :=
  ⟨_, rfl, by decide +kernel⟩

/-- Log entry 3: with an empty queue 1 ps passes. -/
theorem test_idle_step : ∃ t, step State.reset = .next t ∧ t.now = 1 ∧ t.pending = [] :=
  ⟨_, rfl, by decide +kernel, by decide +kernel⟩

end Sys2Proof.Tests
end

section
/-! SUPPORT. What one step of the machine may change, for every command and for an empty queue, with the obligation on time and the
queue. -/

namespace Sys2Proof.Machine

/-! ### Commands -/

/-- Every command completes, and changes the parts that its rules name alone. -/
theorem exec_changes (c : Instr) (s : State) : OutChanges (commandParts c) s (exec c s) :=
  match c with
  | .pacerTick r => (execPacerTick_changes r s).widen rfl
  | .beatToken r codes => (execBeatToken_changes r codes s).widen rfl
  | .beatComplete r => (execBeatComplete_changes r s).widen rfl
  | .lateItemArrival core unit => (execLateItemArrival_changes core unit s).widen rfl
  | .vaneWindowEnd r => (execVaneWindowEnd_changes r s).widen rfl
  | .vaneCritical r => (execVaneCritical_changes r s).widen rfl
  | .vaneThreshWrite v => (execVaneThreshWrite_changes v s).widen rfl
  | .targetOpWrite r v => (execTargetOpWrite_changes r v s).widen rfl
  | .retuneStop => (execRetuneStop_changes s).widen rfl
  | .regulatorSettled r => (execRegulatorSettled_changes r s).widen rfl
  | .retuneComplete r => (execRetuneComplete_changes r s).widen rfl
  | .settleTimeout r => (execSettleTimeout_changes r s).widen rfl
  | .secondStopTimeout r => (execSecondStopTimeout_changes r s).widen rfl
  | .qpush core => (execQpush_changes core s).widen rfl
  | .qwait core => (execQwait_changes core s).widen rfl
  | .qwaitComplete core => (execQwaitComplete_changes core s).widen rfl
  | .qtake core => (execQtake_changes core s).widen rfl
  | .qcount core => (execQcount_changes core s).widen rfl
  | .issue core => (execIssue_changes core s).widen rfl
  | .issueComplete core => (execIssueComplete_changes core s).widen rfl
  | .ifree core => (execIfree_changes core s).widen rfl
  | .lsig core => (execLsig_changes core s).widen rfl
  | .lwait core => (execLwait_changes core s).widen rfl
  | .lwaitSatisfied core => (execLwaitSatisfied_changes core s).widen rfl
  | .ltake core => (execLtake_changes core s).widen rfl
  | .lread core => (execLread_changes core s).widen rfl
  | .lbar core => (execLbar_changes core s).widen rfl
  | .kstepw core => (execKstepw_changes core s).widen rfl
  | .kstepwComplete core => (execKstepwComplete_changes core s).widen rfl
  | .ksel core => (execKsel_changes core s).widen rfl
  | .kdone core => (execKdone_changes core s).widen rfl
  | .kdoneComplete core => (execKdoneComplete_changes core s).widen rfl
  | .keeperInstruction core => (execKeeperInstruction_changes core s).widen rfl
  | .keeperLoad core => (execKeeperLoad_changes core s).widen rfl
  | .keeperStore core => (execKeeperStore_changes core s).widen rfl
  | .csrAccess core => (execCsrAccess_changes core s).widen rfl
  | .ebreak core => (execEbreak_changes core s).widen rfl
  | .narrowAccessServe core => (execNarrowAccessServe_changes core s).widen rfl
  | .armCore core => (execArmCore_changes core s).widen rfl
  | .disarmCore core => (execDisarmCore_changes core s).widen rfl
  | .haltCore core => (execHaltCore_changes core s).widen rfl
  | .resumeCore core => (execResumeCore_changes core s).widen rfl
  | .kstepCore core => (execKstepCore_changes core s).widen rfl
  | .mmul core => (execMmul_changes core s).widen rfl
  | .xnop core => (execXnop_changes core s).widen rfl
  | .anop core => (execAnop_changes core s).widen rfl
  | .vadd core => (execVadd_changes core s).widen rfl
  | .vsub core => (execVsub_changes core s).widen rfl
  | .vmul core => (execVmul_changes core s).widen rfl
  | .vfma core => (execVfma_changes core s).widen rfl
  | .vmax core => (execVmax_changes core s).widen rfl
  | .vmin core => (execVmin_changes core s).widen rfl
  | .vneg core => (execVneg_changes core s).widen rfl
  | .vabs core => (execVabs_changes core s).widen rfl
  | .vsel core => (execVsel_changes core s).widen rfl
  | .vcmp core => (execVcmp_changes core s).widen rfl
  | .vcvt core => (execVcvt_changes core s).widen rfl
  | .vexp2 core => (execVexp2_changes core s).widen rfl
  | .vlog2 core => (execVlog2_changes core s).widen rfl
  | .vrcp core => (execVrcp_changes core s).widen rfl
  | .vrsq core => (execVrsq_changes core s).widen rfl
  | .vsig core => (execVsig_changes core s).widen rfl
  | .vsilu core => (execVsilu_changes core s).widen rfl
  | .vtanh core => (execVtanh_changes core s).widen rfl
  | .vgelu core => (execVgelu_changes core s).widen rfl
  | .vsum core => (execVsum_changes core s).widen rfl
  | .vsumsq core => (execVsumsq_changes core s).widen rfl
  | .vdot core => (execVdot_changes core s).widen rfl
  | .vrsum core => (execVrsum_changes core s).widen rfl
  | .vrmax core => (execVrmax_changes core s).widen rfl
  | .vargmax core => (execVargmax_changes core s).widen rfl
  | .vtopk core => (execVtopk_changes core s).widen rfl
  | .vsample core => (execVsample_changes core s).widen rfl
  | .fload core => (execFload_changes core s).widen rfl
  | .fstore core => (execFstore_changes core s).widen rfl
  | .scopy core => (execScopy_changes core s).widen rfl
  | .scast core => (execScast_changes core s).widen rfl
  | .skvr core => (execSkvr_changes core s).widen rfl
  | .skvw core => (execSkvw_changes core s).widen rfl
  | .sred core => (execSred_changes core s).widen rfl
  | .lmmul core => (execLmmul_changes core s).widen rfl
  | .lload core => (execLload_changes core s).widen rfl
  | .lstore core => (execLstore_changes core s).widen rfl
  | .lcopy core => (execLcopy_changes core s).widen rfl
  | .lvector core => (execLvector_changes core s).widen rfl
  | .macroOpLastBeat core unit => (execMacroOpLastBeat_changes core unit s).widen rfl
  | .syncSignalArrival core => (execSyncSignalArrival_changes core s).widen rfl
  | .barrierRelease slot => (execBarrierRelease_changes slot s).widen rfl
  | .chipArrival => (execChipArrival_changes s).widen rfl
  | .fabricRelease => (execFabricRelease_changes s).widen rfl
  | .slotArm slot v => (execSlotArm_changes slot v s).widen rfl
  | .slotDisarm slot => (execSlotDisarm_changes slot s).widen rfl
  | .signalBarge => (execSignalBarge_changes s).widen rfl
  | .pendingSignalApply core => (execPendingSignalApply_changes core s).widen rfl
  | .bargeForward node out => (execBargeForward_changes node out s).widen rfl
  | .mcastReplyCombine node id => (execMcastReplyCombine_changes node id s).widen rfl
  | .ingressWrite core => (execIngressWrite_changes core s).widen rfl
  | .weightStoreWrite core => (execWeightStoreWrite_changes core s).widen rfl
  | .openBarge a => (execOpenBarge_changes a s).widen rfl
  | .grant core sl => (execGrant_changes core sl s).widen rfl
  | .refuse core sl => (execRefuse_changes core sl s).widen rfl
  | .dataBarge a => (execDataBarge_changes a s).widen rfl
  | .ackBarge core sl => (execAckBarge_changes core sl s).widen rfl
  | .readBarge a => (execReadBarge_changes a s).widen rfl
  | .readAgentServe a => (execReadAgentServe_changes a s).widen rfl
  | .abortBarge a => (execAbortBarge_changes a s).widen rfl
  | .holdRequestComplete h pc => (execHoldRequestComplete_changes h pc s).widen rfl
  | .holdRefresh h pc => (execHoldRefresh_changes h pc s).widen rfl
  | .refreshMakeup h pc => (execRefreshMakeup_changes h pc s).widen rfl
  | .holdScrubRead h pc => (execHoldScrubRead_changes h pc s).widen rfl
  | .holdTempUpdate h tempC => (execHoldTempUpdate_changes h tempC s).widen rfl
  | .correctedLineRewrite h pc => (execCorrectedLineRewrite_changes h pc s).widen rfl
  | .berthConfigWrite core n v => (execBerthConfigWrite_changes core n v s).widen rfl
  | .berthGrant core n v => (execBerthGrant_changes core n v s).widen rfl
  | .vecWinWrite core w v => (execVecWinWrite_changes core w v s).widen rfl
  | .meshModeWrite v => (execMeshModeWrite_changes v s).widen rfl
  | .programStart => (execProgramStart_changes s).widen rfl
  | .dtrmWrite off v => (execDtrmWrite_changes off v s).widen rfl
  | .watchdogFire => (execWatchdogFire_changes s).widen rfl
  | .load d => (execLoad_changes d s).widen rfl
  | .unload d => (execUnload_changes d s).widen rfl
  | .laneSignalLoss l => (execLaneSignalLoss_changes l s).widen rfl
  | .helloTimeout p => (execHelloTimeout_changes p s).widen rfl
  | .helloSend p => (execHelloSend_changes p s).widen rfl
  | .hello p msg => (execHello_changes p msg s).widen rfl
  | .retrain l => (execRetrain_changes l s).widen rfl
  | .autoRetrain p => (execAutoRetrain_changes p s).widen rfl
  | .trainingComplete p partner => (execTrainingComplete_changes p partner s).widen rfl
  | .trainingTimeout p => (execTrainingTimeout_changes p s).widen rfl
  | .frameSend p => (execFrameSend_changes p s).widen rfl
  | .frameReceive p f => (execFrameReceive_changes p f s).widen rfl
  | .portMapWrite p v => (execPortMapWrite_changes p v s).widen rfl
  | .portActiveWrite p => (execPortActiveWrite_changes p s).widen rfl
  | .probeForward p msg => (execProbeForward_changes p msg s).widen rfl
  | .probeIdent p msg => (execProbeIdent_changes p msg s).widen rfl
  | .probeAssign p msg => (execProbeAssign_changes p msg s).widen rfl
  | .probeReply p msg => (execProbeReply_changes p msg s).widen rfl
  | .timeExchange => (execTimeExchange_changes s).widen rfl
  | .timeRequest p ta => (execTimeRequest_changes p ta s).widen rfl
  | .timeResponse p ta tb tc => (execTimeResponse_changes p ta tb tc s).widen rfl
  | .routeTableWrite off v => (execRouteTableWrite_changes off v s).widen rfl
  | .epochArm v => (execEpochArm_changes v s).widen rfl
  | .fabrEvqRead => (execFabrEvqRead_changes s).widen rfl
  | .ferryGo c => (execFerryGo_changes c s).widen rfl
  | .ferryStall c => (execFerryStall_changes c s).widen rfl
  | .stepReady => (execStepReady_changes s).widen rfl
  | .stepReadyBarge => (execStepReadyBarge_changes s).widen rfl
  | .recordRelease => (execRecordRelease_changes s).widen rfl
  | .stepStall => (execStepStall_changes s).widen rfl
  | .stepRecordBarge => (execStepRecordBarge_changes s).widen rfl
  | .recordDelivery => (execRecordDelivery_changes s).widen rfl
  | .macLinkLoss mac => (execMacLinkLoss_changes mac s).widen rfl
  | .enetPortCtrlWrite p v => (execEnetPortCtrlWrite_changes p v s).widen rfl
  | .enetIfWrite mac w v => (execEnetIfWrite_changes mac w v s).widen rfl
  | .neighbourPacket mac n => (execNeighbourPacket_changes mac n s).widen rfl
  | .openSession d => (execOpenSession_changes d s).widen rfl
  | .closeSession d => (execCloseSession_changes d s).widen rfl
  | .ackMessage d => (execAckMessage_changes d s).widen rfl
  | .keepalive d => (execKeepalive_changes d s).widen rfl
  | .keepaliveTimer sess => (execKeepaliveTimer_changes sess s).widen rfl
  | .towpathAckTimer sess => (execTowpathAckTimer_changes sess s).widen rfl
  | .towpathResend sess => (execTowpathResend_changes sess s).widen rfl
  | .sessionTimeout sess => (execSessionTimeout_changes sess s).widen rfl
  | .regRead d => (execRegRead_changes d s).widen rfl
  | .regWrite d => (execRegWrite_changes d s).widen rfl
  | .regBarge => (execRegBarge_changes s).widen rfl
  | .registerWrite a v => (execRegisterWrite_changes a v s).widen rfl
  | .submit d => (execSubmit_changes d s).widen rfl
  | .prompt d => (execPrompt_changes d s).widen rfl
  | .cancel d => (execCancel_changes d s).widen rfl
  | .query d => (execQuery_changes d s).widen rfl
  | .tenantSet d => (execTenantSet_changes d s).widen rfl
  | .ringOpen d => (execRingOpen_changes d s).widen rfl
  | .ringCredit d => (execRingCredit_changes d s).widen rfl
  | .stepCompose => (execStepCompose_changes s).widen rfl
  | .energySweep => (execEnergySweep_changes s).widen rfl
  | .engyGroupAdd v => (execEngyGroupAdd_changes v s).widen rfl
  | .roceSend rk => (execRoceSend_changes rk s).widen rfl
  | .rdmaWrite rk => (execRdmaWrite_changes rk s).widen rfl
  | .rdmaWriteImm rk => (execRdmaWriteImm_changes rk s).widen rfl
  | .rdmaRead rk => (execRdmaRead_changes rk s).widen rfl
  | .roceNak rk => (execRoceNak_changes rk s).widen rfl
  | .roceAckTimeout qp => (execRoceAckTimeout_changes qp s).widen rfl
  | .cnp rk => (execCnp_changes rk s).widen rfl
  | .rateRecovery qp => (execRateRecovery_changes qp s).widen rfl
  | .pfcFrame p prio quanta => (execPfcFrame_changes p prio quanta s).widen rfl
  | .pfcRefresh p prio => (execPfcRefresh_changes p prio s).widen rfl
  | .pfcWatchdog p prio => (execPfcWatchdog_changes p prio s).widen rfl
  | .i3cPrivateWrite bytes => (execI3cPrivateWrite_changes bytes s).widen rfl
  | .i3cPrivateRead => (execI3cPrivateRead_changes s).widen rfl
  | .entdaa dyn => (execEntdaa_changes dyn s).widen rfl
  | .setdasa stat dyn => (execSetdasa_changes stat dyn s).widen rfl
  | .enec => (execEnec_changes s).widen rfl
  | .disec => (execDisec_changes s).widen rfl
  | .wswpArm d => (execWswpArm_changes d s).widen rfl
  | .swapAbort d => (execSwapAbort_changes d s).widen rfl
  | .pinRelease d => (execPinRelease_changes d s).widen rfl
  | .swapArmWrite v => (execSwapArmWrite_changes v s).widen rfl
  | .swapDisarm => (execSwapDisarm_changes s).widen rfl
  | .check => (execCheck_changes s).widen rfl
  | .checkComplete => (execCheckComplete_changes s).widen rfl
  | .prime => (execPrime_changes s).widen rfl
  | .primeComplete => (execPrimeComplete_changes s).widen rfl
  | .loadFill => (execLoadFill_changes s).widen rfl
  | .loadFillComplete => (execLoadFillComplete_changes s).widen rfl
  | .stagedFill => (execStagedFill_changes s).widen rfl
  | .stagedFillComplete => (execStagedFillComplete_changes s).widen rfl
  | .weirSample k q => (execWeirSample_changes k q s).widen rfl
  | .weirCodeFall k => (execWeirCodeFall_changes k s).widen rfl
  | .weirLimitWrite k v => (execWeirLimitWrite_changes k v s).widen rfl
  | .weirWindowWrite v => (execWeirWindowWrite_changes v s).widen rfl
  | .policyTick => (execPolicyTick_changes s).widen rfl
  | .capRaise => (execCapRaise_changes s).widen rfl
  | .idleOpset v => (execIdleOpset_changes v s).widen rfl
  | .idleEntry => (execIdleEntry_changes s).widen rfl
  | .idleWakeComplete => (execIdleWakeComplete_changes s).widen rfl
  | .wake => (execWake_changes s).widen rfl
  | .idleBudgetWrite v => (execIdleBudgetWrite_changes v s).widen rfl
  | .idleSet d => (execIdleSet_changes d s).widen rfl
  | .pwrOkRise => (execPwrOkRise_changes s).widen rfl
  | .resetNRelease => (execResetNRelease_changes s).widen rfl
  | .imageSlotCheck slot img => (execImageSlotCheck_changes slot img s).widen rfl
  | .railEnable g => (execRailEnable_changes g s).widen rfl
  | .railPgRise g => (execRailPgRise_changes g s).widen rfl
  | .railPgTimeout g => (execRailPgTimeout_changes g s).widen rfl
  | .bootReady => (execBootReady_changes s).widen rfl
  | .pwrOkFall => (execPwrOkFall_changes s).widen rfl
  | .resetNAssert => (execResetNAssert_changes s).widen rfl
  | .railPgFall g => (execRailPgFall_changes g s).widen rfl
  | .thermalSample die hold0 hold1 toll => (execThermalSample_changes die hold0 hold1 toll s).widen rfl
  | .trefclkLoss => (execTrefclkLoss_changes s).widen rfl
  | .erefclkLoss => (execErefclkLoss_changes s).widen rfl
  | .devReset => (execDevReset_changes s).widen rfl
  | .tollReset => (execTollReset_changes s).widen rfl
  | .ctxReset => (execCtxReset_changes s).widen rfl
  | .ctxDrainComplete => (execCtxDrainComplete_changes s).widen rfl
  | .fabReset => (execFabReset_changes s).widen rfl
  | .reachReset mask => (execReachReset_changes mask s).widen rfl
  | .reachResetComplete r => (execReachResetComplete_changes r s).widen rfl
  | .changeOrder d => (execChangeOrder_changes d s).widen rfl
  | .attestReq d => (execAttestReq_changes d s).widen rfl
  | .attestIdentity d => (execAttestIdentity_changes d s).widen rfl
  | .captInEdge => (execCaptInEdge_changes s).widen rfl
  | .fabricTimeMatch => (execFabricTimeMatch_changes s).widen rfl
  | .captureBeat => (execCaptureBeat_changes s).widen rfl
  | .captureFire d => (execCaptureFire_changes d s).widen rfl
  | .captureArmTime d => (execCaptureArmTime_changes d s).widen rfl
  | .snapArmWrite v => (execSnapArmWrite_changes v s).widen rfl
  | .errsFwdWrite chip w v => (execErrsFwdWrite_changes chip w v s).widen rfl
  | .eventSend sess => (execEventSend_changes sess s).widen rfl
  | .testReq d => (execTestReq_changes d s).widen rfl
  | .testGo v => (execTestGo_changes v s).widen rfl
  | .testCancel => (execTestCancel_changes s).widen rfl
  | .testUnitStart => (execTestUnitStart_changes s).widen rfl
  | .testUnitEnd fails => (execTestUnitEnd_changes fails s).widen rfl
  | .testTimeout => (execTestTimeout_changes s).widen rfl
  | .holdTrainingDone h ok => (execHoldTrainingDone_changes h ok s).widen rfl
  | .macLinkUp mac => (execMacLinkUp_changes mac s).widen rfl
  | .roceAck rk => (execRoceAck_changes rk s).widen rfl
  | .roceReadResponse rk => (execRoceReadResponse_changes rk s).widen rfl
  | .roceRnrNak rk => (execRoceRnrNak_changes rk s).widen rfl
  | .pfcQuantaExpiry p prio => (execPfcQuantaExpiry_changes p prio s).widen rfl
  | .pfcHonourRestore p prio => (execPfcHonourRestore_changes p prio s).widen rfl
  | .railDisable g => (execRailDisable_changes g s).widen rfl
  | .postTripDelay => (execPostTripDelay_changes s).widen rfl
  | .jtagTck tms tdi => (execJtagTck_changes tms tdi s).widen rfl
  | .trstNAssert => (execTrstNAssert_changes s).widen rfl
  | .undefinedMessageType d => (execUndefinedMessageType_changes d s).widen rfl

/-- The queue is no part that a command changes. -/
theorem commandParts_pending (c : Instr) : (commandParts c).contains .pending = false := by cases c <;> rfl

/-! ### One step -/

theorem step_idle {s : State} (h : s.pending = []) : step s = .next (s.advanceTo (s.now + 1)).pump := by
  simp [step, h]

theorem step_front {s : State} {c : Instr} {q : List Instr} (h : s.pending = c :: q) :
    step s = exec c { s with pending := q } := by
  simp [step, h]

/-- An idle step passes time and gives the firmware its turn (log entry 3); neither touches the queue. -/
theorem idle_changes (s : State) : ∃ ps, ps.contains .pending = false ∧ Changes ps s (s.advanceTo (s.now + 1)).pump :=
  ⟨_, rfl, ((s.advanceTo_changes (s.now + 1)).widen rfl).step (ps := Part.now :: messageParts) (State.pump_changes _) rfl⟩

/-- A step completes from every state; from the state with its front command taken it changes no queue. -/
theorem step_changes (s : State) :
    ∃ ps, ps.contains .pending = false ∧ OutChanges ps { s with pending := s.pending.tail } (step s) := by
  rcases h : s.pending with _ | ⟨c, q⟩
  · obtain ⟨ps, hps, k⟩ := idle_changes s
    have hs : { s with pending := [] } = s := by rw [← h]
    rw [step_idle h, List.tail_nil, hs]
    exact ⟨ps, hps, .next k⟩
  · rw [step_front h, List.tail_cons]
    exact ⟨commandParts c, commandParts_pending c, exec_changes c _⟩

/-- The time of an idle step: one unit of the timebase, which the firmware's turn does not move. -/
theorem idle_now (s : State) : (s.advanceTo (s.now + 1)).pump.now = s.now + 1 := by
  rw [(State.pump_changes _).now, State.advanceTo_now]
  omega

/-- Time never runs back in a step, and the step takes one command out of the queue (log entry 1). -/
theorem step_now_pending {s t : State} (h : step s = .next t) : s.now ≤ t.now ∧ t.pending = s.pending.tail := by
  obtain ⟨ps, hps, u, hu, k⟩ := step_changes s
  obtain rfl : u = t := by simpa [hu] using h
  exact ⟨k.now_le, k.pending hps⟩

/-- Settles O6: a step changes no queue but for the command it takes, and time only rises. -/
theorem stepTime : Obligations.StepTime := by
  unfold Obligations.StepTime
  refine ⟨fun s h => ⟨_, step_idle h, idle_now s, ?_⟩, fun s t => step_now_pending⟩
  obtain ⟨-, hq⟩ := step_now_pending (step_idle h)
  rw [hq, h, List.tail_nil]

end Sys2Proof.Machine
end

section
/-! SUPPORT. Which row gives a register its reset value, by the block it lies in, with the obligation on the state at reset. -/

namespace Sys2Proof.Machine

/-- At reset no register has been written. -/
theorem State.reg_reset (a : Nat) : State.reset.reg a = regReset a := rfl

/-- A register whose reset value does not vary with its index has the value of its row. -/
theorem regReset_of_row {a : Nat} {r : RegRow} (h : regRow a = some r) (hi : r.idx = 0) : regReset a = r.reset := by
  simp [regReset, h, hi]

theorem regRow_of_coreOfReg {a n : Nat} (h : coreOfReg a = some n) :
    regRow a = coreRows.find? (·.holds (a % 0x4000000 - 0x6A0000)) := by
  simp only [regRow, h]

theorem regRow_of_blockOfReg {a b : Nat} (h : coreOfReg a = none) (k : blockOfReg a = some b) :
    regRow a = (blockRows b).find? (·.holds ((a - 0x400000000) % 0x10000)) := by
  simp only [regRow, h, k]

/-- R590 to R592: the rows of a core's registers, by the offset in its page. -/
theorem regRow_core {n off : Nat} (hn : n < 256) (ho : off < 0x1000) :
    regRow (coreRegs n + off) = coreRows.find? (·.holds off) := by
  have ha : coreRegs n + off = n * 0x4000000 + 0x6A0000 + off := rfl
  have hm : (coreRegs n + off) % 0x4000000 - 0x6A0000 = off := by omega
  have hc : coreOfReg (coreRegs n + off) = some ((coreRegs n + off) / 0x4000000) := if_pos (by omega)
  rw [regRow_of_coreOfReg hc, hm]

/-- R593: the rows of a control block's registers, by the offset in the block. -/
theorem regRow_block {b off : Nat} (hb : b < 20) (ho : off < 0x10000) :
    regRow (blockBase b + off) = (blockRows b).find? (·.holds off) := by
  have ha : blockBase b + off = 0x400000000 + 0x10000 * b + off := rfl
  have hm : (blockBase b + off - 0x400000000) % 0x10000 = off := by omega
  have hd : (blockBase b + off - 0x400000000) / 0x10000 = b := by omega
  have hc : coreOfReg (blockBase b + off) = none := if_neg (by omega)
  have hk : blockOfReg (blockBase b + off) = some b := by
    rw [blockOfReg, if_pos (by omega), hd]
  rw [regRow_of_blockOfReg hc hk, hm]

theorem reset_reg_core {n off : Nat} {r : RegRow} (hn : n < 256) (ho : off < 0x1000) (h : coreRows.find? (·.holds off) = some r)
    (hi : r.idx = 0) : State.reset.reg (coreRegs n + off) = r.reset :=
  (State.reg_reset _).trans <| regReset_of_row ((regRow_core hn ho).trans h) hi

theorem reset_reg_block {b off : Nat} {r : RegRow} (hb : b < 20) (ho : off < 0x10000) (h : (blockRows b).find? (·.holds off) = some r)
    (hi : r.idx = 0) : State.reset.reg (blockBase b + off) = r.reset :=
  (State.reg_reset _).trans <| regReset_of_row ((regRow_block hb ho).trans h) hi

/-- A row of single words 8 bytes apart holds the words of all its indices. -/
theorem RegRow.holds_word {r : RegRow} {i : Nat} (h1 : r.n2 = 1) (h8 : r.st1 = 8) (hi : i < r.n1) :
    r.holds (r.off + 8 * i) = true := by
  simp [RegRow.holds, h1, h8, hi]

theorem reset_CORE_STAT (n : Fin 256) : State.reset.reg (Reg.CORE_STAT n) = 1 :=
  reset_reg_core n.isLt (off := 0x8) (by decide) rfl rfl

theorem reset_QUEUE_CFG (n : Fin 256) : State.reset.reg (Reg.QUEUE_CFG n) = 0x66669999 :=
  reset_reg_core n.isLt (off := 0xA00) (by decide) rfl rfl

theorem reset_TOWL_LANE_CTRL (l : Fin 96) : State.reset.reg (Reg.TOWL_LANE_CTRL l) = 0x2000000000000000 := by
  have h : (blockRows 8).find? (·.holds (0 + 8 * l)) = some (towlRows.head (by decide)) :=
    List.find?_cons_of_pos (RegRow.holds_word rfl rfl l.isLt)
  rw [Reg.TOWL_LANE_CTRL, Nat.add_assoc]
  exact reset_reg_block (by decide) (by omega) h rfl

/-- Settles O2: the registers of each core and of each lane by the row of their family, the others at their one address. -/
theorem resetState : Obligations.ResetState := by
  unfold Obligations.ResetState
  refine ⟨rfl, rfl, rfl, ?_⟩
  simp only [State.get, reset_CORE_STAT, reset_QUEUE_CFG, reset_TOWL_LANE_CTRL, forall_const]
  decide

end Sys2Proof.Machine
end

section
/-! SUPPORT. Signals that join the beat of a core (R325, R329, R336) and the arming of barrier slots (R339), with the obligation on
both. -/

namespace Sys2Proof.Machine

/-- What holds of the state that a command answers is what the command gives: its frame is that of every command. -/
theorem Gives.intro {c : Instr} {s t : State} {P : State → Prop} (h : exec c s = .next t) (p : P t) : Gives c s P := by
  obtain ⟨u, hu, k⟩ := exec_changes c s
  obtain rfl : u = t := by simpa [hu] using h
  exact ⟨u, hu, k.only, p⟩

/-! ### Signals -/

/-- A signal that counts nothing is none (R317). -/
theorem State.signal_sigs (s : State) (n i k src issuer : Nat) :
    ((s.signal n i k src issuer).core n).sigs = (s.core n).sigs ++ if k = 0 then [] else [⟨i, k, src, issuer⟩] := by
  unfold State.signal
  split
  · simp
  · simp

theorem State.signal_core_ne (s : State) {n m : Nat} (i k src issuer : Nat) (h : m ≠ n) :
    (s.signal n i k src issuer).core m = s.core m := by
  unfold State.signal
  split
  · rfl
  · exact State.core_setCore_ne _ _ h

/-- Apply a signal to a core. -/
def State.signalSig (s : State) (n : Nat) (g : Sig) : State := s.signal n g.ctr g.n g.core g.issuer

theorem State.signalAll_changes {α : Type} (s : State) (n : Nat) (g : α → Sig) (l : List α) :
    Changes [.cores] s (l.foldl (fun t x => t.signalSig n (g x)) s) :=
  Changes.foldl (Changes.refl _ _) fun _ _ => State.signal_changes _ _ _ _ _ _

/-- Signals applied in turn to one core join its beat in that order, those that count nothing left out. -/
theorem State.signalAll_sigs {α : Type} (s : State) (n : Nat) (g : α → Sig) (l : List α) :
    ((l.foldl (fun t x => t.signalSig n (g x)) s).core n).sigs =
      (s.core n).sigs ++ (l.filter fun x => (g x).n != 0).map g := by
  induction l generalizing s with
  | nil => simp
  | cons x l ih =>
    rw [List.foldl_cons, ih, State.signalSig, State.signal_sigs]
    by_cases h : (g x).n = 0 <;> simp [h]

/-- Of signals some of which are due, those that are due and count join. -/
theorem State.signalDue_sigs {α : Type} (s : State) (n : Nat) (g : α → Sig) (p : α → Bool) (l : List α) :
    (((l.filter p).foldl (fun t x => t.signalSig n (g x)) s).core n).sigs =
      (s.core n).sigs ++ (l.filter fun x => p x && (g x).n != 0).map g := by
  rw [State.signalAll_sigs, List.filter_filter]
  simp only [Bool.and_comm]

theorem State.signalAll_core_ne {α : Type} (s : State) {n m : Nat} (g : α → Sig) (l : List α) (h : m ≠ n) :
    (l.foldl (fun t x => t.signalSig n (g x)) s).core m = s.core m := by
  induction l generalizing s with
  | nil => rfl
  | cons x l ih => rw [List.foldl_cons, ih, State.signalSig, State.signal_core_ne _ _ _ _ _ h]

/-- One signal to each of several cores joins the beat of each of them. -/
theorem State.signalEach_sigs (s : State) (g : Sig) (hg : g.n ≠ 0) {l : List Nat} (hl : l.Nodup) (m : Nat) :
    ((l.foldl (fun t n => t.signalSig n g) s).core m).sigs =
      if m ∈ l then (s.core m).sigs ++ [g] else (s.core m).sigs := by
  induction l generalizing s with
  | nil => rfl
  | cons n l ih =>
    obtain ⟨hn, hl⟩ := List.nodup_cons.mp hl
    rw [List.foldl_cons, ih _ hl, State.signalSig]
    by_cases h : m = n
    · subst h
      simp [hn, State.signal_sigs, hg]
    · simp [h, State.signal_core_ne _ _ _ _ _ h]

/-! ### The sync plane, the pending store and releases -/

/-- A signal of the sync plane as it joins the beat of its core. -/
def SyncSig.sig (x : SyncSig) : Sig := ⟨x.ctr, x.n, x.src, x.issuer⟩

/-- An entry of the pending store as it joins the beat of a core. -/
def PendSig.sig (e : PendSig) : Sig := ⟨e.ctr, e.n, 256, 3⟩

/-- A signal on the sync plane is due at core `n`. -/
def State.syncDue (s : State) (n : Nat) (x : SyncSig) : Bool := x.core == n && decide (x.apply ≤ s.beatOf n)

theorem State.applySync_eq (s : State) (n : Nat) :
    s.applySync n = (s.locks.sync.filter (s.syncDue n)).foldl (fun t x => t.signalSig n x.sig)
      { s with locks := { s.locks with sync := s.locks.sync.filter fun x => !s.syncDue n x } } := rfl

theorem State.applySync_sigs (s : State) (n : Nat) :
    ((s.applySync n).core n).sigs =
      (s.core n).sigs ++ (s.locks.sync.filter fun x => s.syncDue n x && x.n != 0).map SyncSig.sig := by
  rw [State.applySync_eq, State.signalDue_sigs]
  rfl

theorem State.applySync_locks (s : State) (n : Nat) :
    (s.applySync n).locks = { s.locks with sync := s.locks.sync.filter fun x => !s.syncDue n x } :=
  (State.signalAll_changes _ n SyncSig.sig _).locks rfl

theorem State.applySync_core_ne (s : State) {n m : Nat} (h : m ≠ n) : (s.applySync n).core m = s.core m :=
  State.signalAll_core_ne _ SyncSig.sig _ h

/-- Core `n` takes entries out of the pending store. -/
def State.takePend (s : State) (n : Nat) (p : PendSig → Bool) : State :=
  { s with locks := { s.locks with pend := s.locks.pend.filterMap fun e => if p e then e.without n else some e } }

theorem State.applyPend_eq (s : State) (n : Nat) (p : PendSig → Bool) :
    s.applyPend n p = (s.locks.pend.filter p).foldl (fun t e => t.signalSig n e.sig) (s.takePend n p).showPend := rfl

/-- LOCK_XLAT shows how many entries wait, cut to the field. -/
theorem State.showPend_pending (s : State) :
    s.showPend.get Reg.LOCK_XLAT Fld.LOCK_XLAT.pending = s.locks.pend.length % 2 ^ Fld.LOCK_XLAT.pending.width := by
  unfold State.showPend
  extract_lets f
  split
  · assumption
  · exact State.get_put_same _ _ _ _ (by decide)

theorem State.showPend_sameRegs (s : State) : SameRegs [Reg.LOCK_XLAT] s s.showPend := by
  unfold State.showPend
  extract_lets f
  split
  · exact SameRegs.refl _ _
  · exact State.put_sameRegs _ _ _ _

theorem State.applyPend_sigs (s : State) (n : Nat) (p : PendSig → Bool) :
    ((s.applyPend n p).core n).sigs =
      (s.core n).sigs ++ (s.locks.pend.filter fun e => p e && e.n != 0).map PendSig.sig := by
  rw [State.applyPend_eq, State.signalDue_sigs, State.core_congr ((State.showPend_changes _).cores rfl)]
  rfl

theorem State.applyPend_core_ne (s : State) {n m : Nat} (p : PendSig → Bool) (h : m ≠ n) :
    (s.applyPend n p).core m = s.core m := by
  rw [State.applyPend_eq, State.signalAll_core_ne _ _ _ h, State.core_congr ((State.showPend_changes _).cores rfl)]
  rfl

theorem State.applyPend_regs (s : State) (n : Nat) (p : PendSig → Bool) :
    (s.applyPend n p).regs = (s.takePend n p).showPend.regs := (State.signalAll_changes _ n PendSig.sig _).regs rfl

theorem State.applyPend_locks (s : State) (n : Nat) (p : PendSig → Bool) : (s.applyPend n p).locks = (s.takePend n p).locks := by
  rw [State.applyPend_eq, (State.signalAll_changes _ n PendSig.sig _).locks rfl, (State.showPend_changes _).locks rfl]

/-- A release whose participants are all in their apply beat signals each of them, and nothing of it is left. -/
theorem State.applyRelease_due (s : State) (r : Release) (h : ∀ n ∈ r.cores, r.apply ≤ s.beatOf n ∧ s.inBeat n = true) :
    s.applyRelease r = (r.cores.foldl (fun t n => t.signalSig n ⟨r.ctr, 1, 256, 3⟩) s, none) := by
  have hd : ∀ n ∈ r.cores, (decide (r.apply ≤ s.beatOf n) && s.inBeat n) = true := fun n hn => by simp [h n hn]
  have hr : (r.cores.filter fun n => !(decide (r.apply ≤ s.beatOf n) && s.inBeat n)) = [] :=
    List.filter_eq_nil_iff.mpr fun n hn => by simp [h n hn]
  simp only [State.applyRelease, List.filter_eq_self.mpr hd, hr, List.isEmpty_nil, if_true]
  rfl

theorem State.slotAgain_none {s : State} {i : Nat} (h : (s.slot i).again = none) : s.slotAgain i = s := by
  simp only [State.slotAgain, h]

/-- A slot's one release, due at all its participants, leaves the store and signals them. -/
theorem execBarrierRelease_due {s : State} {slot : Fin 64} {r : Release} (hr : s.locks.releases = [r]) (hs : r.slot = slot)
    (ha : (s.slot slot).again = none) (hd : ∀ n ∈ r.cores, r.apply ≤ s.beatOf n ∧ s.inBeat n = true) :
    execBarrierRelease slot s = .next (r.cores.foldl (fun t n => t.signalSig n ⟨r.ctr, 1, 256, 3⟩)
      { s with locks := { s.locks with releases := [] } }) := by
  have h : ({ s with locks := { s.locks with releases := [] } } : State).applyRelease r = _ := State.applyRelease_due _ r hd
  simp only [execBarrierRelease, State.slotAgain_none ha, hr, hs, List.filter_cons, List.filter_nil, beq_self_eq_true, bne_self_eq_false,
    if_true, Bool.false_eq_true, if_false, List.foldl_cons, List.foldl_nil, h]

/-! ### Barrier slots -/

/-- R593: the row of LOCK_SLOT_CTRL_s. -/
theorem regRow_LOCK_SLOT_CTRL (slot : Fin 64) :
    ∃ r, regRow (Reg.LOCK_SLOT_CTRL slot) = some r ∧ r.rw = 0xFFFFFFFFFFFC0000#64 ∧ r.w1c = 0 := by
  have h : ∀ i : Fin 64, ((blockRows 5).find? (·.holds (0x2000 + 8 * i))) = lockRows[2]? := by decide
  refine ⟨lockRows[2], ?_, rfl, rfl⟩
  rw [Reg.LOCK_SLOT_CTRL, Nat.add_assoc, regRow_block (by decide) (by omega), h]
  rfl

/-- A field of the bits that a write of LOCK_SLOT_CTRL_s takes reads back as written. -/
theorem State.get_plainWrite_LOCK_SLOT_CTRL (s : State) (slot : Fin 64) (f : BitField) (v : Word)
    (h : f.mask &&& ~~~ 0xFFFFFFFFFFFC0000#64 = 0) :
    (s.plainWrite (Reg.LOCK_SLOT_CTRL slot) v).get (Reg.LOCK_SLOT_CTRL slot) f = f.get v := by
  obtain ⟨r, hr, hw, hc⟩ := regRow_LOCK_SLOT_CTRL slot
  exact State.get_plainWrite s f v hr (by rw [hw]; exact h) (by simp [hc])

theorem Reg.LOCK_SLOT_STAT_ne_CTRL (i j : Fin 64) : Reg.LOCK_SLOT_STAT i ≠ Reg.LOCK_SLOT_CTRL j := by
  simp only [Reg.LOCK_SLOT_STAT, Reg.LOCK_SLOT_CTRL]
  omega

theorem errReg_LOCK_SLOT_CTRL (i : Fin 64) : errReg (Reg.LOCK_SLOT_CTRL i) = false := by
  revert i; decide

/-- The state in which a write arms a slot. -/
def State.armed (s : State) (i : Nat) (v : Word) : State :=
  ((s.plainWrite (Reg.LOCK_SLOT_CTRL i) v).setReg (Reg.LOCK_SLOT_STAT i) 0).setSlot i {}

theorem State.writeSlotCtrl_arm {s : State} {i : Nat} {v : Word} (ha : s.get (Reg.LOCK_SLOT_CTRL i) Fld.LOCK_SLOT_CTRL.armed = 0)
    (hv : Fld.LOCK_SLOT_CTRL.armed.get v = 1) :
    s.writeSlotCtrl i v = if s.armable i v then s.armed i v else s.logErr { code := 0x3304, aux := i } := by
  simp [State.writeSlotCtrl, ha, hv, State.armed]

theorem State.armed_get (s : State) (slot : Fin 64) (v : Word) (f : BitField) (h : f.mask &&& ~~~ 0xFFFFFFFFFFFC0000#64 = 0) :
    (s.armed slot v).get (Reg.LOCK_SLOT_CTRL slot) f = f.get v :=
  (State.get_setReg_ne _ _ _ (Reg.LOCK_SLOT_STAT_ne_CTRL slot slot).symm).trans (s.get_plainWrite_LOCK_SLOT_CTRL slot f v h)

theorem State.armed_sameRegs (s : State) (i : Nat) (v : Word) :
    SameRegs [Reg.LOCK_SLOT_CTRL i, Reg.LOCK_SLOT_STAT i] s (s.armed i v) :=
  ((s.plainWrite_sameRegs _ v).widen (by simp)).trans (((State.setReg_sameRegs _ _ 0).trans (SameRegs.ofRegs rfl)).widen (by simp))

theorem State.armed_slot_ne (s : State) {i j : Nat} (v : Word) (h : j ≠ i) : (s.armed i v).slot j = s.slot j := by
  rw [State.armed, State.slot_setSlot_ne _ _ h, State.slot, State.slot, State.setReg_locks, State.plainWrite_locks]

theorem State.showSlot_sameRegs (s : State) (i : Nat) : SameRegs [Reg.LOCK_SLOT_STAT i] s (s.showSlot i) :=
  State.put_step (State.put_step (State.put_step (SameRegs.refl _ _) _ _ _ (by simp)) _ _ _ (by simp)) _ _ _ (by simp)

theorem State.disarm_slot (s : State) (i j : Nat) : (s.disarm i).slot j = if j = i then {} else s.slot j := by
  rw [State.disarm, State.slot, (State.showSlot_changes _ _).locks rfl]
  split
  · next h => exact h ▸ State.slot_setSlot_same _ _ _
  · next h => exact State.slot_setSlot_ne _ _ h

theorem State.disarm_sameRegs (s : State) (i : Nat) :
    SameRegs [Reg.LOCK_SLOT_STAT i] (s.put (Reg.LOCK_SLOT_CTRL i) Fld.LOCK_SLOT_CTRL.armed 0) (s.disarm i) := by
  unfold State.disarm
  extract_lets t
  exact (SameRegs.ofRegs (t := t.setSlot i {}) rfl).trans (State.showSlot_sameRegs _ i)

/-- A write that only takes armed away disarms the slot, with 0x3309 first where reserved bits of the register are not 0. -/
theorem State.writeSlotCtrl_disarm {s : State} {i : Nat} (ha : s.get (Reg.LOCK_SLOT_CTRL i) Fld.LOCK_SLOT_CTRL.armed = 1) :
    ∃ u, (u = s ∨ u = s.logErr { code := 0x3309, aux := i }) ∧
      s.writeSlotCtrl i (Fld.LOCK_SLOT_CTRL.armed.set (s.reg (Reg.LOCK_SLOT_CTRL i)) 0) = u.disarm i := by
  have hv : Fld.LOCK_SLOT_CTRL.armed.get (Fld.LOCK_SLOT_CTRL.armed.set (s.reg (Reg.LOCK_SLOT_CTRL i)) 0) = 0 :=
    BitField.get_set_same _ _ _ (by decide)
  simp only [State.writeSlotCtrl, ha, hv, if_true]
  split
  · exact ⟨_, .inr rfl, rfl⟩
  · exact ⟨_, .inl rfl, rfl⟩

/-! ### The obligation -/

theorem syncSignalArrival_gives {core : Fin 256} {s : State} (hb : s.inBeat core = true) :
    Gives (.syncSignalArrival core) s fun t =>
      (t.core core).sigs = (s.core core).sigs ++
        (s.locks.sync.filter fun x => s.syncDue core x && x.n != 0).map SyncSig.sig ∧
      t.locks.sync = s.locks.sync.filter (fun x => !s.syncDue core x) ∧ ∀ m, m ≠ core.val → t.core m = s.core m :=
  Gives.intro (if_pos hb) ⟨s.applySync_sigs core, by rw [s.applySync_locks core], fun _ hm => s.applySync_core_ne hm⟩

theorem pendingSignalApply_gives {core : Fin 256} {s : State} (hb : s.inBeat core = true) :
    Gives (.pendingSignalApply core) s fun t =>
      (t.core core).sigs = (s.core core).sigs ++
        (s.locks.pend.filter fun e => s.pendDue core e && e.n != 0).map PendSig.sig ∧
      t.locks.pend = (s.takePend core (s.pendDue core)).locks.pend ∧
      t.get Reg.LOCK_XLAT Fld.LOCK_XLAT.pending = t.locks.pend.length % 2 ^ Fld.LOCK_XLAT.pending.width ∧
      (∀ m, m ≠ core.val → t.core m = s.core m) ∧ SameRegs [Reg.LOCK_XLAT] s t := by
  have hr := s.applyPend_regs core (s.pendDue core)
  refine Gives.intro (if_pos hb) ⟨s.applyPend_sigs core _, by rw [s.applyPend_locks core], ?_, fun _ hm => s.applyPend_core_ne _ hm, ?_⟩
  · rw [State.get_congr hr, State.showPend_pending, State.applyPend_locks]
  · exact ((SameRegs.ofRegs rfl).trans (s.takePend core _).showPend_sameRegs).trans (SameRegs.ofRegs hr)

theorem barrierRelease_gives {slot : Fin 64} {s : State} {r : Release} (hr : s.locks.releases = [r]) (hs : r.slot = slot)
    (ha : (s.slot slot).again = none) (hn : r.cores.Nodup) (hd : ∀ n ∈ r.cores, r.apply ≤ s.beatOf n ∧ s.inBeat n = true) :
    Gives (.barrierRelease slot) s fun t => t.locks.releases = [] ∧ t.regs = s.regs ∧
      ∀ n, (t.core n).sigs = if n ∈ r.cores then (s.core n).sigs ++ [⟨r.ctr, 1, 256, 3⟩] else (s.core n).sigs := by
  have hc : Changes [.cores] ({ s with locks := { s.locks with releases := [] } } : State)
      (r.cores.foldl (fun t n => t.signalSig n ⟨r.ctr, 1, 256, 3⟩) { s with locks := { s.locks with releases := [] } }) :=
    Changes.foldl (Changes.refl _ _) fun _ _ => State.signal_changes _ _ _ _ _ _
  refine Gives.intro (execBarrierRelease_due hr hs ha hd) ⟨?_, hc.regs rfl, State.signalEach_sigs _ _ (by simp) hn⟩
  rw [hc.locks rfl]

theorem slotArm_gives {slot : Fin 64} {v : Word} {s : State} (ha : s.get (Reg.LOCK_SLOT_CTRL slot) Fld.LOCK_SLOT_CTRL.armed = 0)
    (hv : Fld.LOCK_SLOT_CTRL.armed.get v = 1) (hok : s.armable slot v = true) :
    Gives (.slotArm slot v) s fun t =>
      t.get (Reg.LOCK_SLOT_CTRL slot) Fld.LOCK_SLOT_CTRL.armed = 1 ∧
      t.get (Reg.LOCK_SLOT_CTRL slot) Fld.LOCK_SLOT_CTRL.rel_ctr = Fld.LOCK_SLOT_CTRL.rel_ctr.get v ∧
      t.get (Reg.LOCK_SLOT_CTRL slot) Fld.LOCK_SLOT_CTRL.fabric = Fld.LOCK_SLOT_CTRL.fabric.get v ∧
      t.get (Reg.LOCK_SLOT_CTRL slot) Fld.LOCK_SLOT_CTRL.nchips = Fld.LOCK_SLOT_CTRL.nchips.get v ∧ t.slot slot = {} ∧
      t.reg (Reg.LOCK_SLOT_STAT slot) = 0 ∧ (∀ i, i ≠ slot.val → t.slot i = s.slot i) ∧
      SameRegs [Reg.LOCK_SLOT_CTRL slot, Reg.LOCK_SLOT_STAT slot] s t := by
  have he : exec (.slotArm slot v) s = .next (s.armed slot v) :=
    congrArg Host.Outcome.next ((State.writeSlotCtrl_arm ha hv).trans (if_pos hok))
  have hg := s.armed_get slot v
  exact Gives.intro he ⟨(hg _ (by decide)).trans hv, hg _ (by decide), hg _ (by decide), hg _ (by decide),
    State.slot_setSlot_same _ _ _, State.reg_setReg_same _ _ _, fun _ hi => s.armed_slot_ne v hi, s.armed_sameRegs slot v⟩

theorem exec_slotArm_refused {slot : Fin 64} {v : Word} {s : State}
    (ha : s.get (Reg.LOCK_SLOT_CTRL slot) Fld.LOCK_SLOT_CTRL.armed = 0) (hv : Fld.LOCK_SLOT_CTRL.armed.get v = 1)
    (hok : s.armable slot v = false) : exec (.slotArm slot v) s = .next (s.logErr { code := 0x3304, aux := slot }) :=
  congrArg Host.Outcome.next ((State.writeSlotCtrl_arm ha hv).trans (if_neg (by simp [hok])))

theorem slotDisarm_gives {slot : Fin 64} {s : State} (ha : s.get (Reg.LOCK_SLOT_CTRL slot) Fld.LOCK_SLOT_CTRL.armed = 1) :
    Gives (.slotDisarm slot) s fun t =>
      t.reg (Reg.LOCK_SLOT_CTRL slot) = Fld.LOCK_SLOT_CTRL.armed.set (s.reg (Reg.LOCK_SLOT_CTRL slot)) 0 ∧ t.slot slot = {} ∧
      (∀ i, i ≠ slot.val → t.slot i = s.slot i) ∧ SameRegsButErr [Reg.LOCK_SLOT_CTRL slot, Reg.LOCK_SLOT_STAT slot] s t := by
  obtain ⟨u, hu, he⟩ := State.writeSlotCtrl_disarm ha
  have hur : SameRegsButErr [] s u := by
    rcases hu with rfl | rfl
    · exact SameRegsButErr.refl _ _
    · exact s.logErr_regs _
  have hul : u.locks = s.locks := by
    rcases hu with rfl | rfl
    · rfl
    · exact (s.logErr_changes _).locks rfl
  have hd := u.disarm_sameRegs slot
  refine Gives.intro (congrArg Host.Outcome.next he) ⟨?_, ?_, fun i hi => ?_, ?_⟩
  · rw [hd _ (by simpa using (Reg.LOCK_SLOT_STAT_ne_CTRL slot slot).symm), State.reg_put_same,
      hur _ (errReg_LOCK_SLOT_CTRL slot) (by simp)]
  · rw [State.disarm_slot, if_pos rfl]
  · rw [State.disarm_slot, if_neg hi, State.slot, hul, State.slot]
  · exact (hur.widen (by simp)).trans
      (((u.put_sameRegs _ _ 0).widen (by simp)).trans (hd.widen (by simp))).toErr

/-- Settles O28: signals by what `State.signal` adds to the beat of a core, slots by what a write of LOCK_SLOT_CTRL_s comes to. -/
theorem signalsAndSlots : Obligations.SignalsAndSlots := by
  unfold Obligations.SignalsAndSlots
  refine ⟨fun core s hb => ⟨syncSignalArrival_gives hb, pendingSignalApply_gives hb, fun slot r hr hs ha hn hd =>
    barrierRelease_gives hr hs ha hn hd⟩, fun slot v s => ⟨fun ha hv => ⟨fun hok => slotArm_gives ha hv hok, fun hok =>
    ⟨exec_slotArm_refused ha hv hok, (s.logErr_changes _).locks rfl⟩⟩, fun ha => slotDisarm_gives ha⟩⟩

end Sys2Proof.Machine
end

section
/-! SUPPORT. Registers that the steps of a boot leave alone: nothing that an image loads, that a change order writes or that the training
of ports does reaches a register below the PACE block but DEV_ID, DEV_FWVER and the core map. -/

namespace Sys2Proof.Machine

/-! ### Registers below the PACE block -/

/-- `t` reads as `s` in every register below the PACE block: those of the cores and of the DEV and TOLL blocks. -/
def SameBelowPace (s t : State) : Prop := ∀ a < blockBase 2, t.reg a = s.reg a

theorem SameBelowPace.refl (s : State) : SameBelowPace s s := fun _ _ => rfl

theorem SameBelowPace.trans {s t u : State} (h : SameBelowPace s t) (k : SameBelowPace t u) : SameBelowPace s u :=
  fun a ha => (k a ha).trans (h a ha)

theorem SameBelowPace.record {s t u : State} (h : SameBelowPace s t) (k : u.regs = t.regs) : SameBelowPace s u :=
  fun a ha => (State.reg_congr k a).trans (h a ha)

theorem SameBelowPace.ite {s t u : State} {c : Prop} [Decidable c] (h : SameBelowPace s t) (k : SameBelowPace s u) :
    SameBelowPace s (if c then t else u) := by split <;> assumption

theorem SameBelowPace.foldl {α : Type} {s t : State} {l : List α} {f : State → α → State} (h : SameBelowPace s t)
    (k : ∀ u x, SameBelowPace u (f u x)) : SameBelowPace s (l.foldl f t) := by
  induction l generalizing t with
  | nil => exact h
  | cons x l ih => exact ih (h.trans (k t x))

theorem SameRegs.belowPace {l : List Nat} {s t : State} (h : SameRegs l s t) (hl : ∀ a ∈ l, blockBase 2 ≤ a) : SameBelowPace s t :=
  fun a ha => h a fun hm => Nat.not_le_of_lt ha (hl a hm)

theorem SameBelowPace.setReg {s t : State} (h : SameBelowPace s t) {a : Nat} {w : Word} (ha : blockBase 2 ≤ a) :
    SameBelowPace s (t.setReg a w) := h.trans ((t.setReg_sameRegs a w).belowPace (by simpa using ha))

theorem SameBelowPace.put {s t : State} (h : SameBelowPace s t) {a : Nat} {f : BitField} {v : Nat} (ha : blockBase 2 ≤ a) :
    SameBelowPace s (t.put a f v) := h.setReg ha

theorem SameBelowPace.plainWrite {s t : State} (h : SameBelowPace s t) {a : Nat} {v : Word} (ha : blockBase 2 ≤ a) :
    SameBelowPace s (t.plainWrite a v) := h.trans ((t.plainWrite_sameRegs a v).belowPace (by simpa using ha))

/-- The registers that the logging of an error may write lie above (R551 to R557). -/
theorem errReg_belowPace {a : Nat} (h : a < blockBase 2) : errReg a = false := by
  have hb : a < 0x400020000 := h
  have h1 : a ≠ Reg.SNAP_STAT := by rintro rfl; revert h; decide
  have h2 : a ≠ Reg.IDLE_STATE := by rintro rfl; revert h; decide
  have h3 : blockOfReg a ≠ some 15 := by
    unfold blockOfReg
    split
    · rw [Ne, Option.some_inj]; omega
    · simp
  simp [errReg, h1, h2, h3]

theorem SameBelowPace.logErr {s t : State} (h : SameBelowPace s t) (e : Err) : SameBelowPace s (t.logErr e) :=
  h.trans fun _ ha => t.logErr_reg e (errReg_belowPace ha)

/-- A register of a block from PACE on. -/
theorem le_blockReg {b x : Nat} (hb : 2 ≤ b) : blockBase 2 ≤ blockBase b + x := by
  simp only [blockBase]; omega

/-- A register of an indexed family of such a block. -/
theorem le_blockRegs {b x y : Nat} (hb : 2 ≤ b) : blockBase 2 ≤ blockBase b + x + y :=
  Nat.le_trans (le_blockReg hb) (Nat.le_add_right _ _)

theorem le_blockRegs2 {b x y z : Nat} (hb : 2 ≤ b) : blockBase 2 ≤ blockBase b + x + y + z :=
  Nat.le_trans (le_blockRegs hb) (Nat.le_add_right _ _)

theorem State.advanceTo_belowPace (s : State) (t : Nat) : SameBelowPace s (s.advanceTo t) :=
  (s.advanceTo_regs t).belowPace <| by
    simp only [clockRegs, List.mem_cons, List.not_mem_nil, or_false, forall_eq_or_imp, forall_eq]
    exact ⟨le_blockReg (by decide), le_blockReg (by decide), le_blockRegs (by decide)⟩

/-! ### Ports -/

theorem State.laneStates_belowPace (s : State) (p st : Nat) : SameBelowPace s (s.laneStates p st) :=
  SameBelowPace.foldl (SameBelowPace.refl s) fun u _ => (SameBelowPace.refl u).put (le_blockRegs (by decide))

theorem State.timeLost_belowPace (s : State) : SameBelowPace s s.timeLost := by
  unfold State.timeLost
  extract_lets c parent
  split
  · exact SameBelowPace.refl s
  · refine SameBelowPace.logErr (SameBelowPace.put (SameBelowPace.record (SameBelowPace.refl s) ?_) (le_blockReg (by decide))) _
    rfl

theorem State.dropScouts_regs (s : State) (p : Nat) : (s.dropScouts p).regs = s.regs := by
  unfold State.dropScouts
  extract_lets
  split <;> rfl

theorem State.enterState_belowPace (s : State) (p st : Nat) : SameBelowPace s (s.enterState p st) := by
  unfold State.enterState
  extract_lets was t x u toll v w y c
  have ht : SameBelowPace s t := (SameBelowPace.refl s).put (le_blockRegs (by decide))
  have hv : SameBelowPace s v := SameBelowPace.ite (ht.record rfl) (ht.record rfl)
  have hw : SameBelowPace s w := SameBelowPace.ite hv (hv.record (State.dropScouts_regs v p))
  have hy : SameBelowPace s y := hw.put (le_blockRegs (by decide))
  exact SameBelowPace.ite (SameBelowPace.ite (hy.trans y.timeLost_belowPace) hy) hw

theorem State.startTraining_belowPace (s : State) (p : Nat) : SameBelowPace s (s.startTraining p) := by
  unfold State.startTraining
  refine SameBelowPace.ite (SameBelowPace.refl s) ?_
  exact ((s.enterState_belowPace p pTraining).trans (State.laneStates_belowPace _ p 2)).record rfl

theorem State.trainPorts_belowPace (s : State) : SameBelowPace s s.trainPorts :=
  SameBelowPace.foldl (SameBelowPace.refl s) State.startTraining_belowPace

/-! ### Change orders -/

theorem State.setTarget_belowPace (s : State) (r t : Nat) : SameBelowPace s (s.setTarget r t) := by
  have h : SameBelowPace s (s.put (Reg.PACE_OPSEL r) Fld.PACE_OPSEL.target_op t) := (SameBelowPace.refl s).put (le_blockRegs (by decide))
  exact SameBelowPace.ite (h.put (le_blockRegs (by decide))) h

theorem State.lowerCeil_belowPace (s : State) : SameBelowPace s s.lowerCeil :=
  SameBelowPace.foldl (SameBelowPace.refl s) fun u r =>
    SameBelowPace.ite (u.setTarget_belowPace r _) (SameBelowPace.ite (u.setTarget_belowPace r _) (SameBelowPace.refl u))

theorem State.writeSetting_belowPace (s : State) (o : List Byte) : SameBelowPace s (s.writeSetting o) := by
  have h := SameBelowPace.refl s
  unfold State.writeSetting
  refine SameBelowPace.ite (h.put (le_blockReg (by decide))) ?_
  refine SameBelowPace.ite ((h.put (le_blockReg (by decide))).trans (State.lowerCeil_belowPace _)) ?_
  refine SameBelowPace.ite (h.put (le_blockReg (by decide))) ?_
  refine SameBelowPace.ite (h.put (le_blockReg (by decide))) ?_
  exact SameBelowPace.ite (h.foldl fun u _ => (SameBelowPace.refl u).setReg (le_blockRegs (by decide)))
    (h.foldl fun u _ => (SameBelowPace.refl u).setReg (le_blockRegs (by decide)))

theorem State.commitOrder_belowPace (s : State) (o : List Byte) (origin : Nat) : SameBelowPace s (s.commitOrder o origin) := by
  unfold State.commitOrder
  extract_lets k e w0 w1 c t u v j
  have ht : SameBelowPace s t := s.writeSetting_belowPace o
  have hv : SameBelowPace s v := (SameBelowPace.ite ht (ht.put (le_blockReg (by decide)))).put (le_blockReg (by decide))
  have hj : ∀ w, blockBase 2 ≤ Reg.LIMS_JOURNAL e w := fun _ => le_blockRegs2 (by decide)
  exact (((hv.setReg (hj 0)).setReg (hj 1)).setReg (hj 2)).setReg (hj 3)

theorem State.orderIn_belowPace (s : State) (o : List Byte) (img : Option Nat) (keys : List Byte) :
    SameBelowPace s (s.orderIn o img keys).1 := by
  unfold State.orderIn
  extract_lets
  split
  · exact (SameBelowPace.refl s).logErr _
  · exact SameBelowPace.refl s
  · exact s.commitOrder_belowPace o _

theorem State.applyOrders_belowPace (s : State) (img : List Byte) : SameBelowPace s (s.applyOrders img) :=
  SameBelowPace.foldl (SameBelowPace.refl s) fun u o => u.orderIn_belowPace o _ _

/-! ### What an image loads -/

theorem State.loadPoint_belowPace (s : State) (k : Nat) (w : Word) : SameBelowPace s (s.loadPoint k w) := by
  have hk : blockBase 2 ≤ Reg.PACE_OP_TABLE k := (le_blockRegs (by decide))
  unfold State.loadPoint
  extract_lets a p v tp tv t u
  have hu : SameBelowPace s u := (((SameBelowPace.refl s).setReg hk).put hk).put hk
  exact SameBelowPace.ite (((hu.put hk).put hk).logErr _) ((hu.put hk).put hk)

theorem State.loadWeir_belowPace (s : State) (k limit ceiling : Nat) : SameBelowPace s (s.loadWeir k limit ceiling) :=
  ((SameBelowPace.refl s).put (le_blockRegs (by decide))).put (le_blockRegs (by decide))

theorem State.loadRails_belowPace (s : State) (b : List Byte) : SameBelowPace s (s.loadRails b) :=
  (((SameBelowPace.refl s).foldl fun u k => u.loadWeir_belowPace k _ _).put (le_blockReg (by decide))).foldl fun u r =>
    (((SameBelowPace.refl u).put (le_blockRegs (by decide))).put (le_blockRegs (by decide))).put (le_blockRegs (by decide))

theorem State.loadRole_belowPace (s : State) (b : List Byte) : SameBelowPace s (s.loadRole b) :=
  ((SameBelowPace.refl s).put (le_blockReg (by decide))).record rfl

theorem State.loadLanes_belowPace (s : State) (b : List Byte) : SameBelowPace s (s.loadLanes b) :=
  ((SameBelowPace.refl s).foldl fun u _ => (SameBelowPace.refl u).plainWrite (le_blockRegs (by decide))).foldl fun u _ =>
    (SameBelowPace.refl u).plainWrite (le_blockRegs (by decide))

theorem State.loadEnet_belowPace (s : State) (b : List Byte) : SameBelowPace s (s.loadEnet b) := by
  have hp : ∀ p, blockBase 2 ≤ Reg.ENET_PORT_CTRL p := fun _ => le_blockRegs (by decide)
  exact ((SameBelowPace.refl s).foldl fun u p => (SameBelowPace.refl u).foldl fun v _ => (SameBelowPace.refl v).put (hp p)).foldl
    fun u _ => (SameBelowPace.refl u).plainWrite (le_blockRegs2 (by decide))

/-- The settings of an image that phase 5 loads after the core map (R532). -/
def State.loadSettings (s : State) (img : List Byte) : State :=
  (((((List.range 16).foldl (fun (t : State) k => t.loadPoint k (wordOf (imgPart img 2) k)) s).loadRails (imgPart img 3)).loadRole
    (imgPart img 4)).loadLanes (imgPart img 5)).loadEnet (imgPart img 6)

theorem State.loadSettings_belowPace (s : State) (img : List Byte) : SameBelowPace s (s.loadSettings img) :=
  (((((SameBelowPace.refl s).foldl fun u k => u.loadPoint_belowPace k _).trans (State.loadRails_belowPace _ _)).trans
    (State.loadRole_belowPace _ _)).trans (State.loadLanes_belowPace _ _)).trans (State.loadEnet_belowPace _ _)

end Sys2Proof.Machine
end

section
/-! SUPPORT. The states that a boot comes to (R528 to R530): its phase, a failure, and the die powered and configured. -/

namespace Sys2Proof.Machine

/-! ### The phase -/

theorem State.setPhase_now (s : State) (p : Nat) : (s.setPhase p).now = s.now := (s.setPhase_changes p).now rfl
theorem State.setPhase_toll (s : State) (p : Nat) : (s.setPhase p).toll = s.toll := (s.setPhase_changes p).toll rfl

/-- The phase is written in TOLL_BOOT, and may be shown in DEV_STATE (R544). -/
theorem State.setPhase_reg (s : State) (p : Nat) {a : Nat} (h : a ≠ Reg.DEV_STATE) :
    (s.setPhase p).reg a = (s.put Reg.TOLL_BOOT Fld.TOLL_BOOT.phase p).reg a := by
  unfold State.setPhase
  extract_lets t
  split
  · exact State.reg_put_ne t _ _ h
  · rfl

theorem State.setPhase_get (s : State) (p : Nat) {a : Nat} (f : BitField) (h : a ≠ Reg.DEV_STATE) :
    (s.setPhase p).get a f = (s.put Reg.TOLL_BOOT Fld.TOLL_BOOT.phase p).get a f := by
  rw [State.get, State.setPhase_reg s p h, State.get]

theorem State.phase_setPhase (s : State) {p : Nat} (hp : p < 16) : (s.setPhase p).phase = p := by
  rw [State.phase, State.setPhase_get _ _ _ (by decide), State.get_put_same _ _ _ _ (by decide)]
  exact Nat.mod_eq_of_lt hp

/-- The other fields of TOLL_BOOT do not meet its phase. -/
theorem State.setPhase_get_TOLL_BOOT (s : State) (p : Nat) (f : BitField) (h : f.lo + f.width ≤ 60) :
    (s.setPhase p).get Reg.TOLL_BOOT f = s.get Reg.TOLL_BOOT f := by
  rw [State.setPhase_get _ _ _ (by decide), State.get_put_other _ _ _ _ _ (.inr h)]

theorem State.setPhase_reg_ne (s : State) (p : Nat) {a : Nat} (h : a ≠ Reg.TOLL_BOOT) (k : a ≠ Reg.DEV_STATE) :
    (s.setPhase p).reg a = s.reg a := (s.setPhase_reg p k).trans (State.reg_put_ne s _ _ h)

/-- The phase is what TOLL_BOOT shows. -/
theorem SameBelowPace.phase {s t : State} (h : SameBelowPace s t) : t.phase = s.phase := by
  rw [State.phase, State.get, h _ (by decide)]
  rfl

theorem SameBelowPace.get_TOLL_BOOT {s t : State} (h : SameBelowPace s t) (f : BitField) :
    t.get Reg.TOLL_BOOT f = s.get Reg.TOLL_BOOT f := by
  rw [State.get, h _ (by decide)]
  rfl

theorem State.phase_put (s : State) (f : BitField) (v : Nat) (h : f.lo + f.width ≤ 60) :
    (s.put Reg.TOLL_BOOT f v).phase = s.phase := State.get_put_other _ _ _ _ _ (.inl h)

/-! ### A failure -/

theorem State.bootFail_failed (s : State) (code : Nat) : BootFailed code (s.bootFail code) := by
  refine ⟨?_, State.get_put_same _ _ _ _ (by decide)⟩
  rw [State.bootFail, State.phase_put _ _ _ (by decide), State.phase_setPhase _ (by decide)]

/-- A failure of boot is read from the registers alone. -/
theorem BootFailed.ofRegs {code : Nat} {s t : State} (h : t.regs = s.regs) (k : BootFailed code s) : BootFailed code t :=
  ⟨(State.get_congr h _ _).trans k.1, (State.get_congr h _ _).trans k.2⟩

theorem State.powerFail_failed (s u : State) (aux : Nat) : PowerFailed u (s.powerFail aux) := by
  unfold State.powerFail
  exact ⟨(State.bootFail_failed _ _).ofRegs (by dsimp only), by dsimp only⟩

/-! ### The start of the ROM -/

theorem State.startBoot_toll (s : State) :
    s.startBoot.toll = { s.toll with bootAt := s.now, slot := 0, image := [], keys := [] } := by
  rw [State.startBoot, State.setPhase_toll]
  split
  · rfl
  · simp

theorem State.startBoot_phase (s : State) : s.startBoot.phase = 1 := State.phase_setPhase _ (by decide)

theorem State.startBoot_sameRegs (s : State) : SameRegs [Reg.TOLL_BOOT] s s.startBoot := by
  have h : SameRegs [Reg.TOLL_BOOT] s
      (if s.toll.kind = 3 then s else s.addSat Reg.TOLL_BOOT Fld.TOLL_BOOT.boots 1) := by
    split
    · exact SameRegs.refl _ _
    · exact State.hwPut_step (SameRegs.refl _ _) _ _ _ (by simp)
  unfold State.startBoot State.setPhase
  extract_lets t toll u v
  have hu : SameRegs [Reg.TOLL_BOOT] s u := h.trans (SameRegs.ofRegs rfl)
  exact (State.put_step hu _ _ _ (by simp))

/-! ### Configuration -/

/-- A word of the core map takes effect (R33). -/
def State.loadMapWord (s : State) (j : Nat) : State :=
  (s.setReg (Reg.DEV_CORE_MAP j) (s.reg (Reg.LIMS_GRADE j))).setReg (Reg.MESH_FENCE j) (~~~ s.reg (Reg.LIMS_GRADE j))

/-- The core map takes the grade word by word, and TOLL_BOOT lies apart from both. -/
theorem State.loadMap_reg (s : State) :
    (∀ j : Fin 4, s.loadMap.reg (Reg.DEV_CORE_MAP j) = s.reg (Reg.LIMS_GRADE j)) ∧
      s.loadMap.reg Reg.TOLL_BOOT = s.reg Reg.TOLL_BOOT := by
  unfold State.loadMap
  extract_lets t n part
  have ht : t = [0, 1, 2, 3].foldl State.loadMapWord s := rfl
  clear_value part n t
  subst ht
  refine ⟨fun j => ?_, ?_⟩
  · fin_cases j <;>
      simp (disch := decide) only [List.foldl_cons, List.foldl_nil, State.loadMapWord, State.put, State.reg_setReg_same,
        State.reg_setReg_ne]
  · simp (disch := decide) only [List.foldl_cons, List.foldl_nil, State.loadMapWord, State.put, State.reg_setReg_ne]

/-- Phase 5 but for the memories and the pacers: the core map and the settings of the image (R532). -/
def State.loadImage (s : State) : State :=
  ((s.setPhase 5).loadMap.loadSettings s.toll.image).setReg Reg.DEV_FWVER (wordOf (imgPart s.toll.image 7) 0)

theorem State.loadImage_coreMap (s : State) (j : Fin 4) :
    s.loadImage.reg (Reg.DEV_CORE_MAP j) = s.reg (Reg.LIMS_GRADE j) := by
  have hb : Reg.DEV_CORE_MAP j < blockBase 2 ∧ Reg.DEV_CORE_MAP j ≠ Reg.DEV_FWVER := by revert j; decide
  have hg : Reg.LIMS_GRADE j ≠ Reg.TOLL_BOOT ∧ Reg.LIMS_GRADE j ≠ Reg.DEV_STATE := by revert j; decide
  rw [State.loadImage, State.reg_setReg_ne _ _ hb.2, State.loadSettings_belowPace _ _ _ hb.1, (State.loadMap_reg _).1,
    State.setPhase_reg_ne _ _ hg.1 hg.2]

theorem State.loadImage_TOLL_BOOT (s : State) : s.loadImage.reg Reg.TOLL_BOOT = (s.setPhase 5).reg Reg.TOLL_BOOT := by
  rw [State.loadImage, State.reg_setReg_ne _ _ (by decide), State.loadSettings_belowPace _ _ _ (by decide), (State.loadMap_reg _).2]

theorem State.setReach_belowPace (s : State) (r : Nat) (x : Reach) : SameBelowPace s (s.setReach r x) :=
  (SameBelowPace.refl s).record rfl

theorem State.restartBeats_belowPace (s : State) : SameBelowPace s s.restartBeats := by
  have h : SameBelowPace s s.unmarked := (SameBelowPace.refl s).record rfl
  unfold State.restartBeats
  exact SameBelowPace.put (h.foldl fun u r => u.setReach_belowPace r _) (le_blockReg (by decide))

theorem State.startPacers_belowPace (s : State) : SameBelowPace s s.startPacers :=
  s.restartBeats_belowPace.foldl fun u r => u.setReach_belowPace r _

/-- A reach whose pacer starts no longer stands stopped. -/
theorem State.unstop_foldl (l : List Nat) (s : State) {r : Nat} (h : r ∈ l ∨ (s.reach r).stopped = false) :
    ((l.foldl (fun (t : State) q => t.setReach q { t.reach q with stopped := false }) s).reach r).stopped = false := by
  induction l generalizing s with
  | nil => simpa using h
  | cons q l ih =>
    refine ih _ ?_
    by_cases hq : r = q
    · exact .inr (by simp [hq])
    · rw [State.reach_setReach_ne _ _ hq]
      simpa [hq] using h

theorem State.startPacers_stopped (s : State) (r : Fin 16) : (s.startPacers.reach r).stopped = false :=
  State.unstop_foldl (List.range 16) s.restartBeats (.inl (List.mem_range.mpr r.isLt))

theorem smFind_filter_none {α : Type} {m : SMap α} {p : Nat × α → Bool} {k : Nat} (h : ∀ v, p (k, v) = false) :
    smFind (m.filter p) k = none := by
  induction m with
  | nil => rfl
  | cons e t ih =>
    obtain ⟨j, w⟩ := e
    rw [List.filter_cons]
    split
    · next hp =>
      have hj : j ≠ k := by rintro rfl; rw [h w] at hp; cases hp
      rw [smFind, if_neg hj, ih]
    · exact ih

theorem State.zeroSram_byte (s : State) {a : Nat} (ha : a < 0x1000000000) : s.zeroSram.byte a = 0 := by
  have hl : lineOf a < 0x1000000000 := by simp only [lineOf]; omega
  have hm : smGet 0 s.zeroSram.mem a = 0 := by
    rw [smGet, State.zeroSram, smFind_filter_none fun v => by simpa using ha]
    rfl
  have he : s.zeroSram.eccOf (lineOf a) = 0 := by
    rw [State.eccOf, smGet, State.zeroSram, smFind_filter_none fun v => by simpa using hl]
    rfl
  have hf : eccFlip 0 (a % 32) = 0 := if_neg (by decide)
  rw [State.byte, hm, he, hf]
  rfl

/-- Memories and pacers start, and the firmware is up (R52, R549). -/
def State.powerDie (s : State) : State :=
  { s.zeroSram.startPacers with host := { s.zeroSram.startPacers.host with up := true } }

theorem State.powerDie_belowPace (s : State) : SameBelowPace s s.powerDie := by
  have h : SameBelowPace s s.zeroSram := (SameBelowPace.refl s).record rfl
  unfold State.powerDie
  exact SameBelowPace.record (h.trans s.zeroSram.startPacers_belowPace) (by dsimp only)

theorem State.powerDie_up (s : State) : s.powerDie.host.up = true := by
  unfold State.powerDie
  dsimp only

theorem State.powerDie_stopped (s : State) (r : Fin 16) : (s.powerDie.reach r).stopped = false := by
  rw [State.reach_congr (s := s.zeroSram.startPacers) (by unfold State.powerDie; dsimp only)]
  exact State.startPacers_stopped _ r

theorem State.powerDie_byte (s : State) {a : Nat} (ha : a < 0x1000000000) : s.powerDie.byte a = 0 := by
  have h := State.startPacers_changes s.zeroSram
  rw [State.byte_congr (s := s.zeroSram.startPacers) (by unfold State.powerDie; dsimp only) (by unfold State.powerDie; dsimp only),
    State.byte_congr (h.mem rfl) (h.ecc rfl), s.zeroSram_byte ha]

/-- The enabled ports make their first attempts at training, which Ready waits for (R529). -/
def State.tryPorts (s : State) : State :=
  { s.trainPorts with toll := { s.trainPorts.toll with trying := (List.range 48).filter s.trainPorts.portOn } }

theorem State.tryPorts_belowPace (s : State) : SameBelowPace s s.tryPorts := s.trainPorts_belowPace.record rfl

theorem State.tryPorts_kept (s : State) :
    s.tryPorts.host = s.host ∧ s.tryPorts.reaches = s.reaches ∧ s.tryPorts.mem = s.mem ∧ s.tryPorts.ecc = s.ecc :=
  have h := s.trainPorts_changes
  ⟨h.host rfl, h.reaches rfl, h.mem rfl, h.ecc rfl⟩

theorem State.configure_eq (s : State) : s.configure = (s.loadImage.powerDie.setPhase 6).tryPorts := rfl

/-- The fields of TOLL_BOOT other than the phase are as they were before phase 5. -/
theorem State.configure_get_TOLL_BOOT (s : State) (f : BitField) (h : f.lo + f.width ≤ 60) :
    s.configure.get Reg.TOLL_BOOT f = s.get Reg.TOLL_BOOT f := by
  rw [State.configure_eq, (State.tryPorts_belowPace _).get_TOLL_BOOT, State.setPhase_get_TOLL_BOOT _ _ _ h,
    (State.powerDie_belowPace _).get_TOLL_BOOT, State.get, State.loadImage_TOLL_BOOT, ← State.get, State.setPhase_get_TOLL_BOOT _ _ _ h]

theorem State.configure_phase (s : State) : s.configure.phase = 6 := by
  rw [State.configure_eq, (State.tryPorts_belowPace _).phase, State.phase_setPhase _ (by decide)]

theorem State.configure_powered (s : State) : Powered s s.configure := by
  have hp := State.setPhase_changes s.loadImage.powerDie 6
  obtain ⟨host, reaches, mem, ecc⟩ := State.tryPorts_kept (s.loadImage.powerDie.setPhase 6)
  refine ⟨s.configure_phase, ?_, fun r => ?_, fun a ha => ?_, fun j => ?_⟩ <;> rw [State.configure_eq]
  · rw [host, hp.host rfl, State.powerDie_up]
  · rw [State.reach_congr (reaches.trans (hp.reaches rfl))]
    exact State.powerDie_stopped _ r
  · rw [State.byte_congr (mem.trans (hp.mem rfl)) (ecc.trans (hp.ecc rfl))]
    exact State.powerDie_byte _ ha
  · have hb : Reg.DEV_CORE_MAP j < blockBase 2 ∧ Reg.DEV_CORE_MAP j ≠ Reg.TOLL_BOOT ∧ Reg.DEV_CORE_MAP j ≠ Reg.DEV_STATE := by
      revert j; decide
    rw [State.tryPorts_belowPace _ _ hb.1, State.setPhase_reg_ne _ _ hb.2.1 hb.2.2, State.powerDie_belowPace _ _ hb.1,
      State.loadImage_coreMap]

end Sys2Proof.Machine
end

section
/-! SUPPORT. What the commands of a boot come to (R528 to R535, R545, R574 to R576, R588), with the obligation on boot. -/

namespace Sys2Proof.Machine

/-! ### The start of the ROM -/

theorem pwrOkRise_boots {s : State} (hp : s.toll.pwrOk = false) (hr : s.toll.resetN = true) : Gives .pwrOkRise s fun t =>
    t.toll.pwrOk = true ∧ t.phase = 1 ∧ t.toll.bootAt = s.now ∧ t.toll.slot = 0 ∧ SameRegs [Reg.TOLL_BOOT] s t := by
  have he : execPwrOkRise s = .next ({ s with toll := { s.toll with pwrOk := true } } : State).readyFlash.startBoot := by
    simp only [execPwrOkRise, hp, hr, Bool.false_eq_true, if_false, if_true]
  refine Gives.intro he ⟨?_, State.startBoot_phase _, ?_, ?_, (SameRegs.ofRegs rfl).trans (State.startBoot_sameRegs _)⟩ <;>
    rw [State.startBoot_toll] <;> rfl

theorem pwrOkRise_waits {s : State} (hp : s.toll.pwrOk = false) (hr : s.toll.resetN = false) : Gives .pwrOkRise s fun t =>
    t.toll = { s.toll with pwrOk := true } ∧ t.regs = s.regs := by
  have he : execPwrOkRise s = .next { s with toll := { s.toll with pwrOk := true } } := by
    simp only [execPwrOkRise, hp, hr, Bool.false_eq_true, if_false]
  exact Gives.intro he ⟨rfl, rfl⟩

theorem resetNRelease_boots {s : State} (hr : s.toll.resetN = false) (hl : s.toll.lowAt = none) (hp : s.toll.pwrOk = true)
    (h0 : s.phase = 0) : Gives .resetNRelease s fun t => t.toll.resetN = true ∧ t.phase = 1 ∧ t.toll.bootAt = s.now := by
  have he : execResetNRelease s =
      .next ({ s with toll := { s.toll with resetN := true, lowAt := none } } : State).readyFlash.startBoot := by
    simp only [execResetNRelease, hr, hl, Bool.false_eq_true, if_false]
    exact congrArg Host.Outcome.next (if_pos ⟨hp, h0⟩)
  refine Gives.intro he ⟨?_, State.startBoot_phase _, ?_⟩ <;> rw [State.startBoot_toll] <;> rfl

/-- A DEV reset by the pin of a device that is ready: it is noted in DEV_RESET_STAT, and the ROM starts (R545). -/
theorem State.devReset_pin {s : State} (h : s.ready = true) :
    (s.devReset true).toll.resetN = s.toll.resetN ∧ (s.devReset true).phase = 1 ∧ (s.devReset true).now = s.now ∧
      (s.devReset true).get Reg.DEV_RESET_STAT Fld.DEV_RESET_STAT.last_kind = 3 ∧
      (s.devReset true).get Reg.DEV_RESET_STAT Fld.DEV_RESET_STAT.by_pin = 1 := by
  obtain ⟨u, hu⟩ : ∃ u, u = (s.devCleared.noteKind 3).put Reg.DEV_RESET_STAT Fld.DEV_RESET_STAT.by_pin 1 := ⟨_, rfl⟩
  have hd : s.devReset true = u.startBoot := by
    simp only [State.devReset, h, Bool.not_true, Bool.false_eq_true, if_false, if_true, hu]
  have hk : ∀ f, u.startBoot.get Reg.DEV_RESET_STAT f = u.get Reg.DEV_RESET_STAT f := fun f => by
    rw [State.get, u.startBoot_sameRegs _ (by decide), State.get]
  rw [hd]
  refine ⟨?_, u.startBoot_phase, ?_, ?_, ?_⟩
  · rw [State.startBoot_toll, hu]
    rfl
  · rw [u.startBoot_changes.now rfl, hu]
    rfl
  · rw [hk, hu, State.get_put_other _ _ _ _ _ (by decide), State.noteKind, State.get_put_same _ _ _ _ (by decide)]
    rfl
  · rw [hk, hu, State.get_put_same _ _ _ _ (by decide)]
    rfl

/-- The state in which a release of RESET_N, low since `t0`, asks for a DEV reset: 1 µs after the fall (R545). -/
def State.pinReset (s : State) (t0 : Nat) : State :=
  (({ s with toll := { s.toll with resetN := true, lowAt := none } } : State).advanceTo (t0 + 1000000)).readyFlash

theorem State.pinReset_toll (s : State) (t0 : Nat) : (s.pinReset t0).toll = { s.toll with resetN := true, lowAt := none } := by
  rw [State.pinReset, (State.readyFlash_changes _).toll rfl, (State.advanceTo_changes _ _).toll rfl]

theorem State.pinReset_now (s : State) (t0 : Nat) : (s.pinReset t0).now = max s.now (t0 + 1000000) := by
  rw [State.pinReset, (State.readyFlash_changes _).now rfl, State.advanceTo_now]

theorem State.pinReset_ready {s : State} (h : s.ready = true) (t0 : Nat) : (s.pinReset t0).ready = true := by
  have hr : SameBelowPace s (s.pinReset t0) := by
    have h0 : SameBelowPace s { s with toll := { s.toll with resetN := true, lowAt := none } } := (SameBelowPace.refl s).record rfl
    unfold State.pinReset
    exact (h0.trans (State.advanceTo_belowPace _ _)).record ((State.readyFlash_changes _).regs rfl)
  rw [State.ready, hr.phase, State.tollOnly, State.pinReset_toll]
  exact h

theorem resetNRelease_resets {s : State} {t0 : Nat} (hr : s.toll.resetN = false) (hl : s.toll.lowAt = some t0)
    (h7 : s.ready = true) : Gives .resetNRelease s fun t =>
      t.toll.resetN = true ∧ t.phase = 1 ∧ t.now = max s.now (t0 + 1000000) ∧
      t.get Reg.DEV_RESET_STAT Fld.DEV_RESET_STAT.last_kind = 3 ∧ t.get Reg.DEV_RESET_STAT Fld.DEV_RESET_STAT.by_pin = 1 := by
  have he : execResetNRelease s = .next ((s.pinReset t0).devReset true) := by
    simp only [execResetNRelease, hr, hl, Bool.false_eq_true, if_false, State.pinReset]
  obtain ⟨resetN, phase, now, kind, pin⟩ := State.devReset_pin (State.pinReset_ready h7 t0)
  exact Gives.intro he ⟨by rw [resetN, State.pinReset_toll], phase, now.trans (s.pinReset_now t0), kind, pin⟩

/-! ### The image -/

/-- What a slot comes to while the ROM reads it (R534). -/
theorem execImageSlotCheck_read {s : State} {slot : Fin 2} (img : List Byte) (h1 : s.phase = 1) (ht : s.tollOnly = false)
    (hs : s.toll.slot = slot.val) :
    execImageSlotCheck slot img s =
      if s.imageCode img = 0 then .next (s.acceptImage slot img)
      else
        let t := s.logErr { code := s.imageCode img, aux := slot }
        if slot.val = 0 then
          .next ({ t.put Reg.TOLL_BOOT Fld.TOLL_BOOT.slot0_fail 1 with toll := { t.toll with slot := 1 } })
        else .next (t.bootFail (s.imageCode img)) := by
  unfold execImageSlotCheck
  exact if_neg (by simp [h1, ht, hs])

theorem imageSlotCheck_second {s : State} {slot : Fin 2} {img : List Byte} (h1 : s.phase = 1) (ht : s.tollOnly = false)
    (hs : s.toll.slot = slot.val) (hc : s.imageCode img ≠ 0) (h0 : slot = 0) : Gives (.imageSlotCheck slot img) s fun t =>
      t.toll.slot = 1 ∧ t.phase = 1 ∧ t.get Reg.TOLL_BOOT Fld.TOLL_BOOT.slot0_fail = 1 := by
  have he := execImageSlotCheck_read img h1 ht hs
  rw [if_neg hc, h0] at he
  obtain ⟨t, h⟩ : ∃ t, t = s.logErr { code := s.imageCode img, aux := (0 : Fin 2) } := ⟨_, rfl⟩
  have hp : t.phase = s.phase := h ▸ ((SameBelowPace.refl s).logErr _).phase
  rw [← h] at he
  rw [h0]
  refine Gives.intro he ⟨rfl, ?_, ?_⟩
  · exact (t.phase_put Fld.TOLL_BOOT.slot0_fail 1 (by decide)).trans (hp.trans h1)
  · exact t.get_put_same Reg.TOLL_BOOT Fld.TOLL_BOOT.slot0_fail 1 (by decide)

theorem imageSlotCheck_fails {s : State} {slot : Fin 2} {img : List Byte} (h1 : s.phase = 1) (ht : s.tollOnly = false)
    (hs : s.toll.slot = slot.val) (hc : s.imageCode img ≠ 0) (h0 : slot = 1) :
    Gives (.imageSlotCheck slot img) s (BootFailed (s.imageCode img)) := by
  have he := execImageSlotCheck_read img h1 ht hs
  rw [if_neg hc, h0] at he
  rw [h0]
  exact Gives.intro he (State.bootFail_failed _ _)

/-- An accepted image with its measurement and versions, before its change orders (R533, R534). -/
def State.recordImage (s : State) (slot : Nat) (img : List Byte) : State :=
  let f := fieldOf img
  let keys := if f 17 1 = 1 then imgPart img 1 else []
  let m := measurement img
  let s := (List.range 8).foldl (fun (t : State) j => t.setReg (Reg.TOLL_MEAS j) (wordOf m j)) s
  let s := (s.put Reg.TOLL_IMAGE Fld.TOLL_IMAGE.sec_version (f 28 4)).put Reg.TOLL_IMAGE Fld.TOLL_IMAGE.image_version (f 24 4)
  let s := s.put Reg.TOLL_BOOT Fld.TOLL_BOOT.slot slot
  { s with toll := { s.toll with image := img, keys := keys, i3cStatic := fieldOf (imgPart img 4) 2 1 % 128 } }

/-- What follows the change orders of an accepted image (R528, R530). -/
def State.leavePhase1 (s : State) : State :=
  if s.toll.kind = 3 then s.configure
  else if s.toll.tripped then ({ s with toll := { s.toll with tripAt := s.now } }).setPhase 3
  else s.setPhase 4

theorem State.acceptImage_eq (s : State) (slot : Nat) (img : List Byte) :
    s.acceptImage slot img = ((s.recordImage slot img).applyOrders img).leavePhase1 := rfl

theorem State.recordImage_toll (s : State) (slot : Nat) (img : List Byte) :
    (s.recordImage slot img).toll.kind = s.toll.kind ∧ (s.recordImage slot img).toll.tripped = s.toll.tripped := by
  have h : ((List.range 8).foldl (fun (t : State) j => t.setReg (Reg.TOLL_MEAS j) (wordOf (measurement img) j)) s).toll = s.toll :=
    (Changes.foldl (ps := [.regs]) (Changes.refl _ s) fun u _ => State.setReg_changes u _ _).toll rfl
  simp [State.recordImage, h]

theorem State.recordImage_slot (s : State) (slot : Fin 2) (img : List Byte) :
    (s.recordImage slot img).get Reg.TOLL_BOOT Fld.TOLL_BOOT.slot = slot.val :=
  (State.get_put_same _ _ _ _ (by decide)).trans (Nat.mod_eq_of_lt slot.isLt)

theorem State.leavePhase1_phase (s : State) :
    s.leavePhase1.phase = if s.toll.kind = 3 then 6 else if s.toll.tripped then 3 else 4 := by
  unfold State.leavePhase1
  split
  · exact s.configure_phase
  · split
    · exact State.phase_setPhase _ (by decide)
    · exact State.phase_setPhase _ (by decide)

theorem State.leavePhase1_slot (s : State) :
    s.leavePhase1.get Reg.TOLL_BOOT Fld.TOLL_BOOT.slot = s.get Reg.TOLL_BOOT Fld.TOLL_BOOT.slot := by
  unfold State.leavePhase1
  split
  · exact s.configure_get_TOLL_BOOT _ (by decide)
  · split
    · exact State.setPhase_get_TOLL_BOOT _ _ _ (by decide)
    · exact State.setPhase_get_TOLL_BOOT _ _ _ (by decide)

theorem imageSlotCheck_accepts {s : State} {slot : Fin 2} {img : List Byte} (h1 : s.phase = 1) (ht : s.tollOnly = false)
    (hs : s.toll.slot = slot.val) (hc : s.imageCode img = 0) : Gives (.imageSlotCheck slot img) s fun t =>
      t.phase = (if s.toll.kind = 3 then 6 else if s.toll.tripped then 3 else 4) ∧
      t.get Reg.TOLL_BOOT Fld.TOLL_BOOT.slot = slot.val := by
  have he := execImageSlotCheck_read img h1 ht hs
  rw [if_pos hc, State.acceptImage_eq] at he
  obtain ⟨hk, hd⟩ := s.recordImage_toll slot img
  refine Gives.intro he ⟨?_, ?_⟩
  · rw [State.leavePhase1_phase, (State.applyOrders_changes _ _).toll rfl, hk, hd]
  · rw [State.leavePhase1_slot, (State.applyOrders_belowPace _ _).get_TOLL_BOOT, State.recordImage_slot]

/-! ### Rails -/

theorem getD_set {l : List Bool} {i : Nat} (hi : i < l.length) (j : Nat) (b : Bool) :
    (l.set i b).getD j false = if j = i then b else l.getD j false := by
  by_cases h : j = i
  · subst h; simp [hi]
  · simp [h, Ne.symm h]

theorem State.setPg_railPg {s : State} (h4 : FourRails s) (g : Fin 4) (b : Bool) (j : Nat) :
    (s.setPg g b).railPg j = if j = g then b else s.railPg j := getD_set (by rw [h4.2.1]; exact g.isLt) j b

theorem State.powered_not {s : State} (h : ¬(s.phase = 4 ∧ s.railEn 3 = true ∧ s.railPg 3 = true)) : s.powered = s := by
  unfold State.powered
  rw [if_pos]
  simpa [imp_iff_not_or] using h

/-- With every rail good phase 4 ends, in a failure where a reference clock is lost (R574, R575). -/
theorem State.powered_last {s : State} (hp : s.phase = 4) (he : s.railEn 3 = true) (hg : s.railPg 3 = true) :
    s.powered = if s.toll.trefLost ∨ s.toll.erefLost then s.powerFail 3 else s.configure := by
  unfold State.powered
  rw [if_neg]
  simp [hp, he, hg]

theorem Powered.congr {s u t : State} (h : ∀ j : Fin 4, u.reg (Reg.LIMS_GRADE j) = s.reg (Reg.LIMS_GRADE j)) (k : Powered u t) :
    Powered s t := by
  obtain ⟨phase, up, pacers, mem, map⟩ := k
  exact ⟨phase, up, pacers, mem, fun j => (map j).trans (h j)⟩

theorem LIMS_GRADE_not_clock (s : State) (j : Fin 4) : Reg.LIMS_GRADE j ∉ clockRegs s := by
  have h1 : Reg.LIMS_GRADE j ≠ Reg.FABR_TIME ∧ Reg.LIMS_GRADE j ≠ Reg.PACE_HOLD_NS := by revert j; decide
  have h2 : Reg.LIMS_GRADE j ≠ Reg.IDLE_NS s.idle.state := by
    simp only [Reg.LIMS_GRADE, Reg.IDLE_NS, blockBase]
    omega
  simp [clockRegs, h1, h2]

@[simp] theorem State.setEn_now (s : State) (g : Nat) (b : Bool) : (s.setEn g b).now = s.now := rfl
@[simp] theorem State.setEn_regs (s : State) (g : Nat) (b : Bool) : (s.setEn g b).regs = s.regs := rfl
theorem State.setEn_toll (s : State) (g : Nat) (b : Bool) :
    (s.setEn g b).toll = { s.toll with en := s.toll.en.set g b, enAt := s.toll.enAt.set g s.now } := rfl

/-- When enable `g` rises after the first: 2 ms after the power-good of the group before it (R574). -/
def State.enDue (s : State) (g : Fin 4) : Nat :=
  max (s.toll.pgAt.getD (g.val - 1) 0) (s.toll.enAt.getD (g.val - 1) 0) + 2000000000

/-- The state in which enable `g` rises. -/
def State.raiseEn (s : State) (g : Fin 4) : State := (if g = 0 then s else s.advanceTo (s.enDue g)).setEn g true

theorem execRailEnable_rises {s : State} {g : Fin 4} (h : s.phase = 4) (hd : s.toll.downing = false) (he : s.railEn g = false)
    (hb : g ≠ 0 → s.railEn (g.val - 1) = true ∧ s.railPg (g.val - 1) = true) :
    execRailEnable g s = .next (s.raiseEn g).powered := by
  have hg : g.val = 0 ↔ g = 0 := by rw [Fin.ext_iff]; rfl
  simp only [execRailEnable, State.raiseEn, State.enDue, hg]
  refine if_neg ?_
  by_cases h0 : g = 0
  · subst h0
    simpa [h, hd] using he
  · simp [h, hd, he, hb h0]

theorem State.raiseEn_now (s : State) (g : Fin 4) : (s.raiseEn g).now = if g = 0 then s.now else max s.now (s.enDue g) := by
  rw [State.raiseEn, State.setEn_now]
  split
  · rfl
  · exact State.advanceTo_now _ _

theorem State.raiseEn_toll (s : State) (g : Fin 4) : (s.raiseEn g).toll =
    { s.toll with en := s.toll.en.set g true, enAt := s.toll.enAt.set g (s.raiseEn g).now } := by
  have h : (if g = 0 then s else s.advanceTo (s.enDue g)).toll = s.toll := by
    split
    · rfl
    · exact (s.advanceTo_changes _).toll rfl
  rw [State.raiseEn, State.setEn_toll, h, State.setEn_now]

theorem State.raiseEn_sameRegs (s : State) (g : Fin 4) : SameRegs (clockRegs s) s (s.raiseEn g) := by
  refine SameRegs.trans ?_ (SameRegs.ofRegs (State.setEn_regs _ g true))
  split
  · exact SameRegs.refl _ _
  · exact s.advanceTo_regs _

theorem State.raiseEn_phase (s : State) (g : Fin 4) : (s.raiseEn g).phase = s.phase := by
  refine SameBelowPace.phase (SameBelowPace.record ?_ (State.setEn_regs _ g true))
  split
  · exact SameBelowPace.refl _
  · exact s.advanceTo_belowPace _

theorem State.raiseEn_railEn {s : State} (h4 : FourRails s) (g : Fin 4) :
    (s.raiseEn g).railEn 3 = true ↔ g = 3 ∨ s.railEn 3 = true := by
  have h : (s.raiseEn g).railEn 3 = if 3 = g.val then true else s.railEn 3 := by
    rw [State.railEn, State.raiseEn_toll]
    exact getD_set (by rw [h4.1]; exact g.isLt) 3 true
  have hg : g = 3 ↔ 3 = g.val := by rw [Fin.ext_iff, eq_comm]; rfl
  rw [h, hg]
  split <;> simp [*]

theorem State.raiseEn_railPg (s : State) (g : Fin 4) (j : Nat) : (s.raiseEn g).railPg j = s.railPg j := by
  rw [State.railPg, State.raiseEn_toll, State.railPg]

theorem railEnable_rises {s : State} {g : Fin 4} (h4 : FourRails s) (h : s.phase = 4) (hd : s.toll.downing = false)
    (he : s.railEn g = false) (hb : g ≠ 0 → s.railEn (g.val - 1) = true ∧ s.railPg (g.val - 1) = true)
    (hl : ¬(s.railPg 3 = true ∧ (g = 3 ∨ s.railEn 3 = true))) : Gives (.railEnable g) s fun t =>
      t.now = (if g = 0 then s.now else max s.now (s.enDue g)) ∧
      t.toll.en = s.toll.en.set g true ∧ t.toll.enAt = s.toll.enAt.set g t.now := by
  have hx := execRailEnable_rises h hd he hb
  rw [State.powered_not fun ⟨_, hen, hpg⟩ =>
    hl ⟨(s.raiseEn_railPg g 3).symm.trans hpg, (State.raiseEn_railEn h4 g).mp hen⟩] at hx
  refine Gives.intro hx ⟨s.raiseEn_now g, ?_, ?_⟩ <;> rw [State.raiseEn_toll]

/-- The enable of the last rail ends phase 4. -/
theorem execRailEnable_last {s : State} {g : Fin 4} (h4 : FourRails s) (h : s.phase = 4) (hd : s.toll.downing = false)
    (he : s.railEn g = false) (hb : g ≠ 0 → s.railEn (g.val - 1) = true ∧ s.railPg (g.val - 1) = true)
    (hl : s.railPg 3 = true ∧ (g = 3 ∨ s.railEn 3 = true)) :
    execRailEnable g s =
      .next (if s.toll.trefLost ∨ s.toll.erefLost then (s.raiseEn g).powerFail 3 else (s.raiseEn g).configure) := by
  rw [execRailEnable_rises h hd he hb, State.powered_last ((s.raiseEn_phase g).trans h) ((State.raiseEn_railEn h4 g).mpr hl.2)
    ((s.raiseEn_railPg g 3).trans hl.1), State.raiseEn_toll]

theorem railEnable_fails {s : State} {g : Fin 4} (h4 : FourRails s) (h : s.phase = 4) (hd : s.toll.downing = false)
    (he : s.railEn g = false) (hb : g ≠ 0 → s.railEn (g.val - 1) = true ∧ s.railPg (g.val - 1) = true)
    (hl : s.railPg 3 = true ∧ (g = 3 ∨ s.railEn 3 = true)) (hc : s.toll.trefLost = true ∨ s.toll.erefLost = true) :
    Gives (.railEnable g) s (PowerFailed s) := by
  have hx := execRailEnable_last h4 h hd he hb hl
  rw [if_pos hc] at hx
  exact Gives.intro hx (State.powerFail_failed _ _ _)

theorem railEnable_powers {s : State} {g : Fin 4} (h4 : FourRails s) (h : s.phase = 4) (hd : s.toll.downing = false)
    (he : s.railEn g = false) (hb : g ≠ 0 → s.railEn (g.val - 1) = true ∧ s.railPg (g.val - 1) = true)
    (hl : s.railPg 3 = true ∧ (g = 3 ∨ s.railEn 3 = true)) (ht : s.toll.trefLost = false) (hr : s.toll.erefLost = false) :
    Gives (.railEnable g) s (Powered s) := by
  have hx := execRailEnable_last h4 h hd he hb hl
  rw [if_neg (by simp [ht, hr])] at hx
  exact Gives.intro hx ((State.configure_powered _).congr fun j => s.raiseEn_sameRegs g _ (LIMS_GRADE_not_clock s j))

theorem execRailPgRise_rises {s : State} {g : Fin 4} (hg : s.railPg g = false) :
    execRailPgRise g s = .next (s.setPg g true).powered := by
  simp only [execRailPgRise, hg, Bool.false_eq_true, if_false]

theorem State.setPg_railPg_last {s : State} (h4 : FourRails s) (g : Fin 4) :
    (s.setPg g true).railPg 3 = true ↔ g = 3 ∨ s.railPg 3 = true := by
  have hg : g = 3 ↔ 3 = g.val := by rw [Fin.ext_iff, eq_comm]; rfl
  rw [State.setPg_railPg h4, hg]
  split <;> simp [*]

theorem railPgRise_rises {s : State} {g : Fin 4} (h4 : FourRails s) (hg : s.railPg g = false)
    (hl : ¬(s.phase = 4 ∧ s.railEn 3 = true ∧ (g = 3 ∨ s.railPg 3 = true))) : Gives (.railPgRise g) s fun t =>
      t.toll = { s.toll with pg := s.toll.pg.set g true, pgAt := s.toll.pgAt.set g s.now } ∧ t.regs = s.regs := by
  have hx := execRailPgRise_rises hg
  rw [State.powered_not (s := s.setPg g true) fun ⟨hp, hen, hpg⟩ => hl ⟨hp, hen, (State.setPg_railPg_last h4 g).mp hpg⟩] at hx
  exact Gives.intro hx ⟨rfl, rfl⟩

/-- The power-good of the last rail ends phase 4. -/
theorem execRailPgRise_last {s : State} {g : Fin 4} (h4 : FourRails s) (hg : s.railPg g = false)
    (hl : s.phase = 4 ∧ s.railEn 3 = true ∧ (g = 3 ∨ s.railPg 3 = true)) :
    execRailPgRise g s =
      .next (if s.toll.trefLost ∨ s.toll.erefLost then (s.setPg g true).powerFail 3 else (s.setPg g true).configure) := by
  obtain ⟨hp, hen, hpg⟩ := hl
  rw [execRailPgRise_rises hg, State.powered_last (s := s.setPg g true) hp hen ((State.setPg_railPg_last h4 g).mpr hpg)]
  rfl

theorem railPgRise_fails {s : State} {g : Fin 4} (h4 : FourRails s) (hg : s.railPg g = false)
    (hl : s.phase = 4 ∧ s.railEn 3 = true ∧ (g = 3 ∨ s.railPg 3 = true)) (hc : s.toll.trefLost = true ∨ s.toll.erefLost = true) :
    Gives (.railPgRise g) s (PowerFailed s) := by
  have hx := execRailPgRise_last h4 hg hl
  rw [if_pos hc] at hx
  exact Gives.intro hx (State.powerFail_failed _ _ _)

theorem railPgRise_powers {s : State} {g : Fin 4} (h4 : FourRails s) (hg : s.railPg g = false)
    (hl : s.phase = 4 ∧ s.railEn 3 = true ∧ (g = 3 ∨ s.railPg 3 = true)) (ht : s.toll.trefLost = false)
    (hr : s.toll.erefLost = false) : Gives (.railPgRise g) s (Powered s) := by
  have hx := execRailPgRise_last h4 hg hl
  rw [if_neg (by simp [ht, hr])] at hx
  exact Gives.intro hx ((State.configure_powered _).congr fun _ => State.reg_congr (s := s) (t := s.setPg g true) rfl _)

theorem railPgTimeout_fails {s : State} {g : Fin 4} (hg : s.railPg g = false) (he : s.railEn g = true) (h : s.phase = 4) :
    Gives (.railPgTimeout g) s fun t =>
      t.now = max s.now (s.toll.enAt.getD g 0 + 20000000000) ∧ BootFailed 0xFD01 t ∧ t.toll.downing = true := by
  have hx : execRailPgTimeout g s = .next ((s.advanceTo (s.toll.enAt.getD g 0 + 20000000000)).powerFail g) := by
    unfold execRailPgTimeout
    exact if_neg (by simp [hg, he, h])
  obtain ⟨failed, down⟩ := (s.advanceTo (s.toll.enAt.getD g 0 + 20000000000)).powerFail_failed s g
  exact Gives.intro hx ⟨((State.powerFail_changes _ _).now rfl).trans (State.advanceTo_now _ _), failed, down⟩

/-- When enable `g` of an orderly power-down falls where the group above is not down before: 10 ms after its enable fell (R576). -/
def State.downDue (s : State) (g : Fin 4) : Nat := s.toll.enAt.getD (g.val + 1) 0 + 10000000000

/-- The state in which enable `g` of an orderly power-down falls. -/
def State.lowerEn (s : State) (g : Fin 4) : State :=
  (if g = 3 ∨ s.railPg (g.val + 1) = false then s else s.advanceTo (s.downDue g)).setEn g false

theorem State.lowerEn_en (s : State) (g : Fin 4) : (s.lowerEn g).toll.en = s.toll.en.set g false := by
  have h : (if g = 3 ∨ s.railPg (g.val + 1) = false then s else s.advanceTo (s.downDue g)).toll = s.toll := by
    split
    · rfl
    · exact (s.advanceTo_changes _).toll rfl
  rw [State.lowerEn, State.setEn_toll, h]

theorem State.lowerEn_now (s : State) (g : Fin 4) :
    (s.lowerEn g).now = if g = 3 ∨ s.railPg (g.val + 1) = false then s.now else max s.now (s.downDue g) := by
  rw [State.lowerEn, State.setEn_now]
  split
  · rfl
  · exact State.advanceTo_now _ _

/-- A power-down is over when no enable is high. -/
theorem any_id_eq_false {l : List Bool} {n : Nat} (h : l.length = n) : l.any id = false ↔ ∀ j : Fin n, l.getD j false = false := by
  subst h
  rw [List.any_eq_false]
  refine ⟨fun k j => ?_, fun k b hb => ?_⟩
  · rw [List.getD_eq_getElem _ _ j.isLt]
    simpa using k _ (List.getElem_mem j.isLt)
  · obtain ⟨j, hj, rfl⟩ := List.getElem_of_mem hb
    have := k ⟨j, hj⟩
    rw [List.getD_eq_getElem _ _ hj] at this
    simpa using this

theorem railDisable_lowers {s : State} {g : Fin 4} (h4 : FourRails s) (hd : s.toll.downing = true) (he : s.railEn g = true)
    (ha : ∀ j : Fin 4, g < j → s.railEn j = false) : Gives (.railDisable g) s fun t =>
      t.now = (if g = 3 ∨ s.railPg (g.val + 1) = false then s.now else max s.now (s.downDue g)) ∧
      t.toll.en = s.toll.en.set g false ∧ (t.toll.downing = false ↔ ∀ j : Fin 4, j < g → s.railEn j = false) := by
  have hn : (List.range 4).any (fun j => decide (g.val < j) && s.railEn j) = false := by
    rw [List.any_eq_false]
    intro j hj
    have hj : j < 4 := List.mem_range.mp hj
    by_cases hl : g.val < j
    · simp [ha ⟨j, hj⟩ hl]
    · simp [hl]
  have hx : execRailDisable g s =
      .next { s.lowerEn g with toll := { (s.lowerEn g).toll with downing := (s.lowerEn g).toll.en.any id } } := by
    have hg : (g.val = 3 ∨ (!s.railPg (g.val + 1)) = true) ↔ (g = 3 ∨ s.railPg (g.val + 1) = false) := by
      rw [Fin.ext_iff, Bool.not_eq_true']
      rfl
    simp only [execRailDisable, State.lowerEn, State.downDue, hg]
    exact if_neg (by simp [hd, he, hn])
  refine Gives.intro hx ⟨s.lowerEn_now g, s.lowerEn_en g, ?_⟩
  show (s.lowerEn g).toll.en.any id = false ↔ _
  rw [State.lowerEn_en, any_id_eq_false (n := 4) (by rw [List.length_set, h4.1])]
  have hs : ∀ j : Fin 4, (s.toll.en.set g false).getD j false = if j.val = g.val then false else s.railEn j := fun j =>
    getD_set (by rw [h4.1]; exact g.isLt) j false
  refine ⟨fun k j hj => ?_, fun k j => ?_⟩
  · rw [← k j, hs, if_neg (Nat.ne_of_lt hj)]
  · rw [hs]
    rcases Nat.lt_trichotomy j g with hj | hj | hj
    · rw [if_neg (Nat.ne_of_lt hj), k j hj]
    · rw [if_pos hj]
    · rw [if_neg (Nat.ne_of_gt hj), ha j hj]

/-! ### Ready, and a boot after a trip -/

/-- Of the registers discovery writes FABR_ADDR alone: probes wait in the fabric's state (R390). -/
theorem State.startDiscovery_regs (s : State) : ∃ own, s.startDiscovery.regs =
    (((s.put Reg.FABR_ADDR Fld.FABR_ADDR.mgr_here 1).put Reg.FABR_ADDR Fld.FABR_ADDR.addr own).put Reg.FABR_ADDR
      Fld.FABR_ADDR.mgr own).regs := by
  have hf : ∀ (l : List Nat) (u : State), (l.foldl State.scoutPort u).regs = u.regs := fun l u =>
    (Changes.foldl (ps := [.fabric]) (Changes.refl _ u) State.scoutPort_changes).regs rfl
  unfold State.startDiscovery
  extract_lets a t own u w v
  have hv : v.regs = u.regs := by
    simp only [v]
    split <;> rfl
  exact ⟨own, (hf _ _).trans hv⟩

theorem State.startDiscovery_reg_ne (s : State) {a : Nat} (h : a ≠ Reg.FABR_ADDR) : s.startDiscovery.reg a = s.reg a := by
  obtain ⟨own, hr⟩ := s.startDiscovery_regs
  rw [State.reg_congr hr, State.reg_put_ne _ _ _ h, State.reg_put_ne _ _ _ h, State.reg_put_ne _ _ _ h]

theorem State.startDiscovery_mgr_here (s : State) : s.startDiscovery.get Reg.FABR_ADDR Fld.FABR_ADDR.mgr_here = 1 := by
  obtain ⟨own, hr⟩ := s.startDiscovery_regs
  rw [State.get_congr hr, State.get_put_other _ _ _ _ _ (by decide), State.get_put_other _ _ _ _ _ (by decide),
    State.get_put_same _ _ _ _ (by decide)]
  rfl

/-- The state that is Ready, before any discovery (R528, R529). -/
def State.showReady (s : State) : State :=
  (s.setPhase 7).put Reg.TOLL_BOOT Fld.TOLL_BOOT.boot_ms (min (2 ^ 20 - 1) ((s.now - s.toll.bootAt) / 1000000000))

theorem execBootReady_ready {s : State} (h : s.phase = 6) (ht : ∀ h : Fin 2, s.get (Reg.HOLD_CTRL h) Fld.HOLD_CTRL.trained = 1)
    (hp : s.toll.trying = []) (hu : s.host.up = true) :
    execBootReady s = .next (if s.isWharf = true ∧ s.mgrFlag = true then s.showReady.startDiscovery else s.showReady) := by
  have hn : (s.setPhase 7).now = s.now := s.setPhase_now 7
  have hb : (s.setPhase 7).toll = s.toll := s.setPhase_toll 7
  have hw : s.showReady.isWharf = s.isWharf := by
    have hr : s.showReady.reg Reg.STRM_MODE = s.reg Reg.STRM_MODE :=
      (State.reg_put_ne _ _ _ (by decide)).trans (s.setPhase_reg_ne 7 (by decide) (by decide))
    simp only [State.isWharf, State.get, hr]
  have hm : s.showReady.mgrFlag = s.mgrFlag := by
    have hr : s.showReady.toll = s.toll := hb
    simp only [State.mgrFlag, hr]
  have hh : (List.range 2).all (fun h => s.get (Reg.HOLD_CTRL h) Fld.HOLD_CTRL.trained == 1) = true := by
    simp only [List.all_eq_true, List.mem_range, beq_iff_eq]
    exact fun x hx => ht ⟨x, hx⟩
  rw [← hw, ← hm]
  simp only [execBootReady, hh, hn, hb]
  exact if_neg (by simp [h, hp, hu])

theorem State.showReady_shows (s : State) : s.showReady.phase = 7 ∧ s.showReady.get Reg.DEV_STATE Fld.DEV_STATE.phase = 7 ∧
    s.showReady.get Reg.TOLL_BOOT Fld.TOLL_BOOT.boot_ms = min (2 ^ 20 - 1) ((s.now - s.toll.bootAt) / 1000000000) := by
  refine ⟨?_, ?_, ?_⟩
  · rw [State.showReady, State.phase_put _ _ _ (by decide), State.phase_setPhase _ (by decide)]
  · rw [State.showReady, State.get_put_ne _ _ _ _ (by decide)]
    exact State.get_put_same _ _ _ _ (by decide)
  · rw [State.showReady, State.get_put_same _ _ _ _ (by decide)]
    exact Nat.mod_eq_of_lt (Nat.lt_of_le_of_lt (Nat.min_le_left _ _) (by decide))

theorem bootReady_ready {s : State} (h : s.phase = 6) (ht : ∀ h : Fin 2, s.get (Reg.HOLD_CTRL h) Fld.HOLD_CTRL.trained = 1)
    (hp : s.toll.trying = []) (hu : s.host.up = true) : Gives .bootReady s fun t =>
      t.phase = 7 ∧ t.get Reg.DEV_STATE Fld.DEV_STATE.phase = 7 ∧
      t.get Reg.TOLL_BOOT Fld.TOLL_BOOT.boot_ms = min (2 ^ 20 - 1) ((s.now - s.toll.bootAt) / 1000000000) ∧
      t.get Reg.FABR_ADDR Fld.FABR_ADDR.mgr_here =
        (if s.isWharf = true ∧ s.mgrFlag = true then 1 else s.get Reg.FABR_ADDR Fld.FABR_ADDR.mgr_here) := by
  obtain ⟨hph, hdev, hms⟩ := s.showReady_shows
  refine Gives.intro (execBootReady_ready h ht hp hu) ?_
  split
  · have hd : ∀ {a : Nat} (f : BitField), a ≠ Reg.FABR_ADDR → s.showReady.startDiscovery.get a f = s.showReady.get a f :=
      fun f ha => by rw [State.get, State.startDiscovery_reg_ne _ ha, State.get]
    exact ⟨(hd _ (by decide)).trans hph, (hd _ (by decide)).trans hdev, (hd _ (by decide)).trans hms,
      State.startDiscovery_mgr_here _⟩
  · have hf : s.showReady.reg Reg.FABR_ADDR = s.reg Reg.FABR_ADDR :=
      (State.reg_put_ne _ _ _ (by decide)).trans (s.setPhase_reg_ne 7 (by decide) (by decide))
    exact ⟨hph, hdev, hms, by rw [State.get, hf, State.get]⟩

/-- When the wait after a trip ends: 10 s after its start (R588). -/
def State.tripDue (s : State) : Nat := s.toll.tripAt + 10000000000000

theorem postTripDelay_ends {s : State} (h : s.phase = 3) (ht : s.tollOnly = false) (hd : s.toll.tripped = true) :
    Gives .postTripDelay s fun t => t.now = max s.now s.tripDue ∧ t.phase = 4 ∧ t.toll.tripped = false := by
  obtain ⟨u, hu⟩ : ∃ u, u = s.advanceTo s.tripDue := ⟨_, rfl⟩
  have hx : execPostTripDelay s = .next (({ u with toll := { u.toll with tripped := false } } : State).setPhase 4) := by
    rw [hu]
    simp only [execPostTripDelay, State.tripDue]
    exact if_neg (by simp [h, ht, hd])
  have hn : u.now = max s.now s.tripDue := hu ▸ State.advanceTo_now _ _
  refine Gives.intro hx ⟨?_, State.phase_setPhase _ (by decide), ?_⟩
  · rw [State.setPhase_now]
    exact hn
  · rw [State.setPhase_toll]

/-- Settles O53: each command of a boot by the state it goes on from, whose registers below the PACE block nothing later writes. -/
theorem boot : Obligations.Boot := by
  unfold Obligations.Boot
  intro s
  refine ⟨fun hp => ⟨pwrOkRise_boots hp, pwrOkRise_waits hp⟩,
    fun hr => ⟨fun hl hp h0 => resetNRelease_boots hr hl hp h0, fun t0 hl h7 => resetNRelease_resets hr hl h7⟩,
    fun slot img h1 ht hs => ⟨imageSlotCheck_second h1 ht hs, imageSlotCheck_fails h1 ht hs, imageSlotCheck_accepts h1 ht hs⟩,
    fun g h4 h hd he hb => ⟨railEnable_rises h4 h hd he hb, railEnable_fails h4 h hd he hb, railEnable_powers h4 h hd he hb⟩,
    fun g h4 hg => ⟨railPgRise_rises h4 hg, railPgRise_fails h4 hg, railPgRise_powers h4 hg, railPgTimeout_fails hg⟩,
    bootReady_ready, fun g => railDisable_lowers, postTripDelay_ends⟩

end Sys2Proof.Machine
end

section
/-! SUPPORT. The registers of the PACE block: where they lie, and writes of them by the register path (R65, R73, R74), with the obligations
on VANE_THRESH and target_op. -/

namespace Sys2Proof.Machine

/-! ### Addresses -/

@[simp] theorem errReg_PACE_OPSEL (r : Fin 16) : errReg (Reg.PACE_OPSEL r) = false := by
  revert r; decide

theorem errReg_VANE_MARGIN (r : Fin 16) : errReg (Reg.VANE_MARGIN r) = false := by
  revert r; decide

@[simp] theorem errReg_VANE_THRESH : errReg Reg.VANE_THRESH = false := by decide

/-! ### A write of VANE_THRESH -/

/-- R593: the row of VANE_THRESH. -/
theorem regRow_VANE_THRESH : ∃ r, regRow Reg.VANE_THRESH = some r ∧ r.rw = 0x8F00FFFF#64 ∧ r.w1c = 0 :=
  ⟨paceRows[5], regRow_block (b := 2) (off := 0x500) (by decide) (by decide), rfl, rfl⟩

/-- Each field that a write of VANE_THRESH takes reads back as written. -/
theorem State.get_plainWrite_VANE_THRESH (s : State) (f : BitField) (v : Word) (h : f.mask &&& ~~~ 0x8F00FFFF#64 = 0) :
    (s.plainWrite Reg.VANE_THRESH v).get Reg.VANE_THRESH f = f.get v := by
  obtain ⟨r, hr, hw, hc⟩ := regRow_VANE_THRESH
  exact State.get_plainWrite s f v hr (by rw [hw]; exact h) (by simp [hc])

theorem execVaneThreshWrite_discarded {v : Word} (s : State) (h : Fld.VANE_THRESH.warn.get v ≤ Fld.VANE_THRESH.crit.get v) :
    execVaneThreshWrite v s = .next (s.logErr { code := 0x3103 }) := by
  rw [execVaneThreshWrite, State.writeVaneThresh, if_pos h]

theorem execVaneThreshWrite_taken {v : Word} (s : State) (h : Fld.VANE_THRESH.crit.get v < Fld.VANE_THRESH.warn.get v) :
    execVaneThreshWrite v s = .next (s.plainWrite Reg.VANE_THRESH v) := by
  rw [execVaneThreshWrite, State.writeVaneThresh, if_neg (by omega)]

/-- Settles O7: a write is logged in registers apart from VANE_THRESH, or is a plain one. -/
theorem vaneThreshWrite : Obligations.VaneThreshWrite := by
  unfold Obligations.VaneThreshWrite
  refine fun v s => ⟨fun h => ⟨execVaneThreshWrite_discarded s h, s.logErr_reg _ errReg_VANE_THRESH⟩, fun h => ?_⟩
  refine Gives.intro (execVaneThreshWrite_taken s h) ⟨?_, ?_, ?_, ?_, (s.plainWrite_changes _ v).only, s.plainWrite_sameRegs _ v⟩
  all_goals exact s.get_plainWrite_VANE_THRESH _ v (by decide)

/-! ### A write of target_op -/

/-- A field of one bit is 0 or 1. -/
theorem BitField.get_bit (lo : Nat) (w : Word) : (⟨lo, 1⟩ : BitField).get w = (w.getLsbD lo).toNat := by
  rw [BitField.get, ← BitVec.testBit_toNat, Nat.pow_one, ← Nat.and_one_is_mod, Nat.toNat_testBit, Nat.shiftRight_eq_div_pow,
    Nat.and_one_is_mod]

/-- A 1 is left of a bit of `v` without the bits of `m` where `v` has it and `m` does not. -/
theorem BitField.get_without_bit (lo : Nat) (v m : Word) :
    (⟨lo, 1⟩ : BitField).get (v &&& ~~~ m) = 1 ↔ (⟨lo, 1⟩ : BitField).get v = 1 ∧ (⟨lo, 1⟩ : BitField).get m = 0 := by
  simp only [BitField.get_bit, BitVec.getLsbD_and, BitVec.getLsbD_not]
  by_cases hl : lo < 64
  · cases v.getLsbD lo <;> cases m.getLsbD lo <;> simp [hl]
  · simp [BitVec.getLsbD_of_ge _ lo (by omega : 64 ≤ lo)]

/-- PACE_OPSEL_r with settle_fail cleared by a 1 that a write holds for it, but where the hardware sets it in that beat (R16). -/
def State.clearFail (s : State) (r : Nat) (v : Word) : State :=
  if Fld.PACE_OPSEL.settle_fail.get v = 1 ∧ Fld.PACE_OPSEL.settle_fail.get (s.mark (Reg.PACE_OPSEL r)).set = 0 then
    s.put (Reg.PACE_OPSEL r) Fld.PACE_OPSEL.settle_fail 0
  else s

theorem State.clearFail_sameRegs (s : State) (r : Nat) (v : Word) : SameRegs [Reg.PACE_OPSEL r] s (s.clearFail r v) := by
  unfold State.clearFail
  split
  · exact s.put_sameRegs _ _ _
  · exact SameRegs.refl _ _

theorem State.clearFail_changes (s : State) (r : Nat) (v : Word) : Changes [.regs] s (s.clearFail r v) :=
  Changes.ite (s.put_changes _ _ _) (Changes.refl _ _)

theorem State.clearFail_settle_fail (s : State) (r : Nat) (v : Word) :
    (s.clearFail r v).get (Reg.PACE_OPSEL r) Fld.PACE_OPSEL.settle_fail =
      if Fld.PACE_OPSEL.settle_fail.get v = 1 ∧ Fld.PACE_OPSEL.settle_fail.get (s.mark (Reg.PACE_OPSEL r)).set = 0 then 0
      else s.get (Reg.PACE_OPSEL r) Fld.PACE_OPSEL.settle_fail := by
  unfold State.clearFail
  split
  · exact State.get_put_same _ _ _ _ (by decide)
  · rfl

/-- The other fields of PACE_OPSEL_r do not meet settle_fail. -/
theorem State.clearFail_get (s : State) (r : Nat) (v : Word) (f : BitField) (h : 19 ≤ f.lo ∨ f.lo + f.width ≤ 18) :
    (s.clearFail r v).get (Reg.PACE_OPSEL r) f = s.get (Reg.PACE_OPSEL r) f := by
  unfold State.clearFail
  split
  · exact State.get_put_other _ _ _ _ _ h
  · rfl

theorem SameRegs.ceil {l : List Nat} {s t : State} (h : SameRegs l s t) (hl : Reg.LIMS_OP_CEIL ∉ l) : t.ceil = s.ceil := by
  rw [State.ceil, State.get, h _ hl]
  rfl

theorem LIMS_OP_CEIL_ne_PACE_OPSEL (r : Fin 16) : Reg.LIMS_OP_CEIL ≠ Reg.PACE_OPSEL r := by revert r; decide

/-- A write of PACE_OPSEL_r: settle_fail is cleared, a point under the ceiling is noted as written (R17), and is requested (R65, R74). -/
theorem State.writeOpsel_eq (s : State) (r : Fin 16) (v : Word) :
    s.writeOpsel r v = if Fld.PACE_OPSEL.target_op.get v ≤ s.ceil then
        ((s.clearFail r v).setMark (Reg.PACE_OPSEL r) { s.mark (Reg.PACE_OPSEL r) with
          wrote := (s.mark (Reg.PACE_OPSEL r)).wrote ||| Fld.PACE_OPSEL.target_op.set 0 15 }).setTarget r
            (Fld.PACE_OPSEL.target_op.get v)
      else (s.clearFail r v).logErr { code := 0x3101, aux := r } := by
  have hc : (s.clearFail r v).ceil = s.ceil := (s.clearFail_sameRegs r v).ceil (by simpa using LIMS_OP_CEIL_ne_PACE_OPSEL r)
  unfold State.writeOpsel State.requestOp
  simp only [BitField.get_without_bit, ← State.clearFail.eq_def, hc]
  split
  · next h =>
    rw [if_neg]
    rw [State.ceil, State.get_setMark, ← State.ceil, hc]
    omega
  · next h =>
    rw [if_pos (by rw [hc]; omega)]

/-! ### A request -/

/-- A request sets target_op, and busy where it asks for another point than the one in force (R74). -/
theorem State.setTarget_eq (s : State) (r t : Nat) :
    s.setTarget r t = if t = s.get (Reg.PACE_OPSEL r) Fld.PACE_OPSEL.current_op then
        s.put (Reg.PACE_OPSEL r) Fld.PACE_OPSEL.target_op t
      else (s.put (Reg.PACE_OPSEL r) Fld.PACE_OPSEL.target_op t).put (Reg.PACE_OPSEL r) Fld.PACE_OPSEL.busy 1 := by
  simp only [State.setTarget, ne_eq, ite_not,
    State.get_put_other s _ Fld.PACE_OPSEL.target_op Fld.PACE_OPSEL.current_op t (by decide)]

theorem State.setTarget_sameRegs (s : State) (r t : Nat) : SameRegs [Reg.PACE_OPSEL r] s (s.setTarget r t) := by
  have h := s.put_sameRegs (Reg.PACE_OPSEL r) Fld.PACE_OPSEL.target_op t
  rw [State.setTarget_eq]
  split
  · exact h
  · exact State.put_step h _ _ _ (by simp)

theorem State.setTarget_target_op (s : State) (r : Nat) {t : Nat} (h : t < 16) :
    (s.setTarget r t).get (Reg.PACE_OPSEL r) Fld.PACE_OPSEL.target_op = t := by
  have hp : (s.put (Reg.PACE_OPSEL r) Fld.PACE_OPSEL.target_op t).get (Reg.PACE_OPSEL r) Fld.PACE_OPSEL.target_op = t :=
    (State.get_put_same _ _ _ _ (by decide)).trans (Nat.mod_eq_of_lt h)
  rw [State.setTarget_eq]
  split
  · exact hp
  · exact (State.get_put_other _ _ _ _ _ (by decide)).trans hp

theorem State.setTarget_busy (s : State) (r t : Nat) :
    (s.setTarget r t).get (Reg.PACE_OPSEL r) Fld.PACE_OPSEL.busy =
      if t = s.get (Reg.PACE_OPSEL r) Fld.PACE_OPSEL.current_op then s.get (Reg.PACE_OPSEL r) Fld.PACE_OPSEL.busy else 1 := by
  rw [State.setTarget_eq]
  split
  · exact State.get_put_other _ _ _ _ _ (by decide)
  · exact State.get_put_same _ _ _ _ (by decide)

/-- A request leaves the fields of PACE_OPSEL_r but target_op and busy. -/
theorem State.setTarget_get (s : State) (r t : Nat) (f : BitField) (h4 : 4 ≤ f.lo) (h : 17 ≤ f.lo ∨ f.lo + f.width ≤ 16) :
    (s.setTarget r t).get (Reg.PACE_OPSEL r) f = s.get (Reg.PACE_OPSEL r) f := by
  have hp : (s.put (Reg.PACE_OPSEL r) Fld.PACE_OPSEL.target_op t).get (Reg.PACE_OPSEL r) f = s.get (Reg.PACE_OPSEL r) f :=
    State.get_put_other _ _ _ _ _ (.inl h4)
  rw [State.setTarget_eq]
  split
  · exact hp
  · exact (State.get_put_other _ _ Fld.PACE_OPSEL.busy f _ h).trans hp

/-! ### The obligation on target_op -/

theorem targetOpWrite_taken {r : Fin 16} {v : Word} {s : State} (h : Fld.PACE_OPSEL.target_op.get v ≤ s.ceil) :
    Gives (.targetOpWrite r v) s fun t =>
      let a := Reg.PACE_OPSEL r
      let new := Fld.PACE_OPSEL.target_op.get v
      t.get a Fld.PACE_OPSEL.target_op = new ∧
      t.get a Fld.PACE_OPSEL.busy = (if new = s.get a Fld.PACE_OPSEL.current_op then s.get a Fld.PACE_OPSEL.busy else 1) ∧
      t.get a Fld.PACE_OPSEL.settle_fail = (s.clearFail r v).get a Fld.PACE_OPSEL.settle_fail ∧
      t.get a Fld.PACE_OPSEL.current_op = s.get a Fld.PACE_OPSEL.current_op ∧
      t.get a Fld.PACE_OPSEL.retune_count = s.get a Fld.PACE_OPSEL.retune_count ∧
      t.get a Fld.PACE_OPSEL.auto_down = s.get a Fld.PACE_OPSEL.auto_down ∧ Only [.regs] s t ∧ SameRegs [a] s t := by
  have hx : execTargetOpWrite r v s = .next (s.writeOpsel r v) := rfl
  rw [State.writeOpsel_eq, if_pos h] at hx
  have hc := s.clearFail_get r v
  refine Gives.intro hx ⟨State.setTarget_target_op _ _ (BitField.get_lt _ _), ?_, State.setTarget_get _ _ _ _ (by decide) (by decide),
    ?_, ?_, ?_, ?_, ?_⟩
  · rw [State.setTarget_busy, State.get_setMark, State.get_setMark, hc _ (by decide), hc _ (by decide)]
  · exact (State.setTarget_get _ _ _ _ (by decide) (by decide)).trans (hc _ (by decide))
  · exact (State.setTarget_get _ _ _ _ (by decide) (by decide)).trans (hc _ (by decide))
  · exact (State.setTarget_get _ _ _ _ (by decide) (by decide)).trans (hc _ (by decide))
  · exact (((s.clearFail_changes r v).step (State.setMark_changes _ _ _) rfl).step (State.setTarget_changes _ _ _) rfl).only
  · exact ((s.clearFail_sameRegs r v).trans (SameRegs.ofRegs rfl)).trans (State.setTarget_sameRegs _ _ _)

theorem targetOpWrite_discarded {r : Fin 16} {v : Word} {s : State} (h : s.ceil < Fld.PACE_OPSEL.target_op.get v) :
    Gives (.targetOpWrite r v) s fun t =>
      let a := Reg.PACE_OPSEL r
      t.get a Fld.PACE_OPSEL.target_op = s.get a Fld.PACE_OPSEL.target_op ∧
      t.get a Fld.PACE_OPSEL.busy = s.get a Fld.PACE_OPSEL.busy ∧
      t.get a Fld.PACE_OPSEL.settle_fail = (s.clearFail r v).get a Fld.PACE_OPSEL.settle_fail ∧
      t.get a Fld.PACE_OPSEL.current_op = s.get a Fld.PACE_OPSEL.current_op ∧ SameRegsButErr [a] s t := by
  have hx : execTargetOpWrite r v s = .next (s.writeOpsel r v) := rfl
  rw [State.writeOpsel_eq, if_neg (by omega)] at hx
  have hl := fun f => (s.clearFail r v).logErr_get { code := 0x3101, aux := r } f (errReg_PACE_OPSEL r)
  have hc := fun f hf => (hl f).trans (s.clearFail_get r v f hf)
  exact Gives.intro hx ⟨hc _ (by decide), hc _ (by decide), hl _, hc _ (by decide),
    (s.clearFail_sameRegs r v).toErr.trans ((State.logErr_regs _ _).widen (by simp))⟩

/-- Settles O8: settle_fail is cleared first, and what the point asked for does leaves it alone. -/
theorem targetOpWrite : Obligations.TargetOpWrite := by
  unfold Obligations.TargetOpWrite
  intro r v s
  dsimp only
  rw [← State.clearFail_settle_fail]
  exact ⟨targetOpWrite_taken, targetOpWrite_discarded⟩

end Sys2Proof.Machine
end

section
/-! SUPPORT. Retune stops (R74 to R78) and late items (R348, R349), with their obligations: what enters a stop, and what an arrival leaves
of the hold requests. -/

namespace Sys2Proof.Machine

/-! ### Hold requests -/

theorem State.holdOn_holds (s : State) (h : HoldReq) :
    (s.holdOn h).die.holds = if s.die.holds.contains h then s.die.holds else s.die.holds ++ [h] := by
  unfold State.holdOn
  split
  · rfl
  · extract_lets first counted skip u
    have hu : u.die = s.die := (Changes.ite (Changes.refl _ _) (s.countCause_changes _)).die rfl
    exact congrArg (·.holds ++ [h]) hu

theorem State.mem_holdOn (s : State) (h k : HoldReq) : k ∈ (s.holdOn h).die.holds ↔ k ∈ s.die.holds ∨ k = h := by
  rw [State.holdOn_holds]
  split
  · next hc =>
    have hm : h ∈ s.die.holds := by simpa using hc
    exact ⟨.inl, fun hk => hk.elim id fun e => e ▸ hm⟩
  · simp

/-- A request of a retune is counted where its stop begins, not where it is raised (R78). -/
theorem State.holdOn_retuneReq_regs (s : State) (r : Fin 16) : (s.holdOn (retuneReq r)).regs = s.regs := by
  unfold State.holdOn
  split
  · rfl
  · extract_lets first counted skip u
    show u.regs = s.regs
    simp only [u]
    split <;> rfl

/-! ### The stop -/

/-- Reach `r` as it enters a stop (R76). -/
def State.stopReach (s : State) (r : Fin 16) : Reach :=
  { s.reach r with
    retune := .moving, stopAt := s.now, vaneAsked := false
    oldOp := s.get (Reg.PACE_OPSEL r) Fld.PACE_OPSEL.current_op
    newOp := s.get (Reg.PACE_OPSEL r) Fld.PACE_OPSEL.target_op }

theorem State.enterStop_eq {s : State} (h : s.idle.state = 0) (r : Fin 16) :
    s.enterStop r = (s.setReach r (s.stopReach r)).holdOn (retuneReq r) := by
  unfold State.enterStop
  exact if_pos h

theorem State.enterStop_reach {s : State} (h : s.idle.state = 0) (r q : Fin 16) :
    (s.enterStop r).reach q = if q = r then s.stopReach r else s.reach q := by
  rw [State.enterStop_eq h, State.reach_congr ((State.holdOn_changes _ _).reaches rfl)]
  split
  · next hq => rw [hq, State.reach_setReach_same]
  · next hq => exact State.reach_setReach_ne _ _ (by omega)

/-- What a reach that has not entered yet would enter with is the same after another has. -/
theorem State.enterStop_kept {s : State} (h : s.idle.state = 0) (r : Fin 16) :
    (s.enterStop r).idle.state = 0 ∧ (s.enterStop r).now = s.now ∧ (s.enterStop r).regs = s.regs := by
  have hc := (s.setReach r (s.stopReach r)).holdOn_changes (retuneReq r)
  rw [State.enterStop_eq h]
  refine ⟨?_, hc.now rfl, State.holdOn_retuneReq_regs _ _⟩
  rw [hc.idle rfl]
  exact h

theorem State.stopReach_enterStop {s : State} (h : s.idle.state = 0) {r q : Fin 16} (hq : q ≠ r) :
    (s.enterStop r).stopReach q = s.stopReach q := by
  obtain ⟨-, hn, hr⟩ := State.enterStop_kept h r
  simp only [State.stopReach, hn, State.get_congr hr, State.enterStop_reach h, if_neg hq]

theorem State.enterStop_holds {s : State} (h : s.idle.state = 0) (r : Fin 16) (k : HoldReq) :
    k ∈ (s.enterStop r).die.holds ↔ k ∈ s.die.holds ∨ k = retuneReq r := by
  rw [State.enterStop_eq h]
  exact State.mem_holdOn _ _ _

/-- Several reaches enter one stop: each as it stood before, under a request of its own, and no register shows it. -/
theorem State.enterStops {l : List (Fin 16)} (hl : l.Nodup) {s : State} (h : s.idle.state = 0) :
    (∀ q : Fin 16, (l.foldl State.enterStop s).reach q = if q ∈ l then s.stopReach q else s.reach q) ∧
      (∀ k, k ∈ (l.foldl State.enterStop s).die.holds ↔ k ∈ s.die.holds ∨ ∃ q ∈ l, k = retuneReq q) ∧
      (l.foldl State.enterStop s).regs = s.regs := by
  induction l generalizing s with
  | nil => simp
  | cons r l ih =>
    obtain ⟨hr, hl⟩ := List.nodup_cons.mp hl
    obtain ⟨hi, -, hregs⟩ := State.enterStop_kept h r
    obtain ⟨h1, h2, h3⟩ := ih hl hi
    refine ⟨fun q => ?_, fun k => ?_, h3.trans hregs⟩
    · rw [List.foldl_cons, h1, State.enterStop_reach h]
      by_cases hq : q = r
      · simp [hq, hr]
      · simp [hq, State.stopReach_enterStop h hq]
    · rw [List.foldl_cons, h2, State.enterStop_holds h, List.exists_mem_cons_iff, or_assoc]

theorem State.mem_retuneWanted (s : State) (r : Fin 16) :
    r ∈ s.retuneWanted ↔ s.get (Reg.PACE_OPSEL r) Fld.PACE_OPSEL.busy = 1 ∧ (s.reach r).retune = .none := by
  simp [State.retuneWanted]

theorem State.retuneWanted_nodup (s : State) : s.retuneWanted.Nodup := (List.nodup_finRange 16).filter _

/-- A stop is counted once, and every pending request enters it (R76, R78). -/
theorem State.retuneStop_eq {s : State} (hw : s.retuneWanted ≠ []) (hs : ∀ r : Fin 16, (s.reach r).inStop = false)
    (hi : s.idle.state = 0) :
    s.retuneStop = s.retuneWanted.foldl State.enterStop (s.addSat Reg.PACE_HOLD_CNT Fld.PACE_HOLD_CNT.retune_holds 1) := by
  unfold State.retuneStop
  simp [hw, hs, hi]

/-- A counting field that saturates, but where a write of the beat has set it (R17). -/
theorem State.get_addSat_same (s : State) (a : Nat) (f : BitField) (n : Nat) (h : f.lo + f.width ≤ 64) :
    (s.addSat a f n).get a f = if s.written a f then s.get a f else min (s.get a f + n) (2 ^ f.width - 1) := by
  unfold State.addSat State.hwPut
  split
  · rfl
  · have hp : 0 < 2 ^ f.width := Nat.two_pow_pos _
    exact (State.get_put_same _ _ _ _ h).trans (Nat.mod_eq_of_lt (by omega))

theorem State.addSat_sameRegs (s : State) (a : Nat) (f : BitField) (n : Nat) : SameRegs [a] s (s.addSat a f n) :=
  State.hwPut_step (SameRegs.refl _ _) _ _ _ (by simp)

/-- Settles O12: the requests are served as they stood before the stop was counted, which is in another register. -/
theorem retuneStop : Obligations.RetuneStop := by
  unfold Obligations.RetuneStop
  intro s hw hs hi
  obtain ⟨u, hu⟩ : ∃ u, u = s.addSat Reg.PACE_HOLD_CNT Fld.PACE_HOLD_CNT.retune_holds 1 := ⟨_, rfl⟩
  have hx : execRetuneStop s = .next (s.retuneWanted.foldl State.enterStop u) := by
    rw [execRetuneStop, State.retuneStop_eq hw hs hi, hu]
  have hreg : SameRegs [Reg.PACE_HOLD_CNT] s u := hu ▸ State.addSat_sameRegs _ _ _ _
  have hsel : ∀ (r : Fin 16) (f : BitField), u.get (Reg.PACE_OPSEL r) f = s.get (Reg.PACE_OPSEL r) f := fun r f => by
    have ha : Reg.PACE_OPSEL r ≠ Reg.PACE_HOLD_CNT := by revert r; decide
    rw [State.get, hreg _ (by simpa using ha), State.get]
  have hreach : ∀ r, u.reach r = s.reach r := State.reach_congr (by rw [hu, State.addSat_reaches])
  obtain ⟨h1, h2, h3⟩ := State.enterStops s.retuneWanted_nodup (s := u) (by rw [hu, State.addSat_idle, hi])
  refine Gives.intro hx ⟨fun r => ⟨fun hr => ?_, fun hr => ?_⟩, ?_, hreg.trans (SameRegs.ofRegs h3)⟩
  · have hm := (s.mem_retuneWanted r).mpr hr
    rw [h1 r, if_pos hm]
    exact ⟨rfl, by rw [State.stopReach, hu, State.addSat_now], hsel r _, hsel r _, (h2 _).mpr (.inr ⟨r, hm, rfl⟩)⟩
  · rw [h1 r, if_neg (mt (s.mem_retuneWanted r).mp hr), hreach]
  · rw [State.get_congr h3, hu, State.get_addSat_same _ _ _ _ (by decide)]
    rfl

/-! ### Late items -/

/-- What the units of a core do with the items that have arrived (R348, R349). -/
def State.takeLate (s : State) (n : Nat) (u : UnitId) : State :=
  match u with
  | .feeder => match s.feedRunning n with
    | some (r, o) => (List.range (o.parts - r.done + 1)).foldl (fun (t : State) _ => t.feedStep n) s
    | none => s
  | .sluice sl => match s.redRunning n sl with
    | some (r, o) => (List.range ((o.total - r.done) / 1024 + 4)).foldl (fun (t : State) _ => t.redStep n sl) s
    | none => s.sluBeat n sl
  | _ => s

theorem execLateItemArrival_waiting {core : Fin 256} {u : UnitId} {s : State} (h : s.die.holds.any (unitHold core u) = true)
    (hr : ((s.core core).running u).isSome = true) :
    execLateItemArrival core u s = .next
      (if ((s.takeLate core u).lateKinds core u).isNone then (s.takeLate core u).holdOff (unitHold core u) else s.takeLate core u) := by
  obtain ⟨r, hr⟩ := Option.isSome_iff_exists.mp hr
  unfold execLateItemArrival
  simp only [h, hr, Bool.not_true, Bool.false_eq_true, if_false]
  rfl

/-- No unit that takes its items up raises or withdraws a hold request by it. -/
theorem State.takeLate_die (s : State) (n : Nat) (u : UnitId) : (s.takeLate n u).die = s.die := by
  unfold State.takeLate
  split
  · split
    · exact (Changes.foldl (Changes.refl _ _) fun t _ => t.feedStep_changes n).die rfl
    · rfl
  · split
    · exact (Changes.foldl (Changes.refl _ _) fun t _ => t.redStep_changes n _).die rfl
    · exact (State.sluBeat_changes _ _ _).die rfl
  · rfl

/-- Whether an item is missing does not rest on the hold requests. -/
theorem State.lateKinds_holdOff (s : State) (p : HoldReq → Bool) (n : Nat) (u : UnitId) :
    (s.holdOff p).lateKinds n u = s.lateKinds n u := by
  cases u <;> rfl

/-- Settles O10: what is left of the requests after the unit has taken its items up. -/
theorem lateItemArrival : Obligations.LateItemArrival := by
  unfold Obligations.LateItemArrival
  intro core u s h hr
  have hd := s.takeLate_die core u
  refine Gives.intro (execLateItemArrival_waiting h hr) ?_
  by_cases hn : ((s.takeLate core u).lateKinds core u).isNone
  · rw [if_pos hn, State.lateKinds_holdOff, if_pos hn, State.holdOff, hd]
  · rw [if_neg hn, if_neg hn, hd]

end Sys2Proof.Machine
end

section
/-! SUPPORT. What the logging of an error leaves of the marks of a beat (R16, R17): whether a write has set a field of a register that the
log does not write. -/

namespace Sys2Proof.Machine

/-- `t` stands as `s` in the marks of every register but those that the logging of an error may write, and in the idle state. -/
structure SameMarksButErr (s t : State) : Prop where
  marks : ∀ a, errReg a = false → smFind t.marks a = smFind s.marks a
  idle  : t.idle.state = s.idle.state

theorem SameMarksButErr.refl (s : State) : SameMarksButErr s s := ⟨fun _ _ => rfl, rfl⟩

theorem SameMarksButErr.trans {s t u : State} (h : SameMarksButErr s t) (k : SameMarksButErr t u) : SameMarksButErr s u :=
  ⟨fun a ha => (k.marks a ha).trans (h.marks a ha), k.idle.trans h.idle⟩

theorem SameMarksButErr.of {s t : State} (h : t.marks = s.marks) (k : t.idle = s.idle) : SameMarksButErr s t :=
  ⟨fun _ _ => by rw [h], by rw [k]⟩

theorem State.hwSet_sameMarks (s : State) (a : Nat) (f : BitField) (v : Nat) (ha : errReg a = true) : SameMarksButErr s (s.hwSet a f v) :=
  ⟨fun b hb => smFind_put_ne _ _ (by rintro rfl; simp [ha] at hb), rfl⟩

theorem State.wakeOn_sameMarks (s : State) (c : Nat) : SameMarksButErr s (s.wakeOn c) := by
  unfold State.wakeOn State.atWork
  dsimp only
  repeat' split
  all_goals exact ⟨fun _ _ => rfl, rfl⟩

theorem State.capture_sameMarks (s : State) (src code b : Nat) : SameMarksButErr s (s.capture src code b) := by
  unfold State.capture
  split
  · exact SameMarksButErr.refl s
  · split
    · exact .of (by simp) (by simp)
    · split <;> exact .of rfl rfl

theorem State.trigger_sameMarks (s : State) (src code b : Nat) : SameMarksButErr s (s.trigger src code b) := by
  unfold State.trigger State.queueTrigger
  split
  · extract_lets t
    refine SameMarksButErr.trans (t := t) ?_ (.of rfl rfl)
    simp only [t]
    split
    · exact s.wakeOn_sameMarks 6
    · exact SameMarksButErr.refl s
  · exact s.capture_sameMarks _ _ _

theorem State.writeBurst_marks (s : State) (i : Nat) (l : List ErrRec) : (s.writeBurst i l).marks = s.marks := by
  induction l generalizing s i with
  | nil => rfl
  | cons e l ih => exact ih _ _

theorem State.holdEvent_sameMarks (s : State) (c : Nat) (e : ErrRec) : SameMarksButErr s (s.holdEvent c e) := by
  unfold State.holdEvent
  split
  · exact .of (by simp) (by simp)
  · exact .of rfl rfl

theorem State.writeErr_sameMarks (s : State) (e : Err) : SameMarksButErr s (s.writeErr e) := by
  unfold State.writeErr
  extract_lets r cls burst head d s1 s2 s3 s4 s5 s6
  have h4 : SameMarksButErr s s4 := .of
    (by simp only [s4, s3, s2, State.addTo_marks, State.put_marks, State.writeBurst_marks]; rfl)
    (by simp only [s4, s3, s2, State.addTo_idle, State.put_idle, (State.writeBurst_changes s1 _ _).idle]; rfl)
  have h5 : SameMarksButErr s s5 := h4.trans (s4.hwSet_sameMarks _ _ _ (by decide))
  have h6 : SameMarksButErr s s6 := by
    simp only [s6]; split
    · exact h5.trans (s5.holdEvent_sameMarks _ _)
    · exact h5
  split
  · exact h6.trans (.of rfl rfl)
  · exact h6

theorem State.logLocal_sameMarks (s : State) (e : Err) : SameMarksButErr s (s.logLocal e) := by
  unfold State.logLocal
  refine SameMarksButErr.trans ?_ (State.trigger_sameMarks _ _ _ _)
  split
  · exact .of (by simp) (by simp)
  · exact s.writeErr_sameMarks e

theorem State.takeWidth_sameMarks (s : State) (node : Nat) (p : MeshPort) (d : Nat) : SameMarksButErr s (s.takeWidth node p d).1 := by
  unfold State.takeWidth
  extract_lets t
  split <;> exact .of rfl rfl

theorem State.launch_sameMarks (s : State) (node : Nat) (p : MeshPort) (src d : Nat) (b : Barge) :
    SameMarksButErr s (s.launch node p src d b) :=
  (s.wakeOn_sameMarks 2).trans (((s.wakeOn 2).takeWidth_sameMarks node p d).trans (.of rfl rfl))

theorem State.sendFwd_sameMarks (s : State) (c : Nat) (b : Barge) : SameMarksButErr s (s.sendFwd c b) := by
  unfold State.sendFwd
  split
  · exact s.launch_sameMarks _ _ _ _ _
  · exact s.logLocal_sameMarks _

theorem State.forwardErr_sameMarks (s : State) (c : Nat) (r : ErrRec) : SameMarksButErr s (s.forwardErr c r) := by
  unfold State.forwardErr
  generalize [r.w0, r.w1, r.w2, r.w3].zipIdx = l
  induction l generalizing s with
  | nil => exact SameMarksButErr.refl s
  | cons w l ih => exact (s.sendFwd_sameMarks _ _).trans (ih _)

theorem State.logErr_sameMarks (s : State) (e : Err) : SameMarksButErr s (s.logErr e) := by
  unfold State.logErr
  extract_lets t lchip
  split
  · exact (s.logLocal_sameMarks e).trans (t.forwardErr_sameMarks _ _)
  · exact s.logLocal_sameMarks e

/-! ### The mark of a register -/

/-- What the mark of a control block's register is judged by: the die beat and the pacer of reach 0 (R16, R17). -/
theorem State.mark_congr {s t : State} {a : Nat} (ha : 0x400000000 ≤ a) (hm : smFind t.marks a = smFind s.marks a)
    (hi : t.idle.state = s.idle.state) (hn : t.now = s.now) (hd : t.die.holds = s.die.holds)
    (hb : t.reg Reg.PACE_BEAT = s.reg Reg.PACE_BEAT) (hp : t.period 0 = s.period 0) (hc : (t.reach 0).complete = (s.reach 0).complete)
    (hr : (t.reach 0).beat = (s.reach 0).beat) (ht : (t.reach 0).tokenAt = (s.reach 0).tokenAt) : t.mark a = s.mark a := by
  have hcore : decide (a < 0x400000000) = false := by simpa using ha
  simp only [State.mark, State.get, hcore, Bool.false_eq_true, if_false, hm, hi, hn, hd, hb, hp, hr, ht, hc]

theorem errReg_PACE_OP_TABLE {k : Nat} (hk : k < 16) : errReg (Reg.PACE_OP_TABLE k) = false :=
  (by decide : ∀ i : Fin 16, errReg (Reg.PACE_OP_TABLE i) = false) ⟨k, hk⟩

/-- The logging of an error leaves the period of every reach. -/
theorem State.logErr_period (s : State) (e : Err) (r : Fin 16) : (s.logErr e).period r = s.period r := by
  rw [State.period, s.logErr_get e _ (errReg_PACE_OPSEL r), s.logErr_get e _ (errReg_PACE_OP_TABLE (BitField.get_lt _ _)), State.period]

theorem State.logErr_mark (s : State) (e : Err) {a : Nat} (ha : errReg a = false) (hb : 0x400000000 ≤ a) :
    (s.logErr e).mark a = s.mark a := by
  have hm := s.logErr_sameMarks e
  have hc := s.logErr_changes e
  have hr := State.reach_congr (hc.reaches rfl) 0
  exact State.mark_congr hb (hm.marks a ha) hm.idle (hc.now rfl) (congrArg _ (hc.die rfl)) (s.logErr_reg e (by decide))
    (s.logErr_period e 0) (congrArg _ hr) (congrArg _ hr) (congrArg _ hr)

/-- What a reach holds beyond its beat is not what a mark is judged by. -/
theorem State.setReach_mark (s : State) {r : Nat} {x : Reach} {a : Nat} (ha : 0x400000000 ≤ a) (hb : x.beat = (s.reach r).beat)
    (ht : x.tokenAt = (s.reach r).tokenAt) (hc : x.complete = (s.reach r).complete) : (s.setReach r x).mark a = s.mark a := by
  by_cases hr : r = 0
  · subst hr
    have hx := s.reach_setReach_same 0 x
    exact State.mark_congr ha rfl rfl rfl rfl rfl rfl (by rw [hx, hc]) (by rw [hx, hb]) (by rw [hx, ht])
  · have hx := s.reach_setReach_ne x (Ne.symm hr)
    exact State.mark_congr ha rfl rfl rfl rfl rfl rfl (congrArg _ hx) (congrArg _ hx) (congrArg _ hx)

theorem State.written_congr {s t : State} {a : Nat} (h : t.mark a = s.mark a) (f : BitField) : t.written a f = s.written a f := by
  simp only [State.written, h]

end Sys2Proof.Machine
end

section
/-! SUPPORT. The vanes (R68 to R71): the end of a window and a critical reach, with the obligation on both. -/

namespace Sys2Proof.Machine

/-! ### The margins that a window shows -/

theorem vaneField_apart {v w : Nat} (h : v ≠ w) :
    (vaneField v).lo + (vaneField v).width ≤ (vaneField w).lo ∨ (vaneField w).lo + (vaneField w).width ≤ (vaneField v).lo := by
  simp only [vaneField]
  omega

theorem State.put_vanes_get (s : State) (a : Nat) (low : Nat → Nat) {l : List Nat} (hl : ∀ v ∈ l, v < 8) (hn : l.Nodup) (w : Nat) :
    (l.foldl (fun t v => t.put a (vaneField v) (low v)) s).get a (vaneField w) =
      if w ∈ l then low w % 256 else s.get a (vaneField w) := by
  induction l generalizing s with
  | nil => rfl
  | cons v l ih =>
    obtain ⟨hv, hn⟩ := List.nodup_cons.mp hn
    rw [List.foldl_cons, ih _ (fun u hu => hl u (List.mem_cons_of_mem _ hu)) hn]
    by_cases hw : w = v
    · subst hw
      have h8 := hl w List.mem_cons_self
      simp only [hv, if_false, List.mem_cons_self, if_true]
      exact State.get_put_same _ _ _ _ (by simp only [vaneField]; omega)
    · simp only [List.mem_cons, hw, false_or]
      split
      · rfl
      · exact State.get_put_other _ _ _ _ _ (vaneField_apart (Ne.symm hw))

/-- VANE_MARGIN_r takes the lowest codes of a window (R68). -/
def State.showMargins (s : State) (r : Nat) : State :=
  (List.range 8).foldl (fun t v => t.put (Reg.VANE_MARGIN r) (vaneField v) ((s.reach r).winLow.getD v 255)) s

theorem State.showMargins_get (s : State) (r : Nat) {v : Nat} (h : v < 8) :
    (s.showMargins r).get (Reg.VANE_MARGIN r) (vaneField v) = (s.reach r).winLow.getD v 255 % 256 :=
  (s.put_vanes_get _ _ (by simp) List.nodup_range v).trans (if_pos (List.mem_range.mpr h))

theorem State.showMargins_sameRegs (s : State) (r : Nat) : SameRegs [Reg.VANE_MARGIN r] s (s.showMargins r) := by
  unfold State.showMargins
  generalize s.reach r = x
  generalize List.range 8 = l
  induction l generalizing s with
  | nil => exact SameRegs.refl _ _
  | cons v l ih => exact (s.put_sameRegs _ _ _).trans (ih _)

theorem State.showMargins_changes (s : State) (r : Nat) : Changes [.regs] s (s.showMargins r) :=
  Changes.foldl (Changes.refl _ _) fun t _ => t.put_changes _ _ _

/-! ### The reach after a window -/

/-- Vane `v` of a reach in warning has reported a windowed code above `arm` since, with the window that ends (R69). -/
def Reach.rearmedAt (x : Reach) (arm v : Nat) : Prop := v ∈ x.rearmed ∨ arm < x.winLow.getD v 255

/-- The vanes of a reach in warning that have, at the end of a window. -/
def Reach.rearmedNow (x : Reach) (arm : Nat) : List Nat :=
  if x.warned then
    (List.range 8).filter fun v =>
      x.rearmed.contains v || ((List.range 8).filter fun v => decide (arm < x.winLow.getD v 255)).contains v
  else []

/-- The reach was in warning and some vane has not. -/
def Reach.staysWarned (x : Reach) (arm : Nat) : Bool := x.warned && decide ((x.rearmedNow arm).length < 8)

theorem Reach.mem_rearmedNow {x : Reach} (h : x.warned = true) (arm : Nat) {v : Nat} (hv : v < 8) :
    v ∈ x.rearmedNow arm ↔ x.rearmedAt arm v := by
  simp [Reach.rearmedNow, Reach.rearmedAt, h, hv]

theorem Reach.staysWarned_iff (x : Reach) (arm : Nat) :
    x.staysWarned arm = true ↔ x.warned = true ∧ ∃ v < 8, ¬x.rearmedAt arm v := by
  have h8 : (List.range 8).length = 8 := rfl
  rw [Reach.staysWarned, Bool.and_eq_true, decide_eq_true_eq]
  refine and_congr_right fun hw => ?_
  conv_lhs => rw [← h8, Reach.rearmedNow, if_pos hw, List.length_filter_lt_length_iff_exists]
  refine exists_congr fun v => ?_
  rw [List.mem_range]
  refine and_congr_right fun hv => ?_
  simp [Reach.rearmedAt, hv]

/-- The reach at the start of the next window. -/
def Reach.newWindow (x : Reach) (arm now : Nat) : Reach :=
  { x with
    winLow := List.replicate 8 255, winBeats := 0, warned := x.staysWarned arm, rearmed := x.rearmedNow arm
    goodSince := if ((List.range 8).filter fun v => decide (arm < x.winLow.getD v 255)).length = 8 then
      (if x.goodSince = 0 then now else x.goodSince) else 0 }

/-- The lowest-numbered vane whose windowed code is at or below warn (R69). -/
def Reach.lowVane (x : Reach) (warn : Nat) : Option Nat := (List.range 8).find? fun v => decide (x.winLow.getD v 255 ≤ warn)

theorem Reach.lowVane_isSome (x : Reach) (warn : Nat) : (x.lowVane warn).isSome = true ↔ ∃ v < 8, x.winLow.getD v 255 ≤ warn := by
  simp [Reach.lowVane, List.find?_isSome]

/-- The code above which a vane re-arms the warning (R69). -/
def State.armCode (s : State) : Nat := s.get Reg.VANE_THRESH Fld.VANE_THRESH.warn + s.get Reg.VANE_THRESH Fld.VANE_THRESH.hyst

/-- Reach `r` at the start of the window after the one that ends. -/
def State.nextWindow (s : State) (r : Nat) : Reach := (s.reach r).newWindow s.armCode (s.showMargins r).now

/-- Reach `r` at the start of the next window, and the registers that show the last. -/
def State.closeWindow (s : State) (r : Nat) : State := (s.showMargins r).setReach r (s.nextWindow r)

/-- Reach `r` enters warning by its vane `v` (R69). -/
def State.enterWarning (s : State) (r v : Nat) : State :=
  ((s.showMargins r).setReach r { s.nextWindow r with warned := true, rearmed := [] }).logErr
    { code := 0x4101, aux := r, info := v * 256 + (s.reach r).winLow.getD v 255 }

/-- A vane at or below warn brings a reach into warning that does not stay in it (R69). -/
theorem State.windowEnd_eq (s : State) (r : Nat) :
    s.windowEnd r = ((s.reach r).lowVane (s.get Reg.VANE_THRESH Fld.VANE_THRESH.warn)).elim (s.closeWindow r) fun v =>
      if (s.reach r).staysWarned s.armCode then s.closeWindow r else s.enterWarning r v := by
  have h : s.windowEnd r = match (s.reach r).lowVane (s.get Reg.VANE_THRESH Fld.VANE_THRESH.warn) with
    | some v => if (s.reach r).staysWarned s.armCode then s.closeWindow r else s.enterWarning r v
    | none => s.closeWindow r := rfl
  rw [h]
  split <;> next hv => rw [hv]; rfl

theorem State.windowEnd_quiet {s : State} {r : Nat} (h : (s.reach r).staysWarned s.armCode = true ∨
    ¬∃ v < 8, (s.reach r).winLow.getD v 255 ≤ s.get Reg.VANE_THRESH Fld.VANE_THRESH.warn) : s.windowEnd r = s.closeWindow r := by
  rw [← Reach.lowVane_isSome, Bool.not_eq_true, Option.isSome_eq_false_iff, Option.isNone_iff_eq_none] at h
  rw [State.windowEnd_eq]
  rcases h with h | h
  · simp only [h, if_true]
    cases (s.reach r).lowVane _ <;> rfl
  · rw [h, Option.elim_none]

theorem State.windowEnd_warns {s : State} {r : Nat} (h : (s.reach r).staysWarned s.armCode = false)
    (hv : ∃ v < 8, (s.reach r).winLow.getD v 255 ≤ s.get Reg.VANE_THRESH Fld.VANE_THRESH.warn) :
    ∃ v, s.windowEnd r = s.enterWarning r v := by
  rw [← Reach.lowVane_isSome, Option.isSome_iff_exists] at hv
  obtain ⟨v, hv⟩ := hv
  exact ⟨v, by rw [State.windowEnd_eq, hv, Option.elim_some, h, if_neg Bool.false_ne_true]⟩

/-! ### What a window shows -/

/-- What every end of a window leaves: the margins shown, a new window begun, and all else but the log. -/
structure WindowClosed (r : Nat) (s t : State) : Prop where
  margins   : ∀ v < 8, t.get (Reg.VANE_MARGIN r) (vaneField v) = (s.reach r).winLow.getD v 255 % 256
  winBeats  : (t.reach r).winBeats = 0
  winLow    : (t.reach r).winLow = List.replicate 8 255
  others    : ∀ q, q ≠ r → t.reach q = s.reach q
  registers : SameRegsButErr [Reg.VANE_MARGIN r] s t

theorem State.setReach_windowClosed (s : State) (r : Nat) {x : Reach} (hb : x.winBeats = 0) (hl : x.winLow = List.replicate 8 255) :
    WindowClosed r s ((s.showMargins r).setReach r x) where
  margins _ hv := s.showMargins_get r hv
  winBeats := by rw [State.reach_setReach_same, hb]
  winLow := by rw [State.reach_setReach_same, hl]
  others q hq := by rw [State.reach_setReach_ne _ _ hq, State.reach_congr ((s.showMargins_changes r).reaches rfl)]
  registers := ((s.showMargins_sameRegs r).trans (SameRegs.ofRegs rfl)).toErr

theorem State.logErr_reach (s : State) (e : Err) (r : Nat) : (s.logErr e).reach r = s.reach r :=
  State.reach_congr ((s.logErr_changes e).reaches rfl) r

theorem WindowClosed.logErr {r : Fin 16} {s t : State} (h : WindowClosed r s t) (e : Err) : WindowClosed r s (t.logErr e) where
  margins v hv := by
    rw [t.logErr_get e _ (errReg_VANE_MARGIN r), h.margins v hv]
  winBeats := by rw [State.logErr_reach, h.winBeats]
  winLow := by rw [State.logErr_reach, h.winLow]
  others q hq := by rw [State.logErr_reach, h.others q hq]
  registers := h.registers.trans ((t.logErr_regs e).widen (by simp))

theorem State.windowEnd_closed (s : State) (r : Fin 16) : WindowClosed r s (s.windowEnd r) := by
  by_cases h : (s.reach r).staysWarned s.armCode = true ∨
      ¬∃ v < 8, (s.reach r).winLow.getD v 255 ≤ s.get Reg.VANE_THRESH Fld.VANE_THRESH.warn
  · rw [State.windowEnd_quiet h]
    exact s.setReach_windowClosed r rfl rfl
  · rw [not_or, Bool.not_eq_true, not_not] at h
    obtain ⟨v, hv⟩ := State.windowEnd_warns h.1 h.2
    rw [hv]
    exact (s.setReach_windowClosed r rfl rfl).logErr _

/-- A reach is in warning after a window where it stays so, or some windowed code is at or below warn. -/
theorem State.windowEnd_warned (s : State) (r : Nat) :
    ((s.windowEnd r).reach r).warned = true ↔ (s.reach r).staysWarned s.armCode = true ∨
      ∃ v < 8, (s.reach r).winLow.getD v 255 ≤ s.get Reg.VANE_THRESH Fld.VANE_THRESH.warn := by
  by_cases h : (s.reach r).staysWarned s.armCode = true ∨
      ¬∃ v < 8, (s.reach r).winLow.getD v 255 ≤ s.get Reg.VANE_THRESH Fld.VANE_THRESH.warn
  · rw [State.windowEnd_quiet h, State.closeWindow, State.reach_setReach_same]
    exact ⟨.inl, fun k => k.elim id fun k => h.resolve_right (not_not.mpr k)⟩
  · rw [not_or, Bool.not_eq_true, not_not] at h
    obtain ⟨v, hv⟩ := State.windowEnd_warns h.1 h.2
    rw [hv, State.enterWarning, State.logErr_reach, State.reach_setReach_same]
    exact ⟨fun _ => .inr h.2, fun _ => rfl⟩

/-- A reach that stays in warning logs nothing, and holds the vanes that have come back (R69). -/
theorem State.windowEnd_stays {s : State} {r : Nat} (h : (s.reach r).staysWarned s.armCode = true) :
    (∀ v < 8, v ∈ ((s.windowEnd r).reach r).rearmed ↔ (s.reach r).rearmedAt s.armCode v) ∧
      SameRegs [Reg.VANE_MARGIN r] s (s.windowEnd r) := by
  rw [State.windowEnd_quiet (.inl h), State.closeWindow, State.reach_setReach_same]
  have hw := (Reach.staysWarned_iff _ _).mp h
  exact ⟨fun v hv => Reach.mem_rearmedNow hw.1 _ hv, (s.showMargins_sameRegs r).trans (SameRegs.ofRegs rfl)⟩

theorem vaneWindowEnd_gives {r : Fin 16} {s : State} (hb : 4096 ≤ (s.reach r).winBeats) :
    Gives (.vaneWindowEnd r) s fun t =>
      WindowClosed r s t ∧ ((s.reach r).warned = false → ((t.reach r).warned = true ↔
        ∃ v < 8, (s.reach r).winLow.getD v 255 ≤ s.get Reg.VANE_THRESH Fld.VANE_THRESH.warn)) ∧
      ((s.reach r).warned = true →
        ((∃ v < 8, ¬(s.reach r).rearmedAt s.armCode v) → (t.reach r).warned = true ∧
          (∀ v < 8, v ∈ (t.reach r).rearmed ↔ (s.reach r).rearmedAt s.armCode v) ∧ SameRegs [Reg.VANE_MARGIN r] s t) ∧
        ((∀ v < 8, (s.reach r).rearmedAt s.armCode v) → ((t.reach r).warned = true ↔
          ∃ v < 8, (s.reach r).winLow.getD v 255 ≤ s.get Reg.VANE_THRESH Fld.VANE_THRESH.warn))) := by
  have hx : execVaneWindowEnd r s = .next (s.windowEnd r) := if_pos hb
  have hs := Reach.staysWarned_iff (s.reach r) s.armCode
  refine Gives.intro hx ⟨s.windowEnd_closed r, fun hw => ?_, fun hw => ⟨fun hv => ?_, fun hv => ?_⟩⟩
  · rw [State.windowEnd_warned, hs, hw]
    simp
  · have h := hs.mpr ⟨hw, hv⟩
    exact ⟨(s.windowEnd_warned r).mpr (.inl h), State.windowEnd_stays h⟩
  · rw [State.windowEnd_warned, hs, or_iff_right]
    rintro ⟨-, v, h8, hn⟩
    exact hn (hv v h8)

/-! ### A critical reach -/

/-- Reach `r` enters critical by its vane `v` (R70). -/
def State.enterCritical (s : State) (r v : Nat) : State :=
  (s.setReach r { s.reach r with critical := true }).logErr
    { code := 0x4102, aux := r, info := v * 256 + (s.reach r).lastCode.getD v 0 }

/-- A vane asks for the point below the one in force (R70, R71). -/
def State.vaneRequest (s : State) (r : Nat) : State :=
  ((s.setReach r { s.reach r with vaneAsked := true }).put (Reg.PACE_OPSEL r) Fld.PACE_OPSEL.auto_down 1).setTarget r
    (s.get (Reg.PACE_OPSEL r) Fld.PACE_OPSEL.current_op - 1)

theorem State.enterCritical_reg (s : State) (r v : Nat) {a : Nat} (ha : errReg a = false) : (s.enterCritical r v).reg a = s.reg a :=
  State.logErr_reg _ _ ha

theorem State.enterCritical_get (s : State) (r v : Nat) {a : Nat} (f : BitField) (ha : errReg a = false) :
    (s.enterCritical r v).get a f = s.get a f := State.logErr_get _ _ f ha

theorem State.enterCritical_reach (s : State) (r v q : Nat) :
    (s.enterCritical r v).reach q = (s.setReach r { s.reach r with critical := true }).reach q := State.logErr_reach _ _ _

theorem State.enterCritical_written (s : State) (r v : Nat) {a : Nat} (f : BitField) (ha : errReg a = false) (hb : 0x400000000 ≤ a) :
    (s.enterCritical r v).written a f = s.written a f := by
  have h : (s.setReach r { s.reach r with critical := true }).mark a = s.mark a := State.setReach_mark s hb rfl rfl rfl
  exact State.written_congr ((State.logErr_mark _ _ ha hb).trans h) f

theorem State.vaneCritical_enters {s : State} {r : Fin 16} (hv : ∃ v < 8, 4 ≤ (s.reach r).critRun.getD v 0)
    (hc : (s.reach r).critical = false) (hw : s.written (Reg.PACE_OPSEL r) Fld.PACE_OPSEL.target_op = false)
    (ha : ¬(s.get (Reg.PACE_OPSEL r) Fld.PACE_OPSEL.auto_down = 1 ∧ s.get (Reg.PACE_OPSEL r) Fld.PACE_OPSEL.busy = 1)) :
    ∃ v, s.vaneCritical r =
      if s.get Reg.VANE_THRESH Fld.VANE_THRESH.auto_down = 1 ∧ 0 < s.get (Reg.PACE_OPSEL r) Fld.PACE_OPSEL.current_op then
        (s.enterCritical r v).vaneRequest r
      else s.enterCritical r v := by
  obtain ⟨v, hf⟩ : ∃ v, (List.range 8).find? (fun v => decide (4 ≤ (s.reach r).critRun.getD v 0)) = some v := by
    rw [← Option.isSome_iff_exists, List.find?_isSome]
    simpa using hv
  refine ⟨v, ?_⟩
  have hn : ¬((s.reach r).critical = true ∨
      s.get (Reg.PACE_OPSEL r) Fld.PACE_OPSEL.auto_down = 1 ∧ s.get (Reg.PACE_OPSEL r) Fld.PACE_OPSEL.busy = 1) := by simp [hc, ha]
  have hb : 0x400000000 ≤ Reg.PACE_OPSEL r := by simp only [Reg.PACE_OPSEL, blockBase]; omega
  unfold State.vaneCritical State.vaneRequest
  simp only [hf, hn, if_false, ← State.enterCritical.eq_def, State.enterCritical_written _ _ _ _ (errReg_PACE_OPSEL r) hb, hw,
    Bool.false_eq_true, State.enterCritical_get _ _ _ _ (errReg_PACE_OPSEL r), State.enterCritical_get _ _ _ _ errReg_VANE_THRESH]

theorem State.vaneRequest_sameRegs (s : State) (r : Nat) : SameRegs [Reg.PACE_OPSEL r] s (s.vaneRequest r) :=
  (State.put_step (SameRegs.ofRegs rfl) _ _ _ (by simp)).trans (State.setTarget_sameRegs _ _ _)

/-- The state in which a vane's request sets target_op and busy has the fields of the state before but auto_down. -/
theorem State.vaneRequest_fields (s : State) (r : Nat) (hc : 0 < s.get (Reg.PACE_OPSEL r) Fld.PACE_OPSEL.current_op) :
    let a := Reg.PACE_OPSEL r
    let cur := s.get a Fld.PACE_OPSEL.current_op
    (s.vaneRequest r).get a Fld.PACE_OPSEL.target_op = cur - 1 ∧ (s.vaneRequest r).get a Fld.PACE_OPSEL.auto_down = 1 ∧
      (s.vaneRequest r).get a Fld.PACE_OPSEL.busy = 1 ∧ (s.vaneRequest r).get a Fld.PACE_OPSEL.current_op = cur := by
  intro a cur
  obtain ⟨u, hu⟩ : ∃ u, u = (s.setReach r { s.reach r with vaneAsked := true }).put a Fld.PACE_OPSEL.auto_down 1 := ⟨_, rfl⟩
  have hx : s.vaneRequest r = u.setTarget r (cur - 1) := by rw [hu, State.vaneRequest]
  have hcur : u.get a Fld.PACE_OPSEL.current_op = cur := by
    rw [hu, State.get_put_other _ _ _ _ _ (by decide)]
    exact State.get_congr rfl _ _
  have hlt : cur < 16 := BitField.get_lt _ _
  refine ⟨?_, ?_, ?_, ?_⟩
  · rw [hx, State.setTarget_target_op _ _ (Nat.lt_of_le_of_lt (Nat.sub_le _ _) hlt)]
  · rw [hx, State.setTarget_get _ _ _ _ (by decide) (by decide), hu]
    exact State.get_put_same _ _ _ _ (by decide)
  · rw [hx, State.setTarget_busy, if_neg (by rw [hcur]; exact Nat.ne_of_lt (Nat.sub_lt hc Nat.one_pos))]
  · rw [hx, State.setTarget_get _ _ _ _ (by decide) (by decide), hcur]

theorem State.vaneRequest_reach (s : State) (r q : Nat) :
    (s.vaneRequest r).reach q = if q = r then { s.reach r with vaneAsked := true } else s.reach q := by
  have h := (State.put_changes (s.setReach r { s.reach r with vaneAsked := true }) (Reg.PACE_OPSEL r) Fld.PACE_OPSEL.auto_down 1).step
    (State.setTarget_changes _ r (s.get (Reg.PACE_OPSEL r) Fld.PACE_OPSEL.current_op - 1)) rfl
  rw [State.vaneRequest, State.reach_congr (h.reaches rfl)]
  split
  · next hq => rw [hq, State.reach_setReach_same]
  · next hq => exact State.reach_setReach_ne _ _ hq

theorem vaneCritical_gives {r : Fin 16} {s : State} (hv : ∃ v < 8, 4 ≤ (s.reach r).critRun.getD v 0) (hc : (s.reach r).critical = false)
    (hw : s.written (Reg.PACE_OPSEL r) Fld.PACE_OPSEL.target_op = false)
    (ha : ¬(s.get (Reg.PACE_OPSEL r) Fld.PACE_OPSEL.auto_down = 1 ∧ s.get (Reg.PACE_OPSEL r) Fld.PACE_OPSEL.busy = 1)) :
    Gives (.vaneCritical r) s fun t =>
      let a := Reg.PACE_OPSEL r
      let cur := s.get a Fld.PACE_OPSEL.current_op
      (t.reach r).critical = true ∧
      (if s.get Reg.VANE_THRESH Fld.VANE_THRESH.auto_down = 1 ∧ 0 < cur then
        t.get a Fld.PACE_OPSEL.target_op = cur - 1 ∧ t.get a Fld.PACE_OPSEL.auto_down = 1 ∧ t.get a Fld.PACE_OPSEL.busy = 1 ∧
        t.get a Fld.PACE_OPSEL.current_op = cur
       else t.reg a = s.reg a) ∧
      (∀ q, q ≠ r.val → t.reach q = s.reach q) ∧ SameRegsButErr [a] s t := by
  obtain ⟨v, hx⟩ := State.vaneCritical_enters hv hc hw ha
  have hcur := s.enterCritical_get r v Fld.PACE_OPSEL.current_op (errReg_PACE_OPSEL r)
  have hregs : SameRegsButErr [Reg.PACE_OPSEL r] s (s.enterCritical r v) := fun a he _ => s.enterCritical_reg r v he
  have hcrit : ((s.enterCritical r v).reach r).critical = true := by
    rw [State.enterCritical_reach, State.reach_setReach_same]
  have hothers : ∀ q, q ≠ r.val → (s.enterCritical r v).reach q = s.reach q := fun q hq => by
    rw [State.enterCritical_reach, State.reach_setReach_ne _ _ hq]
  by_cases h : s.get Reg.VANE_THRESH Fld.VANE_THRESH.auto_down = 1 ∧ 0 < s.get (Reg.PACE_OPSEL r) Fld.PACE_OPSEL.current_op
  · rw [if_pos h] at hx
    have hf := (s.enterCritical r v).vaneRequest_fields r (by rw [hcur]; exact h.2)
    dsimp only at hf
    rw [hcur] at hf
    refine Gives.intro (congrArg Host.Outcome.next hx) ⟨?_, by rw [if_pos h]; exact hf, fun q hq => ?_,
      hregs.trans (State.vaneRequest_sameRegs _ _).toErr⟩
    · rw [State.vaneRequest_reach, if_pos rfl]
      exact hcrit
    · rw [State.vaneRequest_reach, if_neg hq, hothers q hq]
  · rw [if_neg h] at hx
    exact Gives.intro (congrArg Host.Outcome.next hx) ⟨hcrit, by rw [if_neg h]; exact s.enterCritical_reg r v (errReg_PACE_OPSEL r),
      hothers, hregs⟩

/-- Settles O11: the end of a window by whether the reach stays in warning, a critical reach by whether it asks for the point below. -/
theorem vanes : Obligations.Vanes := by
  unfold Obligations.Vanes
  refine ⟨fun r s hb => ?_, fun r s => vaneCritical_gives⟩
  obtain ⟨t, ht, ho, hc, hnew, hwas⟩ := vaneWindowEnd_gives hb
  exact ⟨t, ht, ho, hc.margins, hc.winBeats, hc.winLow, hnew, hwas, hc.others, hc.registers⟩

end Sys2Proof.Machine
end

section
/-! SUPPORT. The end of a retune under a ceiling lowered meanwhile (R65, R76), where the obligation on the sequence fails. -/

namespace Sys2Proof.Machine

/-- Reach 0 before its retune completes: it serves OP1, of a period of 1,000 ps, under a ceiling lowered to OP0, of 400 ps; and the mark of
PACE_OPSEL_0, 500 ps old, says that a write set bits of retune_count. -/
def clampedRetune : State :=
  { ((((State.reset.put (Reg.PACE_OP_TABLE 0) Fld.PACE_OP_TABLE.period_ps 400).put (Reg.PACE_OP_TABLE 1) Fld.PACE_OP_TABLE.period_ps
      1000).put Reg.LIMS_OP_CEIL Fld.LIMS_OP_CEIL.ceil 0).setReach 0 { retune := .calibrating, newOp := 1 }) with
    now := 500
    marks := [(Reg.PACE_OPSEL 0, ⟨0, 0, 0, Fld.PACE_OPSEL.retune_count.set 0 1⟩)] }

/-- The retune leaves the reach at OP0. By the period of OP0 the beat of the mark is past, so the retune counts; by that of OP1 it is still in
progress. -/
theorem clampedRetune_count :
    (clampedRetune.retuneDone 0).get (Reg.PACE_OPSEL 0) Fld.PACE_OPSEL.retune_count = 1 ∧
    clampedRetune.get (Reg.PACE_OPSEL 0) Fld.PACE_OPSEL.retune_count = 0 ∧
    (clampedRetune.put (Reg.PACE_OPSEL 0) Fld.PACE_OPSEL.current_op 1).written (Reg.PACE_OPSEL 0) Fld.PACE_OPSEL.retune_count = true := by
  decide +kernel

/-- Refutes O13: the clause on retune_count fails. It judges whether a write of the beat has set that field by the period of the point
served, `newOp`; but the reach goes to that point or the ceiling, whichever is lower, and marks are judged by the period in force in reach 0.
The counterexample rests on the statement's reach over every state: retune_count is read-only (R80), so no register write leaves such a
mark. -/
theorem not_retuneSequence : ¬ Obligations.RetuneSequence := by
  unfold Obligations.RetuneSequence
  rintro ⟨h, -⟩
  obtain ⟨-, -, hdone⟩ := h 0 clampedRetune
  obtain ⟨t, ht, -, -, -, hcount, -⟩ := hdone (.inl (by decide +kernel))
  have he : exec (.retuneComplete 0) clampedRetune = .next (clampedRetune.retuneDone 0) := by rfl
  obtain rfl : clampedRetune.retuneDone 0 = t := by simpa [he] using ht
  obtain ⟨h1, h0, hw⟩ := clampedRetune_count
  have hn : (clampedRetune.reach 0).newOp = 1 := by decide +kernel
  simp [hn, hw, h1, h0] at hcount

end Sys2Proof.Machine
end

section
/-! SUPPORT. Operations that touch the die by withdrawing hold requests alone (R59): they raise none, and let no access of the register
path wait or pass. -/

namespace Sys2Proof.Machine

/-- The same accesses of the register path wait in `t` as in `s`, and no hold request is in force where none was. -/
structure Withdraws (s t : State) : Prop where
  regQ  : t.die.regQ = s.die.regQ
  holds : s.die.holds = [] → t.die.holds = []

namespace Withdraws

variable {s t u : State}

theorem refl (s : State) : Withdraws s s := ⟨rfl, id⟩

theorem trans (h : Withdraws s t) (k : Withdraws t u) : Withdraws s u := ⟨k.regQ.trans h.regQ, k.holds ∘ h.holds⟩

theorem ofDie (h : t.die = s.die) : Withdraws s t := ⟨by rw [h], fun k => by rw [h, k]⟩

/-- One more operation, which does not touch the die. -/
theorem step {L : List Part} (h : Withdraws s t) (k : Changes L t u) (hp : L.contains .die = false := by rfl) : Withdraws s u :=
  h.trans (ofDie (k.die hp))

theorem ite {c : Prop} [Decidable c] (h : Withdraws s t) (k : Withdraws s u) : Withdraws s (if c then t else u) := by
  split <;> assumption

theorem foldl {α : Type} {l : List α} {f : State → α → State} (h : Withdraws s t) (k : ∀ v x, Withdraws v (f v x)) :
    Withdraws s (l.foldl f t) := by
  induction l generalizing t with
  | nil => exact h
  | cons x l ih => exact ih (h.trans (k t x))

theorem eachCore {r : Nat} {f : State → Nat → State} (h : Withdraws s t) (k : ∀ v n, Withdraws v (f v n)) :
    Withdraws s (t.eachCore r f) :=
  h.foldl fun v n => (k v n).ite (refl v)

theorem held (h : Withdraws s t) (k : s.held = false) : t.held = false := by
  simp only [State.held, Bool.not_eq_false', List.isEmpty_iff] at *
  exact h.holds k

end Withdraws

theorem State.holdOff_withdraws (s : State) (p : HoldReq → Bool) : Withdraws s (s.holdOff p) :=
  ⟨rfl, fun h => by simp [State.holdOff, h]⟩

theorem State.advanceTo_withdraws (s : State) (t : Nat) : Withdraws s (s.advanceTo t) := by
  unfold State.advanceTo
  split
  · exact .refl s
  · extract_lets d s1 die1 s2 only die2 s3 s4
    have h3 : Withdraws s s3 := by
      have h1 : Withdraws s s1 := (Withdraws.refl s).step (s.fabricTime_changes d)
      have h2 : Withdraws s s2 := h1.step (s1.addTo_changes _ _ _)
      exact .ite (h1.trans ⟨rfl, id⟩) (.ite (h2.trans ⟨rfl, id⟩) h1)
    exact Withdraws.trans (.ite (h3.step (s3.addTo_changes _ _ _)) h3) (.ofDie rfl)

/-! ### Barrier slots -/

theorem State.endWait_withdraws (s : State) (n i k : Nat) : Withdraws s (s.endWait n i k) :=
  ((Withdraws.refl s).step (s.signal_changes n i k 256 3)).trans (State.holdOff_withdraws _ _)

theorem State.pendRelease_withdraws (s : State) (i apply parity : Nat) : Withdraws s (s.pendRelease i apply parity) := by
  unfold State.pendRelease
  extract_lets ctr held rest u
  have hu : Withdraws s u := (Withdraws.refl s).foldl fun v n => v.endWait_withdraws n ctr 1
  exact .ite hu (.ite (hu.step (u.applyFull_changes _ _ _)) (hu.trans (.ofDie ((State.showPend_changes _).die rfl))))

theorem State.leaderCheck_withdraws (s : State) (i : Nat) : Withdraws s (s.leaderCheck i) := by
  unfold State.leaderCheck
  extract_lets a x cur apply tree h b u
  have hu : Withdraws s u := (Withdraws.refl s).step (s.setSlot_changes i _)
  exact .ite ((Withdraws.refl s).step (s.showSlot_changes i))
    (((hu.step (u.sendTree_changes tree b)).trans (State.pendRelease_withdraws _ _ _ _)).step (State.showSlot_changes _ _))

theorem State.chipArrive_withdraws (s : State) (i gen a : Nat) : Withdraws s (s.chipArrive i gen a) :=
  ((Withdraws.refl s).step (s.setSlot_changes i _)).trans (State.leaderCheck_withdraws _ _)

theorem State.slotComplete_withdraws (s : State) (i b sb : Nat) : Withdraws s (s.slotComplete i b sb) := by
  unfold State.slotComplete
  extract_lets x a cores st s1 s2 s3 s4 arr gen lchip
  have h3 : Withdraws s s3 :=
    (((Withdraws.refl s).step (s.addTo_changes _ _ _)).step (s1.setSlot_changes i _)).step (s2.showSlot_changes i)
  have h4 : Withdraws s s4 := .ite (h3.step (s3.trigger_changes _ _ _)) h3
  exact .ite (h4.trans (.ofDie rfl)) (.ite (h4.trans (s4.chipArrive_withdraws _ _ _)) (h4.step (s4.sendOut_changes _ _)))

theorem State.slotRecord_withdraws (s : State) (i : Nat) (e : SlotArrival) : Withdraws s (s.slotRecord i e) := by
  have hs := Withdraws.refl s
  unfold State.slotRecord
  extract_lets x u
  have hu : Withdraws s u := (hs.step (s.setSlot_changes i _)).step (State.showSlot_changes _ i)
  exact .ite (.ite (hs.step (s.lockErr_changes _ _ _ _ _)) ((hs.step (s.setSlot_changes i _)).step (State.showSlot_changes _ i)))
    (.ite (hu.trans (u.slotComplete_withdraws i _ _)) hu)

theorem State.slotAgain_withdraws (s : State) (i : Nat) : Withdraws s (s.slotAgain i) := by
  unfold State.slotAgain
  split
  · exact .refl s
  · exact .ite (((Withdraws.refl s).step (s.setSlot_changes i _)).trans (State.slotComplete_withdraws _ i _ _)) (.refl s)

theorem State.slotDrain_withdraws (s : State) (i fuel : Nat) : Withdraws s (s.slotDrain i fuel) := by
  induction fuel generalizing s with
  | zero => exact .refl s
  | succ fuel ih =>
    have hs := Withdraws.refl s
    have hrec : ∀ x e, Withdraws s (((s.setSlot i x).slotRecord i e).slotDrain i fuel) := fun x e =>
      ((hs.step (s.setSlot_changes i x)).trans (State.slotRecord_withdraws _ i e)).trans (ih _)
    have hcomp : ∀ x t sb, Withdraws s (((s.setSlot i x).slotComplete i t sb).slotDrain i fuel) := fun x t sb =>
      ((hs.step (s.setSlot_changes i x)).trans (State.slotComplete_withdraws _ i t sb)).trans (ih _)
    unfold State.slotDrain
    dsimp only
    split
    · exact .ite (.ite (hcomp _ _ _) hs) (.ite (hrec _ _) hs)
    · exact .ite (hrec _ _) hs
    · exact s.slotAgain_withdraws i
    · exact hs

theorem State.slotsDrain_withdraws (s : State) : Withdraws s s.slotsDrain :=
  (Withdraws.refl s).foldl fun v _ => .ite (.refl v) (v.slotDrain_withdraws _ _)

/-! ### The end of a beat -/

theorem State.faultCore_withdraws (s : State) (n code : Nat) : Withdraws s (s.faultCore n code) := by
  unfold State.faultCore
  extract_lets st a s1 s2 c s3
  have h3 : Withdraws s s3 := (((Withdraws.refl s).step (s.put_changes _ _ _)).step (s1.put_changes _ _ _)).step (s2.setCore_changes _ _)
  exact .ite ((h3.trans (s3.holdOff_withdraws _)).step (State.refresh_changes _ _)) (.refl s)

theorem State.enterHalted_withdraws (s : State) (n : Nat) : Withdraws s (s.enterHalted n) := by
  unfold State.enterHalted
  extract_lets a s1 s2 s3 c s4
  have h4 : Withdraws s s4 := ((((Withdraws.refl s).step (s.put_changes _ _ _)).step (s1.put_changes _ _ _)).step
    (s2.put_changes _ _ _)).step (s3.setCore_changes _ _)
  exact (h4.trans (s4.holdOff_withdraws _)).step (State.refresh_changes _ _)

theorem State.haltWait_withdraws (s : State) (n : Nat) : Withdraws s (s.haltWait n) :=
  .ite (s.enterHalted_withdraws n) (.refl s)

theorem State.latePushes_withdraws (s : State) (n : Nat) (ended : Bool) : Withdraws s (s.latePushes n ended) := by
  have hs := Withdraws.refl s
  unfold State.latePushes
  extract_lets c u
  have hu : Withdraws s u := .ite hs (hs.step (s.setCore_changes _ _))
  refine hu.foldl fun v x => ?_
  have hv := Withdraws.refl v
  exact .ite (hv.step (v.pushNow_changes _ _ _ _)) (.ite
    ((hv.step (v.queueErr_changes _ _ _ _)).trans (State.faultCore_withdraws _ _ _)) (hv.step (v.setCore_changes _ _)))

theorem State.endBeat_withdraws (s : State) (n : Nat) : Withdraws s (s.endBeat n) := by
  unfold State.endBeat
  extract_lets s1 s2 s3
  have h1 : Withdraws s s1 := ((Withdraws.refl s).step (s.contentions_changes n)).trans (State.haltWait_withdraws _ n)
  have h2 : Withdraws s s2 := (h1.step (s1.countWait_changes n false)).step (State.countWait_changes _ n true)
  have h3 : Withdraws s s3 := (h2.step (s2.foldSigs_changes n)).trans (State.latePushes_withdraws _ n true)
  exact Withdraws.step (.ite h3 (h3.step (s3.setCore_changes _ _))) (State.flushWrites_changes _ n)

end Sys2Proof.Machine
end

section
/-! SUPPORT. The beats of a reach (R47 to R52): its tick, its token and the completion of a beat, with the obligation on them. -/

namespace Sys2Proof.Machine

/-! ### The tick -/

theorem pacerTick_gives {r : Fin 16} {s : State} (ht : (s.reach r).ticked = false) (hp : (s.reach r).stopped = false) :
    Gives (.pacerTick r) s fun t =>
      t.reach r = { s.reach r with ticked := true, tickAt := (s.reach r).tokenAt + s.period r, heldAtTick := t.die.heldPs } ∧
      t.now = max s.now ((s.reach r).tokenAt + s.period r) ∧ (∀ q, q ≠ r.val → t.reach q = s.reach q) ∧
      SameRegs (clockRegs s) s t := by
  obtain ⟨u, hu⟩ : ∃ u, u = s.advanceTo ((s.reach r).tokenAt + s.period r) := ⟨_, rfl⟩
  have hx : execPacerTick r s = .next (u.setReach r
      { s.reach r with ticked := true, tickAt := (s.reach r).tokenAt + s.period r, heldAtTick := u.die.heldPs }) := by
    rw [hu]
    exact congrArg Host.Outcome.next (if_neg (by simp [ht, hp]))
  refine Gives.intro hx ⟨State.reach_setReach_same _ _ _, ?_, fun q hq => ?_, ?_⟩
  · exact hu ▸ s.advanceTo_now _
  · rw [State.reach_setReach_ne _ _ hq, hu, State.reach_congr ((s.advanceTo_changes _).reaches rfl)]
  · exact SameRegs.trans (hu ▸ s.advanceTo_regs _) (SameRegs.ofRegs rfl)

/-! ### What the token issues -/

/-- What a token issues for a reach. -/
structure SamePacer (x y : Reach) : Prop where
  beat     : y.beat = x.beat
  tokenAt  : y.tokenAt = x.tokenAt
  ticked   : y.ticked = x.ticked
  complete : y.complete = x.complete
  code     : y.code = x.code

theorem SamePacer.trans {x y z : Reach} (h : SamePacer x y) (k : SamePacer y z) : SamePacer x z :=
  ⟨k.beat.trans h.beat, k.tokenAt.trans h.tokenAt, k.ticked.trans h.ticked, k.complete.trans h.complete, k.code.trans h.code⟩

theorem SamePacer.refl (x : Reach) : SamePacer x x := ⟨rfl, rfl, rfl, rfl, rfl⟩

/-- The vanes measure beside the pacer (R67). -/
theorem State.windowEnd_pacer (s : State) (r : Nat) : SamePacer (s.reach r) ((s.windowEnd r).reach r) := by
  by_cases h : (s.reach r).staysWarned s.armCode = true ∨
      ¬∃ v < 8, (s.reach r).winLow.getD v 255 ≤ s.get Reg.VANE_THRESH Fld.VANE_THRESH.warn
  · rw [State.windowEnd_quiet h, State.closeWindow, State.reach_setReach_same]
    exact ⟨rfl, rfl, rfl, rfl, rfl⟩
  · rw [not_or, Bool.not_eq_true, not_not] at h
    obtain ⟨v, hv⟩ := State.windowEnd_warns h.1 h.2
    rw [hv, State.enterWarning, State.logErr_reach, State.reach_setReach_same]
    exact ⟨rfl, rfl, rfl, rfl, rfl⟩

theorem State.measure_pacer (s : State) (r : Fin 16) (codes : List Byte) :
    SamePacer (s.reach r) ((s.measure r codes).reach r) ∧ ∀ q, q ≠ r.val → (s.measure r codes).reach q = s.reach q := by
  unfold State.measure
  extract_lets u x crit cs runs
  have hu : SamePacer (s.reach r) (u.reach r) ∧ ∀ q, q ≠ r.val → u.reach q = s.reach q := by
    simp only [u]
    split
    · exact ⟨s.windowEnd_pacer r, (s.windowEnd_closed r).others⟩
    · exact ⟨.refl _, fun _ _ => rfl⟩
  refine ⟨hu.1.trans ?_, fun q hq => (State.reach_setReach_ne _ _ hq).trans (hu.2 q hq)⟩
  rw [State.reach_setReach_same]
  exact ⟨rfl, rfl, rfl, rfl, rfl⟩

theorem State.stretch_pacer (s : State) (r : Nat) :
    SamePacer (s.reach r) ((s.stretch r).reach r) ∧ ∀ q, q ≠ r → (s.stretch r).reach q = s.reach q := by
  unfold State.stretch
  extract_lets x late a s1 s2
  have h2 : s2.reaches = s.reaches := by simp only [s2, s1, State.addTo_reaches]
  split
  · exact ⟨.refl _, fun _ _ => rfl⟩
  · rw [State.reach_setReach_same]
    exact ⟨⟨rfl, rfl, rfl, rfl, rfl⟩, fun q hq => (State.reach_setReach_ne _ _ hq).trans (State.reach_congr h2 q)⟩

/-- A stretch counts in PACE_STRETCH_r alone (R56). -/
theorem State.stretch_sameRegs (s : State) (r : Nat) : SameRegs [Reg.PACE_STRETCH r] s (s.stretch r) := by
  unfold State.stretch
  extract_lets x late a s1 s2
  split
  · exact SameRegs.refl _ _
  · exact (State.hwPut_step (State.hwPut_step (SameRegs.refl _ s) a _ _ (by simp [a])) a _ _ (by simp [a])).trans (SameRegs.ofRegs rfl)

/-- The time to which the throttle extends the beat has come, and the stretch is counted (R56, R61). -/
def State.endExtension (s : State) (r : Nat) : State := (s.advanceTo (s.throttleEnd r)).stretch r

theorem State.endExtension_changes (s : State) (r : Nat) : Changes [.now, .regs, .reaches, .die, .fabric] s (s.endExtension r) :=
  ((s.advanceTo_changes _).widen rfl).step (State.stretch_changes _ r) rfl

theorem State.endExtension_now (s : State) (r : Nat) : (s.endExtension r).now = max s.now (s.throttleEnd r) := by
  rw [State.endExtension, (State.stretch_changes _ r).now rfl, State.advanceTo_now]

theorem State.endExtension_pacer (s : State) (r : Nat) :
    SamePacer (s.reach r) ((s.endExtension r).reach r) ∧ ∀ q, q ≠ r → (s.endExtension r).reach q = s.reach q := by
  have h := (s.advanceTo (s.throttleEnd r)).stretch_pacer r
  simp only [State.reach_congr ((s.advanceTo_changes _).reaches rfl)] at h
  exact h

/-- The throttle code that the token notes is not among what the extension counts (R62). -/
theorem State.endExtension_throttleCode (s : State) (r : Fin 16) : (s.endExtension r).throttleCode r = s.throttleCode r := by
  have h : (s.endExtension r).reg Reg.WEIR_STAT = s.reg Reg.WEIR_STAT := by
    have hp : Reg.WEIR_STAT ≠ Reg.PACE_STRETCH r := by revert r; decide
    have hc : Reg.WEIR_STAT ∉ clockRegs s := by
      have hi : Reg.WEIR_STAT ≠ Reg.IDLE_NS s.idle.state :=
        Nat.ne_of_lt (Nat.lt_of_lt_of_le (by decide : _ < blockBase 19 + 0x800) (Nat.le_add_right _ _))
      have hf : Reg.WEIR_STAT ≠ Reg.FABR_TIME ∧ Reg.WEIR_STAT ≠ Reg.PACE_HOLD_NS := by decide
      simp [clockRegs, hi, hf]
    rw [State.endExtension, State.stretch_sameRegs _ r _ (by simpa using hp), s.advanceTo_regs _ _ hc]
  simp only [State.throttleCode, State.weirCode, State.get, h]

/-- The next beat of reach `r` begins (R47, R49, R62). -/
def State.nextBeat (s : State) (r : Nat) : State :=
  (s.endExtension r).setReach r { (s.endExtension r).reach r with
    beat := ((s.endExtension r).reach r).beat + 1, tokenAt := (s.endExtension r).now, ticked := false, complete := false
    code := (s.endExtension r).throttleCode r }

/-- What waits for the beat arrives in it, before the vanes measure (R52, R336, R557). -/
def State.beatArrivals (s : State) (b : Nat) : State := (s.arriveTriggers b).showBeat.slotsDrain

theorem State.beatArrivals_changes (s : State) (b : Nat) :
    Changes [.regs, .die, .cores, .locks, .mesh, .idle, .diag, .ibis, .outs] s (s.beatArrivals b) :=
  (((s.arriveTriggers_changes b).widen rfl).step (State.showBeat_changes _) rfl).step (State.slotsDrain_changes _) rfl

theorem State.beatArrivals_withdraws (s : State) (b : Nat) : Withdraws s (s.beatArrivals b) :=
  (((Withdraws.refl s).step (s.arriveTriggers_changes b)).step (State.showBeat_changes _)).trans (State.slotsDrain_withdraws _)

/-- The units of a reach do the work of a beat once the vanes have measured (R47, R557). -/
def State.unitsWork (s : State) (r : Nat) : State := ((s.beatWork r).fillWork).stepMatch r

theorem State.unitsWork_changes (s : State) (r : Nat) :
    Changes [.regs, .mem, .ecc, .cores, .mesh, .holds, .fabric, .weights, .idle, .diag, .ibis, .outs] s (s.unitsWork r) :=
  (((s.beatWork_changes r).widen rfl).step (State.fillWork_changes _) rfl).step (State.stepMatch_changes _ r) rfl

theorem State.token_eq {s : State} {r : Nat} (h : s.tokenReady r = true) (codes : List Byte) :
    s.token r codes =
      (((s.nextBeat r).beatArrivals (((s.endExtension r).reach r).beat + 1)).measure r codes).unitsWork r := by
  unfold State.token
  exact if_neg (by simp [h])

theorem State.token_waits {s : State} {r : Nat} (h : s.tokenReady r = false) (codes : List Byte) : s.token r codes = s := by
  unfold State.token
  exact if_pos (by simp [h])

/-! ### The token -/

theorem State.nextBeat_now (s : State) (r : Nat) : (s.nextBeat r).now = max s.now (s.throttleEnd r) := s.endExtension_now r

theorem State.token_now {s : State} {r : Nat} (h : s.tokenReady r = true) (codes : List Byte) :
    (s.token r codes).now = max s.now (s.throttleEnd r) := by
  rw [State.token_eq h, (State.unitsWork_changes _ r).now rfl, (State.measure_changes _ r codes).now rfl,
    (State.beatArrivals_changes _ _).now rfl, State.nextBeat_now]

theorem State.token_regQ (s : State) (r : Nat) (codes : List Byte) : (s.token r codes).die.regQ = s.die.regQ := by
  cases h : s.tokenReady r with
  | false => rw [State.token_waits h]
  | true =>
    rw [State.token_eq h, (State.unitsWork_changes _ r).die rfl, (State.measure_changes _ r codes).die rfl,
      (State.beatArrivals_withdraws _ _).regQ]
    exact ((s.advanceTo_withdraws _).step (State.stretch_changes _ r)).regQ

/-- The beat that a token begins. -/
structure BeatBegun (r : Nat) (s t : State) : Prop where
  beat     : (t.reach r).beat = (s.reach r).beat + 1
  tokenAt  : (t.reach r).tokenAt = t.now
  ticked   : (t.reach r).ticked = false
  complete : (t.reach r).complete = false
  code     : (t.reach r).code = s.throttleCode r
  others   : ∀ q, q ≠ r → t.reach q = s.reach q

theorem BeatBegun.congr {r : Nat} {s t u : State} (h : BeatBegun r s t) (hp : SamePacer (t.reach r) (u.reach r))
    (ho : ∀ q, q ≠ r → u.reach q = t.reach q) (hn : u.now = t.now) : BeatBegun r s u where
  beat := hp.beat.trans h.beat
  tokenAt := (hp.tokenAt.trans h.tokenAt).trans hn.symm
  ticked := hp.ticked.trans h.ticked
  complete := hp.complete.trans h.complete
  code := hp.code.trans h.code
  others q hq := (ho q hq).trans (h.others q hq)

/-- What leaves the reaches and the time leaves the beat begun. -/
theorem BeatBegun.step {r : Nat} {s t u : State} {L : List Part} (h : BeatBegun r s t) (k : Changes L t u)
    (hr : L.contains .reaches = false := by rfl) (hn : L.contains .now = false := by rfl) : BeatBegun r s u :=
  h.congr (by rw [State.reach_congr (k.reaches hr)]; exact .refl _) (fun q _ => State.reach_congr (k.reaches hr) q) (k.now hn)

theorem State.nextBeat_begun (s : State) (r : Fin 16) : BeatBegun r s (s.nextBeat r) := by
  have hs := State.reach_setReach_same (s.endExtension r) r
  obtain ⟨hp, ho⟩ := s.endExtension_pacer r
  refine ⟨?_, ?_, ?_, ?_, ?_, fun q hq => (State.reach_setReach_ne _ _ hq).trans (ho q hq)⟩
  all_goals rw [State.nextBeat, hs]
  · rw [hp.beat]
  · rfl
  · exact s.endExtension_throttleCode r

theorem State.token_begun {s : State} {r : Fin 16} (h : s.tokenReady r = true) (codes : List Byte) : BeatBegun r s (s.token r codes) := by
  obtain ⟨u, hu⟩ : ∃ u, u = (s.nextBeat r).beatArrivals (((s.endExtension r).reach r).beat + 1) := ⟨_, rfl⟩
  have hb : BeatBegun r s u := hu ▸ (s.nextBeat_begun r).step (State.beatArrivals_changes _ _)
  obtain ⟨hp, ho⟩ := u.measure_pacer r codes
  rw [State.token_eq h, ← hu]
  exact (hb.congr hp ho ((u.measure_changes r codes).now rfl)).step (State.unitsWork_changes _ r)

/-- With no access waiting the register path does nothing in a beat (R597). -/
theorem State.serveRegs_none {s : State} (h : s.die.regQ = []) : s.serveRegs = s := by
  have hd : ({ s.die with regQ := [] } : Die) = s.die := by rw [← h]
  unfold State.serveRegs
  simp only [h, List.filter_nil, List.foldl_nil, hd]

/-- What follows a token with no access of the register path waiting: pins are counted, quiescence is noted, paced packets leave. -/
theorem execBeatToken_eq {r : Fin 16} {s : State} (h : s.die.regQ = []) (codes : List Byte) :
    execBeatToken r codes s = .next (s.token r codes).switchPins.noteQuiet.paceWork := by
  have hq : (s.token r codes).switchPins.die.regQ = [] := by
    rw [(State.switchPins_changes _).die rfl, State.token_regQ, h]
  rw [execBeatToken, State.serveRegs_none hq]

/-- What follows the token leaves the reaches, the die and the time. -/
theorem State.afterToken_changes (s : State) :
    Changes [.regs, .mem, .ecc, .cores, .mesh, .holds, .host, .engine, .idle, .diag, .ibis, .outs] s s.switchPins.noteQuiet.paceWork :=
  ((s.switchPins_changes).step (State.noteQuiet_changes _) rfl).step (State.paceWork_changes _) rfl

theorem beatToken_issued {r : Fin 16} {codes : List Byte} {s : State} (hq : s.die.regQ = []) (h : s.tokenReady r = true) :
    Gives (.beatToken r codes) s fun t =>
      BeatBegun r s t ∧ t.now = max s.now (s.throttleEnd r) ∧
      Only ([.now, .mem, .ecc, .reaches, .die, .cores, .locks, .holds, .fabric, .host, .engine, .weights] ++ logParts) s t := by
  have ha := (s.token r codes).afterToken_changes
  exact Gives.intro (execBeatToken_eq hq codes) ⟨(State.token_begun h codes).step ha, (ha.now rfl).trans (State.token_now h codes),
    (((s.token_changes r codes).widen rfl).step ha rfl).only⟩

/-! ### Completion -/

/-- The first least element of a list. -/
theorem foldl_min_headD {l : List Nat} (h : l ≠ []) : l.min? = some (l.foldl min (l.headD 0)) := by
  cases l with
  | nil => exact absurd rfl h
  | cons a l => rw [List.min?_cons', List.headD_cons, List.foldl_cons, min_self]

/-- PACE_BEAT shows the beats of a reach that has completed the fewest (R52). -/
theorem State.showBeat_die_beat {s : State} (h : s.held = false) :
    ∃ q < 16, s.showBeat.get Reg.PACE_BEAT Fld.PACE_BEAT.die_beat = (s.reach q).completed % 2 ^ 64 ∧
      ∀ p < 16, (s.reach q).completed ≤ (s.reach p).completed := by
  obtain ⟨l, hl⟩ : ∃ l, l = (List.range 16).map fun r => (s.reach r).completed := ⟨_, rfl⟩
  have hne : l ≠ [] := by rw [hl]; simp
  obtain ⟨hmem, hle⟩ := List.min?_eq_some_iff.mp (foldl_min_headD hne)
  have hx : s.showBeat = s.put Reg.PACE_BEAT Fld.PACE_BEAT.die_beat (l.foldl min (l.headD 0)) := by
    rw [hl]
    exact if_neg (by simp [h])
  simp only [hl, List.mem_map, List.mem_range] at hmem
  obtain ⟨q, hq, hm⟩ := hmem
  refine ⟨q, hq, ?_, fun p hp => ?_⟩
  · rw [hx, State.get_put_same _ _ _ _ (by decide), hl, hm]
  · rw [hm, ← hl]
    exact hle _ (by rw [hl]; exact List.mem_map.mpr ⟨p, List.mem_range.mpr hp, rfl⟩)

theorem State.eachCore_same {s : State} {r : Nat} {f : State → Nat → State}
    (h : ∀ n ∈ coresOf r, s.enabled n = true → f s n = s) : s.eachCore r f = s := by
  unfold State.eachCore
  generalize coresOf r = l at h
  induction l with
  | nil => rfl
  | cons n l ih =>
    have hn : (if s.enabled n then f s n else s) = s := ite_eq_right_iff.mpr (h n List.mem_cons_self)
    rw [List.foldl_cons, hn]
    exact ih fun m hm => h m (List.mem_cons_of_mem _ hm)

/-- The beat in progress of a reach ends (R48). -/
def State.finishBeat (s : State) (r : Nat) : State :=
  (s.eachCore r State.endBeat).setReach r { (s.eachCore r State.endBeat).reach r with complete := true, withheld := false }

theorem State.completeBeat_eq {s : State} {r : Nat} (hc : (s.reach r).complete = false)
    (ha : (adjacent r).all (fun q => decide ((s.reach r).beat ≤ (s.reach q).completed)) = true) (hw : s.workDone r = true)
    (hm : s.itemMissing r = false) (hh : s.held = false)
    (hx : ∀ n ∈ coresOf r, s.enabled n = true → s.xwaits n = [] ∧ s.arrayCheck n = s) :
    s.completeBeat r = (s.finishBeat r).showBeat := by
  have hwaits : ((coresOf r).flatMap fun n => if s.enabled n then s.xwaits n else []) = [] := by
    rw [List.flatMap_eq_nil_iff]
    exact fun n hn => ite_eq_right_iff.mpr fun he => (hx n hn he).1
  have hcheck : s.eachCore r State.arrayCheck = s := State.eachCore_same fun n hn he => (hx n hn he).2
  unfold State.completeBeat
  simp only [hc, ha, hw, hwaits, List.foldl_nil, hcheck, hm, hh, Bool.false_eq_true, Bool.not_true, or_self, if_false, Bool.and_false]
  rfl

theorem beatComplete_gives {r : Fin 16} {s : State} (hc : (s.reach r).complete = false)
    (ha : (adjacent r).all (fun q => decide ((s.reach r).beat ≤ (s.reach q).completed)) = true) (hw : s.workDone r = true)
    (hm : s.itemMissing r = false) (hh : s.held = false)
    (hx : ∀ n ∈ coresOf r, s.enabled n = true → s.xwaits n = [] ∧ s.arrayCheck n = s) :
    Gives (.beatComplete r) s fun t =>
      (t.reach r).complete = true ∧ (t.reach r).beat = (s.reach r).beat ∧ (∀ q, q ≠ r.val → t.reach q = s.reach q) ∧
      ∃ q < 16, t.get Reg.PACE_BEAT Fld.PACE_BEAT.die_beat = (t.reach q).completed % 2 ^ 64 ∧
        ∀ p < 16, (t.reach q).completed ≤ (t.reach p).completed := by
  obtain ⟨u, hu⟩ : ∃ u, u = s.eachCore r State.endBeat := ⟨_, rfl⟩
  obtain ⟨v, hv⟩ : ∃ v, v = u.setReach r { u.reach r with complete := true, withheld := false } := ⟨_, rfl⟩
  have hfin : s.finishBeat r = v := by rw [hv, hu, State.finishBeat]
  have hexec : execBeatComplete r s = .next v.showBeat := by
    rw [execBeatComplete, State.completeBeat_eq hc ha hw hm hh hx, hfin]
  have hreach : ∀ q, u.reach q = s.reach q :=
    State.reach_congr (hu ▸ (Changes.eachCore (Changes.refl _ s) fun t n => t.endBeat_changes n).reaches rfl)
  have hheld : v.held = false := by
    have h : Withdraws s u := hu ▸ (Withdraws.refl s).eachCore fun t n => t.endBeat_withdraws n
    rw [hv]
    exact h.held hh
  have hshow : ∀ q, v.showBeat.reach q = v.reach q := State.reach_congr (v.showBeat_changes.reaches rfl)
  refine Gives.intro hexec ?_
  simp only [hshow]
  refine ⟨?_, ?_, fun q hq => ?_, State.showBeat_die_beat hheld⟩
  · rw [hv, State.reach_setReach_same]
  · rw [hv, State.reach_setReach_same]
    exact (congrArg Reach.beat (hreach r) :)
  · rw [hv, State.reach_setReach_ne _ _ hq, hreach]

/-- Settles O9: a tick, a token that is issued or not, and a beat that completes. -/
theorem beatCycle : Obligations.BeatCycle := by
  unfold Obligations.BeatCycle
  refine ⟨fun r s => pacerTick_gives, fun r codes s hq => ⟨fun h => ?_, fun h => ?_⟩, fun r s => beatComplete_gives⟩
  · have hx := execBeatToken_eq (r := r) hq codes
    rw [State.token_waits h] at hx
    exact hx
  · obtain ⟨t, ht, hp, hb, hn, ho⟩ := beatToken_issued (codes := codes) hq h
    exact ⟨t, ht, hp, hb.beat, hn, hb.tokenAt, hb.ticked, hb.complete, hb.code, hb.others, ho⟩

end Sys2Proof.Machine
end

section
/-! SUPPORT. The order of contributions and of exact-reduce inputs, and the exchange form of a finite result (R102 to R104, R109,
R111), with the obligation on them. -/

namespace Sys2Proof.Machine

/-! ### Adding to an accumulator (step 4 of R102) -/

/-- The carry of a sum is its quotient by 2^128 that leaves the remainder in the range of V. -/
theorem Afa.addInt_eq (a : Afa) (p : Int) :
    a.addInt p = { a with v := a.v + BitVec.ofInt 128 p, w := a.w + BitVec.ofInt 24 ((a.v.toInt + p).bdiv (2 ^ 128)) } := by
  have hv : BitVec.ofInt 128 (a.v.toInt + p) = a.v + BitVec.ofInt 128 p := by rw [BitVec.ofInt_add, BitVec.ofInt_toInt]
  have hcarry : (a.v.toInt + p - (BitVec.ofInt 128 (a.v.toInt + p)).toInt) / ((2 ^ 128 : Nat) : Int) = (a.v.toInt + p).bdiv (2 ^ 128) := by
    rw [BitVec.toInt_ofInt, Int.bmod_eq_self_sub_mul_bdiv, Int.sub_sub_self, Int.mul_ediv_cancel_left _ (by decide)]
  rw [Afa.addInt, hcarry, hv]

@[simp] theorem Afa.addInt_zero (a : Afa) : a.addInt 0 = a := by
  have hcarry : a.v.toInt.bdiv (2 ^ 128) = 0 := by
    have hself : a.v.toInt.bmod (2 ^ 128) = a.v.toInt := BitVec.toInt_bmod_cancel a.v
    have hdiv := Int.bmod_add_bdiv a.v.toInt (2 ^ 128)
    omega
  have hzero (n : Nat) : BitVec.ofInt n 0 = 0#n := BitVec.ofInt_ofNat n 0
  rw [Afa.addInt_eq, Int.add_zero, hcarry, hzero, hzero, BitVec.add_zero, BitVec.add_zero]

/-- The carries of a sum made in two steps add up to the carry of the whole. -/
theorem bdiv_add_bdiv_bmod (x q : Int) (m : Nat) [NeZero m] : x.bdiv m + (x.bmod m + q).bdiv m = (x + q).bdiv m := by
  refine Int.eq_of_mul_eq_mul_left (Int.natCast_ne_zero.mpr (NeZero.ne m)) ?_
  have hx := Int.bmod_add_bdiv x m
  have hsum := Int.bmod_add_bdiv (x + q) m
  have hrest := Int.bmod_add_bdiv (x.bmod m + q) m
  rw [Int.bmod_add_bmod] at hrest
  linarith

theorem Afa.addInt_addInt (a : Afa) (p q : Int) : (a.addInt p).addInt q = a.addInt (p + q) := by
  have hv : (a.v + BitVec.ofInt 128 p).toInt = (a.v.toInt + p).bmod (2 ^ 128) := by
    rw [← BitVec.toInt_ofInt, BitVec.ofInt_add, BitVec.ofInt_toInt]
  rw [Afa.addInt_eq, Afa.addInt_eq, Afa.addInt_eq, hv, BitVec.add_assoc, BitVec.add_assoc, ← BitVec.ofInt_add, ← BitVec.ofInt_add,
    bdiv_add_bdiv_bmod, Int.add_assoc]

theorem Afa.addInt_right_comm (a : Afa) (p q : Int) : (a.addInt p).addInt q = (a.addInt q).addInt p := by
  rw [Afa.addInt_addInt, Afa.addInt_addInt, Int.add_comm]

/-! ### Contributions (R102 to R104) -/

/-- A product's integer is added and its flags are set; a set flag stays (R102, R103). -/
def Afa.enter (a : Afa) (p : Int) (ovf unf nan pinf ninf : Bool) : Afa :=
  Afa.addInt { a with ovf := a.ovf || ovf, unf := a.unf || unf, nan := a.nan || nan, pinf := a.pinf || pinf, ninf := a.ninf || ninf } p

theorem Afa.enter_right_comm (a : Afa) (p q : Int) (o u n i j o' u' n' i' j' : Bool) :
    (a.enter p o u n i j).enter q o' u' n' i' j' = (a.enter q o' u' n' i' j').enter p o u n i j := by
  simp only [Afa.enter]
  calc _ = ({ a with ovf := a.ovf || o || o', unf := a.unf || u || u', nan := a.nan || n || n', pinf := a.pinf || i || i',
                     ninf := a.ninf || j || j' }.addInt p).addInt q := rfl
    _ = ({ a with ovf := a.ovf || o' || o, unf := a.unf || u' || u, nan := a.nan || n' || n, pinf := a.pinf || i' || i,
                  ninf := a.ninf || j' || j }.addInt q).addInt p := by simp only [Afa.addInt_right_comm, Bool.or_right_comm]
    _ = _ := rfl

/-- What a product adds and which flags it sets depend on the product and the anchor alone. -/
theorem Afa.contribute_eq_enter (x : Num) (anchor : Nat) :
    ∃ p o u n i j, ∀ a : Afa, a.anchor = anchor → a.contribute x = a.enter p o u n i j := by
  cases x with
  | nan => exact ⟨0, false, false, true, false, false, fun a _ => by simp [contribute, enter]⟩
  | inf neg => exact ⟨0, false, false, false, !neg, neg, fun a _ => by cases neg <;> simp [contribute, enter]⟩
  | fin neg m e =>
    -- Steps 1 to 3 of R102 are the model's own: comparing it with `enter` gives the amount and the two flags.
    refine ⟨?amount, ?ovf, ?unf, false, false, false, fun a ha => ?step⟩
    case step =>
      simp only [contribute, enter, ha, Bool.or_false]
      rfl

theorem Afa.contribute_right_comm (a : Afa) (x y : Num) : (a.contribute x).contribute y = (a.contribute y).contribute x := by
  obtain ⟨p, o, u, n, i, j, hx⟩ := Afa.contribute_eq_enter x a.anchor
  obtain ⟨q, o', u', n', i', j', hy⟩ := Afa.contribute_eq_enter y a.anchor
  calc (a.contribute x).contribute y
      = (a.enter p o u n i j).enter q o' u' n' i' j' := by
        rw [hx a rfl, hy (a.enter p o u n i j) rfl]
    _ = (a.enter q o' u' n' i' j').enter p o u n i j := Afa.enter_right_comm ..
    _ = (a.contribute y).contribute x := by rw [hy a rfl, hx (a.enter q o' u' n' i' j') rfl]

/-! ### Exact combination (R111) -/

/-- A finite input is added to the node's sum; the others leave it. -/
def AfaOut.addTo (acc : Int) : AfaOut → Int
  | .fin v => acc + v
  | _ => acc

theorem AfaOut.addTo_right_comm (acc : Int) (o p : AfaOut) : (p.addTo (o.addTo acc)) = o.addTo (p.addTo acc) := by
  cases o <;> cases p <;> simp [addTo, Int.add_right_comm]

theorem combineExact_perm {xs ys : List AfaOut} (h : xs.Perm ys) : combineExact xs = combineExact ys := by
  simp only [combineExact, h.any_eq]
  rw [h.foldl_eq' fun o _ p _ acc => ?_]
  exact AfaOut.addTo_right_comm acc o p

theorem combineLogs_perm {xs ys : List AfaOut} (h : xs.Perm ys) : combineLogs xs = combineLogs ys := by
  rw [combineLogs, combineLogs, h.all_eq, h.foldl_eq' fun o _ p _ acc => ?_]
  exact AfaOut.addTo_right_comm acc o p

/-! ### The exchange form (R109) -/

/-- The five reserved codes are the values outside ±(2^127 - 3), so that no finite result is written as one of them. -/
theorem ofExchange_exchange_fin {v : Int} (hv : v.natAbs ≤ afaMax) : ofExchange (AfaOut.exchange (.fin v)) = .fin v := by
  have hlo : -(2 ^ 127 - 3) ≤ v := by unfold afaMax at hv; omega
  have hhi : v ≤ 2 ^ 127 - 3 := by unfold afaMax at hv; omega
  have hint : (BitVec.ofInt 128 v).toInt = v := BitVec.toInt_ofInt_eq_self (by decide) (by omega) (by omega)
  have hnat : (BitVec.ofInt 128 v).toNat = (v % 2 ^ 128).toNat := BitVec.toNat_ofInt v
  rw [AfaOut.exchange, ofExchange, if_neg (by omega), if_neg (by omega), if_neg (by omega), if_neg (by omega), if_neg (by omega), hint]

/-- Settles O60: contributions commute one with another, an exact combination asks only which inputs there are and what the finite
ones add up to, and no finite result has a reserved code. -/
theorem orderFree : Obligations.OrderFree := by
  unfold Obligations.OrderFree
  refine ⟨fun a xs ys h => ?_, fun xs ys h => ⟨combineExact_perm h, combineLogs_perm h⟩, fun v => ofExchange_exchange_fin⟩
  exact h.foldl_eq' (fun x _ y _ z => Afa.contribute_right_comm z x y) a

end Sys2Proof.Machine
end

section
/-! SUPPORT. What goes on beside a self-test leaves its own state alone (R144, R563 to R567): the logging of an error, a port that goes
down, the units of a test, and the policy that notes when the die becomes quiescent. -/

namespace Sys2Proof.Machine

/-! ### What the self-test keeps -/

/-- What the self-test keeps beside its registers. -/
def Diag.selfTest (d : Diag) : Nat × Option Nat × Nat × Bool × Bool × Bool :=
  (d.testAt, d.testUnitAt, d.testUnitCount, d.testFailed, d.testWindow, d.testCancel)

/-- `t` stands as `s` in the request in progress: in TEST_STAT, in what has happened to it in the beat in progress, and in what the
self-test keeps beside it. -/
structure SameSelfTest (s t : State) : Prop where
  reg  : t.reg Reg.TEST_STAT = s.reg Reg.TEST_STAT
  mark : smFind t.marks Reg.TEST_STAT = smFind s.marks Reg.TEST_STAT
  diag : t.diag.selfTest = s.diag.selfTest

namespace SameSelfTest

theorem refl (s : State) : SameSelfTest s s := ⟨rfl, rfl, rfl⟩

theorem trans {s t u : State} (h : SameSelfTest s t) (k : SameSelfTest t u) : SameSelfTest s u :=
  ⟨k.reg.trans h.reg, k.mark.trans h.mark, k.diag.trans h.diag⟩

/-- A step that leaves registers, marks and diagnosis alone. -/
theorem record {s t u : State} (h : SameSelfTest s t) (hr : u.regs = t.regs) (hm : u.marks = t.marks) (hd : u.diag = t.diag) :
    SameSelfTest s u :=
  h.trans ⟨State.reg_congr hr _, by rw [hm], by rw [hd]⟩

theorem ite {s t u : State} {c : Prop} [Decidable c] (h : SameSelfTest s t) (k : SameSelfTest s u) :
    SameSelfTest s (if c then t else u) := by split <;> assumption

theorem foldl {α : Type} {s t : State} {l : List α} {f : State → α → State} (h : SameSelfTest s t)
    (k : ∀ u, ∀ x ∈ l, SameSelfTest u (f u x)) : SameSelfTest s (l.foldl f t) := by
  induction l generalizing t with
  | nil => exact h
  | cons x l ih => exact ih (h.trans (k t x (by simp))) fun u y hy => k u y (List.mem_cons_of_mem _ hy)

theorem put {s t : State} (h : SameSelfTest s t) {a : Nat} (f : BitField) (v : Nat) (ha : Reg.TEST_STAT ≠ a) :
    SameSelfTest s (t.put a f v) := h.trans ⟨State.reg_put_ne _ _ _ ha, rfl, rfl⟩

theorem addSat {s t : State} (h : SameSelfTest s t) {a : Nat} (f : BitField) (v : Nat) (ha : Reg.TEST_STAT ≠ a) :
    SameSelfTest s (t.addSat a f v) := by
  unfold State.addSat State.hwPut
  exact ite h (h.put _ _ ha)

theorem get {s t : State} (h : SameSelfTest s t) (f : BitField) : t.get Reg.TEST_STAT f = s.get Reg.TEST_STAT f := by
  rw [State.get, h.reg, State.get]

end SameSelfTest

theorem Diag.selfTest_eq_iff {d e : Diag} : e.selfTest = d.selfTest ↔ e.testAt = d.testAt ∧ e.testUnitAt = d.testUnitAt ∧
    e.testUnitCount = d.testUnitCount ∧ e.testFailed = d.testFailed ∧ e.testWindow = d.testWindow ∧ e.testCancel = d.testCancel := by
  simp [Diag.selfTest]

/-! ### The logging of an error -/

theorem State.capture_selfTest (s : State) (src code b : Nat) : (s.capture src code b).diag.selfTest = s.diag.selfTest := by
  unfold State.capture
  split
  · rfl
  · split
    · rw [State.addSat_diag]
    · split <;> rfl

theorem State.trigger_selfTest (s : State) (src code b : Nat) : (s.trigger src code b).diag.selfTest = s.diag.selfTest := by
  unfold State.trigger State.queueTrigger
  split
  · extract_lets t
    have ht : t.diag = s.diag := by
      simp only [t]
      split
      · exact (s.wakeOn_changes 6).diag
      · rfl
    exact (rfl : _ = t.diag.selfTest).trans (by rw [ht])
  · exact s.capture_selfTest _ _ _

theorem State.holdEvent_selfTest (s : State) (c : Nat) (e : ErrRec) : (s.holdEvent c e).diag.selfTest = s.diag.selfTest := by
  unfold State.holdEvent
  split
  · rw [State.addSat_diag]
  · rfl

theorem State.writeErr_selfTest (s : State) (e : Err) : (s.writeErr e).diag.selfTest = s.diag.selfTest := by
  unfold State.writeErr
  extract_lets r cls burst head d s1 s2 s3 s4 s5 s6
  have h5 : s5.diag.selfTest = s.diag.selfTest := by
    simp only [s5, s4, s3, State.hwSet_diag, State.addTo_diag, State.put_diag, s2, (State.writeBurst_changes s1 _ _).diag]
    rfl
  have h6 : s6.diag.selfTest = s.diag.selfTest := by
    simp only [s6]
    split
    · exact (s5.holdEvent_selfTest _ _).trans h5
    · exact h5
  split
  · exact h6
  · exact h6

theorem State.logLocal_selfTest (s : State) (e : Err) : (s.logLocal e).diag.selfTest = s.diag.selfTest := by
  unfold State.logLocal
  refine (State.trigger_selfTest _ _ _ _).trans ?_
  split
  · rw [State.addSat_diag]
  · exact s.writeErr_selfTest e

theorem State.sendFwd_selfTest (s : State) (c : Nat) (b : Barge) : (s.sendFwd c b).diag.selfTest = s.diag.selfTest := by
  unfold State.sendFwd
  split
  · exact congrArg _ (s.launch_changes _ _ _ _ _).diag
  · exact s.logLocal_selfTest _

theorem State.forwardErr_selfTest (s : State) (c : Nat) (r : ErrRec) : (s.forwardErr c r).diag.selfTest = s.diag.selfTest := by
  unfold State.forwardErr
  generalize [r.w0, r.w1, r.w2, r.w3].zipIdx = l
  induction l generalizing s with
  | nil => rfl
  | cons w l ih => exact (ih _).trans (s.sendFwd_selfTest _ _)

theorem State.logErr_selfTest (s : State) (e : Err) : (s.logErr e).diag.selfTest = s.diag.selfTest := by
  unfold State.logErr
  extract_lets t lchip
  split
  · exact (t.forwardErr_selfTest _ _).trans (s.logLocal_selfTest e)
  · exact s.logLocal_selfTest e

theorem errReg_TEST_STAT : errReg Reg.TEST_STAT = false := by decide

theorem SameSelfTest.logErr {s t : State} (h : SameSelfTest s t) (e : Err) : SameSelfTest s (t.logErr e) :=
  h.trans ⟨t.logErr_reg e errReg_TEST_STAT, (t.logErr_sameMarks e).marks _ errReg_TEST_STAT, t.logErr_selfTest e⟩

/-! ### Ports -/

/-- The registers of lanes lie below those of the self-test. -/
theorem TEST_STAT_ne_TOWL_LANE_STAT (s : State) (p : Nat) {l : Nat} (h : l ∈ s.lanes p) : Reg.TEST_STAT ≠ Reg.TOWL_LANE_STAT l := by
  obtain ⟨i, hi, rfl⟩ := List.mem_map.mp h
  have hb := Fld.TOWL_PORT_MAP.base.get_lt (s.reg (Reg.TOWL_PORT_MAP p))
  have hw := Fld.TOWL_PORT_MAP.width.get_lt (s.reg (Reg.TOWL_PORT_MAP p))
  have hp := Nat.pow_le_pow_right (n := 2) (by decide) (Nat.le_of_lt hw)
  have hi := List.mem_range.mp hi
  simp only [Reg.TEST_STAT, Reg.TOWL_LANE_STAT, blockBase] at *
  omega

theorem TEST_STAT_ne_TOWL_PORT_STAT {p : Nat} (hp : p < 64) : Reg.TEST_STAT ≠ Reg.TOWL_PORT_STAT p := by
  simp only [Reg.TEST_STAT, Reg.TOWL_PORT_STAT, blockBase]
  omega

theorem TEST_STAT_ne_TOWL_PORT_MAP {p : Nat} (hp : p < 64) : Reg.TEST_STAT ≠ Reg.TOWL_PORT_MAP p := by
  simp only [Reg.TEST_STAT, Reg.TOWL_PORT_MAP, blockBase]
  omega

theorem State.timeLost_selfTest (s : State) : SameSelfTest s s.timeLost := by
  unfold State.timeLost
  extract_lets c parent
  refine SameSelfTest.ite (.refl s) (SameSelfTest.logErr (SameSelfTest.put ?_ _ _ (by decide)) _)
  exact (SameSelfTest.refl s).record rfl rfl rfl

theorem State.dropScouts_selfTest (s : State) (p : Nat) : SameSelfTest s (s.dropScouts p) := by
  unfold State.dropScouts
  extract_lets
  exact SameSelfTest.ite ((SameSelfTest.refl s).record rfl rfl rfl) (.refl s)

theorem State.enterState_selfTest (s : State) {p : Nat} (st : Nat) (hp : p < 64) : SameSelfTest s (s.enterState p st) := by
  unfold State.enterState
  extract_lets was t x u toll v w y c
  have hu : SameSelfTest s u := ((SameSelfTest.refl s).put _ _ (TEST_STAT_ne_TOWL_PORT_STAT hp)).record rfl rfl rfl
  have hv : SameSelfTest s v := SameSelfTest.ite hu (hu.record rfl rfl rfl)
  have hw : SameSelfTest s w := SameSelfTest.ite hv (hv.trans (v.dropScouts_selfTest p))
  have hy : SameSelfTest s y := hw.put _ _ (TEST_STAT_ne_TOWL_PORT_MAP hp)
  exact SameSelfTest.ite (SameSelfTest.ite (hy.trans y.timeLost_selfTest) hy) hw

theorem State.portDown_selfTest (s : State) {p : Nat} (f : Bool) (hp : p < 64) : SameSelfTest s (s.portDown p f) := by
  unfold State.portDown
  extract_lets t u v
  have ht : SameSelfTest s t := (SameSelfTest.refl s).foldl fun w l hl => (SameSelfTest.refl w).put _ _ (TEST_STAT_ne_TOWL_LANE_STAT s p hl)
  have hu : SameSelfTest s u := ht.foldl fun w l hl => (SameSelfTest.refl w).addSat _ _ (TEST_STAT_ne_TOWL_LANE_STAT t p hl)
  exact (hu.trans (u.enterState_selfTest pDown hp)).record rfl rfl rfl

/-! ### Units -/

theorem TEST_STAT_ne_coreReg (n : Nat) {x : Nat} (hx : x < 0x1000) : Reg.TEST_STAT ≠ coreRegs n + x := by
  simp only [Reg.TEST_STAT, coreRegs, coreBase, blockBase]
  omega

theorem State.arrayTested_selfTest (s : State) (fails : List TestFail) (n : Nat) : SameSelfTest s (s.arrayTested fails n) := by
  have hn : Reg.TEST_STAT ≠ Reg.ARRAY_FAULT n := TEST_STAT_ne_coreReg n (by decide)
  unfold State.arrayTested
  extract_lets a t
  have ht : SameSelfTest s t := (SameSelfTest.refl s).addSat _ _ hn
  refine SameSelfTest.ite (.refl s) ?_
  split
  · exact ht
  · exact ((((ht.put _ _ hn).put _ _ hn).put _ _ hn)).logErr _

theorem State.setCopies_selfTest (s : State) (c epoch : Nat) : SameSelfTest s (s.setCopies c epoch) :=
  (SameSelfTest.refl s).foldl fun u n _ =>
    SameSelfTest.ite ((SameSelfTest.refl u).put _ _ (TEST_STAT_ne_coreReg n (by decide))) (.refl u)

/-- A unit of a test leaves the request as it stands. -/
theorem State.unitResult_selfTest (s : State) (fails : List TestFail) : SameSelfTest s (s.unitResult fails) := by
  unfold State.unitResult
  extract_lets code u p t
  have hp : p < 64 := BitField.get_lt _ _
  have hu : SameSelfTest s u :=
    ((SameSelfTest.refl s).record (u := s.zeroSram) rfl rfl rfl).trans
      ((State.setCopies_selfTest _ 0 0).trans (State.setCopies_selfTest _ 1 0))
  have ht : SameSelfTest s t := (SameSelfTest.refl s).logErr _
  refine SameSelfTest.ite ((SameSelfTest.refl s).foldl fun v n _ => v.arrayTested_selfTest fails n) ?_
  refine SameSelfTest.ite (hu.foldl fun v _ _ => (SameSelfTest.refl v).logErr _) ?_
  exact SameSelfTest.ite (.refl s) (SameSelfTest.ite (ht.trans (t.portDown_selfTest false hp)) ht)

/-- With no failure a unit of a test of many units leaves the state as it is. -/
theorem State.unitResult_pass {s : State} (h : 1 < testUnits s.testCode) : s.unitResult [] = s := by
  have h1 : s.testCode ≠ 1 := by rintro h1; simp [testUnits, h1] at h
  have h5 : s.testCode ≠ 5 := by rintro h5; simp [testUnits, h5] at h
  simp [State.unitResult, h1, h5]

theorem State.unitResult_zero {s : State} (fails : List TestFail) (h : s.testCode = 5) {b : Nat} (hb : b < 0x1000000000) :
    (s.unitResult fails).byte b = 0 := by
  have hx : s.unitResult fails = fails.foldl (fun w f => w.logErr { code := 0x2E01, info := f.offset.toNat, aux := f.core })
      ((s.zeroSram.setCopies 0 0).setCopies 1 0) := by
    unfold State.unitResult
    extract_lets code
    rw [if_neg (by simp [code, h]), if_pos h]
  have hc : Changes [.regs, .mesh, .idle, .diag, .ibis, .outs] s.zeroSram (s.unitResult fails) := by
    rw [hx]
    exact Changes.foldl ((Changes.step (State.setCopies_changes _ _ _) (State.setCopies_changes _ _ _) rfl).widen rfl)
      fun _ _ => State.logErr_changes _ _
  rw [State.byte_congr (hc.mem rfl) (hc.ecc rfl), State.zeroSram_byte s hb]

/-! ### Quiescence -/

theorem SameRegs.below {l : List Nat} {s t : State} {b : Nat} (h : SameRegs l s t) (hl : ∀ a ∈ l, b ≤ a) :
    ∀ a < b, t.reg a = s.reg a :=
  fun a ha => h a fun hm => Nat.not_le_of_lt ha (hl a hm)

/-- The state of a core is read from registers below the blocks of the die. -/
theorem State.coreState_congr {s t : State} (hr : ∀ a < blockBase 18, t.reg a = s.reg a) {n : Nat} (hn : n < 256) :
    t.coreState n = s.coreState n := by
  have hm : t.reg (Reg.DEV_CORE_MAP (n / 64)) = s.reg (Reg.DEV_CORE_MAP (n / 64)) :=
    hr _ (by simp only [Reg.DEV_CORE_MAP, blockBase]; omega)
  have hs : t.reg (Reg.CORE_STAT n) = s.reg (Reg.CORE_STAT n) :=
    hr _ (by simp only [Reg.CORE_STAT, coreRegs, coreBase, blockBase]; omega)
  have he : t.enabled n = s.enabled n := by simp only [State.enabled, State.hasBit, State.get, hm]
  have hg : t.get (Reg.CORE_STAT n) Fld.CORE_STAT.state = s.get (Reg.CORE_STAT n) Fld.CORE_STAT.state := by simp only [State.get, hs]
  rw [State.coreState, he, hg, State.coreState]

/-- Quiescence is read from what the cores, the mesh and the engines do, and from whether a unit of a test runs (R521). -/
theorem State.quiescent_congr {s t : State} (hr : ∀ a < blockBase 18, t.reg a = s.reg a) (hc : t.cores = s.cores) (hd : t.die = s.die)
    (hm : t.mesh = s.mesh) (hf : t.fabric = s.fabric) (hh : t.host = s.host) (hu : t.diag.testUnitAt = s.diag.testUnitAt) :
    t.quiescent = s.quiescent := by
  have hst : ∀ n ∈ List.range 256, t.coreState n = s.coreState n := fun n hn => State.coreState_congr hr (List.mem_range.mp hn)
  have hcores : t.coresQuiet = s.coresQuiet := by
    simp only [State.coresQuiet, State.lacksRecord, State.core, hc]
    congr 1 <;>
    · rw [Bool.eq_iff_iff, List.all_eq_true, List.all_eq_true]
      exact forall₂_congr fun n hn => by rw [hst n hn]
  have hmesh : t.meshQuiet = s.meshQuiet := by simp only [State.meshQuiet, State.port, State.core, hm, hf, hc]
  have hengines : t.enginesQuiet = s.enginesQuiet := by
    simp only [State.enginesQuiet, State.core, State.ferry, State.get, hc, hf, hh, hu, hr Reg.WSWP_STAT (by decide)]
  simp only [State.quiescent, hcores, hmesh, hengines, hd, hf, State.isWharf, State.get, hr Reg.STRM_MODE (by decide)]

theorem State.quiescedHost_congr {s t : State} (hr : ∀ a < blockBase 18, t.reg a = s.reg a) : t.quiescedHost = s.quiescedHost := by
  have hst : ∀ n ∈ List.range 256, t.coreState n = s.coreState n := fun n hn => State.coreState_congr hr (List.mem_range.mp hn)
  have hb : t.anyBusy = s.anyBusy := by
    rw [Bool.eq_iff_iff, State.anyBusy, State.anyBusy, List.any_eq_true, List.any_eq_true]
    exact exists_congr fun n => and_congr_right fun hn => by rw [hst n hn]
  simp only [State.quiescedHost, hb, State.get, hr Reg.LEDG_POLICY (by decide)]

/-- The points of the reaches. -/
def opselRegs : List Nat := (List.range 16).map Reg.PACE_OPSEL

theorem State.requestOp_sameRegs (s : State) {r : Nat} (t : Nat) (hr : r < 16) : SameRegsButErr opselRegs s (s.requestOp r t) := by
  unfold State.requestOp
  split
  · exact (s.logErr_regs _).widen (by simp)
  · exact ((s.setTarget_sameRegs r t).toErr).widen (by simpa [opselRegs] using ⟨r, hr, rfl⟩)

theorem State.applyOpset_sameRegs (s : State) (target mask : Nat) : SameRegsButErr opselRegs s (s.applyOpset target mask) := by
  have hl : ∀ r ∈ (List.range 16).filter fun r => mask.testBit r, r < 16 := fun r hr => List.mem_range.mp (List.mem_filter.mp hr).1
  unfold State.applyOpset
  generalize (List.range 16).filter (fun r => mask.testBit r) = l at hl ⊢
  induction l generalizing s with
  | nil => exact SameRegsButErr.refl _ _
  | cons r l ih =>
    exact (s.requestOp_sameRegs _ (hl r (by simp))).trans (ih _ fun q hq => hl q (List.mem_cons_of_mem _ hq))

/-- Noting quiescence may ask for points, which are logged where the ceiling does not allow them. -/
theorem State.noteQuiet_sameRegs (s : State) : SameRegsButErr opselRegs s s.noteQuiet := by
  have hr : ∀ u : State, u.regs = s.regs → SameRegsButErr opselRegs s u := fun u h => (SameRegs.ofRegs h).toErr
  unfold State.noteQuiet
  extract_lets t apply idle u
  split
  · exact hr _ rfl
  · split
    · exact hr _ rfl
    · split
      · exact (hr u rfl).trans (u.applyOpset_sameRegs _ _)
      · exact hr u rfl

theorem TEST_STAT_ne_PACE_OPSEL (r : Nat) (hr : r < 16) : Reg.TEST_STAT ≠ Reg.PACE_OPSEL r := by
  simp only [Reg.TEST_STAT, Reg.PACE_OPSEL, blockBase]
  omega

theorem State.setTarget_selfTest (s : State) {r : Nat} (t : Nat) (hr : r < 16) : SameSelfTest s (s.setTarget r t) := by
  have hn := TEST_STAT_ne_PACE_OPSEL r hr
  have h := (SameSelfTest.refl s).put Fld.PACE_OPSEL.target_op t hn
  exact SameSelfTest.ite (h.put _ _ hn) h

theorem State.noteQuiet_selfTest (s : State) : SameSelfTest s s.noteQuiet := by
  unfold State.noteQuiet
  extract_lets t apply idle u
  have hu : SameSelfTest s u := (SameSelfTest.refl s).record rfl rfl rfl
  refine SameSelfTest.ite ((SameSelfTest.refl s).record rfl rfl rfl) (SameSelfTest.ite (.refl s) (SameSelfTest.ite ?_ hu))
  refine hu.foldl fun v r hr => ?_
  have hr := List.mem_range.mp (List.mem_filter.mp hr).1
  exact SameSelfTest.ite ((SameSelfTest.refl v).logErr _) (v.setTarget_selfTest _ hr)

/-- Noting quiescence leaves which ports are ACTIVE. -/
theorem State.noteQuiet_portActive (s : State) {p : Nat} (hp : p < 64) : s.noteQuiet.portActive p = s.portActive p := by
  have he : errReg (Reg.TOWL_PORT_STAT p) = false := (by decide : ∀ q : Fin 64, errReg (Reg.TOWL_PORT_STAT q) = false) ⟨p, hp⟩
  have hl : Reg.TOWL_PORT_STAT p ∉ opselRegs := by
    simp only [opselRegs, List.mem_map, List.mem_range, not_exists, not_and]
    intro r hr
    simp only [Reg.TOWL_PORT_STAT, Reg.PACE_OPSEL, blockBase]
    omega
  rw [State.portActive, State.get, s.noteQuiet_sameRegs _ he hl]
  rfl

end Sys2Proof.Machine
end

section
/-! SUPPORT. What the commands of the self-test come to (R144, R563 to R567), with the obligation on it. -/

namespace Sys2Proof.Machine

/-! ### The end of a request -/

theorem State.testEnds_sameRegs (s : State) (r : Nat) : SameRegs [Reg.TEST_STAT] s (s.testEnds r) := by
  have h : SameRegs [Reg.TEST_STAT] s ((s.put Reg.TEST_STAT Fld.TEST_STAT.state 0).put Reg.TEST_STAT Fld.TEST_STAT.result r) :=
    State.put_step (s.put_sameRegs _ _ _) _ _ _ (by simp)
  exact h.trans (SameRegs.ofRegs rfl)

theorem State.testEnds_get (s : State) (r : Nat) (f : BitField) :
    (s.testEnds r).get Reg.TEST_STAT f =
      ((s.put Reg.TEST_STAT Fld.TEST_STAT.state 0).put Reg.TEST_STAT Fld.TEST_STAT.result r).get Reg.TEST_STAT f :=
  State.get_congr rfl _ _

theorem State.testEnds_state (s : State) (r : Nat) : (s.testEnds r).testState = 0 := by
  rw [State.testState, s.testEnds_get, State.get_put_other _ _ _ _ _ (by decide), State.get_put_same _ _ _ _ (by decide)]
  rfl

theorem State.testEnds_result (s : State) {r : Nat} (h : r < 8) : (s.testEnds r).get Reg.TEST_STAT Fld.TEST_STAT.result = r := by
  rw [s.testEnds_get, State.get_put_same _ _ _ _ (by decide)]
  exact Nat.mod_eq_of_lt h

/-- The end of a request leaves the fields below the result. -/
theorem State.testEnds_below (s : State) (r : Nat) (f : BitField) (h : f.lo + f.width ≤ 58) :
    (s.testEnds r).get Reg.TEST_STAT f = s.get Reg.TEST_STAT f := by
  rw [s.testEnds_get, State.get_put_other _ _ _ _ _ (.inr h), State.get_put_other _ _ _ _ _ (.inr (by simpa using by omega))]

theorem State.testEnds_testCode (s : State) (r : Nat) : (s.testEnds r).testCode = s.testCode := s.testEnds_below r _ (by decide)

/-! ### A request -/

/-- A request is taken down: TEST_REQ as written, TEST_STAT begun anew with the test asked for (R567). -/
def State.testAsked (s : State) (v : Word) : State :=
  let t := (s.noteQuiet.plainWrite Reg.TEST_REQ v).setReg Reg.TEST_STAT (Fld.TEST_STAT.test.set 0 (Fld.TEST_REQ.test.get v))
  { t with diag := { t.diag with testAt := t.now, testUnitAt := none, testUnitCount := 0, testFailed := false } }

/-- A request that is held waits for a window, and wakes an idle die (R523, R566). -/
def State.testHeld (s : State) (v : Word) : State := ((s.testAsked v).put Reg.TEST_STAT Fld.TEST_STAT.state 1).wakeOn 6

/-- The test that TEST_REQ asks for is none that the device has, or calibrates a port that is not ACTIVE (R567). -/
def State.testUndefined (s : State) (v : Word) : Prop :=
  Fld.TEST_REQ.test.get v = 0 ∨ 5 < Fld.TEST_REQ.test.get v ∨
    (Fld.TEST_REQ.test.get v = 4 ∧ s.portActive (Fld.TEST_REQ.port.get v) = false)

/-- The request may not wait, and finds no window (R566). -/
def State.testLate (s : State) (v : Word) : Prop :=
  Fld.TEST_REQ.timeout_ms.get v = 0 ∧ s.windowOpen = false ∧ s.quiescedHost = false

theorem State.testAsked_sameRegs (s : State) (v : Word) : SameRegs [Reg.TEST_REQ, Reg.TEST_STAT] s.noteQuiet (s.testAsked v) :=
  ((s.noteQuiet.plainWrite_sameRegs Reg.TEST_REQ v).widen (by simp)).trans
    (((State.setReg_sameRegs _ _ _).trans (SameRegs.ofRegs rfl)).widen (by simp))

theorem State.testAsked_testCode (s : State) (v : Word) : (s.testAsked v).testCode = Fld.TEST_REQ.test.get v := by
  have h : (s.testAsked v).reg Reg.TEST_STAT = Fld.TEST_STAT.test.set 0 (Fld.TEST_REQ.test.get v) := State.reg_setReg_same _ _ _
  rw [State.testCode, State.get, h, BitField.get_set_same _ _ _ (by decide)]
  exact Nat.mod_eq_of_lt (BitField.get_lt _ _)

theorem State.testAsked_diag (s : State) (v : Word) : (s.testAsked v).diag =
    { s.noteQuiet.diag with testAt := s.now, testUnitAt := none, testUnitCount := 0, testFailed := false } := by
  have hn : s.noteQuiet.now = s.now := s.noteQuiet_changes.now
  rw [State.testAsked]
  simp only [State.setReg_diag, State.plainWrite_diag, State.setReg_now, State.plainWrite_now, hn]

theorem State.testAsked_portActive (s : State) (v : Word) {p : Nat} (hp : p < 64) : (s.testAsked v).portActive p = s.portActive p := by
  have hn : Reg.TOWL_PORT_STAT p ∉ [Reg.TEST_REQ, Reg.TEST_STAT] := by
    simp only [Reg.TOWL_PORT_STAT, Reg.TEST_REQ, Reg.TEST_STAT, blockBase, List.mem_cons, List.not_mem_nil, or_false]
    omega
  rw [← s.noteQuiet_portActive hp, State.portActive, State.get, s.testAsked_sameRegs v _ hn]
  rfl

theorem State.testRequest_refused {s : State} {v : Word} (h0 : s.testState = 0) (h : s.testUndefined v) :
    (s.testRequest v).1 = ((s.testAsked v).testEnds 5).logErr { code := 0x3E02 } := by
  have hp := s.testAsked_portActive v (BitField.get_lt Fld.TEST_REQ.port v)
  unfold State.testRequest
  extract_lets test a b diag c d
  have hc : c = s.testAsked v := rfl
  rw [if_neg (by simp [h0]), if_pos]
  · rfl
  · rw [hc, hp]
    simpa [State.testUndefined, test] using h

theorem State.testRequest_held {s : State} {v : Word} (h0 : s.testState = 0) (h : ¬s.testUndefined v) :
    (s.testRequest v).1 =
      if Fld.TEST_REQ.timeout_ms.get v = 0 ∧ (!(s.testHeld v).windowOpen) = true ∧ (!(s.testHeld v).quiescedHost) = true then
        ((s.testHeld v).testEnds 3).logErr { code := 0x4E01 }
      else s.testHeld v := by
  have hp := s.testAsked_portActive v (BitField.get_lt Fld.TEST_REQ.port v)
  unfold State.testRequest
  extract_lets test a b diag c d
  have hc : c = s.testAsked v := rfl
  have hd : d = s.testHeld v := rfl
  rw [if_neg (by simp [h0]), if_neg, hd]
  · split <;> rfl
  · rw [hc, hp]
    simpa [State.testUndefined, test] using h

/-! ### A request that is held -/

theorem State.wakeOn_sameRegs (s : State) (c : Nat) : SameRegs [Reg.IDLE_STATE] s (s.wakeOn c) := by
  unfold State.wakeOn State.atWork
  extract_lets idle t idle' u lat w
  have hu : SameRegs [Reg.IDLE_STATE] s u := by
    simp only [u, t]
    split <;> exact SameRegs.ofRegs rfl
  split
  · exact hu
  · exact (State.put_step hu _ _ _ (by simp)).trans (SameRegs.ofRegs rfl)

/-- An event that is no work leaves since when the die has been quiescent. -/
theorem State.wakeOn_quiet (s : State) {c : Nat} (h : 3 < c) : (s.wakeOn c).idle.quiet = s.idle.quiet := by
  have hc : ¬c ≤ 3 := by omega
  unfold State.wakeOn
  simp only [hc, if_false]
  split <;> rfl

theorem State.testHeld_sameRegs (s : State) (v : Word) :
    SameRegs [Reg.TEST_REQ, Reg.TEST_STAT, Reg.IDLE_STATE] s.noteQuiet (s.testHeld v) :=
  (((s.testAsked_sameRegs v).widen (by simp)).trans ((State.put_sameRegs _ _ _ _).widen (by simp))).trans
    ((State.wakeOn_sameRegs _ 6).widen (by simp))

theorem State.testHeld_changes (s : State) (v : Word) : Changes [.regs, .idle, .diag] s.noteQuiet (s.testHeld v) := by
  have h : Changes [.regs, .diag] s.noteQuiet (s.testAsked v) :=
    Changes.record (((State.plainWrite_changes _ _ _).widen rfl).step (State.setReg_changes _ _ _) rfl)
      (by intro p; cases p <;> first | exact .inl rfl | exact .inr ⟨rfl, rfl⟩ | exact .inr (by dsimp only [Part.same]))
  exact ((h.widen rfl).step (State.put_changes _ _ _ _) rfl).step (State.wakeOn_changes _ _) rfl

theorem State.testHeld_diag (s : State) (v : Word) : (s.testHeld v).diag = (s.testAsked v).diag := (State.wakeOn_changes _ _).diag

theorem State.testHeld_get (s : State) (v : Word) (f : BitField) :
    (s.testHeld v).get Reg.TEST_STAT f = ((s.testAsked v).put Reg.TEST_STAT Fld.TEST_STAT.state 1).get Reg.TEST_STAT f := by
  rw [State.get, State.testHeld, State.wakeOn_sameRegs _ _ _ (by decide), State.get]

theorem State.testHeld_testState (s : State) (v : Word) : (s.testHeld v).testState = 1 := by
  rw [State.testState, s.testHeld_get, State.get_put_same _ _ _ _ (by decide)]
  rfl

theorem State.testHeld_testCode (s : State) (v : Word) : (s.testHeld v).testCode = Fld.TEST_REQ.test.get v := by
  rw [State.testCode, s.testHeld_get, State.get_put_other _ _ _ _ _ (by decide)]
  exact s.testAsked_testCode v

/-- The die as a request finds it: quiescence has been noted, and no unit of a test is in progress. -/
def State.quietNoted (s : State) : State := { s.noteQuiet with diag := { s.noteQuiet.diag with testUnitAt := none } }

/-- A request that is held still finds its window, or none, in the die as it was. -/
theorem State.testHeld_late_iff (s : State) (v : Word) : (s.testHeld v).testLate v ↔ s.quietNoted.testLate v := by
  have hr : ∀ a < blockBase 18, (s.testHeld v).reg a = s.quietNoted.reg a := (s.testHeld_sameRegs v).below (by decide)
  have hc := s.testHeld_changes v
  have hd := (s.testHeld_diag v).trans (s.testAsked_diag v)
  have hi : (s.testHeld v).idle.quiet = s.quietNoted.idle.quiet := State.wakeOn_quiet _ (by decide)
  have hq : (s.testHeld v).quiescent = s.quietNoted.quiescent :=
    State.quiescent_congr hr hc.cores hc.die hc.mesh hc.fabric hc.host (by rw [hd]; rfl)
  have hn : (s.testHeld v).now = s.quietNoted.now := hc.now
  rw [State.testLate, State.testLate, State.quiescedHost_congr hr, State.windowOpen, State.windowOpen, hq, hi, hn]

/-! ### TEST_GO -/

theorem testGo_busy {s : State} {v : Word} (h : s.testState ≠ 0) : exec (.testGo v) s = .next (s.logErr { code := 0x3E02 }) :=
  congrArg (fun x : State × Nat => Host.Outcome.next x.1) (if_pos h)

theorem testGo_refused {s : State} {v : Word} (h0 : s.testState = 0) (h : s.testUndefined v) : Gives (.testGo v) s fun t =>
    t.testState = 0 ∧ t.get Reg.TEST_STAT Fld.TEST_STAT.result = 5 ∧ t.testCode = Fld.TEST_REQ.test.get v ∧
      SameRegsButErr [Reg.TEST_REQ, Reg.TEST_STAT] s.noteQuiet t := by
  have hl := fun f => ((s.testAsked v).testEnds 5).logErr_get { code := 0x3E02 } f errReg_TEST_STAT
  refine Gives.intro (congrArg Host.Outcome.next (State.testRequest_refused h0 h)) ⟨?_, ?_, ?_, ?_⟩
  · exact (hl _).trans (State.testEnds_state _ _)
  · exact (hl _).trans (State.testEnds_result _ (by decide))
  · exact (hl _).trans ((State.testEnds_testCode _ _).trans (s.testAsked_testCode v))
  · exact ((s.testAsked_sameRegs v).trans ((State.testEnds_sameRegs _ _).widen (by simp))).toErr.trans
      ((State.logErr_regs _ _).widen (by simp))

theorem testGo_held {s : State} {v : Word} (h0 : s.testState = 0) (h : ¬s.testUndefined v) (hl : ¬s.quietNoted.testLate v) :
    Gives (.testGo v) s fun t =>
      t.testState = 1 ∧ t.testCode = Fld.TEST_REQ.test.get v ∧ t.diag.testAt = s.now ∧ t.diag.testUnitAt = none ∧
      t.diag.testUnitCount = 0 ∧ SameRegs [Reg.TEST_REQ, Reg.TEST_STAT, Reg.IDLE_STATE] s.noteQuiet t := by
  have hd := (s.testHeld_diag v).trans (s.testAsked_diag v)
  have hx := State.testRequest_held h0 h
  rw [if_neg (by simpa [State.testLate] using mt (s.testHeld_late_iff v).mp hl)] at hx
  exact Gives.intro (congrArg Host.Outcome.next hx) ⟨s.testHeld_testState v, s.testHeld_testCode v, by rw [hd], by rw [hd], by rw [hd],
    s.testHeld_sameRegs v⟩

theorem testGo_late {s : State} {v : Word} (h0 : s.testState = 0) (h : ¬s.testUndefined v) (hl : s.quietNoted.testLate v) :
    Gives (.testGo v) s fun t =>
      t.testState = 0 ∧ t.get Reg.TEST_STAT Fld.TEST_STAT.result = 3 ∧ t.testCode = Fld.TEST_REQ.test.get v ∧
      t.diag.testUnitAt = none ∧ SameRegsButErr [Reg.TEST_REQ, Reg.TEST_STAT] s.noteQuiet t := by
  have hx := State.testRequest_held h0 h
  rw [if_pos (by simpa [State.testLate] using (s.testHeld_late_iff v).mpr hl)] at hx
  have hg := fun f => ((s.testHeld v).testEnds 3).logErr_get { code := 0x4E01 } f errReg_TEST_STAT
  refine Gives.intro (congrArg Host.Outcome.next hx) ⟨?_, ?_, ?_, ?_, ?_⟩
  · exact (hg _).trans (State.testEnds_state _ _)
  · exact (hg _).trans (State.testEnds_result _ (by decide))
  · exact (hg _).trans ((State.testEnds_testCode _ _).trans (s.testHeld_testCode v))
  · exact (Diag.selfTest_eq_iff.mp (State.logErr_selfTest _ _)).2.1
  · intro a he ha
    have hi : a ≠ Reg.IDLE_STATE := by rintro rfl; exact absurd he (by decide)
    simp only [List.mem_cons, List.not_mem_nil, or_false, not_or] at ha
    rw [State.logErr_reg _ _ he, State.testEnds_sameRegs _ _ _ (by simpa using ha.2), s.testHeld_sameRegs v _ (by simp [ha, hi])]

/-! ### TEST_CANCEL -/

theorem testCancel_idle {s : State} (h : s.testState = 0) : exec .testCancel s = .next s := congrArg Host.Outcome.next (if_pos h)

theorem testCancel_noted {s : State} (h : s.testState ≠ 0) (hu : s.diag.testUnitAt ≠ none) : Gives .testCancel s fun t =>
    t.diag = { s.diag with testCancel := true } ∧ t.regs = s.regs := by
  have hx : s.testCancelNow = { s with diag := { s.diag with testCancel := true } } :=
    (if_neg h).trans (if_pos (Option.isSome_iff_ne_none.mpr hu))
  exact Gives.intro (congrArg Host.Outcome.next hx) ⟨rfl, rfl⟩

theorem testCancel_ends {s : State} (h : s.testState ≠ 0) (hu : s.diag.testUnitAt = none) : Gives .testCancel s fun t =>
    t.testState = 0 ∧ t.get Reg.TEST_STAT Fld.TEST_STAT.result = 4 ∧ SameRegs [Reg.TEST_STAT] s t := by
  have hx : s.testCancelNow = s.testEnds 4 := (if_neg h).trans (if_neg (by simp [hu]))
  exact Gives.intro (congrArg Host.Outcome.next hx) ⟨s.testEnds_state 4, s.testEnds_result (by decide), s.testEnds_sameRegs 4⟩

/-! ### TEST_UNIT_START -/

/-- A unit starts, the first of its window counted with it (R564). -/
def State.unitStarts (s : State) : State :=
  let s := if s.diag.testWindow then s else s.addSat Reg.TEST_STAT Fld.TEST_STAT.windows 1
  let s := s.put Reg.TEST_STAT Fld.TEST_STAT.state 2
  { s with diag := { s.diag with testUnitAt := some s.now, testWindow := true } }

theorem State.unitStarts_now (s : State) : s.unitStarts.now = s.now := by
  unfold State.unitStarts
  dsimp only
  split <;> simp

theorem State.unitStarts_testUnitAt (s : State) : s.unitStarts.diag.testUnitAt = some s.now := by
  unfold State.unitStarts
  dsimp only
  split <;> simp

theorem State.unitStarts_testState (s : State) : s.unitStarts.testState = 2 :=
  (State.get_congr rfl _ _).trans (State.get_put_same _ _ _ _ (by decide))

/-- A register that nothing has happened to in the beat in progress has been written in no field. -/
theorem State.written_unmarked {s : State} {a : Nat} (h : smFind s.marks a = none) (f : BitField) : s.written a f = false := by
  simp [State.written, State.mark, h]

/-- A field that counts and saturates, in a register that no write has set in the beat in progress. -/
theorem State.get_addSat {s : State} {a : Nat} (h : smFind s.marks a = none) (f : BitField) (n : Nat) (hf : f.lo + f.width ≤ 64) :
    (s.addSat a f n).get a f = min (s.get a f + n) (2 ^ f.width - 1) := by
  rw [State.addSat, State.hwPut, State.written_unmarked h, if_neg (by decide), State.get_put_same _ _ _ _ hf]
  exact Nat.mod_eq_of_lt (Nat.lt_of_le_of_lt (Nat.min_le_right _ _) (Nat.sub_lt (Nat.two_pow_pos _) (by decide)))

theorem State.unitStarts_windows {s : State} (h : smFind s.marks Reg.TEST_STAT = none) :
    s.unitStarts.get Reg.TEST_STAT Fld.TEST_STAT.windows = if s.diag.testWindow then s.get Reg.TEST_STAT Fld.TEST_STAT.windows
      else min (s.get Reg.TEST_STAT Fld.TEST_STAT.windows + 1) (2 ^ 16 - 1) := by
  refine (State.get_congr rfl _ _).trans ((State.get_put_other _ _ _ _ _ (by decide)).trans ?_)
  split
  · rfl
  · exact State.get_addSat h _ _ (by decide)

/-- A unit starts with a quiesced host at once, else where the die has been quiescent for 10 µs. -/
theorem execTestUnitStart_starts {s : State} (h : s.testState ≠ 0) (hu : s.diag.testUnitAt = none) (hi : s.idle.state = 0)
    (hq : s.quiescedHost = true ∨ s.testCode ≠ 5 ∧ s.quiescent = true) :
    execTestUnitStart s = .next (if s.quiescedHost then s.noteQuiet
      else s.noteQuiet.advanceTo (s.noteQuiet.idle.quiet.getD s.noteQuiet.now + 10000000)).unitStarts := by
  unfold execTestUnitStart State.unitStarts
  rw [if_neg (by simp [h, hu, hi]), if_neg]
  rcases hq with hq | ⟨h5, hd⟩
  · simp [hq]
  · simp [h5, hd]

theorem testUnitStart_quiesced {s : State} (h : s.testState ≠ 0) (hu : s.diag.testUnitAt = none) (hi : s.idle.state = 0)
    (hq : s.quiescedHost = true) : Gives .testUnitStart s fun t =>
      t.now = s.now ∧ t.diag.testUnitAt = some s.now ∧ t.testState = 2 ∧
      (smFind s.marks Reg.TEST_STAT = none → t.get Reg.TEST_STAT Fld.TEST_STAT.windows =
        if s.diag.testWindow then s.get Reg.TEST_STAT Fld.TEST_STAT.windows
        else min (s.get Reg.TEST_STAT Fld.TEST_STAT.windows + 1) (2 ^ 16 - 1)) := by
  have hx := execTestUnitStart_starts h hu hi (.inl hq)
  rw [if_pos hq] at hx
  have hn : s.noteQuiet.now = s.now := s.noteQuiet_changes.now
  have hs := s.noteQuiet_selfTest
  obtain ⟨-, -, -, -, hw, -⟩ := Diag.selfTest_eq_iff.mp hs.diag
  refine Gives.intro hx ⟨by rw [State.unitStarts_now, hn], by rw [State.unitStarts_testUnitAt, hn], State.unitStarts_testState _,
    fun hm => ?_⟩
  rw [State.unitStarts_windows (hs.mark.trans hm), hw, hs.get]

theorem testUnitStart_window {s : State} {t0 : Nat} (h : s.testState ≠ 0) (hu : s.diag.testUnitAt = none) (hi : s.idle.state = 0)
    (hq : s.quiescedHost = false) (h5 : s.testCode ≠ 5) (hd : s.quiescent = true) (ht : s.noteQuiet.idle.quiet = some t0) :
    Gives .testUnitStart s fun t => t.now = max s.now (t0 + 10000000) ∧ t.diag.testUnitAt = some t.now ∧ t.testState = 2 := by
  have hx := execTestUnitStart_starts h hu hi (.inr ⟨h5, hd⟩)
  rw [if_neg (by simp [hq]), ht, Option.getD_some] at hx
  have hn : s.noteQuiet.now = s.now := s.noteQuiet_changes.now
  exact Gives.intro hx ⟨by rw [State.unitStarts_now, State.advanceTo_now, hn],
    by rw [State.unitStarts_testUnitAt, State.unitStarts_now], State.unitStarts_testState _⟩

theorem testUnitStart_waits {s : State} (h : s.testState ≠ 0) (hu : s.diag.testUnitAt = none) (hi : s.idle.state = 0)
    (hq : s.quiescedHost = false) (hd : s.quiescent = false) : exec .testUnitStart s = .next s := by
  show execTestUnitStart s = _
  simp [execTestUnitStart, h, hu, hi, hq, hd]

/-! ### TEST_UNIT_END -/

/-- A unit that has ended is counted, and the code of the first failure noted (R563, R565). -/
def State.unitCounted (s : State) (fails : List TestFail) : State :=
  let s := (s.unitResult fails).addSat Reg.TEST_STAT Fld.TEST_STAT.units 1
  if fails.isEmpty ∨ s.get Reg.TEST_STAT Fld.TEST_STAT.first_code ≠ 0 then s
  else s.put Reg.TEST_STAT Fld.TEST_STAT.first_code (failCode s.testCode)

/-- A unit has ended, and whether the test has failed is known. -/
def State.unitDone (s : State) (fails : List TestFail) : State :=
  let s := s.unitCounted fails
  { s with diag := { s.diag with
    testUnitAt := none, testUnitCount := s.diag.testUnitCount + 1, testFailed := s.diag.testFailed || !fails.isEmpty } }

theorem execTestUnitEnd_ends {s : State} (fails : List TestFail) (h : s.diag.testUnitAt ≠ none) :
    execTestUnitEnd fails s = .next (s.unitDone fails).afterUnit := if_neg (by simpa using h)

theorem State.unitDone_diag (s : State) (fails : List TestFail) :
    (s.unitDone fails).diag.testUnitAt = none ∧ (s.unitDone fails).diag.testUnitCount = s.diag.testUnitCount + 1 ∧
    (s.unitDone fails).diag.testFailed = (s.diag.testFailed || !fails.isEmpty) ∧
    (s.unitDone fails).diag.testCancel = s.diag.testCancel := by
  obtain ⟨-, -, hc, hf, -, hk⟩ := Diag.selfTest_eq_iff.mp (s.unitResult_selfTest fails).diag
  have hd : (s.unitCounted fails).diag = (s.unitResult fails).diag := by
    unfold State.unitCounted
    dsimp only
    split <;> simp
  simp only [State.unitDone, hd, hc, hf, hk, and_self]

/-- The counts of TEST_STAT lie below its test code, and its first failure above them. -/
theorem State.unitDone_get (s : State) (fails : List TestFail) {f : BitField} (h : f.lo + f.width ≤ 32 ∨ 48 ≤ f.lo) :
    (s.unitDone fails).get Reg.TEST_STAT f = ((s.unitResult fails).addSat Reg.TEST_STAT Fld.TEST_STAT.units 1).get Reg.TEST_STAT f := by
  refine (State.get_congr (s := s.unitCounted fails) rfl _ _).trans ?_
  unfold State.unitCounted
  dsimp only
  split
  · rfl
  · exact State.get_put_other _ _ _ _ _ (by simpa using by omega)

theorem State.unitDone_testCode (s : State) (fails : List TestFail) : (s.unitDone fails).testCode = s.testCode := by
  refine (s.unitDone_get fails (by decide)).trans (Eq.trans ?_ ((s.unitResult_selfTest fails).get _))
  unfold State.addSat State.hwPut
  split
  · rfl
  · exact State.get_put_other _ _ _ _ _ (by decide)

theorem State.unitDone_units {s : State} (fails : List TestFail) (h : smFind s.marks Reg.TEST_STAT = none) :
    (s.unitDone fails).get Reg.TEST_STAT Fld.TEST_STAT.units = min (s.get Reg.TEST_STAT Fld.TEST_STAT.units + 1) (2 ^ 16 - 1) := by
  have hu := s.unitResult_selfTest fails
  rw [s.unitDone_get fails (by decide), State.get_addSat (hu.mark.trans h) _ _ (by decide), hu.get]

theorem State.unitDone_byte (s : State) (fails : List TestFail) (b : Nat) : (s.unitDone fails).byte b = (s.unitResult fails).byte b := by
  have hu : (s.unitCounted fails).mem = (s.unitResult fails).mem ∧ (s.unitCounted fails).ecc = (s.unitResult fails).ecc := by
    unfold State.unitCounted
    dsimp only
    split <;> simp
  exact State.byte_congr (s := s.unitResult fails) hu.1 hu.2 b

/-- A unit that passes, of a test of many, writes TEST_STAT alone. -/
theorem State.unitDone_pass_sameRegs {s : State} (h : 1 < testUnits s.testCode) : SameRegs [Reg.TEST_STAT] s (s.unitDone []) := by
  have hu : SameRegs [Reg.TEST_STAT] s (s.addSat Reg.TEST_STAT Fld.TEST_STAT.units 1) :=
    State.hwPut_step (SameRegs.refl _ _) _ _ _ (by simp)
  rw [State.unitDone, State.unitCounted, State.unitResult_pass h]
  exact hu.trans (SameRegs.ofRegs rfl)

theorem testUnitEnd_cancelled {s : State} (fails : List TestFail) (h : s.diag.testUnitAt ≠ none) (hc : s.diag.testCancel = true) :
    Gives (.testUnitEnd fails) s fun t =>
      t.diag.testUnitAt = none ∧ t.testState = 0 ∧ t.get Reg.TEST_STAT Fld.TEST_STAT.result = 4 := by
  obtain ⟨-, -, -, hk⟩ := s.unitDone_diag fails
  have hx := execTestUnitEnd_ends fails h
  rw [State.afterUnit, if_pos (hk.trans hc)] at hx
  exact Gives.intro hx ⟨rfl, State.testEnds_state _ _, State.testEnds_result _ (by decide)⟩

theorem testUnitEnd_last {s : State} (fails : List TestFail) (h : s.diag.testUnitAt ≠ none) (hc : s.diag.testCancel = false)
    (hl : testUnits s.testCode ≤ s.diag.testUnitCount + 1) : Gives (.testUnitEnd fails) s fun t =>
      t.diag.testUnitAt = none ∧ t.testState = 0 ∧
      t.get Reg.TEST_STAT Fld.TEST_STAT.result = (if s.diag.testFailed = true ∨ fails ≠ [] then 2 else 1) ∧
      (smFind s.marks Reg.TEST_STAT = none →
        t.get Reg.TEST_STAT Fld.TEST_STAT.units = min (s.get Reg.TEST_STAT Fld.TEST_STAT.units + 1) (2 ^ 16 - 1)) ∧
      (s.testCode = 5 → ∀ b < 0x1000000000, t.byte b = 0) := by
  obtain ⟨-, hn, hf, hk⟩ := s.unitDone_diag fails
  have hx := execTestUnitEnd_ends fails h
  rw [State.afterUnit, if_neg (by simp [hk, hc]), if_pos (.inl (by rwa [s.unitDone_testCode, hn])), hf] at hx
  refine Gives.intro hx ⟨rfl, State.testEnds_state _ _, ?_, fun hm => ?_, fun h5 b hb => ?_⟩
  · rw [State.testEnds_result _ (by split <;> decide)]
    simp
  · exact (State.testEnds_below _ _ _ (by decide)).trans (State.unitDone_units fails hm)
  · have he := State.testEnds_changes (s.unitDone fails) (if (s.diag.testFailed || !fails.isEmpty) = true then 2 else 1)
    rw [State.byte_congr (he.mem rfl) (he.ecc rfl), s.unitDone_byte, State.unitResult_zero fails h5 hb]

theorem testUnitEnd_goesOn {s : State} (h : s.diag.testUnitAt ≠ none) (hc : s.diag.testCancel = false)
    (hl : ¬testUnits s.testCode ≤ s.diag.testUnitCount + 1) (hf : s.diag.testFailed = false) : Gives (.testUnitEnd []) s fun t =>
      t.diag.testUnitAt = none ∧ t.diag.testUnitCount = s.diag.testUnitCount + 1 ∧ SameRegs [Reg.TEST_STAT] s t := by
  obtain ⟨hu, hn, hd, hk⟩ := s.unitDone_diag []
  have hr := State.unitDone_pass_sameRegs (s := s) (by omega)
  have hx := execTestUnitEnd_ends [] h
  rw [State.afterUnit, if_neg (by simp [hk, hc]), if_neg (by simp [s.unitDone_testCode, hn, hd, hf, hl])] at hx
  refine Gives.intro hx ?_
  split
  · exact ⟨hu, hn, hr⟩
  · exact ⟨hu, hn, (State.put_step hr _ _ _ (by simp)).trans (SameRegs.ofRegs rfl)⟩

/-! ### TEST_TIMEOUT -/

theorem testTimeout_none {s : State} (hm : s.get Reg.TEST_REQ Fld.TEST_REQ.timeout_ms = 0) : exec .testTimeout s = .next s :=
  if_pos (.inr hm)

theorem testTimeout_ends {s : State} (h : s.testState = 1) (hm : s.get Reg.TEST_REQ Fld.TEST_REQ.timeout_ms ≠ 0) :
    Gives .testTimeout s fun t =>
      t.now = max s.now (s.diag.testAt + 1000000000 * s.get Reg.TEST_REQ Fld.TEST_REQ.timeout_ms) ∧ t.testState = 0 ∧
      t.get Reg.TEST_STAT Fld.TEST_STAT.result = 3 := by
  have hx : execTestTimeout s = _ := if_neg (by simp [h, hm])
  have hl := fun f (u : State) => u.logErr_get { code := 0x4E01 } f errReg_TEST_STAT
  refine Gives.intro hx ⟨?_, (hl _ _).trans (State.testEnds_state _ _), (hl _ _).trans (State.testEnds_result _ (by decide))⟩
  exact ((State.logErr_changes _ _).now rfl).trans (State.advanceTo_now _ _)

/-- Settles O57: each command of the self-test by the state in which it finds the request. -/
theorem selfTest : Obligations.SelfTest := by
  unfold Obligations.SelfTest
  intro s
  refine ⟨fun v => ⟨testGo_busy, ?_, ?_⟩, testCancel_idle, testCancel_noted, testCancel_ends,
    fun h hu hi => ⟨testUnitStart_quiesced h hu hi, fun t0 hq h5 hd ht => testUnitStart_window h hu hi hq h5 hd ht,
      testUnitStart_waits h hu hi⟩,
    fun h fails => ⟨testUnitEnd_cancelled fails h, testUnitEnd_last fails h, ?_⟩, fun _ => testTimeout_none, testTimeout_ends⟩
  · exact fun h0 h => testGo_refused h0 h
  · refine fun h0 hn hm hp => ?_
    have hu : ¬s.testUndefined v := by
      rintro (h | h | h)
      · exact hn h
      · omega
      · exact hp h
    exact ⟨testGo_held h0 hu, testGo_late h0 hu⟩
  · rintro hc hl rfl hf
    exact testUnitEnd_goesOn h hc hl hf

end Sys2Proof.Machine
end

section
/-! SUPPORT. Writes of bits: what a merge into a line leaves in each bit, and that the writes of an operation land in their own bits and
leave every other bit as a read found it (R152, R164, R278). -/

namespace Sys2Proof.Machine

/-! ### Numbers as bytes -/

/-- Bit `j` of a number is bit `j % 8` of its byte `j / 8`. -/
theorem testBit_leNat (bs : List Byte) (j : Nat) : (leNat bs).testBit j = (bs.getD (j / 8) 0).getLsbD (j % 8) := by
  induction bs generalizing j with
  | nil => simp [leNat]
  | cons b bs ih =>
    rw [leNat, Nat.add_comm, show (256 : Nat) = 2 ^ 8 from rfl, Nat.testBit_two_pow_mul_add _ b.isLt]
    split
    · next h =>
      rw [Nat.div_eq_of_lt h, Nat.mod_eq_of_lt h, List.getD_cons_zero, BitVec.testBit_toNat]
    · next h =>
      rw [ih, show j / 8 = (j - 8) / 8 + 1 by omega, List.getD_cons_succ, show (j - 8) % 8 = j % 8 by omega]

theorem length_natLe (n v : Nat) : (natLe n v).length = n := by
  induction n generalizing v with
  | zero => rfl
  | succ n ih => rw [natLe, List.length_cons, ih]

theorem getLsbD_natLe {n i k : Nat} (v : Nat) (hi : i < n) (hk : k < 8) : ((natLe n v).getD i 0).getLsbD k = v.testBit (8 * i + k) := by
  induction n generalizing v i with
  | zero => omega
  | succ n ih =>
    cases i with
    | zero =>
      rw [natLe, List.getD_cons_zero, BitVec.getLsbD_ofNat, Nat.mul_zero, Nat.zero_add]
      simp [hk]
    | succ i =>
      rw [natLe, List.getD_cons_succ, ih _ (by omega), show (256 : Nat) = 2 ^ 8 from rfl, Nat.testBit_div_two_pow]
      congr 1
      omega

theorem State.length_bytes (s : State) (a n : Nat) : (s.bytes a n).length = n := by
  induction n generalizing a with
  | zero => rfl
  | succ n ih => rw [State.bytes, List.length_cons, ih]

theorem State.getD_bytes (s : State) (a : Nat) {n i : Nat} (hi : i < n) : (s.bytes a n).getD i 0 = s.byte (a + i) := by
  induction n generalizing a i with
  | zero => omega
  | succ n ih =>
    cases i with
    | zero => rfl
    | succ i => rw [State.bytes, List.getD_cons_succ, ih _ (by omega), Nat.add_right_comm, Nat.add_assoc]

/-- Bit `j` of a line as it reads. -/
theorem State.testBit_line (s : State) (la : Nat) {j : Nat} (hj : j < 256) :
    (leNat (s.bytes la 32)).testBit j = bitOf s (8 * la + j) := by
  rw [testBit_leNat, s.getD_bytes la (by omega), bitOf, show (8 * la + j) / 8 = la + j / 8 by omega,
    show (8 * la + j) % 8 = j % 8 by omega]

theorem bitOf_congr {s t : State} (hm : t.mem = s.mem) (he : t.ecc = s.ecc) (b : Nat) : bitOf t b = bitOf s b := by
  rw [bitOf, State.byte_congr hm he, bitOf]

theorem SameBytes.bitOf {s t : State} (h : SameBytes s t) (b : Nat) : Machine.bitOf t b = Machine.bitOf s b := by
  rw [Machine.bitOf, h, Machine.bitOf]

/-! ### Lines -/

/-- A whole line reads as written, poison or not: poison is detected, and corrects nothing (R277, R278). -/
theorem State.byte_writeMem_line {s : State} (h : s.wf = true) {la i : Nat} (hl : la % 32 = 0) {bs : List Byte} (hb : bs.length = 32)
    (p : Bool) (hi : i < 32) : (s.writeMem la bs p).byte (la + i) = bs.getD i 0 := by
  obtain ⟨-, hm, he⟩ := State.wf_iff.mp h
  have hla : lineOf la = la := by simp only [lineOf]; omega
  have hln : lineOf (la + i) = la + 32 * 0 := by simp only [lineOf]; omega
  have hn : 0 < linesIn la bs.length := by unfold linesIn; split <;> omega
  have hf : eccFlip (if p then 3 else 0) ((la + i) % 32) = 0 := by
    cases p
    · exact eccFlip_zero _
    · exact if_neg (by decide)
  unfold State.byte State.eccOf State.writeMem
  simp only
  rw [smGet_memPuts_in hm la bs (by omega), hla, hln, smGet_eccPuts_in he _ _ _ hn, hf,
    List.getD_eq_getElem _ _ (by omega)]
  exact BitVec.xor_zero

/-- The bits outside of a mask, within a line. -/
theorem testBit_fullLine_sub {m j : Nat} (hm : m < 2 ^ 256) (hj : j < 256) : (fullLine - m).testBit j = !m.testBit j := by
  rw [fullLine, show 2 ^ 256 - 1 - m = 2 ^ 256 - (m + 1) by omega, Nat.testBit_two_pow_sub_succ hm]
  simp [hj]

/-- A merge leaves the bits of its mask as its value has them, and every other bit as it read. -/
theorem State.bitOf_mergeLine {s : State} (h : s.wf = true) {la mask : Nat} (hl : la % 32 = 0) (hm : mask < 2 ^ 256) (val : Nat)
    (p : Bool) (b : Nat) : bitOf (s.mergeLine la mask val p) b =
      if 8 * la ≤ b ∧ b < 8 * la + 256 ∧ mask.testBit (b - 8 * la) = true then val.testBit (b - 8 * la) else bitOf s b := by
  unfold State.mergeLine
  extract_lets bad old
  by_cases hb : 8 * la ≤ b ∧ b < 8 * la + 256
  · obtain ⟨h1, h2⟩ := hb
    obtain ⟨j, rfl⟩ := Nat.exists_eq_add_of_le h1
    have hj : j < 256 := by omega
    have hold : old.testBit j = bitOf s (8 * la + j) := s.testBit_line la hj
    rw [bitOf, show (8 * la + j) / 8 = la + j / 8 by omega, show (8 * la + j) % 8 = j % 8 by omega,
      State.byte_writeMem_line h hl (length_natLe _ _) _ (by omega), getLsbD_natLe _ (by omega) (by omega),
      show 8 * (j / 8) + j % 8 = j by omega, show 8 * la + j - 8 * la = j by omega]
    simp only [Nat.testBit_or, Nat.testBit_and, testBit_fullLine_sub hm hj, hold, h1, h2, true_and]
    cases mask.testBit j <;> simp
  · rw [if_neg (by omega), bitOf, State.byte_writeMem_out, bitOf]
    rw [length_natLe]
    simp only [lineOf]
    omega

/-! ### Writes within a line -/

/-- A write sets a bit. -/
def PendWrite.covers (w : PendWrite) (b : Nat) : Bool := decide (w.bit ≤ b) && decide (b < w.bit + w.width)

theorem PendWrite.covers_iff {w : PendWrite} {b : Nat} : w.covers b = true ↔ w.bit ≤ b ∧ b < w.bit + w.width := by
  simp [PendWrite.covers]

theorem PendWrite.inLine_lt (w : PendWrite) (la : Nat) : (w.inLine la).1 < 2 ^ 256 ∧ (w.inLine la).2 < 2 ^ 256 := by
  unfold PendWrite.inLine
  split <;> exact ⟨Nat.mod_lt _ (Nat.two_pow_pos _), Nat.mod_lt _ (Nat.two_pow_pos _)⟩

theorem PendWrite.testBit_inLine_val (w : PendWrite) (la : Nat) {j : Nat} (hj : j < 256) :
    (w.inLine la).1.testBit j = (w.covers (8 * la + j) && w.val.testBit (8 * la + j - w.bit)) := by
  unfold PendWrite.inLine PendWrite.covers
  split
  · next h =>
    simp only [Nat.testBit_mod_two_pow, Nat.testBit_shiftLeft, hj, decide_true, Bool.true_and]
    by_cases h1 : w.bit ≤ 8 * la + j
    · have h2 : j ≥ w.bit - 8 * la := by omega
      have h3 : (8 * la + j - w.bit < w.width) ↔ (8 * la + j < w.bit + w.width) := by omega
      rw [show j - (w.bit - 8 * la) = 8 * la + j - w.bit by omega]
      simp only [h1, h2, h3, decide_true, Bool.true_and]
    · have h2 : ¬j ≥ w.bit - 8 * la := by omega
      simp only [h1, h2, decide_false, Bool.false_and]
  · next h =>
    have h1 : w.bit ≤ 8 * la + j := by omega
    have h3 : (8 * la + j - w.bit < w.width) ↔ (8 * la + j < w.bit + w.width) := by omega
    rw [Nat.testBit_mod_two_pow, Nat.testBit_shiftRight, Nat.testBit_mod_two_pow, show 8 * la - w.bit + j = 8 * la + j - w.bit by omega]
    simp only [hj, h1, h3, decide_true, Bool.true_and]

/-- The mask of a write is what a write of ones leaves. -/
theorem PendWrite.inLine_mask (w : PendWrite) (la : Nat) :
    (w.inLine la).2 = (({ w with val := 2 ^ w.width - 1 } : PendWrite).inLine la).1 := by
  have h : (2 ^ w.width - 1) % 2 ^ w.width = 2 ^ w.width - 1 := Nat.mod_eq_of_lt (Nat.sub_lt (Nat.two_pow_pos _) (by decide))
  unfold PendWrite.inLine
  simp only [h]
  split <;> rfl

theorem PendWrite.testBit_inLine_mask (w : PendWrite) (la : Nat) {j : Nat} (hj : j < 256) :
    (w.inLine la).2.testBit j = w.covers (8 * la + j) := by
  rw [w.inLine_mask, PendWrite.testBit_inLine_val _ _ hj, Nat.testBit_two_pow_sub_one, Bool.eq_iff_iff, Bool.and_eq_true,
    PendWrite.covers_iff, PendWrite.covers_iff, decide_eq_true_eq]
  dsimp only
  omega

/-- What writes leave in bit `b`, which read `x` before: the bit of the last of them that sets it. -/
def landBit (ws : List PendWrite) (b : Nat) (x : Bool) : Bool :=
  ws.foldl (fun x w => if w.covers b then w.val.testBit (b - w.bit) else x) x

theorem landBit_eq (ws : List PendWrite) (b : Nat) (x : Bool) :
    landBit ws b x = if ws.any (·.covers b) then landBit ws b false else x := by
  induction ws generalizing x with
  | nil => rfl
  | cons w ws ih =>
    have hc : ∀ y, landBit (w :: ws) b y = landBit ws b (if w.covers b then w.val.testBit (b - w.bit) else y) := fun _ => rfl
    rw [List.any_cons, hc, hc]
    cases h : w.covers b
    · simp only [Bool.false_eq_true, if_false, Bool.false_or]
      exact ih x
    · simp

theorem landBit_landBit (ws : List PendWrite) (b : Nat) (x : Bool) : landBit ws b (landBit ws b x) = landBit ws b x := by
  rw [landBit_eq, landBit_eq ws b x]
  split <;> rfl

/-- A bit that no write sets stays. -/
theorem landBit_of_none {ws : List PendWrite} {b : Nat} (h : ∀ w ∈ ws, b < w.bit ∨ w.bit + w.width ≤ b) (x : Bool) :
    landBit ws b x = x := by
  rw [landBit_eq, if_neg]
  simp only [List.any_eq_true, PendWrite.covers_iff, not_exists, not_and]
  intro w hw h1
  have := h w hw
  omega

/-- Of writes into bits of their own the one that sets a bit gives it. -/
theorem landBit_of_mem {ws : List PendWrite} (hp : ws.Pairwise fun v w => v.bit + v.width ≤ w.bit ∨ w.bit + w.width ≤ v.bit)
    {w : PendWrite} (hw : w ∈ ws) {j : Nat} (hj : j < w.width) (x : Bool) : landBit ws (w.bit + j) x = w.val.testBit j := by
  induction ws generalizing x with
  | nil => simp at hw
  | cons v ws ih =>
    obtain ⟨hv, hp⟩ := List.pairwise_cons.mp hp
    have hc : landBit (v :: ws) (w.bit + j) x =
      landBit ws (w.bit + j) (if v.covers (w.bit + j) then v.val.testBit (w.bit + j - v.bit) else x) := rfl
    rw [hc]
    rcases List.mem_cons.mp hw with rfl | hw
    · rw [landBit_of_none fun u hu => by have := hv u hu; omega, if_pos (PendWrite.covers_iff.mpr (by omega)), Nat.add_sub_cancel_left]
    · exact ih hp hw _

/-- A filter that keeps every write which sets a bit leaves what they make of it. -/
theorem landBit_filter {ws : List PendWrite} {p : PendWrite → Bool} {b : Nat} (h : ∀ w, w.covers b = true → p w = true) (x : Bool) :
    landBit (ws.filter p) b x = landBit ws b x := by
  unfold landBit
  rw [List.foldl_filter]
  congr 1
  funext y w
  cases hc : w.covers b
  · simp
  · simp [h w hc]

/-- The bits of a line that writes set. -/
def lineMask (ws : List PendWrite) (la : Nat) : Nat := ws.foldl (fun m w => m ||| (w.inLine la).2) 0

/-- The values of those bits. -/
def lineVal (ws : List PendWrite) (la : Nat) : Nat :=
  ws.foldl (fun v w => (v &&& (fullLine - (w.inLine la).2)) ||| (w.inLine la).1) 0

theorem lineMask_lt (ws : List PendWrite) (la : Nat) : lineMask ws la < 2 ^ 256 := by
  have h : ∀ m, m < 2 ^ 256 → ws.foldl (fun m w => m ||| (w.inLine la).2) m < 2 ^ 256 := by
    induction ws with
    | nil => exact fun m hm => hm
    | cons w ws ih => exact fun m hm => ih _ (Nat.or_lt_two_pow hm (w.inLine_lt la).2)
  exact h 0 (Nat.two_pow_pos _)

theorem testBit_lineMask (ws : List PendWrite) (la : Nat) {j : Nat} (hj : j < 256) :
    (lineMask ws la).testBit j = ws.any (·.covers (8 * la + j)) := by
  have h : ∀ m : Nat, (ws.foldl (fun m w => m ||| (w.inLine la).2) m).testBit j = (m.testBit j || ws.any (·.covers (8 * la + j))) := by
    induction ws with
    | nil => simp
    | cons w ws ih =>
      intro m
      rw [List.foldl_cons, ih, Nat.testBit_or, w.testBit_inLine_mask la hj, List.any_cons, Bool.or_assoc]
  rw [lineMask, h, Nat.zero_testBit, Bool.false_or]

theorem testBit_lineVal (ws : List PendWrite) (la : Nat) {j : Nat} (hj : j < 256) :
    (lineVal ws la).testBit j = landBit ws (8 * la + j) false := by
  have h : ∀ v : Nat, (ws.foldl (fun v w => (v &&& (fullLine - (w.inLine la).2)) ||| (w.inLine la).1) v).testBit j =
      landBit ws (8 * la + j) (v.testBit j) := by
    induction ws with
    | nil => exact fun _ => rfl
    | cons w ws ih =>
      intro v
      have hc : landBit (w :: ws) (8 * la + j) (v.testBit j) = landBit ws (8 * la + j)
        (if w.covers (8 * la + j) then w.val.testBit (8 * la + j - w.bit) else v.testBit j) := rfl
      rw [List.foldl_cons, ih, hc, Nat.testBit_or, Nat.testBit_and, testBit_fullLine_sub (w.inLine_lt la).2 hj,
        w.testBit_inLine_mask la hj, w.testBit_inLine_val la hj]
      cases w.covers (8 * la + j) <;> simp
  rw [lineVal, h, Nat.zero_testBit]

/-! ### The writes of an operation -/

theorem State.defers_congr {s t : State} (h : t.reaches = s.reaches) (la : Nat) : t.defers la = s.defers la := by
  rw [State.defers, State.beatOn, State.reach_congr h, State.defers, State.beatOn]

/-- A line that the beat does not defer takes the bits of the writes in it. -/
theorem State.bitOf_writeLine {s : State} (h : s.wf = true) (n : Nat) (u : UnitId) (rank : Nat) (ws : List PendWrite) {la : Nat}
    (hl : la % 32 = 0) (hd : s.defers la = false) (b : Nat) : bitOf (s.writeLine n u rank ws la) b =
      if 8 * la ≤ b ∧ b < 8 * la + 256 then landBit ws b (bitOf s b) else bitOf s b := by
  unfold State.writeLine
  extract_lets here mask val bad
  split
  rename_i t ue e
  have hc : Changes [.regs, .cores, .mesh, .idle, .diag, .ibis, .outs] s (t.taint n u (bad || ue)) := by
    refine Changes.step (Changes.ofPair e ?_) (State.taint_changes _ _ _ _) rfl
    exact Changes.iteFst (Changes.refl _ _) (State.readLines_changes _ _ _ _ _)
  have hb := bitOf_congr (hc.mem rfl) (hc.ecc rfl) b
  rw [State.lineWrite, State.defers_congr (hc.reaches rfl), hd, if_neg (by decide)]
  refine (State.bitOf_mergeLine (hc.wf h) hl (lineMask_lt here la) val bad b).trans ?_
  rw [hb]
  by_cases hin : 8 * la ≤ b ∧ b < 8 * la + 256
  · obtain ⟨h1, h2⟩ := hin
    obtain ⟨j, rfl⟩ := Nat.exists_eq_add_of_le h1
    have hj : j < 256 := by omega
    have hp : ∀ w : PendWrite, w.covers (8 * la + j) = true → ((w.inLine la).2 != 0) = true := by
      intro w hw
      rw [← w.testBit_inLine_mask la hj] at hw
      exact bne_iff_ne.mpr fun h0 => by simp [h0] at hw
    have hv : val.testBit j = landBit here (8 * la + j) false := testBit_lineVal here la hj
    have hw : landBit ws (8 * la + j) (bitOf s (8 * la + j)) = landBit here (8 * la + j) (bitOf s (8 * la + j)) :=
      (landBit_filter hp _).symm
    rw [Nat.add_sub_cancel_left, testBit_lineMask here la hj, hv, hw, landBit_eq here _ (bitOf s _)]
    simp only [h1, h2, true_and, if_true]
  · rw [if_neg hin, if_neg (by omega)]

/-- Writes to lines that the beat does not defer leave in every bit of those lines what the writes make of it. -/
theorem State.bitOf_writeLines {s : State} (h : s.wf = true) (n : Nat) (u : UnitId) (rank : Nat) (ws : List PendWrite) {L : List Nat}
    (hL : ∀ la ∈ L, la % 32 = 0 ∧ s.defers la = false) (b : Nat) : bitOf (L.foldl (fun t la => t.writeLine n u rank ws la) s) b =
      if b / 256 * 32 ∈ L then landBit ws b (bitOf s b) else bitOf s b := by
  induction L generalizing s with
  | nil => rfl
  | cons la L ih =>
    obtain ⟨⟨hl, hd⟩, hL⟩ := List.forall_mem_cons.mp hL
    have hc := s.writeLine_changes n u rank ws la
    have hdef : ∀ x ∈ L, x % 32 = 0 ∧ (s.writeLine n u rank ws la).defers x = false :=
      fun x hx => ⟨(hL x hx).1, (State.defers_congr (hc.reaches rfl) x).trans (hL x hx).2⟩
    have hin : (8 * la ≤ b ∧ b < 8 * la + 256) ↔ b / 256 * 32 = la := by omega
    rw [List.foldl_cons, ih (hc.wf h) hdef, State.bitOf_writeLine h n u rank ws hl hd]
    simp only [hin, List.mem_cons]
    by_cases h1 : b / 256 * 32 = la <;> by_cases h2 : b / 256 * 32 ∈ L <;> simp [h1, h2, landBit_landBit]

theorem mem_touched {ws : List PendWrite} {la : Nat} :
    la ∈ touched ws ↔ ∃ w ∈ ws, la = w.bit / 256 * 32 ∨ la = (w.bit + w.width - 1) / 256 * 32 := by
  simp only [touched, List.mem_eraseDups, List.mem_append, List.mem_map]
  constructor
  · rintro (⟨w, hw, rfl⟩ | ⟨w, hw, rfl⟩)
    · exact ⟨w, hw, .inl rfl⟩
    · exact ⟨w, hw, .inr rfl⟩
  · rintro ⟨w, hw, rfl | rfl⟩
    · exact .inl ⟨w, hw, rfl⟩
    · exact .inr ⟨w, hw, rfl⟩

/-- Writes within bits of their own land there, and every other bit reads as before. -/
theorem State.applyWrites_land {s : State} (h : s.wf = true) (n : Nat) (u : UnitId) (rank : Nat) {ws : List PendWrite} (ha : Apart s ws) :
    Land ws s (s.applyWrites n u rank ws) := by
  obtain ⟨hp, hw⟩ := ha
  have hline : ∀ b, b / 256 * 32 = lineOf (b / 8) := fun b => by simp only [lineOf]; omega
  have hL : ∀ la ∈ touched ws, la % 32 = 0 ∧ s.defers la = false := by
    intro la hla
    obtain ⟨w, hmem, hla⟩ := mem_touched.mp hla
    obtain ⟨-, -, h1, h2⟩ := hw w hmem
    rcases hla with rfl | rfl
    · exact ⟨by omega, by rw [hline, h1]⟩
    · exact ⟨by omega, by rw [hline, h2]⟩
  have hb := State.bitOf_writeLines h n u rank ws hL
  refine ⟨fun w hmem j hj => ?_, fun b hn => ?_⟩
  · obtain ⟨-, h256, -⟩ := hw w hmem
    have ht : (w.bit + j) / 256 * 32 ∈ touched ws := mem_touched.mpr ⟨w, hmem, by omega⟩
    rw [State.applyWrites, hb, if_pos ht, landBit_of_mem hp hmem hj]
  · rw [State.applyWrites, hb, landBit_of_none hn, ite_self]

end Sys2Proof.Machine
end

section
/-! SUPPORT. What a last beat leaves of the cores (R182, R186, R211, R212): its post action adds to the signals of a beat alone, and writes
no register of a core. -/

namespace Sys2Proof.Machine

/-! ### Operations that signal -/

/-- `t` stands as `s` in the cores, but for the signals of their beats, and in the registers below the PACE block. -/
structure SigsAlone (s t : State) : Prop where
  core : ∀ m, t.core m = { s.core m with sigs := (t.core m).sigs }
  regs : SameBelowPace s t

namespace SigsAlone

theorem refl (s : State) : SigsAlone s s := ⟨fun _ => rfl, .refl s⟩

theorem trans {s t u : State} (h : SigsAlone s t) (k : SigsAlone t u) : SigsAlone s u :=
  ⟨fun m => by rw [k.core m, h.core m], h.regs.trans k.regs⟩

theorem ofCores {s t : State} (h : t.cores = s.cores) (k : SameBelowPace s t) : SigsAlone s t :=
  ⟨fun m => by rw [State.core_congr h m], k⟩

theorem record {s t u : State} (h : SigsAlone s t) (hc : u.cores = t.cores) (hr : u.regs = t.regs) : SigsAlone s u :=
  h.trans (ofCores hc ((SameBelowPace.refl t).record hr))

theorem ite {s t u : State} {c : Prop} [Decidable c] (h : SigsAlone s t) (k : SigsAlone s u) : SigsAlone s (if c then t else u) := by
  split <;> assumption

theorem foldl {α : Type} {s t : State} {l : List α} {f : State → α → State} (h : SigsAlone s t) (k : ∀ u x, SigsAlone u (f u x)) :
    SigsAlone s (l.foldl f t) := by
  induction l generalizing t with
  | nil => exact h
  | cons x l ih => exact ih (h.trans (k t x))

theorem put {s t : State} (h : SigsAlone s t) {a : Nat} {f : BitField} {v : Nat} (ha : blockBase 2 ≤ a) : SigsAlone s (t.put a f v) :=
  h.trans (ofCores rfl ((SameBelowPace.refl t).put ha))

theorem hwSet {s t : State} (h : SigsAlone s t) {a : Nat} {f : BitField} {v : Nat} (ha : blockBase 2 ≤ a) : SigsAlone s (t.hwSet a f v) :=
  (h.put ha).record rfl rfl

theorem addTo {s t : State} (h : SigsAlone s t) {a : Nat} {f : BitField} {v : Nat} (ha : blockBase 2 ≤ a) : SigsAlone s (t.addTo a f v) :=
  ite h (h.put ha)

theorem logErr {s t : State} (h : SigsAlone s t) (e : Err) : SigsAlone s (t.logErr e) :=
  h.trans (ofCores ((t.logErr_changes e).cores) ((SameBelowPace.refl t).logErr e))

theorem ofErr {s t : State} (hc : t.cores = s.cores) (hr : SameRegsButErr [] s t) : SigsAlone s t :=
  ofCores hc fun a ha => hr a (errReg_belowPace ha) (by simp)

end SigsAlone

theorem State.launch_sigsAlone (s : State) (node : Nat) (p : MeshPort) (src d : Nat) (b : Barge) : SigsAlone s (s.launch node p src d b) :=
  .ofErr (s.launch_changes node p src d b).cores (s.launch_regs node p src d b)

theorem State.trigger_sigsAlone (s : State) (src code b : Nat) : SigsAlone s (s.trigger src code b) :=
  .ofErr (s.trigger_changes src code b).cores (s.trigger_regs src code b)

theorem State.signal_sigsAlone (s : State) (n i k src issuer : Nat) : SigsAlone s (s.signal n i k src issuer) := by
  refine .ite (.refl s) ⟨fun m => ?_, (SameBelowPace.refl s).record rfl⟩
  by_cases h : m = n
  · subst h
    simp only [State.core_setCore_same]
  · rw [State.core_setCore_ne _ _ h]

theorem State.recordLock_sigsAlone (s : State) (code core issuer index n : Nat) : SigsAlone s (s.recordLock code core issuer index n) := by
  have ha : blockBase 2 ≤ Reg.LOCK_ERR := le_blockReg (by decide)
  have set : ∀ w, SigsAlone s (s.setReg Reg.LOCK_ERR w) := fun w => .ofCores rfl ((SameBelowPace.refl s).setReg ha)
  exact .ite (.hwSet (.refl s) ha) (.hwSet (set _) ha)

theorem State.lockErr_sigsAlone (s : State) (code core issuer index n : Nat) : SigsAlone s (s.lockErr code core issuer index n) :=
  (s.recordLock_sigsAlone code core issuer index n).logErr _

theorem State.lost3308_sigsAlone (s : State) (v i k : Nat) : SigsAlone s (s.lost3308 v i k) :=
  (s.recordLock_sigsAlone _ _ _ _ _).logErr _

theorem State.signalTo_sigsAlone (s : State) (n target i k issuer : Nat) : SigsAlone s (s.signalTo n target i k issuer) :=
  .ite (.refl s) (.ite (s.signal_sigsAlone _ _ _ _ _) (.record (.refl s) rfl rfl))

theorem State.signalChip_sigsAlone (s : State) (n sl chip vcore i k : Nat) : SigsAlone s (s.signalChip n sl chip vcore i k) := by
  unfold State.signalChip
  extract_lets par b
  split
  · exact s.launch_sigsAlone _ _ _ _ _
  · exact .logErr (.refl s) _

theorem State.sendOut_sigsAlone (s : State) (chip : Nat) (b : Barge) : SigsAlone s (s.sendOut chip b) := by
  unfold State.sendOut State.sendFrom
  split
  · exact s.launch_sigsAlone _ _ _ _ _
  · exact .logErr (.refl s) _

theorem State.sendTree_sigsAlone (s : State) (tree : Nat) (b : Barge) : SigsAlone s (s.sendTree tree b) :=
  .ite (.refl s) (.foldl (.refl s) fun u _ => .ite (u.launch_sigsAlone _ _ _ _ _) (.refl u))

/-! ### Barrier slots -/

theorem State.setSlot_sigsAlone (s : State) (i : Nat) (x : Slot) : SigsAlone s (s.setSlot i x) := .record (.refl s) rfl rfl

theorem State.showSlot_sigsAlone (s : State) (i : Nat) : SigsAlone s (s.showSlot i) :=
  .put (.put (.put (.refl s) (le_blockRegs (by decide))) (le_blockRegs (by decide))) (le_blockRegs (by decide))

theorem State.showPend_sigsAlone (s : State) : SigsAlone s s.showPend :=
  .ite (.refl s) (.put (.refl s) (le_blockReg (by decide)))

theorem State.endWait_sigsAlone (s : State) (n i k : Nat) : SigsAlone s (s.endWait n i k) :=
  (s.signal_sigsAlone n i k 256 3).record rfl rfl

theorem State.applyFull_sigsAlone (s : State) (cores : List Nat) (i k : Nat) : SigsAlone s (s.applyFull cores i k) :=
  .foldl ((SigsAlone.put (.refl s) (le_blockReg (by decide))).trans (State.lockErr_sigsAlone _ _ _ _ _ _)) fun u _ =>
    u.signal_sigsAlone _ _ _ _ _

theorem State.pendRelease_sigsAlone (s : State) (i apply parity : Nat) : SigsAlone s (s.pendRelease i apply parity) := by
  unfold State.pendRelease
  extract_lets ctr held rest t
  have ht : SigsAlone s t := .foldl (.refl s) fun u n => u.endWait_sigsAlone n ctr 1
  refine .ite ht (.ite (ht.trans (t.applyFull_sigsAlone _ _ _)) ?_)
  refine SigsAlone.trans ?_ (State.showPend_sigsAlone _)
  exact ht.record rfl rfl

theorem State.leaderCheck_sigsAlone (s : State) (i : Nat) : SigsAlone s (s.leaderCheck i) := by
  unfold State.leaderCheck
  extract_lets a x cur apply tree h b t
  refine .ite (s.showSlot_sigsAlone i) ?_
  have ht : SigsAlone s t := .record (.refl s) rfl rfl
  exact ((ht.trans (t.sendTree_sigsAlone tree b)).trans (State.pendRelease_sigsAlone _ _ _ _)).trans (State.showSlot_sigsAlone _ i)

theorem State.chipArrive_sigsAlone (s : State) (i gen a : Nat) : SigsAlone s (s.chipArrive i gen a) :=
  (s.setSlot_sigsAlone i _).trans (State.leaderCheck_sigsAlone _ i)

theorem State.slotComplete_sigsAlone (s : State) (i b sb : Nat) : SigsAlone s (s.slotComplete i b sb) := by
  unfold State.slotComplete
  extract_lets x a cores st t u v w locks arr gen lchip
  have ht : SigsAlone s t := .addTo (.refl s) (le_blockRegs (by decide))
  have hv : SigsAlone s v := (ht.trans (t.setSlot_sigsAlone i _)).trans (u.showSlot_sigsAlone i)
  have hw : SigsAlone s w := hv.trans (.ite (v.trigger_sigsAlone 2 0 b) (.refl v))
  exact .ite (hw.record rfl rfl) (.ite (hw.trans (w.chipArrive_sigsAlone i gen arr)) (hw.trans (w.sendOut_sigsAlone _ _)))

theorem State.slotRecord_sigsAlone (s : State) (i : Nat) (e : SlotArrival) : SigsAlone s (s.slotRecord i e) := by
  have shown : ∀ x, SigsAlone s ((s.setSlot i x).showSlot i) := fun x =>
    (s.setSlot_sigsAlone i x).trans (State.showSlot_sigsAlone _ i)
  exact .ite (.ite (s.lockErr_sigsAlone _ _ _ _ _) (shown _))
    (.ite ((shown _).trans (State.slotComplete_sigsAlone _ _ _ _)) (shown _))

theorem State.arrive_sigsAlone (s : State) (n i issuer : Nat) : SigsAlone s (s.arrive n i issuer) :=
  .ite (s.lockErr_sigsAlone _ _ _ _ _) (.ite (s.lockErr_sigsAlone _ _ _ _ _) (.ite (s.slotRecord_sigsAlone _ _) (s.setSlot_sigsAlone _ _)))

/-! ### Post actions -/

theorem State.postAct_sigsAlone (s : State) (n : Nat) (u : UnitId) (onX : Bool) (d : List Word) : SigsAlone s (s.postAct n u onX d) :=
  .ite (s.signal_sigsAlone _ _ _ _ _) <|
    .ite
      (.ite (s.signalTo_sigsAlone _ _ _ _ _)
        (.ite (.ite (s.signalTo_sigsAlone _ _ _ _ _) (s.lost3308_sigsAlone _ _ _)) (.ite (.refl s) (s.signalChip_sigsAlone _ _ _ _ _ _))))
      (.ite (s.arrive_sigsAlone _ _ _) (.refl s))

theorem State.legacySig_sigsAlone (s : State) (n : Nat) (onX : Bool) (r : RunOp) : SigsAlone s (s.legacySig n onX r) :=
  .ite (s.signal_sigsAlone _ _ _ _ _) (.refl s)

/-- A signal to the core itself joins its beat (R211). -/
theorem State.postAct_sigs (s : State) (n : Nat) (u : UnitId) (onX : Bool) {d : List Word} (h : (dPost d).kind = 1)
    (hn : (dPost d).n ≠ 0) :
    ((s.postAct n u onX d).core n).sigs = (s.core n).sigs ++ [⟨(dPost d).index, (dPost d).n, n, issuerNum (issuerOf onX)⟩] := by
  unfold State.postAct
  rw [if_pos h, State.signal_sigs, if_neg hn]

end Sys2Proof.Machine
end

section
/-! SUPPORT. The pushes of a last beat (R185 to R187): each queue of the mask that has room takes the entry, and the rest of the core
stands. -/

namespace Sys2Proof.Machine

/-! ### One push -/

/-- The registers that show a core are brought up to date, and no other. -/
theorem State.refresh_sameRegs (s : State) (n : Nat) : SameRegs (coreShown n) s (s.refresh n) := by
  unfold State.refresh
  dsimp only
  iterate 7 refine State.put_step ?_ _ _ _ (by simp [coreShown])
  exact SameRegs.refl _ _

theorem State.core_refresh (s : State) (n m : Nat) : (s.refresh n).core m = s.core m := State.core_congr (s.refresh_changes n).cores m

/-- `t` stands as `s` but for the queues of core `n` and the registers that show the core. -/
structure QueuesAlone (n : Nat) (s t : State) : Prop where
  core    : t.core n = { s.core n with queues := (t.core n).queues, qseq := (t.core n).qseq, qlate := (t.core n).qlate }
  core_ne : ∀ m, m ≠ n → t.core m = s.core m
  regs    : SameRegs (coreShown n) s t

theorem QueuesAlone.refl (n : Nat) (s : State) : QueuesAlone n s s := ⟨rfl, fun _ _ => rfl, .refl _ s⟩

theorem QueuesAlone.trans {n : Nat} {s t u : State} (h : QueuesAlone n s t) (k : QueuesAlone n t u) : QueuesAlone n s u :=
  ⟨by rw [k.core, h.core], fun m hm => (k.core_ne m hm).trans (h.core_ne m hm), h.regs.trans k.regs⟩

theorem QueuesAlone.set {n : Nat} (s : State) (x : List (List QEntry)) (y : List Nat) (z : List (Nat × List Byte × Nat)) :
    QueuesAlone n s (s.setCore n { s.core n with queues := x, qseq := y, qlate := z }) :=
  ⟨by simp only [State.core_setCore_same], fun _ hm => State.core_setCore_ne _ _ hm, .ofRegs rfl⟩

theorem State.refresh_queuesAlone (s : State) (n : Nat) : QueuesAlone n s (s.refresh n) :=
  ⟨by rw [State.core_refresh], fun m _ => s.core_refresh n m, s.refresh_sameRegs n⟩

theorem State.pushNow_queuesAlone (s : State) (n q : Nat) (e : List Byte) (beat : Nat) : QueuesAlone n s (s.pushNow n q e beat) :=
  (QueuesAlone.set s _ _ _).trans (State.refresh_queuesAlone _ n)

theorem State.push_queuesAlone (s : State) (n q : Nat) (e : List Byte) : QueuesAlone n s (s.push n q e) := by
  unfold State.push
  extract_lets c b
  split
  · exact s.pushNow_queuesAlone n q e b
  · exact .set s _ _ _

/-- A push to another queue leaves a queue and its sequence number. -/
theorem State.push_queue_ne (s : State) {n q p : Nat} (e : List Byte) (h : p ≠ q) :
    ((s.push n q e).core n).queues.getD p [] = (s.core n).queues.getD p [] ∧
      ((s.push n q e).core n).qseq.getD p 0 = (s.core n).qseq.getD p 0 := by
  unfold State.push State.pushNow
  extract_lets c b seq ent
  split
  · rw [State.core_refresh, State.core_setCore_same]
    simp only [List.getD_eq_getElem?_getD, List.getElem?_set_ne h.symm]
    exact ⟨rfl, rfl⟩
  · rw [State.core_setCore_same]
    exact ⟨rfl, rfl⟩

/-- A queue with room takes the entry, stamped with the beat and its sequence number (R185, R187). -/
theorem State.push_queue_same (s : State) {n q : Nat} (e : List Byte) (hq : q < (s.core n).queues.length)
    (h : ((s.core n).queues.getD q []).length < 16) : ((s.push n q e).core n).queues.getD q [] =
      (s.core n).queues.getD q [] ++ [⟨s.beatOf n, stampEntry e (s.beatOf n) ((s.core n).qseq.getD q 0)⟩] := by
  unfold State.push State.pushNow
  rw [if_pos h, State.core_refresh, State.core_setCore_same]
  simp only [List.getD_eq_getElem?_getD, List.getElem?_set_self hq, Option.getD_some]

theorem State.push_queues_length (s : State) (n q : Nat) (e : List Byte) :
    ((s.push n q e).core n).queues.length = (s.core n).queues.length := by
  unfold State.push State.pushNow
  extract_lets c b seq ent
  split
  · rw [State.core_refresh, State.core_setCore_same]
    exact List.length_set
  · rw [State.core_setCore_same]

theorem State.beatOf_congr {s t : State} (h : t.reaches = s.reaches) (n : Nat) : t.beatOf n = s.beatOf n := by
  rw [State.beatOf, State.reach_congr h, State.beatOf]

theorem State.push_beatOf (s : State) (n q m : Nat) (e : List Byte) : (s.push n q e).beatOf m = s.beatOf m :=
  State.beatOf_congr (s.push_changes n q e).reaches m

/-! ### The pushes of a mask -/

/-- Push an entry to each of several queues. -/
def State.pushTo (s : State) (n : Nat) (e : List Byte) (l : List Nat) : State := l.foldl (fun t q => t.push n q e) s

theorem State.pushAll_eq (s : State) (n : Nat) (r : RunOp) :
    s.pushAll n r = s.pushTo n r.entry ((List.range 8).filter fun q => (dPush r.desc).testBit q) := by
  rw [State.pushAll, State.pushTo, List.foldl_filter]

theorem State.pushTo_queuesAlone (s : State) (n : Nat) (e : List Byte) (l : List Nat) : QueuesAlone n s (s.pushTo n e l) := by
  induction l generalizing s with
  | nil => exact .refl n s
  | cons q l ih => exact (s.push_queuesAlone n q e).trans (ih _)

theorem State.pushTo_queue_of_not_mem (s : State) {n p : Nat} (e : List Byte) {l : List Nat} (h : p ∉ l) :
    ((s.pushTo n e l).core n).queues.getD p [] = (s.core n).queues.getD p [] := by
  induction l generalizing s with
  | nil => rfl
  | cons q l ih =>
    obtain ⟨hq, hl⟩ := not_or.mp (mt List.mem_cons.mpr h)
    exact (ih (s.push n q e) hl).trans (s.push_queue_ne e hq).1

theorem State.pushTo_queue_of_mem (s : State) {n p : Nat} (e : List Byte) {l : List Nat} (hl : l.Nodup) (h : p ∈ l)
    (hp : p < (s.core n).queues.length) (hr : ((s.core n).queues.getD p []).length < 16) :
    ((s.pushTo n e l).core n).queues.getD p [] =
      (s.core n).queues.getD p [] ++ [⟨s.beatOf n, stampEntry e (s.beatOf n) ((s.core n).qseq.getD p 0)⟩] := by
  induction l generalizing s with
  | nil => simp at h
  | cons q l ih =>
    obtain ⟨hq, hl⟩ := List.nodup_cons.mp hl
    by_cases hpq : p = q
    · subst hpq
      exact (State.pushTo_queue_of_not_mem (s.push n p e) e hq).trans (s.push_queue_same e hp hr)
    · have hm : p ∈ l := (List.mem_cons.mp h).resolve_left hpq
      obtain ⟨h1, h2⟩ := s.push_queue_ne (n := n) e hpq
      have := ih (s.push n q e) hl hm (by rwa [State.push_queues_length]) (by rwa [h1])
      rwa [h1, h2, State.push_beatOf] at this

/-! ### The entry of an operation -/

theorem leNat_natLe_two (v : Nat) : leNat (natLe 2 v) = v % 65536 := by
  simp only [leNat, natLe, BitVec.toNat_ofNat]
  omega

/-- The entry carries the tag, the sequence number and the user half (R185, R186). -/
theorem RunOp.entry_tag (r : RunOp) (beat seq : Nat) : leNat (((stampEntry r.entry beat seq).drop 16).take 2) = dTag r.desc := by
  have h : ((stampEntry r.entry beat seq).drop 16).take 2 = natLe 2 (dTag r.desc) := rfl
  rw [h, leNat_natLe_two]
  exact Nat.mod_eq_of_lt (BitField.get_lt _ _)

theorem RunOp.entry_seq (r : RunOp) (beat seq : Nat) : leNat (((stampEntry r.entry beat seq).drop 18).take 2) = seq % 65536 := by
  have h : ((stampEntry r.entry beat seq).drop 18).take 2 = natLe 2 (seq % 2 ^ 16) := rfl
  rw [h, leNat_natLe_two]
  exact Nat.mod_mod seq _

theorem RunOp.entry_user (r : RunOp) (beat seq : Nat) : (stampEntry r.entry beat seq).drop 32 = r.user := rfl

end Sys2Proof.Machine
end

section
/-! SUPPORT. The end of an operation (R182, R186): what it leaves of its core, of the registers of its unit, and of memory; and each unit's
own part of its last beat (R138, R162). -/

namespace Sys2Proof.Machine

/-! ### A unit's operation -/

@[simp] theorem Core.running_setRunning_none (c : Core) (u : UnitId) : (c.setRunning u none).running u = none := by
  cases u with
  | sluice sl =>
    simp only [Core.running, Core.setRunning, List.getD_eq_getElem?_getD, List.getElem?_set_self']
    cases c.sluice[sl.val]? <;> rfl
  | _ => rfl

theorem Core.fifo_setRunning (c : Core) (u : UnitId) (r : Option RunOp) (onX : Bool) : (c.setRunning u r).fifo onX = c.fifo onX := by
  cases u <;> rfl

/-- A core whose unit `u` has ended its operation in beat `b`. -/
def Core.ended (c : Core) (u : UnitId) (b : Nat) : Core :=
  { c.setRunning u none with freed := smPut (c.setRunning u none).freed (unitNum u) b }

/-! ### `endOp` -/

/-- The unit ends its operation and pushes. -/
def State.endPushes (s : State) (n : Nat) (u : UnitId) (r : RunOp) : State :=
  (s.setCore n ((s.core n).ended u (s.beatOf n))).pushAll n { r with poison := r.poison || r.dead }

/-- The post action and the post-signal, of an operation that was neither refused nor abandoned. -/
def State.endSignals (s : State) (n : Nat) (u : UnitId) (onX : Bool) (r : RunOp) : State :=
  if r.dead then s else (s.postAct n u onX r.desc).legacySig n onX r

theorem State.endPushes_queuesAlone (s : State) (n : Nat) (u : UnitId) (r : RunOp) :
    QueuesAlone n (s.setCore n ((s.core n).ended u (s.beatOf n))) (s.endPushes n u r) := by
  rw [State.endPushes, State.pushAll_eq]
  exact State.pushTo_queuesAlone _ _ _ _

theorem State.endOp_eq (s : State) (n : Nat) (u : UnitId) (onX : Bool) (r : RunOp) :
    s.endOp n u onX r = ((s.endPushes n u r).endSignals n u onX r).refresh n := rfl

theorem State.endSignals_sigsAlone (s : State) (n : Nat) (u : UnitId) (onX : Bool) (r : RunOp) : SigsAlone s (s.endSignals n u onX r) :=
  .ite (.refl s) ((s.postAct_sigsAlone n u onX r.desc).trans (State.legacySig_sigsAlone _ n onX r))

/-- Of the core the end of an operation leaves all but its unit, its queues and its signals. -/
theorem State.endOp_core (s : State) (n : Nat) (u : UnitId) (onX : Bool) (r : RunOp) :
    (s.endOp n u onX r).core n = { (s.core n).ended u (s.beatOf n) with
      queues := ((s.endOp n u onX r).core n).queues, qseq := ((s.endOp n u onX r).core n).qseq,
      qlate := ((s.endOp n u onX r).core n).qlate, sigs := ((s.endOp n u onX r).core n).sigs } := by
  have hp := s.endPushes_queuesAlone n u r
  have hc := hp.core
  rw [State.core_setCore_same] at hc
  rw [State.endOp_eq, State.core_refresh, ((s.endPushes n u r).endSignals_sigsAlone n u onX r).core n, hc]

theorem State.endOp_running (s : State) (n : Nat) (u : UnitId) (onX : Bool) (r : RunOp) :
    ((s.endOp n u onX r).core n).running u = none := by
  have h : ((s.core n).ended u (s.beatOf n)).running u = none := (s.core n).running_setRunning_none u
  rw [s.endOp_core n u onX r]
  exact h

theorem State.endOp_freed (s : State) (n : Nat) (u : UnitId) (onX : Bool) (r : RunOp) :
    smFind ((s.endOp n u onX r).core n).freed (unitNum u) = some (s.beatOf n) := by
  rw [s.endOp_core n u onX r]
  exact smFind_put_same _ _ _

/-- A queue outside of the push mask stays. -/
theorem State.endOp_queue_other (s : State) (n : Nat) (u : UnitId) (onX : Bool) {r : RunOp} {q : Nat}
    (h : (dPush r.desc).testBit q = false) :
    ((s.endOp n u onX r).core n).queues.getD q [] = (s.core n).queues.getD q [] := by
  rw [State.endOp_eq, State.core_refresh, ((s.endPushes n u r).endSignals_sigsAlone n u onX r).core n]
  refine Eq.trans (b := ((s.endPushes n u r).core n).queues.getD q []) rfl ?_
  rw [State.endPushes, State.pushAll_eq, State.pushTo_queue_of_not_mem _ _ (by simp [h]), State.core_setCore_same]
  cases u <;> rfl

/-- A queue of the push mask that has room takes the entry of the operation (R186, R187). -/
theorem State.endOp_queue (s : State) (n : Nat) (u : UnitId) (onX : Bool) {r : RunOp} {q : Nat} (h : (dPush r.desc).testBit q = true)
    (hq : q < 8) (hl : (s.core n).queues.length = 8) (hr : ((s.core n).queues.getD q []).length < 16) :
    ((s.endOp n u onX r).core n).queues.getD q [] = (s.core n).queues.getD q [] ++ [⟨s.beatOf n,
      stampEntry { r with poison := r.poison || r.dead }.entry (s.beatOf n) ((s.core n).qseq.getD q 0)⟩] := by
  have hc : ∀ x : Core, (x.ended u (s.beatOf n)).queues = x.queues ∧ (x.ended u (s.beatOf n)).qseq = x.qseq := fun x => by
    cases u <;> exact ⟨rfl, rfl⟩
  obtain ⟨h1, h2⟩ := hc (s.core n)
  rw [State.endOp_eq, State.core_refresh, ((s.endPushes n u r).endSignals_sigsAlone n u onX r).core n]
  refine Eq.trans (b := ((s.endPushes n u r).core n).queues.getD q []) rfl ?_
  rw [State.endPushes, State.pushAll_eq, State.pushTo_queue_of_mem, State.core_setCore_same, h1, h2]
  · rfl
  · exact List.nodup_range.filter _
  · simpa [h] using hq
  · rw [State.core_setCore_same, h1, hl]
    exact hq
  · rwa [State.core_setCore_same, h1]

/-- A signal to the core itself joins its beat's (R211). -/
theorem State.endOp_sigs (s : State) (n : Nat) (u : UnitId) (onX : Bool) {r : RunOp} (hk : (dPost r.desc).kind = 1)
    (hn : (dPost r.desc).n ≠ 0) (hd : r.dead = false) (hl : r.legacy = false) : ((s.endOp n u onX r).core n).sigs =
      (s.core n).sigs ++ [⟨(dPost r.desc).index, (dPost r.desc).n, n, issuerNum (issuerOf onX)⟩] := by
  have hp := s.endPushes_queuesAlone n u r
  have hs : ((s.endPushes n u r).core n).sigs = (s.core n).sigs := by
    rw [hp.core, State.core_setCore_same]
    cases u <;> rfl
  rw [State.endOp_eq, State.core_refresh, State.endSignals, hd, if_neg (by decide), State.legacySig, hl, if_neg (by decide),
    State.postAct_sigs _ n u onX hk hn, hs]

/-- The end of an operation writes no register of a core but those that show the core. -/
theorem State.endOp_reg (s : State) (n : Nat) (u : UnitId) (onX : Bool) (r : RunOp) {a : Nat} (ha : a < blockBase 2)
    (hs : a ∉ coreShown n) :
    (s.endOp n u onX r).reg a = s.reg a := by
  have hp := s.endPushes_queuesAlone n u r
  calc (s.endOp n u onX r).reg a = ((s.endPushes n u r).endSignals n u onX r).reg a := State.refresh_sameRegs _ n a hs
    _ = (s.endPushes n u r).reg a := ((s.endPushes n u r).endSignals_sigsAlone n u onX r).regs a ha
    _ = s.reg a := hp.regs a hs

end Sys2Proof.Machine
end

section
/-! SUPPORT. Each unit's own part of its last beat: what the vector unit, the array and a sluice leave of their core and show of their
results (R138, R140, R162, R167). -/

namespace Sys2Proof.Machine

/-! ### Fields beside those that hardware sets or counts -/

theorem State.get_hwSet_other (s : State) (a : Nat) (f g : BitField) (v : Nat) (h : f.lo + f.width ≤ g.lo ∨ g.lo + g.width ≤ f.lo) :
    (s.hwSet a f v).get a g = s.get a g := s.get_put_other a f g _ h

theorem State.get_addTo_other (s : State) (a : Nat) (f g : BitField) (v : Nat) (h : f.lo + f.width ≤ g.lo ∨ g.lo + g.width ≤ f.lo) :
    (s.addTo a f v).get a g = s.get a g := by
  unfold State.addTo State.hwPut
  split
  · rfl
  · exact s.get_put_other a f g _ h

theorem ARRAY_STAT_belowPace (core : Fin 256) : Reg.ARRAY_STAT core < blockBase 2 := by
  simp only [Reg.ARRAY_STAT, coreRegs, coreBase, blockBase]; omega

theorem VEC_STAT_belowPace (core : Fin 256) : Reg.VEC_STAT core < blockBase 2 := by
  simp only [Reg.VEC_STAT, coreRegs, coreBase, blockBase]; omega

/-! ### The writes of a vector instruction -/

/-- `t` stands as `s` in core `n`, but for the errors that the instruction of its vector unit has met, and the writes that its beat
defers. -/
structure VectorWrites (n : Nat) (s t : State) : Prop where
  core : t.core n = { s.core n with vector := (t.core n).vector, later := (t.core n).later }
  run  : ∀ r, (s.core n).vector = some r → ∃ l p, (t.core n).vector = some { r with logged := l, poison := p }

theorem VectorWrites.ofCores {n : Nat} {s t : State} (h : t.cores = s.cores) : VectorWrites n s t := by
  have hc := State.core_congr h n
  exact ⟨by rw [hc], fun r hr => ⟨r.logged, r.poison, by rw [hc, hr]⟩⟩

theorem VectorWrites.refl (n : Nat) (s : State) : VectorWrites n s s := .ofCores rfl

theorem VectorWrites.trans {n : Nat} {s t u : State} (h : VectorWrites n s t) (k : VectorWrites n t u) : VectorWrites n s u := by
  refine ⟨by rw [k.core, h.core], fun r hr => ?_⟩
  obtain ⟨l, p, hl⟩ := h.run r hr
  obtain ⟨l', p', hl'⟩ := k.run _ hl
  exact ⟨l', p', hl'⟩

theorem VectorWrites.modRun (n : Nat) (s : State) {f : RunOp → RunOp} (h : ∀ r, ∃ l p, f r = { r with logged := l, poison := p }) :
    VectorWrites n s (s.modRun n .vector f) := by
  unfold State.modRun
  split
  · next r hr =>
    have hv : (s.core n).vector = some r := hr
    obtain ⟨l, p, e⟩ := h r
    refine ⟨by rw [State.setRun, State.core_setCore_same]; rfl, fun x hx => ⟨l, p, ?_⟩⟩
    obtain rfl : r = x := Option.some.inj (hv.symm.trans hx)
    rw [State.setRun, State.core_setCore_same, ← e]
    rfl
  · exact .refl n s

theorem State.readLines_vector (s : State) (n a len : Nat) : VectorWrites n s (s.readLines n .vector a len).1 := by
  unfold State.readLines
  extract_lets bad
  split
  · exact .refl n s
  · refine (VectorWrites.ofCores (s.noteLines_changes _ _ _ _).cores).trans (.modRun n _ fun r => ⟨_, r.poison, rfl⟩)

theorem State.taint_vector (s : State) (n : Nat) (bad : Bool) : VectorWrites n s (s.taint n .vector bad) := by
  unfold State.taint
  split
  · exact .modRun n s fun r => ⟨r.logged, true, rfl⟩
  · exact .refl n s

theorem State.lineWrite_vector (s : State) (n rank la mask val : Nat) (poison : Bool) :
    VectorWrites n s (s.lineWrite rank la mask val poison) := by
  unfold State.lineWrite
  extract_lets m c
  split
  · by_cases h : n = m
    · subst h
      exact ⟨by rw [State.core_setCore_same], fun r hr => ⟨r.logged, r.poison, by rw [State.core_setCore_same]; exact hr⟩⟩
    · have hc := s.core_setCore_ne { c with later := c.later ++ [⟨rank, la, mask, val, poison⟩] } h
      exact ⟨by rw [hc], fun r hr => ⟨r.logged, r.poison, by rw [hc, hr]⟩⟩
  · exact .ofCores (s.mergeLine_changes la mask val poison).cores

theorem State.writeLine_vector (s : State) (n rank : Nat) (ws : List PendWrite) (la : Nat) :
    VectorWrites n s (s.writeLine n .vector rank ws la) := by
  unfold State.writeLine
  extract_lets here mask val bad
  split
  rename_i t ue e
  have ht : VectorWrites n s t := by
    split at e
    · obtain ⟨rfl, -⟩ := Prod.mk.inj e
      exact .refl n s
    · have := s.readLines_vector n la 32
      rwa [e] at this
  exact (ht.trans (t.taint_vector n _)).trans (State.lineWrite_vector _ n _ _ _ _ _)

theorem State.applyWrites_vector (s : State) (n rank : Nat) (ws : List PendWrite) : VectorWrites n s (s.applyWrites n .vector rank ws) := by
  unfold State.applyWrites
  generalize touched ws = L
  induction L generalizing s with
  | nil => exact .refl n s
  | cons la L ih => exact (s.writeLine_vector n rank ws la).trans (ih _)

/-! ### The last beat of a vector instruction -/

/-- Vector AFAs once an instruction has left its own among them (R166, R167). -/
def RunOp.afaInto (r : RunOp) (m : SMap Afa) : SMap Afa :=
  match r.afa with
  | some (k, a) => smPut m k a
  | none => m

/-- A vector instruction leaves its accumulator in its core. -/
def State.vecAfa (s : State) (n : Nat) (r : RunOp) : State :=
  match r.afa with
  | some (i, a) => s.setCore n { s.core n with vafa := smPut (s.core n).vafa i a }
  | none => s

/-- What VEC_STAT shows of a vector instruction (R162, R167). -/
def State.vecShow (s : State) (n : Nat) (r : RunOp) : State :=
  let a := Reg.VEC_STAT n
  let s := s.put a Fld.VEC_STAT.last_lane r.lane
  let s := s.hwSet a Fld.VEC_STAT.lane r.lane
  let s := match r.drain with
    | some f => (s.put a Fld.VEC_STAT.last_afa f).hwSet a Fld.VEC_STAT.afa f
    | none => s
  let s := if r.ovf then s.logCore n 0x3603 0 0 (some (dTag r.desc)) else s
  let s := s.put a Fld.VEC_STAT.busy 0
  s.addTo a Fld.VEC_STAT.op_count 1

theorem State.vecEnd_eq (s : State) (n : Nat) (r : RunOp) :
    s.vecEnd n r = ((s.applyWrites n .vector 4 r.writes).vecAfa n r).vecShow n r := rfl

theorem State.vecAfa_changes (s : State) (n : Nat) (r : RunOp) : Changes [.cores] s (s.vecAfa n r) := by
  unfold State.vecAfa
  split
  · exact State.setCore_changes _ _ _
  · exact .refl _ s

theorem State.vecAfa_core (s : State) (n : Nat) (r : RunOp) :
    (s.vecAfa n r).core n = { s.core n with vafa := r.afaInto (s.core n).vafa } := by
  unfold State.vecAfa RunOp.afaInto
  cases r.afa with
  | none => rfl
  | some p => exact State.core_setCore_same _ _ _

theorem State.vecShow_changes (s : State) (n : Nat) (r : RunOp) : Changes logParts s (s.vecShow n r) := by
  unfold State.vecShow
  extract_lets a s1 s2 s3 s4 s5
  have h2 : Changes logParts s s2 := ((s.put_changes _ _ _).widen rfl).step (s1.hwSet_changes _ _ _) rfl
  have h3 : Changes logParts s s3 := by
    simp only [s3]
    split
    · exact (h2.step (s2.put_changes _ _ _) rfl).step (State.hwSet_changes _ _ _ _) rfl
    · exact h2
  have h4 : Changes logParts s s4 := h3.iteThen ((s3.logCore_changes _ _ _ _ _).widen rfl)
  exact (h4.step (s4.put_changes _ _ _) rfl).step (s5.addTo_changes _ _ _) rfl

theorem State.vecShow_last_lane (s : State) (core : Fin 256) (r : RunOp) :
    (s.vecShow core r).get (Reg.VEC_STAT core) Fld.VEC_STAT.last_lane = r.lane % 2 ^ Fld.VEC_STAT.last_lane.width := by
  unfold State.vecShow
  extract_lets a s1 s2 s3 s4 s5
  have h2 : s2.get a Fld.VEC_STAT.last_lane = r.lane % 2 ^ Fld.VEC_STAT.last_lane.width := by
    rw [s1.get_hwSet_other _ _ _ _ (by decide), s.get_put_same _ _ _ (by decide)]
  have h3 : s3.get a Fld.VEC_STAT.last_lane = s2.get a Fld.VEC_STAT.last_lane := by
    simp only [s3]
    split
    · rw [State.get_hwSet_other _ _ _ _ _ (by decide), s2.get_put_other _ _ _ _ (by decide)]
    · rfl
  have h4 : s4.get a Fld.VEC_STAT.last_lane = s3.get a Fld.VEC_STAT.last_lane := by
    simp only [s4]
    split
    · exact s3.logErr_get _ _ (errReg_belowPace (VEC_STAT_belowPace core))
    · rfl
  rw [s5.get_addTo_other _ _ _ _ (by decide), s4.get_put_other _ _ _ _ (by decide), h4, h3, h2]

/-! ### The last beat of a multiply -/

/-- The array shows its flags, whether it met poison, and that it is idle (R138, R140). -/
theorem State.mmulEnd_shows (s : State) (core : Fin 256) (r : RunOp) :
    (s.mmulEnd core r).get (Reg.ARRAY_STAT core) Fld.ARRAY_STAT.busy = 0 ∧
    (s.mmulEnd core r).get (Reg.ARRAY_STAT core) Fld.ARRAY_STAT.last_flags = r.drain.getD 0 % 2 ^ Fld.ARRAY_STAT.last_flags.width ∧
    (s.mmulEnd core r).get (Reg.ARRAY_STAT core) Fld.ARRAY_STAT.last_poison = if (s.core core).arrayBad then 1 else 0 := by
  unfold State.mmulEnd
  extract_lets a f bad s1 s2 s3 s4 s5 s6
  have hlog : ∀ g, (if r.ovf then s6.logCore core 0x3603 0 0 (some (dTag r.desc)) else s6).get a g = s6.get a g := fun g => by
    split
    · exact s6.logErr_get _ _ (errReg_belowPace (ARRAY_STAT_belowPace core))
    · rfl
  have hbad : bad % 2 ^ Fld.ARRAY_STAT.last_poison.width = bad := by
    simp only [bad]
    split <;> rfl
  refine ⟨?_, ?_, ?_⟩
  · rw [hlog, s5.get_addTo_other _ _ _ _ (by decide), s4.get_put_same _ _ _ (by decide)]
    rfl
  · rw [hlog, s5.get_addTo_other _ _ _ _ (by decide), s4.get_put_other _ _ _ _ (by decide), s3.get_hwSet_other _ _ _ _ (by decide),
      s2.get_put_other _ _ _ _ (by decide), s1.get_hwSet_other _ _ _ _ (by decide), s.get_put_same _ _ _ (by decide)]
  · rw [hlog, s5.get_addTo_other _ _ _ _ (by decide), s4.get_put_other _ _ _ _ (by decide), s3.get_hwSet_other _ _ _ _ (by decide),
      s2.get_put_same _ _ _ (by decide), hbad]

/-! ### Every unit -/

/-- No unit but the vector unit changes a core, or a byte of memory, in its own part of its last beat. -/
theorem State.unitEnd_changes_other (s : State) (n : Nat) {u : UnitId} (r : RunOp) (h : u ≠ .vector) :
    Changes logParts s (s.unitEnd n u r) := by
  unfold State.unitEnd
  split
  · exact (s.mmulEnd_changes n r).widen rfl
  · exact absurd rfl h
  · exact .refl _ s
  · exact ((s.delTx_changes n _).widen rfl).step (State.showTx_changes _ _ _) rfl
  · exact .refl _ s

theorem State.unitEnd_vector (s : State) (n : Nat) {r : RunOp} {i : Nat} (h : opKind (opByte r.desc) = some (.vec i)) :
    s.unitEnd n .vector r = s.vecEnd n r := by
  unfold State.unitEnd
  rw [h]

/-- Of the core a unit's own part of its last beat leaves all but what a vector instruction is and leaves. -/
theorem State.unitEnd_core (s : State) (n : Nat) (u : UnitId) (r : RunOp) : (s.unitEnd n u r).core n = { s.core n with
    vector := ((s.unitEnd n u r).core n).vector, vafa := ((s.unitEnd n u r).core n).vafa, later := ((s.unitEnd n u r).core n).later } := by
  have same : ∀ {t : State}, t.cores = s.cores → t.core n = { s.core n with
      vector := (t.core n).vector, vafa := (t.core n).vafa, later := (t.core n).later } := fun h => by rw [State.core_congr h]
  by_cases hu : u = .vector
  · subst hu
    unfold State.unitEnd
    split
    · contradiction
    · have hc := (s.applyWrites_vector n 4 r.writes).core
      rw [State.vecEnd_eq, State.core_congr (State.vecShow_changes _ n r).cores, State.vecAfa_core, hc]
    · contradiction
    · contradiction
    · exact same rfl
  · exact same (s.unitEnd_changes_other n r hu).cores

/-- A unit's own part of its last beat leaves what its operation is. -/
theorem State.unitEnd_running (s : State) {n : Nat} {u : UnitId} {r : RunOp} (h : (s.core n).running u = some r) :
    ∃ l p, ((s.unitEnd n u r).core n).running u = some { r with logged := l, poison := p } := by
  by_cases hu : u = .vector
  · subst hu
    unfold State.unitEnd
    split
    · contradiction
    · obtain ⟨l, p, e⟩ := (s.applyWrites_vector n 4 r.writes).run r h
      refine ⟨l, p, ?_⟩
      rw [State.vecEnd_eq, State.core_congr (State.vecShow_changes _ n r).cores, State.vecAfa_core]
      exact e
    · contradiction
    · contradiction
    · exact ⟨r.logged, r.poison, h⟩
  · exact ⟨r.logged, r.poison, by rw [State.core_congr (s.unitEnd_changes_other n r hu).cores, h]⟩

end Sys2Proof.Machine
end

section
/-! SUPPORT. The last beat of an operation (R182, R186, R211, R219): it ends, or holds the die for its late items, and what it leaves of
memory and of its core. -/

namespace Sys2Proof.Machine

/-! ### Where it ends -/

/-- An operation that waits for nothing more ends in its last beat, as the operation it was but for errors that it has met. -/
theorem State.lastBeat_ends {s : State} {n : Nat} {u : UnitId} {r : RunOp} (h : EndsNow s n u r) :
    ∃ x, s.lastBeat n u = ((s.unitEnd n u r).endOp n u (onXUnit u) x).showAfter n u ∧ x.desc = r.desc ∧ x.user = r.user ∧
      x.dead = r.dead ∧ x.legacy = r.legacy := by
  obtain ⟨hrun, hb, hc, hh, hl, hk⟩ := h
  obtain ⟨l, p, hr⟩ := s.unitEnd_running hrun
  have hkinds : (if r.dead then none else s.lateKinds n u) = none := by
    rcases hk with hd | hd
    · simp [hd]
    · simp [hd]
  refine ⟨{ r with logged := l, poison := p }, ?_, rfl, rfl, rfl, rfl⟩
  unfold State.lastBeat
  rw [hrun]
  dsimp only
  rw [if_neg (by simp only [hb, Bool.not_true, Bool.false_eq_true, false_or]; omega), hh, if_neg (by decide), if_neg hl, hkinds]
  dsimp only
  rw [hr, Option.getD_some]

theorem State.showAfter_core (s : State) (n : Nat) (u : UnitId) (m : Nat) : (s.showAfter n u).core m = s.core m :=
  State.core_congr (s.showAfter_changes n u).cores m

/-- Of its core an operation that ends leaves all but its unit, the queues, the signals of the beat, and what a vector instruction is and
leaves. -/
theorem State.lastBeat_core {s : State} {n : Nat} {u : UnitId} {r : RunOp} (h : EndsNow s n u r) :
    (s.lastBeat n u).core n = { ((s.unitEnd n u r).core n).ended u (s.beatOf n) with
      queues := ((s.lastBeat n u).core n).queues, qseq := ((s.lastBeat n u).core n).qseq,
      qlate := ((s.lastBeat n u).core n).qlate, sigs := ((s.lastBeat n u).core n).sigs } := by
  obtain ⟨x, e, -⟩ := State.lastBeat_ends h
  have hb : (s.unitEnd n u r).beatOf n = s.beatOf n := State.beatOf_congr (s.unitEnd_changes n u r).reaches n
  have hc := (s.unitEnd n u r).endOp_core n u (onXUnit u) x
  rw [hb] at hc
  rw [e, State.showAfter_core, hc]

theorem Core.ended_fifo (c : Core) (u : UnitId) (b : Nat) (onX : Bool) : (c.ended u b).fifo onX = c.fifo onX := c.fifo_setRunning u none onX

theorem Core.ended_x (c : Core) (u : UnitId) (b : Nat) : (c.ended u b).x = c.x := by cases u <;> rfl

theorem Core.ended_acc (c : Core) (u : UnitId) (b : Nat) : (c.ended u b).acc = c.acc := by cases u <;> rfl

theorem Core.ended_vafa (c : Core) (u : UnitId) (b : Nat) : (c.ended u b).vafa = c.vafa := by cases u <;> rfl

theorem Core.ended_later (c : Core) (u : UnitId) (b : Nat) : (c.ended u b).later = c.later := by cases u <;> rfl

/-- A register of the array or the vector unit is none that show the core. -/
theorem not_mem_coreShown (core : Fin 256) {x : Nat} (h : 0x800 ≤ x) (k : x < 0xA00) : coreRegs core + x ∉ coreShown core := by
  have hd : coreRegs core + 0xA00 ≤ Reg.DTRM_STAT := by
    refine Nat.le_trans (m := blockBase 2) ?_ (le_blockReg (by decide))
    simp only [coreRegs, coreBase, blockBase]
    omega
  simp only [coreShown, List.mem_cons, List.not_mem_nil, or_false, Reg.KEEP_PC, Reg.CORE_STAT, Reg.QUEUE_STAT, Reg.ASTREAM_STAT,
    Reg.XSTREAM_STAT, Reg.INGRESS_STAT]
  omega

/-- The array shows after its last beat what its own part of it left. -/
theorem State.lastBeat_array_get {s : State} {core : Fin 256} {r : RunOp} (h : EndsNow s core .array r) (f : BitField) :
    (s.lastBeat core .array).get (Reg.ARRAY_STAT core) f = (s.mmulEnd core r).get (Reg.ARRAY_STAT core) f := by
  obtain ⟨x, e, -⟩ := State.lastBeat_ends h
  rw [e]
  exact congrArg f.get (State.endOp_reg _ _ _ _ _ (ARRAY_STAT_belowPace core) (not_mem_coreShown core (by decide) (by decide)))

theorem State.lastBeat_vector_get {s : State} {core : Fin 256} {r : RunOp} {i : Nat} (h : EndsNow s core .vector r)
    (hk : opKind (opByte r.desc) = some (.vec i)) (f : BitField) :
    (s.lastBeat core .vector).get (Reg.VEC_STAT core) f = (s.vecEnd core r).get (Reg.VEC_STAT core) f := by
  obtain ⟨x, e, -⟩ := State.lastBeat_ends h
  rw [e, s.unitEnd_vector core hk]
  exact congrArg f.get (State.endOp_reg _ _ _ _ _ (VEC_STAT_belowPace core) (not_mem_coreShown core (by decide) (by decide)))

/-- What the obligation says of an operation that ends: its unit, its core, its pushes, its signal, and the array's idleness. -/
theorem macroOpLastBeat_ends {core : Fin 256} {u : UnitId} {r : RunOp} {s : State} (h : EndsNow s core u r) :
    Gives (.macroOpLastBeat core u) s fun t =>
      (t.core core).running u = none ∧ smFind (t.core core).freed (unitNum u) = some (s.beatOf core) ∧
      (∀ onX, (t.core core).fifo onX = (s.core core).fifo onX) ∧ (t.core core).x = (s.core core).x ∧
      ((s.core core).queues.length = 8 → ∀ q < 8,
        ((dPush r.desc).testBit q = false → (t.core core).queues.getD q [] = (s.core core).queues.getD q []) ∧
        ((dPush r.desc).testBit q = true → ((s.core core).queues.getD q []).length < 16 →
          ∃ e, (t.core core).queues.getD q [] = (s.core core).queues.getD q [] ++ [e] ∧ e.beat = s.beatOf core ∧
            leNat ((e.bytes.drop 16).take 2) = dTag r.desc ∧
            leNat ((e.bytes.drop 18).take 2) = (s.core core).qseq.getD q 0 % 65536 ∧ e.bytes.drop 32 = r.user)) ∧
      ((dPost r.desc).kind = 1 → (dPost r.desc).n ≠ 0 → r.dead = false → r.legacy = false →
        (t.core core).sigs = (s.core core).sigs ++
          [⟨(dPost r.desc).index, (dPost r.desc).n, core, issuerNum (issuerOf (onXUnit u))⟩]) ∧
      (u = .array → t.get (Reg.ARRAY_STAT core) Fld.ARRAY_STAT.busy = 0) := by
  refine Gives.intro rfl ?_
  obtain ⟨x, e, hdesc, huser, hdead, hleg⟩ := State.lastBeat_ends h
  have hb : (s.unitEnd core u r).beatOf core = s.beatOf core := State.beatOf_congr (s.unitEnd_changes core u r).reaches core
  have hc := s.unitEnd_core core u r
  have ht := State.lastBeat_core h
  refine ⟨?_, ?_, fun onX => ?_, ?_, fun hl q hq => ⟨fun hm => ?_, fun hm hr => ?_⟩, fun hk hn hd hg => ?_, ?_⟩
  · rw [e, State.showAfter_core, State.endOp_running]
  · rw [e, State.showAfter_core, State.endOp_freed, hb]
  · rw [ht]
    exact (Core.ended_fifo _ u (s.beatOf core) onX).trans (by rw [hc]; rfl)
  · rw [ht]
    exact (Core.ended_x _ u (s.beatOf core)).trans (by rw [hc])
  · rw [e, State.showAfter_core, State.endOp_queue_other _ _ _ _ (by rw [hdesc, hm]), hc]
  · have push := State.endOp_queue (s.unitEnd core u r) core u (onXUnit u) (r := x) (by rw [hdesc, hm]) hq (by rw [hc]; exact hl)
      (by rw [hc]; exact hr)
    refine ⟨_, (by rw [e, State.showAfter_core, push, hc]), hb, ?_, ?_, ?_⟩
    · exact (RunOp.entry_tag _ _ _).trans (congrArg dTag hdesc)
    · exact RunOp.entry_seq _ _ _
    · exact (RunOp.entry_user _ _ _).trans huser
  · rw [e, State.showAfter_core, State.endOp_sigs _ _ _ _ (by rw [hdesc, hk]) (by rw [hdesc]; exact hn) (by rw [hdead, hd])
      (by rw [hleg, hg]), hc, hdesc]
  · rintro rfl
    rw [State.lastBeat_array_get h]
    exact (s.mmulEnd_shows core r).1

/-! ### Where it holds the die -/

/-- Late items of a hold or of another chip raise a hold request, and no core stands otherwise (R219). -/
theorem State.lateTransfer_holds (s : State) (n : Nat) (u : UnitId) {hold link : Bool} (h : (hold || link) = true) :
    (s.lateTransfer n u hold link).cores = s.cores ∧
      { cause := if link then .linkLate else .memoryLate, core := n, unit := some u } ∈ (s.lateTransfer n u hold link).die.holds := by
  unfold State.lateTransfer
  extract_lets step mesh t
  have ht : t.cores = s.cores := by
    simp only [t]
    split
    · exact (State.logCore_changes _ _ _ _ _ _).cores
    · rfl
  rw [if_pos (by simpa using h)]
  exact ⟨(t.holdOn_changes _).cores.trans ht, (t.mem_holdOn _ _).mpr (.inr rfl)⟩

/-- What the obligation says of a transfer with late items: it goes on, and the die is held for it. -/
theorem macroOpLastBeat_late {core : Fin 256} {u : UnitId} {r : RunOp} {s : State} {hold link : Bool}
    (hrun : (s.core core).running u = some r)
    (hb : s.inBeat core = true) (hc : r.start + r.cost ≤ s.beatOf core + 1) (hh : s.die.holds.any (unitHold core u) = false)
    (hl : ¬(u = .array ∧ (s.core core).arrayLate = true)) (hd : r.dead = false) (hk : s.lateKinds core u = some (hold, link))
    (h : (hold || link) = true) (ha : s.arriving core = false) : Gives (.macroOpLastBeat core u) s fun t =>
      (t.core core).running u = some r ∧
      { cause := if link then .linkLate else .memoryLate, core := core.val, unit := some u } ∈ t.die.holds := by
  have e : s.lastBeat core u = s.lateTransfer core u hold link := by
    unfold State.lastBeat
    rw [hrun]
    dsimp only
    rw [if_neg (by simp only [hb, Bool.not_true, Bool.false_eq_true, false_or]; omega), hh, if_neg (by decide), if_neg hl, hd,
      if_neg (by decide), hk]
    dsimp only
    rw [ha, if_neg (by decide)]
  refine Gives.intro (t := s.lateTransfer core u hold link) (congrArg Host.Outcome.next e) ?_
  obtain ⟨hcores, hmem⟩ := s.lateTransfer_holds core u h
  exact ⟨by rw [State.core_congr hcores, hrun], hmem⟩

/-! ### What it leaves of memory and of its core -/

theorem Land.sameBytes {ws : List PendWrite} {s t u : State} (h : Land ws s t) (k : SameBytes t u) : Land ws s u :=
  ⟨fun w hw j hj => (k.bitOf _).trans (h.1 w hw j hj), fun b hb => (k.bitOf b).trans (h.2 b hb)⟩

/-- No byte changes in the end of an operation but those that the unit's own part writes. -/
theorem State.lastBeat_bytes {s : State} {n : Nat} {u : UnitId} {r : RunOp} (h : EndsNow s n u r) :
    SameBytes (s.unitEnd n u r) (s.lastBeat n u) := by
  obtain ⟨x, e, -⟩ := State.lastBeat_ends h
  have hc := ((s.unitEnd n u r).endOp_changes n u (onXUnit u) x).step (State.showAfter_changes _ n u) rfl
  rw [e]
  exact fun a => State.byte_congr (hc.mem rfl) (hc.ecc rfl) a

theorem State.vecEnd_bytes (s : State) (n : Nat) (r : RunOp) : SameBytes (s.applyWrites n .vector 4 r.writes) (s.vecEnd n r) := by
  have hc : Changes (.cores :: logParts) (s.applyWrites n .vector 4 r.writes) (s.vecEnd n r) :=
    ((State.vecAfa_changes _ n r).widen rfl).step (State.vecShow_changes _ n r) rfl
  exact fun a => State.byte_congr (hc.mem rfl) (hc.ecc rfl) a

theorem State.vecEnd_core (s : State) (n : Nat) (r : RunOp) :
    (s.vecEnd n r).core n = { (s.applyWrites n .vector 4 r.writes).core n with vafa := r.afaInto (s.core n).vafa } := by
  have hv : ((s.applyWrites n .vector 4 r.writes).core n).vafa = (s.core n).vafa := by rw [(s.applyWrites_vector n 4 r.writes).core]
  rw [State.vecEnd_eq, State.core_congr (State.vecShow_changes _ n r).cores, State.vecAfa_core, hv]

/-- What the obligation says of a vector instruction's last beat. -/
theorem macroOpLastBeat_vector {core : Fin 256} {r : RunOp} {i : Nat} {s : State} (h : EndsNow s core .vector r)
    (hk : opKind (opByte r.desc) = some (.vec i)) : Gives (.macroOpLastBeat core .vector) s fun t =>
      SameBytes (s.applyWrites core .vector 4 r.writes) t ∧
      (t.core core).later = ((s.applyWrites core .vector 4 r.writes).core core).later ∧
      (s.wf = true → Apart s r.writes → Land r.writes s t) ∧ (t.core core).acc = (s.core core).acc ∧
      (t.core core).vafa = r.afaInto (s.core core).vafa ∧
      t.get (Reg.VEC_STAT core) Fld.VEC_STAT.last_lane = r.lane % 2 ^ Fld.VEC_STAT.last_lane.width := by
  refine Gives.intro rfl ?_
  have hu := s.unitEnd_vector core hk
  have hb : SameBytes (s.applyWrites core .vector 4 r.writes) (s.lastBeat core .vector) := fun a => by
    rw [State.lastBeat_bytes h, hu, s.vecEnd_bytes core r]
  have ht := State.lastBeat_core h
  have hc := s.unitEnd_core core .vector r
  refine ⟨hb, ?_, fun hw ha => (State.applyWrites_land hw core .vector 4 ha).sameBytes hb, ?_, ?_, ?_⟩
  · rw [ht]
    refine (Core.ended_later ((s.unitEnd core .vector r).core core) .vector (s.beatOf core)).trans ?_
    rw [hu, State.vecEnd_core]
  · rw [ht]
    refine (Core.ended_acc ((s.unitEnd core .vector r).core core) .vector (s.beatOf core)).trans ?_
    rw [hc]
  · rw [ht]
    refine (Core.ended_vafa ((s.unitEnd core .vector r).core core) .vector (s.beatOf core)).trans ?_
    rw [hu, State.vecEnd_core]
  · rw [State.lastBeat_vector_get h hk, State.vecEnd_eq, State.vecShow_last_lane]

/-- What the obligation says of the last beats of the other units. -/
theorem macroOpLastBeat_other {core : Fin 256} {u : UnitId} {r : RunOp} {s : State} (hu : u ≠ .vector) (h : EndsNow s core u r) :
    Gives (.macroOpLastBeat core u) s fun t =>
      SameBytes s t ∧ (t.core core).later = (s.core core).later ∧ (t.core core).acc = (s.core core).acc ∧
      (t.core core).vafa = (s.core core).vafa ∧
      (u = .array → t.get (Reg.ARRAY_STAT core) Fld.ARRAY_STAT.last_flags = r.drain.getD 0 % 2 ^ Fld.ARRAY_STAT.last_flags.width ∧
        t.get (Reg.ARRAY_STAT core) Fld.ARRAY_STAT.last_poison = if (s.core core).arrayBad then 1 else 0) := by
  refine Gives.intro rfl ?_
  have hc := s.unitEnd_changes_other core r hu
  have hcore := State.core_congr hc.cores core
  have ht := State.lastBeat_core h
  rw [hcore] at ht
  refine ⟨fun a => ?_, ?_, ?_, ?_, ?_⟩
  · rw [State.lastBeat_bytes h, State.byte_congr (hc.mem rfl) (hc.ecc rfl)]
  · rw [ht]
    exact Core.ended_later (s.core core) u (s.beatOf core)
  · rw [ht]
    exact Core.ended_acc (s.core core) u (s.beatOf core)
  · rw [ht]
    exact Core.ended_vafa (s.core core) u (s.beatOf core)
  · rintro rfl
    obtain ⟨-, hf, hp⟩ := s.mmulEnd_shows core r
    exact ⟨(State.lastBeat_array_get h _).trans hf, (State.lastBeat_array_get h _).trans hp⟩

end Sys2Proof.Machine
end

section
/-! SUPPORT. Results written before the last beat: the entries of a multiply in a drain beat (R136, R137), and the results of an SRED as
they are served (R250). -/

namespace Sys2Proof.Machine

/-! ### The entries of a drain beat -/

/-- Rows and columns of the entries that drain in the `d`-th drain beat (R137). -/
def MmulOp.drained (o : MmulOp) (d : Nat) : List (Nat × Nat) :=
  (List.range (drainPerBeat o.dfmt)).filterMap fun i =>
    let e := d * drainPerBeat o.dfmt + i
    if e < o.m * o.nTile ∧ e % o.nTile < o.n then some (e / o.nTile, e % o.nTile) else none

theorem MmulOp.mem_drained {o : MmulOp} {d : Nat} {x : Nat × Nat} : x ∈ o.drained d ↔
    ∃ i < drainPerBeat o.dfmt, (d * drainPerBeat o.dfmt + i < o.m * o.nTile ∧ (d * drainPerBeat o.dfmt + i) % o.nTile < o.n) ∧
      ((d * drainPerBeat o.dfmt + i) / o.nTile, (d * drainPerBeat o.dfmt + i) % o.nTile) = x := by
  simp only [MmulOp.drained, List.mem_filterMap, List.mem_range, Option.ite_none_right_eq_some, Option.some.injEq]

/-- What drains lies within the tile's rows and the columns that are asked for. -/
theorem MmulOp.drained_lt {o : MmulOp} {d : Nat} {x : Nat × Nat} (h : x ∈ o.drained d) : x.1 < o.m ∧ x.2 < o.n := by
  obtain ⟨i, -, ⟨h1, h2⟩, rfl⟩ := MmulOp.mem_drained.mp h
  exact ⟨Nat.div_lt_of_lt_mul (by rwa [Nat.mul_comm o.nTile]), h2⟩

theorem MmulOp.drained_nodup (o : MmulOp) (d : Nat) : (o.drained d).Nodup := by
  refine List.Nodup.filterMap (fun i j x hi hj => ?_) List.nodup_range
  simp only [Option.mem_def, Option.ite_none_right_eq_some, Option.some.injEq] at hi hj
  obtain ⟨-, rfl⟩ := hi
  obtain ⟨-, hx⟩ := hj
  obtain ⟨h1, h2⟩ := Prod.mk.inj hx
  have ei := Nat.div_add_mod (d * drainPerBeat o.dfmt + i) o.nTile
  have ej := Nat.div_add_mod (d * drainPerBeat o.dfmt + j) o.nTile
  rw [h1, h2] at ej
  omega

/-- The entry of a row and a column drains in the beat that its place falls into. -/
theorem MmulOp.mem_drained_of_place {o : MmulOp} {d m col : Nat} (hm : m < o.m) (hc : col < o.n) (hn : o.n ≤ o.nTile)
    (h1 : d * drainPerBeat o.dfmt ≤ m * o.nTile + col) (h2 : m * o.nTile + col < (d + 1) * drainPerBeat o.dfmt) :
    (m, col) ∈ o.drained d := by
  have hcol : col < o.nTile := by omega
  have hdiv : (m * o.nTile + col) / o.nTile = m := by
    rw [Nat.mul_comm, Nat.mul_add_div (by omega), Nat.div_eq_of_lt hcol, Nat.add_zero]
  have hmod : (m * o.nTile + col) % o.nTile = col := by
    rw [Nat.mul_add_mod_self_right, Nat.mod_eq_of_lt hcol]
  have hlt : m * o.nTile + col < o.m * o.nTile := by
    have := Nat.mul_le_mul_right o.nTile (show m + 1 ≤ o.m by omega)
    rw [Nat.succ_mul] at this
    omega
  rw [Nat.succ_mul] at h2
  refine MmulOp.mem_drained.mpr ⟨m * o.nTile + col - d * drainPerBeat o.dfmt, by omega, ?_⟩
  rw [show d * drainPerBeat o.dfmt + (m * o.nTile + col - d * drainPerBeat o.dfmt) = m * o.nTile + col by omega, hdiv, hmod]
  exact ⟨⟨hlt, hc⟩, rfl⟩

/-! ### Their writes -/

/-- The write of a drained entry, to its place in the destination (R136, R140). -/
def State.drainWrite (s : State) (n : Nat) (o : MmulOp) (x : Nat × Nat) : PendWrite :=
  ⟨8 * (s.placeAddr n o.dstBase + o.dstStride * x.1 + drainBytes o.dfmt * x.2), 8 * drainBytes o.dfmt, (s.drainEntry n o x.1 x.2).1,
    (s.core n).arrayBad⟩

theorem fmtBits_le (c : Nat) : fmtBits c ≤ 128 := by
  unfold fmtBits
  split <;> decide

/-- Entries of one row follow one another, and a row ends before the next begins. -/
theorem State.drainWrite_apart (s : State) (n : Nat) {o : MmulOp} {x y : Nat × Nat} (hs : o.n * drainBytes o.dfmt ≤ o.dstStride)
    (hx : x.2 < o.n) (hy : y.2 < o.n) (h : x ≠ y) :
    (s.drainWrite n o x).bit + (s.drainWrite n o x).width ≤ (s.drainWrite n o y).bit ∨
      (s.drainWrite n o y).bit + (s.drainWrite n o y).width ≤ (s.drainWrite n o x).bit := by
  have before : ∀ x y : Nat × Nat, x.2 < o.n → (x.1 < y.1 ∨ x.1 = y.1 ∧ x.2 < y.2) →
      o.dstStride * x.1 + drainBytes o.dfmt * x.2 + drainBytes o.dfmt ≤ o.dstStride * y.1 + drainBytes o.dfmt * y.2 := by
    intro x y hx hxy
    have hcol : drainBytes o.dfmt * x.2 + drainBytes o.dfmt ≤ o.n * drainBytes o.dfmt := by
      rw [← Nat.mul_succ, Nat.mul_comm]
      exact Nat.mul_le_mul_right _ hx
    rcases hxy with hr | ⟨hr, hc⟩
    · have := Nat.mul_le_mul_left o.dstStride (show x.1 + 1 ≤ y.1 from hr)
      rw [Nat.mul_succ] at this
      omega
    · have := Nat.mul_le_mul_left (drainBytes o.dfmt) (show x.2 + 1 ≤ y.2 from hc)
      rw [Nat.mul_succ] at this
      rw [hr]
      omega
  have hxy : (x.1 < y.1 ∨ x.1 = y.1 ∧ x.2 < y.2) ∨ (y.1 < x.1 ∨ y.1 = x.1 ∧ y.2 < x.2) := by
    have : x.1 ≠ y.1 ∨ x.2 ≠ y.2 := by
      by_contra hc
      exact h (Prod.ext (by tauto) (by tauto))
    omega
  unfold State.drainWrite
  rcases hxy with hb | hb
  · left
    have := before x y hx hb
    dsimp only
    omega
  · right
    have := before y x hy hb
    dsimp only
    omega

/-- The writes of a drain beat stand in bits of their own, where no line of the destination is deferred. -/
theorem State.drainWrites_apart (s : State) (n : Nat) {o : MmulOp} (d : Nat) (hes : 0 < drainBytes o.dfmt)
    (hs : o.n * drainBytes o.dfmt ≤ o.dstStride) (hdef : ∀ i j, i < o.m → j < o.n →
      s.defers (lineOf ((s.drainWrite n o (i, j)).bit / 8)) = false ∧
      s.defers (lineOf (((s.drainWrite n o (i, j)).bit + 8 * drainBytes o.dfmt - 1) / 8)) = false) :
    Apart s ((o.drained d).map (s.drainWrite n o)) := by
  refine ⟨List.pairwise_map.mpr ((o.drained_nodup d).imp_of_mem fun hx hy hne => ?_), fun w hw => ?_⟩
  · exact s.drainWrite_apart n hs (MmulOp.drained_lt hx).2 (MmulOp.drained_lt hy).2 hne
  · obtain ⟨x, hx, rfl⟩ := List.mem_map.mp hw
    obtain ⟨hi, hj⟩ := MmulOp.drained_lt hx
    obtain ⟨h1, h2⟩ := hdef x.1 x.2 hi hj
    have hb : drainBytes o.dfmt ≤ 16 := Nat.div_le_div_right (c := 8) (fmtBits_le o.dfmt)
    refine ⟨?_, ?_, h1, h2⟩
    · show 0 < 8 * drainBytes o.dfmt
      omega
    · show 8 * drainBytes o.dfmt ≤ 256
      omega

/-! ### The drain beat -/

/-- The banks of the units that a drain beat writes are claimed, and its flags join those of the operation (R138, R249); whether a bank
was given before. -/
def State.drainClaims (s : State) (n : Nat) (o : MmulOp) (d : Nat) : State × Bool :=
  let outs := (o.drained d).map fun e => (e, s.drainEntry n o e.1 e.2)
  let units := (((o.drained d).map (s.drainWrite n o)).map fun (w : PendWrite) => w.bit / 512).eraseDups
  let (t, late) := units.foldl (fun (acc : State × Bool) u =>
    let (t, l) := acc.1.claim (64 * u) 64
    (t, acc.2 || l)) (s, false)
  (t.modRun n .array fun x => { x with
    drain := some (outs.foldl (fun f y => f ||| y.2.2.2) (x.drain.getD 0))
    ovf := x.ovf || outs.any (fun y => y.2.2.1.isOvf) }, late)

theorem State.drainClaims_changes (s : State) (n : Nat) (o : MmulOp) (d : Nat) : Changes [.cores] s (s.drainClaims n o d).1 :=
  Changes.trans (Changes.foldlFst (a := (s, false)) (.refl _ s) fun u _ x => u.claim_changes (64 * x) 64) (State.modRun_changes _ _ _ _)

theorem State.arrayDrain_eq (s : State) (n : Nat) (r : RunOp) (o : MmulOp) {t : Nat} (h : r.cost ≤ t + o.d) :
    s.arrayDrain n r o t =
      let c := s.drainClaims n o (t + o.d - r.cost)
      let u := c.1.applyWrites n .array 3 ((o.drained (t + o.d - r.cost)).map (s.drainWrite n o))
      if c.2 then u.arrayMissed n else u := by
  unfold State.arrayDrain State.drainClaims
  rw [if_neg (by omega)]
  simp only [List.map_map]
  rfl

/-- An entry that drains in a beat lands in its place. -/
theorem State.arrayDrain_lands {s : State} (hw : s.wf = true) (n : Nat) {r : RunOp} {o : MmulOp} {b m col : Nat}
    (hs : o.n * drainBytes o.dfmt ≤ o.dstStride) (hn : o.n ≤ o.nTile) (hr : r.cost ≤ b + o.d) (hm : m < o.m) (hc : col < o.n)
    (h1 : (b + o.d - r.cost) * drainPerBeat o.dfmt ≤ m * o.nTile + col)
    (h2 : m * o.nTile + col < (b + o.d - r.cost + 1) * drainPerBeat o.dfmt)
    (hdef : ∀ i j, i < o.m → j < o.n → s.defers (lineOf ((s.drainWrite n o (i, j)).bit / 8)) = false ∧
      s.defers (lineOf (((s.drainWrite n o (i, j)).bit + 8 * drainBytes o.dfmt - 1) / 8)) = false)
    {k : Nat} (hk : k < 8 * drainBytes o.dfmt) :
    bitOf (s.arrayDrain n r o b) ((s.drainWrite n o (m, col)).bit + k) = (s.drainEntry n o m col).1.testBit k := by
  have hcl := s.drainClaims_changes n o (b + o.d - r.cost)
  have ha := s.drainWrites_apart n (b + o.d - r.cost) (by omega) hs hdef
  rw [s.arrayDrain_eq n r o hr]
  generalize s.drainClaims n o (b + o.d - r.cost) = c at hcl
  have ha' : Apart c.1 ((o.drained (b + o.d - r.cost)).map (s.drainWrite n o)) :=
    ⟨ha.1, fun w hw => by simpa only [State.defers_congr (hcl.reaches rfl)] using ha.2 w hw⟩
  have hland := (State.applyWrites_land (hcl.wf hw) n .array 3 ha').1 (s.drainWrite n o (m, col))
    (List.mem_map_of_mem (MmulOp.mem_drained_of_place hm hc hn h1 h2)) k hk
  dsimp only
  split
  · have := (State.arrayMissed_changes (c.1.applyWrites n .array 3 ((o.drained (b + o.d - r.cost)).map (s.drainWrite n o))) n)
    exact (bitOf_congr (this.mem rfl) (this.ecc rfl) _).trans hland
  · exact hland

/-! ### An SRED -/

/-- A unit of results that is served writes those that begin in it. -/
theorem State.redServe_results {s : State} {n sl : Nat} {r : RunOp} {o : RedOp} (p : Nat × Nat)
    (h : (s.core n).running (sluUnit sl) = some r) (hd : o.listB + o.partB < r.done) : s.redServe n sl o p =
      s.applyWrites n (sluUnit sl) 1 (r.writes.filter fun w => decide (8 * p.1 ≤ w.bit ∧ w.bit < 8 * (p.1 + p.2))) := by
  unfold State.redServe
  simp only [h]
  rw [if_neg (by omega)]

end Sys2Proof.Machine
end

section
/-! SUPPORT. The first beat of a vector instruction (R149, R162, R181): its results are computed from what the beat finds, and stay with it
until its last. -/

namespace Sys2Proof.Machine

/-! ### The head of a stream starts -/

/-- Pushes that waited for pops change queues alone before their beat ends (R187). -/
theorem State.latePushes_queuesAlone (s : State) (n : Nat) : QueuesAlone n s (s.latePushes n false) := by
  unfold State.latePushes
  extract_lets c t
  have ht : QueuesAlone n s t := by
    simp only [t]
    split
    · exact .refl n s
    · exact .set s _ _ _
  generalize c.qlate = L
  revert ht
  generalize t = v
  intro hv
  induction L generalizing v with
  | nil => exact hv
  | cons x L ih =>
    refine ih _ (hv.trans ?_)
    dsimp only
    split
    · exact v.pushNow_queuesAlone n _ _ _
    · exact .set v _ _ _

theorem State.pop_queuesAlone (s : State) (n q : Nat) : QueuesAlone n s (s.pop n q) :=
  ((QueuesAlone.set s _ _ _).trans (State.refresh_queuesAlone _ n)).trans (State.latePushes_queuesAlone _ n)

theorem State.pops_queuesAlone (s : State) (n : Nat) (l : List Nat) : QueuesAlone n s (l.foldl (fun t q => t.pop n q) s) := by
  induction l generalizing s with
  | nil => exact .refl n s
  | cons q l ih => exact (s.pop_queuesAlone n q).trans (ih _)

/-- The unit runs what heads the stream, and the other stream's FIFO stands. -/
theorem State.startHead_core (s : State) (n : Nat) (onX : Bool) (d : List Word) (i : Nat) :
    (∃ r, ((s.startHead n onX d (.vec i)).core n).vector = some r) ∧
      ((s.startHead n onX d (.vec i)).core n).fifo (!onX) = (s.core n).fifo (!onX) := by
  unfold State.startHead
  extract_lets qs ents user poison s1 s2 c b legacy run c1 c2 s3 s4
  have h1 : (s1.core n).fifo (!onX) = (s.core n).fifo (!onX) := by
    simp only [s1]
    split
    · simp only [State.serve, State.core_setCore_same]
      rfl
    · rfl
  have h2 : c.fifo (!onX) = (s1.core n).fifo (!onX) := by
    simp only [c, s2]
    rw [(s1.pops_queuesAlone n qs).core]
    rfl
  have h4 : (s4.refresh n).core n = c2 := by
    rw [State.core_refresh, State.core_congr (s3.addTo_cores _ _ _), State.core_setCore_same]
  rw [h4, ← h1, ← h2]
  cases onX
  · exact ⟨⟨run, rfl⟩, rfl⟩
  · exact ⟨⟨run, rfl⟩, rfl⟩

theorem State.headIs_congr {s t : State} {n : Nat} {onX : Bool} (h : (t.core n).fifo onX = (s.core n).fifo onX) (legacy : Bool)
    (p : OpKind → Bool) : t.headIs n onX legacy p = s.headIs n onX legacy p := by
  rw [State.headIs, h, State.headIs]

/-- Start, or refuse, the head of one stream where it names an operation of a class. -/
def State.startOn (s : State) (n : Nat) (onX legacy : Bool) (p : OpKind → Bool) (go : State → List Word → OpKind → State) : State :=
  match s.headIs n onX legacy p with
  | none => s
  | some (d, k) =>
    match s.headFate n onX with
    | .waits => s
    | .refused code => s.refuseHead n onX d code
    | .starts => go (s.startHead n onX d k) d k

theorem State.startOp_eq (s : State) (n : Nat) (legacy : Bool) (p : OpKind → Bool) (go : State → List Word → OpKind → State) :
    s.startOp n legacy p go = (s.startOn n false legacy p go).startOn n true legacy p go := rfl

theorem State.startOn_none {s : State} {n : Nat} {onX legacy : Bool} {p : OpKind → Bool} (go : State → List Word → OpKind → State)
    (h : s.headIs n onX legacy p = none) : s.startOn n onX legacy p go = s := by
  unfold State.startOn
  rw [h]

theorem State.startOn_starts {s : State} {n : Nat} {onX legacy : Bool} {p : OpKind → Bool} {d : List Word} {k : OpKind}
    (go : State → List Word → OpKind → State) (h : s.headIs n onX legacy p = some (d, k)) (hf : s.headFate n onX = .starts) :
    s.startOn n onX legacy p go = go (s.startHead n onX d k) d k := by
  unfold State.startOn
  rw [h]
  dsimp only
  rw [hf]

/-- Of two streams one of whose heads starts the other takes no part, where that start leaves its FIFO. -/
theorem State.startOp_starts {s : State} {n : Nat} {onX legacy : Bool} {p : OpKind → Bool} {d : List Word} {k : OpKind}
    (go : State → List Word → OpKind → State) (h : Starts s n onX legacy p d k)
    (hgo : ((go (s.startHead n onX d k) d k).core n).fifo (!onX) = (s.core n).fifo (!onX)) :
    s.startOp n legacy p go = go (s.startHead n onX d k) d k := by
  obtain ⟨hd, ho, hf, -⟩ := h
  rw [State.startOp_eq]
  cases onX
  · rw [State.startOn_starts go hd hf]
    exact State.startOn_none go ((State.headIs_congr hgo legacy p).trans ho)
  · have ho : s.headIs n false legacy p = none := ho
    rw [State.startOn_none go ho]
    exact State.startOn_starts go hd hf

/-! ### A vector instruction starts -/

theorem State.modRun_vector {s : State} {n : Nat} {r : RunOp} (h : (s.core n).vector = some r) (f : RunOp → RunOp) :
    (s.modRun n .vector f).core n = { s.core n with vector := some (f r) } := by
  have hr : (s.core n).running .vector = some r := h
  unfold State.modRun State.setRun
  rw [hr]
  exact State.core_setCore_same _ _ _

/-- The results of a vector instruction stay with it, and the rest of its core stands. -/
theorem State.vecStart_core {s : State} {n : Nat} {r : RunOp} (h : (s.core n).vector = some r) (i : Nat) (d : List Word) :
    ∃ x, (s.vecStart n i d).core n = { s.core n with vector := some x } ∧ x.writes = (s.vecRun n (s.vecOf n i d)).writes ∧
      x.afa = (s.vecRun n (s.vecOf n i d)).afa := by
  unfold State.vecStart
  extract_lets o lanes read bad res
  split
  rename_i t logged e
  extract_lets t1 t2
  have ht : t.cores = s.cores := by
    have := (s.noteLines_changes bad (some n) (some (dTag d)) []).cores
    rwa [e] at this
  have h1 : t1.cores = t.cores := by
    simp only [t1]
    split
    · exact ((t.put_changes _ _ _).widen (by rfl : partsIn _ [.free, .regs] = true)).step (State.drawn_changes _) rfl |>.cores
    · rfl
  have hc : t2.core n = s.core n := State.core_congr (h1.trans ht) n
  have hm := State.modRun_vector (s := t2) (n := n) (r := r) (by rw [hc, h])
  simp only [hc] at hm
  exact ⟨_, hm _, rfl, rfl⟩

/-- The command of a vector instruction looks for that instruction at the heads of the streams. -/
theorem exec_vecCmds {core : Fin 256} {i : Nat} {c : Instr} (h : (vecCmds core)[i]? = some c) (s : State) :
    exec c s = .next (s.startVec core false (· == i)) := by
  have hi : i < 27 := (List.getElem?_eq_some_iff.mp h).1
  interval_cases i <;> (obtain rfl := Option.some.inj h; rfl)

/-- The vector instructions of a class. -/
def vecClass (p : Nat → Bool) : OpKind → Bool
  | .vec i => p i
  | _ => false

/-- The first beat of an operation of the vector unit. -/
def State.vecGo (n : Nat) (s : State) (d : List Word) : OpKind → State
  | .vec i => s.vecStart n i d
  | _ => s

theorem State.startVec_eq (s : State) (n : Nat) (legacy : Bool) (p : Nat → Bool) :
    s.startVec n legacy p = s.startOp n legacy (vecClass p) (State.vecGo n) := by
  have hp : (fun k => match k with
    | .vec i => p i
    | _ => false) = vecClass p := by
    funext k
    cases k <;> rfl
  have hg : (fun t d k => match k with
    | .vec i => State.vecStart t n i d
    | _ => t) = State.vecGo n := by
    funext t d k
    cases k <;> rfl
  rw [← hp, ← hg]
  rfl

theorem vecClass_beq (i : Nat) : vecClass (· == i) = (· == .vec i) := by
  funext k
  cases k with
  | vec j =>
    rw [Bool.eq_iff_iff]
    simp [vecClass]
  | _ => rfl

/-- What the obligation says of a vector instruction's first beat. -/
theorem vecCmd_starts {core : Fin 256} {onX : Bool} {d : List Word} {i : Nat} {c : Instr} {s : State}
    (h : (vecCmds core)[i]? = some c) (hs : Starts s core onX false (· == .vec i) d (.vec i)) : Gives c s fun t =>
      let u := s.startHead core onX d (.vec i)
      ∃ x, (t.core core).vector = some x ∧ x.writes = (u.vecRun core (u.vecOf core i d)).writes ∧
        x.afa = (u.vecRun core (u.vecOf core i d)).afa ∧ SameBytes s t := by
  obtain ⟨⟨r, hr⟩, hf⟩ := s.startHead_core core onX d i
  obtain ⟨x, hx, hw, ha⟩ := State.vecStart_core hr i d
  have hc := ((s.startHead_changes core onX d (.vec i)).widen
    (by rfl : partsIn _ [.free, .regs, .die, .cores, .mesh, .idle, .diag, .ibis, .outs] = true)).step
      (State.vecStart_changes _ core i d) rfl
  have hgo : (((s.startHead core onX d (.vec i)).vecStart core i d).core core).fifo (!onX) = (s.core core).fifo (!onX) := by
    rw [hx, ← hf]
    rfl
  have e : s.startVec core false (· == i) = (s.startHead core onX d (.vec i)).vecStart core i d := by
    rw [State.startVec_eq, vecClass_beq]
    exact State.startOp_starts (State.vecGo core) hs hgo
  have hb : SameBytes s ((s.startHead core onX d (.vec i)).vecStart core i d) := fun a => State.byte_congr (hc.mem rfl) (hc.ecc rfl) a
  refine Gives.intro ((exec_vecCmds h s).trans (congrArg Host.Outcome.next e)) ⟨x, ?_, hw, ha, hb⟩
  rw [hx]

end Sys2Proof.Machine
end

section
/-! SUPPORT. The obligation on the last beats of operations and what they leave. -/

namespace Sys2Proof.Machine

/-- Settles O27: a last beat either ends the operation or raises a hold request; the pushes, the signal and the register fields follow
through the end of the operation, and memory through the writes of lines, which land bit by bit. -/
theorem macroOpResults : Obligations.MacroOpResults := by
  unfold Obligations.MacroOpResults
  refine ⟨fun core u r s hrun hb hc hh hl => ⟨fun hk => macroOpLastBeat_ends ⟨hrun, hb, hc, hh, hl, hk⟩,
      fun hold link hd hk h ha => macroOpLastBeat_late hrun hb hc hh hl hd hk h ha⟩,
    fun n rank u ws s hw ha => State.applyWrites_land hw n u rank ha, fun core onX d i c s h hs => vecCmd_starts h hs,
    fun core r i s h hk => macroOpLastBeat_vector h hk, fun core u r s hu h => macroOpLastBeat_other hu h, ?_, ?_⟩
  · intro core r b m col s o es at_ e hw hs hn hr hm hc h1 h2 hdef k hk
    exact State.arrayDrain_lands hw core hs hn hr hm hc h1 h2 hdef hk
  · intro core sl r o p s hw hrun hd ws ha
    rw [State.redServe_results p hrun hd]
    exact State.applyWrites_land hw core (sluUnit sl) 1 ha

end Sys2Proof.Machine
end

section
/-! SUPPORT. The wharfinger's writes by the register path (R451, R597, R598): one that waits for its beat, one that is made at once, and
what one that is made in the registers of a core comes to. -/

namespace Sys2Proof.Machine

/-! ### An access comes to the register path -/

theorem mem_queueReg {x y : RegWait} {l : List RegWait} : y ∈ queueReg x l ↔ y = x ∨ y ∈ l := by
  have h := congrArg (y ∈ ·) (List.takeWhile_append_dropWhile (p := fun z => !x.passes z) (l := l))
  simp only [List.mem_append] at h
  rw [queueReg, List.mem_append, List.mem_cons, ← h]
  exact or_left_comm

/-- With no access due the register path does nothing (R597). -/
theorem State.serveRegs_notDue {s : State} (h : ∀ x ∈ s.die.regQ, s.regDue x = false) : s.serveRegs = s := by
  have hd : s.die.regQ.filter s.regDue = [] := List.filter_eq_nil_iff.mpr fun x hx => by simp [h x hx]
  have hk : s.die.regQ.filter (fun x => !s.regDue x) = s.die.regQ := List.filter_eq_self.mpr fun x hx => by simp [h x hx]
  rw [State.serveRegs, hd, hk]
  rfl

/-- While beats run a write of the wharfinger waits for the next one (R451, R597). -/
theorem State.ownWrite_waits {s : State} (a : Nat) (v : Word) (hp : s.pathNow = false) (hq : ∀ y ∈ s.die.regQ, s.regDue y = false) :
    s.ownWrite a v .none = { s with die := { s.die with
      regQ := queueReg { beat := s.leadBeat, after := s.regBeat a, rank := 1, ask := .access ⟨a, some v, .none⟩ } s.die.regQ } } := by
  refine State.serveRegs_notDue fun y hy => ?_
  obtain rfl | hy := mem_queueReg.mp hy
  · exact (congrArg (· || decide (s.regBeat a < s.regBeat a)) hp).trans (by simp)
  · exact hq y hy

/-- Where none runs and nothing waits it is made at once (R597). -/
theorem State.ownWrite_now {s : State} (a : Nat) (v : Word) (hp : s.pathNow = true) (hq : s.die.regQ = []) :
    s.ownWrite a v .none = s.localWrite s.chipAddr a v .none := by
  obtain ⟨x, hx⟩ : ∃ x : RegWait, x = ⟨s.leadBeat, s.regBeat a, 1, .access ⟨a, some v, .none⟩⟩ := ⟨_, rfl⟩
  have hd : s.regDue x = true := by rw [State.regDue, hp, Bool.true_or]
  have hs : ({ s with die := { s.die with regQ := [] } } : State) = s := by rw [← hq]
  have hw : s.ownWrite a v .none = ([x].filter s.regDue).foldl (fun (t : State) y => t.serveAsk y.ask)
      { s with die := { s.die with regQ := [x].filter fun y => !s.regDue y } } := by
    have e : queueReg x s.die.regQ = [x] := by rw [hq]; rfl
    rw [← e, hx]
    rfl
  rw [hw, List.filter_cons_of_pos hd, List.filter_cons_of_neg (by simp [hd]), List.filter_nil, List.filter_nil, hs, hx]
  rfl

/-- A command that is a write of the wharfinger comes with its others, and made, does what that write does. -/
theorem PathWrites.intro {c : Instr} {a : Nat} {v : Word} {s : State} {P : State → Prop} (hc : exec c s = .next (s.ownWrite a v .none))
    (hp : s.dieOn = true → P (s.localWrite s.chipAddr a v .none)) : PathWrites c a v s P :=
  ⟨fun hn hq => hc.trans (congrArg Host.Outcome.next (State.ownWrite_waits a v hn hq)),
    fun hn hq => hc.trans (congrArg Host.Outcome.next (State.ownWrite_now a v hn hq)), hp⟩

/-! ### The wake that goes before an access (R523) -/

theorem State.wakeFor_regs (s : State) (a : Nat) : SameRegsButErr [] s (s.wakeFor a) := by
  unfold State.wakeFor
  split
  · exact s.wakeOn_regs 2
  · split
    · exact s.wakeOn_regs _
    · exact SameRegsButErr.refl _ _

theorem State.wakeFor_get (s : State) (a : Nat) {b : Nat} (f : BitField) (hb : errReg b = false) : (s.wakeFor a).get b f = s.get b f := by
  rw [State.get, s.wakeFor_regs a b hb (by simp), State.get]

theorem State.wakeFor_sameMarks (s : State) (a : Nat) : SameMarksButErr s (s.wakeFor a) := by
  unfold State.wakeFor
  split
  · exact s.wakeOn_sameMarks 2
  · split
    · exact s.wakeOn_sameMarks _
    · exact SameMarksButErr.refl s

theorem State.wakeFor_enabled (s : State) (a : Nat) {n : Nat} (hn : n < 256) : (s.wakeFor a).enabled n = s.enabled n := by
  have h : errReg (Reg.DEV_CORE_MAP (n / 64)) = false := errReg_belowPace (by simp only [Reg.DEV_CORE_MAP, blockBase]; omega)
  simp only [State.enabled, State.hasBit, s.wakeFor_get a _ h]

theorem State.wakeFor_period (s : State) (a : Nat) (r : Fin 16) : (s.wakeFor a).period r = s.period r := by
  rw [State.period, s.wakeFor_get a _ (errReg_PACE_OPSEL r), s.wakeFor_get a _ (errReg_PACE_OP_TABLE (BitField.get_lt _ _)), State.period]

theorem reachOf_lt {n : Nat} (h : n < 256) : reachOf n < 16 := by
  rw [reachOf]
  omega

/-- The wake leaves the mark of every register that it does not write. -/
theorem State.wakeFor_mark (s : State) (a : Nat) {b : Nat} (hb : errReg b = false) : (s.wakeFor a).mark b = s.mark b := by
  have hm := s.wakeFor_sameMarks a
  have hc := s.wakeFor_changes a
  have hr : (s.wakeFor a).reach = s.reach := funext (State.reach_congr hc.reaches)
  have hp : (s.wakeFor a).period (if decide (b < 0x400000000) = true then reachOf (b / 0x4000000) else 0) =
      s.period (if decide (b < 0x400000000) = true then reachOf (b / 0x4000000) else 0) := by
    split
    next h => exact s.wakeFor_period a ⟨reachOf (b / 0x4000000), reachOf_lt (by simp only [decide_eq_true_eq] at h; omega)⟩
    next => exact s.wakeFor_period a 0
  simp only [State.mark, hm.marks b hb, hm.idle, hc.now, hc.die, hr, hp, s.wakeFor_get a _ (by decide : errReg Reg.PACE_BEAT = false)]

/-! ### Registers of a core (R592) -/

theorem coreReg_belowPace (core : Fin 256) {off : Nat} (ho : off < 0x1000) : coreRegs core + off < blockBase 2 := by
  simp only [coreRegs, coreBase, blockBase]
  omega

theorem coreReg_lt (core : Fin 256) {off : Nat} (ho : off < 0x1000) : coreRegs core + off < 0x400000000 := by
  simp only [coreRegs, coreBase]
  omega

theorem coreReg_div (core : Fin 256) {off : Nat} (ho : off < 0x1000) : (coreRegs core + off) / 0x4000000 = core := by
  simp only [coreRegs, coreBase]
  omega

theorem coreReg_mod (core : Fin 256) {off : Nat} (ho : off < 0x1000) : (coreRegs core + off) % 0x4000000 = 0x6A0000 + off := by
  simp only [coreRegs, coreBase]
  omega

/-- The register path reaches every register of a core while the die is on (R598). -/
theorem State.pathOpen_coreReg {s : State} (core : Fin 256) {off : Nat} (ho : off < 0x1000) (h8 : off % 8 = 0) (hd : s.dieOn = true)
    (write : Bool) : s.pathOpen (coreRegs core + off) write = true := by
  have h0 : (coreRegs core + off) % 8 = 0 := by
    simp only [coreRegs, coreBase]
    omega
  have hb : tollBlock (coreRegs core + off) = false := by
    have hn : blockOfReg (coreRegs core + off) = none := if_neg fun h => Nat.not_le_of_lt (coreReg_lt core ho) h.1
    rw [tollBlock, hn]
    rfl
  have hw : pathWindow (0x6A0000 + off) = true := decide_eq_true (by omega)
  rw [State.pathOpen, h0, hb, hd, if_pos (coreReg_lt core ho), coreReg_mod core ho, hw]
  rfl

/-- A write that the path lets through to a register of a core that is not fenced wakes the die and is that register's (R523, R597). -/
theorem State.localWrite_open {s : State} {a : Nat} (hopen : s.pathOpen a true = true) (hlt : a < 0x400000000)
    (hin : inCoreRegs (a % 0x4000000) = true) (he : (s.wakeFor a).enabled (a / 0x4000000) = true) (chip : Nat) (v : Word) :
    s.localWrite chip a v .none = ((s.wakeFor a).writeCoreReg (a / 0x4000000) (a % 0x4000000 - 0x6A0000) v).1 :=
  (if_neg (by simp [hopen])).trans <| (if_pos hlt).trans <| (if_neg (by simp [he])).trans (if_pos hin)

theorem State.localWrite_coreReg {s : State} {core : Fin 256} {off : Nat} (ho : off < 0x1000) (h8 : off % 8 = 0) (hd : s.dieOn = true)
    (he : s.enabled core = true) (chip : Nat) (v : Word) :
    s.localWrite chip (coreRegs core + off) v .none = ((s.wakeFor (coreRegs core + off)).writeCoreReg core off v).1 := by
  have hin : inCoreRegs (0x6A0000 + off) = true := by
    rw [inCoreRegs, decide_eq_true (by omega), decide_eq_true (by omega), Bool.and_true]
  have hdiv := coreReg_div core ho
  have hmod := coreReg_mod core ho
  rw [State.localWrite_open (State.pathOpen_coreReg core ho h8 hd true) (coreReg_lt core ho) (by rw [hmod]; exact hin)
    (by rw [hdiv, State.wakeFor_enabled _ _ core.isLt]; exact he), hdiv, hmod, Nat.add_sub_cancel_left]

/-- A write between QUEUE_STAT and QUEUE_CFG in the registers of a core: of a window, of a berth, or a plain one. -/
theorem State.writeCoreReg_indexed {s : State} {n o : Nat} (he : s.enabled n = true) (hlo : 0x18 ≤ o) (hhi : o < 0xA00) (v : Word) :
    s.writeCoreReg n o v =
      if 0x900 ≤ o ∧ o < 0xA00 then s.writeVecWin n ((o - 0x900) / 8) v
      else if 0x200 ≤ o ∧ o < 0x300 then
        if o % 16 = 0 then s.writeBerth0 n ((o - 0x200) / 16) v else s.writeBerth1 n ((o - 0x200) / 16) v
      else (s.plainWrite (coreRegs n + o) v, 0) := by
  have apart {x : Nat} (hx : o ≠ x) : coreRegs n + o ≠ coreRegs n + x := fun h => hx (Nat.add_left_cancel h)
  have hctrl : coreRegs n + o ≠ Reg.CORE_CTRL n := apart (by omega)
  have hpc : coreRegs n + o ≠ Reg.KEEP_PC n := apart (by omega)
  have hcfg : coreRegs n + o ≠ Reg.QUEUE_CFG n := apart (by omega)
  have hmenu : coreRegs n + o ≠ Reg.MENU_BASE n := apart (by omega)
  have hxmode : coreRegs n + o ≠ Reg.LOCK_XMODE n := apart (by omega)
  unfold State.writeCoreReg
  dsimp only
  rw [if_neg (by simp [he]), if_neg hctrl, if_neg hpc, if_neg hcfg, if_neg hmenu, if_neg hxmode]

end Sys2Proof.Machine
end

section
/-! SUPPORT. Writes of a berth (R255, R257): its place and size, and grants of credit, those that its rules allow and those they refuse. -/

namespace Sys2Proof.Machine

/-! ### The two words of a berth -/

theorem Reg.BERTH_W0_eq (n b : Nat) : Reg.BERTH_W0 n b = coreRegs n + (0x200 + 16 * b) := Nat.add_assoc _ _ _

theorem Reg.BERTH_W1_eq (n b : Nat) : Reg.BERTH_W1 n b = coreRegs n + (0x208 + 16 * b) := Nat.add_assoc _ _ _

theorem Reg.BERTH_W1_ne_W0 (n b : Nat) : Reg.BERTH_W1 n b ≠ Reg.BERTH_W0 n b := by
  simp only [Reg.BERTH_W0, Reg.BERTH_W1]
  omega

theorem errReg_BERTH_W0 (core : Fin 256) (b : Fin 16) : errReg (Reg.BERTH_W0 core b) = false := by
  rw [Reg.BERTH_W0_eq]
  exact errReg_belowPace (coreReg_belowPace core (by omega))

theorem errReg_BERTH_W1 (core : Fin 256) (b : Fin 16) : errReg (Reg.BERTH_W1 core b) = false := by
  rw [Reg.BERTH_W1_eq]
  exact errReg_belowPace (coreReg_belowPace core (by omega))

/-- R592: the row of word 0 of a berth. -/
theorem regRow_BERTH_W0 (core : Fin 256) (b : Fin 16) :
    ∃ r, regRow (Reg.BERTH_W0 core b) = some r ∧ r.rw = 0x8001FFFF007FFFC0#64 ∧ r.w1c = 0 := by
  have h : ∀ i : Fin 16, coreRows.find? (·.holds (0x200 + 16 * i)) = coreRows[5]? := by decide
  refine ⟨coreRows[5], ?_, rfl, rfl⟩
  rw [Reg.BERTH_W0_eq, regRow_core core.isLt (by omega), h]
  rfl

/-- A field of the bits that a write of word 0 takes reads back as written. -/
theorem State.get_plainWrite_BERTH_W0 (s : State) (core : Fin 256) (b : Fin 16) (f : BitField) (v : Word)
    (h : f.mask &&& ~~~ 0x8001FFFF007FFFC0#64 = 0) :
    (s.plainWrite (Reg.BERTH_W0 core b) v).get (Reg.BERTH_W0 core b) f = f.get v := by
  obtain ⟨r, hr, hw, hc⟩ := regRow_BERTH_W0 core b
  exact State.get_plainWrite s f v hr (by rw [hw]; exact h) (by simp [hc])

/-! ### A write of a register of a berth by the register path is one of its word -/

theorem State.writeCoreReg_BERTH_W0 {s : State} {core : Fin 256} (he : s.enabled core = true) (b : Fin 16) (v : Word) :
    s.writeCoreReg core (0x200 + 16 * b) v = s.writeBerth0 core b v := by
  have hb : (0x200 + 16 * b.val - 0x200) / 16 = b := by omega
  rw [State.writeCoreReg_indexed he (by omega) (by omega), if_neg (by omega), if_pos (by omega), if_pos (by omega), hb]

theorem State.writeCoreReg_BERTH_W1 {s : State} {core : Fin 256} (he : s.enabled core = true) (b : Fin 16) (v : Word) :
    s.writeCoreReg core (0x208 + 16 * b) v = s.writeBerth1 core b v := by
  have hb : (0x208 + 16 * b.val - 0x200) / 16 = b := by omega
  rw [State.writeCoreReg_indexed he (by omega) (by omega), if_neg (by omega), if_pos (by omega), if_neg (by omega), hb]

theorem exec_berthConfigWrite (core : Fin 256) (b : Fin 16) (v : Word) (s : State) :
    exec (.berthConfigWrite core b v) s = .next (s.ownWrite (Reg.BERTH_W0 core b) v .none) := by
  rw [Reg.BERTH_W0_eq]
  rfl

theorem exec_berthGrant (core : Fin 256) (b : Fin 16) (v : Word) (s : State) :
    exec (.berthGrant core b v) s = .next (s.ownWrite (Reg.BERTH_W1 core b) v .none) := by
  rw [Reg.BERTH_W1_eq]
  rfl

/-- A write of the place and size of a berth comes by the register path and is one of its word 0 once the die is awake. -/
theorem berthConfigWrite_path {core : Fin 256} {s : State} (he : s.enabled core = true) (b : Fin 16) (v : Word) {P : State → Prop}
    (h : P ((s.wakeFor (Reg.BERTH_W0 core b)).writeBerth0 core b v).1) :
    PathWrites (.berthConfigWrite core b v) (Reg.BERTH_W0 core b) v s P := by
  refine PathWrites.intro (exec_berthConfigWrite core b v s) fun hd => ?_
  rw [Reg.BERTH_W0_eq] at h ⊢
  rw [State.localWrite_coreReg (by omega) (by omega) hd he, State.writeCoreReg_BERTH_W0 ((s.wakeFor_enabled _ core.isLt).trans he)]
  exact h

/-- A grant comes by the register path and is a write of word 1 of its berth once the die is awake. -/
theorem berthGrant_path {core : Fin 256} {s : State} (he : s.enabled core = true) (b : Fin 16) (v : Word) {P : State → Prop}
    (h : P ((s.wakeFor (Reg.BERTH_W1 core b)).writeBerth1 core b v).1) :
    PathWrites (.berthGrant core b v) (Reg.BERTH_W1 core b) v s P := by
  refine PathWrites.intro (exec_berthGrant core b v s) fun hd => ?_
  rw [Reg.BERTH_W1_eq] at h ⊢
  rw [State.localWrite_coreReg (by omega) (by omega) hd he, State.writeCoreReg_BERTH_W1 ((s.wakeFor_enabled _ core.isLt).trans he)]
  exact h

/-! ### Place and size (R257) -/

theorem State.writeBerth0_refused {v : Word} (s : State) (n b : Nat) (h : Fld.BERTH_W0.enable.get v = 1 ∧ Fld.BERTH_W0.size.get v = 0 ∨
    0x600000 < 64 * (Fld.BERTH_W0.base.get v + Fld.BERTH_W0.size.get v)) :
    (s.writeBerth0 n b v).1 = s.logCore n 0x3404 b := by
  rw [State.writeBerth0, if_pos h]

theorem State.writeBerth0_taken {v : Word} (s : State) (n b : Nat) (h : Fld.BERTH_W0.enable.get v = 1 → Fld.BERTH_W0.size.get v ≠ 0)
    (hl : 64 * (Fld.BERTH_W0.base.get v + Fld.BERTH_W0.size.get v) ≤ 0x600000) :
    (s.writeBerth0 n b v).1 = (s.plainWrite (Reg.BERTH_W0 n b) v).put (Reg.BERTH_W1 n b) Fld.BERTH_W1.credit 0 := by
  rw [State.writeBerth0, if_neg (by omega)]

/-- A berth takes its place and size, with its credit gone. -/
theorem berthConfigWrite_taken {core : Fin 256} {b : Fin 16} {v : Word} {s : State} (he : s.enabled core = true)
    (h : Fld.BERTH_W0.enable.get v = 1 → Fld.BERTH_W0.size.get v ≠ 0)
    (hl : 64 * (Fld.BERTH_W0.base.get v + Fld.BERTH_W0.size.get v) ≤ 0x600000) :
    let w0 := Reg.BERTH_W0 core b
    let w1 := Reg.BERTH_W1 core b
    PathWrites (.berthConfigWrite core b v) w0 v s fun t =>
      t.get w0 Fld.BERTH_W0.enable = Fld.BERTH_W0.enable.get v ∧ t.get w0 Fld.BERTH_W0.size = Fld.BERTH_W0.size.get v ∧
      t.get w0 Fld.BERTH_W0.base = Fld.BERTH_W0.base.get v ∧ t.get w1 Fld.BERTH_W1.credit = 0 ∧ SameRegsButErr [w0, w1] s t := by
  intro w0 w1
  refine berthConfigWrite_path he b v ?_
  rw [State.writeBerth0_taken _ _ _ h hl]
  have hw0 (u : State) (f : BitField) (hf : f.mask &&& ~~~ 0x8001FFFF007FFFC0#64 = 0) :
      ((u.plainWrite w0 v).put w1 Fld.BERTH_W1.credit 0).get w0 f = f.get v :=
    (State.get_put_ne _ _ _ _ (Reg.BERTH_W1_ne_W0 core b).symm).trans (u.get_plainWrite_BERTH_W0 core b f v hf)
  refine ⟨hw0 _ _ (by decide), hw0 _ _ (by decide), hw0 _ _ (by decide), State.get_put_same _ _ _ _ (by decide), ?_⟩
  have hp := (s.wakeFor w0).plainWrite_sameRegs w0 v
  exact ((s.wakeFor_regs w0).widen (by simp)).trans (State.put_step (hp.widen (by simp)) w1 _ _ (by simp)).toErr

/-! ### Credit (R255, R257) -/

/-- A field that reads 0 does so without some bits. -/
theorem BitField.get_and_not_of_zero {f : BitField} {v : Word} (h : f.get v = 0) (m : Word) : f.get (v &&& ~~~ m) = 0 := by
  apply Nat.eq_of_testBit_eq
  intro i
  have hi := congrArg (·.testBit i) h
  simp only [BitField.testBit_get, BitVec.getLsbD_and, Nat.zero_testBit, ← Bool.and_assoc] at hi ⊢
  rw [hi, Bool.false_and]

/-- A field is the same without bits that lie outside it. -/
theorem BitField.get_and_not_of_clear {f : BitField} {m : Word} (h : f.get m = 0) (v : Word) : f.get (v &&& ~~~ m) = f.get v := by
  refine f.get_without v m (BitVec.eq_of_getLsbD_eq fun i hi => ?_)
  have hk := congrArg (·.testBit (i - f.lo)) h
  simp only [BitField.testBit_get, Nat.zero_testBit] at hk
  rw [BitVec.getLsbD_and, BitField.testBit_mask, show (0 : Word).getLsbD i = false from BitVec.getLsbD_zero]
  by_cases hf : f.lo ≤ i ∧ i < f.lo + f.width
  · rw [decide_eq_true (by omega : i - f.lo < f.width), Bool.true_and, Nat.add_sub_of_le hf.1] at hk
    rw [hk, Bool.and_false]
  · have : (decide (f.lo ≤ i) && decide (i < f.lo + f.width)) = false := by simpa using hf
    rw [Bool.and_assoc (decide (i < 64)), this, Bool.and_false, Bool.false_and]

/-- A word 1 with no 1 for refused is a grant alone. -/
theorem State.writeBerth1_grant (s : State) (n b : Nat) {v : Word} (hg : Fld.BERTH_W1.grant.get v ≠ 0)
    (hr : Fld.BERTH_W1.refused.get v = 0) :
    let a := Reg.BERTH_W1 n b
    let size := s.get (Reg.BERTH_W0 n b) Fld.BERTH_W0.size
    let credit := s.get a Fld.BERTH_W1.credit + Fld.BERTH_W1.grant.get v
    (s.writeBerth1 n b v).1 =
      if s.get (Reg.BERTH_W0 n b) Fld.BERTH_W0.enable = 0 then s.logCore n 0x3404 b
      else if size < credit then (s.put a Fld.BERTH_W1.credit size).logCore n 0x3404 b
      else s.put a Fld.BERTH_W1.credit credit := by
  have hc : ¬ Fld.BERTH_W1.refused.get (v &&& ~~~ (s.mark (Reg.BERTH_W1 n b)).set) = 1 := by
    rw [BitField.get_and_not_of_zero hr]
    decide
  intro a size credit
  unfold State.writeBerth1
  simp only [hc, hg, if_false]
  split
  · rfl
  · split <;> rfl

/-- A word 1 that grants nothing and holds 1 for refused clears it, unless the hardware sets it in that beat (R16). -/
theorem State.writeBerth1_clear (s : State) (n b : Nat) {v : Word} (hg : Fld.BERTH_W1.grant.get v = 0)
    (hr : Fld.BERTH_W1.refused.get v = 1)
    (hm : Fld.BERTH_W1.refused.get (s.mark (Reg.BERTH_W1 n b)).set = 0) :
    (s.writeBerth1 n b v).1 = s.put (Reg.BERTH_W1 n b) Fld.BERTH_W1.refused 0 := by
  have hc : Fld.BERTH_W1.refused.get (v &&& ~~~ (s.mark (Reg.BERTH_W1 n b)).set) = 1 :=
    (BitField.get_and_not_of_clear hm v).trans hr
  unfold State.writeBerth1
  simp only [hc, hg, if_true]

/-- A field set once the die is awake leaves every other register but those of the log. -/
theorem State.wakeFor_put_sameRegs (s : State) (a : Nat) (f : BitField) (x : Nat) : SameRegsButErr [a] s ((s.wakeFor a).put a f x) :=
  ((s.wakeFor_regs a).widen (by simp)).trans (State.put_sameRegs _ a f x).toErr

/-- What a grant comes to, by how its berth stands before it. -/
theorem berthGrant_grants {core : Fin 256} {b : Fin 16} {v : Word} {s : State} (he : s.enabled core = true)
    (hg : Fld.BERTH_W1.grant.get v ≠ 0) (hr : Fld.BERTH_W1.refused.get v = 0) {P : State → Prop} :
    let w1 := Reg.BERTH_W1 core b
    let size := s.get (Reg.BERTH_W0 core b) Fld.BERTH_W0.size
    let credit := s.get w1 Fld.BERTH_W1.credit + Fld.BERTH_W1.grant.get v
    P (if s.get (Reg.BERTH_W0 core b) Fld.BERTH_W0.enable = 0 then (s.wakeFor w1).logCore core 0x3404 b
      else if size < credit then ((s.wakeFor w1).put w1 Fld.BERTH_W1.credit size).logCore core 0x3404 b
      else (s.wakeFor w1).put w1 Fld.BERTH_W1.credit credit) →
    PathWrites (.berthGrant core b v) w1 v s P := by
  intro w1 size credit h
  refine berthGrant_path he b v ?_
  rw [State.writeBerth1_grant _ _ _ hg hr]
  simpa only [State.wakeFor_get s _ _ (errReg_BERTH_W0 core b), State.wakeFor_get s _ _ (errReg_BERTH_W1 core b)] using h

/-- A grant within the size of an enabled berth adds to its credit. -/
theorem berthGrant_adds {core : Fin 256} {b : Fin 16} {v : Word} {s : State} (he : s.enabled core = true)
    (hg : Fld.BERTH_W1.grant.get v ≠ 0) (hr : Fld.BERTH_W1.refused.get v = 0)
    (hen : s.get (Reg.BERTH_W0 core b) Fld.BERTH_W0.enable = 1)
    (hc : s.get (Reg.BERTH_W1 core b) Fld.BERTH_W1.credit + Fld.BERTH_W1.grant.get v ≤ s.get (Reg.BERTH_W0 core b) Fld.BERTH_W0.size) :
    let w1 := Reg.BERTH_W1 core b
    PathWrites (.berthGrant core b v) w1 v s fun t =>
      t.get w1 Fld.BERTH_W1.credit = s.get w1 Fld.BERTH_W1.credit + Fld.BERTH_W1.grant.get v ∧
      t.get w1 Fld.BERTH_W1.refused = s.get w1 Fld.BERTH_W1.refused ∧ SameRegsButErr [w1] s t := by
  intro w1
  refine berthGrant_grants he hg hr ?_
  rw [if_neg (by omega), if_neg (by omega)]
  have hsize : s.get (Reg.BERTH_W0 core b) Fld.BERTH_W0.size < 2 ^ 17 := BitField.get_lt _ _
  refine ⟨?_, ?_, s.wakeFor_put_sameRegs _ _ _⟩
  · rw [State.get_put_same _ _ _ _ (by decide)]
    exact Nat.mod_eq_of_lt (Nat.lt_trans (Nat.lt_of_le_of_lt hc hsize) (by decide))
  · rw [State.get_put_other _ _ _ _ _ (by decide), s.wakeFor_get _ _ (errReg_BERTH_W1 core b)]

/-- A 1 written to refused clears it and leaves the credit. -/
theorem berthGrant_clears {core : Fin 256} {b : Fin 16} {v : Word} {s : State} (he : s.enabled core = true)
    (hg : Fld.BERTH_W1.grant.get v = 0) (hr : Fld.BERTH_W1.refused.get v = 1)
    (hm : Fld.BERTH_W1.refused.get (s.mark (Reg.BERTH_W1 core b)).set = 0) :
    let w1 := Reg.BERTH_W1 core b
    PathWrites (.berthGrant core b v) w1 v s fun t =>
      t.get w1 Fld.BERTH_W1.refused = 0 ∧ t.get w1 Fld.BERTH_W1.credit = s.get w1 Fld.BERTH_W1.credit ∧ SameRegsButErr [w1] s t := by
  intro w1
  refine berthGrant_path he b v ?_
  rw [State.writeBerth1_clear _ _ _ hg hr (by rw [s.wakeFor_mark _ (errReg_BERTH_W1 core b)]; exact hm)]
  refine ⟨State.get_put_same _ _ _ _ (by decide), ?_, s.wakeFor_put_sameRegs _ _ _⟩
  rw [State.get_put_other _ _ _ _ _ (by decide), s.wakeFor_get _ _ (errReg_BERTH_W1 core b)]

end Sys2Proof.Machine
end

section
/-! SUPPORT. Writes of a window of the vector unit (R177), of crossbar mode (R313) and of the registers of the contract (R364, R365,
R370, R373), with the obligations on settings that are taken and on those that are refused. -/

namespace Sys2Proof.Machine

/-! ### Windows (R177) -/

theorem Reg.VEC_WIN_eq (n w : Nat) : Reg.VEC_WIN n w = coreRegs n + (0x900 + 8 * w) := Nat.add_assoc _ _ _

/-- R592: the row of VEC_WIN_v. -/
theorem regRow_VEC_WIN (core : Fin 256) (w : Fin 32) :
    ∃ r, regRow (Reg.VEC_WIN core w) = some r ∧ r.rw = 0x7FE00#64 ∧ r.w1c = 0 := by
  have h : ∀ i : Fin 32, coreRows.find? (·.holds (0x900 + 8 * i)) = coreRows[12]? := by decide
  refine ⟨coreRows[12], ?_, rfl, rfl⟩
  rw [Reg.VEC_WIN_eq, regRow_core core.isLt (by omega), h]
  rfl

theorem State.writeCoreReg_VEC_WIN {s : State} {core : Fin 256} (he : s.enabled core = true) (w : Fin 32) (v : Word) :
    s.writeCoreReg core (0x900 + 8 * w) v = s.writeVecWin core w v := by
  have hw : (0x900 + 8 * w.val - 0x900) / 8 = w := by omega
  rw [State.writeCoreReg_indexed he (by omega) (by omega), if_pos (by omega), hw]

theorem exec_vecWinWrite {core : Fin 256} {s : State} (he : s.enabled core = true) (w : Fin 32) (v : Word) :
    exec (.vecWinWrite core w v) s = .next (s.writeVecWin core w v).1 :=
  congrArg (fun r : State × Nat => Host.Outcome.next r.1) (State.writeCoreReg_VEC_WIN he w v)

/-- A window past the last is refused. -/
theorem State.writeVecWin_refused (s : State) (n w : Nat) {v : Word} (h : 0x3E0 < Fld.VEC_WIN.base.get v) :
    (s.writeVecWin n w v).1 = s.logCore n 0x3704 w := by
  rw [State.writeVecWin, if_pos h]

/-- A window that its rules allow is a plain write, beside which the core keeps the base that a beat in progress reads (R149). -/
theorem State.writeVecWin_taken (s : State) (n w : Nat) {v : Word} (h : Fld.VEC_WIN.base.get v ≤ 0x3E0) :
    ∃ u : State, u.regs = s.regs ∧ (s.writeVecWin n w v).1 = u.plainWrite (Reg.VEC_WIN n w) v := by
  rw [State.writeVecWin, if_neg (by omega)]
  refine ⟨_, ?_, rfl⟩
  split <;> rfl

theorem vecWinWrite_taken {core : Fin 256} {w : Fin 32} {v : Word} {s : State} (he : s.enabled core = true)
    (h : Fld.VEC_WIN.base.get v ≤ 0x3E0) : Gives (.vecWinWrite core w v) s fun t =>
      t.get (Reg.VEC_WIN core w) Fld.VEC_WIN.base = Fld.VEC_WIN.base.get v ∧ SameRegs [Reg.VEC_WIN core w] s t := by
  obtain ⟨u, hu, ht⟩ := s.writeVecWin_taken core w h
  obtain ⟨r, hr, hw, hc⟩ := regRow_VEC_WIN core w
  refine Gives.intro ((exec_vecWinWrite he w v).trans (congrArg Host.Outcome.next ht)) ⟨?_, ?_⟩
  · exact State.get_plainWrite u _ v hr (by rw [hw]; decide) (by simp [hc])
  · exact (SameRegs.ofRegs hu).trans (u.plainWrite_sameRegs _ v)

/-! ### Crossbar mode (R313) -/

/-- R593: the row of MESH_MODE. -/
theorem regRow_MESH_MODE : ∃ r, regRow Reg.MESH_MODE = some r ∧ r.rw = 0xFFFF#64 ∧ r.w1c = 0 :=
  ⟨meshRows[0], regRow_block (b := 6) (off := 0) (by decide) (by decide), rfl, rfl⟩

theorem State.writeMeshMode_taken {s : State} {v : Word}
    (h : ∀ r < 16, s.modeRefused (s.get Reg.MESH_MODE Fld.MESH_MODE.xbar) (Fld.MESH_MODE.xbar.get v) r = false) :
    (s.writeMeshMode v).1 = s.plainWrite Reg.MESH_MODE v := by
  rw [State.writeMeshMode, if_neg]
  rw [List.any_eq_true]
  rintro ⟨r, hr, hx⟩
  exact absurd ((h r (List.mem_range.mp hr)).symm.trans hx) (by decide)

theorem State.writeMeshMode_refused {s : State} {v : Word} {r : Nat} (hr : r < 16)
    (h : s.modeRefused (s.get Reg.MESH_MODE Fld.MESH_MODE.xbar) (Fld.MESH_MODE.xbar.get v) r = true) :
    (s.writeMeshMode v).1 = s.logErr { code := 0x3409 } := by
  rw [State.writeMeshMode, if_pos (List.any_eq_true.mpr ⟨r, List.mem_range.mpr hr, h⟩)]

theorem meshModeWrite_taken {v : Word} {s : State}
    (h : ∀ r < 16, s.modeRefused (s.get Reg.MESH_MODE Fld.MESH_MODE.xbar) (Fld.MESH_MODE.xbar.get v) r = false) :
    Gives (.meshModeWrite v) s fun t =>
      t.get Reg.MESH_MODE Fld.MESH_MODE.xbar = Fld.MESH_MODE.xbar.get v ∧ SameRegs [Reg.MESH_MODE] s t := by
  obtain ⟨r, hr, hw, hc⟩ := regRow_MESH_MODE
  refine Gives.intro (congrArg Host.Outcome.next (State.writeMeshMode_taken h)) ⟨?_, s.plainWrite_sameRegs _ v⟩
  exact State.get_plainWrite s _ v hr (by rw [hw]; decide) (by simp [hc])

/-! ### The watchdog's limit (R373) -/

/-- R593: the row of DTRM_WDOG. -/
theorem regRow_DTRM_WDOG : ∃ r, regRow Reg.DTRM_WDOG = some r ∧ r.rw = 0xFFFFFFFF#64 ∧ r.w1c = 0 :=
  ⟨dtrmRows[3], regRow_block (b := 16) (off := 0x810) (by decide) (by decide), rfl, rfl⟩

theorem State.writeDtrm_WDOG (s : State) {o : Nat} (h : Reg.DTRM_CTRL + o = Reg.DTRM_WDOG) (v : Word) :
    (s.writeDtrm o v).1 = s.writeWdog v := by
  have h0 : o ≠ 0 := by
    rintro rfl
    exact absurd h (by decide)
  rw [State.writeDtrm, if_neg h0]
  exact congrArg Prod.fst (if_pos h)

theorem dtrmWrite_wdog {off : BitVec 16} (h : Reg.DTRM_CTRL + off.toNat = Reg.DTRM_WDOG) (v : Word) (s : State) :
    Gives (.dtrmWrite off v) s fun t =>
      t.get Reg.DTRM_WDOG Fld.DTRM_WDOG.limit_ns = max 100000 (Fld.DTRM_WDOG.limit_ns.get v) ∧ SameRegs [Reg.DTRM_WDOG] s t := by
  obtain ⟨r, hr, hw, hc⟩ := regRow_DTRM_WDOG
  have hlt : Fld.DTRM_WDOG.limit_ns.get v < 2 ^ 32 := BitField.get_lt _ _
  refine Gives.intro (congrArg Host.Outcome.next (s.writeDtrm_WDOG h v)) ⟨?_, s.plainWrite_sameRegs _ _⟩
  rw [State.writeWdog, State.get_plainWrite s _ _ hr (by rw [hw]; decide) (by simp [hc]), BitField.get_set_same _ _ _ (by decide)]
  exact Nat.mod_eq_of_lt (max_lt (by decide) hlt)

/-! ### A write of DTRM_CTRL that does not start (R364, R365) -/

theorem State.writeDtrmCtrl_free {s : State} {v : Word} (h : Fld.DTRM_CTRL.start.get v = 0) (hb : s.anyBusy = false) :
    (s.writeDtrmCtrl v).1 = s.put Reg.DTRM_CTRL Fld.DTRM_CTRL.strict (Fld.DTRM_CTRL.strict.get v) := by
  simp [State.writeDtrmCtrl, h, hb]

theorem State.writeDtrmCtrl_busy {s : State} {v : Word} (h : Fld.DTRM_CTRL.start.get v = 0) (hb : s.anyBusy = true) :
    (s.writeDtrmCtrl v).1 = s.logErr { code := 0x3010 } := by
  simp [State.writeDtrmCtrl, h, hb]

theorem exec_dtrmWrite_zero (v : Word) (s : State) : exec (.dtrmWrite 0 v) s = .next (s.writeDtrmCtrl v).1 := rfl

theorem dtrmWrite_strict {v : Word} {s : State} (h : Fld.DTRM_CTRL.start.get v = 0) (hb : s.anyBusy = false) :
    Gives (.dtrmWrite 0 v) s fun t =>
      t.get Reg.DTRM_CTRL Fld.DTRM_CTRL.strict = Fld.DTRM_CTRL.strict.get v ∧ SameRegs [Reg.DTRM_CTRL] s t := by
  refine Gives.intro ((exec_dtrmWrite_zero v s).trans (congrArg Host.Outcome.next (State.writeDtrmCtrl_free h hb)))
    ⟨?_, s.put_sameRegs _ _ _⟩
  rw [State.get_put_same _ _ _ _ (by decide)]
  exact Nat.mod_eq_of_lt (BitField.get_lt _ _)

/-! ### The obligations -/

/-- Settles O35: those of a berth by what the register path makes of their words, the others by the plain write that each is. -/
theorem coreSettings : Obligations.CoreSettings := by
  unfold Obligations.CoreSettings
  exact fun core b w v s => ⟨berthConfigWrite_taken, berthGrant_adds, berthGrant_clears, vecWinWrite_taken, meshModeWrite_taken,
    fun _ h => dtrmWrite_wdog h v s, dtrmWrite_strict⟩

/-- Settles O36: each write by the case of its register's rule that refuses or clamps it. -/
theorem settingsRefused : Obligations.SettingsRefused := by
  unfold Obligations.SettingsRefused
  intro core b w v s w0 w1 size grant
  refine ⟨fun he => ⟨fun h => ?_, fun hg hr hen => ?_, fun hg hr hen hc => ?_, fun h => ?_⟩, fun r hr h => ?_, fun h hb => ?_⟩
  · exact berthConfigWrite_path he b v (State.writeBerth0_refused _ core b h)
  · exact berthGrant_grants he hg hr (if_pos hen)
  · exact berthGrant_grants he hg hr ((if_neg (by rw [hen]; decide)).trans (if_pos hc))
  · exact (exec_vecWinWrite he w v).trans (congrArg Host.Outcome.next (s.writeVecWin_refused core w h))
  · exact congrArg Host.Outcome.next (State.writeMeshMode_refused hr h)
  · exact (exec_dtrmWrite_zero v s).trans (congrArg Host.Outcome.next (State.writeDtrmCtrl_busy h hb))

end Sys2Proof.Machine
end

section
/-! SUPPORT. Notes: what the logging of errors, the counting of lines in error and the recording of lock and queue errors leave of a core
and of its keeper. -/

namespace Sys2Proof.Machine

/-! ### Registers that notes write -/

/-- Registers that a note of an error may write: those of the log, the records of lines and locks in error, `poison` of DTRM_STAT and
`fault_q` of QUEUE_STAT (R188, R269, R281, R323). -/
def noteReg (a : Nat) : Bool :=
  errReg a || a == Reg.DTRM_STAT || a == Reg.LOCK_ERR || a == Reg.HOLD_ERR 0 || a == Reg.HOLD_ERR 1 ||
    (decide (a < 0x400000000) && (a % 0x4000000 == 0x6A0B80 || a % 0x4000000 == 0x6A0B88 || a % 0x4000000 == 0x6A0018))

theorem noteReg_of_errReg {a : Nat} (h : errReg a = true) : noteReg a = true := by
  simp only [noteReg, h, Bool.true_or]

theorem errReg_of_noteReg {a : Nat} (h : noteReg a = false) : errReg a = false := by
  cases he : errReg a
  · rfl
  · rw [noteReg_of_errReg he] at h
    exact absurd h (by decide)

theorem noteReg_coreReg (core : Fin 256) {off : Nat} (ho : off < 0x1000) (h1 : off ≠ 0x18) (h2 : off ≠ 0xB80) (h3 : off ≠ 0xB88) :
    noteReg (coreRegs core + off) = false := by
  have hlt := coreReg_lt core ho
  have hm := coreReg_mod core ho
  have apart {x : Nat} (h : 0x400000000 ≤ x) : coreRegs core + off ≠ x := by omega
  simp only [noteReg, errReg_belowPace (coreReg_belowPace core ho), hm, Bool.or_eq_false_iff, Bool.and_eq_false_iff, beq_eq_false_iff_ne]
  refine ⟨⟨⟨⟨⟨trivial, apart (by decide)⟩, apart (by decide)⟩, apart (by decide)⟩, apart (by decide)⟩, .inr ⟨⟨?_, ?_⟩, ?_⟩⟩ <;> omega

theorem noteReg_DEV_CORE_MAP {n : Nat} (hn : n < 256) : noteReg (Reg.DEV_CORE_MAP (n / 64)) = false :=
  (by decide : ∀ i : Fin 4, noteReg (Reg.DEV_CORE_MAP i) = false) ⟨n / 64, by omega⟩

/-! ### Notes -/

/-- `t` is `s` with errors noted: it differs in the log and in the registers of `noteReg` alone. -/
structure Notes (s t : State) : Prop where
  changes : Changes logParts s t
  regs    : ∀ a, noteReg a = false → t.reg a = s.reg a
  marks   : ∀ a, noteReg a = false → smFind t.marks a = smFind s.marks a

namespace Notes

theorem refl (s : State) : Notes s s := ⟨.refl _ s, fun _ _ => rfl, fun _ _ => rfl⟩

theorem trans {s t u : State} (h : Notes s t) (k : Notes t u) : Notes s u :=
  ⟨h.changes.trans k.changes, fun a ha => (k.regs a ha).trans (h.regs a ha), fun a ha => (k.marks a ha).trans (h.marks a ha)⟩

theorem ite {s t u : State} {c : Prop} [Decidable c] (h : Notes s t) (k : Notes s u) : Notes s (if c then t else u) := by
  split <;> assumption

theorem put {s t : State} (h : Notes s t) {a : Nat} (f : BitField) (v : Nat) (ha : noteReg a = true) : Notes s (t.put a f v) :=
  h.trans ⟨(t.put_changes a f v).widen rfl, fun _ hb => State.reg_put_ne _ _ _ (by rintro rfl; simp [ha] at hb), fun _ _ => rfl⟩

theorem hwPut {s t : State} (h : Notes s t) {a : Nat} (f : BitField) (v : Nat) (ha : noteReg a = true) : Notes s (t.hwPut a f v) :=
  ite h (h.put f v ha)

theorem setReg {s t : State} (h : Notes s t) {a : Nat} (w : Word) (ha : noteReg a = true) : Notes s (t.setReg a w) :=
  h.trans ⟨(t.setReg_changes a w).widen rfl, fun _ hb => State.reg_setReg_ne _ _ (by rintro rfl; simp [ha] at hb), fun _ _ => rfl⟩

theorem hwSet {s t : State} (h : Notes s t) {a : Nat} (f : BitField) (v : Nat) (ha : noteReg a = true) : Notes s (t.hwSet a f v) :=
  h.trans ⟨(t.hwSet_changes a f v).widen rfl, fun _ hb => State.reg_put_ne _ _ _ (by rintro rfl; simp [ha] at hb),
    fun _ hb => smFind_put_ne _ _ (by rintro rfl; simp [ha] at hb)⟩

theorem logErr {s t : State} (h : Notes s t) (e : Err) : Notes s (t.logErr e) :=
  h.trans ⟨t.logErr_changes e, fun _ ha => t.logErr_reg e (errReg_of_noteReg ha),
    fun _ ha => (t.logErr_sameMarks e).marks _ (errReg_of_noteReg ha)⟩

end Notes

theorem State.logCore_notes (s : State) (n code aux info : Nat) (tag : Option Nat) : Notes s (s.logCore n code aux info tag) :=
  (Notes.refl s).logErr _

theorem State.recordLock_notes (s : State) (code core issuer index n : Nat) : Notes s (s.recordLock code core issuer index n) :=
  .ite ((Notes.refl s).hwSet _ _ (by decide)) (((Notes.refl s).setReg _ (by decide)).hwSet _ _ (by decide))

theorem State.lockErr_notes (s : State) (code core issuer index n : Nat) : Notes s (s.lockErr code core issuer index n) :=
  (s.recordLock_notes code core issuer index n).logErr _

theorem noteReg_QUEUE_STAT (core : Fin 256) : noteReg (Reg.QUEUE_STAT core) = true := by
  have hlt : Reg.QUEUE_STAT core < 0x400000000 := coreReg_lt core (off := 0x18) (by decide)
  have hm : Reg.QUEUE_STAT core % 0x4000000 = 0x6A0018 := coreReg_mod core (off := 0x18) (by decide)
  simp [noteReg, hlt, hm]

theorem State.queueErr_notes (s : State) (core : Fin 256) (q code : Nat) (tag : Option Nat) : Notes s (s.queueErr core q code tag) :=
  ((Notes.refl s).hwSet _ _ (noteReg_QUEUE_STAT core)).logErr _

/-! ### Lines in error -/

theorem noteReg_MEM {la : Nat} (h : la < 0x400000000) :
    noteReg (Reg.MEM_ECC (la / 0x4000000)) = true ∧ noteReg (Reg.MEM_ERR (la / 0x4000000)) = true := by
  have hn : la / 0x4000000 < 256 := by omega
  have reg {off : Nat} (ho : off < 0x1000) := And.intro (coreReg_lt ⟨la / 0x4000000, hn⟩ ho) (coreReg_mod ⟨la / 0x4000000, hn⟩ ho)
  obtain ⟨h1, h2⟩ := reg (off := 0xB80) (by decide)
  obtain ⟨h3, h4⟩ := reg (off := 0xB88) (by decide)
  simp only at h1 h2 h3 h4
  constructor
  · simp [noteReg, Reg.MEM_ECC, h1, h2]
  · simp [noteReg, Reg.MEM_ERR, h3, h4]

theorem memKind_hold_lt {a h : Nat} (k : memKind a = .hold h) : h < 2 := by
  unfold memKind windowKind at k
  repeat' split at k
  all_goals simp only [MemKind.hold.injEq, reduceCtorEq] at k
  all_goals omega

theorem memKind_core_lt {a : Nat} (h1 : memKind a ≠ .none) (h2 : ∀ h, memKind a ≠ .hold h) : a < 0x400000000 := by
  unfold memKind at h1 h2
  split at h1
  · assumption
  · rename_i hn
    simp only [hn, if_false] at h2
    split at h1
    · exact absurd (h2 0) (by simp [*])
    · split at h1
      · exact absurd (h2 1) (by simp [*])
      · exact absurd rfl h1

theorem noteReg_HOLD_ERR {h : Nat} (k : h < 2) : noteReg (Reg.HOLD_ERR h) = true :=
  (by decide : ∀ i : Fin 2, noteReg (Reg.HOLD_ERR i) = true) ⟨h, k⟩

/-- The count of a line in error is a note. -/
theorem State.countEcc_notes (s : State) (la : Nat) (ue : Bool) : Notes s (s.countEcc la ue) := by
  unfold State.countEcc
  split
  next h hk =>
    have hr := noteReg_HOLD_ERR (memKind_hold_lt hk)
    extract_lets a u
    have added (f : BitField) : Notes s (s.addSat a f 1) := (Notes.refl s).hwPut _ _ hr
    exact .ite (((added _).hwSet _ _ hr).put _ _ hr) (.ite (added _) ((added _).put _ _ hr))
  next => exact .refl s
  next h1 h2 =>
    obtain ⟨hc, he⟩ := noteReg_MEM (memKind_core_lt h2 h1)
    extract_lets n a e
    have hset : Notes s (s.hwSet e Fld.MEM_ERR.valid 1) := (Notes.refl s).hwSet _ _ he
    refine .ite (.ite hset ((hset.put _ _ he).put _ _ he)) ?_
    split
    all_goals exact (Notes.refl s).hwPut _ _ hc

theorem State.noteLines_notes (s : State) (ls : List (Nat × Bool)) (core tag : Option Nat) (logged : List Nat) :
    Notes s (s.noteLines ls core tag logged).1 := by
  have one (acc : State × List Nat) (l : Nat × Bool) : Notes acc.1
      (if l.2 then (acc.1.countEcc l.1 l.2).put Reg.DTRM_STAT Fld.DTRM_STAT.poison 1 else acc.1.countEcc l.1 l.2) :=
    .ite ((acc.1.countEcc_notes _ _).put _ _ (by decide)) (acc.1.countEcc_notes _ _)
  unfold State.noteLines
  generalize hacc : (s, logged) = acc
  have h0 : Notes s acc.1 := hacc ▸ .refl s
  clear hacc
  induction ls generalizing acc with
  | nil => exact h0
  | cons l ls ih =>
    rw [List.foldl_cons]
    have hl := h0.trans (one acc l)
    refine ih _ ?_
    extract_lets code t u
    split
    · exact hl
    · exact hl.logErr _

theorem State.keeperLines_notes (s : State) (n a len : Nat) : Notes s (s.keeperLines n a len).1 := s.noteLines_notes _ _ _ _

theorem State.noteStore_notes (s : State) (a len : Nat) (core : Option Nat) : Notes s (s.noteStore a len core) :=
  .ite (.refl s) (s.noteLines_notes _ _ _ _)

/-- A fetch notes the errors of its line and changes nothing else. -/
theorem State.fetch_notes (s : State) (n : Nat) : Notes s (s.fetch n).1 := by
  unfold State.fetch
  extract_lets pc h0
  split
  · exact .refl s
  · split
    · have hl := s.keeperLines_notes n (imemAddr n pc) 2
      split
      next t bad h =>
        rw [h] at hl
        split <;> exact hl
    · split
      · exact .refl s
      · have hl := s.keeperLines_notes n (imemAddr n pc) 4
        split
        next t bad h =>
          rw [h] at hl
          split <;> exact hl

/-! ### What notes leave -/

namespace Notes

variable {s t : State}

theorem core (h : Notes s t) (n : Nat) : t.core n = s.core n := State.core_congr h.changes.cores n

theorem reach (h : Notes s t) (r : Nat) : t.reach r = s.reach r := State.reach_congr h.changes.reaches r

theorem beatOf (h : Notes s t) (n : Nat) : t.beatOf n = s.beatOf n := State.beatOf_congr h.changes.reaches n

theorem get (h : Notes s t) {a : Nat} (f : BitField) (ha : noteReg a = false) : t.get a f = s.get a f := by
  rw [State.get, h.regs a ha, State.get]

theorem coreReg (h : Notes s t) (core : Fin 256) {off : Nat} (f : BitField) (ho : off < 0x1000) (h1 : off ≠ 0x18) (h2 : off ≠ 0xB80)
    (h3 : off ≠ 0xB88) : t.get (coreRegs core + off) f = s.get (coreRegs core + off) f :=
  h.get f (noteReg_coreReg core ho h1 h2 h3)

theorem enabled (h : Notes s t) {n : Nat} (hn : n < 256) : t.enabled n = s.enabled n := by
  rw [State.enabled, State.hasBit, h.get _ (noteReg_DEV_CORE_MAP hn), State.enabled, State.hasBit]

theorem coreState (h : Notes s t) {n : Nat} (hn : n < 256) : t.coreState n = s.coreState n := by
  have hs := h.coreReg ⟨n, hn⟩ (off := 8) Fld.CORE_STAT.state (by decide) (by decide) (by decide) (by decide)
  simp only [State.coreState, h.enabled hn, Reg.CORE_STAT]
  rw [hs]

theorem kpc (h : Notes s t) {n : Nat} (hn : n < 256) : t.kpc n = s.kpc n :=
  h.coreReg ⟨n, hn⟩ (off := 0x10) Fld.KEEP_PC.pc (by decide) (by decide) (by decide) (by decide)

theorem kx (h : Notes s t) (n i : Nat) : t.kx n i = s.kx n i := by simp only [State.kx, h.core]

theorem kdue (h : Notes s t) (n cost : Nat) : t.kdue n cost = s.kdue n cost := by simp only [State.kdue, h.core, h.beatOf]

theorem lat (h : Notes s t) {k : Nat} (hk : noteReg (Reg.DTRM_LAT k) = false) : t.lat k = s.lat k := h.get _ hk

theorem byte (h : Notes s t) (a : Nat) : t.byte a = s.byte a := State.byte_congr h.changes.mem h.changes.ecc a

theorem bytes (h : Notes s t) (a n : Nat) : t.bytes a n = s.bytes a n := State.bytes_congr h.changes.mem h.changes.ecc a n

end Notes

end Sys2Proof.Machine
end

section
/-! SUPPORT. The keeper's ends of an instruction (R192, R194, R602): what a retiring, a waiting and a faulting keeper leave of the core, and
from which states these may be judged. -/

namespace Sys2Proof.Machine

/-! ### The registers that show a core -/

/-- Registers that `refresh` brings up to date (R208, R314). -/
def refreshed (n : Nat) : List Nat :=
  [Reg.CORE_STAT n, Reg.QUEUE_STAT n, Reg.ASTREAM_STAT n, Reg.XSTREAM_STAT n, Reg.INGRESS_STAT n]

theorem coreReg_not_refreshed (n : Nat) {off : Nat} (h : off ∉ [0x8, 0x18, 0xA08, 0xA10, 0x420]) : coreRegs n + off ∉ refreshed n := by
  simp only [refreshed, Reg.CORE_STAT, Reg.QUEUE_STAT, Reg.ASTREAM_STAT, Reg.XSTREAM_STAT, Reg.INGRESS_STAT, List.mem_cons,
    List.not_mem_nil, or_false, Nat.add_left_cancel_iff] at h ⊢
  exact h

theorem ctlReg_not_refreshed (core : Fin 256) {a : Nat} (h : 0x400000000 ≤ a) : a ∉ refreshed core := by
  have lt {off : Nat} (ho : off < 0x1000) : a ≠ coreRegs core + off := (Nat.lt_of_lt_of_le (coreReg_lt core ho) h).ne'
  simp only [refreshed, Reg.CORE_STAT, Reg.QUEUE_STAT, Reg.ASTREAM_STAT, Reg.XSTREAM_STAT, Reg.INGRESS_STAT, List.mem_cons,
    List.not_mem_nil, or_false, not_or]
  exact ⟨lt (by decide), lt (by decide), lt (by decide), lt (by decide), lt (by decide)⟩

theorem refreshed_coreShown (n : Nat) : ∀ a ∈ refreshed n, a ∈ coreShown n := by
  simp only [refreshed, coreShown, List.mem_cons, List.not_mem_nil, or_false]
  omega

theorem State.refresh_refreshed (s : State) (n : Nat) : SameRegs (refreshed n) s (s.refresh n) := by
  unfold State.refresh
  dsimp only
  iterate 7 refine State.put_step ?_ _ _ _ (by simp [refreshed])
  exact SameRegs.refl _ _

theorem State.refresh_marks (s : State) (n : Nat) : (s.refresh n).marks = s.marks := rfl

/-- The fields of CORE_STAT that say what the core does are not those that `refresh` writes. -/
theorem State.refresh_CORE_STAT (s : State) (n : Nat) (g : BitField) (h : g.lo + g.width ≤ 6 ∨ 12 ≤ g.lo) :
    (s.refresh n).get (Reg.CORE_STAT n) g = s.get (Reg.CORE_STAT n) g := by
  have ne {x : Nat} (hx : 0x8 ≠ x) : Reg.CORE_STAT n ≠ coreRegs n + x := fun e => hx (Nat.add_left_cancel e)
  unfold State.refresh
  extract_lets c st a keep s1 s2 s3 s4 s5 s6
  calc (s6.put (Reg.INGRESS_STAT n) Fld.INGRESS_STAT.held c.ingress.length).get (Reg.CORE_STAT n) g
      = s6.get (Reg.CORE_STAT n) g := State.get_put_ne _ _ _ _ (ne (by decide))
    _ = s5.get (Reg.CORE_STAT n) g := State.get_put_ne _ _ _ _ (ne (by decide))
    _ = s4.get (Reg.CORE_STAT n) g := State.get_put_ne _ _ _ _ (ne (by decide))
    _ = s3.get (Reg.CORE_STAT n) g := State.get_put_ne _ _ _ _ (ne (by decide))
    _ = s2.get (Reg.CORE_STAT n) g := State.get_put_other _ _ _ _ _ (by simp only; omega)
    _ = s1.get (Reg.CORE_STAT n) g := State.get_put_other _ _ _ _ _ (by simp only; omega)
    _ = s.get (Reg.CORE_STAT n) g := State.get_put_other _ _ _ _ _ (by simp only; omega)

theorem ctlReg_not_coreShown (core : Fin 256) {a : Nat} (h : 0x400000000 ≤ a) (hd : a ≠ Reg.DTRM_STAT) : a ∉ coreShown core := by
  have hpc : a ≠ Reg.KEEP_PC core := (Nat.lt_of_lt_of_le (coreReg_lt core (by decide)) h).ne'
  have hr := ctlReg_not_refreshed core h
  simp only [refreshed, List.mem_cons, List.not_mem_nil, or_false, not_or] at hr
  obtain ⟨h1, h2, h3, h4, h5⟩ := hr
  simp only [coreShown, List.mem_cons, List.not_mem_nil, or_false, not_or]
  exact ⟨hpc, h1, h2, h3, h4, h5, hd⟩

theorem DEV_CORE_MAP_not_coreShown (core : Fin 256) {n : Nat} (hn : n < 256) : Reg.DEV_CORE_MAP (n / 64) ∉ coreShown core := by
  have hlt : Reg.DEV_CORE_MAP (n / 64) < blockBase 16 := by
    simp only [Reg.DEV_CORE_MAP, blockBase]
    omega
  have hge : 0x400000000 ≤ Reg.DEV_CORE_MAP (n / 64) := by
    simp only [Reg.DEV_CORE_MAP, blockBase]
    omega
  exact ctlReg_not_coreShown core hge (Nat.lt_of_lt_of_le hlt (Nat.le_add_right _ _)).ne

/-- Whether a core is enabled is read from the core map alone. -/
theorem State.enabled_congr {s t : State} {n : Nat} (h : t.reg (Reg.DEV_CORE_MAP (n / 64)) = s.reg (Reg.DEV_CORE_MAP (n / 64))) :
    t.enabled n = s.enabled n := by
  rw [State.enabled, State.hasBit, State.get, h, State.enabled, State.hasBit, State.get]

/-! ### A halt at an instruction boundary (R206, R602) -/

theorem State.core_holdOff (s : State) (p : HoldReq → Bool) (n : Nat) : (s.holdOff p).core n = s.core n :=
  State.core_congr (s.holdOff_changes p).cores n

theorem State.core_put (s : State) (a : Nat) (f : BitField) (v n : Nat) : (s.put a f v).core n = s.core n :=
  State.core_congr (s.put_changes a f v).cores n

theorem State.enterHalted_core (s : State) (n : Nat) :
    (s.enterHalted n).core n = { s.core n with kwait := .none, kstep := false, haltReq := false } := by
  unfold State.enterHalted
  extract_lets a s1 s2 s3 c s4
  have hc : c = s.core n := (State.core_put _ _ _ _ _).trans ((State.core_put _ _ _ _ _).trans (State.core_put _ _ _ _ _))
  have h4 : s4.core n = { c with kwait := .none, kstep := false, haltReq := false } := State.core_setCore_same _ _ _
  rw [State.core_refresh, State.core_holdOff, h4, hc]

theorem State.enterHalted_core_ne (s : State) {n m : Nat} (h : m ≠ n) : (s.enterHalted n).core m = s.core m := by
  unfold State.enterHalted
  extract_lets a s1 s2 s3 c s4
  have h4 : s4.core m = s3.core m := State.core_setCore_ne _ _ h
  rw [State.core_refresh, State.core_holdOff, h4, State.core_put, State.core_put, State.core_put]

theorem State.enterHalted_regs (s : State) (n : Nat) : SameRegs (Reg.DTRM_STAT :: refreshed n) s (s.enterHalted n) := by
  unfold State.enterHalted
  extract_lets a s1 s2 s3 c s4
  have h3 : SameRegs (Reg.DTRM_STAT :: refreshed n) s s3 :=
    State.put_step (State.put_step (State.put_step (.refl _ s) _ _ _ (by simp [refreshed, a])) _ _ _ (by simp [refreshed, a])) _ _ _ (by simp)
  have h4 : SameRegs (Reg.DTRM_STAT :: refreshed n) s (s4.holdOff (keeperHold n)) :=
    (h3.trans (.ofRegs (State.setCore_regs s3 _ _))).trans (.ofRegs (State.holdOff_regs s4 _))
  exact h4.trans ((State.refresh_refreshed _ n).widen fun _ h => List.mem_cons_of_mem _ h)

theorem State.enterHalted_coreShown (s : State) (n : Nat) : SameRegs (coreShown n) s (s.enterHalted n) :=
  (s.enterHalted_regs n).widen fun _ h => (List.mem_cons.mp h).elim (by rintro rfl; simp [coreShown]) (refreshed_coreShown n _)

theorem State.enterHalted_state (s : State) (core : Fin 256) :
    (s.enterHalted core).get (Reg.CORE_STAT core) Fld.CORE_STAT.state = stHalted := by
  have hd : Reg.CORE_STAT core ≠ Reg.DTRM_STAT := (Nat.lt_of_lt_of_le (coreReg_lt core (by decide)) (by decide)).ne
  unfold State.enterHalted
  extract_lets a s1 s2 s3 c s4
  have h3 : s3.get (Reg.CORE_STAT core) Fld.CORE_STAT.state = stHalted :=
    (State.get_put_ne s2 _ _ _ hd).trans ((State.get_put_other s1 _ _ _ _ (by decide)).trans (State.get_put_same s _ _ _ (by decide)))
  rw [State.refresh_CORE_STAT _ _ _ (.inl (by decide)), State.get_congr (State.holdOff_regs s4 _), State.get_congr (State.setCore_regs s3 _ _), h3]

theorem State.enterHalted_halted (s : State) (core : Fin 256) : (s.enterHalted core).get Reg.DTRM_STAT Fld.DTRM_STAT.halted = 1 := by
  unfold State.enterHalted
  extract_lets a s1 s2 s3 c s4
  have h3 : s3.get Reg.DTRM_STAT Fld.DTRM_STAT.halted = 1 := State.get_put_same s2 _ _ _ (by decide)
  rw [State.get, State.refresh_refreshed _ core _ (ctlReg_not_refreshed core (by decide)), ← State.get,
    State.get_congr (State.holdOff_regs s4 _), State.get_congr (State.setCore_regs s3 _ _), h3]

/-! ### From which states an end may be judged -/

/-- The keeper of core `n` and the other cores stand in `t` as in `s`, for what the end of an instruction is judged by: registers, pc and
its mark, the count of instructions, a halt that waits, and the beats. -/
structure SameKeeper (n : Nat) (s t : State) : Prop where
  x       : (t.core n).x = (s.core n).x
  instret : (t.core n).instret = (s.core n).instret
  haltReq : (t.core n).haltReq = (s.core n).haltReq
  core_ne : ∀ m, m ≠ n → t.core m = s.core m
  reaches : t.reaches = s.reaches
  pc      : t.reg (Reg.KEEP_PC n) = s.reg (Reg.KEEP_PC n)
  mark    : smFind t.marks (Reg.KEEP_PC n) = smFind s.marks (Reg.KEEP_PC n)

namespace SameKeeper

theorem refl (n : Nat) (s : State) : SameKeeper n s s := ⟨rfl, rfl, rfl, fun _ _ => rfl, rfl, rfl, rfl⟩

theorem trans {n : Nat} {s t u : State} (h : SameKeeper n s t) (k : SameKeeper n t u) : SameKeeper n s u :=
  ⟨k.x.trans h.x, k.instret.trans h.instret, k.haltReq.trans h.haltReq, fun m hm => (k.core_ne m hm).trans (h.core_ne m hm),
    k.reaches.trans h.reaches, k.pc.trans h.pc, k.mark.trans h.mark⟩

theorem ite {n : Nat} {s t u : State} {c : Prop} [Decidable c] (h : SameKeeper n s t) (k : SameKeeper n s u) :
    SameKeeper n s (if c then t else u) := by split <;> assumption

theorem setCore (n : Nat) (s : State) {c : Core} (hx : c.x = (s.core n).x) (hi : c.instret = (s.core n).instret)
    (hh : c.haltReq = (s.core n).haltReq) : SameKeeper n s (s.setCore n c) :=
  ⟨by simp only [State.core_setCore_same, hx], by simp only [State.core_setCore_same, hi], by simp only [State.core_setCore_same, hh],
    fun _ hm => State.core_setCore_ne _ _ hm, rfl, rfl, rfl⟩

/-- A change of a part that the keeper does not stand in. -/
theorem of {n : Nat} {s t : State} (hc : t.cores = s.cores) (hr : t.reaches = s.reaches)
    (hp : t.reg (Reg.KEEP_PC n) = s.reg (Reg.KEEP_PC n)) (hm : smFind t.marks (Reg.KEEP_PC n) = smFind s.marks (Reg.KEEP_PC n)) :
    SameKeeper n s t :=
  have h := State.core_congr hc
  ⟨congrArg _ (h n), congrArg _ (h n), congrArg _ (h n), fun m _ => h m, hr, hp, hm⟩

theorem kpc {n : Nat} {s t : State} (h : SameKeeper n s t) : t.kpc n = s.kpc n := congrArg Fld.KEEP_PC.pc.get h.pc

theorem beatOf {n : Nat} {s t : State} (h : SameKeeper n s t) : t.beatOf n = s.beatOf n := State.beatOf_congr h.reaches n

end SameKeeper

theorem Notes.sameKeeper {s t : State} (h : Notes s t) (core : Fin 256) : SameKeeper core s t :=
  have hn : noteReg (Reg.KEEP_PC core) = false := noteReg_coreReg core (by decide) (by decide) (by decide) (by decide)
  .of h.changes.cores h.changes.reaches (h.regs _ hn) (h.marks _ hn)

theorem State.refresh_sameKeeper (s : State) (n : Nat) : SameKeeper n s (s.refresh n) :=
  .of (s.refresh_changes n).cores (s.refresh_changes n).reaches (s.refresh_refreshed n _ (coreReg_not_refreshed n (by decide))) rfl

/-- Within a beat, whether a write has set KEEP_PC is judged by its mark and the beat alone (R17). -/
theorem State.written_KEEP_PC {s t : State} (core : Fin 256) (hr : t.reaches = s.reaches) (hb : s.inBeat core = true)
    (hm : smFind t.marks (Reg.KEEP_PC core) = smFind s.marks (Reg.KEEP_PC core)) (f : BitField) :
    t.written (Reg.KEEP_PC core) f = s.written (Reg.KEEP_PC core) f := by
  have hlt : Reg.KEEP_PC core < 0x400000000 := coreReg_lt core (by decide)
  have hd : Reg.KEEP_PC core / 0x4000000 = core := coreReg_div core (by decide)
  have hrt : t.reach (reachOf core) = s.reach (reachOf core) := State.reach_congr hr _
  have hc : (s.reach (reachOf core)).complete = false := by simpa [State.inBeat] using hb
  simp only [State.written, State.mark, hlt, hd, decide_true, if_true, hrt, hm, hc]
  cases hf : smFind s.marks (Reg.KEEP_PC core) with
  | none => simp
  | some m =>
    simp only [Bool.not_true, Bool.or_false, Bool.and_false, Bool.false_eq_true, if_false, Nat.add_zero, Bool.not_false, Bool.and_self,
      Bool.or_true, Bool.true_or, and_true]
    split <;> rfl

theorem SameKeeper.nextPc {s t : State} {core : Fin 256} (h : SameKeeper core s t) (hb : s.inBeat core = true) (pc : Nat) :
    nextPc t core pc = nextPc s core pc := by
  rw [Machine.nextPc, State.written_KEEP_PC core h.reaches hb h.mark, h.kpc, Machine.nextPc]

/-- An instruction that has retired from a state has retired from every state in which its keeper stood the same. -/
theorem SameKeeper.retired {s u t : State} {core : Fin 256} {rd pc : Nat} {v : Option W32} (h : SameKeeper core s u)
    (hb : s.inBeat core = true) (k : Retired core rd v pc u t) : Retired core rd v pc s t := by
  obtain ⟨hx, hp, hi, ha, hw, hq, hh, hm⟩ := k
  refine ⟨?_, hp.trans (h.nextPc hb pc), hi.trans (by rw [h.instret]), ha.trans (by rw [h.beatOf]), hw, hq, ?_,
    fun m hne => (hm m hne).trans (h.core_ne m hne)⟩
  · rw [hx, h.x]
  · rw [← h.haltReq]; exact hh

/-- The same of a core that has gone to FAULT. -/
theorem SameKeeper.faulted {s u t : State} {n code : Nat} (h : SameKeeper n s u) (k : Faulted n code u t) : Faulted n code s t := by
  obtain ⟨hs, hc, hw, hx, hp, hm⟩ := k
  exact ⟨hs, hc, hw, hx.trans h.x, hp.trans h.kpc, fun m hne => (hm m hne).trans (h.core_ne m hne)⟩

/-! ### Retiring (R194) -/

/-- Core `n` after an instruction that retires with a result, a halt apart. -/
def Core.stepped (c : Core) (rd : Nat) (v : Option W32) (beat : Nat) : Core :=
  { c with
    x := match v with
      | some w => if rd = 0 then c.x else c.x.set rd w
      | none => c.x
    kAt := beat + 1
    kwait := .none
    instret := c.instret + 1
    kstep := false }

theorem State.retire_eq (s : State) (n rd : Nat) (v : Option W32) (pc : Nat) : s.retire n rd v pc =
    (let u := (s.setCore n ((s.core n).stepped rd v (s.beatOf n))).hwPut (Reg.KEEP_PC n) Fld.KEEP_PC.pc pc
    if (s.core n).haltReq then u.enterHalted n else u.refresh n) := by
  cases v <;> rfl

theorem State.hwPut_core (s : State) (a : Nat) (f : BitField) (v m : Nat) : (s.hwPut a f v).core m = s.core m :=
  State.core_congr (s.hwPut_changes a f v).cores m

theorem State.hwPut_regs (s : State) (a : Nat) (f : BitField) (v : Nat) : SameRegs [a] s (s.hwPut a f v) :=
  State.hwPut_step (.refl _ s) _ _ _ (by simp)

/-- The core of an instruction that retires: a halt that waited for it takes effect. -/
theorem State.retire_core (s : State) (n rd : Nat) (v : Option W32) (pc : Nat) :
    (s.retire n rd v pc).core n = { (s.core n).stepped rd v (s.beatOf n) with haltReq := false } := by
  rw [State.retire_eq]
  dsimp only
  split
  next h => rw [State.enterHalted_core, State.hwPut_core, State.core_setCore_same]; rfl
  next h =>
    rw [State.core_refresh, State.hwPut_core, State.core_setCore_same]
    have hf : (s.core n).haltReq = false := by simpa using h
    simp only [Core.stepped, hf]

theorem State.retire_core_ne (s : State) {n m : Nat} (rd : Nat) (v : Option W32) (pc : Nat) (h : m ≠ n) :
    (s.retire n rd v pc).core m = s.core m := by
  rw [State.retire_eq]
  dsimp only
  split
  · rw [State.enterHalted_core_ne _ h, State.hwPut_core, State.core_setCore_ne _ _ h]
  · rw [State.core_refresh, State.hwPut_core, State.core_setCore_ne _ _ h]

/-- A retiring instruction writes the registers that show its core alone. -/
theorem State.retire_sameRegs (s : State) (n rd : Nat) (v : Option W32) (pc : Nat) : SameRegs (coreShown n) s (s.retire n rd v pc) := by
  rw [State.retire_eq]
  extract_lets u
  have hu : SameRegs (coreShown n) s u := (SameRegs.ofRegs rfl).trans ((State.hwPut_regs _ _ _ _).widen (by simp [coreShown]))
  split
  · exact hu.trans (u.enterHalted_coreShown n)
  · exact hu.trans (u.refresh_sameRegs n)

theorem State.kpc_lt (s : State) (n : Nat) : s.kpc n < 2 ^ 32 := BitField.get_lt _ _

theorem State.kpc_hwPut (s : State) (n pc : Nat) : (s.hwPut (Reg.KEEP_PC n) Fld.KEEP_PC.pc pc).kpc n = nextPc s n pc := by
  unfold State.hwPut nextPc
  split
  · rfl
  · exact State.get_put_same _ _ _ _ (by decide)

theorem KEEP_PC_not_refreshed (core : Fin 256) : Reg.KEEP_PC core ∉ Reg.DTRM_STAT :: refreshed core := by
  have hd : Reg.KEEP_PC core ≠ Reg.DTRM_STAT := (Nat.lt_of_lt_of_le (coreReg_lt core (by decide)) (by decide)).ne
  simp only [List.mem_cons, hd, false_or]
  exact coreReg_not_refreshed core (by decide)

/-- An instruction retires (R194). -/
theorem State.retire_retired (s : State) (core : Fin 256) (rd : Nat) (v : Option W32) (pc : Nat) :
    Retired core rd v pc s (s.retire core rd v pc) := by
  have hc := s.retire_core core rd v pc
  refine ⟨by rw [hc]; rfl, ?_, by rw [hc]; rfl, by rw [hc]; rfl, by rw [hc]; rfl, by rw [hc], ?_, fun m h => s.retire_core_ne rd v pc h⟩
  · rw [State.retire_eq]
    extract_lets u
    have hk : u.kpc core = nextPc s core pc := State.kpc_hwPut _ core pc
    have same {t : State} (h : SameRegs (Reg.DTRM_STAT :: refreshed core) u t) : t.kpc core = u.kpc core :=
      congrArg Fld.KEEP_PC.pc.get (h _ (KEEP_PC_not_refreshed core))
    split
    · exact (same (u.enterHalted_regs core)).trans hk
    · exact (same ((u.refresh_refreshed core).widen fun _ h => List.mem_cons_of_mem _ h)).trans hk
  · intro hh
    rw [State.retire_eq]
    dsimp only
    rw [if_pos hh]
    exact State.enterHalted_state _ core

/-- A retiring instruction leaves every byte as it was. -/
theorem State.retire_byte (s : State) (n rd : Nat) (v : Option W32) (pc a : Nat) : (s.retire n rd v pc).byte a = s.byte a :=
  State.byte_congr (s.retire_changes n rd v pc).mem (s.retire_changes n rd v pc).ecc a

/-! ### FAULT (R192, R204, R205) -/

/-- The core runs, or stands halted. -/
def State.active (s : State) (n : Nat) : Prop := s.coreState n = stRunning ∨ s.coreState n = stHalted

theorem State.active_enabled {s : State} {n : Nat} (h : s.active n) : s.enabled n = true := by
  unfold State.active State.coreState at h
  split at h
  · assumption
  · exact absurd h (by decide)

theorem Notes.active {s t : State} (h : Notes s t) {n : Nat} (hn : n < 256) (k : s.active n) : t.active n := by
  unfold State.active at k ⊢
  rwa [h.coreState hn]

/-- A core that runs and goes to FAULT, step by step. -/
theorem State.faultCore_eq {s : State} {n : Nat} (code : Nat) (h : s.active n) : s.faultCore n code =
    ((((s.put (Reg.CORE_STAT n) Fld.CORE_STAT.state stFault).put (Reg.CORE_STAT n) Fld.CORE_STAT.fault_err code).setCore n
      { s.core n with kwait := .none, kstep := false }).holdOff (keeperHold n)).refresh n := by
  unfold State.faultCore
  extract_lets st a s1 s2 c s3
  have hc : c = s.core n := (State.core_put _ _ _ _ _).trans (State.core_put _ _ _ _ _)
  have h3 : s3 = s2.setCore n { s.core n with kwait := .none, kstep := false } := by rw [← hc]
  rw [if_pos (show st = stRunning ∨ st = stHalted from h), h3]

theorem State.active_faultCore_regs {s : State} {n : Nat} (code : Nat) (h : s.active n) : SameRegs (refreshed n) s (s.faultCore n code) := by
  rw [State.faultCore_eq code h]
  have put (t : State) (f : BitField) (v : Nat) : SameRegs (refreshed n) t (t.put (Reg.CORE_STAT n) f v) :=
    State.put_step (.refl _ t) _ _ _ (by simp [refreshed])
  exact (((put _ _ _).trans (put _ _ _)).trans ((SameRegs.ofRegs (State.setCore_regs _ _ _)).trans
    (.ofRegs (State.holdOff_regs _ _)))).trans (State.refresh_refreshed _ n)

theorem State.faultCore_core {s : State} {n : Nat} (code : Nat) (h : s.active n) :
    (s.faultCore n code).core n = { s.core n with kwait := .none, kstep := false } := by
  rw [State.faultCore_eq code h, State.core_refresh, State.core_holdOff, State.core_setCore_same]

theorem State.faultCore_core_ne (s : State) {n m : Nat} (code : Nat) (h : m ≠ n) : (s.faultCore n code).core m = s.core m := by
  unfold State.faultCore
  extract_lets st a s1 s2 c s3
  split
  · have h3 : s3.core m = s2.core m := State.core_setCore_ne _ _ h
    rw [State.core_refresh, State.core_holdOff, h3, State.core_put, State.core_put]
  · rfl

/-- A core that runs goes to FAULT with the code, and its keeper stops where it stood. -/
theorem State.faultCore_faulted {s : State} (core : Fin 256) (code : Nat) (h : s.active core) :
    Faulted core code s (s.faultCore core code) := by
  have hr := State.active_faultCore_regs code h
  have hen : (s.faultCore core code).enabled core = true := by
    have hmap := DEV_CORE_MAP_not_coreShown core core.isLt
    exact (State.enabled_congr (hr _ fun h => hmap (refreshed_coreShown core _ h))).trans (State.active_enabled h)
  have hstat (g : BitField) (hg : g.lo + g.width ≤ 6 ∨ 12 ≤ g.lo) : (s.faultCore core code).get (Reg.CORE_STAT core) g =
      ((s.put (Reg.CORE_STAT core) Fld.CORE_STAT.state stFault).put (Reg.CORE_STAT core) Fld.CORE_STAT.fault_err code).get
        (Reg.CORE_STAT core) g := by
    rw [State.faultCore_eq code h]
    rw [State.refresh_CORE_STAT _ core g hg, State.get_congr (State.holdOff_regs _ _), State.get_congr (State.setCore_regs _ _ _)]
  have hc := State.faultCore_core code h
  refine ⟨?_, ?_, by rw [hc], by rw [hc], ?_, fun m hm => s.faultCore_core_ne code hm⟩
  · rw [State.coreState, if_pos hen, hstat _ (.inl (by decide)), State.get_put_other _ _ _ _ _ (by decide),
      State.get_put_same _ _ _ _ (by decide)]
    rfl
  · rw [hstat _ (.inr (by decide)), State.get_put_same _ _ _ _ (by decide)]
    rfl
  · exact congrArg Fld.KEEP_PC.pc.get (hr _ (coreReg_not_refreshed core (by decide)))

/-- An error of a core is logged, and the core goes to FAULT with its code. -/
theorem State.failCore_faulted {s : State} (core : Fin 256) (code aux info : Nat) (tag : Option Nat) (h : s.active core) :
    Faulted core code s (s.failCore core code aux info tag) :=
  have hn := s.logCore_notes core code aux info tag
  (hn.sameKeeper core).faulted (State.faultCore_faulted core code (hn.active core.isLt h))

/-! ### Waiting -/

/-- A keeper that no halt waits for waits: the core shows it, and the rest of the core stands. -/
theorem State.stall_waits {s : State} {n : Nat} (w : KWait) (h : (s.core n).haltReq = false) :
    s.stall n w = (s.setCore n { s.core n with kwait := w }).refresh n := by
  unfold State.stall
  simp only [h, Bool.false_eq_true, false_and, if_false]

end Sys2Proof.Machine
end

section
/-! SUPPORT. Base instructions, faults and CSRs of the keeper (R190 to R196, R602). -/

namespace Sys2Proof.Machine

/-! ### A keeper that executes -/

theorem State.keeperRuns_inBeat {s : State} {n : Nat} (h : s.keeperRuns n = true) : s.inBeat n = true := by
  simp only [State.keeperRuns, Bool.and_eq_true] at h
  exact h.1.1.1

theorem State.keeperRuns_active {s : State} {n : Nat} (h : s.keeperRuns n = true) : s.active n := by
  simp only [State.keeperRuns, Bool.and_eq_true, Bool.or_eq_true, beq_iff_eq] at h
  exact h.2.imp_right And.left

theorem State.fetch_active {s : State} (core : Fin 256) (h : s.keeperRuns core = true) : (s.fetch core).1.active core :=
  (s.fetch_notes core).active core.isLt (State.keeperRuns_active h)

theorem State.fetch_inBeat {s : State} {n : Nat} (h : s.keeperRuns n = true) : (s.fetch n).1.inBeat n = true := by
  rw [State.inBeat, (s.fetch_notes n).reach, ← State.inBeat]
  exact State.keeperRuns_inBeat h

namespace KeeperAt

variable {s : State} {n i len : Nat} {k : KClass}

theorem fetch (h : KeeperAt s n k i len) : s.fetch n = ((s.fetch n).1, .instr i len) := Prod.ext rfl h.2.1

theorem runs (h : KeeperAt s n k i len) : s.keeperRuns n = true := h.1

theorem active {core : Fin 256} (h : KeeperAt s core k i len) : (s.fetch core).1.active core := State.fetch_active core h.1

theorem inBeat (h : KeeperAt s n k i len) : (s.fetch n).1.inBeat n = true := State.fetch_inBeat h.1

/-- A command whose class is the instruction's runs on the fetched state with the instruction and the pc after it. -/
theorem onInstr (h : KeeperAt s n k i len) {p : KClass → Bool} (hp : p k = true) (f : State → Nat → Nat → State) :
    s.onInstr n p f = f (s.fetch n).1 i (s.kpc n + len) := by
  unfold State.onInstr
  rw [h.fetch, h.1]
  dsimp only
  rw [h.2.2, hp]
  rfl

/-- A fault of the fetched state is one of the state before it. -/
theorem faulted {core : Fin 256} {code : Nat} {t : State} (k : Faulted core code (s.fetch core).1 t) : Faulted core code s t :=
  ((s.fetch_notes core).sameKeeper core).faulted k

/-- The keeper stops with a code (R192). -/
theorem kstop_faulted {core : Fin 256} (h : KeeperAt s core k i len) (code : Nat) :
    Faulted core code s ((s.fetch core).1.kstop core code) :=
  faulted (State.failCore_faulted core code 0 0 none h.active)

end KeeperAt

/-! ### Base instructions -/

/-- The fetched pair, from what the fetch gives. -/
theorem State.fetch_eq {s : State} {n : Nat} {r : Fetched} (h : (s.fetch n).2 = r) : s.fetch n = ((s.fetch n).1, r) := Prod.ext rfl h

/-- A fetch that fails stops the keeper with its code (R192). -/
theorem State.keeperInstr_stop {s : State} {n code : Nat} (h : s.keeperRuns n = true) (k : s.kdue n 1 = true)
    (hf : (s.fetch n).2 = .stop code) :
    s.keeperInstr n = if code = 0x2505 then (s.fetch n).1.faultCore n code else (s.fetch n).1.kstop n code := by
  unfold State.keeperInstr
  rw [State.fetch_eq hf, h, k]
  rfl

/-- A base instruction retires in its last beat with what its encoding gives (R190, R194). -/
theorem State.keeperInstr_retires {s : State} {n i len cost : Nat} {v : Option W32} {next : W32} (h : KeeperAt s n .base i len)
    (k : s.kdue n 1 = true) (hx : baseExec s.lat i len (BitVec.ofNat 32 (s.kpc n)) (s.kx n (rs1Of i)) (s.kx n (rs2Of i)) =
      some (v, next, cost)) (hc : s.kdue n cost = true) : s.keeperInstr n = (s.fetch n).1.retire n (rdOf i) v next.toNat := by
  unfold State.keeperInstr
  rw [h.fetch, h.runs, k]
  simp only [h.2.2, hx, hc, Bool.and_self, Bool.not_true, Bool.false_eq_true, if_false, ne_eq, not_true_eq_false, if_true]

/-- An illegal encoding stops the keeper with 0x3801 (R192). -/
theorem State.keeperInstr_illegal {s : State} {n i len : Nat} (h : KeeperAt s n .base i len) (k : s.kdue n 1 = true)
    (hx : baseExec s.lat i len (BitVec.ofNat 32 (s.kpc n)) (s.kx n (rs1Of i)) (s.kx n (rs2Of i)) = none) :
    s.keeperInstr n = (s.fetch n).1.kstop n 0x3801 := by
  unfold State.keeperInstr
  rw [h.fetch, h.runs, k]
  simp only [h.2.2, hx, Bool.and_self, Bool.not_true, Bool.false_eq_true, if_false, ne_eq, not_true_eq_false]

theorem exec_keeperInstruction (core : Fin 256) (s : State) : exec (.keeperInstruction core) s = .next (s.keeperInstr core) := rfl

/-! ### Custom instructions -/

/-- The command of a custom instruction does what its instruction says where the fields that must be 0 are (R196). -/
theorem exec_customCmd (c : Custom) (core : Fin 256) (s : State) : ∃ f, exec (customCmd core c) s = .next (s.onCustom core c f) := by
  cases c <;> exact ⟨_, rfl⟩

namespace CustomAt

variable {s : State} {n i len : Nat} {c : Custom}

theorem onCustom (h : CustomAt s n c i len) (f : State → Nat → Nat → State) :
    s.onCustom n c f = f (s.fetch n).1 i (s.kpc n + len) := by
  obtain ⟨hk, hok, hdue⟩ := h
  unfold State.onCustom
  rw [hk.onInstr (by exact beq_self_eq_true _)]
  simp only [hok, hdue, Bool.not_true, Bool.false_eq_true, if_false]

end CustomAt

/-- A custom instruction with a field that must be 0 set stops the keeper (R196). -/
theorem KeeperAt.onCustom_bad {s : State} {n i len : Nat} {c : Custom} (h : KeeperAt s n (.custom c) i len) (hok : customOk c i = false)
    (hdue : (s.fetch n).1.kdue n 1 = true) (f : State → Nat → Nat → State) :
    s.onCustom n c f = (s.fetch n).1.kstop n 0x3801 := by
  unfold State.onCustom
  rw [h.onInstr (by exact beq_self_eq_true _)]
  simp only [hok, hdue, Bool.not_true, Bool.not_false, Bool.false_eq_true, if_false, if_true]

/-! ### CSRs (R191) -/

/-- The virtual core of a physical core is the lowest that the map gives it (R191, R362). -/
theorem State.vcoreOf_eq {s : State} {n v : Nat} (hv : v < s.vgrid) (hn : s.vmap v = n) (hl : ∀ w < v, s.vmap w ≠ n) :
    s.vcoreOf n = some v := by
  rw [State.vcoreOf, List.find?_range_eq_some]
  exact ⟨by simpa using hn, by simpa using hv, fun j hj => by simpa using hl j hj⟩

/-- A CSR instruction reads an implemented CSR, or stops the keeper where it would write it (R191). -/
theorem exec_csrAccess_some {core : Fin 256} {s : State} {i len : Nat} {v : W32} (h : KeeperAt s core .csr i len)
    (hdue : (s.fetch core).1.kdue core ((s.fetch core).1.lat 13) = true) (hv : (s.fetch core).1.csr core (ibits i 20 12) = some v) :
    exec (.csrAccess core) s = .next (if csrWrites i then (s.fetch core).1.kstop core 0x3801
      else (s.fetch core).1.retire core (rdOf i) (some v) (s.kpc core + len)) := by
  show Host.Outcome.next (s.onInstr core _ _) = _
  rw [h.onInstr (by rfl)]
  simp only [hdue, hv, Bool.not_true, Bool.false_eq_true, if_false]

theorem exec_csrAccess_none {core : Fin 256} {s : State} {i len : Nat} (h : KeeperAt s core .csr i len)
    (hdue : (s.fetch core).1.kdue core ((s.fetch core).1.lat 13) = true) (hv : (s.fetch core).1.csr core (ibits i 20 12) = none) :
    exec (.csrAccess core) s = .next ((s.fetch core).1.kstop core 0x3801) := by
  show Host.Outcome.next (s.onInstr core _ _) = _
  rw [h.onInstr (by rfl)]
  simp only [hdue, hv, Bool.not_true, Bool.false_eq_true, if_false]

theorem exec_ebreak {core : Fin 256} {s : State} {i len : Nat} (h : KeeperAt s core .ebreak i len)
    (hdue : (s.fetch core).1.kdue core 1 = true) :
    exec (.ebreak core) s = .next (((s.fetch core).1.retire core 0 none (s.kpc core + len)).enterHalted core) := by
  show Host.Outcome.next (s.onInstr core _ _) = _
  rw [h.onInstr (by rfl)]
  simp only [hdue, if_true]

/-- A halt at the end of an instruction that has retired leaves it retired. -/
theorem Retired.enterHalted {core : Fin 256} {rd pc : Nat} {v : Option W32} {u t : State} (h : Retired core rd v pc u t) :
    Retired core rd v pc u (t.enterHalted core) := by
  obtain ⟨hx, hp, hi, ha, -, -, -, hm⟩ := h
  have hc := t.enterHalted_core core
  refine ⟨by rw [hc]; exact hx, ?_, by rw [hc]; exact hi, by rw [hc]; exact ha, by rw [hc], by rw [hc],
    fun _ => t.enterHalted_state core, fun m hne => (t.enterHalted_core_ne hne).trans (hm m hne)⟩
  exact (congrArg Fld.KEEP_PC.pc.get (t.enterHalted_regs core _ (KEEP_PC_not_refreshed core))).trans hp

/-- A halted core that is not fenced is HALTED. -/
theorem State.enterHalted_coreState {s : State} (core : Fin 256) (h : s.enabled core = true) :
    (s.enterHalted core).coreState core = stHalted := by
  have hen : (s.enterHalted core).enabled core = true :=
    (State.enabled_congr (s.enterHalted_coreShown core _ (DEV_CORE_MAP_not_coreShown core core.isLt))).trans h
  rw [State.coreState, if_pos hen, State.enterHalted_state]

/-- A retiring instruction leaves the core map. -/
theorem State.retire_enabled (s : State) (core : Fin 256) (rd : Nat) (v : Option W32) (pc : Nat) :
    (s.retire core rd v pc).enabled core = s.enabled core :=
  State.enabled_congr (s.retire_sameRegs core rd v pc _ (DEV_CORE_MAP_not_coreShown core core.isLt))

/-! ### The obligations -/

/-- Settles O14: the command retires the fetched instruction with what `baseExec` gives. -/
theorem keeperBase : Obligations.KeeperBase := by
  unfold Obligations.KeeperBase
  rintro core s i len _ cost v next hk hdue rfl hx hcost
  exact Gives.intro (congrArg Host.Outcome.next (State.keeperInstr_retires hk hdue hx hcost))
    ⟨State.retire_retired _ core _ _ _, State.retire_sameRegs _ _ _ _ _⟩

/-- Settles O15: a fault of the fetched state is one of the state before it, as a fetch only notes errors. -/
theorem keeperFaults : Obligations.KeeperFaults := by
  unfold Obligations.KeeperFaults
  refine ⟨fun core s code hrun hdue h => ?_, fun c core s i len hk hok hdue => ?_⟩
  · have hact := State.fetch_active core hrun
    obtain hstop | ⟨rfl, i, len, hf, hk, hx⟩ := h
    · refine Gives.intro (congrArg Host.Outcome.next (State.keeperInstr_stop hrun hdue hstop)) (KeeperAt.faulted ?_)
      split
      · exact State.faultCore_faulted core code hact
      · exact State.failCore_faulted core code 0 0 none hact
    · have hat : KeeperAt s core .base i len := ⟨hrun, hf, hk⟩
      exact Gives.intro (congrArg Host.Outcome.next (State.keeperInstr_illegal hat hdue hx)) (hat.kstop_faulted 0x3801)
  · obtain ⟨f, hf⟩ := exec_customCmd c core s
    exact Gives.intro (hf.trans (congrArg Host.Outcome.next (hk.onCustom_bad hok hdue f))) (hk.kstop_faulted 0x3801)

/-- Settles O17: by what the command makes of the CSR that is named, and of EBREAK. -/
theorem keeperCsrs : Obligations.KeeperCsrs := by
  unfold Obligations.KeeperCsrs
  refine ⟨fun core s i len => ⟨fun hk hdue => ⟨fun v hv hw => ?_, fun hno => ?_⟩, fun hk hdue => ?_⟩, fun n s => ?_⟩
  · refine Gives.intro (exec_csrAccess_some hk hdue hv) ?_
    simp only [hw, Bool.false_eq_true, if_false]
    exact ⟨State.retire_retired _ core _ _ _, State.retire_sameRegs _ _ _ _ _⟩
  · cases hv : (s.fetch core).1.csr core (ibits i 20 12) with
    | none => exact Gives.intro (exec_csrAccess_none hk hdue hv) (hk.kstop_faulted 0x3801)
    | some v =>
      refine Gives.intro (exec_csrAccess_some hk hdue hv) ?_
      simp only [hno.resolve_left (by simp [hv]), if_true]
      exact hk.kstop_faulted 0x3801
  · have hr := State.retire_retired (s.fetch core).1 core 0 none (s.kpc core + len)
    have hen := (State.retire_enabled (s.fetch core).1 core 0 none (s.kpc core + len)).trans (State.active_enabled hk.active)
    exact Gives.intro (exec_ebreak hk hdue) ⟨hr.enterHalted, State.enterHalted_coreState core hen, State.enterHalted_halted _ core,
      (State.retire_sameRegs _ _ _ _ _).trans (State.enterHalted_coreShown _ _)⟩
  · refine ⟨rfl, rfl, rfl, rfl, rfl, rfl, fun v hv hn hl => ?_, fun c hc => ?_⟩
    · show some (BitVec.ofNat 32 ((s.vcoreOf n).getD 0)) = _
      rw [State.vcoreOf_eq hv hn hl]
      rfl
    · simp only [List.mem_cons, List.not_mem_nil, or_false, not_or] at hc
      simp only [State.csr, hc, if_false]

end Sys2Proof.Machine
end

section
/-! SUPPORT. The issue FIFOs of a core (R180, R197): what ISSUE appends, and what its wait and completion leave. -/

namespace Sys2Proof.Machine

/-- A custom instruction's command, where it is at that instruction. -/
theorem CustomAt.runs {s : State} {n i len : Nat} {c : Custom} (h : CustomAt s n c i len) : s.keeperRuns n = true := h.1.1

/-- An instruction that retires from a state with the fetched state's keeper has retired from the fetched state. -/
theorem CustomAt.retired {s u t : State} {core : Fin 256} {i len rd pc : Nat} {v : Option W32} {c : Custom} (h : CustomAt s core c i len)
    (hk : SameKeeper core (s.fetch core).1 u) (hr : Retired core rd v pc u t) : Retired core rd v pc (s.fetch core).1 t :=
  hk.retired (State.fetch_inBeat h.runs) hr

/-- The keeper lines of an access, where none was uncorrectable. -/
theorem State.keeperLines_eq {s : State} {n a len : Nat} {b : Bool} (h : (s.keeperLines n a len).2 = b) :
    s.keeperLines n a len = ((s.keeperLines n a len).1, b) := Prod.ext rfl h

/-! ### A FIFO -/

/-- Core `c` with a descriptor appended to the FIFO of stream `st` in a beat. -/
def Core.issued (c : Core) (st beat : Nat) (d : List Word) : Core :=
  if st = 1 then { c with xFifo := c.xFifo ++ [d], xIssue := some beat } else { c with aFifo := c.aFifo ++ [d], aIssue := some beat }

theorem Core.issued_fifo_same (c : Core) (st beat : Nat) (d : List Word) :
    (c.issued st beat d).fifo (st == 1) = c.fifo (st == 1) ++ [d] := by
  by_cases h : st = 1
  · simp only [Core.issued, h, if_true, Core.fifo, beq_self_eq_true]
  · simp only [Core.issued, h, if_false, Core.fifo, beq_eq_false_iff_ne.mpr h, Bool.false_eq_true]

theorem Core.issued_fifo_other (c : Core) (st beat : Nat) (d : List Word) :
    (c.issued st beat d).fifo (st != 1) = c.fifo (st != 1) := by
  by_cases h : st = 1
  · simp only [Core.issued, h, if_true, Core.fifo, bne_self_eq_false, Bool.false_eq_true, if_false]
  · simp only [Core.issued, h, if_false, Core.fifo, bne, beq_eq_false_iff_ne.mpr h, Bool.not_false, if_true]

/-- The keeper's own state is not that of the FIFOs. -/
theorem Core.issued_keeper (c : Core) (st beat : Nat) (d : List Word) :
    (c.issued st beat d).x = c.x ∧ (c.issued st beat d).instret = c.instret ∧ (c.issued st beat d).haltReq = c.haltReq := by
  unfold Core.issued
  split <;> exact ⟨rfl, rfl, rfl⟩

theorem Core.stepped_fifo (c : Core) (rd : Nat) (v : Option W32) (beat : Nat) (onX : Bool) :
    (c.stepped rd v beat).fifo onX = c.fifo onX := rfl

theorem Core.haltReq_fifo (c : Core) (h : Bool) (onX : Bool) : ({ c with haltReq := h } : Core).fifo onX = c.fifo onX := rfl

/-! ### ISSUE -/

/-- A FIFO with room takes the descriptor, and the instruction retires (R180). -/
theorem State.issueDone_room {s : State} {n st : Nat} (pc : Nat) (e : List Byte) (h : ((s.core n).fifo (st == 1)).length < 8) :
    s.issueDone n st pc e = (s.setCore n ((s.core n).issued st (s.beatOf n) (descWords e))).retire n 0 none pc := by
  unfold State.issueDone Core.issued descWords
  dsimp only
  rw [if_neg (by omega)]

theorem State.issueDone_full {s : State} {n st : Nat} (pc : Nat) (e : List Byte) (h : 8 ≤ ((s.core n).fifo (st == 1)).length) :
    s.issueDone n st pc e = s.stall n (.issue st e) := if_pos h

/-- What an ISSUE with room leaves. -/
theorem State.issueDone_issued {s : State} (core : Fin 256) {st : Nat} (pc : Nat) (e : List Byte)
    (hb : s.inBeat core = true) (h : ((s.core core).fifo (st == 1)).length < 8) :
    Retired core 0 none pc s (s.issueDone core st pc e) ∧
    ((s.issueDone core st pc e).core core).fifo (st == 1) = (s.core core).fifo (st == 1) ++ [descWords e] ∧
    ((s.issueDone core st pc e).core core).fifo (st != 1) = (s.core core).fifo (st != 1) ∧
    SameRegs (coreShown core) s (s.issueDone core st pc e) := by
  obtain ⟨hx, hi, hh⟩ := (s.core core).issued_keeper st (s.beatOf core) (descWords e)
  rw [State.issueDone_room pc e h]
  refine ⟨(SameKeeper.setCore _ s hx hi hh).retired hb (State.retire_retired _ core _ _ _), ?_, ?_,
    (SameRegs.ofRegs (State.setCore_regs _ _ _)).trans (State.retire_sameRegs _ _ _ _ _)⟩
  · rw [State.retire_core, Core.haltReq_fifo, Core.stepped_fifo, State.core_setCore_same, Core.issued_fifo_same]
  · rw [State.retire_core, Core.haltReq_fifo, Core.stepped_fifo, State.core_setCore_same, Core.issued_fifo_other]

/-- A keeper that no halt waits for waits, and the rest of its core stands. -/
theorem State.stall_core {s : State} {n : Nat} (w : KWait) (h : (s.core n).haltReq = false) :
    (s.stall n w).core n = { s.core n with kwait := w } := by
  rw [State.stall_waits w h, State.core_refresh, State.core_setCore_same]

theorem State.stall_core_ne {s : State} {n m : Nat} (w : KWait) (h : (s.core n).haltReq = false) (hm : m ≠ n) :
    (s.stall n w).core m = s.core m := by
  rw [State.stall_waits w h, State.core_refresh, State.core_setCore_ne _ _ hm]

theorem exec_issue {core : Fin 256} {s : State} {i len a : Nat} (h : CustomAt s core .issue i len)
    (h6 : six4 core ((s.fetch core).1.kx core (rs1Of i)).toNat = .dmem a)
    (hdue : (s.fetch core).1.kdue core ((s.fetch core).1.lat 18) = true) (hl : ((s.fetch core).1.keeperLines core a 64).2 = false) :
    exec (.issue core) s = .next (((s.fetch core).1.keeperLines core a 64).1.issueDone core (f7Of i % 2) (s.kpc core + len)
      ((s.fetch core).1.bytes a 64)) := by
  show Host.Outcome.next (s.onCustom core .issue _) = _
  rw [h.onCustom]
  simp only [h6, hdue, Bool.not_true, Bool.false_eq_true, if_false]
  rw [State.keeperLines_eq hl]

theorem exec_issueComplete {core : Fin 256} {s : State} {st : Nat} {e : List Byte} (hw : (s.core core).kwait = .issue st e)
    (hb : s.inBeat core = true) (h : ((s.core core).fifo (st == 1)).length < 8) :
    exec (.issueComplete core) s = .next (s.issueDone core st (s.pcAfter core) e) := by
  show execIssueComplete core s = _
  simp only [execIssueComplete, hw, hb, h, and_self, if_true]

/-- Settles O19: by what `issueDone` leaves, from the fetched state with its lines noted and from the state of the completion. -/
theorem issueQueue : Obligations.IssueQueue := by
  unfold Obligations.IssueQueue
  refine fun core s => ⟨fun i len a hk h6 hdue hl => ?_, fun st e hw hb hroom => ?_, fun i len hk => ?_⟩
  · have hn : Notes s ((s.fetch core).1.keeperLines core a 64).1 := (s.fetch_notes core).trans (State.keeperLines_notes _ _ _ _)
    have hbytes := (s.fetch_notes core).bytes a 64
    have he := exec_issue hk h6 hdue hl
    rw [hbytes] at he
    constructor
    · intro hroom
      rw [← hn.core] at hroom ⊢
      have hb : ((s.fetch core).1.keeperLines core a 64).1.inBeat core = true := by
        rw [State.inBeat, hn.reach, ← State.inBeat]
        exact State.keeperRuns_inBeat hk.runs
      obtain ⟨hr, hs, ho, -⟩ := State.issueDone_issued core (s.kpc core + len) (s.bytes a 64) hb hroom
      exact Gives.intro he ⟨hr, hs, ho⟩
    · intro hfull hh
      rw [← hn.core] at hfull hh ⊢
      exact Gives.intro he (by rw [State.issueDone_full _ _ hfull, State.stall_core _ hh])
  · exact Gives.intro (exec_issueComplete hw hb hroom) (State.issueDone_issued core _ e hb hroom)
  · refine Gives.intro (congrArg Host.Outcome.next (hk.onCustom _)) ?_
    have hr := State.retire_retired (s.fetch core).1 core (rdOf i)
      (some (BitVec.ofNat 32 (8 - (((s.fetch core).1.core core).fifo (f7Of i % 2 == 1)).length))) (s.kpc core + len)
    rwa [(s.fetch_notes core).core] at hr ⊢

end Sys2Proof.Machine
end

section
/-! SUPPORT. Lock counters as the keeper uses them: a wait whose counter number names no counter refutes the obligation on them. -/

namespace Sys2Proof.Machine

/-- Core 0 in a beat, its keeper waiting for nothing of counter 100: no counter, as a core has 32, but the number that leads to
INGRESS_STAT, which a write has left at 1 while the ingress buffer is empty. -/
def staleIngress : State :=
  (State.reset.put (Reg.INGRESS_STAT 0) Fld.INGRESS_STAT.held 1).setCore 0 { kwait := .lwait 100 0 }

/-- The retiring keeper brings INGRESS_STAT up to date. -/
theorem staleIngress_count :
    staleIngress.lockCount 0 100 = 1 ∧ ((staleIngress.waitTry 0 100 0 (staleIngress.pcAfter 0)).lockCount 0 100) = 0 := by
  decide +kernel

theorem exec_lwaitSatisfied {core : Fin 256} {s : State} {i k : Nat} (hw : (s.core core).kwait = .lwait i k)
    (hb : s.inBeat core = true) (h : k ≤ s.countFor core i .keeper) :
    exec (.lwaitSatisfied core) s = .next (s.waitTry core i k (s.pcAfter core)) := by
  show execLwaitSatisfied core s = _
  simp only [execLwaitSatisfied, hw, hb, h, and_self, if_true]

/-- Refutes O20: a wait is said to be satisfied for every counter number `i`, where a core has 32 counters. LOCK_CNT_100 would lie at
INGRESS_STAT, which shows the ingress buffer and which the retiring keeper brings up to date (R208): a wait for 0 that leaves the count of a
counter as it stands leaves 0 there where 1 stood. The counterexample rests on the statement's reach over every wait: LWAIT names counters
below 32 (R197). -/
theorem not_keeperCounters : ¬ Obligations.KeeperCounters := by
  unfold Obligations.KeeperCounters
  rintro ⟨-, h⟩
  have hw : (staleIngress.core 0).kwait = .lwait 100 0 := by decide +kernel
  have hb : staleIngress.inBeat 0 = true := by decide +kernel
  obtain ⟨t, ht, -, -, hcount, -⟩ := h 0 staleIngress 100 0 hw hb (Nat.zero_le _)
  have he : exec (.lwaitSatisfied 0) staleIngress = .next (staleIngress.waitTry 0 100 0 (staleIngress.pcAfter 0)) :=
    exec_lwaitSatisfied hw hb (Nat.zero_le _)
  obtain rfl : staleIngress.waitTry 0 100 0 (staleIngress.pcAfter 0) = t := by simpa [he] using ht
  obtain ⟨h1, h0⟩ := staleIngress_count
  have hsame : (staleIngress.waitTry 0 100 0 (staleIngress.pcAfter 0)).lockCount 0 100 = 1 :=
    hcount.trans (by rw [show staleIngress.lockCount (0 : Fin 256).val 100 = 1 from h1])
  rw [h0] at hsame
  exact absurd hsame (by decide)

end Sys2Proof.Machine
end

section
/-! SUPPORT. CORE_CTRL (R203, R204, R206, R602): what its commands make of a core. -/

namespace Sys2Proof.Machine

/-! ### Fields of CORE_STAT as `refresh` shows them -/

/-- The keeper's state as CORE_STAT shows it (R208). -/
def Core.keepState (c : Core) (st : Nat) : Nat :=
  if st = stFault then 2
  else if st = stHalted then (if c.kstep then 1 else 2)
  else if st = stRunning ∧ c.kwait ≠ .none then 1
  else 0

theorem State.refresh_keep_state (s : State) (n : Nat) :
    (s.refresh n).get (Reg.CORE_STAT n) Fld.CORE_STAT.keep_state = (s.core n).keepState (s.coreState n) % 4 := by
  have ne {x : Nat} (hx : 0x8 ≠ x) : Reg.CORE_STAT n ≠ coreRegs n + x := fun e => hx (Nat.add_left_cancel e)
  unfold State.refresh
  extract_lets c st a keep s1 s2 s3 s4 s5 s6
  calc (s6.put (Reg.INGRESS_STAT n) Fld.INGRESS_STAT.held c.ingress.length).get (Reg.CORE_STAT n) Fld.CORE_STAT.keep_state
      = s6.get (Reg.CORE_STAT n) Fld.CORE_STAT.keep_state := State.get_put_ne _ _ _ _ (ne (by decide))
    _ = s5.get (Reg.CORE_STAT n) Fld.CORE_STAT.keep_state := State.get_put_ne _ _ _ _ (ne (by decide))
    _ = s4.get (Reg.CORE_STAT n) Fld.CORE_STAT.keep_state := State.get_put_ne _ _ _ _ (ne (by decide))
    _ = s3.get (Reg.CORE_STAT n) Fld.CORE_STAT.keep_state := State.get_put_ne _ _ _ _ (ne (by decide))
    _ = keep % 4 := State.get_put_same _ _ _ _ (by decide)

/-- The state of a core is read from the core map and from its own CORE_STAT. -/
theorem State.coreState_of_enabled {s : State} {n : Nat} (h : s.enabled n = true) :
    s.coreState n = s.get (Reg.CORE_STAT n) Fld.CORE_STAT.state := if_pos h

theorem State.coreState_refresh (s : State) (core : Fin 256) : (s.refresh core).coreState core = s.coreState core := by
  have hen : (s.refresh core).enabled core = s.enabled core :=
    State.enabled_congr (s.refresh_sameRegs core _ (DEV_CORE_MAP_not_coreShown core core.isLt))
  rw [State.coreState, hen, s.refresh_CORE_STAT core _ (.inl (by decide)), State.coreState]

/-- A register of a core is not in the core map. -/
theorem State.enabled_put_core (s : State) {a : Nat} (f : BitField) (v : Nat) (ha : a < 0x400000000) (n : Nat) :
    (s.put a f v).enabled n = s.enabled n := by
  have hge : 0x400000000 ≤ Reg.DEV_CORE_MAP (n / 64) := by
    simp only [Reg.DEV_CORE_MAP, blockBase]
    omega
  exact State.enabled_congr (State.reg_put_ne _ _ _ (Nat.lt_of_lt_of_le ha hge).ne')

theorem CORE_STAT_lt (core : Fin 256) : Reg.CORE_STAT core < 0x400000000 := coreReg_lt core (by decide)

theorem CORE_CTRL_lt (core : Fin 256) : Reg.CORE_CTRL core < 0x400000000 := coreReg_lt core (by decide)

/-- A core that is not fenced, its state set. -/
theorem State.coreState_put_state {s : State} (core : Fin 256) {st : Nat} (h : s.enabled core = true) (hs : st < 8) :
    (s.put (Reg.CORE_STAT core) Fld.CORE_STAT.state st).coreState core = st := by
  rw [State.coreState, if_pos ((s.enabled_put_core _ _ (CORE_STAT_lt core) core).trans h), State.get_put_same _ _ _ _ (by decide)]
  exact Nat.mod_eq_of_lt hs

theorem State.coreState_put_CORE_CTRL (s : State) (core : Fin 256) (f : BitField) (v : Nat) :
    (s.put (Reg.CORE_CTRL core) f v).coreState core = s.coreState core := by
  have hne : Reg.CORE_STAT core ≠ Reg.CORE_CTRL core := fun e => absurd (Nat.add_left_cancel e) (by decide)
  rw [State.coreState, State.enabled_put_core _ _ _ (CORE_CTRL_lt core), State.get_put_ne _ _ _ _ hne, ← State.coreState]

/-! ### ARM and DISARM -/

theorem State.arm_stopped {s : State} (core : Fin 256) (he : s.enabled core = true) (h : s.coreState core = stStopped) :
    (s.arm core).coreState core = stLoaded ∧ (s.arm core).get (Reg.CORE_CTRL core) Fld.CORE_CTRL.arm = 1 ∧
    SameRegs [Reg.CORE_STAT core, Reg.CORE_CTRL core] s (s.arm core) := by
  rw [State.arm, if_pos h]
  refine ⟨?_, State.get_put_same _ _ _ _ (by decide),
    State.put_step (State.put_step (.refl _ s) _ _ _ (by simp)) _ _ _ (by simp)⟩
  rw [State.coreState_put_CORE_CTRL]
  exact State.coreState_put_state core he (by decide)

theorem State.unarm_loaded {s : State} (core : Fin 256) (he : s.enabled core = true) (h : s.coreState core = stLoaded) :
    (s.unarm core).coreState core = stStopped ∧ (s.unarm core).get (Reg.CORE_CTRL core) Fld.CORE_CTRL.arm = 0 ∧
    SameRegs [Reg.CORE_STAT core, Reg.CORE_CTRL core] s (s.unarm core) := by
  rw [State.unarm, if_pos h]
  refine ⟨?_, State.get_put_same _ _ _ _ (by decide),
    State.put_step (State.put_step (.refl _ s) _ _ _ (by simp)) _ _ _ (by simp)⟩
  rw [State.coreState_put_CORE_CTRL]
  exact State.coreState_put_state core he (by decide)

theorem State.unarm_not_loaded {s : State} {n : Nat} (h : s.coreState n ≠ stLoaded) : s.unarm n = s := if_neg h

theorem State.writeCoreReg_ctrl {s : State} {n : Nat} (h : s.enabled n = true) (v : Word) :
    s.writeCoreReg n 0 v = s.writeCoreCtrl n v := by
  unfold State.writeCoreReg
  simp only [h, Bool.not_true, Bool.false_eq_true, if_false]
  exact if_pos rfl

/-! ### The debug commands -/

/-- A value of CORE_CTRL with a command bit set reads 1 there, and 0 in the other command bits. -/
theorem State.ctrlWith_bits (s : State) (n : Nat) :
    (Fld.CORE_CTRL.halt.get (s.ctrlWith n Fld.CORE_CTRL.halt) = 1) ∧
    (Fld.CORE_CTRL.resume.get (s.ctrlWith n Fld.CORE_CTRL.resume) = 1) ∧
    (Fld.CORE_CTRL.halt.get (s.ctrlWith n Fld.CORE_CTRL.resume) = 0) ∧
    (Fld.CORE_CTRL.kstep.get (s.ctrlWith n Fld.CORE_CTRL.kstep) = 1) ∧
    (Fld.CORE_CTRL.halt.get (s.ctrlWith n Fld.CORE_CTRL.kstep) = 0) ∧
    (Fld.CORE_CTRL.resume.get (s.ctrlWith n Fld.CORE_CTRL.kstep) = 0) := by
  have zero (f g : BitField) (h : f.lo + f.width ≤ g.lo ∨ g.lo + g.width ≤ f.lo)
      (k : Fld.CORE_CTRL.arm.lo + Fld.CORE_CTRL.arm.width ≤ g.lo ∨ g.lo + g.width ≤ Fld.CORE_CTRL.arm.lo) (h0 : g.get 0 = 0) :
      g.get (s.ctrlWith n f) = 0 := by
    rw [State.ctrlWith, BitField.get_set_other f g _ _ h, BitField.get_set_other _ g _ _ k, h0]
  exact ⟨BitField.get_set_same _ _ _ (by decide), BitField.get_set_same _ _ _ (by decide),
    zero _ _ (by decide) (by decide) (by decide), BitField.get_set_same _ _ _ (by decide), zero _ _ (by decide) (by decide) (by decide),
    zero _ _ (by decide) (by decide) (by decide)⟩

/-- A write of CORE_CTRL in a core that runs or is halted leaves `arm`: what is left is the debug commands. -/
theorem State.writeCoreCtrl_busy {s : State} {n : Nat} (h : s.active n) (v : Word) : s.writeCoreCtrl n v =
    if (Fld.CORE_CTRL.halt.get v == 1 || Fld.CORE_CTRL.resume.get v == 1 || Fld.CORE_CTRL.kstep.get v == 1) && s.debugClosed then
      (s.logCore n 0x3806, 0x3806)
    else
      let t := if Fld.CORE_CTRL.halt.get v = 1 ∧ s.coreState n = stRunning then s.halt n else s
      (if Fld.CORE_CTRL.resume.get v = 1 ∧ s.coreState n = stHalted then t.resume n
        else if Fld.CORE_CTRL.kstep.get v = 1 ∧ s.coreState n = stHalted then t.kstepOnce n
        else t, 0) := by
  have h1 : s.coreState n ≠ stStopped := by rcases h with h | h <;> rw [h] <;> decide
  have h2 : s.coreState n ≠ stLoaded := by rcases h with h | h <;> rw [h] <;> decide
  unfold State.writeCoreCtrl
  simp only [h1, if_false, State.unarm_not_loaded h2, ite_self, beq_iff_eq]

theorem exec_haltCore {core : Fin 256} {s : State} (hd : s.debugClosed = false) (h : s.coreState core = stRunning)
    (he : s.enabled core = true) : exec (.haltCore core) s = .next (s.halt core) := by
  show Host.Outcome.next (s.writeCoreReg core 0 (s.ctrlWith core Fld.CORE_CTRL.halt)).1 = _
  rw [State.writeCoreReg_ctrl he, State.writeCoreCtrl_busy (.inl h)]
  simp only [hd, h, (s.ctrlWith_bits core).1, Bool.and_false, Bool.false_eq_true, and_self, if_true, if_false]
  rw [if_neg (fun k => absurd k.2 (by decide)), if_neg (fun k => absurd k.2 (by decide))]

theorem exec_resumeCore {core : Fin 256} {s : State} (hd : s.debugClosed = false) (h : s.coreState core = stHalted)
    (he : s.enabled core = true) : exec (.resumeCore core) s = .next (s.resume core) := by
  obtain ⟨-, h1, h0, -⟩ := s.ctrlWith_bits core
  show Host.Outcome.next (s.writeCoreReg core 0 (s.ctrlWith core Fld.CORE_CTRL.resume)).1 = _
  rw [State.writeCoreReg_ctrl he, State.writeCoreCtrl_busy (.inr h)]
  simp only [hd, h, h1, h0, Bool.and_false, Bool.false_eq_true, and_self, if_true, if_false]
  rw [if_neg (fun k => absurd k.2 (by decide))]

theorem exec_kstepCore {core : Fin 256} {s : State} (hd : s.debugClosed = false) (h : s.coreState core = stHalted)
    (he : s.enabled core = true) : exec (.kstepCore core) s = .next (s.kstepOnce core) := by
  obtain ⟨-, -, -, h1, h0, hr⟩ := s.ctrlWith_bits core
  show Host.Outcome.next (s.writeCoreReg core 0 (s.ctrlWith core Fld.CORE_CTRL.kstep)).1 = _
  rw [State.writeCoreReg_ctrl he, State.writeCoreCtrl_busy (.inr h)]
  simp only [hd, h, h1, h0, hr, Bool.and_false, Bool.false_eq_true, and_self, if_true, if_false]
  rw [if_neg (fun k => absurd k.1 (by decide)), if_neg (fun k => absurd k.1 (by decide))]

/-- With debug closed each debug command is logged and does nothing else (R206). -/
theorem exec_debugClosed {core : Fin 256} {s : State} (hd : s.debugClosed = true) (h : s.active core) {c : Instr}
    (hc : c ∈ [Instr.haltCore core, .resumeCore core, .kstepCore core]) : exec c s = .next (s.logCore core 0x3806) := by
  have he := State.active_enabled h
  obtain ⟨h1, h2, -, h3, -⟩ := s.ctrlWith_bits core
  have one {f : BitField} (hv : (Fld.CORE_CTRL.halt.get (s.ctrlWith core f) == 1 || Fld.CORE_CTRL.resume.get (s.ctrlWith core f) == 1 ||
      Fld.CORE_CTRL.kstep.get (s.ctrlWith core f) == 1) = true) :
      (s.writeCoreReg core 0 (s.ctrlWith core f)).1 = s.logCore core 0x3806 := by
    rw [State.writeCoreReg_ctrl he, State.writeCoreCtrl_busy h, hv, hd]
    rfl
  simp only [List.mem_cons, List.not_mem_nil, or_false] at hc
  rcases hc with rfl | rfl | rfl
  · exact congrArg Host.Outcome.next (one (by simp [h1]))
  · exact congrArg Host.Outcome.next (one (by simp [h2]))
  · exact congrArg Host.Outcome.next (one (by simp [h3]))

/-! ### A halt, a resumption, a step -/

theorem State.enterHalted_holds (s : State) (n : Nat) : ∀ h ∈ (s.enterHalted n).die.holds, keeperHold n h = false := by
  unfold State.enterHalted
  extract_lets a s1 s2 s3 c s4
  rw [(State.refresh_changes _ n).die]
  intro h hh
  simpa using (List.mem_filter.mp hh).2

theorem State.enterHalted_once (s : State) (core : Fin 256) :
    (s.enterHalted core).get (Reg.CORE_STAT core) Fld.CORE_STAT.halted_once = 1 := by
  have hd : Reg.CORE_STAT core ≠ Reg.DTRM_STAT := (Nat.lt_of_lt_of_le (coreReg_lt core (by decide)) (by decide)).ne
  unfold State.enterHalted
  extract_lets a s1 s2 s3 c s4
  have h3 : s3.get (Reg.CORE_STAT core) Fld.CORE_STAT.halted_once = 1 :=
    (State.get_put_ne s2 _ _ _ hd).trans (State.get_put_same s1 _ _ _ (by decide))
  rw [State.refresh_CORE_STAT _ _ _ (.inr (by decide)), State.get_congr (State.holdOff_regs s4 _), State.get_congr (State.setCore_regs s3 _ _), h3]

/-- A halt at a boundary, or where the instruction waits for its condition, takes effect at once (R602). -/
theorem State.halt_now {s : State} {n : Nat} (h : s.coreState n = stRunning)
    (k : s.abandons n (s.core n).kwait = true ∨ (s.core n).kwait = .none ∧ s.beatOf n < (s.core n).kAt) : s.halt n = s.enterHalted n := by
  unfold State.halt
  rw [if_neg (by simp [h]), if_pos k]

/-- A halt within an instruction waits for its end (R602). -/
theorem State.halt_later {s : State} {n : Nat} (h : s.coreState n = stRunning) (k : s.abandons n (s.core n).kwait = false)
    (hb : (s.core n).kwait = .none → (s.core n).kAt ≤ s.beatOf n) : s.halt n = s.setCore n { s.core n with haltReq := true } := by
  unfold State.halt
  rw [if_neg (by simp [h]), if_neg]
  rintro (h1 | ⟨h1, h2⟩)
  · simp [k] at h1
  · exact absurd (hb h1) (by omega)

theorem State.resume_eq {s : State} {n : Nat} (h : s.coreState n = stHalted) : s.resume n =
    ((s.setCore n { s.core n with kstep := false, kAt := max (s.core n).kAt (s.beatOf n + 1) }).put (Reg.CORE_STAT n) Fld.CORE_STAT.state
      stRunning).refresh n := by
  unfold State.resume
  exact if_neg (by simp [h])

theorem State.kstepOnce_eq {s : State} {n : Nat} (h : s.coreState n = stHalted) (k : (s.core n).kstep = false) : s.kstepOnce n =
    (s.setCore n { s.core n with kstep := true, kAt := max (s.core n).kAt (s.beatOf n + 1) }).refresh n := by
  unfold State.kstepOnce
  exact if_neg (by simp [h, k])

/-- Settles O24: by what CORE_CTRL makes of each command bit in each state of the core. -/
theorem coreControl : Obligations.CoreControl := by
  unfold Obligations.CoreControl
  intro core s he
  refine ⟨fun h => ?_, fun h => ?_, fun hd => ⟨fun h => ⟨fun hk => ?_, fun hk hb => ?_⟩, fun h => ⟨?_, fun hk => ?_⟩⟩, fun hd h c hc => ?_⟩
  · have hx : exec (.armCore core) s = .next (s.arm core) := by
      show Host.Outcome.next (s.writeCoreReg core 0 1).1 = _
      rw [State.writeCoreReg_ctrl he]
      simp only [State.writeCoreCtrl, h]
      rfl
    obtain ⟨h1, h2, h3⟩ := State.arm_stopped core he h
    exact Gives.intro hx ⟨h1, h2, (s.arm_changes core).only, h3⟩
  · have hx : exec (.disarmCore core) s = .next (s.unarm core) := by
      show Host.Outcome.next (s.writeCoreReg core 0 0).1 = _
      rw [State.writeCoreReg_ctrl he]
      simp only [State.writeCoreCtrl]
      rfl
    obtain ⟨h1, h2, h3⟩ := State.unarm_loaded core he h
    exact Gives.intro hx ⟨h1, h2, (s.unarm_changes core).only, h3⟩
  · have hx := exec_haltCore hd h he
    rw [State.halt_now h hk] at hx
    exact Gives.intro hx ⟨State.enterHalted_coreState core he, s.enterHalted_once core, s.enterHalted_halted core, s.enterHalted_core core,
      fun m hm => s.enterHalted_core_ne hm, s.enterHalted_holds core, s.enterHalted_coreShown core⟩
  · rw [exec_haltCore hd h he, State.halt_later h hk hb]
  · refine Gives.intro ((exec_resumeCore hd h he).trans (congrArg Host.Outcome.next (State.resume_eq h))) ⟨?_, ?_, fun m hm => ?_, ?_⟩
    · rw [State.coreState_refresh]
      exact State.coreState_put_state core he (by decide)
    · rw [State.core_refresh, State.core_put, State.core_setCore_same]
    · rw [State.core_refresh, State.core_put, State.core_setCore_ne _ _ hm]
    · exact ((SameRegs.ofRegs (State.setCore_regs _ _ _)).trans (State.put_step (.refl _ _) _ _ _ (by simp [coreShown]))).trans
        (State.refresh_sameRegs _ core)
  · have hs : (s.setCore core { s.core core with kstep := true, kAt := max (s.core core).kAt (s.beatOf core + 1) }).coreState core =
        stHalted := h
    refine Gives.intro ((exec_kstepCore hd h he).trans (congrArg Host.Outcome.next (State.kstepOnce_eq h hk))) ⟨?_, ?_, ?_, fun m hm => ?_, ?_⟩
    · rw [State.coreState_refresh, hs]
    · rw [State.refresh_keep_state, hs, State.core_setCore_same]
      rfl
    · rw [State.core_refresh, State.core_setCore_same]
    · rw [State.core_refresh, State.core_setCore_ne _ _ hm]
    · exact (SameRegs.ofRegs (State.setCore_regs _ _ _)).trans (State.refresh_sameRegs _ core)
  · exact ⟨exec_debugClosed hd h hc, (s.logCore_changes _ _ _ _ _).cores, s.logErr_regs _⟩

end Sys2Proof.Machine
end

section
/-! SUPPORT. The keeper's accesses to memory (R152, R190, R192, R194, R250): where they lead, what a store leaves of the bytes, and what a load
and a store retire with. -/

namespace Sys2Proof.Machine

/-! ### Bytes within a line -/

theorem testBit_byteMask (i n j : Nat) : (byteMask i n).testBit j = (decide (8 * i ≤ j) && decide (j < 8 * (i + n))) := by
  rw [byteMask, Nat.testBit_shiftLeft, Nat.testBit_two_pow_sub_one]
  by_cases h : 8 * i ≤ j
  · have : (j - 8 * i < 8 * n) ↔ (j < 8 * (i + n)) := by omega
    simp only [ge_iff_le, h, decide_true, Bool.true_and, this]
  · simp only [ge_iff_le, h, decide_false, Bool.false_and]

theorem byteMask_lt {i n : Nat} (h : i + n ≤ 32) : byteMask i n < 2 ^ 256 := by
  refine Nat.lt_pow_two_of_testBit _ fun j hj => ?_
  rw [testBit_byteMask, Bool.and_eq_false_iff]
  exact .inr (decide_eq_false (by omega))

/-- A byte is known by its bits. -/
theorem State.byte_eq {s : State} {x : Nat} {b : Byte} (h : ∀ j < 8, bitOf s (8 * x + j) = b.getLsbD j) : s.byte x = b := by
  refine BitVec.eq_of_getLsbD_eq fun j hj => ?_
  rw [← h j hj, bitOf, show (8 * x + j) / 8 = x by omega, show (8 * x + j) % 8 = j by omega]

theorem bitOf_byte (s : State) (x : Nat) {j : Nat} (hj : j < 8) : bitOf s (8 * x + j) = (s.byte x).getLsbD j := by
  rw [bitOf, show (8 * x + j) / 8 = x by omega, show (8 * x + j) % 8 = j by omega]

/-- A merge of bytes within a line leaves them there, and every other byte as it read. -/
theorem State.mergeLine_bytes {s : State} (h : s.wf = true) {a : Nat} {bs : List Byte} (hfit : a % 32 + bs.length ≤ 32) (p : Bool) :
    (∀ k < bs.length, (s.mergeLine (lineOf a) (byteMask (a % 32) bs.length) (leNat bs <<< (8 * (a % 32))) p).byte (a + k) = bs.getD k 0) ∧
    ∀ b, b < a ∨ a + bs.length ≤ b →
      (s.mergeLine (lineOf a) (byteMask (a % 32) bs.length) (leNat bs <<< (8 * (a % 32))) p).byte b = s.byte b := by
  have hl : lineOf a % 32 = 0 := by simp only [lineOf]; omega
  have ha : lineOf a + a % 32 = a := by simp only [lineOf]; omega
  have hbit := State.bitOf_mergeLine h hl (byteMask_lt hfit) (leNat bs <<< (8 * (a % 32))) p
  constructor
  · intro k hk
    refine State.byte_eq fun j hj => ?_
    have hin : 8 * lineOf a ≤ 8 * (a + k) + j ∧ 8 * (a + k) + j < 8 * lineOf a + 256 ∧
        (byteMask (a % 32) bs.length).testBit (8 * (a + k) + j - 8 * lineOf a) = true := by
      rw [testBit_byteMask, Bool.and_eq_true, decide_eq_true_eq, decide_eq_true_eq]
      omega
    rw [hbit, if_pos hin, Nat.testBit_shiftLeft, testBit_leNat, show 8 * (a + k) + j - 8 * lineOf a - 8 * (a % 32) = 8 * k + j by omega,
      show (8 * k + j) / 8 = k by omega, show (8 * k + j) % 8 = j by omega, decide_eq_true (by omega), Bool.true_and]
  · intro b hb
    refine State.byte_eq fun j hj => ?_
    rw [hbit, if_neg, bitOf_byte s b hj]
    rw [testBit_byteMask, Bool.and_eq_true, decide_eq_true_eq, decide_eq_true_eq]
    omega

/-! ### A store of bytes (R152) -/

/-- What a write of bytes within a line leaves: the bytes, where the line takes writes at once; else a write that waits for the end of the
beat. -/
structure Stores (n rank a : Nat) (bs : List Byte) (s t : State) : Prop where
  regs    : t.regs = s.regs
  marks   : t.marks = s.marks
  reaches : t.reaches = s.reaches
  die     : t.die = s.die
  core_ne : ∀ m, m ≠ n → t.core m = s.core m
  core    : t.core n = if s.defers (lineOf a) then
      { s.core n with later := (s.core n).later ++
        [⟨rank, lineOf a, byteMask (a % 32) bs.length, leNat bs <<< (8 * (a % 32)), false⟩] }
    else s.core n
  now     : s.defers (lineOf a) = false →
    (∀ k < bs.length, t.byte (a + k) = bs.getD k 0) ∧ ∀ b, b < a ∨ a + bs.length ≤ b → t.byte b = s.byte b
  wait    : s.defers (lineOf a) = true → SameBytes s t

theorem lineOf_div (a : Nat) : lineOf a / 0x4000000 = a / 0x4000000 := by
  simp only [lineOf]
  omega

theorem State.storeBytes_stores {s : State} (h : s.wf = true) {n rank a : Nat} {bs : List Byte} (hn : a / 0x4000000 = n)
    (hfit : a % 32 + bs.length ≤ 32) : Stores n rank a bs s (s.storeBytes rank a bs) := by
  subst hn
  unfold State.storeBytes State.lineWrite
  rw [lineOf_div]
  dsimp only
  cases hd : s.defers (lineOf a)
  · rw [if_neg (by decide)]
    have hc := s.mergeLine_changes (lineOf a) (byteMask (a % 32) bs.length) (leNat bs <<< (8 * (a % 32))) false
    exact ⟨hc.regs, hc.marks, hc.reaches, hc.die, fun m _ => State.core_congr hc.cores m, by rw [State.core_congr hc.cores]; simp [hd],
      fun _ => State.mergeLine_bytes h hfit false, fun k => by simp [hd] at k⟩
  · rw [if_pos rfl]
    exact ⟨rfl, rfl, rfl, rfl, fun m hm => State.core_setCore_ne _ _ hm, by rw [State.core_setCore_same, if_pos hd],
      fun k => by simp [hd] at k, fun _ _ => rfl⟩

namespace Stores

variable {n rank a : Nat} {bs : List Byte} {s t : State}

/-- A store leaves the keeper. -/
theorem sameKeeper (h : Stores n rank a bs s t) : SameKeeper n s t := by
  have hc := h.core
  refine ⟨?_, ?_, ?_, h.core_ne, h.reaches, State.reg_congr h.regs _, congrArg (smFind · _) h.marks⟩ <;> rw [hc] <;> split <;> rfl

theorem active (h : Stores n rank a bs s t) {m : Nat} (k : s.active m) : t.active m := by
  unfold State.active State.coreState State.enabled State.hasBit at k ⊢
  simpa only [State.get_congr h.regs] using k

end Stores

/-! ### Banks and ports -/

theorem State.takeNarrow_basin (s : State) (n : Nat) {a : Nat} (h : memKind a = .basin) : s.takeNarrow n a =
    s.setCore (a / 0x4000000) { s.core (a / 0x4000000) with banks := (s.core (a / 0x4000000)).banks ++ [bankOf (a % 0x4000000)] } := by
  unfold State.takeNarrow
  rw [h]
  exact if_pos h

theorem State.takeNarrow_ocache (s : State) (n : Nat) {a : Nat} (h : memKind a = .ocache) :
    s.takeNarrow n a = s.setCore n { s.core n with narrowAt := some (s.beatOf n) } := by
  unfold State.takeNarrow
  rw [h]

theorem State.takeNarrow_other (s : State) (n : Nat) {a : Nat} (h1 : memKind a ≠ .basin) (h2 : memKind a ≠ .ocache) :
    s.takeNarrow n a = s := by
  unfold State.takeNarrow
  split
  · exact absurd ‹_› h1
  · exact absurd ‹_› h2
  · rfl

/-- A narrow access takes a bank or the port of its core alone. -/
theorem State.takeNarrow_core (s : State) {n a : Nat} (hn : a / 0x4000000 = n) :
    (s.takeNarrow n a).core n = { s.core n with banks := ((s.takeNarrow n a).core n).banks
                                                narrowAt := ((s.takeNarrow n a).core n).narrowAt } ∧
    (∀ m, m ≠ n → (s.takeNarrow n a).core m = s.core m) := by
  subst hn
  by_cases h1 : memKind a = .basin
  · rw [s.takeNarrow_basin _ h1, State.core_setCore_same]
    exact ⟨rfl, fun m hm => State.core_setCore_ne _ _ hm⟩
  · by_cases h2 : memKind a = .ocache
    · rw [s.takeNarrow_ocache _ h2, State.core_setCore_same]
      exact ⟨rfl, fun m hm => State.core_setCore_ne _ _ hm⟩
    · rw [s.takeNarrow_other _ h1 h2]
      exact ⟨rfl, fun _ _ => rfl⟩

theorem State.takeNarrow_sameKeeper (s : State) {n a : Nat} (hn : a / 0x4000000 = n) : SameKeeper n s (s.takeNarrow n a) := by
  obtain ⟨hc, hne⟩ := s.takeNarrow_core hn
  have k := s.takeNarrow_changes n a
  exact ⟨by rw [hc], by rw [hc], by rw [hc], hne, k.reaches, State.reg_congr k.regs _, congrArg (smFind · _) k.marks⟩

/-- What the state of a core is read from. -/
theorem State.active_congr {s t : State} (h : t.regs = s.regs) {n : Nat} (k : s.active n) : t.active n := by
  unfold State.active State.coreState State.enabled State.hasBit at k ⊢
  simpa only [State.get_congr h] using k

theorem State.inBeat_congr {s t : State} (h : t.reaches = s.reaches) {n : Nat} (k : s.inBeat n = true) : t.inBeat n = true := by
  rw [State.inBeat, State.reach_congr h, ← State.inBeat]
  exact k

/-! ### Loads and stores -/

/-- A load retires with its bytes, or faults on an uncorrectable line (R192, R281). -/
theorem State.loadDone_eq (s : State) (n rd a f3 pc : Nat) : s.loadDone n rd a f3 pc =
    if (s.keeperLines n a (sizeOf3 f3)).2 then (s.keeperLines n a (sizeOf3 f3)).1.faultCore n (memKind a).ueCode
    else (s.keeperLines n a (sizeOf3 f3)).1.retire n rd (some (loadVal f3 (s.bytes a (sizeOf3 f3)))) pc := rfl

/-- What a store that retires leaves (R152, R192): `s` is the state with its bank or port taken. -/
theorem State.storeDone_retires {s : State} (hw : s.wf = true) (core : Fin 256) {a size : Nat} (v pc : Nat) (hn : a / 0x4000000 = core)
    (hfit : a % 32 + size ≤ 32) (hb : s.inBeat core = true)
    (hbad : ¬(lineStat (s.eccOf (lineOf a)) = .uncorrectable ∧ memKind a = .kdmem)) :
    ∃ w, Stores core 0 a (natLe size v) (s.noteStore a size (some core)) w ∧
      s.storeDone core a size v pc = w.retire core 0 none pc ∧
      Retired core 0 none pc (s.noteStore a size (some core)) (s.storeDone core a size v pc) ∧
      SameRegs (coreShown core) (s.noteStore a size (some core)) (s.storeDone core a size v pc) := by
  have hnote := s.noteStore_notes a size (some core)
  have hst : Stores core 0 a (natLe size v) (s.noteStore a size (some core)) ((s.noteStore a size (some core)).storeBytes 0 a (natLe size v)) :=
    State.storeBytes_stores (hnote.changes.wf hw) hn (by rw [length_natLe]; exact hfit)
  have he : s.storeDone core a size v pc = ((s.noteStore a size (some core)).storeBytes 0 a (natLe size v)).retire core 0 none pc :=
    if_neg (by simpa using hbad)
  refine ⟨_, hst, he, ?_, ?_⟩
  · rw [he]
    exact hst.sameKeeper.retired (State.inBeat_congr hnote.changes.reaches hb) (State.retire_retired _ core _ _ _)
  · rw [he]
    exact (SameRegs.ofRegs hst.regs).trans (State.retire_sameRegs _ _ _ _ _)

/-- A store over an uncorrectable line of data memory stops the keeper (R192). -/
theorem State.storeDone_faults {s : State} (hw : s.wf = true) (core : Fin 256) {a size : Nat} (v pc : Nat) (hn : a / 0x4000000 = core)
    (hfit : a % 32 + size ≤ 32) (hact : s.active core)
    (hbad : lineStat (s.eccOf (lineOf a)) = .uncorrectable ∧ memKind a = .kdmem) :
    Faulted core 0x2505 (s.noteStore a size (some core)) (s.storeDone core a size v pc) := by
  have hnote := s.noteStore_notes a size (some core)
  have hst : Stores core 0 a (natLe size v) (s.noteStore a size (some core)) ((s.noteStore a size (some core)).storeBytes 0 a (natLe size v)) :=
    State.storeBytes_stores (hnote.changes.wf hw) hn (by rw [length_natLe]; exact hfit)
  have he : s.storeDone core a size v pc = ((s.noteStore a size (some core)).storeBytes 0 a (natLe size v)).faultCore core 0x2505 :=
    if_pos (by simpa using hbad)
  rw [he]
  exact hst.sameKeeper.faulted (State.faultCore_faulted core _ (hst.active (hnote.active core.isLt hact)))

/-- The bytes and the waiting writes after a store that retires. -/
theorem Stores.retired {core : Fin 256} {a : Nat} {bs : List Byte} {s w : State} (h : Stores core 0 a bs s w) (pc : Nat) :
    (s.defers (lineOf a) = false → (∀ k < bs.length, (w.retire core 0 none pc).byte (a + k) = bs.getD k 0) ∧
      ∀ b, b < a ∨ a + bs.length ≤ b → (w.retire core 0 none pc).byte b = s.byte b) ∧
    (s.defers (lineOf a) = true → SameBytes s (w.retire core 0 none pc) ∧ ((w.retire core 0 none pc).core core).later =
      (s.core core).later ++ [⟨0, lineOf a, byteMask (a % 32) bs.length, leNat bs <<< (8 * (a % 32)), false⟩]) := by
  have hc := h.core
  refine ⟨fun hd => ?_, fun hd => ⟨fun b => (w.retire_byte _ _ _ _ _).trans (h.wait hd b), ?_⟩⟩
  · obtain ⟨h1, h2⟩ := h.now hd
    exact ⟨fun k hk => (w.retire_byte _ _ _ _ _).trans (h1 k hk), fun b hb => (w.retire_byte _ _ _ _ _).trans (h2 b hb)⟩
  · rw [hd, if_pos rfl] at hc
    rw [State.retire_core, hc]
    rfl

/-! ### Where keeper addresses lead (R190, R590, R591) -/

theorem memKind_core {n o : Nat} (hn : n < 256) (ho : o < 0x4000000) : memKind (coreBase n + o) = windowKind o := by
  have hlt : coreBase n + o < 0x400000000 := by
    simp only [coreBase]
    omega
  have hm : (coreBase n + o) % 0x4000000 = o := by
    simp only [coreBase]
    omega
  rw [memKind, if_pos hlt, hm]

theorem coreBase_div {n o : Nat} (ho : o < 0x4000000) : (coreBase n + o) / 0x4000000 = n := by
  simp only [coreBase]
  omega

theorem coreBase_mod32 (n o : Nat) : (coreBase n + o) % 32 = o % 32 := by
  simp only [coreBase]
  omega

/-- Instruction and data memory are no memory of banks or ports. -/
theorem State.takeNarrow_keeper (s : State) (m : Nat) {n a : Nat} (hn : n < 256) (ha : a < 0x10000) :
    s.takeNarrow m (imemAddr n a) = s ∧ s.takeNarrow m (dmemAddr n a) = s := by
  have hi : memKind (imemAddr n a) = .kimem := by
    rw [imemAddr, Nat.add_assoc, memKind_core hn (by omega), windowKind, if_neg (by omega), if_neg (by omega), if_pos (by omega)]
  have hd : memKind (dmemAddr n a) = .kdmem := by
    rw [dmemAddr, Nat.add_assoc, memKind_core hn (by omega), windowKind, if_neg (by omega), if_neg (by omega), if_neg (by omega),
      if_pos (by omega)]
  exact ⟨s.takeNarrow_other _ (by simp [hi]) (by simp [hi]), s.takeNarrow_other _ (by simp [hd]) (by simp [hd])⟩

/-- Where an access finds memory (R190): in the core, at an address with the same place within its line. -/
theorem kmem_place {n a d : Nat} (h : kmem n a = .imem d ∨ kmem n a = .dmem d ∨ kmem n a = .basin d ∨ kmem n a = .cache d) :
    d / 0x4000000 = n ∧ d % 32 = a % 32 := by
  unfold kmem imemAddr dmemAddr at h
  repeat' split at h
  all_goals simp only [KMem.imem.injEq, KMem.dmem.injEq, KMem.basin.injEq, KMem.cache.injEq, reduceCtorEq, or_false, false_or] at h
  all_goals
    subst h
    simp only [coreBase]
    omega

/-- A place of data or instruction memory takes no bank. -/
theorem kmem_takeNarrow (s : State) (core : Fin 256) {a d : Nat} (h : kmem core a = .imem d ∨ kmem core a = .dmem d) :
    s.takeNarrow core d = s := by
  unfold kmem at h
  repeat' split at h
  all_goals simp only [KMem.imem.injEq, KMem.dmem.injEq, reduceCtorEq, or_false, false_or] at h
  · subst h; exact (s.takeNarrow_keeper core core.isLt (by omega)).1
  · subst h; exact (s.takeNarrow_keeper core core.isLt (by omega)).2

theorem sizeOf3_cases (f3 : Nat) : sizeOf3 f3 = 1 ∨ sizeOf3 f3 = 2 ∨ sizeOf3 f3 = 4 ∨ sizeOf3 f3 = 8 := by
  have h : f3 % 4 < 4 := Nat.mod_lt _ (by decide)
  unfold sizeOf3
  interval_cases f3 % 4 <;> decide

/-- An aligned access lies within a line. -/
theorem aligned_fits {a d f3 : Nat} (h : a % sizeOf3 f3 = 0) (hd : d % 32 = a % 32) : d % 32 + sizeOf3 f3 ≤ 32 := by
  rcases sizeOf3_cases f3 with hs | hs | hs | hs <;> rw [hs] at h ⊢ <;> omega

theorem keeperPlace_kmem {u : State} {n a d cost : Nat} {store : Bool} (h : keeperPlace u n a store = some (d, cost)) :
    (store = false ∧ kmem n a = .imem d ∧ cost = u.lat 14) ∨ (kmem n a = .dmem d ∧ cost = u.lat 14) ∨
    ((kmem n a = .basin d ∨ kmem n a = .cache d) ∧ u.narrowFree n d = true ∧ cost = u.lat 16) := by
  unfold keeperPlace at h
  split at h <;> rename_i hk
  · split at h
    next hs => cases h
    next hs => cases h; exact .inl ⟨by simpa using hs, hk, rfl⟩
  · cases h; exact .inr (.inl ⟨hk, rfl⟩)
  · split at h
    next hf => cases h; exact .inr (.inr ⟨.inr hk, hf, rfl⟩)
    next hf => cases h
  · split at h
    next hf => cases h; exact .inr (.inr ⟨.inl hk, hf, rfl⟩)
    next hf => cases h
  · cases h

/-- A keeper's place lies in its core, with its address's place within the line. -/
theorem keeperPlace_place {u : State} {n a d cost : Nat} {store : Bool} (h : keeperPlace u n a store = some (d, cost)) :
    d / 0x4000000 = n ∧ d % 32 = a % 32 := by
  obtain ⟨-, hk, -⟩ | ⟨hk, -⟩ | ⟨hk | hk, -⟩ := keeperPlace_kmem h
  · exact kmem_place (.inl hk)
  · exact kmem_place (.inr (.inl hk))
  · exact kmem_place (.inr (.inr (.inl hk)))
  · exact kmem_place (.inr (.inr (.inr hk)))

end Sys2Proof.Machine
end

section
/-! SUPPORT. Loads and stores of the keeper (R190, R192 to R194, R250), with the obligation on them. -/

namespace Sys2Proof.Machine

/-! ### The commands -/

/-- A load that finds memory in its last beat takes its bank or port and loads (R190, R194, R250). -/
theorem exec_keeperLoad_place {core : Fin 256} {s : State} {i len d cost : Nat} (h : KeeperAt s core .load i len)
    (ha : ((s.fetch core).1.kx core (rs1Of i) + immI i).toNat % sizeOf3 (f3Of i) = 0)
    (hp : keeperPlace (s.fetch core).1 core ((s.fetch core).1.kx core (rs1Of i) + immI i).toNat false = some (d, cost))
    (h1 : (s.fetch core).1.kdue core 1 = true) (hc : (s.fetch core).1.kdue core cost = true) :
    exec (.keeperLoad core) s =
      .next (((s.fetch core).1.takeNarrow core d).loadDone core (rdOf i) d (f3Of i) (s.kpc core + len)) := by
  show Host.Outcome.next (s.onInstr core _ _) = _
  rw [h.onInstr (by rfl)]
  dsimp only
  rw [if_neg (by simp [h1]), if_neg (fun hne => hne ha)]
  obtain ⟨-, hk, rfl⟩ | ⟨hk, rfl⟩ | ⟨hk | hk, hf, rfl⟩ := keeperPlace_kmem hp
  · simp only [hk, hc, if_true, kmem_takeNarrow _ core (.inl hk)]
  · simp only [hk, hc, if_true, kmem_takeNarrow _ core (.inr hk)]
  · simp only [hk, hc, if_true, State.narrowTry, NarrowOp.next, hf, State.narrowStep]
  · simp only [hk, hc, if_true, State.narrowTry, NarrowOp.next, hf, State.narrowStep]

/-- A store that finds memory in its last beat takes its bank or port and stores (R190, R194, R250). -/
theorem exec_keeperStore_place {core : Fin 256} {s : State} {i len d cost : Nat} (h : KeeperAt s core .store i len)
    (ha : ((s.fetch core).1.kx core (rs1Of i) + immS i).toNat % sizeOf3 (f3Of i) = 0)
    (hp : keeperPlace (s.fetch core).1 core ((s.fetch core).1.kx core (rs1Of i) + immS i).toNat true = some (d, cost))
    (h1 : (s.fetch core).1.kdue core 1 = true) (hc : (s.fetch core).1.kdue core cost = true) :
    exec (.keeperStore core) s = .next (((s.fetch core).1.takeNarrow core d).storeDone core d (sizeOf3 (f3Of i))
      ((s.fetch core).1.kx core (rs2Of i)).toNat (s.kpc core + len)) := by
  show Host.Outcome.next (s.onInstr core _ _) = _
  rw [h.onInstr (by rfl)]
  dsimp only
  rw [if_neg (by simp [h1]), if_neg (fun hne => hne ha)]
  obtain ⟨hs, -, -⟩ | ⟨hk, rfl⟩ | ⟨hk | hk, hf, rfl⟩ := keeperPlace_kmem hp
  · cases hs
  · simp only [hk, hc, if_true, kmem_takeNarrow _ core (.inr hk)]
  · simp only [hk, hc, if_true, State.narrowTry, NarrowOp.next, hf, State.narrowStep]
  · simp only [hk, hc, if_true, State.narrowTry, NarrowOp.next, hf, State.narrowStep]

/-- A misaligned load, or one that leads nowhere, stops the keeper (R192). -/
theorem exec_keeperLoad_bad {core : Fin 256} {s : State} {i len : Nat} (h : KeeperAt s core .load i len)
    (h1 : (s.fetch core).1.kdue core 1 = true)
    (hbad : ((s.fetch core).1.kx core (rs1Of i) + immI i).toNat % sizeOf3 (f3Of i) ≠ 0 ∨
      kmem core ((s.fetch core).1.kx core (rs1Of i) + immI i).toNat = .nowhere ∨
      (∃ o, kmem core ((s.fetch core).1.kx core (rs1Of i) + immI i).toNat = .regs o) ∧ f3Of i ≠ 2) :
    exec (.keeperLoad core) s = .next ((s.fetch core).1.kstop core 0x3804) := by
  show Host.Outcome.next (s.onInstr core _ _) = _
  rw [h.onInstr (by rfl)]
  dsimp only
  rw [if_neg (by simp [h1])]
  split
  · rfl
  · next hal =>
    obtain hn | hk | ⟨⟨o, hk⟩, hf⟩ := hbad
    · exact absurd hn hal
    · simp only [hk]
    · simp only [hk, ne_eq, hf, not_false_eq_true, if_true]

/-- A misaligned store, or one that leads to instruction memory or nowhere, stops the keeper (R192). -/
theorem exec_keeperStore_bad {core : Fin 256} {s : State} {i len : Nat} (h : KeeperAt s core .store i len)
    (h1 : (s.fetch core).1.kdue core 1 = true)
    (hbad : ((s.fetch core).1.kx core (rs1Of i) + immS i).toNat % sizeOf3 (f3Of i) ≠ 0 ∨
      kmem core ((s.fetch core).1.kx core (rs1Of i) + immS i).toNat = .nowhere ∨
      (∃ d, kmem core ((s.fetch core).1.kx core (rs1Of i) + immS i).toNat = .imem d) ∨
      (∃ o, kmem core ((s.fetch core).1.kx core (rs1Of i) + immS i).toNat = .regs o) ∧ f3Of i ≠ 2) :
    exec (.keeperStore core) s = .next ((s.fetch core).1.kstop core 0x3804) := by
  show Host.Outcome.next (s.onInstr core _ _) = _
  rw [h.onInstr (by rfl)]
  dsimp only
  rw [if_neg (by simp [h1])]
  split
  · rfl
  · next hal =>
    obtain hn | hk | ⟨d, hk⟩ | ⟨⟨o, hk⟩, hf⟩ := hbad
    · exact absurd hn hal
    · simp only [hk]
    · simp only [hk]
    · simp only [hk, ne_eq, hf, not_false_eq_true, if_true]

/-! ### Core registers in halves (R193) -/

theorem kmem_regs (n : Nat) {o : Nat} (h : o < 0x1000) : kmem n (0x20000 + o) = .regs o := by
  rw [kmem, if_neg (by omega), if_neg (by omega), if_pos (by omega), Nat.add_sub_cancel_left]

/-- What the read of a half answers (R193). -/
def State.halfRead (s : State) (n o : Nat) : W32 :=
  if o % 8 = 0 then (s.readCoreReg n o).setWidth 32
  else match (s.core n).latch with
    | some (b, w) => ((if b = o - 4 then w else s.readCoreReg n (o - 4)) >>> 32).setWidth 32
    | none => ((s.readCoreReg n (o - 4)) >>> 32).setWidth 32

/-- The read of a half latches the register with its lower half, and empties the latch with its upper one. -/
theorem State.readHalf_eq (s : State) (n o : Nat) : s.readHalf n o =
    (s.setCore n { s.core n with latch := if o % 8 = 0 then some (o, s.readCoreReg n o) else none }, s.halfRead n o) := by
  unfold State.readHalf State.halfRead
  dsimp only
  by_cases h : o % 8 = 0
  · simp only [h, if_true]
  · simp only [h, if_false]
    cases (s.core n).latch <;> rfl

theorem exec_keeperLoad_half {core : Fin 256} {s : State} {i len o : Nat} (h : KeeperAt s core .load i len)
    (ha : ((s.fetch core).1.kx core (rs1Of i) + immI i).toNat = 0x20000 + o) (ho : o < 0x1000) (h4 : o % 4 = 0) (hf : f3Of i = 2)
    (h1 : (s.fetch core).1.kdue core 1 = true) (hc : (s.fetch core).1.kdue core ((s.fetch core).1.lat 15) = true) :
    exec (.keeperLoad core) s = .next (((s.fetch core).1.setCore core { (s.fetch core).1.core core with
      latch := if o % 8 = 0 then some (o, (s.fetch core).1.readCoreReg core o) else none }).retire core (rdOf i)
        (some ((s.fetch core).1.halfRead core o)) (s.kpc core + len)) := by
  show Host.Outcome.next (s.onInstr core _ _) = _
  rw [h.onInstr (by rfl)]
  dsimp only
  have hal : (0x20000 + o) % sizeOf3 2 = 0 := by
    show (0x20000 + o) % 4 = 0
    omega
  rw [if_neg (by simp [h1]), ha, hf, if_neg (fun hne => hne hal), kmem_regs core ho]
  simp only [ne_eq, not_true_eq_false, if_false, hc, if_true, State.readHalf_eq]

theorem exec_keeperStore_half {core : Fin 256} {s : State} {i len o : Nat} (h : KeeperAt s core .store i len)
    (ha : ((s.fetch core).1.kx core (rs1Of i) + immS i).toNat = 0x20000 + o) (ho : o < 0x1000) (h4 : o % 4 = 0) (hf : f3Of i = 2)
    (h1 : (s.fetch core).1.kdue core 1 = true) (hc : (s.fetch core).1.kdue core ((s.fetch core).1.lat 15) = true) :
    exec (.keeperStore core) s = .next (((s.fetch core).1.retire core 0 none (s.kpc core + len)).writeHalf core o
      ((s.fetch core).1.kx core (rs2Of i)).toNat) := by
  show Host.Outcome.next (s.onInstr core _ _) = _
  rw [h.onInstr (by rfl)]
  dsimp only
  have hal : (0x20000 + o) % sizeOf3 2 = 0 := by
    show (0x20000 + o) % 4 = 0
    omega
  rw [if_neg (by simp [h1]), ha, hf, if_neg (fun hne => hne hal), kmem_regs core ho]
  simp only [ne_eq, not_true_eq_false, if_false, hc, if_true]

/-- The write of an upper half waits in the buffer (R193). -/
theorem State.writeHalf_upper (s : State) {n o : Nat} (v : Nat) (h : o % 8 = 4) :
    s.writeHalf n o v = s.setCore n { s.core n with hbuf := some (o - 4, BitVec.ofNat 32 v) } := if_pos h

/-- The upper half of a register that a write of its lower half writes (R193). -/
def State.upperHalf (s : State) (n o : Nat) : W32 :=
  match (s.core n).hbuf with
  | some (b, x) => if b = o then x else ((s.reg (coreRegs n + o) &&& rwBits n o) >>> 32).setWidth 32
  | none => ((s.reg (coreRegs n + o) &&& rwBits n o) >>> 32).setWidth 32

theorem State.writeHalf_lower (s : State) {n o : Nat} (v : Nat) (h : o % 8 = 0) : s.writeHalf n o v =
    ((s.setCore n { s.core n with hbuf := none }).writeCoreReg n o (s.upperHalf n o ++ BitVec.ofNat 32 v)).1 := by
  unfold State.writeHalf State.upperHalf
  refine (if_neg (by omega)).trans ?_
  cases (s.core n).hbuf <;> rfl

/-- An instruction that retires once its core has changed elsewhere has retired. -/
theorem State.retire_setCore_retired {s : State} {core : Fin 256} {c : Core} (hx : c.x = (s.core core).x)
    (hi : c.instret = (s.core core).instret) (hh : c.haltReq = (s.core core).haltReq) (hb : s.inBeat core = true) (rd : Nat)
    (v : Option W32) (pc : Nat) : Retired core rd v pc s ((s.setCore core c).retire core rd v pc) :=
  (SameKeeper.setCore _ s hx hi hh).retired hb (State.retire_retired _ core _ _ _)

/-- A change of the halves alone leaves an instruction that has retired. -/
theorem Retired.setHalf {core : Fin 256} {rd pc : Nat} {v : Option W32} {u t : State} (h : Retired core rd v pc u t)
    (b : Option (Nat × W32)) : Retired core rd v pc u (t.setCore core { t.core core with hbuf := b }) := by
  obtain ⟨hx, hp, hi, ha, hw, hq, hh, hm⟩ := h
  refine ⟨?_, hp, ?_, ?_, ?_, ?_, hh, fun m hne => (State.core_setCore_ne _ _ hne).trans (hm m hne)⟩ <;>
    rw [State.core_setCore_same] <;> assumption

/-! ### The obligation -/

theorem keeperLoad_memory {core : Fin 256} {s : State} {i len d cost : Nat} (h : KeeperAt s core .load i len)
    (ha : ((s.fetch core).1.kx core (rs1Of i) + immI i).toNat % sizeOf3 (f3Of i) = 0)
    (hp : keeperPlace (s.fetch core).1 core ((s.fetch core).1.kx core (rs1Of i) + immI i).toNat false = some (d, cost))
    (h1 : (s.fetch core).1.kdue core 1 = true) (hc : (s.fetch core).1.kdue core cost = true) :
    let w := ((s.fetch core).1.takeNarrow core d).keeperLines core d (sizeOf3 (f3Of i))
    (w.2 = false → Gives (.keeperLoad core) s fun t => Retired core (rdOf i) (some (loadVal (f3Of i) ((s.fetch core).1.bytes d (sizeOf3 (f3Of i)))))
      (s.kpc core + len) w.1 t ∧ SameRegs (coreShown core) w.1 t) ∧
    (w.2 = true → Gives (.keeperLoad core) s fun t => Faulted core (memKind d).ueCode w.1 t) := by
  intro w
  have hk := (s.fetch core).1.takeNarrow_changes core d
  have hbytes : ((s.fetch core).1.takeNarrow core d).bytes d (sizeOf3 (f3Of i)) = (s.fetch core).1.bytes d (sizeOf3 (f3Of i)) :=
    State.bytes_congr hk.mem hk.ecc _ _
  have he := exec_keeperLoad_place h ha hp h1 hc
  rw [State.loadDone_eq, hbytes] at he
  refine ⟨fun hw => ?_, fun hw => ?_⟩
  · rw [if_neg (by simpa [w] using hw)] at he
    exact Gives.intro he ⟨State.retire_retired _ core _ _ _, State.retire_sameRegs _ _ _ _ _⟩
  · rw [if_pos hw] at he
    have hact : w.1.active core :=
      (State.keeperLines_notes _ _ _ _).active core.isLt (State.active_congr hk.regs h.active)
    exact Gives.intro he (State.faultCore_faulted core _ hact)

theorem keeperStore_memory {core : Fin 256} {s : State} {i len d cost : Nat} (h : KeeperAt s core .store i len) (hwf : s.wf = true)
    (ha : ((s.fetch core).1.kx core (rs1Of i) + immS i).toNat % sizeOf3 (f3Of i) = 0)
    (hp : keeperPlace (s.fetch core).1 core ((s.fetch core).1.kx core (rs1Of i) + immS i).toNat true = some (d, cost))
    (h1 : (s.fetch core).1.kdue core 1 = true) (hc : (s.fetch core).1.kdue core cost = true) :
    let u := (s.fetch core).1
    let size := sizeOf3 (f3Of i)
    let bytes := natLe size (u.kx core (rs2Of i)).toNat
    let w := (u.takeNarrow core d).noteStore d size (some core)
    let bad := lineStat (u.eccOf (lineOf d)) = .uncorrectable ∧ memKind d = .kdmem
    (¬ bad → Gives (.keeperStore core) s fun t =>
      Retired core 0 none (s.kpc core + len) w t ∧ SameRegs (coreShown core) w t ∧
      (u.defers (lineOf d) = false → (∀ k < size, t.byte (d + k) = bytes.getD k 0) ∧ ∀ b, b < d ∨ d + size ≤ b → t.byte b = s.byte b) ∧
      (u.defers (lineOf d) = true → SameBytes s t ∧ (t.core core).later = (u.core core).later ++
        [⟨0, lineOf d, byteMask (d % 32) size, leNat bytes <<< (8 * (d % 32)), false⟩])) ∧
    (bad → Gives (.keeperStore core) s fun t => Faulted core 0x2505 w t) := by
  intro u size bytes w bad
  obtain ⟨hdiv, hmod⟩ := keeperPlace_place hp
  have hfit : d % 32 + size ≤ 32 := aligned_fits ha hmod
  have hk := u.takeNarrow_changes core d
  have hwt : (u.takeNarrow core d).wf = true := hk.wf ((s.fetch_changes core).wf hwf)
  have hecc : (u.takeNarrow core d).eccOf (lineOf d) = u.eccOf (lineOf d) := by rw [State.eccOf, hk.ecc, State.eccOf]
  have he := exec_keeperStore_place h ha hp h1 hc
  have hnote : Notes (u.takeNarrow core d) w := State.noteStore_notes _ _ _ _
  have hdef : w.defers (lineOf d) = u.defers (lineOf d) := State.defers_congr (hnote.changes.reaches.trans hk.reaches) _
  have hbyte (b : Nat) : w.byte b = s.byte b :=
    (hnote.byte b).trans ((State.byte_congr hk.mem hk.ecc b).trans ((s.fetch_notes core).byte b))
  refine ⟨fun hb => ?_, fun hb => ?_⟩
  · obtain ⟨x, hst, hx, hret, hreg⟩ := State.storeDone_retires hwt core (u.kx core (rs2Of i)).toNat (s.kpc core + len) hdiv hfit
      (State.inBeat_congr hk.reaches h.inBeat) (by rw [hecc]; exact hb)
    obtain ⟨hnow, hwait⟩ := hst.retired (s.kpc core + len)
    rw [← hx, length_natLe] at hnow hwait
    have hl : (w.core core).later = (u.core core).later := by
      rw [hnote.core, (u.takeNarrow_core hdiv).1]
    refine Gives.intro he ⟨hret, hreg, fun hd => ?_, fun hd => ?_⟩
    · obtain ⟨hin, hout⟩ := hnow (hdef.trans hd)
      exact ⟨hin, fun b hb => (hout b hb).trans (hbyte b)⟩
    · obtain ⟨hs, hlat⟩ := hwait (hdef.trans hd)
      exact ⟨fun b => (hs b).trans (hbyte b), hlat.trans (by rw [hl])⟩
  · exact Gives.intro he (State.storeDone_faults hwt core _ _ hdiv hfit (State.active_congr hk.regs h.active) (by rw [hecc]; exact hb))

/-- Settles O16: by where the address leads, with one rule for a load, one for a store, and the halves of R193. -/
theorem keeperMemory : Obligations.KeeperMemory := by
  unfold Obligations.KeeperMemory
  refine ⟨fun core s i len hk => ⟨fun d cost ha hp h1 hc => keeperLoad_memory hk ha hp h1 hc, fun h1 hbad => ?_⟩,
    fun core s i len hk => ⟨fun d cost hw ha hp h1 hc => keeperStore_memory hk hw ha hp h1 hc, fun h1 hbad => ?_⟩,
    fun core s i len o => ⟨fun hk ha ho h4 hf h1 hc => ?_, fun hk ha ho h8 hf h1 hc => ?_, fun hk ha ho h8 hf h1 hc => ?_,
      fun h1 ho => ⟨fun hk ha hal hf => ?_, fun hk ha hal hf => ?_⟩⟩⟩
  · exact Gives.intro (exec_keeperLoad_bad hk h1 (hbad.imp_right .inl)) (hk.kstop_faulted _)
  · exact Gives.intro (exec_keeperStore_bad hk h1 (hbad.imp_right (Or.imp_right .inl))) (hk.kstop_faulted _)
  · refine Gives.intro (exec_keeperLoad_half hk ha ho h4 hf h1 hc) ?_
    show Retired core (rdOf i) (some ((s.fetch core).1.halfRead core o)) _ _ _ ∧ _
    refine ⟨State.retire_setCore_retired (by rfl) (by rfl) (by rfl) hk.inBeat _ _ _, ?_⟩
    rw [State.retire_core, State.core_setCore_same]
    rfl
  · have he := exec_keeperStore_half hk ha ho (by omega) hf h1 hc
    rw [State.writeHalf_upper _ _ h8, BitVec.ofNat_toNat, BitVec.setWidth_eq] at he
    refine Gives.intro he ⟨(State.retire_retired _ core _ _ _).setHalf _,
      (State.retire_sameRegs _ _ _ _ _).trans (.ofRegs (State.setCore_regs _ _ _)), ?_⟩
    rw [State.core_setCore_same]
  · have he := exec_keeperStore_half hk ha ho (by omega) hf h1 hc
    rw [State.writeHalf_lower _ _ h8, BitVec.ofNat_toNat, BitVec.setWidth_eq, State.upperHalf] at he
    have hb : (((s.fetch core).1.retire core 0 none (s.kpc core + len)).core core).hbuf = ((s.fetch core).1.core core).hbuf := by
      rw [State.retire_core]
      rfl
    rw [hb] at he
    exact he
  · exact Gives.intro (exec_keeperLoad_bad hk h1 (.inr (.inr ⟨⟨o, ha ▸ kmem_regs core ho⟩, hf⟩))) (hk.kstop_faulted _)
  · exact Gives.intro (exec_keeperStore_bad hk h1 (.inr (.inr (.inr ⟨⟨o, ha ▸ kmem_regs core ho⟩, hf⟩)))) (hk.kstop_faulted _)

end Sys2Proof.Machine
end

section
/-! SUPPORT. Queue entries of the keeper (R184 to R188, R197): pushes, counts and pops, with the obligation on them. -/

namespace Sys2Proof.Machine

/-! ### Pushes and pops leave the keeper -/

theorem State.pushNow_sameKeeper (s : State) (n q : Nat) (e : List Byte) (beat : Nat) : SameKeeper n s (s.pushNow n q e beat) :=
  SameKeeper.trans (SameKeeper.setCore n s (by rfl) (by rfl) (by rfl)) (State.refresh_sameKeeper _ n)

theorem State.push_sameKeeper (s : State) (n q : Nat) (e : List Byte) : SameKeeper n s (s.push n q e) := by
  unfold State.push
  extract_lets c b
  split
  · exact s.pushNow_sameKeeper n q e b
  · exact SameKeeper.setCore n s (by rfl) (by rfl) (by rfl)

/-- What holds of a push and of a change of the waiting pushes, and goes on from step to step, holds of the pushes that waited. -/
theorem State.latePushes_rel {P : State → State → Prop} {n : Nat} (hr : ∀ s, P s s) (ht : ∀ s t u, P s t → P t u → P s u)
    (hp : ∀ s q e b, P s (s.pushNow n q e b)) (hz : ∀ s z, P s (s.setCore n { s.core n with qlate := z })) (s : State) :
    P s (s.latePushes n false) := by
  unfold State.latePushes
  extract_lets c t
  have h : P s t := by
    simp only [t]
    split
    · exact hr s
    · exact hz s _
  generalize c.qlate = L
  revert h
  generalize t = v
  intro hv
  induction L generalizing v with
  | nil => exact hv
  | cons x L ih =>
    refine ih _ (ht _ _ _ hv ?_)
    dsimp only
    split
    · exact hp v _ _ _
    · exact hz v _

theorem State.latePushes_sameKeeper (s : State) (n : Nat) : SameKeeper n s (s.latePushes n false) :=
  State.latePushes_rel (.refl n) (fun _ _ _ h k => h.trans k) (fun s q e b => s.pushNow_sameKeeper n q e b)
    (fun s _ => SameKeeper.setCore n s (by rfl) (by rfl) (by rfl)) s

theorem State.pop_sameKeeper (s : State) (n q : Nat) : SameKeeper n s (s.pop n q) :=
  ((SameKeeper.setCore n s (by rfl) (by rfl) (by rfl)).trans (State.refresh_sameKeeper _ n)).trans (State.latePushes_sameKeeper _ n)

theorem State.latePushes_none {s : State} {n : Nat} (h : (s.core n).qlate = []) (ended : Bool) : s.latePushes n ended = s := by
  unfold State.latePushes
  simp only [h, List.isEmpty_nil, if_true, List.foldl_nil]

/-- Where no push waits for it, a pop takes the head off its queue and does nothing else (R187). -/
theorem State.pop_eq {s : State} {n q : Nat} (h : (s.core n).qlate = []) : s.pop n q =
    (s.setCore n { s.core n with queues := (s.core n).queues.set q (((s.core n).queues.getD q []).drop 1) }).refresh n := by
  unfold State.pop
  exact State.latePushes_none (by rw [State.core_refresh, State.core_setCore_same]; exact h) false

theorem State.pop_queues {s : State} {n q : Nat} (h : (s.core n).qlate = []) :
    ((s.pop n q).core n).queues = (s.core n).queues.set q (((s.core n).queues.getD q []).drop 1) := by
  rw [State.pop_eq h, State.core_refresh, State.core_setCore_same]

/-- A push into a queue with room (R185, R187). -/
theorem State.push_queues {s : State} {n q : Nat} {e : List Byte} (h : ((s.core n).queues.getD q []).length < 16) :
    ((s.push n q e).core n).queues = (s.core n).queues.set q ((s.core n).queues.getD q [] ++
      [⟨s.beatOf n, stampEntry e (s.beatOf n) ((s.core n).qseq.getD q 0)⟩]) := by
  unfold State.push State.pushNow
  rw [if_pos h, State.core_refresh, State.core_setCore_same]

theorem State.retire_queues (s : State) (n rd : Nat) (v : Option W32) (pc : Nat) :
    ((s.retire n rd v pc).core n).queues = (s.core n).queues := by
  rw [State.retire_core]
  rfl

/-! ### Data memory -/

/-- 64 B of data memory: aligned, in their core, in lines that no beat defers (R152, R197). -/
theorem six4_dmem {core : Fin 256} {a d : Nat} (h : six4 core a = .dmem d) :
    d % 64 = 0 ∧ d / 0x4000000 = core ∧ memKind (lineOf d) = .kdmem ∧ memKind (lineOf (d + 32)) = .kdmem := by
  unfold six4 at h
  split at h
  · cases h
  · next hal =>
    split at h
    next x hk =>
      cases h
      unfold kmem at hk
      split at hk
      · cases hk
      · split at hk
        · next h1 h2 =>
          rw [KMem.dmem.injEq] at hk
          subst hk
          have kind {y : Nat} (hy : y < 0x10000) : memKind (coreBase core + (0x690000 + y)) = .kdmem := by
            rw [memKind_core core.isLt (by omega), windowKind, if_neg (by omega), if_neg (by omega), if_neg (by omega), if_pos (by omega)]
          have hl (y : Nat) (hy : y % 32 = 0) : lineOf (coreBase core + (0x690000 + y)) = coreBase core + (0x690000 + y) := by
            simp only [lineOf, coreBase]
            omega
          have hd : dmemAddr core (a - 0x10000) = coreBase core + (0x690000 + (a - 0x10000)) := Nat.add_assoc _ _ _
          rw [hd, show coreBase core + (0x690000 + (a - 0x10000)) + 32 = coreBase core + (0x690000 + (a - 0x10000 + 32)) by omega,
            hl _ (by omega), hl _ (by omega), kind (by omega), kind (by omega)]
          refine ⟨?_, coreBase_div (by omega), rfl, rfl⟩
          simp only [coreBase]
          omega
        · repeat' split at hk
          all_goals cases hk
    all_goals cases h

theorem State.defers_kdmem (s : State) {la : Nat} (h : memKind la = .kdmem) : s.defers la = false := by
  rw [State.defers, h]
  rfl

/-! ### A pop into data memory -/

/-- The two halves of an entry. -/
theorem getD_take {α : Type} (l : List α) (d : α) {k m : Nat} (h : k < m) : (l.take m).getD k d = l.getD k d := by
  simp only [List.getD_eq_getElem?_getD, List.getElem?_take, h, if_true]

theorem getD_drop {α : Type} (l : List α) (d : α) (k m : Nat) : (l.drop m).getD k d = l.getD (m + k) d := by
  simp only [List.getD_eq_getElem?_getD, List.getElem?_drop]

/-- What a store of 64 B in two halves leaves, where no line waits for the beat's end. -/
theorem State.storeHalves {s : State} (hw : s.wf = true) {n a : Nat} {bs : List Byte} (hlen : bs.length = 64) (ha : a % 64 = 0)
    (hn : a / 0x4000000 = n) (h1 : s.defers (lineOf a) = false) (h2 : s.defers (lineOf (a + 32)) = false) :
    let t := (s.storeBytes 0 a (bs.take 32)).storeBytes 0 (a + 32) (bs.drop 32)
    SameKeeper n s t ∧ t.core n = s.core n ∧ t.regs = s.regs ∧
    (∀ k < 64, t.byte (a + k) = bs.getD k 0) ∧ ∀ b, b < a ∨ a + 64 ≤ b → t.byte b = s.byte b := by
  have l1 : (bs.take 32).length = 32 := by rw [List.length_take, hlen]; rfl
  have l2 : (bs.drop 32).length = 32 := by rw [List.length_drop, hlen]
  have s1 : Stores n 0 a (bs.take 32) s (s.storeBytes 0 a (bs.take 32)) := State.storeBytes_stores hw hn (by omega)
  have hc := s.storeBytes_changes 0 a (bs.take 32)
  have hd : (s.storeBytes 0 a (bs.take 32)).defers (lineOf (a + 32)) = false := (State.defers_congr hc.reaches _).trans h2
  have s2 : Stores n 0 (a + 32) (bs.drop 32) (s.storeBytes 0 a (bs.take 32))
      ((s.storeBytes 0 a (bs.take 32)).storeBytes 0 (a + 32) (bs.drop 32)) :=
    State.storeBytes_stores (hc.wf hw) (by omega) (by omega)
  obtain ⟨in1, out1⟩ := s1.now h1
  obtain ⟨in2, out2⟩ := s2.now hd
  rw [l1] at in1 out1
  rw [l2] at in2 out2
  refine ⟨s1.sameKeeper.trans s2.sameKeeper, ?_, s2.regs.trans s1.regs, fun k hk => ?_, fun b hb => ?_⟩
  · have c1 := s1.core
    have c2 := s2.core
    rw [h1, if_neg (by decide)] at c1
    rw [hd, if_neg (by decide)] at c2
    exact c2.trans c1
  · by_cases h : k < 32
    · rw [out2 _ (by omega), in1 k h, getD_take _ _ h]
    · have hi := in2 (k - 32) (by omega)
      rw [getD_drop, show 32 + (k - 32) = k by omega, show a + 32 + (k - 32) = a + k by omega] at hi
      exact hi
  · rw [out2 _ (by omega), out1 _ (by omega)]

/-- The entry that a pop takes is the head, where it was there before the beat (R187). -/
theorem State.poppable_eq {s : State} {n q : Nat} {e : QEntry} {rest : List QEntry} (h : (s.core n).queues.getD q [] = e :: rest)
    (hb : e.beat < s.beatOf n) : s.poppable n q = some e := by
  unfold State.poppable
  rw [h]
  exact if_pos hb

/-- The keeper pops an entry into data memory: its seq is the result, and the rest of the queue stands. -/
theorem State.popDone_pops {s : State} (hw : s.wf = true) (core : Fin 256) {q a rd pc x : Nat} {e : QEntry} {rest : List QEntry}
    (hb : s.inBeat core = true) (hq : (s.core core).queues.getD q [] = e :: rest) (he : e.beat < s.beatOf core)
    (hlen : e.bytes.length = 64) (hl : (s.core core).qlate = []) (h8 : (s.core core).queues.length = 8) (hq8 : q < 8)
    (h6 : six4 core x = .dmem a) :
    Retired core rd (some (BitVec.ofNat 32 (leNat ((e.bytes.drop 18).take 2)))) pc s (s.popDone core q rd pc (.dmem a)) ∧
    ((s.popDone core q rd pc (.dmem a)).core core).queues.getD q [] = rest ∧
    (∀ k < 64, (s.popDone core q rd pc (.dmem a)).byte (a + k) = e.bytes.getD k 0) ∧
    ∀ b, b < a ∨ a + 64 ≤ b → (s.popDone core q rd pc (.dmem a)).byte b = s.byte b := by
  obtain ⟨hal, hdiv, hk1, hk2⟩ := six4_dmem h6
  have hc := s.pop_changes core q
  obtain ⟨hsame, hcore, -, hin, hout⟩ := State.storeHalves (hc.wf hw) hlen hal hdiv (State.defers_kdmem _ hk1) (State.defers_kdmem _ hk2)
  have hx : s.popDone core q rd pc (.dmem a) =
      (((s.pop core q).storeBytes 0 a (e.bytes.take 32)).storeBytes 0 (a + 32) (e.bytes.drop 32)).retire core rd
        (some (BitVec.ofNat 32 (leNat ((e.bytes.drop 18).take 2)))) pc := by
    unfold State.popDone
    rw [State.poppable_eq hq he]
  rw [hx]
  refine ⟨((s.pop_sameKeeper core q).trans hsame).retired hb (State.retire_retired _ core _ _ _), ?_, fun k hk => ?_, fun b hb => ?_⟩
  · have hset : ((s.pop core q).core core).queues.getD q [] = rest := by
      rw [State.pop_queues hl, hq, List.getD_eq_getElem?_getD, List.getElem?_set_self (by omega)]
      rfl
    rw [State.retire_queues, hcore, hset]
  · exact (State.retire_byte _ _ _ _ _ _).trans (hin k hk)
  · exact (State.retire_byte _ _ _ _ _ _).trans ((hout b hb).trans (State.byte_congr hc.mem hc.ecc b))

/-! ### The commands -/

/-- A queue misuse of the keeper puts its core in FAULT (R188). -/
theorem State.keeperMisuse_faulted {s : State} (core : Fin 256) (q code : Nat) (h : s.active core) :
    Faulted core code s (s.keeperMisuse core q code) :=
  have hn := s.queueErr_notes core q code none
  (hn.sameKeeper core).faulted (State.faultCore_faulted core code (hn.active core.isLt h))

theorem exec_qpush {core : Fin 256} {s : State} {i len a : Nat} (h : CustomAt s core .qpush i len)
    (h6 : six4 core ((s.fetch core).1.kx core (rs1Of i)).toNat = .dmem a) (hp : (s.fetch core).1.produces core (f7Of i % 8) 0 = true)
    (hdue : (s.fetch core).1.kdue core ((s.fetch core).1.lat 18) = true) (hl : ((s.fetch core).1.keeperLines core a 64).2 = false) :
    exec (.qpush core) s = .next (((s.fetch core).1.keeperLines core a 64).1.pushDone core (f7Of i % 8) (s.kpc core + len)
      ((s.fetch core).1.bytes a 64)) := by
  show Host.Outcome.next (s.onCustom core .qpush _) = _
  rw [h.onCustom]
  simp only [h6, hp, hdue, Bool.not_true, Bool.false_eq_true, if_false]
  rw [State.keeperLines_eq hl]

theorem exec_qpush_misuse {core : Fin 256} {s : State} {i len a : Nat} (h : CustomAt s core .qpush i len)
    (h6 : six4 core ((s.fetch core).1.kx core (rs1Of i)).toNat = .dmem a) (hp : (s.fetch core).1.produces core (f7Of i % 8) 0 = false) :
    exec (.qpush core) s = .next ((s.fetch core).1.keeperMisuse core (f7Of i % 8) 0x3803) := by
  show Host.Outcome.next (s.onCustom core .qpush _) = _
  rw [h.onCustom]
  simp only [h6, hp, Bool.not_false, if_true]

theorem exec_qcount {core : Fin 256} {s : State} {i len : Nat} (h : CustomAt s core .qcount i len)
    (h1 : (s.fetch core).1.queueCfg core (f7Of i % 8) % 4 ≠ 3) (h2 : (s.fetch core).1.queueCfg core (f7Of i % 8) / 4 ≠ 3) :
    exec (.qcount core) s = .next ((s.fetch core).1.retire core (rdOf i) (some (BitVec.ofNat 32
      ((((s.fetch core).1.core core).queues.getD (f7Of i % 8) []).filter fun e =>
        decide (e.beat < (s.fetch core).1.beatOf core)).length)) (s.kpc core + len)) := by
  show Host.Outcome.next (s.onCustom core .qcount _) = _
  rw [h.onCustom]
  simp only [h1, h2, or_self, if_false]

theorem exec_qtake {core : Fin 256} {s : State} {i len a : Nat} (h : CustomAt s core .qtake i len)
    (h6 : six4 core ((s.fetch core).1.kx core (rs1Of i)).toNat = .dmem a) (hp : (s.fetch core).1.consumes core (f7Of i % 8) 0 = true)
    (hdue : (s.fetch core).1.kdue core ((s.fetch core).1.lat 18) = true) :
    exec (.qtake core) s = .next (if ((s.fetch core).1.poppable core (f7Of i % 8)).isNone
      then (s.fetch core).1.keeperMisuse core (f7Of i % 8) 0x3802
      else (s.fetch core).1.popDone core (f7Of i % 8) (rdOf i) (s.kpc core + len) (.dmem a)) := by
  show Host.Outcome.next (s.onCustom core .qtake _) = _
  rw [h.onCustom]
  simp only [h6, hp, hdue, Bool.not_true, Bool.false_eq_true, if_false]

theorem exec_qwait {core : Fin 256} {s : State} {i len : Nat} (h : CustomAt s core .qwait i len)
    (h6 : six4 core ((s.fetch core).1.kx core (rs1Of i)).toNat ≠ .bad) (hp : (s.fetch core).1.consumes core (f7Of i % 8) 0 = true) :
    exec (.qwait core) s = .next ((s.fetch core).1.stall core
      (.qwait (f7Of i % 8) (rdOf i) ((s.fetch core).1.kx core (rs1Of i)).toNat)) := by
  show Host.Outcome.next (s.onCustom core .qwait _) = _
  rw [h.onCustom]
  cases h6' : six4 core ((s.fetch core).1.kx core (rs1Of i)).toNat with
  | bad => exact absurd h6' h6
  | dmem a => simp only [h6', hp, Bool.not_true, Bool.false_eq_true, if_false]
  | basin a => simp only [h6', hp, Bool.not_true, Bool.false_eq_true, if_false]

theorem exec_qwaitComplete {core : Fin 256} {s : State} {q rd a d : Nat} {e : QEntry} (hw : (s.core core).kwait = .qwait q rd a)
    (hb : s.inBeat core = true) (h6 : six4 core a = .dmem d) (hp : s.poppable core q = some e)
    (hdue : max (s.core core).kAt (e.beat + 1) + s.lat 18 ≤ s.beatOf core + 1) :
    exec (.qwaitComplete core) s = .next (s.popDone core q rd (s.pcAfter core) (.dmem d)) := by
  show execQwaitComplete core s = _
  simp only [execQwaitComplete, hw, hb, hp, h6, Nat.not_lt.mpr hdue, Bool.not_true, Bool.false_eq_true, if_false]

/-- Settles O18: a push is what `push` makes of the queue, a pop what `popDone` leaves; both leave the keeper to retire. -/
theorem keeperQueues : Obligations.KeeperQueues := by
  unfold Obligations.KeeperQueues
  refine ⟨fun core s i len => ⟨fun hk a h6 => ⟨fun hp hdue hl h8 hroom => ?_, fun hp => ?_⟩, fun hk h1 h2 => ?_⟩,
    fun core s => ⟨fun i len a hk h6 hp hdue => ⟨fun e rest hw hq he hlen hl h8 => ?_, fun hno => ?_⟩,
      fun i len hk h6 hp hh => ?_, fun q rd a d e rest hkw hb h6 hq8 hq he hdue hw hlen hl h8 => ?_⟩⟩
  · have hn := (s.fetch core).1.keeperLines_notes core a 64
    have hb := State.inBeat_congr hn.changes.reaches hk.1.inBeat
    refine Gives.intro (exec_qpush hk h6 hp hdue hl) ⟨?_, ?_⟩
    · exact (State.push_sameKeeper _ core _ _).retired hb (State.retire_retired _ core _ _ _)
    · rw [State.pushDone, State.retire_queues, State.push_queues (by rw [hn.core]; exact hroom), hn.core, hn.beatOf]
  · exact Gives.intro (exec_qpush_misuse hk h6 hp) (KeeperAt.faulted (State.keeperMisuse_faulted core _ _ hk.1.active))
  · exact Gives.intro (exec_qcount hk h1 h2) ⟨State.retire_retired _ core _ _ _, State.retire_sameRegs _ _ _ _ _⟩
  · have hn := s.fetch_notes core
    have hq' := (congrArg (fun c : Core => c.queues.getD (f7Of i % 8) []) (hn.core core)).trans hq
    have he' : e.beat < (s.fetch core).1.beatOf core := by rw [hn.beatOf]; exact he
    obtain ⟨hret, hrest, hin, hout⟩ := State.popDone_pops (rd := rdOf i) (pc := s.kpc core + len) (hn.changes.wf hw) core hk.1.inBeat hq' he'
      hlen (by rw [hn.core]; exact hl) (by rw [hn.core]; exact h8) (Nat.mod_lt _ (by decide)) h6
    refine Gives.intro (exec_qtake hk h6 hp hdue) ?_
    rw [if_neg (by rw [State.poppable_eq hq' he']; exact Bool.false_ne_true)]
    exact ⟨(hn.sameKeeper core).retired (State.keeperRuns_inBeat hk.runs) hret, hrest, hin, fun b hb => (hout b hb).trans (hn.byte b)⟩
  · have hn := s.fetch_notes core
    have hno' : (s.fetch core).1.poppable core (f7Of i % 8) = none := by
      rw [← hno]
      simp only [State.poppable, hn.core, hn.beatOf]
    refine Gives.intro (exec_qtake hk h6 hp hdue) ?_
    rw [if_pos (by rw [hno']; rfl)]
    exact KeeperAt.faulted (State.keeperMisuse_faulted core _ _ hk.1.active)
  · have hn := s.fetch_notes core
    have hh' : ((s.fetch core).1.core core).haltReq = false := by rw [hn.core]; exact hh
    refine Gives.intro (exec_qwait hk h6 hp) ⟨?_, fun m hm => ?_⟩
    · rw [State.stall_core _ hh', hn.core]
    · rw [State.stall_core_ne _ hh' hm, hn.core]
  · exact Gives.intro (exec_qwaitComplete hkw hb h6 (State.poppable_eq hq he) hdue)
      (State.popDone_pops hw core hb hq he hlen hl h8 hq8 h6)

end Sys2Proof.Machine
end

section
/-! SUPPORT. An arrival of the keeper at a barrier slot (R335, R336), with the obligation on it. -/

namespace Sys2Proof.Machine

/-! ### The keeper beside registers of the control blocks -/

theorem KEEP_PC_ne_ctl (core : Fin 256) {a : Nat} (h : 0x400000000 ≤ a) : Reg.KEEP_PC core ≠ a :=
  (Nat.lt_of_lt_of_le (coreReg_lt core (by decide)) h).ne

theorem SameKeeper.put {n : Nat} {s t : State} (h : SameKeeper n s t) {a : Nat} (f : BitField) (v : Nat) (ha : Reg.KEEP_PC n ≠ a) :
    SameKeeper n s (t.put a f v) :=
  h.trans (.of rfl rfl (State.reg_put_ne _ _ _ ha) rfl)

theorem SameKeeper.hwPut {n : Nat} {s t : State} (h : SameKeeper n s t) {a : Nat} (f : BitField) (v : Nat) (ha : Reg.KEEP_PC n ≠ a) :
    SameKeeper n s (t.hwPut a f v) :=
  .ite h (h.put f v ha)

theorem State.trigger_notes (s : State) (src code b : Nat) : Notes s (s.trigger src code b) :=
  ⟨(s.trigger_changes src code b).widen rfl, fun _ ha => s.trigger_regs src code b _ (errReg_of_noteReg ha) (by simp),
    fun _ ha => (s.trigger_sameMarks src code b).marks _ (errReg_of_noteReg ha)⟩

/-- The period of a reach is read from its operating point and the table of those. -/
theorem State.period_congr {s t : State} {r : Nat} (h : t.reg (Reg.PACE_OPSEL r) = s.reg (Reg.PACE_OPSEL r))
    (k : ∀ i < 16, t.reg (Reg.PACE_OP_TABLE i) = s.reg (Reg.PACE_OP_TABLE i)) : t.period r = s.period r := by
  have hop : t.get (Reg.PACE_OPSEL r) Fld.PACE_OPSEL.current_op = s.get (Reg.PACE_OPSEL r) Fld.PACE_OPSEL.current_op := congrArg _ h
  rw [State.period, hop, State.get, k _ (BitField.get_lt _ _), ← State.get, State.period]

/-! ### Slots -/

theorem noteReg_block5 {x : Nat} (h : x < 0x3000) : noteReg (blockBase 5 + x) = false := by
  have he : errReg (blockBase 5 + x) = false := by
    have hb : blockOfReg (blockBase 5 + x) = some 5 := by
      unfold blockOfReg
      rw [if_pos (by simp only [blockBase]; omega)]
      congr 1
      simp only [blockBase]
      omega
    have h1 : blockBase 5 + x ≠ Reg.SNAP_STAT := by simp only [blockBase, Reg.SNAP_STAT]; omega
    have h2 : blockBase 5 + x ≠ Reg.IDLE_STATE := by simp only [blockBase, Reg.IDLE_STATE]; omega
    simp [errReg, hb, h1, h2]
  have hlt : ¬ blockBase 5 + x < 0x400000000 := by simp only [blockBase]; omega
  have below {y : Nat} (hy : blockBase 5 + 0x3000 ≤ y) : blockBase 5 + x ≠ y := (Nat.lt_of_lt_of_le (Nat.add_lt_add_left h _) hy).ne
  have h1 : blockBase 5 + x ≠ Reg.DTRM_STAT := below (by decide)
  have h2 : blockBase 5 + x ≠ Reg.LOCK_ERR := below (by decide)
  have h3 : blockBase 5 + x ≠ Reg.HOLD_ERR 0 := below (by decide)
  have h4 : blockBase 5 + x ≠ Reg.HOLD_ERR 1 := below (by decide)
  simp [noteReg, he, hlt, h1, h2, h3, h4]

theorem State.slot_congr {s t : State} (h : t.locks = s.locks) (i : Nat) : t.slot i = s.slot i := by rw [State.slot, h, State.slot]

/-- The participants of a slot are read from its mask alone. -/
theorem State.slotCores_congr {s t : State} {i : Nat} (h : ∀ w < 4, t.reg (Reg.LOCK_SLOT_MASK i w) = s.reg (Reg.LOCK_SLOT_MASK i w)) :
    t.slotCores i = s.slotCores i := by
  refine List.filter_congr fun n hn => ?_
  rw [State.hasBit, State.get, h _ (by have := List.mem_range.mp hn; omega), State.hasBit, State.get]

theorem LOCK_SLOT_MASK_ne_STAT {i w j : Nat} (hi : i < 64) (hw : w < 4) : Reg.LOCK_SLOT_MASK i w ≠ Reg.LOCK_SLOT_STAT j := by
  simp only [Reg.LOCK_SLOT_MASK, Reg.LOCK_SLOT_STAT]
  omega

/-- A slot is set and shown: the slot reads so, the other slots stand, and its STAT register alone is written. -/
def State.slotTo (s : State) (i : Nat) (x : Slot) : State := (s.setSlot i x).showSlot i

theorem State.slotTo_slot (s : State) (i : Nat) (x : Slot) : (s.slotTo i x).slot i = x :=
  (State.slot_congr (State.showSlot_changes (s.setSlot i x) i).locks i).trans (State.slot_setSlot_same s i x)

theorem State.slotTo_slot_ne (s : State) {i j : Nat} (x : Slot) (h : j ≠ i) : (s.slotTo i x).slot j = s.slot j :=
  (State.slot_congr (State.showSlot_changes (s.setSlot i x) i).locks j).trans (State.slot_setSlot_ne s x h)

theorem State.slotTo_sameRegs (s : State) (i : Nat) (x : Slot) : SameRegs [Reg.LOCK_SLOT_STAT i] s (s.slotTo i x) :=
  (SameRegs.ofRegs (State.setSlot_regs s i x)).trans (State.showSlot_sameRegs _ i)

theorem State.slotTo_releases (s : State) (i : Nat) (x : Slot) : (s.slotTo i x).locks.releases = s.locks.releases :=
  (congrArg Locks.releases (State.showSlot_changes (s.setSlot i x) i).locks).trans (by rfl)

theorem State.slotTo_marks (s : State) (i : Nat) (x : Slot) : (s.slotTo i x).marks = s.marks := rfl

theorem LOCK_SLOT_STAT_ctl (i : Nat) : 0x400000000 ≤ Reg.LOCK_SLOT_STAT i := by
  simp only [Reg.LOCK_SLOT_STAT, blockBase]
  omega

theorem State.slotTo_sameKeeper (s : State) (core : Fin 256) (i : Nat) (x : Slot) : SameKeeper core s (s.slotTo i x) := by
  have h : SameKeeper core s (s.setSlot i x) := .of rfl rfl rfl rfl
  have hne := KEEP_PC_ne_ctl core (LOCK_SLOT_STAT_ctl i)
  exact ((h.put _ _ hne).put _ _ hne).put _ _ hne

theorem State.slotTo_slotCores (s : State) {i : Nat} (hi : i < 64) (x : Slot) : (s.slotTo i x).slotCores i = s.slotCores i :=
  State.slotCores_congr fun _ hw => s.slotTo_sameRegs i x _ (by simpa using LOCK_SLOT_MASK_ne_STAT hi hw)

/-- The count of generations is not among the counts that a slot shows. -/
theorem State.slotTo_gen (s : State) (i : Nat) (x : Slot) :
    (s.slotTo i x).get (Reg.LOCK_SLOT_STAT i) Fld.LOCK_SLOT_STAT.gen = s.get (Reg.LOCK_SLOT_STAT i) Fld.LOCK_SLOT_STAT.gen := by
  unfold State.slotTo State.showSlot
  extract_lets y a s1 s2
  exact (State.get_put_other s2 _ _ _ _ (by decide)).trans
    ((State.get_put_other s1 _ _ _ _ (by decide)).trans (State.get_put_other (s.setSlot i x) _ _ _ _ (by decide)))

/-- What judges a mark of a control register stands beside the STAT register of a slot. -/
theorem State.slotTo_written (s : State) (i : Nat) (x : Slot) (f : BitField) :
    (s.slotTo i x).written (Reg.LOCK_SLOT_STAT i) f = s.written (Reg.LOCK_SLOT_STAT i) f := by
  have hc := State.showSlot_changes (s.setSlot i x) i
  have hr (r : Nat) : (s.slotTo i x).reach r = s.reach r := State.reach_congr hc.reaches r
  have reg {a : Nat} (ha : a < blockBase 5) : (s.slotTo i x).reg a = s.reg a := by
    refine s.slotTo_sameRegs i x _ ?_
    simp only [List.mem_singleton, Reg.LOCK_SLOT_STAT]
    omega
  have hp : (s.slotTo i x).period 0 = s.period 0 := State.period_congr (reg (by decide)) fun k hk => reg <| by
    simp only [Reg.PACE_OP_TABLE, blockBase]
    omega
  have hbeat : (s.slotTo i x).reg Reg.PACE_BEAT = s.reg Reg.PACE_BEAT := reg (by decide)
  exact State.written_congr (State.mark_congr (s := s) (t := s.slotTo i x) (LOCK_SLOT_STAT_ctl i) rfl rfl rfl rfl hbeat hp
    (congrArg _ (hr 0)) (congrArg _ (hr 0)) (congrArg _ (hr 0))) f

/-! ### Arrivals -/

theorem State.arrive_unarmed {s : State} {n i issuer : Nat} (h : s.get (Reg.LOCK_SLOT_CTRL i) Fld.LOCK_SLOT_CTRL.armed = 0) :
    s.arrive n i issuer = s.lockErr 0x3306 n issuer i 0 := if_pos h

theorem State.arrive_outside {s : State} {n i issuer : Nat} (h : s.get (Reg.LOCK_SLOT_CTRL i) Fld.LOCK_SLOT_CTRL.armed = 1)
    (hm : (s.slotCores i).contains n = false) : s.arrive n i issuer = s.lockErr 0x3304 n issuer i 0 := by
  unfold State.arrive
  simp only [h, hm, Nat.one_ne_zero, if_false, Bool.not_false, if_true]

/-- The arrival that core `n` makes in the beat in progress. -/
def State.arrivalOf (s : State) (n issuer : Nat) : SlotArrival := ⟨n, s.beatOf n, issuer, s.beatOf n - (s.core n).stepBeat0⟩

theorem State.arrive_records {s : State} {n i issuer : Nat} (h : s.get (Reg.LOCK_SLOT_CTRL i) Fld.LOCK_SLOT_CTRL.armed = 1)
    (hm : (s.slotCores i).contains n = true) (hr : (s.slot i).wait = [] ∧ s.slotAt i (s.beatOf n) = true) :
    s.arrive n i issuer = s.slotRecord i (s.arrivalOf n issuer) := by
  unfold State.arrive State.arrivalOf
  simp only [h, hm, hr.1, hr.2, Nat.one_ne_zero, if_false, Bool.not_true, Bool.false_eq_true, List.isEmpty_nil, Bool.and_self, if_true]

theorem State.arrive_waits {s : State} {n i issuer : Nat} (h : s.get (Reg.LOCK_SLOT_CTRL i) Fld.LOCK_SLOT_CTRL.armed = 1)
    (hm : (s.slotCores i).contains n = true) (hr : ¬((s.slot i).wait = [] ∧ s.slotAt i (s.beatOf n) = true)) :
    s.arrive n i issuer = s.setSlot i { s.slot i with wait := placeArrival (s.arrivalOf n issuer) (s.slot i).wait } := by
  unfold State.arrive State.arrivalOf
  simp only [h, hm, Nat.one_ne_zero, if_false, Bool.not_true, Bool.false_eq_true]
  exact if_neg (by simpa using hr)

/-- A third arrival is dropped (R335). -/
theorem State.slotRecord_third {s : State} {i : Nat} {e : SlotArrival} (h : (s.slot i).arrived.contains e.core = true)
    (k : (s.slot i).early.contains e.core = true) : s.slotRecord i e = s.lockErr 0x3305 e.core e.issuer i 0 := by
  unfold State.slotRecord
  simp only [h, k, if_true]

/-- A second arrival is early (R335). -/
theorem State.slotRecord_early {s : State} {i : Nat} {e : SlotArrival} (h : (s.slot i).arrived.contains e.core = true)
    (k : (s.slot i).early.contains e.core = false) :
    s.slotRecord i e = s.slotTo i { s.slot i with early := (s.slot i).early ++ [e.core] } := by
  unfold State.slotRecord State.slotTo
  simp only [h, k, if_true, Bool.false_eq_true, if_false]

/-- The first arrival of a core joins the set, and completes it or not (R335, R336). -/
theorem State.slotRecord_first {s : State} {i : Nat} (hi : i < 64) {e : SlotArrival} (h : (s.slot i).arrived.contains e.core = false) :
    s.slotRecord i e =
      (let t := s.slotTo i { s.slot i with arrived := (s.slot i).arrived ++ [e.core] }
      if (s.slotCores i).all ((s.slot i).arrived ++ [e.core]).contains then t.slotComplete i e.beat e.step else t) := by
  have hc := s.slotTo_slotCores hi { s.slot i with arrived := (s.slot i).arrived ++ [e.core] }
  unfold State.slotTo at hc
  unfold State.slotRecord State.slotTo
  simp only [h, Bool.false_eq_true, if_false, hc]

/-! ### The completion of a local slot -/

/-- What the completion of a slot that is not of the fabric leaves (R336). -/
theorem State.slotComplete_local (s : State) (core : Fin 256) {i : Nat} (hi : i < 64) (b sb : Nat)
    (hf : s.get (Reg.LOCK_SLOT_CTRL i) Fld.LOCK_SLOT_CTRL.fabric = 0) :
    SameKeeper core s (s.slotComplete i b sb) ∧
    ((s.slotComplete i b sb).slot i).arrived = (s.slot i).early ∧ ((s.slotComplete i b sb).slot i).early = [] ∧
    (s.written (Reg.LOCK_SLOT_STAT i) Fld.LOCK_SLOT_STAT.gen = false →
      (s.slotComplete i b sb).get (Reg.LOCK_SLOT_STAT i) Fld.LOCK_SLOT_STAT.gen =
        (s.get (Reg.LOCK_SLOT_STAT i) Fld.LOCK_SLOT_STAT.gen + 1) % 65536) ∧
    (s.slotComplete i b sb).locks.releases = s.locks.releases ++
      [⟨i, b + s.lat 22, s.get (Reg.LOCK_SLOT_CTRL i) Fld.LOCK_SLOT_CTRL.rel_ctr, s.slotCores i⟩] := by
  unfold State.slotComplete
  extract_lets x a cores st s1 s2 s3 s4
  have hx : s3 = s1.slotTo i { x with arrived := x.early, early := [], again := if cores.all x.early.contains then some (b + 1, sb + 1) else none } := rfl
  have h1 : SameKeeper core s s1 := (SameKeeper.refl _ s).hwPut _ _ (KEEP_PC_ne_ctl core (LOCK_SLOT_STAT_ctl i))
  have h3 : SameKeeper core s s3 := h1.trans (s1.slotTo_sameKeeper core i _)
  have n4 : Notes s3 s4 := .ite (s3.trigger_notes 2 0 b) (.refl s3)
  have r3 : SameRegs [Reg.LOCK_SLOT_STAT i] s s3 := (State.hwPut_regs _ _ _ _).trans (s1.slotTo_sameRegs i _)
  have h4 : SameKeeper core s s4 := h3.trans (n4.sameKeeper core)
  have hctrl : s4.reg (Reg.LOCK_SLOT_CTRL i) = s.reg (Reg.LOCK_SLOT_CTRL i) := by
    have hn : noteReg (Reg.LOCK_SLOT_CTRL i) = false := by
      rw [Reg.LOCK_SLOT_CTRL, Nat.add_assoc]
      exact noteReg_block5 (by omega)
    refine (n4.regs _ hn).trans (r3 _ ?_)
    simp only [List.mem_singleton, Reg.LOCK_SLOT_CTRL, Reg.LOCK_SLOT_STAT]
    omega
  have hlat : s4.lat 22 = s.lat 22 := by
    refine (n4.lat (by decide)).trans (congrArg _ (r3 _ ?_))
    simp only [List.mem_singleton, Reg.LOCK_SLOT_STAT, Reg.DTRM_LAT, blockBase]
    omega
  have hgen : noteReg st = false := by
    show noteReg (Reg.LOCK_SLOT_STAT i) = false
    rw [Reg.LOCK_SLOT_STAT, Nat.add_assoc]
    exact noteReg_block5 (by omega)
  have hfab : s4.get a Fld.LOCK_SLOT_CTRL.fabric = 0 := (congrArg _ hctrl).trans hf
  have hrel : s4.get a Fld.LOCK_SLOT_CTRL.rel_ctr = s.get a Fld.LOCK_SLOT_CTRL.rel_ctr := congrArg Fld.LOCK_SLOT_CTRL.rel_ctr.get hctrl
  have hslot : s4.slot i = { x with arrived := x.early, early := [], again := if cores.all x.early.contains then some (b + 1, sb + 1) else none } := by
    rw [State.slot_congr n4.changes.locks, hx, State.slotTo_slot]
  rw [if_pos hfab]
  refine ⟨h4.trans (.of rfl rfl rfl rfl), ?_, ?_, fun hw => ?_, ?_⟩
  · exact congrArg Slot.arrived hslot
  · exact congrArg Slot.early hslot
  · have hadd : s1.get st Fld.LOCK_SLOT_STAT.gen = (s.get st Fld.LOCK_SLOT_STAT.gen + 1) % 65536 := by
      have he : s1 = s.put st Fld.LOCK_SLOT_STAT.gen (s.get st Fld.LOCK_SLOT_STAT.gen + 1) := by
        simp only [s1, State.addTo, State.hwPut]
        rw [if_neg (by simpa using hw)]
      rw [he]
      exact State.get_put_same _ _ _ _ (by decide)
    calc s4.get st Fld.LOCK_SLOT_STAT.gen = s3.get st Fld.LOCK_SLOT_STAT.gen := n4.get _ hgen
      _ = s1.get st Fld.LOCK_SLOT_STAT.gen := s1.slotTo_gen i _
      _ = _ := hadd
  · have hl : s4.locks.releases = s.locks.releases := by
      rw [n4.changes.locks, hx, State.slotTo_releases, (s.addTo_changes _ _ _).locks]
    show s4.locks.releases ++ [_] = _
    rw [hl, hlat, hrel]

/-! ### The obligation -/

theorem exec_lbar {core : Fin 256} {s : State} {i len : Nat} (h : CustomAt s core .lbar i len) : exec (.lbar core) s =
    .next (((s.fetch core).1.arrive core (((s.fetch core).1.kx core (rs1Of i)).toNat % 64) 2).retire core 0 none (s.kpc core + len)) :=
  congrArg Host.Outcome.next (h.onCustom _)

/-- What LBAR leaves, from what the arrival leaves. -/
theorem lbar_gives {core : Fin 256} {s v : State} {i len : Nat} (h : CustomAt s core .lbar i len) {P : State → Prop}
    (ha : (s.fetch core).1.arrive core (((s.fetch core).1.kx core (rs1Of i)).toNat % 64) 2 = v)
    (hp : P (v.retire core 0 none (s.kpc core + len))) : Gives (.lbar core) s P :=
  Gives.intro ((exec_lbar h).trans (by rw [ha])) hp

theorem State.retire_locks (s : State) (n rd : Nat) (v : Option W32) (pc : Nat) : (s.retire n rd v pc).locks = s.locks :=
  (s.retire_changes n rd v pc).locks

theorem State.retire_slot (s : State) (n rd : Nat) (v : Option W32) (pc i : Nat) : (s.retire n rd v pc).slot i = s.slot i :=
  State.slot_congr (s.retire_locks n rd v pc) i

/-- An arrival that changes its slot alone: LBAR retires, and the slot's STAT register is written beside those of the core. -/
theorem lbar_slotTo {core : Fin 256} {s : State} {i len : Nat} (h : CustomAt s core .lbar i len) (b : Nat) (x : Slot) :
    let u := (s.fetch core).1
    let t := (u.slotTo b x).retire core 0 none (s.kpc core + len)
    Retired core 0 none (s.kpc core + len) u t ∧ t.slot b = x ∧ (∀ c, c ≠ b → t.slot c = s.slot c) ∧
      SameRegs (Reg.LOCK_SLOT_STAT b :: coreShown core) u t := by
  intro u t
  refine ⟨h.retired (u.slotTo_sameKeeper core b x) (State.retire_retired _ core _ _ _),
    (State.retire_slot _ _ _ _ _ _).trans (u.slotTo_slot b x), fun c hc => ?_, ?_⟩
  · exact (State.retire_slot _ _ _ _ _ _).trans ((u.slotTo_slot_ne x hc).trans (State.slot_congr (s.fetch_notes core).changes.locks c))
  · exact ((u.slotTo_sameRegs b x).widen (by simp)).trans
      ((State.retire_sameRegs _ _ _ _ _).widen fun _ ha => List.mem_cons_of_mem _ ha)

/-- An arrival that is dropped is noted, and LBAR retires. -/
theorem lbar_dropped {core : Fin 256} {s : State} {i len : Nat} (h : CustomAt s core .lbar i len) {code b : Nat}
    (ha : (s.fetch core).1.arrive core (((s.fetch core).1.kx core (rs1Of i)).toNat % 64) 2 = (s.fetch core).1.lockErr code core 2 b 0) :
    Gives (.lbar core) s fun t => Retired core 0 none (s.kpc core + len) ((s.fetch core).1.lockErr code core 2 b 0) t ∧ t.locks = s.locks :=
  lbar_gives h ha ⟨State.retire_retired _ core _ _ _, (State.retire_locks _ _ _ _ _).trans
    (((s.fetch core).1.lockErr_notes code core 2 b 0).changes.locks.trans (s.fetch_notes core).changes.locks)⟩

/-- Settles O21: by the row of R335 that the slot and its bits select. -/
theorem keeperBarrier : Obligations.KeeperBarrier := by
  unfold Obligations.KeeperBarrier
  intro core s i len hk u b x stat arrived ready retires
  have hb : b < 64 := Nat.mod_lt _ (by decide)
  refine ⟨fun harm hin => ⟨fun hr hnew hall => ?_, fun hr hnew hall hf => ?_, fun hr hold hearly => ?_, fun hr hold hearly => ?_,
    fun hr => ?_⟩, fun harm hin => ?_, fun harm => ?_⟩
  · have ha := (State.arrive_records (issuer := 2) harm hin hr).trans (State.slotRecord_first hb hnew)
    dsimp only at ha
    rw [show (u.arrivalOf core 2).core = core.val from rfl, hall, if_neg (by decide)] at ha
    exact lbar_gives hk ha (lbar_slotTo hk b _)
  · have ha := (State.arrive_records (issuer := 2) harm hin hr).trans (State.slotRecord_first hb hnew)
    dsimp only at ha
    rw [show (u.arrivalOf core 2).core = core.val from rfl, hall, if_pos rfl] at ha
    have hctrl : Reg.LOCK_SLOT_CTRL b ∉ [Reg.LOCK_SLOT_STAT b] := by
      simp only [List.mem_singleton, Reg.LOCK_SLOT_CTRL, Reg.LOCK_SLOT_STAT]
      omega
    have hc := u.slotTo_sameRegs b { x with arrived := arrived } _ hctrl
    have hlat : (u.slotTo b { x with arrived := arrived }).lat 22 = u.lat 22 := congrArg _ <| u.slotTo_sameRegs b _ _ <| by
      simp only [List.mem_singleton, Reg.LOCK_SLOT_STAT, Reg.DTRM_LAT, blockBase]
      omega
    obtain ⟨hs, harr, hear, hgen, hrel⟩ := State.slotComplete_local (u.slotTo b { x with arrived := arrived }) core hb
      (u.arrivalOf core 2).beat (u.arrivalOf core 2).step ((congrArg _ hc).trans hf)
    rw [u.slotTo_slot] at harr
    rw [u.slotTo_written, u.slotTo_gen] at hgen
    have hctr : (u.slotTo b { x with arrived := arrived }).get (Reg.LOCK_SLOT_CTRL b) Fld.LOCK_SLOT_CTRL.rel_ctr =
        u.get (Reg.LOCK_SLOT_CTRL b) Fld.LOCK_SLOT_CTRL.rel_ctr := congrArg _ hc
    rw [u.slotTo_releases, hlat, u.slotTo_slotCores hb, hctr, (s.fetch_notes core).changes.locks] at hrel
    have hstat : Reg.LOCK_SLOT_STAT b ∉ coreShown core := ctlReg_not_coreShown core (LOCK_SLOT_STAT_ctl b) <| by
      have hlt : Reg.LOCK_SLOT_STAT b < blockBase 6 := by
        simp only [Reg.LOCK_SLOT_STAT, blockBase]
        omega
      exact (Nat.lt_of_lt_of_le hlt (by decide)).ne
    exact lbar_gives hk ha ⟨hk.retired ((u.slotTo_sameKeeper core b _).trans hs) (State.retire_retired _ core _ _ _),
      (congrArg Slot.arrived (State.retire_slot _ _ _ _ _ _)).trans harr, (congrArg Slot.early (State.retire_slot _ _ _ _ _ _)).trans hear,
      fun hw => (congrArg _ (State.retire_sameRegs _ _ _ _ _ _ hstat)).trans (hgen hw),
      (congrArg Locks.releases (State.retire_locks _ _ _ _ _)).trans hrel⟩
  · have ha := (State.arrive_records (issuer := 2) harm hin hr).trans (State.slotRecord_early hold hearly)
    obtain ⟨hret, hslot, -, hreg⟩ := lbar_slotTo hk b { x with early := x.early ++ [core.val] }
    exact lbar_gives hk ha ⟨hret, hslot, hreg⟩
  · exact lbar_dropped hk ((State.arrive_records (issuer := 2) harm hin hr).trans (State.slotRecord_third hold hearly))
  · have ha := State.arrive_waits (issuer := 2) harm hin hr
    have hset : SameKeeper core u (u.setSlot b { x with wait := placeArrival (u.arrivalOf core 2) x.wait }) := .of rfl rfl rfl rfl
    exact lbar_gives hk ha ⟨hk.retired hset (State.retire_retired _ core _ _ _),
      (SameRegs.ofRegs (State.setSlot_regs _ _ _)).trans (State.retire_sameRegs _ _ _ _ _),
      (State.retire_slot _ _ _ _ _ _).trans (State.slot_setSlot_same _ _ _)⟩
  · exact lbar_dropped hk (State.arrive_outside harm hin)
  · exact lbar_dropped hk (State.arrive_unarmed harm)

end Sys2Proof.Machine
end

section
/-! SUPPORT. Steps in a core (R198 to R202): how a step begins and ends there, and the selection of the menu, with the obligation on them. -/

namespace Sys2Proof.Machine

/-! ### Operations on the control blocks -/

/-- `t` differs from `s` in registers of the control blocks and in parts that no core, beat, mark or hold request stands in. -/
structure BlocksAlone (s t : State) : Prop where
  cores   : t.cores = s.cores
  reaches : t.reaches = s.reaches
  marks   : t.marks = s.marks
  holds   : t.die.holds = s.die.holds
  regs    : SameBelowPace s t

namespace BlocksAlone

theorem refl (s : State) : BlocksAlone s s := ⟨rfl, rfl, rfl, rfl, .refl s⟩

theorem trans {s t u : State} (h : BlocksAlone s t) (k : BlocksAlone t u) : BlocksAlone s u :=
  ⟨k.cores.trans h.cores, k.reaches.trans h.reaches, k.marks.trans h.marks, k.holds.trans h.holds, h.regs.trans k.regs⟩

/-- An update of the records of the die that leaves all of that. -/
theorem record {s t u : State} (h : BlocksAlone s t) (hc : u.cores = t.cores) (hr : u.reaches = t.reaches) (hm : u.marks = t.marks)
    (hh : u.die.holds = t.die.holds) (hg : u.regs = t.regs) : BlocksAlone s u :=
  h.trans ⟨hc, hr, hm, hh, (SameBelowPace.refl t).record hg⟩

theorem ite {s t u : State} {c : Prop} [Decidable c] (h : BlocksAlone s t) (k : BlocksAlone s u) : BlocksAlone s (if c then t else u) := by
  split <;> assumption

theorem setReg {s t : State} (h : BlocksAlone s t) {a : Nat} (w : Word) (ha : blockBase 2 ≤ a) : BlocksAlone s (t.setReg a w) :=
  h.trans ⟨rfl, rfl, rfl, rfl, (SameBelowPace.refl t).setReg ha⟩

theorem put {s t : State} (h : BlocksAlone s t) {a : Nat} (f : BitField) (v : Nat) (ha : blockBase 2 ≤ a) : BlocksAlone s (t.put a f v) :=
  h.setReg _ ha

theorem hwPut {s t : State} (h : BlocksAlone s t) {a : Nat} (f : BitField) (v : Nat) (ha : blockBase 2 ≤ a) :
    BlocksAlone s (t.hwPut a f v) := ite h (h.put f v ha)

theorem foldl {α : Type} {s t : State} {l : List α} {f : State → α → State} (h : BlocksAlone s t) (k : ∀ u x, BlocksAlone u (f u x)) :
    BlocksAlone s (l.foldl f t) := by
  induction l generalizing t with
  | nil => exact h
  | cons x l ih => exact ih (h.trans (k t x))

theorem core {s t : State} (h : BlocksAlone s t) (n : Nat) : t.core n = s.core n := State.core_congr h.cores n

theorem coreReg {s t : State} (h : BlocksAlone s t) (core : Fin 256) {off : Nat} (ho : off < 0x1000) :
    t.reg (coreRegs core + off) = s.reg (coreRegs core + off) := h.regs _ (coreReg_belowPace core ho)

theorem sameKeeper {s t : State} (h : BlocksAlone s t) (core : Fin 256) : SameKeeper core s t :=
  .of h.cores h.reaches (h.coreReg core (by decide)) (by rw [h.marks])

end BlocksAlone

theorem State.takeEpoch_blocks (s : State) : BlocksAlone s s.takeEpoch :=
  ((BlocksAlone.refl s).put _ _ (le_blockReg (by decide))).put _ _ (le_blockReg (by decide))

theorem State.stepEpoch_blocks (s : State) : BlocksAlone s s.stepEpoch :=
  .ite (s.takeEpoch_blocks.setReg _ (le_blockReg (by decide))) s.takeEpoch_blocks

theorem State.stepTaken_blocks (s : State) : BlocksAlone s s.stepTaken := by
  unfold State.stepTaken
  extract_lets t
  have ht : BlocksAlone s t := .foldl (.refl s) fun u p => .ite (.refl u) ((BlocksAlone.refl u).put _ _ (le_blockRegs (by decide)))
  exact .ite (ht.trans t.stepEpoch_blocks) ht

theorem State.residentSwitch_blocks (s : State) (w : Nat) : BlocksAlone s (s.residentSwitch w) :=
  .ite ((((BlocksAlone.refl s).put _ _ (le_blockReg (by decide))).hwPut _ _ (le_blockReg (by decide))).hwPut _ _ (le_blockReg (by decide)))
    (.refl s)

/-- A step that the die takes writes registers of the control blocks. -/
theorem State.takeStep_blocks (s : State) (r : List Word) : BlocksAlone s (s.takeStep r) := by
  unfold State.takeStep State.setStep
  extract_lets step s1 s2 w s3 s4 d
  have h1 : BlocksAlone s s1 := ((BlocksAlone.refl s).hwPut _ _ (le_blockReg (by decide))).trans (State.stepTaken_blocks _)
  have h2 : BlocksAlone s s2 := h1.trans (s1.residentSwitch_blocks _)
  have h3 : BlocksAlone s s3 := .ite (h2.record rfl rfl rfl rfl rfl) h2
  have h4 : BlocksAlone s s4 := h3.put _ _ (le_blockReg (by decide))
  exact .ite (.refl s) (h4.record rfl rfl rfl rfl rfl)

/-! ### A step begins (R199, R200) -/

theorem coreReg_not_coreShown (core : Fin 256) {off : Nat} (ho : off < 0x1000) (h : off ∉ [0x10, 0x8, 0x18, 0xA08, 0xA10, 0x420]) :
    coreRegs core + off ∉ coreShown core := by
  have hd : coreRegs core + off ≠ Reg.DTRM_STAT := (Nat.lt_of_lt_of_le (coreReg_lt core ho) (by decide)).ne
  simp only [coreShown, Reg.KEEP_PC, Reg.CORE_STAT, Reg.QUEUE_STAT, Reg.ASTREAM_STAT, Reg.XSTREAM_STAT, Reg.INGRESS_STAT, List.mem_cons,
    List.not_mem_nil, or_false, Nat.add_left_cancel_iff, hd] at h ⊢
  exact h

/-- The words of a record become the registers of the step in progress. -/
theorem State.setRecord_reg (s : State) (core : Fin 256) (r : List Word) (m : Nat) {a : Nat} :
    ((List.range m).foldl (fun (t : State) j => t.setReg (Reg.STEP_REC core j) (r.getD j 0)) s).reg a =
      if ∃ j < m, a = Reg.STEP_REC core j then r.getD ((a - Reg.STEP_REC core 0) / 8) 0 else s.reg a := by
  induction m with
  | zero => simp
  | succ m ih =>
    rw [List.range_succ, List.foldl_append, List.foldl_cons, List.foldl_nil]
    by_cases h : a = Reg.STEP_REC core m
    · rw [if_pos ⟨m, Nat.lt_succ_self m, h⟩, h, State.reg_setReg_same]
      congr 1
      simp only [Reg.STEP_REC]
      omega
    · rw [State.reg_setReg_ne _ _ h, ih]
      refine if_congr ⟨fun ⟨j, hj, hx⟩ => ⟨j, by omega, hx⟩, fun ⟨j, hj, hx⟩ => ⟨j, ?_, hx⟩⟩ rfl rfl
      have : j ≠ m := by
        rintro rfl
        exact h hx
      omega

/-- The state in which a step has begun in core `n`, before the die takes it. -/
def State.stepStart (s : State) (n : Nat) (r : List Word) : State :=
  let s := (List.range 8).foldl (fun t j => t.setReg (Reg.STEP_REC n j) (r.getD j 0)) s
  let s := s.put (Reg.STEP_STAT n) Fld.STEP_STAT.next_valid 0
  let s := s.put (Reg.STEP_STAT n) Fld.STEP_STAT.in_step 1
  let c := s.core n
  let s := s.setCore n { c with nextRec := none, stepBeat0 := s.beatOf n, menu := none }
  s.holdOff (· == recordReq n)

theorem State.stepBegin_eq (s : State) (n rd pc : Nat) (r : List Word) :
    s.stepBegin n rd pc r = ((s.stepStart n r).takeStep r).retire n rd (some ((r.getD 0 0).setWidth 32)) pc := rfl

theorem State.setRecord_sameKeeper (s : State) (core : Fin 256) (r : List Word) (l : List Nat) :
    SameKeeper core s (l.foldl (fun (t : State) j => t.setReg (Reg.STEP_REC core j) (r.getD j 0)) s) := by
  induction l generalizing s with
  | nil => exact .refl _ s
  | cons j l ih =>
    refine SameKeeper.trans (t := s.setReg (Reg.STEP_REC core j) (r.getD j 0)) (.of rfl rfl (State.reg_setReg_ne _ _ ?_) rfl) (ih _)
    simp only [Reg.KEEP_PC, Reg.STEP_REC]
    omega

/-- What the start of a step in a core leaves. -/
theorem State.stepStart_begins (s : State) (core : Fin 256) (r : List Word) :
    SameKeeper core s (s.stepStart core r) ∧ (∀ j < 8, (s.stepStart core r).reg (Reg.STEP_REC core j) = r.getD j 0) ∧
    (s.stepStart core r).inStep core = true ∧ ((s.stepStart core r).core core).nextRec = none ∧
    ((s.stepStart core r).core core).stepBeat0 = s.beatOf core ∧ recordReq core ∉ (s.stepStart core r).die.holds := by
  unfold State.stepStart
  extract_lets s1 s2 s3 c s4
  have stat {j : Nat} (hj : j < 8) : Reg.STEP_REC core j ≠ Reg.STEP_STAT core := by
    simp only [Reg.STEP_REC, Reg.STEP_STAT]
    omega
  have hk1 : SameKeeper core s s1 := s.setRecord_sameKeeper core r _
  have hpc : Reg.KEEP_PC core ≠ Reg.STEP_STAT core := fun e => absurd (Nat.add_left_cancel e) (by decide)
  have hk3 : SameKeeper core s s3 := (hk1.put _ _ hpc).put _ _ hpc
  have hk4 : SameKeeper core s s4 := hk3.trans (SameKeeper.setCore core s3 (by rfl) (by rfl) (by rfl))
  have hh : SameKeeper core s4 (s4.holdOff (· == recordReq core)) := .of rfl rfl rfl rfl
  refine ⟨hk4.trans hh, fun j hj => ?_, ?_, ?_, ?_, ?_⟩
  · calc (s4.holdOff (· == recordReq core)).reg (Reg.STEP_REC core j)
        = s3.reg (Reg.STEP_REC core j) := State.reg_congr rfl _
      _ = s2.reg (Reg.STEP_REC core j) := State.reg_put_ne _ _ _ (stat hj)
      _ = s1.reg (Reg.STEP_REC core j) := State.reg_put_ne _ _ _ (stat hj)
      _ = r.getD j 0 := by
        rw [s.setRecord_reg core r 8, if_pos ⟨j, hj, rfl⟩]
        congr 1
        simp only [Reg.STEP_REC]
        omega
  · have h3 : s3.get (Reg.STEP_STAT core) Fld.STEP_STAT.in_step = 1 := State.get_put_same _ _ _ _ (by decide)
    exact beq_iff_eq.mpr h3
  · rw [State.core_holdOff]
    exact congrArg Core.nextRec (State.core_setCore_same s3 core _)
  · rw [State.core_holdOff]
    exact (congrArg Core.stepBeat0 (State.core_setCore_same s3 core _)).trans hk3.beatOf
  · intro hm
    simpa using (List.mem_filter.mp hm).2

theorem State.retire_holds (s : State) (n rd : Nat) (v : Option W32) (pc : Nat) :
    ∀ h ∈ (s.retire n rd v pc).die.holds, h ∈ s.die.holds := by
  rw [State.retire_eq]
  extract_lets u
  have hu : u.die = s.die := ((State.hwPut_changes _ _ _ _).die).trans rfl
  intro h hh
  split at hh
  · unfold State.enterHalted at hh
    extract_lets a s1 s2 s3 c s4 at hh
    rw [(State.refresh_changes _ n).die] at hh
    have hm := List.mem_of_mem_filter hh
    rwa [show s4.die = s.die from hu] at hm
  · rwa [(State.refresh_changes _ n).die, hu] at hh

/-- What a core has once a step has begun in it. -/
structure StepBegun (core : Fin 256) (rd pc : Nat) (r : List Word) (s t : State) : Prop where
  retired : Retired core rd (some ((r.getD 0 0).setWidth 32)) pc s t
  record  : ∀ j < 8, t.reg (Reg.STEP_REC core j) = r.getD j 0
  inStep  : t.inStep core = true
  next    : (t.core core).nextRec = none
  beat0   : (t.core core).stepBeat0 = s.beatOf core
  hold    : recordReq core ∉ t.die.holds

theorem State.stepBegin_begun {s : State} (core : Fin 256) (rd pc : Nat) (r : List Word) (hb : s.inBeat core = true) :
    StepBegun core rd pc r s (s.stepBegin core rd pc r) := by
  obtain ⟨hk, hrec, hin, hnext, hbeat, hhold⟩ := s.stepStart_begins core r
  have ht := (s.stepStart core r).takeStep_blocks r
  rw [State.stepBegin_eq]
  have reg {off : Nat} (ho : off < 0x1000) (h : off ∉ [0x10, 0x8, 0x18, 0xA08, 0xA10, 0x420]) :=
    (State.retire_sameRegs ((s.stepStart core r).takeStep r) core rd (some ((r.getD 0 0).setWidth 32)) pc _
      (coreReg_not_coreShown core ho h)).trans (ht.coreReg core ho)
  have hc := State.retire_core ((s.stepStart core r).takeStep r) core rd (some ((r.getD 0 0).setWidth 32)) pc
  rw [ht.core] at hc
  refine ⟨(hk.trans (ht.sameKeeper core)).retired hb (State.retire_retired _ core _ _ _), fun j hj => ?_, ?_,
    (congrArg Core.nextRec hc).trans hnext, (congrArg Core.stepBeat0 hc).trans hbeat, fun hm => hhold ?_⟩
  · have h := reg (off := 0xA40 + 8 * j) (by omega) (by simp only [List.mem_cons, List.not_mem_nil, or_false]; omega)
    rw [← Nat.add_assoc] at h
    exact h.trans (hrec j hj)
  · have h := reg (off := 0xA20) (by decide) (by decide)
    rw [State.inStep, State.get, show Reg.STEP_STAT core = coreRegs core + 0xA20 from rfl, h]
    exact hin
  · exact ht.holds ▸ State.retire_holds _ _ _ _ _ _ hm

end Sys2Proof.Machine
end

section
/-! SUPPORT. The end of a step in a core (R202) and the selection of its menu (R201), and the obligation on steps. -/

namespace Sys2Proof.Machine

/-! ### The next pc of an instruction that waited -/

theorem State.badLines_congr {s t : State} (he : t.ecc = s.ecc) (a n : Nat) : t.badLines a n = s.badLines a n := by
  rw [State.badLines, he, State.badLines]

theorem State.keeperLines_bad {s t : State} (he : t.ecc = s.ecc) (n a len : Nat) :
    (t.keeperLines n a len).2 = (s.keeperLines n a len).2 := by
  show (t.badLines a len).any (·.2) = (s.badLines a len).any (·.2)
  rw [State.badLines_congr he]

/-- What is fetched depends on the pc and on the memories. -/
theorem State.fetch_congr {s t : State} {n : Nat} (hp : t.kpc n = s.kpc n) (hm : t.mem = s.mem) (he : t.ecc = s.ecc) :
    (t.fetch n).2 = (s.fetch n).2 := by
  simp only [State.fetch, hp, State.bytes_congr hm he, apply_ite Prod.snd, State.keeperLines_bad he]

theorem State.pcAfter_congr {s t : State} {n : Nat} (hp : t.kpc n = s.kpc n) (hm : t.mem = s.mem) (he : t.ecc = s.ecc) :
    t.pcAfter n = s.pcAfter n := by
  simp only [State.pcAfter, State.fetch_congr hp hm he, hp]

/-! ### The signals that a step left pending (R332, R345) -/

theorem State.takePend_sigsAlone (s : State) (n : Nat) (p : PendSig → Bool) : SigsAlone s (s.takePend n p) := .record (.refl s) rfl rfl

theorem State.applyPend_sigsAlone (s : State) (n : Nat) (p : PendSig → Bool) : SigsAlone s (s.applyPend n p) := by
  rw [State.applyPend_eq]
  exact .foldl ((s.takePend_sigsAlone n p).trans (State.showPend_sigsAlone _)) fun u e => u.signal_sigsAlone _ _ _ _ _

theorem State.applyPend_marks (s : State) (n : Nat) (p : PendSig → Bool) : (s.applyPend n p).marks = s.marks := by
  have show_ (t : State) : t.showPend.marks = t.marks := by
    unfold State.showPend
    extract_lets f
    split <;> rfl
  rw [State.applyPend_eq, (State.signalAll_changes _ n PendSig.sig _).marks rfl, show_]
  rfl

theorem State.applyPend_sameKeeper (s : State) (core : Fin 256) (p : PendSig → Bool) : SameKeeper core s (s.applyPend core p) := by
  have h := s.applyPend_sigsAlone core p
  have hc := h.core core
  exact ⟨by rw [hc], by rw [hc], by rw [hc], fun m hm => s.applyPend_core_ne p hm, (s.applyPend_changes core p).reaches,
    h.regs _ (coreReg_belowPace core (by decide)), by rw [s.applyPend_marks]⟩

theorem State.foldl_notes {α : Type} (f : State → α → State) (h : ∀ t x, Notes t (f t x)) (l : List α) (s : State) :
    Notes s (l.foldl f s) := by
  induction l generalizing s with
  | nil => exact .refl s
  | cons x l ih => exact (h s x).trans (ih _)

theorem State.flushPend_sigsAlone (s : State) (n : Nat) : SigsAlone s (s.flushPend n) := by
  unfold State.flushPend
  extract_lets par p due t u
  exact .ite (.refl s) (.foldl ((s.applyPend_sigsAlone n p).put (le_blockReg (by decide))) fun v e => v.lockErr_sigsAlone _ _ _ _ _)

theorem State.flushPend_sameKeeper (s : State) (core : Fin 256) : SameKeeper core s (s.flushPend core) := by
  unfold State.flushPend
  extract_lets par p due t u
  have hd : Reg.KEEP_PC core ≠ Reg.DTRM_STAT := (Nat.lt_of_lt_of_le (coreReg_belowPace core (by decide)) (by decide)).ne
  exact .ite (.refl _ s) (((s.applyPend_sameKeeper core p).put _ _ hd).trans
    ((State.foldl_notes _ (fun v e => v.lockErr_notes _ _ _ _ _) due u).sameKeeper core))

/-! ### A step ends (R202) -/

/-- The state in which the step of core `n` has ended, before the KDONE retires. -/
def State.stepDone (s : State) (n : Nat) : State :=
  let c := s.core n
  let beats := s.beatOf n - c.stepBeat0 + 1
  let s := s.put (Reg.STEP_STAT n) Fld.STEP_STAT.beats beats
  let s := match c.menu with
    | some m => if m ≠ beats then s.logCore n 0x4801 else s
    | none => s
  let s := s.flushPend n
  let s := s.put (Reg.STEP_STAT n) Fld.STEP_STAT.in_step 0
  let step := (s.reg (Reg.STEP_REC n 0)).toNat
  let s := s.setCore n { s.core n with readyFor := some step }
  let s := { s with weights := { s.weights with lastDone := s.now } }
  if s.stepEnded then
    s.put Reg.DTRM_STEP_STAT Fld.DTRM_STEP_STAT.held_ns (min ((s.die.heldPs - s.die.heldAtStep) / 1000) (2 ^ 32 - 1))
  else s

theorem exec_kdoneComplete {core : Fin 256} {s : State} {since : Nat} (hw : (s.core core).kwait = .kdone since)
    (hb : s.inBeat core = true) (hi : (s.core core).idleStreams = true) (hl : (s.core core).idleFrom since < s.beatOf core) :
    exec (.kdoneComplete core) s = .next ((s.stepDone core).retire core 0 none ((s.stepDone core).pcAfter core)) := by
  show execKdoneComplete core s = _
  unfold execKdoneComplete
  simp only [hw, hb, hi, Bool.and_self, Bool.not_true, Bool.false_eq_true, false_or, Nat.not_le_of_lt hl, if_false]
  rfl

/-- What a core has once its step has ended. -/
structure StepDone (core : Fin 256) (s t : State) : Prop where
  keeper : SameKeeper core s t
  beats  : t.get (Reg.STEP_STAT core) Fld.STEP_STAT.beats = (s.beatOf core - (s.core core).stepBeat0 + 1) % 2 ^ 32
  inStep : t.inStep core = false
  ready  : (t.core core).readyFor = some (s.reg (Reg.STEP_REC core 0)).toNat
  mem    : t.mem = s.mem
  ecc    : t.ecc = s.ecc

theorem State.menuNote_notes (s : State) (n beats : Nat) (menu : Option Nat) :
    Notes s (match menu with
      | some m => if m ≠ beats then s.logCore n 0x4801 else s
      | none => s) := by
  cases menu with
  | none => exact .refl s
  | some m => exact .ite (s.logCore_notes _ _ _ _ _) (.refl s)

theorem STEP_REC_ne_STEP_STAT (n j : Nat) : Reg.STEP_REC n j ≠ Reg.STEP_STAT n := by
  simp only [Reg.STEP_REC, Reg.STEP_STAT]
  omega

theorem StepDone.ite {core : Fin 256} {s t u : State} {c : Prop} [Decidable c] (h : StepDone core s t) (k : StepDone core s u) :
    StepDone core s (if c then u else t) := by
  split <;> assumption

/-- The time for which the step was held, once the last core has ended its step (R403). -/
theorem StepDone.held {core : Fin 256} {s t : State} (h : StepDone core s t) (f : BitField) (v : Nat) :
    StepDone core s (t.put Reg.DTRM_STEP_STAT f v) := by
  have hne {off : Nat} (ho : off < 0x1000) : coreRegs core + off ≠ Reg.DTRM_STEP_STAT :=
    (Nat.lt_of_lt_of_le (coreReg_belowPace core ho) (by decide)).ne
  have hs := t.reg_put_ne f v (hne (off := 0xA20) (by decide))
  exact ⟨h.keeper.put f v (hne (by decide)), (congrArg Fld.STEP_STAT.beats.get hs).trans h.beats,
    (congrArg (fun w => Fld.STEP_STAT.in_step.get w == 1) hs).trans h.inStep, h.ready, h.mem, h.ecc⟩

theorem State.stepDone_done (s : State) (core : Fin 256) : StepDone core s (s.stepDone core) := by
  unfold State.stepDone
  extract_lets c beats s1 s2 s3 s4 step d s5 w s6
  have hstat : Reg.KEEP_PC core ≠ Reg.STEP_STAT core := fun e => absurd (Nat.add_left_cancel e) (by decide)
  have hrec := STEP_REC_ne_STEP_STAT core 0
  have h2 : Notes s1 s2 := s1.menuNote_notes core beats c.menu
  have h3 : SameBelowPace s2 s3 := (s2.flushPend_sigsAlone core).regs
  have same {off : Nat} (ho : off < 0x1000) (h : off ∉ [0x18, 0xB80, 0xB88]) : s3.reg (coreRegs core + off) = s1.reg (coreRegs core + off) := by
    simp only [List.mem_cons, List.not_mem_nil, or_false, not_or] at h
    obtain ⟨ha, hb, hc⟩ := h
    exact (h3 _ (coreReg_belowPace core ho)).trans (h2.regs _ (noteReg_coreReg core ho ha hb hc))
  have hk3 : SameKeeper core s s3 :=
    (((SameKeeper.refl _ s).put _ _ hstat).trans (h2.sameKeeper core)).trans (s2.flushPend_sameKeeper core)
  have hk5 : SameKeeper core s s5 := (hk3.put _ _ hstat).trans (SameKeeper.setCore core s4 (by rfl) (by rfl) (by rfl))
  have hk6 : SameKeeper core s s6 := hk5.trans (.of rfl rfl rfl rfl)
  have hbeats : s4.get (Reg.STEP_STAT core) Fld.STEP_STAT.beats = beats % 2 ^ 32 :=
    calc s4.get (Reg.STEP_STAT core) Fld.STEP_STAT.beats
        = s3.get (Reg.STEP_STAT core) Fld.STEP_STAT.beats := State.get_put_other _ _ _ _ _ (by decide)
      _ = s1.get (Reg.STEP_STAT core) Fld.STEP_STAT.beats := congrArg Fld.STEP_STAT.beats.get (same (off := 0xA20) (by decide) (by decide))
      _ = beats % 2 ^ 32 := State.get_put_same _ _ _ _ (by decide)
  have hin : s4.inStep core = false := by
    rw [State.inStep, State.get_put_same _ _ _ _ (by decide)]
    rfl
  have hready : s4.reg (Reg.STEP_REC core 0) = s.reg (Reg.STEP_REC core 0) :=
    calc s4.reg (Reg.STEP_REC core 0)
        = s3.reg (Reg.STEP_REC core 0) := State.reg_put_ne _ _ _ hrec
      _ = s1.reg (Reg.STEP_REC core 0) := same (off := 0xA40) (by decide) (by decide)
      _ = s.reg (Reg.STEP_REC core 0) := State.reg_put_ne _ _ _ hrec
  have hmem : s6.mem = s.mem := ((s2.flushPend_changes core).mem).trans h2.changes.mem
  have hecc : s6.ecc = s.ecc := ((s2.flushPend_changes core).ecc).trans h2.changes.ecc
  have hcore : (s6.core core).readyFor = some (s.reg (Reg.STEP_REC core 0)).toNat := by
    rw [← hready]
    exact congrArg Core.readyFor (State.core_setCore_same s4 core _)
  have hd : s6.reg (Reg.STEP_STAT core) = s4.reg (Reg.STEP_STAT core) := State.reg_congr rfl _
  have h6 : StepDone core s s6 := ⟨hk6, (congrArg Fld.STEP_STAT.beats.get hd).trans hbeats, 
    (congrArg (fun w => Fld.STEP_STAT.in_step.get w == 1) hd).trans hin, hcore, hmem, hecc⟩
  exact h6.ite (h6.held _ _)

end Sys2Proof.Machine
end

section
/-! SUPPORT. What KSTEPW, KDONE and KSEL do (R198 to R202), and the obligation on steps in a core. -/

namespace Sys2Proof.Machine

section Steps

variable {core : Fin 256} {s : State} {i len : Nat}

/-! ### The commands -/

theorem exec_kstepw_begins {r : List Word} (h : CustomAt s core .kstepw i len) (hin : (s.fetch core).1.inStep core = false)
    (hr : (s.core core).nextRec = some r) :
    exec (.kstepw core) s = .next ((s.fetch core).1.stepBegin core (rdOf i) (s.kpc core + len) r) := by
  show Host.Outcome.next (s.onCustom core .kstepw _) = _
  rw [h.onCustom]
  simp only [hin, (s.fetch_notes core).core, hr, Bool.false_eq_true, if_false]

theorem exec_kstepw_waits (h : CustomAt s core .kstepw i len) (hin : (s.fetch core).1.inStep core = false)
    (hr : (s.core core).nextRec = none) (hh : (s.core core).haltReq = false) :
    exec (.kstepw core) s = .next (((s.fetch core).1.stall core (.kstepw (rdOf i))).holdOn (recordReq core)) := by
  have hc := (s.fetch_notes core).core core
  have hw : (((s.fetch core).1.stall core (.kstepw (rdOf i))).core core).kwait = .kstepw (rdOf i) := by
    rw [State.stall_core _ (by rw [hc, hh])]
  show Host.Outcome.next (s.onCustom core .kstepw _) = _
  rw [h.onCustom]
  simp only [hin, hc, hr, hw, Bool.false_eq_true, if_false, reduceCtorEq]

theorem exec_kstepw_inStep (h : CustomAt s core .kstepw i len) (hin : (s.fetch core).1.inStep core = true) :
    exec (.kstepw core) s = .next ((s.fetch core).1.kstop core 0x3801) := by
  show Host.Outcome.next (s.onCustom core .kstepw _) = _
  rw [h.onCustom]
  simp only [hin, if_true]

theorem exec_kstepwComplete {rd : Nat} {r : List Word} (hw : (s.core core).kwait = .kstepw rd) (hr : (s.core core).nextRec = some r)
    (hb : s.inBeat core = true) (hl : ∀ m < 256, s.lacksRecord m = false) :
    exec (.kstepwComplete core) s = .next (s.stepBegin core rd (s.pcAfter core) r) := by
  have ha : (List.range 256).any s.lacksRecord = false := List.any_eq_false.mpr fun m hm => by simp [hl m (List.mem_range.mp hm)]
  show execKstepwComplete core s = _
  simp only [execKstepwComplete, hw, hr, hb, ha, Bool.not_false, and_self, if_true]

theorem exec_kdone (h : CustomAt s core .kdone i len) :
    exec (.kdone core) s = .next (if (s.fetch core).1.inStep core then (s.fetch core).1.stall core (.kdone (s.beatOf core))
      else (s.fetch core).1.kstop core 0x3801) := by
  show Host.Outcome.next (s.onCustom core .kdone _) = _
  rw [h.onCustom, (s.fetch_notes core).beatOf]
  cases (s.fetch core).1.inStep core <;> rfl

/-! ### KSEL -/

theorem exec_ksel_none {cls : Nat} (h : CustomAt s core .ksel i len) (hd : (s.fetch core).1.kdue core ((s.fetch core).1.lat 17) = true)
    (hcls : ((s.fetch core).1.reg (Reg.STEP_REC core 1)).toNat % 2 ^ 32 = cls)
    (hc : (s.fetch core).1.get (Reg.MENU_BASE core) Fld.MENU_BASE.count ≤ cls) :
    exec (.ksel core) s = .next ((s.fetch core).1.kstop core 0x3805) := by
  show Host.Outcome.next (s.onCustom core .ksel _) = _
  rw [h.onCustom]
  simp only [hd, hcls, hc, Bool.not_true, Bool.false_eq_true, if_false, if_true]

theorem exec_ksel_entry {cls base : Nat} (h : CustomAt s core .ksel i len)
    (hd : (s.fetch core).1.kdue core ((s.fetch core).1.lat 17) = true)
    (hcls : ((s.fetch core).1.reg (Reg.STEP_REC core 1)).toNat % 2 ^ 32 = cls)
    (hbase : (s.fetch core).1.get (Reg.MENU_BASE core) Fld.MENU_BASE.base = base)
    (hc : cls < (s.fetch core).1.get (Reg.MENU_BASE core) Fld.MENU_BASE.count) {u : State}
    (hl : (s.fetch core).1.keeperLines core (dmemAddr core (base + 32 * cls)) 32 = (u, false))
    (he : leNat ((s.fetch core).1.bytes (dmemAddr core (base + 32 * cls)) 4) = cls) :
    exec (.ksel core) s = .next ((u.setCore core { u.core core with
        menu := some (leNat ((s.fetch core).1.bytes (dmemAddr core (base + 32 * cls) + 4) 4)) }).retire core (rdOf i)
      (some (BitVec.ofNat 32 (0x10000 + base + 32 * cls))) (s.kpc core + len)) := by
  show Host.Outcome.next (s.onCustom core .ksel _) = _
  rw [h.onCustom]
  simp only [hd, hcls, hbase, Nat.not_le_of_lt hc, hl, he, ne_eq, not_true_eq_false, Bool.not_true, Bool.false_eq_true, if_false]

/-! ### What a step leaves to see -/

theorem StepBegun.of_notes {rd pc : Nat} {r : List Word} {u t : State} (hn : Notes s u) (hb : s.inBeat core = true)
    (h : StepBegun core rd pc r u t) : StepBegun core rd pc r s t :=
  ⟨(hn.sameKeeper core).retired hb h.retired, h.record, h.inStep, h.next, h.beat0.trans (hn.beatOf core), h.hold⟩

theorem Retired.kx {rd pc : Nat} {w : W32} {t : State} (h : Retired core rd (some w) pc s t) (h0 : rd ≠ 0)
    (hl : rd < (s.core core).x.length) : t.kx core rd = w := by
  obtain ⟨hx, -⟩ := h
  simp only [State.kx, hx, h0, if_false]
  simp [hl]

/-- The KDONE that ends a step retires, and what it leaves of the step stays. -/
theorem StepDone.retires {u : State} (h : StepDone core s u) (hb : s.inBeat core = true) :
    Retired core 0 none (s.pcAfter core) s (u.retire core 0 none (u.pcAfter core)) ∧
    (u.retire core 0 none (u.pcAfter core)).reg (Reg.STEP_STAT core) = u.reg (Reg.STEP_STAT core) ∧
    ((u.retire core 0 none (u.pcAfter core)).core core).readyFor = (u.core core).readyFor := by
  rw [State.pcAfter_congr h.keeper.kpc h.mem h.ecc]
  exact ⟨h.keeper.retired hb (State.retire_retired u core _ _ _),
    State.retire_sameRegs u core _ _ _ _ (coreReg_not_coreShown core (off := 0xA20) (by decide) (by decide)),
    (congrArg Core.readyFor (u.retire_core core 0 none _)).trans rfl⟩

/-- The keeper of a core that has begun to wait stands otherwise. -/
theorem State.stall_sameKeeper (s : State) (core : Fin 256) (w : KWait) (h : (s.core core).haltReq = false) :
    SameKeeper core s (s.stall core w) := by
  rw [State.stall_waits w h]
  exact (SameKeeper.setCore _ _ (by rfl) (by rfl) (by rfl)).trans (State.refresh_sameKeeper _ _)

theorem State.holdOn_core (s : State) (h : HoldReq) (n : Nat) : (s.holdOn h).core n = s.core n :=
  State.core_congr (State.holdOn_changes s h).cores n

theorem State.holdOn_kpc (s : State) (h : HoldReq) (core : Fin 256) : (s.holdOn h).kpc core = s.kpc core := by
  have hne : Reg.KEEP_PC core ≠ Reg.PACE_HOLD_CNT := (Nat.lt_of_lt_of_le (coreReg_belowPace core (by decide)) (by decide)).ne
  exact congrArg Fld.KEEP_PC.pc.get (s.holdOn_regs h _ (by simpa using hne))

end Steps

/-! ### The obligation -/

/-- Settles O22: by what the start and the end of a step leave, and by what each command comes to where it begins, waits and completes. -/
theorem stepsInCore : Obligations.StepsInCore := by
  unfold Obligations.StepsInCore
  refine ⟨fun core s => ⟨fun i len hk hin => ⟨fun r hr => ?_, fun hr hh => ?_⟩, fun i len hk hin => ?_, fun rd r hw hr hb hl => ?_⟩,
    fun core s => ⟨fun i len hk => ⟨fun hin hh => ?_, fun hin => ?_⟩, fun since hw hb hi hl => ?_, fun i len hk => ⟨fun hd hc hl he => ?_,
      fun hd hc => ?_⟩⟩⟩
  · have hb := State.keeperRuns_inBeat hk.runs
    obtain ⟨hret, hrec, hstep, hnext, hbeat, -⟩ := (State.stepBegin_begun (s := (s.fetch core).1) core (rdOf i) (s.kpc core + len) r
      (State.fetch_inBeat hk.runs)).of_notes (s.fetch_notes core) hb
    have ⟨_, hpc, hinst, _⟩ := hret
    exact Gives.intro (exec_kstepw_begins hk hin hr) ⟨hpc, hrec, hstep, hnext, hbeat, hinst, hret.kx⟩
  · have hn := s.fetch_notes core
    have hh' : ((s.fetch core).1.core core).haltReq = false := by rw [hn.core, hh]
    refine Gives.intro (exec_kstepw_waits hk hin hr hh) ⟨?_, (State.mem_holdOn _ _ _).mpr (.inr rfl), ?_⟩
    · rw [State.holdOn_core, State.stall_core _ hh']
    · rw [State.holdOn_kpc, (State.stall_sameKeeper _ core _ hh').kpc, hn.kpc core.isLt]
  · exact Gives.intro (exec_kstepw_inStep hk hin) (hk.1.kstop_faulted 0x3801)
  · obtain ⟨⟨_, hpc, _, _, hwait, _⟩, hrec, hstep, hnext, hbeat, hhold⟩ := State.stepBegin_begun core rd (s.pcAfter core) r hb
    exact Gives.intro (exec_kstepwComplete hw hr hb hl) ⟨hpc, hrec, hstep, hnext, hbeat, hwait, hhold⟩
  · have hn := s.fetch_notes core
    have hh' : ((s.fetch core).1.core core).haltReq = false := by rw [hn.core, hh]
    refine Gives.intro (exec_kdone hk) ?_
    rw [hin, if_pos rfl, State.stall_core _ hh']
    exact ⟨rfl, ((State.stall_sameKeeper _ core _ hh').kpc).trans (hn.kpc core.isLt)⟩
  · refine Gives.intro (exec_kdone hk) ?_
    rw [hin]
    exact hk.1.kstop_faulted 0x3801
  · have hd := s.stepDone_done core
    obtain ⟨⟨_, hpc, hinst, _, hwait, _⟩, hstat, hready⟩ := hd.retires hb
    exact Gives.intro (exec_kdoneComplete hw hb hi hl) ⟨(congrArg Fld.STEP_STAT.beats.get hstat).trans hd.beats,
      (congrArg (fun w => Fld.STEP_STAT.in_step.get w == 1) hstat).trans hd.inStep, hready.trans hd.ready, hwait, hinst, hpc⟩
  · refine Gives.intro (exec_ksel_entry hk hd rfl rfl hc (State.keeperLines_eq hl) he)
      ⟨State.retire_setCore_retired (by rfl) (by rfl) (by rfl) ?_ _ _ _, ?_⟩
    · exact State.inBeat_congr (State.keeperLines_notes _ _ _ _).changes.reaches (State.fetch_inBeat hk.runs)
    · rw [State.retire_core, State.core_setCore_same]
      rfl
  · exact Gives.intro (exec_ksel_none hk hd rfl hc) (hk.1.kstop_faulted 0x3805)

end Sys2Proof.Machine
end

section
/-! SUPPORT. Narrow accesses that wait for their bank or port (R250), and the obligation on them. -/

namespace Sys2Proof.Machine

/-! ### The keeper's access -/

theorem State.takeNarrow_instret (s : State) (n a m : Nat) : ((s.takeNarrow n a).core m).instret = (s.core m).instret := by
  have set (k : Nat) (c : Core) (hc : c.instret = (s.core k).instret) : ((s.setCore k c).core m).instret = (s.core m).instret := by
    by_cases h : m = k
    · rw [h, State.core_setCore_same, hc]
    · rw [State.core_setCore_ne _ _ h]
  by_cases h1 : memKind a = .basin
  · rw [s.takeNarrow_basin _ h1]
    exact set _ _ rfl
  · by_cases h2 : memKind a = .ocache
    · rw [s.takeNarrow_ocache _ h2]
      exact set _ _ rfl
    · rw [s.takeNarrow_other _ h1 h2]

/-- The keeper's access goes first: it is made where it is due and free, and it changes the core. -/
theorem exec_narrowAccessServe_keeper {core : Fin 256} {s : State} {op : NarrowOp} {nb : Nat} (hb : s.inBeat core = true)
    (hn : nb ≤ s.beatOf core) (hw : (s.core core).kwait = .narrow op nb) (hf : s.narrowFree core op.next = true)
    (hi : ((s.narrowStep core (s.pcAfter core) op).core core).instret = (s.core core).instret + 1) :
    exec (.narrowAccessServe core) s = .next (s.narrowStep core (s.pcAfter core) op) := by
  have hk : s.keeperNarrow core = s.narrowStep core (s.pcAfter core) op := by
    simp only [State.keeperNarrow, hw, hb, hn, hf, and_self, if_true]
  have hne : s.keeperNarrow core ≠ s := by
    intro h
    rw [← hk, h] at hi
    omega
  show execNarrowAccessServe core s = _
  simp only [execNarrowAccessServe, hw, beq_iff_eq, hne, if_false]
  rw [hk]

/-! ### The access of the register path -/

/-- The oldest access of the register path is made where the keeper has none. -/
theorem exec_narrowAccessServe_path {core : Fin 256} {s : State} {p : PathOp} {rest : List PathOp} (hb : s.inBeat core = true)
    (hq : (s.core core).narrowQ = p :: rest) (hw : ∀ op nb, (s.core core).kwait ≠ .narrow op nb) (hf : s.narrowFree core p.addr = true)
    (hd : s.keeperDone core = true) (ha : (s.core core).pathAt ≠ some (s.beatOf core)) : exec (.narrowAccessServe core) s =
      .next ((s.setCore core { s.core core with narrowQ := rest, pathAt := some (s.beatOf core) }).servePath core p) := by
  have hk : execNarrowAccessServe core s = .next (s.pathNarrow core) := by
    unfold execNarrowAccessServe
    split
    · exact absurd ‹_› (hw _ _)
    · rfl
  refine hk.trans (congrArg Host.Outcome.next ?_)
  have hc : (s.inBeat core && s.narrowFree core p.addr && s.keeperDone core && (s.core core).pathAt != some (s.beatOf core)) = true := by
    simp [hb, hf, hd, ha]
  unfold State.pathNarrow
  rw [hq]
  exact if_pos hc

/-- A write of bytes of a line changes a core in the writes it defers. -/
theorem State.storeBytes_core (s : State) (rank a : Nat) (bs : List Byte) (n : Nat) :
    ∃ l, (s.storeBytes rank a bs).core n = { s.core n with later := l } := by
  unfold State.storeBytes State.lineWrite
  dsimp only
  split
  · by_cases h : n = lineOf a / 0x4000000
    · subst h
      exact ⟨_, State.core_setCore_same _ _ _⟩
    · exact ⟨(s.core n).later, State.core_setCore_ne _ _ h⟩
  · exact ⟨(s.core n).later, State.core_congr (State.mergeLine_changes _ _ _ _ _).cores n⟩

/-- What an access that no one waits for leaves in a core: the bank or port is taken, and a write may be deferred. -/
theorem State.servePath_core (s : State) (n : Nat) {p : PathOp} (ha : p.asker = .none) (m : Nat) :
    ∃ l, (s.servePath n p).core m = { (s.takeNarrow n p.addr).core m with later := l } := by
  unfold State.servePath
  rw [ha]
  cases p.val with
  | some v =>
    obtain ⟨l, hl⟩ := ((s.takeNarrow n p.addr).noteStore p.addr 8 (some n)).storeBytes_core 0 p.addr (natLe 8 v.toNat) m
    rw [(State.noteStore_notes _ _ _ _).core] at hl
    exact ⟨l, hl⟩
  | none => exact ⟨((s.takeNarrow n p.addr).core m).later, (State.noteLines_notes _ _ _ _ _).core m⟩

/-- An access that reads leaves every byte. -/
theorem State.servePath_bytes (s : State) (n : Nat) {p : PathOp} (ha : p.asker = .none) (hv : p.val = none) :
    SameBytes s (s.servePath n p) := by
  unfold State.servePath
  rw [ha, hv]
  have hk := s.takeNarrow_changes n p.addr
  exact fun b => ((State.noteLines_notes _ _ _ _ _).byte b).trans (State.byte_congr hk.mem hk.ecc b)

/-- A bank or port is taken as in a core that differs elsewhere. -/
theorem State.takeNarrow_setCore (s : State) {n a : Nat} (hn : a / 0x4000000 = n) {c : Core} (hb : c.banks = (s.core n).banks)
    (hp : c.narrowAt = (s.core n).narrowAt) :
    (((s.setCore n c).takeNarrow n a).core n).banks = ((s.takeNarrow n a).core n).banks ∧
    (((s.setCore n c).takeNarrow n a).core n).narrowAt = ((s.takeNarrow n a).core n).narrowAt ∧
    (((s.setCore n c).takeNarrow n a).core n).narrowQ = c.narrowQ := by
  subst hn
  by_cases h1 : memKind a = .basin
  · simp only [State.takeNarrow_basin _ _ h1, State.core_setCore_same, hb, hp, and_self]
  · by_cases h2 : memKind a = .ocache
    · simp only [State.takeNarrow_ocache _ _ h2, State.core_setCore_same, hb, true_and, and_true]
      rfl
    · simp only [State.takeNarrow_other _ _ h1 h2, State.core_setCore_same, hb, hp, and_self]

/-! ### The obligation -/

/-- The instruction of a load that waited retires with its bytes (R194). -/
theorem State.loadDone_retires {s : State} (core : Fin 256) {rd a f3 : Nat} (pc : Nat) (h : (s.keeperLines core a (sizeOf3 f3)).2 = false) :
    Retired core rd (some (loadVal f3 (s.bytes a (sizeOf3 f3)))) pc (s.keeperLines core a (sizeOf3 f3)).1 (s.loadDone core rd a f3 pc) ∧
    SameBytes s (s.loadDone core rd a f3 pc) ∧ ((s.loadDone core rd a f3 pc).core core).banks = (s.core core).banks ∧
    ((s.loadDone core rd a f3 pc).core core).narrowAt = (s.core core).narrowAt := by
  have hn := s.keeperLines_notes core a (sizeOf3 f3)
  rw [State.loadDone_eq, h, if_neg (by decide)]
  refine ⟨State.retire_retired _ core _ _ _, fun b => (State.retire_byte _ _ _ _ _ _).trans (hn.byte b), ?_, ?_⟩ <;>
    rw [State.retire_core, hn.core] <;> rfl

/-- Settles O23: the keeper's access first, by what a load or store that is made leaves; then that of the register path. -/
theorem narrowAccess : Obligations.NarrowAccess := by
  unfold Obligations.NarrowAccess
  refine fun core s hb => ⟨?_, ?_, ?_⟩
  · intro nb rd a f3 hn hw hf v w hl
    have hk : Changes [.cores] s v := s.takeNarrow_changes core a
    obtain ⟨hret, hsame, hbank, hat⟩ := State.loadDone_retires (s := v) core (rd := rd) (s.pcAfter core) hl
    have hbytes : v.bytes a (sizeOf3 f3) = s.bytes a (sizeOf3 f3) := State.bytes_congr hk.mem hk.ecc _ _
    have ⟨_, _, hi, _⟩ := hret
    refine Gives.intro (exec_narrowAccessServe_keeper hb hn hw hf (hi.trans ?_)) ⟨hbytes ▸ hret, fun b => ?_, hbank, hat⟩
    · rw [(State.keeperLines_notes v core a _).core, s.takeNarrow_instret]
    · exact (hsame b).trans (State.byte_congr hk.mem hk.ecc b)
  · intro nb a size x hn hw hf hwf hfit hs hdiv hkind v
    have hk : Changes [.cores] s v := s.takeNarrow_changes core a
    have hnote : Notes v (v.noteStore a size (some core)) := State.noteStore_notes _ _ _ _
    obtain ⟨u, hst, he, hret, -⟩ := State.storeDone_retires (hk.wf hwf) core x (s.pcAfter core) hdiv hfit (State.inBeat_congr hk.reaches hb)
      (fun hbad => hkind hbad.2)
    obtain ⟨hnow, hwait⟩ := hst.retired (s.pcAfter core)
    rw [← he, length_natLe] at hnow hwait
    have hdef : (v.noteStore a size (some core)).defers (lineOf a) = s.defers (lineOf a) :=
      State.defers_congr (hnote.changes.reaches.trans hk.reaches) _
    have hbyte (b : Nat) : (v.noteStore a size (some core)).byte b = s.byte b := (hnote.byte b).trans (State.byte_congr hk.mem hk.ecc b)
    have hcore : (u.core core).banks = (v.core core).banks ∧ (u.core core).narrowAt = (v.core core).narrowAt := by
      rw [hst.core, ← hnote.core core]
      split <;> exact ⟨rfl, rfl⟩
    have ⟨_, _, hi, _⟩ := hret
    refine Gives.intro (exec_narrowAccessServe_keeper hb hn hw hf (hi.trans ?_)) ⟨hret, ?_, ?_, fun hd => ?_, fun hd => ?_⟩
    · rw [hnote.core, s.takeNarrow_instret]
    · show ((v.storeDone core a size x _).core core).banks = _
      rw [he, State.retire_core, ← hcore.1]
      rfl
    · show ((v.storeDone core a size x _).core core).narrowAt = _
      rw [he, State.retire_core, ← hcore.2]
      rfl
    · obtain ⟨hin, hout⟩ := hnow (hdef.trans hd)
      exact ⟨hin, fun b h => (hout b h).trans (hbyte b)⟩
    · exact fun b => ((hwait (hdef.trans hd)).1 b).trans (hbyte b)
  · intro p rest hq hw hf hd ha hdiv hask v
    obtain ⟨l, hserve⟩ := State.servePath_core (s.setCore core { s.core core with narrowQ := rest, pathAt := some (s.beatOf core) }) core hask core
    obtain ⟨hbank, hat, hrest⟩ := s.takeNarrow_setCore hdiv (c := { s.core core with narrowQ := rest, pathAt := some (s.beatOf core) }) rfl rfl
    refine Gives.intro (exec_narrowAccessServe_path hb hq hw hf hd ha) ⟨?_, ?_, ?_, fun hv b => ?_⟩
    · rw [hserve]; exact hrest
    · rw [hserve]; exact hbank
    · rw [hserve]; exact hat
    · exact (State.servePath_bytes _ _ hask hv b).trans (State.byte_congr rfl rfl b)

end Sys2Proof.Machine
end

section
/-! SUPPORT. Program start (R189, R195, R364, R406): what it leaves of registers, cores, reaches and the fabric. -/

namespace Sys2Proof.Machine

/-! ### Folds over the cores of the die -/

theorem State.foldl_reg {α : Type} {f : State → α → State} {a : Nat} (l : List α) (h : ∀ t, ∀ x ∈ l, (f t x).reg a = t.reg a) (s : State) :
    (l.foldl f s).reg a = s.reg a := by
  induction l generalizing s with
  | nil => rfl
  | cons x l ih =>
    rw [List.foldl_cons, ih (fun t y hy => h t y (List.mem_cons_of_mem x hy))]
    exact h s x List.mem_cons_self

/-- An operation on each core that changes that core alone changes each core once. -/
theorem State.foldl_core {f : State → Nat → State} {g : Core → Core} (hs : ∀ t n, (f t n).core n = g (t.core n))
    (hn : ∀ t n m, m ≠ n → (f t n).core m = t.core m) {l : List Nat} (hl : l.Nodup) (s : State) (m : Nat) :
    (l.foldl f s).core m = if m ∈ l then g (s.core m) else s.core m := by
  induction l generalizing s with
  | nil => rfl
  | cons x l ih =>
    obtain ⟨hx, hl⟩ := List.nodup_cons.mp hl
    rw [List.foldl_cons, ih hl]
    by_cases h : m = x
    · subst h
      rw [if_neg hx, if_pos List.mem_cons_self, hs]
    · simp only [List.mem_cons, h, false_or, hn s x m h]

/-! ### The beats start again (R364) -/

theorem State.flushWrites_core (s : State) (n : Nat) : (s.flushWrites n).core n = { s.core n with later := [] } := by
  unfold State.flushWrites
  dsimp only
  split
  · next h => rw [← List.isEmpty_iff.mp h]
  · exact (State.core_congr (Changes.foldl (Changes.refl [.mem, .ecc] _) fun t w => t.mergeLine_changes _ _ _ _).cores n).trans
      (State.core_setCore_same _ _ _)

theorem State.flushWrites_core_ne (s : State) {n m : Nat} (h : m ≠ n) : (s.flushWrites n).core m = s.core m := by
  unfold State.flushWrites
  dsimp only
  split
  · rfl
  · exact (State.core_congr (Changes.foldl (Changes.refl [.mem, .ecc] _) fun t w => t.mergeLine_changes _ _ _ _).cores m).trans
      (State.core_setCore_ne _ _ h)

theorem State.flushAll_core (s : State) {m : Nat} (hm : m < 256) :
    ((List.range 256).foldl State.flushWrites s).core m = { s.core m with later := [] } := by
  rw [State.foldl_core (g := fun c => { c with later := [] }) (fun t n => t.flushWrites_core n) (fun t n m h => t.flushWrites_core_ne h)
    List.nodup_range, if_pos (List.mem_range.mpr hm)]

/-- Reach `r` at beat 0, begun now. -/
def Reach.restarted (x : Reach) (now : Nat) : Reach := { x with beat := 0, tokenAt := now, ticked := false, complete := false, withheld := false }

/-- The first `k` reaches restarted. -/
def State.restartReaches (s : State) (k : Nat) : State :=
  (List.range k).foldl (fun t r => t.setReach r ((t.reach r).restarted t.now)) s

theorem State.restartBeats_eq (s : State) : s.restartBeats = (s.unmarked.restartReaches 16).put Reg.PACE_BEAT Fld.PACE_BEAT.die_beat 0 := rfl

theorem State.restartReaches_changes (s : State) (k : Nat) : Changes [.reaches] s (s.restartReaches k) :=
  Changes.foldl (Changes.refl _ _) fun t r => t.setReach_changes r _

theorem State.restartReaches_reach (s : State) (k r : Nat) :
    (s.restartReaches k).reach r = if r < k then (s.reach r).restarted s.now else s.reach r := by
  induction k with
  | zero => rfl
  | succ k ih =>
    have hn := (s.restartReaches_changes k).now
    have hs : s.restartReaches (k + 1) = (s.restartReaches k).setReach k (((s.restartReaches k).reach k).restarted (s.restartReaches k).now) := by
      rw [State.restartReaches, List.range_succ, List.foldl_append]
      rfl
    rw [hs, hn]
    by_cases e : r = k
    · subst e
      rw [State.reach_setReach_same, ih, if_neg (by omega), if_pos (by omega)]
    · rw [State.reach_setReach_ne _ _ e, ih]
      exact if_congr (by omega) rfl rfl

theorem State.restartBeats_reach (s : State) {r : Nat} (h : r < 16) : s.restartBeats.reach r = (s.reach r).restarted s.now := by
  rw [State.restartBeats_eq, State.reach_congr (State.put_reaches _ _ _ _), State.restartReaches_reach, if_pos h]
  rfl

theorem State.restartBeats_regs (s : State) : SameRegs [Reg.PACE_BEAT] s s.restartBeats := by
  rw [State.restartBeats_eq]
  exact (SameRegs.ofRegs (s.unmarked.restartReaches_changes 16).regs).trans (State.put_sameRegs _ _ _ _)

/-! ### Counters -/

/-- A counter that program start clears (R364). -/
def countReg (a : Nat) : Bool :=
  decide (a < 0x400000000) && [0x6A0400, 0x6A0408, 0x6A0410, 0x6A0418, 0x6A0800, 0x6A0810].contains (a % 0x4000000)

theorem countReg_coreReg (core : Fin 256) {off : Nat} (ho : off < 0x1000) (h : off ∉ [0x400, 0x408, 0x410, 0x418, 0x800, 0x810]) :
    countReg (coreRegs core + off) = false := by
  have hm := coreReg_mod core ho
  simp only [countReg, hm]
  simp only [List.mem_cons, List.not_mem_nil, or_false, not_or] at h
  simp
  omega

theorem countReg_ctl {a : Nat} (h : 0x400000000 ≤ a) : countReg a = false := by
  simp only [countReg, decide_eq_false (Nat.not_lt_of_le h), Bool.false_and]

theorem countReg_clears (core : Fin 256) {off : Nat} (h : off ∈ [0x400, 0x408, 0x410, 0x418, 0x800, 0x810]) :
    countReg (coreRegs core + off) = true := by
  simp only [List.mem_cons, List.not_mem_nil, or_false] at h
  have ho : off < 0x1000 := by omega
  have hm := coreReg_mod core ho
  simp only [countReg, hm, coreReg_lt core ho]
  simp
  omega

theorem State.clearCounts_reg (s : State) (core : Fin 256) {a : Nat} (h : countReg a = false) : (s.clearCounts core).reg a = s.reg a := by
  have ne {off : Nat} (ho : off ∈ [0x400, 0x408, 0x410, 0x418, 0x800, 0x810]) : a ≠ coreRegs core + off := by
    rintro rfl
    rw [countReg_clears core ho] at h
    cases h
  unfold State.clearCounts
  extract_lets s1 s2
  rw [State.foldl_reg]
  · exact (State.reg_put_ne _ _ _ (ne (by decide))).trans (State.reg_put_ne _ _ _ (ne (by decide)))
  · intro t sl hsl
    refine State.reg_put_ne _ _ _ ?_
    rw [Reg.SLUICE_STAT, Nat.add_assoc]
    refine ne ?_
    have := List.mem_range.mp hsl
    interval_cases sl <;> decide

end Sys2Proof.Machine
end

section
/-! SUPPORT. The die that program start has made ready, the cores that it starts, and the registers they keep. -/

namespace Sys2Proof.Machine

theorem smFind_map {α β : Type} (m : SMap α) (f : α → β) (k : Nat) : smFind (m.map fun e => (e.1, f e.2)) k = (smFind m k).map f := by
  induction m with
  | nil => rfl
  | cons e m ih =>
    simp only [List.map_cons, smFind]
    split
    · rfl
    · exact ih

/-! ### The die made ready (R364, R406, R521) -/

/-- Program start before its cores start. -/
def State.programReady (s : State) : State :=
  let s := ((List.range 256).foldl State.flushWrites s).restartBeats
  let s := s.setReg Reg.DTRM_STAT 0
  let s := (List.range 256).foldl State.clearCounts s
  let s := s.put Reg.FABR_STEP_STAT Fld.FABR_STEP_STAT.aligned 1
  s.restartMesh.firstStep.firstRecord.atWork

theorem State.startProgram_eq (s : State) :
    s.startProgram = ((List.range 256).filter fun n => s.coreState n == stLoaded).foldl State.startCore s.programReady := rfl

/-- Registers that program start sets, the cores' own shows apart. -/
def startReg (a : Nat) : Bool := countReg a || [Reg.PACE_BEAT, Reg.DTRM_STAT, Reg.FABR_STEP_STAT].contains a

theorem startReg_coreReg (core : Fin 256) {off : Nat} (ho : off < 0x1000) (h : off ∉ [0x400, 0x408, 0x410, 0x418, 0x800, 0x810]) :
    startReg (coreRegs core + off) = false := by
  have hlt := coreReg_lt core ho
  have h1 : coreRegs core + off ≠ Reg.PACE_BEAT := (Nat.lt_of_lt_of_le hlt (by decide)).ne
  have h2 : coreRegs core + off ≠ Reg.DTRM_STAT := (Nat.lt_of_lt_of_le hlt (by decide)).ne
  have h3 : coreRegs core + off ≠ Reg.FABR_STEP_STAT := (Nat.lt_of_lt_of_le hlt (by decide)).ne
  simp [startReg, countReg_coreReg core ho h, h1, h2, h3]

/-- A core whose narrow port and register path are free again. -/
def Core.portFreed (c : Core) : Core := { c with narrowAt := none, pathAt := none }

theorem State.restartMesh_core (s : State) (n : Nat) :
    s.restartMesh.core n = { s.core n with narrowAt := none, pathAt := none } := by
  have h : smFind s.restartMesh.cores n = (smFind s.cores n).map Core.portFreed :=
    smFind_map s.cores Core.portFreed n
  rw [State.core, State.core, smGet, smGet, h]
  cases smFind s.cores n <;> rfl

theorem State.firstRecord_oldest (s : State) : s.firstRecord.fabric.oldest = s.fabric.oldest := by
  unfold State.firstRecord
  split <;> rfl

theorem State.firstStep_oldest (s : State) : s.firstStep.fabric.oldest = s.get Reg.FABR_STEP Fld.FABR_STEP.step + 1 := by
  unfold State.firstStep
  extract_lets t f
  split
  · assumption
  · rfl

/-- What the die is when its cores start. -/
structure ProgramReady (s t : State) : Prop where
  core    : ∀ n < 256, t.core n = { s.core n with later := [], narrowAt := none, pathAt := none }
  reg     : ∀ a, startReg a = false → t.reg a = s.reg a
  reach   : ∀ r < 16, t.reach r = (s.reach r).restarted s.now
  stat    : t.reg Reg.DTRM_STAT = 0
  aligned : t.get Reg.FABR_STEP_STAT Fld.FABR_STEP_STAT.aligned = 1
  oldest  : t.fabric.oldest = s.get Reg.FABR_STEP Fld.FABR_STEP.step + 1
  quiet   : t.idle.quiet = none

theorem State.programReady_ready (s : State) : ProgramReady s s.programReady := by
  unfold State.programReady
  extract_lets s1 s2 s3 s4
  have hf : Changes [.mem, .ecc, .cores] s ((List.range 256).foldl State.flushWrites s) :=
    Changes.foldl (Changes.refl _ _) fun t n => t.flushWrites_changes n
  have hc3 : Changes [.regs] s2 s3 := Changes.foldl (Changes.refl _ _) fun t n => t.clearCounts_changes n
  have hc4 : Changes [.regs] s1 s4 := ((s1.setReg_changes _ _).trans hc3).trans (s3.put_changes _ _ _)
  have htail : Changes [.fabric, .idle] s4.restartMesh s4.restartMesh.firstStep.firstRecord.atWork :=
    (((s4.restartMesh.firstStep_changes).widen rfl).trans ((State.firstRecord_changes _).widen rfl)).trans ((State.atWork_changes _).widen rfl)
  have hregs : s4.restartMesh.firstStep.firstRecord.atWork.regs = s4.regs := htail.regs.trans s4.restartMesh_changes.regs
  have hreaches : s4.restartMesh.firstStep.firstRecord.atWork.reaches = s1.reaches :=
    htail.reaches.trans (s4.restartMesh_changes.reaches.trans hc4.reaches)
  have hclear {a : Nat} (h : countReg a = false) : s3.reg a = s2.reg a :=
    State.foldl_reg _ (fun t n hn => t.clearCounts_reg ⟨n, List.mem_range.mp hn⟩ h) _
  have hreg (a : Nat) (h : startReg a = false) : s4.reg a = s.reg a := by
    simp only [startReg, Bool.or_eq_false_iff, List.contains_eq_mem, List.mem_cons, List.not_mem_nil, or_false, decide_eq_false_iff_not,
      not_or] at h
    obtain ⟨hcount, hbeat, hstat, hstep⟩ := h
    calc s4.reg a
        = s3.reg a := State.reg_put_ne _ _ _ hstep
      _ = s2.reg a := hclear hcount
      _ = s1.reg a := State.reg_setReg_ne _ _ hstat
      _ = ((List.range 256).foldl State.flushWrites s).reg a := State.restartBeats_regs _ a (by simpa using hbeat)
      _ = s.reg a := State.reg_congr hf.regs a
  refine ⟨fun n hn => ?_, fun a ha => (State.reg_congr hregs a).trans (hreg a ha), fun r hr => ?_, ?_, ?_, ?_, rfl⟩
  · rw [State.core_congr htail.cores, State.restartMesh_core, State.core_congr hc4.cores,
      State.core_congr (State.restartBeats_changes _).cores, State.flushAll_core s hn]
  · rw [State.reach_congr hreaches, State.restartBeats_reach _ hr, State.reach_congr hf.reaches, hf.now]
  · rw [State.reg_congr hregs]
    calc s4.reg Reg.DTRM_STAT
        = s3.reg Reg.DTRM_STAT := State.reg_put_ne _ _ _ (by decide)
      _ = s2.reg Reg.DTRM_STAT := hclear (by decide)
      _ = 0 := State.reg_setReg_same _ _ _
  · rw [State.get_congr hregs]
    exact State.get_put_same _ _ _ _ (by decide)
  · calc s4.restartMesh.firstStep.firstRecord.atWork.fabric.oldest
        = s4.restartMesh.firstStep.firstRecord.fabric.oldest := by rw [(State.atWork_changes _).fabric]
      _ = s4.restartMesh.firstStep.fabric.oldest := State.firstRecord_oldest _
      _ = s4.restartMesh.get Reg.FABR_STEP Fld.FABR_STEP.step + 1 := State.firstStep_oldest _
      _ = s4.get Reg.FABR_STEP Fld.FABR_STEP.step + 1 := by rw [State.get_congr s4.restartMesh_changes.regs]
      _ = s.get Reg.FABR_STEP Fld.FABR_STEP.step + 1 := congrArg (Fld.FABR_STEP.step.get · + 1) (hreg _ (by decide))

/-! ### A core starts (R189, R195, R204) -/

/-- The registers of a core that starts its program. -/
def startX (v vgrid : Nat) : List W32 := ((List.replicate 32 0).set 10 (BitVec.ofNat 32 v)).set 11 (BitVec.ofNat 32 vgrid)

/-- The core whose window a register of a core lies in. -/
theorem State.startCore_reg (s : State) (core : Fin 256) {a : Nat} (h : a / 0x4000000 ≠ core) : (s.startCore core).reg a = s.reg a := by
  have ne {off : Nat} (ho : off < 0x1000) : a ≠ coreRegs core + off := fun e => h (e ▸ coreReg_div core ho)
  have hr : a ∉ refreshed core := by
    simp only [refreshed, List.mem_cons, List.not_mem_nil, or_false, not_or]
    exact ⟨ne (by decide), ne (by decide), ne (by decide), ne (by decide), ne (by decide)⟩
  unfold State.startCore
  extract_lets c v x s1
  exact ((State.refresh_refreshed _ _ _ hr).trans (State.reg_put_ne _ _ _ (ne (by decide)))).trans
    ((State.reg_put_ne _ _ _ (ne (by decide))).trans (State.reg_congr (State.setCore_regs _ _ _) _))

theorem State.startCore_core_ne (s : State) {n m : Nat} (h : m ≠ n) : (s.startCore n).core m = s.core m :=
  (State.core_refresh _ _ _).trans (State.core_setCore_ne _ _ h)

/-- What a core is that has started. -/
structure CoreStarted (core : Fin 256) (s t : State) : Prop where
  state   : t.coreState core = stRunning
  kpc     : t.kpc core = s.kpc core
  queues  : (t.core core).queues = List.replicate 8 []
  aFifo   : (t.core core).aFifo = []
  xFifo   : (t.core core).xFifo = []
  instret : (t.core core).instret = 0
  kwait   : (t.core core).kwait = .none
  x       : (t.core core).x = startX ((s.vcoreOf core).getD 0) s.vgrid

theorem State.startCore_started {s : State} (core : Fin 256) (h : s.enabled core = true) : CoreStarted core s (s.startCore core) := by
  unfold State.startCore
  extract_lets c v x s1
  have hc (t : State) (hc : t.cores = s1.cores) : (t.refresh core).core core = s1.core core := by
    rw [State.core_refresh, State.core_congr hc]
  have hk := hc ((s1.put (Reg.CORE_STAT core) Fld.CORE_STAT.state stRunning).put (Reg.CORE_CTRL core) Fld.CORE_CTRL.arm 0) rfl
  have h1 : s1.core core = _ := State.core_setCore_same _ _ _
  rw [h1] at hk
  have hen : s1.enabled core = true := (State.enabled_congr (State.reg_congr (State.setCore_regs _ _ _) _)).trans h
  have hne {off : Nat} (ho : off ≠ 0x10) : Reg.KEEP_PC core ≠ coreRegs core + off := fun e => ho (Nat.add_left_cancel e).symm
  refine ⟨?_, ?_, congrArg Core.queues hk, congrArg Core.aFifo hk, congrArg Core.xFifo hk, congrArg Core.instret hk,
    congrArg Core.kwait hk, congrArg Core.x hk⟩
  · rw [State.coreState_refresh, State.coreState_put_CORE_CTRL, State.coreState_put_state core hen (by decide)]
  · have hpc := (State.refresh_refreshed ((s1.put (Reg.CORE_STAT core) Fld.CORE_STAT.state stRunning).put (Reg.CORE_CTRL core) Fld.CORE_CTRL.arm 0)
      core (Reg.KEEP_PC core) (coreReg_not_refreshed core (by decide))).trans ((State.reg_put_ne _ _ _ (hne (by decide))).trans
        ((State.reg_put_ne _ _ _ (hne (by decide))).trans (State.reg_congr (State.setCore_regs _ _ _) _)))
    exact congrArg Fld.KEEP_PC.pc.get hpc

end Sys2Proof.Machine
end

section
/-! SUPPORT. The cores of a program start one by one (R364), each as if alone; the write of DTRM_CTRL that starts them. -/

namespace Sys2Proof.Machine

/-- A control register lies in no core's window. -/
theorem ctlReg_div {a : Nat} (h : 0x400000000 ≤ a) (core : Fin 256) : a / 0x4000000 ≠ core := by omega

/-- The virtual grid is read from the DTRM block. -/
theorem State.vgrid_congr {s t : State} (h : t.reg Reg.DTRM_GRID = s.reg Reg.DTRM_GRID) : t.vgrid = s.vgrid := congrArg Fld.DTRM_GRID.vgrid.get h

theorem State.vcoreOf_congr {s t : State} (h : t.reg Reg.DTRM_GRID = s.reg Reg.DTRM_GRID)
    (hm : ∀ j, t.reg (Reg.DTRM_VMAP j) = s.reg (Reg.DTRM_VMAP j)) (n : Nat) : t.vcoreOf n = s.vcoreOf n := by
  have hv (v : Nat) : t.vmap v = s.vmap v := congrArg (BitField.get ⟨8 * (v % 8), 8⟩) (hm _)
  simp only [State.vcoreOf, State.vgrid_congr h, hv]

theorem DEV_CORE_MAP_ge (j : Nat) : 0x400000000 ≤ Reg.DEV_CORE_MAP j := by
  simp only [Reg.DEV_CORE_MAP, blockBase]
  omega

theorem DTRM_VMAP_ge (j : Nat) : 0x400102000 ≤ Reg.DTRM_VMAP j := by
  simp only [Reg.DTRM_VMAP, blockBase]
  omega

/-! ### Each core starts as if alone -/

/-- The state of a core depends on its CORE_STAT and on the core map. -/
theorem State.coreState_of_regs {s t : State} {n : Nat} (hm : t.reg (Reg.DEV_CORE_MAP (n / 64)) = s.reg (Reg.DEV_CORE_MAP (n / 64)))
    (hs : t.reg (Reg.CORE_STAT n) = s.reg (Reg.CORE_STAT n)) : t.coreState n = s.coreState n := by
  rw [State.coreState, State.enabled_congr hm, State.get, hs, ← State.get, ← State.coreState]

namespace CoreStarted

variable {core : Fin 256} {s t u : State}

/-- What leaves the core and its registers leaves it started. -/
theorem keep (h : CoreStarted core s t) (hc : u.core core = t.core core) (hw : ∀ a : Nat, a / 0x4000000 = core → u.reg a = t.reg a)
    (hm : u.reg (Reg.DEV_CORE_MAP (core / 64)) = t.reg (Reg.DEV_CORE_MAP (core / 64))) : CoreStarted core s u := by
  obtain ⟨hst, hk, hq, ha, hx, hi, hw', hr⟩ := h
  rw [← hc] at hq ha hx hi hw' hr
  exact ⟨(State.coreState_of_regs hm (hw (Reg.CORE_STAT core) (coreReg_div core (off := 0x8) (by decide)))).trans hst,
    (congrArg Fld.KEEP_PC.pc.get (hw (Reg.KEEP_PC core) (coreReg_div core (off := 0x10) (by decide)))).trans hk, hq, ha, hx, hi, hw', hr⟩

/-- A core has started from every state with the same pc and the same virtual grid. -/
theorem of_same (h : CoreStarted core t u) (hp : t.kpc core = s.kpc core) (hg : t.reg Reg.DTRM_GRID = s.reg Reg.DTRM_GRID)
    (hm : ∀ j, t.reg (Reg.DTRM_VMAP j) = s.reg (Reg.DTRM_VMAP j)) : CoreStarted core s u := by
  obtain ⟨hst, hk, hq, ha, hx, hi, hw, hr⟩ := h
  exact ⟨hst, hk.trans hp, hq, ha, hx, hi, hw, by rw [hr, State.vcoreOf_congr hg hm, State.vgrid_congr hg]⟩

end CoreStarted

theorem State.foldl_startCore_reg {l : List Nat} (hl : ∀ n ∈ l, n < 256) (s : State) {a : Nat} (h : a / 0x4000000 ∉ l) :
    (l.foldl State.startCore s).reg a = s.reg a :=
  State.foldl_reg l (fun t n hn => t.startCore_reg ⟨n, hl n hn⟩ fun e => h (e ▸ hn)) s

theorem State.foldl_startCore_core {l : List Nat} (s : State) {m : Nat} (h : m ∉ l) : (l.foldl State.startCore s).core m = s.core m := by
  induction l generalizing s with
  | nil => rfl
  | cons n l ih =>
    simp only [List.mem_cons, not_or] at h
    rw [List.foldl_cons, ih _ h.2, State.startCore_core_ne _ h.1]

theorem State.foldl_startCore_started {l : List Nat} (hl : ∀ n ∈ l, n < 256) (hd : l.Nodup) {s : State} (core : Fin 256) (h : core.val ∈ l)
    (he : s.enabled core = true) : CoreStarted core s (l.foldl State.startCore s) := by
  have ctl {a : Nat} (ha : 0x400000000 ≤ a) {m : List Nat} (hm : ∀ n ∈ m, n < 256) : a / 0x4000000 ∉ m := by
    intro k
    have := hm _ k
    omega
  induction l generalizing s with
  | nil => cases h
  | cons n l ih =>
    obtain ⟨hn, hd⟩ := List.nodup_cons.mp hd
    have hl' : ∀ m ∈ l, m < 256 := fun m hm => hl m (List.mem_cons_of_mem n hm)
    rw [List.foldl_cons]
    by_cases e : core.val = n
    · subst e
      exact (State.startCore_started core he).keep (State.foldl_startCore_core _ hn)
        (fun a ha => State.foldl_startCore_reg hl' _ (by rwa [ha])) (State.foldl_startCore_reg hl' _ (ctl (DEV_CORE_MAP_ge _) hl'))
    · have hn' : n < 256 := hl n List.mem_cons_self
      have same {a : Nat} (ha : a / 0x4000000 ≠ n) : (s.startCore n).reg a = s.reg a := s.startCore_reg ⟨n, hn'⟩ ha
      have sameCtl {a : Nat} (ha : 0x400000000 ≤ a) : (s.startCore n).reg a = s.reg a := same (ctlReg_div ha ⟨n, hn'⟩)
      refine (ih hl' hd ((List.mem_cons.mp h).resolve_left e) ((State.enabled_congr (sameCtl (DEV_CORE_MAP_ge _))).trans he)).of_same
        (congrArg Fld.KEEP_PC.pc.get (same ?_)) (sameCtl (by decide)) fun j => sameCtl (Nat.le_trans (by decide) (DTRM_VMAP_ge j))
      rw [show Reg.KEEP_PC core = coreRegs core + 0x10 from rfl, coreReg_div core (by decide)]
      exact e

/-! ### The write of DTRM_CTRL -/

/-- A field that takes its own value. -/
theorem BitField.set_get_same (f : BitField) (w : Word) : f.set w (f.get w) = w := by
  refine BitVec.eq_of_getLsbD_eq fun i hi => ?_
  rw [BitField.getLsbD_set, BitField.testBit_get]
  split
  · next hb => simp [hi, show i - f.lo < f.width by omega, show f.lo + (i - f.lo) = i by omega]
  · rfl

/-- The state in which program start acts or is refused: strict is written with its own value, where that is written at all. -/
def State.startWritten (s : State) : State :=
  if s.anyBusy then s else s.put Reg.DTRM_CTRL Fld.DTRM_CTRL.strict (s.get Reg.DTRM_CTRL Fld.DTRM_CTRL.strict)

theorem State.startWritten_reg (s : State) (a : Nat) : s.startWritten.reg a = s.reg a := by
  unfold State.startWritten
  split
  · rfl
  · by_cases h : a = Reg.DTRM_CTRL
    · subst h
      rw [State.reg_put_same]
      exact BitField.set_get_same _ _
    · exact State.reg_put_ne _ _ _ h

theorem State.startWritten_changes (s : State) : Changes [.regs] s s.startWritten :=
  Changes.ite (Changes.refl _ _) (s.put_changes _ _ _)

theorem State.mayStart_startWritten (s : State) : s.startWritten.mayStart = s.mayStart := by
  have hc (n : Nat) : s.startWritten.coreState n = s.coreState n := State.coreState_of_regs (s.startWritten_reg _) (s.startWritten_reg _)
  simp only [State.mayStart, State.anyBusy, hc]

theorem exec_programStart (s : State) : exec .programStart s =
    .next (if s.mayStart then s.startWritten.startProgram else s.startWritten.logErr { code := 0x3010 }) := by
  have hstart : Fld.DTRM_CTRL.start.get (Fld.DTRM_CTRL.start.set (s.reg Reg.DTRM_CTRL) 1) = 1 := BitField.get_set_same _ _ _ (by decide)
  have hstrict : Fld.DTRM_CTRL.strict.get (Fld.DTRM_CTRL.start.set (s.reg Reg.DTRM_CTRL) 1) = s.get Reg.DTRM_CTRL Fld.DTRM_CTRL.strict :=
    BitField.get_set_other _ _ _ _ (by decide)
  show Host.Outcome.next (s.writeDtrmCtrl _).1 = _
  unfold State.writeDtrmCtrl
  rw [hstart, hstrict]
  show Host.Outcome.next (Prod.fst (if (true && s.startWritten.mayStart) = true then _ else _)) = _
  rw [State.mayStart_startWritten]
  cases s.mayStart
  · rw [if_neg (by decide), if_pos (by simp)]
    rfl
  · rfl

end Sys2Proof.Machine
end

section
/-! SUPPORT. The hold watchdog (R351, R352): time, the abandoned items and the cores at fault; and the obligation on program start and on it. -/

namespace Sys2Proof.Machine

/-! ### Time -/

theorem State.fabricTime_marks (s : State) (d : Nat) : (s.fabricTime d).marks = s.marks := rfl

/-- Time passes: no write is marked, no hold request raised or withdrawn. -/
structure Elapses (s t : State) : Prop where
  marks : t.marks = s.marks
  holds : t.die.holds = s.die.holds

namespace Elapses

variable {s t u : State}

theorem refl (s : State) : Elapses s s := ⟨rfl, rfl⟩

theorem ite {c : Prop} [Decidable c] (h : Elapses s t) (k : Elapses s u) : Elapses s (if c then t else u) := by
  split <;> assumption

theorem addTo (h : Elapses s t) (a : Nat) (f : BitField) (v : Nat) : Elapses s (t.addTo a f v) := by
  refine .ite h ⟨h.marks, h.holds⟩

end Elapses

theorem State.advanceTo_elapses (s : State) (t : Nat) : Elapses s (s.advanceTo t) := by
  unfold State.advanceTo
  split
  · exact .refl s
  · extract_lets d s1 die1 s2 only die2 s3 s4
    have h1 : Elapses s s1 := ⟨rfl, rfl⟩
    have h2 : Elapses s s2 := h1.addTo _ _ _
    have h3 : Elapses s s3 := .ite ⟨h1.marks, h1.holds⟩ (.ite ⟨h2.marks, h2.holds⟩ h1)
    have h4 : Elapses s s4 := .ite (h3.addTo _ _ _) h3
    exact ⟨h4.marks, h4.holds⟩

/-! ### Cores at fault -/

theorem State.faultCore_regs (s : State) (n code : Nat) : SameRegs (refreshed n) s (s.faultCore n code) := by
  by_cases h : s.active n
  · exact State.active_faultCore_regs code h
  · unfold State.faultCore
    rw [if_neg (show ¬(s.coreState n = stRunning ∨ s.coreState n = stHalted) from h)]
    exact .refl _ s

/-- A fault of a core writes registers of that core's window. -/
theorem State.faultCore_reg (s : State) (core : Fin 256) (code : Nat) {a : Nat} (h : a / 0x4000000 ≠ core) :
    (s.faultCore core code).reg a = s.reg a := by
  have ne {off : Nat} (ho : off < 0x1000) : a ≠ coreRegs core + off := fun e => h (e ▸ coreReg_div core ho)
  refine s.faultCore_regs core code a ?_
  simp only [refreshed, List.mem_cons, List.not_mem_nil, or_false, not_or]
  exact ⟨ne (by decide), ne (by decide), ne (by decide), ne (by decide), ne (by decide)⟩

/-- Core `n` stands in FAULT with a code. -/
def State.failed (s : State) (n code : Nat) : Prop :=
  s.coreState n = stFault ∧ s.get (Reg.CORE_STAT n) Fld.CORE_STAT.fault_err = code

theorem State.coreState_faultCore_ne (s : State) (core m : Fin 256) (code : Nat) (h : core ≠ m) :
    (s.faultCore m code).coreState core = s.coreState core ∧
    (s.faultCore m code).reg (Reg.CORE_STAT core) = s.reg (Reg.CORE_STAT core) := by
  have hs : (s.faultCore m code).reg (Reg.CORE_STAT core) = s.reg (Reg.CORE_STAT core) := by
    refine s.faultCore_reg m code ?_
    rw [show Reg.CORE_STAT core = coreRegs core + 0x8 from rfl, coreReg_div core (by decide)]
    exact fun e => h (Fin.ext e)
  exact ⟨State.coreState_of_regs (s.faultCore_reg m code (ctlReg_div (DEV_CORE_MAP_ge _) m)) hs, hs⟩

/-- A core in FAULT stays there with its code. -/
theorem State.failed_faultCore {s : State} {core : Fin 256} {code : Nat} (h : s.failed core code) (m : Fin 256) (c : Nat) :
    (s.faultCore m c).failed core code := by
  by_cases e : core = m
  · subst e
    have hn : s.faultCore core c = s := by
      unfold State.faultCore
      rw [h.1]
      exact if_neg (by decide)
    rwa [hn]
  · obtain ⟨hs, hr⟩ := s.coreState_faultCore_ne core m c e
    exact ⟨hs.trans h.1, (congrArg Fld.CORE_STAT.fault_err.get hr).trans h.2⟩

theorem State.foldl_failed {l : List Nat} (hl : ∀ n ∈ l, n < 256) {s : State} {core : Fin 256} {code : Nat} (h : s.failed core code) :
    (l.foldl (fun t n => t.faultCore n code) s).failed core code := by
  induction l generalizing s with
  | nil => exact h
  | cons n l ih =>
    exact ih (fun m hm => hl m (List.mem_cons_of_mem n hm)) (State.failed_faultCore h ⟨n, hl n List.mem_cons_self⟩ code)

/-- Every core of a list that runs goes to FAULT. -/
theorem State.foldl_faultCore_failed {l : List Nat} (hl : ∀ n ∈ l, n < 256) {s : State} {core : Fin 256} {code : Nat} (hc : code < 65536)
    (h : core.val ∈ l) (ha : s.active core) : (l.foldl (fun t n => t.faultCore n code) s).failed core code := by
  induction l generalizing s with
  | nil => cases h
  | cons n l ih =>
    have hl' : ∀ m ∈ l, m < 256 := fun m hm => hl m (List.mem_cons_of_mem n hm)
    rw [List.foldl_cons]
    by_cases e : core.val = n
    · subst e
      obtain ⟨hs, hf, -⟩ := State.faultCore_faulted core code ha
      exact State.foldl_failed hl' ⟨hs, hf.trans (Nat.mod_eq_of_lt hc)⟩
    · refine ih hl' ((List.mem_cons.mp h).resolve_left e) ?_
      have hs := (s.coreState_faultCore_ne core ⟨n, hl n List.mem_cons_self⟩ code fun k => e (congrArg Fin.val k)).1
      unfold State.active at ha ⊢
      rwa [hs]

theorem State.foldl_faultCore_reg {l : List Nat} (hl : ∀ n ∈ l, n < 256) (s : State) (code : Nat) {a : Nat} (h : 0x400000000 ≤ a) :
    (l.foldl (fun t n => t.faultCore n code) s).reg a = s.reg a :=
  State.foldl_reg l (fun t n hn => t.faultCore_reg ⟨n, hl n hn⟩ code (ctlReg_div h ⟨n, hl n hn⟩)) s

theorem State.faultCore_holds (s : State) (n code : Nat) : ∀ h ∈ (s.faultCore n code).die.holds, h ∈ s.die.holds := by
  by_cases ha : s.active n
  · rw [State.faultCore_eq code ha, (State.refresh_changes _ n).die]
    exact fun h hh => List.mem_of_mem_filter hh
  · unfold State.faultCore
    rw [if_neg (show ¬(s.coreState n = stRunning ∨ s.coreState n = stHalted) from ha)]
    exact fun _ hh => hh

theorem State.foldl_faultCore_holds (l : List Nat) (s : State) (code : Nat) :
    ∀ h ∈ (l.foldl (fun t n => t.faultCore n code) s).die.holds, h ∈ s.die.holds := by
  induction l generalizing s with
  | nil => exact fun _ hh => hh
  | cons n l ih => exact fun h hh => s.faultCore_holds n code h (ih _ h hh)

end Sys2Proof.Machine
end

section
/-! SUPPORT. The watchdog's fire as a whole, and the obligation on program start and the watchdog. -/

namespace Sys2Proof.Machine

/-! ### The watchdog fires (R351, R352) -/

/-- The hold requests for missing items. -/
def State.heldItems (s : State) : List HoldReq := s.die.holds.filter HoldReq.isItem

/-- The cores that miss items. -/
def State.heldCores (s : State) : List Nat := (s.heldItems.map (·.core)).eraseDups

/-- The watchdog has fired and noted it: no item is abandoned yet. -/
def State.wdogNoted (s : State) (t : Nat) : State :=
  let s := s.advanceTo (t + 1000 * s.get Reg.DTRM_WDOG Fld.DTRM_WDOG.limit_ns)
  let s := s.logErr { code := 0x4001, core := s.heldCores.head? }
  let s := s.addSat Reg.DTRM_WDOG Fld.DTRM_WDOG.fires 1
  s.put Reg.DTRM_STAT Fld.DTRM_STAT.watchdog 1

/-- The state in which the items are abandoned and the cores at fault. -/
def State.wdogFired (s : State) (t : Nat) : State :=
  s.heldCores.foldl (fun t n => t.faultCore n 0x4001) (s.heldItems.foldl State.abandon (s.wdogNoted t))

theorem exec_watchdogFire {s : State} {t : Nat} (h : s.die.wdogFrom = some t) :
    exec .watchdogFire s = .next ((s.wdogFired t).holdOff HoldReq.isItem) := by
  have hd := (s.advanceTo_elapses (t + 1000 * s.get Reg.DTRM_WDOG Fld.DTRM_WDOG.limit_ns)).holds
  show execWatchdogFire s = _
  unfold execWatchdogFire State.wdogFired State.wdogNoted State.heldCores State.heldItems
  simp only [h, hd]

theorem State.foldl_abandon_changes (l : List HoldReq) (s : State) : Changes [.cores, .mesh] s (l.foldl State.abandon s) :=
  Changes.foldl (Changes.refl _ _) fun t h => t.abandon_changes h

/-- What the fired watchdog has noted. -/
theorem State.wdogNoted_notes (s : State) (t : Nat) :
    (s.wdogNoted t).now = max s.now (t + 1000 * s.get Reg.DTRM_WDOG Fld.DTRM_WDOG.limit_ns) ∧
    (s.wdogNoted t).die.holds = s.die.holds ∧
    (∀ n < 256, (s.wdogNoted t).coreState n = s.coreState n) ∧
    (s.wdogNoted t).get Reg.DTRM_STAT Fld.DTRM_STAT.watchdog = 1 ∧
    (smFind s.marks Reg.DTRM_WDOG = none →
      (s.wdogNoted t).get Reg.DTRM_WDOG Fld.DTRM_WDOG.fires = min (s.get Reg.DTRM_WDOG Fld.DTRM_WDOG.fires + 1) 0xFFFF) := by
  unfold State.wdogNoted
  extract_lets s1 s2 s3
  have h1 := s.advanceTo_elapses (t + 1000 * s.get Reg.DTRM_WDOG Fld.DTRM_WDOG.limit_ns)
  have hn : Notes s1 s2 := (Notes.refl s1).logErr _
  have hc3 : Changes [.regs] s2 s3 := s2.addSat_changes _ _ _
  have hne : Reg.DTRM_WDOG ∉ clockRegs s := by
    simp only [clockRegs, List.mem_cons, List.not_mem_nil, or_false, not_or]
    exact ⟨by decide, by decide, (Nat.lt_of_lt_of_le (by decide : Reg.DTRM_WDOG < blockBase 19) (by simp only [Reg.IDLE_NS]; omega)).ne⟩
  refine ⟨?_, ?_, fun n hlt => ?_, State.get_put_same _ _ _ _ (by decide), fun hm => ?_⟩
  · show s3.now = _
    rw [hc3.now, hn.changes.now]
    exact s.advanceTo_now _
  · show s3.die.holds = _
    rw [hc3.die, hn.changes.die]
    exact h1.holds
  · have hlt' : Reg.CORE_STAT n < blockBase 2 := coreReg_belowPace ⟨n, hlt⟩ (by decide)
    have hmap : Reg.DEV_CORE_MAP (n / 64) < blockBase 2 := by
      simp only [Reg.DEV_CORE_MAP, blockBase]
      omega
    have hreg {a : Nat} (ha : a < blockBase 2) : (s3.put Reg.DTRM_STAT Fld.DTRM_STAT.watchdog 1).reg a = s2.reg a :=
      (State.reg_put_ne _ _ _ (Nat.lt_of_lt_of_le ha (by decide)).ne).trans
        (s2.addSat_sameRegs _ _ _ a (by simpa using (Nat.lt_of_lt_of_le ha (by decide : blockBase 2 ≤ Reg.DTRM_WDOG)).ne))
    rw [State.coreState_of_regs (hreg hmap) (hreg hlt'), hn.coreState hlt]
    exact State.coreState_of_regs (s.advanceTo_belowPace _ _ hmap) (s.advanceTo_belowPace _ _ hlt')
  · have hmark : smFind s2.marks Reg.DTRM_WDOG = none := by
      rw [hn.marks _ (by decide), h1.marks, hm]
    have hfires : s2.get Reg.DTRM_WDOG Fld.DTRM_WDOG.fires = s.get Reg.DTRM_WDOG Fld.DTRM_WDOG.fires :=
      (hn.get _ (by decide)).trans (congrArg Fld.DTRM_WDOG.fires.get (s.advanceTo_regs _ _ hne))
    rw [State.get_put_ne _ _ _ _ (by decide), ← hfires]
    exact State.get_addSat hmark _ _ (by decide)

/-! ### The obligation -/

theorem startX_other (v vgrid : Nat) {r : Nat} (h10 : r ≠ 10) (h11 : r ≠ 11) : (startX v vgrid).getD r 0 = 0 := by
  rw [startX, List.getD_eq_getElem?_getD, List.getElem?_set_ne h11.symm, List.getElem?_set_ne h10.symm, List.getElem?_replicate]
  split <;> rfl

/-- What program start leaves of a core that was LOADED. -/
theorem State.startProgram_started {s : State} (core : Fin 256) (h : s.coreState core = stLoaded) :
    CoreStarted core s s.startProgram := by
  have hr := s.programReady_ready
  have ctl {a : Nat} (ha : 0x400101000 ≤ a) : startReg a = false := by
    have h1 : a ≠ Reg.PACE_BEAT := (Nat.lt_of_lt_of_le (by decide) ha).ne'
    have h2 : a ≠ Reg.DTRM_STAT := (Nat.lt_of_lt_of_le (by decide) ha).ne'
    have h3 : a ≠ Reg.FABR_STEP_STAT := (Nat.lt_of_lt_of_le (by decide) ha).ne'
    simp [startReg, countReg_ctl (Nat.le_trans (by decide) ha), h1, h2, h3]
  have hen : s.enabled core = true := by
    unfold State.coreState at h
    split at h
    · assumption
    · exact absurd h (by decide)
  have hmap : s.programReady.reg (Reg.DEV_CORE_MAP (core / 64)) = s.reg (Reg.DEV_CORE_MAP (core / 64)) := by
    refine hr.reg _ ?_
    have hlt : Reg.DEV_CORE_MAP (core / 64) < blockBase 2 := by
      simp only [Reg.DEV_CORE_MAP, blockBase]
      omega
    have h1 : Reg.DEV_CORE_MAP (core / 64) ≠ Reg.PACE_BEAT := (Nat.lt_of_lt_of_le hlt (by decide)).ne
    have h2 : Reg.DEV_CORE_MAP (core / 64) ≠ Reg.DTRM_STAT := (Nat.lt_of_lt_of_le hlt (by decide)).ne
    have h3 : Reg.DEV_CORE_MAP (core / 64) ≠ Reg.FABR_STEP_STAT := (Nat.lt_of_lt_of_le hlt (by decide)).ne
    simp [startReg, countReg_ctl (DEV_CORE_MAP_ge _), h1, h2, h3]
  rw [State.startProgram_eq]
  have hmem : core.val ∈ (List.range 256).filter fun n => s.coreState n == stLoaded := by
    simp [h]
  refine (State.foldl_startCore_started (fun n hn => List.mem_range.mp (List.mem_of_mem_filter hn)) (List.nodup_range.filter _) core hmem
    ((State.enabled_congr hmap).trans hen)).of_same ?_ (hr.reg _ (by decide)) fun j => hr.reg _ (ctl (Nat.le_trans (by decide) (DTRM_VMAP_ge j)))
  exact congrArg Fld.KEEP_PC.pc.get (hr.reg _ (startReg_coreReg core (off := 0x10) (by decide) (by decide)))

/-- What program start leaves of every other core, and of the die. -/
theorem State.startProgram_rest (s : State) :
    (∀ n < 256, s.coreState n ≠ stLoaded → s.startProgram.core n = { s.core n with later := [], narrowAt := none, pathAt := none }) ∧
    (∀ r < 16, s.startProgram.reach r = (s.reach r).restarted s.now) ∧ s.startProgram.reg Reg.DTRM_STAT = 0 ∧
    s.startProgram.get Reg.FABR_STEP_STAT Fld.FABR_STEP_STAT.aligned = 1 ∧
    s.startProgram.fabric.oldest = s.get Reg.FABR_STEP Fld.FABR_STEP.step + 1 ∧ s.startProgram.idle.quiet = none := by
  have hr := s.programReady_ready
  rw [State.startProgram_eq]
  have hlt : ∀ n ∈ (List.range 256).filter fun n => s.coreState n == stLoaded, n < 256 := fun n hn => List.mem_range.mp (List.mem_of_mem_filter hn)
  have hc : Changes [.regs, .cores] s.programReady (((List.range 256).filter fun n => s.coreState n == stLoaded).foldl State.startCore s.programReady) :=
    Changes.foldl (Changes.refl _ _) fun t n => t.startCore_changes n
  have ctl {a : Nat} (ha : 0x400000000 ≤ a) : a / 0x4000000 ∉ (List.range 256).filter fun n => s.coreState n == stLoaded := fun k =>
    ctlReg_div ha ⟨_, hlt _ k⟩ rfl
  refine ⟨fun n hn hl => ?_, fun r h => ?_, ?_, ?_, ?_, ?_⟩
  · rw [State.foldl_startCore_core _ (by simp [hl]), hr.core n hn]
  · rw [State.reach_congr hc.reaches, hr.reach r h]
  · rw [State.foldl_startCore_reg hlt _ (ctl (by decide)), hr.stat]
  · rw [State.get, State.foldl_startCore_reg hlt _ (ctl (by decide))]
    exact hr.aligned
  · rw [hc.fabric, hr.oldest]
  · rw [hc.idle, hr.quiet]

/-- Settles O37: program start by what makes the die ready and by each core that starts; the watchdog by what it notes, then each core. -/
theorem programStartAndWatchdog : Obligations.ProgramStartAndWatchdog := by
  unfold Obligations.ProgramStartAndWatchdog
  refine fun s => ⟨fun h => ?_, fun h => ?_, fun t0 ht hcores => ?_⟩
  · have hw := s.startWritten_changes
    have hr := s.startWritten_reg
    have hstate (n : Nat) : s.startWritten.coreState n = s.coreState n := State.coreState_of_regs (hr _) (hr _)
    obtain ⟨hcore, hreach, hstat, hal, hold, hquiet⟩ := s.startWritten.startProgram_rest
    refine Gives.intro ((exec_programStart s).trans (by rw [h, if_pos rfl])) ⟨fun n hn hl => ?_, fun n hn hl => ?_, fun r => ?_, hstat, hal, ?_, hquiet⟩
    · have hs := (State.startProgram_started ⟨n, hn⟩ ((hstate n).trans hl)).of_same (congrArg Fld.KEEP_PC.pc.get (hr _)) (hr _) fun j => hr _
      obtain ⟨hst, hpc, hq, ha, hx, hi, hk, hregs⟩ := hs
      refine ⟨hst, hpc, hq, ha, hx, hi, hk, ?_, ?_, fun r hr h10 h11 => ?_⟩
      · simp only [State.kx]
        rw [hregs]
        rfl
      · simp only [State.kx]
        rw [hregs]
        rfl
      · simp only [State.kx]
        rw [hregs]
        rw [startX_other _ _ h10 h11, ite_self]
    · rw [hcore n hn (by rwa [hstate]), State.core_congr hw.cores]
    · rw [hreach r r.isLt, hw.now]
      exact ⟨rfl, rfl, rfl, rfl⟩
    · rw [hold, State.get, hr]
      rfl
  · refine Gives.intro ((exec_programStart s).trans (by rw [h, if_neg (by decide)])) ?_
    have hw := s.startWritten_changes
    have hl := s.startWritten.logErr_changes { code := 0x3010 }
    exact ⟨fun a he hm => (s.startWritten.logErr_regs _ a he hm).trans (s.startWritten_reg a), hl.cores.trans hw.cores, hl.reaches.trans hw.reaches⟩
  · obtain ⟨hnow, hholds, hstate, hstat, hfires⟩ := s.wdogNoted_notes t0
    have ha := State.foldl_abandon_changes s.heldItems (s.wdogNoted t0)
    have hlt : ∀ n ∈ s.heldCores, n < 256 := by
      intro n hn
      obtain ⟨h, hm, rfl⟩ := List.mem_map.mp (List.mem_eraseDups.mp hn)
      exact hcores h (List.mem_of_mem_filter hm)
    have hf : Changes [.regs, .die, .cores] (s.heldItems.foldl State.abandon (s.wdogNoted t0)) (s.wdogFired t0) :=
      Changes.foldl (Changes.refl _ _) fun t n => t.faultCore_changes n 0x4001
    have hreg {a : Nat} (h : 0x400000000 ≤ a) : (s.wdogFired t0).reg a = (s.wdogNoted t0).reg a :=
      (State.foldl_faultCore_reg hlt _ _ h).trans (State.reg_congr ha.regs a)
    refine Gives.intro (exec_watchdogFire ht) ⟨?_, fun hm => ?_, ?_, fun h hh => ?_, fun h hh hi hrun => ?_⟩
    · exact (hf.now.trans ha.now).trans hnow
    · exact (congrArg Fld.DTRM_WDOG.fires.get (hreg (by decide))).trans (hfires hm)
    · exact (congrArg Fld.DTRM_STAT.watchdog.get (hreg (by decide))).trans hstat
    · obtain ⟨hm, hno⟩ := List.mem_filter.mp hh
      have hs := State.foldl_faultCore_holds _ _ _ h hm
      rw [ha.die, hholds] at hs
      exact ⟨hs, by simpa using hno⟩
    · have hmem : h.core ∈ s.heldCores := List.mem_eraseDups.mpr (List.mem_map_of_mem (List.mem_filter.mpr ⟨hh, hi⟩))
      have hact : (s.heldItems.foldl State.abandon (s.wdogNoted t0)).active h.core := by
        refine State.active_congr ha.regs ?_
        unfold State.active
        rwa [hstate _ (hlt _ hmem)]
      exact State.foldl_faultCore_failed (core := ⟨h.core, hlt _ hmem⟩) hlt (by decide) hmem hact

end Sys2Proof.Machine
end

section
/-! SUPPORT. The head of a stream starts (R181, R186): what it leaves, whichever operation it is. -/

namespace Sys2Proof.Machine

/-! ### Pops of several queues -/

theorem State.pops_sameKeeper (l : List Nat) (s : State) (n : Nat) : SameKeeper n s (l.foldl (fun t q => t.pop n q) s) := by
  induction l generalizing s with
  | nil => exact .refl n s
  | cons q l ih => exact (s.pop_sameKeeper n q).trans (ih _)

/-- Where no push waits, pops of queues take their heads and do nothing else to the queues (R186, R187). -/
theorem State.pops_queues {n : Nat} (l : List Nat) (hl : l.Nodup) {s : State} (h : (s.core n).qlate = []) (q : Nat)
    (hq : q < (s.core n).queues.length) :
    ((l.foldl (fun t q => t.pop n q) s).core n).queues.getD q [] =
      if q ∈ l then ((s.core n).queues.getD q []).drop 1 else (s.core n).queues.getD q [] := by
  induction l generalizing s with
  | nil => rfl
  | cons x l ih =>
    obtain ⟨hx, hl⟩ := List.nodup_cons.mp hl
    have hp := State.pop_queues (q := x) h
    have hlate : ((s.pop n x).core n).qlate = [] := by
      rw [State.pop_eq h, State.core_refresh, State.core_setCore_same]
      exact h
    rw [List.foldl_cons, ih hl hlate (by rw [hp, List.length_set]; exact hq), hp]
    by_cases e : q = x
    · subst e
      rw [if_neg hx, if_pos List.mem_cons_self]
      simp [hq]
    · have hs : ((s.core n).queues.set x (((s.core n).queues.getD x []).drop 1)).getD q [] = (s.core n).queues.getD q [] := by
        simp [List.getD_eq_getElem?_getD, List.getElem?_set_ne (Ne.symm e)]
      rw [hs]
      exact if_congr (by simp [e]) rfl rfl

/-! ### What an operation of a unit leaves of its core -/

/-- The registers of a core that its keeper and its counters stand in: no unit's own work writes them. -/
def ownReg (off : Nat) : Prop := off = 0x10 ∨ (0x100 ≤ off ∧ off < 0x300)

theorem ownReg_lt {off : Nat} (h : ownReg off) : off < 0x1000 := by
  unfold ownReg at h
  omega

theorem ownReg_not_coreShown (core : Fin 256) {off : Nat} (h : ownReg off) (h1 : off ≠ 0x10) : coreRegs core + off ∉ coreShown core := by
  refine coreReg_not_coreShown core (ownReg_lt h) ?_
  unfold ownReg at h
  simp only [List.mem_cons, List.not_mem_nil, or_false]
  omega

theorem ownReg_not_refreshed (n : Nat) {off : Nat} (h : ownReg off) : coreRegs n + off ∉ refreshed n := by
  refine coreReg_not_refreshed n ?_
  unfold ownReg at h
  simp only [List.mem_cons, List.not_mem_nil, or_false]
  omega

/-- Between `s` and `t` unit `u` of core `n` has worked: streams, queues, keeper and counters of its core stand, and so does what is said
of the operation that the unit runs. -/
structure Works (n : Nat) (u : UnitId) (s t : State) : Prop where
  core_ne : ∀ m, m ≠ n → t.core m = s.core m
  fifo    : ∀ onX, (t.core n).fifo onX = (s.core n).fifo onX
  last    : ∀ onX, (t.core n).lastStart onX = (s.core n).lastStart onX
  queues  : (t.core n).queues = (s.core n).queues
  x       : (t.core n).x = (s.core n).x
  own     : ∀ off, ownReg off → t.reg (coreRegs n + off) = s.reg (coreRegs n + off)
  runs    : ∀ r, (s.core n).running u = some r → ∃ r', (t.core n).running u = some r' ∧ r'.desc = r.desc ∧ r'.start = r.start ∧
    r'.cost = r.cost ∧ r'.legacy = r.legacy

namespace Works

variable {n : Nat} {u : UnitId} {s t v : State}

theorem refl (n : Nat) (u : UnitId) (s : State) : Works n u s s :=
  ⟨fun _ _ => rfl, fun _ => rfl, fun _ => rfl, rfl, rfl, fun _ _ => rfl, fun r h => ⟨r, h, rfl, rfl, rfl, rfl⟩⟩

theorem trans (h : Works n u s t) (k : Works n u t v) : Works n u s v := by
  refine ⟨fun m hm => (k.core_ne m hm).trans (h.core_ne m hm), fun onX => (k.fifo onX).trans (h.fifo onX),
    fun onX => (k.last onX).trans (h.last onX), k.queues.trans h.queues, k.x.trans h.x, fun off ho => (k.own off ho).trans (h.own off ho),
    fun r hr => ?_⟩
  obtain ⟨r1, h1, hd, hs, hc, hl⟩ := h.runs r hr
  obtain ⟨r2, h2, hd2, hs2, hc2, hl2⟩ := k.runs r1 h1
  exact ⟨r2, h2, hd2.trans hd, hs2.trans hs, hc2.trans hc, hl2.trans hl⟩

theorem ite {c : Prop} [Decidable c] (h : Works n u s t) (k : Works n u s v) : Works n u s (if c then t else v) := by
  split <;> assumption

/-- An operation that leaves every core and the registers of their keepers and counters. -/
theorem of (hc : t.cores = s.cores) (hr : ∀ off, ownReg off → t.reg (coreRegs n + off) = s.reg (coreRegs n + off)) : Works n u s t := by
  have h := State.core_congr hc
  exact ⟨fun m _ => h m, fun _ => by rw [h], fun _ => by rw [h], by rw [h], by rw [h], hr, fun r hs => ⟨r, by rw [h, hs], rfl, rfl, rfl, rfl⟩⟩

/-- An update of the core that leaves its streams, queues and keeper and what its unit runs. -/
theorem setCore (s : State) {c : Core} (hf : ∀ onX, c.fifo onX = (s.core n).fifo onX)
    (hl : ∀ onX, c.lastStart onX = (s.core n).lastStart onX) (hq : c.queues = (s.core n).queues) (hx : c.x = (s.core n).x)
    (hr : ∀ r, (s.core n).running u = some r → ∃ r', c.running u = some r' ∧ r'.desc = r.desc ∧ r'.start = r.start ∧ r'.cost = r.cost ∧
      r'.legacy = r.legacy) : Works n u s (s.setCore n c) := by
  refine ⟨fun m hm => State.core_setCore_ne _ _ hm, ?_, ?_, ?_, ?_, fun _ _ => rfl, ?_⟩ <;> rw [State.core_setCore_same]
  · exact hf
  · exact hl
  · exact hq
  · exact hx
  · exact hr

end Works

theorem Core.lastStart_setRunning (c : Core) (u : UnitId) (r : Option RunOp) (onX : Bool) :
    (c.setRunning u r).lastStart onX = c.lastStart onX := by cases u <;> rfl

theorem Core.queues_setRunning (c : Core) (u : UnitId) (r : Option RunOp) : (c.setRunning u r).queues = c.queues := by cases u <;> rfl

theorem Core.x_setRunning (c : Core) (u : UnitId) (r : Option RunOp) : (c.setRunning u r).x = c.x := by cases u <;> rfl

theorem Core.running_setRunning (c : Core) (u : UnitId) (r : RunOp) (h : c.sluice.length = 4) : (c.setRunning u (some r)).running u = some r := by
  cases u with
  | sluice sl => simp [Core.setRunning, Core.running, h]
  | _ => rfl

/-- Unit `u` runs something in place of what it runs. -/
theorem Core.running_setRunning_of_some {c : Core} {u : UnitId} {r : RunOp} (h : c.running u = some r) (v : RunOp) :
    (c.setRunning u (some v)).running u = some v := by
  cases u with
  | sluice sl =>
    have hl : sl.val < c.sluice.length := by
      by_contra hge
      simp [Core.running, List.getD_eq_getElem?_getD, List.getElem?_eq_none (Nat.le_of_not_lt hge)] at h
    simp [Core.setRunning, Core.running, hl]
  | _ => rfl

/-- A change of what is noted of the operation on a unit. -/
theorem State.modRun_works (s : State) (n : Nat) (u : UnitId) (f : RunOp → RunOp)
    (hf : ∀ r, (f r).desc = r.desc ∧ (f r).start = r.start ∧ (f r).cost = r.cost ∧ (f r).legacy = r.legacy) :
    Works n u s (s.modRun n u f) := by
  unfold State.modRun
  split
  · next r hr =>
    refine .setCore s (fun onX => Core.fifo_setRunning _ _ _ onX) (fun onX => Core.lastStart_setRunning _ _ _ onX) (Core.queues_setRunning _ _ _)
      (Core.x_setRunning _ _ _) fun r' h => ?_
    obtain rfl : r = r' := Option.some.inj (hr.symm.trans h)
    exact ⟨f r, Core.running_setRunning_of_some hr _, hf r⟩
  · exact .refl n u s

/-! ### The head starts (R181) -/

/-- The pre-wait of a descriptor is served (R181, R211). -/
def State.preServed (s : State) (n : Nat) (d : List Word) : State :=
  if (dPre d).kind = 1 ∧ (dPre d).n ≠ 0 then s.serve n (dPre d).index (dPre d).n else s

theorem State.preServed_core (s : State) (n : Nat) (d : List Word) :
    (s.preServed n d).core n = { s.core n with served := ((s.preServed n d).core n).served } := by
  unfold State.preServed
  split
  · simp only [State.serve, State.core_setCore_same]
  · rfl

theorem State.preServed_core_ne (s : State) {n m : Nat} (d : List Word) (h : m ≠ n) : (s.preServed n d).core m = s.core m := by
  unfold State.preServed
  split
  · exact State.core_setCore_ne _ _ h
  · rfl

theorem State.preServed_reg (s : State) (n : Nat) (d : List Word) {a : Nat} (h : a ≠ Reg.LOCK_CNT n (dPre d).index) :
    (s.preServed n d).reg a = s.reg a := by
  unfold State.preServed
  split
  · exact (State.reg_congr (State.setCore_regs _ _ _) _).trans (State.reg_put_ne _ _ _ h)
  · rfl

theorem State.preServed_lockCount (s : State) (n : Nat) {d : List Word} (h : (dPre d).kind = 1) :
    (s.preServed n d).lockCount n (dPre d).index = s.lockCount n (dPre d).index - (dPre d).n := by
  unfold State.preServed
  by_cases hn : (dPre d).n = 0
  · rw [if_neg (by simp [hn]), hn, Nat.sub_zero]
  · rw [if_pos ⟨h, hn⟩]
    have hlt : s.lockCount n (dPre d).index < 2 ^ 16 := BitField.get_lt _ _
    show (State.setCore _ _ _).get (Reg.LOCK_CNT n (dPre d).index) Fld.LOCK_CNT.count = _
    rw [State.get_congr (State.setCore_regs _ _ _), State.get_put_same _ _ _ _ (by decide)]
    exact Nat.mod_eq_of_lt (Nat.lt_of_le_of_lt (Nat.sub_le _ _) hlt)

/-- The queues that a descriptor pops. -/
def popped (d : List Word) : List Nat := (List.range 8).filter fun q => (dPop d).testBit q

/-- The entry for the started operation, its FIFO's head taken (R181). -/
def Core.headTaken (c : Core) (onX : Bool) (b : Nat) : Core :=
  if onX then { c with xFifo := c.xFifo.drop 1, xStart := some b } else { c with aFifo := c.aFifo.drop 1, aStart := some b }

theorem Core.headTaken_fields (c : Core) (onX : Bool) (b : Nat) :
    (c.headTaken onX b).fifo onX = (c.fifo onX).drop 1 ∧ (c.headTaken onX b).fifo (!onX) = c.fifo (!onX) ∧
    (c.headTaken onX b).lastStart onX = some b ∧ (c.headTaken onX b).queues = c.queues ∧ (c.headTaken onX b).x = c.x ∧
    ∀ u, (c.headTaken onX b).running u = c.running u := by
  cases onX <;> exact ⟨rfl, rfl, rfl, rfl, rfl, fun u => by cases u <;> rfl⟩

/-- What a unit runs from the head's first beat on (R181, R186). -/
def State.headRun (s : State) (n : Nat) (d : List Word) : RunOp :=
  let ents := (popped d).filterMap fun q => s.poppable n q
  { desc := d, start := s.beatOf n, cost := dCost d
    user := match ents with
      | e :: _ => e.bytes.drop 32
      | [] => List.replicate 32 0
    poison := ents.any fun e => (e.bytes.getD 11 0).toNat.testBit 0
    sig := if isLegacy d then dfld d 3 32 16 else 0, legacy := isLegacy d }

theorem State.popAll_changes (s : State) (n : Nat) (d : List Word) :
    Changes [.regs, .die, .cores, .mesh, .idle, .diag, .ibis, .outs] s ((popped d).foldl (fun t q => t.pop n q) (s.preServed n d)) :=
  Changes.foldl (Changes.ite ((s.serve_changes _ _ _).widen rfl) (.refl _ s)) fun t q => t.pop_changes n q

/-- The descriptor leaves its FIFO once its pre-wait is served and its queues are popped, and its unit runs it. -/
theorem State.startHead_eq (s : State) (n : Nat) (onX : Bool) (d : List Word) (k : OpKind) : s.startHead n onX d k =
    let t := (popped d).foldl (fun t q => t.pop n q) (s.preServed n d)
    ((t.setCore n (((t.core n).setRunning k.unit (some (s.headRun n d))).headTaken onX (s.beatOf n))).addTo (streamStat n onX)
      Fld.XSTREAM_STAT.started 1).refresh n := by
  have hb : ((popped d).foldl (fun t q => t.pop n q) (s.preServed n d)).beatOf n = s.beatOf n :=
    State.beatOf_congr (s.popAll_changes n d).reaches n
  unfold State.startHead State.headRun
  rw [← hb]
  rfl

/-- The operation at a stream's head starts. -/
theorem State.startHead_started {s : State} {core : Fin 256} (onX : Bool) (d : List Word) (k : OpKind) (h4 : (s.core core).sluice.length = 4) :
    Started core onX d k s (s.startHead core onX d k) := by
  have hpop := State.pops_queuesAlone (s.preServed core d) core (popped d)
  have hreaches := (s.popAll_changes core d).reaches
  rw [State.startHead_eq]
  extract_lets t
  have hserve := s.preServed_core core d
  have hcore : t.core core = { s.core core with served := ((s.preServed core d).core core).served, queues := (t.core core).queues,
                                                qseq := (t.core core).qseq, qlate := (t.core core).qlate } := by
    rw [hpop.core, hserve]
  obtain ⟨hf, hfo, hlast, hq, hx, hrun⟩ := Core.headTaken_fields ((t.core core).setRunning k.unit (some (s.headRun core d))) onX (s.beatOf core)
  generalize hc2 : ((t.core core).setRunning k.unit (some (s.headRun core d))).headTaken onX (s.beatOf core) = c2 at hf hfo hlast hq hx hrun ⊢
  have hc : (((t.setCore core c2).addTo (streamStat core onX) Fld.XSTREAM_STAT.started 1).refresh core).core core = c2 := by
    rw [State.core_refresh, State.core_congr (State.addTo_cores _ _ _ _), State.core_setCore_same]
  have hreg {off : Nat} (ho : ownReg off) :
      (((t.setCore core c2).addTo (streamStat core onX) Fld.XSTREAM_STAT.started 1).refresh core).reg (coreRegs core + off) =
        t.reg (coreRegs core + off) := by
    have hne : coreRegs core + off ∉ [streamStat core onX] := by
      unfold ownReg at ho
      cases onX <;> simp only [streamStat, Reg.XSTREAM_STAT, Reg.ASTREAM_STAT, List.mem_singleton, Nat.add_left_cancel_iff, if_true,
        Bool.false_eq_true, if_false] <;> omega
    exact (State.refresh_refreshed _ core _ (ownReg_not_refreshed core ho)).trans
      ((State.hwPut_regs _ _ _ _ _ hne).trans (State.reg_congr (State.setCore_regs _ _ _) _))
  have hpc : t.reg (Reg.KEEP_PC core) = s.reg (Reg.KEEP_PC core) :=
    (State.pops_sameKeeper (popped d) (s.preServed core d) core).pc.trans (s.preServed_reg core d (by simp only [Reg.KEEP_PC, Reg.LOCK_CNT]; omega))
  have hi : ownReg (0x100 + 8 * (dPre d).index) := by
    have : (dPre d).index < 64 := Nat.mod_lt _ (by decide)
    exact .inr (by omega)
  rw [Started, hc]
  refine ⟨⟨s.headRun core d, (hrun _).trans ?_, rfl, rfl, rfl, rfl⟩, hf.trans ?_, hfo.trans ?_, hlast, fun hk => ?_, fun hlate h8 q hq8 => ?_,
    hx.trans ?_, ?_, fun m hm => ?_⟩
  · exact Core.running_setRunning _ _ _ (by rw [hcore]; exact h4)
  · rw [Core.fifo_setRunning, hcore]
    rfl
  · rw [Core.fifo_setRunning, hcore]
    rfl
  · rw [← s.preServed_lockCount core hk]
    refine congrArg Fld.LOCK_CNT.count.get ?_
    rw [show Reg.LOCK_CNT core (dPre d).index = coreRegs core + (0x100 + 8 * (dPre d).index) from Nat.add_assoc _ _ _]
    exact (hreg hi).trans (hpop.regs _ (ownReg_not_coreShown core hi (by omega)))
  · rw [hq, Core.queues_setRunning, State.pops_queues (popped d) (List.nodup_range.filter _) (by rw [hserve]; exact hlate) q
      (by rw [hserve]; exact h8 ▸ hq8), hserve]
    exact if_congr (by simp [popped, hq8]) rfl rfl
  · rw [Core.x_setRunning, hcore]
  · exact congrArg Fld.KEEP_PC.pc.get ((hreg (.inl rfl)).trans hpc)
  · rw [State.core_refresh, State.core_congr (State.addTo_cores _ _ _ _), State.core_setCore_ne _ _ hm, hpop.core_ne m hm,
      s.preServed_core_ne d hm]

/-- What a unit does from there on leaves the operation started. -/
theorem Started.works {core : Fin 256} {onX : Bool} {d : List Word} {k : OpKind} {s t v : State} (h : Started core onX d k s t)
    (w : Works core k.unit t v) : Started core onX d k s v := by
  obtain ⟨⟨r, hr, hd, hb, hc, hl⟩, hf, hfo, hlast, hcnt, hq, hx, hpc, hm⟩ := h
  obtain ⟨r', hr', hd', hb', hc', hl'⟩ := w.runs r hr
  have hi : ownReg (0x100 + 8 * (dPre d).index) := by
    have : (dPre d).index < 64 := Nat.mod_lt _ (by decide)
    exact .inr (by omega)
  have hlock : v.lockCount core (dPre d).index = t.lockCount core (dPre d).index := by
    refine congrArg Fld.LOCK_CNT.count.get ?_
    rw [show Reg.LOCK_CNT core (dPre d).index = coreRegs core + (0x100 + 8 * (dPre d).index) from Nat.add_assoc _ _ _]
    exact w.own _ hi
  exact ⟨⟨r', hr', hd'.trans hd, hb'.trans hb, hc'.trans hc, hl'.trans hl⟩, (w.fifo _).trans hf, (w.fifo _).trans hfo, (w.last _).trans hlast,
    fun hk => hlock.trans (hcnt hk), fun hlate h8 q hq8 => by rw [w.queues]; exact hq hlate h8 q hq8, w.x.trans hx,
    (congrArg Fld.KEEP_PC.pc.get (w.own _ (.inl rfl))).trans hpc, fun m hne => (w.core_ne m hne).trans (hm m hne)⟩

end Sys2Proof.Machine
end

section
/-! SUPPORT. What the vector unit, the array and the no-operation units do in the first beat of an operation, and the obligation on their
starts. -/

namespace Sys2Proof.Machine

/-! ### Operations that work -/

section Work

variable {core : Fin 256} {u : UnitId} {s t : State}

theorem Works.put (h : Works core u s t) {a : Nat} (f : BitField) (v : Nat) (ha : ∀ off, ownReg off → a ≠ coreRegs core + off) :
    Works core u s (t.put a f v) :=
  h.trans (.of rfl fun off ho => State.reg_put_ne _ _ _ (ha off ho).symm)

theorem Works.hwPut (h : Works core u s t) {a : Nat} (f : BitField) (v : Nat) (ha : ∀ off, ownReg off → a ≠ coreRegs core + off) :
    Works core u s (t.hwPut a f v) := .ite h (h.put f v ha)

theorem Notes.works (h : Notes s t) (core : Fin 256) (u : UnitId) : Works core u s t := by
  refine .of h.changes.cores fun off ho => h.regs _ (noteReg_coreReg core (ownReg_lt ho) ?_ ?_ ?_) <;>
    unfold ownReg at ho <;> omega

/-- A register of the core's window that is none of the keeper's or the counters'. -/
theorem coreReg_ne_own (core : Fin 256) {x : Nat} (hx : ¬ownReg x) : ∀ off, ownReg off → coreRegs core + x ≠ coreRegs core + off :=
  fun _ ho e => hx (Nat.add_left_cancel e ▸ ho)

/-- A control register. -/
theorem ctlReg_ne_own (core : Fin 256) {a : Nat} (h : 0x400000000 ≤ a) : ∀ off, ownReg off → a ≠ coreRegs core + off :=
  fun _ ho => (Nat.lt_of_lt_of_le (coreReg_lt core (ownReg_lt ho)) h).ne'

theorem State.readLines_works (s : State) (core : Fin 256) (u : UnitId) (a len : Nat) : Works core u s (s.readLines core u a len).1 := by
  unfold State.readLines
  extract_lets bad
  split
  · exact .refl _ u s
  · next r hr =>
    exact ((s.noteLines_notes bad (some core) (some (dTag r.desc)) r.logged).works core u).trans
      (State.modRun_works _ _ u _ fun _ => ⟨rfl, rfl, rfl, rfl⟩)

theorem State.readLines_reg (s : State) (n : Nat) (u : UnitId) (a len : Nat) {b : Nat} (h : noteReg b = false) :
    (s.readLines n u a len).1.reg b = s.reg b := by
  unfold State.readLines
  extract_lets bad
  split
  · rfl
  · exact (State.reg_congr (State.modRun_changes _ _ _ _).regs b).trans ((s.noteLines_notes _ _ _ _).regs b h)

theorem State.faultCore_works (s : State) (core : Fin 256) (code : Nat) (u : UnitId) : Works core u s (s.faultCore core code) := by
  by_cases h : s.active core
  · have hc := State.faultCore_core code h
    exact ⟨fun m hm => s.faultCore_core_ne code hm, fun _ => by rw [hc]; rfl, fun _ => by rw [hc]; rfl, by rw [hc], by rw [hc],
      fun off ho => State.active_faultCore_regs code h _ (ownReg_not_refreshed core ho), fun r hr => ⟨r, by rw [hc]; exact hr, rfl, rfl, rfl, rfl⟩⟩
  · unfold State.faultCore
    rw [if_neg (show ¬(s.coreState core = stRunning ∨ s.coreState core = stHalted) from h)]
    exact .refl _ u s

/-- A refusal of a stream's head leaves the streams and what the units run. -/
theorem State.refuseHead_works (s : State) (core : Fin 256) (onX : Bool) (d : List Word) (code : Nat) (u : UnitId) :
    Works core u s (s.refuseHead core onX d code) := by
  unfold State.refuseHead
  split
  · extract_lets bad v
    exact (((State.foldl_notes _ (fun t q => (Notes.refl t).hwSet _ _ (noteReg_QUEUE_STAT core)) bad s).trans (v.logCore_notes _ _ _ _ _)).works core u).trans
      (State.faultCore_works _ core code u)
  · exact ((s.logCore_notes _ _ _ _ _).works core u).trans (State.faultCore_works _ core code u)

theorem State.refuseUnknown_works (s : State) (core : Fin 256) (onX : Bool) (u : UnitId) : Works core u s (s.refuseUnknown core onX) := by
  unfold State.refuseUnknown
  split
  · refine .ite ?_ (.refl _ u s)
    split
    · exact s.refuseHead_works core onX _ _ u
    · exact .refl _ u s
  · exact .refl _ u s

/-! ### The vector unit -/

theorem State.vecStart_works (s : State) (core : Fin 256) (i : Nat) (d : List Word) :
    Works core .vector s (s.vecStart core i d) ∧ (s.vecStart core i d).get (Reg.VEC_STAT core) Fld.VEC_STAT.busy = 1 := by
  unfold State.vecStart
  extract_lets o lanes read bad res
  split
  rename_i t logged e
  extract_lets t1 t2
  have ht : Works core .vector s t := by
    have := (s.noteLines_notes bad (some core) (some (dTag d)) []).works core .vector
    rwa [e] at this
  have h1 : Works core .vector s t1 := by
    refine .ite ?_ ht
    exact (ht.put _ _ (ctlReg_ne_own core (by decide))).trans (.of rfl fun _ _ => rfl)
  have h2 : Works core .vector s t2 := h1.put _ _ (coreReg_ne_own core (x := 0x810) (by unfold ownReg; omega))
  refine ⟨h2.trans (State.modRun_works _ _ _ _ fun _ => ⟨rfl, rfl, rfl, rfl⟩), ?_⟩
  rw [State.get_congr (State.modRun_changes _ _ _ _).regs]
  exact State.get_put_same _ _ _ _ (by decide)

/-! ### The array -/

theorem MmulOp.f_ge (o : MmulOp) : 8 ≤ o.f := by
  unfold MmulOp.f
  split
  · exact Nat.le_refl _
  · split <;> decide

/-- In its first beat the array fills (R122, R135): no row enters, and none drains. -/
theorem State.arrayBeat_first {s : State} {n : Nat} {r : RunOp} {o : MmulOp} (h : s.mmulNow n = some (r, o, 0))
    (hd : ∀ r', ((s.arrayFill n o 0 0).core n).array = some r' → o.d < r'.cost) : s.arrayBeat n = s.arrayFill n o 0 0 := by
  have hf := o.f_ge
  have hfill : o.fillAt 0 = some (0, 0) := if_pos (by omega)
  have hrow0 : o.rowAt 0 = none := if_pos (by omega)
  have hrow1 : o.rowAt (0 + 1) = none := if_pos (by omega)
  have hfeed (t : State) (x : RunOp) : t.arrayFeed n x o 0 = t := by
    unfold State.arrayFeed
    rw [hrow0]
  have hindex (t : State) : t.readIndex n o 0 = t := by
    unfold State.readIndex
    rw [hrow1]
  unfold State.arrayBeat
  rw [h]
  simp only [show ¬(o.f ≤ 0 ∧ 0 = o.swapAt (o.passAt 0)) by omega, if_false, hfill, hfeed, hindex]
  cases ha : ((s.arrayFill n o 0 0).core n).array with
  | none => rw [ha]
  | some x =>
    have hx := hd x ha
    rw [ha]
    exact if_pos (by omega)

/-- What a fill beat reads: a part of the tile image, then a part of the scale image where one is left. -/
def State.fillReads (s : State) (n : Nat) (o : MmulOp) (q f : Nat) : (State × Bool) × (State × Bool) :=
  let p := s.readLines n .array (coreBase n + o.tileBase + q * o.imageBytes + 1024 * f) 1024
  (p, if 64 * f < o.scaleBytes then p.1.readLines n .array (coreBase n + o.scaleBase + q * o.scaleBytes + 64 * f) 64 else (p.1, false))

theorem State.arrayFill_eq (s : State) (n : Nat) (o : MmulOp) (q f : Nat) : ∃ w sc bad, s.arrayFill n o q f =
    (s.fillReads n o q f).2.1.setCore n { (s.fillReads n o q f).2.1.core n with shadowW := w, shadowS := sc, arrayBad := bad } :=
  ⟨_, _, _, rfl⟩

theorem State.fillReads_works (s : State) (core : Fin 256) (o : MmulOp) (q f : Nat) :
    Works core .array s (s.fillReads core o q f).2.1 := by
  have h := s.readLines_works core .array (coreBase core + o.tileBase + q * o.imageBytes + 1024 * f) 1024
  unfold State.fillReads
  dsimp only
  split
  · exact h.trans (State.readLines_works _ _ _ _ _)
  · exact h

theorem State.arrayFill_works (s : State) (core : Fin 256) (o : MmulOp) (q f : Nat) : Works core .array s (s.arrayFill core o q f) := by
  obtain ⟨w, sc, bad, h⟩ := s.arrayFill_eq core o q f
  rw [h]
  exact (s.fillReads_works core o q f).trans (.setCore _ (fun _ => rfl) (fun _ => rfl) rfl rfl fun r hr => ⟨r, hr, rfl, rfl, rfl, rfl⟩)

theorem State.arrayFill_reg (s : State) (n : Nat) (o : MmulOp) (q f : Nat) {b : Nat} (h : noteReg b = false) :
    (s.arrayFill n o q f).reg b = s.reg b := by
  obtain ⟨w, sc, bad, he⟩ := s.arrayFill_eq n o q f
  rw [he, State.reg_congr (State.setCore_regs _ _ _)]
  unfold State.fillReads
  dsimp only
  split
  · exact (State.readLines_reg _ _ _ _ _ h).trans (State.readLines_reg _ _ _ _ _ h)
  · exact State.readLines_reg _ _ _ _ _ h

/-- The first beat of an MMUL, where it drains in a later one (R132, R135). -/
theorem State.mmulStart_works {s : State} {core : Fin 256} {r : RunOp} (hr : (s.core core).array = some r) (hs : r.start = s.beatOf core)
    (hd : (mmulOf r.desc).d < r.cost) : Works core .array s (s.mmulStart core r.desc) ∧
      (s.mmulStart core r.desc).get (Reg.ARRAY_STAT core) Fld.ARRAY_STAT.busy = 1 := by
  unfold State.mmulStart
  extract_lets o c s1 s2 s3 s4
  have hne := coreReg_ne_own core (x := 0x800) (by unfold ownReg; omega)
  have h1 : Works core .array s s1 := .setCore _ (fun _ => rfl) (fun _ => rfl) rfl rfl fun x hx => ⟨x, hx, rfl, rfl, rfl, rfl⟩
  have h2 : Works core .array s s2 := h1.trans (State.modRun_works _ _ _ _ fun _ => ⟨rfl, rfl, rfl, rfl⟩)
  have h4 : Works core .array s s4 := (h2.put _ _ hne).put _ _ hne
  have hbeat : s4.beatOf core = s.beatOf core :=
    State.beatOf_congr ((State.modRun_changes s1 core .array fun r => { r with push := o.pushInfo }).reaches) core
  obtain ⟨x, hx, hxd, hxs, hxc, -⟩ := h4.runs r hr
  have hnow : s4.mmulNow core = some (x, o, 0) := by
    have hx : (s4.core core).array = some x := hx
    unfold State.mmulNow
    rw [hx]
    dsimp only
    rw [hbeat, hxs, hs, Nat.sub_self, if_pos (by omega), hxd]
  have hfirst : s4.arrayBeat core = s4.arrayFill core o 0 0 := by
    refine State.arrayBeat_first hnow fun r' h' => ?_
    obtain ⟨y, hy, -, -, hyc, -⟩ := (s4.arrayFill_works core o 0 0).runs x hx
    obtain rfl : y = r' := Option.some.inj (hy.symm.trans h')
    rw [hyc, hxc]
    exact hd
  rw [hfirst]
  refine ⟨h4.trans (State.arrayFill_works _ _ _ _ _), ?_⟩
  have hno : noteReg (Reg.ARRAY_STAT core) = false := noteReg_coreReg core (off := 0x800) (by decide) (by decide) (by decide) (by decide)
  exact (congrArg Fld.ARRAY_STAT.busy.get (s4.arrayFill_reg core o 0 0 hno)).trans (State.get_put_same _ _ _ _ (by decide))

/-! ### Starts -/

variable {onX legacy : Bool} {p : OpKind → Bool} {d : List Word} {k : OpKind}

/-- A head that starts, and the first beat of its unit. -/
theorem Starts.startOp (h : Starts s core onX legacy p d k) {go : State → List Word → OpKind → State}
    (w : Works core k.unit (s.startHead core onX d k) (go (s.startHead core onX d k) d k)) :
    s.startOp core legacy p go = go (s.startHead core onX d k) d k ∧ Started core onX d k s (go (s.startHead core onX d k) d k) := by
  have ⟨_, _, _, h4⟩ := h
  have hst := (State.startHead_started onX d k h4).works w
  have ⟨_, _, hfo, _⟩ := hst
  exact ⟨State.startOp_starts go h hfo, hst⟩

/-- The head of the stream names an operation of the class that the command looks for. -/
theorem Starts.head (h : Starts s core onX legacy p d k) :
    (∃ rest, (s.core core).fifo onX = d :: rest) ∧ opKind (opByte d) = some k ∧ p k = true := by
  obtain ⟨hd, -⟩ := h
  unfold State.headIs at hd
  split at hd
  · next x rest hx =>
    split at hd
    · next j hj =>
      split at hd
      · next hp =>
        obtain ⟨rfl, rfl⟩ := Prod.mk.inj (Option.some.inj hd)
        exact ⟨⟨rest, hx⟩, hj, by simp only [Bool.and_eq_true] at hp; exact hp.1⟩
      · cases hd
    · cases hd
  · cases hd

theorem orElse_tail_none {α : Type} {a : Option α} {f : Unit → Option α} (h : a.orElse f = none) : f () = none := by
  cases a with
  | none => exact h
  | some x => cases h

/-- A head that starts passes the check of its cost (R213, R214). -/
theorem Starts.order9 (h : Starts s core onX legacy p d k) : s.order9 core k d = none := by
  obtain ⟨⟨rest, hx⟩, hk, -⟩ := h.head
  obtain ⟨-, -, hf, -⟩ := h
  have hnone : s.refusal core onX d = none := by
    unfold State.headFate at hf
    rw [hx] at hf
    dsimp only at hf
    split at hf
    · cases hf
    · split at hf
      · split at hf <;> cases hf
      · assumption
  unfold State.refusal at hnone
  rw [hk] at hnone
  dsimp only at hnone
  split at hnone
  · cases hnone
  · split at hnone
    · cases hnone
    · exact orElse_tail_none (orElse_tail_none (orElse_tail_none hnone))

end Work

/-! ### The obligation -/

/-- A vector instruction that starts, in either form. -/
theorem startVec_starts {core : Fin 256} {onX legacy : Bool} {q : Nat → Bool} {d : List Word} {k : OpKind} {s : State}
    (h : Starts s core onX legacy (vecClass q) d k) :
    Started core onX d k s (s.startVec core legacy q) ∧ (s.startVec core legacy q).get (Reg.VEC_STAT core) Fld.VEC_STAT.busy = 1 := by
  obtain ⟨-, -, hp⟩ := h.head
  obtain ⟨i, rfl⟩ : ∃ i, k = .vec i := by
    cases k with
    | vec i => exact ⟨i, rfl⟩
    | _ => cases hp
  obtain ⟨hw, hb⟩ := (s.startHead core onX d (.vec i)).vecStart_works core i d
  obtain ⟨he, hs⟩ := h.startOp (go := State.vecGo core) hw
  rw [State.startVec_eq, he]
  exact ⟨hs, hb⟩

/-- An MMUL that starts, in either form. -/
theorem startMmul_starts {core : Fin 256} {onX legacy : Bool} {d : List Word} {k : OpKind} {s : State}
    (h : Starts s core onX legacy (· == .mmul) d k) :
    Started core onX d k s (s.startMmul core legacy) ∧ (s.startMmul core legacy).get (Reg.ARRAY_STAT core) Fld.ARRAY_STAT.busy = 1 := by
  obtain ⟨-, -, hp⟩ := h.head
  obtain rfl : k = .mmul := eq_of_beq hp
  have hcost : dCost d = s.mmulCost core (mmulOf d) := by
    have h9 := h.order9
    unfold State.order9 at h9
    by_contra hne
    simp [hne] at h9
  have ⟨_, _, _, h4⟩ := h
  obtain ⟨⟨r, hr, rfl, hb, hc, -⟩, -⟩ := State.startHead_started onX d .mmul h4
  have hbeat : (s.startHead core onX r.desc .mmul).beatOf core = s.beatOf core :=
    State.beatOf_congr (s.startHead_changes core onX r.desc .mmul).reaches core
  have hd : (mmulOf r.desc).d < r.cost := by
    rw [hc, hcost, State.mmulCost]
    omega
  obtain ⟨hw, hbusy⟩ := State.mmulStart_works hr (hb.trans hbeat.symm) hd
  obtain ⟨he, hs⟩ := h.startOp (go := fun t d _ => t.mmulStart core d) hw
  rw [State.startMmul, he]
  exact ⟨hs, hbusy⟩

/-- A no-operation that starts; a head that names no operation may be refused after it. -/
theorem startNop_starts {core : Fin 256} {onX onX' : Bool} {p : OpKind → Bool} {d : List Word} {k : OpKind} {s : State}
    (h : Starts s core onX false p d k) :
    Started core onX d k s ((s.startOp core false p fun t _ _ => t).refuseUnknown core onX') := by
  obtain ⟨he, hs⟩ := h.startOp (go := fun t _ _ => t) (.refl _ _ _)
  rw [he]
  exact hs.works (State.refuseUnknown_works _ core onX' _)

/-- Settles O25: the start of a head, then the first beat of its unit, which leaves the operation as it started. -/
theorem unitStarts : Obligations.UnitStarts := by
  unfold Obligations.UnitStarts
  refine ⟨fun core onX d k s => ⟨fun i c hc h => ?_, fun h => ?_⟩, fun core onX d k s => ⟨fun h => ?_, fun h => ?_, fun h => ?_, fun h => ?_⟩⟩
  · exact Gives.intro (exec_vecCmds hc s) (startVec_starts (by rwa [vecClass_beq]))
  · refine Gives.intro (rfl : exec (.lvector core) s = .next (s.startVec core true fun _ => true)) (startVec_starts ?_)
    have hp : (vecClass fun _ => true) = fun k => match k with
        | .vec _ => true
        | _ => false := by
      funext k
      cases k <;> rfl
    rwa [hp]
  · exact Gives.intro (rfl : exec (.mmul core) s = .next (s.startMmul core false)) (startMmul_starts h)
  · exact Gives.intro (rfl : exec (.lmmul core) s = .next (s.startMmul core true)) (startMmul_starts h)
  · exact Gives.intro (rfl : exec (.xnop core) s = .next ((s.startOp core false (· == .xnop) fun t _ _ => t).refuseUnknown core true))
      (startNop_starts h)
  · exact Gives.intro (rfl : exec (.anop core) s = .next ((s.startOp core false (· == .anop) fun t _ _ => t).refuseUnknown core false))
      (startNop_starts h)

end Sys2Proof.Machine
end

section
/-! SUPPORT. What the feeder and the sluices do in the first beat of an operation (R229, R301, R306): barges enter the mesh, and the core is
left; with the obligation on their starts. -/

namespace Sys2Proof.Machine

/-! ### Injections (R287, R308, R309) -/

theorem State.addFlit_sigsAlone (s : State) (f : Flit) : SigsAlone s (s.addFlit f) := .record (.refl s) rfl rfl

theorem State.freeCredit_sigsAlone (s : State) (f : Flit) : SigsAlone s (s.freeCredit f) := by
  unfold State.freeCredit
  split
  · exact .refl s
  · extract_lets c x
    exact .ite (.refl s) (.record (.refl s) rfl rfl)

theorem State.admitFlit_sigsAlone (s : State) (f : Flit) : SigsAlone s (s.admitFlit f) :=
  .ite (s.freeCredit_sigsAlone f) (s.addFlit_sigsAlone f)

theorem State.mcSet_sigsAlone (s : State) (e : McEntry) : SigsAlone s (s.mcSet e) := .record (.refl s) rfl rfl

theorem State.mcDel_sigsAlone (s : State) (node id : Nat) : SigsAlone s (s.mcDel node id) := .record (.refl s) rfl rfl

theorem State.replyBack_sigsAlone (s : State) (node : Nat) (input : Branch) (port : MeshPort) (at_ ty id : Nat) (pay : BitVec 512) :
    SigsAlone s (s.replyBack node input port at_ ty id pay) := by
  unfold State.replyBack
  exact State.addFlit_sigsAlone _ _

theorem SigsAlone.addSat {s t : State} (h : SigsAlone s t) {a : Nat} (f : BitField) (v : Nat) (ha : blockBase 2 ≤ a) :
    SigsAlone s (t.addSat a f v) := .ite h (h.put ha)

theorem State.countBusy_sigsAlone (s : State) : SigsAlone s s.countBusy := (SigsAlone.refl s).addSat _ _ (le_blockReg (by decide))

/-- A barge that arrives at a router input changes the mesh. -/
theorem State.enter_sigsAlone (s : State) (node : Nat) (input : Branch) (src at_ : Nat) (b : Barge) :
    SigsAlone s (s.enter node input src at_ b) := by
  unfold State.enter
  split
  · exact ((SigsAlone.refl s).addSat _ _ (le_blockReg (by decide))).logErr _
  · extract_lets b' flit id ty outs
    refine .ite (s.addFlit_sigsAlone _) ?_
    split
    · exact .ite ((s.mcSet_sigsAlone _).trans (State.admitFlit_sigsAlone _ _)) (s.freeCredit_sigsAlone _)
    · exact .ite (s.countBusy_sigsAlone.trans (State.replyBack_sigsAlone _ _ _ _ _ _ _ _)) (.ite (s.admitFlit_sigsAlone _)
        (.ite ((s.mcDel_sigsAlone _ _).trans (State.admitFlit_sigsAlone _ _)) (.ite (s.mcSet_sigsAlone _) (s.mcSet_sigsAlone _))))

theorem State.takeWidth_sigsAlone (s : State) (node : Nat) (p : MeshPort) (d : Nat) : SigsAlone s (s.takeWidth node p d).1 :=
  .ofCores (s.takeWidth_changes node p d).cores ((SameBelowPace.refl s).record (s.takeWidth_regs node p d))

theorem State.injectRaw_sigsAlone (s : State) (a : Agent) (via src d : Nat) (b : Barge) : SigsAlone s (s.injectRaw a via src d b) :=
  (s.takeWidth_sigsAlone _ _ _).trans (State.enter_sigsAlone _ _ _ _ _ _)

theorem State.inject_sigsAlone (s : State) (a : Agent) (src d : Nat) (b : Barge) : SigsAlone s (s.inject a src d b) := by
  unfold State.inject
  extract_lets chip
  refine .ite (s.injectRaw_sigsAlone _ _ _ _ _) (.ite (s.injectRaw_sigsAlone _ _ _ _ _) ?_)
  split
  · exact s.injectRaw_sigsAlone _ _ _ _ _
  · exact .logErr (.refl s) _

/-! ### A sluice's first beat -/

/-- Sluice `sl` has worked, and its count of starts stands. -/
structure Sends (core : Fin 256) (sl : Fin 4) (s t : State) : Prop where
  works : Works core (.sluice sl) s t
  count : t.get (Reg.SLUICE_STAT core sl) Fld.SLUICE_STAT.started = s.get (Reg.SLUICE_STAT core sl) Fld.SLUICE_STAT.started

theorem SLUICE_STAT_off (sl : Fin 4) : 0x400 + 8 * sl.val < 0x1000 ∧ ¬ownReg (0x400 + 8 * sl.val) := by
  unfold ownReg
  omega

section Sends

variable {core : Fin 256} {sl : Fin 4} {s t v : State}

namespace Sends

theorem refl (core : Fin 256) (sl : Fin 4) (s : State) : Sends core sl s s := ⟨.refl _ _ s, rfl⟩

theorem trans (h : Sends core sl s t) (k : Sends core sl t v) : Sends core sl s v := ⟨h.works.trans k.works, k.count.trans h.count⟩

theorem ite {c : Prop} [Decidable c] (h : Sends core sl s t) (k : Sends core sl s v) : Sends core sl s (if c then t else v) := by
  split <;> assumption

/-- An operation that leaves the cores and their registers. -/
theorem below (hc : t.cores = s.cores) (h : SameBelowPace s t) : Sends core sl s t := by
  refine ⟨.of hc fun off ho => h _ (coreReg_belowPace core (ownReg_lt ho)), congrArg Fld.SLUICE_STAT.started.get (h _ ?_)⟩
  rw [Reg.SLUICE_STAT, Nat.add_assoc]
  exact coreReg_belowPace core (SLUICE_STAT_off sl).1

/-- A field of SLUICE_STAT is set, the count apart. -/
theorem put (h : Sends core sl s t) (f : BitField) (x : Nat) (hf : f.lo + f.width ≤ 48) :
    Sends core sl s (t.put (Reg.SLUICE_STAT core sl) f x) := by
  refine h.trans ⟨(Works.refl _ _ t).put f x ?_, State.get_put_other _ _ _ _ _ (.inl hf)⟩
  rw [Reg.SLUICE_STAT, Nat.add_assoc]
  exact coreReg_ne_own core (SLUICE_STAT_off sl).2

theorem modRun (h : Sends core sl s t) (f : RunOp → RunOp)
    (hf : ∀ r, (f r).desc = r.desc ∧ (f r).start = r.start ∧ (f r).cost = r.cost ∧ (f r).legacy = r.legacy) :
    Sends core sl s (t.modRun core (.sluice sl) f) :=
  h.trans ⟨State.modRun_works t core _ f hf, State.get_congr (State.modRun_changes _ _ _ _).regs _ _⟩

end Sends

theorem State.setTx_sends (s : State) (x : Tx) : Sends core sl s (s.setTx core sl x) := .below rfl ((SameBelowPace.refl s).record rfl)

theorem State.injectRaw_sends (s : State) (a : Agent) (via src d : Nat) (b : Barge) : Sends core sl s (s.injectRaw a via src d b) :=
  .below (s.injectRaw_changes a via src d b).cores (s.injectRaw_sigsAlone a via src d b).regs

theorem State.exitOf_sends (s : State) (chip : Nat) (adapt : Bool) : Sends core sl s (s.exitOf chip adapt).1 := by
  unfold State.exitOf
  split
  · exact .refl _ _ s
  · split
    · exact .ite (.below rfl ((SameBelowPace.refl s).put (le_blockReg (by decide)))) (.refl _ _ s)
    · exact .refl _ _ s

theorem State.sendBy_sends (s : State) (n d chip : Nat) (ex : Option (Fin 48)) (b : Barge) : Sends core sl s (s.sendBy n sl d chip ex b) :=
  .ite (.below (s.logErr_changes _).cores ((SameBelowPace.refl s).logErr _)) (s.injectRaw_sends _ _ _ _ _)

theorem State.showTx_sends (s : State) : Sends core sl s (s.showTx core sl) := by
  unfold State.showTx
  extract_lets a
  split
  · exact (Sends.put (.refl _ _ s) _ _ (by decide)).put _ _ (by decide)
  · exact (Sends.put (.refl _ _ s) _ _ (by decide)).put _ _ (by decide)

/-- The look-ups of a sub-transfer's OPEN: its own exit, and that of its READ. -/
def State.openExits (s : State) (x : SubTx) : State × Option (Fin 48) :=
  if x.mcast.isSome then (s, none) else s.exitOf x.chip (x.rclass == 2)

theorem State.openSub_eq (s : State) (n sl berth vmask pset : Nat) (x : SubTx) : ∃ tx b, s.openSub n sl berth vmask pset x =
    ((((s.openExits x).1.exitOf x.sChip false).1.setTx n sl tx).sendBy n sl 0 x.chip (s.openExits x).2 b).showTx n sl :=
  ⟨_, _, rfl⟩

theorem State.openSub_sends (s : State) (berth vmask pset : Nat) (x : SubTx) : Sends core sl s (s.openSub core sl berth vmask pset x) := by
  obtain ⟨tx, b, h⟩ := s.openSub_eq core sl berth vmask pset x
  have h1 : Sends core sl s (s.openExits x).1 := by
    unfold State.openExits
    split
    · exact .refl _ _ s
    · exact s.exitOf_sends _ _
  rw [h]
  exact (((h1.trans (State.exitOf_sends _ _ _)).trans (State.setTx_sends _ _)).trans (State.sendBy_sends _ _ _ _ _ _)).trans
    (State.showTx_sends _)

theorem State.readMap_sends (s : State) (a len rclass : Nat) : Sends core sl s (s.readMap core sl a len rclass) :=
  .below (s.readMap_changes core sl a len rclass).cores (s.inject_sigsAlone _ _ _ _).regs

/-- A count of starts that no write of the beat has set (R17). -/
def State.countsStart (core : Fin 256) (sl : Fin 4) (s t : State) : Prop :=
  s.written (Reg.SLUICE_STAT core sl) Fld.SLUICE_STAT.started = false →
    t.get (Reg.SLUICE_STAT core sl) Fld.SLUICE_STAT.started =
      (s.get (Reg.SLUICE_STAT core sl) Fld.SLUICE_STAT.started + 1) % 2 ^ Fld.SLUICE_STAT.started.width

theorem State.addTo_started (s : State) : Works core (.sluice sl) s (s.addTo (Reg.SLUICE_STAT core sl) Fld.SLUICE_STAT.started 1) ∧
    State.countsStart core sl s (s.addTo (Reg.SLUICE_STAT core sl) Fld.SLUICE_STAT.started 1) := by
  refine ⟨(Works.refl _ _ s).hwPut _ _ ?_, fun hw => ?_⟩
  · rw [Reg.SLUICE_STAT, Nat.add_assoc]
    exact coreReg_ne_own core (SLUICE_STAT_off sl).2
  · rw [State.addTo, State.hwPut, hw, if_neg (by decide)]
    exact State.get_put_same _ _ _ _ (by decide)

theorem Sends.counts (h : State.countsStart core sl s t) (k : Sends core sl t v) : State.countsStart core sl s v :=
  fun hw => k.count.trans (h hw)

/-- What leaves a sluice in its first beat: an OPEN, or the READ of a page map (R301, R306). -/
def State.sluOpens (s : State) (n : Nat) (sl : Fin 4) (o : SluOp) : State :=
  match o.kind with
  | .copy =>
    let x := s.mkSub n 0 o.flat (some o.src) o.dst o.rows o.rowB o.sstr o.dstr o.rclass
    (s.setTx n sl { nextRow := 1 }).openSub n sl (berthFor n o x) 0 0 x
  | .cast =>
    let tree := o.dests.testBit 63
    let id := if tree then 0x400 + o.dests / 2 ^ 48 % 1024 else 4 * n + sl
    let vmask := o.dests % 2 ^ 32
    let local_ := !tree || treeLocal.get (s.treeWord s.bank (id - 0x400) 0) == 1
    let pset := if local_ then s.expand vmask else 0
    let x := s.mkSub n 0 false (some o.src) (coreBase n + o.dst) o.rows o.rowB o.sstr o.dstr o.rclass
    let x := { x with mcast := some id, dest := id, dst := o.dst, chip := 0 }
    let berth := if windowKind o.dst = .basin then o.berth else 0x3F
    (s.setTx n sl { nextRow := 1 }).openSub n sl berth (if tree then vmask else 0) pset x
  | _ => (s.setTx n sl { stage := 0, want := 64 }).readMap n sl o.src 64 o.rclass

theorem State.sluOpens_sends (s : State) (o : SluOp) : Sends core sl s (s.sluOpens core sl o) := by
  unfold State.sluOpens
  split
  · exact (s.setTx_sends _).trans (State.openSub_sends _ _ _ _ _)
  · exact (s.setTx_sends _).trans (State.openSub_sends _ _ _ _ _)
  · exact (s.setTx_sends _).trans (State.readMap_sends _ _ _ _)

/-- The producer fields of a sluice's pushes (R239). -/
def SluOp.pushInfo (o : SluOp) : PushInfo :=
  { addr := if o.kind ≠ .copy ∨ gAddr o.dst < 0x400000000 then gAddr o.dst % 0x4000000 else gAddr o.dst % 2 ^ 32
    len := o.rows * o.rowB, stride := o.dstr / 32, fmt := o.fmt }

theorem State.sluPush_sends (s : State) (x : PushInfo) : Sends core sl s
    ((s.put (Reg.SLUICE_STAT core sl) Fld.SLUICE_STAT.barges 0).modRun core (.sluice sl) fun r => { r with push := x }) :=
  ((Sends.refl _ _ s).put _ _ (by decide)).modRun _ fun _ => ⟨rfl, rfl, rfl, rfl⟩

theorem State.sluStart_eq (s : State) (n : Nat) (d : List Word) {k : OpKind} {kind : SluKind} (hs : sluKind k = some kind)
    (hk : k.unit = .sluice sl) : s.sluStart n d k =
      (((s.addTo (Reg.SLUICE_STAT n sl) Fld.SLUICE_STAT.started 1).put (Reg.SLUICE_STAT n sl) Fld.SLUICE_STAT.barges 0).modRun n (.sluice sl)
        fun r => { r with push := (sluOf n kind d).pushInfo }).sluOpens n sl (sluOf n kind d) := by
  unfold State.sluStart State.sluOpens SluOp.pushInfo
  split
  · next kind' sl' hs' hk' =>
    obtain rfl : kind = kind' := Option.some.inj (hs.symm.trans hs')
    obtain rfl : sl = sl' := UnitId.sluice.inj (hk.symm.trans hk')
    generalize sluOf n kind d = o
    cases o with
    | mk form => cases form <;> rfl
  · next h => exact absurd hk (h kind sl hs)

/-- A sluice's first beat: a start is counted, and an OPEN or the READ of a page map leaves. -/
theorem State.sluStart_works (s : State) (d : List Word) {k : OpKind} {kind : SluKind} (hs : sluKind k = some kind)
    (hk : k.unit = .sluice sl) :
    Works core (.sluice sl) s (s.sluStart core d k) ∧ State.countsStart core sl s (s.sluStart core d k) := by
  obtain ⟨hw, hc⟩ := s.addTo_started (core := core) (sl := sl)
  have htail : Sends core sl (s.addTo (Reg.SLUICE_STAT core sl) Fld.SLUICE_STAT.started 1) (s.sluStart core d k) := by
    rw [s.sluStart_eq core d hs hk]
    exact (State.sluPush_sends _ _).trans (State.sluOpens_sends _ _)
  exact ⟨hw.trans htail.works, htail.counts hc⟩

end Sends

end Sys2Proof.Machine
end

section
/-! SUPPORT. A head that starts sets no mark and leaves the counts of the sluices, and the obligation on the starts of movers. -/

namespace Sys2Proof.Machine

/-! ### Marks -/

/-- What the mark of a register depends on. -/
theorem State.mark_congr_all {s t : State} (hm : t.marks = s.marks) (hr : t.reaches = s.reaches) (hn : t.now = s.now) (hd : t.die = s.die)
    (hi : t.idle = s.idle) (hb : t.reg Reg.PACE_BEAT = s.reg Reg.PACE_BEAT) (hp : ∀ r < 16, t.period r = s.period r) {a : Nat}
    (ha : a < 0x400000000) : t.mark a = s.mark a := by
  have hreach (r : Nat) : t.reach r = s.reach r := State.reach_congr hr r
  have hper : t.period (reachOf (a / 0x4000000)) = s.period (reachOf (a / 0x4000000)) := by
    refine hp _ ?_
    unfold reachOf
    omega
  simp only [State.mark, State.get, decide_eq_true ha, if_true, hm, hreach, hn, hd, hi, hb, hper]

/-- Core registers and parts of the cores have changed, and no mark. -/
structure Unmarking (s t : State) : Prop where
  changes : Changes [.regs, .cores] s t
  marks   : t.marks = s.marks

namespace Unmarking

variable {s t u : State}

theorem refl (s : State) : Unmarking s s := ⟨.refl _ s, rfl⟩

theorem trans (h : Unmarking s t) (k : Unmarking t u) : Unmarking s u := ⟨h.changes.trans k.changes, k.marks.trans h.marks⟩

theorem setCore (h : Unmarking s t) (n : Nat) (c : Core) : Unmarking s (t.setCore n c) := h.trans ⟨(t.setCore_changes n c).widen rfl, rfl⟩

theorem refresh (h : Unmarking s t) (n : Nat) : Unmarking s (t.refresh n) := h.trans ⟨(t.refresh_changes n).widen rfl, rfl⟩

theorem addTo (h : Unmarking s t) (a : Nat) (f : BitField) (v : Nat) : Unmarking s (t.addTo a f v) :=
  h.trans ⟨(t.addTo_changes a f v).widen rfl, t.hwPut_marks a f _⟩

end Unmarking

theorem State.pop_unmarking (s : State) (n q : Nat) : Unmarking s (s.pop n q) := by
  unfold State.pop
  exact (((Unmarking.refl s).setCore n _).refresh n).trans (State.latePushes_rel (fun s => .refl s) (fun _ _ _ h k => h.trans k)
    (fun s _ _ _ => ((Unmarking.refl s).setCore n _).refresh n) (fun s _ => (Unmarking.refl s).setCore n _) _)

theorem State.pops_unmarking (l : List Nat) (s : State) (n : Nat) : Unmarking s (l.foldl (fun t q => t.pop n q) s) := by
  induction l generalizing s with
  | nil => exact .refl s
  | cons q l ih => exact (s.pop_unmarking n q).trans (ih _)

theorem State.preServed_unmarking (s : State) (n : Nat) (d : List Word) : Unmarking s (s.preServed n d) := by
  unfold State.preServed
  split
  · exact ⟨s.serve_changes _ _ _, rfl⟩
  · exact .refl s

theorem State.startHead_unmarking (s : State) (n : Nat) (onX : Bool) (d : List Word) (k : OpKind) : Unmarking s (s.startHead n onX d k) := by
  rw [State.startHead_eq]
  exact ((((s.preServed_unmarking n d).trans (State.pops_unmarking _ _ n)).setCore n _).addTo _ _ _).refresh n

/-- Registers that a head which starts leaves: those of other windows, and its own that it does not show. -/
theorem State.startHead_reg (s : State) (core : Fin 256) (onX : Bool) (d : List Word) (k : OpKind) {a : Nat} (h1 : a ∉ coreShown core)
    (h2 : a ≠ Reg.LOCK_CNT core (dPre d).index) : (s.startHead core onX d k).reg a = s.reg a := by
  have hst : a ∉ [streamStat core onX] := by
    simp only [coreShown, List.mem_cons, List.not_mem_nil, or_false, not_or] at h1
    obtain ⟨-, -, -, ha, hx, -, -⟩ := h1
    cases onX
    · simpa [streamStat] using ha
    · simpa [streamStat] using hx
  rw [State.startHead_eq]
  exact ((State.refresh_sameRegs _ _ _ h1).trans (State.hwPut_regs _ _ _ _ _ hst)).trans ((State.reg_congr (State.setCore_regs _ _ _) _).trans
    (((State.pops_queuesAlone _ core (popped d)).regs _ h1).trans (s.preServed_reg core d h2)))

theorem State.startHead_SLUICE_STAT (s : State) (core : Fin 256) (sl : Fin 4) (onX : Bool) (d : List Word) (k : OpKind) :
    (s.startHead core onX d k).reg (Reg.SLUICE_STAT core sl) = s.reg (Reg.SLUICE_STAT core sl) := by
  have hi : (dPre d).index < 64 := Nat.mod_lt _ (by decide)
  refine s.startHead_reg core onX d k ?_ ?_
  · rw [Reg.SLUICE_STAT, Nat.add_assoc]
    refine coreReg_not_coreShown core (SLUICE_STAT_off sl).1 ?_
    simp only [List.mem_cons, List.not_mem_nil, or_false]
    omega
  · simp only [Reg.SLUICE_STAT, Reg.LOCK_CNT]
    omega

theorem State.startHead_ctl (s : State) (core : Fin 256) (onX : Bool) (d : List Word) (k : OpKind) {a : Nat} (h : 0x400000000 ≤ a)
    (hd : a ≠ Reg.DTRM_STAT) : (s.startHead core onX d k).reg a = s.reg a := by
  have hi : (dPre d).index < 64 := Nat.mod_lt _ (by decide)
  refine s.startHead_reg core onX d k (ctlReg_not_coreShown core h hd) ?_
  rw [Reg.LOCK_CNT, Nat.add_assoc]
  exact (Nat.lt_of_lt_of_le (coreReg_lt core (by omega)) h).ne'

/-- The pacing block's registers, which give the beats their length. -/
theorem State.startHead_pace (s : State) (core : Fin 256) (onX : Bool) (d : List Word) (k : OpKind) {x : Nat} (hx : x < 0x10000) :
    (s.startHead core onX d k).reg (blockBase 2 + x) = s.reg (blockBase 2 + x) :=
  s.startHead_ctl core onX d k (Nat.le_trans (by decide) (le_blockReg (Nat.le_refl 2)))
    (Nat.lt_of_lt_of_le (Nat.add_lt_add_left hx _) (by decide : blockBase 2 + 0x10000 ≤ Reg.DTRM_STAT)).ne

/-- A write that has set the count of starts in the beat is still known. -/
theorem State.startHead_written (s : State) (core : Fin 256) (sl : Fin 4) (onX : Bool) (d : List Word) (k : OpKind) (f : BitField) :
    (s.startHead core onX d k).written (Reg.SLUICE_STAT core sl) f = s.written (Reg.SLUICE_STAT core sl) f := by
  have h := s.startHead_unmarking core onX d k
  have hc := h.changes
  refine State.written_congr (State.mark_congr_all h.marks hc.reaches hc.now hc.die hc.idle (s.startHead_ctl core onX d k (by decide) (by decide))
    (fun r hr => State.period_congr ?_ fun i hi => ?_) ?_) f
  · rw [Reg.PACE_OPSEL, Nat.add_assoc]
    exact s.startHead_pace core onX d k (by omega)
  · rw [Reg.PACE_OP_TABLE, Nat.add_assoc]
    exact s.startHead_pace core onX d k (by omega)
  · rw [Reg.SLUICE_STAT, Nat.add_assoc]
    exact coreReg_lt core (SLUICE_STAT_off sl).1

/-- A start counted once the head has started counts from where the count stood. -/
theorem State.countsStart_of_startHead {s t : State} {core : Fin 256} {sl : Fin 4} {onX : Bool} {d : List Word} {k : OpKind}
    (h : State.countsStart core sl (s.startHead core onX d k) t) : State.countsStart core sl s t := by
  intro hw
  have hget : (s.startHead core onX d k).get (Reg.SLUICE_STAT core sl) Fld.SLUICE_STAT.started =
      s.get (Reg.SLUICE_STAT core sl) Fld.SLUICE_STAT.started := congrArg Fld.SLUICE_STAT.started.get (s.startHead_SLUICE_STAT core sl onX d k)
  rw [← hget]
  exact h ((s.startHead_written core sl onX d k _).trans hw)

/-! ### Starts of movers -/

section Movers

variable {core : Fin 256} {onX legacy : Bool} {d : List Word} {s : State}

/-- A feeder operation that starts, in either form. -/
theorem startFeed_starts {k : OpKind} {load : Bool} (hu : k.unit = .feeder)
    (h : Starts s core onX legacy (fun k => k == if load then .fload else .fstore) d k) :
    Started core onX d k s (s.startFeed core legacy load) := by
  have hw : Works core k.unit (s.startHead core onX d k)
      ((s.startHead core onX d k).modRun core .feeder fun r => { r with push := (feedOf load d).pushInfo }) := by
    rw [hu]
    exact State.modRun_works _ _ _ _ fun _ => ⟨rfl, rfl, rfl, rfl⟩
  obtain ⟨he, hs⟩ := h.startOp (go := fun t d _ => t.modRun core .feeder fun r => { r with push := (feedOf load d).pushInfo }) hw
  rw [State.startFeed, he]
  exact hs

/-- A sluice operation that starts, in either form. -/
theorem startSlu_starts {p : OpKind → Bool} {k : OpKind} {kind : SluKind} {sl : Fin 4} (hk : sluKind k = some kind) (hu : k.unit = .sluice sl)
    (h : Starts s core onX legacy p d k) :
    Started core onX d k s (s.startSlu core legacy p) ∧ State.countsStart core sl s (s.startSlu core legacy p) := by
  obtain ⟨hw, hc⟩ := (s.startHead core onX d k).sluStart_works (core := core) d hk hu
  obtain ⟨he, hs⟩ := h.startOp (go := fun t d k => t.sluStart core d k) (by rw [hu]; exact hw)
  rw [State.startSlu, he]
  exact ⟨hs, State.countsStart_of_startHead hc⟩

/-- The first beat of an SRED (R237). -/
def State.sredGo (n : Nat) (s : State) (d : List Word) (k : OpKind) : State :=
  match k.unit with
  | .sluice sl => (s.addTo (Reg.SLUICE_STAT n sl) Fld.SLUICE_STAT.started 1).modRun n (.sluice sl) fun r => { r with
      push := { addr := (redOf d).dst, len := fmtBytes (redOf d).outFmt (redOf d).count, stride := 0, fmt := (redOf d).outFmt } }
  | _ => s

theorem exec_sred (core : Fin 256) (s : State) : exec (.sred core) s = .next (s.startOp core false (sluClass 4) (State.sredGo core)) := by
  have hp : (fun k => match k with
      | .sred _ => true
      | _ => false) = sluClass 4 := by
    funext k
    cases k <;> rfl
  rw [← hp]
  rfl

theorem State.startSlu_congr {p q : OpKind → Bool} (h : ∀ k, p k = q k) : s.startSlu core legacy p = s.startSlu core legacy q := by
  rw [funext h]

/-- The other sluice operations look for their class. -/
theorem exec_sluOpCmd (core : Fin 256) (sl : Fin 4) (s : State) {j : Fin 5} (h : j ≠ 4) :
    exec (sluOpCmd core sl j).1 s = .next (s.startSlu core false (sluClass j)) := by
  match j with
  | 0 => exact congrArg Host.Outcome.next (State.startSlu_congr fun k => by cases k <;> rfl)
  | 1 => exact congrArg Host.Outcome.next (State.startSlu_congr fun k => by cases k <;> rfl)
  | 2 => exact congrArg Host.Outcome.next (State.startSlu_congr fun k => by cases k <;> rfl)
  | 3 => exact congrArg Host.Outcome.next (State.startSlu_congr fun k => by cases k <;> rfl)
  | 4 => exact absurd rfl h

theorem exec_lcopy (core : Fin 256) (s : State) : exec (.lcopy core) s = .next (s.startSlu core true (sluClass 0)) :=
  congrArg Host.Outcome.next (State.startSlu_congr fun k => by cases k <;> rfl)

/-- An SRED that starts. -/
theorem startSred_starts {sl : Fin 4} (h : Starts s core onX false (sluClass 4) d (.sred sl)) :
    Started core onX d (.sred sl) s (s.startOp core false (sluClass 4) (State.sredGo core)) ∧
      State.countsStart core sl s (s.startOp core false (sluClass 4) (State.sredGo core)) := by
  obtain ⟨hw, hc⟩ := (s.startHead core onX d (.sred sl)).addTo_started (core := core) (sl := sl)
  have hpush : Sends core sl ((s.startHead core onX d (.sred sl)).addTo (Reg.SLUICE_STAT core sl) Fld.SLUICE_STAT.started 1)
      (State.sredGo core (s.startHead core onX d (.sred sl)) d (.sred sl)) := (Sends.refl _ _ _).modRun _ fun _ => ⟨rfl, rfl, rfl, rfl⟩
  obtain ⟨he, hs⟩ := h.startOp (go := State.sredGo core) (hw.trans hpush.works)
  rw [he]
  exact ⟨hs, State.countsStart_of_startHead (hpush.counts hc)⟩

/-- A sluice operation that starts, of whichever kind. -/
theorem sluOpCmd_starts {sl : Fin 4} {j : Fin 5} (h : Starts s core onX false (sluClass j) d (sluOpCmd core sl j).2) :
    Gives (sluOpCmd core sl j).1 s fun t =>
      Started core onX d (sluOpCmd core sl j).2 s t ∧ State.countsStart core sl s t := by
  match j with
  | 0 => exact Gives.intro (exec_sluOpCmd core sl s (by decide)) (startSlu_starts rfl rfl h)
  | 1 => exact Gives.intro (exec_sluOpCmd core sl s (by decide)) (startSlu_starts rfl rfl h)
  | 2 => exact Gives.intro (exec_sluOpCmd core sl s (by decide)) (startSlu_starts rfl rfl h)
  | 3 => exact Gives.intro (exec_sluOpCmd core sl s (by decide)) (startSlu_starts rfl rfl h)
  | 4 => exact Gives.intro (exec_sred core s) (startSred_starts h)

end Movers

/-- Settles O26: the start of a head, then the first beat of the feeder or of the sluice, which counts the start. -/
theorem moverStarts : Obligations.MoverStarts := by
  unfold Obligations.MoverStarts
  refine fun core onX d s => ⟨fun h => ?_, fun h => ?_, fun h => ?_, fun h => ?_, fun sl j h => sluOpCmd_starts h, fun sl h => ?_⟩
  · exact Gives.intro (rfl : exec (.fload core) s = .next (s.startFeed core false true)) (startFeed_starts rfl h)
  · exact Gives.intro (rfl : exec (.fstore core) s = .next (s.startFeed core false false)) (startFeed_starts rfl h)
  · exact Gives.intro (rfl : exec (.lload core) s = .next (s.startFeed core true true)) (startFeed_starts rfl h)
  · exact Gives.intro (rfl : exec (.lstore core) s = .next (s.startFeed core true false)) (startFeed_starts rfl h)
  · exact Gives.intro (exec_lcopy core s) (startSlu_starts rfl rfl h).1

end Sys2Proof.Machine
end

section
/-! SUPPORT. What registers and memory keep in a reset, and what each reset of the whole package clears (R545, R549, R577). -/

namespace Sys2Proof.Machine

/-! ### Registers kept (R549, R550) -/

/-- A register after a reset that keeps the bits of `k`. -/
def keptWord (k w r : Word) : Word := (w &&& k) ||| (r &&& ~~~k)

theorem keptWord_self (k w : Word) : keptWord k w w = w := by
  refine BitVec.eq_of_getLsbD_eq fun i hi => ?_
  simp only [keptWord, BitVec.getLsbD_or, BitVec.getLsbD_and, BitVec.getLsbD_not, hi, decide_true, Bool.true_and]
  cases w.getLsbD i <;> cases k.getLsbD i <;> rfl

theorem keptWord_keepAll (w r : Word) : keptWord keepAll w r = w := by
  rw [keptWord, keepAll, BitVec.and_allOnes, BitVec.not_allOnes, BitVec.and_zero, BitVec.or_zero]

theorem keptWord_keepNone (w r : Word) : keptWord keepNone w r = r := by
  exact (congrArg₂ (· ||| ·) BitVec.and_zero (BitVec.not_zero ▸ BitVec.and_allOnes)).trans BitVec.zero_or

/-- A field that is kept whole. -/
theorem keptWord_field {f : BitField} {k : Word} (h : f.mask &&& k = f.mask) (w r : Word) : f.get (keptWord k w r) = f.get w := by
  refine Nat.eq_of_testBit_eq fun i => ?_
  simp only [BitField.testBit_get, keptWord, BitVec.getLsbD_or, BitVec.getLsbD_and, BitVec.getLsbD_not]
  by_cases hi : i < f.width
  · by_cases h64 : f.lo + i < 64
    · have hk : k.getLsbD (f.lo + i) = true := by
        have := congrArg (·.getLsbD (f.lo + i)) h
        simpa [BitField.testBit_mask, h64, hi] using this
      simp [hk]
    · have hout (v : Word) : v.getLsbD (f.lo + i) = false := BitVec.getLsbD_of_ge v _ (by omega)
      simp only [hout, Bool.false_and, Bool.or_self]
  · simp [hi]

/-- A field of which nothing is kept. -/
theorem keptWord_field_reset {f : BitField} {k : Word} (h : f.mask &&& k = 0) (w r : Word) : f.get (keptWord k w r) = f.get r := by
  rw [keptWord, ← BitField.get_without f r k h]
  refine Nat.eq_of_testBit_eq fun i => ?_
  simp only [BitField.testBit_get, BitVec.getLsbD_or, BitVec.getLsbD_and]
  by_cases hi : i < f.width
  · have hk : (decide (f.lo + i < 64) && k.getLsbD (f.lo + i)) = false := by
      have := congrArg (·.getLsbD (f.lo + i)) h
      simpa [BitField.testBit_mask, hi] using this
    by_cases h64 : f.lo + i < 64
    · simp only [h64, decide_true, Bool.true_and] at hk
      simp [hk]
    · have hout (v : Word) : v.getLsbD (f.lo + i) = false := BitVec.getLsbD_of_ge v _ (by omega)
      simp only [hout, Bool.false_and, Bool.or_self]
  · simp [hi]

theorem smFind_mapKey (m : SMap Word) (g : Nat → Word → Word) (k : Nat) :
    smFind (m.map fun e => (e.1, g e.1 e.2)) k = (smFind m k).map (g k) := by
  induction m with
  | nil => rfl
  | cons e m ih =>
    simp only [List.map_cons, smFind]
    split
    · next h => rw [h]; rfl
    · exact ih

theorem State.keepRegs_reg (s : State) (keep : Nat → Word) (a : Nat) :
    (s.keepRegs keep).reg a = keptWord (keep a) (s.reg a) (regReset a) := by
  have h : smFind (s.keepRegs keep).regs a = (smFind s.regs a).map fun w => keptWord (keep a) w (regReset a) :=
    smFind_mapKey s.regs (fun a w => keptWord (keep a) w (regReset a)) a
  rw [State.reg, State.reg, h]
  cases smFind s.regs a with
  | none => exact (keptWord_self _ _).symm
  | some w => rfl

theorem State.keepRegs_kept (s : State) {keep : Nat → Word} {a : Nat} (h : keep a = keepAll) : (s.keepRegs keep).reg a = s.reg a := by
  rw [s.keepRegs_reg, h, keptWord_keepAll]

theorem State.keepRegs_reset (s : State) {keep : Nat → Word} {a : Nat} (h : keep a = keepNone) :
    (s.keepRegs keep).reg a = regReset a := by
  rw [s.keepRegs_reg, h, keptWord_keepNone]

theorem State.keepRegs_field (s : State) {keep : Nat → Word} {a : Nat} {f : BitField} (h : f.mask &&& keep a = f.mask) :
    (s.keepRegs keep).get a f = s.get a f := by
  rw [State.get, s.keepRegs_reg, keptWord_field h, State.get]

/-! ### The holds kept -/

theorem smFind_filter_key {α : Type} (m : SMap α) {p : Nat → Bool} {k : Nat} (h : p k = true) :
    smFind (m.filter fun c => p c.1) k = smFind m k := by
  induction m with
  | nil => rfl
  | cons e t ih =>
    obtain ⟨j, w⟩ := e
    rw [List.filter_cons]
    split
    · simp only [smFind, ih]
    · next hp =>
      have hj : j ≠ k := by rintro rfl; exact hp h
      rw [smFind, if_neg hj, ih]

theorem State.holdsOnly_byte (s : State) {a : Nat} (ha : 0x1000000000 ≤ a) : s.holdsOnly.byte a = s.byte a := by
  have hl : 0x1000000000 ≤ lineOf a := by simp only [lineOf]; omega
  simp only [State.byte, State.eccOf, State.holdsOnly, smGet]
  rw [smFind_filter_key s.mem (p := fun k => decide (0x1000000000 ≤ k)) (decide_eq_true ha),
    smFind_filter_key s.ecc (p := fun k => decide (0x1000000000 ≤ k)) (decide_eq_true hl)]

theorem State.holdsOnly_byte_low (s : State) {a : Nat} (ha : a < 0x1000000000) : s.holdsOnly.byte a = 0 := by
  have hl : lineOf a < 0x1000000000 := by simp only [lineOf]; omega
  have hf : eccFlip 0 (a % 32) = 0 := if_neg (by decide)
  simp only [State.byte, State.eccOf, State.holdsOnly, smGet]
  rw [smFind_filter_none fun v => by simpa using ha, smFind_filter_none fun v => by simpa using hl]
  exact (congrArg (fun x => (0 : Byte) ^^^ x) hf).trans rfl

/-! ### POR and TOLL resets -/

/-- Bits that a reset of the whole package keeps: the error log too, coming from Becalmed (R549). -/
def State.wholeKeep (s : State) (por : Bool) (a : Nat) : Word :=
  if s.toll.becalmed && !por && blockOfReg a == some 15 then keepAll else tollKeep por a

theorem State.wholeReset_regs (s : State) (por : Bool) :
    (s.wholeReset por).regs = ((s.keepRegs (s.wholeKeep por)).noteKind (if por then 1 else 2)).regs := by
  cases por <;> rfl

/-- A reset of the whole package ends before phase 1 (R528). -/
theorem State.wholeReset_phase (s : State) (por : Bool) : (s.wholeReset por).phase = 0 := by
  have hkeep : s.wholeKeep por Reg.TOLL_BOOT = Fld.TOLL_BOOT.boots.mask := by
    unfold State.wholeKeep
    cases s.toll.becalmed <;> cases por <;> rfl
  have hr : (s.keepRegs (s.wholeKeep por)).get Reg.TOLL_BOOT Fld.TOLL_BOOT.phase = Fld.TOLL_BOOT.phase.get (regReset Reg.TOLL_BOOT) := by
    rw [State.get, State.keepRegs_reg, hkeep, keptWord_field_reset (by decide)]
  exact (State.get_congr (s.wholeReset_regs por) _ _).trans ((State.get_put_ne _ _ _ _ (by decide)).trans (hr.trans (by decide)))

theorem State.noteKind_kind (s : State) {k : Nat} (h : k < 16) :
    (s.noteKind k).get Reg.DEV_RESET_STAT Fld.DEV_RESET_STAT.last_kind = k :=
  (State.get_put_same _ _ _ _ (by decide)).trans (Nat.mod_eq_of_lt h)

theorem State.wholeReset_kind (s : State) (por : Bool) :
    (s.wholeReset por).get Reg.DEV_RESET_STAT Fld.DEV_RESET_STAT.last_kind = if por then 1 else 2 :=
  State.noteKind_kind _ (by cases por <;> decide)

/-- What stands in the package after such a reset. -/
theorem State.wholeReset_clear (s : State) (por : Bool) : (s.wholeReset por).mem = [] ∧ (s.wholeReset por).ecc = [] ∧
    (s.wholeReset por).cores = State.reset.cores ∧ (s.wholeReset por).ibiOn = false ∧
    (s.wholeReset por).toll.resetN = s.toll.resetN := by
  cases por <;> exact ⟨rfl, rfl, rfl, rfl, rfl⟩

theorem pwrOkFall_clears {s : State} (h : s.toll.pwrOk = true) : Gives .pwrOkFall s fun t =>
    t.toll.pwrOk = false ∧ t.phase = 0 ∧ t.mem = [] ∧ t.ecc = [] ∧ t.cores = State.reset.cores ∧ t.ibiOn = false ∧
    (∀ g : Fin 4, t.railEn g = false) ∧ t.get Reg.DEV_RESET_STAT Fld.DEV_RESET_STAT.last_kind = 1 := by
  obtain ⟨hm, he, hc, hi, -⟩ := s.wholeReset_clear true
  refine Gives.intro (if_pos h) ⟨rfl, s.wholeReset_phase true, hm, he, hc, hi, fun g => ?_, s.wholeReset_kind true⟩
  have hen : (s.wholeReset true).toll.en = [false, false, false, false] := rfl
  rw [State.railEn, hen]
  revert g
  decide

theorem resetNAssert_waits {s : State} (hn : s.toll.resetN = true) (h5 : 5 ≤ s.phase) (h7 : s.phase ≤ 7) (ht : s.tollOnly = false) :
    Gives .resetNAssert s fun t => t.toll = { s.toll with resetN := false, lowAt := some s.now } ∧ t.regs = s.regs := by
  refine Gives.intro (t := { s with toll := { s.toll with resetN := false, lowAt := some s.now } }) ?_ ⟨rfl, rfl⟩
  refine (if_neg (by rw [hn]; decide)).trans (if_pos ⟨h5, h7, ?_⟩)
  exact (congrArg not ht).trans rfl

theorem resetNAssert_resets {s : State} (hn : s.toll.resetN = true) (h : s.phase < 5 ∨ 7 < s.phase ∨ s.tollOnly = true) :
    Gives .resetNAssert s fun t => t.toll.resetN = false ∧ t.phase = 0 ∧ t.mem = [] ∧ t.cores = State.reset.cores := by
  obtain ⟨u, hu⟩ : ∃ u : State, u = { s with toll := { s.toll with resetN := false } } := ⟨_, rfl⟩
  obtain ⟨hm, -, hc, -, hr⟩ := u.wholeReset_clear false
  have hp := u.wholeReset_phase false
  have hrn : (u.wholeReset false).toll.resetN = false := hr.trans (by rw [hu])
  have he : exec .resetNAssert s = .next (if u.booting && s.toll.kind == 1 then
      ({ u.wholeReset false with toll := { (u.wholeReset false).toll with kind := 1 } } : State).noteKind 1 else u.wholeReset false) := by
    subst hu
    refine (if_neg (by rw [hn]; decide)).trans (if_neg fun ⟨h5, h7, ht⟩ => ?_)
    rcases h with h | h | h
    · exact Nat.not_le_of_lt h h5
    · exact Nat.not_le_of_lt h h7
    · have ht : (!s.tollOnly) = true := ht
      rw [h] at ht
      cases ht
  refine Gives.intro he ?_
  split
  · exact ⟨hrn, (State.get_put_ne _ _ _ _ (by decide)).trans hp, hm, hc⟩
  · exact ⟨hrn, hp, hm, hc⟩

theorem tollReset_absorbed {s : State} (h : s.booting = true) : exec .tollReset s = .next s := congrArg Host.Outcome.next (if_pos h)

theorem tollReset_clears {s : State} (h : s.booting = false) : Gives .tollReset s fun t =>
    t.phase = (if s.toll.resetN = true then 1 else 0) ∧ t.mem = [] ∧ t.cores = State.reset.cores ∧ t.toll.pwrOk = s.toll.pwrOk ∧
    t.get Reg.DEV_RESET_STAT Fld.DEV_RESET_STAT.last_kind = 2 := by
  obtain ⟨hm, -, hc, -, hr⟩ := s.wholeReset_clear false
  have he : exec .tollReset s = .next (if (s.wholeReset false).toll.resetN then (s.wholeReset false).startBoot else s.wholeReset false) :=
    congrArg Host.Outcome.next (if_neg (by rw [h]; decide))
  have hk := s.wholeReset_kind false
  refine Gives.intro he ?_
  rw [hr]
  split
  · have hb := (s.wholeReset false).startBoot_changes
    refine ⟨State.startBoot_phase _, (hb.mem rfl).trans hm, (hb.cores rfl).trans hc, ?_, ?_⟩
    · rw [State.startBoot_toll]
      rfl
    · rw [State.get, State.startBoot_sameRegs _ _ (by decide)]
      exact hk
  · exact ⟨s.wholeReset_phase false, hm, hc, rfl, hk⟩

/-! ### DEV resets -/

theorem devReset_absorbed {s : State} (h : s.ready = false) : exec .devReset s = .next s :=
  congrArg Host.Outcome.next (if_pos (by rw [h]; rfl))

/-- The state from which the ROM starts after a DEV reset that the pin did not ask for. -/
def State.devNoted (s : State) : State := (s.devCleared.noteKind 3).put Reg.DEV_RESET_STAT Fld.DEV_RESET_STAT.by_pin 0

theorem State.startBoot_boots {s : State} (h : s.toll.kind = 3) :
    s.startBoot.get Reg.TOLL_BOOT Fld.TOLL_BOOT.boots = s.get Reg.TOLL_BOOT Fld.TOLL_BOOT.boots := by
  rw [State.startBoot, State.setPhase_get_TOLL_BOOT _ _ _ (by decide)]
  refine State.get_congr ?_ _ _
  rw [if_pos h]

theorem devReset_keepsHolds {s : State} (h : s.ready = true) : Gives .devReset s fun t =>
    t.phase = 1 ∧ t.get Reg.DEV_RESET_STAT Fld.DEV_RESET_STAT.last_kind = 3 ∧
    t.get Reg.DEV_RESET_STAT Fld.DEV_RESET_STAT.by_pin = 0 ∧ t.cores = State.reset.cores ∧
    t.get Reg.TOLL_BOOT Fld.TOLL_BOOT.boots = s.get Reg.TOLL_BOOT Fld.TOLL_BOOT.boots ∧
    (s.wf = true → (∀ a, 0x1000000000 ≤ a → t.byte a = s.byte a) ∧ ∀ a < 0x1000000000, t.byte a = 0) := by
  have he : exec .devReset s = .next s.devNoted.startBoot := congrArg Host.Outcome.next (if_neg (by rw [h]; decide))
  have hb := s.devNoted.startBoot_changes
  have hbyte (a : Nat) : s.devNoted.startBoot.byte a = s.holdsOnly.byte a := State.byte_congr (hb.mem rfl) (hb.ecc rfl) a
  have hstat (f : BitField) : s.devNoted.startBoot.get Reg.DEV_RESET_STAT f = s.devNoted.get Reg.DEV_RESET_STAT f :=
    congrArg f.get (State.startBoot_sameRegs _ _ (by decide))
  refine Gives.intro he ⟨State.startBoot_phase _, ?_, ?_, (hb.cores rfl).trans rfl, ?_, fun _ => ⟨fun a ha => ?_, fun a ha => ?_⟩⟩
  · exact (hstat _).trans ((State.get_put_other _ _ _ _ _ (by decide)).trans (State.noteKind_kind _ (by decide)))
  · exact (hstat _).trans (State.get_put_same _ _ _ _ (by decide))
  · refine (State.startBoot_boots rfl).trans ?_
    refine (State.get_put_ne _ _ _ _ (by decide)).trans ((State.get_put_ne _ _ _ _ (by decide)).trans ?_)
    exact s.keepRegs_field (keep := devKeep) (by decide)
  · exact (hbyte a).trans (s.holdsOnly_byte ha)
  · exact (hbyte a).trans (s.holdsOnly_byte_low ha)

end Sys2Proof.Machine
end

section
/-! SUPPORT. A CTX reset begins (R546): what is sent for it leaves the landing places, and the cores abandon what they do. -/

namespace Sys2Proof.Machine

/-! ### Landing places (R301) -/

/-- The same places wait for data. -/
def SameLanding (s t : State) : Prop := t.mesh.landing = s.mesh.landing

namespace SameLanding

variable {s t v : State}

theorem refl (s : State) : SameLanding s s := rfl

theorem trans (h : SameLanding s t) (k : SameLanding t v) : SameLanding s v := Eq.trans k h

theorem ite {c : Prop} [Decidable c] (h : SameLanding s t) (k : SameLanding s v) : SameLanding s (if c then t else v) := by
  split <;> assumption

theorem foldl {α : Type} {f : State → α → State} (h : ∀ u a, SameLanding u (f u a)) (l : List α) (s : State) : SameLanding s (l.foldl f s) := by
  induction l generalizing s with
  | nil => exact refl s
  | cons a l ih => exact (h s a).trans (ih _)

theorem ofMesh (h : t.mesh = s.mesh) : SameLanding s t := congrArg Mesh.landing h

end SameLanding

theorem State.logLocal_landing (s : State) (e : Err) : SameLanding s (s.logLocal e) := .ofMesh ((s.logLocal_changes e).mesh rfl)

theorem State.addSat_landing (s : State) (a : Nat) (f : BitField) (n : Nat) : SameLanding s (s.addSat a f n) :=
  .ofMesh ((s.addSat_changes a f n).mesh rfl)

theorem State.takeWidth_landing (s : State) (node : Nat) (p : MeshPort) (d : Nat) : SameLanding s (s.takeWidth node p d).1 := by
  unfold State.takeWidth
  dsimp only
  split <;> rfl

theorem State.launch_landing (s : State) (node : Nat) (p : MeshPort) (src d : Nat) (b : Barge) : SameLanding s (s.launch node p src d b) :=
  (SameLanding.ofMesh ((s.wakeOn_changes 2).mesh rfl)).trans ((s.wakeOn 2).takeWidth_landing node p d)

theorem State.sendFwd_landing (s : State) (chip : Nat) (b : Barge) : SameLanding s (s.sendFwd chip b) := by
  unfold State.sendFwd
  split
  · exact s.launch_landing _ _ _ _ _
  · exact s.logLocal_landing _

theorem State.logErr_landing (s : State) (e : Err) : SameLanding s (s.logErr e) :=
  .ite ((s.logLocal_landing e).trans (.foldl (fun _ _ => State.sendFwd_landing _ _ _) _ _)) (s.logLocal_landing e)

theorem State.freeCredit_landing (s : State) (f : Flit) : SameLanding s (s.freeCredit f) := by
  unfold State.freeCredit
  split
  · exact .refl s
  · exact .ite (.refl s) rfl

theorem State.admitFlit_landing (s : State) (f : Flit) : SameLanding s (s.admitFlit f) := .ite (s.freeCredit_landing f) rfl

theorem State.replyBack_landing (s : State) (node : Nat) (input : Branch) (port : MeshPort) (at_ ty id : Nat) (pay : BitVec 512) :
    SameLanding s (s.replyBack node input port at_ ty id pay) := rfl

theorem State.enter_landing (s : State) (node : Nat) (input : Branch) (src at_ : Nat) (b : Barge) :
    SameLanding s (s.enter node input src at_ b) := by
  unfold State.enter
  split
  · exact (s.addSat_landing _ _ _).trans (State.logErr_landing _ _)
  · extract_lets b' flit id ty outs
    refine .ite rfl ?_
    split
    · exact .ite ((show SameLanding s (s.mcSet _) from rfl).trans (State.admitFlit_landing _ _)) (s.freeCredit_landing _)
    · exact .ite ((s.addSat_landing _ _ _).trans (State.replyBack_landing _ _ _ _ _ _ _ _)) (.ite (s.admitFlit_landing _)
        (.ite ((show SameLanding s (s.mcDel _ _) from rfl).trans (State.admitFlit_landing _ _)) (.ite rfl rfl)))

theorem State.sendBy_landing (s : State) (n sl d chip : Nat) (ex : Option (Fin 48)) (b : Barge) :
    SameLanding s (s.sendBy n sl d chip ex b) :=
  .ite (s.logErr_landing _) ((s.takeWidth_landing _ _ _).trans (State.enter_landing _ _ _ _ _ _))

theorem State.abortAll_landing (s : State) : SameLanding s s.abortAll := by
  refine .foldl (fun u x => ?_) _ _
  unfold State.abortTx
  split
  · exact .refl u
  · exact .foldl (fun v y => v.sendBy_landing _ _ _ _ _ _) _ _

/-! ### The start -/

/-- The state of a CTX reset before its cores abandon what they do. -/
def State.ctxQuiet (s : State) : State :=
  ((((s.flushAll.staleAll.cores.map (·.1)).foldl State.unitsIdle s.flushAll.staleAll.abortAll).holdOff HoldReq.isItem).holdOff
    fun h => h.cause == .record)

theorem State.ctxStart_fields (s : State) : s.ctxStart.toll = { s.ctxQuiet.toll with ctxAt := some s.ctxQuiet.now } ∧
    s.ctxStart.mesh.tx = [] ∧ s.ctxStart.mesh.landing = s.ctxQuiet.mesh.landing.filter (fun x => x.2.fill) ∧
    s.ctxStart.cores = s.ctxQuiet.cores.map fun c => (c.1, c.2.abandoned) := ⟨rfl, rfl, rfl, rfl⟩

theorem State.ctxQuiet_landing (s : State) : SameLanding s s.ctxQuiet := by
  have hflush : SameLanding s s.flushAll.staleAll := (SameLanding.ofMesh (s.flushAll_changes.mesh rfl)).trans rfl
  have hidle (u : State) (n : Nat) : SameLanding u (u.unitsIdle n) := .ofMesh ((u.unitsIdle_changes n).mesh rfl)
  exact (hflush.trans (State.abortAll_landing _)).trans (.foldl hidle _ _)

theorem State.ctxQuiet_now (s : State) : s.ctxQuiet.now = s.now := by
  have hidle (u : State) (l : List Nat) : (l.foldl State.unitsIdle u).now = u.now := by
    induction l generalizing u with
    | nil => rfl
    | cons n l ih => exact (ih _).trans ((u.unitsIdle_changes n).now rfl)
  exact (hidle _ _).trans ((State.abortAll_changes _).now rfl |>.trans (s.flushAll_changes.now rfl))

/-- A core of such a list is abandoned, listed or not. -/
theorem State.core_abandoned {s t : State} (h : t.cores = s.cores.map fun c => (c.1, c.2.abandoned)) (n : Nat) :
    (t.core n).array = none ∧ (t.core n).vector = none ∧ (t.core n).feeder = none ∧ (t.core n).kwait = .none := by
  rw [State.core, h, smGet, smFind_map]
  cases smFind s.cores n <;> exact ⟨rfl, rfl, rfl, rfl⟩

theorem ctxReset_absorbed {s : State} (h : s.ready = false ∨ s.toll.ctxAt ≠ none) : exec .ctxReset s = .next s := by
  refine congrArg Host.Outcome.next (if_pos ?_)
  rcases h with h | h
  · exact .inl (by rw [h]; rfl)
  · exact .inr (Option.isSome_iff_ne_none.mpr h)

theorem ctxReset_abandons {s : State} (hr : s.ready = true) (hc : s.toll.ctxAt = none) : Gives .ctxReset s fun t =>
    t.toll.ctxAt = some s.now ∧ t.mesh.tx = [] ∧ t.mesh.landing = s.mesh.landing.filter (fun x => x.2.fill) ∧
    ∀ n, (t.core n).array = none ∧ (t.core n).vector = none ∧ (t.core n).feeder = none ∧ (t.core n).kwait = .none := by
  have he : exec .ctxReset s = .next s.dropReaches.ctxStart := congrArg Host.Outcome.next (if_neg (by rw [hr, hc]; decide))
  have hd := s.dropReaches_changes
  obtain ⟨toll, tx, landing, cores⟩ := s.dropReaches.ctxStart_fields
  refine Gives.intro he ⟨?_, tx, ?_, State.core_abandoned cores⟩
  · rw [toll, State.ctxQuiet_now, hd.now rfl]
  · rw [landing, State.ctxQuiet_landing, hd.mesh rfl]

end Sys2Proof.Machine
end

section
/-! SUPPORT. A CTX reset ends (R546): the program state of the cores is cleared, and what the engine serves is unloaded (R481). -/

namespace Sys2Proof.Machine

/-! ### Deferred writes (R261) -/

theorem State.foldl_flushWrites_core (l : List Nat) (s : State) (n : Nat) :
    (l.foldl State.flushWrites s).core n = if n ∈ l then { s.core n with later := [] } else s.core n := by
  induction l generalizing s with
  | nil => rfl
  | cons x l ih =>
    rw [List.foldl_cons, ih]
    by_cases h : n = x
    · subst h
      rw [s.flushWrites_core, if_pos List.mem_cons_self]
      exact ite_self _
    · simp only [List.mem_cons, h, false_or, s.flushWrites_core_ne h]

theorem smFind_unlisted {α : Type} {m : SMap α} {k : Nat} (h : k ∉ m.map (·.1)) : smFind m k = none := by
  induction m with
  | nil => rfl
  | cons e m ih =>
    simp only [List.map_cons, List.mem_cons, not_or] at h
    rw [smFind, if_neg (Ne.symm h.1), ih h.2]

/-- The writes that the cores' beats have deferred are made, and nothing else of a core changes. -/
theorem State.core_flushAll (s : State) (n : Nat) : s.flushAll.core n = { s.core n with later := [] } := by
  rw [State.flushAll, State.foldl_flushWrites_core]
  split
  · rfl
  · next h => rw [State.core, smGet, smFind_unlisted h, Option.getD_none]

/-! ### Unloading (R481) -/

/-- What the ledger and its tables hold has changed, the fabric's record to send, and one register of the streams. -/
structure Unloads (s t : State) : Prop where
  changes : Changes [.regs, .mem, .ecc, .fabric, .engine] s t
  regs    : SameRegs [Reg.STRM_STAT] s t

namespace Unloads

variable {s t v : State}

theorem refl (s : State) : Unloads s s := ⟨.refl _ s, SameRegs.refl _ s⟩

theorem trans (h : Unloads s t) (k : Unloads t v) : Unloads s v := ⟨h.changes.trans k.changes, h.regs.trans k.regs⟩

theorem ofChanges {ps : List Part} (h : Changes ps s t) (hps : partsIn ps [.mem, .ecc, .fabric, .engine] = true := by rfl) : Unloads s t :=
  have h := h.widen hps
  ⟨h.widen rfl, SameRegs.ofRegs (h.regs rfl)⟩

theorem foldl {α : Type} {f : State → α → State} (h : ∀ u a, Unloads u (f u a)) (l : List α) (s : State) : Unloads s (l.foldl f s) := by
  induction l generalizing s with
  | nil => exact refl s
  | cons a l ih => exact (h s a).trans (ih _)

end Unloads

/-- A write of bytes anywhere leaves all but memory and its check bits. -/
theorem State.writeAny_memory (s : State) (a : Nat) (bs : List Byte) : Changes [.mem, .ecc] s (s.writeAny a bs) :=
  Changes.foldl (.refl _ s) fun t _ => .ite (t.writeMem_changes _ _ _) (t.writeNarrow_changes _ _)

theorem State.setLed_unloads (s : State) (i : Nat) (f : LedField) (v : Nat) : Unloads s (s.setLed i f v) := by
  unfold State.setLed State.ledWrite
  extract_lets a view
  have he : Unloads s { s with engine := { s.engine with view := view } } := .ofChanges (s.modEngine_changes fun e => { e with view := view })
  exact he.trans (.ofChanges (State.writeAny_memory _ _ _))

theorem State.endQuiet_unloads (s : State) (i state step : Nat) : Unloads s (s.endQuiet i state step) := by
  unfold State.endQuiet State.countPaused
  extract_lets h
  exact ((s.setLed_unloads _ _ _).trans (.ofChanges (State.modEngine_changes _ _))).trans
    ⟨(State.put_changes _ _ _ _).widen rfl, State.put_sameRegs _ _ _ _⟩

theorem State.unloadRequests_unloads (s : State) : Unloads s s.unloadRequests := by
  unfold State.unloadRequests
  split
  · exact .refl s
  · have hends := Unloads.foldl (fun u i => u.endQuiet_unloads i rqFailed 0) (s.reqs.filter s.rqLive) s
    refine (hends.trans ?_).trans (.ofChanges (State.modEngine_changes _ _))
    exact ⟨⟨fun p hp => by cases p <;> first | rfl | exact ⟨rfl, rfl⟩ | exact absurd hp (by decide), fun h => h, Nat.le_refl _⟩,
      SameRegs.ofRegs rfl⟩

/-! ### The end -/

/-- The state of a CTX reset with the program state of the cores cleared. -/
def State.ctxWiped (s : State) : State :=
  { s.flushAll.keepRegs ctxKeep with
    cores := s.flushAll.cores.map fun c => (c.1, c.2.cleared)
    locks := {}
    mesh := { s.flushAll.mesh with mcast := [] }
    toll := { s.flushAll.toll with ctxAt := none } }

theorem State.ctxEnd_eq (s : State) :
    s.ctxEnd = ((s.ctxWiped.addSat Reg.DEV_RESET_STAT Fld.DEV_RESET_STAT.ctx_count 1).noteKind 5).unloadRequests := rfl

theorem State.ctxWiped_reg (s : State) (a : Nat) : s.ctxWiped.reg a = keptWord (ctxKeep a) (s.reg a) (regReset a) := by
  have h : s.ctxWiped.reg a = (s.flushAll.keepRegs ctxKeep).reg a := State.reg_congr rfl a
  rw [h, State.keepRegs_reg, State.reg_congr (s.flushAll_changes.regs rfl)]

theorem State.ctxWiped_kept (s : State) {a : Nat} (h : ctxKeep a = keepAll) : s.ctxWiped.reg a = s.reg a := by
  rw [s.ctxWiped_reg, h, keptWord_keepAll]

theorem State.ctxWiped_ingress (s : State) (n : Nat) : (s.ctxWiped.core n).ingress = (s.core n).ingress := by
  have h : (s.ctxWiped.core n).ingress = (s.flushAll.core n).ingress := by
    rw [State.core, State.core, show s.ctxWiped.cores = s.flushAll.cores.map fun c => (c.1, c.2.cleared) from rfl, smGet, smGet, smFind_map]
    cases smFind s.flushAll.cores n <;> rfl
  rw [h, s.core_flushAll]

/-- What the end leaves to the wiped state: the note of the reset, its count, and what is unloaded. -/
theorem State.ctxEnd_rest (s : State) : Changes [.regs, .mem, .ecc, .fabric, .engine] s.ctxWiped s.ctxEnd ∧
    SameRegs [Reg.STRM_STAT, Reg.DEV_RESET_STAT] s.ctxWiped s.ctxEnd := by
  obtain ⟨hc, hr⟩ := ((s.ctxWiped.addSat Reg.DEV_RESET_STAT Fld.DEV_RESET_STAT.ctx_count 1).noteKind 5).unloadRequests_unloads
  rw [s.ctxEnd_eq]
  refine ⟨(((State.addSat_changes _ _ _ _).widen rfl).step (State.noteKind_changes _ _) rfl).trans hc, fun a ha => ?_⟩
  simp only [List.mem_cons, List.not_mem_nil, or_false, not_or] at ha
  rw [hr a (by simpa using ha.1), State.noteKind, State.reg_put_ne _ _ _ ha.2, State.addSat, State.hwPut_regs _ _ _ _ _ (by simpa using ha.2)]

theorem coreOfReg_CORE_STAT {n : Nat} (hn : n < 256) : coreOfReg (Reg.CORE_STAT n) = some n := by
  have ha : Reg.CORE_STAT n = n * 0x4000000 + 0x6A0000 + 8 := rfl
  have hd : Reg.CORE_STAT n / 0x4000000 = n := by omega
  have hc : coreOfReg (Reg.CORE_STAT n) = some (Reg.CORE_STAT n / 0x4000000) := if_pos (by omega)
  rw [hc, hd]

theorem CORE_STAT_off (n : Nat) : Reg.CORE_STAT n % 0x1000 = 8 := by
  simp only [Reg.CORE_STAT, coreRegs, coreBase]
  omega

theorem ctxKeep_CORE_STAT {n : Nat} (hn : n < 256) : ctxKeep (Reg.CORE_STAT n) = keepNone := by
  rw [ctxKeep, coreOfReg_CORE_STAT hn]
  dsimp only
  rw [CORE_STAT_off]
  rfl

theorem regReset_CORE_STAT {n : Nat} (hn : n < 256) : Fld.CORE_STAT.state.get (regReset (Reg.CORE_STAT n)) = stStopped := by
  obtain ⟨r, hr, hi, hs⟩ : ∃ r, coreRows.find? (·.holds 8) = some r ∧ r.idx = 0 ∧ Fld.CORE_STAT.state.get r.reset = stStopped :=
    ⟨_, rfl, rfl, rfl⟩
  exact (congrArg Fld.CORE_STAT.state.get (regReset_of_row ((regRow_core hn (by decide)).trans hr) hi)).trans hs

theorem ctxKeep_DEV_CORE_MAP {n : Nat} (hn : n < 256) : ctxKeep (Reg.DEV_CORE_MAP (n / 64)) = keepAll := by
  have h4 : n / 64 < 4 := by omega
  generalize n / 64 = j at h4
  interval_cases j <;> rfl

/-- A core that is enabled stops as its status returns to its reset value (R204). -/
theorem State.coreState_stopped {s t : State} {n : Nat} (hm : t.reg (Reg.DEV_CORE_MAP (n / 64)) = s.reg (Reg.DEV_CORE_MAP (n / 64)))
    (hn : n < 256) (hs : t.reg (Reg.CORE_STAT n) = regReset (Reg.CORE_STAT n)) (he : s.enabled n = true) : t.coreState n = stStopped := by
  rw [State.coreState, State.enabled_congr hm, he, if_pos rfl, State.get, hs, regReset_CORE_STAT hn]

theorem State.ctxEnd_stopped (s : State) {n : Nat} (hn : n < 256) (he : s.enabled n = true) : s.ctxEnd.coreState n = stStopped := by
  obtain ⟨-, hr⟩ := s.ctxEnd_rest
  have hblock : Reg.DEV_CORE_MAP (n / 64) ∉ [Reg.STRM_STAT, Reg.DEV_RESET_STAT] := by
    have h4 : n / 64 < 4 := by omega
    generalize n / 64 = j at h4
    interval_cases j <;> decide
  have hcore : Reg.CORE_STAT n ∉ [Reg.STRM_STAT, Reg.DEV_RESET_STAT] := by
    have hlt : Reg.CORE_STAT n < 0x400000000 := coreReg_lt ⟨n, hn⟩ (off := 8) (by decide)
    have h1 : (0x400000000 : Nat) ≤ Reg.STRM_STAT := by decide
    have h2 : (0x400000000 : Nat) ≤ Reg.DEV_RESET_STAT := by decide
    simp only [List.mem_cons, List.not_mem_nil, or_false]
    omega
  refine State.coreState_stopped ((hr _ hblock).trans (s.ctxWiped_kept (ctxKeep_DEV_CORE_MAP hn))) hn ((hr _ hcore).trans ?_) he
  rw [s.ctxWiped_reg, ctxKeep_CORE_STAT hn, keptWord_keepNone]

theorem State.ctxEnd_stat (s : State) : s.ctxEnd.get Reg.DEV_RESET_STAT Fld.DEV_RESET_STAT.last_kind = 5 ∧
    (smFind s.marks Reg.DEV_RESET_STAT = none → s.ctxEnd.get Reg.DEV_RESET_STAT Fld.DEV_RESET_STAT.ctx_count =
      min (s.get Reg.DEV_RESET_STAT Fld.DEV_RESET_STAT.ctx_count + 1) (2 ^ 16 - 1)) := by
  obtain ⟨-, hr⟩ := ((s.ctxWiped.addSat Reg.DEV_RESET_STAT Fld.DEV_RESET_STAT.ctx_count 1).noteKind 5).unloadRequests_unloads
  have hf (f : BitField) := congrArg f.get (hr Reg.DEV_RESET_STAT (by decide))
  rw [s.ctxEnd_eq]
  refine ⟨(hf _).trans (State.noteKind_kind _ (by decide)), fun hm => (hf _).trans ((State.get_put_other _ _ _ _ _ (by decide)).trans ?_)⟩
  have hw : smFind s.ctxWiped.marks Reg.DEV_RESET_STAT = none := (congrArg (smFind · _) (s.flushAll_changes.marks rfl)).trans hm
  refine (State.get_addSat hw _ _ (by decide)).trans ?_
  rw [State.get, s.ctxWiped_kept rfl, State.get]

theorem ctxDrain_ends {s : State} {t0 : Nat} (h : s.toll.ctxAt = some t0) : Gives .ctxDrainComplete s fun t =>
    t.now = (if s.drained = true then s.now else max s.now (t0 + 50000000)) ∧ t.toll.ctxAt = none ∧ t.locks = {} ∧
    t.get Reg.DEV_RESET_STAT Fld.DEV_RESET_STAT.last_kind = 5 ∧
    (smFind s.marks Reg.DEV_RESET_STAT = none → t.get Reg.DEV_RESET_STAT Fld.DEV_RESET_STAT.ctx_count =
      min (s.get Reg.DEV_RESET_STAT Fld.DEV_RESET_STAT.ctx_count + 1) (2 ^ 16 - 1)) ∧
    (∀ n < 256, s.enabled n = true → t.coreState n = stStopped) ∧ ∀ n, (t.core n).ingress = (s.core n).ingress := by
  obtain ⟨u, hu⟩ : ∃ u, u = if s.drained then s else s.advanceTo (t0 + 50000000) := ⟨_, rfl⟩
  have he : exec .ctxDrainComplete s = .next u.ctxEnd := by
    subst hu
    refine congrArg Host.Outcome.next ?_
    rw [State.ctxDrain, h]
  have hlow : SameBelowPace s u := by
    rw [hu]
    exact .ite (.refl s) (s.advanceTo_belowPace _)
  have hnow : u.now = if s.drained = true then s.now else max s.now (t0 + 50000000) := by
    rw [hu]
    split
    · rfl
    · exact s.advanceTo_now _
  have hmarks : u.marks = s.marks ∧ u.cores = s.cores := by
    rw [hu]
    split
    · exact ⟨rfl, rfl⟩
    · exact ⟨(s.advanceTo_elapses _).marks, (s.advanceTo_changes _).cores rfl⟩
  obtain ⟨marks, cores⟩ := hmarks
  obtain ⟨hkind, hcount⟩ := u.ctxEnd_stat
  obtain ⟨hc, -⟩ := u.ctxEnd_rest
  refine Gives.intro he ⟨(u.ctxEnd_changes.now rfl).trans hnow, ?_, (hc.locks rfl).trans rfl, hkind, fun hm => ?_, fun n hn hen => ?_, fun n => ?_⟩
  · rw [hc.toll rfl]
    rfl
  · rw [hcount (marks ▸ hm), State.get, hlow _ (by decide), State.get]
  · refine u.ctxEnd_stopped hn ((State.enabled_congr (hlow _ ?_)).trans hen)
    simp only [Reg.DEV_CORE_MAP, blockBase]
    omega
  · rw [State.core_congr (hc.cores rfl), u.ctxWiped_ingress, State.core_congr cores]

end Sys2Proof.Machine
end

section
/-! SUPPORT. FAB and REACH resets (R547, R548), with the obligation on resets. -/

namespace Sys2Proof.Machine

/-! ### Ports that train (R386, R400) -/

/-- Ports have changed their state: fabric time, the records of the fabric and a CTX reset in progress stand. -/
structure Trains (s t : State) : Prop where
  time    : t.reg Reg.FABR_TIME = s.reg Reg.FABR_TIME
  records : t.fabric.records = s.fabric.records
  ctxAt   : t.toll.ctxAt = s.toll.ctxAt

namespace Trains

variable {s t v : State}

theorem refl (s : State) : Trains s s := ⟨rfl, rfl, rfl⟩

theorem trans (h : Trains s t) (k : Trains t v) : Trains s v :=
  ⟨k.time.trans h.time, k.records.trans h.records, k.ctxAt.trans h.ctxAt⟩

theorem ite {c : Prop} [Decidable c] (h : Trains s t) (k : Trains s v) : Trains s (if c then t else v) := by
  split <;> assumption

theorem foldl {α : Type} {f : State → α → State} (l : List α) (h : ∀ u, ∀ a ∈ l, Trains u (f u a)) (s : State) : Trains s (l.foldl f s) := by
  induction l generalizing s with
  | nil => exact refl s
  | cons a l ih => exact (h s a List.mem_cons_self).trans (ih (fun u b hb => h u b (List.mem_cons_of_mem _ hb)) _)

theorem put (h : Trains s t) {a : Nat} (f : BitField) (x : Nat) (ha : Reg.FABR_TIME ≠ a) : Trains s (t.put a f x) :=
  h.trans ⟨State.reg_put_ne _ _ _ ha, rfl, rfl⟩

theorem logErr (h : Trains s t) (e : Err) : Trains s (t.logErr e) :=
  have hc := t.logErr_changes e
  h.trans ⟨t.logErr_reg e (by decide), congrArg Fabric.records (hc.fabric rfl), congrArg Toll.ctxAt (hc.toll rfl)⟩

end Trains

theorem FABR_TIME_ne_TOWL {x : Nat} (h : x < 0x10000) : Reg.FABR_TIME ≠ blockBase 8 + x := by
  simp only [Reg.FABR_TIME, blockBase]
  omega

theorem State.lanes_lt (s : State) (p : Nat) {l : Nat} (h : l ∈ s.lanes p) : l < 0x1000 := by
  simp only [State.lanes, mapLanes, List.mem_map, List.mem_range] at h
  obtain ⟨i, hi, rfl⟩ := h
  have hb : Fld.TOWL_PORT_MAP.base.get (s.reg (Reg.TOWL_PORT_MAP p)) < 128 := Fld.TOWL_PORT_MAP.base.get_lt (s.reg (Reg.TOWL_PORT_MAP p))
  have hw : Fld.TOWL_PORT_MAP.width.get (s.reg (Reg.TOWL_PORT_MAP p)) < 4 := Fld.TOWL_PORT_MAP.width.get_lt (s.reg (Reg.TOWL_PORT_MAP p))
  have hle : 2 ^ Fld.TOWL_PORT_MAP.width.get (s.reg (Reg.TOWL_PORT_MAP p)) ≤ 128 := Nat.pow_le_pow_right (n := 2) (by decide) (show _ ≤ 7 by omega)
  omega

theorem State.laneStates_trains (s : State) (p st : Nat) : Trains s (s.laneStates p st) := by
  refine .foldl _ (fun u l hl => (Trains.refl u).put _ _ ?_) s
  have := s.lanes_lt p hl
  rw [Reg.TOWL_LANE_STAT, Nat.add_assoc]
  exact FABR_TIME_ne_TOWL (by omega)

theorem State.timeLost_trains (s : State) : Trains s s.timeLost := by
  unfold State.timeLost
  extract_lets c parent
  split
  · exact .refl s
  · have hf : Trains s { s with fabric := { s.fabric with goodTime := 0, slew := 0 } } := ⟨rfl, rfl, rfl⟩
    exact (hf.put _ _ (show Reg.FABR_TIME ≠ Reg.FABR_TIME_CFG by decide)).logErr _

theorem State.dropScouts_trains (s : State) (p : Nat) : Trains s (s.dropScouts p) := by
  unfold State.dropScouts
  extract_lets f by_
  split
  · exact ⟨rfl, rfl, rfl⟩
  · exact .refl s

theorem State.enterState_trains (s : State) {p : Nat} (hp : p < 48) (st : Nat) : Trains s (s.enterState p st) := by
  unfold State.enterState
  extract_lets was t x u toll v w y c
  have ht : Trains s t := (Trains.refl s).put _ _ (by rw [Reg.TOWL_PORT_STAT, Nat.add_assoc]; exact FABR_TIME_ne_TOWL (by omega))
  have hu : Trains s u := ht.trans ⟨rfl, rfl, rfl⟩
  have hv : Trains s v := .ite hu (hu.trans ⟨rfl, rfl, rfl⟩)
  have hw : Trains s w := .ite hv (hv.trans (v.dropScouts_trains p))
  have hy : Trains s y := hw.put _ _ (by rw [Reg.TOWL_PORT_MAP, Nat.add_assoc]; exact FABR_TIME_ne_TOWL (by omega))
  exact .ite (.ite (hy.trans y.timeLost_trains) hy) hw

theorem State.startTraining_trains (s : State) {p : Nat} (hp : p < 48) : Trains s (s.startTraining p) :=
  .ite (.refl s) (((s.enterState_trains hp pTraining).trans (State.laneStates_trains _ p 2)).trans ⟨rfl, rfl, rfl⟩)

theorem port_lt {q : Nat → Bool} {p : Nat} (h : p ∈ (List.range 48).filter q) : p < 48 := List.mem_range.mp (List.mem_filter.mp h).1

theorem State.trainPorts_trains (s : State) : Trains s s.trainPorts := .foldl _ (fun u _ hp => u.startTraining_trains (port_lt hp)) s

theorem State.leaveActive_trains (s : State) : Trains s s.leaveActive :=
  .foldl _ (fun u _ hp => u.enterState_trains (port_lt hp) pTraining) s

/-! ### FAB (R548) -/

/-- The state of a FAB reset before the ports train. -/
def State.fabCleared (s : State) : State :=
  let u := s.dropReaches.leaveActive.keepRegs fabKeep
  { u with
    fabric := u.fabric.cleared, locks := {}, toll := { u.toll with ctxAt := none }
    mesh := { u.mesh with reads := u.mesh.reads.map fun (q : Nat × List ReadReq) => (q.1, q.2.filter fun r => !decide (128 ≤ r.sSrc)) } }

theorem fabReset_refused {s : State} (hr : s.ready = true) (hb : s.anyBusy = true) :
    exec .fabReset s = .next (s.logErr { code := 0x3011 }) := by
  refine congrArg Host.Outcome.next ?_
  rw [State.fabReset, if_neg (by rw [hr]; decide), if_pos hb]
  rfl

theorem fabReset_trains {s : State} (hr : s.ready = true) (hb : s.anyBusy = false) : Gives .fabReset s fun t =>
    t.locks = {} ∧ t.toll.ctxAt = none ∧ t.fabric.records = [] ∧ t.reg Reg.FABR_TIME = s.reg Reg.FABR_TIME ∧
    t.get Reg.DEV_RESET_STAT Fld.DEV_RESET_STAT.last_kind = 4 := by
  have he : exec .fabReset s = .next (s.fabCleared.trainPorts.noteKind 4) := by
    refine congrArg Host.Outcome.next ?_
    rw [State.fabReset, if_neg (by rw [hr]; decide), if_neg (by rw [hb]; decide)]
    rfl
  obtain ⟨time, records, ctxAt⟩ := s.fabCleared.trainPorts_trains
  have hl : s.fabCleared.trainPorts.locks = {} := (State.trainPorts_changes _).locks rfl
  refine Gives.intro he ⟨hl, ctxAt, records, ?_, State.noteKind_kind _ (by decide)⟩
  have hclear : s.fabCleared.reg Reg.FABR_TIME = (s.dropReaches.leaveActive.keepRegs fabKeep).reg Reg.FABR_TIME := State.reg_congr rfl _
  calc (s.fabCleared.trainPorts.noteKind 4).reg Reg.FABR_TIME
      = s.fabCleared.trainPorts.reg Reg.FABR_TIME := State.reg_put_ne _ _ _ (by decide)
    _ = s.dropReaches.leaveActive.reg Reg.FABR_TIME := time.trans (hclear.trans (State.keepRegs_kept _ rfl))
    _ = s.reg Reg.FABR_TIME := (State.leaveActive_trains _).time.trans (State.reg_congr (s.dropReaches_changes.regs rfl) _)

/-! ### REACH (R547) -/

theorem mem_reachesIn {mask r : Nat} : r ∈ reachesIn mask ↔ r < 16 ∧ mask.testBit r = true := by
  rw [reachesIn, List.mem_filter, List.mem_range]

theorem mem_coresOf (n : Nat) : n ∈ coresOf (reachOf n) := by
  refine List.mem_map.mpr ⟨cirOf n, List.mem_range.mpr ?_, ?_⟩
  · unfold cirOf
    omega
  · unfold coreAt cirOf reachOf
    omega

theorem coresOf_spec {r n : Nat} (hr : r < 16) (h : n ∈ coresOf r) : n < 256 ∧ reachOf n = r := by
  obtain ⟨i, hi, rfl⟩ := List.mem_map.mp h
  have hi := List.mem_range.mp hi
  unfold reachOf coreAt
  omega

/-- A core that a REACH reset would touch is busy. -/
def State.reachBusy (s : State) (mask : Nat) : Bool := (reachesIn mask).any fun r => (coresOf r).any fun n => busyState (s.coreState n)

theorem State.reachBusy_iff (s : State) (mask : Nat) :
    s.reachBusy mask = true ↔ ∃ n < 256, mask.testBit (reachOf n) = true ∧ busyState (s.coreState n) = true := by
  simp only [State.reachBusy, List.any_eq_true]
  constructor
  · rintro ⟨r, hr, n, hn, hb⟩
    obtain ⟨hr, hm⟩ := mem_reachesIn.mp hr
    obtain ⟨hlt, rfl⟩ := coresOf_spec hr hn
    exact ⟨n, hlt, hm, hb⟩
  · rintro ⟨n, hn, hm, hb⟩
    exact ⟨reachOf n, mem_reachesIn.mpr ⟨reachOf_lt hn, hm⟩, n, mem_coresOf n, hb⟩

/-- The reaches of a list stop. -/
def State.stopReaches (s : State) (l : List Nat) : State := l.foldl (fun (u : State) r => u.setReach r { u.reach r with stopped := true }) s

theorem State.stopReaches_changes (s : State) (l : List Nat) : Changes [.reaches] s (s.stopReaches l) :=
  Changes.foldl (.refl _ s) fun u r => u.setReach_changes r _

theorem State.stopReaches_reach (l : List Nat) (s : State) (r : Nat) :
    (s.stopReaches l).reach r = if r ∈ l then { s.reach r with stopped := true } else s.reach r := by
  induction l generalizing s with
  | nil => rfl
  | cons x l ih =>
    rw [State.stopReaches, List.foldl_cons, ← State.stopReaches, ih]
    by_cases h : r = x
    · subst h
      rw [State.reach_setReach_same, if_pos List.mem_cons_self]
      exact ite_self _
    · simp only [List.mem_cons, h, false_or, State.reach_setReach_ne _ _ h]

theorem State.reachReset_eq {s : State} {mask : Nat} (hr : s.ready = true) (hc : s.toll.ctxAt = none) :
    s.reachReset mask = if s.reachBusy mask then s.refuse3011 else
      ({ s.stopReaches (reachesIn mask) with toll := { (s.stopReaches (reachesIn mask)).toll with
        reaching := ((s.stopReaches (reachesIn mask)).toll.reaching ++ reachesIn mask).eraseDups } }, 0) :=
  if_neg (by rw [hr, hc]; decide)

theorem reachReset_refused {s : State} {mask : BitVec 16} (hr : s.ready = true) (hc : s.toll.ctxAt = none)
    (hb : ∃ n < 256, mask.toNat.testBit (reachOf n) = true ∧ busyState (s.coreState n) = true) :
    exec (.reachReset mask) s = .next (s.logErr { code := 0x3011 }) := by
  refine congrArg Host.Outcome.next ?_
  rw [State.reachReset_eq hr hc, if_pos ((s.reachBusy_iff _).mpr hb)]
  rfl

theorem reachReset_stops {s : State} {mask : BitVec 16} (hr : s.ready = true) (hc : s.toll.ctxAt = none)
    (hb : ∀ n < 256, mask.toNat.testBit (reachOf n) = true → busyState (s.coreState n) = false) : Gives (.reachReset mask) s fun t =>
      (∀ r : Fin 16, mask.toNat.testBit r = true → t.reach r = { s.reach r with stopped := true } ∧ r.val ∈ t.toll.reaching) ∧
      (∀ r : Fin 16, mask.toNat.testBit r = false → t.reach r = s.reach r) ∧ t.regs = s.regs := by
  obtain ⟨rs, hrs⟩ : ∃ rs, rs = reachesIn mask.toNat := ⟨_, rfl⟩
  obtain ⟨u, hu⟩ : ∃ u, u = s.stopReaches rs := ⟨_, rfl⟩
  have hbusy : ¬(s.reachBusy mask.toNat = true) := fun h => by
    obtain ⟨n, hn, hm, hy⟩ := (s.reachBusy_iff _).mp h
    rw [hb n hn hm] at hy
    cases hy
  have he : exec (.reachReset mask) s = .next { u with toll := { u.toll with reaching := (u.toll.reaching ++ rs).eraseDups } } := by
    refine congrArg Host.Outcome.next ?_
    rw [State.reachReset_eq hr hc, if_neg hbusy, hu, hrs]
  have hreach (r : Nat) : u.reach r = if r ∈ rs then { s.reach r with stopped := true } else s.reach r := hu ▸ State.stopReaches_reach rs s r
  have hin (r : Fin 16) (h : mask.toNat.testBit r = true) : r.val ∈ rs := hrs ▸ mem_reachesIn.mpr ⟨r.isLt, h⟩
  refine Gives.intro he ⟨fun r h => ⟨?_, ?_⟩, fun r h => ?_, ?_⟩
  · exact (State.reach_congr rfl _).trans ((hreach r).trans (if_pos (hin r h)))
  · exact List.mem_eraseDups.mpr (List.mem_append_right _ (hin r h))
  · refine (State.reach_congr rfl _).trans ((hreach r).trans (if_neg fun hm => ?_))
    rw [(mem_reachesIn.mp (hrs ▸ hm)).2] at h
    cases h
  · exact hu ▸ (s.stopReaches_changes rs).regs rfl

end Sys2Proof.Machine
end

section
/-! SUPPORT. A REACH reset ends (R547, R549), with the obligation on resets. -/

namespace Sys2Proof.Machine

/-! ### Units at rest -/

/-- A control register, or one of a core that no unit shows its state in (R142, R314). -/
def quietReg (a : Nat) : Prop := 0x400000000 ≤ a ∨ a % 0x1000 < 0x400

theorem quietReg_ne_unit {a n off : Nat} (h : quietReg a) (hn : n < 256) (h1 : 0x400 ≤ off) (h2 : off < 0x1000) : a ≠ coreRegs n + off := by
  rintro rfl
  simp only [quietReg, coreRegs, coreBase] at h
  omega

theorem State.unitsIdle_reg (s : State) {n a : Nat} (hn : n < 256) (h : quietReg a) : (s.unitsIdle n).reg a = s.reg a := by
  have hput (u : State) {off : Nat} (f : BitField) (v : Nat) (h1 : 0x400 ≤ off) (h2 : off < 0x1000) :
      (u.put (coreRegs n + off) f v).reg a = u.reg a := State.reg_put_ne _ _ _ (quietReg_ne_unit h hn h1 h2)
  have hsl (l : List Nat) (hl : ∀ sl ∈ l, sl < 4) (u : State) : (l.foldl (fun (t : State) sl =>
      if t.get (Reg.SLUICE_STAT n sl) Fld.SLUICE_STAT.phase = 0 ∧ t.get (Reg.SLUICE_STAT n sl) Fld.SLUICE_STAT.open_subs = 0 then t
      else (t.put (Reg.SLUICE_STAT n sl) Fld.SLUICE_STAT.phase 0).put (Reg.SLUICE_STAT n sl) Fld.SLUICE_STAT.open_subs 0) u).reg a = u.reg a := by
    induction l generalizing u with
    | nil => rfl
    | cons sl l ih =>
      have h4 := hl sl List.mem_cons_self
      rw [List.foldl_cons, ih fun x hx => hl x (List.mem_cons_of_mem _ hx)]
      split
      · rfl
      · simp only [Reg.SLUICE_STAT, Nat.add_assoc]
        exact (hput _ _ _ (by omega) (by omega)).trans (hput _ _ _ (by omega) (by omega))
  unfold State.unitsIdle
  extract_lets t u
  have ht : t.reg a = s.reg a := by
    unfold t
    split
    · rfl
    · exact hput _ _ _ (off := 0x800) (by decide) (by decide)
  have hu : u.reg a = t.reg a := by
    unfold u
    split
    · rfl
    · exact hput _ _ _ (off := 0x810) (by decide) (by decide)
  exact (hsl _ (fun _ h => List.mem_range.mp h) _).trans (hu.trans ht)

/-- The units of a list of cores show that nothing is in progress. -/
def State.allIdle (s : State) (l : List Nat) : State := l.foldl State.unitsIdle s

theorem State.allIdle_changes (s : State) (l : List Nat) : Changes [.regs] s (s.allIdle l) :=
  Changes.foldl (.refl _ s) fun u n => u.unitsIdle_changes n

theorem State.allIdle_reg {l : List Nat} (hl : ∀ n ∈ l, n < 256) (s : State) {a : Nat} (h : quietReg a) : (s.allIdle l).reg a = s.reg a := by
  induction l generalizing s with
  | nil => rfl
  | cons n l ih =>
    rw [State.allIdle, List.foldl_cons, ← State.allIdle, ih fun x hx => hl x (List.mem_cons_of_mem _ hx)]
    exact s.unitsIdle_reg (hl n List.mem_cons_self) h

/-! ### The reset of a reach -/

/-- A reach at its target point, its registers cleared (R547, R549). -/
def State.reachPoint (s : State) (r : Nat) : State :=
  let a := Reg.PACE_OPSEL r
  let s := s.put a Fld.PACE_OPSEL.current_op (s.get a Fld.PACE_OPSEL.target_op)
  let s := (s.put a Fld.PACE_OPSEL.settle_fail 0).put a Fld.PACE_OPSEL.busy 0
  s.put a Fld.PACE_OPSEL.auto_down 0

/-- The state of a REACH reset with the cores of the reach cleared. -/
def State.reachWiped (s : State) (r : Nat) : State :=
  let u := ((s.flushAll.reachPoint r).keepRegs (reachKeep r)).holdOff fun h => match h.cause with
    | .retune q => q.val == r
    | _ => false
  { u with
    cores := u.cores.map fun (c : Nat × Core) => if reachOf c.1 = r then (c.1, c.2.cleared) else c
    toll := { u.toll with reaching := u.toll.reaching.filter (· != r) } }

/-- A reach whose pacer goes on. -/
def State.reachAgain (s : State) (r : Nat) : Reach :=
  { s.reach r with
    stopped := s.idle.state != 0, ticked := true, tickAt := s.now, heldAtTick := s.die.heldPs, retune := .none, critical := false
    critRun := List.replicate 8 0 }

theorem State.reachDone_eq (s : State) (r : Nat) : s.reachDone r =
    (((s.reachWiped r).allIdle (coresOf r)).setReach r (((s.reachWiped r).allIdle (coresOf r)).reachAgain r)).noteKind 6 := rfl

theorem State.reachPoint_changes (s : State) (r : Nat) : Changes [.regs] s (s.reachPoint r) := by
  unfold State.reachPoint
  exact (((State.put_changes _ _ _ _).step (State.put_changes _ _ _ _) rfl).step (State.put_changes _ _ _ _) rfl).step
    (State.put_changes _ _ _ _) rfl

theorem State.reachPoint_reg (s : State) (r : Nat) {a : Nat} (h : a ≠ Reg.PACE_OPSEL r) : (s.reachPoint r).reg a = s.reg a := by
  unfold State.reachPoint
  extract_lets b t u
  exact (State.reg_put_ne _ _ _ h).trans ((State.reg_put_ne _ _ _ h).trans ((State.reg_put_ne _ _ _ h).trans (State.reg_put_ne _ _ _ h)))

theorem State.reachPoint_point (s : State) (r : Nat) :
    (s.reachPoint r).get (Reg.PACE_OPSEL r) Fld.PACE_OPSEL.current_op = s.get (Reg.PACE_OPSEL r) Fld.PACE_OPSEL.target_op ∧
    (s.reachPoint r).get (Reg.PACE_OPSEL r) Fld.PACE_OPSEL.busy = 0 := by
  unfold State.reachPoint
  extract_lets b t u
  have hcur : t.get b Fld.PACE_OPSEL.current_op = s.get b Fld.PACE_OPSEL.target_op :=
    (State.get_put_same _ _ _ _ (by decide)).trans (Nat.mod_eq_of_lt (Fld.PACE_OPSEL.target_op.get_lt _))
  constructor
  · exact (State.get_put_other _ _ _ _ _ (by decide)).trans ((State.get_put_other _ _ _ _ _ (by decide)).trans
      ((State.get_put_other _ _ _ _ _ (by decide)).trans hcur))
  · exact (State.get_put_other _ _ _ _ _ (by decide)).trans ((State.get_put_same _ _ _ _ (by decide)).trans rfl)

theorem State.reachWiped_reg (s : State) (r a : Nat) :
    (s.reachWiped r).reg a = keptWord (reachKeep r a) ((s.flushAll.reachPoint r).reg a) (regReset a) := by
  have h : (s.reachWiped r).reg a = ((s.flushAll.reachPoint r).keepRegs (reachKeep r)).reg a := State.reg_congr rfl a
  rw [h, State.keepRegs_reg]

/-- A register other than the reach's own, after the reset. -/
theorem State.reachDone_reg (s : State) {r a : Nat} (hr : r < 16) (h : quietReg a) (h1 : a ≠ Reg.PACE_OPSEL r) (h2 : a ≠ Reg.DEV_RESET_STAT) :
    (s.reachDone r).reg a = keptWord (reachKeep r a) (s.reg a) (regReset a) := by
  have hset : (((s.reachWiped r).allIdle (coresOf r)).setReach r (((s.reachWiped r).allIdle (coresOf r)).reachAgain r)).reg a =
      ((s.reachWiped r).allIdle (coresOf r)).reg a := State.reg_congr rfl a
  rw [s.reachDone_eq, State.noteKind, State.reg_put_ne _ _ _ h2, hset, State.allIdle_reg (fun n hn => (coresOf_spec hr hn).1) _ h,
    State.reachWiped_reg, State.reachPoint_reg _ _ h1, State.reg_congr (s.flushAll_changes.regs rfl)]

theorem reachKeep_CORE_STAT (r : Nat) {n : Nat} (hn : n < 256) :
    reachKeep r (Reg.CORE_STAT n) = if reachOf n = r then keepNone else keepAll := by
  rw [reachKeep, coreOfReg_CORE_STAT hn]
  dsimp only
  rw [CORE_STAT_off]
  exact if_congr (and_iff_left ⟨by decide, by decide⟩) rfl rfl

/-- A core register has no control register's address. -/
theorem CORE_STAT_ne {n a : Nat} (hn : n < 256) (h : 0x400000000 ≤ a) : Reg.CORE_STAT n ≠ a :=
  (Nat.lt_of_lt_of_le (coreReg_lt ⟨n, hn⟩ (off := 8) (by decide)) h).ne

theorem PACE_OPSEL_above (r : Nat) : blockBase 2 ≤ Reg.PACE_OPSEL r := le_blockRegs (Nat.le_refl 2)

theorem PACE_OPSEL_ge (r : Nat) : 0x400000000 ≤ Reg.PACE_OPSEL r := Nat.le_trans (by decide) (PACE_OPSEL_above r)

theorem State.reachDone_CORE_STAT (s : State) {r n : Nat} (hr : r < 16) (hn : n < 256) :
    (s.reachDone r).reg (Reg.CORE_STAT n) = if reachOf n = r then regReset (Reg.CORE_STAT n) else s.reg (Reg.CORE_STAT n) := by
  have hq : quietReg (Reg.CORE_STAT n) := .inr (by rw [CORE_STAT_off]; decide)
  rw [s.reachDone_reg hr hq (CORE_STAT_ne hn (PACE_OPSEL_ge r)) (CORE_STAT_ne hn (by decide)), reachKeep_CORE_STAT r hn]
  split
  · exact keptWord_keepNone _ _
  · exact keptWord_keepAll _ _

theorem reachKeep_ctl (r : Nat) {a : Nat} (h : 0x400000000 ≤ a) : reachKeep r a = keepAll := by
  have hc : coreOfReg a = none := if_neg fun hlt => Nat.not_le_of_lt hlt.1 h
  rw [reachKeep, hc]

theorem State.reachDone_DEV_CORE_MAP (s : State) {r n : Nat} (hr : r < 16) (hn : n < 256) :
    (s.reachDone r).reg (Reg.DEV_CORE_MAP (n / 64)) = s.reg (Reg.DEV_CORE_MAP (n / 64)) := by
  have hmap : Reg.DEV_CORE_MAP (n / 64) < blockBase 2 ∧ Reg.DEV_CORE_MAP (n / 64) ≠ Reg.DEV_RESET_STAT := by
    have h4 : n / 64 < 4 := by omega
    generalize n / 64 = j at h4
    interval_cases j <;> decide
  obtain ⟨hlt, hne⟩ := hmap
  rw [s.reachDone_reg hr (.inl (DEV_CORE_MAP_ge _)) (Nat.lt_of_lt_of_le hlt (PACE_OPSEL_above r)).ne hne, reachKeep_ctl r (DEV_CORE_MAP_ge _), keptWord_keepAll]

/-- The reach's own register after the reset. -/
theorem State.reachDone_PACE_OPSEL (s : State) {r : Nat} (hr : r < 16) :
    (s.reachDone r).reg (Reg.PACE_OPSEL r) = (s.flushAll.reachPoint r).reg (Reg.PACE_OPSEL r) := by
  have hge := PACE_OPSEL_ge r
  have hne : Reg.PACE_OPSEL r ≠ Reg.DEV_RESET_STAT := (Nat.lt_of_lt_of_le (by decide) (PACE_OPSEL_above r)).ne'
  have hset : (((s.reachWiped r).allIdle (coresOf r)).setReach r (((s.reachWiped r).allIdle (coresOf r)).reachAgain r)).reg (Reg.PACE_OPSEL r) =
      ((s.reachWiped r).allIdle (coresOf r)).reg (Reg.PACE_OPSEL r) := State.reg_congr rfl _
  rw [s.reachDone_eq, State.noteKind, State.reg_put_ne _ _ _ hne, hset,
    State.allIdle_reg (fun n hn => (coresOf_spec hr hn).1) _ (.inl hge), State.reachWiped_reg, reachKeep_ctl r hge, keptWord_keepAll]

theorem State.reachWiped_reach (s : State) (r : Nat) : ((s.reachWiped r).allIdle (coresOf r)).reach r = s.reach r := by
  have h : (s.reachWiped r).reaches = s.reaches :=
    (((s.flushAll.reachPoint r).keepRegs_changes (reachKeep r)).reaches rfl).trans
      (((s.flushAll.reachPoint_changes r).reaches rfl).trans (s.flushAll_changes.reaches rfl))
  exact State.reach_congr (((State.allIdle_changes _ _).reaches rfl).trans h) r

theorem smFind_mapKeyed {α : Type} (m : SMap α) (p : Nat → Prop) [DecidablePred p] (f : α → α) (k : Nat) :
    smFind (m.map fun e => if p e.1 then (e.1, f e.2) else e) k = if p k then (smFind m k).map f else smFind m k := by
  induction m with
  | nil => exact (ite_self _).symm
  | cons e m ih =>
    obtain ⟨j, v⟩ := e
    rw [List.map_cons]
    by_cases hj : j = k
    · subst hj
      by_cases hp : p j <;> simp [smFind, hp]
    · by_cases hp : p j <;> simpa [smFind, hp, hj] using ih

/-- A core of another reach keeps all but its deferred writes, which have been made. -/
theorem State.reachDone_core (s : State) {r n : Nat} (h : reachOf n ≠ r) : (s.reachDone r).core n = { s.core n with later := [] } := by
  have hcores : (s.reachDone r).cores = (s.reachWiped r).cores := (State.allIdle_changes _ _).cores rfl
  have hpoint : (s.flushAll.reachPoint r).cores = s.flushAll.cores := (State.reachPoint_changes _ _).cores rfl
  have hwiped : (s.reachWiped r).cores =
      (s.flushAll.reachPoint r).cores.map fun c => if reachOf c.1 = r then (c.1, c.2.cleared) else c := rfl
  rw [State.core_congr hcores, ← s.core_flushAll, State.core, State.core, hwiped, hpoint, smGet, smGet,
    smFind_mapKeyed s.flushAll.cores (fun j => reachOf j = r) Core.cleared n, if_neg h]

theorem reachResetComplete_again {s : State} {r : Fin 16} (h : r.val ∈ s.toll.reaching) : Gives (.reachResetComplete r) s fun t =>
    t.get (Reg.PACE_OPSEL r) Fld.PACE_OPSEL.current_op = s.get (Reg.PACE_OPSEL r) Fld.PACE_OPSEL.target_op ∧
    t.get (Reg.PACE_OPSEL r) Fld.PACE_OPSEL.busy = 0 ∧
    (t.reach r).beat = (s.reach r).beat ∧ (t.reach r).retune = .none ∧ r.val ∉ t.toll.reaching ∧
    t.get Reg.DEV_RESET_STAT Fld.DEV_RESET_STAT.last_kind = 6 ∧
    (∀ n < 256, reachOf n = r.val → s.enabled n = true → t.coreState n = stStopped) ∧
    (∀ n < 256, reachOf n ≠ r.val → t.core n = { s.core n with later := [] } ∧ t.coreState n = s.coreState n) := by
  have he : exec (.reachResetComplete r) s = .next (s.reachDone r) := if_pos (List.contains_iff_mem.mpr h)
  have hsel := s.reachDone_PACE_OPSEL r.isLt
  obtain ⟨hcur, hbusy⟩ := s.flushAll.reachPoint_point r
  have hflush : s.flushAll.get (Reg.PACE_OPSEL r) Fld.PACE_OPSEL.target_op = s.get (Reg.PACE_OPSEL r) Fld.PACE_OPSEL.target_op :=
    State.get_congr (s.flushAll_changes.regs rfl) _ _
  have hreach : (s.reachDone r).reach r = ((s.reachWiped r).allIdle (coresOf r)).reachAgain r := State.reach_setReach_same _ _ _
  have htoll : (s.reachDone r).toll.reaching = (s.reachWiped r).toll.reaching := congrArg Toll.reaching ((State.allIdle_changes _ _).toll rfl)
  refine Gives.intro he ⟨(congrArg Fld.PACE_OPSEL.current_op.get hsel).trans (hcur.trans hflush),
    (congrArg Fld.PACE_OPSEL.busy.get hsel).trans hbusy, ?_, by rw [hreach]; rfl, fun hm => ?_, State.noteKind_kind _ (by decide),
    fun n hn hnr hen => ?_, fun n hn hnr => ⟨s.reachDone_core hnr, ?_⟩⟩
  · rw [hreach, State.reachAgain, s.reachWiped_reach]
  · rw [htoll] at hm
    have hne := (List.mem_filter.mp hm).2
    simp at hne
  · exact State.coreState_stopped (s.reachDone_DEV_CORE_MAP r.isLt hn) hn ((s.reachDone_CORE_STAT r.isLt hn).trans (if_pos hnr)) hen
  · exact State.coreState_of_regs (s.reachDone_DEV_CORE_MAP r.isLt hn) ((s.reachDone_CORE_STAT r.isLt hn).trans (if_neg hnr))

/-! ### The obligation -/

/-- Settles O55: each reset in turn, from what it keeps of the registers and what it clears. -/
theorem resets : Obligations.Resets := by
  unfold Obligations.Resets
  exact fun s => ⟨pwrOkFall_clears, fun hn => ⟨resetNAssert_waits hn, resetNAssert_resets hn⟩, devReset_absorbed, devReset_keepsHolds,
    tollReset_absorbed, tollReset_clears, ctxReset_absorbed, ctxReset_abandons, fun _ h => ctxDrain_ends h, fabReset_refused,
    fabReset_trains, fun _ hr hc => ⟨reachReset_refused hr hc, reachReset_stops hr hc⟩, fun _ h => reachResetComplete_again h⟩

end Sys2Proof.Machine
end

section
/-! SUPPORT. What a change apart from memory and its check bits leaves of the bytes that are read (R277), with the obligation on commands
that write no memory. -/

namespace Sys2Proof.Machine

/-- A byte is read from the stored bytes and the check bits of its line alone. -/
theorem Changes.sameBytes {ps : List Part} {s t : State} (h : Changes ps s t) (hmem : ps.contains .mem = false)
    (hecc : ps.contains .ecc = false) : SameBytes s t := State.byte_congr (h.mem hmem) (h.ecc hecc)

/-- A command gives what every state reached by a change of its parts alone has. -/
theorem Gives.ofChanges {c : Instr} {s : State} {P : State → Prop} (h : ∀ t, Changes (commandParts c) s t → P t) : Gives c s P := by
  obtain ⟨t, he, hc⟩ := exec_changes c s
  exact ⟨t, he, hc.only, h t hc⟩

/-- Settles O4: a command changes its parts alone, and one with neither memory nor check bits among them leaves what bytes are read
from. -/
theorem memoryFrame : Obligations.MemoryFrame := by
  unfold Obligations.MemoryFrame
  intro c s hmem hecc
  exact Gives.ofChanges fun _ hc => hc.sameBytes hmem hecc

end Sys2Proof.Machine
end

section
/-! SUPPORT. The line code as a linear map (R276): the check bits of a difference, their syndrome and their parity, with the obligations
on the canonical form and on the line code. -/

namespace Sys2Proof.Machine

/-! ### The canonical form -/

/-- Settles O5: what a step changes keeps the canonical form, and so does taking the front command, which is in none of the lists. -/
theorem stepKeepsWf : Obligations.StepKeepsWf := by
  unfold Obligations.StepKeepsWf
  intro s t h e
  obtain ⟨ps, -, u, hu, k⟩ := step_changes s
  obtain rfl : u = t := by simpa [hu] using e
  exact k.wf (State.wf_iff.mpr (State.wf_iff.mp h))

/-! ### Linearity -/

theorem parity_xor (a b n : Nat) : parity (a ^^^ b) n = xor (parity a n) (parity b n) := by
  induction n with
  | zero => rfl
  | succ n ih =>
    simp only [parity, ih, Nat.testBit_xor]
    cases a.testBit n <;> cases b.testBit n <;> simp

theorem parity_two_pow (i n : Nat) : parity (2 ^ i) n = decide (i < n) := by
  induction n with
  | zero => rfl
  | succ n ih =>
    rw [parity, ih, Nat.testBit_two_pow]
    by_cases h : i = n
    · simp [h]
    · simp only [h, decide_false, Bool.false_bne, decide_eq_decide]
      omega

theorem colXor_xor (a b n : Nat) : colXor (a ^^^ b) n = colXor a n ^^^ colXor b n := by
  induction n with
  | zero => simp [colXor]
  | succ n ih =>
    simp only [colXor, ih, Nat.testBit_xor]
    cases a.testBit n <;> cases b.testBit n <;>
      simp [Nat.xor_assoc, Nat.xor_comm, Nat.xor_left_comm]

theorem colXor_two_pow (i n : Nat) : colXor (2 ^ i) n = if i < n then hcol i else 0 := by
  induction n with
  | zero => rfl
  | succ n ih =>
    rw [colXor, ih, Nat.testBit_two_pow]
    by_cases h : i = n
    · simp [h]
    · simp only [h, decide_false, Bool.false_eq_true, if_false]
      exact if_congr (by omega) rfl rfl

/-! ### Columns -/

theorem hcol_lt {i j : Nat} (h : i < j) : hcol i < hcol j := by
  unfold hcol
  repeat' split
  all_goals omega

theorem hcol_injective : Function.Injective hcol := StrictMono.injective fun _ _ => hcol_lt

theorem hcol_le {i : Nat} (h : i < 256) : hcol i ≤ 265 := by
  unfold hcol
  repeat' split
  all_goals omega

theorem bitOfCol_hcol {i : Nat} (h : i < 256) : bitOfCol (hcol i) = some i := by
  rw [bitOfCol, List.find?_range_eq_some]
  refine ⟨by simp, List.mem_range.mpr h, fun j hj => ?_⟩
  simpa using (hcol_lt hj).ne

/-- The column of a check bit, or of the overall parity, belongs to no data bit. -/
theorem bitOfCol_checkBit (k : Fin 10) : bitOfCol ((BitVec.ofNat 10 (2 ^ k.val)).toNat % 512) = none := by
  revert k; decide +kernel

theorem hcol_ne_checkBit {i : Nat} (h : i < 256) (k : Fin 10) : hcol i ≠ (BitVec.ofNat 10 (2 ^ k.val)).toNat % 512 := by
  intro e
  have := bitOfCol_checkBit k
  rw [← e, bitOfCol_hcol h] at this
  cases this

theorem colXor_lt (d : Nat) {n : Nat} (h : n ≤ 256) : colXor d n < 512 := by
  induction n with
  | zero => exact Nat.zero_lt_succ _
  | succ n ih =>
    have hn := ih (by omega)
    rw [colXor]
    split
    · exact Nat.xor_lt_two_pow (n := 9) hn (Nat.lt_of_le_of_lt (hcol_le (by omega)) (by decide))
    · exact hn

/-! ### Syndrome and parity of check bits -/

/-- Two numbers with the same low bits have the same parity there. -/
theorem parity_congr {a b n : Nat} (h : ∀ i < n, a.testBit i = b.testBit i) : parity a n = parity b n := by
  induction n with
  | zero => rfl
  | succ n ih => rw [parity, parity, h n (Nat.lt_succ_self n), ih fun i hi => h i (by omega)]

theorem encodeLine_toNat (d : BitVec 256) : (encodeLine d).toNat = colXor d.toNat 256 +
    if xor (parity d.toNat 256) (parity (colXor d.toNat 256) 9) then 512 else 0 := by
  have h := colXor_lt d.toNat (Nat.le_refl 256)
  rw [encodeLine, BitVec.toNat_ofNat, Nat.mod_eq_of_lt]
  split <;> omega

theorem encodeLine_syndrome (d : BitVec 256) : (encodeLine d).toNat % 512 = colXor d.toNat 256 := by
  have h := colXor_lt d.toNat (Nat.le_refl 256)
  rw [encodeLine_toNat]
  split <;> omega

/-- The overall parity bit gives the check bits the parity of the data. -/
theorem encodeLine_parity (d : BitVec 256) : parity (encodeLine d).toNat 10 = parity d.toNat 256 := by
  have h9 : (colXor d.toNat 256).testBit 9 = false := Nat.testBit_lt_two_pow (colXor_lt d.toNat (Nat.le_refl 256))
  have hl : parity (512 + colXor d.toNat 256) 9 = parity (colXor d.toNat 256) 9 :=
    parity_congr fun i hi => Nat.testBit_two_pow_add_gt (i := 9) hi _
  have ht : (512 + colXor d.toNat 256).testBit 9 = true := by
    rw [Nat.testBit_two_pow_add_eq (i := 9), h9, Bool.not_false]
  rw [encodeLine_toNat]
  cases hd : parity d.toNat 256 <;> cases hc : parity (colXor d.toNat 256) 9 <;>
    simp [parity.eq_2 _ 9, Nat.add_comm _ 512, h9, hl, ht, hc]

/-- What changing the bits of `x` does to the check bits: their difference. -/
def encodeDiff (d x : BitVec 256) : BitVec 10 := encodeLine d ^^^ encodeLine (d ^^^ x)

theorem encodeDiff_syndrome (d x : BitVec 256) : (encodeDiff d x).toNat % 512 = colXor x.toNat 256 := by
  rw [encodeDiff, BitVec.toNat_xor, Nat.xor_mod_two_pow (n := 9), encodeLine_syndrome, encodeLine_syndrome, BitVec.toNat_xor,
    colXor_xor, ← Nat.xor_assoc, Nat.xor_self, Nat.zero_xor]

theorem encodeDiff_parity (d x : BitVec 256) : parity (encodeDiff d x).toNat 10 = parity x.toNat 256 := by
  rw [encodeDiff, BitVec.toNat_xor, parity_xor, encodeLine_parity, encodeLine_parity, BitVec.toNat_xor, parity_xor,
    ← Bool.xor_assoc, Bool.xor_self, Bool.false_xor]

/-! ### The decision of R277 -/

theorem lineStat_odd {m : BitVec 10} (h : parity m.toNat 10 = true) (k : m.toNat % 512 ≤ 265) : lineStat m = .corrected := by
  simp [lineStat, h, k]

theorem lineStat_even {m : BitVec 10} (h : parity m.toNat 10 = false) (k : m.toNat % 512 ≠ 0) : lineStat m = .uncorrectable := by
  simp [lineStat, h, k]

/-- The line with data bit `i` alone. -/
def unitLine (i : Fin 256) : BitVec 256 := BitVec.ofNat 256 (2 ^ i.val)

@[simp] theorem unitLine_toNat (i : Fin 256) : (unitLine i).toNat = 2 ^ i.val := by
  rw [unitLine, BitVec.toNat_ofNat, Nat.mod_eq_of_lt]
  exact Nat.pow_lt_pow_right (by decide) i.isLt

theorem encodeDiff_unit (d : BitVec 256) (i : Fin 256) :
    (encodeDiff d (unitLine i)).toNat % 512 = hcol i ∧ parity (encodeDiff d (unitLine i)).toNat 10 = true := by
  rw [encodeDiff_syndrome, encodeDiff_parity, unitLine_toNat, colXor_two_pow, parity_two_pow]
  simp [i.isLt]

theorem encodeDiff_two (d : BitVec 256) (i j : Fin 256) :
    (encodeDiff d (unitLine i ^^^ unitLine j)).toNat % 512 = hcol i ^^^ hcol j ∧
      parity (encodeDiff d (unitLine i ^^^ unitLine j)).toNat 10 = false := by
  rw [encodeDiff_syndrome, encodeDiff_parity, BitVec.toNat_xor, unitLine_toNat, unitLine_toNat, colXor_xor, parity_xor, colXor_two_pow,
    colXor_two_pow, parity_two_pow, parity_two_pow]
  simp [i.isLt, j.isLt]

/-- The line's check bits with check bit `k` alone. -/
def checkBit (k : Fin 10) : BitVec 10 := BitVec.ofNat 10 (2 ^ k.val)

theorem lineStat_checkBit (k : Fin 10) : lineStat (checkBit k) = .corrected ∧ parity (checkBit k).toNat 10 = true := by
  revert k; decide

theorem lineStat_checkBits {k l : Fin 10} (h : k ≠ l) : lineStat (checkBit k ^^^ checkBit l) = .uncorrectable := by
  revert k l; decide

/-- A data bit and a check bit: the parity is even, and no column is that of a check bit. -/
theorem lineStat_dataCheck (d : BitVec 256) (i : Fin 256) (k : Fin 10) :
    lineStat (encodeDiff d (unitLine i) ^^^ checkBit k) = .uncorrectable := by
  obtain ⟨hs, hp⟩ := encodeDiff_unit d i
  refine lineStat_even ?_ ?_
  · rw [BitVec.toNat_xor, parity_xor, hp, (lineStat_checkBit k).2]
    rfl
  · rw [BitVec.toNat_xor, Nat.xor_mod_two_pow (n := 9), hs]
    exact fun e => hcol_ne_checkBit i.isLt k (Nat.xor_eq_zero_iff.mp e)

/-- Settles O59: by the syndrome and the parity of what one bit, or two, make of the check bits. -/
theorem lineCode : Obligations.LineCode := by
  unfold Obligations.LineCode
  intro d i j k l
  obtain ⟨hs, hp⟩ := encodeDiff_unit d i
  refine ⟨by decide, lineStat_odd hp ?_, ?_, (lineStat_checkBit k).1, bitOfCol_checkBit k, lineStat_dataCheck d i k, fun h => ?_,
    lineStat_checkBits⟩
  · exact hs.trans_le (hcol_le i.isLt)
  · exact (congrArg bitOfCol hs).trans (bitOfCol_hcol i.isLt)
  · obtain ⟨hs2, hp2⟩ := encodeDiff_two d i j
    rw [BitVec.xor_assoc]
    exact lineStat_even hp2 fun e => h (Fin.ext (hcol_injective (Nat.xor_eq_zero_iff.mp (hs2.symm.trans e))))

end Sys2Proof.Machine
end

section
/-! SUPPORT. What the injection of a barge leaves (R285 to R289, R308, R391): the waiting work of the agents, and, for a barge whose check
bits are good and which opens nothing, the registers. -/

namespace Sys2Proof.Machine

/-! ### The mesh carries barges -/

/-- Barges, injections and multicast entries of the mesh have changed at most: what waits at the agents is the same. -/
def BargesMove (s t : State) : Prop :=
  ∃ flits inj mcast, t.mesh = { s.mesh with flits := flits, inj := inj, mcast := mcast }

namespace BargesMove

variable {s t v : State}

theorem refl (s : State) : BargesMove s s := ⟨_, _, _, rfl⟩

theorem trans (h : BargesMove s t) (k : BargesMove t v) : BargesMove s v := by
  obtain ⟨f, i, m, h⟩ := h
  obtain ⟨g, j, n, k⟩ := k
  exact ⟨g, j, n, by rw [k, h]⟩

theorem ite {c : Prop} [Decidable c] (h : BargesMove s t) (k : BargesMove s v) : BargesMove s (if c then t else v) := by split <;> assumption

theorem foldl {α : Type} {f : State → α → State} (h : ∀ u a, BargesMove u (f u a)) (l : List α) (s : State) : BargesMove s (l.foldl f s) := by
  induction l generalizing s with
  | nil => exact refl s
  | cons a l ih => exact (h s a).trans (ih _)

theorem ofMesh (h : t.mesh = s.mesh) : BargesMove s t := ⟨_, _, _, h⟩

theorem landing (h : BargesMove s t) : t.mesh.landing = s.mesh.landing := by
  obtain ⟨_, _, _, h⟩ := h
  rw [h]

theorem land (h : BargesMove s t) (k : Nat) : t.land k = s.land k := by rw [State.land, State.land, h.landing]

theorem tx (h : BargesMove s t) (n sl : Nat) : t.tx n sl = s.tx n sl := by
  obtain ⟨_, _, _, h⟩ := h
  rw [State.tx, State.tx, h]

theorem wsWrote (h : BargesMove s t) : t.mesh.wsWrote = s.mesh.wsWrote := by
  obtain ⟨_, _, _, h⟩ := h
  rw [h]

theorem readQ (h : BargesMove s t) (a : Agent) : t.readQ a = s.readQ a := by
  obtain ⟨_, _, _, h⟩ := h
  rw [State.readQ, State.readQ, h]

end BargesMove

theorem State.takeWidth_bargesMove (s : State) (node : Nat) (p : MeshPort) (d : Nat) : BargesMove s (s.takeWidth node p d).1 := by
  unfold State.takeWidth
  extract_lets t
  split
  · exact .refl s
  · exact ⟨_, _, _, rfl⟩

theorem State.launch_bargesMove (s : State) (node : Nat) (p : MeshPort) (src d : Nat) (b : Barge) : BargesMove s (s.launch node p src d b) :=
  ((BargesMove.ofMesh ((s.wakeOn_changes 2).mesh rfl)).trans ((s.wakeOn 2).takeWidth_bargesMove node p d)).trans ⟨_, _, _, rfl⟩

theorem State.logLocal_bargesMove (s : State) (e : Err) : BargesMove s (s.logLocal e) := .ofMesh ((s.logLocal_changes e).mesh rfl)

theorem State.sendFwd_bargesMove (s : State) (chip : Nat) (b : Barge) : BargesMove s (s.sendFwd chip b) := by
  unfold State.sendFwd
  split
  · exact s.launch_bargesMove _ _ _ _ _
  · exact s.logLocal_bargesMove _

theorem State.logErr_bargesMove (s : State) (e : Err) : BargesMove s (s.logErr e) :=
  .ite ((s.logLocal_bargesMove e).trans (.foldl (fun _ _ => State.sendFwd_bargesMove _ _ _) _ _)) (s.logLocal_bargesMove e)

theorem State.addSat_bargesMove (s : State) (a : Nat) (f : BitField) (n : Nat) : BargesMove s (s.addSat a f n) :=
  .ofMesh ((s.addSat_changes a f n).mesh rfl)

theorem State.freeCredit_bargesMove (s : State) (f : Flit) : BargesMove s (s.freeCredit f) := by
  unfold State.freeCredit
  split
  · exact .refl s
  · exact .ite (.refl s) (.ofMesh rfl)

theorem State.addFlit_bargesMove (s : State) (f : Flit) : BargesMove s (s.addFlit f) := ⟨_, _, _, rfl⟩

theorem State.admitFlit_bargesMove (s : State) (f : Flit) : BargesMove s (s.admitFlit f) := .ite (s.freeCredit_bargesMove f) (s.addFlit_bargesMove f)

theorem State.mcSet_bargesMove (s : State) (e : McEntry) : BargesMove s (s.mcSet e) := ⟨_, _, _, rfl⟩

theorem State.mcDel_bargesMove (s : State) (node id : Nat) : BargesMove s (s.mcDel node id) := ⟨_, _, _, rfl⟩

theorem State.replyBack_bargesMove (s : State) (node : Nat) (input : Branch) (port : MeshPort) (at_ ty id : Nat) (pay : BitVec 512) :
    BargesMove s (s.replyBack node input port at_ ty id pay) := by
  unfold State.replyBack
  exact State.addFlit_bargesMove _ _

theorem State.enter_bargesMove (s : State) (node : Nat) (input : Branch) (src at_ : Nat) (b : Barge) :
    BargesMove s (s.enter node input src at_ b) := by
  unfold State.enter
  split
  · exact (s.addSat_bargesMove _ _ _).trans (State.logErr_bargesMove _ _)
  · extract_lets b' flit id ty outs
    refine .ite (s.addFlit_bargesMove _) ?_
    split
    · exact .ite ((s.mcSet_bargesMove _).trans (State.admitFlit_bargesMove _ _)) (s.freeCredit_bargesMove _)
    · exact .ite ((s.addSat_bargesMove _ _ _).trans (State.replyBack_bargesMove _ _ _ _ _ _ _ _)) (.ite (s.admitFlit_bargesMove _)
        (.ite ((s.mcDel_bargesMove _ _).trans (State.admitFlit_bargesMove _ _)) (.ite (s.mcSet_bargesMove _) (s.mcSet_bargesMove _))))

theorem State.injectRaw_bargesMove (s : State) (a : Agent) (via src d : Nat) (b : Barge) : BargesMove s (s.injectRaw a via src d b) :=
  (s.takeWidth_bargesMove _ _ _).trans (State.enter_bargesMove _ _ _ _ _ _)

theorem State.inject_bargesMove (s : State) (a : Agent) (src d : Nat) (b : Barge) : BargesMove s (s.inject a src d b) := by
  unfold State.inject
  extract_lets chip
  refine .ite (s.injectRaw_bargesMove _ _ _ _ _) (.ite (s.injectRaw_bargesMove _ _ _ _ _) ?_)
  split
  · exact s.injectRaw_bargesMove _ _ _ _ _
  · exact s.logErr_bargesMove _

theorem State.sendBy_bargesMove (s : State) (n sl d chip : Nat) (ex : Option (Fin 48)) (b : Barge) : BargesMove s (s.sendBy n sl d chip ex b) :=
  .ite (s.logErr_bargesMove _) (s.injectRaw_bargesMove _ _ _ _ _)

theorem State.showTx_bargesMove (s : State) (n sl : Nat) : BargesMove s (s.showTx n sl) := .ofMesh ((s.showTx_changes n sl).mesh rfl)

theorem State.reply_bargesMove (s : State) (a : Agent) (ty srcChip srcCore src : Nat) (mcast : Option Nat) (pay : BitVec 512) :
    BargesMove s (s.reply a ty srcChip srcCore src mcast pay) := by
  unfold State.reply
  exact State.inject_bargesMove _ _ _ _ _

/-! ### Barges with good check bits -/

/-- The check bits of the header are those of the header (R295). -/
def Sealed (b : Barge) : Prop := b.hcheck = encodeHeader b.header

theorem sealed_mkBarge (h : Word) (pay : BitVec 512) : Sealed (mkBarge h pay) := rfl

theorem withExit_header (p bank : Nat) (b : Barge) : (withExit p bank b).header = b.header ∧ (withExit p bank b).hcheck = b.hcheck := by
  unfold withExit
  split <;> exact ⟨rfl, rfl⟩

theorem decodeHeader_encodeHeader (h : Word) : decodeHeader h (encodeHeader h) = some h := by
  have hz : (encodeHeader h ^^^ encodeHeader h).toNat = 0 := by rw [BitVec.xor_self]; rfl
  have hp : parity 0 8 = false := rfl
  simp only [decodeHeader, hz, Nat.zero_mod, hp, Bool.not_false, if_true]

/-- A barge whose header decodes enters as it is. -/
theorem Sealed.decoded {b : Barge} (h : Sealed b) :
    decodeHeader b.header b.hcheck = some b.header ∧ { b with header := b.header, hcheck := encodeHeader b.header } = b := by
  rw [Sealed] at h
  refine ⟨by rw [h, decodeHeader_encodeHeader], ?_⟩
  rw [← h]

/-- A unicast barge enters its router with the one output of its route. -/
theorem State.enter_unicast {s : State} {b : Barge} (h : Sealed b) (hm : bMulti b = false) (node : Nat) (input : Branch) (src at_ : Nat) :
    s.enter node input src at_ b =
      s.addFlit { node := node, port := input.1, via := input.2, src := src, at_ := at_, outs := [s.routeOut node b], barge := b } := by
  obtain ⟨hd, hb⟩ := h.decoded
  simp only [State.enter, hd, hb, hm, Bool.not_false, true_or, if_true]

theorem State.freeCredit_regs (s : State) (f : Flit) : (s.freeCredit f).regs = s.regs := (s.freeCredit_changes f).regs rfl

theorem State.admitFlit_regs (s : State) (f : Flit) : (s.admitFlit f).regs = s.regs := (s.admitFlit_changes f).regs rfl

/-- Only the opening of a multicast that is refused is counted (R314). -/
theorem State.enter_regs {s : State} {b : Barge} (h : Sealed b) (ht : bType b ≠ tyOPEN) (node : Nat) (input : Branch) (src at_ : Nat) :
    (s.enter node input src at_ b).regs = s.regs := by
  obtain ⟨hd, hb⟩ := h.decoded
  simp only [State.enter, hd, hb, ht, if_false]
  split
  · rfl
  · split
    · exact s.freeCredit_regs _
    · split
      · exact s.admitFlit_regs _
      · split
        · exact (State.admitFlit_regs _ _)
        · split <;> rfl

theorem State.injectRaw_regs {s : State} {b : Barge} (h : Sealed b) (ht : bType b ≠ tyOPEN) (a : Agent) (via src d : Nat) :
    (s.injectRaw a via src d b).regs = s.regs :=
  (State.enter_regs h ht _ _ _ _).trans (s.takeWidth_regs _ _ d)

/-- A barge that opens nothing is injected, or discarded for want of a route, which is logged. -/
theorem State.inject_regs {s : State} {b : Barge} (h : Sealed b) (ht : bType b ≠ tyOPEN) (a : Agent) (src d : Nat) :
    SameRegsButErr [] s (s.inject a src d b) := by
  have raw {c : Barge} (hh : c.header = b.header) (hc : c.hcheck = b.hcheck) : SameRegsButErr [] s (s.injectRaw a 0 src d c) := by
    have hs : Sealed c := by
      rw [Sealed, hh, hc]
      exact h
    have hty : bType c ≠ tyOPEN := by
      rw [bType, hh]
      exact ht
    exact (SameRegs.ofRegs (State.injectRaw_regs hs hty a 0 src d)).toErr
  unfold State.inject
  extract_lets chip
  split
  · exact raw rfl rfl
  · split
    · exact raw rfl rfl
    · split
      · exact raw (withExit_header _ _ _).1 (withExit_header _ _ _).2
      · exact s.logErr_regs _

/-! ### Replies (R301) -/

theorem hdr3_type (ty chip dest berth parity : Nat) : hType.get (hdr3 ty chip dest berth parity) = ty % 16 := by
  rw [hdr3, BitField.get_set_other _ _ _ _ (by decide), BitField.get_set_other _ _ _ _ (by decide),
    BitField.get_set_other _ _ _ _ (by decide), BitField.get_set_other _ _ _ _ (by decide), BitField.get_set_other _ _ _ _ (by decide),
    BitField.get_set_same _ _ _ (by decide)]
  rfl

/-- A reply writes no register but in the logging of an error. -/
theorem State.reply_regs (s : State) (a : Agent) {ty : Nat} (ht : ty % 16 ≠ tyOPEN) (srcChip srcCore src : Nat) (mcast : Option Nat)
    (pay : BitVec 512) : SameRegsButErr [] s (s.reply a ty srcChip srcCore src mcast pay) := by
  unfold State.reply
  extract_lets chip mark h
  refine State.inject_regs (sealed_mkBarge _ _) ?_ _ _ _
  show hType.get h ≠ tyOPEN
  have hh : hType.get h = ty % 16 := by
    simp only [h]
    split
    · rw [BitField.get_set_other _ _ _ _ (by decide), hdr3_type]
    · exact hdr3_type _ _ _ _ _
  rwa [hh]

/-! ### Arrivals (R293) -/

/-- A barge has been taken: it has left the inbox and, at an edge station, made room there. -/
def ArrivalTaken (s u : State) : Prop := ∃ inbox left, u = { s with mesh := { s.mesh with inbox := inbox, left := left } }

theorem State.takeArrival_arrivalTaken {s u : State} {a : Agent} {p : Barge → Bool} {x : Arrival} (h : s.takeArrival a p = some (x, u)) :
    ArrivalTaken s u := by
  unfold State.takeArrival at h
  split at h
  · obtain ⟨rfl, rfl⟩ := Prod.ext_iff.mp (Option.some.inj h)
    dsimp only
    split
    · exact ⟨_, _, rfl⟩
    · exact ⟨_, _, rfl⟩
  · cases h

namespace ArrivalTaken

variable {s u : State}

theorem regs (h : ArrivalTaken s u) : u.regs = s.regs := by obtain ⟨_, _, rfl⟩ := h; rfl
theorem cores (h : ArrivalTaken s u) : u.cores = s.cores := by obtain ⟨_, _, rfl⟩ := h; rfl
theorem landing (h : ArrivalTaken s u) : u.mesh.landing = s.mesh.landing := by obtain ⟨_, _, rfl⟩ := h; rfl
theorem readSeq (h : ArrivalTaken s u) : u.mesh.readSeq = s.mesh.readSeq := by obtain ⟨_, _, rfl⟩ := h; rfl
theorem readQ (h : ArrivalTaken s u) (a : Agent) : u.readQ a = s.readQ a := by obtain ⟨_, _, rfl⟩ := h; rfl
theorem tx (h : ArrivalTaken s u) (n sl : Nat) : u.tx n sl = s.tx n sl := by obtain ⟨_, _, rfl⟩ := h; rfl
theorem beatOf (h : ArrivalTaken s u) (n : Nat) : u.beatOf n = s.beatOf n := by obtain ⟨_, _, rfl⟩ := h; rfl
theorem written (h : ArrivalTaken s u) (a : Nat) (f : BitField) : u.written a f = s.written a f := by obtain ⟨_, _, rfl⟩ := h; rfl
theorem freeSlot (h : ArrivalTaken s u) (a : Agent) (b : Nat) : u.freeSlot a b = s.freeSlot a b := by obtain ⟨_, _, rfl⟩ := h; rfl
theorem claimsBerth (h : ArrivalTaken s u) (n : Nat) (b : Barge) : u.claimsBerth n b = s.claimsBerth n b := by
  obtain ⟨_, _, rfl⟩ := h; rfl
theorem liveLand (h : ArrivalTaken s u) (k : Nat) : u.liveLand k = s.liveLand k := by obtain ⟨_, _, rfl⟩ := h; rfl
theorem dataSlot (h : ArrivalTaken s u) (a : Agent) (b : Barge) : u.dataSlot a b = s.dataSlot a b := by obtain ⟨_, _, rfl⟩ := h; rfl
theorem abortSlot (h : ArrivalTaken s u) (a : Agent) (b : Barge) : u.abortSlot a b = s.abortSlot a b := by obtain ⟨_, _, rfl⟩ := h; rfl
theorem sluRunning (h : ArrivalTaken s u) (n sl : Nat) : u.sluRunning n sl = s.sluRunning n sl := by obtain ⟨_, _, rfl⟩ := h; rfl

theorem core (h : ArrivalTaken s u) (n : Nat) : u.core n = s.core n := State.core_congr h.cores n
theorem get (h : ArrivalTaken s u) (a : Nat) (f : BitField) : u.get a f = s.get a f := State.get_congr h.regs a f

end ArrivalTaken

end Sys2Proof.Machine
end

section
/-! SUPPORT. OPEN barges at their destination (R253, R254, R300, R301): the slot, the credit and the reply. -/

namespace Sys2Proof.Machine

/-! ### The claim of a berth (R254) -/

/-- The rows of an OPEN lie in berth `b`, and its credit covers the units. -/
def State.berthFits (s : State) (n b u off stride rows rowB : Nat) : Prop :=
  let lo := 64 * s.get (Reg.BERTH_W0 n b) Fld.BERTH_W0.base
  s.get (Reg.BERTH_W0 n b) Fld.BERTH_W0.enable = 1 ∧ lo ≤ off ∧
    off + stride * (rows - 1) + rowB ≤ lo + 64 * s.get (Reg.BERTH_W0 n b) Fld.BERTH_W0.size ∧
    u ≤ s.get (Reg.BERTH_W1 n b) Fld.BERTH_W1.credit

theorem State.berthClaim_fits {s : State} {n b u off stride rows rowB : Nat} (h : s.berthFits n b u off stride rows rowB) :
    s.berthClaim n b u off stride rows rowB =
      (s.put (Reg.BERTH_W1 n b) Fld.BERTH_W1.credit (s.get (Reg.BERTH_W1 n b) Fld.BERTH_W1.credit - u), 0) := by
  obtain ⟨he, hlo, hhi, hu⟩ := h
  simp only [State.berthClaim]
  rw [if_neg (by omega), if_neg (by omega)]

theorem State.berthClaim_refused {s : State} {n b u off stride rows rowB : Nat} (h : ¬ s.berthFits n b u off stride rows rowB) :
    ∃ code, code ≠ 0 ∧ s.berthClaim n b u off stride rows rowB = (s.hwSet (Reg.BERTH_W1 n b) Fld.BERTH_W1.refused 1, code) := by
  have he : s.get (Reg.BERTH_W0 n b) Fld.BERTH_W0.enable < 2 := BitField.get_lt _ _
  simp only [State.berthFits, not_and_or] at h
  simp only [State.berthClaim]
  split
  · exact ⟨_, by decide, rfl⟩
  · rw [if_pos (by omega)]
    exact ⟨_, by decide, rfl⟩

theorem State.hwSet_bit (s : State) (a : Nat) (f : BitField) (hf : f.width = 1) (h : f.lo + f.width ≤ 64) : (s.hwSet a f 1).get a f = 1 := by
  have hw : (s.hwSet a f 1).get a f = (s.get a f ||| 1) % 2 ^ f.width := State.get_put_same _ _ _ _ h
  rw [hw, hf, pow_one, Nat.or_mod_two_pow (n := 1)]
  have : s.get a f < 2 ^ f.width := BitField.get_lt _ _
  rw [hf, pow_one] at this
  interval_cases s.get a f <;> rfl

/-! ### The slot (R300) -/

/-- The landing slot that an OPEN claims. -/
def opened (b : Barge) (dst : Nat) (berth : Option Nat) : Landing :=
  { srcChip := payNat b 26 2, srcCore := payNat b 25 1, src := payNat b 24 1
    mcast := if bMulti b then some (hDest.get b.header) else none
    dst := dst, stride := 32 * payNat b 22 2, rows := payNat b 20 2, rowB := payNat b 16 4, berth := berth }

/-- The reply to the OPEN `b`. -/
def State.replyTo (s : State) (a : Agent) (ty : Nat) (b : Barge) (pay : BitVec 512) : State :=
  s.reply a ty (payNat b 26 2) (payNat b 25 1) (payNat b 24 1) (if bMulti b then some (hDest.get b.header) else none) pay

theorem State.replyTo_bargesMove (s : State) (a : Agent) (ty : Nat) (b : Barge) (pay : BitVec 512) :
    BargesMove s (s.replyTo a ty b pay) := s.reply_bargesMove _ _ _ _ _ _ _

theorem State.replyTo_regs (s : State) (a : Agent) {ty : Nat} (ht : ty % 16 ≠ tyOPEN) (b : Barge) (pay : BitVec 512) :
    SameRegsButErr [] s (s.replyTo a ty b pay) := s.reply_regs a ht _ _ _ _ _

/-- The core, if any, that an OPEN at agent `a` claims a berth of. -/
def State.claims (s : State) (a : Agent) (b : Barge) : Bool :=
  match coreOfAgent a with
  | some n => s.claimsBerth n b
  | none => false

/-- Where an OPEN at agent `a` writes. -/
def openDst (a : Agent) (b : Barge) : Nat :=
  match coreOfAgent a with
  | some n => coreBase n + payNat b 0 8 % 2 ^ 48 % 0x4000000
  | none => payNat b 0 8 % 2 ^ 48

theorem State.openAt_full {s : State} {a : Agent} {now : Nat} {b : Barge} (h : s.freeSlot a now = none) :
    s.openAt a now b = s.countBusy.replyTo a tyREFUSE b (BitVec.ofNat 512 0x3408) := by
  simp only [State.openAt, h, State.replyTo]

theorem State.openAt_free {s : State} {a : Agent} {now i : Nat} {b : Barge} (h : s.freeSlot a now = some i) (hc : s.claims a b = false) :
    s.openAt a now b = (s.setLand (slotKey a i) (opened b (openDst a b) none)).replyTo a tyGRANT b (BitVec.ofNat 512 i) := by
  unfold State.claims at hc
  simp only [State.openAt, h, State.replyTo, opened, openDst]
  cases ha : coreOfAgent a with
  | none => rfl
  | some n =>
    simp only [ha] at hc
    simp only [hc]
    rfl

/-- The claim of an OPEN at a core on its berth (R254). -/
def State.claimBerth (s : State) (n : Nat) (b : Barge) : State × Nat :=
  s.berthClaim n (hBerth.get b.header % 16) (payNat b 8 8) ((coreBase n + payNat b 0 8 % 2 ^ 48 % 0x4000000) % 0x4000000)
    (32 * payNat b 22 2) (payNat b 20 2) (payNat b 16 4)

theorem State.openAt_claims {s : State} {n : Fin 256} {now i : Nat} {b : Barge} (h : s.freeSlot (.core n) now = some i)
    (hc : s.claimsBerth n b = true) : s.openAt (.core n) now b =
      if (s.claimBerth n b).2 ≠ 0 then (s.claimBerth n b).1.replyTo (.core n) tyREFUSE b (BitVec.ofNat 512 (s.claimBerth n b).2)
      else ((s.claimBerth n b).1.setLand (slotKey (.core n) i) (opened b (openDst (.core n) b) (some (hBerth.get b.header % 16)))).replyTo
        (.core n) tyGRANT b (BitVec.ofNat 512 i) := by
  simp only [State.openAt, h, hc, coreOfAgent, if_true]
  rfl

/-! ### The command -/

/-- An OPEN does not wait for the keeper of its core, which grants credit first (R253). -/
def State.openNow (s : State) (a : Agent) (b : Barge) : Prop :=
  ∀ n, a = .core n → s.inBeat n = true → s.claimsBerth n b = true → s.keeperDone n = true

theorem exec_openBarge {a : Agent} {s u : State} {x : Arrival} (h : s.takeArrival a (fun b => bType b == tyOPEN) = some (x, u))
    (hk : s.openNow a x.barge) : exec (.openBarge a) s = .next (u.openAt a (s.nodeBeat x.node) x.barge) := by
  have he : exec (.openBarge a) s = execOpenBarge a s := rfl
  simp only [he, execOpenBarge, h]
  congr 1
  refine if_neg ?_
  cases a with
  | core n =>
    simp only [Bool.and_eq_true, not_and, Bool.not_eq_eq_eq_not, Bool.not_true, Bool.not_eq_false]
    rintro ⟨hb, hc⟩
    exact hk n rfl hb hc
  | _ => exact Bool.false_ne_true

theorem land_setLand_reply {s : State} {a c : Agent} {k i ty : Nat} {b : Barge} {pay : BitVec 512} (l : Landing) (h : k = slotKey a i) :
    ((s.setLand k l).replyTo c ty b pay).land (slotKey a i) = some l := by
  rw [(State.replyTo_bargesMove _ _ _ _ _).land, h]
  exact smFind_put_same _ _ _

section Open

variable {a : Agent} {s u : State} {x : Arrival} {now : Nat}

theorem openBarge_full (h : s.takeArrival a (fun b => bType b == tyOPEN) = some (x, u)) (hk : s.openNow a x.barge)
    (hf : s.freeSlot a (s.nodeBeat x.node) = none) : Gives (.openBarge a) s fun t =>
      t.mesh.landing = s.mesh.landing ∧ (s.written Reg.MESH_STAT Fld.MESH_STAT.busy = false →
        t.get Reg.MESH_STAT Fld.MESH_STAT.busy = min (s.get Reg.MESH_STAT Fld.MESH_STAT.busy + 1) (2 ^ Fld.MESH_STAT.busy.width - 1)) := by
  have ht := State.takeArrival_arrivalTaken h
  refine Gives.intro (exec_openBarge h hk) ?_
  rw [State.openAt_full ((ht.freeSlot a _).trans hf)]
  refine ⟨((State.replyTo_bargesMove _ _ _ _ _).landing.trans (State.addSat_bargesMove _ _ _ _).landing).trans ht.landing, fun hw => ?_⟩
  rw [State.get, State.replyTo_regs _ a (by decide) _ _ _ (by decide) (by simp), ← ht.get]
  refine (State.get_addSat_same _ _ _ _ (by decide)).trans (if_neg ?_)
  rw [ht.written, hw]
  exact Bool.false_ne_true

/-- The slot and no berth. -/
theorem openBarge_free (h : s.takeArrival a (fun b => bType b == tyOPEN) = some (x, u)) (hk : s.openNow a x.barge) {i : Nat}
    (hf : s.freeSlot a (s.nodeBeat x.node) = some i) (hc : u.claims a x.barge = false) : Gives (.openBarge a) s fun t =>
      t.land (slotKey a i) = some (opened x.barge (openDst a x.barge) none) := by
  have ht := State.takeArrival_arrivalTaken h
  refine Gives.intro (exec_openBarge h hk) ?_
  rw [State.openAt_free ((ht.freeSlot a _).trans hf) hc]
  exact land_setLand_reply _ rfl

end Open

section Berth

variable {n : Fin 256} {s u : State} {x : Arrival} {i : Nat}

/-- The berth that an OPEN at core `n` names holds its rows and has credit for it. -/
def State.openFits (s : State) (n : Nat) (b : Barge) : Prop :=
  s.berthFits n (hBerth.get b.header % 16) (payNat b 8 8) ((coreBase n + payNat b 0 8 % 2 ^ 48 % 0x4000000) % 0x4000000)
    (32 * payNat b 22 2) (payNat b 20 2) (payNat b 16 4)

theorem ArrivalTaken.openFits (h : ArrivalTaken s u) (n : Nat) (b : Barge) : u.openFits n b ↔ s.openFits n b := by
  simp only [State.openFits, State.berthFits, h.get]

theorem openBarge_credit (h : s.takeArrival (.core n) (fun b => bType b == tyOPEN) = some (x, u)) (hk : s.openNow (.core n) x.barge)
    (hf : s.freeSlot (.core n) (s.nodeBeat x.node) = some i) (hc : s.claimsBerth n x.barge = true) (hok : s.openFits n x.barge) :
    Gives (.openBarge (.core n)) s fun t =>
      t.land (slotKey (.core n) i) = some (opened x.barge (openDst (.core n) x.barge) (some (hBerth.get x.barge.header % 16))) ∧
      t.get (Reg.BERTH_W1 n (hBerth.get x.barge.header % 16)) Fld.BERTH_W1.credit =
        s.get (Reg.BERTH_W1 n (hBerth.get x.barge.header % 16)) Fld.BERTH_W1.credit - payNat x.barge 8 8 := by
  have ht := State.takeArrival_arrivalTaken h
  have hb : hBerth.get x.barge.header % 16 < 16 := Nat.mod_lt _ (by decide)
  refine Gives.intro (exec_openBarge h hk) ?_
  rw [State.openAt_claims ((ht.freeSlot _ _).trans hf) ((ht.claimsBerth _ _).trans hc), State.claimBerth,
    State.berthClaim_fits ((ht.openFits _ _).mpr hok), if_neg (by simp)]
  refine ⟨land_setLand_reply _ rfl, ?_⟩
  rw [State.get, State.replyTo_regs _ _ (by decide) _ _ _ (errReg_BERTH_W1 n ⟨_, hb⟩) (by simp), ← ht.get]
  refine (State.get_put_same _ _ _ _ (by decide)).trans (Nat.mod_eq_of_lt ?_)
  exact Nat.lt_of_le_of_lt (Nat.sub_le _ _) (BitField.get_lt _ _)

theorem openBarge_refused (h : s.takeArrival (.core n) (fun b => bType b == tyOPEN) = some (x, u)) (hk : s.openNow (.core n) x.barge)
    (hf : s.freeSlot (.core n) (s.nodeBeat x.node) = some i) (hc : s.claimsBerth n x.barge = true) (hno : ¬ s.openFits n x.barge) :
    Gives (.openBarge (.core n)) s fun t =>
      t.mesh.landing = s.mesh.landing ∧ t.get (Reg.BERTH_W1 n (hBerth.get x.barge.header % 16)) Fld.BERTH_W1.refused = 1 ∧
      t.get (Reg.BERTH_W1 n (hBerth.get x.barge.header % 16)) Fld.BERTH_W1.credit =
        s.get (Reg.BERTH_W1 n (hBerth.get x.barge.header % 16)) Fld.BERTH_W1.credit := by
  have ht := State.takeArrival_arrivalTaken h
  have hb : hBerth.get x.barge.header % 16 < 16 := Nat.mod_lt _ (by decide)
  obtain ⟨code, h0, hcl⟩ := State.berthClaim_refused (mt (ht.openFits _ _).mp hno)
  refine Gives.intro (exec_openBarge h hk) ?_
  rw [State.openAt_claims ((ht.freeSlot _ _).trans hf) ((ht.claimsBerth _ _).trans hc), State.claimBerth, hcl, if_pos h0]
  have hr := State.replyTo_regs (u.hwSet (Reg.BERTH_W1 n (hBerth.get x.barge.header % 16)) Fld.BERTH_W1.refused 1) (.core n)
    (ty := tyREFUSE) (by decide) x.barge (BitVec.ofNat 512 code) _ (errReg_BERTH_W1 n ⟨_, hb⟩) (by simp)
  refine ⟨(State.replyTo_bargesMove _ _ _ _ _).landing.trans ht.landing, ?_, ?_⟩
  · rw [State.get, hr]
    exact State.hwSet_bit _ _ _ rfl (by decide)
  · rw [State.get, hr, ← ht.get]
    exact State.get_hwSet_other _ _ _ _ _ (by decide)

end Berth

end Sys2Proof.Machine
end

section
/-! SUPPORT. DATA, READ and ABORT barges at their destination (R302 to R304, R309). -/

namespace Sys2Proof.Machine

/-! ### DATA joins the ingress buffer (R304) -/

theorem State.logLand_nothing (s : State) (core : Option Nat) {codes : List (Nat × Nat)} (h : ∀ c ∈ codes, c.1 = 0) (logged : List Nat) :
    s.logLand core codes logged = (s, logged) := by
  induction codes generalizing s logged with
  | nil => rfl
  | cons c l ih =>
    have hc : c.1 = 0 := h c List.mem_cons_self
    have hi := ih s (fun d hd => h d (List.mem_cons_of_mem _ hd)) logged
    simp only [State.logLand, List.foldl_cons, hc, true_or, if_true] at hi ⊢
    exact hi

theorem Core.ingress_setRunning (c : Core) (u : UnitId) (r : Option RunOp) : (c.setRunning u r).ingress = c.ingress := by cases u <;> rfl

theorem State.modRun_ingress (s : State) (m n : Nat) (u : UnitId) (f : RunOp → RunOp) :
    ((s.modRun m u f).core n).ingress = (s.core n).ingress := by
  unfold State.modRun
  split
  · by_cases h : n = m
    · subst h
      exact (congrArg Core.ingress (State.core_setCore_same _ _ _)).trans (Core.ingress_setRunning _ _ _)
    · exact congrArg Core.ingress (State.core_setCore_ne _ _ h)
  · rfl

theorem State.noteLogged_ingress (s : State) (n chip core src : Nat) (codes : List Nat) :
    ((s.noteLogged chip core src codes).core n).ingress = (s.core n).ingress := by
  unfold State.noteLogged
  split
  · exact s.modRun_ingress _ _ _ _
  · rfl

/-- The count of the buffer that a core shows. -/
theorem State.refresh_held (s : State) (n : Nat) :
    (s.refresh n).get (Reg.INGRESS_STAT n) Fld.INGRESS_STAT.held = (s.core n).ingress.length % 2 ^ Fld.INGRESS_STAT.held.width :=
  State.get_put_same _ _ _ _ (by decide)

theorem State.land_refresh (s : State) (n k : Nat) : (s.refresh n).land k = s.land k := by
  rw [State.land, State.land, (s.refresh_changes n).mesh rfl]

/-- DATA in sequence whose lines are good: the barge joins the buffer, and its slot awaits the next one. -/
theorem State.landData_good (s : State) (n : Fin 256) (node k : Nat) (l : Landing) {b : Barge} {d0 d1 : BitVec 256}
    (hseq : hSeq.get b.header = l.next % 1024) (h0 : arriveLine (b.payload.extractLsb' 0 256) b.check0 = (d0, false, 0))
    (h1 : arriveLine (b.payload.extractLsb' 256 256) b.check1 = (d1, false, 0)) :
    let t := s.landData (.core n) node k l b
    (∃ g, (t.core n).ingress = (s.core n).ingress ++ [g] ∧ g.slot = k ∧ g.addr = (l.place l.next).1 ∧
      g.bytes = (natLe 32 d0.toNat ++ natLe 32 d1.toNat).take (l.place l.next).2 ∧ g.poison.any id = false) ∧
    (∃ codes, t.land k = some { l with next := l.next + 1, logged := codes }) ∧
    t.get (Reg.INGRESS_STAT n) Fld.INGRESS_STAT.held = ((s.core n).ingress.length + 1) % 2 ^ Fld.INGRESS_STAT.held.width := by
  have hok : (hSeq.get b.header == l.next % 1024) = true := beq_iff_eq.mpr hseq
  have hbad : (if (decide (32 < (l.place l.next).2)) = true then [false, false] else [false]).any id = false := by split <;> rfl
  have hcodes : ∀ c ∈ (if (decide (32 < (l.place l.next).2)) = true then [(0, (l.place l.next).1), (0, (l.place l.next).1 + 32)]
      else [(0, (l.place l.next).1)] : List (Nat × Nat)), c.1 = 0 := by
    split <;> simp
  simp only [State.landData, hok, h0, h1, if_true, coreOfAgent, s.logLand_nothing _ hcodes, hbad, Bool.or_false, Bool.false_eq_true, if_false]
  refine ⟨?_, ⟨s.opLogged l.srcChip l.srcCore l.src l.logged, ?_⟩, ?_⟩
  · rw [State.core_refresh, State.core_setCore_same]
    exact ⟨_, congrArg (· ++ [_]) (s.noteLogged_ingress n _ _ _ _), rfl, rfl, rfl, hbad⟩
  · rw [State.land_refresh]
    exact smFind_put_same _ _ _
  · rw [State.refresh_held, State.core_setCore_same, List.length_append]
    exact congrArg (fun l => (List.length l + 1) % 2 ^ Fld.INGRESS_STAT.held.width) (s.noteLogged_ingress n _ _ _ _)

/-- DATA is for the slot that its header names, or for the place of a fill. -/
theorem exec_dataBarge {n : Fin 256} {s u : State} {x : Arrival} {k : Nat} {l : Landing}
    (h : s.takeArrival (.core n) (fun b => bType b == tyDATA) = some (x, u))
    (hd : mapMark x.barge = 0 ∧ s.dataSlot (.core n) x.barge = some (k, l) ∨
      mapMark x.barge = fillMark ∧ k = fillKey n ∧ s.liveLand k = some l) :
    exec (.dataBarge (.core n)) s = .next (u.landData (.core n) x.node k l x.barge) := by
  have he : exec (.dataBarge (.core n)) s = execDataBarge (.core n) s := rfl
  have ht := State.takeArrival_arrivalTaken h
  obtain ⟨hm, hs⟩ | ⟨hm, rfl, hs⟩ := hd
  · simp only [he, execDataBarge, h, coreOfAgent, hm, ht.dataSlot, hs]
  · have hf : fillMark = 6 + 1 := rfl
    simp only [he, execDataBarge, h, coreOfAgent, hm, hf, if_true, ht.liveLand, hs]

theorem dataBarge_good {n : Fin 256} {s u : State} {x : Arrival} {k : Nat} {l : Landing} {d0 d1 : BitVec 256}
    (h : s.takeArrival (.core n) (fun b => bType b == tyDATA) = some (x, u))
    (hd : mapMark x.barge = 0 ∧ s.dataSlot (.core n) x.barge = some (k, l) ∨
      mapMark x.barge = fillMark ∧ k = fillKey n ∧ s.liveLand k = some l) (hseq : hSeq.get x.barge.header = l.next % 1024)
    (h0 : arriveLine (x.barge.payload.extractLsb' 0 256) x.barge.check0 = (d0, false, 0))
    (h1 : arriveLine (x.barge.payload.extractLsb' 256 256) x.barge.check1 = (d1, false, 0)) : Gives (.dataBarge (.core n)) s fun t =>
      (∃ g, (t.core n).ingress = (s.core n).ingress ++ [g] ∧ g.slot = k ∧ g.addr = (l.place l.next).1 ∧
        g.bytes = (natLe 32 d0.toNat ++ natLe 32 d1.toNat).take (l.place l.next).2 ∧ g.poison.any id = false) ∧
      (∃ codes, t.land k = some { l with next := l.next + 1, logged := codes }) ∧
      t.get (Reg.INGRESS_STAT n) Fld.INGRESS_STAT.held = ((s.core n).ingress.length + 1) % 2 ^ Fld.INGRESS_STAT.held.width := by
  refine Gives.intro (exec_dataBarge h hd) ?_
  rw [← (State.takeArrival_arrivalTaken h).core]
  exact u.landData_good n x.node k l hseq h0 h1

/-! ### READ and ABORT (R302, R309) -/

/-- Where a READ at agent `a` reads. -/
def readAt (a : Agent) (r : ReadReq) : ReadReq :=
  match coreOfAgent a with
  | some n => { r with src := coreBase n + r.src % 0x4000000 }
  | none => r

theorem readBarge_queued {a : Agent} {s u : State} {x : Arrival} (h : s.takeArrival a (fun b => bType b == tyREAD) = some (x, u))
    (hq : (s.readQ a).length < 16) : Gives (.readBarge a) s fun t =>
      t.readQ a = s.readQ a ++ [{ readAt a (readOf x.barge) with id := s.mesh.readSeq }] ∧ t.mesh.readSeq = s.mesh.readSeq + 1 := by
  have he : exec (.readBarge a) s = execReadBarge a s := rfl
  have ht := State.takeArrival_arrivalTaken h
  refine Gives.intro (t := { u with mesh := { u.mesh with readSeq := u.mesh.readSeq + 1 } }.setReadQ a
    (u.readQ a ++ [{ readAt a (readOf x.barge) with id := u.mesh.readSeq }])) ?_ ?_
  · simp only [he, execReadBarge, h]
    rw [if_neg (by rw [ht.readQ]; omega)]
    cases a <;> rfl
  · rw [← ht.readSeq, ← ht.readQ]
    exact ⟨smGet_put_same _ _ _ _, rfl⟩

theorem abortBarge_frees {a : Agent} {s u : State} {x : Arrival} {k : Nat} (h : s.takeArrival a (fun b => bType b == tyABORT) = some (x, u))
    (hk : s.abortSlot a x.barge = some k) : Gives (.abortBarge a) s fun t => t.mesh.landing = smDel s.mesh.landing k ∧ t.regs = s.regs := by
  have he : exec (.abortBarge a) s = execAbortBarge a s := rfl
  have ht := State.takeArrival_arrivalTaken h
  refine Gives.intro (t := u.freeLand k) ?_ ⟨congrArg (smDel · k) ht.landing, ht.regs⟩
  simp only [he, execAbortBarge, h, ht.abortSlot, hk]

/-! ### The read agent of a core (R248, R250, R302) -/

/-- The units of a range lie in it. -/
theorem piecesOf_within {a n : Nat} {p : Nat × Nat} (h : p ∈ piecesOf a n) (hp : 0 < p.2) : a ≤ p.1 ∧ p.1 + p.2 ≤ a + n := by
  simp only [piecesOf] at h
  split at h
  · cases h
  · obtain ⟨j, -, rfl⟩ := List.mem_map.mp h
    simp only at hp ⊢
    omega

/-- Where no line of a range is bad, none of a part of it is. -/
theorem State.badLines_within {s : State} {a n b m : Nat} (h : s.badLines a n = []) (hw : 0 < m → a ≤ b ∧ b + m ≤ a + n) :
    s.badLines b m = [] := by
  simp only [State.badLines, List.map_eq_nil_iff, List.filter_eq_nil_iff] at h ⊢
  intro c hc
  have := h c hc
  simp only [Bool.and_eq_true, decide_eq_true_eq, not_and] at this ⊢
  rintro ⟨hm, h1, h2⟩
  obtain ⟨hlo, hhi⟩ := hw hm
  exact this ⟨by omega, by omega, by omega⟩

/-- The units of a range that has no bad line have none. -/
theorem State.badLines_pieces {s : State} {a n : Nat} (h : s.badLines a n = []) :
    (piecesOf a n).flatMap (fun p => s.badLines p.1 p.2) = [] :=
  List.flatMap_eq_nil_iff.mpr fun _ hp => State.badLines_within h (piecesOf_within hp)

theorem State.readParts_cons (s : State) (p : Nat × Nat) (ps : List (Nat × Nat)) (m : Parts) :
    s.readParts (p :: ps) m = s.readParts ps (smPut m p.1 (s.bytes p.1 p.2, s.lineBads p.1 p.2)) := rfl

/-- Parts that have been read are kept. -/
theorem State.readParts_keeps (s : State) (ps : List (Nat × Nat)) {m : Parts} {a : Nat} (h : (smFind m a).isSome) :
    (smFind (s.readParts ps m) a).isSome := by
  induction ps generalizing m with
  | nil => exact h
  | cons p ps ih =>
    rw [State.readParts_cons]
    refine ih ?_
    by_cases hp : a = p.1
    · rw [hp, smFind_put_same, Option.isSome_some]
    · rwa [smFind_put_ne _ _ hp]

/-- No piece is missing of those read. -/
theorem State.missing_readParts (s : State) (ps : List (Nat × Nat)) (m : Parts) : (s.readParts ps m).missing ps = [] := by
  refine List.filter_eq_nil_iff.mpr fun p hp => ?_
  have hs : (smFind (s.readParts ps m) p.1).isSome := by
    induction ps generalizing m with
    | nil => cases hp
    | cons q ps ih =>
      rw [State.readParts_cons]
      rcases List.mem_cons.mp hp with rfl | hp
      · exact s.readParts_keeps _ (by rw [smFind_put_same, Option.isSome_some])
      · exact ih _ hp
  rw [Option.isNone_iff_eq_none, ← ne_eq, Option.ne_none_iff_isSome]
  exact hs

theorem Parts.missing_nil (ps : List (Nat × Nat)) : Parts.missing [] ps = ps := List.filter_eq_self.mpr fun _ _ => rfl

/-- The reading of good lines notes nothing but what the operation behind it has logged. -/
theorem State.noteOp_nothing (s : State) (core : Option Nat) (chip score src : Nat) (own : List Nat) :
    ∃ cores, (s.noteOp core [] chip score src own).1 = { s with cores := cores } := by
  show ∃ cores, s.noteLogged chip score src _ = { s with cores := cores }
  unfold State.noteLogged
  split
  · unfold State.modRun
    split
    · exact ⟨_, rfl⟩
    · exact ⟨s.cores, rfl⟩
  · exact ⟨s.cores, rfl⟩

theorem State.readParts_congr {s t : State} (hm : t.mem = s.mem) (he : t.ecc = s.ecc) (ps : List (Nat × Nat)) (m : Parts) :
    t.readParts ps m = s.readParts ps m := by
  induction ps generalizing m with
  | nil => rfl
  | cons p ps ih =>
    have hb : t.lineBads p.1 p.2 = s.lineBads p.1 p.2 := by simp only [State.lineBads, State.eccOf, he]
    rw [State.readParts_cons, State.readParts_cons, ih, State.bytes_congr hm he, hb]

theorem State.setCores_readParts (s : State) (cores : SMap Core) (ps : List (Nat × Nat)) (m : Parts) :
    { s with cores := cores }.readParts ps m = s.readParts ps m :=
  State.readParts_congr (s := s) (t := { s with cores := cores }) rfl rfl ps m

/-- A unicast barge for this chip enters at the agent's station. -/
theorem State.inject_unicast {s : State} {b : Barge} (h : Sealed b) (hm : bMulti b = false) (hh : s.isHere (hChip.get b.header) = true)
    (a : Agent) (src d : Nat) : ∃ f, (s.inject a src d b).mesh.flits = insertFlit f s.mesh.flits ∧ f.node = (s.injectAt a b).1 ∧
      f.port = (s.injectAt a b).2 ∧ f.barge = b := by
  simp only [State.inject, hm, Bool.false_eq_true, if_false, hh, if_true, State.injectRaw, State.enter_unicast h hm]
  refine ⟨_, congrArg (insertFlit _) ?_, rfl, rfl, rfl⟩
  unfold State.takeWidth
  dsimp only
  split <;> rfl

/-- The oldest READ of a core, of one barge whose lines are good, sends that barge. -/
theorem State.serveCoreRead_last {s : State} {n : Fin 256} {r : ReadReq} (fuel : Nat) (hq : s.readQ (.core n) = [r]) (h0 : r.sent = 0)
    (h1 : r.total = 1) (hp : r.part = []) (hi : s.mayInject n r.rclass = true) (hb : s.badLines (r.place 0).1 (r.place 0).2 = [])
    (hmay : ∀ p ∈ piecesOf (r.place 0).1 (r.place 0).2,
      memKind p.1 ≠ .basin ∨ s.held = true ∨ (s.core n).readGiven.contains p.1 = true) :
    let ps := piecesOf (r.place 0).1 (r.place 0).2
    let got := Parts.join (s.readParts ps []) ps
    ∃ cores, s.serveCoreRead n (.core n) (fuel + 1) =
      ({ s with cores := cores }.inject (.core n) 5 0 (r.barge 0 got.1 got.2)).setReadQ (.core n) [] := by
  have hnew : ((piecesOf (r.place 0).1 (r.place 0).2).filter fun x => memKind x.1 != .basin || s.held || (s.core n).readGiven.contains x.1) =
      piecesOf (r.place 0).1 (r.place 0).2 := by
    refine List.filter_eq_self.mpr fun p hm => ?_
    simpa only [Bool.or_eq_true, bne_iff_ne, or_assoc] using hmay p hm
  obtain ⟨cores, hc⟩ := s.noteOp_nothing (some n) r.sChip r.sCore r.sSrc r.logged
  have htot : ∀ lg, ({ r with sent := 0 + 1, logged := lg, part := [] } : ReadReq).total = 1 := fun _ => h1
  simp only [State.serveCoreRead, hq, h0, h1, hi, hp, Parts.missing_nil, hnew, State.badLines_pieces hb, hc, State.setCores_readParts,
    State.missing_readParts, htot]
  exact ⟨_, rfl⟩

theorem readAgentServe_sends {s : State} {n : Fin 256} {r : ReadReq} (hq : s.readQ (.core n) = [r]) (h0 : r.sent = 0)
    (h1 : r.total = 1) (hp : r.part = []) (hr : s.meshRuns n = true) (hi : s.mayInject n r.rclass = true)
    (hb : s.badLines (r.place 0).1 (r.place 0).2 = [])
    (hmay : ∀ p ∈ piecesOf (r.place 0).1 (r.place 0).2,
      memKind p.1 ≠ .basin ∨ s.held = true ∨ (s.core n).readGiven.contains p.1 = true) {b : Barge}
    (hbar : b = let ps := piecesOf (r.place 0).1 (r.place 0).2
      r.barge 0 (Parts.join (s.readParts ps []) ps).1 (Parts.join (s.readParts ps []) ps).2)
    (hm : bMulti b = false) (hh : s.isHere (hChip.get b.header) = true) : Gives (.readAgentServe (.core n)) s fun t =>
      t.readQ (.core n) = [] ∧ ∃ f, t.mesh.flits = insertFlit f s.mesh.flits ∧ f.node = n.val ∧ f.port = .localPort ∧ f.barge = b := by
  obtain ⟨cores, hs⟩ := State.serveCoreRead_last 15 hq h0 h1 hp hi hb hmay
  have he : exec (.readAgentServe (.core n)) s = .next (if s.meshRuns n then s.serveCoreRead n (.core n) 16 else s) := rfl
  rw [if_pos hr, hs] at he
  refine Gives.intro he ⟨smGet_put_same _ _ _ _, ?_⟩
  rw [← hbar]
  have hseal : Sealed b := by
    rw [hbar]
    rfl
  exact State.inject_unicast (s := { s with cores := cores }) hseal hm hh (.core n) 5 0

/-! ### The obligation -/

/-- Settles O31: the claim of a berth and its slot, DATA in sequence, the queue of READs, the slot that an ABORT names, and the barge of the
oldest READ. -/
theorem landings : Obligations.Landings := by
  refine ⟨fun a s u x h hk => ⟨openBarge_full h hk, fun i hi => ⟨fun hn => ?_, ?_⟩⟩, fun s u x => ⟨?_, ?_, ?_, ?_⟩⟩
  · have hc : coreOfAgent a = none := by
      cases a with
      | core n => exact absurd rfl (hn n)
      | _ => rfl
    have := openBarge_free h hk hi (by simp only [State.claims, hc])
    simp only [openDst, hc] at this
    exact this
  · rintro n rfl
    have ht := State.takeArrival_arrivalTaken h
    refine ⟨fun hc => openBarge_free h hk hi ((ht.claimsBerth _ _).trans hc),
      fun hc he hlo hhi hcr => openBarge_credit h hk hi hc ⟨he, hlo, hhi, hcr⟩, fun hc hor => openBarge_refused h hk hi hc ?_⟩
    rintro ⟨he, hlo, hhi, hcr⟩
    rcases hor with h0 | h0 | h0 | h0
    · rw [h0] at he
      exact Nat.zero_ne_one he
    · exact Nat.not_lt_of_le hlo h0
    · exact Nat.not_lt_of_le hhi h0
    · exact Nat.not_lt_of_le hcr h0
  · exact fun n k l d0 d1 h hd hseq h0 h1 => dataBarge_good h hd hseq h0 h1
  · refine fun a h hq => ⟨fun hn => ?_, ?_⟩
    · have := readBarge_queued h hq
      have hc : readAt a (readOf x.barge) = readOf x.barge := by
        cases a with
        | core n => exact absurd rfl (hn n)
        | _ => rfl
      rwa [hc] at this
    · rintro n rfl
      exact readBarge_queued h hq
  · exact fun a k h hk => abortBarge_frees h hk
  · exact fun n r hq h0 h1 hp hr hi hb hmay hm hh => readAgentServe_sends hq h0 h1 hp hr hi hb hmay rfl hm hh

end Sys2Proof.Machine
end

section
/-! SUPPORT. GRANT, ACK and REFUSE at a sluice (R256, R301, R305, R309). -/

namespace Sys2Proof.Machine

section Replies

variable {core : Fin 256} {sl : Fin 4} {s u : State} {x : Arrival} {tx : Tx}

/-! ### GRANT (R301) -/

theorem State.tx_setTx (s : State) (n sl : Nat) (t : Tx) : (s.setTx n sl t).tx n sl = some t := smFind_put_same _ _ _

/-- What a grant sets going leaves the transfer as noted. -/
theorem grant_noted {y : SubTx} (htx : s.tx core sl = some tx) (h : s.takeArrival (.core core) (s.forSluice core sl tyGRANT) = some (x, u))
    (hy : tx.replied x.barge = some y) : Gives (.grant core sl) s fun t =>
      t.tx core sl = some (tx.setSub { y with granted := some (payNat x.barge 0 8), grantAt := s.beatOf core }) := by
  have he : exec (.grant core sl) s = execGrant core sl s := rfl
  have ht := State.takeArrival_arrivalTaken h
  simp only [execGrant, h, (ht.tx _ _).trans htx, hy] at he
  split at he
  · refine Gives.intro he ?_
    rw [((State.sendBy_bargesMove _ _ _ _ _ _ _).trans (State.showTx_bargesMove _ _ _)).tx, State.tx_setTx, ht.beatOf]
  · refine Gives.intro he ?_
    rw [(State.showTx_bargesMove _ _ _).tx, State.tx_setTx, ht.beatOf]

/-! ### ACK (R305) -/

theorem State.modRun_mesh (s : State) (n : Nat) (v : UnitId) (f : RunOp → RunOp) : (s.modRun n v f).mesh = s.mesh :=
  (s.modRun_changes n v f).mesh rfl

theorem State.sluRunning_running {s : State} {n sl : Nat} {o : SluOp} (h : s.sluRunning n sl = some o) :
    ∃ r, (s.core n).running (sluUnit sl) = some r := by
  unfold State.sluRunning at h
  split at h
  next r hr => exact ⟨r, hr⟩
  next => cases h

/-- The rows that a transfer opens. -/
def SluOp.rowsToOpen (o : SluOp) : Nat :=
  match o.kind with
  | .kvr => o.rows
  | .kvw => o.rows
  | _ => 1

theorem SluOp.rowsToOpen_copy {o : SluOp} (h : o.kind = .copy ∨ o.kind = .cast) : o.rowsToOpen = 1 := by
  rcases h with h | h <;> simp only [SluOp.rowsToOpen, h]

/-- A transfer all of whose rows are opened and acknowledged is complete. -/
theorem State.settle_tx {s : State} {n sl : Nat} {o : SluOp} {t : Tx} (h : s.tx n sl = some t) : ∃ t', (s.settle n sl o).tx n sl = some t' ∧
    t'.subs = t.subs ∧ t'.nextRow = t.nextRow ∧ (t.subs = [] → t.stage = 2 → o.rowsToOpen ≤ t.nextRow → t'.complete = true) := by
  have he : s.settle n sl o = if t.subs.isEmpty ∧ t.stage = 2 ∧ o.rowsToOpen ≤ t.nextRow
      then (s.setTx n sl { t with complete := true }).showTx n sl else s := by
    simp only [State.settle, h]
    rfl
  rw [he]
  split
  next hc =>
    refine ⟨{ t with complete := true }, ?_, rfl, rfl, fun _ _ _ => rfl⟩
    rw [(State.showTx_bargesMove _ _ _).tx, State.tx_setTx]
  next hc => exact ⟨t, h, rfl, rfl, fun h1 h2 h3 => absurd ⟨List.isEmpty_iff.mpr h1, h2, h3⟩ hc⟩

/-- An acknowledgement that says so taints the operation of the sluice. -/
def State.ackTaint (s : State) (core : Fin 256) (sl : Fin 4) (b : Barge) : State :=
  if payNat b 0 1 % 2 = 1 then s.modRun core (sluUnit sl) fun r => { r with poison := true } else s

theorem State.ackTaint_mesh (s : State) (b : Barge) : (s.ackTaint core sl b).mesh = s.mesh := by
  unfold State.ackTaint
  split
  · exact s.modRun_mesh _ _ _
  · rfl

theorem State.ackTaint_poison {s : State} {b : Barge} {r : RunOp} (hp : payNat b 0 1 % 2 = 1)
    (hr : (s.core core).running (sluUnit sl) = some r) :
    ((s.ackTaint core sl b).core core).running (sluUnit sl) = some { r with poison := true } := by
  simp only [State.ackTaint, hp, if_true, State.modRun, hr, State.setRun, State.core_setCore_same]
  exact Core.running_setRunning_of_some hr _

theorem exec_ackBarge {y : SubTx} {o : SluOp} (htx : s.tx core sl = some tx)
    (h : s.takeArrival (.core core) (s.forSluice core sl tyACK) = some (x, u)) (hy : tx.replied x.barge = some y)
    (ho : s.sluRunning core sl = some o) : exec (.ackBarge core sl) s = .next ((((u.setTx core sl
      { tx with subs := tx.subs.filter fun z => z.idx != y.idx }).ackTaint core sl x.barge).showTx core sl).settle core sl o) := by
  have he : exec (.ackBarge core sl) s = execAckBarge core sl s := rfl
  have ht := State.takeArrival_arrivalTaken h
  simp only [execAckBarge, h, (ht.tx _ _).trans htx, (ht.sluRunning _ _).trans ho, hy] at he
  exact he

theorem ackBarge_taken {y : SubTx} {o : SluOp} (htx : s.tx core sl = some tx)
    (h : s.takeArrival (.core core) (s.forSluice core sl tyACK) = some (x, u)) (hy : tx.replied x.barge = some y)
    (ho : s.sluRunning core sl = some o) : Gives (.ackBarge core sl) s fun t =>
      (∃ tx', t.tx core sl = some tx' ∧ tx'.subs = tx.subs.filter (fun z => z.idx != y.idx) ∧ tx'.nextRow = tx.nextRow ∧
        (tx'.subs = [] → tx.stage = 2 → o.kind = .copy ∨ o.kind = .cast → 1 ≤ tx.nextRow → tx'.complete = true)) ∧
      (payNat x.barge 0 1 % 2 = 1 → ∃ r, (t.core core).running (sluUnit sl) = some r ∧ r.poison = true) := by
  refine Gives.intro (exec_ackBarge htx h hy ho) ⟨?_, fun hp => ?_⟩
  · have hx (v : State) : ((v.ackTaint core sl x.barge).showTx core sl).tx core sl = v.tx core sl := by
      rw [(State.showTx_bargesMove _ _ _).tx, State.tx, State.ackTaint_mesh, State.tx]
    obtain ⟨t', htx', hs, hn, hc⟩ := State.settle_tx (o := o) ((hx _).trans (u.tx_setTx _ _ _))
    refine ⟨t', htx', hs, hn, fun h1 h2 h3 h4 => hc (hs.symm.trans h1) h2 ?_⟩
    rw [SluOp.rowsToOpen_copy h3]
    exact h4
  · obtain ⟨r, hr⟩ := State.sluRunning_running ho
    rw [← (State.takeArrival_arrivalTaken h).core] at hr
    refine ⟨{ r with poison := true }, ?_, rfl⟩
    rw [State.core_congr (State.settle_changes _ _ _ _).cores, State.core_congr (State.showTx_changes _ _ _).cores]
    exact State.ackTaint_poison (s := u.setTx core sl _) hp hr

/-! ### REFUSE (R256, R309) -/

/-- The other branches of a multicast that is refused are aborted. -/
def State.abortBranches (s : State) (core : Fin 256) (sl : Fin 4) (b : Barge) : State :=
  if bMulti b then s.inject (.core core) (1 + sl) 1 (mkBarge (hMcast.set (hdr3 tyABORT 0 (hDest.get b.header) 0 s.stepParity) 1) 0) else s

/-- The refusal is logged, once for the operation. -/
def State.logRefusal (s : State) (core : Fin 256) (r : RunOp) (code aux : Nat) : State :=
  if r.logged.contains code then s else s.logCore core code aux (s.headInfo core r.desc) (some (dTag r.desc))

/-- The transfer ends, and its operation is dead. -/
def State.endTransfer (s : State) (core : Fin 256) (sl : Fin 4) (t : Tx) (r : RunOp) (code : Nat) : State :=
  (s.setTx core sl { t with subs := [], nextRow := 2 ^ 16, stage := 2, complete := true }).setRun core (sluUnit sl)
    (some { r with dead := true, logged := code :: r.logged })

theorem State.abortBranches_bargesMove (s : State) (b : Barge) : BargesMove s (s.abortBranches core sl b) :=
  .ite (s.inject_bargesMove _ _ _ _) (.refl s)

theorem State.abortBranches_regs (s : State) (b : Barge) : SameRegsButErr [] s (s.abortBranches core sl b) := by
  unfold State.abortBranches
  split
  · refine State.inject_regs (sealed_mkBarge _ _) ?_ _ _ _
    show hType.get (hMcast.set _ 1) ≠ tyOPEN
    rw [BitField.get_set_other _ _ _ _ (by decide), hdr3_type]
    decide
  · exact .refl _ s

theorem State.abortBranches_core (s : State) (b : Barge) (n : Nat) : (s.abortBranches core sl b).core n = s.core n := by
  unfold State.abortBranches
  split
  · exact State.core_congr (s.inject_changes _ _ _ _).cores n
  · rfl

theorem State.logRefusal_bargesMove (s : State) (r : RunOp) (code aux : Nat) : BargesMove s (s.logRefusal core r code aux) :=
  .ite (.refl s) (s.logErr_bargesMove _)

theorem State.logRefusal_regs (s : State) (r : RunOp) (code aux : Nat) : SameRegsButErr [] s (s.logRefusal core r code aux) := by
  unfold State.logRefusal
  split
  · exact .refl _ s
  · exact s.logErr_regs _

theorem State.logRefusal_core (s : State) (r : RunOp) (code aux n : Nat) : (s.logRefusal core r code aux).core n = s.core n := by
  unfold State.logRefusal
  split
  · rfl
  · exact State.core_congr (s.logErr_changes _).cores n

theorem errReg_DEV_CORE_MAP {n : Nat} (h : n < 256) : errReg (Reg.DEV_CORE_MAP (n / 64)) = false :=
  (by decide : ∀ i : Fin 4, errReg (Reg.DEV_CORE_MAP i) = false) ⟨n / 64, by omega⟩

/-- The logging of errors leaves the state of the cores. -/
theorem SameRegsButErr.coreState {s t : State} (h : SameRegsButErr [] s t) (n : Fin 256) : t.coreState n = s.coreState n :=
  State.coreState_of_regs (h _ (errReg_DEV_CORE_MAP n.isLt) (by simp))
    (h _ (errReg_belowPace (coreReg_belowPace n (by decide))) (by simp))

/-- The show of a transfer writes SLUICE_STAT. -/
theorem State.showTx_regs (s : State) (n sl : Nat) : SameRegs [Reg.SLUICE_STAT n sl] s (s.showTx n sl) := by
  unfold State.showTx
  extract_lets a
  split
  · exact State.put_step (State.put_step (.refl _ s) _ _ _ (by simp [a])) _ _ _ (by simp [a])
  · exact State.put_step (State.put_step (.refl _ s) _ _ _ (by simp [a])) _ _ _ (by simp [a])

theorem CORE_STAT_ne_SLUICE_STAT (core : Fin 256) (sl : Fin 4) : Reg.CORE_STAT core ≠ Reg.SLUICE_STAT core sl := by
  simp only [Reg.CORE_STAT, Reg.SLUICE_STAT]
  omega

theorem DEV_CORE_MAP_ne_SLUICE_STAT (n : Nat) (core : Fin 256) (sl : Fin 4) : Reg.DEV_CORE_MAP n ≠ Reg.SLUICE_STAT core sl := by
  have hlt : Reg.SLUICE_STAT core sl < 0x400000000 := by
    rw [Reg.SLUICE_STAT, Nat.add_assoc]
    exact coreReg_lt core (by omega)
  exact (Nat.lt_of_lt_of_le hlt (DEV_CORE_MAP_ge n)).ne'

theorem State.endTransfer_core {s : State} (t : Tx) (r : RunOp) (code : Nat) : (s.endTransfer core sl t r code).core core =
    (s.core core).setRunning (sluUnit sl) (some { r with dead := true, logged := code :: r.logged }) := State.core_setCore_same _ _ _

theorem State.endTransfer_tx {s : State} (t : Tx) (r : RunOp) (code : Nat) : (s.endTransfer core sl t r code).tx core sl =
    some { t with subs := [], nextRow := 2 ^ 16, stage := 2, complete := true } := smFind_put_same _ _ _

theorem State.endTransfer_regs {s : State} (t : Tx) (r : RunOp) (code : Nat) : (s.endTransfer core sl t r code).regs = s.regs := rfl

/-- A refusal: the branches are aborted, the transfer ends and the code is logged, and the core goes to FAULT. -/
theorem exec_refuse {r : RunOp} (htx : s.tx core sl = some tx)
    (h : s.takeArrival (.core core) (s.forSluice core sl tyREFUSE) = some (x, u)) (hr : (s.core core).running (sluUnit sl) = some r) :
    ∃ aux, exec (.refuse core sl) s = .next (((((u.abortBranches core sl x.barge).endTransfer core sl tx r (payNat x.barge 0 2)).logRefusal
      core r (payNat x.barge 0 2) aux).faultCore core (payNat x.barge 0 2)).showTx core sl) := by
  have he : exec (.refuse core sl) s = execRefuse core sl s := rfl
  have ht := State.takeArrival_arrivalTaken h
  have hru : (u.core core).running (sluUnit sl) = some r := by rw [ht.core, hr]
  simp only [execRefuse, h, (ht.tx _ _).trans htx, hru] at he
  exact ⟨_, he⟩

theorem payNat_lt (b : Barge) (i n : Nat) : payNat b i n < 2 ^ (8 * n) := Nat.mod_lt _ (Nat.two_pow_pos _)

theorem refuse_faults {r : RunOp} (htx : s.tx core sl = some tx)
    (h : s.takeArrival (.core core) (s.forSluice core sl tyREFUSE) = some (x, u)) (hr : (s.core core).running (sluUnit sl) = some r)
    (ha : s.active core) : Gives (.refuse core sl) s fun t =>
      (∃ r', (t.core core).running (sluUnit sl) = some r' ∧ r'.dead = true ∧ r'.desc = r.desc) ∧
      (∃ tx', t.tx core sl = some tx' ∧ tx'.complete = true ∧ tx'.subs = []) ∧
      t.coreState core = stFault ∧ t.get (Reg.CORE_STAT core) Fld.CORE_STAT.fault_err = payNat x.barge 0 2 := by
  obtain ⟨aux, he⟩ := exec_refuse htx h hr
  refine Gives.intro he ?_
  have ht := State.takeArrival_arrivalTaken h
  have hmid : SameRegsButErr [] s (((u.abortBranches core sl x.barge).endTransfer core sl tx r (payNat x.barge 0 2)).logRefusal
      core r (payNat x.barge 0 2) aux) :=
    (((SameRegs.ofRegs ht.regs).toErr.trans (u.abortBranches_regs _)).record (State.endTransfer_regs _ _ _)).trans (State.logRefusal_regs _ _ _ _)
  generalize hv : ((u.abortBranches core sl x.barge).endTransfer core sl tx r (payNat x.barge 0 2)).logRefusal
      core r (payNat x.barge 0 2) aux = v at hmid ⊢
  have hva : v.active core := by
    rw [State.active, hmid.coreState]
    exact ha
  obtain ⟨hstate, herr, -⟩ := State.faultCore_faulted core (payNat x.barge 0 2) hva
  have hsh := State.showTx_regs (v.faultCore core (payNat x.barge 0 2)) core sl
  have hstat := hsh (Reg.CORE_STAT core) (by simpa using CORE_STAT_ne_SLUICE_STAT core sl)
  refine ⟨⟨{ r with dead := true, logged := payNat x.barge 0 2 :: r.logged }, ?_, rfl, rfl⟩,
    ⟨{ tx with subs := [], nextRow := 2 ^ 16, stage := 2, complete := true }, ?_, rfl, rfl⟩, ?_, ?_⟩
  · rw [State.core_congr (State.showTx_changes _ _ _).cores, State.faultCore_core _ hva, ← hv, State.logRefusal_core, State.endTransfer_core,
      State.abortBranches_core, ht.core]
    exact Core.running_setRunning_of_some hr _
  · have hf : (v.faultCore core (payNat x.barge 0 2)).mesh = v.mesh := (State.faultCore_changes _ _ _).mesh rfl
    rw [(State.showTx_bargesMove _ _ _).tx, State.tx, hf, ← hv, ← State.tx, (State.logRefusal_bargesMove _ _ _ _).tx, State.endTransfer_tx]
  · exact (State.coreState_of_regs (hsh _ (by simpa using DEV_CORE_MAP_ne_SLUICE_STAT _ core sl)) hstat).trans hstate
  · rw [State.get, hstat, ← State.get, herr]
    exact Nat.mod_eq_of_lt (payNat_lt x.barge 0 2)

end Replies

/-- Settles O32: what a reply that reaches a sluice does to its transfer, its operation and its core. -/
theorem transferReplies : Obligations.TransferReplies := by
  intro core sl s u x tx htx
  refine ⟨fun y h hy => grant_noted htx h hy, fun y o h hy ho => ?_, fun r h hr _ ha => refuse_faults htx h hr ha⟩
  obtain ⟨t, he, hc, hsub, hpoison⟩ := ackBarge_taken htx h hy ho
  exact ⟨t, he, hc, hsub, fun hp _ => hpoison hp⟩

end Sys2Proof.Machine
end

section
/-! SUPPORT. The writes of the ingress buffer (R248, R251, R260, R601). -/

namespace Sys2Proof.Machine

/-! ### Whole lines -/

theorem byteMask_line : byteMask 0 32 = fullLine := by decide

/-- A whole line is written as its bytes are. -/
theorem State.lineWrite_whole (s : State) (rank : Nat) {la : Nat} {bs : List Byte} (hl : la % 32 = 0) (hb : bs.length = 32) :
    s.lineWrite rank la fullLine (leNat bs) false = s.storeBytes rank la bs := by
  have hla : lineOf la = la := by simp only [lineOf]; omega
  rw [State.storeBytes, hla, hl, hb, byteMask_line, Nat.mul_zero, Nat.shiftLeft_zero]

/-- Line `i` of bytes. -/
def lineBytes (bs : List Byte) (i : Nat) : List Byte := (bs.drop (32 * i)).take 32

theorem length_lineBytes {bs : List Byte} {i : Nat} (h : 32 * i + 32 ≤ bs.length) : (lineBytes bs i).length = 32 := by
  rw [lineBytes, List.length_take, List.length_drop]
  omega

theorem getD_lineBytes (bs : List Byte) (i : Nat) {k : Nat} (hk : k < 32) : (lineBytes bs i).getD k 0 = bs.getD (32 * i + k) 0 := by
  simp [lineBytes, List.getD_eq_getElem?_getD, hk, List.getElem?_drop]

/-- The first `m` lines of bytes are written from `a` on, in the place that an ingress write has among those of a beat. -/
def State.storeLines (s : State) (a : Nat) (bs : List Byte) (m : Nat) : State :=
  (List.range m).foldl (fun t i => t.storeBytes 2 (a + 32 * i) (lineBytes bs i)) s

section StoreLines

variable {s : State} {a m : Nat} {bs : List Byte}

theorem State.storeLines_succ (s : State) (a : Nat) (bs : List Byte) (m : Nat) :
    s.storeLines a bs (m + 1) = (s.storeLines a bs m).storeBytes 2 (a + 32 * m) (lineBytes bs m) := by
  simp only [State.storeLines, List.range_succ, List.foldl_append, List.foldl_cons, List.foldl_nil]

theorem State.storeLines_changes (s : State) (a : Nat) (bs : List Byte) (m : Nat) : Changes [.mem, .ecc, .cores] s (s.storeLines a bs m) :=
  .foldl (.refl _ s) fun _ _ => State.storeBytes_changes _ _ _ _

theorem State.storeLines_defers (s : State) (a : Nat) (bs : List Byte) (m la : Nat) : (s.storeLines a bs m).defers la = s.defers la :=
  State.defers_congr (s.storeLines_changes a bs m).reaches la

theorem State.storeLines_core (s : State) (a : Nat) (bs : List Byte) (m n : Nat) :
    ∃ l, (s.storeLines a bs m).core n = { s.core n with later := l } := by
  induction m with
  | zero => exact ⟨_, rfl⟩
  | succ m ih =>
    obtain ⟨l, hl⟩ := ih
    obtain ⟨l', hl'⟩ := State.storeBytes_core (s.storeLines a bs m) 2 (a + 32 * m) (lineBytes bs m) n
    exact ⟨l', by rw [State.storeLines_succ, hl', hl]⟩

theorem lineOf_line {a : Nat} (ha : a % 32 = 0) (i : Nat) : lineOf (a + 32 * i) = a + 32 * i := by
  simp only [lineOf]
  omega

/-- Lines that take writes at once hold their bytes, and no other byte has changed. -/
theorem State.storeLines_now (h : s.wf = true) (ha : a % 32 = 0) (hm : 32 * m ≤ bs.length) (hd : ∀ i < m, s.defers (a + 32 * i) = false) :
    (∀ k < 32 * m, (s.storeLines a bs m).byte (a + k) = bs.getD k 0) ∧
    ∀ b, b < a ∨ a + 32 * m ≤ b → (s.storeLines a bs m).byte b = s.byte b := by
  induction m with
  | zero => exact ⟨fun k hk => absurd hk (by omega), fun b _ => rfl⟩
  | succ m ih =>
    obtain ⟨hin, hout⟩ := ih (by omega) fun i hi => hd i (by omega)
    have hlen : (lineBytes bs m).length = 32 := length_lineBytes (by omega)
    have hst := State.storeBytes_stores ((s.storeLines_changes a bs m).wf h) (rank := 2) (bs := lineBytes bs m) (a := a + 32 * m) rfl
      (by omega)
    obtain ⟨hnew, hold⟩ := hst.now (by rw [lineOf_line ha, State.storeLines_defers]; exact hd m (by omega))
    rw [State.storeLines_succ]
    rw [hlen] at hnew hold
    refine ⟨fun k hk => ?_, fun b hb => (hold b (by omega)).trans (hout b (by omega))⟩
    by_cases hkm : k < 32 * m
    · exact (hold _ (by omega)).trans (hin k hkm)
    · obtain ⟨j, rfl⟩ := Nat.exists_eq_add_of_le (Nat.le_of_not_lt hkm)
      rw [← Nat.add_assoc, hnew j (by omega), getD_lineBytes _ _ (by omega)]

/-- Lines that defer writes change no byte, and their writes wait in the core. -/
theorem State.storeLines_wait {n : Nat} (h : s.wf = true) (ha : a % 32 = 0) (hm : 32 * m ≤ bs.length)
    (hd : ∀ i < m, s.defers (a + 32 * i) = true) (hn : ∀ i < m, (a + 32 * i) / 0x4000000 = n) : SameBytes s (s.storeLines a bs m) ∧
    ((s.storeLines a bs m).core n).later =
      (s.core n).later ++ (List.range m).map fun i => ⟨2, a + 32 * i, fullLine, leNat (lineBytes bs i), false⟩ := by
  induction m with
  | zero => exact ⟨fun _ => rfl, (List.append_nil _).symm⟩
  | succ m ih =>
    obtain ⟨hsame, hlater⟩ := ih (by omega) (fun i hi => hd i (by omega)) fun i hi => hn i (by omega)
    have hlen : (lineBytes bs m).length = 32 := length_lineBytes (by omega)
    have hst := State.storeBytes_stores ((s.storeLines_changes a bs m).wf h) (rank := 2) (bs := lineBytes bs m) (hn m (by omega)) (by omega)
    have hdm : (s.storeLines a bs m).defers (lineOf (a + 32 * m)) = true := by
      rw [lineOf_line ha, State.storeLines_defers]
      exact hd m (by omega)
    have hmod : (a + 32 * m) % 32 = 0 := by omega
    rw [State.storeLines_succ]
    refine ⟨fun b => (hst.wait hdm b).trans (hsame b), ?_⟩
    rw [hst.core, if_pos hdm, hlen, lineOf_line ha, hmod, byteMask_line, Nat.mul_zero, Nat.shiftLeft_zero, hlater, List.range_succ, List.map_append,
      List.append_assoc]
    rfl

end StoreLines

/-! ### A barge whose lines are all free to go -/

/-- The landing slot of a barge of core `n` notes that the barge is written; with its last one it is done, or free after a fill. -/
def State.noteWritten (s : State) (n k : Nat) : State :=
  match s.land k with
  | none => s
  | some l =>
    let l := { l with written := l.written + 1 }
    if l.fill && l.written == l.total then s.freeLand k
    else if l.written = l.total then s.slotDone (.core ⟨n % 256, Nat.mod_lt _ (by decide)⟩) k l else s.setLand k l

/-- Barge `g` leaves the buffer of its core. -/
def State.leaveIngress (s : State) (n : Nat) (g : Ingress) : State :=
  (s.setCore n { s.core n with ingress := setIngress g none (s.core n).ingress }).refresh n

theorem State.slotDone_wsWrote (s : State) (a : Agent) (k : Nat) (l : Landing) :
    (s.slotDone a k l).mesh.wsWrote = s.mesh.wsWrote := by
  unfold State.slotDone
  refine (State.reply_bargesMove _ _ _ _ _ _ _ _).wsWrote.trans ?_
  split
  next n b _ _ =>
    have ha : (s.addTo (Reg.BERTH_W1 n b) Fld.BERTH_W1.done_count 1).mesh.wsWrote = s.mesh.wsWrote :=
      congrArg Mesh.wsWrote ((s.addTo_changes _ _ _).mesh rfl)
    exact ha
  next => rfl

/-- What the landing slot notes leaves the cores, the memories and the weight stores' beats. -/
theorem State.noteWritten_rest (s : State) (n k m : Nat) : (s.noteWritten n k).core m = s.core m ∧
    (s.noteWritten n k).mesh.wsWrote = s.mesh.wsWrote ∧ SameBytes s (s.noteWritten n k) := by
  unfold State.noteWritten
  split
  · exact ⟨rfl, rfl, fun _ => rfl⟩
  · dsimp only
    split
    · exact ⟨rfl, rfl, fun _ => rfl⟩
    · split
      · have hd := s.slotDone_changes
        exact ⟨State.core_congr (hd _ _ _).cores m, s.slotDone_wsWrote _ _ _, (hd _ _ _).sameBytes rfl rfl⟩
      · exact ⟨rfl, rfl, fun _ => rfl⟩

theorem State.leaveIngress_rest (s : State) (n : Nat) (g : Ingress) :
    (s.leaveIngress n g).core n = { s.core n with ingress := setIngress g none (s.core n).ingress } ∧
    (s.leaveIngress n g).mesh.wsWrote = s.mesh.wsWrote ∧ SameBytes s (s.leaveIngress n g) := by
  have hr := State.refresh_changes (s.setCore n { s.core n with ingress := setIngress g none (s.core n).ingress }) n
  refine ⟨?_, congrArg Mesh.wsWrote (hr.mesh rfl), fun a => State.byte_congr hr.mem hr.ecc a⟩
  rw [State.leaveIngress, State.core_refresh, State.core_setCore_same]

/-- Where no line is poison, none is marked so. -/
theorem getD_poison {l : List Bool} (h : l.any id = false) (i : Nat) : l.getD i false = false := by
  by_cases hi : i < l.length
  · rw [List.getD_eq_getElem _ _ hi]
    simpa using List.any_eq_false.mp h _ (List.getElem_mem hi)
  · rw [List.getD_eq_default _ _ (Nat.le_of_not_lt hi)]

/-- The lines that barge `g` still has to write are all its lines, and none is poison. -/
structure Whole (core : Fin 256) (g : Ingress) : Prop where
  len    : g.bytes.length = 32 ∨ g.bytes.length = 64
  addr   : g.addr % 32 = 0
  poison : g.poison.any id = false
  left   : g.left = linesFrom g.addr g.bytes.length
  core   : ∀ la ∈ g.left, la / 0x4000000 = core

namespace Whole

variable {core : Fin 256} {g : Ingress}

/-- The number of its lines. -/
theorem lines (h : Whole core g) : 32 * (g.bytes.length / 32) = g.bytes.length := by
  have := h.len
  omega

theorem left_eq (h : Whole core g) : g.left = (List.range (g.bytes.length / 32)).map fun i => g.addr + 32 * i := by
  have hc : ceilDiv g.bytes.length 32 = g.bytes.length / 32 := by
    have := h.lines
    rw [ceilDiv, if_neg (by decide)]
    omega
  rw [h.left, linesFrom, hc]

theorem mem_left (h : Whole core g) {i : Nat} (hi : i < g.bytes.length / 32) : g.addr + 32 * i ∈ g.left := by
  rw [h.left_eq]
  exact List.mem_map.mpr ⟨i, List.mem_range.mpr hi, rfl⟩

/-- Its lines are written, and it leaves the buffer. -/
theorem writeIngress (h : Whole core g) (s : State) (n : Nat) :
    s.writeIngress n g g.left =
      ((s.storeLines g.addr g.bytes (g.bytes.length / 32)).leaveIngress n g).noteWritten n g.slot := by
  have hfold : g.left.foldl (fun (t : State) la =>
      t.lineWrite 2 la fullLine (leNat ((g.bytes.drop (32 * ((la - g.addr) / 32))).take 32)) (g.poison.getD ((la - g.addr) / 32) false)) s =
      s.storeLines g.addr g.bytes (g.bytes.length / 32) := by
    rw [h.left_eq, List.foldl_map, State.storeLines]
    refine List.foldl_ext _ _ _ fun t i hi => ?_
    have hlen := h.lines
    have hi := List.mem_range.mp hi
    rw [show (g.addr + 32 * i - g.addr) / 32 = i by omega, getD_poison h.poison]
    exact t.lineWrite_whole 2 (by have := h.addr; omega) (length_lineBytes (by omega))
  have hleft : (g.left.filter fun x => !g.left.contains x) = [] := List.filter_eq_nil_iff.mpr fun x hx => by simp [hx]
  simp only [State.writeIngress, hfold, hleft, List.isEmpty_nil, Bool.not_true, Bool.false_eq_true, if_false]
  rfl

end Whole

/-- Barge `g` has been written to its place and has left the buffer of its core; what the beat defers waits there. -/
def IngressWritten (core : Fin 256) (g : Ingress) (s t : State) : Prop :=
  (t.core core).ingress = setIngress g none (s.core core).ingress ∧
  ((∀ la ∈ g.left, s.defers la = false) →
    (∀ k < g.bytes.length, t.byte (g.addr + k) = g.bytes.getD k 0) ∧
    ∀ b, b < g.addr ∨ g.addr + g.bytes.length ≤ b → t.byte b = s.byte b) ∧
  ((∀ la ∈ g.left, s.defers la = true) → SameBytes s t ∧
    (t.core core).later = (s.core core).later ++ g.left.map fun la =>
      ⟨2, la, fullLine, leNat ((g.bytes.drop (32 * ((la - g.addr) / 32))).take 32), false⟩)

section Written

variable {core : Fin 256} {g : Ingress} {s : State}

/-- What is written rests on the memories, the reaches, and the core's buffer and waiting writes. -/
theorem IngressWritten.from {u t : State} (h : IngressWritten core g u t) (hm : u.mem = s.mem) (he : u.ecc = s.ecc) (hr : u.reaches = s.reaches)
    (hi : (u.core core).ingress = (s.core core).ingress) (hl : (u.core core).later = (s.core core).later) : IngressWritten core g s t := by
  have hd : u.defers = s.defers := funext (State.defers_congr hr)
  have hb : u.byte = s.byte := funext (State.byte_congr hm he)
  simpa only [IngressWritten, SameBytes, hi, hl, hd, hb] using h

theorem State.writeIngress_written (h : s.wf = true) (hg : Whole core g) : IngressWritten core g s (s.writeIngress core g g.left) ∧
    ((s.writeIngress core g g.left).core core).portBytes = (s.core core).portBytes ∧
    (s.writeIngress core g g.left).mesh.wsWrote = s.mesh.wsWrote := by
  rw [hg.writeIngress]
  generalize hm : g.bytes.length / 32 = m
  have hlen : 32 * m = g.bytes.length := hm ▸ hg.lines
  have hmem {i : Nat} (hi : i < m) : g.addr + 32 * i ∈ g.left := hg.mem_left (hm ▸ hi)
  obtain ⟨hcl, hwl, hbl⟩ := (s.storeLines g.addr g.bytes m).leaveIngress_rest core g
  obtain ⟨hcn, hwn, hbn⟩ := ((s.storeLines g.addr g.bytes m).leaveIngress core g).noteWritten_rest core g.slot core
  have hcore := hcn.trans hcl
  have hws := hwn.trans hwl
  have hbytes := fun b => (hbn b).trans (hbl b)
  obtain ⟨l, hl⟩ := s.storeLines_core g.addr g.bytes m core
  refine ⟨⟨by rw [hcore, hl], fun hd => ?_, fun hd => ?_⟩, by rw [hcore, hl],
    hws.trans (congrArg Mesh.wsWrote ((s.storeLines_changes _ _ _).mesh rfl))⟩
  · obtain ⟨hin, hout⟩ := State.storeLines_now h hg.addr hlen.le fun i hi => hd _ (hmem hi)
    rw [hlen] at hin hout
    exact ⟨fun k hk => (hbytes _).trans (hin k hk), fun b hb => (hbytes b).trans (hout b hb)⟩
  · obtain ⟨hsame, hlater⟩ := State.storeLines_wait h hg.addr hlen.le (fun i hi => hd _ (hmem hi)) fun i hi => hg.core _ (hmem hi)
    refine ⟨fun b => (hbytes b).trans (hsame b), ?_⟩
    rw [hcore, hlater, hg.left_eq, hm, List.map_map]
    refine congrArg ((s.core core).later ++ ·) (List.map_congr_left fun i _ => ?_)
    show _ = BeatWrite.mk 2 (g.addr + 32 * i) fullLine (leNat ((g.bytes.drop (32 * ((g.addr + 32 * i - g.addr) / 32))).take 32)) false
    rw [show (g.addr + 32 * i - g.addr) / 32 = i by omega, lineBytes]

/-- A barge of the basin (R248). -/
theorem ingressWrite_basin (h : s.wf = true) (hg : Whole core g) (hr : s.meshRuns core = true)
    (hb : ((s.core core).ingress.find? fun x => memKind x.addr == .basin && !(s.linesNow core x).isEmpty) = some g)
    (hl : s.linesNow core g = g.left) : Gives (.ingressWrite core) s (IngressWritten core g s) := by
  have he : exec (.ingressWrite core) s = execIngressWrite core s := rfl
  refine Gives.intro (t := s.writeIngress core g g.left) ?_ (State.writeIngress_written h hg).1
  simp only [he, execIngressWrite, hr, Bool.not_true, Bool.false_eq_true, if_false, hb, hl]

/-- A barge of the operand cache (R601). -/
theorem ingressWrite_ocache (h : s.wf = true) (hg : Whole core g) (hr : s.meshRuns core = true)
    (hb : ((s.core core).ingress.find? fun x => memKind x.addr == .basin && !(s.linesNow core x).isEmpty) = none)
    (hf : (s.core core).firstFor .ocache = some g) (hp : (s.core core).portBytes + g.bytes.length ≤ 256) :
    Gives (.ingressWrite core) s fun t =>
      IngressWritten core g s t ∧ (t.core core).portBytes = (s.core core).portBytes + g.bytes.length := by
  have he : exec (.ingressWrite core) s = execIngressWrite core s := rfl
  have hu := State.core_setCore_same s core { s.core core with portBytes := (s.core core).portBytes + g.bytes.length }
  generalize hv : s.setCore core { s.core core with portBytes := (s.core core).portBytes + g.bytes.length } = u at hu
  have hc : Changes [.cores] s u := hv ▸ State.setCore_changes _ _ _
  obtain ⟨hw, hport, -⟩ := State.writeIngress_written (hc.wf h) hg
  refine Gives.intro (t := u.writeIngress core g g.left) ?_
    ⟨hw.from hc.mem hc.ecc hc.reaches (by rw [hu]) (by rw [hu]), hport.trans (by rw [hu])⟩
  simp only [he, execIngressWrite, hr, Bool.not_true, Bool.false_eq_true, if_false, hb, hf, hp, true_or, if_true, hv]

/-- A unit of the weight store (R260). -/
theorem weightStoreWrite_unit (h : s.wf = true) (hg : Whole core g) (hr : s.inBeat core = true) (hh : s.held = false)
    (hw : smFind s.mesh.wsWrote core ≠ some (s.beatOf core)) (hf : (s.core core).firstFor .wstore = some g)
    (hu : ∀ la ∈ g.left, la / 64 = g.addr / 64) : Gives (.weightStoreWrite core) s fun t =>
      IngressWritten core g s t ∧ smFind t.mesh.wsWrote core = some (s.beatOf core) := by
  have he : exec (.weightStoreWrite core) s = execWeightStoreWrite core s := rfl
  have hhead : g.left.headD 0 / 64 = g.addr / 64 := by
    cases hl : g.left with
    | nil => exact absurd (hg.mem_left (i := 0) (by have := hg.len; omega)) (by simp [hl])
    | cons la rest => exact hu la (by simp [hl])
  have hunit : (g.left.filter fun la => la / 64 == g.left.headD 0 / 64) = g.left :=
    List.filter_eq_self.mpr fun la hla => by rw [hhead, hu la hla, beq_self_eq_true]
  generalize hv : ({ s with mesh := { s.mesh with wsWrote := smPut s.mesh.wsWrote core (s.beatOf core) } } : State) = u
  obtain ⟨hwr, -, hws⟩ := State.writeIngress_written (s := u) (hv ▸ h) hg
  refine Gives.intro (t := u.writeIngress core g g.left) ?_ ⟨?_, ?_⟩
  · simp only [he, execWeightStoreWrite, hr, hh, hw, Bool.not_true, Bool.false_eq_true, false_or, Bool.false_and, Bool.not_false, false_and,
      if_false, hf, hunit, hv]
  · subst hv
    exact hwr.from rfl rfl rfl rfl rfl
  · rw [hws, ← hv]
    exact smFind_put_same _ _ _

end Written

/-- Settles O33: the lines of a barge that are all free to go are stored, at once or at the end of the beat, and the barge leaves. -/
theorem ingressWrites : Obligations.IngressWrites := by
  intro core g s h hlen haddr hp hl hc
  have hg : Whole core g := ⟨hlen, haddr, hp, hl, hc⟩
  exact ⟨fun hr hb hn => ingressWrite_basin h hg hr hb hn, fun hr hb hf hp => ingressWrite_ocache h hg hr hb hf hp,
    fun hr hh hw hf hu => weightStoreWrite_unit h hg hr hh hw hf hu⟩

end Sys2Proof.Machine
end

section
/-! SUPPORT. The requests of the holds (R264): what the completion of one leaves in the queues and in the memories. -/

namespace Sys2Proof.Machine

/-! ### The queues of the pseudo-channels -/

/-- Every pseudo-channel has the same requests waiting. -/
def QueuesStay (s t : State) : Prop := ∀ k, (t.pc k).queue = (s.pc k).queue

namespace QueuesStay

variable {s t u : State}

theorem refl (s : State) : QueuesStay s s := fun _ => rfl

theorem trans (h : QueuesStay s t) (k : QueuesStay t u) : QueuesStay s u := fun j => (k j).trans (h j)

theorem ofHolds (h : t.holds = s.holds) : QueuesStay s t := fun k => by rw [State.pc, State.pc, h]

theorem foldl {α : Type} {f : State → α → State} (h : ∀ v a, QueuesStay v (f v a)) (l : List α) (s : State) : QueuesStay s (l.foldl f s) := by
  induction l generalizing s with
  | nil => exact refl s
  | cons a l ih => exact (h s a).trans (ih _)

end QueuesStay

@[simp] theorem State.pc_setPc_same (s : State) (k : Nat) (x : HoldPc) : (s.setPc k x).pc k = x := smGet_put_same _ _ _ _

theorem State.pc_setPc_ne (s : State) {k j : Nat} (x : HoldPc) (h : j ≠ k) : (s.setPc k x).pc j = s.pc j := smGet_put_ne _ _ _ h

theorem State.pc_congr {s t : State} (h : t.holds = s.holds) (k : Nat) : t.pc k = s.pc k := by rw [State.pc, State.pc, h]

/-- Corrected lines of a read join those to be rewritten. -/
theorem State.noteRewrite_pc (s : State) (k a len : Nat) : (s.noteRewrite k a len).pc k = { s.pc k with
    rewrite := (s.pc k).rewrite ++ (((s.badLines a len).filter fun x => !x.2).map (·.1)).filter fun l => !(s.pc k).rewrite.contains l } :=
  State.pc_setPc_same _ _ _

theorem State.noteRewrite_queues (s : State) (k a len : Nat) : QueuesStay s (s.noteRewrite k a len) := by
  intro j
  by_cases h : j = k
  · subst h
    rw [State.noteRewrite_pc]
  · exact congrArg HoldPc.queue (State.pc_setPc_ne _ _ h)

theorem State.holdRead_queues (s : State) (k a len : Nat) (logged : List Nat) : QueuesStay s (s.holdRead k a len logged).1 :=
  (s.noteRewrite_queues k a len).trans (.ofHolds ((State.noteLines_changes _ _ _ _ _).holds rfl))

theorem State.readBack_queues (s : State) (id j a len k : Nat) : QueuesStay s (s.readBack id j a len k) := by
  unfold State.readBack
  refine .foldl (fun v ag => ?_) _ _
  dsimp only
  split
  · exact .refl v
  · exact ((v.holdRead_queues _ _ _ _).trans (.ofHolds ((State.noteLogged_changes _ _ _ _ _).holds rfl))).trans (.ofHolds rfl)

theorem State.fillBack_queues (s : State) (k n j a len : Nat) : QueuesStay s (s.fillBack k n j a len) := by
  unfold State.fillBack
  split
  · exact .refl s
  · dsimp only
    have hr := s.holdRead_queues k a len s.weights.fillLogged
    split
    · exact hr.trans (.ofHolds rfl)
    · exact hr.trans (.ofHolds rfl)

/-- What a completed request does for whom it answers, but for the data of a remote READ, leaves the queues. -/
theorem State.holdBack_queues {s : State} (k : Nat) {r : HoldReqItem} (h : ∀ n id j, r.for_ ≠ .fetch n id j) :
    QueuesStay s (s.holdBack k r) := by
  unfold State.holdBack
  split
  next => exact .ofHolds ((State.writeBack_changes _ _).holds rfl)
  next => exact s.readBack_queues _ _ _ _ _
  next => exact s.fillBack_queues _ _ _ _ _
  next n id j hf => exact absurd hf (h n id j)
  next =>
    split
    · exact .ofHolds (((State.answer_changes _ _ _ _).holds rfl).trans ((State.wordWritten_changes _ _).holds rfl))
    · exact (s.holdRead_queues _ _ _ _).trans (.ofHolds ((State.answer_changes _ _ _ _).holds rfl))
  next => exact .refl s

/-! ### The memories -/

/-- What a completed request does for whom it answers changes no byte, but for the MAC of a queue pair that a word of the register path
makes ready. -/
theorem State.holdBack_sameBytes {s : State} (k : Nat) {r : HoldReqItem} (h : ∀ n id j, r.for_ ≠ .fetch n id j)
    (hw : r.write = none ∨ ∀ q, r.for_ ≠ .path q) : SameBytes s (s.holdBack k r) := by
  unfold State.holdBack
  split
  next => exact (State.writeBack_changes _ _).sameBytes rfl rfl
  next => exact (State.readBack_changes _ _ _ _ _ _).sameBytes rfl rfl
  next => exact (State.fillBack_changes _ _ _ _ _ _).sameBytes rfl rfl
  next n id j hf => exact absurd hf (h n id j)
  next q hf =>
    have hn : r.write = none := hw.resolve_right fun hp => hp q hf
    rw [hn, if_neg (by decide)]
    exact fun b => ((State.answer_changes _ _ _ _).sameBytes rfl rfl b).trans ((State.holdRead_changes _ _ _ _ _).sameBytes rfl rfl b)
  next => exact fun _ => rfl

/-- Whole lines are written, poison or not. -/
theorem State.writeLines_bytes {s : State} (h : s.wf = true) {a : Nat} {bs : List Byte} (ha : a % 32 = 0) (hb : bs.length % 32 = 0)
    (bad : List Bool) : (∀ i < bs.length, (s.writeLines a bs bad).byte (a + i) = bs.getD i 0) ∧
      ∀ b, b < a ∨ a + bs.length ≤ b → (s.writeLines a bs bad).byte b = s.byte b := by
  have key (m : Nat) (hm : 32 * m ≤ bs.length) :
      let t := (List.range m).foldl (fun (t : State) i => t.writeMem (a + 32 * i) (lineBytes bs i) (bad.getD i false)) s
      t.wf = true ∧ (∀ i < 32 * m, t.byte (a + i) = bs.getD i 0) ∧ ∀ b, b < a ∨ a + 32 * m ≤ b → t.byte b = s.byte b := by
    induction m with
    | zero => exact ⟨h, fun k hk => absurd hk (by omega), fun b _ => rfl⟩
    | succ m ih =>
      obtain ⟨hwf, hin, hout⟩ := ih (by omega)
      rw [List.range_succ, List.foldl_append, List.foldl_cons, List.foldl_nil]
      generalize (List.range m).foldl (fun (t : State) i => t.writeMem (a + 32 * i) (lineBytes bs i) (bad.getD i false)) s = t
        at hwf hin hout
      have hlen : (lineBytes bs m).length = 32 := length_lineBytes (by omega)
      have hold {b : Nat} (hbm : b < a + 32 * m ∨ a + 32 * m + 32 ≤ b) :
          (t.writeMem (a + 32 * m) (lineBytes bs m) (bad.getD m false)).byte b = t.byte b := by
        refine t.byte_writeMem_out _ _ _ ?_
        rw [hlen]
        simp only [lineOf]
        omega
      refine ⟨State.writeMem_wf hwf _ _ _, fun i hi => ?_, fun b hbm => (hold (by omega)).trans (hout b (by omega))⟩
      by_cases hkm : i < 32 * m
      · exact (hold (by omega)).trans (hin i hkm)
      · obtain ⟨j, rfl⟩ := Nat.exists_eq_add_of_le (Nat.le_of_not_lt hkm)
        rw [← Nat.add_assoc, State.byte_writeMem_line hwf (by omega) hlen _ (by omega), getD_lineBytes _ _ (by omega)]
  have hlines : 32 * ceilDiv bs.length 32 = bs.length := by
    rw [ceilDiv, if_neg (by decide)]
    omega
  obtain ⟨-, hin, hout⟩ := key (ceilDiv bs.length 32) hlines.le
  rw [hlines] at hin hout
  exact ⟨hin, hout⟩

/-! ### HOLD_REQUEST_COMPLETE -/

section Request

variable {h : Fin 2} {pc : Fin 64} {s : State} {r : HoldReqItem} {rest : List HoldReqItem}

/-- A free pseudo-channel makes the write of its oldest request, and does what the request is for. -/
theorem exec_holdRequestComplete (hq : (s.pc (h.val * 64 + pc.val)).queue = r :: rest) (hf : s.pcFree h (h.val * 64 + pc.val) = true) :
    exec (.holdRequestComplete h pc) s = .next (((s.setPc (h.val * 64 + pc.val) { s.pc (h.val * 64 + pc.val) with queue := rest }).writePieces
      (r.write.getD [])).holdBack (h.val * 64 + pc.val) r) := by
  have he : exec (.holdRequestComplete h pc) s = execHoldRequestComplete h pc s := rfl
  simp only [he, execHoldRequestComplete, State.holdComplete, hf, if_true, State.holdServe, hq]

theorem holdRequestComplete_serves (hq : (s.pc (h.val * 64 + pc.val)).queue = r :: rest) (hf : s.pcFree h (h.val * 64 + pc.val) = true)
    (hr : ∀ n id j, r.for_ ≠ .fetch n id j) : Gives (.holdRequestComplete h pc) s fun t =>
      (t.pc (h.val * 64 + pc.val)).queue = rest ∧ (r.write = none → SameBytes s t) ∧
      (∀ a bs bad, r.write = some [(a, bs, bad)] → s.wf = true → a % 32 = 0 → bs.length % 32 = 0 → bad.any id = false →
        (∀ q, r.for_ ≠ .path q) →
        (∀ i < bs.length, t.byte (a + i) = bs.getD i 0) ∧ ∀ b, b < a ∨ a + bs.length ≤ b → t.byte b = s.byte b) := by
  refine Gives.intro (exec_holdRequestComplete hq hf) ⟨?_, fun hw => ?_, fun a bs bad hw hwf ha hb _ hp => ?_⟩
  · rw [State.holdBack_queues _ hr, State.pc_congr ((State.writePieces_changes _ _).holds rfl), State.pc_setPc_same]
  · rw [hw]
    exact State.holdBack_sameBytes _ hr (.inl hw)
  · have hx := State.holdBack_sameBytes (h.val * 64 + pc.val) (s := ((s.setPc (h.val * 64 + pc.val)
      { s.pc (h.val * 64 + pc.val) with queue := rest }).writePieces (r.write.getD []))) hr (.inr hp)
    generalize hu : s.setPc (h.val * 64 + pc.val) { s.pc (h.val * 64 + pc.val) with queue := rest } = u at hx
    have hpieces : u.writePieces (r.write.getD []) = u.writeLines a bs bad := by
      rw [hw]
      exact if_pos ⟨ha, hb⟩
    rw [hpieces] at hx ⊢
    obtain ⟨hin, hout⟩ := State.writeLines_bytes (s := u) (hu ▸ hwf) ha hb bad
    exact ⟨fun i hi => (hx _).trans (hin i hi), fun b hbm => (hx b).trans ((hout b hbm).trans (hu ▸ rfl))⟩

end Request

end Sys2Proof.Machine
end

section
/-! SUPPORT. The refreshes of the holds (R266, R267), the scrub and the rewrite of corrected lines (R268, R277, R279). -/

namespace Sys2Proof.Machine

/-! ### Refresh (R267) -/

theorem State.setPc_regs (s : State) (k : Nat) (x : HoldPc) : (s.setPc k x).regs = s.regs := rfl

theorem State.refreshNow_pc (s : State) (h k : Nat) : (s.refreshNow h k).pc k =
    { s.pc k with busyTill := s.now + 1000 * s.get (Reg.HOLD_REFRESH h) Fld.HOLD_REFRESH.trfc_ns } := by
  have ht := s.get_addTo_other (Reg.HOLD_REFRESH h) Fld.HOLD_REFRESH.refreshes Fld.HOLD_REFRESH.trfc_ns 1 (by decide)
  simp only [State.refreshNow, State.pc_setPc_same, ht, State.addTo_now, State.pc_congr (s.addTo_holds _ _ _)]

theorem State.refreshNow_reg (s : State) (h k : Nat) :
    (s.refreshNow h k).regs = (s.addTo (Reg.HOLD_REFRESH h) Fld.HOLD_REFRESH.refreshes 1).regs := by
  unfold State.refreshNow State.setPc
  rfl

/-- A refresh is counted. -/
theorem State.refreshNow_counts {s : State} {h : Nat} (k : Nat) (hw : s.written (Reg.HOLD_REFRESH h) Fld.HOLD_REFRESH.refreshes = false) :
    (s.refreshNow h k).get (Reg.HOLD_REFRESH h) Fld.HOLD_REFRESH.refreshes =
      (s.get (Reg.HOLD_REFRESH h) Fld.HOLD_REFRESH.refreshes + 1) % 2 ^ 32 := by
  rw [State.get_congr (s.refreshNow_reg h k), State.addTo, State.hwPut, if_neg (by rw [hw]; decide)]
  exact State.get_put_same _ _ _ _ (by decide)

theorem State.refreshNow_regs (s : State) (h k : Nat) : SameRegs [Reg.HOLD_REFRESH h] s (s.refreshNow h k) :=
  (State.hwPut_step (.refl _ s) _ _ _ (by simp)).trans (.ofRegs (s.refreshNow_reg h k))

theorem HOLD_REFRESH_lt (h : Fin 2) : Reg.HOLD_REFRESH h < blockBase 8 := by
  revert h
  decide

theorem HOLD_REFRESH_not_clock (s : State) (h : Fin 2) : Reg.HOLD_REFRESH h ∉ clockRegs s := by
  have ne {a : Nat} (ha : blockBase 8 ≤ a) : Reg.HOLD_REFRESH h ≠ a := (Nat.lt_of_lt_of_le (HOLD_REFRESH_lt h) ha).ne
  have hidle : blockBase 8 ≤ Reg.IDLE_NS s.idle.state := by
    rw [Reg.IDLE_NS, Nat.add_assoc]
    exact Nat.le_add_right_of_le (by decide)
  simp only [clockRegs, List.mem_cons, List.not_mem_nil, or_false, not_or]
  exact ⟨(by decide : ∀ h : Fin 2, Reg.HOLD_REFRESH h ≠ Reg.FABR_TIME) h, (by decide : ∀ h : Fin 2, Reg.HOLD_REFRESH h ≠ Reg.PACE_HOLD_NS) h,
    ne hidle⟩

/-- The time of a refresh has come, and the next one is scheduled. -/
def State.refreshAt (s : State) (h : Fin 2) (pc : Fin 64) : State :=
  let k := h.val * 64 + pc.val
  (s.advanceTo (s.refreshDue h pc)).setPc k { s.pc k with nextRef := some (s.refreshDue h pc + s.trefi h) }

/-- A refresh is put off. -/
def State.postpone (s : State) (h k due : Nat) : State :=
  (s.setPc k { s.pc k with postponed := (s.pc k).postponed + 1, postAt := due }).put (Reg.HOLD_REFRESH h) Fld.HOLD_REFRESH.postponed_max
    (max (s.get (Reg.HOLD_REFRESH h) Fld.HOLD_REFRESH.postponed_max) ((s.pc k).postponed + 1))

section Refresh

variable {h : Fin 2} {pc : Fin 64} {s : State}

theorem State.advanceTo_get_refresh (s : State) (h : Fin 2) (f : BitField) (t : Nat) :
    (s.advanceTo t).get (Reg.HOLD_REFRESH h) f = s.get (Reg.HOLD_REFRESH h) f :=
  congrArg f.get (s.advanceTo_regs t _ (HOLD_REFRESH_not_clock s h))

theorem State.refreshAt_pc (s : State) (h : Fin 2) (pc : Fin 64) : (s.refreshAt h pc).pc (h.val * 64 + pc.val) =
    { s.pc (h.val * 64 + pc.val) with nextRef := some (s.refreshDue h pc + s.trefi h) } := State.pc_setPc_same _ _ _

theorem State.refreshAt_now (s : State) (h : Fin 2) (pc : Fin 64) : (s.refreshAt h pc).now = max s.now (s.refreshDue h pc) :=
  s.advanceTo_now _

theorem State.refreshAt_get (s : State) (h : Fin 2) (pc : Fin 64) (f : BitField) :
    (s.refreshAt h pc).get (Reg.HOLD_REFRESH h) f = s.get (Reg.HOLD_REFRESH h) f := s.advanceTo_get_refresh h f _

theorem State.refreshAt_regs (s : State) (h : Fin 2) (pc : Fin 64) : SameRegs (clockRegs s) s (s.refreshAt h pc) :=
  (s.advanceTo_regs _).trans (.ofRegs rfl)

theorem State.refreshAt_marks (s : State) (h : Fin 2) (pc : Fin 64) : (s.refreshAt h pc).marks = s.marks :=
  (s.advanceTo_elapses _).marks

theorem exec_holdRefresh (ho : s.holdOk h = true) : exec (.holdRefresh h pc) s =
    .next (if (s.pc (h.val * 64 + pc.val)).queue ≠ [] ∧ (s.pc (h.val * 64 + pc.val)).postponed < 8
      then (s.refreshAt h pc).postpone h (h.val * 64 + pc.val) (s.refreshDue h pc)
      else (s.refreshAt h pc).refreshNow h (h.val * 64 + pc.val)) := by
  have he : exec (.holdRefresh h pc) s = execHoldRefresh h pc s := rfl
  have hpc := State.pc_congr ((s.advanceTo_changes (s.refreshDue h pc)).holds rfl) (h.val * 64 + pc.val)
  have ht : (s.advanceTo (s.refreshDue h pc)).trefi h = s.trefi h := by
    rw [State.trefi, State.advanceTo_get_refresh, State.trefi]
  have hat : (s.advanceTo (s.refreshDue h pc)).setPc (h.val * 64 + pc.val) { s.pc (h.val * 64 + pc.val) with
      nextRef := some (s.refreshDue h pc + s.trefi h) } = s.refreshAt h pc := rfl
  rw [he]
  simp only [execHoldRefresh, ho, Bool.not_true, Bool.false_eq_true, if_false, hpc, ht, hat, Bool.not_eq_true', List.isEmpty_eq_false_iff]
  split
  · rw [State.postpone, State.refreshAt_pc]
    rfl
  · rfl

theorem holdRefresh_due (ho : s.holdOk h = true) : Gives (.holdRefresh h pc) s fun t =>
    t.now = max s.now (s.refreshDue h pc) ∧ (t.pc (h.val * 64 + pc.val)).nextRef = some (s.refreshDue h pc + s.trefi h) ∧
    SameRegs (Reg.HOLD_REFRESH h :: clockRegs s) s t ∧
    ((s.pc (h.val * 64 + pc.val)).queue ≠ [] → (s.pc (h.val * 64 + pc.val)).postponed < 8 →
      (t.pc (h.val * 64 + pc.val)).postponed = (s.pc (h.val * 64 + pc.val)).postponed + 1 ∧
      (t.pc (h.val * 64 + pc.val)).busyTill = (s.pc (h.val * 64 + pc.val)).busyTill) ∧
    ((s.pc (h.val * 64 + pc.val)).queue = [] ∨ 8 ≤ (s.pc (h.val * 64 + pc.val)).postponed →
      (t.pc (h.val * 64 + pc.val)).postponed = (s.pc (h.val * 64 + pc.val)).postponed ∧
      (t.pc (h.val * 64 + pc.val)).busyTill = t.now + 1000 * s.get (Reg.HOLD_REFRESH h) Fld.HOLD_REFRESH.trfc_ns ∧
      (smFind s.marks (Reg.HOLD_REFRESH h) = none → t.get (Reg.HOLD_REFRESH h) Fld.HOLD_REFRESH.refreshes =
        (s.get (Reg.HOLD_REFRESH h) Fld.HOLD_REFRESH.refreshes + 1) % 2 ^ 32)) := by
  have hregs := (s.refreshAt_regs h pc).widen fun _ ha => List.mem_cons_of_mem (Reg.HOLD_REFRESH h) ha
  have hpc := s.refreshAt_pc h pc
  refine Gives.intro (exec_holdRefresh ho) ?_
  split
  next hc =>
    have hp : ((s.refreshAt h pc).postpone h (h.val * 64 + pc.val) (s.refreshDue h pc)).pc (h.val * 64 + pc.val) =
        { (s.refreshAt h pc).pc (h.val * 64 + pc.val) with
          postponed := ((s.refreshAt h pc).pc (h.val * 64 + pc.val)).postponed + 1, postAt := s.refreshDue h pc } := State.pc_setPc_same _ _ _
    rw [hp, hpc]
    refine ⟨s.refreshAt_now h pc, rfl, State.put_step (hregs.trans (.ofRegs rfl)) _ _ _ List.mem_cons_self, fun _ _ => ⟨rfl, rfl⟩, fun hn => ?_⟩
    exact absurd hn (not_or.mpr ⟨hc.1, Nat.not_le_of_lt hc.2⟩)
  next hc =>
    have hnow : ((s.refreshAt h pc).refreshNow h (h.val * 64 + pc.val)).now = (s.refreshAt h pc).now := State.addTo_now _ _ _ _
    rw [State.refreshNow_pc, hpc, hnow, State.refreshAt_get]
    refine ⟨s.refreshAt_now h pc, rfl, hregs.trans ((State.refreshNow_regs _ _ _).widen (by simp)), fun h1 h2 => absurd ⟨h1, h2⟩ hc,
      fun _ => ⟨rfl, rfl, fun hm => ?_⟩⟩
    rw [State.refreshNow_counts _ (State.written_unmarked (by rw [State.refreshAt_marks, hm]) _), State.refreshAt_get]

/-- A refresh that was put off is made up. -/
theorem refreshMakeup_makes (hp : (s.pc (h.val * 64 + pc.val)).postponed ≠ 0) (hq : (s.pc (h.val * 64 + pc.val)).queue = [])
    (hf : s.pcFree h (h.val * 64 + pc.val) = true) (ha : (s.pc (h.val * 64 + pc.val)).postAt + s.trefi h ≤ s.now)
    (hm : s.makingUp h = false) : Gives (.refreshMakeup h pc) s fun t =>
      (t.pc (h.val * 64 + pc.val)).postponed = (s.pc (h.val * 64 + pc.val)).postponed - 1 ∧
      (t.pc (h.val * 64 + pc.val)).busyTill = s.now + 1000 * s.get (Reg.HOLD_REFRESH h) Fld.HOLD_REFRESH.trfc_ns ∧
      (t.pc (h.val * 64 + pc.val)).makeup = (t.pc (h.val * 64 + pc.val)).busyTill ∧ SameRegs [Reg.HOLD_REFRESH h] s t ∧
      (s.written (Reg.HOLD_REFRESH h) Fld.HOLD_REFRESH.refreshes = false → t.get (Reg.HOLD_REFRESH h) Fld.HOLD_REFRESH.refreshes =
        (s.get (Reg.HOLD_REFRESH h) Fld.HOLD_REFRESH.refreshes + 1) % 2 ^ 32) := by
  have he : exec (.refreshMakeup h pc) s = execRefreshMakeup h pc s := rfl
  generalize hk : h.val * 64 + pc.val = k at hp hq hf ha ⊢
  generalize hu : s.setPc k { s.pc k with postponed := (s.pc k).postponed - 1 } = u
  have hupc : u.pc k = { s.pc k with postponed := (s.pc k).postponed - 1 } := by rw [← hu, State.pc_setPc_same]
  have hnow : u.now = s.now := by rw [← hu]; rfl
  have hget (f : BitField) : u.get (Reg.HOLD_REFRESH h) f = s.get (Reg.HOLD_REFRESH h) f := by rw [← hu]; rfl
  have hregs : SameRegs [Reg.HOLD_REFRESH h] s u := .ofRegs (by rw [← hu]; rfl)
  refine Gives.intro (t := (u.refreshNow h k).setPc k { (u.refreshNow h k).pc k with makeup := ((u.refreshNow h k).pc k).busyTill }) ?_ ?_
  · rw [he, ← hu]
    subst hk
    exact if_neg (by simp [hp, hq, hf, hm, Nat.not_lt_of_le ha])
  · rw [State.pc_setPc_same, State.refreshNow_pc, hupc, hnow, hget]
    refine ⟨rfl, rfl, rfl, (hregs.trans (State.refreshNow_regs u h k)).trans (.ofRegs (State.setPc_regs _ _ _)), fun hw => ?_⟩
    rw [State.get_congr (State.setPc_regs _ _ _), State.refreshNow_counts (s := u) k (by rw [← hu]; exact hw), hget]

end Refresh

/-! ### Scrub and rewrite (R268, R277, R279) -/

theorem mem_of_smFind {α : Type} {m : SMap α} {k : Nat} {v : α} (h : smFind m k = some v) : (k, v) ∈ m := by
  by_contra hm
  induction m with
  | nil => cases h
  | cons e m ih =>
    rw [smFind] at h
    split at h
    next hk =>
      obtain rfl := Option.some.inj h
      exact hm (by rw [← hk]; exact List.mem_cons_self)
    next => exact ih h fun hi => hm (List.mem_cons_of_mem _ hi)

/-- A line that a read finds corrected is among the bad ones. -/
theorem State.corrected_badLines {s : State} {a : Nat} (h : lineStat (s.eccOf a) = .corrected) : (a, false) ∈ s.badLines a 32 := by
  have hf : smFind s.ecc a = some (s.eccOf a) := by
    rw [State.eccOf, smGet]
    cases hv : smFind s.ecc a with
    | some v => rfl
    | none =>
      rw [State.eccOf, smGet, hv] at h
      exact absurd h (by decide)
  refine List.mem_map.mpr ⟨(a, s.eccOf a), List.mem_filter.mpr ⟨mem_of_smFind hf, ?_⟩, ?_⟩
  · simp only [h, Bool.and_eq_true, decide_eq_true_eq]
    exact ⟨⟨by omega, by omega, by omega⟩, rfl⟩
  · rw [h]
    rfl

theorem State.holdRead_pc (s : State) (k a len : Nat) (logged : List Nat) (j : Nat) :
    (s.holdRead k a len logged).1.pc j = (s.noteRewrite k a len).pc j :=
  State.pc_congr ((State.noteLines_changes _ _ _ _ _).holds rfl) j

/-- A corrected line that is read joins those to be rewritten. -/
theorem State.holdRead_rewrite {s : State} (k : Nat) {a : Nat} (h : lineStat (s.eccOf a) = .corrected) (logged : List Nat) :
    a ∈ ((s.holdRead k a 32 logged).1.pc k).rewrite := by
  rw [State.holdRead_pc, State.noteRewrite_pc]
  by_cases hm : a ∈ (s.pc k).rewrite
  · exact List.mem_append_left _ hm
  · refine List.mem_append_right _ (List.mem_filter.mpr ⟨List.mem_map.mpr ⟨(a, false), ?_, rfl⟩, by simpa using hm⟩)
    exact List.mem_filter.mpr ⟨State.corrected_badLines h, rfl⟩

section Scrub

variable {h : Fin 2} {pc : Fin 64} {s : State}

theorem holdScrubRead_reads (he : s.get (Reg.HOLD_CTRL h) Fld.HOLD_CTRL.scrub_en = 1) (hq : (s.pc (h.val * 64 + pc.val)).queue = [])
    (hf : s.pcFree h (h.val * 64 + pc.val) = true) : Gives (.holdScrubRead h pc) s fun t =>
      (t.pc (h.val * 64 + pc.val)).scrubAt = ((s.pc (h.val * 64 + pc.val)).scrubAt + 1) % 2 ^ 25 ∧ SameBytes s t ∧
      (lineStat (s.eccOf (pcLine h pc (s.pc (h.val * 64 + pc.val)).scrubAt)) = .corrected →
        pcLine h pc (s.pc (h.val * 64 + pc.val)).scrubAt ∈ (t.pc (h.val * 64 + pc.val)).rewrite) := by
  have hx : exec (.holdScrubRead h pc) s = execHoldScrubRead h pc s := rfl
  generalize hk : h.val * 64 + pc.val = k at hq hf ⊢
  generalize hu : s.setPc k { s.pc k with scrubAt := ((s.pc k).scrubAt + 1) % 2 ^ 25 } = u
  have hupc : u.pc k = { s.pc k with scrubAt := ((s.pc k).scrubAt + 1) % 2 ^ 25 } := by rw [← hu, State.pc_setPc_same]
  refine Gives.intro (t := (u.holdRead k (pcLine h pc (s.pc k).scrubAt) 32 []).1) ?_ ⟨?_, fun b => ?_, fun hc => ?_⟩
  · rw [hx, ← hu]
    subst hk
    exact if_neg (by simp [he, hq, hf])
  · rw [State.holdRead_pc, State.noteRewrite_pc, hupc]
  · exact ((State.holdRead_changes _ _ _ _ _).sameBytes rfl rfl b).trans (by rw [← hu]; rfl)
  · exact State.holdRead_rewrite k (by rw [← hu]; exact hc) []

/-- A line written again reads as before. -/
theorem State.writeMem_again {s : State} (h : s.wf = true) {a : Nat} (ha : a % 32 = 0) :
    SameBytes s (s.writeMem a (s.bytes a 32) false) ∧ (s.writeMem a (s.bytes a 32) false).eccOf a = 0 := by
  refine ⟨fun b => ?_, ?_⟩
  · by_cases hb : a ≤ b ∧ b < a + 32
    · obtain ⟨i, rfl⟩ := Nat.exists_eq_add_of_le hb.1
      rw [State.byte_writeMem_line h ha (s.length_bytes a 32) _ (by omega), s.getD_bytes a (by omega)]
    · refine s.byte_writeMem_out _ _ _ ?_
      rw [s.length_bytes]
      simp only [lineOf]
      omega
  · obtain ⟨-, -, he⟩ := State.wf_iff.mp h
    have hl : lineOf a = a := by simp only [lineOf]; omega
    have hn : 0 < linesIn a (s.bytes a 32).length := by
      rw [s.length_bytes]
      unfold linesIn
      split <;> omega
    have := smGet_eccPuts_in he a (linesIn a (s.bytes a 32).length) 0 hn
    simpa only [State.eccOf, State.writeMem, hl, Bool.false_eq_true, if_false, Nat.mul_zero, Nat.add_zero] using this

theorem correctedLineRewrite_rewrites {a : Nat} {rest : List Nat} (hr : (s.pc (h.val * 64 + pc.val)).rewrite = a :: rest)
    (hq : (s.pc (h.val * 64 + pc.val)).queue = []) (hf : s.pcFree h (h.val * 64 + pc.val) = true) (hwf : s.wf = true) (ha : a % 32 = 0) :
    Gives (.correctedLineRewrite h pc) s fun t =>
      (t.pc (h.val * 64 + pc.val)).rewrite = rest ∧ SameBytes s t ∧ (lineStat (s.eccOf a) = .corrected → t.eccOf a = 0) := by
  have hx : exec (.correctedLineRewrite h pc) s = execCorrectedLineRewrite h pc s := rfl
  generalize hk : h.val * 64 + pc.val = k at hr hq hf ⊢
  generalize hu : s.setPc k { s.pc k with rewrite := rest } = u
  have hupc : u.pc k = { s.pc k with rewrite := rest } := by rw [← hu, State.pc_setPc_same]
  have hub : SameBytes s u := fun b => by rw [← hu]; rfl
  have hue : u.eccOf a = s.eccOf a := by rw [← hu]; rfl
  refine Gives.intro (t := if lineStat (u.eccOf a) = .corrected then u.writeMem a (u.bytes a 32) false else u) ?_ ?_
  · rw [hx, ← hu]
    subst hk
    simp only [execCorrectedLineRewrite, hr]
    exact if_neg (by simp [hq, hf])
  · split
    next hc =>
      obtain ⟨hsame, hecc⟩ := State.writeMem_again (s := u) (hu ▸ hwf) ha
      exact ⟨(congrArg HoldPc.rewrite hupc : (u.pc k).rewrite = rest), fun b => (hsame b).trans (hub b), fun _ => hecc⟩
    next hc => exact ⟨by rw [hupc], hub, fun h1 => absurd (by rw [hue]; exact h1) hc⟩

end Scrub

end Sys2Proof.Machine
end

section
/-! SUPPORT. The temperature of a stack and its training (R266, R528, R530, R588, R589); and the obligation on the holds' controllers. -/

namespace Sys2Proof.Machine

/-! ### A trip (R588) -/

/-- The enable of a rail falls. -/
def State.railOff (s : State) (g : Nat) : State := if s.railEn g then s.setEn g false else s

theorem State.railEn_railOff (s : State) (g k : Nat) : (s.railOff g).railEn k = if k = g then false else s.railEn k := by
  unfold State.railOff
  by_cases hk : k = g
  · subst hk
    rw [if_pos rfl]
    split
    · by_cases hl : k < s.toll.en.length
      · simp [State.railEn, State.setEn, hl]
      · exact List.getD_eq_default _ _ (by simpa [State.setEn] using Nat.le_of_not_lt hl)
    next h => simpa using h
  · rw [if_neg hk]
    split
    · simp [State.railEn, State.setEn, List.getD_eq_getElem?_getD, List.getElem?_set_ne (Ne.symm hk)]
    · rfl

theorem State.railOff_toll (s : State) (g : Nat) : (s.railOff g).regs = s.regs ∧ (s.railOff g).toll.dead = s.toll.dead := by
  unfold State.railOff
  split <;> exact ⟨rfl, rfl⟩

/-- Everything but the tollhouse as a trip leaves it. -/
def State.tripDead (s : State) (src : Nat) : State :=
  (((s.logErr { code := 0xF000, aux := src }).put Reg.TOLL_THERM Fld.TOLL_THERM.trip 1).put Reg.TOLL_THERM Fld.TOLL_THERM.trip_src src).goDead

theorem State.goDead_reg (s : State) (a : Nat) : s.goDead.reg a = (s.keepRegs powerKeep).reg a := rfl

theorem State.tripDead_get (s : State) {src : Nat} (hs : src < 4) :
    (s.tripDead src).get Reg.TOLL_THERM Fld.TOLL_THERM.trip = 1 ∧ (s.tripDead src).get Reg.TOLL_THERM Fld.TOLL_THERM.trip_src = src := by
  generalize hv : s.logErr { code := 0xF000, aux := src } = v
  have key (f : BitField) (hf : f.mask &&& powerKeep Reg.TOLL_THERM = f.mask) : (s.tripDead src).get Reg.TOLL_THERM f =
      ((v.put Reg.TOLL_THERM Fld.TOLL_THERM.trip 1).put Reg.TOLL_THERM Fld.TOLL_THERM.trip_src src).get Reg.TOLL_THERM f := by
    rw [State.tripDead, hv, State.get, State.goDead_reg, ← State.get, State.keepRegs_field _ hf]
  refine ⟨(key _ (by decide)).trans ?_, (key _ (by decide)).trans ?_⟩
  · rw [State.get_put_other _ _ _ _ _ (by decide), State.get_put_same _ _ _ _ (by decide)]
    decide
  · rw [State.get_put_same _ _ _ _ (by decide)]
    exact Nat.mod_eq_of_lt hs

/-- The enables of the rails fall, in the order of R576. -/
def State.railsOff (s : State) : State := [3, 2, 1, 0].foldl State.railOff s

theorem State.railsOff_rest (s : State) : s.railsOff.regs = s.regs ∧ s.railsOff.toll.dead = s.toll.dead ∧
    ∀ g : Fin 4, s.railsOff.railEn g = false := by
  unfold State.railsOff
  simp only [List.foldl_cons, List.foldl_nil, State.railOff_toll, State.railEn_railOff, true_and]
  intro g
  fin_cases g <;> rfl

/-- A trip has taken power away. -/
def State.markTripped (s : State) : State := { s with toll := { s.toll with downing := false, tripped := true } }

theorem State.trip_eq (s : State) (src : Nat) : s.trip src = (s.tripDead src).railsOff.markTripped := by
  have hf : State.railOff = fun t g => if t.railEn g then t.setEn g false else t := rfl
  simp only [State.trip, State.markTripped, State.railsOff, State.tripDead, hf]

theorem State.markTripped_rest (s : State) : s.markTripped.regs = s.regs ∧ s.markTripped.toll.dead = s.toll.dead ∧
    s.markTripped.toll.tripped = true ∧ ∀ g, s.markTripped.railEn g = s.railEn g := ⟨rfl, rfl, rfl, fun _ => rfl⟩

theorem State.tripDead_dead (s : State) (src : Nat) : (s.tripDead src).toll.dead = true := by
  unfold State.tripDead State.goDead
  rfl

/-- A trip is shown with its source, and nothing but the tollhouse is powered. -/
theorem State.trip_trips (s : State) {src : Nat} (hs : src < 4) :
    (s.trip src).get Reg.TOLL_THERM Fld.TOLL_THERM.trip = 1 ∧ (s.trip src).get Reg.TOLL_THERM Fld.TOLL_THERM.trip_src = src ∧
    (s.trip src).toll.dead = true ∧ (s.trip src).toll.tripped = true ∧ ∀ g : Fin 4, (s.trip src).railEn g = false := by
  obtain ⟨hr, hd, he⟩ := (s.tripDead src).railsOff_rest
  obtain ⟨hmr, hmd, hmt, hme⟩ := (s.tripDead src).railsOff.markTripped_rest
  obtain ⟨htrip, hsrc⟩ := s.tripDead_get hs
  rw [s.trip_eq]
  exact ⟨(State.get_congr (hmr.trans hr) _ _).trans htrip, (State.get_congr (hmr.trans hr) _ _).trans hsrc,
    (hmd.trans hd).trans (s.tripDead_dead src), hmt, fun g => (hme g).trans (he g)⟩

/-! ### The temperature of a stack (R266, R589) -/

/-- The refresh mode that a temperature selects. -/
def modeFor (on temp m : Nat) : Nat := if m = 2 then 2 else if on ≤ temp then 1 else if temp + 5 ≤ on then 0 else m

theorem modeFor_lt (on temp : Nat) {m : Nat} (h : m < 4) : modeFor on temp m < 4 := by
  unfold modeFor
  split
  · decide
  · split
    · decide
    · split
      · decide
      · exact h

section Temperature

variable {h : Fin 2} {s : State} {temp : Byte}

theorem HOLD_CTRL_ne (h : Fin 2) : Reg.HOLD_CTRL h ≠ Reg.HOLD_REFRESH h ∧ Reg.HOLD_CTRL h ≠ Reg.TOLL_THERM ∧
    Reg.HOLD_REFRESH h ≠ Reg.TOLL_THERM := by
  revert h
  decide

/-- The registers that a chosen mode changes. -/
theorem State.chooseMode_regs (s : State) (h : Fin 2) :
    let on := s.get (Reg.HOLD_CTRL h) Fld.HOLD_CTRL.ext_on_c
    let m := s.get (Reg.HOLD_CTRL h) Fld.HOLD_CTRL.rmode
    let m' := modeFor on (s.get (Reg.HOLD_CTRL h) Fld.HOLD_CTRL.temp_c) m
    (s.chooseMode h).get (Reg.HOLD_CTRL h) Fld.HOLD_CTRL.temp_c = s.get (Reg.HOLD_CTRL h) Fld.HOLD_CTRL.temp_c ∧
    (s.chooseMode h).get (Reg.HOLD_CTRL h) Fld.HOLD_CTRL.rmode = m' ∧
    (s.chooseMode h).get (Reg.HOLD_REFRESH h) Fld.HOLD_REFRESH.trefi_ns =
      (if m' = m then s.get (Reg.HOLD_REFRESH h) Fld.HOLD_REFRESH.trefi_ns else if m' = 1 then 1950 else 3900) ∧
    SameRegs [Reg.HOLD_CTRL h, Reg.HOLD_REFRESH h, Reg.TOLL_THERM] s (s.chooseMode h) := by
  intro on m m'
  obtain ⟨hne, -, -⟩ := HOLD_CTRL_ne h
  have hm : m < 4 := BitField.get_lt _ _
  have hc : s.chooseMode h = if m' = m then s else
      ((s.put (Reg.HOLD_CTRL h) Fld.HOLD_CTRL.rmode m').put (Reg.HOLD_REFRESH h) Fld.HOLD_REFRESH.trefi_ns
        (if m' = 1 then 1950 else 3900)).reschedule h := rfl
  rw [hc]
  split
  next hmm => exact ⟨rfl, hmm.symm, rfl, .refl _ s⟩
  next hmm =>
    have hreg (v : State) : (v.reschedule h).regs = v.regs := rfl
    simp only [State.get_congr (hreg _)]
    refine ⟨?_, ?_, ?_, ?_⟩
    · rw [State.get_put_ne _ _ _ _ hne, State.get_put_other _ _ _ _ _ (by decide)]
    · rw [State.get_put_ne _ _ _ _ hne, State.get_put_same _ _ _ _ (by decide)]
      exact Nat.mod_eq_of_lt (modeFor_lt _ _ hm)
    · rw [State.get_put_same _ _ _ _ (by decide)]
      split <;> rfl
    · exact (State.put_step (State.put_step (.refl _ s) _ _ _ (by simp)) _ _ _ (by simp)).trans (.ofRegs (hreg _))

/-- The field of TOLL_THERM that shows a stack's temperature. -/
abbrev thermField (h : Fin 2) : BitField := if h.val = 0 then Fld.TOLL_THERM.hold0_c else Fld.TOLL_THERM.hold1_c

theorem thermField_width (h : Fin 2) : (thermField h).width = 8 ∧ (thermField h).lo + (thermField h).width ≤ 64 := by
  revert h
  decide

theorem State.holdSample_shows (s : State) (h : Fin 2) (temp : Byte) :
    let on := s.get (Reg.HOLD_CTRL h) Fld.HOLD_CTRL.ext_on_c
    let m := s.get (Reg.HOLD_CTRL h) Fld.HOLD_CTRL.rmode
    let m' := modeFor on temp.toNat m
    let t := s.holdSample h temp.toNat
    t.get (Reg.HOLD_CTRL h) Fld.HOLD_CTRL.temp_c = temp.toNat ∧ t.get (Reg.HOLD_CTRL h) Fld.HOLD_CTRL.rmode = m' ∧
    t.get (Reg.HOLD_REFRESH h) Fld.HOLD_REFRESH.trefi_ns =
      (if m' = m then s.get (Reg.HOLD_REFRESH h) Fld.HOLD_REFRESH.trefi_ns else if m' = 1 then 1950 else 3900) ∧
    t.get Reg.TOLL_THERM (thermField h) = temp.toNat ∧
    SameRegs [Reg.HOLD_CTRL h, Reg.HOLD_REFRESH h, Reg.TOLL_THERM] s t := by
  obtain ⟨hne, hct, hrt⟩ := HOLD_CTRL_ne h
  have hlt : temp.toNat < 256 := temp.isLt
  generalize hu : s.put (Reg.HOLD_CTRL h) Fld.HOLD_CTRL.temp_c temp.toNat = u
  have htemp : u.get (Reg.HOLD_CTRL h) Fld.HOLD_CTRL.temp_c = temp.toNat := by
    rw [← hu, State.get_put_same _ _ _ _ (by decide)]
    exact Nat.mod_eq_of_lt hlt
  have hon : u.get (Reg.HOLD_CTRL h) Fld.HOLD_CTRL.ext_on_c = s.get (Reg.HOLD_CTRL h) Fld.HOLD_CTRL.ext_on_c := by
    rw [← hu, State.get_put_other _ _ _ _ _ (by decide)]
  have hm : u.get (Reg.HOLD_CTRL h) Fld.HOLD_CTRL.rmode = s.get (Reg.HOLD_CTRL h) Fld.HOLD_CTRL.rmode := by
    rw [← hu, State.get_put_other _ _ _ _ _ (by decide)]
  have href : u.get (Reg.HOLD_REFRESH h) Fld.HOLD_REFRESH.trefi_ns = s.get (Reg.HOLD_REFRESH h) Fld.HOLD_REFRESH.trefi_ns := by
    rw [← hu, State.get_put_ne _ _ _ _ hne.symm]
  have hregs : SameRegs [Reg.HOLD_CTRL h, Reg.HOLD_REFRESH h, Reg.TOLL_THERM] s u := hu ▸ State.put_step (.refl _ s) _ _ _ (by simp)
  have ht : s.holdSample h temp.toNat = (u.chooseMode h).put Reg.TOLL_THERM (thermField h) temp.toNat := by
    rw [← hu]
    rfl
  obtain ⟨h1, h2, h3, h4⟩ := u.chooseMode_regs h
  rw [htemp, hon, hm] at h2 h3
  rw [htemp] at h1
  rw [href] at h3
  intro on m m' t
  refine ⟨?_, ?_, ?_, ?_, ?_⟩
  · exact ((congrArg (State.get · _ _) ht).trans (State.get_put_ne _ _ _ _ hct)).trans h1
  · exact ((congrArg (State.get · _ _) ht).trans (State.get_put_ne _ _ _ _ hct)).trans h2
  · exact ((congrArg (State.get · _ _) ht).trans (State.get_put_ne _ _ _ _ hrt)).trans h3
  · have hw := thermField_width h
    have hg := State.get_put_same (u.chooseMode h) Reg.TOLL_THERM (thermField h) temp.toNat hw.2
    rw [← ht, hw.1] at hg
    exact hg.trans (Nat.mod_eq_of_lt hlt)
  · show SameRegs _ s (s.holdSample h temp.toNat)
    rw [ht]
    exact State.put_step (hregs.trans h4) _ _ _ (by simp)

theorem holdTempUpdate_off (hh : s.diesHot = false) : exec (.holdTempUpdate h temp) s = .next s := by
  have he : exec (.holdTempUpdate h temp) s = execHoldTempUpdate h temp s := rfl
  rw [he, execHoldTempUpdate, if_pos (by rw [hh]; rfl)]

theorem exec_holdTempUpdate (hh : s.diesHot = true) : exec (.holdTempUpdate h temp) s =
    .next (if 105 ≤ temp.toNat then (s.holdSample h temp.toNat).trip (h + 1) else s.holdSample h temp.toNat) := by
  have he : exec (.holdTempUpdate h temp) s = execHoldTempUpdate h temp s := rfl
  rw [he, execHoldTempUpdate, if_neg (by rw [hh]; decide)]

end Temperature

/-! ### Training (R528, R530) -/

section Training

variable {h : Fin 2} {s : State}

/-- An address in a hold. -/
def inHold (h : Fin 2) (a : Nat) : Bool := decide (0x1000000000 * (h.val + 1) ≤ a) && decide (a < 0x1000000000 * (h.val + 2))

/-- A hold is empty. -/
def State.emptyHold (s : State) (h : Fin 2) : State :=
  { s.put (Reg.HOLD_CTRL h) Fld.HOLD_CTRL.trained 1 with
    mem := s.mem.filter fun c => !inHold h c.1
    ecc := s.ecc.filter fun c => !inHold h c.1 }

theorem inHold_line (h : Fin 2) (a : Nat) : inHold h (lineOf a) = inHold h a := by
  rw [inHold, inHold, ← Bool.decide_and, ← Bool.decide_and, decide_eq_decide, lineOf]
  omega

theorem smGet_filter_out {α : Type} (d : α) (m : SMap α) (p : Nat → Bool) (k : Nat) :
    smGet d (m.filter fun c => p c.1) k = if p k then smGet d m k else d := by
  rw [smGet, smGet]
  split
  next hp => rw [smFind_filter_key m hp]
  next hp => rw [smFind_filter_none fun v => by simpa using hp]; rfl

theorem State.emptyHold_byte (s : State) (h : Fin 2) (a : Nat) : (s.emptyHold h).byte a = if inHold h a then 0 else s.byte a := by
  have hm := smGet_filter_out 0 s.mem (fun k => !inHold h k) a
  have he := smGet_filter_out 0 s.ecc (fun k => !inHold h k) (lineOf a)
  rw [inHold_line] at he
  simp only [State.byte, State.eccOf, State.emptyHold]
  rw [hm, he]
  cases inHold h a
  · rfl
  · exact (BitVec.zero_xor).trans (eccFlip_zero _)

theorem holdTrainingDone_trains (hp : s.phase = 6) (ht : s.get (Reg.HOLD_CTRL h) Fld.HOLD_CTRL.trained = 0) :
    Gives (.holdTrainingDone h true) s fun t =>
      t.get (Reg.HOLD_CTRL h) Fld.HOLD_CTRL.trained = 1 ∧ SameRegs [Reg.HOLD_CTRL h] s t ∧
      (∀ a, 0x1000000000 * (h.val + 1) ≤ a → a < 0x1000000000 * (h.val + 2) → t.byte a = 0) ∧
      (∀ a, a < 0x1000000000 * (h.val + 1) ∨ 0x1000000000 * (h.val + 2) ≤ a → t.byte a = s.byte a) := by
  have he : exec (.holdTrainingDone h true) s = execHoldTrainingDone h true s := rfl
  have hreg : (s.emptyHold h).regs = (s.put (Reg.HOLD_CTRL h) Fld.HOLD_CTRL.trained 1).regs := rfl
  refine Gives.intro (t := s.emptyHold h) ?_ ⟨?_, ?_, fun a h1 h2 => ?_, fun a h1 => ?_⟩
  · rw [he, execHoldTrainingDone]
    exact if_neg (by simp [hp, ht])
  · rw [State.get_congr hreg, State.get_put_same _ _ _ _ (by decide)]
    rfl
  · exact (State.put_sameRegs _ _ _ _).trans (.ofRegs hreg)
  · rw [State.emptyHold_byte, if_pos (by simp [inHold, h1, h2])]
  · rw [State.emptyHold_byte, if_neg]
    simp only [inHold, Bool.and_eq_true, decide_eq_true_eq]
    omega

theorem holdTrainingDone_fails (hp : s.phase = 6) (ht : s.get (Reg.HOLD_CTRL h) Fld.HOLD_CTRL.trained = 0) :
    Gives (.holdTrainingDone h false) s fun t => t.phase = 0xE ∧ t.get Reg.TOLL_BOOT Fld.TOLL_BOOT.fail_code = 0xFD01 := by
  have he : exec (.holdTrainingDone h false) s = execHoldTrainingDone h false s := rfl
  refine Gives.intro (t := (s.logErr { code := 0xFD01, aux := h }).bootFail 0xFD01) ?_ (State.bootFail_failed _ _)
  rw [he, execHoldTrainingDone]
  exact if_neg (by simp [hp, ht])

end Training

/-- Settles O34: the requests, refreshes, scrub and rewrites of a pseudo-channel, and a stack's temperature and training. -/
theorem holdControllers : Obligations.HoldControllers := by
  intro h pc s
  refine ⟨fun r rest hq hf hr => holdRequestComplete_serves hq hf hr, fun ho => holdRefresh_due ho,
    fun hp hq hf ha hm => refreshMakeup_makes hp hq hf ha hm, fun he hq hf => holdScrubRead_reads he hq hf,
    fun a rest hr hq hf hwf ha => correctedLineRewrite_rewrites hr hq hf hwf ha, fun temp hh => holdTempUpdate_off hh,
    fun temp hh hot => ?_, fun temp hh cool => ?_, fun hp ht => ⟨holdTrainingDone_trains hp ht, holdTrainingDone_fails hp ht⟩⟩
  · refine Gives.intro (exec_holdTempUpdate hh) ?_
    rw [if_pos hot]
    exact State.trip_trips _ (by omega)
  · refine Gives.intro (exec_holdTempUpdate hh) ?_
    rw [if_neg (Nat.not_le_of_lt cool)]
    exact s.holdSample_shows h temp

end Sys2Proof.Machine
end

section
/-! SUPPORT. Accesses of the register path (R451, R597, R598): those that wait and those made at once, accesses of the holds, of a fenced
core's window and of the control blocks' registers. -/

namespace Sys2Proof.Machine

/-! ### An access comes to the register path -/

/-- While beats run an access waits for the next one (R451, R597). -/
theorem State.regAsk_waits {s : State} (rank : Nat) (ask : RegAsk) (hp : s.pathNow = false) (hq : ∀ y ∈ s.die.regQ, s.regDue y = false) :
    s.regAsk rank ask = { s with die := { s.die with
      regQ := queueReg { beat := s.leadBeat, after := s.regBeat ask.addr, rank := rank, ask := ask } s.die.regQ } } := by
  refine State.serveRegs_notDue fun y hy => ?_
  obtain rfl | hy := mem_queueReg.mp hy
  · exact (congrArg (· || decide (s.regBeat ask.addr < s.regBeat ask.addr)) hp).trans (by simp)
  · exact hq y hy

/-- The one access that waits is made when its beat has come. -/
theorem State.serveRegs_due {s : State} {x : RegWait} (hq : s.die.regQ = [x]) (hd : s.regDue x = true) :
    s.serveRegs = ({ s with die := { s.die with regQ := [] } } : State).serveAsk x.ask := by
  rw [State.serveRegs, hq, List.filter_cons_of_pos hd, List.filter_cons_of_neg (by simp [hd]), List.filter_nil, List.filter_nil]
  rfl

/-- Where no beat runs and nothing waits an access is made at once (R597). -/
theorem State.regAsk_now {s : State} (rank : Nat) (ask : RegAsk) (hp : s.pathNow = true) (hq : s.die.regQ = []) :
    s.regAsk rank ask = s.serveAsk ask := by
  generalize hx : (⟨s.leadBeat, s.regBeat ask.addr, rank, ask⟩ : RegWait) = x
  generalize hu : ({ s with die := { s.die with regQ := [x] } } : State) = u
  have hask : x.ask = ask := by rw [← hx]
  have hd : u.regDue x = true := by
    rw [State.regDue, show u.pathNow = s.pathNow by rw [← hu]; rfl, hp, Bool.true_or]
  have hs : ({ u with die := { u.die with regQ := [] } } : State) = s := by
    rw [← hu]
    show ({ s with die := { s.die with regQ := [] } } : State) = s
    rw [← hq]
  have hr : s.regAsk rank ask = u.serveRegs := by
    rw [← hu, ← hx, State.regAsk, hq]
    rfl
  rw [hr, State.serveRegs_due (by rw [← hu]) hd, hs, hask]

/-- A command that brings an access to the path, and does `f` then. -/
theorem Asked.intro {c : Instr} {rank : Nat} {ask : RegAsk} {s u : State} {f : State → State} {P : State → Prop}
    (hc : exec c s = .next (f (u.regAsk rank ask))) (hp : P (u.serveAsk ask)) : Asked c rank ask s u f P :=
  ⟨fun hn hq => hc.trans (by rw [State.regAsk_waits rank ask hn hq]), fun hn hq => hc.trans (by rw [State.regAsk_now rank ask hn hq]), hp⟩

/-! ### Answers (R449) -/

/-- The I3C target that waits for access `n` has its answer. -/
theorem State.answer_i3c {s : State} {n : Nat} (hw : s.toll.i3cWait = true) (hn : s.toll.i3cSeq = n) (st : Nat) (v : Word) :
    s.answer (.i3c n) st v = { s with toll := { s.toll with i3cWait := false, i3cAns := some (st, v) } } := if_pos ⟨hw, hn⟩

theorem State.answer_sameBytes (s : State) (k : Asker) (st : Nat) (v : Word) : SameBytes s (s.answer k st v) :=
  (s.answer_changes k st v).sameBytes rfl rfl

/-! ### Accesses of the holds (R264, R597) -/

theorem tollBlock_out {a : Nat} (h : a < 0x400000000 ∨ 0x400140000 ≤ a) : tollBlock a = false := by
  have hb : blockOfReg a = none := if_neg (by omega)
  rw [tollBlock, hb]
  rfl

theorem HoldWord.pathOpen {s : State} {a : Nat} (h : HoldWord s a) (write : Bool) : s.pathOpen a write = true := by
  obtain ⟨hlo, hhi, h8, hd⟩ := h
  have ht : inTables a = false := by simp [inTables]; omega
  rw [State.pathOpen, tollBlock_out (by omega), hd, ht, beq_iff_eq.mpr h8, if_neg (by decide), if_neg (by decide), if_neg (by omega),
    if_neg (by omega), if_neg (by decide), if_pos ⟨hlo, hhi⟩]
  rfl

/-- An access of a hold is a request of its pseudo-channel; what goes before it only wakes the die. -/
theorem joins_holdPath (s : State) (a : Nat) (v : Option Word) (k : Asker) : Joins a v k s ((s.wakeFor a).holdPath a v k) := by
  have hc := s.wakeFor_changes a
  have hpc : (s.wakeFor a).pc (pcKey a) = s.pc (pcKey a) := State.pc_congr (hc.holds rfl) _
  have hbeat : (s.wakeFor a).nodeBeat (pathNode a) = s.nodeBeat (pathNode a) := by
    rw [State.nodeBeat, State.reach_congr hc.reaches, State.nodeBeat]
  refine ⟨?_, fun b => hc.sameBytes rfl rfl b⟩
  simp only [State.holdPath, State.holdRequest, State.pc_setPc_same, hpc, hbeat]

theorem State.localWrite_hold {s : State} {a : Nat} (h : HoldWord s a) (chip : Nat) (v : Word) (k : Asker) :
    s.localWrite chip a v k = (s.wakeFor a).holdPath a (some v) k := by
  have ht : inTables a = false := by
    have := h.1
    simp [inTables]
    omega
  have hlo := h.1
  simp only [State.localWrite, h.pathOpen, Bool.not_true, Bool.false_eq_true, if_false, ht]
  rw [if_neg (by omega), if_neg (by omega)]

theorem State.localRead_hold {s : State} {a : Nat} (h : HoldWord s a) (k : Asker) :
    s.localRead a k = (s.wakeFor a).holdPath a none k := by
  have hlo := h.1
  have hhi := h.2.1
  have ht : inTables a = false := by
    simp [inTables]
    omega
  simp only [State.localRead, h.pathOpen, Bool.not_true, Bool.false_eq_true, if_false, ht]
  rw [if_neg (by omega), if_neg (by omega), if_pos (by simp only [snapBase]; omega)]

/-! ### Accesses that change nothing, of a fenced core's window, and of a control block's register -/

theorem State.localWrite_closed {s : State} {a : Nat} (h : s.pathOpen a true = false) (chip : Nat) (v : Word) (k : Asker) :
    s.localWrite chip a v k = s.answer k 0x3A05 0 := if_pos (by simp [h])

theorem State.localRead_closed {s : State} {a : Nat} (h : s.pathOpen a false = false) (k : Asker) :
    s.localRead a k = s.answer k 0x3A05 0 := if_pos (by simp [h])

theorem State.pathOpen_fenced {s : State} {a : Nat} (h8 : a % 8 = 0) (hlt : a < 0x400000000) (hd : s.dieOn = true)
    (he : s.enabled (a / 0x4000000) = false) (write : Bool) : s.pathOpen a write = true := by
  rw [State.pathOpen, tollBlock_out (.inl hlt), hd, he, beq_iff_eq.mpr h8, if_neg (by decide), if_neg (by decide), if_pos hlt]
  simp

theorem State.localWrite_fenced {s : State} {a : Nat} (h8 : a % 8 = 0) (hlt : a < 0x400000000) (hd : s.dieOn = true)
    (he : s.enabled (a / 0x4000000) = false) (chip : Nat) (v : Word) (k : Asker) :
    s.localWrite chip a v k = ((s.wakeFor a).fencedAccess (a / 0x4000000) a).answer k 0 0 := by
  have hen := (s.wakeFor_enabled a (n := a / 0x4000000) (by omega)).trans he
  simp only [State.localWrite, State.pathOpen_fenced h8 hlt hd he, Bool.not_true, Bool.false_eq_true, if_false, hlt, if_true, hen, Bool.not_false]

theorem State.localRead_fenced {s : State} {a : Nat} (h8 : a % 8 = 0) (hlt : a < 0x400000000) (hd : s.dieOn = true)
    (he : s.enabled (a / 0x4000000) = false) (k : Asker) :
    s.localRead a k = ((s.wakeFor a).fencedAccess (a / 0x4000000) a).answer k 0 0 := by
  have hen := (s.wakeFor_enabled a (n := a / 0x4000000) (by omega)).trans he
  simp only [State.localRead, State.pathOpen_fenced h8 hlt hd he, Bool.not_true, Bool.false_eq_true, if_false, hlt, if_true, hen, Bool.not_false]

theorem State.wakeFor_block {a : Nat} (s : State) (hlo : 0x400000000 ≤ a) (hhi : a < 0x400140000) : s.wakeFor a = s := by
  have hk : memKind a = .none := by
    rw [memKind, if_neg (by omega), if_neg (by omega), if_neg (by omega)]
  simp only [State.wakeFor, hk, Nat.not_lt_of_le hlo, if_false]

/-- A control block's register is read as it stands (R597). -/
theorem State.localRead_plain {s : State} {a : Nat} (h : PlainRead s a) (k : Asker) : s.localRead a k = s.answer k 0 (s.pathReg a) := by
  obtain ⟨hlo, hhi, h8, hon, hev, hst, hid⟩ := h
  have hopen : s.pathOpen a false = true := by
    rw [State.pathOpen, beq_iff_eq.mpr h8, Bool.true_and]
    split
    · rfl
    next ht =>
      have hd := hon.resolve_right ht
      simp only [hd, Bool.not_true, Bool.false_eq_true, if_false, Nat.not_lt_of_le hlo]
  simp only [State.localRead, hopen, Bool.not_true, Bool.false_eq_true, if_false, s.wakeFor_block hlo hhi, Nat.not_lt_of_le hlo, hhi, if_true,
    hev, hst, hid]

/-! ### REGISTER_WRITE -/

theorem registerWrite_asks (s : State) (a : BitVec 48) (v : Word) : Asked (.registerWrite a v) 1 (.access ⟨a.toNat, some v, .none⟩) s s id fun t =>
    (s.pathOpen a.toNat true = false → t = s) ∧
    (a.toNat % 8 = 0 → a.toNat < 0x400000000 → s.dieOn = true → s.enabled (a.toNat / 0x4000000) = false →
      t = (s.wakeFor a.toNat).logErr { code := 0x3403, core := some (a.toNat / 0x4000000), info := a.toNat }) ∧
    (HoldWord s a.toNat → Joins a.toNat (some v) .none s t) := by
  refine Asked.intro rfl ?_
  show (_ → s.localWrite s.chipAddr a.toNat v .none = s) ∧ (_ → _ → _ → _ → s.localWrite s.chipAddr a.toNat v .none = _) ∧
    (_ → Joins a.toNat (some v) .none s (s.localWrite s.chipAddr a.toNat v .none))
  refine ⟨fun h => State.localWrite_closed h _ _ _, fun h8 hlt hd he => State.localWrite_fenced h8 hlt hd he _ _ _, fun h => ?_⟩
  rw [State.localWrite_hold h]
  exact joins_holdPath s _ _ _

/-! ### REG barges (R599) -/

section Barges

variable {s u : State} {x : Arrival}

theorem ArrivalTaken.holds (h : ArrivalTaken s u) : u.holds = s.holds := by obtain ⟨_, _, rfl⟩ := h; rfl
theorem ArrivalTaken.sameBytes (h : ArrivalTaken s u) : SameBytes s u := by obtain ⟨_, _, rfl⟩ := h; exact fun _ => rfl
theorem ArrivalTaken.nodeBeat (h : ArrivalTaken s u) (n : Nat) : u.nodeBeat n = s.nodeBeat n := by obtain ⟨_, _, rfl⟩ := h; rfl
theorem ArrivalTaken.toll (h : ArrivalTaken s u) : u.toll = s.toll := by obtain ⟨_, _, rfl⟩ := h; rfl

theorem ArrivalTaken.joins (h : ArrivalTaken s u) {a : Nat} {v : Option Word} {k : Asker} {t : State} (hj : Joins a v k u t) : Joins a v k s t := by
  obtain ⟨hq, hb⟩ := hj
  refine ⟨?_, fun b => (hb b).trans (h.sameBytes b)⟩
  rw [hq, h.nodeBeat, State.pc_congr h.holds]

theorem exec_regBarge (h : s.takeArrival .regPath (fun b => bType b == tyREG) = some (x, u)) :
    exec .regBarge s = .next (u.regArrive x.barge) := by
  have he : exec .regBarge s = execRegBarge s := rfl
  simp only [he, execRegBarge, h]

/-- A reply is for the I3C target where it waits for it. -/
theorem regBarge_reply (h : s.takeArrival .regPath (fun b => bType b == tyREG) = some (x, u)) (ho : regOp x.barge = 2)
    (hk : regAsker x.barge % 2 = 1) (hw : s.toll.i3cWait = true) (hs : s.toll.i3cSeq = regAsker x.barge / 2) : Gives .regBarge s fun t =>
      t.toll = { s.toll with i3cWait := false, i3cAns := some (regStatus x.barge, regValue x.barge) } := by
  have ht := (State.takeArrival_arrivalTaken h).toll
  have hr : u.regArrive x.barge = u.answer (.i3c (regAsker x.barge / 2)) (regStatus x.barge) (regValue x.barge) := by
    rw [State.regArrive, if_pos ho, State.regReply]
    exact if_pos hk
  refine Gives.intro ((exec_regBarge h).trans (congrArg Host.Outcome.next hr)) ?_
  rw [State.answer_i3c (by rw [ht, hw]) (by rw [ht, hs]), ← ht]

theorem dieOn_phase {s : State} (h : s.dieOn = true) : s.phase ≠ 0xE := by
  intro hp
  rw [State.dieOn, hp] at h
  exact absurd h (by simp)

/-- An answer to a REG barge writes no register but in a wake and in the logging of an error. -/
theorem State.answerReg_regs (s : State) (b : Barge) (st : Nat) (v : Word) : SameRegsButErr [] s (s.answerReg b st v) := by
  unfold State.answerReg
  extract_lets chip pay
  split
  split
  · exact .refl _ s
  · unfold State.sendFrom
    split
    · exact s.launch_regs _ _ _ _ _
    · exact s.logErr_regs _

theorem State.regIn_refused {s : State} {b : Barge} (ho : regOp b = 1) (hm : s.mayWrite (regSrc b) (regAddr b) = false) :
    SameBytes s (s.regIn b) ∧ SameRegsButErr [] s (s.regIn b) := by
  unfold State.regIn
  dsimp only
  split
  · exact ⟨fun _ => rfl, .refl _ s⟩
  · rw [if_neg (by omega : ¬regOp b = 0), hm, if_neg (by decide)]
    exact ⟨(s.answerReg_changes _ _ _).sameBytes rfl rfl, s.answerReg_regs _ _ _⟩

theorem State.regIn_read {s : State} {b : Barge} (ho : regOp b = 0) (h : HoldWord s (regAddr b)) :
    s.regIn b = (s.wakeFor (regAddr b)).holdPath (regAddr b) none (.chip b) := by
  rw [State.regIn, ← State.localRead_hold h]
  exact (if_neg (dieOn_phase h.2.2.2)).trans (if_pos ho)

theorem State.regIn_write {s : State} {b : Barge} (ho : regOp b = 1) (hm : s.mayWrite (regSrc b) (regAddr b) = true)
    (h : HoldWord s (regAddr b)) : s.regIn b = (s.wakeFor (regAddr b)).holdPath (regAddr b) (some (regValue b)) (.chip b) := by
  rw [State.regIn, ← State.localWrite_hold h (regSrc b)]
  exact (if_neg (dieOn_phase h.2.2.2)).trans ((if_neg (by omega)).trans ((if_pos ho).trans (if_pos hm)))

theorem regBarge_asks (h : s.takeArrival .regPath (fun b => bType b == tyREG) = some (x, u)) (ho : regOp x.barge ≠ 2) :
    Asked .regBarge 2 (.barge x.barge) s u id fun t =>
      (regOp x.barge = 0 → HoldWord u (regAddr x.barge) → Joins (regAddr x.barge) none (.chip x.barge) s t) ∧
      (regOp x.barge = 1 → u.mayWrite (regSrc x.barge) (regAddr x.barge) = true → HoldWord u (regAddr x.barge) →
        Joins (regAddr x.barge) (some (regValue x.barge)) (.chip x.barge) s t) ∧
      (regOp x.barge = 1 → u.mayWrite (regSrc x.barge) (regAddr x.barge) = false → SameBytes s t ∧ SameRegsButErr [] s t) := by
  have ht := State.takeArrival_arrivalTaken h
  have hr : u.regArrive x.barge = u.regAsk 2 (.barge x.barge) := if_neg ho
  refine Asked.intro ((exec_regBarge h).trans (congrArg Host.Outcome.next hr)) ⟨fun h0 hw => ?_, fun h1 hm hw => ?_, fun h1 hm => ?_⟩
  · refine ht.joins ?_
    show Joins _ _ _ u (u.regIn x.barge)
    rw [State.regIn_read h0 hw]
    exact joins_holdPath u _ _ _
  · refine ht.joins ?_
    show Joins _ _ _ u (u.regIn x.barge)
    rw [State.regIn_write h1 hm hw]
    exact joins_holdPath u _ _ _
  · obtain ⟨hb, hregs⟩ := State.regIn_refused h1 hm
    exact ⟨fun b => (hb b).trans (ht.sameBytes b), (SameRegs.ofRegs ht.regs).toErr.trans hregs⟩

end Barges

end Sys2Proof.Machine
end

section
/-! SUPPORT. Accesses of the holds as they complete (R264, R278, R436), the I3C target (R448 to R450), and the obligation on the register
path. -/

namespace Sys2Proof.Machine

/-! ### A word of a hold -/

/-- A word whose bytes are those of `v` reads as `v`. -/
theorem State.word_of_bytes {t : State} {a : Nat} {v : Word} (h : ∀ i < 8, t.byte (a + i) = (natLe 8 v.toNat).getD i 0) : t.word a = v := by
  refine BitVec.eq_of_getLsbD_eq fun j hj => ?_
  rw [State.word, BitVec.getLsbD_ofNat, testBit_leNat, t.getD_bytes a (by omega), h _ (by omega), getLsbD_natLe _ (by omega) (by omega),
    show 8 * (j / 8) + j % 8 = j by omega, BitVec.testBit_toNat]
  simp [hj]

/-- A word is written within its line, read first (R278, R279). -/
theorem State.writePieces_word {s : State} (hwf : s.wf = true) {a : Nat} (h8 : a % 8 = 0) (v : Word) :
    ∃ ls, Notes s (s.noteLines ls none none []).1 ∧
      s.writePieces [(a, natLe 8 v.toNat, [])] = (s.noteLines ls none none []).1.writeNarrow a (natLe 8 v.toNat) ∧
      WordStored a v s (s.writePieces [(a, natLe 8 v.toNat, [])]) := by
  have hlen : (natLe 8 v.toNat).length = 8 := length_natLe _ _
  obtain ⟨ls, hls⟩ : ∃ ls, s.writePieces [(a, natLe 8 v.toNat, [])] = (s.noteLines ls none none []).1.writeAny a (natLe 8 v.toNat) := by
    refine ⟨_, if_neg ?_⟩
    rw [hlen]
    omega
  generalize hu : (s.noteLines ls none none []).1 = u at hls
  have hn : Notes s u := by
    rw [← hu]
    exact s.noteLines_notes _ _ _ _
  have hany : u.writeAny a (natLe 8 v.toNat) = u.writeNarrow a (natLe 8 v.toNat) := by
    have hone : linesIn a 8 = 1 := by
      rw [linesIn, if_neg (by decide)]
      omega
    have hlo : max a (lineOf a + 32 * 0) = a := by
      simp only [lineOf]
      omega
    have hpart : ((natLe 8 v.toNat).drop (a - a)).take (lineOf a + 32 * 0 + 32 - a) = natLe 8 v.toNat := by
      rw [Nat.sub_self, List.drop_zero, List.take_of_length_le]
      rw [hlen]
      simp only [lineOf]
      omega
    simp only [State.writeAny, hlen, hone, List.range_one, List.foldl_cons, List.foldl_nil, hlo, hpart]
    exact if_neg (by decide)
  refine ⟨ls, hu ▸ hn, by rw [hls, hany, hu], ?_⟩
  obtain ⟨hin, hout⟩ := State.mergeLine_bytes (hn.changes.wf hwf) (a := a) (bs := natLe 8 v.toNat) (by rw [hlen]; omega) false
  rw [hlen] at hin hout
  rw [hls, hany]
  have hub := State.byte_congr hn.changes.mem hn.changes.ecc
  exact ⟨State.word_of_bytes hin, fun b hb => (hout b hb).trans (hub b)⟩

/-- A word that is no state of a queue pair has been written: the ledger's view of it at most is gone. -/
theorem State.wordWritten_plain {s : State} {a : Nat} (h : s.qpStateAt a = none) : ∃ e, s.wordWritten a = { s with engine := e } := by
  obtain ⟨e, he⟩ : ∃ e, (if (smFind s.engine.view a).isSome = true then
      { s with engine := { s.engine with view := smDel s.engine.view a } } else s : State) = { s with engine := e } := by
    split
    · exact ⟨_, rfl⟩
    · exact ⟨s.engine, rfl⟩
  refine ⟨e, ?_⟩
  have hq : ({ s with engine := e } : State).qpStateAt a = none := h
  unfold State.wordWritten
  simp only [he, hq]

theorem State.qpStateAt_congr {s t : State} (h : t.reg Reg.ENET_QP = s.reg Reg.ENET_QP) (a : Nat) : t.qpStateAt a = s.qpStateAt a := by
  have hat : t.qpAt 0 = s.qpAt 0 := by rw [State.qpAt, State.get, h, ← State.get, State.qpAt]
  have hcount : t.get Reg.ENET_QP Fld.ENET_QP.count = s.get Reg.ENET_QP Fld.ENET_QP.count := congrArg Fld.ENET_QP.count.get h
  unfold State.qpStateAt
  rw [hat, hcount]

theorem SameBytes.word {s t : State} (h : SameBytes s t) (a : Nat) : t.word a = s.word a := by
  have hbytes (n b : Nat) : t.bytes b n = s.bytes b n := by
    induction n generalizing b with
    | zero => rfl
    | succ n ih => rw [State.bytes, State.bytes, ih, h]
  rw [State.word, State.word, hbytes]

theorem State.pathWord_congr {s t : State} (he : t.engine = s.engine) (hb : SameBytes s t) (a : Nat) : t.pathWord a = s.pathWord a := by
  rw [State.pathWord, State.pathWord, he, hb.word]

section Complete

variable {h : Fin 2} {pc : Fin 64} {s : State} {r : HoldReqItem} {rest : List HoldReqItem} {q : Asker}

/-- Asker `q` is the I3C target that waits for access `n`. -/
def Awaits (s : State) (q : Asker) (n : Nat) : Prop := q = .i3c n ∧ s.toll.i3cWait = true ∧ s.toll.i3cSeq = n

theorem Awaits.answered {s u : State} {q : Asker} {n : Nat} (hw : Awaits s q n) (ht : u.toll = s.toll) (st : Nat) (v : Word) :
    (u.answer q st v).toll.i3cAns = some (st, v) ∧ (u.answer q st v).toll.i3cWait = false := by
  obtain ⟨rfl, hwait, hseq⟩ := hw
  rw [State.answer_i3c (by rw [ht, hwait]) (by rw [ht, hseq])]
  exact ⟨rfl, rfl⟩

/-- A read of the register path is answered with the word. -/
theorem holdRequestComplete_pathRead (hq : (s.pc (h.val * 64 + pc.val)).queue = r :: rest) (hf : s.pcFree h (h.val * 64 + pc.val) = true)
    (hr : r.for_ = .path q) (hw : r.write = none) : Gives (.holdRequestComplete h pc) s fun t =>
      SameBytes s t ∧ ∀ n, Awaits s q n → t.toll.i3cAns = some (0, s.pathWord r.addr) ∧ t.toll.i3cWait = false := by
  refine Gives.intro (exec_holdRequestComplete hq hf) ?_
  generalize hu : s.setPc (h.val * 64 + pc.val) { s.pc (h.val * 64 + pc.val) with queue := rest } = u
  have hsu : SameBytes s u := fun b => by rw [← hu]; rfl
  have hword : u.pathWord r.addr = s.pathWord r.addr := State.pathWord_congr (by rw [← hu]; rfl) hsu _
  have hback : (u.writePieces (r.write.getD [])).holdBack (h.val * 64 + pc.val) r =
      (u.holdRead (h.val * 64 + pc.val) r.addr r.len []).1.answer q 0 (s.pathWord r.addr) := by
    rw [hw, ← hword]
    simp only [State.holdBack, hr, hw]
    rfl
  rw [hback]
  have hc := u.holdRead_changes (h.val * 64 + pc.val) r.addr r.len []
  refine ⟨fun b => (State.answer_sameBytes _ _ _ _ b).trans ((hc.sameBytes rfl rfl b).trans (hsu b)), fun n hn => hn.answered ?_ _ _⟩
  rw [hc.toll rfl, ← hu]
  rfl

/-- A write of the register path is answered as its word is stored. -/
theorem holdRequestComplete_pathWrite (hwf : s.wf = true) (hq : (s.pc (h.val * 64 + pc.val)).queue = r :: rest)
    (hf : s.pcFree h (h.val * 64 + pc.val) = true) (hr : r.for_ = .path q) {v : Word} (hw : r.write = some [(r.addr, natLe 8 v.toNat, [])])
    (h8 : r.addr % 8 = 0) (hqp : s.qpStateAt r.addr = none) : Gives (.holdRequestComplete h pc) s fun t =>
      WordStored r.addr v s t ∧ ∀ n, Awaits s q n → t.toll.i3cAns = some (0, 0) ∧ t.toll.i3cWait = false := by
  refine Gives.intro (exec_holdRequestComplete hq hf) ?_
  generalize hu : s.setPc (h.val * 64 + pc.val) { s.pc (h.val * 64 + pc.val) with queue := rest } = u
  obtain ⟨ls, hn, heq, hword, hrest⟩ := State.writePieces_word (s := u) (by rw [← hu]; exact hwf) h8 v
  generalize hx : u.writePieces [(r.addr, natLe 8 v.toNat, [])] = x at heq hword hrest
  have hxn : x = (u.noteLines ls none none []).1.writeNarrow r.addr (natLe 8 v.toNat) := heq
  have hxc := (u.noteLines ls none none []).1.writeNarrow_changes r.addr (natLe 8 v.toNat)
  have hreg : x.reg Reg.ENET_QP = s.reg Reg.ENET_QP := by
    rw [hxn, State.reg_congr hxc.regs, hn.regs _ (by decide), ← hu]
    rfl
  have htoll : x.toll = s.toll := by
    rw [hxn, hxc.toll, (State.noteLines_changes _ _ _ _ _).toll rfl, ← hu]
    rfl
  obtain ⟨e, he⟩ := State.wordWritten_plain (s := x) ((State.qpStateAt_congr hreg _).trans hqp)
  have hback : (u.writePieces (r.write.getD [])).holdBack (h.val * 64 + pc.val) r = ({ x with engine := e } : State).answer q 0 0 := by
    rw [hw, ← he]
    simp only [State.holdBack, hr, hw, Option.getD_some, hx]
    rfl
  rw [hback]
  have hb : SameBytes x (({ x with engine := e } : State).answer q 0 0) := State.answer_sameBytes { x with engine := e } q 0 0
  refine ⟨⟨(hb.word _).trans hword, fun b hbb => (hb b).trans ((hrest b hbb).trans (by rw [← hu]; rfl))⟩,
    fun n hnn => hnn.answered (u := { x with engine := e }) htoll _ _⟩

end Complete

end Sys2Proof.Machine
end

section
/-! SUPPORT. The I3C target (R448 to R450), and the obligation on the register path. -/

namespace Sys2Proof.Machine

/-! ### A private write (R449) -/

/-- The bytes of a private write hold a whole access. -/
def I3cFull (bs : List Byte) : Prop := (fieldOf bs 0 1 = 1 ∧ 9 ≤ bs.length) ∨ (fieldOf bs 0 1 = 2 ∧ 17 ≤ bs.length)

/-- The command, the chip, the address and the value of a private write. -/
def i3cCmd (bs : List Byte) : Nat := fieldOf bs 0 1
def i3cChip (bs : List Byte) : Nat := fieldOf bs 1 2
def i3cAddr (bs : List Byte) : Nat := fieldOf bs 3 6
def i3cValue (bs : List Byte) : Word := BitVec.ofNat 64 (fieldOf bs 9 8)

/-- The access that the I3C target makes as its access `k`. -/
def i3cAsk (bs : List Byte) (k : Nat) : PathOp := ⟨i3cAddr bs, if i3cCmd bs = 1 then none else some (i3cValue bs), .i3c k⟩

section Private

variable {s : State} {bs : List Byte}

theorem I3cFull.cmd (h : I3cFull bs) : i3cCmd bs = 1 ∨ i3cCmd bs = 2 := h.imp And.left And.left

theorem i3cPrivateWrite_off (h : s.i3cOn = false) : exec (.i3cPrivateWrite bs) s = .next (s.emit (.i3c false [])) := by
  have he : exec (.i3cPrivateWrite bs) s = execI3cPrivateWrite bs s := rfl
  rw [he, execI3cPrivateWrite]
  exact if_pos (by rw [h]; rfl)

/-- An access of a whole private write. -/
theorem exec_i3cPrivateWrite (ho : s.i3cOn = true) (hf : I3cFull bs) : exec (.i3cPrivateWrite bs) s =
    .next ((s.i3cAccess (i3cCmd bs) (i3cChip bs) (i3cAddr bs) (i3cValue bs)).emit (.i3c true [])) := by
  have he : exec (.i3cPrivateWrite bs) s = execI3cPrivateWrite bs s := rfl
  rw [he, execI3cPrivateWrite]
  refine (if_neg (by simp [ho])).trans (if_neg ?_)
  unfold I3cFull at hf
  omega

/-- One that is cut short, or names no command or every chip, has its outcome at once. -/
theorem exec_i3cPrivateWrite_refused (ho : s.i3cOn = true) (h : ¬I3cFull bs ∨ i3cChip bs = 0xFFFF) :
    exec (.i3cPrivateWrite bs) s = .next ((s.i3cDone 0x3A05 0).emit (.i3c true [])) := by
  have he : exec (.i3cPrivateWrite bs) s = execI3cPrivateWrite bs s := rfl
  rw [he, execI3cPrivateWrite]
  refine (if_neg (by simp [ho])).trans ?_
  split
  · rfl
  next hc =>
    have ha : s.i3cAccess (i3cCmd bs) (i3cChip bs) (i3cAddr bs) (i3cValue bs) = s.i3cDone 0x3A05 0 := by
      refine if_pos ?_
      unfold I3cFull at h
      unfold i3cCmd
      omega
    exact congrArg (fun t : State => Host.Outcome.next (t.emit (.i3c true []))) ha

theorem i3cPrivateWrite_refused (ho : s.i3cOn = true) (h : ¬I3cFull bs ∨ i3cChip bs = 0xFFFF) : Gives (.i3cPrivateWrite bs) s fun t =>
    t.toll.i3cAns = some (0x3A05, 0) ∧ t.toll.i3cWait = false ∧ t.outs = s.outs ++ [.i3c true []] ∧ t.regs = s.regs ∧ SameBytes s t :=
  Gives.intro (exec_i3cPrivateWrite_refused ho h) ⟨rfl, rfl, rfl, rfl, fun _ => rfl⟩

/-! ### An access of this chip -/

theorem State.i3cAccess_here (hf : I3cFull bs) (hc : i3cChip bs ≠ 0xFFFF) (hh : s.isHere (i3cChip bs) = true) :
    s.i3cAccess (i3cCmd bs) (i3cChip bs) (i3cAddr bs) (i3cValue bs) =
      (s.i3cBegin false).regAsk 0 (.access (i3cAsk bs (s.toll.i3cSeq + 1))) := by
  have hcmd := hf.cmd
  rw [State.i3cAccess, if_neg (by omega), if_pos hh]
  rfl

theorem State.serveAsk_i3cRead (u : State) (h : i3cCmd bs = 1) (k : Nat) :
    u.serveAsk (.access (i3cAsk bs k)) = u.localRead (i3cAddr bs) (.i3c k) := by
  simp only [State.serveAsk, i3cAsk, h, if_true]

theorem State.serveAsk_i3cWrite (u : State) (h : i3cCmd bs = 2) (k : Nat) :
    u.serveAsk (.access (i3cAsk bs k)) = u.localWrite u.chipAddr (i3cAddr bs) (i3cValue bs) (.i3c k) := by
  simp only [State.serveAsk, i3cAsk, h]
  rfl

/-- The access begun has its answer. -/
theorem State.i3cBegin_answer (s : State) (far : Bool) {t : State} (ht : t.toll = (s.i3cBegin far).toll) (st : Nat) (v : Word) :
    t.answer (.i3c (s.toll.i3cSeq + 1)) st v = { t with toll := { t.toll with i3cWait := false, i3cAns := some (st, v) } } :=
  State.answer_i3c (by rw [ht]; rfl) (by rw [ht]; rfl) st v

theorem serveAsk_closed (hf : I3cFull bs) (h : s.pathOpen (i3cAddr bs) (i3cCmd bs == 2) = false) :
    (s.i3cBegin false).serveAsk (.access (i3cAsk bs (s.toll.i3cSeq + 1))) =
      (s.i3cBegin false).answer (.i3c (s.toll.i3cSeq + 1)) 0x3A05 0 := by
  rcases hf.cmd with hc | hc
  · rw [State.serveAsk_i3cRead _ hc]
    rw [hc] at h
    exact State.localRead_closed (s := s.i3cBegin false) h _
  · rw [State.serveAsk_i3cWrite _ hc]
    rw [hc] at h
    exact State.localWrite_closed (s := s.i3cBegin false) h _ _ _

theorem serveAsk_fenced (hf : I3cFull bs) (hlt : i3cAddr bs < 0x400000000) (h8 : i3cAddr bs % 8 = 0) (hd : s.dieOn = true)
    (he : s.enabled (i3cAddr bs / 0x4000000) = false) : (s.i3cBegin false).serveAsk (.access (i3cAsk bs (s.toll.i3cSeq + 1))) =
      (((s.i3cBegin false).wakeFor (i3cAddr bs)).fencedAccess (i3cAddr bs / 0x4000000) (i3cAddr bs)).answer
        (.i3c (s.toll.i3cSeq + 1)) 0 0 := by
  rcases hf.cmd with hc | hc
  · rw [State.serveAsk_i3cRead _ hc]
    exact State.localRead_fenced (s := s.i3cBegin false) h8 hlt hd he _
  · rw [State.serveAsk_i3cWrite _ hc]
    exact State.localWrite_fenced (s := s.i3cBegin false) h8 hlt hd he _ _ _

theorem serveAsk_hold (hf : I3cFull bs) (h : HoldWord s (i3cAddr bs)) :
    (s.i3cBegin false).serveAsk (.access (i3cAsk bs (s.toll.i3cSeq + 1))) = ((s.i3cBegin false).wakeFor (i3cAddr bs)).holdPath (i3cAddr bs)
      (if i3cCmd bs = 1 then none else some (i3cValue bs)) (.i3c (s.toll.i3cSeq + 1)) := by
  rcases hf.cmd with hc | hc
  · rw [State.serveAsk_i3cRead _ hc, hc]
    exact State.localRead_hold (s := s.i3cBegin false) h _
  · rw [State.serveAsk_i3cWrite _ hc, hc]
    exact State.localWrite_hold (s := s.i3cBegin false) h _ _ _

theorem Joins.ofBegin {a : Nat} {v : Option Word} {k : Asker} {far : Bool} {t : State} (h : Joins a v k (s.i3cBegin far) t) :
    Joins a v k s t := ⟨h.1, fun b => h.2 b⟩

theorem i3cPrivateWrite_here (ho : s.i3cOn = true) (hf : I3cFull bs) (hc : i3cChip bs ≠ 0xFFFF) (hh : s.isHere (i3cChip bs) = true) :
    Asked (.i3cPrivateWrite bs) 0 (.access (i3cAsk bs (s.toll.i3cSeq + 1))) s (s.i3cBegin false) (·.emit (.i3c true [])) fun t =>
      (i3cCmd bs = 1 → PlainRead s (i3cAddr bs) →
        t.toll.i3cAns = some (0, s.pathReg (i3cAddr bs)) ∧ t.toll.i3cWait = false ∧ t.regs = s.regs) ∧
      (s.pathOpen (i3cAddr bs) (i3cCmd bs == 2) = false →
        t.toll.i3cAns = some (0x3A05, 0) ∧ t.toll.i3cWait = false ∧ t.regs = s.regs ∧ SameBytes s t) ∧
      (i3cAddr bs < 0x400000000 → i3cAddr bs % 8 = 0 → s.dieOn = true → s.enabled (i3cAddr bs / 0x4000000) = false →
        t.toll.i3cAns = some (0, 0) ∧ t.toll.i3cWait = false ∧ SameBytes s t) ∧
      (HoldWord s (i3cAddr bs) → t.toll.i3cAns = none ∧ t.toll.i3cWait = true ∧ t.toll.i3cSeq = s.toll.i3cSeq + 1 ∧
        Joins (i3cAddr bs) (if i3cCmd bs = 1 then none else some (i3cValue bs)) (.i3c (s.toll.i3cSeq + 1)) s t) := by
  refine Asked.intro (by rw [exec_i3cPrivateWrite ho hf, State.i3cAccess_here hf hc hh]) ⟨fun h1 hp => ?_, fun hp => ?_, fun hlt h8 hd he => ?_,
    fun hw => ?_⟩
  · have hr : (s.i3cBegin false).localRead (i3cAddr bs) (.i3c (s.toll.i3cSeq + 1)) =
        (s.i3cBegin false).answer (.i3c (s.toll.i3cSeq + 1)) 0 (s.pathReg (i3cAddr bs)) := State.localRead_plain (s := s.i3cBegin false) hp _
    rw [State.serveAsk_i3cRead _ h1, hr, s.i3cBegin_answer false rfl]
    exact ⟨rfl, rfl, rfl⟩
  · rw [serveAsk_closed hf hp, s.i3cBegin_answer false rfl]
    exact ⟨rfl, rfl, rfl, fun _ => rfl⟩
  · rw [serveAsk_fenced hf hlt h8 hd he]
    have hwake := (s.i3cBegin false).wakeFor_changes (i3cAddr bs)
    have hlog := ((s.i3cBegin false).wakeFor (i3cAddr bs)).fencedAccess_changes (i3cAddr bs / 0x4000000) (i3cAddr bs)
    rw [s.i3cBegin_answer false ((hlog.toll rfl).trans (hwake.toll rfl))]
    exact ⟨rfl, rfl, fun b => (hlog.sameBytes rfl rfl b).trans (hwake.sameBytes rfl rfl b)⟩
  · rw [serveAsk_hold hf hw]
    have ht : (((s.i3cBegin false).wakeFor (i3cAddr bs)).holdPath (i3cAddr bs) (if i3cCmd bs = 1 then none else some (i3cValue bs))
        (.i3c (s.toll.i3cSeq + 1))).toll = (s.i3cBegin false).toll := ((s.i3cBegin false).wakeFor_changes (i3cAddr bs)).toll rfl
    rw [ht]
    exact ⟨rfl, rfl, rfl, (joins_holdPath (s.i3cBegin false) _ _ _).ofBegin⟩

/-! ### An access of another chip -/

/-- The REG barge of an access of another chip is on its way; a write that disarms that chip aborts the swap. -/
theorem i3cPrivateWrite_far (ho : s.i3cOn = true) (hf : I3cFull bs) (hc : i3cChip bs ≠ 0xFFFF) (hh : s.isHere (i3cChip bs) = false)
    (hd : s.dieOn = true) (hl : (s.lookup s.bank (i3cChip bs) false).isSome = true) : Gives (.i3cPrivateWrite bs) s fun t =>
      t.toll.i3cWait = true ∧ t.toll.i3cAns = none ∧ t.toll.i3cAt = s.now ∧ SameBytes s t := by
  have hcmd := hf.cmd
  generalize hu : (s.i3cBegin true).askReg (i3cChip bs) (i3cAddr bs) (i3cValue bs) (i3cCmd bs - 1) (i3cNum (s.toll.i3cSeq + 1)) = u
  have huc : Changes [.regs, .mesh, .idle, .diag, .ibis, .outs] (s.i3cBegin true) u := hu ▸ State.askReg_changes _ _ _ _ _ _
  have ha : s.i3cAccess (i3cCmd bs) (i3cChip bs) (i3cAddr bs) (i3cValue bs) =
      if i3cCmd bs = 2 ∧ i3cAddr bs = Reg.WSWP_ARM ∧ !Fld.WSWP_ARM.armed.on (i3cValue bs) then (u.startAbort []).1 else u := by
    rw [State.i3cAccess, if_neg (by omega), if_neg (by simp [hh]), if_neg (by simp [hd]), if_neg (by simp [Option.ne_none_iff_isSome.mpr hl]), ← hu]
    rfl
  have hend {t : State} (ht : t.toll = (s.i3cBegin true).toll) (hb : SameBytes s t) :
      (t.emit (.i3c true [])).toll.i3cWait = true ∧ (t.emit (.i3c true [])).toll.i3cAns = none ∧
      (t.emit (.i3c true [])).toll.i3cAt = s.now ∧ SameBytes s (t.emit (.i3c true [])) := by
    have he : (t.emit (.i3c true [])).toll = (s.i3cBegin true).toll := ht
    rw [he]
    exact ⟨rfl, rfl, rfl, hb⟩
  have hub : SameBytes s u := huc.sameBytes rfl rfl
  refine Gives.intro (exec_i3cPrivateWrite ho hf) ?_
  rw [ha]
  split
  · have hs := u.startAbort_changes []
    exact hend ((hs.toll rfl).trans (huc.toll rfl)) fun b => (hs.sameBytes rfl rfl b).trans (hub b)
  · exact hend (huc.toll rfl) hub

theorem i3cPrivateWrite_lost (ho : s.i3cOn = true) (hf : I3cFull bs) (hc : i3cChip bs ≠ 0xFFFF) (hh : s.isHere (i3cChip bs) = false)
    (hd : s.dieOn = true) (hl : s.lookup s.bank (i3cChip bs) false = none) : Gives (.i3cPrivateWrite bs) s fun t =>
      t.toll.i3cWait = false ∧ t.toll.i3cAns = some (0x5906, 0) ∧ SameBytes s t := by
  have hcmd := hf.cmd
  have ha : s.i3cAccess (i3cCmd bs) (i3cChip bs) (i3cAddr bs) (i3cValue bs) = (s.logErr { code := 0x5906 }).i3cDone 0x5906 0 := by
    rw [State.i3cAccess, if_neg (by omega), if_neg (by simp [hh]), if_neg (by simp [hd]), if_pos (by simp [hl])]
  refine Gives.intro (exec_i3cPrivateWrite ho hf) ?_
  rw [ha]
  have hb : SameBytes s (s.logErr { code := 0x5906 }) := (s.logErr_changes _).sameBytes rfl rfl
  generalize s.logErr { code := 0x5906 } = u at hb
  exact ⟨rfl, rfl, hb⟩

end Private

/-! ### A private read (R449) -/

section Read

variable {s : State}

/-- An access that waits for another chip has waited longer than 1 ms. -/
def State.i3cLate (s : State) : Prop := s.toll.i3cWait = true ∧ s.toll.i3cFar = true ∧ s.toll.i3cAt + 1000000000 ≤ s.now

theorem exec_i3cPrivateRead (s : State) : exec .i3cPrivateRead s = execI3cPrivateRead s := rfl

theorem State.i3cExpire_notLate (h : ¬s.i3cLate) : s.i3cExpire = s := if_neg h

theorem State.i3cExpire_late (h : s.i3cLate) : s.i3cExpire = s.i3cDone 0x3A05 0 := if_pos h

theorem i3cPrivateRead_answer (ho : s.i3cOn = true) (h : ¬s.i3cLate) {st : Nat} {d : Word} (ha : s.toll.i3cAns = some (st, d)) :
    exec .i3cPrivateRead s = .next (s.emit (.i3c true (natLe 2 st ++ natLe 8 d.toNat))) := by
  simp only [exec_i3cPrivateRead, execI3cPrivateRead, State.i3cExpire_notLate h, ho, ha, Bool.not_true, Bool.false_eq_true, if_false]

theorem i3cPrivateRead_waits (ho : s.i3cOn = true) (h : ¬s.i3cLate) (ha : s.toll.i3cAns = none) :
    exec .i3cPrivateRead s = .next (s.emit (.i3c false [])) := by
  simp only [exec_i3cPrivateRead, execI3cPrivateRead, State.i3cExpire_notLate h, ho, ha, Bool.not_true, Bool.false_eq_true, if_false]

theorem i3cPrivateRead_late (ho : s.i3cOn = true) (h : s.i3cLate) : Gives .i3cPrivateRead s fun t =>
    t.toll.i3cAns = some (0x3A05, 0) ∧ t.outs = s.outs ++ [.i3c true (natLe 2 0x3A05 ++ natLe 8 0)] := by
  have hon : (s.i3cDone 0x3A05 0).i3cOn = true := ho
  have hans : (s.i3cDone 0x3A05 0).toll.i3cAns = some (0x3A05, 0) := rfl
  have h0 : (0 : Word).toNat = 0 := rfl
  refine Gives.intro (t := (s.i3cDone 0x3A05 0).emit (.i3c true (natLe 2 0x3A05 ++ natLe 8 0))) ?_ ⟨rfl, rfl⟩
  simp only [exec_i3cPrivateRead, execI3cPrivateRead, State.i3cExpire_late h, hon, hans, h0, Bool.not_true, Bool.false_eq_true, if_false]

theorem i3cPrivateRead_off (ho : s.i3cOn = false) : Gives .i3cPrivateRead s fun t => t.outs = s.outs ++ [.i3c false []] := by
  have hx : s.i3cExpire.i3cOn = false ∧ s.i3cExpire.outs = s.outs := by
    unfold State.i3cExpire
    split
    · exact ⟨ho, rfl⟩
    · exact ⟨ho, rfl⟩
  refine Gives.intro (t := s.i3cExpire.emit (.i3c false [])) ?_ (congrArg (· ++ [_]) hx.2)
  simp only [exec_i3cPrivateRead, execI3cPrivateRead, hx.1, Bool.not_false, if_true]

end Read

/-! ### The dynamic address (R448) -/

section Address

variable {s : State}

theorem entdaa_takes (d : BitVec 7) (hp : s.toll.pwrOk = true) (hn : s.toll.i3cDyn = none) : Gives (.entdaa d) s fun t =>
    t.toll = { s.toll with i3cDyn := some d.toNat } ∧ t.outs = s.outs ++ [.i3c true (natLe 6 (s.reg Reg.DEV_SERIAL).toNat)] := by
  have he : exec (.entdaa d) s = execEntdaa d s := rfl
  exact Gives.intro (he.trans (if_neg (by simp [hp, hn]))) ⟨rfl, rfl⟩

theorem setdasa_takes (st d : BitVec 7) (hp : s.toll.pwrOk = true) (hn : s.toll.i3cDyn = none) (h0 : s.toll.i3cStatic ≠ 0)
    (hs : st.toNat = s.toll.i3cStatic) : Gives (.setdasa st d) s fun t =>
      t.toll = { s.toll with i3cDyn := some d.toNat } ∧ t.outs = s.outs ++ [.i3c true []] := by
  have he : exec (.setdasa st d) s = execSetdasa st d s := rfl
  exact Gives.intro (he.trans (if_neg (by simp [hp, hn, h0, hs]))) ⟨rfl, rfl⟩

theorem address_refused (d st : BitVec 7) (h : s.toll.pwrOk = false ∨ s.toll.i3cDyn ≠ none) :
    exec (.entdaa d) s = .next (s.emit (.i3c false [])) ∧ exec (.setdasa st d) s = .next (s.emit (.i3c false [])) := by
  have he : exec (.entdaa d) s = execEntdaa d s := rfl
  have hs : exec (.setdasa st d) s = execSetdasa st d s := rfl
  have hc : (!s.toll.pwrOk) = true ∨ s.toll.i3cDyn.isSome = true :=
    h.imp (fun hp => by simp [hp]) Option.ne_none_iff_isSome.mp
  exact ⟨he.trans (if_pos hc), hs.trans (if_pos (hc.imp_right .inl))⟩

end Address

/-- Settles O48: the register path's accesses as they come, wait and are made, those of the holds as they complete, and the I3C target. -/
theorem registerAccess : Obligations.RegisterAccess := by
  intro s hwf
  refine ⟨registerWrite_asks s, fun x hq => ⟨State.serveRegs_due hq, fun hd => State.serveRegs_notDue ?_⟩, ?_, ?_, ?_,
    ⟨fun ho h st d ha => i3cPrivateRead_answer ho h ha, fun ho h ha => i3cPrivateRead_waits ho h ha, fun ho h => i3cPrivateRead_late ho h,
      i3cPrivateRead_off⟩,
    fun d st => ⟨fun hp hn => ⟨entdaa_takes d hp hn, setdasa_takes st d hp hn⟩, address_refused d st⟩, rfl, rfl⟩
  · intro y hy
    rw [hq] at hy
    rwa [List.mem_singleton.mp hy]
  · exact fun h pc r rest q hq hf hr => ⟨fun hw => holdRequestComplete_pathRead hq hf hr hw,
      fun v hw hword hqp _ => holdRequestComplete_pathWrite hwf hq hf hr hw hword.2.2.1 hqp⟩
  · exact fun x u h => ⟨fun ho hk hw hs => regBarge_reply h ho hk hw hs, fun ho => regBarge_asks h ho⟩
  · exact fun bs => ⟨i3cPrivateWrite_off, fun ho h => i3cPrivateWrite_refused ho h, fun ho hf hc hh => i3cPrivateWrite_here ho hf hc hh,
      fun ho hf hc hh hd => ⟨fun hl => i3cPrivateWrite_far ho hf hc hh hd hl, fun hl => i3cPrivateWrite_lost ho hf hc hh hd hl⟩⟩

end Sys2Proof.Machine
end

section
/-! SUPPORT. RoCEv2 (R442): rate recovery lets every queue pair send, and a packet that goes sets the pacing of the queue pair that it
names. Where the pacing of another pair holds it, that refutes the obligation on RoCEv2. -/

namespace Sys2Proof.Machine

/-! ### A packet sets the pacing of the pair that it names -/

/-- Frames wait by priority and not by queue pair. -/
theorem State.sendMac_qps (s : State) (i q : Nat) (o : Output) : (s.sendMac i q o).host.qps = s.host.qps := by
  unfold State.sendMac
  dsimp only
  split
  · rfl
  split
  · rfl
  split
  · rfl
  · rfl

theorem State.roceSend_paceB (s : State) (i : Nat) (k : RocePkt) : ((s.roceSend i k).qp k.qp).paceB = k.bytes.length := by
  unfold State.roceSend State.qp
  rw [State.sendMac_qps]
  exact congrArg Qp.paceB (smGet_put_same _ _ _ _)

/-- The pacing of a pair that holds one packet back, and that its rate lets go, sends it. -/
theorem State.paceQp_one {s : State} {n i : Nat} {k : RocePkt} (h : (s.qp n).paced = [(i, k)]) (ho : s.paceOpen n = true) :
    s.paceQp n 1 = (s.setQp n { s.qp n with paced := [] }).roceSend i k := by
  simp only [State.paceQp, h, ho, if_true]

/-- A pair that has sent no bytes may send at any rate. -/
theorem State.paceOpen_fresh {s : State} {n : Nat} (ha : (s.qp n).paceAt = 0) (hb : (s.qp n).paceB = 0) : s.paceOpen n = true := by
  simp [State.paceOpen, State.paceTime, ha, hb]

/-! ### Rate recovery -/

/-- Before the packets go, rate recovery has moved the time of the pair's last change alone, in what the queue pairs hold. -/
theorem execRateRecovery_paces {s : State} {p : BitVec 12} (h : s.qpReady p.toNat = true) :
    ∃ u : State, exec (.rateRecovery p) s = .next (u.setQp p.toNat { u.qp p.toNat with rateAt := u.now }).paceWork ∧ u.host = s.host := by
  have he : exec (.rateRecovery p) s = execRateRecovery p s := rfl
  have hr : ((s.advanceTo ((s.qp p.toNat).rateAt + 55000000)).readQp p.toNat).host = s.host :=
    (State.readQp_changes _ _).host.trans (State.advanceTo_changes _ _).host
  unfold execRateRecovery at he
  simp only [h, Bool.not_true, Bool.false_eq_true, if_false] at he
  refine ⟨_, he, ?_⟩
  split
  · exact hr
  · exact (State.setQpField_changes _ _ _ _ _).host.trans hr

/-! ### A pair whose pacing holds a packet of another pair back -/

/-- A SEND of one byte of queue pair 0. -/
def strayPacket : RocePkt := { qp := 0, kind := 0, psn := 0, bytes := [0] }

/-- Queue pair 1, with that packet of queue pair 0 in its pacing. -/
def strayQp : Qp := { paced := [(0, strayPacket)] }

/-- Queue pair 0 is ready, with nothing to send, and the pacing of queue pair 1 holds back a packet of queue pair 0. -/
def strayState : State := { State.reset with
  regs := [(Reg.ENET_QP, Fld.ENET_QP.count.set 0 2)]
  mem := [⟨40, 1⟩]
  host := { qps := [(1, strayQp)] } }

theorem strayState_wf : strayState.wf = true := by decide

theorem strayState_ready : strayState.qpReady 0 = true := by decide

/-- With these queue pairs, all that pair 1 holds back goes, and pair 0 is paced by it. -/
theorem paceWork_stray {u : State} (h : u.host = strayState.host) (x : Qp) (hx : x.paced = []) :
    ((u.setQp 0 x).paceWork.qp 0).paceB = 1 := by
  have hqps : (u.setQp 0 x).host.qps = [(0, x), (1, strayQp)] := congrArg (fun w : Wharfinger => smPut w.qps 0 x) h
  have hq : (u.setQp 0 x).qp 1 = strayQp := congrArg (fun m => smGet ({} : Qp) m 1) hqps
  have hopen : (u.setQp 0 x).paceOpen 1 = true := State.paceOpen_fresh (congrArg Qp.paceAt hq) (congrArg Qp.paceB hq)
  have hw : (u.setQp 0 x).paceWork = (u.setQp 0 x).paceQp 1 1 := by
    simp only [State.paceWork, hqps, List.foldl_cons, List.foldl_nil, hx, List.length_nil, State.paceQp]
    rfl
  rw [hw, State.paceQp_one (congrArg Qp.paced hq) hopen]
  exact State.roceSend_paceB _ 0 strayPacket

/-- Refutes O49: its last clause says that RATE_RECOVERY leaves a pair with nothing to send as it was but for the time of the change. In
`strayState` the pacing of pair 1 holds a packet that names pair 0; it goes in the same command, and sets what pair 0's pacing counts. No
clause, and no part of the canonical form, says that a pair's pacing holds its own packets alone. -/
theorem not_rdma : ¬ Obligations.Rdma := by
  intro hall
  obtain ⟨-, -, -, -, hpairs⟩ := hall strayState strayState_wf
  obtain ⟨t, ht, -, -, -, hkept, -⟩ := (hpairs 0 strayState_ready).2
  obtain ⟨u, hu, hhost⟩ := execRateRecovery_paces (p := 0) strayState_ready
  have htu : t = (u.setQp 0 { u.qp 0 with rateAt := u.now }).paceWork := by
    injection ht.symm.trans hu
  have hidle : (u.qp 0).paced = [] := congrArg (fun w : Wharfinger => (smGet ({} : Qp) w.qps 0).paced) hhost
  have hsent : (t.qp 0).paceB = 1 := by
    rw [htu]
    exact paceWork_stray hhost _ hidle
  have hleft : (t.qp 0).paceB = 0 := congrArg Qp.paceB (hkept rfl)
  omega

end Sys2Proof.Machine
end
